-- ==== Sys2Proof/Word.lean ====
section
/-! DEFINITION. The word types of the adapter: bytes, 64-bit register words, and the sparse tables that State is
made of. -/

namespace Sys2Proof

/-- A byte of a frame, of host memory or of on-device memory. -/
abbrev Byte := BitVec 8

/-- A register word; 32-bit registers use its low half (spec/00_scope.md R14). -/
abbrev Word := BitVec 64

/-- A byte string. -/
abbrev Bytes := List Byte

/-- A sparse table: key and value pairs, keys rising, no entry equal to the table's default value. -/
abbrev SMap (α : Type) := List (Nat × α)

end Sys2Proof
end

