-- ==== Sys2Proof/Syntax.lean ====
section
/-! DEFINITION. The commands of the adapter: every row of the opcode table, with its operands. -/

namespace Sys2Proof

/-- How the host answered a DMA read or a translation that a command needs (spec/11_host_interface.md R285 to R292,
spec/01_architecture.md R26, R35). Host memory is outside the adapter, so what it holds comes with the command. -/
inductive HostReply
  /-- the data read -/
  | data (bytes : Bytes)
  /-- a translation fault -/
  | xlateFault
  /-- a failed read: completion timeout, UR or CA, poison or ECRC -/
  | timeout
  | unsupported
  | poisoned
  | ecrc
deriving DecidableEq, Repr, Inhabited

/-- How a 64-bit register is written: whole, or its low or high 32-bit word (spec/00_scope.md R14). -/
inductive Width
  | full | low | high
deriving DecidableEq, Repr, Inhabited


/-- The NC-SI commands of the board management controller that the spec names (spec/03_ports.md R85), and the other
mandatory commands of DSP0222: those that change the channel by name, those that only report by their number. -/
inductive NcSiCmd
  | clearInitialState
  | selectPackage
  | deselectPackage
  | enableChannel
  | disableChannel
  | resetChannel
  | enableTx
  | disableTx
  /-- AEN Enable: the mask of asynchronous events -/
  | aenEnable (mask : Nat)
  /-- Set Link: the settings word -/
  | setLink (settings : Nat)
  /-- Set MAC Address: an address filter set or cleared -/
  | addFilter (mac : Nat)
  | removeFilter (mac : Nat)
  | clearFilters
  /-- Set VLAN Filter, Enable VLAN with its mode, Disable VLAN -/
  | vlanFilter (vid : Nat) (on : Bool)
  | enableVlan (mode : Nat)
  | disableVlan
  /-- Enable and Disable Broadcast Filter -/
  | broadcast (kinds : Nat)
  | noBroadcast
  | linkStatus
  /-- OEM: link state of every network port -/
  | portLinks
  /-- OEM: the firmware counter totals of a port -/
  | portTotals (port : Nat)
  | mandatory (code : Nat)
deriving DecidableEq, Repr, Inhabited

/-- The ALU part of a microcode word beside its opcode: SF, dst, srcA, srcB and the 16 shift and mask bits
(spec/06_microcode.md R150). -/
structure AluArgs where
  sf : Bool
  dst : Nat
  a : Nat
  b : Nat
  shift : Nat
deriving DecidableEq, Repr, Inhabited

/-- The MEM part beside its opcode. -/
structure MemArgs where
  idx : Bool
  scale : Nat
  reg : Nat
  space : Nat
  offset : Nat
  size : Nat
  /-- the word's IMM, read by a store of IMM, IMMS or IMMH -/
  imm : Nat := 0
deriving DecidableEq, Repr, Inhabited

/-- What the memories say to the issue of a word: its control-store read corrected or uncorrectable, a general register it
reads corrected or uncorrectable, a cell of its packet that fails its check at a DONE (spec/06_microcode.md R147;
spec/05_brew_engines.md R135, R146; spec/01_architecture.md R27). -/
structure WordIo where
  csCorrected : Bool := false
  csBad : Bool := false
  regCorrected : Bool := false
  regBad : Bool := false
  cellBad : Bool := false
deriving DecidableEq, Repr, Inhabited

/-- The issue of a word: by which thread, and what the memories say to it. -/
structure Issue where
  t : Nat
  io : WordIo := {}
deriving DecidableEq, Repr, Inhabited

/-- An input that an offload group takes: the thread whose request it serves, or the job whose data it reads, and whether the
input fails its cell check (spec/07_offloads.md R202). -/
structure OflInput where
  src : Nat
  bad : Bool := false
deriving DecidableEq, Repr, Inhabited

/-- The TBL part beside its opcode. -/
structure TblArgs where
  table : Nat
  key : Nat
  res : Nat
  flags : Nat
deriving DecidableEq, Repr, Inhabited


/-- A decision about a faulted thread that Barista takes itself (spec/05_brew_engines.md R137, R138). -/
structure Decision where
  target : Nat
  newPc : Option Nat := none
  reg : Option (Nat × Nat) := none
deriving DecidableEq, Repr, Inhabited


/-- What ends the data movement of a copy engine turn early (spec/15_copy_engine.md R362, R365). -/
inductive CopyStop
  | nothing
  /-- no translation of the next step's page of the operand the steps are aligned to, or of the k-th page the step touches of
  the other one -/
  | xlateFault (other : Option Nat)
  /-- a host read that fails so; none: a write, or HBM, that cannot complete -/
  | noResponse (why : Option HostReply)
  /-- host data that arrive damaged so; none: HBM data, or a failed handover check -/
  | dataError (why : Option HostReply)
deriving DecidableEq, Repr, Inhabited

/-- What a copy engine turn meets outside the engine: the host's answer to the descriptor read, the bytes of the source
and of COMPARE's second operand as host memory holds them, the steps that complete before something ends the turn, and
whether a status write-back cannot be made. -/
structure CopyIo where
  desc : HostReply
  src : Bytes := []
  dst : Bytes := []
  steps : Nat := 0
  stop : CopyStop := .nothing
  lost : Bool := false
deriving DecidableEq, Repr, Inhabited

/-- A host write that changes a function's message masks: a vector's mask bit, the Function Mask, MSI-X Enable
(spec/11_host_interface.md R282). -/
inductive MsixWrite
  | vector (vec : Nat) (masked : Bool)
  | fnMask (on : Bool)
  | enable (on : Bool)
deriving DecidableEq, Repr, Inhabited

/-- What a Translation Completion says (spec/11_host_interface.md R285, R295). -/
inductive XlateReply
  /-- a translation: untranslated and translated base, size, permissions -/
  | granted (base tbase size : Nat) (rd wr : Bool)
  | noAccess
  /-- UR or CA status -/
  | failed
  /-- its handover check fails -/
  | damaged
deriving DecidableEq, Repr, Inhabited

/-- A host's answer to a page request (spec/11_host_interface.md R289, R290). -/
inductive PageReply
  | success | invalid | responseFailure
deriving DecidableEq, Repr, Inhabited

/-- The two paths of an ECI command (spec/13_control_interface.md). -/
inductive EciPath
  | mailbox | admin
deriving DecidableEq, Repr, Inhabited

/-- The service of an accepted ECI command: its function and path, what host memory answers to each access the command
makes in turn (a write is answered by data without bytes), a failed parity of the response, and a translation fault on
an admin entry's response address (spec/13_control_interface.md R320, R330; spec/11_host_interface.md R295). -/
structure Eci where
  fn : Nat
  path : EciPath := .mailbox
  io : List HostReply := []
  badOut : Bool := false
  respFault : Bool := false
deriving DecidableEq, Repr, Inhabited

/-- How a debug command arrives: as an ECI command, or through JTAG with its payload words (spec/05_brew_engines.md R142). -/
inductive DebugVia
  | eci (e : Eci)
  | jtag (words : List Nat)
deriving DecidableEq, Repr, Inhabited

/-- What a long command meets while it runs in the background: the host's answers to its accesses in turn, a failed parity
of its response, the units that fail to stage, to train or their self-test, the pseudo-channels whose lane fault a
retraining remaps, and a flash write that verifies (spec/13_control_interface.md R324, R330; spec/01_architecture.md R28;
spec/16_memory.md R382; spec/18_power_reset_package.md R414). -/
structure LongIo where
  io : List HostReply := []
  failed : List Nat := []
  lanes : List Nat := []
  verified : Bool := true
deriving DecidableEq, Repr, Inhabited

/-- How an HBM access ends (spec/16_memory.md R383): corrected or uncorrectable data, a parity error on command or address
that the retry mends or not. -/
inductive HbmResult
  | ok | corrected | uncorrected | parityRetried | parityFailed
deriving DecidableEq, Repr, Inhabited

/-- A rate threshold whose window ends (spec/00_scope.md R423): the corrected errors of a cluster, a traffic manager half,
a host port, an HBM stack, the copy engine, Barista's SRAM and the units without a rate event of their own; die-link
retries; corrected errors of an SRAM instance or one of its rows; cell check failures of a Carafe bank; uncorrectable
reads of a pseudo-channel; failing reads of one of its rows. -/
inductive RateSource
  | cluster (c : Nat)
  | half (h : Nat)
  | hostPort (k : Nat)
  | stack (k : Nat)
  | copy
  | barista
  | others
  | dieLinks
  | sram (instance_ : Nat)
  | sramRow (instance_ row : Nat)
  | carafe (bank : Nat)
  | pseudoChannel (pc : Nat)
  | hbmRow (pc bank row : Nat)
deriving DecidableEq, Repr, Inhabited

/-- What a boot meets: fuses whose check fails, FORCE_RECOVERY_N low, firmware that never sets FW_READY, a time reference that
is present, a signer that unseals its key, and the pseudo-channels whose lane fault training remaps or that fail training
(spec/18_power_reset_package.md R411, R412; spec/16_memory.md R381; spec/17_errors_and_service.md R401). -/
structure BootIo where
  fuseErr : Bool := false
  forceRecovery : Bool := false
  hang : Bool := false
  refOk : Bool := true
  signerOk : Bool := true
  lanes : List Nat := []
  failed : List Nat := []
deriving DecidableEq, Repr, Inhabited

/-- A sample of the power monitors: readings of temperature sensors in 0.1 °C by sensor, and VIN in mV, 0.1 W and 0.01 A
(spec/18_power_reset_package.md, "Power states and throttling"). -/
structure PowerSample where
  temps : List (Nat × Int) := []
  mv : Nat := 12000
  dw : Nat := 0
  ca : Nat := 0
deriving DecidableEq, Repr, Inhabited

/-- How a received frame's FCS compares: right, wrong, or the inverse of the right one (spec/03_ports.md R73). -/
inductive RxFcs
  | good | bad | stomped
deriving DecidableEq, Repr, Inhabited

/-- A frame that a port receives: its bytes without FCS, the FCS, the phase and FEC symbol of its first bit, no credit in the
receive cell queue, whether it is being forwarded by cut-through, and its fragments beside the first with a failed
reassembly (spec/03_ports.md R70 to R78; spec/02_time_base.md R49, R52). -/
structure RxFrame where
  data : Bytes
  fcs : RxFcs := .good
  phase : Nat := 0
  symbol : Nat := 0
  noCredit : Bool := false
  cutThrough : Bool := false
  /-- a cell of it fails its check at MACsec verification -/
  badCell : Bool := false
  frags : Nat := 0
  assyErr : Bool := false
  /-- FEC codewords corrected and uncorrectable, and fragments with an unknown SMD, since the frame before it -/
  fecCorrected : Nat := 0
  fecUncorrected : Nat := 0
  smdErr : Nat := 0
deriving DecidableEq, Repr, Inhabited

/-- How far a transmission goes: to the frame's end, it is still in progress, or to a legal cut point of a preemptable frame
(spec/03_ports.md R74, R78). -/
inductive TxEnd
  | whole | midway | fragment
deriving DecidableEq, Repr, Inhabited

/-- What a MAC meets as it reads a frame's cells: a cell check that fails, cell data that do not arrive in time
(spec/03_ports.md R72). -/
structure TxCells where
  badCell : Bool := false
  starved : Bool := false
deriving DecidableEq, Repr, Inhabited

/-- What a MAC meets while it transmits: its cells, the phase of the first bit, and how far it gets (spec/03_ports.md R72,
spec/02_time_base.md R49). -/
structure TxIo extends TxCells where
  phase : Nat := 0
  stop : TxEnd := .whole
deriving DecidableEq, Repr, Inhabited

/-- The start of a queue's head frame at its launch time: the queue, and what its MAC meets. -/
structure HeadStart where
  q : Nat
  io : TxIo := {}
deriving DecidableEq, Repr, Inhabited

/-- Where a host access of a function goes: an offset of BAR2, of the function's BAR0 or of its configuration space, or an
enable of that space: ATS Enable, PASID Enable, PRI Enable with its Outstanding Page Request Allocation. -/
inductive RegPlace
  | bar2 (off : Nat)
  | bar0 (off : Nat)
  | cfg (off : Nat)
  | ats
  | pasid
  | pri (alloc : Nat)
deriving DecidableEq, Repr, Inhabited

/-- A watched credited queue (spec/01_architecture.md, "Credited queues"): receive cells of a port, parse requests, dispatch and
verdicts of a pipeline, lookup requests of a cluster, messages of an offload group, frames from a pipeline's reorder unit to
the traffic manager, a die link, a pseudo-channel's requests, commands of a unit, event messages. -/
inductive WatchedQueue
  | receiveCell (port : Nat)
  | parse (pipe : Nat)
  | dispatch (pipe : Nat)
  | lookup (cluster : Nat)
  | offload (group : Nat)
  | verdict (pipe : Nat)
  | enqueue (pipe : Nat)
  | dieLink (link : Nat)
  | hbm (pc : Nat)
  | control (unit : Nat)
  | event
deriving DecidableEq, Repr, Inhabited

/-- The kinds of watched queues. -/
inductive QueueKind
  | receiveCell | parse | dispatch | lookup | offload | verdict | enqueue | dieLink | hbm | control | event
deriving DecidableEq, Repr, Inhabited


/-- The commands and events of the opcode table, one constructor a row, in the table's order. -/
inductive Instr
  /-- REGISTER_WRITE (R9): A host write to a register that has no row of its own sets its fields by access type, or is ignored and logged for firmware-owned or locked fields. -/
  | registerWrite (fn : Nat) (place : RegPlace) (size v : Nat)
  /-- RC_REGISTER_READ (R11): A read of an RC register returns its value and zeroes it atomically. -/
  | rcRegisterRead (fn : Nat) (place : RegPlace) (size : Nat)
  /-- LOW_WORD_READ (R14): A low-word read of a 64-bit register latches the high word in the reading function's latch. -/
  | lowWordRead (fn off : Nat)
  /-- CREDIT_STALL (R22): A watched queue holds an entry with no credit returned for LIMIT_US, so the consumer is fenced. -/
  | creditStall (kind : QueueKind) (ix : Nat)
  /-- FENCE_NOTICE (R23): Producers learn that a consumer is fenced, discard its queued entries, reclaim credits and route round it. -/
  | fenceNotice (unit obj : Nat)
  /-- MAC_RX_FRAME (R70): The MAC receives a frame, writes cells, checks FCS, length and credit, and counts it. -/
  | macRxFrame (port : Nat) (x : RxFrame)
  /-- GRINDER_PARSE (R89): Grinder takes a parse request and parses the packet into the header window and metadata. -/
  | grinderParse (h : Nat)
  /-- L2_SOURCE_CHECK (R96): The lookup front end checks the source address, learns or moves the entry and records L2SRC. -/
  | l2SourceCheck (h : Nat)
  /-- DISPATCH (R122): The dispatcher hands a packet to a free packet thread and loads window, metadata and entry point. -/
  | dispatch (pipe : Nat)
  /-- REORDER_RELEASE (R127): The reorder unit passes a verdict on once every earlier packet of its flow has left. -/
  | reorderRelease (h : Nat)
  /-- DEFERRED_STAGE (R172): The packet's deferred offload list runs after the reorder unit and before the traffic manager. -/
  | deferredStage (h : Nat) (bad : Bool)
  /-- TM_ENQUEUE (R206): A frame is enqueued to the scheduler queue chosen by its verdict, or dropped, or handed to release. -/
  | tmEnqueue (h : Nat)
  /-- TM_SCHEDULE (R210): A slice chooses the next candidate frame by priority and deficit round robin and charges its path. -/
  | tmSchedule (slice port : Nat)
  /-- MAC_TX_FRAME (R72): The MAC transmits a frame, computing the FCS while verifying cell checks, stomping it on failure. -/
  | macTxFrame (port : Nat) (cells : TxCells) (phase : Nat) (stop : TxEnd)
  /-- RX_DMA (R310): The host interface writes a frame into the oldest posted buffer of its receive ring, or holds or drops it. -/
  | rxDma (h : Nat) (fault badCell : Bool)
  /-- HOLD_LIST_DELIVER (R36): A frame on a ring's hold list is delivered in arrival order once a buffer and translation are available. -/
  | holdListDeliver (ring : Nat) (fault badCell : Bool)
  /-- RX_HOLD_TIMEOUT (R310): A frame that has waited HOLD_US on the hold list is dropped and counted. -/
  | rxHoldTimeout (h : Nat)
  /-- TX_BUFFER_DATA (R26): Transmit buffer data arrives and is written to Carafe cells, or the job fails on poison or ECRC. -/
  | txBufferData (job : Nat) (reply : HostReply)
  /-- EPOCH_COMMITTED (R33): The commit instant arrives and every unit switches to the staged state within the synchroniser spread. -/
  | epochCommitted
  /-- EPOCH_DRAINED (R34): The last unit retires its old state and the drain ends. -/
  | epochDrained
  /-- TSU_FREQ_OFFSET_WRITE (R38): A write of TSU_FREQ_OFFSET recomputes the increment and counts as a steering write. -/
  | tsuFreqOffsetWrite (fn : Nat) (w : Width) (v : Nat)
  /-- TSU_STEP_ARM (R42): A write of STEP_CTRL.ARM arms a phase step or refuses it. -/
  | tsuStepArm (fn : Nat) (abs cancel : Bool)
  /-- TSU_STEP_CANCEL (R42): A write of STEP_CTRL.CANCEL disarms a step not yet applied. -/
  | tsuStepCancel (fn : Nat) (abs : Bool)
  /-- TIME_STEP_APPLIED (R41): An armed step applies at its second boundary and is journalled. -/
  | timeStepApplied
  /-- TSU_SLEW_SET_WRITE (R44): A write of TSU_SLEW_SET replaces the slew remainder, or holds a low word. -/
  | tsuSlewSetWrite (fn : Nat) (w : Width) (v : Nat)
  /-- TSU_SLEW_RATE_WRITE (R44): A write of RATE_NS changes the slew rate and clears the accumulator. -/
  | tsuSlewRateWrite (fn v : Nat)
  /-- TIME_SLEW_DONE (R44): The slew remainder reaches zero. -/
  | timeSlewDone
  /-- TIME_SECOND_BOUNDARY (R45): Device time counts across a second boundary, pulsing 1PPS and raising TIME_SECOND. -/
  | timeSecondBoundary
  /-- TSU_TIME_NSF_READ (R46): A low-word read of TSU_TIME_NSF latches all 96 bits of device time. -/
  | tsuTimeNsfRead (fn : Nat)
  /-- TIME_HOLDOVER_ENTER (R47): Two seconds pass in TRACKING without a steering write, so HOLDOVER is entered. -/
  | timeHoldoverEnter
  /-- TSU_BOARD_DLY_WRITE (R54): A write of TSU_BOARD_DLY applies to later stamps and is journalled. -/
  | tsuBoardDlyWrite (fn port v : Nat)
  /-- TSU_REF_WRITE (R56): A change of reference SEL holds the PLL until relock. -/
  | tsuRefWrite (fn v : Nat)
  /-- TIME_REF_LOST (R56): The selected reference stops or leaves tolerance and the PLL holds its frequency. -/
  | timeRefLost
  /-- TIME_REF_RESTORED (R56): The time PLL relocks to its reference. -/
  | timeRefRestored
  /-- TIME_PLL_UNLOCK (R56): The time PLL itself loses lock. -/
  | timePllUnlock
  /-- PPS_IN_CAPTURED (R57): A PPS_IN rising edge is stamped. -/
  | ppsInCaptured (phase : Nat)
  /-- PPS_IN_MISSING (R57): No PPS_IN edge follows within 1.1 s of the last. -/
  | ppsInMissing
  /-- OVN_EN_WRITE (R59): A write of OVN_CTRL.EN moves the oven to WARMING or to COLD. -/
  | ovnEnWrite (fn v : Nat)
  /-- OVN_HOLD_WRITE (R59): A write of OVN_CTRL.HOLD moves the oven to or from HELD. -/
  | ovnHoldWrite (fn v : Nat)
  /-- OVN_SETTLING (R59): The oven error reaches WARM_BAND and SETTLING is entered with the integrator preset. -/
  | ovnSettling
  /-- OVN_LOCKED (R59): The error stays in LOCK_BAND for SETTLE_S seconds and LOCKED is entered. -/
  | ovnLocked
  /-- OVN_UNLOCKED (R59): The error stays outside LOCK_BAND for 1 s and the oven returns to SETTLING. -/
  | ovnUnlocked
  /-- OVN_FAULT_SENSE (R59): Ten consecutive implausible ADC codes put the oven in FAULT. -/
  | ovnFaultSense
  /-- OVN_FAULT_WARMUP (R59): WARMING lasts WARM_TIMEOUT_MIN minutes and the oven enters FAULT. -/
  | ovnFaultWarmup
  /-- OVN_OVERTEMP (R58): The analogue comparator trips and forces the heater off. -/
  | ovnOvertemp
  /-- OVN_OT_LATCH_CLEAR (R61): A W1C of OT_LATCH leaves OVERTEMP when the comparator has cleared. -/
  | ovnOtLatchClear (fn : Nat) (tripped : Bool)
  /-- OVN_DUTY_LIMIT (R59): Duty stays at DUTY_MAX for 60 s while LOCKED. -/
  | ovnDutyLimit
  /-- OVN_EFC_WRITE (R60): A write of OVN_EFC sets the EFC DAC and is journalled. -/
  | ovnEfcWrite (fn v : Nat)
  /-- PRT_GROUP_APPLY (R68): GO applies the PRT_MODE of a lane group, or refuses an illegal configuration. -/
  | prtGroupApply (fn group : Nat)
  /-- PRT_LINK_UP (R69): A port gains lock, FEC and settled calibration and reports link up. -/
  | prtLinkUp (port maxSkew refWait : Nat)
  /-- PRT_LOCAL_FAULT (R69): A local fault begins and the transmitter sends remote-fault ordered sets. -/
  | prtLocalFault (port : Nat)
  /-- PRT_REMOTE_FAULT (R69): A remote fault is received. -/
  | prtRemoteFault (port : Nat)
  /-- PRT_LINK_DOWN (R69): A local fault persists for 10 µs and the port goes down. -/
  | prtLinkDown (port : Nat)
  /-- PORT_RESET (R83): PRT_CTRL.RESET takes the port down and retrains it. -/
  | portReset (fn port v : Nat)
  /-- STORM_CLEAR (R77): PRT_CTRL.STORM_CLEAR ends the storm action. -/
  | stormClear (fn port v : Nat)
  /-- RX_PAUSE_FRAME (R74): A received PAUSE frame holds the whole transmitter for pause_time quanta. -/
  | rxPauseFrame (port time : Nat)
  /-- RX_PFC_FRAME (R74): A received PFC frame holds the named classes for their times. -/
  | rxPfcFrame (port enable : Nat) (times : List Nat)
  /-- FC_HOLD_EXPIRE (R74): A flow-control hold runs out and the transmitter or class resumes. -/
  | fcHoldExpire (port c : Nat)
  /-- XOFF_REFRESH (R76): REFRESH quanta pass with occupancy above XON and the XOFF is repeated. -/
  | xoffRefresh (port c : Nat)
  /-- PRT_PAUSE_STORM (R77): A hold lasts STORM_MS and the storm action takes effect. -/
  | prtPauseStorm (port c : Nat)
  /-- PREEMPT_ENABLE_WRITE (R78): A write of PRT_PREEMPT.EN starts preemption verification. -/
  | preemptEnableWrite (fn port v : Nat)
  /-- PREEMPT_VERIFY_FRAME (R78): A verify interval expires and a verify frame is sent, or verification fails. -/
  | preemptVerifyFrame (port : Nat)
  /-- PRT_FEC_DEGRADED (R86): A one-second window ends with more than 2^20 corrected codewords. -/
  | prtFecDegraded (port : Nat)
  /-- COUNTER_OWNER_COMMIT (R81): Writing OWNER = 1 hands the port counters to the manager and firmware reports its final totals. -/
  | counterOwnerCommit (fn v : Nat)
  /-- MGMT_FRAME_RX (R84): A management port frame is delivered to the manager's rings or to NC-SI. -/
  | mgmtFrameRx (data : Bytes) (good : Bool)
  /-- NCSI_COMMAND (R85): An NC-SI command from the board management controller is served. -/
  | ncsiCommand (cmd : NcSiCmd)
  /-- L2_AGE_VISIT (R101): The L2 sweeper visits an entry and clears HIT, sets STALE or removes it. -/
  | l2AgeVisit (pipe entry : Nat)
  /-- L2_AGE_PASS_START (R102): An ageing pass of AGE_S seconds starts from entry 0. -/
  | l2AgePassStart (pipe : Nat)
  /-- TBL_L2_AGE_EN_WRITE (R102): A write of AGE_EN stops the sweeper or starts a new pass. -/
  | tblL2AgeEnWrite (fn pipe v : Nat)
  /-- L2_READ_CMD (R95): TBL_L2_RD_CMD GO latches one L2 entry into the read data registers. -/
  | l2ReadCmd (fn v : Nat)
  /-- FLOW_AGE_VISIT (R108): The flow sweeper visits a location of a half. -/
  | flowAgeVisit (half loc : Nat)
  /-- SEQ_INC (R153): A word with SEQ INC issues and continues at PC + 1. -/
  | seqInc (w : Issue)
  /-- SEQ_JUMP (R153): A word with SEQ JUMP continues at TARGET. -/
  | seqJump (w : Issue)
  /-- SEQ_BR (R153): A word with SEQ BR continues at TARGET when COND is true. -/
  | seqBr (w : Issue)
  /-- SEQ_BRN (R153): A word with SEQ BRN continues at TARGET when COND is false. -/
  | seqBrn (w : Issue)
  /-- SEQ_CALL (R153): A word with SEQ CALL pushes PC + 1 and continues at TARGET. -/
  | seqCall (w : Issue)
  /-- SEQ_RET (R153): A word with SEQ RET continues at the popped address. -/
  | seqRet (w : Issue)
  /-- SEQ_DISP16 (R153): A word with SEQ DISP16 continues at TARGET plus a 4-bit operand field. -/
  | seqDisp16 (w : Issue)
  /-- SEQ_WAIT (R133): A WAIT word parks the thread until a masked event is set. -/
  | seqWait (w : Issue)
  /-- SEQ_DONE (R123): A DONE word ends the packet and passes the verdict to the reorder unit. -/
  | seqDone (w : Issue)
  /-- SEQ_FAULT (R135): A SEQ FAULT word raises a PROGRAM fault after its other parts complete. -/
  | seqFault (w : Issue)
  /-- ALU_MOV (R155): ALU MOV writes B'. -/
  | aluMov (t : Nat) (f : AluArgs) (imm : Nat) (strict : Bool)
  /-- ALU_ADD (R155): ALU ADD writes A + B'. -/
  | aluAdd (t : Nat) (f : AluArgs) (imm : Nat) (strict : Bool)
  /-- ALU_SUB (R155): ALU SUB writes A - B'. -/
  | aluSub (t : Nat) (f : AluArgs) (imm : Nat) (strict : Bool)
  /-- ALU_AND (R155): ALU AND writes A and B'. -/
  | aluAnd (t : Nat) (f : AluArgs) (imm : Nat) (strict : Bool)
  /-- ALU_OR (R155): ALU OR writes A or B'. -/
  | aluOr (t : Nat) (f : AluArgs) (imm : Nat) (strict : Bool)
  /-- ALU_XOR (R155): ALU XOR writes A xor B'. -/
  | aluXor (t : Nat) (f : AluArgs) (imm : Nat) (strict : Bool)
  /-- ALU_ANDN (R155): ALU ANDN writes A and not B'. -/
  | aluAndn (t : Nat) (f : AluArgs) (imm : Nat) (strict : Bool)
  /-- ALU_SHLV (R155): ALU SHLV shifts A left by B' mod 64. -/
  | aluShlv (t : Nat) (f : AluArgs) (imm : Nat) (strict : Bool)
  /-- ALU_SHRV (R155): ALU SHRV shifts A right logically by B' mod 64. -/
  | aluShrv (t : Nat) (f : AluArgs) (imm : Nat) (strict : Bool)
  /-- ALU_SARV (R155): ALU SARV shifts A right arithmetically by B' mod 64. -/
  | aluSarv (t : Nat) (f : AluArgs) (imm : Nat) (strict : Bool)
  /-- ALU_MINU (R155): ALU MINU writes the unsigned minimum. -/
  | aluMinu (t : Nat) (f : AluArgs) (imm : Nat) (strict : Bool)
  /-- ALU_MAXU (R155): ALU MAXU writes the unsigned maximum. -/
  | aluMaxu (t : Nat) (f : AluArgs) (imm : Nat) (strict : Bool)
  /-- ALU_CMP (R155): ALU CMP sets flags of A - B' and writes nothing. -/
  | aluCmp (t : Nat) (f : AluArgs) (imm : Nat) (strict : Bool)
  /-- ALU_TST (R155): ALU TST sets flags of A and B' and writes nothing. -/
  | aluTst (t : Nat) (f : AluArgs) (imm : Nat) (strict : Bool)
  /-- ALU_INS (R155): ALU INS inserts a field of srcB into A. -/
  | aluIns (t : Nat) (f : AluArgs) (imm : Nat) (strict : Bool)
  /-- ALU_POPC (R155): ALU POPC writes the population count of B'. -/
  | aluPopc (t : Nat) (f : AluArgs) (imm : Nat) (strict : Bool)
  /-- ALU_CLZ (R155): ALU CLZ writes the leading zeros of B'. -/
  | aluClz (t : Nat) (f : AluArgs) (imm : Nat) (strict : Bool)
  /-- ALU_BSWAP (R155): ALU BSWAP reverses the bytes of B'. -/
  | aluBswap (t : Nat) (f : AluArgs) (imm : Nat) (strict : Bool)
  /-- ALU_CRC (R155): ALU CRC continues a CRC-32C over the 8 bytes of B'. -/
  | aluCrc (t : Nat) (f : AluArgs) (imm : Nat) (strict : Bool)
  /-- ALU_ADDC (R155): ALU ADDC writes A + B' + C. -/
  | aluAddc (t : Nat) (f : AluArgs) (imm : Nat) (strict : Bool)
  /-- ALU_SUBB (R155): ALU SUBB writes A - B' - (1 - C). -/
  | aluSubb (t : Nat) (f : AluArgs) (imm : Nat) (strict : Bool)
  /-- ALU_SEL (R155): ALU SEL writes A when Z = 1, else B'. -/
  | aluSel (t : Nat) (f : AluArgs) (imm : Nat) (strict : Bool)
  /-- ALU_MUL32 (R155): ALU MUL32 writes the 64-bit product of the low 32 bits. -/
  | aluMul32 (t : Nat) (f : AluArgs) (imm : Nat) (strict : Bool)
  /-- MEM_LD (R156): A MEM LD issues a load into a register block. -/
  | memLd (t : Nat) (f : MemArgs) (strict : Bool)
  /-- MEM_ST (R156): A MEM ST stores a register block. -/
  | memSt (t : Nat) (f : MemArgs) (strict : Bool)
  /-- MEM_FADD (R157): A MEM FADD atomically adds and returns the old value. -/
  | memFadd (t : Nat) (f : MemArgs) (strict : Bool)
  /-- MEM_SWAP (R157): A MEM SWAP atomically writes and returns the old value. -/
  | memSwap (t : Nat) (f : MemArgs) (strict : Bool)
  /-- MEM_CAS (R157): A MEM CAS atomically compares and swaps. -/
  | memCas (t : Nat) (f : MemArgs) (strict : Bool)
  /-- MEM_ADD (R157): A MEM ADD atomically adds with no return. -/
  | memAdd (t : Nat) (f : MemArgs) (strict : Bool)
  /-- MEM_RESULT_ARRIVE (R157): A load or atomic result arrives and clears its scoreboard bits. -/
  | memResultArrive (t : Nat) (bad : Bool)
  /-- TBL_LOOKUP (R94): A TBL LOOKUP issues a lookup to the L2, flow or LPM table. -/
  | tblLookup (t : Nat) (f : TblArgs) (strict : Bool)
  /-- TBL_INSERT (R105): A TBL INSERT inserts a flow entry, relocating entries if needed. -/
  | tblInsert (t : Nat) (f : TblArgs) (strict : Bool)
  /-- TBL_DELETE (R158): A TBL DELETE removes a flow entry. -/
  | tblDelete (t : Nat) (f : TblArgs) (strict : Bool)
  /-- TBL_LEARN (R158): A TBL LEARN requests learning of an L2 key. -/
  | tblLearn (t : Nat) (f : TblArgs) (strict : Bool)
  /-- TBL_RESULT_ARRIVE (R94): A table status and result arrive and clear their scoreboard bits. -/
  | tblResultArrive (t : Nat) (damaged : Bool)
  /-- CHANNEL_POST (R129): A word with CTL.POST copies the staging buffer to the destination endpoint. -/
  | channelPost (t : Nat)
  /-- INBOX_MESSAGE_ARRIVE (R132): A channel message enters a thread's inbox and sets MSG. -/
  | inboxMessageArrive (t : Nat)
  /-- INBOX_POP (R132): A write to INBOX_POP removes the head inbox message. -/
  | inboxPop (t : Nat)
  /-- SIGNAL (R154): A write to SIGNAL sets a signal event of a thread of the same engine. -/
  | signal (t v : Nat)
  /-- EVENT_CLR (R133): A write to EVENT_CLR clears latched thread events. -/
  | eventClr (t v : Nat)
  /-- FENCE_MESSAGE (R131): A FENCE message is answered once the sender's earlier memory writes are visible. -/
  | fenceMessage (c : Nat)
  /-- HOST_ACCESS_REQUEST (R35): A host-access channel request is performed in host memory and answered with a REPLY, or parks the thread on a fault. -/
  | hostAccessRequest (c : Nat) (reply : HostReply)
  /-- THREAD_TIMER_FIRE (R133): Device time reaches a thread's TIMER field and the TIMER event is set. -/
  | threadTimerFire (t : Nat)
  /-- SUP_RESUME (R137): A supervisor RESUME decision restarts a parked thread at the chosen PC. -/
  | supResume (c : Nat) (barista : Option Decision)
  /-- SUP_ABORT (R137): A supervisor ABORT ends the thread's packet with DROP. -/
  | supAbort (c : Nat) (barista : Option Decision)
  /-- SUP_FENCE_THREAD (R137): A supervisor FENCE_THREAD aborts and fences a thread. -/
  | supFenceThread (c : Nat) (barista : Option Decision)
  /-- SUP_FENCE_ENGINE (R137): A supervisor FENCE_ENGINE aborts and fences an engine's packet threads. -/
  | supFenceEngine (c : Nat) (barista : Option Decision)
  /-- SUP_ESCALATE (R137): A supervisor ESCALATE forwards the fault record to Barista. -/
  | supEscalate (c : Nat)
  /-- SUP_TIMEOUT (R138): A fault record waits BRW_SUP_TIMEOUT without a decision and the thread is aborted. -/
  | supTimeout (t : Nat)
  /-- RUN_LIMIT_EXPIRE (R139): A packet is held past BRW_RUN_LIMIT and the thread faults with RUN_LIMIT. -/
  | runLimitExpire (t : Nat)
  /-- ALL_WAIT (R140): All eight threads of an engine wait on signals alone for 1,024 cycles. -/
  | allWait (c e : Nat)
  /-- DEBUG_WINDOW_WRITE (R145): A write to a halted thread's debug window changes its state. -/
  | debugWindowWrite (fn t o : Nat) (w : Width) (v : Nat)
  /-- JTAG_CLAIM (R142): JTAG takes the debug claim. -/
  | jtagClaim
  /-- JTAG_RELEASE (R142): JTAG gives up the debug claim. -/
  | jtagRelease
  /-- CS_ECC_REPAIR (R168): Firmware rewrites or patches an uncorrectable control-store word and answers the supervisor. -/
  | csEccRepair (c bank a : Nat) (patch : Nat × Nat)
  /-- OFL_DEFER_REQUEST (R172): A deferred offload REQUEST is checked and registered on the packet's deferred list. -/
  | oflDeferRequest (t : Nat)
  /-- OFL_CHECK (R183): An immediate CHECK verifies outer IP and UDP checksums. -/
  | oflCheck (t : Nat)
  /-- ESP_DECRYPT (R186): An immediate DECRYPT infers the sequence number, verifies, updates the window and strips ESP. -/
  | espDecrypt (x : OflInput)
  /-- TLS_RX (R192): An immediate TLS RX decrypts a segment in place by the session's RX_STATE. -/
  | tlsRx (x : OflInput)
  /-- NVME_RX_PLACE (R197): An immediate RX_PLACE checks digests and places C2HData payload into command buffers. -/
  | nvmeRxPlace (x : OflInput) (fault : Option Nat)
  /-- OFL_GROUP_WAKE (R407): A request to a gated offload group wakes it within 20 µs. -/
  | oflGroupWake (g : Nat)
  /-- JOB_KEY_CHECK (R199): A KEY_CHECK job returns a context's key check value. -/
  | jobKeyCheck (job : Nat)
  /-- JOB_BULK_GCM (R308): A BULK_GCM job encrypts or decrypts a host buffer. -/
  | jobBulkGcm (x : OflInput) (reply : HostReply)
  /-- JOB_DIGEST (R199): A DIGEST job returns the CRC-32C of a host buffer. -/
  | jobDigest (job : Nat) (reply : HostReply)
  /-- TM_NODE_ACCESS (R205): TM_NODE_CMD GO reads or writes a scheduler node through the window. -/
  | tmNodeAccess (fn v : Nat)
  /-- TM_OBS_CFG_WRITE (R222): A write of TM_OBS_CFG changes observation mode and clears histograms. -/
  | tmObsCfgWrite (fn v : Nat)
  /-- TM_OBS_SAMPLE (R223): Every 1 µs of device time each enabled queue adds depth and delay samples. -/
  | tmObsSample
  /-- TM_QUEUE_RELOAD (R214): Firmware returns an emptied fenced default class queue to service. -/
  | tmQueueReload (q : Nat)
  /-- GCL_CHANGE_TIME (R216): A port's pending gate list becomes operational at its change time. -/
  | gclChangeTime (port : Nat)
  /-- GATE_CHANGE (R219): A gate control list entry boundary changes the gate states at the MAC. -/
  | gateChange (port : Nat)
  /-- LAUNCH_TIME_START (R220): A launch-time frame is started at its launch time, or judged late. -/
  | launchTimeStart (x : HeadStart)
  /-- REL_DEVICE_WRITE (R228): A write of REL_DEVICE sets the device number, or is refused while a group is enabled. -/
  | relDeviceWrite (fn v : Nat)
  /-- REL_CFG_WRITE (R239): A write of REL_CFG changes release capacity, or is refused below the admitted hold. -/
  | relCfgWrite (fn v : Nat)
  /-- REL_ENQUEUE (R232): A frame of a fairness group enters the release unit and is held or passed LATE. -/
  | relEnqueue (h : Nat)
  /-- REL_RELEASE (R232): A held frame falls due and is enqueued to its destination in key order. -/
  | relRelease
  /-- REL_SPILL_RETURN (R240): A spilled frame returns to Carafe at least 5 µs before its release time. -/
  | relSpillReturn (h : Nat) (bad : Bool)
  /-- STAMP_FIFO_DRAIN (R243): The completion writer merges a stamp FIFO entry into its job's completion. -/
  | stampFifoDrain (port : Nat)
  /-- STAMP_GAP_RECORD (R244): A GAP record names lost stamps when the FIFO next accepts or each 1 ms of loss. -/
  | stampGapRecord (port : Nat)
  /-- JNL_CTRL_WRITE (R246): A write of JNL_CTRL enables or disables journal writing. -/
  | jnlCtrlWrite (fn v : Nat)
  /-- JNL_CONS_WRITE (R246): A write of JNL_CONS frees ring slots, or is ignored when out of range. -/
  | jnlConsWrite (fn v : Nat)
  /-- JNL_RECORD_COMMIT (R247): The journal writer chains a record and writes it to the ring. -/
  | jnlRecordCommit (fault : Bool)
  /-- JNL_CHECKPOINT (R253): 65,536 records or 1 s of device time since the last checkpoint start a new signed checkpoint. -/
  | jnlCheckpoint
  /-- JNL_SIGNATURE_DONE (R253): The signer finishes and the three CKPT parts join the record queue. -/
  | jnlSignatureDone
  /-- JNL_DIGEST_CLOSE (R251): A journalled ring's interval closes after 4,096 entries or 1 ms and a DIGEST record is written. -/
  | jnlDigestClose (ring : Nat) (rx : Bool)
  /-- JNL_CLOCK_RECORD (R250): A CLOCK record is written near each second boundary or on a time-state change. -/
  | jnlClockRecord (cause : Nat)
  /-- FRER_RX_DECISION (R260): The FRER unit passes or discards a received member frame by its sequence number. -/
  | frerRxDecision (h : Nat)
  /-- FRER_RECOVERY_TIMEOUT (R260): No frame passes for RESET_MS and a recovery reset occurs. -/
  | frerRecoveryTimeout (c : Nat)
  /-- FRER_MM_POP (R262): A write of FRER_MM_POP removes the head mismatch log entry. -/
  | frerMmPop (fn v : Nat)
  /-- MIR_PERIODIC_SEND (R266): Every 1 ms the primary sends HEAD, FRER, RELEASE or HEARTBEAT mirror messages. -/
  | mirPeriodicSend
  /-- MIR_MESSAGE_RX (R267): The standby takes a mirror message, keeps its state and counts gaps. -/
  | mirMessageRx (msg : Bytes)
  /-- MIR_PEER_SILENT (R266): No mirror message arrives for 10 ms. -/
  | mirPeerSilent
  /-- MIR_FLOOR_LAPSE (R269): Device time passes a group's release floor plus D after takeover. -/
  | mirFloorLapse (g : Nat)
  /-- HIF_LINK_UP (R271): A host link reaches L0. -/
  | hifLinkUp (port link rate : Nat) (narrow : Bool)
  /-- HIF_LINK_DOWN (R271): A host link leaves L0. -/
  | hifLinkDown (port link : Nat)
  /-- PERST_ASSERT (R418): PERST_N of a host port resets its functions as an FLR and clears their configuration. -/
  | perstAssert (port : Nat)
  /-- HIF_HOT_RESET (R418): A hot reset on a link resets that link's functions. -/
  | hifHotReset (port link : Nat)
  /-- PERST_DEASSERT (R413): PERST_N deasserts and the link trains. -/
  | perstDeassert (port : Nat)
  /-- BME_CLEAR (R294): A configuration write clears Bus Master Enable and the function stops all DMA. -/
  | bmeClear (f : Nat)
  /-- BME_SET (R294): Bus Master Enable is set again and pending messages may go. -/
  | bmeSet (f : Nat)
  /-- VF_ENABLE_WRITE (R341): VF Enable changes, giving default grants or clearing them. -/
  | vfEnableWrite (pf : Nat) (on : Bool) (num : Nat)
  /-- ATS_ENABLE_CLEAR (R287): Clearing ATS Enable removes the function's cache entries. -/
  | atsEnableClear (f : Nat)
  /-- PASID_ENABLE_CLEAR (R291): Clearing PASID Enable stops every PASID queue and channel with an error. -/
  | pasidEnableClear (f : Nat)
  /-- D_STATE_CHANGE (R407): A function changes D-state. -/
  | dStateChange (f : Nat) (d3 : Bool)
  /-- MSIX_UNMASK (R282): A vector or function unmask, or enable, sends one message for a pending bit. -/
  | msixUnmask (f : Nat) (what : MsixWrite)
  /-- FLR_START (R346): An FLR begins: GEN advances and engines discard old-generation work. -/
  | flrStart (f : Nat)
  /-- FLR_ENGINE_ACK (R346): A shared engine acknowledges that it holds no work of the old generation. -/
  | flrEngineAck (f engine : Nat)
  /-- FN_FLR_SLOW (R348): An engine has not acknowledged within 100 ms and is fenced. -/
  | fnFlrSlow (f : Nat)
  /-- EVT_PEND_W1C (R284): A W1C of EVT_PEND clears bits and resends a message for vectors still pending. -/
  | evtPendW1c (f w v : Nat)
  /-- EVT_FN_W1C (R284): A W1C of EVT_FN clears function events and resends as needed. -/
  | evtFnW1c (f v : Nat)
  /-- TRANSLATION_COMPLETION (R285): A Translation Completion fills the cache or reports a translation fault. -/
  | translationCompletion (req : Nat) (r : XlateReply)
  /-- INVALIDATE_REQUEST (R287): An Invalidate Request removes entries and taints overlapping translation requests. -/
  | invalidateRequest (port tag f : Nat) (pasid : Option Nat) (base size : Nat)
  /-- INVALIDATE_COMPLETE (R287): Requests using removed translations finish and the Invalidate Completion is sent. -/
  | invalidateComplete (port : Nat)
  /-- PAGE_RESPONSE (R289): A page response resumes the faulting job or fails it. -/
  | pageResponse (f index : Nat) (r : PageReply)
  /-- PRI_RESPONSE_TIMEOUT (R289): A page response does not arrive within HIF_PRI_TIMEOUT.MS. -/
  | priResponseTimeout (index : Nat)
  /-- HOST_READ_COMPLETION (R292): A completion for a non-posted read arrives and its data goes to the requester. -/
  | hostReadCompletion (port tag : Nat) (reply : HostReply)
  /-- CPL_TIMEOUT_EXPIRE (R292): A non-posted request is not completed within the completion timeout and fails. -/
  | cplTimeoutExpire (tag : Nat)
  /-- QM_SQ_DB (R301): A submission doorbell posts entries, invalidates cached entries or stops the ring. -/
  | qmSqDb (fn page : Nat) (w : Width) (v : Nat)
  /-- PUSH_SLOT_WRITE (R302): A write to a push slot stores an entry for the next doorbell. -/
  | pushSlotWrite (fn page off : Nat) (data : Bytes)
  /-- QM_CQ_DB (R314): A completion doorbell frees completion slots, arms the ring or stops it. -/
  | qmCqDb (fn page : Nat) (w : Width) (v : Nat)
  /-- DESC_FETCH_COMPLETE (R303): Fetched descriptors arrive in the descriptor cache and take their epoch. -/
  | descFetchComplete (ring : Nat) (reply : HostReply)
  /-- TX_JOB_START (R304): The queue manager checks and starts an entry and hands its job to the pipeline. -/
  | txJobStart (ring : Nat)
  /-- COMPLETION_WRITE (R312): A completion entry is written to its ring, or waits in the pending list. -/
  | completionWrite (ring : Nat) (bad : Bool)
  /-- CQ_COALESCE_EXPIRE (R315): COAL_US passes on an armed completion ring and one message is sent. -/
  | cqCoalesceExpire (ring : Nat)
  /-- HEAD_STATUS_WRITE (R316): A HEAD ring's status block is written once HEAD_US has passed. -/
  | headStatusWrite (ring : Nat) (bad : Bool)
  /-- ADMIN_ENTRY_TAKE (R334): Barista takes the next admin queue entry and serves it as a command. -/
  | adminEntryTake (f : Nat) (entry payload : HostReply)
  /-- MBX_CMD_WRITE (R322): An MBX_CMD write is taken and starts the acknowledgement timeout, or is dropped while busy. -/
  | mbxCmdWrite (f v : Nat)
  /-- CMD_ACCEPT (R322): Firmware accepts a taken mailbox command by copying its payload. -/
  | cmdAccept (f : Nat) (bad : Bool)
  /-- MBX_ACK_TIMEOUT (R323): DONE is not set within US µs and the command is abandoned. -/
  | mbxAckTimeout (f : Nat)
  /-- DB_FROM_FW_W1C (R284): A W1C of DB_FROM_FW clears bits and resends on EVT_FN_VEC if any unmasked bit stays. -/
  | dbFromFwW1c (f v : Nat)
  /-- DB_FROM_FW_MASK_WRITE (R284): A write of DB_FROM_FW_MASK may unmask a set bit and send a message. -/
  | dbFromFwMaskWrite (f v : Nat)
  /-- DB_TO_FW_READY (R325): The driver sets READY and takes doorbells again. -/
  | dbToFwReady (f v : Nat)
  /-- DB_TO_FW_UNLOAD (R325): The driver sets UNLOAD and is marked absent at once. -/
  | dbToFwUnload (f v : Nat)
  /-- DRIVER_ABSENT (R325): A DB_FROM_FW bit stays set and unmasked for US µs and the driver is marked absent. -/
  | driverAbsent (f : Nat)
  /-- FW_RESTART (R326): Firmware restarts, abandons outstanding commands and sets PEER_RESET and FW_READY. -/
  | fwRestart
  /-- FW_WATCHDOG (R332): T1 finds a Barista thread stopped for 1 ms and restarts it. -/
  | fwWatchdog (core thread : Nat)
  /-- LONG_COMMAND_COMPLETE (R324): A long command finishes in the background and keeps its final result for ECI_POLL. -/
  | longCommandComplete (f : Nat) (io : LongIo)
  /-- ECI_VERSION (R336): Returns the interface and firmware versions and measurement. -/
  | eciVersion (e : Eci)
  /-- ECI_IDENTITY (R336): Returns the fuse identity and certificate digest. -/
  | eciIdentity (e : Eci)
  /-- ECI_FUNC_INFO (R336): Returns the function's number, PF, port, generation and role. -/
  | eciFuncInfo (e : Eci)
  /-- ECI_POLL (R324): Returns the state or final result of a long command by ticket. -/
  | eciPoll (e : Eci)
  /-- ADMIN_CREATE (R336): Creates the function's admin queue in queue pages 0 and 1. -/
  | adminCreate (e : Eci)
  /-- ADMIN_DESTROY (R336): Destroys the function's admin queue. -/
  | adminDestroy (e : Eci)
  /-- QUEUE_CREATE (R300): Creates a ring from a ring context. -/
  | queueCreate (e : Eci)
  /-- QUEUE_DESTROY (R319): Destroys a stopped ring. -/
  | queueDestroy (e : Eci)
  /-- QUEUE_START (R318): Returns a stopped ring to RUNNING. -/
  | queueStart (e : Eci)
  /-- QUEUE_STOP (R317): Stops a ring so that no entry starts. -/
  | queueStop (e : Eci)
  /-- QUEUE_INVALIDATE (R303): Discards cached unstarted entries of a range of indices. -/
  | queueInvalidate (e : Eci)
  /-- QUEUE_QUERY (R336): Returns a ring's context, state, indices and counters. -/
  | queueQuery (e : Eci)
  /-- FN_ASSIGN_VFS (R274): Divides the 2,048 VFs among the PFs. -/
  | fnAssignVfs (e : Eci)
  /-- FN_GRANT (R342): Sets a function's grants and rewrites its ROM. -/
  | fnGrant (e : Eci)
  /-- FN_QUERY (R336): Returns a function's grants, use and state. -/
  | fnQuery (e : Eci)
  /-- FN_QUIESCE (R349): Quiesces a function until no DMA of it remains. -/
  | fnQuiesce (e : Eci)
  /-- FN_RELEASE (R350): Returns a QUIESCED function to ACTIVE. -/
  | fnRelease (e : Eci)
  /-- QUIESCE_PENDING_TIMEOUT (R349): Completions pending in a full ring for 100 ms during quiesce are carried into saved state. -/
  | quiescePendingTimeout (f : Nat)
  /-- FN_SAVE (R356): Writes a quiesced function's saved state into the manager's buffer. -/
  | fnSave (e : Eci)
  /-- FN_RESTORE (R357): Recreates a function's rings, nodes and entries from saved state. -/
  | fnRestore (e : Eci)
  /-- FN_MIGRATE_LOG (R352): Starts, restarts or stops dirty-page logging for a function. -/
  | fnMigrateLog (e : Eci)
  /-- HIF_MIG_CONS_WRITE (R354): A write of HIF_MIG_CONS consumes dirty-log entries and releases filter entries. -/
  | hifMigConsWrite (fn slot v : Nat)
  /-- FN_REMOVE (R351): Removes a quiesced function and clears its grants. -/
  | fnRemove (e : Eci)
  /-- MGR_ROLE (R345): Moves the manager role between PF0 and PF2. -/
  | mgrRole (e : Eci)
  /-- TBL_L2_WRITE (R97): Writes a static L2 entry into the pipelines of a mask. -/
  | tblL2Write (e : Eci)
  /-- TBL_L2_DELETE (R97): Deletes an L2 entry from the pipelines of a mask. -/
  | tblL2Delete (e : Eci)
  /-- TBL_L2_READ (R336): Returns an L2 entry. -/
  | tblL2Read (e : Eci)
  /-- TBL_L2_FLUSH (R336): Removes learned L2 entries, optionally by port. -/
  | tblL2Flush (e : Eci)
  /-- TBL_FLOW_INSERT (R105): Inserts a flow entry on the ECI path. -/
  | tblFlowInsert (e : Eci)
  /-- TBL_FLOW_DELETE (R336): Deletes a flow entry by key. -/
  | tblFlowDelete (e : Eci)
  /-- TBL_FLOW_LOOKUP (R336): Returns a flow entry by key. -/
  | tblFlowLookup (e : Eci)
  /-- TBL_ROUTE_BATCH (R110): Applies up to 16 route changes to the LPM tries. -/
  | tblRouteBatch (e : Eci)
  /-- TBL_ROUTE_LOOKUP (R336): Returns the LPM result for an address. -/
  | tblRouteLookup (e : Eci)
  /-- TM_CAPS (R226): Returns traffic manager free counts and mode. -/
  | tmCaps (e : Eci)
  /-- TM_NODE_CREATE (R226): Creates a scheduler node. -/
  | tmNodeCreate (e : Eci)
  /-- TM_NODE_DESTROY (R226): Removes a scheduler node, optionally flushing it. -/
  | tmNodeDestroy (e : Eci)
  /-- TM_NODE_SET (R212): Changes a node's shares and queue fields. -/
  | tmNodeSet (e : Eci)
  /-- TM_NODE_QUERY (R226): Returns a node's configuration and STAT words. -/
  | tmNodeQuery (e : Eci)
  /-- TM_QUEUE_FLUSH (R226): Discards a queue's frames. -/
  | tmQueueFlush (e : Eci)
  /-- TM_MCAST_SET (R208): Replaces a replication group whole. -/
  | tmMcastSet (e : Eci)
  /-- TM_MCAST_QUERY (R226): Returns a replication group's members. -/
  | tmMcastQuery (e : Eci)
  /-- TM_OBS_DUMP (R225): Writes histogram or high-water records of a range of queues, optionally clearing them. -/
  | tmObsDump (e : Eci)
  /-- TM_TENANT_GRANT (R343): Creates a tenant node owned by a function. -/
  | tmTenantGrant (e : Eci)
  /-- TIME_GET (R336): Returns device time and TSU_STATUS. -/
  | timeGet (e : Eci)
  /-- TIME_FREQ (R47): Writes the frequency offset as a steering write. -/
  | timeFreq (e : Eci)
  /-- TIME_STEP (R42): Arms a relative or absolute phase step. -/
  | timeStep (e : Eci)
  /-- TIME_STEP_CANCEL (R42): Cancels an armed step by ECI. -/
  | timeStepCancel (e : Eci)
  /-- TIME_SLEW (R44): Writes a slew amount and rate. -/
  | timeSlew (e : Eci)
  /-- TIME_STATUS (R336): Returns the time unit's status registers. -/
  | timeStatus (e : Eci)
  /-- TIME_IO (R57): Writes PPS, 10 MHz and reference settings and returns the PPS_IN stamp. -/
  | timeIo (e : Eci)
  /-- OVEN_SET (R62): Writes oven registers and optionally saves them to flash. -/
  | ovenSet (e : Eci)
  /-- OVEN_STATUS (R336): Returns the oven status and sense code. -/
  | ovenStatus (e : Eci)
  /-- REL_CAPS (R336): Returns release capacity, admitted hold and free pool entries. -/
  | relCaps (e : Eci)
  /-- REL_GROUP_SET (R230): Writes the administrative copy of a fairness group and returns HOLD_B. -/
  | relGroupSet (e : Eci)
  /-- REL_GROUP_QUERY (R336): Returns the administrative or operational copy of a group. -/
  | relGroupQuery (e : Eci)
  /-- REL_STAMP_RING (R245): Names a port's stamp completion ring. -/
  | relStampRing (e : Eci)
  /-- REL_STAMP_RING_CLEAR (R245): Clears a port's stamp completion ring. -/
  | relStampRingClear (e : Eci)
  /-- JNL_QUEUE_SET (R251): Adds a journalled ring. -/
  | jnlQueueSet (e : Eci)
  /-- JNL_QUEUE_REMOVE (R251): Removes a journalled ring, closing its open interval. -/
  | jnlQueueRemove (e : Eci)
  /-- JNL_IDENTITY (R254): Returns the identity certificate. -/
  | jnlIdentity (e : Eci)
  /-- JNL_STATUS (R336): Returns CHAIN_ID, head RSEQ and the head's hash. -/
  | jnlStatus (e : Eci)
  /-- JNL_RESTART (R248): Starts a new journal chain when the ring is empty. -/
  | jnlRestart (e : Eci)
  /-- OFL_CAPS (R174): Returns offload limits, free counts and quotas. -/
  | oflCaps (e : Eci)
  /-- OFL_CTX_CREATE (R174): Creates an ESP SA or session with its key. -/
  | oflCtxCreate (e : Eci)
  /-- OFL_CTX_DESTROY (R175): Destroys a context after outstanding work finishes. -/
  | oflCtxDestroy (e : Eci)
  /-- OFL_CTX_QUERY (R174): Returns a context without key material. -/
  | oflCtxQuery (e : Eci)
  /-- OFL_CTX_MODIFY (R174): Changes a context's lifetimes, window or receive ring. -/
  | oflCtxModify (e : Eci)
  /-- OFL_TLS_RESYNC (R194): Arms a TLS session at a named record start. -/
  | oflTlsResync (e : Eci)
  /-- OFL_TLS_RX_REKEY (R194): Arms a TLS session with a new receive key. -/
  | oflTlsRxRekey (e : Eci)
  /-- OFL_NVME_RESYNC (R198): Arms an NVMe/TCP session at a PDU start. -/
  | oflNvmeResync (e : Eci)
  /-- OFL_PLACE_DROP (R196): Releases a placement entry. -/
  | oflPlaceDrop (e : Eci)
  /-- OFL_MACSEC_SA (R189): Installs a MACsec SA. -/
  | oflMacsecSa (e : Eci)
  /-- OFL_MACSEC_SA_REMOVE (R189): Removes a MACsec SA. -/
  | oflMacsecSaRemove (e : Eci)
  /-- OFL_MACSEC_TX_AN (R189): Selects a port's transmit AN at the next frame boundary. -/
  | oflMacsecTxAn (e : Eci)
  /-- OFL_NOTIFY (R174): Lists and clears pending context notifications. -/
  | oflNotify (e : Eci)
  /-- OFL_QUOTA (R174): Sets a function's offload quotas. -/
  | oflQuota (e : Eci)
  /-- FRER_CAPS (R336): Returns FRER table sizes and free entries. -/
  | frerCaps (e : Eci)
  /-- FRER_MEMBER_SET (R256): Writes a member entry. -/
  | frerMemberSet (e : Eci)
  /-- FRER_MEMBER_CLEAR (R256): Clears a member entry. -/
  | frerMemberClear (e : Eci)
  /-- FRER_CTX_SET (R256): Writes a sequence context and resets its recovery state. -/
  | frerCtxSet (e : Eci)
  /-- FRER_CTX_CLEAR (R256): Clears a sequence context. -/
  | frerCtxClear (e : Eci)
  /-- FRER_CTX_QUERY (R336): Returns a context, rcv, history and counters. -/
  | frerCtxQuery (e : Eci)
  /-- FRER_CTX_RESET (R260): Performs a recovery reset of a context. -/
  | frerCtxReset (e : Eci)
  /-- MIR_CFG (R269): Sets mirror role, pair, port, VLAN and peer. -/
  | mirCfg (e : Eci)
  /-- MIR_STATUS (R336): Returns mirror role, kept heads and gaps. -/
  | mirStatus (e : Eci)
  /-- MIR_TAKEOVER (R268): The standby takes over as primary, or reports stale or diverged. -/
  | mirTakeover (e : Eci)
  /-- MIR_RESOLVE (R268): Chooses a side after divergence and takes over. -/
  | mirResolve (e : Eci)
  /-- MIR_RESYNC (R266): Makes the primary resend every mirrored flow entry. -/
  | mirResync (e : Eci)
  /-- EPOCH_STAGE (R337): Stages images, programmes, gate lists, release groups or a spare plan. -/
  | epochStage (e : Eci)
  /-- EPOCH_COMMIT (R29): Arms a staged change for a named instant, or refuses it. -/
  | epochCommit (e : Eci)
  /-- EPOCH_ABANDON (R31): Discards a staged or staging change. -/
  | epochAbandon (e : Eci)
  /-- EPOCH_STATUS (R336): Returns the epoch status and commit time. -/
  | epochStatus (e : Eci)
  /-- SVC_PORT_COUNTERS (R80): Returns a port's firmware counter totals. -/
  | svcPortCounters (e : Eci)
  /-- SVC_EVT_ROUTE (R283): Routes an event source to a PF and vector. -/
  | svcEvtRoute (e : Eci)
  /-- SVC_FLASH_WRITE (R414): Erases, writes and verifies a flash region. -/
  | svcFlashWrite (e : Eci)
  /-- SVC_FW_ACTIVATE (R414): Validates a firmware slot, names it in the boot directory and restarts firmware. -/
  | svcFwActivate (e : Eci)
  /-- RECOVERY_FLASH_RELEASE (R338): A recovery function holding the flash sends no flash command for 60 s and loses it. -/
  | recoveryFlashRelease
  /-- SVC_LOG_READ (R335): Returns and removes the oldest firmware-owned write log entries. -/
  | svcLogRead (e : Eci)
  /-- SVC_HBM_RETRAIN (R382): Retrains the pseudo-channels of the named stacks one at a time. -/
  | svcHbmRetrain (e : Eci)
  /-- SVC_WEAR_QUERY (R397): Returns wear data for a unit. -/
  | svcWearQuery (e : Eci)
  /-- DBG_HALT (R142): Halts a thread or all packet threads of a cluster. -/
  | dbgHalt (v : DebugVia)
  /-- DBG_RESUME (R143): Resumes a halted thread. -/
  | dbgResume (v : DebugVia)
  /-- DBG_STEP (R143): Steps a halted thread by one word. -/
  | dbgStep (v : DebugVia)
  /-- DBG_ABORT (R142): Aborts a halted thread's packet. -/
  | dbgAbort (v : DebugVia)
  /-- DBG_BP_SET (R143): Sets an address breakpoint and its thread mask. -/
  | dbgBpSet (v : DebugVia)
  /-- DBG_SOFT_BP (R142): Enables or disables CTL breakpoint bits in a cluster. -/
  | dbgSoftBp (v : DebugVia)
  /-- CPY_GO (R367): GO starts a copy channel from HEAD or CUR, or is refused with BAD_CFG. -/
  | cpyGo (fn ch v : Nat)
  /-- CPY_STOP (R367): STOP stops a channel at its next descriptor boundary, or at once when YIELDED. -/
  | cpyStop (fn ch v : Nat)
  /-- CPY_CH_CFG_WRITE (R370): A write of CPY_CH_CFG configures a channel and returns a fenced channel to STOPPED. -/
  | cpyChCfgWrite (fn ch : Nat) (w : Width) (v : Nat)
  /-- CPY_TURN (R358): A copy unit gives its next eligible channel a turn to run a descriptor. -/
  | cpyTurn (unit : Nat) (io : CopyIo)
  /-- CPY_FLUSH_DONE (R363): The flush read completes and STATUS then OWN are written back. -/
  | cpyFlushDone (ch : Nat) (failed : Option HostReply) (lost : Bool)
  /-- CPY_PACE_MESSAGE (R366): A DATA message asserts or withdraws a paced channel's request line. -/
  | cpyPaceMessage (ch : Nat)
  /-- HBM_ACCESS (R375): A pseudo-channel serves one 64-byte access. -/
  | hbmAccess (region off : Nat) (write : Bool) (r : HbmResult) (late : Bool)
  /-- HBM_ROW_CLOSE (R377): A bank's open row is closed after IDLE_CYCLES without access. -/
  | hbmRowClose (pc bank : Nat)
  /-- HBM_REFRESH_DUE (R378): A bank refresh falls due and is performed or postponed. -/
  | hbmRefreshDue (pc bank : Nat) (busy : Bool)
  /-- HBM_SR_ENTER (R380): A stack idle 100 µs in DEEP_IDLE enters self-refresh. -/
  | hbmSrEnter (k : Nat)
  /-- HBM_SR_EXIT (R380): A request during self-refresh makes the stack exit and serve it. -/
  | hbmSrExit (k : Nat)
  /-- HBM_TEMP_HIGH (R378): A stack passes 85 °C and its refresh interval halves. -/
  | hbmTempHigh (k t : Nat)
  /-- HBM_DRIFT (R382): A stack's temperature moves more than 10 °C since training. -/
  | hbmDrift (k t : Nat)
  /-- HBM_SOFT_REPAIR (R384): Firmware maps a failing row to a repair row. -/
  | hbmSoftRepair (pc bank row : Nat)
  /-- GLB_FENCE_POP (R391): A write of GLB_FENCE_POP removes the head fence log entry. -/
  | glbFencePop (fn v : Nat)
  /-- GLB_FATAL (R392): A FATAL error stops admission and flushes the journal before a reset. -/
  | glbFatal (unit : Nat)
  /-- FATAL_RESET_TIMEOUT (R392): After up to 2 ms the adapter performs the warm or cold reset of a FATAL error. -/
  | fatalResetTimeout (io : BootIo)
  /-- FW_CORE_SPARED (R390): A fenced Barista core is replaced by the spare at once. -/
  | fwCoreSpared (position : Nat)
  /-- WEAR_SAMPLE (R396): The ageing monitor is sampled once a minute. -/
  | wearSample (d khz : Nat)
  /-- WEAR_RECORD_SAVE (R396): Firmware saves electromigration stress to flash every 6 hours. -/
  | wearRecordSave (stress : List Nat)
  /-- POWER_ON (R411): VIN_AON and VIN come up and the adapter boots to FW_READY. -/
  | powerOn (io : BootIo)
  /-- BOOT_WATCHDOG (R412): FW_READY does not come within 3 s and a cold reset boots the other slot or recovery. -/
  | bootWatchdog (io : BootIo)
  /-- VIN_LOSS (R403): VIN falls below threshold and every VIN rail is removed. -/
  | vinLoss (mv : Nat)
  /-- VIN_RESTORED (R403): VIN returns and the adapter performs a cold reset. -/
  | vinRestored (x : PowerSample) (io : BootIo)
  /-- VIN_OVERCURRENT (R404): VIN current above 60 A for 100 µs removes the rails. -/
  | vinOvercurrent (ca ns : Nat)
  /-- PHASE_FAULT (R404): A regulator phase faults and a spare replaces it or the cap drops. -/
  | phaseFault (n : Nat)
  /-- RAIL_FAULT (R404): A rail leaves regulation and its domain's units are fenced. -/
  | railFault (d : Nat)
  /-- CLUSTER_GATE (R406): An idle cluster is power-gated after 10 ms. -/
  | clusterGate (c : Nat)
  /-- CLUSTER_UNGATE (R406): Dispatch pressure ungates a cluster. -/
  | clusterUngate (c : Nat)
  /-- DEEP_IDLE_ENTER (R407): All DEEP_IDLE conditions hold and the adapter enters DEEP_IDLE. -/
  | deepIdleEnter
  /-- DEEP_IDLE_EXIT (R407): A condition fails and the adapter returns to ACTIVE. -/
  | deepIdleExit
  /-- THROTTLE_RISE (R408): Temperature or power holds above limit for 10 ms and LEVEL rises. -/
  | throttleRise (x : PowerSample)
  /-- THROTTLE_FALL (R408): Conditions stay below limit for 100 ms and LEVEL falls. -/
  | throttleFall (x : PowerSample)
  /-- TJ_CRIT (R409): A die sensor reaches 110 °C. -/
  | tjCrit (x : PowerSample)
  /-- THERMAL_TRIP (R409): A die reaches 115 °C and the comparator removes every VIN rail. -/
  | thermalTrip (x : PowerSample)
  /-- CORE_PLL_UNLOCK (R410): The core PLL loses lock and its output stops. -/
  | corePllUnlock
  /-- CORE_PLL_TIMEOUT (R410): The core PLL has not relocked within 10 ms, a FATAL error. -/
  | corePllTimeout
  /-- COLD_RST_N (R416): COLD_RST_N held low for 1 µs gives a cold reset. -/
  | coldRstN (ns : Nat) (x : PowerSample) (io : BootIo)
  /-- GLB_RESET_COLD (R416): GLB_RESET.COLD with the key gives a cold reset. -/
  | glbResetCold (fn v : Nat) (io : BootIo)
  /-- GLB_RESET_WARM (R416): GLB_RESET.WARM with the key gives a warm reset. -/
  | glbResetWarm (fn v : Nat) (io : BootIo)
  /-- GLB_RESET_CLUSTER (R419): GLB_RESET.CLUSTER aborts, self-tests and restarts one cluster. -/
  | glbResetCluster (fn v : Nat) (failed : List Nat)
  /-- TIME_CLOCK_TICK (R38): On every tick of the 1 GHz time clock device time adds the increment and any slew_add, and REMAINING shrinks. -/
  | timeClockTick
  /-- OVN_ADC_SAMPLE (R59): Each 1 kHz ADC sample of OVN_NTC runs the PI loop, updating integrator and duty. -/
  | ovnAdcSample (code : Nat) (tripped : Bool)
  /-- UNCORRECTABLE_STATE_ERROR (R389): An uncorrectable error in a unit's state (pipeline, port, queue, slice, context, group, copy channel or unit, Carafe bank, die link, function, FRER context) fences that unit. -/
  | uncorrectableStateError (unit obj : Nat) (frames : List Nat)
  /-- RATE_WINDOW_END (R423): A one-second (or one-hour) window of a rate threshold ends and its count restarts. -/
  | rateWindowEnd (r : RateSource) (errors : Nat)
  /-- VIN_AON_LOSS (R403): VIN_AON is lost, a power-off that resets the oven and PWR_LAST. -/
  | vinAonLoss (mv : Nat)
  /-- PWR_VIN_LOW (R402): VIN falls below 4.5 V and the warning event is raised. -/
  | pwrVinLow (mv : Nat)
  /-- PWR_VIN_HIGH (R402): VIN rises above 18 V and the warning event is raised. -/
  | pwrVinHigh (mv : Nat)
  /-- PWR_VIN_AON_LOW (R402): VIN_AON falls below 4.5 V and the warning event is raised. -/
  | pwrVinAonLow (mv : Nat)
  /-- CORE_PLL_RELOCK (R410): The core PLL relocks within 10 ms and its output runs again. -/
  | corePllRelock
  /-- PWR_TJ_HIGH (R422): A die sensor reaches ALERT_C, raising the event and asserting THERM_ALERT_N. -/
  | pwrTjHigh (x : PowerSample)
  /-- PWR_SENSOR_FAULT (R422): A temperature sensor reads implausibly and is marked FAULT and ignored. -/
  | pwrSensorFault (sensor : Nat) (t : Int)
  /-- HBM_TEMP_CRIT (R386): An HBM stack passes 95 °C and raises HBM_TEMP_CRIT. -/
  | hbmTempCrit (k t : Nat)
  /-- HBM_TEMP_NORMAL (R378): A stack falls to 85 °C or below, HOT clears and the refresh interval returns to 3.9 µs. -/
  | hbmTempNormal (k t : Nat)
  /-- PRT_REMOTE_FAULT_END (R69): Remote-fault ordered sets stop arriving and REMOTE_FAULT clears. -/
  | prtRemoteFaultEnd (port : Nat)
  /-- PRT_LOCAL_FAULT_END (R69): A local fault clears before 10 µs and LOCAL_FAULT falls with the link still up. -/
  | prtLocalFaultEnd (port : Nat)
  /-- PREEMPT_RESPONSE_RX (R78): The partner's verify response arrives and VERIFY_STATUS becomes succeeded, activating preemption. -/
  | preemptResponseRx (port : Nat)
  /-- MGMT_LINK_UP (R86): The management port's link comes up. -/
  | mgmtLinkUp (speed : Nat)
  /-- MGMT_LINK_DOWN (R86): The management port's link goes down. -/
  | mgmtLinkDown
  /-- NCSI_PASSTHROUGH_FRAME (R85): A frame from the board management controller over NC-SI passes to the management port. -/
  | ncsiPassthroughFrame (data : Bytes)
  /-- PRI_RESET (R290): The host resets and re-enables PRI, clearing Stopped so new faults issue page requests again. -/
  | priReset (f alloc : Nat)
  /-- TM_DELAY_ALARM (R227): A queue's sojourn delay reaches ALARM_DELAY_US and TM_DELAY_ALARM is raised. -/
  | tmDelayAlarm (q : Nat)
  /-- FLOW_AGE_PASS_START (R108): An ageing pass of a flow-table half starts after the previous one. -/
  | flowAgePassStart (half : Nat)
  /-- MIR_RESYNC_DONE (R266): The paced resend of every mirrored flow entry ends and MIR_RESYNC_DONE is raised. -/
  | mirResyncDone
deriving DecidableEq, Repr

end Sys2Proof
end

