-- ==== Sys2Proof/Config.lean ====
section
/-! DEFINITION. What one part fixes and the values the spec leaves open: opaque constants, no value provable. -/

namespace Sys2Proof.Config

/-- A fresh value the spec does not state; State.free counts the ones used. -/
opaque freeValue : Nat → Word

/-- SHA-384, named by spec/09_release_and_evidence.md R247 and not defined there. -/
opaque sha384 : Bytes → BitVec 384

/-- The keystream byte of AES-GCM for key, nonce and block position (spec/07_offloads.md names the cipher). -/
opaque gcmStream : Bytes → Bytes → Nat → Byte

/-- The AES-GCM tag of key, nonce, associated data and ciphertext. -/
opaque gcmTag : Bytes → Bytes → Bytes → Bytes → BitVec 128

/-- The signature of the identity key over a digest (spec/09_release_and_evidence.md R253, R254). -/
opaque ecdsaSign : Bytes → BitVec 768

/-- The lot's fuse values (spec/17_errors_and_service.md R400): VENDOR, LOT0, LOT1, position and the speed bin. -/
opaque fuseVendor : BitVec 16
opaque fuseLot : Nat → BitVec 32
opaque fusePos : BitVec 24
opaque fuseSpeedBin : BitVec 8

/-- The identity certificate (spec/09_release_and_evidence.md R254). -/
opaque certificate : Bytes

/-- Byte i of the SHA-384 digest of the certificate, and the 32-bit words of it that the fuses hold, first byte lowest
(spec/09_release_and_evidence.md R254; spec/17_errors_and_service.md R400). -/
def fuseByte (i : Nat) : BitVec 8 := (sha384 certificate).extractLsb' (376 - 8 * i) 8
def fuseCert (k : Nat) : BitVec 32 := fuseByte (4 * k + 3) ++ fuseByte (4 * k + 2) ++ fuseByte (4 * k + 1) ++ fuseByte (4 * k)

/-- The vendor routines in the control store's ROM; the spec gives no contents. -/
opaque romWord : Nat → BitVec 256

/-- The firmware image a slot holds as delivered, and what an image says of itself: whether the boot ROM takes it, its
version and its build number (spec/18_power_reset_package.md R412; the spec gives no layout of its header). -/
opaque fwImage : Nat → Bytes
opaque fwValid : Bytes → Bool
opaque fwVersion : Bytes → BitVec 24
opaque fwBuild : Bytes → BitVec 32

/-- The boot ROM's measurement, which the recovery personality returns (spec/13_control_interface.md R338). -/
opaque romMeasure : BitVec 384

/-- The two hashes that place an L2 key in a bucket, and the two that place a flow key: the adapter's own, undisclosed
(spec/04_parsing_and_tables.md, "The L2 table", R103). -/
opaque l2Hash : Nat → Nat → Nat → Bool → Nat
opaque flowHash : Nat → Bytes → Nat

/-- The set of a half's flow cache that a key falls into (R107 gives the sets, not their index). -/
opaque flowSet : Bytes → Nat

/-- A function's configuration space words, and bits of words, of which the spec says nothing; the number of the Physical Layer 128.0
GT/s capability (spec/11_host_interface.md R276). -/
opaque cfgRest : Nat → Nat → BitVec 32
opaque capId128 : BitVec 16

/-- The number of SRAM instances with spare rows and columns (spec/17_errors_and_service.md R388). -/
opaque sramCount : Nat

/-- How long before its launch time a frame becomes a candidate, in stamp ticks: early enough to reach its MAC
(spec/08_traffic_manager.md R220). -/
opaque launchLead : Nat

/-- A power domain's ring-oscillator frequency at test, in kHz (R396, R397). -/
opaque ringTestKhz : Nat → BitVec 32

end Sys2Proof.Config
end

