-- ==== Sys2Proof/Machine/Bits.lean ====
section
/-! DEFINITION. Bit fields, signed readings and byte orders (spec/00_scope.md R8, "Numbers and bits"). -/

namespace Sys2Proof

/-- Bits [hi:lo] of a number. -/
def bits (v hi lo : Nat) : Nat := v / 2 ^ lo % 2 ^ (hi + 1 - lo)

/-- Bit n of a number, as a truth value. -/
def bit (v n : Nat) : Bool := v / 2 ^ n % 2 = 1

/-- One bit as a number. -/
def b2n (b : Bool) : Nat := if b then 1 else 0

/-- A number with bits [hi:lo] replaced by v. -/
def putBits (x hi lo v : Nat) : Nat :=
  x % 2 ^ lo + v % 2 ^ (hi + 1 - lo) * 2 ^ lo + x / 2 ^ (hi + 1) * 2 ^ (hi + 1)

/-- The two's complement reading of the low w bits. -/
def signed (w v : Nat) : Int :=
  if v % 2 ^ w < 2 ^ (w - 1) then (v % 2 ^ w : Nat) else (v % 2 ^ w : Nat) - (2 ^ w : Nat)

/-- The low w bits that write an integer in two's complement. -/
def unsigned (w : Nat) (i : Int) : Nat := (i % (2 ^ w : Nat)).toNat

/-- The n bytes of v, least significant first (R8: host and on-device memory). -/
def leBytes : Nat → Nat → Bytes
  | 0, _ => []
  | n + 1, v => BitVec.ofNat 8 v :: leBytes n (v / 256)

/-- The n bytes of v, most significant first (R8: fields inside frames). -/
def beBytes (n v : Nat) : Bytes := (leBytes n v).reverse

/-- The number little-endian bytes write. -/
def fromLE : Bytes → Nat
  | [] => 0
  | b :: r => b.toNat + 256 * fromLE r

/-- The number network-order bytes write. -/
def fromBE (bs : Bytes) : Nat := fromLE bs.reverse

/-- The n bytes from offset o. -/
def slice (bs : Bytes) (o n : Nat) : Bytes := (bs.drop o).take n

/-- Little-endian number of n bytes at offset o. -/
def leAt (bs : Bytes) (o n : Nat) : Nat := fromLE (slice bs o n)

/-- Network-order number of n bytes at offset o. -/
def beAt (bs : Bytes) (o n : Nat) : Nat := fromBE (slice bs o n)

/-- bs with the bytes from offset o replaced by new ones; the length stays. -/
def patch (bs : Bytes) (o : Nat) (new : Bytes) : Bytes :=
  bs.take o ++ new.take (bs.length - o) ++ bs.drop (o + new.length)

/-- bs cut to n bytes or filled up with zero bytes. -/
def fit (n : Nat) (bs : Bytes) : Bytes := bs.take n ++ List.replicate (n - bs.length) 0

/-- The 32-bit words of a number, low word first. -/
def words32 : Nat → Nat → List Nat
  | 0, _ => []
  | n + 1, v => v % 2 ^ 32 :: words32 n (v / 2 ^ 32)

/-- Ceiling division. -/
def cdiv (a b : Nat) : Nat := (a + b - 1) / b

/-- The place of a bit in CRC-32C's reflected division. -/
def crcStep (c : BitVec 32) : Nat → BitVec 32
  | 0 => c
  | n + 1 => crcStep (if c.getLsbD 0 then (c >>> 1) ^^^ 0x82F63B78#32 else c >>> 1) n

/-- CRC-32C (reflected Castagnoli polynomial) carried on over bytes, without the final inversion. -/
def crcRun (c : BitVec 32) : Bytes → BitVec 32
  | [] => c
  | b :: r => crcRun (crcStep (c ^^^ b.zeroExtend 32) 8) r

/-- CRC-32C of a byte string: initial value and final inversion all ones. -/
def crc32c (bs : Bytes) : BitVec 32 := ~~~ (crcRun 0xFFFFFFFF#32 bs)

/-- The Ethernet FCS: CRC-32 of IEEE 802.3, reflected. -/
def fcsStep (c : BitVec 32) : Nat → BitVec 32
  | 0 => c
  | n + 1 => fcsStep (if c.getLsbD 0 then (c >>> 1) ^^^ 0xEDB88320#32 else c >>> 1) n

/-- The running CRC of the FCS over bytes. -/
def fcsRun (c : BitVec 32) : Bytes → BitVec 32
  | [] => c
  | b :: r => fcsRun (fcsStep (c ^^^ b.zeroExtend 32) 8) r

/-- The FCS of a frame, least significant byte first on the wire. -/
def fcsOf (bs : Bytes) : Bytes := leBytes 4 (~~~ (fcsRun 0xFFFFFFFF#32 bs)).toNat

/-- The stomped FCS: the bitwise inverse of the correct FCS (spec/01_architecture.md R25). -/
def stompedFcs (bs : Bytes) : Bytes := (fcsOf bs).map (fun b => ~~~ b)

/-- One's complement sum of 16-bit words, folded, as the Internet checksum uses it. -/
def onesFold (n : Nat) : Nat := let a := n / 65536 + n % 65536; a / 65536 + a % 65536

/-- The sum of the big-endian 16-bit words of a byte string, an odd byte padded with zero. -/
def sum16 : Bytes → Nat
  | [] => 0
  | [a] => a.toNat * 256
  | a :: b :: r => a.toNat * 256 + b.toNat + sum16 r

/-- The Internet checksum of a byte string. -/
def inetSum (bs : Bytes) : Nat := 65535 - onesFold (onesFold (sum16 bs))

end Sys2Proof
end

