-- ==== Sys2Proof/Machine/Events.lean ====
section
/-! DEFINITION. The 576 event sources by name and number (spec/17_errors_and_service.md R394 and the event tables
of the chapters it names). -/

namespace Sys2Proof.Machine.Ev

abbrev PRT_LINK_UP (n : Nat) : Nat := 0 + 10 * n
abbrev PRT_LINK_DOWN (n : Nat) : Nat := 1 + 10 * n
abbrev PRT_LOCAL_FAULT (n : Nat) : Nat := 2 + 10 * n
abbrev PRT_REMOTE_FAULT (n : Nat) : Nat := 3 + 10 * n
abbrev PRT_FEC_UNCORRECTED (n : Nat) : Nat := 4 + 10 * n
abbrev PRT_FEC_DEGRADED (n : Nat) : Nat := 5 + 10 * n
abbrev PRT_TX_STOMP (n : Nat) : Nat := 6 + 10 * n
abbrev PRT_PAUSE_STORM (n : Nat) : Nat := 7 + 10 * n
abbrev PRT_PREEMPT_VERIFY (n : Nat) : Nat := 8 + 10 * n
abbrev PRT_MODE_CHANGE (n : Nat) : Nat := 9 + 10 * n

abbrev BRW_ESCALATED (c : Nat) : Nat := 160 + 8 * c
abbrev BRW_ALL_WAIT (c : Nat) : Nat := 161 + 8 * c
abbrev BRW_RUN_LIMIT (c : Nat) : Nat := 162 + 8 * c
abbrev BRW_SUP_TIMEOUT (c : Nat) : Nat := 163 + 8 * c
abbrev BRW_BREAKPOINT (c : Nat) : Nat := 164 + 8 * c
abbrev BRW_FENCED (c : Nat) : Nat := 165 + 8 * c
abbrev BRW_CS_ERROR (c : Nat) : Nat := 166 + 8 * c
abbrev BRW_CORRECTED_RATE (c : Nat) : Nat := 167 + 8 * c

abbrev TM_TAIL_DROP (h : Nat) : Nat := 288 + 16 * h
abbrev TM_COLOUR_DROP (h : Nat) : Nat := 289 + 16 * h
abbrev TM_DEPTH_ALARM (h : Nat) : Nat := 290 + 16 * h
abbrev TM_DELAY_ALARM (h : Nat) : Nat := 291 + 16 * h
abbrev TM_LAUNCH_LATE (h : Nat) : Nat := 292 + 16 * h
abbrev TM_LAUNCH_FUTURE (h : Nat) : Nat := 293 + 16 * h
abbrev TM_GATE_TOO_LONG (h : Nat) : Nat := 294 + 16 * h
abbrev TM_GCL_PENDING (h : Nat) : Nat := 295 + 16 * h
abbrev TM_GCL_CHANGED (h : Nat) : Nat := 296 + 16 * h
abbrev TM_MAP_MISMATCH (h : Nat) : Nat := 297 + 16 * h
abbrev TM_MCAST_EMPTY (h : Nat) : Nat := 298 + 16 * h
abbrev TM_FENCED_PORT_DROP (h : Nat) : Nat := 299 + 16 * h
abbrev TM_OBS_SATURATED (h : Nat) : Nat := 300 + 16 * h
abbrev TM_QUEUE_FENCED (h : Nat) : Nat := 301 + 16 * h
abbrev TM_SLICE_FENCED (h : Nat) : Nat := 302 + 16 * h
abbrev TM_CORRECTED_RATE (h : Nat) : Nat := 303 + 16 * h

abbrev PPS_IN_CAPTURED : Nat := 320
abbrev PPS_IN_MISSING : Nat := 321
abbrev TIME_STEP_APPLIED : Nat := 322
abbrev TIME_STEP_DENIED : Nat := 323
abbrev TIME_SLEW_DONE : Nat := 324
abbrev TIME_HOLDOVER_ENTER : Nat := 325
abbrev TIME_HOLDOVER_EXIT : Nat := 326
abbrev TIME_REF_LOST : Nat := 327
abbrev TIME_REF_RESTORED : Nat := 328
abbrev TIME_REF_SWITCHED : Nat := 329
abbrev TIME_PLL_UNLOCK : Nat := 330
abbrev TIME_SECOND : Nat := 331
abbrev TIME_SET : Nat := 332
abbrev STAMP_CAL_MISSING : Nat := 333
abbrev OVN_WARMING : Nat := 334
abbrev OVN_SETTLING : Nat := 335
abbrev OVN_LOCKED : Nat := 336
abbrev OVN_UNLOCKED : Nat := 337
abbrev OVN_HELD : Nat := 338
abbrev OVN_FAULT_SENSE : Nat := 339
abbrev OVN_FAULT_WARMUP : Nat := 340
abbrev OVN_OVERTEMP : Nat := 341
abbrev OVN_OT_CLEARED : Nat := 342
abbrev OVN_DUTY_LIMIT : Nat := 343

abbrev REL_LATE : Nat := 344
abbrev REL_OVER_RATE : Nat := 345
abbrev REL_EPOCH_HELD : Nat := 346
abbrev REL_DEST_DROP : Nat := 347
abbrev REL_HOLD_FULL : Nat := 348
abbrev REL_SPILL_HIGH : Nat := 349
abbrev REL_SPILL_ERROR : Nat := 350
abbrev STAMP_FIFO_HIGH : Nat := 351
abbrev STAMP_LOST : Nat := 352
abbrev JNL_CHECKPOINT : Nat := 353
abbrev JNL_RING_FULL : Nat := 354
abbrev JNL_BACKLOG_HIGH : Nat := 355
abbrev JNL_RECORDS_LOST : Nat := 356
abbrev JNL_XLATE_FAULT : Nat := 357
abbrev JNL_SIGNER_FAULT : Nat := 358
abbrev JNL_CHAIN_START : Nat := 359

abbrev OFL_AUTH_FAIL (g : Nat) : Nat := 360 + 8 * g
abbrev OFL_REPLAY (g : Nat) : Nat := 361 + 8 * g
abbrev OFL_SOFT_LIFETIME (g : Nat) : Nat := 362 + 8 * g
abbrev OFL_EXPIRED (g : Nat) : Nat := 363 + 8 * g
abbrev OFL_TLS_RESYNC (g : Nat) : Nat := 364 + 8 * g
abbrev OFL_NVME_SYNC_LOST (g : Nat) : Nat := 365 + 8 * g
abbrev OFL_CTX_FENCED (g : Nat) : Nat := 366 + 8 * g
abbrev OFL_DEFERRED_DROP (g : Nat) : Nat := 367 + 8 * g

abbrev HIF_LINK_UP (k : Nat) : Nat := 392 + 24 * k
abbrev HIF_LINK_DOWN (k : Nat) : Nat := 393 + 24 * k
abbrev HIF_LINK_DEGRADED (k : Nat) : Nat := 394 + 24 * k
abbrev HIF_PERST (k : Nat) : Nat := 395 + 24 * k
abbrev HIF_HOT_RESET (k : Nat) : Nat := 396 + 24 * k
abbrev HIF_CPL_TIMEOUT (k : Nat) : Nat := 397 + 24 * k
abbrev HIF_LATE_CPL (k : Nat) : Nat := 398 + 24 * k
abbrev HIF_CPL_ERROR (k : Nat) : Nat := 399 + 24 * k
abbrev HIF_POISONED (k : Nat) : Nat := 400 + 24 * k
abbrev HIF_ECRC_ERROR (k : Nat) : Nat := 401 + 24 * k
abbrev HIF_CORRECTED_RATE (k : Nat) : Nat := 402 + 24 * k
abbrev HIF_BME_CLEARED (k : Nat) : Nat := 403 + 24 * k
abbrev HIF_FLR (k : Nat) : Nat := 404 + 24 * k
abbrev HIF_ATS_DISABLED (k : Nat) : Nat := 405 + 24 * k
abbrev HIF_ATS_INVAL_SLOW (k : Nat) : Nat := 406 + 24 * k
abbrev HIF_ATS_LIMIT (k : Nat) : Nat := 407 + 24 * k
abbrev HIF_ATS_XLATE_ERROR (k : Nat) : Nat := 408 + 24 * k
abbrev HIF_PRI_FAIL (k : Nat) : Nat := 409 + 24 * k
abbrev HIF_PRI_TIMEOUT (k : Nat) : Nat := 410 + 24 * k
abbrev HIF_PRI_STOPPED (k : Nat) : Nat := 411 + 24 * k
abbrev HIF_PRG_RESPONSE_UNEXPECTED (k : Nat) : Nat := 412 + 24 * k
abbrev HIF_BAR2_DENIED (k : Nat) : Nat := 413 + 24 * k
abbrev HIF_VF_ENABLE (k : Nat) : Nat := 414 + 24 * k
abbrev HIF_POWER_STATE (k : Nat) : Nat := 415 + 24 * k

abbrev HBM_CORRECTED_RATE (k : Nat) : Nat := 440 + 16 * k
abbrev HBM_UNCORRECTED (k : Nat) : Nat := 441 + 16 * k
abbrev HBM_PHY_ERROR (k : Nat) : Nat := 442 + 16 * k
abbrev HBM_PC_FENCED (k : Nat) : Nat := 443 + 16 * k
abbrev HBM_SOFT_REPAIR (k : Nat) : Nat := 444 + 16 * k
abbrev HBM_REPAIR_EXHAUSTED (k : Nat) : Nat := 445 + 16 * k
abbrev HBM_LANE_REMAP (k : Nat) : Nat := 446 + 16 * k
abbrev HBM_TRAIN_DONE (k : Nat) : Nat := 447 + 16 * k
abbrev HBM_TRAIN_FAIL (k : Nat) : Nat := 448 + 16 * k
abbrev HBM_DRIFT (k : Nat) : Nat := 449 + 16 * k
abbrev HBM_TEMP_HIGH (k : Nat) : Nat := 450 + 16 * k
abbrev HBM_TEMP_CRIT (k : Nat) : Nat := 451 + 16 * k
abbrev HBM_REFRESH_FORCED (k : Nat) : Nat := 452 + 16 * k
abbrev HBM_LAT_EXCEEDED (k : Nat) : Nat := 453 + 16 * k
abbrev HBM_SR_ENTER (k : Nat) : Nat := 454 + 16 * k
abbrev HBM_SR_EXIT (k : Nat) : Nat := 455 + 16 * k

abbrev CPY_BAD_DESC : Nat := 472
abbrev CPY_OVERLAP : Nat := 473
abbrev CPY_CHAIN_LIMIT : Nat := 474
abbrev CPY_NO_RESPONSE : Nat := 475
abbrev CPY_XLATE_FAULT : Nat := 476
abbrev CPY_DATA_ERROR : Nat := 477
abbrev CPY_WRITEBACK_LOST : Nat := 478
abbrev CPY_MISCOMPARE : Nat := 479
abbrev CPY_YIELD : Nat := 480
abbrev CPY_BAD_CFG : Nat := 481
abbrev CPY_FUNC_STOP : Nat := 482
abbrev CPY_MGR_STOPPED : Nat := 483
abbrev CPY_CHAIN_END : Nat := 484
abbrev CPY_CHANNEL_FENCED : Nat := 485
abbrev CPY_UNIT_FENCED : Nat := 486
abbrev CPY_CORRECTED_RATE : Nat := 487

abbrev FRER_ROGUE : Nat := 488
abbrev FRER_LOST : Nat := 489
abbrev FRER_RESET : Nat := 490
abbrev FRER_DIGEST_MISMATCH : Nat := 491
abbrev FRER_MM_OVERFLOW : Nat := 492
abbrev FRER_TAGLESS_DROP : Nat := 493
abbrev FRER_WRONG_LAN : Nat := 494
abbrev FRER_UNKNOWN_NODE : Nat := 495
abbrev FRER_CTX_FENCED : Nat := 496
abbrev MIR_PEER_SILENT : Nat := 497
abbrev MIR_GAP : Nat := 498
abbrev MIR_TX_DROP : Nat := 499
abbrev MIR_RESYNC_DONE : Nat := 500
abbrev MIR_DIVERGED : Nat := 501
abbrev MIR_TAKEOVER_DONE : Nat := 502
abbrev MIR_DUAL_PRIMARY : Nat := 503

abbrev PWR_THROTTLE_ON : Nat := 504
abbrev PWR_THROTTLE_OFF : Nat := 505
abbrev PWR_TJ_HIGH : Nat := 506
abbrev PWR_TJ_CRIT : Nat := 507
abbrev PWR_SENSOR_FAULT : Nat := 508
abbrev PWR_VIN_LOW : Nat := 509
abbrev PWR_VIN_HIGH : Nat := 510
abbrev PWR_VIN_AON_LOW : Nat := 511
abbrev PWR_OVERCURRENT : Nat := 512
abbrev PWR_PHASE_FAULT : Nat := 513
abbrev PWR_PHASE_SPARED : Nat := 514
abbrev PWR_RAIL_FAULT : Nat := 515
abbrev PWR_DOMAIN_FAULT : Nat := 516
abbrev PWR_DOMAIN_ON : Nat := 517
abbrev PWR_DOMAIN_OFF : Nat := 518
abbrev PWR_STATE : Nat := 519
abbrev PWR_BUDGET : Nat := 520
abbrev PWR_DEEP_IDLE_ENTER : Nat := 521
abbrev PWR_DEEP_IDLE_EXIT : Nat := 522
abbrev PWR_CORE_PLL_UNLOCK : Nat := 523
abbrev PWR_PLL_SPARED : Nat := 524
abbrev PWR_AGEING_ALERT : Nat := 525
abbrev PWR_EM_ALERT : Nat := 526
abbrev PWR_LAST_SHUTDOWN : Nat := 527

abbrev SVC_MGMT_LINK_UP : Nat := 528
abbrev SVC_MGMT_LINK_DOWN : Nat := 529
abbrev SVC_NCSI_SELECT : Nat := 530
abbrev SVC_NCSI_DESELECT : Nat := 531
abbrev SVC_FLASH_DONE : Nat := 532
abbrev SVC_FLASH_ERROR : Nat := 533
abbrev SVC_FW_FALLBACK : Nat := 534
abbrev SVC_JTAG_CLAIM : Nat := 535
abbrev SVC_JTAG_RELEASE : Nat := 536
abbrev SVC_FUSE_ERROR : Nat := 537
abbrev SVC_SRAM_WEAR : Nat := 538
abbrev SVC_SRAM_REPAIR : Nat := 539
abbrev SVC_SPARE_SWAPPED : Nat := 540
abbrev SVC_SPARE_FAILED : Nat := 541
abbrev SVC_SPARE_EXHAUSTED : Nat := 542
abbrev SVC_LAST_FATAL : Nat := 543

abbrev FW_READY : Nat := 544
abbrev FW_CMD_OVERRUN : Nat := 545
abbrev FW_DRIVER_ABSENT : Nat := 546
abbrev FW_OWNED_WRITE : Nat := 547
abbrev FW_WATCHDOG : Nat := 548
abbrev FW_CORE_FAULT : Nat := 549
abbrev FW_CORE_SPARED : Nat := 550
abbrev FW_SRAM_CORRECTED_RATE : Nat := 551

abbrev CREDIT_STALL : Nat := 552
abbrev CELL_CHECK : Nat := 553
abbrev EPOCH_COMMITTED : Nat := 554
abbrev EPOCH_DRAINED : Nat := 555
abbrev GLB_EPOCH_STAGE_FAILED : Nat := 556
abbrev GRD_PARSE_LIMIT : Nat := 557
abbrev TBL_L2_LEARN_LIMIT : Nat := 558
abbrev TBL_L2_LEARN_FULL : Nat := 559
abbrev TBL_L2_MOVE_DENIED : Nat := 560
abbrev TBL_FLOW_INSERT_FAIL : Nat := 561
abbrev TBL_FLOW_LOAD_HIGH : Nat := 562
abbrev TBL_LPM_NO_SPACE : Nat := 563
abbrev TBL_SRAM_ERROR : Nat := 564
abbrev FN_FLR_SLOW : Nat := 565
abbrev FN_MIG_ALL_DIRTY : Nat := 566
abbrev GLB_FENCED : Nat := 567
abbrev GLB_DEGRADED : Nat := 568
abbrev GLB_FATAL : Nat := 569
abbrev GLB_CORRECTED_RATE : Nat := 570
abbrev GLB_LINK_RETRY_RATE : Nat := 571
abbrev GLB_LINK_FENCED : Nat := 572
abbrev GLB_PIPE_FENCED : Nat := 573
abbrev GLB_CARAFE_FENCED : Nat := 574
abbrev GLB_FENCE_LOG_FULL : Nat := 575

/-- Sources masked at reset: firmware does not route them at boot (R283). -/
def maskedAtReset (src : Nat) : Bool := src == TIME_SECOND || src == JNL_CHECKPOINT

end Sys2Proof.Machine.Ev
end

