-- ==== Sys2Proof/Machine/Map.lean ====
section
/-! DEFINITION. The sparse tables: lookup, update and the canonical form. -/

namespace Sys2Proof.SMap

variable {α : Type}

/-- The value at key k, or d where the table lists none. -/
def getD (m : SMap α) (k : Nat) (d : α) : α :=
  match m with
  | [] => d
  | (j, v) :: r => if j = k then v else getD r k d

/-- The table without key k. -/
def erase (m : SMap α) (k : Nat) : SMap α :=
  match m with
  | [] => []
  | (j, v) :: r => if j = k then erase r k else (j, v) :: erase r k

/-- Puts a pair in front of the first greater key. -/
def insert (m : SMap α) (k : Nat) (v : α) : SMap α :=
  match m with
  | [] => [(k, v)]
  | (j, w) :: r => if k < j then (k, v) :: (j, w) :: r else (j, w) :: insert r k v

/-- Writes v at key k; writing the default value d removes the entry. -/
def setD [DecidableEq α] (m : SMap α) (k : Nat) (v d : α) : SMap α :=
  if v = d then erase m k else insert (erase m k) k v

/-- The value at key k of a table whose default is the type's default value. -/
def get [Inhabited α] (m : SMap α) (k : Nat) : α := getD m k default

/-- Writes the value at key k of such a table. -/
def set [DecidableEq α] [Inhabited α] (m : SMap α) (k : Nat) (v : α) : SMap α := setD m k v default

/-- Applies f to the value at key k. -/
def mod [DecidableEq α] [Inhabited α] (m : SMap α) (k : Nat) (f : α → α) : SMap α := set m k (f (get m k))

/-- The keys listed. -/
def keys (m : SMap α) : List Nat := m.map (·.1)

/-- Keys strictly rising, and no entry equal to the default. -/
def wfD [DecidableEq α] (m : SMap α) (d : α) : Bool :=
  match m with
  | [] => true
  | (j, v) :: r => decide (v ≠ d) && r.all (fun p => decide (j < p.1)) && wfD r d

end Sys2Proof.SMap
end

