-- ==== Sys2Proof/Machine/RegNames.lean ====
section
/-! DEFINITION. The registers of the spec's register tables: their names, places, owners, fields, access types,
reset values and legal ranges (spec/00_scope.md R9 to R15 and the register tables of every chapter). -/

namespace Sys2Proof.Machine

/-- The access types of spec/00_scope.md R9. -/
inductive Access
  | RO | RW | WO | W1C | W1S | RC | RWL
deriving DecidableEq, Repr, Inhabited

/-- Who owns a register (spec/00_scope.md R15). -/
inductive Owner
  | manager | firmware | unnamed
deriving DecidableEq, Repr, Inhabited

/-- The register window a register is reached through: BAR2 of the manager PF, BAR0 of a function, or none. -/
inductive Window
  | bar2 | bar0 | internal
deriving DecidableEq, Repr, Inhabited

/-- The values of a field that are not reserved encodings (R13). -/
inductive Legal
  | any
  | range (lo hi : Nat)
  | signed (bound : Nat)
deriving DecidableEq, Repr, Inhabited

/-- One field of a register table: bits [hi:lo]. -/
structure FieldDesc where
  hi : Nat
  lo : Nat
  access : Access := .RO
  reset : Nat := 0
  legal : Legal := .any
deriving DecidableEq, Repr, Inhabited

/-- Addresses of an array of registers: element (o, i) lies at base + ostride × o + istride × i and has index
idx0 + omul × o + i. -/
structure RegRange where
  base : Nat
  ostride : Nat := 0
  ocount : Nat := 1
  istride : Nat := 0
  icount : Nat := 1
  idx0 : Nat := 0
  omul : Nat := 0
deriving DecidableEq, Repr, Inhabited

/-- What the spec's table says of a register. -/
structure RegDesc where
  window : Window
  owner : Owner
  wide : Bool
  ranges : List RegRange
  fields : List FieldDesc
deriving DecidableEq, Repr, Inhabited

/-- The registers, under the manual's names; a group of counters is one name with an index. -/
inductive Reg
  | GLB_CREDIT_WDOG | GLB_EPOCH_STATUS | GLB_EPOCH_COMMIT_TIME | TSU_FREQ_OFFSET | TSU_INCR | TSU_STEP
  | TSU_STEP_AT | TSU_STEP_CTRL | TSU_SLEW_SET | TSU_SLEW_LEFT | TSU_SLEW_RATE | TSU_TIME_NSF
  | TSU_TIME_SEC | TSU_TIME_SHORT | TSU_STATUS | TSU_LANE_SKEW | TSU_BOARD_DLY | TSU_REF
  | TSU_PPS_OUT | TSU_PPS_OUT_OFS | TSU_PPS_IN | OVN_CTRL | OVN_SETPOINT | OVN_GAIN
  | OVN_BANDS | OVN_LIMITS | OVN_SENSE_LIMITS | OVN_STATUS | OVN_SENSE | OVN_EFC
  | PRT_MODE | PRT_GROUP_APPLY | PRT_STATUS | PRT_DESKEW | PRT_CTRL | PRT_MAC_CFG
  | PRT_MAC_ADDR | PRT_FC_CFG | PRT_FC_QUANTA | PRT_FC_THRESH | PRT_PFC_MAP | PRT_PREEMPT
  | GLB_COUNTER_OWNER | PRT_MGMT_CFG | GRD_START | TBL_L2_PORT | TBL_L2_COUNT | TBL_L2_CFG
  | TBL_L2_RD_CMD | TBL_FLOW_CFG | TBL_FLOW_USED | TBL_LPM_ROOT | TBL_LPM_COUNT | BRW_ENGINE_MAP
  | BRW_RUN_LIMIT | BRW_SUP_TIMEOUT | BRW_CTRL | BRW_THREAD_STATE | BRW_BP | BRW_BP_THREADS
  | BRW_DBG_CTL | CS_BANK_MAP | CS_BANK_STATE | CS_IMAGE_ID | CS_ENTRY | CS_ROM_ID
  | CS_REGION | CS_MEAS | CS_PMEAS | CS_MATCH | OFL_ENTROPY | OFL_ENTROPY_SEED
  | OFL_TUNNEL_CFG | OFL_MACSEC_PORT | OFL_MACSEC_WINDOW | OFL_GROUP_CTRL | OFL_USED | TM_NODE_CMD
  | GCL_ADMIN_CTRL | GCL_ADMIN_CYCLE | GCL_ADMIN_BASE_SEC | GCL_ADMIN_BASE_NS | GCL_STATUS | GCL_CHANGE_TIME
  | TM_OBS_CFG | TM_OBS_QUEUES | REL_DEVICE | REL_CFG | JNL_BASE | JNL_CTRL
  | JNL_CONS | JNL_PROD | JNL_STATUS | REL_GROUP_STATUS | FRER_MM_POP | MIR_CTRL
  | EVT_FN | EVT_ROUTE | ATS_FN_LIMIT | HIF_CPL_TIMEOUT | HIF_PRI_TIMEOUT | MBX_CMD
  | MBX_ACK | MBX_STATUS | MBX_TIMEOUT | DB_TO_FW | DB_FROM_FW | DB_FROM_FW_MASK
  | HIF_FN_STATE | HIF_MIG_BASE | HIF_MIG_CTRL | HIF_MIG_PROD | HIF_MIG_CONS | CPY_CH_CFG
  | CPY_CH_LIMITS | CPY_CH_HEAD | CPY_CH_CTRL | CPY_CH_STATUS | HBM_REGION | HBM_PAGE_CFG
  | HBM_PC_STATUS | HBM_STACK_STATUS | GLB_ERR_COUNT | GLB_FENCE_POP | GLB_FATAL_CAUSE | GLB_FATAL_TIME
  | SVC_ID_PART | SVC_ID_VENDOR | SVC_ID_LOT | SVC_ID_POS | SVC_ID_CERT | SVC_ID_STATUS
  | PWR_DOMAIN | PWR_STATUS | PWR_CFG | PWR_THERM_CFG | PWR_VIN | PWR_LAST
  | GLB_RESET | GLB_RESET_CAUSE | PRT_CTR | PRT_TOTAL | GRD_CTR | L2_CTR
  | BRW_CTR | PIPE_CTR | CS_CTR | OFL_CTR | MACSEC_CTR | TM_CTR
  | REL_CTR | STAMPS_LOST | JNL_CTR | FRER_CTX_CTR | FRER_CTR | FRER_RX_FRAMES
  | FRER_LAST_SEEN | HIF_CTR | QM_CTR | CPY_CTR | HBM_CTR | TBL_L2_RD_DATA
  | TM_NODE_DATA | TM_NODE_STAT | GCL_ADMIN_ENTRY | GCL_OPER_ENTRY | GCL_OPER_CTRL | GCL_OPER_CYCLE
  | GCL_OPER_BASE_SEC | GCL_OPER_BASE_NS | REL_CAPACITY | REL_ADMITTED | REL_HELD | REL_SPILLED
  | JNL_HEAD_RSEQ | JNL_CHAIN_ID | FRER_MM_HEAD | MIR_LAST_RX | MIR_GAP | EVT_PEND
  | EVT_FN_VEC | MBX_DATA | CPY_CH_CUR | CPY_CH_PROGRESS | CPY_UNIT_CTRL | CPY_WIN
  | GLB_FENCE_HEAD | PWR_TEMP
deriving DecidableEq, Repr, Inhabited

/-- Every register name, in the order of the constructors. -/
def Reg.all : List Reg := (List.range 188).map Reg.ofNat


/-! The tables' rows, register by register. -/
namespace D
def GLB_CREDIT_WDOG : RegDesc := ⟨.bar2, .manager, false, [⟨0x220, 0, 1, 0, 1, 0, 0⟩],
  [⟨31, 31, .RW, 1, .any⟩, ⟨19, 0, .RW, 0x64, .range 1 1000000⟩]⟩
def GLB_EPOCH_STATUS : RegDesc := ⟨.bar2, .firmware, false, [⟨0x200, 0, 1, 0, 1, 0, 0⟩],
  [⟨31, 31, .RO, 0, .any⟩, ⟨30, 30, .RO, 0, .any⟩, ⟨29, 29, .RO, 0, .any⟩, ⟨28, 28, .RO, 0, .any⟩, ⟨23, 16, .RO, 0, .any⟩, ⟨8, 8, .RO, 0, .any⟩, ⟨4, 0, .RO, 0, .any⟩]⟩
def GLB_EPOCH_COMMIT_TIME : RegDesc := ⟨.bar2, .firmware, true, [⟨0x208, 0, 1, 0, 1, 0, 0⟩],
  [⟨63, 0, .RO, 0, .any⟩]⟩
def TSU_FREQ_OFFSET : RegDesc := ⟨.bar2, .manager, true, [⟨0x1000028, 0, 1, 0, 1, 0, 0⟩],
  [⟨63, 0, .RW, 0, .signed 32768000000⟩]⟩
def TSU_INCR : RegDesc := ⟨.bar2, .unnamed, true, [⟨0x1000020, 0, 1, 0, 1, 0, 0⟩],
  [⟨49, 48, .RO, 1, .any⟩, ⟨47, 0, .RO, 0, .any⟩]⟩
def TSU_STEP : RegDesc := ⟨.bar2, .manager, true, [⟨0x1000030, 0, 1, 0, 1, 0, 0⟩],
  [⟨63, 0, .RW, 0, .any⟩]⟩
def TSU_STEP_AT : RegDesc := ⟨.bar2, .manager, true, [⟨0x1000038, 0, 1, 0, 1, 0, 0⟩],
  [⟨47, 0, .RW, 0, .any⟩]⟩
def TSU_STEP_CTRL : RegDesc := ⟨.bar2, .manager, false, [⟨0x1000040, 0, 1, 0, 1, 0, 0⟩],
  [⟨31, 31, .W1S, 0, .any⟩, ⟨30, 30, .RW, 0, .any⟩, ⟨29, 29, .WO, 0, .any⟩, ⟨17, 16, .RO, 0, .any⟩]⟩
def TSU_SLEW_SET : RegDesc := ⟨.bar2, .manager, true, [⟨0x1000048, 0, 1, 0, 1, 0, 0⟩],
  [⟨63, 0, .WO, 0, .any⟩]⟩
def TSU_SLEW_LEFT : RegDesc := ⟨.bar2, .unnamed, true, [⟨0x1000050, 0, 1, 0, 1, 0, 0⟩],
  [⟨63, 0, .RO, 0, .any⟩]⟩
def TSU_SLEW_RATE : RegDesc := ⟨.bar2, .manager, false, [⟨0x1000058, 0, 1, 0, 1, 0, 0⟩],
  [⟨16, 0, .RW, 0xC350, .range 1 50000⟩]⟩
def TSU_TIME_NSF : RegDesc := ⟨.bar2, .unnamed, true, [⟨0x1000000, 0, 1, 0, 1, 0, 0⟩],
  [⟨47, 16, .RO, 0, .any⟩, ⟨15, 0, .RO, 0, .any⟩]⟩
def TSU_TIME_SEC : RegDesc := ⟨.bar2, .unnamed, true, [⟨0x1000008, 0, 1, 0, 1, 0, 0⟩],
  [⟨47, 0, .RO, 0, .any⟩]⟩
def TSU_TIME_SHORT : RegDesc := ⟨.bar2, .unnamed, true, [⟨0x1000010, 0, 1, 0, 1, 0, 0⟩],
  [⟨63, 0, .RO, 0, .any⟩]⟩
def TSU_STATUS : RegDesc := ⟨.bar2, .unnamed, false, [⟨0x1000060, 0, 1, 0, 1, 0, 0⟩],
  [⟨31, 30, .RO, 0, .any⟩, ⟨29, 29, .RO, 0, .any⟩, ⟨28, 28, .RO, 0, .any⟩, ⟨27, 26, .RO, 0, .any⟩, ⟨25, 25, .RO, 0, .any⟩, ⟨24, 24, .RO, 0, .any⟩]⟩
def TSU_LANE_SKEW : RegDesc := ⟨.bar2, .firmware, false, [⟨0x1001400, 0, 1, 4, 16, 0, 0⟩],
  [⟨31, 16, .RO, 0, .any⟩, ⟨15, 0, .RO, 0, .any⟩]⟩
def TSU_BOARD_DLY : RegDesc := ⟨.bar2, .manager, false, [⟨0x1000100, 0, 1, 4, 16, 0, 0⟩],
  [⟨31, 16, .RW, 0, .any⟩, ⟨15, 0, .RW, 0, .any⟩]⟩
def TSU_REF : RegDesc := ⟨.bar2, .manager, false, [⟨0x1000068, 0, 1, 0, 1, 0, 0⟩],
  [⟨1, 0, .RW, 0, .range 0 2⟩]⟩
def TSU_PPS_OUT : RegDesc := ⟨.bar2, .manager, false, [⟨0x1000070, 0, 1, 0, 1, 0, 0⟩],
  [⟨31, 31, .RW, 0, .any⟩, ⟨30, 30, .RW, 0, .any⟩, ⟨18, 0, .RW, 0x186A0, .range 1 500000⟩]⟩
def TSU_PPS_OUT_OFS : RegDesc := ⟨.bar2, .manager, false, [⟨0x1000074, 0, 1, 0, 1, 0, 0⟩],
  [⟨31, 0, .RW, 0, .signed 1000000⟩]⟩
def TSU_PPS_IN : RegDesc := ⟨.bar2, .unnamed, true, [⟨0x1000078, 0, 1, 0, 1, 0, 0⟩],
  [⟨63, 0, .RO, 0, .any⟩]⟩
def OVN_CTRL : RegDesc := ⟨.bar2, .unnamed, false, [⟨0x1008000, 0, 1, 0, 1, 0, 0⟩],
  [⟨31, 31, .RW, 0, .any⟩, ⟨30, 30, .RW, 0, .any⟩, ⟨29, 29, .RW, 0, .any⟩]⟩
def OVN_SETPOINT : RegDesc := ⟨.bar2, .unnamed, false, [⟨0x1008004, 0, 1, 0, 1, 0, 0⟩],
  [⟨15, 0, .RW, 0, .any⟩]⟩
def OVN_GAIN : RegDesc := ⟨.bar2, .unnamed, false, [⟨0x1008008, 0, 1, 0, 1, 0, 0⟩],
  [⟨31, 16, .RW, 0, .any⟩, ⟨15, 0, .RW, 0, .any⟩]⟩
def OVN_BANDS : RegDesc := ⟨.bar2, .unnamed, false, [⟨0x100800C, 0, 1, 0, 1, 0, 0⟩],
  [⟨31, 16, .RW, 0x7D0, .any⟩, ⟨15, 0, .RW, 0x28, .any⟩]⟩
def OVN_LIMITS : RegDesc := ⟨.bar2, .unnamed, false, [⟨0x1008010, 0, 1, 0, 1, 0, 0⟩],
  [⟨31, 20, .RW, 0xFFF, .any⟩, ⟨19, 10, .RW, 0x3C, .range 1 1023⟩, ⟨9, 0, .RW, 0xF, .range 1 1023⟩]⟩
def OVN_SENSE_LIMITS : RegDesc := ⟨.bar2, .unnamed, false, [⟨0x1008014, 0, 1, 0, 1, 0, 0⟩],
  [⟨31, 16, .RW, 0xFFC0, .any⟩, ⟨15, 0, .RW, 0x40, .any⟩]⟩
def OVN_STATUS : RegDesc := ⟨.bar2, .unnamed, false, [⟨0x1008018, 0, 1, 0, 1, 0, 0⟩],
  [⟨31, 28, .RO, 0, .any⟩, ⟨27, 27, .W1C, 0, .any⟩, ⟨26, 26, .RO, 0, .any⟩, ⟨25, 24, .RO, 0, .any⟩, ⟨23, 12, .RO, 0, .any⟩]⟩
def OVN_SENSE : RegDesc := ⟨.bar2, .unnamed, false, [⟨0x100801C, 0, 1, 0, 1, 0, 0⟩],
  [⟨15, 0, .RO, 0, .any⟩]⟩
def OVN_EFC : RegDesc := ⟨.bar2, .unnamed, false, [⟨0x1008020, 0, 1, 0, 1, 0, 0⟩],
  [⟨19, 0, .RW, 0x80000, .any⟩]⟩
def PRT_MODE : RegDesc := ⟨.bar2, .manager, false, [⟨0x2000000, 0x10000, 16, 0, 1, 0, 1⟩],
  [⟨31, 31, .RW, 0, .any⟩, ⟨30, 30, .RW, 0, .any⟩, ⟨29, 29, .RW, 1, .any⟩, ⟨26, 24, .RW, 0, .any⟩]⟩
def PRT_GROUP_APPLY : RegDesc := ⟨.bar2, .manager, false, [⟨0x2000050, 0x80000, 2, 0, 1, 0, 1⟩],
  [⟨31, 31, .W1S, 0, .any⟩, ⟨17, 16, .RO, 0, .any⟩, ⟨11, 8, .RO, 0, .any⟩]⟩
def PRT_STATUS : RegDesc := ⟨.bar2, .unnamed, false, [⟨0x2000008, 0x10000, 16, 0, 1, 0, 1⟩],
  [⟨31, 31, .RO, 0, .any⟩, ⟨30, 30, .RO, 0, .any⟩, ⟨29, 29, .RO, 0, .any⟩, ⟨28, 28, .RO, 0, .any⟩, ⟨27, 27, .RO, 0, .any⟩, ⟨26, 26, .RO, 0, .any⟩, ⟨25, 18, .RO, 0, .any⟩, ⟨17, 17, .RO, 0, .any⟩, ⟨16, 16, .RO, 0, .any⟩, ⟨15, 13, .RO, 0, .any⟩, ⟨12, 12, .RO, 0, .any⟩]⟩
def PRT_DESKEW : RegDesc := ⟨.bar2, .unnamed, false, [⟨0x2000010, 0x10000, 16, 0, 1, 0, 1⟩],
  [⟨31, 16, .RO, 0, .any⟩, ⟨15, 0, .RO, 0, .any⟩]⟩
def PRT_CTRL : RegDesc := ⟨.bar2, .manager, false, [⟨0x2000004, 0x10000, 16, 0, 1, 0, 1⟩],
  [⟨31, 31, .WO, 0, .any⟩, ⟨30, 29, .RW, 0, .range 0 2⟩, ⟨28, 28, .RW, 0, .any⟩, ⟨27, 27, .WO, 0, .any⟩]⟩
def PRT_MAC_CFG : RegDesc := ⟨.bar2, .manager, false, [⟨0x200000C, 0x10000, 16, 0, 1, 0, 1⟩],
  [⟨29, 16, .RW, 0x5F2, .range 64 16000⟩, ⟨15, 15, .RW, 1, .any⟩]⟩
def PRT_MAC_ADDR : RegDesc := ⟨.bar2, .manager, true, [⟨0x2000018, 0x10000, 16, 0, 1, 0, 1⟩],
  [⟨47, 0, .RW, 0, .any⟩]⟩
def PRT_FC_CFG : RegDesc := ⟨.bar2, .manager, false, [⟨0x2000020, 0x10000, 16, 0, 1, 0, 1⟩],
  [⟨31, 30, .RW, 0, .range 0 2⟩, ⟨29, 29, .RW, 1, .any⟩, ⟨28, 28, .RW, 1, .any⟩, ⟨27, 20, .RW, 0xFF, .any⟩, ⟨19, 12, .RW, 0xFF, .any⟩, ⟨11, 10, .RW, 0, .range 0 1⟩, ⟨9, 0, .RW, 0x64, .any⟩]⟩
def PRT_FC_QUANTA : RegDesc := ⟨.bar2, .manager, false, [⟨0x2000024, 0x10000, 16, 0, 1, 0, 1⟩],
  [⟨31, 16, .RW, 0x7FFF, .any⟩, ⟨15, 0, .RW, 0xFFFF, .any⟩]⟩
def PRT_FC_THRESH : RegDesc := ⟨.bar2, .manager, false, [⟨0x2000028, 0x10000, 16, 0, 1, 0, 1⟩],
  [⟨31, 16, .RW, 0x200, .any⟩, ⟨15, 0, .RW, 0x180, .any⟩]⟩
def PRT_PFC_MAP : RegDesc := ⟨.bar2, .manager, false, [⟨0x200002C, 0x10000, 16, 0, 1, 0, 1⟩],
  [⟨26, 24, .RW, 0, .any⟩, ⟨23, 0, .RW, 0xFAC688, .any⟩]⟩
def PRT_PREEMPT : RegDesc := ⟨.bar2, .manager, false, [⟨0x2000030, 0x10000, 16, 0, 1, 0, 1⟩],
  [⟨31, 31, .RW, 0, .any⟩, ⟨30, 30, .RW, 0, .any⟩, ⟨29, 28, .RW, 0, .any⟩, ⟨27, 20, .RW, 0xFF, .any⟩, ⟨19, 12, .RW, 0xA, .range 1 128⟩, ⟨11, 10, .RO, 0, .any⟩]⟩
def GLB_COUNTER_OWNER : RegDesc := ⟨.bar2, .unnamed, false, [⟨0x230, 0, 1, 0, 1, 0, 0⟩],
  [⟨0, 0, .RWL, 0, .any⟩]⟩
def PRT_MGMT_CFG : RegDesc := ⟨.bar2, .manager, false, [⟨0x2100000, 0, 1, 0, 1, 0, 0⟩],
  [⟨31, 31, .RW, 0, .any⟩, ⟨30, 30, .RW, 0, .any⟩, ⟨29, 29, .RW, 1, .any⟩, ⟨28, 28, .RW, 0, .any⟩, ⟨27, 27, .RO, 0, .any⟩, ⟨26, 25, .RO, 0, .any⟩]⟩
def GRD_START : RegDesc := ⟨.bar2, .firmware, false, [⟨0x3000000, 0, 1, 0x10000, 4, 0, 0⟩],
  [⟨15, 8, .RO, 0xFF, .any⟩, ⟨7, 0, .RO, 0xFF, .any⟩]⟩
def TBL_L2_PORT : RegDesc := ⟨.bar2, .manager, false, [⟨0x3041000, 0, 1, 4, 16, 0, 0⟩],
  [⟨31, 31, .RW, 1, .any⟩, ⟨30, 30, .RW, 0, .any⟩, ⟨19, 0, .RW, 0x80000, .range 0 524288⟩]⟩
def TBL_L2_COUNT : RegDesc := ⟨.bar2, .unnamed, false, [⟨0x3042000, 0, 1, 4, 64, 0, 0⟩],
  [⟨19, 0, .RO, 0, .any⟩]⟩
def TBL_L2_CFG : RegDesc := ⟨.bar2, .manager, false, [⟨0x3040000, 0, 1, 0x100, 4, 0, 0⟩],
  [⟨31, 31, .RW, 1, .any⟩, ⟨19, 0, .RW, 0x12C, .range 1 1000000⟩]⟩
def TBL_L2_RD_CMD : RegDesc := ⟨.bar2, .manager, false, [⟨0x3043000, 0, 1, 0, 1, 0, 0⟩],
  [⟨31, 31, .W1S, 0, .any⟩, ⟨29, 28, .RW, 0, .any⟩, ⟨18, 0, .RW, 0, .any⟩]⟩
def TBL_FLOW_CFG : RegDesc := ⟨.bar2, .manager, false, [⟨0x3044000, 0, 1, 0, 1, 0, 0⟩],
  [⟨31, 31, .RW, 0, .any⟩, ⟨19, 0, .RW, 0x3C, .range 1 1000000⟩]⟩
def TBL_FLOW_USED : RegDesc := ⟨.bar2, .unnamed, false, [⟨0x3044010, 0, 1, 4, 2, 0, 0⟩],
  [⟨25, 0, .RO, 0, .any⟩]⟩
def TBL_LPM_ROOT : RegDesc := ⟨.bar2, .firmware, true, [⟨0x3045000, 0, 1, 0, 1, 0, 0⟩],
  [⟨59, 32, .RO, 0, .any⟩, ⟨27, 0, .RO, 0, .any⟩]⟩
def TBL_LPM_COUNT : RegDesc := ⟨.bar2, .firmware, true, [⟨0x3045010, 0, 1, 0, 1, 0, 0⟩],
  [⟨63, 32, .RO, 0, .any⟩, ⟨31, 0, .RO, 0, .any⟩]⟩
def BRW_ENGINE_MAP : RegDesc := ⟨.bar2, .firmware, false, [⟨0x4000004, 0x100000, 16, 0, 1, 0, 1⟩],
  [⟨31, 0, .RO, 0x76543210, .any⟩]⟩
def BRW_RUN_LIMIT : RegDesc := ⟨.bar2, .manager, false, [⟨0x4000010, 0x100000, 16, 0, 1, 0, 1⟩],
  [⟨23, 0, .RW, 0x3A98, .range 256 16777215⟩]⟩
def BRW_SUP_TIMEOUT : RegDesc := ⟨.bar2, .manager, false, [⟨0x4000014, 0x100000, 16, 0, 1, 0, 1⟩],
  [⟨15, 0, .RW, 0x64, .range 1 65535⟩]⟩
def BRW_CTRL : RegDesc := ⟨.bar2, .firmware, false, [⟨0x4000000, 0x100000, 16, 0, 1, 0, 1⟩],
  [⟨31, 31, .RO, 0, .any⟩, ⟨30, 30, .RO, 0, .any⟩, ⟨7, 0, .RO, 0, .any⟩]⟩
def BRW_THREAD_STATE : RegDesc := ⟨.bar2, .unnamed, false, [⟨0x4000100, 0x100000, 16, 4, 64, 0, 64⟩],
  [⟨31, 28, .RO, 0, .any⟩, ⟨27, 20, .RO, 0, .any⟩, ⟨15, 0, .RO, 0, .any⟩]⟩
def BRW_BP : RegDesc := ⟨.bar2, .firmware, true, [⟨0x4000040, 0x100000, 16, 8, 4, 0, 4⟩],
  [⟨63, 63, .RO, 0, .any⟩, ⟨15, 0, .RO, 0, .any⟩]⟩
def BRW_BP_THREADS : RegDesc := ⟨.bar2, .firmware, true, [⟨0x4000060, 0x100000, 16, 8, 4, 0, 4⟩],
  [⟨63, 0, .RO, 0, .any⟩]⟩
def BRW_DBG_CTL : RegDesc := ⟨.bar2, .firmware, false, [⟨0x4000020, 0x100000, 16, 0, 1, 0, 1⟩],
  [⟨31, 31, .RO, 0, .any⟩, ⟨30, 30, .RO, 0, .any⟩]⟩
def CS_BANK_MAP : RegDesc := ⟨.bar2, .firmware, false, [⟨0x4008000, 0x100000, 16, 0, 1, 0, 1⟩],
  [⟨1, 1, .RO, 0, .any⟩, ⟨0, 0, .RO, 0, .any⟩]⟩
def CS_BANK_STATE : RegDesc := ⟨.bar2, .firmware, false, [⟨0x4008010, 0x100000, 16, 4, 2, 0, 2⟩],
  [⟨31, 28, .RO, 0, .any⟩, ⟨27, 24, .RO, 0, .any⟩]⟩
def CS_IMAGE_ID : RegDesc := ⟨.bar2, .firmware, false, [⟨0x4008018, 0x100000, 16, 4, 2, 0, 2⟩],
  [⟨31, 0, .RO, 0, .any⟩]⟩
def CS_ENTRY : RegDesc := ⟨.bar2, .firmware, true, [⟨0x4008020, 0x100000, 16, 8, 2, 0, 2⟩],
  [⟨47, 32, .RO, 2, .any⟩, ⟨31, 16, .RO, 1, .any⟩, ⟨15, 0, .RO, 0, .any⟩]⟩
def CS_ROM_ID : RegDesc := ⟨.bar2, .firmware, false, [⟨0x4008030, 0x100000, 16, 0, 1, 0, 1⟩],
  [⟨15, 0, .RO, 0x101, .any⟩]⟩
def CS_REGION : RegDesc := ⟨.bar2, .firmware, true, [⟨0x4008038, 0x100000, 16, 8, 2, 0, 2⟩],
  [⟨63, 32, .RO, 0, .any⟩, ⟨31, 0, .RO, 0, .any⟩]⟩
def CS_MEAS : RegDesc := ⟨.bar2, .firmware, false, [⟨0x4008100, 0x100000, 16, 4, 12, 0, 24⟩, ⟨0x4008140, 0x100000, 16, 4, 12, 12, 24⟩],
  [⟨31, 0, .RO, 0, .any⟩]⟩
def CS_PMEAS : RegDesc := ⟨.bar2, .firmware, false, [⟨0x4008200, 0x100000, 16, 4, 12, 0, 24⟩, ⟨0x4008240, 0x100000, 16, 4, 12, 12, 24⟩],
  [⟨31, 0, .RO, 0, .any⟩]⟩
def CS_MATCH : RegDesc := ⟨.bar2, .firmware, true, [⟨0x4008400, 0x100000, 16, 8, 32, 0, 64⟩, ⟨0x4008500, 0x100000, 16, 8, 32, 32, 64⟩],
  [⟨63, 63, .RO, 0, .any⟩, ⟨31, 16, .RO, 0, .any⟩, ⟨15, 0, .RO, 0, .any⟩]⟩
def OFL_ENTROPY : RegDesc := ⟨.bar2, .manager, false, [⟨0x5008000, 0, 1, 0, 1, 0, 0⟩],
  [⟨31, 16, .RW, 0xC000, .any⟩, ⟨15, 0, .RW, 0xFFFF, .any⟩]⟩
def OFL_ENTROPY_SEED : RegDesc := ⟨.bar2, .manager, false, [⟨0x5008004, 0, 1, 0, 1, 0, 0⟩],
  [⟨15, 0, .RW, 0, .any⟩]⟩
def OFL_TUNNEL_CFG : RegDesc := ⟨.bar2, .manager, false, [⟨0x5008008, 0, 1, 0, 1, 0, 0⟩],
  [⟨31, 31, .RW, 0, .any⟩]⟩
def OFL_MACSEC_PORT : RegDesc := ⟨.bar2, .manager, false, [⟨0x5009000, 0, 1, 4, 16, 0, 0⟩],
  [⟨31, 31, .RW, 0, .any⟩, ⟨30, 30, .RW, 1, .any⟩, ⟨29, 28, .RW, 2, .range 0 2⟩, ⟨27, 27, .RW, 1, .any⟩, ⟨26, 26, .RW, 1, .any⟩, ⟨25, 24, .RW, 0, .any⟩, ⟨23, 22, .RW, 0, .any⟩, ⟨1, 0, .RO, 0, .any⟩]⟩
def OFL_MACSEC_WINDOW : RegDesc := ⟨.bar2, .manager, false, [⟨0x5009040, 0, 1, 4, 16, 0, 0⟩],
  [⟨31, 0, .RW, 0, .any⟩]⟩
def OFL_GROUP_CTRL : RegDesc := ⟨.bar2, .firmware, false, [⟨0x5000000, 0, 1, 0x10000, 4, 0, 0⟩],
  [⟨31, 31, .RO, 0, .any⟩, ⟨30, 30, .RO, 0, .any⟩, ⟨29, 29, .RO, 0, .any⟩]⟩
def OFL_USED : RegDesc := ⟨.bar2, .firmware, false, [⟨0x5008100, 0, 1, 4, 4, 0, 0⟩],
  [⟨20, 0, .RO, 0, .any⟩]⟩
def TM_NODE_CMD : RegDesc := ⟨.bar2, .manager, false, [⟨0x6000000, 0, 1, 0, 1, 0, 0⟩],
  [⟨31, 31, .W1S, 0, .any⟩, ⟨30, 30, .RW, 0, .any⟩, ⟨29, 28, .RW, 0, .any⟩, ⟨27, 26, .RO, 0, .any⟩, ⟨16, 0, .RW, 0, .any⟩]⟩
def GCL_ADMIN_CTRL : RegDesc := ⟨.bar2, .manager, false, [⟨0x6800000, 0x10000, 16, 0, 1, 0, 1⟩],
  [⟨31, 31, .RW, 0, .any⟩, ⟨10, 0, .RW, 1, .any⟩]⟩
def GCL_ADMIN_CYCLE : RegDesc := ⟨.bar2, .manager, false, [⟨0x6800004, 0x10000, 16, 0, 1, 0, 1⟩],
  [⟨31, 0, .RW, 0xF4240, .any⟩]⟩
def GCL_ADMIN_BASE_SEC : RegDesc := ⟨.bar2, .manager, true, [⟨0x6800008, 0x10000, 16, 0, 1, 0, 1⟩],
  [⟨47, 0, .RW, 0, .any⟩]⟩
def GCL_ADMIN_BASE_NS : RegDesc := ⟨.bar2, .manager, false, [⟨0x6800010, 0x10000, 16, 0, 1, 0, 1⟩],
  [⟨29, 0, .RW, 0, .any⟩]⟩
def GCL_STATUS : RegDesc := ⟨.bar2, .firmware, false, [⟨0x6800040, 0x10000, 16, 0, 1, 0, 1⟩],
  [⟨31, 31, .RO, 0, .any⟩, ⟨23, 16, .RO, 0xFF, .any⟩, ⟨10, 0, .RO, 0, .any⟩]⟩
def GCL_CHANGE_TIME : RegDesc := ⟨.bar2, .firmware, true, [⟨0x6800048, 0x10000, 16, 0, 1, 0, 1⟩],
  [⟨63, 0, .RO, 0, .any⟩]⟩
def TM_OBS_CFG : RegDesc := ⟨.bar2, .manager, false, [⟨0x6000100, 0, 1, 0, 1, 0, 0⟩],
  [⟨31, 31, .RW, 0, .any⟩, ⟨12, 8, .RW, 6, .range 0 20⟩, ⟨4, 0, .RW, 4, .range 0 20⟩]⟩
def TM_OBS_QUEUES : RegDesc := ⟨.bar2, .unnamed, false, [⟨0x6000104, 0, 1, 0, 1, 0, 0⟩],
  [⟨16, 0, .RO, 0xA0, .any⟩]⟩
def REL_DEVICE : RegDesc := ⟨.bar2, .manager, false, [⟨0x7000000, 0, 1, 0, 1, 0, 0⟩],
  [⟨31, 31, .RW, 0, .any⟩, ⟨11, 0, .RW, 0, .any⟩]⟩
def REL_CFG : RegDesc := ⟨.bar2, .manager, false, [⟨0x7000004, 0, 1, 0, 1, 0, 0⟩],
  [⟨31, 31, .RW, 1, .any⟩, ⟨6, 0, .RW, 0x20, .range 4 64⟩]⟩
def JNL_BASE : RegDesc := ⟨.bar2, .manager, true, [⟨0x7008000, 0, 1, 0, 1, 0, 0⟩],
  [⟨63, 12, .RW, 0, .any⟩]⟩
def JNL_CTRL : RegDesc := ⟨.bar2, .manager, false, [⟨0x7008008, 0, 1, 0, 1, 0, 0⟩],
  [⟨31, 31, .RW, 0, .any⟩, ⟨4, 0, .RW, 0x10, .range 12 24⟩]⟩
def JNL_CONS : RegDesc := ⟨.bar2, .manager, false, [⟨0x7008010, 0, 1, 0, 1, 0, 0⟩],
  [⟨31, 0, .RW, 0, .any⟩]⟩
def JNL_PROD : RegDesc := ⟨.bar2, .unnamed, false, [⟨0x7008014, 0, 1, 0, 1, 0, 0⟩],
  [⟨31, 0, .RO, 0, .any⟩]⟩
def JNL_STATUS : RegDesc := ⟨.bar2, .unnamed, false, [⟨0x7008018, 0, 1, 0, 1, 0, 0⟩],
  [⟨31, 31, .RO, 0, .any⟩, ⟨30, 30, .RO, 0, .any⟩, ⟨29, 29, .RO, 0, .any⟩, ⟨20, 0, .RO, 0, .any⟩]⟩
def REL_GROUP_STATUS : RegDesc := ⟨.bar2, .firmware, true, [⟨0x7000100, 0, 1, 8, 64, 0, 0⟩],
  [⟨63, 63, .RO, 0, .any⟩, ⟨62, 62, .RO, 0, .any⟩, ⟨51, 32, .RO, 0, .any⟩, ⟨31, 0, .RO, 0, .any⟩]⟩
def FRER_MM_POP : RegDesc := ⟨.bar2, .manager, false, [⟨0x8000010, 0, 1, 0, 1, 0, 0⟩],
  [⟨31, 31, .WO, 0, .any⟩]⟩
def MIR_CTRL : RegDesc := ⟨.bar2, .firmware, false, [⟨0x8080000, 0, 1, 0, 1, 0, 0⟩],
  [⟨31, 30, .RO, 0, .any⟩, ⟨27, 24, .RO, 0, .any⟩, ⟨23, 12, .RO, 0, .any⟩, ⟨11, 0, .RO, 0, .any⟩]⟩
def EVT_FN : RegDesc := ⟨.bar0, .unnamed, false, [⟨0x2100, 0, 1, 0, 1, 0, 0⟩],
  [⟨5, 5, .W1C, 0, .any⟩, ⟨4, 4, .W1C, 0, .any⟩, ⟨3, 3, .W1C, 0, .any⟩, ⟨2, 2, .W1C, 0, .any⟩, ⟨1, 1, .RO, 0, .any⟩, ⟨0, 0, .W1C, 0, .any⟩]⟩
def EVT_ROUTE : RegDesc := ⟨.bar2, .firmware, false, [⟨0xD000000, 0, 1, 4, 576, 0, 0⟩],
  [⟨31, 31, .RO, 0, .any⟩, ⟨13, 12, .RO, 0, .any⟩, ⟨10, 0, .RO, 0, .any⟩]⟩
def ATS_FN_LIMIT : RegDesc := ⟨.bar2, .manager, false, [⟨0x9800000, 0, 1, 4, 2052, 0, 0⟩],
  [⟨15, 0, .RW, 0, .range 16 32768⟩]⟩
def HIF_CPL_TIMEOUT : RegDesc := ⟨.bar2, .manager, false, [⟨0x9000100, 0, 1, 0x10000, 2, 0, 0⟩],
  [⟨21, 0, .RW, 0xC350, .range 50 4000000⟩]⟩
def HIF_PRI_TIMEOUT : RegDesc := ⟨.bar2, .manager, false, [⟨0x9000104, 0, 1, 0x10000, 2, 0, 0⟩],
  [⟨15, 0, .RW, 0x3E8, .range 1 60000⟩]⟩
def MBX_CMD : RegDesc := ⟨.bar0, .unnamed, false, [⟨0, 0, 1, 0, 1, 0, 0⟩],
  [⟨31, 16, .WO, 0, .any⟩, ⟨15, 8, .WO, 0, .any⟩, ⟨7, 0, .WO, 0, .any⟩]⟩
def MBX_ACK : RegDesc := ⟨.bar0, .unnamed, false, [⟨4, 0, 1, 0, 1, 0, 0⟩],
  [⟨31, 31, .RO, 0, .any⟩, ⟨23, 16, .RO, 0, .any⟩, ⟨15, 8, .RO, 0, .any⟩, ⟨7, 0, .RO, 0, .any⟩]⟩
def MBX_STATUS : RegDesc := ⟨.bar0, .unnamed, false, [⟨8, 0, 1, 0, 1, 0, 0⟩],
  [⟨4, 4, .W1C, 0, .any⟩, ⟨3, 3, .RO, 0, .any⟩, ⟨2, 2, .W1C, 0, .any⟩, ⟨1, 1, .W1C, 0, .any⟩, ⟨0, 0, .RO, 0, .any⟩]⟩
def MBX_TIMEOUT : RegDesc := ⟨.bar0, .unnamed, false, [⟨0xC, 0, 1, 0, 1, 0, 0⟩],
  [⟨31, 0, .RW, 0x186A0, .range 1000 60000000⟩]⟩
def DB_TO_FW : RegDesc := ⟨.bar0, .unnamed, false, [⟨0x10, 0, 1, 0, 1, 0, 0⟩],
  [⟨2, 2, .W1S, 0, .any⟩, ⟨1, 1, .W1S, 0, .any⟩, ⟨0, 0, .W1S, 0, .any⟩]⟩
def DB_FROM_FW : RegDesc := ⟨.bar0, .unnamed, false, [⟨0x14, 0, 1, 0, 1, 0, 0⟩],
  [⟨3, 3, .W1C, 0, .any⟩, ⟨2, 2, .W1C, 0, .any⟩, ⟨1, 1, .W1C, 0, .any⟩, ⟨0, 0, .W1C, 0, .any⟩]⟩
def DB_FROM_FW_MASK : RegDesc := ⟨.bar0, .unnamed, false, [⟨0x18, 0, 1, 0, 1, 0, 0⟩],
  [⟨31, 0, .RW, 0xFFFFFFFF, .any⟩]⟩
def HIF_FN_STATE : RegDesc := ⟨.bar2, .firmware, false, [⟨0x9810000, 0, 1, 4, 2052, 0, 0⟩],
  [⟨31, 28, .RO, 0, .any⟩, ⟨27, 27, .RO, 0, .any⟩, ⟨26, 26, .RO, 0, .any⟩, ⟨23, 16, .RO, 0, .any⟩, ⟨5, 0, .RO, 0, .any⟩]⟩
def HIF_MIG_BASE : RegDesc := ⟨.bar2, .firmware, true, [⟨0x9820000, 0, 1, 0x20, 64, 0, 0⟩],
  [⟨63, 12, .RO, 0, .any⟩]⟩
def HIF_MIG_CTRL : RegDesc := ⟨.bar2, .firmware, false, [⟨0x9820008, 0, 1, 0x20, 64, 0, 0⟩],
  [⟨31, 31, .RO, 0, .any⟩, ⟨30, 30, .RO, 0, .any⟩, ⟨28, 24, .RO, 0, .any⟩, ⟨11, 0, .RO, 0, .any⟩]⟩
def HIF_MIG_PROD : RegDesc := ⟨.bar2, .unnamed, false, [⟨0x982000C, 0, 1, 0x20, 64, 0, 0⟩],
  [⟨31, 0, .RO, 0, .any⟩]⟩
def HIF_MIG_CONS : RegDesc := ⟨.bar2, .manager, false, [⟨0x9820010, 0, 1, 0x20, 64, 0, 0⟩],
  [⟨31, 0, .RW, 0, .any⟩]⟩
def CPY_CH_CFG : RegDesc := ⟨.bar2, .manager, true, [⟨0xB100000, 0x40, 1024, 0, 1, 0, 1⟩],
  [⟨63, 63, .RW, 0, .any⟩, ⟨62, 62, .RW, 0, .any⟩, ⟨61, 61, .RW, 0, .any⟩, ⟨42, 32, .RW, 0, .any⟩, ⟨31, 20, .RW, 0, .any⟩, ⟨19, 0, .RW, 0, .any⟩]⟩
def CPY_CH_LIMITS : RegDesc := ⟨.bar2, .manager, false, [⟨0xB100008, 0x40, 1024, 0, 1, 0, 1⟩],
  [⟨29, 16, .RW, 0x40, .range 1 16383⟩, ⟨15, 0, .RW, 0xFFFF, .range 1 65535⟩]⟩
def CPY_CH_HEAD : RegDesc := ⟨.bar2, .manager, true, [⟨0xB100010, 0x40, 1024, 0, 1, 0, 1⟩],
  [⟨63, 5, .RW, 0, .any⟩, ⟨0, 0, .RW, 0, .any⟩]⟩
def CPY_CH_CTRL : RegDesc := ⟨.bar2, .manager, false, [⟨0xB100018, 0x40, 1024, 0, 1, 0, 1⟩],
  [⟨31, 31, .W1S, 0, .any⟩, ⟨30, 30, .W1S, 0, .any⟩, ⟨29, 29, .RW, 1, .any⟩]⟩
def CPY_CH_STATUS : RegDesc := ⟨.bar2, .manager, false, [⟨0xB10001C, 0x40, 1024, 0, 1, 0, 1⟩],
  [⟨31, 28, .RO, 0, .any⟩, ⟨23, 16, .RO, 0, .any⟩, ⟨15, 0, .RO, 0, .any⟩]⟩
def HBM_REGION : RegDesc := ⟨.bar2, .firmware, true, [⟨0xC000100, 0, 1, 8, 8, 0, 0⟩],
  [⟨63, 63, .RO, 0, .any⟩, ⟨37, 36, .RO, 0, .any⟩, ⟨35, 34, .RO, 0, .any⟩, ⟨31, 16, .RO, 0, .any⟩, ⟨15, 0, .RO, 0, .any⟩]⟩
def HBM_PAGE_CFG : RegDesc := ⟨.bar2, .manager, false, [⟨0xC001000, 0, 1, 4, 64, 0, 0⟩],
  [⟨9, 0, .RW, 0x40, .any⟩]⟩
def HBM_PC_STATUS : RegDesc := ⟨.bar2, .firmware, false, [⟨0xC002000, 0, 1, 4, 64, 0, 0⟩],
  [⟨31, 28, .RO, 0, .any⟩, ⟨27, 26, .RO, 0, .any⟩, ⟨23, 20, .RO, 0, .any⟩, ⟨15, 0, .RO, 0, .any⟩]⟩
def HBM_STACK_STATUS : RegDesc := ⟨.bar2, .firmware, false, [⟨0xC000010, 0, 1, 4, 2, 0, 0⟩],
  [⟨31, 31, .RO, 0, .any⟩, ⟨30, 30, .RO, 0, .any⟩, ⟨23, 16, .RO, 0, .any⟩, ⟨15, 8, .RO, 0, .any⟩, ⟨7, 0, .RO, 0, .any⟩]⟩
def GLB_ERR_COUNT : RegDesc := ⟨.bar2, .unnamed, true, [⟨0x300, 0, 1, 8, 4, 0, 0⟩],
  [⟨63, 0, .RO, 0, .any⟩]⟩
def GLB_FENCE_POP : RegDesc := ⟨.bar2, .manager, false, [⟨0x338, 0, 1, 0, 1, 0, 0⟩],
  [⟨31, 31, .WO, 0, .any⟩, ⟨15, 0, .RC, 0, .any⟩]⟩
def GLB_FATAL_CAUSE : RegDesc := ⟨.bar2, .unnamed, false, [⟨0x350, 0, 1, 0, 1, 0, 0⟩],
  [⟨31, 31, .W1C, 0, .any⟩, ⟨23, 16, .RO, 0, .any⟩, ⟨15, 0, .RO, 0, .any⟩]⟩
def GLB_FATAL_TIME : RegDesc := ⟨.bar2, .unnamed, true, [⟨0x358, 0, 1, 0, 1, 0, 0⟩],
  [⟨63, 0, .RO, 0, .any⟩]⟩
def SVC_ID_PART : RegDesc := ⟨.bar2, .unnamed, false, [⟨0xF000000, 0, 1, 0, 1, 0, 0⟩],
  [⟨31, 16, .RO, 0x3216, .any⟩, ⟨15, 8, .RO, 0xA1, .any⟩, ⟨7, 0, .RO, 0, .any⟩]⟩
def SVC_ID_VENDOR : RegDesc := ⟨.bar2, .unnamed, false, [⟨0xF000004, 0, 1, 0, 1, 0, 0⟩],
  [⟨15, 0, .RO, 0, .any⟩]⟩
def SVC_ID_LOT : RegDesc := ⟨.bar2, .unnamed, false, [⟨0xF000008, 0, 1, 4, 2, 0, 0⟩],
  [⟨31, 0, .RO, 0, .any⟩]⟩
def SVC_ID_POS : RegDesc := ⟨.bar2, .unnamed, false, [⟨0xF000010, 0, 1, 0, 1, 0, 0⟩],
  [⟨23, 16, .RO, 0, .any⟩, ⟨15, 8, .RO, 0, .any⟩, ⟨7, 0, .RO, 0, .any⟩]⟩
def SVC_ID_CERT : RegDesc := ⟨.bar2, .unnamed, false, [⟨0xF000020, 0, 1, 4, 12, 0, 0⟩],
  [⟨31, 0, .RO, 0, .any⟩]⟩
def SVC_ID_STATUS : RegDesc := ⟨.bar2, .unnamed, false, [⟨0xF000050, 0, 1, 0, 1, 0, 0⟩],
  [⟨31, 31, .RO, 0, .any⟩, ⟨30, 30, .RO, 0, .any⟩]⟩
def PWR_DOMAIN : RegDesc := ⟨.bar2, .firmware, false, [⟨0xE000200, 0, 1, 4, 64, 0, 0⟩],
  [⟨31, 28, .RO, 0, .any⟩, ⟨27, 27, .RO, 0, .any⟩, ⟨15, 0, .RO, 0, .any⟩]⟩
def PWR_STATUS : RegDesc := ⟨.bar2, .unnamed, false, [⟨0xE000000, 0, 1, 0, 1, 0, 0⟩],
  [⟨31, 28, .RO, 0, .any⟩, ⟨27, 24, .RO, 0, .any⟩, ⟨23, 16, .RO, 0, .any⟩, ⟨15, 8, .RO, 0, .any⟩, ⟨7, 0, .RO, 0, .any⟩]⟩
def PWR_CFG : RegDesc := ⟨.bar2, .manager, false, [⟨0xE000004, 0, 1, 0, 1, 0, 0⟩],
  [⟨31, 31, .RW, 0, .any⟩, ⟨30, 30, .RW, 1, .any⟩, ⟨7, 0, .RW, 0xF0, .range 40 240⟩]⟩
def PWR_THERM_CFG : RegDesc := ⟨.bar2, .manager, false, [⟨0xE000008, 0, 1, 0, 1, 0, 0⟩],
  [⟨31, 24, .RW, 0x5F, .range 60 105⟩, ⟨23, 16, .RW, 0x64, .range 80 100⟩]⟩
def PWR_VIN : RegDesc := ⟨.bar2, .unnamed, true, [⟨0xE000010, 0, 1, 0, 1, 0, 0⟩],
  [⟨63, 48, .RO, 0, .any⟩, ⟨47, 32, .RO, 0, .any⟩, ⟨31, 16, .RO, 0, .any⟩, ⟨15, 0, .RO, 0, .any⟩]⟩
def PWR_LAST : RegDesc := ⟨.bar2, .unnamed, false, [⟨0xE000020, 0, 1, 0, 1, 0, 0⟩],
  [⟨31, 31, .W1C, 0, .any⟩, ⟨27, 24, .RO, 0, .any⟩, ⟨23, 16, .RO, 0, .any⟩]⟩
def GLB_RESET : RegDesc := ⟨.bar2, .manager, false, [⟨0x400, 0, 1, 0, 1, 0, 0⟩],
  [⟨31, 31, .WO, 0, .any⟩, ⟨30, 30, .WO, 0, .any⟩, ⟨29, 29, .WO, 0, .any⟩, ⟨28, 28, .RO, 0, .any⟩, ⟨23, 8, .WO, 0, .any⟩, ⟨3, 0, .RW, 0, .any⟩]⟩
def GLB_RESET_CAUSE : RegDesc := ⟨.bar2, .unnamed, false, [⟨0x404, 0, 1, 0, 1, 0, 0⟩],
  [⟨31, 28, .RO, 0, .any⟩, ⟨27, 24, .RO, 0, .any⟩]⟩
def PRT_CTR : RegDesc := ⟨.bar2, .unnamed, true, [⟨0x2000100, 0x10000, 17, 8, 56, 0, 64⟩],
  [⟨63, 0, .RC, 0, .any⟩]⟩
def PRT_TOTAL : RegDesc := ⟨.internal, .firmware, true, [],
  [⟨63, 0, .RO, 0, .any⟩]⟩
def GRD_CTR : RegDesc := ⟨.bar2, .unnamed, true, [⟨0x3000008, 0x10000, 4, 8, 6, 0, 64⟩],
  [⟨63, 0, .RO, 0, .any⟩]⟩
def L2_CTR : RegDesc := ⟨.bar2, .unnamed, true, [⟨0x3040010, 0x100, 4, 8, 8, 0, 64⟩],
  [⟨63, 0, .RO, 0, .any⟩]⟩
def BRW_CTR : RegDesc := ⟨.bar2, .unnamed, true, [⟨0x4000800, 0x100000, 16, 8, 9, 0, 64⟩],
  [⟨63, 0, .RO, 0, .any⟩]⟩
def PIPE_CTR : RegDesc := ⟨.bar2, .unnamed, true, [⟨0x40F0000, 0x400000, 4, 8, 5, 0, 64⟩],
  [⟨63, 0, .RO, 0, .any⟩]⟩
def CS_CTR : RegDesc := ⟨.bar2, .unnamed, true, [⟨0x4008048, 0x100000, 16, 8, 2, 0, 64⟩],
  [⟨63, 0, .RO, 0, .any⟩]⟩
def OFL_CTR : RegDesc := ⟨.bar2, .unnamed, true, [⟨0x5000100, 0x10000, 4, 8, 10, 0, 64⟩],
  [⟨63, 0, .RO, 0, .any⟩]⟩
def MACSEC_CTR : RegDesc := ⟨.bar2, .unnamed, true, [⟨0x500A000, 0x100, 16, 8, 12, 0, 64⟩],
  [⟨63, 0, .RO, 0, .any⟩]⟩
def TM_CTR : RegDesc := ⟨.bar2, .unnamed, true, [⟨0x6008000, 0x1000, 2, 8, 14, 0, 64⟩],
  [⟨63, 0, .RO, 0, .any⟩]⟩
def REL_CTR : RegDesc := ⟨.bar2, .unnamed, true, [⟨0x7002000, 0, 1, 8, 8, 0, 64⟩],
  [⟨63, 0, .RO, 0, .any⟩]⟩
def STAMPS_LOST : RegDesc := ⟨.bar2, .unnamed, true, [⟨0x7002100, 0, 1, 8, 16, 0, 0⟩],
  [⟨63, 0, .RO, 0, .any⟩]⟩
def JNL_CTR : RegDesc := ⟨.bar2, .unnamed, true, [⟨0x7008100, 0, 1, 8, 3, 0, 64⟩],
  [⟨63, 0, .RO, 0, .any⟩]⟩
def FRER_CTX_CTR : RegDesc := ⟨.bar2, .unnamed, true, [⟨0x8040000, 0x40, 2048, 8, 8, 0, 64⟩],
  [⟨63, 0, .RO, 0, .any⟩]⟩
def FRER_CTR : RegDesc := ⟨.bar2, .unnamed, true, [⟨0x8000100, 0, 1, 8, 4, 0, 64⟩],
  [⟨63, 0, .RO, 0, .any⟩]⟩
def FRER_RX_FRAMES : RegDesc := ⟨.bar2, .unnamed, true, [⟨0x8020000, 0, 1, 0x10, 4096, 0, 0⟩],
  [⟨63, 0, .RO, 0, .any⟩]⟩
def FRER_LAST_SEEN : RegDesc := ⟨.bar2, .unnamed, true, [⟨0x8020008, 0, 1, 0x10, 4096, 0, 0⟩],
  [⟨63, 0, .RO, 0, .any⟩]⟩
def HIF_CTR : RegDesc := ⟨.bar2, .unnamed, true, [⟨0x9000800, 0x10000, 2, 8, 12, 0, 64⟩],
  [⟨63, 0, .RO, 0, .any⟩]⟩
def QM_CTR : RegDesc := ⟨.bar2, .unnamed, true, [⟨0xA000000, 0x1000, 2, 8, 10, 0, 64⟩],
  [⟨63, 0, .RO, 0, .any⟩]⟩
def CPY_CTR : RegDesc := ⟨.bar2, .unnamed, true, [⟨0xB000100, 0x1000, 16, 8, 4, 0, 64⟩],
  [⟨63, 0, .RO, 0, .any⟩]⟩
def HBM_CTR : RegDesc := ⟨.bar2, .unnamed, true, [⟨0xC008000, 0x100, 2, 8, 8, 0, 64⟩],
  [⟨63, 0, .RO, 0, .any⟩]⟩
def TBL_L2_RD_DATA : RegDesc := ⟨.bar2, .unnamed, false, [⟨0x3043010, 0, 1, 4, 4, 0, 0⟩],
  [⟨31, 0, .RO, 0, .any⟩]⟩
def TM_NODE_DATA : RegDesc := ⟨.bar2, .manager, false, [⟨0x6000010, 0, 1, 4, 8, 0, 0⟩],
  [⟨31, 0, .RW, 0, .any⟩]⟩
def TM_NODE_STAT : RegDesc := ⟨.bar2, .unnamed, false, [⟨0x6000030, 0, 1, 4, 4, 0, 0⟩],
  [⟨31, 0, .RO, 0, .any⟩]⟩
def GCL_ADMIN_ENTRY : RegDesc := ⟨.bar2, .manager, true, [⟨0x6801000, 0x10000, 16, 8, 1024, 0, 1024⟩],
  [⟨63, 0, .RW, 0, .any⟩]⟩
def GCL_OPER_ENTRY : RegDesc := ⟨.bar2, .firmware, true, [⟨0x6803000, 0x10000, 16, 8, 1024, 0, 1024⟩],
  [⟨63, 0, .RO, 0, .any⟩]⟩
def GCL_OPER_CTRL : RegDesc := ⟨.bar2, .firmware, false, [⟨0x6800020, 0x10000, 16, 0, 1, 0, 1⟩],
  [⟨31, 31, .RO, 0, .any⟩, ⟨10, 0, .RO, 1, .any⟩]⟩
def GCL_OPER_CYCLE : RegDesc := ⟨.bar2, .firmware, false, [⟨0x6800024, 0x10000, 16, 0, 1, 0, 1⟩],
  [⟨31, 0, .RO, 0xF4240, .any⟩]⟩
def GCL_OPER_BASE_SEC : RegDesc := ⟨.bar2, .firmware, true, [⟨0x6800028, 0x10000, 16, 0, 1, 0, 1⟩],
  [⟨47, 0, .RO, 0, .any⟩]⟩
def GCL_OPER_BASE_NS : RegDesc := ⟨.bar2, .firmware, false, [⟨0x6800030, 0x10000, 16, 0, 1, 0, 1⟩],
  [⟨29, 0, .RO, 0, .any⟩]⟩
def REL_CAPACITY : RegDesc := ⟨.bar2, .unnamed, true, [⟨0x7000008, 0, 1, 0, 1, 0, 0⟩],
  [⟨63, 0, .RO, 0, .any⟩]⟩
def REL_ADMITTED : RegDesc := ⟨.bar2, .unnamed, true, [⟨0x7000010, 0, 1, 0, 1, 0, 0⟩],
  [⟨63, 0, .RO, 0, .any⟩]⟩
def REL_HELD : RegDesc := ⟨.bar2, .unnamed, true, [⟨0x7000018, 0, 1, 0, 1, 0, 0⟩],
  [⟨63, 0, .RO, 0, .any⟩]⟩
def REL_SPILLED : RegDesc := ⟨.bar2, .unnamed, true, [⟨0x7000020, 0, 1, 0, 1, 0, 0⟩],
  [⟨63, 0, .RO, 0, .any⟩]⟩
def JNL_HEAD_RSEQ : RegDesc := ⟨.bar2, .unnamed, true, [⟨0x7008020, 0, 1, 0, 1, 0, 0⟩],
  [⟨47, 0, .RO, 0, .any⟩]⟩
def JNL_CHAIN_ID : RegDesc := ⟨.bar2, .unnamed, true, [⟨0x7008028, 0, 1, 0, 1, 0, 0⟩],
  [⟨63, 0, .RO, 0, .any⟩]⟩
def FRER_MM_HEAD : RegDesc := ⟨.bar2, .unnamed, false, [⟨0x8000020, 0, 1, 4, 8, 0, 0⟩],
  [⟨31, 0, .RO, 0, .any⟩]⟩
def MIR_LAST_RX : RegDesc := ⟨.bar2, .unnamed, true, [⟨0x8080008, 0, 1, 0, 1, 0, 0⟩],
  [⟨63, 0, .RO, 0, .any⟩]⟩
def MIR_GAP : RegDesc := ⟨.bar2, .unnamed, true, [⟨0x8080010, 0, 1, 0, 1, 0, 0⟩],
  [⟨63, 0, .RO, 0, .any⟩]⟩
def EVT_PEND : RegDesc := ⟨.bar0, .unnamed, false, [⟨0x2000, 0, 1, 4, 18, 0, 0⟩],
  [⟨31, 0, .W1C, 0, .any⟩]⟩
def EVT_FN_VEC : RegDesc := ⟨.bar0, .unnamed, false, [⟨0x2104, 0, 1, 0, 1, 0, 0⟩],
  [⟨10, 0, .RW, 0, .any⟩]⟩
def MBX_DATA : RegDesc := ⟨.bar0, .unnamed, false, [⟨0x100, 0, 1, 4, 64, 0, 0⟩],
  [⟨31, 0, .RW, 0, .any⟩]⟩
def CPY_CH_CUR : RegDesc := ⟨.bar2, .manager, true, [⟨0xB100020, 0x40, 1024, 0, 1, 0, 1⟩],
  [⟨63, 5, .RO, 0, .any⟩, ⟨0, 0, .RO, 0, .any⟩]⟩
def CPY_CH_PROGRESS : RegDesc := ⟨.bar2, .manager, false, [⟨0xB100028, 0x40, 1024, 0, 1, 0, 1⟩],
  [⟨24, 0, .RO, 0, .any⟩]⟩
def CPY_UNIT_CTRL : RegDesc := ⟨.bar2, .firmware, false, [⟨0xB000000, 0, 1, 0x1000, 16, 0, 0⟩],
  [⟨31, 31, .RO, 0, .any⟩, ⟨30, 30, .RO, 0, .any⟩]⟩
def CPY_WIN : RegDesc := ⟨.bar2, .unnamed, false, [⟨0xB000FF0, 0, 1, 0, 1, 0, 0⟩],
  [⟨13, 0, .RO, 0, .any⟩]⟩
def GLB_FENCE_HEAD : RegDesc := ⟨.bar2, .unnamed, false, [⟨0x340, 0, 1, 4, 4, 0, 0⟩],
  [⟨31, 0, .RO, 0, .any⟩]⟩
def PWR_TEMP : RegDesc := ⟨.bar2, .unnamed, false, [⟨0xE000100, 0, 1, 4, 32, 0, 0⟩],
  [⟨31, 31, .RO, 0, .any⟩, ⟨30, 30, .RO, 0, .any⟩, ⟨15, 0, .RO, 0, .any⟩]⟩
end D

/-- What the spec's table says of each register. -/
def Reg.desc : Reg → RegDesc
  | .GLB_CREDIT_WDOG => D.GLB_CREDIT_WDOG
  | .GLB_EPOCH_STATUS => D.GLB_EPOCH_STATUS
  | .GLB_EPOCH_COMMIT_TIME => D.GLB_EPOCH_COMMIT_TIME
  | .TSU_FREQ_OFFSET => D.TSU_FREQ_OFFSET
  | .TSU_INCR => D.TSU_INCR
  | .TSU_STEP => D.TSU_STEP
  | .TSU_STEP_AT => D.TSU_STEP_AT
  | .TSU_STEP_CTRL => D.TSU_STEP_CTRL
  | .TSU_SLEW_SET => D.TSU_SLEW_SET
  | .TSU_SLEW_LEFT => D.TSU_SLEW_LEFT
  | .TSU_SLEW_RATE => D.TSU_SLEW_RATE
  | .TSU_TIME_NSF => D.TSU_TIME_NSF
  | .TSU_TIME_SEC => D.TSU_TIME_SEC
  | .TSU_TIME_SHORT => D.TSU_TIME_SHORT
  | .TSU_STATUS => D.TSU_STATUS
  | .TSU_LANE_SKEW => D.TSU_LANE_SKEW
  | .TSU_BOARD_DLY => D.TSU_BOARD_DLY
  | .TSU_REF => D.TSU_REF
  | .TSU_PPS_OUT => D.TSU_PPS_OUT
  | .TSU_PPS_OUT_OFS => D.TSU_PPS_OUT_OFS
  | .TSU_PPS_IN => D.TSU_PPS_IN
  | .OVN_CTRL => D.OVN_CTRL
  | .OVN_SETPOINT => D.OVN_SETPOINT
  | .OVN_GAIN => D.OVN_GAIN
  | .OVN_BANDS => D.OVN_BANDS
  | .OVN_LIMITS => D.OVN_LIMITS
  | .OVN_SENSE_LIMITS => D.OVN_SENSE_LIMITS
  | .OVN_STATUS => D.OVN_STATUS
  | .OVN_SENSE => D.OVN_SENSE
  | .OVN_EFC => D.OVN_EFC
  | .PRT_MODE => D.PRT_MODE
  | .PRT_GROUP_APPLY => D.PRT_GROUP_APPLY
  | .PRT_STATUS => D.PRT_STATUS
  | .PRT_DESKEW => D.PRT_DESKEW
  | .PRT_CTRL => D.PRT_CTRL
  | .PRT_MAC_CFG => D.PRT_MAC_CFG
  | .PRT_MAC_ADDR => D.PRT_MAC_ADDR
  | .PRT_FC_CFG => D.PRT_FC_CFG
  | .PRT_FC_QUANTA => D.PRT_FC_QUANTA
  | .PRT_FC_THRESH => D.PRT_FC_THRESH
  | .PRT_PFC_MAP => D.PRT_PFC_MAP
  | .PRT_PREEMPT => D.PRT_PREEMPT
  | .GLB_COUNTER_OWNER => D.GLB_COUNTER_OWNER
  | .PRT_MGMT_CFG => D.PRT_MGMT_CFG
  | .GRD_START => D.GRD_START
  | .TBL_L2_PORT => D.TBL_L2_PORT
  | .TBL_L2_COUNT => D.TBL_L2_COUNT
  | .TBL_L2_CFG => D.TBL_L2_CFG
  | .TBL_L2_RD_CMD => D.TBL_L2_RD_CMD
  | .TBL_FLOW_CFG => D.TBL_FLOW_CFG
  | .TBL_FLOW_USED => D.TBL_FLOW_USED
  | .TBL_LPM_ROOT => D.TBL_LPM_ROOT
  | .TBL_LPM_COUNT => D.TBL_LPM_COUNT
  | .BRW_ENGINE_MAP => D.BRW_ENGINE_MAP
  | .BRW_RUN_LIMIT => D.BRW_RUN_LIMIT
  | .BRW_SUP_TIMEOUT => D.BRW_SUP_TIMEOUT
  | .BRW_CTRL => D.BRW_CTRL
  | .BRW_THREAD_STATE => D.BRW_THREAD_STATE
  | .BRW_BP => D.BRW_BP
  | .BRW_BP_THREADS => D.BRW_BP_THREADS
  | .BRW_DBG_CTL => D.BRW_DBG_CTL
  | .CS_BANK_MAP => D.CS_BANK_MAP
  | .CS_BANK_STATE => D.CS_BANK_STATE
  | .CS_IMAGE_ID => D.CS_IMAGE_ID
  | .CS_ENTRY => D.CS_ENTRY
  | .CS_ROM_ID => D.CS_ROM_ID
  | .CS_REGION => D.CS_REGION
  | .CS_MEAS => D.CS_MEAS
  | .CS_PMEAS => D.CS_PMEAS
  | .CS_MATCH => D.CS_MATCH
  | .OFL_ENTROPY => D.OFL_ENTROPY
  | .OFL_ENTROPY_SEED => D.OFL_ENTROPY_SEED
  | .OFL_TUNNEL_CFG => D.OFL_TUNNEL_CFG
  | .OFL_MACSEC_PORT => D.OFL_MACSEC_PORT
  | .OFL_MACSEC_WINDOW => D.OFL_MACSEC_WINDOW
  | .OFL_GROUP_CTRL => D.OFL_GROUP_CTRL
  | .OFL_USED => D.OFL_USED
  | .TM_NODE_CMD => D.TM_NODE_CMD
  | .GCL_ADMIN_CTRL => D.GCL_ADMIN_CTRL
  | .GCL_ADMIN_CYCLE => D.GCL_ADMIN_CYCLE
  | .GCL_ADMIN_BASE_SEC => D.GCL_ADMIN_BASE_SEC
  | .GCL_ADMIN_BASE_NS => D.GCL_ADMIN_BASE_NS
  | .GCL_STATUS => D.GCL_STATUS
  | .GCL_CHANGE_TIME => D.GCL_CHANGE_TIME
  | .TM_OBS_CFG => D.TM_OBS_CFG
  | .TM_OBS_QUEUES => D.TM_OBS_QUEUES
  | .REL_DEVICE => D.REL_DEVICE
  | .REL_CFG => D.REL_CFG
  | .JNL_BASE => D.JNL_BASE
  | .JNL_CTRL => D.JNL_CTRL
  | .JNL_CONS => D.JNL_CONS
  | .JNL_PROD => D.JNL_PROD
  | .JNL_STATUS => D.JNL_STATUS
  | .REL_GROUP_STATUS => D.REL_GROUP_STATUS
  | .FRER_MM_POP => D.FRER_MM_POP
  | .MIR_CTRL => D.MIR_CTRL
  | .EVT_FN => D.EVT_FN
  | .EVT_ROUTE => D.EVT_ROUTE
  | .ATS_FN_LIMIT => D.ATS_FN_LIMIT
  | .HIF_CPL_TIMEOUT => D.HIF_CPL_TIMEOUT
  | .HIF_PRI_TIMEOUT => D.HIF_PRI_TIMEOUT
  | .MBX_CMD => D.MBX_CMD
  | .MBX_ACK => D.MBX_ACK
  | .MBX_STATUS => D.MBX_STATUS
  | .MBX_TIMEOUT => D.MBX_TIMEOUT
  | .DB_TO_FW => D.DB_TO_FW
  | .DB_FROM_FW => D.DB_FROM_FW
  | .DB_FROM_FW_MASK => D.DB_FROM_FW_MASK
  | .HIF_FN_STATE => D.HIF_FN_STATE
  | .HIF_MIG_BASE => D.HIF_MIG_BASE
  | .HIF_MIG_CTRL => D.HIF_MIG_CTRL
  | .HIF_MIG_PROD => D.HIF_MIG_PROD
  | .HIF_MIG_CONS => D.HIF_MIG_CONS
  | .CPY_CH_CFG => D.CPY_CH_CFG
  | .CPY_CH_LIMITS => D.CPY_CH_LIMITS
  | .CPY_CH_HEAD => D.CPY_CH_HEAD
  | .CPY_CH_CTRL => D.CPY_CH_CTRL
  | .CPY_CH_STATUS => D.CPY_CH_STATUS
  | .HBM_REGION => D.HBM_REGION
  | .HBM_PAGE_CFG => D.HBM_PAGE_CFG
  | .HBM_PC_STATUS => D.HBM_PC_STATUS
  | .HBM_STACK_STATUS => D.HBM_STACK_STATUS
  | .GLB_ERR_COUNT => D.GLB_ERR_COUNT
  | .GLB_FENCE_POP => D.GLB_FENCE_POP
  | .GLB_FATAL_CAUSE => D.GLB_FATAL_CAUSE
  | .GLB_FATAL_TIME => D.GLB_FATAL_TIME
  | .SVC_ID_PART => D.SVC_ID_PART
  | .SVC_ID_VENDOR => D.SVC_ID_VENDOR
  | .SVC_ID_LOT => D.SVC_ID_LOT
  | .SVC_ID_POS => D.SVC_ID_POS
  | .SVC_ID_CERT => D.SVC_ID_CERT
  | .SVC_ID_STATUS => D.SVC_ID_STATUS
  | .PWR_DOMAIN => D.PWR_DOMAIN
  | .PWR_STATUS => D.PWR_STATUS
  | .PWR_CFG => D.PWR_CFG
  | .PWR_THERM_CFG => D.PWR_THERM_CFG
  | .PWR_VIN => D.PWR_VIN
  | .PWR_LAST => D.PWR_LAST
  | .GLB_RESET => D.GLB_RESET
  | .GLB_RESET_CAUSE => D.GLB_RESET_CAUSE
  | .PRT_CTR => D.PRT_CTR
  | .PRT_TOTAL => D.PRT_TOTAL
  | .GRD_CTR => D.GRD_CTR
  | .L2_CTR => D.L2_CTR
  | .BRW_CTR => D.BRW_CTR
  | .PIPE_CTR => D.PIPE_CTR
  | .CS_CTR => D.CS_CTR
  | .OFL_CTR => D.OFL_CTR
  | .MACSEC_CTR => D.MACSEC_CTR
  | .TM_CTR => D.TM_CTR
  | .REL_CTR => D.REL_CTR
  | .STAMPS_LOST => D.STAMPS_LOST
  | .JNL_CTR => D.JNL_CTR
  | .FRER_CTX_CTR => D.FRER_CTX_CTR
  | .FRER_CTR => D.FRER_CTR
  | .FRER_RX_FRAMES => D.FRER_RX_FRAMES
  | .FRER_LAST_SEEN => D.FRER_LAST_SEEN
  | .HIF_CTR => D.HIF_CTR
  | .QM_CTR => D.QM_CTR
  | .CPY_CTR => D.CPY_CTR
  | .HBM_CTR => D.HBM_CTR
  | .TBL_L2_RD_DATA => D.TBL_L2_RD_DATA
  | .TM_NODE_DATA => D.TM_NODE_DATA
  | .TM_NODE_STAT => D.TM_NODE_STAT
  | .GCL_ADMIN_ENTRY => D.GCL_ADMIN_ENTRY
  | .GCL_OPER_ENTRY => D.GCL_OPER_ENTRY
  | .GCL_OPER_CTRL => D.GCL_OPER_CTRL
  | .GCL_OPER_CYCLE => D.GCL_OPER_CYCLE
  | .GCL_OPER_BASE_SEC => D.GCL_OPER_BASE_SEC
  | .GCL_OPER_BASE_NS => D.GCL_OPER_BASE_NS
  | .REL_CAPACITY => D.REL_CAPACITY
  | .REL_ADMITTED => D.REL_ADMITTED
  | .REL_HELD => D.REL_HELD
  | .REL_SPILLED => D.REL_SPILLED
  | .JNL_HEAD_RSEQ => D.JNL_HEAD_RSEQ
  | .JNL_CHAIN_ID => D.JNL_CHAIN_ID
  | .FRER_MM_HEAD => D.FRER_MM_HEAD
  | .MIR_LAST_RX => D.MIR_LAST_RX
  | .MIR_GAP => D.MIR_GAP
  | .EVT_PEND => D.EVT_PEND
  | .EVT_FN_VEC => D.EVT_FN_VEC
  | .MBX_DATA => D.MBX_DATA
  | .CPY_CH_CUR => D.CPY_CH_CUR
  | .CPY_CH_PROGRESS => D.CPY_CH_PROGRESS
  | .CPY_UNIT_CTRL => D.CPY_UNIT_CTRL
  | .CPY_WIN => D.CPY_WIN
  | .GLB_FENCE_HEAD => D.GLB_FENCE_HEAD
  | .PWR_TEMP => D.PWR_TEMP

/-- A named field of a register. -/
structure Fld where
  reg : Reg
  hi : Nat
  lo : Nat
deriving DecidableEq, Repr, Inhabited

namespace F
abbrev GLB_CREDIT_WDOG_EN : Fld := ⟨.GLB_CREDIT_WDOG, 31, 31⟩
abbrev GLB_CREDIT_WDOG_LIMIT_US : Fld := ⟨.GLB_CREDIT_WDOG, 19, 0⟩
abbrev GLB_EPOCH_STATUS_DRAINING : Fld := ⟨.GLB_EPOCH_STATUS, 31, 31⟩
abbrev GLB_EPOCH_STATUS_ARMED : Fld := ⟨.GLB_EPOCH_STATUS, 30, 30⟩
abbrev GLB_EPOCH_STATUS_STAGED : Fld := ⟨.GLB_EPOCH_STATUS, 29, 29⟩
abbrev GLB_EPOCH_STATUS_STAGING : Fld := ⟨.GLB_EPOCH_STATUS, 28, 28⟩
abbrev GLB_EPOCH_STATUS_CHANGE_COUNT : Fld := ⟨.GLB_EPOCH_STATUS, 23, 16⟩
abbrev GLB_EPOCH_STATUS_CURRENT : Fld := ⟨.GLB_EPOCH_STATUS, 8, 8⟩
abbrev GLB_EPOCH_STATUS_KIND : Fld := ⟨.GLB_EPOCH_STATUS, 4, 0⟩
abbrev GLB_EPOCH_COMMIT_TIME_INSTANT : Fld := ⟨.GLB_EPOCH_COMMIT_TIME, 63, 0⟩
abbrev TSU_FREQ_OFFSET_OFFSET : Fld := ⟨.TSU_FREQ_OFFSET, 63, 0⟩
abbrev TSU_INCR_INT : Fld := ⟨.TSU_INCR, 49, 48⟩
abbrev TSU_INCR_FRAC : Fld := ⟨.TSU_INCR, 47, 0⟩
abbrev TSU_STEP_AMOUNT : Fld := ⟨.TSU_STEP, 63, 0⟩
abbrev TSU_STEP_AT_SECOND : Fld := ⟨.TSU_STEP_AT, 47, 0⟩
abbrev TSU_STEP_CTRL_ARM : Fld := ⟨.TSU_STEP_CTRL, 31, 31⟩
abbrev TSU_STEP_CTRL_ABS : Fld := ⟨.TSU_STEP_CTRL, 30, 30⟩
abbrev TSU_STEP_CTRL_CANCEL : Fld := ⟨.TSU_STEP_CTRL, 29, 29⟩
abbrev TSU_STEP_CTRL_RESULT : Fld := ⟨.TSU_STEP_CTRL, 17, 16⟩
abbrev TSU_SLEW_SET_AMOUNT : Fld := ⟨.TSU_SLEW_SET, 63, 0⟩
abbrev TSU_SLEW_LEFT_REMAINING : Fld := ⟨.TSU_SLEW_LEFT, 63, 0⟩
abbrev TSU_SLEW_RATE_RATE_NS : Fld := ⟨.TSU_SLEW_RATE, 16, 0⟩
abbrev TSU_TIME_NSF_NS : Fld := ⟨.TSU_TIME_NSF, 47, 16⟩
abbrev TSU_TIME_NSF_FRAC : Fld := ⟨.TSU_TIME_NSF, 15, 0⟩
abbrev TSU_TIME_SEC_SEC : Fld := ⟨.TSU_TIME_SEC, 47, 0⟩
abbrev TSU_TIME_SHORT_STAMP : Fld := ⟨.TSU_TIME_SHORT, 63, 0⟩
abbrev TSU_STATUS_HOLD_STATE : Fld := ⟨.TSU_STATUS, 31, 30⟩
abbrev TSU_STATUS_PLL_LOCKED : Fld := ⟨.TSU_STATUS, 29, 29⟩
abbrev TSU_STATUS_REF_PRESENT : Fld := ⟨.TSU_STATUS, 28, 28⟩
abbrev TSU_STATUS_REF_ACTIVE : Fld := ⟨.TSU_STATUS, 27, 26⟩
abbrev TSU_STATUS_SLEWING : Fld := ⟨.TSU_STATUS, 25, 25⟩
abbrev TSU_STATUS_STEP_ARMED : Fld := ⟨.TSU_STATUS, 24, 24⟩
abbrev TSU_LANE_SKEW_TX_PS : Fld := ⟨.TSU_LANE_SKEW, 31, 16⟩
abbrev TSU_LANE_SKEW_RX_PS : Fld := ⟨.TSU_LANE_SKEW, 15, 0⟩
abbrev TSU_BOARD_DLY_TX_PS : Fld := ⟨.TSU_BOARD_DLY, 31, 16⟩
abbrev TSU_BOARD_DLY_RX_PS : Fld := ⟨.TSU_BOARD_DLY, 15, 0⟩
abbrev TSU_REF_SEL : Fld := ⟨.TSU_REF, 1, 0⟩
abbrev TSU_PPS_OUT_PPS_EN : Fld := ⟨.TSU_PPS_OUT, 31, 31⟩
abbrev TSU_PPS_OUT_CLK10M_EN : Fld := ⟨.TSU_PPS_OUT, 30, 30⟩
abbrev TSU_PPS_OUT_WIDTH_US : Fld := ⟨.TSU_PPS_OUT, 18, 0⟩
abbrev TSU_PPS_OUT_OFS_OFS_NS : Fld := ⟨.TSU_PPS_OUT_OFS, 31, 0⟩
abbrev TSU_PPS_IN_STAMP : Fld := ⟨.TSU_PPS_IN, 63, 0⟩
abbrev OVN_CTRL_EN : Fld := ⟨.OVN_CTRL, 31, 31⟩
abbrev OVN_CTRL_HOLD : Fld := ⟨.OVN_CTRL, 30, 30⟩
abbrev OVN_CTRL_POLARITY : Fld := ⟨.OVN_CTRL, 29, 29⟩
abbrev OVN_SETPOINT_CODE : Fld := ⟨.OVN_SETPOINT, 15, 0⟩
abbrev OVN_GAIN_KP : Fld := ⟨.OVN_GAIN, 31, 16⟩
abbrev OVN_GAIN_KI : Fld := ⟨.OVN_GAIN, 15, 0⟩
abbrev OVN_BANDS_WARM_BAND : Fld := ⟨.OVN_BANDS, 31, 16⟩
abbrev OVN_BANDS_LOCK_BAND : Fld := ⟨.OVN_BANDS, 15, 0⟩
abbrev OVN_LIMITS_DUTY_MAX : Fld := ⟨.OVN_LIMITS, 31, 20⟩
abbrev OVN_LIMITS_SETTLE_S : Fld := ⟨.OVN_LIMITS, 19, 10⟩
abbrev OVN_LIMITS_WARM_TIMEOUT_MIN : Fld := ⟨.OVN_LIMITS, 9, 0⟩
abbrev OVN_SENSE_LIMITS_SENSE_MAX : Fld := ⟨.OVN_SENSE_LIMITS, 31, 16⟩
abbrev OVN_SENSE_LIMITS_SENSE_MIN : Fld := ⟨.OVN_SENSE_LIMITS, 15, 0⟩
abbrev OVN_STATUS_STATE : Fld := ⟨.OVN_STATUS, 31, 28⟩
abbrev OVN_STATUS_OT_LATCH : Fld := ⟨.OVN_STATUS, 27, 27⟩
abbrev OVN_STATUS_OT_NOW : Fld := ⟨.OVN_STATUS, 26, 26⟩
abbrev OVN_STATUS_FAULT_CAUSE : Fld := ⟨.OVN_STATUS, 25, 24⟩
abbrev OVN_STATUS_DUTY : Fld := ⟨.OVN_STATUS, 23, 12⟩
abbrev OVN_SENSE_CODE : Fld := ⟨.OVN_SENSE, 15, 0⟩
abbrev OVN_EFC_CODE : Fld := ⟨.OVN_EFC, 19, 0⟩
abbrev PRT_MODE_EN : Fld := ⟨.PRT_MODE, 31, 31⟩
abbrev PRT_MODE_AN : Fld := ⟨.PRT_MODE, 30, 30⟩
abbrev PRT_MODE_TRAIN : Fld := ⟨.PRT_MODE, 29, 29⟩
abbrev PRT_MODE_MODE : Fld := ⟨.PRT_MODE, 26, 24⟩
abbrev PRT_GROUP_APPLY_GO : Fld := ⟨.PRT_GROUP_APPLY, 31, 31⟩
abbrev PRT_GROUP_APPLY_RESULT : Fld := ⟨.PRT_GROUP_APPLY, 17, 16⟩
abbrev PRT_GROUP_APPLY_FAIL_LANE : Fld := ⟨.PRT_GROUP_APPLY, 11, 8⟩
abbrev PRT_STATUS_LINK_UP : Fld := ⟨.PRT_STATUS, 31, 31⟩
abbrev PRT_STATUS_AM_LOCK : Fld := ⟨.PRT_STATUS, 30, 30⟩
abbrev PRT_STATUS_LOCAL_FAULT : Fld := ⟨.PRT_STATUS, 29, 29⟩
abbrev PRT_STATUS_REMOTE_FAULT : Fld := ⟨.PRT_STATUS, 28, 28⟩
abbrev PRT_STATUS_CAL_VALID : Fld := ⟨.PRT_STATUS, 27, 27⟩
abbrev PRT_STATUS_PAUSED : Fld := ⟨.PRT_STATUS, 26, 26⟩
abbrev PRT_STATUS_PFC_PAUSED : Fld := ⟨.PRT_STATUS, 25, 18⟩
abbrev PRT_STATUS_STORM : Fld := ⟨.PRT_STATUS, 17, 17⟩
abbrev PRT_STATUS_PREEMPT_ACTIVE : Fld := ⟨.PRT_STATUS, 16, 16⟩
abbrev PRT_STATUS_ACTIVE_MODE : Fld := ⟨.PRT_STATUS, 15, 13⟩
abbrev PRT_STATUS_ACTIVE_EN : Fld := ⟨.PRT_STATUS, 12, 12⟩
abbrev PRT_DESKEW_MAX_SKEW_PS : Fld := ⟨.PRT_DESKEW, 31, 16⟩
abbrev PRT_DESKEW_REF_WAIT_PS : Fld := ⟨.PRT_DESKEW, 15, 0⟩
abbrev PRT_CTRL_RESET : Fld := ⟨.PRT_CTRL, 31, 31⟩
abbrev PRT_CTRL_LOOPBACK : Fld := ⟨.PRT_CTRL, 30, 29⟩
abbrev PRT_CTRL_TX_DISABLE : Fld := ⟨.PRT_CTRL, 28, 28⟩
abbrev PRT_CTRL_STORM_CLEAR : Fld := ⟨.PRT_CTRL, 27, 27⟩
abbrev PRT_MAC_CFG_MAX_FRAME : Fld := ⟨.PRT_MAC_CFG, 29, 16⟩
abbrev PRT_MAC_CFG_CUT_THROUGH : Fld := ⟨.PRT_MAC_CFG, 15, 15⟩
abbrev PRT_MAC_ADDR_ADDR : Fld := ⟨.PRT_MAC_ADDR, 47, 0⟩
abbrev PRT_FC_CFG_MODE : Fld := ⟨.PRT_FC_CFG, 31, 30⟩
abbrev PRT_FC_CFG_RX_EN : Fld := ⟨.PRT_FC_CFG, 29, 29⟩
abbrev PRT_FC_CFG_TX_EN : Fld := ⟨.PRT_FC_CFG, 28, 28⟩
abbrev PRT_FC_CFG_PFC_TX_CLASSES : Fld := ⟨.PRT_FC_CFG, 27, 20⟩
abbrev PRT_FC_CFG_PFC_RX_CLASSES : Fld := ⟨.PRT_FC_CFG, 19, 12⟩
abbrev PRT_FC_CFG_STORM_ACTION : Fld := ⟨.PRT_FC_CFG, 11, 10⟩
abbrev PRT_FC_CFG_STORM_MS : Fld := ⟨.PRT_FC_CFG, 9, 0⟩
abbrev PRT_FC_QUANTA_REFRESH : Fld := ⟨.PRT_FC_QUANTA, 31, 16⟩
abbrev PRT_FC_QUANTA_QUANTA : Fld := ⟨.PRT_FC_QUANTA, 15, 0⟩
abbrev PRT_FC_THRESH_XOFF_KIB : Fld := ⟨.PRT_FC_THRESH, 31, 16⟩
abbrev PRT_FC_THRESH_XON_KIB : Fld := ⟨.PRT_FC_THRESH, 15, 0⟩
abbrev PRT_PFC_MAP_UNTAGGED_TC : Fld := ⟨.PRT_PFC_MAP, 26, 24⟩
abbrev PRT_PFC_MAP_TC_OF_PCP : Fld := ⟨.PRT_PFC_MAP, 23, 0⟩
abbrev PRT_PREEMPT_EN : Fld := ⟨.PRT_PREEMPT, 31, 31⟩
abbrev PRT_PREEMPT_VERIFY_DIS : Fld := ⟨.PRT_PREEMPT, 30, 30⟩
abbrev PRT_PREEMPT_ADD_FRAG : Fld := ⟨.PRT_PREEMPT, 29, 28⟩
abbrev PRT_PREEMPT_EXPRESS : Fld := ⟨.PRT_PREEMPT, 27, 20⟩
abbrev PRT_PREEMPT_VERIFY_MS : Fld := ⟨.PRT_PREEMPT, 19, 12⟩
abbrev PRT_PREEMPT_VERIFY_STATUS : Fld := ⟨.PRT_PREEMPT, 11, 10⟩
abbrev GLB_COUNTER_OWNER_OWNER : Fld := ⟨.GLB_COUNTER_OWNER, 0, 0⟩
abbrev PRT_MGMT_CFG_EN : Fld := ⟨.PRT_MGMT_CFG, 31, 31⟩
abbrev PRT_MGMT_CFG_SGMII : Fld := ⟨.PRT_MGMT_CFG, 30, 30⟩
abbrev PRT_MGMT_CFG_AN_EN : Fld := ⟨.PRT_MGMT_CFG, 29, 29⟩
abbrev PRT_MGMT_CFG_NCSI_EN : Fld := ⟨.PRT_MGMT_CFG, 28, 28⟩
abbrev PRT_MGMT_CFG_LINK_UP : Fld := ⟨.PRT_MGMT_CFG, 27, 27⟩
abbrev PRT_MGMT_CFG_SPEED : Fld := ⟨.PRT_MGMT_CFG, 26, 25⟩
abbrev GRD_START_TX_START : Fld := ⟨.GRD_START, 15, 8⟩
abbrev GRD_START_RX_START : Fld := ⟨.GRD_START, 7, 0⟩
abbrev TBL_L2_PORT_LEARN_EN : Fld := ⟨.TBL_L2_PORT, 31, 31⟩
abbrev TBL_L2_PORT_EXCESS : Fld := ⟨.TBL_L2_PORT, 30, 30⟩
abbrev TBL_L2_PORT_LIMIT : Fld := ⟨.TBL_L2_PORT, 19, 0⟩
abbrev TBL_L2_COUNT_LEARNED : Fld := ⟨.TBL_L2_COUNT, 19, 0⟩
abbrev TBL_L2_CFG_AGE_EN : Fld := ⟨.TBL_L2_CFG, 31, 31⟩
abbrev TBL_L2_CFG_AGE_S : Fld := ⟨.TBL_L2_CFG, 19, 0⟩
abbrev TBL_L2_RD_CMD_GO : Fld := ⟨.TBL_L2_RD_CMD, 31, 31⟩
abbrev TBL_L2_RD_CMD_PIPE : Fld := ⟨.TBL_L2_RD_CMD, 29, 28⟩
abbrev TBL_L2_RD_CMD_INDEX : Fld := ⟨.TBL_L2_RD_CMD, 18, 0⟩
abbrev TBL_FLOW_CFG_AGE_EN : Fld := ⟨.TBL_FLOW_CFG, 31, 31⟩
abbrev TBL_FLOW_CFG_AGE_S : Fld := ⟨.TBL_FLOW_CFG, 19, 0⟩
abbrev TBL_FLOW_USED_ENTRIES : Fld := ⟨.TBL_FLOW_USED, 25, 0⟩
abbrev TBL_LPM_ROOT_ROOT6 : Fld := ⟨.TBL_LPM_ROOT, 59, 32⟩
abbrev TBL_LPM_ROOT_ROOT4 : Fld := ⟨.TBL_LPM_ROOT, 27, 0⟩
abbrev TBL_LPM_COUNT_PREFIX6 : Fld := ⟨.TBL_LPM_COUNT, 63, 32⟩
abbrev TBL_LPM_COUNT_PREFIX4 : Fld := ⟨.TBL_LPM_COUNT, 31, 0⟩
abbrev BRW_ENGINE_MAP_PHYS : Fld := ⟨.BRW_ENGINE_MAP, 31, 0⟩
abbrev BRW_RUN_LIMIT_CYCLES : Fld := ⟨.BRW_RUN_LIMIT, 23, 0⟩
abbrev BRW_SUP_TIMEOUT_US : Fld := ⟨.BRW_SUP_TIMEOUT, 15, 0⟩
abbrev BRW_CTRL_EN : Fld := ⟨.BRW_CTRL, 31, 31⟩
abbrev BRW_CTRL_FENCED : Fld := ⟨.BRW_CTRL, 30, 30⟩
abbrev BRW_CTRL_ENGINE_FENCED : Fld := ⟨.BRW_CTRL, 7, 0⟩
abbrev BRW_THREAD_STATE_STATE : Fld := ⟨.BRW_THREAD_STATE, 31, 28⟩
abbrev BRW_THREAD_STATE_FAULT : Fld := ⟨.BRW_THREAD_STATE, 27, 20⟩
abbrev BRW_THREAD_STATE_PC : Fld := ⟨.BRW_THREAD_STATE, 15, 0⟩
abbrev BRW_BP_EN : Fld := ⟨.BRW_BP, 63, 63⟩
abbrev BRW_BP_ADDR : Fld := ⟨.BRW_BP, 15, 0⟩
abbrev BRW_BP_THREADS_MASK : Fld := ⟨.BRW_BP_THREADS, 63, 0⟩
abbrev BRW_DBG_CTL_JTAG_OWNS : Fld := ⟨.BRW_DBG_CTL, 31, 31⟩
abbrev BRW_DBG_CTL_SOFT_BP_EN : Fld := ⟨.BRW_DBG_CTL, 30, 30⟩
abbrev CS_BANK_MAP_EPOCH1_BANK : Fld := ⟨.CS_BANK_MAP, 1, 1⟩
abbrev CS_BANK_MAP_EPOCH0_BANK : Fld := ⟨.CS_BANK_MAP, 0, 0⟩
abbrev CS_BANK_STATE_STATE : Fld := ⟨.CS_BANK_STATE, 31, 28⟩
abbrev CS_BANK_STATE_KINDS : Fld := ⟨.CS_BANK_STATE, 27, 24⟩
abbrev CS_IMAGE_ID_ID : Fld := ⟨.CS_IMAGE_ID, 31, 0⟩
abbrev CS_ENTRY_SUP : Fld := ⟨.CS_ENTRY, 47, 32⟩
abbrev CS_ENTRY_TX : Fld := ⟨.CS_ENTRY, 31, 16⟩
abbrev CS_ENTRY_RX : Fld := ⟨.CS_ENTRY, 15, 0⟩
abbrev CS_ROM_ID_REV : Fld := ⟨.CS_ROM_ID, 15, 0⟩
abbrev CS_REGION_HBM_MIB : Fld := ⟨.CS_REGION, 63, 32⟩
abbrev CS_REGION_TSRAM_KIB : Fld := ⟨.CS_REGION, 31, 0⟩
abbrev CS_MEAS_DIGEST : Fld := ⟨.CS_MEAS, 31, 0⟩
abbrev CS_PMEAS_DIGEST : Fld := ⟨.CS_PMEAS, 31, 0⟩
abbrev CS_MATCH_EN : Fld := ⟨.CS_MATCH, 63, 63⟩
abbrev CS_MATCH_PATCH : Fld := ⟨.CS_MATCH, 31, 16⟩
abbrev CS_MATCH_ROM : Fld := ⟨.CS_MATCH, 15, 0⟩
abbrev OFL_ENTROPY_PORT_MIN : Fld := ⟨.OFL_ENTROPY, 31, 16⟩
abbrev OFL_ENTROPY_PORT_MAX : Fld := ⟨.OFL_ENTROPY, 15, 0⟩
abbrev OFL_ENTROPY_SEED_SEED : Fld := ⟨.OFL_ENTROPY_SEED, 15, 0⟩
abbrev OFL_TUNNEL_CFG_UDP6_ZERO : Fld := ⟨.OFL_TUNNEL_CFG, 31, 31⟩
abbrev OFL_MACSEC_PORT_EN : Fld := ⟨.OFL_MACSEC_PORT, 31, 31⟩
abbrev OFL_MACSEC_PORT_PROTECT : Fld := ⟨.OFL_MACSEC_PORT, 30, 30⟩
abbrev OFL_MACSEC_PORT_VALIDATE : Fld := ⟨.OFL_MACSEC_PORT, 29, 28⟩
abbrev OFL_MACSEC_PORT_REPLAY_PROTECT : Fld := ⟨.OFL_MACSEC_PORT, 27, 27⟩
abbrev OFL_MACSEC_PORT_INCLUDE_SCI : Fld := ⟨.OFL_MACSEC_PORT, 26, 26⟩
abbrev OFL_MACSEC_PORT_CONF_OFFSET : Fld := ⟨.OFL_MACSEC_PORT, 25, 24⟩
abbrev OFL_MACSEC_PORT_CIPHER : Fld := ⟨.OFL_MACSEC_PORT, 23, 22⟩
abbrev OFL_MACSEC_PORT_TX_AN : Fld := ⟨.OFL_MACSEC_PORT, 1, 0⟩
abbrev OFL_MACSEC_WINDOW_WINDOW : Fld := ⟨.OFL_MACSEC_WINDOW, 31, 0⟩
abbrev OFL_GROUP_CTRL_EN : Fld := ⟨.OFL_GROUP_CTRL, 31, 31⟩
abbrev OFL_GROUP_CTRL_FENCED : Fld := ⟨.OFL_GROUP_CTRL, 30, 30⟩
abbrev OFL_GROUP_CTRL_GATED : Fld := ⟨.OFL_GROUP_CTRL, 29, 29⟩
abbrev OFL_USED_COUNT : Fld := ⟨.OFL_USED, 20, 0⟩
abbrev TM_NODE_CMD_GO : Fld := ⟨.TM_NODE_CMD, 31, 31⟩
abbrev TM_NODE_CMD_WRITE : Fld := ⟨.TM_NODE_CMD, 30, 30⟩
abbrev TM_NODE_CMD_LEVEL : Fld := ⟨.TM_NODE_CMD, 29, 28⟩
abbrev TM_NODE_CMD_RESULT : Fld := ⟨.TM_NODE_CMD, 27, 26⟩
abbrev TM_NODE_CMD_INDEX : Fld := ⟨.TM_NODE_CMD, 16, 0⟩
abbrev GCL_ADMIN_CTRL_EN : Fld := ⟨.GCL_ADMIN_CTRL, 31, 31⟩
abbrev GCL_ADMIN_CTRL_LEN : Fld := ⟨.GCL_ADMIN_CTRL, 10, 0⟩
abbrev GCL_ADMIN_CYCLE_CYCLE_NS : Fld := ⟨.GCL_ADMIN_CYCLE, 31, 0⟩
abbrev GCL_ADMIN_BASE_SEC_SEC : Fld := ⟨.GCL_ADMIN_BASE_SEC, 47, 0⟩
abbrev GCL_ADMIN_BASE_NS_NS : Fld := ⟨.GCL_ADMIN_BASE_NS, 29, 0⟩
abbrev GCL_STATUS_PENDING : Fld := ⟨.GCL_STATUS, 31, 31⟩
abbrev GCL_STATUS_GATES : Fld := ⟨.GCL_STATUS, 23, 16⟩
abbrev GCL_STATUS_ENTRY : Fld := ⟨.GCL_STATUS, 10, 0⟩
abbrev GCL_CHANGE_TIME_AT : Fld := ⟨.GCL_CHANGE_TIME, 63, 0⟩
abbrev TM_OBS_CFG_MODE : Fld := ⟨.TM_OBS_CFG, 31, 31⟩
abbrev TM_OBS_CFG_DEPTH_SHIFT : Fld := ⟨.TM_OBS_CFG, 12, 8⟩
abbrev TM_OBS_CFG_DELAY_SHIFT : Fld := ⟨.TM_OBS_CFG, 4, 0⟩
abbrev TM_OBS_QUEUES_ENABLED : Fld := ⟨.TM_OBS_QUEUES, 16, 0⟩
abbrev REL_DEVICE_VALID : Fld := ⟨.REL_DEVICE, 31, 31⟩
abbrev REL_DEVICE_NUM : Fld := ⟨.REL_DEVICE, 11, 0⟩
abbrev REL_CFG_SPILL_EN : Fld := ⟨.REL_CFG, 31, 31⟩
abbrev REL_CFG_CARAFE_MIB : Fld := ⟨.REL_CFG, 6, 0⟩
abbrev JNL_BASE_ADDR : Fld := ⟨.JNL_BASE, 63, 12⟩
abbrev JNL_CTRL_EN : Fld := ⟨.JNL_CTRL, 31, 31⟩
abbrev JNL_CTRL_LOG2_RECORDS : Fld := ⟨.JNL_CTRL, 4, 0⟩
abbrev JNL_CONS_CONS : Fld := ⟨.JNL_CONS, 31, 0⟩
abbrev JNL_PROD_PROD : Fld := ⟨.JNL_PROD, 31, 0⟩
abbrev JNL_STATUS_WRITING : Fld := ⟨.JNL_STATUS, 31, 31⟩
abbrev JNL_STATUS_FULL : Fld := ⟨.JNL_STATUS, 30, 30⟩
abbrev JNL_STATUS_SIGNER_OK : Fld := ⟨.JNL_STATUS, 29, 29⟩
abbrev JNL_STATUS_BACKLOG : Fld := ⟨.JNL_STATUS, 20, 0⟩
abbrev REL_GROUP_STATUS_EN : Fld := ⟨.REL_GROUP_STATUS, 63, 63⟩
abbrev REL_GROUP_STATUS_DRAINING : Fld := ⟨.REL_GROUP_STATUS, 62, 62⟩
abbrev REL_GROUP_STATUS_DELAY_NS : Fld := ⟨.REL_GROUP_STATUS, 51, 32⟩
abbrev REL_GROUP_STATUS_HELD_KIB : Fld := ⟨.REL_GROUP_STATUS, 31, 0⟩
abbrev FRER_MM_POP_POP : Fld := ⟨.FRER_MM_POP, 31, 31⟩
abbrev MIR_CTRL_ROLE : Fld := ⟨.MIR_CTRL, 31, 30⟩
abbrev MIR_CTRL_PORT : Fld := ⟨.MIR_CTRL, 27, 24⟩
abbrev MIR_CTRL_VID : Fld := ⟨.MIR_CTRL, 23, 12⟩
abbrev MIR_CTRL_PEER : Fld := ⟨.MIR_CTRL, 11, 0⟩
abbrev EVT_FN_ROM_CHANGED : Fld := ⟨.EVT_FN, 5, 5⟩
abbrev EVT_FN_BME_STOPPED : Fld := ⟨.EVT_FN, 4, 4⟩
abbrev EVT_FN_QUEUE_STATE : Fld := ⟨.EVT_FN, 3, 3⟩
abbrev EVT_FN_OFL_NOTIFY : Fld := ⟨.EVT_FN, 2, 2⟩
abbrev EVT_FN_DB_FROM_FW : Fld := ⟨.EVT_FN, 1, 1⟩
abbrev EVT_FN_PRI_STOPPED : Fld := ⟨.EVT_FN, 0, 0⟩
abbrev EVT_ROUTE_EN : Fld := ⟨.EVT_ROUTE, 31, 31⟩
abbrev EVT_ROUTE_PF : Fld := ⟨.EVT_ROUTE, 13, 12⟩
abbrev EVT_ROUTE_VECTOR : Fld := ⟨.EVT_ROUTE, 10, 0⟩
abbrev ATS_FN_LIMIT_LIMIT : Fld := ⟨.ATS_FN_LIMIT, 15, 0⟩
abbrev HIF_CPL_TIMEOUT_US : Fld := ⟨.HIF_CPL_TIMEOUT, 21, 0⟩
abbrev HIF_PRI_TIMEOUT_MS : Fld := ⟨.HIF_PRI_TIMEOUT, 15, 0⟩
abbrev MBX_CMD_CODE : Fld := ⟨.MBX_CMD, 31, 16⟩
abbrev MBX_CMD_LEN : Fld := ⟨.MBX_CMD, 15, 8⟩
abbrev MBX_CMD_SEQ : Fld := ⟨.MBX_CMD, 7, 0⟩
abbrev MBX_ACK_DONE : Fld := ⟨.MBX_ACK, 31, 31⟩
abbrev MBX_ACK_RC : Fld := ⟨.MBX_ACK, 23, 16⟩
abbrev MBX_ACK_RLEN : Fld := ⟨.MBX_ACK, 15, 8⟩
abbrev MBX_ACK_SEQ : Fld := ⟨.MBX_ACK, 7, 0⟩
abbrev MBX_STATUS_CMD_DROPPED : Fld := ⟨.MBX_STATUS, 4, 4⟩
abbrev MBX_STATUS_FENCED : Fld := ⟨.MBX_STATUS, 3, 3⟩
abbrev MBX_STATUS_PEER_RESET : Fld := ⟨.MBX_STATUS, 2, 2⟩
abbrev MBX_STATUS_TIMEOUT : Fld := ⟨.MBX_STATUS, 1, 1⟩
abbrev MBX_STATUS_BUSY : Fld := ⟨.MBX_STATUS, 0, 0⟩
abbrev MBX_TIMEOUT_US : Fld := ⟨.MBX_TIMEOUT, 31, 0⟩
abbrev DB_TO_FW_UNLOAD : Fld := ⟨.DB_TO_FW, 2, 2⟩
abbrev DB_TO_FW_READY : Fld := ⟨.DB_TO_FW, 1, 1⟩
abbrev DB_TO_FW_CMD : Fld := ⟨.DB_TO_FW, 0, 0⟩
abbrev DB_FROM_FW_SHUTDOWN : Fld := ⟨.DB_FROM_FW, 3, 3⟩
abbrev DB_FROM_FW_ROLE : Fld := ⟨.DB_FROM_FW, 2, 2⟩
abbrev DB_FROM_FW_FW_READY : Fld := ⟨.DB_FROM_FW, 1, 1⟩
abbrev DB_FROM_FW_DONE : Fld := ⟨.DB_FROM_FW, 0, 0⟩
abbrev DB_FROM_FW_MASK_MASK : Fld := ⟨.DB_FROM_FW_MASK, 31, 0⟩
abbrev HIF_FN_STATE_STATE : Fld := ⟨.HIF_FN_STATE, 31, 28⟩
abbrev HIF_FN_STATE_MIGRATING : Fld := ⟨.HIF_FN_STATE, 27, 27⟩
abbrev HIF_FN_STATE_ALL_DIRTY : Fld := ⟨.HIF_FN_STATE, 26, 26⟩
abbrev HIF_FN_STATE_GEN : Fld := ⟨.HIF_FN_STATE, 23, 16⟩
abbrev HIF_FN_STATE_SLOT : Fld := ⟨.HIF_FN_STATE, 5, 0⟩
abbrev HIF_MIG_BASE_ADDR : Fld := ⟨.HIF_MIG_BASE, 63, 12⟩
abbrev HIF_MIG_CTRL_EN : Fld := ⟨.HIF_MIG_CTRL, 31, 31⟩
abbrev HIF_MIG_CTRL_ALL_DIRTY : Fld := ⟨.HIF_MIG_CTRL, 30, 30⟩
abbrev HIF_MIG_CTRL_LOG2 : Fld := ⟨.HIF_MIG_CTRL, 28, 24⟩
abbrev HIF_MIG_CTRL_FUNC : Fld := ⟨.HIF_MIG_CTRL, 11, 0⟩
abbrev HIF_MIG_PROD_PROD : Fld := ⟨.HIF_MIG_PROD, 31, 0⟩
abbrev HIF_MIG_CONS_CONS : Fld := ⟨.HIF_MIG_CONS, 31, 0⟩
abbrev CPY_CH_CFG_COMPAT : Fld := ⟨.CPY_CH_CFG, 63, 63⟩
abbrev CPY_CH_CFG_PACED : Fld := ⟨.CPY_CH_CFG, 62, 62⟩
abbrev CPY_CH_CFG_PASID_EN : Fld := ⟨.CPY_CH_CFG, 61, 61⟩
abbrev CPY_CH_CFG_VECTOR : Fld := ⟨.CPY_CH_CFG, 42, 32⟩
abbrev CPY_CH_CFG_OWNER : Fld := ⟨.CPY_CH_CFG, 31, 20⟩
abbrev CPY_CH_CFG_PASID : Fld := ⟨.CPY_CH_CFG, 19, 0⟩
abbrev CPY_CH_LIMITS_BURST_KIB : Fld := ⟨.CPY_CH_LIMITS, 29, 16⟩
abbrev CPY_CH_LIMITS_CHAIN_LIMIT : Fld := ⟨.CPY_CH_LIMITS, 15, 0⟩
abbrev CPY_CH_HEAD_ADDR : Fld := ⟨.CPY_CH_HEAD, 63, 5⟩
abbrev CPY_CH_HEAD_HBM : Fld := ⟨.CPY_CH_HEAD, 0, 0⟩
abbrev CPY_CH_CTRL_GO : Fld := ⟨.CPY_CH_CTRL, 31, 31⟩
abbrev CPY_CH_CTRL_STOP : Fld := ⟨.CPY_CH_CTRL, 30, 30⟩
abbrev CPY_CH_CTRL_FROM_HEAD : Fld := ⟨.CPY_CH_CTRL, 29, 29⟩
abbrev CPY_CH_STATUS_STATE : Fld := ⟨.CPY_CH_STATUS, 31, 28⟩
abbrev CPY_CH_STATUS_CODE : Fld := ⟨.CPY_CH_STATUS, 23, 16⟩
abbrev CPY_CH_STATUS_COUNT : Fld := ⟨.CPY_CH_STATUS, 15, 0⟩
abbrev HBM_REGION_EN : Fld := ⟨.HBM_REGION, 63, 63⟩
abbrev HBM_REGION_ORDER : Fld := ⟨.HBM_REGION, 37, 36⟩
abbrev HBM_REGION_STACKS : Fld := ⟨.HBM_REGION, 35, 34⟩
abbrev HBM_REGION_ROWS : Fld := ⟨.HBM_REGION, 31, 16⟩
abbrev HBM_REGION_ROW_BASE : Fld := ⟨.HBM_REGION, 15, 0⟩
abbrev HBM_PAGE_CFG_IDLE_CYCLES : Fld := ⟨.HBM_PAGE_CFG, 9, 0⟩
abbrev HBM_PC_STATUS_STATE : Fld := ⟨.HBM_PC_STATUS, 31, 28⟩
abbrev HBM_PC_STATUS_SPARE_LANES : Fld := ⟨.HBM_PC_STATUS, 27, 26⟩
abbrev HBM_PC_STATUS_POSTPONED : Fld := ⟨.HBM_PC_STATUS, 23, 20⟩
abbrev HBM_PC_STATUS_REPAIRS : Fld := ⟨.HBM_PC_STATUS, 15, 0⟩
abbrev HBM_STACK_STATUS_TRAINED : Fld := ⟨.HBM_STACK_STATUS, 31, 31⟩
abbrev HBM_STACK_STATUS_HOT : Fld := ⟨.HBM_STACK_STATUS, 30, 30⟩
abbrev HBM_STACK_STATUS_TEMP_C : Fld := ⟨.HBM_STACK_STATUS, 23, 16⟩
abbrev HBM_STACK_STATUS_TRAIN_TEMP_C : Fld := ⟨.HBM_STACK_STATUS, 15, 8⟩
abbrev HBM_STACK_STATUS_FENCED : Fld := ⟨.HBM_STACK_STATUS, 7, 0⟩
abbrev GLB_ERR_COUNT_COUNT : Fld := ⟨.GLB_ERR_COUNT, 63, 0⟩
abbrev GLB_FENCE_POP_POP : Fld := ⟨.GLB_FENCE_POP, 31, 31⟩
abbrev GLB_FENCE_POP_FENCE_LOST : Fld := ⟨.GLB_FENCE_POP, 15, 0⟩
abbrev GLB_FATAL_CAUSE_VALID : Fld := ⟨.GLB_FATAL_CAUSE, 31, 31⟩
abbrev GLB_FATAL_CAUSE_CAUSE : Fld := ⟨.GLB_FATAL_CAUSE, 23, 16⟩
abbrev GLB_FATAL_CAUSE_UNIT : Fld := ⟨.GLB_FATAL_CAUSE, 15, 0⟩
abbrev GLB_FATAL_TIME_WHEN : Fld := ⟨.GLB_FATAL_TIME, 63, 0⟩
abbrev SVC_ID_PART_PART : Fld := ⟨.SVC_ID_PART, 31, 16⟩
abbrev SVC_ID_PART_STEPPING : Fld := ⟨.SVC_ID_PART, 15, 8⟩
abbrev SVC_ID_PART_SPEED_BIN : Fld := ⟨.SVC_ID_PART, 7, 0⟩
abbrev SVC_ID_VENDOR_VENDOR : Fld := ⟨.SVC_ID_VENDOR, 15, 0⟩
abbrev SVC_ID_LOT_LOT : Fld := ⟨.SVC_ID_LOT, 31, 0⟩
abbrev SVC_ID_POS_DIE_Y : Fld := ⟨.SVC_ID_POS, 23, 16⟩
abbrev SVC_ID_POS_DIE_X : Fld := ⟨.SVC_ID_POS, 15, 8⟩
abbrev SVC_ID_POS_WAFER : Fld := ⟨.SVC_ID_POS, 7, 0⟩
abbrev SVC_ID_CERT_DIGEST : Fld := ⟨.SVC_ID_CERT, 31, 0⟩
abbrev SVC_ID_STATUS_VALID : Fld := ⟨.SVC_ID_STATUS, 31, 31⟩
abbrev SVC_ID_STATUS_ERR : Fld := ⟨.SVC_ID_STATUS, 30, 30⟩
abbrev PWR_DOMAIN_STATE : Fld := ⟨.PWR_DOMAIN, 31, 28⟩
abbrev PWR_DOMAIN_GATEABLE : Fld := ⟨.PWR_DOMAIN, 27, 27⟩
abbrev PWR_DOMAIN_MV : Fld := ⟨.PWR_DOMAIN, 15, 0⟩
abbrev PWR_STATUS_STATE : Fld := ⟨.PWR_STATUS, 31, 28⟩
abbrev PWR_STATUS_LEVEL : Fld := ⟨.PWR_STATUS, 27, 24⟩
abbrev PWR_STATUS_TJ_C : Fld := ⟨.PWR_STATUS, 23, 16⟩
abbrev PWR_STATUS_HBM_C : Fld := ⟨.PWR_STATUS, 15, 8⟩
abbrev PWR_STATUS_PHASES_LOST : Fld := ⟨.PWR_STATUS, 7, 0⟩
abbrev PWR_CFG_DEEP_IDLE_EN : Fld := ⟨.PWR_CFG, 31, 31⟩
abbrev PWR_CFG_CLUSTER_GATE : Fld := ⟨.PWR_CFG, 30, 30⟩
abbrev PWR_CFG_CAP_W : Fld := ⟨.PWR_CFG, 7, 0⟩
abbrev PWR_THERM_CFG_ALERT_C : Fld := ⟨.PWR_THERM_CFG, 31, 24⟩
abbrev PWR_THERM_CFG_THROTTLE_C : Fld := ⟨.PWR_THERM_CFG, 23, 16⟩
abbrev PWR_VIN_VIN_MV : Fld := ⟨.PWR_VIN, 63, 48⟩
abbrev PWR_VIN_AON_MV : Fld := ⟨.PWR_VIN, 47, 32⟩
abbrev PWR_VIN_PWR_DW : Fld := ⟨.PWR_VIN, 31, 16⟩
abbrev PWR_VIN_CUR_CA : Fld := ⟨.PWR_VIN, 15, 0⟩
abbrev PWR_LAST_VALID : Fld := ⟨.PWR_LAST, 31, 31⟩
abbrev PWR_LAST_CAUSE : Fld := ⟨.PWR_LAST, 27, 24⟩
abbrev PWR_LAST_TJ_C : Fld := ⟨.PWR_LAST, 23, 16⟩
abbrev GLB_RESET_COLD : Fld := ⟨.GLB_RESET, 31, 31⟩
abbrev GLB_RESET_WARM : Fld := ⟨.GLB_RESET, 30, 30⟩
abbrev GLB_RESET_CLUSTER : Fld := ⟨.GLB_RESET, 29, 29⟩
abbrev GLB_RESET_BUSY : Fld := ⟨.GLB_RESET, 28, 28⟩
abbrev GLB_RESET_KEY : Fld := ⟨.GLB_RESET, 23, 8⟩
abbrev GLB_RESET_CLUSTER_ID : Fld := ⟨.GLB_RESET, 3, 0⟩
abbrev GLB_RESET_CAUSE_KIND : Fld := ⟨.GLB_RESET_CAUSE, 31, 28⟩
abbrev GLB_RESET_CAUSE_SOURCE : Fld := ⟨.GLB_RESET_CAUSE, 27, 24⟩
abbrev GCL_OPER_CTRL_EN : Fld := ⟨.GCL_OPER_CTRL, 31, 31⟩
abbrev GCL_OPER_CTRL_LEN : Fld := ⟨.GCL_OPER_CTRL, 10, 0⟩
abbrev GCL_OPER_CYCLE_CYCLE_NS : Fld := ⟨.GCL_OPER_CYCLE, 31, 0⟩
abbrev GCL_OPER_BASE_SEC_SEC : Fld := ⟨.GCL_OPER_BASE_SEC, 47, 0⟩
abbrev GCL_OPER_BASE_NS_NS : Fld := ⟨.GCL_OPER_BASE_NS, 29, 0⟩
abbrev JNL_HEAD_RSEQ_RSEQ : Fld := ⟨.JNL_HEAD_RSEQ, 47, 0⟩
abbrev EVT_FN_VEC_VECTOR : Fld := ⟨.EVT_FN_VEC, 10, 0⟩
abbrev CPY_CH_CUR_ADDR : Fld := ⟨.CPY_CH_CUR, 63, 5⟩
abbrev CPY_CH_CUR_HBM : Fld := ⟨.CPY_CH_CUR, 0, 0⟩
abbrev CPY_CH_PROGRESS_PROGRESS : Fld := ⟨.CPY_CH_PROGRESS, 24, 0⟩
abbrev CPY_UNIT_CTRL_EN : Fld := ⟨.CPY_UNIT_CTRL, 31, 31⟩
abbrev CPY_UNIT_CTRL_FENCED : Fld := ⟨.CPY_UNIT_CTRL, 30, 30⟩
abbrev CPY_WIN_MIB : Fld := ⟨.CPY_WIN, 13, 0⟩
abbrev PWR_TEMP_VALID : Fld := ⟨.PWR_TEMP, 31, 31⟩
abbrev PWR_TEMP_FAULT : Fld := ⟨.PWR_TEMP, 30, 30⟩
abbrev PWR_TEMP_TENTHS : Fld := ⟨.PWR_TEMP, 15, 0⟩
end F

/-! The counters of the counter groups, by their index inside a group. -/
namespace C
abbrev PRT_TX_FRAMES_OK : Nat := 0
abbrev PRT_TX_OCTETS_OK : Nat := 1
abbrev PRT_TX_MCAST : Nat := 2
abbrev PRT_TX_BCAST : Nat := 3
abbrev PRT_TX_PAUSE : Nat := 4
abbrev PRT_TX_PFC : Nat := 5
abbrev PRT_TX_STOMPED : Nat := 6
abbrev PRT_TX_DROP_LINK_DOWN : Nat := 7
abbrev PRT_RX_FRAMES_OK : Nat := 8
abbrev PRT_RX_OCTETS_OK : Nat := 9
abbrev PRT_RX_MCAST : Nat := 10
abbrev PRT_RX_BCAST : Nat := 11
abbrev PRT_RX_FCS_ERR : Nat := 12
abbrev PRT_RX_STOMPED : Nat := 13
abbrev PRT_RX_UNDERSIZE : Nat := 14
abbrev PRT_RX_FRAGMENT : Nat := 15
abbrev PRT_RX_OVERSIZE : Nat := 16
abbrev PRT_RX_JABBER : Nat := 17
abbrev PRT_RX_LEN_ERR : Nat := 18
abbrev PRT_RX_PAUSE : Nat := 19
abbrev PRT_RX_PFC : Nat := 20
abbrev PRT_RX_UNSUP_OPCODE : Nat := 21
abbrev PRT_RX_OCTETS_ALL : Nat := 22
abbrev PRT_RX_PKTS_ALL : Nat := 23
abbrev PRT_RX_64 : Nat := 24
abbrev PRT_RX_65_127 : Nat := 25
abbrev PRT_RX_128_255 : Nat := 26
abbrev PRT_RX_256_511 : Nat := 27
abbrev PRT_RX_512_1023 : Nat := 28
abbrev PRT_RX_1024_1518 : Nat := 29
abbrev PRT_RX_1519_MAX : Nat := 30
abbrev PRT_RX_DROP : Nat := 31
abbrev PRT_FEC_CORRECTED : Nat := 32
abbrev PRT_FEC_UNCORRECTED : Nat := 33
abbrev PRT_TX_PAUSED_NS : Nat := 34
abbrev PRT_MM_FRAG_TX : Nat := 35
abbrev PRT_MM_FRAG_RX : Nat := 36
abbrev PRT_MM_ASSY_OK : Nat := 37
abbrev PRT_MM_ASSY_ERR : Nat := 38
abbrev PRT_MM_SMD_ERR : Nat := 39
abbrev PRT_RX_PFC_PRIO : Nat := 40
abbrev PRT_TX_PFC_PRIO : Nat := 48
abbrev GRD_PARSED : Nat := 0
abbrev GRD_ERR_DEPTH : Nat := 1
abbrev GRD_ERR_TUNNEL_DEPTH : Nat := 2
abbrev GRD_ERR_TRUNC : Nat := 3
abbrev GRD_ERR_WINDOW : Nat := 4
abbrev GRD_ERR_BAD_LEN : Nat := 5
abbrev L2_LEARNED_TOTAL : Nat := 0
abbrev L2_MOVED : Nat := 1
abbrev L2_MOVE_DENIED : Nat := 2
abbrev L2_AGED : Nat := 3
abbrev L2_EXCESS_DROPPED : Nat := 4
abbrev L2_EXCESS_FLOODED : Nat := 5
abbrev L2_LEARN_FULL : Nat := 6
abbrev L2_LEARN_DEFERRED : Nat := 7
abbrev BRW_DISPATCHED : Nat := 0
abbrev BRW_DONE : Nat := 1
abbrev BRW_ABORTED : Nat := 2
abbrev BRW_FAULTS : Nat := 3
abbrev BRW_ISSUED : Nat := 4
abbrev BRW_EMPTY_SLOTS : Nat := 5
abbrev BRW_ALL_WAIT : Nat := 6
abbrev BRW_CS_CORRECTED : Nat := 7
abbrev BRW_REG_CORRECTED : Nat := 8
abbrev PIPE_VERDICTS : Nat := 0
abbrev PIPE_DROPPED : Nat := 1
abbrev PIPE_BAD_VERDICT : Nat := 2
abbrev PIPE_FLR_DROPS : Nat := 3
abbrev PIPE_REORDER_HWM : Nat := 4
abbrev CS_MEM_RANGE : Nat := 0
abbrev CS_RESERVED_IGNORED : Nat := 1
abbrev OFL_ESP_ENCRYPTED : Nat := 0
abbrev OFL_ESP_DECRYPTED : Nat := 1
abbrev OFL_AUTH_FAIL : Nat := 2
abbrev OFL_REPLAY : Nat := 3
abbrev OFL_TLS_RECORDS : Nat := 4
abbrev OFL_TLS_NOT_DECRYPTED : Nat := 5
abbrev OFL_NVME_PLACED_BYTES : Nat := 6
abbrev OFL_DIGEST_ERR : Nat := 7
abbrev OFL_DEFERRED_DROPS : Nat := 8
abbrev OFL_CELL_CHECK : Nat := 9
abbrev MACSEC_InPktsOK : Nat := 0
abbrev MACSEC_InPktsInvalid : Nat := 1
abbrev MACSEC_InPktsNotValid : Nat := 2
abbrev MACSEC_InPktsNotUsingSA : Nat := 3
abbrev MACSEC_InPktsUnusedSA : Nat := 4
abbrev MACSEC_InPktsLate : Nat := 5
abbrev MACSEC_InPktsUntagged : Nat := 6
abbrev MACSEC_InPktsNoSCI : Nat := 7
abbrev MACSEC_OutPktsProtected : Nat := 8
abbrev MACSEC_OutPktsEncrypted : Nat := 9
abbrev MACSEC_OutPktsUntagged : Nat := 10
abbrev MACSEC_OutPktsDiscarded : Nat := 11
abbrev TM_ENQUEUED : Nat := 0
abbrev TM_DEQUEUED : Nat := 1
abbrev TM_TAIL_DROP : Nat := 2
abbrev TM_COLOUR_DROP : Nat := 3
abbrev TM_DISABLED_DROP : Nat := 4
abbrev TM_FENCED_PORT_DROP : Nat := 5
abbrev TM_MAP_MISMATCH : Nat := 6
abbrev TM_MCAST_COPIES : Nat := 7
abbrev TM_MCAST_EMPTY : Nat := 8
abbrev TM_GATE_TOO_LONG : Nat := 9
abbrev TM_LAUNCH_LATE_DROP : Nat := 10
abbrev TM_LAUNCH_LATE_SENT : Nat := 11
abbrev TM_LAUNCH_FUTURE : Nat := 12
abbrev TM_FLUSHED : Nat := 13
abbrev REL_RELEASED : Nat := 0
abbrev REL_LATE : Nat := 1
abbrev REL_PASSED : Nat := 2
abbrev REL_EPOCH_HELD : Nat := 3
abbrev REL_OVER_RATE_DROP : Nat := 4
abbrev REL_HOLD_FULL_DROP : Nat := 5
abbrev REL_DEST_DROP : Nat := 6
abbrev REL_SPILL_ERR : Nat := 7
abbrev JNL_RECORDS : Nat := 0
abbrev JNL_CHECKPOINTS : Nat := 1
abbrev JNL_RECORDS_LOST : Nat := 2
abbrev FRER_CTX_PASSED : Nat := 0
abbrev FRER_CTX_DISCARDED : Nat := 1
abbrev FRER_CTX_OUT_OF_ORDER : Nat := 2
abbrev FRER_CTX_ROGUE : Nat := 3
abbrev FRER_CTX_LOST : Nat := 4
abbrev FRER_CTX_TAGLESS : Nat := 5
abbrev FRER_CTX_RESETS : Nat := 6
abbrev FRER_CTX_GENERATED : Nat := 7
abbrev FRER_UNKNOWN_NODE : Nat := 0
abbrev FRER_WRONG_LAN : Nat := 1
abbrev FRER_DIGEST_SKIPPED : Nat := 2
abbrev FRER_MM_OVERFLOW : Nat := 3
abbrev HIF_CPL_TIMEOUTS : Nat := 0
abbrev HIF_CPL_ERRORS : Nat := 1
abbrev HIF_LATE_CPL : Nat := 2
abbrev HIF_POISONED : Nat := 3
abbrev HIF_ECRC_ERRORS : Nat := 4
abbrev HIF_RX_BME_DROP : Nat := 5
abbrev HIF_BAR2_DENIED : Nat := 6
abbrev HIF_ATS_HITS : Nat := 7
abbrev HIF_ATS_MISSES : Nat := 8
abbrev HIF_ATS_INVALIDATIONS : Nat := 9
abbrev HIF_PAGE_REQUESTS : Nat := 10
abbrev HIF_PAGE_FAILURES : Nat := 11
abbrev QM_DESC_FETCHED : Nat := 0
abbrev QM_PUSH_USED : Nat := 1
abbrev QM_PUSH_IGNORED : Nat := 2
abbrev QM_INVALIDATED : Nat := 3
abbrev QM_BAD_DESC : Nat := 4
abbrev QM_RX_TOO_LONG : Nat := 5
abbrev QM_RX_HOLD_DROP : Nat := 6
abbrev QM_RX_STOPPED_DROP : Nat := 7
abbrev QM_ONESTEP_SKIPPED : Nat := 8
abbrev QM_CPL_PENDING_HWM : Nat := 9
abbrev CPY_DESCRIPTORS : Nat := 0
abbrev CPY_BYTES : Nat := 1
abbrev CPY_YIELDS : Nat := 2
abbrev CPY_STOPS : Nat := 3
abbrev HBM_READS : Nat := 0
abbrev HBM_WRITES : Nat := 1
abbrev HBM_CORRECTED : Nat := 2
abbrev HBM_UNCORRECTED : Nat := 3
abbrev HBM_FENCED_DISCARDS : Nat := 4
abbrev HBM_REFRESH_FORCED : Nat := 5
abbrev HBM_LAT_EXCEEDED : Nat := 6
abbrev HBM_SOFT_REPAIRS : Nat := 7
end C

end Sys2Proof.Machine
end

