-- ==== Sys2Proof/Machine/State.lean ====
section
/-! DEFINITION. The state of the adapter: every register, table, queue and mode the spec gives it, as plain data,
with the queue of waiting commands, and its value right after power-on reset. -/

namespace Sys2Proof.Machine

/-- The reasons to stop with a fault: none. Every command of the table has an effect or none, and the spec names no
command that stops the block, so no meaning raises a fault; safe. -/
inductive Fault
deriving DecidableEq, Repr

/-- The reasons to refuse a command. -/
inductive Refusal
  /-- Raised only by an arm of exec whose command has no meaning yet; safe: the machine stops. -/
  | notModelled (mnemonic : String)
deriving DecidableEq, Repr

/-- What the adapter sends to the outside world, in the order sent (the model's own record, not the spec's). -/
inductive Out
  /-- A posted write of function fn into host memory. -/
  | hostWrite (fn addr : Nat) (pasid : Option Nat) (data : Bytes)
  /-- A read request of function fn for host memory. -/
  | hostRead (fn addr : Nat) (pasid : Option Nat) (len : Nat)
  /-- An MSI-X message of a function's vector. -/
  | message (fn vector : Nat) (addr data : Nat)
  /-- The answer to a register read; one of configuration space at offset off has the address 2^32 + off. -/
  | readValue (fn addr : Nat) (value : Nat)
  /-- An AER report of an Unexpected Completion by a host port. -/
  | unexpectedCompletion (port : Nat)
  /-- A Device Readiness Status message on a link of a host port. -/
  | deviceReady (port link : Nat)
  /-- A configuration request completed with Request Retry Status. -/
  | retryStatus (fn off : Nat)
  /-- A frame handed to a network port's wire, FCS included. -/
  | frame (port : Nat) (data : Bytes)
  /-- A frame handed to the management port's wire. -/
  | mgmtFrame (data : Bytes)
  /-- A packet handed to NC-SI. -/
  | ncsi (data : Bytes)
  /-- The answer to an NC-SI command: its response code and data words. -/
  | ncsiResponse (code : Nat) (data : List Nat)
  /-- Remote-fault ordered sets (kind 1) or a verify mPacket (kind 2) of a port's transmitter. -/
  | orderedSets (port : Nat) (kind : Nat)
  /-- A Translation Request, a page request, an Invalidate Completion. -/
  | translationRequest (fn : Nat) (pasid : Option Nat) (page : Nat)
  | pageRequest (fn : Nat) (pasid : Option Nat) (page : Nat) (write : Bool) (index : Nat)
  | invalidateDone (port : Nat) (tag : Nat)
  /-- A pulse on PPS_OUT. -/
  | pps (widthUs : Nat) (offsetNs : Int)
  /-- An NC-SI asynchronous event notification: its type and data (spec/03_ports.md R85). -/
  | ncsiAen (kind : Nat) (data : List Nat)
  /-- A rising edge of CLK10M_OUT. -/
  | clk10m
  /-- A level of a named pin: OVN_HEAT_EN, THERM_ALERT_N, THERMTRIP_N, AON_OK. -/
  | pin (name : String) (level : Bool)
  /-- A message to another unit or to firmware that the spec names and no other state holds. -/
  | unitMessage (dst : Nat) (data : List Nat)
deriving DecidableEq, Repr

/-- One MSI-X table entry with its pending bit (spec/11_host_interface.md R282); the mask bit is 1 at reset
(PRESUMED, log 2). -/
structure Msix where
  addr : Nat := 0
  data : Nat := 0
  masked : Bool := true
  pending : Bool := false
deriving DecidableEq, Repr, Inhabited

/-- What a function may use (spec/14_tenants.md R341, R342; spec/07_offloads.md R174). -/
structure Grants where
  pages : Nat := 0
  txRings : Nat := 0
  rxRings : Nat := 0
  cqRings : Nat := 0
  vectors : Nat := 0
  features : Nat := 0
  l2 : Nat := 0
  flows : Nat := 0
  esp : Nat := 0
  sessions : Nat := 0
  places : Nat := 0
deriving DecidableEq, Repr, Inhabited

/-- A function's configuration space bits and firmware's record of it (spec/11_host_interface.md R274 to R294,
spec/14_tenants.md R341 to R349). -/
structure FnCfg where
  bme : Bool := false
  msixEn : Bool := false
  fnMask : Bool := false
  ats : Bool := false
  pasidEn : Bool := false
  priEn : Bool := false
  priStopped : Bool := false
  priAlloc : Nat := 0
  vfEnable : Bool := false
  numVfs : Nat := 0
  /-- a PF's share of the 2,048 VFs (TotalVFs, R274) -/
  numVfsShare : Nat := 0
  d3 : Bool := false
  /-- Interrupt Disable, and Max_Payload_Size and Max_Read_Request_Size as Device Control codes them: 128 bytes times 2^k; 512
  bytes is PCI Express' reset value (R271, R275; PRESUMED, log 210) -/
  intDisable : Bool := false
  mps : Nat := 0
  mrrs : Nat := 2
  /-- addresses of BAR0, BAR2 and the VFs' BAR0 (R277), the ECRC enables, the ACS control bits (R276) -/
  bar0 : Nat := 0
  bar2 : Nat := 0
  vfBar : Nat := 0
  ecrcGen : Bool := false
  ecrcCheck : Bool := false
  acs : Nat := 0
  grants : Grants := {}
  romGen : Nat := 0
deriving DecidableEq, Repr, Inhabited

/-- A journal record before it is chained: its KIND and the 40 body bytes (spec/09_release_and_evidence.md R250). -/
structure JRec where
  kind : Nat
  body : Bytes
deriving DecidableEq, Repr, Inhabited

/-- The journal writer (spec/09_release_and_evidence.md R246 to R253). -/
structure Journal where
  /-- records waiting unchained, oldest first -/
  backlog : List JRec := []
  /-- H of the last chained record, none before the first -/
  head : Option Bytes := none
  /-- RSEQ of the next record chained -/
  next : Nat := 0
  /-- a translation fault of a record write waits for its page response -/
  faulted : Bool := false
  /-- writing stopped by a failed page request until EN is written again -/
  stopped : Bool := false
  /-- records lost since the last GAP record, DIGEST records among them, stamps of the first and last -/
  lost : Nat := 0
  lostDigest : Nat := 0
  lostFrom : Nat := 0
  lostTo : Nat := 0
  /-- records chained since the last checkpoint began, and device time (stamp) when it began -/
  sinceCkpt : Nat := 0
  ckptAt : Nat := 0
  /-- checkpoints being signed: head RSEQ, WHEN, signature bytes -/
  signing : List (Nat × Nat × Bytes) := []
deriving DecidableEq, Repr, Inhabited

/-- One fence log entry (spec/17_errors_and_service.md R391). -/
structure FenceEntry where
  unit : Nat
  cause : Nat
  cls : Nat
  object : Nat
  when_ : Nat
deriving DecidableEq, Repr, Inhabited

/-- One entry of the firmware-owned write log (spec/13_control_interface.md R335). -/
structure FwLogEntry where
  offset : Nat
  data : Nat
  stamp : Nat
deriving DecidableEq, Repr, Inhabited

/-- Device time: seconds, nanoseconds and fraction in units of 2^-48 ns (spec/02_time_base.md R38, R39). -/
structure DevTime where
  sec : Nat := 0
  ns : Nat := 0
  frac : Nat := 0
deriving DecidableEq, Repr, Inhabited

/-- The time unit beside its registers (spec/02_time_base.md). -/
structure Tsu where
  /-- the counter runs: the time clock has locked since power-on or cold reset (R40) -/
  counting : Bool := false
  /-- TSU_FREQ_OFFSET was written since the last tick (R38) -/
  incrDue : Bool := false
  /-- by port, the TSU_BOARD_DLY that stamps still use until the next tick (R54) -/
  dlyOld : SMap (Option Nat) := []
  /-- phase still to be added, in units of 2^-48 ns; TSU_SLEW_LEFT shows it in 2^-16 ns (R44) -/
  slewLeft : Int := 0
  /-- the fraction accumulator of the slew rate (R44) -/
  slewAcc : Nat := 0
  /-- the held low word of TSU_SLEW_SET (R44) -/
  slewHeld : Option Nat := none
  /-- elapsed time and short stamp of the last steering write (R47) -/
  steerAt : Nat := 0
  steerStamp : Nat := 0
  /-- elapsed time of the last PPS_IN edge, until PPS_IN_MISSING is raised for it (R57) -/
  ppsAt : Option Nat := none
  /-- causes of CLOCK records still to be written, oldest first (spec/09_release_and_evidence.md R250) -/
  clockDue : List Nat := []
  /-- calibration entries 0 to 15, 32 bytes each, as loaded from flash (R53); none: all zero -/
  cal : SMap Bytes := []
  /-- the calibration entry applied to each port (R53) -/
  portCal : SMap (Option Nat) := []
deriving DecidableEq, Repr, Inhabited

/-- The oven beside its registers (spec/02_time_base.md R58 to R62). -/
structure Oven where
  /-- the integrator, 0 to DUTY_MAX × 256 -/
  integ : Nat := 0
  /-- elapsed time at which the present state was entered -/
  since : Nat := 0
  /-- elapsed time since which every sample was inside, or outside, LOCK_BAND -/
  inBand : Option Nat := none
  outBand : Option Nat := none
  /-- consecutive implausible ADC codes -/
  implausible : Nat := 0
  /-- elapsed time since which the duty stays at DUTY_MAX while LOCKED; none after the event was raised -/
  dutyMax : Option Nat := none
  dutyRaised : Bool := false
deriving DecidableEq, Repr, Inhabited

/-- A flow-control hold of a transmitter or of one class (spec/03_ports.md R74, R77). -/
structure Hold where
  /-- elapsed time since which it holds without a break -/
  since : Nat := 0
  /-- its end, in units of 10 ps of elapsed time -/
  until_ : Nat := 0
  /-- elapsed time up to which TX_PAUSED_NS has counted it -/
  counted : Nat := 0
  /-- PRT_PAUSE_STORM was raised for it -/
  storm : Bool := false
deriving DecidableEq, Repr, Inhabited

/-- A rate threshold's window (spec/00_scope.md R423): its start and the count in it. -/
structure Rate where
  start : Nat := 0
  count : Nat := 0
deriving DecidableEq, Repr, Inhabited

/-- The NC-SI package and channel (spec/03_ports.md R85); the channel's settings are DSP0222's (PRESUMED, log 15). -/
structure NcSi where
  selected : Bool := false
  /-- the channel is past its Initial State -/
  ready : Bool := false
  enabled : Bool := false
  txEnabled : Bool := false
  /-- events announced, link settings, VLAN mode and filters, kinds of broadcast frames passed on -/
  aen : Nat := 0
  link : Nat := 0
  vlanMode : Nat := 0
  vlans : List Nat := []
  bcast : Nat := 0
  /-- the destination addresses the board management controller filters for itself -/
  filters : List Nat := []
deriving DecidableEq, Repr, Inhabited

/-- Where a packet stands on its path (spec/01_architecture.md, "From the wire to a host"). -/
inductive Stage
  /-- waits for the FRER unit's decision -/
  | frer
  /-- waits for Grinder -/
  | received
  /-- parsed, waits for the L2 source check -/
  | parsed
  /-- waits for the dispatcher -/
  | checked
  /-- held by a packet thread -/
  | thread (t : Nat)
  /-- has its verdict, waits in the reorder unit -/
  | verdict
  /-- runs its deferred offload list -/
  | deferred
  /-- waits for the traffic manager -/
  | toTm
  /-- waits for the release unit -/
  | toRelease
  /-- in a scheduler queue -/
  | queued (q : Nat)
  /-- held by the release unit for a group -/
  | held (g : Nat)
  /-- in a port's transmit cell queue -/
  | txCell (port : Nat)
  /-- being transmitted by a port -/
  | sending (port : Nat)
  /-- waits for receive DMA into a ring -/
  | rxDma (ring : Nat)
  /-- on a receive ring's hold list -/
  | onHold (ring : Nat)
deriving DecidableEq, Repr, Inhabited

/-- A verdict word and the parts of it the later stages read (spec/06_microcode.md R159). -/
structure Verdict where
  action : Nat := 0
  tc : Nat := 0
  word : Nat := 0
  word2 : Nat := 0
deriving DecidableEq, Repr, Inhabited

/-- One deferred offload entry of a packet (spec/07_offloads.md R172). -/
structure Deferred where
  /-- it came after a destroy of its context was accepted (spec/07_offloads.md R175) -/
  late : Bool := false
  group : Nat := 0
  op : Nat := 0
  ctx : Nat := 0
  params : List Nat := []
deriving DecidableEq, Repr, Inhabited

/-- A packet in the adapter: its frame in Carafe and what travels with it. -/
structure Packet where
  stage : Stage := .received
  /-- elapsed time at which it joined its stage -/
  since : Nat := 0
  /-- the frame from its destination address on, without FCS -/
  data : Bytes := []
  /-- received on a network port (else from a host transmit ring) -/
  fromWire : Bool := true
  port : Nat := 0
  ring : Nat := 0
  func : Nat := 0
  gen : Nat := 0
  pipe : Nat := 0
  /-- programme epoch bit (R32) -/
  epoch : Nat := 0
  /-- full ingress stamp in 2^-16 ns when received; short stamp of the fetch when from a host ring -/
  stamp : Nat := 0
  /-- ingress FCS failed: only a cut-through copy goes on (R25) -/
  badFcs : Bool := false
  /-- it waited in a queue, or an offload demanded the whole frame: no cut-through (spec/03_ports.md R71) -/
  whole : Bool := false
  /-- a cell check failed, or cell data did not arrive -/
  badCell : Bool := false
  /-- discarded at its verdict: a LEARN of its thread was excess on a port that drops (spec/04_parsing_and_tables.md R98), or an
  offload group's input check failed (spec/07_offloads.md R202) -/
  doomed : Bool := false
  /-- the member entry that named it when it was received: number and bytes (spec/10_redundancy.md R256) -/
  member : Option (Nat × Bytes) := none
  /-- metadata fields by number (R93) -/
  fields : SMap Nat := []
  /-- reorder number within its pipeline (R127) -/
  seq : Nat := 0
  verdict : Verdict := {}
  deferred : List Deferred := []
  /-- the deferred list was given with the transmit entry: KIND and offload block (R178) -/
  offload : Bytes := []
  /-- transmit job and frame number within it -/
  job : Option Nat := none
  seg : Nat := 0
  copies : Nat := 0
  /-- transmit: stamp asked, launch time, one-step insertion -/
  wantStamp : Bool := false
  /-- STAMP on the DONE word: every egress copy takes a stamp (spec/06_microcode.md R159) -/
  stampAll : Bool := false
  launch : Option Nat := none
  oneStep : Option (Nat × Nat) := none
  /-- egress: scheduler queue, colour, enqueue time (units of device time), R-TAG to insert -/
  queue : Nat := 0
  colour : Nat := 0
  enqueuedAt : Nat := 0
  rtag : Option Nat := none
  launchLate : Bool := false
  /-- order key and fairness-group marks (spec/09_release_and_evidence.md R232 to R241) -/
  key : Nat := 0
  group : Option Nat := none
  release : Nat := 0
  late : Bool := false
  epochHeld : Bool := false
  spilled : Bool := false
  /-- time the frame joined its hold list -/
  heldAt : Nat := 0
  heldFault : Bool := false
  /-- the packet whose cells it shares, 0 for its own (spec/08_traffic_manager.md R208) -/
  cells : Nat := 0
  /-- completion offload word (spec/07_offloads.md R179) -/
  ofl : Nat := 0
  /-- an NVMe/TCP unit has taken the frame over; sessions it has been served for (spec/07_offloads.md R173, R197) -/
  taken : Bool := false
  asked : List Nat := []
  /-- after TLS RX: which payload bytes are inner plaintext -/
  marks : List Bool := []
  dstRing : Nat := 0
  /-- its place in the order in which frames were handed to its MAC -/
  handed : Nat := 0
  /-- the generation of its destination ring's function when it was held -/
  dstGen : Nat := 0
deriving DecidableEq, Repr, Inhabited

/-- A frame a MAC has begun and not ended: its handle, its bytes as sent without FCS, a stomp that is due, fragments sent
beside the first, whether it waits at a cut point, and generated frames that follow what is on the wire
(spec/03_ports.md R72, R74, R76, R78). -/
structure TxNow where
  h : Nat := 0
  data : Bytes := []
  stomp : Bool := false
  frags : Nat := 0
  cut : Bool := false
  after : List Bytes := []
deriving DecidableEq, Repr, Inhabited

/-- One frame of a transmit job: copies not yet gone, whether one left, the first failure (R313). -/
structure Seg where
  copies : Nat := 0
  /-- a copy left its MAC; a copy left it unstomped -/
  left : Bool := false
  good : Bool := false
  status : Nat := 0
deriving DecidableEq, Repr, Inhabited

/-- A started job (spec/12_queues_and_rings.md R303, R313). -/
structure Job where
  ring : Nat := 0
  func : Nat := 0
  gen : Nat := 0
  index : Nat := 0
  tag : Nat := 0
  /-- the entry's 64 bytes -/
  entry : Bytes := []
  /-- programme epoch and stamp of the entry's fetch -/
  epoch : Nat := 0
  fetchStamp : Nat := 0
  /-- it started after a destroy of its context was accepted (spec/07_offloads.md R175) -/
  noCtx : Bool := false
  /-- every frame has been produced -/
  produced : Bool := false
  segs : SMap Seg := []
  status : Nat := 0
  ofl : Nat := 0
  result : Nat := 0
  wantStamp : Bool := false
  stamp : Option (Nat × Nat) := none
  stampLost : Bool := false
  launchLate : Bool := false
  /-- TLS retransmission: record bytes so far, record number, bytes still to be skipped (spec/07_offloads.md R191) -/
  retx : Option (Bytes × Nat × Nat) := none
deriving DecidableEq, Repr, Inhabited

/-- A completion entry still to be written, without its PHASE (spec/12_queues_and_rings.md R312). -/
structure Cpl where
  /-- key of the completion ring, or of the HEAD ring that completes -/
  target : Nat := 0
  head : Bool := false
  /-- key and number of the submitting ring, index of the entry -/
  ring : Nat := 0
  index : Nat := 0
  stamp : Nat := 0
  keyLo : Nat := 0
  ofl : Nat := 0
  len : Nat := 0
  /-- bits [31:18] of the word at 0x14 -/
  flags : Nat := 0
  tag : Nat := 0
  status : Nat := 0
  kind : Nat := 0
deriving DecidableEq, Repr, Inhabited

/-- An L2 entry (spec/04_parsing_and_tables.md, "The L2 table"). -/
structure L2Entry where
  mac : Nat := 0
  owner : Nat := 0
  destFn : Bool := false
  discard : Bool := false
  toManager : Bool := false
  tag : Nat := 0
  isVni : Bool := false
  valid : Bool := false
  static : Bool := false
  hit : Bool := false
  stale : Bool := false
  learned : Bool := false
  index : Nat := 0
  dest : Nat := 0
deriving DecidableEq, Repr, Inhabited

/-- A sweeper's pass (R101, R102, R108): running, start and pace, next entry. -/
structure Sweep where
  running : Bool := false
  start : Nat := 0
  ageS : Nat := 0
  next : Nat := 0
  /-- flow halves: entries aged out (R108) -/
  aged : Nat := 0
deriving DecidableEq, Repr, Inhabited

/-- A flow entry (R103): the 64 key bytes and the 48 result bytes. -/
structure FlowEntry where
  key : Bytes := []
  result : Bytes := []
  valid : Bool := false
  static : Bool := false
  hit : Bool := false
  stale : Bool := false
  mirror : Bool := false
deriving DecidableEq, Repr, Inhabited

/-- A line of a flow cache (R107): the key of the entry it holds, and the copy in HBM, which the line's supersedes until it is
written back. -/
structure FlowLine where
  key : Bytes := []
  hbm : FlowEntry := {}
deriving DecidableEq, Repr, Inhabited

/-- An installed prefix: what its result entry says, and the entry's index (R109). -/
structure Route where
  valid : Bool := false
  ref : Nat := 0
  nextHop : Nat := 0
  flags : Nat := 0
  user : Nat := 0
deriving DecidableEq, Repr, Inhabited

/-- The LPM tries (R109 to R113): firmware's own copy of the installed prefixes (key 256 × prefix bits + length), and the memories
that lookups read: slot entries and nodes by family and stage (Machine.lpmKey), result entries by index. Paths through a damaged
entry, by family and root slot, with the elapsed time at which firmware has rebuilt them. -/
structure Lpm where
  v4 : SMap Route := []
  v6 : SMap Route := []
  slots : SMap Nat := []
  nodes : SMap Bytes := []
  results : SMap Nat := []
  damaged : List (Bool × Nat × Nat) := []
deriving DecidableEq, Repr, Inhabited

/-- A channel message: its header word with SRC, EPOCH and GEN filled in, and its payload words
(spec/05_brew_engines.md R129 to R132). -/
structure ChanMsg where
  header : Nat := 0
  words : List Nat := []
  /-- address of the word that posted it (R136); elapsed time of the post; its number among its sender's posts, 0 for a
  message no word posted -/
  at_ : Nat := 0
  since : Nat := 0
  id : Nat := 0
deriving DecidableEq, Repr, Inhabited

/-- A memory or table result on its way to a thread: its destinations with their values (spec/06_microcode.md R157,
R158). -/
structure Pending where
  /-- a table result, else a memory result -/
  table : Bool := false
  /-- operands scoreboarded for it -/
  dests : List Nat := []
  /-- values for the first of them; the others are left unchanged -/
  values : List Nat := []
  /-- a table result: table and key of the operation; elapsed time of its request -/
  tableNo : Nat := 0
  key : List Nat := []
  since : Nat := 0
  /-- a memory result that comes poisoned -/
  bad : Bool := false
deriving DecidableEq, Repr, Inhabited

/-- The states of a hardware thread (spec/05_brew_engines.md, "Thread states"). -/
inductive ThState
  | idle | ready | stalled | waiting | parked | halted | fenced
deriving DecidableEq, Repr, Inhabited

/-- What a STALLED thread's next word lacks: operands whose result is pending, a credit at an endpoint, one of the lookup
queue's credits, or what a DONE word waits for (spec/05_brew_engines.md R117, R123). -/
inductive Lack
  | operands (ops : List Nat)
  | credit (dest : Nat)
  | lookup
  | done
deriving DecidableEq, Repr, Inhabited

/-- A thread as it stood before a word that posted a host-access request, until the request has been translated: a
translation fault puts it back (spec/05_brew_engines.md R136). -/
structure Undo where
  /-- the post's number -/
  id : Nat := 0
  stack : List Nat := []
  deep : SMap Nat := []
  flags : Nat := 0
  board : List Nat := []
  pend : List Pending := []
  ops : SMap Nat := []
  dirty : Nat := 0
  stageHdr : Nat := 0
  stage : SMap Nat := []
  inbox : List ChanMsg := []
  events : Nat := 0
  /-- bytes the word stored to: space, place and the byte before -/
  mem : List (Nat × Nat × Byte) := []
deriving DecidableEq, Repr, Inhabited

/-- One hardware thread (spec/05_brew_engines.md, "State of one hardware thread"). -/
structure Thread where
  st : ThState := .idle
  pc : Nat := 0
  /-- call stack, top first -/
  stack : List Nat := []
  /-- entries of the call stack above its depth, by position, as they were left -/
  deep : SMap Nat := []
  /-- Z, N, C, V in bits 0 to 3, U0 to U3 in bits 4 to 7 -/
  flags : Nat := 0
  /-- operands whose result is pending -/
  board : List Nat := []
  pend : List Pending := []
  /-- general registers 0 to 63, metadata 64 to 127, window words 128 to 191, by operand number -/
  ops : SMap Nat := []
  dirty : Nat := 0
  stageHdr : Nat := 0
  stage : SMap Nat := []
  inbox : List ChanMsg := []
  /-- latched event bits -/
  events : Nat := 0
  /-- the TIMER field has been reached since it was written -/
  timerDone : Bool := false
  /-- mask of the WAIT the thread is parked in, and elapsed time since which it waits -/
  mask : Nat := 0
  waitAt : Nat := 0
  /-- a vendor routine has posted its message and waits for the REPLY -/
  romWait : Bool := false
  /-- what the thread is STALLED for -/
  lack : Lack := .done
  /-- messages it has posted, the number of the last one; what a translation fault of one of them puts back -/
  posts : Nat := 0
  undo : List Undo := []
  /-- packet binding: handle, generation, function, epoch; elapsed time of dispatch -/
  pkt : Option Nat := none
  gen : Nat := 0
  func : Nat := 0
  epoch : Nat := 0
  since : Nat := 0
  /-- elapsed time it has been halted in this packet, and when the halt began -/
  haltTime : Nat := 0
  haltAt : Nat := 0
  /-- the state a halt left, and that one step is asked for -/
  before : ThState := .idle
  stepping : Bool := false
  /-- the address at which a breakpoint does not fire again until some other word has issued (R143) -/
  skipBp : Option Nat := none
  /-- code of the outstanding or last fault; elapsed time since which its record waits -/
  fault : Nat := 0
  faultAt : Nat := 0
  /-- its record was forwarded to Barista -/
  escalated : Bool := false
  /-- a host-access request that met a translation fault -/
  faultAddr : Nat := 0
  /-- faults met while one is outstanding, with code and address, taken at the boundary after its decision (R134, R135) -/
  later : List (Nat × Nat) := []
deriving DecidableEq, Repr, Inhabited

/-- A cluster beside its registers: CURRENT as committed there, the supervisor's restart due, ALL_WAIT tested. -/
structure Cluster where
  /-- during a spare swap's drain, by logical engine: 1 + the physical engine swapped out (R116); its threads stand among
  State.threads behind the first 1,024 -/
  old : SMap Nat := []
  /-- by logical engine: 1 + elapsed time of its last ALL_WAIT record, 0 before the first (R140) -/
  allWait : SMap Nat := []
  /-- the supervisor is to restart at the new image's entry at its next WAIT (R148) -/
  supRestart : Bool := false
  /-- elapsed time since which no packet thread is busy (spec/18_power_reset_package.md R406) -/
  idleSince : Nat := 0
  gated : Bool := false
deriving DecidableEq, Repr, Inhabited

/-- What the credited queues and the handover checks keep (spec/01_architecture.md R22, R27): elapsed time at which a watched
queue last returned a credit, by queue; the queues that CREDIT_STALL events named, oldest first; failed cell checks, counted
against the pipeline by its unit identifier, for receive DMA against 65,536 + host port. -/
structure Watch where
  credits : SMap Nat := []
  stalled : List WatchedQueue := []
  cellChecks : SMap Nat := []
deriving DecidableEq, Repr, Inhabited

/-- A control-store bank: the image's data regions and constants (spec/06_microcode.md R148, R165). -/
structure Bank where
  /-- identity of the TSRAM and HBM regions in use -/
  region : Nat := 0
  /-- their sizes as its image asks for them: TSRAM_KIB + 2^32 × HBM_MIB -/
  size : Nat := 0
  consts : List Nat := []
  /-- IMAGE_ID of its patch image -/
  patchId : Nat := 0
deriving DecidableEq, Repr, Inhabited

/-- An ESP SA (spec/07_offloads.md, the context table and R184 to R186). -/
structure EspSa where
  /-- 0 FREE, 1 ACTIVE, 2 EXPIRED, 3 FENCED -/
  state : Nat := 0
  inbound : Bool := false
  tunnel : Bool := false
  esn : Bool := false
  udpEncap : Bool := false
  key256 : Bool := false
  outer6 : Bool := false
  copyDscp : Bool := false
  owner : Nat := 0
  home : Nat := 0
  spi : Nat := 0
  window : Nat := 0
  seq : Nat := 0
  bytes : Nat := 0
  packets : Nat := 0
  softBytes : Nat := 0
  hardBytes : Nat := 0
  softPkts : Nat := 0
  hardPkts : Nat := 0
  sport : Nat := 0
  dport : Nat := 0
  outer : Bytes := []
  key : Bytes := []
  salt : Bytes := []
  /-- the replay bitmap B: bit k stands for number SEQ − k -/
  bitmap : Nat := 0
  /-- the soft lifetime has been announced -/
  softTold : Bool := false
  /-- a destroy was accepted: new requests find no context (R175) -/
  dying : Bool := false
deriving DecidableEq, Repr, Inhabited

/-- Where one direction of an NVMe/TCP stream stands in its PDU (R195, R197): the bytes up to the data, bytes of the PDU
passed, the running CRC-32C of its data, and the data digest bytes seen. -/
structure PduPos where
  head : Bytes := []
  pos : Nat := 0
  crc : Nat := 0xFFFFFFFF
  tail : Bytes := []
deriving DecidableEq, Repr, Inhabited

/-- A session (spec/07_offloads.md, the session context and R190 to R198). -/
structure Session where
  /-- 0 FREE, 1 ACTIVE, 3 FENCED -/
  state : Nat := 0
  tlsTx : Bool := false
  tlsRx : Bool := false
  nvme : Bool := false
  key256 : Bool := false
  hdgst : Bool := false
  ddgst : Bool := false
  owner : Nat := 0
  home : Nat := 0
  rxRing : Nat := 0
  txNextSeq : Nat := 0
  txRec : Nat := 0
  /-- the record in progress as sent so far: header, ciphertext, tag bytes -/
  txDone : Bytes := []
  rxExpSeq : Nat := 0
  rxRec : Nat := 0
  rxDone : Bytes := []
  /-- 0 SYNC, 1 SEARCH, 2 ARMED -/
  rxState : Nat := 0
  rxArmSeq : Nat := 0
  nvTxSeq : Nat := 0
  nvTx : PduPos := {}
  nvRxSeq : Nat := 0
  nvRx : PduPos := {}
  /-- 0 SYNC, 1 SEARCH, 2 ARMED, 3 STOPPED -/
  nvState : Nat := 0
  txKey : Bytes := []
  txIv : Bytes := []
  rxKey : Bytes := []
  rxIv : Bytes := []
  dying : Bool := false
deriving DecidableEq, Repr, Inhabited

/-- A MACsec SA (R187 to R189). -/
structure MacsecSa where
  state : Nat := 0
  rx : Bool := false
  an : Nat := 0
  port : Nat := 0
  ssci : Nat := 0
  sci : Nat := 0
  nextPn : Nat := 0
  octets : Nat := 0
  pkts : Nat := 0
  key : Bytes := []
  salt : Bytes := []
  softTold : Bool := false
deriving DecidableEq, Repr, Inhabited

/-- A placement entry (R196), with the ring and index of the job that registered it. -/
structure Place where
  addr : Nat := 0
  len : Nat := 0
  ring : Nat := 0
  index : Nat := 0
deriving DecidableEq, Repr, Inhabited


/-- A scheduler node: its 32 configuration bytes, its shaper credit and its round robin (spec/08_traffic_manager.md R204,
R210, R211). -/
structure Node where
  cfg : Bytes := []
  /-- the configuration its shaper uses until the next scheduling decision, where a write has changed it since (R212) -/
  old : Option Bytes := none
  /-- shaper credit in 1/125 of 2^-16 byte, and device time in stamp ticks up to which it has grown -/
  credit : Int := 0
  creditAt : Nat := 0
  /-- deficit in bytes; by PRIO, 1 + the child whose turn it is -/
  deficit : Int := 0
  turns : SMap Nat := []
  /-- queue level: frames, oldest first; frames dropped at admission since creation -/
  frames : List Nat := []
  dropped : Nat := 0
  /-- observation: largest depth and delay with their times, bins, samples and the last clear (R223, R224) -/
  maxDepth : Nat := 0
  depthAt : Nat := 0
  maxDelay : Nat := 0
  delayAt : Nat := 0
  depthBins : SMap Nat := []
  delayBins : SMap Nat := []
  samples : Nat := 0
  cleared : Nat := 0
deriving DecidableEq, Repr, Inhabited

/-- Observation beside the queues' own records (R223): the first bin to saturate since the last clear has been announced; the
microsecond of device time last sampled. -/
structure Obs where
  saturated : Bool := false
  at_ : Option Nat := none
deriving DecidableEq, Repr, Inhabited

/-- A gate control list (R215, R216): GCL_ADMIN or GCL_OPER registers of a port. -/
structure GateList where
  en : Bool := false
  cycle : Nat := 1000000
  baseSec : Nat := 0
  baseNs : Nat := 0
  entries : List Nat := []
deriving DecidableEq, Repr, Inhabited


/-- A fairness group's copy (spec/09_release_and_evidence.md R229 to R231): source and destination entries as 64-bit words. -/
structure Group where
  en : Bool := false
  delay : Nat := 0
  src : List Nat := []
  dst : List Nat := []
deriving DecidableEq, Repr, Inhabited

/-- A policing bucket of a source (R234): level in 1/8,000 byte, and elapsed time of the last fill. -/
structure Bucket where
  level : Nat := 0
  at_ : Nat := 0
deriving DecidableEq, Repr, Inhabited

/-- One stamp FIFO entry (R243): the short stamp, its TX_SEQ, the job it is merged into, the host ring its frame came
from, and whether a host job owns it (R245, R306). -/
structure StampEntry where
  stamp : Nat := 0
  txSeq : Nat := 0
  job : Option Nat := none
  ring : Option Nat := none
  owned : Bool := false
deriving DecidableEq, Repr, Inhabited

/-- A loss of stamps not yet reported by a GAP record (R244). -/
structure StampLoss where
  count : Nat := 0
  first : Nat := 0
  from_ : Nat := 0
  to_ : Nat := 0
  /-- an episode is on, and device time (stamp) of its last GAP record -/
  active : Bool := false
  told : Nat := 0
deriving DecidableEq, Repr, Inhabited

/-- A journalled ring's open interval (R251): index of its first entry, and its entries' bytes. -/
structure JRing where
  first : Nat := 0
  entries : List Bytes := []
  /-- short stamp of device time at the first entry; stamp of the last entry -/
  since : Nat := 0
  last : Nat := 0
deriving DecidableEq, Repr, Inhabited


/-- A mirror pair's state beside its registers (spec/10_redundancy.md R266 to R269). -/
structure Mir where
  pair : Nat := 0
  peerMac : Nat := 0
  /-- MSEQ of the next message sent; of the next expected, once one has come; elapsed time of the last -/
  mseq : Nat := 0
  expect : Option Nat := none
  rxAt : Nat := 0
  silent : Bool := false
  /-- kept HEAD payloads, newest last; the latest FRER entries by context and RELEASE keys by group -/
  heads : List Bytes := []
  frer : SMap Bytes := []
  rel : SMap Bytes := []
  /-- release floors by group after a takeover: short stamp -/
  floors : SMap (Option Nat) := []
  /-- the resync under way: elapsed time its latest entry was sent, or it began, and the keys of the entries left (R266) -/
  resync : Option Nat := none
  left : List Bytes := []
  /-- elapsed time of the last periodic messages -/
  periodAt : Nat := 0
  /-- elapsed time of the last message sent, and messages that could not be sent -/
  txAt : Nat := 0
  txDrops : Nat := 0
deriving DecidableEq, Repr, Inhabited

/-- A sequence context (spec/10_redundancy.md R256 to R262): its 16 configuration bytes and its state. -/
structure FrerCtx where
  cfg : Bytes := []
  /-- a recovery reset is pending; it was counted -/
  fresh_ : Bool := true
  rcv : Nat := 0
  hist : Nat := 0
  /-- bits of the history that stand for numbers since the reset (log 41) -/
  span : Nat := 0
  /-- GEN: the next sequence number -/
  gen : Nat := 0
  /-- elapsed time at which a frame last passed -/
  passedAt : Option Nat := none
  /-- digests of the 64 most recent numbers passed: number, digest, port; newest last -/
  digests : List (Nat × Nat × Nat) := []
deriving DecidableEq, Repr, Inhabited

/-- A mismatch log entry (R262). -/
structure Mismatch where
  ctx : Nat
  seq : Nat
  portPassed : Nat
  portDisc : Nat
  digestPassed : Nat
  digestDisc : Nat
  when_ : Nat
deriving DecidableEq, Repr, Inhabited


/-- Who waits for a host answer: a translation, a page response or read data (spec/01_architecture.md R35,
spec/11_host_interface.md R292). -/
inductive Waiter
  | nobody
  /-- a descriptor fetch of a ring -/
  | fetch (ring : Nat)
  /-- a buffer read of a job -/
  | buffer (job : Nat)
  /-- the oldest held frame of a receive ring -/
  | rx (ring : Nat)
  /-- a completion ring's next entry, a HEAD ring's status block -/
  | cpl (ring : Nat)
  | head (ring : Nat)
  | copy (channel : Nat)
  | thread (t : Nat)
  | journal
deriving DecidableEq, Repr, Inhabited

/-- One entry of a host port's translation cache (spec/11_host_interface.md R286). -/
structure AtsEntry where
  port : Nat
  fn : Nat
  pasid : Option Nat
  base : Nat
  tbase : Nat
  size : Nat
  rd : Bool
  wr : Bool
deriving DecidableEq, Repr, Inhabited

/-- An outstanding Translation Request (R285, R288). -/
structure XReq where
  fn : Nat
  pasid : Option Nat := none
  page : Nat
  write : Bool := false
  tainted : Bool := false
  waiter : Waiter := .nobody
  /-- elapsed time of its issue, and its completion timeout in µs as set then (R292) -/
  since : Nat := 0
  us : Nat := 0
deriving DecidableEq, Repr, Inhabited

/-- A page request, outstanding or (index none) waiting for its function's allocation (R289). -/
structure PReq where
  fn : Nat
  pasid : Option Nat := none
  page : Nat
  write : Bool := false
  sent : Bool := true
  since : Nat := 0
  waiter : Waiter := .nobody
deriving DecidableEq, Repr, Inhabited

/-- One request of a read, at most Max_Read_Request_Size bytes (R271): its 14-bit tag, none while the port has 8,192 requests
outstanding; elapsed time of its issue and its completion timeout in µs as set then (R292); its data, once they have come. -/
structure ReadPart where
  addr : Nat
  len : Nat
  tag : Option Nat := none
  since : Nat := 0
  us : Nat := 0
  data : Option Bytes := none
deriving DecidableEq, Repr, Inhabited

/-- An outstanding non-posted read with its requests, in address order (R271, R292, R293). -/
structure HostRead where
  fn : Nat
  gen : Nat := 0
  pasid : Option Nat := none
  addr : Nat
  len : Nat
  parts : List ReadPart := []
  who : Waiter := .nobody
  /-- its data are dropped when they come: Bus Master Enable cleared, or an FLR (R294, R346) -/
  discarded : Bool := false
deriving DecidableEq, Repr, Inhabited

/-- An Invalidate Request being handled (R287). -/
structure Inval where
  port : Nat
  tag : Nat
  fn : Nat
  since : Nat := 0
  reads : List Nat := []
  slow : Bool := false
deriving DecidableEq, Repr, Inhabited
/-- A host link (R271, R272): in L0, its rate (0 below 64 GT/s, 1 64 GT/s, 2 128 GT/s) and whether it is narrow. -/
structure HLink where
  up : Bool := false
  rate : Nat := 0
  narrow : Bool := false
deriving DecidableEq, Repr, Inhabited


/-- A cached descriptor: its index, its bytes, and the epoch and short stamp of its fetch (spec/12_queues_and_rings.md
R302, R303). -/
structure CacheEntry where
  index : Nat
  bytes : Bytes
  epoch : Nat
  stamp : Nat
  /-- status of the placement its fetch registered (spec/07_offloads.md R196) -/
  ofl : Nat := 0
deriving DecidableEq, Repr, Inhabited

/-- A push slot: its 64 bytes and which of its eight 8-byte words are written since the last doorbell (R302). -/
structure PushSlot where
  bytes : Bytes := []
  mask : Nat := 0
deriving DecidableEq, Repr, Inhabited

/-- A descriptor ring on a queue page (spec/12_queues_and_rings.md). -/
structure Ring where
  fn : Nat := 0
  gen : Nat := 0
  /-- the 64 bytes of the ring context; the pipeline in use -/
  ctx : Bytes := []
  pipe : Nat := 0
  /-- QM_QSTATE; 0 NONE: no such ring -/
  state : Nat := 0
  cause : Nat := 0
  /-- posted index, next entry not yet started, oldest not yet completed or consumed -/
  pi : Nat := 0
  next : Nat := 0
  oldest : Nat := 0
  /-- entries past the oldest that are complete or consumed; elapsed time of the latest -/
  done : List Nat := []
  doneAt : Nat := 0
  cache : List CacheEntry := []
  push : SMap PushSlot := []
  /-- indices a descriptor fetch in flight covers: first and count -/
  fetching : Option (Nat × Nat) := none
  /-- receive: frames on the hold list, oldest first -/
  hold : List Nat := []
  /-- key of the completion ring it completes to -/
  cq : Nat := 0
  /-- completion ring: consumer index, entries written, arming, pending list -/
  ci : Nat := 0
  written : Nat := 0
  armed : Bool := false
  armCi : Nat := 0
  firstCoal : Option Nat := none
  /-- elapsed time at which each entry from the consumer index on was written -/
  times : List Nat := []
  pend : List Cpl := []
  /-- HEAD ring: failed jobs, elapsed time of the last status write, HEAD last written -/
  failed : Nat := 0
  headAt : Option Nat := none
  headShown : Nat := 0
  /-- the ring's own counts, numbered as the queue manager counters -/
  ctr : SMap Nat := []
deriving DecidableEq, Repr, Inhabited

/-- An ECI command that firmware has accepted: its code, LEN and payload words, and for the admin queue the entry's TAG,
response address and index (spec/13_control_interface.md R322, R334). -/
structure EciCmd where
  code : Nat := 0
  len : Nat := 0
  words : List Nat := []
  tag : Nat := 0
  resp : Nat := 0
  index : Nat := 0
  /-- elapsed time of its acceptance, or from which its time counts (R333) -/
  at_ : Nat := 0
  /-- its acknowledgement timeout has expired (R323) -/
  abandoned : Bool := false
  /-- the code that a payload which could not be taken gives it, 0 for none (R328) -/
  rc : Nat := 0
deriving DecidableEq, Repr, Inhabited

/-- A function's mailbox beside its registers, and what firmware keeps of its driver (R321 to R325). -/
structure Mailbox where
  cmd : Option EciCmd := none
  /-- elapsed time and timeout in µs of the taken MBX_CMD write -/
  at_ : Nat := 0
  us : Nat := 0
  absent : Bool := false
  /-- after a peer reset only FW_READY is set until the driver writes READY or MBX_CMD -/
  waitReady : Bool := false
  /-- elapsed time since which each DB_FROM_FW bit is set and unmasked -/
  setAt : SMap (Option Nat) := []
deriving DecidableEq, Repr, Inhabited

/-- A long command of a function (R324): its ticket, path and payload; its return code and response once it is over. -/
structure LongCmd where
  ticket : Nat := 0
  path : EciPath := .mailbox
  cmd : EciCmd := {}
  final : Option (Nat × List Nat) := none
  /-- elapsed time at which it was accepted -/
  since : Nat := 0
deriving DecidableEq, Repr, Inhabited


/-- A function level reset under way (spec/14_tenants.md R346 to R348): elapsed time of its beginning, the shared engines
that have acknowledged, and the STATE of the function before it. -/
structure Flr where
  since : Nat := 0
  acks : List Nat := []
  before : Nat := 0
deriving DecidableEq, Repr, Inhabited

/-- A copy channel beside its registers (spec/15_copy_engine.md). -/
structure CopyCh where
  /-- the descriptor in progress; none between descriptors -/
  desc : Bytes := []
  /-- descriptors started since GO -/
  started : Nat := 0
  /-- COPY_CRC: the CRC of the bytes up to PROGRESS; COMPARE: the first difference met -/
  crc : Option Nat := none
  diff : Option Nat := none
  /-- the request line of a paced channel -/
  line : Bool := false
  /-- the data are done and the flush read is out: STATUS and RESULT to be written back -/
  flush : Option (Nat × Nat) := none
  /-- YIELDED: a page request is out -/
  yielded : Bool := false
deriving DecidableEq, Repr, Inhabited



/-- One entry of a spare-swap plan: unit, action (1 SWAP_IN, 2 RESTORE, 3 RETIRE) and argument
(spec/17_errors_and_service.md, "The spare-swap plan"). -/
structure PlanEntry where
  unit : Nat
  action : Nat
  arg : Nat
deriving DecidableEq, Repr, Inhabited

/-- An image that EPOCH_STAGE named: the bytes firmware read, and the length the command gave
(spec/06_microcode.md R164, R166). -/
structure ShadowImage where
  bytes : Bytes := []
  len : Nat := 0
deriving DecidableEq, Repr, Inhabited

/-- The change being staged, staged or armed (spec/01_architecture.md, "Epochs"): KIND, the images, the bank they were
written into, the forwarding programme block and the plan. Gate lists and groups have shadow copies of their own. -/
structure Shadow where
  kind : Nat := 0
  cust : Option ShadowImage := none
  patch : Option ShadowImage := none
  bank : Nat := 0
  grd : Bytes := []
  plan : List PlanEntry := []
  /-- KIND of the last change before it -/
  last : Nat := 0
deriving DecidableEq, Repr, Inhabited

/-- A row of a bank that soft repair mapped to a repair row, and whether a retraining has made it permanent
(spec/16_memory.md R382, R384). -/
structure HbmRepair where
  pc : Nat
  bank : Nat
  row : Nat
  permanent : Bool := false
deriving DecidableEq, Repr, Inhabited

/-- The HBM controllers beside their registers (spec/16_memory.md R377 to R385): open rows with the elapsed time of their
last access and postponed refreshes with the elapsed time the last fell due, by 16 × pseudo-channel + bank; elapsed time
of each stack's last request; repairs; parity failures by pseudo-channel, 1 failed, 2 retrained since. -/
structure Hbm where
  rows : SMap (Option (Nat × Nat)) := []
  post : SMap Nat := []
  due : SMap Nat := []
  reqAt : SMap Nat := []
  repairs : List HbmRepair := []
  parity : SMap Nat := []
deriving DecidableEq, Repr, Inhabited

/-- Wear of a power domain or an SRAM instance (spec/17_errors_and_service.md R396, R397): the ring oscillator's last
sample in kHz, the elapsed time and the stamp it was taken at, the stress count, as saved in flash too, corrected errors in
the last full hour and since manufacture, and which alerts stand. -/
structure Wear where
  khz : Nat := 0
  sampled : Option Nat := none
  stamp : Nat := 0
  stress : Nat := 0
  saved : Nat := 0
  hour : Nat := 0
  total : Nat := 0
  aged : Bool := false
  em : Bool := false
  sram : Bool := false
deriving DecidableEq, Repr, Inhabited

/-- The flash device (spec/18_power_reset_package.md, "Flash"): the slot the boot directory names, the contents of the
regions that were written, by number, the firmware slots that hold no valid image, and the regions whose verify failed. -/
structure Flash where
  active : Nat := 0
  regions : SMap Bytes := []
  badSlot : SMap Bool := []
  badRegion : SMap Bool := []
  /-- the ports' equaliser presets and the management port's address, as the board record gave them at the last boot (R415) -/
  presets : SMap Nat := []
  mgmtMac : Nat := 0
deriving DecidableEq, Repr, Inhabited

/-- The supply of the adapter (spec/18_power_reset_package.md R402 to R409): every rail up; VIN rails removed; SHUTDOWN after a
thermal trip; VIN_AON lost too. -/
inductive Power
  | on | aon | shut | off
deriving DecidableEq, Repr, Inhabited

/-- The supplies, rails and clocks beside their registers. -/
structure Supply where
  power : Power := .on
  /-- elapsed time of the last boot; none before the first -/
  bootAt : Option Nat := none
  /-- firmware slots that failed the boot watchdog since the last power-on (R412) -/
  slotFailed : List Nat := []
  /-- elapsed time at which the throttle LEVEL last changed (R408), and at which the core PLL lost lock (R410) -/
  levelAt : Nat := 0
  pllAt : Option Nat := none
  /-- the pins THERMTRIP_N and THERM_ALERT_N are asserted; AON_OK is high -/
  thermTrip : Bool := false
  thermAlert : Bool := false
  aonOk : Bool := false
  /-- regulator phases that are disconnected (R404) -/
  phasesOut : List Nat := []
deriving DecidableEq, Repr, Inhabited

/-- The whole state of the adapter. -/
structure State where
  /-- the commands that are waiting, first in, first out -/
  pending : List Instr := []
  /-- the registers that do not hold their reset value; key is 512 × index + register number -/
  regs : SMap Word := []
  /-- elapsed time in ticks of the 1 GHz time clock (spec/00_scope.md R423) -/
  now : Nat := 0
  /-- the model's own: what the adapter has sent, oldest first -/
  out : List Out := []
  /-- the model's own: free values used so far -/
  free : Nat := 0
  /-- host-read latches of 64-bit registers by function and register (spec/00_scope.md R14) -/
  latches : SMap (Option Nat) := []
  /-- elapsed time of the last raise of each limited event, by limit key (R423) -/
  lastRaise : SMap (Option Nat) := []
  /-- functions by number: 0 to 3 the PFs, 4 + v the VFs -/
  fns : SMap FnCfg := []
  /-- MSI-X entries, key 2,052 × vector + function -/
  msix : SMap Msix := []
  /-- the PF that holds the manager role (spec/14_tenants.md R344) -/
  manager : Nat := 0
  journal : Journal := {}
  /-- fenced units and objects, key 65,536 × object + unit (spec/17_errors_and_service.md R389) -/
  fenced : SMap Bool := []
  fenceLog : List FenceEntry := []
  fwLog : List FwLogEntry := []
  fwLogLost : Nat := 0
  time : DevTime := {}
  tsu : Tsu := {}
  oven : Oven := {}
  /-- flow-control holds in force, key 9 × port + class, 8 for PAUSE (spec/03_ports.md R74) -/
  holds : SMap (Option Hold) := []
  /-- elapsed time of the last XOFF while XOFF stands, same keys (R76) -/
  xoff : SMap (Option Nat) := []
  /-- elapsed time at which a port's local fault began (R69) -/
  localFault : SMap Nat := []
  /-- verify frames sent and elapsed time of the last, by port (R78) -/
  verify : SMap (Nat × Nat) := []
  /-- rate windows by event source (spec/00_scope.md R423) -/
  rates : SMap Rate := []
  ncsi : NcSi := {}
  /-- packets by Carafe handle, and the next handle -/
  pkts : SMap Packet := []
  nextPkt : Nat := 1
  /-- frames in progress, by 2 × port, + 1 for the preemptable one (spec/03_ports.md R72, R78) -/
  txNow : SMap (Option TxNow) := []
  /-- entries discarded under R23, by unit identifier -/
  discards : SMap Nat := []
  /-- started jobs by number, and the next number -/
  jobs : SMap Job := []
  nextJob : Nat := 1
  /-- completions ready to be written, in completion order -/
  ready : List Cpl := []
  /-- parse-state entries (32 bytes), recognition entries (16 bytes) and start states of both copies; keys
  (4 × copy + pipeline) × 256 + state, × 64 + entry, and 4 × copy + pipeline (R88) -/
  grdStates : SMap Bytes := []
  grdRecog : SMap Bytes := []
  /-- RX_START + 256 × TX_START; unlisted: both 255 -/
  grdStart : SMap Nat := []
  /-- L2 entries, key 524,288 × pipeline + entry -/
  l2 : SMap L2Entry := []
  /-- learns in flight by pipeline: entry and elapsed time at which it leaves the list (R100) -/
  l2Flight : SMap (List (Nat × Nat)) := []
  /-- sweeps: 0 to 3 the L2 tables, 4 and 5 the flow halves -/
  sweeps : SMap Sweep := []
  /-- flow entries, key 33,554,432 × half + location -/
  flow : SMap FlowEntry := []
  /-- lines of the flow caches, most recently used first, by 65,536 × half + set (R107); flow holds the current entries -/
  flowCache : SMap (List FlowLine) := []
  lpm : Lpm := {}
  /-- hardware threads by endpoint ID, and clusters -/
  threads : SMap Thread := []
  clusters : SMap Cluster := []
  /-- the cluster each pipeline's dispatcher offers its next packet first, 0 to 3 (R121) -/
  lastCluster : SMap Nat := []
  /-- the next reorder number of each pipeline, and the flow numbers of packets dispatched and not yet gone, oldest
  first: (pipeline, number, FLOW) (R127) -/
  nextSeq : SMap Nat := []
  order : List (Nat × Nat × Nat) := []
  /-- fault records that reached Barista: thread and code -/
  barista : List (Nat × Nat) := []
  /-- packets in the pipelines' dispatch queues, oldest first -/
  dispatchQ : List Nat := []
  /-- channel messages posted and not yet accepted, oldest first -/
  chan : List ChanMsg := []
  /-- verdicts dropped by pipeline × 256 + REASON -/
  dropReasons : SMap Nat := []
  watch : Watch := {}
  /-- control-store words of patch RAM and the customer region, key 131,072 × cluster + 65,536 × bank + address -/
  cs : SMap Nat := []
  /-- control-store words that read as uncorrectable, same keys; ROM words under bank 0 -/
  csBad : SMap Bool := []
  /-- banks 0 and 1 (the same in every cluster), and the next region number -/
  banks : SMap Bank := []
  nextRegion : Nat := 1
  /-- LOCAL, key 524,288 × cluster + address; TSRAM, key 8,388,608 × (2 × region + die) + address; HBM regions of
  images, key 2^33 × region + address -/
  localMem : SMap Byte := []
  tsram : SMap Byte := []
  hbmMem : SMap Byte := []
  /-- offload contexts by index; placement entries by 65,536 × session + CID -/
  espSas : SMap EspSa := []
  sessions : SMap Session := []
  macsec : SMap MacsecSa := []
  places : SMap Place := []
  /-- pending context notifications, oldest first: owner, kind, index, reason (R185, R192; OFL_NOTIFY) -/
  oflNotes : List (Nat × Nat × Nat × Nat) := []
  /-- the outer IPv4 identification counter of each group (R184) -/
  outerId : SMap Nat := []
  /-- scheduler nodes, key 131,072 × level + index -/
  nodes : SMap Node := []
  /-- members of replication groups -/
  mcast : SMap (List Nat) := []
  obs : Obs := {}
  /-- gate lists staged, and committed ones that wait for their change time, by port (R216) -/
  gclStaged : SMap (Option GateList) := []
  gclPending : SMap (Option GateList) := []
  /-- fairness groups: administrative, staged, operational and, while a commit drains, old copies (R231, R236) -/
  groupsAdmin : SMap Group := []
  groupsStaged : Option (SMap Group) := none
  groupsOper : SMap Group := []
  groupsOld : Option (SMap Group) := none
  /-- buckets by 1,024 × group + source entry -/
  buckets : SMap (Option Bucket) := []
  /-- receive and host counts of order keys, by port (R241) -/
  rxSeq : SMap Nat := []
  hostSeq : SMap Nat := []
  /-- TX_SEQ, stamp FIFO, stamp loss and named stamp completion ring by port (R243 to R245) -/
  txSeq : SMap Nat := []
  stampFifo : SMap (List StampEntry) := []
  stampLoss : SMap StampLoss := []
  stampRing : SMap (Option Nat) := []
  /-- journalled rings by ring number + 131,072 for receive rings -/
  jrings : SMap (Option JRing) := []
  /-- order key of the last frame released, by group -/
  lastKey : SMap (Option Nat) := []
  mir : Mir := {}
  /-- FRER member entries (16 bytes) and sequence contexts by number, and the mismatch log -/
  members : SMap Bytes := []
  frer : SMap FrerCtx := []
  mmLog : List Mismatch := []
  /-- both ports' translation caches, least recently used entry first -/
  ats : List AtsEntry := []
  /-- outstanding Translation Requests, page requests and reads, by the number the adapter gave them -/
  xreqs : SMap XReq := []
  preqs : SMap PReq := []
  reads : SMap HostRead := []
  nextReq : Nat := 1
  /-- Invalidate Requests in arrival order -/
  invals : List Inval := []
  /-- the dirty-page filter: slot, page and log index of each entry (spec/14_tenants.md R354) -/
  migFilter : List (Nat × Nat × Nat) := []
  /-- page responses that came late or for an index not outstanding (R289) -/
  lateResponses : Nat := 0
  /-- host links by 2 × port + link, link b of a bifurcated port being 1; PERST_N asserted and bifurcation by port -/
  hlinks : SMap HLink := []
  perst : SMap Bool := []
  bifurcated : SMap Bool := []
  /-- rings by key: number + 131,072 × class, class 0 transmit and job, 1 receive, 2 completion, 3 the completion
  ring and 4 the entry ring of the admin queue of the function whose number it is -/
  rings : SMap Ring := []
  /-- mailboxes, admin commands in service and long commands by function -/
  mbox : SMap Mailbox := []
  adminCmd : SMap (Option EciCmd) := []
  longs : SMap (Option LongCmd) := []
  /-- firmware serves commands; the recovery personality runs (spec/18_power_reset_package.md R411, R412) -/
  fwUp : Bool := false
  recovery : Bool := false
  /-- by Barista core: 1 + the turn its T0 served last, turn 2 × function for the mailbox, one more for the admin queue -/
  lastTurn : SMap Nat := []
  /-- function level resets under way, by function -/
  flr : SMap (Option Flr) := []
  /-- completions of a function being quiesced may stay pending: its 100 ms have passed (R349) -/
  quiesceLate : SMap Bool := []
  /-- copy channels by 64 × unit + channel, and 1 + the channel each unit served last -/
  copies : SMap CopyCh := []
  copyLast : SMap Nat := []
  /-- the HBM window of the copy engine, by address -/
  copyWin : SMap Byte := []
  /-- the change that is staged beside the state in force -/
  shadow : Option Shadow := none
  /-- the plan of the last commit, until its drain ends -/
  swaps : List PlanEntry := []
  /-- physical units a swap has retired; spare rows and columns in use by SRAM instance; the clock the spare PLL has
  taken, 0 core, 1 time -/
  worn : SMap Bool := []
  sram : SMap (Nat × Nat) := []
  pll : Option Nat := none
  /-- the physical Barista core at each of the four positions, and positions whose loss firmware has met (R390) -/
  cores : List Nat := [0, 1, 2, 3]
  coresLost : List Nat := []
  /-- a FATAL error's reset is due: elapsed time of the error; elapsed time of the end of the boot that followed the last
  one (R392) -/
  fatal : Option Nat := none
  fatalBoot : Option Nat := none
  hbm : Hbm := {}
  /-- wear by unit identifier, and elapsed time of the last save of the wear record -/
  wear : SMap Wear := []
  wearSaved : Nat := 0
  flash : Flash := {}
  /-- the firmware slot running -/
  fwSlot : Nat := 0
  /-- recovery: the function that holds the flash, and elapsed time of its last flash command (R338) -/
  flashHolder : Option Nat := none
  flashAt : Nat := 0
  supply : Supply := {}
deriving DecidableEq, Repr, Inhabited

/-- The adapter right after power-on reset, before its boot: every register at its table value, nothing queued,
nothing stored; POWER_ON boots it (log 1). -/
def State.reset : State := {}

end Sys2Proof.Machine
end

