-- ==== Sys2Proof/Machine/Ops.lean ====
section
/-! DEFINITION. The operations every family shares: registers and their fields, what goes out, free values, events
and messages, short stamps, the journal's queue, the firmware-owned write log and fences. -/

namespace Sys2Proof.Machine

/-! ### Registers -/

/-- The key of register r, element i, in State.regs. -/
def regKey (r : Reg) (i : Nat) : Nat := r.ctorIdx + 512 * i

/-- The value the tables' reset columns give, and the fused values (spec/17_errors_and_service.md R400). -/
def Reg.resetVal (r : Reg) (i : Nat) : Word :=
  match r with
  | .ATS_FN_LIMIT => if i < 4 then 32768 else 512
  | .SVC_ID_PART => BitVec.ofNat 64 (0x3216A100 + Config.fuseSpeedBin.toNat)
  | .SVC_ID_VENDOR => BitVec.ofNat 64 Config.fuseVendor.toNat
  | .SVC_ID_LOT => BitVec.ofNat 64 (Config.fuseLot i).toNat
  | .SVC_ID_POS => BitVec.ofNat 64 Config.fusePos.toNat
  | .SVC_ID_CERT => BitVec.ofNat 64 (Config.fuseCert i).toNat
  | _ => BitVec.ofNat 64 (r.desc.fields.foldl (fun a f => a + f.reset * 2 ^ f.lo) 0)

/-- The value of register r, element i. -/
def State.reg (s : State) (r : Reg) (i : Nat) : Word := s.regs.getD (regKey r i) (r.resetVal i)

/-- Writes a whole register; a register at its reset value is not listed. -/
def State.setReg (s : State) (r : Reg) (i : Nat) (v : Word) : State :=
  { s with regs := s.regs.setD (regKey r i) v (r.resetVal i) }

/-- A register as a number. -/
def State.val (s : State) (r : Reg) (i : Nat) : Nat := (s.reg r i).toNat

/-- Writes a whole register from a number. -/
def State.put (s : State) (r : Reg) (i : Nat) (v : Nat) : State := s.setReg r i (BitVec.ofNat 64 v)

/-- Reads a field of element i of its register. -/
def State.rd (s : State) (f : Fld) (i : Nat) : Nat := bits (s.reg f.reg i).toNat f.hi f.lo

/-- Writes a field, leaving the register's other bits. -/
def State.wr (s : State) (f : Fld) (i : Nat) (v : Nat) : State :=
  s.setReg f.reg i (BitVec.ofNat 64 (putBits (s.reg f.reg i).toNat f.hi f.lo v))

/-- A one-bit field as a truth value. -/
def State.on (s : State) (f : Fld) (i : Nat) : Bool := s.rd f i != 0

/-- Adds n to a counter register, wrapping at 2^64. -/
def State.add (s : State) (r : Reg) (i n : Nat) : State := s.setReg r i (s.reg r i + BitVec.ofNat 64 n)

/-- Counts one in counter k of instance n of a counter group. -/
def State.count (s : State) (r : Reg) (n k : Nat) : State := s.add r (64 * n + k) 1

/-- Counts m in counter k of instance n of a counter group. -/
def State.countBy (s : State) (r : Reg) (n k m : Nat) : State := s.add r (64 * n + k) m

/-- Raises a high-water counter to v. -/
def State.hwm (s : State) (r : Reg) (n k v : Nat) : State :=
  if s.val r (64 * n + k) < v then s.put r (64 * n + k) v else s

/-! ### Small tools -/

/-- f applied to the state when c holds. -/
def State.when (s : State) (c : Bool) (f : State → State) : State := if c then f s else s

/-- f applied to the state for each element of a list, first element first. -/
def State.each {α : Type} (s : State) (l : List α) (f : α → State → State) : State := l.foldl (fun t a => f a t) s

/-- Records what the adapter sends. -/
def State.send (s : State) (o : Out) : State := { s with out := s.out ++ [o] }

/-- A fresh free value: one the spec does not state (log 3). -/
def State.fresh (s : State) : Nat := (Config.freeValue s.free).toNat

/-- The state after a free value is used. -/
def State.used (s : State) : State := { s with free := s.free + 1 }

/-- The first of k numbers below n, from i upwards and then from 0, that is not taken. -/
def freeFrom (n : Nat) (taken : Nat → Bool) : Nat → Nat → Option Nat
  | 0, _ => none
  | k + 1, i => if taken (i % n) then freeFrom n taken k (i + 1) else some (i % n)

/-- A number below n that is not taken; the spec leaves the choice open, so the search starts at a free value. -/
def firstFree (n start : Nat) (taken : Nat → Bool) : Option Nat := freeFrom n taken n start

/-! ### Device time and short stamps -/

/-- Device time as a short stamp: units of 125 ps, modulo 2^64 (spec/02_time_base.md R50). -/
def DevTime.short (t : DevTime) : Nat := (t.sec * 8000000000 + t.ns * 8 + t.frac / 2 ^ 45) % 2 ^ 64

/-- Device time in stamp ticks without wrapping. -/
def DevTime.ticks (t : DevTime) : Nat := t.sec * 8000000000 + t.ns * 8 + t.frac / 2 ^ 45

/-- Device time in nanoseconds since 0. -/
def DevTime.nanos (t : DevTime) : Nat := t.sec * 1000000000 + t.ns

/-- The short stamp of now. -/
def State.stamp (s : State) : Nat := s.time.short

/-- The 12 bytes of TIME in journal records: SEC, FRAC, NS (spec/09_release_and_evidence.md R250). -/
def DevTime.bytes (t : DevTime) : Bytes := leBytes 6 t.sec ++ leBytes 2 (t.frac / 2 ^ 32) ++ leBytes 4 t.ns

/-! ### Messages and events -/

/-- A function's configuration. -/
def State.fn (s : State) (f : Nat) : FnCfg := s.fns.get f

/-- Changes a function's configuration. -/
def State.modFn (s : State) (f : Nat) (g : FnCfg → FnCfg) : State := { s with fns := s.fns.mod f g }

/-- The host port of a function: PF0, PF1 and their VFs on port 0 (spec/11_host_interface.md R272, R274; VF numbers in
PF order). -/
def State.pfOf (s : State) (f : Nat) : Nat :=
  if f < 4 then f else
    let v := f - 4
    let n0 := (s.fn 0).numVfsShare; let n1 := (s.fn 1).numVfsShare; let n2 := (s.fn 2).numVfsShare
    if v < n0 then 0 else if v < n0 + n1 then 1 else if v < n0 + n1 + n2 then 2 else 3

/-- The host port of a function. -/
def State.hostPort (s : State) (f : Nat) : Nat := s.pfOf f / 2

/-- The function may issue requests: Bus Master Enable is set, it is in D0 and neither quiesced nor under FLR
(spec/11_host_interface.md R294, spec/14_tenants.md R346, R349, spec/18_power_reset_package.md R407). -/
def State.mayDma (s : State) (f : Nat) : Bool :=
  (s.fn f).bme && !(s.fn f).d3 && s.rd F.HIF_FN_STATE_STATE f != 3 && s.rd F.HIF_FN_STATE_STATE f != 4 && s.rd F.HIF_FN_STATE_STATE f != 5

/-- The key of a function's MSI-X entry. -/
def msixKey (f vec : Nat) : Nat := f + 2052 * vec

/-- R282's conditions under which a message may go. -/
def State.mayMessage (s : State) (f vec : Nat) : Bool :=
  !(s.msix.get (msixKey f vec)).masked && !(s.fn f).fnMask && (s.fn f).msixEn && s.mayDma f

/-- One message on a vector, or its pending bit (spec/11_host_interface.md R282). -/
def State.message (s : State) (f vec : Nat) : State :=
  if (s.fn f).grants.vectors ≤ vec then s
  else if s.mayMessage f vec then
    s.send (.message f vec (s.msix.get (msixKey f vec)).addr (s.msix.get (msixKey f vec)).data)
  else { s with msix := s.msix.mod (msixKey f vec) (fun e => { e with pending := true }) }

/-- The key of word w of a PF's EVT_PEND. -/
def pendIx (pf w : Nat) : Nat := 64 * pf + w

/-- Raises an event source (spec/11_host_interface.md R283, R284, spec/17_errors_and_service.md R394). -/
def State.raise (s : State) (src : Nat) : State :=
  if s.on F.EVT_ROUTE_EN src then
    let pf := s.rd F.EVT_ROUTE_PF src
    let ix := pendIx pf (src / 32)
    if bit (s.val .EVT_PEND ix) (src % 32) then s
    else (s.put .EVT_PEND ix (s.val .EVT_PEND ix + 2 ^ (src % 32))).message pf (s.rd F.EVT_ROUTE_VECTOR src)
  else s

/-- Raises a limited event: at its first occurrence and then not before interval ns of elapsed time have passed
(spec/00_scope.md R423). The key tells the limits of one source apart. -/
def State.raiseLimited (s : State) (src key interval : Nat) : State :=
  match s.lastRaise.getD (src + 576 * key) none with
  | some t => if s.now < t + interval then s
      else ({ s with lastRaise := s.lastRaise.setD (src + 576 * key) (some s.now) none }).raise src
  | none => ({ s with lastRaise := s.lastRaise.setD (src + 576 * key) (some s.now) none }).raise src

/-- An event limited to once per millisecond. -/
def State.raiseMs (s : State) (src : Nat) : State := s.raiseLimited src 0 1000000

/-- Sets a bit of a function's EVT_FN, with a message on EVT_FN_VEC when it was 0 (R284). -/
def State.raiseFn (s : State) (f : Nat) (fld : Fld) : State :=
  if s.on fld f then s else (s.wr fld f 1).message f (s.rd F.EVT_FN_VEC_VECTOR f)

/-- Firmware sets a bit of DB_FROM_FW; while an unmasked bit is set EVT_FN.DB_FROM_FW is 1, and its rise sends one
message (spec/13_control_interface.md, "The mailbox page"). An absent driver gets no further bits (R325). -/
def State.doorbellSync (s : State) (f : Nat) : State :=
  let unmasked := (s.reg .DB_FROM_FW f &&& ~~~ (s.reg .DB_FROM_FW_MASK f)).toNat % 2 ^ 32
  if unmasked = 0 then s.wr F.EVT_FN_DB_FROM_FW f 0 else s.raiseFn f F.EVT_FN_DB_FROM_FW

/-- A power domain is gated: STATE 0, or 2 where its state is retained (spec/18_power_reset_package.md R406). -/
def State.domainOff (s : State) (d : Nat) (retained : Bool) : State :=
  (s.wr F.PWR_DOMAIN_STATE d (if retained then 2 else 0)).raise Ev.PWR_DOMAIN_OFF

/-- A gated power domain is powered again. -/
def State.domainOn (s : State) (d : Nat) : State := (s.wr F.PWR_DOMAIN_STATE d 1).raise Ev.PWR_DOMAIN_ON

/-! ### Units and fences (spec/17_errors_and_service.md R388) -/

/-- The key of a fenced unit or object. -/
def fenceKey (unit obj : Nat) : Nat := unit + 65536 * obj

/-- The unit, or object, is fenced. -/
def State.isFenced (s : State) (unit obj : Nat) : Bool := s.fenced.get (fenceKey unit obj)

/-- Identifiers of spec/17_errors_and_service.md R388. -/
def unitCluster (c : Nat) : Nat := 0x1000 + c
def unitEngine (c p : Nat) : Nat := 0x2000 + 9 * c + p
def unitPipe (p : Nat) : Nat := 0x3000 + p
def unitPort (n : Nat) : Nat := 0x4000 + n
def unitHbm (pc : Nat) : Nat := 0x5000 + pc
def unitCopy (u : Nat) : Nat := 0x6000 + u
def unitCore (k : Nat) : Nat := 0x7000 + k
def unitOfl (g : Nat) : Nat := 0x8000 + g
def unitSlice (k : Nat) : Nat := 0x9000 + k
def unitBank (b : Nat) : Nat := 0xA000 + b
def unitLink (l : Nat) : Nat := 0xB000 + l
def unitObject (kind : Nat) : Nat := 0xC000 + kind

/-- The core PLL has lost lock: its output is held stopped, and every credited queue waits (spec/18_power_reset_package.md
R410). -/
def State.coreStopped (s : State) : Bool := s.supply.pllAt.isSome

/-! ### HBM addresses (spec/16_memory.md R374, R385) -/

/-- Where an access lies: pseudo-channel, column, bank and row. -/
structure HbmPlace where
  pc : Nat
  column : Nat
  bank : Nat
  row : Nat
deriving DecidableEq, Repr, Inhabited

/-- Pseudo-channels of a region, and the number of its first. -/
def State.regionPcs (s : State) (r : Nat) : Nat := if s.rd F.HBM_REGION_STACKS r = 3 then 64 else 32
def State.regionFirst (s : State) (r : Nat) : Nat := if s.rd F.HBM_REGION_STACKS r = 2 then 32 else 0

/-- The size of a region in bytes: a slab row holds P × 16 KiB. -/
def State.regionBytes (s : State) (r : Nat) : Nat := s.rd F.HBM_REGION_ROWS r * s.regionPcs r * 16384

/-- The place of byte offset o of a region, by its order: 0 SEQ, 1 BANKX, 2 FINE. -/
def State.hbmPlace (s : State) (r o : Nat) : HbmPlace :=
  let a := o / 64
  let p := s.regionPcs r
  let base := s.rd F.HBM_REGION_ROW_BASE r
  match s.rd F.HBM_REGION_ORDER r with
  | 2 =>
    let u := a / 4
    { pc := s.regionFirst r + u % p, column := 4 * (u / p % 4) + a % 4, bank := u / (4 * p) % 16, row := base + u / (64 * p) }
  | 1 => { pc := s.regionFirst r + a % p, column := a / p % 16, bank := ((a / (16 * p)) ^^^ (a / (256 * p))) % 16, row := base + a / (256 * p) }
  | _ => { pc := s.regionFirst r + a % p, column := a / p % 16, bank := a / (16 * p) % 16, row := base + a / (256 * p) }

/-- The 64-byte accesses that n bytes from a on take, each by its offset (R375). -/
def hbmAccesses (a n : Nat) : List Nat := if n = 0 then [] else (List.range ((a % 64 + n + 63) / 64)).map (fun k => (a / 64 + k) * 64)

/-- The access at an offset of a region maps to a fenced pseudo-channel. -/
def State.hbmOut (s : State) (region o : Nat) : Bool := s.isFenced (unitHbm (s.hbmPlace region o).pc) 0

/-- Some of the bytes read would come from a fenced pseudo-channel: they are poisoned (R385). -/
def State.hbmPoisoned (s : State) (region a n : Nat) : Bool := (hbmAccesses a n).any (s.hbmOut region)

/-- Writes that map to a fenced pseudo-channel are discarded and counted (R385). -/
def State.hbmDiscards (s : State) (region a n : Nat) : State :=
  s.each ((hbmAccesses a n).filter (s.hbmOut region)) (fun o t => t.count .HBM_CTR ((s.hbmPlace region o).pc / 32) C.HBM_FENCED_DISCARDS)

/-! ### The journal's queue -/

/-- The keys of a GAP record of cause 2 (spec/09_release_and_evidence.md R249, R250). -/
def Journal.gap (j : Journal) : JRec :=
  { kind := 5, body := fit 40 (leBytes 1 2 ++ leBytes 3 0 ++ leBytes 4 j.lost ++ leBytes 8 j.lostDigest
      ++ leBytes 8 j.lostFrom ++ leBytes 8 j.lostTo) }

/-- Records that wait in the backlog (R249). -/
def State.backlogSync (s : State) : State := s.wr F.JNL_STATUS_BACKLOG 0 s.journal.backlog.length

/-- Records the backlog holds: each fenced pseudo-channel takes its share of the 1,048,576 (R249; spec/16_memory.md R385). -/
def State.backlogCap (s : State) : Nat := 16384 * ((List.range 64).filter (fun p => !s.isFenced (unitHbm p) 0)).length

/-- The GAP record of a loss joins the backlog once it has space. -/
def State.journalGap (s : State) : State :=
  if s.journal.lost = 0 then s
  else if s.journal.backlog.length < s.backlogCap then
    ({ s with journal := { s.journal with backlog := s.journal.backlog ++ [s.journal.gap], lost := 0, lostDigest := 0 } }).backlogSync
  else s

/-- Records join the backlog together, behind those that wait, or are lost together (R249, R252). -/
def State.journalPush (s : State) (rs : List JRec) : State :=
  let s := s.journalGap
  let n := s.journal.backlog.length
  if n + rs.length ≤ s.backlogCap then
    let s := ({ s with journal := { s.journal with backlog := s.journal.backlog ++ rs } }).backlogSync
    s.when (decide (n < 786432 ∧ 786432 ≤ n + rs.length)) (fun t => t.raise Ev.JNL_BACKLOG_HIGH)
  else
    let j := s.journal
    let s := { s with journal := { j with
      lost := j.lost + rs.length
      lostDigest := j.lostDigest + (rs.filter (fun (r : JRec) => r.kind == 4)).length
      lostFrom := if j.lost = 0 then s.stamp else j.lostFrom
      lostTo := s.stamp } }
    (s.countBy .JNL_CTR 0 C.JNL_RECORDS_LOST rs.length).raise Ev.JNL_RECORDS_LOST

/-- The parts of a CFG record: subkind, and the data cut into 37-byte parts (R251, R252). -/
def cfgParts (sub parts : Nat) (data : Bytes) : List JRec :=
  (List.range parts).map (fun p =>
    { kind := 3, body := leBytes 1 sub ++ leBytes 1 p ++ leBytes 1 parts ++ fit 37 (data.drop (37 * p)) })

/-- A CFG record joins the journal's queue. -/
def State.journalCfg (s : State) (sub parts : Nat) (data : Bytes) : State := s.journalPush (cfgParts sub parts data)

/-- A CLOCK record: device time, cause, and the time unit's and oven's state (R250). -/
def State.journalClock (s : State) (cause : Nat) : State :=
  s.journalPush [{ kind := 1, body := fit 40 (s.time.bytes ++
    leBytes 4 (cause + 256 * s.rd F.TSU_STATUS_HOLD_STATE 0 + 2 ^ 10 * s.rd F.TSU_STATUS_PLL_LOCKED 0 +
      2 ^ 11 * s.rd F.TSU_STATUS_REF_PRESENT 0 + 2 ^ 12 * s.rd F.TSU_STATUS_REF_ACTIVE 0 +
      2 ^ 14 * s.rd F.OVN_STATUS_STATE 0) ++
    leBytes 8 (s.val .TSU_FREQ_OFFSET 0) ++ leBytes 8 (s.val .TSU_PPS_IN 0) ++
    leBytes 4 (s.rd F.OVN_STATUS_DUTY 0 + 2 ^ 16 * s.rd F.OVN_SENSE_CODE 0) ++ leBytes 4 (s.rd F.OVN_EFC_CODE 0)) }]

/-- A STEER record (R250). -/
def State.journalSteer (s : State) (what new old : Nat) : State :=
  s.journalPush [{ kind := 2, body := fit 40 (s.time.bytes ++ leBytes 4 what ++ leBytes 8 new ++ leBytes 8 old) }]

/-- A HOLDOVER record (R250). -/
def State.journalHoldover (s : State) (enter : Bool) (lastSteer : Nat) : State :=
  s.journalPush [{ kind := 6, body := fit 40 (s.time.bytes ++ leBytes 4 (b2n enter) ++
    leBytes 8 (s.val .TSU_FREQ_OFFSET 0) ++ leBytes 8 lastSteer) }]

/-! ### The firmware-owned write log -/

/-- A write that is not applied is logged: oldest entry replaced when the log is full, loss counted
(spec/13_control_interface.md R335). -/
def State.logFwWrite (s : State) (offset data : Nat) : State :=
  let e : FwLogEntry := { offset := offset, data := data % 2 ^ 32, stamp := s.stamp }
  let s := if s.fwLog.length < 256 then { s with fwLog := s.fwLog ++ [e] }
    else { s with fwLog := s.fwLog.drop 1 ++ [e], fwLogLost := s.fwLogLost + 1 }
  s.raiseLimited Ev.FW_OWNED_WRITE 0 1000000000

/-! ### Accesses of the manager's register space -/

/-- The outcome of every command: this block neither faults nor refuses. -/
abbrev Step := Host.Outcome State Fault Refusal

/-- A BAR2 access of function fn: f is done for the PF that holds the manager role; in the other manager-capable PF
the access is discarded and counted; other functions have no BAR2, and neither has the recovery personality nor an adapter
without its rails (spec/11_host_interface.md R277, R279). -/
def State.asManager (s : State) (fn : Nat) (f : State → State) : State :=
  if s.supply.power ≠ .on ∨ s.recovery then s
  else if fn = s.manager then f s
  else if fn = 0 ∨ fn = 2 then
    (s.count .HIF_CTR (fn / 2) C.HIF_BAR2_DENIED).raiseMs (Ev.HIF_BAR2_DENIED (fn / 2))
  else s

/-- A 64-bit register's value after a write of its whole, its low or its high word. -/
def merge (w : Width) (old v : Nat) : Nat :=
  match w with
  | .full => v % 2 ^ 64
  | .low => putBits old 31 0 v
  | .high => putBits old 63 32 v

/-- A value that a field's table does not call a reserved encoding (spec/00_scope.md R13). -/
def Legal.ok (l : Legal) (width v : Nat) : Bool :=
  match l with
  | .any => true
  | .range lo hi => decide (lo ≤ v ∧ v ≤ hi)
  | .signed b => decide (-(b : Int) ≤ Sys2Proof.signed width v ∧ Sys2Proof.signed width v ≤ (b : Int))

/-- The table row of a named field. -/
def Fld.desc (f : Fld) : FieldDesc :=
  (f.reg.desc.fields.find? (fun d => d.hi == f.hi && d.lo == f.lo)).getD default

/-- Writes a field unless the value is a reserved encoding. -/
def State.wrLegal (s : State) (f : Fld) (i v : Nat) : State :=
  if f.desc.legal.ok (f.hi + 1 - f.lo) (v % 2 ^ (f.hi + 1 - f.lo)) then s.wr f i v else s

/-- Writes the fields of a register that software may write, each unless its value is a reserved encoding (R9, R13). -/
def State.putFields (s : State) (r : Reg) (i v : Nat) : State :=
  s.each r.desc.fields (fun d t =>
    if (d.access == .RW || d.access == .RWL) && d.legal.ok (d.hi + 1 - d.lo) (bits v d.hi d.lo) then t.wr ⟨r, d.hi, d.lo⟩ i (bits v d.hi d.lo) else t)

/-- A value without rsvd bits and reserved encodings for a register. -/
def Reg.takes (r : Reg) (v : Nat) : Bool :=
  v == r.desc.fields.foldl (fun a d => a + bits v d.hi d.lo * 2 ^ d.lo) 0 &&
    r.desc.fields.all (fun d => d.legal.ok (d.hi + 1 - d.lo) (bits v d.hi d.lo))

/-- Some fairness group is operationally enabled (spec/02_time_base.md R43; spec/09_release_and_evidence.md R228). -/
def State.groupEnabled (s : State) : Bool := (List.range 64).any (fun g => s.on F.REL_GROUP_STATUS_EN g)

/-! ### Fences -/

/-- Error classes of spec/17_errors_and_service.md R387 as GLB_ERR_COUNT numbers them. -/
inductive ErrClass
  | corrected | contained | degraded | fatal
deriving DecidableEq, Repr, Inhabited

/-- The index of a class's GLB_ERR_COUNT register. -/
def ErrClass.ix : ErrClass → Nat
  | .corrected => 0 | .contained => 1 | .degraded => 2 | .fatal => 3

/-- Counts an error of a class. -/
def State.countError (s : State) (c : ErrClass) : State := s.add .GLB_ERR_COUNT c.ix 1

/-- A failure inside a fenced unit writes no log entry: the units that contain one (R391). -/
def State.insideFenced (s : State) (unit obj : Nat) : Bool :=
  s.isFenced unit obj ||
  (unit / 4096 == 2 && s.isFenced (unitCluster (unit % 4096 / 9)) 0) ||
  (unit == unitObject 3 && s.isFenced (unitCluster (obj / 64)) 0) ||
  (unit == unitObject 4 && s.isFenced (unitCopy (obj / 64)) 0)

/-- The log's head entry as GLB_FENCE_HEAD shows it. -/
def State.fenceHeadSync (s : State) : State :=
  match s.fenceLog with
  | [] => (((s.put .GLB_FENCE_HEAD 0 0).put .GLB_FENCE_HEAD 1 0).put .GLB_FENCE_HEAD 2 0).put .GLB_FENCE_HEAD 3 0
  | e :: _ =>
    (((s.put .GLB_FENCE_HEAD 0 (e.unit + 2 ^ 16 * e.cause + 2 ^ 24 * e.cls + 2 ^ 31)).put .GLB_FENCE_HEAD 1 e.object).put
      .GLB_FENCE_HEAD 2 (e.when_ % 2 ^ 32)).put .GLB_FENCE_HEAD 3 (e.when_ / 2 ^ 32)

/-- Fences a unit: one log entry, the class counted, GLB_FENCED and for DEGRADED GLB_DEGRADED (R387, R389, R391).
The unit's own registers and event are its family's. -/
def State.fence (s : State) (unit cause : Nat) (c : ErrClass) (obj : Nat) : State :=
  if s.insideFenced unit obj then s
  else
    let e : FenceEntry := { unit, cause, cls := c.ix, object := obj, when_ := s.stamp }
    let s := { s with fenced := s.fenced.set (fenceKey unit obj) true }
    let s := s.countError c
    let s := if s.fenceLog.length < 64 then ({ s with fenceLog := s.fenceLog ++ [e] }).fenceHeadSync
      else (s.wr F.GLB_FENCE_POP_FENCE_LOST 0 (s.rd F.GLB_FENCE_POP_FENCE_LOST 0 + 1)).raise Ev.GLB_FENCE_LOG_FULL
    let s := s.raise Ev.GLB_FENCED
    s.when (c == .degraded) (fun t => t.raise Ev.GLB_DEGRADED)

/-- Returns a unit or object to service. -/
def State.unfence (s : State) (unit obj : Nat) : State :=
  { s with fenced := s.fenced.set (fenceKey unit obj) false }

end Sys2Proof.Machine
end

