-- ==== Sys2Proof/Machine/Time.lean ====
section
/-! DEFINITION. The device time counter, steering, steps, slew, holdover, references, 1PPS and the calibration of
stamps (spec/02_time_base.md R38 to R57). -/

namespace Sys2Proof.Machine

/-! ### TSU_STATUS and CLOCK records -/

/-- A CLOCK record of a cause becomes due (spec/09_release_and_evidence.md R250). -/
def State.clockDue (s : State) (cause : Nat) : State :=
  { s with tsu := { s.tsu with clockDue := s.tsu.clockDue ++ [cause] } }

/-- Writes a field of TSU_STATUS; a change makes a CLOCK record due. -/
def State.tsuStatus (s : State) (f : Fld) (v : Nat) : State :=
  if s.rd f 0 = v then s else (s.wr f 0 v).clockDue 1

/-- SLEWING and STEP_ARMED follow the remainder and ARM. -/
def State.tsuSync (s : State) : State :=
  (s.tsuStatus F.TSU_STATUS_SLEWING (b2n (s.tsu.slewLeft != 0))).tsuStatus F.TSU_STATUS_STEP_ARMED
    (s.rd F.TSU_STEP_CTRL_ARM 0)

/-! ### The counter -/

/-- round to the nearest integer, an exact half away from zero. -/
def roundDiv (n : Int) (d : Nat) : Int :=
  if 0 ≤ n then (2 * n + d) / (2 * d) else -((2 * (-n) + d) / (2 * d))

/-- The increment of an OFFSET, in units of 2^-48 ns (R38). -/
def increment (offset : Int) : Nat := ((2 ^ 48 : Int) + roundDiv (offset * 2 ^ 32) 1000000000).toNat

/-- The increment of the next tick: recomputed on the tick after a write of TSU_FREQ_OFFSET (R38). -/
def State.tickIncr (s : State) : Nat :=
  if s.tsu.incrDue then increment (signed 64 (s.val .TSU_FREQ_OFFSET 0)) else s.val .TSU_INCR 0

/-- The accumulator's sum on the next tick of a slew. -/
def State.slewSum (s : State) : Nat := s.tsu.slewAcc + s.rd F.TSU_SLEW_RATE_RATE_NS 0 * 2 ^ 48 % 1000000000

/-- The magnitude the slew rate gives the next tick (R44). -/
def State.slewStep (s : State) : Nat :=
  s.rd F.TSU_SLEW_RATE_RATE_NS 0 * 2 ^ 48 / 1000000000 + (if 1000000000 ≤ s.slewSum then 1 else 0)

/-- The next tick ends the slew: the remainder is no larger than that tick's amount (R44, R64). -/
def State.slewEnds (s : State) : Bool := s.tsu.slewLeft != 0 && decide (s.tsu.slewLeft.natAbs ≤ s.slewStep)

/-- slew_add of the next tick (R44). -/
def State.slewAdd (s : State) : Int :=
  if s.tsu.slewLeft = 0 then 0
  else if s.tsu.slewLeft.natAbs < s.slewStep then s.tsu.slewLeft
  else if 0 < s.tsu.slewLeft then s.slewStep else -(s.slewStep : Int)

/-- Device time as a count of 2^-48 ns. -/
def DevTime.units (t : DevTime) : Nat := (t.sec * 1000000000 + t.ns) * 2 ^ 48 + t.frac

/-- Device time from a count of 2^-48 ns; seconds have 48 bits. -/
def DevTime.ofUnits (u : Nat) : DevTime :=
  { sec := u / 2 ^ 48 / 1000000000 % 2 ^ 48, ns := u / 2 ^ 48 % 1000000000, frac := u % 2 ^ 48 }

/-- Device time after counting one tick, no step applied. -/
def State.counted (s : State) : DevTime :=
  DevTime.ofUnits ((s.time.units : Int) + s.tickIncr + s.slewAdd).toNat

/-- The next tick counts across a second boundary. -/
def State.crosses (s : State) : Bool := s.tsu.counting && s.counted.sec != s.time.sec

/-- An armed step applies on the next tick: an absolute one at the next boundary, a relative one on the tick on
which Seconds becomes SECOND (R41). -/
def State.stepApplies (s : State) : Bool :=
  s.crosses && s.on F.TSU_STEP_CTRL_ARM 0 &&
    (s.on F.TSU_STEP_CTRL_ABS 0 || s.counted.sec == s.rd F.TSU_STEP_AT_SECOND 0)

/-- Device time after the next tick, an applying step included: an absolute one loads SECOND and adds what that tick
adds (log 4), a relative one adds AMOUNT with carry and borrow (R41). -/
def State.stepped (s : State) : DevTime :=
  if s.on F.TSU_STEP_CTRL_ABS 0 then
    DevTime.ofUnits ((s.rd F.TSU_STEP_AT_SECOND 0 * 1000000000 * 2 ^ 48 : Int) + s.tickIncr + s.slewAdd).toNat
  else DevTime.ofUnits ((s.counted.units : Int) + signed 64 (s.val .TSU_STEP 0) * 2 ^ 32).toNat

/-- The counter's part of a tick: increment in use, device time, slew remainder and accumulator. -/
def State.countTick (s : State) : State :=
  let incr := s.tickIncr
  let t := if s.stepApplies then s.stepped else s.counted
  let acc := if s.tsu.slewLeft = 0 || s.slewEnds then s.tsu.slewAcc else s.slewSum % 1000000000
  let left := s.tsu.slewLeft - s.slewAdd
  ({ s with time := t, tsu := { s.tsu with incrDue := false, slewLeft := left, slewAcc := acc } }).put .TSU_INCR 0 incr

/-- What a second boundary does: the 1PPS pulse and TIME_SECOND, and the second's CLOCK record becomes due
(R45, R57). -/
def State.secondBoundary (s : State) : State :=
  ((s.when (s.on F.TSU_PPS_OUT_PPS_EN 0) (fun t => t.send (.pps (t.rd F.TSU_PPS_OUT_WIDTH_US 0)
    (signed 32 (t.rd F.TSU_PPS_OUT_OFS_OFS_NS 0))))).raise Ev.TIME_SECOND).clockDue 0

/-- What an applied step leaves: RESULT, events and the STEER record (R41). -/
def State.stepDone (s : State) (abs : Bool) : State :=
  let s := (s.wr F.TSU_STEP_CTRL_ARM 0 0).wr F.TSU_STEP_CTRL_RESULT 0 1
  let s := (s.raise Ev.TIME_STEP_APPLIED).when abs (fun t => t.raise Ev.TIME_SET)
  s.journalSteer (if abs then 3 else 2) (if abs then s.rd F.TSU_STEP_AT_SECOND 0 else s.val .TSU_STEP 0) 0

/-- CLK10M_OUT rises on the tick that takes device time to t: it is driven, and t has reached a multiple of 100 ns by counting,
not by a step (R57). -/
def State.clkEdge (s : State) (t : DevTime) : Bool :=
  s.on F.TSU_PPS_OUT_CLK10M_EN 0 && !s.stepApplies && t.nanos / 100 != s.time.nanos / 100

/-- One tick of the time clock (R38, R41, R44, R45). Elapsed time counts every tick (spec/00_scope.md R423). -/
def State.tick (s : State) : State :=
  let s1 := { s with now := s.now + 1, tsu := { s.tsu with dlyOld := [] } }
  if s.tsu.counting then
    let s2 := s1.countTick
    let s3 := s2.when s.crosses State.secondBoundary
    let s4 := s3.when s.stepApplies (fun t => t.stepDone (s.on F.TSU_STEP_CTRL_ABS 0))
    let s5 := s4.when s.slewEnds (fun t => t.raise Ev.TIME_SLEW_DONE)
    (s5.when (s.clkEdge s2.time) (fun t => t.send .clk10m)).tsuSync
  else s1

/-- A tick of the 1 GHz time clock, whatever comes about on it. -/
def execTimeClockTick (s : State) : Step := .next s.tick

/-- The tick on which device time counts across a second boundary (R45); on another tick it does not come about. -/
def execTimeSecondBoundary (s : State) : Step := .next (if s.crosses then s.tick else s)

/-- The tick on which an armed step applies (R41). -/
def execTimeStepApplied (s : State) : Step := .next (if s.stepApplies then s.tick else s)

/-- The tick on which the slew remainder reaches zero (R44). -/
def execTimeSlewDone (s : State) : Step := .next (if s.tsu.counting && s.slewEnds then s.tick else s)

/-! ### Steering -/

/-- A steering write: TRACKING, and out of HOLDOVER with its event and record (R47). -/
def State.steering (s : State) : State :=
  let held := s.rd F.TSU_STATUS_HOLD_STATE 0 == 2
  let s := { s with tsu := { s.tsu with steerAt := s.now, steerStamp := s.stamp } }
  let s := s.tsuStatus F.TSU_STATUS_HOLD_STATE 1
  s.when held (fun t => (t.raise Ev.TIME_HOLDOVER_EXIT).journalHoldover false t.tsu.steerStamp)

/-- Sets OFFSET as a steering write; a change is journalled and recomputes the increment on the next tick
(R38, R47, R48). A reserved encoding leaves OFFSET (spec/00_scope.md R13). -/
def State.setOffset (s : State) (v : Nat) : State :=
  let old := s.val .TSU_FREQ_OFFSET 0
  let s := s.steering
  if (Legal.signed 32768000000).ok 64 v && v % 2 ^ 64 != old then
    ({ s.put .TSU_FREQ_OFFSET 0 v with tsu := { s.tsu with incrDue := true } }).journalSteer 1 (v % 2 ^ 64) old
  else s

/-- A write of TSU_FREQ_OFFSET. -/
def execTsuFreqOffsetWrite (fn : Nat) (w : Width) (v : Nat) (s : State) : Step :=
  .next (s.asManager fn (fun s => s.setOffset (merge w (s.val .TSU_FREQ_OFFSET 0) v)))

/-- Whether an arm is refused, and RESULT: 2 while a fairness group is enabled (R43), 3 when SECOND was already
reached or the step would carry device time below 0 s (R42). -/
def State.armRefusal (s : State) : Option Nat :=
  if s.groupEnabled then some 2
  else if s.on F.TSU_STEP_CTRL_ABS 0 then none
  else
    let sec := s.rd F.TSU_STEP_AT_SECOND 0
    let amount := signed 64 (s.val .TSU_STEP 0)
    if sec ≤ s.time.sec || (decide (amount < 0) && decide ((sec * 1000000000 * 2 ^ 16 : Nat) < amount.natAbs)) then some 3 else none

/-- Arms the step the registers describe, or refuses it (R42, R43). -/
def State.arm (s : State) : State :=
  match s.armRefusal with
  | some r => (s.wr F.TSU_STEP_CTRL_RESULT 0 r).raise Ev.TIME_STEP_DENIED
  | none => ((s.wr F.TSU_STEP_CTRL_ARM 0 1).wr F.TSU_STEP_CTRL_RESULT 0 0).tsuSync

/-- Disarms an armed step (R42). -/
def State.cancelStep (s : State) : State :=
  if s.on F.TSU_STEP_CTRL_ARM 0 then ((s.wr F.TSU_STEP_CTRL_ARM 0 0).wr F.TSU_STEP_CTRL_RESULT 0 0).tsuSync else s

/-- A manager write of TSU_STEP_CTRL. One with ARM and CANCEL both 1 while nothing is armed arms and then cancels, RESULT 0: DESIGN
CHOICE, log 192. While armed its ABS is ignored, and logged when it differs; a write with ARM is
a steering write (R42, R47). -/
def State.stepCtrlWrite (s : State) (arm abs cancel : Bool) : State :=
  let data := 2 ^ 31 * b2n arm + 2 ^ 30 * b2n abs + 2 ^ 29 * b2n cancel
  let armed := s.on F.TSU_STEP_CTRL_ARM 0
  let s := if armed then s.when (s.on F.TSU_STEP_CTRL_ABS 0 != abs) (fun t => t.logFwWrite 0x01000040 data)
    else s.wr F.TSU_STEP_CTRL_ABS 0 (b2n abs)
  let s := s.when arm State.steering
  let s := s.when (arm && !armed) State.arm
  s.when cancel State.cancelStep

/-- A write of STEP_CTRL with ARM = 1 (R41 to R43). -/
def execTsuStepArm (fn : Nat) (abs cancel : Bool) (s : State) : Step :=
  .next (s.asManager fn (fun s => s.stepCtrlWrite true abs cancel))

/-- A write of STEP_CTRL with CANCEL = 1 and ARM = 0 (R42). -/
def execTsuStepCancel (fn : Nat) (abs : Bool) (s : State) : Step :=
  .next (s.asManager fn (fun s => s.stepCtrlWrite false abs true))

/-- REMAINING as TSU_SLEW_LEFT shows it: in 2^-16 ns, rounded away from zero, so that it reads 0 only when nothing is
left (log 5). -/
def Tsu.remaining (t : Tsu) : Int :=
  if 0 ≤ t.slewLeft then (t.slewLeft + (2 ^ 32 - 1)) / 2 ^ 32 else -((-t.slewLeft + (2 ^ 32 - 1)) / 2 ^ 32)

/-- Replaces the slew remainder, as a steering write (R44). -/
def State.setSlew (s : State) (v : Nat) : State :=
  let old := unsigned 64 s.tsu.remaining
  let s := s.steering
  let s := { s with tsu := { s.tsu with slewLeft := signed 64 v * 2 ^ 32, slewAcc := 0 } }
  (s.journalSteer 4 (v % 2 ^ 64) old).tsuSync

/-- A write of TSU_SLEW_SET: a low word is held, a high word acts with it (R44). -/
def State.slewWrite (s : State) (w : Width) (v : Nat) : State :=
  match w with
  | .full => s.setSlew v
  | .low => { s with tsu := { s.tsu with slewHeld := some (v % 2 ^ 32) } }
  | .high =>
    let lo := s.tsu.slewHeld.getD 0
    ({ s with tsu := { s.tsu with slewHeld := none } }).setSlew (lo + v % 2 ^ 32 * 2 ^ 32)

/-- A write of TSU_SLEW_SET. -/
def execTsuSlewSetWrite (fn : Nat) (w : Width) (v : Nat) (s : State) : Step :=
  .next (s.asManager fn (fun s => s.slewWrite w v))

/-- Changes the slew rate and clears the accumulator (R44). -/
def State.setSlewRate (s : State) (v : Nat) : State :=
  let s := s.wrLegal F.TSU_SLEW_RATE_RATE_NS 0 v
  { s with tsu := { s.tsu with slewAcc := 0 } }

/-- A write of RATE_NS. -/
def execTsuSlewRateWrite (fn v : Nat) (s : State) : Step :=
  .next (s.asManager fn (fun s => s.setSlewRate v))

/-! ### Reads of device time -/

/-- The key of the host-read latch of function fn for the 32-bit word at an address. -/
def latchKey (fn addr : Nat) : Nat := fn + 2052 * addr

/-- TSU_TIME_NSF as it reads: Nanoseconds and the top 16 fraction bits. -/
def DevTime.nsf (t : DevTime) : Nat := t.ns * 2 ^ 16 + t.frac / 2 ^ 32

/-- A low-word read of TSU_TIME_NSF: all 96 bits are latched for the function's next reads (R46). -/
def execTsuTimeNsfRead (fn : Nat) (s : State) : Step :=
  if s.supply.power ≠ .on ∨ s.recovery then .next s
  else if fn = s.manager then
    let t := s.time
    let s := { s with latches := ((s.latches.setD (latchKey fn 0x01000004) (some (t.nsf / 2 ^ 32)) none).setD
      (latchKey fn 0x01000008) (some (t.sec % 2 ^ 32)) none).setD (latchKey fn 0x0100000C) (some (t.sec / 2 ^ 32)) none }
    .next (s.send (.readValue fn 0x01000000 (t.nsf % 2 ^ 32)))
  else .next (if fn = 0 ∨ fn = 2 then (s.asManager fn id).send (.readValue fn 0x01000000 0) else s)

/-! ### Holdover, references and 1PPS -/

/-- 2 s of elapsed time in TRACKING without a steering write (R47). -/
def execTimeHoldoverEnter (s : State) : Step :=
  .next (if s.rd F.TSU_STATUS_HOLD_STATE 0 = 1 ∧ s.tsu.steerAt + 2000000000 ≤ s.now then
    ((s.tsuStatus F.TSU_STATUS_HOLD_STATE 2).raise Ev.TIME_HOLDOVER_ENTER).journalHoldover true s.tsu.steerStamp
  else s)

/-- A write of TSU_BOARD_DLY, journalled; stamps use it from the next tick on (R54). -/
def State.setBoardDly (s : State) (port v : Nat) : State :=
  let old := (s.tsu.dlyOld.get port).getD (s.val .TSU_BOARD_DLY port)
  let s := ({ s with tsu := { s.tsu with dlyOld := s.tsu.dlyOld.set port (some old) } }).put .TSU_BOARD_DLY port (v % 2 ^ 32)
  s.journalCfg 0x07 1 (leBytes 2 port ++ leBytes 2 (s.rd F.TSU_BOARD_DLY_TX_PS port) ++ leBytes 2 (s.rd F.TSU_BOARD_DLY_RX_PS port))

/-- A write of TSU_BOARD_DLY. -/
def execTsuBoardDlyWrite (fn port v : Nat) (s : State) : Step :=
  .next (if port < 16 then s.asManager fn (fun s => s.setBoardDly port v) else s)

/-- A change of SEL holds the PLL until it relocks (R56). -/
def State.setRef (s : State) (sel : Nat) : State :=
  if 2 < sel ∨ sel = s.rd F.TSU_REF_SEL 0 then s
  else ((((s.wr F.TSU_REF_SEL 0 sel).wr F.TSU_STATUS_REF_ACTIVE 0 sel).wr F.TSU_STATUS_PLL_LOCKED 0 0).clockDue 3).raise
    Ev.TIME_REF_SWITCHED

/-- A write of TSU_REF. -/
def execTsuRefWrite (fn v : Nat) (s : State) : Step :=
  .next (s.asManager fn (fun s => s.setRef (v % 4)))

/-- The selected reference stops or leaves ±1,000 ppm: the PLL holds its frequency (R56). -/
def execTimeRefLost (s : State) : Step :=
  .next (if s.on F.TSU_STATUS_REF_PRESENT 0 then
    (((s.wr F.TSU_STATUS_REF_PRESENT 0 0).wr F.TSU_STATUS_PLL_LOCKED 0 0).raise Ev.TIME_REF_LOST).journalClock 1
  else s)

/-- The time PLL relocks to its reference; the counter starts with the first lock (R40, R56). -/
def State.pllLock (s : State) : State :=
  let s := (s.tsuStatus F.TSU_STATUS_PLL_LOCKED 1).tsuStatus F.TSU_STATUS_REF_PRESENT 1
  { s with tsu := { s.tsu with counting := true } }

/-- TIME_REF_RESTORED follows relock (R56). -/
def execTimeRefRestored (s : State) : Step :=
  .next (if s.on F.TSU_STATUS_PLL_LOCKED 0 then s else s.pllLock.raise Ev.TIME_REF_RESTORED)

/-- The time PLL itself loses lock (R56). -/
def execTimePllUnlock (s : State) : Step :=
  .next (if s.on F.TSU_STATUS_PLL_LOCKED 0 then (s.tsuStatus F.TSU_STATUS_PLL_LOCKED 0).raise Ev.TIME_PLL_UNLOCK else s)

/-- A raw stamp: the counter at the most recent tick plus the sampled phase (R49). -/
def State.rawStamp (s : State) (phase : Nat) : Nat := s.time.units + phase % 8 * 2 ^ 45

/-- A PPS_IN rising edge is stamped (R57). -/
def execPpsInCaptured (phase : Nat) (s : State) : Step :=
  let s := s.put .TSU_PPS_IN 0 (DevTime.ofUnits (s.rawStamp phase)).short
  .next (({ s with tsu := { s.tsu with ppsAt := some s.now } }).raise Ev.PPS_IN_CAPTURED)

/-- No PPS_IN edge follows within 1.1 s of the last (R57). -/
def execPpsInMissing (s : State) : Step :=
  match s.tsu.ppsAt with
  | some t => .next (if t + 1100000000 ≤ s.now then ({ s with tsu := { s.tsu with ppsAt := none } }).raise Ev.PPS_IN_MISSING else s)
  | none => .next s

/-! ### Stamps -/

/-- A calibration entry in use: VALID and its CHECK holds (R53). -/
def calValid (e : Bytes) : Bool := e.length == 32 && bit (leAt e 0 4) 31 && leAt e 28 4 == (crc32c (e.take 28)).toNat

/-- A full stamp: units of 2^-16 ns of device time. -/
def State.fullStamp (s : State) (phase : Nat) : Nat := s.rawStamp phase / 2 ^ 32

/-- A correction in femtoseconds, rounded once to the nearest 2^-16 ns (R52). -/
def stampUnits (fs : Int) : Int := (fs * 65536 * 2 + 1000000) / 2000000

/-- The terms of a port's calibration entry, in femtoseconds: fixed and lane terms and, on receive, deskew and the
position in the FEC codeword; zero without a valid entry (R52, R53). -/
def State.calFs (s : State) (port lane : Nat) (rx : Bool) (symbol : Nat) : Int :=
  match s.tsu.portCal.getD port none with
  | none => 0
  | some n =>
    let e := s.tsu.cal.get n
    if rx then
      (signed 32 (leAt e 4 4) + signed 16 (s.rd F.TSU_LANE_SKEW_RX_PS lane) + s.rd F.PRT_DESKEW_REF_WAIT_PS port) * 1000
        + (if bits (leAt e 0 4) 23 16 = 0 then 0 else ((leAt e 16 2 : Int) - symbol) * leAt e 12 4)
    else (signed 32 (leAt e 8 4) + signed 16 (s.rd F.TSU_LANE_SKEW_TX_PS lane)) * 1000

/-- The board delays that a port's stamps use: a write of TSU_BOARD_DLY counts from the next tick (R54). -/
def State.boardDly (s : State) (port : Nat) : Nat := (s.tsu.dlyOld.get port).getD (s.val .TSU_BOARD_DLY port)

/-- A receive stamp of a port, in units of 2^-16 ns; the port's number is its lowest lane (R52). A stamp below 0 s reads 0:
DESIGN CHOICE, log 191. -/
def State.rxStamp (s : State) (port phase symbol : Nat) : Nat :=
  ((s.fullStamp phase : Int) - stampUnits (s.calFs port port true symbol + bits (s.boardDly port) 15 0 * 1000)).toNat

/-- A transmit stamp of a port, in units of 2^-16 ns (R52). -/
def State.txStamp (s : State) (port phase : Nat) : Nat :=
  ((s.fullStamp phase : Int) + stampUnits (s.calFs port port false 0 + bits (s.boardDly port) 31 16 * 1000)).toNat

/-- The short stamp of a full stamp (R50). -/
def shortOf (full : Nat) : Nat := full / 2 ^ 13 % 2 ^ 64

end Sys2Proof.Machine
end

