-- ==== Sys2Proof/Machine/Packets.lean ====
section
/-! DEFINITION. Packets in Carafe: VLAN tags, the steering hash, occupancy and generated flow control, and the end of
a frame of a transmit job (spec/01_architecture.md R18, R23, R424; spec/03_ports.md R76;
spec/12_queues_and_rings.md R313). -/

namespace Sys2Proof.Machine

/-! ### Frames -/

/-- The EtherType place after at most n VLAN tags, and the tags' TCIs, outermost first (R424). -/
def vlanTags (f : Bytes) : Nat → Nat → Nat × List Nat
  | 0, o => (o, [])
  | n + 1, o =>
    if f.length ≥ o + 4 ∧ (beAt f o 2 = 0x8100 ∨ beAt f o 2 = 0x88A8) then
      let r := vlanTags f n (o + 4)
      (r.1, beAt f (o + 2) 2 :: r.2)
    else (o, [])

/-- The TCI of the outermost tag, none when the frame is untagged (R424). -/
def outerTci (f : Bytes) : Option Nat := (vlanTags f 1 12).2.head?

/-- The VLAN ID of the outermost tag, 0 when untagged. -/
def outerVid (f : Bytes) : Nat := (outerTci f).getD 0 % 4096

/-- Destination and source addresses as numbers, first octet most significant. -/
def dstMac (f : Bytes) : Nat := beAt f 0 6
def srcMac (f : Bytes) : Nat := beAt f 6 6

/-- The fields of the steering hash (R18). The VLAN ID enters as a 16-bit big-endian word with a zero high nibble: DESIGN
CHOICE, log 183. -/
def hashFields (f : Bytes) : Bytes :=
  let t := vlanTags f 2 12
  let o := t.1 + 2
  let base := f.take 12 ++ (match outerTci f with
    | some tci => beBytes 2 (tci % 4096)
    | none => [])
  let ports (l4 : Nat) : Bytes := if f.length ≥ l4 + 4 then slice f l4 4 else []
  if beAt f t.1 2 = 0x0800 ∧ f.length ≥ o + 20 then
    base ++ slice f (o + 12) 8 ++
      (if (beAt f (o + 9) 1 = 6 ∨ beAt f (o + 9) 1 = 17) ∧ beAt f (o + 6) 2 % 16384 = 0
        then ports (o + beAt f o 1 % 16 * 4) else [])
  else if beAt f t.1 2 = 0x86DD ∧ f.length ≥ o + 40 then
    base ++ slice f (o + 8) 32 ++
      (if beAt f (o + 6) 1 = 6 ∨ beAt f (o + 6) 1 = 17 then ports (o + 40) else [])
  else base

/-- The steering hash: CRC-32C over those fields (R18). -/
def steeringHash (f : Bytes) : Nat := (crc32c (hashFields f)).toNat

/-! ### Flow control that a port generates (R76) -/

/-- Carafe bytes of a frame's 64-byte cells. -/
def cellBytes (len : Nat) : Nat := max 1 (cdiv len 64) * 64

/-- The traffic class of a received frame (R76). -/
def State.rxClass (s : State) (port : Nat) (f : Bytes) : Nat :=
  match outerTci f with
  | some tci => bits (s.rd F.PRT_PFC_MAP_TC_OF_PCP port) (3 * (tci / 8192) + 2) (3 * (tci / 8192))
  | none => s.rd F.PRT_PFC_MAP_UNTAGGED_TC port

/-- A packet's bytes count towards its port's occupancy unless a fairness group holds it. -/
def Packet.occupies (p : Packet) (port : Nat) : Bool :=
  p.fromWire && p.port == port && (match p.stage with
    | .held _ => false
    | _ => true)

/-- The packets that occupy a port's cells, each set of shared cells once. -/
def cellOwners (ps : SMap Packet) (port : Nat) : SMap Packet :=
  match ps with
  | [] => []
  | (h, p) :: r =>
    let id := if p.cells = 0 then h else p.cells
    if p.occupies port then
      (h, p) :: (cellOwners r port).filter (fun e => (if e.2.cells = 0 then e.1 else e.2.cells) != id)
    else cellOwners r port

/-- The occupancy of a port, or of one of its classes. -/
def State.occupancy (s : State) (port : Nat) (cls : Option Nat) : Nat :=
  (cellOwners s.pkts port).foldl (fun a e =>
    if (match cls with
      | some c => s.rxClass port e.2.data == c
      | none => true) then a + cellBytes e.2.data.length else a) 0

/-- The frame a port has on its wire, by its key in State.txNow; a preemptable one waiting at a cut point is not on it. -/
def State.onWire (s : State) (port : Nat) : Option Nat :=
  if (s.txNow.getD (2 * port) none).isSome then some (2 * port)
  else match s.txNow.getD (2 * port + 1) none with
    | some x => if x.cut then none else some (2 * port + 1)
    | none => none

/-- A frame put on a port's wire with its FCS, padded to 60 bytes; with TX_DISABLE the lanes are squelched. -/
def State.wire (s : State) (port : Nat) (f : Bytes) : State :=
  let g := if f.length < 60 then fit 60 f else f
  if s.on F.PRT_CTRL_TX_DISABLE port then s else s.send (.frame port (g ++ fcsOf g))

/-- Counts a frame that left a port; len counts from the destination address through the FCS (R79). -/
def State.countTx (s : State) (port : Nat) (f : Bytes) (len : Nat) : State :=
  let s := (s.count .PRT_CTR port C.PRT_TX_FRAMES_OK).countBy .PRT_CTR port C.PRT_TX_OCTETS_OK len
  if dstMac f = 2 ^ 48 - 1 then s.count .PRT_CTR port C.PRT_TX_BCAST
  else s.when (dstMac f / 2 ^ 40 % 2 = 1) (fun t => t.count .PRT_CTR port C.PRT_TX_MCAST)

/-- The priorities whose class is c. -/
def State.prioritiesOf (s : State) (port c : Nat) : List Nat :=
  (List.range 8).filter (fun p => bits (s.rd F.PRT_PFC_MAP_TC_OF_PCP port) (3 * p + 2) (3 * p) = c)

/-- A PAUSE or PFC frame with a pause time; class 8 is the whole port. -/
def State.fcFrame (s : State) (port c time : Nat) : Bytes :=
  let head := beBytes 6 0x0180C2000001 ++ beBytes 6 (s.rd F.PRT_MAC_ADDR_ADDR port) ++ beBytes 2 0x8808
  if c = 8 then fit 60 (head ++ beBytes 2 1 ++ beBytes 2 time)
  else
    let ps := s.prioritiesOf port c
    fit 60 (head ++ beBytes 2 0x0101 ++ beBytes 2 (ps.foldl (fun a p => a + 2 ^ p) 0) ++
      (List.range 8).flatMap (fun p => beBytes 2 (if ps.contains p then time else 0)))

/-- A generated frame goes to the wire, behind the frame or fragment in progress (R76). -/
def State.wireNext (s : State) (port : Nat) (f : Bytes) : State :=
  match s.onWire port with
  | none => s.wire port f
  | some k => { s with txNow := s.txNow.mod k (fun x => x.map (fun y => { y with after := y.after ++ [f] })) }

/-- Sends a generated flow-control frame and counts it. -/
def State.sendFc (s : State) (port c time : Nat) : State :=
  if s.on F.PRT_STATUS_LINK_UP port then
    let f := s.fcFrame port c time
    let s := (s.wireNext port f).countTx port f 64
    if c = 8 then s.count .PRT_CTR port C.PRT_TX_PAUSE
    else (s.count .PRT_CTR port C.PRT_TX_PFC).each (s.prioritiesOf port c)
      (fun p t => t.count .PRT_CTR port (C.PRT_TX_PFC_PRIO + p))
  else s

/-- The key of a port's class, 8 for the whole port. -/
def holdKey (port c : Nat) : Nat := 9 * port + c

/-- XOFF when the occupancy has risen to XOFF_KIB, XON when it has fallen to XON_KIB. -/
def State.fcLevel (s : State) (port c : Nat) : State :=
  let occ := s.occupancy port (if c = 8 then none else some c)
  match s.xoff.getD (holdKey port c) none with
  | none =>
    if s.rd F.PRT_FC_THRESH_XOFF_KIB port * 1024 ≤ occ ∧ 0 < occ then
      ({ s with xoff := s.xoff.setD (holdKey port c) (some s.now) none }).sendFc port c (s.rd F.PRT_FC_QUANTA_QUANTA port)
    else s
  | some _ =>
    if occ ≤ s.rd F.PRT_FC_THRESH_XON_KIB port * 1024 then
      ({ s with xoff := s.xoff.setD (holdKey port c) none none }).sendFc port c 0
    else s

/-- The classes for which a port generates flow control in its MODE. -/
def State.fcClasses (s : State) (port : Nat) : List Nat :=
  if !s.on F.PRT_FC_CFG_TX_EN port then []
  else if s.rd F.PRT_FC_CFG_MODE port = 1 then [8]
  else if s.rd F.PRT_FC_CFG_MODE port = 2 then
    (List.range 8).filter (fun c => bit (s.rd F.PRT_FC_CFG_PFC_TX_CLASSES port) c)
  else []

/-- Generated flow control after a change of occupancy. -/
def State.fcCheck (s : State) (port : Nat) : State := s.each (s.fcClasses port) (fun c t => t.fcLevel port c)

/-- The programme epoch of work whose ingress stamp or fetch falls at a short stamp (spec/01_architecture.md R32). -/
def State.epochAt (s : State) (at_ : Nat) : Nat :=
  let cur := s.rd F.GLB_EPOCH_STATUS_CURRENT 0
  let i := s.val .GLB_EPOCH_COMMIT_TIME 0
  let reached := decide ((at_ + 2 ^ 64 - i) % 2 ^ 64 < 2 ^ 63)
  if s.on F.GLB_EPOCH_STATUS_ARMED 0 && reached then 1 - cur
  else if s.on F.GLB_EPOCH_STATUS_DRAINING 0 && !reached && !s.on F.GLB_EPOCH_STATUS_ARMED 0 then 1 - cur
  else cur

/-! ### Packets -/

/-- A packet by its handle. -/
def State.pkt (s : State) (h : Nat) : Option Packet := (s.pkts.find? (fun e => e.1 == h)).map (·.2)

/-! ### Credited queues on a packet's path (spec/01_architecture.md R20, R22) -/

/-- A queue's number in Watch.credits. -/
def queueKey : WatchedQueue → Nat
  | .receiveCell p => p
  | .parse p => 0x1000 + p
  | .dispatch p => 0x2000 + p
  | .lookup c => 0x3000 + c
  | .offload g => 0x4000 + g
  | .verdict p => 0x5000 + p
  | .enqueue p => 0x6000 + p
  | .dieLink l => 0x7000 + l
  | .hbm c => 0x8000 + c
  | .event => 0x9000
  | .control u => 0x10000 + u

/-- A consumer has retired an entry of a queue: a credit is back. -/
def State.retire (s : State) (q : WatchedQueue) : State := { s with watch := { s.watch with credits := s.watch.credits.set (queueKey q) s.now } }

/-- The packets that wait for a pipeline's Grinder. -/
def State.forGrinder (s : State) (pipe : Nat) : SMap Packet := s.pkts.filter (fun e => e.2.stage == .received && e.2.pipe == pipe)

/-- A waiting packet's parse request holds one of the 1,024 credits: fewer than that joined before it. The others wait with
the Carafe writer, received frames in their port's receive cell queue, host frames in the transmit data queue. -/
def State.hasParse (s : State) (h : Nat) (p : Packet) : Bool :=
  !s.coreStopped && decide (((s.forGrinder p.pipe).filter (fun e => decide (e.2.since < p.since ∨ (e.2.since = p.since ∧ e.1 < h)))).length < 1024)

/-- The packets without a parse credit that a predicate picks. -/
def State.unparsed (s : State) (f : Packet → Bool) : SMap Packet :=
  s.pkts.filter (fun e => e.2.stage == .received && f e.2 && !s.hasParse e.1 e.2)

/-- 64-byte cells of packets. -/
def cellsOf (ps : SMap Packet) : Nat := ps.foldl (fun a e => a + max 1 (cdiv e.2.data.length 64)) 0

/-- A port's receive cell queue of 128 cells has a credit. -/
def State.rxCredit (s : State) (port : Nat) : Bool := decide (cellsOf (s.unparsed (fun p => p.fromWire && p.port == port)) < 128)

/-- A host port's transmit data queue of 8,192 cells has n credits. -/
def State.txDataCredit (s : State) (k n : Nat) : Bool :=
  decide (cellsOf (s.unparsed (fun p => !p.fromWire && s.hostPort p.func == k)) + n ≤ 8192)

/-- A pipeline's queue to the traffic manager has n credits of its 2,048. -/
def State.enqueueCredit (s : State) (pipe n : Nat) : Bool :=
  !s.coreStopped && decide ((s.pkts.filter (fun e => e.2.stage == .toTm && e.2.pipe == pipe)).length + n ≤ 2048)

/-- Both pipelines of a lane group are fenced: no consumer is left (R23). -/
def State.noPipe (s : State) (p : Nat) : Bool := s.isFenced (unitPipe p) 0 && s.isFenced (unitPipe (p ^^^ 1)) 0

/-- Writes a packet. -/
def State.setPkt (s : State) (h : Nat) (p : Packet) : State := { s with pkts := s.pkts.erase h |>.insert h p }

/-- A new packet under the next handle; flow control follows. -/
def State.addPkt (s : State) (p : Packet) : State :=
  let t := ({ s with nextPkt := s.nextPkt + 1 }).setPkt s.nextPkt { p with since := s.now }
  t.when p.fromWire (fun u => u.fcCheck p.port)

/-- Frees a packet's cells; flow control follows. -/
def State.freePkt (s : State) (h : Nat) : State :=
  match s.pkt h with
  | none => s
  | some p => ({ s with pkts := s.pkts.erase h }).when p.fromWire (fun u => u.fcCheck p.port)

/-- Moves a packet to another stage; leaving or entering release changes the occupancy. -/
def State.moveTo (s : State) (h : Nat) (st : Stage) : State :=
  match s.pkt h with
  | none => s
  | some p => (s.setPkt h { p with stage := st, since := s.now }).when p.fromWire (fun u => u.fcCheck p.port)

/-- Counts entries discarded because their consumer is fenced or reset (R23). -/
def State.discard (s : State) (unit n : Nat) : State :=
  { s with discards := s.discards.set unit (s.discards.get unit + n) }

/-- A cell check fails at a handover point (spec/01_architecture.md R27): the event, counted against a unit. -/
def State.cellCheck (s : State) (unit : Nat) : State :=
  ({ s with watch := { s.watch with cellChecks := s.watch.cellChecks.set unit (s.watch.cellChecks.get unit + 1) } }).raise Ev.CELL_CHECK

/-- The pipeline that serves another: its neighbour while it is fenced (R23; spec/17_errors_and_service.md R389). -/
def State.servingPipe (s : State) (p : Nat) : Nat := if s.isFenced (unitPipe p) 0 then p ^^^ 1 else p

/-! ### The frames of a transmit job (R313) -/

/-- A job by its number. -/
def State.job (s : State) (j : Nat) : Option Job := (s.jobs.find? (fun e => e.1 == j)).map (·.2)

/-- Writes a job. -/
def State.setJob (s : State) (j : Nat) (b : Job) : State := { s with jobs := s.jobs.erase j |>.insert j b }

/-- Every frame is gone, and the stamp asked for has come where its frame left. -/
def Job.finished (b : Job) : Bool :=
  b.produced && b.segs.all (fun e => e.2.copies == 0) &&
    (!b.wantStamp || b.stamp.isSome || b.stampLost || !(b.segs.get 0).left)

/-- STATUS: the job's own failure, or that of the first frame no copy of which left whole (R313,
spec/10_redundancy.md R259, spec/03_ports.md R72). -/
def Job.finalStatus (b : Job) : Nat :=
  if b.status ≠ 0 then b.status
  else match b.segs.find? (fun e => !e.2.good) with
    | some e => e.2.status
    | none => 0

/-- One copy of a frame of a job has left its MAC, or was dropped with a status. -/
def Job.copyGone (b : Job) (seg : Nat) (left : Bool) (status : Nat) : Job :=
  { b with segs := b.segs.mod seg (fun g =>
      { copies := g.copies - 1, left := g.left || left, good := g.good || (left && status == 0), status := if g.status = 0 then status else g.status }) }

/-- The completion offload word of a job whose frames have several: the first failure's STATUS and KIND, else the last ones, the
flags of all and the last AUX (spec/07_offloads.md R178, R179). -/
def joinOfl (old new : Nat) : Nat :=
  let head := if bits old 31 24 ≠ 0 ∨ new = 0 then bits old 31 20 else bits new 31 20
  head * 2 ^ 20 + (bits old 19 16 ||| bits new 19 16) * 2 ^ 16 + (if bits new 13 0 = 0 then bits old 13 0 else bits new 13 0)

/-- The end of one copy of a packet's frame for its job, if it has one. -/
def State.jobCopy (s : State) (p : Packet) (left : Bool) (status ofl : Nat) : State :=
  match p.job with
  | none => s
  | some j => match s.job j with
    | none => s
    | some b => s.setJob j { b.copyGone p.seg left status with
        ofl := joinOfl b.ofl ofl, launchLate := b.launchLate || p.launchLate
        wantStamp := b.wantStamp && !(p.wantStamp && !left) }

end Sys2Proof.Machine
end

