-- ==== Sys2Proof/Machine/Host.lean ====
section
/-! DEFINITION. Access to host memory: dirty-page logging, posted writes, the translation cache, reads and page
requests (spec/11_host_interface.md R285 to R294, spec/14_tenants.md R352 to R355). -/

namespace Sys2Proof.Machine

/-! ### Dirty-page logging -/

/-- The log ring's size of a migration slot. -/
def State.migSize (s : State) (slot : Nat) : Nat := 2 ^ s.rd F.HIF_MIG_CTRL_LOG2 slot

/-- A page is still in the log and not yet consumed (R354). -/
def State.migKnown (s : State) (slot page : Nat) : Bool :=
  s.migFilter.any (fun e => e.1 == slot && e.2.1 == page)

/-- Logs one page that is about to be written for a function (R352 to R355). -/
def State.migPage (s : State) (f page : Nat) : State :=
  let slot := s.rd F.HIF_FN_STATE_SLOT f
  if !s.on F.HIF_FN_STATE_MIGRATING f || !s.on F.HIF_MIG_CTRL_EN slot || s.on F.HIF_MIG_CTRL_ALL_DIRTY slot
      || s.migKnown slot page then s
  else
    let prod := s.val .HIF_MIG_PROD slot
    if (prod + 2 ^ 32 - s.val .HIF_MIG_CONS slot) % 2 ^ 32 = s.migSize slot then
      ((s.wr F.HIF_MIG_CTRL_ALL_DIRTY slot 1).wr F.HIF_FN_STATE_ALL_DIRTY f 1).raise Ev.FN_MIG_ALL_DIRTY
    else
      let s := s.when (decide (s.migFilter.length < 65536))
        (fun t => { t with migFilter := t.migFilter ++ [(slot, page, prod)] })
      let addr := s.rd F.HIF_MIG_BASE_ADDR slot * 4096 + 8 * (prod % s.migSize slot)
      (s.put .HIF_MIG_PROD slot ((prod + 1) % 2 ^ 32)).when (s.mayDma s.manager)
        (fun t => t.send (.hostWrite t.manager addr none (leBytes 8 page)))

/-- Logs every page of a write, before the write (R353). -/
def State.migLog (s : State) (f addr len : Nat) : State :=
  if len = 0 then s
  else s.each ((List.range ((addr + len - 1) / 4096 + 1 - addr / 4096)).map (fun k => addr / 4096 + k))
    (fun p t => t.migPage f p)

/-! ### The translation cache -/

/-- The cache entry translates the page for this access. -/
def AtsEntry.covers (e : AtsEntry) (port f : Nat) (pasid : Option Nat) (addr : Nat) (write : Bool) : Bool :=
  e.port == port && e.fn == f && e.pasid == pasid && decide (e.base ≤ addr ∧ addr < e.base + e.size)
    && (if write then e.wr else e.rd)

/-- The address is cached for the function, or the function issues untranslated addresses (R285). -/
def State.atsHit (s : State) (f : Nat) (pasid : Option Nat) (addr : Nat) (write : Bool) : Bool :=
  !(s.fn f).ats || s.ats.any (fun e => e.covers (s.hostPort f) f pasid addr write)

/-- A use of a cached translation makes it the most recently used and counts a hit (R285, R286). -/
def State.atsUse (s : State) (f : Nat) (pasid : Option Nat) (addr : Nat) (write : Bool) : State :=
  if (s.fn f).ats then
    let hit (e : AtsEntry) : Bool := e.covers (s.hostPort f) f pasid addr write
    ({ s with ats := s.ats.filter (fun e => !hit e) ++ s.ats.filter hit }).count .HIF_CTR (s.hostPort f) C.HIF_ATS_HITS
  else s

/-! ### Tags of non-posted requests (R271) -/

/-- The request has left and is not answered. -/
def ReadPart.out (p : ReadPart) : Bool := p.tag.isSome && p.data.isNone

/-- Non-posted requests a host port has outstanding; Translation Requests from 16,384 on still wait to be issued. -/
def State.tagsOut (s : State) (port : Nat) : Nat :=
  (s.reads.filter (fun e => s.hostPort e.2.fn == port)).foldl (fun a e => a + (e.2.parts.filter ReadPart.out).length) 0 +
    (s.xreqs.filter (fun e => decide (e.1 < 16384) && s.hostPort e.2.fn == port)).length

/-- A tag is in use. -/
def State.tagUsed (s : State) (t : Nat) : Bool :=
  s.xreqs.any (fun e => e.1 == t) || s.reads.any (fun e => e.2.parts.any (fun p => p.out && p.tag == some t))

/-- The first free tag from t on, among 2^14. -/
def State.freeTag (s : State) (t : Nat) : Nat → Nat
  | 0 => t
  | n + 1 => if s.tagUsed t then s.freeTag ((t + 1) % 16384) n else t

/-- The tag of the next request (log 213). -/
def State.newTag (s : State) : Nat := s.freeTag (s.nextReq % 16384) (s.tagsOut 0 + s.tagsOut 1)

/-- The port may issue one more non-posted request. -/
def State.tagRoom (s : State) (port : Nat) : Bool := decide (s.tagsOut port < 8192)

/-- Issues a Translation Request. -/
def State.issueXlate (s : State) (q : XReq) : State :=
  let q := { q with since := s.now, us := s.rd F.HIF_CPL_TIMEOUT_US (s.hostPort q.fn) }
  ({ s with xreqs := s.xreqs.setD s.newTag q default, nextReq := s.nextReq + 1 }).send (.translationRequest q.fn q.pasid q.page)

/-- A miss issues a Translation Request for the page (R285); with no tag free it waits. -/
def State.atsMiss (s : State) (f : Nat) (pasid : Option Nat) (addr : Nat) (write : Bool) (who : Waiter) : State :=
  let s := s.count .HIF_CTR (s.hostPort f) C.HIF_ATS_MISSES
  let q : XReq := { fn := f, pasid := pasid, page := addr / 4096, write := write, waiter := who }
  if s.tagRoom (s.hostPort f) then s.issueXlate q
  else { s with xreqs := s.xreqs.setD (16384 + s.nextReq) q default, nextReq := s.nextReq + 1 }

/-- A posted write of a function into host memory, logged first when the function migrates. A function that may issue
no request writes nothing (R294, spec/14_tenants.md R347, R349). -/
def State.hostWrite (s : State) (f addr : Nat) (pasid : Option Nat) (data : Bytes) : State :=
  if !s.mayDma f then s
  else
    let s := if s.atsHit f pasid addr true then s.atsUse f pasid addr true else s.atsMiss f pasid addr true .nobody
    (s.migLog f addr data.length).send (.hostWrite f addr pasid data)

/-- Max_Read_Request_Size of a function in bytes; a VF's is its PF's (R271; PRESUMED, log 210). -/
def State.readSize (s : State) (f : Nat) : Nat := 128 * 2 ^ (s.fn (s.pfOf f)).mrrs

/-- A read of n bytes as requests of at most a size, address and length each (R271). -/
def readSplit (size addr n : Nat) : List (Nat × Nat) :=
  (List.range (max 1 (cdiv n size))).map (fun k => (addr + k * size, min size (n - k * size)))

/-- Sends the requests of a read whose answer comes with the command. -/
def State.sendRead (s : State) (f addr : Nat) (pasid : Option Nat) (n : Nat) : State :=
  s.each (readSplit (s.readSize f) addr n) (fun p t => t.send (.hostRead f p.1 pasid p.2))

/-- Issues the requests of read n that have no tag, as far as the port's outstanding requests leave room. -/
def State.issueParts (s : State) (n : Nat) : Nat → State
  | 0 => s
  | k + 1 =>
    let q := s.reads.getD n default
    match q.parts.findIdx? (fun p => p.tag.isNone) with
    | none => s
    | some i =>
      if !s.tagRoom (s.hostPort q.fn) then s
      else
        let p := q.parts.getD i default
        let p := { p with tag := some s.newTag, since := s.now, us := s.rd F.HIF_CPL_TIMEOUT_US (s.hostPort q.fn) }
        State.issueParts (({ s with reads := s.reads.setD n { q with parts := q.parts.set i p } default, nextReq := s.nextReq + 1 }).send
          (.hostRead q.fn p.addr q.pasid p.len)) n k

/-- The first page of a span that has no cached translation (R285). -/
def State.pageMissing (s : State) (f : Nat) (pasid : Option Nat) (addr n : Nat) (write : Bool) : Option Nat :=
  (((List.range ((addr + max n 1 - 1) / 4096 + 1 - addr / 4096)).map (fun k => max addr (4096 * (addr / 4096 + k)))).find?
    (fun a => !s.atsHit f pasid a write))

/-- Issues a read of host memory, in requests of at most Max_Read_Request_Size, or the Translation Request of the first of its pages
that is not cached (R271, R285, R292). -/
def State.hostRead (s : State) (f addr : Nat) (pasid : Option Nat) (len : Nat) (who : Waiter) : State :=
  if !s.mayDma f then s
  else match s.pageMissing f pasid addr len false with
    | some a => s.atsMiss f pasid a false who
    | none =>
      let s := s.atsUse f pasid addr false
      let r : HostRead :=
        { fn := f, gen := s.rd F.HIF_FN_STATE_GEN f, pasid := pasid, addr := addr, len := len, who := who
          parts := (readSplit (s.readSize f) addr len).map (fun p => { addr := p.1, len := p.2 }) }
      let n := s.nextReq
      State.issueParts { s with reads := s.reads.setD n r default, nextReq := n + 1 } n r.parts.length

/-- One waiting request of a port is issued: a Translation Request first, else the oldest read's next; a read whose translation has
been removed meanwhile translates again as a whole (R287; log 213). -/
def State.issueOne (s : State) (port : Nat) : State :=
  if !s.tagRoom port then s
  else match s.xreqs.find? (fun e => decide (16384 ≤ e.1) && s.hostPort e.2.fn == port) with
    | some e => ({ s with xreqs := s.xreqs.erase e.1 }).issueXlate e.2
    | none => match s.reads.find? (fun e => s.hostPort e.2.fn == port && e.2.parts.any (fun p => p.tag.isNone)) with
      | none => s
      | some e =>
        let q := e.2
        if (s.pageMissing q.fn q.pasid q.addr q.len false).isNone then s.issueParts e.1 1
        else
          let left := q.parts.filter ReadPart.out
          let gone := s.reads.erase e.1
          let s : State :=
            { s with reads := if left.isEmpty then gone else s.reads.setD e.1 { q with parts := left, who := .nobody, discarded := true } default }
          s.hostRead q.fn q.addr q.pasid q.len q.who

/-- Requests that wait for a tag are issued as far as there is room. -/
def State.issueWaiting (s : State) : State :=
  let waiting := (s.xreqs.filter (fun e => decide (16384 ≤ e.1))).length +
    s.reads.foldl (fun a e => a + (e.2.parts.filter (fun p => p.tag.isNone)).length) 0
  s.each (List.range waiting) (fun _ t => (t.issueOne 0).issueOne 1)

/-- Page requests of a function that its host has not answered. -/
def State.pageRequestsOf (s : State) (f : Nat) : Nat := (s.preqs.filter (fun e => e.2.fn == f && e.2.sent)).length

/-- A translation fault issues a page request, or waits for the function's allocation; none answers that the fault has
failed at once, because PRI is disabled or stopped (R285, R289, R290). -/
def State.pageRequest (s : State) (f : Nat) (pasid : Option Nat) (addr : Nat) (write : Bool) (who : Waiter) : Option State :=
  if !(s.fn f).priEn || (s.fn f).priStopped then none
  else
    let go := decide (s.pageRequestsOf f < (s.fn f).priAlloc)
    let q : PReq := { fn := f, pasid := pasid, page := addr / 4096, write := write, sent := go, since := s.now, waiter := who }
    let n := s.nextReq
    let s := { s with preqs := s.preqs.setD n q default, nextReq := s.nextReq + 1 }
    some (if go then (s.count .HIF_CTR (s.hostPort f) C.HIF_PAGE_REQUESTS).send (.pageRequest f pasid (addr / 4096) write n) else s)

/-- A page request that failed: counted and announced (R289). -/
def State.pageFailed (s : State) (f : Nat) : State :=
  (s.count .HIF_CTR (s.hostPort f) C.HIF_PAGE_FAILURES).raiseMs (Ev.HIF_PRI_FAIL (s.hostPort f))

/-- Counts and announces why a read failed (R26, R292). -/
def State.readFailed (s : State) (f : Nat) (r : HostReply) : State :=
  let k := s.hostPort f
  match r with
  | .timeout => (s.count .HIF_CTR k C.HIF_CPL_TIMEOUTS).raiseMs (Ev.HIF_CPL_TIMEOUT k)
  | .unsupported => (s.count .HIF_CTR k C.HIF_CPL_ERRORS).raiseMs (Ev.HIF_CPL_ERROR k)
  | .poisoned => (s.count .HIF_CTR k C.HIF_POISONED).raiseMs (Ev.HIF_POISONED k)
  | .ecrc => (s.count .HIF_CTR k C.HIF_ECRC_ERRORS).raiseMs (Ev.HIF_ECRC_ERROR k)
  | .xlateFault => s
  | .data _ => s

end Sys2Proof.Machine
end

