-- ==== Sys2Proof/Machine/Rings.lean ====
section
/-! DEFINITION. Descriptor rings: the fields of a ring context, ring states, completions, HEAD status blocks and the
end of a job (spec/12_queues_and_rings.md R297 to R319). -/

namespace Sys2Proof.Machine

/-! ### Keys and fields -/

/-- Keys of the transmit and job, receive and completion rings numbered n, and of a function's admin queue. -/
def txKey (n : Nat) : Nat := n
def rxKey (n : Nat) : Nat := n + 131072
def cqKey (n : Nat) : Nat := n + 262144
def adminCqKey (f : Nat) : Nat := f + 393216
def adminSqKey (f : Nat) : Nat := f + 524288

/-- The number of a ring within its kind. -/
def ringNo (key : Nat) : Nat := key % 131072

/-- The fields of the ring context (the table of "Creating a ring"). -/
def Ring.word (r : Ring) (o : Nat) : Nat := leAt r.ctx o 4
def Ring.base (r : Ring) : Nat := leAt r.ctx 0 8
def Ring.kind (r : Ring) : Nat := bits (r.word 8) 3 0
def Ring.log2 (r : Ring) : Nat := bits (r.word 8) 8 4
def Ring.size (r : Ring) : Nat := 2 ^ r.log2
def Ring.isHead (r : Ring) : Bool := bit (r.word 8) 9
def Ring.mgmt (r : Ring) : Bool := bit (r.word 8) 10
def Ring.pasid (r : Ring) : Option Nat := if bit (r.word 8) 11 then some (bits (r.word 8) 31 12) else none
def Ring.page (r : Ring) : Nat := bits (r.word 12) 15 0
def Ring.cqPage (r : Ring) : Nat := bits (r.word 12) 31 16
def Ring.schedQ (r : Ring) : Nat := bits (r.word 16) 15 0
def Ring.maxFrame (r : Ring) : Nat := bits (r.word 20) 13 0
def Ring.holdKib (r : Ring) : Nat := bits (r.word 20) 31 16
def Ring.holdUs (r : Ring) : Nat := r.word 24
def Ring.vector (r : Ring) : Nat := bits (r.word 28) 10 0
def Ring.coalUs (r : Ring) : Nat := bits (r.word 28) 31 16
def Ring.statusAddr (r : Ring) : Nat := leAt r.ctx 32 8
def Ring.coalN (r : Ring) : Nat := max 1 (bits (r.word 40) 15 0)
def Ring.headUs (r : Ring) : Nat := bits (r.word 40) 31 16

/-- The ring with a key; NONE where there is none. -/
def State.ring (s : State) (key : Nat) : Ring := s.rings.get key

/-- Changes a ring. -/
def State.modRing (s : State) (key : Nat) (g : Ring → Ring) : State := { s with rings := s.rings.mod key g }

/-- The key of the ring on a function's queue page. -/
def State.onPage (s : State) (f page : Nat) : Option Nat :=
  (s.rings.find? (fun e => e.2.state != 0 && e.2.fn == f && e.2.page == page)).map (·.1)

/-- Counts in the host port's queue manager counter k and in the ring's own. -/
def State.ringCount (s : State) (key k n : Nat) : State :=
  (s.countBy .QM_CTR (s.hostPort (s.ring key).fn) k n).modRing key (fun r => { r with ctr := r.ctr.set k (r.ctr.get k + n) })

/-- A ring in one of the STOPPED states (R317). -/
def Ring.stopped (r : Ring) : Bool := decide (3 ≤ r.state)

/-- The difference of two 32-bit indices (R298). -/
def ixSub (a b : Nat) : Nat := (a + 2 ^ 32 - b) % 2 ^ 32

/-- The next index. -/
def ixNext (a : Nat) : Nat := (a + 1) % 2 ^ 32

/-! ### Completion rings (R312 to R315) -/

/-- The 32 bytes of a completion entry with its PHASE. -/
def Cpl.encode (c : Cpl) (phase : Nat) : Bytes :=
  leBytes 8 c.stamp ++ leBytes 8 c.keyLo ++ leBytes 4 c.ofl ++ leBytes 4 (c.len % 2 ^ 18 + 2 ^ 18 * c.flags) ++
    leBytes 4 (c.tag % 65536 + 65536 * c.status + 2 ^ 24 * c.kind) ++ leBytes 4 (ringNo c.ring + 2 ^ 31 * phase)

/-- The PHASE of completion index p in a ring of a size. -/
def phaseOf (p size : Nat) : Nat := 1 - p / size % 2

/-- One message of an armed ring, which disarms (R315). -/
def State.ringMessage (s : State) (key : Nat) : State :=
  (s.modRing key (fun r => { r with armed := false, firstCoal := none })).message (s.ring key).fn (s.ring key).vector

/-- An armed completion ring looks at the entries written beyond the arming CI (R315). -/
def State.coalesce (s : State) (key : Nat) : State :=
  let r := s.ring key
  let n := ixSub r.written r.armCi
  if !r.armed || n = 0 then s
  else if r.coalN ≤ n ∨ r.coalUs = 0 then s.ringMessage key
  else if r.firstCoal.isSome then s
  else s.modRing key (fun r => { r with firstCoal := some (r.times.getD (ixSub r.armCi r.ci) s.now) })

/-- Writes one completion entry at the next index (R312). -/
def State.writeCpl (s : State) (key : Nat) (c : Cpl) : State :=
  let r := s.ring key
  let s := s.hostWrite r.fn (r.base + r.written % r.size * 32) r.pasid (c.encode (phaseOf r.written r.size))
  (s.modRing key (fun r => { r with written := ixNext r.written, times := r.times ++ [s.now] })).coalesce key

/-- The ring has room, runs, and its function may write (R314, R317; spec/11_host_interface.md R294). -/
def State.cplRoom (s : State) (key : Nat) : Bool :=
  let r := s.ring key
  r.state == 1 && decide (ixSub r.written r.ci < r.size) && s.mayDma r.fn

/-- The next entry's page when it has no cached translation (spec/11_host_interface.md R285). -/
def State.cplMiss (s : State) (key : Nat) : Option Nat :=
  let r := s.ring key
  s.pageMissing r.fn r.pasid (r.base + r.written % r.size * 32) 32 true

/-- A ring's write waits for a translation: one request is out for it. -/
def State.writeWaits (s : State) (key addr : Nat) (who : Waiter) : State :=
  if s.xreqs.any (fun q => q.2.waiter == who) || s.preqs.any (fun q => q.2.waiter == who) then s
  else s.atsMiss (s.ring key).fn (s.ring key).pasid addr true who

/-- Writes pending completions while there is room, at most n of them; one without a translation waits for it (R314;
spec/11_host_interface.md R285). -/
def State.flushPend (s : State) (key : Nat) : Nat → State
  | 0 => s
  | n + 1 => match (s.ring key).pend with
    | [] => s
    | c :: rest =>
      if !s.cplRoom key then s
      else match s.cplMiss key with
        | some a => s.writeWaits key a (.cpl key)
        | none => ((s.modRing key (fun r => { r with pend := rest })).writeCpl key c).flushPend key n

/-- A completion for a ring: written, or it waits behind those that wait (R314). -/
def State.postCpl (s : State) (key : Nat) (c : Cpl) : State :=
  if (s.ring key).state = 0 then s
  else if (s.ring key).pend.isEmpty && s.cplRoom key && (s.cplMiss key).isNone then s.writeCpl key c
  else
    let s := s.modRing key (fun r => { r with pend := r.pend ++ [c] })
    let n := (s.ring key).pend.length
    ((s.hwm .QM_CTR (s.hostPort (s.ring key).fn) C.QM_CPL_PENDING_HWM n).modRing key (fun r =>
      { r with ctr := r.ctr.set C.QM_CPL_PENDING_HWM (max n (r.ctr.get C.QM_CPL_PENDING_HWM)) })).flushPend key n

/-! ### HEAD rings (R316) -/

/-- The 64 bytes of the status block. -/
def Ring.statusBlock (r : Ring) (now : Nat) : Bytes :=
  fit 64 (leBytes 4 r.oldest ++ leBytes 4 (r.state + 16 * r.cause) ++ leBytes 8 now ++ leBytes 4 r.failed)

/-- Writes a HEAD ring's status block, once it has a translation; an armed ring sends its message. -/
def State.writeHead (s : State) (key : Nat) : State :=
  let r := s.ring key
  match s.pageMissing r.fn r.pasid r.statusAddr 64 true with
  | some a => s.writeWaits key a (.head key)
  | none =>
  let s := s.hostWrite r.fn r.statusAddr r.pasid (r.statusBlock s.stamp)
  let s := s.modRing key (fun r => { r with headAt := some s.now, headShown := r.oldest })
  s.when r.armed (fun t => t.ringMessage key)

/-- HEAD_US has passed since the ring's last status write. -/
def Ring.headDue (r : Ring) (now : Nat) : Bool :=
  match r.headAt with
  | none => true
  | some t => decide (t + r.headUs * 1000 ≤ now)

/-- The status write after HEAD may have advanced: at once when nothing posted is left or HEAD_US has passed. -/
def State.headCheck (s : State) (key : Nat) : State :=
  let r := s.ring key
  if r.oldest = r.headShown then s
  else if r.oldest = r.pi || r.headDue s.now then s.writeHead key
  else s

/-! ### Ring states (R317) -/

/-- A ring's state changes: EVT_FN.QUEUE_STATE on entry into a STOPPED state, and a HEAD ring's status block. -/
def State.setRingState (s : State) (key st cause : Nat) : State :=
  let r := s.ring key
  if r.state = 0 then s
  else
    let s := s.modRing key (fun r => { r with state := st, cause := cause })
    let s := s.when (decide (3 ≤ st) && (r.state != st || r.cause != cause)) (fun t => t.raiseFn r.fn F.EVT_FN_QUEUE_STATE)
    s.when (r.isHead && r.kind == 1 && (r.state != st || r.cause != cause)) (fun t => t.writeHead key)

/-- Drops the frames on a ring's hold list, counted like arriving frames of a stopped ring (R310, log 11). -/
def State.dropHeld (s : State) (key : Nat) (bme : Bool) : State :=
  let r := s.ring key
  let s := s.each r.hold (fun h t =>
    let t := if bme then t.count .HIF_CTR (t.hostPort r.fn) C.HIF_RX_BME_DROP else t.ringCount key C.QM_RX_STOPPED_DROP 1
    t.freePkt h)
  s.modRing key (fun r => { r with hold := [] })

/-- Stops a ring. -/
def State.stopRing (s : State) (key st cause : Nat) : State := (s.setRingState key st cause).dropHeld key (st == 6)

/-! ### Completed entries -/

/-- Advances the oldest index over entries that are complete. -/
def advanceOldest (oldest : Nat) (done : List Nat) : Nat → Nat × List Nat
  | 0 => (oldest, done)
  | n + 1 => if done.contains oldest then advanceOldest (ixNext oldest) (done.filter (· != oldest)) n else (oldest, done)

/-- An entry of a submission ring is complete, or its buffer consumed. -/
def State.markDone (s : State) (key index : Nat) : State :=
  s.modRing key (fun r =>
    let d := advanceOldest r.oldest (r.done ++ [index]) (r.done.length + 1)
    { r with oldest := d.1, done := d.2, doneAt := s.now })

/-- The flag bits of the word at 0x14, from bit 18 on. -/
def cplFlags (late epochHeld stampLost launchLate held : Bool) (group : Option Nat) : Nat :=
  b2n late + 2 * b2n epochHeld + 4 * b2n stampLost + 8 * b2n launchLate + 16 * b2n held +
    (match group with
      | some g => 32 * g + 2048
      | none => 0)

/-- The completion of a job (R308, R312, R313). -/
def Job.completion (b : Job) (cq : Nat) (isJob : Bool) : Cpl :=
  let lost := b.wantStamp && b.stamp.isNone && b.stampLost
  { target := cq, ring := b.ring, index := b.index
    stamp := if isJob then b.result else if lost then 2 ^ 64 - 1 else (b.stamp.getD (0, 0)).1
    keyLo := if isJob then 0 else (b.stamp.getD (0, 0)).2
    ofl := b.ofl, len := (b.segs.filter (fun e => e.2.left)).length
    flags := cplFlags false false lost b.launchLate false none
    tag := b.tag, status := b.finalStatus, kind := if isJob then 2 else 0 }

/-- A job that is finished ends: its completion becomes ready, or its HEAD ring advances. A job of a ring that is gone
ends without a completion (spec/14_tenants.md R347). -/
def State.finishJob (s : State) (j : Nat) : State :=
  match s.job j with
  | none => s
  | some b =>
    if !b.finished then s
    else
      let r := s.ring b.ring
      let s := { s with jobs := s.jobs.erase j }
      if r.state = 0 || r.gen != b.gen || r.fn != b.func then s
      else
        let s := s.markDone b.ring b.index
        if r.isHead && r.kind == 1 then
          let s := s.modRing b.ring (fun r => { r with failed := (r.failed + (if b.finalStatus = 0 then 0 else 1)) % 2 ^ 32 })
          s.headCheck b.ring
        else { s with ready := s.ready ++ [b.completion r.cq (r.kind == 4)] }

/-- A job ends with a status before it has produced a frame. -/
def State.failJob (s : State) (j status ofl : Nat) : State :=
  match s.job j with
  | none => s
  | some b => (s.setJob j { b with produced := true, wantStamp := false, status := status, ofl := ofl }).finishJob j

/-- One copy of a packet's frame is gone, with the job it belongs to, and its cells are freed. -/
def State.endPkt (s : State) (h : Nat) (left : Bool) (status ofl : Nat) : State :=
  match s.pkt h with
  | none => s
  | some p =>
    let s := (s.jobCopy p left status ofl).freePkt h
    match p.job with
    | some j => s.finishJob j
    | none => s

/-- A packet is dropped with a completion status for the job it may belong to. -/
def State.dropPkt (s : State) (h status : Nat) : State := s.endPkt h false status 0

/-- The handles of the packets at a stage. -/
def State.atStage (s : State) (st : Stage) : List Nat := (s.pkts.filter (fun e => e.2.stage == st)).map (·.1)

end Sys2Proof.Machine
end

