-- ==== Sys2Proof/Machine/Ports.lean ====
section
/-! DEFINITION. Network ports: lane groups, link state, flow control, preemption, the counter owner, the management
port and NC-SI (spec/03_ports.md R65 to R86). -/

namespace Sys2Proof.Machine

/-! ### Lane groups (R66 to R68) -/

/-- Lanes of a MODE (the port mode table). -/
def modeLanes : Nat → Nat
  | 0 => 8
  | 1 => 4
  | 2 => 2
  | _ => 1

/-- The rate of a MODE in Mb/s. -/
def modeRate : Nat → Nat
  | 0 => 1600000
  | 1 => 800000
  | 2 => 400000
  | 3 => 200000
  | 4 => 100000
  | 5 => 50000
  | _ => 25000

/-- A pause quantum of a MODE in units of 10 ps (the table of R74). -/
def modeQuantum (m : Nat) : Nat := 32 * 2 ^ min m 6

/-- The mode's lanes are NRZ. -/
def modeNrz (m : Nat) : Bool := decide (6 ≤ m)

/-- EN and MODE of a port as its PRT_MODE gives them. -/
def State.wanted (s : State) (n : Nat) : Bool × Nat := (s.on F.PRT_MODE_EN n, s.rd F.PRT_MODE_MODE n)

/-- Port n is enabled and covers lane l. -/
def State.coversLane (s : State) (n l : Nat) : Bool :=
  s.on F.PRT_MODE_EN n && decide (n ≤ l ∧ l < n + modeLanes (s.rd F.PRT_MODE_MODE n))

/-- A violation of R67 reported at lane l: a misaligned port, a lane in two ports, a quad that mixes modulations
(reported at the quad's first lane, log 13). -/
def State.laneBad (s : State) (l : Nat) : Bool :=
  let ports := (List.range 16).filter (fun n => n / 8 == l / 8 && s.on F.PRT_MODE_EN n)
  let inQuad := ports.filter (fun n => (List.range 4).any (fun k => s.coversLane n (l / 4 * 4 + k)))
  (s.on F.PRT_MODE_EN l && l % modeLanes (s.rd F.PRT_MODE_MODE l) != 0) ||
  decide (2 ≤ (ports.filter (fun n => s.coversLane n l)).length) ||
  (l % 4 == 0 && inQuad.any (fun n => modeNrz (s.rd F.PRT_MODE_MODE n)) && inQuad.any (fun n => !modeNrz (s.rd F.PRT_MODE_MODE n)))

/-- The first violation of a lane group, scanning upward. -/
def State.failLane (s : State) (g : Nat) : Option Nat :=
  ((List.range 8).map (fun k => 8 * g + k)).find? (fun l => s.laneBad l)

/-- TX_PAUSED_NS has counted the time for which a PAUSE has held a port until now, or until the hold's end (R75). -/
def State.pausedSync (s : State) (port : Nat) : State :=
  match s.holds.getD (holdKey port 8) none with
  | none => s
  | some h =>
    let t := max h.counted (min s.now (cdiv h.until_ 100))
    ({ s with holds := s.holds.setD (holdKey port 8) (some { h with counted := t }) none }).countBy .PRT_CTR port C.PRT_TX_PAUSED_NS (t - h.counted)

/-- Ends a hold: its status bit falls. -/
def State.endHold (s : State) (port c : Nat) : State :=
  if (s.holds.getD (holdKey port c) none).isNone then s
  else
    let s := s.when (c == 8) (fun t => t.pausedSync port)
    let s := { s with holds := s.holds.setD (holdKey port c) none none }
    if c = 8 then s.wr F.PRT_STATUS_PAUSED port 0
    else s.wr F.PRT_STATUS_PFC_PAUSED port (s.rd F.PRT_STATUS_PFC_PAUSED port - s.rd F.PRT_STATUS_PFC_PAUSED port / 2 ^ c % 2 * 2 ^ c)

/-- Ends every hold of a port now. -/
def State.endHolds (s : State) (port : Nat) : State := s.each (List.range 9) (fun c t => t.endHold port c)

/-- A link falls: its bits, its holds and the storm action end (R69). -/
def State.linkFalls (s : State) (n : Nat) : State :=
  let up := s.on F.PRT_STATUS_LINK_UP n
  let s := (((s.wr F.PRT_STATUS_LINK_UP n 0).wr F.PRT_STATUS_AM_LOCK n 0).wr F.PRT_STATUS_STORM n 0).wr F.PRT_STATUS_CAL_VALID n 0
  (s.endHolds n).when up (fun t => t.raise (Ev.PRT_LINK_DOWN n))

/-- A frame ends with a stomped FCS over the bytes sent: counted, and its job completes with an error (R72). -/
def State.stompOut (s : State) (port h : Nat) (g : Bytes) : State :=
  let ofl := ((s.pkt h).getD {}).ofl
  let s := s.when (!s.on F.PRT_CTRL_TX_DISABLE port) (fun t => t.send (.frame port (g ++ stompedFcs g)))
  ((s.count .PRT_CTR port C.PRT_TX_STOMPED).raiseMs (Ev.PRT_TX_STOMP port)).endPkt h true 5 ofl

/-- The MAC ends a frame in progress at once, stomped; how many of its bytes had been sent is a free value (R72, log 198). -/
def State.stompNow (s : State) (key : Nat) : State :=
  match s.txNow.getD key none with
  | none => s
  | some x =>
    let n := 1 + s.fresh % x.data.length
    ({ s.used with txNow := s.txNow.setD key none none }).stompOut (key / 2) x.h (x.data.take n)

/-- Takes a port down, as a reset, a fence and an apply do: frames in progress are stomped, frames in its transmit cell queue
discarded and counted (R68, R72, R83; spec/01_architecture.md R23). -/
def State.portDown (s : State) (n : Nat) : State :=
  let s := ((s.stompNow (2 * n)).stompNow (2 * n + 1)).linkFalls n
  s.each (s.atStage (.txCell n)) (fun h t => (t.discard (unitPort n) 1).dropPkt h 12)

/-- Reconfigures one port of a group as an apply does (R68). -/
def State.applyPort (s : State) (n : Nat) : State :=
  let w := s.wanted n
  let en := s.on F.PRT_STATUS_ACTIVE_EN n
  if (w.1 == en && w.2 == s.rd F.PRT_STATUS_ACTIVE_MODE n) || (!w.1 && !en) then s
  else (((s.portDown n).wr F.PRT_STATUS_ACTIVE_EN n (b2n w.1)).wr F.PRT_STATUS_ACTIVE_MODE n w.2).raise (Ev.PRT_MODE_CHANGE n)

/-- Lanes of disabled ports are gated, those of enabled ports powered (spec/18_power_reset_package.md R406). -/
def State.lanePower (s : State) (g : Nat) : State :=
  s.each ((List.range 8).map (fun k => 8 * g + k)) (fun l t =>
    let want := (List.range 16).any (fun n => n / 8 == g && t.coversLane n l)
    let st := t.rd F.PWR_DOMAIN_STATE l
    if want && st == 0 then t.domainOn l else if !want && st == 1 then t.domainOff l false else t)

/-- Applies the PRT_MODE of a lane group, or refuses it (R67, R68). GO reads 0 again with RESULT. -/
def State.groupApply (s : State) (g : Nat) : State :=
  match s.failLane g with
  | some l => (s.wr F.PRT_GROUP_APPLY_RESULT g 2).wr F.PRT_GROUP_APPLY_FAIL_LANE g l
  | none =>
    (((s.wr F.PRT_GROUP_APPLY_RESULT g 1).wr F.PRT_GROUP_APPLY_FAIL_LANE g 0).each (List.range 8)
      (fun k t => t.applyPort (8 * g + k))).lanePower g

/-- A write of PRT_GROUP_APPLY with GO. -/
def execPrtGroupApply (fn group : Nat) (s : State) : Step :=
  .next (if group < 2 then s.asManager fn (fun s => s.groupApply group) else s)

/-! ### Link state (R69) -/

/-- A calibration entry matches the port's mode: FEC, lanes and lane rate (spec/02_time_base.md R53). -/
def calMatches (e : Bytes) (m : Nat) : Bool :=
  calValid e && bits (leAt e 0 4) 23 16 == (if m = 7 then 0 else if m = 6 then 1 else 2) &&
    bits (leAt e 0 4) 15 8 == modeLanes m && bits (leAt e 0 4) 7 0 == (if m ≤ 3 then 0 else if m = 4 then 1 else if m = 5 then 2 else 3)

/-- Firmware settles a port's calibration: the lowest matching entry, or STAMP_CAL_MISSING (R53). -/
def State.settleCal (s : State) (n : Nat) : State :=
  let c := (List.range 16).find? (fun k => calMatches (s.tsu.cal.get k) (s.rd F.PRT_STATUS_ACTIVE_MODE n))
  let s := { s with tsu := { s.tsu with portCal := s.tsu.portCal.set n c } }
  match c with
  | some _ => s.wr F.PRT_STATUS_CAL_VALID n 1
  | none => (s.wr F.PRT_STATUS_CAL_VALID n 0).raise (Ev.STAMP_CAL_MISSING)

/-- An enabled port has alignment lock and decodes its FEC; skew and wait are what its PCS measured (R69). -/
def execPrtLinkUp (port maxSkew refWait : Nat) (s : State) : Step :=
  .next (if port < 16 ∧ s.on F.PRT_STATUS_ACTIVE_EN port ∧ !s.on F.PRT_STATUS_LINK_UP port ∧ !s.isFenced (unitPort port) 0 then
    let s := (s.wr F.PRT_DESKEW_MAX_SKEW_PS port maxSkew).wr F.PRT_DESKEW_REF_WAIT_PS port
      (if modeLanes (s.rd F.PRT_STATUS_ACTIVE_MODE port) = 1 then 0 else refWait)
    let s := ((s.wr F.PRT_STATUS_AM_LOCK port 1).wr F.PRT_STATUS_LOCAL_FAULT port 0).settleCal port
    (s.wr F.PRT_STATUS_LINK_UP port 1).raise (Ev.PRT_LINK_UP port)
  else s)

/-- A local fault begins: the transmitter sends remote-fault ordered sets (R69). -/
def execPrtLocalFault (port : Nat) (s : State) : Step :=
  .next (if port < 16 ∧ s.on F.PRT_STATUS_ACTIVE_EN port ∧ !s.on F.PRT_STATUS_LOCAL_FAULT port then
    let s := { s with localFault := s.localFault.set port s.now }
    ((s.wr F.PRT_STATUS_LOCAL_FAULT port 1).raise (Ev.PRT_LOCAL_FAULT port)).send (.orderedSets port 1)
  else s)

/-- A local fault clears (R69). -/
def execPrtLocalFaultEnd (port : Nat) (s : State) : Step := .next (s.wr F.PRT_STATUS_LOCAL_FAULT port 0)

/-- A remote fault is received (R69). -/
def execPrtRemoteFault (port : Nat) (s : State) : Step :=
  .next (if port < 16 ∧ s.on F.PRT_STATUS_ACTIVE_EN port ∧ !s.on F.PRT_STATUS_REMOTE_FAULT port then
    (s.wr F.PRT_STATUS_REMOTE_FAULT port 1).raise (Ev.PRT_REMOTE_FAULT port)
  else s)

/-- Remote-fault ordered sets stop arriving (R69). -/
def execPrtRemoteFaultEnd (port : Nat) (s : State) : Step := .next (s.wr F.PRT_STATUS_REMOTE_FAULT port 0)

/-- A local fault has persisted for 10 µs: the port goes down; its MAC discards the frames it holds (R69). -/
def execPrtLinkDown (port : Nat) (s : State) : Step :=
  .next (if s.on F.PRT_STATUS_LINK_UP port ∧ s.on F.PRT_STATUS_LOCAL_FAULT port ∧ s.localFault.get port + 10000 ≤ s.now then
    s.linkFalls port
  else s)

/-- A write of PRT_CTRL: LOOPBACK and TX_DISABLE, a port reset (R83), the end of the storm action (R77). -/
def State.prtCtrlWrite (s : State) (port v : Nat) : State :=
  let s := (s.wrLegal F.PRT_CTRL_LOOPBACK port (bits v 30 29)).wr F.PRT_CTRL_TX_DISABLE port (bits v 28 28)
  let s := s.when (bit v 31) (fun t => t.portDown port)
  s.when (bit v 27) (fun t => t.wr F.PRT_STATUS_STORM port 0)

/-- A write of PRT_CTRL with RESET. -/
def execPortReset (fn port v : Nat) (s : State) : Step :=
  .next (if port < 16 then s.asManager fn (fun s => s.prtCtrlWrite port (putBits v 31 31 1)) else s)

/-- A write of PRT_CTRL with STORM_CLEAR. -/
def execStormClear (fn port v : Nat) (s : State) : Step :=
  .next (if port < 16 then s.asManager fn (fun s => s.prtCtrlWrite port (putBits v 27 27 1)) else s)

/-! ### Receive counters -/

/-- The size bin of a frame of len bytes, FCS included. -/
def sizeBin (len : Nat) : Nat :=
  if len ≤ 64 then C.PRT_RX_64 else if len ≤ 127 then C.PRT_RX_65_127 else if len ≤ 255 then C.PRT_RX_128_255
  else if len ≤ 511 then C.PRT_RX_256_511 else if len ≤ 1023 then C.PRT_RX_512_1023
  else if len ≤ 1518 then C.PRT_RX_1024_1518 else C.PRT_RX_1519_MAX

/-- The counters of every frame received (R70, R79). -/
def State.countRxAll (s : State) (port len : Nat) : State :=
  let s := (s.countBy .PRT_CTR port C.PRT_RX_OCTETS_ALL len).count .PRT_CTR port C.PRT_RX_PKTS_ALL
  s.when (decide (64 ≤ len ∧ len ≤ s.rd F.PRT_MAC_CFG_MAX_FRAME port)) (fun t => t.count .PRT_CTR port (sizeBin len))

/-- The counters of a good frame. -/
def State.countRxOk (s : State) (port dst len : Nat) : State :=
  let s := (s.count .PRT_CTR port C.PRT_RX_FRAMES_OK).countBy .PRT_CTR port C.PRT_RX_OCTETS_OK len
  if dst = 2 ^ 48 - 1 then s.count .PRT_CTR port C.PRT_RX_BCAST
  else s.when (dst / 2 ^ 40 % 2 = 1) (fun t => t.count .PRT_CTR port C.PRT_RX_MCAST)

/-! ### Flow control (R74 to R77) -/

/-- A hold is set for so many quanta from now, replacing what it had left; 0 ends it (R74). -/
def State.setHold (s : State) (port c quanta : Nat) : State :=
  if quanta = 0 then s.endHold port c
  else
    let s := s.when (c == 8) (fun t => t.pausedSync port)
    let old := s.holds.getD (holdKey port c) none
    let h : Hold := { (old.getD { since := s.now, counted := s.now }) with
      until_ := s.now * 100 + quanta * modeQuantum (s.rd F.PRT_STATUS_ACTIVE_MODE port) }
    let s := { s with holds := s.holds.setD (holdKey port c) (some h) none }
    if c = 8 then s.wr F.PRT_STATUS_PAUSED port 1
    else if old.isSome then s
    else s.wr F.PRT_STATUS_PFC_PAUSED port (s.rd F.PRT_STATUS_PFC_PAUSED port + 2 ^ c)

/-- The port acts on received flow control of a mode (R74, R77). -/
def State.honours (s : State) (port mode : Nat) : Bool :=
  s.rd F.PRT_FC_CFG_MODE port == mode && s.on F.PRT_FC_CFG_RX_EN port && !s.on F.PRT_STATUS_STORM port

/-- A received PAUSE: counted, and the transmitter held for its time (R74). -/
def State.rxPause (s : State) (port time : Nat) : State :=
  (s.count .PRT_CTR port C.PRT_RX_PAUSE).when (s.honours port 1) (fun t => t.setHold port 8 (time % 65536))

/-- The time a PFC frame gives class c: the longest of the enabled priorities that map to it; none when it names none
(R74; log 12). -/
def State.pfcTime (s : State) (port enable : Nat) (times : List Nat) (c : Nat) : Option Nat :=
  match (s.prioritiesOf port c).filter (fun p => bit enable p) with
  | [] => none
  | ps => some (ps.foldl (fun a p => max a (times.getD p 0 % 65536)) 0)

/-- A received PFC frame: counted, and the classes it names held (R74). -/
def State.rxPfc (s : State) (port enable : Nat) (times : List Nat) : State :=
  let s := (s.count .PRT_CTR port C.PRT_RX_PFC).each ((List.range 8).filter (fun p => bit enable p))
    (fun p t => t.count .PRT_CTR port (C.PRT_RX_PFC_PRIO + p))
  s.when (s.honours port 2) (fun t => t.each ((List.range 8).filter (fun c => bit (t.rd F.PRT_FC_CFG_PFC_RX_CLASSES port) c))
    (fun c u => match u.pfcTime port enable times c with
      | some q => u.setHold port c q
      | none => u))

/-- The in-range length error of IEEE 802.3 (log 161). -/
def lengthError (f : Bytes) : Bool :=
  let t := beAt f 12 2
  let n := f.length - 14
  decide (t ≤ 1500) && (if 46 ≤ t then t != n else decide (46 < n))

/-- The counts of a frame with a good FCS: aFramesReceivedOK leaves out an in-range length error (R79). -/
def State.countRxGood (s : State) (port : Nat) (f : Bytes) : State :=
  if lengthError f then s.count .PRT_CTR port C.PRT_RX_LEN_ERR else s.countRxOk port (dstMac f) (f.length + 4)

/-- A MAC control frame: PAUSE, PFC, or one the adapter does not support; the MAC consumes it. -/
def State.macControl (s : State) (port : Nat) (f : Bytes) : State :=
  let known := dstMac f == 0x0180C2000001
  let op := beAt f 14 2
  if known ∧ op = 1 then s.rxPause port (beAt f 16 2)
  else if known ∧ op = 0x0101 then s.rxPfc port (beAt f 16 2) ((List.range 8).map (fun p => beAt f (18 + 2 * p) 2))
  else s.count .PRT_CTR port C.PRT_RX_UNSUP_OPCODE

/-- A hold runs out (R74). -/
def execFcHoldExpire (port c : Nat) (s : State) : Step :=
  match s.holds.getD (holdKey port c) none with
  | some h => .next (if c < 9 ∧ h.until_ ≤ s.now * 100 then s.endHold port c else s)
  | none => .next s

/-- Flow control that a write of PRT_FC_CFG has stopped is no longer generated; no XON is sent for it (R76; log 197). -/
def State.fcDrop (s : State) (port : Nat) : State :=
  s.each (List.range 9) (fun c t => if (t.fcClasses port).contains c then t else { t with xoff := t.xoff.setD (holdKey port c) none none })

/-- REFRESH quanta pass with the occupancy above XON: the XOFF is repeated (R76). -/
def execXoffRefresh (port c : Nat) (s : State) : Step :=
  match s.xoff.getD (holdKey port c) none with
  | some t => .next (if c < 9 ∧ (s.fcClasses port).contains c ∧ 100 * t + s.rd F.PRT_FC_QUANTA_REFRESH port * modeQuantum (s.rd F.PRT_STATUS_ACTIVE_MODE port) ≤ 100 * s.now ∧
      s.rd F.PRT_FC_THRESH_XON_KIB port * 1024 < s.occupancy port (if c = 8 then none else some c) then
    ({ s with xoff := s.xoff.setD (holdKey port c) (some s.now) none }).sendFc port c (s.rd F.PRT_FC_QUANTA_QUANTA port)
    else s)
  | none => .next s

/-- A hold has lasted STORM_MS: the event, and with STORM_ACTION 1 every hold ends and flow control is ignored (R77). -/
def execPrtPauseStorm (port c : Nat) (s : State) : Step :=
  match s.holds.getD (holdKey port c) none with
  | some h => .next (if c < 9 ∧ s.rd F.PRT_FC_CFG_STORM_MS port ≠ 0 ∧ !h.storm ∧
      h.since + s.rd F.PRT_FC_CFG_STORM_MS port * 1000000 ≤ s.now then
      let s := ({ s with holds := s.holds.setD (holdKey port c) (some { h with storm := true }) none }).raise (Ev.PRT_PAUSE_STORM port)
      if s.rd F.PRT_FC_CFG_STORM_ACTION port = 1 then (s.wr F.PRT_STATUS_STORM port 1).endHolds port else s
    else s)
  | none => .next s

/-! ### Preemption (R78) -/

/-- Sends a verify frame, the k-th. -/
def State.sendVerify (s : State) (port k : Nat) : State :=
  ({ s with verify := s.verify.set port (k, s.now) }).send (.orderedSets port 2)

/-- A write of PRT_PREEMPT: with EN verification starts, or is skipped. -/
def State.preemptWrite (s : State) (port v : Nat) : State :=
  let s := ((s.wr F.PRT_PREEMPT_EN port (bits v 31 31)).wr F.PRT_PREEMPT_VERIFY_DIS port (bits v 30 30)).wr F.PRT_PREEMPT_ADD_FRAG port (bits v 29 28)
  let s := (s.wr F.PRT_PREEMPT_EXPRESS port (bits v 27 20)).wrLegal F.PRT_PREEMPT_VERIFY_MS port (bits v 19 12)
  if !bit v 31 then (s.wr F.PRT_PREEMPT_VERIFY_STATUS port 0).wr F.PRT_STATUS_PREEMPT_ACTIVE port 0
  else if bit v 30 then (s.wr F.PRT_PREEMPT_VERIFY_STATUS port 0).wr F.PRT_STATUS_PREEMPT_ACTIVE port 1
  else ((s.wr F.PRT_PREEMPT_VERIFY_STATUS port 1).wr F.PRT_STATUS_PREEMPT_ACTIVE port 0).sendVerify port 1

/-- A write of PRT_PREEMPT. -/
def execPreemptEnableWrite (fn port v : Nat) (s : State) : Step :=
  .next (if port < 16 then s.asManager fn (fun s => s.preemptWrite port v) else s)

/-- A verify interval ends: another verify frame, up to three, then verification has failed. -/
def execPreemptVerifyFrame (port : Nat) (s : State) : Step :=
  .next (if s.rd F.PRT_PREEMPT_VERIFY_STATUS port = 1 ∧
      (s.verify.get port).2 + s.rd F.PRT_PREEMPT_VERIFY_MS port * 1000000 ≤ s.now then
    if (s.verify.get port).1 < 3 then s.sendVerify port ((s.verify.get port).1 + 1)
    else (s.wr F.PRT_PREEMPT_VERIFY_STATUS port 3).raise (Ev.PRT_PREEMPT_VERIFY port)
  else s)

/-- The partner's verify response arrives. -/
def execPreemptResponseRx (port : Nat) (s : State) : Step :=
  .next (if s.rd F.PRT_PREEMPT_VERIFY_STATUS port = 1 then
    (s.wr F.PRT_PREEMPT_VERIFY_STATUS port 2).wr F.PRT_STATUS_PREEMPT_ACTIVE port 1
  else s)

/-! ### Rate thresholds (spec/00_scope.md R423) -/

/-- Counts n occurrences in the running window of a rate threshold. -/
def State.rateCount (s : State) (src n : Nat) : State :=
  { s with rates := s.rates.mod src (fun r => { r with count := r.count + n }) }

/-- The start of a source's running window: the first one starts at the reset that zeroed the count. -/
def State.windowStart (s : State) (src : Nat) : Nat := max (s.rates.get src).start (s.supply.bootAt.getD 0)

/-- A window of len ns ends: the event when its count passed the threshold; the next window follows it. -/
def State.windowEnd (s : State) (src len limit : Nat) (passed : State → State) : State :=
  if s.windowStart src + len ≤ s.now then
    ({ s with rates := s.rates.set src { start := s.windowStart src + len, count := 0 } }).when (decide (limit < (s.rates.get src).count)) passed
  else s

/-- A one-second window of a port's corrected codewords ends (R86). -/
def execPrtFecDegraded (port : Nat) (s : State) : Step :=
  .next (if port < 16 then s.windowEnd (Ev.PRT_FEC_DEGRADED port) 1000000000 (2 ^ 20) (fun t => t.raise (Ev.PRT_FEC_DEGRADED port)) else s)

/-! ### The counter owner (R80 to R82) -/

/-- Firmware reads the counters of a port (16: the management port) and folds them into its totals. -/
def State.foldCounters (s : State) (port : Nat) : State :=
  (s.pausedSync port).each (List.range 56) (fun k t =>
    (t.add .PRT_TOTAL (64 * port + k) (t.val .PRT_CTR (64 * port + k))).put .PRT_CTR (64 * port + k) 0)

/-- A port's totals in offset order, 8 bytes each. -/
def State.totals (s : State) (port : Nat) : Bytes := (List.range 56).flatMap (fun k => leBytes 8 (s.val .PRT_TOTAL (64 * port + k)))

/-- A manager write of GLB_COUNTER_OWNER: 1 commits, and later writes are logged until a reset (R81;
spec/00_scope.md R12). -/
def State.ownerWrite (s : State) (v : Nat) : State :=
  if s.on F.GLB_COUNTER_OWNER_OWNER 0 then s.logFwWrite 0x230 v
  else if v % 2 = 1 then
    (s.wr F.GLB_COUNTER_OWNER_OWNER 0 1).each (List.range 16) (fun n t => t.journalCfg 0x08 13 (leBytes 8 n ++ t.totals n))
  else s

/-- A write of GLB_COUNTER_OWNER. -/
def execCounterOwnerCommit (fn v : Nat) (s : State) : Step := .next (s.asManager fn (fun s => s.ownerWrite v))

/-! ### The management port and NC-SI (R84, R85) -/

/-- The manager's management receive ring. -/
def State.mgmtRing (s : State) (kind : Nat) : Option Nat :=
  (s.rings.find? (fun e => e.2.state != 0 && e.2.fn == s.manager && e.2.mgmt && e.2.kind == kind)).map (·.1)

/-- The kinds of broadcast frames NC-SI passes on: ARP, DHCP client, DHCP server, NetBIOS (PRESUMED, log 15). -/
def broadcastKind (f : Bytes) : Nat :=
  let t := vlanTags f 1 12
  let o := t.1 + 2
  let port := beAt f (o + beAt f o 1 % 16 * 4 + 2) 2
  if beAt f t.1 2 = 0x0806 then 1
  else if beAt f t.1 2 = 0x0800 ∧ beAt f (o + 9) 1 = 17 then
    (if port = 68 then 2 else if port = 67 then 4 else if port = 137 ∨ port = 138 then 8 else 0)
  else 0

/-- The channel takes a frame: it is enabled, the frame's VLAN passes its VLAN mode, and an address or broadcast filter that
the board management controller set names it (R85; the VLAN modes and broadcast kinds: PRESUMED, log 15). -/
def NcSi.takes (n : NcSi) (f : Bytes) : Bool :=
  let vlan := match outerTci f with
    | none => n.vlanMode != 1
    | some t => n.vlanMode == 3 || (n.vlanMode != 0 && n.vlans.contains (t % 4096))
  n.enabled && vlan && (n.filters.contains (dstMac f) || (dstMac f == 2 ^ 48 - 1 && n.bcast &&& broadcastKind f != 0))

/-- A frame arrives at the management port: bytes without FCS, and whether the FCS is good. Its length is judged as at the network
ports, against 1,522 bytes, and a MAC control frame holds nothing (log 199). A frame without a ring counts in RX_DROP and in
the counters of good frames: DESIGN CHOICE, log 200. -/
def State.mgmtRx (s : State) (data : Bytes) (good : Bool) : State :=
  let len := data.length + 4
  let s := s.countRxAll 16 len
  if len < 64 then s.count .PRT_CTR 16 (if good then C.PRT_RX_UNDERSIZE else C.PRT_RX_FRAGMENT)
  else if s.rd F.PRT_MAC_CFG_MAX_FRAME 16 < len then s.count .PRT_CTR 16 (if good then C.PRT_RX_OVERSIZE else C.PRT_RX_JABBER)
  else if !good then s.count .PRT_CTR 16 C.PRT_RX_FCS_ERR
  else
    let s := s.countRxGood 16 data
    if beAt data 12 2 = 0x8808 then s.macControl 16 data
    else if s.on F.PRT_MGMT_CFG_NCSI_EN 0 && s.ncsi.takes data then s.send (.ncsi data)
    else match s.mgmtRing 2 with
      | some k => s.addPkt { stage := .rxDma k, data := data, fromWire := false, dstRing := k, func := s.manager
                             stamp := s.stamp * 2 ^ 13 }
      | none => s.count .PRT_CTR 16 C.PRT_RX_DROP

/-- A management port frame is delivered to the manager's rings or to NC-SI (R84, R85). -/
def execMgmtFrameRx (data : Bytes) (good : Bool) (s : State) : Step :=
  .next (if s.on F.PRT_MGMT_CFG_EN 0 ∧ s.on F.PRT_MGMT_CFG_LINK_UP 0 then s.mgmtRx data good else s)

/-- A frame leaves through the management port. -/
def State.mgmtTx (s : State) (data : Bytes) : State :=
  (s.send (.mgmtFrame (data ++ fcsOf data))).countTx 16 data (data.length + 4)

/-- A frame from the board management controller passes to the management port (R85). -/
def execNcsiPassthroughFrame (data : Bytes) (s : State) : Step :=
  .next (if s.on F.PRT_MGMT_CFG_EN 0 ∧ s.on F.PRT_MGMT_CFG_NCSI_EN 0 ∧ s.on F.PRT_MGMT_CFG_LINK_UP 0 ∧ s.ncsi.enabled ∧ s.ncsi.txEnabled then
    s.mgmtTx data
  else s)

/-- What a command that sets the channel leaves (DSP0222: PRESUMED, log 15); none where it only reports. -/
def NcSi.set (n : NcSi) : NcSiCmd → Option NcSi
  | .clearInitialState => some { n with ready := true }
  | .selectPackage => some { n with selected := true }
  | .deselectPackage => some { n with selected := false }
  | .enableChannel => some { n with enabled := true }
  | .disableChannel => some { n with enabled := false }
  | .resetChannel => some { selected := n.selected }
  | .enableTx => some { n with txEnabled := true }
  | .disableTx => some { n with txEnabled := false }
  | .aenEnable mask => some { n with aen := mask }
  | .setLink v => some { n with link := v }
  | .addFilter mac => some { n with filters := n.filters.filter (· != mac) ++ [mac] }
  | .removeFilter mac => some { n with filters := n.filters.filter (· != mac) }
  | .clearFilters => some { n with filters := [] }
  | .vlanFilter vid on => some { n with vlans := n.vlans.filter (· != vid) ++ (if on then [vid] else []) }
  | .enableVlan mode => some { n with vlanMode := mode }
  | .disableVlan => some { n with vlanMode := 0 }
  | .broadcast kinds => some { n with bcast := kinds }
  | .noBroadcast => some { n with bcast := 0 }
  | .linkStatus | .portLinks | .portTotals _ | .mandatory _ => none

/-- A command that the channel answers in its Initial State. -/
def ncsiFirst : NcSiCmd → Bool
  | .clearInitialState | .selectPackage | .deselectPackage => true
  | _ => false

/-- The data of a report. -/
def State.ncsiReport (s : State) : NcSiCmd → State × List Nat
  | .linkStatus => (s, [s.rd F.PRT_MGMT_CFG_LINK_UP 0, s.rd F.PRT_MGMT_CFG_SPEED 0])
  | .portLinks => (s, (List.range 16).map (fun n => s.rd F.PRT_STATUS_LINK_UP n))
  | .portTotals n =>
    let t := if s.on F.GLB_COUNTER_OWNER_OWNER 0 then s else s.foldCounters n
    (t, s.rd F.GLB_COUNTER_OWNER_OWNER 0 :: (List.range 56).map (fun k => t.val .PRT_TOTAL (64 * n + k)))
  | _ => (s.used, [s.fresh])

/-- An NC-SI command is served (R85): code 0 is the response of a command completed, code 1 of one that the channel's Initial
State refuses (PRESUMED, log 15). -/
def execNcsiCommand (cmd : NcSiCmd) (s : State) : Step :=
  if !s.ncsi.ready && !ncsiFirst cmd then .next (s.send (.ncsiResponse 1 [1]))
  else match s.ncsi.set cmd with
    | some n => .next (({ s with ncsi := n }).send (.ncsiResponse 0 []))
    | none => (let r := s.ncsiReport cmd; .next (r.1.send (.ncsiResponse 0 r.2)))

/-- A change of the management link, announced where the board management controller asked for it (log 15). -/
def State.mgmtLink (s : State) (up : Nat) : State :=
  (s.wr F.PRT_MGMT_CFG_LINK_UP 0 up).when (s.on F.PRT_MGMT_CFG_NCSI_EN 0 && s.ncsi.enabled && bit s.ncsi.aen 0)
    (fun t => t.send (.ncsiAen 0 [up]))

/-- The management port's link comes up at a speed. -/
def execMgmtLinkUp (speed : Nat) (s : State) : Step :=
  .next (if s.on F.PRT_MGMT_CFG_EN 0 ∧ !s.on F.PRT_MGMT_CFG_LINK_UP 0 then
    ((s.wr F.PRT_MGMT_CFG_SPEED 0 (if s.on F.PRT_MGMT_CFG_SGMII 0 then speed % 3 else 2)).mgmtLink 1).raise Ev.SVC_MGMT_LINK_UP
  else s)

/-- The management port's link goes down. -/
def execMgmtLinkDown (s : State) : Step :=
  .next (if s.on F.PRT_MGMT_CFG_LINK_UP 0 then (s.mgmtLink 0).raise Ev.SVC_MGMT_LINK_DOWN else s)

end Sys2Proof.Machine
end

