-- ==== Sys2Proof/Machine/Mirror.lean ====
section
/-! DEFINITION. Messages of a mirror pair's primary (spec/10_redundancy.md, "Mirror pairs", R266). -/

namespace Sys2Proof.Machine

/-- The frame of a mirror message: the peer's address, the port's, the mirror VLAN at priority 7 (log 17), EtherType
0x88B5, the header and the payload. -/
def State.mirrorFrame (s : State) (kind : Nat) (payload : Bytes) : Bytes :=
  let port := s.rd F.MIR_CTRL_PORT 0
  beBytes 6 s.mir.peerMac ++ beBytes 6 (s.rd F.PRT_MAC_ADDR_ADDR port) ++ beBytes 2 0x8100 ++
    beBytes 2 (7 * 8192 + s.rd F.MIR_CTRL_VID 0) ++ beBytes 2 0x88B5 ++
    beBytes 1 1 ++ beBytes 1 kind ++ beBytes 2 (s.rd F.REL_DEVICE_NUM 0) ++ beBytes 4 s.mir.pair ++ beBytes 4 s.mir.mseq ++
    beBytes 4 0 ++ payload

/-- Sends a mirror message through traffic class 7 of the mirror port's default class queue, or counts it when the port
is down or fenced. -/
def State.mirrorSend (s : State) (kind : Nat) (payload : Bytes) : State :=
  let port := s.rd F.MIR_CTRL_PORT 0
  let f := s.mirrorFrame kind payload
  let s := { s with mir := { s.mir with mseq := (s.mir.mseq + 1) % 2 ^ 32, txAt := s.now } }
  if !s.on F.PRT_STATUS_LINK_UP port || s.isFenced (unitPort port) 0 then
    ({ s with mir := { s.mir with txDrops := s.mir.txDrops + 1 } }).raiseMs Ev.MIR_TX_DROP
  else s.addPkt { stage := .toTm, data := f, fromWire := false, stamp := s.stamp * 2 ^ 13, verdict := { action := 3, tc := 7, word2 := 32768 * (port / 8) + 8 * (port % 8) + 7 } }

end Sys2Proof.Machine
end

