-- ==== Sys2Proof/Machine/Tables.lean ====
section
/-! DEFINITION. The lookup tables: L2 with learning and ageing, the flow table, the LPM routes
(spec/04_parsing_and_tables.md R94 to R113). -/

namespace Sys2Proof.Machine

/-! ### The L2 table -/

/-- The key of entry i of pipeline p's L2 table. -/
def l2Key (p i : Nat) : Nat := 524288 * p + i

/-- The 16 bytes of an L2 entry. -/
def L2Entry.encode (e : L2Entry) : Bytes :=
  beBytes 6 e.mac ++ leBytes 2 (e.owner % 4096 + 4096 * b2n e.destFn + 8192 * b2n e.discard + 16384 * b2n e.toManager) ++
    leBytes 4 (e.tag % 2 ^ 24 + 2 ^ 24 * b2n e.isVni + 2 ^ 25 * b2n e.valid + 2 ^ 26 * b2n e.static + 2 ^ 27 * b2n e.hit +
      2 ^ 28 * b2n e.stale + 2 ^ 29 * b2n e.learned) ++
    leBytes 4 (e.index % 2 ^ 20 + 2 ^ 20 * e.dest)

/-- The entry 16 bytes give. -/
def L2Entry.decode (b : Bytes) : L2Entry :=
  let w1 := leAt b 6 2; let w2 := leAt b 8 4; let w3 := leAt b 12 4
  { mac := beAt b 0 6, owner := bits w1 11 0, destFn := bit w1 12, discard := bit w1 13, toManager := bit w1 14
    tag := bits w2 23 0, isVni := bit w2 24, valid := bit w2 25, static := bit w2 26, hit := bit w2 27, stale := bit w2 28
    learned := bit w2 29, index := bits w3 19 0, dest := bits w3 31 20 }

/-- The status word of a hit on entry i. -/
def L2Entry.status (e : L2Entry) (i : Nat) : Nat :=
  2 ^ 36 * i + 2 ^ 35 * b2n e.static + 2 ^ 32 * b2n e.destFn + 2 ^ 33 * b2n e.discard + 2 ^ 34 * b2n e.toManager +
    2 ^ 20 * e.dest + e.index

/-- The valid entry of a pipeline with a key. -/
def State.l2Find (s : State) (p mac tag : Nat) (vni : Bool) : Option Nat :=
  (s.l2.find? (fun e => e.1 / 524288 == p && e.2.valid && e.2.mac == mac && e.2.tag == tag && e.2.isVni == vni)).map (·.1 % 524288)

/-- A free way of the key's two buckets of eight. -/
def State.l2Free (s : State) (p mac tag : Nat) (vni : Bool) : Option Nat :=
  let ways (k : Nat) : List Nat := (List.range 8).map (fun w => Config.l2Hash k mac tag vni % 65536 * 8 + w)
  (ways 1 ++ ways 2).find? (fun i => !(s.l2.get (l2Key p i)).valid)

/-- Writes an entry, keeping the count of learned entries of its port. -/
def State.l2Write (s : State) (p i : Nat) (e : L2Entry) : State :=
  let counts (x : L2Entry) : Bool := x.valid && x.learned && !x.destFn && decide (x.dest < 16)
  let old := s.l2.get (l2Key p i)
  let s := s.when (counts old) (fun t => t.wr F.TBL_L2_COUNT_LEARNED (16 * p + old.dest) (t.rd F.TBL_L2_COUNT_LEARNED (16 * p + old.dest) - 1))
  let s := s.when (counts e) (fun t => t.wr F.TBL_L2_COUNT_LEARNED (16 * p + e.dest) (t.rd F.TBL_L2_COUNT_LEARNED (16 * p + e.dest) + 1))
  { s with l2 := s.l2.set (l2Key p i) e }

/-- A lookup hit sets HIT (R95). -/
def State.l2Hit (s : State) (p i : Nat) : State := { s with l2 := s.l2.mod (l2Key p i) (fun e => { e with hit := true }) }

/-- Learns still in flight: an entry leaves the list after 16 core cycles, 11 ticks (R100). -/
def State.inFlight (s : State) (p : Nat) : List (Nat × Nat) := (s.l2Flight.get p).filter (fun e => decide (s.now < e.2))

/-- A port's learning on a pipeline is excess (R98): code 4 or 5. -/
def State.l2Excess (s : State) (p port : Nat) : State × Nat × Nat :=
  let flood := s.on F.TBL_L2_PORT_EXCESS port
  let s := s.count .L2_CTR p (if flood then C.L2_EXCESS_FLOODED else C.L2_EXCESS_DROPPED)
  (s.raiseLimited Ev.TBL_L2_LEARN_LIMIT (16 * p + port) 1000000000, if flood then 5 else 4, 0)

/-- The port has reached its limit of learned entries on the pipeline. -/
def State.l2AtLimit (s : State) (p port : Nat) : Bool :=
  decide (s.rd F.TBL_L2_PORT_LIMIT port ≤ s.rd F.TBL_L2_COUNT_LEARNED (16 * p + port))

/-- A source that misses: learned, deferred, excess, or without room (R98, R100). A port at its limit whose buckets are full as well
is excess: DESIGN CHOICE, log 203. -/
def State.l2Learn (s : State) (p port mac tag : Nat) (vni : Bool) : State × Nat × Nat :=
  if !s.on F.TBL_L2_PORT_LEARN_EN port then (s, 0, 0)
  else if 64 ≤ (s.inFlight p).length then (s.count .L2_CTR p C.L2_LEARN_DEFERRED, 0, 0)
  else if s.l2AtLimit p port then s.l2Excess p port
  else match s.l2Free p mac tag vni with
    | none => ((s.count .L2_CTR p C.L2_LEARN_FULL).raiseLimited Ev.TBL_L2_LEARN_FULL p 1000000000, 6, 0)
    | some i =>
      let s := s.l2Write p i { mac := mac, owner := s.manager, tag := tag, isVni := vni, valid := true, learned := true, dest := port }
      let s := { s with l2Flight := s.l2Flight.set p (s.inFlight p ++ [(i, s.now + 11)]) }
      (s.count .L2_CTR p C.L2_LEARNED_TOTAL, 2, i)

/-- A source check, or a learn request, of a key for a port: the L2SRC code and entry (R96, R98 to R100). -/
def State.l2Source (s : State) (p port mac tag : Nat) (vni : Bool) : State × Nat × Nat :=
  match s.l2Find p mac tag vni with
  | none => s.l2Learn p port mac tag vni
  | some i =>
    let e := s.l2.get (l2Key p i)
    let s := s.l2Hit p i
    if (s.inFlight p).any (fun f => f.1 == i) then (s, 2, i)
    else if !e.destFn && e.dest == port then (s, 1, i)
    else if e.static then
      ((s.count .L2_CTR p C.L2_MOVE_DENIED).raiseLimited Ev.TBL_L2_MOVE_DENIED p 1000000000, 7, 0)
    else if !s.on F.TBL_L2_PORT_LEARN_EN port then (s, 1, i)
    else if s.l2AtLimit p port then s.l2Excess p port
    else
      let s := s.l2Write p i { s.l2.get (l2Key p i) with dest := port, destFn := false }
      (s.count .L2_CTR p C.L2_MOVED, 3, i)

/-- The packets in a pipeline's dispatch queue. -/
def State.dispatchDepth (s : State) (pipe : Nat) : Nat := (s.dispatchQ.filter (fun h => match s.pkt h with
  | some p => p.pipe == pipe
  | none => false)).length

/-- A pipeline's dispatch queue has one of its 512 credits. -/
def State.dispatchCredit (s : State) (pipe : Nat) : Bool := decide (s.dispatchDepth pipe < 512)

/-- A packet enters its pipeline's dispatch queue. -/
def State.toDispatch (s : State) (h : Nat) : State :=
  ({ s with dispatchQ := s.dispatchQ ++ [h] }).moveTo h .checked

/-- The lookup front end checks the source of a parsed frame before dispatch and records L2SRC; an excess frame with
EXCESS 0 is discarded (R96, R98). The frame waits while the dispatch queue has no credit. -/
def execL2SourceCheck (h : Nat) (s : State) : Step :=
  match s.pkt h with
  | none => .next s
  | some p =>
    if p.stage = .parsed ∧ s.dispatchCredit p.pipe then
      let r := s.l2Source p.pipe p.port (srcMac p.data) (outerVid p.data) false
      let s := r.1
      if r.2.1 = 4 then .next (s.dropPkt h 6)
      else .next ((s.setPkt h { p with fields := p.fields.set 14 (2 ^ 61 * r.2.1 + r.2.2) }).toDispatch h)
    else .next s

/-! ### Ageing (R101, R102, R108) -/

/-- Places of a sweep: sweeps 0 to 3 are the L2 tables, 4 and 5 the flow halves. -/
def sweepSize (k : Nat) : Nat := if k < 4 then 524288 else 33554432

/-- The time of place i of a pass. -/
def Sweep.timeOf (w : Sweep) (k i : Nat) : Nat := w.start + i * w.ageS * 1000000000 / sweepSize k

/-- Place i is due: not yet passed, its time reached, and nothing in use skipped. -/
def State.visitDue (s : State) (k i : Nat) (skips : Bool) : Bool :=
  let w := s.sweeps.get k
  w.running && decide (w.next ≤ i ∧ i < sweepSize k ∧ w.timeOf k i ≤ s.now) && !skips

/-- The sweep goes on behind place i. -/
def State.visited (s : State) (k i : Nat) : State := { s with sweeps := s.sweeps.mod k (fun w => { w with next := i + 1 }) }

/-- A visit of an L2 entry (R101). -/
def State.l2Visit (s : State) (p i : Nat) : State :=
  let e := s.l2.get (l2Key p i)
  if !e.valid || e.static then s
  else if e.hit then s.l2Write p i { e with hit := false, stale := false }
  else if !e.stale then s.l2Write p i { e with stale := true }
  else (s.l2Write p i default).count .L2_CTR p C.L2_AGED

/-- The L2 sweeper visits an entry. -/
def execL2AgeVisit (pipe entry : Nat) (s : State) : Step :=
  let skips := s.l2.any (fun e => e.1 / 524288 == pipe && e.2.valid && !e.2.static &&
    decide ((s.sweeps.get pipe).next ≤ e.1 % 524288 ∧ e.1 % 524288 < entry))
  .next (if pipe < 4 ∧ s.visitDue pipe entry skips then (s.l2Visit pipe entry).visited pipe entry else s)

/-- A new pass from place 0 at a time, at the pace configured now. -/
def State.newPass (s : State) (k start ageS : Nat) : State :=
  { s with sweeps := s.sweeps.mod k (fun w => { w with running := true, start := start, ageS := ageS, next := 0 }) }

/-- The next pass follows the last back to back (R102). -/
def State.nextPass (s : State) (k ageS : Nat) : State :=
  let w := s.sweeps.get k
  if w.running ∧ w.start + w.ageS * 1000000000 ≤ s.now then s.newPass k (w.start + w.ageS * 1000000000) ageS else s

/-- A pass over a pipeline's L2 table starts. -/
def execL2AgePassStart (pipe : Nat) (s : State) : Step :=
  .next (if pipe < 4 then s.nextPass pipe (s.rd F.TBL_L2_CFG_AGE_S pipe) else s)

/-- A pass over a half of the flow table starts. -/
def execFlowAgePassStart (half : Nat) (s : State) : Step :=
  .next (if half < 2 then s.nextPass (4 + half) (s.rd F.TBL_FLOW_CFG_AGE_S 0) else s)

/-- AGE_EN 0 stops a sweeper and abandons its pass; AGE_EN 1 after a stop starts a new pass now (R102). -/
def State.ageEn (s : State) (k : Nat) (en : Bool) (ageS : Nat) : State :=
  if !en then { s with sweeps := s.sweeps.mod k (fun w => { w with running := false }) }
  else if (s.sweeps.get k).running then s
  else s.newPass k s.now ageS

/-- A write of TBL_L2_CFG. -/
def State.l2CfgWrite (s : State) (p v : Nat) : State :=
  let s := (s.wr F.TBL_L2_CFG_AGE_EN p (bits v 31 31)).wrLegal F.TBL_L2_CFG_AGE_S p (bits v 19 0)
  s.ageEn p (bit v 31) (s.rd F.TBL_L2_CFG_AGE_S p)

/-- A write of TBL_L2_CFG. -/
def execTblL2AgeEnWrite (fn pipe v : Nat) (s : State) : Step :=
  .next (if pipe < 4 then s.asManager fn (fun s => s.l2CfgWrite pipe v) else s)

/-- A write of TBL_FLOW_CFG (R108). -/
def State.flowCfgWrite (s : State) (v : Nat) : State :=
  let s := (s.wr F.TBL_FLOW_CFG_AGE_EN 0 (bits v 31 31)).wrLegal F.TBL_FLOW_CFG_AGE_S 0 (bits v 19 0)
  (s.ageEn 4 (bit v 31) (s.rd F.TBL_FLOW_CFG_AGE_S 0)).ageEn 5 (bit v 31) (s.rd F.TBL_FLOW_CFG_AGE_S 0)

/-- A write of TBL_L2_RD_CMD: with GO the 16 bytes of the entry are latched, and GO reads 0 again. -/
def State.l2ReadCmd (s : State) (v : Nat) : State :=
  let s := (s.wr F.TBL_L2_RD_CMD_PIPE 0 (bits v 29 28)).wr F.TBL_L2_RD_CMD_INDEX 0 (bits v 18 0)
  if bit v 31 then
    let b := (s.l2.get (l2Key (bits v 29 28) (bits v 18 0))).encode
    s.each (List.range 4) (fun k t => t.put .TBL_L2_RD_DATA k (leAt b (4 * k) 4))
  else s

/-- A write of TBL_L2_RD_CMD with GO. -/
def execL2ReadCmd (fn v : Nat) (s : State) : Step :=
  .next (s.asManager fn (fun s => s.l2ReadCmd (putBits v 31 31 1)))

/-! ### The flow table -/

/-- The key of a location of a half. -/
def flowLoc (half loc : Nat) : Nat := 33554432 * half + loc

/-- The half that owns a key: bit 0 of h3 (R103). -/
def flowHalf (key : Bytes) : Nat := (crc32c key).toNat % 2

/-- A key the table takes: KEY_TYPE 1 to 3 (R104). -/
def flowKeyOk (key : Bytes) : Bool := key.length == 64 && decide (1 ≤ leAt key 0 1 ∧ leAt key 0 1 ≤ 3)

/-- FUNC of a key. -/
def flowFunc (key : Bytes) : Nat := bits (leAt key 0 4) 19 8

/-- The location of a key in its half. -/
def State.flowFind (s : State) (key : Bytes) : Option Nat :=
  (s.flow.find? (fun e => e.1 / 33554432 == flowHalf key && e.2.valid && e.2.key == key)).map (·.1 % 33554432)

/-- The 128 bytes of a flow entry. -/
def FlowEntry.encode (e : FlowEntry) : Bytes :=
  fit 64 e.key ++ fit 48 e.result ++
    leBytes 4 (b2n e.valid + 2 * b2n e.static + 4 * b2n e.hit + 8 * b2n e.stale + 16 * b2n e.mirror) ++ leBytes 12 0

/-- The four locations of a key's bucket k, 1 or 2. -/
def flowWays (k : Nat) (key : Bytes) : List Nat := (List.range 4).map (fun w => Config.flowHash k key % 8388608 * 4 + w)

/-- The two buckets' locations. -/
def flowPlaces (key : Bytes) : List Nat := flowWays 1 key ++ flowWays 2 key

/-- The location is free. -/
def State.flowFree (s : State) (half loc : Nat) : Bool := !(s.flow.get (flowLoc half loc)).valid

/-- The locations an entry at a place may move to. -/
def State.flowMoves (s : State) (half loc : Nat) : List Nat :=
  (flowPlaces (s.flow.get (flowLoc half loc)).key).filter (fun l => l / 4 != loc / 4)

/-- Breadth-first search for a path of moves that ends in a free place: paths are listed last place first (R105). -/
def State.flowPath (s : State) (half : Nat) : Nat → List (List Nat) → Option (List Nat)
  | 0, _ => none
  | n + 1, paths =>
    let longer := paths.flatMap (fun (p : List Nat) => (s.flowMoves half (p.headD 0)).map (fun l => l :: p))
    match longer.find? (fun (p : List Nat) => s.flowFree half (p.headD 0)) with
    | some p => some p
    | none => s.flowPath half n longer

/-- Moves each entry of a path one place on, from the free end; its HIT and STALE go with it (R106, R108). The place it
leaves free is the path's first. -/
def State.flowShift (s : State) (half : Nat) : List Nat → State
  | to_ :: from_ :: rest =>
    let e := s.flow.get (flowLoc half from_)
    State.flowShift { s with flow := (s.flow.set (flowLoc half to_) e).set (flowLoc half from_) default } half (from_ :: rest)
  | _ => s

/-- Where a new key goes: a free way of its two buckets, or a way of them freed by at most four moves; the path of moves that frees
it (R103, R105; log 18). -/
def State.flowPlace (s : State) (key : Bytes) : Option (List Nat) :=
  let half := flowHalf key
  match (flowPlaces key).find? (fun l => s.flowFree half l) with
  | some l => some [l]
  | none => s.flowPath half 4 ((flowPlaces key).map (fun l => [l]))

/-! ### The flow caches (R107) -/

/-- The set a key falls into. -/
def flowSetKey (key : Bytes) : Nat := 65536 * flowHalf key + Config.flowSet key % 65536

/-- The key's entry is cached. -/
def State.flowCached (s : State) (key : Bytes) : Bool := (s.flowCache.get (flowSetKey key)).any (fun l => l.key == key)

/-- An access brings a key's line to the front of its set of 16; hbm is what HBM holds of it, where it was not cached. The line
least recently used is written back. -/
def State.flowTouch (s : State) (key : Bytes) (hbm : FlowEntry) : State :=
  let ls := s.flowCache.get (flowSetKey key)
  let line := (ls.find? (fun l => l.key == key)).getD { key := key, hbm := hbm }
  { s with flowCache := s.flowCache.set (flowSetKey key) ((line :: ls.filter (fun l => l.key != key)).take 16) }

/-- A deleted entry's line goes. -/
def State.flowUncache (s : State) (key : Bytes) : State :=
  { s with flowCache := s.flowCache.mod (flowSetKey key) (fun ls => ls.filter (fun l => l.key != key)) }

/-- What HBM holds at a location: the entry in force, or the older copy of one that is cached. -/
def State.flowHbm (s : State) (half loc : Nat) : FlowEntry :=
  let e := s.flow.get (flowLoc half loc)
  ((s.flowCache.get (flowSetKey e.key)).find? (fun l => e.valid && l.key == e.key)).elim e (·.hbm)

/-- TBL_FLOW_LOAD_HIGH when a half passes 90 % (R105). -/
def State.flowLoad (s : State) (half used : Nat) : State :=
  let s := s.wr F.TBL_FLOW_USED_ENTRIES half used
  s.when (decide (used * 10 > 33554432 * 9 ∧ (used - 1) * 10 ≤ 33554432 * 9)) (fun t => t.raiseLimited Ev.TBL_FLOW_LOAD_HIGH 0 1000000000)

/-! ### Mirrored entries (spec/10_redundancy.md R266) -/

/-- The entries of a resync that are due by now are sent, one each 10 µs (log 118). -/
def State.resyncDue (s : State) : State :=
  match s.mir.resync with
  | none => s
  | some t =>
    let n := min s.mir.left.length ((s.now - t) / 10000)
    let due := s.mir.left.take n
    let s := { s with mir := { s.mir with resync := some (t + 10000 * n), left := s.mir.left.drop n } }
    s.each due (fun key u => match u.flowFind key with
      | none => u
      | some l =>
        let e := u.flow.get (flowLoc (flowHalf key) l)
        u.when e.mirror (fun v => v.mirrorSend 4 (beBytes 1 1 ++ e.encode)))

/-- A FLOW message for a mirrored entry, when this adapter is primary: 1 insert, 2 RESULT change, 3 removal (log 17). -/
def State.mirrorFlow (s : State) (op : Nat) (body : Bytes) : State :=
  s.when (s.rd F.MIR_CTRL_ROLE 0 == 1) (fun t => t.resyncDue.mirrorSend 4 (beBytes 1 op ++ body))

/-- A flow insert: STATUS 3 INSERTED, 4 EXISTS, 5 FULL or 2 ERROR, with the location (R104, R105). -/
def State.flowInsert (s : State) (key result : Bytes) (static mirror replace : Bool) : State × Nat × Nat :=
  if !flowKeyOk key then (s, 2, 0)
  else
    let half := flowHalf key
    match s.flowFind key with
    | some l =>
      if replace then
        let s := s.flowTouch key (s.flow.get (flowLoc half l))
        let s := { s with flow := s.flow.mod (flowLoc half l) (fun e => { e with result := result }) }
        let e := s.flow.get (flowLoc half l)
        (s.when e.mirror (fun t => t.mirrorFlow 2 e.encode), 4, l)
      else (s, 4, l)
    | none => match s.flowPlace key with
      | none => (s.raiseMs Ev.TBL_FLOW_INSERT_FAIL, 5, 0)
      | some path =>
        let l := path.getLastD 0
        let s := s.flowShift half path
        let e : FlowEntry := { key := key, result := result, valid := true, static := static, mirror := mirror }
        let s := ({ s with flow := s.flow.set (flowLoc half l) e } : State).flowTouch key {}
        let s := s.flowLoad half (s.rd F.TBL_FLOW_USED_ENTRIES half + 1)
        (s.when mirror (fun t => t.mirrorFlow 1 e.encode), 3, l)

/-- Removes the entry at a location. -/
def State.flowRemove (s : State) (half l : Nat) : State :=
  let e := s.flow.get (flowLoc half l)
  if !e.valid then s
  else
    let s := ({ s with flow := s.flow.set (flowLoc half l) default } : State).flowUncache e.key
    let s := s.wr F.TBL_FLOW_USED_ENTRIES half (s.rd F.TBL_FLOW_USED_ENTRIES half - 1)
    s.when e.mirror (fun t => t.mirrorFlow 3 e.key)

/-- A flow delete: 0 HIT, 1 MISS, 2 ERROR. -/
def State.flowDelete (s : State) (key : Bytes) : State × Nat :=
  if !flowKeyOk key then (s, 2)
  else match s.flowFind key with
    | some l => (s.flowRemove (flowHalf key) l, 0)
    | none => (s, 1)

/-- A visit of a flow location; an aged-out entry is removed and counted (R108). -/
def State.flowVisit (s : State) (half l : Nat) : State :=
  let e := s.flow.get (flowLoc half l)
  let put (x : FlowEntry) : State := { s with flow := s.flow.set (flowLoc half l) x }
  if !e.valid || e.static then s
  else if e.hit then put { e with hit := false, stale := false }
  else if !e.stale then put { e with stale := true }
  else (({ s with sweeps := s.sweeps.mod (4 + half) (fun w => { w with aged := w.aged + 1 }) } : State).flowRemove half l)

/-- The flow sweeper visits a location. -/
def execFlowAgeVisit (half loc : Nat) (s : State) : Step :=
  let skips := s.flow.any (fun e => e.1 / 33554432 == half && e.2.valid && !e.2.static &&
    decide ((s.sweeps.get (4 + half)).next ≤ e.1 % 33554432 ∧ e.1 % 33554432 < loc))
  .next (if half < 2 ∧ s.visitDue (4 + half) loc skips then (s.flowVisit half loc).visited (4 + half) loc else s)

/-! ### The LPM routes (R109 to R112) -/

/-- The key of an installed prefix. -/
def routeKey (prefixBits plen : Nat) : Nat := 256 * prefixBits + plen

/-- A prefix of an address of so many bits: its top plen bits. -/
def topBits (width addr plen : Nat) : Nat := addr % 2 ^ width / 2 ^ (width - plen)

/-- The longest installed prefix that covers an address, searching lengths downward. -/
def lpmFind (m : SMap Route) (width addr : Nat) : Nat → Option (Nat × Route)
  | 0 => let r := m.get (routeKey 0 0); if r.valid then some (0, r) else none
  | n + 1 =>
    let r := m.get (routeKey (topBits width addr (n + 1)) (n + 1))
    if r.valid then some (n + 1, r) else lpmFind m width addr n

/-- The result entry of a route: NEXT_HOP, PLEN, FLAGS, USER. -/
def Route.word (r : Route) (plen : Nat) : Nat := r.nextHop % 2 ^ 20 + 2 ^ 20 * plen + 2 ^ 28 * (r.flags % 16) + 2 ^ 32 * (r.user % 2 ^ 29)

/-- The key of entry i of a stage's memory; the families' tries are kept apart (log 202). -/
def lpmKey (v6 : Bool) (stage i : Nat) : Nat := 2 ^ 28 * (stage + 16 * b2n v6) + i

/-- Address bits of a family, and strides of 8 below its root. -/
def lpmWidth (v6 : Bool) : Nat := if v6 then 128 else 32
def lpmDepth (v6 : Bool) : Nat := if v6 then 14 else 2

/-- The stage of the nodes that decide bits n to n + 7 of an address. -/
def lpmStage (n : Nat) : Nat := (n - 16) / 8 + 1

/-- The key of the slot a node gives an address whose first n bits led to it: BASE and the runs up to its next 8 bits. -/
def Lpm.child (l : Lpm) (v6 : Bool) (slot addr n : Nat) : Nat :=
  let node := l.nodes.get (lpmKey v6 (lpmStage n) (slot % 2 ^ 28))
  let i := topBits (lpmWidth v6) addr (n + 8) % 256
  lpmKey v6 (lpmStage n) (leAt node 0x20 4 + ((List.range (i + 1)).filter (fun k => bit (leAt node 0 32) k)).length - 1)

/-- The procedure of R109: from the slot with a key down to a slot without a child. -/
def Lpm.walk (l : Lpm) (v6 : Bool) (addr : Nat) : Nat → Nat → Nat → Nat
  | 0, k, _ => l.slots.get k
  | f + 1, k, n =>
    let slot := l.slots.get k
    if bit slot 31 then l.walk v6 addr f (l.child v6 slot addr n) (n + 8) else slot

/-- The root slot of an address in the root array at a base. -/
def rootKey (v6 : Bool) (base addr : Nat) : Nat := lpmKey v6 0 (base + topBits (lpmWidth v6) addr 16)

/-- The base of a family's root array. -/
def State.lpmRoot (s : State) (v6 : Bool) : Nat := s.rd (if v6 then F.TBL_LPM_ROOT_ROOT6 else F.TBL_LPM_ROOT_ROOT4) 0

/-- The status word of an LPM lookup: ERROR on a damaged path until firmware has rebuilt it (R109, R113). -/
def State.lpmStatus (s : State) (v6 : Bool) (addr : Nat) : Nat :=
  if s.lpm.damaged.any (fun d => d.1 == v6 && d.2.1 == topBits (lpmWidth v6) addr 16 && decide (s.now < d.2.2)) then 2 * 2 ^ 61
  else
    let ref := s.lpm.walk v6 addr (lpmDepth v6) (rootKey v6 (s.lpmRoot v6) addr) 16 % 2 ^ 22
    if ref = 0 then 2 ^ 61 else s.lpm.results.get ref

/-! ### Building the tries (R110, R111) -/

/-- The installed prefixes of a family. -/
def Lpm.routes (l : Lpm) (v6 : Bool) : SMap Route := if v6 then l.v6 else l.v4

/-- The result index of the longest installed prefix of at most n bits that covers an address; 0: none. -/
def coverRef (m : SMap Route) (width addr n : Nat) : Nat := match lpmFind m width addr n with
  | some (_, r) => r.ref
  | none => 0

/-- A prefix longer than n bits is installed under the first n bits of an address. -/
def longerUnder (m : SMap Route) (width addr n : Nat) : Bool :=
  m.any (fun e => e.2.valid && decide (n < e.1 % 256) && e.1 / 256 / 2 ^ (e.1 % 256 - n) == topBits width addr n)

/-- An index of a stage's memory behind all that are in use. -/
def nextFree {α : Type} (m : SMap α) (v6 : Bool) (stage : Nat) : Nat :=
  m.foldl (fun a e => if lpmKey v6 stage 0 ≤ e.1 ∧ e.1 < lpmKey v6 (stage + 1) 0 then max a (e.1 - lpmKey v6 stage 0 + 1) else a) 0

/-- The first slots of the runs of identical slots, as RUN's bits and as the run's values. -/
def slotRuns : List Nat → Nat → Option Nat → Nat × List Nat
  | [], _, _ => (0, [])
  | x :: r, i, last =>
    let t := slotRuns r (i + 1) (some x)
    if last = some x then t else (2 ^ i + t.1, x :: t.2)

/-- Writes a node over 256 slots into free memory, with its slot entries; its slot. -/
def Lpm.addNode (l : Lpm) (v6 : Bool) (stage : Nat) (slots : List Nat) : Lpm × Nat :=
  let r := slotRuns slots 0 none
  let at_ := nextFree l.nodes v6 stage
  let base := nextFree l.slots v6 stage
  ({ l with
      nodes := l.nodes.set (lpmKey v6 stage at_) (leBytes 32 r.1 ++ leBytes 4 base ++ leBytes 4 r.2.length ++ leBytes 8 0)
      slots := r.2.zipIdx.foldl (fun (m : SMap Nat) e => m.set (lpmKey v6 stage (base + e.2)) e.1) l.slots },
    2 ^ 31 + at_)

/-- The slot for the addresses that share the first n bits of addr, leaf-pushed: a result, or a new node whose children are built
first. -/
def Lpm.build (l : Lpm) (v6 : Bool) : Nat → Nat → Nat → Lpm × Nat
  | 0, addr, n => (l, coverRef (l.routes v6) (lpmWidth v6) addr n)
  | f + 1, addr, n =>
    if !longerUnder (l.routes v6) (lpmWidth v6) addr n then (l, coverRef (l.routes v6) (lpmWidth v6) addr n)
    else
      let r := (List.range 256).foldl (fun (a : Lpm × List Nat) i =>
        let b := Lpm.build a.1 v6 f (addr + i * 2 ^ (lpmWidth v6 - n - 8)) (n + 8)
        (b.1, a.2 ++ [b.2])) (l, [])
      r.1.addNode v6 (lpmStage n) r.2

/-- Frees the nodes and slot entries below a slot. -/
def Lpm.free (l : Lpm) (v6 : Bool) : Nat → Nat → Nat → Lpm
  | 0, _, _ => l
  | f + 1, slot, n =>
    if !bit slot 31 then l
    else
      let node := l.nodes.get (lpmKey v6 (lpmStage n) (slot % 2 ^ 28))
      let keys := (List.range (leAt node 0x24 4)).map (fun i => lpmKey v6 (lpmStage n) (leAt node 0x20 4 + i))
      let below := keys.foldl (fun (a : Lpm) k => Lpm.free a v6 f (a.slots.get k) (n + 8)) l
      { below with
        nodes := below.nodes.erase (lpmKey v6 (lpmStage n) (slot % 2 ^ 28))
        slots := keys.foldl (fun (m : SMap Nat) k => m.erase k) below.slots }

/-- The slot that the swap of a change writes: the lowest on its path above the highest node whose slots the change alters. -/
def Lpm.swapSlot (l : Lpm) (v6 : Bool) (addr plen : Nat) : Nat → Nat → Nat → Nat × Nat
  | 0, k, n => (k, n)
  | f + 1, k, n =>
    let next := l.child v6 (l.slots.get k) addr n
    if bit (l.slots.get k) 31 && decide (n + 8 < plen) && bit (l.slots.get next) 31 && longerUnder (l.routes v6) (lpmWidth v6) addr (n + 8) then
      l.swapSlot v6 addr plen f next (n + 8)
    else (k, n)

/-- Copies are built, one slot entry is swapped to point to them, and what it pointed to is freed (R110). -/
def Lpm.swap (l : Lpm) (v6 : Bool) (k addr n : Nat) : Lpm :=
  let old := l.slots.get k
  let b := l.build v6 (lpmDepth v6 - (n - 16) / 8) addr n
  ({ b.1 with slots := b.1.slots.set k b.2 }).free v6 (lpmDepth v6 - (n - 16) / 8) old n

/-- A complete new root array at a base, built beside the old one, which is then freed (R111). -/
def Lpm.newRoot (l : Lpm) (v6 : Bool) (old new : Nat) : Lpm :=
  let w := lpmWidth v6
  let built := (List.range 65536).foldl (fun (a : Lpm) r =>
    let b := a.build v6 (lpmDepth v6) (r * 2 ^ (w - 16)) 16
    { b.1 with slots := b.1.slots.set (lpmKey v6 0 (new + r)) b.2 }) l
  (List.range 65536).foldl (fun (a : Lpm) r =>
    let k := lpmKey v6 0 (old + r)
    let f := a.free v6 (lpmDepth v6) (a.slots.get k) 16
    { f with slots := f.slots.erase k }) built

/-- The prefixes of a family replaced. -/
def Lpm.setRoutes (l : Lpm) (v6 : Bool) (m : SMap Route) : Lpm := if v6 then { l with v6 := m } else { l with v4 := m }

/-- The trie follows its prefixes after a change of one: a path copied and swapped, or a new root array; the two places of a
family's root array take turns (R110, R111). A path rebuilt is no longer damaged. -/
def State.lpmFollow (s : State) (v6 : Bool) (addr plen : Nat) : State :=
  let root := s.lpmRoot v6
  if plen < 16 then
    ({ s with lpm := { s.lpm.newRoot v6 root (65536 - root) with damaged := s.lpm.damaged.filter (fun d => d.1 != v6) } } : State).wr
      (if v6 then F.TBL_LPM_ROOT_ROOT6 else F.TBL_LPM_ROOT_ROOT4) 0 (65536 - root)
  else
    let p := s.lpm.swapSlot v6 addr plen (lpmDepth v6) (rootKey v6 root addr) 16
    { s with lpm := { s.lpm.swap v6 p.1 addr p.2 with
        damaged := s.lpm.damaged.filter (fun d => !(d.1 == v6 && d.2.1 == topBits (lpmWidth v6) addr 16)) } }

/-! ### Lookups -/

/-- Some access of a flow bucket maps to a fenced pseudo-channel (spec/16_memory.md R374, R385): region 3 or 4, eight
accesses of 64 bytes. -/
def State.bucketLost (s : State) (half k : Nat) (key : Bytes) : Bool :=
  let b := Config.flowHash k key % 8388608
  (List.range 8).any (fun j => s.isFenced (unitHbm (32 * half + (8 * b + j) % 32)) 0)

/-- A lookup of a table: the status word and, for a flow hit, the six result words (R94 to R96, R104, R109). -/
def State.lookup (s : State) (table pipe : Nat) (key : List Nat) : State × List Nat :=
  if table = 0 then
    let mac := key.getD 0 0 % 2 ^ 48; let tag := key.getD 1 0
    match s.l2Find pipe mac (bits tag 23 0) (bit tag 24) with
    | some i => (s.l2Hit pipe i, [(s.l2.get (l2Key pipe i)).status i])
    | none => (s, [2 ^ 61])
  else if table = 1 then
    let k := key.flatMap (fun (w : Nat) => leBytes 8 w)
    let half := flowHalf k
    let first := match s.flowFind k with
      | some l => (flowWays 1 k).contains l
      | none => false
    if !flowKeyOk k || (!s.flowCached k && (s.bucketLost half 1 k || (!first && s.bucketLost half 2 k))) then (s, [2 * 2 ^ 61])
    else match s.flowFind k with
      | some l =>
        let e := s.flow.get (flowLoc (flowHalf k) l)
        ({ s.flowTouch k e with flow := s.flow.set (flowLoc (flowHalf k) l) { e with hit := true } },
          (2 ^ 55 * flowHalf k + l) :: (List.range 6).map (fun j => leAt (fit 48 e.result) (8 * j) 8))
      | none => (s, [2 ^ 61])
  else if table = 2 then (s, [s.lpmStatus false (key.getD 0 0)])
  else (s, [s.lpmStatus true (key.getD 0 0 * 2 ^ 64 + key.getD 1 0)])

/-- The damaged entry a lookup of the L2 table meets: its key's, or, on a miss, some way of its two buckets, a free value. -/
def State.l2Damaged (s : State) (pipe mac tag : Nat) (vni : Bool) : Nat :=
  (s.l2Find pipe mac tag vni).getD (Config.l2Hash (1 + s.fresh % 2) mac tag vni % 65536 * 8 + s.fresh / 2 % 8)

/-- An uncorrectable error met by a lookup: ERROR; firmware rewrites the L2 entry as invalid, or rebuilds the trie path after a
time the spec does not give, a free value, and lookups through it return ERROR until then (R113; log 202). -/
def State.tableError (s : State) (table pipe : Nat) (key : List Nat) : State × List Nat :=
  let mac := key.getD 0 0 % 2 ^ 48
  let tag := bits (key.getD 1 0) 23 0
  let vni := bit (key.getD 1 0) 24
  let t : State := match table with
    | 0 => s.used.l2Write pipe (s.l2Damaged pipe mac tag vni) default
    | 2 => { s.used with lpm := { s.lpm with damaged := s.lpm.damaged ++ [(false, topBits 32 (key.getD 0 0) 16, s.now + s.fresh)] } }
    | 3 => { s.used with lpm := { s.lpm with damaged := s.lpm.damaged ++ [(true, key.getD 0 0 / 2 ^ 48 % 2 ^ 16, s.now + s.fresh)] } }
    | _ => s
  ((t.countError .corrected).when (table != 1) (fun t => t.raise Ev.TBL_SRAM_ERROR), [2 * 2 ^ 61])

end Sys2Proof.Machine
end

