-- ==== Sys2Proof/Machine/Grinder.lean ====
section
/-! DEFINITION. Grinder: the parse loop and the metadata block (spec/04_parsing_and_tables.md R88 to R93). -/

namespace Sys2Proof.Machine

/-- A number of n bytes in network order at an offset; bytes past the end read as zero. -/
def beAtZ (f : Bytes) (o n : Nat) : Nat := fromBE (fit n (slice f o n))

/-- One recorded header. -/
structure Layer where
  ofs : Nat
  len : Nat
  cls : Nat
  state : Nat
  tunnel : Nat
deriving DecidableEq, Repr, Inhabited

/-- What a parse gathers. -/
structure Parse where
  state : Nat := 255
  ofs : Nat := 0
  layers : List Layer := []
  tunnels : Nat := 0
  /-- 0 NONE, 1 DEPTH, 2 TUNNEL_DEPTH, 3 TRUNC, 4 WINDOW, 5 BAD_LEN -/
  err : Nat := 0
  /-- recorded tags: TPID and TCI -/
  tags : List (Nat × Nat) := []
  ext : SMap Nat := []
deriving DecidableEq, Repr, Inhabited

/-- A forwarding programme's copy for one epoch bit and pipeline. -/
def grdCopy (epoch pipe : Nat) : Nat := 4 * epoch + pipe

/-- A parse-state entry's 32 bytes. -/
def State.parseState (s : State) (copy st : Nat) : Bytes := fit 32 (s.grdStates.get (256 * copy + st))

/-- The header length a parse-state entry gives (R89). -/
def headerLen (e f : Bytes) (ofs : Nat) : Nat :=
  let w := leAt e 8 4
  let v := beAtZ f (ofs + bits w 7 0) 2 / 2 ^ bits w 19 16
  leAt e 4 2 + (v &&& bits w 15 8) * 2 ^ bits w 23 20

/-- The recognition key of a header, right-aligned. -/
def recogKey (e f : Bytes) (ofs : Nat) : Nat :=
  let w := leAt e 12 4
  beAtZ f (ofs + bits w 7 0) 4 / 2 ^ (32 - bits w 13 8)

/-- The next state: the first matching recognition entry, else DEFAULT_NEXT (R89). -/
def State.nextState (s : State) (copy st : Nat) (e f : Bytes) (ofs : Nat) : Nat :=
  let key := recogKey e f ofs
  if bits (leAt e 12 4) 13 8 = 0 then leAt e 2 1
  else
    let hit (r : Nat) : Bool :=
      let b := fit 16 (s.grdRecog.get (64 * copy + r))
      bit (leAt b 0 4) 0 && leAt b 1 1 == st && (key &&& leAt b 8 4) == (leAt b 4 4 &&& leAt b 8 4)
    match (List.range 64).find? hit with
    | some r => leAt (fit 16 (s.grdRecog.get (64 * copy + r))) 2 1
    | none => leAt e 2 1

/-- The extractions of an entry, in order. -/
def extractions (e f : Bytes) (ofs : Nat) (ext : SMap Nat) : SMap Nat :=
  (List.range 4).foldl (fun (m : SMap Nat) k =>
    let w := leAt e (16 + 4 * k) 4
    if bits w 11 8 = 0 then m else m.set (bits w 14 12) (beAtZ f (ofs + bits w 7 0) (bits w 11 8))) ext

/-- The parse loop of R89. The TPID of a VLAN header that starts before offset 2 of the frame is recorded as 0: DESIGN CHOICE, log 204. -/
def State.parseLoop (s : State) (copy : Nat) (f : Bytes) : Nat → Parse → Parse
  | 0, p => p
  | n + 1, p =>
    if p.state = 255 then p
    else
      let e := s.parseState copy p.state
      let tunnel := bit (leAt e 0 4) 6
      let len := headerLen e f p.ofs
      if p.layers.length = 8 then { p with err := 1 }
      else if tunnel && p.tunnels == 2 then { p with err := 2 }
      else if len = 0 then { p with err := 5 }
      else if f.length < p.ofs + len then { p with err := 3 }
      else if 512 < p.ofs + len then { p with err := 4 }
      else
        let tunnels := p.tunnels + b2n tunnel
        let q : Parse := { p with
          tunnels := tunnels
          layers := p.layers ++ [⟨p.ofs, len, bits (leAt e 0 4) 5 0, p.state, tunnels⟩]
          ext := extractions e f p.ofs p.ext
          tags := if bit (leAt e 0 4) 8 then p.tags ++ [((if p.ofs < 2 then 0 else beAtZ f (p.ofs - 2) 2), beAtZ f p.ofs 2)] else p.tags
          ofs := p.ofs + len }
        if bit (leAt e 0 4) 7 then q
        else s.parseLoop copy f n { q with state := s.nextState copy p.state e f p.ofs }

/-- A whole parse from the start state of the packet's direction. -/
def State.parse (s : State) (copy : Nat) (f : Bytes) (fromWire : Bool) : Parse :=
  let start := s.grdStart.getD copy 65535
  s.parseLoop copy f 10 { state := if fromWire then start % 256 else start / 256 % 256 }

/-- Metadata field 4 + k of a layer. -/
def Layer.word (l : Layer) : Nat := 2 ^ 58 * l.cls + 2 ^ 50 * l.state + 2 ^ 48 * l.tunnel + 2 ^ 16 * l.len + l.ofs

/-- Metadata field 3. -/
def Parse.word (p : Parse) : Nat :=
  2 ^ 56 * p.state + 2 ^ 52 * p.layers.length + 2 ^ 50 * p.tunnels + 2 ^ 46 * p.err + p.ofs

/-- Metadata field 12. -/
def Parse.tagWord (p : Parse) : Nat :=
  let a := p.tags.getD 0 (0, 0); let b := p.tags.getD 1 (0, 0)
  2 ^ 48 * a.2 + 2 ^ 32 * b.2 + 2 ^ 16 * a.1 + b.1

/-- Metadata field 0 of a packet. -/
def Packet.word0 (p : Packet) : Nat :=
  2 ^ 63 * b2n (!p.fromWire) + 2 ^ 62 * p.epoch + 2 ^ 60 * p.pipe +
    (if p.fromWire then 2 ^ 36 * p.port else 2 ^ 40 * p.func + ringNo p.ring)

/-- Metadata field 1: the ingress short stamp, or the time of the descriptor's fetch. -/
def Packet.word1 (p : Packet) : Nat := if p.fromWire then shortOf p.stamp else p.stamp % 2 ^ 64

/-- The metadata fields Grinder fills (R93); field 14 is the source check's. HASH covers the frame as it stands in Carafe, after
MACsec: DESIGN CHOICE, log 205. -/
def Packet.metadata (p : Packet) (h : Nat) (r : Parse) : SMap Nat :=
  let m0 : SMap Nat := []
  let m := (((m0.set 0 p.word0).set 1 p.word1).set 2 (2 ^ 32 * (h % 2 ^ 32) + p.data.length)).set 3 r.word
  let m := (List.range 8).foldl (fun (m : SMap Nat) k => match r.layers[k]? with
    | some l => m.set (4 + k) l.word
    | none => m) m
  let m := (m.set 12 r.tagWord).set 13 (2 ^ 32 * steeringHash p.data + steeringHash p.data % 2 ^ 20)
  (List.range 8).foldl (fun (m : SMap Nat) k => m.set (16 + k) (r.ext.get k)) m

/-- The counter of a parse error. -/
def grdCounter : Nat → Nat
  | 1 => C.GRD_ERR_DEPTH
  | 2 => C.GRD_ERR_TUNNEL_DEPTH
  | 3 => C.GRD_ERR_TRUNC
  | 4 => C.GRD_ERR_WINDOW
  | _ => C.GRD_ERR_BAD_LEN

/-- Grinder takes a parse request: a credit is back, and with it one for the receive cell queue of the packet that gets it. -/
def State.parseTaken (s : State) (pipe : Nat) : State :=
  let s := s.retire (.parse pipe)
  match (s.unparsed (fun p => p.pipe == pipe)).head? with
  | some (_, p) => s.when p.fromWire (fun t => t.retire (.receiveCell p.port))
  | none => s

/-- Grinder parses a packet with the copy of its epoch bit (R88 to R90); a received frame goes on to the source check. A packet
without a parse credit, or a host frame without a dispatch credit, waits (spec/01_architecture.md R20). -/
def execGrinderParse (h : Nat) (s : State) : Step :=
  match s.pkt h with
  | none => .next s
  | some p =>
    if p.stage = .received ∧ s.hasParse h p ∧ (p.fromWire ∨ s.dispatchCredit p.pipe) then
      let s := s.parseTaken p.pipe
      let r := s.parse (grdCopy p.epoch p.pipe) p.data p.fromWire
      let s := s.count .GRD_CTR p.pipe C.GRD_PARSED
      let s := s.when (r.err != 0) (fun t => (t.count .GRD_CTR p.pipe (grdCounter r.err)).raiseLimited Ev.GRD_PARSE_LIMIT p.pipe 1000000)
      .next (let t := s.setPkt h { p with fields := p.metadata h r }
        if p.fromWire then t.moveTo h .parsed else t.toDispatch h)
    else .next s

end Sys2Proof.Machine
end

