-- ==== Sys2Proof/Machine/Flags.lean ====
section
/-! DEFINITION. The ALUs of a microcode word: shaping of srcB, results and flags (spec/06_microcode.md, "The ALUs",
R155). -/

namespace Sys2Proof.Machine

/-- 2^64. -/
abbrev W64 : Nat := 18446744073709551616

/-- B': srcB shifted by SH as SHK says, then cut to its low W bits (0: all 64). -/
def shapeB (b shift : Nat) : Nat :=
  let sh := bits shift 13 8
  let v := match bits shift 15 14 with
    | 0 => b * 2 ^ sh % W64
    | 1 => b / 2 ^ sh
    | 2 => unsigned 64 (signed 64 b / (2 ^ sh : Nat))
    | _ => b / 2 ^ sh + b * 2 ^ (64 - sh) % W64
  if bits shift 5 0 = 0 then v % W64 else v % 2 ^ bits shift 5 0

/-- Bits set in a number, of the low n. -/
def popCount (v : Nat) : Nat → Nat
  | 0 => 0
  | n + 1 => v % 2 + popCount (v / 2) n

/-- Leading zeros of the low n bits. -/
def leadingZeros (v : Nat) : Nat → Nat
  | 0 => 0
  | n + 1 => if bit v n then 0 else 1 + leadingZeros v n

/-- INS: A with bits [SH+W-1:SH] replaced by the low bits of srcB, cut at bit 63. -/
def insertField (a b shift : Nat) : Nat :=
  let sh := bits shift 13 8
  let w := if bits shift 5 0 = 0 then 64 - sh else bits shift 5 0
  let w := min w (64 - sh)
  a % 2 ^ sh + b % 2 ^ w * 2 ^ sh + a / 2 ^ (sh + w) * 2 ^ (sh + w)

/-- The 64-bit result of an operation on A, srcB and the flags from before the word. CMP and TST compute the value
their flags come from. -/
def aluResult (op a b shift flags : Nat) : Nat :=
  let b' := shapeB b shift
  let c := b2n (bit flags 2)
  match op with
  | 0x01 => b'
  | 0x02 => (a + b') % W64
  | 0x03 | 0x0D => (a + W64 - b') % W64
  | 0x04 | 0x0E => a &&& b'
  | 0x05 => a ||| b'
  | 0x06 => a ^^^ b'
  | 0x07 => a &&& (W64 - 1 - b')
  | 0x08 => a * 2 ^ (b' % 64) % W64
  | 0x09 => a / 2 ^ (b' % 64)
  | 0x0A => unsigned 64 (signed 64 a / (2 ^ (b' % 64) : Nat))
  | 0x0B => min a b'
  | 0x0C => max a b'
  | 0x0F => insertField a b shift
  | 0x10 => popCount b' 64
  | 0x11 => leadingZeros b' 64
  | 0x12 => fromBE (leBytes 8 b')
  | 0x13 => (~~~ (crcRun (~~~ (BitVec.ofNat 32 a)) (beBytes 8 b'))).toNat
  | 0x14 => (a + b' + c) % W64
  | 0x15 => (a + 2 * W64 - b' - (1 - c)) % W64
  | 0x16 => if bit flags 0 then a else b'
  | 0x17 => a % 2 ^ 32 * (b' % 2 ^ 32)
  | _ => 0

/-- C: carry out of ADD and ADDC, A ≥ B' for SUB, SUBB and CMP (taken literally, log 22), else clear (R155). -/
def aluCarry (op a b' flags : Nat) : Bool :=
  match op with
  | 0x02 => decide (W64 ≤ a + b')
  | 0x14 => decide (W64 ≤ a + b' + b2n (bit flags 2))
  | 0x03 | 0x0D | 0x15 => decide (b' ≤ a)
  | _ => false

/-- V: signed overflow of the same five operations, else clear. -/
def aluOverflow (op a b' flags : Nat) : Bool :=
  let exact : Option Int := match op with
    | 0x02 => some (signed 64 a + signed 64 b')
    | 0x14 => some (signed 64 a + signed 64 b' + b2n (bit flags 2))
    | 0x03 | 0x0D => some (signed 64 a - signed 64 b')
    | 0x15 => some (signed 64 a - signed 64 b' - (1 - b2n (bit flags 2) : Nat))
    | _ => none
  match exact with
  | some x => decide (x < -(2 ^ 63 : Int) ∨ (2 ^ 63 : Int) ≤ x)
  | none => false

/-- The flags an operation sets: Z and N of the result, C and V; U0 to U3 stay (R155). -/
def aluFlags (op a b shift flags : Nat) : Nat :=
  let r := aluResult op a b shift flags
  let b' := shapeB b shift
  flags / 16 * 16 + b2n (r == 0) + 2 * b2n (bit r 63) + 4 * b2n (aluCarry op a b' flags) + 8 * b2n (aluOverflow op a b' flags)

/-- CMP and TST set the flags whatever SF holds and write no destination. -/
def writesNothing (op : Nat) : Bool := op == 0x0D || op == 0x0E

/-- Operations that read srcB only. -/
def readsBOnly (op : Nat) : Bool := op == 0x01 || op == 0x10 || op == 0x11 || op == 0x12

/-- The conditions of BR and BRN that the flags alone give: COND 0 to 11 (spec/06_microcode.md, "Conditions"). -/
def flagCond (c flags : Nat) : Bool :=
  let z := bit flags 0; let n := bit flags 1; let cc := bit flags 2; let v := bit flags 3
  match c with
  | 0 => true
  | 1 => z
  | 2 => cc
  | 3 => n
  | 4 => v
  | 5 => cc && !z
  | 6 => n == v
  | 7 => !z && n == v
  | _ => bit flags (c - 4)

end Sys2Proof.Machine
end

