-- ==== Sys2Proof/Machine/Operands.lean ====
section
/-! DEFINITION. The operands of a microcode word: general registers, metadata fields, window words and specials, and
the event bits (spec/06_microcode.md "Operands", R154; spec/05_brew_engines.md R124, R133). -/

namespace Sys2Proof.Machine

/-! ### Threads -/

/-- A hardware thread: by endpoint ID below 1,024, and behind it, during the drain of a spare swap, the threads of the engine
swapped out, each with its endpoint ID on top (spec/05_brew_engines.md R116). -/
def State.thread (s : State) (t : Nat) : Thread := s.threads.get t

/-- Changes a thread. -/
def State.modThread (s : State) (t : Nat) (g : Thread → Thread) : State := { s with threads := s.threads.mod t g }

/-- Endpoint ID, cluster and logical engine of a thread. -/
def endpoint (t : Nat) : Nat := t % 1024
def clusterOf (t : Nat) : Nat := t % 1024 / 64
def engineOf (t : Nat) : Nat := t / 8 % 8

/-- The cluster's supervisor is thread 7 of logical engine 0. -/
def isSup (t : Nat) : Bool := t % 64 == 7
def supOf (c : Nat) : Nat := 64 * c + 7

/-- The epoch bit of new packets, as committed at the clusters. -/
def State.current (s : State) : Nat := s.rd F.GLB_EPOCH_STATUS_CURRENT 0

/-- The engine of an endpoint is being swapped out and the epoch bit is the old one: its threads are those of the engine
swapped out, 1,024 further on (spec/05_brew_engines.md R116). -/
def State.twin (s : State) (d ep : Nat) : Nat :=
  if (s.clusters.get (clusterOf d)).old.get (engineOf d) ≠ 0 ∧ ep ≠ s.current then 1024 else 0

/-- The physical engine a thread runs on. -/
def State.physical (s : State) (t : Nat) : Nat :=
  let e := engineOf t
  if 1024 ≤ t then (s.clusters.get (clusterOf t)).old.get e - 1 else bits (s.rd F.BRW_ENGINE_MAP_PHYS (clusterOf t)) (4 * e + 3) (4 * e)

/-- The control-store bank a thread fetches from (spec/06_microcode.md R148). -/
def State.bankOf (s : State) (t : Nat) : Nat :=
  if (s.thread t).epoch = 0 then s.rd F.CS_BANK_MAP_EPOCH0_BANK (clusterOf t) else s.rd F.CS_BANK_MAP_EPOCH1_BANK (clusterOf t)

/-! ### Messages in flight -/

/-- Fields of a channel header. -/
def ChanMsg.dest (m : ChanMsg) : Nat := bits m.header 63 48
def ChanMsg.src (m : ChanMsg) : Nat := bits m.header 47 32
def ChanMsg.type (m : ChanMsg) : Nat := bits m.header 28 25
def ChanMsg.gen (m : ChanMsg) : Nat := bits m.header 23 16
def ChanMsg.tag (m : ChanMsg) : Nat := bits m.header 15 0
def ChanMsg.word (m : ChanMsg) (k : Nat) : Nat := m.words.getD k 0

/-- A thread's fault-record slots beside its four-message inbox hold TYPE FAULT messages (R132). -/
def Thread.load (th : Thread) : Nat := (th.inbox.filter (fun m => m.type != 3)).length

/-- The event bits of a thread (R133): MSG, RESULTS and FAULT are levels, the others latched. -/
def Thread.eventBits (th : Thread) : Nat :=
  th.events / 4 % 2 ^ 11 * 4 + b2n (!th.inbox.isEmpty) + 2 * b2n th.board.isEmpty + 2 ^ 13 * b2n (th.inbox.any (fun m => m.type == 3))

/-- Latches an event of a thread. -/
def State.latch (s : State) (t k : Nat) : State :=
  s.modThread t (fun th => { th with events := if bit th.events k then th.events else th.events + 2 ^ k })

/-- Clears the latched events of a mask. -/
def clearBits (v mask : Nat) : Nat := v - (v &&& mask)

/-! ### Reading -/

/-- Metadata field k as a thread reads it (R124). -/
def Thread.field (th : Thread) (k : Nat) : Nat :=
  if k = 28 then th.eventBits
  else if k = 30 then 0
  else if k = 31 then (th.inbox.headD {}).header
  else if 32 ≤ k ∧ k ≤ 39 then (th.inbox.headD {}).word (k - 32)
  else th.ops.get (64 + k)

/-- A reserved operand. -/
def reservedOp (op : Nat) : Bool := decide (217 ≤ op ∧ op ≤ 223)

/-- The value of an operand for a thread; k tells several reads of one word apart (special RAND). -/
def State.operand (s : State) (t imm k op : Nat) : Nat :=
  let th := s.thread t
  let bank := s.bankOf t
  if op < 64 then th.ops.get op
  else if op < 128 then th.field (op - 64)
  else if op < 192 then th.ops.get op
  else if 224 ≤ op then (s.banks.get bank).consts.getD (op - 224) 0
  else match op with
    | 193 => W64 - 1
    | 194 => imm % 2 ^ 32
    | 195 => unsigned 64 (signed 32 imm)
    | 196 => imm % 2 ^ 32 * 2 ^ 32
    | 197 => s.stamp
    | 198 => th.epoch + 2 * s.current
    | 199 => endpoint t + 2 ^ 16 * s.physical t + 2 ^ 20 * (clusterOf t / 4)
    | 200 => th.flags
    | 204 => putBits (putBits th.stageHdr 47 32 0) 24 16 0
    | 213 => th.stack.length
    | 214 => th.pc
    | 215 => s.rd F.CS_IMAGE_ID_ID (2 * clusterOf t + bank)
    | 216 => (Config.freeValue (s.free + k)).toNat
    | _ => if 205 ≤ op ∧ op ≤ 212 then th.stage.get (op - 205) else 0

/-! ### Writing -/

/-- Writes an operand other than the specials with side effects; a write to a read-only or reserved operand is
discarded (R124, R154). -/
def State.writeOp (s : State) (t op v : Nat) : State :=
  let v := v % W64
  s.modThread t (fun th =>
    if op < 64 then { th with ops := th.ops.set op v }
    else if op < 128 then
      if op = 93 then { th with ops := th.ops.set op v, timerDone := false }
      else if 92 ≤ op ∧ op ≤ 103 then th
      else { th with ops := th.ops.set op v }
    else if op < 192 then { th with ops := th.ops.set op v, dirty := if bit th.dirty (op - 128) then th.dirty else th.dirty + 2 ^ (op - 128) }
    else if op = 200 then { th with flags := v % 256 }
    else if op = 204 then { th with stageHdr := v }
    else if 205 ≤ op ∧ op ≤ 212 then { th with stage := th.stage.set (op - 205) v }
    else th)

/-- The specials with side effects act: INBOX_POP, SIGNAL, EVENT_CLR (R132, R133, R154). Clears come before the sets of
the same word (R133). -/
def State.popInbox (s : State) (t : Nat) : State := s.modThread t (fun th => { th with inbox := th.inbox.drop 1 })

/-- Sets a signal of a thread of the same engine. -/
def State.signalOp (s : State) (t v : Nat) : State := s.latch (t / 8 * 8 + v % 8) (4 + bits v 10 8)

/-- Clears latched events. -/
def State.eventClr (s : State) (t v : Nat) : State := s.modThread t (fun th => { th with events := clearBits th.events v })

/-- The value that remains in a special two ALUs wrote: ALU1's (spec/06_microcode.md R152). -/
def lastWrite (ws : List (Nat × Nat)) (op : Nat) : Option Nat := (ws.filter (fun w => w.1 == op)).getLast?.map (·.2)

/-- The side effects of the specials two ALUs wrote: destination and value each. -/
def State.specials (s : State) (t : Nat) (ws : List (Nat × Nat)) : State :=
  let s := s.when (lastWrite ws 203).isSome (fun u => u.popInbox t)
  let s := match lastWrite ws 201 with
    | some v => s.eventClr t v
    | none => s
  match lastWrite ws 202 with
  | some v => s.signalOp t v
  | none => s

/-! ### Blocks (R156, R158) -/

/-- A block of n consecutive operands from op lies wholly in general registers. -/
def inGR (op n : Nat) : Bool := decide (op + n ≤ 64)

/-- In metadata fields 40 to 63. -/
def inMD (op n : Nat) : Bool := decide (104 ≤ op ∧ op + n ≤ 128)

/-- In window words. -/
def inWin (op n : Nat) : Bool := decide (128 ≤ op ∧ op + n ≤ 192)

/-- The operands of a block. -/
def block (op n : Nat) : List Nat := (List.range n).map (fun k => op + k)

end Sys2Proof.Machine
end

