-- ==== Sys2Proof/Machine/Micro.lean ====
section
/-! DEFINITION. The parts of a microcode word: ALU, MEM and TBL operations, channel posts, and faults
(spec/06_microcode.md R151 to R158; spec/05_brew_engines.md R129 to R136, R141). -/

namespace Sys2Proof.Machine

/-! ### The end of a thread's packet -/

/-- A packet's verdict waits in the reorder unit. -/
def State.toVerdict (s : State) (h : Nat) (v : Verdict) : State :=
  match s.pkt h with
  | none => s
  | some p =>
    let s := s.setPkt h { p with stage := .verdict, since := s.now, verdict := v }
    s.hwm .PIPE_CTR p.pipe C.PIPE_REORDER_HWM (s.pkts.filter (fun e => e.2.stage == .verdict && e.2.pipe == p.pipe)).length

/-- A DROP verdict with a REASON. -/
def dropVerdict (reason : Nat) : Verdict := { word := 2 ^ 51 * reason }

/-- A thread lets go of its packet and becomes IDLE. -/
def State.freeThread (s : State) (t : Nat) : State :=
  let s := s.modThread t (fun th => { th with st := .idle, pkt := none, board := [], pend := [], haltTime := 0, romWait := false, escalated := false, undo := [], later := [] })
  { s with clusters := s.clusters.mod (clusterOf t) (fun c => { c with idleSince := s.now }) }

/-- The packet of a thread ends with verdict DROP and a REASON; its staging is discarded (R137, R141). The verdict enters the
reorder unit however many it holds: R128 has only DONE words wait (DESIGN CHOICE, log 208). -/
def State.abortThread (s : State) (t reason : Nat) : State :=
  let th := s.thread t
  let s := match th.pkt with
    | some h =>
      let pipe := clusterOf t / 4
      let s := if reason = 0xFC then s.count .PIPE_CTR pipe C.PIPE_FLR_DROPS else s.count .BRW_CTR (clusterOf t) C.BRW_ABORTED
      s.toVerdict h (dropVerdict reason)
    | none => s
  (s.modThread t (fun th => { th with stageHdr := 0, stage := [] })).freeThread t

/-- The packet belongs to a generation of its function that an FLR has ended (R141). -/
def State.stale (s : State) (th : Thread) : Bool :=
  match th.pkt.bind (fun h => s.pkt h) with
  | some p => !p.fromWire && th.gen != s.rd F.HIF_FN_STATE_GEN th.func
  | none => false

/-! ### Faults (R135 to R138) -/

/-- A fault record reaches Barista. -/
def State.toBarista (s : State) (t code : Nat) : State :=
  ({ s with barista := s.barista ++ [(t, code)] }).raise (Ev.BRW_ESCALATED (clusterOf t))

/-- The supervisor starts at its entry point with the epoch in force. -/
def State.startSup (s : State) (c : Nat) : State :=
  let s := s.modThread (supOf c) (fun th => { th with st := .ready, stack := [], epoch := s.current, board := [], pend := [], pkt := none })
  s.modThread (supOf c) (fun th => { th with pc := s.rd F.CS_ENTRY_SUP (2 * c + s.bankOf (supOf c)) })

/-- The fault record of a thread. -/
def State.faultRecord (s : State) (t code detail addr : Nat) : ChanMsg :=
  let th := s.thread t
  { header := 2 ^ 48 * supOf (clusterOf t) + 2 ^ 32 * endpoint t + 2 ^ 29 * 3 + 2 ^ 25 * 3 + 2 ^ 24 * th.epoch + 2 ^ 16 * th.gen
    words := [2 ^ 56 * code + 2 ^ 40 * endpoint t + 2 ^ 24 * th.pc + 2 ^ 16 * (detail % 256), addr % W64, 2 ^ 32 * (th.pkt.getD 0 % 2 ^ 32), s.stamp] }

/-- A fault of the thread is outstanding. -/
def Thread.faulted (th : Thread) : Bool := th.st == .parked || (th.st == .halted && th.before == .parked)

/-- A thread faults: it parks and its record goes to the supervisor; the supervisor's own goes to Barista, whose T1
restarts it (log 23), one on an engine swapped out stops (R116). -/
def State.fault (s : State) (t code detail addr : Nat) : State :=
  let c := clusterOf t
  let s := s.count .BRW_CTR c C.BRW_FAULTS
  let s := s.when (code == 0x0E) (fun u => u.raiseMs (Ev.BRW_RUN_LIMIT c))
  let s := s.when (code == 0x03) (fun u => u.raise (Ev.BRW_CS_ERROR c))
  if isSup t then
    let s := (s.modThread t (fun th => { th with fault := code, undo := [] })).toBarista (endpoint t) code
    if 1024 ≤ t then s.modThread t (fun th => { th with st := .idle }) else s.startSup c
  else
    let s := s.modThread t (fun th => { th with
      st := if th.st = .halted then .halted else .parked
      before := .parked, fault := code, faultAt := s.now, escalated := false, faultAddr := addr, romWait := false })
    { s with chan := s.chan ++ [s.faultRecord t code detail addr] }

/-- A fault met outside the thread's own words: taken at once, or at the boundary after the decision on one outstanding
(R134, R135). -/
def State.faultLater (s : State) (t code addr : Nat) : State :=
  if (s.thread t).faulted then s.modThread t (fun th => { th with later := th.later ++ [(code, addr)] }) else s.fault t code 0 addr

/-- A thread may issue a word: READY, or STALLED and trying again. -/
def State.canIssue (s : State) (t : Nat) : Bool :=
  decide (t < 2048) && !s.coreStopped && ((s.thread t).st == .ready || (s.thread t).st == .stalled)

/-- A word does not issue: it is tried again at the thread's next slot. -/
def State.stall (s : State) (t : Nat) (why : Lack) : State := s.modThread t (fun th => { th with st := .stalled, lack := why })

/-- One of the operands has a result pending (R119, R161). -/
def Thread.pendingOn (th : Thread) (l : List Nat) : Bool := l.any (fun o => th.board.contains o)

/-- Table requests of a cluster's threads whose results have not come. -/
def State.lookups (s : State) (c : Nat) : List Pending :=
  (s.threads.filter (fun e => clusterOf e.1 == c)).flatMap (fun e => e.2.pend.filter (fun p => p.table))

/-- The thread that sent a message (R116). -/
def State.sender (s : State) (m : ChanMsg) : Nat := m.src + s.twin m.src (bits m.header 24 24)

/-- The thread a message reaches: a fault record the cluster's supervisor; another message of the old epoch the engine swapped
out, its supervisor while that one runs (R116). -/
def State.receiver (s : State) (m : ChanMsg) : Nat :=
  let k := if m.type = 3 then 0 else s.twin m.dest (bits m.header 24 24)
  if isSup m.dest ∧ (s.thread (m.dest + k)).st = .idle then m.dest else m.dest + k

/-- The destination has a credit: a thread's inbox of four, an offload group's 512. -/
def State.chanCredit (s : State) (t d : Nat) : Bool :=
  let dst := s.receiver { header := 2 ^ 48 * d + 2 ^ 24 * (s.thread t).epoch }
  let flying := (s.chan.filter (fun m => m.dest == d && s.receiver m == dst && m.type != 3)).length
  if d ≤ 0x3FF then decide (flying + (s.thread dst).load < 4)
  else if d ≤ 0x4FF then decide ((s.chan.filter (fun m => m.dest / 64 == d / 64)).length < 512)
  else true

/-- DONE waits: a pending result, the thread's last post not yet accepted, or 4,096 verdicts held (R123, R128). -/
def State.doneWaits (s : State) (t : Nat) : Bool :=
  let th := s.thread t
  !th.board.isEmpty || s.chan.any (fun m => m.src == endpoint t && m.id != 0 && m.id == th.posts) ||
    decide (4096 ≤ (s.pkts.filter (fun e => e.2.stage == .verdict && e.2.pipe == clusterOf t / 4)).length)

/-- A STALLED thread still lacks what it stalled for. -/
def State.lacking (s : State) (t : Nat) : Bool :=
  match (s.thread t).lack with
  | .operands l => (s.thread t).pendingOn l
  | .credit d => !s.chanCredit t d
  | .lookup => decide (256 ≤ (s.lookups (clusterOf t)).length)
  | .done => s.doneWaits t

/-- An operand has arrived or a credit has come back: each STALLED thread that lacks nothing any more is READY (R117). -/
def State.wake (s : State) : State :=
  s.each ((s.threads.filter (fun e => e.2.st == .stalled && !s.lacking e.1)).map (·.1)) (fun t u => u.modThread t (fun th => { th with st := .ready }))

/-! ### The ALU part -/

/-- The ALU part acts: an opcode of the table and zero rsvd bits (R151). -/
def aluActs (op : Nat) (f : AluArgs) : Bool := decide (1 ≤ op ∧ op ≤ 0x17) && bits f.shift 7 6 == 0

/-- Reserved encodings that a word does not act on are counted (R151). -/
def State.ignored (s : State) (t n : Nat) : State :=
  if n = 0 then s else s.countBy .CS_CTR (clusterOf t) C.CS_RESERVED_IGNORED n

/-- Operands it reads, and the one it writes. -/
def aluReads (op : Nat) (f : AluArgs) : List Nat := if !aluActs op f then [] else if readsBOnly op then [f.b] else [f.a, f.b]
def aluDests (op : Nat) (f : AluArgs) : List Nat := if !aluActs op f || writesNothing op then [] else [f.dst]

/-- Reserved encodings in it. -/
def aluReserved (op : Nat) (f : AluArgs) : Nat :=
  if bits f.shift 7 6 != 0 || decide (0x18 ≤ op) then 1
  else ((aluReads op f ++ aluDests op f).filter reservedOp).length

/-- The value an ALU part computes from the state before the word. -/
def State.aluValue (s : State) (t op imm k : Nat) (f : AluArgs) : Nat × Nat :=
  let a := s.operand t imm (2 * k) f.a
  let b := s.operand t imm (2 * k + 1) f.b
  (aluResult op a b f.shift (s.thread t).flags, aluFlags op a b f.shift (s.thread t).flags % 16)

/-- The ALU part writes: flags, then its destination, unless the word's own MEM or TBL result goes there (R155, R161). -/
def State.aluWrite (s : State) (t op : Nat) (f : AluArgs) (v : Nat × Nat) (skip : List Nat) : State :=
  if !aluActs op f then s
  else
    let s := s.when (f.sf || writesNothing op) (fun u => u.modThread t (fun th => { th with flags := th.flags / 16 * 16 + v.2 }))
    if writesNothing op || skip.contains f.dst then s else s.writeOp t f.dst v.1

/-- The write to a special with a side effect, if it is one. -/
def aluSpecial (op : Nat) (f : AluArgs) (v : Nat) : List (Nat × Nat) :=
  if aluActs op f && !writesNothing op && decide (201 ≤ f.dst ∧ f.dst ≤ 203) then [(f.dst, v)] else []

/-- Free values used by reads of RAND. -/
def State.randUsed (s : State) (reads : List Nat) : State := if reads.contains 216 then { s with free := s.free + 8 } else s

/-- An ALU part as a command of its own: stalls, faults under FOR, or acts (R119, R151, R155). -/
def State.aluCmd (s : State) (t op : Nat) (f : AluArgs) (imm : Nat) (strict : Bool) : State :=
  if !s.canIssue t then s
  else if (s.thread t).pendingOn (aluReads op f ++ aluDests op f) then s.stall t (.operands (aluReads op f ++ aluDests op f))
  else if strict && aluReserved op f != 0 then s.fault t 0x06 0 0
  else
    let v := s.aluValue t op imm 0 f
    let s := s.ignored t (aluReserved op f)
    let s := (s.modThread t (fun th => { th with st := .ready })).aluWrite t op f v []
    ((s.specials t (aluSpecial op f v.1)).randUsed (aluReads op f)).when (f.dst == 203) State.wake

/-- Each ALU operation (the table of R155); opcodes as the table gives them. -/
def execAluMov (t : Nat) (f : AluArgs) (imm : Nat) (strict : Bool) (s : State) : Step := .next (s.aluCmd t 0x01 f imm strict)
def execAluAdd (t : Nat) (f : AluArgs) (imm : Nat) (strict : Bool) (s : State) : Step := .next (s.aluCmd t 0x02 f imm strict)
def execAluSub (t : Nat) (f : AluArgs) (imm : Nat) (strict : Bool) (s : State) : Step := .next (s.aluCmd t 0x03 f imm strict)
def execAluAnd (t : Nat) (f : AluArgs) (imm : Nat) (strict : Bool) (s : State) : Step := .next (s.aluCmd t 0x04 f imm strict)
def execAluOr (t : Nat) (f : AluArgs) (imm : Nat) (strict : Bool) (s : State) : Step := .next (s.aluCmd t 0x05 f imm strict)
def execAluXor (t : Nat) (f : AluArgs) (imm : Nat) (strict : Bool) (s : State) : Step := .next (s.aluCmd t 0x06 f imm strict)
def execAluAndn (t : Nat) (f : AluArgs) (imm : Nat) (strict : Bool) (s : State) : Step := .next (s.aluCmd t 0x07 f imm strict)
def execAluShlv (t : Nat) (f : AluArgs) (imm : Nat) (strict : Bool) (s : State) : Step := .next (s.aluCmd t 0x08 f imm strict)
def execAluShrv (t : Nat) (f : AluArgs) (imm : Nat) (strict : Bool) (s : State) : Step := .next (s.aluCmd t 0x09 f imm strict)
def execAluSarv (t : Nat) (f : AluArgs) (imm : Nat) (strict : Bool) (s : State) : Step := .next (s.aluCmd t 0x0A f imm strict)
def execAluMinu (t : Nat) (f : AluArgs) (imm : Nat) (strict : Bool) (s : State) : Step := .next (s.aluCmd t 0x0B f imm strict)
def execAluMaxu (t : Nat) (f : AluArgs) (imm : Nat) (strict : Bool) (s : State) : Step := .next (s.aluCmd t 0x0C f imm strict)
def execAluCmp (t : Nat) (f : AluArgs) (imm : Nat) (strict : Bool) (s : State) : Step := .next (s.aluCmd t 0x0D f imm strict)
def execAluTst (t : Nat) (f : AluArgs) (imm : Nat) (strict : Bool) (s : State) : Step := .next (s.aluCmd t 0x0E f imm strict)
def execAluIns (t : Nat) (f : AluArgs) (imm : Nat) (strict : Bool) (s : State) : Step := .next (s.aluCmd t 0x0F f imm strict)
def execAluPopc (t : Nat) (f : AluArgs) (imm : Nat) (strict : Bool) (s : State) : Step := .next (s.aluCmd t 0x10 f imm strict)
def execAluClz (t : Nat) (f : AluArgs) (imm : Nat) (strict : Bool) (s : State) : Step := .next (s.aluCmd t 0x11 f imm strict)
def execAluBswap (t : Nat) (f : AluArgs) (imm : Nat) (strict : Bool) (s : State) : Step := .next (s.aluCmd t 0x12 f imm strict)
def execAluCrc (t : Nat) (f : AluArgs) (imm : Nat) (strict : Bool) (s : State) : Step := .next (s.aluCmd t 0x13 f imm strict)
def execAluAddc (t : Nat) (f : AluArgs) (imm : Nat) (strict : Bool) (s : State) : Step := .next (s.aluCmd t 0x14 f imm strict)
def execAluSubb (t : Nat) (f : AluArgs) (imm : Nat) (strict : Bool) (s : State) : Step := .next (s.aluCmd t 0x15 f imm strict)
def execAluSel (t : Nat) (f : AluArgs) (imm : Nat) (strict : Bool) (s : State) : Step := .next (s.aluCmd t 0x16 f imm strict)
def execAluMul32 (t : Nat) (f : AluArgs) (imm : Nat) (strict : Bool) (s : State) : Step := .next (s.aluCmd t 0x17 f imm strict)

/-! ### The MEM part (R156, R157) -/

/-- Operands of 8 bytes a size takes. -/
def memWords (size : Nat) : Nat := cdiv size 8

/-- The part is no reserved encoding: opcode 1 LD, 2 ST, 3 FADD, 4 SWAP, 5 CAS, 6 ADD. -/
def memOk (op : Nat) (f : MemArgs) : Bool :=
  let n := memWords f.size
  let sizeOk := if op ≤ 2 then [1, 2, 4, 8].contains f.size || (decide (16 ≤ f.size ∧ f.size ≤ 64) && f.size % 8 == 0) else f.size == 8
  let regOk := match op with
    | 1 => inGR f.reg n || inMD f.reg n
    | 2 => n == 1 || inGR f.reg n || inMD f.reg n || inWin f.reg n
    | 5 => inGR f.reg 2 || inMD f.reg 2
    | _ => inGR f.reg 1 || inMD f.reg 1
  decide (1 ≤ op ∧ op ≤ 6) && decide (f.space ≤ 3) && (f.space != 3 || op == 1) && sizeOk && regOk

/-- Sources and destinations of the part. -/
def memReads (op : Nat) (f : MemArgs) : List Nat :=
  if op = 0 || !memOk op f then []
  else (if f.idx then [bits f.offset 19 14] else []) ++
    (match op with
      | 1 => []
      | 2 => block f.reg (memWords f.size)
      | 5 => block f.reg 2
      | _ => [f.reg])
def memDests (op : Nat) (f : MemArgs) : List Nat :=
  if op = 0 || !memOk op f then []
  else if op = 1 then block f.reg (memWords f.size) else if op = 2 ∨ op = 6 then [] else [f.reg]

/-- Reserved encodings in it; a store of up to 8 bytes may name a reserved operand. -/
def memReserved (op : Nat) (f : MemArgs) : Nat :=
  if op = 0 then 0 else if !memOk op f then 1 else ((memReads op f).filter reservedOp).length

/-- The byte address, taken down to its natural alignment. -/
def State.memAddr (s : State) (t : Nat) (f : MemArgs) : Nat :=
  let a := if f.idx then (bits f.offset 13 0 + (s.thread t).ops.get (bits f.offset 19 14) * 2 ^ f.scale) % W64 else f.offset
  a / min f.size 8 * min f.size 8

/-- Bytes of a space's region for a thread's image; FRAME has no bound. -/
def State.regionSize (s : State) (t space : Nat) : Option Nat :=
  let ix := 2 * clusterOf t + s.bankOf t
  match space with
  | 0 => some 524288
  | 1 => some (s.rd F.CS_REGION_TSRAM_KIB ix * 1024)
  | 2 => some (s.rd F.CS_REGION_HBM_MIB ix * 1048576)
  | _ => none

/-- The access lies in its region. -/
def State.memInRange (s : State) (t : Nat) (f : MemArgs) : Bool :=
  match s.regionSize t f.space with
  | some n => decide (s.memAddr t f + f.size ≤ n)
  | none => true

/-- Where byte a of a space lies for a thread (R165: the bank's region). -/
def State.memKey (s : State) (t space a : Nat) : Nat :=
  let region := (s.banks.get (s.bankOf t)).region
  match space with
  | 0 => 524288 * clusterOf t + a
  | 1 => 8388608 * (2 * region + clusterOf t / 8) + a
  | _ => 2 ^ 33 * region + a

/-- One byte of a space; FRAME is the packet's frame, zero past its end. -/
def State.memByte (s : State) (t space a : Nat) : Byte :=
  match space with
  | 0 => s.localMem.get (s.memKey t 0 a)
  | 1 => s.tsram.get (s.memKey t 1 a)
  | 2 => s.hbmMem.get (s.memKey t 2 a)
  | _ => match (s.thread t).pkt with
    | some h => match s.pkt h with
      | some p => p.data.getD a 0
      | none => 0
    | none => 0

/-- n bytes of a space from an address. -/
def State.memBytes (s : State) (t space a n : Nat) : Bytes := (List.range n).map (fun k => s.memByte t space (a + k))

/-- HBM region 6 holds the images' data; the model gives a bank's region a place of its own there (log 224). -/
def dataPool : Nat := 6

/-- Stores bytes in LOCAL, TSRAM or HBM; what maps to a fenced pseudo-channel is discarded (spec/16_memory.md R385). -/
def State.memStore (s : State) (t space a : Nat) (bs : Bytes) : State :=
  let keep (b : Byte × Nat) : Bool := space != 2 || !s.hbmOut dataPool (s.memKey t 2 (a + b.2))
  (s.when (space == 2) (fun u => u.hbmDiscards dataPool (s.memKey t 2 a) bs.length)).each (bs.zipIdx.filter keep) (fun b u =>
    match space with
    | 0 => { u with localMem := u.localMem.set (s.memKey t 0 (a + b.2)) b.1 }
    | 1 => { u with tsram := u.tsram.set (s.memKey t 1 (a + b.2)) b.1 }
    | _ => { u with hbmMem := u.hbmMem.set (s.memKey t 2 (a + b.2)) b.1 })

/-- The values a load brings: little-endian, FRAME in network order, short ones zero-extended. -/
def State.memLoad (s : State) (t : Nat) (f : MemArgs) : List Nat :=
  let a := s.memAddr t f
  let n := min f.size 8
  (List.range (memWords f.size)).map (fun k =>
    let b := s.memBytes t f.space (a + 8 * k) n
    if f.space = 3 then fromBE b else fromLE b)

/-- The bytes a store or atomic of a word may change, as they stand. -/
def State.memBefore (s : State) (t op : Nat) (f : MemArgs) : List (Nat × Nat × Byte) :=
  if op ≤ 1 || !memOk op f || !s.memInRange t f then []
  else (List.range f.size).map (fun k => (f.space, s.memKey t f.space (s.memAddr t f + k), s.memByte t f.space (s.memAddr t f + k)))

/-- The MEM part acts; an access beyond the region makes a load return 0 and a store or atomic do nothing (R156). Its result is on its way with the destinations scoreboarded, unless the word is DONE (R123,
R157). -/
def State.memAct (s : State) (t op : Nat) (f : MemArgs) (discard : Bool) : State :=
  if op = 0 || !memOk op f then s
  else
    let a := s.memAddr t f
    let ok := s.memInRange t f
    let reg (k : Nat) : Nat := s.operand t f.imm 5 (f.reg + k)
    let old := fromLE (s.memBytes t f.space a 8)
    let values := if op = 1 then (if ok then s.memLoad t f else List.replicate (memWords f.size) 0) else [old]
    let bad := ok && f.space == 2 && s.hbmPoisoned dataPool (s.memKey t 2 a) f.size
    let s := s.when (!ok) (fun u => u.count .CS_CTR (clusterOf t) C.CS_MEM_RANGE)
    let s := if !ok then s else match op with
      | 2 => s.memStore t f.space a (((List.range (memWords f.size)).flatMap (fun k => leBytes 8 (reg k))).take f.size)
      | 3 | 6 => s.memStore t f.space a (leBytes 8 ((old + reg 0) % W64))
      | 4 => s.memStore t f.space a (leBytes 8 (reg 0))
      | 5 => if old = reg 0 then s.memStore t f.space a (leBytes 8 (reg 1)) else s
      | _ => s
    let dests := memDests op f
    if discard || dests.isEmpty || (!ok && op != 1) then s
    else s.modThread t (fun th => { th with board := th.board ++ dests, pend := th.pend ++ [{ dests := dests, values := values, bad := bad }] })

/-- A MEM part as a command of its own. -/
def State.memCmd (s : State) (t op : Nat) (f : MemArgs) (strict : Bool) : State :=
  if !s.canIssue t then s
  else if (s.thread t).pendingOn (memReads op f ++ memDests op f) then s.stall t (.operands (memReads op f ++ memDests op f))
  else if strict && (memReserved op f != 0 || !s.memInRange t f) then
    (s.when (memReserved op f == 0) (fun u => u.count .CS_CTR (clusterOf t) C.CS_MEM_RANGE)).fault t 0x06 0 0
  else
    let s := s.ignored t (memReserved op f)
    (s.modThread t (fun th => { th with st := .ready })).memAct t op f false

/-- Each memory operation. -/
def execMemLd (t : Nat) (f : MemArgs) (strict : Bool) (s : State) : Step := .next (s.memCmd t 1 f strict)
def execMemSt (t : Nat) (f : MemArgs) (strict : Bool) (s : State) : Step := .next (s.memCmd t 2 f strict)
def execMemFadd (t : Nat) (f : MemArgs) (strict : Bool) (s : State) : Step := .next (s.memCmd t 3 f strict)
def execMemSwap (t : Nat) (f : MemArgs) (strict : Bool) (s : State) : Step := .next (s.memCmd t 4 f strict)
def execMemCas (t : Nat) (f : MemArgs) (strict : Bool) (s : State) : Step := .next (s.memCmd t 5 f strict)
def execMemAdd (t : Nat) (f : MemArgs) (strict : Bool) (s : State) : Step := .next (s.memCmd t 6 f strict)

/-- Values reach operands. -/
def setOps (m : SMap Nat) (dests values : List Nat) : SMap Nat := (dests.zip values).foldl (fun (m : SMap Nat) d => m.set d.1 d.2) m

/-- The same result as a thread's earlier state will have it, if that state waited for it too. -/
def Undo.deliver (u : Undo) (p : Pending) (values : List Nat) : Undo :=
  if u.pend.contains p then
    { u with ops := setOps u.ops p.dests values, board := u.board.filter (fun o => !p.dests.contains o), pend := u.pend.erase p }
  else u

/-- A pending result reaches its destinations and clears their scoreboard bits. -/
def Thread.deliver (th : Thread) (p : Pending) (values : List Nat) : Thread :=
  { th with
    ops := setOps th.ops p.dests values
    board := th.board.filter (fun o => !p.dests.contains o)
    pend := th.pend.erase p
    undo := th.undo.map (fun u => u.deliver p values) }

/-- A load or atomic result arrives; uncorrectable data gives 0 and a MEM_ERROR fault (R157; R135). -/
def execMemResultArrive (t : Nat) (bad : Bool) (s : State) : Step :=
  match (s.thread t).pend.find? (fun p => !p.table) with
  | none => .next s
  | some p =>
    let bad := bad || p.bad
    let u := (s.modThread t (fun th => th.deliver p (if bad then p.dests.map (fun _ => 0) else p.values))).wake
    .next (if bad then u.faultLater t 0x0C 0 else u)

/-! ### The TBL part (R158) -/

/-- Key registers of an operation 1 LOOKUP, 2 INSERT, 3 DELETE, 4 LEARN. -/
def tblKeyLen (op table : Nat) : Nat :=
  match table with
  | 0 => 2
  | 1 => if op = 2 then 14 else 8
  | 2 => 1
  | 3 => 2
  | _ => 0

/-- Result operands. -/
def tblResLen (op table : Nat) : Nat := if op = 1 ∧ table = 1 then 7 else 1

/-- The part is no reserved encoding. A table number above 3 gives ERROR whatever its key and flags
(spec/04_parsing_and_tables.md R87); its result register is still one. -/
def tblOk (op : Nat) (f : TblArgs) : Bool :=
  let served := match op with
    | 1 => true
    | 2 | 3 => f.table == 1
    | _ => f.table == 0
  let whole := served && (if op = 2 then decide (f.flags < 4) else f.flags == 0) && inGR f.key (tblKeyLen op f.table)
  decide (1 ≤ op ∧ op ≤ 4) && (decide (4 ≤ f.table) || whole) && (inGR f.res (tblResLen op f.table) || inMD f.res (tblResLen op f.table))

/-- Sources and destinations of the part. -/
def tblReads (op : Nat) (f : TblArgs) : List Nat := if op = 0 || !tblOk op f then [] else block f.key (tblKeyLen op f.table)
def tblDests (op : Nat) (f : TblArgs) : List Nat := if op = 0 || !tblOk op f then [] else block f.res (tblResLen op f.table)

/-- Reserved encodings in it. -/
def tblReserved (op : Nat) (f : TblArgs) : Nat := if op = 0 || tblOk op f then 0 else 1

/-- An address is known on that very port. -/
def State.knownOn (s : State) (p port mac tag : Nat) (vni : Bool) : Bool :=
  match s.l2Find p mac tag vni with
  | some i => !(s.l2.get (l2Key p i)).destFn && (s.l2.get (l2Key p i)).dest == port
  | none => false

/-- The status of a LEARN for a thread's packet: STATUS with the L2SRC code in its low bits. An excess learn on a port that
drops has the frame discarded (spec/04_parsing_and_tables.md R98). -/
def State.learnStatus (s : State) (t mac tag : Nat) (vni : Bool) : State × Nat :=
  match (s.thread t).pkt.bind (fun h => s.pkt h) with
  | none => (s, 2 * 2 ^ 61)
  | some p =>
    if !p.fromWire then (s, 2 * 2 ^ 61)
    else
      let r := s.l2Source p.pipe p.port mac tag vni
      let st := if r.2.1 = 2 ∨ r.2.1 = 3 then 3 else if s.knownOn p.pipe p.port mac tag vni then 4 else 5
      let u := if r.2.1 = 4 then r.1.setPkt ((s.thread t).pkt.getD 0) { p with doomed := true } else r.1
      (u, st * 2 ^ 61 + r.2.1)

/-- What a table operation does and returns. -/
def State.tblDo (s : State) (t op : Nat) (f : TblArgs) (key : List Nat) : State × List Nat :=
  let bytes (l : List Nat) : Bytes := l.flatMap (fun (w : Nat) => leBytes 8 w)
  if op = 1 then s.lookup f.table (clusterOf t / 4) key
  else if op = 2 then
    let r := s.flowInsert (bytes (key.take 8)) (bytes (key.drop 8)) (bit f.flags 1) false (bit f.flags 0)
    (r.1, [r.2.1 * 2 ^ 61])
  else if op = 3 then let r := s.flowDelete (bytes key); (r.1, [r.2 * 2 ^ 61])
  else let r := s.learnStatus t (key.getD 0 0 % 2 ^ 48) (bits (key.getD 1 0) 23 0) (bit (key.getD 1 0) 24); (r.1, [r.2])

/-- The TBL part acts. A reserved table number gives ERROR in the word's own cycle (spec/04_parsing_and_tables.md R87). -/
def State.tblAct (s : State) (t op : Nat) (f : TblArgs) (discard : Bool) : State :=
  if op = 0 || !tblOk op f then s
  else if 4 ≤ f.table then
    if discard then s else s.modThread t (fun th => { th with ops := th.ops.set f.res (2 * 2 ^ 61) })
  else
    let key := (tblReads op f).map (fun o => (s.thread t).ops.get o)
    let r := s.tblDo t op f key
    if discard then r.1
    else r.1.modThread t (fun th => { th with
      board := th.board ++ tblDests op f
      pend := th.pend ++ [{ table := true, dests := tblDests op f, values := r.2, tableNo := f.table, key := key, since := s.now }] })

/-- A cluster's lookup queue has one of its 256 credits (spec/01_architecture.md R20). -/
def State.lookupCredit (s : State) (t op : Nat) (f : TblArgs) : Bool :=
  op == 0 || !tblOk op f || decide (4 ≤ f.table) || decide ((s.lookups (clusterOf t)).length < 256)

/-- A TBL part as a command of its own. -/
def State.tblCmd (s : State) (t op : Nat) (f : TblArgs) (strict : Bool) : State :=
  if !s.canIssue t then s
  else if (s.thread t).pendingOn (tblReads op f ++ tblDests op f) then s.stall t (.operands (tblReads op f ++ tblDests op f))
  else if !s.lookupCredit t op f then s.stall t .lookup
  else if strict && tblReserved op f != 0 then s.fault t 0x06 0 0
  else
    let s := s.ignored t (tblReserved op f)
    (s.modThread t (fun th => { th with st := .ready })).tblAct t op f false

/-- Each table operation. -/
def execTblLookup (t : Nat) (f : TblArgs) (strict : Bool) (s : State) : Step := .next (s.tblCmd t 1 f strict)
def execTblInsert (t : Nat) (f : TblArgs) (strict : Bool) (s : State) : Step := .next (s.tblCmd t 2 f strict)
def execTblDelete (t : Nat) (f : TblArgs) (strict : Bool) (s : State) : Step := .next (s.tblCmd t 3 f strict)
def execTblLearn (t : Nat) (f : TblArgs) (strict : Bool) (s : State) : Step := .next (s.tblCmd t 4 f strict)

/-- A table status and result arrive; a lookup that met an uncorrectable entry returns ERROR
(spec/04_parsing_and_tables.md R94, R113). -/
def execTblResultArrive (t : Nat) (damaged : Bool) (s : State) : Step :=
  match (s.thread t).pend.find? (fun p => p.table) with
  | none => .next s
  | some p =>
    let r := if damaged then s.tableError p.tableNo (clusterOf t / 4) p.key else (s, p.values)
    .next ((r.1.retire (.lookup (clusterOf t))).modThread t (fun th => th.deliver p r.2)).wake

/-! ### Channels (R129 to R132) -/

/-- Endpoints a thread may post to. -/
def endpointOk (d : Nat) (sup : Bool) : Bool :=
  decide (d ≤ 0x3FF) || decide (0x400 ≤ d ∧ d ≤ 0x50F) || decide (0x800 ≤ d ∧ d ≤ 0xBFF) || d == 0xC00 || (d == 0xC01 && sup) || d == 0xFFF

/-- The staged message is for a reserved or forbidden endpoint, or of TYPE 3 (R130). -/
def Thread.postBad (th : Thread) (t : Nat) : Bool := !endpointOk (bits th.stageHdr 63 48) (isSup t) || bits th.stageHdr 28 25 == 3

/-- A thread as it stands, to be put back by a translation fault of its post (R136). -/
def Thread.before_ (th : Thread) (id : Nat) (mem : List (Nat × Nat × Byte)) : Undo :=
  { id := id, stack := th.stack, deep := th.deep, flags := th.flags, board := th.board, pend := th.pend, ops := th.ops, dirty := th.dirty
    stageHdr := th.stageHdr, stage := th.stage, inbox := th.inbox, events := th.events, mem := mem }

/-- Posts the staged message with SRC, EPOCH and GEN filled in; u is what a translation fault puts back. Barista takes its
messages at once. -/
def State.postMsg (s : State) (t : Nat) (u : Undo) : State :=
  let th := s.thread t
  let hdr := putBits (putBits (putBits th.stageHdr 47 32 (endpoint t)) 24 24 th.epoch) 23 16 th.gen
  let id := th.posts + 1
  let m : ChanMsg := { header := hdr, words := (List.range (bits hdr 31 29 + 1)).map (fun k => th.stage.get k), at_ := th.pc, since := s.now, id := id }
  let s := s.modThread t (fun x => { x with
    posts := id
    undo := if m.dest / 256 = 5 then x.undo ++ [{ u with id := id }] else x.undo })
  if m.dest = 0xFFF then (s.send (.unitMessage 0xFFF (m.header :: m.words))).latch t 3
  else { s with chan := s.chan ++ [m] }

/-- A message has been accepted: POSTED is set when it is its sender's last post (R133). -/
def State.accepted (s : State) (m : ChanMsg) : State :=
  let t := s.sender m
  let s := { s with chan := s.chan.erase m }
  let s := s.when (decide (0x400 ≤ m.dest ∧ m.dest < 0x500)) (fun t => t.retire (.offload (m.dest / 64 % 4)))
  (s.when (decide (m.src ≤ 0x3FF) && m.id != 0 && m.id == (s.thread t).posts) (fun u => u.latch t 3)).wake

/-- A REPLY to the sender of a request. -/
def State.reply (s : State) (m : ChanMsg) (words : List Nat) : State :=
  let hdr := 2 ^ 48 * m.src + 2 ^ 32 * m.dest + 2 ^ 29 * (words.length - 1) + 2 ^ 26 + 2 ^ 24 * bits m.header 24 24 + 2 ^ 16 * m.gen + m.tag
  { s with chan := s.chan ++ [{ header := hdr, words := words }] }

/-- A word's channel post as a command of its own (R129, R130); a stale packet ends instead (R141). -/
def execChannelPost (t : Nat) (s : State) : Step :=
  .next (if !s.canIssue t then s
    else if s.stale (s.thread t) then s.abortThread t 0xFC
    else if (s.thread t).postBad t then s.fault t 0x07 0 0
    else if !s.chanCredit t (bits (s.thread t).stageHdr 63 48) then s.stall t (.credit (bits (s.thread t).stageHdr 63 48))
    else (s.modThread t (fun th => { th with st := .ready })).postMsg t ((s.thread t).before_ 0 []))

/-- The oldest message in flight to a thread enters its inbox; while that is full, the oldest fault record, into the slots
reserved for it (R132). -/
def execInboxMessageArrive (t : Nat) (s : State) : Step :=
  match s.chan.find? (fun m => decide (m.dest ≤ 0x3FF) && s.receiver m == t && (m.type == 3 || decide ((s.thread t).load < 4))) with
  | none => .next s
  | some m => .next ((s.accepted m).modThread t (fun th => { th with inbox := th.inbox ++ [m] }))

/-- A write to INBOX_POP (R132). -/
def execInboxPop (t : Nat) (s : State) : Step := .next (if s.canIssue t then (s.popInbox t).wake else s)

/-- A write to SIGNAL (R154). -/
def execSignal (t v : Nat) (s : State) : Step := .next (if s.canIssue t then s.signalOp t v else s)

/-- A write to EVENT_CLR (R133). -/
def execEventClr (t v : Nat) (s : State) : Step := .next (if s.canIssue t then s.eventClr t v else s)

/-- The fence endpoint answers a FENCE once the sender's earlier memory writes are visible; the model's writes are
visible when they are issued (R131). -/
def execFenceMessage (c : Nat) (s : State) : Step :=
  match s.chan.find? (fun m => m.dest == 0xC00 && clusterOf m.src == c) with
  | none => .next s
  | some m => .next ((s.accepted m).reply m [0])

/-- Device time has reached a thread's TIMER field (R133). -/
def execThreadTimerFire (t : Nat) (s : State) : Step :=
  let th := s.thread t
  let at_ := th.ops.get 93
  .next (if t < 2048 ∧ at_ ≠ 0 ∧ !th.timerDone ∧ (s.stamp + W64 - at_) % W64 < 2 ^ 63 then
    (s.modThread t (fun x => { x with timerDone := true })).latch t 2
  else s)

end Sys2Proof.Machine
end

