-- ==== Sys2Proof/Machine/Sequencer.lean ====
section
/-! DEFINITION. Issue of a microcode word: fetch and patch match, breakpoints, conditions, the order within a word and
every SEQ operation (spec/06_microcode.md R147 to R153, R159 to R161; spec/05_brew_engines.md R119, R123, R133, R143). -/

namespace Sys2Proof.Machine

/-! ### The fields of a word (R150) -/

def wSeq (w : Nat) : Nat := bits w 255 252
def wCond (w : Nat) : Nat := bits w 251 246
def wTarget (w : Nat) : Nat := bits w 245 230
def wImm (w : Nat) : Nat := bits w 47 16
def wCtl (w k : Nat) : Bool := bit w k
def wAluOp (w k : Nat) : Nat := bits (bits w (223 - 48 * k) (176 - 48 * k)) 46 40
def wMemOp (w : Nat) : Nat := bits w 127 124
def wTblOp (w : Nat) : Nat := bits w 79 76

/-- ALU k's part beside its opcode. -/
def wAlu (w k : Nat) : AluArgs :=
  let a := bits w (223 - 48 * k) (176 - 48 * k)
  { sf := bit a 47, dst := bits a 39 32, a := bits a 31 24, b := bits a 23 16, shift := bits a 15 0 }

/-- The MEM part beside its opcode. -/
def wMem (w : Nat) : MemArgs :=
  { idx := bit w 123, scale := bits w 122 120, reg := bits w 119 112, space := bits w 111 108, offset := bits w 107 88, size := bits w 87 80, imm := wImm w }

/-- The TBL part beside its opcode. -/
def wTbl (w : Nat) : TblArgs :=
  { table := bits w 75 68, key := bits w 67 60, res := bits w 59 52, flags := bits w 51 48 }

/-- The operand and the bit position of DISP16. -/
def wDispOp (w : Nat) : Nat := bits (wImm w) 7 0
def wDispPos (w : Nat) : Nat := bits (wImm w) 13 8

/-- A reserved COND. -/
def condReserved (c : Nat) : Bool := c == 15 || decide (32 ≤ c)

/-- Reserved encodings of the sequencer part (R151, R153, R159). -/
def seqReserved (w : Nat) : Nat :=
  b2n (bits w 229 224 != 0) + b2n ((wSeq w == 2 || wSeq w == 3) && condReserved (wCond w)) +
    b2n (wSeq w == 6 && decide (60 < wDispPos w)) + b2n (wSeq w == 6 && reservedOp (wDispOp w)) +
    b2n (wCtl w 15 && wSeq w != 8)

/-- All of a word's reserved encodings. -/
def wReserved (w : Nat) : Nat :=
  seqReserved w + aluReserved (wAluOp w 0) (wAlu w 0) + aluReserved (wAluOp w 1) (wAlu w 1) +
    memReserved (wMemOp w) (wMem w) + tblReserved (wTblOp w) (wTbl w)

/-- Operands a word's MEM and TBL parts name as destinations. -/
def wResults (w : Nat) : List Nat := memDests (wMemOp w) (wMem w) ++ tblDests (wTblOp w) (wTbl w)

/-- Operands a word reads. -/
def wReads (w : Nat) : List Nat :=
  aluReads (wAluOp w 0) (wAlu w 0) ++ aluReads (wAluOp w 1) (wAlu w 1) ++ memReads (wMemOp w) (wMem w) ++
    tblReads (wTblOp w) (wTbl w) ++ (if wSeq w = 6 ∧ wDispPos w ≤ 60 then [wDispOp w] else [])

/-- Operands whose pending result stalls the word: all it reads and writes (R161). -/
def wGuards (w : Nat) : List Nat :=
  wReads w ++ aluDests (wAluOp w 0) (wAlu w 0) ++ aluDests (wAluOp w 1) (wAlu w 1) ++ wResults w

/-! ### Fetch (R147 to R149) -/

/-- What a fetch gives: a word with the address it came from, a vendor routine's table address, or a fault. -/
inductive Fetched
  | word (w pc : Nat)
  | routine (a : Nat)
  | fault (code addr : Nat)
deriving DecidableEq, Repr, Inhabited

/-- Addresses of the vendor routines the spec describes (R162, R167). -/
def isRoutine (a : Nat) : Bool :=
  [0x0000, 0x0001, 0x0002, 0x0010, 0x0011, 0x0020, 0x0021, 0x0022, 0x0030, 0x0031, 0x0040, 0x0041, 0x0050, 0x0060].contains a

/-- The lowest enabled patch-match entry of a bank for a ROM address. -/
def State.patchFor (s : State) (c bank a : Nat) : Option Nat :=
  (List.range 32).find? (fun k => s.on F.CS_MATCH_EN (64 * c + 32 * bank + k) && s.rd F.CS_MATCH_ROM (64 * c + 32 * bank + k) == a)

/-- The key of a control-store word; ROM words are shared by both banks. -/
def csKey (c bank a : Nat) : Nat := 131072 * c + (if a < 0x6000 then 0 else 65536 * bank) + a

/-- What firmware writes into words of a region no CODE section covers, and what a word nothing was loaded into reads as:
FAULT with IMM[7:0] = 0xFF (R164). -/
def csFill : Nat := 9 * 2 ^ 252 + 0xFF * 2 ^ 16

/-- A fetch at the thread's PC. -/
def State.fetch (s : State) (t : Nat) : Fetched :=
  let pc := (s.thread t).pc
  let c := clusterOf t
  let bank := s.bankOf t
  if 0xC000 ≤ pc then .fault 0x02 0
  else
    let patched := if pc < 0x6000 then s.patchFor c bank pc else none
    let a := match patched with
      | some k => s.rd F.CS_MATCH_PATCH (64 * c + 32 * bank + k)
      | none => pc
    if s.csBad.get (csKey c bank a) then .fault 0x03 a
    else if isRoutine a then .routine a
    else .word (if a < 0x6000 then (Config.romWord a).toNat else s.cs.getD (csKey c bank a) csFill) a

/-! ### Breakpoints (spec/05_brew_engines.md R143) -/

/-- An enabled address breakpoint of the cluster names this word and thread. -/
def State.addrBreak (s : State) (t : Nat) : Bool :=
  let th := s.thread t
  th.skipBp != some th.pc && (List.range 4).any (fun k =>
    s.on F.BRW_BP_EN (4 * clusterOf t + k) && s.rd F.BRW_BP_ADDR (4 * clusterOf t + k) == th.pc &&
      bit (s.rd F.BRW_BP_THREADS_MASK (4 * clusterOf t + k)) (t % 64))

/-- The word's own breakpoint bit is honoured. -/
def State.softBreak (s : State) (t w : Nat) : Bool :=
  wCtl w 12 && s.on F.BRW_DBG_CTL_SOFT_BP_EN (clusterOf t) && (s.thread t).skipBp != some (s.thread t).pc

/-- A thread halts; the state it left is kept. -/
def State.haltThread (s : State) (t : Nat) : State :=
  s.modThread t (fun th => if th.st = .halted then th else { th with st := .halted, before := th.st, haltAt := s.now, stepping := false })

/-- A thread halts on a breakpoint, or after a step. -/
def State.breakHalt (s : State) (t : Nat) : State := (s.haltThread t).raise (Ev.BRW_BREAKPOINT (clusterOf t))

/-- A word has issued: counted, the breakpoint at another PC armed again, a step complete. -/
def State.issued (s : State) (t pc n : Nat) (stepping : Bool) : State :=
  let s := s.countBy .BRW_CTR (clusterOf t) C.BRW_ISSUED n
  let s := s.modThread t (fun th => { th with skipBp := if th.skipBp = some pc then th.skipBp else none })
  s.when stepping (fun u => u.breakHalt t)

/-! ### Conditions and the next address -/

/-- The condition of BR and BRN. -/
def State.condTrue (s : State) (t c : Nat) : Bool :=
  let th := s.thread t
  if c ≤ 11 then flagCond c th.flags
  else if c = 12 then th.epoch != s.current
  else if c = 13 then bits (th.field 3) 49 46 != 0
  else if c = 14 then bit (th.field 0) 63
  else bit th.eventBits (c - 16)

/-- The address after a word at pc, from the state before the word. -/
def State.nextPc (s : State) (t w pc : Nat) : Nat :=
  let inc := (pc + 1) % 65536
  match wSeq w with
  | 1 | 4 => wTarget w
  | 2 => if condReserved (wCond w) then inc else if s.condTrue t (wCond w) then wTarget w else inc
  | 3 => if condReserved (wCond w) then inc else if s.condTrue t (wCond w) then inc else wTarget w
  | 5 => (s.thread t).stack.headD 0
  | 6 => if 60 < wDispPos w then inc
      else (wTarget w + bits (s.operand t (wImm w) 4 (wDispOp w)) (wDispPos w + 3) (wDispPos w)) % 65536
  | _ => inc

/-- The call stack after a word at pc. -/
def nextStack (w pc : Nat) (stack : List Nat) : List Nat :=
  match wSeq w with
  | 4 => (pc + 1) % 65536 :: stack
  | 5 => stack.drop 1
  | _ => stack

/-- The entries above the depth once the top is popped. -/
def Thread.popped (th : Thread) : SMap Nat := th.deep.set (th.stack.length - 1) (th.stack.headD 0)

/-! ### The parts of a word in order (R152) -/

/-- MEM and TBL with the values before the word, then ALU0 and ALU1. -/
def State.wordParts (s : State) (t w : Nat) : State :=
  let v0 := s.aluValue t (wAluOp w 0) (wImm w) 0 (wAlu w 0)
  let v1 := s.aluValue t (wAluOp w 1) (wImm w) 1 (wAlu w 1)
  let u := (s.memAct t (wMemOp w) (wMem w) (wSeq w == 8)).tblAct t (wTblOp w) (wTbl w) (wSeq w == 8)
  ((u.aluWrite t (wAluOp w 0) (wAlu w 0) v0 (wResults w)).aluWrite t (wAluOp w 1) (wAlu w 1) v1 (wResults w)).randUsed (wReads w)

/-- The specials and EVMASK; a set wins over a clear of the same word (spec/05_brew_engines.md R133). -/
def State.wordSpecials (s old : State) (t w : Nat) : State :=
  let v0 := (old.aluValue t (wAluOp w 0) (wImm w) 0 (wAlu w 0)).1
  let v1 := (old.aluValue t (wAluOp w 1) (wImm w) 1 (wAlu w 1)).1
  (s.eventClr t (bits w 10 0 * 4)).specials t (aluSpecial (wAluOp w 0) (wAlu w 0) v0 ++ aluSpecial (wAluOp w 1) (wAlu w 1) v1)

/-! ### The end of a packet (R123, R126, R159) -/

/-- The 512 bytes of the header window, in network order. -/
def Thread.window (th : Thread) : Bytes := (List.range 64).flatMap (fun k => beBytes 8 (th.ops.get (128 + k)))

/-- The frame after EDIT, none for an edit that is not possible. -/
def Thread.edited (th : Thread) (f : Bytes) : Option Bytes :=
  let e := th.field 26
  if bit e 63 then
    let old := bits e 28 19
    let new := bits e 18 9
    if 512 < old ∨ 512 < new ∨ f.length < old ∨ f.length - old + new < 14 then none
    else some (th.window.take new ++ f.drop old)
  else some ((List.range 64).foldl (fun g k => if bit th.dirty k then patch g (8 * k) (beBytes 8 (th.ops.get (128 + k))) else g) f)

/-- The verdict metadata fields 24 to 27 give. -/
def Thread.verdictOf (th : Thread) : Verdict :=
  { action := bits (th.field 24) 63 60, tc := bits (th.field 27) 2 0, word := th.field 24, word2 := th.field 25 }

/-- A cell check fails where a packet is edited: the frame is discarded, and counted against its pipeline
(spec/01_architecture.md R27; log 184). -/
def State.editFails (s : State) (h : Nat) (p : Packet) : State :=
  let s := { s with order := s.order.filter (fun o => !(o.1 == p.pipe && o.2.1 == p.seq)) }
  (s.cellCheck (unitPipe p.pipe)).dropPkt h 6

/-- The packet of a thread ends with a verdict, edited, stamped at egress if asked. -/
def State.endPacket (s : State) (t : Nat) (stamp : Bool) : State :=
  let th := s.thread t
  match th.pkt with
  | none => s
  | some h =>
    let s := s.count .BRW_CTR (clusterOf t) C.BRW_DONE
    let s := match s.pkt h with
      | none => s
      | some p =>
        let v := th.verdictOf
        let s := s.setPkt h { p with
          data := (th.edited p.data).getD p.data
          colour := bits (th.field 27) 4 3
          stampAll := stamp && (v.action == 1 || v.action == 3 || v.action == 4) }
        if p.badCell && th.edited p.data != some (p.data) then s.editFails h p
        else s.toVerdict h (if (th.edited p.data).isNone then dropVerdict 0xFE else v)
    s.freeThread t

/-! ### Issue -/

/-- The word completes. -/
def State.completeWord (s : State) (t w pc : Nat) : State :=
  let th := s.thread t
  let next := s.nextPc t w pc
  let u := s.ignored t (wReserved w)
  let u := u.wordParts t w
  let post := wCtl w 13
  let dest := bits (u.thread t).stageHdr 63 48
  if post && (u.thread t).postBad t then s.fault t 0x07 0 0
  else if post && !u.chanCredit t dest then s.stall t (.credit dest)
  else
    let u := u.wordSpecials s t w
    let u := u.when post (fun x => x.postMsg t (th.before_ 0 (s.memBefore t (wMemOp w) (wMem w))))
    let u := u.modThread t (fun x => { x with st := .ready, pc := next, stack := nextStack w pc x.stack, deep := if wSeq w = 5 then x.popped else x.deep })
    let u := match wSeq w with
      | 8 => u.endPacket t (wCtl w 15)
      | 9 => u.fault t 0x0D (bits (wImm w) 7 0) 0
      | _ => u
    (u.issued t pc 1 th.stepping).wake

/-- A WAIT parks the thread; the mask it waits on is kept. -/
def State.park (s : State) (t mask : Nat) : State :=
  s.modThread t (fun th => if th.st = .waiting then th else { th with st := .waiting, mask := mask, waitAt := s.now })

/-- A supervisor at a WAIT goes elsewhere: one on an engine swapped out stops, another restarts after a commit (R148;
spec/05_brew_engines.md R116). -/
def State.supMoves (s : State) (t : Nat) : Bool := isSup t && (decide (1024 ≤ t) || (s.clusters.get (clusterOf t)).supRestart)

/-- It goes; the messages in its inbox stay there. -/
def State.supMove (s : State) (t : Nat) : State :=
  if 1024 ≤ t then s.modThread t (fun th => { th with st := .idle })
  else ({ s with clusters := s.clusters.mod (clusterOf t) (fun c => { c with supRestart := false }) }).startSup (clusterOf t)

/-- A word whose operands are ready: its checks, its waits, and its effect. -/
def State.issueWord (s : State) (t w pc : Nat) : State :=
  let th := s.thread t
  let strict := wCtl w 11
  let inRange := wMemOp w == 0 || !memOk (wMemOp w) (wMem w) || s.memInRange t (wMem w)
  if wCtl w 14 && th.epoch != s.current then s.fault t 0x09 0 0
  else if strict && (wReserved w != 0 || !inRange) then
    (s.when (!inRange) (fun u => u.count .CS_CTR (clusterOf t) C.CS_MEM_RANGE)).fault t 0x06 0 0
  else if wSeq w = 4 ∧ 8 ≤ th.stack.length then s.fault t 0x04 0 0
  else if wSeq w = 5 ∧ th.stack = [] then s.fault t 0x05 0 0
  else if wSeq w = 7 ∧ s.supMoves t then s.supMove t
  else if wSeq w = 7 ∧ th.eventBits &&& wTarget w = 0 then s.park t (wTarget w)
  else if wSeq w = 8 ∧ s.doneWaits t then s.stall t .done
  else if (wSeq w = 8 ∨ wCtl w 13) ∧ s.stale th then s.abortThread t 0xFC
  else s.completeWord t w pc

/-! ### Vendor routines (R162, R167) -/

/-- Registers r0 to r7, Z, N, C, V and the staging buffer after a routine: values the spec does not state. -/
def State.scramble (s : State) (t : Nat) : State :=
  let v (k : Nat) : Nat := (Config.freeValue (s.free + k)).toNat
  ({ s with free := s.free + 18 }).modThread t (fun th => { th with
    ops := (List.range 8).foldl (fun (m : SMap Nat) k => m.set k (v k)) th.ops
    stage := (List.range 8).foldl (fun (m : SMap Nat) k => m.set k (v (8 + k))) th.stage
    stageHdr := v 16
    flags := th.flags / 16 * 16 + v 17 % 16 })

/-- Writes consecutive general registers. -/
def State.setRegs (s : State) (t r : Nat) (vs : List Nat) : State :=
  s.modThread t (fun th => { th with ops := vs.zipIdx.foldl (fun (m : SMap Nat) e => m.set (r + e.2) e.1) th.ops })

/-- The routine returns: popped address, at most n words issued. -/
def State.routineRet (s : State) (t a n : Nat) : State :=
  let words := 1 + s.fresh % n
  let stepping := (s.thread t).stepping
  let s := s.used.modThread t (fun th => { th with st := .ready, pc := th.stack.headD 0, stack := th.stack.drop 1, deep := th.popped, romWait := false })
  s.issued t a words stepping

/-- The flow key of R103 for an IP layer (field 4 to 11 as r0), or none: not IP, or no TCP or UDP in it. A packet inside
a tunnel takes its VNI from a place the spec does not state. -/
def State.flowKeyOf (s : State) (t layer zone : Nat) : Option Bytes :=
  let th := s.thread t
  let win := th.window
  let o := bits layer 15 0
  let l4 := o + bits layer 31 16
  let version := beAt win o 1 / 16
  let proto := if version = 4 then beAt win (o + 9) 1 else beAt win (o + 6) 1
  if (version = 4 ∨ version = 6) ∧ (proto = 6 ∨ proto = 17) then
    let vni := if bits layer 49 48 = 0 then 0 else s.fresh % 2 ^ 24
    some (leBytes 4 ((if version = 4 then 1 else 2) + 2 ^ 8 * (th.func % 4096) + 2 ^ 20 * (zone % 4096)) ++
      leBytes 4 (vni + 2 ^ 24 * proto) ++ fit 4 (slice win l4 4) ++ leBytes 4 0 ++
      (if version = 4 then fit 16 (slice win (o + 12) 4) ++ fit 16 (slice win (o + 16) 4)
        else fit 16 (slice win (o + 8) 16) ++ fit 16 (slice win (o + 24) 16)) ++ leBytes 16 0)
  else none

/-- The eight registers a 64-byte key fills. -/
def keyWords (k : Bytes) : List Nat := (List.range 8).map (fun i => leAt k (8 * i) 8)

/-- V_FLOW_KEY and V_FLOW_LOOKUP. -/
def State.flowRoutine (s : State) (t : Nat) (look : Bool) : State :=
  let th := s.thread t
  match s.flowKeyOf t (th.ops.get 0) (th.ops.get 1) with
  | none =>
    let v (k : Nat) : Nat := (Config.freeValue (s.free + k)).toNat
    (({ s with free := s.free + 15 }).setRegs t 16 ((List.range (if look then 15 else 8)).map v)).scramble t |>.setRegs t 0 [1]
  | some key =>
    let s := (s.used.setRegs t 16 (keyWords key)).scramble t |>.setRegs t 0 [0]
    if look then
      let r := s.lookup 1 (clusterOf t / 4) (keyWords key)
      r.1.setRegs t 24 r.2
    else s

/-- Window bytes are replaced, their words dirty. -/
def State.setWindow (s : State) (t o : Nat) (bs : Bytes) : State :=
  let win := patch (s.thread t).window o bs
  let ws := (List.range 64).filter (fun k => decide (o < 8 * k + 8 ∧ 8 * k < o + bs.length))
  s.modThread t (fun th => { th with
    ops := ws.foldl (fun (m : SMap Nat) k => m.set (128 + k) (beAt win (8 * k) 8)) th.ops
    dirty := ws.foldl (fun d k => if bit d k then d else d + 2 ^ k) th.dirty })

/-- V_CSUM: the ones'-complement sum of window bytes. -/
def State.csumRoutine (s : State) (t : Nat) : State :=
  let th := s.thread t
  let sum := sum16 (slice th.window (th.ops.get 0) (th.ops.get 1))
  let u := s.scramble t
  if th.ops.get 0 + th.ops.get 1 ≤ 512 then u.setRegs t 0 [onesFold (onesFold sum)] else u

/-- RFC 1624: the checksum after one 16-bit word changes. -/
def csumAdjust (hc old new : Nat) : Nat := 65535 - onesFold (onesFold (65535 - hc % 65536 + (65535 - old % 65536) + new % 65536))

/-- V_TTL_DEC. -/
def State.ttlRoutine (s : State) (t : Nat) : State :=
  let th := s.thread t
  let win := th.window
  let o := bits (th.ops.get 0) 15 0
  let version := beAt win o 1 / 16
  let at_ := if version = 4 then o + 8 else o + 7
  let ttl := beAt win at_ 1
  let u := s.scramble t
  if version ≠ 4 ∧ version ≠ 6 then u
  else if ttl ≤ 1 then u.setRegs t 0 [1]
  else
    let u := (u.setRegs t 0 [0]).setWindow t at_ (beBytes 1 (ttl - 1))
    if version = 4 then
      u.setWindow t (o + 10) (beBytes 2 (csumAdjust (beAt win (o + 10) 2) (beAt win (o + 8) 2) (beAt win (o + 8) 2 - 256)))
    else u

/-- The EDIT a VLAN routine starts from, as (OLD_LEN, NEW_LEN) of replace mode: the one in force, an edit in place widened to
its last dirty word, always past the two addresses; with it the window bytes that stand for the frame's first ones. -/
def Thread.editBase (th : Thread) (f : Bytes) : Nat × Nat × Bytes :=
  let e := th.field 26
  let fill (old new : Nat) : Nat × Nat × Bytes :=
    if new < 12 then (old + (12 - new), 12, th.window.take new ++ fit (12 - new) (slice f old (12 - new))) else (old, new, th.window.take new)
  if bit e 63 then fill (bits e 28 19) (bits e 18 9)
  else
    let last := (List.range 64).foldl (fun n k => if bit th.dirty k then 8 * k + 8 else n) 0
    let n := min (max 12 last) (min 508 f.length)
    fill n n

/-- The window and EDIT that put n bytes for the first old of the frame. -/
def State.setEdit (s : State) (t old : Nat) (bs : Bytes) : State :=
  (s.setWindow t 0 bs).modThread t (fun th => { th with ops := th.ops.set 90 (2 ^ 63 + 2 ^ 19 * old + 2 ^ 9 * bs.length) })

/-- The frame a thread holds. -/
def State.frameOf (s : State) (t : Nat) : Bytes :=
  match (s.thread t).pkt.bind (fun h => s.pkt h) with
  | some p => p.data
  | none => []

/-- V_VLAN_PUSH: a tag behind the source address, in front of any that stand there. -/
def State.vlanPush (s : State) (t : Nat) : State :=
  let tag := bits ((s.thread t).ops.get 0) 31 0
  let e := (s.thread t).editBase (s.frameOf t)
  (s.scramble t).setEdit t e.1 (e.2.2.take 12 ++ beBytes 4 tag ++ e.2.2.drop 12)

/-- V_VLAN_POP: the outermost tag that stands. -/
def State.vlanPop (s : State) (t : Nat) : State :=
  let f := s.frameOf t
  let e := (s.thread t).editBase f
  let tpid := beAt (e.2.2 ++ slice f e.1 4) 12 2
  let u := s.scramble t
  if tpid = 0x8100 ∨ tpid = 0x88A8 then
    (u.setEdit t (e.1 + (16 - min 16 e.2.1)) (e.2.2.take 12 ++ e.2.2.drop 16)).setRegs t 0 [0]
  else u.setRegs t 0 [1]

/-- V_COUNT: ADD of r1 at TSRAM byte r0. -/
def State.countRoutine (s : State) (t : Nat) : State :=
  let th := s.thread t
  let a := th.ops.get 0 / 8 * 8
  let ok := match s.regionSize t 1 with
    | some n => decide (a + 8 ≤ n)
    | none => true
  let s := if ok then s.memStore t 1 a (leBytes 8 ((fromLE (s.memBytes t 1 a 8) + th.ops.get 1) % W64))
    else s.count .CS_CTR (clusterOf t) C.CS_MEM_RANGE
  s.scramble t

/-- The message V_HOST_READ, V_HOST_WRITE and V_OFFLOAD stage. -/
def State.stageCall (s : State) (t a : Nat) : State :=
  let th := s.thread t
  let r (k : Nat) : Nat := th.ops.get k
  let c := clusterOf t
  s.modThread t (fun x =>
    if a = 0x50 then { x with stageHdr := 2 ^ 48 * (r 0 % 65536) + 2 ^ 29 * (r 2 % 8) + 2 ^ 25 * bits (r 1) 3 0 + bits (r 1) 31 16 }
    else
      let write := a == 0x41
      let words := [bits (r 2) 15 0 + 2 ^ 16 * (r 0 % 4096) + 2 ^ 28 * b2n write, r 1] ++ (if write then (List.range 6).map (fun k => r (8 + k)) else [])
      { x with
        stageHdr := 2 ^ 48 * (0x500 + c) + 2 ^ 29 * (words.length - 1) + 2 ^ 25
        stage := words.zipIdx.foldl (fun (m : SMap Nat) e => m.set e.2 e.1) x.stage })

/-- A routine that waits for a REPLY posts its message. -/
def State.callPost (s : State) (t a : Nat) : State :=
  let u := s.stageCall t a
  let dest := bits (u.thread t).stageHdr 63 48
  if s.stale (s.thread t) then s.abortThread t 0xFC
  else if (u.thread t).postBad t then s.fault t 0x07 0 0
  else if !u.chanCredit t dest then s.stall t (.credit dest)
  else (u.postMsg t ((s.thread t).before_ 0 [])).modThread t (fun th => { th with st := .waiting, mask := 1, waitAt := s.now, romWait := true })

/-- The REPLY a waiting routine looks for. -/
def Thread.awaited (th : Thread) (a : Nat) : Option ChanMsg :=
  th.inbox.find? (fun m => m.type == 2 && (if a = 0x50 then m.tag == bits th.stageHdr 15 0 else m.src / 256 == 5))

/-- The routine takes its REPLY; other messages stay queued. -/
def State.callReply (s : State) (t a n : Nat) : State :=
  match (s.thread t).awaited a with
  | none => s
  | some m =>
    let s := (s.modThread t (fun th => { th with inbox := th.inbox.erase m })).wake
    let s := (s.scramble t).setRegs t 0 (if a = 0x50 then [m.word 0, m.word 1]
      else if a = 0x40 then [bits (m.word 0) 7 0] ++ (List.range 6).map (fun k => m.word (1 + k)) else [bits (m.word 0) 7 0])
    s.routineRet t a n

/-- V_SUP_DEFAULT: the oldest fault record is decided, RESUME after XLATE, ESCALATE for a supervisor's, else ABORT. At its WAIT
a restart due comes first, and its inbox stays as it is (R148). -/
def State.supDefault (s : State) (t : Nat) : State :=
  if s.supMoves t then s.supMove t
  else match (s.thread t).inbox with
  | [] => s.park t 0x2001
  | m :: rest =>
    let s := s.modThread t (fun th => { th with inbox := rest })
    if m.type ≠ 3 then s.park t 0x2001
    else
      let code := bits (m.word 0) 63 56
      let target := bits (m.word 0) 55 40
      let action := if isSup target then 4 else if code = 0x0A then 0 else 1
      let hdr := 2 ^ 48 * 0x0C01 + 2 ^ 32 * endpoint t + 2 ^ 29 * 3 + 2 ^ 25 * 4 + 2 ^ 24 * (s.thread t).epoch
      let u : State := { s with chan := s.chan ++ [{ header := hdr, words := [2 ^ 60 * action + target, 0, 0, 0] }] }
      ((u.modThread t (fun th => { th with st := .ready })).issued t 2 1 (s.thread t).stepping).wake

/-- The default packet entries: MANAGER for received frames, the descriptor's port for host frames (R167). -/
def State.defaultDone (s : State) (t a : Nat) : State :=
  if s.doneWaits t then s.stall t .done
  else if s.stale (s.thread t) then s.abortThread t 0xFC
  else
    let port := match (s.thread t).pkt.bind (fun h => s.pkt h) with
      | some p => p.port
      | none => 0
    let words := 1 + s.fresh % 2
    let stepping := (s.thread t).stepping
    let s := s.used.modThread t (fun th => { th with ops := (th.ops.set 88 (if a = 0 then 5 * 2 ^ 60 else 2 ^ 60)).set 89 port })
    (s.endPacket t false).issued t a words stepping

/-- Registers a callable routine reads or writes: a pending result of one stalls it (R161, R162). -/
def routineOps (a : Nat) : List Nat :=
  if a < 0x10 then []
  else List.range 8 ++
    (match a with
      | 0x10 => block 16 8
      | 0x11 => block 16 15
      | 0x41 => block 8 6
      | _ => [])

/-- A step of a vendor routine: RET of a callable one, INC where it posts, WAIT of the supervisor's, DONE of a default
entry. -/
def State.routine (s : State) (t op a : Nat) : State :=
  match a, op with
  | 0x00, 8 | 0x01, 8 => s.defaultDone t a
  | 0x02, 7 => s.supDefault t
  | 0x40, 0 | 0x41, 0 | 0x50, 0 => if (s.thread t).romWait then s else s.callPost t a
  | 0x40, 5 | 0x41, 5 => if (s.thread t).romWait then s.callReply t a 10 else s
  | 0x50, 5 => if (s.thread t).romWait then s.callReply t a 8 else s
  | _, 5 =>
    if (s.thread t).stack = [] then s.fault t 0x05 0 0
    else match a with
    | 0x10 => (s.flowRoutine t false).routineRet t a 14
    | 0x11 => (s.flowRoutine t true).routineRet t a 16
    | 0x20 => (s.csumRoutine t).routineRet t a 40
    | 0x21 => ((s.scramble t).setRegs t 0 [csumAdjust ((s.thread t).ops.get 0) ((s.thread t).ops.get 1) ((s.thread t).ops.get 2)]).routineRet t a 4
    | 0x22 => (s.ttlRoutine t).routineRet t a 9
    | 0x30 => (s.vlanPush t).routineRet t a 12
    | 0x31 => (s.vlanPop t).routineRet t a 12
    | 0x60 => (s.countRoutine t).routineRet t a 2
    | _ => s
  | _, _ => s

/-! ### The SEQ operations -/

/-- A thread that may issue a word of this SEQ operation; a thread in WAITING tries only the WAIT it is parked in. -/
def State.mayIssue (s : State) (t op : Nat) : Bool :=
  s.canIssue t || (decide (t < 2048) && !s.coreStopped && (s.thread t).st == .waiting && (op == 7 || (s.thread t).romWait))

/-- Errors that the SEC-DED of the control store or of the registers corrected, at a counter of the cluster (R147). -/
def State.corrected (s : State) (t k : Nat) : State :=
  ((s.count .BRW_CTR (clusterOf t) k).countError .corrected).rateCount (Ev.BRW_CORRECTED_RATE (clusterOf t)) 1

/-- The control-store word a fetch of the thread reads is found damaged. -/
def State.damageWord (s : State) (t : Nat) : State :=
  let pc := (s.thread t).pc
  let c := clusterOf t
  let a := match (if pc < 0x6000 then s.patchFor c (s.bankOf t) pc else none) with
    | some k => s.rd F.CS_MATCH_PATCH (64 * c + 32 * s.bankOf t + k)
    | none => pc
  if pc < 0xC000 then { s with csBad := s.csBad.set (csKey c (s.bankOf t) a) true } else s

/-- A word reads a general register. -/
def wReadsGr (w : Nat) : Bool := (wReads w).any (fun o => decide (o < 64))

/-- The errors that the memories corrected as word w was read are counted. -/
def State.wordErrors (s : State) (t w : Nat) (x : WordIo) : State :=
  (s.when x.csCorrected (fun u => u.corrected t C.BRW_CS_CORRECTED)).when (x.regCorrected && wReadsGr w) (fun u => u.corrected t C.BRW_REG_CORRECTED)

/-- The word at the thread's PC issues, if its SEQ field is this operation (log 24); x is what the memories say to it. -/
def State.seqRow (s : State) (t op : Nat) (x : WordIo) : State :=
  if !s.mayIssue t op then s
  else if s.addrBreak t then s.breakHalt t
  else match (s.when x.csBad (fun u => u.damageWord t)).fetch t with
  | .fault code addr => (s.when x.csBad (fun u => u.damageWord t)).fault t code 0 addr
  | .routine a => if (s.thread t).pendingOn (routineOps a) then s.stall t (.operands (routineOps a)) else s.routine t op a
  | .word w pc =>
    if 10 ≤ wSeq w then s.fault t 0x01 0 0
    else if wSeq w ≠ op then s
    else if s.softBreak t w then s.breakHalt t
    else
      let s := s.wordErrors t w x
      if (s.thread t).pendingOn (wGuards w) then s.stall t (.operands (wGuards w))
      else if !s.lookupCredit t (wTblOp w) (wTbl w) then s.stall t .lookup
      else if x.regBad && wReadsGr w then s.fault t 0x08 0 0
      else (s.modThread t (fun th => { th with pc := pc })).issueWord t w pc

/-- A cell of a thread's packet is damaged. -/
def State.damage (s : State) (t : Nat) : State :=
  match (s.thread t).pkt with
  | none => s
  | some h => match s.pkt h with
    | none => s
    | some p => s.setPkt h { p with badCell := true }

/-- SEQ INC. -/
def execSeqInc (w : Issue) (s : State) : Step := .next (s.seqRow w.t 0 w.io)
/-- SEQ JUMP. -/
def execSeqJump (w : Issue) (s : State) : Step := .next (s.seqRow w.t 1 w.io)
/-- SEQ BR. -/
def execSeqBr (w : Issue) (s : State) : Step := .next (s.seqRow w.t 2 w.io)
/-- SEQ BRN. -/
def execSeqBrn (w : Issue) (s : State) : Step := .next (s.seqRow w.t 3 w.io)
/-- SEQ CALL. -/
def execSeqCall (w : Issue) (s : State) : Step := .next (s.seqRow w.t 4 w.io)
/-- SEQ RET. -/
def execSeqRet (w : Issue) (s : State) : Step := .next (s.seqRow w.t 5 w.io)
/-- SEQ DISP16. -/
def execSeqDisp16 (w : Issue) (s : State) : Step := .next (s.seqRow w.t 6 w.io)
/-- SEQ WAIT. -/
def execSeqWait (w : Issue) (s : State) : Step := .next (s.seqRow w.t 7 w.io)
/-- SEQ DONE. -/
def execSeqDone (w : Issue) (s : State) : Step := .next ((s.when w.io.cellBad (fun u => u.damage w.t)).seqRow w.t 8 w.io)
/-- SEQ FAULT. -/
def execSeqFault (w : Issue) (s : State) : Step := .next (s.seqRow w.t 9 w.io)

end Sys2Proof.Machine
end

