-- ==== Sys2Proof/Machine/Brew.lean ====
section
/-! DEFINITION. The machine round the threads: dispatch and reorder, host access, the supervisor's decisions, time limits,
the debug window and control-store repair (spec/05_brew_engines.md R121 to R145, spec/06_microcode.md R168). -/

namespace Sys2Proof.Machine

/-! ### Dispatch (R121, R122) -/

/-- A cluster takes packets: in service, not fenced, not gated. -/
def State.clusterServes (s : State) (c : Nat) : Bool :=
  s.on F.BRW_CTRL_EN c && !s.on F.BRW_CTRL_FENCED c && !(s.clusters.get c).gated

/-- The packet threads of an engine. -/
def packetThreads (c e : Nat) : List Nat := ((List.range 8).map (fun k => 64 * c + 8 * e + k)).filter (fun t => !isSup t)

/-- The threads a packet of an epoch finds in an engine's place: during the drain of a spare swap those of the engine swapped
out for the old epoch (R116). -/
def State.threadsFor (s : State) (c e ep : Nat) : List Nat := (packetThreads c e).map (fun t => t + s.twin t ep)

/-- Its free ones, and how many hold a packet. -/
def State.freeThreads (s : State) (c e ep : Nat) : List Nat := (s.threadsFor c e ep).filter (fun t => (s.thread t).st == .idle)
def State.busyThreads (s : State) (c e ep : Nat) : Nat := ((s.threadsFor c e ep).filter (fun t => (s.thread t).pkt.isSome)).length

/-- The engines of a cluster a packet of an epoch may go to. -/
def State.openEngines (s : State) (c ep : Nat) : List Nat :=
  (List.range 8).filter (fun e =>
    (s.twin (64 * c + 8 * e) ep != 0 || !bit (s.rd F.BRW_CTRL_ENGINE_FENCED c) e) && !(s.freeThreads c e ep).isEmpty)

/-- The thread of a cluster a packet goes to: fewest busy packet threads, lowest engine, lowest thread. -/
def State.threadIn (s : State) (c ep : Nat) : Option Nat :=
  if !s.clusterServes c then none
  else
    let es := s.openEngines c ep
    let best := (es.map (fun e => s.busyThreads c e ep)).foldl min 64
    (es.find? (fun e => s.busyThreads c e ep == best)).bind (fun e => (s.freeThreads c e ep).head?)

/-- The thread a pipeline's next packet goes to, its clusters tried in rotation. -/
def State.nextThread (s : State) (pipe ep : Nat) : Option Nat :=
  ((List.range 4).map (fun k => 4 * pipe + (s.lastCluster.get pipe + k) % 4)).findSome? (fun c => s.threadIn c ep)

/-- Operands 64 to 191 at dispatch: fields 0 to 23, zeroes, and the header window. -/
def dispatchOps (old : SMap Nat) (p : Packet) : SMap Nat :=
  let m : SMap Nat := old.filter (fun e => decide (e.1 < 64))
  let m := (List.range 24).foldl (fun (m : SMap Nat) k => m.set (64 + k) (p.fields.get k)) m
  (List.range 64).foldl (fun (m : SMap Nat) k => m.set (128 + k) (beAtZ p.data (8 * k) 8)) m

/-- Binds a thread to a packet. -/
def State.bind (s : State) (t h : Nat) (p : Packet) : State :=
  let ix := 2 * clusterOf t + (if p.epoch = 0 then s.rd F.CS_BANK_MAP_EPOCH0_BANK (clusterOf t) else s.rd F.CS_BANK_MAP_EPOCH1_BANK (clusterOf t))
  let entry := if p.fromWire then s.rd F.CS_ENTRY_RX ix else s.rd F.CS_ENTRY_TX ix
  s.modThread t (fun th => { th with
    st := .ready, pc := entry, stack := [], board := [], pend := [], ops := dispatchOps th.ops p, dirty := 0
    timerDone := false, romWait := false, skipBp := none
    pkt := some h, gen := p.gen, func := p.func, epoch := p.epoch, since := s.now, haltTime := 0 })

/-- Numbers a packet for the reorder unit (R127). -/
def State.number (s : State) (h : Nat) (p : Packet) : State :=
  let n := s.nextSeq.get p.pipe
  ({ s with nextSeq := s.nextSeq.set p.pipe (n + 1), order := s.order ++ [(p.pipe, n, bits (p.fields.get 13) 19 0)] }).setPkt h { p with seq := n }

/-- The oldest packet that waits in a pipeline's dispatch queue. -/
def State.dispatchHead (s : State) (pipe : Nat) : Option Nat :=
  if s.coreStopped then none else s.dispatchQ.find? (fun h => match s.pkt h with
    | some p => p.pipe == pipe
    | none => false)

/-- Every cluster of a pipeline is fenced: its dispatcher has no consumer left (spec/01_architecture.md R23). -/
def State.noCluster (s : State) (pipe : Nat) : Bool := (List.range 4).all (fun k => s.on F.BRW_CTRL_FENCED (4 * pipe + k))

/-- The other ungated clusters of its pipeline, and their free packet threads. -/
def State.siblings (s : State) (c : Nat) : List Nat := (List.range 16).filter (fun d => d / 4 == c / 4 && d != c && s.clusterServes d)
def State.freeIn (s : State) (cs : List Nat) : Nat := (cs.flatMap (fun c => (s.openEngines c s.current).flatMap (fun e => s.freeThreads c e s.current))).length

/-- A dispatch that finds 63 free packet threads or fewer in the other clusters of the pipeline: a cluster's 10 ms begin anew
(spec/18_power_reset_package.md R406). -/
def State.noteLoad (s : State) (pipe : Nat) : State :=
  s.each ((List.range 4).map (fun k => 4 * pipe + k)) (fun c t => t.when (decide (s.freeIn (s.siblings c) ≤ 63))
    (fun u => { u with clusters := u.clusters.mod c (fun x => { x with idleSince := u.now }) }))

/-- The dispatcher of a pipeline hands over the packet at the head of its queue; one of a stale generation ends with REASON
0xFC (R141). With every cluster fenced the packet is discarded and counted. -/
def execDispatch (pipe : Nat) (s : State) : Step :=
  match s.dispatchHead pipe with
  | none => .next s
  | some h => if s.noCluster pipe then
      .next (((({ s with dispatchQ := s.dispatchQ.erase h }).retire (.dispatch pipe)).discard (unitPipe pipe) 1).dropPkt h 6)
    else match s.pkt h, (s.pkt h).bind (fun p => s.nextThread pipe p.epoch) with
    | some p, some t =>
      if s.isFenced (unitPipe pipe) 0 then .next s else
      let u := { s with dispatchQ := s.dispatchQ.erase h, lastCluster := s.lastCluster.set pipe ((clusterOf t + 1) % 4) }
      let u := ((u.noteLoad pipe).retire (.dispatch pipe)).number h p
      .next (if !p.fromWire && p.gen != s.rd F.HIF_FN_STATE_GEN p.func then
          (u.count .PIPE_CTR pipe C.PIPE_FLR_DROPS).toVerdict h (dropVerdict 0xFC)
        else ((u.moveTo h (.thread t)).bind t h p).count .BRW_CTR (clusterOf t) C.BRW_DISPATCHED)
    | _, _ => .next s

/-! ### The reorder unit (R125, R127) -/

/-- Every earlier packet of the same flow has left. -/
def State.inOrder (s : State) (p : Packet) : Bool :=
  let flow := (s.order.find? (fun o => o.1 == p.pipe && o.2.1 == p.seq)).map (·.2.2)
  !s.order.any (fun o => o.1 == p.pipe && decide (o.2.1 < p.seq) && some o.2.2 == flow)

/-- Counts a DROP verdict with its REASON. -/
def State.countDrop (s : State) (pipe reason : Nat) : State :=
  let s := s.count .PIPE_CTR pipe C.PIPE_DROPPED
  { s with dropReasons := s.dropReasons.set (256 * pipe + reason) (s.dropReasons.get (256 * pipe + reason) + 1) }

/-- A copy of the frame goes to the manager; it completes no job of its own. -/
def State.copyToManager (s : State) (p : Packet) : State :=
  s.addPkt { p with stage := .toTm, job := none, stampAll := false, wantStamp := false, deferred := [], offload := [], verdict := { action := 5 } }

/-- A verdict leaves the reorder unit; it waits while the queue to the traffic manager has no credit. -/
def execReorderRelease (h : Nat) (s : State) : Step :=
  match s.pkt h with
  | none => .next s
  | some p =>
    if p.stage = .verdict ∧ s.inOrder p ∧ s.enqueueCredit p.pipe (1 + b2n (bit p.verdict.word 59)) then
      let s := s.retire (.verdict p.pipe)
      let s := { s with order := s.order.filter (fun o => !(o.1 == p.pipe && o.2.1 == p.seq)) }
      if s.isFenced (unitPipe p.pipe) 0 then .next ((s.discard (unitPipe p.pipe) 1).dropPkt h 6) else
      let s := s.count .PIPE_CTR p.pipe C.PIPE_VERDICTS
      let a := p.verdict.action
      let waits := decide (1 ≤ a ∧ a ≤ 5) && !p.taken && !(p.deferred.isEmpty && p.offload.isEmpty)
      let s := s.when (bit p.verdict.word 59 && !p.doomed && !waits) (fun u => u.copyToManager p)
      let s := if p.doomed then s.dropPkt h 6
        else if 7 ≤ a then ((s.count .PIPE_CTR p.pipe C.PIPE_BAD_VERDICT).countDrop p.pipe 0xFF).dropPkt h 6
        else if a = 0 then (s.countDrop p.pipe (bits p.verdict.word 58 51)).dropPkt h 6
        else if a = 6 || p.taken then s.endPkt h true 0 p.ofl
        else s.moveTo h (if p.deferred.isEmpty && p.offload.isEmpty then .toTm else .deferred)
      .next s.wake
    else .next s

/-! ### The host-access channel (R35, R292) -/

/-- Status of a failed read, and its data. A status for poisoned data the spec does not state. -/
def hostStatus (r : HostReply) (free : Nat) : List Nat :=
  match r with
  | .data b => [0] ++ (List.range (cdiv b.length 8)).map (fun k => leAt b (8 * k) 8)
  | .timeout => [2]
  | .unsupported => [3]
  | .poisoned => [free % 256]
  | .ecrc => [free % 256]
  | .xlateFault => [1]

/-- The bytes a word stored are put back. -/
def State.putBack (s : State) (mem : List (Nat × Nat × Byte)) : State :=
  s.each mem (fun b u =>
    match b.1 with
    | 0 => { u with localMem := u.localMem.set b.2.1 b.2.2 }
    | 1 => { u with tsram := u.tsram.set b.2.1 b.2.2 }
    | _ => { u with hbmMem := u.hbmMem.set b.2.1 b.2.2 })

/-- The thread as it stood before the word that posted a message, what has arrived since kept. -/
def Thread.rollback (th : Thread) (u : Undo) : Thread :=
  { th with
    stack := u.stack, deep := u.deep, flags := u.flags, board := u.board, pend := u.pend, ops := u.ops, dirty := u.dirty
    stageHdr := u.stageHdr, stage := u.stage, events := u.events ||| th.events
    inbox := u.inbox ++ th.inbox.filter (fun m => !u.inbox.contains m) }

/-- The word that posted a message has had no effect: thread, memory and the messages its thread has posted since are as they
were (R136); the thread is at that word again. -/
def State.unpost (s : State) (t : Nat) (m : ChanMsg) : State :=
  let s : State := { s with chan := s.chan.filter (fun x => !(s.sender x == t && decide (m.id < x.id))) }
  let s := match (s.thread t).undo.find? (fun u => u.id == m.id) with
    | some u => (s.putBack u.mem).modThread t (fun th => th.rollback u)
    | none => s
  s.modThread t (fun th => { th with pc := m.at_, romWait := false, undo := [] })

/-- A translation fault parks the thread at the posting word, which has had no effect; a fault whose page request cannot be made
fails at once. -/
def State.hostFault (s : State) (m : ChanMsg) (f : Nat) (pasid : Option Nat) (addr : Nat) (write : Bool) : State :=
  let t := s.sender m
  if t < 2048 ∧ ((s.thread t).pkt.isSome ∨ isSup t) then
    let s := (s.unpost t m).modThread t (fun th => { th with faultAddr := addr })
    match s.pageRequest f pasid addr write (.thread t) with
    | some u => u.faultLater t 0x0A addr
    | none => (s.pageFailed f).faultLater t 0x0B addr
  else s

/-- A request has been translated: nothing of its word is put back any more. -/
def State.posted (s : State) (m : ChanMsg) : State :=
  s.modThread (s.sender m) (fun th => { th with undo := th.undo.filter (fun u => decide (m.id < u.id)) })

/-- The oldest request of a cluster's host-access channel is performed; reply is what the host answers. -/
def execHostAccessRequest (c : Nat) (reply : HostReply) (s : State) : Step :=
  match s.chan.find? (fun m => m.dest == 0x500 + c) with
  | none => .next s
  | some m =>
    let s := s.accepted m
    let w := m.word 0
    let len := bits w 15 0
    let f := bits w 27 16
    let write := bit w 28
    let pasid := if bit w 29 then some (bits w 49 30) else none
    let addr := m.word 1
    let faults := decide (m.type = 1) && s.mayDma f && decide (1 ≤ len ∧ len ≤ 48) && reply == .xlateFault
    let s := if faults then s.hostFault m f pasid addr write else s.posted m
    .next (if m.type ≠ 1 ∨ faults then s
      else if !s.mayDma f then s.reply m [4]
      else if len = 0 ∨ 48 < len then s.used.reply m [s.fresh % 256]
      else if write then
        (s.hostWrite f addr pasid (((List.range 6).flatMap (fun k => leBytes 8 (m.word (2 + k)))).take len)).reply m [0]
      else
        let s := (s.when (s.atsHit f pasid addr false) (fun u => u.atsUse f pasid addr false)).sendRead f addr pasid len
        let s := s.readFailed f reply
        match reply with
        | .data b => s.reply m (hostStatus (.data (fit len b)) 0)
        | r => s.used.reply m (hostStatus r s.fresh))

/-! ### Fences (spec/17_errors_and_service.md R389) -/

/-- A thread's packet, if it holds one, ends as for ABORT, and the thread is FENCED. -/
def State.fenceOut (s : State) (t : Nat) : State := (s.abortThread t 0xFD).modThread t (fun th => { th with st := .fenced })

/-- A thread is fenced. -/
def State.fenceThread (s : State) (t cause : Nat) : State :=
  ((s.fenceOut t).fence (unitObject 3) cause .contained (endpoint t)).raise (Ev.BRW_FENCED (clusterOf t))

/-- The threads of engines swapped out of a cluster. -/
def State.twins (s : State) (c : Nat) : List Nat := (s.threads.filter (fun e => decide (1024 ≤ e.1) && clusterOf e.1 == c)).map (·.1)

/-- A cluster is fenced: every thread, the supervisor's too. -/
def State.fenceCluster (s : State) (c cause : Nat) (cls : ErrClass) : State :=
  let s := s.each ((List.range 64).map (fun k => 64 * c + k) ++ s.twins c) (fun t u => u.fenceOut t)
  ((s.wr F.BRW_CTRL_FENCED c 1).fence (unitCluster c) cause cls 0).raise (Ev.BRW_FENCED c)

/-- A logical engine is fenced; engine 0 takes its cluster with it (R137). -/
def State.fenceEngine (s : State) (c e cause : Nat) : State :=
  if e = 0 then s.fenceCluster c cause .contained
  else
    let s := s.each (packetThreads c e) (fun t u => u.fenceOut t)
    let m := s.rd F.BRW_CTRL_ENGINE_FENCED c
    let s := s.wr F.BRW_CTRL_ENGINE_FENCED c (if bit m e then m else m + 2 ^ e)
    (s.fence (unitEngine c (bits (s.rd F.BRW_ENGINE_MAP_PHYS c) (4 * e + 3) (4 * e))) cause .contained 0).raise (Ev.BRW_FENCED c)

/-- A physical engine that serves no logical one is fenced: the spare, or one swapped out, whose threads end with it. -/
def State.fenceIdleEngine (s : State) (c p cause : Nat) : State :=
  let s := s.each ((s.twins c).filter (fun t => s.physical t == p)) (fun t u => u.fenceOut t)
  (s.fence (unitEngine c p) cause .contained 0).raise (Ev.BRW_FENCED c)

/-! ### Decisions (R137, R138) -/

/-- ALL_WAIT stands for the thread's engine: reported, and the thread waits since. -/
def State.allWaitStands (s : State) (t : Nat) : Bool :=
  decide ((s.thread t).waitAt < (s.clusters.get (clusterOf t)).allWait.get (engineOf t)) && (s.thread t).st == .waiting

/-- A fault record of a thread that is still on its way or in its supervisor's inbox, or with Barista, is taken back. -/
def State.recall (s : State) (t : Nat) : State :=
  let mine (m : ChanMsg) : Bool := m.type == 3 && m.src == endpoint t && m.dest == supOf (clusterOf t) && bits (m.word 0) 63 56 != 0x0F
  let s : State := { s with chan := s.chan.filter (fun m => !mine m), barista := s.barista.filter (fun e => e.1 != endpoint t) }
  s.modThread (supOf (clusterOf t)) (fun th => { th with inbox := th.inbox.filter (fun m => !mine m) })

/-- The page request for a thread's translation fault has failed: its record becomes one of XLATE_FAIL
(spec/01_architecture.md R35). A thread that has been resumed or aborted meanwhile has no such fault. -/
def State.xlateFails (s : State) (t : Nat) : State :=
  let th := s.thread t
  if th.faulted ∧ th.fault = 0x0A then (s.recall t).fault t 0x0B 0 th.faultAddr
  else s.modThread t (fun x => { x with later := x.later.map (fun e => if e.1 = 0x0A then (0x0B, e.2) else e) })

/-- RESUME; a fault met while this one was outstanding is taken now. -/
def State.resume (s : State) (d : Decision) : State :=
  let later := (s.thread d.target).later
  let s := s.modThread d.target (fun th => { th with
    st := .ready, escalated := false, pc := d.newPc.getD th.pc, later := later.drop 1
    ops := match d.reg with
      | some r => th.ops.set (r.1 % 64) (r.2 % W64)
      | none => th.ops })
  match later with
  | [] => s
  | e :: _ => s.fault d.target e.1 0 e.2

/-- The effect of a decision by its ACTION. -/
def State.decide_ (s : State) (action : Nat) (d : Decision) : State :=
  match action with
  | 0 => s.resume d
  | 1 => s.abortThread d.target 0xFD
  | 2 => s.fenceThread d.target 4
  | 3 =>
    if 1024 ≤ d.target then s.fenceIdleEngine (clusterOf d.target) (s.physical d.target) 4
    else s.fenceEngine (clusterOf d.target) (engineOf d.target) 4
  | _ => (s.modThread d.target (fun th => { th with escalated := true })).toBarista (endpoint d.target) (s.thread d.target).fault

/-- The thread a decision names: during a spare swap's drain the one of the engine swapped out when that one is PARKED (DEDUCED,
log 209). -/
def State.named (s : State) (t : Nat) : Nat := if t < 1024 ∧ (s.thread (t + 1024)).st = .parked then t + 1024 else t

/-- A decision about the thread it names. -/
def State.about (s : State) (d : Decision) : Decision := { d with target := s.named d.target }

/-- The thread a decision may name: PARKED, or any for a fence; ABORT also ends a wait of ALL_WAIT (R140). -/
def State.targetOk (s : State) (c action t : Nat) : Bool :=
  decide (clusterOf t = c) && ((s.thread t).st == .parked || action == 2 || action == 3 || (action == 1 && s.allWaitStands t))

/-- The decision a CONTROL message carries. -/
def ChanMsg.decision (m : ChanMsg) : Decision :=
  { target := bits (m.word 0) 15 0
    newPc := if bit (m.word 1) 16 then some (bits (m.word 1) 15 0) else none
    reg := if bit (m.word 2) 8 then some (bits (m.word 2) 5 0, m.word 3) else none }

/-- Barista's own decision about an escalated record. -/
def State.baristaDecides (s : State) (action : Nat) (d : Decision) : State :=
  match s.barista.find? (fun e => e.1 == d.target) with
  | none => s
  | some e =>
    let d := s.about d
    if (s.thread d.target).escalated ∧ (s.thread d.target).st = .parked ∧ action ≠ 4 then
      ({ s with barista := s.barista.erase e }).decide_ action d
    else s

/-- A decision of a cluster's supervisor, the first message at its control endpoint, or one of Barista's. A message that
is no CONTROL message with a known ACTION is answered BAD_TARGET. -/
def State.supRow (s : State) (c action : Nat) (barista : Option Decision) : State :=
  match barista with
  | some d => s.baristaDecides action d
  | none => match s.chan.find? (fun m => m.dest == 0x0C01 && clusterOf m.src == c) with
    | none => s
    | some m =>
      let a := bits (m.word 0) 63 60
      let d := s.about m.decision
      if m.type ≠ 4 ∨ 5 ≤ a then (s.accepted m).reply m [1]
      else if a ≠ action then s
      else if s.targetOk c a d.target then ((s.accepted m).decide_ a d).reply m [0]
      else (s.accepted m).reply m [1]

/-- RESUME. -/
def execSupResume (c : Nat) (barista : Option Decision) (s : State) : Step := .next (s.supRow c 0 barista)
/-- ABORT. -/
def execSupAbort (c : Nat) (barista : Option Decision) (s : State) : Step := .next (s.supRow c 1 barista)
/-- FENCE_THREAD. -/
def execSupFenceThread (c : Nat) (barista : Option Decision) (s : State) : Step := .next (s.supRow c 2 barista)
/-- FENCE_ENGINE. -/
def execSupFenceEngine (c : Nat) (barista : Option Decision) (s : State) : Step := .next (s.supRow c 3 barista)
/-- ESCALATE. -/
def execSupEscalate (c : Nat) (s : State) : Step := .next (s.supRow c 4 none)

/-- A decision has not come in time (R138). -/
def execSupTimeout (t : Nat) (s : State) : Step :=
  let th := s.thread t
  let c := clusterOf t
  .next (if t < 2048 ∧ th.st = .parked ∧ !th.escalated ∧ th.faultAt + s.rd F.BRW_SUP_TIMEOUT_US c * 1000 ≤ s.now then
    ((s.abortThread t 0xFD).toBarista (endpoint t) 0x10).raise (Ev.BRW_SUP_TIMEOUT c)
  else s)

/-- Core cycles a packet has been held, three for every two nanoseconds of the 1.5 GHz core clock, halts apart (R139). -/
def State.heldLong (s : State) (t : Nat) : Bool :=
  let th := s.thread t
  decide (2 * s.rd F.BRW_RUN_LIMIT_CYCLES (clusterOf t) < 3 * (s.now - th.since - th.haltTime))

/-- A packet is held longer than the run limit. -/
def execRunLimitExpire (t : Nat) (s : State) : Step :=
  let th := s.thread t
  .next (if t < 2048 ∧ th.pkt.isSome ∧ (th.st = .ready ∨ th.st = .stalled ∨ th.st = .waiting) ∧ s.heldLong t then s.fault t 0x0E 0 0 else s)

/-- The threads of an engine; of one swapped out, those behind the first 1,024. -/
def engineThreads (c e : Nat) (out : Bool) : List Nat := (List.range 8).map (fun k => 1024 * b2n out + 64 * c + 8 * e + k)

/-- All eight threads wait on signals alone for 1,024 core cycles, 683 ns, and some has left WAITING since the last
record (R140). -/
def State.allWaiting (s : State) (c e : Nat) (out : Bool) : Bool :=
  (engineThreads c e out).all (fun t =>
    let th := s.thread t
    th.st == .waiting && clearBits th.mask 0x0FF0 == 0 && th.inbox.isEmpty && decide (th.waitAt + 683 ≤ s.now) &&
      !s.chan.any (fun m => decide (m.dest ≤ 0x3FF) && s.receiver m == t)) &&
  (engineThreads c e out).any (fun t => decide ((s.clusters.get c).allWait.get e ≤ (s.thread t).waitAt))

/-- The ALL_WAIT record of an engine; Barista has it when the supervisor is one of the eight. -/
def execAllWait (c e : Nat) (s : State) : Step :=
  .next (if c < 16 ∧ e < 8 ∧ (s.allWaiting c e false ∨ s.allWaiting c e true) then
    let t0 := 64 * c + 8 * e
    let s := (s.count .BRW_CTR c C.BRW_ALL_WAIT).raise (Ev.BRW_ALL_WAIT c)
    let s := { s with clusters := s.clusters.mod c (fun x => { x with allWait := x.allWait.set e (s.now + 1) }) }
    if e = 0 then s.toBarista t0 0x0F
    else { s with chan := s.chan ++ [s.faultRecord t0 0x0F 0xFF 0] }
  else s)

/-! ### Debug (R142, R145) -/

/-- The call stack with its depth changed; entries above the old depth are as they were left. -/
def Thread.setDepth (th : Thread) (d : Nat) : Thread :=
  let at_ (k : Nat) : Nat := if k < th.stack.length then th.stack.getD (th.stack.length - 1 - k) 0 else th.deep.get k
  { th with
    stack := (List.range d).reverse.map at_
    deep := (List.range 8).foldl (fun (m : SMap Nat) k => m.set k (at_ k)) th.deep }

/-- Entry k of the call stack is written. -/
def Thread.setEntry (th : Thread) (k v : Nat) : Thread :=
  if k < th.stack.length then { th with stack := th.stack.set (th.stack.length - 1 - k) (v % 65536) }
  else { th with deep := th.deep.set k (v % 65536) }

/-- The scoreboard bits as the window shows them. -/
def boardOps (lo hi : Nat) : List Nat :=
  ((List.range 64).filter (fun k => bit lo k)) ++ (((List.range 24).filter (fun k => bit hi k)).map (fun k => 104 + k))

/-- Bits a set of operands gives. -/
def bitsOf (l : List Nat) (base n : Nat) : Nat := (List.range n).foldl (fun a k => if l.contains (base + k) then a + 2 ^ k else a) 0

/-- The word at an offset of a thread's debug window. -/
def Thread.debugWord (th : Thread) (o : Nat) : Nat :=
  if o < 0x200 then th.ops.get (o / 8)
  else if o = 0x200 then th.pc + 2 ^ 16 * th.flags
  else if o = 0x208 then th.stack.length
  else if 0x210 ≤ o ∧ o < 0x250 then
    (let k := (o - 0x210) / 8
    if k < th.stack.length then th.stack.getD (th.stack.length - 1 - k) 0 else th.deep.get k)
  else if o = 0x250 then bitsOf th.board 0 64
  else if o = 0x258 then bitsOf th.board 104 24
  else if o = 0x260 then th.eventBits
  else if o = 0x300 then th.stageHdr
  else if 0x308 ≤ o ∧ o < 0x348 then th.stage.get ((o - 0x308) / 8)
  else if 0x400 ≤ o ∧ o < 0x600 then th.field ((o - 0x400) / 8)
  else if 0x600 ≤ o ∧ o < 0x800 then th.ops.get (128 + (o - 0x600) / 8)
  else 0

/-- A write of that word. -/
def State.debugPut (s : State) (t o v : Nat) : State :=
  let v := v % W64
  if o < 0x200 then s.modThread t (fun th => { th with ops := th.ops.set (o / 8) v, board := th.board.erase (o / 8) })
  else if o = 0x200 then s.modThread t (fun th => { th with pc := v % 65536, flags := bits v 23 16 })
  else if o = 0x208 then s.modThread t (fun th => th.setDepth (min 8 (v % 16)))
  else if 0x210 ≤ o ∧ o < 0x250 then s.modThread t (fun th => th.setEntry ((o - 0x210) / 8) v)
  else if o = 0x250 then s.modThread t (fun th => { th with board := boardOps v (bitsOf th.board 104 24) })
  else if o = 0x258 then s.modThread t (fun th => { th with board := boardOps (bitsOf th.board 0 64) v })
  else if o = 0x260 then s.modThread t (fun th => { th with events := bits v 12 2 * 4 })
  else if o = 0x300 then s.modThread t (fun th => { th with stageHdr := v })
  else if 0x308 ≤ o ∧ o < 0x348 then s.modThread t (fun th => { th with stage := th.stage.set ((o - 0x308) / 8) v })
  else if 0x400 ≤ o ∧ o < 0x600 then
    (let op := 64 + (o - 0x400) / 8
    (s.writeOp t op v).modThread t (fun th => { th with board := th.board.erase op }))
  else if 0x600 ≤ o ∧ o < 0x800 then s.writeOp t (128 + (o - 0x600) / 8) v
  else s

/-- The address of a thread's debug window. -/
def debugBase (t : Nat) : Nat := 0x18000000 + 0x200000 * clusterOf t + 0x40000 * engineOf t + 0x8000 * (t % 8)

/-- A write to a thread's debug window at an offset; of a thread that is not halted it is ignored and logged. -/
def State.debugWrite (s : State) (t o : Nat) (w : Width) (v : Nat) : State :=
  if t < 1024 ∧ (s.thread t).st = .halted then
    let o := o / 8 * 8
    s.debugPut t o (merge w ((s.thread t).debugWord o) v)
  else s.logFwWrite (debugBase t + o) v

/-- A manager write to a thread's debug window. -/
def execDebugWindowWrite (fn t o : Nat) (w : Width) (v : Nat) (s : State) : Step :=
  .next (s.asManager fn (fun s => s.debugWrite t o w v))

/-- JTAG takes the debug claim of every cluster. -/
def execJtagClaim (s : State) : Step :=
  .next ((s.each (List.range 16) (fun c u => u.wr F.BRW_DBG_CTL_JTAG_OWNS c 1)).raise Ev.SVC_JTAG_CLAIM)

/-- JTAG gives it up. -/
def execJtagRelease (s : State) : Step :=
  .next ((s.each (List.range 16) (fun c u => u.wr F.BRW_DBG_CTL_JTAG_OWNS c 0)).raise Ev.SVC_JTAG_RELEASE)

/-! ### Control-store repair (spec/06_microcode.md R168) -/

/-- The first free repair entry of a bank. -/
def State.repairEntry (s : State) (c bank : Nat) : Option Nat :=
  [28, 29, 30, 31].find? (fun k => !s.on F.CS_MATCH_EN (64 * c + 32 * bank + k))

/-- A ROM word is put into patch RAM of a bank and a repair entry leads there. -/
def State.repairRom (s : State) (c bank k a p : Nat) : State :=
  let ix := 64 * c + 32 * bank + k
  let s := { s with cs := s.cs.setD (csKey c bank p) (Config.romWord a).toNat csFill, csBad := s.csBad.set (csKey c bank p) false }
  ((s.wr F.CS_MATCH_ROM ix a).wr F.CS_MATCH_PATCH ix p).wr F.CS_MATCH_EN ix 1

/-- Firmware answers the supervisor. -/
def State.answerSup (s : State) (c : Nat) : State :=
  { s with chan := s.chan ++ [{ header := 2 ^ 48 * supOf c + 2 ^ 32 * 0xFFF + 2 ^ 26, words := [0] }] }

/-- A patch RAM word that no image's CODE covers and no patch-match entry of the bank leads to. -/
def State.patchFree (s : State) (c bank p : Nat) : Bool :=
  decide (0x6000 ≤ p ∧ p < 0x8000) && s.cs.getD (csKey c bank p) csFill == csFill && !s.csBad.get (csKey c bank p) &&
    (List.range 32).all (fun k => !(s.on F.CS_MATCH_EN (64 * c + 32 * bank + k) && s.rd F.CS_MATCH_PATCH (64 * c + 32 * bank + k) == p))

/-- Firmware repairs the damaged word at an address of a cluster's bank; patch0 and patch1 are the free patch RAM words it
chooses in banks 0 and 1 for a ROM word. -/
def execCsEccRepair (c bank a : Nat) (patch : Nat × Nat) (s : State) : Step :=
  .next (if !s.csBad.get (csKey c bank a) then s
    else if 0x6000 ≤ a then
      ((({ s with csBad := s.csBad.set (csKey c bank a) false }).countError .corrected).answerSup c)
    else match s.repairEntry c 0, s.repairEntry c 1 with
      | some i, some j =>
        if s.patchFree c 0 patch.1 ∧ s.patchFree c 1 patch.2 then
          ((((s.repairRom c 0 i a patch.1).repairRom c 1 j a patch.2).countError .corrected).answerSup c)
        else s
      | _, _ => s.fenceCluster c 4 .degraded)

end Sys2Proof.Machine
end

