-- ==== Sys2Proof/Machine/Nodes.lean ====
section
/-! DEFINITION. Scheduler nodes, Drip shapers and gate lists (spec/08_traffic_manager.md R204, R205, R211, R212, R215 to
R217, R222). -/

namespace Sys2Proof.Machine

/-! ### Nodes (R204) -/

/-- The key of a node; levels: 0 port, 1 tenant group, 2 tenant, 3 queue. -/
def nodeKey (level i : Nat) : Nat := 131072 * level + i

/-- Indices of a level. -/
def nodeCount : Nat → Nat
  | 0 => 20
  | 1 => 1024
  | 2 => 16384
  | _ => 65536

/-- The slice of a node below the port level. -/
def nodeSlice (level i : Nat) : Nat :=
  match level with
  | 1 => i / 256
  | 2 => i / 4096
  | _ => i / 16384

/-- The half of a node. -/
def nodeHalf (level i : Nat) : Nat :=
  if level = 0 then (if i < 16 then i / 8 else (i - 16) / 2) else nodeSlice level i / 2

/-- The fields of a node configuration. -/
def Node.word (n : Node) (o : Nat) : Nat := leAt n.cfg o 4
def Node.en (n : Node) : Bool := bit (n.word 0) 31
def Node.prio (n : Node) : Nat := bits (n.word 0) 30 28
def Node.rate (n : Node) : Nat := bits (n.word 0) 20 0
def Node.burst (n : Node) : Nat := bits (n.word 4) 24 0
def Node.parent (n : Node) : Nat := bits (n.word 8) 13 0
def Node.weight (n : Node) : Nat := bits (n.word 8) 26 16
def Node.overhead (n : Node) : Int := signed 8 (bits (n.word 12) 7 0)
def Node.owner (n : Node) : Nat := bits (n.word 12) 31 20
def Node.maxKib (n : Node) : Nat := bits (n.word 16) 19 0
def Node.tc (n : Node) : Nat := bits (n.word 16) 22 20
def Node.ltEn (n : Node) : Bool := bit (n.word 16) 23
def Node.lateSend (n : Node) : Bool := bit (n.word 16) 24
def Node.tolerance (n : Node) : Nat := n.word 20
def Node.alarmKib (n : Node) : Nat := bits (n.word 24) 15 0
def Node.alarmUs (n : Node) : Nat := bits (n.word 24) 31 16

/-- A node by level and index. -/
def State.node (s : State) (level i : Nat) : Node := s.nodes.get (nodeKey level i)

/-- Changes a node. -/
def State.modNode (s : State) (level i : Nat) (g : Node → Node) : State := { s with nodes := s.nodes.mod (nodeKey level i) g }

/-- Frame bytes as the traffic manager counts them: LEN, without FCS. -/
def State.frameLen (s : State) (h : Nat) : Nat := match s.pkt h with
  | some p => p.data.length
  | none => 0

/-- A queue's depth in bytes (log 35). -/
def State.depth (s : State) (q : Nat) : Nat := (s.node 3 q).frames.foldl (fun a h => a + s.frameLen h) 0

/-- The node's ancestors from itself up to its port: level and index. -/
def State.path (s : State) (level i : Nat) : List (Nat × Nat) :=
  match level with
  | 0 => [(0, i)]
  | l + 1 => (l + 1, i) :: s.path l (s.node (l + 1) i).parent

/-- The port node a queue lies under. -/
def State.queuePort (s : State) (q : Nat) : Nat :=
  (s.node 1 (s.node 2 (s.node 3 q).parent).parent).parent

/-- The default class queue of port node i for a traffic class. -/
def defaultQueue (i c : Nat) : Nat := if i < 16 then 32768 * (i / 8) + 8 * (i % 8) + c else 32768 * ((i - 16) / 2) + 64 + 8 * ((i - 16) % 2) + c

/-- One of the 160 default class queues. -/
def isDefaultQueue (q : Nat) : Bool := decide (q < 65536 ∧ q % 32768 < 80)

/-- Children of a node with EN = 1, in index order. -/
def State.children (s : State) (level i : Nat) : List Nat :=
  (s.nodes.filter (fun e => e.1 / 131072 == level + 1 && e.2.en && e.2.parent == i)).map (fun e => e.1 % 131072)

/-- The highest rate a node's port gives, in the mode in use. -/
def State.lineRate (s : State) (portNode : Nat) : Nat := if portNode < 16 then modeRate (s.rd F.PRT_STATUS_ACTIVE_MODE portNode) else 2000000

/-- The queue is bound to a ring. -/
def State.queueBound (s : State) (q : Nat) : Bool :=
  s.rings.any (fun e => e.2.state != 0 && (e.2.kind == 1 || e.2.kind == 2) && e.2.schedQ == q)

/-- Keeps TM_OBS_QUEUES. -/
def State.queuesSync (s : State) : State :=
  s.wr F.TM_OBS_QUEUES_ENABLED 0 (s.nodes.filter (fun e => e.1 / 131072 == 3 && e.2.en)).length

/-! ### Drip shapers (R211) -/

/-- Credit of one byte. -/
def byteCredit : Nat := 8192000

/-- RATE_MBPS and BURST_B as the node's shaper uses them: those in force at its last scheduling decision (R212). -/
def Node.fill (n : Node) : Nat := bits (leAt (n.old.getD n.cfg) 0 4) 20 0
def Node.cap (n : Node) : Nat := bits (leAt (n.old.getD n.cfg) 4 4) 24 0

/-- The port node at the top of a node's path. -/
def State.rootPort (s : State) (level i : Nat) : Nat := ((s.path level i).getLast?.getD (0, 0)).2

/-- The rate a node's shaper fills at. -/
def State.fillRate (s : State) (level i : Nat) : Nat := min (s.node level i).fill (s.lineRate (s.rootPort level i))

/-- The node with its credit grown to now; device time that has stepped back adds nothing (log 36). -/
def Node.accrue (n : Node) (rate ticks : Nat) : Node :=
  if rate = 0 then { n with creditAt := ticks }
  else if ticks ≤ n.creditAt then n
  else { n with credit := min ((n.cap * byteCredit : Nat) : Int) (n.credit + (rate * 128 * (ticks - n.creditAt) : Nat)), creditAt := ticks }

/-- A node grown to now. -/
def State.accrue (s : State) (level i : Nat) : State :=
  s.modNode level i (fun n => n.accrue (s.fillRate level i) s.time.ticks)

/-- Its credit at or above zero and its rate not zero. -/
def State.eligible (s : State) (level i : Nat) : Bool :=
  let n := (s.node level i).accrue (s.fillRate level i) s.time.ticks
  n.en && n.fill != 0 && decide (0 ≤ n.credit)

/-- A scheduling decision below a port takes the configurations written since the last: credit grows to now as before, then is
clamped to the new burst; a negative credit is kept (R212). -/
def State.adopt (s : State) (port : Nat) : State :=
  s.each ((s.nodes.filter (fun e => e.2.old.isSome)).map (·.1)) (fun k t =>
    let level := k / 131072
    let i := k % 131072
    if t.rootPort level i = port then
      (t.accrue level i).modNode level i (fun n => { n with old := none, credit := min n.credit (n.burst * byteCredit : Nat) })
    else t)

/-- Counted bytes of a frame at a node. -/
def Node.counted (n : Node) (len : Nat) : Int := (len : Int) + n.overhead

/-! ### Node writes (R205) -/

/-- The parent index is in the node table's rule for a level. -/
def parentOk (level i p : Nat) : Bool :=
  let h := nodeHalf level i
  match level with
  | 0 => p == 0
  | 1 => decide (8 * h ≤ p ∧ p < 8 * h + 8) || decide (16 + 2 * h ≤ p ∧ p ≤ 17 + 2 * h)
  | 2 => decide (p / 256 = i / 4096) && decide (p < 1024)
  | _ => decide (p / 4096 = i / 16384)

/-- Fields in range and rsvd fields zero; host tells nodes below a host port node. -/
def Node.fieldsOk (n : Node) (level : Nat) (host : Bool) : Bool :=
  let o := n.overhead
  bits (n.word 0) 27 21 == 0 && decide (n.rate ≤ if host then 2000000 else 1600000) &&
  decide (64 ≤ n.burst ∧ n.burst ≤ 16777216) && bits (n.word 4) 31 25 == 0 &&
  bits (n.word 8) 15 14 == 0 && decide (1 ≤ n.weight ∧ n.weight ≤ 1024) && bits (n.word 8) 31 27 == 0 &&
  decide (-64 ≤ o ∧ o ≤ 63) && bits (n.word 12) 19 8 == 0 &&
  (if level = 3 then
    decide (1 ≤ n.maxKib ∧ n.maxKib ≤ 49152) && bits (n.word 16) 31 25 == 0 && decide (n.tolerance ≤ 1000000000) && n.word 28 == 0
  else leAt n.cfg 16 16 == 0)

/-- The port a node would lie under with a parent. -/
def State.portUnder (s : State) (level i p : Nat) : Nat :=
  match level with
  | 0 => i
  | l + 1 => ((s.path l p).getLast?.getD (0, 0)).2

/-- A node write is refused, the cases of R205 and R207; an enabled node may stand below one that is not (log 37). -/
def State.nodeRefused (s : State) (level i : Nat) (cfg : Bytes) : Bool :=
  let n : Node := { cfg := cfg }
  let old := s.node level i
  !parentOk level i n.parent || !n.fieldsOk level (decide (16 ≤ s.portUnder level i n.parent)) ||
  (!n.en && ((level == 3 && (!old.frames.isEmpty || isDefaultQueue i || s.queueBound i)) || !(s.children level i).isEmpty)) ||
  (level == 3 && n.en && !old.en && !s.on F.TM_OBS_CFG_MODE 0 && decide (8192 ≤ s.rd F.TM_OBS_QUEUES_ENABLED 0))

/-- Writes a node's configuration: a node put in use starts with its burst as credit, the shaper of one in use takes the new
configuration at its next scheduling decision, and a fenced queue returns to service (R211, R212, R214). -/
def State.writeNode (s : State) (level i : Nat) (cfg : Bytes) : State :=
  let s := s.accrue level i
  let old := s.node level i
  let n : Node := { cfg := cfg }
  let s := s.modNode level i (fun o =>
    if n.en && !old.en then { cfg := cfg, credit := (n.burst * byteCredit : Nat), creditAt := s.time.ticks, cleared := s.stamp }
    else { o with cfg := cfg, old := if n.en then some (o.old.getD o.cfg) else none })
  let s := s.when (level == 3 && n.en && !old.en) (fun t => t.unfence (unitObject 5) i)
  s.queuesSync

/-! ### Gate lists (R215 to R217) -/

/-- The operational list of a port. -/
def State.operList (s : State) (p : Nat) : GateList :=
  { en := s.on F.GCL_OPER_CTRL_EN p, cycle := s.rd F.GCL_OPER_CYCLE_CYCLE_NS p, baseSec := s.rd F.GCL_OPER_BASE_SEC_SEC p
    baseNs := s.rd F.GCL_OPER_BASE_NS_NS p
    entries := (List.range (s.rd F.GCL_OPER_CTRL_LEN p)).map (fun k => s.val .GCL_OPER_ENTRY (1024 * p + k)) }

/-- The admin list of a port. -/
def State.adminList (s : State) (p : Nat) : GateList :=
  { en := s.on F.GCL_ADMIN_CTRL_EN p, cycle := s.rd F.GCL_ADMIN_CYCLE_CYCLE_NS p, baseSec := s.rd F.GCL_ADMIN_BASE_SEC_SEC p
    baseNs := s.rd F.GCL_ADMIN_BASE_NS_NS p
    entries := (List.range (s.rd F.GCL_ADMIN_CTRL_LEN p)).map (fun k => s.val .GCL_ADMIN_ENTRY (1024 * p + k)) }

/-- The list stages: every field in range, whether EN is 0 or 1; base NS is checked as well (R216; log 38). -/
def GateList.stages (g : GateList) : Bool :=
  decide (g.baseNs < 1000000000) &&
  decide (1 ≤ g.entries.length ∧ g.entries.length ≤ 1024) && decide (1000 ≤ g.cycle ∧ g.cycle ≤ 1000000000) &&
    g.entries.all (fun e => bits e 31 11 == 0 && decide (bits e 10 8 ≤ 2) && decide (1 ≤ bits e 63 32 ∧ bits e 63 32 ≤ 1000000000))

/-- Base and cycle in stamp ticks. -/
def GateList.base (g : GateList) : Nat := (g.baseSec * 1000000000 + g.baseNs) * 8
def GateList.period (g : GateList) : Nat := max 1 g.cycle * 8

/-- One cycle as gate states with their ends, in ticks from the cycle's start: cut at its end, the last entry held to it. -/
def cycleEnds (es : List Nat) (t period : Nat) : List (Nat × Nat) :=
  match es with
  | [] => []
  | [e] => if t < period then [(bits e 7 0, period)] else []
  | e :: r =>
    let u := t + bits e 63 32 * 8
    if period ≤ t then []
    else if period ≤ u then [(bits e 7 0, period)]
    else (bits e 7 0, u) :: cycleEnds r u period

/-- The phases of one cycle. -/
def GateList.phases (g : GateList) : List (Nat × Nat) := cycleEnds g.entries 0 g.period

/-- Entry and gate states in force at device time t (ticks); all gates open before the base and on a disabled list. -/
def GateList.at_ (g : GateList) (t : Nat) : Nat × Nat :=
  if !g.en || decide (t < g.base) then (0, 255)
  else
    let o := (t - g.base) % g.period
    let k := (g.phases.findIdx? (fun e => decide (o < e.2))).getD 0
    (k, (g.phases.getD k (255, 0)).1)

/-- How long a class stays open from offset o of a cycle, reading phases in order; none: to the end of what is read. -/
def openRun (phases : List (Nat × Nat)) (c o : Nat) : Option Nat :=
  match phases with
  | [] => none
  | (g, e) :: r => if e ≤ o then openRun r c o else if bit g c then openRun r c e else some o

/-- Ticks from t until the gate of a class closes; none when it never does. -/
def GateList.closesIn (g : GateList) (c t : Nat) : Option Nat :=
  if !g.en then none
  else
    let start := if t < g.base then 0 else (t - g.base) % g.period
    let lead := g.base - t
    let two := g.phases ++ g.phases.map (fun e => (e.1, e.2 + g.period))
    if g.phases.all (fun e => bit e.1 c) then none
    else (openRun two c start).map (fun e => e - start + lead)

/-- The longest open time of a class, none when its gate never closes. -/
def GateList.longest (g : GateList) (c : Nat) : Option Nat :=
  if !g.en || g.phases.all (fun e => bit e.1 c) then none
  else
    let starts := 0 :: g.phases.map (·.2)
    let two := g.phases ++ g.phases.map (fun e => (e.1, e.2 + g.period))
    some ((starts.map (fun o => ((openRun two c o).getD o) - o)).foldl max 0)

/-- Ticks until the gate of a class at a port closes, up to a pending change time (log 39). -/
def State.gateLeft (s : State) (p c : Nat) : Option Nat :=
  let t := s.time.ticks
  let a := (s.operList p).closesIn c t
  match s.gclPending.getD p none with
  | none => a
  | some _ =>
    let change := (s.rd F.GCL_CHANGE_TIME_AT p + W64 - t % W64) % W64
    some (match a with
      | some x => min x change
      | none => change)

/-- A frame's time on a port's wire in units of 1/100 tick: (LEN + 24) × 8 bits at the line rate. -/
def State.wireTime (s : State) (p len : Nat) : Nat := cdiv ((len + 24) * 8 * 8 * 100 * 1000) (s.lineRate p)

/-- a is at or before b, both short stamps. -/
def stampLe (a b : Nat) : Bool := decide ((b + W64 - a % W64) % W64 < 2 ^ 63)

/-! ### What may start (R210, R217, R218, R220) -/

/-- A held class: under PAUSE every class, under PFC its own (spec/03_ports.md R74, R75). -/
def State.classHeld (s : State) (port c : Nat) : Bool :=
  [8, c].any (fun k => match s.holds.getD (holdKey port k) none with
    | some h => decide (s.now * 100 < h.until_)
    | none => false)

/-- The port sends a class as preemptable (spec/03_ports.md R78). -/
def State.preemptable (s : State) (port c : Nat) : Bool :=
  s.on F.PRT_STATUS_PREEMPT_ACTIVE port && !bit (s.rd F.PRT_PREEMPT_EXPRESS port) c

/-- The operations of a list up to device time t, latest first: this cycle's, then the cycle before. -/
def GateList.opsUntil (g : GateList) (t : Nat) : List Nat :=
  if !g.en || decide (t < g.base) then []
  else
    let k := (g.at_ t).1
    let ops := (g.entries.take g.phases.length).map (fun e => bits e 10 8)
    (ops.take (k + 1)).reverse ++ (if t < g.base + g.period then [] else ops.reverse)

/-- A Set-And-Hold-MAC entry is in force (R218). -/
def State.holdMac (s : State) (port : Nat) : Bool :=
  (((s.operList port).opsUntil s.time.ticks).find? (· != 0)) == some 1

/-- The bytes of a frame that R217 counts: all of it, or its first fragment on a port that preempts (log 47). -/
def State.gateLen (s : State) (port c len : Nat) : Nat :=
  if s.preemptable port c then min len (64 * (1 + s.rd F.PRT_PREEMPT_ADD_FRAG port)) else len

/-- A frame of a class fits before the gate closes, no hold applies, and preemptable traffic is not held (R217). -/
def State.gateFits (s : State) (port c len : Nat) : Bool :=
  if 16 ≤ port then true
  else !s.classHeld port c && !(s.preemptable port c && s.holdMac port) &&
    (match s.gateLeft port c with
      | none => true
      | some t => decide (s.wireTime port (s.gateLen port c len) ≤ 100 * t))

/-- The frame can never start under the operational list (R217). -/
def State.gateTooLong (s : State) (port c len : Nat) : Bool :=
  if 16 ≤ port then false
  else match (s.operList port).longest c with
    | none => false
    | some t => decide (100 * t < s.wireTime port (s.gateLen port c len))

/-- A launch time that the queue honours and that is more than a lead ahead (R220). -/
def Packet.waits (p : Packet) (n : Node) (now lead : Nat) : Bool :=
  match p.launch with
  | some l => n.ltEn && !stampLe l ((now + lead) % W64)
  | none => false

/-- A frame at the MAC of a port may start: no hold applies, its gate is open for it, its launch time has come (R210, R217 to
R220). -/
def State.mayLeave (s : State) (port : Nat) (p : Packet) : Bool :=
  s.gateFits port (s.node 3 p.queue).tc p.data.length && !p.waits (s.node 3 p.queue) s.stamp 0

/-- The consumer has room: transmit cells of the port, or receive DMA descriptors of the host port
(spec/01_architecture.md R20). -/
def State.roomAt (s : State) (port : Nat) : Bool :=
  if port < 16 then
    decide ((s.pkts.filter (fun e => e.2.stage == .txCell port)).foldl (fun a e => a + cdiv e.2.data.length 64) 0 < 64)
  else
    decide ((s.pkts.filter (fun e => match e.2.stage with
      | .rxDma r => s.hostPort (s.ring r).fn == (port - 16) % 2
      | _ => false)).length < 4096)

/-- The head frame of a queue that is a candidate now (R210); a launch-time frame for a network port becomes one early enough to
reach its MAC (R220; the lead is a free value, log 48). -/
def State.headReady (s : State) (q : Nat) : Option (Nat × Packet) :=
  let n := s.node 3 q
  let port := s.queuePort q
  match n.frames with
  | [] => none
  | h :: _ => match s.pkt h with
    | none => none
    | some p =>
      if s.eligible 3 q && !s.isFenced (unitObject 5) q && s.gateFits port n.tc p.data.length && !p.waits n s.stamp (if port < 16 then Config.launchLead else 0) then some (h, p)
      else none

end Sys2Proof.Machine
end

