-- ==== Sys2Proof/Machine/Frer.lean ====
section
/-! DEFINITION. Frame replication and elimination: members, sequence contexts, the receive decision, the mismatch log
(spec/10_redundancy.md R256 to R264). -/

namespace Sys2Proof.Machine

/-! ### Entries -/

/-- Fields of a member entry's 16 bytes. -/
def mbMac (e : Bytes) : Nat := beAt e 0 6
def mbVid (e : Bytes) : Nat := bits (leAt e 6 2) 11 0
def mbType (e : Bytes) : Nat := bits (leAt e 6 2) 13 12
def mbTx (e : Bytes) : Bool := bit (leAt e 6 2) 14
def mbValid (e : Bytes) : Bool := bit (leAt e 6 2) 15
def mbPort (e : Bytes) : Nat := bits (leAt e 8 4) 3 0
def mbCtx (e : Bytes) : Nat := bits (leAt e 8 4) 26 16

/-- Fields of a sequence context. -/
def FrerCtx.word (c : FrerCtx) (o : Nat) : Nat := leAt c.cfg o 4
def FrerCtx.kind (c : FrerCtx) : Nat := bits (c.word 0) 1 0
def FrerCtx.isMatch (c : FrerCtx) : Bool := bit (c.word 0) 2
def FrerCtx.takeNoSeq (c : FrerCtx) : Bool := bit (c.word 0) 3
def FrerCtx.strip (c : FrerCtx) : Bool := bit (c.word 0) 4
def FrerCtx.digestCmp (c : FrerCtx) : Bool := bit (c.word 0) 5
def FrerCtx.mirror (c : FrerCtx) : Bool := bit (c.word 0) 6
def FrerCtx.history (c : FrerCtx) : Nat := bits (c.word 0) 27 16
def FrerCtx.resetMs (c : FrerCtx) : Nat := bits (c.word 4) 15 0
def FrerCtx.portA (c : FrerCtx) : Nat := bits (c.word 4) 19 16
def FrerCtx.portB (c : FrerCtx) : Nat := bits (c.word 4) 23 20
def FrerCtx.queueB (c : FrerCtx) : Nat := bits (c.word 8) 15 0

/-- A context by its number. -/
def State.ctx (s : State) (c : Nat) : FrerCtx := s.frer.get c

/-- Changes a context. -/
def State.modCtx (s : State) (c : Nat) (g : FrerCtx → FrerCtx) : State := { s with frer := s.frer.mod c g }

/-- The member entry names a frame: PRP by source address, NULL and SOURCE by address and outermost VLAN ID. -/
def mbNames (e f : Bytes) (ty : Nat) : Bool :=
  mbType e == ty && (if ty = 1 then dstMac f == mbMac e else srcMac f == mbMac e) && (ty == 3 || outerVid f == mbVid e)

/-- The member that matches a frame at a port: PRP entries first, then NULL, then SOURCE (R256). -/
def State.memberFor (s : State) (tx : Bool) (port : Nat) (f : Bytes) : Option Nat :=
  let named (ty : Nat) : Option Nat :=
    (s.members.find? (fun e => mbValid e.2 && mbTx e.2 == tx && mbPort e.2 == port && mbNames e.2 f ty)).map (·.1)
  ((named 3).orElse (fun _ => named 1)).orElse (fun _ => named 2)

/-- A port is a LAN of some PRP context with members. -/
def State.prpPort (s : State) (port : Nat) : Bool :=
  s.frer.any (fun c => c.2.kind == 3 && (c.2.portA == port || c.2.portB == port))

/-! ### Tags and trailers -/

/-- Place and number of an R-TAG, behind up to two VLAN tags. -/
def rTag (f : Bytes) : Option (Nat × Nat) :=
  let o := (vlanTags f 2 12).1
  if f.length ≥ o + 6 ∧ beAt f o 2 = 0xF1C1 then some (o, beAt f (o + 4) 2) else none

/-- LanId and number of a PRP trailer (R263). -/
def prpTrailer (f : Bytes) : Option (Nat × Nat) :=
  let o := f.length - 6
  if 18 ≤ f.length ∧ beAt f (o + 4) 2 = 0x88FB ∧ beAt f (o + 2) 2 % 4096 = f.length - 12 then some (beAt f (o + 2) 2 / 4096, beAt f o 2)
  else none

/-- The sequence number a context's frame carries. -/
def FrerCtx.numberOf (c : FrerCtx) (f : Bytes) : Option Nat := if c.kind = 3 then (prpTrailer f).map (·.2) else (rTag f).map (·.2)

/-- The frame without its tag or trailer. -/
def FrerCtx.bare (c : FrerCtx) (f : Bytes) : Bytes :=
  if c.kind = 3 then (if (prpTrailer f).isSome then f.take (f.length - 6) else f)
  else match rTag f with
    | some (o, _) => f.take o ++ f.drop (o + 6)
    | none => f

/-- A PRP supervision frame (log 42). -/
def prpSupervision (f : Bytes) : Bool := beAt f (vlanTags f 2 12).1 2 == 0x88FB

/-- The R-TAG of a copy as its MAC inserts it (R258). -/
def insertRTag (f : Bytes) (seq : Nat) : Bytes :=
  let o := (vlanTags f 2 12).1
  f.take o ++ beBytes 2 0xF1C1 ++ beBytes 2 0 ++ beBytes 2 seq ++ f.drop o

/-! ### Recovery (R260) -/

/-- Counts in a context's counter. -/
def State.ctxCount (s : State) (c k n : Nat) : State := s.countBy .FRER_CTX_CTR c k n

/-- What the recovery procedure decides. -/
inductive Recovery
  | pass | outOfOrder | discarded | rogue
deriving DecidableEq, Repr, Inhabited

/-- Unset bits, among those that stand for numbers since the reset, that leave the history when it shifts by d. -/
def lostBits (hist span history d : Nat) : Nat :=
  ((List.range span).filter (fun k => decide (history ≤ k + d) && !bit hist k)).length

/-- The decision for sequence number s, the context after it, and how many bits were lost. -/
def FrerCtx.recover (c : FrerCtx) (s : Nat) : Recovery × FrerCtx × Nat :=
  if c.fresh_ then (.pass, { c with fresh_ := false, rcv := s, hist := 1, span := 1 }, 0)
  else if c.isMatch then (if s ≠ c.rcv then (.pass, { c with rcv := s }, 0) else (.discarded, c, 0))
  else
    let up := (s + 65536 - c.rcv) % 65536
    let h := c.history
    if up < 32768 then
      if h ≤ up then (.rogue, c, 0)
      else if up = 0 then (if bit c.hist 0 then (.discarded, c, 0) else (.outOfOrder, { c with hist := c.hist + 1 }, 0))
      else (.pass, { c with rcv := s, hist := c.hist * 2 ^ up % 2 ^ h + 1, span := min h (c.span + up) }, lostBits c.hist c.span h up)
    else
      let k := 65536 - up
      if h ≤ k then (.rogue, c, 0)
      else if bit c.hist k then (.discarded, c, 0)
      else (.outOfOrder, { c with hist := c.hist + 2 ^ k, span := max c.span (k + 1) }, 0)

/-! ### The mismatch log (R262) -/

/-- The head entry as its registers show it. -/
def State.mmSync (s : State) : State :=
  let ws := match s.mmLog with
    | [] => List.replicate 8 0
    | e :: _ => [e.ctx + 65536 * e.seq, e.portPassed + 16 * e.portDisc + 2 ^ 31, e.digestPassed, e.digestDisc,
        e.when_ % 2 ^ 32, e.when_ / 2 ^ 32, 0, 0]
  s.each ws.zipIdx (fun w t => t.put .FRER_MM_HEAD w.2 w.1)

/-- Compares a discarded duplicate with the copy that passed. -/
def State.compareDigest (s : State) (c seq digest port stamp : Nat) : State :=
  match (s.ctx c).digests.find? (fun d => d.1 == seq) with
  | none => s.count .FRER_CTR 0 C.FRER_DIGEST_SKIPPED
  | some d =>
    if d.2.1 = digest then s
    else if s.mmLog.length < 16 then
      let e : Mismatch := { ctx := c, seq := seq, portPassed := d.2.2, portDisc := port, digestPassed := d.2.1, digestDisc := digest, when_ := stamp }
      ({ s with mmLog := s.mmLog ++ [e] }).mmSync.raise Ev.FRER_DIGEST_MISMATCH
    else ((s.count .FRER_CTR 0 C.FRER_MM_OVERFLOW).raise Ev.FRER_DIGEST_MISMATCH).raise Ev.FRER_MM_OVERFLOW

/-- A write of FRER_MM_POP: POP removes the head entry. -/
def State.mmPop (s : State) (v : Nat) : State := if bit v 31 then ({ s with mmLog := s.mmLog.drop 1 }).mmSync else s

/-- A manager write of FRER_MM_POP. -/
def execFrerMmPop (fn v : Nat) (s : State) : Step := .next (s.asManager fn (fun s => s.mmPop v))

/-! ### The receive decision -/

/-- A frame passes: counted, its time kept, stripped if asked, and on to the parse request; one whose cell check fails as it is
stripped is dropped (spec/07_offloads.md R202; spec/17_errors_and_service.md R393). -/
def State.frerPass (s : State) (h c : Nat) (p : Packet) (strip : Bool) : State :=
  let s := (s.ctxCount c C.FRER_CTX_PASSED 1).modCtx c (fun x => { x with passedAt := some s.now })
  if strip && p.badCell then (s.cellCheck (unitPipe p.pipe)).endPkt h false 6 0 else
  s.setPkt h { p with stage := .received, since := s.now, data := if strip then (s.ctx c).bare p.data else p.data }

/-- A frame without a tag or trailer. -/
def State.frerTagless (s : State) (h c : Nat) (p : Packet) : State :=
  let s := s.ctxCount c C.FRER_CTX_TAGLESS 1
  if (s.ctx c).takeNoSeq then s.frerPass h c p false else (s.raiseMs Ev.FRER_TAGLESS_DROP).freePkt h

/-- A frame with a sequence number. -/
def State.frerSeq (s : State) (h c seq : Nat) (p : Packet) : State :=
  let x := s.ctx c
  let digest := (crc32c (x.bare p.data)).toNat
  let r := x.recover seq
  let s := s.when x.fresh_ (fun t => t.ctxCount c C.FRER_CTX_RESETS 1)
  let s := s.modCtx c (fun _ => r.2.1)
  let s := s.when (r.2.2 != 0) (fun t => (t.ctxCount c C.FRER_CTX_LOST r.2.2).raiseMs Ev.FRER_LOST)
  match r.1 with
  | .rogue => ((s.ctxCount c C.FRER_CTX_ROGUE 1).raiseMs Ev.FRER_ROGUE).freePkt h
  | .discarded =>
    let s := s.ctxCount c C.FRER_CTX_DISCARDED 1
    (s.when x.digestCmp (fun t => t.compareDigest c seq digest p.port (shortOf p.stamp))).freePkt h
  | o =>
    let s := s.when (o == .outOfOrder) (fun t => t.ctxCount c C.FRER_CTX_OUT_OF_ORDER 1)
    let s := s.when x.digestCmp (fun t => t.modCtx c (fun y =>
      { y with digests := (y.digests.filter (fun d => d.1 != seq) ++ [(seq, digest, p.port)]).filter (fun d =>
          decide ((y.rcv + 65536 - d.1) % 65536 < 64)) }))
    s.frerPass h c p x.strip

/-- A member's frame is counted. -/
def State.memberSeen (s : State) (m stamp : Nat) : State := (s.add .FRER_RX_FRAMES m 1).put .FRER_LAST_SEEN m stamp

/-- The context of the member entry that named a waiting frame. -/
def Packet.memberCtx (p : Packet) : Nat := (p.member.map (fun m => mbCtx m.2)).getD 2048

/-- The FRER unit decides one waiting frame of a member; one whose context is unused passes as it is (R260 to R264; log 116). -/
def State.frerDecide (s : State) (h : Nat) (p : Packet) : State :=
  let c := p.memberCtx
  let x := s.ctx c
  let s := s.memberSeen ((p.member.map (·.1)).getD 0) (shortOf p.stamp)
  if x.kind = 0 ∨ (x.kind = 3 ∧ prpSupervision p.data) then s.setPkt h { p with stage := .received, since := s.now }
  else if s.isFenced (unitObject 6) c then s.setPkt h { p with stage := .received, since := s.now }
  else
    let wrong := x.kind == 3 && (match prpTrailer p.data with
      | some (lan, _) => !(lan == 0xA && p.port == x.portA) && !(lan == 0xB && p.port == x.portB)
      | none => false)
    let s := s.when wrong (fun t => (t.count .FRER_CTR 0 C.FRER_WRONG_LAN).raiseMs Ev.FRER_WRONG_LAN)
    match x.numberOf p.data with
    | none => s.frerTagless h c p
    | some seq => s.frerSeq h c seq p

/-- The frames of a waiting frame's context that reached the decision with it from lower-numbered ports, in port order (R261). -/
def State.frerBefore (s : State) (p : Packet) : SMap Packet :=
  (List.range p.port).flatMap (fun port => s.pkts.filter (fun e =>
    e.2.stage == .frer && e.2.port == port && e.2.since == p.since && e.2.memberCtx == p.memberCtx))

/-- The FRER unit decides a received frame of a member, and before it those that came with it from lower-numbered ports. -/
def execFrerRxDecision (h : Nat) (s : State) : Step :=
  match s.pkt h with
  | none => .next s
  | some p => .next (if p.stage ≠ .frer then s else (s.each (s.frerBefore p) (fun e t => t.frerDecide e.1 e.2)).frerDecide h p)

/-- A received frame is identified at the MAC: a member's waits for the decision with the entry that named it, any other goes to
Grinder. -/
def State.frerIdentify (s : State) (port : Nat) (f : Bytes) : State × Stage × Option (Nat × Bytes) :=
  match s.memberFor false port f with
  | some m => (s, .frer, some (m, s.members.get m))
  | none => (s.when (s.prpPort port) (fun t => (t.count .FRER_CTR 0 C.FRER_UNKNOWN_NODE).raiseMs Ev.FRER_UNKNOWN_NODE), .received, none)

/-- A recovery reset. -/
def FrerCtx.reset (c : FrerCtx) : FrerCtx := { c with fresh_ := true, rcv := 0, hist := 0, span := 0, passedAt := none, digests := [] }

/-- No frame of a context has passed for RESET_MS. -/
def execFrerRecoveryTimeout (c : Nat) (s : State) : Step :=
  let x := s.ctx c
  match x.passedAt with
  | none => .next s
  | some t => .next (if (x.kind = 2 ∨ x.kind = 3) ∧ t + x.resetMs * 1000000 ≤ s.now then
      (s.modCtx c FrerCtx.reset).raise Ev.FRER_RESET
    else s)

/-! ### Generation (R257) -/

/-- The GEN context of the transmit member that matches a frame at a port. -/
def State.genFor (s : State) (port : Nat) (f : Bytes) : Option Nat :=
  (s.memberFor true port f).bind (fun m =>
    let c := mbCtx (s.members.get m)
    if (s.ctx c).kind = 1 ∧ !s.isFenced (unitObject 6) c then some c else none)

/-- The next sequence number is taken. -/
def State.takeSeq (s : State) (c : Nat) : State × Nat :=
  let n := (s.ctx c).gen
  ((s.modCtx c (fun x => { x with gen := (n + 1) % 65536 })).ctxCount c C.FRER_CTX_GENERATED 1, n)

end Sys2Proof.Machine
end

