-- ==== Sys2Proof/Machine/Release.lean ====
section
/-! DEFINITION. Enqueue by verdict and the release unit: queue admission, replication, fairness groups, holding and
release (spec/08_traffic_manager.md R206 to R213, spec/09_release_and_evidence.md R228 to R241, spec/10_redundancy.md
R257, R269). -/

namespace Sys2Proof.Machine

/-! ### Queues (R206, R213, R221) -/

/-- Counts a frame dropped by half h, with its event. -/
def State.tmDrop (s : State) (half k : Nat) (ev : Nat → Nat) (h status : Nat) : State :=
  ((s.count .TM_CTR half k).raiseMs (ev half)).dropPkt h status

/-- The depth a colour may fill a queue to. -/
def Node.limit (n : Node) (colour : Nat) : Nat :=
  let full := n.maxKib * 1024
  if colour = 0 then full else if colour = 1 then full * 3 / 4 else full / 2

/-- A frame is needed whole, or waits: it is not cut through (spec/03_ports.md R71). -/
def State.demandWhole (s : State) (h : Nat) : State :=
  match s.pkt h with
  | none => s
  | some p => s.setPkt h { p with whole := true }

/-- A frame joins a queue, with the high-water mark and the alarm. -/
def State.joinQueue (s : State) (h q : Nat) (p : Packet) : State :=
  let s := (s.setPkt h { p with stage := .queued q, queue := q, enqueuedAt := s.time.ticks }).when p.fromWire (fun t => t.fcCheck p.port)
  let s := (s.modNode 3 q (fun n => { n with frames := n.frames ++ [h] })).count .TM_CTR (q / 32768) C.TM_ENQUEUED
  let d := s.depth q
  let s := s.modNode 3 q (fun n => if n.maxDepth < d then { n with maxDepth := d, depthAt := s.stamp } else n)
  let n := s.node 3 q
  -- a frame that cannot leave at once is stored, and no cut-through (spec/03_ports.md R71)
  let s := s.when ((s.headReady q).map (·.1) != some h || !(s.path 3 q).all (fun e => s.eligible e.1 e.2)) (fun t => t.demandWhole h)
  s.when (decide (0 < n.alarmKib ∧ n.alarmKib * 1024 ≤ d)) (fun t => t.raiseMs (Ev.TM_DEPTH_ALARM (q / 32768)))

/-- Admission of a frame to a queue (R213), and the drop of a launch time too far ahead (R221). -/
def State.enqAdmit (s : State) (h q : Nat) : State :=
  match s.pkt h with
  | none => s
  | some p =>
    let n := s.node 3 q
    let half := q / 32768
    let far := match p.launch with
      | some l => n.ltEn && !stampLe l ((s.stamp + 8000000000) % W64)
      | none => false
    if far then s.tmDrop half C.TM_LAUNCH_FUTURE Ev.TM_LAUNCH_FUTURE h 0x0A
    else if n.limit p.colour < s.depth q + p.data.length then
      let s := s.modNode 3 q (fun n => { n with dropped := (n.dropped + 1) % 2 ^ 32 })
      if p.colour = 0 then s.tmDrop half C.TM_TAIL_DROP Ev.TM_TAIL_DROP h 7
      else s.tmDrop half C.TM_COLOUR_DROP Ev.TM_COLOUR_DROP h 7
    else s.joinQueue h q p

/-- A second copy of a packet's frame, a packet of its own that shares the cells. -/
def State.copyPkt (s : State) (h : Nat) (p : Packet) : State × Nat :=
  let n := s.nextPkt
  let s := match p.job with
    | none => s
    | some j => match s.job j with
      | none => s
      | some b => s.setJob j { b with segs := b.segs.mod p.seg (fun g => { g with copies := g.copies + 1 }) }
  (s.addPkt { p with cells := if p.cells = 0 then h else p.cells, wantStamp := false }, n)

/-- The frame is work of a generation that an FLR has ended (spec/14_tenants.md R346). -/
def State.stalePkt (s : State) (p : Packet) : Bool := !p.fromWire && p.gen != s.rd F.HIF_FN_STATE_GEN p.func

/-- A frame is discarded by half h and counted in FLUSHED. -/
def State.flushFrame (s : State) (half h : Nat) : State := (s.count .TM_CTR half C.TM_FLUSHED).dropPkt h 0x0D

/-- One copy enters a queue: disabled and fenced queues and ports drop it, else admission decides (R206, R213, R214). -/
def State.enterOne (s : State) (h q : Nat) : State :=
  let port := s.queuePort q
  let half := q / 32768
  if !(s.node 3 q).en || s.isFenced (unitObject 5) q then (s.count .TM_CTR half C.TM_DISABLED_DROP).dropPkt h 7
  else if s.isFenced (unitSlice (q / 16384)) 0 then (s.discard (unitSlice (q / 16384)) 1).dropPkt h 7
  else if port < 16 ∧ s.isFenced (unitPort port) 0 then s.tmDrop half C.TM_FENCED_PORT_DROP Ev.TM_FENCED_PORT_DROP h 0x0C
  else s.enqAdmit h q

/-- A frame enters the queue its verdict chose; a transmit member's frame takes a sequence number, and a second copy enters its
context's QUEUE_B, each copy on its own (spec/10_redundancy.md R257). -/
def State.enterQueue (s : State) (h q : Nat) : State :=
  match s.pkt h with
  | none => s
  | some p =>
    if s.stalePkt p then s.flushFrame (q / 32768) h
    else match (if s.queuePort q < 16 then s.genFor (s.queuePort q) p.data else none) with
      | none => s.enterOne h q
      | some c =>
        let r := s.takeSeq c
        let p := { p with rtag := some r.2 }
        let s := r.1.setPkt h p
        let k := s.copyPkt h { p with stampAll := p.stampAll || p.wantStamp }
        (k.1.enterOne h q).enterOne k.2 (s.ctx c).queueB

/-! ### Fairness groups (R229) -/

/-- Fields of source and destination entries. -/
def srcType (e : Nat) : Nat := bits e 3 0
def srcPort (e : Nat) : Nat := bits e 7 4
def srcFirst (e : Nat) : Nat := bits e 24 8
def srcCount (e : Nat) : Nat := bits e 41 25 + 1
def srcRate (e : Nat) : Nat := bits e 62 42
def dstTrailer (e : Nat) : Bool := bit e 42

/-- The groups a packet's epoch bit selects (spec/01_architecture.md R32). -/
def State.groupsFor (s : State) (epoch : Nat) : SMap Group :=
  if epoch = s.current then s.groupsOper else s.groupsOld.getD s.groupsOper

/-- A source entry of a type names a packet. -/
def srcNames (e ty : Nat) (p : Packet) : Bool :=
  srcType e == ty && (if ty = 3 then !p.fromWire && decide (srcFirst e ≤ p.ring ∧ p.ring < srcFirst e + srcCount e)
    else p.fromWire && srcPort e == p.port && (ty == 1 || bits e 19 8 == outerVid p.data))

/-- The group and the place of the source entry of a packet: a PORT_VLAN entry before a PORT entry. -/
def State.sourceGroup (s : State) (p : Packet) : Option (Nat × Nat) :=
  let gs := s.groupsFor p.epoch
  let find (ty : Nat) : Option (Nat × Nat) := gs.findSome? (fun g =>
    if g.2.en then (g.2.src.findIdx? (fun e => srcNames e ty p)).map (fun k => (g.1, k)) else none)
  ((find 2).orElse (fun _ => find 1)).orElse (fun _ => find 3)

/-- The destination entry of a group that a copy's queue or ring matches; MANAGER verdicts are never held. -/
def State.destEntry (s : State) (g : Group) (p : Packet) : Option Nat :=
  if p.verdict.action = 5 then none
  else g.dst.find? (fun e =>
    if 131072 ≤ p.dstRing then srcType e == 2 && decide (srcFirst e ≤ ringNo p.dstRing ∧ ringNo p.dstRing < srcFirst e + srcCount e)
    else srcType e == 1 && srcPort e == s.queuePort p.queue)

/-- An enabled group has the frame's source: the frame goes through the release unit. -/
def State.hasSource (s : State) (p : Packet) : Bool := (s.sourceGroup p).isSome

/-! ### Enqueue by verdict (R206, R208) -/

/-- The manager's default receive ring: its lowest-numbered open one that is no management ring (log 43). -/
def State.managerRing (s : State) : Option Nat :=
  (s.rings.find? (fun e => e.2.state != 0 && e.2.fn == s.manager && e.2.kind == 2 && !e.2.mgmt)).map (·.1)

/-- A frame for a scheduler queue or a ring: to the release unit when its source is in a group, else into the queue. -/
def State.toQueue (s : State) (h q ring : Nat) : State :=
  match s.pkt h with
  | none => s
  | some p =>
    let p := { p with queue := q, dstRing := ring, stage := .toRelease }
    let s := s.setPkt h p
    if s.hasSource p then s else s.enterQueue h q

/-- A HOST verdict's ring, open and owned by the function it names (spec/05_brew_engines.md R125). -/
def State.hostRing (s : State) (ring fn : Nat) : Option Nat :=
  let r := s.ring (rxKey ring)
  if r.state ≠ 0 ∧ r.fn = fn ∧ r.kind = 2 then some (rxKey ring) else none

/-- A member of a replication group as queue and ring, none when its ring is not open or its port is skipped. -/
def State.memberTarget (s : State) (p : Packet) (m : Nat) : Option (Nat × Nat) :=
  if bit m 17 then (s.hostRing (bits m 16 0) (bits m 30 19)).map (fun k => ((s.ring k).schedQ, k))
  else
    let q := bits m 16 0
    if bit m 18 && p.fromWire && s.queuePort q == p.port then none else some (q, 0)

/-- The copies of a frame enter one after the other; the first is the frame itself. -/
def State.enterCopies (s : State) (h : Nat) (p : Packet) (targets : List (Nat × Nat)) : State :=
  match targets with
  | [] => s
  | (q, r) :: rest =>
    let made := rest.foldl (fun (a : State × List (Nat × Nat × Nat)) (t : Nat × Nat) =>
      let k := a.1.copyPkt h p
      (k.1, a.2 ++ [(k.2, t.1, t.2)])) (s, [])
    (made.1.toQueue h q r).each made.2 (fun e u => u.toQueue e.1 e.2.1 e.2.2)

/-- A MCAST verdict. -/
def State.multicast (s : State) (h : Nat) (p : Packet) (group : Nat) : State :=
  let members := s.mcast.get group
  let half := p.pipe / 2
  if members.isEmpty then s.tmDrop half C.TM_MCAST_EMPTY Ev.TM_MCAST_EMPTY h 7
  else
    let targets := members.filterMap (fun m => s.memberTarget p m)
    if targets.isEmpty then s.dropPkt h 7
    else (targets.foldl (fun u t => u.count .TM_CTR (t.1 / 32768) C.TM_MCAST_COPIES) s).enterCopies h p targets

/-- A PORT verdict's queue: the ring's own when it lies under the port, else the port's default class queue. -/
def State.portQueue (s : State) (p : Packet) (port : Nat) : Nat :=
  let own := (s.ring (txKey p.ring)).schedQ
  if !p.fromWire && p.job.isSome && s.queuePort own == port then own else defaultQueue port p.verdict.tc

/-- A frame that names no open ring of its function is dropped and counted at the host interface (log 44). -/
def State.noRing (s : State) (h : Nat) : State := (s.discard 0xF004 1).dropPkt h 7

/-- The traffic manager enqueues a frame by its verdict. -/
def execTmEnqueue (h : Nat) (s : State) : Step :=
  match s.pkt h with
  | none => .next s
  | some p =>
    if p.stage ≠ .toTm ∨ s.coreStopped then .next s
    else
      let s := s.retire (.enqueue p.pipe)
      let w := p.verdict.word2
      match p.verdict.action with
      | 1 =>
        let port := bits w 3 0
        let q := s.portQueue p port
        let mismatch := !p.fromWire && p.job.isSome && !(s.queuePort (s.ring (txKey p.ring)).schedQ == port)
        .next ((s.when mismatch (fun t => (t.count .TM_CTR (q / 32768) C.TM_MAP_MISMATCH).raiseMs (Ev.TM_MAP_MISMATCH (q / 32768)))).toQueue h q 0)
      | 2 => match s.hostRing (bits w 16 0) (bits w 28 17) with
        | some k => .next (s.toQueue h (s.ring k).schedQ k)
        | none => .next (s.noRing h)
      | 3 => .next (s.toQueue h (bits w 15 0) 0)
      | 4 => .next (s.multicast h p (bits w 15 0))
      | _ => match s.managerRing with
        | some k => .next (s.toQueue h (s.ring k).schedQ k)
        | none => .next (s.noRing h)

/-! ### Hold capacity (R238 to R240) -/

/-- The declared rate of a source entry, the port's line rate for 0. -/
def State.sourceRate (s : State) (e : Nat) : Nat :=
  if srcRate e ≠ 0 then srcRate e else s.lineRate (srcPort e)

/-- HOLD_B of a group with a delay. -/
def State.holdBytes (s : State) (g : Group) (delay : Nat) : Nat :=
  g.src.foldl (fun a e => a + cdiv (s.sourceRate e * (delay + 2000) * 18) 100000) 0

/-- The capacity REL_CFG gives, less the shares of fenced Carafe banks and pseudo-channels (spec/16_memory.md R385,
spec/17_errors_and_service.md R389). -/
def State.capacityOf (s : State) (spill : Bool) (mib : Nat) : Nat :=
  let banks := ((List.range 4).filter (fun b => !s.isFenced (unitBank b) 0)).length
  let pcs := ((List.range 64).filter (fun p => !s.isFenced (unitHbm p) 0)).length
  mib * 1048576 * banks / 4 + (if spill then 67108864 * pcs else 0)

/-- Frames held: handle and packet. -/
def State.heldPkts (s : State) : SMap Packet := s.pkts.filter (fun e => match e.2.stage with
  | .held _ => true
  | _ => false)

/-- Cell bytes of some packets. -/
def cellSum (ps : SMap Packet) : Nat := ps.foldl (fun a e => a + cellBytes e.2.data.length) 0

/-- REL_HELD, REL_SPILLED, and a group's status registers. -/
def State.relSync (s : State) (g : Nat) : State :=
  let held := s.heldPkts
  let mine := held.filter (fun e => e.2.stage == .held g)
  let spilled := cellSum (held.filter (fun e => e.2.spilled))
  let before := s.val .REL_SPILLED 0
  let s := (s.put .REL_HELD 0 (cellSum held)).put .REL_SPILLED 0 spilled
  let s := s.when (decide (before ≤ 3221225472 ∧ 3221225472 < spilled)) (fun t => t.raise Ev.REL_SPILL_HIGH)
  (s.wr F.REL_GROUP_STATUS_HELD_KIB g (cellSum mine / 1024)).wr F.REL_GROUP_STATUS_DRAINING g
    (b2n (s.groupsOld.isSome && mine.any (fun e => e.2.epoch != s.current)))

/-- Bytes of Carafe's reserve, less the shares of fenced banks. -/
def State.reserve (s : State) : Nat := s.capacityOf false (s.rd F.REL_CFG_CARAFE_MIB 0)

/-- While Carafe's reserve is exceeded, the frames with the latest release times spill to HBM. -/
def State.spill (s : State) : Nat → State
  | 0 => s
  | n + 1 =>
    let inCarafe := s.heldPkts.filter (fun e => !e.2.spilled)
    if s.on F.REL_CFG_SPILL_EN 0 ∧ s.reserve < cellSum inCarafe then
      let last := inCarafe.foldl (fun (a : Nat × Packet) e => if stampLe a.2.release e.2.release then e else a) (inCarafe.headD (0, {}))
      (s.setPkt last.1 { last.2 with spilled := true }).spill n
    else s

/-! ### The release unit (R232 to R237) -/

/-- The bucket of a source entry is charged; none means the frame exceeds it (R234). -/
def State.police (s : State) (g k e len : Nat) : Option State :=
  let line := s.lineRate (srcPort e)
  let rate := srcRate e
  if rate = 0 ∨ (srcType e ≠ 3 ∧ line ≤ rate) then some s
  else
    let full := max 16000 (rate * 250) * 8000
    let b := (s.buckets.getD (1024 * g + k) none).getD { level := full, at_ := s.now }
    let level := min full (b.level + rate * (s.now - b.at_))
    let cost := (len + 24) * 8000
    if level < cost then none
    else some { s with buckets := s.buckets.setD (1024 * g + k) (some { level := level - cost, at_ := s.now }) none }

/-- The release time of a frame, and whether R236 raised it. -/
def State.releaseTime (s : State) (p : Packet) (g : Nat) : Nat × Bool :=
  let stamp := p.key / W64
  let d := ((s.groupsFor p.epoch).get g).delay
  let t := (stamp + 8 * d) % W64
  let old := match s.groupsOld with
    | some m => m.get g
    | none => {}
  if p.epoch = s.current ∧ s.on F.GLB_EPOCH_STATUS_DRAINING 0 ∧ old.en then
    let u := (s.val .GLB_EPOCH_COMMIT_TIME 0 + 8 * old.delay) % W64
    if stampLe u t then (t, false) else (u, true)
  else (t, false)

/-- The trailer of R237. -/
def Packet.trailer (p : Packet) (g : Nat) : Bytes :=
  beBytes 16 p.key ++ beBytes 4 (2 ^ 31 * b2n p.late + 2 ^ 30 * b2n p.epochHeld + 2 ^ 24 * g)

/-- A frame leaves the release unit for its queue. One whose cell check fails as the trailer is appended ends as at a packet edit
(spec/17_errors_and_service.md R393; log 223). -/
def State.releaseNow (s : State) (h g : Nat) : State :=
  match s.pkt h with
  | none => s
  | some p =>
    let port := s.queuePort p.queue
    let dead := (port < 16 && s.isFenced (unitPort port) 0) ||
      (decide (131072 ≤ p.dstRing) && ((s.ring p.dstRing).state == 0 || s.rd F.HIF_FN_STATE_GEN (s.ring p.dstRing).fn != p.dstGen))
    if dead then (((s.count .REL_CTR 0 C.REL_DEST_DROP).raiseMs Ev.REL_DEST_DROP).dropPkt h (if port < 16 then 0x0C else 7)).relSync g
    else
      let trailer := match s.destEntry ((s.groupsFor p.epoch).get g) p with
        | some e => srcType e == 1 && dstTrailer e
        | none => false
      if trailer && p.badCell then ((s.cellCheck (unitPipe p.pipe)).dropPkt h 6).relSync g else
      let s := s.setPkt h { p with stage := .toRelease, spilled := false, data := if trailer then p.data ++ p.trailer g else p.data }
      let s := { s with lastKey := s.lastKey.setD g (some p.key) none }
      ((s.count .REL_CTR 0 C.REL_RELEASED).relSync g).enterQueue h p.queue

/-- A frame of group g reaches the release unit. -/
def State.holdFrame (s : State) (h g : Nat) (p : Packet) : State :=
  if p.badFcs then s.freePkt h else
  let r := s.releaseTime p g
  let floor := match s.mir.floors.getD g none with
    | some f => stampLe (p.key / W64) f
    | none => false
  let p := { p with group := some g, release := r.1, dstGen := s.rd F.HIF_FN_STATE_GEN (s.ring p.dstRing).fn }
  if floor || stampLe r.1 s.stamp then
    let s := s.setPkt h { p with late := true, group := none }
    ((s.count .REL_CTR 0 C.REL_LATE).raiseMs Ev.REL_LATE).releaseNow h g
  else if s.val .REL_CAPACITY 0 < s.val .REL_HELD 0 + cellBytes p.data.length then
    ((s.count .REL_CTR 0 C.REL_HOLD_FULL_DROP).raiseMs Ev.REL_HOLD_FULL).dropPkt h 7
  else
    let s := s.when r.2 (fun t => (t.count .REL_CTR 0 C.REL_EPOCH_HELD).raiseMs Ev.REL_EPOCH_HELD)
    let s := (s.setPkt h { p with stage := .held g, epochHeld := r.2 }).when p.fromWire (fun t => t.fcCheck p.port)
    (s.spill s.pkts.length).relSync g

/-- A frame whose source belongs to a group enters the release unit (R229, R232, R234). -/
def execRelEnqueue (h : Nat) (s : State) : Step :=
  match s.pkt h with
  | none => .next s
  | some p =>
    if p.stage ≠ .toRelease then .next s
    else match s.sourceGroup p with
      | none => .next (s.enterQueue h p.queue)
      | some (g, k) =>
        let grp := (s.groupsFor p.epoch).get g
        match s.destEntry grp p with
        | none => .next ((s.count .REL_CTR 0 C.REL_PASSED).enterQueue h p.queue)
        | some _ => match s.police g k (grp.src.getD k 0) p.data.length with
          | none => .next (((s.count .REL_CTR 0 C.REL_OVER_RATE_DROP).raiseMs Ev.REL_OVER_RATE).dropPkt h 7)
          | some u => .next (u.holdFrame h g p)

/-- The head of a group: its held frame with the smallest key. -/
def State.groupHead (s : State) (g : Nat) : Option (Nat × Packet) :=
  (s.pkts.filter (fun e => e.2.stage == .held g)).foldl (fun (a : Option (Nat × Packet)) e => match a with
    | none => some e
    | some x => if e.2.key < x.2.key then some e else a) none

/-- The due head with the smallest key, across all groups. -/
def State.dueHead (s : State) : Option (Nat × Packet × Nat) :=
  (List.range 64).foldl (fun (a : Option (Nat × Packet × Nat)) g => match s.groupHead g with
    | none => a
    | some (h, p) =>
      if stampLe p.release s.stamp && !p.spilled && !s.coreStopped then
        (match a with
          | none => some (h, p, g)
          | some x => if p.key < x.2.1.key then some (h, p, g) else a)
      else a) none

/-- One core cycle of the release unit: at most four due heads. -/
def State.releaseDue (s : State) : Nat → State
  | 0 => s
  | n + 1 => match s.dueHead with
    | none => s
    | some (h, _, g) => (s.releaseNow h g).releaseDue n

/-- The held frames of group g at or before its floor leave at once, in key order, marked LATE (spec/10_redundancy.md R269). -/
def State.releaseFloor (s : State) (g f : Nat) : Nat → State
  | 0 => s
  | n + 1 => match s.groupHead g with
    | none => s
    | some (h, p) =>
      if stampLe (p.key / W64) f then
        State.releaseFloor ((((s.setPkt h { p with late := true }).count .REL_CTR 0 C.REL_LATE).raiseMs Ev.REL_LATE).releaseNow h g) g f n
      else s

/-- A spilled frame is back in Carafe's reserve; frames with later release times make room for it (R240). -/
def State.unspill (s : State) (h g : Nat) (p : Packet) : State :=
  let s := s.setPkt h { p with spilled := false }
  (s.spill s.pkts.length).relSync g

/-- The spilled frames whose release lies within 5 µs are in Carafe (R240); one whose cells fail has been dropped by
REL_SPILL_RETURN. -/
def State.returnDue (s : State) : State :=
  let near := s.heldPkts.filter (fun e => e.2.spilled && stampLe e.2.release ((s.stamp + 40000) % W64))
  s.each near (fun e t => match e.2.stage with
    | .held g => (t.setPkt e.1 { e.2 with spilled := false }).relSync g
    | _ => t)

/-- Held frames fall due. -/
def execRelRelease (s : State) : Step :=
  let s := s.returnDue
  .next ((s.spill s.pkts.length).releaseDue 4)

/-- A spilled frame returns to Carafe; one whose cell check fails is dropped. -/
def execRelSpillReturn (h : Nat) (bad : Bool) (s : State) : Step :=
  match s.pkt h with
  | none => .next s
  | some p => match p.stage with
    | .held g =>
      if !p.spilled then .next s
      else if bad then .next ((((s.count .REL_CTR 0 C.REL_SPILL_ERR).raise Ev.REL_SPILL_ERROR).dropPkt h 7).relSync g)
      else .next (s.unspill h g p)
    | _ => .next s

/-- A group's floor after a takeover lapses (spec/10_redundancy.md R269). -/
def execMirFloorLapse (g : Nat) (s : State) : Step :=
  match s.mir.floors.getD g none with
  | none => .next s
  | some f => .next (if stampLe s.stamp ((f + 8 * (s.groupsOper.get g).delay) % W64) then s
      else { s with mir := { s.mir with floors := s.mir.floors.setD g none none } })

/-! ### Registers of the release unit -/

/-- A write of REL_DEVICE (R228). -/
def State.relDevice (s : State) (v : Nat) : State :=
  if s.groupEnabled then s.logFwWrite 0x07000000 v
  else
    let old := s.val .REL_DEVICE 0
    let new := putBits (putBits 0 11 0 v) 31 31 (v / 2 ^ 31)
    let short (x : Nat) : Nat := bits x 11 0 + 2 ^ 15 * bits x 31 31
    (s.put .REL_DEVICE 0 new).journalCfg 0x06 1 (leBytes 2 (short old) ++ leBytes 2 (short new))

/-- A manager write of REL_DEVICE. -/
def execRelDeviceWrite (fn v : Nat) (s : State) : Step := .next (s.asManager fn (fun s => s.relDevice v))

/-- A write of REL_CFG (R239, R240); SPILL_EN stays 0 when the region was not reserved. -/
def State.relCfg (s : State) (v : Nat) : State :=
  let spill := bit v 31 && s.on F.HBM_REGION_EN 5
  let mib := if 4 ≤ bits v 6 0 ∧ bits v 6 0 ≤ 64 then bits v 6 0 else s.rd F.REL_CFG_CARAFE_MIB 0
  if s.capacityOf spill mib < s.val .REL_ADMITTED 0 then s.logFwWrite 0x07000004 v
  else ((s.wr F.REL_CFG_SPILL_EN 0 (b2n spill)).wr F.REL_CFG_CARAFE_MIB 0 mib).put .REL_CAPACITY 0 (s.capacityOf spill mib)

/-- A manager write of REL_CFG. -/
def execRelCfgWrite (fn v : Nat) (s : State) : Step := .next (s.asManager fn (fun s => s.relCfg v))

end Sys2Proof.Machine
end

