-- ==== Sys2Proof/Machine/Tm.lean ====
section
/-! DEFINITION. Choosing and starting frames, launch times, gate changes, the node window and observation
(spec/08_traffic_manager.md R205, R209 to R211, R214 to R224). -/

namespace Sys2Proof.Machine

/-! ### Deficit round robin (R210) -/

/-- What a child offers its parent: the child, what its frame costs there, its weight and deficit, the queue chosen
below it, and the deficits and turns the choice below leaves. -/
structure Offer where
  child : Nat
  prio : Nat
  cost : Int
  weight : Nat
  deficit : Int
  queue : Nat
  len : Nat
  deficits : List (Nat × Nat × Int)
  turns : List (Nat × Nat × Nat × Nat)
deriving Inhabited

/-- Serves the first offer whose deficit covers its cost, the next one's turn adding its quantum. -/
def drrServe (os : List Offer) : Nat → List Offer
  | 0 => os
  | n + 1 => match os with
    | [] => []
    | o :: rest =>
      if o.cost ≤ o.deficit then o :: rest
      else match rest ++ [o] with
        | [] => []
        | a :: r => drrServe ({ a with deficit := a.deficit + (a.weight * 256 : Nat) } :: r) n

/-- One parent's choice among its children's offers. -/
def State.choose (s : State) (level i : Nat) (os : List Offer) : Option Offer :=
  match os with
  | [] => none
  | _ =>
    let top := os.foldl (fun a o => max a o.prio) 0
    let same := os.filter (fun o => o.prio == top)
    let cur := (s.node level i).turns.get top
    let from_ := same.filter (fun o => decide (cur ≤ o.child + 1)) ++ same.filter (fun o => decide (o.child + 1 < cur))
    let start := match from_ with
      | [] => []
      | o :: r => if o.child + 1 = cur then o :: r else { o with deficit := o.deficit + (o.weight * 256 : Nat) } :: r
    match drrServe start (64 * start.length + 1) with
    | [] => none
    | o :: r =>
      let idle := (s.children level i).filter (fun c => !os.any (fun o => o.child == c))
      some { o with
        deficits := ((level + 1, o.child, o.deficit - o.cost) :: r.map (fun e => (level + 1, e.child, e.deficit))) ++
          idle.map (fun c => (level + 1, c, 0)) ++ o.deficits
        turns := (level, i, top, o.child + 1) :: o.turns }

/-- What a node offers: n levels stand below it. -/
def State.offer (s : State) : Nat → Nat → Nat → Option Offer
  | 0, _, i => match s.headReady i with
    | none => none
    | some (_, p) =>
      let nd := s.node 3 i
      some { child := i, prio := nd.prio, cost := nd.counted p.data.length, weight := nd.weight, deficit := nd.deficit, queue := i
             len := p.data.length, deficits := [], turns := [] }
  | n + 1, level, i =>
    if !s.eligible level i then none
    else
      let nd := s.node level i
      match s.choose level i ((s.children level i).filterMap (fun c => s.offer n (level + 1) c)) with
      | none => none
      | some o => some { o with child := i, prio := nd.prio, cost := nd.counted o.len, weight := nd.weight, deficit := nd.deficit }

/-! ### Starting a frame (R210, R211, R221, R224) -/

/-- Charges a frame's counted bytes to every node on its path. -/
def State.charge (s : State) (q len : Nat) : State :=
  s.each (s.path 3 q) (fun e t => (t.accrue e.1 e.2).modNode e.1 e.2 (fun n => { n with credit := n.credit - n.counted len * byteCredit }))

/-- The head frame leaves its queue. -/
def State.popHead (s : State) (q : Nat) : State := s.modNode 3 q (fun n => { n with frames := n.frames.drop 1 })

/-- The largest sojourn delay at departure (R224). -/
def State.sojourn (s : State) (q : Nat) (p : Packet) : State :=
  let d := min 0xFFFFFFFF ((s.time.ticks - p.enqueuedAt) / 8)
  s.modNode 3 q (fun n => if n.maxDelay < d then { n with maxDelay := d, delayAt := s.stamp } else n)

/-- A launch-time frame is late by more than its queue's tolerance (R221). -/
def Packet.isLate (p : Packet) (n : Node) (now : Nat) : Bool :=
  match p.launch with
  | some l => n.ltEn && !stampLe now ((l + 8 * n.tolerance) % W64)
  | none => false

/-- Marks the job of a launch-time frame sent late. -/
def State.markLate (s : State) (h : Nat) (p : Packet) : State :=
  let s := s.setPkt h { p with launchLate := true }
  match p.job with
  | none => s
  | some j => match s.job j with
    | none => s
    | some b => s.setJob j { b with launchLate := true }

/-- A port may cut a frame through: it permits it, is no faster than the ingress port, neither is a MACsec port, the frame has
not had to wait and is not needed whole, and nothing is before it at the MAC (spec/03_ports.md R71; spec/01_architecture.md
R24). -/
def State.cutOk (s : State) (p : Packet) (port : Nat) : Bool :=
  !p.whole && (s.atStage (.txCell port)).isEmpty && (s.onWire port).isNone && s.on F.PRT_MAC_CFG_CUT_THROUGH port && decide (modeRate (s.rd F.PRT_STATUS_ACTIVE_MODE port) ≤ modeRate (s.rd F.PRT_STATUS_ACTIVE_MODE p.port)) &&
    !s.on F.OFL_MACSEC_PORT_EN port && !s.on F.OFL_MACSEC_PORT_EN p.port

/-- A frame joins a port's transmit cells. -/
def State.toMac (s : State) (h port : Nat) : State :=
  match s.pkt h with
  | none => s
  | some p =>
    let k := (s.pkts.filter (fun e => e.2.stage == .txCell port)).foldl (fun a e => max a e.2.handed) 0
    (s.setPkt h { p with handed := k + 1 }).moveTo h (.txCell port)

/-- A launch-time frame is dropped as late (R221). -/
def State.dropLate (s : State) (half h : Nat) : State :=
  ((s.count .TM_CTR half C.TM_LAUNCH_LATE_DROP).raiseMs (Ev.TM_LAUNCH_LATE half)).dropPkt h 9

/-- A launch-time frame is sent although it is late (R221). -/
def State.sentLate (s : State) (half h : Nat) (p : Packet) : State :=
  ((s.count .TM_CTR half C.TM_LAUNCH_LATE_SENT).raiseMs (Ev.TM_LAUNCH_LATE half)).markLate h p

/-- The head frame of a queue is handed to its MAC, which judges its lateness as it starts it, or to receive DMA, where lateness
is judged now. A stored frame with a bad ingress FCS is freed (spec/01_architecture.md R25), and a frame that a QUEUE verdict
put below a host port without naming a ring has no receive ring (log 44). -/
def State.startHead (s : State) (q : Nat) : State :=
  match (s.node 3 q).frames with
  | [] => s
  | h :: _ => match s.pkt h with
    | none => s.popHead q
    | some p =>
      let half := q / 32768
      let port := s.queuePort q
      let n := s.node 3 q
      let late := decide (16 ≤ port) && p.isLate n s.stamp
      let s := s.popHead q
      if s.stalePkt p then s.flushFrame half h
      else if p.badFcs && decide (port < 16) && !s.cutOk p port then s.freePkt h
      else if late && !n.lateSend then s.dropLate half h
      else
        let s := s.when late (fun t => t.sentLate half h p)
        let s := ((s.sojourn q p).charge q p.data.length).count .TM_CTR half C.TM_DEQUEUED
        if port < 16 then s.toMac h port
        else if p.dstRing < 131072 then s.noRing h
        else s.moveTo h (.rxDma p.dstRing)

/-- Drops the head of a queue that can never start (R217). -/
def State.dropTooLong (s : State) (q : Nat) : State :=
  match (s.node 3 q).frames with
  | [] => s
  | h :: _ =>
    if s.gateTooLong (s.queuePort q) (s.node 3 q).tc (s.frameLen h) then
      (s.popHead q).tmDrop (q / 32768) C.TM_GATE_TOO_LONG Ev.TM_GATE_TOO_LONG h 8
    else s

/-- Enabled queues below a port that hold frames, of the slices in service. -/
def State.busyQueues (s : State) (port : Nat) : List Nat :=
  (s.nodes.filter (fun e => e.1 / 131072 == 3 && e.2.en && !e.2.frames.isEmpty)).filterMap (fun e =>
    let q := e.1 % 131072
    if s.queuePort q = port ∧ !s.isFenced (unitSlice (q / 16384)) 0 then some q else none)

/-- A node below a port that has no candidate below it any longer loses its remaining deficit (R210). -/
def State.loseDeficits (s : State) (port : Nat) : State :=
  s.each ((s.nodes.filter (fun e => e.2.deficit != 0)).map (·.1)) (fun k t =>
    let level := k / 131072
    let i := k % 131072
    if s.rootPort level i = port ∧ (s.offer (3 - level) level i).isNone then t.modNode level i (fun n => { n with deficit := 0 }) else t)

/-- The next choice at a port node: its arbiter weighs the candidates of both slices of its half (R204, R210). -/
def State.nextChoice (s : State) (port : Nat) : Option Offer :=
  if !s.eligible 0 port || !s.roomAt port then none
  else s.choose 0 port (((s.children 0 port).filter (fun g => !s.isFenced (unitSlice (nodeSlice 1 g)) 0)).filterMap (fun g => s.offer 2 1 g))

/-- The frame chosen is started, with the deficits and turns the choice leaves. -/
def State.startChoice (s : State) (o : Offer) : State :=
  let s := s.each o.deficits (fun e t => t.modNode e.1 e.2.1 (fun n => { n with deficit := e.2.2 }))
  let s := s.each o.turns (fun e t => t.modNode e.1 e.2.1 (fun n => { n with turns := n.turns.set e.2.2.1 e.2.2.2 }))
  s.startHead o.queue

/-- A slice chooses the next frame for a port node: it starts the port's next frame where that is one of its own. -/
def State.schedule (s : State) (slice port : Nat) : State :=
  let s := (s.adopt port).each (s.busyQueues port) (fun q t => t.dropTooLong q)
  match s.nextChoice port with
  | none => s.loseDeficits port
  | some o => if o.queue / 16384 = slice then (s.startChoice o).loseDeficits port else s

/-- A slice chooses the next candidate frame of a port node: 0 to 15 the network ports, 16 + 2h + k host port k of half h. -/
def execTmSchedule (slice port : Nat) (s : State) : Step :=
  .next (if slice < 4 ∧ port < 20 ∧ nodeHalf 0 port = slice / 2 ∧ !s.isFenced (unitSlice slice) 0 ∧ !s.coreStopped then s.schedule slice port else s)

/-! ### Gates (R215, R216, R219) -/

/-- The gate states in force are shown and act (R219). -/
def State.gateSync (s : State) (p : Nat) : State :=
  let g := (s.operList p).at_ s.time.ticks
  (s.wr F.GCL_STATUS_GATES p g.2).wr F.GCL_STATUS_ENTRY p g.1

/-- An entry boundary of the operational list. -/
def execGateChange (port : Nat) (s : State) : Step := .next (if port < 16 then (s.gateSync port).loseDeficits port else s)

/-- Writes a port's operational list; entries past its length read 0. -/
def State.setOper (s : State) (p : Nat) (g : GateList) : State :=
  let s := ((s.wr F.GCL_OPER_CTRL_EN p (b2n g.en)).wr F.GCL_OPER_CTRL_LEN p g.entries.length).wr F.GCL_OPER_CYCLE_CYCLE_NS p g.cycle
  let s := (s.wr F.GCL_OPER_BASE_SEC_SEC p g.baseSec).wr F.GCL_OPER_BASE_NS_NS p g.baseNs
  s.each (List.range 1024) (fun k t => t.put .GCL_OPER_ENTRY (1024 * p + k) (g.entries.getD k 0))

/-- The change time of a port's pending list comes (R216). -/
def execGclChangeTime (port : Nat) (s : State) : Step :=
  match s.gclPending.getD port none with
  | none => .next s
  | some g =>
    .next (if stampLe (s.val .GCL_CHANGE_TIME port) s.stamp then
      let s := ({ s with gclPending := s.gclPending.setD port none none }).setOper port g
      (((s.wr F.GCL_STATUS_PENDING port 0).gateSync port).loseDeficits port).raise (Ev.TM_GCL_CHANGED (port / 8))
    else s)

/-! ### The node window (R204, R205) -/

/-- The queues below a node, itself included at the queue level. -/
def State.queuesUnder (s : State) (level i : Nat) : List Nat :=
  (s.nodes.filter (fun e => e.1 / 131072 == 3 && !e.2.frames.isEmpty)).filterMap (fun e =>
    if (s.path 3 (e.1 % 131072)).any (fun a => a.1 == level && a.2 == i) then some (e.1 % 131072) else none)

/-- The STAT words of a node. -/
def State.nodeStat (s : State) (level i : Nat) : List Nat :=
  let qs := s.queuesUnder level i
  let n := (s.node level i).accrue (s.fillRate level i) s.time.ticks
  [(qs.foldl (fun a q => a + s.depth q) 0) % 2 ^ 32, (qs.foldl (fun a q => a + (s.node 3 q).frames.length) 0) % 2 ^ 32,
    unsigned 32 (n.credit.fdiv byteCredit), if level = 3 then n.dropped else 0]

/-- The window's data as a configuration. -/
def State.windowBytes (s : State) : Bytes := (List.range 8).flatMap (fun k => leBytes 4 (s.val .TM_NODE_DATA k))

/-- One access through the node window. -/
def State.nodeAccess (s : State) (v : Nat) : State :=
  let level := bits v 29 28
  let i := bits v 16 0
  if nodeCount level ≤ i then s.wr F.TM_NODE_CMD_RESULT 0 1
  else if bit v 30 then
    if s.nodeRefused level i s.windowBytes then s.wr F.TM_NODE_CMD_RESULT 0 2
    else (s.writeNode level i s.windowBytes).wr F.TM_NODE_CMD_RESULT 0 0
  else
    let cfg := fit 32 (s.node level i).cfg
    let st := s.nodeStat level i
    let s := s.each (List.range 8) (fun k t => t.put .TM_NODE_DATA k (leAt cfg (4 * k) 4))
    (s.each (List.range 4) (fun k t => t.put .TM_NODE_STAT k (st.getD k 0))).wr F.TM_NODE_CMD_RESULT 0 0

/-- A write of TM_NODE_CMD; with GO the access is performed and GO reads 0 again. -/
def State.nodeCmd (s : State) (v : Nat) : State :=
  let s := ((s.wr F.TM_NODE_CMD_WRITE 0 (bits v 30 30)).wr F.TM_NODE_CMD_LEVEL 0 (bits v 29 28)).wr F.TM_NODE_CMD_INDEX 0 (bits v 16 0)
  s.when (bit v 31) (fun t => t.nodeAccess v)

/-- A manager write of TM_NODE_CMD. -/
def execTmNodeAccess (fn v : Nat) (s : State) : Step := .next (s.asManager fn (fun s => s.nodeCmd v))

/-- Firmware returns an emptied fenced default class queue to service (R214). -/
def execTmQueueReload (q : Nat) (s : State) : Step :=
  .next (if isDefaultQueue q ∧ s.isFenced (unitObject 5) q ∧ (s.node 3 q).frames.isEmpty then s.unfence (unitObject 5) q else s)

/-! ### Observation (R222 to R224) -/

/-- Clears a queue's high-water marks. -/
def Node.clearMarks (n : Node) : Node := { n with maxDepth := 0, depthAt := 0, maxDelay := 0, delayAt := 0 }

/-- Clears a queue's histograms. -/
def Node.clearBins (n : Node) (now : Nat) : Node := { n with depthBins := [], delayBins := [], samples := 0, cleared := now }

/-- Clears every queue's (R222). -/
def State.clearObs (s : State) : State :=
  let s := s.each ((s.nodes.filter (fun e => e.1 / 131072 == 3)).map (·.1)) (fun k t =>
    { t with nodes := t.nodes.mod k (fun n => n.clearMarks.clearBins s.stamp) })
  { s with obs := { s.obs with saturated := false } }

/-- A write of TM_OBS_CFG (R222). -/
def State.obsCfg (s : State) (v : Nat) : State :=
  if !bit v 31 ∧ 8192 < s.rd F.TM_OBS_QUEUES_ENABLED 0 then s.logFwWrite 0x06000100 v
  else
    let t := ((s.wr F.TM_OBS_CFG_MODE 0 (bits v 31 31)).wrLegal F.TM_OBS_CFG_DEPTH_SHIFT 0 (bits v 12 8)).wrLegal F.TM_OBS_CFG_DELAY_SHIFT 0 (bits v 4 0)
    if t.val .TM_OBS_CFG 0 = s.val .TM_OBS_CFG 0 then t else t.clearObs

/-- A manager write of TM_OBS_CFG. -/
def execTmObsCfgWrite (fn v : Nat) (s : State) : Step := .next (s.asManager fn (fun s => s.obsCfg v))

/-- The bin of a value with unit 2^shift (R223). -/
def obsBin (x shift : Nat) : Nat :=
  if x = 0 then 0 else if x / 2 ^ shift < 2 then 1 else min 31 ((x / 2 ^ shift).log2 + 1)

/-- One count in a bin that stops at 0xFFFF_FFFF. -/
def bump (m : SMap Nat) (k : Nat) : SMap Nat := m.set k (min 0xFFFFFFFF (m.get k + 1))

/-- The sojourn delay of a queue's head, in ns. -/
def State.headDelay (s : State) (q : Nat) : Nat :=
  match (s.node 3 q).frames with
  | [] => 0
  | h :: _ => match s.pkt h with
    | none => 0
    | some p => (s.time.ticks - p.enqueuedAt) / 8

/-- One sample of a queue. -/
def State.sampleQueue (s : State) (q : Nat) : State :=
  let kd := obsBin (s.depth q) (s.rd F.TM_OBS_CFG_DEPTH_SHIFT 0)
  let kv := obsBin (s.headDelay q) (s.rd F.TM_OBS_CFG_DELAY_SHIFT 0)
  let s := s.modNode 3 q (fun n => { n with
    depthBins := bump n.depthBins kd, delayBins := bump n.delayBins kv, samples := min 0xFFFFFFFF (n.samples + 1) })
  let n := s.node 3 q
  if !s.obs.saturated ∧ (n.depthBins.get kd = 0xFFFFFFFF ∨ n.delayBins.get kv = 0xFFFFFFFF) then
    ({ s with obs := { s.obs with saturated := true } }).raise (Ev.TM_OBS_SATURATED (q / 32768))
  else s

/-- A microsecond of device time passes in HIST mode: every enabled queue is sampled, once in each microsecond (R223). -/
def execTmObsSample (s : State) : Step :=
  .next (if s.on F.TM_OBS_CFG_MODE 0 ∨ s.obs.at_ = some (s.time.ticks / 8000) then s
    else State.each { s with obs := { s.obs with at_ := some (s.time.ticks / 8000) } } ((s.nodes.filter (fun e => e.1 / 131072 == 3 && e.2.en)).map (fun e => e.1 % 131072)) (fun q t => t.sampleQueue q))

/-- A queue's sojourn delay reaches ALARM_DELAY_US. -/
def execTmDelayAlarm (q : Nat) (s : State) : Step :=
  let us := (s.node 3 q).alarmUs
  .next (if q < 65536 ∧ us ≠ 0 ∧ us * 1000 ≤ s.headDelay q ∧ !(s.node 3 q).frames.isEmpty then s.raiseMs (Ev.TM_DELAY_ALARM (q / 32768)) else s)

/-- Discards the frames of a queue that a test names, counted in FLUSHED. -/
def State.flushWhere (s : State) (q : Nat) (test : Packet → Bool) : State :=
  let out (h : Nat) : Bool := match s.pkt h with
    | some p => test p
    | none => false
  let hs := (s.node 3 q).frames.filter out
  ((s.modNode 3 q (fun n => { n with frames := n.frames.filter (fun h => !out h) })).each hs (fun h t => t.flushFrame (q / 32768) h)).loseDeficits
    (s.queuePort q)

/-- Discards every frame of a queue. -/
def State.flushQueue (s : State) (q : Nat) : State := s.flushWhere q (fun _ => true)

/-- A node is gone, its queue's frames with it. -/
def State.removeNode (s : State) (level i : Nat) : State :=
  let s := s.when (level == 3) (fun t => t.flushQueue i)
  ({ s with nodes := s.nodes.erase (nodeKey level i) }).queuesSync

end Sys2Proof.Machine
end

