-- ==== Sys2Proof/Machine/Journal.lean ====
section
/-! DEFINITION. Transmit stamps and the evidence journal: the stamp FIFOs, journalled rings, the chain, checkpoints and
the journal registers (spec/09_release_and_evidence.md R243 to R254). -/

namespace Sys2Proof.Machine

/-- The 48 bytes of a SHA-384 digest, in digest byte order. -/
def digest (b : Bytes) : Bytes := beBytes 48 (Config.sha384 b).toNat

/-! ### Journalled rings (R251) -/

/-- The key of a journalled ring: its number, with 131,072 added for a receive ring. -/
def jringKey (ring : Nat) (rx : Bool) : Nat := ring + 131072 * b2n rx

/-- Closes a ring's interval with a DIGEST record; an interval with no entries writes nothing. -/
def State.closeDigest (s : State) (key : Nat) : State :=
  match s.jrings.getD key none with
  | none => s
  | some j =>
    if j.entries.isEmpty then s
    else
      let s := { s with jrings := s.jrings.setD key (some { j with first := j.first + j.entries.length, entries := [] }) none }
      s.journalPush [{ kind := 4, body := fit 40 (leBytes 4 key ++ leBytes 4 j.entries.length ++ leBytes 8 j.first ++
        leBytes 8 j.last ++ (digest (j.entries.flatMap id)).take 16) }]

/-- One 16-byte entry of a journalled ring's stream. -/
def State.jentry (s : State) (key : Nat) (entry : Bytes) (stamp : Nat) : State :=
  match s.jrings.getD key none with
  | none => s
  | some j =>
    let j := { j with entries := j.entries ++ [entry], since := if j.entries.isEmpty then s.stamp else j.since, last := stamp }
    let s := { s with jrings := s.jrings.setD key (some j) none }
    s.when (decide (4096 ≤ j.entries.length)) (fun t => t.closeDigest key)

/-- An interval of a ring closes: 4,096 entries, or 1 ms of device time since its first. -/
def execJnlDigestClose (ring : Nat) (rx : Bool) (s : State) : Step :=
  match s.jrings.getD (jringKey ring rx) none with
  | none => .next s
  | some j => .next (if !j.entries.isEmpty ∧ (4096 ≤ j.entries.length ∨ stampLe ((j.since + 8000000) % W64) s.stamp)
      then s.closeDigest (jringKey ring rx) else s)

/-! ### Transmit stamps (R243 to R245) -/

/-- Key bits [63:0] with a given SEQ: NUM, PORT and SEQ. -/
def State.keyLo (s : State) (port seq : Nat) : Nat := s.rd F.REL_DEVICE_NUM 0 * 2 ^ 52 + port * 2 ^ 48 + seq % 2 ^ 48

/-- A GAP record of cause 1 covers the losses since the last one of the episode (R244). -/
def State.stampGap (s : State) (port : Nat) : State :=
  let l := s.stampLoss.get port
  if l.count = 0 then s
  else
    let s := { s with stampLoss := s.stampLoss.set port { l with count := 0, told := s.stamp } }
    s.journalPush [{ kind := 5, body := fit 40 (leBytes 4 (1 + 2 ^ 8 * port) ++ leBytes 4 l.count ++ leBytes 8 l.first ++
      leBytes 8 l.from_ ++ leBytes 8 l.to_) }]

/-- A stamp no host job owns goes to the port's stamp completion ring, when one is named (R245; log 52), a lost one as all ones with STAMP_LOST (R244). -/
def State.tagStamp (s : State) (port : Nat) (e : StampEntry) (lost : Bool) : State :=
  match s.stampRing.getD port none with
  | none => s
  | some cq =>
    let c : Cpl :=
      { target := cq, ring := s.fresh % 131072, stamp := if lost then 2 ^ 64 - 1 else e.stamp, keyLo := s.keyLo port e.txSeq, len := 1
        flags := cplFlags false false lost false false none, tag := e.txSeq % 65536 }
    { s.used with ready := s.ready ++ [c] }

/-- A stamp is lost because the FIFO is full (R244). -/
def State.loseStamp (s : State) (port : Nat) (e : StampEntry) : State :=
  let l := s.stampLoss.get port
  let s := (s.add .STAMPS_LOST port 1).when (!l.active) (fun t => t.raise Ev.STAMP_LOST)
  let l' : StampLoss :=
    { count := l.count + 1, first := if l.count = 0 then e.txSeq else l.first
      from_ := if l.count = 0 then e.stamp else l.from_, to_ := e.stamp
      active := true, told := if l.active then l.told else s.stamp }
  let s := { s with stampLoss := s.stampLoss.set port l' }
  let s := match e.ring with
    | some r => s.jentry (jringKey r false) (leBytes 8 (2 ^ 64 - 1) ++ leBytes 8 (s.keyLo port e.txSeq)) (2 ^ 64 - 1)
    | none => s
  match e.job with
  | none => if e.owned then s else s.tagStamp port e true
  | some j => match s.job j with
    | none => s
    | some b => s.setJob j { b with stampLost := true }

/-- A stamped frame's stamp is taken: TX_SEQ advances, and the stamp enters the port's FIFO or is lost. -/
def State.takeStamp (s : State) (port stamp : Nat) (job ring : Option Nat) (owned : Bool) : State :=
  let seq := s.txSeq.get port
  let e : StampEntry := { stamp := stamp, txSeq := seq, job := job, ring := ring, owned := owned }
  let s := { s with txSeq := s.txSeq.set port ((seq + 1) % 2 ^ 48) }
  let q := s.stampFifo.get port
  if 8192 ≤ q.length then s.loseStamp port e
  else
    let s := s.stampGap port
    let s := { s with stampLoss := s.stampLoss.set port {}, stampFifo := s.stampFifo.set port (q ++ [e]) }
    s.when (decide (q.length = 6144)) (fun t => t.raise Ev.STAMP_FIFO_HIGH)

/-- The completion writer takes the oldest stamp of a port's FIFO. -/
def execStampFifoDrain (port : Nat) (s : State) : Step :=
  match s.stampFifo.get port with
  | [] => .next s
  | e :: rest =>
    let s := { s with stampFifo := s.stampFifo.set port rest }
    let s := match e.ring with
      | some r => s.jentry (jringKey r false) (leBytes 8 e.stamp ++ leBytes 8 (s.keyLo port e.txSeq)) e.stamp
      | none => s
    match e.job with
    | some j => match s.job j with
      | none => .next s
      | some b => .next ((s.setJob j { b with stamp := some (e.stamp, s.keyLo port e.txSeq) }).finishJob j)
    | none => .next (if e.owned then s else s.tagStamp port e false)

/-- A GAP record of lost stamps is due: the FIFO accepts again, or 1 ms of the loss has passed (R244). -/
def execStampGapRecord (port : Nat) (s : State) : Step :=
  let l := s.stampLoss.get port
  .next (if 0 < l.count ∧ stampLe ((l.told + 8000000) % W64) s.stamp then s.stampGap port else s)

/-! ### The chain (R246 to R249) -/

/-- Records may be written to the ring. -/
def State.jnlWriting (s : State) : Bool :=
  s.on F.JNL_CTRL_EN 0 && !s.journal.stopped && s.mayDma s.manager

/-- The ring size in records. -/
def State.jnlSize (s : State) : Nat := 2 ^ s.rd F.JNL_CTRL_LOG2_RECORDS 0

/-- Records in the ring not yet consumed. -/
def State.jnlHeld (s : State) : Nat := ixSub (s.val .JNL_PROD 0) (s.val .JNL_CONS 0)

/-- Keeps FULL, with its event when it rises. -/
def State.jnlFull (s : State) : State :=
  let full := decide (s.jnlHeld = s.jnlSize)
  let was := s.on F.JNL_STATUS_FULL 0
  (s.wr F.JNL_STATUS_FULL 0 (b2n full)).when (full && !was) (fun t => t.raise Ev.JNL_RING_FULL)

/-- The 48 chained bytes of a record. -/
def JRec.bytes (r : JRec) (rseq : Nat) : Bytes := leBytes 1 r.kind ++ leBytes 1 1 ++ leBytes 6 rseq ++ fit 40 r.body

/-- Chains the oldest waiting record and writes it to the ring. -/
def State.commit (s : State) (r : JRec) (rest : List JRec) : State :=
  let j := s.journal
  let rseq := j.next
  let rec_ := r.bytes rseq
  let h := digest (j.head.getD (List.replicate 48 0) ++ rec_)
  let s := { s with journal := { j with backlog := rest, head := some h, next := rseq + 1, sinceCkpt := j.sinceCkpt + 1 } }
  let s := s.hostWrite s.manager (s.rd F.JNL_BASE_ADDR 0 * 4096 + 64 * (rseq % s.jnlSize)) none (rec_ ++ slice h 32 16)
  let s := ((s.put .JNL_PROD 0 ((rseq + 1) % 2 ^ 32)).put .JNL_HEAD_RSEQ 0 (rseq % 2 ^ 48)).count .JNL_CTR 0 C.JNL_RECORDS
  s.jnlFull.backlogSync.journalGap

/-- The journal writer takes the next record; fault: its write meets a translation fault (R246). -/
def execJnlRecordCommit (fault : Bool) (s : State) : Step :=
  match s.journal.backlog with
  | [] => .next s
  | r :: rest =>
    if !s.jnlWriting || s.journal.faulted || decide (s.jnlSize ≤ s.jnlHeld) then .next s
    else if fault then
      let addr := s.rd F.JNL_BASE_ADDR 0 * 4096 + 64 * (s.journal.next % s.jnlSize)
      match s.pageRequest s.manager none addr true .journal with
      | some t => .next { t with journal := { t.journal with faulted := true } }
      | none => .next (({ s.pageFailed s.manager with journal := { s.journal with stopped := true } }).raise Ev.JNL_XLATE_FAULT)
    else .next (s.commit r rest)

/-- The data of the CHAIN_START record (R252). -/
def State.chainStart (s : State) (id reason : Nat) : Bytes :=
  let dev := s.rd F.REL_DEVICE_NUM 0 + 2 ^ 15 * s.rd F.REL_DEVICE_VALID 0
  let pos := Config.fusePos.toNat
  let head := leBytes 8 id ++ leBytes 2 dev ++ leBytes 1 reason ++ leBytes 1 0xA1
  let lot := leBytes 4 (Config.fuseLot 0).toNat ++ leBytes 4 (Config.fuseLot 1).toNat
  let die := leBytes 1 (bits pos 7 0) ++ leBytes 1 (bits pos 15 8) ++ leBytes 1 (bits pos 23 16) ++ leBytes 1 Config.fuseSpeedBin.toNat
  head ++ lot ++ die ++ (List.range 12).flatMap (fun k => leBytes 4 (Config.fuseCert k).toNat)

/-- A chain starts: a new random CHAIN_ID, an empty ring, and CHAIN_START ahead of the records that wait (R248). -/
def State.startChain (s : State) (reason : Nat) : State :=
  let id := s.fresh
  let s := s.used
  let s := { s with journal := { s.journal with
    backlog := cfgParts 1 2 (s.chainStart id reason) ++ s.journal.backlog, head := none, next := 0, sinceCkpt := 0, ckptAt := s.stamp, signing := [] } }
  let s := ((s.put .JNL_PROD 0 0).put .JNL_CONS 0 0).put .JNL_HEAD_RSEQ 0 0
  ((s.put .JNL_CHAIN_ID 0 id).jnlFull.backlogSync).raise Ev.JNL_CHAIN_START

/-! ### Checkpoints (R253) -/

/-- The signature over SHA-384(M). -/
def State.signature (s : State) (rseq when_ : Nat) (h : Bytes) : Bytes :=
  beBytes 96 (Config.ecdsaSign (digest (leBytes 8 (s.val .JNL_CHAIN_ID 0) ++ leBytes 8 rseq ++ leBytes 8 when_ ++ h))).toNat

/-- A checkpoint begins: 65,536 records, or 1 s of device time, since the last one began. -/
def execJnlCheckpoint (s : State) : Step :=
  let j := s.journal
  match j.head with
  | none => .next s
  | some h =>
    let due := decide (65536 ≤ j.sinceCkpt) || stampLe ((j.ckptAt + 8000000000) % W64) s.stamp
    .next (if due ∧ s.on F.JNL_STATUS_SIGNER_OK 0 then
      { s with journal := { j with
        sinceCkpt := 0, ckptAt := s.stamp, signing := j.signing ++ [(j.next - 1, s.stamp, s.signature (j.next - 1) s.stamp h)] } }
    else s)

/-- A HEAD message of a primary: CHAIN_ID, RSEQ and H of the last record chained (spec/10_redundancy.md, "Mirror pairs"). -/
def State.mirrorHead (s : State) : State :=
  match s.journal.head with
  | none => s
  | some h => s.when (s.rd F.MIR_CTRL_ROLE 0 == 1) (fun t => t.mirrorSend 1 (beBytes 8 (t.val .JNL_CHAIN_ID 0) ++ beBytes 8 (t.journal.next - 1) ++ h))

/-- The signer has finished: the three CKPT parts join the queue of records. -/
def execJnlSignatureDone (s : State) : Step :=
  match s.journal.signing with
  | [] => .next s
  | (rseq, w, sig) :: rest =>
    let s := { s with journal := { s.journal with signing := rest } }
    let parts : List JRec :=
      [{ kind := 7, body := leBytes 1 0 ++ leBytes 6 rseq ++ leBytes 8 w ++ fit 25 sig },
        { kind := 7, body := leBytes 1 1 ++ slice sig 25 39 }, { kind := 7, body := fit 40 (leBytes 1 2 ++ slice sig 64 32) }]
    .next ((((s.journalPush parts).count .JNL_CTR 0 C.JNL_CHECKPOINTS).raise Ev.JNL_CHECKPOINT).mirrorHead)

/-! ### Registers (R246) -/

/-- The JOURNAL_RING record after a change of the ring's registers (log 53). -/
def State.journalRing (s : State) : State :=
  s.journalCfg 0x09 1 (leBytes 8 (s.val .JNL_BASE 0) ++ leBytes 1 (s.rd F.JNL_CTRL_LOG2_RECORDS 0) ++ leBytes 1 (s.rd F.JNL_CTRL_EN 0))

/-- A write of JNL_CTRL; a write of EN lets a stopped writer go on. -/
def State.jnlCtrl (s : State) (v : Nat) : State :=
  let old := s.val .JNL_CTRL 0
  let lg := bits v 4 0
  let held := s.on F.JNL_CTRL_EN 0 && lg != s.rd F.JNL_CTRL_LOG2_RECORDS 0
  let s := if held then s.logFwWrite 0x07008008 v else s.wrLegal F.JNL_CTRL_LOG2_RECORDS 0 lg
  let s := s.wr F.JNL_CTRL_EN 0 (bits v 31 31)
  let s := s.when (bit v 31) (fun t => { t with journal := { t.journal with stopped := false } })
  (s.when (s.val .JNL_CTRL 0 != old) (fun t => t.journalRing)).jnlFull

/-- A write of JNL_CTRL. -/
def execJnlCtrlWrite (fn v : Nat) (s : State) : Step := .next (s.asManager fn (fun s => s.jnlCtrl v))

/-- A write of JNL_CONS; one beyond PROD or more than a ring behind it is ignored and logged. -/
def State.jnlCons (s : State) (v : Nat) : State :=
  if s.jnlSize < ixSub (s.val .JNL_PROD 0) (v % 2 ^ 32) then s.logFwWrite 0x07008010 v
  else (s.put .JNL_CONS 0 (v % 2 ^ 32)).jnlFull

/-- A manager write of JNL_CONS. -/
def execJnlConsWrite (fn v : Nat) (s : State) : Step := .next (s.asManager fn (fun s => s.jnlCons v))

/-- A write of JNL_BASE, ignored and logged while EN = 1. -/
def State.jnlBase (s : State) (w : Width) (v : Nat) : State :=
  if s.on F.JNL_CTRL_EN 0 then s.logFwWrite (if w = .high then 0x07008004 else 0x07008000) v
  else
    let new := merge w (s.val .JNL_BASE 0) v / 4096 * 4096
    if new = s.val .JNL_BASE 0 then s else (s.put .JNL_BASE 0 new).journalRing

/-- A CLOCK record: cause 0 near each second boundary, or the oldest change still to be recorded (R250). -/
def execJnlClockRecord (cause : Nat) (s : State) : Step :=
  .next (if s.tsu.clockDue.contains cause then
    ({ s with tsu := { s.tsu with clockDue := s.tsu.clockDue.erase cause } }).journalClock cause else s)

end Sys2Proof.Machine
end

