-- ==== Sys2Proof/Machine/Checksum.lean ====
section
/-! DEFINITION. IP lengths and checksums that the queue manager and the tunnel unit write
(spec/07_offloads.md R180, R183, spec/12_queues_and_rings.md R305). -/

namespace Sys2Proof.Machine

/-- The IP version of the header at an offset: 4, 6, or 0 where no whole header of either stands. -/
def ipVersion (f : Bytes) (o : Nat) : Nat :=
  if beAt f o 1 / 16 = 4 ∧ o + 20 ≤ f.length then 4
  else if beAt f o 1 / 16 = 6 ∧ o + 40 ≤ f.length then 6 else 0

/-- The length of the IPv4 header with its options. -/
def ipHeaderLen (f : Bytes) (o : Nat) : Nat := if ipVersion f o = 4 then beAt f o 1 % 16 * 4 else 40

/-- Writes a number in network order. -/
def putBE (f : Bytes) (o n v : Nat) : Bytes := patch f o (beBytes n v)

/-- The IPv4 header checksum written over a header whose other fields stand. -/
def ip4Checksum (f : Bytes) (o : Nat) : Bytes :=
  let z := putBE f (o + 10) 2 0
  putBE z (o + 10) 2 (inetSum (slice z o (ipHeaderLen f o)))

/-- The IPv4 total length and header checksum, or the IPv6 payload length, for a datagram that runs to the frame's end. -/
def ipFinish (f : Bytes) (o : Nat) : Bytes :=
  match ipVersion f o with
  | 4 => ip4Checksum (putBE f (o + 2) 2 (f.length - o)) o
  | 6 => putBE f (o + 4) 2 (f.length - o - 40)
  | _ => f

/-- The pseudo-header of a protocol over n bytes. -/
def pseudo (f : Bytes) (o proto n : Nat) : Bytes :=
  match ipVersion f o with
  | 4 => slice f (o + 12) 8 ++ beBytes 2 proto ++ beBytes 2 n
  | 6 => slice f (o + 8) 32 ++ beBytes 4 n ++ beBytes 4 proto
  | _ => []

/-- The place of the checksum in a transport header, and the protocol: TCP or UDP. -/
def csumPlace (proto : Nat) : Nat := if proto = 6 then 16 else 6

/-- The TCP or UDP checksum of what stands from o4 to the frame's end; a UDP sum of 0 is written as 0xFFFF. -/
def l4Sum (f : Bytes) (o3 o4 proto : Nat) : Nat :=
  let z := (putBE f (o4 + csumPlace proto) 2 0).drop o4
  let c := inetSum (pseudo f o3 proto z.length ++ z)
  if proto = 17 ∧ c = 0 then 0xFFFF else c

/-- Writes that checksum. -/
def l4Checksum (f : Bytes) (o3 o4 proto : Nat) : Bytes := putBE f (o4 + csumPlace proto) 2 (l4Sum f o3 o4 proto)

/-- The protocol of the transport header that follows an IP header: the IPv4 protocol, or the fixed IPv6 next header. -/
def ipProto (f : Bytes) (o : Nat) : Nat := if ipVersion f o = 4 then beAt f (o + 9) 1 else beAt f (o + 6) 1

/-- Walks IPv6 extension headers from offset o, whose protocol stands at n, to the header at o4: the place of its protocol. -/
def v6Place (f : Bytes) (o4 o n : Nat) : Nat → Option Nat
  | 0 => none
  | k + 1 => if o = o4 then some n else if o4 < o ∨ f.length < o + 2 then none
      else v6Place f o4 (o + 8 * (beAt f (o + 1) 1 + 1)) o k

/-- The place of the protocol of the header at o4, when it follows the IP header at o3 and its extension headers
(spec/07_offloads.md R181, R184). -/
def protoPlace (f : Bytes) (o3 o4 : Nat) : Option Nat :=
  match ipVersion f o3 with
  | 4 => if o4 = o3 + ipHeaderLen f o3 then some (o3 + 9) else none
  | 6 => v6Place f o4 (o3 + 40) (o3 + 6) 16
  | _ => none

/-- One frame of a segmented job: header bytes, piece k of MSS bytes, the changes of R305. -/
def segFrame (buf : Bytes) (hdr mss o3 o4 : Nat) (udp last : Bool) (k : Nat) : Bytes :=
  let f := buf.take hdr ++ slice buf (hdr + k * mss) mss
  let f := if ipVersion f o3 = 4 then putBE f (o3 + 4) 2 (beAt f (o3 + 4) 2 + k) else f
  let f := ipFinish f o3
  if udp then l4Checksum (putBE f (o4 + 4) 2 (f.length - o4)) o3 o4 17
  else
    let f := putBE f (o4 + 4) 4 (beAt f (o4 + 4) 4 + k * mss)
    let fl := beAt f (o4 + 13) 1
    let fl := if last then fl else putBits (putBits fl 0 0 0) 3 3 0
    let fl := if k = 0 then fl else putBits fl 7 7 0
    l4Checksum (putBE f (o4 + 13) 1 fl) o3 o4 6

/-! ### PTP messages: residence time (spec/02_time_base.md R63) -/

/-- The 16-bit one's-complement sum of bytes, and the difference of two sums. -/
def onesSum (b : Bytes) : Nat := onesFold (onesFold (sum16 b))
def onesSub (a b : Nat) : Nat := onesFold (a + 65535 - b)
def swap16 (v : Nat) : Nat := v % 256 * 256 + v / 256 % 256

/-- The UDP checksum, or the checksum trailer of IPv6, follows a change of the datagram's bytes. -/
def udpAdjust (old new : Bytes) (udp : Nat) (v6 : Bool) : Bytes :=
  let n := beAt new (udp + 4) 2
  let a := onesSum (slice old udp n)
  let b := onesSum (slice new udp n)
  if v6 then
    let t := udp + n - 2
    let d := onesSub a b
    if n % 2 = 0 then putBE new t 2 (onesFold (beAt new t 2 + d)) else putBE new t 2 (swap16 (onesFold (swap16 (beAt new t 2) + d)))
  else
    let c := beAt old (udp + 6) 2
    let v := 65535 - onesFold (65535 - c + onesSub b a)
    if c = 0 then new else putBE new (udp + 6) 2 (if v = 0 then 65535 else v)

/-- The frame is IPv6 behind up to two VLAN tags. -/
def isV6 (f : Bytes) : Bool := beAt f (vlanTags f 2 12).1 2 == 0x86DD

/-- A frame with a new correctionField and, for Sync, originTimestamp. -/
def ptpWrite (f : Bytes) (ptp udp corr : Nat) (origin : Option Nat) : Bytes :=
  let g := putBE f (ptp + 8) 8 (corr % W64)
  let g := match origin with
    | some ns => putBE (putBE g (ptp + 34) 6 (ns / 1000000000 % 2 ^ 48)) (ptp + 40) 4 (ns % 1000000000)
    | none => g
  if udp = 0 then g else udpAdjust f g udp (isV6 f)

/-- Places of the PTP header and the UDP header of a PTP event message, outside tunnels, behind up to two VLAN tags. -/
def ptpEvent (f : Bytes) : Option (Nat × Nat) :=
  let o := (vlanTags f 2 12).1
  let ty := beAt f o 2
  let at_ : Option (Nat × Nat) :=
    if ty = 0x88F7 then some (o + 2, 0)
    else
      let u := o + 2 + (if ty = 0x0800 then beAt f (o + 2) 1 % 16 * 4 else 40)
      let ip := (ty == 0x0800 && beAt f (o + 11) 1 == 17 && beAt f (o + 8) 2 % 16384 == 0) || (ty == 0x86DD && beAt f (o + 8) 1 == 17)
      if ip && beAt f (u + 2) 2 == 319 then some (u + 8, u) else none
  match at_ with
  | some (p, u) => if p + 34 ≤ f.length ∧ beAt f p 1 % 16 < 4 then some (p, u) else none
  | none => none

/-- Time from a packet's ingress stamp to an egress stamp, both in 2^-16 ns; the ingress stamp of a host frame is its
descriptor's fetch, a short stamp (log 164). -/
def Packet.residence (p : Packet) (stamp : Nat) : Nat :=
  if p.fromWire then stamp - p.stamp else (stamp + (2 ^ 77 - p.stamp * 2 ^ 13 % 2 ^ 77)) % 2 ^ 77

/-- A PTP event message with its residence time added to correctionField; any other frame as it is. -/
def Packet.resided (p : Packet) (f : Bytes) (stamp : Nat) : Bytes :=
  match ptpEvent f with
  | some (ptp, udp) => ptpWrite f ptp udp (beAt f (ptp + 8) 8 + p.residence stamp) none
  | none => f

end Sys2Proof.Machine
end

