-- ==== Sys2Proof/Machine/Queues.lean ====
section
/-! DEFINITION. The queue manager: doorbells, the push window, the descriptor cache, starting jobs, transmit data, receive
DMA and completions (spec/12_queues_and_rings.md R298 to R316, spec/01_architecture.md R26, R35, R36). -/

namespace Sys2Proof.Machine

/-! ### The descriptor cache (R196, R302, R303) -/

/-- A function may start entries: it may issue requests and is not being quiesced (spec/14_tenants.md R349). -/
def State.mayStart (s : State) (f : Nat) : Bool := s.mayDma f && s.rd F.HIF_FN_STATE_STATE f != 2

/-- Bytes of an entry. -/
def Ring.entrySize (r : Ring) : Nat :=
  match r.kind with
  | 2 => 32
  | 3 => 32
  | 5 => 128
  | _ => 64

/-- Entries in the whole cache. -/
def State.cached (s : State) : Nat := s.rings.foldl (fun a e => a + e.2.cache.length) 0

/-- The offload block of a transmit entry (spec/07_offloads.md R178). -/
def oflKind (e : Bytes) : Nat := leAt e 0x20 1
def oflCid (e : Bytes) : Nat := leAt e 0x22 2
def oflL3 (e : Bytes) : Nat := leAt e 0x24 2
def oflL4 (e : Bytes) : Nat := leAt e 0x26 2
def oflCtx (e : Bytes) : Nat := leAt e 0x28 4 % 2 ^ 20
def oflParam0 (e : Bytes) : Nat := leAt e 0x2C 4
def oflParam1 (e : Bytes) : Nat := leAt e 0x30 8
def oflFlag (e : Bytes) (k : Nat) : Bool := bit (leAt e 0x20 4) k

/-- The key of a placement entry. -/
def placeKey (session cid : Nat) : Nat := 65536 * session + cid

/-- Keeps OFL_USED. -/
def State.oflUsed (s : State) : State :=
  (((s.wr F.OFL_USED_COUNT 0 s.espSas.length).wr F.OFL_USED_COUNT 1 s.sessions.length).wr F.OFL_USED_COUNT 2 s.macsec.length).wr
    F.OFL_USED_COUNT 3 s.places.length

/-- Placement entries a function holds. -/
def State.placesOf (s : State) (f : Nat) : Nat := (s.places.filter (fun e => (s.sessions.get (e.1 / 65536)).owner == f)).length

/-- A fetched NVME_CMD entry registers its command buffer; the status is 0, CID_BUSY or NO_PLACE (R196; log 55). -/
def State.registerPlace (s : State) (key index : Nat) (e : Bytes) : State × Nat :=
  let r := s.ring key
  let se := s.sessions.get (oflCtx e)
  let k := placeKey (oflCtx e) (oflCid e)
  let old := s.places.get k
  if r.kind ≠ 1 ∨ oflKind e ≠ 5 ∨ se.state ≠ 1 ∨ se.dying ∨ !se.nvme ∨ se.owner ≠ r.fn then (s, 0)
  else if old.len ≠ 0 ∧ ¬(old.ring = key ∧ old.index = index) then (s, 0x11)
  else if old.len = 0 ∧ (1048576 ≤ s.places.length ∨ (s.fn r.fn).grants.places ≤ s.placesOf r.fn) then (s, 0x12)
  else
    let n := oflParam0 e % 2 ^ 24
    (({ s with places := s.places.set k { addr := oflParam1 e, len := if n = 0 then 2 ^ 24 else n, ring := key, index := index } }).oflUsed, 0)

/-- An entry joins its ring's cache with the epoch and stamp of now. -/
def State.cacheEntry (s : State) (key index : Nat) (b : Bytes) : State :=
  let p := s.registerPlace key index b
  p.1.modRing key (fun r => { r with
    cache := r.cache ++ [{ index := index, bytes := b, epoch := s.epochAt s.stamp, stamp := s.stamp, ofl := p.2 }] })

/-- The ring's cached entry of an index. -/
def Ring.entry (r : Ring) (index : Nat) : Option CacheEntry := r.cache.find? (fun e => e.index == index)

/-- Entries the cache has room for on this ring. -/
def State.cacheRoom (s : State) (key : Nat) : Nat := min (32 - (s.ring key).cache.length) (65536 - s.cached)

/-- A host port has one of its 2,048 descriptor fetch credits (spec/01_architecture.md R20). -/
def State.fetchCredit (s : State) (k : Nat) : Bool :=
  decide ((s.reads.filter (fun e => s.hostPort e.2.fn == k && (match e.2.who with
    | .fetch _ => true
    | _ => false))).foldl (fun a e => a + e.2.parts.length) 0 < 2048)

/-- The next descriptor fetch of a ring, when its next entry is not cached: a run of posted entries within one 4 KiB page
(log 56). -/
def State.fetchNext (s : State) (key : Nat) : State :=
  let r := s.ring key
  let slot := r.next % r.size
  let page := (4096 - slot * r.entrySize % 4096) / r.entrySize
  let n := min (min (ixSub r.pi r.next) (r.size - slot)) (min page (s.cacheRoom key))
  if r.state ≠ 1 ∨ r.fetching.isSome ∨ n = 0 ∨ (r.entry r.next).isSome ∨ !s.mayStart r.fn ∨ r.kind = 3 ∨ r.kind = 5 ∨
      !s.fetchCredit (s.hostPort r.fn) then s
  else
    let s := s.hostRead r.fn (r.base + slot * r.entrySize) r.pasid (n * r.entrySize) (.fetch key)
    s.modRing key (fun x => { x with fetching := some (x.next, n) })

/-- The rings of a host port that waited for a fetch credit fetch now. -/
def State.fetchOthers (s : State) (k : Nat) (full : Bool) : State :=
  if full then s.each (s.rings.filter (fun e => s.hostPort e.2.fn == k)) (fun e t => t.fetchNext e.1) else s

/-- The data of a ring's descriptor fetch in flight are no longer wanted. -/
def State.dropFetch (s : State) (key : Nat) : State :=
  let drop (q : HostRead) : HostRead := if q.who = .fetch key then { q with who := .nobody, discarded := true } else q
  { s.modRing key (fun r => { r with fetching := none }) with reads := s.reads.map (fun e => (e.1, drop e.2)) }

/-- Discards cached, unstarted entries of n indices from first on, counted (R303; log 57). -/
def State.invalidate (s : State) (key first n : Nat) : State :=
  let r := s.ring key
  let gone := r.cache.filter (fun e => decide (ixSub e.index first < n))
  let hits := match r.fetching with
    | some (a, k) => decide (ixSub a first < n ∨ ixSub first a < k)
    | none => false
  ((s.ringCount key C.QM_INVALIDATED gone.length).modRing key (fun x => { x with
    cache := x.cache.filter (fun e => !decide (ixSub e.index first < n)) })).when hits (fun t => t.dropFetch key)

/-! ### Doorbells and the push window (R298, R301, R302, R314, R315) -/

/-- The ring is a submission ring of any kind. -/
def Ring.submits (r : Ring) : Bool := r.kind != 3

/-- Takes or ignores each written push slot of a doorbell that posts n entries from index first. -/
def State.takePush (s : State) (key first n : Nat) (ok : Bool) : State :=
  let slots := (s.ring key).push
  let s := s.modRing key (fun r => { r with push := [] })
  s.each slots (fun e t =>
    if ok && decide (e.1 < n) && e.2.mask == 255 && (t.ring key).state == 1 && t.mayStart (t.ring key).fn && decide (0 < t.cacheRoom key) then
      (t.ringCount key C.QM_PUSH_USED 1).cacheEntry key ((first + e.1) % 2 ^ 32) (fit 64 e.2.bytes)
    else t.ringCount key C.QM_PUSH_IGNORED 1)

/-- A submission doorbell on a ring. -/
def State.sqDoorbell (s : State) (key pi : Nat) (inv : Bool) : State :=
  let r := s.ring key
  let s := if inv then s.invalidate key 0 (2 ^ 32) else s
  let ok := decide (ixSub pi r.pi ≤ r.size ∧ ixSub pi r.oldest ≤ r.size)
  let s := s.takePush key r.pi (ixSub pi r.pi) ok
  if ok then (s.modRing key (fun x => { x with pi := pi })).fetchNext key else s.stopRing key 5 3

/-- BAR0 of a function is open to its driver: not during an FLR, nor without VIN rails (spec/14_tenants.md R346). -/
def State.bar0Open (s : State) (f : Nat) : Bool := s.supply.power == .on && s.rd F.HIF_FN_STATE_STATE f != 4

/-- A write of QM_SQ_DB on a queue page. -/
def execQmSqDb (fn page : Nat) (w : Width) (v : Nat) (s : State) : Step :=
  match s.onPage fn page with
  | none => .next s
  | some key => .next (if w = .high ∨ !(s.ring key).submits ∨ !s.bar0Open fn then s
      else s.sqDoorbell key (v % 2 ^ 32) (w == .full && bit v 63))

/-- A write into a push slot; whole aligned 8-byte words count towards a whole slot. -/
def execPushSlotWrite (fn page off : Nat) (data : Bytes) (s : State) : Step :=
  match s.onPage fn page with
  | none => .next s
  | some key =>
    let r := s.ring key
    let slot := off / 64
    let o := off % 64
    let n := min data.length (64 - o)
    let whole := decide (o % 8 = 0 ∧ n % 8 = 0 ∧ 8 ≤ n)
    let mask := ((List.range 8).filter (fun k => decide (o / 8 ≤ k ∧ 8 * k < o + n))).foldl (fun a k => a + 2 ^ k) 0
    .next (if 4 ≤ slot ∨ n = 0 ∨ ¬(r.kind = 1 ∨ r.kind = 4) ∨ !s.bar0Open fn then s
      else s.modRing key (fun x => { x with push := x.push.mod slot (fun p =>
        { bytes := patch (fit 64 p.bytes) o data, mask := if whole then p.mask ||| mask else p.mask - (p.mask &&& mask) }) }))

/-- A completion doorbell on a completion ring. -/
def State.cqDoorbell (s : State) (key ci : Nat) (arm : Bool) : State :=
  let r := s.ring key
  if r.size < ixSub r.written ci then s.stopRing key 5 3
  else
    let s := s.modRing key (fun x => { x with ci := ci, times := x.times.drop (ixSub ci x.ci) })
    let s := if arm then s.modRing key (fun x => { x with armed := true, armCi := ci, firstCoal := none }) else s
    ((s.flushPend key (s.ring key).pend.length)).coalesce key

/-- A write of QM_CQ_DB; on a HEAD ring it carries ARM only (R316). -/
def execQmCqDb (fn page : Nat) (w : Width) (v : Nat) (s : State) : Step :=
  match s.onPage fn page with
  | none => .next s
  | some key =>
    let r := s.ring key
    let arm := w == .full && bit v 63
    .next (if w = .high ∨ !s.bar0Open fn then s
      else if r.kind = 3 then s.cqDoorbell key (v % 2 ^ 32) arm
      else if r.kind = 1 ∧ r.isHead ∧ arm then s.modRing key (fun x => { x with armed := true })
      else s)

/-! ### Descriptor fetches (R303, R309, R292, R35) -/

/-- Removes the outstanding read of a waiter, which makes room for requests that wait; true when its data are still wanted. -/
def State.takeRead (s : State) (who : Waiter) : State × Bool :=
  match s.reads.find? (fun e => e.2.who == who) with
  | none => (s, true)
  | some e => (({ s with reads := s.reads.erase e.1 } : State).issueWaiting, !e.2.discarded)

/-- A receive entry that stops its ring (R309). -/
def Ring.badBuffer (r : Ring) (e : Bytes) : Bool :=
  r.kind == 2 && (decide (leAt e 8 2 < r.maxFrame) || leAt e 10 2 != 0 || leAt e 14 2 != 0 || leAt e 16 16 != 0)

/-- Fetched entries enter the cache one by one; a bad receive buffer stops the ring. -/
def State.cacheAll (s : State) (key : Nat) : List (Nat × Bytes) → State
  | [] => s
  | (i, b) :: rest =>
    if (s.ring key).badBuffer b then s.stopRing key 5 4
    else (s.cacheEntry key i b).cacheAll key rest

/-- A translation fault of a ring's fetch: the ring waits for its page, or stops when the request fails (R35). -/
def State.fetchFault (s : State) (key addr : Nat) (who : Waiter) : State :=
  let r := s.ring key
  match s.pageRequest r.fn r.pasid addr false who with
  | some t => t.setRingState key 2 0
  | none => (s.pageFailed r.fn).stopRing key 4 0

/-- The data of a ring's descriptor fetch arrive, or it fails. -/
def execDescFetchComplete (ring : Nat) (reply : HostReply) (s : State) : Step :=
  let r := s.ring ring
  match r.fetching with
  | none => .next s
  | some (i, n) =>
    let t := s.takeRead (.fetch ring)
    let full := !s.fetchCredit (s.hostPort r.fn)
    let s := t.1.modRing ring (fun x => { x with fetching := none })
    .next ((if !t.2 ∨ r.state ≠ 1 then s
      else match reply with
        | .data b =>
          let es := (List.range n).map (fun k => ((i + k) % 2 ^ 32, fit r.entrySize (b.drop (k * r.entrySize))))
          ((s.ringCount ring C.QM_DESC_FETCHED n).cacheAll ring es).fetchNext ring
        | .xlateFault => s.fetchFault ring (r.base + i % r.size * r.entrySize) (.fetch ring)
        | e => (s.readFailed r.fn e).stopRing ring 5 1).fetchOthers (s.hostPort r.fn) full)

/-! ### Starting entries (R304 to R308, R313, R314) -/

/-- Fields of a transmit entry. -/
def txSeg (e : Bytes) : Bool := leAt e 11 1 == 1
def txLen (e : Bytes) : Nat := leAt e 8 4 % 2 ^ 19
def txMss (e : Bytes) : Nat := leAt e 0x18 4 % 2 ^ 14
def txHdr (e : Bytes) : Nat := bits (leAt e 0x18 4) 23 14
def txBit (e : Bytes) (k : Nat) : Bool := bit (leAt e 0x0C 4) k

/-- A transmit entry that R304 to R306 call BAD_DESC. -/
def txBad (e : Bytes) : Bool :=
  let len := txLen e
  bits (leAt e 8 4) 23 19 != 0 || decide (1 < leAt e 11 1) || decide (len = 0 ∨ 262144 < len) || bits (leAt e 0x0C 4) 31 24 != 0 ||
  bits (leAt e 0x18 4) 31 25 != 0 || bits (leAt e 0x1C 4) 15 10 != 0 || bits (leAt e 0x1C 4) 31 26 != 0 || leAt e 0x38 8 != 0 ||
  (!txSeg e && decide (16000 < len)) ||
  (txSeg e && (decide (txMss e < 64 ∨ 15986 < txMss e ∨ txHdr e < 14 ∨ 512 < txHdr e ∨ 16000 < txHdr e + txMss e) ||
    decide (len ≤ txHdr e ∨ txHdr e ≤ oflL3 e ∨ txHdr e ≤ oflL4 e))) ||
  (txBit e 18 && (oflKind e == 2 || oflKind e == 3))

/-- The offload block has a reserved KIND or a non-zero rsvd field (spec/07_offloads.md R178). -/
def oflBad (e : Bytes) : Bool := decide (5 < oflKind e) || bits (leAt e 0x20 4) 15 11 != 0 || bits (leAt e 0x28 4) 31 20 != 0

/-- A job entry that breaks its table (R308). -/
def jobBad (e : Bytes) : Bool :=
  let len := leAt e 8 4 % 2 ^ 25
  let job := leAt e 14 1
  bits (leAt e 8 4) 31 25 != 0 || decide (len = 0 ∨ 2 ^ 24 < len) || decide (job = 0 ∨ 3 < job) || bits (leAt e 0x0C 4) 31 25 != 0 ||
  bits (leAt e 0x18 4) 21 20 == 3 || bits (leAt e 0x18 4) 31 22 != 0 || leAt e 0x1E 2 != 0 || leAt e 0x30 16 != 0

/-- Bytes a job reads from SRC: none for KEY_CHECK, the tag too for a BULK_GCM that decrypts (R308). -/
def jobRead (e : Bytes) : Nat :=
  let len := leAt e 8 4 % 2 ^ 25
  match leAt e 14 1 with
  | 2 => if bit (leAt e 0x0C 4) 24 then len + 16 else len
  | 3 => len
  | _ => 0

/-- A completion offload word: STATUS and KIND. -/
def oflWord (status kind : Nat) : Nat := status * 2 ^ 24 + kind * 2 ^ 20

/-- The entry at a ring's next index may start (R314, R317). -/
def State.startable (s : State) (key : Nat) : Option CacheEntry :=
  let r := s.ring key
  let cqOk := (r.isHead && r.kind == 1) || ((s.ring r.cq).state == 1 && (s.ring r.cq).pend.isEmpty)
  if r.state = 1 ∧ (r.kind = 1 ∨ r.kind = 4) ∧ r.next ≠ r.pi ∧ cqOk ∧ s.mayStart r.fn then r.entry r.next else none

/-- The next entry of a ring is consumed from the cache. -/
def State.consume (s : State) (key : Nat) : State :=
  s.modRing key (fun r => { r with cache := r.cache.filter (fun e => e.index != r.next), next := ixNext r.next })

/-- A destroy of the context that an entry of a ring of a kind names has been accepted (spec/07_offloads.md R175). -/
def State.ctxGoing (s : State) (kind : Nat) (e : Bytes) : Bool :=
  let i := leAt e (if kind = 1 then 0x28 else 0x18) 4 % 2 ^ 20
  let esp := if kind = 1 then oflKind e == 2 else bits (leAt e 0x18 4) 21 20 == 0
  if esp then (s.espSas.get i).dying else (s.sessions.get i).dying

/-- Starts an entry as job number s.nextJob. -/
def State.startJob (s : State) (key : Nat) (e : CacheEntry) : State :=
  let r := s.ring key
  let j := s.nextJob
  let b : Job :=
    { ring := key, func := r.fn, gen := s.rd F.HIF_FN_STATE_GEN r.fn, index := e.index, tag := leAt e.bytes 0x0C 2, entry := e.bytes
      epoch := e.epoch, fetchStamp := e.stamp, noCtx := s.ctxGoing r.kind e.bytes, ofl := if e.ofl = 0 then 0 else oflWord e.ofl 4
      wantStamp := r.kind == 1 && txBit e.bytes 16 && !r.isHead }
  let s := ({ s with nextJob := j + 1 }).setJob j b
  let s := s.consume key
  let bad := if r.kind = 1 then txBad e.bytes else jobBad e.bytes
  let s := if bad then (s.ringCount key C.QM_BAD_DESC 1).failJob j 1 0
    else if r.kind = 1 ∧ oflBad e.bytes then s.failJob j 0x0B (oflWord 9 0)
    else if r.kind = 1 then s.hostRead r.fn (leAt e.bytes 0 8) r.pasid (txLen e.bytes) (.buffer j)
    else if jobRead e.bytes = 0 then s
    else s.hostRead r.fn (leAt e.bytes 0 8) r.pasid (jobRead e.bytes) (.buffer j)
  s.fetchNext key

/-- The queue manager starts the next entry of a transmit or job ring. -/
def execTxJobStart (ring : Nat) (s : State) : Step :=
  match s.startable ring with
  | none => .next s
  | some e => .next (s.startJob ring e)

/-! ### Transmit data (R26, R241, R305 to R307) -/

/-- The deferred entries an offload block gives (spec/07_offloads.md R178): parameters are the unit, the owner, L3_OFS,
L4_OFS, the tunnel flags, RETX, PARAM0 and PARAM1. -/
def blockDeferred (e : Bytes) (f group : Nat) (late : Bool) : List Deferred :=
  let ps (unit : Nat) : List Nat := [unit, f, oflL3 e, oflL4 e, 0, b2n (oflFlag e 10), oflParam0 e, oflParam1 e]
  let d (unit op : Nat) : Deferred := { group := group, op := op, ctx := oflCtx e, params := ps unit, late := late }
  match oflKind e with
  | 1 => [d 0 2]
  | 2 => if oflFlag e 8 then [d 0 2, d 1 1] else [d 1 1]
  | 3 => [d 2 1]
  | 4 => if oflFlag e 9 then [d 3 1, d 2 1] else [d 3 1]
  | 5 => if oflFlag e 9 then [d 3 1, d 2 1] else [d 3 1]
  | _ => []

/-- The order key of the next frame a port's host rings produce (spec/09_release_and_evidence.md R241). -/
def State.hostKey (s : State) (port stamp : Nat) : State × Nat :=
  let n := s.hostSeq.get port
  ({ s with hostSeq := s.hostSeq.set port ((n + 1) % 2 ^ 47) },
    stamp % W64 * W64 + s.rd F.REL_DEVICE_NUM 0 * 2 ^ 52 + port * 2 ^ 48 + 2 ^ 47 + n)

/-- The frames of a job's buffer. A segmented frame without an IP header at L3_OFS has no stated checksum. -/
def jobFrames (e buf : Bytes) (free : Nat) : List Bytes :=
  if !txSeg e then [buf.take (txLen e)]
  else
    let n := cdiv (txLen e - txHdr e) (txMss e)
    let udp := bit (leAt e 0x18 4) 24
    (List.range n).map (fun k =>
      let f := segFrame (buf.take (txLen e)) (txHdr e) (txMss e) (oflL3 e) (oflL4 e) udp (k + 1 == n) k
      if ipVersion f (oflL3 e) = 0 then putBE f (oflL4 e + csumPlace (if udp then 17 else 6)) 2 (free % 65536) else f)

/-- One frame of a job enters the ring's pipeline. -/
def State.produceFrame (s : State) (j : Nat) (b : Job) (k : Nat) (f : Bytes) : State :=
  let r := s.ring b.ring
  let port := s.queuePort r.schedQ
  let key := s.hostKey port b.fetchStamp
  let p : Packet :=
    { stage := .received, data := f, fromWire := false, ring := b.ring, func := b.func, gen := b.gen, pipe := s.servingPipe r.pipe, epoch := b.epoch
      port := if txBit b.entry 19 then bits (leAt b.entry 0x0C 4) 23 20 else port
      stamp := b.fetchStamp, job := some j, seg := k, key := key.2
      wantStamp := txBit b.entry 16 && k == 0
      launch := if txBit b.entry 17 ∧ k = 0 then some (leAt b.entry 0x10 8) else none
      oneStep := if txBit b.entry 18 then some (leAt b.entry 0x1C 4 % 2 ^ 10, bits (leAt b.entry 0x1C 4) 25 16) else none
      deferred := blockDeferred b.entry b.func r.pipe b.noCtx }
  let u := key.1.addPkt p
  if u.noPipe r.pipe then (u.discard (unitPipe r.pipe) 1).dropPkt key.1.nextPkt 6 else u

/-- A job's frames are produced; a management ring's frame goes to the management port (spec/03_ports.md R84). -/
def State.produce (s : State) (j : Nat) (b : Job) (buf : Bytes) : State :=
  if (s.ring b.ring).mgmt then
    let s := s.mgmtTx (buf.take (txLen b.entry))
    (s.setJob j { b with produced := true, wantStamp := false, segs := b.segs.set 0 { left := true, good := true } }).finishJob j
  else
    let fs := jobFrames b.entry buf s.fresh
    let s := s.when (txSeg b.entry && ipVersion buf (oflL3 b.entry) == 0) State.used
    let segs := (List.range fs.length).foldl (fun (m : SMap Seg) k => m.set k { copies := 1 }) []
    let s := s.setJob j { b with produced := true, segs := segs }
    (s.each ((List.range fs.length).zip fs) (fun e t => t.produceFrame j b e.1 e.2)).finishJob j

/-- Jobs of a ring whose buffers were not read go back to unstarted, from an index on (R317). -/
def State.unstart (s : State) (key index : Nat) : State :=
  let back := s.jobs.filter (fun e => e.2.ring == key && !e.2.produced && decide (ixSub e.2.index index < 2 ^ 31))
  let s := { s with jobs := s.jobs.filter (fun e => !(e.2.ring == key && !e.2.produced && decide (ixSub e.2.index index < 2 ^ 31))) }
  let drop (q : HostRead) : HostRead := if back.any (fun e => q.who == Waiter.buffer e.1) then { q with who := .nobody, discarded := true } else q
  let s : State := { s with reads := s.reads.map (fun r => (r.1, drop r.2)) }
  s.modRing key (fun r => { r with next := index })

/-- The oldest job of its ring whose data have not come. -/
def State.oldestRead (s : State) (j : Nat) (b : Job) : Bool :=
  !s.jobs.any (fun e => e.1 != j && e.2.ring == b.ring && !e.2.produced && decide (0 < ixSub b.index e.2.index ∧ ixSub b.index e.2.index < 2 ^ 31))

/-- The host interface may write a job's n bytes into Carafe: its transmit data queue has credits for the cells
(spec/01_architecture.md R20). -/
def State.dataCredit (s : State) (b : Job) : Bool :=
  (s.ring b.ring).mgmt || s.txDataCredit (s.hostPort b.func) (cdiv (txLen b.entry) 64)

/-- A transmit job's buffer data arrive, or its read fails. -/
def execTxBufferData (job : Nat) (reply : HostReply) (s : State) : Step :=
  match s.job job with
  | none => .next s
  | some b =>
    let r := s.ring b.ring
    if b.produced ∨ r.kind ≠ 1 ∨ !s.oldestRead job b ∨ !s.dataCredit b then .next s
    else
      let t := s.takeRead (.buffer job)
      let s := t.1
      .next (if !t.2 ∨ b.gen ≠ s.rd F.HIF_FN_STATE_GEN b.func then s.failJob job 3 0
        else match reply with
          | .data buf => s.produce job b (fit (txLen b.entry) buf)
          | .xlateFault => match s.pageRequest r.fn r.pasid (leAt b.entry 0 8) false (.buffer job) with
            | some u => u.setRingState b.ring 2 0
            | none => ((s.pageFailed r.fn).unstart b.ring b.index).stopRing b.ring 4 0
          | e => (s.readFailed r.fn e).failJob job 3 0)

/-! ### Receive DMA (R309, R310, R35, R36) -/

/-- A frame for a receive ring is dropped and counted. -/
def State.rxDrop (s : State) (h key k : Nat) : State := (s.ringCount key k 1).endPkt h false 7 0

/-- Bytes on a ring's hold list. -/
def State.heldBytes (s : State) (key : Nat) : Nat := (s.ring key).hold.foldl (fun a h => a + s.frameLen h) 0

/-- The oldest posted buffer, when it may be used now (R314). -/
def State.buffer (s : State) (key : Nat) : Option CacheEntry :=
  let r := s.ring key
  if (r.state = 1 ∨ r.state = 2) ∧ r.next ≠ r.pi ∧ (s.ring r.cq).state = 1 ∧ (s.ring r.cq).pend.isEmpty ∧ s.mayStart r.fn then r.entry r.next else none

/-- Bytes the spec leaves open. -/
def State.freeBytes (s : State) (n : Nat) : Bytes := (List.range n).map (fun k => BitVec.ofNat 8 (Config.freeValue (s.free + k)).toNat)

/-- A frame is written into a buffer and completes; badCell: its handover check failed (R27). -/
def State.place (s : State) (h key : Nat) (p : Packet) (e : CacheEntry) (held badCell : Bool) : State :=
  let r := s.ring key
  let bad := badCell || p.badCell
  let data := if bad then s.freeBytes p.data.length else if p.fromWire then p.resided p.data (s.fullStamp 0) else p.data
  let s := s.when bad (fun t => ({ t with free := t.free + p.data.length }).cellCheck (65536 + t.hostPort r.fn))
  let s := (s.consume key).markDone key e.index
  let s := s.hostWrite r.fn (leAt e.bytes 0 8) r.pasid data
  let c : Cpl :=
    { target := r.cq, ring := key, index := e.index, stamp := p.key / W64, keyLo := p.key % W64, ofl := p.ofl, len := p.data.length
      flags := cplFlags p.late p.epochHeld false false held p.group
      tag := leAt e.bytes 0x0C 2, status := if bad then 4 else 0, kind := 1 }
  let s := { s with ready := s.ready ++ [c] }
  let s := s.jentry (jringKey (ringNo key) true) (leBytes 8 (p.key / W64) ++ leBytes 8 (p.key % W64)) (p.key / W64)
  (s.endPkt h true 0 p.ofl).fetchNext key

/-- A frame joins a ring's hold list, within its budget in bytes and time (log 58). -/
def State.holdRx (s : State) (h key : Nat) (p : Packet) : State :=
  let r := s.ring key
  if r.holdKib = 0 ∨ r.holdUs = 0 ∨ r.holdKib * 1024 < s.heldBytes key then s.rxDrop h key C.QM_RX_HOLD_DROP
  else (s.setPkt h { p with stage := .onHold key, heldAt := s.now }).modRing key (fun x => { x with hold := x.hold ++ [h] })

/-- The first page of the frame's buffer that has no cached translation. -/
def State.rxMiss (s : State) (key : Nat) (p : Packet) (e : CacheEntry) : Option Nat :=
  s.pageMissing (s.ring key).fn (s.ring key).pasid (leAt e.bytes 0 8) p.data.length true

/-- The oldest held frame waits for a translation of its buffer: one Translation Request is out for the ring (R285). -/
def State.rxTranslate (s : State) (key addr : Nat) : State :=
  if s.xreqs.any (fun q => q.2.waiter == .rx key) || (s.ring key).hold.isEmpty then s
  else s.atsMiss (s.ring key).fn (s.ring key).pasid addr true (.rx key)

/-- The first frame's buffer met a translation fault: its page is requested; a request that fails at once drops the frame. -/
def State.rxFault (s : State) (h key : Nat) (e : CacheEntry) : State :=
  let r := s.ring key
  if s.preqs.any (fun q => q.2.waiter == .rx key) then s
  else match s.pageRequest r.fn r.pasid (leAt e.bytes 0 8) true (.rx key) with
    | some t => t
    | none =>
      ((s.pageFailed r.fn).modRing key (fun x => { x with hold := x.hold.filter (· != h) })).rxDrop h key C.QM_RX_HOLD_DROP

/-- The host interface takes a frame for a receive ring; fault: the buffer's page has no translation. A frame whose buffer has no
cached translation waits on the ring's hold list (spec/01_architecture.md R21). A frame with a bad ingress FCS is freed (R25). -/
def execRxDma (h : Nat) (fault badCell : Bool) (s : State) : Step :=
  match s.pkt h with
  | none => .next s
  | some p => match p.stage with
    | .rxDma key =>
      let r := s.ring key
      .next (if p.badFcs then s.freePkt h
        else if r.state = 0 ∨ r.kind ≠ 2 then (s.discard 0xF004 1).endPkt h false 7 0
        else if r.state = 6 ∨ !(s.fn r.fn).bme then (s.count .HIF_CTR (s.hostPort r.fn) C.HIF_RX_BME_DROP).endPkt h false 7 0
        else if r.stopped ∨ !s.mayStart r.fn then s.rxDrop h key C.QM_RX_STOPPED_DROP
        else if r.maxFrame < p.data.length then s.rxDrop h key C.QM_RX_TOO_LONG
        else match s.buffer key with
          | some e =>
            if !r.hold.isEmpty then s.holdRx h key p
            else if fault then (s.holdRx h key p).rxFault h key e
            else match s.rxMiss key p e with
              | some a => (s.holdRx h key p).rxTranslate key a
              | none => s.place h key p e false badCell
          | none => s.holdRx h key p)
    | _ => .next s

/-- The oldest frame of a ring's hold list is delivered once it can be. -/
def execHoldListDeliver (ring : Nat) (fault badCell : Bool) (s : State) : Step :=
  match (s.ring ring).hold with
  | [] => .next s
  | h :: _ => match s.pkt h, s.buffer ring with
    | some p, some e =>
      .next (if s.preqs.any (fun q => q.2.waiter == .rx ring) then s
        else if fault then s.rxFault h ring e
        else match s.rxMiss ring p e with
        | some a => s.rxTranslate ring a
        | none => (s.modRing ring (fun x => { x with hold := x.hold.drop 1 })).place h ring p e true badCell)
    | _, _ => .next s

/-- A frame has waited HOLD_US on its hold list. -/
def execRxHoldTimeout (h : Nat) (s : State) : Step :=
  match s.pkt h with
  | none => .next s
  | some p => match p.stage with
    | .onHold key =>
      .next (if p.heldAt + (s.ring key).holdUs * 1000 ≤ s.now then
          (s.modRing key (fun x => { x with hold := x.hold.filter (· != h) })).rxDrop h key C.QM_RX_HOLD_DROP
        else s)
    | _ => .next s

/-! ### Completions (R312 to R317, R295) -/

/-- The oldest completion ready for a completion ring is written, or joins its pending list; bad: its buffer fails the
handover check. A ring that is not RUNNING takes none (R317). -/
def execCompletionWrite (ring : Nat) (bad : Bool) (s : State) : Step :=
  match s.ready.find? (fun c => c.target == ring) with
  | none => .next s
  | some c =>
    let s := { s with ready := s.ready.erase c }
    .next (if (s.ring ring).state ≠ 1 then s
      else if bad then s.stopRing ring 5 2
      else s.postCpl ring c)

/-- COAL_US has passed since the first entry beyond the arming CI was written. -/
def execCqCoalesceExpire (ring : Nat) (s : State) : Step :=
  let r := s.ring ring
  match r.firstCoal with
  | none => .next s
  | some t => .next (if r.armed ∧ t + r.coalUs * 1000 ≤ s.now then s.ringMessage ring else s)

/-- A HEAD ring's status block is written after HEAD_US. -/
def execHeadStatusWrite (ring : Nat) (bad : Bool) (s : State) : Step :=
  let r := s.ring ring
  .next (if r.state = 0 ∨ !r.isHead ∨ r.kind ≠ 1 ∨ r.oldest = r.headShown ∨ !r.headDue s.now then s
    else if bad then s.stopRing ring 5 2
    else s.writeHead ring)

end Sys2Proof.Machine
end

