-- ==== Sys2Proof/Machine/Crypto.lean ====
section
/-! DEFINITION. Contexts, the record and PDU streams, ESP and MACsec: what the offload units do to bytes and contexts
(spec/07_offloads.md R174 to R198). -/

namespace Sys2Proof.Machine

/-! ### AES-GCM over bytes -/

/-- Bytes combined with the keystream from a position on: encryption and decryption. -/
def gcmXor (key nonce : Bytes) (pos : Nat) (data : Bytes) : Bytes :=
  data.zipIdx.map (fun e => e.1 ^^^ Config.gcmStream key nonce (pos + e.2))

/-- The 16 tag bytes. -/
def gcmTag (key nonce aad ct : Bytes) : Bytes := beBytes 16 (Config.gcmTag key nonce aad ct).toNat

/-- The key check value: the first four bytes of the tag of an empty message under a zero nonce, as a little-endian number. -/
def keyCheck (key : Bytes) : Nat := leAt (gcmTag key (List.replicate 12 0) [] []) 0 4

/-! ### Statuses, notifications, lifetimes (R177, R179, R185) -/

/-- Status codes of the status table. -/
def ST_OK : Nat := 0
def ST_AUTH_FAIL : Nat := 1
def ST_REPLAY : Nat := 2
def ST_NO_CONTEXT : Nat := 3
def ST_WRONG_OWNER : Nat := 4
def ST_CTX_FENCED : Nat := 5
def ST_EXPIRED : Nat := 6
def ST_BAD_FORMAT : Nat := 7
def ST_DIRTY_WINDOW : Nat := 8
def ST_BAD_OP : Nat := 9
def ST_NOT_DECRYPTED : Nat := 0x0A
def ST_HDR_DIGEST : Nat := 0x0B
def ST_DATA_DIGEST : Nat := 0x0C
def ST_NOT_PLACED : Nat := 0x0D
def ST_BAD_CSUM : Nat := 0x0E
def ST_LIST_FULL : Nat := 0x0F
def ST_TOO_LONG : Nat := 0x10

/-- The completion offload word after another operation (R179): flags in bits 19 to 16, AUX from TLS and NVMe/TCP. -/
def mergeOfl (old status kind flags : Nat) (aux : Option Nat) : Nat :=
  let keep := decide (bits old 31 24 ≠ 0)
  (if keep then bits old 31 20 * 2 ^ 20 else oflWord status kind) + (bits old 19 16 ||| flags) * 2 ^ 16 +
    (match aux with
      | some a => a % 2 ^ 14
      | none => bits old 13 0)

/-- A context joins its owner's pending notifications (spec/11_host_interface.md, EVT_FN.OFL_NOTIFY). -/
def State.note (s : State) (owner kind index reason : Nat) : State :=
  (if s.oflNotes.contains (owner, kind, index, reason) then s
    else { s with oflNotes := s.oflNotes ++ [(owner, kind, index, reason)] }).raiseFn owner F.EVT_FN_OFL_NOTIFY

/-- Counts and announces AUTH_FAIL and REPLAY in the serving group. -/
def State.oflStatus (s : State) (g status : Nat) : State :=
  if status = ST_AUTH_FAIL then (s.count .OFL_CTR g C.OFL_AUTH_FAIL).raiseMs (Ev.OFL_AUTH_FAIL g)
  else if status = ST_REPLAY then (s.count .OFL_CTR g C.OFL_REPLAY).raiseMs (Ev.OFL_REPLAY g)
  else s

/-- The last sequence number of an SA. -/
def EspSa.lastSeq (a : EspSa) : Nat := if a.esn then 2 ^ 64 - 1 else 2 ^ 32 - 1

/-- Writes an SA. -/
def State.setEsp (s : State) (i : Nat) (a : EspSa) : State := { s with espSas := s.espSas.set i a }

/-- An SA enters EXPIRED. -/
def State.espExpire (s : State) (i : Nat) : State :=
  let a := s.espSas.get i
  if a.state = 1 then ((s.setEsp i { a with state := 2 }).note a.owner 0 i 2).raise (Ev.OFL_EXPIRED a.home) else s

/-- A packet of n protected or verified bytes is charged to an SA: soft and hard limits (R185; log 62). -/
def State.espCharge (s : State) (i n : Nat) : State :=
  let a := s.espSas.get i
  let a := { a with bytes := (a.bytes + n) % W64, packets := (a.packets + 1) % W64 }
  let soft := decide (a.softBytes ≠ 0 ∧ a.softBytes ≤ a.bytes) || decide (a.softPkts ≠ 0 ∧ a.softPkts ≤ a.packets) ||
    (!a.inbound && decide ((a.lastSeq + 1) / 4 * 3 < a.seq))
  let hard := decide (a.hardBytes ≠ 0 ∧ a.hardBytes ≤ a.bytes) || decide (a.hardPkts ≠ 0 ∧ a.hardPkts ≤ a.packets)
  let tell := soft && !a.softTold
  let s := s.setEsp i { a with softTold := a.softTold || soft }
  let s := s.when tell (fun t => (t.note a.owner 0 i 1).raise (Ev.OFL_SOFT_LIFETIME a.home))
  s.when hard (fun t => t.espExpire i)

/-- The status of an ESP context for a function and direction; a destroy in progress holds new requests off (R175). -/
def EspSa.check (a : EspSa) (f : Nat) (inbound deferred : Bool) : Nat :=
  if a.state = 0 ∨ (a.dying ∧ !deferred) then ST_NO_CONTEXT
  else if a.owner ≠ f then ST_WRONG_OWNER
  else if a.state = 3 then ST_CTX_FENCED
  else if a.inbound ≠ inbound then ST_NO_CONTEXT
  else if a.state = 2 then ST_EXPIRED
  else ST_OK

/-- The status of a session for a function; half: the half the operation uses is in use. -/
def Session.check (a : Session) (f : Nat) (half deferred : Bool) : Nat :=
  if a.state = 0 ∨ (a.dying ∧ !deferred) then ST_NO_CONTEXT
  else if a.owner ≠ f then ST_WRONG_OWNER
  else if a.state = 3 then ST_CTX_FENCED
  else if !half then ST_NO_CONTEXT
  else ST_OK

/-- Writes a session. -/
def State.setSession (s : State) (i : Nat) (a : Session) : State := { s with sessions := s.sessions.set i a }

/-! ### Layout -/

/-- The end of the IP datagram at an offset, the frame's end where the length field reaches beyond it. -/
def ipEnd (f : Bytes) (o : Nat) : Nat :=
  match ipVersion f o with
  | 4 => min f.length (o + beAt f (o + 2) 2)
  | 6 => min f.length (o + 40 + beAt f (o + 4) 2)
  | _ => f.length

/-- A TCP header's payload offset, when a whole TCP header stands at o4 (R190, R192). -/
def tcpPayload (f : Bytes) (o3 o4 : Nat) : Option Nat :=
  let d := beAt f (o4 + 12) 1 / 16 * 4
  if ipVersion f o3 = 0 ∨ o4 < o3 + 20 ∨ f.length < o4 + 20 ∨ d < 20 ∨ ipEnd f o3 < o4 + d then none else some (o4 + d)

/-- The TCP sequence number. -/
def tcpSeq (f : Bytes) (o4 : Nat) : Nat := beAt f (o4 + 4) 4

/-- Writes the protocol of the header at o4 behind the IP header at o: behind IPv6 extension headers, into the last of them. -/
def setProto (f : Bytes) (o o4 proto : Nat) : Bytes := putBE f ((protoPlace f o o4).getD (if ipVersion f o = 4 then o + 9 else o + 6)) 1 proto

/-! ### ESP (R184, R186) -/

/-- The AAD of RFC 4106. -/
def EspSa.aad (a : EspSa) (n : Nat) : Bytes := beBytes 4 a.spi ++ (if a.esn then beBytes 8 n else beBytes 4 n)

/-- The protected part of a packet: ESP header, ciphertext and ICV for number n. -/
def EspSa.seal (a : EspSa) (n : Nat) (payload : Bytes) (next : Nat) : Bytes :=
  let pad := (4 - (payload.length + 2) % 4) % 4
  let iv := beBytes 8 n
  let plain := payload ++ (List.range pad).map (fun k => BitVec.ofNat 8 (k + 1)) ++ [BitVec.ofNat 8 pad, BitVec.ofNat 8 next]
  let ct := gcmXor a.key (a.salt ++ iv) 0 plain
  beBytes 4 a.spi ++ beBytes 4 n ++ iv ++ ct ++ gcmTag a.key (a.salt ++ iv) (a.aad n) ct

/-- The UDP header of RFC 3948 over n bytes; its checksum is zero. -/
def EspSa.udp (a : EspSa) (n : Nat) : Bytes := beBytes 2 a.sport ++ beBytes 2 a.dport ++ beBytes 2 (n + 8) ++ beBytes 2 0

/-- The outer header: template, DSCP copied, identification. -/
def EspSa.outerHeader (a : EspSa) (inner : Bytes) (id : Nat) : Bytes :=
  let t := a.outer.take (if a.outer6 then 40 else 20)
  let dscp := if ipVersion inner 0 = 6 then bits (beAt inner 0 2) 11 6 else bits (beAt inner 1 1) 7 2
  let t := if a.copyDscp then (if a.outer6 then putBE t 0 2 (putBits (beAt t 0 2) 11 6 dscp) else putBE t 1 1 (putBits (beAt t 1 1) 7 2 dscp)) else t
  if a.outer6 then t else putBE t 4 2 id

/-- A frame protected under number n (R184). -/
def EspSa.protect (a : EspSa) (f : Bytes) (o3 o4 n id : Nat) : Bytes :=
  let stop := ipEnd f o3
  if a.tunnel then
    let inner := (f.take stop).drop o3
    let body := a.seal n inner (if ipVersion f o3 = 6 then 41 else 4)
    let g := f.take o3 ++ a.outerHeader inner id ++ (if a.udpEncap then a.udp body.length else []) ++ body
    ipFinish (putBE g (if a.outer6 then o3 + 6 else o3 + 9) 1 (if a.udpEncap then 17 else 50)) o3
  else
    let body := a.seal n ((f.take stop).drop o4) (beAt f ((protoPlace f o3 o4).getD (o3 + 9)) 1)
    let g := f.take o4 ++ (if a.udpEncap then a.udp body.length else []) ++ body
    ipFinish (setProto g o3 o4 (if a.udpEncap then 17 else 50)) o3

/-- Sequence inference of R186. -/
def EspSa.infer (a : EspSa) (q : Nat) : Nat :=
  if !a.esn then q
  else
    let tl : Int := (a.seq % 2 ^ 32 : Nat)
    let th := a.seq / 2 ^ 32
    let w : Int := a.window
    let hi :=
      if w - 1 ≤ tl then (if tl - w + 1 ≤ (q : Int) then th else th + 1)
      else (if ((tl - w + 1) % 2 ^ 32 : Int) ≤ (q : Int) then th + 2 ^ 32 - 1 else th)
    hi % 2 ^ 32 * 2 ^ 32 + q

/-- Number n is outside the window or already in it. -/
def EspSa.replayed (a : EspSa) (n : Nat) : Bool :=
  decide (0 < a.window) && (decide (n + a.window ≤ a.seq) || (decide (n ≤ a.seq) && bit a.bitmap (a.seq - n)))

/-- The window after number n has passed; none when a copy updated it first. -/
def EspSa.update (a : EspSa) (n : Nat) : Option EspSa :=
  if a.seq < n then some { a with
    seq := n, bitmap := if 4096 ≤ n - a.seq then 1 else a.bitmap * 2 ^ (n - a.seq) % 2 ^ 4096 + 1 }
  else if a.window = 0 then some a
  else if bit a.bitmap (a.seq - n) then none
  else some { a with bitmap := a.bitmap + 2 ^ (a.seq - n) }

/-- What DECRYPT finds in a frame: the ESP header's offset, the low number, ciphertext, nonce and ICV. -/
structure EspParts where
  ofs : Nat
  q : Nat
  ct : Bytes
  nonce : Bytes
  icv : Bytes

/-- The parts of an ESP packet, none when the frame is not laid out so or the SPI differs. -/
def EspSa.parts (a : EspSa) (f : Bytes) (o3 o4 : Nat) : Option EspParts :=
  let o := if a.udpEncap then o4 + 8 else o4
  let stop := ipEnd f o3
  if ipVersion f o3 = 0 ∨ o4 < o3 + 20 ∨ stop < o + 34 ∨ beAt f o 4 ≠ a.spi then none
  else some { ofs := o, q := beAt f (o + 4) 4, ct := slice f (o + 16) (stop - 32 - o), nonce := a.salt ++ slice f (o + 8) 8
              icv := slice f (stop - 16) 16 }

/-- The padding bytes 1, 2, 3, … stand before the pad length. -/
def padOk (plain : Bytes) (pad : Nat) : Bool :=
  decide (pad + 2 ≤ plain.length) &&
    (slice plain (plain.length - 2 - pad) pad == (List.range pad).map (fun k => BitVec.ofNat 8 (k + 1)))

/-- The frame without its ESP parts: transport mode keeps the IP header, tunnel mode the inner packet (log 63). -/
def EspSa.strip (a : EspSa) (f : Bytes) (o3 o4 next : Nat) (payload : Bytes) : Bytes :=
  if a.tunnel then f.take o3 ++ payload else ipFinish (setProto (f.take o4 ++ payload) o3 o4 next) o3

/-! ### TLS records (R190 to R193) -/

/-- The nonce of record n: the IV xor n, left-padded. -/
def tlsNonce (iv : Bytes) (n : Nat) : Bytes := beBytes 12 (fromBE iv ^^^ n % 2 ^ 64)

/-- L of a record whose header stands. -/
def recLen (done : Bytes) : Nat := beAt done 3 2

/-- Where a record stream stands, what it has put out, and what it met. -/
structure RecRun where
  done : Bytes := []
  rec_ : Nat := 0
  out : Bytes := []
  /-- a header that is no application-data header with L in range -/
  bad : Bool := false
  ended : Option Nat := none
  count : Nat := 0
  failed : Bool := false
  /-- which bytes are inner plaintext other than each record's last -/
  marks : List Bool := []

/-- A record header that may be processed. -/
def recOk (done : Bytes) : Bool := beAt done 0 1 == 0x17 && decide (17 ≤ recLen done ∧ recLen done ≤ 16640)

/-- One byte of a record stream; tx: it is encrypted and tags are written, else it is decrypted and tags are checked. -/
def recByte (key iv : Bytes) (tx : Bool) (r : RecRun) (b : Byte) : RecRun :=
  let n := r.done.length
  if r.bad then { r with out := r.out ++ [b], marks := r.marks ++ [false] }
  else if n < 5 then
    let d := r.done ++ [b]
    { r with done := d, out := r.out ++ [b], bad := n == 4 && !recOk d, marks := r.marks ++ [false] }
  else
    let l := recLen r.done
    let nonce := tlsNonce iv r.rec_
    if n < 5 + l - 16 then
      let c := b ^^^ Config.gcmStream key nonce (n - 5)
      { r with done := r.done ++ [if tx then c else b], out := r.out ++ [c], marks := r.marks ++ [decide (n + 1 < 5 + l - 16)] }
    else
      let tag := gcmTag key nonce (r.done.take 5) (slice r.done 5 (l - 16))
      let k := n - (5 + l - 16)
      let o := if tx then (tag[k]?).getD 0 else b
      let d := r.done ++ [o]
      let r := { r with out := r.out ++ [o], marks := r.marks ++ [false] }
      if d.length = 5 + l then
        { r with done := [], rec_ := r.rec_ + 1, ended := some r.rec_, count := r.count + 1
                 failed := r.failed || (!tx && d.drop (5 + l - 16) != tag) }
      else { r with done := d }

/-- A run over some bytes. -/
def recRun (key iv : Bytes) (tx : Bool) (done : Bytes) (rec_ : Nat) (bs : Bytes) : RecRun :=
  bs.foldl (recByte key iv tx) { done := done, rec_ := rec_ }

/-- Bytes left in the record in progress, 0 at a boundary; inside a header the header's own (log 64). -/
def recLeft (done : Bytes) : Nat :=
  if done.isEmpty then 0 else if done.length < 5 then 5 - done.length else 5 + recLen done - done.length

/-! ### NVMe/TCP PDUs (R195 to R198; log 65) -/

/-- Fields of a PDU's common header. -/
def PduPos.type (p : PduPos) : Nat := leAt p.head 0 1
def PduPos.flags (p : PduPos) : Nat := leAt p.head 1 1
def PduPos.hlen (p : PduPos) : Nat := leAt p.head 2 1
def PduPos.plen (p : PduPos) : Nat := leAt p.head 4 4

/-- The PDU carries a header digest; where its data begin and end. -/
def PduPos.hasHdr (p : PduPos) (s : Session) : Bool := s.hdgst && bit p.flags 0
def PduPos.dataAt (p : PduPos) : Nat := let o := leAt p.head 3 1; if o = 0 ∨ p.plen ≤ o then p.plen else o
def PduPos.hasData (p : PduPos) (s : Session) : Bool := s.ddgst && bit p.flags 1 && decide (p.dataAt < p.plen)
def PduPos.dataEnd (p : PduPos) (s : Session) : Nat := if p.hasData s then p.plen - 4 else p.plen

/-- The common header is known and cannot be one of a PDU. -/
def PduPos.bad (p : PduPos) : Bool := decide (p.pos = 8 ∧ (p.hlen < 8 ∨ p.plen < p.hlen ∨ (leAt p.head 3 1 ≠ 0 ∧ leAt p.head 3 1 < p.hlen)))

/-- The digest of a header, and the finished data digest. -/
def PduPos.hdrDigest (p : PduPos) : Bytes := leBytes 4 (crc32c (p.head.take p.hlen)).toNat
def PduPos.dataDigest (p : PduPos) : Bytes := leBytes 4 (~~~ BitVec.ofNat 32 p.crc).toNat

/-- The position after byte b, before the end of the PDU is looked at. -/
def PduPos.step (p : PduPos) (s : Session) (b : Byte) : PduPos :=
  if p.pos < 8 ∨ p.pos < p.dataAt then { p with head := p.head ++ [b], pos := p.pos + 1 }
  else if p.pos < p.dataEnd s then { p with crc := (crcRun (BitVec.ofNat 32 p.crc) [b]).toNat, pos := p.pos + 1 }
  else { p with tail := p.tail ++ [b], pos := p.pos + 1 }

/-- The PDU is complete. -/
def PduPos.over (p : PduPos) : Bool := decide (8 ≤ p.pos ∧ p.plen ≤ p.pos)

/-- What TX_DIGEST has done to some bytes: output, and the digest bytes with their places. -/
structure DigestRun where
  pos : PduPos := {}
  out : Bytes := []
  wrote : List (Nat × Byte) := []

/-- One byte of the transmit stream at place o of the frame: digest bytes are written over. -/
def digestByte (s : Session) (r : DigestRun) (o : Nat) (b : Byte) : DigestRun :=
  let p := r.pos
  let d : Option Byte :=
    if 8 ≤ p.pos ∧ p.hasHdr s ∧ p.hlen ≤ p.pos ∧ p.pos < p.hlen + 4 then p.hdrDigest[p.pos - p.hlen]?
    else if 8 ≤ p.pos ∧ p.hasData s ∧ p.dataEnd s ≤ p.pos then p.dataDigest[p.pos - p.dataEnd s]?
    else none
  let c := d.getD b
  let q := p.step s c
  { pos := if q.over || q.bad then {} else q, out := r.out ++ [c], wrote := if d.isSome then r.wrote ++ [(o, c)] else r.wrote }

/-- A run of TX_DIGEST over a frame's bytes from o on; marks tell the stream's bytes, all of them when there are none. -/
def digestRun (s : Session) (pos : PduPos) (marks : List Bool) (o : Nat) (bs : Bytes) : DigestRun :=
  bs.zipIdx.foldl (fun r e => if marks.getD e.2 marks.isEmpty then digestByte s r (o + e.2) e.1 else { r with out := r.out ++ [e.1] }) { pos := pos }

/-- What RX_PLACE has found in a segment. -/
structure PlaceRun where
  pos : PduPos := {}
  /-- bytes left in the frame, and bytes for host memory with their addresses -/
  rest : Bytes := []
  writes : List (Nat × Byte) := []
  cid : Nat := 0
  ended : Bool := false
  dataBad : Bool := false
  hdrBad : Bool := false
  malformed : Bool := false
  /-- CIDs whose entries are released -/
  released : List Nat := []

/-- The host address of the next data byte, when the PDU is C2HData for an entry that covers it (R197). -/
def PduPos.target (p : PduPos) (places : SMap Place) (session : Nat) : Option Nat :=
  let e := places.get (placeKey session (leAt p.head 8 2))
  let datao := leAt p.head 12 4
  if p.type = 7 ∧ e.len ≠ 0 ∧ datao + leAt p.head 16 4 ≤ e.len ∧ p.pos - p.dataAt < leAt p.head 16 4 then some (e.addr + datao + (p.pos - p.dataAt)) else none

/-- One byte of the received stream. -/
def placeByte (s : Session) (places : SMap Place) (session : Nat) (r : PlaceRun) (b : Byte) : PlaceRun :=
  if r.hdrBad || r.malformed then { r with rest := r.rest ++ [b] }
  else
    let p := r.pos
    let tgt := if 8 ≤ p.pos ∧ p.dataAt ≤ p.pos ∧ p.pos < p.dataEnd s then p.target places session else none
    let q := p.step s b
    let r := match tgt with
      | some a => { r with writes := r.writes ++ [(a, b)], cid := leAt p.head 8 2 }
      | none => { r with rest := r.rest ++ [b] }
    let hdrBad := q.hasHdr s && q.head.length == q.hlen + 4 && decide (q.pos = q.hlen + 4) && slice q.head q.hlen 4 != q.hdrDigest
    if q.bad then { r with pos := {}, malformed := true }
    else if hdrBad then { r with pos := q, hdrBad := true }
    else if q.over then
      let gone := if q.type = 7 ∧ bit q.flags 3 then [leAt q.head 8 2] else if q.type = 5 then [leAt q.head 20 2] else []
      { r with pos := {}, ended := r.ended || decide (q.dataAt < q.plen)
               dataBad := r.dataBad || (q.hasData s && q.tail != q.dataDigest), released := r.released ++ gone }
    else { r with pos := q }

/-- A run of RX_PLACE. -/
def placeRun (s : Session) (places : SMap Place) (session : Nat) (marks : List Bool) (bs : Bytes) : PlaceRun :=
  bs.zipIdx.foldl (fun r e => if marks.getD e.2 marks.isEmpty then placeByte s places session r e.1 else { r with rest := r.rest ++ [e.1] })
    { pos := s.nvRx }

/-! ### MACsec (R187 to R189; log 66) -/

/-- The EtherType of the SecTAG, and of EAPOL. -/
def macsecType : Nat := 0x88E5
def eapolType : Nat := 0x888E

/-- The nonce of a packet number. -/
def MacsecSa.nonce (a : MacsecSa) (xpn : Bool) (pn : Nat) : Bytes :=
  if xpn then beBytes 12 (fromBE a.salt ^^^ (a.ssci * 2 ^ 64 + pn)) else beBytes 8 a.sci ++ beBytes 4 pn

/-- Bytes of user data left in clear by CONF_OFFSET; all of them for integrity only. -/
def confBytes (conf n : Nat) : Nat :=
  match conf with
  | 0 => 0
  | 1 => min 30 n
  | 2 => min 50 n
  | _ => n

/-- A frame protected under packet number pn. -/
def MacsecSa.protect (a : MacsecSa) (f : Bytes) (conf : Nat) (sci xpn : Bool) (pn : Nat) : Bytes :=
  let data := f.drop 12
  let tci := (if sci then 0x20 else 0) + (if conf = 3 then 0 else 0x0C) + a.an
  let head := f.take 12 ++ beBytes 2 macsecType ++ beBytes 1 tci ++ beBytes 1 (if data.length < 48 then data.length else 0) ++ beBytes 4 pn ++
    (if sci then beBytes 8 a.sci else [])
  let k := confBytes conf data.length
  let nonce := a.nonce xpn pn
  let ct := gcmXor a.key nonce 0 (data.drop k)
  head ++ data.take k ++ ct ++ gcmTag a.key nonce (head ++ data.take k) ct

/-- The transmit SA in use on a port. -/
def State.txSa (s : State) (port : Nat) : Option (Nat × MacsecSa) :=
  s.macsec.find? (fun e => e.2.state == 1 && !e.2.rx && e.2.port == port && e.2.an == s.rd F.OFL_MACSEC_PORT_TX_AN port)

/-- The port runs an XPN cipher; its last packet number. -/
def State.xpn (s : State) (port : Nat) : Bool := decide (2 ≤ s.rd F.OFL_MACSEC_PORT_CIPHER port)
def State.lastPn (s : State) (port : Nat) : Nat := if s.xpn port then 2 ^ 64 - 1 else 2 ^ 32 - 1

/-- A transmit SA has used a packet number: three quarters, and the last (R188). -/
def State.pnUsed (s : State) (i port : Nat) (n : Nat) : State :=
  let a := s.macsec.get i
  let pn := a.nextPn
  let last := s.lastPn port
  let soft := decide ((last + 1) / 4 * 3 ≤ pn) && !a.softTold
  let a := { a with
    nextPn := if pn = last then pn else pn + 1, octets := (a.octets + n) % W64, pkts := (a.pkts + 1) % W64
    softTold := a.softTold || soft, state := if pn = last then 2 else a.state }
  let s := { s with macsec := s.macsec.set i a }
  let s := s.when soft (fun t => (t.note s.manager 2 i 1).raise (Ev.OFL_SOFT_LIFETIME (port / 4)))
  s.when (decide (pn = last)) (fun t => (t.note s.manager 2 i 2).raise (Ev.OFL_EXPIRED (port / 4)))

/-- A frame handed to a MACsec port: the frame as it leaves, none when it is discarded. -/
def State.macsecTx (s : State) (port : Nat) (f : Bytes) : State × Option Bytes :=
  if !s.on F.OFL_MACSEC_PORT_EN port || beAt f 12 2 == eapolType then (s, some f)
  else if !s.on F.OFL_MACSEC_PORT_PROTECT port then (s.count .MACSEC_CTR port C.MACSEC_OutPktsUntagged, some f)
  else match s.txSa port with
    | none => (s.count .MACSEC_CTR port C.MACSEC_OutPktsDiscarded, none)
    | some (i, a) =>
      let conf := s.rd F.OFL_MACSEC_PORT_CONF_OFFSET port
      let g := a.protect f conf (s.on F.OFL_MACSEC_PORT_INCLUDE_SCI port) (s.xpn port) a.nextPn
      ((s.pnUsed i port (f.length - 12)).count .MACSEC_CTR port (if conf = 3 then C.MACSEC_OutPktsProtected else C.MACSEC_OutPktsEncrypted), some g)

/-- What a SecTAG says: AN, whether the data are encrypted, PN, the SCI if it carries one, and its length. -/
structure SecTag where
  an : Nat
  enc : Bool
  pn : Nat
  sci : Option Nat
  len : Nat

/-- The SecTAG of a frame, none when it has none. -/
def secTag (f : Bytes) : Option SecTag :=
  let tci := beAt f 14 1
  let sc := bit tci 5
  if beAt f 12 2 ≠ macsecType ∨ f.length < 12 + (if sc then 16 else 8) + 16 then none
  else some { an := tci % 4, enc := bit tci 3, pn := beAt f 16 4, sci := if sc then some (beAt f 20 8) else none, len := if sc then 16 else 8 }

/-- The full packet number: under XPN the lower half is completed from the lowest acceptable number. -/
def fullPn (next low : Nat) (xpn : Bool) : Nat :=
  if !xpn then low
  else
    let hi := next / 2 ^ 32
    if low + 2 ^ 31 < next % 2 ^ 32 then (hi + 1) * 2 ^ 32 + low else hi * 2 ^ 32 + low

/-- The frame without SecTAG and ICV, decrypted, and whether its tag verifies. -/
def MacsecSa.open_ (a : MacsecSa) (f : Bytes) (t : SecTag) (conf : Nat) (xpn : Bool) (pn : Nat) : Bytes × Bool :=
  let body := (f.take (f.length - 16)).drop (12 + t.len)
  let k := if t.enc then confBytes (if conf = 3 then 0 else conf) body.length else body.length
  let nonce := a.nonce xpn pn
  let ct := body.drop k
  (f.take 12 ++ body.take k ++ gcmXor a.key nonce 0 ct, gcmTag a.key nonce (f.take (12 + t.len) ++ body.take k) ct == f.drop (f.length - 16))

/-- A validated frame moves the lowest acceptable number and the counts of its SA. -/
def State.pnSeen (s : State) (i port pn n : Nat) : State :=
  let a := s.macsec.get i
  let w := s.rd F.OFL_MACSEC_WINDOW_WINDOW port
  { s with macsec := s.macsec.set i { a with
      nextPn := max a.nextPn (pn + 1 - w), octets := (a.octets + n) % W64, pkts := (a.pkts + 1) % W64 } }

/-- A received frame of a MACsec port after its FCS check: the frame as it goes on, none when it is discarded. -/
def State.macsecRx (s : State) (port : Nat) (f : Bytes) : State × Option Bytes :=
  let mode := s.rd F.OFL_MACSEC_PORT_VALIDATE port
  let strict := decide (2 ≤ mode)
  let cnt (s : State) (k : Nat) : State := s.count .MACSEC_CTR port k
  if !s.on F.OFL_MACSEC_PORT_EN port then (s, some f)
  else match secTag f with
    | none =>
      if beAt f 12 2 = eapolType then (s, some f)
      else if beAt f 12 2 = macsecType then (cnt s (if strict then C.MACSEC_InPktsNotValid else C.MACSEC_InPktsInvalid), if strict then none else some f)
      else (cnt s C.MACSEC_InPktsUntagged, if strict then none else some f)
    | some t =>
      let mine (e : Nat × MacsecSa) : Bool := e.2.rx && e.2.port == port && (match t.sci with
        | some c => e.2.sci == c
        | none => true)
      let bare := f.take 12 ++ (f.take (f.length - 16)).drop (12 + t.len)
      if mode = 0 then (s, some bare)
      else match s.macsec.find? (fun e => mine e && e.2.an == t.an && e.2.state == 1) with
        | none =>
          let k := if s.macsec.any mine then (if strict then C.MACSEC_InPktsNotUsingSA else C.MACSEC_InPktsUnusedSA) else C.MACSEC_InPktsNoSCI
          (cnt s k, if strict then none else some bare)
        | some (i, a) =>
          let xpn := s.xpn port
          let pn := fullPn a.nextPn t.pn xpn
          let r := a.open_ f t (s.rd F.OFL_MACSEC_PORT_CONF_OFFSET port) xpn pn
          if s.on F.OFL_MACSEC_PORT_REPLAY_PROTECT port ∧ pn < a.nextPn then (cnt s C.MACSEC_InPktsLate, if strict then none else some r.1)
          else if !r.2 then
            ((cnt s (if strict then C.MACSEC_InPktsNotValid else C.MACSEC_InPktsInvalid)).when true (fun u => u.raiseMs (Ev.OFL_AUTH_FAIL (port / 4))),
              if strict then none else some r.1)
          else (cnt (s.pnSeen i port pn (f.length - 12)) C.MACSEC_InPktsOK, some r.1)

end Sys2Proof.Machine
end

