-- ==== Sys2Proof/Machine/Offload.lean ====
section
/-! DEFINITION. The offload groups at work: requests of threads, the deferred stage, and jobs without a frame
(spec/07_offloads.md R170 to R203, spec/12_queues_and_rings.md R308). -/

namespace Sys2Proof.Machine

/-! ### Requests -/

/-- The fields of a REQUEST: unit, group, OP, DEFER, FUNC, CTX, offsets and tunnel flags. -/
def ChanMsg.unit (m : ChanMsg) : Nat := m.dest % 64
def ChanMsg.group (m : ChanMsg) : Nat := m.dest / 64 % 4
def ChanMsg.op (m : ChanMsg) : Nat := bits (m.word 0) 63 56
def ChanMsg.defer (m : ChanMsg) : Bool := bit (m.word 0) 55
def ChanMsg.func (m : ChanMsg) : Nat := bits (m.word 0) 51 40
def ChanMsg.ctx (m : ChanMsg) : Nat := bits (m.word 0) 19 0
def ChanMsg.l3 (m : ChanMsg) : Nat := bits (m.word 1) 15 0
def ChanMsg.l4 (m : ChanMsg) : Nat := bits (m.word 1) 31 16

/-- A field that must be zero is not. -/
def ChanMsg.rsvd (m : ChanMsg) : Bool := bits (m.word 0) 54 52 != 0 || bits (m.word 0) 39 20 != 0 || bits (m.word 1) 63 32 != 0 || bits (m.word 2) 63 3 != 0

/-- The endpoint table: the operations of a unit that may be deferred, and the immediate one. -/
def deferredOp (unit op : Nat) : Bool := (unit == 0 && (op == 1 || op == 2)) || (decide (1 ≤ unit ∧ unit ≤ 3) && op == 1)
def immediateOp (unit op : Nat) : Bool := (unit == 0 && op == 3) || (decide (1 ≤ unit ∧ unit ≤ 3) && op == 2)

/-- KIND of the completion offload word that an operation of a unit sets (R179). -/
def unitKind (unit : Nat) : Nat := unit + 1

/-- The commands that serve a request: 0 registration, else by unit; a request of no unit goes to CHECK, which answers
BAD_OP. -/
def ChanMsg.route (m : ChanMsg) : Nat := if m.defer then 0 else if m.unit = 1 then 2 else if m.unit = 2 then 3 else if m.unit = 3 then 4 else 1

/-- The oldest request of a thread to an offload endpoint. -/
def State.oflRequest (s : State) (t : Nat) : Option ChanMsg :=
  if s.coreStopped then none else s.chan.find? (fun m => s.sender m == t && decide (0x400 ≤ m.dest ∧ m.dest ≤ 0x4FF))

/-- What a unit answers. -/
structure OflReply where
  status : Nat := 0
  newOfs : Nat := 0
  nextProto : Nat := 0
  taken : Bool := false
  placed : Bool := false
  recEnd : Bool := false
  decrypted : Bool := false
  detail : Nat := 0
  /-- AUX of the completion offload word, from TLS and NVMe/TCP operations -/
  aux : Option Nat := none
  /-- the NVMe/TCP frame was TLS-decrypted -/
  tls : Bool := false

/-- The REPLY words. -/
def OflReply.words (r : OflReply) (op : Nat) : List Nat :=
  [2 ^ 56 * op + 2 ^ 32 * (r.newOfs % 65536) + 2 ^ 24 * (r.nextProto % 256) + 2 ^ 11 * b2n r.taken + 2 ^ 10 * b2n r.placed +
    2 ^ 9 * b2n r.recEnd + 2 ^ 8 * b2n r.decrypted + r.status % 256, r.detail % W64]

/-- Flag bits [19:16] of the completion offload word. -/
def OflReply.flags (r : OflReply) : Nat := 8 * b2n r.decrypted + 4 * b2n r.recEnd + 2 * b2n r.placed + b2n r.tls

/-- The group that serves work for a group: a fenced group's goes to the other of its die (R177). -/
def State.servingGroup (s : State) (g : Nat) : Nat := if s.isFenced (unitOfl g) 0 then g ^^^ 1 else g

/-- The group that serves a request. -/
def State.groupOf (s : State) (m : ChanMsg) : Nat := s.servingGroup m.group

/-- AUX of an answer: every TLS and NVMe/TCP operation sets it (R179). -/
def OflReply.auxOf (r : OflReply) (unit : Nat) : Option Nat := if unit = 2 ∨ unit = 3 then some (r.aux.getD 0) else none

/-- A request is answered: the packet's completion offload word, the group's counts and the REPLY. -/
def State.answer (s : State) (m : ChanMsg) (h : Nat) (r : OflReply) : State :=
  let s := match s.pkt h with
    | none => s
    | some p => s.setPkt h { p with ofl := mergeOfl p.ofl r.status (unitKind m.unit) r.flags (r.auxOf m.unit) }
  ((s.oflStatus (s.groupOf m) r.status).accepted m).reply m (r.words m.op)

/-- A request's packet, when its work is still wanted: a request to a die whose groups are both fenced and one of an ended
generation are discarded (R23, R176). A request of a thread without a packet gets a STATUS the spec does not state. -/
def State.request (s : State) (t route : Nat) (f : State → ChanMsg → Nat → Packet → State) : State :=
  match s.oflRequest t with
  | none => s
  | some m =>
    if m.route ≠ route then s
    else if m.type ≠ 1 then s.accepted m
    else if s.isFenced (unitOfl (s.groupOf m)) 0 then (s.accepted m).discard (unitOfl m.group) 1
    else match (s.thread t).pkt.bind (fun h => (s.pkt h).map (fun p => (h, p))) with
      | none => (s.used.accepted m).reply m [2 ^ 56 * m.op + s.fresh % 256, 0]
      | some (h, p) =>
        if !p.fromWire && m.gen != s.rd F.HIF_FN_STATE_GEN p.func % 256 then s.accepted m
        else if m.rsvd || !(if m.defer then deferredOp m.unit m.op else immediateOp m.unit m.op) then s.answer m h { status := ST_BAD_OP }
        else if !p.fromWire && m.func != p.func then s.answer m h { status := ST_WRONG_OWNER }
        else f s m h p

/-- The power-gated units of a group. -/
def State.oflGated (s : State) (g : Nat) : Bool := s.on F.OFL_GROUP_CTRL_GATED g

/-- The status of the context a deferred operation names. -/
def State.deferredCtx (s : State) (unit ctx f : Nat) (registered : Bool) : Nat :=
  match unit with
  | 1 => (s.espSas.get ctx).check f false registered
  | 2 => (s.sessions.get ctx).check f (s.sessions.get ctx).tlsTx registered
  | 3 => (s.sessions.get ctx).check f (s.sessions.get ctx).nvme registered
  | _ => ST_OK

/-- A deferred REQUEST is checked and registered (R172). -/
def execOflDeferRequest (t : Nat) (s : State) : Step :=
  .next (s.request t 0 (fun s m h p =>
    let st := s.deferredCtx m.unit m.ctx m.func false
    if st ≠ ST_OK then s.answer m h { status := st }
    else if 4 ≤ p.deferred.length then s.answer m h { status := ST_LIST_FULL }
    else
      let d : Deferred := { group := m.group, op := m.op, ctx := m.ctx, params := [m.unit, m.func, m.l3, m.l4, m.word 2 % 8, 0, 0, 0] }
      ((s.setPkt h { p with deferred := p.deferred ++ [d] }).accepted m).reply m [2 ^ 56 * m.op, 0]))

/-! ### Headers -/

/-- The protocol of the header at o4, when it follows the IP header at o3 (R181). -/
def l4Proto (f : Bytes) (o3 o4 : Nat) : Option Nat := (protoPlace f o3 o4).map (fun o => beAt f o 1)

/-- Bytes of the UDP header, or of the GRE header with the optional fields it says it has, at o4 (RFC 2784, RFC 2890). -/
def outerLen (f : Bytes) (o4 proto : Nat) : Nat :=
  let w := beAt f o4 2
  if proto = 17 then 8 else if proto = 47 then 4 + 4 * b2n (bit w 15) + 4 * b2n (bit w 13) + 4 * b2n (bit w 12) else 4

/-- The outer header does not lie in the frame and in its first 512 bytes (R181). -/
def outerBeyond (f : Bytes) (o4 proto : Nat) : Bool :=
  decide (512 < o4 + outerLen f o4 proto) || decide (f.length < o4 + outerLen f o4 proto)

/-- CHECK's status for a frame (R181, R183). -/
def checkStatus (f : Bytes) (o3 o4 : Nat) : Nat :=
  match l4Proto f o3 o4 with
  | none => ST_BAD_FORMAT
  | some proto =>
    let n := beAt f (o4 + 4) 2
    let badIp := ipVersion f o3 == 4 && onesFold (onesFold (sum16 (slice f o3 (ipHeaderLen f o3)))) != 65535
    if outerBeyond f o4 proto ∨ (proto = 17 ∧ (n < 8 ∨ f.length < o4 + n)) then
      ST_BAD_FORMAT
    else
      let badUdp := proto == 17 && (beAt f (o4 + 6) 2 != 0 || ipVersion f o3 == 6) &&
        onesFold (onesFold (sum16 (pseudo f o3 17 n ++ slice f o4 n))) != 65535
      if badIp || badUdp then ST_BAD_CSUM else ST_OK

/-- An immediate CHECK. -/
def execOflCheck (t : Nat) (s : State) : Step := .next (s.request t 1 (fun s m h p => s.answer m h { status := checkStatus p.data m.l3 m.l4 }))

/-- The thread's window has a dirty word (R171). -/
def State.dirtyWindow (s : State) (t : Nat) : Bool := (s.thread t).dirty != 0

/-- A rewritten frame: the window is reloaded, its dirty bits cleared and LEN written (R171). -/
def State.rewrite (s : State) (t h : Nat) (p : Packet) (f : Bytes) : State :=
  let s := s.setPkt h { p with data := f, whole := true, fields := p.fields.set 2 f.length }
  s.modThread t (fun th => { th with
    dirty := 0
    ops := ((List.range 64).foldl (fun (m : SMap Nat) k => m.set (128 + k) (beAtZ f (8 * k) 8)) th.ops).set 66 f.length })

/-! ### ESP -/

/-- DECRYPT on an inbound SA (R186). -/
def State.espDecrypt (s : State) (t : Nat) (m : ChanMsg) (h : Nat) (p : Packet) : State :=
  let a := s.espSas.get m.ctx
  let no (s : State) (st : Nat) : State := s.answer m h { status := st }
  let st := a.check m.func true false
  if st ≠ ST_OK then no s st
  else if s.dirtyWindow t then no s ST_DIRTY_WINDOW
  else match a.parts p.data m.l3 m.l4 with
    | none => no s ST_BAD_FORMAT
    | some e =>
      let n := a.infer e.q
      if a.replayed n then no s ST_REPLAY
      else if gcmTag a.key e.nonce (a.aad n) e.ct ≠ e.icv then no s ST_AUTH_FAIL
      else match a.update n with
        | none => no s ST_REPLAY
        | some b =>
          let plain := gcmXor a.key e.nonce 0 e.ct
          let pad := beAt plain (plain.length - 2) 1
          let next := beAt plain (plain.length - 1) 1
          let s := ((s.setEsp m.ctx b).espCharge m.ctx e.ct.length).count .OFL_CTR (s.groupOf m) C.OFL_ESP_DECRYPTED
          if !padOk plain pad then no s ST_BAD_FORMAT
          else
            let f := a.strip p.data m.l3 m.l4 next (plain.take (plain.length - 2 - pad))
            (s.rewrite t h p f).answer m h
              { newOfs := if a.tunnel then m.l3 else m.l4, nextProto := next, decrypted := true, detail := n }

/-- An input cell check of an immediate operation fails: its output is discarded, the frame dropped at its verdict, the failure
counted against the pipeline. The STATUS of the REPLY is not stated (R202). -/
def State.inputFails (s : State) (m : ChanMsg) (h : Nat) (p : Packet) : State :=
  let s := (s.count .OFL_CTR (s.groupOf m) C.OFL_CELL_CHECK).cellCheck (unitPipe p.pipe)
  ((s.setPkt h { p with doomed := true }).used.accepted m).reply m [2 ^ 56 * m.op + s.fresh % 256, 0]

/-- An immediate DECRYPT; a gated group holds it (R200). -/
def execEspDecrypt (x : OflInput) (s : State) : Step :=
  .next (s.request x.src 2 (fun s m h p =>
    if s.oflGated (s.groupOf m) then s else if x.bad || p.badCell then s.inputFails m h p else s.espDecrypt x.src m h p))

/-! ### Streams -/

/-- An operation on a session, among those a packet has been served for: TLS RX or RX_PLACE. -/
def askKey (session : Nat) (place : Bool) : Nat := 2 * session + b2n place

/-- An earlier packet of the same flow and pipeline may still ask for the operation on the session (R173). -/
def State.waitsTurn (s : State) (p : Packet) (session : Nat) : Bool :=
  let flow (seq : Nat) : Option Nat := (s.order.find? (fun o => o.1 == p.pipe && o.2.1 == seq)).map (·.2.2)
  s.pkts.any (fun e => e.2.pipe == p.pipe && decide (e.2.seq < p.seq) && flow e.2.seq == flow p.seq && !e.2.asked.contains session &&
    (match e.2.stage with
      | .thread _ => true
      | _ => false))

/-- The packet has been served for a session. -/
def State.asked (s : State) (h session : Nat) : State :=
  match s.pkt h with
  | none => s
  | some p => s.setPkt h { p with asked := p.asked.filter (· != session) ++ [session] }

/-- The distance from sequence number a to b, modulo 2^32. -/
def seqSub (b a : Nat) : Nat := (b + 2 ^ 32 - a) % 2 ^ 32

/-- Where a stream in SYNC, SEARCH or ARMED takes a segment up. -/
inductive Uptake
  /-- from payload byte o on -/
  | from_ (o : Nat)
  /-- not at all; the state stays -/
  | leave
  /-- not at all; the stream is lost -/
  | lose
deriving DecidableEq, Repr, Inhabited

/-- ARMED: the segment that holds the named sequence number, an earlier one, or one wholly after it (R192). -/
def armedUptake (seq n arm : Nat) : Uptake :=
  if seqSub arm seq < n then .from_ (seqSub arm seq) else if seqSub arm seq < 2 ^ 31 then .leave else .lose

/-- TLS RX's uptake of a segment of n bytes (R192). -/
def Session.tlsUptake (a : Session) (seq n : Nat) : Uptake :=
  match a.rxState with
  | 0 => if seq = a.rxExpSeq then .from_ 0 else if n ≤ seqSub a.rxExpSeq seq ∧ seqSub a.rxExpSeq seq < 2 ^ 31 then .leave else .lose
  | 1 => .leave
  | _ => armedUptake seq n a.rxArmSeq

/-- A TLS session enters SEARCH. -/
def State.tlsLost (s : State) (i : Nat) : State :=
  let a := s.sessions.get i
  ((s.setSession i { a with rxState := 1 }).note a.owner 1 i 3).raise (Ev.OFL_TLS_RESYNC a.home)

/-- RX on a segment whose payload starts at o and ends at stop. -/
def State.tlsSegment (s : State) (t : Nat) (m : ChanMsg) (h : Nat) (p : Packet) (o stop : Nat) : State :=
  let a := s.sessions.get m.ctx
  let n := stop - o
  let seq := tcpSeq p.data m.l4
  let not (s : State) : State := (s.count .OFL_CTR (s.groupOf m) C.OFL_TLS_NOT_DECRYPTED).answer m h { status := ST_NOT_DECRYPTED }
  if n = 0 then s.answer m h {}
  else match a.tlsUptake seq n with
    | .leave => not s
    | .lose => not (s.tlsLost m.ctx)
    | .from_ k =>
      let r := recRun a.rxKey a.rxIv false (if a.rxState = 2 then [] else a.rxDone) a.rxRec ((p.data.take stop).drop (o + k))
      if r.bad then (s.tlsLost m.ctx).answer m h { status := ST_BAD_FORMAT }
      else
        let f := p.data.take (o + k) ++ r.out ++ p.data.drop stop
        let s := s.setSession m.ctx { a with rxState := 0, rxExpSeq := (seq + n) % 2 ^ 32, rxRec := r.rec_, rxDone := r.done }
        let s := s.when r.failed (fun u => u.tlsLost m.ctx)
        let s := s.countBy .OFL_CTR (s.groupOf m) C.OFL_TLS_RECORDS r.count
        (s.rewrite t h { p with marks := List.replicate k false ++ r.marks } f).answer m h
          { status := if r.failed then ST_AUTH_FAIL else ST_OK, newOfs := k, recEnd := r.ended.isSome, decrypted := true
            detail := r.ended.getD 0, aux := some k }

/-- An immediate TLS RX (R171, R173, R192, R193). -/
def execTlsRx (x : OflInput) (s : State) : Step :=
  .next (s.request x.src 3 (fun s m h p =>
    let a := s.sessions.get m.ctx
    let st := a.check m.func a.tlsRx false
    if s.oflGated (s.groupOf m) || s.waitsTurn p (askKey m.ctx false) then s
    else
      let s := s.asked h (askKey m.ctx false)
      let p := (s.pkt h).getD p
      if st ≠ ST_OK then s.answer m h { status := st }
      else if s.dirtyWindow x.src then s.answer m h { status := ST_DIRTY_WINDOW }
      else if x.bad || p.badCell then s.inputFails m h p
      else match tcpPayload p.data m.l3 m.l4 with
        | none => s.answer m h { status := ST_BAD_FORMAT }
        | some o => s.tlsSegment x.src m h p o (ipEnd p.data m.l3)))

/-! ### NVMe/TCP placement (R196 to R198) -/

/-- RX_PLACE's uptake of a segment. -/
def Session.nvUptake (a : Session) (seq n : Nat) : Uptake :=
  match a.nvState with
  | 0 => if seq = a.nvRxSeq then .from_ 0 else .lose
  | 2 => armedUptake seq n a.nvRxSeq
  | _ => .leave

/-- A session enters SEARCH (1) or STOPPED (3). -/
def State.nvLost (s : State) (i st : Nat) : State :=
  let a := s.sessions.get i
  ((s.setSession i { a with nvState := st }).note a.owner 1 i 4).raise (Ev.OFL_NVME_SYNC_LOST a.home)

/-- Bytes for host memory gathered into runs of rising addresses. -/
def spans : List (Nat × Byte) → List (Nat × Bytes)
  | [] => []
  | (a, b) :: r => match spans r with
    | (c, bs) :: rest => if c = a + 1 then (a, b :: bs) :: rest else (a, [b]) :: (c, bs) :: rest
    | [] => [(a, [b])]

/-- The rest of a frame goes to the session's receive ring. -/
def State.deliverRest (s : State) (p : Packet) (a : Session) (rest : Bytes) (r : OflReply) : State :=
  s.addPkt { p with
    stage := .rxDma (rxKey a.rxRing), dstRing := rxKey a.rxRing, func := a.owner, data := rest, job := none, deferred := [], taken := false, cells := 0
    ofl := mergeOfl p.ofl r.status 4 r.flags r.aux }

/-- What placement found is carried out: host writes, released entries, the rest of the frame. -/
def State.placed (s : State) (m : ChanMsg) (h : Nat) (p : Packet) (r : PlaceRun) (o k stop : Nat) : State :=
  let a := s.sessions.get m.ctx
  let n := r.writes.length
  let s := s.each (spans r.writes) (fun w u => u.hostWrite a.owner w.1 (u.ring (rxKey a.rxRing)).pasid w.2)
  let s := (s.countBy .OFL_CTR (s.groupOf m) C.OFL_NVME_PLACED_BYTES n).when r.dataBad (fun u => u.count .OFL_CTR (s.groupOf m) C.OFL_DIGEST_ERR)
  let reply : OflReply :=
    { status := if r.dataBad then ST_DATA_DIGEST else if n = 0 ∧ !r.ended then ST_NOT_PLACED else ST_OK
      taken := decide (0 < n), placed := decide (0 < n), recEnd := r.ended
      detail := if n = 0 then 0 else 65536 * r.cid + n % 2 ^ 14, aux := some n, tls := !p.marks.isEmpty }
  let s := if n = 0 then s
    else (s.deliverRest p a (p.data.take (o + k) ++ r.rest ++ p.data.drop stop) reply).setPkt h { p with taken := true }
  s.answer m h reply

/-- The pages a frame's placement touches, in the order it meets them. -/
def placePages (writes : List (Nat × Byte)) : List Nat := (writes.map (fun w => w.1 / 4096)).eraseDups

/-- RX_PLACE on a segment; fault: the page of the placement span, by its place among them, that has no translation. -/
def State.nvSegment (s : State) (m : ChanMsg) (h : Nat) (p : Packet) (o stop : Nat) (fault : Option Nat) : State :=
  let a := s.sessions.get m.ctx
  let n := stop - o
  let seq := tcpSeq p.data m.l4
  let no (s : State) : State := s.answer m h { status := ST_NOT_PLACED }
  if n = 0 then s.answer m h {}
  else if p.badFcs then no s
  else if a.tlsRx && p.marks.isEmpty then no s
  else match a.nvUptake seq n with
    | .leave => no s
    | .lose => no (s.nvLost m.ctx 1)
    | .from_ k =>
      let b := { a with nvRx := if a.nvState = 2 then {} else a.nvRx }
      let r := placeRun b s.places m.ctx (p.marks.drop k) ((p.data.take stop).drop (o + k))
      let err (s : State) : State := s.count .OFL_CTR (s.groupOf m) C.OFL_DIGEST_ERR
      if r.malformed then (s.nvLost m.ctx 1).answer m h { status := ST_BAD_FORMAT }
      else if r.hdrBad then (err (s.nvLost m.ctx 3)).answer m h { status := ST_HDR_DIGEST }
      else
        let s := s.setSession m.ctx { a with nvState := 0, nvRxSeq := (seq + n) % 2 ^ 32, nvRx := r.pos }
        let s := ({ s with places := s.places.filter (fun e => !(e.1 / 65536 == m.ctx && r.released.contains (e.1 % 65536))) }).oflUsed
        match fault.bind (fun n => (placePages r.writes)[n]?) with
        | some page =>
          no (match s.pageRequest a.owner (s.ring (rxKey a.rxRing)).pasid (4096 * page) true .nobody with
            | some u => u
            | none => s.pageFailed a.owner)
        | none => s.placed m h p r o k stop

/-- An immediate RX_PLACE. -/
def execNvmeRxPlace (x : OflInput) (fault : Option Nat) (s : State) : Step :=
  .next (s.request x.src 4 (fun s m h p =>
    let a := s.sessions.get m.ctx
    let st := a.check m.func a.nvme false
    if s.oflGated (s.groupOf m) || s.waitsTurn p (askKey m.ctx true) then s
    else
      let s := s.asked h (askKey m.ctx true)
      let p := (s.pkt h).getD p
      if st ≠ ST_OK then s.answer m h { status := st }
      else if x.bad || p.badCell then s.inputFails m h p
      else match tcpPayload p.data m.l3 m.l4 with
        | none => s.answer m h { status := ST_BAD_FORMAT }
        | some o => s.nvSegment m h p o (ipEnd p.data m.l3) fault))

/-! ### The deferred stage -/

/-- Parameters of a deferred entry. -/
def Deferred.unit (d : Deferred) : Nat := d.params.getD 0 0
def Deferred.owner (d : Deferred) : Nat := d.params.getD 1 0
def Deferred.l3 (d : Deferred) : Nat := d.params.getD 2 0
def Deferred.l4 (d : Deferred) : Nat := d.params.getD 3 0
def Deferred.flag (d : Deferred) (k : Nat) : Bool := bit (d.params.getD 4 0) k
def Deferred.retx (d : Deferred) : Bool := d.params.getD 5 0 != 0
def Deferred.param0 (d : Deferred) : Nat := d.params.getD 6 0
def Deferred.param1 (d : Deferred) : Nat := d.params.getD 7 0

/-- The entropy source port of a HASH (R182). -/
def State.entropyPort (s : State) (hash : Nat) : Nat :=
  let lo := s.rd F.OFL_ENTROPY_PORT_MIN 0
  let e := bits hash 31 16 ^^^ bits hash 15 0 ^^^ s.rd F.OFL_ENTROPY_SEED_SEED 0
  lo + e % (s.rd F.OFL_ENTROPY_PORT_MAX 0 - lo + 1)

/-- FIX_OUTER; none: BAD_FORMAT (R180, R181). -/
def State.fixOuter (s : State) (d : Deferred) (f : Bytes) (hash : Nat) : Option Bytes :=
  let o := d.l4
  match l4Proto f d.l3 o with
  | some 17 =>
    if outerBeyond f o 17 then none
    else
      let f := putBE (ipFinish f d.l3) (o + 4) 2 (f.length - o)
      let f := if d.flag 1 then putBE f o 2 (s.entropyPort hash) else f
      let csum := d.flag 0 || (ipVersion f d.l3 == 6 && !s.on F.OFL_TUNNEL_CFG_UDP6_ZERO 0)
      some (if csum then l4Checksum f d.l3 o 17 else putBE f (o + 6) 2 0)
  | some 47 =>
    if outerBeyond f o 47 then none
    else
      let f := ipFinish f d.l3
      some (if d.flag 2 && bit (beAt f o 2) 15 then
          let z := putBE f (o + 4) 2 0
          putBE z (o + 4) 2 (inetSum (z.drop o))
        else f)
  | _ => none

/-- L4_CSUM over the datagram; none: BAD_FORMAT (R183). -/
def l4Csum (f : Bytes) (o3 o4 : Nat) : Option Bytes :=
  let stop := ipEnd f o3
  match l4Proto f o3 o4 with
  | some proto =>
    if (proto = 6 ∧ o4 + 20 ≤ stop) ∨ (proto = 17 ∧ o4 + 8 ≤ stop) then some (l4Checksum (f.take stop) o3 o4 proto ++ f.drop stop) else none
  | none => none

/-- The outcome of one deferred operation: the state, the frame, the status, flags, AUX. -/
structure OpResult where
  state : State
  frame : Bytes
  status : Nat := ST_OK
  flags : Nat := 0
  aux : Option Nat := none

/-- ENCRYPT on an outbound SA (R184, R185). -/
def State.espEncrypt (s : State) (g : Nat) (d : Deferred) (f : Bytes) : OpResult :=
  let a := s.espSas.get d.ctx
  let o3 := d.l3
  let o4 := if a.tunnel then o3 else d.l4
  let stop := ipEnd f o3
  if a.lastSeq ≤ a.seq then { state := s.espExpire d.ctx, frame := f, status := ST_EXPIRED }
  else if ipVersion f o3 = 0 ∨ stop < o4 ∨ (!a.tunnel ∧ (protoPlace f o3 o4).isNone) then { state := s, frame := f, status := ST_BAD_FORMAT }
  else
    let n := a.seq + 1
    let out := a.protect f o3 o4 n (s.outerId.get g)
    if 16000 < out.length then { state := s, frame := f, status := ST_TOO_LONG }
    else
      let s := s.when (a.tunnel && !a.outer6) (fun u => { u with outerId := u.outerId.set g ((u.outerId.get g + 1) % 65536) })
      let plain := stop - o4 + 2 + (4 - (stop - o4 + 2) % 4) % 4
      let s := (s.setEsp d.ctx { a with seq := n }).espCharge d.ctx plain
      let s := s.when (decide (n = a.lastSeq)) (fun u => u.espExpire d.ctx)
      { state := s.count .OFL_CTR g C.OFL_ESP_ENCRYPTED, frame := out }

/-- TLS TX of a retransmission: from the record start at the buffer's payload, the session left alone (R191; log 67). -/
def State.tlsRetx (s : State) (d : Deferred) (p : Packet) (f : Bytes) (o : Nat) : OpResult :=
  let a := s.sessions.get d.ctx
  let job := p.job.bind (fun j => s.job j)
  let start := ((job.bind (fun b => b.retx)).getD ([], d.param1, d.param0 % 65536))
  let r := recRun a.txKey a.txIv true start.1 start.2.1 (f.drop o)
  if r.bad then { state := s, frame := f, status := ST_BAD_FORMAT }
  else
    let s := match p.job, job with
      | some j, some b => s.setJob j { b with retx := some (r.done, r.rec_, start.2.2 - r.out.length) }
      | _, _ => s
    { state := s, frame := f.take o ++ r.out.drop start.2.2 }

/-- TLS TX (R190, R191). -/
def State.tlsTx (s : State) (g : Nat) (d : Deferred) (p : Packet) (f : Bytes) : OpResult :=
  let a := s.sessions.get d.ctx
  match tcpPayload f d.l3 d.l4 with
  | none => { state := s, frame := f, status := ST_BAD_FORMAT }
  | some o =>
    let stop := ipEnd f d.l3
    if d.retx then s.tlsRetx d p f o
    else if tcpSeq f d.l4 ≠ a.txNextSeq then { state := s, frame := f, status := ST_BAD_FORMAT }
    else if stop = o then { state := s, frame := f, aux := some 0 }
    else
      let r := recRun a.txKey a.txIv true a.txDone a.txRec ((f.take stop).drop o)
      if r.bad then { state := s, frame := f, status := ST_BAD_FORMAT }
      else
        let s := s.setSession d.ctx { a with txNextSeq := (a.txNextSeq + (stop - o)) % 2 ^ 32, txRec := r.rec_, txDone := r.done }
        { state := s.countBy .OFL_CTR g C.OFL_TLS_RECORDS r.count, frame := f.take o ++ r.out ++ f.drop stop, aux := some 0 }

/-- The end, in the job's buffer, of the bytes frame k carries. -/
def Job.frameEnd (b : Job) (k : Nat) : Nat :=
  if txSeg b.entry then min (txHdr b.entry + (k + 1) * txMss b.entry) (txLen b.entry) else txLen b.entry

/-- Digest bytes are written into the job's buffer at their own places (R195). -/
def State.writeDigests (s : State) (p : Packet) (f : Bytes) (wrote : List (Nat × Byte)) : State :=
  match p.job.bind (fun j => s.job j) with
  | none => s
  | some b =>
    let r := s.ring b.ring
    if b.gen ≠ s.rd F.HIF_FN_STATE_GEN b.func then s
    else s.each (spans (wrote.map (fun w => (leAt b.entry 0 8 + b.frameEnd p.seg + w.1 - f.length, w.2)))) (fun w u => u.hostWrite r.fn w.1 r.pasid w.2)

/-- TX_DIGEST (R195); a retransmission goes as the buffer holds it. -/
def State.txDigest (s : State) (d : Deferred) (p : Packet) (f : Bytes) : OpResult :=
  let a := s.sessions.get d.ctx
  match tcpPayload f d.l3 d.l4 with
  | none => { state := s, frame := f, status := ST_BAD_FORMAT }
  | some o =>
    let stop := ipEnd f d.l3
    if d.retx then { state := s, frame := f, aux := some 0 }
    else if tcpSeq f d.l4 ≠ a.nvTxSeq then { state := s, frame := f, status := ST_BAD_FORMAT }
    else if stop = o then { state := s, frame := f, aux := some 0 }
    else
      let pay := (f.take stop).drop o
      let marks := if a.tlsTx then (recRun a.txKey a.txIv true a.txDone a.txRec pay).marks else []
      let r := digestRun a a.nvTx marks o pay
      let s := s.setSession d.ctx { a with nvTxSeq := (a.nvTxSeq + (stop - o)) % 2 ^ 32, nvTx := r.pos }
      { state := s.writeDigests p f r.wrote, frame := f.take o ++ r.out ++ f.drop stop, aux := some 0 }

/-- One deferred entry on a frame. -/
def State.deferredOp (s : State) (g : Nat) (d : Deferred) (p : Packet) (f : Bytes) : OpResult :=
  let plain (r : Option Bytes) : OpResult := match r with
    | some out => { state := s, frame := out }
    | none => { state := s, frame := f, status := ST_BAD_FORMAT }
  let st := if d.late && d.unit != 0 then ST_NO_CONTEXT else s.deferredCtx d.unit d.ctx d.owner true
  if st ≠ ST_OK then { state := s, frame := f, status := st }
  else match d.unit, d.op with
    | 0, 1 => plain (s.fixOuter d f (bits (p.fields.get 13) 63 32))
    | 0, 2 => plain (l4Csum f d.l3 d.l4)
    | 1, _ => s.espEncrypt g d f
    | 2, _ => s.tlsTx g d p f
    | 3, _ => s.txDigest d p f
    | _, _ => { state := s, frame := f, status := ST_BAD_OP }

/-- The list runs until an entry fails, whose drop is counted and announced; a copy for the manager is made of the frame as it then
stands (R172). -/
def State.runDeferred (s : State) (h : Nat) (p : Packet) : List Deferred → State
  | [] => ((s.setPkt h { p with deferred := [] }).moveTo h .toTm).when (bit p.verdict.word 59) (fun u => u.copyToManager p)
  | d :: rest =>
    let g := s.servingGroup d.group
    if s.isFenced (unitOfl g) 0 then (s.discard (unitOfl d.group) 1).endPkt h false 0x0B p.ofl
    else if !p.fromWire && p.gen != s.rd F.HIF_FN_STATE_GEN p.func then (s.discard (unitOfl g) 1).dropPkt h 6
    else
      let r := s.deferredOp g d p p.data
      let ofl := mergeOfl p.ofl r.status (unitKind d.unit) r.flags (if d.unit = 2 ∨ d.unit = 3 then some (r.aux.getD 0) else none)
      let s := r.state.oflStatus g r.status
      if r.status ≠ ST_OK then
        ((s.count .OFL_CTR g C.OFL_DEFERRED_DROPS).raiseMs (Ev.OFL_DEFERRED_DROP g)).endPkt h false 0x0B ofl
      else s.runDeferred h { p with data := r.frame, ofl := ofl, whole := true } rest

/-- A packet's deferred list runs; bad: a cell check of the group fails (R202). A gated group holds it (R200). -/
def execDeferredStage (h : Nat) (bad : Bool) (s : State) : Step :=
  match s.pkt h with
  | none => .next s
  | some p =>
    .next (if p.stage ≠ .deferred ∨ !s.enqueueCredit p.pipe (1 + b2n (bit p.verdict.word 59)) ∨ p.deferred.any (fun d => d.unit != 0 && s.oflGated (s.servingGroup d.group)) then s
      else if bad || p.badCell then ((s.count .OFL_CTR (s.servingGroup (p.deferred.headD {}).group) C.OFL_CELL_CHECK).cellCheck (unitPipe p.pipe)).endPkt h false 0x0B p.ofl
      else s.runDeferred h p p.deferred)

/-! ### Jobs without a frame (R199, R308) -/

/-- JOB of a job entry, its context and the context's kind. -/
def jobKind (e : Bytes) : Nat := leAt e 14 1
def jobCtx (e : Bytes) : Nat := leAt e 0x18 4 % 2 ^ 20
def jobCtxKind (e : Bytes) : Nat := bits (leAt e 0x18 4) 21 20

/-- The status of a job's context for a function, its key and the KIND of the completion offload word. -/
def State.jobKey (s : State) (e : Bytes) (f : Nat) (late : Bool) : Nat × Bytes × Nat :=
  let a := s.espSas.get (jobCtx e)
  let b := s.sessions.get (jobCtx e)
  let st (n : Nat) : Nat := if late then ST_NO_CONTEXT else n
  match jobCtxKind e with
  | 0 => (st (a.check f a.inbound true), a.key, 2)
  | 1 => (st (b.check f b.tlsTx true), b.txKey, 3)
  | _ => (st (b.check f b.tlsRx true), b.rxKey, 3)

/-- A job on a job ring that waits to be served: JOB k. -/
def State.jobWaiting (s : State) (j k : Nat) : Option Job :=
  match s.job j with
  | none => none
  | some b => if (s.ring b.ring).kind = 4 ∧ !b.produced ∧ jobKind b.entry = k ∧ s.oldestRead j b then some b else none

/-- A job ends with its status, offload word and result. -/
def State.jobDone (s : State) (j status ofl result : Nat) : State :=
  match s.job j with
  | none => s
  | some b => (s.setJob j { b with produced := true, status := status, ofl := ofl, result := result }).finishJob j

/-- The read of a job's source buffer ends: f is done with its data, a failed read fails the job, a translation fault
waits for its page as a transmit ring's does (spec/01_architecture.md R35). -/
def State.jobRead (s : State) (j : Nat) (b : Job) (reply : HostReply) (f : State → Bytes → State) : State :=
  let r := s.ring b.ring
  let t := s.takeRead (.buffer j)
  let s := t.1
  if !t.2 ∨ b.gen ≠ s.rd F.HIF_FN_STATE_GEN b.func then s.failJob j 3 0
  else match reply with
    | .data buf => f s (fit (Machine.jobRead b.entry) buf)
    | .xlateFault => match s.pageRequest r.fn r.pasid (leAt b.entry 0 8) false (.buffer j) with
      | some u => u.setRingState b.ring 2 0
      | none => ((s.pageFailed r.fn).unstart b.ring b.index).stopRing b.ring 4 0
    | e => (s.readFailed r.fn e).failJob j 3 0

/-- A KEY_CHECK job: the key check value of a context the function owns. -/
def execJobKeyCheck (job : Nat) (s : State) : Step :=
  match s.jobWaiting job 1 with
  | none => .next s
  | some b =>
    let k := s.jobKey b.entry b.func b.noCtx
    .next (if s.oflGated (s.ring b.ring).pipe then s
      else if k.1 ≠ ST_OK then s.jobDone job 0x0B (oflWord k.1 k.2.2) 0
      else s.jobDone job 0 (oflWord 0 k.2.2) (keyCheck k.2.1))

/-- Source and destination of a bulk job overlap without coinciding. -/
def bulkOverlap (e : Bytes) : Bool :=
  let len := leAt e 8 4 % 2 ^ 25
  let dec := bit (leAt e 0x0C 4) 24
  let src := leAt e 0 8
  let dst := leAt e 0x10 8
  src != dst && decide (src < dst + len + (if dec then 0 else 16) ∧ dst < src + len + (if dec then 16 else 0))

/-- A bulk job's work on its source bytes. -/
def State.bulk (s : State) (j : Nat) (b : Job) (key : Bytes) (kind : Nat) (buf : Bytes) : State :=
  let e := b.entry
  let r := s.ring b.ring
  let len := leAt e 8 4 % 2 ^ 25
  let n := leAt e 0x1C 2
  let nonce := slice e 0x20 12
  let aad := buf.take n
  let body := (buf.take len).drop n
  let out := gcmXor key nonce 0 body
  let dst := leAt e 0x10 8
  if !bit (leAt e 0x0C 4) 24 then (s.hostWrite r.fn dst r.pasid (aad ++ out ++ gcmTag key nonce aad out)).jobDone j 0 (oflWord 0 kind) 0
  else if gcmTag key nonce aad body = slice buf len 16 then (s.hostWrite r.fn dst r.pasid (aad ++ out)).jobDone j 0 (oflWord 0 kind) 0
  else ((({ s with free := s.free + len }).hostWrite r.fn dst r.pasid (s.freeBytes len)).oflStatus r.pipe ST_AUTH_FAIL).jobDone j 0x0B (oflWord ST_AUTH_FAIL kind) 0

/-- The input check of a bulk job fails: no output, DATA_ERROR, counted (R202; log 211). -/
def State.bulkFails (s : State) (j : Nat) (b : Job) : State :=
  let g := (s.ring b.ring).pipe
  ((s.count .OFL_CTR g C.OFL_CELL_CHECK).cellCheck (unitPipe g)).jobDone j 4 0 0

/-- The first page of a bulk job's destination that has no cached translation. -/
def State.bulkMiss (s : State) (b : Job) : Option Nat :=
  let r := s.ring b.ring
  s.pageMissing r.fn r.pasid (leAt b.entry 0x10 8) (leAt b.entry 8 4 % 2 ^ 25 + (if bit (leAt b.entry 0x0C 4) 24 then 0 else 16)) true

/-- A BULK_GCM job, its input with it. A destination without a translation is translated first, and the source
then read again (spec/11_host_interface.md R285). -/
def execJobBulkGcm (x : OflInput) (reply : HostReply) (s : State) : Step :=
  match s.jobWaiting x.src 2 with
  | none => .next s
  | some b =>
    let k := s.jobKey b.entry b.func b.noCtx
    .next (if s.oflGated (s.ring b.ring).pipe then s
      else if k.1 ≠ ST_OK then (s.takeRead (.buffer x.src)).1.jobDone x.src 0x0B (oflWord k.1 k.2.2) 0
      else if bulkOverlap b.entry ∨ leAt b.entry 8 4 % 2 ^ 25 < leAt b.entry 0x1C 2 then
        (s.takeRead (.buffer x.src)).1.jobDone x.src 0x0B (oflWord ST_BAD_FORMAT k.2.2) 0
      else s.jobRead x.src b reply (fun s buf => if x.bad then s.bulkFails x.src b
        else match s.bulkMiss b with
          | some a => s.atsMiss (s.ring b.ring).fn (s.ring b.ring).pasid a true (.buffer x.src)
          | none => s.bulk x.src b k.2.1 k.2.2 buf))

/-- A DIGEST job: the CRC-32C of the buffer, continued from SEED. -/
def execJobDigest (job : Nat) (reply : HostReply) (s : State) : Step :=
  match s.jobWaiting job 3 with
  | none => .next s
  | some b => .next (s.jobRead job b reply (fun s buf =>
      s.jobDone job 0 0 (~~~ (crcRun (~~~ (BitVec.ofNat 32 (leAt b.entry 0x2C 4))) buf)).toNat))

/-! ### Power gating (R200; spec/18_power_reset_package.md R407) -/

/-- Some work waits for the gated units of a group. -/
def State.groupWanted (s : State) (g : Nat) : Bool :=
  s.chan.any (fun m => decide (0x400 ≤ m.dest ∧ m.dest ≤ 0x4FF) && m.group == g && !m.defer && decide (1 ≤ m.unit ∧ m.unit ≤ 3)) ||
  s.pkts.any (fun e => e.2.stage == .deferred && e.2.deferred.any (fun d => d.unit != 0 && s.servingGroup d.group == g)) ||
  s.jobs.any (fun e => !e.2.produced && (s.ring e.2.ring).kind == 4 && (s.ring e.2.ring).pipe == g && decide (jobKind e.2.entry ≤ 2))

/-- A gated group is powered. -/
def State.oflWake (s : State) (g : Nat) : State :=
  if s.oflGated g then (s.wr F.OFL_GROUP_CTRL_GATED g 0).domainOn (40 + g) else s

/-- With no ESP SA, session or placement entry left, the groups are gated. -/
def State.oflRest (s : State) : State :=
  if s.espSas.isEmpty && s.sessions.isEmpty && s.places.isEmpty then
    s.each ((List.range 4).filter (fun g => !s.oflGated g)) (fun g t => (t.wr F.OFL_GROUP_CTRL_GATED g 1).domainOff (40 + g) false)
  else s

/-- A request to a gated group wakes it. -/
def execOflGroupWake (g : Nat) (s : State) : Step :=
  .next (if g < 4 ∧ s.oflGated g ∧ s.groupWanted g then s.oflWake g else s)

end Sys2Proof.Machine
end

