-- ==== Sys2Proof/Machine/Copy.lean ====
section
/-! DEFINITION. The copy engine: channels, turns, descriptors, pacing and write-back (spec/15_copy_engine.md R358 to R371). -/

namespace Sys2Proof.Machine

/-! ### Channels -/

/-- The unit of a channel. -/
def copyUnitOf (ch : Nat) : Nat := ch / 64

/-- A channel beside its registers. -/
def State.copy (s : State) (ch : Nat) : CopyCh := s.copies.get ch

/-- Changes a channel. -/
def State.modCopy (s : State) (ch : Nat) (g : CopyCh → CopyCh) : State := { s with copies := s.copies.mod ch g }

/-- Registers of a channel. -/
def State.cpyState (s : State) (ch : Nat) : Nat := s.rd F.CPY_CH_STATUS_STATE ch
def State.cpyOwner (s : State) (ch : Nat) : Nat := s.rd F.CPY_CH_CFG_OWNER ch
def State.cpyCompat (s : State) (ch : Nat) : Bool := s.on F.CPY_CH_CFG_COMPAT ch
def State.cpyPasid (s : State) (ch : Nat) : Option Nat :=
  if s.on F.CPY_CH_CFG_PASID_EN ch then some (s.rd F.CPY_CH_CFG_PASID ch) else none
def State.cpyProgress (s : State) (ch : Nat) : Nat := s.rd F.CPY_CH_PROGRESS_PROGRESS ch
def State.cpyCur (s : State) (ch : Nat) : Nat := s.rd F.CPY_CH_CUR_ADDR ch * 32

/-- Descriptor and channel codes. -/
def CPY_MISCOMPARE : Nat := 0x01
def CPY_BAD_DESC : Nat := 0x10
def CPY_OVERLAP : Nat := 0x11
def CPY_CHAIN_LIMIT : Nat := 0x12
def CPY_NO_RESPONSE : Nat := 0x13
def CPY_XLATE_FAULT : Nat := 0x14
def CPY_DATA_ERROR : Nat := 0x15
def CPY_END : Nat := 0x20
def CPY_MGR_STOP : Nat := 0x21
def CPY_FUNC_STOP : Nat := 0x22
def CPY_BAD_CFG : Nat := 0x23
def CPY_FENCED : Nat := 0x24

/-- The event of a code (R371). -/
def State.cpyEvent (s : State) (ch code : Nat) : State :=
  match code with
  | 0x01 => s.raiseMs Ev.CPY_MISCOMPARE
  | 0x10 => s.raiseMs Ev.CPY_BAD_DESC
  | 0x11 => s.raiseMs Ev.CPY_OVERLAP
  | 0x12 => s.raise Ev.CPY_CHAIN_LIMIT
  | 0x13 => s.raise Ev.CPY_NO_RESPONSE
  | 0x14 => s.raise Ev.CPY_XLATE_FAULT
  | 0x15 => s.raise Ev.CPY_DATA_ERROR
  | 0x20 => s.when (s.cpyOwner ch == s.manager) (fun t => t.raise Ev.CPY_CHAIN_END)
  | 0x21 => s.raise Ev.CPY_MGR_STOPPED
  | 0x22 => s.raise Ev.CPY_FUNC_STOP
  | 0x23 => s.raise Ev.CPY_BAD_CFG
  | _ => s

/-- A channel ends or stops with a code: IDLE after END, else STOPPED, counted; the page response a yielded channel waits for
is discarded on arrival (R367). -/
def State.stopCopy (s : State) (ch code : Nat) : State :=
  let s := (s.wr F.CPY_CH_STATUS_STATE ch (if code = CPY_END then 0 else 4)).wr F.CPY_CH_STATUS_CODE ch code
  let s := s.when (code != CPY_END) (fun t => (t.wr F.CPY_CH_CTRL_STOP ch 0).count .CPY_CTR (copyUnitOf ch) C.CPY_STOPS)
  let s : State := s.when (s.copy ch).yielded (fun t =>
    { t with preqs := t.preqs.map (fun e => if e.2.waiter = .copy ch then (e.1, { e.2 with waiter := .nobody }) else e) })
  (s.modCopy ch (fun c => { c with desc := [], flush := none, yielded := false })).cpyEvent ch code

/-- A channel that runs between descriptors. -/
def State.cpyAtBoundary (s : State) (ch : Nat) : Bool := (s.copy ch).desc.isEmpty && s.cpyProgress ch == 0

/-- A channel between GO and its end. -/
def State.cpyActive (s : State) (ch : Nat) : Bool := decide (1 ≤ s.cpyState ch ∧ s.cpyState ch ≤ 3)

/-- RUNNING, or WAIT_PACE while a paced channel's line is low (R366). -/
def State.cpyRun (s : State) (ch : Nat) : State :=
  s.wr F.CPY_CH_STATUS_STATE ch (if s.on F.CPY_CH_CFG_PACED ch && !(s.copy ch).line then 3 else 1)

/-! ### Channel registers (R367, R370) -/

/-- GO is refused (R367). -/
def State.cpyRefused (s : State) (ch : Nat) : Bool :=
  let g := (s.fn (s.cpyOwner ch))
  let start := if s.on F.CPY_CH_CTRL_FROM_HEAD ch then s.val .CPY_CH_HEAD ch else s.val .CPY_CH_CUR ch
  !bit g.grants.features 15 || (s.on F.CPY_CH_CFG_PASID_EN ch && !g.pasidEn) || decide (g.grants.vectors ≤ s.rd F.CPY_CH_CFG_VECTOR ch) ||
    (!s.cpyCompat ch && bit start 5) || (s.cpyCompat ch && s.on F.CPY_CH_HEAD_HBM ch) || !g.bme

/-- GO; the first one since boot powers the copy engine (spec/18_power_reset_package.md R406). -/
def State.cpyGo (s : State) (ch : Nat) : State :=
  let st := s.cpyState ch
  if st ≠ 0 ∧ st ≠ 4 then s
  else if s.cpyRefused ch then (s.wr F.CPY_CH_STATUS_CODE ch CPY_BAD_CFG).cpyEvent ch CPY_BAD_CFG
  else
    let s := if s.on F.CPY_CH_CTRL_FROM_HEAD ch then
        ((s.put .CPY_CH_CUR ch (s.val .CPY_CH_HEAD ch)).wr F.CPY_CH_PROGRESS_PROGRESS ch 0).modCopy ch
          (fun c => { c with crc := none, diff := none })
      else s
    let s := s.modCopy ch (fun c => { c with desc := [], started := 0, flush := none, yielded := false })
    let s := s.when (s.rd F.PWR_DOMAIN_STATE 56 == 0) (fun t => t.domainOn 56)
    (s.wr F.CPY_CH_STATUS_COUNT ch 0).cpyRun ch

/-- STOP: at once when YIELDED or between descriptors, else at the next boundary; nothing runs on an IDLE channel
(log 76). -/
def State.cpyStop (s : State) (ch : Nat) : State :=
  if !s.cpyActive ch then s
  else if s.cpyState ch = 2 ∨ s.cpyAtBoundary ch then s.stopCopy ch CPY_MGR_STOP
  else s.wr F.CPY_CH_CTRL_STOP ch 1

/-- A manager write of CPY_CH_CTRL. -/
def State.cpyCtrl (s : State) (ch v : Nat) : State :=
  let s := s.wr F.CPY_CH_CTRL_FROM_HEAD ch (bits v 29 29)
  let s := s.when (bit v 31) (fun t => t.cpyGo ch)
  s.when (bit v 30) (fun t => t.cpyStop ch)

/-- A write of CPY_CH_CTRL with GO. -/
def execCpyGo (fn ch v : Nat) (s : State) : Step :=
  .next (if ch < 1024 then s.asManager fn (fun s => s.cpyCtrl ch (putBits v 31 31 1)) else s)

/-- A write of CPY_CH_CTRL with STOP and without GO. -/
def execCpyStop (fn ch v : Nat) (s : State) : Step :=
  .next (if ch < 1024 then s.asManager fn (fun s => s.cpyCtrl ch (putBits (putBits v 31 31 0) 30 30 1)) else s)

/-- A write of CPY_CH_CFG, CPY_CH_LIMITS or CPY_CH_HEAD at an offset takes effect while IDLE or STOPPED only. -/
def State.cpyIdleWrite (s : State) (ch off v : Nat) (f : State → State) : State :=
  if s.cpyState ch = 0 ∨ s.cpyState ch = 4 then f s else s.logFwWrite (0x0B100000 + 0x40 * ch + off) v

/-- A manager write of CPY_CH_CFG; it first returns a fenced channel to STOPPED (R370; log 77). -/
def State.cpyCfg (s : State) (ch : Nat) (w : Width) (v : Nat) : State :=
  let s := s.when (s.cpyState ch == 5) (fun t => (t.wr F.CPY_CH_STATUS_STATE ch 4).unfence (unitObject 4) ch)
  let off := if w = .high then 4 else 0
  s.cpyIdleWrite ch off v (fun s =>
    let x := merge w (s.val .CPY_CH_CFG ch) v
    s.put .CPY_CH_CFG ch (putBits x 60 43 0))

/-- A write of CPY_CH_CFG. -/
def execCpyChCfgWrite (fn ch : Nat) (w : Width) (v : Nat) (s : State) : Step :=
  .next (if ch < 1024 then s.asManager fn (fun s => s.cpyCfg ch w v) else s)

/-! ### Descriptors (R358 to R361) -/

/-- A descriptor as both formats give it. -/
structure CpyDesc where
  src : Nat
  dst : Nat
  len : Nat
  op : Nat
  srcHbm : Bool
  dstHbm : Bool
  int : Bool
  last : Bool
  barrier : Bool
  seed : Nat
  next : Nat
  nextHbm : Bool
  rsvd : Bool
deriving DecidableEq, Repr, Inhabited

/-- Reads a descriptor's bytes. -/
def cpyDecode (compat : Bool) (d : Bytes) : CpyDesc :=
  if compat then
    let w := leAt d 0x18 4
    { src := leAt d 0 8, dst := leAt d 8 8, len := bits w 23 0, op := bits w 27 24, srcHbm := false, dstHbm := false
      int := bit w 29, last := bit w 30, barrier := bit w 28, seed := leAt d 0x1C 4, next := leAt d 0x10 8 / 32 * 32, nextHbm := false
      rsvd := !bit w 30 && leAt d 0x10 8 % 32 != 0 }
  else
    let w := leAt d 0x14 4
    { src := leAt d 0 8, dst := leAt d 8 8, len := leAt d 0x10 4, op := bits w 3 0, srcHbm := bit w 4, dstHbm := bit w 5
      int := bit w 6, last := bit w 7, barrier := true, seed := leAt d 0x18 4, next := leAt d 0x20 8 / 64 * 64, nextHbm := bit (leAt d 0x20 8) 0
      rsvd := bits w 31 8 != 0 || leAt d 0x1C 4 != 0 || (!bit w 7 && bits (leAt d 0x20 8) 5 1 != 0) || leAt d 0x28 8 != 0 ||
        leAt d 0x39 3 != 0 || bits (leAt d 0x3C 4) 30 0 != 0 }

/-- A descriptor that R360 calls BAD_DESC. -/
def State.cpyBad (s : State) (ch : Nat) (d : CpyDesc) : Bool :=
  let win := s.rd F.CPY_WIN_MIB 0 * 1048576
  let own := s.cpyOwner ch == s.manager
  d.rsvd || decide (d.op = 0 ∨ 4 < d.op) || decide (d.len = 0 ∨ 16777216 < d.len) || (d.srcHbm && decide (win < d.src + d.len)) ||
    (d.dstHbm && decide (win < d.dst + d.len)) || (!d.last && d.nextHbm && decide (win < d.next + 64)) || ((d.srcHbm || d.dstHbm || (!d.last && d.nextHbm)) && !own) || (d.srcHbm && d.op == 2)

/-- Source and destination overlap in one memory. -/
def CpyDesc.overlaps (d : CpyDesc) : Bool := d.srcHbm == d.dstHbm && decide (d.src < d.dst + d.len ∧ d.dst < d.src + d.len)

/-- COPY moves from the top down (R361). -/
def CpyDesc.descends (d : CpyDesc) : Bool := d.op == 1 && d.overlaps && decide (d.src < d.dst)

/-- COPY_CRC on ranges that overlap in part. -/
def CpyDesc.refused (d : CpyDesc) : Bool := d.op == 4 && d.overlaps && d.src != d.dst

/-- The bytes that k steps complete from progress p on, at most total (R362): steps end at 4 KiB bounds of the
destination, COMPARE's of the source. -/
def CpyDesc.stepBytes (d : CpyDesc) (p total : Nat) : Nat → Nat
  | 0 => 0
  | k + 1 =>
    let base := if d.op = 3 then d.src else d.dst
    let at_ := if d.descends then base + d.len - p else base + p
    let n := if d.descends then (if at_ % 4096 = 0 then 4096 else at_ % 4096) else 4096 - at_ % 4096
    if total ≤ n then total else n + d.stepBytes (p + n) (total - n) k

/-- Bytes of the HBM window. -/
def State.winBytes (s : State) (a n : Nat) : Bytes := (List.range n).map (fun k => s.copyWin.get (a + k))

/-- HBM region 7 is the window. -/
def winRegion : Nat := 7

/-- Writes bytes into the HBM window; what maps to a fenced pseudo-channel is discarded (spec/16_memory.md R385). -/
def State.winWrite (s : State) (a : Nat) (bs : Bytes) : State :=
  (s.hbmDiscards winRegion a bs.length).each (bs.zipIdx.filter (fun b => !s.hbmOut winRegion (a + b.2)))
    (fun b t => { t with copyWin := t.copyWin.set (a + b.2) b.1 })

/-- The bytes a turn reads from the window are poisoned (R365; spec/16_memory.md R385). -/
def State.winPoisoned (s : State) (d : CpyDesc) (o n : Nat) : Bool :=
  (d.srcHbm && s.hbmPoisoned winRegion (d.src + o) n) || (d.op == 3 && d.dstHbm && s.hbmPoisoned winRegion (d.dst + o) n)

/-- The first place where two byte strings differ. -/
def firstDiff (a b : Bytes) : Option Nat := (a.zip b).findIdx? (fun p => p.1 != p.2)

/-- Moves the n bytes that follow progress p. -/
def State.cpyMove (s : State) (ch : Nat) (d : CpyDesc) (io : CopyIo) (p n : Nat) : State :=
  let o := if d.descends then d.len - p - n else p
  let f := s.cpyOwner ch
  let host (bs : Bytes) : Bytes := slice (fit d.len bs) o n
  let src := if d.op = 2 then (List.range n).map (fun k => (leBytes 8 d.src).getD ((o + k) % 8) 0)
    else if d.srcHbm then s.winBytes (d.src + o) n else host io.src
  let s := if d.op = 2 ∨ d.srcHbm ∨ n = 0 then s else s.sendRead f (d.src + o) (s.cpyPasid ch) n
  let s := s.countBy .CPY_CTR (copyUnitOf ch) C.CPY_BYTES n
  if d.op = 3 then
    let dst := if d.dstHbm then s.winBytes (d.dst + o) n else host io.dst
    let s := if d.dstHbm ∨ n = 0 then s else s.sendRead f (d.dst + o) (s.cpyPasid ch) n
    s.modCopy ch (fun c => { c with diff := c.diff.orElse (fun _ => (firstDiff src dst).map (fun k => o + k)) })
  else
    let s := if d.dstHbm then s.winWrite (d.dst + o) src else if n = 0 then s else s.hostWrite f (d.dst + o) (s.cpyPasid ch) src
    s.when (d.op == 4) (fun t => t.modCopy ch (fun c =>
      { c with crc := some (~~~ (crcRun (~~~ (BitVec.ofNat 32 (c.crc.getD d.seed))) src)).toNat }))

/-! ### Write-back and the end of a descriptor (R363 to R365) -/

/-- RESULT. -/
def State.cpyResult (s : State) (ch : Nat) (d : CpyDesc) : Nat :=
  match d.op with
  | 3 => (s.copy ch).diff.getD (2 ^ 64 - 1)
  | 4 => (s.copy ch).crc.getD d.seed
  | _ => 0

/-- Writes into descriptor memory: the HBM window or the owner's host memory. -/
def State.cpyDescWrite (s : State) (ch o : Nat) (bs : Bytes) : State :=
  if s.on F.CPY_CH_CUR_HBM ch then s.winWrite (s.cpyCur ch + o) bs else s.hostWrite (s.cpyOwner ch) (s.cpyCur ch + o) (s.cpyPasid ch) bs

/-- STATUS and RESULT, then OWN = 0, and the message. -/
def State.cpyWriteBack (s : State) (ch status result : Nat) : State :=
  let raw := (s.copy ch).desc
  let d := cpyDecode (s.cpyCompat ch) raw
  let s := if s.cpyCompat ch then
      (s.cpyDescWrite ch 0x1C (leBytes 4 result)).cpyDescWrite ch 0x18 (leBytes 4 (status + 2 ^ 24 * bits (leAt raw 0x18 4) 30 24))
    else (s.cpyDescWrite ch 0x30 (leBytes 8 result ++ leBytes 4 status)).cpyDescWrite ch 0x3C (leBytes 4 0)
  s.when d.int (fun t => t.message (t.cpyOwner ch) (t.rd F.CPY_CH_CFG_VECTOR ch))

/-- The descriptor is over with a status; the channel goes on, ends or stops. -/
def State.cpyAfter (s : State) (ch status : Nat) : State :=
  let d := cpyDecode (s.cpyCompat ch) (s.copy ch).desc
  let s := s.when (decide (status ≤ 1)) (fun t =>
    (t.wr F.CPY_CH_STATUS_COUNT ch (t.rd F.CPY_CH_STATUS_COUNT ch + 1)).count .CPY_CTR (copyUnitOf ch) C.CPY_DESCRIPTORS)
  if 2 ≤ status then s.stopCopy ch status
  else
    let s := s.when (status == 1) (fun t => t.cpyEvent ch CPY_MISCOMPARE)
    let s := (s.wr F.CPY_CH_PROGRESS_PROGRESS ch 0).modCopy ch (fun c => { c with desc := [], flush := none, crc := none, diff := none })
    if d.last then s.stopCopy ch CPY_END
    else
      let s := (s.wr F.CPY_CH_CUR_ADDR ch (d.next / 32)).wr F.CPY_CH_CUR_HBM ch (b2n d.nextHbm)
      if s.on F.CPY_CH_CTRL_STOP ch then s.stopCopy ch CPY_MGR_STOP
      else if s.rd F.HIF_FN_STATE_STATE (s.cpyOwner ch) = 2 then s.stopCopy ch CPY_FUNC_STOP
      else s.cpyRun ch

/-- A descriptor ends with a status that is written back, or whose write-back is lost. -/
def State.cpyFinish (s : State) (ch status : Nat) (lost : Bool) : State :=
  let d := cpyDecode (s.cpyCompat ch) (s.copy ch).desc
  let s := if lost then s.raise Ev.CPY_WRITEBACK_LOST
    else s.cpyWriteBack ch status (if status ≤ 1 then s.cpyResult ch d else 0)
  s.cpyAfter ch status

/-- All data are moved: a host destination is flushed before the write-back (R363, R364). -/
def State.cpyDone (s : State) (ch : Nat) (d : CpyDesc) (lost : Bool) : State :=
  let status := if d.op = 3 ∧ (s.copy ch).diff.isSome then CPY_MISCOMPARE else 0
  if d.op = 3 ∨ d.dstHbm ∨ (s.cpyCompat ch ∧ !d.barrier) then s.cpyFinish ch status lost
  else
    let n := min 4 d.len
    (s.sendRead (s.cpyOwner ch) (if d.descends then d.dst else d.dst + d.len - n) (s.cpyPasid ch) n).modCopy ch
      (fun c => { c with flush := some (status, s.cpyResult ch d) })

/-- The flush read of a unit's channel completes, or fails; then the write-back. -/
def execCpyFlushDone (ch : Nat) (failed : Option HostReply) (lost : Bool) (s : State) : Step :=
  match (s.copy ch).flush with
  | none => .next s
  | some (status, _) => .next (match failed with
    | none => s.cpyFinish ch status lost
    | some r => (s.readFailed (s.cpyOwner ch) r).cpyFinish ch CPY_NO_RESPONSE lost)

/-! ### Turns (R358, R359, R362, R366) -/

/-- The unit works: in service, not fenced, no flush of its outstanding. -/
def State.copyUnitFree (s : State) (u : Nat) : Bool :=
  s.on F.CPY_UNIT_CTRL_EN u && !s.coreStopped && !s.on F.CPY_UNIT_CTRL_FENCED u && !(List.range 64).any (fun c => (s.copy (64 * u + c)).flush.isSome)

/-- The unit's next eligible channel, from the one after the last served. -/
def State.nextCopy (s : State) (u : Nat) : Option Nat :=
  if !s.copyUnitFree u then none
  else ((List.range 64).map (fun k => 64 * u + (s.copyLast.get u + k) % 64)).find? (fun ch => s.cpyState ch == 1)

/-- A descriptor fetch that fails: the code, with nothing to write back into. -/
def State.cpyFetchFail (s : State) (ch code : Nat) : State := (s.raise Ev.CPY_WRITEBACK_LOST).stopCopy ch code

/-- A translation fault: the channel yields, or the failure is final (R362). -/
def State.cpyFault (s : State) (ch addr : Nat) (write lost : Bool) : State :=
  let f := s.cpyOwner ch
  match s.pageRequest f (s.cpyPasid ch) addr write (.copy ch) with
  | some t =>
    (((t.wr F.CPY_CH_STATUS_STATE ch 2).modCopy ch (fun c => { c with yielded := true })).count .CPY_CTR (copyUnitOf ch) C.CPY_YIELDS).raiseMs
      Ev.CPY_YIELD
  | none => if (s.copy ch).desc.isEmpty then (s.pageFailed f).cpyFetchFail ch CPY_XLATE_FAULT
      else (s.pageFailed f).cpyFinish ch CPY_XLATE_FAULT lost

/-- The descriptor at CUR is fetched and may start; otherwise the channel stops or yields. One outside the HBM window cannot be
read (log 222). -/
def State.cpyFetch (s : State) (ch : Nat) (io : CopyIo) : State :=
  let size := if s.cpyCompat ch then 32 else 64
  let take (s : State) (raw : Bytes) : State :=
    let d := cpyDecode (s.cpyCompat ch) raw
    let s := s.modCopy ch (fun c => { c with desc := raw, started := c.started + 1 })
    if s.rd F.CPY_CH_LIMITS_CHAIN_LIMIT ch < (s.copy ch).started then s.stopCopy ch CPY_CHAIN_LIMIT
    else if s.cpyBad ch d then s.cpyFinish ch CPY_BAD_DESC io.lost
    else if !d.last ∧ d.next = s.cpyCur ch ∧ d.nextHbm = s.on F.CPY_CH_CUR_HBM ch then s.stopCopy ch CPY_CHAIN_LIMIT
    else if d.refused then s.cpyFinish ch CPY_OVERLAP io.lost
    else s
  if s.on F.CPY_CH_CUR_HBM ch then
    if s.rd F.CPY_WIN_MIB 0 * 1048576 < s.cpyCur ch + size then s.cpyFetchFail ch CPY_BAD_DESC
    else if s.hbmPoisoned winRegion (s.cpyCur ch) size then s.cpyFetchFail ch CPY_DATA_ERROR
    else take s (s.winBytes (s.cpyCur ch) size)
  else
    let s := s.sendRead (s.cpyOwner ch) (s.cpyCur ch) (s.cpyPasid ch) size
    match io.desc with
    | .data b => take s (fit size b)
    | .xlateFault => s.cpyFault ch (s.cpyCur ch) false io.lost
    | .poisoned => (s.readFailed (s.cpyOwner ch) .poisoned).cpyFetchFail ch CPY_DATA_ERROR
    | .ecrc => (s.readFailed (s.cpyOwner ch) .ecrc).cpyFetchFail ch CPY_DATA_ERROR
    | r => (s.readFailed (s.cpyOwner ch) r).cpyFetchFail ch CPY_NO_RESPONSE

/-- An address on the page of the next step that has no translation, p bytes done, and whether the access is a write: a page of
the operand the steps are aligned to, or the k-th page the step touches of the other one. -/
def CpyDesc.faultAt (d : CpyDesc) (p : Nat) (other : Option Nat) : Nat × Bool :=
  let m := d.stepBytes p (d.len - p) 1
  let o := if d.descends then d.len - p - m else p
  let base := if d.op = 3 then d.src else d.dst
  match other with
  | some k =>
    let from_ := (if d.op = 3 then d.dst else d.src) + o
    (min (from_ / 4096 + k) ((from_ + m - 1) / 4096) * 4096, false)
  | none => (base + o, d.op != 3)

/-- One turn on the descriptor in progress. -/
def State.cpyTurn (s : State) (ch : Nat) (io : CopyIo) : State :=
  let d := cpyDecode (s.cpyCompat ch) (s.copy ch).desc
  let p := s.cpyProgress ch
  let left := d.len - p
  let total := if s.on F.CPY_CH_CFG_PACED ch then min (s.rd F.CPY_CH_LIMITS_BURST_KIB ch * 1024) left else left
  let n := if io.stop = .nothing then total else d.stepBytes p total io.steps
  if s.winPoisoned d (if d.descends then d.len - p - n else p) n then s.cpyFinish ch CPY_DATA_ERROR io.lost else
  let s := (s.cpyMove ch d io p n).wr F.CPY_CH_PROGRESS_PROGRESS ch (p + n)
  let failed (why : Option HostReply) : State := (why.map (s.readFailed (s.cpyOwner ch))).getD s
  match io.stop with
  | .xlateFault other =>
    let x := d.faultAt (p + n) other
    if n = total then (if p + n = d.len then s.cpyDone ch d io.lost else s.cpyRun ch) else s.cpyFault ch x.1 x.2 io.lost
  | .noResponse why => (failed why).cpyFinish ch CPY_NO_RESPONSE io.lost
  | .dataError why => (failed why).cpyFinish ch CPY_DATA_ERROR io.lost
  | .nothing => if p + n = d.len then s.cpyDone ch d io.lost else s.cpyRun ch

/-- A unit gives its next eligible channel a turn. -/
def execCpyTurn (unit : Nat) (io : CopyIo) (s : State) : Step :=
  match s.nextCopy unit with
  | none => .next s
  | some ch =>
    let s := { s with copyLast := s.copyLast.set unit ((ch + 1) % 64) }
    let t := if (s.copy ch).desc.isEmpty then s.cpyFetch ch io else s
    .next (if (t.copy ch).desc.isEmpty ∨ t.cpyState ch ≠ 1 then t else t.cpyTurn ch io)

/-- A page response reaches a yielded channel: it becomes eligible, or its descriptor ends with XLATE_FAULT (R362). -/
def State.cpyResume (s : State) (ch : Nat) (ok : Bool) : State :=
  if s.cpyState ch ≠ 2 ∨ !(s.copy ch).yielded then s
  else
    let s := s.modCopy ch (fun c => { c with yielded := false })
    if ok then s.cpyRun ch
    else if (s.copy ch).desc.isEmpty then s.cpyFetchFail ch CPY_XLATE_FAULT
    else s.cpyFinish ch CPY_XLATE_FAULT false

/-! ### What happens to the owner (R368) -/

/-- Channels of an owner. -/
def State.copiesOf (s : State) (f : Nat) : List Nat := (List.range 1024).filter (fun ch => s.cpyActive ch && s.cpyOwner ch == f)

/-- Bus Master Enable cleared, or PASID Enable cleared on a channel with a PASID: stop at once, PROGRESS kept. -/
def State.stopCopiesOf (s : State) (f : Nat) (pasidOnly : Bool) : State :=
  s.each ((s.copiesOf f).filter (fun ch => !pasidOnly || s.on F.CPY_CH_CFG_PASID_EN ch)) (fun ch t => t.stopCopy ch CPY_FUNC_STOP)

/-- FLR: stop at the step boundary, PROGRESS cleared and nothing written back. -/
def State.flrCopies (s : State) (f : Nat) : State :=
  s.each (s.copiesOf f) (fun ch t =>
    ((t.stopCopy ch CPY_FUNC_STOP).wr F.CPY_CH_PROGRESS_PROGRESS ch 0).modCopy ch (fun c => { c with crc := none, diff := none }))

/-- Quiesce: channels between descriptors, and those that wait for a page, stop; others stop at their boundary. -/
def State.quiesceCopies (s : State) (f : Nat) : State :=
  s.each ((s.copiesOf f).filter (fun ch => s.cpyAtBoundary ch || s.cpyState ch == 2)) (fun ch t => t.stopCopy ch CPY_FUNC_STOP)

/-! ### Pacing (R366) -/

/-- The oldest message to a channel's endpoint drives its request line. -/
def execCpyPaceMessage (ch : Nat) (s : State) : Step :=
  match s.chan.find? (fun m => m.dest == 0x800 + ch) with
  | none => .next s
  | some m =>
    let s := s.accepted m
    .next (if 1024 ≤ ch then s
      else if 0x4FF < m.src ∨ bits (m.word 0) 63 1 ≠ 0 then (if m.src < 1024 then s.faultLater (s.sender m) 0x07 0 else s)
      else if m.type ≠ 0 then s
      else
        let s := s.modCopy ch (fun c => { c with line := bit (m.word 0) 0 })
        if s.cpyState ch = 1 ∨ s.cpyState ch = 3 then s.cpyRun ch else s)

end Sys2Proof.Machine
end

