-- ==== Sys2Proof/Machine/Hif.lean ====
section
/-! DEFINITION. The host interface: links, Bus Master Enable, messages and event pages, the translation cache,
invalidations, page responses and read completions (spec/11_host_interface.md R271 to R294). -/

namespace Sys2Proof.Machine

/-- The state a meaning leaves. -/
def Step.after (r : Step) (s : State) : State :=
  match r with
  | .next t => t
  | _ => s

/-! ### Links (R271, R272) -/

/-- A link of a host port that exists. -/
def State.linkExists (s : State) (port link : Nat) : Bool := decide (port < 2) && (link == 0 || (link == 1 && s.bifurcated.get port))

/-- A Device Readiness Status message goes on a link that is up while firmware serves (spec/18_power_reset_package.md R413). -/
def State.sendReady (s : State) (k : Nat) : State := s.when (s.fwUp && (s.hlinks.get k).up) (fun t => t.send (.deviceReady (k / 2) (k % 2)))

/-- A link reaches L0 at a rate and width. -/
def execHifLinkUp (port link rate : Nat) (narrow : Bool) (s : State) : Step :=
  let k := 2 * port + link
  .next (if s.linkExists port link ∧ !(s.hlinks.get k).up ∧ !s.perst.get port then
    let s := ({ s with hlinks := s.hlinks.set k { up := true, rate := rate, narrow := narrow } }).raise (Ev.HIF_LINK_UP port)
    (s.when (decide (rate < 2) || (narrow && !s.bifurcated.get port)) (fun t => t.raise (Ev.HIF_LINK_DEGRADED port))).sendReady k
  else s)

/-- A link leaves L0 for detect or recovery failure. -/
def execHifLinkDown (port link : Nat) (s : State) : Step :=
  let k := 2 * port + link
  .next (if s.linkExists port link ∧ (s.hlinks.get k).up then ({ s with hlinks := s.hlinks.set k {} }).raise (Ev.HIF_LINK_DOWN port) else s)

/-! ### Messages (R282) -/

/-- Pending messages of a function whose conditions all hold are sent, one for each vector. -/
def State.sendPending (s : State) (f : Nat) : State :=
  let vs := (s.msix.filter (fun e => e.1 % 2052 == f && e.2.pending)).map (fun e => e.1 / 2052)
  s.each vs (fun v t => if t.mayMessage f v then
      ({ t with msix := t.msix.mod (msixKey f v) (fun e => { e with pending := false }) }).message f v
    else t)

/-- A vector or function is masked or unmasked, or MSI-X enabled or disabled. -/
def State.msixWrite (s : State) (f : Nat) (what : MsixWrite) : State :=
  (match what with
    | .vector v masked => { s with msix := s.msix.mod (msixKey f v) (fun e => { e with masked := masked }) }
    | .fnMask on => s.modFn f (fun g => { g with fnMask := on })
    | .enable on => s.modFn f (fun g => { g with msixEn := on })).sendPending f

/-- A host write of a message mask or enable. -/
def execMsixUnmask (f : Nat) (what : MsixWrite) (s : State) : Step := .next (if f < 2052 then s.msixWrite f what else s)

/-! ### Bus Master Enable and D-states (R294) -/

/-- Reads of a function that are outstanding are answered and dropped. -/
def State.discardReads (s : State) (f : Nat) : State :=
  { s with reads := s.reads.map (fun e => if e.2.fn = f then (e.1, { e.2 with discarded := true }) else e) }

/-- Keys of a function's rings, completion rings last. -/
def State.ringsOf (s : State) (f : Nat) : List Nat :=
  ((s.rings.filter (fun e => e.2.state != 0 && e.2.fn == f && e.2.kind != 3)).map (·.1)) ++
    ((s.rings.filter (fun e => e.2.state != 0 && e.2.fn == f && e.2.kind == 3)).map (·.1))

/-- Bus Master Enable falls. -/
def State.bmeClear (s : State) (f : Nat) : State :=
  let s := (s.modFn f (fun g => { g with bme := false })).discardReads f
  let s := s.each (s.ringsOf f) (fun k t => t.stopRing k 6 0)
  let s := (s.stopCopiesOf f false).raiseFn f F.EVT_FN_BME_STOPPED
  s.raise (Ev.HIF_BME_CLEARED (s.hostPort f))

/-- A configuration write clears Bus Master Enable. -/
def execBmeClear (f : Nat) (s : State) : Step := .next (if (s.fn f).bme then s.bmeClear f else s)

/-- A configuration write sets Bus Master Enable; stopped queues stay stopped. -/
def execBmeSet (f : Nat) (s : State) : Step := .next (if f < 2052 then (s.modFn f (fun g => { g with bme := true })).sendPending f else s)

/-- A function changes between D0 and D3hot. -/
def execDStateChange (f : Nat) (d3 : Bool) (s : State) : Step :=
  .next (if f < 2052 ∧ (s.fn f).d3 ≠ d3 then ((s.modFn f (fun g => { g with d3 := d3 })).sendPending f).raise (Ev.HIF_POWER_STATE (s.hostPort f)) else s)

/-! ### Event pages (R284) -/

/-- A set bit of a function that is routed to a vector. -/
def State.stillSet (s : State) (f vec : Nat) : Bool :=
  (s.val .EVT_FN f != 0 && s.rd F.EVT_FN_VEC_VECTOR f == vec) ||
  (decide (f < 4) && (List.range 576).any (fun src => bit (s.val .EVT_PEND (pendIx f (src / 32))) (src % 32) &&
    s.rd F.EVT_ROUTE_PF src == f && s.rd F.EVT_ROUTE_VECTOR src == vec))

/-- One more message on each named vector that still has a bit set. -/
def State.resend (s : State) (f : Nat) (vs : List Nat) : State := s.each vs.eraseDups (fun v t => if t.stillSet f v then t.message f v else t)

/-- Clears the bits of word w of a PF's EVT_PEND that a write names. -/
def State.evtPendW1c (s : State) (pf w v : Nat) : State :=
  let named := (List.range 32).filter (fun b => bit v b && decide (32 * w + b < 576))
  let old := s.val .EVT_PEND (pendIx pf w)
  let s := s.put .EVT_PEND (pendIx pf w) (old - (old &&& v % 2 ^ 32))
  s.resend pf ((named.filter (fun b => s.rd F.EVT_ROUTE_PF (32 * w + b) == pf)).map (fun b => s.rd F.EVT_ROUTE_VECTOR (32 * w + b)))

/-- A write of EVT_PEND; BAR0 is closed during an FLR. -/
def execEvtPendW1c (f w v : Nat) (s : State) : Step := .next (if f < 4 ∧ w < 18 ∧ s.bar0Open f then s.evtPendW1c f w v else s)

/-- Clears the function events that a write names; DB_FROM_FW is no such bit. -/
def State.evtFnW1c (s : State) (f v : Nat) : State :=
  let old := s.val .EVT_FN f
  let s := s.put .EVT_FN f (old - (old &&& putBits (v % 64) 1 1 0))
  if v % 64 = 0 then s else s.resend f [s.rd F.EVT_FN_VEC_VECTOR f]

/-- A write of EVT_FN. -/
def execEvtFnW1c (f v : Nat) (s : State) : Step := .next (if f < 2052 ∧ s.bar0Open f then s.evtFnW1c f v else s)

/-! ### Those who wait for a translation, a page or read data (R35, R285, R289, R292) -/

/-- A translation or page has come: what waited goes on. -/
def State.resumeWaiter (s : State) (w : Waiter) : State :=
  match w with
  | .fetch key =>
    let s := s.modRing key (fun r => { r with fetching := none })
    (s.when ((s.ring key).state == 2) (fun t => t.setRingState key 1 0)).fetchNext key
  | .buffer j => match s.job j with
    | none => s
    | some b =>
      let r := s.ring b.ring
      let s := s.when (r.state == 2) (fun t => t.setRingState b.ring 1 0)
      if b.produced then s
      else s.hostRead r.fn (leAt b.entry 0 8) r.pasid (if r.kind = 1 then txLen b.entry else Machine.jobRead b.entry) (.buffer j)
  | .copy ch => s.cpyResume ch true
  | .journal => { s with journal := { s.journal with faulted := false } }
  | .cpl key =>
    let s := s.when ((s.ring key).state == 2) (fun t => t.setRingState key 1 0)
    s.flushPend key (s.ring key).pend.length
  | .head key => s.writeHead key
  | _ => s

/-- A page request, or a translation, has failed: the job that met it fails (the table of R35). -/
def State.failWaiter (s : State) (w : Waiter) : State :=
  match w with
  | .fetch key => (s.modRing key (fun r => { r with fetching := none })).stopRing key 4 0
  | .buffer j => match s.job j with
    | none => s
    | some b => (s.unstart b.ring b.index).stopRing b.ring 4 0
  | .rx key => match (s.ring key).hold with
    | [] => s
    | h :: rest => (s.modRing key (fun r => { r with hold := rest })).rxDrop h key C.QM_RX_HOLD_DROP
  | .copy ch => s.cpyResume ch false
  | .cpl key | .head key => s.stopRing key 4 0
  | .thread t => s.xlateFails t
  | .journal => ({ s with journal := { s.journal with faulted := false, stopped := true } }).raise Ev.JNL_XLATE_FAULT
  | .nobody => s

/-- A translation fault of what waits: its page is requested, or it fails at once (R285). -/
def State.faultWaiter (s : State) (q : XReq) : State :=
  match q.waiter with
  | .fetch key => (s.modRing key (fun r => { r with fetching := none })).fetchFault key (4096 * q.page) (.fetch key)
  | .buffer j => match s.pageRequest q.fn q.pasid (4096 * q.page) q.write (.buffer j), s.job j with
    | some u, some b => u.setRingState b.ring 2 0
    | _, _ => (s.pageFailed q.fn).failWaiter (.buffer j)
  | .cpl key => match s.pageRequest q.fn q.pasid (4096 * q.page) q.write (.cpl key) with
    | some u => u.setRingState key 2 0
    | none => (s.pageFailed q.fn).failWaiter (.cpl key)
  | w => match s.pageRequest q.fn q.pasid (4096 * q.page) q.write w with
    | some u => u
    | none => (s.pageFailed q.fn).failWaiter w

/-! ### Translations (R285 to R288) -/

/-- A completion is unexpected: discarded, counted, announced and reported to the host (R293). -/
def State.lateCpl (s : State) (port : Nat) : State :=
  ((s.count .HIF_CTR port C.HIF_LATE_CPL).raiseMs (Ev.HIF_LATE_CPL port)).send (.unexpectedCompletion port)

/-- Fills the cache: a function at its limit gives up its own least recently used entry, else the port's goes. -/
def State.atsFill (s : State) (e : AtsEntry) : State :=
  let same (x : AtsEntry) : Bool := x.port == e.port && x.fn == e.fn && x.pasid == e.pasid && x.base == e.base
  let s : State := { s with ats := s.ats.filter (fun x => !same x) }
  let mine := (s.ats.filter (fun x => x.port == e.port && x.fn == e.fn)).length
  let limit := s.rd F.ATS_FN_LIMIT_LIMIT e.fn
  let victim := if limit ≤ mine then s.ats.find? (fun x => x.port == e.port && x.fn == e.fn)
    else if 32768 ≤ (s.ats.filter (fun x => x.port == e.port)).length then s.ats.find? (fun x => x.port == e.port) else none
  let s := match victim with
    | some x => { s with ats := s.ats.erase x }
    | none => s
  ({ s with ats := s.ats ++ [e] }).when (decide (limit ≤ mine + 1)) (fun t => t.raiseLimited (Ev.HIF_ATS_LIMIT e.port) 0 1000000000)

/-- A Translation Completion for an outstanding request. -/
def State.xlate (s : State) (q : XReq) (r : XlateReply) : State :=
  let again (s : State) : State := s.atsMiss q.fn q.pasid (4096 * q.page) q.write q.waiter
  if q.tainted then again s
  else match r with
    | .damaged => again s
    | .failed => ((s.raiseMs (Ev.HIF_ATS_XLATE_ERROR (s.hostPort q.fn)))).failWaiter q.waiter
    | .noAccess => s.faultWaiter q
    | .granted base tbase size rd wr =>
      if if q.write then !wr else !rd then s.faultWaiter q
      else (s.atsFill { port := s.hostPort q.fn, fn := q.fn, pasid := q.pasid, base := base, tbase := tbase, size := size, rd := rd, wr := wr }).resumeWaiter q.waiter

/-- A Translation Completion arrives. -/
def execTranslationCompletion (req : Nat) (r : XlateReply) (s : State) : Step :=
  match s.xreqs.find? (fun e => e.1 == req && decide (e.1 < 16384)) with
  | none => .next s
  | some (_, q) =>
    let s := { s with xreqs := s.xreqs.erase req }
    .next (if q.since + q.us * 1000 ≤ s.now then (((s.readFailed q.fn .timeout).failWaiter q.waiter).lateCpl (s.hostPort q.fn)).issueWaiting
      else (s.xlate q r).issueWaiting)

/-- Removes a function's entries of a range, taints its overlapping requests, and answers which reads are waited for. -/
def State.atsRemove (s : State) (f : Nat) (pasid : Option (Option Nat)) (base size : Nat) : State × List Nat :=
  let who (g : Nat) (p : Option Nat) : Bool := g == f && (match pasid with
    | none => true
    | some x => x == p)
  let touch (a n : Nat) : Bool := decide (a < base + size ∧ base < a + n)
  let hit (e : AtsEntry) : Bool := who e.fn e.pasid && touch e.base e.size
  let s1 := { s with
    ats := s.ats.filter (fun e => !hit e)
    xreqs := s.xreqs.map (fun e => if who e.2.fn e.2.pasid && touch (4096 * e.2.page) 4096 then (e.1, { e.2 with tainted := true }) else e) }
  (s1, (s.reads.filter (fun e => who e.2.fn e.2.pasid && touch e.2.addr e.2.len)).map (·.1))

/-- An Invalidate Request arrives; a port takes up to 32 at once. -/
def execInvalidateRequest (port tag f : Nat) (pasid : Option Nat) (base size : Nat) (s : State) : Step :=
  .next (if 2 ≤ port ∨ 32 ≤ (s.invals.filter (fun v => v.port == port)).length then s
    else
      let r := s.atsRemove f (some pasid) base size
      let v : Inval := { port := port, tag := tag, fn := f, since := s.now, reads := r.2 }
      ({ r.1 with invals := s.invals ++ [v] }).count .HIF_CTR port C.HIF_ATS_INVALIDATIONS)

/-- The oldest invalidation of a port completes once the reads it waits for are over; one that takes longer than 1 ms is
announced. -/
def execInvalidateComplete (port : Nat) (s : State) : Step :=
  match s.invals.find? (fun v => v.port == port) with
  | none => .next s
  | some v =>
    .next (if v.reads.any (fun k => s.reads.any (fun e => e.1 == k)) then
      (if v.since + 1000000 < s.now ∧ !v.slow then
        ({ s with invals := s.invals.map (fun x => if x = v then { x with slow := true } else x) }).raise (Ev.HIF_ATS_INVAL_SLOW port)
      else s)
    else
      let s := s.when (decide (v.since + 1000000 < s.now) && !v.slow) (fun t => t.raise (Ev.HIF_ATS_INVAL_SLOW port))
      ({ s with invals := s.invals.erase v }).send (.invalidateDone port v.tag))

/-- ATS Enable falls: every entry of the function goes as an invalidation takes it. -/
def State.atsDisable (s : State) (f : Nat) : State :=
  (((s.atsRemove f none 0 (2 ^ 64)).1).modFn f (fun g => { g with ats := false })).raise (Ev.HIF_ATS_DISABLED (s.hostPort f))

/-- A host clears a function's ATS Enable. -/
def execAtsEnableClear (f : Nat) (s : State) : Step := .next (if (s.fn f).ats then s.atsDisable f else s)

/-- PASID Enable falls: queues and channels that use a PASID stop with an error (R291). -/
def State.pasidDisable (s : State) (f : Nat) : State :=
  let s := s.modFn f (fun g => { g with pasidEn := false })
  (s.each ((s.ringsOf f).filter (fun k => (s.ring k).pasid.isSome)) (fun k t => t.stopRing k 5 5)).stopCopiesOf f true

/-- A host clears a function's PASID Enable. -/
def execPasidEnableClear (f : Nat) (s : State) : Step := .next (if (s.fn f).pasidEn then s.pasidDisable f else s)

/-! ### Page requests (R289, R290) -/

/-- The oldest page request that waited for the function's allocation is issued. -/
def State.nextPageRequest (s : State) (f : Nat) : State :=
  if (s.fn f).priAlloc ≤ s.pageRequestsOf f then s
  else match s.preqs.find? (fun e => e.2.fn == f && !e.2.sent) with
    | none => s
    | some (n, q) =>
      (({ s with preqs := s.preqs.setD n { q with sent := true, since := s.now } default }).count .HIF_CTR (s.hostPort f) C.HIF_PAGE_REQUESTS).send
        (.pageRequest f q.pasid q.page q.write n)

/-- An outstanding page request has failed. -/
def State.failPage (s : State) (n : Nat) (q : PReq) : State :=
  ((({ s with preqs := s.preqs.erase n }).pageFailed q.fn).failWaiter q.waiter).nextPageRequest q.fn

/-- A page response for an index of a function. -/
def State.pageResponse (s : State) (f n : Nat) (r : PageReply) : State :=
  match s.preqs.find? (fun e => e.1 == n && e.2.fn == f && e.2.sent) with
  | none => ({ s with lateResponses := s.lateResponses + 1 }).raiseMs (Ev.HIF_PRG_RESPONSE_UNEXPECTED (s.hostPort f))
  | some (_, q) => match r with
    | .success => (({ s with preqs := s.preqs.erase n }).resumeWaiter q.waiter).nextPageRequest f
    | .invalid => s.failPage n q
    | .responseFailure =>
      let s := s.modFn f (fun g => { g with priStopped := true })
      let s := s.each (s.preqs.filter (fun e => e.2.fn == f)) (fun e t => (({ t with preqs := t.preqs.erase e.1 }).pageFailed f).failWaiter e.2.waiter)
      (s.raiseFn f F.EVT_FN_PRI_STOPPED).raise (Ev.HIF_PRI_STOPPED (s.hostPort f))

/-- A page response arrives. -/
def execPageResponse (f index : Nat) (r : PageReply) (s : State) : Step := .next (if f < 2052 then s.pageResponse f index r else s)

/-- No response within HIF_PRI_TIMEOUT.MS. -/
def execPriResponseTimeout (index : Nat) (s : State) : Step :=
  match s.preqs.find? (fun e => e.1 == index && e.2.sent) with
  | none => .next s
  | some (n, q) =>
    let k := s.hostPort q.fn
    .next (if q.since + s.rd F.HIF_PRI_TIMEOUT_MS k * 1000000 ≤ s.now then (s.raiseMs (Ev.HIF_PRI_TIMEOUT k)).failPage n q else s)

/-- The host resets and re-enables PRI with an allocation. -/
def execPriReset (f alloc : Nat) (s : State) : Step :=
  .next (if f < 2052 then s.modFn f (fun g => { g with priEn := true, priStopped := false, priAlloc := alloc }) else s)

/-! ### Read completions (R292, R293) -/

/-- The outstanding read that a tag of a host port belongs to. -/
def State.readOf (s : State) (port tag : Nat) : Option (Nat × HostRead) :=
  s.reads.find? (fun e => s.hostPort e.2.fn == port && e.2.parts.any (fun p => p.out && p.tag == some tag))

/-- An outstanding read ends with an answer, which goes to its requester. -/
def State.readEnd (s : State) (n : Nat) (q : HostRead) (r : HostReply) : State :=
  match q.who with
  | .fetch key => (execDescFetchComplete key r s).after s
  | .buffer j => match s.job j with
    | none => { s with reads := s.reads.erase n }
    | some b =>
      if (s.ring b.ring).kind = 1 then (execTxBufferData j r s).after s
      else if jobKind b.entry = 3 then (execJobDigest j r s).after s
      else (execJobBulkGcm { src := j } r s).after s
  | _ => { s with reads := s.reads.erase n }

/-- One request of read n is answered: the read ends once all its requests have their data, and at once when one fails; what is
still outstanding of a failed read is answered and dropped. -/
def State.partEnd (s : State) (n : Nat) (q : HostRead) (tag : Nat) (r : HostReply) : State :=
  let mine (p : ReadPart) : Bool := p.out && p.tag == some tag
  match r with
  | .data b =>
    let q := { q with parts := q.parts.map (fun p => if mine p then { p with data := some (fit p.len b) } else p) }
    let s : State := { s with reads := s.reads.setD n q default }
    if q.parts.all (fun p => p.data.isSome) then (s.readEnd n q (.data (q.parts.flatMap (fun p => p.data.getD [])))).issueWaiting
    else s.issueWaiting
  | _ =>
    let left := q.parts.filter (fun p => p.out && !mine p)
    let t := s.readEnd n q r
    State.issueWaiting (if left.isEmpty then t
      else { t with reads := t.reads.setD n { q with parts := left, who := .nobody, discarded := true } default })

/-- The request of a read that holds a tag has outlived its timeout. -/
def State.partLate (s : State) (q : HostRead) (tag : Nat) : Bool :=
  q.parts.any (fun p => p.out && p.tag == some tag && decide (p.since + p.us * 1000 ≤ s.now))

/-- A completion for a tag arrives; one that matches no outstanding read is late, and so is one whose request has outlived its
timeout by now (R293). -/
def execHostReadCompletion (port tag : Nat) (reply : HostReply) (s : State) : Step :=
  match s.readOf port tag with
  | none => .next (s.lateCpl (port % 2))
  | some (n, q) => .next (if s.partLate q tag then (s.partEnd n q tag .timeout).lateCpl (port % 2) else s.partEnd n q tag reply)

/-- A non-posted request is not completed within its timeout: reads, and Translation Requests. -/
def execCplTimeoutExpire (tag : Nat) (s : State) : Step :=
  match (s.readOf 0 tag).orElse (fun _ => s.readOf 1 tag), s.xreqs.find? (fun e => e.1 == tag && decide (e.1 < 16384)) with
  | some (n, q), _ => .next (if s.partLate q tag then s.partEnd n q tag .timeout else s)
  | none, some (n, q) =>
    .next (if q.since + q.us * 1000 ≤ s.now then
      ((({ s with xreqs := s.xreqs.erase n }).readFailed q.fn .timeout).failWaiter q.waiter).issueWaiting
    else s)
  | none, none => .next s

end Sys2Proof.Machine
end

