-- ==== Sys2Proof/Machine/Mailbox.lean ====
section
/-! DEFINITION. The mailbox, doorbells, the admin queue and the service of ECI commands: acceptance, checks, replies and
long commands (spec/13_control_interface.md R321 to R335). -/

namespace Sys2Proof.Machine

/-! ### Return codes (R328) -/

def RC_OK : Nat := 0x00
def RC_BUSY : Nat := 0x01
def RC_BAD_OPCODE : Nat := 0x02
def RC_BAD_ARG : Nat := 0x03
def RC_NO_RESOURCE : Nat := 0x04
def RC_DENIED : Nat := 0x05
def RC_NOT_READY : Nat := 0x06
def RC_XLATE_FAULT : Nat := 0x07
def RC_FENCED : Nat := 0x08
def RC_EPOCH_CONFLICT : Nat := 0x09
def RC_STAGE_FAILED : Nat := 0x0A
def RC_QUIESCE_REQUIRED : Nat := 0x0B
def RC_LIMIT : Nat := 0x0C
def RC_IN_PROGRESS : Nat := 0x0D

/-! ### Doorbells (R284, R321, R325) -/

/-- A function's mailbox. -/
def State.mb (s : State) (f : Nat) : Mailbox := s.mbox.get f

/-- Changes it. -/
def State.modMb (s : State) (f : Nat) (g : Mailbox → Mailbox) : State := { s with mbox := s.mbox.mod f g }

/-- Keeps when each bit of DB_FROM_FW became set and unmasked. -/
def State.dbTrack (s : State) (f : Nat) : State :=
  let v := s.val .DB_FROM_FW f
  let m := s.val .DB_FROM_FW_MASK f
  s.modMb f (fun b => { b with
    setAt := (List.range 4).foldl (fun (t : SMap (Option Nat)) k =>
      if bit v k && !bit m k then (if (t.getD k none).isSome then t else t.setD k (some s.now) none) else t.setD k none none) b.setAt })

/-- Firmware sets a bit of DB_FROM_FW, unless the driver is absent or has been reset and not spoken since. -/
def State.setDoorbell (s : State) (f k : Nat) : State :=
  let b := s.mb f
  if b.absent || (b.waitReady && k != 1) then s
  else
    let v := s.val .DB_FROM_FW f
    ((s.put .DB_FROM_FW f (if bit v k then v else v + 2 ^ k)).dbTrack f).doorbellSync f

/-- A W1C write of DB_FROM_FW: one more message while an unmasked bit stays. -/
def State.dbW1c (s : State) (f v : Nat) : State :=
  let old := s.val .DB_FROM_FW f
  let s := (s.put .DB_FROM_FW f (old - (old &&& v % 2 ^ 32))).dbTrack f
  let left := (s.reg .DB_FROM_FW f &&& ~~~ (s.reg .DB_FROM_FW_MASK f)).toNat % 2 ^ 32
  let s := s.wr F.EVT_FN_DB_FROM_FW f (b2n (left != 0))
  if left ≠ 0 ∧ v % 2 ^ 32 ≠ 0 then s.message f (s.rd F.EVT_FN_VEC_VECTOR f) else s

/-- A host write of DB_FROM_FW. -/
def execDbFromFwW1c (f v : Nat) (s : State) : Step := .next (if f < 2052 ∧ s.bar0Open f then s.dbW1c f v else s)

/-- A write of DB_FROM_FW_MASK. -/
def State.dbMask (s : State) (f v : Nat) : State := ((s.put .DB_FROM_FW_MASK f (v % 2 ^ 32)).dbTrack f).doorbellSync f

/-- A host write of DB_FROM_FW_MASK. -/
def execDbFromFwMaskWrite (f v : Nat) (s : State) : Step := .next (if f < 2052 ∧ s.bar0Open f then s.dbMask f v else s)

/-- A write of DB_TO_FW: firmware consumes READY and UNLOAD at once and clears their bits; CMD takes no direct write. -/
def State.dbToFw (s : State) (f v : Nat) : State :=
  let s := s.when (bit v 1) (fun t => t.modMb f (fun b => { b with absent := false, waitReady := false }))
  s.when (bit v 2) (fun t => t.modMb f (fun b => { b with absent := true }))

/-- A write of DB_TO_FW with READY. -/
def execDbToFwReady (f v : Nat) (s : State) : Step := .next (if f < 2052 ∧ s.bar0Open f then s.dbToFw f (putBits v 1 1 1) else s)

/-- A write of DB_TO_FW with UNLOAD. -/
def execDbToFwUnload (f v : Nat) (s : State) : Step := .next (if f < 2052 ∧ s.bar0Open f then s.dbToFw f (putBits v 2 2 1) else s)

/-- A doorbell bit has stayed set and unmasked for US µs. -/
def execDriverAbsent (f : Nat) (s : State) : Step :=
  let late := (s.mb f).setAt.any (fun e => match e.2 with
    | some t => decide (t + s.rd F.MBX_TIMEOUT_US f * 1000 ≤ s.now)
    | none => false)
  .next (if late ∧ !(s.mb f).absent then (s.modMb f (fun b => { b with absent := true })).raise Ev.FW_DRIVER_ABSENT else s)

/-! ### Guaranteed times (R333) -/

/-- A Barista position has a core in service. -/
def State.coreUp (s : State) (k : Nat) : Bool := !s.isFenced (unitCore (s.cores.getD k 0)) 0

/-- Codes of the class "Identity and read" outside group 0x00xx. -/
def readCodes : List Nat := [0x0107, 0x0202, 0x0301, 0x0305, 0x0307, 0x0400, 0x0404, 0x0407, 0x0500, 0x0504, 0x0507, 0x0600, 0x0602, 0x0606,
  0x0700, 0x0703, 0x070B, 0x0800, 0x0803, 0x0806, 0x0903, 0x0A00, 0x0A04, 0x0A06]

/-- Codes of the class "Entry writes" beside the debug commands (log 212). -/
def entryCodes : List Nat := [0x0200, 0x0201, 0x0206, 0x0207, 0x0300, 0x0303, 0x0304, 0x0401, 0x0402, 0x0403, 0x0406, 0x0409, 0x0501, 0x0502,
  0x0503, 0x0505, 0x0506, 0x0601, 0x0603, 0x0604, 0x0701, 0x0702, 0x0704, 0x0705, 0x0706, 0x0707, 0x0708, 0x0709, 0x070A, 0x070C, 0x0801,
  0x0802, 0x0804, 0x0805, 0x0A01]

/-- The command is long. -/
def EciCmd.long (c : EciCmd) : Bool :=
  [0x0203, 0x0204, 0x0205, 0x0408, 0x0900, 0x0A02, 0x0A05].contains c.code || (c.code == 0x0506 && bit (c.words.getD 7 0) 31)

/-- The µs within which a command that is not long is to complete, none for a command of no class. -/
def EciCmd.time (c : EciCmd) : Option Nat :=
  if c.code / 256 = 0 ∨ readCodes.contains c.code ∨ c.code = 0x0901 then some 50
  else if entryCodes.contains c.code ∨ c.code / 256 = 0xB then some 500
  else if c.code / 256 = 1 ∨ c.code = 0x0306 then some 2000
  else none

/-- A command that ends, or replies, after its time: an event, while Barista runs on its four cores (log 212). -/
def State.onTime (s : State) (c : EciCmd) (us : Option Nat) : State :=
  match us with
  | some n => s.when ((List.range 4).all s.coreUp && decide (c.at_ + 1000 * n < s.now)) (fun t => t.raiseMs Ev.FW_CMD_OVERRUN)
  | none => s

/-- The time of a long command's final result. -/
def EciCmd.finalTime (c : EciCmd) : Option Nat := if c.code = 0x0A05 then some 20000 else none

/-! ### Sending a command (R322, R323) -/

/-- A write of MBX_CMD: taken, or dropped while a command is outstanding. -/
def State.mbxCmd (s : State) (f v : Nat) : State :=
  if s.on F.MBX_STATUS_BUSY f then s.wr F.MBX_STATUS_CMD_DROPPED f 1
  else
    let s := ((((s.put .MBX_CMD f (v % 2 ^ 32)).wr F.MBX_STATUS_BUSY f 1).wr F.MBX_ACK_DONE f 0).wr F.DB_TO_FW_CMD f 1)
    s.modMb f (fun b => { b with at_ := s.now, us := s.rd F.MBX_TIMEOUT_US f, absent := false, waitReady := false })

/-- A host write of MBX_CMD. -/
def execMbxCmdWrite (f v : Nat) (s : State) : Step := .next (if f < 2052 ∧ s.bar0Open f then s.mbxCmd f v else s)

/-- DONE is not set within US µs. -/
def execMbxAckTimeout (f : Nat) (s : State) : Step :=
  .next (if s.on F.MBX_STATUS_BUSY f ∧ (s.mb f).at_ + (s.mb f).us * 1000 ≤ s.now then
    ((((s.wr F.MBX_STATUS_TIMEOUT f 1).wr F.MBX_STATUS_BUSY f 0).wr F.DB_TO_FW_CMD f 0)).modMb f
      (fun b => { b with cmd := b.cmd.map (fun c => { c with abandoned := true }) })
  else s)

/-- The acknowledgement of a mailbox command: response, MBX_ACK, BUSY and the DONE doorbell; none when abandoned. -/
def State.mbxReply (s : State) (f rc : Nat) (resp : List Nat) (bad : Bool) : State :=
  match (s.mb f).cmd with
  | none => s
  | some c =>
    let s := (s.modMb f (fun b => { b with cmd := none })).onTime c (if c.long then some 50 else c.time)
    if c.abandoned then s
    else
      let resp := if bad then [] else resp.take 64
      let s := s.each resp.zipIdx (fun w t => t.put .MBX_DATA (64 * f + w.2) (w.1 % 2 ^ 32))
      let s := s.put .MBX_ACK f (2 ^ 31 + 2 ^ 16 * (rc % 256) + 2 ^ 8 * resp.length + s.rd F.MBX_CMD_SEQ f)
      (s.wr F.MBX_STATUS_BUSY f 0).setDoorbell f 0

/-- The completion of an admin entry: the whole response at its address, then the completion entry (R320). -/
def State.adminReply (s : State) (f rc : Nat) (resp : List Nat) (bad : Bool) : State :=
  match s.adminCmd.getD f none with
  | none => s
  | some c =>
    let resp := if bad then [] else resp.take 64
    let s := ({ s with adminCmd := s.adminCmd.setD f none none } : State).onTime c (if c.long then c.finalTime else c.time)
    let s := if c.resp = 0 ∨ resp.isEmpty then s else s.hostWrite f c.resp none (resp.flatMap (fun (w : Nat) => leBytes 4 w))
    let w (k : Nat) : Nat := resp.getD k 0 % 2 ^ 32
    let q : Cpl := { target := adminCqKey f, ring := adminSqKey f, index := c.index, stamp := w 0 + 2 ^ 32 * w 1, keyLo := w 2 + 2 ^ 32 * w 3
                     len := resp.length, tag := c.tag, status := rc, kind := 3 }
    (s.markDone (adminSqKey f) c.index).postCpl (adminCqKey f) q

/-- A command is answered on its path. -/
def State.eciReply (s : State) (f : Nat) (path : EciPath) (rc : Nat) (resp : List Nat) (bad : Bool) : State :=
  match path with
  | .mailbox => s.mbxReply f rc resp bad
  | .admin => s.adminReply f rc resp bad

/-! ### Acceptance (R322, R332, R334) -/

/-- A code of the command tables; the recovery personality answers five of them (R338). -/
def eciListed (code : Nat) (recovery : Bool) : Bool :=
  if recovery then [0x0000, 0x0001, 0x0003, 0x0A02, 0x0A03].contains code
  else decide (code % 256 < [4, 8, 9, 8, 10, 8, 8, 13, 10, 4, 7, 6].getD (code / 256) 0)

/-- Codes that the mailbox alone carries. -/
def mailboxOnly (code : Nat) : Bool := code == 0x0003 || code == 0x0100 || code == 0x0101

/-- A function's commands are answered with FENCED, group 0x00xx apart (R327). -/
def State.eciFenced (s : State) (f code : Nat) : Bool := s.on F.MBX_STATUS_FENCED f && code / 256 != 0

/-- The position that serves a function: f mod 4, or the next in service (spec/17_errors_and_service.md R390). -/
def State.coreOf (s : State) (f : Nat) : Nat := (((List.range 4).map (fun d => (f + d) % 4)).find? s.coreUp).getD (f % 4)

/-- The turns that wait on a Barista core. -/
def State.turns (s : State) (core : Nat) : List Nat :=
  ((s.mbox.filter (fun e => s.coreOf e.1 == core && s.on F.DB_TO_FW_CMD e.1)).map (fun e => 2 * e.1)) ++
    ((s.rings.filter (fun e => e.1 / 131072 == 4 && s.coreOf (e.1 % 131072) == core && e.2.state == 1 && e.2.next != e.2.pi && (s.adminCmd.getD (e.1 % 131072) none).isNone)).map
      (fun e => 2 * (e.1 % 131072) + 1))

/-- A core's T0 serves a command: one is accepted and not yet over; long commands run on T3. -/
def State.serving (s : State) (core : Nat) : Bool :=
  s.mbox.any (fun e => s.coreOf e.1 == core && (match e.2.cmd with
    | some c => !c.abandoned
    | none => false)) ||
  s.adminCmd.any (fun e => s.coreOf e.1 == core && (match e.2 with
    | some _ => (match s.longs.getD e.1 none with
      | some l => l.final.isSome || l.path == .mailbox
      | none => true)
    | none => false))

/-- The turn T0 takes next: the manager's command first, else round-robin. -/
def State.nextTurn (s : State) (core : Nat) : Option Nat :=
  let ts := s.turns core
  if s.serving core || !s.fwUp then none
  else match ts.find? (fun t => t / 2 == s.manager) with
    | some t => some t
    | none =>
      let last := s.lastTurn.get core
      let far := ts.filter (fun t => decide (last ≤ t))
      let pool := if far.isEmpty then ts else far
      match pool with
      | [] => none
      | t :: r => some (r.foldl min t)

/-- The core has served a turn. -/
def State.tookTurn (s : State) (core turn : Nat) : State := { s with lastTurn := s.lastTurn.set core (turn + 1) }

/-- Firmware accepts a taken mailbox command; a code not listed ends at once; bad: the payload's parity fails. -/
def execCmdAccept (f : Nat) (bad : Bool) (s : State) : Step :=
  let len := s.rd F.MBX_CMD_LEN f
  let c : EciCmd := { code := s.rd F.MBX_CMD_CODE f, len := len
                      words := if 64 < len || bad then [] else (List.range len).map (fun k => s.val .MBX_DATA (64 * f + k))
                      rc := if bad then RC_BAD_ARG else 0 }
  .next (if s.nextTurn (s.coreOf f) ≠ some (2 * f) then s
    else
      let s := ((s.tookTurn (s.coreOf f) (2 * f)).wr F.DB_TO_FW_CMD f 0).modMb f (fun b => { b with cmd := some { c with at_ := s.now } })
      if s.eciFenced f c.code then s.mbxReply f RC_FENCED [] false
      else if !eciListed c.code s.recovery then s.mbxReply f RC_BAD_OPCODE [] false
      else s)

/-- Barista takes the next admin entry: what its read and the read of a long payload bring. -/
def execAdminEntryTake (f : Nat) (entry payload : HostReply) (s : State) : Step :=
  let key := adminSqKey f
  let r := s.ring key
  .next (if s.nextTurn (s.coreOf f) ≠ some (2 * f + 1) then s
    else
      let s := (s.tookTurn (s.coreOf f) (2 * f + 1)).sendRead f (r.base + r.next % r.size * 128) none 128
      let s := s.modRing key (fun x => { x with next := ixNext x.next })
      let start (s : State) (c : EciCmd) : State := { s with adminCmd := s.adminCmd.setD f (some { c with index := r.next, at_ := s.now }) none }
      match entry with
      | .data b =>
        let b := fit 128 b
        let len := leAt b 2 1
        let addr := leAt b 8 8
        let words (d : Bytes) : List Nat := (List.range len).map (fun k => leAt d (4 * k) 4)
        let c : EciCmd := { code := leAt b 0 2, len := len, words := if 24 < len then [] else words (b.drop 0x20), tag := leAt b 4 2, resp := leAt b 0x10 8 }
        let s := start s c
        let no (s : State) (rc : Nat) : State := s.adminReply f rc [] false
        if s.eciFenced f c.code then no s RC_FENCED
        else if !eciListed c.code s.recovery || mailboxOnly c.code then no s RC_BAD_OPCODE
        else if leAt b 3 1 ≠ 0 ∨ leAt b 6 2 ≠ 0 ∨ leAt b 0x18 8 ≠ 0 ∨ 64 < len ∨ (len ≤ 24 ∧ addr ≠ 0) then start s { c with rc := RC_BAD_ARG }
        else if len ≤ 24 then s
        else
          let s := s.sendRead f addr none (4 * len)
          match payload with
          | .data d => start s { c with words := words (fit (4 * len) d) }
          | .xlateFault => start s { c with rc := RC_XLATE_FAULT }
          | e => start (s.readFailed f e) { c with rc := RC_NOT_READY }
      | .xlateFault => (start s.used { tag := s.fresh % 65536 }).adminReply f RC_XLATE_FAULT [] false
      | e => ((start s.used { tag := s.fresh % 65536 }).readFailed f e).adminReply f RC_NOT_READY [] false)

/-! ### The checks and the run of a command (R328, R329) -/

/-- What a command does once its checks have passed. -/
inductive EciOut
  | done (s : State) (rc : Nat) (resp : List Nat)
  /-- it cannot end yet: firmware waits -/
  | wait
  /-- it has begun and cannot end yet -/
  | held (s : State)
  /-- a long command has started -/
  | started (s : State)

/-- The command a function has in service on a path. -/
def State.eciCmd (s : State) (e : Eci) : Option EciCmd :=
  match e.path with
  | .mailbox => (s.mb e.fn).cmd
  | .admin => match s.longs.getD e.fn none with
    | some l => if l.path = .admin ∧ l.final = none then none else s.adminCmd.getD e.fn none
    | none => s.adminCmd.getD e.fn none

/-- All bits of a payload word, and the bits below n. -/
def W32 : Nat := 0xFFFFFFFF
def low (n : Nat) : Nat := 2 ^ n - 1

/-- The payload has the layout's length and no rsvd bit set; masks give each word's bits. -/
def shapeOk (masks : List Nat) (c : EciCmd) : Bool :=
  c.len == masks.length && c.words.length == masks.length && (masks.zip c.words).all (fun e => e.2 &&& e.1 == e.2)

/-- A long command of the function is outstanding. -/
def State.longBusy (s : State) (f : Nat) : Bool :=
  match s.longs.getD f none with
  | some l => l.final.isNone
  | none => false

/-- Codes that only the manager may send; MGR_ROLE is open to the standby PF too. -/
def managerCode (code f : Nat) : Bool :=
  (decide (code / 256 = 2) && code != 0x0202 && !(code == 0x0208 && (f == 0 || f == 2))) ||
  [0x0302, 0x0306, 0x0307, 0x0406, 0x0407, 0x0409, 0x0709, 0x070A, 0x070C].contains code ||
  (decide (code / 256 = 5) && code != 0x0500) || code / 256 == 6 || decide (8 ≤ code / 256)

/-- The sender may not send the command; what a payload of another length names is not read. -/
def State.eciDenied (s : State) (f : Nat) (c : EciCmd) (denied : List Nat → Bool) (n : Nat) : Bool :=
  if c.words.length = n then denied c.words else !s.recovery && f != s.manager && managerCode c.code f

/-- The service of a command: pick tells the commands a row serves; then DENIED, BAD_ARG and the command itself. An admin
entry whose response address has no translation ends before it acts. -/
def State.eci (s : State) (e : Eci) (code : Nat) (pick : List Nat → Bool) (denied : List Nat → Bool) (masks : List Nat)
    (bad : List Nat → Bool) (run : List Nat → EciOut) : Step :=
  match s.eciCmd e with
  | none => .next s
  | some c =>
    if c.code ≠ code ∨ !pick c.words then .next s
    else
      let no (rc : Nat) : Step := .next (s.eciReply e.fn e.path rc [] e.badOut)
      if s.eciFenced e.fn code then no RC_FENCED
      else if s.eciDenied e.fn c denied masks.length then no RC_DENIED
      else if c.rc ≠ 0 then no c.rc
      else if !shapeOk masks c || bad c.words then no RC_BAD_ARG
      else if e.path = .admin ∧ c.resp ≠ 0 ∧ e.respFault then no RC_XLATE_FAULT
      else match run c.words with
        | .wait => .next s
        | .held t => .next t
        | .done t rc resp => .next (t.eciReply e.fn e.path rc resp e.badOut)
        | .started t =>
          let l : LongCmd := { ticket := t.fresh % 65536, path := e.path, cmd := c, since := t.now }
          let u := { t.used with longs := t.longs.setD e.fn (some l) none }
          .next (if e.path = .mailbox then u.mbxReply e.fn RC_IN_PROGRESS [l.ticket] e.badOut else u)

/-- Every command of a code; nobody is denied; nothing more to check. -/
def anyCmd : List Nat → Bool := fun _ => true
def noCheck : List Nat → Bool := fun _ => false

/-- A command of the manager alone. -/
def State.managerOnly (s : State) (f : Nat) : List Nat → Bool := fun _ => f != s.manager

/-- A command on an object whose owner the payload names: the manager, or that owner. -/
def State.ownOnly (s : State) (f : Nat) (owner : List Nat → Nat) : List Nat → Bool := fun p => f != s.manager && owner p != f

/-- The function has a feature (spec/11_host_interface.md R280); MANAGER and DEBUG go with the manager role (log 88). -/
def State.feature (s : State) (f k : Nat) : Bool :=
  if k = 14 then f == s.manager else bit (s.fn f).grants.features k && (k != 16 || f == s.manager)

/-- The FEATURES word of a function's ROM. -/
def State.features (s : State) (f : Nat) : Nat := (List.range 17).foldl (fun a k => a + b2n (s.feature f k) * 2 ^ k) 0

/-- A long command ends: its result waits for ECI_POLL, or goes to its admin entry (R324, R334). -/
def State.longDone (s : State) (f rc : Nat) (resp : List Nat) : State :=
  match s.longs.getD f none with
  | none => s
  | some l =>
    if l.path = .admin then ({ s with longs := s.longs.setD f none none }).adminReply f rc resp false
    else ({ s with longs := s.longs.setD f (some { l with final := some (rc, resp) }) none } : State).onTime l.cmd l.cmd.finalTime

/-! ### Host memory of a command (R330) -/

/-- A command reads n bytes at a host address: the state, and its bytes or the code that ends it. -/
def State.dmaIn (s : State) (f addr n : Nat) (r : Option HostReply) : State × Option Bytes × Nat :=
  if !s.mayDma f then (s, none, RC_NOT_READY)
  else
    let t := s.sendRead f addr none n
    match r with
    | some (.data b) => (t, some (fit n b), 0)
    | some .xlateFault => (t, none, RC_XLATE_FAULT)
    | some e => (t.readFailed f e, none, RC_NOT_READY)
    | none => (t, some (fit n []), 0)

/-- The code that ends a command which would write to a host address, 0 when it may. -/
def State.dmaOut (s : State) (f : Nat) (r : Option HostReply) : Nat :=
  if !s.mayDma f then RC_NOT_READY
  else match r with
    | some .xlateFault => RC_XLATE_FAULT
    | _ => 0

/-- A 64-bit value of two payload words. -/
def w64 (p : List Nat) (k : Nat) : Nat := p.getD k 0 + 2 ^ 32 * p.getD (k + 1) 0

/-- The bytes of payload words from k on, n words. -/
def wBytes (p : List Nat) (k n : Nat) : Bytes := ((p.drop k).take n).flatMap (fun (w : Nat) => leBytes 4 w)

/-- Response words of a byte string. -/
def respOf (b : Bytes) : List Nat := (List.range (cdiv b.length 4)).map (fun k => leAt b (4 * k) 4)

/-- A buffer of the caller's length takes the output, or BUFFER_SHORT with the bytes needed. -/
def State.bufferOut (s : State) (f addr len : Nat) (out : Bytes) (r : Option HostReply) (resp : List Nat) : EciOut :=
  if len < out.length then .done s 0x80 [out.length]
  else if s.dmaOut f r ≠ 0 then .done s (s.dmaOut f r) []
  else .done (s.hostWrite f addr none out) RC_OK resp

/-! ### Firmware's restart and watchdog (R326, R332) -/

/-- Functions that exist: the PFs and the VFs that are assigned. -/
def State.functions (s : State) : List Nat :=
  [0, 1, 2, 3] ++ (((s.regs.filter (fun e => e.1 % 512 == Reg.HIF_FN_STATE.ctorIdx)).map (fun e => e.1 / 512)).filter (fun f => decide (4 ≤ f) && s.rd F.HIF_FN_STATE_STATE f != 0))

/-- Firmware has restarted for a function: its commands are abandoned, PEER_RESET is set, and FW_READY follows. -/
def State.fwRestartFor (s : State) (f : Nat) (t0 t3 : Bool) : State :=
  let s := s.when t0 (fun t =>
    let t := ((t.wr F.MBX_STATUS_BUSY f 0).wr F.DB_TO_FW_CMD f 0).modMb f (fun b => { b with cmd := none })
    match t.adminCmd.getD f none with
    | some c => ({ t with adminCmd := t.adminCmd.setD f none none }).markDone (adminSqKey f) c.index
    | none => t)
  let s := s.when t3 (fun t => { t with longs := t.longs.setD f none none })
  (s.wr F.MBX_STATUS_PEER_RESET f 1).setDoorbell f 1

/-- Firmware restarts on all its cores. -/
def State.fwRestart (s : State) : State :=
  (s.each s.functions (fun f t => t.fwRestartFor f true true)).raise Ev.FW_READY

/-- Firmware restarts and serves again. -/
def execFwRestart (s : State) : Step := .next (if s.fwUp then s.fwRestart else s)

/-- T1 of a core finds thread T0, T2 or T3 stopped for 1 ms and restarts it. -/
def execFwWatchdog (core thread : Nat) (s : State) : Step :=
  .next (if core < 4 ∧ (thread = 0 ∨ thread = 2 ∨ thread = 3) ∧ s.fwUp then
    let s := if thread = 2 then s else s.each (s.functions.filter (fun f => s.coreOf f == core)) (fun f t => t.fwRestartFor f (thread == 0) (thread == 3))
    s.raise Ev.FW_WATCHDOG
  else s)

end Sys2Proof.Machine
end

