-- ==== Sys2Proof/Machine/EciQueue.lean ====
section
/-! DEFINITION. ECI groups 0x00xx and 0x01xx: identity, long command results, the admin queue and rings
(spec/13_control_interface.md R324, R336, spec/12_queues_and_rings.md R297 to R303, R317 to R320). -/

namespace Sys2Proof.Machine

/-! ### Identity (R336, R338) -/

/-- The image in a firmware slot: as written, or as delivered. -/
def State.slotImage (s : State) (slot : Nat) : Bytes := s.flash.regions.getD (1 + slot) (Config.fwImage slot)

/-- The image of the firmware that runs. -/
def State.fwRunning (s : State) : Bytes := s.slotImage s.fwSlot

/-- The response of ECI_VERSION; words the recovery personality has no value for are zero (log 89). -/
def State.versionWords (s : State) : List Nat :=
  if s.recovery then [1, 0, 0, 0] ++ respOf (beBytes 48 Config.romMeasure.toNat)
  else [1, (Config.fwVersion s.fwRunning).toNat, (Config.fwBuild s.fwRunning).toNat, s.fwSlot] ++ respOf (digest s.fwRunning)

/-- ECI_VERSION. -/
def execEciVersion (e : Eci) (s : State) : Step :=
  s.eci e 0x0000 anyCmd noCheck [] noCheck (fun _ => .done s RC_OK s.versionWords)

/-- The response of ECI_IDENTITY. -/
def State.identityWords (s : State) : List Nat :=
  [s.val .SVC_ID_VENDOR 0 % 65536 + 2 ^ 16 * 0xA1 + 2 ^ 24 * Config.fuseSpeedBin.toNat, s.val .SVC_ID_LOT 0, s.val .SVC_ID_LOT 1,
    Config.fusePos.toNat] ++ (List.range 12).map (fun k => s.val .SVC_ID_CERT k)

/-- ECI_IDENTITY. -/
def execEciIdentity (e : Eci) (s : State) : Step :=
  s.eci e 0x0001 anyCmd noCheck [] noCheck (fun _ => .done s RC_OK s.identityWords)

/-- The response of ECI_FUNC_INFO. -/
def State.infoWord (s : State) (f : Nat) : Nat :=
  f + 2 ^ 12 * s.pfOf f + 2 ^ 14 * s.hostPort f + 2 ^ 16 * s.rd F.HIF_FN_STATE_GEN f + 2 ^ 24 * s.manager + 2 ^ 26 * b2n (f == s.manager)

/-- ECI_FUNC_INFO. -/
def execEciFuncInfo (e : Eci) (s : State) : Step :=
  s.eci e 0x0002 anyCmd noCheck [] noCheck (fun _ => .done s RC_OK [s.infoWord e.fn])

/-- The result a ticket names; a final result is kept until it is polled once (R324). -/
def State.pollLong (s : State) (f ticket : Nat) : EciOut :=
  match s.longs.getD f none with
  | none => .done s RC_BAD_ARG []
  | some l =>
    if l.path = .admin ∨ l.ticket ≠ ticket then .done s RC_BAD_ARG []
    else match l.final with
      | none => .done s RC_IN_PROGRESS []
      | some (rc, resp) => .done { s with longs := s.longs.setD f none none } rc resp

/-- ECI_POLL. -/
def execEciPoll (e : Eci) (s : State) : Step :=
  s.eci e 0x0003 anyCmd noCheck [low 16] noCheck (fun p => s.pollLong e.fn (p.getD 0 0))

/-! ### The admin queue (R320) -/

/-- The ring context bytes of a function's admin ring or admin completion ring. -/
def adminCtx (base kind log2 page vector : Nat) : Bytes :=
  fit 64 (leBytes 8 base ++ leBytes 4 (kind + 16 * log2) ++ leBytes 4 page ++ leBytes 12 0 ++ leBytes 4 vector)

/-- The admin queue as R336 creates it: entries on queue page 0, completions on queue page 1 (log 90). -/
def State.createAdmin (s : State) (f : Nat) (p : List Nat) : State :=
  let w := p.getD 4 0
  let n := bits w 3 0 + 6
  let gen := s.rd F.HIF_FN_STATE_GEN f
  let sq : Ring := { fn := f, gen := gen, ctx := adminCtx (w64 p 0) 5 n 0 0, state := 1, cq := adminCqKey f }
  let cq : Ring := { fn := f, gen := gen, ctx := adminCtx (w64 p 2) 3 n 1 (bits w 26 16), state := 1 }
  { s with rings := (s.rings.set (adminSqKey f) sq).set (adminCqKey f) cq }

/-- Fields of ADMIN_CREATE out of range: a base, the size, the vector, a queue page that is not free. -/
def State.adminBad (s : State) (f : Nat) (p : List Nat) : Bool :=
  let g := (s.fn f).grants
  let taken (page : Nat) : Bool := match s.onPage f page with
    | none => false
    | some k => k != adminSqKey f && k != adminCqKey f
  w64 p 0 % 4096 != 0 || w64 p 2 % 4096 != 0 || decide (6 < bits (p.getD 4 0) 3 0) || decide (g.vectors ≤ bits (p.getD 4 0) 26 16) ||
    decide (g.pages < 2) || taken 0 || taken 1

/-- ADMIN_CREATE. -/
def execAdminCreate (e : Eci) (s : State) : Step :=
  s.eci e 0x0100 anyCmd noCheck [W32, W32, W32, W32, 0x07FF000F] (s.adminBad e.fn) (fun p =>
    if (s.ring (adminSqKey e.fn)).state ≠ 0 then .done s RC_BUSY [] else .done (s.createAdmin e.fn p) RC_OK [])

/-- A function's admin queue is gone. -/
def State.destroyAdmin (s : State) (f : Nat) : State :=
  { s with rings := (s.rings.erase (adminSqKey f)).erase (adminCqKey f), adminCmd := s.adminCmd.setD f none none }

/-- ADMIN_DESTROY; without a queue there is nothing to destroy (log 91). -/
def execAdminDestroy (e : Eci) (s : State) : Step :=
  s.eci e 0x0101 anyCmd noCheck [] noCheck (fun _ =>
    if (s.adminCmd.getD e.fn none).isSome then .done s RC_BUSY []
    else if (s.ring (adminSqKey e.fn)).state = 0 then .done s RC_NOT_READY []
    else .done (s.destroyAdmin e.fn) RC_OK [])

/-! ### QUEUE_CREATE (R297, R300, R207) -/

/-- The key of ring number n of a kind: 1 transmit, 2 receive, 3 completion, 4 job. -/
def ringKey (kind n : Nat) : Nat := if kind = 2 then rxKey n else if kind = 3 then cqKey n else txKey n

/-- Rings of a kind's count that a function, or with none the adapter, holds. -/
def State.ringsHeld (s : State) (kind : Nat) (f : Option Nat) : Nat :=
  (s.rings.filter (fun e => e.2.state != 0 && e.1 / 131072 == ringKey kind 0 / 131072 && (match f with
    | some g => e.2.fn == g
    | none => true))).length

/-- A function's grant of a ring kind. -/
def Grants.rings (g : Grants) (kind : Nat) : Nat := if kind = 2 then g.rxRings else if kind = 3 then g.cqRings else g.txRings

/-- The tenant node of a scheduler queue is owned by the function; a queue that is not enabled is no matter of rights: it is refused
with BAD_ARG (spec/08_traffic_manager.md R207). -/
def State.ownsQueue (s : State) (f q : Nat) : Bool :=
  let t := (s.node 3 q).parent
  !(s.node 3 q).en || ((s.node 2 t).owner == f && (s.node 2 t).en)

/-- The ring takes a completion ring on a queue page. -/
def Ring.needsCq (r : Ring) : Bool := r.kind == 2 || r.kind == 4 || (r.kind == 1 && !r.isHead)

/-- The scheduler queue a transmit or receive ring may be bound to. -/
def State.bindOk (s : State) (r : Ring) : Bool :=
  (r.kind != 1 && r.kind != 2) ||
  ((s.node 3 r.schedQ).en && (if r.kind = 1 then decide (s.queuePort r.schedQ < 16)
    else decide (16 ≤ s.queuePort r.schedQ) && s.queuePort r.schedQ % 2 == s.hostPort r.fn))

/-- Reserved encodings and rsvd fields of a ring context. -/
def Ring.badFields (r : Ring) : Bool :=
  decide (r.kind = 0 ∨ 4 < r.kind) || decide (r.log2 < 6 ∨ 16 < r.log2) || r.base % 4096 != 0 || bits (r.word 16) 31 19 != 0 ||
  bits (r.word 20) 15 14 != 0 || bits (r.word 28) 15 11 != 0 || (r.ctx.drop 44).any (fun b => b != 0) ||
  (r.kind == 2 && decide (r.maxFrame < 64 ∨ 16000 < r.maxFrame ∨ 16384 < r.holdKib ∨ 1000000 < r.holdUs)) ||
  (r.isHead && (r.kind != 1 || r.statusAddr % 64 != 0 || decide (1000 < r.headUs))) || (r.mgmt && decide (2 < r.kind))

/-- What R300, spec/11_host_interface.md R291 and spec/14_tenants.md R352 refuse with BAD_ARG. -/
def State.ringBad (s : State) (r : Ring) : Bool :=
  let g := (s.fn r.fn).grants
  r.badFields || decide (g.pages ≤ r.page) || (s.onPage r.fn r.page).isSome ||
  (r.needsCq && (match s.onPage r.fn r.cqPage with
    | some k => k / 131072 != 2
    | none => true)) ||
  ((r.kind == 3 || r.isHead) && decide (g.vectors ≤ r.vector)) || !s.bindOk r ||
  (r.pasid.isSome && (!(s.fn r.fn).pasidEn || s.on F.HIF_FN_STATE_MIGRATING r.fn))

/-- What QUEUE_CREATE denies: a management ring outside the manager's PF, a feature not granted, a scheduler queue that is
not below the function's own tenant node (R300, R280, spec/14_tenants.md R343). -/
def State.ringDenied (s : State) (r : Ring) : Bool :=
  let f := r.fn
  (r.mgmt && f != s.manager) || (r.pasid.isSome && !s.feature f 12) || (r.kind == 4 && !s.feature f 9) ||
  (r.isHead && r.kind == 1 && !s.feature f 2) || (r.needsCq && !s.feature f 1) ||
  (f != s.manager && (r.kind == 1 || r.kind == 2) && !s.ownsQueue f r.schedQ)

/-- The ring a payload asks for. -/
def State.newRing (s : State) (f : Nat) (p : List Nat) : Ring :=
  let r : Ring := { fn := f, gen := s.rd F.HIF_FN_STATE_GEN f, ctx := wBytes p 0 16, state := 1 }
  let pipe := if r.kind = 1 ∨ r.kind = 4 then (if bit (r.word 16) 18 then s.fresh % 4 else bits (r.word 16) 17 16) else 0
  { r with pipe := pipe, cq := if r.needsCq then (s.onPage f r.cqPage).getD 0 else 0 }

/-- Creates a ring: its number, and the pipeline of an automatic choice, are the adapter's. -/
def State.createRing (s : State) (f : Nat) (p : List Nat) : EciOut :=
  let r := s.newRing f p
  let s := s.used
  if r.mgmt ∧ s.rings.any (fun e => e.2.state != 0 && e.2.mgmt && e.2.kind == r.kind) then .done s RC_LIMIT []
  else if (s.fn f).grants.rings r.kind ≤ s.ringsHeld r.kind (some f) then .done s RC_LIMIT []
  else match firstFree 131072 s.fresh (fun n => (s.ring (ringKey r.kind n)).state != 0) with
    | none => .done s RC_NO_RESOURCE []
    | some n => .done { s.used with rings := s.rings.set (ringKey r.kind n) r } RC_OK [n + 2 ^ 17 * r.pipe]

/-- QUEUE_CREATE. -/
def execQueueCreate (e : Eci) (s : State) : Step :=
  s.eci e 0x0102 anyCmd (fun p => s.ringDenied (s.newRing e.fn p)) (List.replicate 16 W32) (fun p => s.ringBad (s.newRing e.fn p))
    (s.createRing e.fn)

/-! ### Other queue commands -/

/-- The key of the ring a payload names by number and kind. -/
def namedRing (p : List Nat) : Nat := ringKey (bits (p.getD 0 0) 20 17) (bits (p.getD 0 0) 16 0)

/-- The ring exists and belongs to another function. -/
def State.notMine (s : State) (f : Nat) (p : List Nat) : Bool :=
  f != s.manager && (s.ring (namedRing p)).state != 0 && (s.ring (namedRing p)).fn != f

/-- No ring of that kind has the number (log 92). -/
def State.noSuchRing (s : State) (p : List Nat) : Bool :=
  let k := bits (p.getD 0 0) 20 17
  k == 0 || decide (4 < k) || (s.ring (namedRing p)).state == 0 || (s.ring (namedRing p)).kind != k

/-- A submission ring is still bound to a completion ring. -/
def State.boundTo (s : State) (key : Nat) : Bool :=
  s.rings.any (fun e => e.2.state != 0 && e.2.needsCq && e.2.cq == key)

/-- A ring is gone, with its unstarted entries. -/
def State.removeRing (s : State) (key : Nat) : State :=
  let s := s.dropHeld key false
  { s with rings := s.rings.erase key }

/-- The time of a command in service counts from a later moment. -/
def State.countFrom (s : State) (e : Eci) (t : Nat) : State :=
  match e.path with
  | .mailbox => s.modMb e.fn (fun b => { b with cmd := b.cmd.map (fun c => { c with at_ := max c.at_ t }) })
  | .admin => { s with adminCmd := s.adminCmd.setD e.fn ((s.adminCmd.getD e.fn none).map (fun c => { c with at_ := max c.at_ t })) none }

/-- QUEUE_DESTROY; its time counts from the end of the ring's last started job (R333). -/
def execQueueDestroy (e : Eci) (s : State) : Step :=
  s.eci e 0x0103 anyCmd (s.notMine e.fn) [low 21] s.noSuchRing (fun p =>
    let key := namedRing p
    if !(s.ring key).stopped ∨ s.boundTo key then .done s RC_BUSY []
    else if s.jobs.any (fun j => j.2.ring == key && (s.ring key).kind != 2 && (s.ring key).kind != 3) then .wait
    else .done ((s.countFrom e (s.ring key).doneAt).removeRing key) RC_OK [])

/-- A stopped ring runs again with an empty cache, from QM_QNEXT (R318); a completion ring writes what waits. -/
def State.startRing (s : State) (key : Nat) : State :=
  if !(s.ring key).stopped then s
  else
    let s := ((s.dropFetch key).modRing key (fun r => { r with cache := [] })).setRingState key 1 0
    let s := s.when ((s.ring key).kind == 3) (fun t => t.flushPend key (t.ring key).pend.length)
    s.fetchNext key

/-- QUEUE_START. -/
def execQueueStart (e : Eci) (s : State) : Step :=
  s.eci e 0x0104 anyCmd (s.notMine e.fn) [low 21] s.noSuchRing (fun p =>
    if !(s.fn (s.ring (namedRing p)).fn).bme then .done s RC_NOT_READY [] else .done (s.startRing (namedRing p)) RC_OK [])

/-- QUEUE_STOP; a ring that is stopped already keeps its state and cause (log 93). -/
def execQueueStop (e : Eci) (s : State) : Step :=
  s.eci e 0x0105 anyCmd (s.notMine e.fn) [low 21] s.noSuchRing (fun p =>
    .done (if (s.ring (namedRing p)).stopped then s else s.stopRing (namedRing p) 3 0) RC_OK [])

/-- QUEUE_INVALIDATE. -/
def execQueueInvalidate (e : Eci) (s : State) : Step :=
  s.eci e 0x0106 anyCmd (s.notMine e.fn) [low 21, W32, W32]
    (fun p => s.noSuchRing p || decide (p.getD 2 0 = 0 ∨ (s.ring (namedRing p)).size < p.getD 2 0))
    (fun p => .done ((s.invalidate (namedRing p) (p.getD 1 0) (p.getD 2 0)).fetchNext (namedRing p)) RC_OK [])

/-- QM_QSTATE of a ring. -/
def Ring.stateWord (r : Ring) : Nat := 2 ^ 28 * r.state + 2 ^ 20 * r.cause

/-- The response of QUEUE_QUERY. -/
def Ring.queryWords (r : Ring) : List Nat :=
  respOf (fit 64 r.ctx) ++ [r.stateWord, r.next, r.oldest, r.pend.length] ++
    (List.range 9).flatMap (fun k => words32 2 (r.ctr.get k)) ++ [r.ctr.get C.QM_CPL_PENDING_HWM]

/-- QUEUE_QUERY. -/
def execQueueQuery (e : Eci) (s : State) : Step :=
  s.eci e 0x0107 anyCmd (s.notMine e.fn) [low 21] s.noSuchRing (fun p => .done s RC_OK (s.ring (namedRing p)).queryWords)

end Sys2Proof.Machine
end

