-- ==== Sys2Proof/Machine/EciFn.lean ====
section
/-! DEFINITION. Functions: grants, the descriptor ROM, function level reset, PERST_N, quiesce, removal, dirty-page logging
and the manager role (spec/14_tenants.md R341 to R355, spec/11_host_interface.md R274, R281, spec/18_power_reset_package.md
R413, R418). -/

namespace Sys2Proof.Machine

/-! ### The descriptor ROM (R280, R281) -/

/-- A PF may hold the manager role. -/
def mayManage (f : Nat) : Bool := f == 0 || f == 2

/-- The fields of a function's descriptor ROM from offset 0x010 on, up to LENGTH. -/
def State.romFields (s : State) (f : Nat) : Bytes :=
  let g := (s.fn f).grants
  let pf := decide (f < 4)
  let kind := if !pf then 2 else if mayManage f then 0 else 1
  let linkB := b2n (s.bifurcated.get (s.hostPort f) && s.pfOf f % 2 == 1)
  let w (v : Nat) : Bytes := leBytes 4 v
  let identity := w (kind + 2 ^ 8 * s.pfOf f + 2 ^ 10 * s.hostPort f + 2 ^ 12 * linkB + 2 ^ 16 * f) ++ w 1 ++
    w (Config.fuseVendor.toNat + 2 ^ 16 * (if pf then 0xB320 else 0xB321)) ++ w (0xA1 + 2 ^ 8 * s.rd F.CS_ROM_ID_REV 0) ++
    w (Config.fwVersion s.fwRunning).toNat ++ w (Config.fwBuild s.fwRunning).toNat ++ w s.fwSlot ++ w 0 ++ digest s.fwRunning
  let sizes := w ((if pf then 22 else 18) + 2 ^ 8 * (if mayManage f then 29 else 0)) ++ w g.pages ++ w g.txRings ++ w g.rxRings ++ w g.cqRings ++
    w (6 + 2 ^ 8 * 16) ++ w (g.vectors + 2 ^ 16 * (if pf then 2048 else 64)) ++ w (16000 + 2 ^ 16 * 256)
  let quotas := leBytes 8 (s.features f) ++ w g.esp ++ w g.sessions ++ w g.places ++ w 0 ++ w (Config.fuseCert 0).toNat ++ w (Config.fuseCert 1).toNat
  fit 240 (identity ++ sizes ++ quotas)

/-- The same fields of the recovery personality; unused ones are zero. -/
def State.romRecovery (s : State) (f : Nat) : Bytes :=
  let w (v : Nat) : Bytes := leBytes 4 v
  fit 240 (w (3 + 2 ^ 8 * f + 2 ^ 10 * (f / 2) + 2 ^ 16 * f) ++ w 1 ++ w (Config.fuseVendor.toNat + 2 ^ 16 * 0xB32F) ++
    w (0xA1 + 2 ^ 8 * s.rd F.CS_ROM_ID_REV 0) ++ leBytes 16 0 ++ beBytes 48 Config.romMeasure.toNat ++ w 16 ++ leBytes 20 0 ++
    w (1 + 2 ^ 16) ++ leBytes 28 0 ++ w (Config.fuseCert 0).toNat ++ w (Config.fuseCert 1).toNat)

/-- The 4 KiB of a function's descriptor ROM. -/
def State.rom (s : State) (f : Nat) : Bytes :=
  let d := if s.recovery then s.romRecovery f else s.romFields f
  fit 4096 (leBytes 4 0x42444659 ++ leBytes 4 (1 + 2 ^ 16 * 256) ++ leBytes 4 (s.fn f).romGen ++ leBytes 4 (crc32c d).toNat ++ d)

/-- Firmware rewrites a function's ROM: GENERATION goes odd and even again, and ROM_CHANGED is set. -/
def State.rewriteRom (s : State) (f : Nat) : State :=
  (s.modFn f (fun g => { g with romGen := (g.romGen + 2) % 2 ^ 32 })).raiseFn f F.EVT_FN_ROM_CHANGED

/-! ### Grants (R341, R342) -/

/-- The default grant of a VF and of a PF. -/
def vfGrant : Grants := { pages := 16, txRings := 4, rxRings := 4, cqRings := 4, vectors := 8, features := 0x1C17 }
def pfGrant (pf : Nat) : Grants :=
  { pages := 7936, txRings := 4096, rxRings := 4096, cqRings := 4096, vectors := 2048, features := if mayManage pf then 0x1FFFF else 0xBFFF
    l2 := 524288, flows := 67108864, esp := 1048576, sessions := 262144, places := 1048576 }

/-- Rings of a kind that the grants of all functions but one reserve. -/
def State.reserved (s : State) (kind f : Nat) : Nat :=
  s.fns.foldl (fun a e => a + if e.1 = f then 0 else e.2.grants.rings kind) 0

/-- A default grant is lowered to the rings that remain. -/
def State.fitGrant (s : State) (f : Nat) (g : Grants) : Grants :=
  { g with txRings := min g.txRings (131072 - s.reserved 1 f), rxRings := min g.rxRings (131072 - s.reserved 2 f)
           cqRings := min g.cqRings (131072 - s.reserved 3 f) }

/-- A function gets a grant; one that was UNASSIGNED is ACTIVE from then on. -/
def State.grant (s : State) (f : Nat) (g : Grants) : State :=
  let s := s.modFn f (fun c => { c with grants := g })
  (s.when (s.rd F.HIF_FN_STATE_STATE f == 0) (fun t => t.wr F.HIF_FN_STATE_STATE f 1)).rewriteRom f

/-! ### VF numbers (R273, R274) -/

/-- A PF's share of the VFs, and the function number of its first VF. -/
def State.share (s : State) (pf : Nat) : Nat := (s.fn pf).numVfsShare
def State.vfBase (s : State) (pf : Nat) : Nat := 4 + ((List.range pf).map s.share).foldl (· + ·) 0

/-- A PF's enabled VFs. -/
def State.vfs (s : State) (pf : Nat) : List Nat :=
  if (s.fn pf).vfEnable then (List.range (min (s.fn pf).numVfs (s.share pf))).map (fun k => s.vfBase pf + k) else []

/-- The function presents a configuration space. -/
def State.fnExists (s : State) (f : Nat) : Bool := decide (f < 4) || (s.vfs (s.pfOf f)).contains f

/-! ### What a reset of a function removes (R346, R347) -/

/-- The mailbox page of a function at its reset values; a command outstanding is abandoned (R321). -/
def State.mailboxReset (s : State) (f : Nat) : State :=
  let page (k : Nat) : Bool :=
    let r := k % 512
    (r == Reg.MBX_DATA.ctorIdx && k / 512 / 64 == f) ||
    (k / 512 == f && [Reg.MBX_CMD.ctorIdx, Reg.MBX_ACK.ctorIdx, Reg.MBX_STATUS.ctorIdx, Reg.MBX_TIMEOUT.ctorIdx, Reg.DB_TO_FW.ctorIdx,
      Reg.DB_FROM_FW.ctorIdx, Reg.DB_FROM_FW_MASK.ctorIdx].contains r)
  let s : State := { s with regs := s.regs.filter (fun e => !page e.1), mbox := s.mbox.set f { waitReady := true } }
  s.wr F.EVT_FN_DB_FROM_FW f 0

/-- Commands of the function in progress are abandoned (R347). -/
def State.abandonAll (s : State) (f : Nat) : State :=
  { s with adminCmd := s.adminCmd.setD f none none, longs := s.longs.setD f none none }

/-- The journal once a function's page requests are withdrawn: a record write that waited for one of them may be tried again. -/
def State.journalFree (s : State) (f : Nat) : Journal :=
  if s.preqs.any (fun e => e.2.fn == f && e.2.waiter == .journal) then { s.journal with faulted := false } else s.journal

/-- The function's configuration space at reset, its grants and VF share apart (log 95); its translations go with it. -/
def State.configReset (s : State) (f : Nat) : State :=
  let s := (s.atsRemove f none 0 (2 ^ 64)).1
  let s : State := { s with
    preqs := s.preqs.filter (fun e => e.2.fn != f)
    journal := s.journalFree f
    xreqs := s.xreqs.map (fun e => if e.2.fn = f then (e.1, { e.2 with waiter := .nobody }) else e) }
  s.modFn f (fun g => { grants := g.grants, romGen := g.romGen, numVfsShare := g.numVfsShare })

/-- The function's rings and admin queue are gone, with the frames its receive rings hold and completions not yet
written. -/
def State.destroyRings (s : State) (f : Nat) : State :=
  let keys := (s.rings.filter (fun e => e.2.fn == f && e.2.state != 0)).map (·.1)
  let s := s.each keys (fun k t => t.each (t.ring k).hold (fun h u => u.endPkt h false 7 0))
  { s with rings := s.rings.filter (fun e => !keys.contains e.1), ready := s.ready.filter (fun c => !keys.contains c.target)
           adminCmd := s.adminCmd.setD f none none }

/-- Nodes of a level that satisfy a test, by index. -/
def State.nodesWhere (s : State) (level : Nat) (test : Node → Bool) : List Nat :=
  (s.nodes.filter (fun e => e.1 / 131072 == level && test e.2)).map (fun e => e.1 % 131072)

/-- The function's tenant nodes, and the queues below them. -/
def State.tenantsOf (s : State) (f : Nat) : List Nat := s.nodesWhere 2 (fun n => n.en && n.owner == f)
def State.queuesOf (s : State) (f : Nat) : List Nat := s.nodesWhere 3 (fun n => (s.tenantsOf f).contains n.parent)

/-- Static L2 entries the function owns, as keys of the table; flow entries with its FUNC. -/
def State.l2Of (s : State) (f : Nat) : List Nat := (s.l2.filter (fun e => e.2.valid && !e.2.learned && e.2.owner == f)).map (·.1)
def State.flowsOf (s : State) (f : Nat) : List Nat := (s.flow.filter (fun e => e.2.valid && flowFunc e.2.key == f)).map (·.1)

/-- The function's table entries are removed. -/
def State.removeEntries (s : State) (f : Nat) : State :=
  let s := s.each (s.l2Of f) (fun k t => t.l2Write (k / 524288) (k % 524288) default)
  s.each (s.flowsOf f) (fun k t => t.flowRemove (k / 33554432) (k % 33554432))

/-- MSI-X table, PBA and event page at reset. -/
def State.eventsReset (s : State) (f : Nat) : State :=
  let s : State := { s with msix := s.msix.filter (fun e => e.1 % 2052 != f) }
  let s := (s.put .EVT_FN f 0).put .EVT_FN_VEC f 0
  s.when (decide (f < 4)) (fun t => t.each (List.range 18) (fun w u => u.put .EVT_PEND (pendIx f w) 0))

/-- Firmware's reset of a function whose engines are done with it: rings, queues below its tenant nodes, entries, vectors. -/
def State.resetObjects (s : State) (f : Nat) : State :=
  let s := (s.destroyRings f).abandonAll f
  let s := s.each (s.queuesOf f) (fun q t => t.removeNode 3 q)
  (s.removeEntries f).eventsReset f

/-- JNL_CTRL.EN falls, with its record (R345, R348). -/
def State.journalOff (s : State) : State := if s.on F.JNL_CTRL_EN 0 then (s.wr F.JNL_CTRL_EN 0 0).journalRing else s

/-! ### Function level reset (R346 to R348) -/

/-- Engines that acknowledge: 0 to 15 clusters, 16 to 19 offload groups, 20 the copy engine, 21 and 22 the traffic manager
halves, 23 the release unit, 24 the host interface. -/
def flrEngines : Nat := 25

/-- A function's generation advances. -/
def State.nextGen (s : State) (f : Nat) : State := s.wr F.HIF_FN_STATE_GEN f ((s.rd F.HIF_FN_STATE_GEN f + 1) % 256)

/-- A VF loses its grant and is UNASSIGNED: what it held goes as in a completed reset (log 96). -/
def State.dropVf (s : State) (f : Nat) : State :=
  let s := ((((s.nextGen f).discardReads f).mailboxReset f).flrCopies f).configReset f
  let s := { s with flr := s.flr.setD f none none }
  ((s.resetObjects f).modFn f (fun g => { g with grants := {} })).wr F.HIF_FN_STATE_STATE f 0

/-- VF Enable of a PF changes: its VFs get their default grants, or lose their grants (R341). -/
def State.vfEnable (s : State) (pf : Nat) (on : Bool) (num : Nat) : State :=
  let s := if on then
      let s := s.modFn pf (fun g => { g with vfEnable := true, numVfs := num })
      s.each (s.vfs pf) (fun f t => t.grant f (t.fitGrant f vfGrant))
    else
      let s := s.each (s.vfs pf) (fun f t => t.dropVf f)
      s.modFn pf (fun g => { g with vfEnable := false })
  s.raise (Ev.HIF_VF_ENABLE (s.hostPort pf))

/-- A configuration write changes a PF's VF Enable, with NumVFs as it stands. -/
def execVfEnableWrite (pf : Nat) (on : Bool) (num : Nat) (s : State) : Step :=
  .next (if pf < 4 ∧ (s.fn pf).vfEnable ≠ on then s.vfEnable pf on num else s)

/-- An FLR begins: the release unit and the host interface acknowledge at once. -/
def State.flrStart (s : State) (f : Nat) : State :=
  if s.rd F.HIF_FN_STATE_STATE f = 4 then s
  else
    let r : Flr := { since := s.now, acks := [23, 24], before := s.rd F.HIF_FN_STATE_STATE f }
    let s := (s.nextGen f).wr F.HIF_FN_STATE_STATE f 4
    let s := (({ s with flr := s.flr.setD f (some r) none }).raise (Ev.HIF_FLR (s.hostPort f))).discardReads f
    let s := s.when (s.fn f).vfEnable (fun t => t.vfEnable f false 0)
    ((s.mailboxReset f).abandonAll f).configReset f

/-- A configuration write initiates an FLR. -/
def execFlrStart (f : Nat) (s : State) : Step := .next (if s.fnExists f then s.flrStart f else s)

/-- A thread holds a packet of an old generation of the function. -/
def State.holdsStale (s : State) (f c : Nat) : Bool :=
  s.threads.any (fun e => clusterOf e.1 == c && e.2.func == f && s.stale e.2)

/-- A group destroys the function's contexts that are its own, keys with them (spec/07_offloads.md R176). -/
def State.destroyContexts (s : State) (f g : Nat) : State :=
  let mine := (s.sessions.filter (fun e => e.2.owner == f && e.2.home == g)).map (·.1)
  let s : State := { s with
    espSas := s.espSas.filter (fun e => !(e.2.owner == f && e.2.home == g))
    sessions := s.sessions.filter (fun e => !mine.contains e.1)
    places := s.places.filter (fun e => !mine.contains (e.1 / 65536))
    oflNotes := s.oflNotes.filter (fun n => n.1 != f) }
  s.oflUsed.oflRest

/-- A half discards the frames queued for the function. -/
def State.flushFunction (s : State) (f half : Nat) : State :=
  let mine (p : Packet) : Bool := (!p.fromWire && p.func == f) || (decide (131072 ≤ p.dstRing) && (s.ring p.dstRing).fn == f)
  let qs := (s.nodes.filter (fun e => e.1 / 131072 == 3 && e.1 % 131072 / 32768 == half && !e.2.frames.isEmpty)).map (fun e => e.1 % 131072)
  s.each qs (fun q t => t.flushWhere q mine)

/-- An engine discards its work of the old generation; none when it still holds some. -/
def State.flrDiscard (s : State) (f e : Nat) : Option State :=
  if e < 16 then (if s.holdsStale f e then none else some s)
  else if e < 20 then some (s.destroyContexts f (e - 16))
  else if e = 20 then some (s.flrCopies f)
  else if e < 23 then some (s.flushFunction f (e - 21))
  else some s

/-- Long commands of other functions that name this one: a quiesce completes with OK and leaves it QUIESCED, a save ends
with NOT_READY (R347). -/
def State.flrOthers (s : State) (f : Nat) : State :=
  let on (code : Nat) : List Nat := (s.longs.filter (fun e => match e.2 with
    | some l => l.final.isNone && l.cmd.code == code && l.cmd.words.getD 0 0 == f
    | none => false)).map (·.1)
  let quiesced := on 0x0203
  let s := s.when (!quiesced.isEmpty) (fun t => t.wr F.HIF_FN_STATE_STATE f 3)
  let s := s.each quiesced (fun g t => t.longDone g RC_OK [])
  s.each (on 0x0204) (fun g t => t.longDone g RC_NOT_READY [])

/-- Every engine has acknowledged: firmware carries out the reset and the FLR is complete (R347). -/
def State.flrComplete (s : State) (f : Nat) : State :=
  let r := (s.flr.getD f none).getD {}
  let s := ({ s with flr := s.flr.setD f none none }).resetObjects f
  let s := s.wr F.HIF_FN_STATE_STATE f (if r.before = 0 then 0 else 1)
  let s := (s.unfence (unitObject 1) f).flrOthers f
  let s := s.when (f == s.manager) State.journalOff
  s.setDoorbell f 1

/-- An engine has acknowledged; the last acknowledgement completes the FLR. -/
def State.flrAck (s : State) (f e : Nat) : State :=
  match s.flr.getD f none with
  | none => s
  | some r =>
    let acks := if r.acks.contains e then r.acks else e :: r.acks
    let s := { s with flr := s.flr.setD f (some { r with acks := acks }) none }
    if acks.length = flrEngines then s.flrComplete f else s

/-- A shared engine acknowledges an FLR. -/
def execFlrEngineAck (f engine : Nat) (s : State) : Step :=
  .next (match s.flr.getD f none with
    | none => s
    | some _ => if engine < flrEngines then
        match s.flrDiscard f engine with
        | none => s
        | some t => t.flrAck f engine
      else s)

/-! ### PERST_N and hot reset (R413, R418; spec/13_control_interface.md R338) -/

/-- The functions of a link: PFs and their VFs. -/
def State.functionsOn (s : State) (port link : Nat) : List Nat :=
  let pfs := if s.bifurcated.get port then [2 * port + link] else [2 * port, 2 * port + 1]
  pfs ++ pfs.flatMap s.vfs

/-- A link goes down. -/
def State.linkDown (s : State) (port link : Nat) : State :=
  if (s.hlinks.get (2 * port + link)).up then
    ({ s with hlinks := s.hlinks.set (2 * port + link) {} }).raise (Ev.HIF_LINK_DOWN port)
  else s

/-- The functions of a link are reset, PFs last, so that their VFs are reset before VF Enable falls. -/
def State.resetLink (s : State) (port link : Nat) : State := (s.linkDown port link).each (s.functionsOn port link).reverse (fun f t => t.flrStart f)

/-- PERST_N of a host port is asserted; a recovery function of that port gives up the flash. -/
def execPerstAssert (port : Nat) (s : State) : Step :=
  .next (if port < 2 ∧ !s.perst.get port then
    let s := ({ s with perst := s.perst.set port true }).raise (Ev.HIF_PERST port)
    let s := s.when (s.flashHolder == some (2 * port)) (fun t => { t with flashHolder := none })
    let s := s.resetLink port 0
    s.when (s.bifurcated.get port) (fun t => t.resetLink port 1)
  else s)

/-- A hot reset on a link. -/
def execHifHotReset (port link : Nat) (s : State) : Step :=
  .next (if s.linkExists port link then (s.raise (Ev.HIF_HOT_RESET port)).resetLink port link else s)

/-- PERST_N of a host port is deasserted: its links may train. -/
def execPerstDeassert (port : Nat) (s : State) : Step :=
  .next (if port < 2 ∧ s.perst.get port then { s with perst := s.perst.set port false } else s)

/-! ### FN_ASSIGN_VFS, FN_GRANT, FN_QUERY -/

/-- The shares a payload asks for. -/
def sharesOf (p : List Nat) : List Nat :=
  [bits (p.getD 0 0) 15 0, bits (p.getD 0 0) 31 16, bits (p.getD 1 0) 15 0, bits (p.getD 1 0) 31 16]

/-- FN_ASSIGN_VFS. -/
def execFnAssignVfs (e : Eci) (s : State) : Step :=
  s.eci e 0x0200 anyCmd (s.managerOnly e.fn) [W32, W32] noCheck (fun p =>
    let v := sharesOf p
    if (List.range 4).any (fun k => (s.fn k).vfEnable && s.share k != v.getD k 0) then .done s RC_BUSY []
    else if 2048 < v.foldl (· + ·) 0 then .done s RC_LIMIT []
    else .done (s.each (List.range 4) (fun k t => t.modFn k (fun g => { g with numVfsShare := v.getD k 0 }))) RC_OK [])

/-- The FUNC of a payload's first word names no function. -/
def noFunc (p : List Nat) : Bool := decide (2052 ≤ bits (p.getD 0 0) 11 0)

/-- Queue pages in use. -/
def State.pagesUsed (s : State) (f : Nat) : Nat := (s.rings.filter (fun e => e.2.state != 0 && e.2.fn == f)).length

/-- L2 entries in use: the most in any pipeline (log 97). -/
def State.l2Used (s : State) (f : Nat) : Nat :=
  ((List.range 4).map (fun p => ((s.l2Of f).filter (fun k => k / 524288 == p)).length)).foldl max 0

/-- The grant a payload asks for; quotas of offload contexts stay (R174). -/
def State.grantOf (s : State) (f : Nat) (p : List Nat) : Grants :=
  { (s.fn f).grants with pages := p.getD 1 0, txRings := p.getD 2 0, rxRings := p.getD 3 0, cqRings := p.getD 4 0, vectors := p.getD 5 0
                         features := w64 p 6, l2 := p.getD 8 0, flows := p.getD 9 0 }

/-- A grant out of range: more than the BARs and tables of the function hold, an unknown feature, MIGRATION of a VF. -/
def grantBad (f : Nat) (g : Grants) : Bool :=
  decide ((if f < 4 then 7936 else 256) < g.pages ∨ 131072 < g.txRings ∨ 131072 < g.rxRings ∨ 131072 < g.cqRings ∨
    (if f < 4 then 2048 else 64) < g.vectors ∨ 67108864 < g.flows ∨ 2 ^ 17 ≤ g.features) || (decide (4 ≤ f) && bit g.features 13)

/-- A grant below what the function uses. -/
def State.grantBelow (s : State) (f : Nat) (g : Grants) : Bool :=
  decide (g.pages < s.pagesUsed f ∨ g.txRings < s.ringsHeld 1 (some f) ∨ g.rxRings < s.ringsHeld 2 (some f) ∨
    g.cqRings < s.ringsHeld 3 (some f) ∨ g.l2 < s.l2Used f ∨ g.flows < (s.flowsOf f).length) ||
  s.rings.any (fun e => e.2.state != 0 && e.2.fn == f && (e.2.page ≥ g.pages || ((e.2.kind == 3 || e.2.isHead) && e.2.vector ≥ g.vectors)))

/-- FN_GRANT. -/
def execFnGrant (e : Eci) (s : State) : Step :=
  s.eci e 0x0201 anyCmd (s.managerOnly e.fn) [low 12, low 13, low 17, low 17, low 17, low 12, W32, W32, low 20, low 27]
    (fun p => noFunc p || grantBad (p.getD 0 0) (s.grantOf (p.getD 0 0) p)) (fun p =>
      let f := p.getD 0 0
      let g := s.grantOf f p
      if s.grantBelow f g then .done s RC_BUSY []
      else if [1, 2, 3].any (fun k => decide (131072 < g.rings k + s.reserved k f)) then .done s RC_NO_RESOURCE []
      else .done (s.grant f g) RC_OK [])

/-- FN_QUERY words Q0 to Q9. -/
def State.grantWords (s : State) (f : Nat) : List Nat :=
  let g := (s.fn f).grants
  [f, g.pages, g.txRings, g.rxRings, g.cqRings, g.vectors] ++ words32 2 (s.features f) ++ [g.l2, g.flows]

/-- The response of FN_QUERY. -/
def State.fnWords (s : State) (f : Nat) : List Nat :=
  s.grantWords f ++ [s.pagesUsed f, s.ringsHeld 1 (some f), s.ringsHeld 2 (some f), s.ringsHeld 3 (some f), s.l2Used f, (s.flowsOf f).length,
    s.rd F.HIF_FN_STATE_GEN f + 2 ^ 8 * b2n (s.rd F.HIF_FN_STATE_STATE f == 3) + 2 ^ 9 * s.rd F.HIF_FN_STATE_MIGRATING f]

/-- FN_QUERY. -/
def execFnQuery (e : Eci) (s : State) : Step :=
  s.eci e 0x0202 anyCmd (s.ownOnly e.fn (fun p => bits (p.getD 0 0) 11 0)) [low 12] noFunc (fun p => .done s RC_OK (s.fnWords (p.getD 0 0)))

/-! ### Quiesce, release, removal (R349 to R351) -/

/-- A quiesce begins. -/
def State.quiesceStart (s : State) (f : Nat) : State :=
  let s := s.wr F.HIF_FN_STATE_STATE f 2
  let s := s.each (s.ringsOf f) (fun k t => t.dropHeld k false)
  { s.quiesceCopies f with quiesceLate := s.quiesceLate.set f false }

/-- FN_QUIESCE without RELEASE; a function that is neither ACTIVE nor QUIESCED cannot be quiesced (log 98). -/
def execFnQuiesce (e : Eci) (s : State) : Step :=
  s.eci e 0x0203 (fun p => !bit (p.getD 0 0) 31) (s.managerOnly e.fn) [low 12] noFunc (fun p =>
    let f := p.getD 0 0
    let st := s.rd F.HIF_FN_STATE_STATE f
    if s.longBusy e.fn ∨ st = 2 then .done s RC_BUSY []
    else if st = 5 then .done s RC_FENCED []
    else if st = 3 then .started s
    else if st = 1 then .started (s.quiesceStart f)
    else .done s RC_NOT_READY [])

/-- Work of the function that is not yet over: reads, jobs, completions, frames on their way to its rings, copy channels,
offload requests. -/
def State.fnBusy (s : State) (f : Nat) : Bool :=
  s.reads.any (fun e => e.2.fn == f && !e.2.discarded) || s.jobs.any (fun e => e.2.func == f && (e.2.produced || (s.ring e.2.ring).state != 2)) ||
  s.ready.any (fun c => (s.ring c.target).fn == f && (s.ring c.target).state == 1) || !(s.copiesOf f).isEmpty ||
  s.pkts.any (fun e => (match e.2.stage with
    | .rxDma r => (s.ring r).fn == f
    | _ => false) || (!e.2.fromWire && e.2.func == f && !e.2.deferred.isEmpty)) ||
  (!s.quiesceLate.get f && s.rings.any (fun e => e.2.state == 1 && e.2.fn == f && !e.2.pend.isEmpty))

/-- No DMA of the function remains: its unstarted cached entries are discarded, its page requests withdrawn; a job that
waits for a page is unstarted again. -/
def State.quiesced (s : State) (f : Nat) : State :=
  let waiting := s.jobs.filter (fun e => e.2.func == f && !e.2.produced)
  let s := s.each waiting (fun e t => t.unstart e.2.ring e.2.index)
  let s : State := { s with
    preqs := s.preqs.filter (fun e => e.2.fn != f)
    journal := s.journalFree f
    rings := s.rings.map (fun e => if e.2.fn = f then (e.1, { e.2 with cache := [], fetching := none, push := [] }) else e) }
  s.wr F.HIF_FN_STATE_STATE f 3

/-- 100 ms have passed with completions pending in a full ring: they stay pending and are carried in the saved state. -/
def execQuiescePendingTimeout (f : Nat) (s : State) : Step :=
  let late := s.longs.any (fun e => match e.2 with
    | some l => l.final.isNone && l.cmd.code == 0x0203 && l.cmd.words.getD 0 0 == f && decide (l.since + 100000000 ≤ s.now)
    | none => false)
  .next (if late ∧ s.rd F.HIF_FN_STATE_STATE f = 2 then { s with quiesceLate := s.quiesceLate.set f true } else s)

/-- A quiesced function goes on: rings as they were left, fetching from QM_QNEXT; a ring that waited for a page fetches
its entry again (log 99). -/
def State.releaseFn (s : State) (f : Nat) : State :=
  let s := s.wr F.HIF_FN_STATE_STATE f 1
  let s := s.each (s.ringsOf f) (fun k t =>
    let t := t.when ((t.ring k).state == 2) (fun u => u.setRingState k 1 0)
    (t.flushPend k (t.ring k).pend.length).fetchNext k)
  s.sendPending f

/-- FN_QUIESCE with RELEASE. -/
def execFnRelease (e : Eci) (s : State) : Step :=
  s.eci e 0x0203 (fun p => bit (p.getD 0 0) 31) (s.managerOnly e.fn) [low 12 + 2 ^ 31] noFunc (fun p =>
    let f := bits (p.getD 0 0) 11 0
    if s.longBusy e.fn ∨ s.rd F.HIF_FN_STATE_STATE f ≠ 3 then .done s RC_BUSY [] else .started (s.releaseFn f))

/-- A function's migration slot is free again. -/
def State.freeSlot (s : State) (f : Nat) : State :=
  if !s.on F.HIF_FN_STATE_MIGRATING f then s
  else
    let k := s.rd F.HIF_FN_STATE_SLOT f
    let s := ((s.wr F.HIF_FN_STATE_MIGRATING f 0).wr F.HIF_FN_STATE_SLOT f 0).wr F.HIF_FN_STATE_ALL_DIRTY f 0
    { s.wr F.HIF_MIG_CTRL_EN k 0 with migFilter := s.migFilter.filter (fun e => e.1 != k) }

/-- A quiesced function is removed. -/
def State.removeFn (s : State) (f : Nat) : State :=
  let s := (s.nextGen f).resetObjects f
  let s := s.each [0, 1, 2, 3] (fun g t => t.destroyContexts f g)
  let s := (s.each (s.tenantsOf f) (fun i t => t.removeNode 2 i)).freeSlot f
  ((s.modFn f (fun g => { g with grants := {} })).wr F.HIF_FN_STATE_STATE f 0).rewriteRom f

/-- FN_REMOVE. -/
def execFnRemove (e : Eci) (s : State) : Step :=
  s.eci e 0x0207 anyCmd (s.managerOnly e.fn) [low 12] noFunc (fun p =>
    if s.rd F.HIF_FN_STATE_STATE (p.getD 0 0) ≠ 3 then .done s RC_QUIESCE_REQUIRED [] else .done (s.removeFn (p.getD 0 0)) RC_OK [])

/-! ### Dirty-page logging (R352, R354) -/

/-- A slot starts logging for a function. -/
def State.migStart (s : State) (f k base log2 : Nat) : State :=
  let s := (s.put .HIF_MIG_BASE k base).put .HIF_MIG_CTRL k (2 ^ 31 + 2 ^ 24 * log2 + f)
  let s := (s.put .HIF_MIG_PROD k 0).put .HIF_MIG_CONS k 0
  let s : State := { s with migFilter := s.migFilter.filter (fun e => e.1 != k) }
  ((s.wr F.HIF_FN_STATE_MIGRATING f 1).wr F.HIF_FN_STATE_SLOT f k).wr F.HIF_FN_STATE_ALL_DIRTY f 0

/-- The reply of FN_MIGRATE_LOG about a function's slot. -/
def State.migWords (s : State) (f : Nat) : List Nat :=
  if s.on F.HIF_FN_STATE_MIGRATING f then
    [s.rd F.HIF_MIG_CTRL_ALL_DIRTY (s.rd F.HIF_FN_STATE_SLOT f), s.val .HIF_MIG_PROD (s.rd F.HIF_FN_STATE_SLOT f)]
  else [0, 0]

/-- FN_MIGRATE_LOG. -/
def execFnMigrateLog (e : Eci) (s : State) : Step :=
  s.eci e 0x0206 anyCmd (fun _ => e.fn != s.manager || !s.feature e.fn 13) [low 12 + 2 ^ 31, W32, W32, low 5]
    (fun p => noFunc p || (bit (p.getD 0 0) 31 && (w64 p 1 % 4096 != 0 || decide (p.getD 3 0 < 6 ∨ 20 < p.getD 3 0)))) (fun p =>
      let f := bits (p.getD 0 0) 11 0
      if !bit (p.getD 0 0) 31 then .done (s.freeSlot f) RC_OK (s.migWords f)
      else if s.rings.any (fun r => r.2.state != 0 && r.2.fn == f && r.2.pasid.isSome) then .done s RC_BUSY []
      else if s.on F.HIF_FN_STATE_MIGRATING f then
        let t := s.migStart f (s.rd F.HIF_FN_STATE_SLOT f) (w64 p 1) (p.getD 3 0)
        .done t RC_OK (t.migWords f)
      else match firstFree 64 s.fresh (fun k => s.on F.HIF_MIG_CTRL_EN k) with
        | none => .done s RC_LIMIT []
        | some k =>
          let t := s.used.migStart f k (w64 p 1) (p.getD 3 0)
          .done t RC_OK (t.migWords f))

/-- A write of HIF_MIG_CONS: filter entries it passes are released, or it is logged like a write of a firmware-owned
register. -/
def State.migCons (s : State) (k v : Nat) : State :=
  if s.migSize k < ixSub (s.val .HIF_MIG_PROD k) v then s.logFwWrite (0x09820010 + 0x20 * k) v
  else
    let passed (i : Nat) : Bool := decide (0 < ixSub v i ∧ ixSub v i < 2 ^ 31)
    { s.put .HIF_MIG_CONS k v with migFilter := s.migFilter.filter (fun e => !(e.1 == k && passed e.2.2)) }

/-- A manager write of HIF_MIG_CONS. -/
def execHifMigConsWrite (fn slot v : Nat) (s : State) : Step :=
  .next (if slot < 64 then s.asManager fn (fun s => s.migCons slot (v % 2 ^ 32)) else s)

/-! ### The manager role (R344, R345) -/

/-- The present manager cannot act: its driver is absent, or its host port is held in reset or has no link. -/
def State.managerGone (s : State) : Bool :=
  let port := s.hostPort s.manager
  (s.mb s.manager).absent || s.perst.get port || [0, 1].all (fun k => !(s.hlinks.get (2 * port + k)).up)

/-- Who may send MGR_ROLE, and what it may name. -/
def State.roleDenied (s : State) (f : Nat) (p : List Nat) : Bool :=
  f != s.manager && !(mayManage f && p.getD 0 0 == f && s.managerGone)

/-- A function has a command in progress other than a MGR_ROLE. -/
def State.commanding (s : State) (f : Nat) : Bool :=
  (match (s.mb f).cmd with
    | some c => !c.abandoned && c.code != 0x0208
    | none => false) ||
  (match s.adminCmd.getD f none with
    | some c => c.code != 0x0208
    | none => false) || s.longBusy f

/-- Commands of the old manager are still in progress, or of the new one, which end with the rights they were accepted under
(R329; log 220). -/
def State.roleWaits (s : State) (pf : Nat) : Bool := s.commanding s.manager || s.commanding pf

/-- The role moves. -/
def State.moveRole (s : State) (pf : Nat) : State :=
  let old := s.manager
  let keys := (s.rings.filter (fun e => e.2.state != 0 && e.2.mgmt && e.2.fn == old)).map (·.1)
  let s := (s.journalOff).each keys (fun k t => t.removeRing k)
  let s := ({ s with manager := pf }).journalCfg 0x0B 1 (leBytes 1 pf)
  let s := (s.rewriteRom old).rewriteRom pf
  s.each [0, 1, 2, 3] (fun f t => t.setDoorbell f 2)

/-- MGR_ROLE. -/
def execMgrRole (e : Eci) (s : State) : Step :=
  s.eci e 0x0208 anyCmd (s.roleDenied e.fn) [low 2] (fun p => !mayManage (p.getD 0 0) || p.getD 0 0 == s.manager) (fun p =>
    if s.roleWaits (p.getD 0 0) then .wait else .done (s.moveRole (p.getD 0 0)) RC_OK [])

end Sys2Proof.Machine
end

