-- ==== Sys2Proof/Machine/EciTables.lean ====
section
/-! DEFINITION. ECI group 0x03xx: the L2 table, the flow table and the routes (spec/04_parsing_and_tables.md R97, R104,
R105, R110 to R112, spec/13_control_interface.md R336). -/

namespace Sys2Proof.Machine

/-! ### L2 entries (R97) -/

/-- The entry a payload carries from word k on; VALID is set, HIT, STALE and LEARNED are clear (log 101). -/
def l2Payload (p : List Nat) (k : Nat) : L2Entry :=
  { L2Entry.decode (wBytes p k 4) with valid := true, hit := false, stale := false, learned := false }

/-- Pipelines a mask names. -/
def maskPipes (p : List Nat) : List Nat := (List.range 4).filter (fun k => bit (p.getD 0 0) k)

/-- Place of the entry's key in a pipeline. -/
def State.l2Place (s : State) (pipe : Nat) (e : L2Entry) : Option Nat := s.l2Find pipe e.mac e.tag e.isVni

/-- A tenant driver may write and delete static entries of its own only. -/
def State.l2Denied (s : State) (f : Nat) (p : List Nat) : Bool :=
  let e := l2Payload p 1
  f != s.manager && (!e.static || e.owner != f || (maskPipes p).any (fun k => match s.l2Place k e with
    | some i => (s.l2.get (l2Key k i)).owner != f
    | none => false))

/-- An entry out of range. -/
def l2Bad (p : List Nat) : Bool :=
  let e := l2Payload p 1
  decide (2052 ≤ e.owner) || (if e.destFn then decide (2052 ≤ e.dest) else decide (16 ≤ e.dest)) || (!e.isVni && decide (4096 ≤ e.tag))

/-- The place an entry gets in a pipeline: the place of its key, or a free way. -/
def State.l2Slot (s : State) (pipe : Nat) (e : L2Entry) : Option Nat := (s.l2Place pipe e).orElse (fun _ => s.l2Free pipe e.mac e.tag e.isVni)

/-- The owner's cap is reached in a pipeline in which the entry would be new. -/
def State.l2Over (s : State) (pipe : Nat) (e : L2Entry) : Bool :=
  let mine (i : Nat) : Bool := let x := s.l2.get (l2Key pipe i); x.owner == e.owner && !x.learned
  !((s.l2Place pipe e).map mine).getD false && decide ((s.fn e.owner).grants.l2 ≤ ((s.l2Of e.owner).filter (fun k => k / 524288 == pipe)).length)

/-- Index words of a write: 0x7_FFFF where no entry is written. -/
def indexWords (pipes : List Nat) (slot : Nat → Option Nat) : List Nat :=
  (List.range 4).map (fun k => if pipes.contains k then (slot k).getD 0x7FFFF else 0x7FFFF)

/-- TBL_L2_WRITE without DELETE. -/
def execTblL2Write (e : Eci) (s : State) : Step :=
  s.eci e 0x0300 (fun p => !bit (p.getD 0 0) 8) (s.l2Denied e.fn) [0x10F, W32, low 31, low 30, W32] l2Bad (fun p =>
    let x := l2Payload p 1
    let pipes := maskPipes p
    if pipes.any (fun k => s.l2Over k x) then .done s RC_LIMIT []
    else if pipes.any (fun k => (s.l2Slot k x).isNone) then .done s RC_NO_RESOURCE []
    else .done (s.each pipes (fun k t => t.l2Write k ((s.l2Slot k x).getD 0) x)) RC_OK (indexWords pipes (fun k => s.l2Slot k x)))

/-- TBL_L2_WRITE with DELETE; a key that a pipeline does not hold is no error (log 102). -/
def execTblL2Delete (e : Eci) (s : State) : Step :=
  s.eci e 0x0300 (fun p => bit (p.getD 0 0) 8) (s.l2Denied e.fn) [0x10F, W32, low 31, low 30, W32] l2Bad (fun p =>
    let x := l2Payload p 1
    .done (s.each (maskPipes p) (fun k t => match s.l2Place k x with
      | some i => t.l2Write k i default
      | none => t)) RC_OK (indexWords [] (fun _ => none)))

/-- The entry TBL_L2_READ names. -/
def State.l2Named (s : State) (p : List Nat) : L2Entry := s.l2.get (l2Key (p.getD 0 0) (p.getD 1 0))

/-- TBL_L2_READ; a tenant driver reads static entries of its own only. -/
def execTblL2Read (e : Eci) (s : State) : Step :=
  s.eci e 0x0301 anyCmd (fun p => e.fn != s.manager && !((s.l2Named p).valid && (s.l2Named p).static && (s.l2Named p).owner == e.fn))
    [low 2, low 19] noCheck (fun p => .done s RC_OK (respOf (s.l2Named p).encode))

/-- TBL_L2_FLUSH. -/
def execTblL2Flush (e : Eci) (s : State) : Step :=
  s.eci e 0x0302 anyCmd (s.managerOnly e.fn) [low 9] noCheck (fun p =>
    let hit (k : Nat) (x : L2Entry) : Bool := x.valid && x.learned && (maskPipes p).contains (k / 524288) &&
      (!bit (p.getD 0 0) 4 || (!x.destFn && x.dest == bits (p.getD 0 0) 8 5))
    let ks := (s.l2.filter (fun x => hit x.1 x.2)).map (·.1)
    .done (s.each ks (fun k t => t.l2Write (k / 524288) (k % 524288) default)) RC_OK [ks.length])

/-! ### Flow entries (R104, R105) -/

/-- A key that the commands take: type, FUNC and the zero fields of its type. -/
def flowKeyBad (k : Bytes) : Bool :=
  let t := leAt k 0 1
  let zero (o n : Nat) : Bool := leAt k o n == 0
  !flowKeyOk k || decide (2052 ≤ flowFunc k) || (decide (t ≤ 2) && !(zero 0x0C 4 && zero 0x30 16)) ||
    (t == 1 && !(zero 0x14 12 && zero 0x24 12))

/-- A tenant driver names keys with its own FUNC only. -/
def State.flowDenied (s : State) (f : Nat) (k : Bytes) : Bool := f != s.manager && flowFunc k != f

/-- Place of an entry as the responses give it. -/
def flowWord (k : Bytes) (loc : Nat) : Nat := loc + 2 ^ 31 * flowHalf k

/-- TBL_FLOW_INSERT; REPLACE of a key that is present returns OK (log 103). -/
def execTblFlowInsert (e : Eci) (s : State) : Step :=
  s.eci e 0x0303 anyCmd (fun p => s.flowDenied e.fn (wBytes p 1 16) || (e.fn != s.manager && bit (p.getD 29 0) 4))
    ([1] ++ List.replicate 28 W32 ++ [low 5, 0, 0, 0]) (fun p => flowKeyBad (wBytes p 1 16)) (fun p =>
      let k := wBytes p 1 16
      let f := flowFunc k
      if (s.flowFind k).isNone ∧ (s.fn f).grants.flows ≤ (s.flowsOf f).length then .done s RC_LIMIT []
      else
        let replace := bit (p.getD 0 0) 0
        let r := s.flowInsert k (wBytes p 17 12) (bit (p.getD 29 0) 1) (bit (p.getD 29 0) 4) replace
        match r.2.1 with
        | 3 => .done r.1 RC_OK [flowWord k r.2.2]
        | 4 => if replace then .done r.1 RC_OK [flowWord k r.2.2] else .done r.1 0x80 []
        | _ => .done r.1 RC_NO_RESOURCE [])

/-- TBL_FLOW_DELETE. -/
def execTblFlowDelete (e : Eci) (s : State) : Step :=
  s.eci e 0x0304 anyCmd (fun p => s.flowDenied e.fn (wBytes p 0 16)) (List.replicate 16 W32) (fun p => flowKeyBad (wBytes p 0 16)) (fun p =>
    match s.flowFind (wBytes p 0 16) with
    | none => .done s 0x81 []
    | some _ => .done (s.flowDelete (wBytes p 0 16)).1 RC_OK [])

/-- TBL_FLOW_LOOKUP; firmware's look leaves HIT as it is (log 104). -/
def execTblFlowLookup (e : Eci) (s : State) : Step :=
  s.eci e 0x0305 anyCmd (fun p => s.flowDenied e.fn (wBytes p 0 16)) (List.replicate 16 W32) (fun p => flowKeyBad (wBytes p 0 16)) (fun p =>
    let k := wBytes p 0 16
    match s.flowFind k with
    | none => .done s 0x81 []
    | some l => .done s RC_OK (respOf (s.flow.get (flowLoc (flowHalf k) l)).encode))

/-! ### Routes (R110 to R112) -/

/-- A change of the change list. -/
structure RouteChange where
  v6 : Bool := false
  delete : Bool := false
  plen : Nat := 0
  /-- the address bits, 32 or 128 -/
  addr : Nat := 0
  route : Route := {}
  bad : Bool := false
deriving Inhabited

/-- Reads a change. -/
def routeChange (b : Bytes) : RouteChange :=
  let w := leAt b 0 4
  let v6 := bit w 0
  let width := if v6 then 128 else 32
  let plen := bits w 15 8
  let addr := beAt b 8 (width / 8)
  let r := leAt b 0x18 8
  let tail := addr % 2 ^ (width - plen) != 0 || (!v6 && beAt b 12 12 != 0)
  { v6 := v6, delete := bit w 1, plen := plen, addr := addr
    route := { valid := true, nextHop := bits r 19 0, flags := bits r 31 28, user := bits r 60 32 }
    bad := bits w 31 16 != 0 || bits w 7 2 != 0 || leAt b 4 4 != 0 || decide (width < plen) || tail || (!bit w 1 && bits r 63 61 != 0) }

/-- A family's limit of prefixes. -/
def routeLimit (v6 : Bool) : Nat := if v6 then 1048576 else 2097152

/-- A result index not in use. -/
def Lpm.freeRef (l : Lpm) : Nat := l.results.foldl (fun a e => max a (e.1 + 1)) 1

/-- The prefix's result entry is written first; its old one is freed once the trie no longer refers to it. -/
def State.installRoute (s : State) (c : RouteChange) (key : Nat) : State :=
  let m := s.lpm.routes c.v6
  let old := m.get key
  let ref := s.lpm.freeRef
  let s : State := if c.delete then { s with lpm := s.lpm.setRoutes c.v6 (m.set key {}) }
    else { s with lpm := { s.lpm.setRoutes c.v6 (m.set key { c.route with ref := ref }) with results := s.lpm.results.set ref (c.route.word c.plen) } }
  let s := s.lpmFollow c.v6 c.addr c.plen
  if old.valid then { s with lpm := { s.lpm with results := s.lpm.results.erase old.ref } } else s

/-- Applies one change; none when the count would pass its limit. -/
def State.applyRoute (s : State) (c : RouteChange) : Option State :=
  let m := s.lpm.routes c.v6
  let key := routeKey (topBits (lpmWidth c.v6) c.addr c.plen) c.plen
  let there := (m.get key).valid
  if c.delete && !there then some s
  else if !c.delete && !there && decide (routeLimit c.v6 ≤ m.length) then none
  else
    let s := s.installRoute c key
    some (s.wr (if c.v6 then F.TBL_LPM_COUNT_PREFIX6 else F.TBL_LPM_COUNT_PREFIX4) 0 (s.lpm.routes c.v6).length)

/-- Applies a batch in order; none when any change does not fit. -/
def State.applyRoutes (s : State) : List RouteChange → Option State
  | [] => some s
  | c :: r => match s.applyRoute c with
    | none => none
    | some t => t.applyRoutes r

/-- TBL_ROUTE_BATCH; a batch that does not fit is refused with TBL_LPM_NO_SPACE (R112, R114). -/
def execTblRouteBatch (e : Eci) (s : State) : Step :=
  s.eci e 0x0306 anyCmd (s.managerOnly e.fn) [low 5, W32, W32] (fun p => decide (p.getD 0 0 = 0 ∨ 16 < p.getD 0 0)) (fun p =>
    let n := p.getD 0 0
    match s.dmaIn e.fn (w64 p 1) (32 * n) e.io.head? with
    | (t, none, rc) => .done t rc []
    | (t, some b, _) =>
      let cs := (List.range n).map (fun k => routeChange (slice b (32 * k) 32))
      if cs.any (fun c => c.bad) then .done t RC_BAD_ARG []
      else match t.applyRoutes cs with
        | none => .done (t.raise Ev.TBL_LPM_NO_SPACE) RC_NO_RESOURCE []
        | some u => .done u RC_OK [n])

/-- TBL_ROUTE_LOOKUP. -/
def execTblRouteLookup (e : Eci) (s : State) : Step :=
  s.eci e 0x0307 anyCmd (s.managerOnly e.fn) [1, W32, W32, W32, W32] noCheck (fun p =>
    let v6 := bit (p.getD 0 0) 0
    .done s RC_OK (words32 2 (s.lpmStatus v6 (beAt (wBytes p 1 4) 0 (if v6 then 16 else 4)))))

end Sys2Proof.Machine
end

