-- ==== Sys2Proof/Machine/EciTm.lean ====
section
/-! DEFINITION. ECI group 0x04xx: scheduler nodes, replication groups, observation (spec/08_traffic_manager.md R205, R208,
R222, R225, R226, spec/14_tenants.md R343, spec/13_control_interface.md R336). -/

namespace Sys2Proof.Machine

/-- Nodes of a level that are not in use. -/
def State.freeNodes (s : State) (level : Nat) : Nat := nodeCount level - (s.nodesWhere level Node.en).length

/-- Member entries in use. -/
def State.membersUsed (s : State) : Nat := s.mcast.foldl (fun a e => a + e.2.length) 0

/-- TM_CAPS. -/
def execTmCaps (e : Eci) (s : State) : Step :=
  s.eci e 0x0400 anyCmd noCheck [] noCheck (fun _ =>
    .done s RC_OK [s.freeNodes 3, s.freeNodes 2, s.freeNodes 1, s.rd F.TM_OBS_CFG_MODE 0, s.rd F.TM_OBS_QUEUES_ENABLED 0, 1048576 - s.membersUsed])

/-! ### Who may name a node (R226) -/

/-- A tenant node of the function, a queue of it or a queue below such a node. -/
def State.reaches (s : State) (f level i : Nat) : Bool :=
  f == s.manager || (level == 2 && (s.node 2 i).owner == f) ||
    (level == 3 && ((s.node 3 i).owner == f || (s.node 2 (s.node 3 i).parent).owner == f))

/-- The level and index of a payload's first two words. -/
def nodeOf (p : List Nat) : Nat × Nat := (bits (p.getD 0 0) 1 0, p.getD 1 0)

/-- The node a payload names is out of the function's reach. -/
def State.nodeDenied (s : State) (f : Nat) (p : List Nat) : Bool := !s.reaches f (nodeOf p).1 (nodeOf p).2

/-- The index lies outside its level. -/
def noNode (p : List Nat) : Bool := decide (nodeCount (nodeOf p).1 ≤ (nodeOf p).2)

/-- The configuration of eight payload words, in use. -/
def cfgOf (p : List Nat) (k : Nat) : Bytes := wBytes p k 8

/-- Replaces EN, PARENT or OWNER of a configuration. -/
def withEn (c : Bytes) : Bytes := patch c 0 (leBytes 4 (putBits (leAt c 0 4) 31 31 1))
def withParent (c : Bytes) (i : Nat) : Bytes := patch c 8 (leBytes 4 (putBits (leAt c 8 4) 13 0 i))
def withOwner (c : Bytes) (f : Nat) : Bytes := patch c 12 (leBytes 4 (putBits (leAt c 12 4) 31 20 f))

/-- The code that refuses a node write, 0 when it may be made. -/
def State.nodeCode (s : State) (level i : Nat) (cfg : Bytes) : Nat :=
  let n : Node := { cfg := cfg }
  let old := s.node level i
  if !parentOk level i n.parent ∨ !n.fieldsOk level (decide (16 ≤ s.portUnder level i n.parent)) ∨
      (!n.en ∧ level = 3 ∧ isDefaultQueue i) then RC_BAD_ARG
  else if level = 3 ∧ n.en ∧ !old.en ∧ !s.on F.TM_OBS_CFG_MODE 0 ∧ 8192 ≤ s.rd F.TM_OBS_QUEUES_ENABLED 0 then RC_LIMIT
  else if s.nodeRefused level i cfg then RC_BUSY
  else RC_OK

/-- A tenant driver's configuration for a new queue: its parent a tenant node of its own, OWNER itself. -/
def State.newDenied (s : State) (f : Nat) (cfg : Bytes) : Bool :=
  let n : Node := { cfg := cfg }
  f != s.manager && ((s.node 2 n.parent).owner != f || n.owner != f)

/-- What a tenant driver may not write to a node in its reach: of its tenant node anything; of a queue a parent that is neither the
present one nor a tenant node of its own, an OWNER that is neither the present one nor itself (R226; log 201). -/
def State.cfgDenied (s : State) (f level i : Nat) (cfg : Bytes) : Bool :=
  let n : Node := { cfg := cfg }
  let o := s.node level i
  f != s.manager && (if level = 3 then (n.parent != o.parent && (s.node 2 n.parent).owner != f) || (n.owner != o.owner && n.owner != f)
    else decide (fit 32 o.cfg ≠ cfg))

/-- A tenant driver asks for a rate or burst above its tenant node's. -/
def State.aboveTenant (s : State) (f level : Nat) (cfg : Bytes) : Bool :=
  let n : Node := { cfg := cfg }
  let t := s.node 2 n.parent
  f != s.manager && level == 3 && decide (t.rate < n.rate ∨ t.burst < n.burst)

/-! ### TM_NODE_CREATE, TM_TENANT_GRANT -/

/-- First index and number of indices a node below a parent may get. -/
def nodeRange (level parent : Nat) : Nat × Nat :=
  match level with
  | 1 => (512 * nodeHalf 0 parent, 512)
  | 2 => (4096 * (parent / 256), 4096)
  | _ => (16384 * (parent / 4096), 16384)

/-- Creates a node at an index of the adapter's choice (log 105). -/
def State.createNode (s : State) (level : Nat) (cfg : Bytes) : EciOut :=
  let r := nodeRange level ({ cfg := cfg } : Node).parent
  match firstFree r.2 s.fresh (fun k => (s.node level (r.1 + k)).en) with
  | none => .done s RC_NO_RESOURCE []
  | some k =>
    let i := r.1 + k
    let code := s.nodeCode level i cfg
    if code ≠ RC_OK then .done s code [] else .done (s.used.writeNode level i cfg) RC_OK [i]

/-- A configuration that no index of its level could take. -/
def State.cfgBad (s : State) (level : Nat) (cfg : Bytes) : Bool :=
  level == 0 || s.nodeCode level (nodeRange level ({ cfg := cfg } : Node).parent).1 cfg == RC_BAD_ARG

/-- TM_NODE_CREATE. -/
def execTmNodeCreate (e : Eci) (s : State) : Step :=
  s.eci e 0x0401 anyCmd (fun p => e.fn != s.manager && (p.getD 0 0 != 3 || s.newDenied e.fn (withEn (cfgOf p 1))))
    (3 :: List.replicate 8 W32) (fun p => s.cfgBad (p.getD 0 0) (withEn (cfgOf p 1))) (fun p =>
      let cfg := withEn (cfgOf p 1)
      if s.aboveTenant e.fn (p.getD 0 0) cfg then .done s RC_LIMIT [] else s.createNode (p.getD 0 0) cfg)

/-- The configuration of TM_TENANT_GRANT: the tenant group is its parent, the function its owner. -/
def grantCfg (p : List Nat) : Bytes := withEn (withOwner (withParent (cfgOf p 2) (p.getD 1 0)) (p.getD 0 0))

/-- TM_TENANT_GRANT. -/
def execTmTenantGrant (e : Eci) (s : State) : Step :=
  s.eci e 0x0409 anyCmd (s.managerOnly e.fn) (low 12 :: low 10 :: List.replicate 8 W32)
    (fun p => noFunc p || s.cfgBad 2 (grantCfg p)) (fun p => s.createNode 2 (grantCfg p))

/-! ### TM_NODE_DESTROY, TM_NODE_SET, TM_NODE_QUERY, TM_QUEUE_FLUSH -/

/-- TM_NODE_DESTROY. -/
def execTmNodeDestroy (e : Eci) (s : State) : Step :=
  s.eci e 0x0402 anyCmd (s.nodeDenied e.fn) [3 + 2 ^ 31, low 17]
    (fun p => noNode p || (nodeOf p).1 == 0 || !(s.node (nodeOf p).1 (nodeOf p).2).en || ((nodeOf p).1 == 3 && isDefaultQueue (nodeOf p).2)) (fun p =>
      let level := (nodeOf p).1
      let i := (nodeOf p).2
      if !(s.children level i).isEmpty ∨ (level = 3 ∧ (s.queueBound i ∨ (!bit (p.getD 0 0) 31 ∧ !(s.node 3 i).frames.isEmpty))) then .done s RC_BUSY []
      else .done (s.removeNode level i) RC_OK [])

/-- TM_NODE_SET. -/
def execTmNodeSet (e : Eci) (s : State) : Step :=
  s.eci e 0x0403 anyCmd (fun p => s.nodeDenied e.fn p || s.cfgDenied e.fn (nodeOf p).1 (nodeOf p).2 (cfgOf p 2))
    (3 :: low 17 :: List.replicate 8 W32)
    (fun p => noNode p || s.nodeCode (nodeOf p).1 (nodeOf p).2 (cfgOf p 2) == RC_BAD_ARG) (fun p =>
      let code := s.nodeCode (nodeOf p).1 (nodeOf p).2 (cfgOf p 2)
      if s.aboveTenant e.fn (nodeOf p).1 (cfgOf p 2) then .done s RC_LIMIT []
      else if code ≠ RC_OK then .done s code []
      else .done (s.writeNode (nodeOf p).1 (nodeOf p).2 (cfgOf p 2)) RC_OK [])

/-- TM_NODE_QUERY. -/
def execTmNodeQuery (e : Eci) (s : State) : Step :=
  s.eci e 0x0404 anyCmd (s.nodeDenied e.fn) [3, low 17] noNode (fun p =>
    .done s RC_OK (respOf (fit 32 (s.node (nodeOf p).1 (nodeOf p).2).cfg) ++ s.nodeStat (nodeOf p).1 (nodeOf p).2))

/-- TM_QUEUE_FLUSH. -/
def execTmQueueFlush (e : Eci) (s : State) : Step :=
  s.eci e 0x0405 anyCmd (fun p => !s.reaches e.fn 3 (p.getD 0 0)) [low 16] noCheck (fun p =>
    .done (s.flushQueue (p.getD 0 0)) RC_OK [(s.node 3 (p.getD 0 0)).frames.length])

/-! ### Replication groups (R208) -/

/-- Members a payload announces. -/
def memberCount (p : List Nat) : Nat := bits (p.getD 0 0) 26 16

/-- A member entry out of range. -/
def memberBad (m : Nat) : Bool :=
  bits m 63 31 != 0 || (if bit m 17 then decide (2052 ≤ bits m 30 19) else decide (65536 ≤ bits m 16 0))

/-- TM_MCAST_SET. -/
def execTmMcastSet (e : Eci) (s : State) : Step :=
  s.eci e 0x0406 anyCmd (s.managerOnly e.fn) [low 27, W32, W32] (fun p => decide (1024 < memberCount p)) (fun p =>
    let g := bits (p.getD 0 0) 15 0
    let n := memberCount p
    let r := if n = 0 then (s, some [], 0) else s.dmaIn e.fn (w64 p 1) (8 * n) e.io.head?
    match r with
    | (t, none, rc) => .done t rc []
    | (t, some b, _) =>
      let ms := (List.range n).map (fun k => leAt b (8 * k) 8)
      if ms.any memberBad then .done t RC_BAD_ARG []
      else if 1048576 < t.membersUsed - (t.mcast.get g).length + n then .done t RC_NO_RESOURCE []
      else .done { t with mcast := t.mcast.set g ms } RC_OK [])

/-- TM_MCAST_QUERY. -/
def execTmMcastQuery (e : Eci) (s : State) : Step :=
  s.eci e 0x0407 anyCmd (s.managerOnly e.fn) [low 16, W32, W32] noCheck (fun p =>
    let ms := s.mcast.get (p.getD 0 0)
    s.bufferOut e.fn (w64 p 1) 8192 (ms.flatMap (fun (m : Nat) => leBytes 8 m)) e.io.head? [ms.length])

/-! ### Observation (R224, R225) -/

/-- The histogram record and the high-water record of a queue. -/
def Node.histogram (n : Node) (q : Nat) : Bytes :=
  leBytes 4 q ++ leBytes 4 n.samples ++ leBytes 8 n.cleared ++ (List.range 32).flatMap (fun k => leBytes 4 (n.depthBins.get k)) ++
    (List.range 32).flatMap (fun k => leBytes 4 (n.delayBins.get k))
def Node.highWater (n : Node) (q : Nat) : Bytes :=
  leBytes 4 q ++ leBytes 4 n.maxDepth ++ leBytes 4 n.maxDelay ++ leBytes 4 0 ++ leBytes 8 n.depthAt ++ leBytes 8 n.delayAt

/-- Queues a dump names. -/
def dumpQueues (p : List Nat) : List Nat := (List.range (bits (p.getD 1 0) 16 0)).map (fun k => p.getD 0 0 + k)

/-- Clears the records of a dump, of the kind that was read; clearing histograms arms TM_OBS_SATURATED again (R223, R225). -/
def State.obsClear (s : State) (marks : Bool) (qs : List Nat) : State :=
  let t := s.each (qs.filter (fun q => (s.nodes.keys).contains (nodeKey 3 q))) (fun q u =>
    u.modNode 3 q (fun n => if marks then n.clearMarks else n.clearBins u.stamp))
  if marks then t else { t with obs := { t.obs with saturated := false } }

/-- A dump: records written, and cleared in the same step when CLEAR is set. -/
def State.obsDump (s : State) (f : Nat) (p : List Nat) (r : Option HostReply) : EciOut :=
  let qs := dumpQueues p
  let out := qs.flatMap (fun q => if bit (p.getD 1 0) 30 then (s.node 3 q).highWater q else (s.node 3 q).histogram q)
  match s.bufferOut f (w64 p 2) (p.getD 4 0) out r [qs.length] with
  | .done t rc resp =>
    .done (if rc = RC_OK ∧ bit (p.getD 1 0) 31 then t.obsClear (bit (p.getD 1 0) 30) qs else t) rc resp
  | o => o

/-- TM_OBS_DUMP begins; histogram records need HIST mode (log 106). -/
def execTmObsDump (e : Eci) (s : State) : Step :=
  s.eci e 0x0408 anyCmd (fun p => e.fn != s.manager && (dumpQueues p).any (fun q => !s.reaches e.fn 3 q))
    [low 17, low 17 + 2 ^ 30 + 2 ^ 31, W32, W32, W32] (fun p => decide (65536 < p.getD 0 0 + bits (p.getD 1 0) 16 0)) (fun p =>
      if s.longBusy e.fn then .done s RC_BUSY []
      else if !bit (p.getD 1 0) 30 ∧ s.on F.TM_OBS_CFG_MODE 0 then .done s RC_NOT_READY []
      else .started s)

end Sys2Proof.Machine
end

