-- ==== Sys2Proof/Machine/Oven.lean ====
section
/-! DEFINITION. The oscillator oven: its loop, its states and its registers' writes (spec/02_time_base.md R58 to R62). -/

namespace Sys2Proof.Machine

/-- The states of OVN_STATUS.STATE. -/
inductive OvenState
  | cold | warming | settling | locked | held | fault | overtemp
deriving DecidableEq, Repr, Inhabited

/-- The code of a state in OVN_STATUS. -/
def OvenState.code : OvenState → Nat
  | .cold => 0 | .warming => 1 | .settling => 2 | .locked => 3 | .held => 4 | .fault => 5 | .overtemp => 6

/-- The oven is in a state. -/
def State.ovenIs (s : State) (st : OvenState) : Bool := s.rd F.OVN_STATUS_STATE 0 == st.code

/-- The event of an entry to a state, when the spec names one. -/
def OvenState.event (st : OvenState) (cause : Nat) : Option Nat :=
  match st with
  | .cold => none
  | .warming => some Ev.OVN_WARMING
  | .settling => some Ev.OVN_SETTLING
  | .locked => some Ev.OVN_LOCKED
  | .held => some Ev.OVN_HELD
  | .fault => some (if cause = 2 then Ev.OVN_FAULT_WARMUP else Ev.OVN_FAULT_SENSE)
  | .overtemp => some Ev.OVN_OVERTEMP

/-- clamp(v, 0, m). -/
def clampTo (v : Int) (m : Nat) : Nat := if v < 0 then 0 else min v.toNat m

/-- The control error of an ADC code (the loop of "The loop"). -/
def State.ovenError (s : State) (code : Nat) : Int :=
  if s.on F.OVN_CTRL_POLARITY 0 then (code : Int) - s.rd F.OVN_SETPOINT_CODE 0
  else (s.rd F.OVN_SETPOINT_CODE 0 : Int) - code

/-- The error of the latest sample. -/
def State.ovenErr (s : State) : Int := s.ovenError (s.rd F.OVN_SENSE_CODE 0)

/-- Entry to a state: code, timers, the duty and integrator the state gives, its event and a CLOCK record due
("Oven states", R59). FAULT_CAUSE returns to 0 on entry to COLD only, and keeps its value on the other entries: DESIGN CHOICE, log
193. -/
def State.ovenEnter (s : State) (st : OvenState) (cause : Nat) : State :=
  let zero := st == .cold || st == .fault || st == .overtemp
  let s := s.wr F.OVN_STATUS_STATE 0 st.code
  let s := s.wr F.OVN_STATUS_FAULT_CAUSE 0 (if st == .fault then cause else if st == .cold then 0 else s.rd F.OVN_STATUS_FAULT_CAUSE 0)
  let s := { s with oven := { s.oven with
    since := s.now, inBand := none, outBand := none, implausible := 0, dutyMax := none, dutyRaised := false
    integ := if zero then 0 else s.oven.integ } }
  let s := if zero then s.wr F.OVN_STATUS_DUTY 0 0
    else if st == .warming then s.wr F.OVN_STATUS_DUTY 0 (s.rd F.OVN_LIMITS_DUTY_MAX 0) else s
  let s := s.send (.pin "OVN_HEAT_EN" (!zero))
  let s := match st.event cause with
    | some e => s.raise e
    | none => s
  s.clockDue 2

/-- A write of OVN_CTRL: EN = 0 leads to COLD from any state but OVERTEMP, EN = 1 from COLD to WARMING, HOLD to and
from HELD ("Oven state transitions"). -/
def State.ovenCtrl (s : State) (v : Nat) : State :=
  let en := bit v 31
  let hold := bit v 30
  let s := s.put .OVN_CTRL 0 (bits v 31 29 * 2 ^ 29)
  if s.ovenIs .overtemp then s
  else if !en then (if s.ovenIs .cold then s else s.ovenEnter .cold 0)
  else if s.ovenIs .cold then s.ovenEnter .warming 0
  else if hold && (s.ovenIs .settling || s.ovenIs .locked) then s.ovenEnter .held 0
  else if !hold && s.ovenIs .held then s.ovenEnter .settling 0
  else s

/-- A write of OVN_CTRL that changes EN. -/
def execOvnEnWrite (fn v : Nat) (s : State) : Step := .next (s.asManager fn (fun s => s.ovenCtrl v))

/-- A write of OVN_CTRL that changes HOLD. -/
def execOvnHoldWrite (fn v : Nat) (s : State) : Step := .next (s.asManager fn (fun s => s.ovenCtrl v))

/-- The runs of samples inside and outside LOCK_BAND, outside the plausible range, and of full duty. -/
def State.ovenRuns (s : State) (code : Nat) : State :=
  let band := decide ((s.ovenError code).natAbs ≤ s.rd F.OVN_BANDS_LOCK_BAND 0)
  let bad := decide (code < s.rd F.OVN_SENSE_LIMITS_SENSE_MIN 0 ∨ s.rd F.OVN_SENSE_LIMITS_SENSE_MAX 0 < code)
  let full := s.ovenIs .locked && s.rd F.OVN_STATUS_DUTY 0 == s.rd F.OVN_LIMITS_DUTY_MAX 0
  { s with oven := { s.oven with
    inBand := if band then some (s.oven.inBand.getD s.now) else none
    outBand := if band then none else some (s.oven.outBand.getD s.now)
    implausible := if bad then s.oven.implausible + 1 else 0
    dutyMax := if full then some (s.oven.dutyMax.getD s.now) else none
    dutyRaised := full && s.oven.dutyRaised } }

/-- One pass of the PI loop. -/
def State.ovenLoop (s : State) (code : Nat) : State :=
  let e := s.ovenError code
  let m := s.rd F.OVN_LIMITS_DUTY_MAX 0
  let integ := clampTo ((s.oven.integ : Int) + s.rd F.OVN_GAIN_KI 0 * e) (m * 256)
  let duty := clampTo ((s.rd F.OVN_GAIN_KP 0 * e + integ) / 256) m
  ({ s with oven := { s.oven with integ := integ } }).wr F.OVN_STATUS_DUTY 0 duty

/-- One ADC sample of OVN_NTC at 1 kHz, with the comparator's level: the loop runs in SETTLING and LOCKED, and in
WARMING the duty is DUTY_MAX. A trip is the event OVN_OVERTEMP; here the level only falls (log 6). -/
def execOvnAdcSample (code : Nat) (tripped : Bool) (s : State) : Step :=
  let s := s.wr F.OVN_SENSE_CODE 0 (code % 65536)
  let s := s.when (!tripped) (fun t => t.wr F.OVN_STATUS_OT_NOW 0 0)
  let s := if s.ovenIs .settling || s.ovenIs .locked then s.ovenLoop (code % 65536)
    else if s.ovenIs .warming then s.wr F.OVN_STATUS_DUTY 0 (s.rd F.OVN_LIMITS_DUTY_MAX 0) else s
  .next (s.ovenRuns (code % 65536))

/-- The error reaches WARM_BAND: SETTLING, the integrator preset; a HOLD set in WARMING takes effect at once (R59). -/
def execOvnSettling (s : State) : Step :=
  .next (if s.ovenIs .warming && decide (s.ovenErr.natAbs ≤ s.rd F.OVN_BANDS_WARM_BAND 0) then
    let m := s.rd F.OVN_LIMITS_DUTY_MAX 0
    let integ := clampTo ((m * 256 : Nat) - s.rd F.OVN_GAIN_KP 0 * s.ovenErr) (m * 256)
    let s := ({ s with oven := { s.oven with integ := integ } }).ovenEnter .settling 0
    s.when (s.on F.OVN_CTRL_HOLD 0) (fun t => t.ovenEnter .held 0)
  else s)

/-- The error stays in LOCK_BAND on every sample for SETTLE_S seconds. -/
def execOvnLocked (s : State) : Step :=
  match s.oven.inBand with
  | some t => .next (if s.ovenIs .settling && decide (t + s.rd F.OVN_LIMITS_SETTLE_S 0 * 1000000000 ≤ s.now)
      then s.ovenEnter .locked 0 else s)
  | none => .next s

/-- The error stays outside LOCK_BAND on every sample for 1 s: back to SETTLING, with OVN_UNLOCKED. -/
def execOvnUnlocked (s : State) : Step :=
  match s.oven.outBand with
  | some t => .next (if s.ovenIs .locked && decide (t + 1000000000 ≤ s.now)
      then (s.raise Ev.OVN_UNLOCKED).ovenEnter .settling 0 else s)
  | none => .next s

/-- Ten consecutive implausible ADC codes in WARMING, SETTLING, LOCKED or HELD: FAULT. -/
def execOvnFaultSense (s : State) : Step :=
  .next (if decide (10 ≤ s.oven.implausible) && (s.ovenIs .warming || s.ovenIs .settling || s.ovenIs .locked || s.ovenIs .held)
    then s.ovenEnter .fault 1 else s)

/-- WARM_TIMEOUT_MIN minutes in WARMING: FAULT. -/
def execOvnFaultWarmup (s : State) : Step :=
  .next (if s.ovenIs .warming && decide (s.oven.since + s.rd F.OVN_LIMITS_WARM_TIMEOUT_MIN 0 * 60000000000 ≤ s.now)
    then s.ovenEnter .fault 2 else s)

/-- The comparator trips: the heater is forced off by a path without register, loop or firmware (R58). -/
def execOvnOvertemp (s : State) : Step :=
  .next (((s.wr F.OVN_STATUS_OT_NOW 0 1).wr F.OVN_STATUS_OT_LATCH 0 1).ovenEnter .overtemp 0)

/-- A W1C of OT_LATCH: while the comparator is tripped the set wins and the oven stays in OVERTEMP; once it has
cleared the oven leaves OVERTEMP, to WARMING if EN = 1, else to COLD (R61). -/
def State.clearOtLatch (s : State) (tripped : Bool) : State :=
  let now := s.on F.OVN_STATUS_OT_NOW 0 && tripped
  let s := s.wr F.OVN_STATUS_OT_NOW 0 (b2n now)
  if now then s
  else
    let s := s.wr F.OVN_STATUS_OT_LATCH 0 0
    if s.ovenIs .overtemp then
      (s.raise Ev.OVN_OT_CLEARED).ovenEnter (if s.on F.OVN_CTRL_EN 0 then .warming else .cold) 0
    else s

/-- A write of 1 to OT_LATCH; tripped is the comparator's level. -/
def execOvnOtLatchClear (fn : Nat) (tripped : Bool) (s : State) : Step :=
  .next (s.asManager fn (fun s => s.clearOtLatch tripped))

/-- The duty stays at DUTY_MAX for 60 s while LOCKED: raised once for each such stay. -/
def execOvnDutyLimit (s : State) : Step :=
  match s.oven.dutyMax with
  | some t => .next (if s.ovenIs .locked && decide (t + 60000000000 ≤ s.now) && !s.oven.dutyRaised
      then ({ s with oven := { s.oven with dutyRaised := true } }).raise Ev.OVN_DUTY_LIMIT else s)
  | none => .next s

/-- A write of OVN_EFC, journalled (R60). -/
def State.setEfc (s : State) (v : Nat) : State :=
  let old := s.rd F.OVN_EFC_CODE 0
  (s.wr F.OVN_EFC_CODE 0 v).journalSteer 5 (v % 2 ^ 20) old

/-- A write of OVN_EFC. -/
def execOvnEfcWrite (fn v : Nat) (s : State) : Step := .next (s.asManager fn (fun s => s.setEfc v))

end Sys2Proof.Machine
end

