-- ==== Sys2Proof/Machine/EciTime.lean ====
section
/-! DEFINITION. ECI groups 0x05xx and 0x06xx: device time, the oven, fairness groups and the journal
(spec/02_time_base.md R41 to R62, spec/09_release_and_evidence.md R228 to R254, spec/13_control_interface.md R336). -/

namespace Sys2Proof.Machine

/-- The two words of a 64-bit value. -/
def two (v : Nat) : List Nat := [v % 2 ^ 32, v / 2 ^ 32 % 2 ^ 32]

/-! ### Time -/

/-- TIME_GET. -/
def execTimeGet (e : Eci) (s : State) : Step :=
  s.eci e 0x0500 anyCmd noCheck [] noCheck (fun _ =>
    .done s RC_OK ([s.time.ns, s.time.frac / 2 ^ 32] ++ two s.time.sec ++ two s.stamp ++ [s.val .TSU_STATUS 0]))

/-- TIME_FREQ; an OFFSET that is a reserved encoding is refused (log 107). -/
def execTimeFreq (e : Eci) (s : State) : Step :=
  s.eci e 0x0501 anyCmd (s.managerOnly e.fn) [W32, W32] (fun p => !Reg.takes .TSU_FREQ_OFFSET (w64 p 0)) (fun p =>
    .done (s.setOffset (w64 p 0)) RC_OK [])

/-- The layout of TIME_STEP's payload. -/
def stepMasks : List Nat := [W32, W32, W32, low 16, 1 + 2 ^ 31]

/-- Arms the step of a TIME_STEP payload, as a steering write (R42, R43, R47). -/
def State.eciStep (s : State) (p : List Nat) : EciOut :=
  if s.on F.TSU_STEP_CTRL_ARM 0 then .done s RC_BUSY []
  else
    let s := ((s.put .TSU_STEP 0 (w64 p 0)).put .TSU_STEP_AT 0 (w64 p 2)).wr F.TSU_STEP_CTRL_ABS 0 (bits (p.getD 4 0) 0 0)
    let s := s.steering.arm
    .done s (match s.rd F.TSU_STEP_CTRL_RESULT 0 with
      | 2 => 0x80
      | 3 => 0x81
      | _ => RC_OK) []

/-- TIME_STEP with CANCEL = 0. -/
def execTimeStep (e : Eci) (s : State) : Step :=
  s.eci e 0x0502 (fun p => !bit (p.getD 4 0) 31) (s.managerOnly e.fn) stepMasks noCheck s.eciStep

/-- TIME_STEP with CANCEL = 1; a time-steering command too (log 107). -/
def execTimeStepCancel (e : Eci) (s : State) : Step :=
  s.eci e 0x0502 (fun p => bit (p.getD 4 0) 31) (s.managerOnly e.fn) stepMasks noCheck (fun _ =>
    .done s.steering.cancelStep RC_OK [])

/-- TIME_SLEW; a rate of 0 keeps the rate. -/
def execTimeSlew (e : Eci) (s : State) : Step :=
  s.eci e 0x0503 anyCmd (s.managerOnly e.fn) [W32, W32, low 17] (fun p => decide (50000 < p.getD 2 0)) (fun p =>
    .done ((s.when (p.getD 2 0 != 0) (fun t => t.setSlewRate (p.getD 2 0))).setSlew (w64 p 0)) RC_OK [])

/-- TIME_STATUS. -/
def execTimeStatus (e : Eci) (s : State) : Step :=
  s.eci e 0x0504 anyCmd (s.managerOnly e.fn) [] noCheck (fun _ =>
    .done s RC_OK ([s.val .TSU_STATUS 0, s.val .TSU_STEP_CTRL 0] ++ two (unsigned 64 s.tsu.remaining) ++ two (s.val .TSU_FREQ_OFFSET 0) ++
      two (s.val .TSU_INCR 0)))

/-- Word k of a payload of register values, to be written when bit k of its mask word is set, has a value the register
does not take. -/
def badValue (p : List Nat) (mask k : Nat) (r : Reg) : Bool := bit (p.getD mask 0) k && !Reg.takes r (p.getD k 0)

/-- TIME_IO. -/
def execTimeIo (e : Eci) (s : State) : Step :=
  s.eci e 0x0505 anyCmd (s.managerOnly e.fn) [W32, W32, W32, 7]
    (fun p => badValue p 3 0 .TSU_PPS_OUT || badValue p 3 1 .TSU_PPS_OUT_OFS || badValue p 3 2 .TSU_REF) (fun p =>
      let w (k : Nat) : Bool := bit (p.getD 3 0) k
      let t := s.when (w 0) (fun t => t.putFields .TSU_PPS_OUT 0 (p.getD 0 0))
      let t := t.when (w 1) (fun t => t.putFields .TSU_PPS_OUT_OFS 0 (p.getD 1 0))
      let t := t.when (w 2) (fun t => t.setRef (p.getD 2 0))
      .done t RC_OK (two (t.val .TSU_PPS_IN 0)))

/-! ### Oven -/

/-- The registers of an oven record and of OVEN_SET, in their order. -/
def ovenRegs : List Reg := [.OVN_CTRL, .OVN_SETPOINT, .OVN_GAIN, .OVN_BANDS, .OVN_LIMITS, .OVN_SENSE_LIMITS, .OVN_EFC]

/-- Writes the oven registers that a mask selects: OVN_CTRL last, so that a start uses the new values (log 108). -/
def State.ovenWrite (s : State) (vals : List Nat) (mask : Nat) : State :=
  let v (k : Nat) : Nat := vals.getD k 0
  let s := s.each [1, 2, 3, 4, 5] (fun k t => t.when (bit mask k) (fun u => u.putFields (ovenRegs.getD k .OVN_CTRL) 0 (v k)))
  let s := s.when (bit mask 6) (fun t => t.setEfc (v 6))
  s.when (bit mask 0) (fun t => t.ovenCtrl (v 0))

/-- A flash record: its header and its data (spec/18_power_reset_package.md R414). -/
def flashRecord (magic : Nat) (data : Bytes) : Bytes :=
  leBytes 4 magic ++ leBytes 2 1 ++ leBytes 2 (16 + data.length) ++ leBytes 4 0 ++ leBytes 4 (crc32c data).toNat ++ data

/-- The oven record of the present registers (log 108). -/
def State.ovenRecord (s : State) : Bytes := flashRecord 0x564F4659 (ovenRegs.flatMap (fun r => leBytes 4 (s.val r 0)))

/-- OVEN_SET: the registers at once; with SAVE the record follows as a long command. -/
def execOvenSet (e : Eci) (s : State) : Step :=
  s.eci e 0x0506 anyCmd (s.managerOnly e.fn) (List.replicate 7 W32 ++ [low 7 + 2 ^ 31])
    (fun p => ovenRegs.zipIdx.any (fun r => badValue p 7 r.2 r.1)) (fun p =>
      if bit (p.getD 7 0) 31 && s.longBusy e.fn then .done s RC_BUSY []
      else
        let t := s.ovenWrite p (p.getD 7 0)
        if bit (p.getD 7 0) 31 then .started t else .done t RC_OK [])

/-- OVEN_STATUS. -/
def execOvenStatus (e : Eci) (s : State) : Step :=
  s.eci e 0x0507 anyCmd (s.managerOnly e.fn) [] noCheck (fun _ =>
    .done s RC_OK [s.val .OVN_STATUS 0, s.val .OVN_SENSE 0, (s.now - s.oven.since) / 1000000000])

/-! ### Fairness groups (R229 to R231, R238) -/

/-- Source and destination entries in use. -/
def State.srcUsed (s : State) : Nat := s.groupsAdmin.foldl (fun a e => a + e.2.src.length) 0
def State.dstUsed (s : State) : Nat := s.groupsAdmin.foldl (fun a e => a + e.2.dst.length) 0

/-- REL_CAPS. -/
def execRelCaps (e : Eci) (s : State) : Step :=
  s.eci e 0x0600 anyCmd (s.managerOnly e.fn) [] noCheck (fun _ =>
    .done s RC_OK (two (s.val .REL_CAPACITY 0) ++ two (s.val .REL_ADMITTED 0) ++ [16384 - s.srcUsed, 4096 - s.dstUsed]))

/-- A source entry that breaks its layout; fields its TYPE does not use are zero (log 109). -/
def State.srcBad (s : State) (e : Nat) : Bool :=
  bit e 63 || (match srcType e with
    | 1 => srcFirst e != 0 || bits e 41 25 != 0 || decide (s.lineRate (srcPort e) < srcRate e)
    | 2 => bits e 24 20 != 0 || bits e 41 25 != 0 || decide (s.lineRate (srcPort e) < srcRate e)
    | 3 => srcPort e != 0 || srcRate e == 0 || decide (2000000 < srcRate e) || decide (131072 < srcFirst e + srcCount e)
    | _ => true)

/-- A destination entry that breaks its layout. -/
def dstBad (e : Nat) : Bool :=
  bits e 63 43 != 0 || (match srcType e with
    | 1 => bits e 41 8 != 0
    | 2 => srcPort e != 0 || dstTrailer e || decide (131072 < srcFirst e + srcCount e)
    | _ => true)

/-- Two ranges of rings overlap. -/
def ringsMeet (a b : Nat) : Bool := decide (srcFirst a < srcFirst b + srcCount b ∧ srcFirst b < srcFirst a + srcCount a)

/-- Two source entries of different groups that may not stand side by side. -/
def srcClash (a b : Nat) : Bool :=
  srcType a == srcType b && (if srcType a = 3 then ringsMeet a b else srcPort a == srcPort b && (srcType a == 1 || srcFirst a == srcFirst b))

/-- Two destination entries of different groups that may not stand side by side. -/
def dstClash (a b : Nat) : Bool := srcType a == srcType b && (if srcType a = 2 then ringsMeet a b else srcPort a == srcPort b)

/-- Ring ranges of a TYPE that overlap within one group's entries. -/
def selfClash (ty : Nat) : List Nat → Bool
  | [] => false
  | a :: r => r.any (fun b => srcType a == ty && srcType b == ty && ringsMeet a b) || selfClash ty r

/-- R230's refusals of a group's copy. -/
def State.groupBad (s : State) (g : Nat) (n : Group) : Bool :=
  let others := s.groupsAdmin.filter (fun e => e.1 != g)
  decide (1000000 < n.delay) || n.src.any (fun e => s.srcBad e) || n.dst.any dstBad || selfClash 3 n.src || selfClash 2 n.dst ||
    others.any (fun o => n.src.any (fun a => o.2.src.any (srcClash a)) || n.dst.any (fun a => o.2.dst.any (dstClash a)))

/-- The sum of HOLD_B over the enabled groups of a set. -/
def State.holdSum (s : State) (gs : SMap Group) : Nat := gs.foldl (fun a e => a + (if e.2.en then s.holdBytes e.2 e.2.delay else 0)) 0

/-- Writes the administrative copy of a group, or the code that refuses it. -/
def State.setGroup (s : State) (g : Nat) (n : Group) : EciOut :=
  let gs := s.groupsAdmin.set g n
  let t : State := { s with groupsAdmin := gs }
  if s.groupBad g n then .done s RC_BAD_ARG []
  else if 16384 < t.srcUsed ∨ 4096 < t.dstUsed ∨ s.val .REL_CAPACITY 0 < s.holdSum gs then .done s RC_NO_RESOURCE []
  else .done t RC_OK (two (s.holdBytes n n.delay))

/-- The 64-bit entries of a byte string. -/
def entries64 (b : Bytes) (o n : Nat) : List Nat := (List.range n).map (fun k => leAt b (o + 8 * k) 8)

/-- REL_GROUP_SET: the group entry, then its entries. -/
def execRelGroupSet (e : Eci) (s : State) : Step :=
  s.eci e 0x0601 anyCmd (s.managerOnly e.fn) [low 6, W32, W32] noCheck (fun p =>
    match s.dmaIn e.fn (w64 p 1) 32 e.io.head? with
    | (t, none, rc) => .done t rc []
    | (t, some h, _) =>
      let ns := leAt h 8 2
      let nd := leAt h 10 2
      if leAt h 0 4 / 2 ≠ 0 ∨ leAt h 4 4 / 2 ^ 20 ≠ 0 ∨ leAt h 12 20 ≠ 0 then .done t RC_BAD_ARG []
      else if 1024 < ns ∨ 256 < nd then .done t RC_LIMIT []
      else
        let r := if ns + nd = 0 then (t, some [], 0) else t.dmaIn e.fn (w64 p 1 + 32) (8 * (ns + nd)) (e.io.drop 1).head?
        match r with
        | (u, none, rc) => .done u rc []
        | (u, some b, _) =>
          u.setGroup (p.getD 0 0) { en := leAt h 0 4 = 1, delay := leAt h 4 4, src := entries64 b 0 ns, dst := entries64 b (8 * ns) nd })

/-- A group's copy in the layout of REL_GROUP_SET. -/
def State.groupBytes (s : State) (g : Group) : Bytes :=
  leBytes 4 (b2n g.en) ++ leBytes 4 g.delay ++ leBytes 2 g.src.length ++ leBytes 2 g.dst.length ++ leBytes 4 0 ++
    leBytes 8 (s.holdBytes g g.delay) ++ leBytes 8 0 ++ (g.src ++ g.dst).flatMap (fun (v : Nat) => leBytes 8 v)

/-- REL_GROUP_QUERY. -/
def execRelGroupQuery (e : Eci) (s : State) : Step :=
  s.eci e 0x0602 anyCmd (s.managerOnly e.fn) [low 6 + 2 ^ 31, W32, W32, W32] noCheck (fun p =>
    let b := s.groupBytes ((if bit (p.getD 0 0) 31 then s.groupsOper else s.groupsAdmin).get (bits (p.getD 0 0) 5 0))
    s.bufferOut e.fn (w64 p 1) (p.getD 3 0) b e.io.head? [b.length])

/-- The payload of REL_STAMP_RING. -/
def stampMasks : List Nat := [low 4 + 2 ^ 31, low 17]

/-- A completion ring that is not the manager's (R245). -/
def State.noStampRing (s : State) (f n : Nat) : Bool :=
  let r := s.ring (cqKey n)
  r.state == 0 || r.fn != f

/-- REL_STAMP_RING with CLEAR = 0. -/
def execRelStampRing (e : Eci) (s : State) : Step :=
  s.eci e 0x0603 (fun p => !bit (p.getD 0 0) 31) (s.managerOnly e.fn) stampMasks (fun p => s.noStampRing e.fn (p.getD 1 0)) (fun p =>
    .done { s with stampRing := s.stampRing.setD (p.getD 0 0) (some (cqKey (p.getD 1 0))) none } RC_OK [])

/-- REL_STAMP_RING with CLEAR = 1. -/
def execRelStampRingClear (e : Eci) (s : State) : Step :=
  s.eci e 0x0603 (fun p => bit (p.getD 0 0) 31) (s.managerOnly e.fn) stampMasks noCheck (fun p =>
    .done { s with stampRing := s.stampRing.setD (bits (p.getD 0 0) 3 0) none none } RC_OK [])

/-! ### The journal (R248, R251, R254) -/

/-- The JOURNALLED record of a payload. -/
def State.journalled (s : State) (w : Nat) : State := s.journalCfg 0x0A 1 (leBytes 4 w)

/-- JNL_QUEUE_SET that adds a ring; a ring already journalled keeps its stream (log 110). -/
def execJnlQueueSet (e : Eci) (s : State) : Step :=
  s.eci e 0x0604 (fun p => bit (p.getD 0 0) 31) (s.managerOnly e.fn) [low 18 + 2 ^ 31] noCheck (fun p =>
    let k := bits (p.getD 0 0) 17 0
    if (s.jrings.getD k none).isSome then .done (s.journalled (p.getD 0 0)) RC_OK []
    else if 8192 ≤ s.jrings.length then .done s RC_LIMIT []
    else .done (({ s with jrings := s.jrings.setD k (some {}) none } : State).journalled (p.getD 0 0)) RC_OK [])

/-- JNL_QUEUE_SET that removes a ring: its open interval closes first. -/
def execJnlQueueRemove (e : Eci) (s : State) : Step :=
  s.eci e 0x0604 (fun p => !bit (p.getD 0 0) 31) (s.managerOnly e.fn) [low 18 + 2 ^ 31] noCheck (fun p =>
    let k := p.getD 0 0
    let t := s.closeDigest k
    .done (({ t with jrings := t.jrings.setD k none none } : State).journalled k) RC_OK [])

/-- JNL_IDENTITY. -/
def execJnlIdentity (e : Eci) (s : State) : Step :=
  s.eci e 0x0605 anyCmd (s.managerOnly e.fn) [W32, W32, W32] noCheck (fun p =>
    s.bufferOut e.fn (w64 p 0) (p.getD 2 0) Config.certificate e.io.head? [Config.certificate.length])

/-- JNL_STATUS. -/
def execJnlStatus (e : Eci) (s : State) : Step :=
  s.eci e 0x0606 anyCmd (s.managerOnly e.fn) [] noCheck (fun _ =>
    .done s RC_OK (two (s.val .JNL_CHAIN_ID 0) ++ two (s.val .JNL_HEAD_RSEQ 0) ++ respOf (fit 48 (s.journal.head.getD []))))

/-- JNL_RESTART. -/
def execJnlRestart (e : Eci) (s : State) : Step :=
  s.eci e 0x0607 anyCmd (s.managerOnly e.fn) [] noCheck (fun _ =>
    if s.val .JNL_PROD 0 ≠ s.val .JNL_CONS 0 then .done s RC_BUSY []
    else
      let t := s.startChain 1
      .done t RC_OK (two (t.val .JNL_CHAIN_ID 0)))

end Sys2Proof.Machine
end

