-- ==== Sys2Proof/Machine/EciOfl.lean ====
section
/-! DEFINITION. ECI group 0x07xx: offload contexts, their keys, notifications and quotas (spec/07_offloads.md R174 to R198,
spec/13_control_interface.md R336). -/

namespace Sys2Proof.Machine

/-! ### Use and quotas -/

/-- ESP SAs and sessions of a function. -/
def State.espOf (s : State) (f : Nat) : Nat := (s.espSas.filter (fun e => e.2.owner == f)).length
def State.sessOf (s : State) (f : Nat) : Nat := (s.sessions.filter (fun e => e.2.owner == f)).length

/-- The device-wide counts. -/
def ESP_COUNT : Nat := 1048576
def SESSION_COUNT : Nat := 262144
def MACSEC_COUNT : Nat := 4096
def PLACE_COUNT : Nat := 1048576

/-- OFL_CAPS. -/
def execOflCaps (e : Eci) (s : State) : Step :=
  s.eci e 0x0700 anyCmd noCheck [] noCheck (fun _ =>
    let g := (s.fn e.fn).grants
    .done s RC_OK [ESP_COUNT - s.espSas.length, SESSION_COUNT - s.sessions.length, MACSEC_COUNT - s.macsec.length, PLACE_COUNT - s.places.length,
      g.esp, g.sessions, g.places, s.espOf e.fn, s.sessOf e.fn, s.placesOf e.fn])

/-- OFL_QUOTA. -/
def execOflQuota (e : Eci) (s : State) : Step :=
  s.eci e 0x070C anyCmd (s.managerOnly e.fn) [low 12, W32, W32, W32]
    (fun p => noFunc p || decide (ESP_COUNT < p.getD 1 0 ∨ SESSION_COUNT < p.getD 2 0 ∨ PLACE_COUNT < p.getD 3 0)) (fun p =>
      let f := p.getD 0 0
      if p.getD 1 0 < s.espOf f ∨ p.getD 2 0 < s.sessOf f ∨ p.getD 3 0 < s.placesOf f then .done s RC_BUSY []
      else
        let t := s.modFn f (fun c => { c with grants := { c.grants with esp := p.getD 1 0, sessions := p.getD 2 0, places := p.getD 3 0 } })
        .done (t.rewriteRom f) RC_OK [])

/-! ### The contexts' layouts -/

/-- The ESP SA context of OFL_CTX_QUERY. -/
def EspSa.image (a : EspSa) : Bytes :=
  let flags := a.state + 2 ^ 8 * b2n a.inbound + 2 ^ 9 * b2n a.tunnel + 2 ^ 10 * b2n a.esn + 2 ^ 11 * b2n a.udpEncap + 2 ^ 12 * b2n a.key256 +
    2 ^ 13 * b2n a.outer6 + 2 ^ 14 * b2n a.copyDscp
  let head := leBytes 4 flags ++ leBytes 4 (a.owner + 2 ^ 12 * a.home) ++ beBytes 4 a.spi ++ leBytes 4 a.window ++ leBytes 8 a.seq
  let use := leBytes 8 a.bytes ++ leBytes 8 a.packets
  let limits := leBytes 8 a.softBytes ++ leBytes 8 a.hardBytes ++ leBytes 8 a.softPkts ++ leBytes 8 a.hardPkts
  head ++ use ++ limits ++ beBytes 2 a.sport ++ beBytes 2 a.dport ++ leBytes 4 0 ++ fit 40 a.outer ++ leBytes 8 0

/-- The SA of a create payload: its context bytes, key and salt. -/
def espOfPayload (p : List Nat) : EspSa :=
  let b := wBytes p 1 30
  let w := leAt b 0 4
  let key := wBytes p 31 8
  let flags : EspSa := { state := 1, inbound := bit w 8, tunnel := bit w 9, esn := bit w 10, udpEncap := bit w 11, key256 := bit w 12, outer6 := bit w 13 }
  let base : EspSa := { flags with
    copyDscp := bit w 14, owner := bits (p.getD 0 0) 27 16, home := bits (p.getD 0 0) 3 2, spi := beAt b 8 4, window := leAt b 12 4, seq := leAt b 0x10 8 }
  { base with
    softBytes := leAt b 0x28 8, hardBytes := leAt b 0x30 8, softPkts := leAt b 0x38 8, hardPkts := leAt b 0x40 8, sport := beAt b 0x48 2
    dport := beAt b 0x4A 2, outer := slice b 0x50 40, key := if bit w 12 then key else key.take 16, salt := wBytes p 39 1 }

/-- Bytes 0x00 to 0x5F of the session context. -/
def Session.bytes (a : Session) : Bytes :=
  let flags := a.state + 2 ^ 8 * b2n a.tlsTx + 2 ^ 9 * b2n a.tlsRx + 2 ^ 10 * b2n a.nvme + 2 ^ 11 * b2n a.key256 + 2 ^ 12 * b2n a.hdgst + 2 ^ 13 * b2n a.ddgst
  let head := leBytes 4 flags ++ leBytes 4 (a.owner + 2 ^ 12 * a.home) ++ leBytes 4 a.rxRing ++ leBytes 4 0
  let tx := leBytes 4 a.txNextSeq ++ leBytes 4 0 ++ leBytes 8 a.txRec ++ leBytes 2 (recLeft a.txDone) ++ leBytes 14 0
  let rx := leBytes 4 a.rxExpSeq ++ leBytes 4 0 ++ leBytes 8 a.rxRec ++ leBytes 4 (recLeft a.rxDone + 2 ^ 16 * a.rxState) ++ leBytes 4 a.rxArmSeq ++ leBytes 8 0
  let left := if a.nvRx.pos < 8 then 0 else a.nvRx.plen - a.nvRx.pos
  head ++ tx ++ rx ++ leBytes 4 a.nvTxSeq ++ leBytes 4 a.nvRxSeq ++ leBytes 4 left ++ leBytes 4 a.nvState

/-- The session of a create payload. -/
def sessOfPayload (p : List Nat) : Session :=
  let w := p.getD 1 0
  let key (k : Nat) : Bytes := if bit w 11 then wBytes p k 8 else wBytes p k 4
  let flags : Session := { state := 1, tlsTx := bit w 8, tlsRx := bit w 9, nvme := bit w 10, key256 := bit w 11, hdgst := bit w 12, ddgst := bit w 13 }
  let base : Session := { flags with
    owner := bits (p.getD 0 0) 27 16, home := bits (p.getD 0 0) 3 2, rxRing := p.getD 2 0, txNextSeq := p.getD 3 0, txRec := w64 p 4 }
  { base with
    rxExpSeq := p.getD 6 0, rxRec := w64 p 7, nvTxSeq := p.getD 9 0, nvRxSeq := p.getD 10 0, txKey := key 11, txIv := wBytes p 19 3
    rxKey := key 22, rxIv := wBytes p 30 3 }

/-- The MACsec SA of OFL_CTX_QUERY. -/
def MacsecSa.bytes (a : MacsecSa) : Bytes :=
  leBytes 4 (a.state + 2 ^ 8 * b2n a.rx + 2 ^ 9 * a.an + 2 ^ 11 * a.port) ++ leBytes 4 a.ssci ++ beBytes 8 a.sci ++ leBytes 8 a.nextPn ++
    leBytes 8 a.octets ++ leBytes 8 a.pkts ++ leBytes 24 0

/-! ### OFL_CTX_CREATE -/

/-- The layouts of a create payload: ESP SA and session. -/
def espMasks : List Nat :=
  let head : List Nat := [15 + 2 ^ 16 * low 12, low 15, low 14, W32, low 13, W32, W32]
  head ++ List.replicate 13 W32 ++ [0] ++ List.replicate 19 W32
def sessMasks : List Nat :=
  let head : List Nat := [15 + 2 ^ 16 * low 12, low 14, low 17]
  head ++ List.replicate 30 W32

/-- The payload in service. -/
def State.eciWords (s : State) (e : Eci) : List Nat := ((s.eciCmd e).map (fun c => c.words)).getD []

/-- Words k to k + n − 1 of a payload are not all zero. -/
def anyWord (p : List Nat) (k n : Nat) : Bool := ((p.drop k).take n).any (fun w => w != 0)

/-- A create payload out of range: a key or IV word of a half not in use is zero. -/
def createBad (p : List Nat) : Bool :=
  decide (2052 ≤ bits (p.getD 0 0) 27 16) || (match p.getD 0 0 % 4 with
    | 0 => decide (4096 < p.getD 4 0) || (!bit (p.getD 1 0) 12 && anyWord p 35 4)
    | 1 =>
      let w := p.getD 1 0
      (!bit w 8 && anyWord p 11 11) || (!bit w 9 && anyWord p 22 11) || (!bit w 11 && (anyWord p 15 4 || anyWord p 26 4))
    | _ => true)

/-- The owner may not use the kind or a half of the context. -/
def State.createDenied (s : State) (f : Nat) (p : List Nat) : Bool :=
  let o := bits (p.getD 0 0) 27 16
  let w := p.getD 1 0
  (f != s.manager && o != f) || (if p.getD 0 0 % 4 = 0 then !s.feature o 5
    else (p.getD 0 0 % 4 == 1 && (((bit w 8 || bit w 9) && !s.feature o 6) || (bit w 10 && !s.feature o 7))))

/-- The first context wakes the groups before its create replies (R200). -/
def State.wakeGroups (s : State) : State :=
  if s.espSas.isEmpty && s.sessions.isEmpty && s.places.isEmpty then s.each [0, 1, 2, 3] (fun g t => t.oflWake g) else s

/-- Creates an ESP SA; an outbound one whose SEQ stands at the end of its space is EXPIRED at once (R185). -/
def State.createEsp (s : State) (a : EspSa) : EciOut :=
  if (s.fn a.owner).grants.esp ≤ s.espOf a.owner ∨ ESP_COUNT ≤ s.espSas.length then .done s RC_NO_RESOURCE []
  else match firstFree ESP_COUNT s.fresh (fun k => (s.espSas.get k).state != 0) with
    | none => .done s RC_NO_RESOURCE []
    | some i =>
      let t := s.used.wakeGroups.setEsp i a
      .done ((t.when (!a.inbound && decide (a.lastSeq ≤ a.seq)) (fun u => u.espExpire i)).oflUsed) RC_OK [i, keyCheck a.key]

/-- Creates a session; the check value of a half not in use is free (log 111). -/
def State.createSession (s : State) (a : Session) : EciOut :=
  if (s.fn a.owner).grants.sessions ≤ s.sessOf a.owner ∨ SESSION_COUNT ≤ s.sessions.length then .done s RC_NO_RESOURCE []
  else match firstFree SESSION_COUNT s.fresh (fun k => (s.sessions.get k).state != 0) with
    | none => .done s RC_NO_RESOURCE []
    | some i =>
      let t := s.used
      let kc (half : Bool) (key : Bytes) : Nat := if half then keyCheck key else t.fresh % 2 ^ 32
      .done ((t.used.wakeGroups.setSession i a).oflUsed) RC_OK [i, kc a.tlsTx a.txKey, kc a.tlsRx a.rxKey]

/-- OFL_CTX_CREATE. -/
def execOflCtxCreate (e : Eci) (s : State) : Step :=
  s.eci e 0x0701 anyCmd (s.createDenied e.fn) (if (s.eciWords e).getD 0 0 % 4 = 1 then sessMasks else espMasks) createBad (fun p =>
    if p.getD 0 0 % 4 = 0 then s.createEsp (espOfPayload p) else s.createSession (sessOfPayload p))

/-! ### Commands that name a context -/

/-- KIND, OWNER and index of a payload. -/
def ctxKind (p : List Nat) : Nat := p.getD 0 0 % 4
def ctxOwner (p : List Nat) : Nat := bits (p.getD 0 0) 27 16
def ctxNo (p : List Nat) : Nat := p.getD 1 0

/-- A tenant driver names another function's context, or a MACsec SA (R174). -/
def State.ctxDenied (s : State) (f : Nat) (p : List Nat) : Bool := f != s.manager && (ctxOwner p != f || ctxKind p == 2)

/-- No context of the kind and owner has the index; a MACsec SA has no owner (log 112). -/
def State.noCtx (s : State) (kind owner i : Nat) : Bool :=
  match kind with
  | 0 => (s.espSas.get i).state == 0 || (s.espSas.get i).owner != owner
  | 1 => (s.sessions.get i).state == 0 || (s.sessions.get i).owner != owner
  | 2 => (s.macsec.get i).state == 0
  | _ => true

/-- Work accepted before the destroy still names the context (R175). -/
def State.ctxBusy (s : State) (kind i : Nat) : Bool :=
  s.pkts.any (fun e => e.2.deferred.any (fun d => d.ctx == i && !d.late && (if kind = 0 then d.unit == 1 else d.unit == 2 || d.unit == 3))) ||
  s.jobs.any (fun e => !e.2.produced && !e.2.noCtx && (s.ring e.2.ring).kind == 1 && oflCtx e.2.entry == i &&
    (if kind = 0 then oflKind e.2.entry == 2 else decide (3 ≤ oflKind e.2.entry ∧ oflKind e.2.entry ≤ 5))) ||
  s.jobs.any (fun e => !e.2.produced && !e.2.noCtx && (s.ring e.2.ring).kind == 4 && decide (1 ≤ jobKind e.2.entry ∧ jobKind e.2.entry ≤ 2) && jobCtx e.2.entry == i &&
    (if kind = 0 then jobCtxKind e.2.entry == 0 else jobCtxKind e.2.entry != 0))

/-- New requests find the context no more. -/
def State.ctxDying (s : State) (kind i : Nat) : State :=
  if kind = 0 then s.setEsp i { s.espSas.get i with dying := true } else s.setSession i { s.sessions.get i with dying := true }

/-- The context is gone, its key, placement entries and notifications with it. -/
def State.dropCtx (s : State) (kind i : Nat) : State :=
  let s : State := { s with oflNotes := s.oflNotes.filter (fun n => !(n.2.1 == kind && n.2.2.1 == i)) }
  let s : State := match kind with
    | 0 => { s with espSas := s.espSas.set i {} }
    | 1 => { s with sessions := s.sessions.set i {}, places := s.places.filter (fun x => x.1 / 65536 != i) }
    | _ => { s with macsec := s.macsec.set i {} }
  ((s.unfence (unitObject 2) (i + 2 ^ 20 * kind)).oflUsed).oflRest

/-- OFL_CTX_DESTROY. -/
def execOflCtxDestroy (e : Eci) (s : State) : Step :=
  s.eci e 0x0702 anyCmd (s.ctxDenied e.fn) [3 + 2 ^ 16 * low 12, low 20] (fun p => s.noCtx (ctxKind p) (ctxOwner p) (ctxNo p)) (fun p =>
    if ctxKind p ≠ 2 ∧ s.ctxBusy (ctxKind p) (ctxNo p) then .held (s.ctxDying (ctxKind p) (ctxNo p))
    else .done (s.dropCtx (ctxKind p) (ctxNo p)) RC_OK [])

/-- A context as OFL_CTX_QUERY reads it. -/
def State.ctxBytes (s : State) (kind i : Nat) : Bytes :=
  match kind with
  | 0 => (s.espSas.get i).image
  | 1 => (s.sessions.get i).bytes
  | _ => (s.macsec.get i).bytes

/-- OFL_CTX_QUERY. -/
def execOflCtxQuery (e : Eci) (s : State) : Step :=
  s.eci e 0x0703 anyCmd (s.ctxDenied e.fn) [3 + 2 ^ 16 * low 12, low 20] (fun p => s.noCtx (ctxKind p) (ctxOwner p) (ctxNo p)) (fun p =>
    .done s RC_OK (respOf (s.ctxBytes (ctxKind p) (ctxNo p))))

/-- What a modify payload sets that the kind does not have, or out of range. -/
def modifyBad (p : List Nat) : Bool :=
  if ctxKind p = 0 then bit (p.getD 2 0) 2 || (bit (p.getD 2 0) 1 && decide (4096 < p.getD 11 0))
  else ctxKind p != 1 || p.getD 2 0 % 4 != 0

/-- The state of a context. -/
def State.ctxState (s : State) (kind i : Nat) : Nat :=
  match kind with
  | 0 => (s.espSas.get i).state
  | 1 => (s.sessions.get i).state
  | _ => (s.macsec.get i).state

/-- OFL_CTX_MODIFY; new limits are announced anew (log 113). -/
def State.ctxModify (s : State) (p : List Nat) : State :=
  let i := ctxNo p
  let a := s.espSas.get i
  let w := p.getD 2 0
  if ctxKind p = 1 then s.when (bit w 2) (fun t => t.setSession i { s.sessions.get i with rxRing := p.getD 12 0 })
  else
    let a := if bit w 0 then { a with softBytes := w64 p 3, hardBytes := w64 p 5, softPkts := w64 p 7, hardPkts := w64 p 9, softTold := false } else a
    s.setEsp i (if bit w 1 then { a with window := p.getD 11 0 } else a)

/-- OFL_CTX_MODIFY. -/
def execOflCtxModify (e : Eci) (s : State) : Step :=
  s.eci e 0x0704 anyCmd (s.ctxDenied e.fn) ([3 + 2 ^ 16 * low 12, low 20, 7] ++ List.replicate 8 W32 ++ [low 13, low 17])
    (fun p => s.noCtx (ctxKind p) (ctxOwner p) (ctxNo p) || modifyBad p) (fun p =>
      if s.ctxState (ctxKind p) (ctxNo p) = 3 then .done s RC_FENCED [] else .done (s.ctxModify p) RC_OK [])

/-! ### Sessions (R194, R196, R198) -/

/-- A tenant driver names another function. -/
def State.sessDenied (s : State) (f : Nat) (p : List Nat) : Bool := f != s.manager && ctxOwner p != f

/-- No session of the owner has the index, or not the half that the command acts on. -/
def State.noSession (s : State) (p : List Nat) (half : Session → Bool) : Bool := s.noCtx 1 (ctxOwner p) (ctxNo p) || !half (s.sessions.get (ctxNo p))

/-- Acts on a session unless it is fenced, or stands where the command does not move it (log 114). -/
def State.onSession (s : State) (p : List Nat) (ready : Session → Bool) (f : Session → Session) (resp : List Nat) : EciOut :=
  let a := s.sessions.get (ctxNo p)
  if a.state = 3 then .done s RC_FENCED []
  else if !ready a then .done s RC_NOT_READY []
  else .done (s.setSession (ctxNo p) (f a)) RC_OK resp

/-- The receive half waits for a record at a TCP sequence number. -/
def Session.arm (a : Session) (seq rec_ : Nat) : Session := { a with rxState := 2, rxArmSeq := seq, rxRec := rec_, rxDone := [] }

/-- OFL_TLS_RESYNC. -/
def execOflTlsResync (e : Eci) (s : State) : Step :=
  s.eci e 0x0705 anyCmd (s.sessDenied e.fn) [2 ^ 16 * low 12, low 20, W32, W32, W32] (fun p => s.noSession p (fun a => a.tlsRx)) (fun p =>
    s.onSession p (fun a => a.rxState != 0) (fun a => a.arm (p.getD 2 0) (w64 p 3)) [])

/-- OFL_TLS_RX_REKEY. -/
def execOflTlsRxRekey (e : Eci) (s : State) : Step :=
  s.eci e 0x0706 anyCmd (s.sessDenied e.fn) ([2 ^ 16 * low 12, low 20] ++ List.replicate 12 W32)
    (fun p => s.noSession p (fun a => a.tlsRx) || (!(s.sessions.get (ctxNo p)).key256 && anyWord p 7 4)) (fun p =>
      let key := wBytes p 3 (if (s.sessions.get (ctxNo p)).key256 then 8 else 4)
      s.onSession p (fun a => a.rxState != 0) (fun a => { a.arm (p.getD 2 0) 0 with rxKey := key, rxIv := wBytes p 11 3 }) [keyCheck key])

/-- OFL_NVME_RESYNC. -/
def execOflNvmeResync (e : Eci) (s : State) : Step :=
  s.eci e 0x0707 anyCmd (s.sessDenied e.fn) [2 ^ 16 * low 12, low 20, W32] (fun p => s.noSession p (fun a => a.nvme)) (fun p =>
    s.onSession p (fun a => a.nvState == 1 || a.nvState == 3) (fun a => { a with nvState := 2, nvRxSeq := p.getD 2 0, nvRx := {} }) [])

/-- OFL_PLACE_DROP. -/
def execOflPlaceDrop (e : Eci) (s : State) : Step :=
  s.eci e 0x0708 anyCmd (s.sessDenied e.fn) [2 ^ 16 * low 12, low 20, low 16]
    (fun p => s.noCtx 1 (ctxOwner p) (ctxNo p) || !(s.places.any (fun x => x.1 == placeKey (ctxNo p) (p.getD 2 0)))) (fun p =>
      .done ({ s with places := s.places.filter (fun x => x.1 != placeKey (ctxNo p) (p.getD 2 0)) }).oflUsed.oflRest RC_OK [])

/-! ### MACsec (R187, R189) -/

/-- The layout of OFL_MACSEC_SA. -/
def macsecMasks : List Nat := low 8 :: List.replicate 16 W32

/-- The SA a payload describes; its key has the length that the port's CIPHER gives (log 115). -/
def State.saOfPayload (s : State) (p : List Nat) : MacsecSa :=
  let w := p.getD 0 0
  let port := bits w 7 4
  { state := 1, rx := bit w 1, an := bits w 3 2, port := port, ssci := p.getD 1 0, sci := fromBE (wBytes p 2 2), nextPn := w64 p 4
    key := wBytes p 6 (if s.rd F.OFL_MACSEC_PORT_CIPHER port % 2 = 1 then 8 else 4), salt := wBytes p 14 3 }

/-- The SA that an SA of the same direction, port, AN and, on receive, SCI replaces. -/
def State.saPlace (s : State) (a : MacsecSa) : Option Nat :=
  (s.macsec.find? (fun e => e.2.rx == a.rx && e.2.port == a.port && e.2.an == a.an && (!a.rx || e.2.sci == a.sci))).map (·.1)

/-- Secure channels received on a port. -/
def State.rxChannels (s : State) (port : Nat) : List Nat := ((s.macsec.filter (fun e => e.2.rx && e.2.port == port)).map (fun e => e.2.sci)).eraseDups

/-- OFL_MACSEC_SA with REMOVE = 0. A fenced SA is not installed again: only its destroy leaves FENCED (R177). -/
def execOflMacsecSa (e : Eci) (s : State) : Step :=
  s.eci e 0x0709 (fun p => !bit (p.getD 0 0) 0) (s.managerOnly e.fn) macsecMasks
    (fun p => !s.xpn (bits (p.getD 0 0) 7 4) && p.getD 5 0 != 0) (fun p =>
      let a := s.saOfPayload p
      match s.saPlace a with
      | some i =>
        if (s.macsec.get i).state = 3 then .done s RC_FENCED []
        else .done { s with macsec := s.macsec.set i a } RC_OK [i, keyCheck a.key]
      | none =>
        if a.rx ∧ !(s.rxChannels a.port).contains a.sci ∧ 64 ≤ (s.rxChannels a.port).length then .done s RC_LIMIT []
        else match firstFree MACSEC_COUNT s.fresh (fun k => (s.macsec.get k).state != 0) with
          | none => .done s RC_NO_RESOURCE []
          | some i => .done ({ s.used with macsec := s.macsec.set i a }).oflUsed RC_OK [i, keyCheck a.key])

/-- OFL_MACSEC_SA with REMOVE = 1; the check value of a removed key is free (log 111). -/
def execOflMacsecSaRemove (e : Eci) (s : State) : Step :=
  s.eci e 0x0709 (fun p => bit (p.getD 0 0) 0) (s.managerOnly e.fn) macsecMasks (fun p => (s.saPlace (s.saOfPayload p)).isNone) (fun p =>
    let i := (s.saPlace (s.saOfPayload p)).getD 0
    .done (s.used.dropCtx 2 i) RC_OK [i, s.fresh % 2 ^ 32])

/-- OFL_MACSEC_TX_AN. -/
def execOflMacsecTxAn (e : Eci) (s : State) : Step :=
  s.eci e 0x070A anyCmd (s.managerOnly e.fn) [low 6] noCheck (fun p =>
    .done (s.wr F.OFL_MACSEC_PORT_TX_AN (bits (p.getD 0 0) 3 0) (bits (p.getD 0 0) 5 4)) RC_OK [])

/-! ### OFL_NOTIFY -/

/-- OFL_NOTIFY. -/
def execOflNotify (e : Eci) (s : State) : Step :=
  s.eci e 0x070B anyCmd noCheck [] noCheck (fun _ =>
    let mine := (s.oflNotes.filter (fun n => n.1 == e.fn)).take 60
    .done { s with oflNotes := s.oflNotes.filter (fun n => !mine.contains n) } RC_OK
      (mine.length :: mine.map (fun n => n.2.2.1 + 2 ^ 20 * n.2.1 + 2 ^ 22 * n.2.2.2)))

end Sys2Proof.Machine
end

