-- ==== Sys2Proof/Machine/EciFrer.lean ====
section
/-! DEFINITION. ECI group 0x08xx and the mirror pair: members, sequence contexts, mirror messages and takeover
(spec/10_redundancy.md R256 to R270, spec/13_control_interface.md R336). -/

namespace Sys2Proof.Machine

/-! ### Members and contexts (R256) -/

/-- Members in use, by number. -/
def State.validMembers (s : State) : SMap Bytes := s.members.filter (fun e => mbValid e.2)

/-- FRER_CAPS. -/
def execFrerCaps (e : Eci) (s : State) : Step :=
  s.eci e 0x0800 anyCmd (s.managerOnly e.fn) [] noCheck (fun _ =>
    .done s RC_OK [4096 - s.validMembers.length, 2048 - (s.frer.filter (fun c => c.2.kind != 0)).length])

/-- A member and the context it points to do not fit each other. -/
def State.pairBad (s : State) (m : Bytes) (c : FrerCtx) : Bool :=
  (mbTx m && c.kind != 1) || (!mbTx m && c.kind == 1) ||
    (c.kind == 1 && (s.queuePort c.queueB == mbPort m || !(s.node 3 c.queueB).en)) ||
    (c.kind == 3 && mbPort m != c.portA && mbPort m != c.portB)

/-- Two members name the same frames. -/
def sameMember (a b : Bytes) : Bool :=
  mbPort a == mbPort b && mbTx a == mbTx b && mbType a == mbType b && mbMac a == mbMac b && mbVid a == mbVid b

/-- R256's refusals of member entry i. -/
def State.memberRefused (s : State) (i : Nat) (m : Bytes) : Bool :=
  mbType m == 0 || (mbValid m && ((s.validMembers.any (fun e => e.1 != i && sameMember e.2 m)) || s.pairBad m (s.ctx (mbCtx m))))

/-- The layout of FRER_MEMBER_SET and of FRER_CTX_SET. -/
def memberMasks : List Nat := [low 12 + 2 ^ 31, W32, W32, 15 + 2 ^ 16 * low 11, 0]
def ctxMasks : List Nat := [low 11 + 2 ^ 31, low 7 + 2 ^ 16 * low 12, low 24, low 16, 0]

/-- FRER_MEMBER_SET with CLEAR = 0. -/
def execFrerMemberSet (e : Eci) (s : State) : Step :=
  s.eci e 0x0801 (fun p => !bit (p.getD 0 0) 31) (s.managerOnly e.fn) memberMasks (fun p => s.memberRefused (p.getD 0 0) (wBytes p 1 4)) (fun p =>
    .done { s with members := s.members.set (p.getD 0 0) (wBytes p 1 4) } RC_OK [])

/-- FRER_MEMBER_SET with CLEAR = 1. -/
def execFrerMemberClear (e : Eci) (s : State) : Step :=
  s.eci e 0x0801 (fun p => bit (p.getD 0 0) 31) (s.managerOnly e.fn) memberMasks noCheck (fun p =>
    .done { s with members := s.members.set (bits (p.getD 0 0) 11 0) [] } RC_OK [])

/-- R256's refusals of a context: reserved encodings, QUEUE_B, and members that do not fit it (log 116). -/
def State.ctxRefused (s : State) (i : Nat) (c : FrerCtx) : Bool :=
  (decide (2 ≤ c.kind) && (c.history == 0 || decide (2048 < c.history) || c.resetMs == 0)) || (c.kind == 3 && c.isMatch) ||
    (c.kind == 1 && !(s.node 3 c.queueB).en) || s.validMembers.any (fun e => mbCtx e.2 == i && s.pairBad e.2 c)

/-- FRER_CTX_SET with CLEAR = 0: a recovering context is reset, a fenced one returns to service (R264). -/
def execFrerCtxSet (e : Eci) (s : State) : Step :=
  s.eci e 0x0802 (fun p => !bit (p.getD 0 0) 31) (s.managerOnly e.fn) ctxMasks
    (fun p => s.ctxRefused (p.getD 0 0) { cfg := wBytes p 1 4 }) (fun p =>
      let c := p.getD 0 0
      let t := s.modCtx c (fun x => let y : FrerCtx := { x with cfg := wBytes p 1 4 }
                                    if 2 ≤ y.kind then y.reset else y)
      .done (t.unfence (unitObject 6) c) RC_OK [])

/-- FRER_CTX_SET with CLEAR = 1. -/
def execFrerCtxClear (e : Eci) (s : State) : Step :=
  s.eci e 0x0802 (fun p => bit (p.getD 0 0) 31) (s.managerOnly e.fn) ctxMasks noCheck (fun p =>
    let c := bits (p.getD 0 0) 10 0
    if s.validMembers.any (fun m => mbCtx m.2 == c) then .done s RC_BUSY []
    else .done (({ s with frer := s.frer.set c {} }).unfence (unitObject 6) c) RC_OK [])

/-- The eight counters of a context, two words each. -/
def State.ctxCounters (s : State) (c : Nat) : List Nat := (List.range 8).flatMap (fun k => two (s.val .FRER_CTX_CTR (64 * c + k)))

/-- FRER_CTX_QUERY. -/
def execFrerCtxQuery (e : Eci) (s : State) : Step :=
  s.eci e 0x0803 anyCmd (s.managerOnly e.fn) [low 11, W32, W32] noCheck (fun p =>
    let x := s.ctx (p.getD 0 0)
    let resp := respOf (fit 16 x.cfg) ++ [x.rcv] ++ s.ctxCounters (p.getD 0 0)
    if w64 p 1 = 0 then .done s RC_OK resp
    else s.bufferOut e.fn (w64 p 1) 256 (leBytes 256 x.hist) e.io.head? resp)

/-- FRER_CTX_RESET of a recovering context. -/
def execFrerCtxReset (e : Eci) (s : State) : Step :=
  s.eci e 0x0804 anyCmd (s.managerOnly e.fn) [low 11] (fun p => decide ((s.ctx (p.getD 0 0)).kind < 2)) (fun p =>
    if s.isFenced (unitObject 6) (p.getD 0 0) then .done s RC_FENCED []
    else .done (s.modCtx (p.getD 0 0) FrerCtx.reset) RC_OK [])

/-! ### The primary's messages (R266) -/

/-- The adapter is primary, standby or diverged. -/
def State.mirRole (s : State) : Nat := s.rd F.MIR_CTRL_ROLE 0

/-- The list cut into runs of n. -/
def chunks {α : Type} (n : Nat) : Nat → List α → List (List α)
  | 0, _ => []
  | k + 1, l => if l.isEmpty then [] else l.take n :: chunks n k (l.drop n)

/-- The entry of a FRER message: context, rcv and hist. -/
def frerEntry (c : Nat) (x : FrerCtx) : Bytes := beBytes 2 c ++ beBytes 2 x.rcv ++ leBytes 256 x.hist

/-- FRER messages for the contexts with MIRROR = 1, four entries each. -/
def State.mirrorFrer (s : State) : State :=
  let xs := (s.frer.filter (fun c => decide (2 ≤ c.2.kind) && c.2.mirror)).map (fun c => frerEntry c.1 c.2)
  s.each (chunks 4 xs.length xs) (fun l t => t.mirrorSend 2 (l.flatMap id))

/-- A RELEASE message for each enabled group that has released a frame (log 117). -/
def State.mirrorRelease (s : State) : State :=
  s.each ((List.range 64).filter (fun g => s.on F.REL_GROUP_STATUS_EN g)) (fun g t => match t.lastKey.getD g none with
    | some k => t.mirrorSend 3 (beBytes 1 g ++ beBytes 16 k)
    | none => t)

/-- The periodic messages of a primary, every 1 ms; HEARTBEAT when nothing else was sent. -/
def execMirPeriodicSend (s : State) : Step :=
  .next (if s.mirRole = 1 ∧ s.mir.periodAt + 1000000 ≤ s.now then
    let t := s.resyncDue.mirrorHead.mirrorFrer.mirrorRelease
    let t := if s.mir.periodAt < s.mir.txAt ∨ t.mir.mseq ≠ s.mir.mseq then t else t.mirrorSend 5 []
    { t with mir := { t.mir with periodAt := s.now } }
  else s)

/-- Mirrored flow entries. -/
def State.mirroredFlow (s : State) : List FlowEntry := (s.flow.filter (fun e => e.2.valid && e.2.mirror)).map (·.2)

/-- MIR_RESYNC. -/
def execMirResync (e : Eci) (s : State) : Step :=
  s.eci e 0x0809 anyCmd (s.managerOnly e.fn) [] noCheck (fun _ =>
    if s.mirRole ≠ 1 then .done s RC_NOT_READY []
    else if s.mir.resync.isSome then .done s RC_BUSY []
    else .done { s with mir := { s.mir with resync := some s.now, left := s.mirroredFlow.map (·.key) } } RC_OK [])

/-- The resend of mirrored flow entries goes on, and ends once the last is sent (log 118). -/
def execMirResyncDone (s : State) : Step :=
  let t := s.resyncDue
  .next (if t.mir.resync.isSome ∧ t.mir.left.isEmpty then ({ t with mir := { t.mir with resync := none } } : State).raise Ev.MIR_RESYNC_DONE
    else t)

/-! ### The standby (R266, R267) -/

/-- A gap in MSEQ is counted. -/
def State.mirGap (s : State) (mseq : Nat) : State :=
  let missing := match s.mir.expect with
    | some e => (mseq + 2 ^ 32 - e) % 2 ^ 32
    | none => 0
  let late := decide (2 ^ 31 ≤ missing)
  let s := s.when (missing != 0 && !late) (fun t => (t.put .MIR_GAP 0 ((t.val .MIR_GAP 0 + missing) % 2 ^ 64)).raiseMs Ev.MIR_GAP)
  if late then s else { s with mir := { s.mir with expect := some ((mseq + 1) % 2 ^ 32) } }

/-- A FLOW message is applied to the standby's own flow table. -/
def State.mirApply (s : State) (b : Bytes) : State :=
  let key := slice b 1 64
  if leAt b 0 1 = 3 then (s.flowDelete key).1
  else (s.flowInsert key (slice b 65 48) (bit (leAt b 113 1) 1) (bit (leAt b 113 1) 4) true).1

/-- What a standby keeps of a message. -/
def State.mirKeep (s : State) (kind : Nat) (b : Bytes) : State :=
  match kind with
  | 1 => { s with mir := { s.mir with heads := let l := s.mir.heads ++ [fit 64 b]
                                               l.drop (l.length - 64) } }
  | 2 => { s with mir := { s.mir with frer := (List.range (b.length / 260)).foldl (fun (m : SMap Bytes) k =>
      m.set (beAt b (260 * k) 2 % 2048) (slice b (260 * k + 2) 258)) s.mir.frer } }
  | 3 => { s with mir := { s.mir with rel := s.mir.rel.set (beAt b 0 1 % 64) (slice b 1 16) } }
  | 4 => s.mirApply b
  | _ => s

/-- A mirror message, from its header on, reaches firmware on the mirror port and VLAN (log 119). -/
def execMirMessageRx (msg : Bytes) (s : State) : Step :=
  let kind := leAt msg 1 1
  let mine := leAt msg 0 1 == 1 && beAt msg 2 2 == s.rd F.MIR_CTRL_PEER 0 && beAt msg 4 4 == s.mir.pair && decide (16 ≤ msg.length)
  .next (if !mine then s
    else if s.mirRole = 1 then s.when (kind == 1) (fun t => t.raise Ev.MIR_DUAL_PRIMARY)
    else if s.mirRole = 0 then s
    else
      let t := ({ s with mir := { s.mir with rxAt := s.now, silent := false } } : State).put .MIR_LAST_RX 0 s.stamp
      (t.mirGap (beAt msg 8 4)).mirKeep kind (msg.drop 16))

/-- No message has come for 10 ms. -/
def execMirPeerSilent (s : State) : Step :=
  .next (if 2 ≤ s.mirRole ∧ !s.mir.silent ∧ s.mir.rxAt + 10000000 ≤ s.now then
    ({ s with mir := { s.mir with silent := true } }).raise Ev.MIR_PEER_SILENT
  else s)

/-! ### Configuration and takeover (R268, R269) -/

/-- MIR_CFG: what a standby kept is gone (log 119). -/
def execMirCfg (e : Eci) (s : State) : Step :=
  s.eci e 0x0805 anyCmd (s.managerOnly e.fn) [3 + 2 ^ 4 * low 16, W32, low 12, W32, low 16] (fun p => p.getD 0 0 % 4 == 3) (fun p =>
    let w := p.getD 0 0
    let t := s.put .MIR_CTRL 0 (2 ^ 30 * (w % 4) + 2 ^ 24 * bits w 7 4 + 2 ^ 12 * bits w 19 8 + p.getD 2 0)
    .done { t with mir := { t.mir with
      pair := p.getD 1 0, peerMac := w64 p 3, expect := none, rxAt := t.now, silent := false, heads := [], frer := [], rel := [], resync := none, left := []
      periodAt := t.now } } RC_OK [])

/-- CHAIN_ID, RSEQ and H of a kept HEAD. -/
def headChain (h : Bytes) : Nat := beAt h 0 8
def headSeq (h : Bytes) : Nat := beAt h 8 8
def headHash (h : Bytes) : Bytes := slice h 16 48

/-- The words of the latest kept HEAD. -/
def State.headWords (s : State) : List Nat :=
  let h := fit 64 (s.mir.heads.getLastD [])
  two (headChain h) ++ two (headSeq h) ++ respOf (headHash h)

/-- MIR_STATUS. -/
def execMirStatus (e : Eci) (s : State) : Step :=
  s.eci e 0x0806 anyCmd (s.managerOnly e.fn) [] noCheck (fun _ =>
    let h := fit 64 (s.mir.heads.getLastD [])
    .done s RC_OK ([s.val .MIR_CTRL 0] ++ two (s.val .MIR_LAST_RX 0) ++ two (s.val .MIR_GAP 0) ++ [s.mir.heads.length] ++ two (headSeq h) ++
      two (headChain h)))

/-- The mirrored state of a context is loaded, or the context reset; loaded history bits all count (log 120). -/
def State.mirLoad (s : State) (discard : Bool) : State :=
  let cs := (s.frer.filter (fun c => decide (2 ≤ c.2.kind) && c.2.mirror)).map (·.1)
  s.each cs (fun c t =>
    if discard then t.modCtx c FrerCtx.reset
    else match t.mir.frer.getD c [] with
      | [] => t
      | b => t.modCtx c (fun x => { x with
          fresh_ := false, rcv := beAt b 0 2, hist := leAt b 2 256 % 2 ^ x.history, span := x.history, passedAt := some t.now, digests := [] }))

/-- The standby becomes primary. -/
def State.takeover (s : State) (discard : Bool) : EciOut :=
  let t := s.mirLoad discard
  let floors := t.mir.rel.foldl (fun (m : SMap (Option Nat)) e => m.setD e.1 (some (beAt e.2 0 8)) none) t.mir.floors
  let t := ({ t with mir := { t.mir with floors := floors, periodAt := t.now } } : State).wr F.MIR_CTRL_ROLE 0 1
  let t := t.each floors (fun e u => match e.2 with
    | some f => u.releaseFloor e.1 f u.pkts.length
    | none => u)
  .done (t.raise Ev.MIR_TAKEOVER_DONE) RC_OK s.headWords

/-- MIR_TAKEOVER. -/
def execMirTakeover (e : Eci) (s : State) : Step :=
  s.eci e 0x0807 anyCmd (s.managerOnly e.fn) (1 :: List.replicate 8 W32) noCheck (fun p =>
    if s.mirRole = 3 then .done s 0x80 []
    else if s.mirRole ≠ 2 ∨ s.mir.heads.isEmpty then .done s RC_NOT_READY []
    else if p.getD 0 0 = 0 then s.takeover false
    else
      let rseq := w64 p 3
      if s.mir.heads.all (fun h => decide (headSeq h < rseq)) then .done s 0x81 []
      else if s.mir.heads.any (fun h => headSeq h == rseq && (headChain h != w64 p 1 || (headHash h).drop 32 != wBytes p 5 4)) then
        .done ((s.wr F.MIR_CTRL_ROLE 0 3).raise Ev.MIR_DIVERGED) 0x80 []
      else s.takeover false)

/-- MIR_RESOLVE. -/
def execMirResolve (e : Eci) (s : State) : Step :=
  s.eci e 0x0808 anyCmd (s.managerOnly e.fn) [1] noCheck (fun p =>
    if s.mirRole ≠ 3 then .done s RC_NOT_READY [] else s.takeover (p.getD 0 0 == 1))

end Sys2Proof.Machine
end

