-- ==== Sys2Proof/Machine/Faults.lean ====
section
/-! DEFINITION. Failures and what they fence, the FATAL sequence, FENCE_NOTICE, the credit watchdog, Barista's spare core,
an FLR that an engine does not acknowledge, and rate windows (spec/17_errors_and_service.md R387 to R392;
spec/01_architecture.md R22, R23; spec/14_tenants.md R348; spec/00_scope.md R423). -/

namespace Sys2Proof.Machine

/-! ### FATAL errors (R392) -/

/-- The journal writer chains the records it has, as long as the ring takes them. -/
def State.commitAll (s : State) : List JRec → State
  | [] => s
  | r :: rest => if s.jnlWriting && !s.journal.faulted && decide (s.jnlHeld < s.jnlSize) then (s.commit r rest).commitAll rest else s

/-- A checkpoint begins over the last record chained, whenever it is due. -/
def State.beginCheckpoint (s : State) : State :=
  let j := s.journal
  match j.head with
  | none => s
  | some h => if s.on F.JNL_STATUS_SIGNER_OK 0 then
      { s with journal := { j with
        sinceCkpt := 0, ckptAt := s.stamp, signing := j.signing ++ [(j.next - 1, s.stamp, s.signature (j.next - 1) s.stamp h)] } }
    else s

/-- A FATAL error: event, cause and time latched, admission stopped, frames in progress stomped, the journal flushed; its reset
follows. -/
def State.fatalError (s : State) (cause unit : Nat) : State :=
  if s.fatal.isSome then s
  else
    let s := (s.countError .fatal).raise Ev.GLB_FATAL
    let s := ((s.wr F.GLB_FATAL_CAUSE_VALID 0 1).wr F.GLB_FATAL_CAUSE_CAUSE 0 cause).wr F.GLB_FATAL_CAUSE_UNIT 0 unit
    let s := s.put .GLB_FATAL_TIME 0 s.stamp
    let s := s.each (List.range 32) (fun k t => t.stompNow k)
    { (s.commitAll s.journal.backlog).beginCheckpoint with fatal := some s.now }

/-- The singleton units whose loss is FATAL: time unit, queue manager, event aggregator, always-on sequencer, fuse block. -/
def fatalUnit (unit : Nat) : Bool := [0xF000, 0xF004, 0xF006, 0xF007, 0xF008].contains unit

/-- An uncorrectable error in the state of a singleton unit that no fence contains. -/
def execGlbFatal (unit : Nat) (s : State) : Step := .next (if fatalUnit unit then s.fatalError 1 unit else s)

/-! ### What each failure fences (R389) -/

/-- The class of a fence: CONTAINED for a credit stall or an FLR timeout, else the class of the unit's row. -/
def fenceClass (unit cause : Nat) : ErrClass :=
  if cause = 2 ∨ cause = 8 then .contained
  else if [3, 5, 6, 7, 8, 9, 10, 11, 15].contains (unit / 4096) then .degraded else .contained

/-- A pseudo-channel is fenced (spec/16_memory.md R385). -/
def State.fenceHbm (s : State) (pc cause : Nat) : State :=
  let k := pc / 32
  let s := (s.fence (unitHbm pc) cause (fenceClass (unitHbm pc) cause) 0).wr F.HBM_PC_STATUS_STATE pc 4
  let s := (s.wr F.HBM_STACK_STATUS_FENCED k (s.rd F.HBM_STACK_STATUS_FENCED k + 1)).raise (Ev.HBM_PC_FENCED k)
  s.put .REL_CAPACITY 0 (s.capacityOf (s.on F.REL_CFG_SPILL_EN 0) (s.rd F.REL_CFG_CARAFE_MIB 0))

/-- A frame with cells in a failed Carafe bank is discarded; one that a MAC is sending ends stomped (spec/03_ports.md R72). -/
def State.loseCells (s : State) (unit h : Nat) : State :=
  match s.txNow.find? (fun e => (e.2.map (·.h)) == some h) with
  | some (k, some x) => { s with txNow := s.txNow.setD k (some { x with stomp := true }) none }
  | _ => (s.discard unit 1).dropPkt h 7

/-- A Carafe bank is fenced: the frames with cells in it are discarded, its share of the hold capacity goes. -/
def State.fenceBank (s : State) (b cause : Nat) (hs : List Nat) : State :=
  let s := (s.fence (unitBank b) cause (fenceClass (unitBank b) cause) 0).raise Ev.GLB_CARAFE_FENCED
  let s := s.each hs (fun h t => t.loseCells (unitBank b) h)
  s.put .REL_CAPACITY 0 (s.capacityOf (s.on F.REL_CFG_SPILL_EN 0) (s.rd F.REL_CFG_CARAFE_MIB 0))

/-- A die link is fenced; both links of one processing die are FATAL. -/
def State.fenceLink (s : State) (l cause : Nat) : State :=
  let s := (s.fence (unitLink l) cause (fenceClass (unitLink l) cause) 0).raise Ev.GLB_LINK_FENCED
  let out (k : Nat) : Bool := s.isFenced (unitLink k) 0
  if out 2 ∧ (out 0 ∨ out 1) then s.fatalError cause (unitLink l) else s

/-- A Barista core is fenced; no core left is FATAL. -/
def State.fenceCore (s : State) (k cause : Nat) : State :=
  let s := (s.fence (unitCore k) cause (fenceClass (unitCore k) cause) 0).raise Ev.FW_CORE_FAULT
  if (List.range 5).all (fun j => s.isFenced (unitCore j) 0) then s.fatalError cause (unitCore k) else s

/-- A copy channel is fenced (spec/15_copy_engine.md R370). -/
def State.fenceChannel (s : State) (ch cause : Nat) : State :=
  let s := (s.stopCopy ch CPY_FENCED).wr F.CPY_CH_STATUS_STATE ch 5
  (s.fence (unitObject 4) cause .contained ch).raise Ev.CPY_CHANNEL_FENCED

/-- A copy unit is fenced with its 64 channels. -/
def State.fenceCopy (s : State) (u cause : Nat) : State :=
  let s := s.each ((List.range 64).map (fun k => 64 * u + k)) (fun ch t => (t.stopCopy ch CPY_FENCED).wr F.CPY_CH_STATUS_STATE ch 5)
  ((s.wr F.CPY_UNIT_CTRL_FENCED u 1).fence (unitCopy u) cause (fenceClass (unitCopy u) cause) 0).raise Ev.CPY_UNIT_FENCED

/-- An offload context is fenced and listed (spec/07_offloads.md R177); object: index + 2^20 × kind. -/
def State.fenceCtx (s : State) (obj cause : Nat) : State :=
  let i := obj % 2 ^ 20
  let kind := obj / 2 ^ 20
  let s := s.fence (unitObject 2) cause .contained obj
  match kind with
  | 0 => let a := s.espSas.get i
    ((s.setEsp i { a with state := 3 }).note a.owner 0 i 5).raise (Ev.OFL_CTX_FENCED a.home)
  | 1 => let a := s.sessions.get i
    ((s.setSession i { a with state := 3 }).note a.owner 1 i 5).raise (Ev.OFL_CTX_FENCED a.home)
  | _ => let a := s.macsec.get i
    (({ s with macsec := s.macsec.set i { a with state := 3 } }).note s.manager 2 i 5).raise (Ev.OFL_CTX_FENCED (a.port / 4))

/-- A function is fenced. -/
def State.fenceFn (s : State) (f cause : Nat) : State :=
  ((s.wr F.HIF_FN_STATE_STATE f 5).wr F.MBX_STATUS_FENCED f 1).fence (unitObject 1) cause .contained f

/-- A descriptor ring is fenced: it stops. -/
def State.fenceRing (s : State) (key cause : Nat) : State := (s.stopRing key 4 0).fence (unitObject 0) cause .contained key

/-- An object of class 0xC is fenced. -/
def State.fenceObject (s : State) (kind obj cause : Nat) : State :=
  match kind with
  | 0 => s.fenceRing obj cause
  | 1 => s.fenceFn obj cause
  | 2 => s.fenceCtx obj cause
  | 3 => s.fenceThread obj cause
  | 4 => s.fenceChannel obj cause
  | 5 => ((s.fence (unitObject 5) cause .contained obj).loseDeficits (s.queuePort obj)).raise (Ev.TM_QUEUE_FENCED (obj / 32768))
  | _ => (s.fence (unitObject 6) cause .contained obj).raise Ev.FRER_CTX_FENCED

/-- The logical engine a physical engine serves. -/
def State.logicalOf (s : State) (c p : Nat) : Option Nat :=
  (List.range 8).find? (fun e => bits (s.rd F.BRW_ENGINE_MAP_PHYS c) (4 * e + 3) (4 * e) == p)

/-- A physical engine is fenced. -/
def State.fencePhysical (s : State) (ix cause : Nat) : State :=
  match s.logicalOf (ix / 9) (ix % 9) with
  | some e => s.fenceEngine (ix / 9) e cause
  | none => s.fenceIdleEngine (ix / 9) (ix % 9) cause

/-- A failure fences its unit; hs names the frames with cells in a failed Carafe bank. A failure inside a fenced unit does
nothing more. -/
def State.fenceUnit (s : State) (unit obj cause : Nat) (hs : List Nat) : State :=
  let i := unit % 4096
  if s.insideFenced unit obj then s
  else match unit / 4096 with
  | 1 => s.fenceCluster i cause .contained
  | 2 => s.fencePhysical i cause
  | 3 => (s.fence unit cause (fenceClass unit cause) 0).raise Ev.GLB_PIPE_FENCED
  | 4 => (s.fence unit cause .contained 0).portDown i
  | 5 => s.fenceHbm i cause
  | 6 => s.fenceCopy i cause
  | 7 => s.fenceCore i cause
  | 8 => (s.wr F.OFL_GROUP_CTRL_FENCED i 1).fence unit cause (fenceClass unit cause) 0
  | 9 => (s.fence unit cause (fenceClass unit cause) 0).raise (Ev.TM_SLICE_FENCED (i / 2))
  | 10 => s.fenceBank i cause hs
  | 11 => s.fenceLink i cause
  | 12 => s.fenceObject i obj cause
  | _ => if fatalUnit unit then s.fatalError cause unit else s.fence unit cause .degraded 0

/-- Identifiers of R388; the SRAM instances are those SVC_WEAR_QUERY counts. -/
def unitListed (unit : Nat) : Bool :=
  let i := unit % 4096
  match unit / 4096 with
  | 1 | 4 | 6 => decide (i < 16)
  | 2 => decide (i < 144)
  | 3 | 8 | 9 | 10 => decide (i < 4)
  | 5 => decide (i < 64)
  | 7 => decide (i < 5)
  | 11 => decide (i < 3)
  | 12 => decide (i < 7)
  | 13 => decide (i < Config.sramCount)
  | 14 => decide (i < 3) || decide (0x100 ≤ i ∧ i < 0x140) || decide (0x200 ≤ i ∧ i < 0x200 + 198)
  | 15 => decide (i < 9)
  | _ => false

/-- The object of a class 0xC fence exists. -/
def State.objectExists (s : State) (kind obj : Nat) : Bool :=
  match kind with
  | 0 => (s.ring obj).state != 0
  | 1 => s.fnExists obj
  | 2 => s.ctxState (obj / 2 ^ 20) (obj % 2 ^ 20) != 0
  | 3 => decide (obj < 1024)
  | 4 => decide (obj < 1024)
  | 5 => decide (obj < 65536)
  | 6 => decide (obj < 2048)
  | _ => false

/-- Units and objects R389 fences for an uncorrectable error of their state. -/
def State.stateFails (s : State) (unit obj : Nat) : Bool :=
  unitListed unit && ([3, 4, 6, 8, 9, 10, 11].contains (unit / 4096) ||
    (unit / 4096 == 12 && [0, 1, 2, 4, 5, 6].contains (unit % 4096) && s.objectExists (unit % 4096) obj))

/-- An uncorrectable error in a unit's state, or a die link that fails eight retries in a row (cause 7). -/
def execUncorrectableStateError (unit obj : Nat) (frames : List Nat) (s : State) : Step :=
  .next (if s.stateFails unit obj then s.fenceUnit unit obj (if unit / 4096 = 11 then 7 else 1) frames else s)

/-! ### The fence notice (spec/01_architecture.md R23) -/

/-- The frames queued to a fenced unit. -/
def State.queuedTo (s : State) (unit obj : Nat) : List Nat :=
  let i := unit % 4096
  let here (p : Packet) : Bool := match unit / 4096, p.stage with
    | 3, .received => p.pipe == i
    | 3, .parsed => p.pipe == i
    | 3, .checked => p.pipe == i
    | 3, .verdict => p.pipe == i
    | 4, .txCell n => n == i
    | 9, .queued q => q / 16384 == i
    | 12, .queued q => i == 5 && q == obj
    | _, _ => false
  (s.pkts.filter (fun e => here e.2)).map (·.1)

/-- Messages queued to a fenced offload group, or to threads of a fenced cluster, engine or thread. -/
def State.messageTo (s : State) (unit obj : Nat) (m : ChanMsg) : Bool :=
  let i := unit % 4096
  match unit / 4096 with
  | 8 => decide (0x400 ≤ m.dest ∧ m.dest < 0x500) && m.group == i
  | 1 => decide (m.dest < 1024) && m.dest / 64 == i
  | 2 => decide (m.dest < 1024) && clusterOf m.dest == i / 9 && s.physical (s.receiver m) == i % 9
  | 12 => i == 3 && m.dest == obj
  | _ => false

/-- Takes a frame out of the queues that name it, and ends it as discarded. -/
def State.discardQueued (s : State) (unit h : Nat) : State :=
  match s.pkt h with
  | none => s
  | some p =>
    let s := { s with dispatchQ := s.dispatchQ.erase h }
    let s := match p.stage with
      | .verdict => { s with order := s.order.filter (fun o => !(o.1 == p.pipe && o.2.1 == p.seq)) }
      | .queued q => s.modNode 3 q (fun n => { n with frames := n.frames.erase h })
      | _ => s
    (s.discard unit 1).dropPkt h (if unit / 4096 = 4 then 0x0C else if unit / 4096 = 3 then 6 else 7)

/-- The producers of a fenced unit discard and count what is queued to it; from the fence on they route round it. -/
def execFenceNotice (unit obj : Nat) (s : State) : Step :=
  .next (if !s.isFenced unit obj then s
    else
      let s := s.each (s.queuedTo unit obj) (fun h t => t.discardQueued unit h)
      let ms := s.chan.filter (fun m => s.messageTo unit obj m)
      ({ s with chan := s.chan.filter (fun m => !s.messageTo unit obj m) }).discard unit ms.length)

/-! ### The credit watchdog (spec/01_architecture.md R20, R22) -/

/-- The watched queue of a kind with a number; the event network has one. -/
def watchedQueue (kind : QueueKind) (i : Nat) : WatchedQueue :=
  match kind with
  | .receiveCell => .receiveCell i
  | .parse => .parse i
  | .dispatch => .dispatch i
  | .lookup => .lookup i
  | .offload => .offload i
  | .verdict => .verdict i
  | .enqueue => .enqueue i
  | .dieLink => .dieLink i
  | .hbm => .hbm i
  | .control => .control i
  | .event => .event

/-- The queue exists. -/
def queueListed : WatchedQueue → Bool
  | .receiveCell p => decide (p < 16)
  | .parse p | .dispatch p | .verdict p | .enqueue p => decide (p < 4)
  | .lookup c => decide (c < 16)
  | .offload g => decide (g < 4)
  | .dieLink l => decide (l < 3)
  | .hbm c => decide (c < 64)
  | .control u => unitListed u && u / 4096 != 12
  | .event => true

/-- The smallest fence unit that contains a queue's consumer. The Carafe writer is taken to be its port's even Carafe bank, the
traffic manager half behind a pipeline's reorder unit to be that pipeline's number of slice: DESIGN CHOICE, log 185. -/
def queueUnit : WatchedQueue → Nat
  | .receiveCell p => unitBank (p / 8 * 2)
  | .parse p | .dispatch p | .verdict p => unitPipe p
  | .lookup c => unitPipe (c / 4)
  | .offload g => unitOfl g
  | .enqueue p => unitSlice p
  | .dieLink l => unitLink l
  | .hbm c => unitHbm c
  | .control u => u
  | .event => 0xF006

/-- The elapsed times at which a queue's entries joined it; none where the model does not hold the queue, whose stall then
stands on the occurrence (log 9). -/
def State.queueTimes (s : State) (q : WatchedQueue) : Option (List Nat) :=
  let at_ (st : Stage) (pipe : Nat) : List Nat := (s.pkts.filter (fun e => e.2.stage == st && e.2.pipe == pipe)).map (·.2.since)
  match q with
  | .receiveCell p => some ((s.unparsed (fun x => x.fromWire && x.port == p)).map (·.2.since))
  | .parse p => some (at_ .received p)
  | .dispatch p => some (at_ .checked p)
  | .verdict p => some (at_ .verdict p)
  | .enqueue p => some (at_ .toTm p)
  | .lookup c => some ((s.lookups c).map (·.since))
  | .offload g => some ((s.chan.filter (fun m => decide (0x400 ≤ m.dest ∧ m.dest < 0x500) && m.group == g)).map (·.since))
  | _ => none

/-- The watchdog's limit has passed for a queue: an entry has waited so long, and no credit was returned (R22). -/
def State.stalls (s : State) (q : WatchedQueue) : Bool :=
  let limit := s.rd F.GLB_CREDIT_WDOG_LIMIT_US 0 * 1000
  match s.queueTimes q with
  | some ts => ts.any (fun t => decide (t + limit ≤ s.now)) && decide (s.watch.credits.get (queueKey q) + limit ≤ s.now)
  | none => true

/-- A watched queue has held an entry with no credit returned for LIMIT_US: the event names it, and its consumer is fenced. -/
def execCreditStall (kind : QueueKind) (ix : Nat) (s : State) : Step :=
  let q := watchedQueue kind ix
  .next (if s.on F.GLB_CREDIT_WDOG_EN 0 ∧ queueListed q ∧ !s.isFenced (queueUnit q) 0 ∧ s.stalls q then
    (({ s with watch := { s.watch with stalled := s.watch.stalled ++ [q] } }).raise Ev.CREDIT_STALL).fenceUnit (queueUnit q) 0 2 [] else s)

/-! ### The fence log (R391) -/

/-- A write of GLB_FENCE_POP: POP removes the head entry. -/
def State.fencePop (s : State) (v : Nat) : State :=
  if bit v 31 then ({ s with fenceLog := s.fenceLog.drop 1 }).fenceHeadSync else s

/-- A manager write of GLB_FENCE_POP. -/
def execGlbFencePop (fn v : Nat) (s : State) : Step := .next (s.asManager fn (fun s => s.fencePop v))

/-! ### Barista's cores (R390) -/

/-- The spare: a core at no position and in service. -/
def State.spareCore (s : State) : Option Nat := (List.range 5).find? (fun k => !s.cores.contains k && !s.isFenced (unitCore k) 0)

/-- The spare core's domain is powered when the core takes a position (spec/18_power_reset_package.md R406). -/
def State.sparePowered (s : State) : State := s.when (s.rd F.PWR_DOMAIN_STATE 53 == 0) (fun t => t.domainOn 53)

/-- Firmware meets a core's loss: the spare takes its position, and its functions' commands are abandoned. -/
def execFwCoreSpared (position : Nat) (s : State) : Step :=
  .next (if 4 ≤ position ∨ s.coreUp position then s
    else
      let mine := s.functions.filter (fun f => f % 4 == position)
      let gone (s : State) : State := if s.coresLost.contains position then s else s.each mine (fun f t => t.fwRestartFor f true true)
      match s.spareCore with
      | some k => ({ gone s with cores := s.cores.set position k, coresLost := s.coresLost.erase position }).sparePowered.raise Ev.FW_CORE_SPARED
      | none => { gone s with coresLost := (position :: s.coresLost).eraseDups })

/-! ### An FLR that is not acknowledged (spec/14_tenants.md R348) -/

/-- An engine's smallest fence units that still hold work of the function. -/
def State.slowUnits (s : State) (f e : Nat) : List (Nat × Nat) :=
  if e < 16 then (s.threads.filter (fun t => clusterOf t.1 == e && t.2.func == f && s.stale t.2)).map (fun t => (unitObject 3, endpoint t.1))
  else if e < 20 then [(unitOfl (e - 16), 0)]
  else if e = 20 then (s.copiesOf f).map (fun ch => (unitObject 4, ch))
  else
    let mine (n : Node) : Bool := n.frames.any (fun h => match s.pkt h with
      | some p => (!p.fromWire && p.func == f) || (decide (131072 ≤ p.dstRing) && (s.ring p.dstRing).fn == f)
      | none => false)
    ((s.nodesWhere 3 mine).filter (fun q => q / 32768 == e - 21)).map (fun q => (unitObject 5, q))

/-- 100 ms have passed: engines that have not acknowledged are fenced, their work with them, and the FLR completes. -/
def execFnFlrSlow (f : Nat) (s : State) : Step :=
  match s.flr.getD f none with
  | none => .next s
  | some r => .next (if s.now < r.since + 100000000 then s
    else
      let late := (List.range flrEngines).filter (fun e => !r.acks.contains e)
      let s := s.each late (fun e t => t.each (t.slowUnits f e) (fun u v => v.fenceUnit u.1 u.2 8 []))
      let s := s.each late (fun e t => (t.flrDiscard f e).getD t)
      (s.flrComplete f).raise Ev.FN_FLR_SLOW)

/-! ### Rate windows (spec/00_scope.md R423) -/

/-- The key of a window among State.rates, and its length. -/
def rateKey : RateSource → Nat
  | .cluster c => Ev.BRW_CORRECTED_RATE c
  | .half h => Ev.TM_CORRECTED_RATE h
  | .hostPort k => Ev.HIF_CORRECTED_RATE k
  | .stack k => Ev.HBM_CORRECTED_RATE k
  | .copy => Ev.CPY_CORRECTED_RATE
  | .barista => Ev.FW_SRAM_CORRECTED_RATE
  | .others => Ev.GLB_CORRECTED_RATE
  | .dieLinks => Ev.GLB_LINK_RETRY_RATE
  | .carafe b => 2000 + b
  | .pseudoChannel p => 3000 + p
  | .sram i => 10000 + i
  | .sramRow i r => 2 ^ 40 + 65536 * i + r
  | .hbmRow p b r => 2 ^ 60 + 65536 * (16 * p + b) + r

/-- One second, or one hour for SRAM wear (R396). -/
def rateWindow : RateSource → Nat
  | .sram _ | .sramRow _ _ => 3600000000000
  | _ => 1000000000

/-- The count that the window must pass. -/
def rateLimit : RateSource → Nat
  | .sram _ => 64
  | .sramRow _ _ => 3
  | .carafe _ => 16
  | .pseudoChannel _ => 4
  | .hbmRow _ _ _ => 15
  | _ => 1024

/-- What passing the threshold does. -/
def State.rateOver (s : State) (r : RateSource) : State :=
  match r with
  | .sram i | .sramRow i _ => ({ s with wear := s.wear.mod (0xD000 + i) (fun w => { w with sram := true }) }).raise Ev.SVC_SRAM_WEAR
  | .carafe b => s.fenceUnit (unitBank b) 0 6 []
  | .pseudoChannel p => s.fenceUnit (unitHbm p) 0 6 []
  | .hbmRow _ _ _ => s
  | r => s.raise (rateKey r)

/-- The source exists. -/
def rateExists : RateSource → Bool
  | .cluster c => decide (c < 16)
  | .half h => decide (h < 2)
  | .hostPort k | .stack k => decide (k < 2)
  | .carafe b => decide (b < 4)
  | .pseudoChannel p | .hbmRow p _ _ => decide (p < 64)
  | .sram i | .sramRow i _ => decide (i < Config.sramCount)
  | _ => true

/-- Errors of these sources are corrected ones; die-link retries and failing cell checks are not errors of that class. -/
def rateCorrected : RateSource → Bool
  | .dieLinks | .carafe _ | .pseudoChannel _ | .sramRow _ _ | .hbmRow _ _ _ => false
  | _ => true

/-- An SRAM instance's errors of the hour that ends, and since manufacture (R397). -/
def State.sramHour (s : State) (r : RateSource) : State :=
  match r with
  | .sram i =>
    let n := (s.rates.get (rateKey r)).count
    { s with wear := s.wear.mod (0xD000 + i) (fun w => { w with hour := n, total := w.total + n }) }
  | _ => s

/-- A window of a rate threshold ends; errors are the occurrences in it that no other command of the model reported. -/
def execRateWindowEnd (r : RateSource) (errors : Nat) (s : State) : Step :=
  .next (if !(rateExists r) ∨ s.now < s.windowStart (rateKey r) + rateWindow r then s
    else
      let s := (s.rateCount (rateKey r) errors).when (rateCorrected r) (fun t => t.add .GLB_ERR_COUNT 0 errors)
      (s.sramHour r).windowEnd (rateKey r) (rateWindow r) (rateLimit r) (fun t => t.rateOver r))

end Sys2Proof.Machine
end

