-- ==== Sys2Proof/Machine/HbmCtl.lean ====
section
/-! DEFINITION. The HBM controllers: address mapping, accesses, open rows, refresh, self-refresh, temperature, soft repair
and retraining (spec/16_memory.md R372 to R386). -/

namespace Sys2Proof.Machine

/-! ### Banks -/

/-- The key of a bank. -/
def bankKey (pc bank : Nat) : Nat := 16 * pc + bank

/-- The HBM controllers' state changes. -/
def State.modHbm (s : State) (g : Hbm → Hbm) : State := { s with hbm := g s.hbm }

/-! ### Refresh counts and the end of self-refresh (R378, R380) -/

/-- POSTPONED shows the highest count of a pseudo-channel's banks. -/
def State.postponedSync (s : State) (pc : Nat) : State :=
  s.wr F.HBM_PC_STATUS_POSTPONED pc ((List.range 16).foldl (fun a b => max a (s.hbm.post.get (bankKey pc b))) 0)

/-- The pseudo-channels of a stack. -/
def stackPcs (k : Nat) : List Nat := (List.range 32).map (fun p => 32 * k + p)

/-- A stack leaves self-refresh: every bank has been refreshed. -/
def State.srExit (s : State) (k : Nat) : State :=
  if !(stackPcs k).any (fun p => s.rd F.HBM_PC_STATUS_STATE p == 3) then s
  else
    let s := s.each (stackPcs k) (fun p t => t.when (t.rd F.HBM_PC_STATUS_STATE p == 3) (fun u => u.wr F.HBM_PC_STATUS_STATE p 1))
    let s := s.modHbm (fun h => { h with post := h.post.filter (fun e => e.1 / 512 != k), due := h.due.filter (fun e => e.1 / 512 != k), reqAt := h.reqAt.set k s.now })
    let s := s.modHbm (fun h => { h with due := (stackPcs k).foldl (fun m p => (List.range 16).foldl (fun (n : SMap Nat) b => n.set (bankKey p b) s.now) m) h.due })
    (s.each (stackPcs k) (fun p t => t.postponedSync p)).raise (Ev.HBM_SR_EXIT k)

/-! ### Accesses (R375, R377, R379, R383, R385) -/

/-- An uncorrectable read: counted, announced, and counted in the windows of its pseudo-channel and row. -/
def State.hbmUncorrected (s : State) (p : HbmPlace) : State :=
  let k := p.pc / 32
  let s := (s.count .HBM_CTR k C.HBM_UNCORRECTED).raiseLimited (Ev.HBM_UNCORRECTED k) 0 1000000
  (s.rateCount (rateKey (.pseudoChannel p.pc)) 1).rateCount (rateKey (.hbmRow p.pc p.bank p.row)) 16

/-- A corrected read. -/
def State.hbmCorrected (s : State) (p : HbmPlace) : State :=
  let k := p.pc / 32
  let s := (s.count .HBM_CTR k C.HBM_CORRECTED).countError .corrected
  (s.rateCount (rateKey (.stack k)) 1).rateCount (rateKey (.hbmRow p.pc p.bank p.row)) 1

/-- What the access meets: corrected or uncorrectable data on a read, a parity error. A parity failure that recurs after a
retraining fences the pseudo-channel. -/
def State.hbmResult (s : State) (p : HbmPlace) (write : Bool) (r : HbmResult) : State :=
  match r with
  | .ok | .parityRetried => s
  | .corrected => if write then s else s.hbmCorrected p
  | .uncorrected => if write then s else s.hbmUncorrected p
  | .parityFailed =>
    let again := s.hbm.parity.get p.pc == 2
    let s := (s.hbmUncorrected p).raiseLimited (Ev.HBM_PHY_ERROR (p.pc / 32)) 0 1000000
    let s := s.modHbm (fun h => { h with parity := h.parity.set p.pc 1 })
    s.when again (fun t => t.fenceUnit (unitHbm p.pc) 0 1 [])

/-- One 64-byte access of a client at an offset of a region; its data are its client's command's. late: it exceeds its
latency bound. A stack in self-refresh serves it after its exit. -/
def execHbmAccess (region off : Nat) (write : Bool) (r : HbmResult) (late : Bool) (s : State) : Step :=
  let p := s.hbmPlace region off
  let k := p.pc / 32
  .next (if 8 ≤ region ∨ !s.on F.HBM_REGION_EN region ∨ s.regionBytes region ≤ off then s
    else if s.isFenced (unitHbm p.pc) 0 then s.when write (fun t => t.count .HBM_CTR k C.HBM_FENCED_DISCARDS)
    else
      let s := s.srExit k
      let s := s.count .HBM_CTR k (if write then C.HBM_WRITES else C.HBM_READS)
      let keep := s.rd F.HBM_PAGE_CFG_IDLE_CYCLES p.pc != 0
      let s := s.modHbm (fun h => { h with
        rows := h.rows.setD (bankKey p.pc p.bank) (if keep then some (p.row, s.now) else none) none, reqAt := h.reqAt.set k s.now })
      let s := s.when late (fun t => (t.count .HBM_CTR k C.HBM_LAT_EXCEEDED).raiseLimited (Ev.HBM_LAT_EXCEEDED k) 0 1000000)
      s.hbmResult p write r)

/-- No access has reached a bank for IDLE_CYCLES cycles of 1.2 GHz: its row closes. -/
def execHbmRowClose (pc bank : Nat) (s : State) : Step :=
  match s.hbm.rows.getD (bankKey pc bank) none with
  | none => .next s
  | some (_, at_) => .next (if at_ * 6 + s.rd F.HBM_PAGE_CFG_IDLE_CYCLES pc * 5 ≤ s.now * 6 then
      s.modHbm (fun h => { h with rows := h.rows.setD (bankKey pc bank) none none }) else s)

/-! ### Refresh (R378) -/

/-- The refresh interval of a stack. -/
def State.refreshNs (s : State) (k : Nat) : Nat := if s.on F.HBM_STACK_STATUS_HOT k then 1950 else 3900

/-- A bank refresh falls due: made, with those postponed, on an idle bank; postponed on a busy one; the ninth forces them. A bank
that falls idle before the next is due makes up those postponed. -/
def execHbmRefreshDue (pc bank : Nat) (busy : Bool) (s : State) : Step :=
  let key := bankKey pc bank
  let put (s : State) (n : Nat) : State := (s.modHbm (fun h => { h with post := h.post.set key n })).postponedSync pc
  .next (if 64 ≤ pc ∨ 16 ≤ bank ∨ s.rd F.HBM_PC_STATUS_STATE pc ≠ 1 then s
    else if s.now < s.hbm.due.get key + s.refreshNs (pc / 32) then (if busy then s else put s 0)
    else
      let s := s.modHbm (fun h => { h with due := h.due.set key s.now })
      let n := s.hbm.post.get key + 1
      if !busy then put s 0
      else if n ≤ 8 then put s n
      else ((put s 0).count .HBM_CTR (pc / 32) C.HBM_REFRESH_FORCED).raiseLimited (Ev.HBM_REFRESH_FORCED (pc / 32)) 0 1000000)

/-! ### Self-refresh (R380) -/

/-- A stack with no request for 100 µs in DEEP_IDLE enters self-refresh. -/
def execHbmSrEnter (k : Nat) (s : State) : Step :=
  .next (if k < 2 ∧ s.rd F.PWR_STATUS_STATE 0 = 2 ∧ s.hbm.reqAt.get k + 100000 ≤ s.now ∧ (stackPcs k).any (fun p => s.rd F.HBM_PC_STATUS_STATE p == 1) then
    (s.each (stackPcs k) (fun p t => t.when (t.rd F.HBM_PC_STATUS_STATE p == 1) (fun u => u.wr F.HBM_PC_STATUS_STATE p 3))).raise (Ev.HBM_SR_ENTER k)
  else s)

/-- A request during self-refresh makes the stack exit. -/
def execHbmSrExit (k : Nat) (s : State) : Step := .next (if k < 2 then s.srExit k else s)

/-! ### Temperature (R378, R382, R386) -/

/-- A stack's temperature, in the stack's status and as the hotter stack in PWR_STATUS. -/
def State.stackTemp (s : State) (k t : Nat) : State :=
  let s := s.wr F.HBM_STACK_STATUS_TEMP_C k t
  s.wr F.PWR_STATUS_HBM_C 0 (max (s.rd F.HBM_STACK_STATUS_TEMP_C 0) (s.rd F.HBM_STACK_STATUS_TEMP_C 1))

/-- A stack passes 85 °C: the refresh interval halves. -/
def execHbmTempHigh (k t : Nat) (s : State) : Step :=
  .next (if k < 2 ∧ 85 < t ∧ t < 256 ∧ !s.on F.HBM_STACK_STATUS_HOT k then
    ((s.stackTemp k t).wr F.HBM_STACK_STATUS_HOT k 1).raise (Ev.HBM_TEMP_HIGH k) else s)

/-- A stack passes 95 °C. -/
def execHbmTempCrit (k t : Nat) (s : State) : Step :=
  .next (if k < 2 ∧ 95 < t ∧ t < 256 then (s.stackTemp k t).raise (Ev.HBM_TEMP_CRIT k) else s)

/-- A stack falls to 85 °C or below. -/
def execHbmTempNormal (k t : Nat) (s : State) : Step :=
  .next (if k < 2 ∧ t ≤ 85 ∧ s.on F.HBM_STACK_STATUS_HOT k then (s.stackTemp k t).wr F.HBM_STACK_STATUS_HOT k 0 else s)

/-- A stack's temperature has moved more than 10 °C since its last training. -/
def execHbmDrift (k t : Nat) (s : State) : Step :=
  let was := s.rd F.HBM_STACK_STATUS_TRAIN_TEMP_C k
  .next (if k < 2 ∧ t < 256 ∧ (was + 10 < t ∨ t + 10 < was) then (s.stackTemp k t).raise (Ev.HBM_DRIFT k) else s)

/-! ### Repair and retraining (R382, R384) -/

/-- Repairs made in a bank. -/
def State.bankRepairs (s : State) (pc bank : Nat) : Nat := (s.hbm.repairs.filter (fun r => r.pc == pc && r.bank == bank)).length

/-- A row that returned an uncorrectable read, or 16 corrected ones within a second, is mapped to a repair row. -/
def execHbmSoftRepair (pc bank row : Nat) (s : State) : Step :=
  let key := rateKey (.hbmRow pc bank row)
  let k := pc / 32
  .next (if 64 ≤ pc ∨ 16 ≤ bank ∨ 49152 ≤ row ∨ (s.rates.get key).count < 16 ∨ 2 ≤ s.bankRepairs pc bank then s
    else
      let s := { s with rates := s.rates.set key { s.rates.get key with count := 0 } }
      let s := s.modHbm (fun h => { h with repairs := h.repairs ++ [({ pc := pc, bank := bank, row := row } : HbmRepair)] })
      let s := (s.wr F.HBM_PC_STATUS_REPAIRS pc (s.rd F.HBM_PC_STATUS_REPAIRS pc + 1)).count .HBM_CTR k C.HBM_SOFT_REPAIRS
      let s := (s.countError .corrected).raise (Ev.HBM_SOFT_REPAIR k)
      s.when (s.bankRepairs pc bank == 2) (fun t => t.raise (Ev.HBM_REPAIR_EXHAUSTED k)))

/-- A lane fault is mended with a spare lane. -/
def State.remapLane (s : State) (pc : Nat) : State :=
  if s.rd F.HBM_PC_STATUS_SPARE_LANES pc < 2 then
    (s.wr F.HBM_PC_STATUS_SPARE_LANES pc (s.rd F.HBM_PC_STATUS_SPARE_LANES pc + 1)).raise (Ev.HBM_LANE_REMAP (pc / 32))
  else s

/-- A stack is retrained: soft repairs become permanent, lane faults are remapped, a pseudo-channel that fails is fenced. -/
def State.retrain (s : State) (k : Nat) (lanes failed : List Nat) : State :=
  let mine (p : Nat) : Bool := p / 32 == k && decide (p < 64)
  let s := s.each (lanes.filter mine) (fun p t => t.remapLane p)
  let s := s.modHbm (fun h => { h with
    repairs := h.repairs.map (fun r => if r.pc / 32 = k then { r with permanent := true } else r)
    parity := h.parity.map (fun e => if e.1 / 32 = k ∧ e.2 = 1 then (e.1, 2) else e) })
  let s := s.each ((failed.filter (fun u => u / 4096 == 5 && mine (u % 4096)))) (fun u t => t.fenceUnit u 0 3 [])
  ((s.wr F.HBM_STACK_STATUS_TRAIN_TEMP_C k (s.rd F.HBM_STACK_STATUS_TEMP_C k)).raise (Ev.HBM_TRAIN_DONE k))

end Sys2Proof.Machine
end

