-- ==== Sys2Proof/Machine/Images.lean ====
section
/-! DEFINITION. Microcode images: their layout, the refusals of R163, and loading them into control-store banks
(spec/06_microcode.md, "Images", R163 to R167). -/

namespace Sys2Proof.Machine

/-- A section entry: TYPE with its reserved half, OFFSET, LENGTH, LOAD. -/
structure ImgSection where
  type : Nat
  off : Nat
  len : Nat
  load : Nat
deriving DecidableEq, Repr, Inhabited

/-- The sections a header announces. -/
def imgSections (b : Bytes) : List ImgSection :=
  (List.range (min 32 (leAt b 0x10 2))).map (fun k =>
    { type := leAt b (0x40 + 16 * k) 4, off := leAt b (0x44 + 16 * k) 4, len := leAt b (0x48 + 16 * k) 4, load := leAt b (0x4C + 16 * k) 4 })

/-- Header fields. -/
def imgKind (b : Bytes) : Nat := leAt b 6 2
def imgId (b : Bytes) : Nat := leAt b 8 4
def imgTsram (b : Bytes) : Nat := leAt b 0x20 4
def imgHbm (b : Bytes) : Nat := leAt b 0x24 4
def imgFresh (b : Bytes) : Bool := bit (leAt b 0x10 4) 16

/-- The contents of a section. -/
def ImgSection.bytes (x : ImgSection) (b : Bytes) : Bytes := slice b x.off x.len

/-- The MATCH entries of an image, numbered across its sections. -/
def imgMatches (b : Bytes) : List Nat :=
  (imgSections b).flatMap (fun x => if x.type = 3 then entries64 (x.bytes b) 0 (x.len / 8) else [])

/-- A list holds some value twice. -/
def hasDup (l : List Nat) : Bool := l.eraseDups.length != l.length

/-- BAD_FORMAT: format, kind, reserved fields, section types, two enabled MATCH entries of one ROM address. -/
def imgBadFormat (b : Bytes) (place : Nat) : Bool :=
  let ss := imgSections b
  let kind := imgKind b
  leAt b 4 2 != 1 || kind != place || leAt b 0x0E 2 != 0 || leAt b 0x12 2 / 2 != 0 || leAt b 0x1E 2 != 0 || leAt b 0x28 24 != 0 ||
    leAt b 0x10 2 == 0 || decide (32 < leAt b 0x10 2) ||
    ss.any (fun x => decide (x.type = 0 ∨ 6 < x.type) || (kind == 1 && x.type == 3) || (kind == 2 && [2, 4, 5].contains x.type) ||
      ([2, 3, 6].contains x.type && x.load != 0)) ||
    (imgMatches b).any (fun m => bits m 63 33 != 0) || hasDup (((imgMatches b).filter (fun m => bit m 32)).map (fun m => bits m 15 0))

/-- SECTION_RANGE: code outside the kind's region, initial data beyond its region, a section beyond the image, too many MATCH
entries or one of an address out of range. -/
def imgBadRange (b : Bytes) : Bool :=
  let total := leAt b 0x14 4
  let lo := if imgKind b = 1 then 0x8000 else 0x6000
  let hi := if imgKind b = 1 then 0xC000 else 0x8000
  (imgSections b).any (fun x => decide (total < x.off + x.len) || (x.type == 1 && decide (x.load < lo ∨ hi < x.load + cdiv x.len 32)) ||
    (x.type == 4 && decide (imgTsram b * 1024 < x.load + x.len)) || (x.type == 5 && decide (imgHbm b * 1048576 < x.load + x.len))) ||
  decide (28 < (imgMatches b).length) ||
  (imgMatches b).any (fun m => decide (bits m 31 16 < 0x6000 ∨ 0x8000 ≤ bits m 31 16) || decide (0x6000 ≤ bits m 15 0))

/-- BAD_LENGTH. -/
def imgBadLength (b : Bytes) (given : Nat) : Bool :=
  leAt b 0x14 4 != given || (imgSections b).any (fun x => (x.type == 1 && x.len % 32 != 0) || (x.type == 2 && x.len != 256) || (x.type == 3 && x.len % 8 != 0))

/-- ENTRY_RANGE. -/
def imgBadEntry (b : Bytes) : Bool :=
  let out (e : Nat) : Bool := decide (e < 0x8000 ∨ 0xBFFF < e)
  let pk (e : Nat) : Bool := out e && decide (1 < e)
  if imgKind b = 2 then leAt b 0x18 4 != 0 || leAt b 0x1C 2 != 0 || imgTsram b != 0 || imgHbm b != 0
  else pk (leAt b 0x18 2) || pk (leAt b 0x1A 2) || (out (leAt b 0x1C 2) && leAt b 0x1C 2 != 2)

/-- Two intervals (start, length) meet. -/
def meets (a b : Nat × Nat) : Bool := decide (a.1 < b.1 + b.2 ∧ b.1 < a.1 + a.2)

/-- Some two intervals of a list meet. -/
def anyMeet : List (Nat × Nat) → Bool
  | [] => false
  | a :: r => r.any (meets a) || anyMeet r

/-- OVERLAP: two CODE sections, or two INIT sections of one region. -/
def imgOverlap (b : Bytes) : Bool :=
  let of (t unit : Nat) : List (Nat × Nat) := ((imgSections b).filter (fun x => x.type == t)).map (fun x => (x.load, cdiv x.len unit))
  anyMeet (of 1 32) || anyMeet (of 4 1) || anyMeet (of 5 1)

/-- The lengths firmware reads at all (R166). -/
def imgReadable (len : Nat) : Bool := decide (64 ≤ len ∧ len ≤ 16777216)

/-- The refusal code of an image named at a place (1 customer, 2 patch), the lowest of the rules it breaks; 0: accepted. -/
def refusal (x : ShadowImage) (place rev : Nat) : Nat :=
  let b := x.bytes
  if !imgReadable x.len then 0x84
  else if leAt b 0 4 ≠ 0x4D495653 then 0x80
  else if imgBadFormat b place then 0x81
  else if leAt b 0x0C 2 ≠ rev then 0x82
  else if imgBadRange b then 0x83
  else if imgBadLength b x.len then 0x84
  else if imgBadEntry b then 0x85
  else if imgOverlap b then 0x86
  else 0

/-- An image's measurement: zero when no byte was read. -/
def ShadowImage.meas (x : ShadowImage) : Bytes := if imgReadable x.len then digest x.bytes else List.replicate 48 0

/-- The IMAGE record of a staging attempt or a load at boot (spec/09_release_and_evidence.md R252). -/
def State.journalImage (s : State) (id kind outcome : Nat) (meas : Bytes) : State :=
  s.journalCfg 0x02 2 (leBytes 4 id ++ leBytes 1 kind ++ leBytes 1 outcome ++ leBytes 2 0 ++ fit 48 meas)

/-! ### Banks -/

/-- First word and word past the last of a kind's region: 1 customer, 2 patch. -/
def regionLo (kind : Nat) : Nat := if kind = 1 then 0x8000 else 0x6000
def regionHi (kind : Nat) : Nat := if kind = 1 then 0xC000 else 0x8000

/-- A control-store key lies in a kind's region of a bank of a cluster. -/
def inRegion (c bank kind key : Nat) : Bool :=
  key / 131072 == c && key % 131072 / 65536 == bank && decide (regionLo kind ≤ key % 65536 ∧ key % 65536 < regionHi kind)

/-- Clears a kind's region of a bank of a cluster: every word the filler. -/
def State.clearRegion (s : State) (c bank kind : Nat) : State :=
  { s with cs := s.cs.filter (fun e => !inRegion c bank kind e.1), csBad := s.csBad.filter (fun e => !inRegion c bank kind e.1) }

/-- Writes an image's CODE sections into a bank of a cluster. -/
def State.loadCode (s : State) (c bank : Nat) (b : Bytes) : State :=
  s.each ((imgSections b).filter (fun x => x.type == 1)) (fun x t =>
    t.each (List.range (x.len / 32)) (fun k u => { u with cs := u.cs.setD (csKey c bank (x.load + k)) (leAt b (x.off + 32 * k) 32) csFill }))

/-- Copies a kind's region from one bank to another. -/
def State.copyRegion (s : State) (c from_ to_ kind : Nat) : State :=
  let mine := s.cs.filter (fun e => inRegion c from_ kind e.1)
  let s := s.clearRegion c to_ kind
  s.each mine (fun e t => { t with cs := t.cs.setD (csKey c to_ (e.1 % 65536)) e.2 csFill })

/-- The twelve words of a measurement in its registers. -/
def State.putMeas (s : State) (r : Reg) (c bank : Nat) (m : Bytes) : State :=
  s.each (List.range 12) (fun i t => t.put r (24 * c + 12 * bank + i) (leAt (fit 48 m) (4 * i) 4))

/-- Patch-match entries 0 to 27 of a bank; those the image does not fill are disabled. -/
def State.putMatches (s : State) (c bank : Nat) (ms : List Nat) : State :=
  s.each (List.range 28) (fun k t => t.put .CS_MATCH (64 * c + 32 * bank + k) (ms.getD k 0 % 2 ^ 16 + bits (ms.getD k 0) 31 16 * 2 ^ 16 + b2n (bit (ms.getD k 0) 32) * 2 ^ 63))

/-- A repair entry stays where the new patch image leaves its word free; else it is disabled (log 132). -/
def State.keepRepairs (s : State) (c bank : Nat) (b : Bytes) : State :=
  let covered (a : Nat) : Bool := (imgSections b).any (fun x => x.type == 1 && decide (x.load ≤ a ∧ a < x.load + x.len / 32))
  s.each [28, 29, 30, 31] (fun k t =>
    let ix := 64 * c + 32 * bank + k
    let p := t.rd F.CS_MATCH_PATCH ix
    if !t.on F.CS_MATCH_EN ix then t
    else if covered p then t.wr F.CS_MATCH_EN ix 0
    else { t with cs := t.cs.setD (csKey c bank p) (Config.romWord (t.rd F.CS_MATCH_ROM ix)).toNat csFill })

/-- The patch image of a bank in one cluster: a new one, or a copy of the one in use. -/
def State.loadPatch (s : State) (c use bank : Nat) (x : Option ShadowImage) : State :=
  match x with
  | some i =>
    let s := ((((s.clearRegion c bank 2).loadCode c bank i.bytes).putMatches c bank (imgMatches i.bytes)).keepRepairs c bank i.bytes)
    (s.putMeas .CS_PMEAS c bank i.meas)
  | none =>
    let s := s.copyRegion c use bank 2
    let s := s.each (List.range 28) (fun k t => t.put .CS_MATCH (64 * c + 32 * bank + k) (t.val .CS_MATCH (64 * c + 32 * use + k)))
    s.each (List.range 12) (fun i t => t.put .CS_PMEAS (24 * c + 12 * bank + i) (t.val .CS_PMEAS (24 * c + 12 * use + i)))

/-- The customer image of a bank in one cluster, likewise. -/
def State.loadCustomer (s : State) (c use bank : Nat) (x : Option ShadowImage) : State :=
  match x with
  | some i =>
    let b := i.bytes
    let s := (s.clearRegion c bank 1).loadCode c bank b
    let s := (s.put .CS_IMAGE_ID (2 * c + bank) (imgId b)).put .CS_ENTRY (2 * c + bank) (leAt b 0x18 2 + 2 ^ 16 * leAt b 0x1A 2 + 2 ^ 32 * leAt b 0x1C 2)
    (s.put .CS_REGION (2 * c + bank) (imgTsram b + 2 ^ 32 * imgHbm b)).putMeas .CS_MEAS c bank i.meas
  | none =>
    let s := s.copyRegion c use bank 1
    let s := s.each [Reg.CS_IMAGE_ID, Reg.CS_ENTRY, Reg.CS_REGION] (fun r t => t.put r (2 * c + bank) (t.val r (2 * c + use)))
    s.each (List.range 12) (fun i t => t.put .CS_MEAS (24 * c + 12 * bank + i) (t.val .CS_MEAS (24 * c + 12 * use + i)))

/-- KINDS of a bank in a cluster. -/
def kindsOf (old : Nat) (cust patch : Option ShadowImage) : Nat :=
  (if cust.isSome ∨ bit old 0 then 1 else 0) + (if patch.isSome ∨ bit old 1 then 2 else 0)

/-- Images are written into a bank of the clusters named, beside the ones in use; STATE as given. -/
def State.writeBank (s : State) (cs : List Nat) (use bank st : Nat) (cust patch : Option ShadowImage) : State :=
  s.each cs (fun c t =>
    let kinds := kindsOf (t.rd F.CS_BANK_STATE_KINDS (2 * c + use)) cust patch
    let t := (t.loadPatch c use bank patch).loadCustomer c use bank cust
    (t.wr F.CS_BANK_STATE_STATE (2 * c + bank) st).wr F.CS_BANK_STATE_KINDS (2 * c + bank) kinds)

/-- STATE of a bank in every cluster; EMPTY holds no kind. -/
def State.bankState (s : State) (bank st : Nat) : State :=
  s.each (List.range 16) (fun c t => (t.wr F.CS_BANK_STATE_STATE (2 * c + bank) st).when (st == 0) (fun u => u.wr F.CS_BANK_STATE_KINDS (2 * c + bank) 0))

/-! ### Data regions (R165) -/

/-- The 32 constants of a CONST section. -/
def imgConsts (b : Bytes) : List Nat :=
  match (imgSections b).find? (fun x => x.type == 2) with
  | some x => entries64 (x.bytes b) 0 32
  | none => []

/-- The new image shares the regions of the one in use. -/
def State.sharesRegions (s : State) (use : Nat) (b : Bytes) : Bool :=
  (s.banks.get use).size == imgTsram b + 2 ^ 32 * imgHbm b && !imgFresh b

/-- The bytes of an image's initial data for a kind of region (4 TSRAM, 5 HBM), by address. -/
def imgInit (b : Bytes) (type : Nat) : List (Nat × Byte) :=
  ((imgSections b).filter (fun x => x.type == type)).flatMap (fun x => (x.bytes b).zipIdx.map (fun e => (x.load + e.2, e.1)))

/-- New regions with an image's initial data, the rest zero; both dies hold the TSRAM region. -/
def State.newRegions (s : State) (b : Bytes) : State :=
  let r := s.nextRegion
  let ts := (imgInit b 4).foldl (fun m e => [0, 1].foldl (fun (n : SMap Byte) d => n.set (8388608 * (2 * r + d) + e.1) e.2) m) s.tsram
  let hb := (imgInit b 5).foldl (fun (m : SMap Byte) e => m.set (2 ^ 33 * r + e.1) e.2) s.hbmMem
  { s with nextRegion := r + 1, tsram := ts, hbmMem := hb }

/-- The regions of an identity are freed. -/
def State.freeRegions (s : State) (r : Nat) : State :=
  { s with tsram := s.tsram.filter (fun e => e.1 / 16777216 != r), hbmMem := s.hbmMem.filter (fun e => e.1 / 2 ^ 33 != r) }

/-- A bank's regions and constants for images staged beside those in use. -/
def State.setBank (s : State) (use bank : Nat) (cust patch : Option ShadowImage) : State :=
  let old := s.banks.get use
  let pid := match patch with
    | some i => imgId i.bytes
    | none => old.patchId
  match cust with
  | none => { s with banks := s.banks.set bank { old with patchId := pid } }
  | some i =>
    if s.sharesRegions use i.bytes then { s with banks := s.banks.set bank { region := old.region, size := old.size, consts := imgConsts i.bytes, patchId := pid } }
    else
      let r := s.nextRegion
      { s.newRegions i.bytes with banks := s.banks.set bank { region := r, size := imgTsram i.bytes + 2 ^ 32 * imgHbm i.bytes, consts := imgConsts i.bytes, patchId := pid } }

/-- The image data pool in MiB, less the shares of fenced pseudo-channels (spec/16_memory.md R372, R385). -/
def State.poolMib (s : State) : Nat := 256 * ((List.range 64).filter (fun p => !s.isFenced (unitHbm p) 0)).length

/-- A region size that the adapter cannot provide. -/
def State.noRegions (s : State) (use : Nat) (b : Bytes) : Bool :=
  decide (8192 < imgTsram b ∨ 8192 < imgHbm b) ||
    (!s.sharesRegions use b && decide (s.poolMib < imgHbm b + s.rd F.CS_REGION_HBM_MIB use))

/-- The bank an epoch bit uses; every cluster's map is the same. -/
def State.bankFor (s : State) (epoch : Nat) : Nat :=
  if epoch = 0 then s.rd F.CS_BANK_MAP_EPOCH0_BANK 0 else s.rd F.CS_BANK_MAP_EPOCH1_BANK 0

/-- Clusters that are not fenced. -/
def State.liveClusters (s : State) : List Nat := (List.range 16).filter (fun c => !s.on F.BRW_CTRL_FENCED c)

end Sys2Proof.Machine
end

