-- ==== Sys2Proof/Machine/EciEpoch.lean ====
section
/-! DEFINITION. Epoch changes: staging, commit, abandon, status, the commit instant and the end of the drain, and the
spare-swap plan (spec/01_architecture.md R28 to R34, spec/13_control_interface.md R337,
spec/17_errors_and_service.md R398, R399). -/

namespace Sys2Proof.Machine

/-! ### The spare-swap plan -/

/-- The actions the table allows a unit, with a legal argument. -/
def actionOk (e : PlanEntry) : Bool :=
  let cls := e.unit / 4096
  let fenceable := [1, 3, 4, 5, 6, 7, 8, 9, 10, 11].contains cls
  unitListed e.unit && (match e.action with
    | 1 => (cls == 2 && e.arg == 0) || (cls == 13 && bits e.arg 30 16 == 0) || (cls == 14 && decide (e.unit % 4096 < 2) && e.arg == 0)
    | 2 => e.arg == 0 && (fenceable || cls == 2 || (cls == 14 && decide (e.unit % 4096 < 2)))
    | 3 => e.arg == 0 && (fenceable || cls == 2)
    | _ => false)

/-- RETIRE of a unit whose loss is FATAL (R389, R399): the last way to a processing die, the last Barista core. -/
def State.retireFatal (s : State) (e : PlanEntry) : Bool :=
  let out (k : Nat) : Bool := s.isFenced (unitLink k) 0
  e.action == 3 && (match e.unit / 4096 with
    | 11 => if e.unit % 4096 = 2 then out 0 || out 1 else out 2
    | 7 => (List.range 5).all (fun j => j == e.unit % 4096 || s.isFenced (unitCore j) 0)
    | _ => false)

/-- The plan's entries after its COUNT. -/
def planEntries (b : Bytes) : List PlanEntry :=
  (entries64 b 0 (b.length / 8)).map (fun w => { unit := bits w 15 0, action := bits w 19 16, arg := bits w 63 32 })

/-- A plan with a reserved field or an action it may not ask for. -/
def State.planBad (s : State) (b : Bytes) : Bool :=
  (entries64 b 0 (b.length / 8)).any (fun w => bits w 31 20 != 0) || (planEntries b).any (fun e => !actionOk e || s.retireFatal e)

/-- The spare engine of a cluster: at no place of the map and not retired. -/
def State.spareEngine (s : State) (c : Nat) : Option Nat :=
  (List.range 9).find? (fun p => (s.logicalOf c p).isNone && !s.worn.get (unitEngine c p))

/-- Spare rows and columns of an SRAM instance in use. -/
def State.sramUsed (s : State) (i : Nat) : Nat × Nat := s.sram.get i

/-- A SWAP_IN that has a spare. -/
def State.hasSpare (s : State) (e : PlanEntry) : Bool :=
  let i := e.unit % 4096
  match e.unit / 4096 with
  | 2 => (s.logicalOf (i / 9) (i % 9)).isSome && (match s.spareEngine (i / 9) with
    | some p => !s.isFenced (unitEngine (i / 9) p) 0
    | none => false)
  | 13 => if bit e.arg 31 then decide ((s.sramUsed i).2 < 2) else decide ((s.sramUsed i).1 < 4)
  | _ => s.pll.isNone

/-- Units of a plan that fail: no spare left, or a failed self-test. -/
def State.planFailing (s : State) (plan : List PlanEntry) (failed : List Nat) : List Nat :=
  (plan.filter (fun e => e.action != 3 && (failed.contains e.unit || (e.action == 1 && !s.hasSpare e)))).map (fun e => e.unit)

/-! ### Actions at the commit (R398) -/

/-- The packet threads of some logical engine are empty again. -/
def State.freshThreads (s : State) (ts : List Nat) : State := { s with threads := s.threads.filter (fun e => !ts.contains e.1) }

/-- The threads of an engine that physical engine p has served go behind the first 1,024, where they run on until the drain ends;
those of the engine that takes its place are empty (spec/05_brew_engines.md R116). -/
def State.moveThreads (s : State) (c e p : Nat) (fenced : Bool) : State :=
  let ts := (List.range 8).map (fun k => 64 * c + 8 * e + k)
  let s : State := { s with clusters := s.clusters.mod c (fun x => { x with old := x.old.set e (p + 1) }) }
  s.each ts (fun t u => { u with threads := (u.threads.set (t + 1024) (if fenced then { st := .fenced } else u.thread t)).set t {} })

/-- The supervisor starts at its entry point on the new engine with the cluster's queued fault records; the old one stops at its
next WAIT, at once if it stands at one. -/
def State.moveSup (s : State) (c : Nat) : State :=
  let t := supOf c
  let records := (s.thread (t + 1024)).inbox.filter (fun m => m.type == 3)
  let s := s.modThread (t + 1024) (fun th => { th with inbox := th.inbox.filter (fun m => m.type != 3), st := if th.st = .waiting then .idle else th.st })
  let s : State := { s with clusters := s.clusters.mod c (fun x => { x with supRestart := false }) }
  let s := s.modThread t (fun th => { th with inbox := records })
  s.when (s.on F.BRW_CTRL_EN c) (fun u => u.startSup c)

/-- The spare engine takes a logical engine's place; one fenced since the acceptance is fenced again. -/
def State.swapEngine (s : State) (c p : Nat) : State :=
  match s.logicalOf c p, s.spareEngine c with
  | some e, some q =>
    let out := s.isFenced (unitEngine c q) 0
    let s := s.wr F.BRW_ENGINE_MAP_PHYS c (putBits (s.rd F.BRW_ENGINE_MAP_PHYS c) (4 * e + 3) (4 * e) q)
    let s : State := { s with worn := s.worn.set (unitEngine c p) true }
    let m := s.rd F.BRW_CTRL_ENGINE_FENCED c
    let s := s.moveThreads c e p (bit m e)
    let s := s.when (bit m e) (fun t => t.wr F.BRW_CTRL_ENGINE_FENCED c (m - 2 ^ e))
    let s := s.when (e == 0) (fun t => t.moveSup c)
    if out then (s.unfence (unitEngine c q) 0).fenceUnit (unitEngine c q) 0 1 [] else s
  | _, _ => s

/-- A cluster takes its control-store banks from one that kept them. -/
def State.copyBanks (s : State) (c : Nat) : State :=
  match s.liveClusters.find? (fun d => d != c) with
  | none => s
  | some d =>
    let of (m : SMap Nat) : SMap Nat := m.filter (fun e => e.1 / 131072 == d)
    let s : State := { s with cs := s.cs.filter (fun e => e.1 / 131072 != c), csBad := s.csBad.filter (fun e => e.1 / 131072 != c) }
    let s := s.each (of s.cs) (fun e t => { t with cs := t.cs.setD (e.1 % 131072 + 131072 * c) e.2 csFill })
    let s := s.each (List.range 64) (fun k t => t.put .CS_MATCH (64 * c + k) (t.val .CS_MATCH (64 * d + k)))
    let s := s.each (List.range 24) (fun k t => (t.put .CS_MEAS (24 * c + k) (t.val .CS_MEAS (24 * d + k))).put .CS_PMEAS (24 * c + k) (t.val .CS_PMEAS (24 * d + k)))
    s.each [Reg.CS_BANK_STATE, Reg.CS_IMAGE_ID, Reg.CS_ENTRY, Reg.CS_REGION] (fun r t => (t.put r (2 * c) (t.val r (2 * d))).put r (2 * c + 1) (t.val r (2 * d + 1)))

/-- A cluster comes back empty, in the state committed. -/
def State.restoreCluster (s : State) (c : Nat) : State :=
  let s := (s.copyBanks c).freshThreads ((List.range 64).map (fun k => 64 * c + k) ++ s.twins c)
  let s := (s.wr F.BRW_CTRL_FENCED c 0).unfence (unitCluster c) 0
  let s : State := { s with clusters := s.clusters.set c { idleSince := s.now } }
  s.when (s.on F.BRW_CTRL_EN c) (fun t => t.startSup c)

/-- An engine comes back. -/
def State.restoreEngine (s : State) (c p : Nat) : State :=
  let s := s.unfence (unitEngine c p) 0
  let s : State := { s with worn := s.worn.set (unitEngine c p) false }
  match s.logicalOf c p with
  | none => s
  | some e =>
    let m := s.rd F.BRW_CTRL_ENGINE_FENCED c
    if bit m e then (s.freshThreads (packetThreads c e)).wr F.BRW_CTRL_ENGINE_FENCED c (m - 2 ^ e) else s

/-- A pseudo-channel comes back zeroed; flow entries that lay in it stay lost (spec/16_memory.md R374). -/
def State.restoreHbm (s : State) (pc : Nat) : State :=
  let k := pc / 32
  let lost (e : Nat × FlowEntry) : Bool := e.1 / 33554432 == k && (2 * (e.1 % 33554432) % 32 == pc % 32 || (2 * (e.1 % 33554432) + 1) % 32 == pc % 32)
  let s := (s.wr F.HBM_PC_STATUS_STATE pc 1).unfence (unitHbm pc) 0
  let s := s.wr F.HBM_STACK_STATUS_FENCED k (s.rd F.HBM_STACK_STATUS_FENCED k - 1)
  let s := s.each ((s.flow.filter lost).map (·.1)) (fun i t => t.flowRemove (i / 33554432) (i % 33554432))
  let s : State := { s with
    copyWin := s.copyWin.filter (fun e => (s.hbmPlace winRegion e.1).pc != pc)
    hbmMem := s.hbmMem.filter (fun e => (s.hbmPlace dataPool e.1).pc != pc) }
  s.put .REL_CAPACITY 0 (s.capacityOf (s.on F.REL_CFG_SPILL_EN 0) (s.rd F.REL_CFG_CARAFE_MIB 0))

/-- A copy unit comes back with its channels STOPPED. -/
def State.restoreCopy (s : State) (u : Nat) : State :=
  let s := (s.wr F.CPY_UNIT_CTRL_FENCED u 0).unfence (unitCopy u) 0
  s.each ((List.range 64).map (fun k => 64 * u + k)) (fun ch t => t.when (t.cpyState ch == 5) (fun v => (v.wr F.CPY_CH_STATUS_STATE ch 4).unfence (unitObject 4) ch))

/-- A fenced unit returns to service, empty; a unit that is not fenced stays as it is. -/
def State.restoreUnit (s : State) (unit : Nat) : State :=
  let i := unit % 4096
  if unit / 4096 = 14 then { s with pll := if s.pll = some i then none else s.pll }
  else if !s.isFenced unit 0 then s
  else match unit / 4096 with
  | 1 => s.restoreCluster i
  | 2 => s.restoreEngine (i / 9) (i % 9)
  | 5 => s.restoreHbm i
  | 6 => s.restoreCopy i
  | 8 => (s.wr F.OFL_GROUP_CTRL_FENCED i 0).unfence unit 0
  | 10 =>
    let s := s.unfence unit 0
    s.put .REL_CAPACITY 0 (s.capacityOf (s.on F.REL_CFG_SPILL_EN 0) (s.rd F.REL_CFG_CARAFE_MIB 0))
  | _ => s.unfence unit 0

/-- An action takes effect. -/
def State.applyAction (s : State) (e : PlanEntry) : State :=
  let i := e.unit % 4096
  match e.action, e.unit / 4096 with
  | 1, 2 => s.swapEngine (i / 9) (i % 9)
  | 1, 13 =>
    let u := s.sramUsed i
    ({ s with sram := s.sram.set i (if bit e.arg 31 then (u.1, u.2 + 1) else (u.1 + 1, u.2)) }).raise Ev.SVC_SRAM_REPAIR
  | 1, 14 => ({ s with pll := some i }).raise Ev.PWR_PLL_SPARED
  | 2, _ => s.restoreUnit e.unit
  | 3, 2 => s.fencePhysical i 5
  | 3, _ => s.fenceUnit e.unit 0 5 []
  | _, _ => s

/-- The last spare of a kind within its scope is used. -/
def State.exhausted (s : State) (e : PlanEntry) : Bool :=
  let i := e.unit % 4096
  e.action == 1 && (match e.unit / 4096 with
    | 2 => (s.spareEngine (i / 9)).isNone
    | 13 => if bit e.arg 31 then (s.sramUsed i).2 == 2 else (s.sramUsed i).1 == 4
    | _ => true)

/-! ### Staging (R28, R30; spec/13_control_interface.md R337) -/

/-- Pipelines a programme block names, and the length it must have. -/
def grdPipes (b : Bytes) : List Nat := (List.range 4).filter (fun p => bit (leAt b 0 1) p)

/-- The section of the j-th pipeline named. -/
def grdSection (b : Bytes) (j : Nat) : Bytes := slice b (16 + 9232 * j) 9232

/-- A programme block that stages nothing: BAD_ARG. -/
def grdBad (b : Bytes) : Bool :=
  let n := (grdPipes b).length
  n == 0 || b.length != 16 + 9232 * n || leAt b 0 16 / 16 != 0 || (List.range n).any (fun j => leAt (grdSection b j) 2 14 != 0)

/-- A parse-state entry whose KEY_BITS or EXT_BYTES is out of range (spec/04_parsing_and_tables.md R88). -/
def stateEntryBad (e : Bytes) : Bool :=
  decide (32 < bits (leAt e 0x0C 4) 13 8) || (List.range 4).any (fun k => decide (8 < bits (leAt e (0x10 + 4 * k) 4) 11 8))

/-- Pipelines whose programme fails to stage. -/
def grdFailing (b : Bytes) : List Nat :=
  ((grdPipes b).zipIdx.filter (fun x => (List.range 256).any (fun k => stateEntryBad (slice (grdSection b x.2) (0x10 + 32 * k) 32)))).map (fun x => unitPipe x.1)

/-- The staged hold: each group with the larger of its old and new D (spec/09_release_and_evidence.md R239). -/
def State.stagedSum (s : State) (gs : SMap Group) : Nat :=
  (List.range 64).foldl (fun a g =>
    let o := s.groupsOper.get g
    let n := gs.get g
    let d := max (if o.en then o.delay else 0) (if n.en then n.delay else 0)
    a + max (if o.en then s.holdBytes o d else 0) (if n.en then s.holdBytes n d else 0)) 0

/-- The release unit fails to stage (R231, R239). -/
def State.groupsFail (s : State) (gs : SMap Group) : Bool :=
  (gs.any (fun e => e.2.en) && !s.on F.REL_DEVICE_VALID 0) || decide (s.val .REL_CAPACITY 0 < s.stagedSum gs)

/-- The units that fail to stage: clusters, pipelines, ports, the release unit, then those of the plan. -/
def State.stageFailing (s : State) (sh : Shadow) (failed : List Nat) : List Nat :=
  let clusters := if sh.cust.isSome ∨ sh.patch.isSome then (s.liveClusters.map unitCluster).filter (fun u => failed.contains u) else []
  let pipes := if bit sh.kind 1 then grdFailing sh.grd else []
  let ports := if bit sh.kind 2 then ((List.range 16).filter (fun p => !((s.gclStaged.getD p none).getD {}).stages)).map unitPort else []
  let rel := if bit sh.kind 3 ∧ s.groupsFail (s.groupsStaged.getD []) then [0xF001] else []
  ((clusters ++ pipes) ++ (ports ++ rel)) ++ s.planFailing sh.plan failed

/-- The final response of an EPOCH_STAGE. -/
def stageWords (sh : Shadow) (failed : List Nat) (custCode patchCode : Nat) : List Nat :=
  let units := failed.take 32
  let words (m : Bytes) : List Nat := (List.range 12).map (fun i => leAt m (4 * i) 4)
  let meas (x : Option ShadowImage) : Bytes := (x.map ShadowImage.meas).getD (List.replicate 48 0)
  let id (x : Option ShadowImage) : Nat := (x.map (fun i => imgId i.bytes)).getD 0
  let head := units.length :: (List.range 16).map (fun k => units.getD (2 * k) 0 + 2 ^ 16 * units.getD (2 * k + 1) 0)
  (head ++ words (meas sh.cust)) ++ (words (meas sh.patch) ++ [id sh.cust, id sh.patch, custCode + 2 ^ 8 * patchCode])

/-- REL_ADMITTED (R239). -/
def State.admitSync (s : State) : State :=
  s.put .REL_ADMITTED 0 (max (s.holdSum s.groupsOper) (match s.groupsStaged with
    | some gs => s.stagedSum gs
    | none => 0))

/-- All shadow state is discarded; the state is IDLE, or DRAINING alone. -/
def State.discardShadow (s : State) : State :=
  match s.shadow with
  | none => s
  | some sh =>
    let use := s.bankFor s.current
    let s := s.when ((sh.cust.isSome || sh.patch.isSome) && s.on F.GLB_EPOCH_STATUS_STAGED 0) (fun t =>
      let t := t.when ((t.banks.get sh.bank).region != (t.banks.get use).region) (fun u => u.freeRegions (u.banks.get sh.bank).region)
      t.bankState sh.bank 0)
    let s := ((s.wr F.GLB_EPOCH_STATUS_STAGING 0 0).wr F.GLB_EPOCH_STATUS_STAGED 0 0).wr F.GLB_EPOCH_STATUS_KIND 0 sh.last
    ({ s with shadow := none, gclStaged := [], groupsStaged := none }).admitSync

/-- The IMAGE records of a staging attempt. -/
def State.journalAttempt (s : State) (sh : Shadow) (custCode patchCode : Nat) : State :=
  let one (s : State) (kind : Nat) (x : Option ShadowImage) (rc : Nat) : State := match x with
    | some i => s.journalImage (imgId i.bytes) kind rc i.meas
    | none => s
  one (one s 1 sh.cust custCode) 2 sh.patch patchCode

/-- A staging begins. -/
def State.stageStart (s : State) (sh : Shadow) : State :=
  let s : State := { s with
    shadow := some { sh with last := s.rd F.GLB_EPOCH_STATUS_KIND 0, bank := 1 - s.bankFor s.current }
    gclStaged := if bit sh.kind 2 then (List.range 16).foldl (fun m p => m.setD p (some (s.adminList p)) none) [] else []
    groupsStaged := if bit sh.kind 3 then some s.groupsAdmin else none }
  (s.wr F.GLB_EPOCH_STATUS_STAGING 0 1).wr F.GLB_EPOCH_STATUS_KIND 0 sh.kind

/-- The staging ends: refused, failed with the units named, or STAGED. -/
def State.stageDone (s : State) (f : Nat) (failed : List Nat) : State :=
  match s.shadow with
  | none => s
  | some sh =>
    let use := s.bankFor s.current
    let rev := s.rd F.CS_ROM_ID_REV 0
    let code (x : Option ShadowImage) (place : Nat) : Nat := (x.map (fun i => refusal i place rev)).getD 0
    let cc := code sh.cust 1
    let pc := code sh.patch 2
    let noRoom := (sh.cust.map (fun i => s.noRegions use i.bytes)).getD false
    let bad := s.stageFailing sh failed
    let rc := if cc ≠ 0 then cc else if pc ≠ 0 then pc else if noRoom then RC_NO_RESOURCE else if bad.isEmpty then RC_OK else RC_STAGE_FAILED
    let units := if rc = RC_STAGE_FAILED then bad else []
    let one (c : Nat) : Nat := if c ≠ 0 then c else rc
    let s := s.journalAttempt sh (if rc = RC_OK then 0 else one cc) (if rc = RC_OK then 0 else one pc)
    let s := if rc = RC_OK then
        let s := s.when (sh.cust.isSome || sh.patch.isSome) (fun t => (t.writeBank t.liveClusters use sh.bank 1 sh.cust sh.patch).setBank use sh.bank sh.cust sh.patch)
        ((s.wr F.GLB_EPOCH_STATUS_STAGING 0 0).wr F.GLB_EPOCH_STATUS_STAGED 0 1).admitSync
      else
        let s := s.when (!(s.planFailing sh.plan failed).isEmpty && rc == RC_STAGE_FAILED) (fun t => t.raise Ev.SVC_SPARE_FAILED)
        s.discardShadow.raise Ev.GLB_EPOCH_STAGE_FAILED
    s.longDone f rc (stageWords sh units cc pc)

/-- EPOCH_STAGE: the host's answers are, in order, to the reads of the programme block, the plan's COUNT, its entries, the
customer image and the patch image. -/
def execEpochStage (e : Eci) (s : State) : Step :=
  s.eci e 0x0900 anyCmd (s.managerOnly e.fn) (low 5 :: List.replicate 11 W32) noCheck (fun p =>
    let kind := p.getD 0 0
    let read (s : State) (want : Bool) (addr n k : Nat) : State × Option Bytes × Nat :=
      if want then s.dmaIn e.fn addr n (e.io.getD k (.data [])) else (s, some [], 0)
    let cust := bit kind 0 && w64 p 1 != 0
    let patch := bit kind 0 && w64 p 4 != 0
    if bit kind 1 && !(List.range 4).any (fun n => p.getD 9 0 == 16 + 9232 * (n + 1)) then .done s RC_BAD_ARG []
    else match read s (bit kind 1) (w64 p 7) (p.getD 9 0) 0 with
    | (s, none, rc) => .done s rc []
    | (s, some grd, _) =>
      if bit kind 1 && grdBad grd then .done s RC_BAD_ARG []
      else match read s (bit kind 4) (w64 p 10) 8 1 with
      | (s, none, rc) => .done s rc []
      | (s, some head, _) =>
        let n := leAt head 0 8
        if bit kind 4 && decide (n = 0 ∨ 32 < n) then .done s RC_BAD_ARG []
        else match read s (bit kind 4) (w64 p 10 + 8) (8 * n) 2 with
        | (s, none, rc) => .done s rc []
        | (s, some plan, _) =>
          if s.planBad plan then .done s RC_BAD_ARG []
          else if s.longBusy e.fn ∨ s.on F.GLB_EPOCH_STATUS_STAGING 0 ∨ s.on F.GLB_EPOCH_STATUS_STAGED 0 ∨ s.on F.GLB_EPOCH_STATUS_ARMED 0 then .done s RC_BUSY []
          else if s.on F.GLB_EPOCH_STATUS_DRAINING 0 && (cust || patch) then .done s RC_EPOCH_CONFLICT []
          else match read s (cust && imgReadable (p.getD 3 0)) (w64 p 1) (p.getD 3 0) 3 with
          | (s, none, rc) => .done s rc []
          | (s, some cb, _) => match read s (patch && imgReadable (p.getD 6 0)) (w64 p 4) (p.getD 6 0) 4 with
            | (s, none, rc) => .done s rc []
            | (s, some pb, _) =>
              .started (s.stageStart
                { kind := kind, grd := grd, plan := planEntries plan
                  cust := if cust then some { bytes := cb, len := p.getD 3 0 } else none
                  patch := if patch then some { bytes := pb, len := p.getD 6 0 } else none }))

/-! ### Commit, abandon, status (R29, R31) -/

/-- EPOCH_COMMIT. -/
def execEpochCommit (e : Eci) (s : State) : Step :=
  s.eci e 0x0901 anyCmd (s.managerOnly e.fn) [W32, W32]
    (fun p => let lead := (w64 p 0 + W64 - s.stamp) % W64; decide (lead < 800000 ∨ 80000000000 < lead)) (fun p =>
    if !s.on F.GLB_EPOCH_STATUS_STAGED 0 then .done s RC_STAGE_FAILED []
    else if s.on F.GLB_EPOCH_STATUS_DRAINING 0 then .done s RC_EPOCH_CONFLICT []
    else .done (((s.wr F.GLB_EPOCH_STATUS_STAGED 0 0).wr F.GLB_EPOCH_STATUS_ARMED 0 1).put .GLB_EPOCH_COMMIT_TIME 0 (w64 p 0)) RC_OK [])

/-- Functions whose EPOCH_STAGE is in progress. -/
def State.stagers (s : State) : List Nat :=
  (s.longs.filter (fun x => match x.2 with
    | some l => l.final.isNone && l.cmd.code == 0x0900
    | none => false)).map (·.1)

/-- EPOCH_ABANDON; a staging that has not ended ends with ABANDONED. -/
def execEpochAbandon (e : Eci) (s : State) : Step :=
  s.eci e 0x0902 anyCmd (s.managerOnly e.fn) [] noCheck (fun _ =>
    if s.on F.GLB_EPOCH_STATUS_STAGED 0 then .done s.discardShadow RC_OK []
    else if s.on F.GLB_EPOCH_STATUS_STAGING 0 then
      let sh := s.shadow.getD {}
      let t := (s.journalAttempt sh 0x87 0x87).discardShadow
      .done (t.each s.stagers (fun f u => u.longDone f 0x87 (stageWords sh [] 0 0))) RC_OK []
    else if s.on F.GLB_EPOCH_STATUS_ARMED 0 ∨ s.on F.GLB_EPOCH_STATUS_DRAINING 0 then .done s RC_EPOCH_CONFLICT []
    else .done s RC_OK [])

/-- EPOCH_STATUS. -/
def execEpochStatus (e : Eci) (s : State) : Step :=
  s.eci e 0x0903 anyCmd (s.managerOnly e.fn) [] noCheck (fun _ =>
    .done s RC_OK (s.val .GLB_EPOCH_STATUS 0 :: two (s.val .GLB_EPOCH_COMMIT_TIME 0)))

/-! ### The commit instant (R33) -/

/-- The new epoch bit's bank. -/
def State.commitBanks (s : State) (sh : Shadow) (new : Nat) : State :=
  let image := sh.cust.isSome || sh.patch.isSome
  let b := if image then sh.bank else s.bankFor (1 - new)
  let s := s.when image (fun t => t.bankState sh.bank 2)
  s.each (List.range 16) (fun c t => t.wr (if new = 0 then F.CS_BANK_MAP_EPOCH0_BANK else F.CS_BANK_MAP_EPOCH1_BANK) c b)

/-- A pipeline's programme of the new epoch: a copy of the one in force. -/
def State.keepProgramme (s : State) (p new : Nat) : State :=
  let o := grdCopy (1 - new) p
  let n := grdCopy new p
  let move {α : Type} [DecidableEq α] [Inhabited α] (m : SMap α) (w : Nat) : SMap α :=
    (m.filter (fun e => e.1 / w == o)).foldl (fun x e => x.set (n * w + e.1 % w) e.2) (m.filter (fun e => e.1 / w != n))
  { s with grdStates := move s.grdStates 256, grdRecog := move s.grdRecog 64, grdStart := s.grdStart.setD n (s.grdStart.getD o 65535) 65535 }

/-- A pipeline's programme of the new epoch from its section. -/
def State.loadProgramme (s : State) (p new : Nat) (b : Bytes) : State :=
  let n := grdCopy new p
  { s with
    grdStates := (List.range 256).foldl (fun (m : SMap Bytes) k => m.set (256 * n + k) (slice b (0x10 + 32 * k) 32)) s.grdStates
    grdRecog := (List.range 64).foldl (fun (m : SMap Bytes) k => m.set (64 * n + k) (slice b (0x2010 + 16 * k) 16)) s.grdRecog
    grdStart := s.grdStart.setD n (leAt b 0 2) 65535 }

/-- The parse programmes of the new epoch; pipelines not named keep theirs. -/
def State.commitProgramme (s : State) (sh : Shadow) (new : Nat) : State :=
  let s := s.each (List.range 4) (fun p t => t.keepProgramme p new)
  if bit sh.kind 1 then s.each (grdPipes sh.grd).zipIdx (fun x t => t.loadProgramme x.1 new (grdSection sh.grd x.2)) else s

/-- A port computes its change time, whether its list is enabled or not (spec/08_traffic_manager.md R216; log 38). -/
def State.commitGates (s : State) (p : Nat) (g : GateList) (tc : Nat) : State :=
  let at_ := if tc ≤ g.base then g.base else g.base + cdiv (tc - g.base) g.period * g.period
  let s : State := { s with gclPending := s.gclPending.setD p (some g) none }
  ((s.wr F.GCL_STATUS_PENDING p 1).put .GCL_CHANGE_TIME p (at_ % W64)).raise (Ev.TM_GCL_PENDING (p / 8))

/-- The CFG record of a group (spec/09_release_and_evidence.md R252). -/
def State.journalGroup (s : State) (g : Nat) (x : Group) : State :=
  let list := (x.src ++ x.dst).flatMap (fun (v : Nat) => leBytes 8 v)
  let head := leBytes 1 g ++ leBytes 1 (b2n x.en) ++ leBytes 2 0 ++ leBytes 4 x.delay
  s.journalCfg 0x05 1 ((head ++ (leBytes 2 x.src.length ++ leBytes 2 x.dst.length)) ++ (leBytes 8 (s.holdBytes x x.delay) ++ (digest list).take 16))

/-- The staged groups become operational; changed ones are journalled. -/
def State.commitGroups (s : State) (gs : SMap Group) : State :=
  let old := s.groupsOper
  let s : State := { s with groupsOld := some old, groupsOper := gs }
  let s := s.each ((List.range 64).filter (fun g => old.get g != gs.get g)) (fun g t => t.journalGroup g (gs.get g))
  s.each (List.range 64) (fun g t => ((t.wr F.REL_GROUP_STATUS_EN g (b2n (gs.get g).en)).wr F.REL_GROUP_STATUS_DELAY_NS g (gs.get g).delay).relSync g)

/-- The EPOCH_COMMIT record. -/
def State.journalCommit (s : State) : State :=
  let c := s.liveClusters.headD 0
  let b := s.bankFor s.current
  let meas (r : Reg) : Bytes := (List.range 12).flatMap (fun i => leBytes 4 (s.val r (24 * c + 12 * b + i)))
  let head := leBytes 8 (s.val .GLB_EPOCH_COMMIT_TIME 0) ++ leBytes 1 (s.rd F.GLB_EPOCH_STATUS_KIND 0) ++ leBytes 1 (s.rd F.GLB_EPOCH_STATUS_CHANGE_COUNT 0) ++ leBytes 2 0
  s.journalCfg 0x03 4 ((head ++ (leBytes 4 (s.val .CS_IMAGE_ID (2 * c + b)) ++ leBytes 4 (s.banks.get b).patchId)) ++ (meas .CS_MEAS ++ meas .CS_PMEAS))

/-- Every unit switches. -/
def State.commitEpoch (s : State) (sh : Shadow) : State :=
  let new := 1 - s.current
  let tc := s.time.ticks - (s.stamp + W64 - s.val .GLB_EPOCH_COMMIT_TIME 0) % W64
  let s := (s.commitBanks sh new).commitProgramme sh new
  let s := s.when (bit sh.kind 2) (fun t => t.each (List.range 16) (fun p u => u.commitGates p ((u.gclStaged.getD p none).getD {}) tc))
  let s := match s.groupsStaged with
    | some gs => s.commitGroups gs
    | none => s
  let s := ((s.wr F.GLB_EPOCH_STATUS_ARMED 0 0).wr F.GLB_EPOCH_STATUS_DRAINING 0 1).wr F.GLB_EPOCH_STATUS_CURRENT 0 new
  let s := s.wr F.GLB_EPOCH_STATUS_CHANGE_COUNT 0 ((s.rd F.GLB_EPOCH_STATUS_CHANGE_COUNT 0 + 1) % 256)
  let s := s.each (List.range 64) (fun g t => t.relSync g)
  let s := s.each (List.range 16) (fun c t => { t with clusters := t.clusters.mod c (fun x => { x with supRestart := true }) })
  let s := s.each (List.range 1024) (fun t u => u.latch t 12)
  let s := s.each sh.plan (fun e t => t.applyAction e)
  (({ s with shadow := none, gclStaged := [], groupsStaged := none, swaps := sh.plan }).raise Ev.EPOCH_COMMITTED).journalCommit

/-- The commit instant arrives. -/
def execEpochCommitted (s : State) : Step :=
  match s.shadow with
  | none => .next s
  | some sh => .next (if s.on F.GLB_EPOCH_STATUS_ARMED 0 ∧ stampLe (s.val .GLB_EPOCH_COMMIT_TIME 0) s.stamp then s.commitEpoch sh else s)

/-! ### The drain (R34) -/

/-- Some unit holds old state: packets, jobs and cached transmit and job entries of the old epoch, supervisors not yet restarted, gate lists
that wait for their change time. -/
def State.oldHeld (s : State) : Bool :=
  let cur := s.current
  s.pkts.any (fun e => e.2.epoch != cur) || s.jobs.any (fun e => !e.2.produced && e.2.epoch != cur) ||
    s.rings.any (fun e => e.2.state != 0 && (e.2.kind == 1 || e.2.kind == 4) && e.2.cache.any (fun x => x.epoch != cur)) ||
    s.threads.any (fun e => e.2.pkt.isSome && e.2.epoch != cur) ||
    (List.range 16).any (fun c => (s.thread (supOf c + 1024)).st == .ready || (s.thread (supOf c + 1024)).st == .stalled) ||
    (List.range 16).any (fun c => (s.clusters.get c).supRestart && s.on F.BRW_CTRL_EN c && !s.on F.BRW_CTRL_FENCED c && !(s.clusters.get c).gated) ||
    s.gclPending.any (fun e => e.2.isSome)

/-- The swaps of the drained change are told (log 138); the engines swapped out are gated, their threads gone. -/
def State.swapsDone (s : State) : State :=
  let s := s.when (s.swaps.any (fun e => e.action != 3)) (fun t => t.raise Ev.SVC_SPARE_SWAPPED)
  let s := s.when (s.swaps.any s.exhausted) (fun t => t.raise Ev.SVC_SPARE_EXHAUSTED)
  let s := s.add .GLB_ERR_COUNT ErrClass.degraded.ix (s.swaps.filter (fun e => e.action == 1)).length
  let s := s.each (List.range 16) (fun c t => { t with clusters := t.clusters.mod c (fun x => { x with old := [] }) })
  { s with swaps := [], threads := s.threads.filter (fun e => decide (e.1 < 1024)) }

/-- The last unit retires its old state. -/
def execEpochDrained (s : State) : Step :=
  .next (if !s.on F.GLB_EPOCH_STATUS_DRAINING 0 ∨ s.oldHeld then s
    else
      let old := s.bankFor (1 - s.current)
      let use := s.bankFor s.current
      let s := s.wr F.GLB_EPOCH_STATUS_DRAINING 0 0
      let s := s.when (old != use) (fun t =>
        (t.when ((t.banks.get old).region != (t.banks.get use).region) (fun u => u.freeRegions (u.banks.get old).region)).bankState old 3)
      let s : State := { s with groupsOld := none }
      let s := (s.each (List.range 64) (fun g t => t.relSync g)).admitSync
      let s := s.raise Ev.EPOCH_DRAINED
      s.swapsDone.journalCfg 0x04 1 (leBytes 8 s.stamp ++ leBytes 1 (s.rd F.GLB_EPOCH_STATUS_CHANGE_COUNT 0)))

end Sys2Proof.Machine
end

