-- ==== Sys2Proof/Machine/Migrate.lean ====
section
/-! DEFINITION. Saving and restoring a function (spec/14_tenants.md R356, R357; spec/13_control_interface.md R336). -/

namespace Sys2Proof.Machine

/-! ### The saved state's records -/

/-- Keys of a function's rings, the admin queue apart. -/
def State.savedRings (s : State) (f : Nat) : List Nat :=
  (s.rings.filter (fun e => decide (e.1 / 131072 < 3) && e.2.state != 0 && e.2.fn == f)).map (·.1)

/-- A ring's record; the producer index of a completion ring is its count of entries written. -/
def Ring.record (r : Ring) (key : Nat) : Bytes :=
  let pi := if r.kind = 3 then r.written else r.pi
  leBytes 4 (ringNo key) ++ leBytes 4 r.stateWord ++ leBytes 4 pi ++ leBytes 4 r.next ++ leBytes 4 r.oldest ++ leBytes 4 r.ci ++ leBytes 8 0 ++ fit 48 r.ctx

/-- The records of a completion ring's pending completions, each with the PHASE of the index it will get. -/
def Ring.pendRecords (r : Ring) (key : Nat) : List Bytes :=
  r.pend.zipIdx.map (fun e => leBytes 4 (ringNo key) ++ leBytes 4 0 ++ e.1.encode (phaseOf ((r.written + e.2) % 2 ^ 32) r.size))

/-- A node's record. -/
def nodeRecord (level i : Nat) (cfg : Bytes) : Bytes := leBytes 8 (level + 2 ^ 32 * i) ++ fit 32 cfg

/-- The records of a function's static L2 entries: equal entries of several pipelines share one. -/
def State.l2Records (s : State) (f : Nat) : List Bytes :=
  let ks := s.l2Of f
  let images := (ks.map (fun k => (s.l2.get k).encode)).eraseDups
  images.map (fun b =>
    let mask := ((List.range 4).filter (fun p => ks.any (fun k => k / 524288 == p && (s.l2.get k).encode == b))).foldl (fun a p => a + 2 ^ p) 0
    leBytes 8 mask ++ fit 16 b)

/-- The records of a function's offload contexts, without keys. -/
def State.ctxRecords (s : State) (f : Nat) : List Bytes :=
  ((s.espSas.filter (fun e => e.2.owner == f)).map (fun e => leBytes 4 0 ++ leBytes 4 e.1 ++ fit 128 e.2.image)) ++
    ((s.sessions.filter (fun e => e.2.owner == f)).map (fun e => leBytes 4 1 ++ leBytes 4 e.1 ++ fit 128 e.2.bytes))

/-- A vector's record. -/
def Msix.record (m : Msix) : Bytes := leBytes 8 m.addr ++ leBytes 4 m.data ++ leBytes 4 (b2n m.masked + 2 * b2n m.pending)

/-- Size of a record of each type, 0 for a type that does not exist. -/
def recordSize (type : Nat) : Nat := [0, 40, 80, 40, 40, 24, 128, 136, 16, 8].getD type 0

/-- The sections of a function's saved state: type and records; only the grants are there in every case (log 141). -/
def State.savedSections (s : State) (f : Nat) : List (Nat × List Bytes) :=
  let keys := s.savedRings f
  let vectors := (List.range (s.fn f).grants.vectors).map (fun v => (s.msix.get (msixKey f v)).record)
  let rings : List (Nat × List Bytes) :=
    [(1, [(s.grantWords f).flatMap (fun (w : Nat) => leBytes 4 w)]), (2, keys.map (fun k => (s.ring k).record k)),
      (3, keys.flatMap (fun k => (s.ring k).pendRecords k)), (4, (s.queuesOf f).map (fun q => nodeRecord 3 q (s.node 3 q).cfg))]
  let rest : List (Nat × List Bytes) :=
    [(5, s.l2Records f), (6, (s.flowsOf f).map (fun k => fit 128 (s.flow.get k).encode)), (7, s.ctxRecords f), (8, vectors),
      (9, [leBytes 4 (s.val .EVT_FN f) ++ leBytes 4 (s.val .EVT_FN_VEC f)])]
  (rings ++ rest).filter (fun e => !e.2.isEmpty)

/-- The saved state of a function: header, then the records section by section. -/
def State.savedState (s : State) (f : Nat) : Bytes :=
  let secs := s.savedSections f
  let words := fit 36 (secs.flatMap (fun e => leBytes 4 (e.1 + 2 ^ 8 * e.2.length)))
  let body := fit 48 (leBytes 4 (s.rd F.HIF_FN_STATE_GEN f + 2 ^ 8 * secs.length) ++ leBytes 4 0 ++ words) ++ secs.flatMap (fun e => e.2.flatten)
  leBytes 4 0x53534659 ++ leBytes 4 (1 + 2 ^ 16 * f) ++ leBytes 4 (16 + body.length) ++ leBytes 4 (crc32c body).toNat ++ body

/-! ### FN_SAVE -/

/-- FN_SAVE begins. -/
def execFnSave (e : Eci) (s : State) : Step :=
  s.eci e 0x0204 anyCmd (s.managerOnly e.fn) [low 12, W32, W32, W32] noFunc (fun p =>
    if s.longBusy e.fn then .done s RC_BUSY []
    else if s.rd F.HIF_FN_STATE_STATE (p.getD 0 0) ≠ 3 then .done s RC_QUIESCE_REQUIRED []
    else .started s)

/-- Its body: the saved state of a function that is still QUIESCED goes into the manager's buffer; an FLR of the function ends it
(R347). -/
def State.fnSaveDone (s : State) (f : Nat) (p : List Nat) (r : Option HostReply) : EciOut :=
  if s.rd F.HIF_FN_STATE_STATE (p.getD 0 0) = 4 then .done s RC_NOT_READY []
  else if s.rd F.HIF_FN_STATE_STATE (p.getD 0 0) ≠ 3 then .done s RC_QUIESCE_REQUIRED []
  else
    let out := s.savedState (p.getD 0 0)
    s.bufferOut f (w64 p 1) (p.getD 3 0) out r [out.length]

/-! ### Reading a saved state (R357) -/

/-- The sections a header announces: type and count. -/
def savedWords (b : Bytes) : List (Nat × Nat) :=
  (List.range (leAt b 0x11 1)).map (fun k => (leAt b (0x18 + 4 * k) 1, leAt b (0x19 + 4 * k) 3))

/-- Bytes the announced records take with the header. -/
def savedLength (b : Bytes) : Nat := 64 + ((savedWords b).map (fun e => recordSize e.1 * e.2)).foldl (· + ·) 0

/-- MAGIC, FORMAT, LENGTH, CHECK and the section words of a buffer hold. -/
def savedOk (b : Bytes) : Bool :=
  let n := leAt b 8 4
  decide (64 ≤ b.length) && leAt b 0 4 == 0x53534659 && leAt b 4 2 == 1 && decide (n ≤ b.length) && decide (1 ≤ leAt b 0x11 1 ∧ leAt b 0x11 1 ≤ 9) &&
    (savedWords b).all (fun e => recordSize e.1 != 0) && savedLength b == n && leAt b 0xC 4 == (crc32c (slice b 16 (n - 16))).toNat

/-- The records of a type. -/
def recordsFrom (b : Bytes) (type : Nat) : List (Nat × Nat) → Nat → List Bytes
  | [], _ => []
  | (t, n) :: r, o =>
    if t = type then (List.range n).map (fun k => slice b (o + k * recordSize t) (recordSize t))
    else recordsFrom b type r (o + n * recordSize t)

/-- The records of a type in a saved state. -/
def savedRecords (b : Bytes) (type : Nat) : List Bytes := recordsFrom b type (savedWords b) 64

/-- The ring a record recreates: it belongs to f, at f's own generation. -/
def ringOfRecord (f gen pipe : Nat) (b : Bytes) : Ring :=
  let ctx := fit 64 (slice b 32 48)
  let r : Ring := { fn := f, gen := gen, ctx := ctx, state := bits (leAt b 4 4) 31 28, cause := bits (leAt b 4 4) 27 20 }
  let auto := bit (r.word 16) 18
  { r with
    pipe := if r.kind = 1 ∨ r.kind = 4 then (if auto then pipe else bits (r.word 16) 17 16) else 0
    pi := if r.kind = 3 then 0 else leAt b 8 4, written := if r.kind = 3 then leAt b 8 4 else 0, next := leAt b 12 4, oldest := leAt b 16 4, ci := leAt b 20 4 }

/-- The key a ring record takes. -/
def ringRecordKey (b : Bytes) : Nat := ringKey (ringOfRecord 0 0 0 b).kind (leAt b 0 4)

/-- The completion a pending record holds; its submitting ring is a receive ring for KIND 1 (log 142). -/
def cplOfRecord (b : Bytes) : Cpl :=
  let e := b.drop 8
  let w := leAt e 0x18 4
  let no := bits (leAt e 0x1C 4) 16 0
  { target := cqKey (leAt b 0 4), ring := if bits w 31 24 = 1 then rxKey no else txKey no, stamp := leAt e 0 8, keyLo := leAt e 8 8, ofl := leAt e 0x10 4
    len := leAt e 0x14 4 % 2 ^ 18, flags := leAt e 0x14 4 / 2 ^ 18, tag := w % 65536, status := bits w 23 16, kind := bits w 31 24 }

/-- A function number of the saved state as it is in the target: the source function's becomes the target's (log 143). -/
def movedFn (src f g : Nat) : Nat := if g = src then f else g

/-- The L2 entry of a record, and its pipelines. -/
def l2OfRecord (src f : Nat) (b : Bytes) : L2Entry :=
  let x := L2Entry.decode (slice b 8 16)
  { x with owner := movedFn src f x.owner, dest := if x.destFn then movedFn src f x.dest else x.dest }
def l2RecordPipes (b : Bytes) : List Nat := (List.range 4).filter (fun k => bit (leAt b 0 8) k)

/-- The flow key of a record, with the target's number as its FUNC. -/
def savedFlowKey (src f : Nat) (b : Bytes) : Bytes :=
  let k := b.take 64
  patch k 0 (leBytes 4 (putBits (leAt k 0 4) 19 8 (movedFn src f (flowFunc k))))

/-- The function's tenant node that can be the parent of a queue index. -/
def State.homeTenant (s : State) (f q : Nat) : Option Nat := (s.tenantsOf f).find? (fun i => parentOk 3 q i)

/-- The scheduler queue of a node record, and its configuration below a tenant node of the target. -/
def nodeIndexOf (b : Bytes) : Nat := bits (leAt b 0 8) 48 32
def nodeCfgOf (src f parent : Nat) (b : Bytes) : Bytes :=
  let c := slice b 8 32
  withEn (withParent (withOwner c (movedFn src f ({ cfg := c } : Node).owner)) parent)

/-! ### FN_RESTORE -/

/-- What a saved state uses that the target's grants do not cover (log 144). -/
def State.savedOver (s : State) (f : Nat) (b : Bytes) : Bool :=
  let g := (s.fn f).grants
  let rings := (savedRecords b 2).map (ringOfRecord f 0 0)
  let kinds (l : List Nat) : Nat := (rings.filter (fun r => l.contains r.kind)).length
  let l2 := (List.range 4).map (fun p => ((savedRecords b 5).filter (fun x => (l2RecordPipes x).contains p)).length)
  decide (g.txRings < kinds [1, 4] ∨ g.rxRings < kinds [2] ∨ g.cqRings < kinds [3] ∨ g.pages < rings.length ∨ g.flows < (savedRecords b 6).length ∨
    g.vectors < (savedRecords b 8).length ∨ g.l2 < l2.foldl max 0) || rings.any (fun r => decide (g.pages ≤ r.page)) ||
    (savedRecords b 4).any (fun x => (s.homeTenant f (nodeIndexOf x)).isNone)

/-- The first ring number or node index of a saved state that another function uses. -/
def State.numberTaken (s : State) (f : Nat) (b : Bytes) : Option Nat :=
  let rings := (savedRecords b 2).filter (fun x => (s.ring (ringRecordKey x)).state != 0 && (s.ring (ringRecordKey x)).fn != f)
  let taken (q : Nat) : Bool := (s.node 3 q).en && !(s.queuesOf f).contains q
  let nodes := (savedRecords b 4).filter (fun x => taken (nodeIndexOf x))
  ((rings.map (fun x => leAt x 0 4)) ++ (nodes.map nodeIndexOf)).head?

/-- The nodes of a saved state are written; none when one cannot be. -/
def State.restoreNodes (s : State) (f src : Nat) : List Bytes → Option State
  | [] => some s
  | b :: r =>
    let q := nodeIndexOf b
    let cfg := nodeCfgOf src f ((s.homeTenant f q).getD 0) b
    if s.nodeCode 3 q cfg ≠ RC_OK then none else (s.writeNode 3 q cfg).restoreNodes f src r

/-- The L2 entries; none when a bucket is full. -/
def State.restoreL2 (s : State) (x : L2Entry) : List Nat → Option State
  | [] => some s
  | k :: r => match s.l2Slot k x with
    | none => none
    | some i => (s.l2Write k i x).restoreL2 x r

/-- The L2 records. -/
def State.restoreL2s (s : State) (f src : Nat) : List Bytes → Option State
  | [] => some s
  | b :: r => match s.restoreL2 (l2OfRecord src f b) (l2RecordPipes b) with
    | none => none
    | some t => t.restoreL2s f src r

/-- The flow entries; none when the table has no place. -/
def State.restoreFlows (s : State) (f src : Nat) : List Bytes → Option State
  | [] => some s
  | b :: r =>
    let fl := leAt b 0x70 4
    let t := s.flowInsert (savedFlowKey src f b) (slice b 64 48) (bit fl 1) (bit fl 4) true
    if t.2.1 = 3 ∨ t.2.1 = 4 then t.1.restoreFlows f src r else none

/-- The rings, bound to the completion rings on their queue pages, and the completions pending in them. -/
def State.restoreRings (s : State) (f : Nat) (b : Bytes) : State :=
  let gen := s.rd F.HIF_FN_STATE_GEN f
  let rs := savedRecords b 2
  let s : State := s.each rs (fun x t => { t.used with rings := t.rings.set (ringRecordKey x) (ringOfRecord f gen (t.fresh % 4) x) })
  let s := s.each rs (fun x t => t.modRing (ringRecordKey x) (fun r => if r.needsCq then { r with cq := (t.onPage f r.cqPage).getD 0 } else r))
  s.each (savedRecords b 3) (fun x t => t.modRing (cqKey (leAt x 0 4)) (fun r => { r with pend := r.pend ++ [cplOfRecord x] }))

/-- Vectors and event bits. -/
def State.restoreEvents (s : State) (f : Nat) (b : Bytes) : State :=
  let s := s.each (savedRecords b 8).zipIdx (fun x t =>
    let c := leAt x.1 12 4
    { t with msix := t.msix.set (msixKey f x.2) { addr := leAt x.1 0 8, data := leAt x.1 8 4, masked := bit c 0, pending := bit c 1 } })
  s.each (savedRecords b 9) (fun x t => (t.put .EVT_FN f (leAt x 0 4)).put .EVT_FN_VEC f (leAt x 4 4))

/-- Everything a saved state recreates; none when a table is full. -/
def State.restoreAll (s : State) (f : Nat) (b : Bytes) : Option State :=
  let src := bits (leAt b 4 4) 27 16
  match s.restoreNodes f src (savedRecords b 4) with
  | none => none
  | some s => match s.restoreL2s f src (savedRecords b 5) with
    | none => none
    | some s => match s.restoreFlows f src (savedRecords b 6) with
      | none => none
      | some s => some (((s.restoreRings f b).restoreEvents f b).wr F.HIF_FN_STATE_STATE f 3)

/-- The target may take a saved state: ACTIVE or QUIESCED, without a ring. -/
def State.mayRestore (s : State) (f : Nat) : Bool :=
  (s.rd F.HIF_FN_STATE_STATE f == 1 || s.rd F.HIF_FN_STATE_STATE f == 3) && (s.savedRings f).isEmpty && (s.ring (adminSqKey f)).state == 0

/-- FN_RESTORE begins; its own admin queue counts as a ring of the target (log 145). -/
def execFnRestore (e : Eci) (s : State) : Step :=
  s.eci e 0x0205 anyCmd (s.managerOnly e.fn) [low 12, W32, W32, W32] noFunc (fun p =>
    if s.longBusy e.fn ∨ !s.mayRestore (p.getD 0 0) then .done s RC_BUSY [] else .started s)

/-- Its body: the buffer is read and checked before anything is applied. -/
def State.fnRestoreDone (s : State) (e : Nat) (p : List Nat) (r : Option HostReply) : EciOut :=
  let f := p.getD 0 0
  match s.dmaIn e (w64 p 1) (p.getD 3 0) r with
  | (t, none, rc) => .done t rc []
  | (t, some b, _) =>
    if !t.mayRestore f then .done t RC_BUSY []
    else if !savedOk b then .done t RC_BAD_ARG []
    else if t.savedOver f b then .done t RC_LIMIT []
    else match t.numberTaken f b with
      | some n => .done t 0x81 [n]
      | none => match t.restoreAll f b with
        | none => .done t RC_NO_RESOURCE []
        | some u => .done u RC_OK []

end Sys2Proof.Machine
end

