-- ==== Sys2Proof/Machine/EciSvc.lean ====
section
/-! DEFINITION. ECI groups 0x0Axx and 0x0Bxx: port counters, event routes, flash, the write log, wear, retraining and
debug (spec/13_control_interface.md R335, R338, "Group 0x0Axx", spec/17_errors_and_service.md R396, R397,
spec/18_power_reset_package.md R414, spec/05_brew_engines.md R142 to R144). -/

namespace Sys2Proof.Machine

/-! ### Counters, routes and the write log -/

/-- SVC_PORT_COUNTERS: the 56 totals of a port, or with bit 4 of the management port; FINAL is 0 while firmware owns them. -/
def execSvcPortCounters (e : Eci) (s : State) : Step :=
  s.eci e 0x0A00 anyCmd (fun _ => e.fn != s.manager || s.on F.GLB_COUNTER_OWNER_OWNER 0) [low 5, W32, W32]
    (fun p => bit (p.getD 0 0) 4 && bits (p.getD 0 0) 3 0 != 0) (fun p =>
      let t := s.foldCounters (p.getD 0 0)
      match t.bufferOut e.fn (w64 p 1) 448 (t.totals (p.getD 0 0)) e.io.head? [0] with
      | .done u rc resp => if rc = RC_OK then .done u rc resp else .done s rc resp
      | o => o)

/-- SVC_EVT_ROUTE. -/
def execSvcEvtRoute (e : Eci) (s : State) : Step :=
  s.eci e 0x0A01 anyCmd (s.managerOnly e.fn) [low 10, 2 ^ 31 + 3 * 2 ^ 12 + low 11]
    (fun p => decide (576 ≤ p.getD 0 0) || decide ((s.fn (bits (p.getD 1 0) 13 12)).grants.vectors ≤ bits (p.getD 1 0) 10 0))
    (fun p => .done (s.put .EVT_ROUTE (p.getD 0 0) (p.getD 1 0)) RC_OK [])

/-- Words of a write log entry: offset, data and short stamp. -/
def FwLogEntry.words (x : FwLogEntry) : List Nat := [x.offset % 2 ^ 29, x.data % 2 ^ 32] ++ two x.stamp

/-- SVC_LOG_READ: at most 15 of the oldest entries, which are removed (R335). -/
def execSvcLogRead (e : Eci) (s : State) : Step :=
  s.eci e 0x0A04 anyCmd (s.managerOnly e.fn) [] noCheck (fun _ =>
    let es := s.fwLog.take 15
    .done { s with fwLog := s.fwLog.drop 15, fwLogLost := 0 } RC_OK
      ((es.length + 2 ^ 8 * (s.fwLogLost % 2 ^ 24)) :: es.flatMap FwLogEntry.words))

/-! ### Flash and firmware (R326, R338, R414) -/

/-- Bytes of the flash regions. -/
def flashSize (region : Nat) : Nat := 1024 * [64, 24576, 24576, 16384, 16384, 64, 64, 64, 64, 256, 64].getD region 0

/-- Who may write the flash: the manager, or a function of the recovery personality. -/
def State.flashDenied (s : State) (f : Nat) : Bool := if s.recovery then f != 0 && f != 2 else f != s.manager

/-- Another recovery function holds the flash. -/
def State.flashTaken (s : State) (f : Nat) : Bool :=
  s.recovery && (match s.flashHolder with
    | some g => g != f
    | none => false)

/-- A flash command of a recovery function was accepted: it holds the flash. -/
def State.flashHeld (s : State) (f : Nat) : State := if s.recovery then { s with flashHolder := some f, flashAt := s.now } else s

/-- SVC_FLASH_WRITE begins. -/
def execSvcFlashWrite (e : Eci) (s : State) : Step :=
  s.eci e 0x0A02 anyCmd (fun p => s.flashDenied e.fn || [0, 7, 8, 9, 10].contains (p.getD 0 0)) [low 8, W32, W32, W32]
    (fun p => decide (10 < p.getD 0 0) || decide (flashSize (p.getD 0 0) < p.getD 3 0)) (fun p =>
      let running := !s.recovery && p.getD 0 0 == 1 + s.fwSlot
      if s.flashTaken e.fn ∨ running then .done s RC_BUSY []
      else if s.longBusy e.fn then .done (s.when s.flashHolder.isSome (fun t => t.flashHeld e.fn)) RC_BUSY [] else .started (s.flashHeld e.fn))

/-- A region erased and written from offset 0; one whose verify fails is invalid. -/
def State.flashPut (s : State) (region : Nat) (data : Bytes) (verified : Bool) : State :=
  let fl := s.flash
  let s : State := { s with flash := { fl with
    regions := fl.regions.setD region data (if region = 1 ∨ region = 2 then Config.fwImage (region - 1) else [])
    badSlot := if region = 1 ∨ region = 2 then fl.badSlot.set (region - 1) (!verified) else fl.badSlot
    badRegion := fl.badRegion.set region (!verified) } }
  if verified then s else s.raise Ev.SVC_FLASH_ERROR

/-- The end of SVC_FLASH_WRITE; the return code of a failed verify is not stated (log 146). -/
def State.flashWriteDone (s : State) (f : Nat) (p : List Nat) (r : Option HostReply) (verified : Bool) : EciOut :=
  match s.dmaIn f (w64 p 1) (p.getD 3 0) r with
  | (t, none, rc) => .done t rc []
  | (t, some b, _) =>
    let t := t.flashPut (p.getD 0 0) b verified
    if verified then .done (t.raise Ev.SVC_FLASH_DONE) RC_OK [] else .done t.used (t.fresh % 256) []

/-- The end of OVEN_SET with SAVE: the oven record is written (spec/02_time_base.md R62). -/
def State.ovenSaveDone (s : State) (verified : Bool) : EciOut :=
  let t := s.flashPut 6 s.ovenRecord verified
  if verified then .done t RC_OK [] else .done t.used (t.fresh % 256) []

/-- The image of a slot boots (R412). -/
def State.slotValid (s : State) (slot : Nat) : Bool := !s.flash.badSlot.get slot && Config.fwValid (s.slotImage slot)

/-- Firmware's own IMAGE record at its start (R411). -/
def State.journalFirmware (s : State) : State := s.journalImage (Config.fwBuild s.fwRunning).toNat 3 0 (digest s.fwRunning)

/-- The slot is named in the boot directory and firmware starts from it, each driver told by SHUTDOWN (log 221): a recovery
personality stays until the next reset (log 147). -/
def State.fwActivate (s : State) (slot : Nat) : State :=
  let s : State := { s with flash := { s.flash with active := slot }, flashHolder := none }
  let s := s.each s.functions (fun f t => t.setDoorbell f 3)
  if s.recovery then s.fwRestart
  else
    let s := ({ s with fwSlot := slot } : State).journalFirmware
    (s.each s.functions (fun f t => t.rewriteRom f)).fwRestart

/-- SVC_FW_ACTIVATE: the reply, then the restart. -/
def execSvcFwActivate (e : Eci) (s : State) : Step :=
  s.eci e 0x0A03 anyCmd (fun _ => s.flashDenied e.fn) [1] (fun p => !s.slotValid (p.getD 0 0)) (fun p =>
    if s.flashTaken e.fn then .done s RC_BUSY []
    else .held ((s.eciReply e.fn e.path RC_OK [] e.badOut).fwActivate (p.getD 0 0)))

/-- 60 s have passed with no flash command from the recovery function that holds the flash. -/
def execRecoveryFlashRelease (s : State) : Step :=
  .next (if s.flashHolder.isSome ∧ s.flashAt + 60000000000 ≤ s.now then { s with flashHolder := none } else s)

/-! ### Retraining (spec/16_memory.md R382) -/

/-- SVC_HBM_RETRAIN begins. -/
def execSvcHbmRetrain (e : Eci) (s : State) : Step :=
  s.eci e 0x0A05 anyCmd (s.managerOnly e.fn) [3] noCheck (fun _ => if s.longBusy e.fn then .done s RC_BUSY [] else .started s)

/-- Its end. -/
def State.retrainDone (s : State) (p : List Nat) (lanes failed : List Nat) : EciOut :=
  let ks := [0, 1].filter (fun k => bit (p.getD 0 0) k)
  .done (s.each ks (fun k t => t.retrain k lanes failed)) RC_OK [p.getD 0 0]

/-! ### Wear (spec/17_errors_and_service.md R396, R397) -/

/-- The power domain that feeds a unit (log 148). -/
def unitDomain (unit : Nat) : Option Nat :=
  let i := unit % 4096
  match unit / 4096 with
  | 1 => some (16 + i)
  | 2 => some (16 + i / 9)
  | 3 => some (32 + i)
  | 4 => some i
  | 5 => some (44 + i / 32)
  | 6 => some 56
  | 7 => some (if i = 4 then 53 else 52)
  | 8 => some (40 + i)
  | 9 => some (50 + i / 2)
  | 10 => some (36 + i)
  | 14 => if i < 3 then some 63 else if 0x100 ≤ i ∧ i < 0x140 then some (i - 0x100) else none
  | 15 => [some 54, none, some 59, none, none, some 57, none, some 55, some 60].getD i none
  | _ => none

/-- A power domain's wear, and its slowdown in units of 0.01 %. -/
def State.domainWear (s : State) (d : Nat) : Wear := s.wear.get (0xE100 + d)
def State.slowdown (s : State) (d : Nat) : Nat :=
  let test := (Config.ringTestKhz d).toNat
  if (s.domainWear d).sampled.isNone then 0 else (test - (s.domainWear d).khz) * 10000 / test

/-- A spare is available for a unit. -/
def State.spareFor (s : State) (unit : Nat) : Bool :=
  let i := unit % 4096
  match unit / 4096 with
  | 2 => match s.spareEngine (i / 9) with
    | some p => !s.isFenced (unitEngine (i / 9) p) 0
    | none => false
  | 5 => decide (s.rd F.HBM_PC_STATUS_SPARE_LANES i < 2)
  | 7 => s.spareCore.isSome
  | 13 => decide ((s.sramUsed i).1 < 4) || decide ((s.sramUsed i).2 < 2)
  | 14 => if i < 2 then s.pll.isNone else decide (0x200 ≤ i) && decide (s.supply.phasesOut.length < 18)
  | _ => false

/-- A wear alert stands for the unit. -/
def State.wearAlert (s : State) (unit : Nat) : Bool :=
  (s.wear.get unit).sram || (match unitDomain unit with
    | some d => (s.domainWear d).aged || (s.domainWear d).em
    | none => false)

/-- The response of SVC_WEAR_QUERY. -/
def State.wearWords (s : State) (unit : Nat) : List Nat :=
  let i := unit % 4096
  let dom := unitDomain unit
  let w : Wear := (dom.map s.domainWear).getD {}
  let sram := s.wear.get unit
  let isSram := unit / 4096 == 13
  let q0 := unit + 2 ^ 16 * b2n (s.spareFor unit) + 2 ^ 17 * b2n (s.isFenced unit 0) + 2 ^ 18 * b2n (s.wearAlert unit)
  let q1 := if unit = 0xDFFF then Config.sramCount else w.khz
  let spares : List Nat :=
    if unit = 0xDFFF then [0, 0, 0, 0] else if isSram then [(s.sramUsed i).1, 4, (s.sramUsed i).2, 2]
    else if unit / 4096 = 5 then [s.rd F.HBM_PC_STATUS_REPAIRS i, 32, s.rd F.HBM_PC_STATUS_SPARE_LANES i, 2] else [0, 0, 0, 0]
  let head := [q0, q1, (dom.map (fun d => (Config.ringTestKhz d).toNat)).getD 0, (dom.map s.slowdown).getD 0] ++ two w.stress
  (head ++ [sram.hour]) ++ (two sram.total ++ spares) ++ (two w.stamp ++ [s.now / 3600000000000])

/-- SVC_WEAR_QUERY. -/
def execSvcWearQuery (e : Eci) (s : State) : Step :=
  s.eci e 0x0A06 anyCmd (s.managerOnly e.fn) [low 16] (fun p => p.getD 0 0 != 0xDFFF && !unitListed (p.getD 0 0)) (fun p =>
    .done s RC_OK (s.wearWords (p.getD 0 0)))

/-- A power domain's ring oscillator is sampled, at most once a minute. -/
def execWearSample (d khz : Nat) (s : State) : Step :=
  let w := s.domainWear d
  let due := match w.sampled with
    | none => true
    | some t => decide (t + 60000000000 ≤ s.now)
  .next (if 64 ≤ d ∨ !due then s
    else
      let put (t : State) (x : Wear) : State := { t with wear := t.wear.set (0xE100 + d) x }
      let t := put s { w with khz := khz % 2 ^ 32, sampled := some s.now, stamp := s.stamp }
      let aged := decide (250 ≤ t.slowdown d)
      let t := put t { t.domainWear d with aged := aged }
      t.when (aged && !w.aged) (fun u => u.raise Ev.PWR_AGEING_ALERT))

/-- Firmware saves the stress counters, as they stand, to the wear record, every six hours. -/
def execWearRecordSave (stress : List Nat) (s : State) : Step :=
  .next (if s.now < s.wearSaved + 21600000000000 then s
    else
      ({ s with wearSaved := s.now } : State).each ((stress.take 64).zipIdx) (fun e t =>
        let w := t.domainWear e.2
        let n := max w.stress (e.1 % 2 ^ 64)
        let hit := decide (800000000 ≤ n)
        ({ t with wear := t.wear.set (0xE100 + e.2) { w with stress := n, saved := n, em := hit } } : State).when (hit && !w.em)
          (fun u => u.raise Ev.PWR_EM_ALERT)))

/-! ### Debug (spec/05_brew_engines.md R142 to R144) -/

/-- Debug commands are the manager's, with the DEBUG feature, while JTAG does not hold the claim of the cluster. -/
def State.dbgDenied (s : State) (f : Nat) (cluster : List Nat → Nat) : List Nat → Bool :=
  fun p => f != s.manager || !s.feature f 16 || s.on F.BRW_DBG_CTL_JTAG_OWNS (cluster p)

/-- The cluster of a payload that names a thread. -/
def threadCluster (p : List Nat) : Nat := clusterOf (bits (p.getD 0 0) 9 0)

/-- The threads a payload names: one, or with bit 31 all packet threads of its cluster; with them, during a spare swap's drain,
those of the same endpoint on the engine swapped out. -/
def State.threadsNamed (s : State) (p : List Nat) : List Nat :=
  let t := bits (p.getD 0 0) 9 0
  let l := if bit (p.getD 0 0) 31 then ((List.range 64).map (fun k => 64 * clusterOf t + k)).filter (fun k => !isSup k) else [t]
  l ++ (l.map (fun k => k + 1024)).filter (fun k => (s.twins (clusterOf t)).contains k)

/-- A thread halts on command unless it is FENCED. -/
def State.haltCmd (s : State) (t : Nat) : State := if (s.thread t).st = .fenced then s else s.haltThread t

/-- A halted thread returns to the state it left; the breakpoint at its PC does not fire again at once. -/
def State.resumeThread (s : State) (t : Nat) (step : Bool) : State :=
  s.modThread t (fun th => if th.st = .halted then
    { th with st := th.before, haltTime := th.haltTime + (s.now - th.haltAt), stepping := step, skipBp := some th.pc } else th)

/-- A debug command: from the manager through ECI, or from JTAG, which reaches the same debug controllers once it holds their
claim; a JTAG payload of another shape does nothing (R142). -/
def State.debugCmd (s : State) (v : DebugVia) (code : Nat) (cluster : List Nat → Nat) (masks : List Nat) (run : List Nat → State × Nat) : Step :=
  match v with
  | .eci e => s.eci e code anyCmd (s.dbgDenied e.fn cluster) masks noCheck (fun p => .done (run p).1 (run p).2 [])
  | .jtag p => .next (if s.on F.BRW_DBG_CTL_JTAG_OWNS (cluster p) && shapeOk masks { code := code, len := p.length, words := p } then (run p).1 else s)

/-- DBG_HALT. -/
def execDbgHalt (v : DebugVia) (s : State) : Step :=
  s.debugCmd v 0x0B00 threadCluster [low 10 + 2 ^ 31] (fun p => (s.each (s.threadsNamed p) (fun t u => u.haltCmd t), RC_OK))

/-- DBG_RESUME. -/
def execDbgResume (v : DebugVia) (s : State) : Step :=
  s.debugCmd v 0x0B01 threadCluster [low 10 + 2 ^ 31] (fun p => (s.each (s.threadsNamed p) (fun t u => u.resumeThread t false), RC_OK))

/-- DBG_STEP: one word issues, then the thread halts again. -/
def execDbgStep (v : DebugVia) (s : State) : Step :=
  s.debugCmd v 0x0B02 threadCluster [low 10] (fun p =>
    match (s.threadsNamed p).find? (fun t => (s.thread t).st == .halted) with
    | none => (s, RC_NOT_READY)
    | some t => (s.resumeThread t true, RC_OK))

/-- DBG_ABORT: a halted thread ends as for ABORT; another thread stays as it is (log 149). -/
def execDbgAbort (v : DebugVia) (s : State) : Step :=
  s.debugCmd v 0x0B03 threadCluster [low 10] (fun p =>
    (s.each ((s.threadsNamed p).filter (fun t => (s.thread t).st == .halted)) (fun t u => u.abortThread t 0xFD), RC_OK))

/-- The cluster of a payload that names one in its low bits. -/
def clusterNamed (p : List Nat) : Nat := bits (p.getD 0 0) 3 0

/-- DBG_BP_SET. -/
def execDbgBpSet (v : DebugVia) (s : State) : Step :=
  s.debugCmd v 0x0B04 clusterNamed [low 6 + 2 ^ 31, low 16, W32, W32] (fun p =>
    let ix := 4 * bits (p.getD 0 0) 3 0 + bits (p.getD 0 0) 5 4
    (((s.wr F.BRW_BP_EN ix (bits (p.getD 0 0) 31 31)).wr F.BRW_BP_ADDR ix (p.getD 1 0)).put .BRW_BP_THREADS ix (w64 p 2), RC_OK))

/-- DBG_SOFT_BP. -/
def execDbgSoftBp (v : DebugVia) (s : State) : Step :=
  s.debugCmd v 0x0B05 clusterNamed [low 4 + 2 ^ 31] (fun p =>
    (s.wr F.BRW_DBG_CTL_SOFT_BP_EN (bits (p.getD 0 0) 3 0) (bits (p.getD 0 0) 31 31), RC_OK))

end Sys2Proof.Machine
end

