-- ==== Sys2Proof/Machine/Long.lean ====
section
/-! DEFINITION. The end of long commands (spec/13_control_interface.md R324). -/

namespace Sys2Proof.Machine

/-- FN_QUIESCE ends when no work of the function remains (spec/14_tenants.md R349); a release has ended already. An FLR of the
function ends it (R347), a fence on the way ends it with NOT_READY (log 98). -/
def State.quiesceDone (s : State) (p : List Nat) : EciOut :=
  let f := bits (p.getD 0 0) 11 0
  let st := s.rd F.HIF_FN_STATE_STATE f
  if bit (p.getD 0 0) 31 ∨ st = 3 then .done s RC_OK []
  else if st = 4 then .wait
  else if st ≠ 2 then .done s RC_NOT_READY []
  else if s.fnBusy f then .wait
  else .done (s.quiesced f) RC_OK []

/-- What the long command of a code and payload does in the end. -/
def State.longBody (s : State) (f : Nat) (c : EciCmd) (io : LongIo) : EciOut :=
  let r := io.io.head?
  match c.code with
  | 0x0203 => s.quiesceDone c.words
  | 0x0204 => s.fnSaveDone f c.words r
  | 0x0205 => s.fnRestoreDone f c.words r
  | 0x0408 => s.obsDump f c.words r
  | 0x0506 => s.ovenSaveDone io.verified
  | 0x0900 => .held (s.stageDone f io.failed)
  | 0x0A02 => s.flashWriteDone f c.words r io.verified
  | 0x0A05 => s.retrainDone c.words io.lanes io.failed
  | _ => .wait

/-- The long command of a function finishes; a quiesce waits for the function's work. -/
def execLongCommandComplete (f : Nat) (io : LongIo) (s : State) : Step :=
  match s.longs.getD f none with
  | none => .next s
  | some l =>
    if l.final.isSome then .next s
    else match s.longBody f l.cmd io with
      | .done t rc resp => .next (t.longDone f rc resp)
      | .held t | .started t => .next t
      | .wait => .next s

end Sys2Proof.Machine
end

