-- ==== Sys2Proof/Machine/Boot.lean ====
section
/-! DEFINITION. What a reset keeps, and the boot that follows it: slots, HBM, ports, images, domains, the default tree, grants
(spec/18_power_reset_package.md R411 to R417; spec/16_memory.md R372, R381; spec/06_microcode.md R167). -/

namespace Sys2Proof.Machine

/-! ### What each reset keeps (R416, R417) -/

/-- Registers of the always-on domain, and the monitors' readings. -/
def alwaysOnRegs : List Reg := [.OVN_CTRL, .OVN_SETPOINT, .OVN_GAIN, .OVN_BANDS, .OVN_LIMITS, .OVN_SENSE_LIMITS, .OVN_EFC,
  .OVN_STATUS, .OVN_SENSE, .PWR_LAST, .PWR_VIN, .PWR_TEMP, .SVC_ID_STATUS]

/-- Registers that a warm reset keeps beside them: the FATAL latch, HBM's layout and training, the chain's place. -/
def warmRegs : List Reg := [.GLB_FATAL_CAUSE, .GLB_FATAL_TIME, .HBM_REGION, .HBM_PC_STATUS, .HBM_STACK_STATUS, .JNL_CHAIN_ID,
  .JNL_PROD, .JNL_HEAD_RSEQ]

/-- The registers of a list, of those listed in a state. -/
def State.regsOf (s : State) (rs : List Reg) : SMap Word := s.regs.filter (fun e => rs.any (fun r => e.1 % 512 == r.ctorIdx))

/-- What outlives the loss of every supply: flash and what it records, PERST_N's levels, and the model's own fields. -/
def State.bare (s : State) : State :=
  { State.reset with
    pending := s.pending, now := s.now, out := s.out, free := s.free, flash := s.flash, wear := s.wear, wearSaved := s.wearSaved
    perst := s.perst, hbm := { repairs := s.hbm.repairs } }

/-- What VIN's loss leaves: the always-on domain. -/
def State.alwaysOn (s : State) : State :=
  { s.bare with
    regs := s.regsOf alwaysOnRegs, oven := s.oven, pll := s.pll, fwSlot := s.fwSlot
    supply := { s.supply with bootAt := none, levelAt := s.now, pllAt := none } }

/-- The journal after a warm reset: head and RSEQ kept, records not yet chained lost (spec/09_release_and_evidence.md R248). -/
def State.warmJournal (s : State) : Journal :=
  let j := s.journal
  let n := j.backlog.length
  { head := j.head, next := j.next, sinceCkpt := j.sinceCkpt, ckptAt := j.ckptAt
    lost := j.lost + n, lostDigest := j.lostDigest + (j.backlog.filter (fun (r : JRec) => r.kind == 4)).length
    lostFrom := if j.lost = 0 then s.stamp else j.lostFrom, lostTo := if n = 0 then j.lostTo else s.stamp }

/-- What a warm reset keeps: device time, HOLD_STATE, the chain, the FATAL count and latch, HBM's training and the fences of
its pseudo-channels (log 150). -/
def State.warmKept (s : State) : State :=
  let k := s.alwaysOn
  let k : State := { k with
    regs := s.regsOf (alwaysOnRegs ++ warmRegs), time := s.time, journal := s.warmJournal, bifurcated := s.bifurcated
    tsu := { counting := s.tsu.counting, steerAt := s.tsu.steerAt, steerStamp := s.tsu.steerStamp }
    fenced := s.fenced.filter (fun e => e.1 % 65536 / 4096 == 5) }
  let k := (k.put .GLB_ERR_COUNT 3 (s.val .GLB_ERR_COUNT 3)).put .JNL_CONS 0 (s.val .JNL_PROD 0)
  let k := k.wr F.TSU_STATUS_HOLD_STATE 0 (s.rd F.TSU_STATUS_HOLD_STATE 0)
  let held := s.rd F.TSU_REF_SEL 0 == 0
  (k.wr F.TSU_STATUS_PLL_LOCKED 0 (if held then s.rd F.TSU_STATUS_PLL_LOCKED 0 else 0)).wr F.TSU_STATUS_REF_PRESENT 0
    (if held then s.rd F.TSU_STATUS_REF_PRESENT 0 else 0)

/-- The state a reset starts its boot from; kind 0 power-on, 1 cold, 2 warm. -/
def State.kept (s : State) (kind : Nat) : State :=
  let k := if kind = 0 then s.bare else if kind = 1 then s.alwaysOn else s.warmKept
  { k with supply := { k.supply with power := .on } }

/-! ### Flash records (R414, R415) -/

/-- A record's header holds: magic, format, length and CHECK. -/
def recordOk (b : Bytes) (magic : Nat) : Bool :=
  let len := leAt b 6 2
  leAt b 0 4 == magic && leAt b 4 2 == 1 && decide (16 ≤ len ∧ len ≤ b.length) && leAt b 8 4 == 0 &&
    leAt b 12 4 == (crc32c (slice b 16 (len - 16))).toNat

/-- A region's record, none when it is absent or its header fails. -/
def State.recordIn (s : State) (region magic : Nat) : Option Bytes :=
  let b := s.flash.regions.get region
  if !s.flash.badRegion.get region && recordOk b magic then some (b.take (leAt b 6 2)) else none

/-- A record that was written and whose header fails is reported; a blank region holds no record (log 151). -/
def State.recordCheck (s : State) (region magic : Nat) : State :=
  s.when (!(s.flash.regions.get region).isEmpty && (s.recordIn region magic).isNone) (fun t => t.raise Ev.SVC_FLASH_ERROR)

/-- The board record; every field of an absent one reads 0. -/
def State.board (s : State) : Bytes := (s.recordIn 5 0x44424659).getD []
/-- Region 5 of HBM is reserved: the default without a record. -/
def State.boardSpill (s : State) : Bool := match s.recordIn 5 0x44424659 with
  | some b => bit (leAt b 0x14 4) 4
  | none => true
/-- The manager role starts on PF2 when the record says so, else on PF0. -/
def State.boardManager (s : State) : Nat := if bit (leAt s.board 0x14 4) 3 then 2 else 0
/-- The PFs' shares of the VFs; a record whose shares exceed 2,048 gives the default too (log 152). -/
def State.boardShares (s : State) : List Nat :=
  let v := (List.range 4).map (fun k => leAt s.board (0x18 + 2 * k) 2)
  let sum := v.foldl (· + ·) 0
  if sum = 0 ∨ 2048 < sum then [1024, 0, 1024, 0] else v
/-- The copy engine's window in MiB. -/
def State.boardWin (s : State) : Nat := min 16383 (bits (leAt s.board 0x20 4) 13 0)

/-- The register code of an order the record names, or the default. -/
def orderCode (named dflt : Nat) : Nat := if named = 0 then dflt else named - 1

/-! ### The slot (R412) -/

/-- The slot the boot ROM boots, the preferred one first; none: the recovery personality. -/
def State.chosenSlot (s : State) (pref : Nat) (io : BootIo) : Option Nat :=
  if io.forceRecovery || (s.supply.slotFailed.contains 0 && s.supply.slotFailed.contains 1) then none
  else if s.slotValid pref then some pref
  else if s.slotValid (1 - pref) then some (1 - pref)
  else none

/-! ### Firmware's steps (R411) -/

/-- Every source is routed to vector 0 of PF0, but those masked at reset (spec/11_host_interface.md R283). -/
def State.bootRoutes (s : State) : State :=
  s.each (List.range 576) (fun k t => t.wr F.EVT_ROUTE_EN k (b2n (k != Ev.TIME_SECOND && k != Ev.JNL_CHECKPOINT)))

/-- The PFs' shares and default grants, the manager role, and the descriptor ROMs' first filling (R274, R341, R344). -/
def State.bootFunctions (s : State) : State :=
  let s := s.each (List.range 4) (fun f t => t.modFn f (fun g => { g with numVfsShare := s.boardShares.getD f 0, romGen := 2 }))
  let s := s.each (List.range 4) (fun f t => (t.modFn f (fun g => { g with grants := t.fitGrant f (pfGrant f) })).wr F.HIF_FN_STATE_STATE f 1)
  { s with manager := s.boardManager, bifurcated := ([0, 1].foldl (fun (m : SMap Bool) k => m.set k (bit (leAt s.board 0x14 4) (1 + k))) []) }

/-- The signer unseals its key, or the chain runs unsigned (spec/09_release_and_evidence.md R254). -/
def State.bootSigner (s : State) (ok : Bool) : State :=
  if ok then s.wr F.JNL_STATUS_SIGNER_OK 0 1 else (s.fence 0xF002 1 .degraded 0).raise Ev.JNL_SIGNER_FAULT

/-- Lays out an HBM region. -/
def State.layRegion (s : State) (r base rows perStack order : Nat) : State :=
  if rows = 0 then s.put .HBM_REGION r 0
  else s.put .HBM_REGION r (base + 2 ^ 16 * rows + 2 ^ 34 * perStack + 2 ^ 36 * order + 2 ^ 63)

/-- HBM's layout (spec/16_memory.md R372, R373). -/
def State.bootRegions (s : State) : State :=
  let b := leAt s.board 0x20 4
  let s := (((s.layRegion 0 0 512 3 0).layRegion 1 512 64 3 0).layRegion 2 576 1024 3 2).layRegion 3 1600 8192 1 1
  let s := (s.layRegion 4 1600 8192 2 1).layRegion 5 9792 (if s.boardSpill then 4096 else 0) 3 0
  (s.layRegion 6 13888 16384 3 (orderCode (bits b 17 16) 1)).layRegion 7 30272 s.boardWin 3 (orderCode (bits b 19 18) 0)

/-- Training at boot: repairs applied, lane faults remapped, pseudo-channels that fail fenced (R381, R384). -/
def State.bootTraining (s : State) (io : BootIo) : State :=
  let s := s.each (List.range 64) (fun p t =>
    (t.wr F.HBM_PC_STATUS_STATE p 1).wr F.HBM_PC_STATUS_REPAIRS p (t.hbm.repairs.filter (fun r => r.pc == p)).length)
  let s := s.each [0, 1] (fun k t => ((t.wr F.HBM_STACK_STATUS_TRAINED k 1).wr F.HBM_STACK_STATUS_TRAIN_TEMP_C k
    (t.rd F.HBM_STACK_STATUS_TEMP_C k)).raise (Ev.HBM_TRAIN_DONE k))
  let s := s.each (io.lanes.filter (fun p => decide (p < 64))) (fun p t => t.remapLane p)
  s.each (io.failed.filter (fun p => decide (p < 64))) (fun p t => (t.raise (Ev.HBM_TRAIN_FAIL (p / 32))).fenceUnit (unitHbm p) 0 3 [])

/-- HBM at boot: a warm reset skips the training and keeps the layout. -/
def State.bootHbm (s : State) (kind : Nat) (io : BootIo) : State :=
  if kind = 2 then s.each (List.range 64) (fun p t => t.when (t.rd F.HBM_PC_STATUS_STATE p != 4) (fun u => u.wr F.HBM_PC_STATUS_STATE p 1))
  else (s.bootRegions).bootTraining io

/-- The release unit's reserve (spec/09_release_and_evidence.md R238). -/
def State.bootRelease (s : State) : State :=
  let spill := s.on F.HBM_REGION_EN 5
  (s.wr F.REL_CFG_SPILL_EN 0 (b2n spill)).put .REL_CAPACITY 0 (s.capacityOf spill (s.rd F.REL_CFG_CARAFE_MIB 0))

/-- The oven record is applied only if the loop does not run (spec/02_time_base.md R62). -/
def State.bootOven (s : State) : State :=
  let s := s.recordCheck 6 0x564F4659
  match s.recordIn 6 0x564F4659 with
  | some b => if s.on F.OVN_CTRL_EN 0 then s else s.ovenWrite ((List.range 7).map (fun k => leAt b (16 + 4 * k) 4)) 0x7F
  | none => s

/-- The calibration record: 16 entries of 32 bytes, then the lanes' skews (spec/02_time_base.md R53; log 153). -/
def State.bootCalibration (s : State) : State :=
  let s := s.recordCheck 7 0x43414659
  match s.recordIn 7 0x43414659 with
  | none => s
  | some b =>
    let cal := (List.range 16).foldl (fun (m : SMap Bytes) n => m.set n (slice b (16 + 32 * n) 32)) []
    let s : State := { s with tsu := { s.tsu with cal := cal } }
    s.each (List.range 16) (fun l t => t.put .TSU_LANE_SKEW l (leAt b (0x210 + 4 * l) 4))

/-- Port modes, addresses and the management port from the board record (R415). -/
def State.bootPorts (s : State) : State :=
  let s := s.recordCheck 5 0x44424659
  let s : State := { s with flash := { s.flash with presets := [], mgmtMac := 0 } }
  match s.recordIn 5 0x44424659 with
  | none => s
  | some b =>
    let s := s.each (List.range 16) (fun n t => (t.putFields .PRT_MODE n (leAt b (0x24 + 4 * n) 4)).put .PRT_MAC_ADDR n (bits (leAt b (0x64 + 8 * n) 8) 47 0))
    let presets := (List.range 16).foldl (fun (m : SMap Nat) n => m.set n (leAt b (0xE4 + 4 * n) 4 % 16)) []
    let s : State := { s with flash := { s.flash with presets := presets, mgmtMac := bits (leAt b 0x124 8) 47 0 } }
    (((s.putFields .PRT_MGMT_CFG 0 (leAt b 0x12C 4)).groupApply 0).groupApply 1)

/-- An image of flash: the bytes its TOTAL_LEN covers; none where no image begins. -/
def State.flashImage (s : State) (region : Nat) : Option ShadowImage :=
  let b := s.flash.regions.get region
  let len := leAt b 0x14 4
  if s.flash.badRegion.get region ∨ leAt b 0 4 ≠ 0x4D495653 then none
  else some { bytes := if imgReadable len then b.take len ++ List.replicate (len - b.length) 0xFF else [], len := len }

/-- What R163 says of an image found in flash: 0, or the code it is refused with. -/
def State.flashRefusal (s : State) (x : ShadowImage) (place : Nat) : Nat :=
  let code := refusal x place (s.rd F.CS_ROM_ID_REV 0)
  if code ≠ 0 then code else if place = 1 ∧ s.noRegions 0 x.bytes then RC_NO_RESOURCE else 0

/-- Both images are measured and journalled, loaded into bank 0 where they are valid, and the clusters start
(spec/06_microcode.md R167). -/
def State.bootImages (s : State) : State :=
  let look (t : State) (place region : Nat) : State × Option ShadowImage := match t.flashImage region with
    | none => (t, none)
    | some x =>
      let code := t.flashRefusal x place
      (t.journalImage (imgId x.bytes) place code x.meas, if code = 0 then some x else none)
  let p := look s 2 3
  let c := look p.1 1 4
  let s := (c.1.setBank 0 0 c.2 p.2).writeBank (List.range 16) 0 0 2 c.2 p.2
  let s := s.each (List.range 16) (fun k t => (({ t with clusters := t.clusters.set k { idleSince := t.now } } : State).wr F.BRW_CTRL_EN k 1).startSup k)
  s.each (List.range 4) (fun g t => (t.wr F.OFL_GROUP_CTRL_EN g 1).wr F.OFL_GROUP_CTRL_GATED g 1)

/-- The domains of R406 that firmware may gate. -/
def gateable (d : Nat) : Bool := decide (d < 32) || decide (40 ≤ d ∧ d ≤ 43) || d == 53 || d == 56

/-- Every domain is powered but lanes of disabled ports, offload groups, the spare core and the copy engine; the rails' voltages
are the speed bin's, free values (R406). -/
def State.bootDomains (s : State) : State :=
  s.each (List.range 64) (fun d t =>
    let off := decide (d < 16) || decide (40 ≤ d ∧ d ≤ 43) || d == 53 || d == 56
    let t := (t.wr F.PWR_DOMAIN_GATEABLE d (b2n (gateable d))).when (!off) (fun u => u.wr F.PWR_DOMAIN_STATE d 1)
    (t.wr F.PWR_DOMAIN_MV d (t.fresh % 65536)).used)

/-- A node's 32 configuration bytes. -/
def nodeCfg (prio rate parent overhead owner depth tc : Nat) : Bytes :=
  fit 32 (leBytes 4 (2 ^ 31 + 2 ^ 28 * prio + rate) ++ leBytes 4 16777216 ++ leBytes 4 (parent + 2 ^ 16) ++
    leBytes 4 (overhead + 2 ^ 20 * owner) ++ leBytes 4 (depth + 2 ^ 20 * tc))

/-- The default branch below a port node: one group, one tenant, eight class queues of the manager
(spec/08_traffic_manager.md R204; log 40). -/
def State.defaultBranch (s : State) (port : Nat) : State :=
  let h := nodeHalf 0 port
  let i := if port < 16 then port % 8 else 8 + (port - 16) % 2
  let rate := if port < 16 then 1600000 else 2000000
  let ovh := if port < 16 then 24 else 0
  let m := s.manager
  let s := s.writeNode 0 port (nodeCfg 0 rate 0 ovh m 0 0)
  let s := s.writeNode 1 (512 * h + i) (nodeCfg 0 rate port ovh m 0 0)
  let s := s.writeNode 2 (8192 * h + i) (nodeCfg 0 rate (512 * h + i) ovh m 0 0)
  s.each (List.range 8) (fun c t => t.writeNode 3 (defaultQueue port c) (nodeCfg c rate (8192 * h + i) ovh m 49152 c))

/-- The default scheduler tree. -/
def State.bootTree (s : State) : State := s.each (List.range 20) (fun n t => t.defaultBranch n)

/-- The spare PLL takes the core clock after a core PLL's FATAL error (R410). -/
def State.bootPll (s : State) (source : Nat) : State :=
  s.when (source == 8) (fun t => ({ t with pll := some 0 } : State).raise Ev.PWR_PLL_SPARED)

/-- What firmware reports of the time before the boot (R392, R404, R422; spec/17_errors_and_service.md R401). -/
def State.bootReports (s : State) (kind source slot : Nat) : State :=
  let s := s.when (slot != s.flash.active) (fun t => t.raise Ev.SVC_FW_FALLBACK)
  let s := s.when (kind == 0 && s.on F.SVC_ID_STATUS_ERR 0) (fun t => t.raise Ev.SVC_FUSE_ERROR)
  let s := s.when (s.on F.PWR_LAST_VALID 0) (fun t => t.raise Ev.PWR_LAST_SHUTDOWN)
  let s := s.when (s.on F.PWR_LAST_VALID 0 && s.rd F.PWR_LAST_CAUSE 0 == 3) (fun t => t.raise Ev.PWR_OVERCURRENT)
  s.when (source == 4 || source == 5 || source == 8) (fun t => ({ t with fatalBoot := some t.now } : State).raise Ev.SVC_LAST_FATAL)

/-- Firmware serves: STATE is ACTIVE and every PF's mailbox shows FW_READY; after a warm reset PEER_RESET too
(spec/13_control_interface.md R321, R326). -/
def State.bootReady (s : State) (kind : Nat) : State :=
  let s := ({ s with fwUp := true } : State).each (List.range 4) (fun f t => (t.when (kind == 2) (fun u => u.wr F.MBX_STATUS_PEER_RESET f 1)).setDoorbell f 1)
  (((s.wr F.PWR_STATUS_STATE 0 1).raise Ev.PWR_STATE).raise Ev.FW_READY).each [0, 1, 2, 3] (fun k t => t.sendReady k)

/-- The time PLL locks to its reference (spec/02_time_base.md R40). -/
def State.bootClock (s : State) (ok : Bool) : State :=
  if ok then
    let s := (s.wr F.TSU_STATUS_PLL_LOCKED 0 1).wr F.TSU_STATUS_REF_PRESENT 0 1
    { s with tsu := { s.tsu with counting := true } }
  else s

/-- What the sensors say now, in PWR_STATUS and the stacks' status: whole degrees rounded down (log 154). -/
def State.tempSync (s : State) : State :=
  let read (i : Nat) : Option Int := if s.on F.PWR_TEMP_VALID i ∧ !s.on F.PWR_TEMP_FAULT i then some (signed 16 (s.rd F.PWR_TEMP_TENTHS i)) else none
  let hottest (l : List Nat) : Option Int := (l.filterMap read).foldl (fun (a : Option Int) t => match a with
    | none => some t
    | some b => some (max t b)) none
  let deg (t : Int) : Nat := ((t / 10) % 256).toNat
  let s := match hottest (List.range 28) with
    | some t => s.wr F.PWR_STATUS_TJ_C 0 (deg t)
    | none => s
  s.each [0, 1] (fun k t => match hottest [28 + 2 * k, 29 + 2 * k] with
    | some x => t.stackTemp k (deg x)
    | none => t)

/-- Phases lost: those out beyond the 18 spares (R404). -/
def State.phaseSync (s : State) : State := s.wr F.PWR_STATUS_PHASES_LOST 0 (s.supply.phasesOut.length - 18)

/-- Firmware brings the tables into service: the first pass of each sweeper that is enabled starts (spec/04_parsing_and_tables.md
R102, R108). -/
def State.bootSweeps (s : State) : State :=
  let s := s.each (List.range 4) (fun k t => t.ageEn k (t.on F.TBL_L2_CFG_AGE_EN k) (t.rd F.TBL_L2_CFG_AGE_S k))
  s.each [4, 5] (fun k t => t.ageEn k (t.on F.TBL_FLOW_CFG_AGE_EN 0) (t.rd F.TBL_FLOW_CFG_AGE_S 0))

/-- Firmware of a slot boots to FW_READY. -/
def State.firmwareUp (s : State) (kind source slot : Nat) (io : BootIo) : State :=
  let s := ({ s with fwSlot := slot } : State)
  let s := ((s.bootFunctions).bootRoutes).bootReports kind source slot
  let s := if kind = 2 then s else s.startChain 0
  let s := ((s.bootSigner io.signerOk).journalFirmware).bootPll source
  let s := (((s.tempSync).phaseSync).bootHbm kind io).bootRelease
  let s := (((s.bootOven).bootCalibration).bootDomains).bootPorts
  let s := (s.each (List.range 16) (fun u t => t.wr F.CPY_UNIT_CTRL_EN u 1)).wr F.CPY_WIN_MIB 0 s.boardWin
  (((s.bootImages).bootTree).bootSweeps).bootReady kind

/-- The recovery personality: function 0 of link a of each host port, no HBM, ports or journal (R412;
spec/13_control_interface.md R338). -/
def State.recoveryUp (s : State) : State :=
  let s : State := { s with fwUp := true, recovery := true, manager := 4096 }
  (s.each [0, 2] (fun f t => ((t.modFn f (fun g => { g with grants := { vectors := 1 } })).wr F.HIF_FN_STATE_STATE f 1).setDoorbell f 1)).each
    [0, 2] (fun k t => t.sendReady k)

/-- A boot: slot chosen and firmware started, the recovery personality, or firmware that hangs until the watchdog expires. A core
PLL failure with the spare in use fails the attempt likewise (R410, R412). -/
def State.boot (s : State) (kind source pref : Nat) (io : BootIo) : State :=
  let s := (s.wr F.GLB_RESET_CAUSE_KIND 0 kind).wr F.GLB_RESET_CAUSE_SOURCE 0 source
  let s := s.when (kind == 0) (fun t => (t.wr F.SVC_ID_STATUS_VALID 0 1).wr F.SVC_ID_STATUS_ERR 0 (b2n io.fuseErr))
  let s := ({ s with supply := { s.supply with bootAt := some s.now } } : State).bootClock io.refOk
  match s.chosenSlot pref io with
  | none => s.recoveryUp
  | some slot => if io.hang || (source == 8 && s.pll.isSome) then { s with fwSlot := slot } else s.firmwareUp kind source slot io

/-- THERMTRIP_N or THERM_ALERT_N changes; both are low when asserted. -/
def State.setTrip (s : State) (on : Bool) : State :=
  if s.supply.thermTrip = on then s else ({ s with supply := { s.supply with thermTrip := on } } : State).send (.pin "THERMTRIP_N" (!on))
def State.setAlert (s : State) (on : Bool) : State :=
  if s.supply.thermAlert = on then s else ({ s with supply := { s.supply with thermAlert := on } } : State).send (.pin "THERM_ALERT_N" (!on))

/-- A power-on, cold or warm reset with its boot; at the latter two every MAC ends the frame in progress stomped (R417). -/
def State.resetBoot (s : State) (kind source pref : Nat) (io : BootIo) : State :=
  let s := s.each (if kind = 0 then [] else List.range 32) (fun k t => t.stompNow k)
  (((s.setTrip false).setAlert false).kept kind).boot kind source pref io

/-- A cold reset from a source, booting the ACTIVE slot. -/
def State.coldReset (s : State) (source : Nat) (io : BootIo) : State := s.resetBoot 1 source s.flash.active io

end Sys2Proof.Machine
end

