-- ==== Sys2Proof/Machine/Power.lean ====
section
/-! DEFINITION. Supplies, power states, throttling, thermal protection, the core PLL and the resets
(spec/18_power_reset_package.md R402 to R422). -/

namespace Sys2Proof.Machine

/-! ### What the monitors read -/

/-- Valid readings of some sensors, in 0.1 °C. -/
def State.tempsOf (s : State) (l : List Nat) : List Int :=
  (l.filter (fun i => s.on F.PWR_TEMP_VALID i && !s.on F.PWR_TEMP_FAULT i)).map (fun i => signed 16 (s.rd F.PWR_TEMP_TENTHS i))

/-- Some, or every, die sensor against a temperature in 0.1 °C. -/
def State.dieReaches (s : State) (t : Int) : Bool := (s.tempsOf (List.range 28)).any (fun x => decide (t ≤ x))
def State.diesAtMost (s : State) (t : Int) : Bool := (s.tempsOf (List.range 28)).all (fun x => decide (x ≤ t))

/-- A stack is above a temperature in °C. -/
def State.stackAbove (s : State) (t : Nat) : Bool :=
  [0, 1].any (fun k => decide (t < s.rd F.HBM_STACK_STATUS_TEMP_C k)) ||
  (s.tempsOf [28, 29, 30, 31]).any (fun x => decide ((10 * t : Nat) < x))

/-- The monitors are read: a sensor marked FAULT stays as it is, and an implausible reading is PWR_SENSOR_FAULT's. THERM_ALERT_N
is released when no die sensor reaches ALERT_C (log 155). -/
def State.sense (s : State) (x : PowerSample) : State :=
  let s := s.each x.temps (fun e t => t.when (decide (e.1 < 32 ∧ -400 ≤ e.2 ∧ e.2 ≤ 1500) && !t.on F.PWR_TEMP_FAULT e.1)
    (fun u => u.put .PWR_TEMP e.1 (2 ^ 31 + (e.2 % 65536).toNat)))
  let s := (((s.wr F.PWR_VIN_VIN_MV 0 x.mv).wr F.PWR_VIN_PWR_DW 0 x.dw).wr F.PWR_VIN_CUR_CA 0 x.ca).tempSync
  s.when (!s.dieReaches (10 * s.rd F.PWR_THERM_CFG_ALERT_C 0 : Nat)) (fun t => t.setAlert false)

/-- The power cap in 0.1 W, lower by 1.5 W for each phase lost (R404). -/
def State.capDw (s : State) : Nat := 10 * s.rd F.PWR_CFG_CAP_W 0 - 15 * s.rd F.PWR_STATUS_PHASES_LOST 0

/-- Every rail is up. -/
def State.powered (s : State) : Bool := s.supply.power == .on

/-! ### Throttling (R408) -/

/-- LEVEL changes. -/
def State.setLevel (s : State) (n : Nat) : State :=
  { s.wr F.PWR_STATUS_LEVEL 0 n with supply := { s.supply with levelAt := s.now } }

/-- A reason to throttle has held for 10 ms at the present level. -/
def execThrottleRise (x : PowerSample) (s : State) : Step :=
  let u := s.sense x
  let budget := decide (s.capDw < x.dw)
  let why := u.dieReaches (10 * s.rd F.PWR_THERM_CFG_THROTTLE_C 0 : Nat) || budget || u.stackAbove 95
  let n := s.rd F.PWR_STATUS_LEVEL 0
  .next (if s.powered ∧ n < 4 ∧ s.supply.levelAt + 10000000 ≤ s.now ∧ why then
    let u := (u.setLevel (n + 1)).when (n == 0) (fun t => t.raise Ev.PWR_THROTTLE_ON)
    u.when budget (fun t => t.raise Ev.PWR_BUDGET)
  else s)

/-- Every limit has been kept with its margin for 100 ms. -/
def execThrottleFall (x : PowerSample) (s : State) : Step :=
  let u := s.sense x
  let cool := u.diesAtMost (10 * s.rd F.PWR_THERM_CFG_THROTTLE_C 0 - 50 : Nat) && decide (x.dw + 50 ≤ s.capDw) && !u.stackAbove 90
  let n := s.rd F.PWR_STATUS_LEVEL 0
  .next (if s.powered ∧ 0 < n ∧ s.supply.levelAt + 100000000 ≤ s.now ∧ cool then
    (u.setLevel (n - 1)).when (n == 1) (fun t => t.raise Ev.PWR_THROTTLE_OFF)
  else s)

/-! ### Temperature (R409, R422) -/

/-- A die sensor reaches ALERT_C. -/
def execPwrTjHigh (x : PowerSample) (s : State) : Step :=
  let u := s.sense x
  .next (if s.powered ∧ u.dieReaches (10 * s.rd F.PWR_THERM_CFG_ALERT_C 0 : Nat) then (u.setAlert true).raise Ev.PWR_TJ_HIGH else s)

/-- A die sensor reaches 110 °C. -/
def execTjCrit (x : PowerSample) (s : State) : Step :=
  let u := s.sense x
  .next (if s.powered ∧ u.dieReaches 1100 then u.raise Ev.PWR_TJ_CRIT else s)

/-- The sensors of a sensor's die or stack. -/
def dieOf (i : Nat) : List Nat :=
  if i < 8 then List.range 8 else if i < 18 then (List.range 10).map (· + 8) else if i < 28 then (List.range 10).map (· + 18)
  else if i < 30 then [28, 29] else [30, 31]

/-- A reading is implausible: outside −40 to 150 °C, or more than 25 °C from the mean of its die (log 156). -/
def State.implausible (s : State) (i : Nat) (t : Int) : Bool :=
  let l := t :: s.tempsOf ((dieOf i).filter (· != i))
  let sum : Int := l.foldl (· + ·) 0
  decide (t < -400 ∨ 1500 < t) || decide (250 * (l.length : Int) < (((l.length : Int) * t - sum).natAbs : Int))

/-- A sensor reads implausibly: it is marked FAULT and ignored from then on. -/
def execPwrSensorFault (sensor : Nat) (t : Int) (s : State) : Step :=
  .next (if s.powered ∧ sensor < 32 ∧ !s.on F.PWR_TEMP_FAULT sensor ∧ s.implausible sensor t then
    ((s.put .PWR_TEMP sensor (2 ^ 31 + 2 ^ 30 + (t % 65536).toNat)).tempSync).raise Ev.PWR_SENSOR_FAULT
  else s)

/-! ### Supplies (R402 to R404, R409) -/

/-- The rails fed by VIN go; the cause is recorded and THERMTRIP_N asserted (R403, R409; log 157). -/
def State.shutDown (s : State) (cause : Nat) (p : Power) : State :=
  let tj := s.rd F.PWR_STATUS_TJ_C 0
  let u := ((((s.setTrip true).setAlert false).alwaysOn.wr F.PWR_LAST_VALID 0 1).wr F.PWR_LAST_CAUSE 0 cause).wr F.PWR_LAST_TJ_C 0 tj
  { u with supply := { u.supply with power := p } }

/-- VIN falls below 4.15 V; in SHUTDOWN no rail is left to remove. -/
def execVinLoss (mv : Nat) (s : State) : Step :=
  .next (if mv < 4150 ∧ s.powered then (s.wr F.PWR_VIN_VIN_MV 0 mv).shutDown 2 .aon
    else if mv < 4150 ∧ s.supply.power = .shut then s.wr F.PWR_VIN_VIN_MV 0 mv else s)

/-- VIN's current stays above 60 A for 100 µs. -/
def execVinOvercurrent (ca ns : Nat) (s : State) : Step :=
  .next (if 6000 < ca ∧ 100000 ≤ ns ∧ s.powered then (s.wr F.PWR_VIN_CUR_CA 0 ca).shutDown 3 .aon else s)

/-- A die reaches 115 °C. -/
def execThermalTrip (x : PowerSample) (s : State) : Step :=
  .next (if s.powered ∧ x.temps.any (fun e => decide (e.1 < 28 ∧ 1150 ≤ e.2)) then (s.sense x).shutDown 1 .shut else s)

/-- VIN returns above 4.35 V: a cold reset, after a thermal trip once every die reads below 95 °C. -/
def execVinRestored (x : PowerSample) (io : BootIo) (s : State) : Step :=
  let u := s.sense x
  .next (if x.mv ≤ 4350 then s
    else if s.supply.power = .aon then u.coldReset 3 io
    else if s.supply.power = .shut ∧ u.diesAtMost 949 then u.coldReset 6 io
    else s)

/-- COLD_RST_N is held low, ns long. -/
def execColdRstN (ns : Nat) (x : PowerSample) (io : BootIo) (s : State) : Step :=
  let u := s.sense x
  .next (if ns < 1000 then s
    else if s.powered then s.coldReset 1 io
    else if s.supply.power = .shut ∧ u.diesAtMost 949 then u.coldReset 6 io
    else s)

/-- VIN_AON is lost: power-off, the oven and PWR_LAST included. -/
def execVinAonLoss (mv : Nat) (s : State) : Step :=
  .next (if mv < 4150 ∧ s.supply.power ≠ .off then
    let u := ((s.setTrip false).setAlert false).send (.pin "AON_OK" false)
    { u.bare with supply := { power := .off } }
  else s)

/-- Both supplies come up: power-on reset and boot. -/
def execPowerOn (io : BootIo) (s : State) : Step :=
  .next (if s.supply.power = .off ∨ (s.powered ∧ s.supply.bootAt = none) then
    let u := s.send (.pin "AON_OK" true)
    let u := u.resetBoot 0 0 u.flash.active io
    { u with supply := { u.supply with aonOk := true } }
  else s)

/-- VIN or VIN_AON leaves its range (R402). -/
def execPwrVinLow (mv : Nat) (s : State) : Step :=
  .next (if s.powered ∧ 4150 ≤ mv ∧ mv < 4500 then (s.wr F.PWR_VIN_VIN_MV 0 mv).raise Ev.PWR_VIN_LOW else s)
def execPwrVinHigh (mv : Nat) (s : State) : Step :=
  .next (if s.powered ∧ 18000 < mv then (s.wr F.PWR_VIN_VIN_MV 0 (min mv 65535)).raise Ev.PWR_VIN_HIGH else s)
def execPwrVinAonLow (mv : Nat) (s : State) : Step :=
  .next (if s.supply.power ≠ .off ∧ 4150 ≤ mv ∧ mv < 4500 then (s.wr F.PWR_VIN_AON_MV 0 mv).raise Ev.PWR_VIN_AON_LOW else s)

/-- A phase faults: a spare replaces it, or the cap drops (R404). -/
def execPhaseFault (n : Nat) (s : State) : Step :=
  .next (if s.powered ∧ n < 198 ∧ n ∉ s.supply.phasesOut then
    let u := (({ s with supply := { s.supply with phasesOut := n :: s.supply.phasesOut } } : State).phaseSync).raise Ev.PWR_PHASE_FAULT
    if u.supply.phasesOut.length ≤ 18 then u.raise Ev.PWR_PHASE_SPARED else u.raise Ev.PWR_BUDGET
  else s)

/-- The units a gateable domain powers. -/
def State.domainUnits (s : State) (d : Nat) : List Nat :=
  if d < 16 then ((List.range 16).filter (fun n => s.coversLane n d)).map unitPort
  else if d < 32 then [unitCluster (d - 16)]
  else if d < 44 then [unitOfl (d - 40)]
  else if d = 53 then (match s.spareCore with
    | some k => [unitCore k]
    | none => [])
  else (List.range 16).map unitCopy

/-- A rail leaves regulation: its units are fenced, or the error is FATAL; the CAUSE is a free value (log 158). -/
def execRailFault (d : Nat) (s : State) : Step :=
  .next (if s.powered ∧ d < 64 ∧ (s.rd F.PWR_DOMAIN_STATE d = 1 ∨ s.rd F.PWR_DOMAIN_STATE d = 2) then
    let cause := s.fresh % 256
    let u := ((s.used.raise Ev.PWR_RAIL_FAULT).wr F.PWR_DOMAIN_STATE d 3).raise Ev.PWR_DOMAIN_FAULT
    if gateable d then u.each (u.domainUnits d) (fun k t => t.fenceUnit k 0 cause []) else u.fatalError cause (0xE100 + d)
  else s)

/-! ### Gating of clusters (R406) -/

/-- A cluster's supervisor waits and its packet threads are free. -/
def State.clusterIdle (s : State) (c : Nat) : Bool :=
  (s.thread (supOf c)).st == .waiting && ((List.range 8).flatMap (packetThreads c)).all (fun t => (s.thread t).st == .idle) &&
    (s.twins c).all (fun t => (s.thread t).st == .idle)

/-- Since when it has been so. -/
def State.idleSince (s : State) (c : Nat) : Nat := max (s.clusters.get c).idleSince (s.thread (supOf c)).waitAt

/-- A cluster is gated with its state retained, or powered again. -/
def State.gateCluster (s : State) (c : Nat) : State :=
  ({ s with clusters := s.clusters.mod c (fun x => { x with gated := true }) } : State).domainOff (16 + c) true
def State.ungateCluster (s : State) (c : Nat) : State :=
  if (s.clusters.get c).gated then
    ({ s with clusters := s.clusters.mod c (fun x => { x with gated := false, idleSince := s.now }) } : State).domainOn (16 + c)
  else s

/-- An idle cluster beyond load is gated after 10 ms, in DEEP_IDLE at once, but for the last of its pipeline (R406, R407). -/
def execClusterGate (c : Nat) (s : State) : Step :=
  .next (if s.powered ∧ c < 16 ∧ s.on F.PWR_CFG_CLUSTER_GATE 0 ∧ s.clusterServes c ∧ s.clusterIdle c ∧
      s.siblings c ≠ [] ∧ (s.rd F.PWR_STATUS_STATE 0 = 2 ∨ (s.idleSince c + 10000000 ≤ s.now ∧ 63 < s.freeIn (s.siblings c))) then s.gateCluster c else s)

/-- Dispatch pressure on its pipeline ungates a cluster; in DEEP_IDLE the capacity stays (log 159). -/
def execClusterUngate (c : Nat) (s : State) : Step :=
  .next (if s.powered ∧ c < 16 ∧ (s.clusters.get c).gated ∧ s.rd F.PWR_STATUS_STATE 0 = 1 ∧
      (128 < s.dispatchDepth (c / 4) ∨ s.freeIn ((List.range 4).map (fun k => c / 4 * 4 + k) |>.filter s.clusterServes) = 0) then
    s.ungateCluster c else s)

/-- A write of PWR_CFG; with CLUSTER_GATE = 0 no cluster is gated (R407). -/
def State.pwrCfg (s : State) (v : Nat) : State :=
  let s := s.putFields .PWR_CFG 0 v
  if s.on F.PWR_CFG_CLUSTER_GATE 0 then s else s.each (List.range 16) (fun c t => t.ungateCluster c)

/-! ### DEEP_IDLE (R407) -/

/-- The conditions of DEEP_IDLE. -/
def State.mayDeepIdle (s : State) : Bool :=
  s.on F.PWR_CFG_DEEP_IDLE_EN 0 && ([0, 1, 2, 3] ++ [0, 1, 2, 3].flatMap s.vfs).all (fun f => (s.fn f).d3) && !s.groupEnabled &&
    (List.range 1024).all (fun ch => s.cpyState ch == 0 || s.cpyState ch == 4) &&
    !s.on F.GLB_EPOCH_STATUS_STAGING 0 && !s.on F.GLB_EPOCH_STATUS_STAGED 0 && !s.on F.GLB_EPOCH_STATUS_ARMED 0 &&
    !s.on F.GLB_EPOCH_STATUS_DRAINING 0

/-- The clusters DEEP_IDLE gates: idle ones, while another of the pipeline stays. -/
def State.deepGate (s : State) : State :=
  s.each (List.range 16).reverse (fun c t => t.when (t.clusterServes c && t.clusterIdle c && !(t.siblings c).isEmpty) (fun u => u.gateCluster c))

/-- DEEP_IDLE is entered. -/
def execDeepIdleEnter (s : State) : Step :=
  .next (if s.powered ∧ s.rd F.PWR_STATUS_STATE 0 = 1 ∧ s.mayDeepIdle then
    let s := (s.wr F.PWR_STATUS_STATE 0 2).each ((List.range 4).filter (fun g => !s.oflGated g))
      (fun g t => (t.wr F.OFL_GROUP_CTRL_GATED g 1).domainOff (40 + g) false)
    let s := s.when (s.on F.PWR_CFG_CLUSTER_GATE 0) (fun t => t.deepGate)
    (s.raise Ev.PWR_DEEP_IDLE_ENTER).raise Ev.PWR_STATE
  else s)

/-- A condition fails: ACTIVE again, groups that hold contexts and every cluster powered. -/
def execDeepIdleExit (s : State) : Step :=
  .next (if s.powered ∧ s.rd F.PWR_STATUS_STATE 0 = 2 ∧ !s.mayDeepIdle then
    let none_ := s.espSas.isEmpty && s.sessions.isEmpty && s.places.isEmpty
    let s := (s.wr F.PWR_STATUS_STATE 0 1).when (!none_) (fun t => t.each (List.range 4) (fun g u => u.oflWake g))
    let s := s.each (List.range 16) (fun c t => t.ungateCluster c)
    (s.raise Ev.PWR_DEEP_IDLE_EXIT).raise Ev.PWR_STATE
  else s)

/-! ### The core PLL (R410) -/

/-- The core PLL loses lock: its output is held stopped. -/
def execCorePllUnlock (s : State) : Step :=
  .next (if s.powered ∧ s.supply.pllAt = none then
    ({ s with supply := { s.supply with pllAt := some s.now } } : State).raise Ev.PWR_CORE_PLL_UNLOCK else s)

/-- It relocks within 10 ms. -/
def execCorePllRelock (s : State) : Step :=
  match s.supply.pllAt with
  | some t => .next (if s.now ≤ t + 10000000 ∧ s.fatal = none then { s with supply := { s.supply with pllAt := none } } else s)
  | none => .next s

/-- It has not relocked within 10 ms: FATAL; the CAUSE is a free value (log 158). -/
def execCorePllTimeout (s : State) : Step :=
  match s.supply.pllAt with
  | some t => .next (if t + 10000000 ≤ s.now then s.used.fatalError (s.fresh % 256) 0xE000 else s)
  | none => .next s

/-! ### Resets (R392, R412, R416, R419) -/

/-- The reset of a FATAL error: warm, or cold when it is the second within 10 s of the boot after the first. -/
def execFatalResetTimeout (io : BootIo) (s : State) : Step :=
  match s.fatal with
  | none => .next s
  | some t =>
    let second := match s.fatalBoot with
      | some b => decide (t ≤ b + 10000000000)
      | none => false
    .next (if s.now < t + 2000000 ∧ s.journal.backlog ≠ [] then s
      else if second then s.coldReset 5 io
      else s.resetBoot 2 (if s.rd F.GLB_FATAL_CAUSE_UNIT 0 = 0xE000 then 8 else 4) s.flash.active io)

/-- FW_READY has not come within 3 s: a cold reset boots the other slot. -/
def execBootWatchdog (io : BootIo) (s : State) : Step :=
  match s.supply.bootAt with
  | none => .next s
  | some t => .next (if s.powered ∧ !s.fwUp ∧ t + 3000000000 ≤ s.now then
      let u : State := { s with supply := { s.supply with slotFailed := (s.fwSlot :: s.supply.slotFailed).eraseDups } }
      u.resetBoot 1 7 (1 - s.fwSlot) io
    else s)

/-- A write of GLB_RESET that resets the adapter: with the key, COLD before WARM; with another key it is ignored and logged. -/
def State.glbReset (s : State) (v : Nat) (io : BootIo) : State :=
  if bits v 23 8 ≠ 0x5A5A then s.logFwWrite 0x400 v
  else
    let s := s.wr F.GLB_RESET_CLUSTER_ID 0 (bits v 3 0)
    if bit v 31 then s.coldReset 2 io else s.resetBoot 2 2 s.flash.active io

/-- GLB_RESET.COLD. -/
def execGlbResetCold (fn v : Nat) (io : BootIo) (s : State) : Step := .next (s.asManager fn (fun t => t.glbReset (putBits v 31 31 1) io))

/-- GLB_RESET.WARM. -/
def execGlbResetWarm (fn v : Nat) (io : BootIo) (s : State) : Step := .next (s.asManager fn (fun t => t.glbReset (putBits v 30 30 1) io))

/-- The physical engine of a logical one. -/
def State.physOf (s : State) (c e : Nat) : Nat := bits (s.rd F.BRW_ENGINE_MAP_PHYS c) (4 * e + 3) (4 * e)

/-- A cluster is reset: its packets end as for ABORT, its threads and control store are new, its engines tested (R419). failed
names the physical engines of the cluster that fail their test. -/
def State.clusterReset (s : State) (c : Nat) (failed : List Nat) : State :=
  let ts := (List.range 64).map (fun k => 64 * c + k) ++ s.twins c
  let s := s.each (ts.filter (fun t => (s.thread t).pkt.isSome)) (fun t u => u.abortThread t 0xFD)
  let s := (s.copyBanks c).freshThreads ts
  let s : State := { s with clusters := s.clusters.set c { gated := (s.clusters.get c).gated, idleSince := s.now } }
  let bad (e : Nat) : Bool := failed.contains (s.physOf c e)
  let s := if bad 0 then s.fenceUnit (unitCluster c) 0 1 [] else (s.wr F.BRW_CTRL_FENCED c 0).unfence (unitCluster c) 0
  let s := s.each (List.range 8) (fun e t => if bad e then t.fenceUnit (unitEngine c (s.physOf c e)) 0 1 [] else t.restoreEngine c (s.physOf c e))
  s.when (s.on F.BRW_CTRL_EN c && !bad 0) (fun t => t.startSup c)

/-- GLB_RESET.CLUSTER: while an epoch is STAGING or ARMED the reset waits with BUSY set, until the command is given again
(log 160). -/
def State.glbResetCluster (s : State) (v : Nat) (failed : List Nat) : State :=
  let waits := s.on F.GLB_EPOCH_STATUS_STAGING 0 || s.on F.GLB_EPOCH_STATUS_ARMED 0
  let s := if s.on F.GLB_RESET_BUSY 0 then s else s.wr F.GLB_RESET_CLUSTER_ID 0 (bits v 3 0)
  if waits then s.wr F.GLB_RESET_BUSY 0 1 else (s.clusterReset (s.rd F.GLB_RESET_CLUSTER_ID 0) failed).wr F.GLB_RESET_BUSY 0 0

/-- GLB_RESET.CLUSTER. -/
def execGlbResetCluster (fn v : Nat) (failed : List Nat) (s : State) : Step := .next (s.asManager fn (fun t => t.glbResetCluster v failed))

end Sys2Proof.Machine
end

