-- ==== Sys2Proof/Machine/Mac.lean ====
section
/-! DEFINITION. The MACs of the network ports: a frame received and a frame transmitted (spec/03_ports.md R69 to R73, R78, R79;
spec/01_architecture.md R18, R25; spec/02_time_base.md R52, R63; spec/10_redundancy.md R258). -/

namespace Sys2Proof.Machine

/-! ### Receive -/

/-- A received frame takes the next value of its port's receive count: bits [63:0] of its key (spec/09 R241). -/
def State.rxKey (s : State) (port : Nat) : State × Nat :=
  let n := s.rxSeq.get port
  ({ s with rxSeq := s.rxSeq.set port ((n + 1) % 2 ^ 47) }, s.rd F.REL_DEVICE_NUM 0 * 2 ^ 52 + port * 2 ^ 48 + n)

/-- A frame that goes on: MACsec, whose failed input check drops it (spec/07_offloads.md R202), FRER identification, steering to a pipeline by the frame as received, then Grinder's queue
(log 162). -/
def State.admitRx (s : State) (port : Nat) (x : RxFrame) (keyLo : Nat) (bad : Bool) : State :=
  let pipe := 2 * (port / 8) + steeringHash x.data % 2
  let stamp := s.rxStamp port x.phase x.symbol
  let sec := s.on F.OFL_MACSEC_PORT_EN port
  let m := s.macsecRx port x.data
  if x.badCell && sec then (s.count .OFL_CTR (port / 4) C.OFL_CELL_CHECK).cellCheck (unitPipe pipe) else
  match m.2 with
  | none => m.1
  | some f =>
    let r := m.1.frerIdentify port f
    if bad && r.2.1 == .frer then r.1
    else if r.1.noPipe pipe then r.1.discard (unitPipe pipe) 1
    else r.1.addPkt
      { stage := r.2.1, member := r.2.2, data := f, port := port, pipe := s.servingPipe pipe, epoch := s.epochAt (shortOf stamp), stamp := stamp
        badFcs := bad, badCell := x.badCell, key := shortOf stamp * W64 + keyLo }

/-- The counts of a stomped frame (R73). -/
def State.countStomped (s : State) (port : Nat) (x : RxFrame) : State :=
  s.when (x.fcs == .stomped) (fun t => (t.count .PRT_CTR port C.PRT_RX_FCS_ERR).count .PRT_CTR port C.PRT_RX_STOMPED)

/-- What the MAC does with a reassembled frame (R70, R73). A frame outside the length limits that also meets no credit counts by
its length: DESIGN CHOICE, log 196. -/
def State.macRx (s : State) (port : Nat) (x : RxFrame) (keyLo : Nat) : State :=
  let len := x.data.length + 4
  let c (s : State) (k : Nat) : State := s.count .PRT_CTR port k
  let s := s.countRxAll port len
  let good := x.fcs == .good
  if len < 64 then c (s.countStomped port x) (if good then C.PRT_RX_UNDERSIZE else C.PRT_RX_FRAGMENT)
  else if s.rd F.PRT_MAC_CFG_MAX_FRAME port < len then c (s.countStomped port x) (if good then C.PRT_RX_OVERSIZE else C.PRT_RX_JABBER)
  else if x.noCredit || !s.rxCredit port then c s C.PRT_RX_DROP
  else if !good then
    let s := if x.fcs == .stomped then s.countStomped port x else c s C.PRT_RX_FCS_ERR
    if x.cutThrough && !s.on F.OFL_MACSEC_PORT_EN port then s.admitRx port x keyLo true else s
  else if beAt x.data 12 2 = 0x8808 then ((s.countRxGood port x.data).macControl port x.data).loseDeficits port
  else (s.countRxGood port x.data).admitRx port x keyLo false

/-- What the PCS and the MAC merge layer count: corrected and uncorrectable codewords, with the rate threshold and the event, and
SMD errors (R79, R86). -/
def State.countPcs (s : State) (port : Nat) (x : RxFrame) : State :=
  let fec := s.rd F.PRT_STATUS_ACTIVE_MODE port != 7
  let s := s.when fec (fun t => ((t.countBy .PRT_CTR port C.PRT_FEC_CORRECTED x.fecCorrected).countBy .PRT_CTR port C.PRT_FEC_UNCORRECTED
    x.fecUncorrected).rateCount (Ev.PRT_FEC_DEGRADED port) x.fecCorrected)
  (s.when (fec && x.fecUncorrected != 0) (fun t => t.raiseMs (Ev.PRT_FEC_UNCORRECTED port))).countBy .PRT_CTR port C.PRT_MM_SMD_ERR x.smdErr

/-- A flow-control frame takes a value of the receive count too: its reception has begun (spec/09 R241). -/
def State.rxControl (s : State) (port : Nat) : State :=
  (((s.rxKey port).1.countRxAll port 64).countRxOk port 0x0180C2000001 64)

/-- A good 64-byte PAUSE frame arrives on a port that is up. -/
def execRxPauseFrame (port time : Nat) (s : State) : Step :=
  .next (if port < 16 ∧ s.on F.PRT_STATUS_LINK_UP port then ((s.rxControl port).rxPause port time).loseDeficits port else s)

/-- A good 64-byte PFC frame arrives: its enable vector and the times of priorities 0 to 7. -/
def execRxPfcFrame (port enable : Nat) (times : List Nat) (s : State) : Step :=
  .next (if port < 16 ∧ s.on F.PRT_STATUS_LINK_UP port then ((s.rxControl port).rxPfc port enable times).loseDeficits port else s)

/-- The MAC of a port that is up receives a frame; a fragment sequence that fails reassembly is discarded (R78). -/
def execMacRxFrame (port : Nat) (x : RxFrame) (s : State) : Step :=
  .next (if port < 16 ∧ s.on F.PRT_STATUS_LINK_UP port ∧ !s.isFenced (unitPort port) 0 ∧ s.fatal = none then
    let k := (s.countPcs port x).rxKey port
    let s := k.1.countBy .PRT_CTR port C.PRT_MM_FRAG_RX x.frags
    if x.assyErr then s.count .PRT_CTR port C.PRT_MM_ASSY_ERR
    else (s.when (x.frags != 0) (fun t => t.count .PRT_CTR port C.PRT_MM_ASSY_OK)).macRx port x k.2
  else s)

/-! ### One-step PTP (spec/02_time_base.md R63) -/

/-- One-step insertion with the egress stamp in 2^-16 ns: in Sync the whole nanoseconds go to originTimestamp and the rest to
correctionField; of another message correctionField grows by the residence time (DEDUCED, log 163). -/
def Packet.oneStepFrame (p : Packet) (f : Bytes) (ptp udp stamp : Nat) : Bytes :=
  if beAt f ptp 1 % 16 = 0 then ptpWrite f ptp udp (beAt f (ptp + 8) 8 + stamp % 65536) (some (stamp / 65536))
  else ptpWrite f ptp udp (beAt f (ptp + 8) 8 + p.residence stamp) none

/-- The PTP changes of a departing frame: one-step insertion, skipped on a MACsec port
(spec/12_queues_and_rings.md R306); residence time of event messages. -/
def State.ptpTx (s : State) (port : Nat) (p : Packet) (f : Bytes) (stamp : Nat) : State × Bytes :=
  match p.oneStep with
  | some (ptp, udp) =>
    let shift := f.length - p.data.length
    if s.on F.OFL_MACSEC_PORT_EN port then (s.ringCount p.ring C.QM_ONESTEP_SKIPPED 1, f)
    else (s, p.oneStepFrame f (ptp + shift) (if udp = 0 then 0 else udp + shift) stamp)
  | none => (s, p.resided f stamp)

/-! ### Transmit -/

/-- The frame of one kind, express or preemptable, that a port's MAC may start: of the frames first of their queue, the oldest it
was handed that may start now. -/
def State.readyAt (s : State) (port : Nat) (pre : Bool) : Option (Nat × Packet) :=
  let l := s.pkts.filter (fun e => e.2.stage == .txCell port)
  let ok := l.filter (fun e => l.all (fun o => o.2.queue != e.2.queue || decide (e.2.handed ≤ o.2.handed)) && s.mayLeave port e.2 &&
    s.preemptable port (s.node 3 e.2.queue).tc == pre)
  ok.foldl (fun (a : Option (Nat × Packet)) e => match a with
    | some b => if b.2.handed ≤ e.2.handed then some b else some e
    | none => some e) none

/-- The frame the MAC of a port starts next: express before preemptable, and no preemptable one while another waits at a cut
point (R78). -/
def State.nextTx (s : State) (port : Nat) : Option (Nat × Packet) :=
  (s.readyAt port false).orElse (fun _ => if (s.txNow.getD (2 * port + 1) none).isSome then none else s.readyAt port true)

/-- The stamp of a departing frame enters the FIFO when it was asked for (spec/09_release_and_evidence.md R243, R245). -/
def State.stampTx (s : State) (port : Nat) (p : Packet) (stamp : Nat) : State :=
  if !p.wantStamp && !p.stampAll then s
  else
    let jobWants := match p.job.bind s.job with
      | some b => b.wantStamp
      | none => false
    s.takeStamp port (shortOf stamp) (if p.wantStamp && jobWants then p.job else none) (if p.fromWire then none else some p.ring) p.wantStamp

/-- A frame leaves, with the correct FCS or stomped (R72). -/
def State.departs (s : State) (port h : Nat) (f : Bytes) (stomp : Bool) : State :=
  let g := if f.length < 60 then fit 60 f else f
  if stomp then s.stompOut port h g
  else ((s.wire port f).countTx port g (g.length + 4)).endPkt h true 0 ((s.pkt h).getD {}).ofl

/-- A preemptable frame in progress has to give way: its class is held, a Set-And-Hold-MAC entry is in force, or express
traffic is ready (R74, R78; spec/08_traffic_manager.md R218). -/
def State.givesWay (s : State) (port : Nat) (x : TxNow) : Bool :=
  s.classHeld port (s.node 3 ((s.pkt x.h).getD {}).queue).tc || s.holdMac port || !x.after.isEmpty || (s.readyAt port false).isSome

/-- The frame in progress ends, stays in progress, or ends a fragment at a legal cut point where it has to give way; generated
frames follow what is on the wire. A stomped frame counts in no other transmit counter (R72). -/
def State.carry (s : State) (port k : Nat) (x : TxNow) (stop : TxEnd) : State :=
  let put (t : State) (y : Option TxNow) : State := { t with txNow := t.txNow.setD k y none }
  match stop with
  | .whole =>
    ((((put s none).when (!x.stomp) (fun t => t.countBy .PRT_CTR port C.PRT_MM_FRAG_TX x.frags)).departs port x.h x.data x.stomp).each x.after
      (fun f t => t.wire port f))
  | .midway => put s (some x)
  | .fragment =>
    if k % 2 = 1 ∧ s.givesWay port x then
      (put s (some { x with cut := true, frags := x.frags + 1, after := [] })).each x.after (fun f t => t.wire port f)
    else put s (some x)

/-- A frame in progress goes on. -/
def State.goOn (s : State) (port k : Nat) (x : TxIo) : State :=
  let s := s.when x.badCell (fun t => t.cellCheck (unitPort port))
  match s.txNow.getD k none with
  | none => s
  | some y => s.carry port k { y with cut := false, stomp := y.stomp || x.badCell || x.starved } x.stop

/-- MACsec encrypts or authenticates a frame of the port; a failed check of its input drops it (spec/07_offloads.md R202). -/
def State.macsecSeals (s : State) (port : Nat) (f : Bytes) : Bool :=
  s.on F.OFL_MACSEC_PORT_EN port && s.on F.OFL_MACSEC_PORT_PROTECT port && beAt f 12 2 != eapolType && (s.txSa port).isSome

/-- The MAC of a port starts a frame: lateness, R-TAG, PTP, MACsec, length and stamp, which a preempted frame takes at its first
fragment (R70, R72, R78; spec/08_traffic_manager.md R221). -/
def State.startTx (s : State) (port h : Nat) (p : Packet) (x : TxIo) : State :=
  let half := p.queue / 32768
  let n := s.node 3 p.queue
  let stamp := s.txStamp port x.phase
  let late := p.isLate n (shortOf stamp)
  if late && !n.lateSend then s.dropLate half h
  else
    let s := s.when late (fun t => t.sentLate half h p)
    let f := match p.rtag with
      | some n => insertRTag p.data n
      | none => p.data
    let a := s.ptpTx port p f stamp
    let bad := x.badCell || p.badCell
    let m := if bad && s.macsecSeals port a.2 then (((a.1.count .OFL_CTR (port / 4) C.OFL_CELL_CHECK).cellCheck (unitPipe p.pipe)), none)
      else a.1.macsecTx port a.2
    match m.2 with
    | none => m.1.used.dropPkt h (m.1.fresh % 256)
    | some g =>
      if s.rd F.PRT_MAC_CFG_MAX_FRAME port < max 64 (g.length + 4) then m.1.dropPkt h 2
      else
        let s := m.1.when bad (fun t => t.cellCheck (unitPort port))
        let k := 2 * port + b2n (s.preemptable port n.tc)
        ((s.stampTx port p stamp).moveTo h (.sending port)).carry port k { h := h, data := g, stomp := bad || x.starved || p.badFcs } x.stop

/-- Frames at a MAC that can never start any more under the operational list are dropped (spec/08_traffic_manager.md R217). -/
def State.dropStuck (s : State) (port : Nat) : State :=
  s.each (s.pkts.filter (fun e => e.2.stage == .txCell port && s.gateTooLong port (s.node 3 e.2.queue).tc e.2.data.length)) (fun e t =>
    t.tmDrop (e.2.queue / 32768) C.TM_GATE_TOO_LONG Ev.TM_GATE_TOO_LONG e.1 8)

/-- The MAC of a port transmits: the frame in progress goes on, else the next frame starts, else a preempted frame resumes once no
hold stands against it. While the link is down or the port fenced the frames handed to it are discarded (R69). -/
def State.macTx (s : State) (port : Nat) (x : TxIo) : State :=
  if 16 ≤ port then s
  else match s.onWire port with
    | some k => s.goOn port k x
    | none =>
      if !s.on F.PRT_STATUS_LINK_UP port ∨ s.isFenced (unitPort port) 0 then
        match s.atStage (.txCell port) with
        | [] => s
        | h :: _ => (s.count .PRT_CTR port C.PRT_TX_DROP_LINK_DOWN).dropPkt h 0x0C
      else
        let s := s.dropStuck port
        match s.nextTx port with
        | some (h, p) => s.startTx port h p x
        | none => match s.txNow.getD (2 * port + 1) none with
          | some y => if s.classHeld port (s.node 3 ((s.pkt y.h).getD {}).queue).tc || s.holdMac port then s else s.goOn port (2 * port + 1) x
          | none => s

/-- MAC_TX_FRAME: what the MAC meets comes with the command. -/
def execMacTxFrame (port : Nat) (cells : TxCells) (phase : Nat) (stop : TxEnd) (s : State) : Step :=
  .next (s.macTx port { toTxCells := cells, phase := phase, stop := stop })

/-- A launch-time frame that its MAC holds starts at its launch time, or is judged late, when the port is idle, its gate open and
no hold applies (spec/08_traffic_manager.md R220, R221). -/
def execLaunchTimeStart (x : HeadStart) (s : State) : Step :=
  let port := s.queuePort x.q
  let mine := s.pkts.filter (fun e => e.2.stage == .txCell port && e.2.queue == x.q)
  match mine.find? (fun e => mine.all (fun o => decide (e.2.handed ≤ o.2.handed))) with
  | none => .next s
  | some (h, p) =>
    .next (if port < 16 ∧ p.launch.isSome ∧ (s.node 3 x.q).ltEn ∧ s.mayLeave port p ∧ s.onWire port = none ∧ s.on F.PRT_STATUS_LINK_UP port ∧
        !s.isFenced (unitPort port) 0 ∧ (!s.preemptable port (s.node 3 x.q).tc ∨ s.txNow.getD (2 * port + 1) none = none) then
      s.startTx port h p x.io else s)

end Sys2Proof.Machine
end

