-- ==== Sys2Proof/Machine/ConfigSpace.lean ====
section
/-! DEFINITION. Configuration space of a function: identifying values, BARs, the capability chain and the fields of its structures that
the spec names (spec/11_host_interface.md R271, R273, R275 to R277). The places of fields within a structure and the capability
numbers are PCI Express' (PRESUMED, log 210). -/

namespace Sys2Proof.Machine

/-- The size of a function's MSI-X table: its Table Size. -/
def State.msixSize (s : State) (f : Nat) : Nat := if s.recovery then 1 else if f < 4 then 2048 else 64

/-- The offset of a function's MSI-X table and of its PBA. -/
def State.msixAt (s : State) : Nat := if s.recovery then 0x3000 else 0x10000
def State.pbaAt (s : State) : Nat := if s.recovery then 0x3800 else 0x18000

/-- Function 0 of its link: its PF stands first there (R272). -/
def State.fn0 (s : State) (f : Nat) : Bool := decide (f < 4) && (f % 2 == 0 || s.bifurcated.get (s.hostPort f))

/-- The capability structures a function has: offset and capability number, in ascending order (R276). -/
def State.caps (s : State) (f : Nat) : List (Nat × Nat) :=
  let link := if s.fn0 f then [(0x200, 0x19), (0x220, 0x25), (0x230, 0x26), (0x260, 0x2A), (0x290, 0x31), (0x2C0, Config.capId128.toNat), (0x300, 0x27)] else []
  let base := [(0x40, 0x01), (0x50, 0x10), (0x90, 0x11), (0x100, 0x01)]
  if s.recovery then base
  else if f < 4 then base ++ [(0x148, 0x0E), (0x150, 0x03), (0x160, 0x10), (0x1A0, 0x0F), (0x1B0, 0x13), (0x1C0, 0x1B), (0x1D0, 0x0D)] ++ link
  else base ++ [(0x148, 0x0E), (0x1A0, 0x0F), (0x1B0, 0x13), (0x1C0, 0x1B)]

/-- The structure that follows the one at an offset in the chain, 0 for none; extended structures are chained from 0x100. -/
def nextCap (caps : List (Nat × Nat)) (off : Nat) : Nat :=
  ((caps.find? (fun c => decide (off < c.1) && (decide (c.1 < 256) == decide (off < 256)))).map (·.1)).getD 0

/-- The header of a structure: its number, version 1 of an extended one, and the next. -/
def capHeader (caps : List (Nat × Nat)) (off id : Nat) : Nat :=
  if off < 256 then id + 2 ^ 8 * nextCap caps off else id + 2 ^ 16 + 2 ^ 20 * nextCap caps off

/-- Vendor and Device ID, and class code (R275). A VF's own Device ID reads all ones, as SR-IOV requires of it too. -/
def State.idWord (s : State) (f : Nat) : Nat :=
  if s.recovery then Config.fuseVendor.toNat + 2 ^ 16 * 0xB32F
  else if f < 4 then Config.fuseVendor.toNat + 2 ^ 16 * 0xB320 else 0xFFFFFFFF
def State.classWord (s : State) : Nat := 0xA1 + 2 ^ 8 * (if s.recovery then 0xFF0000 else 0x020000)

/-- Subsystem Vendor ID and ID: the board record's, or the vendor's value and 0 (R275). -/
def State.subsysWord (s : State) : Nat :=
  if bit (leAt s.board 0x14 4) 0 then leAt s.board 0x10 4 else Config.fuseVendor.toNat

/-- Bits of BAR0 and BAR2 that address their contents; none for a BAR a function does not have (R277). -/
def State.bar0Bits (s : State) : Nat := if s.recovery then 16 else 22
def State.hasBar2 (s : State) (f : Nat) : Bool := mayManage f && !s.recovery

/-- A 64-bit non-prefetchable BAR as its two words read. -/
def barWord (addr k : Nat) : Nat := if k = 0 then addr % 2 ^ 32 + 4 else addr / 2 ^ 32

/-- First VF Offset of a PF (R273). -/
def State.firstVf (s : State) (f : Nat) : Nat :=
  if s.bifurcated.get (s.hostPort f) then 1 else if f % 2 = 0 then 2 else 1 + s.share (f - 1)

/-- The next function of the link that ARI names: PF(2k+1) after PF(2k). -/
def State.nextFn (s : State) (f : Nat) : Nat := if f < 4 ∧ f % 2 = 0 ∧ !s.bifurcated.get (s.hostPort f) then 1 else 0

/-- Words of a structure beside its header, by the structure's offset and the word's place in it; none where the spec names no field of
the word. -/
def State.capWord (s : State) (f cap o : Nat) : Option Nat :=
  let g := s.fn f
  let rest := (Config.cfgRest f (cap + o)).toNat
  match cap, o with
  -- Power Management: D1 and D2 not supported; No_Soft_Reset
  | 0x40, 4 => some (3 * b2n g.d3 + 8)
  -- PCI Express: FLR, Max_Payload_Size of 512 bytes; Completion Timeout Value 0 and nothing of it supported; Device Readiness Status
  | 0x50, 4 => some (putBits (putBits rest 2 0 2) 28 28 1)
  | 0x50, 8 => some (if f < 4 then 2 ^ 5 * g.mps + 2 ^ 12 * g.mrrs else 0)
  | 0x50, 0x24 => some (putBits rest 4 0 0)
  | 0x50, 0x28 => some (putBits rest 3 0 0)
  | 0x50, 0x2C => some (putBits rest 31 31 1)
  -- MSI-X: table and PBA in BAR0
  | 0x90, 4 => some s.msixAt
  | 0x90, 8 => some s.pbaAt
  -- Advanced Error Reporting: ECRC generation and checking
  | 0x100, 0x18 => some (putBits rest 8 5 (1 + 2 * b2n g.ecrcGen + 4 + 8 * b2n g.ecrcCheck))
  | 0x148, 4 => some (2 ^ 8 * s.nextFn f)
  | 0x150, 4 => some (Config.fuseCert 0).toNat
  | 0x150, 8 => some (Config.fuseCert 1).toNat
  -- SR-IOV
  | 0x160, 8 => some (putBits rest 0 0 (b2n g.vfEnable))
  | 0x160, 0xC => some (s.share f + 2 ^ 16 * s.share f)
  | 0x160, 0x10 => some (putBits rest 15 0 g.numVfs)
  | 0x160, 0x14 => some (s.firstVf f + 2 ^ 16)
  | 0x160, 0x18 => some (putBits rest 31 16 0xB321)
  | 0x160, 0x24 => some (barWord g.vfBar 0)
  | 0x160, 0x28 => some (barWord g.vfBar 1)
  -- ATS: Page Aligned Request, Invalidate Queue Depth 0
  | 0x1A0, 4 => some (putBits (putBits rest 5 0 32) 31 31 (b2n g.ats))
  -- Page Request: enable, Stopped, capacity, allocation
  | 0x1B0, 4 => some (putBits (putBits rest 1 0 (b2n g.priEn)) 24 24 (b2n g.priStopped))
  | 0x1B0, 8 => some (if f < 4 then 512 else 64)
  | 0x1B0, 0xC => some g.priAlloc
  -- PASID: width 20, no Execute, no Privileged Mode
  | 0x1C0, 4 => some (putBits (20 * 256) 16 16 (b2n g.pasidEn))
  -- ACS: Source Validation, Translation Blocking, Request and Completion Redirect, Upstream Forwarding
  | 0x1D0, 4 => some (0x1F + 2 ^ 16 * g.acs)
  | _, _ => none

/-- What a structure's header carries beside number and chain: PCI Express for an endpoint, the Power Management version, MSI-X
control. -/
def State.capHigh (s : State) (f cap : Nat) : Nat :=
  match cap with
  | 0x40 => 2 ^ 16 * 3
  | 0x50 => 2 ^ 16 * 2
  | 0x90 => 2 ^ 16 * (s.msixSize f - 1) + 2 ^ 30 * b2n (s.fn f).fnMask + 2 ^ 31 * b2n (s.fn f).msixEn
  | _ => 0

/-- The structure an offset lies in: the last that begins at or before it. -/
def capOf (caps : List (Nat × Nat)) (off : Nat) : Option (Nat × Nat) :=
  caps.foldl (fun a c => if c.1 ≤ off ∧ (decide (c.1 < 256) == decide (off < 256)) then some c else a) none

/-- An aligned 32-bit word of a function's configuration space; a word of which the spec names nothing is the part's own. -/
def State.cfgWord (s : State) (f off : Nat) : Nat :=
  let g := s.fn f
  match off with
  | 0x00 => s.idWord f
  | 0x04 => 4 * b2n g.bme + 2 ^ 10 * b2n g.intDisable + 2 ^ 20
  | 0x08 => s.classWord
  | 0x10 => if f < 4 then barWord g.bar0 0 else 0
  | 0x14 => if f < 4 then barWord g.bar0 1 else 0
  | 0x18 => if s.hasBar2 f then barWord g.bar2 0 else 0
  | 0x1C => if s.hasBar2 f then barWord g.bar2 1 else 0
  | 0x20 => 0
  | 0x24 => 0
  | 0x2C => s.subsysWord
  | 0x34 => 0x40
  -- Interrupt Pin 0
  | 0x3C => putBits (Config.cfgRest f off).toNat 15 8 0
  | _ => match capOf (s.caps f) off with
    | none => (Config.cfgRest f off).toNat
    | some (c, id) =>
      if c = off then capHeader (s.caps f) c id + s.capHigh f c
      else (s.capWord f c (off - c)).getD (Config.cfgRest f off).toNat

/-! ### Writes -/

/-- A BAR takes the address bits above its size. -/
def setBar (addr size k v : Nat) : Nat := (if k = 0 then putBits addr 31 0 v else putBits addr 63 32 v) / 2 ^ size * 2 ^ size

/-- ATS Enable, PASID Enable and PRI Enable as a write leaves them. -/
def State.atsWrite (s : State) (f : Nat) (on : Bool) : State :=
  if on then s.modFn f (fun g => { g with ats := true }) else if (s.fn f).ats then s.atsDisable f else s
def State.pasidWrite (s : State) (f : Nat) (on : Bool) : State :=
  if on then s.modFn f (fun g => { g with pasidEn := true }) else if (s.fn f).pasidEn then s.pasidDisable f else s

/-- The Command register: Bus Master Enable, and Interrupt Disable, which has no effect. -/
def State.commandWrite (s : State) (f v : Nat) : State :=
  let s := s.modFn f (fun g => { g with intDisable := bit v 10 })
  if bit v 2 then (if (s.fn f).bme then s else (execBmeSet f s).after s) else (execBmeClear f s).after s

/-- Device Control: sizes of a PF that the port supports, and an initiated FLR (R271, R276). -/
def State.deviceWrite (s : State) (f v : Nat) : State :=
  let s := s.when (decide (f < 4 ∧ bits v 7 5 ≤ 2)) (fun t => t.modFn f (fun g => { g with mps := bits v 7 5 }))
  let s := s.when (decide (f < 4 ∧ bits v 14 12 ≤ 5)) (fun t => t.modFn f (fun g => { g with mrrs := bits v 14 12 }))
  if bit v 15 ∧ !s.recovery then (execFlrStart f s).after s else s

/-- A write of a word of a structure that the function has. -/
def State.capWrite (s : State) (f cap o v : Nat) : State :=
  match cap, o with
  | 0x40, 4 => if v % 4 = 0 ∨ v % 4 = 3 then (execDStateChange f (v % 4 == 3) s).after s else s
  | 0x50, 8 => s.deviceWrite f v
  | 0x90, 0 => (s.msixWrite f (.fnMask (bit v 30))).msixWrite f (.enable (bit v 31))
  | 0x100, 0x18 => s.modFn f (fun g => { g with ecrcGen := bit v 6, ecrcCheck := bit v 8 })
  | 0x160, 8 => (execVfEnableWrite f (bit v 0) (s.fn f).numVfs s).after s
  | 0x160, 0x10 =>
    if (s.fn f).vfEnable ∨ (s.fn f).numVfs = v % 2 ^ 16 then s
    else (s.modFn f (fun g => { g with numVfs := v % 2 ^ 16 })).raise (Ev.HIF_VF_ENABLE (s.hostPort f))
  | 0x160, 0x24 => s.modFn f (fun g => { g with vfBar := setBar g.vfBar 18 0 v })
  | 0x160, 0x28 => s.modFn f (fun g => { g with vfBar := setBar g.vfBar 18 1 v })
  | 0x1A0, 4 => s.atsWrite f (bit v 31)
  | 0x1B0, 4 => s.modFn f (fun g => { g with priEn := bit v 0, priStopped := g.priStopped && !bit v 1 })
  | 0x1B0, 0xC => s.modFn f (fun g => { g with priAlloc := v })
  | 0x1C0, 4 => s.pasidWrite f (bit v 16)
  | 0x1D0, 4 => s.modFn f (fun g => { g with acs := bits v 20 16 })
  | _, _ => s

/-- A write of an aligned 32-bit word of configuration space. -/
def State.cfgWordWrite (s : State) (f off v : Nat) : State :=
  match off with
  | 0x04 => s.commandWrite f v
  | 0x10 => if f < 4 then s.modFn f (fun g => { g with bar0 := setBar g.bar0 s.bar0Bits 0 v }) else s
  | 0x14 => if f < 4 then s.modFn f (fun g => { g with bar0 := setBar g.bar0 s.bar0Bits 1 v }) else s
  | 0x18 => if s.hasBar2 f then s.modFn f (fun g => { g with bar2 := setBar g.bar2 29 0 v }) else s
  | 0x1C => if s.hasBar2 f then s.modFn f (fun g => { g with bar2 := setBar g.bar2 29 1 v }) else s
  | _ => match capOf (s.caps f) off with
    | some c => s.capWrite f c.1 (off - c.1) v
    | none => s

/-- Configuration space answers: supplied, PERST_N deasserted, and a function the adapter presents (spec/18_power_reset_package.md
R412, R413). -/
def State.cfgOpen (s : State) (f : Nat) : Bool :=
  s.supply.power == .on && decide (f < 2052) && !s.perst.get (s.hostPort f) && (if s.recovery then f == 0 || f == 2 else s.fnExists f)

/-- A configuration access is aligned within a word: 1, 2 or 4 bytes. -/
def cfgSize (off size : Nat) : Bool := [1, 2, 4].contains size && off % size == 0 && decide (off < 4096)

/-- A configuration write; before firmware serves, requests are completed with Request Retry Status. -/
def State.cfgWrite (s : State) (f off size v : Nat) : State :=
  if !s.cfgOpen f || !cfgSize off size then s
  else if !s.fwUp then s.send (.retryStatus f off)
  else
    let w := off / 4 * 4
    let lo := 8 * (off % 4)
    s.cfgWordWrite f w (putBits (s.cfgWord f w % 2 ^ 32) (lo + 8 * size - 1) lo v)

/-- A configuration read. -/
def State.cfgRead (s : State) (f off size : Nat) : State :=
  if !s.cfgOpen f || !cfgSize off size then s
  else if !s.fwUp then s.send (.retryStatus f off)
  else s.send (.readValue f (2 ^ 32 + off) (s.cfgWord f (off / 4 * 4) / 2 ^ (8 * (off % 4)) % 2 ^ (8 * size)))

end Sys2Proof.Machine
end

