-- ==== Sys2Proof/Machine/Package.lean ====
section
/-! DEFINITION. The package's balls: their names and the signal at each (spec/18_power_reset_package.md R420). No command reads
them; they say which pin of State.out and of the commands lies where. -/

namespace Sys2Proof.Machine

/-- The 19 letters of row names. -/
def ballLetters : List String := ["A", "B", "C", "D", "E", "F", "G", "H", "J", "K", "L", "M", "N", "P", "T", "U", "V", "W", "Y"]

/-- The names of the 66 rows, from the network edge to the host edge. -/
def ballRows : List String :=
  ballLetters ++ ["A", "B", "C"].flatMap (fun p => (if p = "C" then ballLetters.take 9 else ballLetters).map (fun l => p ++ l))

/-- The name of the ball in a row and a column, both counted from 1. -/
def ballName (row col : Nat) : String := ballRows.getD (row - 1) "" ++ toString col

/-- What a ball carries. -/
inductive Ball
  | vin | vinAon | gnd | dnc
  | net (tx pos : Bool) (lane : Nat)
  | serdesRef (group : Nat) (pos : Bool)
  | pcie (tx pos : Bool) (lane : Nat)
  | pcieRef (host : Nat) (pos : Bool)
  | slow (signal : String)
deriving DecidableEq, Repr, Inhabited

/-- The slow signals of column 1, from row L on, and of column 66. -/
def slowLeft : List (String × String) :=
  [("L", "XSPI_SCK"), ("M", "XSPI_CS_N"), ("N", "XSPI_DQS"), ("P", "XSPI_DQ0"), ("T", "XSPI_DQ1"), ("U", "XSPI_DQ2"), ("V", "XSPI_DQ3"),
    ("W", "XSPI_DQ4"), ("Y", "XSPI_DQ5"), ("AA", "XSPI_DQ6"), ("AB", "XSPI_DQ7"), ("AC", "XSPI_RESET_N"), ("AD", "TCK"), ("AE", "TMS"),
    ("AF", "TDI"), ("AG", "TDO"), ("AH", "TRST_N"), ("AJ", "COLD_RST_N"), ("AK", "FORCE_RECOVERY_N"), ("AL", "AON_OK"),
    ("AM", "THERMTRIP_N"), ("AN", "THERM_ALERT_N"), ("AP", "XTAL25_IN"), ("AT", "XTAL25_OUT")]
def slowRight : List (String × String) :=
  [("L", "OVN_HEAT_G"), ("M", "OVN_HEAT_EN"), ("N", "OVN_NTC"), ("P", "OVN_OTREF"), ("T", "OVN_EFC"), ("U", "OVN_REF_IN"), ("V", "PPS_IN"),
    ("W", "PPS_OUT"), ("Y", "CLK10M_IN"), ("AA", "CLK10M_OUT"), ("AB", "NCSI_REFCLK"), ("AC", "NCSI_TXD0"), ("AD", "NCSI_TXD1"),
    ("AE", "NCSI_TX_EN"), ("AF", "NCSI_RXD0"), ("AG", "NCSI_RXD1"), ("AH", "NCSI_CRS_DV"), ("AJ", "MGMT_TX_P"), ("AK", "MGMT_TX_N"),
    ("AM", "MGMT_RX_P"), ("AN", "MGMT_RX_N"), ("AP", "PERST0_N"), ("AT", "PERST1_N"), ("AU", "CLKREQ0_N"), ("AV", "CLKREQ1_N"),
    ("AW", "WAKE0_N"), ("AY", "WAKE1_N")]

/-- The signal at a ball, by the name of its row and its column. -/
def ballAt (row : String) (col : Nat) : Ball :=
  let ix := ballRows.idxOf row + 1
  let slow (l : List (String × String)) : Option Ball := (l.find? (fun e => e.1 == row)).map (fun e => .slow e.2)
  let pair (n : Nat) (f : Bool → Nat → Ball) : Ball := f (col % 2 == 0) n
  if (row = "A" ∨ row = "CJ") ∧ (col = 1 ∨ col = 66) then .dnc
  else if 26 ≤ ix ∧ ix ≤ 45 ∧ 24 ≤ col ∧ col ≤ 43 then .vin
  else if ["AP", "AT", "AU", "AV"].contains row ∧ col = 2 then .vinAon
  else if (row = "A" ∨ row = "D") ∧ 2 ≤ col ∧ col ≤ 63 ∧ (col - 2) % 4 < 2 then .net (row = "A") ((col - 2) % 4 = 0) ((col - 2) / 4)
  else if (row = "CJ" ∨ row = "CF") ∧ 2 ≤ col ∧ col ≤ 65 then pair ((col - 2) / 2) (fun b m => .pcie (row = "CJ") b m)
  else if row = "F" ∧ (col = 30 ∨ col = 31 ∨ col = 36 ∨ col = 37) then pair (b2n (decide (36 ≤ col))) (fun b g => .serdesRef g b)
  else if row = "CC" ∧ (col = 30 ∨ col = 31 ∨ col = 36 ∨ col = 37) then pair (b2n (decide (36 ≤ col))) (fun b k => .pcieRef k b)
  else if col = 1 then (slow slowLeft).getD .gnd
  else if col = 66 then (slow slowRight).getD .gnd
  else .gnd

end Sys2Proof.Machine
end

