-- ==== Sys2Proof/Machine/Registers.lean ====
section
/-! DEFINITION. Host accesses of registers: addresses, writes by access type, live reads, latches and the windows of
BAR2 and BAR0 (spec/00_scope.md R9 to R15, spec/11_host_interface.md R277 to R282, spec/13_control_interface.md R335). -/

namespace Sys2Proof.Machine

/-! ### Addresses -/

/-- The element of a range that an offset falls into, and the byte within it. -/
def RegRange.find (g : RegRange) (size off : Nat) : Option (Nat × Nat) :=
  if off < g.base then none
  else
    let d := off - g.base
    let o := if g.ostride = 0 then 0 else d / g.ostride
    let r := d - o * g.ostride
    let i := if g.istride = 0 then 0 else r / g.istride
    let b := r - i * g.istride
    if o < g.ocount ∧ i < g.icount ∧ b < size then some (g.idx0 + g.omul * o + i, b) else none

/-- The register at an offset of a window: its name, its index and the byte within it. -/
def findReg (w : Window) (off : Nat) : Option (Reg × Nat × Nat) :=
  Reg.all.findSome? (fun r =>
    if r.desc.window == w then
      r.desc.ranges.findSome? (fun g => (g.find (if r.desc.wide then 8 else 4) off).map (fun p => (r, p.1, p.2)))
    else none)

/-! ### Writes of BAR2 -/

/-- A write sets RW fields, clears the W1C bits it names, and leaves every other field (R9, R13). -/
def State.plainWrite (s : State) (r : Reg) (i : Nat) (w : Width) (v : Nat) : State :=
  let old := s.val r i
  let m := merge w old v
  let x := match w with
    | .full => v
    | .low => v % 2 ^ 32
    | .high => v % 2 ^ 32 * 2 ^ 32
  s.each r.desc.fields (fun (d : FieldDesc) (t : State) => match d.access with
    | .RW => if d.legal.ok (d.hi + 1 - d.lo) (bits m d.hi d.lo) then t.wr ⟨r, d.hi, d.lo⟩ i (bits m d.hi d.lo) else t
    | .W1C => t.wr ⟨r, d.hi, d.lo⟩ i (bits old d.hi d.lo - (bits old d.hi d.lo &&& bits x d.hi d.lo))
    | _ => t)

/-- A write of a register of the ports' blocks. -/
def State.portWrite (s : State) (r : Reg) (i off v : Nat) : State :=
  match r with
  | .PRT_GROUP_APPLY => s.when (bit v 31) (fun t => t.groupApply i)
  | .PRT_CTRL => s.prtCtrlWrite i v
  | .PRT_PREEMPT => s.preemptWrite i v
  | .PRT_FC_CFG => (s.plainWrite r i .full v).fcDrop i
  | .PRT_FC_THRESH => if bits v 31 16 ≤ bits v 15 0 then s.logFwWrite off v else s.plainWrite r i .full v
  | _ => s.plainWrite r i .full v

/-- A write of a register of the time unit or the oven. -/
def State.timeWrite (s : State) (r : Reg) (i : Nat) (w : Width) (off v : Nat) : State :=
  match r with
  | .TSU_FREQ_OFFSET => s.setOffset (merge w (s.val r i) v)
  | .TSU_STEP | .TSU_STEP_AT => if s.on F.TSU_STEP_CTRL_ARM 0 then s.logFwWrite off v else s.plainWrite r i w v
  | .TSU_STEP_CTRL => s.stepCtrlWrite (bit v 31) (bit v 30) (bit v 29)
  | .TSU_SLEW_SET => s.slewWrite w v
  | .TSU_SLEW_RATE => s.setSlewRate (bits v 16 0)
  | .TSU_BOARD_DLY => s.setBoardDly i v
  | .TSU_REF => s.setRef (v % 4)
  | .OVN_CTRL => s.ovenCtrl v
  | .OVN_EFC => s.setEfc v
  -- OT_LATCH: its clear depends on the comparator's level, which OVN_OT_LATCH_CLEAR brings
  | .OVN_STATUS => s
  | _ => s.plainWrite r i w v

/-- A write of a copy channel's register. -/
def State.copyWrite (s : State) (r : Reg) (i : Nat) (w : Width) (off v : Nat) : State :=
  match r with
  | .CPY_CH_CFG => s.cpyCfg i w v
  | .CPY_CH_CTRL => s.cpyCtrl i v
  | .CPY_CH_LIMITS | .CPY_CH_HEAD => s.cpyIdleWrite i (off % 0x40) v (fun t => t.plainWrite r i w v)
  | _ => s

/-- A write by the manager of register r, element i, at an offset of BAR2; a register whose write acts is written by the
operation of its chapter, a firmware-owned one is logged (R9, R12, R15). -/
def State.regWrite (s : State) (r : Reg) (i : Nat) (w : Width) (off v : Nat) : State :=
  if r.desc.owner == .firmware then s.logFwWrite off v
  else match r with
    | .PRT_GROUP_APPLY | .PRT_CTRL | .PRT_PREEMPT | .PRT_FC_CFG | .PRT_FC_THRESH => s.portWrite r i off v
    | .TSU_FREQ_OFFSET | .TSU_STEP | .TSU_STEP_AT | .TSU_STEP_CTRL | .TSU_SLEW_SET | .TSU_SLEW_RATE | .TSU_BOARD_DLY
    | .TSU_REF | .OVN_CTRL | .OVN_EFC | .OVN_STATUS => s.timeWrite r i w off v
    | .CPY_CH_CFG | .CPY_CH_CTRL | .CPY_CH_LIMITS | .CPY_CH_HEAD => s.copyWrite r i w off v
    | .GLB_COUNTER_OWNER => s.ownerWrite v
    | .TBL_L2_CFG => s.l2CfgWrite i v
    | .TBL_L2_RD_CMD => s.l2ReadCmd v
    | .TBL_FLOW_CFG => s.flowCfgWrite v
    | .OFL_ENTROPY => if bits v 15 0 < bits v 31 16 then s.logFwWrite off v else s.plainWrite r i w v
    | .OFL_MACSEC_WINDOW => if 2 ^ 30 < v ∧ 2 ≤ s.rd F.OFL_MACSEC_PORT_CIPHER i then s else s.plainWrite r i w v
    | .TM_NODE_CMD => s.nodeCmd v
    | .TM_OBS_CFG => s.obsCfg v
    | .REL_DEVICE => s.relDevice v
    | .REL_CFG => s.relCfg v
    | .JNL_BASE => s.jnlBase w v
    | .JNL_CTRL => s.jnlCtrl v
    | .JNL_CONS => s.jnlCons v
    | .FRER_MM_POP => s.mmPop v
    | .HIF_MIG_CONS => s.migCons i v
    | .GLB_FENCE_POP => s.fencePop v
    | .PWR_CFG => s.pwrCfg v
    -- a reset is begun by the rows that carry what it meets
    | .GLB_RESET => if bits v 31 29 = 0 then s.plainWrite r i w v else s
    | _ => s.plainWrite r i w v

/-- Offsets of BAR2 that hold firmware's tables and memories without a register's name: calibration entries, Grinder's
tables, the HBM training blocks and the control-store window (spec/02_time_base.md R53, spec/04_parsing_and_tables.md R88,
spec/16_memory.md, "Training", spec/06_microcode.md R169). -/
def firmwareArea (off : Nat) : Bool :=
  decide (0x01001000 ≤ off ∧ off < 0x01001200) ||
  decide (0x03001000 ≤ off ∧ off < 0x03040000 ∧ 0x1000 ≤ off % 0x10000 ∧ off % 0x10000 < 0x3400) ||
  decide (0x0C010000 ≤ off ∧ off < 0x0C030000) || decide (0x10000000 ≤ off ∧ off < 0x18000000)

/-- The thread and the offset within its debug window at an offset of BAR2. -/
def debugPlace (off : Nat) : Option (Nat × Nat) :=
  if 0x18000000 ≤ off ∧ off < 0x1A000000 then
    (let d := off - 0x18000000
    some (64 * (d / 0x200000) + 8 * (d % 0x200000 / 0x40000) + d % 0x40000 / 0x8000, d % 0x8000))
  else none

/-- A write of one aligned 32-bit word of BAR2; a rsvd offset ignores it. -/
def State.wordWrite (s : State) (off v : Nat) : State :=
  let v := v % 2 ^ 32
  match findReg .bar2 off with
  | some (r, i, b) => s.regWrite r i (if r.desc.wide then (if b = 0 then .low else .high) else .full) off v
  | none => match debugPlace off with
    | some (t, o) => s.debugWrite t o (if o % 8 = 0 then .low else .high) v
    | none => s.when (firmwareArea off) (fun t => t.logFwWrite off v)

/-- A write of BAR2: aligned, of 4 or 8 bytes; two 32-bit registers take an 8-byte write low word first (R14; log 165). -/
def State.bar2Write (s : State) (off size v : Nat) : State :=
  if size = 4 ∧ off % 4 = 0 then s.wordWrite off v
  else if size = 8 ∧ off % 8 = 0 then
    match findReg .bar2 off with
    | some (r, i, _) => if r.desc.wide then s.regWrite r i .full off (v % 2 ^ 64) else (s.wordWrite off v).wordWrite (off + 4) (v / 2 ^ 32)
    | none => match debugPlace off with
      | some (t, o) => s.debugWrite t o .full (v % 2 ^ 64)
      | none => (s.wordWrite off v).wordWrite (off + 4) (v / 2 ^ 32)
  else s

/-! ### BAR0 of a function -/

/-- The vector and word of the MSI-X table at an offset. -/
def State.msixPlace (s : State) (f off : Nat) : Option (Nat × Nat) :=
  if s.msixAt ≤ off ∧ off < s.msixAt + 16 * s.msixSize f then some ((off - s.msixAt) / 16, (off - s.msixAt) % 16 / 4) else none

/-- A write of a word of an MSI-X entry (R282). -/
def State.msixTable (s : State) (f vec k v : Nat) : State :=
  match k with
  | 0 => { s with msix := s.msix.mod (msixKey f vec) (fun e => { e with addr := putBits e.addr 31 0 v }) }
  | 1 => { s with msix := s.msix.mod (msixKey f vec) (fun e => { e with addr := putBits e.addr 63 32 v }) }
  | 2 => { s with msix := s.msix.mod (msixKey f vec) (fun e => { e with data := v % 2 ^ 32 }) }
  | _ => s.msixWrite f (.vector vec (bit v 0))

/-- The index of a BAR0 register of a function. -/
def pageIx (r : Reg) (f i : Nat) : Nat :=
  match r with
  | .MBX_DATA | .EVT_PEND => 64 * f + i
  | _ => f

/-- A register of the mailbox and event pages that the function has: EVT_PEND is a PF's. -/
def State.pageHas (s : State) (r : Reg) (f : Nat) : Bool := r != .EVT_PEND || (decide (f < 4) && !s.recovery)

/-- A write of a register of the mailbox or event page. -/
def State.pageWrite (s : State) (f : Nat) (r : Reg) (i v : Nat) : State :=
  match r with
  | .MBX_CMD => s.mbxCmd f v
  | .MBX_DATA => if s.on F.MBX_STATUS_BUSY f then s else s.put r (pageIx r f i) (v % 2 ^ 32)
  | .DB_TO_FW => s.dbToFw f v
  | .DB_FROM_FW => s.dbW1c f v
  | .DB_FROM_FW_MASK => s.dbMask f v
  | .EVT_PEND => if s.pageHas r f then s.evtPendW1c f i v else s
  | .EVT_FN => s.evtFnW1c f v
  | _ => s.plainWrite r (pageIx r f i) .full (v % 2 ^ 32)

/-- A write of one aligned word of BAR0 below the queue pages. -/
def State.bar0Word (s : State) (f off v : Nat) : State :=
  match findReg .bar0 off with
  | some (r, i, _) => s.pageWrite f r i v
  | none => match s.msixPlace f off with
    | some (vec, k) => s.msixTable f vec k v
    | none => s

/-- A write of a queue page: doorbells, and the push window. -/
def State.pageDoorbell (s : State) (f off size v : Nat) : State :=
  let page := (off - 0x20000) / 512
  let o := (off - 0x20000) % 512
  let w : Width := if size = 8 then .full else if o % 8 = 0 then .low else .high
  if o / 8 = 0 then (execQmSqDb f page w v s).after s
  else if o / 8 = 1 then (execQmCqDb f page w v s).after s
  else if 0x100 ≤ o then (execPushSlotWrite f page (o - 0x100) (leBytes size v) s).after s
  else s

/-- A write of BAR0: aligned, of 4 or 8 bytes (R14, R277, R278). -/
def State.bar0Write (s : State) (f off size v : Nat) : State :=
  if !((size = 4 ∧ off % 4 = 0) ∨ (size = 8 ∧ off % 8 = 0)) then s
  else if 0x20000 ≤ off then (if s.recovery then s else s.pageDoorbell f off size v)
  else if size = 4 then s.bar0Word f off (v % 2 ^ 32)
  else (s.bar0Word f off (v % 2 ^ 32)).bar0Word f (off + 4) (bits v 63 32)

/-- BAR0 and configuration space of a function answer: it is presented, and no FLR or lost supply closes it. -/
def State.fnOpen (s : State) (f : Nat) : Bool :=
  s.bar0Open f && (if s.recovery then f == 0 || f == 2 else decide (f < 2052) && s.fnExists f)

/-- Any host write of a register: of the manager's BAR2, of the function's BAR0 or configuration space, or of an enable of the
latter (spec/00_scope.md R9, R12 to R15). -/
def execRegisterWrite (fn : Nat) (place : RegPlace) (size v : Nat) (s : State) : Step :=
  match place with
  | .bar2 off => .next (s.asManager fn (fun t => t.bar2Write off size v))
  | .bar0 off => .next (if s.fnOpen fn then s.bar0Write fn off size v else s)
  | .cfg off => .next (s.cfgWrite fn off size v)
  | .ats => .next (if s.fnOpen fn then s.atsWrite fn (bit v 0) else s)
  | .pasid => .next (if s.fnOpen fn then s.pasidWrite fn (bit v 0) else s)
  | .pri alloc => .next (if !s.fnOpen fn then s else s.modFn fn (fun g => { g with priEn := bit v 0, priAlloc := alloc }))

/-! ### Reads -/

/-- A register without its write-only fields, which read zero (R9). -/
def Reg.hidden (r : Reg) (v : Nat) : Nat :=
  r.desc.fields.foldl (fun a d => if d.access == .WO then putBits a d.hi d.lo 0 else a) v

/-- BRW_THREAD_STATE of a thread. -/
def Thread.stateWord (th : Thread) : Nat := 2 ^ 28 * th.st.ctorIdx + 2 ^ 20 * (th.fault % 256) + th.pc % 65536

/-- What a register reads as now; those that show other state are read from it. -/
def State.live (s : State) (r : Reg) (i : Nat) : Nat :=
  match r with
  | .TSU_SLEW_LEFT => unsigned 64 s.tsu.remaining
  | .TSU_TIME_NSF => s.time.nsf
  | .TSU_TIME_SEC => s.time.sec % 2 ^ 48
  | .TSU_TIME_SHORT => s.stamp
  | .GRD_START => s.grdStart.getD (grdCopy (s.rd F.GLB_EPOCH_STATUS_CURRENT 0) i) 65535
  | .BRW_THREAD_STATE => (s.thread i).stateWord
  | .JNL_STATUS => putBits (s.val r i) 31 31 (b2n s.jnlWriting)
  | _ => r.hidden (s.val r i)

/-- A register that counts between events is brought up to date before it is read (spec/03_ports.md R75). -/
def State.upToDate (s : State) (r : Reg) (i : Nat) : State :=
  s.when (r == .PRT_CTR && i % 64 == C.PRT_TX_PAUSED_NS) (fun t => t.pausedSync (i / 64))

/-- The register after a read that clears: its RC fields are zero (R11). -/
def State.rcClear (s : State) (r : Reg) (i : Nat) : State :=
  s.each r.desc.fields (fun (d : FieldDesc) (t : State) => if d.access == .RC then t.wr ⟨r, d.hi, d.lo⟩ i 0 else t)

/-- A 32-bit word of the windows of BAR2 that no register's name covers. -/
def State.windowWord (s : State) (off : Nat) : Nat :=
  let cur := s.rd F.GLB_EPOCH_STATUS_CURRENT 0
  if 0x01001000 ≤ off ∧ off < 0x01001200 then leAt (fit 32 (s.tsu.cal.get ((off - 0x01001000) / 32))) (off % 32) 4
  else if 0x03001000 ≤ off ∧ off < 0x03040000 ∧ 0x1000 ≤ off % 0x10000 ∧ off % 0x10000 < 0x3400 then
    (let p := (off - 0x03000000) / 0x10000
    let o := off % 0x10000
    if o < 0x3000 then leAt (s.parseState (grdCopy cur p) ((o - 0x1000) / 32)) (o % 32) 4
    else leAt (fit 16 (s.grdRecog.get (64 * grdCopy cur p + (o - 0x3000) / 16))) (o % 16) 4)
  else if 0x10000000 ≤ off ∧ off < 0x18000000 then
    (let c := (off - 0x10000000) / 0x800000
    let b := (off - 0x10000000) % 0x800000 / 0x200000
    let w := off % 0x200000 / 32
    let x := if 2 ≤ b ∨ 0xC000 ≤ w then 0 else if w < 0x6000 then (Config.romWord w).toNat else s.cs.getD (csKey c b w) csFill
    x / 2 ^ (8 * (off % 32)) % 2 ^ 32)
  else match debugPlace off with
    | some (t, o) =>
      let x := if (s.thread t).st = .halted then (s.thread t).debugWord (o / 8 * 8) else 0
      if o % 8 = 0 then x % 2 ^ 32 else bits x 63 32
    | none => 0

/-- The latch of a function for the high word at an address, and what a read of it leaves (R14). -/
def State.heldWord (s : State) (fn addr : Nat) : Option Nat := s.latches.getD (latchKey fn addr) none
def State.setLatch (s : State) (fn addr : Nat) (v : Option Nat) : State :=
  { s with latches := s.latches.setD (latchKey fn addr) v none }

/-- A low-word read of a 64-bit register: its high word is latched and RC fields clear; TSU_TIME_NSF latches all of
device time, and TSU_TIME_SEC returns what that read latched (R14; spec/02_time_base.md R46). -/
def State.lowRead (s : State) (fn : Nat) (r : Reg) (i off : Nat) : Nat × State :=
  let v := s.live r i
  match r with
  | .TSU_TIME_NSF =>
    (v % 2 ^ 32, ((s.setLatch fn (off + 4) (some (v / 2 ^ 32))).setLatch fn (off + 8) (some (s.time.sec % 2 ^ 32))).setLatch fn
      (off + 12) (some (bits s.time.sec 47 32)))
  | .TSU_TIME_SEC => match s.heldWord fn off with
    | some x => (x, s.setLatch fn off none)
    | none => (v % 2 ^ 32, s.setLatch fn (off + 4) (some (v / 2 ^ 32)))
  | _ => (v % 2 ^ 32, (s.setLatch fn (off + 4) (some (v / 2 ^ 32))).rcClear r i)

/-- A high-word read: the latched word, once, or the live one, which clears nothing (R14). -/
def State.highRead (s : State) (fn : Nat) (r : Reg) (i off : Nat) : Nat × State :=
  match s.heldWord fn off with
  | some x => (x, s.setLatch fn off none)
  | none => (s.live r i / 2 ^ 32, s)

/-- A read of one aligned 32-bit word of BAR2. -/
def State.wordRead (s : State) (fn off : Nat) : Nat × State :=
  match findReg .bar2 off with
  | some (r, i, b) =>
    let s := s.upToDate r i
    if !r.desc.wide then (s.live r i % 2 ^ 32, s.rcClear r i)
    else if b = 0 then s.lowRead fn r i off else s.highRead fn r i off
  | none => (s.windowWord off, s)

/-- A read of a window of BAR2, aligned, of 4 or 8 bytes; any other reads 0 (R14). A 64-bit read of TSU_TIME_NSF latches nothing,
and a 64-bit read of TSU_TIME_SEC returns the live second: DESIGN CHOICE, log 194. -/
def State.bar2Read (s : State) (fn off size : Nat) : Nat × State :=
  let two : Nat × State :=
    let a := s.wordRead fn off
    let b := a.2.wordRead fn (off + 4)
    (a.1 + 2 ^ 32 * b.1, b.2)
  if size = 4 ∧ off % 4 = 0 then s.wordRead fn off
  else if size = 8 ∧ off % 8 = 0 then
    match findReg .bar2 off with
    | some (r, i, _) => if r.desc.wide then (let t := s.upToDate r i; (t.live r i, t.rcClear r i)) else two
    | none => two
  else (0, s)

/-- One aligned 32-bit word of a function's BAR0 as it reads: mailbox and event pages, descriptor ROM, MSI-X table and
PBA, queue pages (R277, R278, R282; spec/12_queues_and_rings.md, "Queue page"). -/
def State.pageWord (s : State) (f off : Nat) : Nat :=
  match findReg .bar0 off with
  | some (r, i, _) => if s.pageHas r f then r.hidden (s.val r (pageIx r f i)) else 0
  | none => match s.msixPlace f off with
    | some (vec, k) =>
      let e := s.msix.get (msixKey f vec)
      [e.addr % 2 ^ 32, bits e.addr 63 32, e.data, b2n e.masked].getD k 0
    | none =>
      if 0x1000 ≤ off ∧ off < 0x2000 then leAt (s.rom f) (off - 0x1000) 4
      else if s.pbaAt ≤ off ∧ off < s.pbaAt + 256 then
        (List.range 32).foldl (fun a b =>
          let vec := 8 * (off - s.pbaAt) + b
          if vec < s.msixSize f ∧ (s.msix.get (msixKey f vec)).pending then a + 2 ^ b else a) 0
      else if 0x20000 ≤ off ∧ !s.recovery then
        match s.onPage f ((off - 0x20000) / 512) with
        | none => 0
        | some key =>
          let r := s.ring key
          if off % 512 = 0x10 then 2 ^ 28 * r.state + 2 ^ 20 * r.cause else if off % 512 = 0x14 then r.next else 0
      else 0

/-- A read of BAR0. -/
def State.bar0Read (s : State) (f off size : Nat) : Nat :=
  if size = 4 ∧ off % 4 = 0 then s.pageWord f off
  else if size = 8 ∧ off % 8 = 0 then s.pageWord f off + 2 ^ 32 * s.pageWord f (off + 4)
  else 0

/-- A host read of a place: its answer goes out, and a manager-capable PF without the role reads 0 from BAR2 (R279). -/
def State.busRead (s : State) (fn : Nat) (place : RegPlace) (size : Nat) : State :=
  match place with
  | .bar2 off =>
    if s.supply.power ≠ .on ∨ s.recovery ∨ !mayManage fn then s
    else if fn = s.manager then (let r := s.bar2Read fn off size; r.2.send (.readValue fn off r.1))
    else (s.asManager fn id).send (.readValue fn off 0)
  | .bar0 off =>
    if s.supply.power ≠ .on then s
    else s.send (.readValue fn off (if s.fnOpen fn then s.bar0Read fn off size else 0))
  | .cfg off => s.cfgRead fn off size
  | .ats => s.send (.readValue fn 0 (b2n (s.fn fn).ats))
  | .pasid => s.send (.readValue fn 0 (b2n (s.fn fn).pasidEn))
  | .pri _ => s.send (.readValue fn 0 (b2n (s.fn fn).priEn))

/-- A read of a register with RC fields returns them and clears them; at another place it is that register's read (R9,
R11). -/
def execRcRegisterRead (fn : Nat) (place : RegPlace) (size : Nat) (s : State) : Step := .next (s.busRead fn place size)

/-- A 32-bit read of BAR2: at a low word it latches the high word, at a high word it empties the latch (R14). -/
def execLowWordRead (fn off : Nat) (s : State) : Step := .next (s.busRead fn (.bar2 off) 4)

end Sys2Proof.Machine
end

