-- ==== Sys2Proof/Machine/Dispatch.lean ====
section
/-! DEFINITION. One arm per command: each arm is one direct call of the command's meaning. -/

namespace Sys2Proof.Machine

def exec (i : Instr) (s : State) : Host.Outcome State Fault Refusal :=
  match i with
  | .registerWrite fn place size v => Sys2Proof.Machine.execRegisterWrite fn place size v s
  | .rcRegisterRead fn place size => Sys2Proof.Machine.execRcRegisterRead fn place size s
  | .lowWordRead fn off => Sys2Proof.Machine.execLowWordRead fn off s
  | .creditStall kind ix => Sys2Proof.Machine.execCreditStall kind ix s
  | .fenceNotice unit obj => Sys2Proof.Machine.execFenceNotice unit obj s
  | .macRxFrame port x => Sys2Proof.Machine.execMacRxFrame port x s
  | .grinderParse h => Sys2Proof.Machine.execGrinderParse h s
  | .l2SourceCheck h => Sys2Proof.Machine.execL2SourceCheck h s
  | .dispatch pipe => Sys2Proof.Machine.execDispatch pipe s
  | .reorderRelease h => Sys2Proof.Machine.execReorderRelease h s
  | .deferredStage h bad => Sys2Proof.Machine.execDeferredStage h bad s
  | .tmEnqueue h => Sys2Proof.Machine.execTmEnqueue h s
  | .tmSchedule slice port => Sys2Proof.Machine.execTmSchedule slice port s
  | .macTxFrame port cells phase stop => Sys2Proof.Machine.execMacTxFrame port cells phase stop s
  | .rxDma h fault badCell => Sys2Proof.Machine.execRxDma h fault badCell s
  | .holdListDeliver ring fault badCell => Sys2Proof.Machine.execHoldListDeliver ring fault badCell s
  | .rxHoldTimeout h => Sys2Proof.Machine.execRxHoldTimeout h s
  | .txBufferData job reply => Sys2Proof.Machine.execTxBufferData job reply s
  | .epochCommitted => Sys2Proof.Machine.execEpochCommitted s
  | .epochDrained => Sys2Proof.Machine.execEpochDrained s
  | .tsuFreqOffsetWrite fn w v => Sys2Proof.Machine.execTsuFreqOffsetWrite fn w v s
  | .tsuStepArm fn abs cancel => Sys2Proof.Machine.execTsuStepArm fn abs cancel s
  | .tsuStepCancel fn abs => Sys2Proof.Machine.execTsuStepCancel fn abs s
  | .timeStepApplied => Sys2Proof.Machine.execTimeStepApplied s
  | .tsuSlewSetWrite fn w v => Sys2Proof.Machine.execTsuSlewSetWrite fn w v s
  | .tsuSlewRateWrite fn v => Sys2Proof.Machine.execTsuSlewRateWrite fn v s
  | .timeSlewDone => Sys2Proof.Machine.execTimeSlewDone s
  | .timeSecondBoundary => Sys2Proof.Machine.execTimeSecondBoundary s
  | .tsuTimeNsfRead fn => Sys2Proof.Machine.execTsuTimeNsfRead fn s
  | .timeHoldoverEnter => Sys2Proof.Machine.execTimeHoldoverEnter s
  | .tsuBoardDlyWrite fn port v => Sys2Proof.Machine.execTsuBoardDlyWrite fn port v s
  | .tsuRefWrite fn v => Sys2Proof.Machine.execTsuRefWrite fn v s
  | .timeRefLost => Sys2Proof.Machine.execTimeRefLost s
  | .timeRefRestored => Sys2Proof.Machine.execTimeRefRestored s
  | .timePllUnlock => Sys2Proof.Machine.execTimePllUnlock s
  | .ppsInCaptured phase => Sys2Proof.Machine.execPpsInCaptured phase s
  | .ppsInMissing => Sys2Proof.Machine.execPpsInMissing s
  | .ovnEnWrite fn v => Sys2Proof.Machine.execOvnEnWrite fn v s
  | .ovnHoldWrite fn v => Sys2Proof.Machine.execOvnHoldWrite fn v s
  | .ovnSettling => Sys2Proof.Machine.execOvnSettling s
  | .ovnLocked => Sys2Proof.Machine.execOvnLocked s
  | .ovnUnlocked => Sys2Proof.Machine.execOvnUnlocked s
  | .ovnFaultSense => Sys2Proof.Machine.execOvnFaultSense s
  | .ovnFaultWarmup => Sys2Proof.Machine.execOvnFaultWarmup s
  | .ovnOvertemp => Sys2Proof.Machine.execOvnOvertemp s
  | .ovnOtLatchClear fn tripped => Sys2Proof.Machine.execOvnOtLatchClear fn tripped s
  | .ovnDutyLimit => Sys2Proof.Machine.execOvnDutyLimit s
  | .ovnEfcWrite fn v => Sys2Proof.Machine.execOvnEfcWrite fn v s
  | .prtGroupApply fn group => Sys2Proof.Machine.execPrtGroupApply fn group s
  | .prtLinkUp port maxSkew refWait => Sys2Proof.Machine.execPrtLinkUp port maxSkew refWait s
  | .prtLocalFault port => Sys2Proof.Machine.execPrtLocalFault port s
  | .prtRemoteFault port => Sys2Proof.Machine.execPrtRemoteFault port s
  | .prtLinkDown port => Sys2Proof.Machine.execPrtLinkDown port s
  | .portReset fn port v => Sys2Proof.Machine.execPortReset fn port v s
  | .stormClear fn port v => Sys2Proof.Machine.execStormClear fn port v s
  | .rxPauseFrame port time => Sys2Proof.Machine.execRxPauseFrame port time s
  | .rxPfcFrame port enable times => Sys2Proof.Machine.execRxPfcFrame port enable times s
  | .fcHoldExpire port c => Sys2Proof.Machine.execFcHoldExpire port c s
  | .xoffRefresh port c => Sys2Proof.Machine.execXoffRefresh port c s
  | .prtPauseStorm port c => Sys2Proof.Machine.execPrtPauseStorm port c s
  | .preemptEnableWrite fn port v => Sys2Proof.Machine.execPreemptEnableWrite fn port v s
  | .preemptVerifyFrame port => Sys2Proof.Machine.execPreemptVerifyFrame port s
  | .prtFecDegraded port => Sys2Proof.Machine.execPrtFecDegraded port s
  | .counterOwnerCommit fn v => Sys2Proof.Machine.execCounterOwnerCommit fn v s
  | .mgmtFrameRx data good => Sys2Proof.Machine.execMgmtFrameRx data good s
  | .ncsiCommand cmd => Sys2Proof.Machine.execNcsiCommand cmd s
  | .l2AgeVisit pipe entry => Sys2Proof.Machine.execL2AgeVisit pipe entry s
  | .l2AgePassStart pipe => Sys2Proof.Machine.execL2AgePassStart pipe s
  | .tblL2AgeEnWrite fn pipe v => Sys2Proof.Machine.execTblL2AgeEnWrite fn pipe v s
  | .l2ReadCmd fn v => Sys2Proof.Machine.execL2ReadCmd fn v s
  | .flowAgeVisit half loc => Sys2Proof.Machine.execFlowAgeVisit half loc s
  | .seqInc w => Sys2Proof.Machine.execSeqInc w s
  | .seqJump w => Sys2Proof.Machine.execSeqJump w s
  | .seqBr w => Sys2Proof.Machine.execSeqBr w s
  | .seqBrn w => Sys2Proof.Machine.execSeqBrn w s
  | .seqCall w => Sys2Proof.Machine.execSeqCall w s
  | .seqRet w => Sys2Proof.Machine.execSeqRet w s
  | .seqDisp16 w => Sys2Proof.Machine.execSeqDisp16 w s
  | .seqWait w => Sys2Proof.Machine.execSeqWait w s
  | .seqDone w => Sys2Proof.Machine.execSeqDone w s
  | .seqFault w => Sys2Proof.Machine.execSeqFault w s
  | .aluMov t f imm strict => Sys2Proof.Machine.execAluMov t f imm strict s
  | .aluAdd t f imm strict => Sys2Proof.Machine.execAluAdd t f imm strict s
  | .aluSub t f imm strict => Sys2Proof.Machine.execAluSub t f imm strict s
  | .aluAnd t f imm strict => Sys2Proof.Machine.execAluAnd t f imm strict s
  | .aluOr t f imm strict => Sys2Proof.Machine.execAluOr t f imm strict s
  | .aluXor t f imm strict => Sys2Proof.Machine.execAluXor t f imm strict s
  | .aluAndn t f imm strict => Sys2Proof.Machine.execAluAndn t f imm strict s
  | .aluShlv t f imm strict => Sys2Proof.Machine.execAluShlv t f imm strict s
  | .aluShrv t f imm strict => Sys2Proof.Machine.execAluShrv t f imm strict s
  | .aluSarv t f imm strict => Sys2Proof.Machine.execAluSarv t f imm strict s
  | .aluMinu t f imm strict => Sys2Proof.Machine.execAluMinu t f imm strict s
  | .aluMaxu t f imm strict => Sys2Proof.Machine.execAluMaxu t f imm strict s
  | .aluCmp t f imm strict => Sys2Proof.Machine.execAluCmp t f imm strict s
  | .aluTst t f imm strict => Sys2Proof.Machine.execAluTst t f imm strict s
  | .aluIns t f imm strict => Sys2Proof.Machine.execAluIns t f imm strict s
  | .aluPopc t f imm strict => Sys2Proof.Machine.execAluPopc t f imm strict s
  | .aluClz t f imm strict => Sys2Proof.Machine.execAluClz t f imm strict s
  | .aluBswap t f imm strict => Sys2Proof.Machine.execAluBswap t f imm strict s
  | .aluCrc t f imm strict => Sys2Proof.Machine.execAluCrc t f imm strict s
  | .aluAddc t f imm strict => Sys2Proof.Machine.execAluAddc t f imm strict s
  | .aluSubb t f imm strict => Sys2Proof.Machine.execAluSubb t f imm strict s
  | .aluSel t f imm strict => Sys2Proof.Machine.execAluSel t f imm strict s
  | .aluMul32 t f imm strict => Sys2Proof.Machine.execAluMul32 t f imm strict s
  | .memLd t f strict => Sys2Proof.Machine.execMemLd t f strict s
  | .memSt t f strict => Sys2Proof.Machine.execMemSt t f strict s
  | .memFadd t f strict => Sys2Proof.Machine.execMemFadd t f strict s
  | .memSwap t f strict => Sys2Proof.Machine.execMemSwap t f strict s
  | .memCas t f strict => Sys2Proof.Machine.execMemCas t f strict s
  | .memAdd t f strict => Sys2Proof.Machine.execMemAdd t f strict s
  | .memResultArrive t bad => Sys2Proof.Machine.execMemResultArrive t bad s
  | .tblLookup t f strict => Sys2Proof.Machine.execTblLookup t f strict s
  | .tblInsert t f strict => Sys2Proof.Machine.execTblInsert t f strict s
  | .tblDelete t f strict => Sys2Proof.Machine.execTblDelete t f strict s
  | .tblLearn t f strict => Sys2Proof.Machine.execTblLearn t f strict s
  | .tblResultArrive t damaged => Sys2Proof.Machine.execTblResultArrive t damaged s
  | .channelPost t => Sys2Proof.Machine.execChannelPost t s
  | .inboxMessageArrive t => Sys2Proof.Machine.execInboxMessageArrive t s
  | .inboxPop t => Sys2Proof.Machine.execInboxPop t s
  | .signal t v => Sys2Proof.Machine.execSignal t v s
  | .eventClr t v => Sys2Proof.Machine.execEventClr t v s
  | .fenceMessage c => Sys2Proof.Machine.execFenceMessage c s
  | .hostAccessRequest c reply => Sys2Proof.Machine.execHostAccessRequest c reply s
  | .threadTimerFire t => Sys2Proof.Machine.execThreadTimerFire t s
  | .supResume c barista => Sys2Proof.Machine.execSupResume c barista s
  | .supAbort c barista => Sys2Proof.Machine.execSupAbort c barista s
  | .supFenceThread c barista => Sys2Proof.Machine.execSupFenceThread c barista s
  | .supFenceEngine c barista => Sys2Proof.Machine.execSupFenceEngine c barista s
  | .supEscalate c => Sys2Proof.Machine.execSupEscalate c s
  | .supTimeout t => Sys2Proof.Machine.execSupTimeout t s
  | .runLimitExpire t => Sys2Proof.Machine.execRunLimitExpire t s
  | .allWait c e => Sys2Proof.Machine.execAllWait c e s
  | .debugWindowWrite fn t o w v => Sys2Proof.Machine.execDebugWindowWrite fn t o w v s
  | .jtagClaim => Sys2Proof.Machine.execJtagClaim s
  | .jtagRelease => Sys2Proof.Machine.execJtagRelease s
  | .csEccRepair c bank a patch => Sys2Proof.Machine.execCsEccRepair c bank a patch s
  | .oflDeferRequest t => Sys2Proof.Machine.execOflDeferRequest t s
  | .oflCheck t => Sys2Proof.Machine.execOflCheck t s
  | .espDecrypt x => Sys2Proof.Machine.execEspDecrypt x s
  | .tlsRx x => Sys2Proof.Machine.execTlsRx x s
  | .nvmeRxPlace x fault => Sys2Proof.Machine.execNvmeRxPlace x fault s
  | .oflGroupWake g => Sys2Proof.Machine.execOflGroupWake g s
  | .jobKeyCheck job => Sys2Proof.Machine.execJobKeyCheck job s
  | .jobBulkGcm x reply => Sys2Proof.Machine.execJobBulkGcm x reply s
  | .jobDigest job reply => Sys2Proof.Machine.execJobDigest job reply s
  | .tmNodeAccess fn v => Sys2Proof.Machine.execTmNodeAccess fn v s
  | .tmObsCfgWrite fn v => Sys2Proof.Machine.execTmObsCfgWrite fn v s
  | .tmObsSample => Sys2Proof.Machine.execTmObsSample s
  | .tmQueueReload q => Sys2Proof.Machine.execTmQueueReload q s
  | .gclChangeTime port => Sys2Proof.Machine.execGclChangeTime port s
  | .gateChange port => Sys2Proof.Machine.execGateChange port s
  | .launchTimeStart x => Sys2Proof.Machine.execLaunchTimeStart x s
  | .relDeviceWrite fn v => Sys2Proof.Machine.execRelDeviceWrite fn v s
  | .relCfgWrite fn v => Sys2Proof.Machine.execRelCfgWrite fn v s
  | .relEnqueue h => Sys2Proof.Machine.execRelEnqueue h s
  | .relRelease => Sys2Proof.Machine.execRelRelease s
  | .relSpillReturn h bad => Sys2Proof.Machine.execRelSpillReturn h bad s
  | .stampFifoDrain port => Sys2Proof.Machine.execStampFifoDrain port s
  | .stampGapRecord port => Sys2Proof.Machine.execStampGapRecord port s
  | .jnlCtrlWrite fn v => Sys2Proof.Machine.execJnlCtrlWrite fn v s
  | .jnlConsWrite fn v => Sys2Proof.Machine.execJnlConsWrite fn v s
  | .jnlRecordCommit fault => Sys2Proof.Machine.execJnlRecordCommit fault s
  | .jnlCheckpoint => Sys2Proof.Machine.execJnlCheckpoint s
  | .jnlSignatureDone => Sys2Proof.Machine.execJnlSignatureDone s
  | .jnlDigestClose ring rx => Sys2Proof.Machine.execJnlDigestClose ring rx s
  | .jnlClockRecord cause => Sys2Proof.Machine.execJnlClockRecord cause s
  | .frerRxDecision h => Sys2Proof.Machine.execFrerRxDecision h s
  | .frerRecoveryTimeout c => Sys2Proof.Machine.execFrerRecoveryTimeout c s
  | .frerMmPop fn v => Sys2Proof.Machine.execFrerMmPop fn v s
  | .mirPeriodicSend => Sys2Proof.Machine.execMirPeriodicSend s
  | .mirMessageRx msg => Sys2Proof.Machine.execMirMessageRx msg s
  | .mirPeerSilent => Sys2Proof.Machine.execMirPeerSilent s
  | .mirFloorLapse g => Sys2Proof.Machine.execMirFloorLapse g s
  | .hifLinkUp port link rate narrow => Sys2Proof.Machine.execHifLinkUp port link rate narrow s
  | .hifLinkDown port link => Sys2Proof.Machine.execHifLinkDown port link s
  | .perstAssert port => Sys2Proof.Machine.execPerstAssert port s
  | .hifHotReset port link => Sys2Proof.Machine.execHifHotReset port link s
  | .perstDeassert port => Sys2Proof.Machine.execPerstDeassert port s
  | .bmeClear f => Sys2Proof.Machine.execBmeClear f s
  | .bmeSet f => Sys2Proof.Machine.execBmeSet f s
  | .vfEnableWrite pf on num => Sys2Proof.Machine.execVfEnableWrite pf on num s
  | .atsEnableClear f => Sys2Proof.Machine.execAtsEnableClear f s
  | .pasidEnableClear f => Sys2Proof.Machine.execPasidEnableClear f s
  | .dStateChange f d3 => Sys2Proof.Machine.execDStateChange f d3 s
  | .msixUnmask f what => Sys2Proof.Machine.execMsixUnmask f what s
  | .flrStart f => Sys2Proof.Machine.execFlrStart f s
  | .flrEngineAck f engine => Sys2Proof.Machine.execFlrEngineAck f engine s
  | .fnFlrSlow f => Sys2Proof.Machine.execFnFlrSlow f s
  | .evtPendW1c f w v => Sys2Proof.Machine.execEvtPendW1c f w v s
  | .evtFnW1c f v => Sys2Proof.Machine.execEvtFnW1c f v s
  | .translationCompletion req r => Sys2Proof.Machine.execTranslationCompletion req r s
  | .invalidateRequest port tag f pasid base size => Sys2Proof.Machine.execInvalidateRequest port tag f pasid base size s
  | .invalidateComplete port => Sys2Proof.Machine.execInvalidateComplete port s
  | .pageResponse f index r => Sys2Proof.Machine.execPageResponse f index r s
  | .priResponseTimeout index => Sys2Proof.Machine.execPriResponseTimeout index s
  | .hostReadCompletion port tag reply => Sys2Proof.Machine.execHostReadCompletion port tag reply s
  | .cplTimeoutExpire tag => Sys2Proof.Machine.execCplTimeoutExpire tag s
  | .qmSqDb fn page w v => Sys2Proof.Machine.execQmSqDb fn page w v s
  | .pushSlotWrite fn page off data => Sys2Proof.Machine.execPushSlotWrite fn page off data s
  | .qmCqDb fn page w v => Sys2Proof.Machine.execQmCqDb fn page w v s
  | .descFetchComplete ring reply => Sys2Proof.Machine.execDescFetchComplete ring reply s
  | .txJobStart ring => Sys2Proof.Machine.execTxJobStart ring s
  | .completionWrite ring bad => Sys2Proof.Machine.execCompletionWrite ring bad s
  | .cqCoalesceExpire ring => Sys2Proof.Machine.execCqCoalesceExpire ring s
  | .headStatusWrite ring bad => Sys2Proof.Machine.execHeadStatusWrite ring bad s
  | .adminEntryTake f entry payload => Sys2Proof.Machine.execAdminEntryTake f entry payload s
  | .mbxCmdWrite f v => Sys2Proof.Machine.execMbxCmdWrite f v s
  | .cmdAccept f bad => Sys2Proof.Machine.execCmdAccept f bad s
  | .mbxAckTimeout f => Sys2Proof.Machine.execMbxAckTimeout f s
  | .dbFromFwW1c f v => Sys2Proof.Machine.execDbFromFwW1c f v s
  | .dbFromFwMaskWrite f v => Sys2Proof.Machine.execDbFromFwMaskWrite f v s
  | .dbToFwReady f v => Sys2Proof.Machine.execDbToFwReady f v s
  | .dbToFwUnload f v => Sys2Proof.Machine.execDbToFwUnload f v s
  | .driverAbsent f => Sys2Proof.Machine.execDriverAbsent f s
  | .fwRestart => Sys2Proof.Machine.execFwRestart s
  | .fwWatchdog core thread => Sys2Proof.Machine.execFwWatchdog core thread s
  | .longCommandComplete f io => Sys2Proof.Machine.execLongCommandComplete f io s
  | .eciVersion e => Sys2Proof.Machine.execEciVersion e s
  | .eciIdentity e => Sys2Proof.Machine.execEciIdentity e s
  | .eciFuncInfo e => Sys2Proof.Machine.execEciFuncInfo e s
  | .eciPoll e => Sys2Proof.Machine.execEciPoll e s
  | .adminCreate e => Sys2Proof.Machine.execAdminCreate e s
  | .adminDestroy e => Sys2Proof.Machine.execAdminDestroy e s
  | .queueCreate e => Sys2Proof.Machine.execQueueCreate e s
  | .queueDestroy e => Sys2Proof.Machine.execQueueDestroy e s
  | .queueStart e => Sys2Proof.Machine.execQueueStart e s
  | .queueStop e => Sys2Proof.Machine.execQueueStop e s
  | .queueInvalidate e => Sys2Proof.Machine.execQueueInvalidate e s
  | .queueQuery e => Sys2Proof.Machine.execQueueQuery e s
  | .fnAssignVfs e => Sys2Proof.Machine.execFnAssignVfs e s
  | .fnGrant e => Sys2Proof.Machine.execFnGrant e s
  | .fnQuery e => Sys2Proof.Machine.execFnQuery e s
  | .fnQuiesce e => Sys2Proof.Machine.execFnQuiesce e s
  | .fnRelease e => Sys2Proof.Machine.execFnRelease e s
  | .quiescePendingTimeout f => Sys2Proof.Machine.execQuiescePendingTimeout f s
  | .fnSave e => Sys2Proof.Machine.execFnSave e s
  | .fnRestore e => Sys2Proof.Machine.execFnRestore e s
  | .fnMigrateLog e => Sys2Proof.Machine.execFnMigrateLog e s
  | .hifMigConsWrite fn slot v => Sys2Proof.Machine.execHifMigConsWrite fn slot v s
  | .fnRemove e => Sys2Proof.Machine.execFnRemove e s
  | .mgrRole e => Sys2Proof.Machine.execMgrRole e s
  | .tblL2Write e => Sys2Proof.Machine.execTblL2Write e s
  | .tblL2Delete e => Sys2Proof.Machine.execTblL2Delete e s
  | .tblL2Read e => Sys2Proof.Machine.execTblL2Read e s
  | .tblL2Flush e => Sys2Proof.Machine.execTblL2Flush e s
  | .tblFlowInsert e => Sys2Proof.Machine.execTblFlowInsert e s
  | .tblFlowDelete e => Sys2Proof.Machine.execTblFlowDelete e s
  | .tblFlowLookup e => Sys2Proof.Machine.execTblFlowLookup e s
  | .tblRouteBatch e => Sys2Proof.Machine.execTblRouteBatch e s
  | .tblRouteLookup e => Sys2Proof.Machine.execTblRouteLookup e s
  | .tmCaps e => Sys2Proof.Machine.execTmCaps e s
  | .tmNodeCreate e => Sys2Proof.Machine.execTmNodeCreate e s
  | .tmNodeDestroy e => Sys2Proof.Machine.execTmNodeDestroy e s
  | .tmNodeSet e => Sys2Proof.Machine.execTmNodeSet e s
  | .tmNodeQuery e => Sys2Proof.Machine.execTmNodeQuery e s
  | .tmQueueFlush e => Sys2Proof.Machine.execTmQueueFlush e s
  | .tmMcastSet e => Sys2Proof.Machine.execTmMcastSet e s
  | .tmMcastQuery e => Sys2Proof.Machine.execTmMcastQuery e s
  | .tmObsDump e => Sys2Proof.Machine.execTmObsDump e s
  | .tmTenantGrant e => Sys2Proof.Machine.execTmTenantGrant e s
  | .timeGet e => Sys2Proof.Machine.execTimeGet e s
  | .timeFreq e => Sys2Proof.Machine.execTimeFreq e s
  | .timeStep e => Sys2Proof.Machine.execTimeStep e s
  | .timeStepCancel e => Sys2Proof.Machine.execTimeStepCancel e s
  | .timeSlew e => Sys2Proof.Machine.execTimeSlew e s
  | .timeStatus e => Sys2Proof.Machine.execTimeStatus e s
  | .timeIo e => Sys2Proof.Machine.execTimeIo e s
  | .ovenSet e => Sys2Proof.Machine.execOvenSet e s
  | .ovenStatus e => Sys2Proof.Machine.execOvenStatus e s
  | .relCaps e => Sys2Proof.Machine.execRelCaps e s
  | .relGroupSet e => Sys2Proof.Machine.execRelGroupSet e s
  | .relGroupQuery e => Sys2Proof.Machine.execRelGroupQuery e s
  | .relStampRing e => Sys2Proof.Machine.execRelStampRing e s
  | .relStampRingClear e => Sys2Proof.Machine.execRelStampRingClear e s
  | .jnlQueueSet e => Sys2Proof.Machine.execJnlQueueSet e s
  | .jnlQueueRemove e => Sys2Proof.Machine.execJnlQueueRemove e s
  | .jnlIdentity e => Sys2Proof.Machine.execJnlIdentity e s
  | .jnlStatus e => Sys2Proof.Machine.execJnlStatus e s
  | .jnlRestart e => Sys2Proof.Machine.execJnlRestart e s
  | .oflCaps e => Sys2Proof.Machine.execOflCaps e s
  | .oflCtxCreate e => Sys2Proof.Machine.execOflCtxCreate e s
  | .oflCtxDestroy e => Sys2Proof.Machine.execOflCtxDestroy e s
  | .oflCtxQuery e => Sys2Proof.Machine.execOflCtxQuery e s
  | .oflCtxModify e => Sys2Proof.Machine.execOflCtxModify e s
  | .oflTlsResync e => Sys2Proof.Machine.execOflTlsResync e s
  | .oflTlsRxRekey e => Sys2Proof.Machine.execOflTlsRxRekey e s
  | .oflNvmeResync e => Sys2Proof.Machine.execOflNvmeResync e s
  | .oflPlaceDrop e => Sys2Proof.Machine.execOflPlaceDrop e s
  | .oflMacsecSa e => Sys2Proof.Machine.execOflMacsecSa e s
  | .oflMacsecSaRemove e => Sys2Proof.Machine.execOflMacsecSaRemove e s
  | .oflMacsecTxAn e => Sys2Proof.Machine.execOflMacsecTxAn e s
  | .oflNotify e => Sys2Proof.Machine.execOflNotify e s
  | .oflQuota e => Sys2Proof.Machine.execOflQuota e s
  | .frerCaps e => Sys2Proof.Machine.execFrerCaps e s
  | .frerMemberSet e => Sys2Proof.Machine.execFrerMemberSet e s
  | .frerMemberClear e => Sys2Proof.Machine.execFrerMemberClear e s
  | .frerCtxSet e => Sys2Proof.Machine.execFrerCtxSet e s
  | .frerCtxClear e => Sys2Proof.Machine.execFrerCtxClear e s
  | .frerCtxQuery e => Sys2Proof.Machine.execFrerCtxQuery e s
  | .frerCtxReset e => Sys2Proof.Machine.execFrerCtxReset e s
  | .mirCfg e => Sys2Proof.Machine.execMirCfg e s
  | .mirStatus e => Sys2Proof.Machine.execMirStatus e s
  | .mirTakeover e => Sys2Proof.Machine.execMirTakeover e s
  | .mirResolve e => Sys2Proof.Machine.execMirResolve e s
  | .mirResync e => Sys2Proof.Machine.execMirResync e s
  | .epochStage e => Sys2Proof.Machine.execEpochStage e s
  | .epochCommit e => Sys2Proof.Machine.execEpochCommit e s
  | .epochAbandon e => Sys2Proof.Machine.execEpochAbandon e s
  | .epochStatus e => Sys2Proof.Machine.execEpochStatus e s
  | .svcPortCounters e => Sys2Proof.Machine.execSvcPortCounters e s
  | .svcEvtRoute e => Sys2Proof.Machine.execSvcEvtRoute e s
  | .svcFlashWrite e => Sys2Proof.Machine.execSvcFlashWrite e s
  | .svcFwActivate e => Sys2Proof.Machine.execSvcFwActivate e s
  | .recoveryFlashRelease => Sys2Proof.Machine.execRecoveryFlashRelease s
  | .svcLogRead e => Sys2Proof.Machine.execSvcLogRead e s
  | .svcHbmRetrain e => Sys2Proof.Machine.execSvcHbmRetrain e s
  | .svcWearQuery e => Sys2Proof.Machine.execSvcWearQuery e s
  | .dbgHalt v => Sys2Proof.Machine.execDbgHalt v s
  | .dbgResume v => Sys2Proof.Machine.execDbgResume v s
  | .dbgStep v => Sys2Proof.Machine.execDbgStep v s
  | .dbgAbort v => Sys2Proof.Machine.execDbgAbort v s
  | .dbgBpSet v => Sys2Proof.Machine.execDbgBpSet v s
  | .dbgSoftBp v => Sys2Proof.Machine.execDbgSoftBp v s
  | .cpyGo fn ch v => Sys2Proof.Machine.execCpyGo fn ch v s
  | .cpyStop fn ch v => Sys2Proof.Machine.execCpyStop fn ch v s
  | .cpyChCfgWrite fn ch w v => Sys2Proof.Machine.execCpyChCfgWrite fn ch w v s
  | .cpyTurn unit io => Sys2Proof.Machine.execCpyTurn unit io s
  | .cpyFlushDone ch failed lost => Sys2Proof.Machine.execCpyFlushDone ch failed lost s
  | .cpyPaceMessage ch => Sys2Proof.Machine.execCpyPaceMessage ch s
  | .hbmAccess region off write r late => Sys2Proof.Machine.execHbmAccess region off write r late s
  | .hbmRowClose pc bank => Sys2Proof.Machine.execHbmRowClose pc bank s
  | .hbmRefreshDue pc bank busy => Sys2Proof.Machine.execHbmRefreshDue pc bank busy s
  | .hbmSrEnter k => Sys2Proof.Machine.execHbmSrEnter k s
  | .hbmSrExit k => Sys2Proof.Machine.execHbmSrExit k s
  | .hbmTempHigh k t => Sys2Proof.Machine.execHbmTempHigh k t s
  | .hbmDrift k t => Sys2Proof.Machine.execHbmDrift k t s
  | .hbmSoftRepair pc bank row => Sys2Proof.Machine.execHbmSoftRepair pc bank row s
  | .glbFencePop fn v => Sys2Proof.Machine.execGlbFencePop fn v s
  | .glbFatal unit => Sys2Proof.Machine.execGlbFatal unit s
  | .fatalResetTimeout io => Sys2Proof.Machine.execFatalResetTimeout io s
  | .fwCoreSpared position => Sys2Proof.Machine.execFwCoreSpared position s
  | .wearSample d khz => Sys2Proof.Machine.execWearSample d khz s
  | .wearRecordSave stress => Sys2Proof.Machine.execWearRecordSave stress s
  | .powerOn io => Sys2Proof.Machine.execPowerOn io s
  | .bootWatchdog io => Sys2Proof.Machine.execBootWatchdog io s
  | .vinLoss mv => Sys2Proof.Machine.execVinLoss mv s
  | .vinRestored x io => Sys2Proof.Machine.execVinRestored x io s
  | .vinOvercurrent ca ns => Sys2Proof.Machine.execVinOvercurrent ca ns s
  | .phaseFault n => Sys2Proof.Machine.execPhaseFault n s
  | .railFault d => Sys2Proof.Machine.execRailFault d s
  | .clusterGate c => Sys2Proof.Machine.execClusterGate c s
  | .clusterUngate c => Sys2Proof.Machine.execClusterUngate c s
  | .deepIdleEnter => Sys2Proof.Machine.execDeepIdleEnter s
  | .deepIdleExit => Sys2Proof.Machine.execDeepIdleExit s
  | .throttleRise x => Sys2Proof.Machine.execThrottleRise x s
  | .throttleFall x => Sys2Proof.Machine.execThrottleFall x s
  | .tjCrit x => Sys2Proof.Machine.execTjCrit x s
  | .thermalTrip x => Sys2Proof.Machine.execThermalTrip x s
  | .corePllUnlock => Sys2Proof.Machine.execCorePllUnlock s
  | .corePllTimeout => Sys2Proof.Machine.execCorePllTimeout s
  | .coldRstN ns x io => Sys2Proof.Machine.execColdRstN ns x io s
  | .glbResetCold fn v io => Sys2Proof.Machine.execGlbResetCold fn v io s
  | .glbResetWarm fn v io => Sys2Proof.Machine.execGlbResetWarm fn v io s
  | .glbResetCluster fn v failed => Sys2Proof.Machine.execGlbResetCluster fn v failed s
  | .timeClockTick => Sys2Proof.Machine.execTimeClockTick s
  | .ovnAdcSample code tripped => Sys2Proof.Machine.execOvnAdcSample code tripped s
  | .uncorrectableStateError unit obj frames => Sys2Proof.Machine.execUncorrectableStateError unit obj frames s
  | .rateWindowEnd r errors => Sys2Proof.Machine.execRateWindowEnd r errors s
  | .vinAonLoss mv => Sys2Proof.Machine.execVinAonLoss mv s
  | .pwrVinLow mv => Sys2Proof.Machine.execPwrVinLow mv s
  | .pwrVinHigh mv => Sys2Proof.Machine.execPwrVinHigh mv s
  | .pwrVinAonLow mv => Sys2Proof.Machine.execPwrVinAonLow mv s
  | .corePllRelock => Sys2Proof.Machine.execCorePllRelock s
  | .pwrTjHigh x => Sys2Proof.Machine.execPwrTjHigh x s
  | .pwrSensorFault sensor t => Sys2Proof.Machine.execPwrSensorFault sensor t s
  | .hbmTempCrit k t => Sys2Proof.Machine.execHbmTempCrit k t s
  | .hbmTempNormal k t => Sys2Proof.Machine.execHbmTempNormal k t s
  | .prtRemoteFaultEnd port => Sys2Proof.Machine.execPrtRemoteFaultEnd port s
  | .prtLocalFaultEnd port => Sys2Proof.Machine.execPrtLocalFaultEnd port s
  | .preemptResponseRx port => Sys2Proof.Machine.execPreemptResponseRx port s
  | .mgmtLinkUp speed => Sys2Proof.Machine.execMgmtLinkUp speed s
  | .mgmtLinkDown => Sys2Proof.Machine.execMgmtLinkDown s
  | .ncsiPassthroughFrame data => Sys2Proof.Machine.execNcsiPassthroughFrame data s
  | .priReset f alloc => Sys2Proof.Machine.execPriReset f alloc s
  | .tmDelayAlarm q => Sys2Proof.Machine.execTmDelayAlarm q s
  | .flowAgePassStart half => Sys2Proof.Machine.execFlowAgePassStart half s
  | .mirResyncDone => Sys2Proof.Machine.execMirResyncDone s

end Sys2Proof.Machine
end

