-- ==== Sys2Proof/Safety.lean ====
section
/-! DEFINITION. What every state of a run should satisfy: the invariant that each command keeps. -/

namespace Sys2Proof.Machine

/-- Device time is a legal count: below 10^9 nanoseconds, a 48-bit fraction, 48-bit seconds (spec/02_time_base.md R38,
R39). -/
def DevTime.legal (t : DevTime) : Prop := t.ns < 1000000000 ∧ t.frac < 2 ^ 48 ∧ t.sec < 2 ^ 48

/-- The manager role lies with PF0 or PF2, or with nobody in the recovery personality (spec/00_scope.md R7; log 171). -/
def managerLegal (m : Nat) : Prop := m = 0 ∨ m = 2 ∨ m = 4096

/-- Keys strictly rising: nothing is listed twice. -/
def rising {α : Type} (m : SMap α) : Prop := List.Pairwise (· < ·) m.keys

/-- Memory bytes in canonical form: addresses strictly rising, no byte listed that reads as an unlisted one. -/
def memCanon (m : SMap Byte) : Prop := rising m ∧ ∀ e ∈ m, e.2 ≠ (0 : Byte)

/-- The invariant: device time is legal, the manager role is legal, the firmware-owned write log, the fence log and the FRER
mismatch log keep their sizes (spec/13_control_interface.md R335, spec/17_errors_and_service.md R391,
spec/10_redundancy.md R262), registers are listed once, and the memories are in canonical form. -/
structure State.Inv (s : State) : Prop where
  time : s.time.legal
  manager : managerLegal s.manager
  fwLog : s.fwLog.length ≤ 256
  fenceLog : s.fenceLog.length ≤ 64
  mmLog : s.mmLog.length ≤ 16
  regs : rising s.regs
  localMem : memCanon s.localMem
  tsram : memCanon s.tsram
  hbmMem : memCanon s.hbmMem
  copyWin : memCanon s.copyWin

/-- A BAR2 access of function fn acts: the rails are up, the recovery personality does not run, and fn holds the manager
role (spec/11_host_interface.md R279). -/
abbrev State.managedBy (s : State) (fn : Nat) : Prop := s.supply.power = .on ∧ s.recovery = false ∧ fn = s.manager

/-- The command c of a code is in service on e's path, no unit it needs is fenced, its payload was taken, has the layout's length and
no rsvd bit, and its response has a place to go (spec/13_control_interface.md R328, R329). -/
abbrev State.serves (s : State) (e : Eci) (c : EciCmd) (code : Nat) (masks : List Nat) : Prop :=
  s.eciCmd e = some c ∧ c.code = code ∧ s.eciFenced e.fn code = false ∧ c.rc = 0 ∧ shapeOk masks c = true ∧
    ¬(e.path = .admin ∧ c.resp ≠ 0 ∧ e.respFault = true)

/-- A command of a code, as State.serves says, with the payload words p. -/
abbrev State.takes (s : State) (e : Eci) (code : Nat) (masks p : List Nat) : Prop :=
  ∃ c, c ∈ s.eciCmd e ∧ s.serves e c code masks ∧ c.words = p

/-- A command of the manager's, with the payload words p. -/
abbrev State.orders (s : State) (e : Eci) (code : Nat) (masks p : List Nat) : Prop :=
  s.takes e code masks p ∧ e.fn = s.manager

/-- JTAG owns cluster c's debug control, and the words p of its command have the layout's length and no rsvd bit
(spec/05_brew_engines.md R143, R144). -/
abbrev State.jtagTakes (s : State) (c code : Nat) (masks p : List Nat) : Prop :=
  s.on F.BRW_DBG_CTL_JTAG_OWNS c = true ∧ shapeOk masks { code := code, len := p.length, words := p } = true

/-- The answer to a command. -/
abbrev State.answers (s : State) (e : Eci) (rc : Nat) (w : List Nat) : State := s.eciReply e.fn e.path rc w e.badOut

/-- A long command c of e's function starts in state t: its ticket is kept, and the mailbox answers IN_PROGRESS with it
(spec/13_control_interface.md R324). -/
def State.ticketed (t : State) (e : Eci) (c : EciCmd) : State :=
  let l : LongCmd := { ticket := t.fresh % 65536, path := e.path, cmd := c, since := t.now }
  let u := { t.used with longs := t.longs.setD e.fn (some l) none }
  if e.path = .mailbox then u.mbxReply e.fn RC_IN_PROGRESS [l.ticket] e.badOut else u

/-- The ALU part op of a word acts on thread t: the thread may issue, nothing it names is pending, and no encoding in it is
reserved (spec/06_microcode.md R151, R155, R161). -/
abbrev State.aluRuns (s : State) (t op : Nat) (f : AluArgs) : Prop :=
  s.canIssue t = true ∧ (s.thread t).pendingOn (aluReads op f ++ aluDests op f) = false ∧ aluReserved op f = 0

/-- Z and N of a result, with C and V, as bits 0 to 3 of the flags. -/
def nzcv (v : Nat) (c o : Bool) : Nat := b2n (v == 0) + 2 * b2n (bit v 63) + 4 * b2n c + 8 * b2n o

/-- An exact sum or difference does not fit 64 signed bits. -/
def overflows (x : Int) : Bool := decide (x < -(2 ^ 63 : Int) ∨ (2 ^ 63 : Int) ≤ x)

/-- An ALU part ends: the thread is READY; with sf its Z, N, C and V are those of result v and of c and o; v is in the
destination, a special's side effect has come about (INBOX_POP returns a credit, R117), and reads of RAND have used free values. -/
def State.aluEnds (s : State) (t op : Nat) (f : AluArgs) (v : Nat) (c o : Bool) : State :=
  ((((((s.modThread t (fun th => { th with st := .ready })).when f.sf
    (fun u => u.modThread t (fun th => { th with flags := th.flags / 16 * 16 + nzcv v c o }))).writeOp t f.dst v)).specials t
    (if 201 ≤ f.dst ∧ f.dst ≤ 203 then [(f.dst, v)] else [])).randUsed (aluReads op f)).when (f.dst == 203) State.wake

/-- A compare or a test ends: the flags alone are set, whatever SF holds. -/
def State.aluTests (s : State) (t op : Nat) (f : AluArgs) (v : Nat) (c o : Bool) : State :=
  (((s.modThread t (fun th => { th with st := .ready })).modThread t
    (fun th => { th with flags := th.flags / 16 * 16 + nzcv v c o })).randUsed (aluReads op f)).when (f.dst == 203) State.wake

/-- The MEM part op of a word acts on thread t within its region (R156, R157). -/
abbrev State.memRuns (s : State) (t op : Nat) (f : MemArgs) : Prop :=
  s.canIssue t = true ∧ (s.thread t).pendingOn (memReads op f ++ memDests op f) = false ∧ memOk op f = true ∧
    memReserved op f = 0 ∧ s.memInRange t f = true

/-- A thread is READY. -/
def State.made (s : State) (t : Nat) : State := s.modThread t (fun th => { th with st := .ready })

/-- A result is on its way to a thread's operands, which are pending until it arrives (R157, R158). -/
def State.awaits (s : State) (t : Nat) (dests values : List Nat) (bad : Bool) : State :=
  s.modThread t (fun th => { th with board := th.board ++ dests, pend := th.pend ++ [{ dests := dests, values := values, bad := bad }] })

/-- The HBM data that a MEM part of thread t touches is uncorrectable (R157). -/
def State.memBad (s : State) (t : Nat) (f : MemArgs) : Bool := f.space == 2 && s.hbmPoisoned dataPool (s.memKey t 2 (s.memAddr t f)) f.size

/-- The TBL part op of a word acts on thread t on a table that exists, with a credit of the cluster's lookup queue (R158;
spec/01_architecture.md R20). -/
abbrev State.tblRuns (s : State) (t op : Nat) (f : TblArgs) : Prop :=
  s.canIssue t = true ∧ (s.thread t).pendingOn (tblReads op f ++ tblDests op f) = false ∧ tblOk op f = true ∧ f.table < 4 ∧
    (s.lookups (clusterOf t)).length < 256

/-- A table result is on its way. -/
def State.awaitsTable (s : State) (t op : Nat) (f : TblArgs) (key values : List Nat) (since : Nat) : State :=
  s.modThread t (fun th => { th with
    board := th.board ++ tblDests op f
    pend := th.pend ++ [{ table := true, dests := tblDests op f, values := values, tableNo := f.table, key := key, since := since }] })

/-- The word w, fetched from pc, issues on thread t with SEQ operation op and none of its checks or waits: no breakpoint,
no pending operand, no lookup credit missing, neither CHKE, STRICT nor POST (spec/06_microcode.md R152, R159, R160, R161). -/
abbrev State.wordIssues (s : State) (t op w pc : Nat) : Prop :=
  s.canIssue t = true ∧ s.addrBreak t = false ∧ s.fetch t = .word w pc ∧ wSeq w = op ∧ s.softBreak t w = false ∧
    (s.thread t).pendingOn (wGuards w) = false ∧ s.lookupCredit t (wTblOp w) (wTbl w) = true ∧ wCtl w 14 = false ∧ wCtl w 11 = false ∧ wCtl w 13 = false

/-- A thread at the address its word w came from, what the memories corrected counted. -/
def State.atWord (s : State) (t w pc : Nat) (x : WordIo) : State := (s.wordErrors t w x).modThread t (fun th => { th with pc := pc })

/-- Thread t's oldest offload request m, which the command of this route serves, is a REQUEST to a die with a group in service, with an
operation its unit has and no rsvd bit, of a thread whose packet p, at handle h, came from a port (spec/07_offloads.md
R170 to R176). -/
abbrev State.asksOffload (s : State) (t route : Nat) (m : ChanMsg) (h : Nat) (p : Packet) : Prop :=
  s.oflRequest t = some m ∧ m.route = route ∧ m.type = 1 ∧ s.isFenced (unitOfl (s.groupOf m)) 0 = false ∧ (s.thread t).pkt = some h ∧
    s.pkt h = some p ∧ p.fromWire = true ∧ m.rsvd = false ∧ (if m.defer then Machine.deferredOp m.unit m.op else Machine.immediateOp m.unit m.op) = true

end Sys2Proof.Machine

namespace Sys2Proof

/-- The function that sends a write of the manager's register space: the rows that stand for one (spec/11_host_interface.md
R279). -/
def Instr.bar2Writer : Instr → Option Nat
  | .debugWindowWrite fn _ _ _ _ => some fn
  | .cpyGo fn _ _ => some fn
  | .cpyStop fn _ _ => some fn
  | .cpyChCfgWrite fn _ _ _ => some fn
  | .hifMigConsWrite fn _ _ => some fn
  | .glbFencePop fn _ => some fn
  | .frerMmPop fn _ => some fn
  | .jnlCtrlWrite fn _ => some fn
  | .jnlConsWrite fn _ => some fn
  | .ovnEnWrite fn _ => some fn
  | .ovnHoldWrite fn _ => some fn
  | .ovnOtLatchClear fn _ => some fn
  | .ovnEfcWrite fn _ => some fn
  | .prtGroupApply fn _ => some fn
  | .portReset fn _ _ => some fn
  | .stormClear fn _ _ => some fn
  | .preemptEnableWrite fn _ _ => some fn
  | .counterOwnerCommit fn _ => some fn
  | .glbResetCold fn _ _ => some fn
  | .glbResetWarm fn _ _ => some fn
  | .glbResetCluster fn _ _ => some fn
  | .registerWrite fn (.bar2 _) _ _ => some fn
  | .relDeviceWrite fn _ => some fn
  | .relCfgWrite fn _ => some fn
  | .tblL2AgeEnWrite fn _ _ => some fn
  | .l2ReadCmd fn _ => some fn
  | .tsuFreqOffsetWrite fn _ _ => some fn
  | .tsuStepArm fn _ _ => some fn
  | .tsuStepCancel fn _ => some fn
  | .tsuSlewSetWrite fn _ _ => some fn
  | .tsuSlewRateWrite fn _ => some fn
  | .tsuBoardDlyWrite fn _ _ => some fn
  | .tsuRefWrite fn _ => some fn
  | .tmNodeAccess fn _ => some fn
  | .tmObsCfgWrite fn _ => some fn
  | _ => none

/-- The command of the control interface that a row serves, and its code (spec/13_control_interface.md R336). -/
def Instr.eciRow : Instr → Option (Eci × Nat)
  | .fnAssignVfs e => some (e, 0x0200)
  | .fnGrant e => some (e, 0x0201)
  | .fnQuery e => some (e, 0x0202)
  | .fnQuiesce e => some (e, 0x0203)
  | .fnRelease e => some (e, 0x0203)
  | .fnRemove e => some (e, 0x0207)
  | .fnMigrateLog e => some (e, 0x0206)
  | .mgrRole e => some (e, 0x0208)
  | .epochStage e => some (e, 0x0900)
  | .epochCommit e => some (e, 0x0901)
  | .epochAbandon e => some (e, 0x0902)
  | .epochStatus e => some (e, 0x0903)
  | .oflCaps e => some (e, 0x0700)
  | .oflQuota e => some (e, 0x070C)
  | .oflCtxCreate e => some (e, 0x0701)
  | .oflCtxDestroy e => some (e, 0x0702)
  | .oflCtxQuery e => some (e, 0x0703)
  | .oflCtxModify e => some (e, 0x0704)
  | .oflTlsResync e => some (e, 0x0705)
  | .oflTlsRxRekey e => some (e, 0x0706)
  | .oflNvmeResync e => some (e, 0x0707)
  | .oflPlaceDrop e => some (e, 0x0708)
  | .oflMacsecSa e => some (e, 0x0709)
  | .oflMacsecSaRemove e => some (e, 0x0709)
  | .oflMacsecTxAn e => some (e, 0x070A)
  | .oflNotify e => some (e, 0x070B)
  | .tmCaps e => some (e, 0x0400)
  | .tmNodeCreate e => some (e, 0x0401)
  | .tmTenantGrant e => some (e, 0x0409)
  | .tmNodeDestroy e => some (e, 0x0402)
  | .tmNodeSet e => some (e, 0x0403)
  | .tmNodeQuery e => some (e, 0x0404)
  | .tmQueueFlush e => some (e, 0x0405)
  | .tmMcastSet e => some (e, 0x0406)
  | .tmMcastQuery e => some (e, 0x0407)
  | .tmObsDump e => some (e, 0x0408)
  | .frerCaps e => some (e, 0x0800)
  | .frerMemberSet e => some (e, 0x0801)
  | .frerMemberClear e => some (e, 0x0801)
  | .frerCtxSet e => some (e, 0x0802)
  | .frerCtxClear e => some (e, 0x0802)
  | .frerCtxQuery e => some (e, 0x0803)
  | .frerCtxReset e => some (e, 0x0804)
  | .mirResync e => some (e, 0x0809)
  | .mirCfg e => some (e, 0x0805)
  | .mirStatus e => some (e, 0x0806)
  | .mirTakeover e => some (e, 0x0807)
  | .mirResolve e => some (e, 0x0808)
  | .timeGet e => some (e, 0x0500)
  | .timeFreq e => some (e, 0x0501)
  | .timeStep e => some (e, 0x0502)
  | .timeStepCancel e => some (e, 0x0502)
  | .timeSlew e => some (e, 0x0503)
  | .timeStatus e => some (e, 0x0504)
  | .timeIo e => some (e, 0x0505)
  | .ovenSet e => some (e, 0x0506)
  | .ovenStatus e => some (e, 0x0507)
  | .relCaps e => some (e, 0x0600)
  | .relGroupSet e => some (e, 0x0601)
  | .relGroupQuery e => some (e, 0x0602)
  | .relStampRing e => some (e, 0x0603)
  | .relStampRingClear e => some (e, 0x0603)
  | .jnlQueueSet e => some (e, 0x0604)
  | .jnlQueueRemove e => some (e, 0x0604)
  | .jnlIdentity e => some (e, 0x0605)
  | .jnlStatus e => some (e, 0x0606)
  | .jnlRestart e => some (e, 0x0607)
  | .tblL2Write e => some (e, 0x0300)
  | .tblL2Delete e => some (e, 0x0300)
  | .tblL2Read e => some (e, 0x0301)
  | .tblL2Flush e => some (e, 0x0302)
  | .tblFlowInsert e => some (e, 0x0303)
  | .tblFlowDelete e => some (e, 0x0304)
  | .tblFlowLookup e => some (e, 0x0305)
  | .tblRouteBatch e => some (e, 0x0306)
  | .tblRouteLookup e => some (e, 0x0307)
  | .eciVersion e => some (e, 0x0000)
  | .eciIdentity e => some (e, 0x0001)
  | .eciFuncInfo e => some (e, 0x0002)
  | .eciPoll e => some (e, 0x0003)
  | .adminCreate e => some (e, 0x0100)
  | .adminDestroy e => some (e, 0x0101)
  | .queueCreate e => some (e, 0x0102)
  | .queueDestroy e => some (e, 0x0103)
  | .queueStart e => some (e, 0x0104)
  | .queueStop e => some (e, 0x0105)
  | .queueInvalidate e => some (e, 0x0106)
  | .queueQuery e => some (e, 0x0107)
  | .fnSave e => some (e, 0x0204)
  | .fnRestore e => some (e, 0x0205)
  | .svcPortCounters e => some (e, 0x0A00)
  | .svcEvtRoute e => some (e, 0x0A01)
  | .svcLogRead e => some (e, 0x0A04)
  | .svcFlashWrite e => some (e, 0x0A02)
  | .svcFwActivate e => some (e, 0x0A03)
  | .svcHbmRetrain e => some (e, 0x0A05)
  | .svcWearQuery e => some (e, 0x0A06)
  | .dbgHalt (.eci e) => some (e, 0x0B00)
  | .dbgResume (.eci e) => some (e, 0x0B01)
  | .dbgStep (.eci e) => some (e, 0x0B02)
  | .dbgAbort (.eci e) => some (e, 0x0B03)
  | .dbgBpSet (.eci e) => some (e, 0x0B04)
  | .dbgSoftBp (.eci e) => some (e, 0x0B05)
  | _ => none

/-- The rows of the time base and the oven that are not commands of the control interface (spec/02_time_base.md). -/
def Instr.timeRow : Instr → Bool
  | .tsuFreqOffsetWrite _ _ _ => true
  | .tsuStepArm _ _ _ => true
  | .tsuStepCancel _ _ => true
  | .timeStepApplied => true
  | .tsuSlewSetWrite _ _ _ => true
  | .tsuSlewRateWrite _ _ => true
  | .timeSlewDone => true
  | .timeSecondBoundary => true
  | .tsuTimeNsfRead _ => true
  | .timeHoldoverEnter => true
  | .tsuBoardDlyWrite _ _ _ => true
  | .tsuRefWrite _ _ => true
  | .timeRefLost => true
  | .timeRefRestored => true
  | .timePllUnlock => true
  | .ppsInCaptured _ => true
  | .ppsInMissing => true
  | .ovnEnWrite _ _ => true
  | .ovnHoldWrite _ _ => true
  | .ovnSettling => true
  | .ovnLocked => true
  | .ovnUnlocked => true
  | .ovnFaultSense => true
  | .ovnFaultWarmup => true
  | .ovnOvertemp => true
  | .ovnOtLatchClear _ _ => true
  | .ovnDutyLimit => true
  | .ovnEfcWrite _ _ => true
  | .timeClockTick => true
  | .ovnAdcSample _ _ => true
  | _ => false

/-- The registers that those rows may write: the time unit's, the oven's, pending events, the journal's backlog and its
counters, and the host interface's counters (spec/02_time_base.md, spec/11_host_interface.md R279, R283). -/
def timeRegs : List Machine.Reg :=
  [.TSU_STATUS, .TSU_FREQ_OFFSET, .TSU_INCR, .TSU_STEP_CTRL, .TSU_SLEW_RATE, .TSU_BOARD_DLY, .TSU_REF, .TSU_PPS_IN,
    .OVN_STATUS, .OVN_CTRL, .OVN_SENSE, .OVN_EFC, .EVT_PEND, .JNL_STATUS, .JNL_CTR, .HIF_CTR]

/-- The ALU part a row stands for: thread, operation and fields (spec/06_microcode.md R155). -/
def Instr.aluPart : Instr → Option (Nat × Nat × AluArgs)
  | .aluMov t f _ _ => some (t, 0x01, f)
  | .aluAdd t f _ _ => some (t, 0x02, f)
  | .aluSub t f _ _ => some (t, 0x03, f)
  | .aluAnd t f _ _ => some (t, 0x04, f)
  | .aluOr t f _ _ => some (t, 0x05, f)
  | .aluXor t f _ _ => some (t, 0x06, f)
  | .aluAndn t f _ _ => some (t, 0x07, f)
  | .aluShlv t f _ _ => some (t, 0x08, f)
  | .aluShrv t f _ _ => some (t, 0x09, f)
  | .aluSarv t f _ _ => some (t, 0x0A, f)
  | .aluMinu t f _ _ => some (t, 0x0B, f)
  | .aluMaxu t f _ _ => some (t, 0x0C, f)
  | .aluCmp t f _ _ => some (t, 0x0D, f)
  | .aluTst t f _ _ => some (t, 0x0E, f)
  | .aluIns t f _ _ => some (t, 0x0F, f)
  | .aluPopc t f _ _ => some (t, 0x10, f)
  | .aluClz t f _ _ => some (t, 0x11, f)
  | .aluBswap t f _ _ => some (t, 0x12, f)
  | .aluCrc t f _ _ => some (t, 0x13, f)
  | .aluAddc t f _ _ => some (t, 0x14, f)
  | .aluSubb t f _ _ => some (t, 0x15, f)
  | .aluSel t f _ _ => some (t, 0x16, f)
  | .aluMul32 t f _ _ => some (t, 0x17, f)
  | _ => none

end Sys2Proof
end

