-- ==== Sys2Proof/WellFormed.lean ====
section
/-! DEFINITION. Which commands are well formed: every operand lies in the range its register, field or object number
has in the spec. The meanings are defined on all commands; a command that is not well formed names nothing that exists. -/

namespace Sys2Proof

/-- An operand below a bound. -/
def below (bound x : Nat) : Bool := decide (x < bound)

/-- A node of the scheduler’s top level: 16 network ports and four host nodes (spec/08_traffic_manager.md R204). -/
def okNodePort (x : Nat) : Bool := below (20) x
/-- A function number: four PFs and 2,048 VFs (spec/11_host_interface.md R273). -/
def okFn (x : Nat) : Bool := below (2052) x
/-- A PF. -/
def okPf (x : Nat) : Bool := below (4) x
/-- A network port or lane. -/
def okPort (x : Nat) : Bool := below (16) x
/-- A host port. -/
def okHostPort (x : Nat) : Bool := below (2) x
/-- A thread: 16 clusters of 64, and behind them those of engines that are swapped out (State.threads). -/
def okThread (x : Nat) : Bool := below (2048) x
/-- A 32-bit register word. -/
def okWord (x : Nat) : Bool := below (2 ^ 32) x
/-- A copy channel. -/
def okChannel (x : Nat) : Bool := below (1024) x
/-- A pipeline. -/
def okPipe (x : Nat) : Bool := below (4) x
/-- One of two: a half, a die, a lane group, a stack, a link. -/
def okHalf (x : Nat) : Bool := below (2) x
/-- An L2 entry of a pipeline. -/
def okL2Index (x : Nat) : Bool := below (524288) x
/-- A flow location of a half. -/
def okFlowLoc (x : Nat) : Bool := below (33554432) x
/-- A pseudo-channel. -/
def okPc (x : Nat) : Bool := below (64) x
/-- A bank of a pseudo-channel (key of State.hbm). -/
def okBank (x : Nat) : Bool := below (16) x
/-- A row number. -/
def okHbmRow (x : Nat) : Bool := below (2 ^ 32) x
/-- A migration slot. -/
def okSlot (x : Nat) : Bool := below (64) x
/-- A power domain. -/
def okDomain (x : Nat) : Bool := below (64) x
/-- A unit identifier. -/
def okUnit (x : Nat) : Bool := below (65536) x
/-- A queue page. -/
def okPage (x : Nat) : Bool := below (7936) x
/-- A fairness group. -/
def okGroup (x : Nat) : Bool := below (64) x
/-- One of four: a Barista position, an offload group, a scheduler slice. -/
def okCore (x : Nat) : Bool := below (4) x
/-- A ring key: 131,072 numbers in five classes. -/
def okRingKey (x : Nat) : Bool := below (655360) x
/-- A ring number. -/
def okRing (x : Nat) : Bool := below (131072) x
/-- A scheduler queue. -/
def okQueue (x : Nat) : Bool := below (65536) x
/-- A pause time. -/
def okPause (x : Nat) : Bool := below (65536) x
/-- An 8-bit field. -/
def okByte (x : Nat) : Bool := below (256) x
/-- An HBM region. -/
def okRegion (x : Nat) : Bool := below (8) x
/-- A flow-control class, 8 for PAUSE. -/
def okHoldClass (x : Nat) : Bool := below (9) x
/-- A sequence context. -/
def okFrerCtx (x : Nat) : Bool := below (2048) x
/-- A cluster or a copy unit. -/
def okCluster (x : Nat) : Bool := below (16) x
/-- A control-store address. -/
def okCsAddr (x : Nat) : Bool := below (65536) x
/-- A logical engine. -/
def okEngine (x : Nat) : Bool := below (8) x
/-- An offset of the push window. -/
def okPushOff (x : Nat) : Bool := below (256) x
/-- A word of EVT_PEND. -/
def okPendWord (x : Nat) : Bool := below (18) x
/-- One of three. -/
def okSpeed (x : Nat) : Bool := below (3) x
/-- A converter code. -/
def okAdc (x : Nat) : Bool := below (65536) x
/-- An offset of a debug window. -/
def okDebugOff (x : Nat) : Bool := below (0x8000) x
/-- An offset of BAR2: 512 MiB. -/
def okBar2 (x : Nat) : Bool := below (0x20000000) x
/-- NumVFs. -/
def okVfNum (x : Nat) : Bool := below (2049) x

/-- A value of a 64-bit register's write: 64 bits, or 32 for one of its words. -/
def okWidth (w : Width) (v : Nat) : Bool :=
  match w with
  | .full => below (2 ^ 64) v
  | _ => below (2 ^ 32) v

/-- The ALU part's fields have their widths. -/
def okAlu (f : AluArgs) : Bool := below 256 f.dst && below 256 f.a && below 256 f.b && below 65536 f.shift

/-- The MEM part's fields have their widths. -/
def okMem (f : MemArgs) : Bool :=
  below 4 f.scale && below 256 f.reg && below 16 f.space && below (2 ^ 20) f.offset && below 256 f.size && below (2 ^ 32) f.imm

/-- The TBL part's fields have their widths. -/
def okTbl (f : TblArgs) : Bool := below 256 f.table && below 256 f.key && below 256 f.res && below 16 f.flags

/-- An ECI command is a function's. -/
def okE (e : Eci) : Bool := okFn e.fn

/-- A debug command is a function's, or its payload words are 32 bits each. -/
def okVia (v : DebugVia) : Bool :=
  match v with
  | .eci e => okE e
  | .jtag words => words.all okWord

/-- A register access: BAR0 of a PF is 4 MiB, BAR2 512 MiB, configuration space 4 KiB; 4 or 8 bytes are what a register takes, other sizes have the
effect R14 gives. -/
def okPlace (p : RegPlace) : Bool :=
  match p with
  | .bar2 off => okBar2 off
  | .bar0 off => below 0x400000 off
  | .cfg off => below 0x1000 off
  | _ => true

/-- A well-formed command. -/
def Instr.wf (i : Instr) : Bool :=
  match i with
  | .registerWrite fn place _ v => okFn fn && okPlace place && below (2 ^ 64) v
  | .rcRegisterRead fn place _ => okFn fn && okPlace place
  | .lowWordRead fn off => okFn fn && okBar2 off
  | .creditStall _ _ => true
  | .fenceNotice unit _ => okUnit unit
  | .macRxFrame port _ => okPort port
  | .grinderParse _ => true
  | .l2SourceCheck _ => true
  | .dispatch pipe => okPipe pipe
  | .reorderRelease _ => true
  | .deferredStage _ _ => true
  | .tmEnqueue _ => true
  | .tmSchedule slice port => okCore slice && okNodePort port
  | .macTxFrame port _ _ _ => okPort port
  | .rxDma _ _ _ => true
  | .holdListDeliver ring _ _ => okRingKey ring
  | .rxHoldTimeout _ => true
  | .txBufferData _ _ => true
  | .epochCommitted => true
  | .epochDrained => true
  | .tsuFreqOffsetWrite fn w v => okFn fn && okWidth w v
  | .tsuStepArm fn _ _ => okFn fn
  | .tsuStepCancel fn _ => okFn fn
  | .timeStepApplied => true
  | .tsuSlewSetWrite fn w v => okFn fn && okWidth w v
  | .tsuSlewRateWrite fn v => okFn fn && okWord v
  | .timeSlewDone => true
  | .timeSecondBoundary => true
  | .tsuTimeNsfRead fn => okFn fn
  | .timeHoldoverEnter => true
  | .tsuBoardDlyWrite fn port v => okFn fn && okPort port && okWord v
  | .tsuRefWrite fn v => okFn fn && okWord v
  | .timeRefLost => true
  | .timeRefRestored => true
  | .timePllUnlock => true
  | .ppsInCaptured _ => true
  | .ppsInMissing => true
  | .ovnEnWrite fn v => okFn fn && okWord v
  | .ovnHoldWrite fn v => okFn fn && okWord v
  | .ovnSettling => true
  | .ovnLocked => true
  | .ovnUnlocked => true
  | .ovnFaultSense => true
  | .ovnFaultWarmup => true
  | .ovnOvertemp => true
  | .ovnOtLatchClear fn _ => okFn fn
  | .ovnDutyLimit => true
  | .ovnEfcWrite fn v => okFn fn && okWord v
  | .prtGroupApply fn group => okFn fn && okHalf group
  | .prtLinkUp port _ _ => okPort port
  | .prtLocalFault port => okPort port
  | .prtRemoteFault port => okPort port
  | .prtLinkDown port => okPort port
  | .portReset fn port v => okFn fn && okPort port && okWord v
  | .stormClear fn port v => okFn fn && okPort port && okWord v
  | .rxPauseFrame port time => okPort port && okPause time
  | .rxPfcFrame port enable _ => okPort port && okByte enable
  | .fcHoldExpire port c => okPort port && okHoldClass c
  | .xoffRefresh port c => okPort port && okHoldClass c
  | .prtPauseStorm port c => okPort port && okHoldClass c
  | .preemptEnableWrite fn port v => okFn fn && okPort port && okWord v
  | .preemptVerifyFrame port => okPort port
  | .prtFecDegraded port => okPort port
  | .counterOwnerCommit fn v => okFn fn && okWord v
  | .mgmtFrameRx _ _ => true
  | .ncsiCommand _ => true
  | .l2AgeVisit pipe entry => okPipe pipe && okL2Index entry
  | .l2AgePassStart pipe => okPipe pipe
  | .tblL2AgeEnWrite fn pipe v => okFn fn && okPipe pipe && okWord v
  | .l2ReadCmd fn v => okFn fn && okWord v
  | .flowAgeVisit half loc => okHalf half && okFlowLoc loc
  | .seqInc w => okThread w.t
  | .seqJump w => okThread w.t
  | .seqBr w => okThread w.t
  | .seqBrn w => okThread w.t
  | .seqCall w => okThread w.t
  | .seqRet w => okThread w.t
  | .seqDisp16 w => okThread w.t
  | .seqWait w => okThread w.t
  | .seqDone w => okThread w.t
  | .seqFault w => okThread w.t
  | .aluMov t f imm _ => okThread t && okAlu f && okWord imm
  | .aluAdd t f imm _ => okThread t && okAlu f && okWord imm
  | .aluSub t f imm _ => okThread t && okAlu f && okWord imm
  | .aluAnd t f imm _ => okThread t && okAlu f && okWord imm
  | .aluOr t f imm _ => okThread t && okAlu f && okWord imm
  | .aluXor t f imm _ => okThread t && okAlu f && okWord imm
  | .aluAndn t f imm _ => okThread t && okAlu f && okWord imm
  | .aluShlv t f imm _ => okThread t && okAlu f && okWord imm
  | .aluShrv t f imm _ => okThread t && okAlu f && okWord imm
  | .aluSarv t f imm _ => okThread t && okAlu f && okWord imm
  | .aluMinu t f imm _ => okThread t && okAlu f && okWord imm
  | .aluMaxu t f imm _ => okThread t && okAlu f && okWord imm
  | .aluCmp t f imm _ => okThread t && okAlu f && okWord imm
  | .aluTst t f imm _ => okThread t && okAlu f && okWord imm
  | .aluIns t f imm _ => okThread t && okAlu f && okWord imm
  | .aluPopc t f imm _ => okThread t && okAlu f && okWord imm
  | .aluClz t f imm _ => okThread t && okAlu f && okWord imm
  | .aluBswap t f imm _ => okThread t && okAlu f && okWord imm
  | .aluCrc t f imm _ => okThread t && okAlu f && okWord imm
  | .aluAddc t f imm _ => okThread t && okAlu f && okWord imm
  | .aluSubb t f imm _ => okThread t && okAlu f && okWord imm
  | .aluSel t f imm _ => okThread t && okAlu f && okWord imm
  | .aluMul32 t f imm _ => okThread t && okAlu f && okWord imm
  | .memLd t f _ => okThread t && okMem f
  | .memSt t f _ => okThread t && okMem f
  | .memFadd t f _ => okThread t && okMem f
  | .memSwap t f _ => okThread t && okMem f
  | .memCas t f _ => okThread t && okMem f
  | .memAdd t f _ => okThread t && okMem f
  | .memResultArrive t _ => okThread t
  | .tblLookup t f _ => okThread t && okTbl f
  | .tblInsert t f _ => okThread t && okTbl f
  | .tblDelete t f _ => okThread t && okTbl f
  | .tblLearn t f _ => okThread t && okTbl f
  | .tblResultArrive t _ => okThread t
  | .channelPost t => okThread t
  | .inboxMessageArrive t => okThread t
  | .inboxPop t => okThread t
  | .signal t v => okThread t && okWord v
  | .eventClr t v => okThread t && okWord v
  | .fenceMessage c => okCluster c
  | .hostAccessRequest c _ => okCluster c
  | .threadTimerFire t => okThread t
  | .supResume c _ => okCluster c
  | .supAbort c _ => okCluster c
  | .supFenceThread c _ => okCluster c
  | .supFenceEngine c _ => okCluster c
  | .supEscalate c => okCluster c
  | .supTimeout t => okThread t
  | .runLimitExpire t => okThread t
  | .allWait c e => okCluster c && okEngine e
  | .debugWindowWrite fn t o w v => okFn fn && okThread t && okDebugOff o && okWidth w v
  | .jtagClaim => true
  | .jtagRelease => true
  | .csEccRepair c bank a patch => okCluster c && okHalf bank && okCsAddr a && okCsAddr patch.1 && okCsAddr patch.2
  | .oflDeferRequest t => okThread t
  | .oflCheck t => okThread t
  | .espDecrypt x => okThread x.src
  | .tlsRx x => okThread x.src
  | .nvmeRxPlace x _ => okThread x.src
  | .oflGroupWake g => okCore g
  | .jobKeyCheck _ => true
  | .jobBulkGcm _ _ => true
  | .jobDigest _ _ => true
  | .tmNodeAccess fn v => okFn fn && okWord v
  | .tmObsCfgWrite fn v => okFn fn && okWord v
  | .tmObsSample => true
  | .tmQueueReload q => okQueue q
  | .gclChangeTime port => okPort port
  | .gateChange port => okPort port
  | .launchTimeStart x => okQueue x.q
  | .relDeviceWrite fn v => okFn fn && okWord v
  | .relCfgWrite fn v => okFn fn && okWord v
  | .relEnqueue _ => true
  | .relRelease => true
  | .relSpillReturn _ _ => true
  | .stampFifoDrain port => okPort port
  | .stampGapRecord port => okPort port
  | .jnlCtrlWrite fn v => okFn fn && okWord v
  | .jnlConsWrite fn v => okFn fn && okWord v
  | .jnlRecordCommit _ => true
  | .jnlCheckpoint => true
  | .jnlSignatureDone => true
  | .jnlDigestClose ring _ => okRing ring
  | .jnlClockRecord cause => okByte cause
  | .frerRxDecision _ => true
  | .frerRecoveryTimeout c => okFrerCtx c
  | .frerMmPop fn v => okFn fn && okWord v
  | .mirPeriodicSend => true
  | .mirMessageRx _ => true
  | .mirPeerSilent => true
  | .mirFloorLapse g => okGroup g
  | .hifLinkUp port link rate _ => okHostPort port && okHalf link && okSpeed rate
  | .hifLinkDown port link => okHostPort port && okHalf link
  | .perstAssert port => okHostPort port
  | .hifHotReset port link => okHostPort port && okHalf link
  | .perstDeassert port => okHostPort port
  | .bmeClear f => okFn f
  | .bmeSet f => okFn f
  | .vfEnableWrite pf _ num => okPf pf && okVfNum num
  | .atsEnableClear f => okFn f
  | .pasidEnableClear f => okFn f
  | .dStateChange f _ => okFn f
  | .msixUnmask f _ => okFn f
  | .flrStart f => okFn f
  | .flrEngineAck f _ => okFn f
  | .fnFlrSlow f => okFn f
  | .evtPendW1c f w v => okPf f && okPendWord w && okWord v
  | .evtFnW1c f v => okFn f && okWord v
  | .translationCompletion _ _ => true
  | .invalidateRequest port _ f _ _ _ => okHostPort port && okFn f
  | .invalidateComplete port => okHostPort port
  | .pageResponse f _ _ => okFn f
  | .priResponseTimeout _ => true
  | .hostReadCompletion port _ _ => okHostPort port
  | .cplTimeoutExpire _ => true
  | .qmSqDb fn page w v => okFn fn && okPage page && okWidth w v
  | .pushSlotWrite fn page off _ => okFn fn && okPage page && okPushOff off
  | .qmCqDb fn page w v => okFn fn && okPage page && okWidth w v
  | .descFetchComplete ring _ => okRingKey ring
  | .txJobStart ring => okRingKey ring
  | .completionWrite ring _ => okRingKey ring
  | .cqCoalesceExpire ring => okRingKey ring
  | .headStatusWrite ring _ => okRingKey ring
  | .adminEntryTake f _ _ => okFn f
  | .mbxCmdWrite f v => okFn f && okWord v
  | .cmdAccept f _ => okFn f
  | .mbxAckTimeout f => okFn f
  | .dbFromFwW1c f v => okFn f && okWord v
  | .dbFromFwMaskWrite f v => okFn f && okWord v
  | .dbToFwReady f v => okFn f && okWord v
  | .dbToFwUnload f v => okFn f && okWord v
  | .driverAbsent f => okFn f
  | .fwRestart => true
  | .fwWatchdog core thread => okCore core && okCore thread
  | .longCommandComplete f _ => okFn f
  | .eciVersion e => okE e
  | .eciIdentity e => okE e
  | .eciFuncInfo e => okE e
  | .eciPoll e => okE e
  | .adminCreate e => okE e
  | .adminDestroy e => okE e
  | .queueCreate e => okE e
  | .queueDestroy e => okE e
  | .queueStart e => okE e
  | .queueStop e => okE e
  | .queueInvalidate e => okE e
  | .queueQuery e => okE e
  | .fnAssignVfs e => okE e
  | .fnGrant e => okE e
  | .fnQuery e => okE e
  | .fnQuiesce e => okE e
  | .fnRelease e => okE e
  | .quiescePendingTimeout f => okFn f
  | .fnSave e => okE e
  | .fnRestore e => okE e
  | .fnMigrateLog e => okE e
  | .hifMigConsWrite fn slot v => okFn fn && okSlot slot && okWord v
  | .fnRemove e => okE e
  | .mgrRole e => okE e
  | .tblL2Write e => okE e
  | .tblL2Delete e => okE e
  | .tblL2Read e => okE e
  | .tblL2Flush e => okE e
  | .tblFlowInsert e => okE e
  | .tblFlowDelete e => okE e
  | .tblFlowLookup e => okE e
  | .tblRouteBatch e => okE e
  | .tblRouteLookup e => okE e
  | .tmCaps e => okE e
  | .tmNodeCreate e => okE e
  | .tmNodeDestroy e => okE e
  | .tmNodeSet e => okE e
  | .tmNodeQuery e => okE e
  | .tmQueueFlush e => okE e
  | .tmMcastSet e => okE e
  | .tmMcastQuery e => okE e
  | .tmObsDump e => okE e
  | .tmTenantGrant e => okE e
  | .timeGet e => okE e
  | .timeFreq e => okE e
  | .timeStep e => okE e
  | .timeStepCancel e => okE e
  | .timeSlew e => okE e
  | .timeStatus e => okE e
  | .timeIo e => okE e
  | .ovenSet e => okE e
  | .ovenStatus e => okE e
  | .relCaps e => okE e
  | .relGroupSet e => okE e
  | .relGroupQuery e => okE e
  | .relStampRing e => okE e
  | .relStampRingClear e => okE e
  | .jnlQueueSet e => okE e
  | .jnlQueueRemove e => okE e
  | .jnlIdentity e => okE e
  | .jnlStatus e => okE e
  | .jnlRestart e => okE e
  | .oflCaps e => okE e
  | .oflCtxCreate e => okE e
  | .oflCtxDestroy e => okE e
  | .oflCtxQuery e => okE e
  | .oflCtxModify e => okE e
  | .oflTlsResync e => okE e
  | .oflTlsRxRekey e => okE e
  | .oflNvmeResync e => okE e
  | .oflPlaceDrop e => okE e
  | .oflMacsecSa e => okE e
  | .oflMacsecSaRemove e => okE e
  | .oflMacsecTxAn e => okE e
  | .oflNotify e => okE e
  | .oflQuota e => okE e
  | .frerCaps e => okE e
  | .frerMemberSet e => okE e
  | .frerMemberClear e => okE e
  | .frerCtxSet e => okE e
  | .frerCtxClear e => okE e
  | .frerCtxQuery e => okE e
  | .frerCtxReset e => okE e
  | .mirCfg e => okE e
  | .mirStatus e => okE e
  | .mirTakeover e => okE e
  | .mirResolve e => okE e
  | .mirResync e => okE e
  | .epochStage e => okE e
  | .epochCommit e => okE e
  | .epochAbandon e => okE e
  | .epochStatus e => okE e
  | .svcPortCounters e => okE e
  | .svcEvtRoute e => okE e
  | .svcFlashWrite e => okE e
  | .svcFwActivate e => okE e
  | .recoveryFlashRelease => true
  | .svcLogRead e => okE e
  | .svcHbmRetrain e => okE e
  | .svcWearQuery e => okE e
  | .dbgHalt v => okVia v
  | .dbgResume v => okVia v
  | .dbgStep v => okVia v
  | .dbgAbort v => okVia v
  | .dbgBpSet v => okVia v
  | .dbgSoftBp v => okVia v
  | .cpyGo fn ch v => okFn fn && okChannel ch && okWord v
  | .cpyStop fn ch v => okFn fn && okChannel ch && okWord v
  | .cpyChCfgWrite fn ch w v => okFn fn && okChannel ch && okWidth w v
  | .cpyTurn unit _ => okCluster unit
  | .cpyFlushDone ch _ _ => okChannel ch
  | .cpyPaceMessage ch => okChannel ch
  | .hbmAccess region _ _ _ _ => okRegion region
  | .hbmRowClose pc bank => okPc pc && okBank bank
  | .hbmRefreshDue pc bank _ => okPc pc && okBank bank
  | .hbmSrEnter k => okHalf k
  | .hbmSrExit k => okHalf k
  | .hbmTempHigh k t => okHalf k && okThread t
  | .hbmDrift k t => okHalf k && okThread t
  | .hbmSoftRepair pc bank row => okPc pc && okBank bank && okHbmRow row
  | .glbFencePop fn v => okFn fn && okWord v
  | .glbFatal unit => okUnit unit
  | .fatalResetTimeout _ => true
  | .fwCoreSpared position => okCore position
  | .wearSample d _ => okDomain d
  | .wearRecordSave _ => true
  | .powerOn _ => true
  | .bootWatchdog _ => true
  | .vinLoss _ => true
  | .vinRestored _ _ => true
  | .vinOvercurrent _ _ => true
  | .phaseFault _ => true
  | .railFault d => okDomain d
  | .clusterGate c => okCluster c
  | .clusterUngate c => okCluster c
  | .deepIdleEnter => true
  | .deepIdleExit => true
  | .throttleRise _ => true
  | .throttleFall _ => true
  | .tjCrit _ => true
  | .thermalTrip _ => true
  | .corePllUnlock => true
  | .corePllTimeout => true
  | .coldRstN _ _ _ => true
  | .glbResetCold fn v _ => okFn fn && okWord v
  | .glbResetWarm fn v _ => okFn fn && okWord v
  | .glbResetCluster fn v _ => okFn fn && okWord v
  | .timeClockTick => true
  | .ovnAdcSample code _ => okAdc code
  | .uncorrectableStateError unit _ _ => okUnit unit
  | .rateWindowEnd _ _ => true
  | .vinAonLoss _ => true
  | .pwrVinLow _ => true
  | .pwrVinHigh _ => true
  | .pwrVinAonLow _ => true
  | .corePllRelock => true
  | .pwrTjHigh _ => true
  | .pwrSensorFault _ _ => true
  | .hbmTempCrit k t => okHalf k && okThread t
  | .hbmTempNormal k t => okHalf k && okThread t
  | .prtRemoteFaultEnd port => okPort port
  | .prtLocalFaultEnd port => okPort port
  | .preemptResponseRx port => okPort port
  | .mgmtLinkUp speed => okSpeed speed
  | .mgmtLinkDown => true
  | .ncsiPassthroughFrame _ => true
  | .priReset f _ => okFn f
  | .tmDelayAlarm q => okQueue q
  | .flowAgePassStart half => okHalf half
  | .mirResyncDone => true

end Sys2Proof
end

