-- ==== Sys2Proof/Certificates/Slice0/Obligations.lean ====
section
/-! DEFINITION. The statements about the block, for the provers. -/

open Sys2Proof Sys2Proof.Machine

/-- Each row of the time base, the oven, the ports, the grinders and the tables completes in every state, and for all operands, that meet the conditions before its arrow: exec answers a next state of its own effect, the last of whose changes is shown. -/
def Obligations.TimeAndPortRowsComplete : Prop :=
  ∀ s : State,
  (∀ n x, n < 16 → s.on F.PRT_STATUS_LINK_UP n → ¬s.isFenced (unitPort n) 0 → s.fatal = none → ¬x.assyErr → ∃ t : State, ∃ k, exec (.macRxFrame n x) s = .next (t.macRx n x k)) ∧
  (∀ h p, s.pkt h = some p → p.stage = .received → s.hasParse h p → ¬p.fromWire → s.dispatchCredit p.pipe → ((s.parseTaken p.pipe).parse (grdCopy p.epoch p.pipe) p.data false).err = 0 →
     ∃ t : State, exec (.grinderParse h) s = .next (t.toDispatch h)) ∧
  (∀ p h, s.pkt h = some p → p.stage = .parsed → s.dispatchCredit p.pipe → (s.l2Source p.pipe p.port (srcMac p.data) (outerVid p.data) false).2.1 ≠ 4 → ∃ t : State, exec (.l2SourceCheck h) s = .next (t.toDispatch h)) ∧
  (∀ (n k : Nat) (x : TxIo), n < 16 → s.onWire n = some k → exec (.macTxFrame n x.toTxCells x.phase x.stop) s = .next (s.goOn n k x)) ∧
  (∀ f v, s.managedBy f → (Legal.signed 32768000000).ok 64 (v % 2 ^ 64) → v % 2 ^ 64 ≠ s.steering.val .TSU_FREQ_OFFSET 0 → s.steering.val .TSU_FREQ_OFFSET 0 = s.val .TSU_FREQ_OFFSET 0 →
     ∃ t : State, exec (.tsuFreqOffsetWrite f .full v) s = .next (t.journalSteer 1 (v % 2 ^ 64) (s.val .TSU_FREQ_OFFSET 0))) ∧
  (∀ f abs c, s.managedBy f → ¬s.on F.TSU_STEP_CTRL_ARM 0 → c = false →
     exec (.tsuStepArm f abs c) s = .next ((s.wr F.TSU_STEP_CTRL_ABS 0 (b2n abs)).steering.arm)) ∧
  (∀ f abs, s.managedBy f → s.on F.TSU_STEP_CTRL_ARM 0 → s.on F.TSU_STEP_CTRL_ABS 0 = abs → ∃ t : State, exec (.tsuStepCancel f abs) s = .next t.tsuSync) ∧
  (s.stepApplies → exec .timeStepApplied s = .next s.tick) ∧
  (∀ f v, s.managedBy f → ∃ t : State, exec (.tsuSlewSetWrite f .full v) s = .next t.tsuSync) ∧
  (∀ f v, s.managedBy f → ∃ t : State, exec (.tsuSlewRateWrite f v) s = .next { t with tsu := { t.tsu with slewAcc := 0 } }) ∧
  (s.tsu.counting → s.slewEnds → exec .timeSlewDone s = .next s.tick) ∧
  (s.crosses → exec .timeSecondBoundary s = .next s.tick) ∧
  (∀ f, s.managedBy f → ∃ t : State, ∃ v, exec (.tsuTimeNsfRead f) s = .next (t.send (.readValue f 0x01000000 v))) ∧
  (s.rd F.TSU_STATUS_HOLD_STATE 0 = 1 → s.tsu.steerAt + 2000000000 ≤ s.now → ∃ t : State, exec .timeHoldoverEnter s = .next (t.journalHoldover true s.tsu.steerStamp)) ∧
  (∀ f n v, s.managedBy f → n < 16 → ∃ t : State, ∃ b, exec (.tsuBoardDlyWrite f n v) s = .next (t.journalCfg 0x07 1 b)) ∧
  (∀ f v, s.managedBy f → v % 4 ≤ 2 → v % 4 ≠ s.rd F.TSU_REF_SEL 0 → ∃ t : State, exec (.tsuRefWrite f v) s = .next (t.raise Ev.TIME_REF_SWITCHED)) ∧
  (s.on F.TSU_STATUS_REF_PRESENT 0 → ∃ t : State, exec .timeRefLost s = .next (t.raise Ev.TIME_REF_LOST |>.journalClock 1)) ∧
  (¬s.on F.TSU_STATUS_PLL_LOCKED 0 → ∃ t : State, exec .timeRefRestored s = .next (t.raise Ev.TIME_REF_RESTORED)) ∧
  (s.on F.TSU_STATUS_PLL_LOCKED 0 → exec .timePllUnlock s = .next ((s.tsuStatus F.TSU_STATUS_PLL_LOCKED 0).raise Ev.TIME_PLL_UNLOCK)) ∧
  (∀ x, ∃ t : State, exec (.ppsInCaptured x) s = .next (t.raise Ev.PPS_IN_CAPTURED)) ∧
  (∀ t, s.tsu.ppsAt = some t → t + 1100000000 ≤ s.now → ∃ y : State, exec .ppsInMissing s = .next (y.raise Ev.PPS_IN_MISSING)) ∧
  (∀ f v, s.managedBy f → bit v 31 → ¬(s.put .OVN_CTRL 0 (bits v 31 29 * 2 ^ 29)).ovenIs .overtemp → (s.put .OVN_CTRL 0 (bits v 31 29 * 2 ^ 29)).ovenIs .cold →
     ∃ t : State, exec (.ovnEnWrite f v) s = .next (t.ovenEnter .warming 0)) ∧
  (∀ f v, s.managedBy f → bit v 31 → bit v 30 → (s.put .OVN_CTRL 0 (bits v 31 29 * 2 ^ 29)).rd F.OVN_STATUS_STATE 0 = 3 → ∃ t : State, exec (.ovnHoldWrite f v) s = .next (t.ovenEnter .held 0)) ∧
  (s.ovenIs .warming → s.ovenErr.natAbs ≤ s.rd F.OVN_BANDS_WARM_BAND 0 → ∃ u : State, exec .ovnSettling s = .next (if u.on F.OVN_CTRL_HOLD 0 then u.ovenEnter .held 0 else u)) ∧
  (∀ t, s.oven.inBand = some t → s.ovenIs .settling → t + s.rd F.OVN_LIMITS_SETTLE_S 0 * 1000000000 ≤ s.now →
     exec .ovnLocked s = .next (s.ovenEnter .locked 0)) ∧
  (∀ t, s.oven.outBand = some t → s.ovenIs .locked → t + 1000000000 ≤ s.now →
     exec .ovnUnlocked s = .next ((s.raise Ev.OVN_UNLOCKED).ovenEnter .settling 0)) ∧
  (10 ≤ s.oven.implausible → s.ovenIs .warming → exec .ovnFaultSense s = .next (s.ovenEnter .fault 1)) ∧
  (s.ovenIs .warming → s.oven.since + s.rd F.OVN_LIMITS_WARM_TIMEOUT_MIN 0 * 60000000000 ≤ s.now →
     exec .ovnFaultWarmup s = .next (s.ovenEnter .fault 2)) ∧
  (exec .ovnOvertemp s = .next (((s.wr F.OVN_STATUS_OT_NOW 0 1).wr F.OVN_STATUS_OT_LATCH 0 1).ovenEnter .overtemp 0)) ∧
  (∀ f, s.managedBy f → ((s.wr F.OVN_STATUS_OT_NOW 0 0).wr F.OVN_STATUS_OT_LATCH 0 0).ovenIs .overtemp → ∃ t : State, ∃ m, exec (.ovnOtLatchClear f false) s = .next (t.ovenEnter m 0)) ∧
  (∀ t, s.oven.dutyMax = some t → s.ovenIs .locked → t + 60000000000 ≤ s.now → ¬s.oven.dutyRaised → ∃ y : State, exec .ovnDutyLimit s = .next (y.raise Ev.OVN_DUTY_LIMIT)) ∧
  (∀ f v, s.managedBy f →
     exec (.ovnEfcWrite f v) s = .next ((s.wr F.OVN_EFC_CODE 0 v).journalSteer 5 (v % 2 ^ 20) (s.rd F.OVN_EFC_CODE 0))) ∧
  (∀ f n, s.managedBy f → n < 2 → s.failLane n = none → ∃ t : State, exec (.prtGroupApply f n) s = .next (t.lanePower n)) ∧
  (∀ n a b, n < 16 → s.on F.PRT_STATUS_ACTIVE_EN n → ¬s.on F.PRT_STATUS_LINK_UP n → ¬s.isFenced (unitPort n) 0 → ∃ t : State, exec (.prtLinkUp n a b) s = .next (t.raise (Ev.PRT_LINK_UP n))) ∧
  (∀ n, n < 16 → s.on F.PRT_STATUS_ACTIVE_EN n → ¬s.on F.PRT_STATUS_LOCAL_FAULT n → ∃ t : State, exec (.prtLocalFault n) s = .next ((t.raise (Ev.PRT_LOCAL_FAULT n)).send (.orderedSets n 1))) ∧
  (∀ n, n < 16 → s.on F.PRT_STATUS_ACTIVE_EN n → ¬s.on F.PRT_STATUS_REMOTE_FAULT n → ∃ t : State, exec (.prtRemoteFault n) s = .next (t.raise (Ev.PRT_REMOTE_FAULT n))) ∧
  (∀ n, s.on F.PRT_STATUS_LINK_UP n → s.on F.PRT_STATUS_LOCAL_FAULT n → s.localFault.get n + 10000 ≤ s.now →
     exec (.prtLinkDown n) s = .next (s.linkFalls n)) ∧
  (∀ f n v, s.managedBy f → n < 16 → bit (putBits v 31 31 1) 31 → ¬bit (putBits v 31 31 1) 27 → ∃ t : State, exec (.portReset f n v) s = .next (t.portDown n)) ∧
  (∀ f n v, s.managedBy f → n < 16 → ¬bit (putBits v 27 27 1) 31 → bit (putBits v 27 27 1) 27 → ∃ t : State, exec (.stormClear f n v) s = .next (t.wr F.PRT_STATUS_STORM n 0)) ∧
  (∀ n x (u : State), n < 16 → s.on F.PRT_STATUS_LINK_UP n → u = s.rxControl n → u.honours n 1 → ∃ t : State, exec (.rxPauseFrame n x) s = .next (t.loseDeficits n)) ∧
  (∀ n enable times, n < 16 → s.on F.PRT_STATUS_LINK_UP n → ∃ t : State, exec (.rxPfcFrame n enable times) s = .next (t.loseDeficits n)) ∧
  (∀ h n c, s.holds.getD (holdKey n c) none = some h → c < 9 → h.until_ ≤ s.now * 100 →
     exec (.fcHoldExpire n c) s = .next (s.endHold n c)) ∧
  (∀ t n c, s.xoff.getD (holdKey n c) none = some t → c < 9 → (s.fcClasses n).contains c → 100 * t + s.rd F.PRT_FC_QUANTA_REFRESH n * modeQuantum (s.rd F.PRT_STATUS_ACTIVE_MODE n) ≤ 100 * s.now → s.rd F.PRT_FC_THRESH_XON_KIB n * 1024 < s.occupancy n (if c = 8 then none else some c) →
     ∃ y : State, exec (.xoffRefresh n c) s = .next (y.sendFc n c (s.rd F.PRT_FC_QUANTA_QUANTA n))) ∧
  (∀ h n c, s.holds.getD (holdKey n c) none = some h → c < 9 → s.rd F.PRT_FC_CFG_STORM_MS n ≠ 0 → ¬h.storm → h.since + s.rd F.PRT_FC_CFG_STORM_MS n * 1000000 ≤ s.now →
     ∃ t : State, exec (.prtPauseStorm n c) s = .next (if t.rd F.PRT_FC_CFG_STORM_ACTION n = 1 then (t.wr F.PRT_STATUS_STORM n 1).endHolds n else t)) ∧
  (∀ f n v, s.managedBy f → n < 16 → ¬bit v 31 → exec (.preemptEnableWrite f n v) s = .next (s.preemptWrite n v)) ∧
  (∀ n, s.rd F.PRT_PREEMPT_VERIFY_STATUS n = 1 → (s.verify.get n).2 + s.rd F.PRT_PREEMPT_VERIFY_MS n * 1000000 ≤ s.now → (s.verify.get n).1 < 3 →
     exec (.preemptVerifyFrame n) s = .next (s.sendVerify n ((s.verify.get n).1 + 1))) ∧
  (∀ n, n < 16 → s.windowStart (Ev.PRT_FEC_DEGRADED n) + 1000000000 ≤ s.now → ∃ t : State, ∃ b, exec (.prtFecDegraded n) s = .next (t.when b (fun t => t.raise (Ev.PRT_FEC_DEGRADED n)))) ∧
  (∀ fn v, s.managedBy fn → ¬s.on F.GLB_COUNTER_OWNER_OWNER 0 → v % 2 = 1 → ∃ t : State, ∃ f, exec (.counterOwnerCommit fn v) s = .next (t.each (List.range 16) f)) ∧
  (∀ d b, s.on F.PRT_MGMT_CFG_EN 0 → s.on F.PRT_MGMT_CFG_LINK_UP 0 → d.length + 4 < 64 → ∃ t : State, exec (.mgmtFrameRx d b) s = .next (t.count .PRT_CTR 16 (if b then C.PRT_RX_UNDERSIZE else C.PRT_RX_FRAGMENT))) ∧
  (∀ c (n : NcSi), (s.ncsi.ready = true ∨ ncsiFirst c) → s.ncsi.set c = some n →
     exec (.ncsiCommand c) s = .next (({ s with ncsi := n } : State).send (.ncsiResponse 0 []))) ∧
  (∀ k n, k < 4 → s.visitDue k n (s.l2.any (fun e => e.1 / 524288 == k && e.2.valid && !e.2.static && decide ((s.sweeps.get k).next ≤ e.1 % 524288 ∧ e.1 % 524288 < n))) →
     ∃ w, exec (.l2AgeVisit k n) s = .next { s.l2Visit k n with sweeps := w }) ∧
  (∀ k (w : Sweep), w = s.sweeps.get k → k < 4 → w.running → w.start + w.ageS * 1000000000 ≤ s.now →
     exec (.l2AgePassStart k) s = .next (s.newPass k (w.start + w.ageS * 1000000000) (s.rd F.TBL_L2_CFG_AGE_S k))) ∧
  (∀ f k v, s.managedBy f → k < 4 → ∃ t : State, ∃ n, exec (.tblL2AgeEnWrite f k v) s = .next (t.ageEn k (bit v 31) n)) ∧
  (∀ f v, s.managedBy f → ∃ t : State, ∃ e, exec (.l2ReadCmd f v) s = .next (t.each (List.range 4) (fun k t => t.put .TBL_L2_RD_DATA k (leAt e (4 * k) 4)))) ∧
  (∀ k n, k < 2 → s.visitDue (4 + k) n (s.flow.any (fun e => e.1 / 33554432 == k && e.2.valid && !e.2.static && decide ((s.sweeps.get (4 + k)).next ≤ e.1 % 33554432 ∧ e.1 % 33554432 < n))) →
     ∃ w, exec (.flowAgeVisit k n) s = .next { s.flowVisit k n with sweeps := w }) ∧
  (∀ q h l n p x, n = s.queuePort q → n < 16 → s.pkts.filter (fun e => e.2.stage == .txCell n && e.2.queue == q) = [(h, p)] → p.launch = some l → (s.node 3 q).ltEn → s.mayLeave n p → s.onWire n = none → s.on F.PRT_STATUS_LINK_UP n → ¬s.isFenced (unitPort n) 0 → s.txNow.getD (2 * n + 1) none = none →
     exec (.launchTimeStart ⟨q, x⟩) s = .next (s.startTx n h p x)) ∧
  (exec .timeClockTick s = .next s.tick) ∧
  (∀ c, (s.wr F.OVN_SENSE_CODE 0 (c % 65536)).ovenIs .settling → ∃ t : State, exec (.ovnAdcSample c true) s = .next (t.ovenRuns (c % 65536))) ∧
  (∀ n, exec (.prtRemoteFaultEnd n) s = .next (s.wr F.PRT_STATUS_REMOTE_FAULT n 0)) ∧
  (∀ n, exec (.prtLocalFaultEnd n) s = .next (s.wr F.PRT_STATUS_LOCAL_FAULT n 0)) ∧
  (∀ n, s.rd F.PRT_PREEMPT_VERIFY_STATUS n = 1 → ∃ t : State, exec (.preemptResponseRx n) s = .next (t.wr F.PRT_STATUS_PREEMPT_ACTIVE n 1)) ∧
  (∀ v, s.on F.PRT_MGMT_CFG_EN 0 → ¬s.on F.PRT_MGMT_CFG_LINK_UP 0 → ∃ t : State, exec (.mgmtLinkUp v) s = .next (t.raise Ev.SVC_MGMT_LINK_UP)) ∧
  (s.on F.PRT_MGMT_CFG_LINK_UP 0 → exec .mgmtLinkDown s = .next ((s.mgmtLink 0).raise Ev.SVC_MGMT_LINK_DOWN)) ∧
  (∀ d, s.on F.PRT_MGMT_CFG_EN 0 → s.on F.PRT_MGMT_CFG_NCSI_EN 0 → s.on F.PRT_MGMT_CFG_LINK_UP 0 → s.ncsi.enabled → s.ncsi.txEnabled → ∃ t : State, exec (.ncsiPassthroughFrame d) s = .next (t.countTx 16 d (d.length + 4))) ∧
  (∀ k (w : Sweep), w = s.sweeps.get (4 + k) → k < 2 → w.running → w.start + w.ageS * 1000000000 ≤ s.now →
     exec (.flowAgePassStart k) s = .next (s.newPass (4 + k) (w.start + w.ageS * 1000000000) (s.rd F.TBL_FLOW_CFG_AGE_S 0)))

/-- Each row that moves frames, verdicts, jobs, ring entries and journal records completes in every state, and for all operands, that meet the conditions before its arrow. -/
def Obligations.FrameRowsComplete : Prop :=
  ∀ s : State,
  (∀ k h t (p : Packet), s.dispatchHead k = some h → ¬s.noCluster k → s.pkt h = some p → s.nextThread k p.epoch = some t → ¬s.isFenced (unitPipe k) 0 → p.fromWire →
     ∃ y : State, exec (.dispatch k) s = .next (y.count .BRW_CTR (clusterOf t) C.BRW_DISPATCHED)) ∧
  (∀ h p, s.pkt h = some p → p.stage = .verdict → s.inOrder p → s.enqueueCredit p.pipe 1 → ¬s.isFenced (unitPipe p.pipe) 0 → ¬bit p.verdict.word 59 → ¬p.doomed → 1 ≤ p.verdict.action → p.verdict.action ≤ 5 → ¬p.taken →
     ∃ t : State, exec (.reorderRelease h) s = .next t.wake) ∧
  (∀ h (p : Packet) b, s.pkt h = some p → p.stage = .deferred → s.enqueueCredit p.pipe (1 + b2n (bit p.verdict.word 59)) → ¬p.deferred.any (fun d => d.unit != 0 && s.oflGated (s.servingGroup d.group)) → ¬(b || p.badCell) →
     exec (.deferredStage h b) s = .next (s.runDeferred h p p.deferred)) ∧
  (∀ (u : State) h (p : Packet), s.pkt h = some p → p.stage = .toTm → ¬s.coreStopped → u = s.retire (.enqueue p.pipe) → p.verdict.action = 4 →
     exec (.tmEnqueue h) s = .next (u.multicast h p (bits p.verdict.word2 15 0))) ∧
  (∀ k n, k < 4 → n < 20 → nodeHalf 0 n = k / 2 → ¬s.isFenced (unitSlice k) 0 → ¬s.coreStopped →
     exec (.tmSchedule k n) s = .next (s.schedule k n)) ∧
  (∀ h k (p : Packet) (e : CacheEntry) b, s.pkt h = some p → p.stage = .rxDma k → ¬p.badFcs → (s.ring k).state = 1 → (s.ring k).kind = 2 → (s.fn (s.ring k).fn).bme → s.mayStart (s.ring k).fn → p.data.length ≤ (s.ring k).maxFrame → (s.ring k).hold = [] → s.buffer k = some e → s.rxMiss k p e = none →
     exec (.rxDma h false b) s = .next (s.place h k p e false b)) ∧
  (∀ r h l (p : Packet) (e : CacheEntry) b, (s.ring r).hold = h :: l → s.pkt h = some p → s.buffer r = some e → ¬s.preqs.any (fun q => q.2.waiter == .rx r) → s.rxMiss r p e = none →
     ∃ t : State, exec (.holdListDeliver r false b) s = .next (t.place h r p e true b)) ∧
  (∀ h k (p : Packet), s.pkt h = some p → p.stage = .onHold k → p.heldAt + (s.ring k).holdUs * 1000 ≤ s.now → ∃ t : State, exec (.rxHoldTimeout h) s = .next (t.rxDrop h k C.QM_RX_HOLD_DROP)) ∧
  (∀ j (b : Job) buf, s.job j = some b → ¬b.produced → (s.ring b.ring).kind = 1 → s.oldestRead j b → s.dataCredit b → (s.takeRead (.buffer j)).2 → b.gen = (s.takeRead (.buffer j)).1.rd F.HIF_FN_STATE_GEN b.func →
     exec (.txBufferData j (.data buf)) s = .next ((s.takeRead (.buffer j)).1.produce j b (fit (txLen b.entry) buf))) ∧
  (∀ c m y, s.chan.find? (fun m => m.dest == 0x500 + c) = some m → m.type = 1 → ((s.accepted m).posted m).mayDma (bits (m.word 0) 27 16) → 0 < bits (m.word 0) 15 0 → bits (m.word 0) 15 0 ≤ 48 → bit (m.word 0) 28 → ¬bit (m.word 0) 29 → y ≠ .xlateFault →
     ∃ t : State, exec (.hostAccessRequest c y) s = .next (t.reply m [0])) ∧
  (∀ c m d, s.chan.find? (fun m => m.dest == 0x0C01 && clusterOf m.src == c) = some m → m.type = 4 → d = s.about m.decision →
     (bits (m.word 0) 63 60 = 0 → s.targetOk c 0 d.target → exec (.supResume c none) s = .next (((s.accepted m).resume d).reply m [0])) ∧
     (bits (m.word 0) 63 60 = 1 → s.targetOk c 1 d.target → exec (.supAbort c none) s = .next (((s.accepted m).abortThread d.target 0xFD).reply m [0])) ∧
     (bits (m.word 0) 63 60 = 2 → s.targetOk c 2 d.target → exec (.supFenceThread c none) s = .next (((s.accepted m).fenceThread d.target 4).reply m [0])) ∧
     (bits (m.word 0) 63 60 = 3 → d.target < 1024 → s.targetOk c 3 d.target → ∃ t : State, exec (.supFenceEngine c none) s = .next (t.reply m [0])) ∧
     (bits (m.word 0) 63 60 = 4 → s.targetOk c 4 d.target → exec (.supEscalate c) s = .next (((s.accepted m).decide_ 4 d).reply m [0]))) ∧
  (∀ t, t < 2048 → (s.thread t).st = .parked → ¬(s.thread t).escalated → (s.thread t).faultAt + s.rd F.BRW_SUP_TIMEOUT_US (clusterOf t) * 1000 ≤ s.now →
     ∃ y : State, exec (.supTimeout t) s = .next (y.raise (Ev.BRW_SUP_TIMEOUT (clusterOf t)))) ∧
  (∀ t, t < 2048 → (s.thread t).pkt.isSome → (s.thread t).st = .ready ∨ (s.thread t).st = .stalled ∨ (s.thread t).st = .waiting → s.heldLong t →
     exec (.runLimitExpire t) s = .next (s.fault t 0x0E 0 0)) ∧
  (∀ c e, c < 16 → 0 < e → e < 8 → (s.allWaiting c e false ∨ s.allWaiting c e true) → ∃ t : State, ∃ m, exec (.allWait c e) s = .next { t with chan := t.chan ++ [m] }) ∧
  (∀ f t o w v, s.managedBy f → exec (.debugWindowWrite f t o w v) s = .next (s.debugWrite t o w v)) ∧
  (exec .jtagClaim s = .next ((s.each (List.range 16) (fun c u => u.wr F.BRW_DBG_CTL_JTAG_OWNS c 1)).raise Ev.SVC_JTAG_CLAIM)) ∧
  (exec .jtagRelease s = .next ((s.each (List.range 16) (fun c u => u.wr F.BRW_DBG_CTL_JTAG_OWNS c 0)).raise Ev.SVC_JTAG_RELEASE)) ∧
  (∀ c b a p0 p1 i j, s.csBad.get (csKey c b a) → a < 0x6000 → s.repairEntry c 0 = some i → s.repairEntry c 1 = some j → s.patchFree c 0 p0 → s.patchFree c 1 p1 →
     ∃ t : State, exec (.csEccRepair c b a (p0, p1)) s = .next (t.answerSup c)) ∧
  (∀ t h (m : ChanMsg) (p : Packet), s.asksOffload t 0 m h p → s.deferredCtx m.unit m.ctx m.func false = ST_OK → p.deferred.length < 4 → ∃ y : State, exec (.oflDeferRequest t) s = .next (y.reply m [2 ^ 56 * m.op, 0])) ∧
  (∀ t h (m : ChanMsg) (p : Packet), s.asksOffload t 1 m h p →
     exec (.oflCheck t) s = .next (s.answer m h { status := checkStatus p.data m.l3 m.l4 })) ∧
  (∀ t h (m : ChanMsg) (p : Packet) b, s.asksOffload t 2 m h p → ¬s.oflGated (s.groupOf m) → ¬(b || p.badCell) →
     exec (.espDecrypt ⟨t, b⟩) s = .next (s.espDecrypt t m h p)) ∧
  (∀ t h m p q o x b u, ¬s.oflGated (s.groupOf m) → ¬s.waitsTurn p (askKey m.ctx b) → u = s.asked h (askKey m.ctx b) → u.pkt h = some q → ¬q.badCell → tcpPayload q.data m.l3 m.l4 = some o →
     (s.asksOffload t 3 m h p → b = false → (s.sessions.get m.ctx).check m.func (s.sessions.get m.ctx).tlsRx false = ST_OK → ¬u.dirtyWindow t →
     exec (.tlsRx ⟨t, false⟩) s = .next (u.tlsSegment t m h q o (ipEnd q.data m.l3))) ∧
     (s.asksOffload t 4 m h p → b → (s.sessions.get m.ctx).check m.func (s.sessions.get m.ctx).nvme false = ST_OK → exec (.nvmeRxPlace ⟨t, false⟩ x) s = .next (u.nvSegment m h q o (ipEnd q.data m.l3) x))) ∧
  (∀ g, g < 4 → s.oflGated g → s.groupWanted g →
     exec (.oflGroupWake g) s = .next ((s.wr F.OFL_GROUP_CTRL_GATED g 0).domainOn (40 + g))) ∧
  (∀ j b, s.jobWaiting j 1 = some b → ¬s.oflGated (s.ring b.ring).pipe → (s.jobKey b.entry b.func b.noCtx).1 = ST_OK → ∃ n k, exec (.jobKeyCheck j) s = .next (s.jobDone j 0 n k)) ∧
  (∀ j b y, s.jobWaiting j 2 = some b → ¬s.oflGated (s.ring b.ring).pipe → (s.jobKey b.entry b.func b.noCtx).1 = ST_OK → ¬bulkOverlap b.entry → leAt b.entry 0x1C 2 ≤ leAt b.entry 8 4 % 2 ^ 25 →
     ∃ f, exec (.jobBulkGcm ⟨j, false⟩ y) s = .next (s.jobRead j b y f)) ∧
  (∀ j b y, s.jobWaiting j 3 = some b → ∃ f, exec (.jobDigest j y) s = .next (s.jobRead j b y f)) ∧
  (∀ (u : State) f v, s.managedBy f → bit v 31 → u = ((s.wr F.TM_NODE_CMD_WRITE 0 (bits v 30 30)).wr F.TM_NODE_CMD_LEVEL 0 (bits v 29 28)).wr F.TM_NODE_CMD_INDEX 0 (bits v 16 0) → bits v 16 0 < nodeCount (bits v 29 28) → bit v 30 → ¬u.nodeRefused (bits v 29 28) (bits v 16 0) u.windowBytes →
     ∃ t : State, exec (.tmNodeAccess f v) s = .next (t.wr F.TM_NODE_CMD_RESULT 0 0)) ∧
  (∀ f v, s.managedBy f → (bit v 31 = true ∨ s.rd F.TM_OBS_QUEUES_ENABLED 0 ≤ 8192) → ∃ t : State, exec (.tmObsCfgWrite f v) s = .next (if t.val .TM_OBS_CFG 0 = s.val .TM_OBS_CFG 0 then t else t.clearObs)) ∧
  (¬s.on F.TM_OBS_CFG_MODE 0 → s.obs.at_ ≠ some (s.time.ticks / 8000) → ∃ t : State, ∃ l, exec .tmObsSample s = .next (t.each l (fun q t => t.sampleQueue q))) ∧
  (∀ q, isDefaultQueue q → s.isFenced (unitObject 5) q → (s.node 3 q).frames = [] →
     exec (.tmQueueReload q) s = .next (s.unfence (unitObject 5) q)) ∧
  (∀ n (g : GateList), s.gclPending.getD n none = some g → stampLe (s.val .GCL_CHANGE_TIME n) s.stamp → ∃ t : State, exec (.gclChangeTime n) s = .next (t.raise (Ev.TM_GCL_CHANGED (n / 8)))) ∧
  (∀ n, n < 16 → ∃ t : State, exec (.gateChange n) s = .next (t.loseDeficits n)) ∧
  (∀ f v, s.managedBy f → ¬s.groupEnabled → ∃ b, exec (.relDeviceWrite f v) s = .next ((s.put .REL_DEVICE 0 (putBits (putBits 0 11 0 v) 31 31 (v / 2 ^ 31))).journalCfg 0x06 1 b)) ∧
  (∀ f v mib spill, s.managedBy f → spill = (bit v 31 && s.on F.HBM_REGION_EN 5) → mib = (if 4 ≤ bits v 6 0 ∧ bits v 6 0 ≤ 64 then bits v 6 0 else s.rd F.REL_CFG_CARAFE_MIB 0) → s.val .REL_ADMITTED 0 ≤ s.capacityOf spill mib →
     ∃ t : State, exec (.relCfgWrite f v) s = .next (t.put .REL_CAPACITY 0 (s.capacityOf spill mib))) ∧
  (∀ u h g k e p, s.pkt h = some p → p.stage = .toRelease → s.sourceGroup p = some (g, k) → s.destEntry ((s.groupsFor p.epoch).get g) p = some e → s.police g k (((s.groupsFor p.epoch).get g).src.getD k 0) p.data.length = some u →
     exec (.relEnqueue h) s = .next (u.holdFrame h g p)) ∧
  (∀ (u : State) h g (p : Packet), u = s.returnDue.spill s.returnDue.pkts.length → u.dueHead = some (h, p, g) → (u.releaseNow h g).dueHead = none →
     exec .relRelease s = .next (u.releaseNow h g)) ∧
  (∀ (u : State) h g (p : Packet), s.pkt h = some p → p.stage = .held g → p.spilled → u = s.setPkt h { p with spilled := false } →
     exec (.relSpillReturn h false) s = .next ((u.spill u.pkts.length).relSync g)) ∧
  (∀ n (e : StampEntry) (l : List StampEntry), s.stampFifo.get n = e :: l → e.ring = none → e.job = none → ¬e.owned → ∃ t : State, exec (.stampFifoDrain n) s = .next (t.tagStamp n e false)) ∧
  (∀ n, 0 < (s.stampLoss.get n).count → stampLe (((s.stampLoss.get n).told + 8000000) % W64) s.stamp →
     exec (.stampGapRecord n) s = .next (s.stampGap n)) ∧
  (∀ f v, s.managedBy f → ¬s.on F.JNL_CTRL_EN 0 → ∃ t : State, exec (.jnlCtrlWrite f v) s = .next t.jnlFull) ∧
  (∀ f v, s.managedBy f → ixSub (s.val .JNL_PROD 0) (v % 2 ^ 32) ≤ s.jnlSize →
     exec (.jnlConsWrite f v) s = .next ((s.put .JNL_CONS 0 (v % 2 ^ 32)).jnlFull)) ∧
  (∀ (r : JRec) (l : List JRec), s.journal.backlog = r :: l → s.jnlWriting → ¬s.journal.faulted → s.jnlHeld < s.jnlSize →
     exec (.jnlRecordCommit false) s = .next (s.commit r l)) ∧
  (∀ h, s.journal.head = some h → (65536 ≤ s.journal.sinceCkpt ∨ stampLe ((s.journal.ckptAt + 8000000000) % W64) s.stamp) → s.on F.JNL_STATUS_SIGNER_OK 0 →
     ∃ j, exec .jnlCheckpoint s = .next { s with journal := { s.journal with sinceCkpt := 0, ckptAt := s.stamp, signing := j } }) ∧
  (∀ q w sig l, s.journal.signing = (q, w, sig) :: l → ∃ t : State, exec .jnlSignatureDone s = .next t.mirrorHead) ∧
  (∀ j r rx, s.jrings.getD (jringKey r rx) none = some j → ¬j.entries.isEmpty → (4096 ≤ j.entries.length ∨ stampLe ((j.since + 8000000) % W64) s.stamp) →
     exec (.jnlDigestClose r rx) s = .next (s.closeDigest (jringKey r rx))) ∧
  (∀ c, s.tsu.clockDue.contains c → ∃ t : State, exec (.jnlClockRecord c) s = .next (t.journalClock c)) ∧
  (∀ u h c n p, c = p.memberCtx → u = s.memberSeen ((p.member.map (·.1)).getD 0) (shortOf p.stamp) → s.pkt h = some p → p.stage = .frer → s.frerBefore p = [] → (s.ctx c).kind = 2 → ¬u.isFenced (unitObject 6) c → (rTag p.data).map (·.2) = some n →
     exec (.frerRxDecision h) s = .next (u.frerSeq h c n p)) ∧
  (∀ c t, (s.ctx c).passedAt = some t → (s.ctx c).kind = 2 ∨ (s.ctx c).kind = 3 → t + (s.ctx c).resetMs * 1000000 ≤ s.now →
     exec (.frerRecoveryTimeout c) s = .next ((s.modCtx c FrerCtx.reset).raise Ev.FRER_RESET)) ∧
  (∀ f v, s.managedBy f → bit v 31 → exec (.frerMmPop f v) s = .next (({ s with mmLog := s.mmLog.drop 1 } : State).mmSync)) ∧
  (∀ g f, s.mir.floors.getD g none = some f → ¬stampLe s.stamp ((f + 8 * (s.groupsOper.get g).delay) % W64) →
     exec (.mirFloorLapse g) s = .next ({ s with mir := { s.mir with floors := s.mir.floors.setD g none none } })) ∧
  (∀ k f g v w, s.onPage f g = some k → w ≠ .high → (s.ring k).submits → s.bar0Open f →
     exec (.qmSqDb f g w v) s = .next (s.sqDoorbell k (v % 2 ^ 32) (w == .full && bit v 63))) ∧
  (∀ k fn g slot o d, s.onPage fn g = some k → (s.ring k).kind = 1 ∨ (s.ring k).kind = 4 → s.bar0Open fn → slot < 4 → o < 8 → d.length = 8 → ∃ f, exec (.pushSlotWrite fn g (64 * slot + 8 * o) d) s = .next (s.modRing k f)) ∧
  (∀ k f g v w, s.onPage f g = some k → w ≠ .high → s.bar0Open f → (s.ring k).kind = 3 →
     exec (.qmCqDb f g w v) s = .next (s.cqDoorbell k (v % 2 ^ 32) (w == .full && bit v 63))) ∧
  (∀ r i n b, (s.ring r).fetching = some (i, n) → (s.ring r).state = 1 → (s.takeRead (.fetch r)).2 → ∃ t : State, ∃ p c, exec (.descFetchComplete r (.data b)) s = .next (t.fetchOthers p c)) ∧
  (∀ (e : CacheEntry) r, s.startable r = some e → exec (.txJobStart r) s = .next (s.startJob r e)) ∧
  (∀ r (c : Cpl), s.ready.find? (fun c => c.target == r) = some c → (s.ring r).state = 1 →
     exec (.completionWrite r false) s = .next (({ s with ready := s.ready.erase c } : State).postCpl r c)) ∧
  (∀ r t, (s.ring r).firstCoal = some t → (s.ring r).armed → t + (s.ring r).coalUs * 1000 ≤ s.now →
     exec (.cqCoalesceExpire r) s = .next (s.ringMessage r)) ∧
  (∀ r, (s.ring r).state ≠ 0 → (s.ring r).isHead → (s.ring r).kind = 1 → (s.ring r).oldest ≠ (s.ring r).headShown → (s.ring r).headDue s.now →
     exec (.headStatusWrite r false) s = .next (s.writeHead r)) ∧
  (∀ q, q < 65536 → (s.node 3 q).alarmUs ≠ 0 → (s.node 3 q).alarmUs * 1000 ≤ s.headDelay q → (s.node 3 q).frames ≠ [] →
     exec (.tmDelayAlarm q) s = .next (s.raiseMs (Ev.TM_DELAY_ALARM (q / 32768))))

/-- Each ALU, MEM, TBL and SEQ part of a word, and each row of channels, inboxes and events, completes in every state, and for all operands, that meet the conditions before its arrow. -/
def Obligations.MicrocodeRowsComplete : Prop :=
  ∀ s : State,
  (∀ t w pc x u, ¬x.csBad → ¬x.regBad → u = s.atWord t w pc x →
     (s.wordIssues t 0 w pc → exec (.seqInc ⟨t, x⟩) s = .next (u.completeWord t w pc)) ∧
     (s.wordIssues t 1 w pc → exec (.seqJump ⟨t, x⟩) s = .next (u.completeWord t w pc)) ∧
     (s.wordIssues t 2 w pc → exec (.seqBr ⟨t, x⟩) s = .next (u.completeWord t w pc)) ∧
     (s.wordIssues t 3 w pc → exec (.seqBrn ⟨t, x⟩) s = .next (u.completeWord t w pc)) ∧
     (s.wordIssues t 4 w pc → (s.thread t).stack.length < 8 → exec (.seqCall ⟨t, x⟩) s = .next (u.completeWord t w pc)) ∧
     (s.wordIssues t 5 w pc → (s.thread t).stack ≠ [] → exec (.seqRet ⟨t, x⟩) s = .next (u.completeWord t w pc)) ∧
     (s.wordIssues t 6 w pc → exec (.seqDisp16 ⟨t, x⟩) s = .next (u.completeWord t w pc)) ∧
     (s.wordIssues t 7 w pc → (s.thread t).eventBits &&& wTarget w ≠ 0 → ¬u.supMoves t → exec (.seqWait ⟨t, x⟩) s = .next (u.completeWord t w pc)) ∧
     (s.wordIssues t 8 w pc → ¬x.cellBad → ¬u.doneWaits t → ¬u.stale (u.thread t) → exec (.seqDone ⟨t, x⟩) s = .next (u.completeWord t w pc)) ∧
     (s.wordIssues t 9 w pc → exec (.seqFault ⟨t, x⟩) s = .next (u.completeWord t w pc))) ∧
  (∀ t f m x a b c, a = s.operand t m 0 f.a → b = shapeB (s.operand t m 1 f.b) f.shift → c = b2n (bit (s.thread t).flags 2) →
     (s.aluRuns t 1 f → exec (.aluMov t f m x) s = .next (s.aluEnds t 1 f b false false)) ∧
     (s.aluRuns t 2 f → exec (.aluAdd t f m x) s = .next (s.aluEnds t 2 f ((a + b) % W64) (decide (W64 ≤ a + b)) (overflows (signed 64 a + signed 64 b)))) ∧
     (s.aluRuns t 3 f → exec (.aluSub t f m x) s = .next (s.aluEnds t 3 f ((a + W64 - b) % W64) (decide (b ≤ a)) (overflows (signed 64 a - signed 64 b)))) ∧
     (s.aluRuns t 4 f → exec (.aluAnd t f m x) s = .next (s.aluEnds t 4 f (a &&& b) false false)) ∧
     (s.aluRuns t 5 f → exec (.aluOr t f m x) s = .next (s.aluEnds t 5 f (a ||| b) false false)) ∧
     (s.aluRuns t 6 f → exec (.aluXor t f m x) s = .next (s.aluEnds t 6 f (a ^^^ b) false false)) ∧
     (s.aluRuns t 7 f → exec (.aluAndn t f m x) s = .next (s.aluEnds t 7 f (a &&& (W64 - 1 - b)) false false)) ∧
     (s.aluRuns t 8 f → exec (.aluShlv t f m x) s = .next (s.aluEnds t 8 f (a * 2 ^ (b % 64) % W64) false false)) ∧
     (s.aluRuns t 9 f → exec (.aluShrv t f m x) s = .next (s.aluEnds t 9 f (a / 2 ^ (b % 64)) false false)) ∧
     (s.aluRuns t 10 f → exec (.aluSarv t f m x) s = .next (s.aluEnds t 10 f (unsigned 64 (signed 64 a / (2 ^ (b % 64) : Nat))) false false)) ∧
     (s.aluRuns t 11 f → exec (.aluMinu t f m x) s = .next (s.aluEnds t 11 f (min a b) false false)) ∧
     (s.aluRuns t 12 f → exec (.aluMaxu t f m x) s = .next (s.aluEnds t 12 f (max a b) false false)) ∧
     (s.aluRuns t 13 f → exec (.aluCmp t f m x) s = .next (s.aluTests t 13 f ((a + W64 - b) % W64) (decide (b ≤ a)) (overflows (signed 64 a - signed 64 b)))) ∧
     (s.aluRuns t 14 f → exec (.aluTst t f m x) s = .next (s.aluTests t 14 f (a &&& b) false false)) ∧
     (s.aluRuns t 15 f → exec (.aluIns t f m x) s = .next (s.aluEnds t 15 f (insertField a (s.operand t m 1 f.b) f.shift) false false)) ∧
     (s.aluRuns t 16 f → exec (.aluPopc t f m x) s = .next (s.aluEnds t 16 f (popCount b 64) false false)) ∧
     (s.aluRuns t 17 f → exec (.aluClz t f m x) s = .next (s.aluEnds t 17 f (leadingZeros b 64) false false)) ∧
     (s.aluRuns t 18 f → exec (.aluBswap t f m x) s = .next (s.aluEnds t 18 f (fromBE (leBytes 8 b)) false false)) ∧
     (s.aluRuns t 19 f → exec (.aluCrc t f m x) s = .next (s.aluEnds t 19 f ((~~~ (crcRun (~~~ (BitVec.ofNat 32 a)) (beBytes 8 b))).toNat) false false)) ∧
     (s.aluRuns t 20 f → exec (.aluAddc t f m x) s = .next (s.aluEnds t 20 f ((a + b + c) % W64) (decide (W64 ≤ a + b + c)) (overflows (signed 64 a + signed 64 b + c)))) ∧
     (s.aluRuns t 21 f → exec (.aluSubb t f m x) s = .next (s.aluEnds t 21 f ((a + 2 * W64 - b - (1 - c)) % W64) (decide (b ≤ a)) (overflows (signed 64 a - signed 64 b - (1 - c : Nat))))) ∧
     (s.aluRuns t 22 f → exec (.aluSel t f m x) s = .next (s.aluEnds t 22 f (if bit (s.thread t).flags 0 then a else b) false false)) ∧
     (s.aluRuns t 23 f → exec (.aluMul32 t f m x) s = .next (s.aluEnds t 23 f (a % 2 ^ 32 * (b % 2 ^ 32)) false false))) ∧
  (∀ t f x u a, u = s.made t → a = u.memAddr t f →
     (s.memRuns t 1 f → exec (.memLd t f x) s = .next (u.awaits t (block f.reg (memWords f.size)) (u.memLoad t f) (u.memBad t f))) ∧
     (s.memRuns t 2 f → exec (.memSt t f x) s = .next (u.memStore t f.space a (((List.range (memWords f.size)).flatMap (fun k => leBytes 8 (u.operand t f.imm 5 (f.reg + k)))).take f.size))) ∧
     (s.memRuns t 3 f → ∃ y : State, exec (.memFadd t f x) s = .next (y.awaits t [f.reg] [fromLE (u.memBytes t f.space a 8)] (u.memBad t f))) ∧
     (s.memRuns t 4 f → ∃ y : State, exec (.memSwap t f x) s = .next (y.awaits t [f.reg] [fromLE (u.memBytes t f.space a 8)] (u.memBad t f))) ∧
     (s.memRuns t 5 f → ∃ y : State, exec (.memCas t f x) s = .next (y.awaits t [f.reg] [fromLE (u.memBytes t f.space a 8)] (u.memBad t f))) ∧
     (s.memRuns t 6 f → exec (.memAdd t f x) s = .next (u.memStore t f.space a (leBytes 8 ((fromLE (u.memBytes t f.space a 8) + u.operand t f.imm 5 f.reg) % W64))))) ∧
  (∀ (p : Pending) t, (s.thread t).pend.find? (fun p => !p.table) = some p → ¬p.bad →
     exec (.memResultArrive t false) s = .next ((s.modThread t (fun th => th.deliver p p.values)).wake)) ∧
  (∀ t f x, (s.tblRuns t 1 f → ∃ u : State, ∃ k v w, exec (.tblLookup t f x) s = .next (u.awaitsTable t 1 f k v w)) ∧
     (s.tblRuns t 2 f → ∃ u : State, ∃ k v w, exec (.tblInsert t f x) s = .next (u.awaitsTable t 2 f k v w)) ∧
     (s.tblRuns t 3 f → ∃ u : State, ∃ k v w, exec (.tblDelete t f x) s = .next (u.awaitsTable t 3 f k v w)) ∧
     (s.tblRuns t 4 f → ∃ u : State, ∃ k v w, exec (.tblLearn t f x) s = .next (u.awaitsTable t 4 f k v w))) ∧
  (∀ (p : Pending) t, (s.thread t).pend.find? (fun p => p.table) = some p → ∃ y : State, exec (.tblResultArrive t false) s = .next y.wake) ∧
  (∀ t, s.canIssue t → ¬s.stale (s.thread t) → ¬(s.thread t).postBad t → s.chanCredit t (bits (s.thread t).stageHdr 63 48) →
     exec (.channelPost t) s = .next ((s.made t).postMsg t ((s.thread t).before_ 0 []))) ∧
  (∀ m t, s.chan.find? (fun m => decide (m.dest ≤ 0x3FF) && s.receiver m == t && (m.type == 3 || decide ((s.thread t).load < 4))) = some m → ∃ f, exec (.inboxMessageArrive t) s = .next ((s.accepted m).modThread t f)) ∧
  (∀ t, s.canIssue t → exec (.inboxPop t) s = .next ((s.popInbox t).wake)) ∧
  (∀ t v, s.canIssue t → exec (.signal t v) s = .next (s.signalOp t v)) ∧
  (∀ t v, s.canIssue t → exec (.eventClr t v) s = .next (s.eventClr t v)) ∧
  (∀ m c, s.chan.find? (fun m => m.dest == 0xC00 && clusterOf m.src == c) = some m →
     exec (.fenceMessage c) s = .next ((s.accepted m).reply m [0])) ∧
  (∀ t, t < 2048 → (s.thread t).ops.get 93 ≠ 0 → ¬(s.thread t).timerDone → (s.stamp + W64 - (s.thread t).ops.get 93) % W64 < 2 ^ 63 → ∃ y : State, exec (.threadTimerFire t) s = .next (y.latch t 2))

/-- Each row of the host interface, the mailbox, the copy engine, the HBM, the power, the faults and the mirror completes in every state, and for all operands, that meet the conditions before its arrow. -/
def Obligations.HostAndPlatformRowsComplete : Prop :=
  ∀ s : State,
  (∀ f o z v, s.managedBy f → exec (.registerWrite f (.bar2 o) z v) s = .next (s.bar2Write o z v)) ∧
  (∀ f z, exec (.rcRegisterRead f .ats z) s = .next (s.send (.readValue f 0 (b2n (s.fn f).ats)))) ∧
  (∀ o, s.supply.power = .on → ¬s.recovery → mayManage s.manager → ∃ t : State, ∃ v, exec (.lowWordRead s.manager o) s = .next (t.send (.readValue s.manager o v))) ∧
  (∀ (kind : QueueKind) i q, q = watchedQueue kind i → s.on F.GLB_CREDIT_WDOG_EN 0 → queueListed q → ¬s.isFenced (queueUnit q) 0 → s.stalls q →
     ∃ t : State, exec (.creditStall kind i) s = .next (t.fenceUnit (queueUnit q) 0 2 [])) ∧
  (∀ (t : State) u o, s.isFenced u o → t = s.each (s.queuedTo u o) (fun h t => t.discardQueued u h) → ∃ y : State, exec (.fenceNotice u o) s = .next (y.discard u (t.chan.filter (fun m => t.messageTo u o m)).length)) ∧
  (∀ (sh : Shadow), s.shadow = some sh → s.on F.GLB_EPOCH_STATUS_ARMED 0 → stampLe (s.val .GLB_EPOCH_COMMIT_TIME 0) s.stamp →
     exec .epochCommitted s = .next (s.commitEpoch sh)) ∧
  (s.on F.GLB_EPOCH_STATUS_DRAINING 0 → ¬s.oldHeld → ∃ t : State, ∃ b, exec .epochDrained s = .next (t.swapsDone.journalCfg 0x04 1 b)) ∧
  (s.mirRole = 1 → s.mir.periodAt + 1000000 ≤ s.now → ∃ t : State, exec .mirPeriodicSend s = .next { t with mir := { t.mir with periodAt := s.now } }) ∧
  (∀ m, 2 ≤ s.mirRole → leAt m 0 1 = 1 → beAt m 2 2 = s.rd F.MIR_CTRL_PEER 0 → beAt m 4 4 = s.mir.pair → 16 ≤ m.length → ∃ t : State, exec (.mirMessageRx m) s = .next (t.mirKeep (leAt m 1 1) (m.drop 16))) ∧
  (2 ≤ s.mirRole → ¬s.mir.silent → s.mir.rxAt + 10000000 ≤ s.now → ∃ t : State, exec .mirPeerSilent s = .next (t.raise Ev.MIR_PEER_SILENT)) ∧
  (∀ n l x y, s.linkExists n l → ¬(s.hlinks.get (2 * n + l)).up → ¬s.perst.get n → ¬(decide (x < 2) || (y && !s.bifurcated.get n)) → ∃ t : State, exec (.hifLinkUp n l x y) s = .next (t.sendReady (2 * n + l))) ∧
  (∀ n l, s.linkExists n l → (s.hlinks.get (2 * n + l)).up → ∃ t : State, exec (.hifLinkDown n l) s = .next (t.raise (Ev.HIF_LINK_DOWN n))) ∧
  (∀ n, n < 2 → ¬s.perst.get n → ∃ t : State, ∃ b, exec (.perstAssert n) s = .next (t.when b (fun u => u.resetLink n 1))) ∧
  (∀ n l, s.linkExists n l → exec (.hifHotReset n l) s = .next ((s.raise (Ev.HIF_HOT_RESET n)).resetLink n l)) ∧
  (∀ n, n < 2 → s.perst.get n → exec (.perstDeassert n) s = .next ({ s with perst := s.perst.set n false })) ∧
  (∀ f, (s.fn f).bme → ∃ t : State, exec (.bmeClear f) s = .next (t.raise (Ev.HIF_BME_CLEARED (t.hostPort f)))) ∧
  (∀ f, f < 2052 → exec (.bmeSet f) s = .next ((s.modFn f (fun g => { g with bme := true })).sendPending f)) ∧
  (∀ pf on num, pf < 4 → (s.fn pf).vfEnable ≠ on → exec (.vfEnableWrite pf on num) s = .next (s.vfEnable pf on num)) ∧
  (∀ f, (s.fn f).ats → exec (.atsEnableClear f) s = .next (s.atsDisable f)) ∧
  (∀ f, (s.fn f).pasidEn → exec (.pasidEnableClear f) s = .next (s.pasidDisable f)) ∧
  (∀ f d3, f < 2052 → (s.fn f).d3 ≠ d3 → ∃ t : State, exec (.dStateChange f d3) s = .next (t.raise (Ev.HIF_POWER_STATE (s.hostPort f)))) ∧
  (∀ f on, f < 2052 → exec (.msixUnmask f (.fnMask on)) s = .next ((s.modFn f (fun g => { g with fnMask := on })).sendPending f)) ∧
  (∀ f, s.fnExists f → exec (.flrStart f) s = .next (s.flrStart f)) ∧
  (∀ (t : State) (r : Flr) f n, s.flr.getD f none = some r → n < flrEngines → s.flrDiscard f n = some t →
     exec (.flrEngineAck f n) s = .next (t.flrAck f n)) ∧
  (∀ f r, s.flr.getD f none = some r → r.since + 100000000 ≤ s.now → ∃ t : State, exec (.fnFlrSlow f) s = .next ((t.flrComplete f).raise Ev.FN_FLR_SLOW)) ∧
  (∀ f w v, f < 4 → w < 18 → s.bar0Open f → ∃ u : State, ∃ l, exec (.evtPendW1c f w v) s = .next (u.resend f l)) ∧
  (∀ f v, f < 2052 → s.bar0Open f → v % 64 ≠ 0 → ∃ u : State, ∃ l, exec (.evtFnW1c f v) s = .next (u.resend f l)) ∧
  (∀ req n b z size q rd wr, s.xreqs.find? (fun e => e.1 == req && decide (e.1 < 16384)) = some (n, q) → s.now < q.since + q.us * 1000 → ¬q.tainted → (if q.write then wr else rd) = true →
     ∃ t : State, exec (.translationCompletion req (.granted b z size rd wr)) s = .next t.issueWaiting) ∧
  (∀ n g f b z i, n < 2 → (s.invals.filter (fun v => v.port == n)).length < 32 → ∃ t : State, exec (.invalidateRequest n g f i b z) s = .next (t.count .HIF_CTR n C.HIF_ATS_INVALIDATIONS)) ∧
  (∀ n (v : Inval), s.invals.find? (fun v => v.port == n) = some v → ¬v.reads.any (fun k => s.reads.any (fun e => e.1 == k)) → s.now ≤ v.since + 1000000 →
     ∃ t : State, exec (.invalidateComplete n) s = .next (t.send (.invalidateDone n v.tag))) ∧
  (∀ f i n (q : PReq), f < 2052 → s.preqs.find? (fun e => e.1 == i && e.2.fn == f && e.2.sent) = some (n, q) → ∃ t : State, exec (.pageResponse f i .success) s = .next (t.nextPageRequest f)) ∧
  (∀ i n (q : PReq), s.preqs.find? (fun e => e.1 == i && e.2.sent) = some (n, q) → q.since + s.rd F.HIF_PRI_TIMEOUT_MS (s.hostPort q.fn) * 1000000 ≤ s.now →
     ∃ t : State, exec (.priResponseTimeout i) s = .next (t.failPage n q)) ∧
  (∀ port g n (q : HostRead) y, s.readOf port g = some (n, q) → ¬s.partLate q g →
     exec (.hostReadCompletion port g y) s = .next (s.partEnd n q g y)) ∧
  (∀ g n (q : HostRead), (s.readOf 0 g).orElse (fun _ => s.readOf 1 g) = some (n, q) → s.partLate q g →
     exec (.cplTimeoutExpire g) s = .next (s.partEnd n q g .timeout)) ∧
  (∀ f b x, s.nextTurn (s.coreOf f) = some (2 * f + 1) → b.length = 128 → ¬s.eciFenced f (leAt b 0 2) → eciListed (leAt b 0 2) s.recovery → ¬mailboxOnly (leAt b 0 2) → leAt b 3 1 = 0 → leAt b 6 2 = 0 → leAt b 0x18 8 = 0 → leAt b 8 8 = 0 → leAt b 2 1 ≤ 24 →
     ∃ t : State, ∃ c, exec (.adminEntryTake f (.data b) x) s = .next { t with adminCmd := t.adminCmd.setD f (some c) none }) ∧
  (∀ f v, f < 2052 → s.bar0Open f → exec (.mbxCmdWrite f v) s = .next (s.mbxCmd f v)) ∧
  (∀ f, s.nextTurn (s.coreOf f) = some (2 * f) → ¬s.eciFenced f (s.rd F.MBX_CMD_CODE f) → eciListed (s.rd F.MBX_CMD_CODE f) s.recovery →
     ∃ t : State, ∃ c, exec (.cmdAccept f false) s = .next (t.modMb f (fun b => { b with cmd := some c }))) ∧
  (∀ f, s.on F.MBX_STATUS_BUSY f → (s.mb f).at_ + (s.mb f).us * 1000 ≤ s.now → ∃ t : State, ∃ g, exec (.mbxAckTimeout f) s = .next (t.modMb f g)) ∧
  (∀ f v, f < 2052 → s.bar0Open f → exec (.dbFromFwW1c f v) s = .next (s.dbW1c f v)) ∧
  (∀ f v, f < 2052 → s.bar0Open f → exec (.dbFromFwMaskWrite f v) s = .next (s.dbMask f v)) ∧
  (∀ f v, f < 2052 → s.bar0Open f → exec (.dbToFwReady f v) s = .next (s.dbToFw f (putBits v 1 1 1))) ∧
  (∀ f v, f < 2052 → s.bar0Open f → exec (.dbToFwUnload f v) s = .next (s.dbToFw f (putBits v 2 2 1))) ∧
  (∀ f k t, (k, some t) ∈ (s.mb f).setAt → t + s.rd F.MBX_TIMEOUT_US f * 1000 ≤ s.now → ¬(s.mb f).absent → ∃ y : State, exec (.driverAbsent f) s = .next (y.raise Ev.FW_DRIVER_ABSENT)) ∧
  (s.fwUp → exec .fwRestart s = .next s.fwRestart) ∧
  (∀ core, core < 4 → s.fwUp → exec (.fwWatchdog core 2) s = .next (s.raise Ev.FW_WATCHDOG)) ∧
  (∀ (t : State) (l : LongCmd) f n io w, s.longs.getD f none = some l → l.final = none → s.longBody f l.cmd io = .done t n w →
     exec (.longCommandComplete f io) s = .next (t.longDone f n w)) ∧
  (∀ l g f, (g, some l) ∈ s.longs → l.final = none → l.cmd.code = 0x0203 → l.cmd.words.getD 0 0 = f → l.since + 100000000 ≤ s.now → s.rd F.HIF_FN_STATE_STATE f = 2 →
     exec (.quiescePendingTimeout f) s = .next { s with quiesceLate := s.quiesceLate.set f true }) ∧
  (∀ f o v, s.managedBy f → o < 64 → exec (.hifMigConsWrite f o v) s = .next (s.migCons o (v % 2 ^ 32))) ∧
  (s.flashHolder.isSome → s.flashAt + 60000000000 ≤ s.now → exec .recoveryFlashRelease s = .next ({ s with flashHolder := none })) ∧
  (∀ p, s.jtagTakes (threadCluster p) 0x0B00 [low 10 + 2 ^ 31] p →
     exec (.dbgHalt (.jtag p)) s = .next (s.each (s.threadsNamed p) (fun t u => u.haltCmd t))) ∧
  (∀ p, s.jtagTakes (threadCluster p) 0x0B01 [low 10 + 2 ^ 31] p →
     exec (.dbgResume (.jtag p)) s = .next (s.each (s.threadsNamed p) (fun t u => u.resumeThread t false))) ∧
  (∀ p t, s.jtagTakes (threadCluster p) 0x0B02 [low 10] p → (s.threadsNamed p).find? (fun k => (s.thread k).st == .halted) = some t →
     exec (.dbgStep (.jtag p)) s = .next (s.resumeThread t true)) ∧
  (∀ p, s.jtagTakes (threadCluster p) 0x0B03 [low 10] p →
     exec (.dbgAbort (.jtag p)) s = .next (s.each ((s.threadsNamed p).filter (fun t => (s.thread t).st == .halted)) (fun t u => u.abortThread t 0xFD))) ∧
  (∀ p ix, s.jtagTakes (clusterNamed p) 0x0B04 [low 6 + 2 ^ 31, low 16, W32, W32] p → ix = 4 * bits (p.getD 0 0) 3 0 + bits (p.getD 0 0) 5 4 →
     ∃ t : State, exec (.dbgBpSet (.jtag p)) s = .next (t.put .BRW_BP_THREADS ix (w64 p 2))) ∧
  (∀ p, s.jtagTakes (clusterNamed p) 0x0B05 [low 4 + 2 ^ 31] p →
     exec (.dbgSoftBp (.jtag p)) s = .next (s.wr F.BRW_DBG_CTL_SOFT_BP_EN (bits (p.getD 0 0) 3 0) (bits (p.getD 0 0) 31 31))) ∧
  (∀ u f ch v, u = s.wr F.CPY_CH_CTRL_FROM_HEAD ch (bits (putBits v 31 31 1) 29 29) → s.managedBy f → ch < 1024 → ¬bit (putBits v 31 31 1) 30 → u.cpyState ch = 0 → ¬u.cpyRefused ch → ¬u.on F.CPY_CH_CTRL_FROM_HEAD ch →
     ∃ t : State, exec (.cpyGo f ch v) s = .next (t.cpyRun ch)) ∧
  (∀ u f ch v, u = s.wr F.CPY_CH_CTRL_FROM_HEAD ch (bits (putBits (putBits v 31 31 0) 30 30 1) 29 29) → s.managedBy f → ch < 1024 → u.cpyActive ch → u.cpyState ch ≠ 2 → ¬u.cpyAtBoundary ch →
     exec (.cpyStop f ch v) s = .next (u.wr F.CPY_CH_CTRL_STOP ch 1)) ∧
  (∀ f ch v w, s.managedBy f → ch < 1024 → (s.cpyState ch = 0 ∨ s.cpyState ch = 4) →
     exec (.cpyChCfgWrite f ch w v) s = .next (s.put .CPY_CH_CFG ch (putBits (merge w (s.val .CPY_CH_CFG ch) v) 60 43 0))) ∧
  (∀ (t : State) u ch io, s.nextCopy u = some ch → (s.copy ch).desc ≠ [] → t = { s with copyLast := s.copyLast.set u ((ch + 1) % 64) } →
     exec (.cpyTurn u io) s = .next (t.cpyTurn ch io)) ∧
  (∀ ch status x lost, (s.copy ch).flush = some (status, x) →
     exec (.cpyFlushDone ch none lost) s = .next (s.cpyFinish ch status lost)) ∧
  (∀ ch m, s.chan.find? (fun m => m.dest == 0x800 + ch) = some m → ch < 1024 → m.src ≤ 0x4FF → bits (m.word 0) 63 1 = 0 → m.type = 0 →
     ∃ u : State, exec (.cpyPaceMessage ch) s = .next (if u.cpyState ch = 1 ∨ u.cpyState ch = 3 then u.cpyRun ch else u)) ∧
  (∀ p region o w r l, p = s.hbmPlace region o → region < 8 → s.on F.HBM_REGION_EN region → o < s.regionBytes region → ¬s.isFenced (unitHbm p.pc) 0 →
     ∃ t : State, exec (.hbmAccess region o w r l) s = .next (t.hbmResult p w r)) ∧
  (∀ pc b w x, s.hbm.rows.getD (bankKey pc b) none = some (w, x) → x * 6 + s.rd F.HBM_PAGE_CFG_IDLE_CYCLES pc * 5 ≤ s.now * 6 → ∃ f, exec (.hbmRowClose pc b) s = .next (s.modHbm f)) ∧
  (∀ pc b, pc < 64 → b < 16 → s.rd F.HBM_PC_STATUS_STATE pc = 1 → s.hbm.due.get (bankKey pc b) + s.refreshNs (pc / 32) ≤ s.now → ∃ t : State, exec (.hbmRefreshDue pc b false) s = .next (t.postponedSync pc)) ∧
  (∀ k, k < 2 → s.rd F.PWR_STATUS_STATE 0 = 2 → s.hbm.reqAt.get k + 100000 ≤ s.now → (stackPcs k).any (fun p => s.rd F.HBM_PC_STATUS_STATE p == 1) → ∃ t : State, exec (.hbmSrEnter k) s = .next (t.raise (Ev.HBM_SR_ENTER k))) ∧
  (∀ k, k < 2 → exec (.hbmSrExit k) s = .next (s.srExit k)) ∧
  (∀ k t, k < 2 → 85 < t → t < 256 → ¬s.on F.HBM_STACK_STATUS_HOT k → ∃ y : State, exec (.hbmTempHigh k t) s = .next (y.raise (Ev.HBM_TEMP_HIGH k))) ∧
  (∀ k t, k < 2 → t < 256 → (s.rd F.HBM_STACK_STATUS_TRAIN_TEMP_C k + 10 < t ∨ t + 10 < s.rd F.HBM_STACK_STATUS_TRAIN_TEMP_C k) →
     exec (.hbmDrift k t) s = .next ((s.stackTemp k t).raise (Ev.HBM_DRIFT k))) ∧
  (∀ pc bank w, pc < 64 → bank < 16 → w < 49152 → 16 ≤ (s.rates.get (rateKey (.hbmRow pc bank w))).count → s.bankRepairs pc bank < 2 →
     ∃ t : State, ∃ b f, exec (.hbmSoftRepair pc bank w) s = .next ((t.raise (Ev.HBM_SOFT_REPAIR (pc / 32))).when b f)) ∧
  (∀ f v, s.managedBy f → exec (.glbFencePop f v) s = .next (s.fencePop v)) ∧
  (∀ u, fatalUnit u → exec (.glbFatal u) s = .next (s.fatalError 1 u)) ∧
  (∀ t b io, s.fatal = some t → (t + 2000000 ≤ s.now ∨ s.journal.backlog = []) → s.fatalBoot = some b → t ≤ b + 10000000000 →
     exec (.fatalResetTimeout io) s = .next (s.coldReset 5 io)) ∧
  (∀ n k, n < 4 → ¬s.coreUp n → s.spareCore = some k → ∃ t : State, exec (.fwCoreSpared n) s = .next (t.sparePowered.raise Ev.FW_CORE_SPARED)) ∧
  (∀ d k, d < 64 → (s.domainWear d).sampled = none → ∃ t : State, ∃ b, exec (.wearSample d k) s = .next (t.when b (fun x => x.raise Ev.PWR_AGEING_ALERT))) ∧
  (∀ n, s.wearSaved + 21600000000000 ≤ s.now → ∃ t : State, ∃ b, exec (.wearRecordSave [n]) s = .next (t.when b (fun u => u.raise Ev.PWR_EM_ALERT))) ∧
  (∀ io, s.supply.power = .off → ∃ u : State, exec (.powerOn io) s = .next { u with supply := { u.supply with aonOk := true } }) ∧
  (∀ t io, s.supply.bootAt = some t → s.powered → ¬s.fwUp → t + 3000000000 ≤ s.now → ∃ u : State, exec (.bootWatchdog io) s = .next (u.resetBoot 1 7 (1 - s.fwSlot) io)) ∧
  (∀ mv, mv < 4150 → s.powered → exec (.vinLoss mv) s = .next ((s.wr F.PWR_VIN_VIN_MV 0 mv).shutDown 2 .aon)) ∧
  (∀ x io, 4350 < x.mv → s.supply.power = .aon → exec (.vinRestored x io) s = .next ((s.sense x).coldReset 3 io)) ∧
  (∀ ca ns, 6000 < ca → 100000 ≤ ns → s.powered →
     exec (.vinOvercurrent ca ns) s = .next ((s.wr F.PWR_VIN_CUR_CA 0 ca).shutDown 3 .aon)) ∧
  (∀ n, s.powered → n < 198 → n ∉ s.supply.phasesOut → ∃ u : State, exec (.phaseFault n) s = .next (if u.supply.phasesOut.length ≤ 18 then u.raise Ev.PWR_PHASE_SPARED else u.raise Ev.PWR_BUDGET)) ∧
  (∀ d, s.powered → d < 64 → (s.rd F.PWR_DOMAIN_STATE d = 1 ∨ s.rd F.PWR_DOMAIN_STATE d = 2) → gateable d → ∃ t : State, ∃ c, exec (.railFault d) s = .next (t.each (t.domainUnits d) (fun k u => u.fenceUnit k 0 c []))) ∧
  (∀ c, s.powered → c < 16 → s.on F.PWR_CFG_CLUSTER_GATE 0 → s.clusterServes c → s.clusterIdle c → s.idleSince c + 10000000 ≤ s.now → s.siblings c ≠ [] → 63 < s.freeIn (s.siblings c) →
     exec (.clusterGate c) s = .next (s.gateCluster c)) ∧
  (∀ c, s.powered → c < 16 → (s.clusters.get c).gated → s.rd F.PWR_STATUS_STATE 0 = 1 → (128 < s.dispatchDepth (c / 4) ∨ s.freeIn ((List.range 4).map (fun k => c / 4 * 4 + k) |>.filter s.clusterServes) = 0) →
     exec (.clusterUngate c) s = .next (s.ungateCluster c)) ∧
  (s.powered → s.rd F.PWR_STATUS_STATE 0 = 1 → s.mayDeepIdle → ∃ t : State, exec .deepIdleEnter s = .next ((t.raise Ev.PWR_DEEP_IDLE_ENTER).raise Ev.PWR_STATE)) ∧
  (s.powered → s.rd F.PWR_STATUS_STATE 0 = 2 → ¬s.mayDeepIdle → ∃ t : State, exec .deepIdleExit s = .next ((t.raise Ev.PWR_DEEP_IDLE_EXIT).raise Ev.PWR_STATE)) ∧
  (∀ u x n, n = s.rd F.PWR_STATUS_LEVEL 0 → u = s.sense x → s.powered →
     (n < 4 → s.supply.levelAt + 10000000 ≤ s.now → (u.dieReaches (10 * s.rd F.PWR_THERM_CFG_THROTTLE_C 0 : Nat) || decide (s.capDw < x.dw) || u.stackAbove 95) → ∃ t : State, exec (.throttleRise x) s = .next (t.when (decide (s.capDw < x.dw)) (fun t => t.raise Ev.PWR_BUDGET))) ∧
     (0 < n → s.supply.levelAt + 100000000 ≤ s.now → (u.diesAtMost (10 * s.rd F.PWR_THERM_CFG_THROTTLE_C 0 - 50 : Nat) && decide (x.dw + 50 ≤ s.capDw) && !u.stackAbove 90) → exec (.throttleFall x) s = .next ((u.setLevel (n - 1)).when (n == 1) (fun t => t.raise Ev.PWR_THROTTLE_OFF)))) ∧
  (∀ x, s.powered → (s.sense x).dieReaches 1100 → exec (.tjCrit x) s = .next ((s.sense x).raise Ev.PWR_TJ_CRIT)) ∧
  (∀ x, s.powered → x.temps.any (fun e => decide (e.1 < 28 ∧ 1150 ≤ e.2)) →
     exec (.thermalTrip x) s = .next ((s.sense x).shutDown 1 .shut)) ∧
  (s.powered → s.supply.pllAt = none → ∃ t : State, exec .corePllUnlock s = .next (t.raise Ev.PWR_CORE_PLL_UNLOCK)) ∧
  (∀ t, s.supply.pllAt = some t → t + 10000000 ≤ s.now → exec .corePllTimeout s = .next (s.used.fatalError (s.fresh % 256) 0xE000)) ∧
  (∀ ns x io, 1000 ≤ ns → s.powered → exec (.coldRstN ns x io) s = .next (s.coldReset 1 io)) ∧
  (∀ f v io, exec (.glbResetCold f v io) s = .next (s.asManager f (fun t => t.glbReset (putBits v 31 31 1) io))) ∧
  (∀ f v io, exec (.glbResetWarm f v io) s = .next (s.asManager f (fun t => t.glbReset (putBits v 30 30 1) io))) ∧
  (∀ f v x, exec (.glbResetCluster f v x) s = .next (s.asManager f (fun t => t.glbResetCluster v x))) ∧
  (∀ u o l, s.stateFails u o → exec (.uncorrectableStateError u o l) s = .next (s.fenceUnit u o (if u / 4096 = 11 then 7 else 1) l)) ∧
  (∀ r n, rateExists r → s.windowStart (rateKey r) + rateWindow r ≤ s.now → ∃ t : State, exec (.rateWindowEnd r n) s = .next (t.windowEnd (rateKey r) (rateWindow r) (rateLimit r) (fun u => u.rateOver r))) ∧
  (∀ mv, mv < 4150 → s.supply.power ≠ .off → ∃ u : State, exec (.vinAonLoss mv) s = .next { u.bare with supply := { power := .off } }) ∧
  (∀ mv, s.powered → 4150 ≤ mv → mv < 4500 → exec (.pwrVinLow mv) s = .next ((s.wr F.PWR_VIN_VIN_MV 0 mv).raise Ev.PWR_VIN_LOW)) ∧
  (∀ mv, s.powered → 18000 < mv → ∃ t : State, exec (.pwrVinHigh mv) s = .next (t.raise Ev.PWR_VIN_HIGH)) ∧
  (∀ mv, s.supply.power ≠ .off → 4150 ≤ mv → mv < 4500 →
     exec (.pwrVinAonLow mv) s = .next ((s.wr F.PWR_VIN_AON_MV 0 mv).raise Ev.PWR_VIN_AON_LOW)) ∧
  (∀ t, s.supply.pllAt = some t → s.now ≤ t + 10000000 → s.fatal = none →
     exec .corePllRelock s = .next ({ s with supply := { s.supply with pllAt := none } })) ∧
  (∀ x, s.powered → (s.sense x).dieReaches (10 * s.rd F.PWR_THERM_CFG_ALERT_C 0 : Nat) →
     exec (.pwrTjHigh x) s = .next (((s.sense x).setAlert true).raise Ev.PWR_TJ_HIGH)) ∧
  (∀ n t, s.powered → n < 32 → ¬s.on F.PWR_TEMP_FAULT n → s.implausible n t → ∃ y : State, exec (.pwrSensorFault n t) s = .next (y.raise Ev.PWR_SENSOR_FAULT)) ∧
  (∀ k t, k < 2 → 95 < t → t < 256 → exec (.hbmTempCrit k t) s = .next ((s.stackTemp k t).raise (Ev.HBM_TEMP_CRIT k))) ∧
  (∀ k t, k < 2 → t ≤ 85 → s.on F.HBM_STACK_STATUS_HOT k →
     exec (.hbmTempNormal k t) s = .next ((s.stackTemp k t).wr F.HBM_STACK_STATUS_HOT k 0)) ∧
  (∀ f l, f < 2052 →
     exec (.priReset f l) s = .next (s.modFn f (fun g => { g with priEn := true, priStopped := false, priAlloc := l }))) ∧
  (∀ (t : State), t = s.resyncDue → t.mir.resync.isSome → t.mir.left = [] → ∃ y : State, exec .mirResyncDone s = .next (y.raise Ev.MIR_RESYNC_DONE))

/-- Each command for functions, queues, tables, epochs and the scheduler completes in every state, and for all operands, that meet the conditions before its arrow: OK i says that exec answers a next state with RC_OK as the answer. -/
def Obligations.ConfigurationCommandsComplete : Prop :=
  ∀ (s : State) (e : Eci) (p : List Nat) (q : Nat), q = p.getD 0 0 →
  let OK (i : Instr) : Prop := ∃ (t : State) (w : List Nat), exec i s = .next (t.answers e RC_OK w)
  (s.takes e 0x0000 [] p → exec (.eciVersion e) s = .next (s.answers e RC_OK s.versionWords)) ∧
  (s.takes e 0x0001 [] p → exec (.eciIdentity e) s = .next (s.answers e RC_OK s.identityWords)) ∧
  (s.takes e 0x0002 [] p → exec (.eciFuncInfo e) s = .next (s.answers e RC_OK [s.infoWord e.fn])) ∧
  (∀ (l : LongCmd) n w, s.takes e 0x0003 [low 16] p → s.longs.getD e.fn none = some l → l.path = .mailbox → l.ticket = q → l.final = some (n, w) →
     exec (.eciPoll e) s = .next (({ s with longs := s.longs.setD e.fn none none }).answers e n w)) ∧
  (s.takes e 0x0100 [W32, W32, W32, W32, 0x07FF000F] p → ¬s.adminBad e.fn p → (s.ring (adminSqKey e.fn)).state = 0 →
     exec (.adminCreate e) s = .next ((s.createAdmin e.fn p).answers e RC_OK [])) ∧
  (s.takes e 0x0101 [] p → s.adminCmd.getD e.fn none = none → (s.ring (adminSqKey e.fn)).state ≠ 0 →
     exec (.adminDestroy e) s = .next ((s.destroyAdmin e.fn).answers e RC_OK [])) ∧
  (∀ r n, r = s.newRing e.fn p → s.takes e 0x0102 (List.replicate 16 W32) p → ¬s.ringDenied r → ¬s.ringBad r → ¬r.mgmt → s.ringsHeld r.kind (some e.fn) < (s.fn e.fn).grants.rings r.kind → firstFree 131072 s.used.fresh (fun k => (s.ring (ringKey r.kind k)).state != 0) = some n →
     OK (.queueCreate e)) ∧
  (∀ k, s.takes e 0x0103 [low 21] p → ¬s.notMine e.fn p → ¬s.noSuchRing p → k = namedRing p → (s.ring k).stopped → ¬s.boundTo k → ¬s.jobs.any (fun j => j.2.ring == k && (s.ring k).kind != 2 && (s.ring k).kind != 3) →
     OK (.queueDestroy e)) ∧
  (s.takes e 0x0104 [low 21] p → ¬s.notMine e.fn p → ¬s.noSuchRing p → (s.fn (s.ring (namedRing p)).fn).bme → OK (.queueStart e)) ∧
  (s.takes e 0x0105 [low 21] p → ¬s.notMine e.fn p → ¬s.noSuchRing p → ¬(s.ring (namedRing p)).stopped → OK (.queueStop e)) ∧
  (s.takes e 0x0106 [low 21, W32, W32] p → ¬s.notMine e.fn p → ¬(s.noSuchRing p || decide (p.getD 2 0 = 0 ∨ (s.ring (namedRing p)).size < p.getD 2 0)) → OK (.queueInvalidate e)) ∧
  (s.takes e 0x0107 [low 21] p → ¬s.notMine e.fn p → ¬s.noSuchRing p → OK (.queueQuery e)) ∧
  (s.orders e 0x0200 [W32, W32] p → ¬(List.range 4).any (fun k => (s.fn k).vfEnable && s.share k != (sharesOf p).getD k 0) → (sharesOf p).foldl (· + ·) 0 ≤ 2048 → OK (.fnAssignVfs e)) ∧
  (∀ g, s.orders e 0x0201 [low 12, low 13, low 17, low 17, low 17, low 12, W32, W32, low 20, low 27] p → g = s.grantOf q p → ¬(noFunc p || grantBad q g) → ¬s.grantBelow q g → ¬[1, 2, 3].any (fun k => decide (131072 < g.rings k + s.reserved k q)) →
     exec (.fnGrant e) s = .next ((s.grant q g).answers e RC_OK [])) ∧
  (s.takes e 0x0202 [low 12] p → ¬s.ownOnly e.fn (fun w => bits (w.getD 0 0) 11 0) p → ¬noFunc p →
     exec (.fnQuery e) s = .next (s.answers e RC_OK (s.fnWords q))) ∧
  (∀ c, s.serves e c 0x0203 [low 12] → p = c.words → ¬bit q 31 → e.fn = s.manager → ¬noFunc p → ¬s.longBusy e.fn → s.rd F.HIF_FN_STATE_STATE q = 3 →
     exec (.fnQuiesce e) s = .next (s.ticketed e c)) ∧
  (∀ c, s.serves e c 0x0203 [low 12 + 2 ^ 31] → p = c.words → bit q 31 → e.fn = s.manager → ¬noFunc p → ¬s.longBusy e.fn → s.rd F.HIF_FN_STATE_STATE (bits q 11 0) = 3 →
     ∃ t : State, exec (.fnRelease e) s = .next (t.ticketed e c)) ∧
  (∀ c, s.serves e c 0x0204 [low 12, W32, W32, W32] → p = c.words → e.fn = s.manager → ¬noFunc p → ¬s.longBusy e.fn → s.rd F.HIF_FN_STATE_STATE q = 3 →
     exec (.fnSave e) s = .next (s.ticketed e c)) ∧
  (∀ c, s.serves e c 0x0205 [low 12, W32, W32, W32] → p = c.words → e.fn = s.manager → ¬noFunc p → ¬s.longBusy e.fn → s.mayRestore q →
     exec (.fnRestore e) s = .next (s.ticketed e c)) ∧
  (s.takes e 0x0206 [low 12 + 2 ^ 31, W32, W32, low 5] p → ¬(e.fn != s.manager || !s.feature e.fn 13) → ¬noFunc p → ¬bit q 31 → OK (.fnMigrateLog e)) ∧
  (s.orders e 0x0207 [low 12] p → ¬noFunc p → s.rd F.HIF_FN_STATE_STATE q = 3 →
     exec (.fnRemove e) s = .next ((s.removeFn q).answers e RC_OK [])) ∧
  (s.takes e 0x0208 [low 2] p → ¬s.roleDenied e.fn p → ¬(!mayManage q || q == s.manager) → ¬s.roleWaits q →
     exec (.mgrRole e) s = .next ((s.moveRole q).answers e RC_OK [])) ∧
  (s.takes e 0x0300 [0x10F, W32, low 31, low 30, W32] p → ¬bit q 8 → ¬s.l2Denied e.fn p → ¬l2Bad p → ¬(maskPipes p).any (fun k => s.l2Over k (l2Payload p 1) || (s.l2Slot k (l2Payload p 1)).isNone) → OK (.tblL2Write e)) ∧
  (s.takes e 0x0300 [0x10F, W32, low 31, low 30, W32] p → bit q 8 → ¬s.l2Denied e.fn p → ¬l2Bad p → OK (.tblL2Delete e)) ∧
  (s.takes e 0x0301 [low 2, low 19] p → ¬(e.fn != s.manager && !((s.l2Named p).valid && (s.l2Named p).static && (s.l2Named p).owner == e.fn)) → OK (.tblL2Read e)) ∧
  (s.orders e 0x0302 [low 9] p → OK (.tblL2Flush e)) ∧
  (∀ k, s.takes e 0x0303 ([1] ++ List.replicate 28 W32 ++ [low 5, 0, 0, 0]) p → k = wBytes p 1 16 → ¬(s.flowDenied e.fn k || (e.fn != s.manager && bit (p.getD 29 0) 4)) → ¬flowKeyBad k → ((s.flowFind k).isNone = false ∨ (s.flowsOf (flowFunc k)).length < (s.fn (flowFunc k)).grants.flows) → (s.flowInsert k (wBytes p 17 12) (bit (p.getD 29 0) 1) (bit (p.getD 29 0) 4) (bit q 0)).2.1 = 3 →
     OK (.tblFlowInsert e)) ∧
  (∀ l, s.takes e 0x0304 (List.replicate 16 W32) p → ¬s.flowDenied e.fn (wBytes p 0 16) → ¬flowKeyBad (wBytes p 0 16) → s.flowFind (wBytes p 0 16) = some l → OK (.tblFlowDelete e)) ∧
  (∀ l, s.takes e 0x0305 (List.replicate 16 W32) p → ¬s.flowDenied e.fn (wBytes p 0 16) → ¬flowKeyBad (wBytes p 0 16) → s.flowFind (wBytes p 0 16) = some l → OK (.tblFlowLookup e)) ∧
  (∀ t u b n cs, s.orders e 0x0306 [low 5, W32, W32] p → ¬(q = 0 ∨ 16 < q) → s.dmaIn e.fn (w64 p 1) (32 * q) e.io.head? = (t, some b, n) → cs = (List.range q).map (fun k => routeChange (slice b (32 * k) 32)) → ¬cs.any (fun c => c.bad) → t.applyRoutes cs = some u →
     exec (.tblRouteBatch e) s = .next (u.answers e RC_OK [q])) ∧
  (s.orders e 0x0307 [1, W32, W32, W32, W32] p → OK (.tblRouteLookup e)) ∧
  (s.takes e 0x0400 [] p → OK (.tmCaps e)) ∧
  (∀ c t n w, c = withEn (cfgOf p 1) → s.takes e 0x0401 (3 :: List.replicate 8 W32) p → ¬(e.fn != s.manager && (q != 3 || s.newDenied e.fn c)) → ¬s.cfgBad q c → ¬s.aboveTenant e.fn q c → s.createNode q c = .done t n w →
     exec (.tmNodeCreate e) s = .next (t.answers e n w)) ∧
  (∀ n, n = nodeOf p → s.takes e 0x0402 [3 + 2 ^ 31, low 17] p → ¬s.nodeDenied e.fn p → ¬(noNode p || n.1 == 0 || !(s.node n.1 n.2).en || (n.1 == 3 && isDefaultQueue n.2)) → s.children n.1 n.2 = [] → n.1 ≠ 3 →
     OK (.tmNodeDestroy e)) ∧
  (∀ n, n = nodeOf p → s.takes e 0x0403 (3 :: low 17 :: List.replicate 8 W32) p → ¬(s.nodeDenied e.fn p || s.cfgDenied e.fn n.1 n.2 (cfgOf p 2)) → ¬(noNode p || s.nodeCode n.1 n.2 (cfgOf p 2) == RC_BAD_ARG) → ¬s.aboveTenant e.fn n.1 (cfgOf p 2) → s.nodeCode n.1 n.2 (cfgOf p 2) = RC_OK →
     OK (.tmNodeSet e)) ∧
  (s.takes e 0x0404 [3, low 17] p → ¬s.nodeDenied e.fn p → ¬noNode p → OK (.tmNodeQuery e)) ∧
  (s.takes e 0x0405 [low 16] p → s.reaches e.fn 3 q → OK (.tmQueueFlush e)) ∧
  (s.orders e 0x0406 [low 27, W32, W32] p → ¬(1024 < memberCount p) → memberCount p = 0 → s.membersUsed ≤ 1048576 → OK (.tmMcastSet e)) ∧
  (∀ (t : State) n w, s.orders e 0x0407 [low 16, W32, W32] p → s.bufferOut e.fn (w64 p 1) 8192 ((s.mcast.get q).flatMap (fun (m : Nat) => leBytes 8 m)) e.io.head? [(s.mcast.get q).length] = .done t n w →
     exec (.tmMcastQuery e) s = .next (t.answers e n w)) ∧
  (∀ c, s.serves e c 0x0408 [low 17, low 17 + 2 ^ 30 + 2 ^ 31, W32, W32, W32] → p = c.words → ¬(e.fn != s.manager && (dumpQueues p).any (fun q => !s.reaches e.fn 3 q)) → ¬(65536 < q + bits (p.getD 1 0) 16 0) → ¬s.longBusy e.fn → (bit (p.getD 1 0) 30 = true ∨ s.on F.TM_OBS_CFG_MODE 0 = false) →
     exec (.tmObsDump e) s = .next (s.ticketed e c)) ∧
  (∀ (t : State) n w, s.orders e 0x0409 (low 12 :: low 10 :: List.replicate 8 W32) p → ¬(noFunc p || s.cfgBad 2 (grantCfg p)) → s.createNode 2 (grantCfg p) = .done t n w →
     exec (.tmTenantGrant e) s = .next (t.answers e n w)) ∧
  (∀ c, s.serves e c 0x0900 (low 5 :: List.replicate 11 W32) → p = c.words → e.fn = s.manager → q = 0 → ¬s.longBusy e.fn → ¬s.on F.GLB_EPOCH_STATUS_STAGING 0 → ¬s.on F.GLB_EPOCH_STATUS_STAGED 0 → ¬s.on F.GLB_EPOCH_STATUS_ARMED 0 →
     ∃ t : State, exec (.epochStage e) s = .next (t.ticketed e c)) ∧
  (s.orders e 0x0901 [W32, W32] p → (let lead := (w64 p 0 + W64 - s.stamp) % W64; decide (lead < 800000 ∨ 80000000000 < lead)) = false → s.on F.GLB_EPOCH_STATUS_STAGED 0 → ¬s.on F.GLB_EPOCH_STATUS_DRAINING 0 →
     OK (.epochCommit e)) ∧
  (s.orders e 0x0902 [] p → s.on F.GLB_EPOCH_STATUS_STAGED 0 → exec (.epochAbandon e) s = .next (s.discardShadow.answers e RC_OK [])) ∧
  (s.orders e 0x0903 [] p → OK (.epochStatus e))

/-- Each command for time, release, offloads, redundancy, service and debug completes in every state, and for all operands, that meet the conditions before its arrow: OK i says that exec answers a next state with RC_OK as the answer. -/
def Obligations.ManagementCommandsComplete : Prop :=
  ∀ (s : State) (e : Eci) (p : List Nat) (q : Nat), q = p.getD 0 0 →
  let OK (i : Instr) : Prop := ∃ (t : State) (w : List Nat), exec i s = .next (t.answers e RC_OK w)
  (s.takes e 0x0500 [] p → OK (.timeGet e)) ∧
  (s.orders e 0x0501 [W32, W32] p → Reg.takes .TSU_FREQ_OFFSET (w64 p 0) →
     exec (.timeFreq e) s = .next ((s.setOffset (w64 p 0)).answers e RC_OK [])) ∧
  (∀ t, s.orders e 0x0502 stepMasks p → ¬bit (p.getD 4 0) 31 → ¬s.on F.TSU_STEP_CTRL_ARM 0 → t = (((s.put .TSU_STEP 0 (w64 p 0)).put .TSU_STEP_AT 0 (w64 p 2)).wr F.TSU_STEP_CTRL_ABS 0 (bits (p.getD 4 0) 0 0)).steering.arm → t.rd F.TSU_STEP_CTRL_RESULT 0 ≠ 2 → t.rd F.TSU_STEP_CTRL_RESULT 0 ≠ 3 →
     exec (.timeStep e) s = .next (t.answers e RC_OK [])) ∧
  (s.orders e 0x0502 stepMasks p → bit (p.getD 4 0) 31 →
     exec (.timeStepCancel e) s = .next (s.steering.cancelStep.answers e RC_OK [])) ∧
  (s.orders e 0x0503 [W32, W32, low 17] p → ¬(50000 < p.getD 2 0) → OK (.timeSlew e)) ∧
  (s.orders e 0x0504 [] p → OK (.timeStatus e)) ∧
  (s.orders e 0x0505 [W32, W32, W32, 7] p → ¬(badValue p 3 0 .TSU_PPS_OUT || badValue p 3 1 .TSU_PPS_OUT_OFS || badValue p 3 2 .TSU_REF) → OK (.timeIo e)) ∧
  (s.orders e 0x0506 (List.replicate 7 W32 ++ [low 7 + 2 ^ 31]) p → ¬ovenRegs.zipIdx.any (fun r => badValue p 7 r.2 r.1) → ¬bit (p.getD 7 0) 31 → OK (.ovenSet e)) ∧
  (s.orders e 0x0507 [] p → OK (.ovenStatus e)) ∧
  (s.orders e 0x0600 [] p → OK (.relCaps e)) ∧
  (∀ t v b n w, s.orders e 0x0601 [low 6, W32, W32] p → s.dmaIn e.fn (w64 p 1) 32 e.io.head? = (t, some b, n) → leAt b 0 4 / 2 = 0 → leAt b 4 4 / 2 ^ 20 = 0 → leAt b 12 20 = 0 → leAt b 8 2 = 0 → leAt b 10 2 = 0 → t.setGroup q { en := leAt b 0 4 = 1, delay := leAt b 4 4 } = .done v n w →
     exec (.relGroupSet e) s = .next (v.answers e n w)) ∧
  (∀ b (t : State) n w, s.orders e 0x0602 [low 6 + 2 ^ 31, W32, W32, W32] p → b = s.groupBytes ((if bit q 31 then s.groupsOper else s.groupsAdmin).get (bits q 5 0)) → s.bufferOut e.fn (w64 p 1) (p.getD 3 0) b e.io.head? [b.length] = .done t n w →
     exec (.relGroupQuery e) s = .next (t.answers e n w)) ∧
  (s.orders e 0x0603 stampMasks p → ¬bit q 31 → ¬s.noStampRing e.fn (p.getD 1 0) → OK (.relStampRing e)) ∧
  (s.orders e 0x0603 stampMasks p → bit q 31 → OK (.relStampRingClear e)) ∧
  (s.orders e 0x0604 [low 18 + 2 ^ 31] p → bit q 31 → (s.jrings.getD (bits q 17 0) none).isSome → OK (.jnlQueueSet e)) ∧
  (∀ (t : State), s.orders e 0x0604 [low 18 + 2 ^ 31] p → ¬bit q 31 → t = s.closeDigest q → ∃ y : State, exec (.jnlQueueRemove e) s = .next (y.answers e RC_OK [])) ∧
  (∀ (t : State) n w, s.orders e 0x0605 [W32, W32, W32] p → s.bufferOut e.fn (w64 p 0) (p.getD 2 0) Config.certificate e.io.head? [Config.certificate.length] = .done t n w →
     exec (.jnlIdentity e) s = .next (t.answers e n w)) ∧
  (s.orders e 0x0606 [] p → OK (.jnlStatus e)) ∧
  (s.orders e 0x0607 [] p → s.val .JNL_PROD 0 = s.val .JNL_CONS 0 → OK (.jnlRestart e)) ∧
  (s.takes e 0x0700 [] p → OK (.oflCaps e)) ∧
  (∀ i a, s.takes e 0x0701 (if (s.eciWords e).getD 0 0 % 4 = 1 then sessMasks else espMasks) p → ¬s.createDenied e.fn p → ¬createBad p → q % 4 = 0 → a = espOfPayload p → s.espOf a.owner < (s.fn a.owner).grants.esp → s.espSas.length < ESP_COUNT → firstFree ESP_COUNT s.fresh (fun k => (s.espSas.get k).state != 0) = some i →
     OK (.oflCtxCreate e)) ∧
  (s.takes e 0x0702 [3 + 2 ^ 16 * low 12, low 20] p → ¬s.ctxDenied e.fn p → ¬s.noCtx (ctxKind p) (ctxOwner p) (ctxNo p) → ctxKind p ≠ 2 → s.ctxBusy (ctxKind p) (ctxNo p) →
     exec (.oflCtxDestroy e) s = .next (s.ctxDying (ctxKind p) (ctxNo p))) ∧
  (s.takes e 0x0703 [3 + 2 ^ 16 * low 12, low 20] p → ¬s.ctxDenied e.fn p → ¬s.noCtx (ctxKind p) (ctxOwner p) (ctxNo p) → OK (.oflCtxQuery e)) ∧
  (s.takes e 0x0704 ([3 + 2 ^ 16 * low 12, low 20, 7] ++ List.replicate 8 W32 ++ [low 13, low 17]) p → ¬s.ctxDenied e.fn p → ¬(s.noCtx (ctxKind p) (ctxOwner p) (ctxNo p) || modifyBad p) → s.ctxState (ctxKind p) (ctxNo p) ≠ 3 →
     exec (.oflCtxModify e) s = .next ((s.ctxModify p).answers e RC_OK [])) ∧
  (∀ (a : Session), s.takes e 0x0705 [2 ^ 16 * low 12, low 20, W32, W32, W32] p → ¬s.sessDenied e.fn p → ¬s.noSession p (fun a => a.tlsRx) → a = s.sessions.get (ctxNo p) → a.state ≠ 3 → a.rxState ≠ 0 → OK (.oflTlsResync e)) ∧
  (∀ a, s.takes e 0x0706 ([2 ^ 16 * low 12, low 20] ++ List.replicate 12 W32) p → a = s.sessions.get (ctxNo p) → ¬s.sessDenied e.fn p → ¬(s.noSession p (fun a => a.tlsRx) || (!a.key256 && anyWord p 7 4)) → a.state ≠ 3 → a.rxState ≠ 0 →
     OK (.oflTlsRxRekey e)) ∧
  (∀ (a : Session), s.takes e 0x0707 [2 ^ 16 * low 12, low 20, W32] p → ¬s.sessDenied e.fn p → ¬s.noSession p (fun a => a.nvme) → a = s.sessions.get (ctxNo p) → a.state ≠ 3 → (a.nvState = 1 ∨ a.nvState = 3) →
     OK (.oflNvmeResync e)) ∧
  (s.takes e 0x0708 [2 ^ 16 * low 12, low 20, low 16] p → ¬s.sessDenied e.fn p → ¬(s.noCtx 1 (ctxOwner p) (ctxNo p) || !(s.places.any (fun x => x.1 == placeKey (ctxNo p) (p.getD 2 0)))) → OK (.oflPlaceDrop e)) ∧
  (∀ i (a : MacsecSa), s.orders e 0x0709 macsecMasks p → ¬bit q 0 → ¬(!s.xpn (bits q 7 4) && p.getD 5 0 != 0) → a = s.saOfPayload p → s.saPlace a = some i → (s.macsec.get i).state ≠ 3 → OK (.oflMacsecSa e)) ∧
  (∀ i, s.orders e 0x0709 macsecMasks p → bit q 0 → ¬(s.saPlace (s.saOfPayload p)).isNone → s.saPlace (s.saOfPayload p) = some i → OK (.oflMacsecSaRemove e)) ∧
  (s.orders e 0x070A [low 6] p → OK (.oflMacsecTxAn e)) ∧
  (s.takes e 0x070B [] p → OK (.oflNotify e)) ∧
  (s.orders e 0x070C [low 12, W32, W32, W32] p → ¬(noFunc p || decide (ESP_COUNT < p.getD 1 0 ∨ SESSION_COUNT < p.getD 2 0 ∨ PLACE_COUNT < p.getD 3 0)) → s.espOf q ≤ p.getD 1 0 → s.sessOf q ≤ p.getD 2 0 → s.placesOf q ≤ p.getD 3 0 →
     OK (.oflQuota e)) ∧
  (s.orders e 0x0800 [] p → OK (.frerCaps e)) ∧
  (s.orders e 0x0801 memberMasks p → ¬bit q 31 → ¬s.memberRefused q (wBytes p 1 4) → OK (.frerMemberSet e)) ∧
  (s.orders e 0x0801 memberMasks p → bit q 31 → OK (.frerMemberClear e)) ∧
  (s.orders e 0x0802 ctxMasks p → ¬bit q 31 → ¬s.ctxRefused q { cfg := wBytes p 1 4 } → OK (.frerCtxSet e)) ∧
  (s.orders e 0x0802 ctxMasks p → bit q 31 → ¬s.validMembers.any (fun m => mbCtx m.2 == bits q 10 0) → OK (.frerCtxClear e)) ∧
  (s.orders e 0x0803 [low 11, W32, W32] p → w64 p 1 = 0 → OK (.frerCtxQuery e)) ∧
  (s.orders e 0x0804 [low 11] p → ¬((s.ctx q).kind < 2) → ¬s.isFenced (unitObject 6) q → OK (.frerCtxReset e)) ∧
  (s.orders e 0x0805 [3 + 2 ^ 4 * low 16, W32, low 12, W32, low 16] p → ¬(q % 4 == 3) → OK (.mirCfg e)) ∧
  (s.orders e 0x0806 [] p → OK (.mirStatus e)) ∧
  (∀ t n w, s.orders e 0x0807 (1 :: List.replicate 8 W32) p → s.mirRole = 2 → ¬s.mir.heads.isEmpty → q = 0 → s.takeover false = .done t n w →
     exec (.mirTakeover e) s = .next (t.answers e n w)) ∧
  (∀ (t : State) n w, s.orders e 0x0808 [1] p → s.mirRole = 3 → s.takeover (q == 1) = .done t n w →
     exec (.mirResolve e) s = .next (t.answers e n w)) ∧
  (s.orders e 0x0809 [] p → s.mirRole = 1 → s.mir.resync = none → OK (.mirResync e)) ∧
  (∀ t n w, s.takes e 0x0A00 [low 5, W32, W32] p → ¬(e.fn != s.manager || s.on F.GLB_COUNTER_OWNER_OWNER 0) → ¬(bit q 4 && bits q 3 0 != 0) → (s.foldCounters q).bufferOut e.fn (w64 p 1) 448 ((s.foldCounters q).totals q) e.io.head? [0] = .done t n w →
     exec (.svcPortCounters e) s = .next ((if n = RC_OK then t else s).answers e n w)) ∧
  (s.orders e 0x0A01 [low 10, 2 ^ 31 + 3 * 2 ^ 12 + low 11] p → ¬(decide (576 ≤ q) || decide ((s.fn (bits (p.getD 1 0) 13 12)).grants.vectors ≤ bits (p.getD 1 0) 10 0)) → OK (.svcEvtRoute e)) ∧
  (∀ c, s.serves e c 0x0A02 [low 8, W32, W32, W32] → p = c.words → ¬(s.flashDenied e.fn || [0, 7, 8, 9, 10].contains q) → ¬(decide (10 < q) || decide (flashSize q < p.getD 3 0)) → ¬s.flashTaken e.fn → ¬(!s.recovery && q == 1 + s.fwSlot) → ¬s.longBusy e.fn →
     ∃ t : State, exec (.svcFlashWrite e) s = .next (t.ticketed e c)) ∧
  (s.takes e 0x0A03 [1] p → ¬s.flashDenied e.fn → ¬s.flashTaken e.fn →
     exec (.svcFwActivate e) s = .next (if s.slotValid q then (s.answers e RC_OK []).fwActivate q else s.answers e RC_BAD_ARG [])) ∧
  (s.orders e 0x0A04 [] p → OK (.svcLogRead e)) ∧
  (∀ c, s.serves e c 0x0A05 [3] → p = c.words → e.fn = s.manager → ¬s.longBusy e.fn →
     exec (.svcHbmRetrain e) s = .next (s.ticketed e c)) ∧
  (s.orders e 0x0A06 [low 16] p → ¬(q != 0xDFFF && !unitListed q) →
     exec (.svcWearQuery e) s = .next (s.answers e RC_OK (s.wearWords q)))

/-- TIME_CLOCK_TICK counts one nanosecond of elapsed time; while the counter counts it also counts device time by the increment and slew_add (or applies an armed step), raises what that tick brings about, drives CLK10M_OUT's edges, and keeps TSU_STATUS in step. The three commands that name what a tick may bring about are that tick when it comes about on it. -/
def Obligations.TimeTicks : Prop :=
  (∀ s : State, s.tsu.counting = false →
     exec .timeClockTick s = .next { s with now := s.now + 1, tsu := { s.tsu with dlyOld := [] } }) ∧
  (∀ s u : State, s.tsu.counting = true → u = ({ s with now := s.now + 1, tsu := { s.tsu with dlyOld := [] } } : State).countTick →
     exec .timeClockTick s = .next
     ((((((u.when s.crosses State.secondBoundary).when s.stepApplies (fun t => t.stepDone (s.on F.TSU_STEP_CTRL_ABS 0))).when s.slewEnds
       (fun t => t.raise Ev.TIME_SLEW_DONE)).when (s.clkEdge u.time) (fun t => t.send .clk10m)).tsuSync))) ∧
  (∀ s : State, s.crosses = true → exec .timeSecondBoundary s = exec .timeClockTick s) ∧
  (∀ s : State, s.stepApplies = true → exec .timeStepApplied s = exec .timeClockTick s) ∧
  (∀ s : State, s.tsu.counting = true → s.slewEnds = true → exec .timeSlewDone s = exec .timeClockTick s)

/-- What the manager's writes of TSU_FREQ_OFFSET, TSU_STEP_CTRL, TSU_SLEW_SET, TSU_SLEW_RATE, TSU_REF and TSU_BOARD_DLY leave: registers, steering, journal records and events; a step is refused while a fairness group is enabled. -/
def Obligations.TimeSteering : Prop :=
  (∀ (s : State) (fn v : Nat), s.managedBy fn → (Legal.signed 32768000000).ok 64 (v % 2 ^ 64) = true →
     v % 2 ^ 64 ≠ s.steering.val .TSU_FREQ_OFFSET 0 → s.steering.val .TSU_FREQ_OFFSET 0 = s.val .TSU_FREQ_OFFSET 0 →
     exec (.tsuFreqOffsetWrite fn .full v) s = .next (({ s.steering.put .TSU_FREQ_OFFSET 0 (v % 2 ^ 64) with
       tsu := { s.steering.tsu with incrDue := true } } : State).journalSteer 1 (v % 2 ^ 64) (s.val .TSU_FREQ_OFFSET 0))) ∧
  (∀ (s : State) (fn v : Nat), s.managedBy fn → (Legal.signed 32768000000).ok 64 (v % 2 ^ 64) = false →
     exec (.tsuFreqOffsetWrite fn .full v) s = .next s.steering) ∧
  (∀ (s : State) (fn : Nat) (abs cancel : Bool), s.managedBy fn → s.on F.TSU_STEP_CTRL_ARM 0 = false → cancel = false →
     exec (.tsuStepArm fn abs cancel) s = .next ((s.wr F.TSU_STEP_CTRL_ABS 0 (b2n abs)).steering.arm)) ∧
  (∀ s : State, s.groupEnabled = true → s.arm = (s.wr F.TSU_STEP_CTRL_RESULT 0 2).raise Ev.TIME_STEP_DENIED) ∧
  (∀ s : State, s.groupEnabled = false → s.on F.TSU_STEP_CTRL_ABS 0 = true →
     s.arm = ((s.wr F.TSU_STEP_CTRL_ARM 0 1).wr F.TSU_STEP_CTRL_RESULT 0 0).tsuSync) ∧
  (∀ (s : State) (fn : Nat) (abs : Bool), s.managedBy fn → s.on F.TSU_STEP_CTRL_ARM 0 = true → s.on F.TSU_STEP_CTRL_ABS 0 = abs →
     exec (.tsuStepCancel fn abs) s = .next (((s.wr F.TSU_STEP_CTRL_ARM 0 0).wr F.TSU_STEP_CTRL_RESULT 0 0).tsuSync)) ∧
  (∀ (s : State) (fn v : Nat), s.managedBy fn → exec (.tsuSlewSetWrite fn .full v) s = .next
     ((({ s.steering with tsu := { s.steering.tsu with slewLeft := signed 64 v * 2 ^ 32, slewAcc := 0 } } : State).journalSteer 4
       (v % 2 ^ 64) (unsigned 64 s.tsu.remaining)).tsuSync)) ∧
  (∀ (s : State) (fn v : Nat), s.managedBy fn → exec (.tsuSlewSetWrite fn .low v) s = .next
     { s with tsu := { s.tsu with slewHeld := some (v % 2 ^ 32) } }) ∧
  (∀ (s : State) (fn v lo : Nat), s.managedBy fn → s.tsu.slewHeld = some lo → exec (.tsuSlewSetWrite fn .high v) s = .next
     (({ s with tsu := { s.tsu with slewHeld := none } } : State).setSlew (lo + v % 2 ^ 32 * 2 ^ 32))) ∧
  (∀ (s : State) (fn v : Nat), s.managedBy fn → exec (.tsuSlewRateWrite fn v) s = .next
     { s.wrLegal F.TSU_SLEW_RATE_RATE_NS 0 v with tsu := { (s.wrLegal F.TSU_SLEW_RATE_RATE_NS 0 v).tsu with slewAcc := 0 } }) ∧
  (∀ (s u : State) (fn port v : Nat), s.managedBy fn → port < 16 →
     u = ({ s with tsu := { s.tsu with dlyOld := s.tsu.dlyOld.set port (some ((s.tsu.dlyOld.get port).getD (s.val .TSU_BOARD_DLY port))) } } : State).put .TSU_BOARD_DLY port (v % 2 ^ 32) →
     exec (.tsuBoardDlyWrite fn port v) s = .next
     (u.journalCfg 0x07 1 (leBytes 2 port ++ leBytes 2 (u.rd F.TSU_BOARD_DLY_TX_PS port) ++ leBytes 2 (u.rd F.TSU_BOARD_DLY_RX_PS port)))) ∧
  (∀ (s : State) (fn v : Nat), s.managedBy fn → v % 4 ≤ 2 → v % 4 ≠ s.rd F.TSU_REF_SEL 0 → exec (.tsuRefWrite fn v) s = .next
     (((((s.wr F.TSU_REF_SEL 0 (v % 4)).wr F.TSU_STATUS_REF_ACTIVE 0 (v % 4)).wr F.TSU_STATUS_PLL_LOCKED 0 0).clockDue 3).raise
       Ev.TIME_REF_SWITCHED)) ∧
  (∀ (s : State) (fn v : Nat), s.managedBy fn → v % 4 = 3 ∨ v % 4 = s.rd F.TSU_REF_SEL 0 → exec (.tsuRefWrite fn v) s = .next s)

/-- What a low-word read of TSU_TIME_NSF by the manager answers and latches; holdover after 2 s in TRACKING without steering; loss, return and unlock of the reference; PPS_IN captures and their absence. -/
def Obligations.TimeReferences : Prop :=
  (∀ (s : State) (fn : Nat), s.managedBy fn → exec (.tsuTimeNsfRead fn) s = .next
     (({ s with latches := ((s.latches.setD (latchKey fn 0x01000004) (some (s.time.nsf / 2 ^ 32)) none).setD
         (latchKey fn 0x01000008) (some (s.time.sec % 2 ^ 32)) none).setD (latchKey fn 0x0100000C) (some (s.time.sec / 2 ^ 32)) none }
       : State).send (.readValue fn 0x01000000 (s.time.nsf % 2 ^ 32)))) ∧
  (∀ s : State, s.rd F.TSU_STATUS_HOLD_STATE 0 = 1 → s.tsu.steerAt + 2000000000 ≤ s.now → exec .timeHoldoverEnter s = .next
     (((s.tsuStatus F.TSU_STATUS_HOLD_STATE 2).raise Ev.TIME_HOLDOVER_ENTER).journalHoldover true s.tsu.steerStamp)) ∧
  (∀ s : State, s.rd F.TSU_STATUS_HOLD_STATE 0 ≠ 1 ∨ s.now < s.tsu.steerAt + 2000000000 → exec .timeHoldoverEnter s = .next s) ∧
  (∀ s : State, s.on F.TSU_STATUS_REF_PRESENT 0 = true → exec .timeRefLost s = .next
     (((s.wr F.TSU_STATUS_REF_PRESENT 0 0).wr F.TSU_STATUS_PLL_LOCKED 0 0).raise Ev.TIME_REF_LOST |>.journalClock 1)) ∧
  (∀ s : State, s.on F.TSU_STATUS_PLL_LOCKED 0 = false → exec .timeRefRestored s = .next
     (({ (s.tsuStatus F.TSU_STATUS_PLL_LOCKED 1).tsuStatus F.TSU_STATUS_REF_PRESENT 1 with
       tsu := { ((s.tsuStatus F.TSU_STATUS_PLL_LOCKED 1).tsuStatus F.TSU_STATUS_REF_PRESENT 1).tsu with counting := true } } : State).raise
       Ev.TIME_REF_RESTORED)) ∧
  (∀ s : State, s.on F.TSU_STATUS_PLL_LOCKED 0 = true → exec .timePllUnlock s = .next
     ((s.tsuStatus F.TSU_STATUS_PLL_LOCKED 0).raise Ev.TIME_PLL_UNLOCK)) ∧
  (∀ (s : State) (phase : Nat), exec (.ppsInCaptured phase) s = .next
     (({ s.put .TSU_PPS_IN 0 (DevTime.ofUnits (s.rawStamp phase)).short with
       tsu := { (s.put .TSU_PPS_IN 0 (DevTime.ofUnits (s.rawStamp phase)).short).tsu with ppsAt := some s.now } } : State).raise
       Ev.PPS_IN_CAPTURED)) ∧
  (∀ (s : State) (t : Nat), s.tsu.ppsAt = some t → t + 1100000000 ≤ s.now → exec .ppsInMissing s = .next
     (({ s with tsu := { s.tsu with ppsAt := none } } : State).raise Ev.PPS_IN_MISSING))

/-- What the manager's writes of OVN_CTRL, OVN_EFC and OT_LATCH do; what an ADC sample does in each state of the loop; when the oven settles, locks, unlocks, faults, trips and announces full duty, and what each leaves. -/
def Obligations.OvenCommands : Prop :=
  (∀ (s : State) (fn v : Nat), s.managedBy fn → bit v 31 = true → (s.put .OVN_CTRL 0 (bits v 31 29 * 2 ^ 29)).ovenIs .overtemp = false →
     (s.put .OVN_CTRL 0 (bits v 31 29 * 2 ^ 29)).ovenIs .cold = true →
     exec (.ovnEnWrite fn v) s = .next ((s.put .OVN_CTRL 0 (bits v 31 29 * 2 ^ 29)).ovenEnter .warming 0)) ∧
  (∀ (s : State) (fn v : Nat), s.managedBy fn → bit v 31 = false → (s.put .OVN_CTRL 0 (bits v 31 29 * 2 ^ 29)).ovenIs .overtemp = false →
     (s.put .OVN_CTRL 0 (bits v 31 29 * 2 ^ 29)).ovenIs .cold = false →
     exec (.ovnEnWrite fn v) s = .next ((s.put .OVN_CTRL 0 (bits v 31 29 * 2 ^ 29)).ovenEnter .cold 0)) ∧
  (∀ (s : State) (fn v : Nat), s.managedBy fn → (s.put .OVN_CTRL 0 (bits v 31 29 * 2 ^ 29)).ovenIs .overtemp = true →
     exec (.ovnEnWrite fn v) s = .next (s.put .OVN_CTRL 0 (bits v 31 29 * 2 ^ 29))) ∧
  (∀ (s : State) (fn v : Nat), s.managedBy fn → bit v 31 = true → bit v 30 = true →
     (s.put .OVN_CTRL 0 (bits v 31 29 * 2 ^ 29)).rd F.OVN_STATUS_STATE 0 = 3 →
     exec (.ovnHoldWrite fn v) s = .next ((s.put .OVN_CTRL 0 (bits v 31 29 * 2 ^ 29)).ovenEnter .held 0)) ∧
  (∀ (s : State) (fn v : Nat), s.managedBy fn → bit v 31 = true → bit v 30 = false →
     (s.put .OVN_CTRL 0 (bits v 31 29 * 2 ^ 29)).rd F.OVN_STATUS_STATE 0 = 4 →
     exec (.ovnHoldWrite fn v) s = .next ((s.put .OVN_CTRL 0 (bits v 31 29 * 2 ^ 29)).ovenEnter .settling 0)) ∧
  (∀ (s : State) (code : Nat), (s.wr F.OVN_SENSE_CODE 0 (code % 65536)).ovenIs .settling = true →
     exec (.ovnAdcSample code true) s = .next (((s.wr F.OVN_SENSE_CODE 0 (code % 65536)).ovenLoop (code % 65536)).ovenRuns (code % 65536))) ∧
  (∀ (s : State) (code : Nat), (s.wr F.OVN_SENSE_CODE 0 (code % 65536)).rd F.OVN_STATUS_STATE 0 = 1 →
     exec (.ovnAdcSample code true) s = .next (((s.wr F.OVN_SENSE_CODE 0 (code % 65536)).wr F.OVN_STATUS_DUTY 0
       ((s.wr F.OVN_SENSE_CODE 0 (code % 65536)).rd F.OVN_LIMITS_DUTY_MAX 0)).ovenRuns (code % 65536))) ∧
  (∀ s : State, s.ovenIs .warming = true → s.ovenErr.natAbs ≤ s.rd F.OVN_BANDS_WARM_BAND 0 → ∃ u,
     u = ({ s with oven := { s.oven with integ := clampTo (((s.rd F.OVN_LIMITS_DUTY_MAX 0 * 256 : Nat) : Int) - s.rd F.OVN_GAIN_KP 0 * s.ovenErr) (s.rd F.OVN_LIMITS_DUTY_MAX 0 * 256) } } : State).ovenEnter .settling 0 ∧
     exec .ovnSettling s = .next (if u.on F.OVN_CTRL_HOLD 0 then u.ovenEnter .held 0 else u)) ∧
  (∀ (s : State) (t : Nat), s.oven.inBand = some t → s.ovenIs .settling = true → t + s.rd F.OVN_LIMITS_SETTLE_S 0 * 1000000000 ≤ s.now →
     exec .ovnLocked s = .next (s.ovenEnter .locked 0)) ∧
  (∀ (s : State) (t : Nat), s.oven.outBand = some t → s.ovenIs .locked = true → t + 1000000000 ≤ s.now →
     exec .ovnUnlocked s = .next ((s.raise Ev.OVN_UNLOCKED).ovenEnter .settling 0)) ∧
  (∀ s : State, 10 ≤ s.oven.implausible → s.ovenIs .warming = true → exec .ovnFaultSense s = .next (s.ovenEnter .fault 1)) ∧
  (∀ s : State, s.ovenIs .warming = true → s.oven.since + s.rd F.OVN_LIMITS_WARM_TIMEOUT_MIN 0 * 60000000000 ≤ s.now →
     exec .ovnFaultWarmup s = .next (s.ovenEnter .fault 2)) ∧
  (∀ s : State, exec .ovnOvertemp s = .next (((s.wr F.OVN_STATUS_OT_NOW 0 1).wr F.OVN_STATUS_OT_LATCH 0 1).ovenEnter .overtemp 0)) ∧
  (∀ (s : State) (fn : Nat), s.managedBy fn → ((s.wr F.OVN_STATUS_OT_NOW 0 0).wr F.OVN_STATUS_OT_LATCH 0 0).ovenIs .overtemp = true →
     exec (.ovnOtLatchClear fn false) s = .next
       ((((s.wr F.OVN_STATUS_OT_NOW 0 0).wr F.OVN_STATUS_OT_LATCH 0 0).raise Ev.OVN_OT_CLEARED).ovenEnter
         (if ((s.wr F.OVN_STATUS_OT_NOW 0 0).wr F.OVN_STATUS_OT_LATCH 0 0).on F.OVN_CTRL_EN 0 then .warming else .cold) 0)) ∧
  (∀ (s : State) (t : Nat), s.oven.dutyMax = some t → s.ovenIs .locked = true → t + 60000000000 ≤ s.now → s.oven.dutyRaised = false →
     exec .ovnDutyLimit s = .next (({ s with oven := { s.oven with dutyRaised := true } } : State).raise Ev.OVN_DUTY_LIMIT)) ∧
  (∀ (s : State) (fn v : Nat), s.managedBy fn →
     exec (.ovnEfcWrite fn v) s = .next ((s.wr F.OVN_EFC_CODE 0 v).journalSteer 5 (v % 2 ^ 20) (s.rd F.OVN_EFC_CODE 0)))

/-- What applying a lane group's PRT_MODE does or reports, and what link up, local and remote faults, link down, port reset and storm clear leave in a port's status, its events and its ordered sets. -/
def Obligations.PortLinks : Prop :=
  (∀ (s : State) (fn group : Nat) (l : Nat), s.managedBy fn → group < 2 → s.failLane group = some l →
     exec (.prtGroupApply fn group) s = .next ((s.wr F.PRT_GROUP_APPLY_RESULT group 2).wr F.PRT_GROUP_APPLY_FAIL_LANE group l)) ∧
  (∀ (s : State) (fn group : Nat), s.managedBy fn → group < 2 → s.failLane group = none →
     exec (.prtGroupApply fn group) s = .next ((((s.wr F.PRT_GROUP_APPLY_RESULT group 1).wr F.PRT_GROUP_APPLY_FAIL_LANE group 0).each (List.range 8) (fun k t => t.applyPort (8 * group + k))).lanePower group)) ∧
  (∀ (s : State) (port maxSkew refWait : Nat), port < 16 → s.on F.PRT_STATUS_ACTIVE_EN port = true → s.on F.PRT_STATUS_LINK_UP port = false → s.isFenced (unitPort port) 0 = false →
     exec (.prtLinkUp port maxSkew refWait) s = .next (
       let s := (s.wr F.PRT_DESKEW_MAX_SKEW_PS port maxSkew).wr F.PRT_DESKEW_REF_WAIT_PS port
         (if modeLanes (s.rd F.PRT_STATUS_ACTIVE_MODE port) = 1 then 0 else refWait)
       let s := ((s.wr F.PRT_STATUS_AM_LOCK port 1).wr F.PRT_STATUS_LOCAL_FAULT port 0).settleCal port
       (s.wr F.PRT_STATUS_LINK_UP port 1).raise (Ev.PRT_LINK_UP port))) ∧
  (∀ (s : State) (port : Nat), port < 16 → s.on F.PRT_STATUS_ACTIVE_EN port = true → s.on F.PRT_STATUS_LOCAL_FAULT port = false →
     exec (.prtLocalFault port) s = .next (
       let s := { s with localFault := s.localFault.set port s.now }
       ((s.wr F.PRT_STATUS_LOCAL_FAULT port 1).raise (Ev.PRT_LOCAL_FAULT port)).send (.orderedSets port 1))) ∧
  (∀ (s : State) (port : Nat), exec (.prtLocalFaultEnd port) s = .next (s.wr F.PRT_STATUS_LOCAL_FAULT port 0)) ∧
  (∀ (s : State) (port : Nat), port < 16 → s.on F.PRT_STATUS_ACTIVE_EN port = true → s.on F.PRT_STATUS_REMOTE_FAULT port = false →
     exec (.prtRemoteFault port) s = .next ((s.wr F.PRT_STATUS_REMOTE_FAULT port 1).raise (Ev.PRT_REMOTE_FAULT port))) ∧
  (∀ (s : State) (port : Nat), exec (.prtRemoteFaultEnd port) s = .next (s.wr F.PRT_STATUS_REMOTE_FAULT port 0)) ∧
  (∀ (s : State) (port : Nat), s.on F.PRT_STATUS_LINK_UP port = true → s.on F.PRT_STATUS_LOCAL_FAULT port = true → s.localFault.get port + 10000 ≤ s.now →
     exec (.prtLinkDown port) s = .next (s.linkFalls port)) ∧
  (∀ (s : State) (fn port v : Nat), s.managedBy fn → port < 16 → bit (putBits v 31 31 1) 31 = true → bit (putBits v 31 31 1) 27 = false →
     exec (.portReset fn port v) s = .next (((s.wrLegal F.PRT_CTRL_LOOPBACK port (bits (putBits v 31 31 1) 30 29)).wr F.PRT_CTRL_TX_DISABLE port (bits (putBits v 31 31 1) 28 28)).portDown port)) ∧
  (∀ (s : State) (fn port v : Nat), s.managedBy fn → port < 16 → bit (putBits v 27 27 1) 31 = false → bit (putBits v 27 27 1) 27 = true →
     exec (.stormClear fn port v) s = .next (((s.wrLegal F.PRT_CTRL_LOOPBACK port (bits (putBits v 27 27 1) 30 29)).wr F.PRT_CTRL_TX_DISABLE port (bits (putBits v 27 27 1) 28 28)).wr F.PRT_STATUS_STORM port 0)) ∧
  (∀ (s : State) (port : Nat), port < 16 → s.windowStart (Ev.PRT_FEC_DEGRADED port) + 1000000000 ≤ s.now →
     exec (.prtFecDegraded port) s = .next (({ s with rates := s.rates.set (Ev.PRT_FEC_DEGRADED port) { start := s.windowStart (Ev.PRT_FEC_DEGRADED port) + 1000000000, count := 0 } } : State).when (decide (2 ^ 20 < (s.rates.get (Ev.PRT_FEC_DEGRADED port)).count)) (fun t => t.raise (Ev.PRT_FEC_DEGRADED port))))

/-- PAUSE and PFC frames received by a port that is up are counted and hold what the port honours; holds end, XOFF is repeated and a storm is announced at the times the port's registers give; frame preemption is enabled, verified and answered. -/
def Obligations.PortFlowControl : Prop :=
  (∀ (s : State) (port time : Nat) (u : State), port < 16 → s.on F.PRT_STATUS_LINK_UP port = true → u = s.rxControl port → u.honours port 1 = true →
     exec (.rxPauseFrame port time) s = .next (((u.count .PRT_CTR port C.PRT_RX_PAUSE).setHold port 8 (time % 65536)).loseDeficits port)) ∧
  (∀ (s : State) (port time : Nat) (u : State), port < 16 → s.on F.PRT_STATUS_LINK_UP port = true → u = s.rxControl port → u.honours port 1 = false →
     exec (.rxPauseFrame port time) s = .next ((u.count .PRT_CTR port C.PRT_RX_PAUSE).loseDeficits port)) ∧
  (∀ (s : State) (port enable : Nat) (times : List Nat), port < 16 → s.on F.PRT_STATUS_LINK_UP port = true →
     exec (.rxPfcFrame port enable times) s = .next ((((s.rxControl port).rxPfc port enable times).loseDeficits port))) ∧
  (∀ (s : State) (h : _) (port c : Nat), s.holds.getD (holdKey port c) none = some h → c < 9 → h.until_ ≤ s.now * 100 →
     exec (.fcHoldExpire port c) s = .next (s.endHold port c)) ∧
  (∀ (s : State) (t : _) (port c : Nat), s.xoff.getD (holdKey port c) none = some t → c < 9 → (s.fcClasses port).contains c = true → 100 * t + s.rd F.PRT_FC_QUANTA_REFRESH port * modeQuantum (s.rd F.PRT_STATUS_ACTIVE_MODE port) ≤ 100 * s.now → s.rd F.PRT_FC_THRESH_XON_KIB port * 1024 < s.occupancy port (if c = 8 then none else some c) →
     exec (.xoffRefresh port c) s = .next (({ s with xoff := s.xoff.setD (holdKey port c) (some s.now) none } : State).sendFc port c (s.rd F.PRT_FC_QUANTA_QUANTA port))) ∧
  (∀ (s : State) (h : _) (port c : Nat), s.holds.getD (holdKey port c) none = some h → c < 9 → s.rd F.PRT_FC_CFG_STORM_MS port ≠ 0 → h.storm = false → h.since + s.rd F.PRT_FC_CFG_STORM_MS port * 1000000 ≤ s.now →
     exec (.prtPauseStorm port c) s = .next (
       let s := ({ s with holds := s.holds.setD (holdKey port c) (some { h with storm := true }) none }).raise (Ev.PRT_PAUSE_STORM port)
       if s.rd F.PRT_FC_CFG_STORM_ACTION port = 1 then (s.wr F.PRT_STATUS_STORM port 1).endHolds port else s)) ∧
  (∀ (s : State) (fn port v : Nat), s.managedBy fn → port < 16 → bit v 31 = false →
     exec (.preemptEnableWrite fn port v) s = .next (s.preemptWrite port v)) ∧
  (∀ (s : State) (port : Nat), s.rd F.PRT_PREEMPT_VERIFY_STATUS port = 1 → (s.verify.get port).2 + s.rd F.PRT_PREEMPT_VERIFY_MS port * 1000000 ≤ s.now → (s.verify.get port).1 < 3 →
     exec (.preemptVerifyFrame port) s = .next (s.sendVerify port ((s.verify.get port).1 + 1))) ∧
  (∀ (s : State) (port : Nat), s.rd F.PRT_PREEMPT_VERIFY_STATUS port = 1 → (s.verify.get port).2 + s.rd F.PRT_PREEMPT_VERIFY_MS port * 1000000 ≤ s.now → ¬(s.verify.get port).1 < 3 →
     exec (.preemptVerifyFrame port) s = .next ((s.wr F.PRT_PREEMPT_VERIFY_STATUS port 3).raise (Ev.PRT_PREEMPT_VERIFY port))) ∧
  (∀ (s : State) (port : Nat), s.rd F.PRT_PREEMPT_VERIFY_STATUS port = 1 →
     exec (.preemptResponseRx port) s = .next ((s.wr F.PRT_PREEMPT_VERIFY_STATUS port 2).wr F.PRT_STATUS_PREEMPT_ACTIVE port 1))

/-- Counter ownership passes to firmware once and journals the totals; management frames reach NC-SI, the manager's ring or the drop counter; pass-through frames leave; NC-SI commands change the channel and are answered, those the Initial State refuses with code 1 (log 15); the management link comes and goes. -/
def Obligations.ManagementPort : Prop :=
  (∀ (s : State) (fn v : Nat), s.managedBy fn → s.on F.GLB_COUNTER_OWNER_OWNER 0 = false → v % 2 = 1 →
     exec (.counterOwnerCommit fn v) s = .next ((s.wr F.GLB_COUNTER_OWNER_OWNER 0 1).each (List.range 16) (fun n t => t.journalCfg 0x08 13 (leBytes 8 n ++ t.totals n)))) ∧
  (∀ (s : State) (fn v : Nat), s.managedBy fn → s.on F.GLB_COUNTER_OWNER_OWNER 0 = true →
     exec (.counterOwnerCommit fn v) s = .next (s.logFwWrite 0x230 v)) ∧
  (∀ (s : State) (data : Bytes) (good : Bool), s.on F.PRT_MGMT_CFG_EN 0 = true → s.on F.PRT_MGMT_CFG_LINK_UP 0 = true → data.length + 4 < 64 →
     exec (.mgmtFrameRx data good) s = .next ((s.countRxAll 16 (data.length + 4)).count .PRT_CTR 16 (if good then C.PRT_RX_UNDERSIZE else C.PRT_RX_FRAGMENT))) ∧
  (∀ (s : State) (data : Bytes) (good : Bool) (u : State), s.on F.PRT_MGMT_CFG_EN 0 = true → s.on F.PRT_MGMT_CFG_LINK_UP 0 = true → u = s.countRxAll 16 (data.length + 4) → 60 ≤ data.length → u.rd F.PRT_MAC_CFG_MAX_FRAME 16 < data.length + 4 →
     exec (.mgmtFrameRx data good) s = .next (u.count .PRT_CTR 16 (if good then C.PRT_RX_OVERSIZE else C.PRT_RX_JABBER))) ∧
  (∀ (s : State) (data : Bytes) (good : Bool) (u : State), s.on F.PRT_MGMT_CFG_EN 0 = true → s.on F.PRT_MGMT_CFG_LINK_UP 0 = true → u = s.countRxAll 16 (data.length + 4) → 60 ≤ data.length → data.length + 4 ≤ u.rd F.PRT_MAC_CFG_MAX_FRAME 16 → good = false →
     exec (.mgmtFrameRx data good) s = .next (u.count .PRT_CTR 16 C.PRT_RX_FCS_ERR)) ∧
  (∀ (s : State) (data : Bytes) (u v : State), s.on F.PRT_MGMT_CFG_EN 0 = true → s.on F.PRT_MGMT_CFG_LINK_UP 0 = true →
     u = s.countRxAll 16 (data.length + 4) → 60 ≤ data.length → data.length + 4 ≤ u.rd F.PRT_MAC_CFG_MAX_FRAME 16 →
     v = u.countRxGood 16 data →
     (beAt data 12 2 = 0x8808 → exec (.mgmtFrameRx data true) s = .next (v.macControl 16 data)) ∧
     (beAt data 12 2 ≠ 0x8808 → v.on F.PRT_MGMT_CFG_NCSI_EN 0 = true → v.ncsi.takes data = true →
       exec (.mgmtFrameRx data true) s = .next (v.send (.ncsi data))) ∧
     (beAt data 12 2 ≠ 0x8808 → (v.on F.PRT_MGMT_CFG_NCSI_EN 0 && v.ncsi.takes data) = false →
       (∀ k : Nat, v.mgmtRing 2 = some k → exec (.mgmtFrameRx data true) s =
         .next (v.addPkt { stage := .rxDma k, data := data, fromWire := false, dstRing := k, func := v.manager, stamp := v.stamp * 2 ^ 13 })) ∧
       (v.mgmtRing 2 = none → exec (.mgmtFrameRx data true) s = .next (v.count .PRT_CTR 16 C.PRT_RX_DROP)))) ∧
  (∀ (s : State) (data : Bytes), s.on F.PRT_MGMT_CFG_EN 0 = true → s.on F.PRT_MGMT_CFG_NCSI_EN 0 = true → s.on F.PRT_MGMT_CFG_LINK_UP 0 = true → s.ncsi.enabled = true → s.ncsi.txEnabled = true →
     exec (.ncsiPassthroughFrame data) s = .next ((s.send (.mgmtFrame (data ++ fcsOf data))).countTx 16 data (data.length + 4))) ∧
  (∀ (s : State) (cmd : NcSiCmd), s.ncsi.ready = false → ncsiFirst cmd = false →
     exec (.ncsiCommand cmd) s = .next (s.send (.ncsiResponse 1 [1]))) ∧
  (∀ (s : State) (cmd : NcSiCmd) (n : NcSi), s.ncsi.ready = true ∨ ncsiFirst cmd = true → s.ncsi.set cmd = some n →
     exec (.ncsiCommand cmd) s = .next (({ s with ncsi := n } : State).send (.ncsiResponse 0 []))) ∧
  (∀ s : State, exec (.ncsiCommand .clearInitialState) s = .next (({ s with ncsi := { s.ncsi with ready := true } } : State).send (.ncsiResponse 0 []))) ∧
  (∀ s : State, exec (.ncsiCommand .selectPackage) s = .next (({ s with ncsi := { s.ncsi with selected := true } } : State).send (.ncsiResponse 0 []))) ∧
  (∀ s : State, exec (.ncsiCommand .deselectPackage) s = .next (({ s with ncsi := { s.ncsi with selected := false } } : State).send (.ncsiResponse 0 []))) ∧
  (∀ (s : State), s.ncsi.ready = true → exec (.ncsiCommand .enableChannel) s =
     .next (({ s with ncsi := { s.ncsi with enabled := true } } : State).send (.ncsiResponse 0 []))) ∧
  (∀ (s : State), s.ncsi.ready = true → exec (.ncsiCommand .disableChannel) s =
     .next (({ s with ncsi := { s.ncsi with enabled := false } } : State).send (.ncsiResponse 0 []))) ∧
  (∀ (s : State), s.ncsi.ready = true → exec (.ncsiCommand .resetChannel) s =
     .next (({ s with ncsi := { selected := s.ncsi.selected } } : State).send (.ncsiResponse 0 []))) ∧
  (∀ (s : State), s.ncsi.ready = true → exec (.ncsiCommand .enableTx) s =
     .next (({ s with ncsi := { s.ncsi with txEnabled := true } } : State).send (.ncsiResponse 0 []))) ∧
  (∀ (s : State), s.ncsi.ready = true → exec (.ncsiCommand .disableTx) s =
     .next (({ s with ncsi := { s.ncsi with txEnabled := false } } : State).send (.ncsiResponse 0 []))) ∧
  (∀ (s : State) (mac : Nat), s.ncsi.ready = true → exec (.ncsiCommand (.addFilter mac)) s =
     .next (({ s with ncsi := { s.ncsi with filters := s.ncsi.filters.filter (· != mac) ++ [mac] } } : State).send (.ncsiResponse 0 []))) ∧
  (∀ (s : State) (mac : Nat), s.ncsi.ready = true → exec (.ncsiCommand (.removeFilter mac)) s =
     .next (({ s with ncsi := { s.ncsi with filters := s.ncsi.filters.filter (· != mac) } } : State).send (.ncsiResponse 0 []))) ∧
  (∀ (s : State), s.ncsi.ready = true → exec (.ncsiCommand .clearFilters) s =
     .next (({ s with ncsi := { s.ncsi with filters := [] } } : State).send (.ncsiResponse 0 []))) ∧
  (∀ s : State, s.ncsi.ready = true →
     exec (.ncsiCommand .linkStatus) s = .next (s.send (.ncsiResponse 0 [s.rd F.PRT_MGMT_CFG_LINK_UP 0, s.rd F.PRT_MGMT_CFG_SPEED 0]))) ∧
  (∀ s : State, s.ncsi.ready = true →
     exec (.ncsiCommand .portLinks) s = .next (s.send (.ncsiResponse 0 ((List.range 16).map (fun n => s.rd F.PRT_STATUS_LINK_UP n))))) ∧
  (∀ (s : State) (n : Nat), s.ncsi.ready = true → s.on F.GLB_COUNTER_OWNER_OWNER 0 = true → exec (.ncsiCommand (.portTotals n)) s =
     .next (s.send (.ncsiResponse 0 (s.rd F.GLB_COUNTER_OWNER_OWNER 0 :: (List.range 56).map (fun k => s.val .PRT_TOTAL (64 * n + k)))))) ∧
  (∀ (s : State) (up : Nat), s.on F.PRT_MGMT_CFG_NCSI_EN 0 = true → s.ncsi.enabled = true → bit s.ncsi.aen 0 = true →
     s.mgmtLink up = (s.wr F.PRT_MGMT_CFG_LINK_UP 0 up).send (.ncsiAen 0 [up])) ∧
  (∀ (s : State) (speed : Nat), s.on F.PRT_MGMT_CFG_EN 0 = true → s.on F.PRT_MGMT_CFG_LINK_UP 0 = false →
     exec (.mgmtLinkUp speed) s = .next (((s.wr F.PRT_MGMT_CFG_SPEED 0 (if s.on F.PRT_MGMT_CFG_SGMII 0 then speed % 3 else 2)).mgmtLink 1).raise Ev.SVC_MGMT_LINK_UP)) ∧
  (∀ (s : State), s.on F.PRT_MGMT_CFG_LINK_UP 0 = true → exec .mgmtLinkDown s = .next ((s.mgmtLink 0).raise Ev.SVC_MGMT_LINK_DOWN))

/-- A received frame is parsed and goes on with its metadata; the lookup front end records what the source check found, or discards an excess frame; sweeps visit entries, start passes and follow AGE_EN; TBL_L2_RD_CMD shows an entry. -/
def Obligations.ParsingAndTables : Prop :=
  (∀ (s : State) (h : Nat) (p : Packet) (u : State) (r : Parse), s.pkt h = some p → p.stage = .received → s.hasParse h p = true →
     u = s.parseTaken p.pipe → u.parse (grdCopy p.epoch p.pipe) p.data p.fromWire = r → p.fromWire = true →
     exec (.grinderParse h) s = .next ((((u.count .GRD_CTR p.pipe C.GRD_PARSED).when (r.err != 0)
       (fun t => (t.count .GRD_CTR p.pipe (grdCounter r.err)).raiseLimited Ev.GRD_PARSE_LIMIT p.pipe 1000000)).setPkt h { p with fields := p.metadata h r }).moveTo h .parsed)) ∧
  (∀ (s : State) (h : Nat) (p : Packet) (u : State) (r : Parse), s.pkt h = some p → p.stage = .received → s.hasParse h p = true → p.fromWire = false →
     s.dispatchCredit p.pipe = true → u = s.parseTaken p.pipe → u.parse (grdCopy p.epoch p.pipe) p.data false = r → r.err = 0 →
     exec (.grinderParse h) s = .next (((u.count .GRD_CTR p.pipe C.GRD_PARSED).setPkt h { p with fields := p.metadata h r }).toDispatch h)) ∧
  (∀ (s : State) (p : _) (h : Nat), s.pkt h = some p → p.stage = .parsed → s.dispatchCredit p.pipe = true → (s.l2Source p.pipe p.port (srcMac p.data) (outerVid p.data) false).2.1 ≠ 4 →
     exec (.l2SourceCheck h) s = .next (((s.l2Source p.pipe p.port (srcMac p.data) (outerVid p.data) false).1.setPkt h { p with fields := p.fields.set 14 (2 ^ 61 * (s.l2Source p.pipe p.port (srcMac p.data) (outerVid p.data) false).2.1 + (s.l2Source p.pipe p.port (srcMac p.data) (outerVid p.data) false).2.2) }).toDispatch h)) ∧
  (∀ (s : State) (p : _) (h : Nat), s.pkt h = some p → p.stage = .parsed → s.dispatchCredit p.pipe = true → (s.l2Source p.pipe p.port (srcMac p.data) (outerVid p.data) false).2.1 = 4 →
     exec (.l2SourceCheck h) s = .next ((s.l2Source p.pipe p.port (srcMac p.data) (outerVid p.data) false).1.dropPkt h 6)) ∧
  (∀ (s : State) (pipe entry : Nat), pipe < 4 → s.visitDue pipe entry (s.l2.any (fun e => e.1 / 524288 == pipe && e.2.valid && !e.2.static &&
       decide ((s.sweeps.get pipe).next ≤ e.1 % 524288 ∧ e.1 % 524288 < entry))) = true →
     exec (.l2AgeVisit pipe entry) s = .next { s.l2Visit pipe entry with sweeps := (s.l2Visit pipe entry).sweeps.mod pipe (fun w => { w with next := entry + 1 }) }) ∧
  (∀ (s : State) (pipe : Nat), pipe < 4 → (s.sweeps.get pipe).running = true → (s.sweeps.get pipe).start + (s.sweeps.get pipe).ageS * 1000000000 ≤ s.now →
     exec (.l2AgePassStart pipe) s = .next (s.newPass pipe ((s.sweeps.get pipe).start + (s.sweeps.get pipe).ageS * 1000000000) (s.rd F.TBL_L2_CFG_AGE_S pipe))) ∧
  (∀ (s : State) (half : Nat), half < 2 → (s.sweeps.get (4 + half)).running = true → (s.sweeps.get (4 + half)).start + (s.sweeps.get (4 + half)).ageS * 1000000000 ≤ s.now →
     exec (.flowAgePassStart half) s = .next (s.newPass (4 + half) ((s.sweeps.get (4 + half)).start + (s.sweeps.get (4 + half)).ageS * 1000000000) (s.rd F.TBL_FLOW_CFG_AGE_S 0))) ∧
  (∀ (s : State) (half loc : Nat), half < 2 → s.visitDue (4 + half) loc (s.flow.any (fun e => e.1 / 33554432 == half && e.2.valid && !e.2.static &&
       decide ((s.sweeps.get (4 + half)).next ≤ e.1 % 33554432 ∧ e.1 % 33554432 < loc))) = true →
     exec (.flowAgeVisit half loc) s = .next { s.flowVisit half loc with sweeps := (s.flowVisit half loc).sweeps.mod (4 + half) (fun w => { w with next := loc + 1 }) }) ∧
  (∀ (s : State) (fn pipe v : Nat), s.managedBy fn → pipe < 4 →
     exec (.tblL2AgeEnWrite fn pipe v) s = .next ((((s.wr F.TBL_L2_CFG_AGE_EN pipe (bits v 31 31)).wrLegal F.TBL_L2_CFG_AGE_S pipe (bits v 19 0))).ageEn pipe (bit v 31) (((s.wr F.TBL_L2_CFG_AGE_EN pipe (bits v 31 31)).wrLegal F.TBL_L2_CFG_AGE_S pipe (bits v 19 0)).rd F.TBL_L2_CFG_AGE_S pipe))) ∧
  (∀ (s : State) (fn v : Nat), s.managedBy fn → bit (putBits v 31 31 1) 31 = true →
     exec (.l2ReadCmd fn v) s = .next (((s.wr F.TBL_L2_RD_CMD_PIPE 0 (bits (putBits v 31 31 1) 29 28)).wr F.TBL_L2_RD_CMD_INDEX 0 (bits (putBits v 31 31 1) 18 0)).each (List.range 4) (fun k t => t.put .TBL_L2_RD_DATA k (leAt (s.l2.get (l2Key (bits (putBits v 31 31 1) 29 28) (bits (putBits v 31 31 1) 18 0))).encode (4 * k) 4))))

/-- The dispatcher numbers the packet at its head and binds a thread to it, or drops one of a generation that an FLR ended; a verdict whose turn has come drops, ends or sends on its packet. -/
def Obligations.Dispatching : Prop :=
  (∀ (s : State) (pipe h t : Nat) (p : Packet), s.dispatchHead pipe = some h →
     s.noCluster pipe = false → s.pkt h = some p → s.nextThread pipe p.epoch = some t → s.isFenced (unitPipe pipe) 0 = false → p.fromWire = true →
     exec (.dispatch pipe) s = .next (((((((({ s with dispatchQ := s.dispatchQ.erase h, lastCluster := s.lastCluster.set pipe ((clusterOf t + 1) % 4) } : State).noteLoad pipe).retire
       (.dispatch pipe)).number h p).moveTo h (.thread t)).bind t h p)).count .BRW_CTR (clusterOf t) C.BRW_DISPATCHED)) ∧
  (∀ (s : State) (pipe h t : Nat) (p : Packet), s.dispatchHead pipe = some h →
     s.noCluster pipe = false → s.pkt h = some p → s.nextThread pipe p.epoch = some t → s.isFenced (unitPipe pipe) 0 = false → p.fromWire = false →
     p.gen ≠ s.rd F.HIF_FN_STATE_GEN p.func →
     exec (.dispatch pipe) s = .next (((((({ s with dispatchQ := s.dispatchQ.erase h, lastCluster := s.lastCluster.set pipe ((clusterOf t + 1) % 4) } : State).noteLoad pipe).retire
       (.dispatch pipe)).number h p).count .PIPE_CTR pipe C.PIPE_FLR_DROPS).toVerdict h (dropVerdict 0xFC))) ∧
  (∀ (s : State) (pipe h : Nat), s.dispatchHead pipe = some h → s.noCluster pipe = true →
     exec (.dispatch pipe) s = .next (((({ s with dispatchQ := s.dispatchQ.erase h } : State).retire (.dispatch pipe)).discard (unitPipe pipe) 1).dropPkt h 6)) ∧
  (∀ (s : State) (h : Nat) (p : Packet) (u : State), s.pkt h = some p → p.stage = .verdict → s.inOrder p = true → s.enqueueCredit p.pipe 1 = true →
     u = ({ s.retire (.verdict p.pipe) with order := (s.retire (.verdict p.pipe)).order.filter (fun o => !(o.1 == p.pipe && o.2.1 == p.seq)) } : State) →
     u.isFenced (unitPipe p.pipe) 0 = false → bit p.verdict.word 59 = false → p.doomed = false → p.verdict.action = 0 →
     exec (.reorderRelease h) s = .next
     (((u.count .PIPE_CTR p.pipe C.PIPE_VERDICTS).countDrop p.pipe (bits p.verdict.word 58 51)).dropPkt h 6).wake) ∧
  (∀ (s : State) (h : Nat) (p : Packet) (u : State), s.pkt h = some p → p.stage = .verdict → s.inOrder p = true → s.enqueueCredit p.pipe 1 = true →
     u = ({ s.retire (.verdict p.pipe) with order := (s.retire (.verdict p.pipe)).order.filter (fun o => !(o.1 == p.pipe && o.2.1 == p.seq)) } : State) →
     u.isFenced (unitPipe p.pipe) 0 = false → bit p.verdict.word 59 = false → p.doomed = false → 1 ≤ p.verdict.action → p.verdict.action ≤ 5 → p.taken = false →
     exec (.reorderRelease h) s = .next ((u.count .PIPE_CTR p.pipe C.PIPE_VERDICTS).moveTo h (if p.deferred.isEmpty && p.offload.isEmpty then .toTm else .deferred)).wake)

/-- RESUME, ABORT, FENCE_THREAD, FENCE_ENGINE and ESCALATE act as the table of decisions says on a target that may be named and are answered; limits end a packet; ALL_WAIT is reported; host accesses of microcode are answered; debug, JTAG and control-store repair commands act. -/
def Obligations.Supervision : Prop :=
  (∀ (s : State) (c : Nat) (m : ChanMsg) (d : Decision), s.chan.find? (fun m => m.dest == 0x0C01 && clusterOf m.src == c) = some m → m.type = 4 → bits (m.word 0) 63 60 = 0 →
     d = s.about m.decision → s.targetOk c 0 d.target = true →
     exec (.supResume c none) s = .next (((s.accepted m).resume d).reply m [0])) ∧
  (∀ (s : State) (c : Nat) (m : ChanMsg) (d : Decision), s.chan.find? (fun m => m.dest == 0x0C01 && clusterOf m.src == c) = some m → m.type = 4 → bits (m.word 0) 63 60 = 1 →
     d = s.about m.decision → s.targetOk c 1 d.target = true →
     exec (.supAbort c none) s = .next (((s.accepted m).abortThread d.target 0xFD).reply m [0])) ∧
  (∀ (s : State) (c : Nat) (m : ChanMsg) (d : Decision), s.chan.find? (fun m => m.dest == 0x0C01 && clusterOf m.src == c) = some m → m.type = 4 → bits (m.word 0) 63 60 = 2 →
     d = s.about m.decision → s.targetOk c 2 d.target = true →
     exec (.supFenceThread c none) s = .next (((s.accepted m).fenceThread d.target 4).reply m [0])) ∧
  (∀ (s : State) (c : Nat) (m : ChanMsg) (d : Decision), s.chan.find? (fun m => m.dest == 0x0C01 && clusterOf m.src == c) = some m → m.type = 4 → bits (m.word 0) 63 60 = 3 →
     d = s.about m.decision → d.target < 1024 → s.targetOk c 3 d.target = true →
     exec (.supFenceEngine c none) s = .next (((s.accepted m).fenceEngine (clusterOf d.target) (engineOf d.target) 4).reply m [0])) ∧
  (∀ (s : State) (c : Nat) (m : ChanMsg) (d : Decision), s.chan.find? (fun m => m.dest == 0x0C01 && clusterOf m.src == c) = some m → m.type = 4 → bits (m.word 0) 63 60 = 4 →
     d = s.about m.decision → s.targetOk c 4 d.target = true →
     exec (.supEscalate c) s = .next (((s.accepted m).decide_ 4 d).reply m [0])) ∧
  (∀ (s : State) (t : Nat), t < 2048 → (s.thread t).st = .parked → (s.thread t).escalated = false →
     (s.thread t).faultAt + s.rd F.BRW_SUP_TIMEOUT_US (clusterOf t) * 1000 ≤ s.now →
     exec (.supTimeout t) s = .next (((s.abortThread t 0xFD).toBarista (endpoint t) 0x10).raise (Ev.BRW_SUP_TIMEOUT (clusterOf t)))) ∧
  (∀ (s : State) (t : Nat), t < 2048 → (s.thread t).pkt.isSome = true → (s.thread t).st = .ready ∨ (s.thread t).st = .stalled ∨ (s.thread t).st = .waiting → s.heldLong t = true →
     exec (.runLimitExpire t) s = .next (s.fault t 0x0E 0 0)) ∧
  (∀ (s : State) (c e : Nat), c < 16 → e < 8 → (s.allWaiting c e false = true ∨ s.allWaiting c e true = true) →
     exec (.allWait c e) s = .next (
       let t0 := 64 * c + 8 * e
       let s := (s.count .BRW_CTR c C.BRW_ALL_WAIT).raise (Ev.BRW_ALL_WAIT c)
       let s := { s with clusters := s.clusters.mod c (fun x => { x with allWait := x.allWait.set e (s.now + 1) }) }
       if e = 0 then s.toBarista t0 0x0F
       else { s with chan := s.chan ++ [s.faultRecord t0 0x0F 0xFF 0] })) ∧
  (∀ (s : State) (fn t o : Nat) (w : Width) (v : Nat), s.managedBy fn →
     exec (.debugWindowWrite fn t o w v) s = .next (s.debugWrite t o w v)) ∧
  (∀ (s : State), exec .jtagClaim s = .next ((s.each (List.range 16) (fun c u => u.wr F.BRW_DBG_CTL_JTAG_OWNS c 1)).raise Ev.SVC_JTAG_CLAIM)) ∧
  (∀ (s : State), exec .jtagRelease s = .next ((s.each (List.range 16) (fun c u => u.wr F.BRW_DBG_CTL_JTAG_OWNS c 0)).raise Ev.SVC_JTAG_RELEASE)) ∧
  (∀ (s : State) (c bank a p0 p1 : Nat), s.csBad.get (csKey c bank a) = true → 0x6000 ≤ a →
     exec (.csEccRepair c bank a (p0, p1)) s = .next ((({ s with csBad := s.csBad.set (csKey c bank a) false } : State).countError .corrected).answerSup c)) ∧
  (∀ (s : State) (c bank a p0 p1 i j : Nat), s.csBad.get (csKey c bank a) = true → a < 0x6000 → s.repairEntry c 0 = some i → s.repairEntry c 1 = some j →
     s.patchFree c 0 p0 = true → s.patchFree c 1 p1 = true →
     exec (.csEccRepair c bank a (p0, p1)) s = .next
       ((((s.repairRom c 0 i a p0).repairRom c 1 j a p1).countError .corrected).answerSup c)) ∧
  (∀ (s : State) (c bank a p0 p1 : Nat), s.csBad.get (csKey c bank a) = true → a < 0x6000 → s.repairEntry c 0 = none →
     exec (.csEccRepair c bank a (p0, p1)) s = .next (s.fenceCluster c 4 .degraded)) ∧
  (∀ (s : State) (c : Nat) (m : ChanMsg) (reply : HostReply) (u : State), s.chan.find? (fun m => m.dest == 0x500 + c) = some m → m.type = 1 →
     u = (s.accepted m).posted m → u.mayDma (bits (m.word 0) 27 16) = true →
     0 < bits (m.word 0) 15 0 → bits (m.word 0) 15 0 ≤ 48 → bit (m.word 0) 28 = true → bit (m.word 0) 29 = false →
     reply ≠ .xlateFault →
     exec (.hostAccessRequest c reply) s = .next
       ((u.hostWrite (bits (m.word 0) 27 16) (m.word 1) none (((List.range 6).flatMap (fun k => leBytes 8 (m.word (2 + k)))).take (bits (m.word 0) 15 0))).reply m [0])) ∧
  (∀ (s : State) (c : Nat) (m : ChanMsg) (u : State), s.chan.find? (fun m => m.dest == 0x500 + c) = some m → m.type = 1 →
     (s.accepted m).mayDma (bits (m.word 0) 27 16) = false → u = (s.accepted m).posted m → u.mayDma (bits (m.word 0) 27 16) = false →
     exec (.hostAccessRequest c .xlateFault) s = .next (u.reply m [4])) ∧
  (∀ (s : State) (c : Nat) (m : ChanMsg) (u : State), s.chan.find? (fun m => m.dest == 0x500 + c) = some m → m.type = 1 →
     (s.accepted m).mayDma (bits (m.word 0) 27 16) = true → 0 < bits (m.word 0) 15 0 → bits (m.word 0) 15 0 ≤ 48 →
     u = (s.accepted m).hostFault m (bits (m.word 0) 27 16) (if bit (m.word 0) 29 then some (bits (m.word 0) 49 30) else none) (m.word 1) (bit (m.word 0) 28) →
     exec (.hostAccessRequest c .xlateFault) s = .next u)

/-- ADD, SUB, ADDC, SUBB, MINU, MAXU, MUL32, SEL, CMP and TST give the value the ALU table names, of srcA and the shaped srcB; with SF (CMP and TST always) Z, N, C and V follow R155, and no other flag changes. -/
def Obligations.AluArithmetic : Prop :=
  (∀ (s : State) (t : Nat) (f : AluArgs) (imm : Nat) (strict : Bool) (a b : Nat), s.aluRuns t 2 f → a = s.operand t imm 0 f.a → b = shapeB (s.operand t imm 1 f.b) f.shift →
     exec (.aluAdd t f imm strict) s = .next (s.aluEnds t 2 f ((a + b) % W64) (decide (W64 ≤ a + b)) (overflows (signed 64 a + signed 64 b)))) ∧
  (∀ (s : State) (t : Nat) (f : AluArgs) (imm : Nat) (strict : Bool) (a b : Nat), s.aluRuns t 3 f → a = s.operand t imm 0 f.a → b = shapeB (s.operand t imm 1 f.b) f.shift →
     exec (.aluSub t f imm strict) s = .next (s.aluEnds t 3 f ((a + W64 - b) % W64) (decide (b ≤ a)) (overflows (signed 64 a - signed 64 b)))) ∧
  (∀ (s : State) (t : Nat) (f : AluArgs) (imm : Nat) (strict : Bool) (a b : Nat), s.aluRuns t 11 f → a = s.operand t imm 0 f.a → b = shapeB (s.operand t imm 1 f.b) f.shift →
     exec (.aluMinu t f imm strict) s = .next (s.aluEnds t 11 f (min a b) false false)) ∧
  (∀ (s : State) (t : Nat) (f : AluArgs) (imm : Nat) (strict : Bool) (a b : Nat), s.aluRuns t 12 f → a = s.operand t imm 0 f.a → b = shapeB (s.operand t imm 1 f.b) f.shift →
     exec (.aluMaxu t f imm strict) s = .next (s.aluEnds t 12 f (max a b) false false)) ∧
  (∀ (s : State) (t : Nat) (f : AluArgs) (imm : Nat) (strict : Bool) (a b : Nat), s.aluRuns t 13 f → a = s.operand t imm 0 f.a → b = shapeB (s.operand t imm 1 f.b) f.shift →
     exec (.aluCmp t f imm strict) s = .next (s.aluTests t 13 f ((a + W64 - b) % W64) (decide (b ≤ a)) (overflows (signed 64 a - signed 64 b)))) ∧
  (∀ (s : State) (t : Nat) (f : AluArgs) (imm : Nat) (strict : Bool) (a b : Nat), s.aluRuns t 14 f → a = s.operand t imm 0 f.a → b = shapeB (s.operand t imm 1 f.b) f.shift →
     exec (.aluTst t f imm strict) s = .next (s.aluTests t 14 f (a &&& b) false false)) ∧
  (∀ (s : State) (t : Nat) (f : AluArgs) (imm : Nat) (strict : Bool) (a b c : Nat), s.aluRuns t 20 f → a = s.operand t imm 0 f.a → b = shapeB (s.operand t imm 1 f.b) f.shift → c = b2n (bit (s.thread t).flags 2) →
     exec (.aluAddc t f imm strict) s = .next (s.aluEnds t 20 f ((a + b + c) % W64) (decide (W64 ≤ a + b + c)) (overflows (signed 64 a + signed 64 b + c)))) ∧
  (∀ (s : State) (t : Nat) (f : AluArgs) (imm : Nat) (strict : Bool) (a b c : Nat), s.aluRuns t 21 f → a = s.operand t imm 0 f.a → b = shapeB (s.operand t imm 1 f.b) f.shift → c = b2n (bit (s.thread t).flags 2) →
     exec (.aluSubb t f imm strict) s = .next (s.aluEnds t 21 f ((a + 2 * W64 - b - (1 - c)) % W64) (decide (b ≤ a)) (overflows (signed 64 a - signed 64 b - (1 - c : Nat))))) ∧
  (∀ (s : State) (t : Nat) (f : AluArgs) (imm : Nat) (strict : Bool) (a b : Nat), s.aluRuns t 22 f → a = s.operand t imm 0 f.a → b = shapeB (s.operand t imm 1 f.b) f.shift →
     exec (.aluSel t f imm strict) s = .next (s.aluEnds t 22 f (if bit (s.thread t).flags 0 then a else b) false false)) ∧
  (∀ (s : State) (t : Nat) (f : AluArgs) (imm : Nat) (strict : Bool) (a b : Nat), s.aluRuns t 23 f → a = s.operand t imm 0 f.a → b = shapeB (s.operand t imm 1 f.b) f.shift →
     exec (.aluMul32 t f imm strict) s = .next (s.aluEnds t 23 f (a % 2 ^ 32 * (b % 2 ^ 32)) false false))

/-- MOV, AND, OR, XOR, ANDN, SHLV, SHRV, SARV, INS, POPC, CLZ, BSWAP and CRC give the value the ALU table names and, with SF, clear C and V. -/
def Obligations.AluBits : Prop :=
  (∀ (s : State) (t : Nat) (f : AluArgs) (imm : Nat) (strict : Bool) (b : Nat), s.aluRuns t 1 f → b = shapeB (s.operand t imm 1 f.b) f.shift →
     exec (.aluMov t f imm strict) s = .next (s.aluEnds t 1 f b false false)) ∧
  (∀ (s : State) (t : Nat) (f : AluArgs) (imm : Nat) (strict : Bool) (a b : Nat), s.aluRuns t 4 f → a = s.operand t imm 0 f.a → b = shapeB (s.operand t imm 1 f.b) f.shift →
     exec (.aluAnd t f imm strict) s = .next (s.aluEnds t 4 f (a &&& b) false false)) ∧
  (∀ (s : State) (t : Nat) (f : AluArgs) (imm : Nat) (strict : Bool) (a b : Nat), s.aluRuns t 5 f → a = s.operand t imm 0 f.a → b = shapeB (s.operand t imm 1 f.b) f.shift →
     exec (.aluOr t f imm strict) s = .next (s.aluEnds t 5 f (a ||| b) false false)) ∧
  (∀ (s : State) (t : Nat) (f : AluArgs) (imm : Nat) (strict : Bool) (a b : Nat), s.aluRuns t 6 f → a = s.operand t imm 0 f.a → b = shapeB (s.operand t imm 1 f.b) f.shift →
     exec (.aluXor t f imm strict) s = .next (s.aluEnds t 6 f (a ^^^ b) false false)) ∧
  (∀ (s : State) (t : Nat) (f : AluArgs) (imm : Nat) (strict : Bool) (a b : Nat), s.aluRuns t 7 f → a = s.operand t imm 0 f.a → b = shapeB (s.operand t imm 1 f.b) f.shift →
     exec (.aluAndn t f imm strict) s = .next (s.aluEnds t 7 f (a &&& (W64 - 1 - b)) false false)) ∧
  (∀ (s : State) (t : Nat) (f : AluArgs) (imm : Nat) (strict : Bool) (a b : Nat), s.aluRuns t 8 f → a = s.operand t imm 0 f.a → b = shapeB (s.operand t imm 1 f.b) f.shift →
     exec (.aluShlv t f imm strict) s = .next (s.aluEnds t 8 f (a * 2 ^ (b % 64) % W64) false false)) ∧
  (∀ (s : State) (t : Nat) (f : AluArgs) (imm : Nat) (strict : Bool) (a b : Nat), s.aluRuns t 9 f → a = s.operand t imm 0 f.a → b = shapeB (s.operand t imm 1 f.b) f.shift →
     exec (.aluShrv t f imm strict) s = .next (s.aluEnds t 9 f (a / 2 ^ (b % 64)) false false)) ∧
  (∀ (s : State) (t : Nat) (f : AluArgs) (imm : Nat) (strict : Bool) (a b : Nat), s.aluRuns t 10 f → a = s.operand t imm 0 f.a → b = shapeB (s.operand t imm 1 f.b) f.shift →
     exec (.aluSarv t f imm strict) s = .next (s.aluEnds t 10 f (unsigned 64 (signed 64 a / (2 ^ (b % 64) : Nat))) false false)) ∧
  (∀ (s : State) (t : Nat) (f : AluArgs) (imm : Nat) (strict : Bool) (a : Nat), s.aluRuns t 15 f → a = s.operand t imm 0 f.a →
     exec (.aluIns t f imm strict) s = .next (s.aluEnds t 15 f (insertField a (s.operand t imm 1 f.b) f.shift) false false)) ∧
  (∀ (s : State) (t : Nat) (f : AluArgs) (imm : Nat) (strict : Bool) (b : Nat), s.aluRuns t 16 f → b = shapeB (s.operand t imm 1 f.b) f.shift →
     exec (.aluPopc t f imm strict) s = .next (s.aluEnds t 16 f (popCount b 64) false false)) ∧
  (∀ (s : State) (t : Nat) (f : AluArgs) (imm : Nat) (strict : Bool) (b : Nat), s.aluRuns t 17 f → b = shapeB (s.operand t imm 1 f.b) f.shift →
     exec (.aluClz t f imm strict) s = .next (s.aluEnds t 17 f (leadingZeros b 64) false false)) ∧
  (∀ (s : State) (t : Nat) (f : AluArgs) (imm : Nat) (strict : Bool) (b : Nat), s.aluRuns t 18 f → b = shapeB (s.operand t imm 1 f.b) f.shift →
     exec (.aluBswap t f imm strict) s = .next (s.aluEnds t 18 f (fromBE (leBytes 8 b)) false false)) ∧
  (∀ (s : State) (t : Nat) (f : AluArgs) (imm : Nat) (strict : Bool) (a b : Nat), s.aluRuns t 19 f → a = s.operand t imm 0 f.a → b = shapeB (s.operand t imm 1 f.b) f.shift →
     exec (.aluCrc t f imm strict) s = .next (s.aluEnds t 19 f ((~~~ (crcRun (~~~ (BitVec.ofNat 32 a)) (beBytes 8 b))).toNat) false false))

/-- Within its region a load brings its bytes to a block, a store writes the bytes of one, FADD, SWAP, CAS and ADD act on 8 bytes; loads and returning atomics leave their destinations pending; a result arrives, with 0 and a fault for bad data. -/
def Obligations.MemoryParts : Prop :=
  (∀ (s u : State) (t : Nat) (f : MemArgs) (strict : Bool), s.memRuns t 1 f → u = s.made t →
     exec (.memLd t f strict) s = .next (u.awaits t (block f.reg (memWords f.size)) (u.memLoad t f) (u.memBad t f))) ∧
  (∀ (s u : State) (t : Nat) (f : MemArgs) (strict : Bool), s.memRuns t 2 f → u = s.made t →
     exec (.memSt t f strict) s = .next (u.memStore t f.space (u.memAddr t f) (((List.range (memWords f.size)).flatMap (fun k => leBytes 8 (u.operand t f.imm 5 (f.reg + k)))).take f.size))) ∧
  (∀ (s u : State) (t : Nat) (f : MemArgs) (strict : Bool), s.memRuns t 3 f → u = s.made t →
     exec (.memFadd t f strict) s = .next ((u.memStore t f.space (u.memAddr t f) (leBytes 8 ((fromLE (u.memBytes t f.space (u.memAddr t f) 8) + u.operand t f.imm 5 f.reg) % W64))).awaits t [f.reg] [fromLE (u.memBytes t f.space (u.memAddr t f) 8)] (u.memBad t f))) ∧
  (∀ (s u : State) (t : Nat) (f : MemArgs) (strict : Bool), s.memRuns t 4 f → u = s.made t →
     exec (.memSwap t f strict) s = .next ((u.memStore t f.space (u.memAddr t f) (leBytes 8 (u.operand t f.imm 5 f.reg))).awaits t [f.reg] [fromLE (u.memBytes t f.space (u.memAddr t f) 8)] (u.memBad t f))) ∧
  (∀ (s u : State) (t : Nat) (f : MemArgs) (strict : Bool), s.memRuns t 5 f → u = s.made t →
     exec (.memCas t f strict) s = .next ((u.when (decide (fromLE (u.memBytes t f.space (u.memAddr t f) 8) = u.operand t f.imm 5 f.reg)) (fun v => v.memStore t f.space (u.memAddr t f) (leBytes 8 (u.operand t f.imm 5 (f.reg + 1))))).awaits t [f.reg] [fromLE (u.memBytes t f.space (u.memAddr t f) 8)] (u.memBad t f))) ∧
  (∀ (s u : State) (t : Nat) (f : MemArgs) (strict : Bool), s.memRuns t 6 f → u = s.made t →
     exec (.memAdd t f strict) s = .next (u.memStore t f.space (u.memAddr t f) (leBytes 8 ((fromLE (u.memBytes t f.space (u.memAddr t f) 8) + u.operand t f.imm 5 f.reg) % W64)))) ∧
  (∀ (s : State) (p : Pending) (t : Nat), (s.thread t).pend.find? (fun p => !p.table) = some p → p.bad = false →
     exec (.memResultArrive t false) s = .next (s.modThread t (fun th => th.deliver p p.values)).wake) ∧
  (∀ (s : State) (p : Pending) (t : Nat) (bad : Bool), (s.thread t).pend.find? (fun p => !p.table) = some p → (bad || p.bad) = true →
     exec (.memResultArrive t bad) s = .next ((s.modThread t (fun th => th.deliver p (p.dests.map (fun _ => 0)))).wake.faultLater t 0x0C 0))

/-- LOOKUP, INSERT, DELETE and LEARN act on a table that serves them, with the key of their registers, and leave their result pending; it arrives with the status. -/
def Obligations.TableParts : Prop :=
  (∀ (s u : State) (t : Nat) (f : TblArgs) (strict : Bool) (key : List Nat), s.tblRuns t 1 f → u = s.made t → key = (block f.key (tblKeyLen 1 f.table)).map (fun o => (u.thread t).ops.get o) →
     exec (.tblLookup t f strict) s = .next ((u.lookup f.table (clusterOf t / 4) key).1.awaitsTable t 1 f key (u.lookup f.table (clusterOf t / 4) key).2 u.now)) ∧
  (∀ (s u : State) (t : Nat) (f : TblArgs) (strict : Bool) (key : List Nat), s.tblRuns t 2 f → u = s.made t → key = (block f.key (tblKeyLen 2 f.table)).map (fun o => (u.thread t).ops.get o) →
     exec (.tblInsert t f strict) s = .next ((u.flowInsert ((key.take 8).flatMap (fun (w : Nat) => leBytes 8 w)) ((key.drop 8).flatMap (fun (w : Nat) => leBytes 8 w)) (bit f.flags 1) false (bit f.flags 0)).1.awaitsTable t 2 f key [(u.flowInsert ((key.take 8).flatMap (fun (w : Nat) => leBytes 8 w)) ((key.drop 8).flatMap (fun (w : Nat) => leBytes 8 w)) (bit f.flags 1) false (bit f.flags 0)).2.1 * 2 ^ 61] u.now)) ∧
  (∀ (s u : State) (t : Nat) (f : TblArgs) (strict : Bool) (key : List Nat), s.tblRuns t 3 f → u = s.made t → key = (block f.key (tblKeyLen 3 f.table)).map (fun o => (u.thread t).ops.get o) →
     exec (.tblDelete t f strict) s = .next ((u.flowDelete (key.flatMap (fun (w : Nat) => leBytes 8 w))).1.awaitsTable t 3 f key [(u.flowDelete (key.flatMap (fun (w : Nat) => leBytes 8 w))).2 * 2 ^ 61] u.now)) ∧
  (∀ (s u : State) (t : Nat) (f : TblArgs) (strict : Bool) (key : List Nat), s.tblRuns t 4 f → u = s.made t → key = (block f.key (tblKeyLen 4 f.table)).map (fun o => (u.thread t).ops.get o) →
     exec (.tblLearn t f strict) s = .next ((u.learnStatus t (key.getD 0 0 % 2 ^ 48) (bits (key.getD 1 0) 23 0) (bit (key.getD 1 0) 24)).1.awaitsTable t 4 f key [(u.learnStatus t (key.getD 0 0 % 2 ^ 48) (bits (key.getD 1 0) 23 0) (bit (key.getD 1 0) 24)).2] u.now)) ∧
  (∀ (s : State) (p : Pending) (t : Nat), (s.thread t).pend.find? (fun p => p.table) = some p →
     exec (.tblResultArrive t false) s = .next ((s.retire (.lookup (clusterOf t))).modThread t (fun th => th.deliver p p.values)).wake) ∧
  (∀ (s : State) (p : Pending) (t : Nat), (s.thread t).pend.find? (fun p => p.table) = some p →
     exec (.tblResultArrive t true) s = .next (((s.tableError p.tableNo (clusterOf t / 4) p.key).1.retire (.lookup (clusterOf t))).modThread t
       (fun th => th.deliver p (s.tableError p.tableNo (clusterOf t / 4) p.key).2)).wake)

/-- A staged message to an endpoint that may be named and has a credit is posted with SRC, EPOCH and GEN filled in; a message in flight enters its inbox while there is room; INBOX_POP, SIGNAL and EVENT_CLR act; a FENCE is answered; a TIMER that device time has reached sets its event. -/
def Obligations.Channels : Prop :=
  (∀ (s : State) (t : Nat), s.canIssue t = true → s.stale (s.thread t) = false → (s.thread t).postBad t = false → s.chanCredit t (bits (s.thread t).stageHdr 63 48) = true →
     exec (.channelPost t) s = .next ((s.made t).postMsg t ((s.thread t).before_ 0 []))) ∧
  (∀ (s : State) (t : Nat), s.canIssue t = true → s.stale (s.thread t) = false → (s.thread t).postBad t = true →
     exec (.channelPost t) s = .next (s.fault t 0x07 0 0)) ∧
  (∀ (s : State) (m : _) (t : Nat), s.chan.find? (fun m => decide (m.dest ≤ 0x3FF) && s.receiver m == t && (m.type == 3 || decide ((s.thread t).load < 4))) = some m →
     exec (.inboxMessageArrive t) s = .next ((s.accepted m).modThread t (fun th => { th with inbox := th.inbox ++ [m] }))) ∧
  (∀ (s : State) (t : Nat), s.canIssue t = true → exec (.inboxPop t) s = .next (s.popInbox t).wake) ∧
  (∀ (s : State) (t v : Nat), s.canIssue t = true → exec (.signal t v) s = .next (s.signalOp t v)) ∧
  (∀ (s : State) (t v : Nat), s.canIssue t = true → exec (.eventClr t v) s = .next (s.eventClr t v)) ∧
  (∀ (s : State) (m : _) (c : Nat), s.chan.find? (fun m => m.dest == 0xC00 && clusterOf m.src == c) = some m →
     exec (.fenceMessage c) s = .next ((s.accepted m).reply m [0])) ∧
  (∀ (s : State) (t : Nat), t < 2048 → (s.thread t).ops.get 93 ≠ 0 → (s.thread t).timerDone = false → (s.stamp + W64 - (s.thread t).ops.get 93) % W64 < 2 ^ 63 →
     exec (.threadTimerFire t) s = .next ((s.modThread t (fun x => { x with timerDone := true })).latch t 2))

/-- A word that may issue (its operands ready, no breakpoint, no CHKE, STRICT or POST) completes under each SEQ operation: CALL with a depth below 8, RET with one above 0, WAIT when an event of its mask is up, DONE when nothing is pending and the packet is not stale. -/
def Obligations.SequencerSteps : Prop :=
  (∀ (s u : State) (t w pc : Nat) (x : WordIo), s.wordIssues t 0 w pc → x.csBad = false → x.regBad = false → u = s.atWord t w pc x → 
     exec (.seqInc ⟨t, x⟩) s = .next (u.completeWord t w pc)) ∧
  (∀ (s u : State) (t w pc : Nat) (x : WordIo), s.wordIssues t 1 w pc → x.csBad = false → x.regBad = false → u = s.atWord t w pc x → 
     exec (.seqJump ⟨t, x⟩) s = .next (u.completeWord t w pc)) ∧
  (∀ (s u : State) (t w pc : Nat) (x : WordIo), s.wordIssues t 2 w pc → x.csBad = false → x.regBad = false → u = s.atWord t w pc x → 
     exec (.seqBr ⟨t, x⟩) s = .next (u.completeWord t w pc)) ∧
  (∀ (s u : State) (t w pc : Nat) (x : WordIo), s.wordIssues t 3 w pc → x.csBad = false → x.regBad = false → u = s.atWord t w pc x → 
     exec (.seqBrn ⟨t, x⟩) s = .next (u.completeWord t w pc)) ∧
  (∀ (s u : State) (t w pc : Nat) (x : WordIo), s.wordIssues t 4 w pc → x.csBad = false → x.regBad = false → u = s.atWord t w pc x → (s.thread t).stack.length < 8 → 
     exec (.seqCall ⟨t, x⟩) s = .next (u.completeWord t w pc)) ∧
  (∀ (s u : State) (t w pc : Nat) (x : WordIo), s.wordIssues t 5 w pc → x.csBad = false → x.regBad = false → u = s.atWord t w pc x → (s.thread t).stack ≠ [] → 
     exec (.seqRet ⟨t, x⟩) s = .next (u.completeWord t w pc)) ∧
  (∀ (s u : State) (t w pc : Nat) (x : WordIo), s.wordIssues t 6 w pc → x.csBad = false → x.regBad = false → u = s.atWord t w pc x → 
     exec (.seqDisp16 ⟨t, x⟩) s = .next (u.completeWord t w pc)) ∧
  (∀ (s u : State) (t w pc : Nat) (x : WordIo), s.wordIssues t 7 w pc → x.csBad = false → x.regBad = false → u = s.atWord t w pc x → (s.thread t).eventBits &&& wTarget w ≠ 0 → u.supMoves t = false → 
     exec (.seqWait ⟨t, x⟩) s = .next (u.completeWord t w pc)) ∧
  (∀ (s v u : State) (t w pc : Nat) (x : WordIo), v = s.when x.cellBad (fun a => a.damage t) → v.wordIssues t 8 w pc → x.csBad = false → x.regBad = false →
     u = v.atWord t w pc x → u.doneWaits t = false → u.stale (u.thread t) = false →
     exec (.seqDone ⟨t, x⟩) s = .next (u.completeWord t w pc)) ∧
  (∀ (s u : State) (t w pc : Nat) (x : WordIo), s.wordIssues t 9 w pc → x.csBad = false → x.regBad = false → u = s.atWord t w pc x → 
     exec (.seqFault ⟨t, x⟩) s = .next (u.completeWord t w pc))

/-- After a completed word a thread is READY and goes on at the next address for INC and WAIT, at TARGET for JUMP and CALL, at TARGET or the next address as the condition says for BR and BRN, at the top of its call stack for RET, at TARGET plus four bits of an operand for DISP16; CALL pushes the next address. -/
def Obligations.SequencerAddresses : Prop :=
  (∀ (s u : State) (t w pc : Nat) (x : WordIo), s.wordIssues t 0 w pc → x.csBad = false → x.regBad = false → u = s.atWord t w pc x → (s.thread t).stepping = false → 
     ∃ v, exec (.seqInc ⟨t, x⟩) s = .next v ∧ (v.thread t).st = .ready ∧ (v.thread t).pc = (pc + 1) % 65536) ∧
  (∀ (s u : State) (t w pc : Nat) (x : WordIo), s.wordIssues t 1 w pc → x.csBad = false → x.regBad = false → u = s.atWord t w pc x → (s.thread t).stepping = false → 
     ∃ v, exec (.seqJump ⟨t, x⟩) s = .next v ∧ (v.thread t).st = .ready ∧ (v.thread t).pc = wTarget w) ∧
  (∀ (s u : State) (t w pc : Nat) (x : WordIo), s.wordIssues t 2 w pc → x.csBad = false → x.regBad = false → u = s.atWord t w pc x → (s.thread t).stepping = false → condReserved (wCond w) = false → 
     ∃ v, exec (.seqBr ⟨t, x⟩) s = .next v ∧ (v.thread t).st = .ready ∧ (v.thread t).pc = (if u.condTrue t (wCond w) then wTarget w else (pc + 1) % 65536)) ∧
  (∀ (s u : State) (t w pc : Nat) (x : WordIo), s.wordIssues t 3 w pc → x.csBad = false → x.regBad = false → u = s.atWord t w pc x → (s.thread t).stepping = false → condReserved (wCond w) = false → 
     ∃ v, exec (.seqBrn ⟨t, x⟩) s = .next v ∧ (v.thread t).st = .ready ∧ (v.thread t).pc = (if u.condTrue t (wCond w) then (pc + 1) % 65536 else wTarget w)) ∧
  (∀ (s u : State) (t w pc : Nat) (x : WordIo), s.wordIssues t 4 w pc → x.csBad = false → x.regBad = false → u = s.atWord t w pc x → (s.thread t).stepping = false → (s.thread t).stack.length < 8 → 
     ∃ v, exec (.seqCall ⟨t, x⟩) s = .next v ∧ (v.thread t).st = .ready ∧ (v.thread t).pc = wTarget w ∧ (v.thread t).stack.head? = some ((pc + 1) % 65536)) ∧
  (∀ (s u : State) (t w pc : Nat) (x : WordIo), s.wordIssues t 5 w pc → x.csBad = false → x.regBad = false → u = s.atWord t w pc x → (s.thread t).stepping = false → (s.thread t).stack ≠ [] → 
     ∃ v, exec (.seqRet ⟨t, x⟩) s = .next v ∧ (v.thread t).st = .ready ∧ (v.thread t).pc = (s.thread t).stack.headD 0) ∧
  (∀ (s u : State) (t w pc : Nat) (x : WordIo), s.wordIssues t 6 w pc → x.csBad = false → x.regBad = false → u = s.atWord t w pc x → (s.thread t).stepping = false → wDispPos w ≤ 60 → 
     ∃ v, exec (.seqDisp16 ⟨t, x⟩) s = .next v ∧ (v.thread t).st = .ready ∧ (v.thread t).pc = (wTarget w + bits (u.operand t (wImm w) 4 (wDispOp w)) (wDispPos w + 3) (wDispPos w)) % 65536) ∧
  (∀ (s u : State) (t w pc : Nat) (x : WordIo), s.wordIssues t 7 w pc → x.csBad = false → x.regBad = false → u = s.atWord t w pc x → (s.thread t).stepping = false → (s.thread t).eventBits &&& wTarget w ≠ 0 → u.supMoves t = false → 
     ∃ v, exec (.seqWait ⟨t, x⟩) s = .next v ∧ (v.thread t).st = .ready ∧ (v.thread t).pc = (pc + 1) % 65536)

/-- A received frame that no member names passes the FRER unit, as one whose context is unused; a member's frame without a tag, or with a sequence number, is decided under its context and the member is marked seen, after those that came with it from lower-numbered ports; a context is reset when no frame has passed for RESET_MS; POP removes the head of the mismatch log. -/
def Obligations.Redundancy : Prop :=
  (∀ (s : State) (port : Nat) (f : Bytes), s.memberFor false port f = none → s.prpPort port = false → s.frerIdentify port f = (s, .received, none)) ∧
  (∀ (s : State) (port m : Nat) (f : Bytes), s.memberFor false port f = some m → s.frerIdentify port f = (s, .frer, some (m, s.members.get m))) ∧
  (∀ (s : State) (h : Nat) (p : Packet), s.pkt h = some p → p.stage = .frer → s.frerBefore p = [] → (s.ctx p.memberCtx).kind = 0 →
     exec (.frerRxDecision h) s = .next ((s.memberSeen ((p.member.map (·.1)).getD 0) (shortOf p.stamp)).setPkt h { p with stage := .received, since := s.now })) ∧
  (∀ (s u : State) (h c seq : Nat) (p : Packet), s.pkt h = some p → p.stage = .frer → s.frerBefore p = [] →
     c = p.memberCtx → u = s.memberSeen ((p.member.map (·.1)).getD 0) (shortOf p.stamp) → (s.ctx c).kind = 2 → u.isFenced (unitObject 6) c = false →
     (rTag p.data).map (·.2) = some seq → exec (.frerRxDecision h) s = .next (u.frerSeq h c seq p)) ∧
  (∀ (s u : State) (h c : Nat) (p : Packet), s.pkt h = some p → p.stage = .frer → s.frerBefore p = [] →
     c = p.memberCtx → u = s.memberSeen ((p.member.map (·.1)).getD 0) (shortOf p.stamp) → (s.ctx c).kind = 2 → u.isFenced (unitObject 6) c = false →
     rTag p.data = none → exec (.frerRxDecision h) s = .next (u.frerTagless h c p)) ∧
  (∀ (s : State) (h k : Nat) (p q : Packet), s.pkt h = some p → p.stage = .frer → s.frerBefore p = [(k, q)] →
     exec (.frerRxDecision h) s = .next ((s.frerDecide k q).frerDecide h p)) ∧
  (∀ (s : State) (c t : Nat), (s.ctx c).passedAt = some t → (s.ctx c).kind = 2 ∨ (s.ctx c).kind = 3 → t + (s.ctx c).resetMs * 1000000 ≤ s.now →
     exec (.frerRecoveryTimeout c) s = .next ((s.modCtx c FrerCtx.reset).raise Ev.FRER_RESET)) ∧
  (∀ (s : State) (fn v : Nat), s.managedBy fn → bit v 31 = true →
     exec (.frerMmPop fn v) s = .next ({ s with mmLog := s.mmLog.drop 1 } : State).mmSync)

/-- A frame of a group's source goes to its queue when no destination entry matches, is dropped when it exceeds its bucket, and is held otherwise; at most four due heads are released in a cycle; a spilled frame returns or is dropped with a bad cell check; a floor lapses; REL_DEVICE and REL_CFG are written when no group forbids it and else logged. -/
def Obligations.ReleaseUnit : Prop :=
  (∀ (s : State) (h g k : Nat) (p : Packet), s.pkt h = some p → p.stage = .toRelease → s.sourceGroup p = some (g, k) →
     s.destEntry ((s.groupsFor p.epoch).get g) p = none →
     exec (.relEnqueue h) s = .next ((s.count .REL_CTR 0 C.REL_PASSED).enterQueue h p.queue)) ∧
  (∀ (s : State) (h g k e : Nat) (p : Packet), s.pkt h = some p → p.stage = .toRelease → s.sourceGroup p = some (g, k) →
     s.destEntry ((s.groupsFor p.epoch).get g) p = some e → s.police g k (((s.groupsFor p.epoch).get g).src.getD k 0) p.data.length = none →
     exec (.relEnqueue h) s = .next (((s.count .REL_CTR 0 C.REL_OVER_RATE_DROP).raiseMs Ev.REL_OVER_RATE).dropPkt h 7)) ∧
  (∀ (s u : State) (h g k e : Nat) (p : Packet), s.pkt h = some p → p.stage = .toRelease → s.sourceGroup p = some (g, k) →
     s.destEntry ((s.groupsFor p.epoch).get g) p = some e → s.police g k (((s.groupsFor p.epoch).get g).src.getD k 0) p.data.length = some u →
     exec (.relEnqueue h) s = .next (u.holdFrame h g p)) ∧
  (∀ (s u : State), u = s.returnDue.spill s.returnDue.pkts.length → u.dueHead = none → exec .relRelease s = .next u) ∧
  (∀ (s u : State) (h g : Nat) (p : Packet), u = s.returnDue.spill s.returnDue.pkts.length → u.dueHead = some (h, p, g) → (u.releaseNow h g).dueHead = none →
     exec .relRelease s = .next (u.releaseNow h g)) ∧
  (∀ (s : State) (h g : Nat) (p : Packet), s.pkt h = some p → p.stage = .held g → p.spilled = true →
     exec (.relSpillReturn h true) s = .next ((((s.count .REL_CTR 0 C.REL_SPILL_ERR).raise Ev.REL_SPILL_ERROR).dropPkt h 7).relSync g)) ∧
  (∀ (s u : State) (h g : Nat) (p : Packet), s.pkt h = some p → p.stage = .held g → p.spilled = true → u = s.setPkt h { p with spilled := false } →
     exec (.relSpillReturn h false) s = .next ((u.spill u.pkts.length).relSync g)) ∧
  (∀ (s : State) (g f : Nat), s.mir.floors.getD g none = some f → stampLe s.stamp ((f + 8 * (s.groupsOper.get g).delay) % W64) = false →
     exec (.mirFloorLapse g) s = .next { s with mir := { s.mir with floors := s.mir.floors.setD g none none } }) ∧
  (∀ (s : State) (fn v old new : Nat), s.managedBy fn → s.groupEnabled = false → old = s.val .REL_DEVICE 0 → new = putBits (putBits 0 11 0 v) 31 31 (v / 2 ^ 31) →
     exec (.relDeviceWrite fn v) s = .next ((s.put .REL_DEVICE 0 new).journalCfg 0x06 1
       (leBytes 2 (bits old 11 0 + 2 ^ 15 * bits old 31 31) ++ leBytes 2 (bits new 11 0 + 2 ^ 15 * bits new 31 31)))) ∧
  (∀ (s : State) (fn v : Nat), s.managedBy fn → s.groupEnabled = true →
     exec (.relDeviceWrite fn v) s = .next (s.logFwWrite 0x07000000 v)) ∧
  (∀ (s : State) (fn v mib : Nat) (spill : Bool), s.managedBy fn → spill = (bit v 31 && s.on F.HBM_REGION_EN 5) →
     mib = (if 4 ≤ bits v 6 0 ∧ bits v 6 0 ≤ 64 then bits v 6 0 else s.rd F.REL_CFG_CARAFE_MIB 0) → s.val .REL_ADMITTED 0 ≤ s.capacityOf spill mib →
     exec (.relCfgWrite fn v) s = .next (((s.wr F.REL_CFG_SPILL_EN 0 (b2n spill)).wr F.REL_CFG_CARAFE_MIB 0 mib).put .REL_CAPACITY 0 (s.capacityOf spill mib))) ∧
  (∀ (s : State) (fn v : Nat), s.managedBy fn → s.capacityOf (bit v 31 && s.on F.HBM_REGION_EN 5)
       (if 4 ≤ bits v 6 0 ∧ bits v 6 0 ≤ 64 then bits v 6 0 else s.rd F.REL_CFG_CARAFE_MIB 0) < s.val .REL_ADMITTED 0 →
     exec (.relCfgWrite fn v) s = .next (s.logFwWrite 0x07000004 v))

/-- A PORT verdict goes to the port's queue, a HOST verdict to an open ring of its function and else away, a QUEUE verdict to the queue it names, a MCAST verdict to its members, a MANAGER verdict to the manager's ring. -/
def Obligations.Enqueueing : Prop :=
  (∀ (s u : State) (h q : Nat) (p : Packet), s.pkt h = some p → p.stage = .toTm → s.coreStopped = false → u = s.retire (.enqueue p.pipe) → p.verdict.action = 1 → p.fromWire = true →
     q = u.portQueue p (bits p.verdict.word2 3 0) →
     exec (.tmEnqueue h) s = .next (u.toQueue h q 0)) ∧
  (∀ (s u : State) (h k : Nat) (p : Packet), s.pkt h = some p → p.stage = .toTm → s.coreStopped = false → u = s.retire (.enqueue p.pipe) → p.verdict.action = 2 →
     u.hostRing (bits p.verdict.word2 16 0) (bits p.verdict.word2 28 17) = some k →
     exec (.tmEnqueue h) s = .next (u.toQueue h (u.ring k).schedQ k)) ∧
  (∀ (s u : State) (h : Nat) (p : Packet), s.pkt h = some p → p.stage = .toTm → s.coreStopped = false → u = s.retire (.enqueue p.pipe) → p.verdict.action = 2 →
     u.hostRing (bits p.verdict.word2 16 0) (bits p.verdict.word2 28 17) = none →
     exec (.tmEnqueue h) s = .next ((u.discard 0xF004 1).dropPkt h 7)) ∧
  (∀ (s u : State) (h q : Nat) (p : Packet), s.pkt h = some p → p.stage = .toTm → s.coreStopped = false → u = s.retire (.enqueue p.pipe) → p.verdict.action = 3 → q = bits p.verdict.word2 15 0 →
     exec (.tmEnqueue h) s = .next (u.toQueue h q 0)) ∧
  (∀ (s u : State) (h : Nat) (p : Packet), s.pkt h = some p → p.stage = .toTm → s.coreStopped = false → u = s.retire (.enqueue p.pipe) → p.verdict.action = 4 →
     exec (.tmEnqueue h) s = .next (u.multicast h p (bits p.verdict.word2 15 0))) ∧
  (∀ (s u : State) (h k : Nat) (p : Packet), s.pkt h = some p → p.stage = .toTm → s.coreStopped = false → u = s.retire (.enqueue p.pipe) → p.verdict.action = 5 → u.managerRing = some k →
     exec (.tmEnqueue h) s = .next (u.toQueue h (u.ring k).schedQ k))

/-- A slice drops what can never start and then chooses by priority and deficit; a launch-time frame that its MAC holds starts when its time has come and its port may send; gates and gate lists change at their times; node windows, TM_OBS_CFG, samples, delay alarms and queue reloads act as their rules say. -/
def Obligations.Scheduling : Prop :=
  (∀ (s : State) (slice port : Nat), slice < 4 → port < 20 → nodeHalf 0 port = slice / 2 → s.isFenced (unitSlice slice) 0 = false → s.coreStopped = false →
     exec (.tmSchedule slice port) s = .next (s.schedule slice port)) ∧
  (∀ (s : State) (q h l port : Nat) (p : Packet) (x : TxIo), port = s.queuePort q → port < 16 →
     s.pkts.filter (fun e => e.2.stage == .txCell port && e.2.queue == q) = [(h, p)] → p.launch = some l → (s.node 3 q).ltEn = true →
     s.mayLeave port p = true → s.onWire port = none → s.on F.PRT_STATUS_LINK_UP port = true → s.isFenced (unitPort port) 0 = false →
     s.preemptable port (s.node 3 q).tc = false ∨ s.txNow.getD (2 * port + 1) none = none →
     exec (.launchTimeStart ⟨q, x⟩) s = .next (s.startTx port h p x)) ∧
  (∀ (s : State) (port : Nat), port < 16 → exec (.gateChange port) s = .next
     (((s.wr F.GCL_STATUS_GATES port ((s.operList port).at_ s.time.ticks).2).wr F.GCL_STATUS_ENTRY port ((s.operList port).at_ s.time.ticks).1).loseDeficits port)) ∧
  (∀ (s : State) (port : Nat) (g : GateList), s.gclPending.getD port none = some g → stampLe (s.val .GCL_CHANGE_TIME port) s.stamp = true →
     exec (.gclChangeTime port) s = .next (((((({ s with gclPending := s.gclPending.setD port none none } : State).setOper port g).wr F.GCL_STATUS_PENDING port 0).gateSync port).loseDeficits port).raise
       (Ev.TM_GCL_CHANGED (port / 8)))) ∧
  (∀ (s u : State) (fn v : Nat), s.managedBy fn → bit v 31 = true →
     u = ((s.wr F.TM_NODE_CMD_WRITE 0 (bits v 30 30)).wr F.TM_NODE_CMD_LEVEL 0 (bits v 29 28)).wr F.TM_NODE_CMD_INDEX 0 (bits v 16 0) →
     bits v 16 0 < nodeCount (bits v 29 28) → bit v 30 = true → u.nodeRefused (bits v 29 28) (bits v 16 0) u.windowBytes = false →
     exec (.tmNodeAccess fn v) s = .next ((u.writeNode (bits v 29 28) (bits v 16 0) u.windowBytes).wr F.TM_NODE_CMD_RESULT 0 0)) ∧
  (∀ (s : State) (q : Nat), isDefaultQueue q = true → s.isFenced (unitObject 5) q = true → (s.node 3 q).frames = [] →
     exec (.tmQueueReload q) s = .next (s.unfence (unitObject 5) q)) ∧
  (∀ (s t : State) (fn v : Nat), s.managedBy fn → (bit v 31 = true ∨ s.rd F.TM_OBS_QUEUES_ENABLED 0 ≤ 8192) →
     t = ((s.wr F.TM_OBS_CFG_MODE 0 (bits v 31 31)).wrLegal F.TM_OBS_CFG_DEPTH_SHIFT 0 (bits v 12 8)).wrLegal F.TM_OBS_CFG_DELAY_SHIFT 0 (bits v 4 0) →
     exec (.tmObsCfgWrite fn v) s = .next (if t.val .TM_OBS_CFG 0 = s.val .TM_OBS_CFG 0 then t else t.clearObs)) ∧
  (∀ (s : State), s.on F.TM_OBS_CFG_MODE 0 = false → s.obs.at_ ≠ some (s.time.ticks / 8000) →
     exec .tmObsSample s = .next (({ s with obs := { s.obs with at_ := some (s.time.ticks / 8000) } } : State).each ((s.nodes.filter (fun e => e.1 / 131072 == 3 && e.2.en)).map (fun e => e.1 % 131072)) (fun q t => t.sampleQueue q))) ∧
  (∀ (s : State) (q : Nat), q < 65536 → (s.node 3 q).alarmUs ≠ 0 → (s.node 3 q).alarmUs * 1000 ≤ s.headDelay q → (s.node 3 q).frames ≠ [] →
     exec (.tmDelayAlarm q) s = .next (s.raiseMs (Ev.TM_DELAY_ALARM (q / 32768))))

/-- A link comes up, degraded or not, and goes down; BME, a D-state, MSI-X masks and enables, EVT_PEND and EVT_FN writes have their effects, pending messages go out once nothing forbids them, and one more goes out for a vector that still has a bit set. -/
def Obligations.HostLinks : Prop :=
  (∀ (s : State) (port link rate : Nat) (narrow : Bool), s.linkExists port link = true → (s.hlinks.get (2 * port + link)).up = false → s.perst.get port = false →
     (decide (rate < 2) || (narrow && !s.bifurcated.get port)) = false →
     exec (.hifLinkUp port link rate narrow) s =
     .next ((({ s with hlinks := s.hlinks.set (2 * port + link) { up := true, rate := rate, narrow := narrow } } : State).raise (Ev.HIF_LINK_UP port)).sendReady (2 * port + link))) ∧
  (∀ (s : State) (port link rate : Nat) (narrow : Bool), s.linkExists port link = true → (s.hlinks.get (2 * port + link)).up = false → s.perst.get port = false →
     (decide (rate < 2) || (narrow && !s.bifurcated.get port)) = true →
     exec (.hifLinkUp port link rate narrow) s =
     .next (((({ s with hlinks := s.hlinks.set (2 * port + link) { up := true, rate := rate, narrow := narrow } } : State).raise (Ev.HIF_LINK_UP port)).raise
       (Ev.HIF_LINK_DEGRADED port)).sendReady (2 * port + link))) ∧
  (∀ (s : State) (port link : Nat), s.linkExists port link = true → (s.hlinks.get (2 * port + link)).up = true →
     exec (.hifLinkDown port link) s = .next (({ s with hlinks := s.hlinks.set (2 * port + link) {} } : State).raise (Ev.HIF_LINK_DOWN port))) ∧
  (∀ (s : State) (f v : Nat) (masked : Bool), f < 2052 → exec (.msixUnmask f (.vector v masked)) s =
     .next (({ s with msix := s.msix.mod (msixKey f v) (fun e => { e with masked := masked }) } : State).sendPending f)) ∧
  (∀ (s : State) (f : Nat) (on : Bool), f < 2052 →
     exec (.msixUnmask f (.fnMask on)) s = .next ((s.modFn f (fun g => { g with fnMask := on })).sendPending f)) ∧
  (∀ (s : State) (f : Nat) (on : Bool), f < 2052 →
     exec (.msixUnmask f (.enable on)) s = .next ((s.modFn f (fun g => { g with msixEn := on })).sendPending f)) ∧
  (∀ (s u : State) (f : Nat), (s.fn f).bme = true → u = (s.modFn f (fun g => { g with bme := false })).discardReads f →
     exec (.bmeClear f) s = .next (
       let t := ((u.each (u.ringsOf f) (fun k t => t.stopRing k 6 0)).stopCopiesOf f false).raiseFn f F.EVT_FN_BME_STOPPED
       t.raise (Ev.HIF_BME_CLEARED (t.hostPort f)))) ∧
  (∀ (s : State) (f : Nat), f < 2052 → exec (.bmeSet f) s = .next ((s.modFn f (fun g => { g with bme := true })).sendPending f)) ∧
  (∀ (s : State) (f : Nat) (d3 : Bool), f < 2052 → (s.fn f).d3 ≠ d3 →
     exec (.dStateChange f d3) s = .next (((s.modFn f (fun g => { g with d3 := d3 })).sendPending f).raise (Ev.HIF_POWER_STATE (s.hostPort f)))) ∧
  (∀ (s u : State) (f w v : Nat), f < 4 → w < 18 → s.bar0Open f = true →
     u = s.put .EVT_PEND (pendIx f w) (s.val .EVT_PEND (pendIx f w) - (s.val .EVT_PEND (pendIx f w) &&& v % 2 ^ 32)) →
     exec (.evtPendW1c f w v) s = .next (u.resend f ((((List.range 32).filter (fun b => bit v b && decide (32 * w + b < 576))).filter
       (fun b => u.rd F.EVT_ROUTE_PF (32 * w + b) == f)).map (fun b => u.rd F.EVT_ROUTE_VECTOR (32 * w + b))))) ∧
  (∀ (s u : State) (f v : Nat), f < 2052 → s.bar0Open f = true → u = s.put .EVT_FN f (s.val .EVT_FN f - (s.val .EVT_FN f &&& putBits (v % 64) 1 1 0)) →
     exec (.evtFnW1c f v) s = .next (if v % 64 = 0 then u else u.resend f [u.rd F.EVT_FN_VEC_VECTOR f]))

/-- A translation completes and serves or fails what waits; an invalidation removes entries, waits for the reads it meets, and completes; ATS and PASID Enable fall with what they carried; a page response resumes or fails its waiter; PRI timeouts, PRI resets, read completions and completion timeouts act; a completion without a request is counted. -/
def Obligations.Translations : Prop :=
  (∀ (s u : State) (req n base tbase size : Nat) (q : XReq) (rd wr : Bool), s.xreqs.find? (fun e => e.1 == req && decide (e.1 < 16384)) = some (n, q) → u = { s with xreqs := s.xreqs.erase req } → s.now < q.since + q.us * 1000 →
     q.tainted = false → (if q.write then wr else rd) = true →
     exec (.translationCompletion req (.granted base tbase size rd wr)) s = .next (((u.atsFill
       { port := u.hostPort q.fn, fn := q.fn, pasid := q.pasid, base := base, tbase := tbase, size := size, rd := rd, wr := wr }).resumeWaiter q.waiter).issueWaiting)) ∧
  (∀ (s u : State) (req n : Nat) (q : XReq), s.xreqs.find? (fun e => e.1 == req && decide (e.1 < 16384)) = some (n, q) → u = { s with xreqs := s.xreqs.erase req } → s.now < q.since + q.us * 1000 →
     q.tainted = false →
     exec (.translationCompletion req .failed) s = .next (((u.raiseMs (Ev.HIF_ATS_XLATE_ERROR (u.hostPort q.fn))).failWaiter q.waiter).issueWaiting)) ∧
  (∀ (s u : State) (req n : Nat) (q : XReq), s.xreqs.find? (fun e => e.1 == req && decide (e.1 < 16384)) = some (n, q) → u = { s with xreqs := s.xreqs.erase req } → s.now < q.since + q.us * 1000 →
     q.tainted = false →
     exec (.translationCompletion req .noAccess) s = .next ((u.faultWaiter q).issueWaiting)) ∧
  (∀ (s : State) (port tag f base size : Nat) (pasid : Option Nat), port < 2 → (s.invals.filter (fun v => v.port == port)).length < 32 →
     exec (.invalidateRequest port tag f pasid base size) s = .next (({ (s.atsRemove f (some pasid) base size).1 with
       invals := (s.atsRemove f (some pasid) base size).1.invals ++ [{ port := port, tag := tag, fn := f, since := (s.atsRemove f (some pasid) base size).1.now, reads := (s.atsRemove f (some pasid) base size).2 }] } : State).count
       .HIF_CTR port C.HIF_ATS_INVALIDATIONS)) ∧
  (∀ (s : State) (port : Nat) (v : Inval), s.invals.find? (fun v => v.port == port) = some v → v.reads.any (fun k => s.reads.any (fun e => e.1 == k)) = false →
     s.now ≤ v.since + 1000000 →
     exec (.invalidateComplete port) s = .next (({ s with invals := s.invals.erase v } : State).send (.invalidateDone port v.tag))) ∧
  (∀ (s : State) (f : Nat), (s.fn f).ats = true → exec (.atsEnableClear f) s = .next (s.atsDisable f)) ∧
  (∀ (s : State) (f : Nat), (s.fn f).pasidEn = true → exec (.pasidEnableClear f) s = .next (s.pasidDisable f)) ∧
  (∀ (s : State) (f index n : Nat) (q : PReq), f < 2052 → s.preqs.find? (fun e => e.1 == index && e.2.fn == f && e.2.sent) = some (n, q) →
     exec (.pageResponse f index .success) s = .next ((({ s with preqs := s.preqs.erase index } : State).resumeWaiter q.waiter).nextPageRequest f)) ∧
  (∀ (s : State) (f index n : Nat) (q : PReq), f < 2052 → s.preqs.find? (fun e => e.1 == index && e.2.fn == f && e.2.sent) = some (n, q) →
     exec (.pageResponse f index .invalid) s = .next (s.failPage index q)) ∧
  (∀ (s : State) (f index : Nat) (r : PageReply), f < 2052 → s.preqs.find? (fun e => e.1 == index && e.2.fn == f && e.2.sent) = none →
     exec (.pageResponse f index r) s = .next (({ s with lateResponses := s.lateResponses + 1 } : State).raiseMs (Ev.HIF_PRG_RESPONSE_UNEXPECTED (s.hostPort f)))) ∧
  (∀ (s : State) (index n : Nat) (q : PReq), s.preqs.find? (fun e => e.1 == index && e.2.sent) = some (n, q) →
     q.since + s.rd F.HIF_PRI_TIMEOUT_MS (s.hostPort q.fn) * 1000000 ≤ s.now →
     exec (.priResponseTimeout index) s = .next ((s.raiseMs (Ev.HIF_PRI_TIMEOUT (s.hostPort q.fn))).failPage n q)) ∧
  (∀ (s : State) (f alloc : Nat), f < 2052 →
     exec (.priReset f alloc) s = .next (s.modFn f (fun g => { g with priEn := true, priStopped := false, priAlloc := alloc }))) ∧
  (∀ (s : State) (port tag : Nat) (reply : HostReply), s.readOf port tag = none →
     exec (.hostReadCompletion port tag reply) s = .next (((s.count .HIF_CTR (port % 2) C.HIF_LATE_CPL).raiseMs (Ev.HIF_LATE_CPL (port % 2))).send (.unexpectedCompletion (port % 2)))) ∧
  (∀ (s : State) (port tag n : Nat) (q : HostRead) (reply : HostReply), s.readOf port tag = some (n, q) → s.partLate q tag = false →
     exec (.hostReadCompletion port tag reply) s = .next (s.partEnd n q tag reply)) ∧
  (∀ (s : State) (port tag n : Nat) (q : HostRead) (reply : HostReply), s.readOf port tag = some (n, q) → s.partLate q tag = true →
     exec (.hostReadCompletion port tag reply) s = .next ((s.partEnd n q tag .timeout).lateCpl (port % 2))) ∧
  (∀ (s : State) (tag n : Nat) (q : HostRead), (s.readOf 0 tag).orElse (fun _ => s.readOf 1 tag) = some (n, q) → s.partLate q tag = true →
     exec (.cplTimeoutExpire tag) s = .next (s.partEnd n q tag .timeout)) ∧
  (∀ (s : State) (tag n : Nat) (q : XReq), (s.readOf 0 tag).orElse (fun _ => s.readOf 1 tag) = none →
     s.xreqs.find? (fun e => e.1 == tag && decide (e.1 < 16384)) = some (n, q) → q.since + q.us * 1000 ≤ s.now →
     exec (.cplTimeoutExpire tag) s = .next (((({ s with xreqs := s.xreqs.erase n } : State).readFailed q.fn .timeout).failWaiter q.waiter).issueWaiting))

/-- A stamp leaves its port's FIFO to its job, its journalled ring or the stamp ring; a gap of lost stamps and a digest interval are recorded; the oldest record is chained and written, or its page is requested; checkpoints begin and end; CLOCK records and journal registers act, an illegal consumer index being logged. -/
def Obligations.JournalChain : Prop :=
  (∀ (s u : State) (port j : Nat) (b : Job) (e : StampEntry) (rest : List StampEntry), s.stampFifo.get port = e :: rest → e.ring = none → e.job = some j →
     u = { s with stampFifo := s.stampFifo.set port rest } → u.job j = some b →
     exec (.stampFifoDrain port) s = .next ((u.setJob j { b with stamp := some (e.stamp, u.keyLo port e.txSeq) }).finishJob j)) ∧
  (∀ (s : State) (port : Nat) (e : StampEntry) (rest : List StampEntry), s.stampFifo.get port = e :: rest → e.ring = none → e.job = none → e.owned = false →
     exec (.stampFifoDrain port) s = .next (({ s with stampFifo := s.stampFifo.set port rest } : State).tagStamp port e false)) ∧
  (∀ (s : State) (port : Nat), 0 < (s.stampLoss.get port).count → stampLe (((s.stampLoss.get port).told + 8000000) % W64) s.stamp = true →
     exec (.stampGapRecord port) s = .next (s.stampGap port)) ∧
  (∀ (s : State) (j : _) (ring : Nat) (rx : Bool), s.jrings.getD (jringKey ring rx) none = some j → j.entries.isEmpty = false → (4096 ≤ j.entries.length ∨ stampLe ((j.since + 8000000) % W64) s.stamp) →
     exec (.jnlDigestClose ring rx) s = .next (s.closeDigest (jringKey ring rx))) ∧
  (∀ (s : State) (r : JRec) (rest : List JRec), s.journal.backlog = r :: rest → s.jnlWriting = true → s.journal.faulted = false → s.jnlHeld < s.jnlSize →
     exec (.jnlRecordCommit false) s = .next (s.commit r rest)) ∧
  (∀ (s t : State) (r : JRec) (rest : List JRec), s.journal.backlog = r :: rest → s.jnlWriting = true → s.journal.faulted = false → s.jnlHeld < s.jnlSize →
     s.pageRequest s.manager none (s.rd F.JNL_BASE_ADDR 0 * 4096 + 64 * (s.journal.next % s.jnlSize)) true .journal = some t →
     exec (.jnlRecordCommit true) s = .next { t with journal := { t.journal with faulted := true } }) ∧
  (∀ (s : State) (h : Bytes), s.journal.head = some h → (65536 ≤ s.journal.sinceCkpt ∨ stampLe ((s.journal.ckptAt + 8000000000) % W64) s.stamp = true) →
     s.on F.JNL_STATUS_SIGNER_OK 0 = true →
     exec .jnlCheckpoint s = .next { s with journal := { s.journal with
       sinceCkpt := 0
       ckptAt := s.stamp
       signing := s.journal.signing ++ [(s.journal.next - 1, s.stamp, s.signature (s.journal.next - 1) s.stamp h)] } }) ∧
  (∀ (s : State) (q w : Nat) (sig : Bytes) (rest : List (Nat × Nat × Bytes)), s.journal.signing = (q, w, sig) :: rest →
     exec .jnlSignatureDone s = .next ((((({ s with journal := { s.journal with signing := rest } } : State).journalPush
       [{ kind := 7, body := leBytes 1 0 ++ leBytes 6 q ++ leBytes 8 w ++ fit 25 sig }, { kind := 7, body := leBytes 1 1 ++ slice sig 25 39 }, { kind := 7, body := fit 40 (leBytes 1 2 ++ slice sig 64 32) }]).count
       .JNL_CTR 0 C.JNL_CHECKPOINTS).raise Ev.JNL_CHECKPOINT).mirrorHead)) ∧
  (∀ (s : State) (cause : Nat), s.tsu.clockDue.contains cause = true →
     exec (.jnlClockRecord cause) s = .next (({ s with tsu := { s.tsu with clockDue := s.tsu.clockDue.erase cause } }).journalClock cause)) ∧
  (∀ (s : State) (fn v : Nat), s.managedBy fn → s.jnlSize < ixSub (s.val .JNL_PROD 0) (v % 2 ^ 32) →
     exec (.jnlConsWrite fn v) s = .next (s.logFwWrite 0x07008010 v)) ∧
  (∀ (s : State) (fn v : Nat), s.managedBy fn → ixSub (s.val .JNL_PROD 0) (v % 2 ^ 32) ≤ s.jnlSize →
     exec (.jnlConsWrite fn v) s = .next ((s.put .JNL_CONS 0 (v % 2 ^ 32)).jnlFull)) ∧
  (∀ (s : State) (fn v : Nat), s.managedBy fn → s.on F.JNL_CTRL_EN 0 = false → exec (.jnlCtrlWrite fn v) s = .next (
     let u := ((s.wrLegal F.JNL_CTRL_LOG2_RECORDS 0 (bits v 4 0)).wr F.JNL_CTRL_EN 0 (bits v 31 31)).when (bit v 31)
       (fun t => { t with journal := { t.journal with stopped := false } })
     (u.when (u.val .JNL_CTRL 0 != s.val .JNL_CTRL 0) (fun t => t.journalRing)).jnlFull))

/-- A doorbell of a ring's queue page posts entries or moves a consumer index, the push window takes bytes, fetched descriptors enter the cache or their failure stops the ring, the next startable entry starts, and its buffer becomes frames. -/
def Obligations.Submission : Prop :=
  (∀ (s : State) (key fn page v : Nat) (w : Width), s.onPage fn page = some key → w ≠ .high → (s.ring key).submits = true → s.bar0Open fn = true →
     exec (.qmSqDb fn page w v) s = .next (s.sqDoorbell key (v % 2 ^ 32) (w == .full && bit v 63))) ∧
  (∀ (s : State) (key fn page v : Nat) (w : Width), s.onPage fn page = some key → w ≠ .high → s.bar0Open fn = true → (s.ring key).kind = 3 →
     exec (.qmCqDb fn page w v) s = .next (s.cqDoorbell key (v % 2 ^ 32) (w == .full && bit v 63))) ∧
  (∀ (s : State) (key fn page v : Nat), s.onPage fn page = some key → s.bar0Open fn = true → (s.ring key).kind = 1 → (s.ring key).isHead = true → bit v 63 = true →
     exec (.qmCqDb fn page .full v) s = .next (s.modRing key (fun x => { x with armed := true }))) ∧
  (∀ (s : State) (key fn page slot o : Nat) (data : Bytes), s.onPage fn page = some key → (s.ring key).kind = 1 ∨ (s.ring key).kind = 4 → s.bar0Open fn = true →
     slot < 4 → o < 8 → data.length = 8 →
     exec (.pushSlotWrite fn page (64 * slot + 8 * o) data) s =
     .next (s.modRing key (fun x => { x with push := x.push.mod slot (fun p => { bytes := patch (fit 64 p.bytes) (8 * o) data, mask := p.mask ||| 2 ^ o }) }))) ∧
  (∀ (s u : State) (ring i n : Nat) (b : Bytes), (s.ring ring).fetching = some (i, n) → (s.ring ring).state = 1 → (s.takeRead (.fetch ring)).2 = true →
     u = (s.takeRead (.fetch ring)).1.modRing ring (fun x => { x with fetching := none }) →
     exec (.descFetchComplete ring (.data b)) s = .next
     ((((u.ringCount ring C.QM_DESC_FETCHED n).cacheAll ring ((List.range n).map (fun k => ((i + k) % 2 ^ 32, fit (s.ring ring).entrySize (b.drop (k * (s.ring ring).entrySize)))))).fetchNext ring).fetchOthers (u.hostPort (s.ring ring).fn) (!s.fetchCredit (s.hostPort (s.ring ring).fn)))) ∧
  (∀ (s u : State) (ring i n : Nat), (s.ring ring).fetching = some (i, n) → (s.ring ring).state = 1 → (s.takeRead (.fetch ring)).2 = true →
     u = (s.takeRead (.fetch ring)).1.modRing ring (fun x => { x with fetching := none }) →
     exec (.descFetchComplete ring .timeout) s = .next (((u.readFailed (s.ring ring).fn .timeout).stopRing ring 5 1).fetchOthers (u.hostPort (s.ring ring).fn) (!s.fetchCredit (s.hostPort (s.ring ring).fn)))) ∧
  (∀ (s : State) (e : CacheEntry) (ring : Nat), s.startable ring = some e → exec (.txJobStart ring) s = .next (s.startJob ring e)) ∧
  (∀ (s : State) (job : Nat) (b : Job) (buf : Bytes), s.job job = some b → b.produced = false → (s.ring b.ring).kind = 1 → s.oldestRead job b = true → s.dataCredit b = true →
     (s.takeRead (.buffer job)).2 = true → b.gen = (s.takeRead (.buffer job)).1.rd F.HIF_FN_STATE_GEN b.func →
     exec (.txBufferData job (.data buf)) s = .next ((s.takeRead (.buffer job)).1.produce job b (fit (txLen b.entry) buf))) ∧
  (∀ (s : State) (job : Nat) (b : Job), s.job job = some b → b.produced = false → (s.ring b.ring).kind = 1 → s.oldestRead job b = true → s.dataCredit b = true →
     (s.takeRead (.buffer job)).2 = true → b.gen = (s.takeRead (.buffer job)).1.rd F.HIF_FN_STATE_GEN b.func →
     exec (.txBufferData job .timeout) s = .next (((s.takeRead (.buffer job)).1.readFailed (s.ring b.ring).fn .timeout).failJob job 3 0))

/-- A frame for a receive ring is placed in its next buffer, dropped when it is too long or the ring is stopped, or held; held frames are delivered or time out; completions are written or stop their ring with a bad buffer, coalescing expires, HEAD status blocks are written. -/
def Obligations.Reception : Prop :=
  (∀ (s : State) (h key : Nat) (p : Packet) (e : CacheEntry) (badCell : Bool), s.pkt h = some p → p.stage = .rxDma key → p.badFcs = false → (s.ring key).state = 1 → (s.ring key).kind = 2 →
     (s.fn (s.ring key).fn).bme = true → s.mayStart (s.ring key).fn = true → p.data.length ≤ (s.ring key).maxFrame → (s.ring key).hold = [] → s.buffer key = some e → s.rxMiss key p e = none →
     exec (.rxDma h false badCell) s = .next (s.place h key p e false badCell)) ∧
  (∀ (s : State) (h key a : Nat) (p : Packet) (e : CacheEntry) (badCell : Bool), s.pkt h = some p → p.stage = .rxDma key → p.badFcs = false → (s.ring key).state = 1 → (s.ring key).kind = 2 →
     (s.fn (s.ring key).fn).bme = true → s.mayStart (s.ring key).fn = true → p.data.length ≤ (s.ring key).maxFrame → (s.ring key).hold = [] → s.buffer key = some e → s.rxMiss key p e = some a →
     exec (.rxDma h false badCell) s = .next ((s.holdRx h key p).rxTranslate key a)) ∧
  (∀ (s : State) (h key : Nat) (p : Packet) (fault badCell : Bool), s.pkt h = some p → p.stage = .rxDma key → p.badFcs = false → (s.ring key).state = 1 → (s.ring key).kind = 2 →
     (s.fn (s.ring key).fn).bme = true → s.mayStart (s.ring key).fn = true → (s.ring key).maxFrame < p.data.length →
     exec (.rxDma h fault badCell) s = .next (s.rxDrop h key C.QM_RX_TOO_LONG)) ∧
  (∀ (s : State) (h key : Nat) (p : Packet) (fault badCell : Bool), s.pkt h = some p → p.stage = .rxDma key → p.badFcs = true →
     exec (.rxDma h fault badCell) s = .next (s.freePkt h)) ∧
  (∀ (s : State) (ring h : Nat) (rest : List Nat) (p : Packet) (e : CacheEntry) (badCell : Bool), (s.ring ring).hold = h :: rest → s.pkt h = some p → s.buffer ring = some e →
     s.preqs.any (fun q => q.2.waiter == .rx ring) = false → s.rxMiss ring p e = none →
     exec (.holdListDeliver ring false badCell) s = .next ((s.modRing ring (fun x => { x with hold := x.hold.drop 1 })).place h ring p e true badCell)) ∧
  (∀ (s : State) (h key : Nat) (p : Packet), s.pkt h = some p → p.stage = .onHold key → p.heldAt + (s.ring key).holdUs * 1000 ≤ s.now →
     exec (.rxHoldTimeout h) s = .next ((s.modRing key (fun x => { x with hold := x.hold.filter (· != h) })).rxDrop h key C.QM_RX_HOLD_DROP)) ∧
  (∀ (s : State) (ring : Nat) (c : Cpl), s.ready.find? (fun c => c.target == ring) = some c → (s.ring ring).state = 1 →
     exec (.completionWrite ring false) s = .next (({ s with ready := s.ready.erase c } : State).postCpl ring c)) ∧
  (∀ (s : State) (ring : Nat) (c : Cpl), s.ready.find? (fun c => c.target == ring) = some c → (s.ring ring).state = 1 →
     exec (.completionWrite ring true) s = .next (({ s with ready := s.ready.erase c } : State).stopRing ring 5 2)) ∧
  (∀ (s : State) (ring t : Nat), (s.ring ring).firstCoal = some t → (s.ring ring).armed = true → t + (s.ring ring).coalUs * 1000 ≤ s.now →
     exec (.cqCoalesceExpire ring) s = .next (s.ringMessage ring)) ∧
  (∀ (s : State) (ring : Nat), (s.ring ring).state ≠ 0 → (s.ring ring).isHead = true → (s.ring ring).kind = 1 → (s.ring ring).oldest ≠ (s.ring ring).headShown →
     (s.ring ring).headDue s.now = true →
     exec (.headStatusWrite ring false) s = .next (s.writeHead ring))

/-- A request that its group serves is answered: a deferred one is registered, or answered LIST_FULL or with its context's status; CHECK, DECRYPT, TLS RX and RX_PLACE give the status and the work of their rules, in the packet's turn. -/
def Obligations.OffloadRequests : Prop :=
  (∀ (s : State) (t h : Nat) (m : ChanMsg) (p : Packet), s.asksOffload t 0 m h p → s.deferredCtx m.unit m.ctx m.func false = ST_OK → p.deferred.length < 4 →
     exec (.oflDeferRequest t) s = .next (((s.setPkt h { p with deferred := p.deferred ++ [{ group := m.group, op := m.op, ctx := m.ctx, params := [m.unit, m.func, m.l3, m.l4, m.word 2 % 8, 0, 0, 0] }] }).accepted
       m).reply m [2 ^ 56 * m.op, 0])) ∧
  (∀ (s : State) (t h : Nat) (m : ChanMsg) (p : Packet), s.asksOffload t 0 m h p → s.deferredCtx m.unit m.ctx m.func false = ST_OK → 4 ≤ p.deferred.length →
     exec (.oflDeferRequest t) s = .next (s.answer m h { status := ST_LIST_FULL })) ∧
  (∀ (s : State) (t h : Nat) (m : ChanMsg) (p : Packet), s.asksOffload t 0 m h p → s.deferredCtx m.unit m.ctx m.func false ≠ ST_OK →
     exec (.oflDeferRequest t) s = .next (s.answer m h { status := s.deferredCtx m.unit m.ctx m.func false })) ∧
  (∀ (s : State) (t h : Nat) (m : ChanMsg) (p : Packet), s.asksOffload t 1 m h p →
     exec (.oflCheck t) s = .next (s.answer m h { status := checkStatus p.data m.l3 m.l4 })) ∧
  (∀ (s : State) (t h : Nat) (m : ChanMsg) (p : Packet) (bad : Bool), s.asksOffload t 2 m h p → s.oflGated (s.groupOf m) = false → (bad || p.badCell) = false →
     exec (.espDecrypt ⟨t, bad⟩) s = .next (s.espDecrypt t m h p)) ∧
  (∀ (s : State) (t h : Nat) (m : ChanMsg) (p : Packet) (bad : Bool), s.asksOffload t 2 m h p → s.oflGated (s.groupOf m) = false → (bad || p.badCell) = true →
     exec (.espDecrypt ⟨t, bad⟩) s = .next (s.inputFails m h p)) ∧
  (∀ (s u : State) (t h o : Nat) (m : ChanMsg) (p q : Packet) (bad : Bool), s.asksOffload t 3 m h p → s.oflGated (s.groupOf m) = false → s.waitsTurn p (askKey m.ctx false) = false →
     u = s.asked h (askKey m.ctx false) → (s.sessions.get m.ctx).check m.func (s.sessions.get m.ctx).tlsRx false = ST_OK → u.pkt h = some q → u.dirtyWindow t = false →
     (bad || q.badCell) = false → tcpPayload q.data m.l3 m.l4 = some o →
     exec (.tlsRx ⟨t, bad⟩) s = .next (u.tlsSegment t m h q o (ipEnd q.data m.l3))) ∧
  (∀ (s : State) (t h : Nat) (m : ChanMsg) (p : Packet) (bad : Bool), s.asksOffload t 3 m h p → s.oflGated (s.groupOf m) = false → s.waitsTurn p (askKey m.ctx false) = false →
     (s.sessions.get m.ctx).check m.func (s.sessions.get m.ctx).tlsRx false ≠ ST_OK →
     exec (.tlsRx ⟨t, bad⟩) s = .next ((s.asked h (askKey m.ctx false)).answer m h { status := (s.sessions.get m.ctx).check m.func (s.sessions.get m.ctx).tlsRx false })) ∧
  (∀ (s u : State) (t h o : Nat) (m : ChanMsg) (p q : Packet) (fault : Option Nat) (bad : Bool), s.asksOffload t 4 m h p → s.oflGated (s.groupOf m) = false → s.waitsTurn p (askKey m.ctx true) = false →
     u = s.asked h (askKey m.ctx true) → (s.sessions.get m.ctx).check m.func (s.sessions.get m.ctx).nvme false = ST_OK → u.pkt h = some q →
     (bad || q.badCell) = false → tcpPayload q.data m.l3 m.l4 = some o →
     exec (.nvmeRxPlace ⟨t, bad⟩ fault) s = .next (u.nvSegment m h q o (ipEnd q.data m.l3) fault))

/-- A packet's deferred list runs, or the packet ends on a bad cell; KEY_CHECK, BULK_GCM and DIGEST jobs give their results; a gated group that is wanted wakes. -/
def Obligations.OffloadStages : Prop :=
  (∀ (s : State) (h : Nat) (p : Packet) (bad : Bool), s.pkt h = some p → p.stage = .deferred → s.enqueueCredit p.pipe (1 + b2n (bit p.verdict.word 59)) = true →
     p.deferred.any (fun d => d.unit != 0 && s.oflGated (s.servingGroup d.group)) = false → (bad || p.badCell) = false →
     exec (.deferredStage h bad) s = .next (s.runDeferred h p p.deferred)) ∧
  (∀ (s : State) (h : Nat) (p : Packet) (bad : Bool), s.pkt h = some p → p.stage = .deferred → s.enqueueCredit p.pipe (1 + b2n (bit p.verdict.word 59)) = true →
     p.deferred.any (fun d => d.unit != 0 && s.oflGated (s.servingGroup d.group)) = false → (bad || p.badCell) = true →
     exec (.deferredStage h bad) s = .next (((s.count .OFL_CTR (s.servingGroup (p.deferred.headD {}).group) C.OFL_CELL_CHECK).cellCheck (unitPipe p.pipe)).endPkt h false 0x0B p.ofl)) ∧
  (∀ (s : State) (job : Nat) (b : Job) (k : Nat × Bytes × Nat), s.jobWaiting job 1 = some b → s.oflGated (s.ring b.ring).pipe = false → k = s.jobKey b.entry b.func b.noCtx → k.1 = ST_OK →
     exec (.jobKeyCheck job) s = .next (s.jobDone job 0 (oflWord 0 k.2.2) (keyCheck k.2.1))) ∧
  (∀ (s : State) (job : Nat) (b : Job) (k : Nat × Bytes × Nat), s.jobWaiting job 1 = some b → s.oflGated (s.ring b.ring).pipe = false → k = s.jobKey b.entry b.func b.noCtx → k.1 ≠ ST_OK →
     exec (.jobKeyCheck job) s = .next (s.jobDone job 0x0B (oflWord k.1 k.2.2) 0)) ∧
  (∀ (s : State) (job : Nat) (b : Job) (k : Nat × Bytes × Nat) (reply : HostReply), s.jobWaiting job 2 = some b → s.oflGated (s.ring b.ring).pipe = false → k = s.jobKey b.entry b.func b.noCtx → k.1 = ST_OK →
     bulkOverlap b.entry = false → leAt b.entry 0x1C 2 ≤ leAt b.entry 8 4 % 2 ^ 25 →
     exec (.jobBulkGcm ⟨job, false⟩ reply) s = .next (s.jobRead job b reply (fun s' buf => match s'.bulkMiss b with
       | some a => s'.atsMiss (s'.ring b.ring).fn (s'.ring b.ring).pasid a true (.buffer job)
       | none => s'.bulk job b k.2.1 k.2.2 buf))) ∧
  (∀ (s : State) (job : Nat) (b : Job) (k : Nat × Bytes × Nat) (reply : HostReply), s.jobWaiting job 2 = some b → s.oflGated (s.ring b.ring).pipe = false → k = s.jobKey b.entry b.func b.noCtx → k.1 = ST_OK →
     bulkOverlap b.entry = false → leAt b.entry 0x1C 2 ≤ leAt b.entry 8 4 % 2 ^ 25 →
     exec (.jobBulkGcm ⟨job, true⟩ reply) s = .next (s.jobRead job b reply (fun s' _ => s'.bulkFails job b))) ∧
  (∀ (s : State) (job : Nat) (b : Job) (reply : HostReply), s.jobWaiting job 3 = some b → exec (.jobDigest job reply) s =
     .next (s.jobRead job b reply (fun s' buf => s'.jobDone job 0 0 (~~~ (crcRun (~~~ (BitVec.ofNat 32 (leAt b.entry 0x2C 4))) buf)).toNat))) ∧
  (∀ (s : State) (g : Nat), g < 4 → s.oflGated g = true → s.groupWanted g = true →
     exec (.oflGroupWake g) s = .next ((s.wr F.OFL_GROUP_CTRL_GATED g 0).domainOn (40 + g)))

/-- GO starts a channel that may start and else gives BAD_CFG; STOP acts at once between descriptors and else at the next boundary; the configuration is written while the channel is idle or stopped, and else logged; a turn fetches a descriptor and moves bytes; a flush ends a descriptor; a pacing message drives the line. -/
def Obligations.CopyEngine : Prop :=
  (∀ (s u : State) (fn ch v : Nat), s.managedBy fn → ch < 1024 → bit (putBits v 31 31 1) 31 = true → bit (putBits v 31 31 1) 30 = false → u = s.wr F.CPY_CH_CTRL_FROM_HEAD ch (bits (putBits v 31 31 1) 29 29) →
     u.cpyState ch = 0 → u.cpyRefused ch = true →
     exec (.cpyGo fn ch v) s = .next ((u.wr F.CPY_CH_STATUS_CODE ch CPY_BAD_CFG).raise Ev.CPY_BAD_CFG)) ∧
  (∀ (s u x : State) (fn ch v : Nat), s.managedBy fn → ch < 1024 → bit (putBits v 31 31 1) 31 = true → bit (putBits v 31 31 1) 30 = false →
     u = s.wr F.CPY_CH_CTRL_FROM_HEAD ch (bits (putBits v 31 31 1) 29 29) → u.cpyState ch = 0 → u.cpyRefused ch = false → u.on F.CPY_CH_CTRL_FROM_HEAD ch = false →
     x = u.modCopy ch (fun c => { c with desc := [], started := 0, flush := none, yielded := false }) →
     exec (.cpyGo fn ch v) s = .next (((x.when (x.rd F.PWR_DOMAIN_STATE 56 == 0) (fun t => t.domainOn 56)).wr F.CPY_CH_STATUS_COUNT ch 0).cpyRun ch)) ∧
  (∀ (s u : State) (fn ch v : Nat), s.managedBy fn → ch < 1024 → bit (putBits (putBits v 31 31 0) 30 30 1) 31 = false → bit (putBits (putBits v 31 31 0) 30 30 1) 30 = true →
     u = s.wr F.CPY_CH_CTRL_FROM_HEAD ch (bits (putBits (putBits v 31 31 0) 30 30 1) 29 29) → u.cpyActive ch = true → u.cpyState ch ≠ 2 → u.cpyAtBoundary ch = false →
     exec (.cpyStop fn ch v) s = .next (u.wr F.CPY_CH_CTRL_STOP ch 1)) ∧
  (∀ (s : State) (fn ch v : Nat) (w : Width), s.managedBy fn → ch < 1024 → s.cpyState ch = 0 ∨ s.cpyState ch = 4 →
     exec (.cpyChCfgWrite fn ch w v) s = .next (s.put .CPY_CH_CFG ch (putBits (merge w (s.val .CPY_CH_CFG ch) v) 60 43 0))) ∧
  (∀ (s : State) (fn ch v : Nat), s.managedBy fn → ch < 1024 → 1 ≤ s.cpyState ch → s.cpyState ch ≤ 3 →
     exec (.cpyChCfgWrite fn ch .full v) s = .next (s.logFwWrite (0x0B100000 + 0x40 * ch) v)) ∧
  (∀ (s : State) (ch status x : Nat) (lost : Bool), (s.copy ch).flush = some (status, x) →
     exec (.cpyFlushDone ch none lost) s = .next (s.cpyFinish ch status lost)) ∧
  (∀ (s : State) (ch status x : Nat) (r : HostReply) (lost : Bool), (s.copy ch).flush = some (status, x) →
     exec (.cpyFlushDone ch (some r) lost) s = .next ((s.readFailed (s.cpyOwner ch) r).cpyFinish ch CPY_NO_RESPONSE lost)) ∧
  (∀ (s t : State) (unit ch : Nat) (io : CopyIo), s.nextCopy unit = some ch → (s.copy ch).desc ≠ [] → t = { s with copyLast := s.copyLast.set unit ((ch + 1) % 64) } →
     exec (.cpyTurn unit io) s = .next (t.cpyTurn ch io)) ∧
  (∀ (s t : State) (unit ch : Nat) (io : CopyIo), s.nextCopy unit = some ch → (s.copy ch).desc = [] → t = ({ s with copyLast := s.copyLast.set unit ((ch + 1) % 64) } : State).cpyFetch ch io →
     exec (.cpyTurn unit io) s = .next (if (t.copy ch).desc = [] ∨ t.cpyState ch ≠ 1 then t else t.cpyTurn ch io)) ∧
  (∀ (s u : State) (ch : Nat) (m : ChanMsg), s.chan.find? (fun m => m.dest == 0x800 + ch) = some m → ch < 1024 → m.src ≤ 0x4FF → bits (m.word 0) 63 1 = 0 → m.type = 0 →
     u = (s.accepted m).modCopy ch (fun c => { c with line := bit (m.word 0) 0 }) →
     exec (.cpyPaceMessage ch) s = .next (if u.cpyState ch = 1 ∨ u.cpyState ch = 3 then u.cpyRun ch else u))

/-- A served, permitted and legal TBL_L2, TBL_FLOW or TBL_ROUTE command writes, deletes, reads, flushes or looks up entries as its rule says, and is answered; a full table or a cap gives its code. -/
def Obligations.TableCommands : Prop :=
  (∀ (s : State) (e : Eci) (c : EciCmd) (p : List Nat), s.serves e c 0x0300 [0x10F, W32, low 31, low 30, W32] → p = c.words → (!bit (p.getD 0 0) 8) = true → (s.l2Denied e.fn) p = false → l2Bad p = false → (maskPipes p).any (fun k => s.l2Over k (l2Payload p 1)) = false → (maskPipes p).any (fun k => (s.l2Slot k (l2Payload p 1)).isNone) = false →
     exec (.tblL2Write e) s = .next ((s.each (maskPipes p) (fun k t => t.l2Write k ((s.l2Slot k (l2Payload p 1)).getD 0) (l2Payload p 1))).answers e RC_OK (indexWords (maskPipes p) (fun k => s.l2Slot k (l2Payload p 1))))) ∧
  (∀ (s : State) (e : Eci) (c : EciCmd) (p : List Nat), s.serves e c 0x0300 [0x10F, W32, low 31, low 30, W32] → p = c.words → (!bit (p.getD 0 0) 8) = true → (s.l2Denied e.fn) p = false → l2Bad p = false → (maskPipes p).any (fun k => s.l2Over k (l2Payload p 1)) = true →
     exec (.tblL2Write e) s = .next (s.answers e RC_LIMIT [])) ∧
  (∀ (s : State) (e : Eci) (c : EciCmd) (p : List Nat), s.serves e c 0x0300 [0x10F, W32, low 31, low 30, W32] → p = c.words → (bit (p.getD 0 0) 8) = true → (s.l2Denied e.fn) p = false → l2Bad p = false →
     exec (.tblL2Delete e) s = .next ((s.each (maskPipes p) (fun k t => (s.l2Place k (l2Payload p 1)).elim t (fun i => t.l2Write k i default))).answers e RC_OK (indexWords [] (fun _ => none)))) ∧
  (∀ (s : State) (e : Eci) (c : EciCmd) (p : List Nat), s.serves e c 0x0301 [low 2, low 19] → p = c.words → (e.fn != s.manager && !((s.l2Named p).valid && (s.l2Named p).static && (s.l2Named p).owner == e.fn)) = false →
     exec (.tblL2Read e) s = .next (s.answers e RC_OK (respOf (s.l2Named p).encode))) ∧
  (∀ (s : State) (e : Eci) (c : EciCmd) (p : List Nat) (ks : List Nat), s.serves e c 0x0302 [low 9] → p = c.words → e.fn = s.manager → ks = (s.l2.filter (fun x => x.2.valid && x.2.learned && (maskPipes p).contains (x.1 / 524288) && (!bit (p.getD 0 0) 4 || (!x.2.destFn && x.2.dest == bits (p.getD 0 0) 8 5)))).map (·.1) →
     exec (.tblL2Flush e) s = .next ((s.each ks (fun k t => t.l2Write (k / 524288) (k % 524288) default)).answers e RC_OK [ks.length])) ∧
  (∀ (s : State) (e : Eci) (c : EciCmd) (p : List Nat) (r : State × Nat × Nat), s.serves e c 0x0303 ([1] ++ List.replicate 28 W32 ++ [low 5, 0, 0, 0]) → p = c.words → (s.flowDenied e.fn (wBytes p 1 16) || (e.fn != s.manager && bit (p.getD 29 0) 4)) = false → (flowKeyBad (wBytes p 1 16)) = false → ((s.flowFind (wBytes p 1 16)).isNone = false ∨ (s.flowsOf (flowFunc (wBytes p 1 16))).length < (s.fn (flowFunc (wBytes p 1 16))).grants.flows) → r = s.flowInsert (wBytes p 1 16) (wBytes p 17 12) (bit (p.getD 29 0) 1) (bit (p.getD 29 0) 4) (bit (p.getD 0 0) 0) → r.2.1 = 3 →
     exec (.tblFlowInsert e) s = .next (r.1.answers e RC_OK [flowWord (wBytes p 1 16) r.2.2])) ∧
  (∀ (s : State) (e : Eci) (c : EciCmd) (p : List Nat) (l : Nat), s.serves e c 0x0304 (List.replicate 16 W32) → p = c.words → (s.flowDenied e.fn (wBytes p 0 16)) = false → (flowKeyBad (wBytes p 0 16)) = false → s.flowFind (wBytes p 0 16) = some l →
     exec (.tblFlowDelete e) s = .next (((s.flowDelete (wBytes p 0 16)).1).answers e RC_OK [])) ∧
  (∀ (s : State) (e : Eci) (c : EciCmd) (p : List Nat), s.serves e c 0x0304 (List.replicate 16 W32) → p = c.words → (s.flowDenied e.fn (wBytes p 0 16)) = false → (flowKeyBad (wBytes p 0 16)) = false → s.flowFind (wBytes p 0 16) = none →
     exec (.tblFlowDelete e) s = .next (s.answers e 0x81 [])) ∧
  (∀ (s : State) (e : Eci) (c : EciCmd) (p : List Nat) (l : Nat), s.serves e c 0x0305 (List.replicate 16 W32) → p = c.words → (s.flowDenied e.fn (wBytes p 0 16)) = false → (flowKeyBad (wBytes p 0 16)) = false → s.flowFind (wBytes p 0 16) = some l →
     exec (.tblFlowLookup e) s = .next (s.answers e RC_OK (respOf (s.flow.get (flowLoc (flowHalf (wBytes p 0 16)) l)).encode))) ∧
  (∀ (s : State) (e : Eci) (c : EciCmd) (p : List Nat) (t u : State) (b : Bytes) (rc : Nat) (cs : List RouteChange), s.serves e c 0x0306 [low 5, W32, W32] → p = c.words → e.fn = s.manager → (decide (p.getD 0 0 = 0 ∨ 16 < p.getD 0 0)) = false → s.dmaIn e.fn (w64 p 1) (32 * p.getD 0 0) e.io.head? = (t, some b, rc) → cs = (List.range (p.getD 0 0)).map (fun k => routeChange (slice b (32 * k) 32)) → cs.any (fun c => c.bad) = false → t.applyRoutes cs = some u →
     exec (.tblRouteBatch e) s = .next (u.answers e RC_OK [p.getD 0 0])) ∧
  (∀ (s : State) (e : Eci) (c : EciCmd) (p : List Nat), s.serves e c 0x0307 [1, W32, W32, W32, W32] → p = c.words → e.fn = s.manager →
     exec (.tblRouteLookup e) s = .next (s.answers e RC_OK (words32 2 (s.lpmStatus (bit (p.getD 0 0) 0) (beAt (wBytes p 1 4) 0 (if bit (p.getD 0 0) 0 then 16 else 4))))))

/-- A served, permitted and legal TM command reports, creates, destroys, writes or queries nodes, flushes a queue, writes or reads a replication group, or starts an observation dump, and is answered; a busy node or a rate above the tenant's gives its code. -/
def Obligations.SchedulerCommands : Prop :=
  (∀ (s : State) (e : Eci) (c : EciCmd) (p : List Nat), s.serves e c 0x0400 [] → p = c.words →
     exec (.tmCaps e) s = .next (s.answers e RC_OK [s.freeNodes 3, s.freeNodes 2, s.freeNodes 1, s.rd F.TM_OBS_CFG_MODE 0, s.rd F.TM_OBS_QUEUES_ENABLED 0, 1048576 - s.membersUsed])) ∧
  (∀ (s : State) (e : Eci) (c : EciCmd) (p : List Nat) (t : State) (rc : Nat) (w : List Nat), s.serves e c 0x0401 (3 :: List.replicate 8 W32) → p = c.words → (e.fn != s.manager && (p.getD 0 0 != 3 || s.newDenied e.fn (withEn (cfgOf p 1)))) = false → (s.cfgBad (p.getD 0 0) (withEn (cfgOf p 1))) = false → s.aboveTenant e.fn (p.getD 0 0) (withEn (cfgOf p 1)) = false → s.createNode (p.getD 0 0) (withEn (cfgOf p 1)) = .done t rc w →
     exec (.tmNodeCreate e) s = .next (t.answers e rc w)) ∧
  (∀ (s : State) (e : Eci) (c : EciCmd) (p : List Nat), s.serves e c 0x0402 [3 + 2 ^ 31, low 17] → p = c.words → (s.nodeDenied e.fn) p = false → (noNode p || (nodeOf p).1 == 0 || !(s.node (nodeOf p).1 (nodeOf p).2).en || ((nodeOf p).1 == 3 && isDefaultQueue (nodeOf p).2)) = false → (s.children (nodeOf p).1 (nodeOf p).2) = [] → (nodeOf p).1 ≠ 3 →
     exec (.tmNodeDestroy e) s = .next ((s.removeNode (nodeOf p).1 (nodeOf p).2).answers e RC_OK [])) ∧
  (∀ (s : State) (e : Eci) (c : EciCmd) (p : List Nat), s.serves e c 0x0402 [3 + 2 ^ 31, low 17] → p = c.words → (s.nodeDenied e.fn) p = false → (noNode p || (nodeOf p).1 == 0 || !(s.node (nodeOf p).1 (nodeOf p).2).en || ((nodeOf p).1 == 3 && isDefaultQueue (nodeOf p).2)) = false → (s.children 3 (nodeOf p).2) = [] → (nodeOf p).1 = 3 → s.queueBound (nodeOf p).2 = false → (s.node 3 (nodeOf p).2).frames = [] →
     exec (.tmNodeDestroy e) s = .next ((s.removeNode 3 (nodeOf p).2).answers e RC_OK [])) ∧
  (∀ (s : State) (e : Eci) (c : EciCmd) (p : List Nat), s.serves e c 0x0403 (3 :: low 17 :: List.replicate 8 W32) → p = c.words → (s.nodeDenied e.fn p || s.cfgDenied e.fn (nodeOf p).1 (nodeOf p).2 (cfgOf p 2)) = false → (noNode p || s.nodeCode (nodeOf p).1 (nodeOf p).2 (cfgOf p 2) == RC_BAD_ARG) = false → s.aboveTenant e.fn (nodeOf p).1 (cfgOf p 2) = false → s.nodeCode (nodeOf p).1 (nodeOf p).2 (cfgOf p 2) = RC_OK →
     exec (.tmNodeSet e) s = .next ((s.writeNode (nodeOf p).1 (nodeOf p).2 (cfgOf p 2)).answers e RC_OK [])) ∧
  (∀ (s : State) (e : Eci) (c : EciCmd) (p : List Nat), s.serves e c 0x0404 [3, low 17] → p = c.words → (s.nodeDenied e.fn) p = false → noNode p = false →
     exec (.tmNodeQuery e) s = .next (s.answers e RC_OK (respOf (fit 32 (s.node (nodeOf p).1 (nodeOf p).2).cfg) ++ s.nodeStat (nodeOf p).1 (nodeOf p).2))) ∧
  (∀ (s : State) (e : Eci) (c : EciCmd) (p : List Nat), s.serves e c 0x0405 [low 16] → p = c.words → (!s.reaches e.fn 3 (p.getD 0 0)) = false →
     exec (.tmQueueFlush e) s = .next ((s.flushQueue (p.getD 0 0)).answers e RC_OK [(s.node 3 (p.getD 0 0)).frames.length])) ∧
  (∀ (s : State) (e : Eci) (c : EciCmd) (p : List Nat), s.serves e c 0x0406 [low 27, W32, W32] → p = c.words → e.fn = s.manager → (decide (1024 < memberCount p)) = false → memberCount p = 0 → s.membersUsed ≤ 1048576 →
     exec (.tmMcastSet e) s = .next (({ s with mcast := s.mcast.set (bits (p.getD 0 0) 15 0) [] }).answers e RC_OK [])) ∧
  (∀ (s : State) (e : Eci) (c : EciCmd) (p : List Nat) (t : State) (b : Bytes) (rc : Nat) (ms : List Nat), s.serves e c 0x0406 [low 27, W32, W32] → p = c.words → e.fn = s.manager → (decide (1024 < memberCount p)) = false → memberCount p ≠ 0 → s.dmaIn e.fn (w64 p 1) (8 * memberCount p) e.io.head? = (t, some b, rc) → ms = (List.range (memberCount p)).map (fun k => leAt b (8 * k) 8) → ms.any memberBad = false → t.membersUsed - (t.mcast.get (bits (p.getD 0 0) 15 0)).length + memberCount p ≤ 1048576 →
     exec (.tmMcastSet e) s = .next (({ t with mcast := t.mcast.set (bits (p.getD 0 0) 15 0) ms }).answers e RC_OK [])) ∧
  (∀ (s : State) (e : Eci) (c : EciCmd) (p : List Nat) (t : State) (rc : Nat) (w : List Nat), s.serves e c 0x0407 [low 16, W32, W32] → p = c.words → e.fn = s.manager → s.bufferOut e.fn (w64 p 1) 8192 ((s.mcast.get (p.getD 0 0)).flatMap (fun (m : Nat) => leBytes 8 m)) e.io.head? [(s.mcast.get (p.getD 0 0)).length] = .done t rc w →
     exec (.tmMcastQuery e) s = .next (t.answers e rc w)) ∧
  (∀ (s : State) (e : Eci) (c : EciCmd) (p : List Nat), s.serves e c 0x0408 [low 17, low 17 + 2 ^ 30 + 2 ^ 31, W32, W32, W32] → p = c.words → (e.fn != s.manager && (dumpQueues p).any (fun q => !s.reaches e.fn 3 q)) = false → (decide (65536 < p.getD 0 0 + bits (p.getD 1 0) 16 0)) = false → s.longBusy e.fn = false → (bit (p.getD 1 0) 30 = true ∨ s.on F.TM_OBS_CFG_MODE 0 = false) →
     exec (.tmObsDump e) s = .next (s.ticketed e c)) ∧
  (∀ (s : State) (e : Eci) (c : EciCmd) (p : List Nat) (t : State) (rc : Nat) (w : List Nat), s.serves e c 0x0409 (low 12 :: low 10 :: List.replicate 8 W32) → p = c.words → e.fn = s.manager → (noFunc p || s.cfgBad 2 (grantCfg p)) = false → s.createNode 2 (grantCfg p) = .done t rc w →
     exec (.tmTenantGrant e) s = .next (t.answers e rc w))

/-- A served, permitted and legal TIME or OVEN command reads the time, sets the frequency offset, arms or cancels a step, slews, writes the pulse registers or the oven registers, and is answered; OVEN_SET with SAVE starts a long command. A served, permitted and legal REL or JNL command reports capacity, sets or reads a group's administrative copy, names or clears a stamp ring, journals or stops journalling a ring, reads identity and status, or starts a new chain, and is answered; a command for a ring that is journalled already keeps its stream, and JNL_RESTART waits for an empty ring. -/
def Obligations.TimeAndJournalCommands : Prop :=
  (∀ (s : State) (e : Eci) (c : EciCmd) (p : List Nat), s.serves e c 0x0500 [] → p = c.words →
     exec (.timeGet e) s = .next (s.answers e RC_OK ([s.time.ns, s.time.frac / 2 ^ 32] ++ two s.time.sec ++ two s.stamp ++ [s.val .TSU_STATUS 0]))) ∧
  (∀ (s : State) (e : Eci) (c : EciCmd) (p : List Nat), s.serves e c 0x0501 [W32, W32] → p = c.words → e.fn = s.manager → (!Reg.takes .TSU_FREQ_OFFSET (w64 p 0)) = false →
     exec (.timeFreq e) s = .next ((s.setOffset (w64 p 0)).answers e RC_OK [])) ∧
  (∀ (s : State) (e : Eci) (c : EciCmd) (p : List Nat) (t : State), s.serves e c 0x0502 stepMasks → p = c.words → (!bit (p.getD 4 0) 31) = true → e.fn = s.manager → s.on F.TSU_STEP_CTRL_ARM 0 = false → t = (((s.put .TSU_STEP 0 (w64 p 0)).put .TSU_STEP_AT 0 (w64 p 2)).wr F.TSU_STEP_CTRL_ABS 0 (bits (p.getD 4 0) 0 0)).steering.arm → t.rd F.TSU_STEP_CTRL_RESULT 0 ≠ 2 → t.rd F.TSU_STEP_CTRL_RESULT 0 ≠ 3 →
     exec (.timeStep e) s = .next (t.answers e RC_OK [])) ∧
  (∀ (s : State) (e : Eci) (c : EciCmd) (p : List Nat), s.serves e c 0x0502 stepMasks → p = c.words → (!bit (p.getD 4 0) 31) = true → e.fn = s.manager → s.on F.TSU_STEP_CTRL_ARM 0 = true →
     exec (.timeStep e) s = .next (s.answers e RC_BUSY [])) ∧
  (∀ (s : State) (e : Eci) (c : EciCmd) (p : List Nat), s.serves e c 0x0502 stepMasks → p = c.words → (bit (p.getD 4 0) 31) = true → e.fn = s.manager →
     exec (.timeStepCancel e) s = .next (s.steering.cancelStep.answers e RC_OK [])) ∧
  (∀ (s : State) (e : Eci) (c : EciCmd) (p : List Nat), s.serves e c 0x0503 [W32, W32, low 17] → p = c.words → e.fn = s.manager → (decide (50000 < p.getD 2 0)) = false →
     exec (.timeSlew e) s = .next (((s.when (p.getD 2 0 != 0) (fun t => t.setSlewRate (p.getD 2 0))).setSlew (w64 p 0)).answers e RC_OK [])) ∧
  (∀ (s : State) (e : Eci) (c : EciCmd) (p : List Nat), s.serves e c 0x0504 [] → p = c.words → e.fn = s.manager →
     exec (.timeStatus e) s = .next (s.answers e RC_OK ([s.val .TSU_STATUS 0, s.val .TSU_STEP_CTRL 0] ++ two (unsigned 64 s.tsu.remaining) ++ two (s.val .TSU_FREQ_OFFSET 0) ++ two (s.val .TSU_INCR 0)))) ∧
  (∀ (s : State) (e : Eci) (c : EciCmd) (p : List Nat) (t : State), s.serves e c 0x0505 [W32, W32, W32, 7] → p = c.words → e.fn = s.manager → (badValue p 3 0 .TSU_PPS_OUT || badValue p 3 1 .TSU_PPS_OUT_OFS || badValue p 3 2 .TSU_REF) = false → t = ((s.when (bit (p.getD 3 0) 0) (fun t => t.putFields .TSU_PPS_OUT 0 (p.getD 0 0))).when (bit (p.getD 3 0) 1) (fun t => t.putFields .TSU_PPS_OUT_OFS 0 (p.getD 1 0))).when (bit (p.getD 3 0) 2) (fun t => t.setRef (p.getD 2 0)) →
     exec (.timeIo e) s = .next (t.answers e RC_OK (two (t.val .TSU_PPS_IN 0)))) ∧
  (∀ (s : State) (e : Eci) (c : EciCmd) (p : List Nat), s.serves e c 0x0506 (List.replicate 7 W32 ++ [low 7 + 2 ^ 31]) → p = c.words → e.fn = s.manager → (ovenRegs.zipIdx.any (fun r => badValue p 7 r.2 r.1)) = false → bit (p.getD 7 0) 31 = false →
     exec (.ovenSet e) s = .next ((s.ovenWrite p (p.getD 7 0)).answers e RC_OK [])) ∧
  (∀ (s : State) (e : Eci) (c : EciCmd) (p : List Nat), s.serves e c 0x0506 (List.replicate 7 W32 ++ [low 7 + 2 ^ 31]) → p = c.words → e.fn = s.manager → (ovenRegs.zipIdx.any (fun r => badValue p 7 r.2 r.1)) = false → bit (p.getD 7 0) 31 = true → s.longBusy e.fn = false →
     exec (.ovenSet e) s = .next ((s.ovenWrite p (p.getD 7 0)).ticketed e c)) ∧
  (∀ (s : State) (e : Eci) (c : EciCmd) (p : List Nat), s.serves e c 0x0507 [] → p = c.words → e.fn = s.manager →
     exec (.ovenStatus e) s = .next (s.answers e RC_OK [s.val .OVN_STATUS 0, s.val .OVN_SENSE 0, (s.now - s.oven.since) / 1000000000])) ∧
  (∀ (s : State) (e : Eci) (c : EciCmd) (p : List Nat), s.serves e c 0x0600 [] → p = c.words → e.fn = s.manager →
     exec (.relCaps e) s = .next (s.answers e RC_OK (two (s.val .REL_CAPACITY 0) ++ two (s.val .REL_ADMITTED 0) ++ [16384 - s.srcUsed, 4096 - s.dstUsed]))) ∧
  (∀ (s : State) (e : Eci) (c : EciCmd) (p : List Nat) (t u v : State) (b q : Bytes) (rc rc' n : Nat) (w : List Nat), s.serves e c 0x0601 [low 6, W32, W32] → p = c.words → e.fn = s.manager → s.dmaIn e.fn (w64 p 1) 32 e.io.head? = (t, some b, rc) → leAt b 0 4 / 2 = 0 → leAt b 4 4 / 2 ^ 20 = 0 → leAt b 12 20 = 0 → leAt b 8 2 ≤ 1024 → leAt b 10 2 ≤ 256 → (if leAt b 8 2 + leAt b 10 2 = 0 then (t, some [], 0) else t.dmaIn e.fn (w64 p 1 + 32) (8 * (leAt b 8 2 + leAt b 10 2)) (e.io.drop 1).head?) = (u, some q, rc') → u.setGroup (p.getD 0 0) { en := leAt b 0 4 = 1, delay := leAt b 4 4, src := entries64 q 0 (leAt b 8 2), dst := entries64 q (8 * leAt b 8 2) (leAt b 10 2) } = .done v n w →
     exec (.relGroupSet e) s = .next (v.answers e n w)) ∧
  (∀ (s : State) (e : Eci) (c : EciCmd) (p : List Nat) (b : Bytes) (t : State) (rc : Nat) (w : List Nat), s.serves e c 0x0602 [low 6 + 2 ^ 31, W32, W32, W32] → p = c.words → e.fn = s.manager → b = s.groupBytes ((if bit (p.getD 0 0) 31 then s.groupsOper else s.groupsAdmin).get (bits (p.getD 0 0) 5 0)) → s.bufferOut e.fn (w64 p 1) (p.getD 3 0) b e.io.head? [b.length] = .done t rc w →
     exec (.relGroupQuery e) s = .next (t.answers e rc w)) ∧
  (∀ (s : State) (e : Eci) (c : EciCmd) (p : List Nat), s.serves e c 0x0603 stampMasks → p = c.words → (!bit (p.getD 0 0) 31) = true → e.fn = s.manager → (s.noStampRing e.fn (p.getD 1 0)) = false →
     exec (.relStampRing e) s = .next (({ s with stampRing := s.stampRing.setD (p.getD 0 0) (some (cqKey (p.getD 1 0))) none }).answers e RC_OK [])) ∧
  (∀ (s : State) (e : Eci) (c : EciCmd) (p : List Nat), s.serves e c 0x0603 stampMasks → p = c.words → (bit (p.getD 0 0) 31) = true → e.fn = s.manager →
     exec (.relStampRingClear e) s = .next (({ s with stampRing := s.stampRing.setD (bits (p.getD 0 0) 3 0) none none }).answers e RC_OK [])) ∧
  (∀ (s : State) (e : Eci) (c : EciCmd) (p : List Nat), s.serves e c 0x0604 [low 18 + 2 ^ 31] → p = c.words → (bit (p.getD 0 0) 31) = true → e.fn = s.manager → (s.jrings.getD (bits (p.getD 0 0) 17 0) none).isSome = true →
     exec (.jnlQueueSet e) s = .next ((s.journalled (p.getD 0 0)).answers e RC_OK [])) ∧
  (∀ (s : State) (e : Eci) (c : EciCmd) (p : List Nat), s.serves e c 0x0604 [low 18 + 2 ^ 31] → p = c.words → (bit (p.getD 0 0) 31) = true → e.fn = s.manager → (s.jrings.getD (bits (p.getD 0 0) 17 0) none).isSome = false → s.jrings.length < 8192 →
     exec (.jnlQueueSet e) s = .next ((({ s with jrings := s.jrings.setD (bits (p.getD 0 0) 17 0) (some {}) none } : State).journalled (p.getD 0 0)).answers e RC_OK [])) ∧
  (∀ (s : State) (e : Eci) (c : EciCmd) (p : List Nat) (t : State), s.serves e c 0x0604 [low 18 + 2 ^ 31] → p = c.words → (!bit (p.getD 0 0) 31) = true → e.fn = s.manager → t = s.closeDigest (p.getD 0 0) →
     exec (.jnlQueueRemove e) s = .next ((({ t with jrings := t.jrings.setD (p.getD 0 0) none none } : State).journalled (p.getD 0 0)).answers e RC_OK [])) ∧
  (∀ (s : State) (e : Eci) (c : EciCmd) (p : List Nat) (t : State) (rc : Nat) (w : List Nat), s.serves e c 0x0605 [W32, W32, W32] → p = c.words → e.fn = s.manager → s.bufferOut e.fn (w64 p 0) (p.getD 2 0) Config.certificate e.io.head? [Config.certificate.length] = .done t rc w →
     exec (.jnlIdentity e) s = .next (t.answers e rc w)) ∧
  (∀ (s : State) (e : Eci) (c : EciCmd) (p : List Nat), s.serves e c 0x0606 [] → p = c.words → e.fn = s.manager →
     exec (.jnlStatus e) s = .next (s.answers e RC_OK (two (s.val .JNL_CHAIN_ID 0) ++ two (s.val .JNL_HEAD_RSEQ 0) ++ respOf (fit 48 (s.journal.head.getD []))))) ∧
  (∀ (s : State) (e : Eci) (c : EciCmd) (p : List Nat), s.serves e c 0x0607 [] → p = c.words → e.fn = s.manager → s.val .JNL_PROD 0 = s.val .JNL_CONS 0 →
     exec (.jnlRestart e) s = .next ((s.startChain 1).answers e RC_OK (two ((s.startChain 1).val .JNL_CHAIN_ID 0)))) ∧
  (∀ (s : State) (e : Eci) (c : EciCmd) (p : List Nat), s.serves e c 0x0607 [] → p = c.words → e.fn = s.manager → s.val .JNL_PROD 0 ≠ s.val .JNL_CONS 0 →
     exec (.jnlRestart e) s = .next (s.answers e RC_BUSY []))

/-- A served, permitted and legal OFL command reports capacities, creates a context at a free index and answers its index and key check values, destroys it at once or when its last use has ended, reads it, modifies it unless it is fenced, sets quotas, or hands out notifications. It arms a session's receive or NVMe half anew, drops a placement entry, writes or removes a MACsec SA, or names a port's transmit AN; a fenced or unready session gives its code. -/
def Obligations.OffloadObjects : Prop :=
  (∀ (s : State) (e : Eci) (c : EciCmd) (p : List Nat), s.serves e c 0x0700 [] → p = c.words →
     exec (.oflCaps e) s = .next (s.answers e RC_OK [ESP_COUNT - s.espSas.length, SESSION_COUNT - s.sessions.length, MACSEC_COUNT - s.macsec.length, PLACE_COUNT - s.places.length, (s.fn e.fn).grants.esp, (s.fn e.fn).grants.sessions, (s.fn e.fn).grants.places, s.espOf e.fn, s.sessOf e.fn, s.placesOf e.fn])) ∧
  (∀ (s : State) (e : Eci) (c : EciCmd) (p : List Nat) (i : Nat) (a : EspSa), s.serves e c 0x0701 (if (s.eciWords e).getD 0 0 % 4 = 1 then sessMasks else espMasks) → p = c.words → (s.createDenied e.fn) p = false → createBad p = false → p.getD 0 0 % 4 = 0 → a = espOfPayload p → s.espOf a.owner < (s.fn a.owner).grants.esp → s.espSas.length < ESP_COUNT → firstFree ESP_COUNT s.fresh (fun k => (s.espSas.get k).state != 0) = some i →
     exec (.oflCtxCreate e) s = .next (((((s.used.wakeGroups.setEsp i a).when (!a.inbound && decide (a.lastSeq ≤ a.seq)) (fun u => u.espExpire i)).oflUsed)).answers e RC_OK [i, keyCheck a.key])) ∧
  (∀ (s : State) (e : Eci) (c : EciCmd) (p : List Nat) (i : Nat) (a : Session) (t : State), s.serves e c 0x0701 (if (s.eciWords e).getD 0 0 % 4 = 1 then sessMasks else espMasks) → p = c.words → (s.createDenied e.fn) p = false → createBad p = false → p.getD 0 0 % 4 = 1 → a = sessOfPayload p → t = s.used → s.sessOf a.owner < (s.fn a.owner).grants.sessions → s.sessions.length < SESSION_COUNT → firstFree SESSION_COUNT s.fresh (fun k => (s.sessions.get k).state != 0) = some i →
     exec (.oflCtxCreate e) s = .next (((t.used.wakeGroups.setSession i a).oflUsed).answers e RC_OK [i, if a.tlsTx then keyCheck a.txKey else t.fresh % 2 ^ 32, if a.tlsRx then keyCheck a.rxKey else t.fresh % 2 ^ 32])) ∧
  (∀ (s : State) (e : Eci) (c : EciCmd) (p : List Nat), s.serves e c 0x0702 [3 + 2 ^ 16 * low 12, low 20] → p = c.words → (s.ctxDenied e.fn) p = false → (s.noCtx (ctxKind p) (ctxOwner p) (ctxNo p)) = false → (ctxKind p = 2 ∨ s.ctxBusy (ctxKind p) (ctxNo p) = false) →
     exec (.oflCtxDestroy e) s = .next ((s.dropCtx (ctxKind p) (ctxNo p)).answers e RC_OK [])) ∧
  (∀ (s : State) (e : Eci) (c : EciCmd) (p : List Nat), s.serves e c 0x0702 [3 + 2 ^ 16 * low 12, low 20] → p = c.words → (s.ctxDenied e.fn) p = false → (s.noCtx (ctxKind p) (ctxOwner p) (ctxNo p)) = false → ctxKind p ≠ 2 → s.ctxBusy (ctxKind p) (ctxNo p) = true →
     exec (.oflCtxDestroy e) s = .next (s.ctxDying (ctxKind p) (ctxNo p))) ∧
  (∀ (s : State) (e : Eci) (c : EciCmd) (p : List Nat), s.serves e c 0x0703 [3 + 2 ^ 16 * low 12, low 20] → p = c.words → (s.ctxDenied e.fn) p = false → (s.noCtx (ctxKind p) (ctxOwner p) (ctxNo p)) = false →
     exec (.oflCtxQuery e) s = .next (s.answers e RC_OK (respOf (s.ctxBytes (ctxKind p) (ctxNo p))))) ∧
  (∀ (s : State) (e : Eci) (c : EciCmd) (p : List Nat), s.serves e c 0x0704 ([3 + 2 ^ 16 * low 12, low 20, 7] ++ List.replicate 8 W32 ++ [low 13, low 17]) → p = c.words → (s.ctxDenied e.fn) p = false → (s.noCtx (ctxKind p) (ctxOwner p) (ctxNo p) || modifyBad p) = false → s.ctxState (ctxKind p) (ctxNo p) ≠ 3 →
     exec (.oflCtxModify e) s = .next ((s.ctxModify p).answers e RC_OK [])) ∧
  (∀ (s : State) (e : Eci) (c : EciCmd) (p : List Nat), s.serves e c 0x0704 ([3 + 2 ^ 16 * low 12, low 20, 7] ++ List.replicate 8 W32 ++ [low 13, low 17]) → p = c.words → (s.ctxDenied e.fn) p = false → (s.noCtx (ctxKind p) (ctxOwner p) (ctxNo p) || modifyBad p) = false → s.ctxState (ctxKind p) (ctxNo p) = 3 →
     exec (.oflCtxModify e) s = .next (s.answers e RC_FENCED [])) ∧
  (∀ (s : State) (e : Eci) (c : EciCmd) (p : List Nat) (mine : List (Nat × Nat × Nat × Nat)), s.serves e c 0x070B [] → p = c.words → mine = (s.oflNotes.filter (fun n => n.1 == e.fn)).take 60 →
     exec (.oflNotify e) s = .next (({ s with oflNotes := s.oflNotes.filter (fun n => !mine.contains n) }).answers e RC_OK (mine.length :: mine.map (fun (n : Nat × Nat × Nat × Nat) => n.2.2.1 + 2 ^ 20 * n.2.1 + 2 ^ 22 * n.2.2.2)))) ∧
  (∀ (s : State) (e : Eci) (c : EciCmd) (p : List Nat) (t : State), s.serves e c 0x070C [low 12, W32, W32, W32] → p = c.words → e.fn = s.manager → (noFunc p || decide (ESP_COUNT < p.getD 1 0 ∨ SESSION_COUNT < p.getD 2 0 ∨ PLACE_COUNT < p.getD 3 0)) = false → s.espOf (p.getD 0 0) ≤ p.getD 1 0 → s.sessOf (p.getD 0 0) ≤ p.getD 2 0 → s.placesOf (p.getD 0 0) ≤ p.getD 3 0 → t = s.modFn (p.getD 0 0) (fun x => { x with grants := { x.grants with esp := p.getD 1 0, sessions := p.getD 2 0, places := p.getD 3 0 } }) →
     exec (.oflQuota e) s = .next ((t.rewriteRom (p.getD 0 0)).answers e RC_OK [])) ∧
  (∀ (s : State) (e : Eci) (c : EciCmd) (p : List Nat), s.serves e c 0x070C [low 12, W32, W32, W32] → p = c.words → e.fn = s.manager → (noFunc p || decide (ESP_COUNT < p.getD 1 0 ∨ SESSION_COUNT < p.getD 2 0 ∨ PLACE_COUNT < p.getD 3 0)) = false → (p.getD 1 0 < s.espOf (p.getD 0 0) ∨ p.getD 2 0 < s.sessOf (p.getD 0 0) ∨ p.getD 3 0 < s.placesOf (p.getD 0 0)) →
     exec (.oflQuota e) s = .next (s.answers e RC_BUSY [])) ∧
  (∀ (s : State) (e : Eci) (c : EciCmd) (p : List Nat) (a : Session), s.serves e c 0x0705 [2 ^ 16 * low 12, low 20, W32, W32, W32] → p = c.words → (s.sessDenied e.fn) p = false → (s.noSession p (fun a => a.tlsRx)) = false → a = s.sessions.get (ctxNo p) → a.state ≠ 3 → a.rxState ≠ 0 →
     exec (.oflTlsResync e) s = .next ((s.setSession (ctxNo p) (a.arm (p.getD 2 0) (w64 p 3))).answers e RC_OK [])) ∧
  (∀ (s : State) (e : Eci) (c : EciCmd) (p : List Nat), s.serves e c 0x0705 [2 ^ 16 * low 12, low 20, W32, W32, W32] → p = c.words → (s.sessDenied e.fn) p = false → (s.noSession p (fun a => a.tlsRx)) = false → (s.sessions.get (ctxNo p)).state = 3 →
     exec (.oflTlsResync e) s = .next (s.answers e RC_FENCED [])) ∧
  (∀ (s : State) (e : Eci) (c : EciCmd) (p : List Nat) (a : Session) (key : Bytes), s.serves e c 0x0706 ([2 ^ 16 * low 12, low 20] ++ List.replicate 12 W32) → p = c.words → (s.sessDenied e.fn) p = false → (s.noSession p (fun a => a.tlsRx) || (!(s.sessions.get (ctxNo p)).key256 && anyWord p 7 4)) = false → a = s.sessions.get (ctxNo p) → a.state ≠ 3 → a.rxState ≠ 0 → key = wBytes p 3 (if a.key256 then 8 else 4) →
     exec (.oflTlsRxRekey e) s = .next ((s.setSession (ctxNo p) { a.arm (p.getD 2 0) 0 with rxKey := key, rxIv := wBytes p 11 3 }).answers e RC_OK [keyCheck key])) ∧
  (∀ (s : State) (e : Eci) (c : EciCmd) (p : List Nat) (a : Session), s.serves e c 0x0707 [2 ^ 16 * low 12, low 20, W32] → p = c.words → (s.sessDenied e.fn) p = false → (s.noSession p (fun a => a.nvme)) = false → a = s.sessions.get (ctxNo p) → a.state ≠ 3 → (a.nvState = 1 ∨ a.nvState = 3) →
     exec (.oflNvmeResync e) s = .next ((s.setSession (ctxNo p) { a with nvState := 2, nvRxSeq := p.getD 2 0, nvRx := {} }).answers e RC_OK [])) ∧
  (∀ (s : State) (e : Eci) (c : EciCmd) (p : List Nat), s.serves e c 0x0708 [2 ^ 16 * low 12, low 20, low 16] → p = c.words → (s.sessDenied e.fn) p = false → (s.noCtx 1 (ctxOwner p) (ctxNo p) || !(s.places.any (fun x => x.1 == placeKey (ctxNo p) (p.getD 2 0)))) = false →
     exec (.oflPlaceDrop e) s = .next ((({ s with places := s.places.filter (fun x => x.1 != placeKey (ctxNo p) (p.getD 2 0)) } : State).oflUsed.oflRest).answers e RC_OK [])) ∧
  (∀ (s : State) (e : Eci) (c : EciCmd) (p : List Nat) (i : Nat) (a : MacsecSa), s.serves e c 0x0709 macsecMasks → p = c.words → (!bit (p.getD 0 0) 0) = true → e.fn = s.manager → (!s.xpn (bits (p.getD 0 0) 7 4) && p.getD 5 0 != 0) = false → a = s.saOfPayload p → s.saPlace a = some i → (s.macsec.get i).state ≠ 3 →
     exec (.oflMacsecSa e) s = .next (({ s with macsec := s.macsec.set i a }).answers e RC_OK [i, keyCheck a.key])) ∧
  (∀ (s : State) (e : Eci) (c : EciCmd) (p : List Nat) (i : Nat), s.serves e c 0x0709 macsecMasks → p = c.words → (!bit (p.getD 0 0) 0) = true → e.fn = s.manager → (!s.xpn (bits (p.getD 0 0) 7 4) && p.getD 5 0 != 0) = false → s.saPlace (s.saOfPayload p) = some i → (s.macsec.get i).state = 3 →
     exec (.oflMacsecSa e) s = .next (s.answers e RC_FENCED [])) ∧
  (∀ (s : State) (e : Eci) (c : EciCmd) (p : List Nat) (i : Nat) (a : MacsecSa), s.serves e c 0x0709 macsecMasks → p = c.words → (!bit (p.getD 0 0) 0) = true → e.fn = s.manager → (!s.xpn (bits (p.getD 0 0) 7 4) && p.getD 5 0 != 0) = false → a = s.saOfPayload p → s.saPlace a = none → (a.rx = false ∨ (s.rxChannels a.port).contains a.sci = true ∨ (s.rxChannels a.port).length < 64) → firstFree MACSEC_COUNT s.fresh (fun k => (s.macsec.get k).state != 0) = some i →
     exec (.oflMacsecSa e) s = .next ((({ s.used with macsec := s.macsec.set i a } : State).oflUsed).answers e RC_OK [i, keyCheck a.key])) ∧
  (∀ (s : State) (e : Eci) (c : EciCmd) (p : List Nat) (i : Nat), s.serves e c 0x0709 macsecMasks → p = c.words → (bit (p.getD 0 0) 0) = true → e.fn = s.manager → ((s.saPlace (s.saOfPayload p)).isNone) = false → s.saPlace (s.saOfPayload p) = some i →
     exec (.oflMacsecSaRemove e) s = .next ((s.used.dropCtx 2 i).answers e RC_OK [i, s.fresh % 2 ^ 32])) ∧
  (∀ (s : State) (e : Eci) (c : EciCmd) (p : List Nat), s.serves e c 0x070A [low 6] → p = c.words → e.fn = s.manager →
     exec (.oflMacsecTxAn e) s = .next ((s.wr F.OFL_MACSEC_PORT_TX_AN (bits (p.getD 0 0) 3 0) (bits (p.getD 0 0) 5 4)).answers e RC_OK []))

/-- A served, permitted and legal FRER command reports free members and contexts, writes or clears a member, writes, clears, reads or resets a sequence context, and is answered; a context that a member names, or a fenced one, gives its code. A primary sends its periodic messages every millisecond and resends its flows; a standby keeps its peer's messages and reports silence; a served MIR command configures the pair, reports it, takes over, resolves a divergence or starts a resend, and is answered. When each waits is the model's reading (log 117 to 120). -/
def Obligations.RedundancyAndMirror : Prop :=
  (∀ (s : State) (e : Eci) (c : EciCmd) (p : List Nat), s.serves e c 0x0800 [] → p = c.words → e.fn = s.manager →
     exec (.frerCaps e) s = .next (s.answers e RC_OK [4096 - s.validMembers.length, 2048 - (s.frer.filter (fun x => x.2.kind != 0)).length])) ∧
  (∀ (s : State) (e : Eci) (c : EciCmd) (p : List Nat), s.serves e c 0x0801 memberMasks → p = c.words → (!bit (p.getD 0 0) 31) = true → e.fn = s.manager → (s.memberRefused (p.getD 0 0) (wBytes p 1 4)) = false →
     exec (.frerMemberSet e) s = .next (({ s with members := s.members.set (p.getD 0 0) (wBytes p 1 4) }).answers e RC_OK [])) ∧
  (∀ (s : State) (e : Eci) (c : EciCmd) (p : List Nat), s.serves e c 0x0801 memberMasks → p = c.words → (bit (p.getD 0 0) 31) = true → e.fn = s.manager →
     exec (.frerMemberClear e) s = .next (({ s with members := s.members.set (bits (p.getD 0 0) 11 0) [] }).answers e RC_OK [])) ∧
  (∀ (s : State) (e : Eci) (c : EciCmd) (p : List Nat), s.serves e c 0x0802 ctxMasks → p = c.words → (!bit (p.getD 0 0) 31) = true → e.fn = s.manager → (s.ctxRefused (p.getD 0 0) { cfg := wBytes p 1 4 }) = false →
     exec (.frerCtxSet e) s = .next (((s.modCtx (p.getD 0 0) (fun x => if 2 ≤ ({ x with cfg := wBytes p 1 4 } : FrerCtx).kind then ({ x with cfg := wBytes p 1 4 } : FrerCtx).reset else { x with cfg := wBytes p 1 4 })).unfence (unitObject 6) (p.getD 0 0)).answers e RC_OK [])) ∧
  (∀ (s : State) (e : Eci) (c : EciCmd) (p : List Nat), s.serves e c 0x0802 ctxMasks → p = c.words → (bit (p.getD 0 0) 31) = true → e.fn = s.manager → s.validMembers.any (fun m => mbCtx m.2 == bits (p.getD 0 0) 10 0) = false →
     exec (.frerCtxClear e) s = .next ((({ s with frer := s.frer.set (bits (p.getD 0 0) 10 0) {} } : State).unfence (unitObject 6) (bits (p.getD 0 0) 10 0)).answers e RC_OK [])) ∧
  (∀ (s : State) (e : Eci) (c : EciCmd) (p : List Nat), s.serves e c 0x0802 ctxMasks → p = c.words → (bit (p.getD 0 0) 31) = true → e.fn = s.manager → s.validMembers.any (fun m => mbCtx m.2 == bits (p.getD 0 0) 10 0) = true →
     exec (.frerCtxClear e) s = .next (s.answers e RC_BUSY [])) ∧
  (∀ (s : State) (e : Eci) (c : EciCmd) (p : List Nat), s.serves e c 0x0803 [low 11, W32, W32] → p = c.words → e.fn = s.manager → w64 p 1 = 0 →
     exec (.frerCtxQuery e) s = .next (s.answers e RC_OK (respOf (fit 16 (s.ctx (p.getD 0 0)).cfg) ++ [(s.ctx (p.getD 0 0)).rcv] ++ s.ctxCounters (p.getD 0 0)))) ∧
  (∀ (s : State) (e : Eci) (c : EciCmd) (p : List Nat) (t : State) (rc : Nat) (w : List Nat), s.serves e c 0x0803 [low 11, W32, W32] → p = c.words → e.fn = s.manager → w64 p 1 ≠ 0 → s.bufferOut e.fn (w64 p 1) 256 (leBytes 256 (s.ctx (p.getD 0 0)).hist) e.io.head? (respOf (fit 16 (s.ctx (p.getD 0 0)).cfg) ++ [(s.ctx (p.getD 0 0)).rcv] ++ s.ctxCounters (p.getD 0 0)) = .done t rc w →
     exec (.frerCtxQuery e) s = .next (t.answers e rc w)) ∧
  (∀ (s : State) (e : Eci) (c : EciCmd) (p : List Nat), s.serves e c 0x0804 [low 11] → p = c.words → e.fn = s.manager → (decide ((s.ctx (p.getD 0 0)).kind < 2)) = false → s.isFenced (unitObject 6) (p.getD 0 0) = false →
     exec (.frerCtxReset e) s = .next ((s.modCtx (p.getD 0 0) FrerCtx.reset).answers e RC_OK [])) ∧
  (∀ (s : State) (e : Eci) (c : EciCmd) (p : List Nat), s.serves e c 0x0804 [low 11] → p = c.words → e.fn = s.manager → (decide ((s.ctx (p.getD 0 0)).kind < 2)) = false → s.isFenced (unitObject 6) (p.getD 0 0) = true →
     exec (.frerCtxReset e) s = .next (s.answers e RC_FENCED [])) ∧
  (∀ (s t : State), s.mirRole = 1 → s.mir.periodAt + 1000000 ≤ s.now → t = s.resyncDue.mirrorHead.mirrorFrer.mirrorRelease →
     exec .mirPeriodicSend s = .next (
     let u := if s.mir.periodAt < s.mir.txAt ∨ t.mir.mseq ≠ s.mir.mseq then t else t.mirrorSend 5 []
     { u with mir := { u.mir with periodAt := s.now } })) ∧
  (∀ (s : State) (msg : Bytes), s.mirRole = 1 → leAt msg 0 1 = 1 → leAt msg 1 1 = 1 → beAt msg 2 2 = s.rd F.MIR_CTRL_PEER 0 → beAt msg 4 4 = s.mir.pair → 16 ≤ msg.length →
     exec (.mirMessageRx msg) s = .next (s.raise Ev.MIR_DUAL_PRIMARY)) ∧
  (∀ (s : State) (msg : Bytes), 2 ≤ s.mirRole → leAt msg 0 1 = 1 → beAt msg 2 2 = s.rd F.MIR_CTRL_PEER 0 → beAt msg 4 4 = s.mir.pair → 16 ≤ msg.length →
     exec (.mirMessageRx msg) s = .next (((({ s with mir := { s.mir with rxAt := s.now, silent := false } } : State).put .MIR_LAST_RX 0 s.stamp).mirGap (beAt msg 8 4)).mirKeep (leAt msg 1 1) (msg.drop 16))) ∧
  (∀ (s : State), 2 ≤ s.mirRole → s.mir.silent = false → s.mir.rxAt + 10000000 ≤ s.now →
     exec .mirPeerSilent s = .next (({ s with mir := { s.mir with silent := true } } : State).raise Ev.MIR_PEER_SILENT)) ∧
  (∀ (s t : State), t = s.resyncDue → t.mir.resync.isSome = true → t.mir.left = [] →
     exec .mirResyncDone s = .next (({ t with mir := { t.mir with resync := none } } : State).raise Ev.MIR_RESYNC_DONE)) ∧
  (∀ (s t : State), t = s.resyncDue → t.mir.left ≠ [] → exec .mirResyncDone s = .next t) ∧
  (∀ (s : State) (e : Eci) (c : EciCmd) (p : List Nat) (t : State), s.serves e c 0x0805 [3 + 2 ^ 4 * low 16, W32, low 12, W32, low 16] → p = c.words → e.fn = s.manager → (p.getD 0 0 % 4 == 3) = false → t = s.put .MIR_CTRL 0 (2 ^ 30 * (p.getD 0 0 % 4) + 2 ^ 24 * bits (p.getD 0 0) 7 4 + 2 ^ 12 * bits (p.getD 0 0) 19 8 + p.getD 2 0) →
     exec (.mirCfg e) s = .next (({ t with mir := { t.mir with pair := p.getD 1 0, peerMac := w64 p 3, expect := none, rxAt := t.now, silent := false, heads := [], frer := [], rel := [], resync := none, left := [], periodAt := t.now } }).answers e RC_OK [])) ∧
  (∀ (s : State) (e : Eci) (c : EciCmd) (p : List Nat) (b : Bytes), s.serves e c 0x0806 [] → p = c.words → e.fn = s.manager → b = fit 64 (s.mir.heads.getLastD []) →
     exec (.mirStatus e) s = .next (s.answers e RC_OK ([s.val .MIR_CTRL 0] ++ two (s.val .MIR_LAST_RX 0) ++ two (s.val .MIR_GAP 0) ++ [s.mir.heads.length] ++ two (headSeq b) ++ two (headChain b)))) ∧
  (∀ (s : State) (e : Eci) (c : EciCmd) (p : List Nat) (t : State) (rc : Nat) (w : List Nat), s.serves e c 0x0807 (1 :: List.replicate 8 W32) → p = c.words → e.fn = s.manager → s.mirRole = 2 → s.mir.heads.isEmpty = false → p.getD 0 0 = 0 → s.takeover false = .done t rc w →
     exec (.mirTakeover e) s = .next (t.answers e rc w)) ∧
  (∀ (s : State) (e : Eci) (c : EciCmd) (p : List Nat) (t : State) (rc : Nat) (w : List Nat), s.serves e c 0x0807 (1 :: List.replicate 8 W32) → p = c.words → e.fn = s.manager → s.mirRole = 2 → s.mir.heads.isEmpty = false → p.getD 0 0 ≠ 0 → s.mir.heads.all (fun x => decide (headSeq x < w64 p 3)) = false → s.mir.heads.any (fun x => headSeq x == w64 p 3 && (headChain x != w64 p 1 || (headHash x).drop 32 != wBytes p 5 4)) = false → s.takeover false = .done t rc w →
     exec (.mirTakeover e) s = .next (t.answers e rc w)) ∧
  (∀ (s : State) (e : Eci) (c : EciCmd) (p : List Nat), s.serves e c 0x0807 (1 :: List.replicate 8 W32) → p = c.words → e.fn = s.manager → s.mirRole = 2 → s.mir.heads.isEmpty = false → p.getD 0 0 ≠ 0 → s.mir.heads.all (fun x => decide (headSeq x < w64 p 3)) = false → s.mir.heads.any (fun x => headSeq x == w64 p 3 && (headChain x != w64 p 1 || (headHash x).drop 32 != wBytes p 5 4)) = true →
     exec (.mirTakeover e) s = .next (((s.wr F.MIR_CTRL_ROLE 0 3).raise Ev.MIR_DIVERGED).answers e 0x80 [])) ∧
  (∀ (s : State) (e : Eci) (c : EciCmd) (p : List Nat) (t : State) (rc : Nat) (w : List Nat), s.serves e c 0x0808 [1] → p = c.words → e.fn = s.manager → s.mirRole = 3 → s.takeover (p.getD 0 0 == 1) = .done t rc w →
     exec (.mirResolve e) s = .next (t.answers e rc w)) ∧
  (∀ (s : State) (e : Eci) (c : EciCmd) (p : List Nat), s.serves e c 0x0809 [] → p = c.words → e.fn = s.manager → s.mirRole = 1 → s.mir.resync = none →
     exec (.mirResync e) s = .next (({ s with mir := { s.mir with resync := some s.now, left := s.mirroredFlow.map FlowEntry.key } }).answers e RC_OK [])) ∧
  (∀ (s : State) (e : Eci) (c : EciCmd) (p : List Nat), s.serves e c 0x0809 [] → p = c.words → e.fn = s.manager → s.mirRole ≠ 1 →
     exec (.mirResync e) s = .next (s.answers e RC_NOT_READY []))

/-- EPOCH_STAGE reads what its KIND names, refuses what is malformed and starts the staging; EPOCH_COMMIT arms a staged change; EPOCH_ABANDON discards it; EPOCH_STATUS reads it; every unit switches at the commit instant; the drain ends when no unit holds old state. -/
def Obligations.EpochCommands : Prop :=
  (∀ (s : State) (e : Eci) (c : EciCmd) (p : List Nat) (s1 s2 s3 s4 s5 : State) (grd head plan cb pb : Bytes) (r1 r2 r3 r4 r5 kind n : Nat) (cust patch : Bool), s.serves e c 0x0900 (low 5 :: List.replicate 11 W32) → p = c.words → e.fn = s.manager → kind = p.getD 0 0 → n = leAt head 0 8 → cust = (bit kind 0 && w64 p 1 != 0) → patch = (bit kind 0 && w64 p 4 != 0) → (bit kind 1 && !(List.range 4).any (fun m => p.getD 9 0 == 16 + 9232 * (m + 1))) = false → (if bit kind 1 then s.dmaIn e.fn (w64 p 7) (p.getD 9 0) (e.io.getD 0 (.data [])) else (s, some [], 0)) = (s1, some grd, r1) → (bit kind 1 && grdBad grd) = false → (if bit kind 4 then s1.dmaIn e.fn (w64 p 10) 8 (e.io.getD 1 (.data [])) else (s1, some [], 0)) = (s2, some head, r2) → (bit kind 4 && decide (n = 0 ∨ 32 < n)) = false → (if bit kind 4 then s2.dmaIn e.fn (w64 p 10 + 8) (8 * n) (e.io.getD 2 (.data [])) else (s2, some [], 0)) = (s3, some plan, r3) → s3.planBad plan = false → s3.longBusy e.fn = false → s3.on F.GLB_EPOCH_STATUS_STAGING 0 = false → s3.on F.GLB_EPOCH_STATUS_STAGED 0 = false → s3.on F.GLB_EPOCH_STATUS_ARMED 0 = false → (s3.on F.GLB_EPOCH_STATUS_DRAINING 0 && (cust || patch)) = false → (if cust && imgReadable (p.getD 3 0) then s3.dmaIn e.fn (w64 p 1) (p.getD 3 0) (e.io.getD 3 (.data [])) else (s3, some [], 0)) = (s4, some cb, r4) → (if patch && imgReadable (p.getD 6 0) then s4.dmaIn e.fn (w64 p 4) (p.getD 6 0) (e.io.getD 4 (.data [])) else (s4, some [], 0)) = (s5, some pb, r5) →
     exec (.epochStage e) s = .next ((s5.stageStart { kind := kind, grd := grd, plan := planEntries plan, cust := if cust then some { bytes := cb, len := p.getD 3 0 } else none, patch := if patch then some { bytes := pb, len := p.getD 6 0 } else none }).ticketed e c)) ∧
  (∀ (s : State) (e : Eci) (c : EciCmd) (p : List Nat), s.serves e c 0x0901 [W32, W32] → p = c.words → e.fn = s.manager → (let lead := (w64 p 0 + W64 - s.stamp) % W64; decide (lead < 800000 ∨ 80000000000 < lead)) = false → s.on F.GLB_EPOCH_STATUS_STAGED 0 = true → s.on F.GLB_EPOCH_STATUS_DRAINING 0 = false →
     exec (.epochCommit e) s = .next ((((s.wr F.GLB_EPOCH_STATUS_STAGED 0 0).wr F.GLB_EPOCH_STATUS_ARMED 0 1).put .GLB_EPOCH_COMMIT_TIME 0 (w64 p 0)).answers e RC_OK [])) ∧
  (∀ (s : State) (e : Eci) (c : EciCmd) (p : List Nat), s.serves e c 0x0901 [W32, W32] → p = c.words → e.fn = s.manager → (let lead := (w64 p 0 + W64 - s.stamp) % W64; decide (lead < 800000 ∨ 80000000000 < lead)) = false → s.on F.GLB_EPOCH_STATUS_STAGED 0 = false →
     exec (.epochCommit e) s = .next (s.answers e RC_STAGE_FAILED [])) ∧
  (∀ (s : State) (e : Eci) (c : EciCmd) (p : List Nat), s.serves e c 0x0901 [W32, W32] → p = c.words → e.fn = s.manager → (let lead := (w64 p 0 + W64 - s.stamp) % W64; decide (lead < 800000 ∨ 80000000000 < lead)) = false → s.on F.GLB_EPOCH_STATUS_STAGED 0 = true → s.on F.GLB_EPOCH_STATUS_DRAINING 0 = true →
     exec (.epochCommit e) s = .next (s.answers e RC_EPOCH_CONFLICT [])) ∧
  (∀ (s : State) (e : Eci) (c : EciCmd) (p : List Nat), s.serves e c 0x0902 [] → p = c.words → e.fn = s.manager → s.on F.GLB_EPOCH_STATUS_STAGED 0 = true →
     exec (.epochAbandon e) s = .next (s.discardShadow.answers e RC_OK [])) ∧
  (∀ (s : State) (e : Eci) (c : EciCmd) (p : List Nat), s.serves e c 0x0902 [] → p = c.words → e.fn = s.manager → s.on F.GLB_EPOCH_STATUS_STAGED 0 = false → s.on F.GLB_EPOCH_STATUS_STAGING 0 = false → (s.on F.GLB_EPOCH_STATUS_ARMED 0 = true ∨ s.on F.GLB_EPOCH_STATUS_DRAINING 0 = true) →
     exec (.epochAbandon e) s = .next (s.answers e RC_EPOCH_CONFLICT [])) ∧
  (∀ (s : State) (e : Eci) (c : EciCmd) (p : List Nat) (sh : Shadow) (fs : List Nat), s.serves e c 0x0902 [] → p = c.words → e.fn = s.manager → s.on F.GLB_EPOCH_STATUS_STAGED 0 = false → s.on F.GLB_EPOCH_STATUS_STAGING 0 = true → sh = s.shadow.getD {} → fs = s.stagers →
     exec (.epochAbandon e) s = .next (((s.journalAttempt sh 0x87 0x87).discardShadow.each fs (fun f u => u.longDone f 0x87 (stageWords sh [] 0 0))).answers e RC_OK [])) ∧
  (∀ (s : State) (e : Eci) (c : EciCmd) (p : List Nat), s.serves e c 0x0902 [] → p = c.words → e.fn = s.manager → s.on F.GLB_EPOCH_STATUS_STAGED 0 = false → s.on F.GLB_EPOCH_STATUS_STAGING 0 = false → s.on F.GLB_EPOCH_STATUS_ARMED 0 = false → s.on F.GLB_EPOCH_STATUS_DRAINING 0 = false →
     exec (.epochAbandon e) s = .next (s.answers e RC_OK [])) ∧
  (∀ (s : State) (e : Eci) (c : EciCmd) (p : List Nat), s.serves e c 0x0903 [] → p = c.words → e.fn = s.manager →
     exec (.epochStatus e) s = .next (s.answers e RC_OK (s.val .GLB_EPOCH_STATUS 0 :: two (s.val .GLB_EPOCH_COMMIT_TIME 0)))) ∧
  (∀ (s : State) (sh : Shadow), s.shadow = some sh → s.on F.GLB_EPOCH_STATUS_ARMED 0 = true → stampLe (s.val .GLB_EPOCH_COMMIT_TIME 0) s.stamp = true →
     exec .epochCommitted s = .next (s.commitEpoch sh)) ∧
  (∀ (s : State), (s.on F.GLB_EPOCH_STATUS_ARMED 0 = false ∨ stampLe (s.val .GLB_EPOCH_COMMIT_TIME 0) s.stamp = false) →
     exec .epochCommitted s = .next s) ∧
  (∀ (s t u v w : State) (old use : Nat), s.on F.GLB_EPOCH_STATUS_DRAINING 0 = true → s.oldHeld = false → old = s.bankFor (1 - s.current) → use = s.bankFor s.current → t = s.wr F.GLB_EPOCH_STATUS_DRAINING 0 0 → u = t.when (old != use) (fun x => (x.when ((x.banks.get old).region != (x.banks.get use).region) (fun y => y.freeRegions (y.banks.get old).region)).bankState old 3) → v = { u with groupsOld := none } → w = ((v.each (List.range 64) (fun g x => x.relSync g)).admitSync).raise Ev.EPOCH_DRAINED →
     exec .epochDrained s = .next (w.swapsDone.journalCfg 0x04 1 (leBytes 8 w.stamp ++ leBytes 1 (w.rd F.GLB_EPOCH_STATUS_CHANGE_COUNT 0)))) ∧
  (∀ (s : State), (s.on F.GLB_EPOCH_STATUS_DRAINING 0 = false ∨ s.oldHeld = true) → exec .epochDrained s = .next s)

/-- A served, permitted and legal ECI or QUEUE command answers the firmware's version, the identity or the function's information, hands out a long command's result, creates or destroys the admin queue, and creates, destroys, starts, stops, invalidates or reads a ring; a queue that exists, a ring that runs and a full grant give their codes. -/
def Obligations.QueueCommands : Prop :=
  (∀ (s : State) (e : Eci) (c : EciCmd) (p : List Nat), s.serves e c 0x0000 [] → p = c.words →
     exec (.eciVersion e) s = .next (s.answers e RC_OK s.versionWords)) ∧
  (∀ (s : State) (e : Eci) (c : EciCmd) (p : List Nat), s.serves e c 0x0001 [] → p = c.words →
     exec (.eciIdentity e) s = .next (s.answers e RC_OK s.identityWords)) ∧
  (∀ (s : State) (e : Eci) (c : EciCmd) (p : List Nat), s.serves e c 0x0002 [] → p = c.words →
     exec (.eciFuncInfo e) s = .next (s.answers e RC_OK [s.infoWord e.fn])) ∧
  (∀ (s : State) (e : Eci) (c : EciCmd) (p : List Nat) (l : LongCmd), s.serves e c 0x0003 [low 16] → p = c.words → s.longs.getD e.fn none = some l → l.path = .mailbox → l.ticket = p.getD 0 0 → l.final = none →
     exec (.eciPoll e) s = .next (s.answers e RC_IN_PROGRESS [])) ∧
  (∀ (s : State) (e : Eci) (c : EciCmd) (p : List Nat) (l : LongCmd) (rc : Nat) (w : List Nat), s.serves e c 0x0003 [low 16] → p = c.words → s.longs.getD e.fn none = some l → l.path = .mailbox → l.ticket = p.getD 0 0 → l.final = some (rc, w) →
     exec (.eciPoll e) s = .next (({ s with longs := s.longs.setD e.fn none none }).answers e rc w)) ∧
  (∀ (s : State) (e : Eci) (c : EciCmd) (p : List Nat), s.serves e c 0x0100 [W32, W32, W32, W32, 0x07FF000F] → p = c.words → (s.adminBad e.fn) p = false → (s.ring (adminSqKey e.fn)).state = 0 →
     exec (.adminCreate e) s = .next ((s.createAdmin e.fn p).answers e RC_OK [])) ∧
  (∀ (s : State) (e : Eci) (c : EciCmd) (p : List Nat), s.serves e c 0x0100 [W32, W32, W32, W32, 0x07FF000F] → p = c.words → (s.adminBad e.fn) p = false → (s.ring (adminSqKey e.fn)).state ≠ 0 →
     exec (.adminCreate e) s = .next (s.answers e RC_BUSY [])) ∧
  (∀ (s : State) (e : Eci) (c : EciCmd) (p : List Nat), s.serves e c 0x0101 [] → p = c.words → s.adminCmd.getD e.fn none = none → (s.ring (adminSqKey e.fn)).state ≠ 0 →
     exec (.adminDestroy e) s = .next ((s.destroyAdmin e.fn).answers e RC_OK [])) ∧
  (∀ (s : State) (e : Eci) (c : EciCmd) (p : List Nat), s.serves e c 0x0101 [] → p = c.words → s.adminCmd.getD e.fn none = none → (s.ring (adminSqKey e.fn)).state = 0 →
     exec (.adminDestroy e) s = .next (s.answers e RC_NOT_READY [])) ∧
  (∀ (s : State) (e : Eci) (c : EciCmd) (p : List Nat) (r : Ring) (t : State) (n : Nat), s.serves e c 0x0102 (List.replicate 16 W32) → p = c.words → (s.ringDenied (s.newRing e.fn p)) = false → (s.ringBad (s.newRing e.fn p)) = false → r = s.newRing e.fn p → t = s.used → (r.mgmt = false ∨ t.rings.any (fun x => x.2.state != 0 && x.2.mgmt && x.2.kind == r.kind) = false) → t.ringsHeld r.kind (some e.fn) < (t.fn e.fn).grants.rings r.kind → firstFree 131072 t.fresh (fun k => (t.ring (ringKey r.kind k)).state != 0) = some n →
     exec (.queueCreate e) s = .next (({ t.used with rings := t.rings.set (ringKey r.kind n) r }).answers e RC_OK [n + 2 ^ 17 * r.pipe])) ∧
  (∀ (s : State) (e : Eci) (c : EciCmd) (p : List Nat) (r : Ring) (t : State), s.serves e c 0x0102 (List.replicate 16 W32) → p = c.words → (s.ringDenied (s.newRing e.fn p)) = false → (s.ringBad (s.newRing e.fn p)) = false → r = s.newRing e.fn p → t = s.used → (t.fn e.fn).grants.rings r.kind ≤ t.ringsHeld r.kind (some e.fn) →
     exec (.queueCreate e) s = .next (t.answers e RC_LIMIT [])) ∧
  (∀ (s : State) (e : Eci) (c : EciCmd) (p : List Nat) (k : Nat), s.serves e c 0x0103 [low 21] → p = c.words → (s.notMine e.fn) p = false → s.noSuchRing p = false → k = namedRing p → (s.ring k).stopped = true → s.boundTo k = false → s.jobs.any (fun j => j.2.ring == k && (s.ring k).kind != 2 && (s.ring k).kind != 3) = false →
     exec (.queueDestroy e) s = .next (((s.countFrom e (s.ring k).doneAt).removeRing k).answers e RC_OK [])) ∧
  (∀ (s : State) (e : Eci) (c : EciCmd) (p : List Nat) (k : Nat), s.serves e c 0x0103 [low 21] → p = c.words → (s.notMine e.fn) p = false → s.noSuchRing p = false → k = namedRing p → ((s.ring k).stopped = false ∨ s.boundTo k = true) →
     exec (.queueDestroy e) s = .next (s.answers e RC_BUSY [])) ∧
  (∀ (s : State) (e : Eci) (c : EciCmd) (p : List Nat) (k : Nat), s.serves e c 0x0103 [low 21] → p = c.words → (s.notMine e.fn) p = false → s.noSuchRing p = false → k = namedRing p → (s.ring k).stopped = true → s.boundTo k = false → s.jobs.any (fun j => j.2.ring == k && (s.ring k).kind != 2 && (s.ring k).kind != 3) = true →
     exec (.queueDestroy e) s = .next s) ∧
  (∀ (s : State) (e : Eci) (c : EciCmd) (p : List Nat), s.serves e c 0x0104 [low 21] → p = c.words → (s.notMine e.fn) p = false → s.noSuchRing p = false → (s.fn (s.ring (namedRing p)).fn).bme = true →
     exec (.queueStart e) s = .next ((s.startRing (namedRing p)).answers e RC_OK [])) ∧
  (∀ (s : State) (e : Eci) (c : EciCmd) (p : List Nat), s.serves e c 0x0104 [low 21] → p = c.words → (s.notMine e.fn) p = false → s.noSuchRing p = false → (s.fn (s.ring (namedRing p)).fn).bme = false →
     exec (.queueStart e) s = .next (s.answers e RC_NOT_READY [])) ∧
  (∀ (s : State) (e : Eci) (c : EciCmd) (p : List Nat), s.serves e c 0x0105 [low 21] → p = c.words → (s.notMine e.fn) p = false → s.noSuchRing p = false → (s.ring (namedRing p)).stopped = false →
     exec (.queueStop e) s = .next ((s.stopRing (namedRing p) 3 0).answers e RC_OK [])) ∧
  (∀ (s : State) (e : Eci) (c : EciCmd) (p : List Nat), s.serves e c 0x0106 [low 21, W32, W32] → p = c.words → (s.notMine e.fn) p = false → (s.noSuchRing p || decide (p.getD 2 0 = 0 ∨ (s.ring (namedRing p)).size < p.getD 2 0)) = false →
     exec (.queueInvalidate e) s = .next (((s.invalidate (namedRing p) (p.getD 1 0) (p.getD 2 0)).fetchNext (namedRing p)).answers e RC_OK [])) ∧
  (∀ (s : State) (e : Eci) (c : EciCmd) (p : List Nat), s.serves e c 0x0107 [low 21] → p = c.words → (s.notMine e.fn) p = false → s.noSuchRing p = false →
     exec (.queueQuery e) s = .next (s.answers e RC_OK (s.ring (namedRing p)).queryWords))

/-- A served, permitted and legal FN or MGR command assigns VF shares, grants, reads, quiesces, releases, saves, restores, removes or logs a function, or moves the manager role; the state a function must be in, a grant below its use, and a full device give their codes. PERST_N and a hot reset take a link down and reset its functions; a change of VF Enable grants or drops VFs; a function level reset advances the generation, and completes when every engine has acknowledged; an engine that is late is fenced; a quiesce that is late is noted; a migration slot's consumer index is taken or the write is logged. -/
def Obligations.FunctionsAndResets : Prop :=
  (∀ (s : State) (e : Eci) (c : EciCmd) (p : List Nat), s.serves e c 0x0200 [W32, W32] → p = c.words → e.fn = s.manager → (List.range 4).any (fun k => (s.fn k).vfEnable && s.share k != (sharesOf p).getD k 0) = false → (sharesOf p).foldl (· + ·) 0 ≤ 2048 →
     exec (.fnAssignVfs e) s = .next ((s.each (List.range 4) (fun k t => t.modFn k (fun g => { g with numVfsShare := (sharesOf p).getD k 0 }))).answers e RC_OK [])) ∧
  (∀ (s : State) (e : Eci) (c : EciCmd) (p : List Nat) (g : Grants), s.serves e c 0x0201 [low 12, low 13, low 17, low 17, low 17, low 12, W32, W32, low 20, low 27] → p = c.words → e.fn = s.manager → (noFunc p || grantBad (p.getD 0 0) (s.grantOf (p.getD 0 0) p)) = false → g = s.grantOf (p.getD 0 0) p → s.grantBelow (p.getD 0 0) g = false → [1, 2, 3].any (fun k => decide (131072 < g.rings k + s.reserved k (p.getD 0 0))) = false →
     exec (.fnGrant e) s = .next ((s.grant (p.getD 0 0) g).answers e RC_OK [])) ∧
  (∀ (s : State) (e : Eci) (c : EciCmd) (p : List Nat), s.serves e c 0x0201 [low 12, low 13, low 17, low 17, low 17, low 12, W32, W32, low 20, low 27] → p = c.words → e.fn = s.manager → (noFunc p || grantBad (p.getD 0 0) (s.grantOf (p.getD 0 0) p)) = false → s.grantBelow (p.getD 0 0) (s.grantOf (p.getD 0 0) p) = true →
     exec (.fnGrant e) s = .next (s.answers e RC_BUSY [])) ∧
  (∀ (s : State) (e : Eci) (c : EciCmd) (p : List Nat), s.serves e c 0x0202 [low 12] → p = c.words → (s.ownOnly e.fn (fun p => bits (p.getD 0 0) 11 0)) p = false → noFunc p = false →
     exec (.fnQuery e) s = .next (s.answers e RC_OK (s.fnWords (p.getD 0 0)))) ∧
  (∀ (s : State) (e : Eci) (c : EciCmd) (p : List Nat), s.serves e c 0x0203 [low 12] → p = c.words → (!bit (p.getD 0 0) 31) = true → e.fn = s.manager → noFunc p = false → s.longBusy e.fn = false → s.rd F.HIF_FN_STATE_STATE (p.getD 0 0) = 1 →
     exec (.fnQuiesce e) s = .next ((s.quiesceStart (p.getD 0 0)).ticketed e c)) ∧
  (∀ (s : State) (e : Eci) (c : EciCmd) (p : List Nat), s.serves e c 0x0203 [low 12] → p = c.words → (!bit (p.getD 0 0) 31) = true → e.fn = s.manager → noFunc p = false → s.longBusy e.fn = false → s.rd F.HIF_FN_STATE_STATE (p.getD 0 0) = 3 →
     exec (.fnQuiesce e) s = .next (s.ticketed e c)) ∧
  (∀ (s : State) (e : Eci) (c : EciCmd) (p : List Nat), s.serves e c 0x0203 [low 12] → p = c.words → (!bit (p.getD 0 0) 31) = true → e.fn = s.manager → noFunc p = false → (s.longBusy e.fn = true ∨ s.rd F.HIF_FN_STATE_STATE (p.getD 0 0) = 2) →
     exec (.fnQuiesce e) s = .next (s.answers e RC_BUSY [])) ∧
  (∀ (s : State) (e : Eci) (c : EciCmd) (p : List Nat), s.serves e c 0x0203 [low 12 + 2 ^ 31] → p = c.words → (bit (p.getD 0 0) 31) = true → e.fn = s.manager → noFunc p = false → s.longBusy e.fn = false → s.rd F.HIF_FN_STATE_STATE (bits (p.getD 0 0) 11 0) = 3 →
     exec (.fnRelease e) s = .next ((s.releaseFn (bits (p.getD 0 0) 11 0)).ticketed e c)) ∧
  (∀ (s : State) (e : Eci) (c : EciCmd) (p : List Nat), s.serves e c 0x0204 [low 12, W32, W32, W32] → p = c.words → e.fn = s.manager → noFunc p = false → s.longBusy e.fn = false → s.rd F.HIF_FN_STATE_STATE (p.getD 0 0) = 3 →
     exec (.fnSave e) s = .next (s.ticketed e c)) ∧
  (∀ (s : State) (e : Eci) (c : EciCmd) (p : List Nat), s.serves e c 0x0204 [low 12, W32, W32, W32] → p = c.words → e.fn = s.manager → noFunc p = false → s.longBusy e.fn = false → s.rd F.HIF_FN_STATE_STATE (p.getD 0 0) ≠ 3 →
     exec (.fnSave e) s = .next (s.answers e RC_QUIESCE_REQUIRED [])) ∧
  (∀ (s : State) (e : Eci) (c : EciCmd) (p : List Nat), s.serves e c 0x0205 [low 12, W32, W32, W32] → p = c.words → e.fn = s.manager → noFunc p = false → s.longBusy e.fn = false → s.mayRestore (p.getD 0 0) = true →
     exec (.fnRestore e) s = .next (s.ticketed e c)) ∧
  (∀ (s : State) (e : Eci) (c : EciCmd) (p : List Nat), s.serves e c 0x0205 [low 12, W32, W32, W32] → p = c.words → e.fn = s.manager → noFunc p = false → s.mayRestore (p.getD 0 0) = false →
     exec (.fnRestore e) s = .next (s.answers e RC_BUSY [])) ∧
  (∀ (s : State) (e : Eci) (c : EciCmd) (p : List Nat) (f : Nat), s.serves e c 0x0206 [low 12 + 2 ^ 31, W32, W32, low 5] → p = c.words → (e.fn != s.manager || !s.feature e.fn 13) = false → (noFunc p || (bit (p.getD 0 0) 31 && (w64 p 1 % 4096 != 0 || decide (p.getD 3 0 < 6 ∨ 20 < p.getD 3 0)))) = false → f = bits (p.getD 0 0) 11 0 → bit (p.getD 0 0) 31 = false →
     exec (.fnMigrateLog e) s = .next ((s.freeSlot f).answers e RC_OK (s.migWords f))) ∧
  (∀ (s : State) (e : Eci) (c : EciCmd) (p : List Nat) (f k : Nat) (t : State), s.serves e c 0x0206 [low 12 + 2 ^ 31, W32, W32, low 5] → p = c.words → (e.fn != s.manager || !s.feature e.fn 13) = false → (noFunc p || (bit (p.getD 0 0) 31 && (w64 p 1 % 4096 != 0 || decide (p.getD 3 0 < 6 ∨ 20 < p.getD 3 0)))) = false → f = bits (p.getD 0 0) 11 0 → bit (p.getD 0 0) 31 = true → s.rings.any (fun r => r.2.state != 0 && r.2.fn == f && r.2.pasid.isSome) = false → s.on F.HIF_FN_STATE_MIGRATING f = false → firstFree 64 s.fresh (fun j => s.on F.HIF_MIG_CTRL_EN j) = some k → t = s.used.migStart f k (w64 p 1) (p.getD 3 0) →
     exec (.fnMigrateLog e) s = .next (t.answers e RC_OK (t.migWords f))) ∧
  (∀ (s : State) (e : Eci) (c : EciCmd) (p : List Nat) (f : Nat) (t : State), s.serves e c 0x0206 [low 12 + 2 ^ 31, W32, W32, low 5] → p = c.words → (e.fn != s.manager || !s.feature e.fn 13) = false → (noFunc p || (bit (p.getD 0 0) 31 && (w64 p 1 % 4096 != 0 || decide (p.getD 3 0 < 6 ∨ 20 < p.getD 3 0)))) = false → f = bits (p.getD 0 0) 11 0 → bit (p.getD 0 0) 31 = true → s.rings.any (fun r => r.2.state != 0 && r.2.fn == f && r.2.pasid.isSome) = false → s.on F.HIF_FN_STATE_MIGRATING f = true → t = s.migStart f (s.rd F.HIF_FN_STATE_SLOT f) (w64 p 1) (p.getD 3 0) →
     exec (.fnMigrateLog e) s = .next (t.answers e RC_OK (t.migWords f))) ∧
  (∀ (s : State) (e : Eci) (c : EciCmd) (p : List Nat), s.serves e c 0x0207 [low 12] → p = c.words → e.fn = s.manager → noFunc p = false → s.rd F.HIF_FN_STATE_STATE (p.getD 0 0) = 3 →
     exec (.fnRemove e) s = .next ((s.removeFn (p.getD 0 0)).answers e RC_OK [])) ∧
  (∀ (s : State) (e : Eci) (c : EciCmd) (p : List Nat), s.serves e c 0x0207 [low 12] → p = c.words → e.fn = s.manager → noFunc p = false → s.rd F.HIF_FN_STATE_STATE (p.getD 0 0) ≠ 3 →
     exec (.fnRemove e) s = .next (s.answers e RC_QUIESCE_REQUIRED [])) ∧
  (∀ (s : State) (e : Eci) (c : EciCmd) (p : List Nat), s.serves e c 0x0208 [low 2] → p = c.words → (s.roleDenied e.fn) p = false → (!mayManage (p.getD 0 0) || p.getD 0 0 == s.manager) = false → s.roleWaits (p.getD 0 0) = false →
     exec (.mgrRole e) s = .next ((s.moveRole (p.getD 0 0)).answers e RC_OK [])) ∧
  (∀ (s : State) (e : Eci) (c : EciCmd) (p : List Nat), s.serves e c 0x0208 [low 2] → p = c.words → (s.roleDenied e.fn) p = false → (!mayManage (p.getD 0 0) || p.getD 0 0 == s.manager) = false → s.roleWaits (p.getD 0 0) = true →
     exec (.mgrRole e) s = .next s) ∧
  (∀ (s : State) (port : Nat), port < 2 → s.perst.get port = false → exec (.perstAssert port) s = .next (
       let s := ({ s with perst := s.perst.set port true }).raise (Ev.HIF_PERST port)
       let s := s.when (s.flashHolder == some (2 * port)) (fun t => { t with flashHolder := none })
       let s := s.resetLink port 0
       s.when (s.bifurcated.get port) (fun t => t.resetLink port 1))) ∧
  (∀ (s : State) (port link : Nat), s.linkExists port link = true →
     exec (.hifHotReset port link) s = .next ((s.raise (Ev.HIF_HOT_RESET port)).resetLink port link)) ∧
  (∀ (s : State) (port : Nat), port < 2 → s.perst.get port = true →
     exec (.perstDeassert port) s = .next ({ s with perst := s.perst.set port false })) ∧
  (∀ (s : State) (pf : Nat) (on : Bool) (num : Nat), pf < 4 → (s.fn pf).vfEnable ≠ on →
     exec (.vfEnableWrite pf on num) s = .next (s.vfEnable pf on num)) ∧
  (∀ (s : State) (f : Nat), s.fnExists f = true → exec (.flrStart f) s = .next (s.flrStart f)) ∧
  (∀ (s t : State) (r : Flr) (f engine : Nat), s.flr.getD f none = some r → engine < flrEngines → s.flrDiscard f engine = some t →
     exec (.flrEngineAck f engine) s = .next (t.flrAck f engine)) ∧
  (∀ (s : State) (r : Flr) (f engine : Nat), s.flr.getD f none = some r → engine < flrEngines → s.flrDiscard f engine = none →
     exec (.flrEngineAck f engine) s = .next s) ∧
  (∀ (s t u : State) (r : Flr) (f : Nat) (late : List Nat), s.flr.getD f none = some r → r.since + 100000000 ≤ s.now → late = (List.range flrEngines).filter (fun e => !r.acks.contains e) → t = s.each late (fun e t => t.each (t.slowUnits f e) (fun u v => v.fenceUnit u.1 u.2 8 [])) → u = t.each late (fun e t => (t.flrDiscard f e).getD t) →
     exec (.fnFlrSlow f) s = .next ((u.flrComplete f).raise Ev.FN_FLR_SLOW)) ∧
  (∀ (s : State) (r : Flr) (f : Nat), s.flr.getD f none = some r → s.now < r.since + 100000000 → exec (.fnFlrSlow f) s = .next s) ∧
  (∀ (s : State) (l : LongCmd) (g f : Nat), (g, some l) ∈ s.longs → l.final = none → l.cmd.code = 0x0203 → l.cmd.words.getD 0 0 = f → l.since + 100000000 ≤ s.now → s.rd F.HIF_FN_STATE_STATE f = 2 →
     exec (.quiescePendingTimeout f) s = .next { s with quiesceLate := s.quiesceLate.set f true }) ∧
  (∀ (s : State) (fn slot v : Nat), s.managedBy fn → slot < 64 →
     exec (.hifMigConsWrite fn slot v) s = .next (s.migCons slot (v % 2 ^ 32)))

/-- A served, permitted and legal SVC command folds and writes a port's counters, routes an event, starts a flash write or a retraining, activates a firmware slot, hands out the write log or reports wear, and is answered; the recovery personality's flash holder is released after 60 s; a ring oscillator is sampled at most once a minute; the stress counters are saved every six hours. A served, permitted and legal DBG command halts, resumes, steps or aborts threads, sets a breakpoint or enables soft breakpoints, and is answered; stepping where no named thread is halted gives NOT_READY. From JTAG each does the same once JTAG owns the cluster's debug controller, and nothing before. -/
def Obligations.ServiceAndDebug : Prop :=
  (∀ (s : State) (e : Eci) (c : EciCmd) (p : List Nat) (t : State) (rc : Nat) (w : List Nat), s.serves e c 0x0A00 [low 5, W32, W32] → p = c.words → (e.fn != s.manager || s.on F.GLB_COUNTER_OWNER_OWNER 0) = false → (bit (p.getD 0 0) 4 && bits (p.getD 0 0) 3 0 != 0) = false → (s.foldCounters (p.getD 0 0)).bufferOut e.fn (w64 p 1) 448 ((s.foldCounters (p.getD 0 0)).totals (p.getD 0 0)) e.io.head? [0] = .done t rc w →
     exec (.svcPortCounters e) s = .next (((if rc = RC_OK then t else s)).answers e rc w)) ∧
  (∀ (s : State) (e : Eci) (c : EciCmd) (p : List Nat), s.serves e c 0x0A01 [low 10, 2 ^ 31 + 3 * 2 ^ 12 + low 11] → p = c.words → e.fn = s.manager → (decide (576 ≤ p.getD 0 0) || decide ((s.fn (bits (p.getD 1 0) 13 12)).grants.vectors ≤ bits (p.getD 1 0) 10 0)) = false →
     exec (.svcEvtRoute e) s = .next ((s.put .EVT_ROUTE (p.getD 0 0) (p.getD 1 0)).answers e RC_OK [])) ∧
  (∀ (s : State) (e : Eci) (c : EciCmd) (p : List Nat), s.serves e c 0x0A02 [low 8, W32, W32, W32] → p = c.words → (s.flashDenied e.fn || [0, 7, 8, 9, 10].contains (p.getD 0 0)) = false → (decide (10 < p.getD 0 0) || decide (flashSize (p.getD 0 0) < p.getD 3 0)) = false → s.flashTaken e.fn = false → (!s.recovery && p.getD 0 0 == 1 + s.fwSlot) = false → s.longBusy e.fn = false →
     exec (.svcFlashWrite e) s = .next ((s.flashHeld e.fn).ticketed e c)) ∧
  (∀ (s : State) (e : Eci) (c : EciCmd) (p : List Nat), s.serves e c 0x0A02 [low 8, W32, W32, W32] → p = c.words → (s.flashDenied e.fn || [0, 7, 8, 9, 10].contains (p.getD 0 0)) = false → (decide (10 < p.getD 0 0) || decide (flashSize (p.getD 0 0) < p.getD 3 0)) = false → (s.flashTaken e.fn = true ∨ (!s.recovery && p.getD 0 0 == 1 + s.fwSlot) = true) →
     exec (.svcFlashWrite e) s = .next (s.answers e RC_BUSY [])) ∧
  (∀ (s : State) (e : Eci) (c : EciCmd) (p : List Nat), s.serves e c 0x0A02 [low 8, W32, W32, W32] → p = c.words → (s.flashDenied e.fn || [0, 7, 8, 9, 10].contains (p.getD 0 0)) = false → (decide (10 < p.getD 0 0) || decide (flashSize (p.getD 0 0) < p.getD 3 0)) = false → s.flashTaken e.fn = false → (!s.recovery && p.getD 0 0 == 1 + s.fwSlot) = false → s.longBusy e.fn = true →
     exec (.svcFlashWrite e) s = .next ((s.when s.flashHolder.isSome (fun t => t.flashHeld e.fn)).answers e RC_BUSY [])) ∧
  (∀ (s : State) (e : Eci) (c : EciCmd) (p : List Nat), s.serves e c 0x0A03 [1] → p = c.words → s.flashDenied e.fn = false → s.flashTaken e.fn = false →
     exec (.svcFwActivate e) s = .next (if s.slotValid (p.getD 0 0) then (s.answers e RC_OK []).fwActivate (p.getD 0 0) else s.answers e RC_BAD_ARG [])) ∧
  (∀ (s : State) (e : Eci) (c : EciCmd) (p : List Nat), s.serves e c 0x0A03 [1] → p = c.words → s.flashDenied e.fn = false → s.flashTaken e.fn = true →
     exec (.svcFwActivate e) s = .next (if s.slotValid (p.getD 0 0) then s.answers e RC_BUSY [] else s.answers e RC_BAD_ARG [])) ∧
  (∀ (s : State) (e : Eci) (c : EciCmd) (p : List Nat), s.serves e c 0x0A04 [] → p = c.words → e.fn = s.manager →
     exec (.svcLogRead e) s = .next (({ s with fwLog := s.fwLog.drop 15, fwLogLost := 0 }).answers e RC_OK (((s.fwLog.take 15).length + 2 ^ 8 * (s.fwLogLost % 2 ^ 24)) :: (s.fwLog.take 15).flatMap FwLogEntry.words))) ∧
  (∀ (s : State) (e : Eci) (c : EciCmd) (p : List Nat), s.serves e c 0x0A05 [3] → p = c.words → e.fn = s.manager → s.longBusy e.fn = false →
     exec (.svcHbmRetrain e) s = .next (s.ticketed e c)) ∧
  (∀ (s : State) (e : Eci) (c : EciCmd) (p : List Nat), s.serves e c 0x0A06 [low 16] → p = c.words → e.fn = s.manager → (p.getD 0 0 != 0xDFFF && !unitListed (p.getD 0 0)) = false →
     exec (.svcWearQuery e) s = .next (s.answers e RC_OK (s.wearWords (p.getD 0 0)))) ∧
  (∀ (s : State), s.flashHolder.isSome = true → s.flashAt + 60000000000 ≤ s.now →
     exec .recoveryFlashRelease s = .next { s with flashHolder := none }) ∧
  (∀ (s t u v : State) (d khz : Nat) (aged : Bool), d < 64 → (s.domainWear d).sampled = none → t = { s with wear := s.wear.set (0xE100 + d) { s.domainWear d with khz := khz % 2 ^ 32, sampled := some s.now, stamp := s.stamp } } → aged = decide (250 ≤ t.slowdown d) → u = { t with wear := t.wear.set (0xE100 + d) { t.domainWear d with aged := aged } } → v = u.when (aged && !(s.domainWear d).aged) (fun x => x.raise Ev.PWR_AGEING_ALERT) →
     exec (.wearSample d khz) s = .next v) ∧
  (∀ (s t u v : State) (d khz at_ : Nat) (aged : Bool), d < 64 → (s.domainWear d).sampled = some at_ → at_ + 60000000000 ≤ s.now → t = { s with wear := s.wear.set (0xE100 + d) { s.domainWear d with khz := khz % 2 ^ 32, sampled := some s.now, stamp := s.stamp } } → aged = decide (250 ≤ t.slowdown d) → u = { t with wear := t.wear.set (0xE100 + d) { t.domainWear d with aged := aged } } → v = u.when (aged && !(s.domainWear d).aged) (fun x => x.raise Ev.PWR_AGEING_ALERT) →
     exec (.wearSample d khz) s = .next v) ∧
  (∀ (s : State) (stress : List Nat), s.now < s.wearSaved + 21600000000000 → exec (.wearRecordSave stress) s = .next s) ∧
  (∀ (s : State), s.wearSaved + 21600000000000 ≤ s.now → exec (.wearRecordSave []) s = .next { s with wearSaved := s.now }) ∧
  (∀ (s t : State) (n : Nat) (w : Wear), s.wearSaved + 21600000000000 ≤ s.now → w = s.domainWear 0 → t = { s with wearSaved := s.now, wear := s.wear.set 0xE100 { w with stress := max w.stress (n % 2 ^ 64), saved := max w.stress (n % 2 ^ 64), em := decide (800000000 ≤ max w.stress (n % 2 ^ 64)) } } →
     exec (.wearRecordSave [n]) s = .next (t.when (decide (800000000 ≤ max w.stress (n % 2 ^ 64)) && !w.em) (fun u => u.raise Ev.PWR_EM_ALERT))) ∧
  (∀ (s : State) (e : Eci) (c : EciCmd) (p : List Nat), s.serves e c 0x0B00 [low 10 + 2 ^ 31] → p = c.words → (s.dbgDenied e.fn threadCluster) p = false →
     exec (.dbgHalt (.eci e)) s = .next ((s.each (s.threadsNamed p) (fun t u => u.haltCmd t)).answers e RC_OK [])) ∧
  (∀ (s : State) (e : Eci) (c : EciCmd) (p : List Nat), s.serves e c 0x0B01 [low 10 + 2 ^ 31] → p = c.words → (s.dbgDenied e.fn threadCluster) p = false →
     exec (.dbgResume (.eci e)) s = .next ((s.each (s.threadsNamed p) (fun t u => u.resumeThread t false)).answers e RC_OK [])) ∧
  (∀ (s : State) (e : Eci) (c : EciCmd) (p : List Nat), s.serves e c 0x0B03 [low 10] → p = c.words → (s.dbgDenied e.fn threadCluster) p = false →
     exec (.dbgAbort (.eci e)) s = .next ((s.each ((s.threadsNamed p).filter (fun t => (s.thread t).st == .halted)) (fun t u => u.abortThread t 0xFD)).answers e RC_OK [])) ∧
  (∀ (s : State) (e : Eci) (c : EciCmd) (p : List Nat) (ix : Nat), s.serves e c 0x0B04 [low 6 + 2 ^ 31, low 16, W32, W32] → p = c.words → (s.dbgDenied e.fn clusterNamed) p = false → ix = 4 * bits (p.getD 0 0) 3 0 + bits (p.getD 0 0) 5 4 →
     exec (.dbgBpSet (.eci e)) s = .next ((((s.wr F.BRW_BP_EN ix (bits (p.getD 0 0) 31 31)).wr F.BRW_BP_ADDR ix (p.getD 1 0)).put .BRW_BP_THREADS ix (w64 p 2)).answers e RC_OK [])) ∧
  (∀ (s : State) (e : Eci) (c : EciCmd) (p : List Nat), s.serves e c 0x0B05 [low 4 + 2 ^ 31] → p = c.words → (s.dbgDenied e.fn clusterNamed) p = false →
     exec (.dbgSoftBp (.eci e)) s = .next ((s.wr F.BRW_DBG_CTL_SOFT_BP_EN (bits (p.getD 0 0) 3 0) (bits (p.getD 0 0) 31 31)).answers e RC_OK [])) ∧
  (∀ (s : State) (e : Eci) (c : EciCmd) (p : List Nat) (t : Nat), s.serves e c 0x0B02 [low 10] → p = c.words → (s.dbgDenied e.fn threadCluster) p = false → (s.threadsNamed p).find? (fun k => (s.thread k).st == .halted) = some t →
     exec (.dbgStep (.eci e)) s = .next ((s.resumeThread t true).answers e RC_OK [])) ∧
  (∀ (s : State) (e : Eci) (c : EciCmd) (p : List Nat), s.serves e c 0x0B02 [low 10] → p = c.words → (s.dbgDenied e.fn threadCluster) p = false → (s.threadsNamed p).find? (fun k => (s.thread k).st == .halted) = none →
     exec (.dbgStep (.eci e)) s = .next (s.answers e RC_NOT_READY [])) ∧
  (∀ (s : State) (p : List Nat), s.on F.BRW_DBG_CTL_JTAG_OWNS (threadCluster p) = true → shapeOk [low 10 + 2 ^ 31] { code := 0x0B00, len := p.length, words := p } = true → 
     exec (.dbgHalt (.jtag p)) s = .next (s.each (s.threadsNamed p) (fun t u => u.haltCmd t))) ∧
  (∀ (s : State) (p : List Nat), s.on F.BRW_DBG_CTL_JTAG_OWNS (threadCluster p) = true → shapeOk [low 10 + 2 ^ 31] { code := 0x0B01, len := p.length, words := p } = true → 
     exec (.dbgResume (.jtag p)) s = .next (s.each (s.threadsNamed p) (fun t u => u.resumeThread t false))) ∧
  (∀ (s : State) (p : List Nat), s.on F.BRW_DBG_CTL_JTAG_OWNS (threadCluster p) = true → shapeOk [low 10] { code := 0x0B03, len := p.length, words := p } = true → 
     exec (.dbgAbort (.jtag p)) s = .next (s.each ((s.threadsNamed p).filter (fun t => (s.thread t).st == .halted)) (fun t u => u.abortThread t 0xFD))) ∧
  (∀ (s : State) (p : List Nat) (ix : Nat), s.on F.BRW_DBG_CTL_JTAG_OWNS (clusterNamed p) = true → shapeOk [low 6 + 2 ^ 31, low 16, W32, W32] { code := 0x0B04, len := p.length, words := p } = true → ix = 4 * bits (p.getD 0 0) 3 0 + bits (p.getD 0 0) 5 4 →
     exec (.dbgBpSet (.jtag p)) s = .next (((s.wr F.BRW_BP_EN ix (bits (p.getD 0 0) 31 31)).wr F.BRW_BP_ADDR ix (p.getD 1 0)).put .BRW_BP_THREADS ix (w64 p 2))) ∧
  (∀ (s : State) (p : List Nat), s.on F.BRW_DBG_CTL_JTAG_OWNS (clusterNamed p) = true → shapeOk [low 4 + 2 ^ 31] { code := 0x0B05, len := p.length, words := p } = true → 
     exec (.dbgSoftBp (.jtag p)) s = .next (s.wr F.BRW_DBG_CTL_SOFT_BP_EN (bits (p.getD 0 0) 3 0) (bits (p.getD 0 0) 31 31))) ∧
  (∀ (s : State) (p : List Nat) (t : Nat), s.on F.BRW_DBG_CTL_JTAG_OWNS (threadCluster p) = true → shapeOk [low 10] { code := 0x0B02, len := p.length, words := p } = true → (s.threadsNamed p).find? (fun k => (s.thread k).st == .halted) = some t →
     exec (.dbgStep (.jtag p)) s = .next (s.resumeThread t true)) ∧
  (∀ (s : State) (p : List Nat), s.on F.BRW_DBG_CTL_JTAG_OWNS (threadCluster p) = false →
     exec (.dbgHalt (.jtag p)) s = .next s ∧ exec (.dbgResume (.jtag p)) s = .next s ∧ exec (.dbgStep (.jtag p)) s = .next s ∧ exec (.dbgAbort (.jtag p)) s = .next s)

/-- A write of MBX_CMD is taken or dropped, firmware accepts a command in its turn and answers one that is fenced, unknown or bad, an acknowledgement that is late is abandoned, doorbell registers follow their writes, a driver that is late is absent, firmware restarts or its watchdog restarts a thread, and a long command ends with its result. -/
def Obligations.MailboxAndDoorbells : Prop :=
  (∀ (s : State) (f v : Nat), f < 2052 → s.bar0Open f = true → exec (.mbxCmdWrite f v) s = .next (s.mbxCmd f v)) ∧
  (∀ (s : State) (f : Nat), s.on F.MBX_STATUS_BUSY f = true → (s.mb f).at_ + (s.mb f).us * 1000 ≤ s.now →
     exec (.mbxAckTimeout f) s = .next (((((s.wr F.MBX_STATUS_TIMEOUT f 1).wr F.MBX_STATUS_BUSY f 0).wr F.DB_TO_FW_CMD f 0)).modMb f
         (fun b => { b with cmd := b.cmd.map (fun c => { c with abandoned := true }) }))) ∧
  (∀ (s : State) (f v : Nat), f < 2052 → s.bar0Open f = true → exec (.dbFromFwW1c f v) s = .next (s.dbW1c f v)) ∧
  (∀ (s : State) (f v : Nat), f < 2052 → s.bar0Open f = true → exec (.dbFromFwMaskWrite f v) s = .next (s.dbMask f v)) ∧
  (∀ (s : State) (f v : Nat), f < 2052 → s.bar0Open f = true → exec (.dbToFwReady f v) s = .next (s.dbToFw f (putBits v 1 1 1))) ∧
  (∀ (s : State) (f v : Nat), f < 2052 → s.bar0Open f = true → exec (.dbToFwUnload f v) s = .next (s.dbToFw f (putBits v 2 2 1))) ∧
  (∀ (s : State), s.fwUp = true → exec .fwRestart s = .next (s.fwRestart)) ∧
  (∀ (s a t : State) (f n : Nat) (bad : Bool) (c : EciCmd), s.nextTurn (s.coreOf f) = some (2 * f) → a = (s.tookTurn (s.coreOf f) (2 * f)).wr F.DB_TO_FW_CMD f 0 → n = s.rd F.MBX_CMD_LEN f → c = { code := s.rd F.MBX_CMD_CODE f, len := n, words := if 64 < n || bad then [] else (List.range n).map (fun k => s.val .MBX_DATA (64 * f + k)), rc := if bad then RC_BAD_ARG else 0, at_ := a.now } → t = a.modMb f (fun b => { b with cmd := some c }) →
     exec (.cmdAccept f bad) s = .next (if t.eciFenced f c.code then t.mbxReply f RC_FENCED [] false
     else if eciListed c.code t.recovery = false then t.mbxReply f RC_BAD_OPCODE [] false else t)) ∧
  (∀ (s : State) (f : Nat) (bad : Bool), s.nextTurn (s.coreOf f) ≠ some (2 * f) → exec (.cmdAccept f bad) s = .next s) ∧
  (∀ (s : State) (f k t : Nat), (k, some t) ∈ (s.mb f).setAt → t + s.rd F.MBX_TIMEOUT_US f * 1000 ≤ s.now → (s.mb f).absent = false →
     exec (.driverAbsent f) s = .next ((s.modMb f (fun b => { b with absent := true })).raise Ev.FW_DRIVER_ABSENT)) ∧
  (∀ (s : State) (core thread : Nat), core < 4 → thread = 0 ∨ thread = 3 → s.fwUp = true →
     exec (.fwWatchdog core thread) s = .next ((s.each (s.functions.filter (fun f => s.coreOf f == core)) (fun f t => t.fwRestartFor f (thread == 0) (thread == 3))).raise Ev.FW_WATCHDOG)) ∧
  (∀ (s : State) (core : Nat), core < 4 → s.fwUp = true → exec (.fwWatchdog core 2) s = .next (s.raise Ev.FW_WATCHDOG)) ∧
  (∀ (s t : State) (l : LongCmd) (f rc : Nat) (io : LongIo) (w : List Nat), s.longs.getD f none = some l → l.final = none → s.longBody f l.cmd io = .done t rc w →
     exec (.longCommandComplete f io) s = .next (t.longDone f rc w)) ∧
  (∀ (s t : State) (l : LongCmd) (f : Nat) (io : LongIo), s.longs.getD f none = some l → l.final = none → s.longBody f l.cmd io = .held t →
     exec (.longCommandComplete f io) s = .next t) ∧
  (∀ (s : State) (l : LongCmd) (f : Nat) (io : LongIo), s.longs.getD f none = some l → l.final = none → s.longBody f l.cmd io = .wait →
     exec (.longCommandComplete f io) s = .next s) ∧
  (∀ (s u v : State) (r : Ring) (c : EciCmd) (f n : Nat) (b0 b : Bytes) (payload : HostReply), s.nextTurn (s.coreOf f) = some (2 * f + 1) → r = s.ring (adminSqKey f) → u = ((s.tookTurn (s.coreOf f) (2 * f + 1)).sendRead f (r.base + r.next % r.size * 128) none 128).modRing (adminSqKey f) (fun x => { x with next := ixNext x.next }) → b = fit 128 b0 → n = leAt b 2 1 → c = { code := leAt b 0 2, len := n, words := if 24 < n then [] else (List.range n).map (fun k => leAt (b.drop 0x20) (4 * k) 4), tag := leAt b 4 2, resp := leAt b 0x10 8, index := r.next, at_ := u.now } → v = { u with adminCmd := u.adminCmd.setD f (some c) none } → v.eciFenced f c.code = false → eciListed c.code v.recovery = true → mailboxOnly c.code = false → leAt b 3 1 = 0 → leAt b 6 2 = 0 → leAt b 0x18 8 = 0 → leAt b 8 8 = 0 → n ≤ 24 →
     exec (.adminEntryTake f (.data b0) payload) s = .next v) ∧
  (∀ (s u v : State) (r : Ring) (c : EciCmd) (f n : Nat) (b0 b : Bytes) (payload : HostReply), s.nextTurn (s.coreOf f) = some (2 * f + 1) → r = s.ring (adminSqKey f) → u = ((s.tookTurn (s.coreOf f) (2 * f + 1)).sendRead f (r.base + r.next % r.size * 128) none 128).modRing (adminSqKey f) (fun x => { x with next := ixNext x.next }) → b = fit 128 b0 → n = leAt b 2 1 → c = { code := leAt b 0 2, len := n, words := if 24 < n then [] else (List.range n).map (fun k => leAt (b.drop 0x20) (4 * k) 4), tag := leAt b 4 2, resp := leAt b 0x10 8, index := r.next, at_ := u.now } → v = { u with adminCmd := u.adminCmd.setD f (some c) none } → v.eciFenced f c.code = false → eciListed c.code v.recovery = true → mailboxOnly c.code = false → (leAt b 3 1 ≠ 0 ∨ leAt b 6 2 ≠ 0 ∨ leAt b 0x18 8 ≠ 0 ∨ 64 < n ∨ (n ≤ 24 ∧ leAt b 8 8 ≠ 0)) →
     exec (.adminEntryTake f (.data b0) payload) s = .next { v with adminCmd := v.adminCmd.setD f (some { c with rc := RC_BAD_ARG }) none }) ∧
  (∀ (s u v w : State) (r : Ring) (c : EciCmd) (f n : Nat) (b0 b : Bytes) (d : Bytes), s.nextTurn (s.coreOf f) = some (2 * f + 1) → r = s.ring (adminSqKey f) → u = ((s.tookTurn (s.coreOf f) (2 * f + 1)).sendRead f (r.base + r.next % r.size * 128) none 128).modRing (adminSqKey f) (fun x => { x with next := ixNext x.next }) → b = fit 128 b0 → n = leAt b 2 1 → c = { code := leAt b 0 2, len := n, words := if 24 < n then [] else (List.range n).map (fun k => leAt (b.drop 0x20) (4 * k) 4), tag := leAt b 4 2, resp := leAt b 0x10 8, index := r.next, at_ := u.now } → v = { u with adminCmd := u.adminCmd.setD f (some c) none } → v.eciFenced f c.code = false → eciListed c.code v.recovery = true → mailboxOnly c.code = false → leAt b 3 1 = 0 → leAt b 6 2 = 0 → leAt b 0x18 8 = 0 → 24 < n → n ≤ 64 → w = v.sendRead f (leAt b 8 8) none (4 * n) →
     exec (.adminEntryTake f (.data b0) (.data d)) s = .next { w with adminCmd := w.adminCmd.setD f (some { c with words := (List.range n).map (fun k => leAt (fit (4 * n) d) (4 * k) 4), at_ := w.now }) none } ∧
     exec (.adminEntryTake f (.data b0) .xlateFault) s = .next { w with adminCmd := w.adminCmd.setD f (some { c with rc := RC_XLATE_FAULT, at_ := w.now }) none }) ∧
  (∀ (s : State) (f : Nat) (entry payload : HostReply), s.nextTurn (s.coreOf f) ≠ some (2 * f + 1) →
     exec (.adminEntryTake f entry payload) s = .next s)

/-- An access to a served region counts, opens or closes its row and meets its result, or is discarded at a fenced pseudo-channel; idle rows close; a refresh is made, postponed, forced or made up on an idle bank; a stack enters and leaves self-refresh; temperature and drift are reported; a row that fails is repaired while its bank has repairs. -/
def Obligations.HbmControllers : Prop :=
  (∀ (s t u : State) (p : HbmPlace) (region off : Nat) (write late : Bool) (r : HbmResult), region < 8 → s.on F.HBM_REGION_EN region = true → off < s.regionBytes region → p = s.hbmPlace region off → s.isFenced (unitHbm p.pc) 0 = false → t = (s.srExit (p.pc / 32)).count .HBM_CTR (p.pc / 32) (if write then C.HBM_WRITES else C.HBM_READS) → u = t.modHbm (fun h => { h with rows := h.rows.setD (bankKey p.pc p.bank) (if t.rd F.HBM_PAGE_CFG_IDLE_CYCLES p.pc != 0 then some (p.row, t.now) else none) none, reqAt := h.reqAt.set (p.pc / 32) t.now }) →
     exec (.hbmAccess region off write r late) s = .next ((u.when late (fun x => (x.count .HBM_CTR (p.pc / 32) C.HBM_LAT_EXCEEDED).raiseLimited (Ev.HBM_LAT_EXCEEDED (p.pc / 32)) 0 1000000)).hbmResult p write r)) ∧
  (∀ (s : State) (p : HbmPlace) (region off : Nat) (write late : Bool) (r : HbmResult), region < 8 → s.on F.HBM_REGION_EN region = true → off < s.regionBytes region → p = s.hbmPlace region off → s.isFenced (unitHbm p.pc) 0 = true →
     exec (.hbmAccess region off write r late) s = .next (s.when write (fun t => t.count .HBM_CTR (p.pc / 32) C.HBM_FENCED_DISCARDS))) ∧
  (∀ (s : State) (pc bank row at_ : Nat), s.hbm.rows.getD (bankKey pc bank) none = some (row, at_) → at_ * 6 + s.rd F.HBM_PAGE_CFG_IDLE_CYCLES pc * 5 ≤ s.now * 6 →
     exec (.hbmRowClose pc bank) s = .next (s.modHbm (fun h => { h with rows := h.rows.setD (bankKey pc bank) none none }))) ∧
  (∀ (s t u : State) (pc bank n key : Nat) (busy : Bool), pc < 64 → bank < 16 → key = bankKey pc bank → s.rd F.HBM_PC_STATUS_STATE pc = 1 → s.hbm.due.get key + s.refreshNs (pc / 32) ≤ s.now → n = s.hbm.post.get key + 1 → t = s.modHbm (fun h => { h with due := h.due.set key s.now }) → u = (t.modHbm (fun h => { h with post := h.post.set key (if busy && decide (n ≤ 8) then n else 0) })).postponedSync pc →
     exec (.hbmRefreshDue pc bank busy) s = .next (if busy && decide (8 < n) then (u.count .HBM_CTR (pc / 32) C.HBM_REFRESH_FORCED).raiseLimited (Ev.HBM_REFRESH_FORCED (pc / 32)) 0 1000000 else u)) ∧
  (∀ (s : State) (pc bank key : Nat), pc < 64 → bank < 16 → key = bankKey pc bank → s.rd F.HBM_PC_STATUS_STATE pc = 1 → s.now < s.hbm.due.get key + s.refreshNs (pc / 32) →
     exec (.hbmRefreshDue pc bank false) s = .next ((s.modHbm (fun h => { h with post := h.post.set key 0 })).postponedSync pc) ∧ exec (.hbmRefreshDue pc bank true) s = .next s) ∧
  (∀ (s : State) (k : Nat), k < 2 → s.rd F.PWR_STATUS_STATE 0 = 2 → s.hbm.reqAt.get k + 100000 ≤ s.now → ((stackPcs k).any (fun p => s.rd F.HBM_PC_STATUS_STATE p == 1)) = true →
     exec (.hbmSrEnter k) s = .next ((s.each (stackPcs k) (fun p t => t.when (t.rd F.HBM_PC_STATUS_STATE p == 1) (fun u => u.wr F.HBM_PC_STATUS_STATE p 3))).raise (Ev.HBM_SR_ENTER k))) ∧
  (∀ (s : State) (k : Nat), k < 2 → exec (.hbmSrExit k) s = .next (s.srExit k)) ∧
  (∀ (s : State) (k t : Nat), k < 2 → 85 < t → t < 256 → s.on F.HBM_STACK_STATUS_HOT k = false →
     exec (.hbmTempHigh k t) s = .next (((s.stackTemp k t).wr F.HBM_STACK_STATUS_HOT k 1).raise (Ev.HBM_TEMP_HIGH k))) ∧
  (∀ (s : State) (k t : Nat), k < 2 → 95 < t → t < 256 →
     exec (.hbmTempCrit k t) s = .next ((s.stackTemp k t).raise (Ev.HBM_TEMP_CRIT k))) ∧
  (∀ (s : State) (k t : Nat), k < 2 → t ≤ 85 → s.on F.HBM_STACK_STATUS_HOT k = true →
     exec (.hbmTempNormal k t) s = .next ((s.stackTemp k t).wr F.HBM_STACK_STATUS_HOT k 0)) ∧
  (∀ (s : State) (k t : Nat), k < 2 → t < 256 → (s.rd F.HBM_STACK_STATUS_TRAIN_TEMP_C k + 10 < t ∨ t + 10 < s.rd F.HBM_STACK_STATUS_TRAIN_TEMP_C k) →
     exec (.hbmDrift k t) s = .next ((s.stackTemp k t).raise (Ev.HBM_DRIFT k))) ∧
  (∀ (s t u v : State) (pc bank row key : Nat), pc < 64 → bank < 16 → row < 49152 → key = rateKey (.hbmRow pc bank row) → 16 ≤ (s.rates.get key).count → s.bankRepairs pc bank < 2 → t = { s with rates := s.rates.set key { s.rates.get key with count := 0 }, hbm := { s.hbm with repairs := s.hbm.repairs ++ [({ pc := pc, bank := bank, row := row } : HbmRepair)] } } → u = (t.wr F.HBM_PC_STATUS_REPAIRS pc (t.rd F.HBM_PC_STATUS_REPAIRS pc + 1)).count .HBM_CTR (pc / 32) C.HBM_SOFT_REPAIRS → v = (u.countError .corrected).raise (Ev.HBM_SOFT_REPAIR (pc / 32)) →
     exec (.hbmSoftRepair pc bank row) s = .next (v.when (v.bankRepairs pc bank == 2) (fun x => x.raise (Ev.HBM_REPAIR_EXHAUSTED (pc / 32)))))

/-- A stalled watched queue fences its consumer's unit, a fence notice discards what waits for the unit, POP removes the fence log's head, a FATAL unit stops the adapter and its reset is warm or cold, a lost core is spared, uncorrectable state fences its unit, and a rate window ends with its threshold. -/
def Obligations.ErrorsAndFences : Prop :=
  (∀ (s : State) (kind : QueueKind) (i : Nat) (q : WatchedQueue), q = watchedQueue kind i → s.on F.GLB_CREDIT_WDOG_EN 0 = true → queueListed q = true → s.isFenced (queueUnit q) 0 = false → s.stalls q = true →
     exec (.creditStall kind i) s = .next ((({ s with watch := { s.watch with stalled := s.watch.stalled ++ [q] } }).raise Ev.CREDIT_STALL).fenceUnit (queueUnit q) 0 2 [])) ∧
  (∀ (s t : State) (unit obj : Nat), s.isFenced unit obj = true → t = s.each (s.queuedTo unit obj) (fun h t => t.discardQueued unit h) →
     exec (.fenceNotice unit obj) s = .next (({ t with chan := t.chan.filter (fun m => !t.messageTo unit obj m) } : State).discard unit (t.chan.filter (fun m => t.messageTo unit obj m)).length)) ∧
  (∀ (s : State) (unit obj : Nat), s.isFenced unit obj = false → exec (.fenceNotice unit obj) s = .next s) ∧
  (∀ (s : State) (fn v : Nat), s.managedBy fn → exec (.glbFencePop fn v) s = .next (s.fencePop v)) ∧
  (∀ (s : State) (unit : Nat), fatalUnit unit = true → exec (.glbFatal unit) s = .next (s.fatalError 1 unit)) ∧
  (∀ (s : State) (t : Nat) (io : BootIo), s.fatal = some t → (t + 2000000 ≤ s.now ∨ s.journal.backlog = []) → (s.fatalBoot = none ∨ ∃ b, s.fatalBoot = some b ∧ b + 10000000000 < t) →
     exec (.fatalResetTimeout io) s = .next (s.resetBoot 2 (if s.rd F.GLB_FATAL_CAUSE_UNIT 0 = 0xE000 then 8 else 4) s.flash.active io)) ∧
  (∀ (s : State) (t b : Nat) (io : BootIo), s.fatal = some t → (t + 2000000 ≤ s.now ∨ s.journal.backlog = []) → s.fatalBoot = some b → t ≤ b + 10000000000 →
     exec (.fatalResetTimeout io) s = .next (s.coldReset 5 io)) ∧
  (∀ (s t : State) (position k : Nat), position < 4 → s.coreUp position = false → s.spareCore = some k → t = (if s.coresLost.contains position then s else s.each (s.functions.filter (fun f => f % 4 == position)) (fun f u => u.fwRestartFor f true true)) →
     exec (.fwCoreSpared position) s = .next (({ t with cores := s.cores.set position k, coresLost := s.coresLost.erase position } : State).sparePowered.raise Ev.FW_CORE_SPARED)) ∧
  (∀ (s t : State) (position : Nat), position < 4 → s.coreUp position = false → s.spareCore = none → t = (if s.coresLost.contains position then s else s.each (s.functions.filter (fun f => f % 4 == position)) (fun f u => u.fwRestartFor f true true)) →
     exec (.fwCoreSpared position) s = .next { t with coresLost := (position :: s.coresLost).eraseDups }) ∧
  (∀ (s : State) (unit obj : Nat) (frames : List Nat), s.stateFails unit obj = true →
     exec (.uncorrectableStateError unit obj frames) s = .next (s.fenceUnit unit obj (if unit / 4096 = 11 then 7 else 1) frames)) ∧
  (∀ (s t : State) (r : RateSource) (errors : Nat), rateExists r = true → s.windowStart (rateKey r) + rateWindow r ≤ s.now → t = (s.rateCount (rateKey r) errors).when (rateCorrected r) (fun t => t.add .GLB_ERR_COUNT 0 errors) →
     exec (.rateWindowEnd r errors) s = .next ((t.sramHour r).windowEnd (rateKey r) (rateWindow r) (rateLimit r) (fun u => u.rateOver r)))

/-- Supplies out of range, overcurrent and a thermal trip shut the rails down and record why; a supply that returns resets the adapter; phases and rails that fault are spared or fenced; readings raise alerts and change the throttle level; clusters and offload groups are gated and woken; the core PLL relocks or is FATAL. Both supplies coming up boot the adapter, their loss turns it off, COLD_RST_N and the reset register reset it, firmware that does not come up boots the other slot, and a cluster can be reset on its own. -/
def Obligations.PowerAndResets : Prop :=
  (∀ (s : State) (mv : Nat), mv < 4150 → s.powered = true →
     exec (.vinLoss mv) s = .next ((s.wr F.PWR_VIN_VIN_MV 0 mv).shutDown 2 .aon)) ∧
  (∀ (s : State) (mv : Nat), mv < 4150 → s.supply.power = .shut → exec (.vinLoss mv) s = .next (s.wr F.PWR_VIN_VIN_MV 0 mv)) ∧
  (∀ (s : State) (x : PowerSample) (io : BootIo), 4350 < x.mv → s.supply.power = .aon →
     exec (.vinRestored x io) s = .next ((s.sense x).coldReset 3 io)) ∧
  (∀ (s : State) (x : PowerSample) (io : BootIo), 4350 < x.mv → s.supply.power = .shut → (s.sense x).diesAtMost 949 = true →
     exec (.vinRestored x io) s = .next ((s.sense x).coldReset 6 io)) ∧
  (∀ (s : State) (ca ns : Nat), 6000 < ca → 100000 ≤ ns → s.powered = true →
     exec (.vinOvercurrent ca ns) s = .next ((s.wr F.PWR_VIN_CUR_CA 0 ca).shutDown 3 .aon)) ∧
  (∀ (s : State) (n : Nat), s.powered = true → n < 198 → n ∉ s.supply.phasesOut → exec (.phaseFault n) s = .next (
       let u := (({ s with supply := { s.supply with phasesOut := n :: s.supply.phasesOut } } : State).phaseSync).raise Ev.PWR_PHASE_FAULT
       if u.supply.phasesOut.length ≤ 18 then u.raise Ev.PWR_PHASE_SPARED else u.raise Ev.PWR_BUDGET)) ∧
  (∀ (s : State) (d : Nat), s.powered = true → d < 64 → (s.rd F.PWR_DOMAIN_STATE d = 1 ∨ s.rd F.PWR_DOMAIN_STATE d = 2) →
     exec (.railFault d) s = .next (
       let cause := s.fresh % 256
       let u := ((s.used.raise Ev.PWR_RAIL_FAULT).wr F.PWR_DOMAIN_STATE d 3).raise Ev.PWR_DOMAIN_FAULT
       if gateable d then u.each (u.domainUnits d) (fun k t => t.fenceUnit k 0 cause []) else u.fatalError cause (0xE100 + d))) ∧
  (∀ (s : State) (c : Nat), s.powered = true → c < 16 → s.on F.PWR_CFG_CLUSTER_GATE 0 = true → s.clusterServes c = true → s.clusterIdle c = true → s.idleSince c + 10000000 ≤ s.now → s.siblings c ≠ [] → 63 < s.freeIn (s.siblings c) →
     exec (.clusterGate c) s = .next (s.gateCluster c)) ∧
  (∀ (s : State) (c : Nat), s.powered = true → c < 16 → (s.clusters.get c).gated = true → s.rd F.PWR_STATUS_STATE 0 = 1 → (128 < s.dispatchDepth (c / 4) ∨ s.freeIn ((List.range 4).map (fun k => c / 4 * 4 + k) |>.filter s.clusterServes) = 0) →
     exec (.clusterUngate c) s = .next (s.ungateCluster c)) ∧
  (∀ (s : State), s.powered = true → s.rd F.PWR_STATUS_STATE 0 = 1 → s.mayDeepIdle = true → exec .deepIdleEnter s = .next (
       let s := (s.wr F.PWR_STATUS_STATE 0 2).each ((List.range 4).filter (fun g => !s.oflGated g))
         (fun g t => (t.wr F.OFL_GROUP_CTRL_GATED g 1).domainOff (40 + g) false)
       let s := s.when (s.on F.PWR_CFG_CLUSTER_GATE 0) (fun t => t.deepGate)
       (s.raise Ev.PWR_DEEP_IDLE_ENTER).raise Ev.PWR_STATE)) ∧
  (∀ (s : State), s.powered = true → s.rd F.PWR_STATUS_STATE 0 = 2 → s.mayDeepIdle = false → exec .deepIdleExit s = .next (
       let none_ := s.espSas.isEmpty && s.sessions.isEmpty && s.places.isEmpty
       let s := (s.wr F.PWR_STATUS_STATE 0 1).when (!none_) (fun t => t.each (List.range 4) (fun g u => u.oflWake g))
       let s := s.each (List.range 16) (fun c t => t.ungateCluster c)
       (s.raise Ev.PWR_DEEP_IDLE_EXIT).raise Ev.PWR_STATE)) ∧
  (∀ (s u : State) (x : PowerSample) (n : Nat), s.powered = true → n = s.rd F.PWR_STATUS_LEVEL 0 → n < 4 → s.supply.levelAt + 10000000 ≤ s.now → u = s.sense x → (u.dieReaches (10 * s.rd F.PWR_THERM_CFG_THROTTLE_C 0 : Nat) || decide (s.capDw < x.dw) || u.stackAbove 95) = true →
     exec (.throttleRise x) s = .next (((u.setLevel (n + 1)).when (n == 0) (fun t => t.raise Ev.PWR_THROTTLE_ON)).when (decide (s.capDw < x.dw)) (fun t => t.raise Ev.PWR_BUDGET))) ∧
  (∀ (s u : State) (x : PowerSample) (n : Nat), s.powered = true → n = s.rd F.PWR_STATUS_LEVEL 0 → 0 < n → s.supply.levelAt + 100000000 ≤ s.now → u = s.sense x → (u.diesAtMost (10 * s.rd F.PWR_THERM_CFG_THROTTLE_C 0 - 50 : Nat) && decide (x.dw + 50 ≤ s.capDw) && !u.stackAbove 90) = true →
     exec (.throttleFall x) s = .next ((u.setLevel (n - 1)).when (n == 1) (fun t => t.raise Ev.PWR_THROTTLE_OFF))) ∧
  (∀ (s : State) (x : PowerSample), s.powered = true → (s.sense x).dieReaches (10 * s.rd F.PWR_THERM_CFG_ALERT_C 0 : Nat) = true →
     exec (.pwrTjHigh x) s = .next (((s.sense x).setAlert true).raise Ev.PWR_TJ_HIGH)) ∧
  (∀ (s : State) (x : PowerSample), s.powered = true → (s.sense x).dieReaches 1100 = true →
     exec (.tjCrit x) s = .next ((s.sense x).raise Ev.PWR_TJ_CRIT)) ∧
  (∀ (s : State) (x : PowerSample), s.powered = true → x.temps.any (fun e => decide (e.1 < 28 ∧ 1150 ≤ e.2)) →
     exec (.thermalTrip x) s = .next ((s.sense x).shutDown 1 .shut)) ∧
  (∀ (s : State) (sensor : Nat) (t : Int), s.powered = true → sensor < 32 → s.on F.PWR_TEMP_FAULT sensor = false → s.implausible sensor t = true →
     exec (.pwrSensorFault sensor t) s = .next (((s.put .PWR_TEMP sensor (2 ^ 31 + 2 ^ 30 + (t % 65536).toNat)).tempSync).raise Ev.PWR_SENSOR_FAULT)) ∧
  (∀ (s : State), s.powered = true → s.supply.pllAt = none →
     exec .corePllUnlock s = .next (({ s with supply := { s.supply with pllAt := some s.now } } : State).raise Ev.PWR_CORE_PLL_UNLOCK)) ∧
  (∀ (s : State) (t : _), s.supply.pllAt = some t → s.now ≤ t + 10000000 → s.fatal = none →
     exec .corePllRelock s = .next ({ s with supply := { s.supply with pllAt := none } })) ∧
  (∀ (s : State) (t : _), s.supply.pllAt = some t → t + 10000000 ≤ s.now →
     exec .corePllTimeout s = .next (s.used.fatalError (s.fresh % 256) 0xE000)) ∧
  (∀ (s : State) (mv : Nat), s.powered = true → 4150 ≤ mv → mv < 4500 →
     exec (.pwrVinLow mv) s = .next ((s.wr F.PWR_VIN_VIN_MV 0 mv).raise Ev.PWR_VIN_LOW)) ∧
  (∀ (s : State) (mv : Nat), s.powered = true → 18000 < mv →
     exec (.pwrVinHigh mv) s = .next ((s.wr F.PWR_VIN_VIN_MV 0 (min mv 65535)).raise Ev.PWR_VIN_HIGH)) ∧
  (∀ (s : State) (mv : Nat), s.supply.power ≠ .off → 4150 ≤ mv → mv < 4500 →
     exec (.pwrVinAonLow mv) s = .next ((s.wr F.PWR_VIN_AON_MV 0 mv).raise Ev.PWR_VIN_AON_LOW)) ∧
  (∀ (s : State) (io : BootIo), (s.supply.power = .off ∨ (s.powered ∧ s.supply.bootAt = none)) → exec (.powerOn io) s = .next (
       let u := s.send (.pin "AON_OK" true)
       let u := u.resetBoot 0 0 u.flash.active io
       { u with supply := { u.supply with aonOk := true } })) ∧
  (∀ (s : State) (mv : Nat), mv < 4150 → s.supply.power ≠ .off → exec (.vinAonLoss mv) s = .next (
       let u := ((s.setTrip false).setAlert false).send (.pin "AON_OK" false)
       { u.bare with supply := { power := .off } })) ∧
  (∀ (s : State) (ns : Nat) (x : PowerSample) (io : BootIo), 1000 ≤ ns → s.powered = true →
     exec (.coldRstN ns x io) s = .next (s.coldReset 1 io)) ∧
  (∀ (s : State) (ns : Nat) (x : PowerSample) (io : BootIo), 1000 ≤ ns → s.supply.power = .shut → (s.sense x).diesAtMost 949 = true →
     exec (.coldRstN ns x io) s = .next ((s.sense x).coldReset 6 io)) ∧
  (∀ (s : State) (ns : Nat) (x : PowerSample) (io : BootIo), ns < 1000 → exec (.coldRstN ns x io) s = .next s) ∧
  (∀ (s : State) (t : _) (io : BootIo), s.supply.bootAt = some t → s.powered = true → s.fwUp = false → t + 3000000000 ≤ s.now →
     exec (.bootWatchdog io) s = .next (
       let u : State := { s with supply := { s.supply with slotFailed := (s.fwSlot :: s.supply.slotFailed).eraseDups } }
       u.resetBoot 1 7 (1 - s.fwSlot) io)) ∧
  (∀ (s : State) (fn v : Nat) (io : BootIo), exec (.glbResetCold fn v io) s = .next (s.asManager fn (fun t => t.glbReset (putBits v 31 31 1) io))) ∧
  (∀ (s : State) (fn v : Nat) (io : BootIo), exec (.glbResetWarm fn v io) s = .next (s.asManager fn (fun t => t.glbReset (putBits v 30 30 1) io))) ∧
  (∀ (s : State) (fn v : Nat) (failed : List Nat), exec (.glbResetCluster fn v failed) s = .next (s.asManager fn (fun t => t.glbResetCluster v failed)))

/-- A register write of the manager or of a function acts at its place, a read answers with its value and its side effects, a MAC that is up receives a frame, and the frame that is next leaves, is too long, is refused by MACsec or meets a port that is down. -/
def Obligations.RegisterAccess : Prop :=
  (∀ (s : State) (fn off size v : Nat), s.managedBy fn →
     exec (.registerWrite fn (.bar2 off) size v) s = .next (s.bar2Write off size v)) ∧
  (∀ (s : State) (fn off size v : Nat), s.fnOpen fn = true →
     exec (.registerWrite fn (.bar0 off) size v) s = .next (s.bar0Write fn off size v)) ∧
  (∀ (s : State) (fn size v : Nat), s.fnOpen fn = true → bit v 0 = true →
     exec (.registerWrite fn .ats size v) s = .next (s.modFn fn (fun g => { g with ats := true }))) ∧
  (∀ (s : State) (fn size v : Nat), s.fnOpen fn = true → bit v 0 = false →
     exec (.registerWrite fn .ats size v) s = .next (if (s.fn fn).ats then s.atsDisable fn else s)) ∧
  (∀ (s : State) (fn size v : Nat), s.fnOpen fn = true → bit v 0 = true →
     exec (.registerWrite fn .pasid size v) s = .next (s.modFn fn (fun g => { g with pasidEn := true }))) ∧
  (∀ (s : State) (fn size v : Nat), s.fnOpen fn = true → bit v 0 = false →
     exec (.registerWrite fn .pasid size v) s = .next (if (s.fn fn).pasidEn then s.pasidDisable fn else s)) ∧
  (∀ (s : State) (fn alloc size v : Nat), s.fnOpen fn = true →
     exec (.registerWrite fn (.pri alloc) size v) s = .next (s.modFn fn (fun g => { g with priEn := bit v 0, priAlloc := alloc }))) ∧
  (∀ (s : State) (fn off size v lo : Nat), s.cfgOpen fn = true → cfgSize off size = true → s.fwUp = true → lo = 8 * (off % 4) →
     exec (.registerWrite fn (.cfg off) size v) s = .next (s.cfgWordWrite fn (off / 4 * 4) (putBits (s.cfgWord fn (off / 4 * 4) % 2 ^ 32) (lo + 8 * size - 1) lo v))) ∧
  (∀ (s : State) (fn off size : Nat), s.cfgOpen fn = true → cfgSize off size = true → s.fwUp = true →
     exec (.rcRegisterRead fn (.cfg off) size) s = .next (s.send (.readValue fn (2 ^ 32 + off) (s.cfgWord fn (off / 4 * 4) / 2 ^ (8 * (off % 4)) % 2 ^ (8 * size))))) ∧
  (∀ (s : State) (fn off size v : Nat), s.cfgOpen fn = true → cfgSize off size = true → s.fwUp = false →
     exec (.registerWrite fn (.cfg off) size v) s = .next (s.send (.retryStatus fn off)) ∧ exec (.rcRegisterRead fn (.cfg off) size) s = .next (s.send (.retryStatus fn off))) ∧
  (∀ (s : State) (off size : Nat), s.supply.power = .on → s.recovery = false → mayManage s.manager = true →
     exec (.rcRegisterRead s.manager (.bar2 off) size) s = .next ((s.bar2Read s.manager off size).2.send (.readValue s.manager off (s.bar2Read s.manager off size).1))) ∧
  (∀ (s : State) (fn off size : Nat), s.supply.power = .on →
     exec (.rcRegisterRead fn (.bar0 off) size) s = .next (s.send (.readValue fn off (if s.fnOpen fn then s.bar0Read fn off size else 0)))) ∧
  (∀ (s : State) (fn size : Nat), exec (.rcRegisterRead fn .ats size) s = .next (s.send (.readValue fn 0 (b2n (s.fn fn).ats)))) ∧
  (∀ (s : State) (fn size : Nat), exec (.rcRegisterRead fn .pasid size) s = .next (s.send (.readValue fn 0 (b2n (s.fn fn).pasidEn)))) ∧
  (∀ (s : State) (fn alloc size : Nat), exec (.rcRegisterRead fn (.pri alloc) size) s = .next (s.send (.readValue fn 0 (b2n (s.fn fn).priEn)))) ∧
  (∀ (s : State) (off : Nat), s.supply.power = .on → s.recovery = false → mayManage s.manager = true →
     exec (.lowWordRead s.manager off) s = .next ((s.bar2Read s.manager off 4).2.send (.readValue s.manager off (s.bar2Read s.manager off 4).1))) ∧
  (∀ (s : State) (port : Nat) (x : RxFrame), port < 16 → s.on F.PRT_STATUS_LINK_UP port = true → s.isFenced (unitPort port) 0 = false → s.fatal = none →
     exec (.macRxFrame port x) s = .next (
       let k := (s.countPcs port x).rxKey port
       let s := k.1.countBy .PRT_CTR port C.PRT_MM_FRAG_RX x.frags
       if x.assyErr then s.count .PRT_CTR port C.PRT_MM_ASSY_ERR
       else (s.when (x.frags != 0) (fun t => t.count .PRT_CTR port C.PRT_MM_ASSY_OK)).macRx port x k.2)) ∧
  (∀ (s : State) (port h : Nat) (x : TxIo) (l : List Nat), port < 16 → s.onWire port = none → (s.on F.PRT_STATUS_LINK_UP port = false ∨ s.isFenced (unitPort port) 0 = true) → s.atStage (.txCell port) = h :: l →
     exec (.macTxFrame port x.toTxCells x.phase x.stop) s = .next ((s.count .PRT_CTR port C.PRT_TX_DROP_LINK_DOWN).dropPkt h 0x0C)) ∧
  (∀ (s : State) (port k : Nat) (x : TxIo), port < 16 → s.onWire port = some k →
     exec (.macTxFrame port x.toTxCells x.phase x.stop) s = .next (s.goOn port k x)) ∧
  (∀ (s d : State) (port : Nat) (x : TxIo) (y : TxNow), port < 16 → s.onWire port = none → s.on F.PRT_STATUS_LINK_UP port = true → s.isFenced (unitPort port) 0 = false → d = s.dropStuck port → d.nextTx port = none → d.txNow.getD (2 * port + 1) none = some y → d.classHeld port (d.node 3 ((d.pkt y.h).getD {}).queue).tc = false → d.holdMac port = false →
     exec (.macTxFrame port x.toTxCells x.phase x.stop) s = .next (d.goOn port (2 * port + 1) x)) ∧
  (∀ (s d u t : State) (port h stamp : Nat) (x : TxIo) (p : Packet) (n : Node) (l : Bool) (f g : Bytes) (a : State × Bytes), port < 16 → s.onWire port = none → s.on F.PRT_STATUS_LINK_UP port = true → s.isFenced (unitPort port) 0 = false → d = s.dropStuck port → d.nextTx port = some (h, p) → n = d.node 3 p.queue → stamp = d.txStamp port x.phase → l = p.isLate n (shortOf stamp) → (l && !n.lateSend) = false → u = d.when l (fun t => t.sentLate (p.queue / 32768) h p) → f = p.rtag.elim p.data (fun n => insertRTag p.data n) → a = u.ptpTx port p f stamp → (x.badCell || p.badCell) = false → a.1.macsecTx port a.2 = (t, some g) → max 64 (g.length + 4) ≤ u.rd F.PRT_MAC_CFG_MAX_FRAME port →
     exec (.macTxFrame port x.toTxCells x.phase x.stop) s = .next (((t.stampTx port p stamp).moveTo h (.sending port)).carry port (2 * port + b2n (t.preemptable port n.tc)) { h := h, data := g, stomp := x.starved || p.badFcs } x.stop)) ∧
  (∀ (s d u t : State) (port h stamp : Nat) (x : TxIo) (p : Packet) (n : Node) (l : Bool) (f g : Bytes) (a : State × Bytes), port < 16 → s.onWire port = none → s.on F.PRT_STATUS_LINK_UP port = true → s.isFenced (unitPort port) 0 = false → d = s.dropStuck port → d.nextTx port = some (h, p) → n = d.node 3 p.queue → stamp = d.txStamp port x.phase → l = p.isLate n (shortOf stamp) → (l && !n.lateSend) = false → u = d.when l (fun t => t.sentLate (p.queue / 32768) h p) → f = p.rtag.elim p.data (fun n => insertRTag p.data n) → a = u.ptpTx port p f stamp → (x.badCell || p.badCell) = false → a.1.macsecTx port a.2 = (t, some g) → u.rd F.PRT_MAC_CFG_MAX_FRAME port < max 64 (g.length + 4) →
     exec (.macTxFrame port x.toTxCells x.phase x.stop) s = .next (t.dropPkt h 2)) ∧
  (∀ (s d u t : State) (port h stamp : Nat) (x : TxIo) (p : Packet) (n : Node) (l : Bool) (f : Bytes) (a : State × Bytes), port < 16 → s.onWire port = none → s.on F.PRT_STATUS_LINK_UP port = true → s.isFenced (unitPort port) 0 = false → d = s.dropStuck port → d.nextTx port = some (h, p) → n = d.node 3 p.queue → stamp = d.txStamp port x.phase → l = p.isLate n (shortOf stamp) → (l && !n.lateSend) = false → u = d.when l (fun t => t.sentLate (p.queue / 32768) h p) → f = p.rtag.elim p.data (fun n => insertRTag p.data n) → a = u.ptpTx port p f stamp → (x.badCell || p.badCell) = false → a.1.macsecTx port a.2 = (t, none) →
     exec (.macTxFrame port x.toTxCells x.phase x.stop) s = .next (t.used.dropPkt h (t.fresh % 256))) ∧
  (∀ (s d : State) (port h stamp : Nat) (x : TxIo) (p : Packet) (n : Node), port < 16 → s.onWire port = none → s.on F.PRT_STATUS_LINK_UP port = true → s.isFenced (unitPort port) 0 = false → d = s.dropStuck port → d.nextTx port = some (h, p) → n = d.node 3 p.queue → stamp = d.txStamp port x.phase → p.isLate n (shortOf stamp) = true → n.lateSend = false →
     exec (.macTxFrame port x.toTxCells x.phase x.stop) s = .next (d.dropLate (p.queue / 32768) h))

/-- With a command at the front of the queue, a step is that command's effect on the state whose queue is the rest; with nothing waiting the block idles (the model's choice: log 178). -/
def Obligations.StepOrder : Prop :=
  (∀ (c : Instr) (s : State) (rest : List Instr), s.pending = c :: rest → step s = exec c { s with pending := rest }) ∧
  (∀ s : State, s.pending = [] → step s = .next s)

/-- Whatever the state and the operands, every command ends in a next state: the spec gives the block no stop, and a command whose condition does not hold leaves the state (the model's choice: log 10). -/
def Obligations.EveryCommandCompletes : Prop :=
  ∀ (c : Instr) (s : State), ∃ t, exec c s = .next t

/-- At reset device time is legal, the manager role lies with PF0, the logs are empty and registers and memories are listed in canonical form. -/
def Obligations.ResetInvariant : Prop :=
  State.reset.Inv

/-- From every state whose device time is legal (nanoseconds below 10^9, 48-bit fraction and seconds), whose manager role lies with PF0, PF2 or nobody, whose firmware write log, fence log and mismatch log hold at most 256, 64 and 16 entries, and whose registers and memories are in canonical form, a step gives such a state, whatever command is at the front of the queue. -/
def Obligations.StepKeepsInvariant : Prop :=
  ∀ (s t : State), s.Inv → step s = .next t → t.Inv

/-- Every well-formed write of the manager's register space that the other manager-capable PF sends is discarded and counted in BAR2_DENIED, with HIF_BAR2_DENIED at most once in a millisecond, and one that a function without BAR2 sends leaves the state; a read of the other manager-capable PF is counted so and answers 0. A command of the control interface whose function is fenced is answered FENCED and has no other effect, except the commands of group 0x00xx (a row that serves only some commands of its code leaves the others to their row). Of one that is not fenced, DENIED comes before every other refusal (of a payload whose length is not the layout's, only by the codes of the manager), a payload that could not be taken (its parity or its read failed) gives its own code, a payload of another length, with a reserved bit or a field out of range is BAD_ARG, and an admin entry whose response has no translation is XLATE_FAULT before it acts. -/
def Obligations.Refusals : Prop :=
  (∀ (s : State) (fn : Nat) (c : Instr), s.supply.power = .on → s.recovery = false → fn ≠ s.manager → c.bar2Writer = some fn → c.wf = true →
     exec c s = .next (if fn = 0 ∨ fn = 2 then (s.count .HIF_CTR (fn / 2) C.HIF_BAR2_DENIED).raiseMs (Ev.HIF_BAR2_DENIED (fn / 2)) else s)) ∧
  (∀ (s : State) (fn off size : Nat), s.supply.power = .on → s.recovery = false → fn ≠ s.manager → (fn = 0 ∨ fn = 2) →
     exec (.rcRegisterRead fn (.bar2 off) size) s = .next (((s.count .HIF_CTR (fn / 2) C.HIF_BAR2_DENIED).raiseMs (Ev.HIF_BAR2_DENIED (fn / 2))).send (.readValue fn off 0))) ∧
  (∀ (i : Instr) (s : State) (e : Eci) (code : Nat) (c : EciCmd), i.eciRow = some (e, code) → s.eciCmd e = some c → c.code = code → code / 256 ≠ 0 → s.on F.MBX_STATUS_FENCED e.fn = true →
     exec i s = .next s ∨ exec i s = .next (s.answers e RC_FENCED [])) ∧
  (∀ (s : State) (e : Eci) (c : EciCmd) (code : Nat) (masks : List Nat) (pick denied bad : List Nat → Bool) (run : List Nat → EciOut), s.eciCmd e = some c → c.code = code → s.eciFenced e.fn code = false → pick c.words = true → s.eciDenied e.fn c denied masks.length = true → s.eci e code pick denied masks bad run = .next (s.answers e RC_DENIED [])) ∧
  (∀ (s : State) (e : Eci) (c : EciCmd) (code : Nat) (masks : List Nat) (pick denied bad : List Nat → Bool) (run : List Nat → EciOut), s.eciCmd e = some c → c.code = code → s.eciFenced e.fn code = false → pick c.words = true → s.eciDenied e.fn c denied masks.length = false → c.rc ≠ 0 → s.eci e code pick denied masks bad run = .next (s.answers e c.rc [])) ∧
  (∀ (s : State) (e : Eci) (c : EciCmd) (code : Nat) (masks : List Nat) (pick denied bad : List Nat → Bool) (run : List Nat → EciOut), s.eciCmd e = some c → c.code = code → s.eciFenced e.fn code = false → pick c.words = true → s.eciDenied e.fn c denied masks.length = false → c.rc = 0 → (!shapeOk masks c || bad c.words) = true → s.eci e code pick denied masks bad run = .next (s.answers e RC_BAD_ARG [])) ∧
  (∀ (s : State) (e : Eci) (c : EciCmd) (code : Nat) (masks : List Nat) (pick denied bad : List Nat → Bool) (run : List Nat → EciOut), s.eciCmd e = some c → c.code = code → s.eciFenced e.fn code = false → pick c.words = true → s.eciDenied e.fn c denied masks.length = false → c.rc = 0 → shapeOk masks c = true → bad c.words = false → e.path = .admin → c.resp ≠ 0 → e.respFault = true → s.eci e code pick denied masks bad run = .next (s.answers e RC_XLATE_FAULT []))

/-- A write of a register sets that element of that register and no other register and nothing else of the state; a write of a field sets the field to the value's low bits, and every field that shares no bit with it, of any register, reads as before. -/
def Obligations.RegisterReadWrite : Prop :=
  (∀ (s : State) (r q : Reg) (i j : Nat) (v : Word), (s.setReg r i v).reg q j = if q = r ∧ j = i then v else s.reg q j) ∧
  (∀ (s : State) (r : Reg) (i : Nat) (v : Word), { s.setReg r i v with regs := s.regs } = s) ∧
  (∀ (s : State) (f : Fld) (i v : Nat), f.lo ≤ f.hi → f.hi < 64 → (s.wr f i v).rd f i = v % 2 ^ (f.hi + 1 - f.lo)) ∧
  (∀ (s : State) (f g : Fld) (i j v : Nat), f.lo ≤ f.hi → f.hi < 64 → g.lo ≤ g.hi → g.hi < 64 → (f.reg ≠ g.reg ∨ i ≠ j ∨ f.hi < g.lo ∨ g.hi < f.lo) → (s.wr f i v).rd g j = s.rd g j)

/-- When the manager writes 1 to OT_LATCH while the comparator is still tripped, OT_LATCH reads 1 and the oven stays in OVERTEMP. -/
def Obligations.OverTemperatureLatch : Prop :=
  ∀ (s : State) (fn : Nat), s.managedBy fn → s.rd F.OVN_STATUS_OT_NOW 0 = 1 → s.rd F.OVN_STATUS_OT_LATCH 0 = 1 → s.ovenIs .overtemp = true → ∃ t, exec (.ovnOtLatchClear fn true) s = .next t ∧ t.rd F.OVN_STATUS_OT_LATCH 0 = 1 ∧ t.ovenIs .overtemp = true

/-- A write to TSU_FREQ_OFFSET with the value it already holds is a steering write: the time of the last steering is now and HOLD_STATE is TRACKING, so that the adapter stays out of holdover; but it is no change: the register and the increment stay, no increment becomes due, and no STEER record joins the journal. -/
def Obligations.RepeatedOffset : Prop :=
  ∀ (s : State) (fn : Nat) (w : Width) (v : Nat), s.managedBy fn → merge w (s.val .TSU_FREQ_OFFSET 0) v = s.val .TSU_FREQ_OFFSET 0 →
    ∃ t, exec (.tsuFreqOffsetWrite fn w v) s = .next t ∧ t.tsu.steerAt = s.now ∧ t.rd F.TSU_STATUS_HOLD_STATE 0 = 1 ∧
      t.val .TSU_FREQ_OFFSET 0 = s.val .TSU_FREQ_OFFSET 0 ∧ t.val .TSU_INCR 0 = s.val .TSU_INCR 0 ∧ t.tsu.incrDue = s.tsu.incrDue ∧
      (∀ r ∈ t.journal.backlog, r ∈ s.journal.backlog ∨ r.kind ≠ 2)

/-- Fencing a unit or object that lies inside a fenced unit changes nothing. Any other is fenced, its class is counted, and one entry with unit, cause, class, object and time joins the fence log behind the others; on a full log the 64 oldest entries are kept and FENCE_LOST counts the discarded one. No other unit's fence changes. -/
def Obligations.FenceLog : Prop :=
  (∀ (s : State) (unit cause obj : Nat) (c : ErrClass), s.insideFenced unit obj = true → s.fence unit cause c obj = s) ∧
  (∀ (s : State) (unit cause obj : Nat) (c : ErrClass), s.insideFenced unit obj = false → (s.fence unit cause c obj).isFenced unit obj = true ∧
     (s.fence unit cause c obj).fenceLog = (if s.fenceLog.length < 64 then s.fenceLog ++ [{ unit := unit, cause := cause, cls := c.ix, object := obj, when_ := s.stamp }] else s.fenceLog) ∧
     (s.fence unit cause c obj).val .GLB_ERR_COUNT c.ix = (s.val .GLB_ERR_COUNT c.ix + 1) % 2 ^ 64 ∧
     (∀ u o, fenceKey u o ≠ fenceKey unit obj → (s.fence unit cause c obj).isFenced u o = s.isFenced u o))

/-- The increment of an OFFSET within its range is the integer nearest to 2^48 + OFFSET x 2^32 / 10^9, and OFFSET and -OFFSET lie the same distance above and below 2^48. A tick of a counter that counts, with no slew and no step that applies, adds that increment to device time, counted in units of 2^-48 ns modulo 2^48 seconds; a tick of one that does not count leaves device time. -/
def Obligations.TimeCounting : Prop :=
  (∀ off : Int, -32768000000 ≤ off → off ≤ 32768000000 → 2 * ((increment off : Int) * 1000000000 - (2 ^ 48 * 1000000000 + off * 2 ^ 32)).natAbs ≤ 1000000000 ∧ increment off + increment (-off) = 2 ^ 49) ∧
  (∀ (s t : State), s.tsu.counting = true → s.tsu.slewLeft = 0 → s.stepApplies = false →
     exec .timeClockTick s = .next t → t.time.units = (s.time.units + s.tickIncr) % (2 ^ 96 * 1000000000) ∧ t.time.legal) ∧
  (∀ (s t : State), s.tsu.counting = false → exec .timeClockTick s = .next t → t.time = s.time)

/-- Whatever the state, a row of the time base or the oven that is no command of the control interface leaves packets, threads, control store, every byte of the block's memories, rings, scheduler nodes, tables, functions and the manager role as they were, and every register but those of the time unit and the oven, pending events, the journal's backlog and counters, and the host interface's counters. An ALU part that acts on thread t, and whose destination is neither SIGNAL nor INBOX_POP, leaves every other thread, every operand of t but its destination, t's PC, every register, every packet and every byte of the block's memories as they were, and sends nothing. -/
def Obligations.RowsFrame : Prop :=
  (∀ (c : Instr) (s u : State), c.timeRow = true → exec c s = .next u →
     (∀ q j, q ∉ timeRegs → u.reg q j = s.reg q j) ∧ (∀ a, u.localMem.get a = s.localMem.get a ∧ u.tsram.get a = s.tsram.get a ∧ u.hbmMem.get a = s.hbmMem.get a ∧ u.copyWin.get a = s.copyWin.get a) ∧
       u.pkts = s.pkts ∧ u.threads = s.threads ∧ u.cs = s.cs ∧ u.rings = s.rings ∧ u.nodes = s.nodes ∧ u.fns = s.fns ∧ u.l2 = s.l2 ∧ u.flow = s.flow ∧ u.frer = s.frer ∧ u.espSas = s.espSas ∧ u.manager = s.manager) ∧
  (∀ (c : Instr) (s u : State) (t op : Nat) (f : AluArgs), c.aluPart = some (t, op, f) → s.aluRuns t op f → f.dst ≠ 202 → f.dst ≠ 203 →
     exec c s = .next u →
     (∀ k, k ≠ t → u.thread k = s.thread k) ∧ (∀ n, n ≠ f.dst → (u.thread t).ops.get n = (s.thread t).ops.get n) ∧ (u.thread t).pc = (s.thread t).pc ∧
       u.regs = s.regs ∧ u.pkts = s.pkts ∧ u.localMem = s.localMem ∧ u.tsram = s.tsram ∧ u.hbmMem = s.hbmMem ∧ u.out = s.out)
end

