-- ==== Sys2Proof/Laws/Bits.lean ====
section
/-! SUPPORT. Bit fields bit by bit, and the keys of registers. -/

namespace Sys2Proof.Machine

/-- Registers are numbered below 512. -/
theorem ctorIdx_lt (r : Reg) : r.ctorIdx < 512 := by
  have : ∀ r : Reg, decide (r.ctorIdx < 512) = true := by intro r; cases r <;> rfl
  exact of_decide_eq_true (this r)

/-- No two registers share a number. -/
theorem ctorIdx_inj {r q : Reg} (h : r.ctorIdx = q.ctorIdx) : r = q := by
  have e : Reg.ofNat r.ctorIdx = Reg.ofNat q.ctorIdx := by rw [h]
  rwa [Reg.ofNat_ctorIdx, Reg.ofNat_ctorIdx] at e

/-- No two register elements share a key. -/
theorem regKey_inj {r q : Reg} {i j : Nat} : regKey r i = regKey q j ↔ r = q ∧ i = j := by
  constructor
  · intro h; unfold regKey at h; have := ctorIdx_lt r; have := ctorIdx_lt q
    exact ⟨ctorIdx_inj (by omega), by omega⟩
  · rintro ⟨rfl, rfl⟩; rfl

/-- A field written into 64 bits leaves 64 bits. -/
theorem putBits_lt {x hi lo v : Nat} (h : lo ≤ hi) (g : hi < 64) (hx : x < 2 ^ 64) : putBits x hi lo v < 2 ^ 64 := by
  have e : putBits x hi lo v = x % 2 ^ lo + (v % 2 ^ (hi + 1 - lo)) * 2 ^ lo + x / 2 ^ (hi + 1) * 2 ^ (hi + 1) := rfl
  rw [e]
  have h1 : x % 2 ^ lo < 2 ^ lo := Nat.mod_lt _ (by positivity)
  have h2 : v % 2 ^ (hi + 1 - lo) < 2 ^ (hi + 1 - lo) := Nat.mod_lt _ (by positivity)
  have h3 : 2 ^ (hi + 1 - lo) * 2 ^ lo = 2 ^ (hi + 1) := by rw [← pow_add]; congr 1; omega
  have h4 : x / 2 ^ (hi + 1) < 2 ^ (63 - hi) := by
    rw [Nat.div_lt_iff_lt_mul (by positivity), ← pow_add]; convert hx using 2; omega
  have h5 : 2 ^ (63 - hi) * 2 ^ (hi + 1) = 2 ^ 64 := by rw [← pow_add]; congr 1; omega
  have h6 : (v % 2 ^ (hi + 1 - lo) + 1) * 2 ^ lo ≤ 2 ^ (hi + 1) := by rw [← h3]; exact Nat.mul_le_mul_right _ h2
  have h7 : (x / 2 ^ (hi + 1) + 1) * 2 ^ (hi + 1) ≤ 2 ^ 64 := by rw [← h5]; exact Nat.mul_le_mul_right _ h4
  rw [Nat.add_mul, Nat.one_mul] at h6 h7
  omega

/-- Each bit after a field is written. -/
theorem testBit_putBits (x hi lo v k : Nat) (h : lo ≤ hi) : (putBits x hi lo v).testBit k = if lo ≤ k ∧ k ≤ hi then v.testBit (k - lo) else x.testBit k := by
  have h1 : x % 2 ^ lo < 2 ^ lo := Nat.mod_lt _ (by positivity)
  have h2 : v % 2 ^ (hi + 1 - lo) < 2 ^ (hi + 1 - lo) := Nat.mod_lt _ (by positivity)
  have h3 : 2 ^ (hi + 1 - lo) * 2 ^ lo = 2 ^ (hi + 1) := by rw [← pow_add]; congr 1; omega
  have h6 : (v % 2 ^ (hi + 1 - lo) + 1) * 2 ^ lo ≤ 2 ^ (hi + 1) := by rw [← h3]; exact Nat.mul_le_mul_right _ h2
  have e : putBits x hi lo v = 2 ^ (hi + 1) * (x / 2 ^ (hi + 1)) + (2 ^ lo * (v % 2 ^ (hi + 1 - lo)) + x % 2 ^ lo) := by unfold putBits; ring
  rw [Nat.add_mul, Nat.one_mul] at h6
  rw [e, Nat.testBit_two_pow_mul_add _ (by rw [Nat.mul_comm]; omega), Nat.testBit_two_pow_mul_add _ h1, Nat.testBit_mod_two_pow, Nat.testBit_mod_two_pow, Nat.testBit_div_two_pow]
  by_cases a : k < lo
  · simp [a, show k < hi + 1 by omega, show ¬ lo ≤ k by omega]
  · by_cases b : k ≤ hi
    · simp [show k < hi + 1 by omega, show ¬ k < lo by omega, show lo ≤ k by omega, b, show k - lo < hi + 1 - lo by omega]
    · simp [show ¬ k < hi + 1 by omega, b, show k - (hi + 1) + (hi + 1) = k by omega]

/-- Each bit of a field. -/
theorem testBit_bits (x hi lo k : Nat) : (bits x hi lo).testBit k = (decide (k < hi + 1 - lo) && x.testBit (k + lo)) := by
  unfold bits; rw [Nat.testBit_mod_two_pow, Nat.testBit_div_two_pow]

end Sys2Proof.Machine
end

