-- ==== Sys2Proof/Laws/Commands.lean ====
section
/-! SUPPORT. What the gates of commands say once and for all: a BAR2 access of the manager, a command in service. -/

namespace Sys2Proof.Machine

/-- The manager's access acts. -/
theorem asManager_of {s : State} {fn : Nat} (h : s.managedBy fn) (f : State → State) : s.asManager fn f = f s := by
  unfold State.asManager
  simp [h.1, h.2.1, h.2.2]

/-- The other manager-capable PF's access is counted. -/
theorem asManager_other {s : State} {fn : Nat} (hp : s.supply.power = .on) (hr : s.recovery = false) (hm : fn ≠ s.manager)
    (hf : fn = 0 ∨ fn = 2) (f : State → State) :
    s.asManager fn f = (s.count .HIF_CTR (fn / 2) C.HIF_BAR2_DENIED).raiseMs (Ev.HIF_BAR2_DENIED (fn / 2)) := by
  unfold State.asManager
  simp [hp, hr, hm, hf]

/-- A payload of the layout's length is denied as its words are. -/
theorem eciDenied_shaped {s : State} {f : Nat} {c : EciCmd} {masks : List Nat} {denied : List Nat → Bool} (h : shapeOk masks c = true) :
    s.eciDenied f c denied masks.length = denied c.words := by
  have : c.words.length = masks.length := by
    simp only [shapeOk, Bool.and_eq_true, beq_iff_eq] at h
    exact h.1.2
  simp [State.eciDenied, this]

/-- A command that is served ends as its run says. -/
theorem eci_of {s : State} {e : Eci} {c : EciCmd} {code : Nat} {masks : List Nat} (h : s.serves e c code masks)
    {pick denied bad : List Nat → Bool} (hp : pick c.words = true) (hd : denied c.words = false) (hb : bad c.words = false)
    {run : List Nat → EciOut} {t : State} {rc : Nat} {w : List Nat} (hr : run c.words = .done t rc w) :
    s.eci e code pick denied masks bad run = .next (t.eciReply e.fn e.path rc w e.badOut) := by
  obtain ⟨h1, h2, h3, h6, h4, h5⟩ := h
  have h7 := eciDenied_shaped (s := s) (f := e.fn) (denied := denied) h4
  unfold State.eci
  simp [h1, h2, h3, h4, h6, h7, hp, hd, hb]
  rw [if_neg (by simpa using h5), hr]

/-- A command that is served and begins. -/
theorem eci_held {s : State} {e : Eci} {c : EciCmd} {code : Nat} {masks : List Nat} (h : s.serves e c code masks)
    {pick denied bad : List Nat → Bool} (hp : pick c.words = true) (hd : denied c.words = false) (hb : bad c.words = false)
    {run : List Nat → EciOut} {t : State} (hr : run c.words = .held t) :
    s.eci e code pick denied masks bad run = .next t := by
  obtain ⟨h1, h2, h3, h6, h4, h5⟩ := h
  have h7 := eciDenied_shaped (s := s) (f := e.fn) (denied := denied) h4
  unfold State.eci
  simp [h1, h2, h3, h4, h6, h7, hp, hd, hb]
  rw [if_neg (by simpa using h5), hr]

/-- A command that is served and starts a long one. -/
theorem eci_started {s : State} {e : Eci} {c : EciCmd} {code : Nat} {masks : List Nat} (h : s.serves e c code masks)
    {pick denied bad : List Nat → Bool} (hp : pick c.words = true) (hd : denied c.words = false) (hb : bad c.words = false)
    {run : List Nat → EciOut} {t : State} (hr : run c.words = .started t) :
    s.eci e code pick denied masks bad run = .next (t.ticketed e c) := by
  obtain ⟨h1, h2, h3, h6, h4, h5⟩ := h
  have h7 := eciDenied_shaped (s := s) (f := e.fn) (denied := denied) h4
  unfold State.eci State.ticketed
  simp [h1, h2, h3, h4, h6, h7, hp, hd, hb]
  rw [if_neg (by simpa using h5), hr]

/-- A command that is served and waits. -/
theorem eci_wait {s : State} {e : Eci} {c : EciCmd} {code : Nat} {masks : List Nat} (h : s.serves e c code masks)
    {pick denied bad : List Nat → Bool} (hp : pick c.words = true) (hd : denied c.words = false) (hb : bad c.words = false)
    {run : List Nat → EciOut} (hr : run c.words = .wait) : s.eci e code pick denied masks bad run = .next s := by
  obtain ⟨h1, h2, h3, h6, h4, h5⟩ := h
  have h7 := eciDenied_shaped (s := s) (f := e.fn) (denied := denied) h4
  unfold State.eci
  simp [h1, h2, h3, h4, h6, h7, hp, hd, hb]
  rw [if_neg (by simpa using h5), hr]

/-- A command that is denied. -/
theorem eci_denied {s : State} {e : Eci} {c : EciCmd} {code : Nat} {masks : List Nat} (h1 : s.eciCmd e = some c) (h2 : c.code = code)
    (h3 : s.eciFenced e.fn code = false) {pick denied bad : List Nat → Bool} (hp : pick c.words = true)
    (hd : s.eciDenied e.fn c denied masks.length = true) {run : List Nat → EciOut} : s.eci e code pick denied masks bad run = .next (s.answers e RC_DENIED []) := by
  unfold State.eci
  simp [h1, h2, h3, hp, hd]

/-- A command whose payload is out of range. -/
theorem eci_bad {s : State} {e : Eci} {c : EciCmd} {code : Nat} {masks : List Nat} (h : s.serves e c code masks)
    {pick denied bad : List Nat → Bool} (hp : pick c.words = true) (hd : denied c.words = false) (hb : bad c.words = true)
    {run : List Nat → EciOut} : s.eci e code pick denied masks bad run = .next (s.answers e RC_BAD_ARG []) := by
  obtain ⟨h1, h2, h3, h6, h4, h5⟩ := h
  have h7 := eciDenied_shaped (s := s) (f := e.fn) (denied := denied) h4
  unfold State.eci
  simp [h1, h2, h3, h6, h7, hp, hd, hb]

/-- The service of a command always ends in a next state. -/
theorem eci_total (s : State) (e : Eci) (code : Nat) (pick denied bad : List Nat → Bool) (masks : List Nat)
    (run : List Nat → EciOut) : ∃ t, s.eci e code pick denied masks bad run = .next t := by
  unfold State.eci
  repeat' (first | exact ⟨_, rfl⟩ | split)

/-- A request that may be served is served. -/
theorem request_of {s : State} {t route h : Nat} {m : ChanMsg} {p : Packet} (a : s.asksOffload t route m h p)
    (f : State → ChanMsg → Nat → Packet → State) : s.request t route f = f s m h p := by
  obtain ⟨h1, h2, h3, h4, h5, h6, h7, h8, h9⟩ := a
  simp [State.request, h1, h2, h3, h4, h5, h6, h7, h8, h9]

end Sys2Proof.Machine
end

