-- ==== Sys2Proof/Laws/SMap.lean ====
section
/-! SUPPORT. Laws of the sparse tables: read after write, and writes keep the canonical form. -/

namespace Sys2Proof.SMap

variable {α : Type}

/-- Reading key k after erasing key j: the default at j, else what was there. -/
theorem getD_erase (m : SMap α) (j k : Nat) (d : α) : (m.erase j).getD k d = if j = k then d else m.getD k d := by
  induction m with
  | nil => simp [erase, getD]
  | cons e r ih =>
    obtain ⟨i, v⟩ := e
    by_cases h : i = j
    · subst h; by_cases h2 : i = k <;> simp_all [erase, getD]
    · by_cases h2 : i = k
      · subst h2; simp [erase, getD, h, Ne.symm h]
      · simp [erase, getD, h, h2, ih]

/-- Reading after an insertion of a key the table does not list. -/
theorem getD_insert (m : SMap α) (j k : Nat) (v d : α) (h : ∀ x ∈ m, x.1 ≠ j) :
    (m.insert j v).getD k d = if j = k then v else m.getD k d := by
  induction m with
  | nil => simp [insert, getD]
  | cons e r ih =>
    obtain ⟨i, w⟩ := e
    have hij : i ≠ j := h (i, w) (by simp)
    have hr : ∀ x ∈ r, x.1 ≠ j := fun x hx => h x (by simp [hx])
    simp only [insert]
    split
    · simp [getD]
    · simp only [getD, ih hr]
      by_cases h2 : i = k
      · subst h2; simp [Ne.symm hij]
      · simp [h2]

/-- Erasing a key leaves no entry of it. -/
theorem erase_ne (m : SMap α) (j : Nat) : ∀ x ∈ m.erase j, x.1 ≠ j := by
  induction m with
  | nil => simp [erase]
  | cons e r ih =>
    obtain ⟨i, v⟩ := e
    by_cases h : i = j
    · subst h; simpa [erase] using ih
    · intro x hx; simp only [erase, h, if_false, List.mem_cons] at hx
      rcases hx with rfl | hx
      · exact h
      · exact ih x hx

/-- Entries left by an erasure were there. -/
theorem mem_of_mem_erase (m : SMap α) (j : Nat) (x : Nat × α) (hx : x ∈ m.erase j) : x ∈ m := by
  induction m with
  | nil => simp [erase] at hx
  | cons e r ih =>
    obtain ⟨i, v⟩ := e
    by_cases h : i = j
    · simp only [erase, h, if_true] at hx; exact List.mem_cons_of_mem _ (ih hx)
    · simp only [erase, h, if_false, List.mem_cons] at hx
      rcases hx with rfl | hx
      · exact List.mem_cons_self ..
      · exact List.mem_cons_of_mem _ (ih hx)

/-- Reading key k after a write of key j: the value written at j, else what was there. -/
theorem getD_setD [DecidableEq α] (m : SMap α) (j k : Nat) (v d : α) :
    (m.setD j v d).getD k d = if j = k then v else m.getD k d := by
  unfold setD
  split
  · next h => subst h; rw [getD_erase]
  · rw [getD_insert _ _ _ _ _ (erase_ne m j), getD_erase]; by_cases h : j = k <;> simp [h]

/-- Reading with one default after a write with another, at another key. -/
theorem getD_setD_ne [DecidableEq α] (m : SMap α) (j k : Nat) (v d d' : α) (h : j ≠ k) :
    (m.setD j v d').getD k d = m.getD k d := by
  unfold setD
  split
  · rw [getD_erase]; simp [h]
  · rw [getD_insert _ _ _ _ _ (erase_ne m j), getD_erase]; simp [h]

/-- A default-typed table reads back what was written. -/
theorem get_set [DecidableEq α] [Inhabited α] (m : SMap α) (j k : Nat) (v : α) :
    (m.set j v).get k = if j = k then v else m.get k := getD_setD m j k v default

end Sys2Proof.SMap

namespace Sys2Proof.Machine

open Sys2Proof

variable {α : Type}

theorem rising_cons (e : Nat × α) (r : SMap α) : rising (e :: r) ↔ (∀ x ∈ r, e.1 < x.1) ∧ rising r := by
  simp [rising, SMap.keys]

/-- Erasing keeps the keys rising. -/
theorem rising_erase (m : SMap α) (j : Nat) (h : rising m) : rising (m.erase j) := by
  induction m with
  | nil => exact h
  | cons e r ih =>
    obtain ⟨i, v⟩ := e
    rw [rising_cons] at h
    simp only [SMap.erase]
    split
    · exact ih h.2
    · rw [rising_cons]; exact ⟨fun x hx => h.1 x (SMap.mem_of_mem_erase r j x hx), ih h.2⟩

/-- Members after an insertion. -/
theorem mem_insert (m : SMap α) (j : Nat) (v : α) (x : Nat × α) (h : x ∈ m.insert j v) : x = (j, v) ∨ x ∈ m := by
  induction m with
  | nil => simpa [SMap.insert] using h
  | cons e r ih =>
    obtain ⟨i, w⟩ := e
    simp only [SMap.insert] at h
    split at h
    · simpa using h
    · rcases List.mem_cons.mp h with rfl | h
      · exact .inr (List.mem_cons_self ..)
      · rcases ih h with h | h
        · exact .inl h
        · exact .inr (List.mem_cons_of_mem _ h)

/-- Inserting a key that is not listed keeps the keys rising. -/
theorem rising_insert (m : SMap α) (j : Nat) (v : α) (hm : ∀ x ∈ m, x.1 ≠ j) (h : rising m) : rising (m.insert j v) := by
  induction m with
  | nil => simp [SMap.insert, rising, SMap.keys]
  | cons e r ih =>
    obtain ⟨i, w⟩ := e
    rw [rising_cons] at h
    have hij : i ≠ j := hm (i, w) (by simp)
    simp only [SMap.insert]
    split
    · next hlt =>
      rw [rising_cons, rising_cons]
      refine ⟨fun x hx => ?_, h⟩
      rcases List.mem_cons.mp hx with rfl | hx
      · exact hlt
      · exact Nat.lt_trans hlt (h.1 x hx)
    · next hlt =>
      rw [rising_cons]
      refine ⟨fun x hx => ?_, ih (fun x hx => hm x (by simp [hx])) h.2⟩
      rcases mem_insert r j v x hx with rfl | hx
      · exact Nat.lt_of_le_of_ne (Nat.not_lt.mp hlt) hij
      · exact h.1 x hx

/-- A write keeps the keys rising. -/
theorem rising_setD [DecidableEq α] (m : SMap α) (j : Nat) (v d : α) (h : rising m) : rising (m.setD j v d) := by
  unfold SMap.setD
  split
  · exact rising_erase m j h
  · exact rising_insert _ j v (SMap.erase_ne m j) (rising_erase m j h)

/-- Keeping some entries keeps the keys rising. -/
theorem rising_filter (m : SMap α) (p : Nat × α → Bool) (h : rising m) : rising (m.filter p) := by
  unfold rising SMap.keys at *
  exact h.sublist (List.filter_sublist.map _)

/-- A byte's write keeps a memory's canonical form. -/
theorem memCanon_set (m : SMap Byte) (j : Nat) (v : Byte) (h : memCanon m) : memCanon (m.set j v) := by
  refine ⟨rising_setD m j v default h.1, ?_⟩
  intro e he
  unfold SMap.set SMap.setD at he
  split at he
  · exact h.2 e (SMap.mem_of_mem_erase m j e he)
  · next hv =>
    rcases mem_insert _ _ _ _ he with rfl | he
    · exact hv
    · exact h.2 e (SMap.mem_of_mem_erase m j e he)

/-- Keeping some bytes keeps a memory's canonical form. -/
theorem memCanon_filter (m : SMap Byte) (p : Nat × Byte → Bool) (h : memCanon m) : memCanon (m.filter p) :=
  ⟨rising_filter m p h.1, fun e he => h.2 e (List.mem_filter.mp he).1⟩

/-- Bytes written one after another keep a memory's canonical form. -/
theorem memCanon_foldl {β : Type} (l : List β) (f : SMap Byte → β → SMap Byte) (hf : ∀ m b, memCanon m → memCanon (f m b)) (m : SMap Byte)
    (h : memCanon m) : memCanon (l.foldl f m) := by
  induction l generalizing m with
  | nil => exact h
  | cons b r ih => exact ih (f m b) (hf m b h)

/-- An empty memory is in canonical form. -/
theorem memCanon_nil : memCanon [] := ⟨List.Pairwise.nil, by simp⟩

end Sys2Proof.Machine
end

