-- ==== Sys2Proof/Laws/Keeps.lean ====
section
/-! SUPPORT. The invariant with the queue, as one predicate that the operations keep; its rules for updates, branches,
pairs and outcomes. -/

namespace Sys2Proof.Machine

/-- What Good asks of the fields it reads. -/
def Core (q : List Instr) (pending : List Instr) (time : DevTime) (manager : Nat) (fwLog : List FwLogEntry)
    (fenceLog : List FenceEntry) (mmLog : List Mismatch) (regs : SMap Word) (localMem tsram hbmMem copyWin : SMap Byte) : Prop :=
  pending = q ∧ time.legal ∧ managerLegal manager ∧ fwLog.length ≤ 256 ∧ fenceLog.length ≤ 64 ∧ mmLog.length ≤ 16 ∧
    rising regs ∧ memCanon localMem ∧ memCanon tsram ∧ memCanon hbmMem ∧ memCanon copyWin

/-- The queue is q, and the invariant holds. -/
def Good (q : List Instr) (s : State) : Prop :=
  Core q s.pending s.time s.manager s.fwLog s.fenceLog s.mmLog s.regs s.localMem s.tsram s.hbmMem s.copyWin

/-- Good is the queue and the invariant. -/
theorem good_iff {q : List Instr} {s : State} : Good q s ↔ s.pending = q ∧ s.Inv := by
  constructor
  · rintro ⟨a, b, c, d, e, f, g, h, i, j, k⟩; exact ⟨a, b, c, d, e, f, g, h, i, j, k⟩
  · rintro ⟨a, b, c, d, e, f, g, h, i, j, k⟩; exact ⟨a, b, c, d, e, f, g, h, i, j, k⟩

/-- An update of other fields. -/
theorem good_mk {q : List Instr} {x0 x1 x2 x3 x4 x5 x6 x7 x8 x9 x10 x11 x12 x13 x14 x15 x16 x17 x18 x19 x20 x21 x22 x23 x24 x25 x26 x27 x28 x29 x30 x31 x32 x33 x34 x35 x36 x37 x38 x39 x40 x41 x42 x43 x44 x45 x46 x47 x48 x49 x50 x51 x52 x53 x54 x55 x56 x57 x58 x59 x60 x61 x62 x63 x64 x65 x66 x67 x68 x69 x70 x71 x72 x73 x74 x75 x76 x77 x78 x79 x80 x81 x82 x83 x84 x85 x86 x87 x88 x89 x90 x91 x92 x93 x94 x95 x96 x97 x98 x99 x100 x101 x102 x103 x104 x105 x106 x107 x108 x109 x110 x111 x112 x113 x114 x115 x116 x117 x118 x119 x120 x121 x122 x123 x124} (h : Core q x0 x15 x9 x13 x12 x84 x1 x54 x55 x56 x107) : Good q (State.mk x0 x1 x2 x3 x4 x5 x6 x7 x8 x9 x10 x11 x12 x13 x14 x15 x16 x17 x18 x19 x20 x21 x22 x23 x24 x25 x26 x27 x28 x29 x30 x31 x32 x33 x34 x35 x36 x37 x38 x39 x40 x41 x42 x43 x44 x45 x46 x47 x48 x49 x50 x51 x52 x53 x54 x55 x56 x57 x58 x59 x60 x61 x62 x63 x64 x65 x66 x67 x68 x69 x70 x71 x72 x73 x74 x75 x76 x77 x78 x79 x80 x81 x82 x83 x84 x85 x86 x87 x88 x89 x90 x91 x92 x93 x94 x95 x96 x97 x98 x99 x100 x101 x102 x103 x104 x105 x106 x107 x108 x109 x110 x111 x112 x113 x114 x115 x116 x117 x118 x119 x120 x121 x122 x123 x124) := h

/-- The fields of a good state. -/
theorem core_of {q : List Instr} {s : State} (h : Good q s) :
    Core q s.pending s.time s.manager s.fwLog s.fenceLog s.mmLog s.regs s.localMem s.tsram s.hbmMem s.copyWin := h

/-- An update of other fields of a good state. -/
theorem good_upd {q : List Instr} {s : State} {x2 x3 x4 x5 x6 x7 x8 x10 x11 x14 x16 x17 x18 x19 x20 x21 x22 x23 x24 x25 x26 x27 x28 x29 x30 x31 x32 x33 x34 x35 x36 x37 x38 x39 x40 x41 x42 x43 x44 x45 x46 x47 x48 x49 x50 x51 x52 x53 x57 x58 x59 x60 x61 x62 x63 x64 x65 x66 x67 x68 x69 x70 x71 x72 x73 x74 x75 x76 x77 x78 x79 x80 x81 x82 x83 x85 x86 x87 x88 x89 x90 x91 x92 x93 x94 x95 x96 x97 x98 x99 x100 x101 x102 x103 x104 x105 x106 x108 x109 x110 x111 x112 x113 x114 x115 x116 x117 x118 x119 x120 x121 x122 x123 x124} (h : Good q s) : Good q (State.mk s.pending s.regs x2 x3 x4 x5 x6 x7 x8 s.manager x10 x11 s.fenceLog s.fwLog x14 s.time x16 x17 x18 x19 x20 x21 x22 x23 x24 x25 x26 x27 x28 x29 x30 x31 x32 x33 x34 x35 x36 x37 x38 x39 x40 x41 x42 x43 x44 x45 x46 x47 x48 x49 x50 x51 x52 x53 s.localMem s.tsram s.hbmMem x57 x58 x59 x60 x61 x62 x63 x64 x65 x66 x67 x68 x69 x70 x71 x72 x73 x74 x75 x76 x77 x78 x79 x80 x81 x82 x83 s.mmLog x85 x86 x87 x88 x89 x90 x91 x92 x93 x94 x95 x96 x97 x98 x99 x100 x101 x102 x103 x104 x105 x106 s.copyWin x108 x109 x110 x111 x112 x113 x114 x115 x116 x117 x118 x119 x120 x121 x122 x123 x124) := h

/-- The identity keeps the invariant. -/
theorem good_id {q : List Instr} {s : State} (h : Good q s) : Good q (id s) := h

/-- A change of some of the fields. -/
theorem Good.with {q : List Instr} {s : State} (h : Good q s) {t : State} (h1 : t.pending = s.pending) (h2 : t.time.legal)
    (h3 : managerLegal t.manager) (h4 : t.fwLog.length ≤ 256) (h5 : t.fenceLog.length ≤ 64) (h6 : t.mmLog.length ≤ 16)
    (h7 : rising t.regs) (h8 : memCanon t.localMem) (h9 : memCanon t.tsram) (h10 : memCanon t.hbmMem)
    (h11 : memCanon t.copyWin) : Good q t := ⟨h1.trans h.1, h2, h3, h4, h5, h6, h7, h8, h9, h10, h11⟩

/-- A change of one of the fields that the invariant speaks of. -/
theorem good_time {q : List Instr} {s : State} (h : Good q s) {x : DevTime} (hx : x.legal) : Good q { s with time := x } := by
  obtain ⟨a, _, c, d, e, f, g, h, i, j, k⟩ := core_of h
  exact ⟨a, hx, c, d, e, f, g, h, i, j, k⟩
theorem good_manager {q : List Instr} {s : State} (h : Good q s) {x : Nat} (hx : managerLegal x) : Good q { s with manager := x } := by
  obtain ⟨a, b, _, d, e, f, g, h, i, j, k⟩ := core_of h
  exact ⟨a, b, hx, d, e, f, g, h, i, j, k⟩
theorem good_fwLog {q : List Instr} {s : State} (h : Good q s) {x : List FwLogEntry} (hx : x.length ≤ 256) : Good q { s with fwLog := x } := by
  obtain ⟨a, b, c, _, e, f, g, h, i, j, k⟩ := core_of h
  exact ⟨a, b, c, hx, e, f, g, h, i, j, k⟩
theorem good_fenceLog {q : List Instr} {s : State} (h : Good q s) {x : List FenceEntry} (hx : x.length ≤ 64) : Good q { s with fenceLog := x } := by
  obtain ⟨a, b, c, d, _, f, g, h, i, j, k⟩ := core_of h
  exact ⟨a, b, c, d, hx, f, g, h, i, j, k⟩
theorem good_mmLog {q : List Instr} {s : State} (h : Good q s) {x : List Mismatch} (hx : x.length ≤ 16) : Good q { s with mmLog := x } := by
  obtain ⟨a, b, c, d, e, _, g, h, i, j, k⟩ := core_of h
  exact ⟨a, b, c, d, e, hx, g, h, i, j, k⟩
theorem good_regs {q : List Instr} {s : State} (h : Good q s) {x : SMap Word} (hx : rising x) : Good q { s with regs := x } := by
  obtain ⟨a, b, c, d, e, f, _, h, i, j, k⟩ := core_of h
  exact ⟨a, b, c, d, e, f, hx, h, i, j, k⟩
theorem good_localMem {q : List Instr} {s : State} (h : Good q s) {x : SMap Byte} (hx : memCanon x) : Good q { s with localMem := x } := by
  obtain ⟨a, b, c, d, e, f, g, _, i, j, k⟩ := core_of h
  exact ⟨a, b, c, d, e, f, g, hx, i, j, k⟩
theorem good_tsram {q : List Instr} {s : State} (h : Good q s) {x : SMap Byte} (hx : memCanon x) : Good q { s with tsram := x } := by
  obtain ⟨a, b, c, d, e, f, g, h, _, j, k⟩ := core_of h
  exact ⟨a, b, c, d, e, f, g, h, hx, j, k⟩
theorem good_hbmMem {q : List Instr} {s : State} (h : Good q s) {x : SMap Byte} (hx : memCanon x) : Good q { s with hbmMem := x } := by
  obtain ⟨a, b, c, d, e, f, g, h, i, _, k⟩ := core_of h
  exact ⟨a, b, c, d, e, f, g, h, i, hx, k⟩
theorem good_copyWin {q : List Instr} {s : State} (h : Good q s) {x : SMap Byte} (hx : memCanon x) : Good q { s with copyWin := x } := by
  obtain ⟨a, b, c, d, e, f, g, h, i, j, _⟩ := core_of h
  exact ⟨a, b, c, d, e, f, g, h, i, j, hx⟩

/-- Outcomes, command results and pairs whose state is good. -/
def GoodT (q : List Instr) (r : Host.Outcome State Fault Refusal) : Prop := ∀ t, r = .next t → Good q t
def GoodE (q : List Instr) : EciOut → Prop
  | .done s _ _ => Good q s
  | .held s => Good q s
  | .started s => Good q s
  | .wait => True
def GoodP {α : Type} (q : List Instr) (p : State × α) : Prop := Good q p.1
def GoodO (q : List Instr) (o : Option State) : Prop := ∀ t, o = some t → Good q t

def GoodR (q : List Instr) (r : OpResult) : Prop := Good q r.state

theorem goodT_next {q : List Instr} {s : State} (h : Good q s) : GoodT q (.next s) := by
  intro t ht; cases ht; exact h
theorem goodE_done {q : List Instr} {s : State} {rc : Nat} {w : List Nat} (h : Good q s) : GoodE q (.done s rc w) := h
theorem goodE_held {q : List Instr} {s : State} (h : Good q s) : GoodE q (.held s) := h
theorem goodE_started {q : List Instr} {s : State} (h : Good q s) : GoodE q (.started s) := h
theorem goodE_wait {q : List Instr} : GoodE q .wait := trivial
theorem goodP_mk {α : Type} {q : List Instr} {s : State} {a : α} (h : Good q s) : GoodP q (s, a) := h
theorem goodP_iff {α : Type} {q : List Instr} {s : State} {a : α} : GoodP q (s, a) ↔ Good q s := Iff.rfl
theorem goodP_fst {α : Type} {q : List Instr} {p : State × α} (h : GoodP q p) : Good q p.1 := h
theorem goodO_some {q : List Instr} {s : State} (h : Good q s) : GoodO q (some s) := by
  intro t ht; cases ht; exact h
theorem goodO_none {q : List Instr} : GoodO q none := by intro t ht; cases ht

theorem goodR_iff {q : List Instr} {s : State} {f : Bytes} {a b : Nat} {c : Option Nat} : GoodR q (OpResult.mk s f a b c) ↔ Good q s := Iff.rfl
theorem goodR_state {q : List Instr} {r : OpResult} (h : GoodR q r) : Good q r.state := h

theorem goodO_getD {q : List Instr} {o : Option State} {s : State} (h : GoodO q o) (hs : Good q s) : Good q (o.getD s) := by
  cases o with
  | none => exact hs
  | some t => exact h t rfl

/-- What a reason, where there is one, does to a state. -/
theorem good_mapGetD {α : Type} {q : List Instr} {o : Option α} {f : α → State} {s : State} (hs : Good q s) (hf : ∀ a, Good q (f a)) :
    Good q ((Option.map f o).getD s) := by
  cases o with
  | none => exact hs
  | some a => exact hf a

/-- The state a case of an outcome, a result or a pair names. -/
theorem goodO_elim {q : List Instr} {o : Option State} {t : State} (e : o = some t) (h : GoodO q o) : Good q t := h t e
theorem goodP_elim {α : Type} {q : List Instr} {p : State × α} {t : State} {a : α} (e : p = (t, a)) (h : GoodP q p) : Good q t := by
  subst e; exact h
theorem goodE_elim {q : List Instr} {o : EciOut} {t : State} {rc : Nat} {w : List Nat} (e : o = .done t rc w) (h : GoodE q o) : Good q t := by
  subst e; exact h
theorem goodE_held_elim {q : List Instr} {o : EciOut} {t : State} (e : o = .held t) (h : GoodE q o) : Good q t := by
  subst e; exact h
theorem goodE_started_elim {q : List Instr} {o : EciOut} {t : State} (e : o = .started t) (h : GoodE q o) : Good q t := by
  subst e; exact h
theorem goodT_elim {q : List Instr} {r : Step} {t : State} (e : r = .next t) (h : GoodT q r) : Good q t := h t e

section
variable {q : List Instr} {c : Prop} [Decidable c]
theorem good_ite {a b : State} (ha : Good q a) (hb : Good q b) : Good q (if c then a else b) := by split <;> assumption
theorem goodT_ite {a b : Step} (ha : GoodT q a) (hb : GoodT q b) : GoodT q (if c then a else b) := by split <;> assumption
theorem goodE_ite {a b : EciOut} (ha : GoodE q a) (hb : GoodE q b) : GoodE q (if c then a else b) := by split <;> assumption
theorem goodP_ite {α : Type} {a b : State × α} (ha : GoodP q a) (hb : GoodP q b) : GoodP q (if c then a else b) := by
  split <;> assumption
theorem goodR_ite {a b : OpResult} (ha : GoodR q a) (hb : GoodR q b) : GoodR q (if c then a else b) := by split <;> assumption
theorem goodO_ite {a b : Option State} (ha : GoodO q a) (hb : GoodO q b) : GoodO q (if c then a else b) := by split <;> assumption
end

/-- A fold over a list keeps what each of its steps keeps. -/
theorem good_foldl {α : Type} {q : List Instr} (l : List α) (f : State → α → State) (hf : ∀ t a, Good q t → Good q (f t a)) (s : State)
    (h : Good q s) : Good q (l.foldl f s) := by
  induction l generalizing s with
  | nil => exact h
  | cons a r ih => exact ih (f s a) (hf s a h)

/-- A fold whose states come in pairs. -/
theorem goodP_foldl {α β : Type} {q : List Instr} (l : List α) (f : State × β → α → State × β)
    (hf : ∀ t a, GoodP q t → GoodP q (f t a)) (s : State × β) (h : GoodP q s) : GoodP q (l.foldl f s) := by
  induction l generalizing s with
  | nil => exact h
  | cons a r ih => exact ih (f s a) (hf s a h)

end Sys2Proof.Machine
end

