-- ==== Sys2Proof/Laws/KeepsOps.lean ====
section
/-! SUPPORT. The operations of Ops.lean keep the queue and the invariant. -/

set_option linter.unusedTactic false
set_option linter.unreachableTactic false
set_option linter.unusedSimpArgs false
set_option linter.unusedVariables false

namespace Sys2Proof.Machine

theorem good_setReg {q : List Instr} (s : State) (r : Reg) (i : Nat) (v : Word) (hs : Good q s) : Good q (State.setReg s r i v) :=
  good_regs hs (rising_setD _ _ _ _ hs.2.2.2.2.2.2.1)

theorem good_wr {q : List Instr} (s : State) (f : Fld) (i : Nat) (v : Nat) (hs : Good q s) : Good q (State.wr s f i v) := by
  unfold State.wr
  with_reducible repeat' first | assumption | intro _ | apply good_ite | apply good_id | apply good_foldl | apply good_mapGetD | apply good_setReg | fail_if_no_progress apply good_upd | dsimp only | split

theorem good_wrLegal {q : List Instr} (s : State) (f : Fld) (i : Nat) (v : Nat) (hs : Good q s) : Good q (State.wrLegal s f i v) := by
  unfold State.wrLegal
  with_reducible repeat' first | assumption | intro _ | apply good_ite | apply good_id | apply good_foldl | apply good_mapGetD | apply good_wr | fail_if_no_progress apply good_upd | dsimp only | split

theorem good_modFn {q : List Instr} (s : State) (f : Nat) (g : FnCfg → FnCfg) (hs : Good q s) : Good q (State.modFn s f g) := by
  unfold State.modFn
  with_reducible repeat' first | assumption | intro _ | apply good_ite | apply good_id | apply good_foldl | apply good_mapGetD | fail_if_no_progress apply good_upd | dsimp only | split

theorem good_send {q : List Instr} (s : State) (o : Out) (hs : Good q s) : Good q (State.send s o) := by
  unfold State.send
  with_reducible repeat' first | assumption | intro _ | apply good_ite | apply good_id | apply good_foldl | apply good_mapGetD | fail_if_no_progress apply good_upd | dsimp only | split

theorem good_message {q : List Instr} (s : State) (f : Nat) (vec : Nat) (hs : Good q s) : Good q (State.message s f vec) := by
  unfold State.message
  with_reducible repeat' first | assumption | intro _ | apply good_ite | apply good_id | apply good_foldl | apply good_mapGetD | apply good_send | fail_if_no_progress apply good_upd | dsimp only | split

theorem good_put {q : List Instr} (s : State) (r : Reg) (i : Nat) (v : Nat) (hs : Good q s) : Good q (State.put s r i v) := by
  unfold State.put
  with_reducible repeat' first | assumption | intro _ | apply good_ite | apply good_id | apply good_foldl | apply good_mapGetD | apply good_setReg | fail_if_no_progress apply good_upd | dsimp only | split

theorem good_raise {q : List Instr} (s : State) (src : Nat) (hs : Good q s) : Good q (State.raise s src) := by
  unfold State.raise
  with_reducible repeat' first | assumption | intro _ | apply good_ite | apply good_id | apply good_foldl | apply good_mapGetD | apply good_message | apply good_put | fail_if_no_progress apply good_upd | dsimp only | split

theorem good_add {q : List Instr} (s : State) (r : Reg) (i : Nat) (n : Nat) (hs : Good q s) : Good q (State.add s r i n) := by
  unfold State.add
  with_reducible repeat' first | assumption | intro _ | apply good_ite | apply good_id | apply good_foldl | apply good_mapGetD | apply good_setReg | fail_if_no_progress apply good_upd | dsimp only | split

theorem good_countError {q : List Instr} (s : State) (c : ErrClass) (hs : Good q s) : Good q (State.countError s c) := by
  unfold State.countError
  with_reducible repeat' first | assumption | intro _ | apply good_ite | apply good_id | apply good_foldl | apply good_mapGetD | apply good_add | fail_if_no_progress apply good_upd | dsimp only | split

theorem good_fenceHeadSync {q : List Instr} (s : State) (hs : Good q s) : Good q (State.fenceHeadSync s) := by
  unfold State.fenceHeadSync
  with_reducible repeat' first | assumption | intro _ | apply good_ite | apply good_id | apply good_foldl | apply good_mapGetD | apply good_put | fail_if_no_progress apply good_upd | dsimp only | split

theorem good_when {q : List Instr} (s : State) (c : Bool) (f : State → State) (hs : Good q s) (hf : ∀ a, Good q a → Good q (f a)) : Good q (State.when s c f) := by
  unfold State.when
  with_reducible repeat' first | assumption | intro _ | apply good_ite | apply good_id | apply good_foldl | apply good_mapGetD | apply hf | fail_if_no_progress apply good_upd | dsimp only | split

theorem good_fence {q : List Instr} (s : State) (unit cause : Nat) (c : ErrClass) (obj : Nat) (hs : Good q s) :
    Good q (s.fence unit cause c obj) := by
  unfold State.fence
  split
  · exact hs
  · have h1 := good_countError _ c (good_upd hs : Good q { s with fenced := s.fenced.set (fenceKey unit obj) true })
    refine good_when _ _ _ (good_raise _ _ ?_) (fun t ht => good_raise t _ ht)
    split
    · next hl => exact good_fenceHeadSync _ (good_fenceLog h1 (by simp only [List.length_append, List.length_singleton]; omega))
    · exact good_raise _ _ (good_wr _ _ _ _ h1)

theorem good_raiseLimited {q : List Instr} (s : State) (src : Nat) (key : Nat) (interval : Nat) (hs : Good q s) : Good q (State.raiseLimited s src key interval) := by
  unfold State.raiseLimited
  with_reducible repeat' first | assumption | intro _ | apply good_ite | apply good_id | apply good_foldl | apply good_mapGetD | apply good_raise | fail_if_no_progress apply good_upd | dsimp only | split

theorem good_backlogSync {q : List Instr} (s : State) (hs : Good q s) : Good q (State.backlogSync s) := by
  unfold State.backlogSync
  with_reducible repeat' first | assumption | intro _ | apply good_ite | apply good_id | apply good_foldl | apply good_mapGetD | apply good_wr | fail_if_no_progress apply good_upd | dsimp only | split

theorem good_journalGap {q : List Instr} (s : State) (hs : Good q s) : Good q (State.journalGap s) := by
  unfold State.journalGap
  with_reducible repeat' first | assumption | intro _ | apply good_ite | apply good_id | apply good_foldl | apply good_mapGetD | apply good_backlogSync | fail_if_no_progress apply good_upd | dsimp only | split

theorem good_countBy {q : List Instr} (s : State) (r : Reg) (n : Nat) (k : Nat) (m : Nat) (hs : Good q s) : Good q (State.countBy s r n k m) := by
  unfold State.countBy
  with_reducible repeat' first | assumption | intro _ | apply good_ite | apply good_id | apply good_foldl | apply good_mapGetD | apply good_add | fail_if_no_progress apply good_upd | dsimp only | split

theorem good_journalPush {q : List Instr} (s : State) (rs : List JRec) (hs : Good q s) : Good q (State.journalPush s rs) := by
  unfold State.journalPush
  with_reducible repeat' first | assumption | intro _ | apply good_ite | apply good_id | apply good_foldl | apply good_mapGetD | apply good_journalGap | apply good_backlogSync | apply good_when | apply good_raise | apply good_countBy | fail_if_no_progress apply good_upd | dsimp only | split

theorem good_journalHoldover {q : List Instr} (s : State) (enter : Bool) (lastSteer : Nat) (hs : Good q s) : Good q (State.journalHoldover s enter lastSteer) := by
  unfold State.journalHoldover
  with_reducible repeat' first | assumption | intro _ | apply good_ite | apply good_id | apply good_foldl | apply good_mapGetD | apply good_journalPush | fail_if_no_progress apply good_upd | dsimp only | split

theorem good_each {q : List Instr} {α : Type} (s : State) (l : List α) (f : α → State → State) (hs : Good q s) (hf : ∀ a b, Good q b → Good q (f a b)) : Good q (State.each s l f) := by
  unfold State.each
  with_reducible repeat' first | assumption | intro _ | apply good_ite | apply good_id | apply good_foldl | apply good_mapGetD | apply hf | fail_if_no_progress apply good_upd | dsimp only | split

theorem good_count {q : List Instr} (s : State) (r : Reg) (n : Nat) (k : Nat) (hs : Good q s) : Good q (State.count s r n k) := by
  unfold State.count
  with_reducible repeat' first | assumption | intro _ | apply good_ite | apply good_id | apply good_foldl | apply good_mapGetD | apply good_add | fail_if_no_progress apply good_upd | dsimp only | split

theorem good_hbmDiscards {q : List Instr} (s : State) (region : Nat) (a : Nat) (n : Nat) (hs : Good q s) : Good q (State.hbmDiscards s region a n) := by
  unfold State.hbmDiscards
  with_reducible repeat' first | assumption | intro _ | apply good_ite | apply good_id | apply good_foldl | apply good_mapGetD | apply good_each | apply good_count | fail_if_no_progress apply good_upd | dsimp only | split

theorem good_journalCfg {q : List Instr} (s : State) (sub : Nat) (parts : Nat) (data : Bytes) (hs : Good q s) : Good q (State.journalCfg s sub parts data) := by
  unfold State.journalCfg
  with_reducible repeat' first | assumption | intro _ | apply good_ite | apply good_id | apply good_foldl | apply good_mapGetD | apply good_journalPush | fail_if_no_progress apply good_upd | dsimp only | split

theorem good_unfence {q : List Instr} (s : State) (unit : Nat) (obj : Nat) (hs : Good q s) : Good q (State.unfence s unit obj) := by
  unfold State.unfence
  with_reducible repeat' first | assumption | intro _ | apply good_ite | apply good_id | apply good_foldl | apply good_mapGetD | fail_if_no_progress apply good_upd | dsimp only | split

theorem good_logFwWrite {q : List Instr} (s : State) (offset data : Nat) (hs : Good q s) : Good q (s.logFwWrite offset data) := by
  unfold State.logFwWrite
  refine good_raiseLimited _ _ _ _ ?_
  have h := hs.2.2.2.1
  split
  · exact good_fwLog hs (by simp only [List.length_append, List.length_singleton]; omega)
  · exact good_upd (good_fwLog hs (x := s.fwLog.drop 1 ++ [_]) (by simp only [List.length_append, List.length_drop, List.length_singleton]; omega))

theorem good_used {q : List Instr} (s : State) (hs : Good q s) : Good q (State.used s) := by
  unfold State.used
  with_reducible repeat' first | assumption | intro _ | apply good_ite | apply good_id | apply good_foldl | apply good_mapGetD | fail_if_no_progress apply good_upd | dsimp only | split

theorem good_raiseMs {q : List Instr} (s : State) (src : Nat) (hs : Good q s) : Good q (State.raiseMs s src) := by
  unfold State.raiseMs
  with_reducible repeat' first | assumption | intro _ | apply good_ite | apply good_id | apply good_foldl | apply good_mapGetD | apply good_raiseLimited | fail_if_no_progress apply good_upd | dsimp only | split

theorem good_asManager {q : List Instr} (s : State) (fn : Nat) (f : State → State) (hs : Good q s) (hf : ∀ a, Good q a → Good q (f a)) : Good q (State.asManager s fn f) := by
  unfold State.asManager
  with_reducible repeat' first | assumption | intro _ | apply good_ite | apply good_id | apply good_foldl | apply good_mapGetD | apply good_raiseMs | apply good_count | apply hf | fail_if_no_progress apply good_upd | dsimp only | split

theorem good_hwm {q : List Instr} (s : State) (r : Reg) (n : Nat) (k : Nat) (v : Nat) (hs : Good q s) : Good q (State.hwm s r n k v) := by
  unfold State.hwm
  with_reducible repeat' first | assumption | intro _ | apply good_ite | apply good_id | apply good_foldl | apply good_mapGetD | apply good_put | fail_if_no_progress apply good_upd | dsimp only | split

theorem good_journalSteer {q : List Instr} (s : State) (what : Nat) (new : Nat) (old : Nat) (hs : Good q s) : Good q (State.journalSteer s what new old) := by
  unfold State.journalSteer
  with_reducible repeat' first | assumption | intro _ | apply good_ite | apply good_id | apply good_foldl | apply good_mapGetD | apply good_journalPush | fail_if_no_progress apply good_upd | dsimp only | split

theorem good_journalClock {q : List Instr} (s : State) (cause : Nat) (hs : Good q s) : Good q (State.journalClock s cause) := by
  unfold State.journalClock
  with_reducible repeat' first | assumption | intro _ | apply good_ite | apply good_id | apply good_foldl | apply good_mapGetD | apply good_journalPush | fail_if_no_progress apply good_upd | dsimp only | split

theorem good_domainOn {q : List Instr} (s : State) (d : Nat) (hs : Good q s) : Good q (State.domainOn s d) := by
  unfold State.domainOn
  with_reducible repeat' first | assumption | intro _ | apply good_ite | apply good_id | apply good_foldl | apply good_mapGetD | apply good_raise | apply good_wr | fail_if_no_progress apply good_upd | dsimp only | split

theorem good_raiseFn {q : List Instr} (s : State) (f : Nat) (fld : Fld) (hs : Good q s) : Good q (State.raiseFn s f fld) := by
  unfold State.raiseFn
  with_reducible repeat' first | assumption | intro _ | apply good_ite | apply good_id | apply good_foldl | apply good_mapGetD | apply good_message | apply good_wr | fail_if_no_progress apply good_upd | dsimp only | split

theorem good_doorbellSync {q : List Instr} (s : State) (f : Nat) (hs : Good q s) : Good q (State.doorbellSync s f) := by
  unfold State.doorbellSync
  with_reducible repeat' first | assumption | intro _ | apply good_ite | apply good_id | apply good_foldl | apply good_mapGetD | apply good_wr | apply good_raiseFn | fail_if_no_progress apply good_upd | dsimp only | split

theorem good_putFields {q : List Instr} (s : State) (r : Reg) (i : Nat) (v : Nat) (hs : Good q s) : Good q (State.putFields s r i v) := by
  unfold State.putFields
  with_reducible repeat' first | assumption | intro _ | apply good_ite | apply good_id | apply good_foldl | apply good_mapGetD | apply good_each | apply good_wr | fail_if_no_progress apply good_upd | dsimp only | split

theorem good_domainOff {q : List Instr} (s : State) (d : Nat) (retained : Bool) (hs : Good q s) : Good q (State.domainOff s d retained) := by
  unfold State.domainOff
  with_reducible repeat' first | assumption | intro _ | apply good_ite | apply good_id | apply good_foldl | apply good_mapGetD | apply good_raise | apply good_wr | fail_if_no_progress apply good_upd | dsimp only | split

end Sys2Proof.Machine
end

