-- ==== Sys2Proof/Laws/KeepsTime.lean ====
section
/-! SUPPORT. The operations of Time.lean keep the queue and the invariant. -/

set_option linter.unusedTactic false
set_option linter.unreachableTactic false
set_option linter.unusedSimpArgs false
set_option linter.unusedVariables false

namespace Sys2Proof.Machine

theorem good_clockDue {q : List Instr} (s : State) (cause : Nat) (hs : Good q s) : Good q (State.clockDue s cause) := by
  unfold State.clockDue
  with_reducible repeat' first | assumption | intro _ | apply good_ite | apply good_id | apply good_foldl | apply good_mapGetD | fail_if_no_progress apply good_upd | dsimp only | split

theorem good_tsuStatus {q : List Instr} (s : State) (f : Fld) (v : Nat) (hs : Good q s) : Good q (State.tsuStatus s f v) := by
  unfold State.tsuStatus
  with_reducible repeat' first | assumption | intro _ | apply good_ite | apply good_id | apply good_foldl | apply good_mapGetD | apply good_clockDue | apply good_wr | fail_if_no_progress apply good_upd | dsimp only | split

theorem good_tsuSync {q : List Instr} (s : State) (hs : Good q s) : Good q (State.tsuSync s) := by
  unfold State.tsuSync
  with_reducible repeat' first | assumption | intro _ | apply good_ite | apply good_id | apply good_foldl | apply good_mapGetD | apply good_tsuStatus | fail_if_no_progress apply good_upd | dsimp only | split

theorem good_pllLock {q : List Instr} (s : State) (hs : Good q s) : Good q (State.pllLock s) := by
  unfold State.pllLock
  with_reducible repeat' first | assumption | intro _ | apply good_ite | apply good_id | apply good_foldl | apply good_mapGetD | apply good_tsuStatus | fail_if_no_progress apply good_upd | dsimp only | split

theorem good_execTimeRefRestored {q : List Instr} (s : State) (hs : Good q s) : GoodT q (execTimeRefRestored s) := by
  unfold execTimeRefRestored
  with_reducible repeat' first | assumption | intro _ | apply goodT_next | apply goodT_ite | apply goodP_ite | apply good_ite | apply good_id | apply good_foldl | apply good_mapGetD | apply good_raise | apply good_pllLock | fail_if_no_progress apply good_upd | simp only [goodP_iff] | dsimp only | split

/-- Device time is legal after any count. -/
theorem legal_ofUnits (u : Nat) : (DevTime.ofUnits u).legal := by
  unfold DevTime.ofUnits DevTime.legal
  exact ⟨Nat.mod_lt _ (by decide), Nat.mod_lt _ (by decide), Nat.mod_lt _ (by decide)⟩

/-- Device time is legal after a step. -/
theorem legal_stepped (s : State) : s.stepped.legal := by
  unfold State.stepped
  split
  · exact legal_ofUnits _
  · exact legal_ofUnits _

theorem good_countTick {q : List Instr} (s : State) (hs : Good q s) : Good q s.countTick := by
  unfold State.countTick
  refine good_put _ _ _ _ ?_
  refine good_upd (good_time hs (x := if s.stepApplies then s.stepped else s.counted) ?_)
  split
  · exact legal_stepped s
  · exact legal_ofUnits _

theorem good_secondBoundary {q : List Instr} (s : State) (hs : Good q s) : Good q (State.secondBoundary s) := by
  unfold State.secondBoundary
  with_reducible repeat' first | assumption | intro _ | apply good_ite | apply good_id | apply good_foldl | apply good_mapGetD | apply good_clockDue | apply good_raise | apply good_when | apply good_send | fail_if_no_progress apply good_upd | dsimp only | split

theorem good_stepDone {q : List Instr} (s : State) (abs : Bool) (hs : Good q s) : Good q (State.stepDone s abs) := by
  unfold State.stepDone
  with_reducible repeat' first | assumption | intro _ | apply good_ite | apply good_id | apply good_foldl | apply good_mapGetD | apply good_wr | apply good_when | apply good_raise | apply good_journalSteer | fail_if_no_progress apply good_upd | dsimp only | split

theorem good_tick {q : List Instr} (s : State) (hs : Good q s) : Good q (State.tick s) := by
  unfold State.tick
  with_reducible repeat' first | assumption | intro _ | apply good_ite | apply good_id | apply good_foldl | apply good_mapGetD | apply good_countTick | apply good_when | apply good_secondBoundary | apply good_stepDone | apply good_raise | apply good_tsuSync | apply good_send | fail_if_no_progress apply good_upd | dsimp only | split

theorem good_execTimeSlewDone {q : List Instr} (s : State) (hs : Good q s) : GoodT q (execTimeSlewDone s) := by
  unfold execTimeSlewDone
  with_reducible repeat' first | assumption | intro _ | apply goodT_next | apply goodT_ite | apply goodP_ite | apply good_ite | apply good_id | apply good_foldl | apply good_mapGetD | apply good_tick | fail_if_no_progress apply good_upd | simp only [goodP_iff] | dsimp only | split

theorem good_steering {q : List Instr} (s : State) (hs : Good q s) : Good q (State.steering s) := by
  unfold State.steering
  with_reducible repeat' first | assumption | intro _ | apply good_ite | apply good_id | apply good_foldl | apply good_mapGetD | apply good_tsuStatus | apply good_when | apply good_journalHoldover | apply good_raise | fail_if_no_progress apply good_upd | dsimp only | split

theorem good_setSlew {q : List Instr} (s : State) (v : Nat) (hs : Good q s) : Good q (State.setSlew s v) := by
  unfold State.setSlew
  with_reducible repeat' first | assumption | intro _ | apply good_ite | apply good_id | apply good_foldl | apply good_mapGetD | apply good_steering | apply good_tsuSync | apply good_journalSteer | fail_if_no_progress apply good_upd | dsimp only | split

theorem good_slewWrite {q : List Instr} (s : State) (w : Width) (v : Nat) (hs : Good q s) : Good q (State.slewWrite s w v) := by
  unfold State.slewWrite
  with_reducible repeat' first | assumption | intro _ | apply good_ite | apply good_id | apply good_foldl | apply good_mapGetD | apply good_setSlew | fail_if_no_progress apply good_upd | dsimp only | split

theorem good_setOffset {q : List Instr} (s : State) (v : Nat) (hs : Good q s) : Good q (State.setOffset s v) := by
  unfold State.setOffset
  with_reducible repeat' first | assumption | intro _ | apply good_ite | apply good_id | apply good_foldl | apply good_mapGetD | apply good_steering | apply good_journalSteer | apply good_put | fail_if_no_progress apply good_upd | dsimp only | split

theorem good_arm {q : List Instr} (s : State) (hs : Good q s) : Good q (State.arm s) := by
  unfold State.arm
  with_reducible repeat' first | assumption | intro _ | apply good_ite | apply good_id | apply good_foldl | apply good_mapGetD | apply good_raise | apply good_wr | apply good_tsuSync | fail_if_no_progress apply good_upd | dsimp only | split

theorem good_cancelStep {q : List Instr} (s : State) (hs : Good q s) : Good q (State.cancelStep s) := by
  unfold State.cancelStep
  with_reducible repeat' first | assumption | intro _ | apply good_ite | apply good_id | apply good_foldl | apply good_mapGetD | apply good_tsuSync | apply good_wr | fail_if_no_progress apply good_upd | dsimp only | split

theorem good_stepCtrlWrite {q : List Instr} (s : State) (arm : Bool) (abs : Bool) (cancel : Bool) (hs : Good q s) : Good q (State.stepCtrlWrite s arm abs cancel) := by
  unfold State.stepCtrlWrite
  with_reducible repeat' first | assumption | intro _ | apply good_ite | apply good_id | apply good_foldl | apply good_mapGetD | apply good_when | apply good_logFwWrite | apply good_wr | apply good_steering | apply good_arm | apply good_cancelStep | fail_if_no_progress apply good_upd | dsimp only | split

theorem good_execTsuStepCancel {q : List Instr} (fn : Nat) (abs : Bool) (s : State) (hs : Good q s) : GoodT q (execTsuStepCancel fn abs s) := by
  unfold execTsuStepCancel
  with_reducible repeat' first | assumption | intro _ | apply goodT_next | apply goodT_ite | apply goodP_ite | apply good_ite | apply good_id | apply good_foldl | apply good_mapGetD | apply good_asManager | apply good_stepCtrlWrite | fail_if_no_progress apply good_upd | simp only [goodP_iff] | dsimp only | split

theorem good_execTimeRefLost {q : List Instr} (s : State) (hs : Good q s) : GoodT q (execTimeRefLost s) := by
  unfold execTimeRefLost
  with_reducible repeat' first | assumption | intro _ | apply goodT_next | apply goodT_ite | apply goodP_ite | apply good_ite | apply good_id | apply good_foldl | apply good_mapGetD | apply good_journalClock | apply good_raise | apply good_wr | fail_if_no_progress apply good_upd | simp only [goodP_iff] | dsimp only | split

theorem good_execTimeHoldoverEnter {q : List Instr} (s : State) (hs : Good q s) : GoodT q (execTimeHoldoverEnter s) := by
  unfold execTimeHoldoverEnter
  with_reducible repeat' first | assumption | intro _ | apply goodT_next | apply goodT_ite | apply goodP_ite | apply good_ite | apply good_id | apply good_foldl | apply good_mapGetD | apply good_journalHoldover | apply good_raise | apply good_tsuStatus | fail_if_no_progress apply good_upd | simp only [goodP_iff] | dsimp only | split

theorem good_setBoardDly {q : List Instr} (s : State) (port : Nat) (v : Nat) (hs : Good q s) : Good q (State.setBoardDly s port v) := by
  unfold State.setBoardDly
  with_reducible repeat' first | assumption | intro _ | apply good_ite | apply good_id | apply good_foldl | apply good_mapGetD | apply good_put | apply good_journalCfg | fail_if_no_progress apply good_upd | dsimp only | split

theorem good_execTsuFreqOffsetWrite {q : List Instr} (fn : Nat) (w : Width) (v : Nat) (s : State) (hs : Good q s) : GoodT q (execTsuFreqOffsetWrite fn w v s) := by
  unfold execTsuFreqOffsetWrite
  with_reducible repeat' first | assumption | intro _ | apply goodT_next | apply goodT_ite | apply goodP_ite | apply good_ite | apply good_id | apply good_foldl | apply good_mapGetD | apply good_asManager | apply good_setOffset | fail_if_no_progress apply good_upd | simp only [goodP_iff] | dsimp only | split

theorem good_execTimeClockTick {q : List Instr} (s : State) (hs : Good q s) : GoodT q (execTimeClockTick s) := by
  unfold execTimeClockTick
  with_reducible repeat' first | assumption | intro _ | apply goodT_next | apply goodT_ite | apply goodP_ite | apply good_ite | apply good_id | apply good_foldl | apply good_mapGetD | apply good_tick | fail_if_no_progress apply good_upd | simp only [goodP_iff] | dsimp only | split

theorem good_execTimeStepApplied {q : List Instr} (s : State) (hs : Good q s) : GoodT q (execTimeStepApplied s) := by
  unfold execTimeStepApplied
  with_reducible repeat' first | assumption | intro _ | apply goodT_next | apply goodT_ite | apply goodP_ite | apply good_ite | apply good_id | apply good_foldl | apply good_mapGetD | apply good_tick | fail_if_no_progress apply good_upd | simp only [goodP_iff] | dsimp only | split

theorem good_execTsuTimeNsfRead {q : List Instr} (fn : Nat) (s : State) (hs : Good q s) : GoodT q (execTsuTimeNsfRead fn s) := by
  unfold execTsuTimeNsfRead
  with_reducible repeat' first | assumption | intro _ | apply goodT_next | apply goodT_ite | apply goodP_ite | apply good_ite | apply good_id | apply good_foldl | apply good_mapGetD | apply good_send | apply good_asManager | fail_if_no_progress apply good_upd | simp only [goodP_iff] | dsimp only | split

theorem good_setSlewRate {q : List Instr} (s : State) (v : Nat) (hs : Good q s) : Good q (State.setSlewRate s v) := by
  unfold State.setSlewRate
  with_reducible repeat' first | assumption | intro _ | apply good_ite | apply good_id | apply good_foldl | apply good_mapGetD | apply good_wrLegal | fail_if_no_progress apply good_upd | dsimp only | split

theorem good_execTsuSlewRateWrite {q : List Instr} (fn : Nat) (v : Nat) (s : State) (hs : Good q s) : GoodT q (execTsuSlewRateWrite fn v s) := by
  unfold execTsuSlewRateWrite
  with_reducible repeat' first | assumption | intro _ | apply goodT_next | apply goodT_ite | apply goodP_ite | apply good_ite | apply good_id | apply good_foldl | apply good_mapGetD | apply good_asManager | apply good_setSlewRate | fail_if_no_progress apply good_upd | simp only [goodP_iff] | dsimp only | split

theorem good_execTimePllUnlock {q : List Instr} (s : State) (hs : Good q s) : GoodT q (execTimePllUnlock s) := by
  unfold execTimePllUnlock
  with_reducible repeat' first | assumption | intro _ | apply goodT_next | apply goodT_ite | apply goodP_ite | apply good_ite | apply good_id | apply good_foldl | apply good_mapGetD | apply good_raise | apply good_tsuStatus | fail_if_no_progress apply good_upd | simp only [goodP_iff] | dsimp only | split

theorem good_execPpsInCaptured {q : List Instr} (phase : Nat) (s : State) (hs : Good q s) : GoodT q (execPpsInCaptured phase s) := by
  unfold execPpsInCaptured
  with_reducible repeat' first | assumption | intro _ | apply goodT_next | apply goodT_ite | apply goodP_ite | apply good_ite | apply good_id | apply good_foldl | apply good_mapGetD | apply good_put | apply good_raise | fail_if_no_progress apply good_upd | simp only [goodP_iff] | dsimp only | split

theorem good_setRef {q : List Instr} (s : State) (sel : Nat) (hs : Good q s) : Good q (State.setRef s sel) := by
  unfold State.setRef
  with_reducible repeat' first | assumption | intro _ | apply good_ite | apply good_id | apply good_foldl | apply good_mapGetD | apply good_raise | apply good_clockDue | apply good_wr | fail_if_no_progress apply good_upd | dsimp only | split

theorem good_execTsuStepArm {q : List Instr} (fn : Nat) (abs : Bool) (cancel : Bool) (s : State) (hs : Good q s) : GoodT q (execTsuStepArm fn abs cancel s) := by
  unfold execTsuStepArm
  with_reducible repeat' first | assumption | intro _ | apply goodT_next | apply goodT_ite | apply goodP_ite | apply good_ite | apply good_id | apply good_foldl | apply good_mapGetD | apply good_asManager | apply good_stepCtrlWrite | fail_if_no_progress apply good_upd | simp only [goodP_iff] | dsimp only | split

theorem good_execPpsInMissing {q : List Instr} (s : State) (hs : Good q s) : GoodT q (execPpsInMissing s) := by
  unfold execPpsInMissing
  with_reducible repeat' first | assumption | intro _ | apply goodT_next | apply goodT_ite | apply goodP_ite | apply good_ite | apply good_id | apply good_foldl | apply good_mapGetD | apply good_raise | fail_if_no_progress apply good_upd | simp only [goodP_iff] | dsimp only | split

theorem good_execTsuSlewSetWrite {q : List Instr} (fn : Nat) (w : Width) (v : Nat) (s : State) (hs : Good q s) : GoodT q (execTsuSlewSetWrite fn w v s) := by
  unfold execTsuSlewSetWrite
  with_reducible repeat' first | assumption | intro _ | apply goodT_next | apply goodT_ite | apply goodP_ite | apply good_ite | apply good_id | apply good_foldl | apply good_mapGetD | apply good_asManager | apply good_slewWrite | fail_if_no_progress apply good_upd | simp only [goodP_iff] | dsimp only | split

theorem good_execTsuBoardDlyWrite {q : List Instr} (fn : Nat) (port : Nat) (v : Nat) (s : State) (hs : Good q s) : GoodT q (execTsuBoardDlyWrite fn port v s) := by
  unfold execTsuBoardDlyWrite
  with_reducible repeat' first | assumption | intro _ | apply goodT_next | apply goodT_ite | apply goodP_ite | apply good_ite | apply good_id | apply good_foldl | apply good_mapGetD | apply good_asManager | apply good_setBoardDly | fail_if_no_progress apply good_upd | simp only [goodP_iff] | dsimp only | split

theorem good_execTsuRefWrite {q : List Instr} (fn : Nat) (v : Nat) (s : State) (hs : Good q s) : GoodT q (execTsuRefWrite fn v s) := by
  unfold execTsuRefWrite
  with_reducible repeat' first | assumption | intro _ | apply goodT_next | apply goodT_ite | apply goodP_ite | apply good_ite | apply good_id | apply good_foldl | apply good_mapGetD | apply good_asManager | apply good_setRef | fail_if_no_progress apply good_upd | simp only [goodP_iff] | dsimp only | split

theorem good_execTimeSecondBoundary {q : List Instr} (s : State) (hs : Good q s) : GoodT q (execTimeSecondBoundary s) := by
  unfold execTimeSecondBoundary
  with_reducible repeat' first | assumption | intro _ | apply goodT_next | apply goodT_ite | apply goodP_ite | apply good_ite | apply good_id | apply good_foldl | apply good_mapGetD | apply good_tick | fail_if_no_progress apply good_upd | simp only [goodP_iff] | dsimp only | split

end Sys2Proof.Machine
end

