-- ==== Sys2Proof/Laws/KeepsPackets.lean ====
section
/-! SUPPORT. The operations of Packets.lean keep the queue and the invariant. -/

set_option linter.unusedTactic false
set_option linter.unreachableTactic false
set_option linter.unusedSimpArgs false
set_option linter.unusedVariables false

namespace Sys2Proof.Machine

theorem good_countTx {q : List Instr} (s : State) (port : Nat) (f : Bytes) (len : Nat) (hs : Good q s) : Good q (State.countTx s port f len) := by
  unfold State.countTx
  with_reducible repeat' first | assumption | intro _ | apply good_ite | apply good_id | apply good_foldl | apply good_mapGetD | apply good_countBy | apply good_count | apply good_when | fail_if_no_progress apply good_upd | dsimp only | split

theorem good_wire {q : List Instr} (s : State) (port : Nat) (f : Bytes) (hs : Good q s) : Good q (State.wire s port f) := by
  unfold State.wire
  with_reducible repeat' first | assumption | intro _ | apply good_ite | apply good_id | apply good_foldl | apply good_mapGetD | apply good_send | fail_if_no_progress apply good_upd | dsimp only | split

theorem good_wireNext {q : List Instr} (s : State) (port : Nat) (f : Bytes) (hs : Good q s) : Good q (State.wireNext s port f) := by
  unfold State.wireNext
  with_reducible repeat' first | assumption | intro _ | apply good_ite | apply good_id | apply good_foldl | apply good_mapGetD | apply good_wire | fail_if_no_progress apply good_upd | dsimp only | split

theorem good_sendFc {q : List Instr} (s : State) (port : Nat) (c : Nat) (time : Nat) (hs : Good q s) : Good q (State.sendFc s port c time) := by
  unfold State.sendFc
  with_reducible repeat' first | assumption | intro _ | apply good_ite | apply good_id | apply good_foldl | apply good_mapGetD | apply good_countTx | apply good_wireNext | apply good_count | apply good_each | fail_if_no_progress apply good_upd | dsimp only | split

theorem good_fcLevel {q : List Instr} (s : State) (port : Nat) (c : Nat) (hs : Good q s) : Good q (State.fcLevel s port c) := by
  unfold State.fcLevel
  with_reducible repeat' first | assumption | intro _ | apply good_ite | apply good_id | apply good_foldl | apply good_mapGetD | apply good_sendFc | fail_if_no_progress apply good_upd | dsimp only | split

theorem good_setPkt {q : List Instr} (s : State) (h : Nat) (p : Packet) (hs : Good q s) : Good q (State.setPkt s h p) := by
  unfold State.setPkt
  with_reducible repeat' first | assumption | intro _ | apply good_ite | apply good_id | apply good_foldl | apply good_mapGetD | fail_if_no_progress apply good_upd | dsimp only | split

theorem good_discard {q : List Instr} (s : State) (unit : Nat) (n : Nat) (hs : Good q s) : Good q (State.discard s unit n) := by
  unfold State.discard
  with_reducible repeat' first | assumption | intro _ | apply good_ite | apply good_id | apply good_foldl | apply good_mapGetD | fail_if_no_progress apply good_upd | dsimp only | split

theorem good_retire {q : List Instr} (s : State) (q_ : WatchedQueue) (hs : Good q s) : Good q (State.retire s q_) := by
  unfold State.retire
  with_reducible repeat' first | assumption | intro _ | apply good_ite | apply good_id | apply good_foldl | apply good_mapGetD | fail_if_no_progress apply good_upd | dsimp only | split

theorem good_fcCheck {q : List Instr} (s : State) (port : Nat) (hs : Good q s) : Good q (State.fcCheck s port) := by
  unfold State.fcCheck
  with_reducible repeat' first | assumption | intro _ | apply good_ite | apply good_id | apply good_foldl | apply good_mapGetD | apply good_each | apply good_fcLevel | fail_if_no_progress apply good_upd | dsimp only | split

theorem good_moveTo {q : List Instr} (s : State) (h : Nat) (st : Stage) (hs : Good q s) : Good q (State.moveTo s h st) := by
  unfold State.moveTo
  with_reducible repeat' first | assumption | intro _ | apply good_ite | apply good_id | apply good_foldl | apply good_mapGetD | apply good_when | apply good_setPkt | apply good_fcCheck | fail_if_no_progress apply good_upd | dsimp only | split

theorem good_addPkt {q : List Instr} (s : State) (p : Packet) (hs : Good q s) : Good q (State.addPkt s p) := by
  unfold State.addPkt
  with_reducible repeat' first | assumption | intro _ | apply good_ite | apply good_id | apply good_foldl | apply good_mapGetD | apply good_setPkt | apply good_when | apply good_fcCheck | fail_if_no_progress apply good_upd | dsimp only | split

theorem good_setJob {q : List Instr} (s : State) (j : Nat) (b : Job) (hs : Good q s) : Good q (State.setJob s j b) := by
  unfold State.setJob
  with_reducible repeat' first | assumption | intro _ | apply good_ite | apply good_id | apply good_foldl | apply good_mapGetD | fail_if_no_progress apply good_upd | dsimp only | split

theorem good_jobCopy {q : List Instr} (s : State) (p : Packet) (left : Bool) (status : Nat) (ofl : Nat) (hs : Good q s) : Good q (State.jobCopy s p left status ofl) := by
  unfold State.jobCopy
  with_reducible repeat' first | assumption | intro _ | apply good_ite | apply good_id | apply good_foldl | apply good_mapGetD | apply good_setJob | fail_if_no_progress apply good_upd | dsimp only | split

theorem good_cellCheck {q : List Instr} (s : State) (unit : Nat) (hs : Good q s) : Good q (State.cellCheck s unit) := by
  unfold State.cellCheck
  with_reducible repeat' first | assumption | intro _ | apply good_ite | apply good_id | apply good_foldl | apply good_mapGetD | apply good_raise | fail_if_no_progress apply good_upd | dsimp only | split

theorem good_freePkt {q : List Instr} (s : State) (h : Nat) (hs : Good q s) : Good q (State.freePkt s h) := by
  unfold State.freePkt
  with_reducible repeat' first | assumption | intro _ | apply good_ite | apply good_id | apply good_foldl | apply good_mapGetD | apply good_when | apply good_fcCheck | fail_if_no_progress apply good_upd | dsimp only | split

end Sys2Proof.Machine
end

