-- ==== Sys2Proof/Laws/KeepsHost.lean ====
section
/-! SUPPORT. The operations of Host.lean keep the queue and the invariant. -/

set_option linter.unusedTactic false
set_option linter.unreachableTactic false
set_option linter.unusedSimpArgs false
set_option linter.unusedVariables false

namespace Sys2Proof.Machine

theorem good_pageFailed {q : List Instr} (s : State) (f : Nat) (hs : Good q s) : Good q (State.pageFailed s f) := by
  unfold State.pageFailed
  with_reducible repeat' first | assumption | intro _ | apply good_ite | apply good_id | apply good_foldl | apply good_mapGetD | apply good_raiseMs | apply good_count | fail_if_no_progress apply good_upd | dsimp only | split

theorem good_migPage {q : List Instr} (s : State) (f : Nat) (page : Nat) (hs : Good q s) : Good q (State.migPage s f page) := by
  unfold State.migPage
  with_reducible repeat' first | assumption | intro _ | apply good_ite | apply good_id | apply good_foldl | apply good_mapGetD | apply good_raise | apply good_wr | apply good_when | apply good_put | apply good_send | fail_if_no_progress apply good_upd | dsimp only | split

theorem good_migLog {q : List Instr} (s : State) (f : Nat) (addr : Nat) (len : Nat) (hs : Good q s) : Good q (State.migLog s f addr len) := by
  unfold State.migLog
  with_reducible repeat' first | assumption | intro _ | apply good_ite | apply good_id | apply good_foldl | apply good_mapGetD | apply good_each | apply good_migPage | fail_if_no_progress apply good_upd | dsimp only | split

theorem good_issueXlate {q : List Instr} (s : State) (q_ : XReq) (hs : Good q s) : Good q (State.issueXlate s q_) := by
  unfold State.issueXlate
  with_reducible repeat' first | assumption | intro _ | apply good_ite | apply good_id | apply good_foldl | apply good_mapGetD | apply good_send | fail_if_no_progress apply good_upd | dsimp only | split

theorem good_atsMiss {q : List Instr} (s : State) (f : Nat) (pasid : Option Nat) (addr : Nat) (write : Bool) (who : Waiter) (hs : Good q s) : Good q (State.atsMiss s f pasid addr write who) := by
  unfold State.atsMiss
  with_reducible repeat' first | assumption | intro _ | apply good_ite | apply good_id | apply good_foldl | apply good_mapGetD | apply good_count | apply good_issueXlate | fail_if_no_progress apply good_upd | dsimp only | split

theorem good_atsUse {q : List Instr} (s : State) (f : Nat) (pasid : Option Nat) (addr : Nat) (write : Bool) (hs : Good q s) : Good q (State.atsUse s f pasid addr write) := by
  unfold State.atsUse
  with_reducible repeat' first | assumption | intro _ | apply good_ite | apply good_id | apply good_foldl | apply good_mapGetD | apply good_count | fail_if_no_progress apply good_upd | dsimp only | split

theorem good_issueParts {q : List Instr} (s : State) (n : Nat) (a2 : Nat) (hs : Good q s) : Good q (State.issueParts s n a2) := by
  induction a2 generalizing s n with
  | zero =>
    unfold State.issueParts
    with_reducible repeat' first | assumption | intro _ | apply good_ite | apply good_id | apply good_foldl | apply good_mapGetD | apply good_send | fail_if_no_progress apply good_upd | dsimp only | split
  | succ n ih =>
    unfold State.issueParts
    with_reducible repeat' first | assumption | intro _ | apply ih | apply good_ite | apply good_id | apply good_foldl | apply good_mapGetD | apply good_send | fail_if_no_progress apply good_upd | dsimp only | split

theorem good_hostRead {q : List Instr} (s : State) (f : Nat) (addr : Nat) (pasid : Option Nat) (len : Nat) (who : Waiter) (hs : Good q s) : Good q (State.hostRead s f addr pasid len who) := by
  unfold State.hostRead
  with_reducible repeat' first | assumption | intro _ | apply good_ite | apply good_id | apply good_foldl | apply good_mapGetD | apply good_atsMiss | apply good_atsUse | apply good_issueParts | fail_if_no_progress apply good_upd | dsimp only | split

theorem good_pageRequest {q : List Instr} (s : State) (f : Nat) (pasid : Option Nat) (addr : Nat) (write : Bool) (who : Waiter) (hs : Good q s) : GoodO q (State.pageRequest s f pasid addr write who) := by
  unfold State.pageRequest
  with_reducible repeat' first | assumption | intro _ | apply goodO_some | apply goodO_none | apply goodO_ite | apply good_ite | apply good_id | apply good_foldl | apply good_mapGetD | apply good_send | apply good_count | fail_if_no_progress apply good_upd | simp only [goodP_iff] | dsimp only | split

theorem good_issueOne {q : List Instr} (s : State) (port : Nat) (hs : Good q s) : Good q (State.issueOne s port) := by
  unfold State.issueOne
  with_reducible repeat' first | assumption | intro _ | apply good_ite | apply good_id | apply good_foldl | apply good_mapGetD | apply good_issueXlate | apply good_issueParts | apply good_hostRead | fail_if_no_progress apply good_upd | dsimp only | split

theorem good_sendRead {q : List Instr} (s : State) (f : Nat) (addr : Nat) (pasid : Option Nat) (n : Nat) (hs : Good q s) : Good q (State.sendRead s f addr pasid n) := by
  unfold State.sendRead
  with_reducible repeat' first | assumption | intro _ | apply good_ite | apply good_id | apply good_foldl | apply good_mapGetD | apply good_each | apply good_send | fail_if_no_progress apply good_upd | dsimp only | split

theorem good_issueWaiting {q : List Instr} (s : State) (hs : Good q s) : Good q (State.issueWaiting s) := by
  unfold State.issueWaiting
  with_reducible repeat' first | assumption | intro _ | apply good_ite | apply good_id | apply good_foldl | apply good_mapGetD | apply good_each | apply good_issueOne | fail_if_no_progress apply good_upd | dsimp only | split

theorem good_hostWrite {q : List Instr} (s : State) (f : Nat) (addr : Nat) (pasid : Option Nat) (data : Bytes) (hs : Good q s) : Good q (State.hostWrite s f addr pasid data) := by
  unfold State.hostWrite
  with_reducible repeat' first | assumption | intro _ | apply good_ite | apply good_id | apply good_foldl | apply good_mapGetD | apply good_atsUse | apply good_atsMiss | apply good_send | apply good_migLog | fail_if_no_progress apply good_upd | dsimp only | split

theorem good_readFailed {q : List Instr} (s : State) (f : Nat) (r : HostReply) (hs : Good q s) : Good q (State.readFailed s f r) := by
  unfold State.readFailed
  with_reducible repeat' first | assumption | intro _ | apply good_ite | apply good_id | apply good_foldl | apply good_mapGetD | apply good_raiseMs | apply good_count | fail_if_no_progress apply good_upd | dsimp only | split

end Sys2Proof.Machine
end

