-- ==== Sys2Proof/Laws/KeepsRings.lean ====
section
/-! SUPPORT. The operations of Rings.lean keep the queue and the invariant. -/

set_option linter.unusedTactic false
set_option linter.unreachableTactic false
set_option linter.unusedSimpArgs false
set_option linter.unusedVariables false

namespace Sys2Proof.Machine

theorem good_writeWaits {q : List Instr} (s : State) (key : Nat) (addr : Nat) (who : Waiter) (hs : Good q s) : Good q (State.writeWaits s key addr who) := by
  unfold State.writeWaits
  with_reducible repeat' first | assumption | intro _ | apply good_ite | apply good_id | apply good_foldl | apply good_mapGetD | apply good_atsMiss | fail_if_no_progress apply good_upd | dsimp only | split

theorem good_modRing {q : List Instr} (s : State) (key : Nat) (g : Ring → Ring) (hs : Good q s) : Good q (State.modRing s key g) := by
  unfold State.modRing
  with_reducible repeat' first | assumption | intro _ | apply good_ite | apply good_id | apply good_foldl | apply good_mapGetD | fail_if_no_progress apply good_upd | dsimp only | split

theorem good_ringMessage {q : List Instr} (s : State) (key : Nat) (hs : Good q s) : Good q (State.ringMessage s key) := by
  unfold State.ringMessage
  with_reducible repeat' first | assumption | intro _ | apply good_ite | apply good_id | apply good_foldl | apply good_mapGetD | apply good_message | apply good_modRing | fail_if_no_progress apply good_upd | dsimp only | split

theorem good_writeHead {q : List Instr} (s : State) (key : Nat) (hs : Good q s) : Good q (State.writeHead s key) := by
  unfold State.writeHead
  with_reducible repeat' first | assumption | intro _ | apply good_ite | apply good_id | apply good_foldl | apply good_mapGetD | apply good_writeWaits | apply good_hostWrite | apply good_modRing | apply good_when | apply good_ringMessage | fail_if_no_progress apply good_upd | dsimp only | split

theorem good_headCheck {q : List Instr} (s : State) (key : Nat) (hs : Good q s) : Good q (State.headCheck s key) := by
  unfold State.headCheck
  with_reducible repeat' first | assumption | intro _ | apply good_ite | apply good_id | apply good_foldl | apply good_mapGetD | apply good_writeHead | fail_if_no_progress apply good_upd | dsimp only | split

theorem good_setRingState {q : List Instr} (s : State) (key : Nat) (st : Nat) (cause : Nat) (hs : Good q s) : Good q (State.setRingState s key st cause) := by
  unfold State.setRingState
  with_reducible repeat' first | assumption | intro _ | apply good_ite | apply good_id | apply good_foldl | apply good_mapGetD | apply good_modRing | apply good_when | apply good_raiseFn | apply good_writeHead | fail_if_no_progress apply good_upd | dsimp only | split

theorem good_ringCount {q : List Instr} (s : State) (key : Nat) (k : Nat) (n : Nat) (hs : Good q s) : Good q (State.ringCount s key k n) := by
  unfold State.ringCount
  with_reducible repeat' first | assumption | intro _ | apply good_ite | apply good_id | apply good_foldl | apply good_mapGetD | apply good_modRing | apply good_countBy | fail_if_no_progress apply good_upd | dsimp only | split

theorem good_markDone {q : List Instr} (s : State) (key : Nat) (index : Nat) (hs : Good q s) : Good q (State.markDone s key index) := by
  unfold State.markDone
  with_reducible repeat' first | assumption | intro _ | apply good_ite | apply good_id | apply good_foldl | apply good_mapGetD | apply good_modRing | fail_if_no_progress apply good_upd | dsimp only | split

theorem good_finishJob {q : List Instr} (s : State) (j : Nat) (hs : Good q s) : Good q (State.finishJob s j) := by
  unfold State.finishJob
  with_reducible repeat' first | assumption | intro _ | apply good_ite | apply good_id | apply good_foldl | apply good_mapGetD | apply good_markDone | apply good_modRing | apply good_headCheck | fail_if_no_progress apply good_upd | dsimp only | split

theorem good_dropHeld {q : List Instr} (s : State) (key : Nat) (bme : Bool) (hs : Good q s) : Good q (State.dropHeld s key bme) := by
  unfold State.dropHeld
  with_reducible repeat' first | assumption | intro _ | apply good_ite | apply good_id | apply good_foldl | apply good_mapGetD | apply good_each | apply good_count | apply good_ringCount | apply good_freePkt | apply good_modRing | fail_if_no_progress apply good_upd | dsimp only | split

theorem good_stopRing {q : List Instr} (s : State) (key : Nat) (st : Nat) (cause : Nat) (hs : Good q s) : Good q (State.stopRing s key st cause) := by
  unfold State.stopRing
  with_reducible repeat' first | assumption | intro _ | apply good_ite | apply good_id | apply good_foldl | apply good_mapGetD | apply good_dropHeld | apply good_setRingState | fail_if_no_progress apply good_upd | dsimp only | split

theorem good_endPkt {q : List Instr} (s : State) (h : Nat) (left : Bool) (status : Nat) (ofl : Nat) (hs : Good q s) : Good q (State.endPkt s h left status ofl) := by
  unfold State.endPkt
  with_reducible repeat' first | assumption | intro _ | apply good_ite | apply good_id | apply good_foldl | apply good_mapGetD | apply good_freePkt | apply good_jobCopy | apply good_finishJob | fail_if_no_progress apply good_upd | dsimp only | split

theorem good_dropPkt {q : List Instr} (s : State) (h : Nat) (status : Nat) (hs : Good q s) : Good q (State.dropPkt s h status) := by
  unfold State.dropPkt
  with_reducible repeat' first | assumption | intro _ | apply good_ite | apply good_id | apply good_foldl | apply good_mapGetD | apply good_endPkt | fail_if_no_progress apply good_upd | dsimp only | split

theorem good_coalesce {q : List Instr} (s : State) (key : Nat) (hs : Good q s) : Good q (State.coalesce s key) := by
  unfold State.coalesce
  with_reducible repeat' first | assumption | intro _ | apply good_ite | apply good_id | apply good_foldl | apply good_mapGetD | apply good_ringMessage | apply good_modRing | fail_if_no_progress apply good_upd | dsimp only | split

theorem good_failJob {q : List Instr} (s : State) (j : Nat) (status : Nat) (ofl : Nat) (hs : Good q s) : Good q (State.failJob s j status ofl) := by
  unfold State.failJob
  with_reducible repeat' first | assumption | intro _ | apply good_ite | apply good_id | apply good_foldl | apply good_mapGetD | apply good_finishJob | apply good_setJob | fail_if_no_progress apply good_upd | dsimp only | split

theorem good_writeCpl {q : List Instr} (s : State) (key : Nat) (c : Cpl) (hs : Good q s) : Good q (State.writeCpl s key c) := by
  unfold State.writeCpl
  with_reducible repeat' first | assumption | intro _ | apply good_ite | apply good_id | apply good_foldl | apply good_mapGetD | apply good_hostWrite | apply good_coalesce | apply good_modRing | fail_if_no_progress apply good_upd | dsimp only | split

theorem good_flushPend {q : List Instr} (s : State) (key : Nat) (a2 : Nat) (hs : Good q s) : Good q (State.flushPend s key a2) := by
  induction a2 generalizing s key with
  | zero =>
    unfold State.flushPend
    with_reducible repeat' first | assumption | intro _ | apply good_ite | apply good_id | apply good_foldl | apply good_mapGetD | apply good_writeWaits | apply good_writeCpl | apply good_modRing | fail_if_no_progress apply good_upd | dsimp only | split
  | succ n ih =>
    unfold State.flushPend
    with_reducible repeat' first | assumption | intro _ | apply ih | apply good_ite | apply good_id | apply good_foldl | apply good_mapGetD | apply good_writeWaits | apply good_writeCpl | apply good_modRing | fail_if_no_progress apply good_upd | dsimp only | split

theorem good_postCpl {q : List Instr} (s : State) (key : Nat) (c : Cpl) (hs : Good q s) : Good q (State.postCpl s key c) := by
  unfold State.postCpl
  with_reducible repeat' first | assumption | intro _ | apply good_ite | apply good_id | apply good_foldl | apply good_mapGetD | apply good_writeCpl | apply good_modRing | apply good_flushPend | apply good_hwm | fail_if_no_progress apply good_upd | dsimp only | split

end Sys2Proof.Machine
end

