-- ==== Sys2Proof/Laws/KeepsPorts.lean ====
section
/-! SUPPORT. The operations of Ports.lean keep the queue and the invariant. -/

set_option linter.unusedTactic false
set_option linter.unreachableTactic false
set_option linter.unusedSimpArgs false
set_option linter.unusedVariables false

namespace Sys2Proof.Machine

theorem good_sendVerify {q : List Instr} (s : State) (port : Nat) (k : Nat) (hs : Good q s) : Good q (State.sendVerify s port k) := by
  unfold State.sendVerify
  with_reducible repeat' first | assumption | intro _ | apply good_ite | apply good_id | apply good_foldl | apply good_mapGetD | apply good_send | fail_if_no_progress apply good_upd | dsimp only | split

theorem good_preemptWrite {q : List Instr} (s : State) (port : Nat) (v : Nat) (hs : Good q s) : Good q (State.preemptWrite s port v) := by
  unfold State.preemptWrite
  with_reducible repeat' first | assumption | intro _ | apply good_ite | apply good_id | apply good_foldl | apply good_mapGetD | apply good_wr | apply good_wrLegal | apply good_sendVerify | fail_if_no_progress apply good_upd | dsimp only | split

theorem good_execPreemptEnableWrite {q : List Instr} (fn : Nat) (port : Nat) (v : Nat) (s : State) (hs : Good q s) : GoodT q (execPreemptEnableWrite fn port v s) := by
  unfold execPreemptEnableWrite
  with_reducible repeat' first | assumption | intro _ | apply goodT_next | apply goodT_ite | apply goodP_ite | apply good_ite | apply good_id | apply good_foldl | apply good_mapGetD | apply good_asManager | apply good_preemptWrite | fail_if_no_progress apply good_upd | simp only [goodP_iff] | dsimp only | split

theorem good_pausedSync {q : List Instr} (s : State) (port : Nat) (hs : Good q s) : Good q (State.pausedSync s port) := by
  unfold State.pausedSync
  with_reducible repeat' first | assumption | intro _ | apply good_ite | apply good_id | apply good_foldl | apply good_mapGetD | apply good_countBy | fail_if_no_progress apply good_upd | dsimp only | split

theorem good_rateCount {q : List Instr} (s : State) (src : Nat) (n : Nat) (hs : Good q s) : Good q (State.rateCount s src n) := by
  unfold State.rateCount
  with_reducible repeat' first | assumption | intro _ | apply good_ite | apply good_id | apply good_foldl | apply good_mapGetD | fail_if_no_progress apply good_upd | dsimp only | split

theorem good_endHold {q : List Instr} (s : State) (port : Nat) (c : Nat) (hs : Good q s) : Good q (State.endHold s port c) := by
  unfold State.endHold
  with_reducible repeat' first | assumption | intro _ | apply good_ite | apply good_id | apply good_foldl | apply good_mapGetD | apply good_when | apply good_pausedSync | apply good_wr | fail_if_no_progress apply good_upd | dsimp only | split

theorem good_endHolds {q : List Instr} (s : State) (port : Nat) (hs : Good q s) : Good q (State.endHolds s port) := by
  unfold State.endHolds
  with_reducible repeat' first | assumption | intro _ | apply good_ite | apply good_id | apply good_foldl | apply good_mapGetD | apply good_each | apply good_endHold | fail_if_no_progress apply good_upd | dsimp only | split

theorem good_linkFalls {q : List Instr} (s : State) (n : Nat) (hs : Good q s) : Good q (State.linkFalls s n) := by
  unfold State.linkFalls
  with_reducible repeat' first | assumption | intro _ | apply good_ite | apply good_id | apply good_foldl | apply good_mapGetD | apply good_wr | apply good_when | apply good_endHolds | apply good_raise | fail_if_no_progress apply good_upd | dsimp only | split

theorem good_stompOut {q : List Instr} (s : State) (port : Nat) (h : Nat) (g : Bytes) (hs : Good q s) : Good q (State.stompOut s port h g) := by
  unfold State.stompOut
  with_reducible repeat' first | assumption | intro _ | apply good_ite | apply good_id | apply good_foldl | apply good_mapGetD | apply good_when | apply good_send | apply good_endPkt | apply good_raiseMs | apply good_count | fail_if_no_progress apply good_upd | dsimp only | split

theorem good_stompNow {q : List Instr} (s : State) (key : Nat) (hs : Good q s) : Good q (State.stompNow s key) := by
  unfold State.stompNow
  with_reducible repeat' first | assumption | intro _ | apply good_ite | apply good_id | apply good_foldl | apply good_mapGetD | apply good_stompOut | apply good_used | fail_if_no_progress apply good_upd | dsimp only | split

theorem good_portDown {q : List Instr} (s : State) (n : Nat) (hs : Good q s) : Good q (State.portDown s n) := by
  unfold State.portDown
  with_reducible repeat' first | assumption | intro _ | apply good_ite | apply good_id | apply good_foldl | apply good_mapGetD | apply good_linkFalls | apply good_stompNow | apply good_each | apply good_dropPkt | apply good_discard | fail_if_no_progress apply good_upd | dsimp only | split

theorem good_setHold {q : List Instr} (s : State) (port : Nat) (c : Nat) (quanta : Nat) (hs : Good q s) : Good q (State.setHold s port c quanta) := by
  unfold State.setHold
  with_reducible repeat' first | assumption | intro _ | apply good_ite | apply good_id | apply good_foldl | apply good_mapGetD | apply good_endHold | apply good_when | apply good_pausedSync | apply good_wr | fail_if_no_progress apply good_upd | dsimp only | split

theorem good_rxPause {q : List Instr} (s : State) (port : Nat) (time : Nat) (hs : Good q s) : Good q (State.rxPause s port time) := by
  unfold State.rxPause
  with_reducible repeat' first | assumption | intro _ | apply good_ite | apply good_id | apply good_foldl | apply good_mapGetD | apply good_when | apply good_count | apply good_setHold | fail_if_no_progress apply good_upd | dsimp only | split

theorem good_countRxAll {q : List Instr} (s : State) (port : Nat) (len : Nat) (hs : Good q s) : Good q (State.countRxAll s port len) := by
  unfold State.countRxAll
  with_reducible repeat' first | assumption | intro _ | apply good_ite | apply good_id | apply good_foldl | apply good_mapGetD | apply good_count | apply good_countBy | apply good_when | fail_if_no_progress apply good_upd | dsimp only | split

theorem good_rxPfc {q : List Instr} (s : State) (port : Nat) (enable : Nat) (times : List Nat) (hs : Good q s) : Good q (State.rxPfc s port enable times) := by
  unfold State.rxPfc
  with_reducible repeat' first | assumption | intro _ | apply good_ite | apply good_id | apply good_foldl | apply good_mapGetD | apply good_each | apply good_count | apply good_when | apply good_setHold | fail_if_no_progress apply good_upd | dsimp only | split

theorem good_prtCtrlWrite {q : List Instr} (s : State) (port : Nat) (v : Nat) (hs : Good q s) : Good q (State.prtCtrlWrite s port v) := by
  unfold State.prtCtrlWrite
  with_reducible repeat' first | assumption | intro _ | apply good_ite | apply good_id | apply good_foldl | apply good_mapGetD | apply good_wr | apply good_wrLegal | apply good_when | apply good_portDown | fail_if_no_progress apply good_upd | dsimp only | split

theorem good_fcDrop {q : List Instr} (s : State) (port : Nat) (hs : Good q s) : Good q (State.fcDrop s port) := by
  unfold State.fcDrop
  with_reducible repeat' first | assumption | intro _ | apply good_ite | apply good_id | apply good_foldl | apply good_mapGetD | apply good_each | fail_if_no_progress apply good_upd | dsimp only | split

theorem good_mgmtTx {q : List Instr} (s : State) (data : Bytes) (hs : Good q s) : Good q (State.mgmtTx s data) := by
  unfold State.mgmtTx
  with_reducible repeat' first | assumption | intro _ | apply good_ite | apply good_id | apply good_foldl | apply good_mapGetD | apply good_countTx | apply good_send | fail_if_no_progress apply good_upd | dsimp only | split

theorem good_execNcsiPassthroughFrame {q : List Instr} (data : Bytes) (s : State) (hs : Good q s) : GoodT q (execNcsiPassthroughFrame data s) := by
  unfold execNcsiPassthroughFrame
  with_reducible repeat' first | assumption | intro _ | apply goodT_next | apply goodT_ite | apply goodP_ite | apply good_ite | apply good_id | apply good_foldl | apply good_mapGetD | apply good_mgmtTx | fail_if_no_progress apply good_upd | simp only [goodP_iff] | dsimp only | split

theorem good_execPortReset {q : List Instr} (fn : Nat) (port : Nat) (v : Nat) (s : State) (hs : Good q s) : GoodT q (execPortReset fn port v s) := by
  unfold execPortReset
  with_reducible repeat' first | assumption | intro _ | apply goodT_next | apply goodT_ite | apply goodP_ite | apply good_ite | apply good_id | apply good_foldl | apply good_mapGetD | apply good_asManager | apply good_prtCtrlWrite | fail_if_no_progress apply good_upd | simp only [goodP_iff] | dsimp only | split

theorem good_execPrtPauseStorm {q : List Instr} (port : Nat) (c : Nat) (s : State) (hs : Good q s) : GoodT q (execPrtPauseStorm port c s) := by
  unfold execPrtPauseStorm
  with_reducible repeat' first | assumption | intro _ | apply goodT_next | apply goodT_ite | apply goodP_ite | apply good_ite | apply good_id | apply good_foldl | apply good_mapGetD | apply good_raise | apply good_endHolds | apply good_wr | fail_if_no_progress apply good_upd | simp only [goodP_iff] | dsimp only | split

theorem good_mgmtLink {q : List Instr} (s : State) (up : Nat) (hs : Good q s) : Good q (State.mgmtLink s up) := by
  unfold State.mgmtLink
  with_reducible repeat' first | assumption | intro _ | apply good_ite | apply good_id | apply good_foldl | apply good_mapGetD | apply good_when | apply good_wr | apply good_send | fail_if_no_progress apply good_upd | dsimp only | split

theorem good_execMgmtLinkUp {q : List Instr} (speed : Nat) (s : State) (hs : Good q s) : GoodT q (execMgmtLinkUp speed s) := by
  unfold execMgmtLinkUp
  with_reducible repeat' first | assumption | intro _ | apply goodT_next | apply goodT_ite | apply goodP_ite | apply good_ite | apply good_id | apply good_foldl | apply good_mapGetD | apply good_raise | apply good_mgmtLink | apply good_wr | fail_if_no_progress apply good_upd | simp only [goodP_iff] | dsimp only | split

theorem good_windowEnd {q : List Instr} (s : State) (src : Nat) (len : Nat) (limit : Nat) (passed : State → State) (hs : Good q s) (hpassed : ∀ a, Good q a → Good q (passed a)) : Good q (State.windowEnd s src len limit passed) := by
  unfold State.windowEnd
  with_reducible repeat' first | assumption | intro _ | apply good_ite | apply good_id | apply good_foldl | apply good_mapGetD | apply good_when | apply hpassed | fail_if_no_progress apply good_upd | dsimp only | split

theorem good_execPrtFecDegraded {q : List Instr} (port : Nat) (s : State) (hs : Good q s) : GoodT q (execPrtFecDegraded port s) := by
  unfold execPrtFecDegraded
  with_reducible repeat' first | assumption | intro _ | apply goodT_next | apply goodT_ite | apply goodP_ite | apply good_ite | apply good_id | apply good_foldl | apply good_mapGetD | apply good_windowEnd | apply good_raise | fail_if_no_progress apply good_upd | simp only [goodP_iff] | dsimp only | split

theorem good_execFcHoldExpire {q : List Instr} (port : Nat) (c : Nat) (s : State) (hs : Good q s) : GoodT q (execFcHoldExpire port c s) := by
  unfold execFcHoldExpire
  with_reducible repeat' first | assumption | intro _ | apply goodT_next | apply goodT_ite | apply goodP_ite | apply good_ite | apply good_id | apply good_foldl | apply good_mapGetD | apply good_endHold | fail_if_no_progress apply good_upd | simp only [goodP_iff] | dsimp only | split

theorem good_lanePower {q : List Instr} (s : State) (g : Nat) (hs : Good q s) : Good q (State.lanePower s g) := by
  unfold State.lanePower
  with_reducible repeat' first | assumption | intro _ | apply good_ite | apply good_id | apply good_foldl | apply good_mapGetD | apply good_each | apply good_domainOn | apply good_domainOff | fail_if_no_progress apply good_upd | dsimp only | split

theorem good_applyPort {q : List Instr} (s : State) (n : Nat) (hs : Good q s) : Good q (State.applyPort s n) := by
  unfold State.applyPort
  with_reducible repeat' first | assumption | intro _ | apply good_ite | apply good_id | apply good_foldl | apply good_mapGetD | apply good_raise | apply good_wr | apply good_portDown | fail_if_no_progress apply good_upd | dsimp only | split

theorem good_groupApply {q : List Instr} (s : State) (g : Nat) (hs : Good q s) : Good q (State.groupApply s g) := by
  unfold State.groupApply
  with_reducible repeat' first | assumption | intro _ | apply good_ite | apply good_id | apply good_foldl | apply good_mapGetD | apply good_wr | apply good_lanePower | apply good_each | apply good_applyPort | fail_if_no_progress apply good_upd | dsimp only | split

theorem good_macControl {q : List Instr} (s : State) (port : Nat) (f : Bytes) (hs : Good q s) : Good q (State.macControl s port f) := by
  unfold State.macControl
  with_reducible repeat' first | assumption | intro _ | apply good_ite | apply good_id | apply good_foldl | apply good_mapGetD | apply good_rxPause | apply good_rxPfc | apply good_count | fail_if_no_progress apply good_upd | dsimp only | split

theorem good_execPreemptResponseRx {q : List Instr} (port : Nat) (s : State) (hs : Good q s) : GoodT q (execPreemptResponseRx port s) := by
  unfold execPreemptResponseRx
  with_reducible repeat' first | assumption | intro _ | apply goodT_next | apply goodT_ite | apply goodP_ite | apply good_ite | apply good_id | apply good_foldl | apply good_mapGetD | apply good_wr | fail_if_no_progress apply good_upd | simp only [goodP_iff] | dsimp only | split

theorem good_execPrtLocalFault {q : List Instr} (port : Nat) (s : State) (hs : Good q s) : GoodT q (execPrtLocalFault port s) := by
  unfold execPrtLocalFault
  with_reducible repeat' first | assumption | intro _ | apply goodT_next | apply goodT_ite | apply goodP_ite | apply good_ite | apply good_id | apply good_foldl | apply good_mapGetD | apply good_send | apply good_raise | apply good_wr | fail_if_no_progress apply good_upd | simp only [goodP_iff] | dsimp only | split

theorem good_execPrtLocalFaultEnd {q : List Instr} (port : Nat) (s : State) (hs : Good q s) : GoodT q (execPrtLocalFaultEnd port s) := by
  unfold execPrtLocalFaultEnd
  with_reducible repeat' first | assumption | intro _ | apply goodT_next | apply goodT_ite | apply goodP_ite | apply good_ite | apply good_id | apply good_foldl | apply good_mapGetD | apply good_wr | fail_if_no_progress apply good_upd | simp only [goodP_iff] | dsimp only | split

theorem good_execPrtRemoteFaultEnd {q : List Instr} (port : Nat) (s : State) (hs : Good q s) : GoodT q (execPrtRemoteFaultEnd port s) := by
  unfold execPrtRemoteFaultEnd
  with_reducible repeat' first | assumption | intro _ | apply goodT_next | apply goodT_ite | apply goodP_ite | apply good_ite | apply good_id | apply good_foldl | apply good_mapGetD | apply good_wr | fail_if_no_progress apply good_upd | simp only [goodP_iff] | dsimp only | split

theorem good_settleCal {q : List Instr} (s : State) (n : Nat) (hs : Good q s) : Good q (State.settleCal s n) := by
  unfold State.settleCal
  with_reducible repeat' first | assumption | intro _ | apply good_ite | apply good_id | apply good_foldl | apply good_mapGetD | apply good_wr | apply good_raise | fail_if_no_progress apply good_upd | dsimp only | split

theorem good_execPrtLinkUp {q : List Instr} (port : Nat) (maxSkew : Nat) (refWait : Nat) (s : State) (hs : Good q s) : GoodT q (execPrtLinkUp port maxSkew refWait s) := by
  unfold execPrtLinkUp
  with_reducible repeat' first | assumption | intro _ | apply goodT_next | apply goodT_ite | apply goodP_ite | apply good_ite | apply good_id | apply good_foldl | apply good_mapGetD | apply good_wr | apply good_settleCal | apply good_raise | fail_if_no_progress apply good_upd | simp only [goodP_iff] | dsimp only | split

theorem good_countRxOk {q : List Instr} (s : State) (port : Nat) (dst : Nat) (len : Nat) (hs : Good q s) : Good q (State.countRxOk s port dst len) := by
  unfold State.countRxOk
  with_reducible repeat' first | assumption | intro _ | apply good_ite | apply good_id | apply good_foldl | apply good_mapGetD | apply good_countBy | apply good_count | apply good_when | fail_if_no_progress apply good_upd | dsimp only | split

theorem good_countRxGood {q : List Instr} (s : State) (port : Nat) (f : Bytes) (hs : Good q s) : Good q (State.countRxGood s port f) := by
  unfold State.countRxGood
  with_reducible repeat' first | assumption | intro _ | apply good_ite | apply good_id | apply good_foldl | apply good_mapGetD | apply good_count | apply good_countRxOk | fail_if_no_progress apply good_upd | dsimp only | split

theorem good_mgmtRx {q : List Instr} (s : State) (data : Bytes) (good : Bool) (hs : Good q s) : Good q (State.mgmtRx s data good) := by
  unfold State.mgmtRx
  with_reducible repeat' first | assumption | intro _ | apply good_ite | apply good_id | apply good_foldl | apply good_mapGetD | apply good_countRxAll | apply good_count | apply good_countRxGood | apply good_macControl | apply good_send | apply good_addPkt | fail_if_no_progress apply good_upd | dsimp only | split

theorem good_foldCounters {q : List Instr} (s : State) (port : Nat) (hs : Good q s) : Good q (State.foldCounters s port) := by
  unfold State.foldCounters
  with_reducible repeat' first | assumption | intro _ | apply good_ite | apply good_id | apply good_foldl | apply good_mapGetD | apply good_each | apply good_pausedSync | apply good_put | apply good_add | fail_if_no_progress apply good_upd | dsimp only | split

theorem good_ncsiReport {q : List Instr} (s : State) (a1 : NcSiCmd) (hs : Good q s) : GoodP q (State.ncsiReport s a1) := by
  unfold State.ncsiReport
  with_reducible repeat' first | assumption | intro _ | apply goodP_ite | apply good_ite | apply good_id | apply good_foldl | apply good_mapGetD | apply good_foldCounters | apply good_used | fail_if_no_progress apply good_upd | simp only [goodP_iff] | dsimp only | split

theorem good_ownerWrite {q : List Instr} (s : State) (v : Nat) (hs : Good q s) : Good q (State.ownerWrite s v) := by
  unfold State.ownerWrite
  with_reducible repeat' first | assumption | intro _ | apply good_ite | apply good_id | apply good_foldl | apply good_mapGetD | apply good_logFwWrite | apply good_each | apply good_wr | apply good_journalCfg | fail_if_no_progress apply good_upd | dsimp only | split

theorem good_execMgmtLinkDown {q : List Instr} (s : State) (hs : Good q s) : GoodT q (execMgmtLinkDown s) := by
  unfold execMgmtLinkDown
  with_reducible repeat' first | assumption | intro _ | apply goodT_next | apply goodT_ite | apply goodP_ite | apply good_ite | apply good_id | apply good_foldl | apply good_mapGetD | apply good_raise | apply good_mgmtLink | fail_if_no_progress apply good_upd | simp only [goodP_iff] | dsimp only | split

theorem good_execXoffRefresh {q : List Instr} (port : Nat) (c : Nat) (s : State) (hs : Good q s) : GoodT q (execXoffRefresh port c s) := by
  unfold execXoffRefresh
  with_reducible repeat' first | assumption | intro _ | apply goodT_next | apply goodT_ite | apply goodP_ite | apply good_ite | apply good_id | apply good_foldl | apply good_mapGetD | apply good_sendFc | fail_if_no_progress apply good_upd | simp only [goodP_iff] | dsimp only | split

theorem good_execCounterOwnerCommit {q : List Instr} (fn : Nat) (v : Nat) (s : State) (hs : Good q s) : GoodT q (execCounterOwnerCommit fn v s) := by
  unfold execCounterOwnerCommit
  with_reducible repeat' first | assumption | intro _ | apply goodT_next | apply goodT_ite | apply goodP_ite | apply good_ite | apply good_id | apply good_foldl | apply good_mapGetD | apply good_asManager | apply good_ownerWrite | fail_if_no_progress apply good_upd | simp only [goodP_iff] | dsimp only | split

theorem good_execPrtGroupApply {q : List Instr} (fn : Nat) (group : Nat) (s : State) (hs : Good q s) : GoodT q (execPrtGroupApply fn group s) := by
  unfold execPrtGroupApply
  with_reducible repeat' first | assumption | intro _ | apply goodT_next | apply goodT_ite | apply goodP_ite | apply good_ite | apply good_id | apply good_foldl | apply good_mapGetD | apply good_asManager | apply good_groupApply | fail_if_no_progress apply good_upd | simp only [goodP_iff] | dsimp only | split

theorem good_execPreemptVerifyFrame {q : List Instr} (port : Nat) (s : State) (hs : Good q s) : GoodT q (execPreemptVerifyFrame port s) := by
  unfold execPreemptVerifyFrame
  with_reducible repeat' first | assumption | intro _ | apply goodT_next | apply goodT_ite | apply goodP_ite | apply good_ite | apply good_id | apply good_foldl | apply good_mapGetD | apply good_sendVerify | apply good_raise | apply good_wr | fail_if_no_progress apply good_upd | simp only [goodP_iff] | dsimp only | split

theorem good_execStormClear {q : List Instr} (fn : Nat) (port : Nat) (v : Nat) (s : State) (hs : Good q s) : GoodT q (execStormClear fn port v s) := by
  unfold execStormClear
  with_reducible repeat' first | assumption | intro _ | apply goodT_next | apply goodT_ite | apply goodP_ite | apply good_ite | apply good_id | apply good_foldl | apply good_mapGetD | apply good_asManager | apply good_prtCtrlWrite | fail_if_no_progress apply good_upd | simp only [goodP_iff] | dsimp only | split

theorem good_execMgmtFrameRx {q : List Instr} (data : Bytes) (good : Bool) (s : State) (hs : Good q s) : GoodT q (execMgmtFrameRx data good s) := by
  unfold execMgmtFrameRx
  with_reducible repeat' first | assumption | intro _ | apply goodT_next | apply goodT_ite | apply goodP_ite | apply good_ite | apply good_id | apply good_foldl | apply good_mapGetD | apply good_mgmtRx | fail_if_no_progress apply good_upd | simp only [goodP_iff] | dsimp only | split

theorem good_execPrtLinkDown {q : List Instr} (port : Nat) (s : State) (hs : Good q s) : GoodT q (execPrtLinkDown port s) := by
  unfold execPrtLinkDown
  with_reducible repeat' first | assumption | intro _ | apply goodT_next | apply goodT_ite | apply goodP_ite | apply good_ite | apply good_id | apply good_foldl | apply good_mapGetD | apply good_linkFalls | fail_if_no_progress apply good_upd | simp only [goodP_iff] | dsimp only | split

theorem good_execNcsiCommand {q : List Instr} (cmd : NcSiCmd) (s : State) (hs : Good q s) : GoodT q (execNcsiCommand cmd s) := by
  unfold execNcsiCommand
  with_reducible repeat' first | assumption | intro _ | apply goodT_next | apply goodT_ite | apply goodP_ite | apply good_ite | apply good_id | apply good_foldl | apply good_mapGetD | apply good_send | apply good_ncsiReport | fail_if_no_progress apply good_upd | simp only [goodP_iff] | apply goodP_fst | (apply goodP_elim; assumption) | dsimp only | split

theorem good_execPrtRemoteFault {q : List Instr} (port : Nat) (s : State) (hs : Good q s) : GoodT q (execPrtRemoteFault port s) := by
  unfold execPrtRemoteFault
  with_reducible repeat' first | assumption | intro _ | apply goodT_next | apply goodT_ite | apply goodP_ite | apply good_ite | apply good_id | apply good_foldl | apply good_mapGetD | apply good_raise | apply good_wr | fail_if_no_progress apply good_upd | simp only [goodP_iff] | dsimp only | split

end Sys2Proof.Machine
end

