-- ==== Sys2Proof/Laws/KeepsMirror.lean ====
section
/-! SUPPORT. The operations of Mirror.lean keep the queue and the invariant. -/

set_option linter.unusedTactic false
set_option linter.unreachableTactic false
set_option linter.unusedSimpArgs false
set_option linter.unusedVariables false

namespace Sys2Proof.Machine

theorem good_mirrorSend {q : List Instr} (s : State) (kind : Nat) (payload : Bytes) (hs : Good q s) : Good q (State.mirrorSend s kind payload) := by
  unfold State.mirrorSend
  with_reducible repeat' first | assumption | intro _ | apply good_ite | apply good_id | apply good_foldl | apply good_mapGetD | apply good_raiseMs | apply good_addPkt | fail_if_no_progress apply good_upd | dsimp only | split

end Sys2Proof.Machine
end

