-- ==== Sys2Proof/Laws/KeepsTables.lean ====
section
/-! SUPPORT. The operations of Tables.lean keep the queue and the invariant. -/

set_option linter.unusedTactic false
set_option linter.unreachableTactic false
set_option linter.unusedSimpArgs false
set_option linter.unusedVariables false

namespace Sys2Proof.Machine

theorem good_toDispatch {q : List Instr} (s : State) (h : Nat) (hs : Good q s) : Good q (State.toDispatch s h) := by
  unfold State.toDispatch
  with_reducible repeat' first | assumption | intro _ | apply good_ite | apply good_id | apply good_foldl | apply good_mapGetD | apply good_moveTo | fail_if_no_progress apply good_upd | dsimp only | split

theorem good_l2ReadCmd {q : List Instr} (s : State) (v : Nat) (hs : Good q s) : Good q (State.l2ReadCmd s v) := by
  unfold State.l2ReadCmd
  with_reducible repeat' first | assumption | intro _ | apply good_ite | apply good_id | apply good_foldl | apply good_mapGetD | apply good_wr | apply good_each | apply good_put | fail_if_no_progress apply good_upd | dsimp only | split

theorem good_execL2ReadCmd {q : List Instr} (fn : Nat) (v : Nat) (s : State) (hs : Good q s) : GoodT q (execL2ReadCmd fn v s) := by
  unfold execL2ReadCmd
  with_reducible repeat' first | assumption | intro _ | apply goodT_next | apply goodT_ite | apply goodP_ite | apply good_ite | apply good_id | apply good_foldl | apply good_mapGetD | apply good_asManager | apply good_l2ReadCmd | fail_if_no_progress apply good_upd | simp only [goodP_iff] | dsimp only | split

theorem good_flowUncache {q : List Instr} (s : State) (key : Bytes) (hs : Good q s) : Good q (State.flowUncache s key) := by
  unfold State.flowUncache
  with_reducible repeat' first | assumption | intro _ | apply good_ite | apply good_id | apply good_foldl | apply good_mapGetD | fail_if_no_progress apply good_upd | dsimp only | split

theorem good_newPass {q : List Instr} (s : State) (k : Nat) (start : Nat) (ageS : Nat) (hs : Good q s) : Good q (State.newPass s k start ageS) := by
  unfold State.newPass
  with_reducible repeat' first | assumption | intro _ | apply good_ite | apply good_id | apply good_foldl | apply good_mapGetD | fail_if_no_progress apply good_upd | dsimp only | split

theorem good_ageEn {q : List Instr} (s : State) (k : Nat) (en : Bool) (ageS : Nat) (hs : Good q s) : Good q (State.ageEn s k en ageS) := by
  unfold State.ageEn
  with_reducible repeat' first | assumption | intro _ | apply good_ite | apply good_id | apply good_foldl | apply good_mapGetD | apply good_newPass | fail_if_no_progress apply good_upd | dsimp only | split

theorem good_l2CfgWrite {q : List Instr} (s : State) (p : Nat) (v : Nat) (hs : Good q s) : Good q (State.l2CfgWrite s p v) := by
  unfold State.l2CfgWrite
  with_reducible repeat' first | assumption | intro _ | apply good_ite | apply good_id | apply good_foldl | apply good_mapGetD | apply good_wrLegal | apply good_wr | apply good_ageEn | fail_if_no_progress apply good_upd | dsimp only | split

theorem good_execTblL2AgeEnWrite {q : List Instr} (fn : Nat) (pipe : Nat) (v : Nat) (s : State) (hs : Good q s) : GoodT q (execTblL2AgeEnWrite fn pipe v s) := by
  unfold execTblL2AgeEnWrite
  with_reducible repeat' first | assumption | intro _ | apply goodT_next | apply goodT_ite | apply goodP_ite | apply good_ite | apply good_id | apply good_foldl | apply good_mapGetD | apply good_asManager | apply good_l2CfgWrite | fail_if_no_progress apply good_upd | simp only [goodP_iff] | dsimp only | split

theorem good_flowCfgWrite {q : List Instr} (s : State) (v : Nat) (hs : Good q s) : Good q (State.flowCfgWrite s v) := by
  unfold State.flowCfgWrite
  with_reducible repeat' first | assumption | intro _ | apply good_ite | apply good_id | apply good_foldl | apply good_mapGetD | apply good_wrLegal | apply good_wr | apply good_ageEn | fail_if_no_progress apply good_upd | dsimp only | split

theorem good_flowShift {q : List Instr} (s : State) (half : Nat) (l : List Nat) (hs : Good q s) : Good q (s.flowShift half l) := by
  induction l generalizing s with
  | nil => exact hs
  | cons a r ih =>
    cases r with
    | nil => exact hs
    | cons b r => exact ih _ (good_upd hs)

theorem good_flowTouch {q : List Instr} (s : State) (key : Bytes) (hbm : FlowEntry) (hs : Good q s) : Good q (State.flowTouch s key hbm) := by
  unfold State.flowTouch
  with_reducible repeat' first | assumption | intro _ | apply good_ite | apply good_id | apply good_foldl | apply good_mapGetD | fail_if_no_progress apply good_upd | dsimp only | split

theorem good_resyncDue {q : List Instr} (s : State) (hs : Good q s) : Good q (State.resyncDue s) := by
  unfold State.resyncDue
  with_reducible repeat' first | assumption | intro _ | apply good_ite | apply good_id | apply good_foldl | apply good_mapGetD | apply good_each | apply good_when | apply good_mirrorSend | fail_if_no_progress apply good_upd | dsimp only | split

theorem good_mirrorFlow {q : List Instr} (s : State) (op : Nat) (body : Bytes) (hs : Good q s) : Good q (State.mirrorFlow s op body) := by
  unfold State.mirrorFlow
  with_reducible repeat' first | assumption | intro _ | apply good_ite | apply good_id | apply good_foldl | apply good_mapGetD | apply good_when | apply good_mirrorSend | apply good_resyncDue | fail_if_no_progress apply good_upd | dsimp only | split

theorem good_flowRemove {q : List Instr} (s : State) (half : Nat) (l : Nat) (hs : Good q s) : Good q (State.flowRemove s half l) := by
  unfold State.flowRemove
  with_reducible repeat' first | assumption | intro _ | apply good_ite | apply good_id | apply good_foldl | apply good_mapGetD | apply good_flowUncache | apply good_wr | apply good_when | apply good_mirrorFlow | fail_if_no_progress apply good_upd | dsimp only | split

theorem good_flowVisit {q : List Instr} (s : State) (half : Nat) (l : Nat) (hs : Good q s) : Good q (State.flowVisit s half l) := by
  unfold State.flowVisit
  with_reducible repeat' first | assumption | intro _ | apply good_ite | apply good_id | apply good_foldl | apply good_mapGetD | apply good_flowRemove | fail_if_no_progress apply good_upd | dsimp only | split

theorem good_visited {q : List Instr} (s : State) (k : Nat) (i : Nat) (hs : Good q s) : Good q (State.visited s k i) := by
  unfold State.visited
  with_reducible repeat' first | assumption | intro _ | apply good_ite | apply good_id | apply good_foldl | apply good_mapGetD | fail_if_no_progress apply good_upd | dsimp only | split

theorem good_execFlowAgeVisit {q : List Instr} (half : Nat) (loc : Nat) (s : State) (hs : Good q s) : GoodT q (execFlowAgeVisit half loc s) := by
  unfold execFlowAgeVisit
  with_reducible repeat' first | assumption | intro _ | apply goodT_next | apply goodT_ite | apply goodP_ite | apply good_ite | apply good_id | apply good_foldl | apply good_mapGetD | apply good_visited | apply good_flowVisit | fail_if_no_progress apply good_upd | simp only [goodP_iff] | dsimp only | split

theorem good_l2Write {q : List Instr} (s : State) (p : Nat) (i : Nat) (e : L2Entry) (hs : Good q s) : Good q (State.l2Write s p i e) := by
  unfold State.l2Write
  with_reducible repeat' first | assumption | intro _ | apply good_ite | apply good_id | apply good_foldl | apply good_mapGetD | apply good_when | apply good_wr | fail_if_no_progress apply good_upd | dsimp only | split

theorem good_flowLoad {q : List Instr} (s : State) (half : Nat) (used : Nat) (hs : Good q s) : Good q (State.flowLoad s half used) := by
  unfold State.flowLoad
  with_reducible repeat' first | assumption | intro _ | apply good_ite | apply good_id | apply good_foldl | apply good_mapGetD | apply good_wr | apply good_when | apply good_raiseLimited | fail_if_no_progress apply good_upd | dsimp only | split

theorem good_l2Excess {q : List Instr} (s : State) (p : Nat) (port : Nat) (hs : Good q s) : GoodP q (State.l2Excess s p port) := by
  unfold State.l2Excess
  with_reducible repeat' first | assumption | intro _ | apply goodP_ite | apply good_ite | apply good_id | apply good_foldl | apply good_mapGetD | apply good_count | apply good_raiseLimited | fail_if_no_progress apply good_upd | simp only [goodP_iff] | dsimp only | split

theorem good_lpmFollow {q : List Instr} (s : State) (v6 : Bool) (addr : Nat) (plen : Nat) (hs : Good q s) : Good q (State.lpmFollow s v6 addr plen) := by
  unfold State.lpmFollow
  with_reducible repeat' first | assumption | intro _ | apply good_ite | apply good_id | apply good_foldl | apply good_mapGetD | apply good_wr | fail_if_no_progress apply good_upd | dsimp only | split

theorem good_tableError {q : List Instr} (s : State) (table : Nat) (pipe : Nat) (key : List Nat) (hs : Good q s) : GoodP q (State.tableError s table pipe key) := by
  unfold State.tableError
  with_reducible repeat' first | assumption | intro _ | apply goodP_ite | apply good_ite | apply good_id | apply good_foldl | apply good_mapGetD | apply good_l2Write | apply good_used | apply good_when | apply good_countError | apply good_raise | fail_if_no_progress apply good_upd | simp only [goodP_iff] | dsimp only | split

theorem good_flowDelete {q : List Instr} (s : State) (key : Bytes) (hs : Good q s) : GoodP q (State.flowDelete s key) := by
  unfold State.flowDelete
  with_reducible repeat' first | assumption | intro _ | apply goodP_ite | apply good_ite | apply good_id | apply good_foldl | apply good_mapGetD | apply good_flowRemove | fail_if_no_progress apply good_upd | simp only [goodP_iff] | dsimp only | split

theorem good_l2Hit {q : List Instr} (s : State) (p : Nat) (i : Nat) (hs : Good q s) : Good q (State.l2Hit s p i) := by
  unfold State.l2Hit
  with_reducible repeat' first | assumption | intro _ | apply good_ite | apply good_id | apply good_foldl | apply good_mapGetD | fail_if_no_progress apply good_upd | dsimp only | split

theorem good_lookup {q : List Instr} (s : State) (table : Nat) (pipe : Nat) (key : List Nat) (hs : Good q s) : GoodP q (State.lookup s table pipe key) := by
  unfold State.lookup
  with_reducible repeat' first | assumption | intro _ | apply goodP_ite | apply good_ite | apply good_id | apply good_foldl | apply good_mapGetD | apply good_l2Hit | apply good_flowTouch | fail_if_no_progress apply good_upd | simp only [goodP_iff] | dsimp only | split

theorem good_l2Learn {q : List Instr} (s : State) (p : Nat) (port : Nat) (mac : Nat) (tag : Nat) (vni : Bool) (hs : Good q s) : GoodP q (State.l2Learn s p port mac tag vni) := by
  unfold State.l2Learn
  with_reducible repeat' first | assumption | intro _ | apply goodP_ite | apply good_ite | apply good_id | apply good_foldl | apply good_mapGetD | apply good_count | apply good_l2Excess | apply good_raiseLimited | apply good_l2Write | fail_if_no_progress apply good_upd | simp only [goodP_iff] | apply goodP_fst | (apply goodP_elim; assumption) | dsimp only | split

theorem good_l2Source {q : List Instr} (s : State) (p : Nat) (port : Nat) (mac : Nat) (tag : Nat) (vni : Bool) (hs : Good q s) : GoodP q (State.l2Source s p port mac tag vni) := by
  unfold State.l2Source
  with_reducible repeat' first | assumption | intro _ | apply goodP_ite | apply good_ite | apply good_id | apply good_foldl | apply good_mapGetD | apply good_l2Learn | apply good_l2Hit | apply good_raiseLimited | apply good_count | apply good_l2Excess | apply good_l2Write | fail_if_no_progress apply good_upd | simp only [goodP_iff] | apply goodP_fst | (apply goodP_elim; assumption) | dsimp only | split

theorem good_execL2SourceCheck {q : List Instr} (h : Nat) (s : State) (hs : Good q s) : GoodT q (execL2SourceCheck h s) := by
  unfold execL2SourceCheck
  with_reducible repeat' first | assumption | intro _ | apply goodT_next | apply goodT_ite | apply goodP_ite | apply good_ite | apply good_id | apply good_foldl | apply good_mapGetD | apply good_l2Source | apply good_dropPkt | apply good_toDispatch | apply good_setPkt | fail_if_no_progress apply good_upd | simp only [goodP_iff] | apply goodP_fst | (apply goodP_elim; assumption) | dsimp only | split

theorem good_nextPass {q : List Instr} (s : State) (k : Nat) (ageS : Nat) (hs : Good q s) : Good q (State.nextPass s k ageS) := by
  unfold State.nextPass
  with_reducible repeat' first | assumption | intro _ | apply good_ite | apply good_id | apply good_foldl | apply good_mapGetD | apply good_newPass | fail_if_no_progress apply good_upd | dsimp only | split

theorem good_execL2AgePassStart {q : List Instr} (pipe : Nat) (s : State) (hs : Good q s) : GoodT q (execL2AgePassStart pipe s) := by
  unfold execL2AgePassStart
  with_reducible repeat' first | assumption | intro _ | apply goodT_next | apply goodT_ite | apply goodP_ite | apply good_ite | apply good_id | apply good_foldl | apply good_mapGetD | apply good_nextPass | fail_if_no_progress apply good_upd | simp only [goodP_iff] | dsimp only | split

theorem good_l2Visit {q : List Instr} (s : State) (p : Nat) (i : Nat) (hs : Good q s) : Good q (State.l2Visit s p i) := by
  unfold State.l2Visit
  with_reducible repeat' first | assumption | intro _ | apply good_ite | apply good_id | apply good_foldl | apply good_mapGetD | apply good_l2Write | apply good_count | fail_if_no_progress apply good_upd | dsimp only | split

theorem good_execFlowAgePassStart {q : List Instr} (half : Nat) (s : State) (hs : Good q s) : GoodT q (execFlowAgePassStart half s) := by
  unfold execFlowAgePassStart
  with_reducible repeat' first | assumption | intro _ | apply goodT_next | apply goodT_ite | apply goodP_ite | apply good_ite | apply good_id | apply good_foldl | apply good_mapGetD | apply good_nextPass | fail_if_no_progress apply good_upd | simp only [goodP_iff] | dsimp only | split

theorem good_execL2AgeVisit {q : List Instr} (pipe : Nat) (entry : Nat) (s : State) (hs : Good q s) : GoodT q (execL2AgeVisit pipe entry s) := by
  unfold execL2AgeVisit
  with_reducible repeat' first | assumption | intro _ | apply goodT_next | apply goodT_ite | apply goodP_ite | apply good_ite | apply good_id | apply good_foldl | apply good_mapGetD | apply good_visited | apply good_l2Visit | fail_if_no_progress apply good_upd | simp only [goodP_iff] | dsimp only | split

theorem good_flowInsert {q : List Instr} (s : State) (key : Bytes) (result : Bytes) (static : Bool) (mirror : Bool) (replace : Bool) (hs : Good q s) : GoodP q (State.flowInsert s key result static mirror replace) := by
  unfold State.flowInsert
  with_reducible repeat' first | assumption | intro _ | apply goodP_ite | apply good_ite | apply good_id | apply good_foldl | apply good_mapGetD | apply good_flowTouch | apply good_when | apply good_mirrorFlow | apply good_raiseMs | apply good_flowShift | apply good_flowLoad | fail_if_no_progress apply good_upd | simp only [goodP_iff] | dsimp only | split

end Sys2Proof.Machine
end

