-- ==== Sys2Proof/Laws/KeepsGrinder.lean ====
section
/-! SUPPORT. The operations of Grinder.lean keep the queue and the invariant. -/

set_option linter.unusedTactic false
set_option linter.unreachableTactic false
set_option linter.unusedSimpArgs false
set_option linter.unusedVariables false

namespace Sys2Proof.Machine

theorem good_parseTaken {q : List Instr} (s : State) (pipe : Nat) (hs : Good q s) : Good q (State.parseTaken s pipe) := by
  unfold State.parseTaken
  with_reducible repeat' first | assumption | intro _ | apply good_ite | apply good_id | apply good_foldl | apply good_mapGetD | apply good_retire | apply good_when | fail_if_no_progress apply good_upd | dsimp only | split

theorem good_execGrinderParse {q : List Instr} (h : Nat) (s : State) (hs : Good q s) : GoodT q (execGrinderParse h s) := by
  unfold execGrinderParse
  with_reducible repeat' first | assumption | intro _ | apply goodT_next | apply goodT_ite | apply goodP_ite | apply good_ite | apply good_id | apply good_foldl | apply good_mapGetD | apply good_parseTaken | apply good_count | apply good_when | apply good_raiseLimited | apply good_setPkt | apply good_moveTo | apply good_toDispatch | fail_if_no_progress apply good_upd | simp only [goodP_iff] | dsimp only | split

end Sys2Proof.Machine
end

