-- ==== Sys2Proof/Laws/KeepsOperands.lean ====
section
/-! SUPPORT. The operations of Operands.lean keep the queue and the invariant. -/

set_option linter.unusedTactic false
set_option linter.unreachableTactic false
set_option linter.unusedSimpArgs false
set_option linter.unusedVariables false

namespace Sys2Proof.Machine

theorem good_modThread {q : List Instr} (s : State) (t : Nat) (g : Thread → Thread) (hs : Good q s) : Good q (State.modThread s t g) := by
  unfold State.modThread
  with_reducible repeat' first | assumption | intro _ | apply good_ite | apply good_id | apply good_foldl | apply good_mapGetD | fail_if_no_progress apply good_upd | dsimp only | split

theorem good_latch {q : List Instr} (s : State) (t : Nat) (k : Nat) (hs : Good q s) : Good q (State.latch s t k) := by
  unfold State.latch
  with_reducible repeat' first | assumption | intro _ | apply good_ite | apply good_id | apply good_foldl | apply good_mapGetD | apply good_modThread | fail_if_no_progress apply good_upd | dsimp only | split

theorem good_signalOp {q : List Instr} (s : State) (t : Nat) (v : Nat) (hs : Good q s) : Good q (State.signalOp s t v) := by
  unfold State.signalOp
  with_reducible repeat' first | assumption | intro _ | apply good_ite | apply good_id | apply good_foldl | apply good_mapGetD | apply good_latch | fail_if_no_progress apply good_upd | dsimp only | split

theorem good_eventClr {q : List Instr} (s : State) (t : Nat) (v : Nat) (hs : Good q s) : Good q (State.eventClr s t v) := by
  unfold State.eventClr
  with_reducible repeat' first | assumption | intro _ | apply good_ite | apply good_id | apply good_foldl | apply good_mapGetD | apply good_modThread | fail_if_no_progress apply good_upd | dsimp only | split

theorem good_writeOp {q : List Instr} (s : State) (t : Nat) (op : Nat) (v : Nat) (hs : Good q s) : Good q (State.writeOp s t op v) := by
  unfold State.writeOp
  with_reducible repeat' first | assumption | intro _ | apply good_ite | apply good_id | apply good_foldl | apply good_mapGetD | apply good_modThread | fail_if_no_progress apply good_upd | dsimp only | split

theorem good_popInbox {q : List Instr} (s : State) (t : Nat) (hs : Good q s) : Good q (State.popInbox s t) := by
  unfold State.popInbox
  with_reducible repeat' first | assumption | intro _ | apply good_ite | apply good_id | apply good_foldl | apply good_mapGetD | apply good_modThread | fail_if_no_progress apply good_upd | dsimp only | split

theorem good_specials {q : List Instr} (s : State) (t : Nat) (ws : List (Nat × Nat)) (hs : Good q s) : Good q (State.specials s t ws) := by
  unfold State.specials
  with_reducible repeat' first | assumption | intro _ | apply good_ite | apply good_id | apply good_foldl | apply good_mapGetD | apply good_when | apply good_popInbox | apply good_eventClr | apply good_signalOp | fail_if_no_progress apply good_upd | dsimp only | split

end Sys2Proof.Machine
end

