-- ==== Sys2Proof/Laws/KeepsMicro.lean ====
section
/-! SUPPORT. The operations of Micro.lean keep the queue and the invariant. -/

set_option linter.unusedTactic false
set_option linter.unreachableTactic false
set_option linter.unusedSimpArgs false
set_option linter.unusedVariables false

namespace Sys2Proof.Machine

theorem good_execThreadTimerFire {q : List Instr} (t : Nat) (s : State) (hs : Good q s) : GoodT q (execThreadTimerFire t s) := by
  unfold execThreadTimerFire
  with_reducible repeat' first | assumption | intro _ | apply goodT_next | apply goodT_ite | apply goodP_ite | apply good_ite | apply good_id | apply good_foldl | apply good_mapGetD | apply good_latch | apply good_modThread | fail_if_no_progress apply good_upd | simp only [goodP_iff] | dsimp only | split

theorem good_learnStatus {q : List Instr} (s : State) (t : Nat) (mac : Nat) (tag : Nat) (vni : Bool) (hs : Good q s) : GoodP q (State.learnStatus s t mac tag vni) := by
  unfold State.learnStatus
  with_reducible repeat' first | assumption | intro _ | apply goodP_ite | apply good_ite | apply good_id | apply good_foldl | apply good_mapGetD | apply good_l2Source | apply good_setPkt | fail_if_no_progress apply good_upd | simp only [goodP_iff] | apply goodP_fst | (apply goodP_elim; assumption) | dsimp only | split

theorem good_tblDo {q : List Instr} (s : State) (t : Nat) (op : Nat) (f : TblArgs) (key : List Nat) (hs : Good q s) : GoodP q (State.tblDo s t op f key) := by
  unfold State.tblDo
  with_reducible repeat' first | assumption | intro _ | apply goodP_ite | apply good_ite | apply good_id | apply good_foldl | apply good_mapGetD | apply good_lookup | apply good_flowInsert | apply good_flowDelete | apply good_learnStatus | fail_if_no_progress apply good_upd | simp only [goodP_iff] | apply goodP_fst | (apply goodP_elim; assumption) | dsimp only | split

theorem good_tblAct {q : List Instr} (s : State) (t : Nat) (op : Nat) (f : TblArgs) (discard : Bool) (hs : Good q s) : Good q (State.tblAct s t op f discard) := by
  unfold State.tblAct
  with_reducible repeat' first | assumption | intro _ | apply good_ite | apply good_id | apply good_foldl | apply good_mapGetD | apply good_modThread | apply good_tblDo | fail_if_no_progress apply good_upd | simp only [goodP_iff] | apply goodP_fst | (apply goodP_elim; assumption) | dsimp only | split

theorem good_stall {q : List Instr} (s : State) (t : Nat) (why : Lack) (hs : Good q s) : Good q (State.stall s t why) := by
  unfold State.stall
  with_reducible repeat' first | assumption | intro _ | apply good_ite | apply good_id | apply good_foldl | apply good_mapGetD | apply good_modThread | fail_if_no_progress apply good_upd | dsimp only | split

theorem good_toBarista {q : List Instr} (s : State) (t : Nat) (code : Nat) (hs : Good q s) : Good q (State.toBarista s t code) := by
  unfold State.toBarista
  with_reducible repeat' first | assumption | intro _ | apply good_ite | apply good_id | apply good_foldl | apply good_mapGetD | apply good_raise | fail_if_no_progress apply good_upd | dsimp only | split

theorem good_startSup {q : List Instr} (s : State) (c : Nat) (hs : Good q s) : Good q (State.startSup s c) := by
  unfold State.startSup
  with_reducible repeat' first | assumption | intro _ | apply good_ite | apply good_id | apply good_foldl | apply good_mapGetD | apply good_modThread | fail_if_no_progress apply good_upd | dsimp only | split

theorem good_fault {q : List Instr} (s : State) (t : Nat) (code : Nat) (detail : Nat) (addr : Nat) (hs : Good q s) : Good q (State.fault s t code detail addr) := by
  unfold State.fault
  with_reducible repeat' first | assumption | intro _ | apply good_ite | apply good_id | apply good_foldl | apply good_mapGetD | apply good_count | apply good_when | apply good_raiseMs | apply good_raise | apply good_toBarista | apply good_modThread | apply good_startSup | fail_if_no_progress apply good_upd | dsimp only | split

theorem good_ignored {q : List Instr} (s : State) (t : Nat) (n : Nat) (hs : Good q s) : Good q (State.ignored s t n) := by
  unfold State.ignored
  with_reducible repeat' first | assumption | intro _ | apply good_ite | apply good_id | apply good_foldl | apply good_mapGetD | apply good_countBy | fail_if_no_progress apply good_upd | dsimp only | split

theorem good_memStore {q : List Instr} (s : State) (t space a : Nat) (bs : Bytes) (hs : Good q s) : Good q (s.memStore t space a bs) := by
  unfold State.memStore
  refine good_each _ _ _ (good_when _ _ _ hs (fun u hu => good_hbmDiscards _ _ _ _ hu)) (fun b u hu => ?_)
  split
  · exact good_localMem hu (memCanon_set _ _ _ hu.2.2.2.2.2.2.2.1)
  · exact good_tsram hu (memCanon_set _ _ _ hu.2.2.2.2.2.2.2.2.1)
  · exact good_hbmMem hu (memCanon_set _ _ _ hu.2.2.2.2.2.2.2.2.2.1)

theorem good_memAct {q : List Instr} (s : State) (t : Nat) (op : Nat) (f : MemArgs) (discard : Bool) (hs : Good q s) : Good q (State.memAct s t op f discard) := by
  unfold State.memAct
  with_reducible repeat' first | assumption | intro _ | apply good_ite | apply good_id | apply good_foldl | apply good_mapGetD | apply good_when | apply good_count | apply good_memStore | apply good_modThread | fail_if_no_progress apply good_upd | dsimp only | split

theorem good_memCmd {q : List Instr} (s : State) (t : Nat) (op : Nat) (f : MemArgs) (strict : Bool) (hs : Good q s) : Good q (State.memCmd s t op f strict) := by
  unfold State.memCmd
  with_reducible repeat' first | assumption | intro _ | apply good_ite | apply good_id | apply good_foldl | apply good_mapGetD | apply good_stall | apply good_fault | apply good_when | apply good_count | apply good_ignored | apply good_memAct | apply good_modThread | fail_if_no_progress apply good_upd | dsimp only | split

theorem good_execMemFadd {q : List Instr} (t : Nat) (f : MemArgs) (strict : Bool) (s : State) (hs : Good q s) : GoodT q (execMemFadd t f strict s) := by
  unfold execMemFadd
  with_reducible repeat' first | assumption | intro _ | apply goodT_next | apply goodT_ite | apply goodP_ite | apply good_ite | apply good_id | apply good_foldl | apply good_mapGetD | apply good_memCmd | fail_if_no_progress apply good_upd | simp only [goodP_iff] | dsimp only | split

theorem good_freeThread {q : List Instr} (s : State) (t : Nat) (hs : Good q s) : Good q (State.freeThread s t) := by
  unfold State.freeThread
  with_reducible repeat' first | assumption | intro _ | apply good_ite | apply good_id | apply good_foldl | apply good_mapGetD | apply good_modThread | fail_if_no_progress apply good_upd | dsimp only | split

theorem good_aluWrite {q : List Instr} (s : State) (t : Nat) (op : Nat) (f : AluArgs) (v : Nat × Nat) (skip : List Nat) (hs : Good q s) : Good q (State.aluWrite s t op f v skip) := by
  unfold State.aluWrite
  with_reducible repeat' first | assumption | intro _ | apply good_ite | apply good_id | apply good_foldl | apply good_mapGetD | apply good_when | apply good_modThread | apply good_writeOp | fail_if_no_progress apply good_upd | dsimp only | split

theorem good_randUsed {q : List Instr} (s : State) (reads : List Nat) (hs : Good q s) : Good q (State.randUsed s reads) := by
  unfold State.randUsed
  with_reducible repeat' first | assumption | intro _ | apply good_ite | apply good_id | apply good_foldl | apply good_mapGetD | fail_if_no_progress apply good_upd | dsimp only | split

theorem good_wake {q : List Instr} (s : State) (hs : Good q s) : Good q (State.wake s) := by
  unfold State.wake
  with_reducible repeat' first | assumption | intro _ | apply good_ite | apply good_id | apply good_foldl | apply good_mapGetD | apply good_each | apply good_modThread | fail_if_no_progress apply good_upd | dsimp only | split

theorem good_aluCmd {q : List Instr} (s : State) (t : Nat) (op : Nat) (f : AluArgs) (imm : Nat) (strict : Bool) (hs : Good q s) : Good q (State.aluCmd s t op f imm strict) := by
  unfold State.aluCmd
  with_reducible repeat' first | assumption | intro _ | apply good_ite | apply good_id | apply good_foldl | apply good_mapGetD | apply good_stall | apply good_fault | apply good_ignored | apply good_aluWrite | apply good_modThread | apply good_when | apply good_randUsed | apply good_specials | apply good_wake | fail_if_no_progress apply good_upd | dsimp only | split

theorem good_execAluShrv {q : List Instr} (t : Nat) (f : AluArgs) (imm : Nat) (strict : Bool) (s : State) (hs : Good q s) : GoodT q (execAluShrv t f imm strict s) := by
  unfold execAluShrv
  with_reducible repeat' first | assumption | intro _ | apply goodT_next | apply goodT_ite | apply goodP_ite | apply good_ite | apply good_id | apply good_foldl | apply good_mapGetD | apply good_aluCmd | fail_if_no_progress apply good_upd | simp only [goodP_iff] | dsimp only | split

theorem good_toVerdict {q : List Instr} (s : State) (h : Nat) (v : Verdict) (hs : Good q s) : Good q (State.toVerdict s h v) := by
  unfold State.toVerdict
  with_reducible repeat' first | assumption | intro _ | apply good_ite | apply good_id | apply good_foldl | apply good_mapGetD | apply good_setPkt | apply good_hwm | fail_if_no_progress apply good_upd | dsimp only | split

theorem good_abortThread {q : List Instr} (s : State) (t : Nat) (reason : Nat) (hs : Good q s) : Good q (State.abortThread s t reason) := by
  unfold State.abortThread
  with_reducible repeat' first | assumption | intro _ | apply good_ite | apply good_id | apply good_foldl | apply good_mapGetD | apply good_count | apply good_toVerdict | apply good_freeThread | apply good_modThread | fail_if_no_progress apply good_upd | dsimp only | split

theorem good_postMsg {q : List Instr} (s : State) (t : Nat) (u : Undo) (hs : Good q s) : Good q (State.postMsg s t u) := by
  unfold State.postMsg
  with_reducible repeat' first | assumption | intro _ | apply good_ite | apply good_id | apply good_foldl | apply good_mapGetD | apply good_modThread | apply good_latch | apply good_send | fail_if_no_progress apply good_upd | dsimp only | split

theorem good_execChannelPost {q : List Instr} (t : Nat) (s : State) (hs : Good q s) : GoodT q (execChannelPost t s) := by
  unfold execChannelPost
  with_reducible repeat' first | assumption | intro _ | apply goodT_next | apply goodT_ite | apply goodP_ite | apply good_ite | apply good_id | apply good_foldl | apply good_mapGetD | apply good_abortThread | apply good_fault | apply good_stall | apply good_postMsg | apply good_modThread | fail_if_no_progress apply good_upd | simp only [goodP_iff] | dsimp only | split

theorem good_execEventClr {q : List Instr} (t : Nat) (v : Nat) (s : State) (hs : Good q s) : GoodT q (execEventClr t v s) := by
  unfold execEventClr
  with_reducible repeat' first | assumption | intro _ | apply goodT_next | apply goodT_ite | apply goodP_ite | apply good_ite | apply good_id | apply good_foldl | apply good_mapGetD | apply good_eventClr | fail_if_no_progress apply good_upd | simp only [goodP_iff] | dsimp only | split

theorem good_execMemSwap {q : List Instr} (t : Nat) (f : MemArgs) (strict : Bool) (s : State) (hs : Good q s) : GoodT q (execMemSwap t f strict s) := by
  unfold execMemSwap
  with_reducible repeat' first | assumption | intro _ | apply goodT_next | apply goodT_ite | apply goodP_ite | apply good_ite | apply good_id | apply good_foldl | apply good_mapGetD | apply good_memCmd | fail_if_no_progress apply good_upd | simp only [goodP_iff] | dsimp only | split

theorem good_execAluCrc {q : List Instr} (t : Nat) (f : AluArgs) (imm : Nat) (strict : Bool) (s : State) (hs : Good q s) : GoodT q (execAluCrc t f imm strict s) := by
  unfold execAluCrc
  with_reducible repeat' first | assumption | intro _ | apply goodT_next | apply goodT_ite | apply goodP_ite | apply good_ite | apply good_id | apply good_foldl | apply good_mapGetD | apply good_aluCmd | fail_if_no_progress apply good_upd | simp only [goodP_iff] | dsimp only | split

theorem good_execAluXor {q : List Instr} (t : Nat) (f : AluArgs) (imm : Nat) (strict : Bool) (s : State) (hs : Good q s) : GoodT q (execAluXor t f imm strict s) := by
  unfold execAluXor
  with_reducible repeat' first | assumption | intro _ | apply goodT_next | apply goodT_ite | apply goodP_ite | apply good_ite | apply good_id | apply good_foldl | apply good_mapGetD | apply good_aluCmd | fail_if_no_progress apply good_upd | simp only [goodP_iff] | dsimp only | split

theorem good_execInboxPop {q : List Instr} (t : Nat) (s : State) (hs : Good q s) : GoodT q (execInboxPop t s) := by
  unfold execInboxPop
  with_reducible repeat' first | assumption | intro _ | apply goodT_next | apply goodT_ite | apply goodP_ite | apply good_ite | apply good_id | apply good_foldl | apply good_mapGetD | apply good_wake | apply good_popInbox | fail_if_no_progress apply good_upd | simp only [goodP_iff] | dsimp only | split

theorem good_execAluOr {q : List Instr} (t : Nat) (f : AluArgs) (imm : Nat) (strict : Bool) (s : State) (hs : Good q s) : GoodT q (execAluOr t f imm strict s) := by
  unfold execAluOr
  with_reducible repeat' first | assumption | intro _ | apply goodT_next | apply goodT_ite | apply goodP_ite | apply good_ite | apply good_id | apply good_foldl | apply good_mapGetD | apply good_aluCmd | fail_if_no_progress apply good_upd | simp only [goodP_iff] | dsimp only | split

theorem good_execAluClz {q : List Instr} (t : Nat) (f : AluArgs) (imm : Nat) (strict : Bool) (s : State) (hs : Good q s) : GoodT q (execAluClz t f imm strict s) := by
  unfold execAluClz
  with_reducible repeat' first | assumption | intro _ | apply goodT_next | apply goodT_ite | apply goodP_ite | apply good_ite | apply good_id | apply good_foldl | apply good_mapGetD | apply good_aluCmd | fail_if_no_progress apply good_upd | simp only [goodP_iff] | dsimp only | split

theorem good_accepted {q : List Instr} (s : State) (m : ChanMsg) (hs : Good q s) : Good q (State.accepted s m) := by
  unfold State.accepted
  with_reducible repeat' first | assumption | intro _ | apply good_ite | apply good_id | apply good_foldl | apply good_mapGetD | apply good_when | apply good_retire | apply good_wake | apply good_latch | fail_if_no_progress apply good_upd | dsimp only | split

theorem good_execInboxMessageArrive {q : List Instr} (t : Nat) (s : State) (hs : Good q s) : GoodT q (execInboxMessageArrive t s) := by
  unfold execInboxMessageArrive
  with_reducible repeat' first | assumption | intro _ | apply goodT_next | apply goodT_ite | apply goodP_ite | apply good_ite | apply good_id | apply good_foldl | apply good_mapGetD | apply good_modThread | apply good_accepted | fail_if_no_progress apply good_upd | simp only [goodP_iff] | dsimp only | split

theorem good_execAluSel {q : List Instr} (t : Nat) (f : AluArgs) (imm : Nat) (strict : Bool) (s : State) (hs : Good q s) : GoodT q (execAluSel t f imm strict s) := by
  unfold execAluSel
  with_reducible repeat' first | assumption | intro _ | apply goodT_next | apply goodT_ite | apply goodP_ite | apply good_ite | apply good_id | apply good_foldl | apply good_mapGetD | apply good_aluCmd | fail_if_no_progress apply good_upd | simp only [goodP_iff] | dsimp only | split

theorem good_execAluMov {q : List Instr} (t : Nat) (f : AluArgs) (imm : Nat) (strict : Bool) (s : State) (hs : Good q s) : GoodT q (execAluMov t f imm strict s) := by
  unfold execAluMov
  with_reducible repeat' first | assumption | intro _ | apply goodT_next | apply goodT_ite | apply goodP_ite | apply good_ite | apply good_id | apply good_foldl | apply good_mapGetD | apply good_aluCmd | fail_if_no_progress apply good_upd | simp only [goodP_iff] | dsimp only | split

theorem good_tblCmd {q : List Instr} (s : State) (t : Nat) (op : Nat) (f : TblArgs) (strict : Bool) (hs : Good q s) : Good q (State.tblCmd s t op f strict) := by
  unfold State.tblCmd
  with_reducible repeat' first | assumption | intro _ | apply good_ite | apply good_id | apply good_foldl | apply good_mapGetD | apply good_stall | apply good_fault | apply good_ignored | apply good_tblAct | apply good_modThread | fail_if_no_progress apply good_upd | dsimp only | split

theorem good_execAluAdd {q : List Instr} (t : Nat) (f : AluArgs) (imm : Nat) (strict : Bool) (s : State) (hs : Good q s) : GoodT q (execAluAdd t f imm strict s) := by
  unfold execAluAdd
  with_reducible repeat' first | assumption | intro _ | apply goodT_next | apply goodT_ite | apply goodP_ite | apply good_ite | apply good_id | apply good_foldl | apply good_mapGetD | apply good_aluCmd | fail_if_no_progress apply good_upd | simp only [goodP_iff] | dsimp only | split

theorem good_execAluShlv {q : List Instr} (t : Nat) (f : AluArgs) (imm : Nat) (strict : Bool) (s : State) (hs : Good q s) : GoodT q (execAluShlv t f imm strict s) := by
  unfold execAluShlv
  with_reducible repeat' first | assumption | intro _ | apply goodT_next | apply goodT_ite | apply goodP_ite | apply good_ite | apply good_id | apply good_foldl | apply good_mapGetD | apply good_aluCmd | fail_if_no_progress apply good_upd | simp only [goodP_iff] | dsimp only | split

theorem good_execAluPopc {q : List Instr} (t : Nat) (f : AluArgs) (imm : Nat) (strict : Bool) (s : State) (hs : Good q s) : GoodT q (execAluPopc t f imm strict s) := by
  unfold execAluPopc
  with_reducible repeat' first | assumption | intro _ | apply goodT_next | apply goodT_ite | apply goodP_ite | apply good_ite | apply good_id | apply good_foldl | apply good_mapGetD | apply good_aluCmd | fail_if_no_progress apply good_upd | simp only [goodP_iff] | dsimp only | split

theorem good_reply {q : List Instr} (s : State) (m : ChanMsg) (words : List Nat) (hs : Good q s) : Good q (State.reply s m words) := by
  unfold State.reply
  with_reducible repeat' first | assumption | intro _ | apply good_ite | apply good_id | apply good_foldl | apply good_mapGetD | fail_if_no_progress apply good_upd | dsimp only | split

theorem good_execAluMinu {q : List Instr} (t : Nat) (f : AluArgs) (imm : Nat) (strict : Bool) (s : State) (hs : Good q s) : GoodT q (execAluMinu t f imm strict s) := by
  unfold execAluMinu
  with_reducible repeat' first | assumption | intro _ | apply goodT_next | apply goodT_ite | apply goodP_ite | apply good_ite | apply good_id | apply good_foldl | apply good_mapGetD | apply good_aluCmd | fail_if_no_progress apply good_upd | simp only [goodP_iff] | dsimp only | split

theorem good_execAluAnd {q : List Instr} (t : Nat) (f : AluArgs) (imm : Nat) (strict : Bool) (s : State) (hs : Good q s) : GoodT q (execAluAnd t f imm strict s) := by
  unfold execAluAnd
  with_reducible repeat' first | assumption | intro _ | apply goodT_next | apply goodT_ite | apply goodP_ite | apply good_ite | apply good_id | apply good_foldl | apply good_mapGetD | apply good_aluCmd | fail_if_no_progress apply good_upd | simp only [goodP_iff] | dsimp only | split

theorem good_execTblLookup {q : List Instr} (t : Nat) (f : TblArgs) (strict : Bool) (s : State) (hs : Good q s) : GoodT q (execTblLookup t f strict s) := by
  unfold execTblLookup
  with_reducible repeat' first | assumption | intro _ | apply goodT_next | apply goodT_ite | apply goodP_ite | apply good_ite | apply good_id | apply good_foldl | apply good_mapGetD | apply good_tblCmd | fail_if_no_progress apply good_upd | simp only [goodP_iff] | dsimp only | split

theorem good_execTblInsert {q : List Instr} (t : Nat) (f : TblArgs) (strict : Bool) (s : State) (hs : Good q s) : GoodT q (execTblInsert t f strict s) := by
  unfold execTblInsert
  with_reducible repeat' first | assumption | intro _ | apply goodT_next | apply goodT_ite | apply goodP_ite | apply good_ite | apply good_id | apply good_foldl | apply good_mapGetD | apply good_tblCmd | fail_if_no_progress apply good_upd | simp only [goodP_iff] | dsimp only | split

theorem good_execAluMul32 {q : List Instr} (t : Nat) (f : AluArgs) (imm : Nat) (strict : Bool) (s : State) (hs : Good q s) : GoodT q (execAluMul32 t f imm strict s) := by
  unfold execAluMul32
  with_reducible repeat' first | assumption | intro _ | apply goodT_next | apply goodT_ite | apply goodP_ite | apply good_ite | apply good_id | apply good_foldl | apply good_mapGetD | apply good_aluCmd | fail_if_no_progress apply good_upd | simp only [goodP_iff] | dsimp only | split

theorem good_faultLater {q : List Instr} (s : State) (t : Nat) (code : Nat) (addr : Nat) (hs : Good q s) : Good q (State.faultLater s t code addr) := by
  unfold State.faultLater
  with_reducible repeat' first | assumption | intro _ | apply good_ite | apply good_id | apply good_foldl | apply good_mapGetD | apply good_modThread | apply good_fault | fail_if_no_progress apply good_upd | dsimp only | split

theorem good_execFenceMessage {q : List Instr} (c : Nat) (s : State) (hs : Good q s) : GoodT q (execFenceMessage c s) := by
  unfold execFenceMessage
  with_reducible repeat' first | assumption | intro _ | apply goodT_next | apply goodT_ite | apply goodP_ite | apply good_ite | apply good_id | apply good_foldl | apply good_mapGetD | apply good_reply | apply good_accepted | fail_if_no_progress apply good_upd | simp only [goodP_iff] | dsimp only | split

theorem good_execSignal {q : List Instr} (t : Nat) (v : Nat) (s : State) (hs : Good q s) : GoodT q (execSignal t v s) := by
  unfold execSignal
  with_reducible repeat' first | assumption | intro _ | apply goodT_next | apply goodT_ite | apply goodP_ite | apply good_ite | apply good_id | apply good_foldl | apply good_mapGetD | apply good_signalOp | fail_if_no_progress apply good_upd | simp only [goodP_iff] | dsimp only | split

theorem good_execMemCas {q : List Instr} (t : Nat) (f : MemArgs) (strict : Bool) (s : State) (hs : Good q s) : GoodT q (execMemCas t f strict s) := by
  unfold execMemCas
  with_reducible repeat' first | assumption | intro _ | apply goodT_next | apply goodT_ite | apply goodP_ite | apply good_ite | apply good_id | apply good_foldl | apply good_mapGetD | apply good_memCmd | fail_if_no_progress apply good_upd | simp only [goodP_iff] | dsimp only | split

theorem good_execMemAdd {q : List Instr} (t : Nat) (f : MemArgs) (strict : Bool) (s : State) (hs : Good q s) : GoodT q (execMemAdd t f strict s) := by
  unfold execMemAdd
  with_reducible repeat' first | assumption | intro _ | apply goodT_next | apply goodT_ite | apply goodP_ite | apply good_ite | apply good_id | apply good_foldl | apply good_mapGetD | apply good_memCmd | fail_if_no_progress apply good_upd | simp only [goodP_iff] | dsimp only | split

theorem good_execAluAndn {q : List Instr} (t : Nat) (f : AluArgs) (imm : Nat) (strict : Bool) (s : State) (hs : Good q s) : GoodT q (execAluAndn t f imm strict s) := by
  unfold execAluAndn
  with_reducible repeat' first | assumption | intro _ | apply goodT_next | apply goodT_ite | apply goodP_ite | apply good_ite | apply good_id | apply good_foldl | apply good_mapGetD | apply good_aluCmd | fail_if_no_progress apply good_upd | simp only [goodP_iff] | dsimp only | split

theorem good_execAluSarv {q : List Instr} (t : Nat) (f : AluArgs) (imm : Nat) (strict : Bool) (s : State) (hs : Good q s) : GoodT q (execAluSarv t f imm strict s) := by
  unfold execAluSarv
  with_reducible repeat' first | assumption | intro _ | apply goodT_next | apply goodT_ite | apply goodP_ite | apply good_ite | apply good_id | apply good_foldl | apply good_mapGetD | apply good_aluCmd | fail_if_no_progress apply good_upd | simp only [goodP_iff] | dsimp only | split

theorem good_execTblLearn {q : List Instr} (t : Nat) (f : TblArgs) (strict : Bool) (s : State) (hs : Good q s) : GoodT q (execTblLearn t f strict s) := by
  unfold execTblLearn
  with_reducible repeat' first | assumption | intro _ | apply goodT_next | apply goodT_ite | apply goodP_ite | apply good_ite | apply good_id | apply good_foldl | apply good_mapGetD | apply good_tblCmd | fail_if_no_progress apply good_upd | simp only [goodP_iff] | dsimp only | split

theorem good_execTblDelete {q : List Instr} (t : Nat) (f : TblArgs) (strict : Bool) (s : State) (hs : Good q s) : GoodT q (execTblDelete t f strict s) := by
  unfold execTblDelete
  with_reducible repeat' first | assumption | intro _ | apply goodT_next | apply goodT_ite | apply goodP_ite | apply good_ite | apply good_id | apply good_foldl | apply good_mapGetD | apply good_tblCmd | fail_if_no_progress apply good_upd | simp only [goodP_iff] | dsimp only | split

theorem good_execTblResultArrive {q : List Instr} (t : Nat) (damaged : Bool) (s : State) (hs : Good q s) : GoodT q (execTblResultArrive t damaged s) := by
  unfold execTblResultArrive
  with_reducible repeat' first | assumption | intro _ | apply goodT_next | apply goodT_ite | apply goodP_ite | apply good_ite | apply good_id | apply good_foldl | apply good_mapGetD | apply good_tableError | apply good_wake | apply good_modThread | apply good_retire | fail_if_no_progress apply good_upd | simp only [goodP_iff] | apply goodP_fst | (apply goodP_elim; assumption) | dsimp only | split

theorem good_execAluIns {q : List Instr} (t : Nat) (f : AluArgs) (imm : Nat) (strict : Bool) (s : State) (hs : Good q s) : GoodT q (execAluIns t f imm strict s) := by
  unfold execAluIns
  with_reducible repeat' first | assumption | intro _ | apply goodT_next | apply goodT_ite | apply goodP_ite | apply good_ite | apply good_id | apply good_foldl | apply good_mapGetD | apply good_aluCmd | fail_if_no_progress apply good_upd | simp only [goodP_iff] | dsimp only | split

theorem good_execMemResultArrive {q : List Instr} (t : Nat) (bad : Bool) (s : State) (hs : Good q s) : GoodT q (execMemResultArrive t bad s) := by
  unfold execMemResultArrive
  with_reducible repeat' first | assumption | intro _ | apply goodT_next | apply goodT_ite | apply goodP_ite | apply good_ite | apply good_id | apply good_foldl | apply good_mapGetD | apply good_wake | apply good_modThread | apply good_faultLater | fail_if_no_progress apply good_upd | simp only [goodP_iff] | dsimp only | split

theorem good_execMemSt {q : List Instr} (t : Nat) (f : MemArgs) (strict : Bool) (s : State) (hs : Good q s) : GoodT q (execMemSt t f strict s) := by
  unfold execMemSt
  with_reducible repeat' first | assumption | intro _ | apply goodT_next | apply goodT_ite | apply goodP_ite | apply good_ite | apply good_id | apply good_foldl | apply good_mapGetD | apply good_memCmd | fail_if_no_progress apply good_upd | simp only [goodP_iff] | dsimp only | split

theorem good_execAluBswap {q : List Instr} (t : Nat) (f : AluArgs) (imm : Nat) (strict : Bool) (s : State) (hs : Good q s) : GoodT q (execAluBswap t f imm strict s) := by
  unfold execAluBswap
  with_reducible repeat' first | assumption | intro _ | apply goodT_next | apply goodT_ite | apply goodP_ite | apply good_ite | apply good_id | apply good_foldl | apply good_mapGetD | apply good_aluCmd | fail_if_no_progress apply good_upd | simp only [goodP_iff] | dsimp only | split

theorem good_execAluTst {q : List Instr} (t : Nat) (f : AluArgs) (imm : Nat) (strict : Bool) (s : State) (hs : Good q s) : GoodT q (execAluTst t f imm strict s) := by
  unfold execAluTst
  with_reducible repeat' first | assumption | intro _ | apply goodT_next | apply goodT_ite | apply goodP_ite | apply good_ite | apply good_id | apply good_foldl | apply good_mapGetD | apply good_aluCmd | fail_if_no_progress apply good_upd | simp only [goodP_iff] | dsimp only | split

theorem good_execMemLd {q : List Instr} (t : Nat) (f : MemArgs) (strict : Bool) (s : State) (hs : Good q s) : GoodT q (execMemLd t f strict s) := by
  unfold execMemLd
  with_reducible repeat' first | assumption | intro _ | apply goodT_next | apply goodT_ite | apply goodP_ite | apply good_ite | apply good_id | apply good_foldl | apply good_mapGetD | apply good_memCmd | fail_if_no_progress apply good_upd | simp only [goodP_iff] | dsimp only | split

theorem good_execAluCmp {q : List Instr} (t : Nat) (f : AluArgs) (imm : Nat) (strict : Bool) (s : State) (hs : Good q s) : GoodT q (execAluCmp t f imm strict s) := by
  unfold execAluCmp
  with_reducible repeat' first | assumption | intro _ | apply goodT_next | apply goodT_ite | apply goodP_ite | apply good_ite | apply good_id | apply good_foldl | apply good_mapGetD | apply good_aluCmd | fail_if_no_progress apply good_upd | simp only [goodP_iff] | dsimp only | split

theorem good_execAluSubb {q : List Instr} (t : Nat) (f : AluArgs) (imm : Nat) (strict : Bool) (s : State) (hs : Good q s) : GoodT q (execAluSubb t f imm strict s) := by
  unfold execAluSubb
  with_reducible repeat' first | assumption | intro _ | apply goodT_next | apply goodT_ite | apply goodP_ite | apply good_ite | apply good_id | apply good_foldl | apply good_mapGetD | apply good_aluCmd | fail_if_no_progress apply good_upd | simp only [goodP_iff] | dsimp only | split

theorem good_execAluAddc {q : List Instr} (t : Nat) (f : AluArgs) (imm : Nat) (strict : Bool) (s : State) (hs : Good q s) : GoodT q (execAluAddc t f imm strict s) := by
  unfold execAluAddc
  with_reducible repeat' first | assumption | intro _ | apply goodT_next | apply goodT_ite | apply goodP_ite | apply good_ite | apply good_id | apply good_foldl | apply good_mapGetD | apply good_aluCmd | fail_if_no_progress apply good_upd | simp only [goodP_iff] | dsimp only | split

theorem good_execAluMaxu {q : List Instr} (t : Nat) (f : AluArgs) (imm : Nat) (strict : Bool) (s : State) (hs : Good q s) : GoodT q (execAluMaxu t f imm strict s) := by
  unfold execAluMaxu
  with_reducible repeat' first | assumption | intro _ | apply goodT_next | apply goodT_ite | apply goodP_ite | apply good_ite | apply good_id | apply good_foldl | apply good_mapGetD | apply good_aluCmd | fail_if_no_progress apply good_upd | simp only [goodP_iff] | dsimp only | split

theorem good_execAluSub {q : List Instr} (t : Nat) (f : AluArgs) (imm : Nat) (strict : Bool) (s : State) (hs : Good q s) : GoodT q (execAluSub t f imm strict s) := by
  unfold execAluSub
  with_reducible repeat' first | assumption | intro _ | apply goodT_next | apply goodT_ite | apply goodP_ite | apply good_ite | apply good_id | apply good_foldl | apply good_mapGetD | apply good_aluCmd | fail_if_no_progress apply good_upd | simp only [goodP_iff] | dsimp only | split

end Sys2Proof.Machine
end

