-- ==== Sys2Proof/Laws/KeepsSequencer.lean ====
section
/-! SUPPORT. The operations of Sequencer.lean keep the queue and the invariant. -/

set_option linter.unusedTactic false
set_option linter.unreachableTactic false
set_option linter.unusedSimpArgs false
set_option linter.unusedVariables false

namespace Sys2Proof.Machine

theorem good_setRegs {q : List Instr} (s : State) (t : Nat) (r : Nat) (vs : List Nat) (hs : Good q s) : Good q (State.setRegs s t r vs) := by
  unfold State.setRegs
  with_reducible repeat' first | assumption | intro _ | apply good_ite | apply good_id | apply good_foldl | apply good_mapGetD | apply good_modThread | fail_if_no_progress apply good_upd | dsimp only | split

theorem good_haltThread {q : List Instr} (s : State) (t : Nat) (hs : Good q s) : Good q (State.haltThread s t) := by
  unfold State.haltThread
  with_reducible repeat' first | assumption | intro _ | apply good_ite | apply good_id | apply good_foldl | apply good_mapGetD | apply good_modThread | fail_if_no_progress apply good_upd | dsimp only | split

theorem good_breakHalt {q : List Instr} (s : State) (t : Nat) (hs : Good q s) : Good q (State.breakHalt s t) := by
  unfold State.breakHalt
  with_reducible repeat' first | assumption | intro _ | apply good_ite | apply good_id | apply good_foldl | apply good_mapGetD | apply good_raise | apply good_haltThread | fail_if_no_progress apply good_upd | dsimp only | split

theorem good_damageWord {q : List Instr} (s : State) (t : Nat) (hs : Good q s) : Good q (State.damageWord s t) := by
  unfold State.damageWord
  with_reducible repeat' first | assumption | intro _ | apply good_ite | apply good_id | apply good_foldl | apply good_mapGetD | fail_if_no_progress apply good_upd | dsimp only | split

theorem good_issued {q : List Instr} (s : State) (t : Nat) (pc : Nat) (n : Nat) (stepping : Bool) (hs : Good q s) : Good q (State.issued s t pc n stepping) := by
  unfold State.issued
  with_reducible repeat' first | assumption | intro _ | apply good_ite | apply good_id | apply good_foldl | apply good_mapGetD | apply good_countBy | apply good_modThread | apply good_when | apply good_breakHalt | fail_if_no_progress apply good_upd | dsimp only | split

theorem good_editFails {q : List Instr} (s : State) (h : Nat) (p : Packet) (hs : Good q s) : Good q (State.editFails s h p) := by
  unfold State.editFails
  with_reducible repeat' first | assumption | intro _ | apply good_ite | apply good_id | apply good_foldl | apply good_mapGetD | apply good_dropPkt | apply good_cellCheck | fail_if_no_progress apply good_upd | dsimp only | split

theorem good_endPacket {q : List Instr} (s : State) (t : Nat) (stamp : Bool) (hs : Good q s) : Good q (State.endPacket s t stamp) := by
  unfold State.endPacket
  with_reducible repeat' first | assumption | intro _ | apply good_ite | apply good_id | apply good_foldl | apply good_mapGetD | apply good_count | apply good_setPkt | apply good_editFails | apply good_toVerdict | apply good_freeThread | fail_if_no_progress apply good_upd | dsimp only | split

theorem good_defaultDone {q : List Instr} (s : State) (t : Nat) (a : Nat) (hs : Good q s) : Good q (State.defaultDone s t a) := by
  unfold State.defaultDone
  with_reducible repeat' first | assumption | intro _ | apply good_ite | apply good_id | apply good_foldl | apply good_mapGetD | apply good_stall | apply good_abortThread | apply good_modThread | apply good_used | apply good_issued | apply good_endPacket | fail_if_no_progress apply good_upd | dsimp only | split

theorem good_supMove {q : List Instr} (s : State) (t : Nat) (hs : Good q s) : Good q (State.supMove s t) := by
  unfold State.supMove
  with_reducible repeat' first | assumption | intro _ | apply good_ite | apply good_id | apply good_foldl | apply good_mapGetD | apply good_modThread | apply good_startSup | fail_if_no_progress apply good_upd | dsimp only | split

theorem good_park {q : List Instr} (s : State) (t : Nat) (mask : Nat) (hs : Good q s) : Good q (State.park s t mask) := by
  unfold State.park
  with_reducible repeat' first | assumption | intro _ | apply good_ite | apply good_id | apply good_foldl | apply good_mapGetD | apply good_modThread | fail_if_no_progress apply good_upd | dsimp only | split

theorem good_supDefault {q : List Instr} (s : State) (t : Nat) (hs : Good q s) : Good q (State.supDefault s t) := by
  unfold State.supDefault
  with_reducible repeat' first | assumption | intro _ | apply good_ite | apply good_id | apply good_foldl | apply good_mapGetD | apply good_supMove | apply good_park | apply good_modThread | apply good_wake | apply good_issued | fail_if_no_progress apply good_upd | dsimp only | split

theorem good_stageCall {q : List Instr} (s : State) (t : Nat) (a : Nat) (hs : Good q s) : Good q (State.stageCall s t a) := by
  unfold State.stageCall
  with_reducible repeat' first | assumption | intro _ | apply good_ite | apply good_id | apply good_foldl | apply good_mapGetD | apply good_modThread | fail_if_no_progress apply good_upd | dsimp only | split

theorem good_callPost {q : List Instr} (s : State) (t : Nat) (a : Nat) (hs : Good q s) : Good q (State.callPost s t a) := by
  unfold State.callPost
  with_reducible repeat' first | assumption | intro _ | apply good_ite | apply good_id | apply good_foldl | apply good_mapGetD | apply good_stageCall | apply good_abortThread | apply good_fault | apply good_stall | apply good_modThread | apply good_postMsg | fail_if_no_progress apply good_upd | dsimp only | split

theorem good_scramble {q : List Instr} (s : State) (t : Nat) (hs : Good q s) : Good q (State.scramble s t) := by
  unfold State.scramble
  with_reducible repeat' first | assumption | intro _ | apply good_ite | apply good_id | apply good_foldl | apply good_mapGetD | apply good_modThread | fail_if_no_progress apply good_upd | dsimp only | split

theorem good_routineRet {q : List Instr} (s : State) (t : Nat) (a : Nat) (n : Nat) (hs : Good q s) : Good q (State.routineRet s t a n) := by
  unfold State.routineRet
  with_reducible repeat' first | assumption | intro _ | apply good_ite | apply good_id | apply good_foldl | apply good_mapGetD | apply good_modThread | apply good_used | apply good_issued | fail_if_no_progress apply good_upd | dsimp only | split

theorem good_callReply {q : List Instr} (s : State) (t : Nat) (a : Nat) (n : Nat) (hs : Good q s) : Good q (State.callReply s t a n) := by
  unfold State.callReply
  with_reducible repeat' first | assumption | intro _ | apply good_ite | apply good_id | apply good_foldl | apply good_mapGetD | apply good_wake | apply good_modThread | apply good_setRegs | apply good_scramble | apply good_routineRet | fail_if_no_progress apply good_upd | dsimp only | split

theorem good_flowRoutine {q : List Instr} (s : State) (t : Nat) (look : Bool) (hs : Good q s) : Good q (State.flowRoutine s t look) := by
  unfold State.flowRoutine
  with_reducible repeat' first | assumption | intro _ | apply good_ite | apply good_id | apply good_foldl | apply good_mapGetD | apply good_setRegs | apply good_scramble | apply good_used | apply good_lookup | fail_if_no_progress apply good_upd | simp only [goodP_iff] | apply goodP_fst | (apply goodP_elim; assumption) | dsimp only | split

theorem good_csumRoutine {q : List Instr} (s : State) (t : Nat) (hs : Good q s) : Good q (State.csumRoutine s t) := by
  unfold State.csumRoutine
  with_reducible repeat' first | assumption | intro _ | apply good_ite | apply good_id | apply good_foldl | apply good_mapGetD | apply good_scramble | apply good_setRegs | fail_if_no_progress apply good_upd | dsimp only | split

theorem good_setWindow {q : List Instr} (s : State) (t : Nat) (o : Nat) (bs : Bytes) (hs : Good q s) : Good q (State.setWindow s t o bs) := by
  unfold State.setWindow
  with_reducible repeat' first | assumption | intro _ | apply good_ite | apply good_id | apply good_foldl | apply good_mapGetD | apply good_modThread | fail_if_no_progress apply good_upd | dsimp only | split

theorem good_ttlRoutine {q : List Instr} (s : State) (t : Nat) (hs : Good q s) : Good q (State.ttlRoutine s t) := by
  unfold State.ttlRoutine
  with_reducible repeat' first | assumption | intro _ | apply good_ite | apply good_id | apply good_foldl | apply good_mapGetD | apply good_scramble | apply good_setRegs | apply good_setWindow | fail_if_no_progress apply good_upd | dsimp only | split

theorem good_setEdit {q : List Instr} (s : State) (t : Nat) (old : Nat) (bs : Bytes) (hs : Good q s) : Good q (State.setEdit s t old bs) := by
  unfold State.setEdit
  with_reducible repeat' first | assumption | intro _ | apply good_ite | apply good_id | apply good_foldl | apply good_mapGetD | apply good_modThread | apply good_setWindow | fail_if_no_progress apply good_upd | dsimp only | split

theorem good_vlanPush {q : List Instr} (s : State) (t : Nat) (hs : Good q s) : Good q (State.vlanPush s t) := by
  unfold State.vlanPush
  with_reducible repeat' first | assumption | intro _ | apply good_ite | apply good_id | apply good_foldl | apply good_mapGetD | apply good_setEdit | apply good_scramble | fail_if_no_progress apply good_upd | dsimp only | split

theorem good_vlanPop {q : List Instr} (s : State) (t : Nat) (hs : Good q s) : Good q (State.vlanPop s t) := by
  unfold State.vlanPop
  with_reducible repeat' first | assumption | intro _ | apply good_ite | apply good_id | apply good_foldl | apply good_mapGetD | apply good_scramble | apply good_setRegs | apply good_setEdit | fail_if_no_progress apply good_upd | dsimp only | split

theorem good_countRoutine {q : List Instr} (s : State) (t : Nat) (hs : Good q s) : Good q (State.countRoutine s t) := by
  unfold State.countRoutine
  with_reducible repeat' first | assumption | intro _ | apply good_ite | apply good_id | apply good_foldl | apply good_mapGetD | apply good_memStore | apply good_count | apply good_scramble | fail_if_no_progress apply good_upd | dsimp only | split

theorem good_routine {q : List Instr} (s : State) (t : Nat) (op : Nat) (a : Nat) (hs : Good q s) : Good q (State.routine s t op a) := by
  unfold State.routine
  with_reducible repeat' first | assumption | intro _ | apply good_ite | apply good_id | apply good_foldl | apply good_mapGetD | apply good_defaultDone | apply good_supDefault | apply good_callPost | apply good_callReply | apply good_fault | apply good_routineRet | apply good_flowRoutine | apply good_csumRoutine | apply good_setRegs | apply good_scramble | apply good_ttlRoutine | apply good_vlanPush | apply good_vlanPop | apply good_countRoutine | fail_if_no_progress apply good_upd | dsimp only | split

theorem good_corrected {q : List Instr} (s : State) (t : Nat) (k : Nat) (hs : Good q s) : Good q (State.corrected s t k) := by
  unfold State.corrected
  with_reducible repeat' first | assumption | intro _ | apply good_ite | apply good_id | apply good_foldl | apply good_mapGetD | apply good_rateCount | apply good_countError | apply good_count | fail_if_no_progress apply good_upd | dsimp only | split

theorem good_wordErrors {q : List Instr} (s : State) (t : Nat) (w : Nat) (x : WordIo) (hs : Good q s) : Good q (State.wordErrors s t w x) := by
  unfold State.wordErrors
  with_reducible repeat' first | assumption | intro _ | apply good_ite | apply good_id | apply good_foldl | apply good_mapGetD | apply good_when | apply good_corrected | fail_if_no_progress apply good_upd | dsimp only | split

theorem good_wordParts {q : List Instr} (s : State) (t : Nat) (w : Nat) (hs : Good q s) : Good q (State.wordParts s t w) := by
  unfold State.wordParts
  with_reducible repeat' first | assumption | intro _ | apply good_ite | apply good_id | apply good_foldl | apply good_mapGetD | apply good_tblAct | apply good_memAct | apply good_randUsed | apply good_aluWrite | fail_if_no_progress apply good_upd | dsimp only | split

theorem good_wordSpecials {q : List Instr} (s : State) (old : State) (t : Nat) (w : Nat) (hs : Good q s) (hold : Good q old) : Good q (State.wordSpecials s old t w) := by
  unfold State.wordSpecials
  with_reducible repeat' first | assumption | intro _ | apply good_ite | apply good_id | apply good_foldl | apply good_mapGetD | apply good_specials | apply good_eventClr | fail_if_no_progress apply good_upd | dsimp only | split

theorem good_completeWord {q : List Instr} (s : State) (t : Nat) (w : Nat) (pc : Nat) (hs : Good q s) : Good q (State.completeWord s t w pc) := by
  unfold State.completeWord
  with_reducible repeat' first | assumption | intro _ | apply good_ite | apply good_id | apply good_foldl | apply good_mapGetD | apply good_ignored | apply good_wordParts | apply good_fault | apply good_stall | apply good_wordSpecials | apply good_when | apply good_postMsg | apply good_modThread | apply good_endPacket | apply good_wake | apply good_issued | fail_if_no_progress apply good_upd | dsimp only | split

theorem good_issueWord {q : List Instr} (s : State) (t : Nat) (w : Nat) (pc : Nat) (hs : Good q s) : Good q (State.issueWord s t w pc) := by
  unfold State.issueWord
  with_reducible repeat' first | assumption | intro _ | apply good_ite | apply good_id | apply good_foldl | apply good_mapGetD | apply good_fault | apply good_when | apply good_count | apply good_supMove | apply good_park | apply good_stall | apply good_abortThread | apply good_completeWord | fail_if_no_progress apply good_upd | dsimp only | split

theorem good_seqRow {q : List Instr} (s : State) (t : Nat) (op : Nat) (x : WordIo) (hs : Good q s) : Good q (State.seqRow s t op x) := by
  unfold State.seqRow
  with_reducible repeat' first | assumption | intro _ | apply good_ite | apply good_id | apply good_foldl | apply good_mapGetD | apply good_breakHalt | apply good_when | apply good_damageWord | apply good_fault | apply good_stall | apply good_routine | apply good_wordErrors | apply good_issueWord | apply good_modThread | fail_if_no_progress apply good_upd | dsimp only | split

theorem good_execSeqDisp16 {q : List Instr} (w : Issue) (s : State) (hs : Good q s) : GoodT q (execSeqDisp16 w s) := by
  unfold execSeqDisp16
  with_reducible repeat' first | assumption | intro _ | apply goodT_next | apply goodT_ite | apply goodP_ite | apply good_ite | apply good_id | apply good_foldl | apply good_mapGetD | apply good_seqRow | fail_if_no_progress apply good_upd | simp only [goodP_iff] | dsimp only | split

theorem good_execSeqWait {q : List Instr} (w : Issue) (s : State) (hs : Good q s) : GoodT q (execSeqWait w s) := by
  unfold execSeqWait
  with_reducible repeat' first | assumption | intro _ | apply goodT_next | apply goodT_ite | apply goodP_ite | apply good_ite | apply good_id | apply good_foldl | apply good_mapGetD | apply good_seqRow | fail_if_no_progress apply good_upd | simp only [goodP_iff] | dsimp only | split

theorem good_execSeqBr {q : List Instr} (w : Issue) (s : State) (hs : Good q s) : GoodT q (execSeqBr w s) := by
  unfold execSeqBr
  with_reducible repeat' first | assumption | intro _ | apply goodT_next | apply goodT_ite | apply goodP_ite | apply good_ite | apply good_id | apply good_foldl | apply good_mapGetD | apply good_seqRow | fail_if_no_progress apply good_upd | simp only [goodP_iff] | dsimp only | split

theorem good_execSeqInc {q : List Instr} (w : Issue) (s : State) (hs : Good q s) : GoodT q (execSeqInc w s) := by
  unfold execSeqInc
  with_reducible repeat' first | assumption | intro _ | apply goodT_next | apply goodT_ite | apply goodP_ite | apply good_ite | apply good_id | apply good_foldl | apply good_mapGetD | apply good_seqRow | fail_if_no_progress apply good_upd | simp only [goodP_iff] | dsimp only | split

theorem good_execSeqRet {q : List Instr} (w : Issue) (s : State) (hs : Good q s) : GoodT q (execSeqRet w s) := by
  unfold execSeqRet
  with_reducible repeat' first | assumption | intro _ | apply goodT_next | apply goodT_ite | apply goodP_ite | apply good_ite | apply good_id | apply good_foldl | apply good_mapGetD | apply good_seqRow | fail_if_no_progress apply good_upd | simp only [goodP_iff] | dsimp only | split

theorem good_execSeqJump {q : List Instr} (w : Issue) (s : State) (hs : Good q s) : GoodT q (execSeqJump w s) := by
  unfold execSeqJump
  with_reducible repeat' first | assumption | intro _ | apply goodT_next | apply goodT_ite | apply goodP_ite | apply good_ite | apply good_id | apply good_foldl | apply good_mapGetD | apply good_seqRow | fail_if_no_progress apply good_upd | simp only [goodP_iff] | dsimp only | split

theorem good_damage {q : List Instr} (s : State) (t : Nat) (hs : Good q s) : Good q (State.damage s t) := by
  unfold State.damage
  with_reducible repeat' first | assumption | intro _ | apply good_ite | apply good_id | apply good_foldl | apply good_mapGetD | apply good_setPkt | fail_if_no_progress apply good_upd | dsimp only | split

theorem good_execSeqBrn {q : List Instr} (w : Issue) (s : State) (hs : Good q s) : GoodT q (execSeqBrn w s) := by
  unfold execSeqBrn
  with_reducible repeat' first | assumption | intro _ | apply goodT_next | apply goodT_ite | apply goodP_ite | apply good_ite | apply good_id | apply good_foldl | apply good_mapGetD | apply good_seqRow | fail_if_no_progress apply good_upd | simp only [goodP_iff] | dsimp only | split

theorem good_execSeqDone {q : List Instr} (w : Issue) (s : State) (hs : Good q s) : GoodT q (execSeqDone w s) := by
  unfold execSeqDone
  with_reducible repeat' first | assumption | intro _ | apply goodT_next | apply goodT_ite | apply goodP_ite | apply good_ite | apply good_id | apply good_foldl | apply good_mapGetD | apply good_seqRow | apply good_when | apply good_damage | fail_if_no_progress apply good_upd | simp only [goodP_iff] | dsimp only | split

theorem good_execSeqCall {q : List Instr} (w : Issue) (s : State) (hs : Good q s) : GoodT q (execSeqCall w s) := by
  unfold execSeqCall
  with_reducible repeat' first | assumption | intro _ | apply goodT_next | apply goodT_ite | apply goodP_ite | apply good_ite | apply good_id | apply good_foldl | apply good_mapGetD | apply good_seqRow | fail_if_no_progress apply good_upd | simp only [goodP_iff] | dsimp only | split

theorem good_execSeqFault {q : List Instr} (w : Issue) (s : State) (hs : Good q s) : GoodT q (execSeqFault w s) := by
  unfold execSeqFault
  with_reducible repeat' first | assumption | intro _ | apply goodT_next | apply goodT_ite | apply goodP_ite | apply good_ite | apply good_id | apply good_foldl | apply good_mapGetD | apply good_seqRow | fail_if_no_progress apply good_upd | simp only [goodP_iff] | dsimp only | split

end Sys2Proof.Machine
end

