-- ==== Sys2Proof/Laws/KeepsBrew.lean ====
section
/-! SUPPORT. The operations of Brew.lean keep the queue and the invariant. -/

set_option linter.unusedTactic false
set_option linter.unreachableTactic false
set_option linter.unusedSimpArgs false
set_option linter.unusedVariables false

namespace Sys2Proof.Machine

theorem good_resume {q : List Instr} (s : State) (d : Decision) (hs : Good q s) : Good q (State.resume s d) := by
  unfold State.resume
  with_reducible repeat' first | assumption | intro _ | apply good_ite | apply good_id | apply good_foldl | apply good_mapGetD | apply good_modThread | apply good_fault | fail_if_no_progress apply good_upd | dsimp only | split

theorem good_fenceOut {q : List Instr} (s : State) (t : Nat) (hs : Good q s) : Good q (State.fenceOut s t) := by
  unfold State.fenceOut
  with_reducible repeat' first | assumption | intro _ | apply good_ite | apply good_id | apply good_foldl | apply good_mapGetD | apply good_modThread | apply good_abortThread | fail_if_no_progress apply good_upd | dsimp only | split

theorem good_fenceThread {q : List Instr} (s : State) (t : Nat) (cause : Nat) (hs : Good q s) : Good q (State.fenceThread s t cause) := by
  unfold State.fenceThread
  with_reducible repeat' first | assumption | intro _ | apply good_ite | apply good_id | apply good_foldl | apply good_mapGetD | apply good_raise | apply good_fence | apply good_fenceOut | fail_if_no_progress apply good_upd | dsimp only | split

theorem good_fenceIdleEngine {q : List Instr} (s : State) (c : Nat) (p : Nat) (cause : Nat) (hs : Good q s) : Good q (State.fenceIdleEngine s c p cause) := by
  unfold State.fenceIdleEngine
  with_reducible repeat' first | assumption | intro _ | apply good_ite | apply good_id | apply good_foldl | apply good_mapGetD | apply good_each | apply good_fenceOut | apply good_raise | apply good_fence | fail_if_no_progress apply good_upd | dsimp only | split

theorem good_fenceCluster {q : List Instr} (s : State) (c : Nat) (cause : Nat) (cls : ErrClass) (hs : Good q s) : Good q (State.fenceCluster s c cause cls) := by
  unfold State.fenceCluster
  with_reducible repeat' first | assumption | intro _ | apply good_ite | apply good_id | apply good_foldl | apply good_mapGetD | apply good_each | apply good_fenceOut | apply good_raise | apply good_fence | apply good_wr | fail_if_no_progress apply good_upd | dsimp only | split

theorem good_fenceEngine {q : List Instr} (s : State) (c : Nat) (e : Nat) (cause : Nat) (hs : Good q s) : Good q (State.fenceEngine s c e cause) := by
  unfold State.fenceEngine
  with_reducible repeat' first | assumption | intro _ | apply good_ite | apply good_id | apply good_foldl | apply good_mapGetD | apply good_fenceCluster | apply good_each | apply good_fenceOut | apply good_wr | apply good_raise | apply good_fence | fail_if_no_progress apply good_upd | dsimp only | split

theorem good_decide_ {q : List Instr} (s : State) (action : Nat) (d : Decision) (hs : Good q s) : Good q (State.decide_ s action d) := by
  unfold State.decide_
  with_reducible repeat' first | assumption | intro _ | apply good_ite | apply good_id | apply good_foldl | apply good_mapGetD | apply good_resume | apply good_abortThread | apply good_fenceThread | apply good_fenceIdleEngine | apply good_fenceEngine | apply good_toBarista | apply good_modThread | fail_if_no_progress apply good_upd | dsimp only | split

theorem good_baristaDecides {q : List Instr} (s : State) (action : Nat) (d : Decision) (hs : Good q s) : Good q (State.baristaDecides s action d) := by
  unfold State.baristaDecides
  with_reducible repeat' first | assumption | intro _ | apply good_ite | apply good_id | apply good_foldl | apply good_mapGetD | apply good_decide_ | fail_if_no_progress apply good_upd | dsimp only | split

theorem good_supRow {q : List Instr} (s : State) (c : Nat) (action : Nat) (barista : Option Decision) (hs : Good q s) : Good q (State.supRow s c action barista) := by
  unfold State.supRow
  with_reducible repeat' first | assumption | intro _ | apply good_ite | apply good_id | apply good_foldl | apply good_mapGetD | apply good_baristaDecides | apply good_reply | apply good_accepted | apply good_decide_ | fail_if_no_progress apply good_upd | dsimp only | split

theorem good_execSupEscalate {q : List Instr} (c : Nat) (s : State) (hs : Good q s) : GoodT q (execSupEscalate c s) := by
  unfold execSupEscalate
  with_reducible repeat' first | assumption | intro _ | apply goodT_next | apply goodT_ite | apply goodP_ite | apply good_ite | apply good_id | apply good_foldl | apply good_mapGetD | apply good_supRow | fail_if_no_progress apply good_upd | simp only [goodP_iff] | dsimp only | split

theorem good_posted {q : List Instr} (s : State) (m : ChanMsg) (hs : Good q s) : Good q (State.posted s m) := by
  unfold State.posted
  with_reducible repeat' first | assumption | intro _ | apply good_ite | apply good_id | apply good_foldl | apply good_mapGetD | apply good_modThread | fail_if_no_progress apply good_upd | dsimp only | split

theorem good_putBack {q : List Instr} (s : State) (mem : List (Nat × Nat × Byte)) (hs : Good q s) : Good q (s.putBack mem) := by
  unfold State.putBack
  refine good_each _ _ _ hs (fun b u hu => ?_)
  split
  · exact good_localMem hu (memCanon_set _ _ _ hu.2.2.2.2.2.2.2.1)
  · exact good_tsram hu (memCanon_set _ _ _ hu.2.2.2.2.2.2.2.2.1)
  · exact good_hbmMem hu (memCanon_set _ _ _ hu.2.2.2.2.2.2.2.2.2.1)

theorem good_unpost {q : List Instr} (s : State) (t : Nat) (m : ChanMsg) (hs : Good q s) : Good q (State.unpost s t m) := by
  unfold State.unpost
  with_reducible repeat' first | assumption | intro _ | apply good_ite | apply good_id | apply good_foldl | apply good_mapGetD | apply good_modThread | apply good_putBack | fail_if_no_progress apply good_upd | dsimp only | split

theorem good_hostFault {q : List Instr} (s : State) (m : ChanMsg) (f : Nat) (pasid : Option Nat) (addr : Nat) (write : Bool) (hs : Good q s) : Good q (State.hostFault s m f pasid addr write) := by
  unfold State.hostFault
  with_reducible repeat' first | assumption | intro _ | apply good_ite | apply good_id | apply good_foldl | apply good_mapGetD | apply good_modThread | apply good_unpost | apply good_pageRequest | apply good_faultLater | apply good_pageFailed | fail_if_no_progress apply good_upd | apply goodO_getD | (apply goodO_elim; assumption) | dsimp only | split

theorem good_execHostAccessRequest {q : List Instr} (c : Nat) (reply : HostReply) (s : State) (hs : Good q s) : GoodT q (execHostAccessRequest c reply s) := by
  unfold execHostAccessRequest
  with_reducible repeat' first | assumption | intro _ | apply goodT_next | apply goodT_ite | apply goodP_ite | apply good_ite | apply good_id | apply good_foldl | apply good_mapGetD | apply good_accepted | apply good_hostFault | apply good_posted | apply good_reply | apply good_used | apply good_hostWrite | apply good_sendRead | apply good_when | apply good_atsUse | apply good_readFailed | fail_if_no_progress apply good_upd | simp only [goodP_iff] | dsimp only | split

theorem good_answerSup {q : List Instr} (s : State) (c : Nat) (hs : Good q s) : Good q (State.answerSup s c) := by
  unfold State.answerSup
  with_reducible repeat' first | assumption | intro _ | apply good_ite | apply good_id | apply good_foldl | apply good_mapGetD | fail_if_no_progress apply good_upd | dsimp only | split

theorem good_repairRom {q : List Instr} (s : State) (c : Nat) (bank : Nat) (k : Nat) (a : Nat) (p : Nat) (hs : Good q s) : Good q (State.repairRom s c bank k a p) := by
  unfold State.repairRom
  with_reducible repeat' first | assumption | intro _ | apply good_ite | apply good_id | apply good_foldl | apply good_mapGetD | apply good_wr | fail_if_no_progress apply good_upd | dsimp only | split

theorem good_execCsEccRepair {q : List Instr} (c : Nat) (bank : Nat) (a : Nat) (patch : Nat × Nat) (s : State) (hs : Good q s) : GoodT q (execCsEccRepair c bank a patch s) := by
  unfold execCsEccRepair
  with_reducible repeat' first | assumption | intro _ | apply goodT_next | apply goodT_ite | apply goodP_ite | apply good_ite | apply good_id | apply good_foldl | apply good_mapGetD | apply good_answerSup | apply good_countError | apply good_repairRom | apply good_fenceCluster | fail_if_no_progress apply good_upd | simp only [goodP_iff] | dsimp only | split

theorem good_noteLoad {q : List Instr} (s : State) (pipe : Nat) (hs : Good q s) : Good q (State.noteLoad s pipe) := by
  unfold State.noteLoad
  with_reducible repeat' first | assumption | intro _ | apply good_ite | apply good_id | apply good_foldl | apply good_mapGetD | apply good_each | apply good_when | fail_if_no_progress apply good_upd | dsimp only | split

theorem good_execSupFenceEngine {q : List Instr} (c : Nat) (barista : Option Decision) (s : State) (hs : Good q s) : GoodT q (execSupFenceEngine c barista s) := by
  unfold execSupFenceEngine
  with_reducible repeat' first | assumption | intro _ | apply goodT_next | apply goodT_ite | apply goodP_ite | apply good_ite | apply good_id | apply good_foldl | apply good_mapGetD | apply good_supRow | fail_if_no_progress apply good_upd | simp only [goodP_iff] | dsimp only | split

theorem good_debugPut {q : List Instr} (s : State) (t : Nat) (o : Nat) (v : Nat) (hs : Good q s) : Good q (State.debugPut s t o v) := by
  unfold State.debugPut
  with_reducible repeat' first | assumption | intro _ | apply good_ite | apply good_id | apply good_foldl | apply good_mapGetD | apply good_modThread | apply good_writeOp | fail_if_no_progress apply good_upd | dsimp only | split

theorem good_debugWrite {q : List Instr} (s : State) (t : Nat) (o : Nat) (w : Width) (v : Nat) (hs : Good q s) : Good q (State.debugWrite s t o w v) := by
  unfold State.debugWrite
  with_reducible repeat' first | assumption | intro _ | apply good_ite | apply good_id | apply good_foldl | apply good_mapGetD | apply good_debugPut | apply good_logFwWrite | fail_if_no_progress apply good_upd | dsimp only | split

theorem good_recall {q : List Instr} (s : State) (t : Nat) (hs : Good q s) : Good q (State.recall s t) := by
  unfold State.recall
  with_reducible repeat' first | assumption | intro _ | apply good_ite | apply good_id | apply good_foldl | apply good_mapGetD | apply good_modThread | fail_if_no_progress apply good_upd | dsimp only | split

theorem good_number {q : List Instr} (s : State) (h : Nat) (p : Packet) (hs : Good q s) : Good q (State.number s h p) := by
  unfold State.number
  with_reducible repeat' first | assumption | intro _ | apply good_ite | apply good_id | apply good_foldl | apply good_mapGetD | apply good_setPkt | fail_if_no_progress apply good_upd | dsimp only | split

theorem good_execSupFenceThread {q : List Instr} (c : Nat) (barista : Option Decision) (s : State) (hs : Good q s) : GoodT q (execSupFenceThread c barista s) := by
  unfold execSupFenceThread
  with_reducible repeat' first | assumption | intro _ | apply goodT_next | apply goodT_ite | apply goodP_ite | apply good_ite | apply good_id | apply good_foldl | apply good_mapGetD | apply good_supRow | fail_if_no_progress apply good_upd | simp only [goodP_iff] | dsimp only | split

theorem good_execJtagRelease {q : List Instr} (s : State) (hs : Good q s) : GoodT q (execJtagRelease s) := by
  unfold execJtagRelease
  with_reducible repeat' first | assumption | intro _ | apply goodT_next | apply goodT_ite | apply goodP_ite | apply good_ite | apply good_id | apply good_foldl | apply good_mapGetD | apply good_raise | apply good_each | apply good_wr | fail_if_no_progress apply good_upd | simp only [goodP_iff] | dsimp only | split

theorem good_copyToManager {q : List Instr} (s : State) (p : Packet) (hs : Good q s) : Good q (State.copyToManager s p) := by
  unfold State.copyToManager
  with_reducible repeat' first | assumption | intro _ | apply good_ite | apply good_id | apply good_foldl | apply good_mapGetD | apply good_addPkt | fail_if_no_progress apply good_upd | dsimp only | split

theorem good_countDrop {q : List Instr} (s : State) (pipe : Nat) (reason : Nat) (hs : Good q s) : Good q (State.countDrop s pipe reason) := by
  unfold State.countDrop
  with_reducible repeat' first | assumption | intro _ | apply good_ite | apply good_id | apply good_foldl | apply good_mapGetD | apply good_count | fail_if_no_progress apply good_upd | dsimp only | split

theorem good_execReorderRelease {q : List Instr} (h : Nat) (s : State) (hs : Good q s) : GoodT q (execReorderRelease h s) := by
  unfold execReorderRelease
  with_reducible repeat' first | assumption | intro _ | apply goodT_next | apply goodT_ite | apply goodP_ite | apply good_ite | apply good_id | apply good_foldl | apply good_mapGetD | apply good_retire | apply good_dropPkt | apply good_discard | apply good_count | apply good_when | apply good_copyToManager | apply good_countDrop | apply good_endPkt | apply good_moveTo | apply good_wake | fail_if_no_progress apply good_upd | simp only [goodP_iff] | dsimp only | split

theorem good_execDebugWindowWrite {q : List Instr} (fn : Nat) (t : Nat) (o : Nat) (w : Width) (v : Nat) (s : State) (hs : Good q s) : GoodT q (execDebugWindowWrite fn t o w v s) := by
  unfold execDebugWindowWrite
  with_reducible repeat' first | assumption | intro _ | apply goodT_next | apply goodT_ite | apply goodP_ite | apply good_ite | apply good_id | apply good_foldl | apply good_mapGetD | apply good_asManager | apply good_debugWrite | fail_if_no_progress apply good_upd | simp only [goodP_iff] | dsimp only | split

theorem good_execSupResume {q : List Instr} (c : Nat) (barista : Option Decision) (s : State) (hs : Good q s) : GoodT q (execSupResume c barista s) := by
  unfold execSupResume
  with_reducible repeat' first | assumption | intro _ | apply goodT_next | apply goodT_ite | apply goodP_ite | apply good_ite | apply good_id | apply good_foldl | apply good_mapGetD | apply good_supRow | fail_if_no_progress apply good_upd | simp only [goodP_iff] | dsimp only | split

theorem good_bind {q : List Instr} (s : State) (t : Nat) (h : Nat) (p : Packet) (hs : Good q s) : Good q (State.bind s t h p) := by
  unfold State.bind
  with_reducible repeat' first | assumption | intro _ | apply good_ite | apply good_id | apply good_foldl | apply good_mapGetD | apply good_modThread | fail_if_no_progress apply good_upd | dsimp only | split

theorem good_execDispatch {q : List Instr} (pipe : Nat) (s : State) (hs : Good q s) : GoodT q (execDispatch pipe s) := by
  unfold execDispatch
  with_reducible repeat' first | assumption | intro _ | apply goodT_next | apply goodT_ite | apply goodP_ite | apply good_ite | apply good_id | apply good_foldl | apply good_mapGetD | apply good_dropPkt | apply good_discard | apply good_retire | apply good_number | apply good_noteLoad | apply good_toVerdict | apply good_count | apply good_bind | apply good_moveTo | fail_if_no_progress apply good_upd | simp only [goodP_iff] | dsimp only | split

theorem good_execAllWait {q : List Instr} (c : Nat) (e : Nat) (s : State) (hs : Good q s) : GoodT q (execAllWait c e s) := by
  unfold execAllWait
  with_reducible repeat' first | assumption | intro _ | apply goodT_next | apply goodT_ite | apply goodP_ite | apply good_ite | apply good_id | apply good_foldl | apply good_mapGetD | apply good_raise | apply good_count | apply good_toBarista | fail_if_no_progress apply good_upd | simp only [goodP_iff] | dsimp only | split

theorem good_execRunLimitExpire {q : List Instr} (t : Nat) (s : State) (hs : Good q s) : GoodT q (execRunLimitExpire t s) := by
  unfold execRunLimitExpire
  with_reducible repeat' first | assumption | intro _ | apply goodT_next | apply goodT_ite | apply goodP_ite | apply good_ite | apply good_id | apply good_foldl | apply good_mapGetD | apply good_fault | fail_if_no_progress apply good_upd | simp only [goodP_iff] | dsimp only | split

theorem good_execSupAbort {q : List Instr} (c : Nat) (barista : Option Decision) (s : State) (hs : Good q s) : GoodT q (execSupAbort c barista s) := by
  unfold execSupAbort
  with_reducible repeat' first | assumption | intro _ | apply goodT_next | apply goodT_ite | apply goodP_ite | apply good_ite | apply good_id | apply good_foldl | apply good_mapGetD | apply good_supRow | fail_if_no_progress apply good_upd | simp only [goodP_iff] | dsimp only | split

theorem good_xlateFails {q : List Instr} (s : State) (t : Nat) (hs : Good q s) : Good q (State.xlateFails s t) := by
  unfold State.xlateFails
  with_reducible repeat' first | assumption | intro _ | apply good_ite | apply good_id | apply good_foldl | apply good_mapGetD | apply good_fault | apply good_recall | apply good_modThread | fail_if_no_progress apply good_upd | dsimp only | split

theorem good_execSupTimeout {q : List Instr} (t : Nat) (s : State) (hs : Good q s) : GoodT q (execSupTimeout t s) := by
  unfold execSupTimeout
  with_reducible repeat' first | assumption | intro _ | apply goodT_next | apply goodT_ite | apply goodP_ite | apply good_ite | apply good_id | apply good_foldl | apply good_mapGetD | apply good_raise | apply good_toBarista | apply good_abortThread | fail_if_no_progress apply good_upd | simp only [goodP_iff] | dsimp only | split

theorem good_execJtagClaim {q : List Instr} (s : State) (hs : Good q s) : GoodT q (execJtagClaim s) := by
  unfold execJtagClaim
  with_reducible repeat' first | assumption | intro _ | apply goodT_next | apply goodT_ite | apply goodP_ite | apply good_ite | apply good_id | apply good_foldl | apply good_mapGetD | apply good_raise | apply good_each | apply good_wr | fail_if_no_progress apply good_upd | simp only [goodP_iff] | dsimp only | split

end Sys2Proof.Machine
end

