-- ==== Sys2Proof/Laws/KeepsNodes.lean ====
section
/-! SUPPORT. The operations of Nodes.lean keep the queue and the invariant. -/

set_option linter.unusedTactic false
set_option linter.unreachableTactic false
set_option linter.unusedSimpArgs false
set_option linter.unusedVariables false

namespace Sys2Proof.Machine

theorem good_modNode {q : List Instr} (s : State) (level : Nat) (i : Nat) (g : Node → Node) (hs : Good q s) : Good q (State.modNode s level i g) := by
  unfold State.modNode
  with_reducible repeat' first | assumption | intro _ | apply good_ite | apply good_id | apply good_foldl | apply good_mapGetD | fail_if_no_progress apply good_upd | dsimp only | split

theorem good_accrue {q : List Instr} (s : State) (level : Nat) (i : Nat) (hs : Good q s) : Good q (State.accrue s level i) := by
  unfold State.accrue
  with_reducible repeat' first | assumption | intro _ | apply good_ite | apply good_id | apply good_foldl | apply good_mapGetD | apply good_modNode | fail_if_no_progress apply good_upd | dsimp only | split

theorem good_queuesSync {q : List Instr} (s : State) (hs : Good q s) : Good q (State.queuesSync s) := by
  unfold State.queuesSync
  with_reducible repeat' first | assumption | intro _ | apply good_ite | apply good_id | apply good_foldl | apply good_mapGetD | apply good_wr | fail_if_no_progress apply good_upd | dsimp only | split

theorem good_writeNode {q : List Instr} (s : State) (level : Nat) (i : Nat) (cfg : Bytes) (hs : Good q s) : Good q (State.writeNode s level i cfg) := by
  unfold State.writeNode
  with_reducible repeat' first | assumption | intro _ | apply good_ite | apply good_id | apply good_foldl | apply good_mapGetD | apply good_accrue | apply good_modNode | apply good_when | apply good_unfence | apply good_queuesSync | fail_if_no_progress apply good_upd | dsimp only | split

theorem good_adopt {q : List Instr} (s : State) (port : Nat) (hs : Good q s) : Good q (State.adopt s port) := by
  unfold State.adopt
  with_reducible repeat' first | assumption | intro _ | apply good_ite | apply good_id | apply good_foldl | apply good_mapGetD | apply good_each | apply good_modNode | apply good_accrue | fail_if_no_progress apply good_upd | dsimp only | split

end Sys2Proof.Machine
end

