-- ==== Sys2Proof/Laws/KeepsFrer.lean ====
section
/-! SUPPORT. The operations of Frer.lean keep the queue and the invariant. -/

set_option linter.unusedTactic false
set_option linter.unreachableTactic false
set_option linter.unusedSimpArgs false
set_option linter.unusedVariables false

namespace Sys2Proof.Machine

theorem good_mmSync {q : List Instr} (s : State) (hs : Good q s) : Good q (State.mmSync s) := by
  unfold State.mmSync
  with_reducible repeat' first | assumption | intro _ | apply good_ite | apply good_id | apply good_foldl | apply good_mapGetD | apply good_each | apply good_put | fail_if_no_progress apply good_upd | dsimp only | split

theorem good_mmPop {q : List Instr} (s : State) (v : Nat) (hs : Good q s) : Good q (s.mmPop v) := by
  have h := hs.2.2.2.2.2.1
  unfold State.mmPop
  split
  · exact good_mmSync _ (good_mmLog hs (by simp only [List.length_drop]; omega))
  · exact hs

theorem good_execFrerMmPop {q : List Instr} (fn : Nat) (v : Nat) (s : State) (hs : Good q s) : GoodT q (execFrerMmPop fn v s) := by
  unfold execFrerMmPop
  with_reducible repeat' first | assumption | intro _ | apply goodT_next | apply goodT_ite | apply goodP_ite | apply good_ite | apply good_id | apply good_foldl | apply good_mapGetD | apply good_asManager | apply good_mmPop | fail_if_no_progress apply good_upd | simp only [goodP_iff] | dsimp only | split

theorem good_compareDigest {q : List Instr} (s : State) (c seq digest port stamp : Nat) (hs : Good q s) :
    Good q (s.compareDigest c seq digest port stamp) := by
  unfold State.compareDigest
  split
  · exact good_count _ _ _ _ hs
  · split
    · exact hs
    · split
      · exact good_raise _ _ (good_mmSync _ (good_mmLog hs (by simp only [List.length_append, List.length_singleton]; omega)))
      · exact good_raise _ _ (good_raise _ _ (good_count _ _ _ _ hs))

theorem good_ctxCount {q : List Instr} (s : State) (c : Nat) (k : Nat) (n : Nat) (hs : Good q s) : Good q (State.ctxCount s c k n) := by
  unfold State.ctxCount
  with_reducible repeat' first | assumption | intro _ | apply good_ite | apply good_id | apply good_foldl | apply good_mapGetD | apply good_countBy | fail_if_no_progress apply good_upd | dsimp only | split

theorem good_frerIdentify {q : List Instr} (s : State) (port : Nat) (f : Bytes) (hs : Good q s) : GoodP q (State.frerIdentify s port f) := by
  unfold State.frerIdentify
  with_reducible repeat' first | assumption | intro _ | apply goodP_ite | apply good_ite | apply good_id | apply good_foldl | apply good_mapGetD | apply good_when | apply good_raiseMs | apply good_count | fail_if_no_progress apply good_upd | simp only [goodP_iff] | dsimp only | split

theorem good_modCtx {q : List Instr} (s : State) (c : Nat) (g : FrerCtx → FrerCtx) (hs : Good q s) : Good q (State.modCtx s c g) := by
  unfold State.modCtx
  with_reducible repeat' first | assumption | intro _ | apply good_ite | apply good_id | apply good_foldl | apply good_mapGetD | fail_if_no_progress apply good_upd | dsimp only | split

theorem good_execFrerRecoveryTimeout {q : List Instr} (c : Nat) (s : State) (hs : Good q s) : GoodT q (execFrerRecoveryTimeout c s) := by
  unfold execFrerRecoveryTimeout
  with_reducible repeat' first | assumption | intro _ | apply goodT_next | apply goodT_ite | apply goodP_ite | apply good_ite | apply good_id | apply good_foldl | apply good_mapGetD | apply good_raise | apply good_modCtx | fail_if_no_progress apply good_upd | simp only [goodP_iff] | dsimp only | split

theorem good_memberSeen {q : List Instr} (s : State) (m : Nat) (stamp : Nat) (hs : Good q s) : Good q (State.memberSeen s m stamp) := by
  unfold State.memberSeen
  with_reducible repeat' first | assumption | intro _ | apply good_ite | apply good_id | apply good_foldl | apply good_mapGetD | apply good_put | apply good_add | fail_if_no_progress apply good_upd | dsimp only | split

theorem good_frerPass {q : List Instr} (s : State) (h : Nat) (c : Nat) (p : Packet) (strip : Bool) (hs : Good q s) : Good q (State.frerPass s h c p strip) := by
  unfold State.frerPass
  with_reducible repeat' first | assumption | intro _ | apply good_ite | apply good_id | apply good_foldl | apply good_mapGetD | apply good_modCtx | apply good_ctxCount | apply good_endPkt | apply good_cellCheck | apply good_setPkt | fail_if_no_progress apply good_upd | dsimp only | split

theorem good_frerTagless {q : List Instr} (s : State) (h : Nat) (c : Nat) (p : Packet) (hs : Good q s) : Good q (State.frerTagless s h c p) := by
  unfold State.frerTagless
  with_reducible repeat' first | assumption | intro _ | apply good_ite | apply good_id | apply good_foldl | apply good_mapGetD | apply good_ctxCount | apply good_frerPass | apply good_freePkt | apply good_raiseMs | fail_if_no_progress apply good_upd | dsimp only | split

theorem good_frerSeq {q : List Instr} (s : State) (h : Nat) (c : Nat) (seq : Nat) (p : Packet) (hs : Good q s) : Good q (State.frerSeq s h c seq p) := by
  unfold State.frerSeq
  with_reducible repeat' first | assumption | intro _ | apply good_ite | apply good_id | apply good_foldl | apply good_mapGetD | apply good_when | apply good_ctxCount | apply good_modCtx | apply good_raiseMs | apply good_freePkt | apply good_compareDigest | apply good_frerPass | fail_if_no_progress apply good_upd | dsimp only | split

theorem good_frerDecide {q : List Instr} (s : State) (h : Nat) (p : Packet) (hs : Good q s) : Good q (State.frerDecide s h p) := by
  unfold State.frerDecide
  with_reducible repeat' first | assumption | intro _ | apply good_ite | apply good_id | apply good_foldl | apply good_mapGetD | apply good_memberSeen | apply good_setPkt | apply good_when | apply good_raiseMs | apply good_count | apply good_frerTagless | apply good_frerSeq | fail_if_no_progress apply good_upd | dsimp only | split

theorem good_execFrerRxDecision {q : List Instr} (h : Nat) (s : State) (hs : Good q s) : GoodT q (execFrerRxDecision h s) := by
  unfold execFrerRxDecision
  with_reducible repeat' first | assumption | intro _ | apply goodT_next | apply goodT_ite | apply goodP_ite | apply good_ite | apply good_id | apply good_foldl | apply good_mapGetD | apply good_frerDecide | apply good_each | fail_if_no_progress apply good_upd | simp only [goodP_iff] | dsimp only | split

theorem good_takeSeq {q : List Instr} (s : State) (c : Nat) (hs : Good q s) : GoodP q (State.takeSeq s c) := by
  unfold State.takeSeq
  with_reducible repeat' first | assumption | intro _ | apply goodP_ite | apply good_ite | apply good_id | apply good_foldl | apply good_mapGetD | apply good_ctxCount | apply good_modCtx | fail_if_no_progress apply good_upd | simp only [goodP_iff] | dsimp only | split

end Sys2Proof.Machine
end

