-- ==== Sys2Proof/Laws/KeepsRelease.lean ====
section
/-! SUPPORT. The operations of Release.lean keep the queue and the invariant. -/

set_option linter.unusedTactic false
set_option linter.unreachableTactic false
set_option linter.unusedSimpArgs false
set_option linter.unusedVariables false

namespace Sys2Proof.Machine

theorem good_relCfg {q : List Instr} (s : State) (v : Nat) (hs : Good q s) : Good q (State.relCfg s v) := by
  unfold State.relCfg
  with_reducible repeat' first | assumption | intro _ | apply good_ite | apply good_id | apply good_foldl | apply good_mapGetD | apply good_logFwWrite | apply good_put | apply good_wr | apply goodP_foldl | fail_if_no_progress apply good_upd | simp only [goodP_iff] | dsimp only | split

theorem good_police {q : List Instr} (s : State) (g : Nat) (k : Nat) (e : Nat) (len : Nat) (hs : Good q s) : GoodO q (State.police s g k e len) := by
  unfold State.police
  with_reducible repeat' first | assumption | intro _ | apply goodO_some | apply goodO_none | apply goodO_ite | apply good_ite | apply good_id | apply good_foldl | apply good_mapGetD | apply goodP_foldl | fail_if_no_progress apply good_upd | simp only [goodP_iff] | dsimp only | split

theorem good_copyPkt {q : List Instr} (s : State) (h : Nat) (p : Packet) (hs : Good q s) : GoodP q (State.copyPkt s h p) := by
  unfold State.copyPkt
  with_reducible repeat' first | assumption | intro _ | apply goodP_ite | apply good_ite | apply good_id | apply good_foldl | apply good_mapGetD | apply good_setJob | apply good_addPkt | apply goodP_foldl | fail_if_no_progress apply good_upd | simp only [goodP_iff] | dsimp only | split

theorem good_flushFrame {q : List Instr} (s : State) (half : Nat) (h : Nat) (hs : Good q s) : Good q (State.flushFrame s half h) := by
  unfold State.flushFrame
  with_reducible repeat' first | assumption | intro _ | apply good_ite | apply good_id | apply good_foldl | apply good_mapGetD | apply good_dropPkt | apply good_count | apply goodP_foldl | fail_if_no_progress apply good_upd | simp only [goodP_iff] | dsimp only | split

theorem good_tmDrop {q : List Instr} (s : State) (half : Nat) (k : Nat) (ev : Nat → Nat) (h : Nat) (status : Nat) (hs : Good q s) : Good q (State.tmDrop s half k ev h status) := by
  unfold State.tmDrop
  with_reducible repeat' first | assumption | intro _ | apply good_ite | apply good_id | apply good_foldl | apply good_mapGetD | apply good_dropPkt | apply good_raiseMs | apply good_count | apply goodP_foldl | fail_if_no_progress apply good_upd | simp only [goodP_iff] | dsimp only | split

theorem good_demandWhole {q : List Instr} (s : State) (h : Nat) (hs : Good q s) : Good q (State.demandWhole s h) := by
  unfold State.demandWhole
  with_reducible repeat' first | assumption | intro _ | apply good_ite | apply good_id | apply good_foldl | apply good_mapGetD | apply good_setPkt | apply goodP_foldl | fail_if_no_progress apply good_upd | simp only [goodP_iff] | dsimp only | split

theorem good_joinQueue {q : List Instr} (s : State) (h : Nat) (q_ : Nat) (p : Packet) (hs : Good q s) : Good q (State.joinQueue s h q_ p) := by
  unfold State.joinQueue
  with_reducible repeat' first | assumption | intro _ | apply good_ite | apply good_id | apply good_foldl | apply good_mapGetD | apply good_when | apply good_setPkt | apply good_fcCheck | apply good_count | apply good_modNode | apply good_demandWhole | apply good_raiseMs | apply goodP_foldl | fail_if_no_progress apply good_upd | simp only [goodP_iff] | dsimp only | split

theorem good_enqAdmit {q : List Instr} (s : State) (h : Nat) (q_ : Nat) (hs : Good q s) : Good q (State.enqAdmit s h q_) := by
  unfold State.enqAdmit
  with_reducible repeat' first | assumption | intro _ | apply good_ite | apply good_id | apply good_foldl | apply good_mapGetD | apply good_tmDrop | apply good_modNode | apply good_joinQueue | apply goodP_foldl | fail_if_no_progress apply good_upd | simp only [goodP_iff] | dsimp only | split

theorem good_enterOne {q : List Instr} (s : State) (h : Nat) (q_ : Nat) (hs : Good q s) : Good q (State.enterOne s h q_) := by
  unfold State.enterOne
  with_reducible repeat' first | assumption | intro _ | apply good_ite | apply good_id | apply good_foldl | apply good_mapGetD | apply good_dropPkt | apply good_count | apply good_discard | apply good_tmDrop | apply good_enqAdmit | apply goodP_foldl | fail_if_no_progress apply good_upd | simp only [goodP_iff] | dsimp only | split

theorem good_enterQueue {q : List Instr} (s : State) (h : Nat) (q_ : Nat) (hs : Good q s) : Good q (State.enterQueue s h q_) := by
  unfold State.enterQueue
  with_reducible repeat' first | assumption | intro _ | apply good_ite | apply good_id | apply good_foldl | apply good_mapGetD | apply good_flushFrame | apply good_enterOne | apply good_takeSeq | apply good_setPkt | apply good_copyPkt | apply goodP_foldl | fail_if_no_progress apply good_upd | simp only [goodP_iff] | apply goodP_fst | (apply goodP_elim; assumption) | dsimp only | split

theorem good_toQueue {q : List Instr} (s : State) (h : Nat) (q_ : Nat) (ring : Nat) (hs : Good q s) : Good q (State.toQueue s h q_ ring) := by
  unfold State.toQueue
  with_reducible repeat' first | assumption | intro _ | apply good_ite | apply good_id | apply good_foldl | apply good_mapGetD | apply good_setPkt | apply good_enterQueue | apply goodP_foldl | fail_if_no_progress apply good_upd | simp only [goodP_iff] | dsimp only | split

theorem good_enterCopies {q : List Instr} (s : State) (h : Nat) (p : Packet) (targets : List (Nat × Nat)) (hs : Good q s) : Good q (State.enterCopies s h p targets) := by
  unfold State.enterCopies
  with_reducible repeat' first | assumption | intro _ | apply good_ite | apply good_id | apply good_foldl | apply good_mapGetD | apply good_copyPkt | apply good_each | apply good_toQueue | apply goodP_foldl | fail_if_no_progress apply good_upd | simp only [goodP_iff] | apply goodP_fst | (apply goodP_elim; assumption) | dsimp only | split

theorem good_relDevice {q : List Instr} (s : State) (v : Nat) (hs : Good q s) : Good q (State.relDevice s v) := by
  unfold State.relDevice
  with_reducible repeat' first | assumption | intro _ | apply good_ite | apply good_id | apply good_foldl | apply good_mapGetD | apply good_logFwWrite | apply good_journalCfg | apply good_put | apply goodP_foldl | fail_if_no_progress apply good_upd | simp only [goodP_iff] | dsimp only | split

theorem good_execRelDeviceWrite {q : List Instr} (fn : Nat) (v : Nat) (s : State) (hs : Good q s) : GoodT q (execRelDeviceWrite fn v s) := by
  unfold execRelDeviceWrite
  with_reducible repeat' first | assumption | intro _ | apply goodT_next | apply goodT_ite | apply goodP_ite | apply good_ite | apply good_id | apply good_foldl | apply good_mapGetD | apply good_asManager | apply good_relDevice | apply goodP_foldl | fail_if_no_progress apply good_upd | simp only [goodP_iff] | dsimp only | split

theorem good_relSync {q : List Instr} (s : State) (g : Nat) (hs : Good q s) : Good q (State.relSync s g) := by
  unfold State.relSync
  with_reducible repeat' first | assumption | intro _ | apply good_ite | apply good_id | apply good_foldl | apply good_mapGetD | apply good_put | apply good_when | apply good_raise | apply good_wr | apply goodP_foldl | fail_if_no_progress apply good_upd | simp only [goodP_iff] | dsimp only | split

theorem good_releaseNow {q : List Instr} (s : State) (h : Nat) (g : Nat) (hs : Good q s) : Good q (State.releaseNow s h g) := by
  unfold State.releaseNow
  with_reducible repeat' first | assumption | intro _ | apply good_ite | apply good_id | apply good_foldl | apply good_mapGetD | apply good_relSync | apply good_dropPkt | apply good_raiseMs | apply good_count | apply good_cellCheck | apply good_setPkt | apply good_enterQueue | apply goodP_foldl | fail_if_no_progress apply good_upd | simp only [goodP_iff] | dsimp only | split

theorem good_spill {q : List Instr} (s : State) (a1 : Nat) (hs : Good q s) : Good q (State.spill s a1) := by
  induction a1 generalizing s with
  | zero =>
    unfold State.spill
    with_reducible repeat' first | assumption | intro _ | apply good_ite | apply good_id | apply good_foldl | apply good_mapGetD | apply good_setPkt | apply goodP_foldl | fail_if_no_progress apply good_upd | simp only [goodP_iff] | dsimp only | split
  | succ n ih =>
    unfold State.spill
    with_reducible repeat' first | assumption | intro _ | apply ih | apply good_ite | apply good_id | apply good_foldl | apply good_mapGetD | apply good_setPkt | apply goodP_foldl | fail_if_no_progress apply good_upd | simp only [goodP_iff] | dsimp only | split

theorem good_holdFrame {q : List Instr} (s : State) (h : Nat) (g : Nat) (p : Packet) (hs : Good q s) : Good q (State.holdFrame s h g p) := by
  unfold State.holdFrame
  with_reducible repeat' first | assumption | intro _ | apply good_ite | apply good_id | apply good_foldl | apply good_mapGetD | apply good_freePkt | apply good_setPkt | apply good_releaseNow | apply good_raiseMs | apply good_count | apply good_dropPkt | apply good_when | apply good_fcCheck | apply good_relSync | apply good_spill | apply goodP_foldl | fail_if_no_progress apply good_upd | simp only [goodP_iff] | dsimp only | split

theorem good_unspill {q : List Instr} (s : State) (h : Nat) (g : Nat) (p : Packet) (hs : Good q s) : Good q (State.unspill s h g p) := by
  unfold State.unspill
  with_reducible repeat' first | assumption | intro _ | apply good_ite | apply good_id | apply good_foldl | apply good_mapGetD | apply good_setPkt | apply good_relSync | apply good_spill | apply goodP_foldl | fail_if_no_progress apply good_upd | simp only [goodP_iff] | dsimp only | split

theorem good_releaseFloor {q : List Instr} (s : State) (g : Nat) (f : Nat) (a3 : Nat) (hs : Good q s) : Good q (State.releaseFloor s g f a3) := by
  induction a3 generalizing s g f with
  | zero =>
    unfold State.releaseFloor
    with_reducible repeat' first | assumption | intro _ | apply good_ite | apply good_id | apply good_foldl | apply good_mapGetD | apply good_releaseNow | apply good_raiseMs | apply good_count | apply good_setPkt | apply goodP_foldl | fail_if_no_progress apply good_upd | simp only [goodP_iff] | dsimp only | split
  | succ n ih =>
    unfold State.releaseFloor
    with_reducible repeat' first | assumption | intro _ | apply ih | apply good_ite | apply good_id | apply good_foldl | apply good_mapGetD | apply good_releaseNow | apply good_raiseMs | apply good_count | apply good_setPkt | apply goodP_foldl | fail_if_no_progress apply good_upd | simp only [goodP_iff] | dsimp only | split

theorem good_returnDue {q : List Instr} (s : State) (hs : Good q s) : Good q (State.returnDue s) := by
  unfold State.returnDue
  with_reducible repeat' first | assumption | intro _ | apply good_ite | apply good_id | apply good_foldl | apply good_mapGetD | apply good_each | apply good_relSync | apply good_setPkt | apply goodP_foldl | fail_if_no_progress apply good_upd | simp only [goodP_iff] | dsimp only | split

theorem good_execMirFloorLapse {q : List Instr} (g : Nat) (s : State) (hs : Good q s) : GoodT q (execMirFloorLapse g s) := by
  unfold execMirFloorLapse
  with_reducible repeat' first | assumption | intro _ | apply goodT_next | apply goodT_ite | apply goodP_ite | apply good_ite | apply good_id | apply good_foldl | apply good_mapGetD | apply goodP_foldl | fail_if_no_progress apply good_upd | simp only [goodP_iff] | dsimp only | split

theorem good_execRelEnqueue {q : List Instr} (h : Nat) (s : State) (hs : Good q s) : GoodT q (execRelEnqueue h s) := by
  unfold execRelEnqueue
  with_reducible repeat' first | assumption | intro _ | apply goodT_next | apply goodT_ite | apply goodP_ite | apply good_ite | apply good_id | apply good_foldl | apply good_mapGetD | apply good_enterQueue | apply good_count | apply good_police | apply good_dropPkt | apply good_raiseMs | apply good_holdFrame | apply goodP_foldl | fail_if_no_progress apply good_upd | simp only [goodP_iff] | apply goodO_getD | (apply goodO_elim; assumption) | dsimp only | split

theorem good_multicast {q : List Instr} (s : State) (h : Nat) (p : Packet) (group : Nat) (hs : Good q s) : Good q (State.multicast s h p group) := by
  unfold State.multicast
  with_reducible repeat' first | assumption | intro _ | apply good_ite | apply good_id | apply good_foldl | apply good_mapGetD | apply good_tmDrop | apply good_dropPkt | apply good_enterCopies | apply good_count | apply goodP_foldl | fail_if_no_progress apply good_upd | simp only [goodP_iff] | dsimp only | split

theorem good_releaseDue {q : List Instr} (s : State) (a1 : Nat) (hs : Good q s) : Good q (State.releaseDue s a1) := by
  induction a1 generalizing s with
  | zero =>
    unfold State.releaseDue
    with_reducible repeat' first | assumption | intro _ | apply good_ite | apply good_id | apply good_foldl | apply good_mapGetD | apply good_releaseNow | apply goodP_foldl | fail_if_no_progress apply good_upd | simp only [goodP_iff] | dsimp only | split
  | succ n ih =>
    unfold State.releaseDue
    with_reducible repeat' first | assumption | intro _ | apply ih | apply good_ite | apply good_id | apply good_foldl | apply good_mapGetD | apply good_releaseNow | apply goodP_foldl | fail_if_no_progress apply good_upd | simp only [goodP_iff] | dsimp only | split

theorem good_execRelRelease {q : List Instr} (s : State) (hs : Good q s) : GoodT q (execRelRelease s) := by
  unfold execRelRelease
  with_reducible repeat' first | assumption | intro _ | apply goodT_next | apply goodT_ite | apply goodP_ite | apply good_ite | apply good_id | apply good_foldl | apply good_mapGetD | apply good_returnDue | apply good_releaseDue | apply good_spill | apply goodP_foldl | fail_if_no_progress apply good_upd | simp only [goodP_iff] | dsimp only | split

theorem good_execRelSpillReturn {q : List Instr} (h : Nat) (bad : Bool) (s : State) (hs : Good q s) : GoodT q (execRelSpillReturn h bad s) := by
  unfold execRelSpillReturn
  with_reducible repeat' first | assumption | intro _ | apply goodT_next | apply goodT_ite | apply goodP_ite | apply good_ite | apply good_id | apply good_foldl | apply good_mapGetD | apply good_relSync | apply good_dropPkt | apply good_raise | apply good_count | apply good_unspill | apply goodP_foldl | fail_if_no_progress apply good_upd | simp only [goodP_iff] | dsimp only | split

theorem good_noRing {q : List Instr} (s : State) (h : Nat) (hs : Good q s) : Good q (State.noRing s h) := by
  unfold State.noRing
  with_reducible repeat' first | assumption | intro _ | apply good_ite | apply good_id | apply good_foldl | apply good_mapGetD | apply good_dropPkt | apply good_discard | apply goodP_foldl | fail_if_no_progress apply good_upd | simp only [goodP_iff] | dsimp only | split

theorem good_execTmEnqueue {q : List Instr} (h : Nat) (s : State) (hs : Good q s) : GoodT q (execTmEnqueue h s) := by
  unfold execTmEnqueue
  with_reducible repeat' first | assumption | intro _ | apply goodT_next | apply goodT_ite | apply goodP_ite | apply good_ite | apply good_id | apply good_foldl | apply good_mapGetD | apply good_retire | apply good_toQueue | apply good_when | apply good_raiseMs | apply good_count | apply good_noRing | apply good_multicast | apply goodP_foldl | fail_if_no_progress apply good_upd | simp only [goodP_iff] | dsimp only | split

theorem good_execRelCfgWrite {q : List Instr} (fn : Nat) (v : Nat) (s : State) (hs : Good q s) : GoodT q (execRelCfgWrite fn v s) := by
  unfold execRelCfgWrite
  with_reducible repeat' first | assumption | intro _ | apply goodT_next | apply goodT_ite | apply goodP_ite | apply good_ite | apply good_id | apply good_foldl | apply good_mapGetD | apply good_asManager | apply good_relCfg | apply goodP_foldl | fail_if_no_progress apply good_upd | simp only [goodP_iff] | dsimp only | split

end Sys2Proof.Machine
end

