-- ==== Sys2Proof/Laws/KeepsTm.lean ====
section
/-! SUPPORT. The operations of Tm.lean keep the queue and the invariant. -/

set_option linter.unusedTactic false
set_option linter.unreachableTactic false
set_option linter.unusedSimpArgs false
set_option linter.unusedVariables false

namespace Sys2Proof.Machine

theorem good_popHead {q : List Instr} (s : State) (q_ : Nat) (hs : Good q s) : Good q (State.popHead s q_) := by
  unfold State.popHead
  with_reducible repeat' first | assumption | intro _ | apply good_ite | apply good_id | apply good_foldl | apply good_mapGetD | apply good_modNode | apply goodP_foldl | fail_if_no_progress apply good_upd | simp only [goodP_iff] | dsimp only | split

theorem good_dropTooLong {q : List Instr} (s : State) (q_ : Nat) (hs : Good q s) : Good q (State.dropTooLong s q_) := by
  unfold State.dropTooLong
  with_reducible repeat' first | assumption | intro _ | apply good_ite | apply good_id | apply good_foldl | apply good_mapGetD | apply good_tmDrop | apply good_popHead | apply goodP_foldl | fail_if_no_progress apply good_upd | simp only [goodP_iff] | dsimp only | split

theorem good_clearObs {q : List Instr} (s : State) (hs : Good q s) : Good q (State.clearObs s) := by
  unfold State.clearObs
  with_reducible repeat' first | assumption | intro _ | apply good_ite | apply good_id | apply good_foldl | apply good_mapGetD | apply good_each | apply goodP_foldl | fail_if_no_progress apply good_upd | simp only [goodP_iff] | dsimp only | split

theorem good_obsCfg {q : List Instr} (s : State) (v : Nat) (hs : Good q s) : Good q (State.obsCfg s v) := by
  unfold State.obsCfg
  with_reducible repeat' first | assumption | intro _ | apply good_ite | apply good_id | apply good_foldl | apply good_mapGetD | apply good_logFwWrite | apply good_wrLegal | apply good_wr | apply good_clearObs | apply goodP_foldl | fail_if_no_progress apply good_upd | simp only [goodP_iff] | dsimp only | split

theorem good_execTmObsCfgWrite {q : List Instr} (fn : Nat) (v : Nat) (s : State) (hs : Good q s) : GoodT q (execTmObsCfgWrite fn v s) := by
  unfold execTmObsCfgWrite
  with_reducible repeat' first | assumption | intro _ | apply goodT_next | apply goodT_ite | apply goodP_ite | apply good_ite | apply good_id | apply good_foldl | apply good_mapGetD | apply good_asManager | apply good_obsCfg | apply goodP_foldl | fail_if_no_progress apply good_upd | simp only [goodP_iff] | dsimp only | split

theorem good_loseDeficits {q : List Instr} (s : State) (port : Nat) (hs : Good q s) : Good q (State.loseDeficits s port) := by
  unfold State.loseDeficits
  with_reducible repeat' first | assumption | intro _ | apply good_ite | apply good_id | apply good_foldl | apply good_mapGetD | apply good_each | apply good_modNode | apply goodP_foldl | fail_if_no_progress apply good_upd | simp only [goodP_iff] | dsimp only | split

theorem good_dropLate {q : List Instr} (s : State) (half : Nat) (h : Nat) (hs : Good q s) : Good q (State.dropLate s half h) := by
  unfold State.dropLate
  with_reducible repeat' first | assumption | intro _ | apply good_ite | apply good_id | apply good_foldl | apply good_mapGetD | apply good_dropPkt | apply good_raiseMs | apply good_count | apply goodP_foldl | fail_if_no_progress apply good_upd | simp only [goodP_iff] | dsimp only | split

theorem good_markLate {q : List Instr} (s : State) (h : Nat) (p : Packet) (hs : Good q s) : Good q (State.markLate s h p) := by
  unfold State.markLate
  with_reducible repeat' first | assumption | intro _ | apply good_ite | apply good_id | apply good_foldl | apply good_mapGetD | apply good_setPkt | apply good_setJob | apply goodP_foldl | fail_if_no_progress apply good_upd | simp only [goodP_iff] | dsimp only | split

theorem good_sentLate {q : List Instr} (s : State) (half : Nat) (h : Nat) (p : Packet) (hs : Good q s) : Good q (State.sentLate s half h p) := by
  unfold State.sentLate
  with_reducible repeat' first | assumption | intro _ | apply good_ite | apply good_id | apply good_foldl | apply good_mapGetD | apply good_markLate | apply good_raiseMs | apply good_count | apply goodP_foldl | fail_if_no_progress apply good_upd | simp only [goodP_iff] | dsimp only | split

theorem good_charge {q : List Instr} (s : State) (q_ : Nat) (len : Nat) (hs : Good q s) : Good q (State.charge s q_ len) := by
  unfold State.charge
  with_reducible repeat' first | assumption | intro _ | apply good_ite | apply good_id | apply good_foldl | apply good_mapGetD | apply good_each | apply good_modNode | apply good_accrue | apply goodP_foldl | fail_if_no_progress apply good_upd | simp only [goodP_iff] | dsimp only | split

theorem good_sojourn {q : List Instr} (s : State) (q_ : Nat) (p : Packet) (hs : Good q s) : Good q (State.sojourn s q_ p) := by
  unfold State.sojourn
  with_reducible repeat' first | assumption | intro _ | apply good_ite | apply good_id | apply good_foldl | apply good_mapGetD | apply good_modNode | apply goodP_foldl | fail_if_no_progress apply good_upd | simp only [goodP_iff] | dsimp only | split

theorem good_toMac {q : List Instr} (s : State) (h : Nat) (port : Nat) (hs : Good q s) : Good q (State.toMac s h port) := by
  unfold State.toMac
  with_reducible repeat' first | assumption | intro _ | apply good_ite | apply good_id | apply good_foldl | apply good_mapGetD | apply good_moveTo | apply good_setPkt | apply goodP_foldl | fail_if_no_progress apply good_upd | simp only [goodP_iff] | dsimp only | split

theorem good_startHead {q : List Instr} (s : State) (q_ : Nat) (hs : Good q s) : Good q (State.startHead s q_) := by
  unfold State.startHead
  with_reducible repeat' first | assumption | intro _ | apply good_ite | apply good_id | apply good_foldl | apply good_mapGetD | apply good_popHead | apply good_flushFrame | apply good_freePkt | apply good_dropLate | apply good_when | apply good_sentLate | apply good_count | apply good_charge | apply good_sojourn | apply good_toMac | apply good_noRing | apply good_moveTo | apply goodP_foldl | fail_if_no_progress apply good_upd | simp only [goodP_iff] | dsimp only | split

theorem good_startChoice {q : List Instr} (s : State) (o : Offer) (hs : Good q s) : Good q (State.startChoice s o) := by
  unfold State.startChoice
  with_reducible repeat' first | assumption | intro _ | apply good_ite | apply good_id | apply good_foldl | apply good_mapGetD | apply good_each | apply good_modNode | apply good_startHead | apply goodP_foldl | fail_if_no_progress apply good_upd | simp only [goodP_iff] | dsimp only | split

theorem good_schedule {q : List Instr} (s : State) (slice : Nat) (port : Nat) (hs : Good q s) : Good q (State.schedule s slice port) := by
  unfold State.schedule
  with_reducible repeat' first | assumption | intro _ | apply good_ite | apply good_id | apply good_foldl | apply good_mapGetD | apply good_each | apply good_adopt | apply good_dropTooLong | apply good_loseDeficits | apply good_startChoice | apply goodP_foldl | fail_if_no_progress apply good_upd | simp only [goodP_iff] | dsimp only | split

theorem good_gateSync {q : List Instr} (s : State) (p : Nat) (hs : Good q s) : Good q (State.gateSync s p) := by
  unfold State.gateSync
  with_reducible repeat' first | assumption | intro _ | apply good_ite | apply good_id | apply good_foldl | apply good_mapGetD | apply good_wr | apply goodP_foldl | fail_if_no_progress apply good_upd | simp only [goodP_iff] | dsimp only | split

theorem good_execGateChange {q : List Instr} (port : Nat) (s : State) (hs : Good q s) : GoodT q (execGateChange port s) := by
  unfold execGateChange
  with_reducible repeat' first | assumption | intro _ | apply goodT_next | apply goodT_ite | apply goodP_ite | apply good_ite | apply good_id | apply good_foldl | apply good_mapGetD | apply good_loseDeficits | apply good_gateSync | apply goodP_foldl | fail_if_no_progress apply good_upd | simp only [goodP_iff] | dsimp only | split

theorem good_nodeAccess {q : List Instr} (s : State) (v : Nat) (hs : Good q s) : Good q (State.nodeAccess s v) := by
  unfold State.nodeAccess
  with_reducible repeat' first | assumption | intro _ | apply good_ite | apply good_id | apply good_foldl | apply good_mapGetD | apply good_wr | apply good_writeNode | apply good_each | apply good_put | apply goodP_foldl | fail_if_no_progress apply good_upd | simp only [goodP_iff] | dsimp only | split

theorem good_nodeCmd {q : List Instr} (s : State) (v : Nat) (hs : Good q s) : Good q (State.nodeCmd s v) := by
  unfold State.nodeCmd
  with_reducible repeat' first | assumption | intro _ | apply good_ite | apply good_id | apply good_foldl | apply good_mapGetD | apply good_wr | apply good_when | apply good_nodeAccess | apply goodP_foldl | fail_if_no_progress apply good_upd | simp only [goodP_iff] | dsimp only | split

theorem good_flushWhere {q : List Instr} (s : State) (q_ : Nat) (test : Packet → Bool) (hs : Good q s) : Good q (State.flushWhere s q_ test) := by
  unfold State.flushWhere
  with_reducible repeat' first | assumption | intro _ | apply good_ite | apply good_id | apply good_foldl | apply good_mapGetD | apply good_loseDeficits | apply good_each | apply good_modNode | apply good_flushFrame | apply goodP_foldl | fail_if_no_progress apply good_upd | simp only [goodP_iff] | dsimp only | split

theorem good_setOper {q : List Instr} (s : State) (p : Nat) (g : GateList) (hs : Good q s) : Good q (State.setOper s p g) := by
  unfold State.setOper
  with_reducible repeat' first | assumption | intro _ | apply good_ite | apply good_id | apply good_foldl | apply good_mapGetD | apply good_wr | apply good_each | apply good_put | apply goodP_foldl | fail_if_no_progress apply good_upd | simp only [goodP_iff] | dsimp only | split

theorem good_execTmSchedule {q : List Instr} (slice : Nat) (port : Nat) (s : State) (hs : Good q s) : GoodT q (execTmSchedule slice port s) := by
  unfold execTmSchedule
  with_reducible repeat' first | assumption | intro _ | apply goodT_next | apply goodT_ite | apply goodP_ite | apply good_ite | apply good_id | apply good_foldl | apply good_mapGetD | apply good_schedule | apply goodP_foldl | fail_if_no_progress apply good_upd | simp only [goodP_iff] | dsimp only | split

theorem good_flushQueue {q : List Instr} (s : State) (q_ : Nat) (hs : Good q s) : Good q (State.flushQueue s q_) := by
  unfold State.flushQueue
  with_reducible repeat' first | assumption | intro _ | apply good_ite | apply good_id | apply good_foldl | apply good_mapGetD | apply good_flushWhere | apply goodP_foldl | fail_if_no_progress apply good_upd | simp only [goodP_iff] | dsimp only | split

theorem good_execTmDelayAlarm {q : List Instr} (q_ : Nat) (s : State) (hs : Good q s) : GoodT q (execTmDelayAlarm q_ s) := by
  unfold execTmDelayAlarm
  with_reducible repeat' first | assumption | intro _ | apply goodT_next | apply goodT_ite | apply goodP_ite | apply good_ite | apply good_id | apply good_foldl | apply good_mapGetD | apply good_raiseMs | apply goodP_foldl | fail_if_no_progress apply good_upd | simp only [goodP_iff] | dsimp only | split

theorem good_execTmQueueReload {q : List Instr} (q_ : Nat) (s : State) (hs : Good q s) : GoodT q (execTmQueueReload q_ s) := by
  unfold execTmQueueReload
  with_reducible repeat' first | assumption | intro _ | apply goodT_next | apply goodT_ite | apply goodP_ite | apply good_ite | apply good_id | apply good_foldl | apply good_mapGetD | apply good_unfence | apply goodP_foldl | fail_if_no_progress apply good_upd | simp only [goodP_iff] | dsimp only | split

theorem good_sampleQueue {q : List Instr} (s : State) (q_ : Nat) (hs : Good q s) : Good q (State.sampleQueue s q_) := by
  unfold State.sampleQueue
  with_reducible repeat' first | assumption | intro _ | apply good_ite | apply good_id | apply good_foldl | apply good_mapGetD | apply good_modNode | apply good_raise | apply goodP_foldl | fail_if_no_progress apply good_upd | simp only [goodP_iff] | dsimp only | split

theorem good_execTmObsSample {q : List Instr} (s : State) (hs : Good q s) : GoodT q (execTmObsSample s) := by
  unfold execTmObsSample
  with_reducible repeat' first | assumption | intro _ | apply goodT_next | apply goodT_ite | apply goodP_ite | apply good_ite | apply good_id | apply good_foldl | apply good_mapGetD | apply good_each | apply good_sampleQueue | apply goodP_foldl | fail_if_no_progress apply good_upd | simp only [goodP_iff] | dsimp only | split

theorem good_removeNode {q : List Instr} (s : State) (level : Nat) (i : Nat) (hs : Good q s) : Good q (State.removeNode s level i) := by
  unfold State.removeNode
  with_reducible repeat' first | assumption | intro _ | apply good_ite | apply good_id | apply good_foldl | apply good_mapGetD | apply good_when | apply good_flushQueue | apply good_queuesSync | apply goodP_foldl | fail_if_no_progress apply good_upd | simp only [goodP_iff] | dsimp only | split

theorem good_execTmNodeAccess {q : List Instr} (fn : Nat) (v : Nat) (s : State) (hs : Good q s) : GoodT q (execTmNodeAccess fn v s) := by
  unfold execTmNodeAccess
  with_reducible repeat' first | assumption | intro _ | apply goodT_next | apply goodT_ite | apply goodP_ite | apply good_ite | apply good_id | apply good_foldl | apply good_mapGetD | apply good_asManager | apply good_nodeCmd | apply goodP_foldl | fail_if_no_progress apply good_upd | simp only [goodP_iff] | dsimp only | split

theorem good_execGclChangeTime {q : List Instr} (port : Nat) (s : State) (hs : Good q s) : GoodT q (execGclChangeTime port s) := by
  unfold execGclChangeTime
  with_reducible repeat' first | assumption | intro _ | apply goodT_next | apply goodT_ite | apply goodP_ite | apply good_ite | apply good_id | apply good_foldl | apply good_mapGetD | apply good_setOper | apply good_raise | apply good_loseDeficits | apply good_gateSync | apply good_wr | apply goodP_foldl | fail_if_no_progress apply good_upd | simp only [goodP_iff] | dsimp only | split

end Sys2Proof.Machine
end

