-- ==== Sys2Proof/Laws/KeepsJournal.lean ====
section
/-! SUPPORT. The operations of Journal.lean keep the queue and the invariant. -/

set_option linter.unusedTactic false
set_option linter.unreachableTactic false
set_option linter.unusedSimpArgs false
set_option linter.unusedVariables false

namespace Sys2Proof.Machine

theorem good_stampGap {q : List Instr} (s : State) (port : Nat) (hs : Good q s) : Good q (State.stampGap s port) := by
  unfold State.stampGap
  with_reducible repeat' first | assumption | intro _ | apply good_ite | apply good_id | apply good_foldl | apply good_mapGetD | apply good_journalPush | apply goodP_foldl | fail_if_no_progress apply good_upd | simp only [goodP_iff] | dsimp only | split

theorem good_jnlFull {q : List Instr} (s : State) (hs : Good q s) : Good q (State.jnlFull s) := by
  unfold State.jnlFull
  with_reducible repeat' first | assumption | intro _ | apply good_ite | apply good_id | apply good_foldl | apply good_mapGetD | apply good_when | apply good_wr | apply good_raise | apply goodP_foldl | fail_if_no_progress apply good_upd | simp only [goodP_iff] | dsimp only | split

theorem good_mirrorHead {q : List Instr} (s : State) (hs : Good q s) : Good q (State.mirrorHead s) := by
  unfold State.mirrorHead
  with_reducible repeat' first | assumption | intro _ | apply good_ite | apply good_id | apply good_foldl | apply good_mapGetD | apply good_when | apply good_mirrorSend | apply goodP_foldl | fail_if_no_progress apply good_upd | simp only [goodP_iff] | dsimp only | split

theorem good_journalRing {q : List Instr} (s : State) (hs : Good q s) : Good q (State.journalRing s) := by
  unfold State.journalRing
  with_reducible repeat' first | assumption | intro _ | apply good_ite | apply good_id | apply good_foldl | apply good_mapGetD | apply good_journalCfg | apply goodP_foldl | fail_if_no_progress apply good_upd | simp only [goodP_iff] | dsimp only | split

theorem good_jnlCtrl {q : List Instr} (s : State) (v : Nat) (hs : Good q s) : Good q (State.jnlCtrl s v) := by
  unfold State.jnlCtrl
  with_reducible repeat' first | assumption | intro _ | apply good_ite | apply good_id | apply good_foldl | apply good_mapGetD | apply good_logFwWrite | apply good_wrLegal | apply good_wr | apply good_when | apply good_jnlFull | apply good_journalRing | apply goodP_foldl | fail_if_no_progress apply good_upd | simp only [goodP_iff] | dsimp only | split

theorem good_jnlCons {q : List Instr} (s : State) (v : Nat) (hs : Good q s) : Good q (State.jnlCons s v) := by
  unfold State.jnlCons
  with_reducible repeat' first | assumption | intro _ | apply good_ite | apply good_id | apply good_foldl | apply good_mapGetD | apply good_logFwWrite | apply good_jnlFull | apply good_put | apply goodP_foldl | fail_if_no_progress apply good_upd | simp only [goodP_iff] | dsimp only | split

theorem good_commit {q : List Instr} (s : State) (r : JRec) (rest : List JRec) (hs : Good q s) : Good q (State.commit s r rest) := by
  unfold State.commit
  with_reducible repeat' first | assumption | intro _ | apply good_ite | apply good_id | apply good_foldl | apply good_mapGetD | apply good_hostWrite | apply good_count | apply good_put | apply good_journalGap | apply good_backlogSync | apply good_jnlFull | apply goodP_foldl | fail_if_no_progress apply good_upd | simp only [goodP_iff] | dsimp only | split

theorem good_execJnlRecordCommit {q : List Instr} (fault : Bool) (s : State) (hs : Good q s) : GoodT q (execJnlRecordCommit fault s) := by
  unfold execJnlRecordCommit
  with_reducible repeat' first | assumption | intro _ | apply goodT_next | apply goodT_ite | apply goodP_ite | apply good_ite | apply good_id | apply good_foldl | apply good_mapGetD | apply good_pageRequest | apply good_raise | apply good_pageFailed | apply good_commit | apply goodP_foldl | fail_if_no_progress apply good_upd | simp only [goodP_iff] | apply goodO_getD | (apply goodO_elim; assumption) | dsimp only | split

theorem good_closeDigest {q : List Instr} (s : State) (key : Nat) (hs : Good q s) : Good q (State.closeDigest s key) := by
  unfold State.closeDigest
  with_reducible repeat' first | assumption | intro _ | apply good_ite | apply good_id | apply good_foldl | apply good_mapGetD | apply good_journalPush | apply goodP_foldl | fail_if_no_progress apply good_upd | simp only [goodP_iff] | dsimp only | split

theorem good_jentry {q : List Instr} (s : State) (key : Nat) (entry : Bytes) (stamp : Nat) (hs : Good q s) : Good q (State.jentry s key entry stamp) := by
  unfold State.jentry
  with_reducible repeat' first | assumption | intro _ | apply good_ite | apply good_id | apply good_foldl | apply good_mapGetD | apply good_when | apply good_closeDigest | apply goodP_foldl | fail_if_no_progress apply good_upd | simp only [goodP_iff] | dsimp only | split

theorem good_tagStamp {q : List Instr} (s : State) (port : Nat) (e : StampEntry) (lost : Bool) (hs : Good q s) : Good q (State.tagStamp s port e lost) := by
  unfold State.tagStamp
  with_reducible repeat' first | assumption | intro _ | apply good_ite | apply good_id | apply good_foldl | apply good_mapGetD | apply good_used | apply goodP_foldl | fail_if_no_progress apply good_upd | simp only [goodP_iff] | dsimp only | split

theorem good_loseStamp {q : List Instr} (s : State) (port : Nat) (e : StampEntry) (hs : Good q s) : Good q (State.loseStamp s port e) := by
  unfold State.loseStamp
  with_reducible repeat' first | assumption | intro _ | apply good_ite | apply good_id | apply good_foldl | apply good_mapGetD | apply good_when | apply good_add | apply good_raise | apply good_jentry | apply good_tagStamp | apply good_setJob | apply goodP_foldl | fail_if_no_progress apply good_upd | simp only [goodP_iff] | dsimp only | split

theorem good_takeStamp {q : List Instr} (s : State) (port : Nat) (stamp : Nat) (job : Option Nat) (ring : Option Nat) (owned : Bool) (hs : Good q s) : Good q (State.takeStamp s port stamp job ring owned) := by
  unfold State.takeStamp
  with_reducible repeat' first | assumption | intro _ | apply good_ite | apply good_id | apply good_foldl | apply good_mapGetD | apply good_loseStamp | apply good_stampGap | apply good_when | apply good_raise | apply goodP_foldl | fail_if_no_progress apply good_upd | simp only [goodP_iff] | dsimp only | split

theorem good_execJnlCheckpoint {q : List Instr} (s : State) (hs : Good q s) : GoodT q (execJnlCheckpoint s) := by
  unfold execJnlCheckpoint
  with_reducible repeat' first | assumption | intro _ | apply goodT_next | apply goodT_ite | apply goodP_ite | apply good_ite | apply good_id | apply good_foldl | apply good_mapGetD | apply goodP_foldl | fail_if_no_progress apply good_upd | simp only [goodP_iff] | dsimp only | split

theorem good_execJnlSignatureDone {q : List Instr} (s : State) (hs : Good q s) : GoodT q (execJnlSignatureDone s) := by
  unfold execJnlSignatureDone
  with_reducible repeat' first | assumption | intro _ | apply goodT_next | apply goodT_ite | apply goodP_ite | apply good_ite | apply good_id | apply good_foldl | apply good_mapGetD | apply good_mirrorHead | apply good_raise | apply good_count | apply good_journalPush | apply goodP_foldl | fail_if_no_progress apply good_upd | simp only [goodP_iff] | dsimp only | split

theorem good_execStampGapRecord {q : List Instr} (port : Nat) (s : State) (hs : Good q s) : GoodT q (execStampGapRecord port s) := by
  unfold execStampGapRecord
  with_reducible repeat' first | assumption | intro _ | apply goodT_next | apply goodT_ite | apply goodP_ite | apply good_ite | apply good_id | apply good_foldl | apply good_mapGetD | apply good_stampGap | apply goodP_foldl | fail_if_no_progress apply good_upd | simp only [goodP_iff] | dsimp only | split

theorem good_execJnlCtrlWrite {q : List Instr} (fn : Nat) (v : Nat) (s : State) (hs : Good q s) : GoodT q (execJnlCtrlWrite fn v s) := by
  unfold execJnlCtrlWrite
  with_reducible repeat' first | assumption | intro _ | apply goodT_next | apply goodT_ite | apply goodP_ite | apply good_ite | apply good_id | apply good_foldl | apply good_mapGetD | apply good_asManager | apply good_jnlCtrl | apply goodP_foldl | fail_if_no_progress apply good_upd | simp only [goodP_iff] | dsimp only | split

theorem good_execJnlConsWrite {q : List Instr} (fn : Nat) (v : Nat) (s : State) (hs : Good q s) : GoodT q (execJnlConsWrite fn v s) := by
  unfold execJnlConsWrite
  with_reducible repeat' first | assumption | intro _ | apply goodT_next | apply goodT_ite | apply goodP_ite | apply good_ite | apply good_id | apply good_foldl | apply good_mapGetD | apply good_asManager | apply good_jnlCons | apply goodP_foldl | fail_if_no_progress apply good_upd | simp only [goodP_iff] | dsimp only | split

theorem good_startChain {q : List Instr} (s : State) (reason : Nat) (hs : Good q s) : Good q (State.startChain s reason) := by
  unfold State.startChain
  with_reducible repeat' first | assumption | intro _ | apply good_ite | apply good_id | apply good_foldl | apply good_mapGetD | apply good_used | apply good_put | apply good_raise | apply good_backlogSync | apply good_jnlFull | apply goodP_foldl | fail_if_no_progress apply good_upd | simp only [goodP_iff] | dsimp only | split

theorem good_execJnlClockRecord {q : List Instr} (cause : Nat) (s : State) (hs : Good q s) : GoodT q (execJnlClockRecord cause s) := by
  unfold execJnlClockRecord
  with_reducible repeat' first | assumption | intro _ | apply goodT_next | apply goodT_ite | apply goodP_ite | apply good_ite | apply good_id | apply good_foldl | apply good_mapGetD | apply good_journalClock | apply goodP_foldl | fail_if_no_progress apply good_upd | simp only [goodP_iff] | dsimp only | split

theorem good_execJnlDigestClose {q : List Instr} (ring : Nat) (rx : Bool) (s : State) (hs : Good q s) : GoodT q (execJnlDigestClose ring rx s) := by
  unfold execJnlDigestClose
  with_reducible repeat' first | assumption | intro _ | apply goodT_next | apply goodT_ite | apply goodP_ite | apply good_ite | apply good_id | apply good_foldl | apply good_mapGetD | apply good_closeDigest | apply goodP_foldl | fail_if_no_progress apply good_upd | simp only [goodP_iff] | dsimp only | split

theorem good_execStampFifoDrain {q : List Instr} (port : Nat) (s : State) (hs : Good q s) : GoodT q (execStampFifoDrain port s) := by
  unfold execStampFifoDrain
  with_reducible repeat' first | assumption | intro _ | apply goodT_next | apply goodT_ite | apply goodP_ite | apply good_ite | apply good_id | apply good_foldl | apply good_mapGetD | apply good_jentry | apply good_finishJob | apply good_setJob | apply good_tagStamp | apply goodP_foldl | fail_if_no_progress apply good_upd | simp only [goodP_iff] | dsimp only | split

theorem good_jnlBase {q : List Instr} (s : State) (w : Width) (v : Nat) (hs : Good q s) : Good q (State.jnlBase s w v) := by
  unfold State.jnlBase
  with_reducible repeat' first | assumption | intro _ | apply good_ite | apply good_id | apply good_foldl | apply good_mapGetD | apply good_logFwWrite | apply good_journalRing | apply good_put | apply goodP_foldl | fail_if_no_progress apply good_upd | simp only [goodP_iff] | dsimp only | split

end Sys2Proof.Machine
end

