-- ==== Sys2Proof/Laws/KeepsQueues.lean ====
section
/-! SUPPORT. The operations of Queues.lean keep the queue and the invariant. -/

set_option linter.unusedTactic false
set_option linter.unreachableTactic false
set_option linter.unusedSimpArgs false
set_option linter.unusedVariables false

namespace Sys2Proof.Machine

theorem good_takeRead {q : List Instr} (s : State) (who : Waiter) (hs : Good q s) : GoodP q (State.takeRead s who) := by
  unfold State.takeRead
  with_reducible repeat' first | assumption | intro _ | apply goodP_ite | apply good_ite | apply good_id | apply good_foldl | apply good_mapGetD | apply good_issueWaiting | apply goodP_foldl | fail_if_no_progress apply good_upd | simp only [goodP_iff] | dsimp only | split

theorem good_fetchNext {q : List Instr} (s : State) (key : Nat) (hs : Good q s) : Good q (State.fetchNext s key) := by
  unfold State.fetchNext
  with_reducible repeat' first | assumption | intro _ | apply good_ite | apply good_id | apply good_foldl | apply good_mapGetD | apply good_hostRead | apply good_modRing | apply goodP_foldl | fail_if_no_progress apply good_upd | simp only [goodP_iff] | dsimp only | split

theorem good_fetchOthers {q : List Instr} (s : State) (k : Nat) (full : Bool) (hs : Good q s) : Good q (State.fetchOthers s k full) := by
  unfold State.fetchOthers
  with_reducible repeat' first | assumption | intro _ | apply good_ite | apply good_id | apply good_foldl | apply good_mapGetD | apply good_each | apply good_fetchNext | apply goodP_foldl | fail_if_no_progress apply good_upd | simp only [goodP_iff] | dsimp only | split

theorem good_oflUsed {q : List Instr} (s : State) (hs : Good q s) : Good q (State.oflUsed s) := by
  unfold State.oflUsed
  with_reducible repeat' first | assumption | intro _ | apply good_ite | apply good_id | apply good_foldl | apply good_mapGetD | apply good_wr | apply goodP_foldl | fail_if_no_progress apply good_upd | simp only [goodP_iff] | dsimp only | split

theorem good_registerPlace {q : List Instr} (s : State) (key : Nat) (index : Nat) (e : Bytes) (hs : Good q s) : GoodP q (State.registerPlace s key index e) := by
  unfold State.registerPlace
  with_reducible repeat' first | assumption | intro _ | apply goodP_ite | apply good_ite | apply good_id | apply good_foldl | apply good_mapGetD | apply good_oflUsed | apply goodP_foldl | fail_if_no_progress apply good_upd | simp only [goodP_iff] | dsimp only | split

theorem good_cacheEntry {q : List Instr} (s : State) (key : Nat) (index : Nat) (b : Bytes) (hs : Good q s) : Good q (State.cacheEntry s key index b) := by
  unfold State.cacheEntry
  with_reducible repeat' first | assumption | intro _ | apply good_ite | apply good_id | apply good_foldl | apply good_mapGetD | apply good_registerPlace | apply good_modRing | apply goodP_foldl | fail_if_no_progress apply good_upd | simp only [goodP_iff] | apply goodP_fst | (apply goodP_elim; assumption) | dsimp only | split

theorem good_cacheAll {q : List Instr} (s : State) (key : Nat) (a2 : List (Nat × Bytes)) (hs : Good q s) : Good q (State.cacheAll s key a2) := by
  induction a2 generalizing s key with
  | nil =>
    unfold State.cacheAll
    with_reducible repeat' first | assumption | intro _ | apply good_ite | apply good_id | apply good_foldl | apply good_mapGetD | apply good_stopRing | apply good_cacheEntry | apply goodP_foldl | fail_if_no_progress apply good_upd | simp only [goodP_iff] | dsimp only | split
  | cons x r ih =>
    unfold State.cacheAll
    with_reducible repeat' first | assumption | intro _ | apply ih | apply good_ite | apply good_id | apply good_foldl | apply good_mapGetD | apply good_stopRing | apply good_cacheEntry | apply goodP_foldl | fail_if_no_progress apply good_upd | simp only [goodP_iff] | dsimp only | split

theorem good_fetchFault {q : List Instr} (s : State) (key : Nat) (addr : Nat) (who : Waiter) (hs : Good q s) : Good q (State.fetchFault s key addr who) := by
  unfold State.fetchFault
  with_reducible repeat' first | assumption | intro _ | apply good_ite | apply good_id | apply good_foldl | apply good_mapGetD | apply good_pageRequest | apply good_setRingState | apply good_stopRing | apply good_pageFailed | apply goodP_foldl | fail_if_no_progress apply good_upd | simp only [goodP_iff] | apply goodO_getD | (apply goodO_elim; assumption) | dsimp only | split

theorem good_execDescFetchComplete {q : List Instr} (ring : Nat) (reply : HostReply) (s : State) (hs : Good q s) : GoodT q (execDescFetchComplete ring reply s) := by
  unfold execDescFetchComplete
  with_reducible repeat' first | assumption | intro _ | apply goodT_next | apply goodT_ite | apply goodP_ite | apply good_ite | apply good_id | apply good_foldl | apply good_mapGetD | apply good_takeRead | apply good_modRing | apply good_fetchOthers | apply good_fetchNext | apply good_cacheAll | apply good_ringCount | apply good_fetchFault | apply good_stopRing | apply good_readFailed | apply goodP_foldl | fail_if_no_progress apply good_upd | simp only [goodP_iff] | apply goodP_fst | (apply goodP_elim; assumption) | dsimp only | split

theorem good_hostKey {q : List Instr} (s : State) (port : Nat) (stamp : Nat) (hs : Good q s) : GoodP q (State.hostKey s port stamp) := by
  unfold State.hostKey
  with_reducible repeat' first | assumption | intro _ | apply goodP_ite | apply good_ite | apply good_id | apply good_foldl | apply good_mapGetD | apply goodP_foldl | fail_if_no_progress apply good_upd | simp only [goodP_iff] | dsimp only | split

theorem good_produceFrame {q : List Instr} (s : State) (j : Nat) (b : Job) (k : Nat) (f : Bytes) (hs : Good q s) : Good q (State.produceFrame s j b k f) := by
  unfold State.produceFrame
  with_reducible repeat' first | assumption | intro _ | apply good_ite | apply good_id | apply good_foldl | apply good_mapGetD | apply good_hostKey | apply good_addPkt | apply good_dropPkt | apply good_discard | apply goodP_foldl | fail_if_no_progress apply good_upd | simp only [goodP_iff] | apply goodP_fst | (apply goodP_elim; assumption) | dsimp only | split

theorem good_produce {q : List Instr} (s : State) (j : Nat) (b : Job) (buf : Bytes) (hs : Good q s) : Good q (State.produce s j b buf) := by
  unfold State.produce
  with_reducible repeat' first | assumption | intro _ | apply good_ite | apply good_id | apply good_foldl | apply good_mapGetD | apply good_mgmtTx | apply good_finishJob | apply good_setJob | apply good_when | apply good_used | apply good_each | apply good_produceFrame | apply goodP_foldl | fail_if_no_progress apply good_upd | simp only [goodP_iff] | dsimp only | split

theorem good_unstart {q : List Instr} (s : State) (key : Nat) (index : Nat) (hs : Good q s) : Good q (State.unstart s key index) := by
  unfold State.unstart
  with_reducible repeat' first | assumption | intro _ | apply good_ite | apply good_id | apply good_foldl | apply good_mapGetD | apply good_modRing | apply goodP_foldl | fail_if_no_progress apply good_upd | simp only [goodP_iff] | dsimp only | split

theorem good_execTxBufferData {q : List Instr} (job : Nat) (reply : HostReply) (s : State) (hs : Good q s) : GoodT q (execTxBufferData job reply s) := by
  unfold execTxBufferData
  with_reducible repeat' first | assumption | intro _ | apply goodT_next | apply goodT_ite | apply goodP_ite | apply good_ite | apply good_id | apply good_foldl | apply good_mapGetD | apply good_takeRead | apply good_failJob | apply good_produce | apply good_pageRequest | apply good_setRingState | apply good_stopRing | apply good_unstart | apply good_pageFailed | apply good_readFailed | apply goodP_foldl | fail_if_no_progress apply good_upd | simp only [goodP_iff] | apply goodO_getD | (apply goodO_elim; assumption) | apply goodP_fst | (apply goodP_elim; assumption) | dsimp only | split

theorem good_cqDoorbell {q : List Instr} (s : State) (key : Nat) (ci : Nat) (arm : Bool) (hs : Good q s) : Good q (State.cqDoorbell s key ci arm) := by
  unfold State.cqDoorbell
  with_reducible repeat' first | assumption | intro _ | apply good_ite | apply good_id | apply good_foldl | apply good_mapGetD | apply good_stopRing | apply good_modRing | apply good_coalesce | apply good_flushPend | apply goodP_foldl | fail_if_no_progress apply good_upd | simp only [goodP_iff] | dsimp only | split

theorem good_consume {q : List Instr} (s : State) (key : Nat) (hs : Good q s) : Good q (State.consume s key) := by
  unfold State.consume
  with_reducible repeat' first | assumption | intro _ | apply good_ite | apply good_id | apply good_foldl | apply good_mapGetD | apply good_modRing | apply goodP_foldl | fail_if_no_progress apply good_upd | simp only [goodP_iff] | dsimp only | split

theorem good_rxTranslate {q : List Instr} (s : State) (key : Nat) (addr : Nat) (hs : Good q s) : Good q (State.rxTranslate s key addr) := by
  unfold State.rxTranslate
  with_reducible repeat' first | assumption | intro _ | apply good_ite | apply good_id | apply good_foldl | apply good_mapGetD | apply good_atsMiss | apply goodP_foldl | fail_if_no_progress apply good_upd | simp only [goodP_iff] | dsimp only | split

theorem good_rxDrop {q : List Instr} (s : State) (h : Nat) (key : Nat) (k : Nat) (hs : Good q s) : Good q (State.rxDrop s h key k) := by
  unfold State.rxDrop
  with_reducible repeat' first | assumption | intro _ | apply good_ite | apply good_id | apply good_foldl | apply good_mapGetD | apply good_endPkt | apply good_ringCount | apply goodP_foldl | fail_if_no_progress apply good_upd | simp only [goodP_iff] | dsimp only | split

theorem good_rxFault {q : List Instr} (s : State) (h : Nat) (key : Nat) (e : CacheEntry) (hs : Good q s) : Good q (State.rxFault s h key e) := by
  unfold State.rxFault
  with_reducible repeat' first | assumption | intro _ | apply good_ite | apply good_id | apply good_foldl | apply good_mapGetD | apply good_pageRequest | apply good_rxDrop | apply good_modRing | apply good_pageFailed | apply goodP_foldl | fail_if_no_progress apply good_upd | simp only [goodP_iff] | apply goodO_getD | (apply goodO_elim; assumption) | dsimp only | split

theorem good_place {q : List Instr} (s : State) (h : Nat) (key : Nat) (p : Packet) (e : CacheEntry) (held : Bool) (badCell : Bool) (hs : Good q s) : Good q (State.place s h key p e held badCell) := by
  unfold State.place
  with_reducible repeat' first | assumption | intro _ | apply good_ite | apply good_id | apply good_foldl | apply good_mapGetD | apply good_when | apply good_cellCheck | apply good_markDone | apply good_consume | apply good_hostWrite | apply good_jentry | apply good_fetchNext | apply good_endPkt | apply goodP_foldl | fail_if_no_progress apply good_upd | simp only [goodP_iff] | dsimp only | split

theorem good_execHoldListDeliver {q : List Instr} (ring : Nat) (fault : Bool) (badCell : Bool) (s : State) (hs : Good q s) : GoodT q (execHoldListDeliver ring fault badCell s) := by
  unfold execHoldListDeliver
  with_reducible repeat' first | assumption | intro _ | apply goodT_next | apply goodT_ite | apply goodP_ite | apply good_ite | apply good_id | apply good_foldl | apply good_mapGetD | apply good_rxFault | apply good_rxTranslate | apply good_place | apply good_modRing | apply goodP_foldl | fail_if_no_progress apply good_upd | simp only [goodP_iff] | dsimp only | split

theorem good_execQmCqDb {q : List Instr} (fn : Nat) (page : Nat) (w : Width) (v : Nat) (s : State) (hs : Good q s) : GoodT q (execQmCqDb fn page w v s) := by
  unfold execQmCqDb
  with_reducible repeat' first | assumption | intro _ | apply goodT_next | apply goodT_ite | apply goodP_ite | apply good_ite | apply good_id | apply good_foldl | apply good_mapGetD | apply good_cqDoorbell | apply good_modRing | apply goodP_foldl | fail_if_no_progress apply good_upd | simp only [goodP_iff] | dsimp only | split

theorem good_execPushSlotWrite {q : List Instr} (fn : Nat) (page : Nat) (off : Nat) (data : Bytes) (s : State) (hs : Good q s) : GoodT q (execPushSlotWrite fn page off data s) := by
  unfold execPushSlotWrite
  with_reducible repeat' first | assumption | intro _ | apply goodT_next | apply goodT_ite | apply goodP_ite | apply good_ite | apply good_id | apply good_foldl | apply good_mapGetD | apply good_modRing | apply goodP_foldl | fail_if_no_progress apply good_upd | simp only [goodP_iff] | dsimp only | split

theorem good_takePush {q : List Instr} (s : State) (key : Nat) (first : Nat) (n : Nat) (ok : Bool) (hs : Good q s) : Good q (State.takePush s key first n ok) := by
  unfold State.takePush
  with_reducible repeat' first | assumption | intro _ | apply good_ite | apply good_id | apply good_foldl | apply good_mapGetD | apply good_modRing | apply good_each | apply good_cacheEntry | apply good_ringCount | apply goodP_foldl | fail_if_no_progress apply good_upd | simp only [goodP_iff] | dsimp only | split

theorem good_dropFetch {q : List Instr} (s : State) (key : Nat) (hs : Good q s) : Good q (State.dropFetch s key) := by
  unfold State.dropFetch
  with_reducible repeat' first | assumption | intro _ | apply good_ite | apply good_id | apply good_foldl | apply good_mapGetD | apply good_modRing | apply goodP_foldl | fail_if_no_progress apply good_upd | simp only [goodP_iff] | dsimp only | split

theorem good_invalidate {q : List Instr} (s : State) (key : Nat) (first : Nat) (n : Nat) (hs : Good q s) : Good q (State.invalidate s key first n) := by
  unfold State.invalidate
  with_reducible repeat' first | assumption | intro _ | apply good_ite | apply good_id | apply good_foldl | apply good_mapGetD | apply good_when | apply good_modRing | apply good_ringCount | apply good_dropFetch | apply goodP_foldl | fail_if_no_progress apply good_upd | simp only [goodP_iff] | dsimp only | split

theorem good_holdRx {q : List Instr} (s : State) (h : Nat) (key : Nat) (p : Packet) (hs : Good q s) : Good q (State.holdRx s h key p) := by
  unfold State.holdRx
  with_reducible repeat' first | assumption | intro _ | apply good_ite | apply good_id | apply good_foldl | apply good_mapGetD | apply good_rxDrop | apply good_modRing | apply good_setPkt | apply goodP_foldl | fail_if_no_progress apply good_upd | simp only [goodP_iff] | dsimp only | split

theorem good_sqDoorbell {q : List Instr} (s : State) (key : Nat) (pi : Nat) (inv : Bool) (hs : Good q s) : Good q (State.sqDoorbell s key pi inv) := by
  unfold State.sqDoorbell
  with_reducible repeat' first | assumption | intro _ | apply good_ite | apply good_id | apply good_foldl | apply good_mapGetD | apply good_invalidate | apply good_takePush | apply good_fetchNext | apply good_modRing | apply good_stopRing | apply goodP_foldl | fail_if_no_progress apply good_upd | simp only [goodP_iff] | dsimp only | split

theorem good_execQmSqDb {q : List Instr} (fn : Nat) (page : Nat) (w : Width) (v : Nat) (s : State) (hs : Good q s) : GoodT q (execQmSqDb fn page w v s) := by
  unfold execQmSqDb
  with_reducible repeat' first | assumption | intro _ | apply goodT_next | apply goodT_ite | apply goodP_ite | apply good_ite | apply good_id | apply good_foldl | apply good_mapGetD | apply good_sqDoorbell | apply goodP_foldl | fail_if_no_progress apply good_upd | simp only [goodP_iff] | dsimp only | split

theorem good_startJob {q : List Instr} (s : State) (key : Nat) (e : CacheEntry) (hs : Good q s) : Good q (State.startJob s key e) := by
  unfold State.startJob
  with_reducible repeat' first | assumption | intro _ | apply good_ite | apply good_id | apply good_foldl | apply good_mapGetD | apply good_setJob | apply good_consume | apply good_failJob | apply good_ringCount | apply good_hostRead | apply good_fetchNext | apply goodP_foldl | fail_if_no_progress apply good_upd | simp only [goodP_iff] | dsimp only | split

theorem good_execTxJobStart {q : List Instr} (ring : Nat) (s : State) (hs : Good q s) : GoodT q (execTxJobStart ring s) := by
  unfold execTxJobStart
  with_reducible repeat' first | assumption | intro _ | apply goodT_next | apply goodT_ite | apply goodP_ite | apply good_ite | apply good_id | apply good_foldl | apply good_mapGetD | apply good_startJob | apply goodP_foldl | fail_if_no_progress apply good_upd | simp only [goodP_iff] | dsimp only | split

theorem good_execRxHoldTimeout {q : List Instr} (h : Nat) (s : State) (hs : Good q s) : GoodT q (execRxHoldTimeout h s) := by
  unfold execRxHoldTimeout
  with_reducible repeat' first | assumption | intro _ | apply goodT_next | apply goodT_ite | apply goodP_ite | apply good_ite | apply good_id | apply good_foldl | apply good_mapGetD | apply good_rxDrop | apply good_modRing | apply goodP_foldl | fail_if_no_progress apply good_upd | simp only [goodP_iff] | dsimp only | split

theorem good_execRxDma {q : List Instr} (h : Nat) (fault : Bool) (badCell : Bool) (s : State) (hs : Good q s) : GoodT q (execRxDma h fault badCell s) := by
  unfold execRxDma
  with_reducible repeat' first | assumption | intro _ | apply goodT_next | apply goodT_ite | apply goodP_ite | apply good_ite | apply good_id | apply good_foldl | apply good_mapGetD | apply good_freePkt | apply good_endPkt | apply good_discard | apply good_count | apply good_rxDrop | apply good_holdRx | apply good_rxFault | apply good_rxTranslate | apply good_place | apply goodP_foldl | fail_if_no_progress apply good_upd | simp only [goodP_iff] | dsimp only | split

theorem good_execCqCoalesceExpire {q : List Instr} (ring : Nat) (s : State) (hs : Good q s) : GoodT q (execCqCoalesceExpire ring s) := by
  unfold execCqCoalesceExpire
  with_reducible repeat' first | assumption | intro _ | apply goodT_next | apply goodT_ite | apply goodP_ite | apply good_ite | apply good_id | apply good_foldl | apply good_mapGetD | apply good_ringMessage | apply goodP_foldl | fail_if_no_progress apply good_upd | simp only [goodP_iff] | dsimp only | split

theorem good_execHeadStatusWrite {q : List Instr} (ring : Nat) (bad : Bool) (s : State) (hs : Good q s) : GoodT q (execHeadStatusWrite ring bad s) := by
  unfold execHeadStatusWrite
  with_reducible repeat' first | assumption | intro _ | apply goodT_next | apply goodT_ite | apply goodP_ite | apply good_ite | apply good_id | apply good_foldl | apply good_mapGetD | apply good_stopRing | apply good_writeHead | apply goodP_foldl | fail_if_no_progress apply good_upd | simp only [goodP_iff] | dsimp only | split

theorem good_execCompletionWrite {q : List Instr} (ring : Nat) (bad : Bool) (s : State) (hs : Good q s) : GoodT q (execCompletionWrite ring bad s) := by
  unfold execCompletionWrite
  with_reducible repeat' first | assumption | intro _ | apply goodT_next | apply goodT_ite | apply goodP_ite | apply good_ite | apply good_id | apply good_foldl | apply good_mapGetD | apply good_stopRing | apply good_postCpl | apply goodP_foldl | fail_if_no_progress apply good_upd | simp only [goodP_iff] | dsimp only | split

end Sys2Proof.Machine
end

