-- ==== Sys2Proof/Laws/KeepsCrypto.lean ====
section
/-! SUPPORT. The operations of Crypto.lean keep the queue and the invariant. -/

set_option linter.unusedTactic false
set_option linter.unreachableTactic false
set_option linter.unusedSimpArgs false
set_option linter.unusedVariables false

namespace Sys2Proof.Machine

theorem good_note {q : List Instr} (s : State) (owner : Nat) (kind : Nat) (index : Nat) (reason : Nat) (hs : Good q s) : Good q (State.note s owner kind index reason) := by
  unfold State.note
  with_reducible repeat' first | assumption | intro _ | apply good_ite | apply good_id | apply good_foldl | apply good_mapGetD | apply good_raiseFn | fail_if_no_progress apply good_upd | dsimp only | split

theorem good_pnUsed {q : List Instr} (s : State) (i : Nat) (port : Nat) (n : Nat) (hs : Good q s) : Good q (State.pnUsed s i port n) := by
  unfold State.pnUsed
  with_reducible repeat' first | assumption | intro _ | apply good_ite | apply good_id | apply good_foldl | apply good_mapGetD | apply good_when | apply good_raise | apply good_note | fail_if_no_progress apply good_upd | dsimp only | split

theorem good_macsecTx {q : List Instr} (s : State) (port : Nat) (f : Bytes) (hs : Good q s) : GoodP q (State.macsecTx s port f) := by
  unfold State.macsecTx
  with_reducible repeat' first | assumption | intro _ | apply goodP_ite | apply good_ite | apply good_id | apply good_foldl | apply good_mapGetD | apply good_count | apply good_pnUsed | fail_if_no_progress apply good_upd | simp only [goodP_iff] | dsimp only | split

theorem good_setEsp {q : List Instr} (s : State) (i : Nat) (a : EspSa) (hs : Good q s) : Good q (State.setEsp s i a) := by
  unfold State.setEsp
  with_reducible repeat' first | assumption | intro _ | apply good_ite | apply good_id | apply good_foldl | apply good_mapGetD | fail_if_no_progress apply good_upd | dsimp only | split

theorem good_espExpire {q : List Instr} (s : State) (i : Nat) (hs : Good q s) : Good q (State.espExpire s i) := by
  unfold State.espExpire
  with_reducible repeat' first | assumption | intro _ | apply good_ite | apply good_id | apply good_foldl | apply good_mapGetD | apply good_raise | apply good_note | apply good_setEsp | fail_if_no_progress apply good_upd | dsimp only | split

theorem good_espCharge {q : List Instr} (s : State) (i : Nat) (n : Nat) (hs : Good q s) : Good q (State.espCharge s i n) := by
  unfold State.espCharge
  with_reducible repeat' first | assumption | intro _ | apply good_ite | apply good_id | apply good_foldl | apply good_mapGetD | apply good_setEsp | apply good_when | apply good_raise | apply good_note | apply good_espExpire | fail_if_no_progress apply good_upd | dsimp only | split

theorem good_oflStatus {q : List Instr} (s : State) (g : Nat) (status : Nat) (hs : Good q s) : Good q (State.oflStatus s g status) := by
  unfold State.oflStatus
  with_reducible repeat' first | assumption | intro _ | apply good_ite | apply good_id | apply good_foldl | apply good_mapGetD | apply good_raiseMs | apply good_count | fail_if_no_progress apply good_upd | dsimp only | split

theorem good_pnSeen {q : List Instr} (s : State) (i : Nat) (port : Nat) (pn : Nat) (n : Nat) (hs : Good q s) : Good q (State.pnSeen s i port pn n) := by
  unfold State.pnSeen
  with_reducible repeat' first | assumption | intro _ | apply good_ite | apply good_id | apply good_foldl | apply good_mapGetD | fail_if_no_progress apply good_upd | dsimp only | split

theorem good_macsecRx {q : List Instr} (s : State) (port : Nat) (f : Bytes) (hs : Good q s) : GoodP q (State.macsecRx s port f) := by
  unfold State.macsecRx
  with_reducible repeat' first | assumption | intro _ | apply goodP_ite | apply good_ite | apply good_id | apply good_foldl | apply good_mapGetD | apply good_count | apply good_when | apply good_raiseMs | apply good_pnSeen | fail_if_no_progress apply good_upd | simp only [goodP_iff] | dsimp only | split

theorem good_setSession {q : List Instr} (s : State) (i : Nat) (a : Session) (hs : Good q s) : Good q (State.setSession s i a) := by
  unfold State.setSession
  with_reducible repeat' first | assumption | intro _ | apply good_ite | apply good_id | apply good_foldl | apply good_mapGetD | fail_if_no_progress apply good_upd | dsimp only | split

end Sys2Proof.Machine
end

