-- ==== Sys2Proof/Laws/KeepsOffload.lean ====
section
/-! SUPPORT. The operations of Offload.lean keep the queue and the invariant. -/

set_option linter.unusedTactic false
set_option linter.unreachableTactic false
set_option linter.unusedSimpArgs false
set_option linter.unusedVariables false

namespace Sys2Proof.Machine

theorem good_answer {q : List Instr} (s : State) (m : ChanMsg) (h : Nat) (r : OflReply) (hs : Good q s) : Good q (State.answer s m h r) := by
  unfold State.answer
  with_reducible repeat' first | assumption | intro _ | apply good_ite | apply good_id | apply good_foldl | apply good_mapGetD | apply good_setPkt | apply good_reply | apply good_accepted | apply good_oflStatus | apply goodP_foldl | fail_if_no_progress apply good_upd | simp only [goodP_iff] | dsimp only | split

theorem good_request {q : List Instr} (s : State) (t : Nat) (route : Nat) (f : State → ChanMsg → Nat → Packet → State) (hs : Good q s) (hf : ∀ a b c d, Good q a → Good q (f a b c d)) : Good q (State.request s t route f) := by
  unfold State.request
  with_reducible repeat' first | assumption | intro _ | apply good_ite | apply good_id | apply good_foldl | apply good_mapGetD | apply good_accepted | apply good_discard | apply good_reply | apply good_used | apply good_answer | apply goodP_foldl | apply hf | fail_if_no_progress apply good_upd | simp only [goodP_iff] | dsimp only | split

theorem good_asked {q : List Instr} (s : State) (h : Nat) (session : Nat) (hs : Good q s) : Good q (State.asked s h session) := by
  unfold State.asked
  with_reducible repeat' first | assumption | intro _ | apply good_ite | apply good_id | apply good_foldl | apply good_mapGetD | apply good_setPkt | apply goodP_foldl | fail_if_no_progress apply good_upd | simp only [goodP_iff] | dsimp only | split

theorem good_inputFails {q : List Instr} (s : State) (m : ChanMsg) (h : Nat) (p : Packet) (hs : Good q s) : Good q (State.inputFails s m h p) := by
  unfold State.inputFails
  with_reducible repeat' first | assumption | intro _ | apply good_ite | apply good_id | apply good_foldl | apply good_mapGetD | apply good_cellCheck | apply good_count | apply good_reply | apply good_accepted | apply good_used | apply good_setPkt | apply goodP_foldl | fail_if_no_progress apply good_upd | simp only [goodP_iff] | dsimp only | split

theorem good_nvLost {q : List Instr} (s : State) (i : Nat) (st : Nat) (hs : Good q s) : Good q (State.nvLost s i st) := by
  unfold State.nvLost
  with_reducible repeat' first | assumption | intro _ | apply good_ite | apply good_id | apply good_foldl | apply good_mapGetD | apply good_raise | apply good_note | apply good_setSession | apply goodP_foldl | fail_if_no_progress apply good_upd | simp only [goodP_iff] | dsimp only | split

theorem good_deliverRest {q : List Instr} (s : State) (p : Packet) (a : Session) (rest : Bytes) (r : OflReply) (hs : Good q s) : Good q (State.deliverRest s p a rest r) := by
  unfold State.deliverRest
  with_reducible repeat' first | assumption | intro _ | apply good_ite | apply good_id | apply good_foldl | apply good_mapGetD | apply good_addPkt | apply goodP_foldl | fail_if_no_progress apply good_upd | simp only [goodP_iff] | dsimp only | split

theorem good_placed {q : List Instr} (s : State) (m : ChanMsg) (h : Nat) (p : Packet) (r : PlaceRun) (o : Nat) (k : Nat) (stop : Nat) (hs : Good q s) : Good q (State.placed s m h p r o k stop) := by
  unfold State.placed
  with_reducible repeat' first | assumption | intro _ | apply good_ite | apply good_id | apply good_foldl | apply good_mapGetD | apply good_each | apply good_hostWrite | apply good_when | apply good_countBy | apply good_count | apply good_setPkt | apply good_deliverRest | apply good_answer | apply goodP_foldl | fail_if_no_progress apply good_upd | simp only [goodP_iff] | dsimp only | split

theorem good_nvSegment {q : List Instr} (s : State) (m : ChanMsg) (h : Nat) (p : Packet) (o : Nat) (stop : Nat) (fault : Option Nat) (hs : Good q s) : Good q (State.nvSegment s m h p o stop fault) := by
  unfold State.nvSegment
  with_reducible repeat' first | assumption | intro _ | apply good_ite | apply good_id | apply good_foldl | apply good_mapGetD | apply good_answer | apply good_nvLost | apply good_count | apply good_setSession | apply good_oflUsed | apply good_pageRequest | apply good_pageFailed | apply good_placed | apply goodP_foldl | fail_if_no_progress apply good_upd | simp only [goodP_iff] | apply goodO_getD | (apply goodO_elim; assumption) | dsimp only | split

theorem good_execNvmeRxPlace {q : List Instr} (x : OflInput) (fault : Option Nat) (s : State) (hs : Good q s) : GoodT q (execNvmeRxPlace x fault s) := by
  unfold execNvmeRxPlace
  with_reducible repeat' first | assumption | intro _ | apply goodT_next | apply goodT_ite | apply goodP_ite | apply good_ite | apply good_id | apply good_foldl | apply good_mapGetD | apply good_request | apply good_asked | apply good_answer | apply good_inputFails | apply good_nvSegment | apply goodP_foldl | fail_if_no_progress apply good_upd | simp only [goodP_iff] | dsimp only | split

theorem good_rewrite {q : List Instr} (s : State) (t : Nat) (h : Nat) (p : Packet) (f : Bytes) (hs : Good q s) : Good q (State.rewrite s t h p f) := by
  unfold State.rewrite
  with_reducible repeat' first | assumption | intro _ | apply good_ite | apply good_id | apply good_foldl | apply good_mapGetD | apply good_setPkt | apply good_modThread | apply goodP_foldl | fail_if_no_progress apply good_upd | simp only [goodP_iff] | dsimp only | split

theorem good_espDecrypt {q : List Instr} (s : State) (t : Nat) (m : ChanMsg) (h : Nat) (p : Packet) (hs : Good q s) : Good q (State.espDecrypt s t m h p) := by
  unfold State.espDecrypt
  with_reducible repeat' first | assumption | intro _ | apply good_ite | apply good_id | apply good_foldl | apply good_mapGetD | apply good_answer | apply good_count | apply good_espCharge | apply good_setEsp | apply good_rewrite | apply goodP_foldl | fail_if_no_progress apply good_upd | simp only [goodP_iff] | dsimp only | split

theorem good_execEspDecrypt {q : List Instr} (x : OflInput) (s : State) (hs : Good q s) : GoodT q (execEspDecrypt x s) := by
  unfold execEspDecrypt
  with_reducible repeat' first | assumption | intro _ | apply goodT_next | apply goodT_ite | apply goodP_ite | apply good_ite | apply good_id | apply good_foldl | apply good_mapGetD | apply good_request | apply good_inputFails | apply good_espDecrypt | apply goodP_foldl | fail_if_no_progress apply good_upd | simp only [goodP_iff] | dsimp only | split

theorem good_jobDone {q : List Instr} (s : State) (j : Nat) (status : Nat) (ofl : Nat) (result : Nat) (hs : Good q s) : Good q (State.jobDone s j status ofl result) := by
  unfold State.jobDone
  with_reducible repeat' first | assumption | intro _ | apply good_ite | apply good_id | apply good_foldl | apply good_mapGetD | apply good_finishJob | apply good_setJob | apply goodP_foldl | fail_if_no_progress apply good_upd | simp only [goodP_iff] | dsimp only | split

theorem good_bulkFails {q : List Instr} (s : State) (j : Nat) (b : Job) (hs : Good q s) : Good q (State.bulkFails s j b) := by
  unfold State.bulkFails
  with_reducible repeat' first | assumption | intro _ | apply good_ite | apply good_id | apply good_foldl | apply good_mapGetD | apply good_jobDone | apply good_cellCheck | apply good_count | apply goodP_foldl | fail_if_no_progress apply good_upd | simp only [goodP_iff] | dsimp only | split

theorem good_writeDigests {q : List Instr} (s : State) (p : Packet) (f : Bytes) (wrote : List (Nat × Byte)) (hs : Good q s) : Good q (State.writeDigests s p f wrote) := by
  unfold State.writeDigests
  with_reducible repeat' first | assumption | intro _ | apply good_ite | apply good_id | apply good_foldl | apply good_mapGetD | apply good_each | apply good_hostWrite | apply goodP_foldl | fail_if_no_progress apply good_upd | simp only [goodP_iff] | dsimp only | split

theorem good_execJobKeyCheck {q : List Instr} (job : Nat) (s : State) (hs : Good q s) : GoodT q (execJobKeyCheck job s) := by
  unfold execJobKeyCheck
  with_reducible repeat' first | assumption | intro _ | apply goodT_next | apply goodT_ite | apply goodP_ite | apply good_ite | apply good_id | apply good_foldl | apply good_mapGetD | apply good_jobDone | apply goodP_foldl | fail_if_no_progress apply good_upd | simp only [goodP_iff] | dsimp only | split

theorem good_oflWake {q : List Instr} (s : State) (g : Nat) (hs : Good q s) : Good q (State.oflWake s g) := by
  unfold State.oflWake
  with_reducible repeat' first | assumption | intro _ | apply good_ite | apply good_id | apply good_foldl | apply good_mapGetD | apply good_domainOn | apply good_wr | apply goodP_foldl | fail_if_no_progress apply good_upd | simp only [goodP_iff] | dsimp only | split

theorem good_execOflGroupWake {q : List Instr} (g : Nat) (s : State) (hs : Good q s) : GoodT q (execOflGroupWake g s) := by
  unfold execOflGroupWake
  with_reducible repeat' first | assumption | intro _ | apply goodT_next | apply goodT_ite | apply goodP_ite | apply good_ite | apply good_id | apply good_foldl | apply good_mapGetD | apply good_oflWake | apply goodP_foldl | fail_if_no_progress apply good_upd | simp only [goodP_iff] | dsimp only | split

theorem good_tlsLost {q : List Instr} (s : State) (i : Nat) (hs : Good q s) : Good q (State.tlsLost s i) := by
  unfold State.tlsLost
  with_reducible repeat' first | assumption | intro _ | apply good_ite | apply good_id | apply good_foldl | apply good_mapGetD | apply good_raise | apply good_note | apply good_setSession | apply goodP_foldl | fail_if_no_progress apply good_upd | simp only [goodP_iff] | dsimp only | split

theorem good_tlsSegment {q : List Instr} (s : State) (t : Nat) (m : ChanMsg) (h : Nat) (p : Packet) (o : Nat) (stop : Nat) (hs : Good q s) : Good q (State.tlsSegment s t m h p o stop) := by
  unfold State.tlsSegment
  with_reducible repeat' first | assumption | intro _ | apply good_ite | apply good_id | apply good_foldl | apply good_mapGetD | apply good_answer | apply good_count | apply good_tlsLost | apply good_setSession | apply good_when | apply good_countBy | apply good_rewrite | apply goodP_foldl | fail_if_no_progress apply good_upd | simp only [goodP_iff] | dsimp only | split

theorem good_execTlsRx {q : List Instr} (x : OflInput) (s : State) (hs : Good q s) : GoodT q (execTlsRx x s) := by
  unfold execTlsRx
  with_reducible repeat' first | assumption | intro _ | apply goodT_next | apply goodT_ite | apply goodP_ite | apply good_ite | apply good_id | apply good_foldl | apply good_mapGetD | apply good_request | apply good_asked | apply good_answer | apply good_inputFails | apply good_tlsSegment | apply goodP_foldl | fail_if_no_progress apply good_upd | simp only [goodP_iff] | dsimp only | split

theorem good_oflRest {q : List Instr} (s : State) (hs : Good q s) : Good q (State.oflRest s) := by
  unfold State.oflRest
  with_reducible repeat' first | assumption | intro _ | apply good_ite | apply good_id | apply good_foldl | apply good_mapGetD | apply good_each | apply good_domainOff | apply good_wr | apply goodP_foldl | fail_if_no_progress apply good_upd | simp only [goodP_iff] | dsimp only | split

theorem good_espEncrypt {q : List Instr} (s : State) (g : Nat) (d : Deferred) (f : Bytes) (hs : Good q s) : GoodR q (State.espEncrypt s g d f) := by
  unfold State.espEncrypt
  with_reducible repeat' first | assumption | intro _ | apply goodR_ite | apply good_ite | apply good_id | apply good_foldl | apply good_mapGetD | apply good_espExpire | apply good_when | apply good_espCharge | apply good_setEsp | apply good_count | apply goodP_foldl | fail_if_no_progress apply good_upd | simp only [goodP_iff] | simp only [goodR_iff] | dsimp only | split

theorem good_tlsRetx {q : List Instr} (s : State) (d : Deferred) (p : Packet) (f : Bytes) (o : Nat) (hs : Good q s) : GoodR q (State.tlsRetx s d p f o) := by
  unfold State.tlsRetx
  with_reducible repeat' first | assumption | intro _ | apply goodR_ite | apply good_ite | apply good_id | apply good_foldl | apply good_mapGetD | apply good_setJob | apply goodP_foldl | fail_if_no_progress apply good_upd | simp only [goodP_iff] | simp only [goodR_iff] | dsimp only | split

theorem good_tlsTx {q : List Instr} (s : State) (g : Nat) (d : Deferred) (p : Packet) (f : Bytes) (hs : Good q s) : GoodR q (State.tlsTx s g d p f) := by
  unfold State.tlsTx
  with_reducible repeat' first | assumption | intro _ | apply goodR_ite | apply good_ite | apply good_id | apply good_foldl | apply good_mapGetD | apply good_tlsRetx | apply good_setSession | apply good_countBy | apply goodP_foldl | fail_if_no_progress apply good_upd | simp only [goodP_iff] | simp only [goodR_iff] | apply goodR_state | dsimp only | split

theorem good_txDigest {q : List Instr} (s : State) (d : Deferred) (p : Packet) (f : Bytes) (hs : Good q s) : GoodR q (State.txDigest s d p f) := by
  unfold State.txDigest
  with_reducible repeat' first | assumption | intro _ | apply goodR_ite | apply good_ite | apply good_id | apply good_foldl | apply good_mapGetD | apply good_setSession | apply good_writeDigests | apply goodP_foldl | fail_if_no_progress apply good_upd | simp only [goodP_iff] | simp only [goodR_iff] | dsimp only | split

theorem good_deferredOp {q : List Instr} (s : State) (g : Nat) (d : Deferred) (p : Packet) (f : Bytes) (hs : Good q s) : GoodR q (State.deferredOp s g d p f) := by
  unfold State.deferredOp
  with_reducible repeat' first | assumption | intro _ | apply goodR_ite | apply good_ite | apply good_id | apply good_foldl | apply good_mapGetD | apply good_espEncrypt | apply good_tlsTx | apply good_txDigest | apply goodP_foldl | fail_if_no_progress apply good_upd | simp only [goodP_iff] | simp only [goodR_iff] | apply goodR_state | dsimp only | split

theorem good_runDeferred {q : List Instr} (s : State) (h : Nat) (p : Packet) (a3 : List Deferred) (hs : Good q s) : Good q (State.runDeferred s h p a3) := by
  induction a3 generalizing s h p with
  | nil =>
    unfold State.runDeferred
    with_reducible repeat' first | assumption | intro _ | apply good_ite | apply good_id | apply good_foldl | apply good_mapGetD | apply good_when | apply good_moveTo | apply good_setPkt | apply good_copyToManager | apply good_endPkt | apply good_discard | apply good_dropPkt | apply good_deferredOp | apply good_oflStatus | apply good_raiseMs | apply good_count | apply goodP_foldl | fail_if_no_progress apply good_upd | simp only [goodP_iff] | apply goodR_state | dsimp only | split
  | cons x r ih =>
    unfold State.runDeferred
    with_reducible repeat' first | assumption | intro _ | apply ih | apply good_ite | apply good_id | apply good_foldl | apply good_mapGetD | apply good_when | apply good_moveTo | apply good_setPkt | apply good_copyToManager | apply good_endPkt | apply good_discard | apply good_dropPkt | apply good_deferredOp | apply good_oflStatus | apply good_raiseMs | apply good_count | apply goodP_foldl | fail_if_no_progress apply good_upd | simp only [goodP_iff] | apply goodR_state | dsimp only | split

theorem good_execDeferredStage {q : List Instr} (h : Nat) (bad : Bool) (s : State) (hs : Good q s) : GoodT q (execDeferredStage h bad s) := by
  unfold execDeferredStage
  with_reducible repeat' first | assumption | intro _ | apply goodT_next | apply goodT_ite | apply goodP_ite | apply good_ite | apply good_id | apply good_foldl | apply good_mapGetD | apply good_endPkt | apply good_cellCheck | apply good_count | apply good_runDeferred | apply goodP_foldl | fail_if_no_progress apply good_upd | simp only [goodP_iff] | dsimp only | split

theorem good_jobRead {q : List Instr} (s : State) (j : Nat) (b : Job) (reply : HostReply) (f : State → Bytes → State) (hs : Good q s) (hf : ∀ a b, Good q a → Good q (f a b)) : Good q (State.jobRead s j b reply f) := by
  unfold State.jobRead
  with_reducible repeat' first | assumption | intro _ | apply good_ite | apply good_id | apply good_foldl | apply good_mapGetD | apply good_takeRead | apply good_failJob | apply good_pageRequest | apply good_setRingState | apply good_stopRing | apply good_unstart | apply good_pageFailed | apply good_readFailed | apply goodP_foldl | apply hf | fail_if_no_progress apply good_upd | simp only [goodP_iff] | apply goodO_getD | (apply goodO_elim; assumption) | apply goodP_fst | (apply goodP_elim; assumption) | dsimp only | split

theorem good_execJobDigest {q : List Instr} (job : Nat) (reply : HostReply) (s : State) (hs : Good q s) : GoodT q (execJobDigest job reply s) := by
  unfold execJobDigest
  with_reducible repeat' first | assumption | intro _ | apply goodT_next | apply goodT_ite | apply goodP_ite | apply good_ite | apply good_id | apply good_foldl | apply good_mapGetD | apply good_jobRead | apply good_jobDone | apply goodP_foldl | fail_if_no_progress apply good_upd | simp only [goodP_iff] | dsimp only | split

theorem good_bulk {q : List Instr} (s : State) (j : Nat) (b : Job) (key : Bytes) (kind : Nat) (buf : Bytes) (hs : Good q s) : Good q (State.bulk s j b key kind buf) := by
  unfold State.bulk
  with_reducible repeat' first | assumption | intro _ | apply good_ite | apply good_id | apply good_foldl | apply good_mapGetD | apply good_jobDone | apply good_hostWrite | apply good_oflStatus | apply goodP_foldl | fail_if_no_progress apply good_upd | simp only [goodP_iff] | dsimp only | split

theorem good_execJobBulkGcm {q : List Instr} (x : OflInput) (reply : HostReply) (s : State) (hs : Good q s) : GoodT q (execJobBulkGcm x reply s) := by
  unfold execJobBulkGcm
  with_reducible repeat' first | assumption | intro _ | apply goodT_next | apply goodT_ite | apply goodP_ite | apply good_ite | apply good_id | apply good_foldl | apply good_mapGetD | apply good_jobDone | apply good_takeRead | apply good_jobRead | apply good_bulkFails | apply good_atsMiss | apply good_bulk | apply goodP_foldl | fail_if_no_progress apply good_upd | simp only [goodP_iff] | apply goodP_fst | (apply goodP_elim; assumption) | dsimp only | split

theorem good_execOflDeferRequest {q : List Instr} (t : Nat) (s : State) (hs : Good q s) : GoodT q (execOflDeferRequest t s) := by
  unfold execOflDeferRequest
  with_reducible repeat' first | assumption | intro _ | apply goodT_next | apply goodT_ite | apply goodP_ite | apply good_ite | apply good_id | apply good_foldl | apply good_mapGetD | apply good_request | apply good_answer | apply good_reply | apply good_accepted | apply good_setPkt | apply goodP_foldl | fail_if_no_progress apply good_upd | simp only [goodP_iff] | dsimp only | split

theorem good_execOflCheck {q : List Instr} (t : Nat) (s : State) (hs : Good q s) : GoodT q (execOflCheck t s) := by
  unfold execOflCheck
  with_reducible repeat' first | assumption | intro _ | apply goodT_next | apply goodT_ite | apply goodP_ite | apply good_ite | apply good_id | apply good_foldl | apply good_mapGetD | apply good_request | apply good_answer | apply goodP_foldl | fail_if_no_progress apply good_upd | simp only [goodP_iff] | dsimp only | split

end Sys2Proof.Machine
end

