-- ==== Sys2Proof/Laws/KeepsCopy.lean ====
section
/-! SUPPORT. The operations of Copy.lean keep the queue and the invariant. -/

set_option linter.unusedTactic false
set_option linter.unreachableTactic false
set_option linter.unusedSimpArgs false
set_option linter.unusedVariables false

namespace Sys2Proof.Machine

theorem good_cpyEvent {q : List Instr} (s : State) (ch : Nat) (code : Nat) (hs : Good q s) : Good q (State.cpyEvent s ch code) := by
  unfold State.cpyEvent
  with_reducible repeat' first | assumption | intro _ | apply good_ite | apply good_id | apply good_foldl | apply good_mapGetD | apply good_raiseMs | apply good_raise | apply good_when | apply goodP_foldl | fail_if_no_progress apply good_upd | simp only [goodP_iff] | dsimp only | split

theorem good_modCopy {q : List Instr} (s : State) (ch : Nat) (g : CopyCh → CopyCh) (hs : Good q s) : Good q (State.modCopy s ch g) := by
  unfold State.modCopy
  with_reducible repeat' first | assumption | intro _ | apply good_ite | apply good_id | apply good_foldl | apply good_mapGetD | apply goodP_foldl | fail_if_no_progress apply good_upd | simp only [goodP_iff] | dsimp only | split

theorem good_stopCopy {q : List Instr} (s : State) (ch : Nat) (code : Nat) (hs : Good q s) : Good q (State.stopCopy s ch code) := by
  unfold State.stopCopy
  with_reducible repeat' first | assumption | intro _ | apply good_ite | apply good_id | apply good_foldl | apply good_mapGetD | apply good_wr | apply good_when | apply good_count | apply good_cpyEvent | apply good_modCopy | apply goodP_foldl | fail_if_no_progress apply good_upd | simp only [goodP_iff] | dsimp only | split

theorem good_stopCopiesOf {q : List Instr} (s : State) (f : Nat) (pasidOnly : Bool) (hs : Good q s) : Good q (State.stopCopiesOf s f pasidOnly) := by
  unfold State.stopCopiesOf
  with_reducible repeat' first | assumption | intro _ | apply good_ite | apply good_id | apply good_foldl | apply good_mapGetD | apply good_each | apply good_stopCopy | apply goodP_foldl | fail_if_no_progress apply good_upd | simp only [goodP_iff] | dsimp only | split

theorem good_cpyIdleWrite {q : List Instr} (s : State) (ch : Nat) (off : Nat) (v : Nat) (f : State → State) (hs : Good q s) (hf : ∀ a, Good q a → Good q (f a)) : Good q (State.cpyIdleWrite s ch off v f) := by
  unfold State.cpyIdleWrite
  with_reducible repeat' first | assumption | intro _ | apply good_ite | apply good_id | apply good_foldl | apply good_mapGetD | apply good_logFwWrite | apply goodP_foldl | apply hf | fail_if_no_progress apply good_upd | simp only [goodP_iff] | dsimp only | split

theorem good_cpyCfg {q : List Instr} (s : State) (ch : Nat) (w : Width) (v : Nat) (hs : Good q s) : Good q (State.cpyCfg s ch w v) := by
  unfold State.cpyCfg
  with_reducible repeat' first | assumption | intro _ | apply good_ite | apply good_id | apply good_foldl | apply good_mapGetD | apply good_when | apply good_unfence | apply good_wr | apply good_cpyIdleWrite | apply good_put | apply goodP_foldl | fail_if_no_progress apply good_upd | simp only [goodP_iff] | dsimp only | split

theorem good_execCpyChCfgWrite {q : List Instr} (fn : Nat) (ch : Nat) (w : Width) (v : Nat) (s : State) (hs : Good q s) : GoodT q (execCpyChCfgWrite fn ch w v s) := by
  unfold execCpyChCfgWrite
  with_reducible repeat' first | assumption | intro _ | apply goodT_next | apply goodT_ite | apply goodP_ite | apply good_ite | apply good_id | apply good_foldl | apply good_mapGetD | apply good_asManager | apply good_cpyCfg | apply goodP_foldl | fail_if_no_progress apply good_upd | simp only [goodP_iff] | dsimp only | split

theorem good_flrCopies {q : List Instr} (s : State) (f : Nat) (hs : Good q s) : Good q (State.flrCopies s f) := by
  unfold State.flrCopies
  with_reducible repeat' first | assumption | intro _ | apply good_ite | apply good_id | apply good_foldl | apply good_mapGetD | apply good_each | apply good_modCopy | apply good_wr | apply good_stopCopy | apply goodP_foldl | fail_if_no_progress apply good_upd | simp only [goodP_iff] | dsimp only | split

theorem good_cpyRun {q : List Instr} (s : State) (ch : Nat) (hs : Good q s) : Good q (State.cpyRun s ch) := by
  unfold State.cpyRun
  with_reducible repeat' first | assumption | intro _ | apply good_ite | apply good_id | apply good_foldl | apply good_mapGetD | apply good_wr | apply goodP_foldl | fail_if_no_progress apply good_upd | simp only [goodP_iff] | dsimp only | split

theorem good_cpyGo {q : List Instr} (s : State) (ch : Nat) (hs : Good q s) : Good q (State.cpyGo s ch) := by
  unfold State.cpyGo
  with_reducible repeat' first | assumption | intro _ | apply good_ite | apply good_id | apply good_foldl | apply good_mapGetD | apply good_cpyEvent | apply good_wr | apply good_modCopy | apply good_put | apply good_when | apply good_domainOn | apply good_cpyRun | apply goodP_foldl | fail_if_no_progress apply good_upd | simp only [goodP_iff] | dsimp only | split

theorem good_cpyStop {q : List Instr} (s : State) (ch : Nat) (hs : Good q s) : Good q (State.cpyStop s ch) := by
  unfold State.cpyStop
  with_reducible repeat' first | assumption | intro _ | apply good_ite | apply good_id | apply good_foldl | apply good_mapGetD | apply good_stopCopy | apply good_wr | apply goodP_foldl | fail_if_no_progress apply good_upd | simp only [goodP_iff] | dsimp only | split

theorem good_cpyCtrl {q : List Instr} (s : State) (ch : Nat) (v : Nat) (hs : Good q s) : Good q (State.cpyCtrl s ch v) := by
  unfold State.cpyCtrl
  with_reducible repeat' first | assumption | intro _ | apply good_ite | apply good_id | apply good_foldl | apply good_mapGetD | apply good_wr | apply good_when | apply good_cpyGo | apply good_cpyStop | apply goodP_foldl | fail_if_no_progress apply good_upd | simp only [goodP_iff] | dsimp only | split

theorem good_execCpyStop {q : List Instr} (fn : Nat) (ch : Nat) (v : Nat) (s : State) (hs : Good q s) : GoodT q (execCpyStop fn ch v s) := by
  unfold execCpyStop
  with_reducible repeat' first | assumption | intro _ | apply goodT_next | apply goodT_ite | apply goodP_ite | apply good_ite | apply good_id | apply good_foldl | apply good_mapGetD | apply good_asManager | apply good_cpyCtrl | apply goodP_foldl | fail_if_no_progress apply good_upd | simp only [goodP_iff] | dsimp only | split

theorem good_execCpyPaceMessage {q : List Instr} (ch : Nat) (s : State) (hs : Good q s) : GoodT q (execCpyPaceMessage ch s) := by
  unfold execCpyPaceMessage
  with_reducible repeat' first | assumption | intro _ | apply goodT_next | apply goodT_ite | apply goodP_ite | apply good_ite | apply good_id | apply good_foldl | apply good_mapGetD | apply good_accepted | apply good_faultLater | apply good_modCopy | apply good_cpyRun | apply goodP_foldl | fail_if_no_progress apply good_upd | simp only [goodP_iff] | dsimp only | split

theorem good_cpyFetchFail {q : List Instr} (s : State) (ch : Nat) (code : Nat) (hs : Good q s) : Good q (State.cpyFetchFail s ch code) := by
  unfold State.cpyFetchFail
  with_reducible repeat' first | assumption | intro _ | apply good_ite | apply good_id | apply good_foldl | apply good_mapGetD | apply good_stopCopy | apply good_raise | apply goodP_foldl | fail_if_no_progress apply good_upd | simp only [goodP_iff] | dsimp only | split

theorem good_winWrite {q : List Instr} (s : State) (a : Nat) (bs : Bytes) (hs : Good q s) : Good q (s.winWrite a bs) := by
  unfold State.winWrite
  exact good_each _ _ _ (good_hbmDiscards _ _ _ _ hs) (fun b u hu => good_copyWin hu (memCanon_set _ _ _ hu.2.2.2.2.2.2.2.2.2.2))

theorem good_cpyDescWrite {q : List Instr} (s : State) (ch : Nat) (o : Nat) (bs : Bytes) (hs : Good q s) : Good q (State.cpyDescWrite s ch o bs) := by
  unfold State.cpyDescWrite
  with_reducible repeat' first | assumption | intro _ | apply good_ite | apply good_id | apply good_foldl | apply good_mapGetD | apply good_winWrite | apply good_hostWrite | apply goodP_foldl | fail_if_no_progress apply good_upd | simp only [goodP_iff] | dsimp only | split

theorem good_cpyWriteBack {q : List Instr} (s : State) (ch : Nat) (status : Nat) (result : Nat) (hs : Good q s) : Good q (State.cpyWriteBack s ch status result) := by
  unfold State.cpyWriteBack
  with_reducible repeat' first | assumption | intro _ | apply good_ite | apply good_id | apply good_foldl | apply good_mapGetD | apply good_cpyDescWrite | apply good_when | apply good_message | apply goodP_foldl | fail_if_no_progress apply good_upd | simp only [goodP_iff] | dsimp only | split

theorem good_cpyAfter {q : List Instr} (s : State) (ch : Nat) (status : Nat) (hs : Good q s) : Good q (State.cpyAfter s ch status) := by
  unfold State.cpyAfter
  with_reducible repeat' first | assumption | intro _ | apply good_ite | apply good_id | apply good_foldl | apply good_mapGetD | apply good_when | apply good_count | apply good_wr | apply good_stopCopy | apply good_cpyEvent | apply good_modCopy | apply good_cpyRun | apply goodP_foldl | fail_if_no_progress apply good_upd | simp only [goodP_iff] | dsimp only | split

theorem good_cpyFinish {q : List Instr} (s : State) (ch : Nat) (status : Nat) (lost : Bool) (hs : Good q s) : Good q (State.cpyFinish s ch status lost) := by
  unfold State.cpyFinish
  with_reducible repeat' first | assumption | intro _ | apply good_ite | apply good_id | apply good_foldl | apply good_mapGetD | apply good_raise | apply good_cpyWriteBack | apply good_cpyAfter | apply goodP_foldl | fail_if_no_progress apply good_upd | simp only [goodP_iff] | dsimp only | split

theorem good_cpyFault {q : List Instr} (s : State) (ch : Nat) (addr : Nat) (write : Bool) (lost : Bool) (hs : Good q s) : Good q (State.cpyFault s ch addr write lost) := by
  unfold State.cpyFault
  with_reducible repeat' first | assumption | intro _ | apply good_ite | apply good_id | apply good_foldl | apply good_mapGetD | apply good_pageRequest | apply good_raiseMs | apply good_count | apply good_modCopy | apply good_wr | apply good_cpyFetchFail | apply good_pageFailed | apply good_cpyFinish | apply goodP_foldl | fail_if_no_progress apply good_upd | simp only [goodP_iff] | apply goodO_getD | (apply goodO_elim; assumption) | dsimp only | split

theorem good_cpyDone {q : List Instr} (s : State) (ch : Nat) (d : CpyDesc) (lost : Bool) (hs : Good q s) : Good q (State.cpyDone s ch d lost) := by
  unfold State.cpyDone
  with_reducible repeat' first | assumption | intro _ | apply good_ite | apply good_id | apply good_foldl | apply good_mapGetD | apply good_cpyFinish | apply good_modCopy | apply good_sendRead | apply goodP_foldl | fail_if_no_progress apply good_upd | simp only [goodP_iff] | dsimp only | split

theorem good_cpyMove {q : List Instr} (s : State) (ch : Nat) (d : CpyDesc) (io : CopyIo) (p : Nat) (n : Nat) (hs : Good q s) : Good q (State.cpyMove s ch d io p n) := by
  unfold State.cpyMove
  with_reducible repeat' first | assumption | intro _ | apply good_ite | apply good_id | apply good_foldl | apply good_mapGetD | apply good_sendRead | apply good_countBy | apply good_modCopy | apply good_winWrite | apply good_hostWrite | apply good_when | apply goodP_foldl | fail_if_no_progress apply good_upd | simp only [goodP_iff] | dsimp only | split

theorem good_cpyResume {q : List Instr} (s : State) (ch : Nat) (ok : Bool) (hs : Good q s) : Good q (State.cpyResume s ch ok) := by
  unfold State.cpyResume
  with_reducible repeat' first | assumption | intro _ | apply good_ite | apply good_id | apply good_foldl | apply good_mapGetD | apply good_modCopy | apply good_cpyRun | apply good_cpyFetchFail | apply good_cpyFinish | apply goodP_foldl | fail_if_no_progress apply good_upd | simp only [goodP_iff] | dsimp only | split

theorem good_cpyTurn {q : List Instr} (s : State) (ch : Nat) (io : CopyIo) (hs : Good q s) : Good q (State.cpyTurn s ch io) := by
  unfold State.cpyTurn
  with_reducible repeat' first | assumption | intro _ | apply good_ite | apply good_id | apply good_foldl | apply good_mapGetD | apply good_cpyFinish | apply good_wr | apply good_cpyMove | apply good_readFailed | apply good_cpyDone | apply good_cpyRun | apply good_cpyFault | apply goodP_foldl | fail_if_no_progress apply good_upd | simp only [goodP_iff] | dsimp only | split

theorem good_execCpyFlushDone {q : List Instr} (ch : Nat) (failed : Option HostReply) (lost : Bool) (s : State) (hs : Good q s) : GoodT q (execCpyFlushDone ch failed lost s) := by
  unfold execCpyFlushDone
  with_reducible repeat' first | assumption | intro _ | apply goodT_next | apply goodT_ite | apply goodP_ite | apply good_ite | apply good_id | apply good_foldl | apply good_mapGetD | apply good_cpyFinish | apply good_readFailed | apply goodP_foldl | fail_if_no_progress apply good_upd | simp only [goodP_iff] | dsimp only | split

theorem good_cpyFetch {q : List Instr} (s : State) (ch : Nat) (io : CopyIo) (hs : Good q s) : Good q (State.cpyFetch s ch io) := by
  unfold State.cpyFetch
  with_reducible repeat' first | assumption | intro _ | apply good_ite | apply good_id | apply good_foldl | apply good_mapGetD | apply good_modCopy | apply good_stopCopy | apply good_cpyFinish | apply good_cpyFetchFail | apply good_sendRead | apply good_cpyFault | apply good_readFailed | apply goodP_foldl | fail_if_no_progress apply good_upd | simp only [goodP_iff] | dsimp only | split

theorem good_execCpyTurn {q : List Instr} (unit : Nat) (io : CopyIo) (s : State) (hs : Good q s) : GoodT q (execCpyTurn unit io s) := by
  unfold execCpyTurn
  with_reducible repeat' first | assumption | intro _ | apply goodT_next | apply goodT_ite | apply goodP_ite | apply good_ite | apply good_id | apply good_foldl | apply good_mapGetD | apply good_cpyFetch | apply good_cpyTurn | apply goodP_foldl | fail_if_no_progress apply good_upd | simp only [goodP_iff] | dsimp only | split

theorem good_quiesceCopies {q : List Instr} (s : State) (f : Nat) (hs : Good q s) : Good q (State.quiesceCopies s f) := by
  unfold State.quiesceCopies
  with_reducible repeat' first | assumption | intro _ | apply good_ite | apply good_id | apply good_foldl | apply good_mapGetD | apply good_each | apply good_stopCopy | apply goodP_foldl | fail_if_no_progress apply good_upd | simp only [goodP_iff] | dsimp only | split

theorem good_execCpyGo {q : List Instr} (fn : Nat) (ch : Nat) (v : Nat) (s : State) (hs : Good q s) : GoodT q (execCpyGo fn ch v s) := by
  unfold execCpyGo
  with_reducible repeat' first | assumption | intro _ | apply goodT_next | apply goodT_ite | apply goodP_ite | apply good_ite | apply good_id | apply good_foldl | apply good_mapGetD | apply good_asManager | apply good_cpyCtrl | apply goodP_foldl | fail_if_no_progress apply good_upd | simp only [goodP_iff] | dsimp only | split

end Sys2Proof.Machine
end

