-- ==== Sys2Proof/Laws/KeepsHif.lean ====
section
/-! SUPPORT. The operations of Hif.lean keep the queue and the invariant. -/

set_option linter.unusedTactic false
set_option linter.unreachableTactic false
set_option linter.unusedSimpArgs false
set_option linter.unusedVariables false

namespace Sys2Proof.Machine

theorem good_failWaiter {q : List Instr} (s : State) (w : Waiter) (hs : Good q s) : Good q (State.failWaiter s w) := by
  unfold State.failWaiter
  with_reducible repeat' first | assumption | intro _ | apply good_ite | apply good_id | apply good_foldl | apply good_mapGetD | apply good_stopRing | apply good_modRing | apply good_unstart | apply good_rxDrop | apply good_cpyResume | apply good_xlateFails | apply good_raise | fail_if_no_progress apply good_upd | dsimp only | split

theorem good_faultWaiter {q : List Instr} (s : State) (q_ : XReq) (hs : Good q s) : Good q (State.faultWaiter s q_) := by
  unfold State.faultWaiter
  with_reducible repeat' first | assumption | intro _ | apply good_ite | apply good_id | apply good_foldl | apply good_mapGetD | apply good_fetchFault | apply good_modRing | apply good_pageRequest | apply good_setRingState | apply good_failWaiter | apply good_pageFailed | fail_if_no_progress apply good_upd | apply goodO_getD | (apply goodO_elim; assumption) | dsimp only | split

theorem good_resumeWaiter {q : List Instr} (s : State) (w : Waiter) (hs : Good q s) : Good q (State.resumeWaiter s w) := by
  unfold State.resumeWaiter
  with_reducible repeat' first | assumption | intro _ | apply good_ite | apply good_id | apply good_foldl | apply good_mapGetD | apply good_modRing | apply good_fetchNext | apply good_when | apply good_setRingState | apply good_hostRead | apply good_cpyResume | apply good_flushPend | apply good_writeHead | fail_if_no_progress apply good_upd | dsimp only | split

theorem good_atsFill {q : List Instr} (s : State) (e : AtsEntry) (hs : Good q s) : Good q (State.atsFill s e) := by
  unfold State.atsFill
  with_reducible repeat' first | assumption | intro _ | apply good_ite | apply good_id | apply good_foldl | apply good_mapGetD | apply good_when | apply good_raiseLimited | fail_if_no_progress apply good_upd | dsimp only | split

theorem good_xlate {q : List Instr} (s : State) (q_ : XReq) (r : XlateReply) (hs : Good q s) : Good q (State.xlate s q_ r) := by
  unfold State.xlate
  with_reducible repeat' first | assumption | intro _ | apply good_ite | apply good_id | apply good_foldl | apply good_mapGetD | apply good_atsMiss | apply good_failWaiter | apply good_raiseMs | apply good_faultWaiter | apply good_resumeWaiter | apply good_atsFill | fail_if_no_progress apply good_upd | dsimp only | split

theorem good_nextPageRequest {q : List Instr} (s : State) (f : Nat) (hs : Good q s) : Good q (State.nextPageRequest s f) := by
  unfold State.nextPageRequest
  with_reducible repeat' first | assumption | intro _ | apply good_ite | apply good_id | apply good_foldl | apply good_mapGetD | apply good_send | apply good_count | fail_if_no_progress apply good_upd | dsimp only | split

theorem good_atsRemove {q : List Instr} (s : State) (f : Nat) (pasid : Option (Option Nat)) (base : Nat) (size : Nat) (hs : Good q s) : GoodP q (State.atsRemove s f pasid base size) := by
  unfold State.atsRemove
  with_reducible repeat' first | assumption | intro _ | apply goodP_ite | apply good_ite | apply good_id | apply good_foldl | apply good_mapGetD | fail_if_no_progress apply good_upd | simp only [goodP_iff] | dsimp only | split

theorem good_atsDisable {q : List Instr} (s : State) (f : Nat) (hs : Good q s) : Good q (State.atsDisable s f) := by
  unfold State.atsDisable
  with_reducible repeat' first | assumption | intro _ | apply good_ite | apply good_id | apply good_foldl | apply good_mapGetD | apply good_raise | apply good_modFn | apply good_atsRemove | fail_if_no_progress apply good_upd | simp only [goodP_iff] | apply goodP_fst | (apply goodP_elim; assumption) | dsimp only | split

theorem good_Step_after {q : List Instr} (r : Step) (s : State) (hr : GoodT q r) (hs : Good q s) : Good q (Step.after r s) := by
  unfold Step.after
  with_reducible repeat' first | assumption | intro _ | apply good_ite | apply good_id | apply good_foldl | apply good_mapGetD | fail_if_no_progress apply good_upd | (apply goodT_elim; assumption) | (apply goodT_elim rfl; assumption) | dsimp only | split

theorem good_readEnd {q : List Instr} (s : State) (n : Nat) (q_ : HostRead) (r : HostReply) (hs : Good q s) : Good q (State.readEnd s n q_ r) := by
  unfold State.readEnd
  with_reducible repeat' first | assumption | intro _ | apply good_ite | apply good_id | apply good_foldl | apply good_mapGetD | apply good_Step_after | apply good_execDescFetchComplete | apply good_execTxBufferData | apply good_execJobDigest | apply good_execJobBulkGcm | fail_if_no_progress apply good_upd | (apply goodT_elim; assumption) | (apply goodT_elim rfl; assumption) | dsimp only | split

theorem good_partEnd {q : List Instr} (s : State) (n : Nat) (q_ : HostRead) (tag : Nat) (r : HostReply) (hs : Good q s) : Good q (State.partEnd s n q_ tag r) := by
  unfold State.partEnd
  with_reducible repeat' first | assumption | intro _ | apply good_ite | apply good_id | apply good_foldl | apply good_mapGetD | apply good_issueWaiting | apply good_readEnd | fail_if_no_progress apply good_upd | dsimp only | split

theorem good_execCplTimeoutExpire {q : List Instr} (tag : Nat) (s : State) (hs : Good q s) : GoodT q (execCplTimeoutExpire tag s) := by
  unfold execCplTimeoutExpire
  with_reducible repeat' first | assumption | intro _ | apply goodT_next | apply goodT_ite | apply goodP_ite | apply good_ite | apply good_id | apply good_foldl | apply good_mapGetD | apply good_partEnd | apply good_issueWaiting | apply good_failWaiter | apply good_readFailed | fail_if_no_progress apply good_upd | simp only [goodP_iff] | dsimp only | split

theorem good_sendReady {q : List Instr} (s : State) (k : Nat) (hs : Good q s) : Good q (State.sendReady s k) := by
  unfold State.sendReady
  with_reducible repeat' first | assumption | intro _ | apply good_ite | apply good_id | apply good_foldl | apply good_mapGetD | apply good_when | apply good_send | fail_if_no_progress apply good_upd | dsimp only | split

theorem good_execHifLinkUp {q : List Instr} (port : Nat) (link : Nat) (rate : Nat) (narrow : Bool) (s : State) (hs : Good q s) : GoodT q (execHifLinkUp port link rate narrow s) := by
  unfold execHifLinkUp
  with_reducible repeat' first | assumption | intro _ | apply goodT_next | apply goodT_ite | apply goodP_ite | apply good_ite | apply good_id | apply good_foldl | apply good_mapGetD | apply good_raise | apply good_sendReady | apply good_when | fail_if_no_progress apply good_upd | simp only [goodP_iff] | dsimp only | split

theorem good_discardReads {q : List Instr} (s : State) (f : Nat) (hs : Good q s) : Good q (State.discardReads s f) := by
  unfold State.discardReads
  with_reducible repeat' first | assumption | intro _ | apply good_ite | apply good_id | apply good_foldl | apply good_mapGetD | fail_if_no_progress apply good_upd | dsimp only | split

theorem good_bmeClear {q : List Instr} (s : State) (f : Nat) (hs : Good q s) : Good q (State.bmeClear s f) := by
  unfold State.bmeClear
  with_reducible repeat' first | assumption | intro _ | apply good_ite | apply good_id | apply good_foldl | apply good_mapGetD | apply good_discardReads | apply good_modFn | apply good_each | apply good_stopRing | apply good_raiseFn | apply good_stopCopiesOf | apply good_raise | fail_if_no_progress apply good_upd | dsimp only | split

theorem good_execBmeClear {q : List Instr} (f : Nat) (s : State) (hs : Good q s) : GoodT q (execBmeClear f s) := by
  unfold execBmeClear
  with_reducible repeat' first | assumption | intro _ | apply goodT_next | apply goodT_ite | apply goodP_ite | apply good_ite | apply good_id | apply good_foldl | apply good_mapGetD | apply good_bmeClear | fail_if_no_progress apply good_upd | simp only [goodP_iff] | dsimp only | split

theorem good_lateCpl {q : List Instr} (s : State) (port : Nat) (hs : Good q s) : Good q (State.lateCpl s port) := by
  unfold State.lateCpl
  with_reducible repeat' first | assumption | intro _ | apply good_ite | apply good_id | apply good_foldl | apply good_mapGetD | apply good_send | apply good_raiseMs | apply good_count | fail_if_no_progress apply good_upd | dsimp only | split

theorem good_execTranslationCompletion {q : List Instr} (req : Nat) (r : XlateReply) (s : State) (hs : Good q s) : GoodT q (execTranslationCompletion req r s) := by
  unfold execTranslationCompletion
  with_reducible repeat' first | assumption | intro _ | apply goodT_next | apply goodT_ite | apply goodP_ite | apply good_ite | apply good_id | apply good_foldl | apply good_mapGetD | apply good_issueWaiting | apply good_lateCpl | apply good_failWaiter | apply good_readFailed | apply good_xlate | fail_if_no_progress apply good_upd | simp only [goodP_iff] | dsimp only | split

theorem good_execAtsEnableClear {q : List Instr} (f : Nat) (s : State) (hs : Good q s) : GoodT q (execAtsEnableClear f s) := by
  unfold execAtsEnableClear
  with_reducible repeat' first | assumption | intro _ | apply goodT_next | apply goodT_ite | apply goodP_ite | apply good_ite | apply good_id | apply good_foldl | apply good_mapGetD | apply good_atsDisable | fail_if_no_progress apply good_upd | simp only [goodP_iff] | dsimp only | split

theorem good_resend {q : List Instr} (s : State) (f : Nat) (vs : List Nat) (hs : Good q s) : Good q (State.resend s f vs) := by
  unfold State.resend
  with_reducible repeat' first | assumption | intro _ | apply good_ite | apply good_id | apply good_foldl | apply good_mapGetD | apply good_each | apply good_message | fail_if_no_progress apply good_upd | dsimp only | split

theorem good_evtFnW1c {q : List Instr} (s : State) (f : Nat) (v : Nat) (hs : Good q s) : Good q (State.evtFnW1c s f v) := by
  unfold State.evtFnW1c
  with_reducible repeat' first | assumption | intro _ | apply good_ite | apply good_id | apply good_foldl | apply good_mapGetD | apply good_put | apply good_resend | fail_if_no_progress apply good_upd | dsimp only | split

theorem good_failPage {q : List Instr} (s : State) (n : Nat) (q_ : PReq) (hs : Good q s) : Good q (State.failPage s n q_) := by
  unfold State.failPage
  with_reducible repeat' first | assumption | intro _ | apply good_ite | apply good_id | apply good_foldl | apply good_mapGetD | apply good_nextPageRequest | apply good_failWaiter | apply good_pageFailed | fail_if_no_progress apply good_upd | dsimp only | split

theorem good_pageResponse {q : List Instr} (s : State) (f : Nat) (n : Nat) (r : PageReply) (hs : Good q s) : Good q (State.pageResponse s f n r) := by
  unfold State.pageResponse
  with_reducible repeat' first | assumption | intro _ | apply good_ite | apply good_id | apply good_foldl | apply good_mapGetD | apply good_raiseMs | apply good_nextPageRequest | apply good_resumeWaiter | apply good_failPage | apply good_modFn | apply good_each | apply good_failWaiter | apply good_pageFailed | apply good_raise | apply good_raiseFn | fail_if_no_progress apply good_upd | dsimp only | split

theorem good_execEvtFnW1c {q : List Instr} (f : Nat) (v : Nat) (s : State) (hs : Good q s) : GoodT q (execEvtFnW1c f v s) := by
  unfold execEvtFnW1c
  with_reducible repeat' first | assumption | intro _ | apply goodT_next | apply goodT_ite | apply goodP_ite | apply good_ite | apply good_id | apply good_foldl | apply good_mapGetD | apply good_evtFnW1c | fail_if_no_progress apply good_upd | simp only [goodP_iff] | dsimp only | split

theorem good_sendPending {q : List Instr} (s : State) (f : Nat) (hs : Good q s) : Good q (State.sendPending s f) := by
  unfold State.sendPending
  with_reducible repeat' first | assumption | intro _ | apply good_ite | apply good_id | apply good_foldl | apply good_mapGetD | apply good_each | apply good_message | fail_if_no_progress apply good_upd | dsimp only | split

theorem good_execHostReadCompletion {q : List Instr} (port : Nat) (tag : Nat) (reply : HostReply) (s : State) (hs : Good q s) : GoodT q (execHostReadCompletion port tag reply s) := by
  unfold execHostReadCompletion
  with_reducible repeat' first | assumption | intro _ | apply goodT_next | apply goodT_ite | apply goodP_ite | apply good_ite | apply good_id | apply good_foldl | apply good_mapGetD | apply good_lateCpl | apply good_partEnd | fail_if_no_progress apply good_upd | simp only [goodP_iff] | dsimp only | split

theorem good_execPriResponseTimeout {q : List Instr} (index : Nat) (s : State) (hs : Good q s) : GoodT q (execPriResponseTimeout index s) := by
  unfold execPriResponseTimeout
  with_reducible repeat' first | assumption | intro _ | apply goodT_next | apply goodT_ite | apply goodP_ite | apply good_ite | apply good_id | apply good_foldl | apply good_mapGetD | apply good_failPage | apply good_raiseMs | fail_if_no_progress apply good_upd | simp only [goodP_iff] | dsimp only | split

theorem good_execInvalidateComplete {q : List Instr} (port : Nat) (s : State) (hs : Good q s) : GoodT q (execInvalidateComplete port s) := by
  unfold execInvalidateComplete
  with_reducible repeat' first | assumption | intro _ | apply goodT_next | apply goodT_ite | apply goodP_ite | apply good_ite | apply good_id | apply good_foldl | apply good_mapGetD | apply good_raise | apply good_when | apply good_send | fail_if_no_progress apply good_upd | simp only [goodP_iff] | dsimp only | split

theorem good_pasidDisable {q : List Instr} (s : State) (f : Nat) (hs : Good q s) : Good q (State.pasidDisable s f) := by
  unfold State.pasidDisable
  with_reducible repeat' first | assumption | intro _ | apply good_ite | apply good_id | apply good_foldl | apply good_mapGetD | apply good_modFn | apply good_stopCopiesOf | apply good_each | apply good_stopRing | fail_if_no_progress apply good_upd | dsimp only | split

theorem good_msixWrite {q : List Instr} (s : State) (f : Nat) (what : MsixWrite) (hs : Good q s) : Good q (State.msixWrite s f what) := by
  unfold State.msixWrite
  with_reducible repeat' first | assumption | intro _ | apply good_ite | apply good_id | apply good_foldl | apply good_mapGetD | apply good_sendPending | apply good_modFn | fail_if_no_progress apply good_upd | dsimp only | split

theorem good_execMsixUnmask {q : List Instr} (f : Nat) (what : MsixWrite) (s : State) (hs : Good q s) : GoodT q (execMsixUnmask f what s) := by
  unfold execMsixUnmask
  with_reducible repeat' first | assumption | intro _ | apply goodT_next | apply goodT_ite | apply goodP_ite | apply good_ite | apply good_id | apply good_foldl | apply good_mapGetD | apply good_msixWrite | fail_if_no_progress apply good_upd | simp only [goodP_iff] | dsimp only | split

theorem good_execHifLinkDown {q : List Instr} (port : Nat) (link : Nat) (s : State) (hs : Good q s) : GoodT q (execHifLinkDown port link s) := by
  unfold execHifLinkDown
  with_reducible repeat' first | assumption | intro _ | apply goodT_next | apply goodT_ite | apply goodP_ite | apply good_ite | apply good_id | apply good_foldl | apply good_mapGetD | apply good_raise | fail_if_no_progress apply good_upd | simp only [goodP_iff] | dsimp only | split

theorem good_execPasidEnableClear {q : List Instr} (f : Nat) (s : State) (hs : Good q s) : GoodT q (execPasidEnableClear f s) := by
  unfold execPasidEnableClear
  with_reducible repeat' first | assumption | intro _ | apply goodT_next | apply goodT_ite | apply goodP_ite | apply good_ite | apply good_id | apply good_foldl | apply good_mapGetD | apply good_pasidDisable | fail_if_no_progress apply good_upd | simp only [goodP_iff] | dsimp only | split

theorem good_execDStateChange {q : List Instr} (f : Nat) (d3 : Bool) (s : State) (hs : Good q s) : GoodT q (execDStateChange f d3 s) := by
  unfold execDStateChange
  with_reducible repeat' first | assumption | intro _ | apply goodT_next | apply goodT_ite | apply goodP_ite | apply good_ite | apply good_id | apply good_foldl | apply good_mapGetD | apply good_raise | apply good_sendPending | apply good_modFn | fail_if_no_progress apply good_upd | simp only [goodP_iff] | dsimp only | split

theorem good_execPageResponse {q : List Instr} (f : Nat) (index : Nat) (r : PageReply) (s : State) (hs : Good q s) : GoodT q (execPageResponse f index r s) := by
  unfold execPageResponse
  with_reducible repeat' first | assumption | intro _ | apply goodT_next | apply goodT_ite | apply goodP_ite | apply good_ite | apply good_id | apply good_foldl | apply good_mapGetD | apply good_pageResponse | fail_if_no_progress apply good_upd | simp only [goodP_iff] | dsimp only | split

theorem good_execBmeSet {q : List Instr} (f : Nat) (s : State) (hs : Good q s) : GoodT q (execBmeSet f s) := by
  unfold execBmeSet
  with_reducible repeat' first | assumption | intro _ | apply goodT_next | apply goodT_ite | apply goodP_ite | apply good_ite | apply good_id | apply good_foldl | apply good_mapGetD | apply good_sendPending | apply good_modFn | fail_if_no_progress apply good_upd | simp only [goodP_iff] | dsimp only | split

theorem good_execInvalidateRequest {q : List Instr} (port : Nat) (tag : Nat) (f : Nat) (pasid : Option Nat) (base : Nat) (size : Nat) (s : State) (hs : Good q s) : GoodT q (execInvalidateRequest port tag f pasid base size s) := by
  unfold execInvalidateRequest
  with_reducible repeat' first | assumption | intro _ | apply goodT_next | apply goodT_ite | apply goodP_ite | apply good_ite | apply good_id | apply good_foldl | apply good_mapGetD | apply good_atsRemove | apply good_count | fail_if_no_progress apply good_upd | simp only [goodP_iff] | apply goodP_fst | (apply goodP_elim; assumption) | dsimp only | split

theorem good_evtPendW1c {q : List Instr} (s : State) (pf : Nat) (w : Nat) (v : Nat) (hs : Good q s) : Good q (State.evtPendW1c s pf w v) := by
  unfold State.evtPendW1c
  with_reducible repeat' first | assumption | intro _ | apply good_ite | apply good_id | apply good_foldl | apply good_mapGetD | apply good_put | apply good_resend | fail_if_no_progress apply good_upd | dsimp only | split

theorem good_execPriReset {q : List Instr} (f : Nat) (alloc : Nat) (s : State) (hs : Good q s) : GoodT q (execPriReset f alloc s) := by
  unfold execPriReset
  with_reducible repeat' first | assumption | intro _ | apply goodT_next | apply goodT_ite | apply goodP_ite | apply good_ite | apply good_id | apply good_foldl | apply good_mapGetD | apply good_modFn | fail_if_no_progress apply good_upd | simp only [goodP_iff] | dsimp only | split

theorem good_execEvtPendW1c {q : List Instr} (f : Nat) (w : Nat) (v : Nat) (s : State) (hs : Good q s) : GoodT q (execEvtPendW1c f w v s) := by
  unfold execEvtPendW1c
  with_reducible repeat' first | assumption | intro _ | apply goodT_next | apply goodT_ite | apply goodP_ite | apply good_ite | apply good_id | apply good_foldl | apply good_mapGetD | apply good_evtPendW1c | fail_if_no_progress apply good_upd | simp only [goodP_iff] | dsimp only | split

end Sys2Proof.Machine
end

