-- ==== Sys2Proof/Laws/KeepsMailbox.lean ====
section
/-! SUPPORT. The operations of Mailbox.lean keep the queue and the invariant. -/

set_option linter.unusedTactic false
set_option linter.unreachableTactic false
set_option linter.unusedSimpArgs false
set_option linter.unusedVariables false

namespace Sys2Proof.Machine

theorem good_modMb {q : List Instr} (s : State) (f : Nat) (g : Mailbox → Mailbox) (hs : Good q s) : Good q (State.modMb s f g) := by
  unfold State.modMb
  with_reducible repeat' first | assumption | intro _ | apply good_ite | apply good_id | apply good_foldl | apply good_mapGetD | apply goodP_foldl | fail_if_no_progress apply good_upd | simp only [goodP_iff] | dsimp only | split

theorem good_dbTrack {q : List Instr} (s : State) (f : Nat) (hs : Good q s) : Good q (State.dbTrack s f) := by
  unfold State.dbTrack
  with_reducible repeat' first | assumption | intro _ | apply good_ite | apply good_id | apply good_foldl | apply good_mapGetD | apply good_modMb | apply goodP_foldl | fail_if_no_progress apply good_upd | simp only [goodP_iff] | dsimp only | split

theorem good_setDoorbell {q : List Instr} (s : State) (f : Nat) (k : Nat) (hs : Good q s) : Good q (State.setDoorbell s f k) := by
  unfold State.setDoorbell
  with_reducible repeat' first | assumption | intro _ | apply good_ite | apply good_id | apply good_foldl | apply good_mapGetD | apply good_doorbellSync | apply good_dbTrack | apply good_put | apply goodP_foldl | fail_if_no_progress apply good_upd | simp only [goodP_iff] | dsimp only | split

theorem good_fwRestartFor {q : List Instr} (s : State) (f : Nat) (t0 : Bool) (t3 : Bool) (hs : Good q s) : Good q (State.fwRestartFor s f t0 t3) := by
  unfold State.fwRestartFor
  with_reducible repeat' first | assumption | intro _ | apply good_ite | apply good_id | apply good_foldl | apply good_mapGetD | apply good_when | apply good_modMb | apply good_wr | apply good_markDone | apply good_setDoorbell | apply goodP_foldl | fail_if_no_progress apply good_upd | simp only [goodP_iff] | dsimp only | split

theorem good_fwRestart {q : List Instr} (s : State) (hs : Good q s) : Good q (State.fwRestart s) := by
  unfold State.fwRestart
  with_reducible repeat' first | assumption | intro _ | apply good_ite | apply good_id | apply good_foldl | apply good_mapGetD | apply good_raise | apply good_each | apply good_fwRestartFor | apply goodP_foldl | fail_if_no_progress apply good_upd | simp only [goodP_iff] | dsimp only | split

theorem good_execFwRestart {q : List Instr} (s : State) (hs : Good q s) : GoodT q (execFwRestart s) := by
  unfold execFwRestart
  with_reducible repeat' first | assumption | intro _ | apply goodT_next | apply goodT_ite | apply goodP_ite | apply good_ite | apply good_id | apply good_foldl | apply good_mapGetD | apply good_fwRestart | apply goodP_foldl | fail_if_no_progress apply good_upd | simp only [goodP_iff] | dsimp only | split

theorem good_execFwWatchdog {q : List Instr} (core : Nat) (thread : Nat) (s : State) (hs : Good q s) : GoodT q (execFwWatchdog core thread s) := by
  unfold execFwWatchdog
  with_reducible repeat' first | assumption | intro _ | apply goodT_next | apply goodT_ite | apply goodP_ite | apply good_ite | apply good_id | apply good_foldl | apply good_mapGetD | apply good_each | apply good_fwRestartFor | apply good_raise | apply goodP_foldl | fail_if_no_progress apply good_upd | simp only [goodP_iff] | dsimp only | split

theorem good_execMbxAckTimeout {q : List Instr} (f : Nat) (s : State) (hs : Good q s) : GoodT q (execMbxAckTimeout f s) := by
  unfold execMbxAckTimeout
  with_reducible repeat' first | assumption | intro _ | apply goodT_next | apply goodT_ite | apply goodP_ite | apply good_ite | apply good_id | apply good_foldl | apply good_mapGetD | apply good_modMb | apply good_wr | apply goodP_foldl | fail_if_no_progress apply good_upd | simp only [goodP_iff] | dsimp only | split

theorem good_tookTurn {q : List Instr} (s : State) (core : Nat) (turn : Nat) (hs : Good q s) : Good q (State.tookTurn s core turn) := by
  unfold State.tookTurn
  with_reducible repeat' first | assumption | intro _ | apply good_ite | apply good_id | apply good_foldl | apply good_mapGetD | apply goodP_foldl | fail_if_no_progress apply good_upd | simp only [goodP_iff] | dsimp only | split

theorem good_execDriverAbsent {q : List Instr} (f : Nat) (s : State) (hs : Good q s) : GoodT q (execDriverAbsent f s) := by
  unfold execDriverAbsent
  with_reducible repeat' first | assumption | intro _ | apply goodT_next | apply goodT_ite | apply goodP_ite | apply good_ite | apply good_id | apply good_foldl | apply good_mapGetD | apply good_raise | apply good_modMb | apply goodP_foldl | fail_if_no_progress apply good_upd | simp only [goodP_iff] | dsimp only | split

theorem good_dbMask {q : List Instr} (s : State) (f : Nat) (v : Nat) (hs : Good q s) : Good q (State.dbMask s f v) := by
  unfold State.dbMask
  with_reducible repeat' first | assumption | intro _ | apply good_ite | apply good_id | apply good_foldl | apply good_mapGetD | apply good_doorbellSync | apply good_dbTrack | apply good_put | apply goodP_foldl | fail_if_no_progress apply good_upd | simp only [goodP_iff] | dsimp only | split

theorem good_onTime {q : List Instr} (s : State) (c : EciCmd) (us : Option Nat) (hs : Good q s) : Good q (State.onTime s c us) := by
  unfold State.onTime
  with_reducible repeat' first | assumption | intro _ | apply good_ite | apply good_id | apply good_foldl | apply good_mapGetD | apply good_when | apply good_raiseMs | apply goodP_foldl | fail_if_no_progress apply good_upd | simp only [goodP_iff] | dsimp only | split

theorem good_adminReply {q : List Instr} (s : State) (f : Nat) (rc : Nat) (resp : List Nat) (bad : Bool) (hs : Good q s) : Good q (State.adminReply s f rc resp bad) := by
  unfold State.adminReply
  with_reducible repeat' first | assumption | intro _ | apply good_ite | apply good_id | apply good_foldl | apply good_mapGetD | apply good_onTime | apply good_hostWrite | apply good_postCpl | apply good_markDone | apply goodP_foldl | fail_if_no_progress apply good_upd | simp only [goodP_iff] | dsimp only | split

theorem good_longDone {q : List Instr} (s : State) (f : Nat) (rc : Nat) (resp : List Nat) (hs : Good q s) : Good q (State.longDone s f rc resp) := by
  unfold State.longDone
  with_reducible repeat' first | assumption | intro _ | apply good_ite | apply good_id | apply good_foldl | apply good_mapGetD | apply good_adminReply | apply good_onTime | apply goodP_foldl | fail_if_no_progress apply good_upd | simp only [goodP_iff] | dsimp only | split

theorem good_dmaIn {q : List Instr} (s : State) (f : Nat) (addr : Nat) (n : Nat) (r : Option HostReply) (hs : Good q s) : GoodP q (State.dmaIn s f addr n r) := by
  unfold State.dmaIn
  with_reducible repeat' first | assumption | intro _ | apply goodP_ite | apply good_ite | apply good_id | apply good_foldl | apply good_mapGetD | apply good_sendRead | apply good_readFailed | apply goodP_foldl | fail_if_no_progress apply good_upd | simp only [goodP_iff] | dsimp only | split

theorem good_dbToFw {q : List Instr} (s : State) (f : Nat) (v : Nat) (hs : Good q s) : Good q (State.dbToFw s f v) := by
  unfold State.dbToFw
  with_reducible repeat' first | assumption | intro _ | apply good_ite | apply good_id | apply good_foldl | apply good_mapGetD | apply good_when | apply good_modMb | apply goodP_foldl | fail_if_no_progress apply good_upd | simp only [goodP_iff] | dsimp only | split

theorem good_execDbToFwReady {q : List Instr} (f : Nat) (v : Nat) (s : State) (hs : Good q s) : GoodT q (execDbToFwReady f v s) := by
  unfold execDbToFwReady
  with_reducible repeat' first | assumption | intro _ | apply goodT_next | apply goodT_ite | apply goodP_ite | apply good_ite | apply good_id | apply good_foldl | apply good_mapGetD | apply good_dbToFw | apply goodP_foldl | fail_if_no_progress apply good_upd | simp only [goodP_iff] | dsimp only | split

theorem good_mbxReply {q : List Instr} (s : State) (f : Nat) (rc : Nat) (resp : List Nat) (bad : Bool) (hs : Good q s) : Good q (State.mbxReply s f rc resp bad) := by
  unfold State.mbxReply
  with_reducible repeat' first | assumption | intro _ | apply good_ite | apply good_id | apply good_foldl | apply good_mapGetD | apply good_onTime | apply good_modMb | apply good_each | apply good_put | apply good_setDoorbell | apply good_wr | apply goodP_foldl | fail_if_no_progress apply good_upd | simp only [goodP_iff] | dsimp only | split

theorem good_execCmdAccept {q : List Instr} (f : Nat) (bad : Bool) (s : State) (hs : Good q s) : GoodT q (execCmdAccept f bad s) := by
  unfold execCmdAccept
  with_reducible repeat' first | assumption | intro _ | apply goodT_next | apply goodT_ite | apply goodP_ite | apply good_ite | apply good_id | apply good_foldl | apply good_mapGetD | apply good_modMb | apply good_wr | apply good_tookTurn | apply good_mbxReply | apply goodP_foldl | fail_if_no_progress apply good_upd | simp only [goodP_iff] | dsimp only | split

theorem good_execAdminEntryTake {q : List Instr} (f : Nat) (entry : HostReply) (payload : HostReply) (s : State) (hs : Good q s) : GoodT q (execAdminEntryTake f entry payload s) := by
  unfold execAdminEntryTake
  with_reducible repeat' first | assumption | intro _ | apply goodT_next | apply goodT_ite | apply goodP_ite | apply good_ite | apply good_id | apply good_foldl | apply good_mapGetD | apply good_sendRead | apply good_tookTurn | apply good_modRing | apply good_adminReply | apply good_readFailed | apply good_used | apply goodP_foldl | fail_if_no_progress apply good_upd | simp only [goodP_iff] | dsimp only | split

theorem good_bufferOut {q : List Instr} (s : State) (f : Nat) (addr : Nat) (len : Nat) (out : Bytes) (r : Option HostReply) (resp : List Nat) (hs : Good q s) : GoodE q (State.bufferOut s f addr len out r resp) := by
  unfold State.bufferOut
  with_reducible repeat' first | assumption | intro _ | apply goodE_done | apply goodE_ite | apply goodE_wait | apply goodE_held | apply goodE_started | apply goodP_ite | apply good_ite | apply good_id | apply good_foldl | apply good_mapGetD | apply good_hostWrite | apply goodP_foldl | fail_if_no_progress apply good_upd | simp only [goodP_iff] | dsimp only | split

theorem good_dbW1c {q : List Instr} (s : State) (f : Nat) (v : Nat) (hs : Good q s) : Good q (State.dbW1c s f v) := by
  unfold State.dbW1c
  with_reducible repeat' first | assumption | intro _ | apply good_ite | apply good_id | apply good_foldl | apply good_mapGetD | apply good_dbTrack | apply good_put | apply good_wr | apply good_message | apply goodP_foldl | fail_if_no_progress apply good_upd | simp only [goodP_iff] | dsimp only | split

theorem good_execDbFromFwW1c {q : List Instr} (f : Nat) (v : Nat) (s : State) (hs : Good q s) : GoodT q (execDbFromFwW1c f v s) := by
  unfold execDbFromFwW1c
  with_reducible repeat' first | assumption | intro _ | apply goodT_next | apply goodT_ite | apply goodP_ite | apply good_ite | apply good_id | apply good_foldl | apply good_mapGetD | apply good_dbW1c | apply goodP_foldl | fail_if_no_progress apply good_upd | simp only [goodP_iff] | dsimp only | split

theorem good_execDbFromFwMaskWrite {q : List Instr} (f : Nat) (v : Nat) (s : State) (hs : Good q s) : GoodT q (execDbFromFwMaskWrite f v s) := by
  unfold execDbFromFwMaskWrite
  with_reducible repeat' first | assumption | intro _ | apply goodT_next | apply goodT_ite | apply goodP_ite | apply good_ite | apply good_id | apply good_foldl | apply good_mapGetD | apply good_dbMask | apply goodP_foldl | fail_if_no_progress apply good_upd | simp only [goodP_iff] | dsimp only | split

theorem good_eciReply {q : List Instr} (s : State) (f : Nat) (path : EciPath) (rc : Nat) (resp : List Nat) (bad : Bool) (hs : Good q s) : Good q (State.eciReply s f path rc resp bad) := by
  unfold State.eciReply
  with_reducible repeat' first | assumption | intro _ | apply good_ite | apply good_id | apply good_foldl | apply good_mapGetD | apply good_mbxReply | apply good_adminReply | apply goodP_foldl | fail_if_no_progress apply good_upd | simp only [goodP_iff] | dsimp only | split

theorem good_execDbToFwUnload {q : List Instr} (f : Nat) (v : Nat) (s : State) (hs : Good q s) : GoodT q (execDbToFwUnload f v s) := by
  unfold execDbToFwUnload
  with_reducible repeat' first | assumption | intro _ | apply goodT_next | apply goodT_ite | apply goodP_ite | apply good_ite | apply good_id | apply good_foldl | apply good_mapGetD | apply good_dbToFw | apply goodP_foldl | fail_if_no_progress apply good_upd | simp only [goodP_iff] | dsimp only | split

theorem good_mbxCmd {q : List Instr} (s : State) (f : Nat) (v : Nat) (hs : Good q s) : Good q (State.mbxCmd s f v) := by
  unfold State.mbxCmd
  with_reducible repeat' first | assumption | intro _ | apply good_ite | apply good_id | apply good_foldl | apply good_mapGetD | apply good_wr | apply good_put | apply good_modMb | apply goodP_foldl | fail_if_no_progress apply good_upd | simp only [goodP_iff] | dsimp only | split

theorem good_execMbxCmdWrite {q : List Instr} (f : Nat) (v : Nat) (s : State) (hs : Good q s) : GoodT q (execMbxCmdWrite f v s) := by
  unfold execMbxCmdWrite
  with_reducible repeat' first | assumption | intro _ | apply goodT_next | apply goodT_ite | apply goodP_ite | apply good_ite | apply good_id | apply good_foldl | apply good_mapGetD | apply good_mbxCmd | apply goodP_foldl | fail_if_no_progress apply good_upd | simp only [goodP_iff] | dsimp only | split

/-- A command keeps the invariant when its own run does, on payloads its checks let through. -/
theorem good_eci {q : List Instr} (s : State) (e : Eci) (code : Nat) (pick denied : List Nat → Bool) (masks : List Nat)
    (bad : List Nat → Bool) (run : List Nat → EciOut) (hs : Good q s) (hrun : ∀ a, bad a = false → GoodE q (run a)) :
    GoodT q (s.eci e code pick denied masks bad run) := by
  have reply : ∀ t rc w, Good q t → GoodT q (.next (t.eciReply e.fn e.path rc w e.badOut)) :=
    fun t rc w ht => goodT_next (good_eciReply t _ _ _ _ _ ht)
  unfold State.eci
  split
  · exact goodT_next hs
  · next c hc =>
    refine goodT_ite (goodT_next hs) (goodT_ite (reply _ _ _ hs) (goodT_ite (reply _ _ _ hs) (goodT_ite (reply _ _ _ hs) ?_)))
    split
    · exact reply _ _ _ hs
    · next hb =>
      have hb : bad c.words = false := by simp only [Bool.or_eq_true, not_or, Bool.not_eq_true] at hb; exact hb.2
      refine goodT_ite (reply _ _ _ hs) ?_
      have hr := hrun c.words hb
      split
      · exact goodT_next hs
      · next heq => exact goodT_next (goodE_held_elim heq hr)
      · next heq => exact reply _ _ _ (goodE_elim heq hr)
      · next heq =>
        have ht := goodE_started_elim heq hr
        have hu : ∀ l : SMap (Option LongCmd), Good q { State.used _ with longs := l } := fun l => good_upd (good_used _ ht)
        exact goodT_next (good_ite (good_mbxReply _ _ _ _ _ (hu _)) (hu _))

end Sys2Proof.Machine
end

