-- ==== Sys2Proof/Laws/KeepsEciQueue.lean ====
section
/-! SUPPORT. The operations of EciQueue.lean keep the queue and the invariant. -/

set_option linter.unusedTactic false
set_option linter.unreachableTactic false
set_option linter.unusedSimpArgs false
set_option linter.unusedVariables false

namespace Sys2Proof.Machine

theorem good_removeRing {q : List Instr} (s : State) (key : Nat) (hs : Good q s) : Good q (State.removeRing s key) := by
  unfold State.removeRing
  with_reducible repeat' first | assumption | intro _ | apply good_ite | apply good_id | apply good_foldl | apply good_mapGetD | apply good_dropHeld | fail_if_no_progress apply good_upd | dsimp only | split

theorem good_countFrom {q : List Instr} (s : State) (e : Eci) (t : Nat) (hs : Good q s) : Good q (State.countFrom s e t) := by
  unfold State.countFrom
  with_reducible repeat' first | assumption | intro _ | apply good_ite | apply good_id | apply good_foldl | apply good_mapGetD | apply good_modMb | fail_if_no_progress apply good_upd | dsimp only | split

theorem good_execQueueDestroy {q : List Instr} (e : Eci) (s : State) (hs : Good q s) : GoodT q (execQueueDestroy e s) := by
  unfold execQueueDestroy
  with_reducible repeat' first | assumption | intro _ | apply goodT_next | apply goodT_ite | apply goodP_ite | apply good_ite | apply good_id | apply good_foldl | apply good_mapGetD | apply goodE_done | apply goodE_ite | apply goodE_wait | apply goodE_held | apply goodE_started | apply goodP_ite | apply good_eci | apply good_removeRing | apply good_countFrom | fail_if_no_progress apply good_upd | simp only [goodP_iff] | (apply goodT_elim; assumption) | (apply goodT_elim rfl; assumption) | dsimp only | split

theorem good_createAdmin {q : List Instr} (s : State) (f : Nat) (p : List Nat) (hs : Good q s) : Good q (State.createAdmin s f p) := by
  unfold State.createAdmin
  with_reducible repeat' first | assumption | intro _ | apply good_ite | apply good_id | apply good_foldl | apply good_mapGetD | fail_if_no_progress apply good_upd | dsimp only | split

theorem good_execAdminCreate {q : List Instr} (e : Eci) (s : State) (hs : Good q s) : GoodT q (execAdminCreate e s) := by
  unfold execAdminCreate
  with_reducible repeat' first | assumption | intro _ | apply goodT_next | apply goodT_ite | apply goodP_ite | apply good_ite | apply good_id | apply good_foldl | apply good_mapGetD | apply goodE_done | apply goodE_ite | apply goodE_wait | apply goodE_held | apply goodE_started | apply goodP_ite | apply good_eci | apply good_createAdmin | fail_if_no_progress apply good_upd | simp only [goodP_iff] | (apply goodT_elim; assumption) | (apply goodT_elim rfl; assumption) | dsimp only | split

theorem good_destroyAdmin {q : List Instr} (s : State) (f : Nat) (hs : Good q s) : Good q (State.destroyAdmin s f) := by
  unfold State.destroyAdmin
  with_reducible repeat' first | assumption | intro _ | apply good_ite | apply good_id | apply good_foldl | apply good_mapGetD | fail_if_no_progress apply good_upd | dsimp only | split

theorem good_execAdminDestroy {q : List Instr} (e : Eci) (s : State) (hs : Good q s) : GoodT q (execAdminDestroy e s) := by
  unfold execAdminDestroy
  with_reducible repeat' first | assumption | intro _ | apply goodT_next | apply goodT_ite | apply goodP_ite | apply good_ite | apply good_id | apply good_foldl | apply good_mapGetD | apply goodE_done | apply goodE_ite | apply goodE_wait | apply goodE_held | apply goodE_started | apply goodP_ite | apply good_eci | apply good_destroyAdmin | fail_if_no_progress apply good_upd | simp only [goodP_iff] | (apply goodT_elim; assumption) | (apply goodT_elim rfl; assumption) | dsimp only | split

theorem good_pollLong {q : List Instr} (s : State) (f : Nat) (ticket : Nat) (hs : Good q s) : GoodE q (State.pollLong s f ticket) := by
  unfold State.pollLong
  with_reducible repeat' first | assumption | intro _ | apply goodE_done | apply goodE_ite | apply goodE_wait | apply goodE_held | apply goodE_started | apply goodP_ite | apply good_ite | apply good_id | apply good_foldl | apply good_mapGetD | fail_if_no_progress apply good_upd | simp only [goodP_iff] | dsimp only | split

theorem good_createRing {q : List Instr} (s : State) (f : Nat) (p : List Nat) (hs : Good q s) : GoodE q (State.createRing s f p) := by
  unfold State.createRing
  with_reducible repeat' first | assumption | intro _ | apply goodE_done | apply goodE_ite | apply goodE_wait | apply goodE_held | apply goodE_started | apply goodP_ite | apply good_ite | apply good_id | apply good_foldl | apply good_mapGetD | apply good_used | fail_if_no_progress apply good_upd | simp only [goodP_iff] | dsimp only | split

theorem good_execQueueCreate {q : List Instr} (e : Eci) (s : State) (hs : Good q s) : GoodT q (execQueueCreate e s) := by
  unfold execQueueCreate
  with_reducible repeat' first | assumption | intro _ | apply goodT_next | apply goodT_ite | apply goodP_ite | apply good_ite | apply good_id | apply good_foldl | apply good_mapGetD | apply good_eci | apply good_createRing | fail_if_no_progress apply good_upd | simp only [goodP_iff] | (apply goodE_elim; assumption) | (apply goodE_held_elim; assumption) | (apply goodE_started_elim; assumption) | (apply goodT_elim; assumption) | (apply goodT_elim rfl; assumption) | dsimp only | split

theorem good_startRing {q : List Instr} (s : State) (key : Nat) (hs : Good q s) : Good q (State.startRing s key) := by
  unfold State.startRing
  with_reducible repeat' first | assumption | intro _ | apply good_ite | apply good_id | apply good_foldl | apply good_mapGetD | apply good_setRingState | apply good_modRing | apply good_dropFetch | apply good_when | apply good_flushPend | apply good_fetchNext | fail_if_no_progress apply good_upd | dsimp only | split

theorem good_execQueueStart {q : List Instr} (e : Eci) (s : State) (hs : Good q s) : GoodT q (execQueueStart e s) := by
  unfold execQueueStart
  with_reducible repeat' first | assumption | intro _ | apply goodT_next | apply goodT_ite | apply goodP_ite | apply good_ite | apply good_id | apply good_foldl | apply good_mapGetD | apply goodE_done | apply goodE_ite | apply goodE_wait | apply goodE_held | apply goodE_started | apply goodP_ite | apply good_eci | apply good_startRing | fail_if_no_progress apply good_upd | simp only [goodP_iff] | (apply goodT_elim; assumption) | (apply goodT_elim rfl; assumption) | dsimp only | split

theorem good_execQueueInvalidate {q : List Instr} (e : Eci) (s : State) (hs : Good q s) : GoodT q (execQueueInvalidate e s) := by
  unfold execQueueInvalidate
  with_reducible repeat' first | assumption | intro _ | apply goodT_next | apply goodT_ite | apply goodP_ite | apply good_ite | apply good_id | apply good_foldl | apply good_mapGetD | apply goodE_done | apply goodE_ite | apply goodE_wait | apply goodE_held | apply goodE_started | apply goodP_ite | apply good_eci | apply good_fetchNext | apply good_invalidate | fail_if_no_progress apply good_upd | simp only [goodP_iff] | (apply goodT_elim; assumption) | (apply goodT_elim rfl; assumption) | dsimp only | split

theorem good_execEciVersion {q : List Instr} (e : Eci) (s : State) (hs : Good q s) : GoodT q (execEciVersion e s) := by
  unfold execEciVersion
  with_reducible repeat' first | assumption | intro _ | apply goodT_next | apply goodT_ite | apply goodP_ite | apply good_ite | apply good_id | apply good_foldl | apply good_mapGetD | apply goodE_done | apply goodE_ite | apply goodE_wait | apply goodE_held | apply goodE_started | apply goodP_ite | apply good_eci | fail_if_no_progress apply good_upd | simp only [goodP_iff] | (apply goodT_elim; assumption) | (apply goodT_elim rfl; assumption) | dsimp only | split

theorem good_execQueueStop {q : List Instr} (e : Eci) (s : State) (hs : Good q s) : GoodT q (execQueueStop e s) := by
  unfold execQueueStop
  with_reducible repeat' first | assumption | intro _ | apply goodT_next | apply goodT_ite | apply goodP_ite | apply good_ite | apply good_id | apply good_foldl | apply good_mapGetD | apply goodE_done | apply goodE_ite | apply goodE_wait | apply goodE_held | apply goodE_started | apply goodP_ite | apply good_eci | apply good_stopRing | fail_if_no_progress apply good_upd | simp only [goodP_iff] | (apply goodT_elim; assumption) | (apply goodT_elim rfl; assumption) | dsimp only | split

theorem good_execQueueQuery {q : List Instr} (e : Eci) (s : State) (hs : Good q s) : GoodT q (execQueueQuery e s) := by
  unfold execQueueQuery
  with_reducible repeat' first | assumption | intro _ | apply goodT_next | apply goodT_ite | apply goodP_ite | apply good_ite | apply good_id | apply good_foldl | apply good_mapGetD | apply goodE_done | apply goodE_ite | apply goodE_wait | apply goodE_held | apply goodE_started | apply goodP_ite | apply good_eci | fail_if_no_progress apply good_upd | simp only [goodP_iff] | (apply goodT_elim; assumption) | (apply goodT_elim rfl; assumption) | dsimp only | split

theorem good_execEciIdentity {q : List Instr} (e : Eci) (s : State) (hs : Good q s) : GoodT q (execEciIdentity e s) := by
  unfold execEciIdentity
  with_reducible repeat' first | assumption | intro _ | apply goodT_next | apply goodT_ite | apply goodP_ite | apply good_ite | apply good_id | apply good_foldl | apply good_mapGetD | apply goodE_done | apply goodE_ite | apply goodE_wait | apply goodE_held | apply goodE_started | apply goodP_ite | apply good_eci | fail_if_no_progress apply good_upd | simp only [goodP_iff] | (apply goodT_elim; assumption) | (apply goodT_elim rfl; assumption) | dsimp only | split

theorem good_execEciPoll {q : List Instr} (e : Eci) (s : State) (hs : Good q s) : GoodT q (execEciPoll e s) := by
  unfold execEciPoll
  with_reducible repeat' first | assumption | intro _ | apply goodT_next | apply goodT_ite | apply goodP_ite | apply good_ite | apply good_id | apply good_foldl | apply good_mapGetD | apply good_eci | apply good_pollLong | fail_if_no_progress apply good_upd | simp only [goodP_iff] | (apply goodE_elim; assumption) | (apply goodE_held_elim; assumption) | (apply goodE_started_elim; assumption) | (apply goodT_elim; assumption) | (apply goodT_elim rfl; assumption) | dsimp only | split

theorem good_execEciFuncInfo {q : List Instr} (e : Eci) (s : State) (hs : Good q s) : GoodT q (execEciFuncInfo e s) := by
  unfold execEciFuncInfo
  with_reducible repeat' first | assumption | intro _ | apply goodT_next | apply goodT_ite | apply goodP_ite | apply good_ite | apply good_id | apply good_foldl | apply good_mapGetD | apply goodE_done | apply goodE_ite | apply goodE_wait | apply goodE_held | apply goodE_started | apply goodP_ite | apply good_eci | fail_if_no_progress apply good_upd | simp only [goodP_iff] | (apply goodT_elim; assumption) | (apply goodT_elim rfl; assumption) | dsimp only | split

end Sys2Proof.Machine
end

