-- ==== Sys2Proof/Laws/KeepsEciFn.lean ====
section
/-! SUPPORT. The operations of EciFn.lean keep the queue and the invariant. -/

set_option linter.unusedTactic false
set_option linter.unreachableTactic false
set_option linter.unusedSimpArgs false
set_option linter.unusedVariables false

namespace Sys2Proof.Machine

theorem good_journalOff {q : List Instr} (s : State) (hs : Good q s) : Good q (State.journalOff s) := by
  unfold State.journalOff
  with_reducible repeat' first | assumption | intro _ | apply good_ite | apply good_id | apply good_foldl | apply good_mapGetD | apply good_journalRing | apply good_wr | apply goodP_foldl | fail_if_no_progress apply good_upd | simp only [goodP_iff] | dsimp only | split

theorem good_linkDown {q : List Instr} (s : State) (port : Nat) (link : Nat) (hs : Good q s) : Good q (State.linkDown s port link) := by
  unfold State.linkDown
  with_reducible repeat' first | assumption | intro _ | apply good_ite | apply good_id | apply good_foldl | apply good_mapGetD | apply good_raise | apply goodP_foldl | fail_if_no_progress apply good_upd | simp only [goodP_iff] | dsimp only | split

theorem good_nextGen {q : List Instr} (s : State) (f : Nat) (hs : Good q s) : Good q (State.nextGen s f) := by
  unfold State.nextGen
  with_reducible repeat' first | assumption | intro _ | apply good_ite | apply good_id | apply good_foldl | apply good_mapGetD | apply good_wr | apply goodP_foldl | fail_if_no_progress apply good_upd | simp only [goodP_iff] | dsimp only | split

theorem good_rewriteRom {q : List Instr} (s : State) (f : Nat) (hs : Good q s) : Good q (State.rewriteRom s f) := by
  unfold State.rewriteRom
  with_reducible repeat' first | assumption | intro _ | apply good_ite | apply good_id | apply good_foldl | apply good_mapGetD | apply good_raiseFn | apply good_modFn | apply goodP_foldl | fail_if_no_progress apply good_upd | simp only [goodP_iff] | dsimp only | split

theorem good_grant {q : List Instr} (s : State) (f : Nat) (g : Grants) (hs : Good q s) : Good q (State.grant s f g) := by
  unfold State.grant
  with_reducible repeat' first | assumption | intro _ | apply good_ite | apply good_id | apply good_foldl | apply good_mapGetD | apply good_modFn | apply good_rewriteRom | apply good_when | apply good_wr | apply goodP_foldl | fail_if_no_progress apply good_upd | simp only [goodP_iff] | dsimp only | split

theorem good_configReset {q : List Instr} (s : State) (f : Nat) (hs : Good q s) : Good q (State.configReset s f) := by
  unfold State.configReset
  with_reducible repeat' first | assumption | intro _ | apply good_ite | apply good_id | apply good_foldl | apply good_mapGetD | apply good_atsRemove | apply good_modFn | apply goodP_foldl | fail_if_no_progress apply good_upd | simp only [goodP_iff] | apply goodP_fst | (apply goodP_elim; assumption) | dsimp only | split

theorem good_mailboxReset {q : List Instr} (s : State) (f : Nat) (hs : Good q s) : Good q (s.mailboxReset f) := by
  unfold State.mailboxReset
  exact good_wr _ _ _ _ (good_upd (good_regs hs (rising_filter _ _ hs.2.2.2.2.2.2.1)))

theorem good_abandonAll {q : List Instr} (s : State) (f : Nat) (hs : Good q s) : Good q (State.abandonAll s f) := by
  unfold State.abandonAll
  with_reducible repeat' first | assumption | intro _ | apply good_ite | apply good_id | apply good_foldl | apply good_mapGetD | apply goodP_foldl | fail_if_no_progress apply good_upd | simp only [goodP_iff] | dsimp only | split

theorem good_destroyRings {q : List Instr} (s : State) (f : Nat) (hs : Good q s) : Good q (State.destroyRings s f) := by
  unfold State.destroyRings
  with_reducible repeat' first | assumption | intro _ | apply good_ite | apply good_id | apply good_foldl | apply good_mapGetD | apply good_each | apply good_endPkt | apply goodP_foldl | fail_if_no_progress apply good_upd | simp only [goodP_iff] | dsimp only | split

theorem good_eventsReset {q : List Instr} (s : State) (f : Nat) (hs : Good q s) : Good q (State.eventsReset s f) := by
  unfold State.eventsReset
  with_reducible repeat' first | assumption | intro _ | apply good_ite | apply good_id | apply good_foldl | apply good_mapGetD | apply good_put | apply good_when | apply good_each | apply goodP_foldl | fail_if_no_progress apply good_upd | simp only [goodP_iff] | dsimp only | split

theorem good_removeEntries {q : List Instr} (s : State) (f : Nat) (hs : Good q s) : Good q (State.removeEntries s f) := by
  unfold State.removeEntries
  with_reducible repeat' first | assumption | intro _ | apply good_ite | apply good_id | apply good_foldl | apply good_mapGetD | apply good_each | apply good_l2Write | apply good_flowRemove | apply goodP_foldl | fail_if_no_progress apply good_upd | simp only [goodP_iff] | dsimp only | split

theorem good_resetObjects {q : List Instr} (s : State) (f : Nat) (hs : Good q s) : Good q (State.resetObjects s f) := by
  unfold State.resetObjects
  with_reducible repeat' first | assumption | intro _ | apply good_ite | apply good_id | apply good_foldl | apply good_mapGetD | apply good_abandonAll | apply good_destroyRings | apply good_each | apply good_removeNode | apply good_eventsReset | apply good_removeEntries | apply goodP_foldl | fail_if_no_progress apply good_upd | simp only [goodP_iff] | dsimp only | split

theorem good_dropVf {q : List Instr} (s : State) (f : Nat) (hs : Good q s) : Good q (State.dropVf s f) := by
  unfold State.dropVf
  with_reducible repeat' first | assumption | intro _ | apply good_ite | apply good_id | apply good_foldl | apply good_mapGetD | apply good_configReset | apply good_flrCopies | apply good_mailboxReset | apply good_discardReads | apply good_nextGen | apply good_wr | apply good_modFn | apply good_resetObjects | apply goodP_foldl | fail_if_no_progress apply good_upd | simp only [goodP_iff] | dsimp only | split

theorem good_vfEnable {q : List Instr} (s : State) (pf : Nat) (on : Bool) (num : Nat) (hs : Good q s) : Good q (State.vfEnable s pf on num) := by
  unfold State.vfEnable
  with_reducible repeat' first | assumption | intro _ | apply good_ite | apply good_id | apply good_foldl | apply good_mapGetD | apply good_modFn | apply good_each | apply good_grant | apply good_dropVf | apply good_raise | apply goodP_foldl | fail_if_no_progress apply good_upd | simp only [goodP_iff] | dsimp only | split

theorem good_flrStart {q : List Instr} (s : State) (f : Nat) (hs : Good q s) : Good q (State.flrStart s f) := by
  unfold State.flrStart
  with_reducible repeat' first | assumption | intro _ | apply good_ite | apply good_id | apply good_foldl | apply good_mapGetD | apply good_wr | apply good_nextGen | apply good_discardReads | apply good_raise | apply good_when | apply good_vfEnable | apply good_configReset | apply good_abandonAll | apply good_mailboxReset | apply goodP_foldl | fail_if_no_progress apply good_upd | simp only [goodP_iff] | dsimp only | split

theorem good_resetLink {q : List Instr} (s : State) (port : Nat) (link : Nat) (hs : Good q s) : Good q (State.resetLink s port link) := by
  unfold State.resetLink
  with_reducible repeat' first | assumption | intro _ | apply good_ite | apply good_id | apply good_foldl | apply good_mapGetD | apply good_each | apply good_linkDown | apply good_flrStart | apply goodP_foldl | fail_if_no_progress apply good_upd | simp only [goodP_iff] | dsimp only | split

theorem good_execPerstAssert {q : List Instr} (port : Nat) (s : State) (hs : Good q s) : GoodT q (execPerstAssert port s) := by
  unfold execPerstAssert
  with_reducible repeat' first | assumption | intro _ | apply goodT_next | apply goodT_ite | apply goodP_ite | apply good_ite | apply good_id | apply good_foldl | apply good_mapGetD | apply good_raise | apply good_when | apply good_resetLink | apply goodP_foldl | fail_if_no_progress apply good_upd | simp only [goodP_iff] | dsimp only | split

theorem good_execVfEnableWrite {q : List Instr} (pf : Nat) (on : Bool) (num : Nat) (s : State) (hs : Good q s) : GoodT q (execVfEnableWrite pf on num s) := by
  unfold execVfEnableWrite
  with_reducible repeat' first | assumption | intro _ | apply goodT_next | apply goodT_ite | apply goodP_ite | apply good_ite | apply good_id | apply good_foldl | apply good_mapGetD | apply good_vfEnable | apply goodP_foldl | fail_if_no_progress apply good_upd | simp only [goodP_iff] | dsimp only | split

theorem good_quiesceStart {q : List Instr} (s : State) (f : Nat) (hs : Good q s) : Good q (State.quiesceStart s f) := by
  unfold State.quiesceStart
  with_reducible repeat' first | assumption | intro _ | apply good_ite | apply good_id | apply good_foldl | apply good_mapGetD | apply good_wr | apply good_each | apply good_dropHeld | apply good_quiesceCopies | apply goodP_foldl | fail_if_no_progress apply good_upd | simp only [goodP_iff] | dsimp only | split

theorem good_execFnQuiesce {q : List Instr} (e : Eci) (s : State) (hs : Good q s) : GoodT q (execFnQuiesce e s) := by
  unfold execFnQuiesce
  with_reducible repeat' first | assumption | intro _ | apply goodT_next | apply goodT_ite | apply goodP_ite | apply good_ite | apply good_id | apply good_foldl | apply good_mapGetD | apply goodE_done | apply goodE_ite | apply goodE_wait | apply goodE_held | apply goodE_started | apply goodP_ite | apply good_eci | apply good_quiesceStart | apply goodP_foldl | fail_if_no_progress apply good_upd | simp only [goodP_iff] | (apply goodT_elim; assumption) | (apply goodT_elim rfl; assumption) | dsimp only | split

theorem good_releaseFn {q : List Instr} (s : State) (f : Nat) (hs : Good q s) : Good q (State.releaseFn s f) := by
  unfold State.releaseFn
  with_reducible repeat' first | assumption | intro _ | apply good_ite | apply good_id | apply good_foldl | apply good_mapGetD | apply good_wr | apply good_each | apply good_when | apply good_setRingState | apply good_fetchNext | apply good_flushPend | apply good_sendPending | apply goodP_foldl | fail_if_no_progress apply good_upd | simp only [goodP_iff] | dsimp only | split

theorem good_execFlrStart {q : List Instr} (f : Nat) (s : State) (hs : Good q s) : GoodT q (execFlrStart f s) := by
  unfold execFlrStart
  with_reducible repeat' first | assumption | intro _ | apply goodT_next | apply goodT_ite | apply goodP_ite | apply good_ite | apply good_id | apply good_foldl | apply good_mapGetD | apply good_flrStart | apply goodP_foldl | fail_if_no_progress apply good_upd | simp only [goodP_iff] | dsimp only | split

theorem good_destroyContexts {q : List Instr} (s : State) (f : Nat) (g : Nat) (hs : Good q s) : Good q (State.destroyContexts s f g) := by
  unfold State.destroyContexts
  with_reducible repeat' first | assumption | intro _ | apply good_ite | apply good_id | apply good_foldl | apply good_mapGetD | apply good_oflRest | apply good_oflUsed | apply goodP_foldl | fail_if_no_progress apply good_upd | simp only [goodP_iff] | dsimp only | split

theorem good_flushFunction {q : List Instr} (s : State) (f : Nat) (half : Nat) (hs : Good q s) : Good q (State.flushFunction s f half) := by
  unfold State.flushFunction
  with_reducible repeat' first | assumption | intro _ | apply good_ite | apply good_id | apply good_foldl | apply good_mapGetD | apply good_each | apply good_flushWhere | apply goodP_foldl | fail_if_no_progress apply good_upd | simp only [goodP_iff] | dsimp only | split

theorem good_flrDiscard {q : List Instr} (s : State) (f : Nat) (e : Nat) (hs : Good q s) : GoodO q (State.flrDiscard s f e) := by
  unfold State.flrDiscard
  with_reducible repeat' first | assumption | intro _ | apply goodO_some | apply goodO_none | apply goodO_ite | apply good_ite | apply good_id | apply good_foldl | apply good_mapGetD | apply good_destroyContexts | apply good_flrCopies | apply good_flushFunction | apply goodP_foldl | fail_if_no_progress apply good_upd | simp only [goodP_iff] | dsimp only | split

theorem good_flrOthers {q : List Instr} (s : State) (f : Nat) (hs : Good q s) : Good q (State.flrOthers s f) := by
  unfold State.flrOthers
  with_reducible repeat' first | assumption | intro _ | apply good_ite | apply good_id | apply good_foldl | apply good_mapGetD | apply good_when | apply good_wr | apply good_each | apply good_longDone | apply goodP_foldl | fail_if_no_progress apply good_upd | simp only [goodP_iff] | dsimp only | split

theorem good_flrComplete {q : List Instr} (s : State) (f : Nat) (hs : Good q s) : Good q (State.flrComplete s f) := by
  unfold State.flrComplete
  with_reducible repeat' first | assumption | intro _ | apply good_ite | apply good_id | apply good_foldl | apply good_mapGetD | apply good_resetObjects | apply good_wr | apply good_flrOthers | apply good_unfence | apply good_when | apply good_journalOff | apply good_setDoorbell | apply goodP_foldl | fail_if_no_progress apply good_upd | simp only [goodP_iff] | dsimp only | split

theorem good_flrAck {q : List Instr} (s : State) (f : Nat) (e : Nat) (hs : Good q s) : Good q (State.flrAck s f e) := by
  unfold State.flrAck
  with_reducible repeat' first | assumption | intro _ | apply good_ite | apply good_id | apply good_foldl | apply good_mapGetD | apply good_flrComplete | apply goodP_foldl | fail_if_no_progress apply good_upd | simp only [goodP_iff] | dsimp only | split

theorem good_execFlrEngineAck {q : List Instr} (f : Nat) (engine : Nat) (s : State) (hs : Good q s) : GoodT q (execFlrEngineAck f engine s) := by
  unfold execFlrEngineAck
  with_reducible repeat' first | assumption | intro _ | apply goodT_next | apply goodT_ite | apply goodP_ite | apply good_ite | apply good_id | apply good_foldl | apply good_mapGetD | apply good_flrDiscard | apply good_flrAck | apply goodP_foldl | fail_if_no_progress apply good_upd | simp only [goodP_iff] | apply goodO_getD | (apply goodO_elim; assumption) | dsimp only | split

theorem good_moveRole {q : List Instr} (s : State) (pf : Nat) (hs : Good q s) (hp : managerLegal pf) : Good q (s.moveRole pf) := by
  unfold State.moveRole
  refine good_each _ _ _ (good_rewriteRom _ _ (good_rewriteRom _ _ (good_journalCfg _ _ _ _ (good_manager ?_ hp)))) (fun a t ht => good_setDoorbell _ _ _ ht)
  exact good_each _ _ _ (good_journalOff _ hs) (fun a t ht => good_removeRing _ _ ht)

theorem good_execMgrRole {q : List Instr} (e : Eci) (s : State) (hs : Good q s) : GoodT q (execMgrRole e s) := by
  unfold execMgrRole
  refine good_eci _ _ _ _ _ _ _ _ hs (fun p hp => ?_)
  refine goodE_ite goodE_wait (goodE_done (good_moveRole _ _ hs ?_))
  simp only [mayManage, Bool.or_eq_false_iff, Bool.not_eq_false', Bool.or_eq_true, beq_iff_eq] at hp
  rcases hp.1 with h | h
  · exact .inl h
  · exact .inr (.inl h)

theorem good_execQuiescePendingTimeout {q : List Instr} (f : Nat) (s : State) (hs : Good q s) : GoodT q (execQuiescePendingTimeout f s) := by
  unfold execQuiescePendingTimeout
  with_reducible repeat' first | assumption | intro _ | apply goodT_next | apply goodT_ite | apply goodP_ite | apply good_ite | apply good_id | apply good_foldl | apply good_mapGetD | apply goodP_foldl | fail_if_no_progress apply good_upd | simp only [goodP_iff] | dsimp only | split

theorem good_quiesced {q : List Instr} (s : State) (f : Nat) (hs : Good q s) : Good q (State.quiesced s f) := by
  unfold State.quiesced
  with_reducible repeat' first | assumption | intro _ | apply good_ite | apply good_id | apply good_foldl | apply good_mapGetD | apply good_each | apply good_unstart | apply good_wr | apply goodP_foldl | fail_if_no_progress apply good_upd | simp only [goodP_iff] | dsimp only | split

theorem good_execFnGrant {q : List Instr} (e : Eci) (s : State) (hs : Good q s) : GoodT q (execFnGrant e s) := by
  unfold execFnGrant
  with_reducible repeat' first | assumption | intro _ | apply goodT_next | apply goodT_ite | apply goodP_ite | apply good_ite | apply good_id | apply good_foldl | apply good_mapGetD | apply goodE_done | apply goodE_ite | apply goodE_wait | apply goodE_held | apply goodE_started | apply goodP_ite | apply good_eci | apply good_grant | apply goodP_foldl | fail_if_no_progress apply good_upd | simp only [goodP_iff] | (apply goodT_elim; assumption) | (apply goodT_elim rfl; assumption) | dsimp only | split

theorem good_execFnAssignVfs {q : List Instr} (e : Eci) (s : State) (hs : Good q s) : GoodT q (execFnAssignVfs e s) := by
  unfold execFnAssignVfs
  with_reducible repeat' first | assumption | intro _ | apply goodT_next | apply goodT_ite | apply goodP_ite | apply good_ite | apply good_id | apply good_foldl | apply good_mapGetD | apply goodE_done | apply goodE_ite | apply goodE_wait | apply goodE_held | apply goodE_started | apply goodP_ite | apply good_eci | apply good_each | apply good_modFn | apply goodP_foldl | fail_if_no_progress apply good_upd | simp only [goodP_iff] | (apply goodT_elim; assumption) | (apply goodT_elim rfl; assumption) | dsimp only | split

theorem good_migStart {q : List Instr} (s : State) (f : Nat) (k : Nat) (base : Nat) (log2 : Nat) (hs : Good q s) : Good q (State.migStart s f k base log2) := by
  unfold State.migStart
  with_reducible repeat' first | assumption | intro _ | apply good_ite | apply good_id | apply good_foldl | apply good_mapGetD | apply good_put | apply good_wr | apply goodP_foldl | fail_if_no_progress apply good_upd | simp only [goodP_iff] | dsimp only | split

theorem good_freeSlot {q : List Instr} (s : State) (f : Nat) (hs : Good q s) : Good q (State.freeSlot s f) := by
  unfold State.freeSlot
  with_reducible repeat' first | assumption | intro _ | apply good_ite | apply good_id | apply good_foldl | apply good_mapGetD | apply good_wr | apply goodP_foldl | fail_if_no_progress apply good_upd | simp only [goodP_iff] | dsimp only | split

theorem good_removeFn {q : List Instr} (s : State) (f : Nat) (hs : Good q s) : Good q (State.removeFn s f) := by
  unfold State.removeFn
  with_reducible repeat' first | assumption | intro _ | apply good_ite | apply good_id | apply good_foldl | apply good_mapGetD | apply good_resetObjects | apply good_nextGen | apply good_each | apply good_destroyContexts | apply good_freeSlot | apply good_removeNode | apply good_rewriteRom | apply good_wr | apply good_modFn | apply goodP_foldl | fail_if_no_progress apply good_upd | simp only [goodP_iff] | dsimp only | split

theorem good_execHifHotReset {q : List Instr} (port : Nat) (link : Nat) (s : State) (hs : Good q s) : GoodT q (execHifHotReset port link s) := by
  unfold execHifHotReset
  with_reducible repeat' first | assumption | intro _ | apply goodT_next | apply goodT_ite | apply goodP_ite | apply good_ite | apply good_id | apply good_foldl | apply good_mapGetD | apply good_resetLink | apply good_raise | apply goodP_foldl | fail_if_no_progress apply good_upd | simp only [goodP_iff] | dsimp only | split

theorem good_execFnRelease {q : List Instr} (e : Eci) (s : State) (hs : Good q s) : GoodT q (execFnRelease e s) := by
  unfold execFnRelease
  with_reducible repeat' first | assumption | intro _ | apply goodT_next | apply goodT_ite | apply goodP_ite | apply good_ite | apply good_id | apply good_foldl | apply good_mapGetD | apply goodE_done | apply goodE_ite | apply goodE_wait | apply goodE_held | apply goodE_started | apply goodP_ite | apply good_eci | apply good_releaseFn | apply goodP_foldl | fail_if_no_progress apply good_upd | simp only [goodP_iff] | (apply goodT_elim; assumption) | (apply goodT_elim rfl; assumption) | dsimp only | split

theorem good_execPerstDeassert {q : List Instr} (port : Nat) (s : State) (hs : Good q s) : GoodT q (execPerstDeassert port s) := by
  unfold execPerstDeassert
  with_reducible repeat' first | assumption | intro _ | apply goodT_next | apply goodT_ite | apply goodP_ite | apply good_ite | apply good_id | apply good_foldl | apply good_mapGetD | apply goodP_foldl | fail_if_no_progress apply good_upd | simp only [goodP_iff] | dsimp only | split

theorem good_migCons {q : List Instr} (s : State) (k : Nat) (v : Nat) (hs : Good q s) : Good q (State.migCons s k v) := by
  unfold State.migCons
  with_reducible repeat' first | assumption | intro _ | apply good_ite | apply good_id | apply good_foldl | apply good_mapGetD | apply good_logFwWrite | apply good_put | apply goodP_foldl | fail_if_no_progress apply good_upd | simp only [goodP_iff] | dsimp only | split

theorem good_execHifMigConsWrite {q : List Instr} (fn : Nat) (slot : Nat) (v : Nat) (s : State) (hs : Good q s) : GoodT q (execHifMigConsWrite fn slot v s) := by
  unfold execHifMigConsWrite
  with_reducible repeat' first | assumption | intro _ | apply goodT_next | apply goodT_ite | apply goodP_ite | apply good_ite | apply good_id | apply good_foldl | apply good_mapGetD | apply good_asManager | apply good_migCons | apply goodP_foldl | fail_if_no_progress apply good_upd | simp only [goodP_iff] | dsimp only | split

theorem good_execFnQuery {q : List Instr} (e : Eci) (s : State) (hs : Good q s) : GoodT q (execFnQuery e s) := by
  unfold execFnQuery
  with_reducible repeat' first | assumption | intro _ | apply goodT_next | apply goodT_ite | apply goodP_ite | apply good_ite | apply good_id | apply good_foldl | apply good_mapGetD | apply goodE_done | apply goodE_ite | apply goodE_wait | apply goodE_held | apply goodE_started | apply goodP_ite | apply good_eci | apply goodP_foldl | fail_if_no_progress apply good_upd | simp only [goodP_iff] | (apply goodT_elim; assumption) | (apply goodT_elim rfl; assumption) | dsimp only | split

theorem good_execFnRemove {q : List Instr} (e : Eci) (s : State) (hs : Good q s) : GoodT q (execFnRemove e s) := by
  unfold execFnRemove
  with_reducible repeat' first | assumption | intro _ | apply goodT_next | apply goodT_ite | apply goodP_ite | apply good_ite | apply good_id | apply good_foldl | apply good_mapGetD | apply goodE_done | apply goodE_ite | apply goodE_wait | apply goodE_held | apply goodE_started | apply goodP_ite | apply good_eci | apply good_removeFn | apply goodP_foldl | fail_if_no_progress apply good_upd | simp only [goodP_iff] | (apply goodT_elim; assumption) | (apply goodT_elim rfl; assumption) | dsimp only | split

theorem good_execFnMigrateLog {q : List Instr} (e : Eci) (s : State) (hs : Good q s) : GoodT q (execFnMigrateLog e s) := by
  unfold execFnMigrateLog
  with_reducible repeat' first | assumption | intro _ | apply goodT_next | apply goodT_ite | apply goodP_ite | apply good_ite | apply good_id | apply good_foldl | apply good_mapGetD | apply goodE_done | apply goodE_ite | apply goodE_wait | apply goodE_held | apply goodE_started | apply goodP_ite | apply good_eci | apply good_freeSlot | apply good_migStart | apply good_used | apply goodP_foldl | fail_if_no_progress apply good_upd | simp only [goodP_iff] | (apply goodT_elim; assumption) | (apply goodT_elim rfl; assumption) | dsimp only | split

end Sys2Proof.Machine
end

