-- ==== Sys2Proof/Laws/KeepsEciTables.lean ====
section
/-! SUPPORT. The operations of EciTables.lean keep the queue and the invariant. -/

set_option linter.unusedTactic false
set_option linter.unreachableTactic false
set_option linter.unusedSimpArgs false
set_option linter.unusedVariables false

namespace Sys2Proof.Machine

theorem good_execTblFlowDelete {q : List Instr} (e : Eci) (s : State) (hs : Good q s) : GoodT q (execTblFlowDelete e s) := by
  unfold execTblFlowDelete
  with_reducible repeat' first | assumption | intro _ | apply goodT_next | apply goodT_ite | apply goodP_ite | apply good_ite | apply good_id | apply good_foldl | apply good_mapGetD | apply goodE_done | apply goodE_ite | apply goodE_wait | apply goodE_held | apply goodE_started | apply goodP_ite | apply good_eci | apply good_flowDelete | apply goodP_foldl | fail_if_no_progress apply good_upd | simp only [goodP_iff] | apply goodP_fst | (apply goodP_elim; assumption) | (apply goodT_elim; assumption) | (apply goodT_elim rfl; assumption) | dsimp only | split

theorem good_execTblL2Read {q : List Instr} (e : Eci) (s : State) (hs : Good q s) : GoodT q (execTblL2Read e s) := by
  unfold execTblL2Read
  with_reducible repeat' first | assumption | intro _ | apply goodT_next | apply goodT_ite | apply goodP_ite | apply good_ite | apply good_id | apply good_foldl | apply good_mapGetD | apply goodE_done | apply goodE_ite | apply goodE_wait | apply goodE_held | apply goodE_started | apply goodP_ite | apply good_eci | apply goodP_foldl | fail_if_no_progress apply good_upd | simp only [goodP_iff] | (apply goodT_elim; assumption) | (apply goodT_elim rfl; assumption) | dsimp only | split

theorem good_execTblL2Delete {q : List Instr} (e : Eci) (s : State) (hs : Good q s) : GoodT q (execTblL2Delete e s) := by
  unfold execTblL2Delete
  with_reducible repeat' first | assumption | intro _ | apply goodT_next | apply goodT_ite | apply goodP_ite | apply good_ite | apply good_id | apply good_foldl | apply good_mapGetD | apply goodE_done | apply goodE_ite | apply goodE_wait | apply goodE_held | apply goodE_started | apply goodP_ite | apply good_eci | apply good_each | apply good_l2Write | apply goodP_foldl | fail_if_no_progress apply good_upd | simp only [goodP_iff] | (apply goodT_elim; assumption) | (apply goodT_elim rfl; assumption) | dsimp only | split

theorem good_installRoute {q : List Instr} (s : State) (c : RouteChange) (key : Nat) (hs : Good q s) : Good q (State.installRoute s c key) := by
  unfold State.installRoute
  with_reducible repeat' first | assumption | intro _ | apply good_ite | apply good_id | apply good_foldl | apply good_mapGetD | apply good_lpmFollow | apply goodP_foldl | fail_if_no_progress apply good_upd | simp only [goodP_iff] | dsimp only | split

theorem good_applyRoute {q : List Instr} (s : State) (c : RouteChange) (hs : Good q s) : GoodO q (State.applyRoute s c) := by
  unfold State.applyRoute
  with_reducible repeat' first | assumption | intro _ | apply goodO_some | apply goodO_none | apply goodO_ite | apply good_ite | apply good_id | apply good_foldl | apply good_mapGetD | apply good_installRoute | apply good_wr | apply goodP_foldl | fail_if_no_progress apply good_upd | simp only [goodP_iff] | dsimp only | split

theorem good_execTblRouteLookup {q : List Instr} (e : Eci) (s : State) (hs : Good q s) : GoodT q (execTblRouteLookup e s) := by
  unfold execTblRouteLookup
  with_reducible repeat' first | assumption | intro _ | apply goodT_next | apply goodT_ite | apply goodP_ite | apply good_ite | apply good_id | apply good_foldl | apply good_mapGetD | apply goodE_done | apply goodE_ite | apply goodE_wait | apply goodE_held | apply goodE_started | apply goodP_ite | apply good_eci | apply goodP_foldl | fail_if_no_progress apply good_upd | simp only [goodP_iff] | (apply goodT_elim; assumption) | (apply goodT_elim rfl; assumption) | dsimp only | split

theorem good_applyRoutes {q : List Instr} (s : State) (a1 : List RouteChange) (hs : Good q s) : GoodO q (State.applyRoutes s a1) := by
  induction a1 generalizing s with
  | nil =>
    unfold State.applyRoutes
    with_reducible repeat' first | assumption | intro _ | apply goodO_some | apply goodO_none | apply goodO_ite | apply good_ite | apply good_id | apply good_foldl | apply good_mapGetD | apply good_applyRoute | apply goodP_foldl | fail_if_no_progress apply good_upd | simp only [goodP_iff] | apply goodO_getD | (apply goodO_elim; assumption) | dsimp only | split
  | cons x r ih =>
    unfold State.applyRoutes
    with_reducible repeat' first | assumption | intro _ | apply ih | apply goodO_some | apply goodO_none | apply goodO_ite | apply good_ite | apply good_id | apply good_foldl | apply good_mapGetD | apply good_applyRoute | apply goodP_foldl | fail_if_no_progress apply good_upd | simp only [goodP_iff] | apply goodO_getD | (apply goodO_elim; assumption) | dsimp only | split

theorem good_execTblRouteBatch {q : List Instr} (e : Eci) (s : State) (hs : Good q s) : GoodT q (execTblRouteBatch e s) := by
  unfold execTblRouteBatch
  with_reducible repeat' first | assumption | intro _ | apply goodT_next | apply goodT_ite | apply goodP_ite | apply good_ite | apply good_id | apply good_foldl | apply good_mapGetD | apply goodE_done | apply goodE_ite | apply goodE_wait | apply goodE_held | apply goodE_started | apply goodP_ite | apply good_eci | apply good_dmaIn | apply good_applyRoutes | apply good_raise | apply goodP_foldl | fail_if_no_progress apply good_upd | simp only [goodP_iff] | apply goodO_getD | (apply goodO_elim; assumption) | apply goodP_fst | (apply goodP_elim; assumption) | (apply goodT_elim; assumption) | (apply goodT_elim rfl; assumption) | dsimp only | split

theorem good_execTblL2Flush {q : List Instr} (e : Eci) (s : State) (hs : Good q s) : GoodT q (execTblL2Flush e s) := by
  unfold execTblL2Flush
  with_reducible repeat' first | assumption | intro _ | apply goodT_next | apply goodT_ite | apply goodP_ite | apply good_ite | apply good_id | apply good_foldl | apply good_mapGetD | apply goodE_done | apply goodE_ite | apply goodE_wait | apply goodE_held | apply goodE_started | apply goodP_ite | apply good_eci | apply good_each | apply good_l2Write | apply goodP_foldl | fail_if_no_progress apply good_upd | simp only [goodP_iff] | (apply goodT_elim; assumption) | (apply goodT_elim rfl; assumption) | dsimp only | split

theorem good_execTblL2Write {q : List Instr} (e : Eci) (s : State) (hs : Good q s) : GoodT q (execTblL2Write e s) := by
  unfold execTblL2Write
  with_reducible repeat' first | assumption | intro _ | apply goodT_next | apply goodT_ite | apply goodP_ite | apply good_ite | apply good_id | apply good_foldl | apply good_mapGetD | apply goodE_done | apply goodE_ite | apply goodE_wait | apply goodE_held | apply goodE_started | apply goodP_ite | apply good_eci | apply good_each | apply good_l2Write | apply goodP_foldl | fail_if_no_progress apply good_upd | simp only [goodP_iff] | (apply goodT_elim; assumption) | (apply goodT_elim rfl; assumption) | dsimp only | split

theorem good_execTblFlowInsert {q : List Instr} (e : Eci) (s : State) (hs : Good q s) : GoodT q (execTblFlowInsert e s) := by
  unfold execTblFlowInsert
  with_reducible repeat' first | assumption | intro _ | apply goodT_next | apply goodT_ite | apply goodP_ite | apply good_ite | apply good_id | apply good_foldl | apply good_mapGetD | apply goodE_done | apply goodE_ite | apply goodE_wait | apply goodE_held | apply goodE_started | apply goodP_ite | apply good_eci | apply good_flowInsert | apply goodP_foldl | fail_if_no_progress apply good_upd | simp only [goodP_iff] | apply goodP_fst | (apply goodP_elim; assumption) | (apply goodT_elim; assumption) | (apply goodT_elim rfl; assumption) | dsimp only | split

theorem good_execTblFlowLookup {q : List Instr} (e : Eci) (s : State) (hs : Good q s) : GoodT q (execTblFlowLookup e s) := by
  unfold execTblFlowLookup
  with_reducible repeat' first | assumption | intro _ | apply goodT_next | apply goodT_ite | apply goodP_ite | apply good_ite | apply good_id | apply good_foldl | apply good_mapGetD | apply goodE_done | apply goodE_ite | apply goodE_wait | apply goodE_held | apply goodE_started | apply goodP_ite | apply good_eci | apply goodP_foldl | fail_if_no_progress apply good_upd | simp only [goodP_iff] | (apply goodT_elim; assumption) | (apply goodT_elim rfl; assumption) | dsimp only | split

end Sys2Proof.Machine
end

