-- ==== Sys2Proof/Laws/KeepsEciTm.lean ====
section
/-! SUPPORT. The operations of EciTm.lean keep the queue and the invariant. -/

set_option linter.unusedTactic false
set_option linter.unreachableTactic false
set_option linter.unusedSimpArgs false
set_option linter.unusedVariables false

namespace Sys2Proof.Machine

theorem good_execTmNodeQuery {q : List Instr} (e : Eci) (s : State) (hs : Good q s) : GoodT q (execTmNodeQuery e s) := by
  unfold execTmNodeQuery
  with_reducible repeat' first | assumption | intro _ | apply goodT_next | apply goodT_ite | apply goodP_ite | apply good_ite | apply good_id | apply good_foldl | apply good_mapGetD | apply goodE_done | apply goodE_ite | apply goodE_wait | apply goodE_held | apply goodE_started | apply goodP_ite | apply good_eci | fail_if_no_progress apply good_upd | simp only [goodP_iff] | (apply goodT_elim; assumption) | (apply goodT_elim rfl; assumption) | dsimp only | split

theorem good_obsClear {q : List Instr} (s : State) (marks : Bool) (qs : List Nat) (hs : Good q s) : Good q (State.obsClear s marks qs) := by
  unfold State.obsClear
  with_reducible repeat' first | assumption | intro _ | apply good_ite | apply good_id | apply good_foldl | apply good_mapGetD | apply good_each | apply good_modNode | fail_if_no_progress apply good_upd | dsimp only | split

theorem good_obsDump {q : List Instr} (s : State) (f : Nat) (p : List Nat) (r : Option HostReply) (hs : Good q s) : GoodE q (State.obsDump s f p r) := by
  unfold State.obsDump
  with_reducible repeat' first | assumption | intro _ | apply goodE_done | apply goodE_ite | apply goodE_wait | apply goodE_held | apply goodE_started | apply goodP_ite | apply good_ite | apply good_id | apply good_foldl | apply good_mapGetD | apply good_bufferOut | apply good_obsClear | fail_if_no_progress apply good_upd | simp only [goodP_iff] | (apply goodE_elim; assumption) | (apply goodE_held_elim; assumption) | (apply goodE_started_elim; assumption) | dsimp only | split

theorem good_createNode {q : List Instr} (s : State) (level : Nat) (cfg : Bytes) (hs : Good q s) : GoodE q (State.createNode s level cfg) := by
  unfold State.createNode
  with_reducible repeat' first | assumption | intro _ | apply goodE_done | apply goodE_ite | apply goodE_wait | apply goodE_held | apply goodE_started | apply goodP_ite | apply good_ite | apply good_id | apply good_foldl | apply good_mapGetD | apply good_writeNode | apply good_used | fail_if_no_progress apply good_upd | simp only [goodP_iff] | dsimp only | split

theorem good_execTmNodeDestroy {q : List Instr} (e : Eci) (s : State) (hs : Good q s) : GoodT q (execTmNodeDestroy e s) := by
  unfold execTmNodeDestroy
  with_reducible repeat' first | assumption | intro _ | apply goodT_next | apply goodT_ite | apply goodP_ite | apply good_ite | apply good_id | apply good_foldl | apply good_mapGetD | apply goodE_done | apply goodE_ite | apply goodE_wait | apply goodE_held | apply goodE_started | apply goodP_ite | apply good_eci | apply good_removeNode | fail_if_no_progress apply good_upd | simp only [goodP_iff] | (apply goodT_elim; assumption) | (apply goodT_elim rfl; assumption) | dsimp only | split

theorem good_execTmQueueFlush {q : List Instr} (e : Eci) (s : State) (hs : Good q s) : GoodT q (execTmQueueFlush e s) := by
  unfold execTmQueueFlush
  with_reducible repeat' first | assumption | intro _ | apply goodT_next | apply goodT_ite | apply goodP_ite | apply good_ite | apply good_id | apply good_foldl | apply good_mapGetD | apply goodE_done | apply goodE_ite | apply goodE_wait | apply goodE_held | apply goodE_started | apply goodP_ite | apply good_eci | apply good_flushQueue | fail_if_no_progress apply good_upd | simp only [goodP_iff] | (apply goodT_elim; assumption) | (apply goodT_elim rfl; assumption) | dsimp only | split

theorem good_execTmNodeCreate {q : List Instr} (e : Eci) (s : State) (hs : Good q s) : GoodT q (execTmNodeCreate e s) := by
  unfold execTmNodeCreate
  with_reducible repeat' first | assumption | intro _ | apply goodT_next | apply goodT_ite | apply goodP_ite | apply good_ite | apply good_id | apply good_foldl | apply good_mapGetD | apply goodE_done | apply goodE_ite | apply goodE_wait | apply goodE_held | apply goodE_started | apply goodP_ite | apply good_eci | apply good_createNode | fail_if_no_progress apply good_upd | simp only [goodP_iff] | (apply goodE_elim; assumption) | (apply goodE_held_elim; assumption) | (apply goodE_started_elim; assumption) | (apply goodT_elim; assumption) | (apply goodT_elim rfl; assumption) | dsimp only | split

theorem good_execTmNodeSet {q : List Instr} (e : Eci) (s : State) (hs : Good q s) : GoodT q (execTmNodeSet e s) := by
  unfold execTmNodeSet
  with_reducible repeat' first | assumption | intro _ | apply goodT_next | apply goodT_ite | apply goodP_ite | apply good_ite | apply good_id | apply good_foldl | apply good_mapGetD | apply goodE_done | apply goodE_ite | apply goodE_wait | apply goodE_held | apply goodE_started | apply goodP_ite | apply good_eci | apply good_writeNode | fail_if_no_progress apply good_upd | simp only [goodP_iff] | (apply goodT_elim; assumption) | (apply goodT_elim rfl; assumption) | dsimp only | split

theorem good_execTmMcastSet {q : List Instr} (e : Eci) (s : State) (hs : Good q s) : GoodT q (execTmMcastSet e s) := by
  unfold execTmMcastSet
  with_reducible repeat' first | assumption | intro _ | apply goodT_next | apply goodT_ite | apply goodP_ite | apply good_ite | apply good_id | apply good_foldl | apply good_mapGetD | apply goodE_done | apply goodE_ite | apply goodE_wait | apply goodE_held | apply goodE_started | apply goodP_ite | apply good_eci | apply good_dmaIn | fail_if_no_progress apply good_upd | simp only [goodP_iff] | apply goodP_fst | (apply goodP_elim; assumption) | (apply goodT_elim; assumption) | (apply goodT_elim rfl; assumption) | dsimp only | split

theorem good_execTmCaps {q : List Instr} (e : Eci) (s : State) (hs : Good q s) : GoodT q (execTmCaps e s) := by
  unfold execTmCaps
  with_reducible repeat' first | assumption | intro _ | apply goodT_next | apply goodT_ite | apply goodP_ite | apply good_ite | apply good_id | apply good_foldl | apply good_mapGetD | apply goodE_done | apply goodE_ite | apply goodE_wait | apply goodE_held | apply goodE_started | apply goodP_ite | apply good_eci | fail_if_no_progress apply good_upd | simp only [goodP_iff] | (apply goodT_elim; assumption) | (apply goodT_elim rfl; assumption) | dsimp only | split

theorem good_execTmObsDump {q : List Instr} (e : Eci) (s : State) (hs : Good q s) : GoodT q (execTmObsDump e s) := by
  unfold execTmObsDump
  with_reducible repeat' first | assumption | intro _ | apply goodT_next | apply goodT_ite | apply goodP_ite | apply good_ite | apply good_id | apply good_foldl | apply good_mapGetD | apply goodE_done | apply goodE_ite | apply goodE_wait | apply goodE_held | apply goodE_started | apply goodP_ite | apply good_eci | fail_if_no_progress apply good_upd | simp only [goodP_iff] | (apply goodT_elim; assumption) | (apply goodT_elim rfl; assumption) | dsimp only | split

theorem good_execTmMcastQuery {q : List Instr} (e : Eci) (s : State) (hs : Good q s) : GoodT q (execTmMcastQuery e s) := by
  unfold execTmMcastQuery
  with_reducible repeat' first | assumption | intro _ | apply goodT_next | apply goodT_ite | apply goodP_ite | apply good_ite | apply good_id | apply good_foldl | apply good_mapGetD | apply good_eci | apply good_bufferOut | fail_if_no_progress apply good_upd | simp only [goodP_iff] | (apply goodE_elim; assumption) | (apply goodE_held_elim; assumption) | (apply goodE_started_elim; assumption) | (apply goodT_elim; assumption) | (apply goodT_elim rfl; assumption) | dsimp only | split

theorem good_execTmTenantGrant {q : List Instr} (e : Eci) (s : State) (hs : Good q s) : GoodT q (execTmTenantGrant e s) := by
  unfold execTmTenantGrant
  with_reducible repeat' first | assumption | intro _ | apply goodT_next | apply goodT_ite | apply goodP_ite | apply good_ite | apply good_id | apply good_foldl | apply good_mapGetD | apply good_eci | apply good_createNode | fail_if_no_progress apply good_upd | simp only [goodP_iff] | (apply goodE_elim; assumption) | (apply goodE_held_elim; assumption) | (apply goodE_started_elim; assumption) | (apply goodT_elim; assumption) | (apply goodT_elim rfl; assumption) | dsimp only | split

end Sys2Proof.Machine
end

