-- ==== Sys2Proof/Laws/KeepsOven.lean ====
section
/-! SUPPORT. The operations of Oven.lean keep the queue and the invariant. -/

set_option linter.unusedTactic false
set_option linter.unreachableTactic false
set_option linter.unusedSimpArgs false
set_option linter.unusedVariables false

namespace Sys2Proof.Machine

theorem good_ovenEnter {q : List Instr} (s : State) (st : OvenState) (cause : Nat) (hs : Good q s) : Good q (State.ovenEnter s st cause) := by
  unfold State.ovenEnter
  with_reducible repeat' first | assumption | intro _ | apply good_ite | apply good_id | apply good_foldl | apply good_mapGetD | apply good_wr | apply good_send | apply good_raise | apply good_clockDue | fail_if_no_progress apply good_upd | dsimp only | split

theorem good_execOvnOvertemp {q : List Instr} (s : State) (hs : Good q s) : GoodT q (execOvnOvertemp s) := by
  unfold execOvnOvertemp
  with_reducible repeat' first | assumption | intro _ | apply goodT_next | apply goodT_ite | apply goodP_ite | apply good_ite | apply good_id | apply good_foldl | apply good_mapGetD | apply good_ovenEnter | apply good_wr | fail_if_no_progress apply good_upd | simp only [goodP_iff] | dsimp only | split

theorem good_ovenCtrl {q : List Instr} (s : State) (v : Nat) (hs : Good q s) : Good q (State.ovenCtrl s v) := by
  unfold State.ovenCtrl
  with_reducible repeat' first | assumption | intro _ | apply good_ite | apply good_id | apply good_foldl | apply good_mapGetD | apply good_put | apply good_ovenEnter | fail_if_no_progress apply good_upd | dsimp only | split

theorem good_execOvnHoldWrite {q : List Instr} (fn : Nat) (v : Nat) (s : State) (hs : Good q s) : GoodT q (execOvnHoldWrite fn v s) := by
  unfold execOvnHoldWrite
  with_reducible repeat' first | assumption | intro _ | apply goodT_next | apply goodT_ite | apply goodP_ite | apply good_ite | apply good_id | apply good_foldl | apply good_mapGetD | apply good_asManager | apply good_ovenCtrl | fail_if_no_progress apply good_upd | simp only [goodP_iff] | dsimp only | split

theorem good_execOvnEnWrite {q : List Instr} (fn : Nat) (v : Nat) (s : State) (hs : Good q s) : GoodT q (execOvnEnWrite fn v s) := by
  unfold execOvnEnWrite
  with_reducible repeat' first | assumption | intro _ | apply goodT_next | apply goodT_ite | apply goodP_ite | apply good_ite | apply good_id | apply good_foldl | apply good_mapGetD | apply good_asManager | apply good_ovenCtrl | fail_if_no_progress apply good_upd | simp only [goodP_iff] | dsimp only | split

theorem good_clearOtLatch {q : List Instr} (s : State) (tripped : Bool) (hs : Good q s) : Good q (State.clearOtLatch s tripped) := by
  unfold State.clearOtLatch
  with_reducible repeat' first | assumption | intro _ | apply good_ite | apply good_id | apply good_foldl | apply good_mapGetD | apply good_wr | apply good_ovenEnter | apply good_raise | fail_if_no_progress apply good_upd | dsimp only | split

theorem good_execOvnOtLatchClear {q : List Instr} (fn : Nat) (tripped : Bool) (s : State) (hs : Good q s) : GoodT q (execOvnOtLatchClear fn tripped s) := by
  unfold execOvnOtLatchClear
  with_reducible repeat' first | assumption | intro _ | apply goodT_next | apply goodT_ite | apply goodP_ite | apply good_ite | apply good_id | apply good_foldl | apply good_mapGetD | apply good_asManager | apply good_clearOtLatch | fail_if_no_progress apply good_upd | simp only [goodP_iff] | dsimp only | split

theorem good_ovenLoop {q : List Instr} (s : State) (code : Nat) (hs : Good q s) : Good q (State.ovenLoop s code) := by
  unfold State.ovenLoop
  with_reducible repeat' first | assumption | intro _ | apply good_ite | apply good_id | apply good_foldl | apply good_mapGetD | apply good_wr | fail_if_no_progress apply good_upd | dsimp only | split

theorem good_ovenRuns {q : List Instr} (s : State) (code : Nat) (hs : Good q s) : Good q (State.ovenRuns s code) := by
  unfold State.ovenRuns
  with_reducible repeat' first | assumption | intro _ | apply good_ite | apply good_id | apply good_foldl | apply good_mapGetD | fail_if_no_progress apply good_upd | dsimp only | split

theorem good_execOvnAdcSample {q : List Instr} (code : Nat) (tripped : Bool) (s : State) (hs : Good q s) : GoodT q (execOvnAdcSample code tripped s) := by
  unfold execOvnAdcSample
  with_reducible repeat' first | assumption | intro _ | apply goodT_next | apply goodT_ite | apply goodP_ite | apply good_ite | apply good_id | apply good_foldl | apply good_mapGetD | apply good_wr | apply good_when | apply good_ovenLoop | apply good_ovenRuns | fail_if_no_progress apply good_upd | simp only [goodP_iff] | dsimp only | split

theorem good_setEfc {q : List Instr} (s : State) (v : Nat) (hs : Good q s) : Good q (State.setEfc s v) := by
  unfold State.setEfc
  with_reducible repeat' first | assumption | intro _ | apply good_ite | apply good_id | apply good_foldl | apply good_mapGetD | apply good_journalSteer | apply good_wr | fail_if_no_progress apply good_upd | dsimp only | split

theorem good_execOvnEfcWrite {q : List Instr} (fn : Nat) (v : Nat) (s : State) (hs : Good q s) : GoodT q (execOvnEfcWrite fn v s) := by
  unfold execOvnEfcWrite
  with_reducible repeat' first | assumption | intro _ | apply goodT_next | apply goodT_ite | apply goodP_ite | apply good_ite | apply good_id | apply good_foldl | apply good_mapGetD | apply good_asManager | apply good_setEfc | fail_if_no_progress apply good_upd | simp only [goodP_iff] | dsimp only | split

theorem good_execOvnLocked {q : List Instr} (s : State) (hs : Good q s) : GoodT q (execOvnLocked s) := by
  unfold execOvnLocked
  with_reducible repeat' first | assumption | intro _ | apply goodT_next | apply goodT_ite | apply goodP_ite | apply good_ite | apply good_id | apply good_foldl | apply good_mapGetD | apply good_ovenEnter | fail_if_no_progress apply good_upd | simp only [goodP_iff] | dsimp only | split

theorem good_execOvnUnlocked {q : List Instr} (s : State) (hs : Good q s) : GoodT q (execOvnUnlocked s) := by
  unfold execOvnUnlocked
  with_reducible repeat' first | assumption | intro _ | apply goodT_next | apply goodT_ite | apply goodP_ite | apply good_ite | apply good_id | apply good_foldl | apply good_mapGetD | apply good_ovenEnter | apply good_raise | fail_if_no_progress apply good_upd | simp only [goodP_iff] | dsimp only | split

theorem good_execOvnFaultWarmup {q : List Instr} (s : State) (hs : Good q s) : GoodT q (execOvnFaultWarmup s) := by
  unfold execOvnFaultWarmup
  with_reducible repeat' first | assumption | intro _ | apply goodT_next | apply goodT_ite | apply goodP_ite | apply good_ite | apply good_id | apply good_foldl | apply good_mapGetD | apply good_ovenEnter | fail_if_no_progress apply good_upd | simp only [goodP_iff] | dsimp only | split

theorem good_execOvnDutyLimit {q : List Instr} (s : State) (hs : Good q s) : GoodT q (execOvnDutyLimit s) := by
  unfold execOvnDutyLimit
  with_reducible repeat' first | assumption | intro _ | apply goodT_next | apply goodT_ite | apply goodP_ite | apply good_ite | apply good_id | apply good_foldl | apply good_mapGetD | apply good_raise | fail_if_no_progress apply good_upd | simp only [goodP_iff] | dsimp only | split

theorem good_execOvnFaultSense {q : List Instr} (s : State) (hs : Good q s) : GoodT q (execOvnFaultSense s) := by
  unfold execOvnFaultSense
  with_reducible repeat' first | assumption | intro _ | apply goodT_next | apply goodT_ite | apply goodP_ite | apply good_ite | apply good_id | apply good_foldl | apply good_mapGetD | apply good_ovenEnter | fail_if_no_progress apply good_upd | simp only [goodP_iff] | dsimp only | split

theorem good_execOvnSettling {q : List Instr} (s : State) (hs : Good q s) : GoodT q (execOvnSettling s) := by
  unfold execOvnSettling
  with_reducible repeat' first | assumption | intro _ | apply goodT_next | apply goodT_ite | apply goodP_ite | apply good_ite | apply good_id | apply good_foldl | apply good_mapGetD | apply good_ovenEnter | apply good_when | fail_if_no_progress apply good_upd | simp only [goodP_iff] | dsimp only | split

end Sys2Proof.Machine
end

