-- ==== Sys2Proof/Laws/KeepsEciTime.lean ====
section
/-! SUPPORT. The operations of EciTime.lean keep the queue and the invariant. -/

set_option linter.unusedTactic false
set_option linter.unreachableTactic false
set_option linter.unusedSimpArgs false
set_option linter.unusedVariables false

namespace Sys2Proof.Machine

theorem good_execTimeStepCancel {q : List Instr} (e : Eci) (s : State) (hs : Good q s) : GoodT q (execTimeStepCancel e s) := by
  unfold execTimeStepCancel
  with_reducible repeat' first | assumption | intro _ | apply goodT_next | apply goodT_ite | apply goodP_ite | apply good_ite | apply good_id | apply good_foldl | apply good_mapGetD | apply goodE_done | apply goodE_ite | apply goodE_wait | apply goodE_held | apply goodE_started | apply goodP_ite | apply good_eci | apply good_cancelStep | apply good_steering | fail_if_no_progress apply good_upd | simp only [goodP_iff] | (apply goodT_elim; assumption) | (apply goodT_elim rfl; assumption) | dsimp only | split

theorem good_execRelCaps {q : List Instr} (e : Eci) (s : State) (hs : Good q s) : GoodT q (execRelCaps e s) := by
  unfold execRelCaps
  with_reducible repeat' first | assumption | intro _ | apply goodT_next | apply goodT_ite | apply goodP_ite | apply good_ite | apply good_id | apply good_foldl | apply good_mapGetD | apply goodE_done | apply goodE_ite | apply goodE_wait | apply goodE_held | apply goodE_started | apply goodP_ite | apply good_eci | fail_if_no_progress apply good_upd | simp only [goodP_iff] | (apply goodT_elim; assumption) | (apply goodT_elim rfl; assumption) | dsimp only | split

theorem good_execOvenStatus {q : List Instr} (e : Eci) (s : State) (hs : Good q s) : GoodT q (execOvenStatus e s) := by
  unfold execOvenStatus
  with_reducible repeat' first | assumption | intro _ | apply goodT_next | apply goodT_ite | apply goodP_ite | apply good_ite | apply good_id | apply good_foldl | apply good_mapGetD | apply goodE_done | apply goodE_ite | apply goodE_wait | apply goodE_held | apply goodE_started | apply goodP_ite | apply good_eci | fail_if_no_progress apply good_upd | simp only [goodP_iff] | (apply goodT_elim; assumption) | (apply goodT_elim rfl; assumption) | dsimp only | split

theorem good_execJnlRestart {q : List Instr} (e : Eci) (s : State) (hs : Good q s) : GoodT q (execJnlRestart e s) := by
  unfold execJnlRestart
  with_reducible repeat' first | assumption | intro _ | apply goodT_next | apply goodT_ite | apply goodP_ite | apply good_ite | apply good_id | apply good_foldl | apply good_mapGetD | apply goodE_done | apply goodE_ite | apply goodE_wait | apply goodE_held | apply goodE_started | apply goodP_ite | apply good_eci | apply good_startChain | fail_if_no_progress apply good_upd | simp only [goodP_iff] | (apply goodT_elim; assumption) | (apply goodT_elim rfl; assumption) | dsimp only | split

theorem good_execTimeGet {q : List Instr} (e : Eci) (s : State) (hs : Good q s) : GoodT q (execTimeGet e s) := by
  unfold execTimeGet
  with_reducible repeat' first | assumption | intro _ | apply goodT_next | apply goodT_ite | apply goodP_ite | apply good_ite | apply good_id | apply good_foldl | apply good_mapGetD | apply goodE_done | apply goodE_ite | apply goodE_wait | apply goodE_held | apply goodE_started | apply goodP_ite | apply good_eci | fail_if_no_progress apply good_upd | simp only [goodP_iff] | (apply goodT_elim; assumption) | (apply goodT_elim rfl; assumption) | dsimp only | split

theorem good_ovenWrite {q : List Instr} (s : State) (vals : List Nat) (mask : Nat) (hs : Good q s) : Good q (State.ovenWrite s vals mask) := by
  unfold State.ovenWrite
  with_reducible repeat' first | assumption | intro _ | apply good_ite | apply good_id | apply good_foldl | apply good_mapGetD | apply good_each | apply good_when | apply good_putFields | apply good_setEfc | apply good_ovenCtrl | fail_if_no_progress apply good_upd | dsimp only | split

theorem good_execOvenSet {q : List Instr} (e : Eci) (s : State) (hs : Good q s) : GoodT q (execOvenSet e s) := by
  unfold execOvenSet
  with_reducible repeat' first | assumption | intro _ | apply goodT_next | apply goodT_ite | apply goodP_ite | apply good_ite | apply good_id | apply good_foldl | apply good_mapGetD | apply goodE_done | apply goodE_ite | apply goodE_wait | apply goodE_held | apply goodE_started | apply goodP_ite | apply good_eci | apply good_ovenWrite | fail_if_no_progress apply good_upd | simp only [goodP_iff] | (apply goodT_elim; assumption) | (apply goodT_elim rfl; assumption) | dsimp only | split

theorem good_execTimeSlew {q : List Instr} (e : Eci) (s : State) (hs : Good q s) : GoodT q (execTimeSlew e s) := by
  unfold execTimeSlew
  with_reducible repeat' first | assumption | intro _ | apply goodT_next | apply goodT_ite | apply goodP_ite | apply good_ite | apply good_id | apply good_foldl | apply good_mapGetD | apply goodE_done | apply goodE_ite | apply goodE_wait | apply goodE_held | apply goodE_started | apply goodP_ite | apply good_eci | apply good_setSlew | apply good_when | apply good_setSlewRate | fail_if_no_progress apply good_upd | simp only [goodP_iff] | (apply goodT_elim; assumption) | (apply goodT_elim rfl; assumption) | dsimp only | split

theorem good_execRelStampRingClear {q : List Instr} (e : Eci) (s : State) (hs : Good q s) : GoodT q (execRelStampRingClear e s) := by
  unfold execRelStampRingClear
  with_reducible repeat' first | assumption | intro _ | apply goodT_next | apply goodT_ite | apply goodP_ite | apply good_ite | apply good_id | apply good_foldl | apply good_mapGetD | apply goodE_done | apply goodE_ite | apply goodE_wait | apply goodE_held | apply goodE_started | apply goodP_ite | apply good_eci | fail_if_no_progress apply good_upd | simp only [goodP_iff] | (apply goodT_elim; assumption) | (apply goodT_elim rfl; assumption) | dsimp only | split

theorem good_execTimeStatus {q : List Instr} (e : Eci) (s : State) (hs : Good q s) : GoodT q (execTimeStatus e s) := by
  unfold execTimeStatus
  with_reducible repeat' first | assumption | intro _ | apply goodT_next | apply goodT_ite | apply goodP_ite | apply good_ite | apply good_id | apply good_foldl | apply good_mapGetD | apply goodE_done | apply goodE_ite | apply goodE_wait | apply goodE_held | apply goodE_started | apply goodP_ite | apply good_eci | fail_if_no_progress apply good_upd | simp only [goodP_iff] | (apply goodT_elim; assumption) | (apply goodT_elim rfl; assumption) | dsimp only | split

theorem good_setGroup {q : List Instr} (s : State) (g : Nat) (n : Group) (hs : Good q s) : GoodE q (State.setGroup s g n) := by
  unfold State.setGroup
  with_reducible repeat' first | assumption | intro _ | apply goodE_done | apply goodE_ite | apply goodE_wait | apply goodE_held | apply goodE_started | apply goodP_ite | apply good_ite | apply good_id | apply good_foldl | apply good_mapGetD | fail_if_no_progress apply good_upd | simp only [goodP_iff] | dsimp only | split

theorem good_execRelGroupSet {q : List Instr} (e : Eci) (s : State) (hs : Good q s) : GoodT q (execRelGroupSet e s) := by
  unfold execRelGroupSet
  with_reducible repeat' first | assumption | intro _ | apply goodT_next | apply goodT_ite | apply goodP_ite | apply good_ite | apply good_id | apply good_foldl | apply good_mapGetD | apply goodE_done | apply goodE_ite | apply goodE_wait | apply goodE_held | apply goodE_started | apply goodP_ite | apply good_eci | apply good_dmaIn | apply good_setGroup | fail_if_no_progress apply good_upd | simp only [goodP_iff] | apply goodP_fst | (apply goodP_elim; assumption) | (apply goodE_elim; assumption) | (apply goodE_held_elim; assumption) | (apply goodE_started_elim; assumption) | (apply goodT_elim; assumption) | (apply goodT_elim rfl; assumption) | dsimp only | split

theorem good_journalled {q : List Instr} (s : State) (w : Nat) (hs : Good q s) : Good q (State.journalled s w) := by
  unfold State.journalled
  with_reducible repeat' first | assumption | intro _ | apply good_ite | apply good_id | apply good_foldl | apply good_mapGetD | apply good_journalCfg | fail_if_no_progress apply good_upd | dsimp only | split

theorem good_execJnlQueueSet {q : List Instr} (e : Eci) (s : State) (hs : Good q s) : GoodT q (execJnlQueueSet e s) := by
  unfold execJnlQueueSet
  with_reducible repeat' first | assumption | intro _ | apply goodT_next | apply goodT_ite | apply goodP_ite | apply good_ite | apply good_id | apply good_foldl | apply good_mapGetD | apply goodE_done | apply goodE_ite | apply goodE_wait | apply goodE_held | apply goodE_started | apply goodP_ite | apply good_eci | apply good_journalled | fail_if_no_progress apply good_upd | simp only [goodP_iff] | (apply goodT_elim; assumption) | (apply goodT_elim rfl; assumption) | dsimp only | split

theorem good_execTimeFreq {q : List Instr} (e : Eci) (s : State) (hs : Good q s) : GoodT q (execTimeFreq e s) := by
  unfold execTimeFreq
  with_reducible repeat' first | assumption | intro _ | apply goodT_next | apply goodT_ite | apply goodP_ite | apply good_ite | apply good_id | apply good_foldl | apply good_mapGetD | apply goodE_done | apply goodE_ite | apply goodE_wait | apply goodE_held | apply goodE_started | apply goodP_ite | apply good_eci | apply good_setOffset | fail_if_no_progress apply good_upd | simp only [goodP_iff] | (apply goodT_elim; assumption) | (apply goodT_elim rfl; assumption) | dsimp only | split

theorem good_eciStep {q : List Instr} (s : State) (p : List Nat) (hs : Good q s) : GoodE q (State.eciStep s p) := by
  unfold State.eciStep
  with_reducible repeat' first | assumption | intro _ | apply goodE_done | apply goodE_ite | apply goodE_wait | apply goodE_held | apply goodE_started | apply goodP_ite | apply good_ite | apply good_id | apply good_foldl | apply good_mapGetD | apply good_wr | apply good_put | apply good_arm | apply good_steering | fail_if_no_progress apply good_upd | simp only [goodP_iff] | dsimp only | split

theorem good_execTimeStep {q : List Instr} (e : Eci) (s : State) (hs : Good q s) : GoodT q (execTimeStep e s) := by
  unfold execTimeStep
  with_reducible repeat' first | assumption | intro _ | apply goodT_next | apply goodT_ite | apply goodP_ite | apply good_ite | apply good_id | apply good_foldl | apply good_mapGetD | apply good_eci | apply good_eciStep | fail_if_no_progress apply good_upd | simp only [goodP_iff] | (apply goodE_elim; assumption) | (apply goodE_held_elim; assumption) | (apply goodE_started_elim; assumption) | (apply goodT_elim; assumption) | (apply goodT_elim rfl; assumption) | dsimp only | split

theorem good_execTimeIo {q : List Instr} (e : Eci) (s : State) (hs : Good q s) : GoodT q (execTimeIo e s) := by
  unfold execTimeIo
  with_reducible repeat' first | assumption | intro _ | apply goodT_next | apply goodT_ite | apply goodP_ite | apply good_ite | apply good_id | apply good_foldl | apply good_mapGetD | apply goodE_done | apply goodE_ite | apply goodE_wait | apply goodE_held | apply goodE_started | apply goodP_ite | apply good_eci | apply good_when | apply good_putFields | apply good_setRef | fail_if_no_progress apply good_upd | simp only [goodP_iff] | (apply goodT_elim; assumption) | (apply goodT_elim rfl; assumption) | dsimp only | split

theorem good_execJnlIdentity {q : List Instr} (e : Eci) (s : State) (hs : Good q s) : GoodT q (execJnlIdentity e s) := by
  unfold execJnlIdentity
  with_reducible repeat' first | assumption | intro _ | apply goodT_next | apply goodT_ite | apply goodP_ite | apply good_ite | apply good_id | apply good_foldl | apply good_mapGetD | apply good_eci | apply good_bufferOut | fail_if_no_progress apply good_upd | simp only [goodP_iff] | (apply goodE_elim; assumption) | (apply goodE_held_elim; assumption) | (apply goodE_started_elim; assumption) | (apply goodT_elim; assumption) | (apply goodT_elim rfl; assumption) | dsimp only | split

theorem good_execJnlQueueRemove {q : List Instr} (e : Eci) (s : State) (hs : Good q s) : GoodT q (execJnlQueueRemove e s) := by
  unfold execJnlQueueRemove
  with_reducible repeat' first | assumption | intro _ | apply goodT_next | apply goodT_ite | apply goodP_ite | apply good_ite | apply good_id | apply good_foldl | apply good_mapGetD | apply goodE_done | apply goodE_ite | apply goodE_wait | apply goodE_held | apply goodE_started | apply goodP_ite | apply good_eci | apply good_closeDigest | apply good_journalled | fail_if_no_progress apply good_upd | simp only [goodP_iff] | (apply goodT_elim; assumption) | (apply goodT_elim rfl; assumption) | dsimp only | split

theorem good_execRelStampRing {q : List Instr} (e : Eci) (s : State) (hs : Good q s) : GoodT q (execRelStampRing e s) := by
  unfold execRelStampRing
  with_reducible repeat' first | assumption | intro _ | apply goodT_next | apply goodT_ite | apply goodP_ite | apply good_ite | apply good_id | apply good_foldl | apply good_mapGetD | apply goodE_done | apply goodE_ite | apply goodE_wait | apply goodE_held | apply goodE_started | apply goodP_ite | apply good_eci | fail_if_no_progress apply good_upd | simp only [goodP_iff] | (apply goodT_elim; assumption) | (apply goodT_elim rfl; assumption) | dsimp only | split

theorem good_execRelGroupQuery {q : List Instr} (e : Eci) (s : State) (hs : Good q s) : GoodT q (execRelGroupQuery e s) := by
  unfold execRelGroupQuery
  with_reducible repeat' first | assumption | intro _ | apply goodT_next | apply goodT_ite | apply goodP_ite | apply good_ite | apply good_id | apply good_foldl | apply good_mapGetD | apply good_eci | apply good_bufferOut | fail_if_no_progress apply good_upd | simp only [goodP_iff] | (apply goodE_elim; assumption) | (apply goodE_held_elim; assumption) | (apply goodE_started_elim; assumption) | (apply goodT_elim; assumption) | (apply goodT_elim rfl; assumption) | dsimp only | split

theorem good_execJnlStatus {q : List Instr} (e : Eci) (s : State) (hs : Good q s) : GoodT q (execJnlStatus e s) := by
  unfold execJnlStatus
  with_reducible repeat' first | assumption | intro _ | apply goodT_next | apply goodT_ite | apply goodP_ite | apply good_ite | apply good_id | apply good_foldl | apply good_mapGetD | apply goodE_done | apply goodE_ite | apply goodE_wait | apply goodE_held | apply goodE_started | apply goodP_ite | apply good_eci | fail_if_no_progress apply good_upd | simp only [goodP_iff] | (apply goodT_elim; assumption) | (apply goodT_elim rfl; assumption) | dsimp only | split

end Sys2Proof.Machine
end

