-- ==== Sys2Proof/Laws/KeepsEciOfl.lean ====
section
/-! SUPPORT. The operations of EciOfl.lean keep the queue and the invariant. -/

set_option linter.unusedTactic false
set_option linter.unreachableTactic false
set_option linter.unusedSimpArgs false
set_option linter.unusedVariables false

namespace Sys2Proof.Machine

theorem good_execOflMacsecSa {q : List Instr} (e : Eci) (s : State) (hs : Good q s) : GoodT q (execOflMacsecSa e s) := by
  unfold execOflMacsecSa
  with_reducible repeat' first | assumption | intro _ | apply goodT_next | apply goodT_ite | apply goodP_ite | apply good_ite | apply good_id | apply good_foldl | apply good_mapGetD | apply goodE_done | apply goodE_ite | apply goodE_wait | apply goodE_held | apply goodE_started | apply goodP_ite | apply good_eci | apply good_oflUsed | apply good_used | fail_if_no_progress apply good_upd | simp only [goodP_iff] | (apply goodT_elim; assumption) | (apply goodT_elim rfl; assumption) | dsimp only | split

theorem good_dropCtx {q : List Instr} (s : State) (kind : Nat) (i : Nat) (hs : Good q s) : Good q (State.dropCtx s kind i) := by
  unfold State.dropCtx
  with_reducible repeat' first | assumption | intro _ | apply good_ite | apply good_id | apply good_foldl | apply good_mapGetD | apply good_oflRest | apply good_oflUsed | apply good_unfence | fail_if_no_progress apply good_upd | dsimp only | split

theorem good_execOflMacsecSaRemove {q : List Instr} (e : Eci) (s : State) (hs : Good q s) : GoodT q (execOflMacsecSaRemove e s) := by
  unfold execOflMacsecSaRemove
  with_reducible repeat' first | assumption | intro _ | apply goodT_next | apply goodT_ite | apply goodP_ite | apply good_ite | apply good_id | apply good_foldl | apply good_mapGetD | apply goodE_done | apply goodE_ite | apply goodE_wait | apply goodE_held | apply goodE_started | apply goodP_ite | apply good_eci | apply good_dropCtx | apply good_used | fail_if_no_progress apply good_upd | simp only [goodP_iff] | (apply goodT_elim; assumption) | (apply goodT_elim rfl; assumption) | dsimp only | split

theorem good_ctxModify {q : List Instr} (s : State) (p : List Nat) (hs : Good q s) : Good q (State.ctxModify s p) := by
  unfold State.ctxModify
  with_reducible repeat' first | assumption | intro _ | apply good_ite | apply good_id | apply good_foldl | apply good_mapGetD | apply good_when | apply good_setSession | apply good_setEsp | fail_if_no_progress apply good_upd | dsimp only | split

theorem good_execOflCtxModify {q : List Instr} (e : Eci) (s : State) (hs : Good q s) : GoodT q (execOflCtxModify e s) := by
  unfold execOflCtxModify
  with_reducible repeat' first | assumption | intro _ | apply goodT_next | apply goodT_ite | apply goodP_ite | apply good_ite | apply good_id | apply good_foldl | apply good_mapGetD | apply goodE_done | apply goodE_ite | apply goodE_wait | apply goodE_held | apply goodE_started | apply goodP_ite | apply good_eci | apply good_ctxModify | fail_if_no_progress apply good_upd | simp only [goodP_iff] | (apply goodT_elim; assumption) | (apply goodT_elim rfl; assumption) | dsimp only | split

theorem good_execOflPlaceDrop {q : List Instr} (e : Eci) (s : State) (hs : Good q s) : GoodT q (execOflPlaceDrop e s) := by
  unfold execOflPlaceDrop
  with_reducible repeat' first | assumption | intro _ | apply goodT_next | apply goodT_ite | apply goodP_ite | apply good_ite | apply good_id | apply good_foldl | apply good_mapGetD | apply goodE_done | apply goodE_ite | apply goodE_wait | apply goodE_held | apply goodE_started | apply goodP_ite | apply good_eci | apply good_oflRest | apply good_oflUsed | fail_if_no_progress apply good_upd | simp only [goodP_iff] | (apply goodT_elim; assumption) | (apply goodT_elim rfl; assumption) | dsimp only | split

theorem good_ctxDying {q : List Instr} (s : State) (kind : Nat) (i : Nat) (hs : Good q s) : Good q (State.ctxDying s kind i) := by
  unfold State.ctxDying
  with_reducible repeat' first | assumption | intro _ | apply good_ite | apply good_id | apply good_foldl | apply good_mapGetD | apply good_setEsp | apply good_setSession | fail_if_no_progress apply good_upd | dsimp only | split

theorem good_execOflCtxDestroy {q : List Instr} (e : Eci) (s : State) (hs : Good q s) : GoodT q (execOflCtxDestroy e s) := by
  unfold execOflCtxDestroy
  with_reducible repeat' first | assumption | intro _ | apply goodT_next | apply goodT_ite | apply goodP_ite | apply good_ite | apply good_id | apply good_foldl | apply good_mapGetD | apply goodE_done | apply goodE_ite | apply goodE_wait | apply goodE_held | apply goodE_started | apply goodP_ite | apply good_eci | apply good_ctxDying | apply good_dropCtx | fail_if_no_progress apply good_upd | simp only [goodP_iff] | (apply goodT_elim; assumption) | (apply goodT_elim rfl; assumption) | dsimp only | split

theorem good_wakeGroups {q : List Instr} (s : State) (hs : Good q s) : Good q (State.wakeGroups s) := by
  unfold State.wakeGroups
  with_reducible repeat' first | assumption | intro _ | apply good_ite | apply good_id | apply good_foldl | apply good_mapGetD | apply good_each | apply good_oflWake | fail_if_no_progress apply good_upd | dsimp only | split

theorem good_createSession {q : List Instr} (s : State) (a : Session) (hs : Good q s) : GoodE q (State.createSession s a) := by
  unfold State.createSession
  with_reducible repeat' first | assumption | intro _ | apply goodE_done | apply goodE_ite | apply goodE_wait | apply goodE_held | apply goodE_started | apply goodP_ite | apply good_ite | apply good_id | apply good_foldl | apply good_mapGetD | apply good_used | apply good_oflUsed | apply good_setSession | apply good_wakeGroups | fail_if_no_progress apply good_upd | simp only [goodP_iff] | dsimp only | split

theorem good_onSession {q : List Instr} (s : State) (p : List Nat) (ready : Session → Bool) (f : Session → Session) (resp : List Nat) (hs : Good q s) : GoodE q (State.onSession s p ready f resp) := by
  unfold State.onSession
  with_reducible repeat' first | assumption | intro _ | apply goodE_done | apply goodE_ite | apply goodE_wait | apply goodE_held | apply goodE_started | apply goodP_ite | apply good_ite | apply good_id | apply good_foldl | apply good_mapGetD | apply good_setSession | fail_if_no_progress apply good_upd | simp only [goodP_iff] | dsimp only | split

theorem good_execOflTlsResync {q : List Instr} (e : Eci) (s : State) (hs : Good q s) : GoodT q (execOflTlsResync e s) := by
  unfold execOflTlsResync
  with_reducible repeat' first | assumption | intro _ | apply goodT_next | apply goodT_ite | apply goodP_ite | apply good_ite | apply good_id | apply good_foldl | apply good_mapGetD | apply good_eci | apply good_onSession | fail_if_no_progress apply good_upd | simp only [goodP_iff] | (apply goodE_elim; assumption) | (apply goodE_held_elim; assumption) | (apply goodE_started_elim; assumption) | (apply goodT_elim; assumption) | (apply goodT_elim rfl; assumption) | dsimp only | split

theorem good_execOflTlsRxRekey {q : List Instr} (e : Eci) (s : State) (hs : Good q s) : GoodT q (execOflTlsRxRekey e s) := by
  unfold execOflTlsRxRekey
  with_reducible repeat' first | assumption | intro _ | apply goodT_next | apply goodT_ite | apply goodP_ite | apply good_ite | apply good_id | apply good_foldl | apply good_mapGetD | apply good_eci | apply good_onSession | fail_if_no_progress apply good_upd | simp only [goodP_iff] | (apply goodE_elim; assumption) | (apply goodE_held_elim; assumption) | (apply goodE_started_elim; assumption) | (apply goodT_elim; assumption) | (apply goodT_elim rfl; assumption) | dsimp only | split

theorem good_execOflMacsecTxAn {q : List Instr} (e : Eci) (s : State) (hs : Good q s) : GoodT q (execOflMacsecTxAn e s) := by
  unfold execOflMacsecTxAn
  with_reducible repeat' first | assumption | intro _ | apply goodT_next | apply goodT_ite | apply goodP_ite | apply good_ite | apply good_id | apply good_foldl | apply good_mapGetD | apply goodE_done | apply goodE_ite | apply goodE_wait | apply goodE_held | apply goodE_started | apply goodP_ite | apply good_eci | apply good_wr | fail_if_no_progress apply good_upd | simp only [goodP_iff] | (apply goodT_elim; assumption) | (apply goodT_elim rfl; assumption) | dsimp only | split

theorem good_createEsp {q : List Instr} (s : State) (a : EspSa) (hs : Good q s) : GoodE q (State.createEsp s a) := by
  unfold State.createEsp
  with_reducible repeat' first | assumption | intro _ | apply goodE_done | apply goodE_ite | apply goodE_wait | apply goodE_held | apply goodE_started | apply goodP_ite | apply good_ite | apply good_id | apply good_foldl | apply good_mapGetD | apply good_setEsp | apply good_wakeGroups | apply good_used | apply good_oflUsed | apply good_when | apply good_espExpire | fail_if_no_progress apply good_upd | simp only [goodP_iff] | dsimp only | split

theorem good_execOflCtxQuery {q : List Instr} (e : Eci) (s : State) (hs : Good q s) : GoodT q (execOflCtxQuery e s) := by
  unfold execOflCtxQuery
  with_reducible repeat' first | assumption | intro _ | apply goodT_next | apply goodT_ite | apply goodP_ite | apply good_ite | apply good_id | apply good_foldl | apply good_mapGetD | apply goodE_done | apply goodE_ite | apply goodE_wait | apply goodE_held | apply goodE_started | apply goodP_ite | apply good_eci | fail_if_no_progress apply good_upd | simp only [goodP_iff] | (apply goodT_elim; assumption) | (apply goodT_elim rfl; assumption) | dsimp only | split

theorem good_execOflNvmeResync {q : List Instr} (e : Eci) (s : State) (hs : Good q s) : GoodT q (execOflNvmeResync e s) := by
  unfold execOflNvmeResync
  with_reducible repeat' first | assumption | intro _ | apply goodT_next | apply goodT_ite | apply goodP_ite | apply good_ite | apply good_id | apply good_foldl | apply good_mapGetD | apply good_eci | apply good_onSession | fail_if_no_progress apply good_upd | simp only [goodP_iff] | (apply goodE_elim; assumption) | (apply goodE_held_elim; assumption) | (apply goodE_started_elim; assumption) | (apply goodT_elim; assumption) | (apply goodT_elim rfl; assumption) | dsimp only | split

theorem good_execOflCtxCreate {q : List Instr} (e : Eci) (s : State) (hs : Good q s) : GoodT q (execOflCtxCreate e s) := by
  unfold execOflCtxCreate
  with_reducible repeat' first | assumption | intro _ | apply goodT_next | apply goodT_ite | apply goodP_ite | apply good_ite | apply good_id | apply good_foldl | apply good_mapGetD | apply goodE_done | apply goodE_ite | apply goodE_wait | apply goodE_held | apply goodE_started | apply goodP_ite | apply good_eci | apply good_createEsp | apply good_createSession | fail_if_no_progress apply good_upd | simp only [goodP_iff] | (apply goodE_elim; assumption) | (apply goodE_held_elim; assumption) | (apply goodE_started_elim; assumption) | (apply goodT_elim; assumption) | (apply goodT_elim rfl; assumption) | dsimp only | split

theorem good_execOflNotify {q : List Instr} (e : Eci) (s : State) (hs : Good q s) : GoodT q (execOflNotify e s) := by
  unfold execOflNotify
  with_reducible repeat' first | assumption | intro _ | apply goodT_next | apply goodT_ite | apply goodP_ite | apply good_ite | apply good_id | apply good_foldl | apply good_mapGetD | apply goodE_done | apply goodE_ite | apply goodE_wait | apply goodE_held | apply goodE_started | apply goodP_ite | apply good_eci | fail_if_no_progress apply good_upd | simp only [goodP_iff] | (apply goodT_elim; assumption) | (apply goodT_elim rfl; assumption) | dsimp only | split

theorem good_execOflCaps {q : List Instr} (e : Eci) (s : State) (hs : Good q s) : GoodT q (execOflCaps e s) := by
  unfold execOflCaps
  with_reducible repeat' first | assumption | intro _ | apply goodT_next | apply goodT_ite | apply goodP_ite | apply good_ite | apply good_id | apply good_foldl | apply good_mapGetD | apply goodE_done | apply goodE_ite | apply goodE_wait | apply goodE_held | apply goodE_started | apply goodP_ite | apply good_eci | fail_if_no_progress apply good_upd | simp only [goodP_iff] | (apply goodT_elim; assumption) | (apply goodT_elim rfl; assumption) | dsimp only | split

theorem good_execOflQuota {q : List Instr} (e : Eci) (s : State) (hs : Good q s) : GoodT q (execOflQuota e s) := by
  unfold execOflQuota
  with_reducible repeat' first | assumption | intro _ | apply goodT_next | apply goodT_ite | apply goodP_ite | apply good_ite | apply good_id | apply good_foldl | apply good_mapGetD | apply goodE_done | apply goodE_ite | apply goodE_wait | apply goodE_held | apply goodE_started | apply goodP_ite | apply good_eci | apply good_modFn | apply good_rewriteRom | fail_if_no_progress apply good_upd | simp only [goodP_iff] | (apply goodT_elim; assumption) | (apply goodT_elim rfl; assumption) | dsimp only | split

end Sys2Proof.Machine
end

