-- ==== Sys2Proof/Laws/KeepsEciFrer.lean ====
section
/-! SUPPORT. The operations of EciFrer.lean keep the queue and the invariant. -/

set_option linter.unusedTactic false
set_option linter.unreachableTactic false
set_option linter.unusedSimpArgs false
set_option linter.unusedVariables false

namespace Sys2Proof.Machine

theorem good_mirGap {q : List Instr} (s : State) (mseq : Nat) (hs : Good q s) : Good q (State.mirGap s mseq) := by
  unfold State.mirGap
  with_reducible repeat' first | assumption | intro _ | apply good_ite | apply good_id | apply good_foldl | apply good_mapGetD | apply good_when | apply good_raiseMs | apply good_put | fail_if_no_progress apply good_upd | dsimp only | split

theorem good_execMirPeerSilent {q : List Instr} (s : State) (hs : Good q s) : GoodT q (execMirPeerSilent s) := by
  unfold execMirPeerSilent
  with_reducible repeat' first | assumption | intro _ | apply goodT_next | apply goodT_ite | apply goodP_ite | apply good_ite | apply good_id | apply good_foldl | apply good_mapGetD | apply good_raise | fail_if_no_progress apply good_upd | simp only [goodP_iff] | dsimp only | split

theorem good_mirApply {q : List Instr} (s : State) (b : Bytes) (hs : Good q s) : Good q (State.mirApply s b) := by
  unfold State.mirApply
  with_reducible repeat' first | assumption | intro _ | apply good_ite | apply good_id | apply good_foldl | apply good_mapGetD | apply good_flowDelete | apply good_flowInsert | fail_if_no_progress apply good_upd | simp only [goodP_iff] | apply goodP_fst | (apply goodP_elim; assumption) | dsimp only | split

theorem good_mirKeep {q : List Instr} (s : State) (kind : Nat) (b : Bytes) (hs : Good q s) : Good q (State.mirKeep s kind b) := by
  unfold State.mirKeep
  with_reducible repeat' first | assumption | intro _ | apply good_ite | apply good_id | apply good_foldl | apply good_mapGetD | apply good_mirApply | fail_if_no_progress apply good_upd | dsimp only | split

theorem good_execMirResync {q : List Instr} (e : Eci) (s : State) (hs : Good q s) : GoodT q (execMirResync e s) := by
  unfold execMirResync
  with_reducible repeat' first | assumption | intro _ | apply goodT_next | apply goodT_ite | apply goodP_ite | apply good_ite | apply good_id | apply good_foldl | apply good_mapGetD | apply goodE_done | apply goodE_ite | apply goodE_wait | apply goodE_held | apply goodE_started | apply goodP_ite | apply good_eci | fail_if_no_progress apply good_upd | simp only [goodP_iff] | (apply goodT_elim; assumption) | (apply goodT_elim rfl; assumption) | dsimp only | split

theorem good_mirLoad {q : List Instr} (s : State) (discard : Bool) (hs : Good q s) : Good q (State.mirLoad s discard) := by
  unfold State.mirLoad
  with_reducible repeat' first | assumption | intro _ | apply good_ite | apply good_id | apply good_foldl | apply good_mapGetD | apply good_each | apply good_modCtx | fail_if_no_progress apply good_upd | dsimp only | split

theorem good_takeover {q : List Instr} (s : State) (discard : Bool) (hs : Good q s) : GoodE q (State.takeover s discard) := by
  unfold State.takeover
  with_reducible repeat' first | assumption | intro _ | apply goodE_done | apply goodE_ite | apply goodE_wait | apply goodE_held | apply goodE_started | apply goodP_ite | apply good_ite | apply good_id | apply good_foldl | apply good_mapGetD | apply good_mirLoad | apply good_wr | apply good_each | apply good_releaseFloor | apply good_raise | fail_if_no_progress apply good_upd | simp only [goodP_iff] | dsimp only | split

theorem good_execMirResolve {q : List Instr} (e : Eci) (s : State) (hs : Good q s) : GoodT q (execMirResolve e s) := by
  unfold execMirResolve
  with_reducible repeat' first | assumption | intro _ | apply goodT_next | apply goodT_ite | apply goodP_ite | apply good_ite | apply good_id | apply good_foldl | apply good_mapGetD | apply goodE_done | apply goodE_ite | apply goodE_wait | apply goodE_held | apply goodE_started | apply goodP_ite | apply good_eci | apply good_takeover | fail_if_no_progress apply good_upd | simp only [goodP_iff] | (apply goodE_elim; assumption) | (apply goodE_held_elim; assumption) | (apply goodE_started_elim; assumption) | (apply goodT_elim; assumption) | (apply goodT_elim rfl; assumption) | dsimp only | split

theorem good_execFrerCtxSet {q : List Instr} (e : Eci) (s : State) (hs : Good q s) : GoodT q (execFrerCtxSet e s) := by
  unfold execFrerCtxSet
  with_reducible repeat' first | assumption | intro _ | apply goodT_next | apply goodT_ite | apply goodP_ite | apply good_ite | apply good_id | apply good_foldl | apply good_mapGetD | apply goodE_done | apply goodE_ite | apply goodE_wait | apply goodE_held | apply goodE_started | apply goodP_ite | apply good_eci | apply good_modCtx | apply good_unfence | fail_if_no_progress apply good_upd | simp only [goodP_iff] | (apply goodT_elim; assumption) | (apply goodT_elim rfl; assumption) | dsimp only | split

theorem good_execFrerCaps {q : List Instr} (e : Eci) (s : State) (hs : Good q s) : GoodT q (execFrerCaps e s) := by
  unfold execFrerCaps
  with_reducible repeat' first | assumption | intro _ | apply goodT_next | apply goodT_ite | apply goodP_ite | apply good_ite | apply good_id | apply good_foldl | apply good_mapGetD | apply goodE_done | apply goodE_ite | apply goodE_wait | apply goodE_held | apply goodE_started | apply goodP_ite | apply good_eci | fail_if_no_progress apply good_upd | simp only [goodP_iff] | (apply goodT_elim; assumption) | (apply goodT_elim rfl; assumption) | dsimp only | split

theorem good_execMirTakeover {q : List Instr} (e : Eci) (s : State) (hs : Good q s) : GoodT q (execMirTakeover e s) := by
  unfold execMirTakeover
  with_reducible repeat' first | assumption | intro _ | apply goodT_next | apply goodT_ite | apply goodP_ite | apply good_ite | apply good_id | apply good_foldl | apply good_mapGetD | apply goodE_done | apply goodE_ite | apply goodE_wait | apply goodE_held | apply goodE_started | apply goodP_ite | apply good_eci | apply good_takeover | apply good_raise | apply good_wr | fail_if_no_progress apply good_upd | simp only [goodP_iff] | (apply goodE_elim; assumption) | (apply goodE_held_elim; assumption) | (apply goodE_started_elim; assumption) | (apply goodT_elim; assumption) | (apply goodT_elim rfl; assumption) | dsimp only | split

theorem good_mirrorRelease {q : List Instr} (s : State) (hs : Good q s) : Good q (State.mirrorRelease s) := by
  unfold State.mirrorRelease
  with_reducible repeat' first | assumption | intro _ | apply good_ite | apply good_id | apply good_foldl | apply good_mapGetD | apply good_each | apply good_mirrorSend | fail_if_no_progress apply good_upd | dsimp only | split

theorem good_execMirResyncDone {q : List Instr} (s : State) (hs : Good q s) : GoodT q (execMirResyncDone s) := by
  unfold execMirResyncDone
  with_reducible repeat' first | assumption | intro _ | apply goodT_next | apply goodT_ite | apply goodP_ite | apply good_ite | apply good_id | apply good_foldl | apply good_mapGetD | apply good_resyncDue | apply good_raise | fail_if_no_progress apply good_upd | simp only [goodP_iff] | dsimp only | split

theorem good_execMirStatus {q : List Instr} (e : Eci) (s : State) (hs : Good q s) : GoodT q (execMirStatus e s) := by
  unfold execMirStatus
  with_reducible repeat' first | assumption | intro _ | apply goodT_next | apply goodT_ite | apply goodP_ite | apply good_ite | apply good_id | apply good_foldl | apply good_mapGetD | apply goodE_done | apply goodE_ite | apply goodE_wait | apply goodE_held | apply goodE_started | apply goodP_ite | apply good_eci | fail_if_no_progress apply good_upd | simp only [goodP_iff] | (apply goodT_elim; assumption) | (apply goodT_elim rfl; assumption) | dsimp only | split

theorem good_execMirCfg {q : List Instr} (e : Eci) (s : State) (hs : Good q s) : GoodT q (execMirCfg e s) := by
  unfold execMirCfg
  with_reducible repeat' first | assumption | intro _ | apply goodT_next | apply goodT_ite | apply goodP_ite | apply good_ite | apply good_id | apply good_foldl | apply good_mapGetD | apply goodE_done | apply goodE_ite | apply goodE_wait | apply goodE_held | apply goodE_started | apply goodP_ite | apply good_eci | apply good_put | fail_if_no_progress apply good_upd | simp only [goodP_iff] | (apply goodT_elim; assumption) | (apply goodT_elim rfl; assumption) | dsimp only | split

theorem good_mirrorFrer {q : List Instr} (s : State) (hs : Good q s) : Good q (State.mirrorFrer s) := by
  unfold State.mirrorFrer
  with_reducible repeat' first | assumption | intro _ | apply good_ite | apply good_id | apply good_foldl | apply good_mapGetD | apply good_each | apply good_mirrorSend | fail_if_no_progress apply good_upd | dsimp only | split

theorem good_execMirMessageRx {q : List Instr} (msg : Bytes) (s : State) (hs : Good q s) : GoodT q (execMirMessageRx msg s) := by
  unfold execMirMessageRx
  with_reducible repeat' first | assumption | intro _ | apply goodT_next | apply goodT_ite | apply goodP_ite | apply good_ite | apply good_id | apply good_foldl | apply good_mapGetD | apply good_when | apply good_raise | apply good_put | apply good_mirKeep | apply good_mirGap | fail_if_no_progress apply good_upd | simp only [goodP_iff] | dsimp only | split

theorem good_execFrerCtxClear {q : List Instr} (e : Eci) (s : State) (hs : Good q s) : GoodT q (execFrerCtxClear e s) := by
  unfold execFrerCtxClear
  with_reducible repeat' first | assumption | intro _ | apply goodT_next | apply goodT_ite | apply goodP_ite | apply good_ite | apply good_id | apply good_foldl | apply good_mapGetD | apply goodE_done | apply goodE_ite | apply goodE_wait | apply goodE_held | apply goodE_started | apply goodP_ite | apply good_eci | apply good_unfence | fail_if_no_progress apply good_upd | simp only [goodP_iff] | (apply goodT_elim; assumption) | (apply goodT_elim rfl; assumption) | dsimp only | split

theorem good_execMirPeriodicSend {q : List Instr} (s : State) (hs : Good q s) : GoodT q (execMirPeriodicSend s) := by
  unfold execMirPeriodicSend
  with_reducible repeat' first | assumption | intro _ | apply goodT_next | apply goodT_ite | apply goodP_ite | apply good_ite | apply good_id | apply good_foldl | apply good_mapGetD | apply good_mirrorRelease | apply good_mirrorFrer | apply good_mirrorHead | apply good_resyncDue | apply good_mirrorSend | fail_if_no_progress apply good_upd | simp only [goodP_iff] | dsimp only | split

theorem good_execFrerMemberSet {q : List Instr} (e : Eci) (s : State) (hs : Good q s) : GoodT q (execFrerMemberSet e s) := by
  unfold execFrerMemberSet
  with_reducible repeat' first | assumption | intro _ | apply goodT_next | apply goodT_ite | apply goodP_ite | apply good_ite | apply good_id | apply good_foldl | apply good_mapGetD | apply goodE_done | apply goodE_ite | apply goodE_wait | apply goodE_held | apply goodE_started | apply goodP_ite | apply good_eci | fail_if_no_progress apply good_upd | simp only [goodP_iff] | (apply goodT_elim; assumption) | (apply goodT_elim rfl; assumption) | dsimp only | split

theorem good_execFrerCtxQuery {q : List Instr} (e : Eci) (s : State) (hs : Good q s) : GoodT q (execFrerCtxQuery e s) := by
  unfold execFrerCtxQuery
  with_reducible repeat' first | assumption | intro _ | apply goodT_next | apply goodT_ite | apply goodP_ite | apply good_ite | apply good_id | apply good_foldl | apply good_mapGetD | apply goodE_done | apply goodE_ite | apply goodE_wait | apply goodE_held | apply goodE_started | apply goodP_ite | apply good_eci | apply good_bufferOut | fail_if_no_progress apply good_upd | simp only [goodP_iff] | (apply goodE_elim; assumption) | (apply goodE_held_elim; assumption) | (apply goodE_started_elim; assumption) | (apply goodT_elim; assumption) | (apply goodT_elim rfl; assumption) | dsimp only | split

theorem good_execFrerCtxReset {q : List Instr} (e : Eci) (s : State) (hs : Good q s) : GoodT q (execFrerCtxReset e s) := by
  unfold execFrerCtxReset
  with_reducible repeat' first | assumption | intro _ | apply goodT_next | apply goodT_ite | apply goodP_ite | apply good_ite | apply good_id | apply good_foldl | apply good_mapGetD | apply goodE_done | apply goodE_ite | apply goodE_wait | apply goodE_held | apply goodE_started | apply goodP_ite | apply good_eci | apply good_modCtx | fail_if_no_progress apply good_upd | simp only [goodP_iff] | (apply goodT_elim; assumption) | (apply goodT_elim rfl; assumption) | dsimp only | split

theorem good_execFrerMemberClear {q : List Instr} (e : Eci) (s : State) (hs : Good q s) : GoodT q (execFrerMemberClear e s) := by
  unfold execFrerMemberClear
  with_reducible repeat' first | assumption | intro _ | apply goodT_next | apply goodT_ite | apply goodP_ite | apply good_ite | apply good_id | apply good_foldl | apply good_mapGetD | apply goodE_done | apply goodE_ite | apply goodE_wait | apply goodE_held | apply goodE_started | apply goodP_ite | apply good_eci | fail_if_no_progress apply good_upd | simp only [goodP_iff] | (apply goodT_elim; assumption) | (apply goodT_elim rfl; assumption) | dsimp only | split

end Sys2Proof.Machine
end

