-- ==== Sys2Proof/Laws/KeepsFaults.lean ====
section
/-! SUPPORT. The operations of Faults.lean keep the queue and the invariant. -/

set_option linter.unusedTactic false
set_option linter.unreachableTactic false
set_option linter.unusedSimpArgs false
set_option linter.unusedVariables false

namespace Sys2Proof.Machine

theorem good_fencePop {q : List Instr} (s : State) (v : Nat) (hs : Good q s) : Good q (s.fencePop v) := by
  have h := hs.2.2.2.2.1
  unfold State.fencePop
  split
  · exact good_fenceHeadSync _ (good_fenceLog hs (by simp only [List.length_drop]; omega))
  · exact hs

theorem good_fenceChannel {q : List Instr} (s : State) (ch : Nat) (cause : Nat) (hs : Good q s) : Good q (State.fenceChannel s ch cause) := by
  unfold State.fenceChannel
  with_reducible repeat' first | assumption | intro _ | apply good_ite | apply good_id | apply good_foldl | apply good_mapGetD | apply good_wr | apply good_stopCopy | apply good_raise | apply good_fence | apply goodP_foldl | fail_if_no_progress apply good_upd | simp only [goodP_iff] | dsimp only | split

theorem good_beginCheckpoint {q : List Instr} (s : State) (hs : Good q s) : Good q (State.beginCheckpoint s) := by
  unfold State.beginCheckpoint
  with_reducible repeat' first | assumption | intro _ | apply good_ite | apply good_id | apply good_foldl | apply good_mapGetD | apply goodP_foldl | fail_if_no_progress apply good_upd | simp only [goodP_iff] | dsimp only | split

theorem good_commitAll {q : List Instr} (s : State) (a1 : List JRec) (hs : Good q s) : Good q (State.commitAll s a1) := by
  induction a1 generalizing s with
  | nil =>
    unfold State.commitAll
    with_reducible repeat' first | assumption | intro _ | apply good_ite | apply good_id | apply good_foldl | apply good_mapGetD | apply good_commit | apply goodP_foldl | fail_if_no_progress apply good_upd | simp only [goodP_iff] | dsimp only | split
  | cons x r ih =>
    unfold State.commitAll
    with_reducible repeat' first | assumption | intro _ | apply ih | apply good_ite | apply good_id | apply good_foldl | apply good_mapGetD | apply good_commit | apply goodP_foldl | fail_if_no_progress apply good_upd | simp only [goodP_iff] | dsimp only | split

theorem good_fatalError {q : List Instr} (s : State) (cause : Nat) (unit : Nat) (hs : Good q s) : Good q (State.fatalError s cause unit) := by
  unfold State.fatalError
  with_reducible repeat' first | assumption | intro _ | apply good_ite | apply good_id | apply good_foldl | apply good_mapGetD | apply good_raise | apply good_countError | apply good_wr | apply good_put | apply good_each | apply good_stompNow | apply good_beginCheckpoint | apply good_commitAll | apply goodP_foldl | fail_if_no_progress apply good_upd | simp only [goodP_iff] | dsimp only | split

theorem good_fenceLink {q : List Instr} (s : State) (l : Nat) (cause : Nat) (hs : Good q s) : Good q (State.fenceLink s l cause) := by
  unfold State.fenceLink
  with_reducible repeat' first | assumption | intro _ | apply good_ite | apply good_id | apply good_foldl | apply good_mapGetD | apply good_raise | apply good_fence | apply good_fatalError | apply goodP_foldl | fail_if_no_progress apply good_upd | simp only [goodP_iff] | dsimp only | split

theorem good_discardQueued {q : List Instr} (s : State) (unit : Nat) (h : Nat) (hs : Good q s) : Good q (State.discardQueued s unit h) := by
  unfold State.discardQueued
  with_reducible repeat' first | assumption | intro _ | apply good_ite | apply good_id | apply good_foldl | apply good_mapGetD | apply good_modNode | apply good_dropPkt | apply good_discard | apply goodP_foldl | fail_if_no_progress apply good_upd | simp only [goodP_iff] | dsimp only | split

theorem good_execFenceNotice {q : List Instr} (unit : Nat) (obj : Nat) (s : State) (hs : Good q s) : GoodT q (execFenceNotice unit obj s) := by
  unfold execFenceNotice
  with_reducible repeat' first | assumption | intro _ | apply goodT_next | apply goodT_ite | apply goodP_ite | apply good_ite | apply good_id | apply good_foldl | apply good_mapGetD | apply good_each | apply good_discardQueued | apply good_discard | apply goodP_foldl | fail_if_no_progress apply good_upd | simp only [goodP_iff] | dsimp only | split

theorem good_fenceCopy {q : List Instr} (s : State) (u : Nat) (cause : Nat) (hs : Good q s) : Good q (State.fenceCopy s u cause) := by
  unfold State.fenceCopy
  with_reducible repeat' first | assumption | intro _ | apply good_ite | apply good_id | apply good_foldl | apply good_mapGetD | apply good_each | apply good_wr | apply good_stopCopy | apply good_raise | apply good_fence | apply goodP_foldl | fail_if_no_progress apply good_upd | simp only [goodP_iff] | dsimp only | split

theorem good_fenceHbm {q : List Instr} (s : State) (pc : Nat) (cause : Nat) (hs : Good q s) : Good q (State.fenceHbm s pc cause) := by
  unfold State.fenceHbm
  with_reducible repeat' first | assumption | intro _ | apply good_ite | apply good_id | apply good_foldl | apply good_mapGetD | apply good_wr | apply good_fence | apply good_raise | apply good_put | apply goodP_foldl | fail_if_no_progress apply good_upd | simp only [goodP_iff] | dsimp only | split

theorem good_execGlbFatal {q : List Instr} (unit : Nat) (s : State) (hs : Good q s) : GoodT q (execGlbFatal unit s) := by
  unfold execGlbFatal
  with_reducible repeat' first | assumption | intro _ | apply goodT_next | apply goodT_ite | apply goodP_ite | apply good_ite | apply good_id | apply good_foldl | apply good_mapGetD | apply good_fatalError | apply goodP_foldl | fail_if_no_progress apply good_upd | simp only [goodP_iff] | dsimp only | split

theorem good_execGlbFencePop {q : List Instr} (fn : Nat) (v : Nat) (s : State) (hs : Good q s) : GoodT q (execGlbFencePop fn v s) := by
  unfold execGlbFencePop
  with_reducible repeat' first | assumption | intro _ | apply goodT_next | apply goodT_ite | apply goodP_ite | apply good_ite | apply good_id | apply good_foldl | apply good_mapGetD | apply good_asManager | apply good_fencePop | apply goodP_foldl | fail_if_no_progress apply good_upd | simp only [goodP_iff] | dsimp only | split

theorem good_fencePhysical {q : List Instr} (s : State) (ix : Nat) (cause : Nat) (hs : Good q s) : Good q (State.fencePhysical s ix cause) := by
  unfold State.fencePhysical
  with_reducible repeat' first | assumption | intro _ | apply good_ite | apply good_id | apply good_foldl | apply good_mapGetD | apply good_fenceEngine | apply good_fenceIdleEngine | apply goodP_foldl | fail_if_no_progress apply good_upd | simp only [goodP_iff] | dsimp only | split

theorem good_sramHour {q : List Instr} (s : State) (r : RateSource) (hs : Good q s) : Good q (State.sramHour s r) := by
  unfold State.sramHour
  with_reducible repeat' first | assumption | intro _ | apply good_ite | apply good_id | apply good_foldl | apply good_mapGetD | apply goodP_foldl | fail_if_no_progress apply good_upd | simp only [goodP_iff] | dsimp only | split

theorem good_fenceCore {q : List Instr} (s : State) (k : Nat) (cause : Nat) (hs : Good q s) : Good q (State.fenceCore s k cause) := by
  unfold State.fenceCore
  with_reducible repeat' first | assumption | intro _ | apply good_ite | apply good_id | apply good_foldl | apply good_mapGetD | apply good_raise | apply good_fence | apply good_fatalError | apply goodP_foldl | fail_if_no_progress apply good_upd | simp only [goodP_iff] | dsimp only | split

theorem good_loseCells {q : List Instr} (s : State) (unit : Nat) (h : Nat) (hs : Good q s) : Good q (State.loseCells s unit h) := by
  unfold State.loseCells
  with_reducible repeat' first | assumption | intro _ | apply good_ite | apply good_id | apply good_foldl | apply good_mapGetD | apply good_dropPkt | apply good_discard | apply goodP_foldl | fail_if_no_progress apply good_upd | simp only [goodP_iff] | dsimp only | split

theorem good_fenceBank {q : List Instr} (s : State) (b : Nat) (cause : Nat) (hs_ : List Nat) (hs : Good q s) : Good q (State.fenceBank s b cause hs_) := by
  unfold State.fenceBank
  with_reducible repeat' first | assumption | intro _ | apply good_ite | apply good_id | apply good_foldl | apply good_mapGetD | apply good_raise | apply good_fence | apply good_each | apply good_loseCells | apply good_put | apply goodP_foldl | fail_if_no_progress apply good_upd | simp only [goodP_iff] | dsimp only | split

theorem good_fenceRing {q : List Instr} (s : State) (key : Nat) (cause : Nat) (hs : Good q s) : Good q (State.fenceRing s key cause) := by
  unfold State.fenceRing
  with_reducible repeat' first | assumption | intro _ | apply good_ite | apply good_id | apply good_foldl | apply good_mapGetD | apply good_fence | apply good_stopRing | apply goodP_foldl | fail_if_no_progress apply good_upd | simp only [goodP_iff] | dsimp only | split

theorem good_fenceFn {q : List Instr} (s : State) (f : Nat) (cause : Nat) (hs : Good q s) : Good q (State.fenceFn s f cause) := by
  unfold State.fenceFn
  with_reducible repeat' first | assumption | intro _ | apply good_ite | apply good_id | apply good_foldl | apply good_mapGetD | apply good_fence | apply good_wr | apply goodP_foldl | fail_if_no_progress apply good_upd | simp only [goodP_iff] | dsimp only | split

theorem good_fenceCtx {q : List Instr} (s : State) (obj : Nat) (cause : Nat) (hs : Good q s) : Good q (State.fenceCtx s obj cause) := by
  unfold State.fenceCtx
  with_reducible repeat' first | assumption | intro _ | apply good_ite | apply good_id | apply good_foldl | apply good_mapGetD | apply good_fence | apply good_raise | apply good_note | apply good_setEsp | apply good_setSession | apply goodP_foldl | fail_if_no_progress apply good_upd | simp only [goodP_iff] | dsimp only | split

theorem good_fenceObject {q : List Instr} (s : State) (kind : Nat) (obj : Nat) (cause : Nat) (hs : Good q s) : Good q (State.fenceObject s kind obj cause) := by
  unfold State.fenceObject
  with_reducible repeat' first | assumption | intro _ | apply good_ite | apply good_id | apply good_foldl | apply good_mapGetD | apply good_fenceRing | apply good_fenceFn | apply good_fenceCtx | apply good_fenceThread | apply good_fenceChannel | apply good_raise | apply good_loseDeficits | apply good_fence | apply goodP_foldl | fail_if_no_progress apply good_upd | simp only [goodP_iff] | dsimp only | split

theorem good_fenceUnit {q : List Instr} (s : State) (unit : Nat) (obj : Nat) (cause : Nat) (hs_ : List Nat) (hs : Good q s) : Good q (State.fenceUnit s unit obj cause hs_) := by
  unfold State.fenceUnit
  with_reducible repeat' first | assumption | intro _ | apply good_ite | apply good_id | apply good_foldl | apply good_mapGetD | apply good_fenceCluster | apply good_fencePhysical | apply good_raise | apply good_fence | apply good_portDown | apply good_fenceHbm | apply good_fenceCopy | apply good_fenceCore | apply good_wr | apply good_fenceBank | apply good_fenceLink | apply good_fenceObject | apply good_fatalError | apply goodP_foldl | fail_if_no_progress apply good_upd | simp only [goodP_iff] | dsimp only | split

theorem good_rateOver {q : List Instr} (s : State) (r : RateSource) (hs : Good q s) : Good q (State.rateOver s r) := by
  unfold State.rateOver
  with_reducible repeat' first | assumption | intro _ | apply good_ite | apply good_id | apply good_foldl | apply good_mapGetD | apply good_raise | apply good_fenceUnit | apply goodP_foldl | fail_if_no_progress apply good_upd | simp only [goodP_iff] | dsimp only | split

theorem good_execRateWindowEnd {q : List Instr} (r : RateSource) (errors : Nat) (s : State) (hs : Good q s) : GoodT q (execRateWindowEnd r errors s) := by
  unfold execRateWindowEnd
  with_reducible repeat' first | assumption | intro _ | apply goodT_next | apply goodT_ite | apply goodP_ite | apply good_ite | apply good_id | apply good_foldl | apply good_mapGetD | apply good_when | apply good_rateCount | apply good_add | apply good_windowEnd | apply good_sramHour | apply good_rateOver | apply goodP_foldl | fail_if_no_progress apply good_upd | simp only [goodP_iff] | dsimp only | split

theorem good_sparePowered {q : List Instr} (s : State) (hs : Good q s) : Good q (State.sparePowered s) := by
  unfold State.sparePowered
  with_reducible repeat' first | assumption | intro _ | apply good_ite | apply good_id | apply good_foldl | apply good_mapGetD | apply good_when | apply good_domainOn | apply goodP_foldl | fail_if_no_progress apply good_upd | simp only [goodP_iff] | dsimp only | split

theorem good_execFwCoreSpared {q : List Instr} (position : Nat) (s : State) (hs : Good q s) : GoodT q (execFwCoreSpared position s) := by
  unfold execFwCoreSpared
  with_reducible repeat' first | assumption | intro _ | apply goodT_next | apply goodT_ite | apply goodP_ite | apply good_ite | apply good_id | apply good_foldl | apply good_mapGetD | apply good_each | apply good_fwRestartFor | apply good_raise | apply good_sparePowered | apply goodP_foldl | fail_if_no_progress apply good_upd | simp only [goodP_iff] | dsimp only | split

theorem good_execUncorrectableStateError {q : List Instr} (unit : Nat) (obj : Nat) (frames : List Nat) (s : State) (hs : Good q s) : GoodT q (execUncorrectableStateError unit obj frames s) := by
  unfold execUncorrectableStateError
  with_reducible repeat' first | assumption | intro _ | apply goodT_next | apply goodT_ite | apply goodP_ite | apply good_ite | apply good_id | apply good_foldl | apply good_mapGetD | apply good_fenceUnit | apply goodP_foldl | fail_if_no_progress apply good_upd | simp only [goodP_iff] | dsimp only | split

theorem good_execCreditStall {q : List Instr} (kind : QueueKind) (i : Nat) (s : State) (hs : Good q s) : GoodT q (execCreditStall kind i s) := by
  unfold execCreditStall
  with_reducible repeat' first | assumption | intro _ | apply goodT_next | apply goodT_ite | apply goodP_ite | apply good_ite | apply good_id | apply good_foldl | apply good_mapGetD | apply good_fenceUnit | apply good_raise | apply goodP_foldl | fail_if_no_progress apply good_upd | simp only [goodP_iff] | dsimp only | split

theorem good_execFnFlrSlow {q : List Instr} (f : Nat) (s : State) (hs : Good q s) : GoodT q (execFnFlrSlow f s) := by
  unfold execFnFlrSlow
  with_reducible repeat' first | assumption | intro _ | apply goodT_next | apply goodT_ite | apply goodP_ite | apply good_ite | apply good_id | apply good_foldl | apply good_mapGetD | apply good_each | apply good_fenceUnit | apply good_flrDiscard | apply good_raise | apply good_flrComplete | apply goodP_foldl | fail_if_no_progress apply good_upd | simp only [goodP_iff] | apply goodO_getD | (apply goodO_elim; assumption) | dsimp only | split

end Sys2Proof.Machine
end

