-- ==== Sys2Proof/Laws/KeepsHbmCtl.lean ====
section
/-! SUPPORT. The operations of HbmCtl.lean keep the queue and the invariant. -/

set_option linter.unusedTactic false
set_option linter.unreachableTactic false
set_option linter.unusedSimpArgs false
set_option linter.unusedVariables false

namespace Sys2Proof.Machine

theorem good_hbmCorrected {q : List Instr} (s : State) (p : HbmPlace) (hs : Good q s) : Good q (State.hbmCorrected s p) := by
  unfold State.hbmCorrected
  with_reducible repeat' first | assumption | intro _ | apply good_ite | apply good_id | apply good_foldl | apply good_mapGetD | apply good_countError | apply good_count | apply good_rateCount | fail_if_no_progress apply good_upd | dsimp only | split

theorem good_modHbm {q : List Instr} (s : State) (g : Hbm → Hbm) (hs : Good q s) : Good q (State.modHbm s g) := by
  unfold State.modHbm
  with_reducible repeat' first | assumption | intro _ | apply good_ite | apply good_id | apply good_foldl | apply good_mapGetD | fail_if_no_progress apply good_upd | dsimp only | split

theorem good_postponedSync {q : List Instr} (s : State) (pc : Nat) (hs : Good q s) : Good q (State.postponedSync s pc) := by
  unfold State.postponedSync
  with_reducible repeat' first | assumption | intro _ | apply good_ite | apply good_id | apply good_foldl | apply good_mapGetD | apply good_wr | fail_if_no_progress apply good_upd | dsimp only | split

theorem good_srExit {q : List Instr} (s : State) (k : Nat) (hs : Good q s) : Good q (State.srExit s k) := by
  unfold State.srExit
  with_reducible repeat' first | assumption | intro _ | apply good_ite | apply good_id | apply good_foldl | apply good_mapGetD | apply good_each | apply good_when | apply good_wr | apply good_modHbm | apply good_raise | apply good_postponedSync | fail_if_no_progress apply good_upd | dsimp only | split

theorem good_hbmUncorrected {q : List Instr} (s : State) (p : HbmPlace) (hs : Good q s) : Good q (State.hbmUncorrected s p) := by
  unfold State.hbmUncorrected
  with_reducible repeat' first | assumption | intro _ | apply good_ite | apply good_id | apply good_foldl | apply good_mapGetD | apply good_raiseLimited | apply good_count | apply good_rateCount | fail_if_no_progress apply good_upd | dsimp only | split

theorem good_hbmResult {q : List Instr} (s : State) (p : HbmPlace) (write : Bool) (r : HbmResult) (hs : Good q s) : Good q (State.hbmResult s p write r) := by
  unfold State.hbmResult
  with_reducible repeat' first | assumption | intro _ | apply good_ite | apply good_id | apply good_foldl | apply good_mapGetD | apply good_hbmCorrected | apply good_hbmUncorrected | apply good_raiseLimited | apply good_modHbm | apply good_when | apply good_fenceUnit | fail_if_no_progress apply good_upd | dsimp only | split

theorem good_execHbmAccess {q : List Instr} (region : Nat) (off : Nat) (write : Bool) (r : HbmResult) (late : Bool) (s : State) (hs : Good q s) : GoodT q (execHbmAccess region off write r late s) := by
  unfold execHbmAccess
  with_reducible repeat' first | assumption | intro _ | apply goodT_next | apply goodT_ite | apply goodP_ite | apply good_ite | apply good_id | apply good_foldl | apply good_mapGetD | apply good_when | apply good_count | apply good_srExit | apply good_modHbm | apply good_raiseLimited | apply good_hbmResult | fail_if_no_progress apply good_upd | simp only [goodP_iff] | dsimp only | split

theorem good_stackTemp {q : List Instr} (s : State) (k : Nat) (t : Nat) (hs : Good q s) : Good q (State.stackTemp s k t) := by
  unfold State.stackTemp
  with_reducible repeat' first | assumption | intro _ | apply good_ite | apply good_id | apply good_foldl | apply good_mapGetD | apply good_wr | fail_if_no_progress apply good_upd | dsimp only | split

theorem good_execHbmTempHigh {q : List Instr} (k : Nat) (t : Nat) (s : State) (hs : Good q s) : GoodT q (execHbmTempHigh k t s) := by
  unfold execHbmTempHigh
  with_reducible repeat' first | assumption | intro _ | apply goodT_next | apply goodT_ite | apply goodP_ite | apply good_ite | apply good_id | apply good_foldl | apply good_mapGetD | apply good_raise | apply good_wr | apply good_stackTemp | fail_if_no_progress apply good_upd | simp only [goodP_iff] | dsimp only | split

theorem good_execHbmSoftRepair {q : List Instr} (pc : Nat) (bank : Nat) (row : Nat) (s : State) (hs : Good q s) : GoodT q (execHbmSoftRepair pc bank row s) := by
  unfold execHbmSoftRepair
  with_reducible repeat' first | assumption | intro _ | apply goodT_next | apply goodT_ite | apply goodP_ite | apply good_ite | apply good_id | apply good_foldl | apply good_mapGetD | apply good_modHbm | apply good_count | apply good_wr | apply good_raise | apply good_countError | apply good_when | fail_if_no_progress apply good_upd | simp only [goodP_iff] | dsimp only | split

theorem good_execHbmSrEnter {q : List Instr} (k : Nat) (s : State) (hs : Good q s) : GoodT q (execHbmSrEnter k s) := by
  unfold execHbmSrEnter
  with_reducible repeat' first | assumption | intro _ | apply goodT_next | apply goodT_ite | apply goodP_ite | apply good_ite | apply good_id | apply good_foldl | apply good_mapGetD | apply good_raise | apply good_each | apply good_when | apply good_wr | fail_if_no_progress apply good_upd | simp only [goodP_iff] | dsimp only | split

theorem good_execHbmSrExit {q : List Instr} (k : Nat) (s : State) (hs : Good q s) : GoodT q (execHbmSrExit k s) := by
  unfold execHbmSrExit
  with_reducible repeat' first | assumption | intro _ | apply goodT_next | apply goodT_ite | apply goodP_ite | apply good_ite | apply good_id | apply good_foldl | apply good_mapGetD | apply good_srExit | fail_if_no_progress apply good_upd | simp only [goodP_iff] | dsimp only | split

theorem good_execHbmTempCrit {q : List Instr} (k : Nat) (t : Nat) (s : State) (hs : Good q s) : GoodT q (execHbmTempCrit k t s) := by
  unfold execHbmTempCrit
  with_reducible repeat' first | assumption | intro _ | apply goodT_next | apply goodT_ite | apply goodP_ite | apply good_ite | apply good_id | apply good_foldl | apply good_mapGetD | apply good_raise | apply good_stackTemp | fail_if_no_progress apply good_upd | simp only [goodP_iff] | dsimp only | split

theorem good_execHbmRowClose {q : List Instr} (pc : Nat) (bank : Nat) (s : State) (hs : Good q s) : GoodT q (execHbmRowClose pc bank s) := by
  unfold execHbmRowClose
  with_reducible repeat' first | assumption | intro _ | apply goodT_next | apply goodT_ite | apply goodP_ite | apply good_ite | apply good_id | apply good_foldl | apply good_mapGetD | apply good_modHbm | fail_if_no_progress apply good_upd | simp only [goodP_iff] | dsimp only | split

theorem good_execHbmTempNormal {q : List Instr} (k : Nat) (t : Nat) (s : State) (hs : Good q s) : GoodT q (execHbmTempNormal k t s) := by
  unfold execHbmTempNormal
  with_reducible repeat' first | assumption | intro _ | apply goodT_next | apply goodT_ite | apply goodP_ite | apply good_ite | apply good_id | apply good_foldl | apply good_mapGetD | apply good_wr | apply good_stackTemp | fail_if_no_progress apply good_upd | simp only [goodP_iff] | dsimp only | split

theorem good_execHbmDrift {q : List Instr} (k : Nat) (t : Nat) (s : State) (hs : Good q s) : GoodT q (execHbmDrift k t s) := by
  unfold execHbmDrift
  with_reducible repeat' first | assumption | intro _ | apply goodT_next | apply goodT_ite | apply goodP_ite | apply good_ite | apply good_id | apply good_foldl | apply good_mapGetD | apply good_raise | apply good_stackTemp | fail_if_no_progress apply good_upd | simp only [goodP_iff] | dsimp only | split

theorem good_remapLane {q : List Instr} (s : State) (pc : Nat) (hs : Good q s) : Good q (State.remapLane s pc) := by
  unfold State.remapLane
  with_reducible repeat' first | assumption | intro _ | apply good_ite | apply good_id | apply good_foldl | apply good_mapGetD | apply good_raise | apply good_wr | fail_if_no_progress apply good_upd | dsimp only | split

theorem good_retrain {q : List Instr} (s : State) (k : Nat) (lanes : List Nat) (failed : List Nat) (hs : Good q s) : Good q (State.retrain s k lanes failed) := by
  unfold State.retrain
  with_reducible repeat' first | assumption | intro _ | apply good_ite | apply good_id | apply good_foldl | apply good_mapGetD | apply good_each | apply good_remapLane | apply good_modHbm | apply good_fenceUnit | apply good_raise | apply good_wr | fail_if_no_progress apply good_upd | dsimp only | split

theorem good_execHbmRefreshDue {q : List Instr} (pc : Nat) (bank : Nat) (busy : Bool) (s : State) (hs : Good q s) : GoodT q (execHbmRefreshDue pc bank busy s) := by
  unfold execHbmRefreshDue
  with_reducible repeat' first | assumption | intro _ | apply goodT_next | apply goodT_ite | apply goodP_ite | apply good_ite | apply good_id | apply good_foldl | apply good_mapGetD | apply good_postponedSync | apply good_modHbm | apply good_raiseLimited | apply good_count | fail_if_no_progress apply good_upd | simp only [goodP_iff] | dsimp only | split

end Sys2Proof.Machine
end

