-- ==== Sys2Proof/Laws/KeepsImages.lean ====
section
/-! SUPPORT. The operations of Images.lean keep the queue and the invariant. -/

set_option linter.unusedTactic false
set_option linter.unreachableTactic false
set_option linter.unusedSimpArgs false
set_option linter.unusedVariables false

namespace Sys2Proof.Machine

theorem good_loadCode {q : List Instr} (s : State) (c : Nat) (bank : Nat) (b : Bytes) (hs : Good q s) : Good q (State.loadCode s c bank b) := by
  unfold State.loadCode
  with_reducible repeat' first | assumption | intro _ | apply good_ite | apply good_id | apply good_foldl | apply good_mapGetD | apply good_each | fail_if_no_progress apply good_upd | dsimp only | split

theorem good_clearRegion {q : List Instr} (s : State) (c : Nat) (bank : Nat) (kind : Nat) (hs : Good q s) : Good q (State.clearRegion s c bank kind) := by
  unfold State.clearRegion
  with_reducible repeat' first | assumption | intro _ | apply good_ite | apply good_id | apply good_foldl | apply good_mapGetD | fail_if_no_progress apply good_upd | dsimp only | split

theorem good_putMeas {q : List Instr} (s : State) (r : Reg) (c : Nat) (bank : Nat) (m : Bytes) (hs : Good q s) : Good q (State.putMeas s r c bank m) := by
  unfold State.putMeas
  with_reducible repeat' first | assumption | intro _ | apply good_ite | apply good_id | apply good_foldl | apply good_mapGetD | apply good_each | apply good_put | fail_if_no_progress apply good_upd | dsimp only | split

theorem good_copyRegion {q : List Instr} (s : State) (c : Nat) (from_ : Nat) (to_ : Nat) (kind : Nat) (hs : Good q s) : Good q (State.copyRegion s c from_ to_ kind) := by
  unfold State.copyRegion
  with_reducible repeat' first | assumption | intro _ | apply good_ite | apply good_id | apply good_foldl | apply good_mapGetD | apply good_clearRegion | apply good_each | fail_if_no_progress apply good_upd | dsimp only | split

theorem good_loadCustomer {q : List Instr} (s : State) (c : Nat) (use : Nat) (bank : Nat) (x : Option ShadowImage) (hs : Good q s) : Good q (State.loadCustomer s c use bank x) := by
  unfold State.loadCustomer
  with_reducible repeat' first | assumption | intro _ | apply good_ite | apply good_id | apply good_foldl | apply good_mapGetD | apply good_loadCode | apply good_clearRegion | apply good_put | apply good_putMeas | apply good_copyRegion | apply good_each | fail_if_no_progress apply good_upd | dsimp only | split

theorem good_keepRepairs {q : List Instr} (s : State) (c : Nat) (bank : Nat) (b : Bytes) (hs : Good q s) : Good q (State.keepRepairs s c bank b) := by
  unfold State.keepRepairs
  with_reducible repeat' first | assumption | intro _ | apply good_ite | apply good_id | apply good_foldl | apply good_mapGetD | apply good_each | apply good_wr | fail_if_no_progress apply good_upd | dsimp only | split

theorem good_journalImage {q : List Instr} (s : State) (id : Nat) (kind : Nat) (outcome : Nat) (meas : Bytes) (hs : Good q s) : Good q (State.journalImage s id kind outcome meas) := by
  unfold State.journalImage
  with_reducible repeat' first | assumption | intro _ | apply good_ite | apply good_id | apply good_foldl | apply good_mapGetD | apply good_journalCfg | fail_if_no_progress apply good_upd | dsimp only | split

theorem good_putMatches {q : List Instr} (s : State) (c : Nat) (bank : Nat) (ms : List Nat) (hs : Good q s) : Good q (State.putMatches s c bank ms) := by
  unfold State.putMatches
  with_reducible repeat' first | assumption | intro _ | apply good_ite | apply good_id | apply good_foldl | apply good_mapGetD | apply good_each | apply good_put | fail_if_no_progress apply good_upd | dsimp only | split

theorem good_loadPatch {q : List Instr} (s : State) (c : Nat) (use : Nat) (bank : Nat) (x : Option ShadowImage) (hs : Good q s) : Good q (State.loadPatch s c use bank x) := by
  unfold State.loadPatch
  with_reducible repeat' first | assumption | intro _ | apply good_ite | apply good_id | apply good_foldl | apply good_mapGetD | apply good_keepRepairs | apply good_putMatches | apply good_loadCode | apply good_clearRegion | apply good_putMeas | apply good_copyRegion | apply good_each | apply good_put | fail_if_no_progress apply good_upd | dsimp only | split

theorem good_writeBank {q : List Instr} (s : State) (cs : List Nat) (use : Nat) (bank : Nat) (st : Nat) (cust : Option ShadowImage) (patch : Option ShadowImage) (hs : Good q s) : Good q (State.writeBank s cs use bank st cust patch) := by
  unfold State.writeBank
  with_reducible repeat' first | assumption | intro _ | apply good_ite | apply good_id | apply good_foldl | apply good_mapGetD | apply good_each | apply good_loadCustomer | apply good_loadPatch | apply good_wr | fail_if_no_progress apply good_upd | dsimp only | split

theorem good_freeRegions {q : List Instr} (s : State) (r : Nat) (hs : Good q s) : Good q (s.freeRegions r) :=
  good_hbmMem (good_tsram hs (memCanon_filter _ _ hs.2.2.2.2.2.2.2.2.1)) (memCanon_filter _ _ hs.2.2.2.2.2.2.2.2.2.1)

theorem good_newRegions {q : List Instr} (s : State) (b : Bytes) (hs : Good q s) : Good q (s.newRegions b) := by
  unfold State.newRegions
  exact good_upd (good_hbmMem (good_tsram hs
    (memCanon_foldl _ _ (fun m e hm => memCanon_foldl _ _ (fun n d hn => memCanon_set _ _ _ hn) _ hm) _ hs.2.2.2.2.2.2.2.2.1))
    (memCanon_foldl _ _ (fun m e hm => memCanon_set _ _ _ hm) _ hs.2.2.2.2.2.2.2.2.2.1))

theorem good_setBank {q : List Instr} (s : State) (use : Nat) (bank : Nat) (cust : Option ShadowImage) (patch : Option ShadowImage) (hs : Good q s) : Good q (State.setBank s use bank cust patch) := by
  unfold State.setBank
  with_reducible repeat' first | assumption | intro _ | apply good_ite | apply good_id | apply good_foldl | apply good_mapGetD | apply good_newRegions | fail_if_no_progress apply good_upd | dsimp only | split

theorem good_bankState {q : List Instr} (s : State) (bank : Nat) (st : Nat) (hs : Good q s) : Good q (State.bankState s bank st) := by
  unfold State.bankState
  with_reducible repeat' first | assumption | intro _ | apply good_ite | apply good_id | apply good_foldl | apply good_mapGetD | apply good_each | apply good_when | apply good_wr | fail_if_no_progress apply good_upd | dsimp only | split

end Sys2Proof.Machine
end

