-- ==== Sys2Proof/Laws/KeepsEciEpoch.lean ====
section
/-! SUPPORT. The operations of EciEpoch.lean keep the queue and the invariant. -/

set_option linter.unusedTactic false
set_option linter.unreachableTactic false
set_option linter.unusedSimpArgs false
set_option linter.unusedVariables false

namespace Sys2Proof.Machine

theorem good_journalCommit {q : List Instr} (s : State) (hs : Good q s) : Good q (State.journalCommit s) := by
  unfold State.journalCommit
  with_reducible repeat' first | assumption | intro _ | apply good_ite | apply good_id | apply good_foldl | apply good_mapGetD | apply good_journalCfg | apply goodP_foldl | fail_if_no_progress apply good_upd | simp only [goodP_iff] | dsimp only | split

/-- An update of both HBM memories. -/
theorem good_hbmBoth {q : List Instr} {s : State} (h : Good q s) {x y : SMap Byte} (hx : memCanon x) (hy : memCanon y) :
    Good q { s with copyWin := x, hbmMem := y } := good_hbmMem (good_copyWin h hx) hy

theorem good_restoreHbm {q : List Instr} (s : State) (pc : Nat) (hs : Good q s) : Good q (s.restoreHbm pc) := by
  unfold State.restoreHbm
  extract_lets k lost a b c d
  have ha : Good q a := good_unfence _ _ _ (good_wr _ _ _ _ hs)
  have hb : Good q b := good_wr _ _ _ _ ha
  have hc : Good q c := good_each _ _ _ hb (fun _ _ h => good_flowRemove _ _ _ h)
  have hd : Good q d := good_hbmBoth hc (memCanon_filter _ _ hc.2.2.2.2.2.2.2.2.2.2) (memCanon_filter _ _ hc.2.2.2.2.2.2.2.2.2.1)
  exact good_put _ _ _ _ hd

theorem good_journalGroup {q : List Instr} (s : State) (g : Nat) (x : Group) (hs : Good q s) : Good q (State.journalGroup s g x) := by
  unfold State.journalGroup
  with_reducible repeat' first | assumption | intro _ | apply good_ite | apply good_id | apply good_foldl | apply good_mapGetD | apply good_journalCfg | apply goodP_foldl | fail_if_no_progress apply good_upd | simp only [goodP_iff] | dsimp only | split

theorem good_commitGroups {q : List Instr} (s : State) (gs : SMap Group) (hs : Good q s) : Good q (State.commitGroups s gs) := by
  unfold State.commitGroups
  with_reducible repeat' first | assumption | intro _ | apply good_ite | apply good_id | apply good_foldl | apply good_mapGetD | apply good_each | apply good_journalGroup | apply good_relSync | apply good_wr | apply goodP_foldl | fail_if_no_progress apply good_upd | simp only [goodP_iff] | dsimp only | split

theorem good_keepProgramme {q : List Instr} (s : State) (p : Nat) (new : Nat) (hs : Good q s) : Good q (State.keepProgramme s p new) := by
  unfold State.keepProgramme
  with_reducible repeat' first | assumption | intro _ | apply good_ite | apply good_id | apply good_foldl | apply good_mapGetD | apply goodP_foldl | fail_if_no_progress apply good_upd | simp only [goodP_iff] | dsimp only | split

theorem good_loadProgramme {q : List Instr} (s : State) (p : Nat) (new : Nat) (b : Bytes) (hs : Good q s) : Good q (State.loadProgramme s p new b) := by
  unfold State.loadProgramme
  with_reducible repeat' first | assumption | intro _ | apply good_ite | apply good_id | apply good_foldl | apply good_mapGetD | apply goodP_foldl | fail_if_no_progress apply good_upd | simp only [goodP_iff] | dsimp only | split

theorem good_commitProgramme {q : List Instr} (s : State) (sh : Shadow) (new : Nat) (hs : Good q s) : Good q (State.commitProgramme s sh new) := by
  unfold State.commitProgramme
  with_reducible repeat' first | assumption | intro _ | apply good_ite | apply good_id | apply good_foldl | apply good_mapGetD | apply good_each | apply good_keepProgramme | apply good_loadProgramme | apply goodP_foldl | fail_if_no_progress apply good_upd | simp only [goodP_iff] | dsimp only | split

theorem good_commitBanks {q : List Instr} (s : State) (sh : Shadow) (new : Nat) (hs : Good q s) : Good q (State.commitBanks s sh new) := by
  unfold State.commitBanks
  with_reducible repeat' first | assumption | intro _ | apply good_ite | apply good_id | apply good_foldl | apply good_mapGetD | apply good_when | apply good_bankState | apply good_each | apply good_wr | apply goodP_foldl | fail_if_no_progress apply good_upd | simp only [goodP_iff] | dsimp only | split

theorem good_commitGates {q : List Instr} (s : State) (p : Nat) (g : GateList) (tc : Nat) (hs : Good q s) : Good q (State.commitGates s p g tc) := by
  unfold State.commitGates
  with_reducible repeat' first | assumption | intro _ | apply good_ite | apply good_id | apply good_foldl | apply good_mapGetD | apply good_raise | apply good_put | apply good_wr | apply goodP_foldl | fail_if_no_progress apply good_upd | simp only [goodP_iff] | dsimp only | split

theorem good_moveThreads {q : List Instr} (s : State) (c : Nat) (e : Nat) (p : Nat) (fenced : Bool) (hs : Good q s) : Good q (State.moveThreads s c e p fenced) := by
  unfold State.moveThreads
  with_reducible repeat' first | assumption | intro _ | apply good_ite | apply good_id | apply good_foldl | apply good_mapGetD | apply good_each | apply goodP_foldl | fail_if_no_progress apply good_upd | simp only [goodP_iff] | dsimp only | split

theorem good_moveSup {q : List Instr} (s : State) (c : Nat) (hs : Good q s) : Good q (State.moveSup s c) := by
  unfold State.moveSup
  with_reducible repeat' first | assumption | intro _ | apply good_ite | apply good_id | apply good_foldl | apply good_mapGetD | apply good_modThread | apply good_when | apply good_startSup | apply goodP_foldl | fail_if_no_progress apply good_upd | simp only [goodP_iff] | dsimp only | split

theorem good_swapEngine {q : List Instr} (s : State) (c : Nat) (p : Nat) (hs : Good q s) : Good q (State.swapEngine s c p) := by
  unfold State.swapEngine
  with_reducible repeat' first | assumption | intro _ | apply good_ite | apply good_id | apply good_foldl | apply good_mapGetD | apply good_wr | apply good_moveThreads | apply good_when | apply good_moveSup | apply good_fenceUnit | apply good_unfence | apply goodP_foldl | fail_if_no_progress apply good_upd | simp only [goodP_iff] | dsimp only | split

theorem good_freshThreads {q : List Instr} (s : State) (ts : List Nat) (hs : Good q s) : Good q (State.freshThreads s ts) := by
  unfold State.freshThreads
  with_reducible repeat' first | assumption | intro _ | apply good_ite | apply good_id | apply good_foldl | apply good_mapGetD | apply goodP_foldl | fail_if_no_progress apply good_upd | simp only [goodP_iff] | dsimp only | split

theorem good_copyBanks {q : List Instr} (s : State) (c : Nat) (hs : Good q s) : Good q (State.copyBanks s c) := by
  unfold State.copyBanks
  with_reducible repeat' first | assumption | intro _ | apply good_ite | apply good_id | apply good_foldl | apply good_mapGetD | apply good_each | apply good_put | apply goodP_foldl | fail_if_no_progress apply good_upd | simp only [goodP_iff] | dsimp only | split

theorem good_restoreCluster {q : List Instr} (s : State) (c : Nat) (hs : Good q s) : Good q (State.restoreCluster s c) := by
  unfold State.restoreCluster
  with_reducible repeat' first | assumption | intro _ | apply good_ite | apply good_id | apply good_foldl | apply good_mapGetD | apply good_freshThreads | apply good_copyBanks | apply good_unfence | apply good_wr | apply good_when | apply good_startSup | apply goodP_foldl | fail_if_no_progress apply good_upd | simp only [goodP_iff] | dsimp only | split

theorem good_restoreEngine {q : List Instr} (s : State) (c : Nat) (p : Nat) (hs : Good q s) : Good q (State.restoreEngine s c p) := by
  unfold State.restoreEngine
  with_reducible repeat' first | assumption | intro _ | apply good_ite | apply good_id | apply good_foldl | apply good_mapGetD | apply good_unfence | apply good_wr | apply good_freshThreads | apply goodP_foldl | fail_if_no_progress apply good_upd | simp only [goodP_iff] | dsimp only | split

theorem good_restoreCopy {q : List Instr} (s : State) (u : Nat) (hs : Good q s) : Good q (State.restoreCopy s u) := by
  unfold State.restoreCopy
  with_reducible repeat' first | assumption | intro _ | apply good_ite | apply good_id | apply good_foldl | apply good_mapGetD | apply good_unfence | apply good_wr | apply good_each | apply good_when | apply goodP_foldl | fail_if_no_progress apply good_upd | simp only [goodP_iff] | dsimp only | split

theorem good_restoreUnit {q : List Instr} (s : State) (unit : Nat) (hs : Good q s) : Good q (State.restoreUnit s unit) := by
  unfold State.restoreUnit
  with_reducible repeat' first | assumption | intro _ | apply good_ite | apply good_id | apply good_foldl | apply good_mapGetD | apply good_restoreCluster | apply good_restoreEngine | apply good_restoreHbm | apply good_restoreCopy | apply good_unfence | apply good_wr | apply good_put | apply goodP_foldl | fail_if_no_progress apply good_upd | simp only [goodP_iff] | dsimp only | split

theorem good_applyAction {q : List Instr} (s : State) (e : PlanEntry) (hs : Good q s) : Good q (State.applyAction s e) := by
  unfold State.applyAction
  with_reducible repeat' first | assumption | intro _ | apply good_ite | apply good_id | apply good_foldl | apply good_mapGetD | apply good_swapEngine | apply good_raise | apply good_restoreUnit | apply good_fencePhysical | apply good_fenceUnit | apply goodP_foldl | fail_if_no_progress apply good_upd | simp only [goodP_iff] | dsimp only | split

theorem good_commitEpoch {q : List Instr} (s : State) (sh : Shadow) (hs : Good q s) : Good q (State.commitEpoch s sh) := by
  unfold State.commitEpoch
  with_reducible repeat' first | assumption | intro _ | apply good_ite | apply good_id | apply good_foldl | apply good_mapGetD | apply good_commitProgramme | apply good_commitBanks | apply good_when | apply good_each | apply good_commitGates | apply good_commitGroups | apply good_wr | apply good_relSync | apply good_latch | apply good_applyAction | apply good_journalCommit | apply good_raise | apply goodP_foldl | fail_if_no_progress apply good_upd | simp only [goodP_iff] | dsimp only | split

theorem good_journalAttempt {q : List Instr} (s : State) (sh : Shadow) (custCode : Nat) (patchCode : Nat) (hs : Good q s) : Good q (State.journalAttempt s sh custCode patchCode) := by
  unfold State.journalAttempt
  with_reducible repeat' first | assumption | intro _ | apply good_ite | apply good_id | apply good_foldl | apply good_mapGetD | apply good_journalImage | apply goodP_foldl | fail_if_no_progress apply good_upd | simp only [goodP_iff] | dsimp only | split

theorem good_admitSync {q : List Instr} (s : State) (hs : Good q s) : Good q (State.admitSync s) := by
  unfold State.admitSync
  with_reducible repeat' first | assumption | intro _ | apply good_ite | apply good_id | apply good_foldl | apply good_mapGetD | apply good_put | apply goodP_foldl | fail_if_no_progress apply good_upd | simp only [goodP_iff] | dsimp only | split

theorem good_discardShadow {q : List Instr} (s : State) (hs : Good q s) : Good q (State.discardShadow s) := by
  unfold State.discardShadow
  with_reducible repeat' first | assumption | intro _ | apply good_ite | apply good_id | apply good_foldl | apply good_mapGetD | apply good_when | apply good_freeRegions | apply good_bankState | apply good_wr | apply good_admitSync | apply goodP_foldl | fail_if_no_progress apply good_upd | simp only [goodP_iff] | dsimp only | split

theorem good_stageDone {q : List Instr} (s : State) (f : Nat) (failed : List Nat) (hs : Good q s) : Good q (State.stageDone s f failed) := by
  unfold State.stageDone
  with_reducible repeat' first | assumption | intro _ | apply good_ite | apply good_id | apply good_foldl | apply good_mapGetD | apply good_journalAttempt | apply good_when | apply good_setBank | apply good_writeBank | apply good_admitSync | apply good_wr | apply good_raise | apply good_discardShadow | apply good_longDone | apply goodP_foldl | fail_if_no_progress apply good_upd | simp only [goodP_iff] | dsimp only | split

theorem good_execEpochCommit {q : List Instr} (e : Eci) (s : State) (hs : Good q s) : GoodT q (execEpochCommit e s) := by
  unfold execEpochCommit
  with_reducible repeat' first | assumption | intro _ | apply goodT_next | apply goodT_ite | apply goodP_ite | apply good_ite | apply good_id | apply good_foldl | apply good_mapGetD | apply goodE_done | apply goodE_ite | apply goodE_wait | apply goodE_held | apply goodE_started | apply goodP_ite | apply good_eci | apply good_put | apply good_wr | apply goodP_foldl | fail_if_no_progress apply good_upd | simp only [goodP_iff] | (apply goodT_elim; assumption) | (apply goodT_elim rfl; assumption) | dsimp only | split

theorem good_swapsDone {q : List Instr} (s : State) (hs : Good q s) : Good q (State.swapsDone s) := by
  unfold State.swapsDone
  with_reducible repeat' first | assumption | intro _ | apply good_ite | apply good_id | apply good_foldl | apply good_mapGetD | apply good_when | apply good_raise | apply good_add | apply good_each | apply goodP_foldl | fail_if_no_progress apply good_upd | simp only [goodP_iff] | dsimp only | split

theorem good_execEpochDrained {q : List Instr} (s : State) (hs : Good q s) : GoodT q (execEpochDrained s) := by
  unfold execEpochDrained
  with_reducible repeat' first | assumption | intro _ | apply goodT_next | apply goodT_ite | apply goodP_ite | apply good_ite | apply good_id | apply good_foldl | apply good_mapGetD | apply good_wr | apply good_when | apply good_bankState | apply good_freeRegions | apply good_admitSync | apply good_each | apply good_relSync | apply good_raise | apply good_journalCfg | apply good_swapsDone | apply goodP_foldl | fail_if_no_progress apply good_upd | simp only [goodP_iff] | dsimp only | split

theorem good_execEpochStatus {q : List Instr} (e : Eci) (s : State) (hs : Good q s) : GoodT q (execEpochStatus e s) := by
  unfold execEpochStatus
  with_reducible repeat' first | assumption | intro _ | apply goodT_next | apply goodT_ite | apply goodP_ite | apply good_ite | apply good_id | apply good_foldl | apply good_mapGetD | apply goodE_done | apply goodE_ite | apply goodE_wait | apply goodE_held | apply goodE_started | apply goodP_ite | apply good_eci | apply goodP_foldl | fail_if_no_progress apply good_upd | simp only [goodP_iff] | (apply goodT_elim; assumption) | (apply goodT_elim rfl; assumption) | dsimp only | split

theorem good_stageStart {q : List Instr} (s : State) (sh : Shadow) (hs : Good q s) : Good q (State.stageStart s sh) := by
  unfold State.stageStart
  with_reducible repeat' first | assumption | intro _ | apply good_ite | apply good_id | apply good_foldl | apply good_mapGetD | apply good_wr | apply goodP_foldl | fail_if_no_progress apply good_upd | simp only [goodP_iff] | dsimp only | split

theorem good_execEpochStage {q : List Instr} (e : Eci) (s : State) (hs : Good q s) : GoodT q (execEpochStage e s) := by
  unfold execEpochStage
  with_reducible repeat' first | assumption | intro _ | apply goodT_next | apply goodT_ite | apply goodP_ite | apply good_ite | apply good_id | apply good_foldl | apply good_mapGetD | apply goodE_done | apply goodE_ite | apply goodE_wait | apply goodE_held | apply goodE_started | apply goodP_ite | apply good_eci | apply good_dmaIn | apply good_stageStart | apply goodP_foldl | fail_if_no_progress apply good_upd | simp only [goodP_iff] | apply goodP_fst | (apply goodP_elim; assumption) | (apply goodT_elim; assumption) | (apply goodT_elim rfl; assumption) | dsimp only | split

theorem good_execEpochAbandon {q : List Instr} (e : Eci) (s : State) (hs : Good q s) : GoodT q (execEpochAbandon e s) := by
  unfold execEpochAbandon
  with_reducible repeat' first | assumption | intro _ | apply goodT_next | apply goodT_ite | apply goodP_ite | apply good_ite | apply good_id | apply good_foldl | apply good_mapGetD | apply goodE_done | apply goodE_ite | apply goodE_wait | apply goodE_held | apply goodE_started | apply goodP_ite | apply good_eci | apply good_discardShadow | apply good_journalAttempt | apply good_each | apply good_longDone | apply goodP_foldl | fail_if_no_progress apply good_upd | simp only [goodP_iff] | (apply goodT_elim; assumption) | (apply goodT_elim rfl; assumption) | dsimp only | split

theorem good_execEpochCommitted {q : List Instr} (s : State) (hs : Good q s) : GoodT q (execEpochCommitted s) := by
  unfold execEpochCommitted
  with_reducible repeat' first | assumption | intro _ | apply goodT_next | apply goodT_ite | apply goodP_ite | apply good_ite | apply good_id | apply good_foldl | apply good_mapGetD | apply good_commitEpoch | apply goodP_foldl | fail_if_no_progress apply good_upd | simp only [goodP_iff] | dsimp only | split

end Sys2Proof.Machine
end

