-- ==== Sys2Proof/Laws/KeepsMigrate.lean ====
section
/-! SUPPORT. The operations of Migrate.lean keep the queue and the invariant. -/

set_option linter.unusedTactic false
set_option linter.unreachableTactic false
set_option linter.unusedSimpArgs false
set_option linter.unusedVariables false

namespace Sys2Proof.Machine

theorem good_restoreRings {q : List Instr} (s : State) (f : Nat) (b : Bytes) (hs : Good q s) : Good q (State.restoreRings s f b) := by
  unfold State.restoreRings
  with_reducible repeat' first | assumption | intro _ | apply good_ite | apply good_id | apply good_foldl | apply good_mapGetD | apply good_each | apply good_used | apply good_modRing | apply goodP_foldl | fail_if_no_progress apply good_upd | simp only [goodP_iff] | dsimp only | split

theorem good_fnSaveDone {q : List Instr} (s : State) (f : Nat) (p : List Nat) (r : Option HostReply) (hs : Good q s) : GoodE q (State.fnSaveDone s f p r) := by
  unfold State.fnSaveDone
  with_reducible repeat' first | assumption | intro _ | apply goodE_done | apply goodE_ite | apply goodE_wait | apply goodE_held | apply goodE_started | apply goodP_ite | apply good_ite | apply good_id | apply good_foldl | apply good_mapGetD | apply good_bufferOut | apply goodP_foldl | fail_if_no_progress apply good_upd | simp only [goodP_iff] | (apply goodE_elim; assumption) | (apply goodE_held_elim; assumption) | (apply goodE_started_elim; assumption) | dsimp only | split

theorem good_restoreNodes {q : List Instr} (s : State) (f : Nat) (src : Nat) (a3 : List Bytes) (hs : Good q s) : GoodO q (State.restoreNodes s f src a3) := by
  induction a3 generalizing s f src with
  | nil =>
    unfold State.restoreNodes
    with_reducible repeat' first | assumption | intro _ | apply goodO_some | apply goodO_none | apply goodO_ite | apply good_ite | apply good_id | apply good_foldl | apply good_mapGetD | apply good_writeNode | apply goodP_foldl | fail_if_no_progress apply good_upd | simp only [goodP_iff] | dsimp only | split
  | cons x r ih =>
    unfold State.restoreNodes
    with_reducible repeat' first | assumption | intro _ | apply ih | apply goodO_some | apply goodO_none | apply goodO_ite | apply good_ite | apply good_id | apply good_foldl | apply good_mapGetD | apply good_writeNode | apply goodP_foldl | fail_if_no_progress apply good_upd | simp only [goodP_iff] | dsimp only | split

theorem good_restoreL2 {q : List Instr} (s : State) (x : L2Entry) (a2 : List Nat) (hs : Good q s) : GoodO q (State.restoreL2 s x a2) := by
  induction a2 generalizing s x with
  | nil =>
    unfold State.restoreL2
    with_reducible repeat' first | assumption | intro _ | apply goodO_some | apply goodO_none | apply goodO_ite | apply good_ite | apply good_id | apply good_foldl | apply good_mapGetD | apply good_l2Write | apply goodP_foldl | fail_if_no_progress apply good_upd | simp only [goodP_iff] | dsimp only | split
  | cons x r ih =>
    unfold State.restoreL2
    with_reducible repeat' first | assumption | intro _ | apply ih | apply goodO_some | apply goodO_none | apply goodO_ite | apply good_ite | apply good_id | apply good_foldl | apply good_mapGetD | apply good_l2Write | apply goodP_foldl | fail_if_no_progress apply good_upd | simp only [goodP_iff] | dsimp only | split

theorem good_restoreL2s {q : List Instr} (s : State) (f : Nat) (src : Nat) (a3 : List Bytes) (hs : Good q s) : GoodO q (State.restoreL2s s f src a3) := by
  induction a3 generalizing s f src with
  | nil =>
    unfold State.restoreL2s
    with_reducible repeat' first | assumption | intro _ | apply goodO_some | apply goodO_none | apply goodO_ite | apply good_ite | apply good_id | apply good_foldl | apply good_mapGetD | apply good_restoreL2 | apply goodP_foldl | fail_if_no_progress apply good_upd | simp only [goodP_iff] | apply goodO_getD | (apply goodO_elim; assumption) | dsimp only | split
  | cons x r ih =>
    unfold State.restoreL2s
    with_reducible repeat' first | assumption | intro _ | apply ih | apply goodO_some | apply goodO_none | apply goodO_ite | apply good_ite | apply good_id | apply good_foldl | apply good_mapGetD | apply good_restoreL2 | apply goodP_foldl | fail_if_no_progress apply good_upd | simp only [goodP_iff] | apply goodO_getD | (apply goodO_elim; assumption) | dsimp only | split

theorem good_restoreFlows {q : List Instr} (s : State) (f : Nat) (src : Nat) (a3 : List Bytes) (hs : Good q s) : GoodO q (State.restoreFlows s f src a3) := by
  induction a3 generalizing s f src with
  | nil =>
    unfold State.restoreFlows
    with_reducible repeat' first | assumption | intro _ | apply goodO_some | apply goodO_none | apply goodO_ite | apply good_ite | apply good_id | apply good_foldl | apply good_mapGetD | apply good_flowInsert | apply goodP_foldl | fail_if_no_progress apply good_upd | simp only [goodP_iff] | apply goodP_fst | (apply goodP_elim; assumption) | dsimp only | split
  | cons x r ih =>
    unfold State.restoreFlows
    with_reducible repeat' first | assumption | intro _ | apply ih | apply goodO_some | apply goodO_none | apply goodO_ite | apply good_ite | apply good_id | apply good_foldl | apply good_mapGetD | apply good_flowInsert | apply goodP_foldl | fail_if_no_progress apply good_upd | simp only [goodP_iff] | apply goodP_fst | (apply goodP_elim; assumption) | dsimp only | split

theorem good_restoreEvents {q : List Instr} (s : State) (f : Nat) (b : Bytes) (hs : Good q s) : Good q (State.restoreEvents s f b) := by
  unfold State.restoreEvents
  with_reducible repeat' first | assumption | intro _ | apply good_ite | apply good_id | apply good_foldl | apply good_mapGetD | apply good_each | apply good_put | apply goodP_foldl | fail_if_no_progress apply good_upd | simp only [goodP_iff] | dsimp only | split

theorem good_restoreAll {q : List Instr} (s : State) (f : Nat) (b : Bytes) (hs : Good q s) : GoodO q (State.restoreAll s f b) := by
  unfold State.restoreAll
  with_reducible repeat' first | assumption | intro _ | apply goodO_some | apply goodO_none | apply goodO_ite | apply good_ite | apply good_id | apply good_foldl | apply good_mapGetD | apply good_restoreNodes | apply good_restoreL2s | apply good_restoreFlows | apply good_wr | apply good_restoreEvents | apply good_restoreRings | apply goodP_foldl | fail_if_no_progress apply good_upd | simp only [goodP_iff] | apply goodO_getD | (apply goodO_elim; assumption) | dsimp only | split

theorem good_fnRestoreDone {q : List Instr} (s : State) (e : Nat) (p : List Nat) (r : Option HostReply) (hs : Good q s) : GoodE q (State.fnRestoreDone s e p r) := by
  unfold State.fnRestoreDone
  with_reducible repeat' first | assumption | intro _ | apply goodE_done | apply goodE_ite | apply goodE_wait | apply goodE_held | apply goodE_started | apply goodP_ite | apply good_ite | apply good_id | apply good_foldl | apply good_mapGetD | apply good_dmaIn | apply good_restoreAll | apply goodP_foldl | fail_if_no_progress apply good_upd | simp only [goodP_iff] | apply goodO_getD | (apply goodO_elim; assumption) | apply goodP_fst | (apply goodP_elim; assumption) | dsimp only | split

theorem good_execFnSave {q : List Instr} (e : Eci) (s : State) (hs : Good q s) : GoodT q (execFnSave e s) := by
  unfold execFnSave
  with_reducible repeat' first | assumption | intro _ | apply goodT_next | apply goodT_ite | apply goodP_ite | apply good_ite | apply good_id | apply good_foldl | apply good_mapGetD | apply goodE_done | apply goodE_ite | apply goodE_wait | apply goodE_held | apply goodE_started | apply goodP_ite | apply good_eci | apply goodP_foldl | fail_if_no_progress apply good_upd | simp only [goodP_iff] | (apply goodT_elim; assumption) | (apply goodT_elim rfl; assumption) | dsimp only | split

theorem good_execFnRestore {q : List Instr} (e : Eci) (s : State) (hs : Good q s) : GoodT q (execFnRestore e s) := by
  unfold execFnRestore
  with_reducible repeat' first | assumption | intro _ | apply goodT_next | apply goodT_ite | apply goodP_ite | apply good_ite | apply good_id | apply good_foldl | apply good_mapGetD | apply goodE_done | apply goodE_ite | apply goodE_wait | apply goodE_held | apply goodE_started | apply goodP_ite | apply good_eci | apply goodP_foldl | fail_if_no_progress apply good_upd | simp only [goodP_iff] | (apply goodT_elim; assumption) | (apply goodT_elim rfl; assumption) | dsimp only | split

end Sys2Proof.Machine
end

