-- ==== Sys2Proof/Laws/KeepsEciSvc.lean ====
section
/-! SUPPORT. The operations of EciSvc.lean keep the queue and the invariant. -/

set_option linter.unusedTactic false
set_option linter.unreachableTactic false
set_option linter.unusedSimpArgs false
set_option linter.unusedVariables false

namespace Sys2Proof.Machine

theorem good_resumeThread {q : List Instr} (s : State) (t : Nat) (step : Bool) (hs : Good q s) : Good q (State.resumeThread s t step) := by
  unfold State.resumeThread
  with_reducible repeat' first | assumption | intro _ | apply good_ite | apply good_id | apply good_foldl | apply good_mapGetD | apply good_modThread | fail_if_no_progress apply good_upd | dsimp only | split

theorem good_journalFirmware {q : List Instr} (s : State) (hs : Good q s) : Good q (State.journalFirmware s) := by
  unfold State.journalFirmware
  with_reducible repeat' first | assumption | intro _ | apply good_ite | apply good_id | apply good_foldl | apply good_mapGetD | apply good_journalImage | fail_if_no_progress apply good_upd | dsimp only | split

theorem good_debugCmd {q : List Instr} (s : State) (v : DebugVia) (code : Nat) (cluster : List Nat → Nat) (masks : List Nat)
    (run : List Nat → State × Nat) (hs : Good q s) (hrun : ∀ p, GoodP q (run p)) : GoodT q (s.debugCmd v code cluster masks run) := by
  unfold State.debugCmd
  split
  · exact good_eci _ _ _ _ _ _ _ _ hs (fun p _ => goodE_done (goodP_fst (hrun p)))
  · exact goodT_next (good_ite (goodP_fst (hrun _)) hs)

theorem good_haltCmd {q : List Instr} (s : State) (t : Nat) (hs : Good q s) : Good q (State.haltCmd s t) := by
  unfold State.haltCmd
  with_reducible repeat' first | assumption | intro _ | apply good_ite | apply good_id | apply good_foldl | apply good_mapGetD | apply good_haltThread | fail_if_no_progress apply good_upd | dsimp only | split

theorem good_execDbgHalt {q : List Instr} (v : DebugVia) (s : State) (hs : Good q s) : GoodT q (execDbgHalt v s) := by
  unfold execDbgHalt
  with_reducible repeat' first | assumption | intro _ | apply goodT_next | apply goodT_ite | apply goodP_ite | apply good_ite | apply good_id | apply good_foldl | apply good_mapGetD | apply good_debugCmd | apply good_each | apply good_haltCmd | fail_if_no_progress apply good_upd | simp only [goodP_iff] | (apply goodT_elim; assumption) | (apply goodT_elim rfl; assumption) | dsimp only | split

theorem good_retrainDone {q : List Instr} (s : State) (p : List Nat) (lanes : List Nat) (failed : List Nat) (hs : Good q s) : GoodE q (State.retrainDone s p lanes failed) := by
  unfold State.retrainDone
  with_reducible repeat' first | assumption | intro _ | apply goodE_done | apply goodE_ite | apply goodE_wait | apply goodE_held | apply goodE_started | apply goodP_ite | apply good_ite | apply good_id | apply good_foldl | apply good_mapGetD | apply good_each | apply good_retrain | fail_if_no_progress apply good_upd | simp only [goodP_iff] | dsimp only | split

theorem good_execDbgAbort {q : List Instr} (v : DebugVia) (s : State) (hs : Good q s) : GoodT q (execDbgAbort v s) := by
  unfold execDbgAbort
  with_reducible repeat' first | assumption | intro _ | apply goodT_next | apply goodT_ite | apply goodP_ite | apply good_ite | apply good_id | apply good_foldl | apply good_mapGetD | apply good_debugCmd | apply good_each | apply good_abortThread | fail_if_no_progress apply good_upd | simp only [goodP_iff] | (apply goodT_elim; assumption) | (apply goodT_elim rfl; assumption) | dsimp only | split

theorem good_execWearSample {q : List Instr} (d : Nat) (khz : Nat) (s : State) (hs : Good q s) : GoodT q (execWearSample d khz s) := by
  unfold execWearSample
  with_reducible repeat' first | assumption | intro _ | apply goodT_next | apply goodT_ite | apply goodP_ite | apply good_ite | apply good_id | apply good_foldl | apply good_mapGetD | apply good_when | apply good_raise | fail_if_no_progress apply good_upd | simp only [goodP_iff] | dsimp only | split

theorem good_execSvcPortCounters {q : List Instr} (e : Eci) (s : State) (hs : Good q s) : GoodT q (execSvcPortCounters e s) := by
  unfold execSvcPortCounters
  with_reducible repeat' first | assumption | intro _ | apply goodT_next | apply goodT_ite | apply goodP_ite | apply good_ite | apply good_id | apply good_foldl | apply good_mapGetD | apply goodE_done | apply goodE_ite | apply goodE_wait | apply goodE_held | apply goodE_started | apply goodP_ite | apply good_eci | apply good_foldCounters | apply good_bufferOut | fail_if_no_progress apply good_upd | simp only [goodP_iff] | (apply goodE_elim; assumption) | (apply goodE_held_elim; assumption) | (apply goodE_started_elim; assumption) | (apply goodT_elim; assumption) | (apply goodT_elim rfl; assumption) | dsimp only | split

theorem good_flashHeld {q : List Instr} (s : State) (f : Nat) (hs : Good q s) : Good q (State.flashHeld s f) := by
  unfold State.flashHeld
  with_reducible repeat' first | assumption | intro _ | apply good_ite | apply good_id | apply good_foldl | apply good_mapGetD | fail_if_no_progress apply good_upd | dsimp only | split

theorem good_flashPut {q : List Instr} (s : State) (region : Nat) (data : Bytes) (verified : Bool) (hs : Good q s) : Good q (State.flashPut s region data verified) := by
  unfold State.flashPut
  with_reducible repeat' first | assumption | intro _ | apply good_ite | apply good_id | apply good_foldl | apply good_mapGetD | apply good_raise | fail_if_no_progress apply good_upd | dsimp only | split

theorem good_execSvcEvtRoute {q : List Instr} (e : Eci) (s : State) (hs : Good q s) : GoodT q (execSvcEvtRoute e s) := by
  unfold execSvcEvtRoute
  with_reducible repeat' first | assumption | intro _ | apply goodT_next | apply goodT_ite | apply goodP_ite | apply good_ite | apply good_id | apply good_foldl | apply good_mapGetD | apply goodE_done | apply goodE_ite | apply goodE_wait | apply goodE_held | apply goodE_started | apply goodP_ite | apply good_eci | apply good_put | fail_if_no_progress apply good_upd | simp only [goodP_iff] | (apply goodT_elim; assumption) | (apply goodT_elim rfl; assumption) | dsimp only | split

theorem good_execSvcWearQuery {q : List Instr} (e : Eci) (s : State) (hs : Good q s) : GoodT q (execSvcWearQuery e s) := by
  unfold execSvcWearQuery
  with_reducible repeat' first | assumption | intro _ | apply goodT_next | apply goodT_ite | apply goodP_ite | apply good_ite | apply good_id | apply good_foldl | apply good_mapGetD | apply goodE_done | apply goodE_ite | apply goodE_wait | apply goodE_held | apply goodE_started | apply goodP_ite | apply good_eci | fail_if_no_progress apply good_upd | simp only [goodP_iff] | (apply goodT_elim; assumption) | (apply goodT_elim rfl; assumption) | dsimp only | split

theorem good_execDbgBpSet {q : List Instr} (v : DebugVia) (s : State) (hs : Good q s) : GoodT q (execDbgBpSet v s) := by
  unfold execDbgBpSet
  with_reducible repeat' first | assumption | intro _ | apply goodT_next | apply goodT_ite | apply goodP_ite | apply good_ite | apply good_id | apply good_foldl | apply good_mapGetD | apply good_debugCmd | apply good_put | apply good_wr | fail_if_no_progress apply good_upd | simp only [goodP_iff] | (apply goodT_elim; assumption) | (apply goodT_elim rfl; assumption) | dsimp only | split

theorem good_fwActivate {q : List Instr} (s : State) (slot : Nat) (hs : Good q s) : Good q (State.fwActivate s slot) := by
  unfold State.fwActivate
  with_reducible repeat' first | assumption | intro _ | apply good_ite | apply good_id | apply good_foldl | apply good_mapGetD | apply good_each | apply good_setDoorbell | apply good_fwRestart | apply good_journalFirmware | apply good_rewriteRom | fail_if_no_progress apply good_upd | dsimp only | split

theorem good_execSvcFwActivate {q : List Instr} (e : Eci) (s : State) (hs : Good q s) : GoodT q (execSvcFwActivate e s) := by
  unfold execSvcFwActivate
  with_reducible repeat' first | assumption | intro _ | apply goodT_next | apply goodT_ite | apply goodP_ite | apply good_ite | apply good_id | apply good_foldl | apply good_mapGetD | apply goodE_done | apply goodE_ite | apply goodE_wait | apply goodE_held | apply goodE_started | apply goodP_ite | apply good_eci | apply good_fwActivate | apply good_eciReply | fail_if_no_progress apply good_upd | simp only [goodP_iff] | (apply goodT_elim; assumption) | (apply goodT_elim rfl; assumption) | dsimp only | split

theorem good_execDbgStep {q : List Instr} (v : DebugVia) (s : State) (hs : Good q s) : GoodT q (execDbgStep v s) := by
  unfold execDbgStep
  with_reducible repeat' first | assumption | intro _ | apply goodT_next | apply goodT_ite | apply goodP_ite | apply good_ite | apply good_id | apply good_foldl | apply good_mapGetD | apply good_debugCmd | apply good_resumeThread | fail_if_no_progress apply good_upd | simp only [goodP_iff] | (apply goodT_elim; assumption) | (apply goodT_elim rfl; assumption) | dsimp only | split

theorem good_execSvcHbmRetrain {q : List Instr} (e : Eci) (s : State) (hs : Good q s) : GoodT q (execSvcHbmRetrain e s) := by
  unfold execSvcHbmRetrain
  with_reducible repeat' first | assumption | intro _ | apply goodT_next | apply goodT_ite | apply goodP_ite | apply good_ite | apply good_id | apply good_foldl | apply good_mapGetD | apply goodE_done | apply goodE_ite | apply goodE_wait | apply goodE_held | apply goodE_started | apply goodP_ite | apply good_eci | fail_if_no_progress apply good_upd | simp only [goodP_iff] | (apply goodT_elim; assumption) | (apply goodT_elim rfl; assumption) | dsimp only | split

theorem good_execRecoveryFlashRelease {q : List Instr} (s : State) (hs : Good q s) : GoodT q (execRecoveryFlashRelease s) := by
  unfold execRecoveryFlashRelease
  with_reducible repeat' first | assumption | intro _ | apply goodT_next | apply goodT_ite | apply goodP_ite | apply good_ite | apply good_id | apply good_foldl | apply good_mapGetD | fail_if_no_progress apply good_upd | simp only [goodP_iff] | dsimp only | split

theorem good_ovenSaveDone {q : List Instr} (s : State) (verified : Bool) (hs : Good q s) : GoodE q (State.ovenSaveDone s verified) := by
  unfold State.ovenSaveDone
  with_reducible repeat' first | assumption | intro _ | apply goodE_done | apply goodE_ite | apply goodE_wait | apply goodE_held | apply goodE_started | apply goodP_ite | apply good_ite | apply good_id | apply good_foldl | apply good_mapGetD | apply good_flashPut | apply good_used | fail_if_no_progress apply good_upd | simp only [goodP_iff] | dsimp only | split

theorem good_execDbgSoftBp {q : List Instr} (v : DebugVia) (s : State) (hs : Good q s) : GoodT q (execDbgSoftBp v s) := by
  unfold execDbgSoftBp
  with_reducible repeat' first | assumption | intro _ | apply goodT_next | apply goodT_ite | apply goodP_ite | apply good_ite | apply good_id | apply good_foldl | apply good_mapGetD | apply good_debugCmd | apply good_wr | fail_if_no_progress apply good_upd | simp only [goodP_iff] | (apply goodT_elim; assumption) | (apply goodT_elim rfl; assumption) | dsimp only | split

theorem good_execSvcLogRead {q : List Instr} (e : Eci) (s : State) (hs : Good q s) : GoodT q (execSvcLogRead e s) := by
  unfold execSvcLogRead
  refine good_eci _ _ _ _ _ _ _ _ hs (fun p _ => ?_)
  have h := hs.2.2.2.1
  exact goodE_done (good_upd (good_fwLog hs (x := s.fwLog.drop 15) (by simp only [List.length_drop]; omega)))

theorem good_execWearRecordSave {q : List Instr} (stress : List Nat) (s : State) (hs : Good q s) : GoodT q (execWearRecordSave stress s) := by
  unfold execWearRecordSave
  with_reducible repeat' first | assumption | intro _ | apply goodT_next | apply goodT_ite | apply goodP_ite | apply good_ite | apply good_id | apply good_foldl | apply good_mapGetD | apply good_each | apply good_when | apply good_raise | fail_if_no_progress apply good_upd | simp only [goodP_iff] | dsimp only | split

theorem good_execDbgResume {q : List Instr} (v : DebugVia) (s : State) (hs : Good q s) : GoodT q (execDbgResume v s) := by
  unfold execDbgResume
  with_reducible repeat' first | assumption | intro _ | apply goodT_next | apply goodT_ite | apply goodP_ite | apply good_ite | apply good_id | apply good_foldl | apply good_mapGetD | apply good_debugCmd | apply good_each | apply good_resumeThread | fail_if_no_progress apply good_upd | simp only [goodP_iff] | (apply goodT_elim; assumption) | (apply goodT_elim rfl; assumption) | dsimp only | split

theorem good_flashWriteDone {q : List Instr} (s : State) (f : Nat) (p : List Nat) (r : Option HostReply) (verified : Bool) (hs : Good q s) : GoodE q (State.flashWriteDone s f p r verified) := by
  unfold State.flashWriteDone
  with_reducible repeat' first | assumption | intro _ | apply goodE_done | apply goodE_ite | apply goodE_wait | apply goodE_held | apply goodE_started | apply goodP_ite | apply good_ite | apply good_id | apply good_foldl | apply good_mapGetD | apply good_dmaIn | apply good_flashPut | apply good_raise | apply good_used | fail_if_no_progress apply good_upd | simp only [goodP_iff] | apply goodP_fst | (apply goodP_elim; assumption) | dsimp only | split

theorem good_execSvcFlashWrite {q : List Instr} (e : Eci) (s : State) (hs : Good q s) : GoodT q (execSvcFlashWrite e s) := by
  unfold execSvcFlashWrite
  with_reducible repeat' first | assumption | intro _ | apply goodT_next | apply goodT_ite | apply goodP_ite | apply good_ite | apply good_id | apply good_foldl | apply good_mapGetD | apply goodE_done | apply goodE_ite | apply goodE_wait | apply goodE_held | apply goodE_started | apply goodP_ite | apply good_eci | apply good_when | apply good_flashHeld | fail_if_no_progress apply good_upd | simp only [goodP_iff] | (apply goodT_elim; assumption) | (apply goodT_elim rfl; assumption) | dsimp only | split

end Sys2Proof.Machine
end

