-- ==== Sys2Proof/Laws/KeepsLong.lean ====
section
/-! SUPPORT. The operations of Long.lean keep the queue and the invariant. -/

set_option linter.unusedTactic false
set_option linter.unreachableTactic false
set_option linter.unusedSimpArgs false
set_option linter.unusedVariables false

namespace Sys2Proof.Machine

theorem good_quiesceDone {q : List Instr} (s : State) (p : List Nat) (hs : Good q s) : GoodE q (State.quiesceDone s p) := by
  unfold State.quiesceDone
  with_reducible repeat' first | assumption | intro _ | apply goodE_done | apply goodE_ite | apply goodE_wait | apply goodE_held | apply goodE_started | apply goodP_ite | apply good_ite | apply good_id | apply good_foldl | apply good_mapGetD | apply good_quiesced | fail_if_no_progress apply good_upd | simp only [goodP_iff] | dsimp only | split

theorem good_longBody {q : List Instr} (s : State) (f : Nat) (c : EciCmd) (io : LongIo) (hs : Good q s) : GoodE q (State.longBody s f c io) := by
  unfold State.longBody
  with_reducible repeat' first | assumption | intro _ | apply goodE_done | apply goodE_ite | apply goodE_wait | apply goodE_held | apply goodE_started | apply goodP_ite | apply good_ite | apply good_id | apply good_foldl | apply good_mapGetD | apply good_quiesceDone | apply good_fnSaveDone | apply good_fnRestoreDone | apply good_obsDump | apply good_ovenSaveDone | apply good_stageDone | apply good_flashWriteDone | apply good_retrainDone | fail_if_no_progress apply good_upd | simp only [goodP_iff] | (apply goodE_elim; assumption) | (apply goodE_held_elim; assumption) | (apply goodE_started_elim; assumption) | dsimp only | split

theorem good_execLongCommandComplete {q : List Instr} (f : Nat) (io : LongIo) (s : State) (hs : Good q s) : GoodT q (execLongCommandComplete f io s) := by
  unfold execLongCommandComplete
  with_reducible repeat' first | assumption | intro _ | apply goodT_next | apply goodT_ite | apply goodP_ite | apply good_ite | apply good_id | apply good_foldl | apply good_mapGetD | apply goodE_done | apply goodE_ite | apply goodE_wait | apply goodE_held | apply goodE_started | apply goodP_ite | apply good_longBody | apply good_longDone | fail_if_no_progress apply good_upd | simp only [goodP_iff] | (apply goodE_elim; assumption) | (apply goodE_held_elim; assumption) | (apply goodE_started_elim; assumption) | dsimp only | split

end Sys2Proof.Machine
end

