-- ==== Sys2Proof/Laws/KeepsBoot.lean ====
section
/-! SUPPORT. The operations of Boot.lean keep the queue and the invariant. -/

set_option linter.unusedTactic false
set_option linter.unreachableTactic false
set_option linter.unusedSimpArgs false
set_option linter.unusedVariables false

namespace Sys2Proof.Machine

/-- The board's manager is PF0 or PF2. -/
theorem legal_boardManager (s : State) : managerLegal s.boardManager := by
  unfold State.boardManager
  split
  · exact .inr (.inl rfl)
  · exact .inl rfl

/-- The manager role as the board gives it. -/
theorem good_board {q : List Instr} (s : State) (m : SMap Bool) (hs : Good q s) :
    Good q { s with manager := s.boardManager, bifurcated := m } := good_upd (good_manager hs (legal_boardManager s))

theorem good_bootFunctions {q : List Instr} (s : State) (hs : Good q s) : Good q s.bootFunctions := by
  unfold State.bootFunctions
  refine good_board _ _ ?_
  with_reducible exact good_each _ _ _ (good_each _ _ _ hs (fun f t ht => good_modFn _ _ _ ht)) (fun f t ht => good_wr _ _ _ _ (good_modFn _ _ _ ht))

theorem good_bootDomains {q : List Instr} (s : State) (hs : Good q s) : Good q (State.bootDomains s) := by
  unfold State.bootDomains
  with_reducible repeat' first | assumption | intro _ | apply good_ite | apply good_id | apply good_foldl | apply good_mapGetD | apply good_each | apply good_when | apply good_wr | apply good_used | fail_if_no_progress apply good_upd | dsimp only | split

theorem good_bootImages {q : List Instr} (s : State) (hs : Good q s) : Good q (State.bootImages s) := by
  unfold State.bootImages
  with_reducible repeat' first | assumption | intro _ | apply good_ite | apply good_id | apply good_foldl | apply good_mapGetD | apply good_journalImage | apply good_writeBank | apply good_setBank | apply good_each | apply good_startSup | apply good_wr | fail_if_no_progress apply good_upd | dsimp only | split

/-- The canonical form of no memory at all. -/
theorem rising_nil {α : Type} : rising ([] : SMap α) := List.Pairwise.nil

/-- The registers that stay are listed once. -/
theorem rising_regsOf (s : State) (rs : List Reg) (h : rising s.regs) : rising (s.regsOf rs) := rising_filter _ _ h

theorem good_bare {q : List Instr} (s : State) (hs : Good q s) : Good q s.bare :=
  ⟨hs.1, (⟨by decide, by decide, by decide⟩ : DevTime.legal {}), (.inl rfl : managerLegal 0), (by decide : ([] : List FwLogEntry).length ≤ 256),
    (by decide : ([] : List FenceEntry).length ≤ 64), (by decide : ([] : List Mismatch).length ≤ 16), rising_nil, memCanon_nil, memCanon_nil, memCanon_nil, memCanon_nil⟩

theorem good_alwaysOn {q : List Instr} (s : State) (hs : Good q s) : Good q s.alwaysOn := by
  unfold State.alwaysOn
  exact good_upd (good_regs (good_bare s hs) (rising_regsOf s _ hs.2.2.2.2.2.2.1))

theorem good_warmKept {q : List Instr} (s : State) (hs : Good q s) : Good q s.warmKept := by
  unfold State.warmKept
  refine good_wr _ _ _ _ (good_wr _ _ _ _ (good_wr _ _ _ _ (good_put _ _ _ _ (good_put _ _ _ _ ?_))))
  exact good_upd (good_time (good_regs (good_alwaysOn s hs) (rising_regsOf s (alwaysOnRegs ++ warmRegs) hs.2.2.2.2.2.2.1)) hs.2.1)

theorem good_layRegion {q : List Instr} (s : State) (r : Nat) (base : Nat) (rows : Nat) (perStack : Nat) (order : Nat) (hs : Good q s) : Good q (State.layRegion s r base rows perStack order) := by
  unfold State.layRegion
  with_reducible repeat' first | assumption | intro _ | apply good_ite | apply good_id | apply good_foldl | apply good_mapGetD | apply good_put | fail_if_no_progress apply good_upd | dsimp only | split

theorem good_bootRegions {q : List Instr} (s : State) (hs : Good q s) : Good q (State.bootRegions s) := by
  unfold State.bootRegions
  with_reducible repeat' first | assumption | intro _ | apply good_ite | apply good_id | apply good_foldl | apply good_mapGetD | apply good_layRegion | fail_if_no_progress apply good_upd | dsimp only | split

theorem good_bootTraining {q : List Instr} (s : State) (io : BootIo) (hs : Good q s) : Good q (State.bootTraining s io) := by
  unfold State.bootTraining
  with_reducible repeat' first | assumption | intro _ | apply good_ite | apply good_id | apply good_foldl | apply good_mapGetD | apply good_each | apply good_wr | apply good_raise | apply good_remapLane | apply good_fenceUnit | fail_if_no_progress apply good_upd | dsimp only | split

theorem good_defaultBranch {q : List Instr} (s : State) (port : Nat) (hs : Good q s) : Good q (State.defaultBranch s port) := by
  unfold State.defaultBranch
  with_reducible repeat' first | assumption | intro _ | apply good_ite | apply good_id | apply good_foldl | apply good_mapGetD | apply good_writeNode | apply good_each | fail_if_no_progress apply good_upd | dsimp only | split

theorem good_bootTree {q : List Instr} (s : State) (hs : Good q s) : Good q (State.bootTree s) := by
  unfold State.bootTree
  with_reducible repeat' first | assumption | intro _ | apply good_ite | apply good_id | apply good_foldl | apply good_mapGetD | apply good_each | apply good_defaultBranch | fail_if_no_progress apply good_upd | dsimp only | split

theorem good_recordCheck {q : List Instr} (s : State) (region : Nat) (magic : Nat) (hs : Good q s) : Good q (State.recordCheck s region magic) := by
  unfold State.recordCheck
  with_reducible repeat' first | assumption | intro _ | apply good_ite | apply good_id | apply good_foldl | apply good_mapGetD | apply good_when | apply good_raise | fail_if_no_progress apply good_upd | dsimp only | split

theorem good_bootClock {q : List Instr} (s : State) (ok : Bool) (hs : Good q s) : Good q (State.bootClock s ok) := by
  unfold State.bootClock
  with_reducible repeat' first | assumption | intro _ | apply good_ite | apply good_id | apply good_foldl | apply good_mapGetD | apply good_wr | fail_if_no_progress apply good_upd | dsimp only | split

theorem good_recoveryUp {q : List Instr} (s : State) (hs : Good q s) : Good q s.recoveryUp := by
  unfold State.recoveryUp
  exact good_each _ _ _ (good_each _ _ _ (good_upd (good_manager hs (x := 4096) (.inr (.inr rfl))))
    (fun f t ht => good_setDoorbell _ _ _ (good_wr _ _ _ _ (good_modFn _ _ _ ht)))) (fun k t ht => good_sendReady _ _ ht)

theorem good_bootReports {q : List Instr} (s : State) (kind : Nat) (source : Nat) (slot : Nat) (hs : Good q s) : Good q (State.bootReports s kind source slot) := by
  unfold State.bootReports
  with_reducible repeat' first | assumption | intro _ | apply good_ite | apply good_id | apply good_foldl | apply good_mapGetD | apply good_when | apply good_raise | fail_if_no_progress apply good_upd | dsimp only | split

theorem good_bootRoutes {q : List Instr} (s : State) (hs : Good q s) : Good q (State.bootRoutes s) := by
  unfold State.bootRoutes
  with_reducible repeat' first | assumption | intro _ | apply good_ite | apply good_id | apply good_foldl | apply good_mapGetD | apply good_each | apply good_wr | fail_if_no_progress apply good_upd | dsimp only | split

theorem good_bootPll {q : List Instr} (s : State) (source : Nat) (hs : Good q s) : Good q (State.bootPll s source) := by
  unfold State.bootPll
  with_reducible repeat' first | assumption | intro _ | apply good_ite | apply good_id | apply good_foldl | apply good_mapGetD | apply good_when | apply good_raise | fail_if_no_progress apply good_upd | dsimp only | split

theorem good_bootSigner {q : List Instr} (s : State) (ok : Bool) (hs : Good q s) : Good q (State.bootSigner s ok) := by
  unfold State.bootSigner
  with_reducible repeat' first | assumption | intro _ | apply good_ite | apply good_id | apply good_foldl | apply good_mapGetD | apply good_wr | apply good_raise | apply good_fence | fail_if_no_progress apply good_upd | dsimp only | split

theorem good_bootRelease {q : List Instr} (s : State) (hs : Good q s) : Good q (State.bootRelease s) := by
  unfold State.bootRelease
  with_reducible repeat' first | assumption | intro _ | apply good_ite | apply good_id | apply good_foldl | apply good_mapGetD | apply good_put | apply good_wr | fail_if_no_progress apply good_upd | dsimp only | split

theorem good_bootHbm {q : List Instr} (s : State) (kind : Nat) (io : BootIo) (hs : Good q s) : Good q (State.bootHbm s kind io) := by
  unfold State.bootHbm
  with_reducible repeat' first | assumption | intro _ | apply good_ite | apply good_id | apply good_foldl | apply good_mapGetD | apply good_each | apply good_when | apply good_wr | apply good_bootTraining | apply good_bootRegions | fail_if_no_progress apply good_upd | dsimp only | split

theorem good_phaseSync {q : List Instr} (s : State) (hs : Good q s) : Good q (State.phaseSync s) := by
  unfold State.phaseSync
  with_reducible repeat' first | assumption | intro _ | apply good_ite | apply good_id | apply good_foldl | apply good_mapGetD | apply good_wr | fail_if_no_progress apply good_upd | dsimp only | split

theorem good_tempSync {q : List Instr} (s : State) (hs : Good q s) : Good q (State.tempSync s) := by
  unfold State.tempSync
  with_reducible repeat' first | assumption | intro _ | apply good_ite | apply good_id | apply good_foldl | apply good_mapGetD | apply good_wr | apply good_each | apply good_stackTemp | fail_if_no_progress apply good_upd | dsimp only | split

theorem good_bootPorts {q : List Instr} (s : State) (hs : Good q s) : Good q (State.bootPorts s) := by
  unfold State.bootPorts
  with_reducible repeat' first | assumption | intro _ | apply good_ite | apply good_id | apply good_foldl | apply good_mapGetD | apply good_recordCheck | apply good_each | apply good_put | apply good_putFields | apply good_groupApply | fail_if_no_progress apply good_upd | dsimp only | split

theorem good_bootCalibration {q : List Instr} (s : State) (hs : Good q s) : Good q (State.bootCalibration s) := by
  unfold State.bootCalibration
  with_reducible repeat' first | assumption | intro _ | apply good_ite | apply good_id | apply good_foldl | apply good_mapGetD | apply good_recordCheck | apply good_each | apply good_put | fail_if_no_progress apply good_upd | dsimp only | split

theorem good_bootOven {q : List Instr} (s : State) (hs : Good q s) : Good q (State.bootOven s) := by
  unfold State.bootOven
  with_reducible repeat' first | assumption | intro _ | apply good_ite | apply good_id | apply good_foldl | apply good_mapGetD | apply good_recordCheck | apply good_ovenWrite | fail_if_no_progress apply good_upd | dsimp only | split

theorem good_bootReady {q : List Instr} (s : State) (kind : Nat) (hs : Good q s) : Good q (State.bootReady s kind) := by
  unfold State.bootReady
  with_reducible repeat' first | assumption | intro _ | apply good_ite | apply good_id | apply good_foldl | apply good_mapGetD | apply good_each | apply good_setDoorbell | apply good_when | apply good_wr | apply good_raise | apply good_sendReady | fail_if_no_progress apply good_upd | dsimp only | split

theorem good_bootSweeps {q : List Instr} (s : State) (hs : Good q s) : Good q (State.bootSweeps s) := by
  unfold State.bootSweeps
  with_reducible repeat' first | assumption | intro _ | apply good_ite | apply good_id | apply good_foldl | apply good_mapGetD | apply good_each | apply good_ageEn | fail_if_no_progress apply good_upd | dsimp only | split

theorem good_firmwareUp {q : List Instr} (s : State) (kind : Nat) (source : Nat) (slot : Nat) (io : BootIo) (hs : Good q s) : Good q (State.firmwareUp s kind source slot io) := by
  unfold State.firmwareUp
  with_reducible repeat' first | assumption | intro _ | apply good_ite | apply good_id | apply good_foldl | apply good_mapGetD | apply good_bootReports | apply good_bootRoutes | apply good_bootFunctions | apply good_startChain | apply good_bootPll | apply good_journalFirmware | apply good_bootSigner | apply good_bootRelease | apply good_bootHbm | apply good_phaseSync | apply good_tempSync | apply good_bootPorts | apply good_bootDomains | apply good_bootCalibration | apply good_bootOven | apply good_wr | apply good_each | apply good_bootReady | apply good_bootSweeps | apply good_bootTree | apply good_bootImages | fail_if_no_progress apply good_upd | dsimp only | split

theorem good_boot {q : List Instr} (s : State) (kind : Nat) (source : Nat) (pref : Nat) (io : BootIo) (hs : Good q s) : Good q (State.boot s kind source pref io) := by
  unfold State.boot
  with_reducible repeat' first | assumption | intro _ | apply good_ite | apply good_id | apply good_foldl | apply good_mapGetD | apply good_wr | apply good_when | apply good_bootClock | apply good_recoveryUp | apply good_firmwareUp | fail_if_no_progress apply good_upd | dsimp only | split

theorem good_kept {q : List Instr} (s : State) (kind : Nat) (hs : Good q s) : Good q (State.kept s kind) := by
  unfold State.kept
  with_reducible repeat' first | assumption | intro _ | apply good_ite | apply good_id | apply good_foldl | apply good_mapGetD | apply good_bare | apply good_alwaysOn | apply good_warmKept | fail_if_no_progress apply good_upd | dsimp only | split

theorem good_setAlert {q : List Instr} (s : State) (on : Bool) (hs : Good q s) : Good q (State.setAlert s on) := by
  unfold State.setAlert
  with_reducible repeat' first | assumption | intro _ | apply good_ite | apply good_id | apply good_foldl | apply good_mapGetD | apply good_send | fail_if_no_progress apply good_upd | dsimp only | split

theorem good_setTrip {q : List Instr} (s : State) (on : Bool) (hs : Good q s) : Good q (State.setTrip s on) := by
  unfold State.setTrip
  with_reducible repeat' first | assumption | intro _ | apply good_ite | apply good_id | apply good_foldl | apply good_mapGetD | apply good_send | fail_if_no_progress apply good_upd | dsimp only | split

theorem good_resetBoot {q : List Instr} (s : State) (kind : Nat) (source : Nat) (pref : Nat) (io : BootIo) (hs : Good q s) : Good q (State.resetBoot s kind source pref io) := by
  unfold State.resetBoot
  with_reducible repeat' first | assumption | intro _ | apply good_ite | apply good_id | apply good_foldl | apply good_mapGetD | apply good_each | apply good_stompNow | apply good_boot | apply good_kept | apply good_setAlert | apply good_setTrip | fail_if_no_progress apply good_upd | dsimp only | split

theorem good_coldReset {q : List Instr} (s : State) (source : Nat) (io : BootIo) (hs : Good q s) : Good q (State.coldReset s source io) := by
  unfold State.coldReset
  with_reducible repeat' first | assumption | intro _ | apply good_ite | apply good_id | apply good_foldl | apply good_mapGetD | apply good_resetBoot | fail_if_no_progress apply good_upd | dsimp only | split

end Sys2Proof.Machine
end

