-- ==== Sys2Proof/Laws/KeepsPower.lean ====
section
/-! SUPPORT. The operations of Power.lean keep the queue and the invariant. -/

set_option linter.unusedTactic false
set_option linter.unreachableTactic false
set_option linter.unusedSimpArgs false
set_option linter.unusedVariables false

namespace Sys2Proof.Machine

theorem good_ungateCluster {q : List Instr} (s : State) (c : Nat) (hs : Good q s) : Good q (State.ungateCluster s c) := by
  unfold State.ungateCluster
  with_reducible repeat' first | assumption | intro _ | apply good_ite | apply good_id | apply good_foldl | apply good_mapGetD | apply good_domainOn | apply goodP_foldl | fail_if_no_progress apply good_upd | simp only [goodP_iff] | dsimp only | split

theorem good_sense {q : List Instr} (s : State) (x : PowerSample) (hs : Good q s) : Good q (State.sense s x) := by
  unfold State.sense
  with_reducible repeat' first | assumption | intro _ | apply good_ite | apply good_id | apply good_foldl | apply good_mapGetD | apply good_each | apply good_when | apply good_put | apply good_tempSync | apply good_wr | apply good_setAlert | apply goodP_foldl | fail_if_no_progress apply good_upd | simp only [goodP_iff] | dsimp only | split

theorem good_execRailFault {q : List Instr} (d : Nat) (s : State) (hs : Good q s) : GoodT q (execRailFault d s) := by
  unfold execRailFault
  with_reducible repeat' first | assumption | intro _ | apply goodT_next | apply goodT_ite | apply goodP_ite | apply good_ite | apply good_id | apply good_foldl | apply good_mapGetD | apply good_raise | apply good_wr | apply good_used | apply good_each | apply good_fenceUnit | apply good_fatalError | apply goodP_foldl | fail_if_no_progress apply good_upd | simp only [goodP_iff] | dsimp only | split

theorem good_execPwrVinHigh {q : List Instr} (mv : Nat) (s : State) (hs : Good q s) : GoodT q (execPwrVinHigh mv s) := by
  unfold execPwrVinHigh
  with_reducible repeat' first | assumption | intro _ | apply goodT_next | apply goodT_ite | apply goodP_ite | apply good_ite | apply good_id | apply good_foldl | apply good_mapGetD | apply good_raise | apply good_wr | apply goodP_foldl | fail_if_no_progress apply good_upd | simp only [goodP_iff] | dsimp only | split

theorem good_execDeepIdleExit {q : List Instr} (s : State) (hs : Good q s) : GoodT q (execDeepIdleExit s) := by
  unfold execDeepIdleExit
  with_reducible repeat' first | assumption | intro _ | apply goodT_next | apply goodT_ite | apply goodP_ite | apply good_ite | apply good_id | apply good_foldl | apply good_mapGetD | apply good_when | apply good_wr | apply good_each | apply good_oflWake | apply good_ungateCluster | apply good_raise | apply goodP_foldl | fail_if_no_progress apply good_upd | simp only [goodP_iff] | dsimp only | split

theorem good_execVinRestored {q : List Instr} (x : PowerSample) (io : BootIo) (s : State) (hs : Good q s) : GoodT q (execVinRestored x io s) := by
  unfold execVinRestored
  with_reducible repeat' first | assumption | intro _ | apply goodT_next | apply goodT_ite | apply goodP_ite | apply good_ite | apply good_id | apply good_foldl | apply good_mapGetD | apply good_sense | apply good_coldReset | apply goodP_foldl | fail_if_no_progress apply good_upd | simp only [goodP_iff] | dsimp only | split

theorem good_execVinAonLoss {q : List Instr} (mv : Nat) (s : State) (hs : Good q s) : GoodT q (execVinAonLoss mv s) := by
  unfold execVinAonLoss
  with_reducible repeat' first | assumption | intro _ | apply goodT_next | apply goodT_ite | apply goodP_ite | apply good_ite | apply good_id | apply good_foldl | apply good_mapGetD | apply good_send | apply good_setAlert | apply good_setTrip | apply good_bare | apply goodP_foldl | fail_if_no_progress apply good_upd | simp only [goodP_iff] | dsimp only | split

theorem good_gateCluster {q : List Instr} (s : State) (c : Nat) (hs : Good q s) : Good q (State.gateCluster s c) := by
  unfold State.gateCluster
  with_reducible repeat' first | assumption | intro _ | apply good_ite | apply good_id | apply good_foldl | apply good_mapGetD | apply good_domainOff | apply goodP_foldl | fail_if_no_progress apply good_upd | simp only [goodP_iff] | dsimp only | split

theorem good_execPwrSensorFault {q : List Instr} (sensor : Nat) (t : Int) (s : State) (hs : Good q s) : GoodT q (execPwrSensorFault sensor t s) := by
  unfold execPwrSensorFault
  with_reducible repeat' first | assumption | intro _ | apply goodT_next | apply goodT_ite | apply goodP_ite | apply good_ite | apply good_id | apply good_foldl | apply good_mapGetD | apply good_raise | apply good_tempSync | apply good_put | apply goodP_foldl | fail_if_no_progress apply good_upd | simp only [goodP_iff] | dsimp only | split

theorem good_execPowerOn {q : List Instr} (io : BootIo) (s : State) (hs : Good q s) : GoodT q (execPowerOn io s) := by
  unfold execPowerOn
  with_reducible repeat' first | assumption | intro _ | apply goodT_next | apply goodT_ite | apply goodP_ite | apply good_ite | apply good_id | apply good_foldl | apply good_mapGetD | apply good_send | apply good_resetBoot | apply goodP_foldl | fail_if_no_progress apply good_upd | simp only [goodP_iff] | dsimp only | split

theorem good_glbReset {q : List Instr} (s : State) (v : Nat) (io : BootIo) (hs : Good q s) : Good q (State.glbReset s v io) := by
  unfold State.glbReset
  with_reducible repeat' first | assumption | intro _ | apply good_ite | apply good_id | apply good_foldl | apply good_mapGetD | apply good_logFwWrite | apply good_wr | apply good_coldReset | apply good_resetBoot | apply goodP_foldl | fail_if_no_progress apply good_upd | simp only [goodP_iff] | dsimp only | split

theorem good_execGlbResetCold {q : List Instr} (fn : Nat) (v : Nat) (io : BootIo) (s : State) (hs : Good q s) : GoodT q (execGlbResetCold fn v io s) := by
  unfold execGlbResetCold
  with_reducible repeat' first | assumption | intro _ | apply goodT_next | apply goodT_ite | apply goodP_ite | apply good_ite | apply good_id | apply good_foldl | apply good_mapGetD | apply good_asManager | apply good_glbReset | apply goodP_foldl | fail_if_no_progress apply good_upd | simp only [goodP_iff] | dsimp only | split

theorem good_execClusterUngate {q : List Instr} (c : Nat) (s : State) (hs : Good q s) : GoodT q (execClusterUngate c s) := by
  unfold execClusterUngate
  with_reducible repeat' first | assumption | intro _ | apply goodT_next | apply goodT_ite | apply goodP_ite | apply good_ite | apply good_id | apply good_foldl | apply good_mapGetD | apply good_ungateCluster | apply goodP_foldl | fail_if_no_progress apply good_upd | simp only [goodP_iff] | dsimp only | split

theorem good_clusterReset {q : List Instr} (s : State) (c : Nat) (failed : List Nat) (hs : Good q s) : Good q (State.clusterReset s c failed) := by
  unfold State.clusterReset
  with_reducible repeat' first | assumption | intro _ | apply good_ite | apply good_id | apply good_foldl | apply good_mapGetD | apply good_each | apply good_abortThread | apply good_freshThreads | apply good_copyBanks | apply good_fenceUnit | apply good_unfence | apply good_wr | apply good_restoreEngine | apply good_when | apply good_startSup | apply goodP_foldl | fail_if_no_progress apply good_upd | simp only [goodP_iff] | dsimp only | split

theorem good_glbResetCluster {q : List Instr} (s : State) (v : Nat) (failed : List Nat) (hs : Good q s) : Good q (State.glbResetCluster s v failed) := by
  unfold State.glbResetCluster
  with_reducible repeat' first | assumption | intro _ | apply good_ite | apply good_id | apply good_foldl | apply good_mapGetD | apply good_wr | apply good_clusterReset | apply goodP_foldl | fail_if_no_progress apply good_upd | simp only [goodP_iff] | dsimp only | split

theorem good_setLevel {q : List Instr} (s : State) (n : Nat) (hs : Good q s) : Good q (State.setLevel s n) := by
  unfold State.setLevel
  with_reducible repeat' first | assumption | intro _ | apply good_ite | apply good_id | apply good_foldl | apply good_mapGetD | apply good_wr | apply goodP_foldl | fail_if_no_progress apply good_upd | simp only [goodP_iff] | dsimp only | split

theorem good_execThrottleFall {q : List Instr} (x : PowerSample) (s : State) (hs : Good q s) : GoodT q (execThrottleFall x s) := by
  unfold execThrottleFall
  with_reducible repeat' first | assumption | intro _ | apply goodT_next | apply goodT_ite | apply goodP_ite | apply good_ite | apply good_id | apply good_foldl | apply good_mapGetD | apply good_sense | apply good_when | apply good_setLevel | apply good_raise | apply goodP_foldl | fail_if_no_progress apply good_upd | simp only [goodP_iff] | dsimp only | split

theorem good_execGlbResetWarm {q : List Instr} (fn : Nat) (v : Nat) (io : BootIo) (s : State) (hs : Good q s) : GoodT q (execGlbResetWarm fn v io s) := by
  unfold execGlbResetWarm
  with_reducible repeat' first | assumption | intro _ | apply goodT_next | apply goodT_ite | apply goodP_ite | apply good_ite | apply good_id | apply good_foldl | apply good_mapGetD | apply good_asManager | apply good_glbReset | apply goodP_foldl | fail_if_no_progress apply good_upd | simp only [goodP_iff] | dsimp only | split

theorem good_deepGate {q : List Instr} (s : State) (hs : Good q s) : Good q (State.deepGate s) := by
  unfold State.deepGate
  with_reducible repeat' first | assumption | intro _ | apply good_ite | apply good_id | apply good_foldl | apply good_mapGetD | apply good_each | apply good_when | apply good_gateCluster | apply goodP_foldl | fail_if_no_progress apply good_upd | simp only [goodP_iff] | dsimp only | split

theorem good_execCorePllTimeout {q : List Instr} (s : State) (hs : Good q s) : GoodT q (execCorePllTimeout s) := by
  unfold execCorePllTimeout
  with_reducible repeat' first | assumption | intro _ | apply goodT_next | apply goodT_ite | apply goodP_ite | apply good_ite | apply good_id | apply good_foldl | apply good_mapGetD | apply good_fatalError | apply good_used | apply goodP_foldl | fail_if_no_progress apply good_upd | simp only [goodP_iff] | dsimp only | split

theorem good_execGlbResetCluster {q : List Instr} (fn : Nat) (v : Nat) (failed : List Nat) (s : State) (hs : Good q s) : GoodT q (execGlbResetCluster fn v failed s) := by
  unfold execGlbResetCluster
  with_reducible repeat' first | assumption | intro _ | apply goodT_next | apply goodT_ite | apply goodP_ite | apply good_ite | apply good_id | apply good_foldl | apply good_mapGetD | apply good_asManager | apply good_glbResetCluster | apply goodP_foldl | fail_if_no_progress apply good_upd | simp only [goodP_iff] | dsimp only | split

theorem good_execCorePllRelock {q : List Instr} (s : State) (hs : Good q s) : GoodT q (execCorePllRelock s) := by
  unfold execCorePllRelock
  with_reducible repeat' first | assumption | intro _ | apply goodT_next | apply goodT_ite | apply goodP_ite | apply good_ite | apply good_id | apply good_foldl | apply good_mapGetD | apply goodP_foldl | fail_if_no_progress apply good_upd | simp only [goodP_iff] | dsimp only | split

theorem good_execDeepIdleEnter {q : List Instr} (s : State) (hs : Good q s) : GoodT q (execDeepIdleEnter s) := by
  unfold execDeepIdleEnter
  with_reducible repeat' first | assumption | intro _ | apply goodT_next | apply goodT_ite | apply goodP_ite | apply good_ite | apply good_id | apply good_foldl | apply good_mapGetD | apply good_each | apply good_wr | apply good_domainOff | apply good_when | apply good_deepGate | apply good_raise | apply goodP_foldl | fail_if_no_progress apply good_upd | simp only [goodP_iff] | dsimp only | split

theorem good_shutDown {q : List Instr} (s : State) (cause : Nat) (p : Power) (hs : Good q s) : Good q (State.shutDown s cause p) := by
  unfold State.shutDown
  with_reducible repeat' first | assumption | intro _ | apply good_ite | apply good_id | apply good_foldl | apply good_mapGetD | apply good_wr | apply good_alwaysOn | apply good_setAlert | apply good_setTrip | apply goodP_foldl | fail_if_no_progress apply good_upd | simp only [goodP_iff] | dsimp only | split

theorem good_execVinLoss {q : List Instr} (mv : Nat) (s : State) (hs : Good q s) : GoodT q (execVinLoss mv s) := by
  unfold execVinLoss
  with_reducible repeat' first | assumption | intro _ | apply goodT_next | apply goodT_ite | apply goodP_ite | apply good_ite | apply good_id | apply good_foldl | apply good_mapGetD | apply good_shutDown | apply good_wr | apply goodP_foldl | fail_if_no_progress apply good_upd | simp only [goodP_iff] | dsimp only | split

theorem good_execColdRstN {q : List Instr} (ns : Nat) (x : PowerSample) (io : BootIo) (s : State) (hs : Good q s) : GoodT q (execColdRstN ns x io s) := by
  unfold execColdRstN
  with_reducible repeat' first | assumption | intro _ | apply goodT_next | apply goodT_ite | apply goodP_ite | apply good_ite | apply good_id | apply good_foldl | apply good_mapGetD | apply good_sense | apply good_coldReset | apply goodP_foldl | fail_if_no_progress apply good_upd | simp only [goodP_iff] | dsimp only | split

theorem good_execPhaseFault {q : List Instr} (n : Nat) (s : State) (hs : Good q s) : GoodT q (execPhaseFault n s) := by
  unfold execPhaseFault
  with_reducible repeat' first | assumption | intro _ | apply goodT_next | apply goodT_ite | apply goodP_ite | apply good_ite | apply good_id | apply good_foldl | apply good_mapGetD | apply good_raise | apply good_phaseSync | apply goodP_foldl | fail_if_no_progress apply good_upd | simp only [goodP_iff] | dsimp only | split

theorem good_execFatalResetTimeout {q : List Instr} (io : BootIo) (s : State) (hs : Good q s) : GoodT q (execFatalResetTimeout io s) := by
  unfold execFatalResetTimeout
  with_reducible repeat' first | assumption | intro _ | apply goodT_next | apply goodT_ite | apply goodP_ite | apply good_ite | apply good_id | apply good_foldl | apply good_mapGetD | apply good_coldReset | apply good_resetBoot | apply goodP_foldl | fail_if_no_progress apply good_upd | simp only [goodP_iff] | dsimp only | split

theorem good_execPwrVinAonLow {q : List Instr} (mv : Nat) (s : State) (hs : Good q s) : GoodT q (execPwrVinAonLow mv s) := by
  unfold execPwrVinAonLow
  with_reducible repeat' first | assumption | intro _ | apply goodT_next | apply goodT_ite | apply goodP_ite | apply good_ite | apply good_id | apply good_foldl | apply good_mapGetD | apply good_raise | apply good_wr | apply goodP_foldl | fail_if_no_progress apply good_upd | simp only [goodP_iff] | dsimp only | split

theorem good_execTjCrit {q : List Instr} (x : PowerSample) (s : State) (hs : Good q s) : GoodT q (execTjCrit x s) := by
  unfold execTjCrit
  with_reducible repeat' first | assumption | intro _ | apply goodT_next | apply goodT_ite | apply goodP_ite | apply good_ite | apply good_id | apply good_foldl | apply good_mapGetD | apply good_sense | apply good_raise | apply goodP_foldl | fail_if_no_progress apply good_upd | simp only [goodP_iff] | dsimp only | split

theorem good_execVinOvercurrent {q : List Instr} (ca : Nat) (ns : Nat) (s : State) (hs : Good q s) : GoodT q (execVinOvercurrent ca ns s) := by
  unfold execVinOvercurrent
  with_reducible repeat' first | assumption | intro _ | apply goodT_next | apply goodT_ite | apply goodP_ite | apply good_ite | apply good_id | apply good_foldl | apply good_mapGetD | apply good_shutDown | apply good_wr | apply goodP_foldl | fail_if_no_progress apply good_upd | simp only [goodP_iff] | dsimp only | split

theorem good_execBootWatchdog {q : List Instr} (io : BootIo) (s : State) (hs : Good q s) : GoodT q (execBootWatchdog io s) := by
  unfold execBootWatchdog
  with_reducible repeat' first | assumption | intro _ | apply goodT_next | apply goodT_ite | apply goodP_ite | apply good_ite | apply good_id | apply good_foldl | apply good_mapGetD | apply good_resetBoot | apply goodP_foldl | fail_if_no_progress apply good_upd | simp only [goodP_iff] | dsimp only | split

theorem good_execThrottleRise {q : List Instr} (x : PowerSample) (s : State) (hs : Good q s) : GoodT q (execThrottleRise x s) := by
  unfold execThrottleRise
  with_reducible repeat' first | assumption | intro _ | apply goodT_next | apply goodT_ite | apply goodP_ite | apply good_ite | apply good_id | apply good_foldl | apply good_mapGetD | apply good_sense | apply good_when | apply good_setLevel | apply good_raise | apply goodP_foldl | fail_if_no_progress apply good_upd | simp only [goodP_iff] | dsimp only | split

theorem good_execThermalTrip {q : List Instr} (x : PowerSample) (s : State) (hs : Good q s) : GoodT q (execThermalTrip x s) := by
  unfold execThermalTrip
  with_reducible repeat' first | assumption | intro _ | apply goodT_next | apply goodT_ite | apply goodP_ite | apply good_ite | apply good_id | apply good_foldl | apply good_mapGetD | apply good_shutDown | apply good_sense | apply goodP_foldl | fail_if_no_progress apply good_upd | simp only [goodP_iff] | dsimp only | split

theorem good_execPwrVinLow {q : List Instr} (mv : Nat) (s : State) (hs : Good q s) : GoodT q (execPwrVinLow mv s) := by
  unfold execPwrVinLow
  with_reducible repeat' first | assumption | intro _ | apply goodT_next | apply goodT_ite | apply goodP_ite | apply good_ite | apply good_id | apply good_foldl | apply good_mapGetD | apply good_raise | apply good_wr | apply goodP_foldl | fail_if_no_progress apply good_upd | simp only [goodP_iff] | dsimp only | split

theorem good_pwrCfg {q : List Instr} (s : State) (v : Nat) (hs : Good q s) : Good q (State.pwrCfg s v) := by
  unfold State.pwrCfg
  with_reducible repeat' first | assumption | intro _ | apply good_ite | apply good_id | apply good_foldl | apply good_mapGetD | apply good_putFields | apply good_each | apply good_ungateCluster | apply goodP_foldl | fail_if_no_progress apply good_upd | simp only [goodP_iff] | dsimp only | split

theorem good_execClusterGate {q : List Instr} (c : Nat) (s : State) (hs : Good q s) : GoodT q (execClusterGate c s) := by
  unfold execClusterGate
  with_reducible repeat' first | assumption | intro _ | apply goodT_next | apply goodT_ite | apply goodP_ite | apply good_ite | apply good_id | apply good_foldl | apply good_mapGetD | apply good_gateCluster | apply goodP_foldl | fail_if_no_progress apply good_upd | simp only [goodP_iff] | dsimp only | split

theorem good_execPwrTjHigh {q : List Instr} (x : PowerSample) (s : State) (hs : Good q s) : GoodT q (execPwrTjHigh x s) := by
  unfold execPwrTjHigh
  with_reducible repeat' first | assumption | intro _ | apply goodT_next | apply goodT_ite | apply goodP_ite | apply good_ite | apply good_id | apply good_foldl | apply good_mapGetD | apply good_sense | apply good_raise | apply good_setAlert | apply goodP_foldl | fail_if_no_progress apply good_upd | simp only [goodP_iff] | dsimp only | split

theorem good_execCorePllUnlock {q : List Instr} (s : State) (hs : Good q s) : GoodT q (execCorePllUnlock s) := by
  unfold execCorePllUnlock
  with_reducible repeat' first | assumption | intro _ | apply goodT_next | apply goodT_ite | apply goodP_ite | apply good_ite | apply good_id | apply good_foldl | apply good_mapGetD | apply good_raise | apply goodP_foldl | fail_if_no_progress apply good_upd | simp only [goodP_iff] | dsimp only | split

end Sys2Proof.Machine
end

