-- ==== Sys2Proof/Laws/KeepsMac.lean ====
section
/-! SUPPORT. The operations of Mac.lean keep the queue and the invariant. -/

set_option linter.unusedTactic false
set_option linter.unreachableTactic false
set_option linter.unusedSimpArgs false
set_option linter.unusedVariables false

namespace Sys2Proof.Machine

theorem good_rxKey {q : List Instr} (s : State) (port : Nat) (hs : Good q s) : GoodP q (State.rxKey s port) := by
  unfold State.rxKey
  with_reducible repeat' first | assumption | intro _ | apply goodP_ite | apply good_ite | apply good_id | apply good_foldl | apply good_mapGetD | fail_if_no_progress apply good_upd | simp only [goodP_iff] | dsimp only | split

theorem good_rxControl {q : List Instr} (s : State) (port : Nat) (hs : Good q s) : Good q (State.rxControl s port) := by
  unfold State.rxControl
  with_reducible repeat' first | assumption | intro _ | apply good_ite | apply good_id | apply good_foldl | apply good_mapGetD | apply good_countRxOk | apply good_countRxAll | apply good_rxKey | fail_if_no_progress apply good_upd | simp only [goodP_iff] | apply goodP_fst | (apply goodP_elim; assumption) | dsimp only | split

theorem good_countStomped {q : List Instr} (s : State) (port : Nat) (x : RxFrame) (hs : Good q s) : Good q (State.countStomped s port x) := by
  unfold State.countStomped
  with_reducible repeat' first | assumption | intro _ | apply good_ite | apply good_id | apply good_foldl | apply good_mapGetD | apply good_when | apply good_count | fail_if_no_progress apply good_upd | dsimp only | split

theorem good_admitRx {q : List Instr} (s : State) (port : Nat) (x : RxFrame) (keyLo : Nat) (bad : Bool) (hs : Good q s) : Good q (State.admitRx s port x keyLo bad) := by
  unfold State.admitRx
  with_reducible repeat' first | assumption | intro _ | apply good_ite | apply good_id | apply good_foldl | apply good_mapGetD | apply good_macsecRx | apply good_cellCheck | apply good_count | apply good_frerIdentify | apply good_discard | apply good_addPkt | fail_if_no_progress apply good_upd | simp only [goodP_iff] | apply goodP_fst | (apply goodP_elim; assumption) | dsimp only | split

theorem good_macRx {q : List Instr} (s : State) (port : Nat) (x : RxFrame) (keyLo : Nat) (hs : Good q s) : Good q (State.macRx s port x keyLo) := by
  unfold State.macRx
  with_reducible repeat' first | assumption | intro _ | apply good_ite | apply good_id | apply good_foldl | apply good_mapGetD | apply good_count | apply good_countRxAll | apply good_countStomped | apply good_admitRx | apply good_loseDeficits | apply good_macControl | apply good_countRxGood | fail_if_no_progress apply good_upd | dsimp only | split

theorem good_stampTx {q : List Instr} (s : State) (port : Nat) (p : Packet) (stamp : Nat) (hs : Good q s) : Good q (State.stampTx s port p stamp) := by
  unfold State.stampTx
  with_reducible repeat' first | assumption | intro _ | apply good_ite | apply good_id | apply good_foldl | apply good_mapGetD | apply good_takeStamp | fail_if_no_progress apply good_upd | dsimp only | split

theorem good_dropStuck {q : List Instr} (s : State) (port : Nat) (hs : Good q s) : Good q (State.dropStuck s port) := by
  unfold State.dropStuck
  with_reducible repeat' first | assumption | intro _ | apply good_ite | apply good_id | apply good_foldl | apply good_mapGetD | apply good_each | apply good_tmDrop | fail_if_no_progress apply good_upd | dsimp only | split

theorem good_departs {q : List Instr} (s : State) (port : Nat) (h : Nat) (f : Bytes) (stomp : Bool) (hs : Good q s) : Good q (State.departs s port h f stomp) := by
  unfold State.departs
  with_reducible repeat' first | assumption | intro _ | apply good_ite | apply good_id | apply good_foldl | apply good_mapGetD | apply good_stompOut | apply good_endPkt | apply good_countTx | apply good_wire | fail_if_no_progress apply good_upd | dsimp only | split

theorem good_ptpTx {q : List Instr} (s : State) (port : Nat) (p : Packet) (f : Bytes) (stamp : Nat) (hs : Good q s) : GoodP q (State.ptpTx s port p f stamp) := by
  unfold State.ptpTx
  with_reducible repeat' first | assumption | intro _ | apply goodP_ite | apply good_ite | apply good_id | apply good_foldl | apply good_mapGetD | apply good_ringCount | fail_if_no_progress apply good_upd | simp only [goodP_iff] | dsimp only | split

theorem good_execRxPfcFrame {q : List Instr} (port : Nat) (enable : Nat) (times : List Nat) (s : State) (hs : Good q s) : GoodT q (execRxPfcFrame port enable times s) := by
  unfold execRxPfcFrame
  with_reducible repeat' first | assumption | intro _ | apply goodT_next | apply goodT_ite | apply goodP_ite | apply good_ite | apply good_id | apply good_foldl | apply good_mapGetD | apply good_loseDeficits | apply good_rxPfc | apply good_rxControl | fail_if_no_progress apply good_upd | simp only [goodP_iff] | dsimp only | split

theorem good_carry {q : List Instr} (s : State) (port : Nat) (k : Nat) (x : TxNow) (stop : TxEnd) (hs : Good q s) : Good q (State.carry s port k x stop) := by
  unfold State.carry
  with_reducible repeat' first | assumption | intro _ | apply good_ite | apply good_id | apply good_foldl | apply good_mapGetD | apply good_each | apply good_departs | apply good_when | apply good_countBy | apply good_wire | fail_if_no_progress apply good_upd | dsimp only | split

theorem good_startTx {q : List Instr} (s : State) (port : Nat) (h : Nat) (p : Packet) (x : TxIo) (hs : Good q s) : Good q (State.startTx s port h p x) := by
  unfold State.startTx
  with_reducible repeat' first | assumption | intro _ | apply good_ite | apply good_id | apply good_foldl | apply good_mapGetD | apply good_dropLate | apply good_when | apply good_sentLate | apply good_ptpTx | apply good_cellCheck | apply good_count | apply good_macsecTx | apply good_dropPkt | apply good_used | apply good_carry | apply good_moveTo | apply good_stampTx | fail_if_no_progress apply good_upd | simp only [goodP_iff] | apply goodP_fst | (apply goodP_elim; assumption) | dsimp only | split

theorem good_execLaunchTimeStart {q : List Instr} (x : HeadStart) (s : State) (hs : Good q s) : GoodT q (execLaunchTimeStart x s) := by
  unfold execLaunchTimeStart
  with_reducible repeat' first | assumption | intro _ | apply goodT_next | apply goodT_ite | apply goodP_ite | apply good_ite | apply good_id | apply good_foldl | apply good_mapGetD | apply good_startTx | fail_if_no_progress apply good_upd | simp only [goodP_iff] | dsimp only | split

theorem good_countPcs {q : List Instr} (s : State) (port : Nat) (x : RxFrame) (hs : Good q s) : Good q (State.countPcs s port x) := by
  unfold State.countPcs
  with_reducible repeat' first | assumption | intro _ | apply good_ite | apply good_id | apply good_foldl | apply good_mapGetD | apply good_when | apply good_rateCount | apply good_countBy | apply good_raiseMs | fail_if_no_progress apply good_upd | dsimp only | split

theorem good_execRxPauseFrame {q : List Instr} (port : Nat) (time : Nat) (s : State) (hs : Good q s) : GoodT q (execRxPauseFrame port time s) := by
  unfold execRxPauseFrame
  with_reducible repeat' first | assumption | intro _ | apply goodT_next | apply goodT_ite | apply goodP_ite | apply good_ite | apply good_id | apply good_foldl | apply good_mapGetD | apply good_loseDeficits | apply good_rxPause | apply good_rxControl | fail_if_no_progress apply good_upd | simp only [goodP_iff] | dsimp only | split

theorem good_goOn {q : List Instr} (s : State) (port : Nat) (k : Nat) (x : TxIo) (hs : Good q s) : Good q (State.goOn s port k x) := by
  unfold State.goOn
  with_reducible repeat' first | assumption | intro _ | apply good_ite | apply good_id | apply good_foldl | apply good_mapGetD | apply good_when | apply good_cellCheck | apply good_carry | fail_if_no_progress apply good_upd | dsimp only | split

theorem good_execMacRxFrame {q : List Instr} (port : Nat) (x : RxFrame) (s : State) (hs : Good q s) : GoodT q (execMacRxFrame port x s) := by
  unfold execMacRxFrame
  with_reducible repeat' first | assumption | intro _ | apply goodT_next | apply goodT_ite | apply goodP_ite | apply good_ite | apply good_id | apply good_foldl | apply good_mapGetD | apply good_rxKey | apply good_countPcs | apply good_countBy | apply good_count | apply good_macRx | apply good_when | fail_if_no_progress apply good_upd | simp only [goodP_iff] | apply goodP_fst | (apply goodP_elim; assumption) | dsimp only | split

theorem good_macTx {q : List Instr} (s : State) (port : Nat) (x : TxIo) (hs : Good q s) : Good q (State.macTx s port x) := by
  unfold State.macTx
  with_reducible repeat' first | assumption | intro _ | apply good_ite | apply good_id | apply good_foldl | apply good_mapGetD | apply good_goOn | apply good_dropPkt | apply good_count | apply good_dropStuck | apply good_startTx | fail_if_no_progress apply good_upd | simp only [goodP_iff] | dsimp only | split

theorem good_execMacTxFrame {q : List Instr} (port : Nat) (cells : TxCells) (phase : Nat) (stop : TxEnd) (s : State) (hs : Good q s) :
    GoodT q (execMacTxFrame port cells phase stop s) := by
  unfold execMacTxFrame
  apply goodT_next
  exact good_macTx s port _ hs

end Sys2Proof.Machine
end

