-- ==== Sys2Proof/Laws/KeepsConfigSpace.lean ====
section
/-! SUPPORT. The operations of ConfigSpace.lean keep the queue and the invariant. -/

set_option linter.unusedTactic false
set_option linter.unreachableTactic false
set_option linter.unusedSimpArgs false
set_option linter.unusedVariables false

namespace Sys2Proof.Machine

theorem good_commandWrite {q : List Instr} (s : State) (f : Nat) (v : Nat) (hs : Good q s) : Good q (State.commandWrite s f v) := by
  unfold State.commandWrite
  with_reducible repeat' first | assumption | intro _ | apply good_ite | apply good_id | apply good_foldl | apply good_mapGetD | apply good_modFn | apply good_Step_after | apply good_execBmeSet | apply good_execBmeClear | fail_if_no_progress apply good_upd | (apply goodT_elim; assumption) | (apply goodT_elim rfl; assumption) | dsimp only | split

theorem good_deviceWrite {q : List Instr} (s : State) (f : Nat) (v : Nat) (hs : Good q s) : Good q (State.deviceWrite s f v) := by
  unfold State.deviceWrite
  with_reducible repeat' first | assumption | intro _ | apply good_ite | apply good_id | apply good_foldl | apply good_mapGetD | apply good_when | apply good_modFn | apply good_Step_after | apply good_execFlrStart | fail_if_no_progress apply good_upd | (apply goodT_elim; assumption) | (apply goodT_elim rfl; assumption) | dsimp only | split

theorem good_atsWrite {q : List Instr} (s : State) (f : Nat) (on : Bool) (hs : Good q s) : Good q (State.atsWrite s f on) := by
  unfold State.atsWrite
  with_reducible repeat' first | assumption | intro _ | apply good_ite | apply good_id | apply good_foldl | apply good_mapGetD | apply good_modFn | apply good_atsDisable | fail_if_no_progress apply good_upd | dsimp only | split

theorem good_pasidWrite {q : List Instr} (s : State) (f : Nat) (on : Bool) (hs : Good q s) : Good q (State.pasidWrite s f on) := by
  unfold State.pasidWrite
  with_reducible repeat' first | assumption | intro _ | apply good_ite | apply good_id | apply good_foldl | apply good_mapGetD | apply good_modFn | apply good_pasidDisable | fail_if_no_progress apply good_upd | dsimp only | split

theorem good_capWrite {q : List Instr} (s : State) (f : Nat) (cap : Nat) (o : Nat) (v : Nat) (hs : Good q s) : Good q (State.capWrite s f cap o v) := by
  unfold State.capWrite
  with_reducible repeat' first | assumption | intro _ | apply good_ite | apply good_id | apply good_foldl | apply good_mapGetD | apply good_Step_after | apply good_execDStateChange | apply good_deviceWrite | apply good_msixWrite | apply good_modFn | apply good_execVfEnableWrite | apply good_raise | apply good_atsWrite | apply good_pasidWrite | fail_if_no_progress apply good_upd | (apply goodT_elim; assumption) | (apply goodT_elim rfl; assumption) | dsimp only | split

theorem good_cfgWordWrite {q : List Instr} (s : State) (f : Nat) (off : Nat) (v : Nat) (hs : Good q s) : Good q (State.cfgWordWrite s f off v) := by
  unfold State.cfgWordWrite
  with_reducible repeat' first | assumption | intro _ | apply good_ite | apply good_id | apply good_foldl | apply good_mapGetD | apply good_commandWrite | apply good_modFn | apply good_capWrite | fail_if_no_progress apply good_upd | dsimp only | split

theorem good_cfgRead {q : List Instr} (s : State) (f : Nat) (off : Nat) (size : Nat) (hs : Good q s) : Good q (State.cfgRead s f off size) := by
  unfold State.cfgRead
  with_reducible repeat' first | assumption | intro _ | apply good_ite | apply good_id | apply good_foldl | apply good_mapGetD | apply good_send | fail_if_no_progress apply good_upd | dsimp only | split

theorem good_cfgWrite {q : List Instr} (s : State) (f : Nat) (off : Nat) (size : Nat) (v : Nat) (hs : Good q s) : Good q (State.cfgWrite s f off size v) := by
  unfold State.cfgWrite
  with_reducible repeat' first | assumption | intro _ | apply good_ite | apply good_id | apply good_foldl | apply good_mapGetD | apply good_send | apply good_cfgWordWrite | fail_if_no_progress apply good_upd | dsimp only | split

end Sys2Proof.Machine
end

