-- ==== Sys2Proof/Laws/KeepsRegisters.lean ====
section
/-! SUPPORT. The operations of Registers.lean keep the queue and the invariant. -/

set_option linter.unusedTactic false
set_option linter.unreachableTactic false
set_option linter.unusedSimpArgs false
set_option linter.unusedVariables false

namespace Sys2Proof.Machine

theorem good_msixTable {q : List Instr} (s : State) (f : Nat) (vec : Nat) (k : Nat) (v : Nat) (hs : Good q s) : Good q (State.msixTable s f vec k v) := by
  unfold State.msixTable
  with_reducible repeat' first | assumption | intro _ | apply good_ite | apply good_id | apply good_foldl | apply good_mapGetD | apply good_msixWrite | fail_if_no_progress apply good_upd | dsimp only | split

theorem good_setLatch {q : List Instr} (s : State) (fn : Nat) (addr : Nat) (v : Option Nat) (hs : Good q s) : Good q (State.setLatch s fn addr v) := by
  unfold State.setLatch
  with_reducible repeat' first | assumption | intro _ | apply good_ite | apply good_id | apply good_foldl | apply good_mapGetD | fail_if_no_progress apply good_upd | dsimp only | split

theorem good_plainWrite {q : List Instr} (s : State) (r : Reg) (i : Nat) (w : Width) (v : Nat) (hs : Good q s) : Good q (State.plainWrite s r i w v) := by
  unfold State.plainWrite
  with_reducible repeat' first | assumption | intro _ | apply good_ite | apply good_id | apply good_foldl | apply good_mapGetD | apply good_each | apply good_wr | fail_if_no_progress apply good_upd | dsimp only | split

theorem good_portWrite {q : List Instr} (s : State) (r : Reg) (i : Nat) (off : Nat) (v : Nat) (hs : Good q s) : Good q (State.portWrite s r i off v) := by
  unfold State.portWrite
  with_reducible repeat' first | assumption | intro _ | apply good_ite | apply good_id | apply good_foldl | apply good_mapGetD | apply good_when | apply good_groupApply | apply good_prtCtrlWrite | apply good_preemptWrite | apply good_fcDrop | apply good_plainWrite | apply good_logFwWrite | fail_if_no_progress apply good_upd | dsimp only | split

theorem good_pageWrite {q : List Instr} (s : State) (f : Nat) (r : Reg) (i : Nat) (v : Nat) (hs : Good q s) : Good q (State.pageWrite s f r i v) := by
  unfold State.pageWrite
  with_reducible repeat' first | assumption | intro _ | apply good_ite | apply good_id | apply good_foldl | apply good_mapGetD | apply good_mbxCmd | apply good_put | apply good_dbToFw | apply good_dbW1c | apply good_dbMask | apply good_evtPendW1c | apply good_evtFnW1c | apply good_plainWrite | fail_if_no_progress apply good_upd | dsimp only | split

theorem good_timeWrite {q : List Instr} (s : State) (r : Reg) (i : Nat) (w : Width) (off : Nat) (v : Nat) (hs : Good q s) : Good q (State.timeWrite s r i w off v) := by
  unfold State.timeWrite
  with_reducible repeat' first | assumption | intro _ | apply good_ite | apply good_id | apply good_foldl | apply good_mapGetD | apply good_setOffset | apply good_logFwWrite | apply good_plainWrite | apply good_stepCtrlWrite | apply good_slewWrite | apply good_setSlewRate | apply good_setBoardDly | apply good_setRef | apply good_ovenCtrl | apply good_setEfc | fail_if_no_progress apply good_upd | dsimp only | split

theorem good_copyWrite {q : List Instr} (s : State) (r : Reg) (i : Nat) (w : Width) (off : Nat) (v : Nat) (hs : Good q s) : Good q (State.copyWrite s r i w off v) := by
  unfold State.copyWrite
  with_reducible repeat' first | assumption | intro _ | apply good_ite | apply good_id | apply good_foldl | apply good_mapGetD | apply good_cpyCfg | apply good_cpyCtrl | apply good_cpyIdleWrite | apply good_plainWrite | fail_if_no_progress apply good_upd | dsimp only | split

theorem good_regWrite {q : List Instr} (s : State) (r : Reg) (i : Nat) (w : Width) (off : Nat) (v : Nat) (hs : Good q s) : Good q (State.regWrite s r i w off v) := by
  unfold State.regWrite
  with_reducible repeat' first | assumption | intro _ | apply good_ite | apply good_id | apply good_foldl | apply good_mapGetD | apply good_logFwWrite | apply good_portWrite | apply good_timeWrite | apply good_copyWrite | apply good_ownerWrite | apply good_l2CfgWrite | apply good_l2ReadCmd | apply good_flowCfgWrite | apply good_plainWrite | apply good_nodeCmd | apply good_obsCfg | apply good_relDevice | apply good_relCfg | apply good_jnlBase | apply good_jnlCtrl | apply good_jnlCons | apply good_mmPop | apply good_migCons | apply good_fencePop | apply good_pwrCfg | fail_if_no_progress apply good_upd | dsimp only | split

theorem good_rcClear {q : List Instr} (s : State) (r : Reg) (i : Nat) (hs : Good q s) : Good q (State.rcClear s r i) := by
  unfold State.rcClear
  with_reducible repeat' first | assumption | intro _ | apply good_ite | apply good_id | apply good_foldl | apply good_mapGetD | apply good_each | apply good_wr | fail_if_no_progress apply good_upd | dsimp only | split

theorem good_upToDate {q : List Instr} (s : State) (r : Reg) (i : Nat) (hs : Good q s) : Good q (State.upToDate s r i) := by
  unfold State.upToDate
  with_reducible repeat' first | assumption | intro _ | apply good_ite | apply good_id | apply good_foldl | apply good_mapGetD | apply good_when | apply good_pausedSync | fail_if_no_progress apply good_upd | dsimp only | split

theorem good_lowRead {q : List Instr} (s : State) (fn : Nat) (r : Reg) (i off : Nat) (hs : Good q s) : Good q (s.lowRead fn r i off).2 := by
  unfold State.lowRead
  split
  · exact good_setLatch _ _ _ _ (good_setLatch _ _ _ _ (good_setLatch _ _ _ _ hs))
  · split
    · exact good_setLatch _ _ _ _ hs
    · exact good_setLatch _ _ _ _ hs
  · exact good_rcClear _ _ _ (good_setLatch _ _ _ _ hs)

theorem good_highRead {q : List Instr} (s : State) (fn : Nat) (r : Reg) (i off : Nat) (hs : Good q s) : Good q (s.highRead fn r i off).2 := by
  unfold State.highRead
  split
  · exact good_setLatch _ _ _ _ hs
  · exact hs

theorem good_wordRead {q : List Instr} (s : State) (fn off : Nat) (hs : Good q s) : Good q (s.wordRead fn off).2 := by
  unfold State.wordRead
  split
  · split
    · exact good_rcClear _ _ _ (good_upToDate _ _ _ hs)
    · split
      · exact good_lowRead _ _ _ _ _ (good_upToDate _ _ _ hs)
      · exact good_highRead _ _ _ _ _ (good_upToDate _ _ _ hs)
  · exact hs

theorem good_bar2Read {q : List Instr} (s : State) (fn off size : Nat) (hs : Good q s) : Good q (s.bar2Read fn off size).2 := by
  have two : Good q ((s.wordRead fn off).2.wordRead fn (off + 4)).2 := good_wordRead _ _ _ (good_wordRead _ _ _ hs)
  unfold State.bar2Read
  split
  · exact good_wordRead _ _ _ hs
  · split
    · split
      · split
        · exact good_rcClear _ _ _ (good_upToDate _ _ _ hs)
        · exact two
      · exact two
    · exact hs

theorem good_busRead {q : List Instr} (s : State) (fn : Nat) (place : RegPlace) (size : Nat) (hs : Good q s) :
    Good q (s.busRead fn place size) := by
  unfold State.busRead
  split
  · refine good_ite hs (good_ite ?_ ?_)
    · exact good_send _ _ (good_bar2Read _ _ _ _ hs)
    · exact good_send _ _ (good_asManager _ _ _ hs (fun t ht => ht))
  · exact good_ite hs (good_send _ _ hs)
  · exact good_cfgRead _ _ _ _ hs
  · exact good_send _ _ hs
  · exact good_send _ _ hs
  · exact good_send _ _ hs

theorem good_execRcRegisterRead {q : List Instr} (fn : Nat) (place : RegPlace) (size : Nat) (s : State) (hs : Good q s) : GoodT q (execRcRegisterRead fn place size s) := by
  unfold execRcRegisterRead
  with_reducible repeat' first | assumption | intro _ | apply goodT_next | apply goodT_ite | apply goodP_ite | apply good_ite | apply good_id | apply good_foldl | apply good_mapGetD | apply good_busRead | fail_if_no_progress apply good_upd | simp only [goodP_iff] | dsimp only | split

theorem good_bar0Word {q : List Instr} (s : State) (f : Nat) (off : Nat) (v : Nat) (hs : Good q s) : Good q (State.bar0Word s f off v) := by
  unfold State.bar0Word
  with_reducible repeat' first | assumption | intro _ | apply good_ite | apply good_id | apply good_foldl | apply good_mapGetD | apply good_pageWrite | apply good_msixTable | fail_if_no_progress apply good_upd | dsimp only | split

theorem good_wordWrite {q : List Instr} (s : State) (off : Nat) (v : Nat) (hs : Good q s) : Good q (State.wordWrite s off v) := by
  unfold State.wordWrite
  with_reducible repeat' first | assumption | intro _ | apply good_ite | apply good_id | apply good_foldl | apply good_mapGetD | apply good_regWrite | apply good_debugWrite | apply good_when | apply good_logFwWrite | fail_if_no_progress apply good_upd | dsimp only | split

theorem good_bar2Write {q : List Instr} (s : State) (off : Nat) (size : Nat) (v : Nat) (hs : Good q s) : Good q (State.bar2Write s off size v) := by
  unfold State.bar2Write
  with_reducible repeat' first | assumption | intro _ | apply good_ite | apply good_id | apply good_foldl | apply good_mapGetD | apply good_wordWrite | apply good_regWrite | apply good_debugWrite | fail_if_no_progress apply good_upd | dsimp only | split

theorem good_pageDoorbell {q : List Instr} (s : State) (f : Nat) (off : Nat) (size : Nat) (v : Nat) (hs : Good q s) : Good q (State.pageDoorbell s f off size v) := by
  unfold State.pageDoorbell
  with_reducible repeat' first | assumption | intro _ | apply good_ite | apply good_id | apply good_foldl | apply good_mapGetD | apply good_Step_after | apply good_execQmSqDb | apply good_execQmCqDb | apply good_execPushSlotWrite | fail_if_no_progress apply good_upd | (apply goodT_elim; assumption) | (apply goodT_elim rfl; assumption) | dsimp only | split

theorem good_bar0Write {q : List Instr} (s : State) (f : Nat) (off : Nat) (size : Nat) (v : Nat) (hs : Good q s) : Good q (State.bar0Write s f off size v) := by
  unfold State.bar0Write
  with_reducible repeat' first | assumption | intro _ | apply good_ite | apply good_id | apply good_foldl | apply good_mapGetD | apply good_pageDoorbell | apply good_bar0Word | fail_if_no_progress apply good_upd | dsimp only | split

theorem good_execRegisterWrite {q : List Instr} (fn : Nat) (place : RegPlace) (size : Nat) (v : Nat) (s : State) (hs : Good q s) : GoodT q (execRegisterWrite fn place size v s) := by
  unfold execRegisterWrite
  with_reducible repeat' first | assumption | intro _ | apply goodT_next | apply goodT_ite | apply goodP_ite | apply good_ite | apply good_id | apply good_foldl | apply good_mapGetD | apply good_asManager | apply good_bar2Write | apply good_bar0Write | apply good_cfgWrite | apply good_atsWrite | apply good_pasidWrite | apply good_modFn | fail_if_no_progress apply good_upd | simp only [goodP_iff] | dsimp only | split

theorem good_execLowWordRead {q : List Instr} (fn : Nat) (off : Nat) (s : State) (hs : Good q s) : GoodT q (execLowWordRead fn off s) := by
  unfold execLowWordRead
  with_reducible repeat' first | assumption | intro _ | apply goodT_next | apply goodT_ite | apply goodP_ite | apply good_ite | apply good_id | apply good_foldl | apply good_mapGetD | apply good_busRead | fail_if_no_progress apply good_upd | simp only [goodP_iff] | dsimp only | split

end Sys2Proof.Machine
end

