-- ==== Sys2Proof/Laws/Micro.lean ====
section
/-! SUPPORT. What an ALU part does once its word's conditions hold. -/

namespace Sys2Proof.Machine

/-- A thread reads back changed; the others read as before. -/
theorem thread_modThread (s : State) (t u : Nat) (g : Thread → Thread) :
    (s.modThread t g).thread u = if t = u then g (s.thread t) else s.thread u := by
  simp only [State.thread, State.modThread, SMap.mod, SMap.get_set]

theorem thread_countBy (s : State) (r : Reg) (n k m t : Nat) : (s.countBy r n k m).thread t = s.thread t := (rfl)

/-- A change of status moves no address. -/
theorem memInRange_made {s : State} {t : Nat} {f : MemArgs} (h : s.memInRange t f = true) :
    (s.made t).memInRange t f = true := by
  have hr : (s.made t).regionSize t f.space = s.regionSize t f.space := by
    simp only [State.regionSize, State.bankOf, State.made, thread_modThread, if_true]; rfl
  have ha : (s.made t).memAddr t f = s.memAddr t f := by
    simp only [State.memAddr, State.made, thread_modThread, if_true]
  unfold State.memInRange at *
  rw [hr, ha]; exact h

theorem b2n_le (b : Bool) : b2n b ≤ 1 := by cases b <;> simp [b2n]

/-- The low four flags an operation sets are Z, N, C and V. -/
theorem aluFlags_low (op a b shift flags : Nat) : aluFlags op a b shift flags % 16 =
    nzcv (aluResult op a b shift flags) (aluCarry op a (shapeB b shift) flags) (aluOverflow op a (shapeB b shift) flags) := by
  simp only [aluFlags, nzcv]
  have h1 := b2n_le (aluResult op a b shift flags == 0)
  have h2 := b2n_le (bit (aluResult op a b shift flags) 63)
  have h3 := b2n_le (aluCarry op a (shapeB b shift) flags)
  have h4 := b2n_le (aluOverflow op a (shapeB b shift) flags)
  omega

theorem aluActs_of {op : Nat} {f : AluArgs} (h1 : 1 ≤ op) (h2 : op ≤ 0x17) (h : aluReserved op f = 0) : aluActs op f = true := by
  unfold aluReserved at h
  split at h
  · cases h
  · next hc => simp_all [aluActs]

/-- An ALU operation with a destination. -/
theorem aluCmd_ends {s : State} {t op : Nat} {f : AluArgs} (h : s.aluRuns t op f) (h1 : 1 ≤ op) (h2 : op ≤ 0x17)
    (hw : writesNothing op = false) (imm : Nat) (strict : Bool) :
    s.aluCmd t op f imm strict = s.aluEnds t op f
      (aluResult op (s.operand t imm 0 f.a) (s.operand t imm 1 f.b) f.shift (s.thread t).flags)
      (aluCarry op (s.operand t imm 0 f.a) (shapeB (s.operand t imm 1 f.b) f.shift) (s.thread t).flags)
      (aluOverflow op (s.operand t imm 0 f.a) (shapeB (s.operand t imm 1 f.b) f.shift) (s.thread t).flags) := by
  obtain ⟨hi, hp, hr⟩ := h
  simp [State.aluCmd, State.aluEnds, hi, hp, hr, State.aluValue, State.aluWrite, aluSpecial, State.ignored, hw,
    aluActs_of h1 h2 hr, aluFlags_low]

/-- A compare or a test. -/
theorem aluCmd_tests {s : State} {t op : Nat} {f : AluArgs} (h : s.aluRuns t op f) (h1 : 1 ≤ op) (h2 : op ≤ 0x17)
    (hw : writesNothing op = true) (imm : Nat) (strict : Bool) :
    s.aluCmd t op f imm strict = s.aluTests t op f
      (aluResult op (s.operand t imm 0 f.a) (s.operand t imm 1 f.b) f.shift (s.thread t).flags)
      (aluCarry op (s.operand t imm 0 f.a) (shapeB (s.operand t imm 1 f.b) f.shift) (s.thread t).flags)
      (aluOverflow op (s.operand t imm 0 f.a) (shapeB (s.operand t imm 1 f.b) f.shift) (s.thread t).flags) := by
  obtain ⟨hi, hp, hr⟩ := h
  simp [State.aluCmd, State.aluTests, hi, hp, hr, State.aluValue, State.aluWrite, aluSpecial, State.ignored, hw,
    aluActs_of h1 h2 hr, aluFlags_low, State.when, State.specials, lastWrite]

/-- The value, the carry and the overflow of SUB, CMP and SUBB. -/
theorem aluResult_sub (a b sh fl : Nat) : aluResult 3 a b sh fl = (a + W64 - shapeB b sh) % W64 := by
  have h (m : Nat) (e : W64 = m) : aluResult 3 a b sh fl = (a + m - shapeB b sh) % m := by unfold aluResult; simp only [e]
  exact h W64 rfl
theorem aluCarry_sub (a b fl : Nat) : aluCarry 3 a b fl = decide (b ≤ a) := rfl
theorem aluOverflow_sub (a b fl : Nat) : aluOverflow 3 a b fl = overflows (signed 64 a - signed 64 b) := rfl
theorem aluResult_cmp (a b sh fl : Nat) : aluResult 13 a b sh fl = (a + W64 - shapeB b sh) % W64 := by
  have h (m : Nat) (e : W64 = m) : aluResult 13 a b sh fl = (a + m - shapeB b sh) % m := by unfold aluResult; simp only [e]
  exact h W64 rfl
theorem aluCarry_cmp (a b fl : Nat) : aluCarry 13 a b fl = decide (b ≤ a) := rfl
theorem aluOverflow_cmp (a b fl : Nat) : aluOverflow 13 a b fl = overflows (signed 64 a - signed 64 b) := rfl
theorem aluResult_subb (a b sh fl : Nat) :
    aluResult 21 a b sh fl = (a + 2 * W64 - shapeB b sh - (1 - b2n (bit fl 2))) % W64 := by
  have h (m : Nat) (e : W64 = m) : aluResult 21 a b sh fl = (a + 2 * m - shapeB b sh - (1 - b2n (bit fl 2))) % m := by
    unfold aluResult; simp only [e]
  exact h W64 rfl
theorem aluCarry_subb (a b fl : Nat) : aluCarry 21 a b fl = decide (b ≤ a) := rfl
theorem aluOverflow_subb (a b fl : Nat) :
    aluOverflow 21 a b fl = overflows (signed 64 a - signed 64 b - (1 - b2n (bit fl 2) : Nat)) := rfl

/-- A MEM part within its region acts from the state in which its thread is READY. -/
theorem memCmd_runs {s : State} {t op : Nat} {f : MemArgs} (h : s.memRuns t op f) (strict : Bool) :
    s.memCmd t op f strict = (s.made t).memAct t op f false := by
  obtain ⟨h1, h2, -, h4, h5⟩ := h
  simp only [State.memCmd, h1, h2, h4, h5, State.ignored]; simp [State.made]

/-- A TBL part that its table serves does the same. -/
theorem tblCmd_runs {s : State} {t op : Nat} {f : TblArgs} (h : s.tblRuns t op f) (strict : Bool) :
    s.tblCmd t op f strict = (s.made t).tblAct t op f false := by
  obtain ⟨h1, h2, h3, -, h4⟩ := h
  have h7 : tblReserved op f = 0 := by simp [tblReserved, h3]
  have h8 : s.lookupCredit t op f = true := by simp [State.lookupCredit, h4]
  simp only [State.tblCmd, h1, h2, h7, h8, State.ignored]; simp [State.made]

/-! ### Words -/

/-- Counting corrected errors changes no thread. -/
theorem corrected_threads (s : State) (t k : Nat) : (s.corrected t k).threads = s.threads := (rfl)

theorem wordErrors_threads (s : State) (t w : Nat) (x : WordIo) : (s.wordErrors t w x).threads = s.threads := by
  have h : ∀ (u : State) (b : Bool) (k : Nat), (u.when b (fun v => v.corrected t k)).threads = u.threads := by
    intro u b k; cases b
    · rfl
    · exact corrected_threads u t k
  simp only [State.wordErrors, h]

theorem wordErrors_thread (s : State) (t w : Nat) (x : WordIo) (k : Nat) : (s.wordErrors t w x).thread k = s.thread k := by
  simp only [State.thread, wordErrors_threads]

/-- The word whose checks pass issues. -/
theorem seqRow_issues {s : State} {t op w pc : Nat} {x : WordIo} (h : s.wordIssues t op w pc) (hop : op < 10) (hc : x.csBad = false)
    (hr : x.regBad = false) : s.seqRow t op x = (s.atWord t w pc x).issueWord t w pc := by
  obtain ⟨h1, h2, h3, h4, h5, h6, h8, -⟩ := h
  have h7 : ¬10 ≤ op := by omega
  have e1 : (s.wordErrors t w x).thread t = s.thread t := wordErrors_thread s t w x t
  have e2 : (s.wordErrors t w x).lookupCredit t (wTblOp w) (wTbl w) = true := by
    simpa [State.lookupCredit, State.lookups, wordErrors_threads] using h8
  simp [State.seqRow, State.mayIssue, State.when, h1, h2, h3, h4, h5, h6, h7, hc, hr, e1, e2, State.atWord]

theorem atWord_thread (s : State) (t w pc : Nat) (x : WordIo) : (s.atWord t w pc x).thread t = { s.thread t with pc := pc } := by
  simp only [State.atWord, thread_modThread, if_true, wordErrors_thread]

/-- Without a fault or a wait of its SEQ operation it completes. -/
theorem issueWord_completes {s u : State} {t op w pc : Nat} {x : WordIo} (h : s.wordIssues t op w pc) (hu : u = s.atWord t w pc x)
    (h4 : op = 4 → (s.thread t).stack.length < 8) (h5 : op = 5 → (s.thread t).stack ≠ [])
    (h7 : op = 7 → (s.thread t).eventBits &&& wTarget w ≠ 0 ∧ u.supMoves t = false)
    (h8 : op = 8 → u.doneWaits t = false ∧ u.stale (u.thread t) = false) :
    u.issueWord t w pc = u.completeWord t w pc := by
  obtain ⟨-, -, -, hw, -, -, -, g1, g2, g3⟩ := h
  have ht : u.thread t = { s.thread t with pc := pc } := by rw [hu]; exact atWord_thread s t w pc x
  have e4 : ¬(wSeq w = 4 ∧ 8 ≤ (u.thread t).stack.length) := by
    rw [ht, hw]; rintro ⟨a, b⟩; have := h4 a; simp only at b; omega
  have e5 : ¬(wSeq w = 5 ∧ (u.thread t).stack = []) := by
    rw [ht, hw]; rintro ⟨a, b⟩; exact h5 a b
  have e7 : ¬(wSeq w = 7 ∧ (u.thread t).eventBits &&& wTarget w = 0) := by
    rw [ht, hw]; rintro ⟨a, b⟩; exact (h7 a).1 b
  have e7' : ¬(wSeq w = 7 ∧ u.supMoves t = true) := by
    rw [hw]; rintro ⟨a, b⟩; rw [(h7 a).2] at b; cases b
  have e8 : ¬(wSeq w = 8 ∧ u.doneWaits t = true) := by
    rw [hw]; rintro ⟨a, b⟩; rw [(h8 a).1] at b; cases b
  have e9 : ¬((wSeq w = 8 ∨ wCtl w 13 = true) ∧ u.stale (u.thread t) = true) := by
    rw [hw, g3]; rintro ⟨a | a, b⟩
    · rw [(h8 a).2] at b; cases b
    · cases a
  simp only [State.issueWord, g1, g2, e4, e5, e7, e7', e8, e9, if_false, Bool.false_and, Bool.false_eq_true]

/-- Waking leaves a thread that is READY. -/
theorem wake_thread (s : State) (k : Nat) (h : (s.thread k).st = .ready) : s.wake.thread k = s.thread k := by
  unfold State.wake State.each
  generalize (s.threads.filter (fun e => e.2.st == .stalled && !s.lacking e.1)).map (·.1) = l
  induction l generalizing s with
  | nil => rfl
  | cons a l ih =>
    have e : (s.modThread a (fun th => { th with st := .ready })).thread k = s.thread k := by
      rw [thread_modThread]
      split
      · next q => subst q; rw [← h]
      · rfl
    rw [List.foldl_cons, ih _ (by rw [e]; exact h), e]

/-- The thread after a completed word that neither ends its packet nor faults nor posts, unless it steps. -/
theorem completeWord_thread {u : State} {t w pc : Nat} (hop : wSeq w < 8) (hp : wCtl w 13 = false)
    (hs : (u.thread t).stepping = false) :
    ((u.completeWord t w pc).thread t).st = .ready ∧ ((u.completeWord t w pc).thread t).pc = u.nextPc t w pc ∧
      ∃ x, ((u.completeWord t w pc).thread t).stack = nextStack w pc x := by
  simp only [State.completeWord, hp, Bool.false_and, Bool.false_eq_true, if_false, State.when]
  split
  · omega
  · omega
  · have e : ∀ v : State, ((State.issued v t pc 1 (u.thread t).stepping).thread t).st = (v.thread t).st ∧
        ((State.issued v t pc 1 (u.thread t).stepping).thread t).pc = (v.thread t).pc ∧
        ((State.issued v t pc 1 (u.thread t).stepping).thread t).stack = (v.thread t).stack := by
      intro v
      simp only [State.issued, hs, State.when, thread_modThread, thread_countBy, if_true, Bool.false_eq_true, if_false, true_and]
    rw [wake_thread _ _ (by rw [(e _).1]; simp only [thread_modThread, if_true])]
    simp only [e, thread_modThread, if_true, true_and]
    exact ⟨_, rfl⟩

end Sys2Proof.Machine
end

