-- ==== Sys2Proof/Laws/State.lean ====
section
/-! SUPPORT. What the plainest updates of the state leave: every field but the one they write. -/

namespace Sys2Proof.Machine

variable (s : State)

section setRegLaws
variable (r : Reg) (i : Nat) (v : Word)
@[simp] theorem setReg_pending : (s.setReg r i v).pending = s.pending := (rfl)
@[simp] theorem setReg_now : (s.setReg r i v).now = s.now := (rfl)
@[simp] theorem setReg_out : (s.setReg r i v).out = s.out := (rfl)
@[simp] theorem setReg_free : (s.setReg r i v).free = s.free := (rfl)
@[simp] theorem setReg_latches : (s.setReg r i v).latches = s.latches := (rfl)
@[simp] theorem setReg_lastRaise : (s.setReg r i v).lastRaise = s.lastRaise := (rfl)
@[simp] theorem setReg_fns : (s.setReg r i v).fns = s.fns := (rfl)
@[simp] theorem setReg_msix : (s.setReg r i v).msix = s.msix := (rfl)
@[simp] theorem setReg_manager : (s.setReg r i v).manager = s.manager := (rfl)
@[simp] theorem setReg_journal : (s.setReg r i v).journal = s.journal := (rfl)
@[simp] theorem setReg_fenced : (s.setReg r i v).fenced = s.fenced := (rfl)
@[simp] theorem setReg_fenceLog : (s.setReg r i v).fenceLog = s.fenceLog := (rfl)
@[simp] theorem setReg_fwLog : (s.setReg r i v).fwLog = s.fwLog := (rfl)
@[simp] theorem setReg_fwLogLost : (s.setReg r i v).fwLogLost = s.fwLogLost := (rfl)
@[simp] theorem setReg_time : (s.setReg r i v).time = s.time := (rfl)
@[simp] theorem setReg_tsu : (s.setReg r i v).tsu = s.tsu := (rfl)
@[simp] theorem setReg_oven : (s.setReg r i v).oven = s.oven := (rfl)
@[simp] theorem setReg_holds : (s.setReg r i v).holds = s.holds := (rfl)
@[simp] theorem setReg_xoff : (s.setReg r i v).xoff = s.xoff := (rfl)
@[simp] theorem setReg_localFault : (s.setReg r i v).localFault = s.localFault := (rfl)
@[simp] theorem setReg_verify : (s.setReg r i v).verify = s.verify := (rfl)
@[simp] theorem setReg_rates : (s.setReg r i v).rates = s.rates := (rfl)
@[simp] theorem setReg_ncsi : (s.setReg r i v).ncsi = s.ncsi := (rfl)
@[simp] theorem setReg_pkts : (s.setReg r i v).pkts = s.pkts := (rfl)
@[simp] theorem setReg_nextPkt : (s.setReg r i v).nextPkt = s.nextPkt := (rfl)
@[simp] theorem setReg_txNow : (s.setReg r i v).txNow = s.txNow := (rfl)
@[simp] theorem setReg_discards : (s.setReg r i v).discards = s.discards := (rfl)
@[simp] theorem setReg_jobs : (s.setReg r i v).jobs = s.jobs := (rfl)
@[simp] theorem setReg_nextJob : (s.setReg r i v).nextJob = s.nextJob := (rfl)
@[simp] theorem setReg_ready : (s.setReg r i v).ready = s.ready := (rfl)
@[simp] theorem setReg_grdStates : (s.setReg r i v).grdStates = s.grdStates := (rfl)
@[simp] theorem setReg_grdRecog : (s.setReg r i v).grdRecog = s.grdRecog := (rfl)
@[simp] theorem setReg_grdStart : (s.setReg r i v).grdStart = s.grdStart := (rfl)
@[simp] theorem setReg_l2 : (s.setReg r i v).l2 = s.l2 := (rfl)
@[simp] theorem setReg_l2Flight : (s.setReg r i v).l2Flight = s.l2Flight := (rfl)
@[simp] theorem setReg_sweeps : (s.setReg r i v).sweeps = s.sweeps := (rfl)
@[simp] theorem setReg_flow : (s.setReg r i v).flow = s.flow := (rfl)
@[simp] theorem setReg_flowCache : (s.setReg r i v).flowCache = s.flowCache := (rfl)
@[simp] theorem setReg_lpm : (s.setReg r i v).lpm = s.lpm := (rfl)
@[simp] theorem setReg_threads : (s.setReg r i v).threads = s.threads := (rfl)
@[simp] theorem setReg_clusters : (s.setReg r i v).clusters = s.clusters := (rfl)
@[simp] theorem setReg_lastCluster : (s.setReg r i v).lastCluster = s.lastCluster := (rfl)
@[simp] theorem setReg_nextSeq : (s.setReg r i v).nextSeq = s.nextSeq := (rfl)
@[simp] theorem setReg_order : (s.setReg r i v).order = s.order := (rfl)
@[simp] theorem setReg_barista : (s.setReg r i v).barista = s.barista := (rfl)
@[simp] theorem setReg_dispatchQ : (s.setReg r i v).dispatchQ = s.dispatchQ := (rfl)
@[simp] theorem setReg_chan : (s.setReg r i v).chan = s.chan := (rfl)
@[simp] theorem setReg_dropReasons : (s.setReg r i v).dropReasons = s.dropReasons := (rfl)
@[simp] theorem setReg_watch : (s.setReg r i v).watch = s.watch := (rfl)
@[simp] theorem setReg_cs : (s.setReg r i v).cs = s.cs := (rfl)
@[simp] theorem setReg_csBad : (s.setReg r i v).csBad = s.csBad := (rfl)
@[simp] theorem setReg_banks : (s.setReg r i v).banks = s.banks := (rfl)
@[simp] theorem setReg_nextRegion : (s.setReg r i v).nextRegion = s.nextRegion := (rfl)
@[simp] theorem setReg_localMem : (s.setReg r i v).localMem = s.localMem := (rfl)
@[simp] theorem setReg_tsram : (s.setReg r i v).tsram = s.tsram := (rfl)
@[simp] theorem setReg_hbmMem : (s.setReg r i v).hbmMem = s.hbmMem := (rfl)
@[simp] theorem setReg_espSas : (s.setReg r i v).espSas = s.espSas := (rfl)
@[simp] theorem setReg_sessions : (s.setReg r i v).sessions = s.sessions := (rfl)
@[simp] theorem setReg_macsec : (s.setReg r i v).macsec = s.macsec := (rfl)
@[simp] theorem setReg_places : (s.setReg r i v).places = s.places := (rfl)
@[simp] theorem setReg_oflNotes : (s.setReg r i v).oflNotes = s.oflNotes := (rfl)
@[simp] theorem setReg_outerId : (s.setReg r i v).outerId = s.outerId := (rfl)
@[simp] theorem setReg_nodes : (s.setReg r i v).nodes = s.nodes := (rfl)
@[simp] theorem setReg_mcast : (s.setReg r i v).mcast = s.mcast := (rfl)
@[simp] theorem setReg_obs : (s.setReg r i v).obs = s.obs := (rfl)
@[simp] theorem setReg_gclStaged : (s.setReg r i v).gclStaged = s.gclStaged := (rfl)
@[simp] theorem setReg_gclPending : (s.setReg r i v).gclPending = s.gclPending := (rfl)
@[simp] theorem setReg_groupsAdmin : (s.setReg r i v).groupsAdmin = s.groupsAdmin := (rfl)
@[simp] theorem setReg_groupsStaged : (s.setReg r i v).groupsStaged = s.groupsStaged := (rfl)
@[simp] theorem setReg_groupsOper : (s.setReg r i v).groupsOper = s.groupsOper := (rfl)
@[simp] theorem setReg_groupsOld : (s.setReg r i v).groupsOld = s.groupsOld := (rfl)
@[simp] theorem setReg_buckets : (s.setReg r i v).buckets = s.buckets := (rfl)
@[simp] theorem setReg_rxSeq : (s.setReg r i v).rxSeq = s.rxSeq := (rfl)
@[simp] theorem setReg_hostSeq : (s.setReg r i v).hostSeq = s.hostSeq := (rfl)
@[simp] theorem setReg_txSeq : (s.setReg r i v).txSeq = s.txSeq := (rfl)
@[simp] theorem setReg_stampFifo : (s.setReg r i v).stampFifo = s.stampFifo := (rfl)
@[simp] theorem setReg_stampLoss : (s.setReg r i v).stampLoss = s.stampLoss := (rfl)
@[simp] theorem setReg_stampRing : (s.setReg r i v).stampRing = s.stampRing := (rfl)
@[simp] theorem setReg_jrings : (s.setReg r i v).jrings = s.jrings := (rfl)
@[simp] theorem setReg_lastKey : (s.setReg r i v).lastKey = s.lastKey := (rfl)
@[simp] theorem setReg_mir : (s.setReg r i v).mir = s.mir := (rfl)
@[simp] theorem setReg_members : (s.setReg r i v).members = s.members := (rfl)
@[simp] theorem setReg_frer : (s.setReg r i v).frer = s.frer := (rfl)
@[simp] theorem setReg_mmLog : (s.setReg r i v).mmLog = s.mmLog := (rfl)
@[simp] theorem setReg_ats : (s.setReg r i v).ats = s.ats := (rfl)
@[simp] theorem setReg_xreqs : (s.setReg r i v).xreqs = s.xreqs := (rfl)
@[simp] theorem setReg_preqs : (s.setReg r i v).preqs = s.preqs := (rfl)
@[simp] theorem setReg_reads : (s.setReg r i v).reads = s.reads := (rfl)
@[simp] theorem setReg_nextReq : (s.setReg r i v).nextReq = s.nextReq := (rfl)
@[simp] theorem setReg_invals : (s.setReg r i v).invals = s.invals := (rfl)
@[simp] theorem setReg_migFilter : (s.setReg r i v).migFilter = s.migFilter := (rfl)
@[simp] theorem setReg_lateResponses : (s.setReg r i v).lateResponses = s.lateResponses := (rfl)
@[simp] theorem setReg_hlinks : (s.setReg r i v).hlinks = s.hlinks := (rfl)
@[simp] theorem setReg_perst : (s.setReg r i v).perst = s.perst := (rfl)
@[simp] theorem setReg_bifurcated : (s.setReg r i v).bifurcated = s.bifurcated := (rfl)
@[simp] theorem setReg_rings : (s.setReg r i v).rings = s.rings := (rfl)
@[simp] theorem setReg_mbox : (s.setReg r i v).mbox = s.mbox := (rfl)
@[simp] theorem setReg_adminCmd : (s.setReg r i v).adminCmd = s.adminCmd := (rfl)
@[simp] theorem setReg_longs : (s.setReg r i v).longs = s.longs := (rfl)
@[simp] theorem setReg_fwUp : (s.setReg r i v).fwUp = s.fwUp := (rfl)
@[simp] theorem setReg_recovery : (s.setReg r i v).recovery = s.recovery := (rfl)
@[simp] theorem setReg_lastTurn : (s.setReg r i v).lastTurn = s.lastTurn := (rfl)
@[simp] theorem setReg_flr : (s.setReg r i v).flr = s.flr := (rfl)
@[simp] theorem setReg_quiesceLate : (s.setReg r i v).quiesceLate = s.quiesceLate := (rfl)
@[simp] theorem setReg_copies : (s.setReg r i v).copies = s.copies := (rfl)
@[simp] theorem setReg_copyLast : (s.setReg r i v).copyLast = s.copyLast := (rfl)
@[simp] theorem setReg_copyWin : (s.setReg r i v).copyWin = s.copyWin := (rfl)
@[simp] theorem setReg_shadow : (s.setReg r i v).shadow = s.shadow := (rfl)
@[simp] theorem setReg_swaps : (s.setReg r i v).swaps = s.swaps := (rfl)
@[simp] theorem setReg_worn : (s.setReg r i v).worn = s.worn := (rfl)
@[simp] theorem setReg_sram : (s.setReg r i v).sram = s.sram := (rfl)
@[simp] theorem setReg_pll : (s.setReg r i v).pll = s.pll := (rfl)
@[simp] theorem setReg_cores : (s.setReg r i v).cores = s.cores := (rfl)
@[simp] theorem setReg_coresLost : (s.setReg r i v).coresLost = s.coresLost := (rfl)
@[simp] theorem setReg_fatal : (s.setReg r i v).fatal = s.fatal := (rfl)
@[simp] theorem setReg_fatalBoot : (s.setReg r i v).fatalBoot = s.fatalBoot := (rfl)
@[simp] theorem setReg_hbm : (s.setReg r i v).hbm = s.hbm := (rfl)
@[simp] theorem setReg_wear : (s.setReg r i v).wear = s.wear := (rfl)
@[simp] theorem setReg_wearSaved : (s.setReg r i v).wearSaved = s.wearSaved := (rfl)
@[simp] theorem setReg_flash : (s.setReg r i v).flash = s.flash := (rfl)
@[simp] theorem setReg_fwSlot : (s.setReg r i v).fwSlot = s.fwSlot := (rfl)
@[simp] theorem setReg_flashHolder : (s.setReg r i v).flashHolder = s.flashHolder := (rfl)
@[simp] theorem setReg_flashAt : (s.setReg r i v).flashAt = s.flashAt := (rfl)
@[simp] theorem setReg_supply : (s.setReg r i v).supply = s.supply := (rfl)
end setRegLaws

section putLaws
variable (r : Reg) (i v : Nat)
@[simp] theorem put_pending : (s.put r i v).pending = s.pending := (rfl)
@[simp] theorem put_now : (s.put r i v).now = s.now := (rfl)
@[simp] theorem put_out : (s.put r i v).out = s.out := (rfl)
@[simp] theorem put_free : (s.put r i v).free = s.free := (rfl)
@[simp] theorem put_latches : (s.put r i v).latches = s.latches := (rfl)
@[simp] theorem put_lastRaise : (s.put r i v).lastRaise = s.lastRaise := (rfl)
@[simp] theorem put_fns : (s.put r i v).fns = s.fns := (rfl)
@[simp] theorem put_msix : (s.put r i v).msix = s.msix := (rfl)
@[simp] theorem put_manager : (s.put r i v).manager = s.manager := (rfl)
@[simp] theorem put_journal : (s.put r i v).journal = s.journal := (rfl)
@[simp] theorem put_fenced : (s.put r i v).fenced = s.fenced := (rfl)
@[simp] theorem put_fenceLog : (s.put r i v).fenceLog = s.fenceLog := (rfl)
@[simp] theorem put_fwLog : (s.put r i v).fwLog = s.fwLog := (rfl)
@[simp] theorem put_fwLogLost : (s.put r i v).fwLogLost = s.fwLogLost := (rfl)
@[simp] theorem put_time : (s.put r i v).time = s.time := (rfl)
@[simp] theorem put_tsu : (s.put r i v).tsu = s.tsu := (rfl)
@[simp] theorem put_oven : (s.put r i v).oven = s.oven := (rfl)
@[simp] theorem put_holds : (s.put r i v).holds = s.holds := (rfl)
@[simp] theorem put_xoff : (s.put r i v).xoff = s.xoff := (rfl)
@[simp] theorem put_localFault : (s.put r i v).localFault = s.localFault := (rfl)
@[simp] theorem put_verify : (s.put r i v).verify = s.verify := (rfl)
@[simp] theorem put_rates : (s.put r i v).rates = s.rates := (rfl)
@[simp] theorem put_ncsi : (s.put r i v).ncsi = s.ncsi := (rfl)
@[simp] theorem put_pkts : (s.put r i v).pkts = s.pkts := (rfl)
@[simp] theorem put_nextPkt : (s.put r i v).nextPkt = s.nextPkt := (rfl)
@[simp] theorem put_txNow : (s.put r i v).txNow = s.txNow := (rfl)
@[simp] theorem put_discards : (s.put r i v).discards = s.discards := (rfl)
@[simp] theorem put_jobs : (s.put r i v).jobs = s.jobs := (rfl)
@[simp] theorem put_nextJob : (s.put r i v).nextJob = s.nextJob := (rfl)
@[simp] theorem put_ready : (s.put r i v).ready = s.ready := (rfl)
@[simp] theorem put_grdStates : (s.put r i v).grdStates = s.grdStates := (rfl)
@[simp] theorem put_grdRecog : (s.put r i v).grdRecog = s.grdRecog := (rfl)
@[simp] theorem put_grdStart : (s.put r i v).grdStart = s.grdStart := (rfl)
@[simp] theorem put_l2 : (s.put r i v).l2 = s.l2 := (rfl)
@[simp] theorem put_l2Flight : (s.put r i v).l2Flight = s.l2Flight := (rfl)
@[simp] theorem put_sweeps : (s.put r i v).sweeps = s.sweeps := (rfl)
@[simp] theorem put_flow : (s.put r i v).flow = s.flow := (rfl)
@[simp] theorem put_flowCache : (s.put r i v).flowCache = s.flowCache := (rfl)
@[simp] theorem put_lpm : (s.put r i v).lpm = s.lpm := (rfl)
@[simp] theorem put_threads : (s.put r i v).threads = s.threads := (rfl)
@[simp] theorem put_clusters : (s.put r i v).clusters = s.clusters := (rfl)
@[simp] theorem put_lastCluster : (s.put r i v).lastCluster = s.lastCluster := (rfl)
@[simp] theorem put_nextSeq : (s.put r i v).nextSeq = s.nextSeq := (rfl)
@[simp] theorem put_order : (s.put r i v).order = s.order := (rfl)
@[simp] theorem put_barista : (s.put r i v).barista = s.barista := (rfl)
@[simp] theorem put_dispatchQ : (s.put r i v).dispatchQ = s.dispatchQ := (rfl)
@[simp] theorem put_chan : (s.put r i v).chan = s.chan := (rfl)
@[simp] theorem put_dropReasons : (s.put r i v).dropReasons = s.dropReasons := (rfl)
@[simp] theorem put_watch : (s.put r i v).watch = s.watch := (rfl)
@[simp] theorem put_cs : (s.put r i v).cs = s.cs := (rfl)
@[simp] theorem put_csBad : (s.put r i v).csBad = s.csBad := (rfl)
@[simp] theorem put_banks : (s.put r i v).banks = s.banks := (rfl)
@[simp] theorem put_nextRegion : (s.put r i v).nextRegion = s.nextRegion := (rfl)
@[simp] theorem put_localMem : (s.put r i v).localMem = s.localMem := (rfl)
@[simp] theorem put_tsram : (s.put r i v).tsram = s.tsram := (rfl)
@[simp] theorem put_hbmMem : (s.put r i v).hbmMem = s.hbmMem := (rfl)
@[simp] theorem put_espSas : (s.put r i v).espSas = s.espSas := (rfl)
@[simp] theorem put_sessions : (s.put r i v).sessions = s.sessions := (rfl)
@[simp] theorem put_macsec : (s.put r i v).macsec = s.macsec := (rfl)
@[simp] theorem put_places : (s.put r i v).places = s.places := (rfl)
@[simp] theorem put_oflNotes : (s.put r i v).oflNotes = s.oflNotes := (rfl)
@[simp] theorem put_outerId : (s.put r i v).outerId = s.outerId := (rfl)
@[simp] theorem put_nodes : (s.put r i v).nodes = s.nodes := (rfl)
@[simp] theorem put_mcast : (s.put r i v).mcast = s.mcast := (rfl)
@[simp] theorem put_obs : (s.put r i v).obs = s.obs := (rfl)
@[simp] theorem put_gclStaged : (s.put r i v).gclStaged = s.gclStaged := (rfl)
@[simp] theorem put_gclPending : (s.put r i v).gclPending = s.gclPending := (rfl)
@[simp] theorem put_groupsAdmin : (s.put r i v).groupsAdmin = s.groupsAdmin := (rfl)
@[simp] theorem put_groupsStaged : (s.put r i v).groupsStaged = s.groupsStaged := (rfl)
@[simp] theorem put_groupsOper : (s.put r i v).groupsOper = s.groupsOper := (rfl)
@[simp] theorem put_groupsOld : (s.put r i v).groupsOld = s.groupsOld := (rfl)
@[simp] theorem put_buckets : (s.put r i v).buckets = s.buckets := (rfl)
@[simp] theorem put_rxSeq : (s.put r i v).rxSeq = s.rxSeq := (rfl)
@[simp] theorem put_hostSeq : (s.put r i v).hostSeq = s.hostSeq := (rfl)
@[simp] theorem put_txSeq : (s.put r i v).txSeq = s.txSeq := (rfl)
@[simp] theorem put_stampFifo : (s.put r i v).stampFifo = s.stampFifo := (rfl)
@[simp] theorem put_stampLoss : (s.put r i v).stampLoss = s.stampLoss := (rfl)
@[simp] theorem put_stampRing : (s.put r i v).stampRing = s.stampRing := (rfl)
@[simp] theorem put_jrings : (s.put r i v).jrings = s.jrings := (rfl)
@[simp] theorem put_lastKey : (s.put r i v).lastKey = s.lastKey := (rfl)
@[simp] theorem put_mir : (s.put r i v).mir = s.mir := (rfl)
@[simp] theorem put_members : (s.put r i v).members = s.members := (rfl)
@[simp] theorem put_frer : (s.put r i v).frer = s.frer := (rfl)
@[simp] theorem put_mmLog : (s.put r i v).mmLog = s.mmLog := (rfl)
@[simp] theorem put_ats : (s.put r i v).ats = s.ats := (rfl)
@[simp] theorem put_xreqs : (s.put r i v).xreqs = s.xreqs := (rfl)
@[simp] theorem put_preqs : (s.put r i v).preqs = s.preqs := (rfl)
@[simp] theorem put_reads : (s.put r i v).reads = s.reads := (rfl)
@[simp] theorem put_nextReq : (s.put r i v).nextReq = s.nextReq := (rfl)
@[simp] theorem put_invals : (s.put r i v).invals = s.invals := (rfl)
@[simp] theorem put_migFilter : (s.put r i v).migFilter = s.migFilter := (rfl)
@[simp] theorem put_lateResponses : (s.put r i v).lateResponses = s.lateResponses := (rfl)
@[simp] theorem put_hlinks : (s.put r i v).hlinks = s.hlinks := (rfl)
@[simp] theorem put_perst : (s.put r i v).perst = s.perst := (rfl)
@[simp] theorem put_bifurcated : (s.put r i v).bifurcated = s.bifurcated := (rfl)
@[simp] theorem put_rings : (s.put r i v).rings = s.rings := (rfl)
@[simp] theorem put_mbox : (s.put r i v).mbox = s.mbox := (rfl)
@[simp] theorem put_adminCmd : (s.put r i v).adminCmd = s.adminCmd := (rfl)
@[simp] theorem put_longs : (s.put r i v).longs = s.longs := (rfl)
@[simp] theorem put_fwUp : (s.put r i v).fwUp = s.fwUp := (rfl)
@[simp] theorem put_recovery : (s.put r i v).recovery = s.recovery := (rfl)
@[simp] theorem put_lastTurn : (s.put r i v).lastTurn = s.lastTurn := (rfl)
@[simp] theorem put_flr : (s.put r i v).flr = s.flr := (rfl)
@[simp] theorem put_quiesceLate : (s.put r i v).quiesceLate = s.quiesceLate := (rfl)
@[simp] theorem put_copies : (s.put r i v).copies = s.copies := (rfl)
@[simp] theorem put_copyLast : (s.put r i v).copyLast = s.copyLast := (rfl)
@[simp] theorem put_copyWin : (s.put r i v).copyWin = s.copyWin := (rfl)
@[simp] theorem put_shadow : (s.put r i v).shadow = s.shadow := (rfl)
@[simp] theorem put_swaps : (s.put r i v).swaps = s.swaps := (rfl)
@[simp] theorem put_worn : (s.put r i v).worn = s.worn := (rfl)
@[simp] theorem put_sram : (s.put r i v).sram = s.sram := (rfl)
@[simp] theorem put_pll : (s.put r i v).pll = s.pll := (rfl)
@[simp] theorem put_cores : (s.put r i v).cores = s.cores := (rfl)
@[simp] theorem put_coresLost : (s.put r i v).coresLost = s.coresLost := (rfl)
@[simp] theorem put_fatal : (s.put r i v).fatal = s.fatal := (rfl)
@[simp] theorem put_fatalBoot : (s.put r i v).fatalBoot = s.fatalBoot := (rfl)
@[simp] theorem put_hbm : (s.put r i v).hbm = s.hbm := (rfl)
@[simp] theorem put_wear : (s.put r i v).wear = s.wear := (rfl)
@[simp] theorem put_wearSaved : (s.put r i v).wearSaved = s.wearSaved := (rfl)
@[simp] theorem put_flash : (s.put r i v).flash = s.flash := (rfl)
@[simp] theorem put_fwSlot : (s.put r i v).fwSlot = s.fwSlot := (rfl)
@[simp] theorem put_flashHolder : (s.put r i v).flashHolder = s.flashHolder := (rfl)
@[simp] theorem put_flashAt : (s.put r i v).flashAt = s.flashAt := (rfl)
@[simp] theorem put_supply : (s.put r i v).supply = s.supply := (rfl)
end putLaws

section wrLaws
variable (f : Fld) (i v : Nat)
@[simp] theorem wr_pending : (s.wr f i v).pending = s.pending := (rfl)
@[simp] theorem wr_now : (s.wr f i v).now = s.now := (rfl)
@[simp] theorem wr_out : (s.wr f i v).out = s.out := (rfl)
@[simp] theorem wr_free : (s.wr f i v).free = s.free := (rfl)
@[simp] theorem wr_latches : (s.wr f i v).latches = s.latches := (rfl)
@[simp] theorem wr_lastRaise : (s.wr f i v).lastRaise = s.lastRaise := (rfl)
@[simp] theorem wr_fns : (s.wr f i v).fns = s.fns := (rfl)
@[simp] theorem wr_msix : (s.wr f i v).msix = s.msix := (rfl)
@[simp] theorem wr_manager : (s.wr f i v).manager = s.manager := (rfl)
@[simp] theorem wr_journal : (s.wr f i v).journal = s.journal := (rfl)
@[simp] theorem wr_fenced : (s.wr f i v).fenced = s.fenced := (rfl)
@[simp] theorem wr_fenceLog : (s.wr f i v).fenceLog = s.fenceLog := (rfl)
@[simp] theorem wr_fwLog : (s.wr f i v).fwLog = s.fwLog := (rfl)
@[simp] theorem wr_fwLogLost : (s.wr f i v).fwLogLost = s.fwLogLost := (rfl)
@[simp] theorem wr_time : (s.wr f i v).time = s.time := (rfl)
@[simp] theorem wr_tsu : (s.wr f i v).tsu = s.tsu := (rfl)
@[simp] theorem wr_oven : (s.wr f i v).oven = s.oven := (rfl)
@[simp] theorem wr_holds : (s.wr f i v).holds = s.holds := (rfl)
@[simp] theorem wr_xoff : (s.wr f i v).xoff = s.xoff := (rfl)
@[simp] theorem wr_localFault : (s.wr f i v).localFault = s.localFault := (rfl)
@[simp] theorem wr_verify : (s.wr f i v).verify = s.verify := (rfl)
@[simp] theorem wr_rates : (s.wr f i v).rates = s.rates := (rfl)
@[simp] theorem wr_ncsi : (s.wr f i v).ncsi = s.ncsi := (rfl)
@[simp] theorem wr_pkts : (s.wr f i v).pkts = s.pkts := (rfl)
@[simp] theorem wr_nextPkt : (s.wr f i v).nextPkt = s.nextPkt := (rfl)
@[simp] theorem wr_txNow : (s.wr f i v).txNow = s.txNow := (rfl)
@[simp] theorem wr_discards : (s.wr f i v).discards = s.discards := (rfl)
@[simp] theorem wr_jobs : (s.wr f i v).jobs = s.jobs := (rfl)
@[simp] theorem wr_nextJob : (s.wr f i v).nextJob = s.nextJob := (rfl)
@[simp] theorem wr_ready : (s.wr f i v).ready = s.ready := (rfl)
@[simp] theorem wr_grdStates : (s.wr f i v).grdStates = s.grdStates := (rfl)
@[simp] theorem wr_grdRecog : (s.wr f i v).grdRecog = s.grdRecog := (rfl)
@[simp] theorem wr_grdStart : (s.wr f i v).grdStart = s.grdStart := (rfl)
@[simp] theorem wr_l2 : (s.wr f i v).l2 = s.l2 := (rfl)
@[simp] theorem wr_l2Flight : (s.wr f i v).l2Flight = s.l2Flight := (rfl)
@[simp] theorem wr_sweeps : (s.wr f i v).sweeps = s.sweeps := (rfl)
@[simp] theorem wr_flow : (s.wr f i v).flow = s.flow := (rfl)
@[simp] theorem wr_flowCache : (s.wr f i v).flowCache = s.flowCache := (rfl)
@[simp] theorem wr_lpm : (s.wr f i v).lpm = s.lpm := (rfl)
@[simp] theorem wr_threads : (s.wr f i v).threads = s.threads := (rfl)
@[simp] theorem wr_clusters : (s.wr f i v).clusters = s.clusters := (rfl)
@[simp] theorem wr_lastCluster : (s.wr f i v).lastCluster = s.lastCluster := (rfl)
@[simp] theorem wr_nextSeq : (s.wr f i v).nextSeq = s.nextSeq := (rfl)
@[simp] theorem wr_order : (s.wr f i v).order = s.order := (rfl)
@[simp] theorem wr_barista : (s.wr f i v).barista = s.barista := (rfl)
@[simp] theorem wr_dispatchQ : (s.wr f i v).dispatchQ = s.dispatchQ := (rfl)
@[simp] theorem wr_chan : (s.wr f i v).chan = s.chan := (rfl)
@[simp] theorem wr_dropReasons : (s.wr f i v).dropReasons = s.dropReasons := (rfl)
@[simp] theorem wr_watch : (s.wr f i v).watch = s.watch := (rfl)
@[simp] theorem wr_cs : (s.wr f i v).cs = s.cs := (rfl)
@[simp] theorem wr_csBad : (s.wr f i v).csBad = s.csBad := (rfl)
@[simp] theorem wr_banks : (s.wr f i v).banks = s.banks := (rfl)
@[simp] theorem wr_nextRegion : (s.wr f i v).nextRegion = s.nextRegion := (rfl)
@[simp] theorem wr_localMem : (s.wr f i v).localMem = s.localMem := (rfl)
@[simp] theorem wr_tsram : (s.wr f i v).tsram = s.tsram := (rfl)
@[simp] theorem wr_hbmMem : (s.wr f i v).hbmMem = s.hbmMem := (rfl)
@[simp] theorem wr_espSas : (s.wr f i v).espSas = s.espSas := (rfl)
@[simp] theorem wr_sessions : (s.wr f i v).sessions = s.sessions := (rfl)
@[simp] theorem wr_macsec : (s.wr f i v).macsec = s.macsec := (rfl)
@[simp] theorem wr_places : (s.wr f i v).places = s.places := (rfl)
@[simp] theorem wr_oflNotes : (s.wr f i v).oflNotes = s.oflNotes := (rfl)
@[simp] theorem wr_outerId : (s.wr f i v).outerId = s.outerId := (rfl)
@[simp] theorem wr_nodes : (s.wr f i v).nodes = s.nodes := (rfl)
@[simp] theorem wr_mcast : (s.wr f i v).mcast = s.mcast := (rfl)
@[simp] theorem wr_obs : (s.wr f i v).obs = s.obs := (rfl)
@[simp] theorem wr_gclStaged : (s.wr f i v).gclStaged = s.gclStaged := (rfl)
@[simp] theorem wr_gclPending : (s.wr f i v).gclPending = s.gclPending := (rfl)
@[simp] theorem wr_groupsAdmin : (s.wr f i v).groupsAdmin = s.groupsAdmin := (rfl)
@[simp] theorem wr_groupsStaged : (s.wr f i v).groupsStaged = s.groupsStaged := (rfl)
@[simp] theorem wr_groupsOper : (s.wr f i v).groupsOper = s.groupsOper := (rfl)
@[simp] theorem wr_groupsOld : (s.wr f i v).groupsOld = s.groupsOld := (rfl)
@[simp] theorem wr_buckets : (s.wr f i v).buckets = s.buckets := (rfl)
@[simp] theorem wr_rxSeq : (s.wr f i v).rxSeq = s.rxSeq := (rfl)
@[simp] theorem wr_hostSeq : (s.wr f i v).hostSeq = s.hostSeq := (rfl)
@[simp] theorem wr_txSeq : (s.wr f i v).txSeq = s.txSeq := (rfl)
@[simp] theorem wr_stampFifo : (s.wr f i v).stampFifo = s.stampFifo := (rfl)
@[simp] theorem wr_stampLoss : (s.wr f i v).stampLoss = s.stampLoss := (rfl)
@[simp] theorem wr_stampRing : (s.wr f i v).stampRing = s.stampRing := (rfl)
@[simp] theorem wr_jrings : (s.wr f i v).jrings = s.jrings := (rfl)
@[simp] theorem wr_lastKey : (s.wr f i v).lastKey = s.lastKey := (rfl)
@[simp] theorem wr_mir : (s.wr f i v).mir = s.mir := (rfl)
@[simp] theorem wr_members : (s.wr f i v).members = s.members := (rfl)
@[simp] theorem wr_frer : (s.wr f i v).frer = s.frer := (rfl)
@[simp] theorem wr_mmLog : (s.wr f i v).mmLog = s.mmLog := (rfl)
@[simp] theorem wr_ats : (s.wr f i v).ats = s.ats := (rfl)
@[simp] theorem wr_xreqs : (s.wr f i v).xreqs = s.xreqs := (rfl)
@[simp] theorem wr_preqs : (s.wr f i v).preqs = s.preqs := (rfl)
@[simp] theorem wr_reads : (s.wr f i v).reads = s.reads := (rfl)
@[simp] theorem wr_nextReq : (s.wr f i v).nextReq = s.nextReq := (rfl)
@[simp] theorem wr_invals : (s.wr f i v).invals = s.invals := (rfl)
@[simp] theorem wr_migFilter : (s.wr f i v).migFilter = s.migFilter := (rfl)
@[simp] theorem wr_lateResponses : (s.wr f i v).lateResponses = s.lateResponses := (rfl)
@[simp] theorem wr_hlinks : (s.wr f i v).hlinks = s.hlinks := (rfl)
@[simp] theorem wr_perst : (s.wr f i v).perst = s.perst := (rfl)
@[simp] theorem wr_bifurcated : (s.wr f i v).bifurcated = s.bifurcated := (rfl)
@[simp] theorem wr_rings : (s.wr f i v).rings = s.rings := (rfl)
@[simp] theorem wr_mbox : (s.wr f i v).mbox = s.mbox := (rfl)
@[simp] theorem wr_adminCmd : (s.wr f i v).adminCmd = s.adminCmd := (rfl)
@[simp] theorem wr_longs : (s.wr f i v).longs = s.longs := (rfl)
@[simp] theorem wr_fwUp : (s.wr f i v).fwUp = s.fwUp := (rfl)
@[simp] theorem wr_recovery : (s.wr f i v).recovery = s.recovery := (rfl)
@[simp] theorem wr_lastTurn : (s.wr f i v).lastTurn = s.lastTurn := (rfl)
@[simp] theorem wr_flr : (s.wr f i v).flr = s.flr := (rfl)
@[simp] theorem wr_quiesceLate : (s.wr f i v).quiesceLate = s.quiesceLate := (rfl)
@[simp] theorem wr_copies : (s.wr f i v).copies = s.copies := (rfl)
@[simp] theorem wr_copyLast : (s.wr f i v).copyLast = s.copyLast := (rfl)
@[simp] theorem wr_copyWin : (s.wr f i v).copyWin = s.copyWin := (rfl)
@[simp] theorem wr_shadow : (s.wr f i v).shadow = s.shadow := (rfl)
@[simp] theorem wr_swaps : (s.wr f i v).swaps = s.swaps := (rfl)
@[simp] theorem wr_worn : (s.wr f i v).worn = s.worn := (rfl)
@[simp] theorem wr_sram : (s.wr f i v).sram = s.sram := (rfl)
@[simp] theorem wr_pll : (s.wr f i v).pll = s.pll := (rfl)
@[simp] theorem wr_cores : (s.wr f i v).cores = s.cores := (rfl)
@[simp] theorem wr_coresLost : (s.wr f i v).coresLost = s.coresLost := (rfl)
@[simp] theorem wr_fatal : (s.wr f i v).fatal = s.fatal := (rfl)
@[simp] theorem wr_fatalBoot : (s.wr f i v).fatalBoot = s.fatalBoot := (rfl)
@[simp] theorem wr_hbm : (s.wr f i v).hbm = s.hbm := (rfl)
@[simp] theorem wr_wear : (s.wr f i v).wear = s.wear := (rfl)
@[simp] theorem wr_wearSaved : (s.wr f i v).wearSaved = s.wearSaved := (rfl)
@[simp] theorem wr_flash : (s.wr f i v).flash = s.flash := (rfl)
@[simp] theorem wr_fwSlot : (s.wr f i v).fwSlot = s.fwSlot := (rfl)
@[simp] theorem wr_flashHolder : (s.wr f i v).flashHolder = s.flashHolder := (rfl)
@[simp] theorem wr_flashAt : (s.wr f i v).flashAt = s.flashAt := (rfl)
@[simp] theorem wr_supply : (s.wr f i v).supply = s.supply := (rfl)
end wrLaws

section addLaws
variable (r : Reg) (i n : Nat)
@[simp] theorem add_pending : (s.add r i n).pending = s.pending := (rfl)
@[simp] theorem add_now : (s.add r i n).now = s.now := (rfl)
@[simp] theorem add_out : (s.add r i n).out = s.out := (rfl)
@[simp] theorem add_free : (s.add r i n).free = s.free := (rfl)
@[simp] theorem add_latches : (s.add r i n).latches = s.latches := (rfl)
@[simp] theorem add_lastRaise : (s.add r i n).lastRaise = s.lastRaise := (rfl)
@[simp] theorem add_fns : (s.add r i n).fns = s.fns := (rfl)
@[simp] theorem add_msix : (s.add r i n).msix = s.msix := (rfl)
@[simp] theorem add_manager : (s.add r i n).manager = s.manager := (rfl)
@[simp] theorem add_journal : (s.add r i n).journal = s.journal := (rfl)
@[simp] theorem add_fenced : (s.add r i n).fenced = s.fenced := (rfl)
@[simp] theorem add_fenceLog : (s.add r i n).fenceLog = s.fenceLog := (rfl)
@[simp] theorem add_fwLog : (s.add r i n).fwLog = s.fwLog := (rfl)
@[simp] theorem add_fwLogLost : (s.add r i n).fwLogLost = s.fwLogLost := (rfl)
@[simp] theorem add_time : (s.add r i n).time = s.time := (rfl)
@[simp] theorem add_tsu : (s.add r i n).tsu = s.tsu := (rfl)
@[simp] theorem add_oven : (s.add r i n).oven = s.oven := (rfl)
@[simp] theorem add_holds : (s.add r i n).holds = s.holds := (rfl)
@[simp] theorem add_xoff : (s.add r i n).xoff = s.xoff := (rfl)
@[simp] theorem add_localFault : (s.add r i n).localFault = s.localFault := (rfl)
@[simp] theorem add_verify : (s.add r i n).verify = s.verify := (rfl)
@[simp] theorem add_rates : (s.add r i n).rates = s.rates := (rfl)
@[simp] theorem add_ncsi : (s.add r i n).ncsi = s.ncsi := (rfl)
@[simp] theorem add_pkts : (s.add r i n).pkts = s.pkts := (rfl)
@[simp] theorem add_nextPkt : (s.add r i n).nextPkt = s.nextPkt := (rfl)
@[simp] theorem add_txNow : (s.add r i n).txNow = s.txNow := (rfl)
@[simp] theorem add_discards : (s.add r i n).discards = s.discards := (rfl)
@[simp] theorem add_jobs : (s.add r i n).jobs = s.jobs := (rfl)
@[simp] theorem add_nextJob : (s.add r i n).nextJob = s.nextJob := (rfl)
@[simp] theorem add_ready : (s.add r i n).ready = s.ready := (rfl)
@[simp] theorem add_grdStates : (s.add r i n).grdStates = s.grdStates := (rfl)
@[simp] theorem add_grdRecog : (s.add r i n).grdRecog = s.grdRecog := (rfl)
@[simp] theorem add_grdStart : (s.add r i n).grdStart = s.grdStart := (rfl)
@[simp] theorem add_l2 : (s.add r i n).l2 = s.l2 := (rfl)
@[simp] theorem add_l2Flight : (s.add r i n).l2Flight = s.l2Flight := (rfl)
@[simp] theorem add_sweeps : (s.add r i n).sweeps = s.sweeps := (rfl)
@[simp] theorem add_flow : (s.add r i n).flow = s.flow := (rfl)
@[simp] theorem add_flowCache : (s.add r i n).flowCache = s.flowCache := (rfl)
@[simp] theorem add_lpm : (s.add r i n).lpm = s.lpm := (rfl)
@[simp] theorem add_threads : (s.add r i n).threads = s.threads := (rfl)
@[simp] theorem add_clusters : (s.add r i n).clusters = s.clusters := (rfl)
@[simp] theorem add_lastCluster : (s.add r i n).lastCluster = s.lastCluster := (rfl)
@[simp] theorem add_nextSeq : (s.add r i n).nextSeq = s.nextSeq := (rfl)
@[simp] theorem add_order : (s.add r i n).order = s.order := (rfl)
@[simp] theorem add_barista : (s.add r i n).barista = s.barista := (rfl)
@[simp] theorem add_dispatchQ : (s.add r i n).dispatchQ = s.dispatchQ := (rfl)
@[simp] theorem add_chan : (s.add r i n).chan = s.chan := (rfl)
@[simp] theorem add_dropReasons : (s.add r i n).dropReasons = s.dropReasons := (rfl)
@[simp] theorem add_watch : (s.add r i n).watch = s.watch := (rfl)
@[simp] theorem add_cs : (s.add r i n).cs = s.cs := (rfl)
@[simp] theorem add_csBad : (s.add r i n).csBad = s.csBad := (rfl)
@[simp] theorem add_banks : (s.add r i n).banks = s.banks := (rfl)
@[simp] theorem add_nextRegion : (s.add r i n).nextRegion = s.nextRegion := (rfl)
@[simp] theorem add_localMem : (s.add r i n).localMem = s.localMem := (rfl)
@[simp] theorem add_tsram : (s.add r i n).tsram = s.tsram := (rfl)
@[simp] theorem add_hbmMem : (s.add r i n).hbmMem = s.hbmMem := (rfl)
@[simp] theorem add_espSas : (s.add r i n).espSas = s.espSas := (rfl)
@[simp] theorem add_sessions : (s.add r i n).sessions = s.sessions := (rfl)
@[simp] theorem add_macsec : (s.add r i n).macsec = s.macsec := (rfl)
@[simp] theorem add_places : (s.add r i n).places = s.places := (rfl)
@[simp] theorem add_oflNotes : (s.add r i n).oflNotes = s.oflNotes := (rfl)
@[simp] theorem add_outerId : (s.add r i n).outerId = s.outerId := (rfl)
@[simp] theorem add_nodes : (s.add r i n).nodes = s.nodes := (rfl)
@[simp] theorem add_mcast : (s.add r i n).mcast = s.mcast := (rfl)
@[simp] theorem add_obs : (s.add r i n).obs = s.obs := (rfl)
@[simp] theorem add_gclStaged : (s.add r i n).gclStaged = s.gclStaged := (rfl)
@[simp] theorem add_gclPending : (s.add r i n).gclPending = s.gclPending := (rfl)
@[simp] theorem add_groupsAdmin : (s.add r i n).groupsAdmin = s.groupsAdmin := (rfl)
@[simp] theorem add_groupsStaged : (s.add r i n).groupsStaged = s.groupsStaged := (rfl)
@[simp] theorem add_groupsOper : (s.add r i n).groupsOper = s.groupsOper := (rfl)
@[simp] theorem add_groupsOld : (s.add r i n).groupsOld = s.groupsOld := (rfl)
@[simp] theorem add_buckets : (s.add r i n).buckets = s.buckets := (rfl)
@[simp] theorem add_rxSeq : (s.add r i n).rxSeq = s.rxSeq := (rfl)
@[simp] theorem add_hostSeq : (s.add r i n).hostSeq = s.hostSeq := (rfl)
@[simp] theorem add_txSeq : (s.add r i n).txSeq = s.txSeq := (rfl)
@[simp] theorem add_stampFifo : (s.add r i n).stampFifo = s.stampFifo := (rfl)
@[simp] theorem add_stampLoss : (s.add r i n).stampLoss = s.stampLoss := (rfl)
@[simp] theorem add_stampRing : (s.add r i n).stampRing = s.stampRing := (rfl)
@[simp] theorem add_jrings : (s.add r i n).jrings = s.jrings := (rfl)
@[simp] theorem add_lastKey : (s.add r i n).lastKey = s.lastKey := (rfl)
@[simp] theorem add_mir : (s.add r i n).mir = s.mir := (rfl)
@[simp] theorem add_members : (s.add r i n).members = s.members := (rfl)
@[simp] theorem add_frer : (s.add r i n).frer = s.frer := (rfl)
@[simp] theorem add_mmLog : (s.add r i n).mmLog = s.mmLog := (rfl)
@[simp] theorem add_ats : (s.add r i n).ats = s.ats := (rfl)
@[simp] theorem add_xreqs : (s.add r i n).xreqs = s.xreqs := (rfl)
@[simp] theorem add_preqs : (s.add r i n).preqs = s.preqs := (rfl)
@[simp] theorem add_reads : (s.add r i n).reads = s.reads := (rfl)
@[simp] theorem add_nextReq : (s.add r i n).nextReq = s.nextReq := (rfl)
@[simp] theorem add_invals : (s.add r i n).invals = s.invals := (rfl)
@[simp] theorem add_migFilter : (s.add r i n).migFilter = s.migFilter := (rfl)
@[simp] theorem add_lateResponses : (s.add r i n).lateResponses = s.lateResponses := (rfl)
@[simp] theorem add_hlinks : (s.add r i n).hlinks = s.hlinks := (rfl)
@[simp] theorem add_perst : (s.add r i n).perst = s.perst := (rfl)
@[simp] theorem add_bifurcated : (s.add r i n).bifurcated = s.bifurcated := (rfl)
@[simp] theorem add_rings : (s.add r i n).rings = s.rings := (rfl)
@[simp] theorem add_mbox : (s.add r i n).mbox = s.mbox := (rfl)
@[simp] theorem add_adminCmd : (s.add r i n).adminCmd = s.adminCmd := (rfl)
@[simp] theorem add_longs : (s.add r i n).longs = s.longs := (rfl)
@[simp] theorem add_fwUp : (s.add r i n).fwUp = s.fwUp := (rfl)
@[simp] theorem add_recovery : (s.add r i n).recovery = s.recovery := (rfl)
@[simp] theorem add_lastTurn : (s.add r i n).lastTurn = s.lastTurn := (rfl)
@[simp] theorem add_flr : (s.add r i n).flr = s.flr := (rfl)
@[simp] theorem add_quiesceLate : (s.add r i n).quiesceLate = s.quiesceLate := (rfl)
@[simp] theorem add_copies : (s.add r i n).copies = s.copies := (rfl)
@[simp] theorem add_copyLast : (s.add r i n).copyLast = s.copyLast := (rfl)
@[simp] theorem add_copyWin : (s.add r i n).copyWin = s.copyWin := (rfl)
@[simp] theorem add_shadow : (s.add r i n).shadow = s.shadow := (rfl)
@[simp] theorem add_swaps : (s.add r i n).swaps = s.swaps := (rfl)
@[simp] theorem add_worn : (s.add r i n).worn = s.worn := (rfl)
@[simp] theorem add_sram : (s.add r i n).sram = s.sram := (rfl)
@[simp] theorem add_pll : (s.add r i n).pll = s.pll := (rfl)
@[simp] theorem add_cores : (s.add r i n).cores = s.cores := (rfl)
@[simp] theorem add_coresLost : (s.add r i n).coresLost = s.coresLost := (rfl)
@[simp] theorem add_fatal : (s.add r i n).fatal = s.fatal := (rfl)
@[simp] theorem add_fatalBoot : (s.add r i n).fatalBoot = s.fatalBoot := (rfl)
@[simp] theorem add_hbm : (s.add r i n).hbm = s.hbm := (rfl)
@[simp] theorem add_wear : (s.add r i n).wear = s.wear := (rfl)
@[simp] theorem add_wearSaved : (s.add r i n).wearSaved = s.wearSaved := (rfl)
@[simp] theorem add_flash : (s.add r i n).flash = s.flash := (rfl)
@[simp] theorem add_fwSlot : (s.add r i n).fwSlot = s.fwSlot := (rfl)
@[simp] theorem add_flashHolder : (s.add r i n).flashHolder = s.flashHolder := (rfl)
@[simp] theorem add_flashAt : (s.add r i n).flashAt = s.flashAt := (rfl)
@[simp] theorem add_supply : (s.add r i n).supply = s.supply := (rfl)
end addLaws

section countLaws
variable (r : Reg) (n k : Nat)
@[simp] theorem count_pending : (s.count r n k).pending = s.pending := (rfl)
@[simp] theorem count_now : (s.count r n k).now = s.now := (rfl)
@[simp] theorem count_out : (s.count r n k).out = s.out := (rfl)
@[simp] theorem count_free : (s.count r n k).free = s.free := (rfl)
@[simp] theorem count_latches : (s.count r n k).latches = s.latches := (rfl)
@[simp] theorem count_lastRaise : (s.count r n k).lastRaise = s.lastRaise := (rfl)
@[simp] theorem count_fns : (s.count r n k).fns = s.fns := (rfl)
@[simp] theorem count_msix : (s.count r n k).msix = s.msix := (rfl)
@[simp] theorem count_manager : (s.count r n k).manager = s.manager := (rfl)
@[simp] theorem count_journal : (s.count r n k).journal = s.journal := (rfl)
@[simp] theorem count_fenced : (s.count r n k).fenced = s.fenced := (rfl)
@[simp] theorem count_fenceLog : (s.count r n k).fenceLog = s.fenceLog := (rfl)
@[simp] theorem count_fwLog : (s.count r n k).fwLog = s.fwLog := (rfl)
@[simp] theorem count_fwLogLost : (s.count r n k).fwLogLost = s.fwLogLost := (rfl)
@[simp] theorem count_time : (s.count r n k).time = s.time := (rfl)
@[simp] theorem count_tsu : (s.count r n k).tsu = s.tsu := (rfl)
@[simp] theorem count_oven : (s.count r n k).oven = s.oven := (rfl)
@[simp] theorem count_holds : (s.count r n k).holds = s.holds := (rfl)
@[simp] theorem count_xoff : (s.count r n k).xoff = s.xoff := (rfl)
@[simp] theorem count_localFault : (s.count r n k).localFault = s.localFault := (rfl)
@[simp] theorem count_verify : (s.count r n k).verify = s.verify := (rfl)
@[simp] theorem count_rates : (s.count r n k).rates = s.rates := (rfl)
@[simp] theorem count_ncsi : (s.count r n k).ncsi = s.ncsi := (rfl)
@[simp] theorem count_pkts : (s.count r n k).pkts = s.pkts := (rfl)
@[simp] theorem count_nextPkt : (s.count r n k).nextPkt = s.nextPkt := (rfl)
@[simp] theorem count_txNow : (s.count r n k).txNow = s.txNow := (rfl)
@[simp] theorem count_discards : (s.count r n k).discards = s.discards := (rfl)
@[simp] theorem count_jobs : (s.count r n k).jobs = s.jobs := (rfl)
@[simp] theorem count_nextJob : (s.count r n k).nextJob = s.nextJob := (rfl)
@[simp] theorem count_ready : (s.count r n k).ready = s.ready := (rfl)
@[simp] theorem count_grdStates : (s.count r n k).grdStates = s.grdStates := (rfl)
@[simp] theorem count_grdRecog : (s.count r n k).grdRecog = s.grdRecog := (rfl)
@[simp] theorem count_grdStart : (s.count r n k).grdStart = s.grdStart := (rfl)
@[simp] theorem count_l2 : (s.count r n k).l2 = s.l2 := (rfl)
@[simp] theorem count_l2Flight : (s.count r n k).l2Flight = s.l2Flight := (rfl)
@[simp] theorem count_sweeps : (s.count r n k).sweeps = s.sweeps := (rfl)
@[simp] theorem count_flow : (s.count r n k).flow = s.flow := (rfl)
@[simp] theorem count_flowCache : (s.count r n k).flowCache = s.flowCache := (rfl)
@[simp] theorem count_lpm : (s.count r n k).lpm = s.lpm := (rfl)
@[simp] theorem count_threads : (s.count r n k).threads = s.threads := (rfl)
@[simp] theorem count_clusters : (s.count r n k).clusters = s.clusters := (rfl)
@[simp] theorem count_lastCluster : (s.count r n k).lastCluster = s.lastCluster := (rfl)
@[simp] theorem count_nextSeq : (s.count r n k).nextSeq = s.nextSeq := (rfl)
@[simp] theorem count_order : (s.count r n k).order = s.order := (rfl)
@[simp] theorem count_barista : (s.count r n k).barista = s.barista := (rfl)
@[simp] theorem count_dispatchQ : (s.count r n k).dispatchQ = s.dispatchQ := (rfl)
@[simp] theorem count_chan : (s.count r n k).chan = s.chan := (rfl)
@[simp] theorem count_dropReasons : (s.count r n k).dropReasons = s.dropReasons := (rfl)
@[simp] theorem count_watch : (s.count r n k).watch = s.watch := (rfl)
@[simp] theorem count_cs : (s.count r n k).cs = s.cs := (rfl)
@[simp] theorem count_csBad : (s.count r n k).csBad = s.csBad := (rfl)
@[simp] theorem count_banks : (s.count r n k).banks = s.banks := (rfl)
@[simp] theorem count_nextRegion : (s.count r n k).nextRegion = s.nextRegion := (rfl)
@[simp] theorem count_localMem : (s.count r n k).localMem = s.localMem := (rfl)
@[simp] theorem count_tsram : (s.count r n k).tsram = s.tsram := (rfl)
@[simp] theorem count_hbmMem : (s.count r n k).hbmMem = s.hbmMem := (rfl)
@[simp] theorem count_espSas : (s.count r n k).espSas = s.espSas := (rfl)
@[simp] theorem count_sessions : (s.count r n k).sessions = s.sessions := (rfl)
@[simp] theorem count_macsec : (s.count r n k).macsec = s.macsec := (rfl)
@[simp] theorem count_places : (s.count r n k).places = s.places := (rfl)
@[simp] theorem count_oflNotes : (s.count r n k).oflNotes = s.oflNotes := (rfl)
@[simp] theorem count_outerId : (s.count r n k).outerId = s.outerId := (rfl)
@[simp] theorem count_nodes : (s.count r n k).nodes = s.nodes := (rfl)
@[simp] theorem count_mcast : (s.count r n k).mcast = s.mcast := (rfl)
@[simp] theorem count_obs : (s.count r n k).obs = s.obs := (rfl)
@[simp] theorem count_gclStaged : (s.count r n k).gclStaged = s.gclStaged := (rfl)
@[simp] theorem count_gclPending : (s.count r n k).gclPending = s.gclPending := (rfl)
@[simp] theorem count_groupsAdmin : (s.count r n k).groupsAdmin = s.groupsAdmin := (rfl)
@[simp] theorem count_groupsStaged : (s.count r n k).groupsStaged = s.groupsStaged := (rfl)
@[simp] theorem count_groupsOper : (s.count r n k).groupsOper = s.groupsOper := (rfl)
@[simp] theorem count_groupsOld : (s.count r n k).groupsOld = s.groupsOld := (rfl)
@[simp] theorem count_buckets : (s.count r n k).buckets = s.buckets := (rfl)
@[simp] theorem count_rxSeq : (s.count r n k).rxSeq = s.rxSeq := (rfl)
@[simp] theorem count_hostSeq : (s.count r n k).hostSeq = s.hostSeq := (rfl)
@[simp] theorem count_txSeq : (s.count r n k).txSeq = s.txSeq := (rfl)
@[simp] theorem count_stampFifo : (s.count r n k).stampFifo = s.stampFifo := (rfl)
@[simp] theorem count_stampLoss : (s.count r n k).stampLoss = s.stampLoss := (rfl)
@[simp] theorem count_stampRing : (s.count r n k).stampRing = s.stampRing := (rfl)
@[simp] theorem count_jrings : (s.count r n k).jrings = s.jrings := (rfl)
@[simp] theorem count_lastKey : (s.count r n k).lastKey = s.lastKey := (rfl)
@[simp] theorem count_mir : (s.count r n k).mir = s.mir := (rfl)
@[simp] theorem count_members : (s.count r n k).members = s.members := (rfl)
@[simp] theorem count_frer : (s.count r n k).frer = s.frer := (rfl)
@[simp] theorem count_mmLog : (s.count r n k).mmLog = s.mmLog := (rfl)
@[simp] theorem count_ats : (s.count r n k).ats = s.ats := (rfl)
@[simp] theorem count_xreqs : (s.count r n k).xreqs = s.xreqs := (rfl)
@[simp] theorem count_preqs : (s.count r n k).preqs = s.preqs := (rfl)
@[simp] theorem count_reads : (s.count r n k).reads = s.reads := (rfl)
@[simp] theorem count_nextReq : (s.count r n k).nextReq = s.nextReq := (rfl)
@[simp] theorem count_invals : (s.count r n k).invals = s.invals := (rfl)
@[simp] theorem count_migFilter : (s.count r n k).migFilter = s.migFilter := (rfl)
@[simp] theorem count_lateResponses : (s.count r n k).lateResponses = s.lateResponses := (rfl)
@[simp] theorem count_hlinks : (s.count r n k).hlinks = s.hlinks := (rfl)
@[simp] theorem count_perst : (s.count r n k).perst = s.perst := (rfl)
@[simp] theorem count_bifurcated : (s.count r n k).bifurcated = s.bifurcated := (rfl)
@[simp] theorem count_rings : (s.count r n k).rings = s.rings := (rfl)
@[simp] theorem count_mbox : (s.count r n k).mbox = s.mbox := (rfl)
@[simp] theorem count_adminCmd : (s.count r n k).adminCmd = s.adminCmd := (rfl)
@[simp] theorem count_longs : (s.count r n k).longs = s.longs := (rfl)
@[simp] theorem count_fwUp : (s.count r n k).fwUp = s.fwUp := (rfl)
@[simp] theorem count_recovery : (s.count r n k).recovery = s.recovery := (rfl)
@[simp] theorem count_lastTurn : (s.count r n k).lastTurn = s.lastTurn := (rfl)
@[simp] theorem count_flr : (s.count r n k).flr = s.flr := (rfl)
@[simp] theorem count_quiesceLate : (s.count r n k).quiesceLate = s.quiesceLate := (rfl)
@[simp] theorem count_copies : (s.count r n k).copies = s.copies := (rfl)
@[simp] theorem count_copyLast : (s.count r n k).copyLast = s.copyLast := (rfl)
@[simp] theorem count_copyWin : (s.count r n k).copyWin = s.copyWin := (rfl)
@[simp] theorem count_shadow : (s.count r n k).shadow = s.shadow := (rfl)
@[simp] theorem count_swaps : (s.count r n k).swaps = s.swaps := (rfl)
@[simp] theorem count_worn : (s.count r n k).worn = s.worn := (rfl)
@[simp] theorem count_sram : (s.count r n k).sram = s.sram := (rfl)
@[simp] theorem count_pll : (s.count r n k).pll = s.pll := (rfl)
@[simp] theorem count_cores : (s.count r n k).cores = s.cores := (rfl)
@[simp] theorem count_coresLost : (s.count r n k).coresLost = s.coresLost := (rfl)
@[simp] theorem count_fatal : (s.count r n k).fatal = s.fatal := (rfl)
@[simp] theorem count_fatalBoot : (s.count r n k).fatalBoot = s.fatalBoot := (rfl)
@[simp] theorem count_hbm : (s.count r n k).hbm = s.hbm := (rfl)
@[simp] theorem count_wear : (s.count r n k).wear = s.wear := (rfl)
@[simp] theorem count_wearSaved : (s.count r n k).wearSaved = s.wearSaved := (rfl)
@[simp] theorem count_flash : (s.count r n k).flash = s.flash := (rfl)
@[simp] theorem count_fwSlot : (s.count r n k).fwSlot = s.fwSlot := (rfl)
@[simp] theorem count_flashHolder : (s.count r n k).flashHolder = s.flashHolder := (rfl)
@[simp] theorem count_flashAt : (s.count r n k).flashAt = s.flashAt := (rfl)
@[simp] theorem count_supply : (s.count r n k).supply = s.supply := (rfl)
end countLaws

section countByLaws
variable (r : Reg) (n k m : Nat)
@[simp] theorem countBy_pending : (s.countBy r n k m).pending = s.pending := (rfl)
@[simp] theorem countBy_now : (s.countBy r n k m).now = s.now := (rfl)
@[simp] theorem countBy_out : (s.countBy r n k m).out = s.out := (rfl)
@[simp] theorem countBy_free : (s.countBy r n k m).free = s.free := (rfl)
@[simp] theorem countBy_latches : (s.countBy r n k m).latches = s.latches := (rfl)
@[simp] theorem countBy_lastRaise : (s.countBy r n k m).lastRaise = s.lastRaise := (rfl)
@[simp] theorem countBy_fns : (s.countBy r n k m).fns = s.fns := (rfl)
@[simp] theorem countBy_msix : (s.countBy r n k m).msix = s.msix := (rfl)
@[simp] theorem countBy_manager : (s.countBy r n k m).manager = s.manager := (rfl)
@[simp] theorem countBy_journal : (s.countBy r n k m).journal = s.journal := (rfl)
@[simp] theorem countBy_fenced : (s.countBy r n k m).fenced = s.fenced := (rfl)
@[simp] theorem countBy_fenceLog : (s.countBy r n k m).fenceLog = s.fenceLog := (rfl)
@[simp] theorem countBy_fwLog : (s.countBy r n k m).fwLog = s.fwLog := (rfl)
@[simp] theorem countBy_fwLogLost : (s.countBy r n k m).fwLogLost = s.fwLogLost := (rfl)
@[simp] theorem countBy_time : (s.countBy r n k m).time = s.time := (rfl)
@[simp] theorem countBy_tsu : (s.countBy r n k m).tsu = s.tsu := (rfl)
@[simp] theorem countBy_oven : (s.countBy r n k m).oven = s.oven := (rfl)
@[simp] theorem countBy_holds : (s.countBy r n k m).holds = s.holds := (rfl)
@[simp] theorem countBy_xoff : (s.countBy r n k m).xoff = s.xoff := (rfl)
@[simp] theorem countBy_localFault : (s.countBy r n k m).localFault = s.localFault := (rfl)
@[simp] theorem countBy_verify : (s.countBy r n k m).verify = s.verify := (rfl)
@[simp] theorem countBy_rates : (s.countBy r n k m).rates = s.rates := (rfl)
@[simp] theorem countBy_ncsi : (s.countBy r n k m).ncsi = s.ncsi := (rfl)
@[simp] theorem countBy_pkts : (s.countBy r n k m).pkts = s.pkts := (rfl)
@[simp] theorem countBy_nextPkt : (s.countBy r n k m).nextPkt = s.nextPkt := (rfl)
@[simp] theorem countBy_txNow : (s.countBy r n k m).txNow = s.txNow := (rfl)
@[simp] theorem countBy_discards : (s.countBy r n k m).discards = s.discards := (rfl)
@[simp] theorem countBy_jobs : (s.countBy r n k m).jobs = s.jobs := (rfl)
@[simp] theorem countBy_nextJob : (s.countBy r n k m).nextJob = s.nextJob := (rfl)
@[simp] theorem countBy_ready : (s.countBy r n k m).ready = s.ready := (rfl)
@[simp] theorem countBy_grdStates : (s.countBy r n k m).grdStates = s.grdStates := (rfl)
@[simp] theorem countBy_grdRecog : (s.countBy r n k m).grdRecog = s.grdRecog := (rfl)
@[simp] theorem countBy_grdStart : (s.countBy r n k m).grdStart = s.grdStart := (rfl)
@[simp] theorem countBy_l2 : (s.countBy r n k m).l2 = s.l2 := (rfl)
@[simp] theorem countBy_l2Flight : (s.countBy r n k m).l2Flight = s.l2Flight := (rfl)
@[simp] theorem countBy_sweeps : (s.countBy r n k m).sweeps = s.sweeps := (rfl)
@[simp] theorem countBy_flow : (s.countBy r n k m).flow = s.flow := (rfl)
@[simp] theorem countBy_flowCache : (s.countBy r n k m).flowCache = s.flowCache := (rfl)
@[simp] theorem countBy_lpm : (s.countBy r n k m).lpm = s.lpm := (rfl)
@[simp] theorem countBy_threads : (s.countBy r n k m).threads = s.threads := (rfl)
@[simp] theorem countBy_clusters : (s.countBy r n k m).clusters = s.clusters := (rfl)
@[simp] theorem countBy_lastCluster : (s.countBy r n k m).lastCluster = s.lastCluster := (rfl)
@[simp] theorem countBy_nextSeq : (s.countBy r n k m).nextSeq = s.nextSeq := (rfl)
@[simp] theorem countBy_order : (s.countBy r n k m).order = s.order := (rfl)
@[simp] theorem countBy_barista : (s.countBy r n k m).barista = s.barista := (rfl)
@[simp] theorem countBy_dispatchQ : (s.countBy r n k m).dispatchQ = s.dispatchQ := (rfl)
@[simp] theorem countBy_chan : (s.countBy r n k m).chan = s.chan := (rfl)
@[simp] theorem countBy_dropReasons : (s.countBy r n k m).dropReasons = s.dropReasons := (rfl)
@[simp] theorem countBy_watch : (s.countBy r n k m).watch = s.watch := (rfl)
@[simp] theorem countBy_cs : (s.countBy r n k m).cs = s.cs := (rfl)
@[simp] theorem countBy_csBad : (s.countBy r n k m).csBad = s.csBad := (rfl)
@[simp] theorem countBy_banks : (s.countBy r n k m).banks = s.banks := (rfl)
@[simp] theorem countBy_nextRegion : (s.countBy r n k m).nextRegion = s.nextRegion := (rfl)
@[simp] theorem countBy_localMem : (s.countBy r n k m).localMem = s.localMem := (rfl)
@[simp] theorem countBy_tsram : (s.countBy r n k m).tsram = s.tsram := (rfl)
@[simp] theorem countBy_hbmMem : (s.countBy r n k m).hbmMem = s.hbmMem := (rfl)
@[simp] theorem countBy_espSas : (s.countBy r n k m).espSas = s.espSas := (rfl)
@[simp] theorem countBy_sessions : (s.countBy r n k m).sessions = s.sessions := (rfl)
@[simp] theorem countBy_macsec : (s.countBy r n k m).macsec = s.macsec := (rfl)
@[simp] theorem countBy_places : (s.countBy r n k m).places = s.places := (rfl)
@[simp] theorem countBy_oflNotes : (s.countBy r n k m).oflNotes = s.oflNotes := (rfl)
@[simp] theorem countBy_outerId : (s.countBy r n k m).outerId = s.outerId := (rfl)
@[simp] theorem countBy_nodes : (s.countBy r n k m).nodes = s.nodes := (rfl)
@[simp] theorem countBy_mcast : (s.countBy r n k m).mcast = s.mcast := (rfl)
@[simp] theorem countBy_obs : (s.countBy r n k m).obs = s.obs := (rfl)
@[simp] theorem countBy_gclStaged : (s.countBy r n k m).gclStaged = s.gclStaged := (rfl)
@[simp] theorem countBy_gclPending : (s.countBy r n k m).gclPending = s.gclPending := (rfl)
@[simp] theorem countBy_groupsAdmin : (s.countBy r n k m).groupsAdmin = s.groupsAdmin := (rfl)
@[simp] theorem countBy_groupsStaged : (s.countBy r n k m).groupsStaged = s.groupsStaged := (rfl)
@[simp] theorem countBy_groupsOper : (s.countBy r n k m).groupsOper = s.groupsOper := (rfl)
@[simp] theorem countBy_groupsOld : (s.countBy r n k m).groupsOld = s.groupsOld := (rfl)
@[simp] theorem countBy_buckets : (s.countBy r n k m).buckets = s.buckets := (rfl)
@[simp] theorem countBy_rxSeq : (s.countBy r n k m).rxSeq = s.rxSeq := (rfl)
@[simp] theorem countBy_hostSeq : (s.countBy r n k m).hostSeq = s.hostSeq := (rfl)
@[simp] theorem countBy_txSeq : (s.countBy r n k m).txSeq = s.txSeq := (rfl)
@[simp] theorem countBy_stampFifo : (s.countBy r n k m).stampFifo = s.stampFifo := (rfl)
@[simp] theorem countBy_stampLoss : (s.countBy r n k m).stampLoss = s.stampLoss := (rfl)
@[simp] theorem countBy_stampRing : (s.countBy r n k m).stampRing = s.stampRing := (rfl)
@[simp] theorem countBy_jrings : (s.countBy r n k m).jrings = s.jrings := (rfl)
@[simp] theorem countBy_lastKey : (s.countBy r n k m).lastKey = s.lastKey := (rfl)
@[simp] theorem countBy_mir : (s.countBy r n k m).mir = s.mir := (rfl)
@[simp] theorem countBy_members : (s.countBy r n k m).members = s.members := (rfl)
@[simp] theorem countBy_frer : (s.countBy r n k m).frer = s.frer := (rfl)
@[simp] theorem countBy_mmLog : (s.countBy r n k m).mmLog = s.mmLog := (rfl)
@[simp] theorem countBy_ats : (s.countBy r n k m).ats = s.ats := (rfl)
@[simp] theorem countBy_xreqs : (s.countBy r n k m).xreqs = s.xreqs := (rfl)
@[simp] theorem countBy_preqs : (s.countBy r n k m).preqs = s.preqs := (rfl)
@[simp] theorem countBy_reads : (s.countBy r n k m).reads = s.reads := (rfl)
@[simp] theorem countBy_nextReq : (s.countBy r n k m).nextReq = s.nextReq := (rfl)
@[simp] theorem countBy_invals : (s.countBy r n k m).invals = s.invals := (rfl)
@[simp] theorem countBy_migFilter : (s.countBy r n k m).migFilter = s.migFilter := (rfl)
@[simp] theorem countBy_lateResponses : (s.countBy r n k m).lateResponses = s.lateResponses := (rfl)
@[simp] theorem countBy_hlinks : (s.countBy r n k m).hlinks = s.hlinks := (rfl)
@[simp] theorem countBy_perst : (s.countBy r n k m).perst = s.perst := (rfl)
@[simp] theorem countBy_bifurcated : (s.countBy r n k m).bifurcated = s.bifurcated := (rfl)
@[simp] theorem countBy_rings : (s.countBy r n k m).rings = s.rings := (rfl)
@[simp] theorem countBy_mbox : (s.countBy r n k m).mbox = s.mbox := (rfl)
@[simp] theorem countBy_adminCmd : (s.countBy r n k m).adminCmd = s.adminCmd := (rfl)
@[simp] theorem countBy_longs : (s.countBy r n k m).longs = s.longs := (rfl)
@[simp] theorem countBy_fwUp : (s.countBy r n k m).fwUp = s.fwUp := (rfl)
@[simp] theorem countBy_recovery : (s.countBy r n k m).recovery = s.recovery := (rfl)
@[simp] theorem countBy_lastTurn : (s.countBy r n k m).lastTurn = s.lastTurn := (rfl)
@[simp] theorem countBy_flr : (s.countBy r n k m).flr = s.flr := (rfl)
@[simp] theorem countBy_quiesceLate : (s.countBy r n k m).quiesceLate = s.quiesceLate := (rfl)
@[simp] theorem countBy_copies : (s.countBy r n k m).copies = s.copies := (rfl)
@[simp] theorem countBy_copyLast : (s.countBy r n k m).copyLast = s.copyLast := (rfl)
@[simp] theorem countBy_copyWin : (s.countBy r n k m).copyWin = s.copyWin := (rfl)
@[simp] theorem countBy_shadow : (s.countBy r n k m).shadow = s.shadow := (rfl)
@[simp] theorem countBy_swaps : (s.countBy r n k m).swaps = s.swaps := (rfl)
@[simp] theorem countBy_worn : (s.countBy r n k m).worn = s.worn := (rfl)
@[simp] theorem countBy_sram : (s.countBy r n k m).sram = s.sram := (rfl)
@[simp] theorem countBy_pll : (s.countBy r n k m).pll = s.pll := (rfl)
@[simp] theorem countBy_cores : (s.countBy r n k m).cores = s.cores := (rfl)
@[simp] theorem countBy_coresLost : (s.countBy r n k m).coresLost = s.coresLost := (rfl)
@[simp] theorem countBy_fatal : (s.countBy r n k m).fatal = s.fatal := (rfl)
@[simp] theorem countBy_fatalBoot : (s.countBy r n k m).fatalBoot = s.fatalBoot := (rfl)
@[simp] theorem countBy_hbm : (s.countBy r n k m).hbm = s.hbm := (rfl)
@[simp] theorem countBy_wear : (s.countBy r n k m).wear = s.wear := (rfl)
@[simp] theorem countBy_wearSaved : (s.countBy r n k m).wearSaved = s.wearSaved := (rfl)
@[simp] theorem countBy_flash : (s.countBy r n k m).flash = s.flash := (rfl)
@[simp] theorem countBy_fwSlot : (s.countBy r n k m).fwSlot = s.fwSlot := (rfl)
@[simp] theorem countBy_flashHolder : (s.countBy r n k m).flashHolder = s.flashHolder := (rfl)
@[simp] theorem countBy_flashAt : (s.countBy r n k m).flashAt = s.flashAt := (rfl)
@[simp] theorem countBy_supply : (s.countBy r n k m).supply = s.supply := (rfl)
end countByLaws

section sendLaws
variable (o : Out)
@[simp] theorem send_pending : (s.send o).pending = s.pending := (rfl)
@[simp] theorem send_regs : (s.send o).regs = s.regs := (rfl)
@[simp] theorem send_now : (s.send o).now = s.now := (rfl)
@[simp] theorem send_free : (s.send o).free = s.free := (rfl)
@[simp] theorem send_latches : (s.send o).latches = s.latches := (rfl)
@[simp] theorem send_lastRaise : (s.send o).lastRaise = s.lastRaise := (rfl)
@[simp] theorem send_fns : (s.send o).fns = s.fns := (rfl)
@[simp] theorem send_msix : (s.send o).msix = s.msix := (rfl)
@[simp] theorem send_manager : (s.send o).manager = s.manager := (rfl)
@[simp] theorem send_journal : (s.send o).journal = s.journal := (rfl)
@[simp] theorem send_fenced : (s.send o).fenced = s.fenced := (rfl)
@[simp] theorem send_fenceLog : (s.send o).fenceLog = s.fenceLog := (rfl)
@[simp] theorem send_fwLog : (s.send o).fwLog = s.fwLog := (rfl)
@[simp] theorem send_fwLogLost : (s.send o).fwLogLost = s.fwLogLost := (rfl)
@[simp] theorem send_time : (s.send o).time = s.time := (rfl)
@[simp] theorem send_tsu : (s.send o).tsu = s.tsu := (rfl)
@[simp] theorem send_oven : (s.send o).oven = s.oven := (rfl)
@[simp] theorem send_holds : (s.send o).holds = s.holds := (rfl)
@[simp] theorem send_xoff : (s.send o).xoff = s.xoff := (rfl)
@[simp] theorem send_localFault : (s.send o).localFault = s.localFault := (rfl)
@[simp] theorem send_verify : (s.send o).verify = s.verify := (rfl)
@[simp] theorem send_rates : (s.send o).rates = s.rates := (rfl)
@[simp] theorem send_ncsi : (s.send o).ncsi = s.ncsi := (rfl)
@[simp] theorem send_pkts : (s.send o).pkts = s.pkts := (rfl)
@[simp] theorem send_nextPkt : (s.send o).nextPkt = s.nextPkt := (rfl)
@[simp] theorem send_txNow : (s.send o).txNow = s.txNow := (rfl)
@[simp] theorem send_discards : (s.send o).discards = s.discards := (rfl)
@[simp] theorem send_jobs : (s.send o).jobs = s.jobs := (rfl)
@[simp] theorem send_nextJob : (s.send o).nextJob = s.nextJob := (rfl)
@[simp] theorem send_ready : (s.send o).ready = s.ready := (rfl)
@[simp] theorem send_grdStates : (s.send o).grdStates = s.grdStates := (rfl)
@[simp] theorem send_grdRecog : (s.send o).grdRecog = s.grdRecog := (rfl)
@[simp] theorem send_grdStart : (s.send o).grdStart = s.grdStart := (rfl)
@[simp] theorem send_l2 : (s.send o).l2 = s.l2 := (rfl)
@[simp] theorem send_l2Flight : (s.send o).l2Flight = s.l2Flight := (rfl)
@[simp] theorem send_sweeps : (s.send o).sweeps = s.sweeps := (rfl)
@[simp] theorem send_flow : (s.send o).flow = s.flow := (rfl)
@[simp] theorem send_flowCache : (s.send o).flowCache = s.flowCache := (rfl)
@[simp] theorem send_lpm : (s.send o).lpm = s.lpm := (rfl)
@[simp] theorem send_threads : (s.send o).threads = s.threads := (rfl)
@[simp] theorem send_clusters : (s.send o).clusters = s.clusters := (rfl)
@[simp] theorem send_lastCluster : (s.send o).lastCluster = s.lastCluster := (rfl)
@[simp] theorem send_nextSeq : (s.send o).nextSeq = s.nextSeq := (rfl)
@[simp] theorem send_order : (s.send o).order = s.order := (rfl)
@[simp] theorem send_barista : (s.send o).barista = s.barista := (rfl)
@[simp] theorem send_dispatchQ : (s.send o).dispatchQ = s.dispatchQ := (rfl)
@[simp] theorem send_chan : (s.send o).chan = s.chan := (rfl)
@[simp] theorem send_dropReasons : (s.send o).dropReasons = s.dropReasons := (rfl)
@[simp] theorem send_watch : (s.send o).watch = s.watch := (rfl)
@[simp] theorem send_cs : (s.send o).cs = s.cs := (rfl)
@[simp] theorem send_csBad : (s.send o).csBad = s.csBad := (rfl)
@[simp] theorem send_banks : (s.send o).banks = s.banks := (rfl)
@[simp] theorem send_nextRegion : (s.send o).nextRegion = s.nextRegion := (rfl)
@[simp] theorem send_localMem : (s.send o).localMem = s.localMem := (rfl)
@[simp] theorem send_tsram : (s.send o).tsram = s.tsram := (rfl)
@[simp] theorem send_hbmMem : (s.send o).hbmMem = s.hbmMem := (rfl)
@[simp] theorem send_espSas : (s.send o).espSas = s.espSas := (rfl)
@[simp] theorem send_sessions : (s.send o).sessions = s.sessions := (rfl)
@[simp] theorem send_macsec : (s.send o).macsec = s.macsec := (rfl)
@[simp] theorem send_places : (s.send o).places = s.places := (rfl)
@[simp] theorem send_oflNotes : (s.send o).oflNotes = s.oflNotes := (rfl)
@[simp] theorem send_outerId : (s.send o).outerId = s.outerId := (rfl)
@[simp] theorem send_nodes : (s.send o).nodes = s.nodes := (rfl)
@[simp] theorem send_mcast : (s.send o).mcast = s.mcast := (rfl)
@[simp] theorem send_obs : (s.send o).obs = s.obs := (rfl)
@[simp] theorem send_gclStaged : (s.send o).gclStaged = s.gclStaged := (rfl)
@[simp] theorem send_gclPending : (s.send o).gclPending = s.gclPending := (rfl)
@[simp] theorem send_groupsAdmin : (s.send o).groupsAdmin = s.groupsAdmin := (rfl)
@[simp] theorem send_groupsStaged : (s.send o).groupsStaged = s.groupsStaged := (rfl)
@[simp] theorem send_groupsOper : (s.send o).groupsOper = s.groupsOper := (rfl)
@[simp] theorem send_groupsOld : (s.send o).groupsOld = s.groupsOld := (rfl)
@[simp] theorem send_buckets : (s.send o).buckets = s.buckets := (rfl)
@[simp] theorem send_rxSeq : (s.send o).rxSeq = s.rxSeq := (rfl)
@[simp] theorem send_hostSeq : (s.send o).hostSeq = s.hostSeq := (rfl)
@[simp] theorem send_txSeq : (s.send o).txSeq = s.txSeq := (rfl)
@[simp] theorem send_stampFifo : (s.send o).stampFifo = s.stampFifo := (rfl)
@[simp] theorem send_stampLoss : (s.send o).stampLoss = s.stampLoss := (rfl)
@[simp] theorem send_stampRing : (s.send o).stampRing = s.stampRing := (rfl)
@[simp] theorem send_jrings : (s.send o).jrings = s.jrings := (rfl)
@[simp] theorem send_lastKey : (s.send o).lastKey = s.lastKey := (rfl)
@[simp] theorem send_mir : (s.send o).mir = s.mir := (rfl)
@[simp] theorem send_members : (s.send o).members = s.members := (rfl)
@[simp] theorem send_frer : (s.send o).frer = s.frer := (rfl)
@[simp] theorem send_mmLog : (s.send o).mmLog = s.mmLog := (rfl)
@[simp] theorem send_ats : (s.send o).ats = s.ats := (rfl)
@[simp] theorem send_xreqs : (s.send o).xreqs = s.xreqs := (rfl)
@[simp] theorem send_preqs : (s.send o).preqs = s.preqs := (rfl)
@[simp] theorem send_reads : (s.send o).reads = s.reads := (rfl)
@[simp] theorem send_nextReq : (s.send o).nextReq = s.nextReq := (rfl)
@[simp] theorem send_invals : (s.send o).invals = s.invals := (rfl)
@[simp] theorem send_migFilter : (s.send o).migFilter = s.migFilter := (rfl)
@[simp] theorem send_lateResponses : (s.send o).lateResponses = s.lateResponses := (rfl)
@[simp] theorem send_hlinks : (s.send o).hlinks = s.hlinks := (rfl)
@[simp] theorem send_perst : (s.send o).perst = s.perst := (rfl)
@[simp] theorem send_bifurcated : (s.send o).bifurcated = s.bifurcated := (rfl)
@[simp] theorem send_rings : (s.send o).rings = s.rings := (rfl)
@[simp] theorem send_mbox : (s.send o).mbox = s.mbox := (rfl)
@[simp] theorem send_adminCmd : (s.send o).adminCmd = s.adminCmd := (rfl)
@[simp] theorem send_longs : (s.send o).longs = s.longs := (rfl)
@[simp] theorem send_fwUp : (s.send o).fwUp = s.fwUp := (rfl)
@[simp] theorem send_recovery : (s.send o).recovery = s.recovery := (rfl)
@[simp] theorem send_lastTurn : (s.send o).lastTurn = s.lastTurn := (rfl)
@[simp] theorem send_flr : (s.send o).flr = s.flr := (rfl)
@[simp] theorem send_quiesceLate : (s.send o).quiesceLate = s.quiesceLate := (rfl)
@[simp] theorem send_copies : (s.send o).copies = s.copies := (rfl)
@[simp] theorem send_copyLast : (s.send o).copyLast = s.copyLast := (rfl)
@[simp] theorem send_copyWin : (s.send o).copyWin = s.copyWin := (rfl)
@[simp] theorem send_shadow : (s.send o).shadow = s.shadow := (rfl)
@[simp] theorem send_swaps : (s.send o).swaps = s.swaps := (rfl)
@[simp] theorem send_worn : (s.send o).worn = s.worn := (rfl)
@[simp] theorem send_sram : (s.send o).sram = s.sram := (rfl)
@[simp] theorem send_pll : (s.send o).pll = s.pll := (rfl)
@[simp] theorem send_cores : (s.send o).cores = s.cores := (rfl)
@[simp] theorem send_coresLost : (s.send o).coresLost = s.coresLost := (rfl)
@[simp] theorem send_fatal : (s.send o).fatal = s.fatal := (rfl)
@[simp] theorem send_fatalBoot : (s.send o).fatalBoot = s.fatalBoot := (rfl)
@[simp] theorem send_hbm : (s.send o).hbm = s.hbm := (rfl)
@[simp] theorem send_wear : (s.send o).wear = s.wear := (rfl)
@[simp] theorem send_wearSaved : (s.send o).wearSaved = s.wearSaved := (rfl)
@[simp] theorem send_flash : (s.send o).flash = s.flash := (rfl)
@[simp] theorem send_fwSlot : (s.send o).fwSlot = s.fwSlot := (rfl)
@[simp] theorem send_flashHolder : (s.send o).flashHolder = s.flashHolder := (rfl)
@[simp] theorem send_flashAt : (s.send o).flashAt = s.flashAt := (rfl)
@[simp] theorem send_supply : (s.send o).supply = s.supply := (rfl)
end sendLaws

section usedLaws
@[simp] theorem used_pending : (s.used).pending = s.pending := (rfl)
@[simp] theorem used_regs : (s.used).regs = s.regs := (rfl)
@[simp] theorem used_now : (s.used).now = s.now := (rfl)
@[simp] theorem used_out : (s.used).out = s.out := (rfl)
@[simp] theorem used_latches : (s.used).latches = s.latches := (rfl)
@[simp] theorem used_lastRaise : (s.used).lastRaise = s.lastRaise := (rfl)
@[simp] theorem used_fns : (s.used).fns = s.fns := (rfl)
@[simp] theorem used_msix : (s.used).msix = s.msix := (rfl)
@[simp] theorem used_manager : (s.used).manager = s.manager := (rfl)
@[simp] theorem used_journal : (s.used).journal = s.journal := (rfl)
@[simp] theorem used_fenced : (s.used).fenced = s.fenced := (rfl)
@[simp] theorem used_fenceLog : (s.used).fenceLog = s.fenceLog := (rfl)
@[simp] theorem used_fwLog : (s.used).fwLog = s.fwLog := (rfl)
@[simp] theorem used_fwLogLost : (s.used).fwLogLost = s.fwLogLost := (rfl)
@[simp] theorem used_time : (s.used).time = s.time := (rfl)
@[simp] theorem used_tsu : (s.used).tsu = s.tsu := (rfl)
@[simp] theorem used_oven : (s.used).oven = s.oven := (rfl)
@[simp] theorem used_holds : (s.used).holds = s.holds := (rfl)
@[simp] theorem used_xoff : (s.used).xoff = s.xoff := (rfl)
@[simp] theorem used_localFault : (s.used).localFault = s.localFault := (rfl)
@[simp] theorem used_verify : (s.used).verify = s.verify := (rfl)
@[simp] theorem used_rates : (s.used).rates = s.rates := (rfl)
@[simp] theorem used_ncsi : (s.used).ncsi = s.ncsi := (rfl)
@[simp] theorem used_pkts : (s.used).pkts = s.pkts := (rfl)
@[simp] theorem used_nextPkt : (s.used).nextPkt = s.nextPkt := (rfl)
@[simp] theorem used_txNow : (s.used).txNow = s.txNow := (rfl)
@[simp] theorem used_discards : (s.used).discards = s.discards := (rfl)
@[simp] theorem used_jobs : (s.used).jobs = s.jobs := (rfl)
@[simp] theorem used_nextJob : (s.used).nextJob = s.nextJob := (rfl)
@[simp] theorem used_ready : (s.used).ready = s.ready := (rfl)
@[simp] theorem used_grdStates : (s.used).grdStates = s.grdStates := (rfl)
@[simp] theorem used_grdRecog : (s.used).grdRecog = s.grdRecog := (rfl)
@[simp] theorem used_grdStart : (s.used).grdStart = s.grdStart := (rfl)
@[simp] theorem used_l2 : (s.used).l2 = s.l2 := (rfl)
@[simp] theorem used_l2Flight : (s.used).l2Flight = s.l2Flight := (rfl)
@[simp] theorem used_sweeps : (s.used).sweeps = s.sweeps := (rfl)
@[simp] theorem used_flow : (s.used).flow = s.flow := (rfl)
@[simp] theorem used_flowCache : (s.used).flowCache = s.flowCache := (rfl)
@[simp] theorem used_lpm : (s.used).lpm = s.lpm := (rfl)
@[simp] theorem used_threads : (s.used).threads = s.threads := (rfl)
@[simp] theorem used_clusters : (s.used).clusters = s.clusters := (rfl)
@[simp] theorem used_lastCluster : (s.used).lastCluster = s.lastCluster := (rfl)
@[simp] theorem used_nextSeq : (s.used).nextSeq = s.nextSeq := (rfl)
@[simp] theorem used_order : (s.used).order = s.order := (rfl)
@[simp] theorem used_barista : (s.used).barista = s.barista := (rfl)
@[simp] theorem used_dispatchQ : (s.used).dispatchQ = s.dispatchQ := (rfl)
@[simp] theorem used_chan : (s.used).chan = s.chan := (rfl)
@[simp] theorem used_dropReasons : (s.used).dropReasons = s.dropReasons := (rfl)
@[simp] theorem used_watch : (s.used).watch = s.watch := (rfl)
@[simp] theorem used_cs : (s.used).cs = s.cs := (rfl)
@[simp] theorem used_csBad : (s.used).csBad = s.csBad := (rfl)
@[simp] theorem used_banks : (s.used).banks = s.banks := (rfl)
@[simp] theorem used_nextRegion : (s.used).nextRegion = s.nextRegion := (rfl)
@[simp] theorem used_localMem : (s.used).localMem = s.localMem := (rfl)
@[simp] theorem used_tsram : (s.used).tsram = s.tsram := (rfl)
@[simp] theorem used_hbmMem : (s.used).hbmMem = s.hbmMem := (rfl)
@[simp] theorem used_espSas : (s.used).espSas = s.espSas := (rfl)
@[simp] theorem used_sessions : (s.used).sessions = s.sessions := (rfl)
@[simp] theorem used_macsec : (s.used).macsec = s.macsec := (rfl)
@[simp] theorem used_places : (s.used).places = s.places := (rfl)
@[simp] theorem used_oflNotes : (s.used).oflNotes = s.oflNotes := (rfl)
@[simp] theorem used_outerId : (s.used).outerId = s.outerId := (rfl)
@[simp] theorem used_nodes : (s.used).nodes = s.nodes := (rfl)
@[simp] theorem used_mcast : (s.used).mcast = s.mcast := (rfl)
@[simp] theorem used_obs : (s.used).obs = s.obs := (rfl)
@[simp] theorem used_gclStaged : (s.used).gclStaged = s.gclStaged := (rfl)
@[simp] theorem used_gclPending : (s.used).gclPending = s.gclPending := (rfl)
@[simp] theorem used_groupsAdmin : (s.used).groupsAdmin = s.groupsAdmin := (rfl)
@[simp] theorem used_groupsStaged : (s.used).groupsStaged = s.groupsStaged := (rfl)
@[simp] theorem used_groupsOper : (s.used).groupsOper = s.groupsOper := (rfl)
@[simp] theorem used_groupsOld : (s.used).groupsOld = s.groupsOld := (rfl)
@[simp] theorem used_buckets : (s.used).buckets = s.buckets := (rfl)
@[simp] theorem used_rxSeq : (s.used).rxSeq = s.rxSeq := (rfl)
@[simp] theorem used_hostSeq : (s.used).hostSeq = s.hostSeq := (rfl)
@[simp] theorem used_txSeq : (s.used).txSeq = s.txSeq := (rfl)
@[simp] theorem used_stampFifo : (s.used).stampFifo = s.stampFifo := (rfl)
@[simp] theorem used_stampLoss : (s.used).stampLoss = s.stampLoss := (rfl)
@[simp] theorem used_stampRing : (s.used).stampRing = s.stampRing := (rfl)
@[simp] theorem used_jrings : (s.used).jrings = s.jrings := (rfl)
@[simp] theorem used_lastKey : (s.used).lastKey = s.lastKey := (rfl)
@[simp] theorem used_mir : (s.used).mir = s.mir := (rfl)
@[simp] theorem used_members : (s.used).members = s.members := (rfl)
@[simp] theorem used_frer : (s.used).frer = s.frer := (rfl)
@[simp] theorem used_mmLog : (s.used).mmLog = s.mmLog := (rfl)
@[simp] theorem used_ats : (s.used).ats = s.ats := (rfl)
@[simp] theorem used_xreqs : (s.used).xreqs = s.xreqs := (rfl)
@[simp] theorem used_preqs : (s.used).preqs = s.preqs := (rfl)
@[simp] theorem used_reads : (s.used).reads = s.reads := (rfl)
@[simp] theorem used_nextReq : (s.used).nextReq = s.nextReq := (rfl)
@[simp] theorem used_invals : (s.used).invals = s.invals := (rfl)
@[simp] theorem used_migFilter : (s.used).migFilter = s.migFilter := (rfl)
@[simp] theorem used_lateResponses : (s.used).lateResponses = s.lateResponses := (rfl)
@[simp] theorem used_hlinks : (s.used).hlinks = s.hlinks := (rfl)
@[simp] theorem used_perst : (s.used).perst = s.perst := (rfl)
@[simp] theorem used_bifurcated : (s.used).bifurcated = s.bifurcated := (rfl)
@[simp] theorem used_rings : (s.used).rings = s.rings := (rfl)
@[simp] theorem used_mbox : (s.used).mbox = s.mbox := (rfl)
@[simp] theorem used_adminCmd : (s.used).adminCmd = s.adminCmd := (rfl)
@[simp] theorem used_longs : (s.used).longs = s.longs := (rfl)
@[simp] theorem used_fwUp : (s.used).fwUp = s.fwUp := (rfl)
@[simp] theorem used_recovery : (s.used).recovery = s.recovery := (rfl)
@[simp] theorem used_lastTurn : (s.used).lastTurn = s.lastTurn := (rfl)
@[simp] theorem used_flr : (s.used).flr = s.flr := (rfl)
@[simp] theorem used_quiesceLate : (s.used).quiesceLate = s.quiesceLate := (rfl)
@[simp] theorem used_copies : (s.used).copies = s.copies := (rfl)
@[simp] theorem used_copyLast : (s.used).copyLast = s.copyLast := (rfl)
@[simp] theorem used_copyWin : (s.used).copyWin = s.copyWin := (rfl)
@[simp] theorem used_shadow : (s.used).shadow = s.shadow := (rfl)
@[simp] theorem used_swaps : (s.used).swaps = s.swaps := (rfl)
@[simp] theorem used_worn : (s.used).worn = s.worn := (rfl)
@[simp] theorem used_sram : (s.used).sram = s.sram := (rfl)
@[simp] theorem used_pll : (s.used).pll = s.pll := (rfl)
@[simp] theorem used_cores : (s.used).cores = s.cores := (rfl)
@[simp] theorem used_coresLost : (s.used).coresLost = s.coresLost := (rfl)
@[simp] theorem used_fatal : (s.used).fatal = s.fatal := (rfl)
@[simp] theorem used_fatalBoot : (s.used).fatalBoot = s.fatalBoot := (rfl)
@[simp] theorem used_hbm : (s.used).hbm = s.hbm := (rfl)
@[simp] theorem used_wear : (s.used).wear = s.wear := (rfl)
@[simp] theorem used_wearSaved : (s.used).wearSaved = s.wearSaved := (rfl)
@[simp] theorem used_flash : (s.used).flash = s.flash := (rfl)
@[simp] theorem used_fwSlot : (s.used).fwSlot = s.fwSlot := (rfl)
@[simp] theorem used_flashHolder : (s.used).flashHolder = s.flashHolder := (rfl)
@[simp] theorem used_flashAt : (s.used).flashAt = s.flashAt := (rfl)
@[simp] theorem used_supply : (s.used).supply = s.supply := (rfl)
end usedLaws

section modFnLaws
variable (f : Nat) (g : FnCfg → FnCfg)
@[simp] theorem modFn_pending : (s.modFn f g).pending = s.pending := (rfl)
@[simp] theorem modFn_regs : (s.modFn f g).regs = s.regs := (rfl)
@[simp] theorem modFn_now : (s.modFn f g).now = s.now := (rfl)
@[simp] theorem modFn_out : (s.modFn f g).out = s.out := (rfl)
@[simp] theorem modFn_free : (s.modFn f g).free = s.free := (rfl)
@[simp] theorem modFn_latches : (s.modFn f g).latches = s.latches := (rfl)
@[simp] theorem modFn_lastRaise : (s.modFn f g).lastRaise = s.lastRaise := (rfl)
@[simp] theorem modFn_msix : (s.modFn f g).msix = s.msix := (rfl)
@[simp] theorem modFn_manager : (s.modFn f g).manager = s.manager := (rfl)
@[simp] theorem modFn_journal : (s.modFn f g).journal = s.journal := (rfl)
@[simp] theorem modFn_fenced : (s.modFn f g).fenced = s.fenced := (rfl)
@[simp] theorem modFn_fenceLog : (s.modFn f g).fenceLog = s.fenceLog := (rfl)
@[simp] theorem modFn_fwLog : (s.modFn f g).fwLog = s.fwLog := (rfl)
@[simp] theorem modFn_fwLogLost : (s.modFn f g).fwLogLost = s.fwLogLost := (rfl)
@[simp] theorem modFn_time : (s.modFn f g).time = s.time := (rfl)
@[simp] theorem modFn_tsu : (s.modFn f g).tsu = s.tsu := (rfl)
@[simp] theorem modFn_oven : (s.modFn f g).oven = s.oven := (rfl)
@[simp] theorem modFn_holds : (s.modFn f g).holds = s.holds := (rfl)
@[simp] theorem modFn_xoff : (s.modFn f g).xoff = s.xoff := (rfl)
@[simp] theorem modFn_localFault : (s.modFn f g).localFault = s.localFault := (rfl)
@[simp] theorem modFn_verify : (s.modFn f g).verify = s.verify := (rfl)
@[simp] theorem modFn_rates : (s.modFn f g).rates = s.rates := (rfl)
@[simp] theorem modFn_ncsi : (s.modFn f g).ncsi = s.ncsi := (rfl)
@[simp] theorem modFn_pkts : (s.modFn f g).pkts = s.pkts := (rfl)
@[simp] theorem modFn_nextPkt : (s.modFn f g).nextPkt = s.nextPkt := (rfl)
@[simp] theorem modFn_txNow : (s.modFn f g).txNow = s.txNow := (rfl)
@[simp] theorem modFn_discards : (s.modFn f g).discards = s.discards := (rfl)
@[simp] theorem modFn_jobs : (s.modFn f g).jobs = s.jobs := (rfl)
@[simp] theorem modFn_nextJob : (s.modFn f g).nextJob = s.nextJob := (rfl)
@[simp] theorem modFn_ready : (s.modFn f g).ready = s.ready := (rfl)
@[simp] theorem modFn_grdStates : (s.modFn f g).grdStates = s.grdStates := (rfl)
@[simp] theorem modFn_grdRecog : (s.modFn f g).grdRecog = s.grdRecog := (rfl)
@[simp] theorem modFn_grdStart : (s.modFn f g).grdStart = s.grdStart := (rfl)
@[simp] theorem modFn_l2 : (s.modFn f g).l2 = s.l2 := (rfl)
@[simp] theorem modFn_l2Flight : (s.modFn f g).l2Flight = s.l2Flight := (rfl)
@[simp] theorem modFn_sweeps : (s.modFn f g).sweeps = s.sweeps := (rfl)
@[simp] theorem modFn_flow : (s.modFn f g).flow = s.flow := (rfl)
@[simp] theorem modFn_flowCache : (s.modFn f g).flowCache = s.flowCache := (rfl)
@[simp] theorem modFn_lpm : (s.modFn f g).lpm = s.lpm := (rfl)
@[simp] theorem modFn_threads : (s.modFn f g).threads = s.threads := (rfl)
@[simp] theorem modFn_clusters : (s.modFn f g).clusters = s.clusters := (rfl)
@[simp] theorem modFn_lastCluster : (s.modFn f g).lastCluster = s.lastCluster := (rfl)
@[simp] theorem modFn_nextSeq : (s.modFn f g).nextSeq = s.nextSeq := (rfl)
@[simp] theorem modFn_order : (s.modFn f g).order = s.order := (rfl)
@[simp] theorem modFn_barista : (s.modFn f g).barista = s.barista := (rfl)
@[simp] theorem modFn_dispatchQ : (s.modFn f g).dispatchQ = s.dispatchQ := (rfl)
@[simp] theorem modFn_chan : (s.modFn f g).chan = s.chan := (rfl)
@[simp] theorem modFn_dropReasons : (s.modFn f g).dropReasons = s.dropReasons := (rfl)
@[simp] theorem modFn_watch : (s.modFn f g).watch = s.watch := (rfl)
@[simp] theorem modFn_cs : (s.modFn f g).cs = s.cs := (rfl)
@[simp] theorem modFn_csBad : (s.modFn f g).csBad = s.csBad := (rfl)
@[simp] theorem modFn_banks : (s.modFn f g).banks = s.banks := (rfl)
@[simp] theorem modFn_nextRegion : (s.modFn f g).nextRegion = s.nextRegion := (rfl)
@[simp] theorem modFn_localMem : (s.modFn f g).localMem = s.localMem := (rfl)
@[simp] theorem modFn_tsram : (s.modFn f g).tsram = s.tsram := (rfl)
@[simp] theorem modFn_hbmMem : (s.modFn f g).hbmMem = s.hbmMem := (rfl)
@[simp] theorem modFn_espSas : (s.modFn f g).espSas = s.espSas := (rfl)
@[simp] theorem modFn_sessions : (s.modFn f g).sessions = s.sessions := (rfl)
@[simp] theorem modFn_macsec : (s.modFn f g).macsec = s.macsec := (rfl)
@[simp] theorem modFn_places : (s.modFn f g).places = s.places := (rfl)
@[simp] theorem modFn_oflNotes : (s.modFn f g).oflNotes = s.oflNotes := (rfl)
@[simp] theorem modFn_outerId : (s.modFn f g).outerId = s.outerId := (rfl)
@[simp] theorem modFn_nodes : (s.modFn f g).nodes = s.nodes := (rfl)
@[simp] theorem modFn_mcast : (s.modFn f g).mcast = s.mcast := (rfl)
@[simp] theorem modFn_obs : (s.modFn f g).obs = s.obs := (rfl)
@[simp] theorem modFn_gclStaged : (s.modFn f g).gclStaged = s.gclStaged := (rfl)
@[simp] theorem modFn_gclPending : (s.modFn f g).gclPending = s.gclPending := (rfl)
@[simp] theorem modFn_groupsAdmin : (s.modFn f g).groupsAdmin = s.groupsAdmin := (rfl)
@[simp] theorem modFn_groupsStaged : (s.modFn f g).groupsStaged = s.groupsStaged := (rfl)
@[simp] theorem modFn_groupsOper : (s.modFn f g).groupsOper = s.groupsOper := (rfl)
@[simp] theorem modFn_groupsOld : (s.modFn f g).groupsOld = s.groupsOld := (rfl)
@[simp] theorem modFn_buckets : (s.modFn f g).buckets = s.buckets := (rfl)
@[simp] theorem modFn_rxSeq : (s.modFn f g).rxSeq = s.rxSeq := (rfl)
@[simp] theorem modFn_hostSeq : (s.modFn f g).hostSeq = s.hostSeq := (rfl)
@[simp] theorem modFn_txSeq : (s.modFn f g).txSeq = s.txSeq := (rfl)
@[simp] theorem modFn_stampFifo : (s.modFn f g).stampFifo = s.stampFifo := (rfl)
@[simp] theorem modFn_stampLoss : (s.modFn f g).stampLoss = s.stampLoss := (rfl)
@[simp] theorem modFn_stampRing : (s.modFn f g).stampRing = s.stampRing := (rfl)
@[simp] theorem modFn_jrings : (s.modFn f g).jrings = s.jrings := (rfl)
@[simp] theorem modFn_lastKey : (s.modFn f g).lastKey = s.lastKey := (rfl)
@[simp] theorem modFn_mir : (s.modFn f g).mir = s.mir := (rfl)
@[simp] theorem modFn_members : (s.modFn f g).members = s.members := (rfl)
@[simp] theorem modFn_frer : (s.modFn f g).frer = s.frer := (rfl)
@[simp] theorem modFn_mmLog : (s.modFn f g).mmLog = s.mmLog := (rfl)
@[simp] theorem modFn_ats : (s.modFn f g).ats = s.ats := (rfl)
@[simp] theorem modFn_xreqs : (s.modFn f g).xreqs = s.xreqs := (rfl)
@[simp] theorem modFn_preqs : (s.modFn f g).preqs = s.preqs := (rfl)
@[simp] theorem modFn_reads : (s.modFn f g).reads = s.reads := (rfl)
@[simp] theorem modFn_nextReq : (s.modFn f g).nextReq = s.nextReq := (rfl)
@[simp] theorem modFn_invals : (s.modFn f g).invals = s.invals := (rfl)
@[simp] theorem modFn_migFilter : (s.modFn f g).migFilter = s.migFilter := (rfl)
@[simp] theorem modFn_lateResponses : (s.modFn f g).lateResponses = s.lateResponses := (rfl)
@[simp] theorem modFn_hlinks : (s.modFn f g).hlinks = s.hlinks := (rfl)
@[simp] theorem modFn_perst : (s.modFn f g).perst = s.perst := (rfl)
@[simp] theorem modFn_bifurcated : (s.modFn f g).bifurcated = s.bifurcated := (rfl)
@[simp] theorem modFn_rings : (s.modFn f g).rings = s.rings := (rfl)
@[simp] theorem modFn_mbox : (s.modFn f g).mbox = s.mbox := (rfl)
@[simp] theorem modFn_adminCmd : (s.modFn f g).adminCmd = s.adminCmd := (rfl)
@[simp] theorem modFn_longs : (s.modFn f g).longs = s.longs := (rfl)
@[simp] theorem modFn_fwUp : (s.modFn f g).fwUp = s.fwUp := (rfl)
@[simp] theorem modFn_recovery : (s.modFn f g).recovery = s.recovery := (rfl)
@[simp] theorem modFn_lastTurn : (s.modFn f g).lastTurn = s.lastTurn := (rfl)
@[simp] theorem modFn_flr : (s.modFn f g).flr = s.flr := (rfl)
@[simp] theorem modFn_quiesceLate : (s.modFn f g).quiesceLate = s.quiesceLate := (rfl)
@[simp] theorem modFn_copies : (s.modFn f g).copies = s.copies := (rfl)
@[simp] theorem modFn_copyLast : (s.modFn f g).copyLast = s.copyLast := (rfl)
@[simp] theorem modFn_copyWin : (s.modFn f g).copyWin = s.copyWin := (rfl)
@[simp] theorem modFn_shadow : (s.modFn f g).shadow = s.shadow := (rfl)
@[simp] theorem modFn_swaps : (s.modFn f g).swaps = s.swaps := (rfl)
@[simp] theorem modFn_worn : (s.modFn f g).worn = s.worn := (rfl)
@[simp] theorem modFn_sram : (s.modFn f g).sram = s.sram := (rfl)
@[simp] theorem modFn_pll : (s.modFn f g).pll = s.pll := (rfl)
@[simp] theorem modFn_cores : (s.modFn f g).cores = s.cores := (rfl)
@[simp] theorem modFn_coresLost : (s.modFn f g).coresLost = s.coresLost := (rfl)
@[simp] theorem modFn_fatal : (s.modFn f g).fatal = s.fatal := (rfl)
@[simp] theorem modFn_fatalBoot : (s.modFn f g).fatalBoot = s.fatalBoot := (rfl)
@[simp] theorem modFn_hbm : (s.modFn f g).hbm = s.hbm := (rfl)
@[simp] theorem modFn_wear : (s.modFn f g).wear = s.wear := (rfl)
@[simp] theorem modFn_wearSaved : (s.modFn f g).wearSaved = s.wearSaved := (rfl)
@[simp] theorem modFn_flash : (s.modFn f g).flash = s.flash := (rfl)
@[simp] theorem modFn_fwSlot : (s.modFn f g).fwSlot = s.fwSlot := (rfl)
@[simp] theorem modFn_flashHolder : (s.modFn f g).flashHolder = s.flashHolder := (rfl)
@[simp] theorem modFn_flashAt : (s.modFn f g).flashAt = s.flashAt := (rfl)
@[simp] theorem modFn_supply : (s.modFn f g).supply = s.supply := (rfl)
end modFnLaws

section messageLaws
variable (f vec : Nat)
@[simp] theorem message_pending : (s.message f vec).pending = s.pending := by unfold State.message; split <;> (try split) <;> rfl
@[simp] theorem message_regs : (s.message f vec).regs = s.regs := by unfold State.message; split <;> (try split) <;> rfl
@[simp] theorem message_now : (s.message f vec).now = s.now := by unfold State.message; split <;> (try split) <;> rfl
@[simp] theorem message_free : (s.message f vec).free = s.free := by unfold State.message; split <;> (try split) <;> rfl
@[simp] theorem message_latches : (s.message f vec).latches = s.latches := by unfold State.message; split <;> (try split) <;> rfl
@[simp] theorem message_lastRaise : (s.message f vec).lastRaise = s.lastRaise := by unfold State.message; split <;> (try split) <;> rfl
@[simp] theorem message_fns : (s.message f vec).fns = s.fns := by unfold State.message; split <;> (try split) <;> rfl
@[simp] theorem message_manager : (s.message f vec).manager = s.manager := by unfold State.message; split <;> (try split) <;> rfl
@[simp] theorem message_journal : (s.message f vec).journal = s.journal := by unfold State.message; split <;> (try split) <;> rfl
@[simp] theorem message_fenced : (s.message f vec).fenced = s.fenced := by unfold State.message; split <;> (try split) <;> rfl
@[simp] theorem message_fenceLog : (s.message f vec).fenceLog = s.fenceLog := by unfold State.message; split <;> (try split) <;> rfl
@[simp] theorem message_fwLog : (s.message f vec).fwLog = s.fwLog := by unfold State.message; split <;> (try split) <;> rfl
@[simp] theorem message_fwLogLost : (s.message f vec).fwLogLost = s.fwLogLost := by unfold State.message; split <;> (try split) <;> rfl
@[simp] theorem message_time : (s.message f vec).time = s.time := by unfold State.message; split <;> (try split) <;> rfl
@[simp] theorem message_tsu : (s.message f vec).tsu = s.tsu := by unfold State.message; split <;> (try split) <;> rfl
@[simp] theorem message_oven : (s.message f vec).oven = s.oven := by unfold State.message; split <;> (try split) <;> rfl
@[simp] theorem message_holds : (s.message f vec).holds = s.holds := by unfold State.message; split <;> (try split) <;> rfl
@[simp] theorem message_xoff : (s.message f vec).xoff = s.xoff := by unfold State.message; split <;> (try split) <;> rfl
@[simp] theorem message_localFault : (s.message f vec).localFault = s.localFault := by unfold State.message; split <;> (try split) <;> rfl
@[simp] theorem message_verify : (s.message f vec).verify = s.verify := by unfold State.message; split <;> (try split) <;> rfl
@[simp] theorem message_rates : (s.message f vec).rates = s.rates := by unfold State.message; split <;> (try split) <;> rfl
@[simp] theorem message_ncsi : (s.message f vec).ncsi = s.ncsi := by unfold State.message; split <;> (try split) <;> rfl
@[simp] theorem message_pkts : (s.message f vec).pkts = s.pkts := by unfold State.message; split <;> (try split) <;> rfl
@[simp] theorem message_nextPkt : (s.message f vec).nextPkt = s.nextPkt := by unfold State.message; split <;> (try split) <;> rfl
@[simp] theorem message_txNow : (s.message f vec).txNow = s.txNow := by unfold State.message; split <;> (try split) <;> rfl
@[simp] theorem message_discards : (s.message f vec).discards = s.discards := by unfold State.message; split <;> (try split) <;> rfl
@[simp] theorem message_jobs : (s.message f vec).jobs = s.jobs := by unfold State.message; split <;> (try split) <;> rfl
@[simp] theorem message_nextJob : (s.message f vec).nextJob = s.nextJob := by unfold State.message; split <;> (try split) <;> rfl
@[simp] theorem message_ready : (s.message f vec).ready = s.ready := by unfold State.message; split <;> (try split) <;> rfl
@[simp] theorem message_grdStates : (s.message f vec).grdStates = s.grdStates := by unfold State.message; split <;> (try split) <;> rfl
@[simp] theorem message_grdRecog : (s.message f vec).grdRecog = s.grdRecog := by unfold State.message; split <;> (try split) <;> rfl
@[simp] theorem message_grdStart : (s.message f vec).grdStart = s.grdStart := by unfold State.message; split <;> (try split) <;> rfl
@[simp] theorem message_l2 : (s.message f vec).l2 = s.l2 := by unfold State.message; split <;> (try split) <;> rfl
@[simp] theorem message_l2Flight : (s.message f vec).l2Flight = s.l2Flight := by unfold State.message; split <;> (try split) <;> rfl
@[simp] theorem message_sweeps : (s.message f vec).sweeps = s.sweeps := by unfold State.message; split <;> (try split) <;> rfl
@[simp] theorem message_flow : (s.message f vec).flow = s.flow := by unfold State.message; split <;> (try split) <;> rfl
@[simp] theorem message_flowCache : (s.message f vec).flowCache = s.flowCache := by unfold State.message; split <;> (try split) <;> rfl
@[simp] theorem message_lpm : (s.message f vec).lpm = s.lpm := by unfold State.message; split <;> (try split) <;> rfl
@[simp] theorem message_threads : (s.message f vec).threads = s.threads := by unfold State.message; split <;> (try split) <;> rfl
@[simp] theorem message_clusters : (s.message f vec).clusters = s.clusters := by unfold State.message; split <;> (try split) <;> rfl
@[simp] theorem message_lastCluster : (s.message f vec).lastCluster = s.lastCluster := by unfold State.message; split <;> (try split) <;> rfl
@[simp] theorem message_nextSeq : (s.message f vec).nextSeq = s.nextSeq := by unfold State.message; split <;> (try split) <;> rfl
@[simp] theorem message_order : (s.message f vec).order = s.order := by unfold State.message; split <;> (try split) <;> rfl
@[simp] theorem message_barista : (s.message f vec).barista = s.barista := by unfold State.message; split <;> (try split) <;> rfl
@[simp] theorem message_dispatchQ : (s.message f vec).dispatchQ = s.dispatchQ := by unfold State.message; split <;> (try split) <;> rfl
@[simp] theorem message_chan : (s.message f vec).chan = s.chan := by unfold State.message; split <;> (try split) <;> rfl
@[simp] theorem message_dropReasons : (s.message f vec).dropReasons = s.dropReasons := by unfold State.message; split <;> (try split) <;> rfl
@[simp] theorem message_watch : (s.message f vec).watch = s.watch := by unfold State.message; split <;> (try split) <;> rfl
@[simp] theorem message_cs : (s.message f vec).cs = s.cs := by unfold State.message; split <;> (try split) <;> rfl
@[simp] theorem message_csBad : (s.message f vec).csBad = s.csBad := by unfold State.message; split <;> (try split) <;> rfl
@[simp] theorem message_banks : (s.message f vec).banks = s.banks := by unfold State.message; split <;> (try split) <;> rfl
@[simp] theorem message_nextRegion : (s.message f vec).nextRegion = s.nextRegion := by unfold State.message; split <;> (try split) <;> rfl
@[simp] theorem message_localMem : (s.message f vec).localMem = s.localMem := by unfold State.message; split <;> (try split) <;> rfl
@[simp] theorem message_tsram : (s.message f vec).tsram = s.tsram := by unfold State.message; split <;> (try split) <;> rfl
@[simp] theorem message_hbmMem : (s.message f vec).hbmMem = s.hbmMem := by unfold State.message; split <;> (try split) <;> rfl
@[simp] theorem message_espSas : (s.message f vec).espSas = s.espSas := by unfold State.message; split <;> (try split) <;> rfl
@[simp] theorem message_sessions : (s.message f vec).sessions = s.sessions := by unfold State.message; split <;> (try split) <;> rfl
@[simp] theorem message_macsec : (s.message f vec).macsec = s.macsec := by unfold State.message; split <;> (try split) <;> rfl
@[simp] theorem message_places : (s.message f vec).places = s.places := by unfold State.message; split <;> (try split) <;> rfl
@[simp] theorem message_oflNotes : (s.message f vec).oflNotes = s.oflNotes := by unfold State.message; split <;> (try split) <;> rfl
@[simp] theorem message_outerId : (s.message f vec).outerId = s.outerId := by unfold State.message; split <;> (try split) <;> rfl
@[simp] theorem message_nodes : (s.message f vec).nodes = s.nodes := by unfold State.message; split <;> (try split) <;> rfl
@[simp] theorem message_mcast : (s.message f vec).mcast = s.mcast := by unfold State.message; split <;> (try split) <;> rfl
@[simp] theorem message_obs : (s.message f vec).obs = s.obs := by unfold State.message; split <;> (try split) <;> rfl
@[simp] theorem message_gclStaged : (s.message f vec).gclStaged = s.gclStaged := by unfold State.message; split <;> (try split) <;> rfl
@[simp] theorem message_gclPending : (s.message f vec).gclPending = s.gclPending := by unfold State.message; split <;> (try split) <;> rfl
@[simp] theorem message_groupsAdmin : (s.message f vec).groupsAdmin = s.groupsAdmin := by unfold State.message; split <;> (try split) <;> rfl
@[simp] theorem message_groupsStaged : (s.message f vec).groupsStaged = s.groupsStaged := by unfold State.message; split <;> (try split) <;> rfl
@[simp] theorem message_groupsOper : (s.message f vec).groupsOper = s.groupsOper := by unfold State.message; split <;> (try split) <;> rfl
@[simp] theorem message_groupsOld : (s.message f vec).groupsOld = s.groupsOld := by unfold State.message; split <;> (try split) <;> rfl
@[simp] theorem message_buckets : (s.message f vec).buckets = s.buckets := by unfold State.message; split <;> (try split) <;> rfl
@[simp] theorem message_rxSeq : (s.message f vec).rxSeq = s.rxSeq := by unfold State.message; split <;> (try split) <;> rfl
@[simp] theorem message_hostSeq : (s.message f vec).hostSeq = s.hostSeq := by unfold State.message; split <;> (try split) <;> rfl
@[simp] theorem message_txSeq : (s.message f vec).txSeq = s.txSeq := by unfold State.message; split <;> (try split) <;> rfl
@[simp] theorem message_stampFifo : (s.message f vec).stampFifo = s.stampFifo := by unfold State.message; split <;> (try split) <;> rfl
@[simp] theorem message_stampLoss : (s.message f vec).stampLoss = s.stampLoss := by unfold State.message; split <;> (try split) <;> rfl
@[simp] theorem message_stampRing : (s.message f vec).stampRing = s.stampRing := by unfold State.message; split <;> (try split) <;> rfl
@[simp] theorem message_jrings : (s.message f vec).jrings = s.jrings := by unfold State.message; split <;> (try split) <;> rfl
@[simp] theorem message_lastKey : (s.message f vec).lastKey = s.lastKey := by unfold State.message; split <;> (try split) <;> rfl
@[simp] theorem message_mir : (s.message f vec).mir = s.mir := by unfold State.message; split <;> (try split) <;> rfl
@[simp] theorem message_members : (s.message f vec).members = s.members := by unfold State.message; split <;> (try split) <;> rfl
@[simp] theorem message_frer : (s.message f vec).frer = s.frer := by unfold State.message; split <;> (try split) <;> rfl
@[simp] theorem message_mmLog : (s.message f vec).mmLog = s.mmLog := by unfold State.message; split <;> (try split) <;> rfl
@[simp] theorem message_ats : (s.message f vec).ats = s.ats := by unfold State.message; split <;> (try split) <;> rfl
@[simp] theorem message_xreqs : (s.message f vec).xreqs = s.xreqs := by unfold State.message; split <;> (try split) <;> rfl
@[simp] theorem message_preqs : (s.message f vec).preqs = s.preqs := by unfold State.message; split <;> (try split) <;> rfl
@[simp] theorem message_reads : (s.message f vec).reads = s.reads := by unfold State.message; split <;> (try split) <;> rfl
@[simp] theorem message_nextReq : (s.message f vec).nextReq = s.nextReq := by unfold State.message; split <;> (try split) <;> rfl
@[simp] theorem message_invals : (s.message f vec).invals = s.invals := by unfold State.message; split <;> (try split) <;> rfl
@[simp] theorem message_migFilter : (s.message f vec).migFilter = s.migFilter := by unfold State.message; split <;> (try split) <;> rfl
@[simp] theorem message_lateResponses : (s.message f vec).lateResponses = s.lateResponses := by unfold State.message; split <;> (try split) <;> rfl
@[simp] theorem message_hlinks : (s.message f vec).hlinks = s.hlinks := by unfold State.message; split <;> (try split) <;> rfl
@[simp] theorem message_perst : (s.message f vec).perst = s.perst := by unfold State.message; split <;> (try split) <;> rfl
@[simp] theorem message_bifurcated : (s.message f vec).bifurcated = s.bifurcated := by unfold State.message; split <;> (try split) <;> rfl
@[simp] theorem message_rings : (s.message f vec).rings = s.rings := by unfold State.message; split <;> (try split) <;> rfl
@[simp] theorem message_mbox : (s.message f vec).mbox = s.mbox := by unfold State.message; split <;> (try split) <;> rfl
@[simp] theorem message_adminCmd : (s.message f vec).adminCmd = s.adminCmd := by unfold State.message; split <;> (try split) <;> rfl
@[simp] theorem message_longs : (s.message f vec).longs = s.longs := by unfold State.message; split <;> (try split) <;> rfl
@[simp] theorem message_fwUp : (s.message f vec).fwUp = s.fwUp := by unfold State.message; split <;> (try split) <;> rfl
@[simp] theorem message_recovery : (s.message f vec).recovery = s.recovery := by unfold State.message; split <;> (try split) <;> rfl
@[simp] theorem message_lastTurn : (s.message f vec).lastTurn = s.lastTurn := by unfold State.message; split <;> (try split) <;> rfl
@[simp] theorem message_flr : (s.message f vec).flr = s.flr := by unfold State.message; split <;> (try split) <;> rfl
@[simp] theorem message_quiesceLate : (s.message f vec).quiesceLate = s.quiesceLate := by unfold State.message; split <;> (try split) <;> rfl
@[simp] theorem message_copies : (s.message f vec).copies = s.copies := by unfold State.message; split <;> (try split) <;> rfl
@[simp] theorem message_copyLast : (s.message f vec).copyLast = s.copyLast := by unfold State.message; split <;> (try split) <;> rfl
@[simp] theorem message_copyWin : (s.message f vec).copyWin = s.copyWin := by unfold State.message; split <;> (try split) <;> rfl
@[simp] theorem message_shadow : (s.message f vec).shadow = s.shadow := by unfold State.message; split <;> (try split) <;> rfl
@[simp] theorem message_swaps : (s.message f vec).swaps = s.swaps := by unfold State.message; split <;> (try split) <;> rfl
@[simp] theorem message_worn : (s.message f vec).worn = s.worn := by unfold State.message; split <;> (try split) <;> rfl
@[simp] theorem message_sram : (s.message f vec).sram = s.sram := by unfold State.message; split <;> (try split) <;> rfl
@[simp] theorem message_pll : (s.message f vec).pll = s.pll := by unfold State.message; split <;> (try split) <;> rfl
@[simp] theorem message_cores : (s.message f vec).cores = s.cores := by unfold State.message; split <;> (try split) <;> rfl
@[simp] theorem message_coresLost : (s.message f vec).coresLost = s.coresLost := by unfold State.message; split <;> (try split) <;> rfl
@[simp] theorem message_fatal : (s.message f vec).fatal = s.fatal := by unfold State.message; split <;> (try split) <;> rfl
@[simp] theorem message_fatalBoot : (s.message f vec).fatalBoot = s.fatalBoot := by unfold State.message; split <;> (try split) <;> rfl
@[simp] theorem message_hbm : (s.message f vec).hbm = s.hbm := by unfold State.message; split <;> (try split) <;> rfl
@[simp] theorem message_wear : (s.message f vec).wear = s.wear := by unfold State.message; split <;> (try split) <;> rfl
@[simp] theorem message_wearSaved : (s.message f vec).wearSaved = s.wearSaved := by unfold State.message; split <;> (try split) <;> rfl
@[simp] theorem message_flash : (s.message f vec).flash = s.flash := by unfold State.message; split <;> (try split) <;> rfl
@[simp] theorem message_fwSlot : (s.message f vec).fwSlot = s.fwSlot := by unfold State.message; split <;> (try split) <;> rfl
@[simp] theorem message_flashHolder : (s.message f vec).flashHolder = s.flashHolder := by unfold State.message; split <;> (try split) <;> rfl
@[simp] theorem message_flashAt : (s.message f vec).flashAt = s.flashAt := by unfold State.message; split <;> (try split) <;> rfl
@[simp] theorem message_supply : (s.message f vec).supply = s.supply := by unfold State.message; split <;> (try split) <;> rfl
end messageLaws

section raiseLaws
variable (src : Nat)
@[simp] theorem raise_pending : (s.raise src).pending = s.pending := by unfold State.raise; dsimp only; split <;> (try split) <;> simp
@[simp] theorem raise_now : (s.raise src).now = s.now := by unfold State.raise; dsimp only; split <;> (try split) <;> simp
@[simp] theorem raise_free : (s.raise src).free = s.free := by unfold State.raise; dsimp only; split <;> (try split) <;> simp
@[simp] theorem raise_latches : (s.raise src).latches = s.latches := by unfold State.raise; dsimp only; split <;> (try split) <;> simp
@[simp] theorem raise_lastRaise : (s.raise src).lastRaise = s.lastRaise := by unfold State.raise; dsimp only; split <;> (try split) <;> simp
@[simp] theorem raise_fns : (s.raise src).fns = s.fns := by unfold State.raise; dsimp only; split <;> (try split) <;> simp
@[simp] theorem raise_manager : (s.raise src).manager = s.manager := by unfold State.raise; dsimp only; split <;> (try split) <;> simp
@[simp] theorem raise_journal : (s.raise src).journal = s.journal := by unfold State.raise; dsimp only; split <;> (try split) <;> simp
@[simp] theorem raise_fenced : (s.raise src).fenced = s.fenced := by unfold State.raise; dsimp only; split <;> (try split) <;> simp
@[simp] theorem raise_fenceLog : (s.raise src).fenceLog = s.fenceLog := by unfold State.raise; dsimp only; split <;> (try split) <;> simp
@[simp] theorem raise_fwLog : (s.raise src).fwLog = s.fwLog := by unfold State.raise; dsimp only; split <;> (try split) <;> simp
@[simp] theorem raise_fwLogLost : (s.raise src).fwLogLost = s.fwLogLost := by unfold State.raise; dsimp only; split <;> (try split) <;> simp
@[simp] theorem raise_time : (s.raise src).time = s.time := by unfold State.raise; dsimp only; split <;> (try split) <;> simp
@[simp] theorem raise_tsu : (s.raise src).tsu = s.tsu := by unfold State.raise; dsimp only; split <;> (try split) <;> simp
@[simp] theorem raise_oven : (s.raise src).oven = s.oven := by unfold State.raise; dsimp only; split <;> (try split) <;> simp
@[simp] theorem raise_holds : (s.raise src).holds = s.holds := by unfold State.raise; dsimp only; split <;> (try split) <;> simp
@[simp] theorem raise_xoff : (s.raise src).xoff = s.xoff := by unfold State.raise; dsimp only; split <;> (try split) <;> simp
@[simp] theorem raise_localFault : (s.raise src).localFault = s.localFault := by unfold State.raise; dsimp only; split <;> (try split) <;> simp
@[simp] theorem raise_verify : (s.raise src).verify = s.verify := by unfold State.raise; dsimp only; split <;> (try split) <;> simp
@[simp] theorem raise_rates : (s.raise src).rates = s.rates := by unfold State.raise; dsimp only; split <;> (try split) <;> simp
@[simp] theorem raise_ncsi : (s.raise src).ncsi = s.ncsi := by unfold State.raise; dsimp only; split <;> (try split) <;> simp
@[simp] theorem raise_pkts : (s.raise src).pkts = s.pkts := by unfold State.raise; dsimp only; split <;> (try split) <;> simp
@[simp] theorem raise_nextPkt : (s.raise src).nextPkt = s.nextPkt := by unfold State.raise; dsimp only; split <;> (try split) <;> simp
@[simp] theorem raise_txNow : (s.raise src).txNow = s.txNow := by unfold State.raise; dsimp only; split <;> (try split) <;> simp
@[simp] theorem raise_discards : (s.raise src).discards = s.discards := by unfold State.raise; dsimp only; split <;> (try split) <;> simp
@[simp] theorem raise_jobs : (s.raise src).jobs = s.jobs := by unfold State.raise; dsimp only; split <;> (try split) <;> simp
@[simp] theorem raise_nextJob : (s.raise src).nextJob = s.nextJob := by unfold State.raise; dsimp only; split <;> (try split) <;> simp
@[simp] theorem raise_ready : (s.raise src).ready = s.ready := by unfold State.raise; dsimp only; split <;> (try split) <;> simp
@[simp] theorem raise_grdStates : (s.raise src).grdStates = s.grdStates := by unfold State.raise; dsimp only; split <;> (try split) <;> simp
@[simp] theorem raise_grdRecog : (s.raise src).grdRecog = s.grdRecog := by unfold State.raise; dsimp only; split <;> (try split) <;> simp
@[simp] theorem raise_grdStart : (s.raise src).grdStart = s.grdStart := by unfold State.raise; dsimp only; split <;> (try split) <;> simp
@[simp] theorem raise_l2 : (s.raise src).l2 = s.l2 := by unfold State.raise; dsimp only; split <;> (try split) <;> simp
@[simp] theorem raise_l2Flight : (s.raise src).l2Flight = s.l2Flight := by unfold State.raise; dsimp only; split <;> (try split) <;> simp
@[simp] theorem raise_sweeps : (s.raise src).sweeps = s.sweeps := by unfold State.raise; dsimp only; split <;> (try split) <;> simp
@[simp] theorem raise_flow : (s.raise src).flow = s.flow := by unfold State.raise; dsimp only; split <;> (try split) <;> simp
@[simp] theorem raise_flowCache : (s.raise src).flowCache = s.flowCache := by unfold State.raise; dsimp only; split <;> (try split) <;> simp
@[simp] theorem raise_lpm : (s.raise src).lpm = s.lpm := by unfold State.raise; dsimp only; split <;> (try split) <;> simp
@[simp] theorem raise_threads : (s.raise src).threads = s.threads := by unfold State.raise; dsimp only; split <;> (try split) <;> simp
@[simp] theorem raise_clusters : (s.raise src).clusters = s.clusters := by unfold State.raise; dsimp only; split <;> (try split) <;> simp
@[simp] theorem raise_lastCluster : (s.raise src).lastCluster = s.lastCluster := by unfold State.raise; dsimp only; split <;> (try split) <;> simp
@[simp] theorem raise_nextSeq : (s.raise src).nextSeq = s.nextSeq := by unfold State.raise; dsimp only; split <;> (try split) <;> simp
@[simp] theorem raise_order : (s.raise src).order = s.order := by unfold State.raise; dsimp only; split <;> (try split) <;> simp
@[simp] theorem raise_barista : (s.raise src).barista = s.barista := by unfold State.raise; dsimp only; split <;> (try split) <;> simp
@[simp] theorem raise_dispatchQ : (s.raise src).dispatchQ = s.dispatchQ := by unfold State.raise; dsimp only; split <;> (try split) <;> simp
@[simp] theorem raise_chan : (s.raise src).chan = s.chan := by unfold State.raise; dsimp only; split <;> (try split) <;> simp
@[simp] theorem raise_dropReasons : (s.raise src).dropReasons = s.dropReasons := by unfold State.raise; dsimp only; split <;> (try split) <;> simp
@[simp] theorem raise_watch : (s.raise src).watch = s.watch := by unfold State.raise; dsimp only; split <;> (try split) <;> simp
@[simp] theorem raise_cs : (s.raise src).cs = s.cs := by unfold State.raise; dsimp only; split <;> (try split) <;> simp
@[simp] theorem raise_csBad : (s.raise src).csBad = s.csBad := by unfold State.raise; dsimp only; split <;> (try split) <;> simp
@[simp] theorem raise_banks : (s.raise src).banks = s.banks := by unfold State.raise; dsimp only; split <;> (try split) <;> simp
@[simp] theorem raise_nextRegion : (s.raise src).nextRegion = s.nextRegion := by unfold State.raise; dsimp only; split <;> (try split) <;> simp
@[simp] theorem raise_localMem : (s.raise src).localMem = s.localMem := by unfold State.raise; dsimp only; split <;> (try split) <;> simp
@[simp] theorem raise_tsram : (s.raise src).tsram = s.tsram := by unfold State.raise; dsimp only; split <;> (try split) <;> simp
@[simp] theorem raise_hbmMem : (s.raise src).hbmMem = s.hbmMem := by unfold State.raise; dsimp only; split <;> (try split) <;> simp
@[simp] theorem raise_espSas : (s.raise src).espSas = s.espSas := by unfold State.raise; dsimp only; split <;> (try split) <;> simp
@[simp] theorem raise_sessions : (s.raise src).sessions = s.sessions := by unfold State.raise; dsimp only; split <;> (try split) <;> simp
@[simp] theorem raise_macsec : (s.raise src).macsec = s.macsec := by unfold State.raise; dsimp only; split <;> (try split) <;> simp
@[simp] theorem raise_places : (s.raise src).places = s.places := by unfold State.raise; dsimp only; split <;> (try split) <;> simp
@[simp] theorem raise_oflNotes : (s.raise src).oflNotes = s.oflNotes := by unfold State.raise; dsimp only; split <;> (try split) <;> simp
@[simp] theorem raise_outerId : (s.raise src).outerId = s.outerId := by unfold State.raise; dsimp only; split <;> (try split) <;> simp
@[simp] theorem raise_nodes : (s.raise src).nodes = s.nodes := by unfold State.raise; dsimp only; split <;> (try split) <;> simp
@[simp] theorem raise_mcast : (s.raise src).mcast = s.mcast := by unfold State.raise; dsimp only; split <;> (try split) <;> simp
@[simp] theorem raise_obs : (s.raise src).obs = s.obs := by unfold State.raise; dsimp only; split <;> (try split) <;> simp
@[simp] theorem raise_gclStaged : (s.raise src).gclStaged = s.gclStaged := by unfold State.raise; dsimp only; split <;> (try split) <;> simp
@[simp] theorem raise_gclPending : (s.raise src).gclPending = s.gclPending := by unfold State.raise; dsimp only; split <;> (try split) <;> simp
@[simp] theorem raise_groupsAdmin : (s.raise src).groupsAdmin = s.groupsAdmin := by unfold State.raise; dsimp only; split <;> (try split) <;> simp
@[simp] theorem raise_groupsStaged : (s.raise src).groupsStaged = s.groupsStaged := by unfold State.raise; dsimp only; split <;> (try split) <;> simp
@[simp] theorem raise_groupsOper : (s.raise src).groupsOper = s.groupsOper := by unfold State.raise; dsimp only; split <;> (try split) <;> simp
@[simp] theorem raise_groupsOld : (s.raise src).groupsOld = s.groupsOld := by unfold State.raise; dsimp only; split <;> (try split) <;> simp
@[simp] theorem raise_buckets : (s.raise src).buckets = s.buckets := by unfold State.raise; dsimp only; split <;> (try split) <;> simp
@[simp] theorem raise_rxSeq : (s.raise src).rxSeq = s.rxSeq := by unfold State.raise; dsimp only; split <;> (try split) <;> simp
@[simp] theorem raise_hostSeq : (s.raise src).hostSeq = s.hostSeq := by unfold State.raise; dsimp only; split <;> (try split) <;> simp
@[simp] theorem raise_txSeq : (s.raise src).txSeq = s.txSeq := by unfold State.raise; dsimp only; split <;> (try split) <;> simp
@[simp] theorem raise_stampFifo : (s.raise src).stampFifo = s.stampFifo := by unfold State.raise; dsimp only; split <;> (try split) <;> simp
@[simp] theorem raise_stampLoss : (s.raise src).stampLoss = s.stampLoss := by unfold State.raise; dsimp only; split <;> (try split) <;> simp
@[simp] theorem raise_stampRing : (s.raise src).stampRing = s.stampRing := by unfold State.raise; dsimp only; split <;> (try split) <;> simp
@[simp] theorem raise_jrings : (s.raise src).jrings = s.jrings := by unfold State.raise; dsimp only; split <;> (try split) <;> simp
@[simp] theorem raise_lastKey : (s.raise src).lastKey = s.lastKey := by unfold State.raise; dsimp only; split <;> (try split) <;> simp
@[simp] theorem raise_mir : (s.raise src).mir = s.mir := by unfold State.raise; dsimp only; split <;> (try split) <;> simp
@[simp] theorem raise_members : (s.raise src).members = s.members := by unfold State.raise; dsimp only; split <;> (try split) <;> simp
@[simp] theorem raise_frer : (s.raise src).frer = s.frer := by unfold State.raise; dsimp only; split <;> (try split) <;> simp
@[simp] theorem raise_mmLog : (s.raise src).mmLog = s.mmLog := by unfold State.raise; dsimp only; split <;> (try split) <;> simp
@[simp] theorem raise_ats : (s.raise src).ats = s.ats := by unfold State.raise; dsimp only; split <;> (try split) <;> simp
@[simp] theorem raise_xreqs : (s.raise src).xreqs = s.xreqs := by unfold State.raise; dsimp only; split <;> (try split) <;> simp
@[simp] theorem raise_preqs : (s.raise src).preqs = s.preqs := by unfold State.raise; dsimp only; split <;> (try split) <;> simp
@[simp] theorem raise_reads : (s.raise src).reads = s.reads := by unfold State.raise; dsimp only; split <;> (try split) <;> simp
@[simp] theorem raise_nextReq : (s.raise src).nextReq = s.nextReq := by unfold State.raise; dsimp only; split <;> (try split) <;> simp
@[simp] theorem raise_invals : (s.raise src).invals = s.invals := by unfold State.raise; dsimp only; split <;> (try split) <;> simp
@[simp] theorem raise_migFilter : (s.raise src).migFilter = s.migFilter := by unfold State.raise; dsimp only; split <;> (try split) <;> simp
@[simp] theorem raise_lateResponses : (s.raise src).lateResponses = s.lateResponses := by unfold State.raise; dsimp only; split <;> (try split) <;> simp
@[simp] theorem raise_hlinks : (s.raise src).hlinks = s.hlinks := by unfold State.raise; dsimp only; split <;> (try split) <;> simp
@[simp] theorem raise_perst : (s.raise src).perst = s.perst := by unfold State.raise; dsimp only; split <;> (try split) <;> simp
@[simp] theorem raise_bifurcated : (s.raise src).bifurcated = s.bifurcated := by unfold State.raise; dsimp only; split <;> (try split) <;> simp
@[simp] theorem raise_rings : (s.raise src).rings = s.rings := by unfold State.raise; dsimp only; split <;> (try split) <;> simp
@[simp] theorem raise_mbox : (s.raise src).mbox = s.mbox := by unfold State.raise; dsimp only; split <;> (try split) <;> simp
@[simp] theorem raise_adminCmd : (s.raise src).adminCmd = s.adminCmd := by unfold State.raise; dsimp only; split <;> (try split) <;> simp
@[simp] theorem raise_longs : (s.raise src).longs = s.longs := by unfold State.raise; dsimp only; split <;> (try split) <;> simp
@[simp] theorem raise_fwUp : (s.raise src).fwUp = s.fwUp := by unfold State.raise; dsimp only; split <;> (try split) <;> simp
@[simp] theorem raise_recovery : (s.raise src).recovery = s.recovery := by unfold State.raise; dsimp only; split <;> (try split) <;> simp
@[simp] theorem raise_lastTurn : (s.raise src).lastTurn = s.lastTurn := by unfold State.raise; dsimp only; split <;> (try split) <;> simp
@[simp] theorem raise_flr : (s.raise src).flr = s.flr := by unfold State.raise; dsimp only; split <;> (try split) <;> simp
@[simp] theorem raise_quiesceLate : (s.raise src).quiesceLate = s.quiesceLate := by unfold State.raise; dsimp only; split <;> (try split) <;> simp
@[simp] theorem raise_copies : (s.raise src).copies = s.copies := by unfold State.raise; dsimp only; split <;> (try split) <;> simp
@[simp] theorem raise_copyLast : (s.raise src).copyLast = s.copyLast := by unfold State.raise; dsimp only; split <;> (try split) <;> simp
@[simp] theorem raise_copyWin : (s.raise src).copyWin = s.copyWin := by unfold State.raise; dsimp only; split <;> (try split) <;> simp
@[simp] theorem raise_shadow : (s.raise src).shadow = s.shadow := by unfold State.raise; dsimp only; split <;> (try split) <;> simp
@[simp] theorem raise_swaps : (s.raise src).swaps = s.swaps := by unfold State.raise; dsimp only; split <;> (try split) <;> simp
@[simp] theorem raise_worn : (s.raise src).worn = s.worn := by unfold State.raise; dsimp only; split <;> (try split) <;> simp
@[simp] theorem raise_sram : (s.raise src).sram = s.sram := by unfold State.raise; dsimp only; split <;> (try split) <;> simp
@[simp] theorem raise_pll : (s.raise src).pll = s.pll := by unfold State.raise; dsimp only; split <;> (try split) <;> simp
@[simp] theorem raise_cores : (s.raise src).cores = s.cores := by unfold State.raise; dsimp only; split <;> (try split) <;> simp
@[simp] theorem raise_coresLost : (s.raise src).coresLost = s.coresLost := by unfold State.raise; dsimp only; split <;> (try split) <;> simp
@[simp] theorem raise_fatal : (s.raise src).fatal = s.fatal := by unfold State.raise; dsimp only; split <;> (try split) <;> simp
@[simp] theorem raise_fatalBoot : (s.raise src).fatalBoot = s.fatalBoot := by unfold State.raise; dsimp only; split <;> (try split) <;> simp
@[simp] theorem raise_hbm : (s.raise src).hbm = s.hbm := by unfold State.raise; dsimp only; split <;> (try split) <;> simp
@[simp] theorem raise_wear : (s.raise src).wear = s.wear := by unfold State.raise; dsimp only; split <;> (try split) <;> simp
@[simp] theorem raise_wearSaved : (s.raise src).wearSaved = s.wearSaved := by unfold State.raise; dsimp only; split <;> (try split) <;> simp
@[simp] theorem raise_flash : (s.raise src).flash = s.flash := by unfold State.raise; dsimp only; split <;> (try split) <;> simp
@[simp] theorem raise_fwSlot : (s.raise src).fwSlot = s.fwSlot := by unfold State.raise; dsimp only; split <;> (try split) <;> simp
@[simp] theorem raise_flashHolder : (s.raise src).flashHolder = s.flashHolder := by unfold State.raise; dsimp only; split <;> (try split) <;> simp
@[simp] theorem raise_flashAt : (s.raise src).flashAt = s.flashAt := by unfold State.raise; dsimp only; split <;> (try split) <;> simp
@[simp] theorem raise_supply : (s.raise src).supply = s.supply := by unfold State.raise; dsimp only; split <;> (try split) <;> simp
end raiseLaws

section raiseLimitedLaws
variable (src key interval : Nat)
@[simp] theorem raiseLimited_pending : (s.raiseLimited src key interval).pending = s.pending := by unfold State.raiseLimited; split <;> (try split) <;> simp
@[simp] theorem raiseLimited_now : (s.raiseLimited src key interval).now = s.now := by unfold State.raiseLimited; split <;> (try split) <;> simp
@[simp] theorem raiseLimited_free : (s.raiseLimited src key interval).free = s.free := by unfold State.raiseLimited; split <;> (try split) <;> simp
@[simp] theorem raiseLimited_latches : (s.raiseLimited src key interval).latches = s.latches := by unfold State.raiseLimited; split <;> (try split) <;> simp
@[simp] theorem raiseLimited_fns : (s.raiseLimited src key interval).fns = s.fns := by unfold State.raiseLimited; split <;> (try split) <;> simp
@[simp] theorem raiseLimited_manager : (s.raiseLimited src key interval).manager = s.manager := by unfold State.raiseLimited; split <;> (try split) <;> simp
@[simp] theorem raiseLimited_journal : (s.raiseLimited src key interval).journal = s.journal := by unfold State.raiseLimited; split <;> (try split) <;> simp
@[simp] theorem raiseLimited_fenced : (s.raiseLimited src key interval).fenced = s.fenced := by unfold State.raiseLimited; split <;> (try split) <;> simp
@[simp] theorem raiseLimited_fenceLog : (s.raiseLimited src key interval).fenceLog = s.fenceLog := by unfold State.raiseLimited; split <;> (try split) <;> simp
@[simp] theorem raiseLimited_fwLog : (s.raiseLimited src key interval).fwLog = s.fwLog := by unfold State.raiseLimited; split <;> (try split) <;> simp
@[simp] theorem raiseLimited_fwLogLost : (s.raiseLimited src key interval).fwLogLost = s.fwLogLost := by unfold State.raiseLimited; split <;> (try split) <;> simp
@[simp] theorem raiseLimited_time : (s.raiseLimited src key interval).time = s.time := by unfold State.raiseLimited; split <;> (try split) <;> simp
@[simp] theorem raiseLimited_tsu : (s.raiseLimited src key interval).tsu = s.tsu := by unfold State.raiseLimited; split <;> (try split) <;> simp
@[simp] theorem raiseLimited_oven : (s.raiseLimited src key interval).oven = s.oven := by unfold State.raiseLimited; split <;> (try split) <;> simp
@[simp] theorem raiseLimited_holds : (s.raiseLimited src key interval).holds = s.holds := by unfold State.raiseLimited; split <;> (try split) <;> simp
@[simp] theorem raiseLimited_xoff : (s.raiseLimited src key interval).xoff = s.xoff := by unfold State.raiseLimited; split <;> (try split) <;> simp
@[simp] theorem raiseLimited_localFault : (s.raiseLimited src key interval).localFault = s.localFault := by unfold State.raiseLimited; split <;> (try split) <;> simp
@[simp] theorem raiseLimited_verify : (s.raiseLimited src key interval).verify = s.verify := by unfold State.raiseLimited; split <;> (try split) <;> simp
@[simp] theorem raiseLimited_rates : (s.raiseLimited src key interval).rates = s.rates := by unfold State.raiseLimited; split <;> (try split) <;> simp
@[simp] theorem raiseLimited_ncsi : (s.raiseLimited src key interval).ncsi = s.ncsi := by unfold State.raiseLimited; split <;> (try split) <;> simp
@[simp] theorem raiseLimited_pkts : (s.raiseLimited src key interval).pkts = s.pkts := by unfold State.raiseLimited; split <;> (try split) <;> simp
@[simp] theorem raiseLimited_nextPkt : (s.raiseLimited src key interval).nextPkt = s.nextPkt := by unfold State.raiseLimited; split <;> (try split) <;> simp
@[simp] theorem raiseLimited_txNow : (s.raiseLimited src key interval).txNow = s.txNow := by unfold State.raiseLimited; split <;> (try split) <;> simp
@[simp] theorem raiseLimited_discards : (s.raiseLimited src key interval).discards = s.discards := by unfold State.raiseLimited; split <;> (try split) <;> simp
@[simp] theorem raiseLimited_jobs : (s.raiseLimited src key interval).jobs = s.jobs := by unfold State.raiseLimited; split <;> (try split) <;> simp
@[simp] theorem raiseLimited_nextJob : (s.raiseLimited src key interval).nextJob = s.nextJob := by unfold State.raiseLimited; split <;> (try split) <;> simp
@[simp] theorem raiseLimited_ready : (s.raiseLimited src key interval).ready = s.ready := by unfold State.raiseLimited; split <;> (try split) <;> simp
@[simp] theorem raiseLimited_grdStates : (s.raiseLimited src key interval).grdStates = s.grdStates := by unfold State.raiseLimited; split <;> (try split) <;> simp
@[simp] theorem raiseLimited_grdRecog : (s.raiseLimited src key interval).grdRecog = s.grdRecog := by unfold State.raiseLimited; split <;> (try split) <;> simp
@[simp] theorem raiseLimited_grdStart : (s.raiseLimited src key interval).grdStart = s.grdStart := by unfold State.raiseLimited; split <;> (try split) <;> simp
@[simp] theorem raiseLimited_l2 : (s.raiseLimited src key interval).l2 = s.l2 := by unfold State.raiseLimited; split <;> (try split) <;> simp
@[simp] theorem raiseLimited_l2Flight : (s.raiseLimited src key interval).l2Flight = s.l2Flight := by unfold State.raiseLimited; split <;> (try split) <;> simp
@[simp] theorem raiseLimited_sweeps : (s.raiseLimited src key interval).sweeps = s.sweeps := by unfold State.raiseLimited; split <;> (try split) <;> simp
@[simp] theorem raiseLimited_flow : (s.raiseLimited src key interval).flow = s.flow := by unfold State.raiseLimited; split <;> (try split) <;> simp
@[simp] theorem raiseLimited_flowCache : (s.raiseLimited src key interval).flowCache = s.flowCache := by unfold State.raiseLimited; split <;> (try split) <;> simp
@[simp] theorem raiseLimited_lpm : (s.raiseLimited src key interval).lpm = s.lpm := by unfold State.raiseLimited; split <;> (try split) <;> simp
@[simp] theorem raiseLimited_threads : (s.raiseLimited src key interval).threads = s.threads := by unfold State.raiseLimited; split <;> (try split) <;> simp
@[simp] theorem raiseLimited_clusters : (s.raiseLimited src key interval).clusters = s.clusters := by unfold State.raiseLimited; split <;> (try split) <;> simp
@[simp] theorem raiseLimited_lastCluster : (s.raiseLimited src key interval).lastCluster = s.lastCluster := by unfold State.raiseLimited; split <;> (try split) <;> simp
@[simp] theorem raiseLimited_nextSeq : (s.raiseLimited src key interval).nextSeq = s.nextSeq := by unfold State.raiseLimited; split <;> (try split) <;> simp
@[simp] theorem raiseLimited_order : (s.raiseLimited src key interval).order = s.order := by unfold State.raiseLimited; split <;> (try split) <;> simp
@[simp] theorem raiseLimited_barista : (s.raiseLimited src key interval).barista = s.barista := by unfold State.raiseLimited; split <;> (try split) <;> simp
@[simp] theorem raiseLimited_dispatchQ : (s.raiseLimited src key interval).dispatchQ = s.dispatchQ := by unfold State.raiseLimited; split <;> (try split) <;> simp
@[simp] theorem raiseLimited_chan : (s.raiseLimited src key interval).chan = s.chan := by unfold State.raiseLimited; split <;> (try split) <;> simp
@[simp] theorem raiseLimited_dropReasons : (s.raiseLimited src key interval).dropReasons = s.dropReasons := by unfold State.raiseLimited; split <;> (try split) <;> simp
@[simp] theorem raiseLimited_watch : (s.raiseLimited src key interval).watch = s.watch := by unfold State.raiseLimited; split <;> (try split) <;> simp
@[simp] theorem raiseLimited_cs : (s.raiseLimited src key interval).cs = s.cs := by unfold State.raiseLimited; split <;> (try split) <;> simp
@[simp] theorem raiseLimited_csBad : (s.raiseLimited src key interval).csBad = s.csBad := by unfold State.raiseLimited; split <;> (try split) <;> simp
@[simp] theorem raiseLimited_banks : (s.raiseLimited src key interval).banks = s.banks := by unfold State.raiseLimited; split <;> (try split) <;> simp
@[simp] theorem raiseLimited_nextRegion : (s.raiseLimited src key interval).nextRegion = s.nextRegion := by unfold State.raiseLimited; split <;> (try split) <;> simp
@[simp] theorem raiseLimited_localMem : (s.raiseLimited src key interval).localMem = s.localMem := by unfold State.raiseLimited; split <;> (try split) <;> simp
@[simp] theorem raiseLimited_tsram : (s.raiseLimited src key interval).tsram = s.tsram := by unfold State.raiseLimited; split <;> (try split) <;> simp
@[simp] theorem raiseLimited_hbmMem : (s.raiseLimited src key interval).hbmMem = s.hbmMem := by unfold State.raiseLimited; split <;> (try split) <;> simp
@[simp] theorem raiseLimited_espSas : (s.raiseLimited src key interval).espSas = s.espSas := by unfold State.raiseLimited; split <;> (try split) <;> simp
@[simp] theorem raiseLimited_sessions : (s.raiseLimited src key interval).sessions = s.sessions := by unfold State.raiseLimited; split <;> (try split) <;> simp
@[simp] theorem raiseLimited_macsec : (s.raiseLimited src key interval).macsec = s.macsec := by unfold State.raiseLimited; split <;> (try split) <;> simp
@[simp] theorem raiseLimited_places : (s.raiseLimited src key interval).places = s.places := by unfold State.raiseLimited; split <;> (try split) <;> simp
@[simp] theorem raiseLimited_oflNotes : (s.raiseLimited src key interval).oflNotes = s.oflNotes := by unfold State.raiseLimited; split <;> (try split) <;> simp
@[simp] theorem raiseLimited_outerId : (s.raiseLimited src key interval).outerId = s.outerId := by unfold State.raiseLimited; split <;> (try split) <;> simp
@[simp] theorem raiseLimited_nodes : (s.raiseLimited src key interval).nodes = s.nodes := by unfold State.raiseLimited; split <;> (try split) <;> simp
@[simp] theorem raiseLimited_mcast : (s.raiseLimited src key interval).mcast = s.mcast := by unfold State.raiseLimited; split <;> (try split) <;> simp
@[simp] theorem raiseLimited_obs : (s.raiseLimited src key interval).obs = s.obs := by unfold State.raiseLimited; split <;> (try split) <;> simp
@[simp] theorem raiseLimited_gclStaged : (s.raiseLimited src key interval).gclStaged = s.gclStaged := by unfold State.raiseLimited; split <;> (try split) <;> simp
@[simp] theorem raiseLimited_gclPending : (s.raiseLimited src key interval).gclPending = s.gclPending := by unfold State.raiseLimited; split <;> (try split) <;> simp
@[simp] theorem raiseLimited_groupsAdmin : (s.raiseLimited src key interval).groupsAdmin = s.groupsAdmin := by unfold State.raiseLimited; split <;> (try split) <;> simp
@[simp] theorem raiseLimited_groupsStaged : (s.raiseLimited src key interval).groupsStaged = s.groupsStaged := by unfold State.raiseLimited; split <;> (try split) <;> simp
@[simp] theorem raiseLimited_groupsOper : (s.raiseLimited src key interval).groupsOper = s.groupsOper := by unfold State.raiseLimited; split <;> (try split) <;> simp
@[simp] theorem raiseLimited_groupsOld : (s.raiseLimited src key interval).groupsOld = s.groupsOld := by unfold State.raiseLimited; split <;> (try split) <;> simp
@[simp] theorem raiseLimited_buckets : (s.raiseLimited src key interval).buckets = s.buckets := by unfold State.raiseLimited; split <;> (try split) <;> simp
@[simp] theorem raiseLimited_rxSeq : (s.raiseLimited src key interval).rxSeq = s.rxSeq := by unfold State.raiseLimited; split <;> (try split) <;> simp
@[simp] theorem raiseLimited_hostSeq : (s.raiseLimited src key interval).hostSeq = s.hostSeq := by unfold State.raiseLimited; split <;> (try split) <;> simp
@[simp] theorem raiseLimited_txSeq : (s.raiseLimited src key interval).txSeq = s.txSeq := by unfold State.raiseLimited; split <;> (try split) <;> simp
@[simp] theorem raiseLimited_stampFifo : (s.raiseLimited src key interval).stampFifo = s.stampFifo := by unfold State.raiseLimited; split <;> (try split) <;> simp
@[simp] theorem raiseLimited_stampLoss : (s.raiseLimited src key interval).stampLoss = s.stampLoss := by unfold State.raiseLimited; split <;> (try split) <;> simp
@[simp] theorem raiseLimited_stampRing : (s.raiseLimited src key interval).stampRing = s.stampRing := by unfold State.raiseLimited; split <;> (try split) <;> simp
@[simp] theorem raiseLimited_jrings : (s.raiseLimited src key interval).jrings = s.jrings := by unfold State.raiseLimited; split <;> (try split) <;> simp
@[simp] theorem raiseLimited_lastKey : (s.raiseLimited src key interval).lastKey = s.lastKey := by unfold State.raiseLimited; split <;> (try split) <;> simp
@[simp] theorem raiseLimited_mir : (s.raiseLimited src key interval).mir = s.mir := by unfold State.raiseLimited; split <;> (try split) <;> simp
@[simp] theorem raiseLimited_members : (s.raiseLimited src key interval).members = s.members := by unfold State.raiseLimited; split <;> (try split) <;> simp
@[simp] theorem raiseLimited_frer : (s.raiseLimited src key interval).frer = s.frer := by unfold State.raiseLimited; split <;> (try split) <;> simp
@[simp] theorem raiseLimited_mmLog : (s.raiseLimited src key interval).mmLog = s.mmLog := by unfold State.raiseLimited; split <;> (try split) <;> simp
@[simp] theorem raiseLimited_ats : (s.raiseLimited src key interval).ats = s.ats := by unfold State.raiseLimited; split <;> (try split) <;> simp
@[simp] theorem raiseLimited_xreqs : (s.raiseLimited src key interval).xreqs = s.xreqs := by unfold State.raiseLimited; split <;> (try split) <;> simp
@[simp] theorem raiseLimited_preqs : (s.raiseLimited src key interval).preqs = s.preqs := by unfold State.raiseLimited; split <;> (try split) <;> simp
@[simp] theorem raiseLimited_reads : (s.raiseLimited src key interval).reads = s.reads := by unfold State.raiseLimited; split <;> (try split) <;> simp
@[simp] theorem raiseLimited_nextReq : (s.raiseLimited src key interval).nextReq = s.nextReq := by unfold State.raiseLimited; split <;> (try split) <;> simp
@[simp] theorem raiseLimited_invals : (s.raiseLimited src key interval).invals = s.invals := by unfold State.raiseLimited; split <;> (try split) <;> simp
@[simp] theorem raiseLimited_migFilter : (s.raiseLimited src key interval).migFilter = s.migFilter := by unfold State.raiseLimited; split <;> (try split) <;> simp
@[simp] theorem raiseLimited_lateResponses : (s.raiseLimited src key interval).lateResponses = s.lateResponses := by unfold State.raiseLimited; split <;> (try split) <;> simp
@[simp] theorem raiseLimited_hlinks : (s.raiseLimited src key interval).hlinks = s.hlinks := by unfold State.raiseLimited; split <;> (try split) <;> simp
@[simp] theorem raiseLimited_perst : (s.raiseLimited src key interval).perst = s.perst := by unfold State.raiseLimited; split <;> (try split) <;> simp
@[simp] theorem raiseLimited_bifurcated : (s.raiseLimited src key interval).bifurcated = s.bifurcated := by unfold State.raiseLimited; split <;> (try split) <;> simp
@[simp] theorem raiseLimited_rings : (s.raiseLimited src key interval).rings = s.rings := by unfold State.raiseLimited; split <;> (try split) <;> simp
@[simp] theorem raiseLimited_mbox : (s.raiseLimited src key interval).mbox = s.mbox := by unfold State.raiseLimited; split <;> (try split) <;> simp
@[simp] theorem raiseLimited_adminCmd : (s.raiseLimited src key interval).adminCmd = s.adminCmd := by unfold State.raiseLimited; split <;> (try split) <;> simp
@[simp] theorem raiseLimited_longs : (s.raiseLimited src key interval).longs = s.longs := by unfold State.raiseLimited; split <;> (try split) <;> simp
@[simp] theorem raiseLimited_fwUp : (s.raiseLimited src key interval).fwUp = s.fwUp := by unfold State.raiseLimited; split <;> (try split) <;> simp
@[simp] theorem raiseLimited_recovery : (s.raiseLimited src key interval).recovery = s.recovery := by unfold State.raiseLimited; split <;> (try split) <;> simp
@[simp] theorem raiseLimited_lastTurn : (s.raiseLimited src key interval).lastTurn = s.lastTurn := by unfold State.raiseLimited; split <;> (try split) <;> simp
@[simp] theorem raiseLimited_flr : (s.raiseLimited src key interval).flr = s.flr := by unfold State.raiseLimited; split <;> (try split) <;> simp
@[simp] theorem raiseLimited_quiesceLate : (s.raiseLimited src key interval).quiesceLate = s.quiesceLate := by unfold State.raiseLimited; split <;> (try split) <;> simp
@[simp] theorem raiseLimited_copies : (s.raiseLimited src key interval).copies = s.copies := by unfold State.raiseLimited; split <;> (try split) <;> simp
@[simp] theorem raiseLimited_copyLast : (s.raiseLimited src key interval).copyLast = s.copyLast := by unfold State.raiseLimited; split <;> (try split) <;> simp
@[simp] theorem raiseLimited_copyWin : (s.raiseLimited src key interval).copyWin = s.copyWin := by unfold State.raiseLimited; split <;> (try split) <;> simp
@[simp] theorem raiseLimited_shadow : (s.raiseLimited src key interval).shadow = s.shadow := by unfold State.raiseLimited; split <;> (try split) <;> simp
@[simp] theorem raiseLimited_swaps : (s.raiseLimited src key interval).swaps = s.swaps := by unfold State.raiseLimited; split <;> (try split) <;> simp
@[simp] theorem raiseLimited_worn : (s.raiseLimited src key interval).worn = s.worn := by unfold State.raiseLimited; split <;> (try split) <;> simp
@[simp] theorem raiseLimited_sram : (s.raiseLimited src key interval).sram = s.sram := by unfold State.raiseLimited; split <;> (try split) <;> simp
@[simp] theorem raiseLimited_pll : (s.raiseLimited src key interval).pll = s.pll := by unfold State.raiseLimited; split <;> (try split) <;> simp
@[simp] theorem raiseLimited_cores : (s.raiseLimited src key interval).cores = s.cores := by unfold State.raiseLimited; split <;> (try split) <;> simp
@[simp] theorem raiseLimited_coresLost : (s.raiseLimited src key interval).coresLost = s.coresLost := by unfold State.raiseLimited; split <;> (try split) <;> simp
@[simp] theorem raiseLimited_fatal : (s.raiseLimited src key interval).fatal = s.fatal := by unfold State.raiseLimited; split <;> (try split) <;> simp
@[simp] theorem raiseLimited_fatalBoot : (s.raiseLimited src key interval).fatalBoot = s.fatalBoot := by unfold State.raiseLimited; split <;> (try split) <;> simp
@[simp] theorem raiseLimited_hbm : (s.raiseLimited src key interval).hbm = s.hbm := by unfold State.raiseLimited; split <;> (try split) <;> simp
@[simp] theorem raiseLimited_wear : (s.raiseLimited src key interval).wear = s.wear := by unfold State.raiseLimited; split <;> (try split) <;> simp
@[simp] theorem raiseLimited_wearSaved : (s.raiseLimited src key interval).wearSaved = s.wearSaved := by unfold State.raiseLimited; split <;> (try split) <;> simp
@[simp] theorem raiseLimited_flash : (s.raiseLimited src key interval).flash = s.flash := by unfold State.raiseLimited; split <;> (try split) <;> simp
@[simp] theorem raiseLimited_fwSlot : (s.raiseLimited src key interval).fwSlot = s.fwSlot := by unfold State.raiseLimited; split <;> (try split) <;> simp
@[simp] theorem raiseLimited_flashHolder : (s.raiseLimited src key interval).flashHolder = s.flashHolder := by unfold State.raiseLimited; split <;> (try split) <;> simp
@[simp] theorem raiseLimited_flashAt : (s.raiseLimited src key interval).flashAt = s.flashAt := by unfold State.raiseLimited; split <;> (try split) <;> simp
@[simp] theorem raiseLimited_supply : (s.raiseLimited src key interval).supply = s.supply := by unfold State.raiseLimited; split <;> (try split) <;> simp
end raiseLimitedLaws

section raiseMsLaws
variable (src : Nat)
@[simp] theorem raiseMs_pending : (s.raiseMs src).pending = s.pending := by unfold State.raiseMs; simp
@[simp] theorem raiseMs_now : (s.raiseMs src).now = s.now := by unfold State.raiseMs; simp
@[simp] theorem raiseMs_free : (s.raiseMs src).free = s.free := by unfold State.raiseMs; simp
@[simp] theorem raiseMs_latches : (s.raiseMs src).latches = s.latches := by unfold State.raiseMs; simp
@[simp] theorem raiseMs_fns : (s.raiseMs src).fns = s.fns := by unfold State.raiseMs; simp
@[simp] theorem raiseMs_manager : (s.raiseMs src).manager = s.manager := by unfold State.raiseMs; simp
@[simp] theorem raiseMs_journal : (s.raiseMs src).journal = s.journal := by unfold State.raiseMs; simp
@[simp] theorem raiseMs_fenced : (s.raiseMs src).fenced = s.fenced := by unfold State.raiseMs; simp
@[simp] theorem raiseMs_fenceLog : (s.raiseMs src).fenceLog = s.fenceLog := by unfold State.raiseMs; simp
@[simp] theorem raiseMs_fwLog : (s.raiseMs src).fwLog = s.fwLog := by unfold State.raiseMs; simp
@[simp] theorem raiseMs_fwLogLost : (s.raiseMs src).fwLogLost = s.fwLogLost := by unfold State.raiseMs; simp
@[simp] theorem raiseMs_time : (s.raiseMs src).time = s.time := by unfold State.raiseMs; simp
@[simp] theorem raiseMs_tsu : (s.raiseMs src).tsu = s.tsu := by unfold State.raiseMs; simp
@[simp] theorem raiseMs_oven : (s.raiseMs src).oven = s.oven := by unfold State.raiseMs; simp
@[simp] theorem raiseMs_holds : (s.raiseMs src).holds = s.holds := by unfold State.raiseMs; simp
@[simp] theorem raiseMs_xoff : (s.raiseMs src).xoff = s.xoff := by unfold State.raiseMs; simp
@[simp] theorem raiseMs_localFault : (s.raiseMs src).localFault = s.localFault := by unfold State.raiseMs; simp
@[simp] theorem raiseMs_verify : (s.raiseMs src).verify = s.verify := by unfold State.raiseMs; simp
@[simp] theorem raiseMs_rates : (s.raiseMs src).rates = s.rates := by unfold State.raiseMs; simp
@[simp] theorem raiseMs_ncsi : (s.raiseMs src).ncsi = s.ncsi := by unfold State.raiseMs; simp
@[simp] theorem raiseMs_pkts : (s.raiseMs src).pkts = s.pkts := by unfold State.raiseMs; simp
@[simp] theorem raiseMs_nextPkt : (s.raiseMs src).nextPkt = s.nextPkt := by unfold State.raiseMs; simp
@[simp] theorem raiseMs_txNow : (s.raiseMs src).txNow = s.txNow := by unfold State.raiseMs; simp
@[simp] theorem raiseMs_discards : (s.raiseMs src).discards = s.discards := by unfold State.raiseMs; simp
@[simp] theorem raiseMs_jobs : (s.raiseMs src).jobs = s.jobs := by unfold State.raiseMs; simp
@[simp] theorem raiseMs_nextJob : (s.raiseMs src).nextJob = s.nextJob := by unfold State.raiseMs; simp
@[simp] theorem raiseMs_ready : (s.raiseMs src).ready = s.ready := by unfold State.raiseMs; simp
@[simp] theorem raiseMs_grdStates : (s.raiseMs src).grdStates = s.grdStates := by unfold State.raiseMs; simp
@[simp] theorem raiseMs_grdRecog : (s.raiseMs src).grdRecog = s.grdRecog := by unfold State.raiseMs; simp
@[simp] theorem raiseMs_grdStart : (s.raiseMs src).grdStart = s.grdStart := by unfold State.raiseMs; simp
@[simp] theorem raiseMs_l2 : (s.raiseMs src).l2 = s.l2 := by unfold State.raiseMs; simp
@[simp] theorem raiseMs_l2Flight : (s.raiseMs src).l2Flight = s.l2Flight := by unfold State.raiseMs; simp
@[simp] theorem raiseMs_sweeps : (s.raiseMs src).sweeps = s.sweeps := by unfold State.raiseMs; simp
@[simp] theorem raiseMs_flow : (s.raiseMs src).flow = s.flow := by unfold State.raiseMs; simp
@[simp] theorem raiseMs_flowCache : (s.raiseMs src).flowCache = s.flowCache := by unfold State.raiseMs; simp
@[simp] theorem raiseMs_lpm : (s.raiseMs src).lpm = s.lpm := by unfold State.raiseMs; simp
@[simp] theorem raiseMs_threads : (s.raiseMs src).threads = s.threads := by unfold State.raiseMs; simp
@[simp] theorem raiseMs_clusters : (s.raiseMs src).clusters = s.clusters := by unfold State.raiseMs; simp
@[simp] theorem raiseMs_lastCluster : (s.raiseMs src).lastCluster = s.lastCluster := by unfold State.raiseMs; simp
@[simp] theorem raiseMs_nextSeq : (s.raiseMs src).nextSeq = s.nextSeq := by unfold State.raiseMs; simp
@[simp] theorem raiseMs_order : (s.raiseMs src).order = s.order := by unfold State.raiseMs; simp
@[simp] theorem raiseMs_barista : (s.raiseMs src).barista = s.barista := by unfold State.raiseMs; simp
@[simp] theorem raiseMs_dispatchQ : (s.raiseMs src).dispatchQ = s.dispatchQ := by unfold State.raiseMs; simp
@[simp] theorem raiseMs_chan : (s.raiseMs src).chan = s.chan := by unfold State.raiseMs; simp
@[simp] theorem raiseMs_dropReasons : (s.raiseMs src).dropReasons = s.dropReasons := by unfold State.raiseMs; simp
@[simp] theorem raiseMs_watch : (s.raiseMs src).watch = s.watch := by unfold State.raiseMs; simp
@[simp] theorem raiseMs_cs : (s.raiseMs src).cs = s.cs := by unfold State.raiseMs; simp
@[simp] theorem raiseMs_csBad : (s.raiseMs src).csBad = s.csBad := by unfold State.raiseMs; simp
@[simp] theorem raiseMs_banks : (s.raiseMs src).banks = s.banks := by unfold State.raiseMs; simp
@[simp] theorem raiseMs_nextRegion : (s.raiseMs src).nextRegion = s.nextRegion := by unfold State.raiseMs; simp
@[simp] theorem raiseMs_localMem : (s.raiseMs src).localMem = s.localMem := by unfold State.raiseMs; simp
@[simp] theorem raiseMs_tsram : (s.raiseMs src).tsram = s.tsram := by unfold State.raiseMs; simp
@[simp] theorem raiseMs_hbmMem : (s.raiseMs src).hbmMem = s.hbmMem := by unfold State.raiseMs; simp
@[simp] theorem raiseMs_espSas : (s.raiseMs src).espSas = s.espSas := by unfold State.raiseMs; simp
@[simp] theorem raiseMs_sessions : (s.raiseMs src).sessions = s.sessions := by unfold State.raiseMs; simp
@[simp] theorem raiseMs_macsec : (s.raiseMs src).macsec = s.macsec := by unfold State.raiseMs; simp
@[simp] theorem raiseMs_places : (s.raiseMs src).places = s.places := by unfold State.raiseMs; simp
@[simp] theorem raiseMs_oflNotes : (s.raiseMs src).oflNotes = s.oflNotes := by unfold State.raiseMs; simp
@[simp] theorem raiseMs_outerId : (s.raiseMs src).outerId = s.outerId := by unfold State.raiseMs; simp
@[simp] theorem raiseMs_nodes : (s.raiseMs src).nodes = s.nodes := by unfold State.raiseMs; simp
@[simp] theorem raiseMs_mcast : (s.raiseMs src).mcast = s.mcast := by unfold State.raiseMs; simp
@[simp] theorem raiseMs_obs : (s.raiseMs src).obs = s.obs := by unfold State.raiseMs; simp
@[simp] theorem raiseMs_gclStaged : (s.raiseMs src).gclStaged = s.gclStaged := by unfold State.raiseMs; simp
@[simp] theorem raiseMs_gclPending : (s.raiseMs src).gclPending = s.gclPending := by unfold State.raiseMs; simp
@[simp] theorem raiseMs_groupsAdmin : (s.raiseMs src).groupsAdmin = s.groupsAdmin := by unfold State.raiseMs; simp
@[simp] theorem raiseMs_groupsStaged : (s.raiseMs src).groupsStaged = s.groupsStaged := by unfold State.raiseMs; simp
@[simp] theorem raiseMs_groupsOper : (s.raiseMs src).groupsOper = s.groupsOper := by unfold State.raiseMs; simp
@[simp] theorem raiseMs_groupsOld : (s.raiseMs src).groupsOld = s.groupsOld := by unfold State.raiseMs; simp
@[simp] theorem raiseMs_buckets : (s.raiseMs src).buckets = s.buckets := by unfold State.raiseMs; simp
@[simp] theorem raiseMs_rxSeq : (s.raiseMs src).rxSeq = s.rxSeq := by unfold State.raiseMs; simp
@[simp] theorem raiseMs_hostSeq : (s.raiseMs src).hostSeq = s.hostSeq := by unfold State.raiseMs; simp
@[simp] theorem raiseMs_txSeq : (s.raiseMs src).txSeq = s.txSeq := by unfold State.raiseMs; simp
@[simp] theorem raiseMs_stampFifo : (s.raiseMs src).stampFifo = s.stampFifo := by unfold State.raiseMs; simp
@[simp] theorem raiseMs_stampLoss : (s.raiseMs src).stampLoss = s.stampLoss := by unfold State.raiseMs; simp
@[simp] theorem raiseMs_stampRing : (s.raiseMs src).stampRing = s.stampRing := by unfold State.raiseMs; simp
@[simp] theorem raiseMs_jrings : (s.raiseMs src).jrings = s.jrings := by unfold State.raiseMs; simp
@[simp] theorem raiseMs_lastKey : (s.raiseMs src).lastKey = s.lastKey := by unfold State.raiseMs; simp
@[simp] theorem raiseMs_mir : (s.raiseMs src).mir = s.mir := by unfold State.raiseMs; simp
@[simp] theorem raiseMs_members : (s.raiseMs src).members = s.members := by unfold State.raiseMs; simp
@[simp] theorem raiseMs_frer : (s.raiseMs src).frer = s.frer := by unfold State.raiseMs; simp
@[simp] theorem raiseMs_mmLog : (s.raiseMs src).mmLog = s.mmLog := by unfold State.raiseMs; simp
@[simp] theorem raiseMs_ats : (s.raiseMs src).ats = s.ats := by unfold State.raiseMs; simp
@[simp] theorem raiseMs_xreqs : (s.raiseMs src).xreqs = s.xreqs := by unfold State.raiseMs; simp
@[simp] theorem raiseMs_preqs : (s.raiseMs src).preqs = s.preqs := by unfold State.raiseMs; simp
@[simp] theorem raiseMs_reads : (s.raiseMs src).reads = s.reads := by unfold State.raiseMs; simp
@[simp] theorem raiseMs_nextReq : (s.raiseMs src).nextReq = s.nextReq := by unfold State.raiseMs; simp
@[simp] theorem raiseMs_invals : (s.raiseMs src).invals = s.invals := by unfold State.raiseMs; simp
@[simp] theorem raiseMs_migFilter : (s.raiseMs src).migFilter = s.migFilter := by unfold State.raiseMs; simp
@[simp] theorem raiseMs_lateResponses : (s.raiseMs src).lateResponses = s.lateResponses := by unfold State.raiseMs; simp
@[simp] theorem raiseMs_hlinks : (s.raiseMs src).hlinks = s.hlinks := by unfold State.raiseMs; simp
@[simp] theorem raiseMs_perst : (s.raiseMs src).perst = s.perst := by unfold State.raiseMs; simp
@[simp] theorem raiseMs_bifurcated : (s.raiseMs src).bifurcated = s.bifurcated := by unfold State.raiseMs; simp
@[simp] theorem raiseMs_rings : (s.raiseMs src).rings = s.rings := by unfold State.raiseMs; simp
@[simp] theorem raiseMs_mbox : (s.raiseMs src).mbox = s.mbox := by unfold State.raiseMs; simp
@[simp] theorem raiseMs_adminCmd : (s.raiseMs src).adminCmd = s.adminCmd := by unfold State.raiseMs; simp
@[simp] theorem raiseMs_longs : (s.raiseMs src).longs = s.longs := by unfold State.raiseMs; simp
@[simp] theorem raiseMs_fwUp : (s.raiseMs src).fwUp = s.fwUp := by unfold State.raiseMs; simp
@[simp] theorem raiseMs_recovery : (s.raiseMs src).recovery = s.recovery := by unfold State.raiseMs; simp
@[simp] theorem raiseMs_lastTurn : (s.raiseMs src).lastTurn = s.lastTurn := by unfold State.raiseMs; simp
@[simp] theorem raiseMs_flr : (s.raiseMs src).flr = s.flr := by unfold State.raiseMs; simp
@[simp] theorem raiseMs_quiesceLate : (s.raiseMs src).quiesceLate = s.quiesceLate := by unfold State.raiseMs; simp
@[simp] theorem raiseMs_copies : (s.raiseMs src).copies = s.copies := by unfold State.raiseMs; simp
@[simp] theorem raiseMs_copyLast : (s.raiseMs src).copyLast = s.copyLast := by unfold State.raiseMs; simp
@[simp] theorem raiseMs_copyWin : (s.raiseMs src).copyWin = s.copyWin := by unfold State.raiseMs; simp
@[simp] theorem raiseMs_shadow : (s.raiseMs src).shadow = s.shadow := by unfold State.raiseMs; simp
@[simp] theorem raiseMs_swaps : (s.raiseMs src).swaps = s.swaps := by unfold State.raiseMs; simp
@[simp] theorem raiseMs_worn : (s.raiseMs src).worn = s.worn := by unfold State.raiseMs; simp
@[simp] theorem raiseMs_sram : (s.raiseMs src).sram = s.sram := by unfold State.raiseMs; simp
@[simp] theorem raiseMs_pll : (s.raiseMs src).pll = s.pll := by unfold State.raiseMs; simp
@[simp] theorem raiseMs_cores : (s.raiseMs src).cores = s.cores := by unfold State.raiseMs; simp
@[simp] theorem raiseMs_coresLost : (s.raiseMs src).coresLost = s.coresLost := by unfold State.raiseMs; simp
@[simp] theorem raiseMs_fatal : (s.raiseMs src).fatal = s.fatal := by unfold State.raiseMs; simp
@[simp] theorem raiseMs_fatalBoot : (s.raiseMs src).fatalBoot = s.fatalBoot := by unfold State.raiseMs; simp
@[simp] theorem raiseMs_hbm : (s.raiseMs src).hbm = s.hbm := by unfold State.raiseMs; simp
@[simp] theorem raiseMs_wear : (s.raiseMs src).wear = s.wear := by unfold State.raiseMs; simp
@[simp] theorem raiseMs_wearSaved : (s.raiseMs src).wearSaved = s.wearSaved := by unfold State.raiseMs; simp
@[simp] theorem raiseMs_flash : (s.raiseMs src).flash = s.flash := by unfold State.raiseMs; simp
@[simp] theorem raiseMs_fwSlot : (s.raiseMs src).fwSlot = s.fwSlot := by unfold State.raiseMs; simp
@[simp] theorem raiseMs_flashHolder : (s.raiseMs src).flashHolder = s.flashHolder := by unfold State.raiseMs; simp
@[simp] theorem raiseMs_flashAt : (s.raiseMs src).flashAt = s.flashAt := by unfold State.raiseMs; simp
@[simp] theorem raiseMs_supply : (s.raiseMs src).supply = s.supply := by unfold State.raiseMs; simp
end raiseMsLaws

section raiseFnLaws
variable (f : Nat) (fld : Fld)
@[simp] theorem raiseFn_pending : (s.raiseFn f fld).pending = s.pending := by unfold State.raiseFn; split <;> simp
@[simp] theorem raiseFn_now : (s.raiseFn f fld).now = s.now := by unfold State.raiseFn; split <;> simp
@[simp] theorem raiseFn_free : (s.raiseFn f fld).free = s.free := by unfold State.raiseFn; split <;> simp
@[simp] theorem raiseFn_latches : (s.raiseFn f fld).latches = s.latches := by unfold State.raiseFn; split <;> simp
@[simp] theorem raiseFn_lastRaise : (s.raiseFn f fld).lastRaise = s.lastRaise := by unfold State.raiseFn; split <;> simp
@[simp] theorem raiseFn_fns : (s.raiseFn f fld).fns = s.fns := by unfold State.raiseFn; split <;> simp
@[simp] theorem raiseFn_manager : (s.raiseFn f fld).manager = s.manager := by unfold State.raiseFn; split <;> simp
@[simp] theorem raiseFn_journal : (s.raiseFn f fld).journal = s.journal := by unfold State.raiseFn; split <;> simp
@[simp] theorem raiseFn_fenced : (s.raiseFn f fld).fenced = s.fenced := by unfold State.raiseFn; split <;> simp
@[simp] theorem raiseFn_fenceLog : (s.raiseFn f fld).fenceLog = s.fenceLog := by unfold State.raiseFn; split <;> simp
@[simp] theorem raiseFn_fwLog : (s.raiseFn f fld).fwLog = s.fwLog := by unfold State.raiseFn; split <;> simp
@[simp] theorem raiseFn_fwLogLost : (s.raiseFn f fld).fwLogLost = s.fwLogLost := by unfold State.raiseFn; split <;> simp
@[simp] theorem raiseFn_time : (s.raiseFn f fld).time = s.time := by unfold State.raiseFn; split <;> simp
@[simp] theorem raiseFn_tsu : (s.raiseFn f fld).tsu = s.tsu := by unfold State.raiseFn; split <;> simp
@[simp] theorem raiseFn_oven : (s.raiseFn f fld).oven = s.oven := by unfold State.raiseFn; split <;> simp
@[simp] theorem raiseFn_holds : (s.raiseFn f fld).holds = s.holds := by unfold State.raiseFn; split <;> simp
@[simp] theorem raiseFn_xoff : (s.raiseFn f fld).xoff = s.xoff := by unfold State.raiseFn; split <;> simp
@[simp] theorem raiseFn_localFault : (s.raiseFn f fld).localFault = s.localFault := by unfold State.raiseFn; split <;> simp
@[simp] theorem raiseFn_verify : (s.raiseFn f fld).verify = s.verify := by unfold State.raiseFn; split <;> simp
@[simp] theorem raiseFn_rates : (s.raiseFn f fld).rates = s.rates := by unfold State.raiseFn; split <;> simp
@[simp] theorem raiseFn_ncsi : (s.raiseFn f fld).ncsi = s.ncsi := by unfold State.raiseFn; split <;> simp
@[simp] theorem raiseFn_pkts : (s.raiseFn f fld).pkts = s.pkts := by unfold State.raiseFn; split <;> simp
@[simp] theorem raiseFn_nextPkt : (s.raiseFn f fld).nextPkt = s.nextPkt := by unfold State.raiseFn; split <;> simp
@[simp] theorem raiseFn_txNow : (s.raiseFn f fld).txNow = s.txNow := by unfold State.raiseFn; split <;> simp
@[simp] theorem raiseFn_discards : (s.raiseFn f fld).discards = s.discards := by unfold State.raiseFn; split <;> simp
@[simp] theorem raiseFn_jobs : (s.raiseFn f fld).jobs = s.jobs := by unfold State.raiseFn; split <;> simp
@[simp] theorem raiseFn_nextJob : (s.raiseFn f fld).nextJob = s.nextJob := by unfold State.raiseFn; split <;> simp
@[simp] theorem raiseFn_ready : (s.raiseFn f fld).ready = s.ready := by unfold State.raiseFn; split <;> simp
@[simp] theorem raiseFn_grdStates : (s.raiseFn f fld).grdStates = s.grdStates := by unfold State.raiseFn; split <;> simp
@[simp] theorem raiseFn_grdRecog : (s.raiseFn f fld).grdRecog = s.grdRecog := by unfold State.raiseFn; split <;> simp
@[simp] theorem raiseFn_grdStart : (s.raiseFn f fld).grdStart = s.grdStart := by unfold State.raiseFn; split <;> simp
@[simp] theorem raiseFn_l2 : (s.raiseFn f fld).l2 = s.l2 := by unfold State.raiseFn; split <;> simp
@[simp] theorem raiseFn_l2Flight : (s.raiseFn f fld).l2Flight = s.l2Flight := by unfold State.raiseFn; split <;> simp
@[simp] theorem raiseFn_sweeps : (s.raiseFn f fld).sweeps = s.sweeps := by unfold State.raiseFn; split <;> simp
@[simp] theorem raiseFn_flow : (s.raiseFn f fld).flow = s.flow := by unfold State.raiseFn; split <;> simp
@[simp] theorem raiseFn_flowCache : (s.raiseFn f fld).flowCache = s.flowCache := by unfold State.raiseFn; split <;> simp
@[simp] theorem raiseFn_lpm : (s.raiseFn f fld).lpm = s.lpm := by unfold State.raiseFn; split <;> simp
@[simp] theorem raiseFn_threads : (s.raiseFn f fld).threads = s.threads := by unfold State.raiseFn; split <;> simp
@[simp] theorem raiseFn_clusters : (s.raiseFn f fld).clusters = s.clusters := by unfold State.raiseFn; split <;> simp
@[simp] theorem raiseFn_lastCluster : (s.raiseFn f fld).lastCluster = s.lastCluster := by unfold State.raiseFn; split <;> simp
@[simp] theorem raiseFn_nextSeq : (s.raiseFn f fld).nextSeq = s.nextSeq := by unfold State.raiseFn; split <;> simp
@[simp] theorem raiseFn_order : (s.raiseFn f fld).order = s.order := by unfold State.raiseFn; split <;> simp
@[simp] theorem raiseFn_barista : (s.raiseFn f fld).barista = s.barista := by unfold State.raiseFn; split <;> simp
@[simp] theorem raiseFn_dispatchQ : (s.raiseFn f fld).dispatchQ = s.dispatchQ := by unfold State.raiseFn; split <;> simp
@[simp] theorem raiseFn_chan : (s.raiseFn f fld).chan = s.chan := by unfold State.raiseFn; split <;> simp
@[simp] theorem raiseFn_dropReasons : (s.raiseFn f fld).dropReasons = s.dropReasons := by unfold State.raiseFn; split <;> simp
@[simp] theorem raiseFn_watch : (s.raiseFn f fld).watch = s.watch := by unfold State.raiseFn; split <;> simp
@[simp] theorem raiseFn_cs : (s.raiseFn f fld).cs = s.cs := by unfold State.raiseFn; split <;> simp
@[simp] theorem raiseFn_csBad : (s.raiseFn f fld).csBad = s.csBad := by unfold State.raiseFn; split <;> simp
@[simp] theorem raiseFn_banks : (s.raiseFn f fld).banks = s.banks := by unfold State.raiseFn; split <;> simp
@[simp] theorem raiseFn_nextRegion : (s.raiseFn f fld).nextRegion = s.nextRegion := by unfold State.raiseFn; split <;> simp
@[simp] theorem raiseFn_localMem : (s.raiseFn f fld).localMem = s.localMem := by unfold State.raiseFn; split <;> simp
@[simp] theorem raiseFn_tsram : (s.raiseFn f fld).tsram = s.tsram := by unfold State.raiseFn; split <;> simp
@[simp] theorem raiseFn_hbmMem : (s.raiseFn f fld).hbmMem = s.hbmMem := by unfold State.raiseFn; split <;> simp
@[simp] theorem raiseFn_espSas : (s.raiseFn f fld).espSas = s.espSas := by unfold State.raiseFn; split <;> simp
@[simp] theorem raiseFn_sessions : (s.raiseFn f fld).sessions = s.sessions := by unfold State.raiseFn; split <;> simp
@[simp] theorem raiseFn_macsec : (s.raiseFn f fld).macsec = s.macsec := by unfold State.raiseFn; split <;> simp
@[simp] theorem raiseFn_places : (s.raiseFn f fld).places = s.places := by unfold State.raiseFn; split <;> simp
@[simp] theorem raiseFn_oflNotes : (s.raiseFn f fld).oflNotes = s.oflNotes := by unfold State.raiseFn; split <;> simp
@[simp] theorem raiseFn_outerId : (s.raiseFn f fld).outerId = s.outerId := by unfold State.raiseFn; split <;> simp
@[simp] theorem raiseFn_nodes : (s.raiseFn f fld).nodes = s.nodes := by unfold State.raiseFn; split <;> simp
@[simp] theorem raiseFn_mcast : (s.raiseFn f fld).mcast = s.mcast := by unfold State.raiseFn; split <;> simp
@[simp] theorem raiseFn_obs : (s.raiseFn f fld).obs = s.obs := by unfold State.raiseFn; split <;> simp
@[simp] theorem raiseFn_gclStaged : (s.raiseFn f fld).gclStaged = s.gclStaged := by unfold State.raiseFn; split <;> simp
@[simp] theorem raiseFn_gclPending : (s.raiseFn f fld).gclPending = s.gclPending := by unfold State.raiseFn; split <;> simp
@[simp] theorem raiseFn_groupsAdmin : (s.raiseFn f fld).groupsAdmin = s.groupsAdmin := by unfold State.raiseFn; split <;> simp
@[simp] theorem raiseFn_groupsStaged : (s.raiseFn f fld).groupsStaged = s.groupsStaged := by unfold State.raiseFn; split <;> simp
@[simp] theorem raiseFn_groupsOper : (s.raiseFn f fld).groupsOper = s.groupsOper := by unfold State.raiseFn; split <;> simp
@[simp] theorem raiseFn_groupsOld : (s.raiseFn f fld).groupsOld = s.groupsOld := by unfold State.raiseFn; split <;> simp
@[simp] theorem raiseFn_buckets : (s.raiseFn f fld).buckets = s.buckets := by unfold State.raiseFn; split <;> simp
@[simp] theorem raiseFn_rxSeq : (s.raiseFn f fld).rxSeq = s.rxSeq := by unfold State.raiseFn; split <;> simp
@[simp] theorem raiseFn_hostSeq : (s.raiseFn f fld).hostSeq = s.hostSeq := by unfold State.raiseFn; split <;> simp
@[simp] theorem raiseFn_txSeq : (s.raiseFn f fld).txSeq = s.txSeq := by unfold State.raiseFn; split <;> simp
@[simp] theorem raiseFn_stampFifo : (s.raiseFn f fld).stampFifo = s.stampFifo := by unfold State.raiseFn; split <;> simp
@[simp] theorem raiseFn_stampLoss : (s.raiseFn f fld).stampLoss = s.stampLoss := by unfold State.raiseFn; split <;> simp
@[simp] theorem raiseFn_stampRing : (s.raiseFn f fld).stampRing = s.stampRing := by unfold State.raiseFn; split <;> simp
@[simp] theorem raiseFn_jrings : (s.raiseFn f fld).jrings = s.jrings := by unfold State.raiseFn; split <;> simp
@[simp] theorem raiseFn_lastKey : (s.raiseFn f fld).lastKey = s.lastKey := by unfold State.raiseFn; split <;> simp
@[simp] theorem raiseFn_mir : (s.raiseFn f fld).mir = s.mir := by unfold State.raiseFn; split <;> simp
@[simp] theorem raiseFn_members : (s.raiseFn f fld).members = s.members := by unfold State.raiseFn; split <;> simp
@[simp] theorem raiseFn_frer : (s.raiseFn f fld).frer = s.frer := by unfold State.raiseFn; split <;> simp
@[simp] theorem raiseFn_mmLog : (s.raiseFn f fld).mmLog = s.mmLog := by unfold State.raiseFn; split <;> simp
@[simp] theorem raiseFn_ats : (s.raiseFn f fld).ats = s.ats := by unfold State.raiseFn; split <;> simp
@[simp] theorem raiseFn_xreqs : (s.raiseFn f fld).xreqs = s.xreqs := by unfold State.raiseFn; split <;> simp
@[simp] theorem raiseFn_preqs : (s.raiseFn f fld).preqs = s.preqs := by unfold State.raiseFn; split <;> simp
@[simp] theorem raiseFn_reads : (s.raiseFn f fld).reads = s.reads := by unfold State.raiseFn; split <;> simp
@[simp] theorem raiseFn_nextReq : (s.raiseFn f fld).nextReq = s.nextReq := by unfold State.raiseFn; split <;> simp
@[simp] theorem raiseFn_invals : (s.raiseFn f fld).invals = s.invals := by unfold State.raiseFn; split <;> simp
@[simp] theorem raiseFn_migFilter : (s.raiseFn f fld).migFilter = s.migFilter := by unfold State.raiseFn; split <;> simp
@[simp] theorem raiseFn_lateResponses : (s.raiseFn f fld).lateResponses = s.lateResponses := by unfold State.raiseFn; split <;> simp
@[simp] theorem raiseFn_hlinks : (s.raiseFn f fld).hlinks = s.hlinks := by unfold State.raiseFn; split <;> simp
@[simp] theorem raiseFn_perst : (s.raiseFn f fld).perst = s.perst := by unfold State.raiseFn; split <;> simp
@[simp] theorem raiseFn_bifurcated : (s.raiseFn f fld).bifurcated = s.bifurcated := by unfold State.raiseFn; split <;> simp
@[simp] theorem raiseFn_rings : (s.raiseFn f fld).rings = s.rings := by unfold State.raiseFn; split <;> simp
@[simp] theorem raiseFn_mbox : (s.raiseFn f fld).mbox = s.mbox := by unfold State.raiseFn; split <;> simp
@[simp] theorem raiseFn_adminCmd : (s.raiseFn f fld).adminCmd = s.adminCmd := by unfold State.raiseFn; split <;> simp
@[simp] theorem raiseFn_longs : (s.raiseFn f fld).longs = s.longs := by unfold State.raiseFn; split <;> simp
@[simp] theorem raiseFn_fwUp : (s.raiseFn f fld).fwUp = s.fwUp := by unfold State.raiseFn; split <;> simp
@[simp] theorem raiseFn_recovery : (s.raiseFn f fld).recovery = s.recovery := by unfold State.raiseFn; split <;> simp
@[simp] theorem raiseFn_lastTurn : (s.raiseFn f fld).lastTurn = s.lastTurn := by unfold State.raiseFn; split <;> simp
@[simp] theorem raiseFn_flr : (s.raiseFn f fld).flr = s.flr := by unfold State.raiseFn; split <;> simp
@[simp] theorem raiseFn_quiesceLate : (s.raiseFn f fld).quiesceLate = s.quiesceLate := by unfold State.raiseFn; split <;> simp
@[simp] theorem raiseFn_copies : (s.raiseFn f fld).copies = s.copies := by unfold State.raiseFn; split <;> simp
@[simp] theorem raiseFn_copyLast : (s.raiseFn f fld).copyLast = s.copyLast := by unfold State.raiseFn; split <;> simp
@[simp] theorem raiseFn_copyWin : (s.raiseFn f fld).copyWin = s.copyWin := by unfold State.raiseFn; split <;> simp
@[simp] theorem raiseFn_shadow : (s.raiseFn f fld).shadow = s.shadow := by unfold State.raiseFn; split <;> simp
@[simp] theorem raiseFn_swaps : (s.raiseFn f fld).swaps = s.swaps := by unfold State.raiseFn; split <;> simp
@[simp] theorem raiseFn_worn : (s.raiseFn f fld).worn = s.worn := by unfold State.raiseFn; split <;> simp
@[simp] theorem raiseFn_sram : (s.raiseFn f fld).sram = s.sram := by unfold State.raiseFn; split <;> simp
@[simp] theorem raiseFn_pll : (s.raiseFn f fld).pll = s.pll := by unfold State.raiseFn; split <;> simp
@[simp] theorem raiseFn_cores : (s.raiseFn f fld).cores = s.cores := by unfold State.raiseFn; split <;> simp
@[simp] theorem raiseFn_coresLost : (s.raiseFn f fld).coresLost = s.coresLost := by unfold State.raiseFn; split <;> simp
@[simp] theorem raiseFn_fatal : (s.raiseFn f fld).fatal = s.fatal := by unfold State.raiseFn; split <;> simp
@[simp] theorem raiseFn_fatalBoot : (s.raiseFn f fld).fatalBoot = s.fatalBoot := by unfold State.raiseFn; split <;> simp
@[simp] theorem raiseFn_hbm : (s.raiseFn f fld).hbm = s.hbm := by unfold State.raiseFn; split <;> simp
@[simp] theorem raiseFn_wear : (s.raiseFn f fld).wear = s.wear := by unfold State.raiseFn; split <;> simp
@[simp] theorem raiseFn_wearSaved : (s.raiseFn f fld).wearSaved = s.wearSaved := by unfold State.raiseFn; split <;> simp
@[simp] theorem raiseFn_flash : (s.raiseFn f fld).flash = s.flash := by unfold State.raiseFn; split <;> simp
@[simp] theorem raiseFn_fwSlot : (s.raiseFn f fld).fwSlot = s.fwSlot := by unfold State.raiseFn; split <;> simp
@[simp] theorem raiseFn_flashHolder : (s.raiseFn f fld).flashHolder = s.flashHolder := by unfold State.raiseFn; split <;> simp
@[simp] theorem raiseFn_flashAt : (s.raiseFn f fld).flashAt = s.flashAt := by unfold State.raiseFn; split <;> simp
@[simp] theorem raiseFn_supply : (s.raiseFn f fld).supply = s.supply := by unfold State.raiseFn; split <;> simp
end raiseFnLaws

/-- What a message that goes out, a used free value and a function's change leave in their own field. -/
@[simp] theorem send_out (o : Out) : (s.send o).out = s.out ++ [o] := rfl
@[simp] theorem used_free : s.used.free = s.free + 1 := rfl
@[simp] theorem modFn_fns (f : Nat) (g : FnCfg → FnCfg) : (s.modFn f g).fns = s.fns.mod f g := rfl
@[simp] theorem setReg_regs (r : Reg) (i : Nat) (v : Word) : (s.setReg r i v).regs = s.regs.setD (regKey r i) v (r.resetVal i) := rfl

end Sys2Proof.Machine
end

