-- ==== Sys2Proof/Tests/Slice0.lean ====
section
/-! SUPPORT. Tests: an ill-formed command for each check of WellFormed, values that the spec's worked examples and the
public standards give, and for each clause of a statement a state and operands that meet its hypotheses. -/

open Sys2Proof Sys2Proof.Machine
set_option maxRecDepth 20000
/-- A command of PF f through its mailbox. -/
def eciOf (f : Nat) : Eci := { fn := f }
/-- A CONTROL message of cluster 0's supervisor about thread t, and a state in which it waits and thread 5 is parked. -/
def ctlMsg (action t : Nat) : ChanMsg := { header := 2 ^ 48 * 0xC01 + 2 ^ 32 * 7 + 2 ^ 25 * 4, words := [2 ^ 60 * action + t] }
def ctlState (action : Nat) : State := { State.reset with chan := [ctlMsg action 5], threads := [(5, { st := .parked })] }
/-- A host write of 8 bytes that thread 5 asks for, and a state in which it waits. -/
def hostMsg : ChanMsg := { header := 2 ^ 48 * 0x500 + 2 ^ 32 * 5 + 2 ^ 25, words := [2 ^ 28 + 8, 4096] }
def hostMsgState : State := { State.reset with chan := [hostMsg], fns := [(0, { bme := true })] }
/-- Thread 0 is READY; its first result is pending. -/
def ready0 : State := { State.reset with threads := [(0, { st := .ready })] }
def pend0 (table : Bool) : State := { State.reset with threads := [(0, { st := .ready, board := [5], pend := [{ table := table, dests := [5], values := [7] }] })] }
/-- A word with a SEQ operation and a TARGET alone, and a state in which thread 0 is about to issue it. -/
def seqWord (op target : Nat) : Nat := 2 ^ 252 * op + 2 ^ 230 * target
def wordState (w : Nat) : State := { State.reset with threads := [(0, { st := .ready, pc := 0x6000, stack := [3] })], cs := [(csKey 0 0 0x6000, w)] }
/-- A frame that waits at the FRER unit, without and with an R-TAG, and the member entry 5 of context 7 that names it. -/
def frerMember : Bytes := [1, 1, 1, 1, 1, 1, 0, 0xA0, 0, 0, 7, 0]
def frerPkt : Packet := { stage := .frer, member := some (5, frerMember), data := List.replicate 60 1 }
def frerTagged : Packet := { stage := .frer, member := some (5, frerMember), data := List.replicate 12 1 ++ [0xF1, 0xC1, 0, 0, 0, 9] ++ List.replicate 46 1 }
/-- A frame that waits for the traffic manager with a verdict. -/
def toTmPkt (action : Nat) : Packet := { stage := .toTm, verdict := { action := action } }
def toTm (action : Nat) : State := { State.reset with pkts := [(1, toTmPkt action)] }
/-- A node configuration that is enabled, rated, and honours launch times; the default path down to queue 0 with it. -/
def openNode (word8 word16 word24 : Nat) : Node :=
  { cfg := leBytes 4 (2 ^ 31 + 1000) ++ leBytes 4 1024 ++ leBytes 4 word8 ++ leBytes 4 0 ++ leBytes 4 word16 ++ leBytes 4 0 ++ leBytes 4 word24, credit := 1 }
def ltPkt : Packet := { stage := .txCell 0, launch := some 0 }
def ltState : State := { State.reset.wr F.PRT_STATUS_LINK_UP 0 1 with nodes := [(393216, openNode 0 (2 ^ 23 + 8) 0)], pkts := [(1, ltPkt)] }
def alarmState : State := { State.reset with
  now := 0, time := { sec := 1 }, nodes := [(393221, { openNode 0 8 (2 ^ 16) with frames := [1] })], pkts := [(1, {})] }
/-- The node window holds a queue that may be written. -/
def winState : State := ((((({ State.reset with nodes := [(262144, openNode 0 0 0)] } : State).put .TM_NODE_DATA 0 (2 ^ 31 + 1000)).put .TM_NODE_DATA 1 1024).put
  .TM_NODE_DATA 2 65536).put .TM_NODE_DATA 3 0).put .TM_NODE_DATA 4 8
/-- A receive ring that runs. -/
def rxRing : Ring := { ctx := leBytes 8 0 ++ leBytes 4 2, state := 2 }
/-- A translation request, a page request, a read and an invalidation that are outstanding. -/
def xq0 : XReq := { fn := 0, page := 0, write := true, us := 50 }
def pq0 : PReq := { fn := 0, page := 0, sent := true }
def hr0 : HostRead := { fn := 0, addr := 0, len := 64, parts := [{ addr := 0, len := 64, tag := some 9, us := 50 }] }
def inv0 : Inval := { port := 0, tag := 0, fn := 0 }
/-- Rings of each kind that run. -/
def txRing : Ring := { ctx := leBytes 8 0 ++ leBytes 4 1, state := 1 }
def cqRing : Ring := { ctx := leBytes 8 0 ++ leBytes 4 3, state := 1 }
def rxRun : Ring := { ctx := leBytes 8 0 ++ leBytes 4 2, state := 1, pi := 1, cq := 262144, cache := [{ index := 0, bytes := [], epoch := 0, stamp := 0 }] }
def stampE : StampEntry := { stamp := 5, txSeq := 1, job := some 6 }
def jnlState : State := { (State.reset.wr F.JNL_CTRL_EN 0 1).wr F.JNL_CTRL_LOG2_RECORDS 0 12 with
  journal := { backlog := [{ kind := 4, body := [] }] }, fns := [(0, { bme := true, priEn := true, priAlloc := 1 })] }
def fetchState : State := { State.reset with rings := [(1, { txRing with fetching := some (0, 1) })] }
def startState : State := { State.reset with
  rings := [(1, { txRing with pi := 1, cq := 262144, cache := [{ index := 0, bytes := [], epoch := 0, stamp := 0 }] }), (262144, cqRing)], fns := [(0, { bme := true })] }
def rxState : State := { State.reset with
  rings := [(rxKey 0, rxRun), (262144, cqRing)], fns := [(0, { bme := true })], pkts := [(1, { stage := .rxDma (rxKey 0) })] }
/-- A REQUEST of thread 5 to an offload endpoint, and a state in which it waits and thread 5 has packet 1. -/
def oflMsg (dest op : Nat) (defer : Bool) : ChanMsg := { header := 2 ^ 48 * dest + 2 ^ 32 * 5 + 2 ^ 25, words := [2 ^ 56 * op + 2 ^ 55 * b2n defer, 2 ^ 16 * 34 + 14] }
def oflState (m : ChanMsg) : State := { State.reset with chan := [m], threads := [(5, { st := .waiting, pkt := some 1 })], pkts := [(1, {})] }
/-- A TCP segment of 6 payload bytes behind an IPv4 header. -/
def tcpPkt : Packet := { data := List.replicate 12 1 ++ [8, 0, 0x45, 0, 0, 46, 0, 0, 0, 0, 64, 6] ++ List.replicate 10 0 ++ List.replicate 12 0 ++ [0x50] ++ List.replicate 13 0 }
/-- A job ring's job of a kind. -/
def jobOf (kind : Nat) : Job := { ring := 1, entry := leBytes 8 0 ++ leBytes 4 16 ++ leBytes 2 0 ++ leBytes 2 kind ++ leBytes 8 65536 ++ List.replicate 40 0 }
def jobState (kind : Nat) : State := { State.reset with rings := [(1, { txRing with ctx := leBytes 8 0 ++ leBytes 4 4 })], jobs := [(6, jobOf kind)] }
/-- Copy channel 0 may start. -/
def cpyReady : State := { State.reset.put .CPY_CH_CFG 0 0 with fns := [(0, { bme := true, grants := { vectors := 1, features := 2 ^ 15 } })] }
def cpyIo : CopyIo := { desc := .timeout, src := [], dst := [], steps := 0, stop := .nothing, lost := false }
/-- A command of a code in PF0's mailbox. -/
def eciCmd (code : Nat) (words : List Nat) : EciCmd := { code := code, len := words.length, words := words }
def withCmd (c : EciCmd) (s : State) : State := { s with mbox := s.mbox.set 0 { cmd := some c } }
/-- A function that may issue requests. -/
def dmaState : State := { State.reset with fns := [(0, { bme := true })] }
def routeT : State := (withCmd (eciCmd 0x0306 [1, 0, 0]) dmaState).send (.hostRead 0 0 none 32)
/-- An IPv4 flow key of function 0, TBL_FLOW_INSERT's words with it, and a state that holds it. -/
def flowKeyWords : List Nat := 1 :: 6 * 2 ^ 24 :: List.replicate 14 0
def flowWords : List Nat := 0 :: flowKeyWords ++ List.replicate 16 0
def flowGrant : State := State.reset.modFn 0 (fun f => { f with grants := { f.grants with flows := 10 } })
def flowState : State := { State.reset with flow := [(flowLoc (flowHalf (wBytes flowKeyWords 0 16)) 5, { valid := true, key := wBytes flowKeyWords 0 16 })] }
/-- Node words, and enabled nodes above tenant 0. -/
def nodeWords (level word8 word16 : Nat) : List Nat := [level, 2 ^ 31 + 1000, 1024, word8, 0, word16, 0, 0, 0]
def upState : State := { State.reset with nodes := [(0, openNode 65536 0 0), (131072, openNode 65536 0 0), (262144, openNode 65536 0 0), (262151, openNode 65536 0 0), (393316, openNode 65536 8 0)] }
/-- A node's creation ends with a code. -/
theorem createNode_done (s : State) (l : Nat) (b : Bytes) : ∃ x : State × Nat × List Nat, s.createNode l b = .done x.1 x.2.1 x.2.2 := by
  unfold State.createNode; simp only []; split
  · exact ⟨(s, _, _), rfl⟩
  · split
    · exact ⟨(s, _, _), rfl⟩
    · exact ⟨(_, _, _), rfl⟩
/-- A write of a buffer ends with a code. -/
theorem bufferOut_done (s : State) (f a n : Nat) (b : Bytes) (r : Option HostReply) (w : List Nat) :
    ∃ x : State × Nat × List Nat, s.bufferOut f a n b r w = .done x.1 x.2.1 x.2.2 := by
  unfold State.bufferOut; split
  · exact ⟨(s, _, _), rfl⟩
  · split
    · exact ⟨(s, _, _), rfl⟩
    · exact ⟨(_, _, _), rfl⟩
def groupT : State := (withCmd (eciCmd 0x0601 [0, 0, 0]) dmaState).send (.hostRead 0 0 none 32)
theorem groupSet0 : groupT.setGroup 0 { en := leAt (List.replicate 32 0) 0 4 = 1, delay := 0, src := [], dst := [] } =
    .done { groupT with groupsAdmin := groupT.groupsAdmin.set 0 { en := false, delay := 0, src := [], dst := [] } } RC_OK
      (two (groupT.holdBytes { en := false, delay := 0, src := [], dst := [] } 0)) := by
  have a : decide (leAt (List.replicate 32 0) 0 4 = 1) = false := by decide
  rw [a]
  have b : groupT.groupBad 0 { en := false, delay := 0, src := [], dst := [] } = false := by decide
  have c : ¬(16384 < ({ groupT with groupsAdmin := groupT.groupsAdmin.set 0 { en := false, delay := 0, src := [], dst := [] } } : State).srcUsed ∨
      4096 < ({ groupT with groupsAdmin := groupT.groupsAdmin.set 0 { en := false, delay := 0, src := [], dst := [] } } : State).dstUsed ∨
      groupT.val .REL_CAPACITY 0 < groupT.holdSum (groupT.groupsAdmin.set 0 { en := false, delay := 0, src := [], dst := [] })) := by decide
  unfold State.setGroup; simp only [b]; simp only [if_neg c]; rfl
/-- The first free number when none is taken. -/
theorem firstFree_all {n i : Nat} {f : Nat → Bool} (h : 0 < n) (hf : ∀ k, f k = false) : firstFree n i f = some (i % n) := by
  cases n with
  | zero => cases h
  | succ k => simp [firstFree, freeFrom, hf]
/-- PF0 may create contexts, and one context of each kind. -/
def ofGrant : State := State.reset.modFn 0 (fun f => { f with grants := { f.grants with esp := 9, sessions := 9, features := 2 ^ 20 - 1 } })
def ofState : State := { State.reset with
  espSas := [(5, { state := 1 })], sessions := [(6, { state := 1, tlsRx := true, nvme := true, rxState := 1, nvState := 1 })], macsec := [(3, { state := 1 })] }
/-- A member of the mirror pair 20 ms after its last message, in a role, and a standby that keeps a HEAD. -/
def mirS (role : Nat) : State := { State.reset.wr F.MIR_CTRL_ROLE 0 role with now := 20000000 }
def mirH : State := { mirS 2 with mir := { (mirS 2).mir with heads := [List.replicate 64 0] } }
theorem done_of (t : State) (r : Nat) (w : List Nat) : ∃ x : State × Nat × List Nat, EciOut.done t r w = .done x.1 x.2.1 x.2.2 := ⟨(t, r, w), rfl⟩
theorem takeover_done (s : State) (d : Bool) : ∃ x : State × Nat × List Nat, s.takeover d = .done x.1 x.2.1 x.2.2 := by
  unfold State.takeover; extract_lets; exact done_of _ _ _
def stg0 : State := withCmd (eciCmd 0x0900 (List.replicate 12 0)) State.reset
/-- PF0 may have rings; it has none left; PF0 may log dirty pages. -/
def ringGrant : State := State.reset.modFn 0 (fun f => { f with grants := { f.grants with pages := 4, cqRings := 4, vectors := 4 } })
def ringNone : State := State.reset.modFn 0 (fun f => { f with grants := { f.grants with pages := 4, cqRings := 0, vectors := 4 } })
def cqWords : List Nat := [0, 0, 99] ++ List.replicate 13 0
def migGrant : State := State.reset.modFn 0 (fun f => { f with grants := { f.grants with features := 2 ^ 17 - 1 } })
/-- A thread of cluster 0 holds a packet of an old generation of function 0. -/
def staleS : State := { State.reset with flr := [(0, some {})], threads := [(5, { st := .ready, pkt := some 1, func := 0, gen := 9 })], pkts := [(1, { fromWire := false })] }
theorem migOff (k : Nat) : (withCmd (eciCmd 0x0206 [2 ^ 31, 0, 0, 6]) migGrant).on F.HIF_MIG_CTRL_EN k = false := by
  have h : (withCmd (eciCmd 0x0206 [2 ^ 31, 0, 0, 6]) migGrant).reg .HIF_MIG_CTRL k = 0 := rfl
  unfold State.on State.rd; rw [h]; rfl
theorem svcOut : ((withCmd (eciCmd 0x0A00 [0, 0, 0]) State.reset).foldCounters 0).bufferOut 0 0 448
    (((withCmd (eciCmd 0x0A00 [0, 0, 0]) State.reset).foldCounters 0).totals 0) none [0] =
    .done ((withCmd (eciCmd 0x0A00 [0, 0, 0]) State.reset).foldCounters 0) RC_NOT_READY [] := by
  have a : ¬448 < (((withCmd (eciCmd 0x0A00 [0, 0, 0]) State.reset).foldCounters 0).totals 0).length := by decide
  have b : ((withCmd (eciCmd 0x0A00 [0, 0, 0]) State.reset).foldCounters 0).dmaOut 0 none = RC_NOT_READY := by decide
  unfold State.bufferOut; rw [if_neg a, b]; rfl
/-- Long commands: a release, a staging that was abandoned, a quiesce that waits for work. -/
def longS : State := { State.reset with longs := [(0, some { cmd := { code := 0x0203, words := [2 ^ 31] } })] }
def stageS : State := { State.reset with longs := [(0, some { cmd := { code := 0x0900 } })] }
def waitS : State := { State.reset.wr F.HIF_FN_STATE_STATE 0 2 with longs := [(0, some { cmd := { code := 0x0203, words := [0] } })], reads := [(0, hr0)] }
theorem waitL : waitS.longBody 0 { code := 0x0203, words := [0] } {} = .wait := by
  have a : waitS.rd F.HIF_FN_STATE_STATE 0 = 2 := by decide
  have b : waitS.fnBusy 0 = true := by decide
  have c : bits (([0] : List Nat).getD 0 0) 11 0 = 0 := by decide
  show waitS.quiesceDone [0] = .wait
  unfold State.quiesceDone; simp only [c, a, b]; rfl
/-- An admin queue whose next entry is due: ECI_VERSION, and one with a long payload. -/
def upS : State := { State.reset with fwUp := true }
def admS : State := { State.reset with fwUp := true, rings := [(adminSqKey 0, { fn := 0, ctx := adminCtx 0 5 6 0 0, state := 1, pi := 1 })] }
def admB : Bytes := List.replicate 128 0
def admL : Bytes := [0, 0, 25] ++ List.replicate 125 0
/-- The adapter is on, in SHUTDOWN; HBM region 0 is served; a stack in DEEP_IDLE. -/
def onS : State := State.reset
def shutS : State := { State.reset with supply := { power := .shut } }
def hbmS : State := ((State.reset.wr F.HBM_REGION_EN 0 1).wr F.HBM_REGION_ROWS 0 1).wr F.HBM_REGION_STACKS 0 3
def srS : State := { (State.reset.wr F.PWR_STATUS_STATE 0 2).wr F.HBM_PC_STATUS_STATE 0 1 with now := 100000 }
/-- Barista's core 0 is lost, and no spare is left. -/
def coreS : State := { State.reset with fenced := [(fenceKey (unitCore 0) 0, true)] }
def coreN : State := { State.reset with fenced := [(fenceKey (unitCore 0) 0, true), (fenceKey (unitCore 4) 0, true)] }
/-- Cluster 0 is idle beyond load; it is gated under pressure. -/
def gateS : State := { (((State.reset.wr F.PWR_CFG_CLUSTER_GATE 0 1).wr F.BRW_CTRL_EN 0 1).wr F.BRW_CTRL_EN 1 1).wr F.BRW_CTRL_EN 2 1 with
  threads := [(supOf 0, { st := .waiting })], now := 10000000 }
def ungateS : State := { State.reset.wr F.PWR_STATUS_STATE 0 1 with clusters := [(0, { gated := true })] }
/-- A frame is next at port 0's MAC; with a small MAX_FRAME; with MACsec and no SA. -/
def txPkt : Packet := { stage := .txCell 0, data := List.replicate 60 1 }
def txReady : State := { State.reset.wr F.PRT_STATUS_LINK_UP 0 1 with pkts := [(1, txPkt)] }
def txShort : State := { (State.reset.wr F.PRT_STATUS_LINK_UP 0 1).wr F.PRT_MAC_CFG_MAX_FRAME 0 32 with pkts := [(1, txPkt)] }
def txSec : State := { ((State.reset.wr F.PRT_STATUS_LINK_UP 0 1).wr F.OFL_MACSEC_PORT_EN 0 1).wr F.OFL_MACSEC_PORT_PROTECT 0 1 with pkts := [(1, txPkt)] }
def txLatePkt : Packet := { stage := .txCell 0, data := List.replicate 60 1, launch := some 0 }
def txCut : State := { State.reset.wr F.PRT_STATUS_LINK_UP 0 1 with txNow := [(1, some { h := 1, cut := true })] }
def txLate : State := { State.reset.wr F.PRT_STATUS_LINK_UP 0 1 with pkts := [(1, txLatePkt)], nodes := [(nodeKey 3 0, { cfg := List.replicate 18 0 ++ [0x80] })], time := { sec := 10 } }
theorem txStuck : txReady = txReady.dropStuck 0 := by
  have h : txReady.pkts.filter (fun e => e.2.stage == .txCell 0 && txReady.gateTooLong 0 (txReady.node 3 e.2.queue).tc e.2.data.length) = [] := by decide
  unfold State.dropStuck; rw [h]; rfl
theorem txStuck' : txShort = txShort.dropStuck 0 := by
  have h : txShort.pkts.filter (fun e => e.2.stage == .txCell 0 && txShort.gateTooLong 0 (txShort.node 3 e.2.queue).tc e.2.data.length) = [] := by decide
  unfold State.dropStuck; rw [h]; rfl
theorem txStuck'' : txSec = txSec.dropStuck 0 := by
  have h : txSec.pkts.filter (fun e => e.2.stage == .txCell 0 && txSec.gateTooLong 0 (txSec.node 3 e.2.queue).tc e.2.data.length) = [] := by decide
  unfold State.dropStuck; rw [h]; rfl
theorem ptpNone (s : State) (n : Nat) : s.ptpTx 0 txPkt (List.replicate 60 1) n = (s, List.replicate 60 1) := by
  have a : ptpEvent (List.replicate 60 1) = none := by decide
  have b : txPkt.oneStep = none := rfl
  unfold State.ptpTx Packet.resided; simp only [b]; rw [a]
theorem txPtp : (txReady, List.replicate 60 1) = txReady.ptpTx 0 txPkt (List.replicate 60 1) (txReady.txStamp 0 0) := (ptpNone _ _).symm
theorem txPtp' : (txShort, List.replicate 60 1) = txShort.ptpTx 0 txPkt (List.replicate 60 1) (txShort.txStamp 0 0) := (ptpNone _ _).symm
theorem txPtp'' : (txSec, List.replicate 60 1) = txSec.ptpTx 0 txPkt (List.replicate 60 1) (txSec.txStamp 0 0) := (ptpNone _ _).symm
theorem txMac : txReady.macsecTx 0 (List.replicate 60 1) = (txReady, some (List.replicate 60 1)) := by
  unfold State.macsecTx; rw [if_pos (by decide)]
theorem txMac' : txShort.macsecTx 0 (List.replicate 60 1) = (txShort, some (List.replicate 60 1)) := by
  unfold State.macsecTx; rw [if_pos (by decide)]
theorem txMac'' : txSec.macsecTx 0 (List.replicate 60 1) = (txSec.count .MACSEC_CTR 0 C.MACSEC_OutPktsDiscarded, none) := by
  have a : txSec.txSa 0 = none := by decide
  unfold State.macsecTx; rw [if_neg (by decide), if_neg (by decide), a]
def idleS : State := { (State.reset.wr F.PWR_STATUS_STATE 0 1).wr F.PWR_CFG_DEEP_IDLE_EN 0 1 with
  fns := [(0, { d3 := true }), (1, { d3 := true }), (2, { d3 := true }), (3, { d3 := true })] }
theorem idleMay : idleS.mayDeepIdle = true := by decide

/-! ### Ill-formed commands -/

theorem test_ill_formed_fn : Instr.wf (.registerWrite (2052) default 0 0) = false := by decide
theorem test_ill_formed_bar2 : Instr.wf (.lowWordRead 0 (0x20000000)) = false := by decide
theorem test_ill_formed_unit : Instr.wf (.fenceNotice (65536) 0) = false := by decide
theorem test_ill_formed_port : Instr.wf (.macRxFrame (16) default) = false := by decide
theorem test_ill_formed_pipe : Instr.wf (.dispatch (4)) = false := by decide
theorem test_ill_formed_core : Instr.wf (.tmSchedule (4) 0) = false := by decide
theorem test_ill_formed_nodePort : Instr.wf (.tmSchedule 0 (20)) = false := by decide
theorem test_ill_formed_ringKey : Instr.wf (.holdListDeliver (655360) false false) = false := by decide
theorem test_ill_formed_word : Instr.wf (.tsuSlewRateWrite 0 (2 ^ 32)) = false := by decide
theorem test_ill_formed_half : Instr.wf (.prtGroupApply 0 (2)) = false := by decide
theorem test_ill_formed_pause : Instr.wf (.rxPauseFrame 0 (65536)) = false := by decide
theorem test_ill_formed_byte : Instr.wf (.rxPfcFrame 0 (256) default) = false := by decide
theorem test_ill_formed_holdClass : Instr.wf (.fcHoldExpire 0 (9)) = false := by decide
theorem test_ill_formed_l2Index : Instr.wf (.l2AgeVisit 0 (524288)) = false := by decide
theorem test_ill_formed_flowLoc : Instr.wf (.flowAgeVisit 0 (33554432)) = false := by decide
theorem test_ill_formed_thread : Instr.wf (.aluMov (2048) default 0 false) = false := by decide
theorem test_ill_formed_cluster : Instr.wf (.fenceMessage (16)) = false := by decide
theorem test_ill_formed_engine : Instr.wf (.allWait 0 (8)) = false := by decide
theorem test_ill_formed_debugOff : Instr.wf (.debugWindowWrite 0 0 (0x8000) default 0) = false := by decide
theorem test_ill_formed_csAddr : Instr.wf (.csEccRepair 0 0 (65536) default) = false := by decide
theorem test_ill_formed_queue : Instr.wf (.tmQueueReload (65536)) = false := by decide
theorem test_ill_formed_ring : Instr.wf (.jnlDigestClose (131072) false) = false := by decide
theorem test_ill_formed_frerCtx : Instr.wf (.frerRecoveryTimeout (2048)) = false := by decide
theorem test_ill_formed_group : Instr.wf (.mirFloorLapse (64)) = false := by decide
theorem test_ill_formed_hostPort : Instr.wf (.hifLinkUp (2) 0 0 false) = false := by decide
theorem test_ill_formed_speed : Instr.wf (.hifLinkUp 0 0 (3) false) = false := by decide
theorem test_ill_formed_pf : Instr.wf (.vfEnableWrite (4) false 0) = false := by decide
theorem test_ill_formed_vfNum : Instr.wf (.vfEnableWrite 0 false (2049)) = false := by decide
theorem test_ill_formed_pendWord : Instr.wf (.evtPendW1c 0 (18) 0) = false := by decide
theorem test_ill_formed_page : Instr.wf (.qmSqDb 0 (7936) default 0) = false := by decide
theorem test_ill_formed_pushOff : Instr.wf (.pushSlotWrite 0 0 (256) default) = false := by decide
theorem test_ill_formed_slot : Instr.wf (.hifMigConsWrite 0 (64) 0) = false := by decide
theorem test_ill_formed_channel : Instr.wf (.cpyGo 0 (1024) 0) = false := by decide
theorem test_ill_formed_region : Instr.wf (.hbmAccess (8) 0 false default false) = false := by decide
theorem test_ill_formed_pc : Instr.wf (.hbmRowClose (64) 0) = false := by decide
theorem test_ill_formed_bank : Instr.wf (.hbmRowClose 0 (16)) = false := by decide
theorem test_ill_formed_hbmRow : Instr.wf (.hbmSoftRepair 0 0 (2 ^ 32)) = false := by decide
theorem test_ill_formed_domain : Instr.wf (.wearSample (64) 0) = false := by decide
theorem test_ill_formed_adc : Instr.wf (.ovnAdcSample (65536) false) = false := by decide
theorem test_ill_formed_full_write : Instr.wf (.tsuFreqOffsetWrite 0 .full (2 ^ 64)) = false := by decide
theorem test_ill_formed_half_write : Instr.wf (.tsuFreqOffsetWrite 0 .low (2 ^ 32)) = false := by decide
theorem test_ill_formed_alu_dst : Instr.wf (.aluMov 0 { (default : AluArgs) with dst := 256 } 0 false) = false := by decide
theorem test_ill_formed_alu_a : Instr.wf (.aluMov 0 { (default : AluArgs) with a := 256 } 0 false) = false := by decide
theorem test_ill_formed_alu_b : Instr.wf (.aluMov 0 { (default : AluArgs) with b := 256 } 0 false) = false := by decide
theorem test_ill_formed_alu_shift : Instr.wf (.aluMov 0 { (default : AluArgs) with shift := 65536 } 0 false) = false := by decide
theorem test_ill_formed_mem_scale : Instr.wf (.memLd 0 { (default : MemArgs) with scale := 4 } false) = false := by decide
theorem test_ill_formed_mem_reg : Instr.wf (.memLd 0 { (default : MemArgs) with reg := 256 } false) = false := by decide
theorem test_ill_formed_mem_space : Instr.wf (.memLd 0 { (default : MemArgs) with space := 16 } false) = false := by decide
theorem test_ill_formed_mem_offset : Instr.wf (.memLd 0 { (default : MemArgs) with offset := 1048576 } false) = false := by decide
theorem test_ill_formed_mem_size : Instr.wf (.memLd 0 { (default : MemArgs) with size := 256 } false) = false := by decide
theorem test_ill_formed_tbl_table : Instr.wf (.tblLookup 0 { (default : TblArgs) with table := 256 } false) = false := by decide
theorem test_ill_formed_tbl_key : Instr.wf (.tblLookup 0 { (default : TblArgs) with key := 256 } false) = false := by decide
theorem test_ill_formed_tbl_res : Instr.wf (.tblLookup 0 { (default : TblArgs) with res := 256 } false) = false := by decide
theorem test_ill_formed_tbl_flags : Instr.wf (.tblLookup 0 { (default : TblArgs) with flags := 16 } false) = false := by decide
theorem test_ill_formed_issue : Instr.wf (.seqInc { t := 2048 }) = false := by decide
theorem test_ill_formed_offload_input : Instr.wf (.tlsRx { src := 2048 }) = false := by decide
theorem test_ill_formed_head_start : Instr.wf (.launchTimeStart { q := 65536 }) = false := by decide
theorem test_ill_formed_patch_word : Instr.wf (.csEccRepair 0 0 0 (0, 65536)) = false := by decide
theorem test_ill_formed_eci : Instr.wf (.eciVersion { fn := 2052 }) = false := by decide
theorem test_ill_formed_bar2_place : Instr.wf (.registerWrite 0 (.bar2 0x20000000) 4 0) = false := by decide
theorem test_ill_formed_bar0 : Instr.wf (.registerWrite 0 (.bar0 0x400000) 4 0) = false := by decide
theorem test_ill_formed_register_value : Instr.wf (.registerWrite 0 .ats 4 (2 ^ 64)) = false := by decide

/-! ### Values from the spec -/

theorem test_well_formed : Instr.wf (.registerWrite 2 (.bar2 0x01000018) 8 5) = true := by decide

theorem test_no_word_spells_a_command : decodeTableWord 32 5 = none := by decide

/-- The worked example of spec/02_time_base.md: +12.5 ppb. -/
theorem test_increment : increment 819200 = 0x000100000035AFE5 := by decide

/-- R38: the same distance below. -/
theorem test_increment_half_down : increment (-819200) = 2 ^ 48 - 3518437 := by decide

/-- The worked example of a receive stamp (spec/02_time_base.md): 41,000 + 12 + 20,847.137 + 350 ps in
femtoseconds, rounded once (R52; log 182). -/
theorem test_stamp_units : stampUnits 62209137 = 62 * 65536 + 13706 := by decide

/-- The worked example of a receive stamp (spec/02_time_base.md), step 4. -/
theorem test_short_stamp : (DevTime.mk 1750000000 500000063 (0x2A78 * 2 ^ 32)).short = 14000000004000000505 := by decide

/-- The example of spec/17_errors_and_service.md: index 3 on stack 1. -/
theorem test_event_hbm_fenced : Ev.HBM_PC_FENCED 1 = 459 := by decide

/-- The example of spec/17_errors_and_service.md. -/
theorem test_event_link_down : Ev.PRT_LINK_DOWN 9 = 91 := by decide

/-- The worked example of PAUSE on 400GbE (spec/03_ports.md): 1,280 ns. -/
theorem test_pause_hold : 1000 * modeQuantum 2 = 128000 := by decide

/-- Sequence inference, step 1 (spec/07_offloads.md). -/
theorem test_esp_infer_1 : ({ esn := true, window := 1024, seq := 0x100000100 } : EspSa).infer 0xFFFFFF80 = 0xFFFFFF80 := by decide

/-- Step 2. -/
theorem test_esp_infer_2 : ({ esn := true, window := 1024, seq := 0x100000100 } : EspSa).infer 0x500 = 0x100000500 := by decide

/-- Step 3. -/
theorem test_esp_infer_3 : ({ esn := true, window := 1024, seq := 0x100000500 } : EspSa).infer 0x101 = 0x100000101 := by decide

/-- Step 4. -/
theorem test_esp_infer_4 : ({ esn := true, window := 1024, seq := 0x100000500 } : EspSa).infer 0x100 = 0x200000100 := by decide

/-- Step 5. -/
theorem test_esp_infer_5 : ({ esn := true, window := 1024, seq := 0x100000500 } : EspSa).infer 0xFFFFFF80 = 0x1FFFFFF80 := by decide

/-- R155: 64-bit sums. -/
theorem test_alu_add_wraps : aluResult 0x02 (2 ^ 64 - 1) 1 0 0 = 0 := by decide

/-- The check value of CRC-32C. -/
theorem test_crc32c : crc32c [0x31, 0x32, 0x33, 0x34, 0x35, 0x36, 0x37, 0x38, 0x39] = 0xE3069283#32 := by decide

theorem test_idle : step State.reset = .next State.reset := rfl

theorem test_front_first : (match step { State.reset with pending := [.timeClockTick, .epochDrained] } with | .next t => t.pending | _ => []) = [.epochDrained] := by decide

/-! ### Witnesses -/

theorem witness_timeTicks_1 :
    ∃ (s : State), s.tsu.counting = false :=
  ⟨State.reset, by decide⟩

theorem witness_timeTicks_2 :
    ∃ (s : State) (u : State), s.tsu.counting = true ∧ u = ({ s with now := s.now + 1, tsu := { s.tsu with dlyOld := [] } } : State).countTick :=
  ⟨{ State.reset with tsu := { counting := true } }, _, ⟨rfl, rfl⟩⟩

theorem witness_timeTicks_3 :
    ∃ (s : State), s.crosses = true :=
  ⟨{ State.reset with time := { ns := 999999999 }, tsu := { counting := true } }, by decide⟩

theorem witness_timeTicks_4 :
    ∃ (s : State), s.stepApplies = true :=
  ⟨({ State.reset with time := { ns := 999999999 }, tsu := { counting := true } }.wr F.TSU_STEP_CTRL_ARM 0 1).wr F.TSU_STEP_CTRL_ABS 0 1, by decide⟩

theorem witness_timeTicks_5 :
    ∃ (s : State), s.tsu.counting = true ∧ s.slewEnds = true :=
  ⟨{ State.reset with tsu := { counting := true, slewLeft := 1 } }.wr F.TSU_SLEW_RATE_RATE_NS 0 1000000, by decide⟩

theorem witness_timeSteering_1 :
    ∃ (s : State) (fn : Nat) (v : Nat), s.managedBy fn ∧ (Legal.signed 32768000000).ok 64 (v % 2 ^ 64) = true ∧ v % 2 ^ 64 ≠ s.steering.val .TSU_FREQ_OFFSET 0 ∧ s.steering.val .TSU_FREQ_OFFSET 0 = s.val .TSU_FREQ_OFFSET 0 :=
  ⟨State.reset, 0, 5, by decide⟩

theorem witness_timeSteering_2 :
    ∃ (s : State) (fn : Nat) (v : Nat), s.managedBy fn ∧ (Legal.signed 32768000000).ok 64 (v % 2 ^ 64) = false :=
  ⟨State.reset, 0, 32768000001, by decide⟩

theorem witness_timeSteering_3 :
    ∃ (s : State) (fn : Nat) (abs : Bool) (cancel : Bool), s.managedBy fn ∧ s.on F.TSU_STEP_CTRL_ARM 0 = false ∧ cancel = false :=
  ⟨State.reset, 0, false, false, by decide⟩

theorem witness_timeSteering_4 :
    ∃ (s : State), s.groupEnabled = true :=
  ⟨State.reset.wr F.REL_GROUP_STATUS_EN 63 1, by decide⟩

theorem witness_timeSteering_5 :
    ∃ (s : State), s.groupEnabled = false ∧ s.on F.TSU_STEP_CTRL_ABS 0 = true :=
  ⟨State.reset.wr F.TSU_STEP_CTRL_ABS 0 1, by decide⟩

theorem witness_timeSteering_6 :
    ∃ (s : State) (fn : Nat) (abs : Bool), s.managedBy fn ∧ s.on F.TSU_STEP_CTRL_ARM 0 = true ∧ s.on F.TSU_STEP_CTRL_ABS 0 = abs :=
  ⟨State.reset.wr F.TSU_STEP_CTRL_ARM 0 1, 0, false, by decide⟩

theorem witness_timeSteering_7 :
    ∃ (s : State) (fn : Nat) (v : Nat), s.managedBy fn :=
  ⟨State.reset, 0, 0, by decide⟩

theorem witness_timeSteering_8 :
    ∃ (s : State) (fn : Nat) (v : Nat), s.managedBy fn :=
  ⟨State.reset, 0, 0, by decide⟩

theorem witness_timeSteering_9 :
    ∃ (s : State) (fn : Nat) (v : Nat) (lo : Nat), s.managedBy fn ∧ s.tsu.slewHeld = some lo :=
  ⟨{ State.reset with tsu := { slewHeld := some 0 } }, 0, 0, 0, by decide⟩

theorem witness_timeSteering_10 :
    ∃ (s : State) (fn : Nat) (v : Nat), s.managedBy fn :=
  ⟨State.reset, 0, 0, by decide⟩

theorem witness_timeSteering_11 :
    ∃ (s : State) (u : State) (fn : Nat) (port : Nat) (v : Nat), s.managedBy fn ∧ port < 16 ∧ u = ({ s with tsu := { s.tsu with dlyOld := s.tsu.dlyOld.set port (some ((s.tsu.dlyOld.get port).getD (s.val .TSU_BOARD_DLY port))) } } : State).put .TSU_BOARD_DLY port (v % 2 ^ 32) :=
  ⟨State.reset, _, 0, 15, 0, ⟨by decide, by decide, rfl⟩⟩

theorem witness_timeSteering_12 :
    ∃ (s : State) (fn : Nat) (v : Nat), s.managedBy fn ∧ v % 4 ≤ 2 ∧ v % 4 ≠ s.rd F.TSU_REF_SEL 0 :=
  ⟨State.reset, 0, 2, by decide⟩

theorem witness_timeSteering_13 :
    ∃ (s : State) (fn : Nat) (v : Nat), s.managedBy fn ∧ (v % 4 = 3 ∨ v % 4 = s.rd F.TSU_REF_SEL 0) :=
  ⟨State.reset, 0, 3, by decide⟩

theorem witness_timeReferences_1 :
    ∃ (s : State) (fn : Nat), s.managedBy fn :=
  ⟨State.reset, 0, by decide⟩

theorem witness_timeReferences_2 :
    ∃ (s : State), s.rd F.TSU_STATUS_HOLD_STATE 0 = 1 ∧ s.tsu.steerAt + 2000000000 ≤ s.now :=
  ⟨{ State.reset with now := 2000000000 }.wr F.TSU_STATUS_HOLD_STATE 0 1, by decide⟩

theorem witness_timeReferences_3 :
    ∃ (s : State), (s.rd F.TSU_STATUS_HOLD_STATE 0 ≠ 1 ∨ s.now < s.tsu.steerAt + 2000000000) :=
  ⟨State.reset, by decide⟩

theorem witness_timeReferences_4 :
    ∃ (s : State), s.on F.TSU_STATUS_REF_PRESENT 0 = true :=
  ⟨State.reset.wr F.TSU_STATUS_REF_PRESENT 0 1, by decide⟩

theorem witness_timeReferences_5 :
    ∃ (s : State), s.on F.TSU_STATUS_PLL_LOCKED 0 = false :=
  ⟨State.reset, by decide⟩

theorem witness_timeReferences_6 :
    ∃ (s : State), s.on F.TSU_STATUS_PLL_LOCKED 0 = true :=
  ⟨State.reset.wr F.TSU_STATUS_PLL_LOCKED 0 1, by decide⟩

theorem witness_timeReferences_7 :
    ∃ (s : State) (t : Nat), s.tsu.ppsAt = some t ∧ t + 1100000000 ≤ s.now :=
  ⟨{ State.reset with now := 1100000000, tsu := { ppsAt := some 0 } }, 0, by decide⟩

theorem witness_ovenCommands_1 :
    ∃ (s : State) (fn : Nat) (v : Nat), s.managedBy fn ∧ bit v 31 = true ∧ (s.put .OVN_CTRL 0 (bits v 31 29 * 2 ^ 29)).ovenIs .overtemp = false ∧ (s.put .OVN_CTRL 0 (bits v 31 29 * 2 ^ 29)).ovenIs .cold = true :=
  ⟨State.reset, 0, 2 ^ 31, by decide⟩

theorem witness_ovenCommands_2 :
    ∃ (s : State) (fn : Nat) (v : Nat), s.managedBy fn ∧ bit v 31 = false ∧ (s.put .OVN_CTRL 0 (bits v 31 29 * 2 ^ 29)).ovenIs .overtemp = false ∧ (s.put .OVN_CTRL 0 (bits v 31 29 * 2 ^ 29)).ovenIs .cold = false :=
  ⟨State.reset.wr F.OVN_STATUS_STATE 0 3, 0, 0, by decide⟩

theorem witness_ovenCommands_3 :
    ∃ (s : State) (fn : Nat) (v : Nat), s.managedBy fn ∧ (s.put .OVN_CTRL 0 (bits v 31 29 * 2 ^ 29)).ovenIs .overtemp = true :=
  ⟨State.reset.wr F.OVN_STATUS_STATE 0 6, 0, 0, by decide⟩

theorem witness_ovenCommands_4 :
    ∃ (s : State) (fn : Nat) (v : Nat), s.managedBy fn ∧ bit v 31 = true ∧ bit v 30 = true ∧ (s.put .OVN_CTRL 0 (bits v 31 29 * 2 ^ 29)).rd F.OVN_STATUS_STATE 0 = 3 :=
  ⟨State.reset.wr F.OVN_STATUS_STATE 0 3, 0, 3 * 2 ^ 30, by decide⟩

theorem witness_ovenCommands_5 :
    ∃ (s : State) (fn : Nat) (v : Nat), s.managedBy fn ∧ bit v 31 = true ∧ bit v 30 = false ∧ (s.put .OVN_CTRL 0 (bits v 31 29 * 2 ^ 29)).rd F.OVN_STATUS_STATE 0 = 4 :=
  ⟨State.reset.wr F.OVN_STATUS_STATE 0 4, 0, 2 ^ 31, by decide⟩

theorem witness_ovenCommands_6 :
    ∃ (s : State) (code : Nat), (s.wr F.OVN_SENSE_CODE 0 (code % 65536)).ovenIs .settling = true :=
  ⟨State.reset.wr F.OVN_STATUS_STATE 0 2, 65535, by decide⟩

theorem witness_ovenCommands_7 :
    ∃ (s : State) (code : Nat), (s.wr F.OVN_SENSE_CODE 0 (code % 65536)).rd F.OVN_STATUS_STATE 0 = 1 :=
  ⟨State.reset.wr F.OVN_STATUS_STATE 0 1, 0, by decide⟩

theorem witness_ovenCommands_8 :
    ∃ (s : State), s.ovenIs .warming = true ∧ s.ovenErr.natAbs ≤ s.rd F.OVN_BANDS_WARM_BAND 0 :=
  ⟨(State.reset.wr F.OVN_STATUS_STATE 0 1).wr F.OVN_SENSE_CODE 0 (State.reset.rd F.OVN_SETPOINT_CODE 0), by decide⟩

theorem witness_ovenCommands_9 :
    ∃ (s : State) (t : Nat), s.oven.inBand = some t ∧ s.ovenIs .settling = true ∧ t + s.rd F.OVN_LIMITS_SETTLE_S 0 * 1000000000 ≤ s.now :=
  ⟨{ State.reset with oven := { inBand := some 0 }, now := 10 ^ 15 }.wr F.OVN_STATUS_STATE 0 2, 0, by decide⟩

theorem witness_ovenCommands_10 :
    ∃ (s : State) (t : Nat), s.oven.outBand = some t ∧ s.ovenIs .locked = true ∧ t + 1000000000 ≤ s.now :=
  ⟨{ State.reset with oven := { outBand := some 0 }, now := 1000000000 }.wr F.OVN_STATUS_STATE 0 3, 0, by decide⟩

theorem witness_ovenCommands_11 :
    ∃ (s : State), 10 ≤ s.oven.implausible ∧ s.ovenIs .warming = true :=
  ⟨{ State.reset with oven := { implausible := 10 } }.wr F.OVN_STATUS_STATE 0 1, by decide⟩

theorem witness_ovenCommands_12 :
    ∃ (s : State), s.ovenIs .warming = true ∧ s.oven.since + s.rd F.OVN_LIMITS_WARM_TIMEOUT_MIN 0 * 60000000000 ≤ s.now :=
  ⟨{ State.reset with now := 10 ^ 15 }.wr F.OVN_STATUS_STATE 0 1, by decide⟩

theorem witness_ovenCommands_13 :
    ∃ (s : State) (fn : Nat), s.managedBy fn ∧ ((s.wr F.OVN_STATUS_OT_NOW 0 0).wr F.OVN_STATUS_OT_LATCH 0 0).ovenIs .overtemp = true :=
  ⟨State.reset.wr F.OVN_STATUS_STATE 0 6, 0, by decide⟩

theorem witness_ovenCommands_14 :
    ∃ (s : State) (t : Nat), s.oven.dutyMax = some t ∧ s.ovenIs .locked = true ∧ t + 60000000000 ≤ s.now ∧ s.oven.dutyRaised = false :=
  ⟨{ State.reset with oven := { dutyMax := some 0 }, now := 60000000000 }.wr F.OVN_STATUS_STATE 0 3, 0, by decide⟩

theorem witness_ovenCommands_15 :
    ∃ (s : State) (fn : Nat) (v : Nat), s.managedBy fn :=
  ⟨State.reset, 0, 0, by decide⟩

theorem witness_portLinks_1 :
    ∃ (s : State) (fn : Nat) (group : Nat) (l : Nat), s.managedBy fn ∧ group < 2 ∧ s.failLane group = some l :=
  ⟨(State.reset.wr F.PRT_MODE_EN 9 1).wr F.PRT_MODE_MODE 9 0, 0, 1, 9, by decide⟩

theorem witness_portLinks_2 :
    ∃ (s : State) (fn : Nat) (group : Nat), s.managedBy fn ∧ group < 2 ∧ s.failLane group = none :=
  ⟨State.reset, 0, 0, by decide⟩

theorem witness_portLinks_3 :
    ∃ (s : State) (port : Nat) (maxSkew : Nat) (refWait : Nat), port < 16 ∧ s.on F.PRT_STATUS_ACTIVE_EN port = true ∧ s.on F.PRT_STATUS_LINK_UP port = false ∧ s.isFenced (unitPort port) 0 = false :=
  ⟨State.reset.wr F.PRT_STATUS_ACTIVE_EN 15 1, 15, 0, 0, by decide⟩

theorem witness_portLinks_4 :
    ∃ (s : State) (port : Nat), port < 16 ∧ s.on F.PRT_STATUS_ACTIVE_EN port = true ∧ s.on F.PRT_STATUS_LOCAL_FAULT port = false :=
  ⟨State.reset.wr F.PRT_STATUS_ACTIVE_EN 15 1, 15, by decide⟩

theorem witness_portLinks_5 :
    ∃ (s : State) (port : Nat), port < 16 ∧ s.on F.PRT_STATUS_ACTIVE_EN port = true ∧ s.on F.PRT_STATUS_REMOTE_FAULT port = false :=
  ⟨State.reset.wr F.PRT_STATUS_ACTIVE_EN 15 1, 15, by decide⟩

theorem witness_portLinks_6 :
    ∃ (s : State) (port : Nat), s.on F.PRT_STATUS_LINK_UP port = true ∧ s.on F.PRT_STATUS_LOCAL_FAULT port = true ∧ s.localFault.get port + 10000 ≤ s.now :=
  ⟨{ (State.reset.wr F.PRT_STATUS_LINK_UP 3 1).wr F.PRT_STATUS_LOCAL_FAULT 3 1 with now := 10000 }, 3, by decide⟩

theorem witness_portLinks_7 :
    ∃ (s : State) (fn : Nat) (port : Nat) (v : Nat), s.managedBy fn ∧ port < 16 ∧ bit (putBits v 31 31 1) 31 = true ∧ bit (putBits v 31 31 1) 27 = false :=
  ⟨State.reset, 0, 15, 0, by decide⟩

theorem witness_portLinks_8 :
    ∃ (s : State) (fn : Nat) (port : Nat) (v : Nat), s.managedBy fn ∧ port < 16 ∧ bit (putBits v 27 27 1) 31 = false ∧ bit (putBits v 27 27 1) 27 = true :=
  ⟨State.reset, 0, 15, 0, by decide⟩

theorem witness_portLinks_9 :
    ∃ (s : State) (port : Nat), port < 16 ∧ s.windowStart (Ev.PRT_FEC_DEGRADED port) + 1000000000 ≤ s.now :=
  ⟨{ State.reset with now := 10 ^ 10 }, 15, by decide⟩

theorem witness_portFlowControl_1 :
    ∃ (s : State) (port : Nat) (time : Nat) (u : State), port < 16 ∧ s.on F.PRT_STATUS_LINK_UP port = true ∧ u = s.rxControl port ∧ u.honours port 1 = true :=
  ⟨((State.reset.wr F.PRT_STATUS_LINK_UP 15 1).wr F.PRT_FC_CFG_MODE 15 1).wr F.PRT_FC_CFG_RX_EN 15 1, 15, 65535, _, ⟨by decide, by decide, rfl, by decide⟩⟩

theorem witness_portFlowControl_2 :
    ∃ (s : State) (port : Nat) (time : Nat) (u : State), port < 16 ∧ s.on F.PRT_STATUS_LINK_UP port = true ∧ u = s.rxControl port ∧ u.honours port 1 = false :=
  ⟨State.reset.wr F.PRT_STATUS_LINK_UP 15 1, 15, 0, _, ⟨by decide, by decide, rfl, by decide⟩⟩

theorem witness_portFlowControl_3 :
    ∃ (s : State) (port : Nat) (enable : Nat) (times : List Nat), port < 16 ∧ s.on F.PRT_STATUS_LINK_UP port = true :=
  ⟨State.reset.wr F.PRT_STATUS_LINK_UP 15 1, 15, 0, [], by decide⟩

theorem witness_portFlowControl_4 :
    ∃ (s : State) (h : _) (port : Nat) (c : Nat), s.holds.getD (holdKey port c) none = some h ∧ c < 9 ∧ h.until_ ≤ s.now * 100 :=
  ⟨{ State.reset with now := 1, holds := [(holdKey 15 8, some { until_ := 5 })] }, { until_ := 5 }, 15, 8, by decide⟩

theorem witness_portFlowControl_5 :
    ∃ (s : State) (t : _) (port : Nat) (c : Nat), s.xoff.getD (holdKey port c) none = some t ∧ c < 9 ∧ (s.fcClasses port).contains c = true ∧ 100 * t + s.rd F.PRT_FC_QUANTA_REFRESH port * modeQuantum (s.rd F.PRT_STATUS_ACTIVE_MODE port) ≤ 100 * s.now ∧ s.rd F.PRT_FC_THRESH_XON_KIB port * 1024 < s.occupancy port (if c = 8 then none else some c) :=
  ⟨((({ State.reset with now := 10 ^ 9, xoff := [(holdKey 1 8, some 0)], pkts := [(1, { port := 1, fromWire := true, stage := .received, data := List.replicate 2000 0 })] }.wr F.PRT_FC_THRESH_XON_KIB 1 1).wr F.PRT_FC_CFG_TX_EN 1 1).wr F.PRT_FC_CFG_MODE 1 1), 0, 1, 8, by decide⟩

theorem witness_portFlowControl_6 :
    ∃ (s : State) (h : _) (port : Nat) (c : Nat), s.holds.getD (holdKey port c) none = some h ∧ c < 9 ∧ s.rd F.PRT_FC_CFG_STORM_MS port ≠ 0 ∧ h.storm = false ∧ h.since + s.rd F.PRT_FC_CFG_STORM_MS port * 1000000 ≤ s.now :=
  ⟨{ State.reset.wr F.PRT_FC_CFG_STORM_MS 2 1 with now := 1000000, holds := [(holdKey 2 3, some {})] }, {}, 2, 3, by decide⟩

theorem witness_portFlowControl_7 :
    ∃ (s : State) (fn : Nat) (port : Nat) (v : Nat), s.managedBy fn ∧ port < 16 ∧ bit v 31 = false :=
  ⟨State.reset, 0, 15, 0, by decide⟩

theorem witness_portFlowControl_8 :
    ∃ (s : State) (port : Nat), s.rd F.PRT_PREEMPT_VERIFY_STATUS port = 1 ∧ (s.verify.get port).2 + s.rd F.PRT_PREEMPT_VERIFY_MS port * 1000000 ≤ s.now ∧ (s.verify.get port).1 < 3 :=
  ⟨{ State.reset.wr F.PRT_PREEMPT_VERIFY_STATUS 15 1 with now := 10 ^ 9 }, 15, by decide⟩

theorem witness_portFlowControl_9 :
    ∃ (s : State) (port : Nat), s.rd F.PRT_PREEMPT_VERIFY_STATUS port = 1 ∧ (s.verify.get port).2 + s.rd F.PRT_PREEMPT_VERIFY_MS port * 1000000 ≤ s.now ∧ ¬(s.verify.get port).1 < 3 :=
  ⟨{ State.reset.wr F.PRT_PREEMPT_VERIFY_STATUS 15 1 with now := 10 ^ 9, verify := [(15, (3, 0))] }, 15, by decide⟩

theorem witness_portFlowControl_10 :
    ∃ (s : State) (port : Nat), s.rd F.PRT_PREEMPT_VERIFY_STATUS port = 1 :=
  ⟨State.reset.wr F.PRT_PREEMPT_VERIFY_STATUS 15 1, 15, by decide⟩

theorem witness_managementPort_1 :
    ∃ (s : State) (fn : Nat) (v : Nat), s.managedBy fn ∧ s.on F.GLB_COUNTER_OWNER_OWNER 0 = false ∧ v % 2 = 1 :=
  ⟨State.reset, 0, 1, by decide⟩

theorem witness_managementPort_2 :
    ∃ (s : State) (fn : Nat) (v : Nat), s.managedBy fn ∧ s.on F.GLB_COUNTER_OWNER_OWNER 0 = true :=
  ⟨State.reset.wr F.GLB_COUNTER_OWNER_OWNER 0 1, 0, 0, by decide⟩

theorem witness_managementPort_3 :
    ∃ (s : State) (data : Bytes) (good : Bool), s.on F.PRT_MGMT_CFG_EN 0 = true ∧ s.on F.PRT_MGMT_CFG_LINK_UP 0 = true ∧ data.length + 4 < 64 :=
  ⟨(State.reset.wr F.PRT_MGMT_CFG_EN 0 1).wr F.PRT_MGMT_CFG_LINK_UP 0 1, [], false, by decide⟩

theorem witness_managementPort_4 :
    ∃ (s : State) (data : Bytes) (good : Bool) (u : State), s.on F.PRT_MGMT_CFG_EN 0 = true ∧ s.on F.PRT_MGMT_CFG_LINK_UP 0 = true ∧ u = s.countRxAll 16 (data.length + 4) ∧ 60 ≤ data.length ∧ u.rd F.PRT_MAC_CFG_MAX_FRAME 16 < data.length + 4 :=
  ⟨((State.reset.wr F.PRT_MGMT_CFG_EN 0 1).wr F.PRT_MGMT_CFG_LINK_UP 0 1).wr F.PRT_MAC_CFG_MAX_FRAME 16 63, List.replicate 60 0, false, _, ⟨by decide, by decide, rfl, by decide, by decide⟩⟩

theorem witness_managementPort_5 :
    ∃ (s : State) (data : Bytes) (good : Bool) (u : State), s.on F.PRT_MGMT_CFG_EN 0 = true ∧ s.on F.PRT_MGMT_CFG_LINK_UP 0 = true ∧ u = s.countRxAll 16 (data.length + 4) ∧ 60 ≤ data.length ∧ data.length + 4 ≤ u.rd F.PRT_MAC_CFG_MAX_FRAME 16 ∧ good = false :=
  ⟨(State.reset.wr F.PRT_MGMT_CFG_EN 0 1).wr F.PRT_MGMT_CFG_LINK_UP 0 1, List.replicate 60 0, false, _, ⟨by decide, by decide, rfl, by decide, by decide, rfl⟩⟩

theorem witness_managementPort_6 :
    ∃ (s : State) (data : Bytes) (u : State) (v : State), s.on F.PRT_MGMT_CFG_EN 0 = true ∧ s.on F.PRT_MGMT_CFG_LINK_UP 0 = true ∧ u = s.countRxAll 16 (data.length + 4) ∧ 60 ≤ data.length ∧ data.length + 4 ≤ u.rd F.PRT_MAC_CFG_MAX_FRAME 16 ∧ v = u.countRxGood 16 data :=
  ⟨(State.reset.wr F.PRT_MGMT_CFG_EN 0 1).wr F.PRT_MGMT_CFG_LINK_UP 0 1, List.replicate 60 0, _, _, ⟨by decide, by decide, rfl, by decide, by decide, rfl⟩⟩

theorem witness_managementPort_7 :
    ∃ (s : State) (data : Bytes), s.on F.PRT_MGMT_CFG_EN 0 = true ∧ s.on F.PRT_MGMT_CFG_NCSI_EN 0 = true ∧ s.on F.PRT_MGMT_CFG_LINK_UP 0 = true ∧ s.ncsi.enabled = true ∧ s.ncsi.txEnabled = true :=
  ⟨{ ((State.reset.wr F.PRT_MGMT_CFG_EN 0 1).wr F.PRT_MGMT_CFG_NCSI_EN 0 1).wr F.PRT_MGMT_CFG_LINK_UP 0 1 with ncsi := { enabled := true, txEnabled := true } }, [], by decide⟩

theorem witness_managementPort_8 :
    ∃ (s : State) (cmd : NcSiCmd), s.ncsi.ready = false ∧ ncsiFirst cmd = false :=
  ⟨State.reset, .enableChannel, by decide⟩

theorem witness_managementPort_9 :
    ∃ (s : State) (cmd : NcSiCmd) (n : NcSi), (s.ncsi.ready = true ∨ ncsiFirst cmd = true) ∧ s.ncsi.set cmd = some n :=
  ⟨State.reset, .clearInitialState, _, ⟨by decide, rfl⟩⟩

theorem witness_managementPort_10 :
    ∃ (s : State), s.ncsi.ready = true :=
  ⟨{ State.reset with ncsi := { ready := true } }, by decide⟩

theorem witness_managementPort_11 :
    ∃ (s : State), s.ncsi.ready = true :=
  ⟨{ State.reset with ncsi := { ready := true } }, by decide⟩

theorem witness_managementPort_12 :
    ∃ (s : State), s.ncsi.ready = true :=
  ⟨{ State.reset with ncsi := { ready := true } }, by decide⟩

theorem witness_managementPort_13 :
    ∃ (s : State), s.ncsi.ready = true :=
  ⟨{ State.reset with ncsi := { ready := true } }, by decide⟩

theorem witness_managementPort_14 :
    ∃ (s : State), s.ncsi.ready = true :=
  ⟨{ State.reset with ncsi := { ready := true } }, by decide⟩

theorem witness_managementPort_15 :
    ∃ (s : State) (mac : Nat), s.ncsi.ready = true :=
  ⟨{ State.reset with ncsi := { ready := true } }, 0, by decide⟩

theorem witness_managementPort_16 :
    ∃ (s : State) (mac : Nat), s.ncsi.ready = true :=
  ⟨{ State.reset with ncsi := { ready := true } }, 0, by decide⟩

theorem witness_managementPort_17 :
    ∃ (s : State), s.ncsi.ready = true :=
  ⟨{ State.reset with ncsi := { ready := true } }, by decide⟩

theorem witness_managementPort_18 :
    ∃ (s : State), s.ncsi.ready = true :=
  ⟨{ State.reset with ncsi := { ready := true } }, by decide⟩

theorem witness_managementPort_19 :
    ∃ (s : State), s.ncsi.ready = true :=
  ⟨{ State.reset with ncsi := { ready := true } }, by decide⟩

theorem witness_managementPort_20 :
    ∃ (s : State) (n : Nat), s.ncsi.ready = true ∧ s.on F.GLB_COUNTER_OWNER_OWNER 0 = true :=
  ⟨{ State.reset.wr F.GLB_COUNTER_OWNER_OWNER 0 1 with ncsi := { ready := true } }, 0, by decide⟩

theorem witness_managementPort_21 :
    ∃ (s : State) (up : Nat), s.on F.PRT_MGMT_CFG_NCSI_EN 0 = true ∧ s.ncsi.enabled = true ∧ bit s.ncsi.aen 0 = true :=
  ⟨{ State.reset.wr F.PRT_MGMT_CFG_NCSI_EN 0 1 with ncsi := { enabled := true, aen := 1 } }, 0, by decide⟩

theorem witness_managementPort_22 :
    ∃ (s : State) (speed : Nat), s.on F.PRT_MGMT_CFG_EN 0 = true ∧ s.on F.PRT_MGMT_CFG_LINK_UP 0 = false :=
  ⟨State.reset.wr F.PRT_MGMT_CFG_EN 0 1, 0, by decide⟩

theorem witness_managementPort_23 :
    ∃ (s : State), s.on F.PRT_MGMT_CFG_LINK_UP 0 = true :=
  ⟨State.reset.wr F.PRT_MGMT_CFG_LINK_UP 0 1, by decide⟩

theorem witness_parsingAndTables_1 :
    ∃ (s : State) (h : Nat) (p : Packet) (u : State) (r : Parse), s.pkt h = some p ∧ p.stage = .received ∧ s.hasParse h p = true ∧ u = s.parseTaken p.pipe ∧ u.parse (grdCopy p.epoch p.pipe) p.data p.fromWire = r ∧ p.fromWire = true :=
  ⟨{ State.reset with pkts := [(1, {})] }, 1, {}, _, _, ⟨by decide, by decide, by decide, rfl, rfl, by decide⟩⟩

theorem witness_parsingAndTables_2 :
    ∃ (s : State) (h : Nat) (p : Packet) (u : State) (r : Parse), s.pkt h = some p ∧ p.stage = .received ∧ s.hasParse h p = true ∧ p.fromWire = false ∧ s.dispatchCredit p.pipe = true ∧ u = s.parseTaken p.pipe ∧ u.parse (grdCopy p.epoch p.pipe) p.data false = r ∧ r.err = 0 :=
  ⟨{ State.reset with pkts := [(1, { fromWire := false, data := List.replicate 12 1 ++ [0x88, 0xB5] ++ List.replicate 46 0 })] }, 1, { fromWire := false, data := List.replicate 12 1 ++ [0x88, 0xB5] ++ List.replicate 46 0 }, _, _, ⟨by decide, by decide, by decide, by decide, by decide, rfl, rfl, by decide⟩⟩

theorem witness_parsingAndTables_3 :
    ∃ (s : State) (p : _) (h : Nat), s.pkt h = some p ∧ p.stage = .parsed ∧ s.dispatchCredit p.pipe = true ∧ (s.l2Source p.pipe p.port (srcMac p.data) (outerVid p.data) false).2.1 ≠ 4 :=
  ⟨{ State.reset with pkts := [(1, { stage := .parsed })] }, { stage := .parsed }, 1, by decide⟩

theorem witness_parsingAndTables_4 :
    ∃ (s : State) (p : _) (h : Nat), s.pkt h = some p ∧ p.stage = .parsed ∧ s.dispatchCredit p.pipe = true ∧ (s.l2Source p.pipe p.port (srcMac p.data) (outerVid p.data) false).2.1 = 4 :=
  ⟨{ (State.reset.wr F.TBL_L2_PORT_LEARN_EN 2 1).wr F.TBL_L2_PORT_LIMIT 2 0 with pkts := [(1, { stage := .parsed, data := List.replicate 12 1, port := 2 })] }, { stage := .parsed, data := List.replicate 12 1, port := 2 }, 1, by decide⟩

theorem witness_parsingAndTables_5 :
    ∃ (s : State) (pipe : Nat) (entry : Nat), pipe < 4 ∧ s.visitDue pipe entry (s.l2.any (fun e => e.1 / 524288 == pipe && e.2.valid && !e.2.static && decide ((s.sweeps.get pipe).next ≤ e.1 % 524288 ∧ e.1 % 524288 < entry))) = true :=
  ⟨{ State.reset with now := 10 ^ 15, sweeps := [(3, { running := true, ageS := 1 })] }, 3, 0, by decide⟩

theorem witness_parsingAndTables_6 :
    ∃ (s : State) (pipe : Nat), pipe < 4 ∧ (s.sweeps.get pipe).running = true ∧ (s.sweeps.get pipe).start + (s.sweeps.get pipe).ageS * 1000000000 ≤ s.now :=
  ⟨{ State.reset with now := 10 ^ 9, sweeps := [(3, { running := true, ageS := 1 })] }, 3, by decide⟩

theorem witness_parsingAndTables_7 :
    ∃ (s : State) (half : Nat), half < 2 ∧ (s.sweeps.get (4 + half)).running = true ∧ (s.sweeps.get (4 + half)).start + (s.sweeps.get (4 + half)).ageS * 1000000000 ≤ s.now :=
  ⟨{ State.reset with now := 10 ^ 9, sweeps := [(5, { running := true, ageS := 1 })] }, 1, by decide⟩

theorem witness_parsingAndTables_8 :
    ∃ (s : State) (half : Nat) (loc : Nat), half < 2 ∧ s.visitDue (4 + half) loc (s.flow.any (fun e => e.1 / 33554432 == half && e.2.valid && !e.2.static && decide ((s.sweeps.get (4 + half)).next ≤ e.1 % 33554432 ∧ e.1 % 33554432 < loc))) = true :=
  ⟨{ State.reset with now := 10 ^ 15, sweeps := [(5, { running := true, ageS := 1 })] }, 1, 0, by decide⟩

theorem witness_parsingAndTables_9 :
    ∃ (s : State) (fn : Nat) (pipe : Nat) (v : Nat), s.managedBy fn ∧ pipe < 4 :=
  ⟨State.reset, 0, 3, 0, by decide⟩

theorem witness_parsingAndTables_10 :
    ∃ (s : State) (fn : Nat) (v : Nat), s.managedBy fn ∧ bit (putBits v 31 31 1) 31 = true :=
  ⟨State.reset, 0, 0, by decide⟩

theorem witness_dispatching_1 :
    ∃ (s : State) (pipe : Nat) (h : Nat) (t : Nat) (p : Packet), s.dispatchHead pipe = some h ∧ s.noCluster pipe = false ∧ s.pkt h = some p ∧ s.nextThread pipe p.epoch = some t ∧ s.isFenced (unitPipe pipe) 0 = false ∧ p.fromWire = true :=
  ⟨{ State.reset.wr F.BRW_CTRL_EN 0 1 with dispatchQ := [1], pkts := [(1, {})] }, 0, 1, 0, {}, by decide⟩

theorem witness_dispatching_2 :
    ∃ (s : State) (pipe : Nat) (h : Nat) (t : Nat) (p : Packet), s.dispatchHead pipe = some h ∧ s.noCluster pipe = false ∧ s.pkt h = some p ∧ s.nextThread pipe p.epoch = some t ∧ s.isFenced (unitPipe pipe) 0 = false ∧ p.fromWire = false ∧ p.gen ≠ s.rd F.HIF_FN_STATE_GEN p.func :=
  ⟨{ State.reset.wr F.BRW_CTRL_EN 0 1 with dispatchQ := [1], pkts := [(1, { fromWire := false, gen := 7 })] }, 0, 1, 0, { fromWire := false, gen := 7 }, by decide⟩

theorem witness_dispatching_3 :
    ∃ (s : State) (pipe : Nat) (h : Nat), s.dispatchHead pipe = some h ∧ s.noCluster pipe = true :=
  ⟨(List.range 4).foldl (fun u c => u.wr F.BRW_CTRL_FENCED c 1) { State.reset with dispatchQ := [1], pkts := [(1, {})] }, 0, 1, by decide⟩

theorem witness_dispatching_4 :
    ∃ (s : State) (h : Nat) (p : Packet) (u : State), s.pkt h = some p ∧ p.stage = .verdict ∧ s.inOrder p = true ∧ s.enqueueCredit p.pipe 1 = true ∧ u = ({ s.retire (.verdict p.pipe) with order := (s.retire (.verdict p.pipe)).order.filter (fun o => !(o.1 == p.pipe && o.2.1 == p.seq)) } : State) ∧ u.isFenced (unitPipe p.pipe) 0 = false ∧ bit p.verdict.word 59 = false ∧ p.doomed = false ∧ p.verdict.action = 0 :=
  ⟨{ State.reset with pkts := [(1, { stage := .verdict })] }, 1, { stage := .verdict }, _, ⟨by decide, by decide, by decide, by decide, rfl, by decide, by decide, by decide, by decide⟩⟩

theorem witness_dispatching_5 :
    ∃ (s : State) (h : Nat) (p : Packet) (u : State), s.pkt h = some p ∧ p.stage = .verdict ∧ s.inOrder p = true ∧ s.enqueueCredit p.pipe 1 = true ∧ u = ({ s.retire (.verdict p.pipe) with order := (s.retire (.verdict p.pipe)).order.filter (fun o => !(o.1 == p.pipe && o.2.1 == p.seq)) } : State) ∧ u.isFenced (unitPipe p.pipe) 0 = false ∧ bit p.verdict.word 59 = false ∧ p.doomed = false ∧ 1 ≤ p.verdict.action ∧ p.verdict.action ≤ 5 ∧ p.taken = false :=
  ⟨{ State.reset with pkts := [(1, { stage := .verdict, verdict := { action := 5 } })] }, 1, { stage := .verdict, verdict := { action := 5 } }, _, ⟨by decide, by decide, by decide, by decide, rfl, by decide, by decide, by decide, by decide, by decide, by decide⟩⟩

theorem witness_supervision_1 :
    ∃ (s : State) (c : Nat) (m : ChanMsg) (d : Decision), s.chan.find? (fun m => m.dest == 0x0C01 && clusterOf m.src == c) = some m ∧ m.type = 4 ∧ bits (m.word 0) 63 60 = 0 ∧ d = s.about m.decision ∧ s.targetOk c 0 d.target = true :=
  ⟨ctlState 0, 0, ctlMsg 0 5, _, ⟨by decide, by decide, by decide, rfl, by decide⟩⟩

theorem witness_supervision_2 :
    ∃ (s : State) (c : Nat) (m : ChanMsg) (d : Decision), s.chan.find? (fun m => m.dest == 0x0C01 && clusterOf m.src == c) = some m ∧ m.type = 4 ∧ bits (m.word 0) 63 60 = 1 ∧ d = s.about m.decision ∧ s.targetOk c 1 d.target = true :=
  ⟨ctlState 1, 0, ctlMsg 1 5, _, ⟨by decide, by decide, by decide, rfl, by decide⟩⟩

theorem witness_supervision_3 :
    ∃ (s : State) (c : Nat) (m : ChanMsg) (d : Decision), s.chan.find? (fun m => m.dest == 0x0C01 && clusterOf m.src == c) = some m ∧ m.type = 4 ∧ bits (m.word 0) 63 60 = 2 ∧ d = s.about m.decision ∧ s.targetOk c 2 d.target = true :=
  ⟨ctlState 2, 0, ctlMsg 2 5, _, ⟨by decide, by decide, by decide, rfl, by decide⟩⟩

theorem witness_supervision_4 :
    ∃ (s : State) (c : Nat) (m : ChanMsg) (d : Decision), s.chan.find? (fun m => m.dest == 0x0C01 && clusterOf m.src == c) = some m ∧ m.type = 4 ∧ bits (m.word 0) 63 60 = 3 ∧ d = s.about m.decision ∧ d.target < 1024 ∧ s.targetOk c 3 d.target = true :=
  ⟨ctlState 3, 0, ctlMsg 3 5, _, ⟨by decide, by decide, by decide, rfl, by decide, by decide⟩⟩

theorem witness_supervision_5 :
    ∃ (s : State) (c : Nat) (m : ChanMsg) (d : Decision), s.chan.find? (fun m => m.dest == 0x0C01 && clusterOf m.src == c) = some m ∧ m.type = 4 ∧ bits (m.word 0) 63 60 = 4 ∧ d = s.about m.decision ∧ s.targetOk c 4 d.target = true :=
  ⟨ctlState 4, 0, ctlMsg 4 5, _, ⟨by decide, by decide, by decide, rfl, by decide⟩⟩

theorem witness_supervision_6 :
    ∃ (s : State) (t : Nat), t < 2048 ∧ (s.thread t).st = .parked ∧ (s.thread t).escalated = false ∧ (s.thread t).faultAt + s.rd F.BRW_SUP_TIMEOUT_US (clusterOf t) * 1000 ≤ s.now :=
  ⟨{ State.reset with now := 10 ^ 12, threads := [(1023, { st := .parked })] }, 1023, by decide⟩

theorem witness_supervision_7 :
    ∃ (s : State) (t : Nat), t < 2048 ∧ (s.thread t).pkt.isSome = true ∧ ((s.thread t).st = .ready ∨ (s.thread t).st = .stalled ∨ (s.thread t).st = .waiting) ∧ s.heldLong t = true :=
  ⟨{ State.reset with now := 10 ^ 12, threads := [(1023, { st := .ready, pkt := some 1 })] }, 1023, by decide⟩

theorem witness_supervision_8 :
    ∃ (s : State) (c : Nat) (e : Nat), c < 16 ∧ e < 8 ∧ ((s.allWaiting c e false = true ∨ s.allWaiting c e true = true)) :=
  ⟨{ State.reset with threads := (List.range 8).map (fun k => (64 * 15 + 56 + k, { st := .waiting, pkt := some 1 })), now := 10 ^ 12 }, 15, 7, by decide⟩

theorem witness_supervision_9 :
    ∃ (s : State) (fn : Nat) (t : Nat) (o : Nat) (w : Width) (v : Nat), s.managedBy fn :=
  ⟨State.reset, 0, 0, 0, .full, 0, by decide⟩

theorem witness_supervision_10 :
    ∃ (s : State) (c : Nat) (bank : Nat) (a : Nat) (p0 : Nat) (p1 : Nat), s.csBad.get (csKey c bank a) = true ∧ 0x6000 ≤ a :=
  ⟨{ State.reset with csBad := [(csKey 0 0 0x6000, true)] }, 0, 0, 0x6000, 0, 0, by decide⟩

theorem witness_supervision_11 :
    ∃ (s : State) (c : Nat) (bank : Nat) (a : Nat) (p0 : Nat) (p1 : Nat) (i : Nat) (j : Nat), s.csBad.get (csKey c bank a) = true ∧ a < 0x6000 ∧ s.repairEntry c 0 = some i ∧ s.repairEntry c 1 = some j ∧ s.patchFree c 0 p0 = true ∧ s.patchFree c 1 p1 = true :=
  ⟨{ State.reset with csBad := [(csKey 0 0 0x5FFF, true)] }, 0, 0, 0x5FFF, 0x6000, 0x7FFF, 28, 28, by decide⟩

theorem witness_supervision_12 :
    ∃ (s : State) (c : Nat) (bank : Nat) (a : Nat) (p0 : Nat) (p1 : Nat), s.csBad.get (csKey c bank a) = true ∧ a < 0x6000 ∧ s.repairEntry c 0 = none :=
  ⟨{ (List.range 4).foldl (fun u k => u.wr F.CS_MATCH_EN (28 + k) 1) State.reset with csBad := [(csKey 0 0 0x5FFF, true)] }, 0, 0, 0x5FFF, 0, 0, by decide⟩

theorem witness_supervision_13 :
    ∃ (s : State) (c : Nat) (m : ChanMsg) (reply : HostReply) (u : State), s.chan.find? (fun m => m.dest == 0x500 + c) = some m ∧ m.type = 1 ∧ u = (s.accepted m).posted m ∧ u.mayDma (bits (m.word 0) 27 16) = true ∧ 0 < bits (m.word 0) 15 0 ∧ bits (m.word 0) 15 0 ≤ 48 ∧ bit (m.word 0) 28 = true ∧ bit (m.word 0) 29 = false ∧ reply ≠ .xlateFault :=
  ⟨hostMsgState, 0, hostMsg, .poisoned, _, ⟨by decide, by decide, rfl, by decide, by decide, by decide, by decide, by decide, by decide⟩⟩

theorem witness_supervision_14 :
    ∃ (s : State) (c : Nat) (m : ChanMsg) (u : State), s.chan.find? (fun m => m.dest == 0x500 + c) = some m ∧ m.type = 1 ∧ (s.accepted m).mayDma (bits (m.word 0) 27 16) = false ∧ u = (s.accepted m).posted m ∧ u.mayDma (bits (m.word 0) 27 16) = false :=
  ⟨{ hostMsgState with fns := [] }, 0, hostMsg, _, ⟨by decide, by decide, by decide, rfl, by decide⟩⟩

theorem witness_supervision_15 :
    ∃ (s : State) (c : Nat) (m : ChanMsg) (u : State), s.chan.find? (fun m => m.dest == 0x500 + c) = some m ∧ m.type = 1 ∧ (s.accepted m).mayDma (bits (m.word 0) 27 16) = true ∧ 0 < bits (m.word 0) 15 0 ∧ bits (m.word 0) 15 0 ≤ 48 ∧ u = (s.accepted m).hostFault m (bits (m.word 0) 27 16) (if bit (m.word 0) 29 then some (bits (m.word 0) 49 30) else none) (m.word 1) (bit (m.word 0) 28) :=
  ⟨hostMsgState, 0, hostMsg, _, ⟨by decide, by decide, by decide, by decide, by decide, rfl⟩⟩

theorem witness_aluArithmetic_1 :
    ∃ (s : State) (t : Nat) (f : AluArgs) (imm : Nat) (strict : Bool) (a : Nat) (b : Nat), s.aluRuns t 2 f ∧ a = s.operand t imm 0 f.a ∧ b = shapeB (s.operand t imm 1 f.b) f.shift :=
  ⟨ready0, 0, { sf := true, dst := 0, a := 0, b := 0, shift := 0 }, 0, false, ready0.operand 0 0 0 0, shapeB (ready0.operand 0 0 1 0) 0, by decide⟩

theorem witness_aluArithmetic_2 :
    ∃ (s : State) (t : Nat) (f : AluArgs) (imm : Nat) (strict : Bool) (a : Nat) (b : Nat), s.aluRuns t 3 f ∧ a = s.operand t imm 0 f.a ∧ b = shapeB (s.operand t imm 1 f.b) f.shift :=
  ⟨ready0, 0, { sf := true, dst := 0, a := 0, b := 0, shift := 0 }, 0, false, ready0.operand 0 0 0 0, shapeB (ready0.operand 0 0 1 0) 0, by decide⟩

theorem witness_aluArithmetic_3 :
    ∃ (s : State) (t : Nat) (f : AluArgs) (imm : Nat) (strict : Bool) (a : Nat) (b : Nat), s.aluRuns t 11 f ∧ a = s.operand t imm 0 f.a ∧ b = shapeB (s.operand t imm 1 f.b) f.shift :=
  ⟨ready0, 0, { sf := true, dst := 0, a := 0, b := 0, shift := 0 }, 0, false, ready0.operand 0 0 0 0, shapeB (ready0.operand 0 0 1 0) 0, by decide⟩

theorem witness_aluArithmetic_4 :
    ∃ (s : State) (t : Nat) (f : AluArgs) (imm : Nat) (strict : Bool) (a : Nat) (b : Nat), s.aluRuns t 12 f ∧ a = s.operand t imm 0 f.a ∧ b = shapeB (s.operand t imm 1 f.b) f.shift :=
  ⟨ready0, 0, { sf := true, dst := 0, a := 0, b := 0, shift := 0 }, 0, false, ready0.operand 0 0 0 0, shapeB (ready0.operand 0 0 1 0) 0, by decide⟩

theorem witness_aluArithmetic_5 :
    ∃ (s : State) (t : Nat) (f : AluArgs) (imm : Nat) (strict : Bool) (a : Nat) (b : Nat), s.aluRuns t 13 f ∧ a = s.operand t imm 0 f.a ∧ b = shapeB (s.operand t imm 1 f.b) f.shift :=
  ⟨ready0, 0, { sf := true, dst := 0, a := 0, b := 0, shift := 0 }, 0, false, ready0.operand 0 0 0 0, shapeB (ready0.operand 0 0 1 0) 0, by decide⟩

theorem witness_aluArithmetic_6 :
    ∃ (s : State) (t : Nat) (f : AluArgs) (imm : Nat) (strict : Bool) (a : Nat) (b : Nat), s.aluRuns t 14 f ∧ a = s.operand t imm 0 f.a ∧ b = shapeB (s.operand t imm 1 f.b) f.shift :=
  ⟨ready0, 0, { sf := true, dst := 0, a := 0, b := 0, shift := 0 }, 0, false, ready0.operand 0 0 0 0, shapeB (ready0.operand 0 0 1 0) 0, by decide⟩

theorem witness_aluArithmetic_7 :
    ∃ (s : State) (t : Nat) (f : AluArgs) (imm : Nat) (strict : Bool) (a : Nat) (b : Nat) (c : Nat), s.aluRuns t 20 f ∧ a = s.operand t imm 0 f.a ∧ b = shapeB (s.operand t imm 1 f.b) f.shift ∧ c = b2n (bit (s.thread t).flags 2) :=
  ⟨ready0, 0, { sf := true, dst := 0, a := 0, b := 0, shift := 0 }, 0, false, ready0.operand 0 0 0 0, shapeB (ready0.operand 0 0 1 0) 0, 0, by decide⟩

theorem witness_aluArithmetic_8 :
    ∃ (s : State) (t : Nat) (f : AluArgs) (imm : Nat) (strict : Bool) (a : Nat) (b : Nat) (c : Nat), s.aluRuns t 21 f ∧ a = s.operand t imm 0 f.a ∧ b = shapeB (s.operand t imm 1 f.b) f.shift ∧ c = b2n (bit (s.thread t).flags 2) :=
  ⟨ready0, 0, { sf := true, dst := 0, a := 0, b := 0, shift := 0 }, 0, false, ready0.operand 0 0 0 0, shapeB (ready0.operand 0 0 1 0) 0, 0, by decide⟩

theorem witness_aluArithmetic_9 :
    ∃ (s : State) (t : Nat) (f : AluArgs) (imm : Nat) (strict : Bool) (a : Nat) (b : Nat), s.aluRuns t 22 f ∧ a = s.operand t imm 0 f.a ∧ b = shapeB (s.operand t imm 1 f.b) f.shift :=
  ⟨ready0, 0, { sf := true, dst := 0, a := 0, b := 0, shift := 0 }, 0, false, ready0.operand 0 0 0 0, shapeB (ready0.operand 0 0 1 0) 0, by decide⟩

theorem witness_aluArithmetic_10 :
    ∃ (s : State) (t : Nat) (f : AluArgs) (imm : Nat) (strict : Bool) (a : Nat) (b : Nat), s.aluRuns t 23 f ∧ a = s.operand t imm 0 f.a ∧ b = shapeB (s.operand t imm 1 f.b) f.shift :=
  ⟨ready0, 0, { sf := true, dst := 0, a := 0, b := 0, shift := 0 }, 0, false, ready0.operand 0 0 0 0, shapeB (ready0.operand 0 0 1 0) 0, by decide⟩

theorem witness_aluBits_1 :
    ∃ (s : State) (t : Nat) (f : AluArgs) (imm : Nat) (strict : Bool) (b : Nat), s.aluRuns t 1 f ∧ b = shapeB (s.operand t imm 1 f.b) f.shift :=
  ⟨ready0, 0, { sf := true, dst := 0, a := 0, b := 0, shift := 0 }, 0, false, shapeB (ready0.operand 0 0 1 0) 0, by decide⟩

theorem witness_aluBits_2 :
    ∃ (s : State) (t : Nat) (f : AluArgs) (imm : Nat) (strict : Bool) (a : Nat) (b : Nat), s.aluRuns t 4 f ∧ a = s.operand t imm 0 f.a ∧ b = shapeB (s.operand t imm 1 f.b) f.shift :=
  ⟨ready0, 0, { sf := true, dst := 0, a := 0, b := 0, shift := 0 }, 0, false, ready0.operand 0 0 0 0, shapeB (ready0.operand 0 0 1 0) 0, by decide⟩

theorem witness_aluBits_3 :
    ∃ (s : State) (t : Nat) (f : AluArgs) (imm : Nat) (strict : Bool) (a : Nat) (b : Nat), s.aluRuns t 5 f ∧ a = s.operand t imm 0 f.a ∧ b = shapeB (s.operand t imm 1 f.b) f.shift :=
  ⟨ready0, 0, { sf := true, dst := 0, a := 0, b := 0, shift := 0 }, 0, false, ready0.operand 0 0 0 0, shapeB (ready0.operand 0 0 1 0) 0, by decide⟩

theorem witness_aluBits_4 :
    ∃ (s : State) (t : Nat) (f : AluArgs) (imm : Nat) (strict : Bool) (a : Nat) (b : Nat), s.aluRuns t 6 f ∧ a = s.operand t imm 0 f.a ∧ b = shapeB (s.operand t imm 1 f.b) f.shift :=
  ⟨ready0, 0, { sf := true, dst := 0, a := 0, b := 0, shift := 0 }, 0, false, ready0.operand 0 0 0 0, shapeB (ready0.operand 0 0 1 0) 0, by decide⟩

theorem witness_aluBits_5 :
    ∃ (s : State) (t : Nat) (f : AluArgs) (imm : Nat) (strict : Bool) (a : Nat) (b : Nat), s.aluRuns t 7 f ∧ a = s.operand t imm 0 f.a ∧ b = shapeB (s.operand t imm 1 f.b) f.shift :=
  ⟨ready0, 0, { sf := true, dst := 0, a := 0, b := 0, shift := 0 }, 0, false, ready0.operand 0 0 0 0, shapeB (ready0.operand 0 0 1 0) 0, by decide⟩

theorem witness_aluBits_6 :
    ∃ (s : State) (t : Nat) (f : AluArgs) (imm : Nat) (strict : Bool) (a : Nat) (b : Nat), s.aluRuns t 8 f ∧ a = s.operand t imm 0 f.a ∧ b = shapeB (s.operand t imm 1 f.b) f.shift :=
  ⟨ready0, 0, { sf := true, dst := 0, a := 0, b := 0, shift := 0 }, 0, false, ready0.operand 0 0 0 0, shapeB (ready0.operand 0 0 1 0) 0, by decide⟩

theorem witness_aluBits_7 :
    ∃ (s : State) (t : Nat) (f : AluArgs) (imm : Nat) (strict : Bool) (a : Nat) (b : Nat), s.aluRuns t 9 f ∧ a = s.operand t imm 0 f.a ∧ b = shapeB (s.operand t imm 1 f.b) f.shift :=
  ⟨ready0, 0, { sf := true, dst := 0, a := 0, b := 0, shift := 0 }, 0, false, ready0.operand 0 0 0 0, shapeB (ready0.operand 0 0 1 0) 0, by decide⟩

theorem witness_aluBits_8 :
    ∃ (s : State) (t : Nat) (f : AluArgs) (imm : Nat) (strict : Bool) (a : Nat) (b : Nat), s.aluRuns t 10 f ∧ a = s.operand t imm 0 f.a ∧ b = shapeB (s.operand t imm 1 f.b) f.shift :=
  ⟨ready0, 0, { sf := true, dst := 0, a := 0, b := 0, shift := 0 }, 0, false, ready0.operand 0 0 0 0, shapeB (ready0.operand 0 0 1 0) 0, by decide⟩

theorem witness_aluBits_9 :
    ∃ (s : State) (t : Nat) (f : AluArgs) (imm : Nat) (strict : Bool) (a : Nat), s.aluRuns t 15 f ∧ a = s.operand t imm 0 f.a :=
  ⟨ready0, 0, { sf := true, dst := 0, a := 0, b := 0, shift := 0 }, 0, false, ready0.operand 0 0 0 0, by decide⟩

theorem witness_aluBits_10 :
    ∃ (s : State) (t : Nat) (f : AluArgs) (imm : Nat) (strict : Bool) (b : Nat), s.aluRuns t 16 f ∧ b = shapeB (s.operand t imm 1 f.b) f.shift :=
  ⟨ready0, 0, { sf := true, dst := 0, a := 0, b := 0, shift := 0 }, 0, false, shapeB (ready0.operand 0 0 1 0) 0, by decide⟩

theorem witness_aluBits_11 :
    ∃ (s : State) (t : Nat) (f : AluArgs) (imm : Nat) (strict : Bool) (b : Nat), s.aluRuns t 17 f ∧ b = shapeB (s.operand t imm 1 f.b) f.shift :=
  ⟨ready0, 0, { sf := true, dst := 0, a := 0, b := 0, shift := 0 }, 0, false, shapeB (ready0.operand 0 0 1 0) 0, by decide⟩

theorem witness_aluBits_12 :
    ∃ (s : State) (t : Nat) (f : AluArgs) (imm : Nat) (strict : Bool) (b : Nat), s.aluRuns t 18 f ∧ b = shapeB (s.operand t imm 1 f.b) f.shift :=
  ⟨ready0, 0, { sf := true, dst := 0, a := 0, b := 0, shift := 0 }, 0, false, shapeB (ready0.operand 0 0 1 0) 0, by decide⟩

theorem witness_aluBits_13 :
    ∃ (s : State) (t : Nat) (f : AluArgs) (imm : Nat) (strict : Bool) (a : Nat) (b : Nat), s.aluRuns t 19 f ∧ a = s.operand t imm 0 f.a ∧ b = shapeB (s.operand t imm 1 f.b) f.shift :=
  ⟨ready0, 0, { sf := true, dst := 0, a := 0, b := 0, shift := 0 }, 0, false, ready0.operand 0 0 0 0, shapeB (ready0.operand 0 0 1 0) 0, by decide⟩

theorem witness_memoryParts_1 :
    ∃ (s : State) (u : State) (t : Nat) (f : MemArgs) (strict : Bool), s.memRuns t 1 f ∧ u = s.made t :=
  ⟨ready0, ready0.made 0, 0, { idx := false, scale := 0, reg := 40, space := 0, offset := 0, size := 8 }, false, by decide⟩

theorem witness_memoryParts_2 :
    ∃ (s : State) (u : State) (t : Nat) (f : MemArgs) (strict : Bool), s.memRuns t 2 f ∧ u = s.made t :=
  ⟨ready0, ready0.made 0, 0, { idx := false, scale := 0, reg := 40, space := 0, offset := 0, size := 1 }, false, by decide⟩

theorem witness_memoryParts_3 :
    ∃ (s : State) (u : State) (t : Nat) (f : MemArgs) (strict : Bool), s.memRuns t 3 f ∧ u = s.made t :=
  ⟨ready0, ready0.made 0, 0, { idx := false, scale := 0, reg := 40, space := 0, offset := 0, size := 8 }, false, by decide⟩

theorem witness_memoryParts_4 :
    ∃ (s : State) (u : State) (t : Nat) (f : MemArgs) (strict : Bool), s.memRuns t 4 f ∧ u = s.made t :=
  ⟨ready0, ready0.made 0, 0, { idx := false, scale := 0, reg := 40, space := 0, offset := 0, size := 8 }, false, by decide⟩

theorem witness_memoryParts_5 :
    ∃ (s : State) (u : State) (t : Nat) (f : MemArgs) (strict : Bool), s.memRuns t 5 f ∧ u = s.made t :=
  ⟨ready0, ready0.made 0, 0, { idx := false, scale := 0, reg := 40, space := 0, offset := 0, size := 8 }, false, by decide⟩

theorem witness_memoryParts_6 :
    ∃ (s : State) (u : State) (t : Nat) (f : MemArgs) (strict : Bool), s.memRuns t 6 f ∧ u = s.made t :=
  ⟨ready0, ready0.made 0, 0, { idx := false, scale := 0, reg := 40, space := 0, offset := 0, size := 8 }, false, by decide⟩

theorem witness_memoryParts_7 :
    ∃ (s : State) (p : Pending) (t : Nat), (s.thread t).pend.find? (fun p => !p.table) = some p ∧ p.bad = false :=
  ⟨pend0 false, { dests := [5], values := [7] }, 0, by decide⟩

theorem witness_memoryParts_8 :
    ∃ (s : State) (p : Pending) (t : Nat) (bad : Bool), (s.thread t).pend.find? (fun p => !p.table) = some p ∧ (bad || p.bad) = true :=
  ⟨pend0 false, { dests := [5], values := [7] }, 0, true, by decide⟩

theorem witness_tableParts_1 :
    ∃ (s : State) (u : State) (t : Nat) (f : TblArgs) (strict : Bool) (key : List Nat), s.tblRuns t 1 f ∧ u = s.made t ∧ key = (block f.key (tblKeyLen 1 f.table)).map (fun o => (u.thread t).ops.get o) :=
  ⟨ready0, ready0.made 0, 0, { table := 3, key := 0, res := 0, flags := 0 }, false, List.replicate (tblKeyLen 1 ({ table := 3, key := 0, res := 0, flags := 0 } : TblArgs).table) 0, by decide⟩

theorem witness_tableParts_2 :
    ∃ (s : State) (u : State) (t : Nat) (f : TblArgs) (strict : Bool) (key : List Nat), s.tblRuns t 2 f ∧ u = s.made t ∧ key = (block f.key (tblKeyLen 2 f.table)).map (fun o => (u.thread t).ops.get o) :=
  ⟨ready0, ready0.made 0, 0, { table := 1, key := 0, res := 0, flags := 0 }, false, List.replicate (tblKeyLen 2 ({ table := 1, key := 0, res := 0, flags := 0 } : TblArgs).table) 0, by decide⟩

theorem witness_tableParts_3 :
    ∃ (s : State) (u : State) (t : Nat) (f : TblArgs) (strict : Bool) (key : List Nat), s.tblRuns t 3 f ∧ u = s.made t ∧ key = (block f.key (tblKeyLen 3 f.table)).map (fun o => (u.thread t).ops.get o) :=
  ⟨ready0, ready0.made 0, 0, { table := 1, key := 0, res := 0, flags := 0 }, false, List.replicate (tblKeyLen 3 ({ table := 1, key := 0, res := 0, flags := 0 } : TblArgs).table) 0, by decide⟩

theorem witness_tableParts_4 :
    ∃ (s : State) (u : State) (t : Nat) (f : TblArgs) (strict : Bool) (key : List Nat), s.tblRuns t 4 f ∧ u = s.made t ∧ key = (block f.key (tblKeyLen 4 f.table)).map (fun o => (u.thread t).ops.get o) :=
  ⟨ready0, ready0.made 0, 0, { table := 0, key := 0, res := 0, flags := 0 }, false, List.replicate (tblKeyLen 4 ({ table := 0, key := 0, res := 0, flags := 0 } : TblArgs).table) 0, by decide⟩

theorem witness_tableParts_5 :
    ∃ (s : State) (p : Pending) (t : Nat), (s.thread t).pend.find? (fun p => p.table) = some p :=
  ⟨pend0 true, { dests := [5], values := [7], table := true }, 0, by decide⟩

theorem witness_tableParts_6 :
    ∃ (s : State) (p : Pending) (t : Nat), (s.thread t).pend.find? (fun p => p.table) = some p :=
  ⟨pend0 true, { dests := [5], values := [7], table := true }, 0, by decide⟩

theorem witness_channels_1 :
    ∃ (s : State) (t : Nat), s.canIssue t = true ∧ s.stale (s.thread t) = false ∧ (s.thread t).postBad t = false ∧ s.chanCredit t (bits (s.thread t).stageHdr 63 48) = true :=
  ⟨ready0, 0, by decide⟩

theorem witness_channels_2 :
    ∃ (s : State) (t : Nat), s.canIssue t = true ∧ s.stale (s.thread t) = false ∧ (s.thread t).postBad t = true :=
  ⟨{ State.reset with threads := [(0, { st := .ready, stageHdr := 2 ^ 48 * 0xC01 })] }, 0, by decide⟩

theorem witness_channels_3 :
    ∃ (s : State) (m : _) (t : Nat), s.chan.find? (fun m => decide (m.dest ≤ 0x3FF) && s.receiver m == t && (m.type == 3 || decide ((s.thread t).load < 4))) = some m :=
  ⟨{ State.reset with chan := [{}] }, {}, 0, by decide⟩

theorem witness_channels_4 :
    ∃ (s : State) (t : Nat), s.canIssue t = true :=
  ⟨ready0, 0, by decide⟩

theorem witness_channels_5 :
    ∃ (s : State) (t : Nat) (v : Nat), s.canIssue t = true :=
  ⟨ready0, 0, 0, by decide⟩

theorem witness_channels_6 :
    ∃ (s : State) (t : Nat) (v : Nat), s.canIssue t = true :=
  ⟨ready0, 0, 0, by decide⟩

theorem witness_channels_7 :
    ∃ (s : State) (m : _) (c : Nat), s.chan.find? (fun m => m.dest == 0xC00 && clusterOf m.src == c) = some m :=
  ⟨{ State.reset with chan := [{ header := 2 ^ 48 * 0xC00 + 2 ^ 32 * 70 }] }, { header := 2 ^ 48 * 0xC00 + 2 ^ 32 * 70 }, 1, by decide⟩

theorem witness_channels_8 :
    ∃ (s : State) (t : Nat), t < 2048 ∧ (s.thread t).ops.get 93 ≠ 0 ∧ (s.thread t).timerDone = false ∧ (s.stamp + W64 - (s.thread t).ops.get 93) % W64 < 2 ^ 63 :=
  ⟨{ State.reset with time := { sec := 10 }, threads := [(0, { ops := [(93, 5)] })] }, 0, by decide⟩

theorem witness_sequencerSteps_1 :
    ∃ (s : State) (u : State) (t : Nat) (w : Nat) (pc : Nat) (x : WordIo), s.wordIssues t 0 w pc ∧ x.csBad = false ∧ x.regBad = false ∧ u = s.atWord t w pc x :=
  ⟨wordState (seqWord 0 0), _, 0, (seqWord 0 0), 0x6000, {}, ⟨by decide, by decide, by decide, rfl⟩⟩

theorem witness_sequencerSteps_2 :
    ∃ (s : State) (u : State) (t : Nat) (w : Nat) (pc : Nat) (x : WordIo), s.wordIssues t 1 w pc ∧ x.csBad = false ∧ x.regBad = false ∧ u = s.atWord t w pc x :=
  ⟨wordState (seqWord 1 9), _, 0, (seqWord 1 9), 0x6000, {}, ⟨by decide, by decide, by decide, rfl⟩⟩

theorem witness_sequencerSteps_3 :
    ∃ (s : State) (u : State) (t : Nat) (w : Nat) (pc : Nat) (x : WordIo), s.wordIssues t 2 w pc ∧ x.csBad = false ∧ x.regBad = false ∧ u = s.atWord t w pc x :=
  ⟨wordState (seqWord 2 9), _, 0, (seqWord 2 9), 0x6000, {}, ⟨by decide, by decide, by decide, rfl⟩⟩

theorem witness_sequencerSteps_4 :
    ∃ (s : State) (u : State) (t : Nat) (w : Nat) (pc : Nat) (x : WordIo), s.wordIssues t 3 w pc ∧ x.csBad = false ∧ x.regBad = false ∧ u = s.atWord t w pc x :=
  ⟨wordState (seqWord 3 9), _, 0, (seqWord 3 9), 0x6000, {}, ⟨by decide, by decide, by decide, rfl⟩⟩

theorem witness_sequencerSteps_5 :
    ∃ (s : State) (u : State) (t : Nat) (w : Nat) (pc : Nat) (x : WordIo), s.wordIssues t 4 w pc ∧ x.csBad = false ∧ x.regBad = false ∧ u = s.atWord t w pc x ∧ (s.thread t).stack.length < 8 :=
  ⟨wordState (seqWord 4 9), _, 0, (seqWord 4 9), 0x6000, {}, ⟨by decide, by decide, by decide, rfl, by decide⟩⟩

theorem witness_sequencerSteps_6 :
    ∃ (s : State) (u : State) (t : Nat) (w : Nat) (pc : Nat) (x : WordIo), s.wordIssues t 5 w pc ∧ x.csBad = false ∧ x.regBad = false ∧ u = s.atWord t w pc x ∧ (s.thread t).stack ≠ [] :=
  ⟨wordState (seqWord 5 0), _, 0, (seqWord 5 0), 0x6000, {}, ⟨by decide, by decide, by decide, rfl, by decide⟩⟩

theorem witness_sequencerSteps_7 :
    ∃ (s : State) (u : State) (t : Nat) (w : Nat) (pc : Nat) (x : WordIo), s.wordIssues t 6 w pc ∧ x.csBad = false ∧ x.regBad = false ∧ u = s.atWord t w pc x :=
  ⟨wordState (seqWord 6 9), _, 0, (seqWord 6 9), 0x6000, {}, ⟨by decide, by decide, by decide, rfl⟩⟩

theorem witness_sequencerSteps_8 :
    ∃ (s : State) (u : State) (t : Nat) (w : Nat) (pc : Nat) (x : WordIo), s.wordIssues t 7 w pc ∧ x.csBad = false ∧ x.regBad = false ∧ u = s.atWord t w pc x ∧ (s.thread t).eventBits &&& wTarget w ≠ 0 ∧ u.supMoves t = false :=
  ⟨wordState (seqWord 7 2), _, 0, (seqWord 7 2), 0x6000, {}, ⟨by decide, by decide, by decide, rfl, by decide, by decide⟩⟩

theorem witness_sequencerSteps_9 :
    ∃ (s : State) (v : State) (u : State) (t : Nat) (w : Nat) (pc : Nat) (x : WordIo), v = s.when x.cellBad (fun a => a.damage t) ∧ v.wordIssues t 8 w pc ∧ x.csBad = false ∧ x.regBad = false ∧ u = v.atWord t w pc x ∧ u.doneWaits t = false ∧ u.stale (u.thread t) = false :=
  ⟨wordState (seqWord 8 0), _, _, 0, (seqWord 8 0), 0x6000, {}, ⟨rfl, by decide, by decide, by decide, rfl, by decide, by decide⟩⟩

theorem witness_sequencerSteps_10 :
    ∃ (s : State) (u : State) (t : Nat) (w : Nat) (pc : Nat) (x : WordIo), s.wordIssues t 9 w pc ∧ x.csBad = false ∧ x.regBad = false ∧ u = s.atWord t w pc x :=
  ⟨wordState (seqWord 9 0), _, 0, (seqWord 9 0), 0x6000, {}, ⟨by decide, by decide, by decide, rfl⟩⟩

theorem witness_sequencerAddresses_1 :
    ∃ (s : State) (u : State) (t : Nat) (w : Nat) (pc : Nat) (x : WordIo), s.wordIssues t 0 w pc ∧ x.csBad = false ∧ x.regBad = false ∧ u = s.atWord t w pc x ∧ (s.thread t).stepping = false :=
  ⟨wordState (seqWord 0 0), _, 0, (seqWord 0 0), 0x6000, {}, ⟨by decide, by decide, by decide, rfl, by decide⟩⟩

theorem witness_sequencerAddresses_2 :
    ∃ (s : State) (u : State) (t : Nat) (w : Nat) (pc : Nat) (x : WordIo), s.wordIssues t 1 w pc ∧ x.csBad = false ∧ x.regBad = false ∧ u = s.atWord t w pc x ∧ (s.thread t).stepping = false :=
  ⟨wordState (seqWord 1 9), _, 0, (seqWord 1 9), 0x6000, {}, ⟨by decide, by decide, by decide, rfl, by decide⟩⟩

theorem witness_sequencerAddresses_3 :
    ∃ (s : State) (u : State) (t : Nat) (w : Nat) (pc : Nat) (x : WordIo), s.wordIssues t 2 w pc ∧ x.csBad = false ∧ x.regBad = false ∧ u = s.atWord t w pc x ∧ (s.thread t).stepping = false ∧ condReserved (wCond w) = false :=
  ⟨wordState (seqWord 2 9), _, 0, (seqWord 2 9), 0x6000, {}, ⟨by decide, by decide, by decide, rfl, by decide, by decide⟩⟩

theorem witness_sequencerAddresses_4 :
    ∃ (s : State) (u : State) (t : Nat) (w : Nat) (pc : Nat) (x : WordIo), s.wordIssues t 3 w pc ∧ x.csBad = false ∧ x.regBad = false ∧ u = s.atWord t w pc x ∧ (s.thread t).stepping = false ∧ condReserved (wCond w) = false :=
  ⟨wordState (seqWord 3 9), _, 0, (seqWord 3 9), 0x6000, {}, ⟨by decide, by decide, by decide, rfl, by decide, by decide⟩⟩

theorem witness_sequencerAddresses_5 :
    ∃ (s : State) (u : State) (t : Nat) (w : Nat) (pc : Nat) (x : WordIo), s.wordIssues t 4 w pc ∧ x.csBad = false ∧ x.regBad = false ∧ u = s.atWord t w pc x ∧ (s.thread t).stepping = false ∧ (s.thread t).stack.length < 8 :=
  ⟨wordState (seqWord 4 9), _, 0, (seqWord 4 9), 0x6000, {}, ⟨by decide, by decide, by decide, rfl, by decide, by decide⟩⟩

theorem witness_sequencerAddresses_6 :
    ∃ (s : State) (u : State) (t : Nat) (w : Nat) (pc : Nat) (x : WordIo), s.wordIssues t 5 w pc ∧ x.csBad = false ∧ x.regBad = false ∧ u = s.atWord t w pc x ∧ (s.thread t).stepping = false ∧ (s.thread t).stack ≠ [] :=
  ⟨wordState (seqWord 5 0), _, 0, (seqWord 5 0), 0x6000, {}, ⟨by decide, by decide, by decide, rfl, by decide, by decide⟩⟩

theorem witness_sequencerAddresses_7 :
    ∃ (s : State) (u : State) (t : Nat) (w : Nat) (pc : Nat) (x : WordIo), s.wordIssues t 6 w pc ∧ x.csBad = false ∧ x.regBad = false ∧ u = s.atWord t w pc x ∧ (s.thread t).stepping = false ∧ wDispPos w ≤ 60 :=
  ⟨wordState (seqWord 6 9), _, 0, (seqWord 6 9), 0x6000, {}, ⟨by decide, by decide, by decide, rfl, by decide, by decide⟩⟩

theorem witness_sequencerAddresses_8 :
    ∃ (s : State) (u : State) (t : Nat) (w : Nat) (pc : Nat) (x : WordIo), s.wordIssues t 7 w pc ∧ x.csBad = false ∧ x.regBad = false ∧ u = s.atWord t w pc x ∧ (s.thread t).stepping = false ∧ (s.thread t).eventBits &&& wTarget w ≠ 0 ∧ u.supMoves t = false :=
  ⟨wordState (seqWord 7 2), _, 0, (seqWord 7 2), 0x6000, {}, ⟨by decide, by decide, by decide, rfl, by decide, by decide, by decide⟩⟩

theorem witness_redundancy_1 :
    ∃ (s : State) (port : Nat) (f : Bytes), s.memberFor false port f = none ∧ s.prpPort port = false :=
  ⟨State.reset, 0, [], by decide⟩

theorem witness_redundancy_2 :
    ∃ (s : State) (port : Nat) (m : Nat) (f : Bytes), s.memberFor false port f = some m :=
  ⟨{ State.reset with members := [(5, frerMember)] }, 0, 5, List.replicate 60 1, by decide⟩

theorem witness_redundancy_3 :
    ∃ (s : State) (h : Nat) (p : Packet), s.pkt h = some p ∧ p.stage = .frer ∧ s.frerBefore p = [] ∧ (s.ctx p.memberCtx).kind = 0 :=
  ⟨{ State.reset with pkts := [(1, frerPkt)], members := [(5, frerMember)] }, 1, frerPkt, by decide⟩

theorem witness_redundancy_4 :
    ∃ (s : State) (u : State) (h : Nat) (c : Nat) (seq : Nat) (p : Packet), s.pkt h = some p ∧ p.stage = .frer ∧ s.frerBefore p = [] ∧ c = p.memberCtx ∧ u = s.memberSeen ((p.member.map (·.1)).getD 0) (shortOf p.stamp) ∧ (s.ctx c).kind = 2 ∧ u.isFenced (unitObject 6) c = false ∧ (rTag p.data).map (·.2) = some seq :=
  ⟨{ State.reset with pkts := [(1, frerTagged)], members := [(5, frerMember)], frer := [(7, { cfg := [2] })] }, _, 1, 7, 9, frerTagged, ⟨by decide, by decide, by decide, by decide, rfl, by decide, by decide, by decide⟩⟩

theorem witness_redundancy_5 :
    ∃ (s : State) (u : State) (h : Nat) (c : Nat) (p : Packet), s.pkt h = some p ∧ p.stage = .frer ∧ s.frerBefore p = [] ∧ c = p.memberCtx ∧ u = s.memberSeen ((p.member.map (·.1)).getD 0) (shortOf p.stamp) ∧ (s.ctx c).kind = 2 ∧ u.isFenced (unitObject 6) c = false ∧ rTag p.data = none :=
  ⟨{ State.reset with pkts := [(1, frerPkt)], members := [(5, frerMember)], frer := [(7, { cfg := [2] })] }, _, 1, 7, frerPkt, ⟨by decide, by decide, by decide, by decide, rfl, by decide, by decide, by decide⟩⟩

theorem witness_redundancy_6 :
    ∃ (s : State) (h : Nat) (k : Nat) (p : Packet) (q : Packet), s.pkt h = some p ∧ p.stage = .frer ∧ s.frerBefore p = [(k, q)] :=
  ⟨{ State.reset with pkts := [(1, frerPkt), (2, { frerPkt with port := 1 })] }, 2, 1, { frerPkt with port := 1 }, frerPkt, by decide⟩

theorem witness_redundancy_7 :
    ∃ (s : State) (c : Nat) (t : Nat), (s.ctx c).passedAt = some t ∧ ((s.ctx c).kind = 2 ∨ (s.ctx c).kind = 3) ∧ t + (s.ctx c).resetMs * 1000000 ≤ s.now :=
  ⟨{ State.reset with now := 10 ^ 9, frer := [(7, { cfg := [2], passedAt := some 0 })] }, 7, 0, by decide⟩

theorem witness_redundancy_8 :
    ∃ (s : State) (fn : Nat) (v : Nat), s.managedBy fn ∧ bit v 31 = true :=
  ⟨State.reset, 0, 2 ^ 31, by decide⟩

theorem witness_releaseUnit_1 :
    ∃ (s : State) (h : Nat) (g : Nat) (k : Nat) (p : Packet), s.pkt h = some p ∧ p.stage = .toRelease ∧ s.sourceGroup p = some (g, k) ∧ s.destEntry ((s.groupsFor p.epoch).get g) p = none :=
  ⟨{ State.reset with pkts := [(1, { stage := .toRelease })], groupsOper := [(3, { en := true, src := [1] })] }, 1, 3, 0, { stage := .toRelease }, by decide⟩

theorem witness_releaseUnit_2 :
    ∃ (s : State) (h : Nat) (g : Nat) (k : Nat) (e : Nat) (p : Packet), s.pkt h = some p ∧ p.stage = .toRelease ∧ s.sourceGroup p = some (g, k) ∧ s.destEntry ((s.groupsFor p.epoch).get g) p = some e ∧ s.police g k (((s.groupsFor p.epoch).get g).src.getD k 0) p.data.length = none :=
  ⟨{ State.reset with pkts := [(1, { stage := .toRelease, port := 0, data := List.replicate 60 1 })], groupsOper := [(3, { en := true, src := [1 + 2 ^ 42], dst := [1] })], buckets := [(3072, some { level := 0, at_ := 0 })] }, 1, 3, 0, 1, { stage := .toRelease, port := 0, data := List.replicate 60 1 }, by decide⟩

theorem witness_releaseUnit_3 :
    ∃ (s : State) (u : State) (h : Nat) (g : Nat) (k : Nat) (e : Nat) (p : Packet), s.pkt h = some p ∧ p.stage = .toRelease ∧ s.sourceGroup p = some (g, k) ∧ s.destEntry ((s.groupsFor p.epoch).get g) p = some e ∧ s.police g k (((s.groupsFor p.epoch).get g).src.getD k 0) p.data.length = some u :=
  ⟨{ State.reset with pkts := [(1, { stage := .toRelease })], groupsOper := [(3, { en := true, src := [1], dst := [1] })] }, { State.reset with pkts := [(1, { stage := .toRelease })], groupsOper := [(3, { en := true, src := [1], dst := [1] })] }, 1, 3, 0, 1, { stage := .toRelease }, by decide⟩

theorem witness_releaseUnit_4 :
    ∃ (s : State) (u : State), u = s.returnDue.spill s.returnDue.pkts.length ∧ u.dueHead = none :=
  ⟨State.reset, _, ⟨rfl, by decide⟩⟩

theorem witness_releaseUnit_5 :
    ∃ (s : State) (u : State) (h : Nat) (g : Nat) (p : Packet), u = s.returnDue.spill s.returnDue.pkts.length ∧ u.dueHead = some (h, p, g) ∧ (u.releaseNow h g).dueHead = none :=
  ⟨{ State.reset with pkts := [(1, { stage := .held 3 })] }, _, 1, 3, { stage := .held 3 }, ⟨rfl, by decide, by decide⟩⟩

theorem witness_releaseUnit_6 :
    ∃ (s : State) (h : Nat) (g : Nat) (p : Packet), s.pkt h = some p ∧ p.stage = .held g ∧ p.spilled = true :=
  ⟨{ State.reset with pkts := [(1, { stage := .held 3, spilled := true })] }, 1, 3, { stage := .held 3, spilled := true }, by decide⟩

theorem witness_releaseUnit_7 :
    ∃ (s : State) (u : State) (h : Nat) (g : Nat) (p : Packet), s.pkt h = some p ∧ p.stage = .held g ∧ p.spilled = true ∧ u = s.setPkt h { p with spilled := false } :=
  ⟨{ State.reset with pkts := [(1, { stage := .held 3, spilled := true })] }, _, 1, 3, { stage := .held 3, spilled := true }, ⟨by decide, by decide, by decide, rfl⟩⟩

theorem witness_releaseUnit_8 :
    ∃ (s : State) (g : Nat) (f : Nat), s.mir.floors.getD g none = some f ∧ stampLe s.stamp ((f + 8 * (s.groupsOper.get g).delay) % W64) = false :=
  ⟨{ State.reset with time := { sec := 1 }, mir := { floors := [(2, some 5)] } }, 2, 5, by decide⟩

theorem witness_releaseUnit_9 :
    ∃ (s : State) (fn : Nat) (v : Nat) (old : Nat) (new : Nat), s.managedBy fn ∧ s.groupEnabled = false ∧ old = s.val .REL_DEVICE 0 ∧ new = putBits (putBits 0 11 0 v) 31 31 (v / 2 ^ 31) :=
  ⟨State.reset, 0, 0, State.reset.val .REL_DEVICE 0, putBits (putBits 0 11 0 0) 31 31 (0 / 2 ^ 31), by decide⟩

theorem witness_releaseUnit_10 :
    ∃ (s : State) (fn : Nat) (v : Nat), s.managedBy fn ∧ s.groupEnabled = true :=
  ⟨State.reset.wr F.REL_GROUP_STATUS_EN 3 1, 0, 0, by decide⟩

theorem witness_releaseUnit_11 :
    ∃ (s : State) (fn : Nat) (v : Nat) (mib : Nat) (spill : Bool), s.managedBy fn ∧ spill = (bit v 31 && s.on F.HBM_REGION_EN 5) ∧ mib = (if 4 ≤ bits v 6 0 ∧ bits v 6 0 ≤ 64 then bits v 6 0 else s.rd F.REL_CFG_CARAFE_MIB 0) ∧ s.val .REL_ADMITTED 0 ≤ s.capacityOf spill mib :=
  ⟨State.reset, 0, 8, 8, false, by decide⟩

theorem witness_releaseUnit_12 :
    ∃ (s : State) (fn : Nat) (v : Nat), s.managedBy fn ∧ s.capacityOf (bit v 31 && s.on F.HBM_REGION_EN 5) (if 4 ≤ bits v 6 0 ∧ bits v 6 0 ≤ 64 then bits v 6 0 else s.rd F.REL_CFG_CARAFE_MIB 0) < s.val .REL_ADMITTED 0 :=
  ⟨State.reset.put .REL_ADMITTED 0 (2 ^ 40), 0, 8, by decide⟩

theorem witness_enqueueing_1 :
    ∃ (s : State) (u : State) (h : Nat) (q : Nat) (p : Packet), s.pkt h = some p ∧ p.stage = .toTm ∧ s.coreStopped = false ∧ u = s.retire (.enqueue p.pipe) ∧ p.verdict.action = 1 ∧ p.fromWire = true ∧ q = u.portQueue p (bits p.verdict.word2 3 0) :=
  ⟨toTm 1, _, 1, _, toTmPkt 1, ⟨by decide, by decide, by decide, rfl, by decide, by decide, rfl⟩⟩

theorem witness_enqueueing_2 :
    ∃ (s : State) (u : State) (h : Nat) (k : Nat) (p : Packet), s.pkt h = some p ∧ p.stage = .toTm ∧ s.coreStopped = false ∧ u = s.retire (.enqueue p.pipe) ∧ p.verdict.action = 2 ∧ u.hostRing (bits p.verdict.word2 16 0) (bits p.verdict.word2 28 17) = some k :=
  ⟨{ toTm 2 with rings := [(rxKey 0, rxRing)] }, _, 1, rxKey 0, toTmPkt 2, ⟨by decide, by decide, by decide, rfl, by decide, by decide⟩⟩

theorem witness_enqueueing_3 :
    ∃ (s : State) (u : State) (h : Nat) (p : Packet), s.pkt h = some p ∧ p.stage = .toTm ∧ s.coreStopped = false ∧ u = s.retire (.enqueue p.pipe) ∧ p.verdict.action = 2 ∧ u.hostRing (bits p.verdict.word2 16 0) (bits p.verdict.word2 28 17) = none :=
  ⟨toTm 2, _, 1, toTmPkt 2, ⟨by decide, by decide, by decide, rfl, by decide, by decide⟩⟩

theorem witness_enqueueing_4 :
    ∃ (s : State) (u : State) (h : Nat) (q : Nat) (p : Packet), s.pkt h = some p ∧ p.stage = .toTm ∧ s.coreStopped = false ∧ u = s.retire (.enqueue p.pipe) ∧ p.verdict.action = 3 ∧ q = bits p.verdict.word2 15 0 :=
  ⟨toTm 3, _, 1, 0, toTmPkt 3, ⟨by decide, by decide, by decide, rfl, by decide, by decide⟩⟩

theorem witness_enqueueing_5 :
    ∃ (s : State) (u : State) (h : Nat) (p : Packet), s.pkt h = some p ∧ p.stage = .toTm ∧ s.coreStopped = false ∧ u = s.retire (.enqueue p.pipe) ∧ p.verdict.action = 4 :=
  ⟨toTm 4, _, 1, toTmPkt 4, ⟨by decide, by decide, by decide, rfl, by decide⟩⟩

theorem witness_enqueueing_6 :
    ∃ (s : State) (u : State) (h : Nat) (k : Nat) (p : Packet), s.pkt h = some p ∧ p.stage = .toTm ∧ s.coreStopped = false ∧ u = s.retire (.enqueue p.pipe) ∧ p.verdict.action = 5 ∧ u.managerRing = some k :=
  ⟨{ toTm 5 with rings := [(rxKey 0, rxRing)] }, _, 1, rxKey 0, toTmPkt 5, ⟨by decide, by decide, by decide, rfl, by decide, by decide⟩⟩

theorem witness_scheduling_1 :
    ∃ (s : State) (slice : Nat) (port : Nat), slice < 4 ∧ port < 20 ∧ nodeHalf 0 port = slice / 2 ∧ s.isFenced (unitSlice slice) 0 = false ∧ s.coreStopped = false :=
  ⟨State.reset, 0, 3, by decide⟩

theorem witness_scheduling_2 :
    ∃ (s : State) (q : Nat) (h : Nat) (l : Nat) (port : Nat) (p : Packet) (x : TxIo), port = s.queuePort q ∧ port < 16 ∧ s.pkts.filter (fun e => e.2.stage == .txCell port && e.2.queue == q) = [(h, p)] ∧ p.launch = some l ∧ (s.node 3 q).ltEn = true ∧ s.mayLeave port p = true ∧ s.onWire port = none ∧ s.on F.PRT_STATUS_LINK_UP port = true ∧ s.isFenced (unitPort port) 0 = false ∧ (s.preemptable port (s.node 3 q).tc = false ∨ s.txNow.getD (2 * port + 1) none = none) :=
  ⟨ltState, 0, 1, 0, 0, ltPkt, {}, by decide⟩

theorem witness_scheduling_3 :
    ∃ (s : State) (port : Nat), port < 16 :=
  ⟨State.reset, 0, by decide⟩

theorem witness_scheduling_4 :
    ∃ (s : State) (port : Nat) (g : GateList), s.gclPending.getD port none = some g ∧ stampLe (s.val .GCL_CHANGE_TIME port) s.stamp = true :=
  ⟨{ State.reset with gclPending := [(2, some {})] }, 2, {}, by decide⟩

theorem witness_scheduling_5 :
    ∃ (s : State) (u : State) (fn : Nat) (v : Nat), s.managedBy fn ∧ bit v 31 = true ∧ u = ((s.wr F.TM_NODE_CMD_WRITE 0 (bits v 30 30)).wr F.TM_NODE_CMD_LEVEL 0 (bits v 29 28)).wr F.TM_NODE_CMD_INDEX 0 (bits v 16 0) ∧ bits v 16 0 < nodeCount (bits v 29 28) ∧ bit v 30 = true ∧ u.nodeRefused (bits v 29 28) (bits v 16 0) u.windowBytes = false :=
  ⟨winState, ((winState.wr F.TM_NODE_CMD_WRITE 0 1).wr F.TM_NODE_CMD_LEVEL 0 3).wr F.TM_NODE_CMD_INDEX 0 5, 0, 2 ^ 31 + 2 ^ 30 + 2 ^ 28 * 3 + 5, by decide⟩

theorem witness_scheduling_6 :
    ∃ (s : State) (q : Nat), isDefaultQueue q = true ∧ s.isFenced (unitObject 5) q = true ∧ (s.node 3 q).frames = [] :=
  ⟨{ State.reset with fenced := [(fenceKey (unitObject 5) 3, true)] }, 3, by decide⟩

theorem witness_scheduling_7 :
    ∃ (s : State) (t : State) (fn : Nat) (v : Nat), s.managedBy fn ∧ ((bit v 31 = true ∨ s.rd F.TM_OBS_QUEUES_ENABLED 0 ≤ 8192)) ∧ t = ((s.wr F.TM_OBS_CFG_MODE 0 (bits v 31 31)).wrLegal F.TM_OBS_CFG_DEPTH_SHIFT 0 (bits v 12 8)).wrLegal F.TM_OBS_CFG_DELAY_SHIFT 0 (bits v 4 0) :=
  ⟨State.reset, ((State.reset.wr F.TM_OBS_CFG_MODE 0 1).wrLegal F.TM_OBS_CFG_DEPTH_SHIFT 0 0).wrLegal F.TM_OBS_CFG_DELAY_SHIFT 0 0, 0, 2 ^ 31, by decide⟩

theorem witness_scheduling_8 :
    ∃ (s : State), s.on F.TM_OBS_CFG_MODE 0 = false ∧ s.obs.at_ ≠ some (s.time.ticks / 8000) :=
  ⟨State.reset, by decide⟩

theorem witness_scheduling_9 :
    ∃ (s : State) (q : Nat), q < 65536 ∧ (s.node 3 q).alarmUs ≠ 0 ∧ (s.node 3 q).alarmUs * 1000 ≤ s.headDelay q ∧ (s.node 3 q).frames ≠ [] :=
  ⟨alarmState, 5, by decide⟩

theorem witness_hostLinks_1 :
    ∃ (s : State) (port : Nat) (link : Nat) (rate : Nat) (narrow : Bool), s.linkExists port link = true ∧ (s.hlinks.get (2 * port + link)).up = false ∧ s.perst.get port = false ∧ (decide (rate < 2) || (narrow && !s.bifurcated.get port)) = false :=
  ⟨{ State.reset with perst := [] }, 1, 0, 3, false, by decide⟩

theorem witness_hostLinks_2 :
    ∃ (s : State) (port : Nat) (link : Nat) (rate : Nat) (narrow : Bool), s.linkExists port link = true ∧ (s.hlinks.get (2 * port + link)).up = false ∧ s.perst.get port = false ∧ (decide (rate < 2) || (narrow && !s.bifurcated.get port)) = true :=
  ⟨{ State.reset with perst := [] }, 1, 0, 1, false, by decide⟩

theorem witness_hostLinks_3 :
    ∃ (s : State) (port : Nat) (link : Nat), s.linkExists port link = true ∧ (s.hlinks.get (2 * port + link)).up = true :=
  ⟨{ State.reset with hlinks := [(0, { up := true })] }, 0, 0, by decide⟩

theorem witness_hostLinks_4 :
    ∃ (s : State) (f : Nat) (v : Nat) (masked : Bool), f < 2052 :=
  ⟨State.reset, 0, 0, false, by decide⟩

theorem witness_hostLinks_5 :
    ∃ (s : State) (f : Nat) (on : Bool), f < 2052 :=
  ⟨State.reset, 0, false, by decide⟩

theorem witness_hostLinks_6 :
    ∃ (s : State) (f : Nat) (on : Bool), f < 2052 :=
  ⟨State.reset, 0, false, by decide⟩

theorem witness_hostLinks_7 :
    ∃ (s : State) (u : State) (f : Nat), (s.fn f).bme = true ∧ u = (s.modFn f (fun g => { g with bme := false })).discardReads f :=
  ⟨{ State.reset with fns := [(0, { bme := true })] }, ({ State.reset with fns := [(0, { bme := true })] } : State).modFn 0 (fun g => { g with bme := false }) |>.discardReads 0, 0, by decide⟩

theorem witness_hostLinks_8 :
    ∃ (s : State) (f : Nat), f < 2052 :=
  ⟨State.reset, 0, by decide⟩

theorem witness_hostLinks_9 :
    ∃ (s : State) (f : Nat) (d3 : Bool), f < 2052 ∧ (s.fn f).d3 ≠ d3 :=
  ⟨State.reset, 0, true, by decide⟩

theorem witness_hostLinks_10 :
    ∃ (s : State) (u : State) (f : Nat) (w : Nat) (v : Nat), f < 4 ∧ w < 18 ∧ s.bar0Open f = true ∧ u = s.put .EVT_PEND (pendIx f w) (s.val .EVT_PEND (pendIx f w) - (s.val .EVT_PEND (pendIx f w) &&& v % 2 ^ 32)) :=
  ⟨State.reset, State.reset.put .EVT_PEND (pendIx 0 0) 0, 0, 0, 0, by decide⟩

theorem witness_hostLinks_11 :
    ∃ (s : State) (u : State) (f : Nat) (v : Nat), f < 2052 ∧ s.bar0Open f = true ∧ u = s.put .EVT_FN f (s.val .EVT_FN f - (s.val .EVT_FN f &&& putBits (v % 64) 1 1 0)) :=
  ⟨State.reset, State.reset.put .EVT_FN 0 0, 0, 0, by decide⟩

theorem witness_translations_1 :
    ∃ (s : State) (u : State) (req : Nat) (n : Nat) (base : Nat) (tbase : Nat) (size : Nat) (q : XReq) (rd : Bool) (wr : Bool), s.xreqs.find? (fun e => e.1 == req && decide (e.1 < 16384)) = some (n, q) ∧ u = { s with xreqs := s.xreqs.erase req } ∧ s.now < q.since + q.us * 1000 ∧ q.tainted = false ∧ (if q.write then wr else rd) = true :=
  ⟨{ State.reset with xreqs := [(4, xq0)] }, _, 4, 4, 0, 0, 0, xq0, false, true, ⟨by decide, rfl, by decide, by decide, by decide⟩⟩

theorem witness_translations_2 :
    ∃ (s : State) (u : State) (req : Nat) (n : Nat) (q : XReq), s.xreqs.find? (fun e => e.1 == req && decide (e.1 < 16384)) = some (n, q) ∧ u = { s with xreqs := s.xreqs.erase req } ∧ s.now < q.since + q.us * 1000 ∧ q.tainted = false :=
  ⟨{ State.reset with xreqs := [(4, xq0)] }, _, 4, 4, xq0, ⟨by decide, rfl, by decide, by decide⟩⟩

theorem witness_translations_3 :
    ∃ (s : State) (u : State) (req : Nat) (n : Nat) (q : XReq), s.xreqs.find? (fun e => e.1 == req && decide (e.1 < 16384)) = some (n, q) ∧ u = { s with xreqs := s.xreqs.erase req } ∧ s.now < q.since + q.us * 1000 ∧ q.tainted = false :=
  ⟨{ State.reset with xreqs := [(4, xq0)] }, _, 4, 4, xq0, ⟨by decide, rfl, by decide, by decide⟩⟩

theorem witness_translations_4 :
    ∃ (s : State) (port : Nat) (tag : Nat) (f : Nat) (base : Nat) (size : Nat) (pasid : Option Nat), port < 2 ∧ (s.invals.filter (fun v => v.port == port)).length < 32 :=
  ⟨State.reset, 0, 0, 0, 0, 0, none, by decide⟩

theorem witness_translations_5 :
    ∃ (s : State) (port : Nat) (v : Inval), s.invals.find? (fun v => v.port == port) = some v ∧ v.reads.any (fun k => s.reads.any (fun e => e.1 == k)) = false ∧ s.now ≤ v.since + 1000000 :=
  ⟨{ State.reset with invals := [inv0] }, 0, inv0, by decide⟩

theorem witness_translations_6 :
    ∃ (s : State) (f : Nat), (s.fn f).ats = true :=
  ⟨{ State.reset with fns := [(0, { ats := true })] }, 0, by decide⟩

theorem witness_translations_7 :
    ∃ (s : State) (f : Nat), (s.fn f).pasidEn = true :=
  ⟨{ State.reset with fns := [(0, { pasidEn := true })] }, 0, by decide⟩

theorem witness_translations_8 :
    ∃ (s : State) (f : Nat) (index : Nat) (n : Nat) (q : PReq), f < 2052 ∧ s.preqs.find? (fun e => e.1 == index && e.2.fn == f && e.2.sent) = some (n, q) :=
  ⟨{ State.reset with preqs := [(3, pq0)] }, 0, 3, 3, pq0, by decide⟩

theorem witness_translations_9 :
    ∃ (s : State) (f : Nat) (index : Nat) (n : Nat) (q : PReq), f < 2052 ∧ s.preqs.find? (fun e => e.1 == index && e.2.fn == f && e.2.sent) = some (n, q) :=
  ⟨{ State.reset with preqs := [(3, pq0)] }, 0, 3, 3, pq0, by decide⟩

theorem witness_translations_10 :
    ∃ (s : State) (f : Nat) (index : Nat) (r : PageReply), f < 2052 ∧ s.preqs.find? (fun e => e.1 == index && e.2.fn == f && e.2.sent) = none :=
  ⟨State.reset, 0, 0, .success, by decide⟩

theorem witness_translations_11 :
    ∃ (s : State) (index : Nat) (n : Nat) (q : PReq), s.preqs.find? (fun e => e.1 == index && e.2.sent) = some (n, q) ∧ q.since + s.rd F.HIF_PRI_TIMEOUT_MS (s.hostPort q.fn) * 1000000 ≤ s.now :=
  ⟨{ State.reset with now := 10 ^ 12, preqs := [(3, pq0)] }, 3, 3, pq0, by decide⟩

theorem witness_translations_12 :
    ∃ (s : State) (f : Nat) (alloc : Nat), f < 2052 :=
  ⟨State.reset, 0, 0, by decide⟩

theorem witness_translations_13 :
    ∃ (s : State) (port : Nat) (tag : Nat) (reply : HostReply), s.readOf port tag = none :=
  ⟨State.reset, 0, 0, .timeout, by decide⟩

theorem witness_translations_14 :
    ∃ (s : State) (port : Nat) (tag : Nat) (n : Nat) (q : HostRead) (reply : HostReply), s.readOf port tag = some (n, q) ∧ s.partLate q tag = false :=
  ⟨{ State.reset with reads := [(9, hr0)] }, 0, 9, 9, hr0, .timeout, by decide⟩

theorem witness_translations_15 :
    ∃ (s : State) (port : Nat) (tag : Nat) (n : Nat) (q : HostRead) (reply : HostReply), s.readOf port tag = some (n, q) ∧ s.partLate q tag = true :=
  ⟨{ State.reset with now := 10 ^ 12, reads := [(9, hr0)] }, 0, 9, 9, hr0, .timeout, by decide⟩

theorem witness_translations_16 :
    ∃ (s : State) (tag : Nat) (n : Nat) (q : HostRead), (s.readOf 0 tag).orElse (fun _ => s.readOf 1 tag) = some (n, q) ∧ s.partLate q tag = true :=
  ⟨{ State.reset with now := 10 ^ 12, reads := [(9, hr0)] }, 9, 9, hr0, by decide⟩

theorem witness_translations_17 :
    ∃ (s : State) (tag : Nat) (n : Nat) (q : XReq), (s.readOf 0 tag).orElse (fun _ => s.readOf 1 tag) = none ∧ s.xreqs.find? (fun e => e.1 == tag && decide (e.1 < 16384)) = some (n, q) ∧ q.since + q.us * 1000 ≤ s.now :=
  ⟨{ State.reset with now := 10 ^ 12, xreqs := [(9, xq0)] }, 9, 9, xq0, by decide⟩

theorem witness_journalChain_1 :
    ∃ (s : State) (u : State) (port : Nat) (j : Nat) (b : Job) (e : StampEntry) (rest : List StampEntry), s.stampFifo.get port = e :: rest ∧ e.ring = none ∧ e.job = some j ∧ u = { s with stampFifo := s.stampFifo.set port rest } ∧ u.job j = some b :=
  ⟨{ State.reset with stampFifo := [(0, [stampE])], jobs := [(6, { ring := 1 })] }, { State.reset with jobs := [(6, { ring := 1 })] }, 0, 6, { ring := 1 }, stampE, [], by decide⟩

theorem witness_journalChain_2 :
    ∃ (s : State) (port : Nat) (e : StampEntry) (rest : List StampEntry), s.stampFifo.get port = e :: rest ∧ e.ring = none ∧ e.job = none ∧ e.owned = false :=
  ⟨{ State.reset with stampFifo := [(0, [{ stampE with job := none }])] }, 0, { stampE with job := none }, [], by decide⟩

theorem witness_journalChain_3 :
    ∃ (s : State) (port : Nat), 0 < (s.stampLoss.get port).count ∧ stampLe (((s.stampLoss.get port).told + 8000000) % W64) s.stamp = true :=
  ⟨{ State.reset with time := { sec := 1 }, stampLoss := [(2, { count := 3 })] }, 2, by decide⟩

theorem witness_journalChain_4 :
    ∃ (s : State) (j : _) (ring : Nat) (rx : Bool), s.jrings.getD (jringKey ring rx) none = some j ∧ j.entries.isEmpty = false ∧ ((4096 ≤ j.entries.length ∨ stampLe ((j.since + 8000000) % W64) s.stamp)) :=
  ⟨{ State.reset with time := { sec := 1 }, jrings := [(5, some { entries := [[1]] })] }, { entries := [[1]] }, 5, false, by decide⟩

theorem witness_journalChain_5 :
    ∃ (s : State) (r : JRec) (rest : List JRec), s.journal.backlog = r :: rest ∧ s.jnlWriting = true ∧ s.journal.faulted = false ∧ s.jnlHeld < s.jnlSize :=
  ⟨jnlState, { kind := 4, body := [] }, [], by decide⟩

theorem witness_journalChain_6 :
    ∃ (s : State) (t : State) (r : JRec) (rest : List JRec), s.journal.backlog = r :: rest ∧ s.jnlWriting = true ∧ s.journal.faulted = false ∧ s.jnlHeld < s.jnlSize ∧ s.pageRequest s.manager none (s.rd F.JNL_BASE_ADDR 0 * 4096 + 64 * (s.journal.next % s.jnlSize)) true .journal = some t :=
  ⟨jnlState, (jnlState.pageRequest 0 none (jnlState.rd F.JNL_BASE_ADDR 0 * 4096) true .journal).getD State.reset, { kind := 4, body := [] }, [], by decide⟩

theorem witness_journalChain_7 :
    ∃ (s : State) (h : Bytes), s.journal.head = some h ∧ ((65536 ≤ s.journal.sinceCkpt ∨ stampLe ((s.journal.ckptAt + 8000000000) % W64) s.stamp = true)) ∧ s.on F.JNL_STATUS_SIGNER_OK 0 = true :=
  ⟨{ (State.reset.wr F.JNL_STATUS_SIGNER_OK 0 1) with time := { sec := 2 }, journal := { head := some [1] } }, [1], by decide⟩

theorem witness_journalChain_8 :
    ∃ (s : State) (q : Nat) (w : Nat) (sig : Bytes) (rest : List (Nat × Nat × Bytes)), s.journal.signing = (q, w, sig) :: rest :=
  ⟨{ State.reset with journal := { signing := [(1, 0, [])] } }, 1, 0, [], [], by decide⟩

theorem witness_journalChain_9 :
    ∃ (s : State) (cause : Nat), s.tsu.clockDue.contains cause = true :=
  ⟨{ State.reset with tsu := { clockDue := [2] } }, 2, by decide⟩

theorem witness_journalChain_10 :
    ∃ (s : State) (fn : Nat) (v : Nat), s.managedBy fn ∧ s.jnlSize < ixSub (s.val .JNL_PROD 0) (v % 2 ^ 32) :=
  ⟨State.reset, 0, 1, by decide⟩

theorem witness_journalChain_11 :
    ∃ (s : State) (fn : Nat) (v : Nat), s.managedBy fn ∧ ixSub (s.val .JNL_PROD 0) (v % 2 ^ 32) ≤ s.jnlSize :=
  ⟨State.reset, 0, 0, by decide⟩

theorem witness_journalChain_12 :
    ∃ (s : State) (fn : Nat) (v : Nat), s.managedBy fn ∧ s.on F.JNL_CTRL_EN 0 = false :=
  ⟨State.reset, 0, 0, by decide⟩

theorem witness_submission_1 :
    ∃ (s : State) (key : Nat) (fn : Nat) (page : Nat) (v : Nat) (w : Width), s.onPage fn page = some key ∧ w ≠ .high ∧ (s.ring key).submits = true ∧ s.bar0Open fn = true :=
  ⟨{ State.reset with rings := [(1, txRing)] }, 1, 0, 0, 0, .full, by decide⟩

theorem witness_submission_2 :
    ∃ (s : State) (key : Nat) (fn : Nat) (page : Nat) (v : Nat) (w : Width), s.onPage fn page = some key ∧ w ≠ .high ∧ s.bar0Open fn = true ∧ (s.ring key).kind = 3 :=
  ⟨{ State.reset with rings := [(262144, cqRing)] }, 262144, 0, 0, 0, .full, by decide⟩

theorem witness_submission_3 :
    ∃ (s : State) (key : Nat) (fn : Nat) (page : Nat) (v : Nat), s.onPage fn page = some key ∧ s.bar0Open fn = true ∧ (s.ring key).kind = 1 ∧ (s.ring key).isHead = true ∧ bit v 63 = true :=
  ⟨{ State.reset with rings := [(1, { txRing with ctx := leBytes 8 0 ++ leBytes 4 (2 ^ 9 + 1) })] }, 1, 0, 0, 2 ^ 63, by decide⟩

theorem witness_submission_4 :
    ∃ (s : State) (key : Nat) (fn : Nat) (page : Nat) (slot : Nat) (o : Nat) (data : Bytes), s.onPage fn page = some key ∧ ((s.ring key).kind = 1 ∨ (s.ring key).kind = 4) ∧ s.bar0Open fn = true ∧ slot < 4 ∧ o < 8 ∧ data.length = 8 :=
  ⟨{ State.reset with rings := [(1, txRing)] }, 1, 0, 0, 1, 2, List.replicate 8 7, by decide⟩

theorem witness_submission_5 :
    ∃ (s : State) (u : State) (ring : Nat) (i : Nat) (n : Nat) (b : Bytes), (s.ring ring).fetching = some (i, n) ∧ (s.ring ring).state = 1 ∧ (s.takeRead (.fetch ring)).2 = true ∧ u = (s.takeRead (.fetch ring)).1.modRing ring (fun x => { x with fetching := none }) :=
  ⟨fetchState, (fetchState.takeRead (.fetch 1)).1.modRing 1 (fun x => { x with fetching := none }), 1, 0, 1, [], by decide⟩

theorem witness_submission_6 :
    ∃ (s : State) (u : State) (ring : Nat) (i : Nat) (n : Nat), (s.ring ring).fetching = some (i, n) ∧ (s.ring ring).state = 1 ∧ (s.takeRead (.fetch ring)).2 = true ∧ u = (s.takeRead (.fetch ring)).1.modRing ring (fun x => { x with fetching := none }) :=
  ⟨fetchState, (fetchState.takeRead (.fetch 1)).1.modRing 1 (fun x => { x with fetching := none }), 1, 0, 1, by decide⟩

theorem witness_submission_7 :
    ∃ (s : State) (e : CacheEntry) (ring : Nat), s.startable ring = some e :=
  ⟨startState, { index := 0, bytes := [], epoch := 0, stamp := 0 }, 1, by decide⟩

theorem witness_submission_8 :
    ∃ (s : State) (job : Nat) (b : Job) (buf : Bytes), s.job job = some b ∧ b.produced = false ∧ (s.ring b.ring).kind = 1 ∧ s.oldestRead job b = true ∧ s.dataCredit b = true ∧ (s.takeRead (.buffer job)).2 = true ∧ b.gen = (s.takeRead (.buffer job)).1.rd F.HIF_FN_STATE_GEN b.func :=
  ⟨{ State.reset with rings := [(1, txRing)], jobs := [(6, { ring := 1 })] }, 6, { ring := 1 }, [], by decide⟩

theorem witness_submission_9 :
    ∃ (s : State) (job : Nat) (b : Job), s.job job = some b ∧ b.produced = false ∧ (s.ring b.ring).kind = 1 ∧ s.oldestRead job b = true ∧ s.dataCredit b = true ∧ (s.takeRead (.buffer job)).2 = true ∧ b.gen = (s.takeRead (.buffer job)).1.rd F.HIF_FN_STATE_GEN b.func :=
  ⟨{ State.reset with rings := [(1, txRing)], jobs := [(6, { ring := 1 })] }, 6, { ring := 1 }, by decide⟩

theorem witness_reception_1 :
    ∃ (s : State) (h : Nat) (key : Nat) (p : Packet) (e : CacheEntry) (badCell : Bool), s.pkt h = some p ∧ p.stage = .rxDma key ∧ p.badFcs = false ∧ (s.ring key).state = 1 ∧ (s.ring key).kind = 2 ∧ (s.fn (s.ring key).fn).bme = true ∧ s.mayStart (s.ring key).fn = true ∧ p.data.length ≤ (s.ring key).maxFrame ∧ (s.ring key).hold = [] ∧ s.buffer key = some e ∧ s.rxMiss key p e = none :=
  ⟨rxState, 1, rxKey 0, { stage := .rxDma (rxKey 0) }, { index := 0, bytes := [], epoch := 0, stamp := 0 }, false, by decide⟩

theorem witness_reception_2 :
    ∃ (s : State) (h : Nat) (key : Nat) (a : Nat) (p : Packet) (e : CacheEntry) (badCell : Bool), s.pkt h = some p ∧ p.stage = .rxDma key ∧ p.badFcs = false ∧ (s.ring key).state = 1 ∧ (s.ring key).kind = 2 ∧ (s.fn (s.ring key).fn).bme = true ∧ s.mayStart (s.ring key).fn = true ∧ p.data.length ≤ (s.ring key).maxFrame ∧ (s.ring key).hold = [] ∧ s.buffer key = some e ∧ s.rxMiss key p e = some a :=
  ⟨{ rxState with fns := [(0, { bme := true, ats := true })] }, 1, rxKey 0, 0, { stage := .rxDma (rxKey 0) }, { index := 0, bytes := [], epoch := 0, stamp := 0 }, false, by decide⟩

theorem witness_reception_3 :
    ∃ (s : State) (h : Nat) (key : Nat) (p : Packet) (fault : Bool) (badCell : Bool), s.pkt h = some p ∧ p.stage = .rxDma key ∧ p.badFcs = false ∧ (s.ring key).state = 1 ∧ (s.ring key).kind = 2 ∧ (s.fn (s.ring key).fn).bme = true ∧ s.mayStart (s.ring key).fn = true ∧ (s.ring key).maxFrame < p.data.length :=
  ⟨{ rxState with pkts := [(1, { stage := .rxDma (rxKey 0), data := [1] })] }, 1, rxKey 0, { stage := .rxDma (rxKey 0), data := [1] }, false, false, by decide⟩

theorem witness_reception_4 :
    ∃ (s : State) (h : Nat) (key : Nat) (p : Packet) (fault : Bool) (badCell : Bool), s.pkt h = some p ∧ p.stage = .rxDma key ∧ p.badFcs = true :=
  ⟨{ State.reset with pkts := [(1, { stage := .rxDma 5, badFcs := true })] }, 1, 5, { stage := .rxDma 5, badFcs := true }, false, false, by decide⟩

theorem witness_reception_5 :
    ∃ (s : State) (ring : Nat) (h : Nat) (rest : List Nat) (p : Packet) (e : CacheEntry) (badCell : Bool), (s.ring ring).hold = h :: rest ∧ s.pkt h = some p ∧ s.buffer ring = some e ∧ s.preqs.any (fun q => q.2.waiter == .rx ring) = false ∧ s.rxMiss ring p e = none :=
  ⟨{ rxState with rings := [(rxKey 0, { rxRun with hold := [1] }), (262144, cqRing)] }, rxKey 0, 1, [], { stage := .rxDma (rxKey 0) }, { index := 0, bytes := [], epoch := 0, stamp := 0 }, false, by decide⟩

theorem witness_reception_6 :
    ∃ (s : State) (h : Nat) (key : Nat) (p : Packet), s.pkt h = some p ∧ p.stage = .onHold key ∧ p.heldAt + (s.ring key).holdUs * 1000 ≤ s.now :=
  ⟨{ State.reset with pkts := [(1, { stage := .onHold 5 })] }, 1, 5, { stage := .onHold 5 }, by decide⟩

theorem witness_reception_7 :
    ∃ (s : State) (ring : Nat) (c : Cpl), s.ready.find? (fun c => c.target == ring) = some c ∧ (s.ring ring).state = 1 :=
  ⟨{ State.reset with ready := [{ target := 262144 }], rings := [(262144, cqRing)] }, 262144, { target := 262144 }, by decide⟩

theorem witness_reception_8 :
    ∃ (s : State) (ring : Nat) (c : Cpl), s.ready.find? (fun c => c.target == ring) = some c ∧ (s.ring ring).state = 1 :=
  ⟨{ State.reset with ready := [{ target := 262144 }], rings := [(262144, cqRing)] }, 262144, { target := 262144 }, by decide⟩

theorem witness_reception_9 :
    ∃ (s : State) (ring : Nat) (t : Nat), (s.ring ring).firstCoal = some t ∧ (s.ring ring).armed = true ∧ t + (s.ring ring).coalUs * 1000 ≤ s.now :=
  ⟨{ State.reset with rings := [(262144, { cqRing with armed := true, firstCoal := some 0 })] }, 262144, 0, by decide⟩

theorem witness_reception_10 :
    ∃ (s : State) (ring : Nat), (s.ring ring).state ≠ 0 ∧ (s.ring ring).isHead = true ∧ (s.ring ring).kind = 1 ∧ (s.ring ring).oldest ≠ (s.ring ring).headShown ∧ (s.ring ring).headDue s.now = true :=
  ⟨{ State.reset with rings := [(1, { txRing with ctx := leBytes 8 0 ++ leBytes 4 (2 ^ 9 + 1), oldest := 1 })] }, 1, by decide⟩

theorem witness_offloadRequests_1 :
    ∃ (s : State) (t : Nat) (h : Nat) (m : ChanMsg) (p : Packet), s.asksOffload t 0 m h p ∧ s.deferredCtx m.unit m.ctx m.func false = ST_OK ∧ p.deferred.length < 4 :=
  ⟨oflState (oflMsg 0x400 1 true), 5, 1, oflMsg 0x400 1 true, {}, by decide⟩

theorem witness_offloadRequests_2 :
    ∃ (s : State) (t : Nat) (h : Nat) (m : ChanMsg) (p : Packet), s.asksOffload t 0 m h p ∧ s.deferredCtx m.unit m.ctx m.func false = ST_OK ∧ 4 ≤ p.deferred.length :=
  ⟨{ oflState (oflMsg 0x400 1 true) with pkts := [(1, { deferred := List.replicate 4 { group := 0, op := 1, ctx := 0, params := [] } })] }, 5, 1, oflMsg 0x400 1 true, { deferred := List.replicate 4 { group := 0, op := 1, ctx := 0, params := [] } }, by decide⟩

theorem witness_offloadRequests_3 :
    ∃ (s : State) (t : Nat) (h : Nat) (m : ChanMsg) (p : Packet), s.asksOffload t 0 m h p ∧ s.deferredCtx m.unit m.ctx m.func false ≠ ST_OK :=
  ⟨oflState (oflMsg 0x401 1 true), 5, 1, oflMsg 0x401 1 true, {}, by decide⟩

theorem witness_offloadRequests_4 :
    ∃ (s : State) (t : Nat) (h : Nat) (m : ChanMsg) (p : Packet), s.asksOffload t 1 m h p :=
  ⟨oflState (oflMsg 0x400 3 false), 5, 1, oflMsg 0x400 3 false, {}, by decide⟩

theorem witness_offloadRequests_5 :
    ∃ (s : State) (t : Nat) (h : Nat) (m : ChanMsg) (p : Packet) (bad : Bool), s.asksOffload t 2 m h p ∧ s.oflGated (s.groupOf m) = false ∧ (bad || p.badCell) = false :=
  ⟨oflState (oflMsg 0x401 2 false), 5, 1, oflMsg 0x401 2 false, {}, false, by decide⟩

theorem witness_offloadRequests_6 :
    ∃ (s : State) (t : Nat) (h : Nat) (m : ChanMsg) (p : Packet) (bad : Bool), s.asksOffload t 2 m h p ∧ s.oflGated (s.groupOf m) = false ∧ (bad || p.badCell) = true :=
  ⟨oflState (oflMsg 0x401 2 false), 5, 1, oflMsg 0x401 2 false, {}, true, by decide⟩

theorem witness_offloadRequests_7 :
    ∃ (s : State) (u : State) (t : Nat) (h : Nat) (o : Nat) (m : ChanMsg) (p : Packet) (q : Packet) (bad : Bool), s.asksOffload t 3 m h p ∧ s.oflGated (s.groupOf m) = false ∧ s.waitsTurn p (askKey m.ctx false) = false ∧ u = s.asked h (askKey m.ctx false) ∧ (s.sessions.get m.ctx).check m.func (s.sessions.get m.ctx).tlsRx false = ST_OK ∧ u.pkt h = some q ∧ u.dirtyWindow t = false ∧ (bad || q.badCell) = false ∧ tcpPayload q.data m.l3 m.l4 = some o :=
  ⟨{ oflState (oflMsg 0x402 2 false) with pkts := [(1, tcpPkt)], sessions := [(0, { state := 1, tlsRx := true })] }, _, 5, 1, 54, oflMsg 0x402 2 false, tcpPkt, { tcpPkt with asked := [0] }, false, ⟨by decide, by decide, by decide, rfl, by decide, by decide, by decide, by decide, by decide⟩⟩

theorem witness_offloadRequests_8 :
    ∃ (s : State) (t : Nat) (h : Nat) (m : ChanMsg) (p : Packet) (bad : Bool), s.asksOffload t 3 m h p ∧ s.oflGated (s.groupOf m) = false ∧ s.waitsTurn p (askKey m.ctx false) = false ∧ (s.sessions.get m.ctx).check m.func (s.sessions.get m.ctx).tlsRx false ≠ ST_OK :=
  ⟨oflState (oflMsg 0x402 2 false), 5, 1, oflMsg 0x402 2 false, {}, false, by decide⟩

theorem witness_offloadRequests_9 :
    ∃ (s : State) (u : State) (t : Nat) (h : Nat) (o : Nat) (m : ChanMsg) (p : Packet) (q : Packet) (fault : Option Nat) (bad : Bool), s.asksOffload t 4 m h p ∧ s.oflGated (s.groupOf m) = false ∧ s.waitsTurn p (askKey m.ctx true) = false ∧ u = s.asked h (askKey m.ctx true) ∧ (s.sessions.get m.ctx).check m.func (s.sessions.get m.ctx).nvme false = ST_OK ∧ u.pkt h = some q ∧ (bad || q.badCell) = false ∧ tcpPayload q.data m.l3 m.l4 = some o :=
  ⟨{ oflState (oflMsg 0x403 2 false) with pkts := [(1, tcpPkt)], sessions := [(0, { state := 1, nvme := true })] }, _, 5, 1, 54, oflMsg 0x403 2 false, tcpPkt, { tcpPkt with asked := [1] }, none, false, ⟨by decide, by decide, by decide, rfl, by decide, by decide, by decide, by decide⟩⟩

theorem witness_offloadStages_1 :
    ∃ (s : State) (h : Nat) (p : Packet) (bad : Bool), s.pkt h = some p ∧ p.stage = .deferred ∧ s.enqueueCredit p.pipe (1 + b2n (bit p.verdict.word 59)) = true ∧ p.deferred.any (fun d => d.unit != 0 && s.oflGated (s.servingGroup d.group)) = false ∧ (bad || p.badCell) = false :=
  ⟨{ State.reset with pkts := [(1, { stage := .deferred })] }, 1, { stage := .deferred }, false, by decide⟩

theorem witness_offloadStages_2 :
    ∃ (s : State) (h : Nat) (p : Packet) (bad : Bool), s.pkt h = some p ∧ p.stage = .deferred ∧ s.enqueueCredit p.pipe (1 + b2n (bit p.verdict.word 59)) = true ∧ p.deferred.any (fun d => d.unit != 0 && s.oflGated (s.servingGroup d.group)) = false ∧ (bad || p.badCell) = true :=
  ⟨{ State.reset with pkts := [(1, { stage := .deferred })] }, 1, { stage := .deferred }, true, by decide⟩

theorem witness_offloadStages_3 :
    ∃ (s : State) (job : Nat) (b : Job) (k : Nat × Bytes × Nat), s.jobWaiting job 1 = some b ∧ s.oflGated (s.ring b.ring).pipe = false ∧ k = s.jobKey b.entry b.func b.noCtx ∧ k.1 = ST_OK :=
  ⟨{ jobState 1 with espSas := [(0, { state := 1 })] }, 6, jobOf 1, _, ⟨by decide, by decide, rfl, by decide⟩⟩

theorem witness_offloadStages_4 :
    ∃ (s : State) (job : Nat) (b : Job) (k : Nat × Bytes × Nat), s.jobWaiting job 1 = some b ∧ s.oflGated (s.ring b.ring).pipe = false ∧ k = s.jobKey b.entry b.func b.noCtx ∧ k.1 ≠ ST_OK :=
  ⟨jobState 1, 6, jobOf 1, _, ⟨by decide, by decide, rfl, by decide⟩⟩

theorem witness_offloadStages_5 :
    ∃ (s : State) (job : Nat) (b : Job) (k : Nat × Bytes × Nat) (reply : HostReply), s.jobWaiting job 2 = some b ∧ s.oflGated (s.ring b.ring).pipe = false ∧ k = s.jobKey b.entry b.func b.noCtx ∧ k.1 = ST_OK ∧ bulkOverlap b.entry = false ∧ leAt b.entry 0x1C 2 ≤ leAt b.entry 8 4 % 2 ^ 25 :=
  ⟨{ jobState 2 with espSas := [(0, { state := 1 })] }, 6, jobOf 2, _, .timeout, ⟨by decide, by decide, rfl, by decide, by decide, by decide⟩⟩

theorem witness_offloadStages_6 :
    ∃ (s : State) (job : Nat) (b : Job) (k : Nat × Bytes × Nat) (reply : HostReply), s.jobWaiting job 2 = some b ∧ s.oflGated (s.ring b.ring).pipe = false ∧ k = s.jobKey b.entry b.func b.noCtx ∧ k.1 = ST_OK ∧ bulkOverlap b.entry = false ∧ leAt b.entry 0x1C 2 ≤ leAt b.entry 8 4 % 2 ^ 25 :=
  ⟨{ jobState 2 with espSas := [(0, { state := 1 })] }, 6, jobOf 2, _, .timeout, ⟨by decide, by decide, rfl, by decide, by decide, by decide⟩⟩

theorem witness_offloadStages_7 :
    ∃ (s : State) (job : Nat) (b : Job) (reply : HostReply), s.jobWaiting job 3 = some b :=
  ⟨jobState 3, 6, jobOf 3, .timeout, by decide⟩

theorem witness_offloadStages_8 :
    ∃ (s : State) (g : Nat), g < 4 ∧ s.oflGated g = true ∧ s.groupWanted g = true :=
  ⟨{ (State.reset.wr F.OFL_GROUP_CTRL_GATED 0 1) with chan := [oflMsg 0x401 2 false] }, 0, by decide⟩

theorem witness_copyEngine_1 :
    ∃ (s : State) (u : State) (fn : Nat) (ch : Nat) (v : Nat), s.managedBy fn ∧ ch < 1024 ∧ bit (putBits v 31 31 1) 31 = true ∧ bit (putBits v 31 31 1) 30 = false ∧ u = s.wr F.CPY_CH_CTRL_FROM_HEAD ch (bits (putBits v 31 31 1) 29 29) ∧ u.cpyState ch = 0 ∧ u.cpyRefused ch = true :=
  ⟨State.reset, State.reset.wr F.CPY_CH_CTRL_FROM_HEAD 0 0, 0, 0, 0, by decide⟩

theorem witness_copyEngine_2 :
    ∃ (s : State) (u : State) (x : State) (fn : Nat) (ch : Nat) (v : Nat), s.managedBy fn ∧ ch < 1024 ∧ bit (putBits v 31 31 1) 31 = true ∧ bit (putBits v 31 31 1) 30 = false ∧ u = s.wr F.CPY_CH_CTRL_FROM_HEAD ch (bits (putBits v 31 31 1) 29 29) ∧ u.cpyState ch = 0 ∧ u.cpyRefused ch = false ∧ u.on F.CPY_CH_CTRL_FROM_HEAD ch = false ∧ x = u.modCopy ch (fun c => { c with desc := [], started := 0, flush := none, yielded := false }) :=
  ⟨cpyReady, cpyReady.wr F.CPY_CH_CTRL_FROM_HEAD 0 0, (cpyReady.wr F.CPY_CH_CTRL_FROM_HEAD 0 0).modCopy 0 (fun c => { c with desc := [], started := 0, flush := none, yielded := false }), 0, 0, 0, by decide⟩

theorem witness_copyEngine_3 :
    ∃ (s : State) (u : State) (fn : Nat) (ch : Nat) (v : Nat), s.managedBy fn ∧ ch < 1024 ∧ bit (putBits (putBits v 31 31 0) 30 30 1) 31 = false ∧ bit (putBits (putBits v 31 31 0) 30 30 1) 30 = true ∧ u = s.wr F.CPY_CH_CTRL_FROM_HEAD ch (bits (putBits (putBits v 31 31 0) 30 30 1) 29 29) ∧ u.cpyActive ch = true ∧ u.cpyState ch ≠ 2 ∧ u.cpyAtBoundary ch = false :=
  ⟨(State.reset.wr F.CPY_CH_STATUS_STATE 0 1).wr F.CPY_CH_PROGRESS_PROGRESS 0 1, ((State.reset.wr F.CPY_CH_STATUS_STATE 0 1).wr F.CPY_CH_PROGRESS_PROGRESS 0 1).wr F.CPY_CH_CTRL_FROM_HEAD 0 0, 0, 0, 0, by decide⟩

theorem witness_copyEngine_4 :
    ∃ (s : State) (fn : Nat) (ch : Nat) (v : Nat) (w : Width), s.managedBy fn ∧ ch < 1024 ∧ (s.cpyState ch = 0 ∨ s.cpyState ch = 4) :=
  ⟨State.reset, 0, 0, 0, .full, by decide⟩

theorem witness_copyEngine_5 :
    ∃ (s : State) (fn : Nat) (ch : Nat) (v : Nat), s.managedBy fn ∧ ch < 1024 ∧ 1 ≤ s.cpyState ch ∧ s.cpyState ch ≤ 3 :=
  ⟨State.reset.wr F.CPY_CH_STATUS_STATE 0 1, 0, 0, 0, by decide⟩

theorem witness_copyEngine_6 :
    ∃ (s : State) (ch : Nat) (status : Nat) (x : Nat) (lost : Bool), (s.copy ch).flush = some (status, x) :=
  ⟨{ State.reset with copies := [(0, { flush := some (0, 0) })] }, 0, 0, 0, false, by decide⟩

theorem witness_copyEngine_7 :
    ∃ (s : State) (ch : Nat) (status : Nat) (x : Nat) (r : HostReply) (lost : Bool), (s.copy ch).flush = some (status, x) :=
  ⟨{ State.reset with copies := [(0, { flush := some (0, 0) })] }, 0, 0, 0, .timeout, false, by decide⟩

theorem witness_copyEngine_8 :
    ∃ (s : State) (t : State) (unit : Nat) (ch : Nat) (io : CopyIo), s.nextCopy unit = some ch ∧ (s.copy ch).desc ≠ [] ∧ t = { s with copyLast := s.copyLast.set unit ((ch + 1) % 64) } :=
  ⟨{ (State.reset.wr F.CPY_UNIT_CTRL_EN 0 1).wr F.CPY_CH_STATUS_STATE 0 1 with copies := [(0, { desc := [1] })] }, { (State.reset.wr F.CPY_UNIT_CTRL_EN 0 1).wr F.CPY_CH_STATUS_STATE 0 1 with copies := [(0, { desc := [1] })], copyLast := [(0, 1)] }, 0, 0, { desc := .timeout, src := [], dst := [], steps := 0, stop := .nothing, lost := false }, by decide⟩

theorem witness_copyEngine_9 :
    ∃ (s : State) (t : State) (unit : Nat) (ch : Nat) (io : CopyIo), s.nextCopy unit = some ch ∧ (s.copy ch).desc = [] ∧ t = ({ s with copyLast := s.copyLast.set unit ((ch + 1) % 64) } : State).cpyFetch ch io :=
  ⟨(State.reset.wr F.CPY_UNIT_CTRL_EN 0 1).wr F.CPY_CH_STATUS_STATE 0 1, ({ (State.reset.wr F.CPY_UNIT_CTRL_EN 0 1).wr F.CPY_CH_STATUS_STATE 0 1 with copyLast := [(0, 1)] } : State).cpyFetch 0 cpyIo, 0, 0, cpyIo, by decide⟩

theorem witness_copyEngine_10 :
    ∃ (s : State) (u : State) (ch : Nat) (m : ChanMsg), s.chan.find? (fun m => m.dest == 0x800 + ch) = some m ∧ ch < 1024 ∧ m.src ≤ 0x4FF ∧ bits (m.word 0) 63 1 = 0 ∧ m.type = 0 ∧ u = (s.accepted m).modCopy ch (fun c => { c with line := bit (m.word 0) 0 }) :=
  ⟨{ State.reset with chan := [{ header := 2 ^ 48 * 0x800, words := [1] }] }, (({ State.reset with chan := [{ header := 2 ^ 48 * 0x800, words := [1] }] } : State).accepted { header := 2 ^ 48 * 0x800, words := [1] }).modCopy 0 (fun c => { c with line := true }), 0, { header := 2 ^ 48 * 0x800, words := [1] }, by decide⟩

theorem witness_tableCommands_1 :
    ∃ (s : State) (e : Eci) (c : EciCmd) (p : List Nat), s.serves e c 0x0300 [0x10F, W32, low 31, low 30, W32] ∧ p = c.words ∧ (!bit (p.getD 0 0) 8) = true ∧ (s.l2Denied e.fn) p = false ∧ l2Bad p = false ∧ (maskPipes p).any (fun k => s.l2Over k (l2Payload p 1)) = false ∧ (maskPipes p).any (fun k => (s.l2Slot k (l2Payload p 1)).isNone) = false :=
  ⟨withCmd (eciCmd 0x0300 ([0, 1, 2 ^ 28, 0, 0])) (State.reset), (eciOf 0), eciCmd 0x0300 ([0, 1, 2 ^ 28, 0, 0]), [0, 1, 2 ^ 28, 0, 0], by decide⟩

theorem witness_tableCommands_2 :
    ∃ (s : State) (e : Eci) (c : EciCmd) (p : List Nat), s.serves e c 0x0300 [0x10F, W32, low 31, low 30, W32] ∧ p = c.words ∧ (!bit (p.getD 0 0) 8) = true ∧ (s.l2Denied e.fn) p = false ∧ l2Bad p = false ∧ (maskPipes p).any (fun k => s.l2Over k (l2Payload p 1)) = true :=
  ⟨withCmd (eciCmd 0x0300 ([1, 1, 0, 0, 0])) (State.reset.modFn 0 (fun f => { f with grants := { f.grants with l2 := 0 } })), (eciOf 0), eciCmd 0x0300 ([1, 1, 0, 0, 0]), [1, 1, 0, 0, 0], by decide⟩

theorem witness_tableCommands_3 :
    ∃ (s : State) (e : Eci) (c : EciCmd) (p : List Nat), s.serves e c 0x0300 [0x10F, W32, low 31, low 30, W32] ∧ p = c.words ∧ (bit (p.getD 0 0) 8) = true ∧ (s.l2Denied e.fn) p = false ∧ l2Bad p = false :=
  ⟨withCmd (eciCmd 0x0300 ([0x100, 1, 2 ^ 28, 0, 0])) (State.reset), (eciOf 0), eciCmd 0x0300 ([0x100, 1, 2 ^ 28, 0, 0]), [0x100, 1, 2 ^ 28, 0, 0], by decide⟩

theorem witness_tableCommands_4 :
    ∃ (s : State) (e : Eci) (c : EciCmd) (p : List Nat), s.serves e c 0x0301 [low 2, low 19] ∧ p = c.words ∧ (e.fn != s.manager && !((s.l2Named p).valid && (s.l2Named p).static && (s.l2Named p).owner == e.fn)) = false :=
  ⟨withCmd (eciCmd 0x0301 (([low 2, low 19] : List Nat).map (fun _ => 0))) (State.reset), (eciOf 0), eciCmd 0x0301 (([low 2, low 19] : List Nat).map (fun _ => 0)), ([low 2, low 19] : List Nat).map (fun _ => 0), by decide⟩

theorem witness_tableCommands_5 :
    ∃ (s : State) (e : Eci) (c : EciCmd) (p : List Nat) (ks : List Nat), s.serves e c 0x0302 [low 9] ∧ p = c.words ∧ e.fn = s.manager ∧ ks = (s.l2.filter (fun x => x.2.valid && x.2.learned && (maskPipes p).contains (x.1 / 524288) && (!bit (p.getD 0 0) 4 || (!x.2.destFn && x.2.dest == bits (p.getD 0 0) 8 5)))).map (·.1) :=
  ⟨withCmd (eciCmd 0x0302 (([low 9] : List Nat).map (fun _ => 0))) (State.reset), (eciOf 0), eciCmd 0x0302 (([low 9] : List Nat).map (fun _ => 0)), ([low 9] : List Nat).map (fun _ => 0), [], by decide⟩

theorem witness_tableCommands_6 :
    ∃ (s : State) (e : Eci) (c : EciCmd) (p : List Nat) (r : State × Nat × Nat), s.serves e c 0x0303 ([1] ++ List.replicate 28 W32 ++ [low 5, 0, 0, 0]) ∧ p = c.words ∧ (s.flowDenied e.fn (wBytes p 1 16) || (e.fn != s.manager && bit (p.getD 29 0) 4)) = false ∧ (flowKeyBad (wBytes p 1 16)) = false ∧ (((s.flowFind (wBytes p 1 16)).isNone = false ∨ (s.flowsOf (flowFunc (wBytes p 1 16))).length < (s.fn (flowFunc (wBytes p 1 16))).grants.flows)) ∧ r = s.flowInsert (wBytes p 1 16) (wBytes p 17 12) (bit (p.getD 29 0) 1) (bit (p.getD 29 0) 4) (bit (p.getD 0 0) 0) ∧ r.2.1 = 3 :=
  ⟨withCmd (eciCmd 0x0303 (flowWords)) (flowGrant), (eciOf 0), eciCmd 0x0303 (flowWords), flowWords, (withCmd (eciCmd 0x0303 flowWords) flowGrant).flowInsert (wBytes flowWords 1 16) (wBytes flowWords 17 12) false false false, ⟨by decide, rfl, by decide, by decide, .inr (by decide), rfl, by decide⟩⟩

theorem witness_tableCommands_7 :
    ∃ (s : State) (e : Eci) (c : EciCmd) (p : List Nat) (l : Nat), s.serves e c 0x0304 (List.replicate 16 W32) ∧ p = c.words ∧ (s.flowDenied e.fn (wBytes p 0 16)) = false ∧ (flowKeyBad (wBytes p 0 16)) = false ∧ s.flowFind (wBytes p 0 16) = some l :=
  ⟨withCmd (eciCmd 0x0304 (flowKeyWords)) (flowState), (eciOf 0), eciCmd 0x0304 (flowKeyWords), flowKeyWords, (flowState.flowFind (wBytes flowKeyWords 0 16)).getD 0, by decide⟩

theorem witness_tableCommands_8 :
    ∃ (s : State) (e : Eci) (c : EciCmd) (p : List Nat), s.serves e c 0x0304 (List.replicate 16 W32) ∧ p = c.words ∧ (s.flowDenied e.fn (wBytes p 0 16)) = false ∧ (flowKeyBad (wBytes p 0 16)) = false ∧ s.flowFind (wBytes p 0 16) = none :=
  ⟨withCmd (eciCmd 0x0304 (flowKeyWords)) (State.reset), (eciOf 0), eciCmd 0x0304 (flowKeyWords), flowKeyWords, by decide⟩

theorem witness_tableCommands_9 :
    ∃ (s : State) (e : Eci) (c : EciCmd) (p : List Nat) (l : Nat), s.serves e c 0x0305 (List.replicate 16 W32) ∧ p = c.words ∧ (s.flowDenied e.fn (wBytes p 0 16)) = false ∧ (flowKeyBad (wBytes p 0 16)) = false ∧ s.flowFind (wBytes p 0 16) = some l :=
  ⟨withCmd (eciCmd 0x0305 (flowKeyWords)) (flowState), (eciOf 0), eciCmd 0x0305 (flowKeyWords), flowKeyWords, (flowState.flowFind (wBytes flowKeyWords 0 16)).getD 0, by decide⟩

theorem witness_tableCommands_10 :
    ∃ (s : State) (e : Eci) (c : EciCmd) (p : List Nat) (t : State) (u : State) (b : Bytes) (rc : Nat) (cs : List RouteChange), s.serves e c 0x0306 [low 5, W32, W32] ∧ p = c.words ∧ e.fn = s.manager ∧ ((decide (p.getD 0 0 = 0 ∨ 16 < p.getD 0 0)) = false) ∧ s.dmaIn e.fn (w64 p 1) (32 * p.getD 0 0) e.io.head? = (t, some b, rc) ∧ cs = (List.range (p.getD 0 0)).map (fun k => routeChange (slice b (32 * k) 32)) ∧ cs.any (fun c => c.bad) = false ∧ t.applyRoutes cs = some u :=
  ⟨withCmd (eciCmd 0x0306 ([1, 0, 0])) (dmaState), (eciOf 0), eciCmd 0x0306 ([1, 0, 0]), [1, 0, 0], routeT, (routeT.applyRoutes [routeChange (List.replicate 32 0)]).getD State.reset, (List.replicate 32 0), 0, [routeChange (List.replicate 32 0)], ⟨by decide, by decide, by decide, by decide, by decide, rfl, by decide, rfl⟩⟩

theorem witness_tableCommands_11 :
    ∃ (s : State) (e : Eci) (c : EciCmd) (p : List Nat), s.serves e c 0x0307 [1, W32, W32, W32, W32] ∧ p = c.words ∧ e.fn = s.manager :=
  ⟨withCmd (eciCmd 0x0307 (([1, W32, W32, W32, W32] : List Nat).map (fun _ => 0))) (State.reset), (eciOf 0), eciCmd 0x0307 (([1, W32, W32, W32, W32] : List Nat).map (fun _ => 0)), ([1, W32, W32, W32, W32] : List Nat).map (fun _ => 0), by decide⟩

theorem witness_schedulerCommands_1 :
    ∃ (s : State) (e : Eci) (c : EciCmd) (p : List Nat), s.serves e c 0x0400 [] ∧ p = c.words :=
  ⟨withCmd (eciCmd 0x0400 (([] : List Nat).map (fun _ => 0))) (State.reset), (eciOf 0), eciCmd 0x0400 (([] : List Nat).map (fun _ => 0)), ([] : List Nat).map (fun _ => 0), by decide⟩

theorem witness_schedulerCommands_2 :
    ∃ (s : State) (e : Eci) (c : EciCmd) (p : List Nat) (t : State) (rc : Nat) (w : List Nat), s.serves e c 0x0401 (3 :: List.replicate 8 W32) ∧ p = c.words ∧ (e.fn != s.manager && (p.getD 0 0 != 3 || s.newDenied e.fn (withEn (cfgOf p 1)))) = false ∧ (s.cfgBad (p.getD 0 0) (withEn (cfgOf p 1))) = false ∧ s.aboveTenant e.fn (p.getD 0 0) (withEn (cfgOf p 1)) = false ∧ s.createNode (p.getD 0 0) (withEn (cfgOf p 1)) = .done t rc w :=
  (createNode_done ((withCmd (eciCmd 0x0401 (nodeWords 2 65536 0)) upState)) 2 (withEn (cfgOf (nodeWords 2 65536 0) 1))).elim fun x h => ⟨(withCmd (eciCmd 0x0401 (nodeWords 2 65536 0)) upState), eciOf 0, eciCmd 0x0401 (nodeWords 2 65536 0), nodeWords 2 65536 0, x.1, x.2.1, x.2.2, ⟨by decide, rfl, by decide, by decide, by decide, h⟩⟩

theorem witness_schedulerCommands_3 :
    ∃ (s : State) (e : Eci) (c : EciCmd) (p : List Nat), s.serves e c 0x0402 [3 + 2 ^ 31, low 17] ∧ p = c.words ∧ (s.nodeDenied e.fn) p = false ∧ (noNode p || (nodeOf p).1 == 0 || !(s.node (nodeOf p).1 (nodeOf p).2).en || ((nodeOf p).1 == 3 && isDefaultQueue (nodeOf p).2)) = false ∧ (s.children (nodeOf p).1 (nodeOf p).2) = [] ∧ (nodeOf p).1 ≠ 3 :=
  ⟨withCmd (eciCmd 0x0402 ([2, 7])) (upState), (eciOf 0), eciCmd 0x0402 ([2, 7]), [2, 7], by decide⟩

theorem witness_schedulerCommands_4 :
    ∃ (s : State) (e : Eci) (c : EciCmd) (p : List Nat), s.serves e c 0x0402 [3 + 2 ^ 31, low 17] ∧ p = c.words ∧ (s.nodeDenied e.fn) p = false ∧ (noNode p || (nodeOf p).1 == 0 || !(s.node (nodeOf p).1 (nodeOf p).2).en || ((nodeOf p).1 == 3 && isDefaultQueue (nodeOf p).2)) = false ∧ (s.children 3 (nodeOf p).2) = [] ∧ (nodeOf p).1 = 3 ∧ s.queueBound (nodeOf p).2 = false ∧ (s.node 3 (nodeOf p).2).frames = [] :=
  ⟨withCmd (eciCmd 0x0402 ([3, 100])) (upState), (eciOf 0), eciCmd 0x0402 ([3, 100]), [3, 100], by decide⟩

theorem witness_schedulerCommands_5 :
    ∃ (s : State) (e : Eci) (c : EciCmd) (p : List Nat), s.serves e c 0x0403 (3 :: low 17 :: List.replicate 8 W32) ∧ p = c.words ∧ (s.nodeDenied e.fn p || s.cfgDenied e.fn (nodeOf p).1 (nodeOf p).2 (cfgOf p 2)) = false ∧ (noNode p || s.nodeCode (nodeOf p).1 (nodeOf p).2 (cfgOf p 2) == RC_BAD_ARG) = false ∧ s.aboveTenant e.fn (nodeOf p).1 (cfgOf p 2) = false ∧ s.nodeCode (nodeOf p).1 (nodeOf p).2 (cfgOf p 2) = RC_OK :=
  ⟨withCmd (eciCmd 0x0403 (2 :: 0 :: (nodeWords 2 65536 0).drop 1)) (upState), (eciOf 0), eciCmd 0x0403 (2 :: 0 :: (nodeWords 2 65536 0).drop 1), 2 :: 0 :: (nodeWords 2 65536 0).drop 1, by decide⟩

theorem witness_schedulerCommands_6 :
    ∃ (s : State) (e : Eci) (c : EciCmd) (p : List Nat), s.serves e c 0x0404 [3, low 17] ∧ p = c.words ∧ (s.nodeDenied e.fn) p = false ∧ noNode p = false :=
  ⟨withCmd (eciCmd 0x0404 (([3, low 17] : List Nat).map (fun _ => 0))) (State.reset), (eciOf 0), eciCmd 0x0404 (([3, low 17] : List Nat).map (fun _ => 0)), ([3, low 17] : List Nat).map (fun _ => 0), by decide⟩

theorem witness_schedulerCommands_7 :
    ∃ (s : State) (e : Eci) (c : EciCmd) (p : List Nat), s.serves e c 0x0405 [low 16] ∧ p = c.words ∧ (!s.reaches e.fn 3 (p.getD 0 0)) = false :=
  ⟨withCmd (eciCmd 0x0405 (([low 16] : List Nat).map (fun _ => 0))) (State.reset), (eciOf 0), eciCmd 0x0405 (([low 16] : List Nat).map (fun _ => 0)), ([low 16] : List Nat).map (fun _ => 0), by decide⟩

theorem witness_schedulerCommands_8 :
    ∃ (s : State) (e : Eci) (c : EciCmd) (p : List Nat), s.serves e c 0x0406 [low 27, W32, W32] ∧ p = c.words ∧ e.fn = s.manager ∧ (decide (1024 < memberCount p)) = false ∧ memberCount p = 0 ∧ s.membersUsed ≤ 1048576 :=
  ⟨withCmd (eciCmd 0x0406 (([low 27, W32, W32] : List Nat).map (fun _ => 0))) (State.reset), (eciOf 0), eciCmd 0x0406 (([low 27, W32, W32] : List Nat).map (fun _ => 0)), ([low 27, W32, W32] : List Nat).map (fun _ => 0), by decide⟩

theorem witness_schedulerCommands_9 :
    ∃ (s : State) (e : Eci) (c : EciCmd) (p : List Nat) (t : State) (b : Bytes) (rc : Nat) (ms : List Nat), s.serves e c 0x0406 [low 27, W32, W32] ∧ p = c.words ∧ e.fn = s.manager ∧ (decide (1024 < memberCount p)) = false ∧ memberCount p ≠ 0 ∧ s.dmaIn e.fn (w64 p 1) (8 * memberCount p) e.io.head? = (t, some b, rc) ∧ ms = (List.range (memberCount p)).map (fun k => leAt b (8 * k) 8) ∧ ms.any memberBad = false ∧ t.membersUsed - (t.mcast.get (bits (p.getD 0 0) 15 0)).length + memberCount p ≤ 1048576 :=
  ⟨withCmd (eciCmd 0x0406 ([65536, 0, 0])) (dmaState), (eciOf 0), eciCmd 0x0406 ([65536, 0, 0]), [65536, 0, 0], (withCmd (eciCmd 0x0406 [65536, 0, 0]) dmaState).send (.hostRead 0 0 none 8), (List.replicate 8 0), 0, [0], ⟨by decide, rfl, by decide, by decide, by decide, by decide, by decide, by decide, by decide⟩⟩

theorem witness_schedulerCommands_10 :
    ∃ (s : State) (e : Eci) (c : EciCmd) (p : List Nat) (t : State) (rc : Nat) (w : List Nat), s.serves e c 0x0407 [low 16, W32, W32] ∧ p = c.words ∧ e.fn = s.manager ∧ s.bufferOut e.fn (w64 p 1) 8192 ((s.mcast.get (p.getD 0 0)).flatMap (fun (m : Nat) => leBytes 8 m)) e.io.head? [(s.mcast.get (p.getD 0 0)).length] = .done t rc w :=
  ⟨withCmd (eciCmd 0x0407 ([0, 0, 0])) (dmaState), (eciOf 0), eciCmd 0x0407 ([0, 0, 0]), [0, 0, 0], (withCmd (eciCmd 0x0407 [0, 0, 0]) dmaState).hostWrite 0 0 none [], RC_OK, [0], ⟨by decide, rfl, rfl, rfl⟩⟩

theorem witness_schedulerCommands_11 :
    ∃ (s : State) (e : Eci) (c : EciCmd) (p : List Nat), s.serves e c 0x0408 [low 17, low 17 + 2 ^ 30 + 2 ^ 31, W32, W32, W32] ∧ p = c.words ∧ (e.fn != s.manager && (dumpQueues p).any (fun q => !s.reaches e.fn 3 q)) = false ∧ (decide (65536 < p.getD 0 0 + bits (p.getD 1 0) 16 0)) = false ∧ s.longBusy e.fn = false ∧ ((bit (p.getD 1 0) 30 = true ∨ s.on F.TM_OBS_CFG_MODE 0 = false)) :=
  ⟨withCmd (eciCmd 0x0408 (([low 17, low 17 + 2 ^ 30 + 2 ^ 31, W32, W32, W32] : List Nat).map (fun _ => 0))) (State.reset), (eciOf 0), eciCmd 0x0408 (([low 17, low 17 + 2 ^ 30 + 2 ^ 31, W32, W32, W32] : List Nat).map (fun _ => 0)), ([low 17, low 17 + 2 ^ 30 + 2 ^ 31, W32, W32, W32] : List Nat).map (fun _ => 0), by decide⟩

theorem witness_schedulerCommands_12 :
    ∃ (s : State) (e : Eci) (c : EciCmd) (p : List Nat) (t : State) (rc : Nat) (w : List Nat), s.serves e c 0x0409 (low 12 :: low 10 :: List.replicate 8 W32) ∧ p = c.words ∧ e.fn = s.manager ∧ (noFunc p || s.cfgBad 2 (grantCfg p)) = false ∧ s.createNode 2 (grantCfg p) = .done t rc w :=
  (createNode_done ((withCmd (eciCmd 0x0409 ([0, 0] ++ (nodeWords 2 65536 0).drop 1)) upState)) 2 (grantCfg ([0, 0] ++ (nodeWords 2 65536 0).drop 1))).elim fun x h => ⟨(withCmd (eciCmd 0x0409 ([0, 0] ++ (nodeWords 2 65536 0).drop 1)) upState), eciOf 0, eciCmd 0x0409 ([0, 0] ++ (nodeWords 2 65536 0).drop 1), [0, 0] ++ (nodeWords 2 65536 0).drop 1, x.1, x.2.1, x.2.2, ⟨by decide, rfl, rfl, by decide, h⟩⟩

theorem witness_timeAndJournalCommands_1 :
    ∃ (s : State) (e : Eci) (c : EciCmd) (p : List Nat), s.serves e c 0x0500 [] ∧ p = c.words :=
  ⟨withCmd (eciCmd 0x0500 (([] : List Nat).map (fun _ => 0))) (State.reset), (eciOf 0), eciCmd 0x0500 (([] : List Nat).map (fun _ => 0)), ([] : List Nat).map (fun _ => 0), by decide⟩

theorem witness_timeAndJournalCommands_2 :
    ∃ (s : State) (e : Eci) (c : EciCmd) (p : List Nat), s.serves e c 0x0501 [W32, W32] ∧ p = c.words ∧ e.fn = s.manager ∧ (!Reg.takes .TSU_FREQ_OFFSET (w64 p 0)) = false :=
  ⟨withCmd (eciCmd 0x0501 (([W32, W32] : List Nat).map (fun _ => 0))) (State.reset), (eciOf 0), eciCmd 0x0501 (([W32, W32] : List Nat).map (fun _ => 0)), ([W32, W32] : List Nat).map (fun _ => 0), by decide⟩

theorem witness_timeAndJournalCommands_3 :
    ∃ (s : State) (e : Eci) (c : EciCmd) (p : List Nat) (t : State), s.serves e c 0x0502 stepMasks ∧ p = c.words ∧ (!bit (p.getD 4 0) 31) = true ∧ e.fn = s.manager ∧ s.on F.TSU_STEP_CTRL_ARM 0 = false ∧ t = (((s.put .TSU_STEP 0 (w64 p 0)).put .TSU_STEP_AT 0 (w64 p 2)).wr F.TSU_STEP_CTRL_ABS 0 (bits (p.getD 4 0) 0 0)).steering.arm ∧ t.rd F.TSU_STEP_CTRL_RESULT 0 ≠ 2 ∧ t.rd F.TSU_STEP_CTRL_RESULT 0 ≠ 3 :=
  ⟨withCmd (eciCmd 0x0502 ([0, 0, 0, 0, 1])) (State.reset), (eciOf 0), eciCmd 0x0502 ([0, 0, 0, 0, 1]), [0, 0, 0, 0, 1], (((((withCmd (eciCmd 0x0502 [0, 0, 0, 0, 1]) State.reset).put .TSU_STEP 0 (w64 [0, 0, 0, 0, 1] 0)).put .TSU_STEP_AT 0 (w64 [0, 0, 0, 0, 1] 2)).wr F.TSU_STEP_CTRL_ABS 0 (bits (([0, 0, 0, 0, 1] : List Nat).getD 4 0) 0 0)).steering.arm), by decide⟩

theorem witness_timeAndJournalCommands_4 :
    ∃ (s : State) (e : Eci) (c : EciCmd) (p : List Nat), s.serves e c 0x0502 stepMasks ∧ p = c.words ∧ (!bit (p.getD 4 0) 31) = true ∧ e.fn = s.manager ∧ s.on F.TSU_STEP_CTRL_ARM 0 = true :=
  ⟨withCmd (eciCmd 0x0502 ([0, 0, 0, 0, 1])) (State.reset.wr F.TSU_STEP_CTRL_ARM 0 1), (eciOf 0), eciCmd 0x0502 ([0, 0, 0, 0, 1]), [0, 0, 0, 0, 1], by decide⟩

theorem witness_timeAndJournalCommands_5 :
    ∃ (s : State) (e : Eci) (c : EciCmd) (p : List Nat), s.serves e c 0x0502 stepMasks ∧ p = c.words ∧ (bit (p.getD 4 0) 31) = true ∧ e.fn = s.manager :=
  ⟨withCmd (eciCmd 0x0502 ([0, 0, 0, 0, 2 ^ 31])) (State.reset), (eciOf 0), eciCmd 0x0502 ([0, 0, 0, 0, 2 ^ 31]), [0, 0, 0, 0, 2 ^ 31], by decide⟩

theorem witness_timeAndJournalCommands_6 :
    ∃ (s : State) (e : Eci) (c : EciCmd) (p : List Nat), s.serves e c 0x0503 [W32, W32, low 17] ∧ p = c.words ∧ e.fn = s.manager ∧ (decide (50000 < p.getD 2 0)) = false :=
  ⟨withCmd (eciCmd 0x0503 (([W32, W32, low 17] : List Nat).map (fun _ => 0))) (State.reset), (eciOf 0), eciCmd 0x0503 (([W32, W32, low 17] : List Nat).map (fun _ => 0)), ([W32, W32, low 17] : List Nat).map (fun _ => 0), by decide⟩

theorem witness_timeAndJournalCommands_7 :
    ∃ (s : State) (e : Eci) (c : EciCmd) (p : List Nat), s.serves e c 0x0504 [] ∧ p = c.words ∧ e.fn = s.manager :=
  ⟨withCmd (eciCmd 0x0504 (([] : List Nat).map (fun _ => 0))) (State.reset), (eciOf 0), eciCmd 0x0504 (([] : List Nat).map (fun _ => 0)), ([] : List Nat).map (fun _ => 0), by decide⟩

theorem witness_timeAndJournalCommands_8 :
    ∃ (s : State) (e : Eci) (c : EciCmd) (p : List Nat) (t : State), s.serves e c 0x0505 [W32, W32, W32, 7] ∧ p = c.words ∧ e.fn = s.manager ∧ (badValue p 3 0 .TSU_PPS_OUT || badValue p 3 1 .TSU_PPS_OUT_OFS || badValue p 3 2 .TSU_REF) = false ∧ t = ((s.when (bit (p.getD 3 0) 0) (fun t => t.putFields .TSU_PPS_OUT 0 (p.getD 0 0))).when (bit (p.getD 3 0) 1) (fun t => t.putFields .TSU_PPS_OUT_OFS 0 (p.getD 1 0))).when (bit (p.getD 3 0) 2) (fun t => t.setRef (p.getD 2 0)) :=
  ⟨withCmd (eciCmd 0x0505 ([0, 0, 0, 0])) (State.reset), (eciOf 0), eciCmd 0x0505 ([0, 0, 0, 0]), [0, 0, 0, 0], withCmd (eciCmd 0x0505 [0, 0, 0, 0]) State.reset, by decide⟩

theorem witness_timeAndJournalCommands_9 :
    ∃ (s : State) (e : Eci) (c : EciCmd) (p : List Nat), s.serves e c 0x0506 (List.replicate 7 W32 ++ [low 7 + 2 ^ 31]) ∧ p = c.words ∧ e.fn = s.manager ∧ (ovenRegs.zipIdx.any (fun r => badValue p 7 r.2 r.1)) = false ∧ bit (p.getD 7 0) 31 = false :=
  ⟨withCmd (eciCmd 0x0506 ([0, 0, 0, 0, 0, 0, 0, 0])) (State.reset), (eciOf 0), eciCmd 0x0506 ([0, 0, 0, 0, 0, 0, 0, 0]), [0, 0, 0, 0, 0, 0, 0, 0], by decide⟩

theorem witness_timeAndJournalCommands_10 :
    ∃ (s : State) (e : Eci) (c : EciCmd) (p : List Nat), s.serves e c 0x0506 (List.replicate 7 W32 ++ [low 7 + 2 ^ 31]) ∧ p = c.words ∧ e.fn = s.manager ∧ (ovenRegs.zipIdx.any (fun r => badValue p 7 r.2 r.1)) = false ∧ bit (p.getD 7 0) 31 = true ∧ s.longBusy e.fn = false :=
  ⟨withCmd (eciCmd 0x0506 ([0, 0, 0, 0, 0, 0, 0, 2 ^ 31])) (State.reset), (eciOf 0), eciCmd 0x0506 ([0, 0, 0, 0, 0, 0, 0, 2 ^ 31]), [0, 0, 0, 0, 0, 0, 0, 2 ^ 31], by decide⟩

theorem witness_timeAndJournalCommands_11 :
    ∃ (s : State) (e : Eci) (c : EciCmd) (p : List Nat), s.serves e c 0x0507 [] ∧ p = c.words ∧ e.fn = s.manager :=
  ⟨withCmd (eciCmd 0x0507 (([] : List Nat).map (fun _ => 0))) (State.reset), (eciOf 0), eciCmd 0x0507 (([] : List Nat).map (fun _ => 0)), ([] : List Nat).map (fun _ => 0), by decide⟩

theorem witness_timeAndJournalCommands_12 :
    ∃ (s : State) (e : Eci) (c : EciCmd) (p : List Nat), s.serves e c 0x0600 [] ∧ p = c.words ∧ e.fn = s.manager :=
  ⟨withCmd (eciCmd 0x0600 (([] : List Nat).map (fun _ => 0))) (State.reset), (eciOf 0), eciCmd 0x0600 (([] : List Nat).map (fun _ => 0)), ([] : List Nat).map (fun _ => 0), by decide⟩

theorem witness_timeAndJournalCommands_13 :
    ∃ (s : State) (e : Eci) (c : EciCmd) (p : List Nat) (t : State) (u : State) (v : State) (b : Bytes) (q : Bytes) (rc : Nat) (rc' : Nat) (n : Nat) (w : List Nat), s.serves e c 0x0601 [low 6, W32, W32] ∧ p = c.words ∧ e.fn = s.manager ∧ s.dmaIn e.fn (w64 p 1) 32 e.io.head? = (t, some b, rc) ∧ leAt b 0 4 / 2 = 0 ∧ leAt b 4 4 / 2 ^ 20 = 0 ∧ leAt b 12 20 = 0 ∧ leAt b 8 2 ≤ 1024 ∧ leAt b 10 2 ≤ 256 ∧ (if leAt b 8 2 + leAt b 10 2 = 0 then (t, some [], 0) else t.dmaIn e.fn (w64 p 1 + 32) (8 * (leAt b 8 2 + leAt b 10 2)) (e.io.drop 1).head?) = (u, some q, rc') ∧ u.setGroup (p.getD 0 0) { en := leAt b 0 4 = 1, delay := leAt b 4 4, src := entries64 q 0 (leAt b 8 2), dst := entries64 q (8 * leAt b 8 2) (leAt b 10 2) } = .done v n w :=
  ⟨withCmd (eciCmd 0x0601 ([0, 0, 0])) (dmaState), (eciOf 0), eciCmd 0x0601 ([0, 0, 0]), [0, 0, 0], groupT, groupT, { groupT with groupsAdmin := groupT.groupsAdmin.set 0 { en := false, delay := 0, src := [], dst := [] } }, List.replicate 32 0, [], 0, 0, RC_OK, two (groupT.holdBytes { en := false, delay := 0, src := [], dst := [] } 0), ⟨by decide, rfl, rfl, by decide, by decide, by decide, by decide, by decide, by decide, by decide, groupSet0⟩⟩

theorem witness_timeAndJournalCommands_14 :
    ∃ (s : State) (e : Eci) (c : EciCmd) (p : List Nat) (b : Bytes) (t : State) (rc : Nat) (w : List Nat), s.serves e c 0x0602 [low 6 + 2 ^ 31, W32, W32, W32] ∧ p = c.words ∧ e.fn = s.manager ∧ b = s.groupBytes ((if bit (p.getD 0 0) 31 then s.groupsOper else s.groupsAdmin).get (bits (p.getD 0 0) 5 0)) ∧ s.bufferOut e.fn (w64 p 1) (p.getD 3 0) b e.io.head? [b.length] = .done t rc w :=
  ⟨withCmd (eciCmd 0x0602 (([low 6 + 2 ^ 31, W32, W32, W32] : List Nat).map (fun _ => 0))) (State.reset), (eciOf 0), eciCmd 0x0602 (([low 6 + 2 ^ 31, W32, W32, W32] : List Nat).map (fun _ => 0)), ([low 6 + 2 ^ 31, W32, W32, W32] : List Nat).map (fun _ => 0), State.reset.groupBytes {}, withCmd (eciCmd 0x0602 [0, 0, 0, 0]) State.reset, 0x80, [32], ⟨by decide, rfl, rfl, by decide, rfl⟩⟩

theorem witness_timeAndJournalCommands_15 :
    ∃ (s : State) (e : Eci) (c : EciCmd) (p : List Nat), s.serves e c 0x0603 stampMasks ∧ p = c.words ∧ (!bit (p.getD 0 0) 31) = true ∧ e.fn = s.manager ∧ (s.noStampRing e.fn (p.getD 1 0)) = false :=
  ⟨withCmd (eciCmd 0x0603 ([0, 0])) ({ State.reset with rings := [(262144, cqRing)] }), (eciOf 0), eciCmd 0x0603 ([0, 0]), [0, 0], by decide⟩

theorem witness_timeAndJournalCommands_16 :
    ∃ (s : State) (e : Eci) (c : EciCmd) (p : List Nat), s.serves e c 0x0603 stampMasks ∧ p = c.words ∧ (bit (p.getD 0 0) 31) = true ∧ e.fn = s.manager :=
  ⟨withCmd (eciCmd 0x0603 ([2 ^ 31, 0])) (State.reset), (eciOf 0), eciCmd 0x0603 ([2 ^ 31, 0]), [2 ^ 31, 0], by decide⟩

theorem witness_timeAndJournalCommands_17 :
    ∃ (s : State) (e : Eci) (c : EciCmd) (p : List Nat), s.serves e c 0x0604 [low 18 + 2 ^ 31] ∧ p = c.words ∧ (bit (p.getD 0 0) 31) = true ∧ e.fn = s.manager ∧ (s.jrings.getD (bits (p.getD 0 0) 17 0) none).isSome = true :=
  ⟨withCmd (eciCmd 0x0604 ([2 ^ 31])) ({ State.reset with jrings := [(0, some {})] }), (eciOf 0), eciCmd 0x0604 ([2 ^ 31]), [2 ^ 31], by decide⟩

theorem witness_timeAndJournalCommands_18 :
    ∃ (s : State) (e : Eci) (c : EciCmd) (p : List Nat), s.serves e c 0x0604 [low 18 + 2 ^ 31] ∧ p = c.words ∧ (bit (p.getD 0 0) 31) = true ∧ e.fn = s.manager ∧ (s.jrings.getD (bits (p.getD 0 0) 17 0) none).isSome = false ∧ s.jrings.length < 8192 :=
  ⟨withCmd (eciCmd 0x0604 ([2 ^ 31])) (State.reset), (eciOf 0), eciCmd 0x0604 ([2 ^ 31]), [2 ^ 31], by decide⟩

theorem witness_timeAndJournalCommands_19 :
    ∃ (s : State) (e : Eci) (c : EciCmd) (p : List Nat) (t : State), s.serves e c 0x0604 [low 18 + 2 ^ 31] ∧ p = c.words ∧ (!bit (p.getD 0 0) 31) = true ∧ e.fn = s.manager ∧ t = s.closeDigest (p.getD 0 0) :=
  ⟨withCmd (eciCmd 0x0604 ([0])) (State.reset), (eciOf 0), eciCmd 0x0604 ([0]), [0], (withCmd (eciCmd 0x0604 [0]) State.reset).closeDigest 0, by decide⟩

theorem witness_timeAndJournalCommands_20 :
    ∃ (s : State) (e : Eci) (c : EciCmd) (p : List Nat) (t : State) (rc : Nat) (w : List Nat), s.serves e c 0x0605 [W32, W32, W32] ∧ p = c.words ∧ e.fn = s.manager ∧ s.bufferOut e.fn (w64 p 0) (p.getD 2 0) Config.certificate e.io.head? [Config.certificate.length] = .done t rc w :=
  (bufferOut_done (withCmd (eciCmd 0x0605 [0, 0, 0]) State.reset) 0 0 0 Config.certificate none [Config.certificate.length]).elim fun x h => ⟨withCmd (eciCmd 0x0605 [0, 0, 0]) State.reset, eciOf 0, eciCmd 0x0605 [0, 0, 0], [0, 0, 0], x.1, x.2.1, x.2.2, ⟨by decide, rfl, rfl, h⟩⟩

theorem witness_timeAndJournalCommands_21 :
    ∃ (s : State) (e : Eci) (c : EciCmd) (p : List Nat), s.serves e c 0x0606 [] ∧ p = c.words ∧ e.fn = s.manager :=
  ⟨withCmd (eciCmd 0x0606 (([] : List Nat).map (fun _ => 0))) (State.reset), (eciOf 0), eciCmd 0x0606 (([] : List Nat).map (fun _ => 0)), ([] : List Nat).map (fun _ => 0), by decide⟩

theorem witness_timeAndJournalCommands_22 :
    ∃ (s : State) (e : Eci) (c : EciCmd) (p : List Nat), s.serves e c 0x0607 [] ∧ p = c.words ∧ e.fn = s.manager ∧ s.val .JNL_PROD 0 = s.val .JNL_CONS 0 :=
  ⟨withCmd (eciCmd 0x0607 (([] : List Nat).map (fun _ => 0))) (State.reset), (eciOf 0), eciCmd 0x0607 (([] : List Nat).map (fun _ => 0)), ([] : List Nat).map (fun _ => 0), by decide⟩

theorem witness_timeAndJournalCommands_23 :
    ∃ (s : State) (e : Eci) (c : EciCmd) (p : List Nat), s.serves e c 0x0607 [] ∧ p = c.words ∧ e.fn = s.manager ∧ s.val .JNL_PROD 0 ≠ s.val .JNL_CONS 0 :=
  ⟨withCmd (eciCmd 0x0607 ([])) (State.reset.put .JNL_PROD 0 64), (eciOf 0), eciCmd 0x0607 ([]), [], by decide⟩

theorem witness_offloadObjects_1 :
    ∃ (s : State) (e : Eci) (c : EciCmd) (p : List Nat), s.serves e c 0x0700 [] ∧ p = c.words :=
  ⟨withCmd (eciCmd 0x0700 (([] : List Nat).map (fun _ => 0))) (State.reset), (eciOf 0), eciCmd 0x0700 (([] : List Nat).map (fun _ => 0)), ([] : List Nat).map (fun _ => 0), by decide⟩

theorem witness_offloadObjects_2 :
    ∃ (s : State) (e : Eci) (c : EciCmd) (p : List Nat) (i : Nat) (a : EspSa), s.serves e c 0x0701 (if (s.eciWords e).getD 0 0 % 4 = 1 then sessMasks else espMasks) ∧ p = c.words ∧ (s.createDenied e.fn) p = false ∧ createBad p = false ∧ p.getD 0 0 % 4 = 0 ∧ a = espOfPayload p ∧ s.espOf a.owner < (s.fn a.owner).grants.esp ∧ s.espSas.length < ESP_COUNT ∧ firstFree ESP_COUNT s.fresh (fun k => (s.espSas.get k).state != 0) = some i :=
  ⟨withCmd (eciCmd 0x0701 (List.replicate 40 0)) (ofGrant), (eciOf 0), eciCmd 0x0701 (List.replicate 40 0), List.replicate 40 0, ofGrant.fresh % 1048576, espOfPayload (List.replicate 40 0), ⟨by decide, rfl, by decide, by decide, by decide, rfl, by decide, by decide, firstFree_all (by decide) (fun _ => rfl)⟩⟩

theorem witness_offloadObjects_3 :
    ∃ (s : State) (e : Eci) (c : EciCmd) (p : List Nat) (i : Nat) (a : Session) (t : State), s.serves e c 0x0701 (if (s.eciWords e).getD 0 0 % 4 = 1 then sessMasks else espMasks) ∧ p = c.words ∧ (s.createDenied e.fn) p = false ∧ createBad p = false ∧ p.getD 0 0 % 4 = 1 ∧ a = sessOfPayload p ∧ t = s.used ∧ s.sessOf a.owner < (s.fn a.owner).grants.sessions ∧ s.sessions.length < SESSION_COUNT ∧ firstFree SESSION_COUNT s.fresh (fun k => (s.sessions.get k).state != 0) = some i :=
  ⟨withCmd (eciCmd 0x0701 (1 :: List.replicate 32 0)) (ofGrant), (eciOf 0), eciCmd 0x0701 (1 :: List.replicate 32 0), 1 :: List.replicate 32 0, ofGrant.fresh % 262144, sessOfPayload (1 :: List.replicate 32 0), (withCmd (eciCmd 0x0701 (1 :: List.replicate 32 0)) ofGrant).used, ⟨by decide, rfl, by decide, by decide, by decide, rfl, rfl, by decide, by decide, firstFree_all (by decide) (fun _ => rfl)⟩⟩

theorem witness_offloadObjects_4 :
    ∃ (s : State) (e : Eci) (c : EciCmd) (p : List Nat), s.serves e c 0x0702 [3 + 2 ^ 16 * low 12, low 20] ∧ p = c.words ∧ (s.ctxDenied e.fn) p = false ∧ (s.noCtx (ctxKind p) (ctxOwner p) (ctxNo p)) = false ∧ ((ctxKind p = 2 ∨ s.ctxBusy (ctxKind p) (ctxNo p) = false)) :=
  ⟨withCmd (eciCmd 0x0702 ([0, 5])) (ofState), (eciOf 0), eciCmd 0x0702 ([0, 5]), [0, 5], by decide⟩

theorem witness_offloadObjects_5 :
    ∃ (s : State) (e : Eci) (c : EciCmd) (p : List Nat), s.serves e c 0x0702 [3 + 2 ^ 16 * low 12, low 20] ∧ p = c.words ∧ (s.ctxDenied e.fn) p = false ∧ (s.noCtx (ctxKind p) (ctxOwner p) (ctxNo p)) = false ∧ ctxKind p ≠ 2 ∧ s.ctxBusy (ctxKind p) (ctxNo p) = true :=
  ⟨withCmd (eciCmd 0x0702 ([0, 5])) ({ ofState with pkts := [(1, { deferred := [{ ctx := 5, params := [1] }] })] }), (eciOf 0), eciCmd 0x0702 ([0, 5]), [0, 5], by decide⟩

theorem witness_offloadObjects_6 :
    ∃ (s : State) (e : Eci) (c : EciCmd) (p : List Nat), s.serves e c 0x0703 [3 + 2 ^ 16 * low 12, low 20] ∧ p = c.words ∧ (s.ctxDenied e.fn) p = false ∧ (s.noCtx (ctxKind p) (ctxOwner p) (ctxNo p)) = false :=
  ⟨withCmd (eciCmd 0x0703 ([1, 6])) (ofState), (eciOf 0), eciCmd 0x0703 ([1, 6]), [1, 6], by decide⟩

theorem witness_offloadObjects_7 :
    ∃ (s : State) (e : Eci) (c : EciCmd) (p : List Nat), s.serves e c 0x0704 ([3 + 2 ^ 16 * low 12, low 20, 7] ++ List.replicate 8 W32 ++ [low 13, low 17]) ∧ p = c.words ∧ (s.ctxDenied e.fn) p = false ∧ (s.noCtx (ctxKind p) (ctxOwner p) (ctxNo p) || modifyBad p) = false ∧ s.ctxState (ctxKind p) (ctxNo p) ≠ 3 :=
  ⟨withCmd (eciCmd 0x0704 ([0, 5, 3] ++ List.replicate 10 0)) (ofState), (eciOf 0), eciCmd 0x0704 ([0, 5, 3] ++ List.replicate 10 0), [0, 5, 3] ++ List.replicate 10 0, by decide⟩

theorem witness_offloadObjects_8 :
    ∃ (s : State) (e : Eci) (c : EciCmd) (p : List Nat), s.serves e c 0x0704 ([3 + 2 ^ 16 * low 12, low 20, 7] ++ List.replicate 8 W32 ++ [low 13, low 17]) ∧ p = c.words ∧ (s.ctxDenied e.fn) p = false ∧ (s.noCtx (ctxKind p) (ctxOwner p) (ctxNo p) || modifyBad p) = false ∧ s.ctxState (ctxKind p) (ctxNo p) = 3 :=
  ⟨withCmd (eciCmd 0x0704 ([0, 5, 3] ++ List.replicate 10 0)) ({ ofState with espSas := [(5, { state := 3 })] }), (eciOf 0), eciCmd 0x0704 ([0, 5, 3] ++ List.replicate 10 0), [0, 5, 3] ++ List.replicate 10 0, by decide⟩

theorem witness_offloadObjects_9 :
    ∃ (s : State) (e : Eci) (c : EciCmd) (p : List Nat) (mine : List (Nat × Nat × Nat × Nat)), s.serves e c 0x070B [] ∧ p = c.words ∧ mine = (s.oflNotes.filter (fun n => n.1 == e.fn)).take 60 :=
  ⟨withCmd (eciCmd 0x070B (([] : List Nat).map (fun _ => 0))) (State.reset), (eciOf 0), eciCmd 0x070B (([] : List Nat).map (fun _ => 0)), ([] : List Nat).map (fun _ => 0), [], by decide⟩

theorem witness_offloadObjects_10 :
    ∃ (s : State) (e : Eci) (c : EciCmd) (p : List Nat) (t : State), s.serves e c 0x070C [low 12, W32, W32, W32] ∧ p = c.words ∧ e.fn = s.manager ∧ ((noFunc p || decide (ESP_COUNT < p.getD 1 0 ∨ SESSION_COUNT < p.getD 2 0 ∨ PLACE_COUNT < p.getD 3 0)) = false) ∧ s.espOf (p.getD 0 0) ≤ p.getD 1 0 ∧ s.sessOf (p.getD 0 0) ≤ p.getD 2 0 ∧ s.placesOf (p.getD 0 0) ≤ p.getD 3 0 ∧ t = s.modFn (p.getD 0 0) (fun x => { x with grants := { x.grants with esp := p.getD 1 0, sessions := p.getD 2 0, places := p.getD 3 0 } }) :=
  ⟨withCmd (eciCmd 0x070C ([0, 0, 0, 0])) (State.reset), (eciOf 0), eciCmd 0x070C ([0, 0, 0, 0]), [0, 0, 0, 0], (withCmd (eciCmd 0x070C [0, 0, 0, 0]) State.reset).modFn 0 (fun x => { x with grants := { x.grants with esp := 0, sessions := 0, places := 0 } }), by decide⟩

theorem witness_offloadObjects_11 :
    ∃ (s : State) (e : Eci) (c : EciCmd) (p : List Nat), s.serves e c 0x070C [low 12, W32, W32, W32] ∧ p = c.words ∧ e.fn = s.manager ∧ ((noFunc p || decide (ESP_COUNT < p.getD 1 0 ∨ SESSION_COUNT < p.getD 2 0 ∨ PLACE_COUNT < p.getD 3 0)) = false) ∧ ((p.getD 1 0 < s.espOf (p.getD 0 0) ∨ p.getD 2 0 < s.sessOf (p.getD 0 0) ∨ p.getD 3 0 < s.placesOf (p.getD 0 0))) :=
  ⟨withCmd (eciCmd 0x070C ([0, 0, 0, 0])) (ofState), (eciOf 0), eciCmd 0x070C ([0, 0, 0, 0]), [0, 0, 0, 0], by decide⟩

theorem witness_offloadObjects_12 :
    ∃ (s : State) (e : Eci) (c : EciCmd) (p : List Nat) (a : Session), s.serves e c 0x0705 [2 ^ 16 * low 12, low 20, W32, W32, W32] ∧ p = c.words ∧ (s.sessDenied e.fn) p = false ∧ (s.noSession p (fun a => a.tlsRx)) = false ∧ a = s.sessions.get (ctxNo p) ∧ a.state ≠ 3 ∧ a.rxState ≠ 0 :=
  ⟨withCmd (eciCmd 0x0705 ([0, 6, 0, 0, 0])) (ofState), (eciOf 0), eciCmd 0x0705 ([0, 6, 0, 0, 0]), [0, 6, 0, 0, 0], { state := 1, tlsRx := true, nvme := true, rxState := 1, nvState := 1 }, by decide⟩

theorem witness_offloadObjects_13 :
    ∃ (s : State) (e : Eci) (c : EciCmd) (p : List Nat), s.serves e c 0x0705 [2 ^ 16 * low 12, low 20, W32, W32, W32] ∧ p = c.words ∧ (s.sessDenied e.fn) p = false ∧ (s.noSession p (fun a => a.tlsRx)) = false ∧ (s.sessions.get (ctxNo p)).state = 3 :=
  ⟨withCmd (eciCmd 0x0705 ([0, 6, 0, 0, 0])) ({ ofState with sessions := [(6, { state := 3, tlsRx := true })] }), (eciOf 0), eciCmd 0x0705 ([0, 6, 0, 0, 0]), [0, 6, 0, 0, 0], by decide⟩

theorem witness_offloadObjects_14 :
    ∃ (s : State) (e : Eci) (c : EciCmd) (p : List Nat) (a : Session) (key : Bytes), s.serves e c 0x0706 ([2 ^ 16 * low 12, low 20] ++ List.replicate 12 W32) ∧ p = c.words ∧ (s.sessDenied e.fn) p = false ∧ (s.noSession p (fun a => a.tlsRx) || (!(s.sessions.get (ctxNo p)).key256 && anyWord p 7 4)) = false ∧ a = s.sessions.get (ctxNo p) ∧ a.state ≠ 3 ∧ a.rxState ≠ 0 ∧ key = wBytes p 3 (if a.key256 then 8 else 4) :=
  ⟨withCmd (eciCmd 0x0706 ([0, 6] ++ List.replicate 12 0)) (ofState), (eciOf 0), eciCmd 0x0706 ([0, 6] ++ List.replicate 12 0), [0, 6] ++ List.replicate 12 0, { state := 1, tlsRx := true, nvme := true, rxState := 1, nvState := 1 }, wBytes ([0, 6] ++ List.replicate 12 0) 3 4, by decide⟩

theorem witness_offloadObjects_15 :
    ∃ (s : State) (e : Eci) (c : EciCmd) (p : List Nat) (a : Session), s.serves e c 0x0707 [2 ^ 16 * low 12, low 20, W32] ∧ p = c.words ∧ (s.sessDenied e.fn) p = false ∧ (s.noSession p (fun a => a.nvme)) = false ∧ a = s.sessions.get (ctxNo p) ∧ a.state ≠ 3 ∧ ((a.nvState = 1 ∨ a.nvState = 3)) :=
  ⟨withCmd (eciCmd 0x0707 ([0, 6, 0])) (ofState), (eciOf 0), eciCmd 0x0707 ([0, 6, 0]), [0, 6, 0], { state := 1, tlsRx := true, nvme := true, rxState := 1, nvState := 1 }, by decide⟩

theorem witness_offloadObjects_16 :
    ∃ (s : State) (e : Eci) (c : EciCmd) (p : List Nat), s.serves e c 0x0708 [2 ^ 16 * low 12, low 20, low 16] ∧ p = c.words ∧ (s.sessDenied e.fn) p = false ∧ (s.noCtx 1 (ctxOwner p) (ctxNo p) || !(s.places.any (fun x => x.1 == placeKey (ctxNo p) (p.getD 2 0)))) = false :=
  ⟨withCmd (eciCmd 0x0708 ([0, 6, 9])) ({ ofState with places := [(placeKey 6 9, default)] }), (eciOf 0), eciCmd 0x0708 ([0, 6, 9]), [0, 6, 9], by decide⟩

theorem witness_offloadObjects_17 :
    ∃ (s : State) (e : Eci) (c : EciCmd) (p : List Nat) (i : Nat) (a : MacsecSa), s.serves e c 0x0709 macsecMasks ∧ p = c.words ∧ (!bit (p.getD 0 0) 0) = true ∧ e.fn = s.manager ∧ (!s.xpn (bits (p.getD 0 0) 7 4) && p.getD 5 0 != 0) = false ∧ a = s.saOfPayload p ∧ s.saPlace a = some i ∧ (s.macsec.get i).state ≠ 3 :=
  ⟨withCmd (eciCmd 0x0709 (List.replicate 17 0)) (ofState), (eciOf 0), eciCmd 0x0709 (List.replicate 17 0), List.replicate 17 0, 3, (withCmd (eciCmd 0x0709 (List.replicate 17 0)) ofState).saOfPayload (List.replicate 17 0), by decide⟩

theorem witness_offloadObjects_18 :
    ∃ (s : State) (e : Eci) (c : EciCmd) (p : List Nat) (i : Nat), s.serves e c 0x0709 macsecMasks ∧ p = c.words ∧ (!bit (p.getD 0 0) 0) = true ∧ e.fn = s.manager ∧ (!s.xpn (bits (p.getD 0 0) 7 4) && p.getD 5 0 != 0) = false ∧ s.saPlace (s.saOfPayload p) = some i ∧ (s.macsec.get i).state = 3 :=
  ⟨withCmd (eciCmd 0x0709 (List.replicate 17 0)) ({ ofState with macsec := [(3, { state := 3 })] }), (eciOf 0), eciCmd 0x0709 (List.replicate 17 0), List.replicate 17 0, 3, by decide⟩

theorem witness_offloadObjects_19 :
    ∃ (s : State) (e : Eci) (c : EciCmd) (p : List Nat) (i : Nat) (a : MacsecSa), s.serves e c 0x0709 macsecMasks ∧ p = c.words ∧ (!bit (p.getD 0 0) 0) = true ∧ e.fn = s.manager ∧ (!s.xpn (bits (p.getD 0 0) 7 4) && p.getD 5 0 != 0) = false ∧ a = s.saOfPayload p ∧ s.saPlace a = none ∧ ((a.rx = false ∨ (s.rxChannels a.port).contains a.sci = true ∨ (s.rxChannels a.port).length < 64)) ∧ firstFree MACSEC_COUNT s.fresh (fun k => (s.macsec.get k).state != 0) = some i :=
  ⟨withCmd (eciCmd 0x0709 (List.replicate 17 0)) (State.reset), (eciOf 0), eciCmd 0x0709 (List.replicate 17 0), List.replicate 17 0, State.reset.fresh % 4096, (withCmd (eciCmd 0x0709 (List.replicate 17 0)) State.reset).saOfPayload (List.replicate 17 0), ⟨by decide, rfl, by decide, rfl, by decide, rfl, by decide, .inl (by decide), firstFree_all (by decide) (fun _ => rfl)⟩⟩

theorem witness_offloadObjects_20 :
    ∃ (s : State) (e : Eci) (c : EciCmd) (p : List Nat) (i : Nat), s.serves e c 0x0709 macsecMasks ∧ p = c.words ∧ (bit (p.getD 0 0) 0) = true ∧ e.fn = s.manager ∧ ((s.saPlace (s.saOfPayload p)).isNone) = false ∧ s.saPlace (s.saOfPayload p) = some i :=
  ⟨withCmd (eciCmd 0x0709 (1 :: List.replicate 16 0)) (ofState), (eciOf 0), eciCmd 0x0709 (1 :: List.replicate 16 0), 1 :: List.replicate 16 0, 3, by decide⟩

theorem witness_offloadObjects_21 :
    ∃ (s : State) (e : Eci) (c : EciCmd) (p : List Nat), s.serves e c 0x070A [low 6] ∧ p = c.words ∧ e.fn = s.manager :=
  ⟨withCmd (eciCmd 0x070A ([0])) (State.reset), (eciOf 0), eciCmd 0x070A ([0]), [0], by decide⟩

theorem witness_redundancyAndMirror_1 :
    ∃ (s : State) (e : Eci) (c : EciCmd) (p : List Nat), s.serves e c 0x0800 [] ∧ p = c.words ∧ e.fn = s.manager :=
  ⟨withCmd (eciCmd 0x0800 (([] : List Nat).map (fun _ => 0))) (State.reset), (eciOf 0), eciCmd 0x0800 (([] : List Nat).map (fun _ => 0)), ([] : List Nat).map (fun _ => 0), by decide⟩

theorem witness_redundancyAndMirror_2 :
    ∃ (s : State) (e : Eci) (c : EciCmd) (p : List Nat), s.serves e c 0x0801 memberMasks ∧ p = c.words ∧ (!bit (p.getD 0 0) 31) = true ∧ e.fn = s.manager ∧ (s.memberRefused (p.getD 0 0) (wBytes p 1 4)) = false :=
  ⟨withCmd (eciCmd 0x0801 ([5, 0, 2 ^ 28, 0, 0])) (State.reset), (eciOf 0), eciCmd 0x0801 ([5, 0, 2 ^ 28, 0, 0]), [5, 0, 2 ^ 28, 0, 0], by decide⟩

theorem witness_redundancyAndMirror_3 :
    ∃ (s : State) (e : Eci) (c : EciCmd) (p : List Nat), s.serves e c 0x0801 memberMasks ∧ p = c.words ∧ (bit (p.getD 0 0) 31) = true ∧ e.fn = s.manager :=
  ⟨withCmd (eciCmd 0x0801 ([2 ^ 31, 0, 0, 0, 0])) (State.reset), (eciOf 0), eciCmd 0x0801 ([2 ^ 31, 0, 0, 0, 0]), [2 ^ 31, 0, 0, 0, 0], by decide⟩

theorem witness_redundancyAndMirror_4 :
    ∃ (s : State) (e : Eci) (c : EciCmd) (p : List Nat), s.serves e c 0x0802 ctxMasks ∧ p = c.words ∧ (!bit (p.getD 0 0) 31) = true ∧ e.fn = s.manager ∧ (s.ctxRefused (p.getD 0 0) { cfg := wBytes p 1 4 }) = false :=
  ⟨withCmd (eciCmd 0x0802 ([7, 0, 0, 0, 0])) (State.reset), (eciOf 0), eciCmd 0x0802 ([7, 0, 0, 0, 0]), [7, 0, 0, 0, 0], by decide⟩

theorem witness_redundancyAndMirror_5 :
    ∃ (s : State) (e : Eci) (c : EciCmd) (p : List Nat), s.serves e c 0x0802 ctxMasks ∧ p = c.words ∧ (bit (p.getD 0 0) 31) = true ∧ e.fn = s.manager ∧ s.validMembers.any (fun m => mbCtx m.2 == bits (p.getD 0 0) 10 0) = false :=
  ⟨withCmd (eciCmd 0x0802 ([2 ^ 31 + 7, 0, 0, 0, 0])) (State.reset), (eciOf 0), eciCmd 0x0802 ([2 ^ 31 + 7, 0, 0, 0, 0]), [2 ^ 31 + 7, 0, 0, 0, 0], by decide⟩

theorem witness_redundancyAndMirror_6 :
    ∃ (s : State) (e : Eci) (c : EciCmd) (p : List Nat), s.serves e c 0x0802 ctxMasks ∧ p = c.words ∧ (bit (p.getD 0 0) 31) = true ∧ e.fn = s.manager ∧ s.validMembers.any (fun m => mbCtx m.2 == bits (p.getD 0 0) 10 0) = true :=
  ⟨withCmd (eciCmd 0x0802 ([2 ^ 31 + 7, 0, 0, 0, 0])) ({ State.reset with members := [(5, frerMember)] }), (eciOf 0), eciCmd 0x0802 ([2 ^ 31 + 7, 0, 0, 0, 0]), [2 ^ 31 + 7, 0, 0, 0, 0], by decide⟩

theorem witness_redundancyAndMirror_7 :
    ∃ (s : State) (e : Eci) (c : EciCmd) (p : List Nat), s.serves e c 0x0803 [low 11, W32, W32] ∧ p = c.words ∧ e.fn = s.manager ∧ w64 p 1 = 0 :=
  ⟨withCmd (eciCmd 0x0803 (([low 11, W32, W32] : List Nat).map (fun _ => 0))) (State.reset), (eciOf 0), eciCmd 0x0803 (([low 11, W32, W32] : List Nat).map (fun _ => 0)), ([low 11, W32, W32] : List Nat).map (fun _ => 0), by decide⟩

theorem witness_redundancyAndMirror_8 :
    ∃ (s : State) (e : Eci) (c : EciCmd) (p : List Nat) (t : State) (rc : Nat) (w : List Nat), s.serves e c 0x0803 [low 11, W32, W32] ∧ p = c.words ∧ e.fn = s.manager ∧ w64 p 1 ≠ 0 ∧ s.bufferOut e.fn (w64 p 1) 256 (leBytes 256 (s.ctx (p.getD 0 0)).hist) e.io.head? (respOf (fit 16 (s.ctx (p.getD 0 0)).cfg) ++ [(s.ctx (p.getD 0 0)).rcv] ++ s.ctxCounters (p.getD 0 0)) = .done t rc w :=
  (bufferOut_done (withCmd (eciCmd 0x0803 [0, 64, 0]) State.reset) 0 (w64 [0, 64, 0] 1) 256 (leBytes 256 ((withCmd (eciCmd 0x0803 [0, 64, 0]) State.reset).ctx 0).hist) none (respOf (fit 16 ((withCmd (eciCmd 0x0803 [0, 64, 0]) State.reset).ctx 0).cfg) ++ [((withCmd (eciCmd 0x0803 [0, 64, 0]) State.reset).ctx 0).rcv] ++ (withCmd (eciCmd 0x0803 [0, 64, 0]) State.reset).ctxCounters 0)).elim fun x h => ⟨(withCmd (eciCmd 0x0803 [0, 64, 0]) State.reset), eciOf 0, eciCmd 0x0803 [0, 64, 0], [0, 64, 0], x.1, x.2.1, x.2.2, ⟨by decide, rfl, rfl, by decide, h⟩⟩

theorem witness_redundancyAndMirror_9 :
    ∃ (s : State) (e : Eci) (c : EciCmd) (p : List Nat), s.serves e c 0x0804 [low 11] ∧ p = c.words ∧ e.fn = s.manager ∧ (decide ((s.ctx (p.getD 0 0)).kind < 2)) = false ∧ s.isFenced (unitObject 6) (p.getD 0 0) = false :=
  ⟨withCmd (eciCmd 0x0804 ([7])) ({ State.reset with frer := [(7, { cfg := [2] })] }), (eciOf 0), eciCmd 0x0804 ([7]), [7], by decide⟩

theorem witness_redundancyAndMirror_10 :
    ∃ (s : State) (e : Eci) (c : EciCmd) (p : List Nat), s.serves e c 0x0804 [low 11] ∧ p = c.words ∧ e.fn = s.manager ∧ (decide ((s.ctx (p.getD 0 0)).kind < 2)) = false ∧ s.isFenced (unitObject 6) (p.getD 0 0) = true :=
  ⟨withCmd (eciCmd 0x0804 ([7])) ({ State.reset with frer := [(7, { cfg := [2] })], fenced := [(fenceKey (unitObject 6) 7, true)] }), (eciOf 0), eciCmd 0x0804 ([7]), [7], by decide⟩

theorem witness_redundancyAndMirror_11 :
    ∃ (s : State) (t : State), s.mirRole = 1 ∧ s.mir.periodAt + 1000000 ≤ s.now ∧ t = s.resyncDue.mirrorHead.mirrorFrer.mirrorRelease :=
  ⟨mirS 1, _, by exact ⟨by decide, by decide, rfl⟩⟩

theorem witness_redundancyAndMirror_12 :
    ∃ (s : State) (msg : Bytes), s.mirRole = 1 ∧ leAt msg 0 1 = 1 ∧ leAt msg 1 1 = 1 ∧ beAt msg 2 2 = s.rd F.MIR_CTRL_PEER 0 ∧ beAt msg 4 4 = s.mir.pair ∧ 16 ≤ msg.length :=
  ⟨mirS 1, [1, 1] ++ List.replicate 14 0, by decide⟩

theorem witness_redundancyAndMirror_13 :
    ∃ (s : State) (msg : Bytes), 2 ≤ s.mirRole ∧ leAt msg 0 1 = 1 ∧ beAt msg 2 2 = s.rd F.MIR_CTRL_PEER 0 ∧ beAt msg 4 4 = s.mir.pair ∧ 16 ≤ msg.length :=
  ⟨mirS 2, [1, 1] ++ List.replicate 14 0, by decide⟩

theorem witness_redundancyAndMirror_14 :
    ∃ (s : State), 2 ≤ s.mirRole ∧ s.mir.silent = false ∧ s.mir.rxAt + 10000000 ≤ s.now :=
  ⟨mirS 2, by decide⟩

theorem witness_redundancyAndMirror_15 :
    ∃ (s : State) (t : State), t = s.resyncDue ∧ t.mir.resync.isSome = true ∧ t.mir.left = [] :=
  ⟨{ mirS 1 with mir := { (mirS 1).mir with resync := some 0 } }, _, ⟨rfl, by decide, by decide⟩⟩

theorem witness_redundancyAndMirror_16 :
    ∃ (s : State) (t : State), t = s.resyncDue ∧ t.mir.left ≠ [] :=
  ⟨{ mirS 1 with mir := { (mirS 1).mir with resync := some 20000000, left := [[]] } }, _, ⟨rfl, by decide⟩⟩

theorem witness_redundancyAndMirror_17 :
    ∃ (s : State) (e : Eci) (c : EciCmd) (p : List Nat) (t : State), s.serves e c 0x0805 [3 + 2 ^ 4 * low 16, W32, low 12, W32, low 16] ∧ p = c.words ∧ e.fn = s.manager ∧ (p.getD 0 0 % 4 == 3) = false ∧ t = s.put .MIR_CTRL 0 (2 ^ 30 * (p.getD 0 0 % 4) + 2 ^ 24 * bits (p.getD 0 0) 7 4 + 2 ^ 12 * bits (p.getD 0 0) 19 8 + p.getD 2 0) :=
  ⟨withCmd (eciCmd 0x0805 ([1, 0, 0, 0, 0])) (State.reset), (eciOf 0), eciCmd 0x0805 ([1, 0, 0, 0, 0]), [1, 0, 0, 0, 0], (withCmd (eciCmd 0x0805 [1, 0, 0, 0, 0]) State.reset).put .MIR_CTRL 0 (2 ^ 30 * (([1, 0, 0, 0, 0] : List Nat).getD 0 0 % 4) + 2 ^ 24 * bits (([1, 0, 0, 0, 0] : List Nat).getD 0 0) 7 4 + 2 ^ 12 * bits (([1, 0, 0, 0, 0] : List Nat).getD 0 0) 19 8 + ([1, 0, 0, 0, 0] : List Nat).getD 2 0), by decide⟩

theorem witness_redundancyAndMirror_18 :
    ∃ (s : State) (e : Eci) (c : EciCmd) (p : List Nat) (b : Bytes), s.serves e c 0x0806 [] ∧ p = c.words ∧ e.fn = s.manager ∧ b = fit 64 (s.mir.heads.getLastD []) :=
  ⟨withCmd (eciCmd 0x0806 (([] : List Nat).map (fun _ => 0))) (State.reset), (eciOf 0), eciCmd 0x0806 (([] : List Nat).map (fun _ => 0)), ([] : List Nat).map (fun _ => 0), List.replicate 64 0, by decide⟩

theorem witness_redundancyAndMirror_19 :
    ∃ (s : State) (e : Eci) (c : EciCmd) (p : List Nat) (t : State) (rc : Nat) (w : List Nat), s.serves e c 0x0807 (1 :: List.replicate 8 W32) ∧ p = c.words ∧ e.fn = s.manager ∧ s.mirRole = 2 ∧ s.mir.heads.isEmpty = false ∧ p.getD 0 0 = 0 ∧ s.takeover false = .done t rc w :=
  (takeover_done (withCmd (eciCmd 0x0807 (List.replicate 9 0)) mirH) false).elim fun x h => ⟨withCmd (eciCmd 0x0807 (List.replicate 9 0)) mirH, eciOf 0, eciCmd 0x0807 (List.replicate 9 0), List.replicate 9 0, x.1, x.2.1, x.2.2, ⟨by decide, rfl, by decide, by decide, by decide, by decide, h⟩⟩

theorem witness_redundancyAndMirror_20 :
    ∃ (s : State) (e : Eci) (c : EciCmd) (p : List Nat) (t : State) (rc : Nat) (w : List Nat), s.serves e c 0x0807 (1 :: List.replicate 8 W32) ∧ p = c.words ∧ e.fn = s.manager ∧ s.mirRole = 2 ∧ s.mir.heads.isEmpty = false ∧ p.getD 0 0 ≠ 0 ∧ s.mir.heads.all (fun x => decide (headSeq x < w64 p 3)) = false ∧ s.mir.heads.any (fun x => headSeq x == w64 p 3 && (headChain x != w64 p 1 || (headHash x).drop 32 != wBytes p 5 4)) = false ∧ s.takeover false = .done t rc w :=
  (takeover_done (withCmd (eciCmd 0x0807 (1 :: List.replicate 8 0)) mirH) false).elim fun x h => ⟨withCmd (eciCmd 0x0807 (1 :: List.replicate 8 0)) mirH, eciOf 0, eciCmd 0x0807 (1 :: List.replicate 8 0), 1 :: List.replicate 8 0, x.1, x.2.1, x.2.2, ⟨by decide, rfl, by decide, by decide, by decide, by decide, by decide, by decide, h⟩⟩

theorem witness_redundancyAndMirror_21 :
    ∃ (s : State) (e : Eci) (c : EciCmd) (p : List Nat), s.serves e c 0x0807 (1 :: List.replicate 8 W32) ∧ p = c.words ∧ e.fn = s.manager ∧ s.mirRole = 2 ∧ s.mir.heads.isEmpty = false ∧ p.getD 0 0 ≠ 0 ∧ s.mir.heads.all (fun x => decide (headSeq x < w64 p 3)) = false ∧ s.mir.heads.any (fun x => headSeq x == w64 p 3 && (headChain x != w64 p 1 || (headHash x).drop 32 != wBytes p 5 4)) = true :=
  ⟨withCmd (eciCmd 0x0807 (1 :: 5 :: List.replicate 7 0)) (mirH), (eciOf 0), eciCmd 0x0807 (1 :: 5 :: List.replicate 7 0), 1 :: 5 :: List.replicate 7 0, by decide⟩

theorem witness_redundancyAndMirror_22 :
    ∃ (s : State) (e : Eci) (c : EciCmd) (p : List Nat) (t : State) (rc : Nat) (w : List Nat), s.serves e c 0x0808 [1] ∧ p = c.words ∧ e.fn = s.manager ∧ s.mirRole = 3 ∧ s.takeover (p.getD 0 0 == 1) = .done t rc w :=
  (takeover_done (withCmd (eciCmd 0x0808 [1]) (mirS 3)) true).elim fun x h => ⟨withCmd (eciCmd 0x0808 [1]) (mirS 3), eciOf 0, eciCmd 0x0808 [1], [1], x.1, x.2.1, x.2.2, ⟨by decide, rfl, by decide, by decide, h⟩⟩

theorem witness_redundancyAndMirror_23 :
    ∃ (s : State) (e : Eci) (c : EciCmd) (p : List Nat), s.serves e c 0x0809 [] ∧ p = c.words ∧ e.fn = s.manager ∧ s.mirRole = 1 ∧ s.mir.resync = none :=
  ⟨withCmd (eciCmd 0x0809 ([])) (mirS 1), (eciOf 0), eciCmd 0x0809 ([]), [], by decide⟩

theorem witness_redundancyAndMirror_24 :
    ∃ (s : State) (e : Eci) (c : EciCmd) (p : List Nat), s.serves e c 0x0809 [] ∧ p = c.words ∧ e.fn = s.manager ∧ s.mirRole ≠ 1 :=
  ⟨withCmd (eciCmd 0x0809 (([] : List Nat).map (fun _ => 0))) (State.reset), (eciOf 0), eciCmd 0x0809 (([] : List Nat).map (fun _ => 0)), ([] : List Nat).map (fun _ => 0), by decide⟩

theorem witness_epochCommands_1 :
    ∃ (s : State) (e : Eci) (c : EciCmd) (p : List Nat) (s1 : State) (s2 : State) (s3 : State) (s4 : State) (s5 : State) (grd : Bytes) (head : Bytes) (plan : Bytes) (cb : Bytes) (pb : Bytes) (r1 : Nat) (r2 : Nat) (r3 : Nat) (r4 : Nat) (r5 : Nat) (kind : Nat) (n : Nat) (cust : Bool) (patch : Bool), s.serves e c 0x0900 (low 5 :: List.replicate 11 W32) ∧ p = c.words ∧ e.fn = s.manager ∧ kind = p.getD 0 0 ∧ n = leAt head 0 8 ∧ cust = (bit kind 0 && w64 p 1 != 0) ∧ patch = (bit kind 0 && w64 p 4 != 0) ∧ (bit kind 1 && !(List.range 4).any (fun m => p.getD 9 0 == 16 + 9232 * (m + 1))) = false ∧ (if bit kind 1 then s.dmaIn e.fn (w64 p 7) (p.getD 9 0) (e.io.getD 0 (.data [])) else (s, some [], 0)) = (s1, some grd, r1) ∧ (bit kind 1 && grdBad grd) = false ∧ (if bit kind 4 then s1.dmaIn e.fn (w64 p 10) 8 (e.io.getD 1 (.data [])) else (s1, some [], 0)) = (s2, some head, r2) ∧ ((bit kind 4 && decide (n = 0 ∨ 32 < n)) = false) ∧ (if bit kind 4 then s2.dmaIn e.fn (w64 p 10 + 8) (8 * n) (e.io.getD 2 (.data [])) else (s2, some [], 0)) = (s3, some plan, r3) ∧ s3.planBad plan = false ∧ s3.longBusy e.fn = false ∧ s3.on F.GLB_EPOCH_STATUS_STAGING 0 = false ∧ s3.on F.GLB_EPOCH_STATUS_STAGED 0 = false ∧ s3.on F.GLB_EPOCH_STATUS_ARMED 0 = false ∧ (s3.on F.GLB_EPOCH_STATUS_DRAINING 0 && (cust || patch)) = false ∧ (if cust && imgReadable (p.getD 3 0) then s3.dmaIn e.fn (w64 p 1) (p.getD 3 0) (e.io.getD 3 (.data [])) else (s3, some [], 0)) = (s4, some cb, r4) ∧ (if patch && imgReadable (p.getD 6 0) then s4.dmaIn e.fn (w64 p 4) (p.getD 6 0) (e.io.getD 4 (.data [])) else (s4, some [], 0)) = (s5, some pb, r5) :=
  ⟨withCmd (eciCmd 0x0900 ((List.replicate 12 0))) (State.reset), (eciOf 0), eciCmd 0x0900 ((List.replicate 12 0)), (List.replicate 12 0), stg0, stg0, stg0, stg0, stg0, [], [], [], [], [], 0, 0, 0, 0, 0, 0, 0, false, false, ⟨by decide, rfl, rfl, rfl, by decide, by decide, by decide, by decide, rfl, by decide, rfl, by decide, rfl, by decide, by decide, by decide, by decide, by decide, by decide, rfl, rfl⟩⟩

theorem witness_epochCommands_2 :
    ∃ (s : State) (e : Eci) (c : EciCmd) (p : List Nat), s.serves e c 0x0901 [W32, W32] ∧ p = c.words ∧ e.fn = s.manager ∧ ((let lead := (w64 p 0 + W64 - s.stamp) % W64; decide (lead < 800000 ∨ 80000000000 < lead)) = false) ∧ s.on F.GLB_EPOCH_STATUS_STAGED 0 = true ∧ s.on F.GLB_EPOCH_STATUS_DRAINING 0 = false :=
  ⟨withCmd (eciCmd 0x0901 ([800000, 0])) (State.reset.wr F.GLB_EPOCH_STATUS_STAGED 0 1), (eciOf 0), eciCmd 0x0901 ([800000, 0]), [800000, 0], by decide⟩

theorem witness_epochCommands_3 :
    ∃ (s : State) (e : Eci) (c : EciCmd) (p : List Nat), s.serves e c 0x0901 [W32, W32] ∧ p = c.words ∧ e.fn = s.manager ∧ ((let lead := (w64 p 0 + W64 - s.stamp) % W64; decide (lead < 800000 ∨ 80000000000 < lead)) = false) ∧ s.on F.GLB_EPOCH_STATUS_STAGED 0 = false :=
  ⟨withCmd (eciCmd 0x0901 ([800000, 0])) (State.reset), (eciOf 0), eciCmd 0x0901 ([800000, 0]), [800000, 0], by decide⟩

theorem witness_epochCommands_4 :
    ∃ (s : State) (e : Eci) (c : EciCmd) (p : List Nat), s.serves e c 0x0901 [W32, W32] ∧ p = c.words ∧ e.fn = s.manager ∧ ((let lead := (w64 p 0 + W64 - s.stamp) % W64; decide (lead < 800000 ∨ 80000000000 < lead)) = false) ∧ s.on F.GLB_EPOCH_STATUS_STAGED 0 = true ∧ s.on F.GLB_EPOCH_STATUS_DRAINING 0 = true :=
  ⟨withCmd (eciCmd 0x0901 ([800000, 0])) ((State.reset.wr F.GLB_EPOCH_STATUS_STAGED 0 1).wr F.GLB_EPOCH_STATUS_DRAINING 0 1), (eciOf 0), eciCmd 0x0901 ([800000, 0]), [800000, 0], by decide⟩

theorem witness_epochCommands_5 :
    ∃ (s : State) (e : Eci) (c : EciCmd) (p : List Nat), s.serves e c 0x0902 [] ∧ p = c.words ∧ e.fn = s.manager ∧ s.on F.GLB_EPOCH_STATUS_STAGED 0 = true :=
  ⟨withCmd (eciCmd 0x0902 ([])) (State.reset.wr F.GLB_EPOCH_STATUS_STAGED 0 1), (eciOf 0), eciCmd 0x0902 ([]), [], by decide⟩

theorem witness_epochCommands_6 :
    ∃ (s : State) (e : Eci) (c : EciCmd) (p : List Nat), s.serves e c 0x0902 [] ∧ p = c.words ∧ e.fn = s.manager ∧ s.on F.GLB_EPOCH_STATUS_STAGED 0 = false ∧ s.on F.GLB_EPOCH_STATUS_STAGING 0 = false ∧ ((s.on F.GLB_EPOCH_STATUS_ARMED 0 = true ∨ s.on F.GLB_EPOCH_STATUS_DRAINING 0 = true)) :=
  ⟨withCmd (eciCmd 0x0902 ([])) (State.reset.wr F.GLB_EPOCH_STATUS_ARMED 0 1), (eciOf 0), eciCmd 0x0902 ([]), [], by decide⟩

theorem witness_epochCommands_7 :
    ∃ (s : State) (e : Eci) (c : EciCmd) (p : List Nat) (sh : Shadow) (fs : List Nat), s.serves e c 0x0902 [] ∧ p = c.words ∧ e.fn = s.manager ∧ s.on F.GLB_EPOCH_STATUS_STAGED 0 = false ∧ s.on F.GLB_EPOCH_STATUS_STAGING 0 = true ∧ sh = s.shadow.getD {} ∧ fs = s.stagers :=
  ⟨withCmd (eciCmd 0x0902 ([])) (State.reset.wr F.GLB_EPOCH_STATUS_STAGING 0 1), (eciOf 0), eciCmd 0x0902 ([]), [], {}, [], by decide⟩

theorem witness_epochCommands_8 :
    ∃ (s : State) (e : Eci) (c : EciCmd) (p : List Nat), s.serves e c 0x0902 [] ∧ p = c.words ∧ e.fn = s.manager ∧ s.on F.GLB_EPOCH_STATUS_STAGED 0 = false ∧ s.on F.GLB_EPOCH_STATUS_STAGING 0 = false ∧ s.on F.GLB_EPOCH_STATUS_ARMED 0 = false ∧ s.on F.GLB_EPOCH_STATUS_DRAINING 0 = false :=
  ⟨withCmd (eciCmd 0x0902 (([] : List Nat).map (fun _ => 0))) (State.reset), (eciOf 0), eciCmd 0x0902 (([] : List Nat).map (fun _ => 0)), ([] : List Nat).map (fun _ => 0), by decide⟩

theorem witness_epochCommands_9 :
    ∃ (s : State) (e : Eci) (c : EciCmd) (p : List Nat), s.serves e c 0x0903 [] ∧ p = c.words ∧ e.fn = s.manager :=
  ⟨withCmd (eciCmd 0x0903 (([] : List Nat).map (fun _ => 0))) (State.reset), (eciOf 0), eciCmd 0x0903 (([] : List Nat).map (fun _ => 0)), ([] : List Nat).map (fun _ => 0), by decide⟩

theorem witness_epochCommands_10 :
    ∃ (s : State) (sh : Shadow), s.shadow = some sh ∧ s.on F.GLB_EPOCH_STATUS_ARMED 0 = true ∧ stampLe (s.val .GLB_EPOCH_COMMIT_TIME 0) s.stamp = true :=
  ⟨{ State.reset.wr F.GLB_EPOCH_STATUS_ARMED 0 1 with shadow := some {} }, {}, by decide⟩

theorem witness_epochCommands_11 :
    ∃ (s : State), ((s.on F.GLB_EPOCH_STATUS_ARMED 0 = false ∨ stampLe (s.val .GLB_EPOCH_COMMIT_TIME 0) s.stamp = false)) :=
  ⟨State.reset, by decide⟩

theorem witness_epochCommands_12 :
    ∃ (s : State) (t : State) (u : State) (v : State) (w : State) (old : Nat) (use : Nat), s.on F.GLB_EPOCH_STATUS_DRAINING 0 = true ∧ s.oldHeld = false ∧ old = s.bankFor (1 - s.current) ∧ use = s.bankFor s.current ∧ t = s.wr F.GLB_EPOCH_STATUS_DRAINING 0 0 ∧ u = t.when (old != use) (fun x => (x.when ((x.banks.get old).region != (x.banks.get use).region) (fun y => y.freeRegions (y.banks.get old).region)).bankState old 3) ∧ v = { u with groupsOld := none } ∧ w = ((v.each (List.range 64) (fun g x => x.relSync g)).admitSync).raise Ev.EPOCH_DRAINED :=
  ⟨State.reset.wr F.GLB_EPOCH_STATUS_DRAINING 0 1, _, _, _, _, _, _, by exact ⟨by decide, by decide, rfl, rfl, rfl, rfl, rfl, rfl⟩⟩

theorem witness_epochCommands_13 :
    ∃ (s : State), ((s.on F.GLB_EPOCH_STATUS_DRAINING 0 = false ∨ s.oldHeld = true)) :=
  ⟨State.reset, by decide⟩

theorem witness_queueCommands_1 :
    ∃ (s : State) (e : Eci) (c : EciCmd) (p : List Nat), s.serves e c 0x0000 [] ∧ p = c.words :=
  ⟨withCmd (eciCmd 0x0000 (([] : List Nat).map (fun _ => 0))) (State.reset), (eciOf 0), eciCmd 0x0000 (([] : List Nat).map (fun _ => 0)), ([] : List Nat).map (fun _ => 0), by decide⟩

theorem witness_queueCommands_2 :
    ∃ (s : State) (e : Eci) (c : EciCmd) (p : List Nat), s.serves e c 0x0001 [] ∧ p = c.words :=
  ⟨withCmd (eciCmd 0x0001 (([] : List Nat).map (fun _ => 0))) (State.reset), (eciOf 0), eciCmd 0x0001 (([] : List Nat).map (fun _ => 0)), ([] : List Nat).map (fun _ => 0), by decide⟩

theorem witness_queueCommands_3 :
    ∃ (s : State) (e : Eci) (c : EciCmd) (p : List Nat), s.serves e c 0x0002 [] ∧ p = c.words :=
  ⟨withCmd (eciCmd 0x0002 (([] : List Nat).map (fun _ => 0))) (State.reset), (eciOf 0), eciCmd 0x0002 (([] : List Nat).map (fun _ => 0)), ([] : List Nat).map (fun _ => 0), by decide⟩

theorem witness_queueCommands_4 :
    ∃ (s : State) (e : Eci) (c : EciCmd) (p : List Nat) (l : LongCmd), s.serves e c 0x0003 [low 16] ∧ p = c.words ∧ s.longs.getD e.fn none = some l ∧ l.path = .mailbox ∧ l.ticket = p.getD 0 0 ∧ l.final = none :=
  ⟨withCmd (eciCmd 0x0003 ([7])) ({ State.reset with longs := [(0, some { path := .mailbox, ticket := 7 })] }), (eciOf 0), eciCmd 0x0003 ([7]), [7], { path := .mailbox, ticket := 7 }, by decide⟩

theorem witness_queueCommands_5 :
    ∃ (s : State) (e : Eci) (c : EciCmd) (p : List Nat) (l : LongCmd) (rc : Nat) (w : List Nat), s.serves e c 0x0003 [low 16] ∧ p = c.words ∧ s.longs.getD e.fn none = some l ∧ l.path = .mailbox ∧ l.ticket = p.getD 0 0 ∧ l.final = some (rc, w) :=
  ⟨withCmd (eciCmd 0x0003 ([7])) ({ State.reset with longs := [(0, some { path := .mailbox, ticket := 7, final := some (0, []) })] }), (eciOf 0), eciCmd 0x0003 ([7]), [7], { path := .mailbox, ticket := 7, final := some (0, []) }, 0, [], by decide⟩

theorem witness_queueCommands_6 :
    ∃ (s : State) (e : Eci) (c : EciCmd) (p : List Nat), s.serves e c 0x0100 [W32, W32, W32, W32, 0x07FF000F] ∧ p = c.words ∧ (s.adminBad e.fn) p = false ∧ (s.ring (adminSqKey e.fn)).state = 0 :=
  ⟨withCmd (eciCmd 0x0100 ([0, 0, 4096, 0, 0])) (ringGrant), (eciOf 0), eciCmd 0x0100 ([0, 0, 4096, 0, 0]), [0, 0, 4096, 0, 0], by decide⟩

theorem witness_queueCommands_7 :
    ∃ (s : State) (e : Eci) (c : EciCmd) (p : List Nat), s.serves e c 0x0100 [W32, W32, W32, W32, 0x07FF000F] ∧ p = c.words ∧ (s.adminBad e.fn) p = false ∧ (s.ring (adminSqKey e.fn)).state ≠ 0 :=
  ⟨withCmd (eciCmd 0x0100 ([0, 0, 4096, 0, 0])) ({ ringGrant with rings := [(adminSqKey 0, { fn := 0, ctx := adminCtx 0 5 6 0 0, state := 1 })] }), (eciOf 0), eciCmd 0x0100 ([0, 0, 4096, 0, 0]), [0, 0, 4096, 0, 0], by decide⟩

theorem witness_queueCommands_8 :
    ∃ (s : State) (e : Eci) (c : EciCmd) (p : List Nat), s.serves e c 0x0101 [] ∧ p = c.words ∧ s.adminCmd.getD e.fn none = none ∧ (s.ring (adminSqKey e.fn)).state ≠ 0 :=
  ⟨withCmd (eciCmd 0x0101 ([])) ({ ringGrant with rings := [(adminSqKey 0, { fn := 0, ctx := adminCtx 0 5 6 0 0, state := 1 })] }), (eciOf 0), eciCmd 0x0101 ([]), [], by decide⟩

theorem witness_queueCommands_9 :
    ∃ (s : State) (e : Eci) (c : EciCmd) (p : List Nat), s.serves e c 0x0101 [] ∧ p = c.words ∧ s.adminCmd.getD e.fn none = none ∧ (s.ring (adminSqKey e.fn)).state = 0 :=
  ⟨withCmd (eciCmd 0x0101 (([] : List Nat).map (fun _ => 0))) (State.reset), (eciOf 0), eciCmd 0x0101 (([] : List Nat).map (fun _ => 0)), ([] : List Nat).map (fun _ => 0), by decide⟩

theorem witness_queueCommands_10 :
    ∃ (s : State) (e : Eci) (c : EciCmd) (p : List Nat) (r : Ring) (t : State) (n : Nat), s.serves e c 0x0102 (List.replicate 16 W32) ∧ p = c.words ∧ (s.ringDenied (s.newRing e.fn p)) = false ∧ (s.ringBad (s.newRing e.fn p)) = false ∧ r = s.newRing e.fn p ∧ t = s.used ∧ ((r.mgmt = false ∨ t.rings.any (fun x => x.2.state != 0 && x.2.mgmt && x.2.kind == r.kind) = false)) ∧ t.ringsHeld r.kind (some e.fn) < (t.fn e.fn).grants.rings r.kind ∧ firstFree 131072 t.fresh (fun k => (t.ring (ringKey r.kind k)).state != 0) = some n :=
  ⟨withCmd (eciCmd 0x0102 (cqWords)) (ringGrant), (eciOf 0), eciCmd 0x0102 (cqWords), cqWords, (withCmd (eciCmd 0x0102 cqWords) ringGrant).newRing 0 cqWords, (withCmd (eciCmd 0x0102 cqWords) ringGrant).used, (withCmd (eciCmd 0x0102 cqWords) ringGrant).used.fresh % 131072, ⟨by decide, rfl, by decide, by decide, rfl, rfl, .inl (by decide), by decide, firstFree_all (by decide) (fun _ => rfl)⟩⟩

theorem witness_queueCommands_11 :
    ∃ (s : State) (e : Eci) (c : EciCmd) (p : List Nat) (r : Ring) (t : State), s.serves e c 0x0102 (List.replicate 16 W32) ∧ p = c.words ∧ (s.ringDenied (s.newRing e.fn p)) = false ∧ (s.ringBad (s.newRing e.fn p)) = false ∧ r = s.newRing e.fn p ∧ t = s.used ∧ (t.fn e.fn).grants.rings r.kind ≤ t.ringsHeld r.kind (some e.fn) :=
  ⟨withCmd (eciCmd 0x0102 (cqWords)) (ringNone), (eciOf 0), eciCmd 0x0102 (cqWords), cqWords, (withCmd (eciCmd 0x0102 cqWords) ringNone).newRing 0 cqWords, (withCmd (eciCmd 0x0102 cqWords) ringNone).used, ⟨by decide, rfl, by decide, by decide, rfl, rfl, by decide⟩⟩

theorem witness_queueCommands_12 :
    ∃ (s : State) (e : Eci) (c : EciCmd) (p : List Nat) (k : Nat), s.serves e c 0x0103 [low 21] ∧ p = c.words ∧ (s.notMine e.fn) p = false ∧ s.noSuchRing p = false ∧ k = namedRing p ∧ (s.ring k).stopped = true ∧ s.boundTo k = false ∧ s.jobs.any (fun j => j.2.ring == k && (s.ring k).kind != 2 && (s.ring k).kind != 3) = false :=
  ⟨withCmd (eciCmd 0x0103 ([3 * 2 ^ 17])) ({ State.reset with rings := [(262144, { cqRing with state := 3 })] }), (eciOf 0), eciCmd 0x0103 ([3 * 2 ^ 17]), [3 * 2 ^ 17], 262144, by decide⟩

theorem witness_queueCommands_13 :
    ∃ (s : State) (e : Eci) (c : EciCmd) (p : List Nat) (k : Nat), s.serves e c 0x0103 [low 21] ∧ p = c.words ∧ (s.notMine e.fn) p = false ∧ s.noSuchRing p = false ∧ k = namedRing p ∧ (((s.ring k).stopped = false ∨ s.boundTo k = true)) :=
  ⟨withCmd (eciCmd 0x0103 ([3 * 2 ^ 17])) ({ State.reset with rings := [(262144, cqRing)] }), (eciOf 0), eciCmd 0x0103 ([3 * 2 ^ 17]), [3 * 2 ^ 17], 262144, by decide⟩

theorem witness_queueCommands_14 :
    ∃ (s : State) (e : Eci) (c : EciCmd) (p : List Nat) (k : Nat), s.serves e c 0x0103 [low 21] ∧ p = c.words ∧ (s.notMine e.fn) p = false ∧ s.noSuchRing p = false ∧ k = namedRing p ∧ (s.ring k).stopped = true ∧ s.boundTo k = false ∧ s.jobs.any (fun j => j.2.ring == k && (s.ring k).kind != 2 && (s.ring k).kind != 3) = true :=
  ⟨withCmd (eciCmd 0x0103 ([2 ^ 17 + 1])) ({ State.reset with rings := [(1, { txRing with state := 3 })], jobs := [(6, jobOf 1)] }), (eciOf 0), eciCmd 0x0103 ([2 ^ 17 + 1]), [2 ^ 17 + 1], 1, by decide⟩

theorem witness_queueCommands_15 :
    ∃ (s : State) (e : Eci) (c : EciCmd) (p : List Nat), s.serves e c 0x0104 [low 21] ∧ p = c.words ∧ (s.notMine e.fn) p = false ∧ s.noSuchRing p = false ∧ (s.fn (s.ring (namedRing p)).fn).bme = true :=
  ⟨withCmd (eciCmd 0x0104 ([3 * 2 ^ 17])) ({ dmaState with rings := [(262144, { cqRing with state := 3 })] }), (eciOf 0), eciCmd 0x0104 ([3 * 2 ^ 17]), [3 * 2 ^ 17], by decide⟩

theorem witness_queueCommands_16 :
    ∃ (s : State) (e : Eci) (c : EciCmd) (p : List Nat), s.serves e c 0x0104 [low 21] ∧ p = c.words ∧ (s.notMine e.fn) p = false ∧ s.noSuchRing p = false ∧ (s.fn (s.ring (namedRing p)).fn).bme = false :=
  ⟨withCmd (eciCmd 0x0104 ([3 * 2 ^ 17])) ({ State.reset with rings := [(262144, { cqRing with state := 3 })] }), (eciOf 0), eciCmd 0x0104 ([3 * 2 ^ 17]), [3 * 2 ^ 17], by decide⟩

theorem witness_queueCommands_17 :
    ∃ (s : State) (e : Eci) (c : EciCmd) (p : List Nat), s.serves e c 0x0105 [low 21] ∧ p = c.words ∧ (s.notMine e.fn) p = false ∧ s.noSuchRing p = false ∧ (s.ring (namedRing p)).stopped = false :=
  ⟨withCmd (eciCmd 0x0105 ([3 * 2 ^ 17])) ({ State.reset with rings := [(262144, cqRing)] }), (eciOf 0), eciCmd 0x0105 ([3 * 2 ^ 17]), [3 * 2 ^ 17], by decide⟩

theorem witness_queueCommands_18 :
    ∃ (s : State) (e : Eci) (c : EciCmd) (p : List Nat), s.serves e c 0x0106 [low 21, W32, W32] ∧ p = c.words ∧ (s.notMine e.fn) p = false ∧ ((s.noSuchRing p || decide (p.getD 2 0 = 0 ∨ (s.ring (namedRing p)).size < p.getD 2 0)) = false) :=
  ⟨withCmd (eciCmd 0x0106 ([3 * 2 ^ 17, 0, 1])) ({ State.reset with rings := [(262144, cqRing)] }), (eciOf 0), eciCmd 0x0106 ([3 * 2 ^ 17, 0, 1]), [3 * 2 ^ 17, 0, 1], by decide⟩

theorem witness_queueCommands_19 :
    ∃ (s : State) (e : Eci) (c : EciCmd) (p : List Nat), s.serves e c 0x0107 [low 21] ∧ p = c.words ∧ (s.notMine e.fn) p = false ∧ s.noSuchRing p = false :=
  ⟨withCmd (eciCmd 0x0107 ([3 * 2 ^ 17])) ({ State.reset with rings := [(262144, cqRing)] }), (eciOf 0), eciCmd 0x0107 ([3 * 2 ^ 17]), [3 * 2 ^ 17], by decide⟩

theorem witness_functionsAndResets_1 :
    ∃ (s : State) (e : Eci) (c : EciCmd) (p : List Nat), s.serves e c 0x0200 [W32, W32] ∧ p = c.words ∧ e.fn = s.manager ∧ (List.range 4).any (fun k => (s.fn k).vfEnable && s.share k != (sharesOf p).getD k 0) = false ∧ (sharesOf p).foldl (· + ·) 0 ≤ 2048 :=
  ⟨withCmd (eciCmd 0x0200 ([16, 16])) (State.reset), (eciOf 0), eciCmd 0x0200 ([16, 16]), [16, 16], by decide⟩

theorem witness_functionsAndResets_2 :
    ∃ (s : State) (e : Eci) (c : EciCmd) (p : List Nat) (g : Grants), s.serves e c 0x0201 [low 12, low 13, low 17, low 17, low 17, low 12, W32, W32, low 20, low 27] ∧ p = c.words ∧ e.fn = s.manager ∧ (noFunc p || grantBad (p.getD 0 0) (s.grantOf (p.getD 0 0) p)) = false ∧ g = s.grantOf (p.getD 0 0) p ∧ s.grantBelow (p.getD 0 0) g = false ∧ [1, 2, 3].any (fun k => decide (131072 < g.rings k + s.reserved k (p.getD 0 0))) = false :=
  ⟨withCmd (eciCmd 0x0201 (List.replicate 10 0)) (State.reset), (eciOf 0), eciCmd 0x0201 (List.replicate 10 0), List.replicate 10 0, (withCmd (eciCmd 0x0201 (List.replicate 10 0)) State.reset).grantOf 0 (List.replicate 10 0), by decide⟩

theorem witness_functionsAndResets_3 :
    ∃ (s : State) (e : Eci) (c : EciCmd) (p : List Nat), s.serves e c 0x0201 [low 12, low 13, low 17, low 17, low 17, low 12, W32, W32, low 20, low 27] ∧ p = c.words ∧ e.fn = s.manager ∧ (noFunc p || grantBad (p.getD 0 0) (s.grantOf (p.getD 0 0) p)) = false ∧ s.grantBelow (p.getD 0 0) (s.grantOf (p.getD 0 0) p) = true :=
  ⟨withCmd (eciCmd 0x0201 (List.replicate 10 0)) ({ State.reset with rings := [(262144, cqRing)] }), (eciOf 0), eciCmd 0x0201 (List.replicate 10 0), List.replicate 10 0, by decide⟩

theorem witness_functionsAndResets_4 :
    ∃ (s : State) (e : Eci) (c : EciCmd) (p : List Nat), s.serves e c 0x0202 [low 12] ∧ p = c.words ∧ (s.ownOnly e.fn (fun p => bits (p.getD 0 0) 11 0)) p = false ∧ noFunc p = false :=
  ⟨withCmd (eciCmd 0x0202 (([low 12] : List Nat).map (fun _ => 0))) (State.reset), (eciOf 0), eciCmd 0x0202 (([low 12] : List Nat).map (fun _ => 0)), ([low 12] : List Nat).map (fun _ => 0), by decide⟩

theorem witness_functionsAndResets_5 :
    ∃ (s : State) (e : Eci) (c : EciCmd) (p : List Nat), s.serves e c 0x0203 [low 12] ∧ p = c.words ∧ (!bit (p.getD 0 0) 31) = true ∧ e.fn = s.manager ∧ noFunc p = false ∧ s.longBusy e.fn = false ∧ s.rd F.HIF_FN_STATE_STATE (p.getD 0 0) = 1 :=
  ⟨withCmd (eciCmd 0x0203 ([0])) (State.reset.wr F.HIF_FN_STATE_STATE 0 1), (eciOf 0), eciCmd 0x0203 ([0]), [0], by decide⟩

theorem witness_functionsAndResets_6 :
    ∃ (s : State) (e : Eci) (c : EciCmd) (p : List Nat), s.serves e c 0x0203 [low 12] ∧ p = c.words ∧ (!bit (p.getD 0 0) 31) = true ∧ e.fn = s.manager ∧ noFunc p = false ∧ s.longBusy e.fn = false ∧ s.rd F.HIF_FN_STATE_STATE (p.getD 0 0) = 3 :=
  ⟨withCmd (eciCmd 0x0203 ([0])) (State.reset.wr F.HIF_FN_STATE_STATE 0 3), (eciOf 0), eciCmd 0x0203 ([0]), [0], by decide⟩

theorem witness_functionsAndResets_7 :
    ∃ (s : State) (e : Eci) (c : EciCmd) (p : List Nat), s.serves e c 0x0203 [low 12] ∧ p = c.words ∧ (!bit (p.getD 0 0) 31) = true ∧ e.fn = s.manager ∧ noFunc p = false ∧ ((s.longBusy e.fn = true ∨ s.rd F.HIF_FN_STATE_STATE (p.getD 0 0) = 2)) :=
  ⟨withCmd (eciCmd 0x0203 ([0])) (State.reset.wr F.HIF_FN_STATE_STATE 0 2), (eciOf 0), eciCmd 0x0203 ([0]), [0], by decide⟩

theorem witness_functionsAndResets_8 :
    ∃ (s : State) (e : Eci) (c : EciCmd) (p : List Nat), s.serves e c 0x0203 [low 12 + 2 ^ 31] ∧ p = c.words ∧ (bit (p.getD 0 0) 31) = true ∧ e.fn = s.manager ∧ noFunc p = false ∧ s.longBusy e.fn = false ∧ s.rd F.HIF_FN_STATE_STATE (bits (p.getD 0 0) 11 0) = 3 :=
  ⟨withCmd (eciCmd 0x0203 ([2 ^ 31])) (State.reset.wr F.HIF_FN_STATE_STATE 0 3), (eciOf 0), eciCmd 0x0203 ([2 ^ 31]), [2 ^ 31], by decide⟩

theorem witness_functionsAndResets_9 :
    ∃ (s : State) (e : Eci) (c : EciCmd) (p : List Nat), s.serves e c 0x0204 [low 12, W32, W32, W32] ∧ p = c.words ∧ e.fn = s.manager ∧ noFunc p = false ∧ s.longBusy e.fn = false ∧ s.rd F.HIF_FN_STATE_STATE (p.getD 0 0) = 3 :=
  ⟨withCmd (eciCmd 0x0204 ([0, 0, 0, 0])) (State.reset.wr F.HIF_FN_STATE_STATE 0 3), (eciOf 0), eciCmd 0x0204 ([0, 0, 0, 0]), [0, 0, 0, 0], by decide⟩

theorem witness_functionsAndResets_10 :
    ∃ (s : State) (e : Eci) (c : EciCmd) (p : List Nat), s.serves e c 0x0204 [low 12, W32, W32, W32] ∧ p = c.words ∧ e.fn = s.manager ∧ noFunc p = false ∧ s.longBusy e.fn = false ∧ s.rd F.HIF_FN_STATE_STATE (p.getD 0 0) ≠ 3 :=
  ⟨withCmd (eciCmd 0x0204 (([low 12, W32, W32, W32] : List Nat).map (fun _ => 0))) (State.reset), (eciOf 0), eciCmd 0x0204 (([low 12, W32, W32, W32] : List Nat).map (fun _ => 0)), ([low 12, W32, W32, W32] : List Nat).map (fun _ => 0), by decide⟩

theorem witness_functionsAndResets_11 :
    ∃ (s : State) (e : Eci) (c : EciCmd) (p : List Nat), s.serves e c 0x0205 [low 12, W32, W32, W32] ∧ p = c.words ∧ e.fn = s.manager ∧ noFunc p = false ∧ s.longBusy e.fn = false ∧ s.mayRestore (p.getD 0 0) = true :=
  ⟨withCmd (eciCmd 0x0205 ([0, 0, 0, 0])) (State.reset.wr F.HIF_FN_STATE_STATE 0 3), (eciOf 0), eciCmd 0x0205 ([0, 0, 0, 0]), [0, 0, 0, 0], by decide⟩

theorem witness_functionsAndResets_12 :
    ∃ (s : State) (e : Eci) (c : EciCmd) (p : List Nat), s.serves e c 0x0205 [low 12, W32, W32, W32] ∧ p = c.words ∧ e.fn = s.manager ∧ noFunc p = false ∧ s.mayRestore (p.getD 0 0) = false :=
  ⟨withCmd (eciCmd 0x0205 ([0, 0, 0, 0])) (State.reset.wr F.HIF_FN_STATE_STATE 0 2), (eciOf 0), eciCmd 0x0205 ([0, 0, 0, 0]), [0, 0, 0, 0], by decide⟩

theorem witness_functionsAndResets_13 :
    ∃ (s : State) (e : Eci) (c : EciCmd) (p : List Nat) (f : Nat), s.serves e c 0x0206 [low 12 + 2 ^ 31, W32, W32, low 5] ∧ p = c.words ∧ (e.fn != s.manager || !s.feature e.fn 13) = false ∧ ((noFunc p || (bit (p.getD 0 0) 31 && (w64 p 1 % 4096 != 0 || decide (p.getD 3 0 < 6 ∨ 20 < p.getD 3 0)))) = false) ∧ f = bits (p.getD 0 0) 11 0 ∧ bit (p.getD 0 0) 31 = false :=
  ⟨withCmd (eciCmd 0x0206 ([0, 0, 0, 0])) (migGrant), (eciOf 0), eciCmd 0x0206 ([0, 0, 0, 0]), [0, 0, 0, 0], 0, by decide⟩

theorem witness_functionsAndResets_14 :
    ∃ (s : State) (e : Eci) (c : EciCmd) (p : List Nat) (f : Nat) (k : Nat) (t : State), s.serves e c 0x0206 [low 12 + 2 ^ 31, W32, W32, low 5] ∧ p = c.words ∧ (e.fn != s.manager || !s.feature e.fn 13) = false ∧ ((noFunc p || (bit (p.getD 0 0) 31 && (w64 p 1 % 4096 != 0 || decide (p.getD 3 0 < 6 ∨ 20 < p.getD 3 0)))) = false) ∧ f = bits (p.getD 0 0) 11 0 ∧ bit (p.getD 0 0) 31 = true ∧ s.rings.any (fun r => r.2.state != 0 && r.2.fn == f && r.2.pasid.isSome) = false ∧ s.on F.HIF_FN_STATE_MIGRATING f = false ∧ firstFree 64 s.fresh (fun j => s.on F.HIF_MIG_CTRL_EN j) = some k ∧ t = s.used.migStart f k (w64 p 1) (p.getD 3 0) :=
  ⟨withCmd (eciCmd 0x0206 ([2 ^ 31, 0, 0, 6])) (migGrant), (eciOf 0), eciCmd 0x0206 ([2 ^ 31, 0, 0, 6]), [2 ^ 31, 0, 0, 6], 0, migGrant.fresh % 64, (withCmd (eciCmd 0x0206 [2 ^ 31, 0, 0, 6]) migGrant).used.migStart 0 (migGrant.fresh % 64) 0 6, ⟨by decide, rfl, by decide, by decide, rfl, by decide, by decide, by decide, firstFree_all (by decide) (fun k => migOff k), rfl⟩⟩

theorem witness_functionsAndResets_15 :
    ∃ (s : State) (e : Eci) (c : EciCmd) (p : List Nat) (f : Nat) (t : State), s.serves e c 0x0206 [low 12 + 2 ^ 31, W32, W32, low 5] ∧ p = c.words ∧ (e.fn != s.manager || !s.feature e.fn 13) = false ∧ ((noFunc p || (bit (p.getD 0 0) 31 && (w64 p 1 % 4096 != 0 || decide (p.getD 3 0 < 6 ∨ 20 < p.getD 3 0)))) = false) ∧ f = bits (p.getD 0 0) 11 0 ∧ bit (p.getD 0 0) 31 = true ∧ s.rings.any (fun r => r.2.state != 0 && r.2.fn == f && r.2.pasid.isSome) = false ∧ s.on F.HIF_FN_STATE_MIGRATING f = true ∧ t = s.migStart f (s.rd F.HIF_FN_STATE_SLOT f) (w64 p 1) (p.getD 3 0) :=
  ⟨withCmd (eciCmd 0x0206 ([2 ^ 31, 0, 0, 6])) (migGrant.wr F.HIF_FN_STATE_MIGRATING 0 1), (eciOf 0), eciCmd 0x0206 ([2 ^ 31, 0, 0, 6]), [2 ^ 31, 0, 0, 6], 0, (withCmd (eciCmd 0x0206 [2 ^ 31, 0, 0, 6]) (migGrant.wr F.HIF_FN_STATE_MIGRATING 0 1)).migStart 0 0 0 6, by decide⟩

theorem witness_functionsAndResets_16 :
    ∃ (s : State) (e : Eci) (c : EciCmd) (p : List Nat), s.serves e c 0x0207 [low 12] ∧ p = c.words ∧ e.fn = s.manager ∧ noFunc p = false ∧ s.rd F.HIF_FN_STATE_STATE (p.getD 0 0) = 3 :=
  ⟨withCmd (eciCmd 0x0207 ([0])) (State.reset.wr F.HIF_FN_STATE_STATE 0 3), (eciOf 0), eciCmd 0x0207 ([0]), [0], by decide⟩

theorem witness_functionsAndResets_17 :
    ∃ (s : State) (e : Eci) (c : EciCmd) (p : List Nat), s.serves e c 0x0207 [low 12] ∧ p = c.words ∧ e.fn = s.manager ∧ noFunc p = false ∧ s.rd F.HIF_FN_STATE_STATE (p.getD 0 0) ≠ 3 :=
  ⟨withCmd (eciCmd 0x0207 (([low 12] : List Nat).map (fun _ => 0))) (State.reset), (eciOf 0), eciCmd 0x0207 (([low 12] : List Nat).map (fun _ => 0)), ([low 12] : List Nat).map (fun _ => 0), by decide⟩

theorem witness_functionsAndResets_18 :
    ∃ (s : State) (e : Eci) (c : EciCmd) (p : List Nat), s.serves e c 0x0208 [low 2] ∧ p = c.words ∧ (s.roleDenied e.fn) p = false ∧ (!mayManage (p.getD 0 0) || p.getD 0 0 == s.manager) = false ∧ s.roleWaits (p.getD 0 0) = false :=
  ⟨withCmd (eciCmd 0x0208 ([2])) (State.reset), (eciOf 0), eciCmd 0x0208 ([2]), [2], by decide⟩

theorem witness_functionsAndResets_19 :
    ∃ (s : State) (e : Eci) (c : EciCmd) (p : List Nat), s.serves e c 0x0208 [low 2] ∧ p = c.words ∧ (s.roleDenied e.fn) p = false ∧ (!mayManage (p.getD 0 0) || p.getD 0 0 == s.manager) = false ∧ s.roleWaits (p.getD 0 0) = true :=
  ⟨withCmd (eciCmd 0x0208 ([2])) ({ State.reset with longs := [(0, some { path := .mailbox })] }), (eciOf 0), eciCmd 0x0208 ([2]), [2], by decide⟩

theorem witness_functionsAndResets_20 :
    ∃ (s : State) (port : Nat), port < 2 ∧ s.perst.get port = false :=
  ⟨State.reset, 0, by decide⟩

theorem witness_functionsAndResets_21 :
    ∃ (s : State) (port : Nat) (link : Nat), s.linkExists port link = true :=
  ⟨State.reset, 0, 0, by decide⟩

theorem witness_functionsAndResets_22 :
    ∃ (s : State) (port : Nat), port < 2 ∧ s.perst.get port = true :=
  ⟨{ State.reset with perst := State.reset.perst.set 0 true }, 0, by decide⟩

theorem witness_functionsAndResets_23 :
    ∃ (s : State) (pf : Nat) (on : Bool) (num : Nat), pf < 4 ∧ (s.fn pf).vfEnable ≠ on :=
  ⟨State.reset, 0, true, 0, by decide⟩

theorem witness_functionsAndResets_24 :
    ∃ (s : State) (f : Nat), s.fnExists f = true :=
  ⟨State.reset, 0, by decide⟩

theorem witness_functionsAndResets_25 :
    ∃ (s : State) (t : State) (r : Flr) (f : Nat) (engine : Nat), s.flr.getD f none = some r ∧ engine < flrEngines ∧ s.flrDiscard f engine = some t :=
  ⟨{ State.reset with flr := [(0, some {})] }, { State.reset with flr := [(0, some {})] }, {}, 0, 0, by decide⟩

theorem witness_functionsAndResets_26 :
    ∃ (s : State) (r : Flr) (f : Nat) (engine : Nat), s.flr.getD f none = some r ∧ engine < flrEngines ∧ s.flrDiscard f engine = none :=
  ⟨staleS, {}, 0, 0, by decide⟩

theorem witness_functionsAndResets_27 :
    ∃ (s : State) (t : State) (u : State) (r : Flr) (f : Nat) (late : List Nat), s.flr.getD f none = some r ∧ r.since + 100000000 ≤ s.now ∧ late = (List.range flrEngines).filter (fun e => !r.acks.contains e) ∧ t = s.each late (fun e t => t.each (t.slowUnits f e) (fun u v => v.fenceUnit u.1 u.2 8 [])) ∧ u = t.each late (fun e t => (t.flrDiscard f e).getD t) :=
  ⟨{ State.reset with flr := [(0, some {})], now := 100000000 }, _, _, {}, 0, _, by decide, by decide, rfl, rfl, rfl⟩

theorem witness_functionsAndResets_28 :
    ∃ (s : State) (r : Flr) (f : Nat), s.flr.getD f none = some r ∧ s.now < r.since + 100000000 :=
  ⟨{ State.reset with flr := [(0, some {})] }, {}, 0, by decide⟩

theorem witness_functionsAndResets_29 :
    ∃ (s : State) (l : LongCmd) (g : Nat) (f : Nat), (g, some l) ∈ s.longs ∧ l.final = none ∧ l.cmd.code = 0x0203 ∧ l.cmd.words.getD 0 0 = f ∧ l.since + 100000000 ≤ s.now ∧ s.rd F.HIF_FN_STATE_STATE f = 2 :=
  ⟨{ State.reset.wr F.HIF_FN_STATE_STATE 0 2 with longs := [(0, some { path := .mailbox, cmd := eciCmd 0x0203 [0] })], now := 100000000 }, { path := .mailbox, cmd := eciCmd 0x0203 [0] }, 0, 0, by decide⟩

theorem witness_functionsAndResets_30 :
    ∃ (s : State) (fn : Nat) (slot : Nat) (v : Nat), s.managedBy fn ∧ slot < 64 :=
  ⟨State.reset, 0, 0, 0, by decide⟩

theorem witness_serviceAndDebug_1 :
    ∃ (s : State) (e : Eci) (c : EciCmd) (p : List Nat) (t : State) (rc : Nat) (w : List Nat), s.serves e c 0x0A00 [low 5, W32, W32] ∧ p = c.words ∧ (e.fn != s.manager || s.on F.GLB_COUNTER_OWNER_OWNER 0) = false ∧ (bit (p.getD 0 0) 4 && bits (p.getD 0 0) 3 0 != 0) = false ∧ (s.foldCounters (p.getD 0 0)).bufferOut e.fn (w64 p 1) 448 ((s.foldCounters (p.getD 0 0)).totals (p.getD 0 0)) e.io.head? [0] = .done t rc w :=
  ⟨withCmd (eciCmd 0x0A00 ([0, 0, 0])) (State.reset), (eciOf 0), eciCmd 0x0A00 ([0, 0, 0]), [0, 0, 0], (withCmd (eciCmd 0x0A00 [0, 0, 0]) State.reset).foldCounters 0, RC_NOT_READY, [], ⟨by decide, rfl, by decide, by decide, svcOut⟩⟩

theorem witness_serviceAndDebug_2 :
    ∃ (s : State) (e : Eci) (c : EciCmd) (p : List Nat), s.serves e c 0x0A01 [low 10, 2 ^ 31 + 3 * 2 ^ 12 + low 11] ∧ p = c.words ∧ e.fn = s.manager ∧ (decide (576 ≤ p.getD 0 0) || decide ((s.fn (bits (p.getD 1 0) 13 12)).grants.vectors ≤ bits (p.getD 1 0) 10 0)) = false :=
  ⟨withCmd (eciCmd 0x0A01 ([0, 0])) (cpyReady), (eciOf 0), eciCmd 0x0A01 ([0, 0]), [0, 0], by decide⟩

theorem witness_serviceAndDebug_3 :
    ∃ (s : State) (e : Eci) (c : EciCmd) (p : List Nat), s.serves e c 0x0A02 [low 8, W32, W32, W32] ∧ p = c.words ∧ (s.flashDenied e.fn || [0, 7, 8, 9, 10].contains (p.getD 0 0)) = false ∧ (decide (10 < p.getD 0 0) || decide (flashSize (p.getD 0 0) < p.getD 3 0)) = false ∧ s.flashTaken e.fn = false ∧ (!s.recovery && p.getD 0 0 == 1 + s.fwSlot) = false ∧ s.longBusy e.fn = false :=
  ⟨withCmd (eciCmd 0x0A02 ([6, 0, 0, 0])) (State.reset), (eciOf 0), eciCmd 0x0A02 ([6, 0, 0, 0]), [6, 0, 0, 0], by decide⟩

theorem witness_serviceAndDebug_4 :
    ∃ (s : State) (e : Eci) (c : EciCmd) (p : List Nat), s.serves e c 0x0A02 [low 8, W32, W32, W32] ∧ p = c.words ∧ (s.flashDenied e.fn || [0, 7, 8, 9, 10].contains (p.getD 0 0)) = false ∧ (decide (10 < p.getD 0 0) || decide (flashSize (p.getD 0 0) < p.getD 3 0)) = false ∧ ((s.flashTaken e.fn = true ∨ (!s.recovery && p.getD 0 0 == 1 + s.fwSlot) = true)) :=
  ⟨withCmd (eciCmd 0x0A02 ([1, 0, 0, 0])) (State.reset), (eciOf 0), eciCmd 0x0A02 ([1, 0, 0, 0]), [1, 0, 0, 0], by decide⟩

theorem witness_serviceAndDebug_5 :
    ∃ (s : State) (e : Eci) (c : EciCmd) (p : List Nat), s.serves e c 0x0A02 [low 8, W32, W32, W32] ∧ p = c.words ∧ (s.flashDenied e.fn || [0, 7, 8, 9, 10].contains (p.getD 0 0)) = false ∧ (decide (10 < p.getD 0 0) || decide (flashSize (p.getD 0 0) < p.getD 3 0)) = false ∧ s.flashTaken e.fn = false ∧ (!s.recovery && p.getD 0 0 == 1 + s.fwSlot) = false ∧ s.longBusy e.fn = true :=
  ⟨withCmd (eciCmd 0x0A02 ([6, 0, 0, 0])) ({ State.reset with longs := [(0, some { path := .mailbox, cmd := eciCmd 0x0A05 [] })] }), (eciOf 0), eciCmd 0x0A02 ([6, 0, 0, 0]), [6, 0, 0, 0], by decide⟩

theorem witness_serviceAndDebug_6 :
    ∃ (s : State) (e : Eci) (c : EciCmd) (p : List Nat), s.serves e c 0x0A03 [1] ∧ p = c.words ∧ s.flashDenied e.fn = false ∧ s.flashTaken e.fn = false :=
  ⟨withCmd (eciCmd 0x0A03 [1]) State.reset, eciOf 0, eciCmd 0x0A03 [1], [1], by decide⟩

theorem witness_serviceAndDebug_7 :
    ∃ (s : State) (e : Eci) (c : EciCmd) (p : List Nat), s.serves e c 0x0A03 [1] ∧ p = c.words ∧ s.flashDenied e.fn = false ∧ s.flashTaken e.fn = true :=
  ⟨withCmd (eciCmd 0x0A03 [1]) { State.reset with recovery := true, flashHolder := some 2 }, eciOf 0, eciCmd 0x0A03 [1], [1], by decide⟩

theorem witness_serviceAndDebug_8 :
    ∃ (s : State) (e : Eci) (c : EciCmd) (p : List Nat), s.serves e c 0x0A04 [] ∧ p = c.words ∧ e.fn = s.manager :=
  ⟨withCmd (eciCmd 0x0A04 (([] : List Nat).map (fun _ => 0))) (State.reset), (eciOf 0), eciCmd 0x0A04 (([] : List Nat).map (fun _ => 0)), ([] : List Nat).map (fun _ => 0), by decide⟩

theorem witness_serviceAndDebug_9 :
    ∃ (s : State) (e : Eci) (c : EciCmd) (p : List Nat), s.serves e c 0x0A05 [3] ∧ p = c.words ∧ e.fn = s.manager ∧ s.longBusy e.fn = false :=
  ⟨withCmd (eciCmd 0x0A05 (([3] : List Nat).map (fun _ => 0))) (State.reset), (eciOf 0), eciCmd 0x0A05 (([3] : List Nat).map (fun _ => 0)), ([3] : List Nat).map (fun _ => 0), by decide⟩

theorem witness_serviceAndDebug_10 :
    ∃ (s : State) (e : Eci) (c : EciCmd) (p : List Nat), s.serves e c 0x0A06 [low 16] ∧ p = c.words ∧ e.fn = s.manager ∧ (p.getD 0 0 != 0xDFFF && !unitListed (p.getD 0 0)) = false :=
  ⟨withCmd (eciCmd 0x0A06 ([0xDFFF])) (State.reset), (eciOf 0), eciCmd 0x0A06 ([0xDFFF]), [0xDFFF], by decide⟩

theorem witness_serviceAndDebug_11 :
    ∃ (s : State), s.flashHolder.isSome = true ∧ s.flashAt + 60000000000 ≤ s.now :=
  ⟨{ State.reset with flashHolder := some 0, now := 60000000000 }, by decide⟩

theorem witness_serviceAndDebug_12 :
    ∃ (s : State) (t : State) (u : State) (v : State) (d : Nat) (khz : Nat) (aged : Bool), d < 64 ∧ (s.domainWear d).sampled = none ∧ t = { s with wear := s.wear.set (0xE100 + d) { s.domainWear d with khz := khz % 2 ^ 32, sampled := some s.now, stamp := s.stamp } } ∧ aged = decide (250 ≤ t.slowdown d) ∧ u = { t with wear := t.wear.set (0xE100 + d) { t.domainWear d with aged := aged } } ∧ v = u.when (aged && !(s.domainWear d).aged) (fun x => x.raise Ev.PWR_AGEING_ALERT) :=
  ⟨State.reset, _, _, _, 0, 5, _, by decide, by decide, rfl, rfl, rfl, rfl⟩

theorem witness_serviceAndDebug_13 :
    ∃ (s : State) (t : State) (u : State) (v : State) (d : Nat) (khz : Nat) (at_ : Nat) (aged : Bool), d < 64 ∧ (s.domainWear d).sampled = some at_ ∧ at_ + 60000000000 ≤ s.now ∧ t = { s with wear := s.wear.set (0xE100 + d) { s.domainWear d with khz := khz % 2 ^ 32, sampled := some s.now, stamp := s.stamp } } ∧ aged = decide (250 ≤ t.slowdown d) ∧ u = { t with wear := t.wear.set (0xE100 + d) { t.domainWear d with aged := aged } } ∧ v = u.when (aged && !(s.domainWear d).aged) (fun x => x.raise Ev.PWR_AGEING_ALERT) :=
  ⟨{ State.reset with now := 60000000000, wear := [(0xE100, { sampled := some 0 })] }, _, _, _, 0, 5, 0, _, by decide, by decide, by decide, rfl, rfl, rfl, rfl⟩

theorem witness_serviceAndDebug_14 :
    ∃ (s : State) (stress : List Nat), s.now < s.wearSaved + 21600000000000 :=
  ⟨State.reset, [], by decide⟩

theorem witness_serviceAndDebug_15 :
    ∃ (s : State), s.wearSaved + 21600000000000 ≤ s.now :=
  ⟨{ State.reset with now := 21600000000000 }, by decide⟩

theorem witness_serviceAndDebug_16 :
    ∃ (s : State) (t : State) (n : Nat) (w : Wear), s.wearSaved + 21600000000000 ≤ s.now ∧ w = s.domainWear 0 ∧ t = { s with wearSaved := s.now, wear := s.wear.set 0xE100 { w with stress := max w.stress (n % 2 ^ 64), saved := max w.stress (n % 2 ^ 64), em := decide (800000000 ≤ max w.stress (n % 2 ^ 64)) } } :=
  ⟨{ State.reset with now := 21600000000000 }, _, 5, _, by decide, rfl, rfl⟩

theorem witness_serviceAndDebug_17 :
    ∃ (s : State) (e : Eci) (c : EciCmd) (p : List Nat), s.serves e c 0x0B00 [low 10 + 2 ^ 31] ∧ p = c.words ∧ (s.dbgDenied e.fn threadCluster) p = false :=
  ⟨withCmd (eciCmd 0x0B00 ([5])) (migGrant), (eciOf 0), eciCmd 0x0B00 ([5]), [5], by decide⟩

theorem witness_serviceAndDebug_18 :
    ∃ (s : State) (e : Eci) (c : EciCmd) (p : List Nat), s.serves e c 0x0B01 [low 10 + 2 ^ 31] ∧ p = c.words ∧ (s.dbgDenied e.fn threadCluster) p = false :=
  ⟨withCmd (eciCmd 0x0B01 ([5])) (migGrant), (eciOf 0), eciCmd 0x0B01 ([5]), [5], by decide⟩

theorem witness_serviceAndDebug_19 :
    ∃ (s : State) (e : Eci) (c : EciCmd) (p : List Nat), s.serves e c 0x0B03 [low 10] ∧ p = c.words ∧ (s.dbgDenied e.fn threadCluster) p = false :=
  ⟨withCmd (eciCmd 0x0B03 ([5])) ({ migGrant with threads := [(5, { st := .halted })] }), (eciOf 0), eciCmd 0x0B03 ([5]), [5], by decide⟩

theorem witness_serviceAndDebug_20 :
    ∃ (s : State) (e : Eci) (c : EciCmd) (p : List Nat) (ix : Nat), s.serves e c 0x0B04 [low 6 + 2 ^ 31, low 16, W32, W32] ∧ p = c.words ∧ (s.dbgDenied e.fn clusterNamed) p = false ∧ ix = 4 * bits (p.getD 0 0) 3 0 + bits (p.getD 0 0) 5 4 :=
  ⟨withCmd (eciCmd 0x0B04 ([0, 5, 1, 0])) (migGrant), (eciOf 0), eciCmd 0x0B04 ([0, 5, 1, 0]), [0, 5, 1, 0], 0, by decide⟩

theorem witness_serviceAndDebug_21 :
    ∃ (s : State) (e : Eci) (c : EciCmd) (p : List Nat), s.serves e c 0x0B05 [low 4 + 2 ^ 31] ∧ p = c.words ∧ (s.dbgDenied e.fn clusterNamed) p = false :=
  ⟨withCmd (eciCmd 0x0B05 ([2 ^ 31])) (migGrant), (eciOf 0), eciCmd 0x0B05 ([2 ^ 31]), [2 ^ 31], by decide⟩

theorem witness_serviceAndDebug_22 :
    ∃ (s : State) (e : Eci) (c : EciCmd) (p : List Nat) (t : Nat), s.serves e c 0x0B02 [low 10] ∧ p = c.words ∧ (s.dbgDenied e.fn threadCluster) p = false ∧ (s.threadsNamed p).find? (fun k => (s.thread k).st == .halted) = some t :=
  ⟨withCmd (eciCmd 0x0B02 ([5])) ({ migGrant with threads := [(5, { st := .halted })] }), (eciOf 0), eciCmd 0x0B02 ([5]), [5], 5, by decide⟩

theorem witness_serviceAndDebug_23 :
    ∃ (s : State) (e : Eci) (c : EciCmd) (p : List Nat), s.serves e c 0x0B02 [low 10] ∧ p = c.words ∧ (s.dbgDenied e.fn threadCluster) p = false ∧ (s.threadsNamed p).find? (fun k => (s.thread k).st == .halted) = none :=
  ⟨withCmd (eciCmd 0x0B02 ([5])) (migGrant), (eciOf 0), eciCmd 0x0B02 ([5]), [5], by decide⟩

theorem witness_serviceAndDebug_24 :
    ∃ (s : State) (p : List Nat), s.on F.BRW_DBG_CTL_JTAG_OWNS (threadCluster p) = true ∧ shapeOk [low 10 + 2 ^ 31] { code := 0x0B00, len := p.length, words := p } = true :=
  ⟨(migGrant : State).wr F.BRW_DBG_CTL_JTAG_OWNS 0 1, [5], by decide⟩

theorem witness_serviceAndDebug_25 :
    ∃ (s : State) (p : List Nat), s.on F.BRW_DBG_CTL_JTAG_OWNS (threadCluster p) = true ∧ shapeOk [low 10 + 2 ^ 31] { code := 0x0B01, len := p.length, words := p } = true :=
  ⟨(migGrant : State).wr F.BRW_DBG_CTL_JTAG_OWNS 0 1, [5], by decide⟩

theorem witness_serviceAndDebug_26 :
    ∃ (s : State) (p : List Nat), s.on F.BRW_DBG_CTL_JTAG_OWNS (threadCluster p) = true ∧ shapeOk [low 10] { code := 0x0B03, len := p.length, words := p } = true :=
  ⟨({ migGrant with threads := [(5, { st := .halted })] } : State).wr F.BRW_DBG_CTL_JTAG_OWNS 0 1, [5], by decide⟩

theorem witness_serviceAndDebug_27 :
    ∃ (s : State) (p : List Nat) (ix : Nat), s.on F.BRW_DBG_CTL_JTAG_OWNS (clusterNamed p) = true ∧ shapeOk [low 6 + 2 ^ 31, low 16, W32, W32] { code := 0x0B04, len := p.length, words := p } = true ∧ ix = 4 * bits (p.getD 0 0) 3 0 + bits (p.getD 0 0) 5 4 :=
  ⟨(migGrant : State).wr F.BRW_DBG_CTL_JTAG_OWNS 0 1, [0, 5, 1, 0], 0, by decide⟩

theorem witness_serviceAndDebug_28 :
    ∃ (s : State) (p : List Nat), s.on F.BRW_DBG_CTL_JTAG_OWNS (clusterNamed p) = true ∧ shapeOk [low 4 + 2 ^ 31] { code := 0x0B05, len := p.length, words := p } = true :=
  ⟨(migGrant : State).wr F.BRW_DBG_CTL_JTAG_OWNS 0 1, [2 ^ 31], by decide⟩

theorem witness_serviceAndDebug_29 :
    ∃ (s : State) (p : List Nat) (t : Nat), s.on F.BRW_DBG_CTL_JTAG_OWNS (threadCluster p) = true ∧ shapeOk [low 10] { code := 0x0B02, len := p.length, words := p } = true ∧ (s.threadsNamed p).find? (fun k => (s.thread k).st == .halted) = some t :=
  ⟨({ migGrant with threads := [(5, { st := .halted })] } : State).wr F.BRW_DBG_CTL_JTAG_OWNS 0 1, [5], 5, by decide⟩

theorem witness_serviceAndDebug_30 :
    ∃ (s : State) (p : List Nat), s.on F.BRW_DBG_CTL_JTAG_OWNS (threadCluster p) = false :=
  ⟨State.reset, [5], by decide⟩

theorem witness_mailboxAndDoorbells_1 :
    ∃ (s : State) (f : Nat) (v : Nat), f < 2052 ∧ s.bar0Open f = true :=
  ⟨State.reset, 0, 0, by decide⟩

theorem witness_mailboxAndDoorbells_2 :
    ∃ (s : State) (f : Nat), s.on F.MBX_STATUS_BUSY f = true ∧ (s.mb f).at_ + (s.mb f).us * 1000 ≤ s.now :=
  ⟨State.reset.wr F.MBX_STATUS_BUSY 0 1, 0, by decide⟩

theorem witness_mailboxAndDoorbells_3 :
    ∃ (s : State) (f : Nat) (v : Nat), f < 2052 ∧ s.bar0Open f = true :=
  ⟨State.reset, 0, 0, by decide⟩

theorem witness_mailboxAndDoorbells_4 :
    ∃ (s : State) (f : Nat) (v : Nat), f < 2052 ∧ s.bar0Open f = true :=
  ⟨State.reset, 0, 0, by decide⟩

theorem witness_mailboxAndDoorbells_5 :
    ∃ (s : State) (f : Nat) (v : Nat), f < 2052 ∧ s.bar0Open f = true :=
  ⟨State.reset, 0, 0, by decide⟩

theorem witness_mailboxAndDoorbells_6 :
    ∃ (s : State) (f : Nat) (v : Nat), f < 2052 ∧ s.bar0Open f = true :=
  ⟨State.reset, 0, 0, by decide⟩

theorem witness_mailboxAndDoorbells_7 :
    ∃ (s : State), s.fwUp = true :=
  ⟨upS, by decide⟩

theorem witness_mailboxAndDoorbells_8 :
    ∃ (s : State) (a : State) (t : State) (f : Nat) (n : Nat) (bad : Bool) (c : EciCmd), s.nextTurn (s.coreOf f) = some (2 * f) ∧ a = (s.tookTurn (s.coreOf f) (2 * f)).wr F.DB_TO_FW_CMD f 0 ∧ n = s.rd F.MBX_CMD_LEN f ∧ c = { code := s.rd F.MBX_CMD_CODE f, len := n, words := if 64 < n || bad then [] else (List.range n).map (fun k => s.val .MBX_DATA (64 * f + k)), rc := if bad then RC_BAD_ARG else 0, at_ := a.now } ∧ t = a.modMb f (fun b => { b with cmd := some c }) :=
  ⟨{ State.reset.wr F.DB_TO_FW_CMD 0 1 with mbox := [(0, { us := 1 })], fwUp := true }, _, _, 0, _, false, _, by decide, rfl, rfl, rfl, rfl⟩

theorem witness_mailboxAndDoorbells_9 :
    ∃ (s : State) (f : Nat) (bad : Bool), s.nextTurn (s.coreOf f) ≠ some (2 * f) :=
  ⟨State.reset, 0, false, by decide⟩

theorem witness_mailboxAndDoorbells_10 :
    ∃ (s : State) (f : Nat) (k : Nat) (t : Nat), (k, some t) ∈ (s.mb f).setAt ∧ t + s.rd F.MBX_TIMEOUT_US f * 1000 ≤ s.now ∧ (s.mb f).absent = false :=
  ⟨{ State.reset.wr F.MBX_TIMEOUT_US 0 0 with mbox := [(0, { setAt := [(1, some 0)] })] }, 0, 1, 0, by decide⟩

theorem witness_mailboxAndDoorbells_11 :
    ∃ (s : State) (core : Nat) (thread : Nat), core < 4 ∧ (thread = 0 ∨ thread = 3) ∧ s.fwUp = true :=
  ⟨upS, 0, 0, by decide⟩

theorem witness_mailboxAndDoorbells_12 :
    ∃ (s : State) (core : Nat), core < 4 ∧ s.fwUp = true :=
  ⟨upS, 0, by decide⟩

theorem witness_mailboxAndDoorbells_13 :
    ∃ (s : State) (t : State) (l : LongCmd) (f : Nat) (rc : Nat) (io : LongIo) (w : List Nat), s.longs.getD f none = some l ∧ l.final = none ∧ s.longBody f l.cmd io = .done t rc w :=
  ⟨longS, longS, { cmd := { code := 0x0203, words := [2 ^ 31] } }, 0, RC_OK, {}, [], by exact ⟨rfl, rfl, rfl⟩⟩

theorem witness_mailboxAndDoorbells_14 :
    ∃ (s : State) (t : State) (l : LongCmd) (f : Nat) (io : LongIo), s.longs.getD f none = some l ∧ l.final = none ∧ s.longBody f l.cmd io = .held t :=
  ⟨stageS, stageS.stageDone 0 [], { cmd := { code := 0x0900 } }, 0, {}, by exact ⟨rfl, rfl, rfl⟩⟩

theorem witness_mailboxAndDoorbells_15 :
    ∃ (s : State) (l : LongCmd) (f : Nat) (io : LongIo), s.longs.getD f none = some l ∧ l.final = none ∧ s.longBody f l.cmd io = .wait :=
  ⟨waitS, { cmd := { code := 0x0203, words := [0] } }, 0, {}, by exact ⟨rfl, rfl, waitL⟩⟩

theorem witness_mailboxAndDoorbells_16 :
    ∃ (s : State) (u : State) (v : State) (r : Ring) (c : EciCmd) (f : Nat) (n : Nat) (b0 : Bytes) (b : Bytes) (payload : HostReply), s.nextTurn (s.coreOf f) = some (2 * f + 1) ∧ r = s.ring (adminSqKey f) ∧ u = ((s.tookTurn (s.coreOf f) (2 * f + 1)).sendRead f (r.base + r.next % r.size * 128) none 128).modRing (adminSqKey f) (fun x => { x with next := ixNext x.next }) ∧ b = fit 128 b0 ∧ n = leAt b 2 1 ∧ c = { code := leAt b 0 2, len := n, words := if 24 < n then [] else (List.range n).map (fun k => leAt (b.drop 0x20) (4 * k) 4), tag := leAt b 4 2, resp := leAt b 0x10 8, index := r.next, at_ := u.now } ∧ v = { u with adminCmd := u.adminCmd.setD f (some c) none } ∧ v.eciFenced f c.code = false ∧ eciListed c.code v.recovery = true ∧ mailboxOnly c.code = false ∧ leAt b 3 1 = 0 ∧ leAt b 6 2 = 0 ∧ leAt b 0x18 8 = 0 ∧ leAt b 8 8 = 0 ∧ n ≤ 24 :=
  ⟨admS, _, _, _, _, 0, _, admB, _, .data [], by decide, rfl, rfl, rfl, rfl, rfl, rfl, by decide, by decide, by decide, by decide, by decide, by decide, by decide, by decide⟩

theorem witness_mailboxAndDoorbells_17 :
    ∃ (s : State) (u : State) (v : State) (r : Ring) (c : EciCmd) (f : Nat) (n : Nat) (b0 : Bytes) (b : Bytes) (payload : HostReply), s.nextTurn (s.coreOf f) = some (2 * f + 1) ∧ r = s.ring (adminSqKey f) ∧ u = ((s.tookTurn (s.coreOf f) (2 * f + 1)).sendRead f (r.base + r.next % r.size * 128) none 128).modRing (adminSqKey f) (fun x => { x with next := ixNext x.next }) ∧ b = fit 128 b0 ∧ n = leAt b 2 1 ∧ c = { code := leAt b 0 2, len := n, words := if 24 < n then [] else (List.range n).map (fun k => leAt (b.drop 0x20) (4 * k) 4), tag := leAt b 4 2, resp := leAt b 0x10 8, index := r.next, at_ := u.now } ∧ v = { u with adminCmd := u.adminCmd.setD f (some c) none } ∧ v.eciFenced f c.code = false ∧ eciListed c.code v.recovery = true ∧ mailboxOnly c.code = false ∧ ((leAt b 3 1 ≠ 0 ∨ leAt b 6 2 ≠ 0 ∨ leAt b 0x18 8 ≠ 0 ∨ 64 < n ∨ (n ≤ 24 ∧ leAt b 8 8 ≠ 0))) :=
  ⟨admS, _, _, _, _, 0, _, admB.set 3 1, _, .data [], by decide, rfl, rfl, rfl, rfl, rfl, rfl, by decide, by decide, by decide, by decide⟩

theorem witness_mailboxAndDoorbells_18 :
    ∃ (s : State) (u : State) (v : State) (w : State) (r : Ring) (c : EciCmd) (f : Nat) (n : Nat) (b0 : Bytes) (b : Bytes) (d : Bytes), s.nextTurn (s.coreOf f) = some (2 * f + 1) ∧ r = s.ring (adminSqKey f) ∧ u = ((s.tookTurn (s.coreOf f) (2 * f + 1)).sendRead f (r.base + r.next % r.size * 128) none 128).modRing (adminSqKey f) (fun x => { x with next := ixNext x.next }) ∧ b = fit 128 b0 ∧ n = leAt b 2 1 ∧ c = { code := leAt b 0 2, len := n, words := if 24 < n then [] else (List.range n).map (fun k => leAt (b.drop 0x20) (4 * k) 4), tag := leAt b 4 2, resp := leAt b 0x10 8, index := r.next, at_ := u.now } ∧ v = { u with adminCmd := u.adminCmd.setD f (some c) none } ∧ v.eciFenced f c.code = false ∧ eciListed c.code v.recovery = true ∧ mailboxOnly c.code = false ∧ leAt b 3 1 = 0 ∧ leAt b 6 2 = 0 ∧ leAt b 0x18 8 = 0 ∧ 24 < n ∧ n ≤ 64 ∧ w = v.sendRead f (leAt b 8 8) none (4 * n) :=
  ⟨admS, _, _, _, _, _, 0, _, admL, _, [], by decide, rfl, rfl, rfl, rfl, rfl, rfl, by decide, by decide, by decide, by decide, by decide, by decide, by decide, by decide, rfl⟩

theorem witness_mailboxAndDoorbells_19 :
    ∃ (s : State) (f : Nat) (entry : HostReply) (payload : HostReply), s.nextTurn (s.coreOf f) ≠ some (2 * f + 1) :=
  ⟨State.reset, 0, .data [], .data [], by decide⟩

theorem witness_hbmControllers_1 :
    ∃ (s : State) (t : State) (u : State) (p : HbmPlace) (region : Nat) (off : Nat) (write : Bool) (late : Bool) (r : HbmResult), region < 8 ∧ s.on F.HBM_REGION_EN region = true ∧ off < s.regionBytes region ∧ p = s.hbmPlace region off ∧ s.isFenced (unitHbm p.pc) 0 = false ∧ t = (s.srExit (p.pc / 32)).count .HBM_CTR (p.pc / 32) (if write then C.HBM_WRITES else C.HBM_READS) ∧ u = t.modHbm (fun h => { h with rows := h.rows.setD (bankKey p.pc p.bank) (if t.rd F.HBM_PAGE_CFG_IDLE_CYCLES p.pc != 0 then some (p.row, t.now) else none) none, reqAt := h.reqAt.set (p.pc / 32) t.now }) :=
  ⟨hbmS, _, _, _, 0, 0, false, false, .ok, by decide, by decide, by decide, rfl, by decide, rfl, rfl⟩

theorem witness_hbmControllers_2 :
    ∃ (s : State) (p : HbmPlace) (region : Nat) (off : Nat) (write : Bool) (late : Bool) (r : HbmResult), region < 8 ∧ s.on F.HBM_REGION_EN region = true ∧ off < s.regionBytes region ∧ p = s.hbmPlace region off ∧ s.isFenced (unitHbm p.pc) 0 = true :=
  ⟨{ hbmS with fenced := [(fenceKey (unitHbm 0) 0, true)] }, _, 0, 0, false, false, .ok, by decide, by decide, by decide, rfl, by decide⟩

theorem witness_hbmControllers_3 :
    ∃ (s : State) (pc : Nat) (bank : Nat) (row : Nat) (at_ : Nat), s.hbm.rows.getD (bankKey pc bank) none = some (row, at_) ∧ at_ * 6 + s.rd F.HBM_PAGE_CFG_IDLE_CYCLES pc * 5 ≤ s.now * 6 :=
  ⟨{ State.reset with hbm := { State.reset.hbm with rows := [(0, some (0, 0))] }, now := 1000000 }, 0, 0, 0, 0, by decide⟩

theorem witness_hbmControllers_4 :
    ∃ (s : State) (t : State) (u : State) (pc : Nat) (bank : Nat) (n : Nat) (key : Nat) (busy : Bool), pc < 64 ∧ bank < 16 ∧ key = bankKey pc bank ∧ s.rd F.HBM_PC_STATUS_STATE pc = 1 ∧ s.hbm.due.get key + s.refreshNs (pc / 32) ≤ s.now ∧ n = s.hbm.post.get key + 1 ∧ t = s.modHbm (fun h => { h with due := h.due.set key s.now }) ∧ u = (t.modHbm (fun h => { h with post := h.post.set key (if busy && decide (n ≤ 8) then n else 0) })).postponedSync pc :=
  ⟨{ State.reset.wr F.HBM_PC_STATUS_STATE 0 1 with now := 3900 }, _, _, 0, 0, _, _, true, by decide, by decide, rfl, by decide, by decide, rfl, rfl, rfl⟩

theorem witness_hbmControllers_5 :
    ∃ (s : State) (pc : Nat) (bank : Nat) (key : Nat), pc < 64 ∧ bank < 16 ∧ key = bankKey pc bank ∧ s.rd F.HBM_PC_STATUS_STATE pc = 1 ∧ s.now < s.hbm.due.get key + s.refreshNs (pc / 32) :=
  ⟨State.reset.wr F.HBM_PC_STATUS_STATE 0 1, 0, 0, _, by decide, by decide, rfl, by decide, by decide⟩

theorem witness_hbmControllers_6 :
    ∃ (s : State) (k : Nat), k < 2 ∧ s.rd F.PWR_STATUS_STATE 0 = 2 ∧ s.hbm.reqAt.get k + 100000 ≤ s.now ∧ ((stackPcs k).any (fun p => s.rd F.HBM_PC_STATUS_STATE p == 1)) = true :=
  ⟨srS, 0, by decide⟩

theorem witness_hbmControllers_7 :
    ∃ (s : State) (k : Nat), k < 2 :=
  ⟨State.reset, 0, by decide⟩

theorem witness_hbmControllers_8 :
    ∃ (s : State) (k : Nat) (t : Nat), k < 2 ∧ 85 < t ∧ t < 256 ∧ s.on F.HBM_STACK_STATUS_HOT k = false :=
  ⟨State.reset, 0, 86, by decide⟩

theorem witness_hbmControllers_9 :
    ∃ (s : State) (k : Nat) (t : Nat), k < 2 ∧ 95 < t ∧ t < 256 :=
  ⟨State.reset, 0, 96, by decide⟩

theorem witness_hbmControllers_10 :
    ∃ (s : State) (k : Nat) (t : Nat), k < 2 ∧ t ≤ 85 ∧ s.on F.HBM_STACK_STATUS_HOT k = true :=
  ⟨State.reset.wr F.HBM_STACK_STATUS_HOT 0 1, 0, 0, by decide⟩

theorem witness_hbmControllers_11 :
    ∃ (s : State) (k : Nat) (t : Nat), k < 2 ∧ t < 256 ∧ ((s.rd F.HBM_STACK_STATUS_TRAIN_TEMP_C k + 10 < t ∨ t + 10 < s.rd F.HBM_STACK_STATUS_TRAIN_TEMP_C k)) :=
  ⟨State.reset, 0, 60, by decide⟩

theorem witness_hbmControllers_12 :
    ∃ (s : State) (t : State) (u : State) (v : State) (pc : Nat) (bank : Nat) (row : Nat) (key : Nat), pc < 64 ∧ bank < 16 ∧ row < 49152 ∧ key = rateKey (.hbmRow pc bank row) ∧ 16 ≤ (s.rates.get key).count ∧ s.bankRepairs pc bank < 2 ∧ t = { s with rates := s.rates.set key { s.rates.get key with count := 0 }, hbm := { s.hbm with repairs := s.hbm.repairs ++ [({ pc := pc, bank := bank, row := row } : HbmRepair)] } } ∧ u = (t.wr F.HBM_PC_STATUS_REPAIRS pc (t.rd F.HBM_PC_STATUS_REPAIRS pc + 1)).count .HBM_CTR (pc / 32) C.HBM_SOFT_REPAIRS ∧ v = (u.countError .corrected).raise (Ev.HBM_SOFT_REPAIR (pc / 32)) :=
  ⟨{ State.reset with rates := [(rateKey (.hbmRow 0 0 0), { count := 16 })] }, _, _, _, 0, 0, 0, _, by decide, by decide, by decide, rfl, by decide, by decide, rfl, rfl, rfl⟩

theorem witness_errorsAndFences_1 :
    ∃ (s : State) (kind : QueueKind) (i : Nat) (q : WatchedQueue), q = watchedQueue kind i ∧ s.on F.GLB_CREDIT_WDOG_EN 0 = true ∧ queueListed q = true ∧ s.isFenced (queueUnit q) 0 = false ∧ s.stalls q = true :=
  ⟨{ State.reset.wr F.GLB_CREDIT_WDOG_EN 0 1 with now := 10 ^ 9 }, .dieLink, 0, _, rfl, by decide, by decide, by decide, by decide⟩

theorem witness_errorsAndFences_2 :
    ∃ (s : State) (t : State) (unit : Nat) (obj : Nat), s.isFenced unit obj = true ∧ t = s.each (s.queuedTo unit obj) (fun h t => t.discardQueued unit h) :=
  ⟨{ State.reset with fenced := [(fenceKey (unitPort 0) 0, true)] }, _, unitPort 0, 0, by decide, rfl⟩

theorem witness_errorsAndFences_3 :
    ∃ (s : State) (unit : Nat) (obj : Nat), s.isFenced unit obj = false :=
  ⟨State.reset, 0, 0, by decide⟩

theorem witness_errorsAndFences_4 :
    ∃ (s : State) (fn : Nat) (v : Nat), s.managedBy fn :=
  ⟨onS, 0, 0, by decide⟩

theorem witness_errorsAndFences_5 :
    ∃ (s : State) (unit : Nat), fatalUnit unit = true :=
  ⟨State.reset, 0xF000, by decide⟩

theorem witness_errorsAndFences_6 :
    ∃ (s : State) (t : Nat) (io : BootIo), s.fatal = some t ∧ ((t + 2000000 ≤ s.now ∨ s.journal.backlog = [])) ∧ ((s.fatalBoot = none ∨ ∃ b, s.fatalBoot = some b ∧ b + 10000000000 < t)) :=
  ⟨{ State.reset with fatal := some 0 }, 0, {}, by exact ⟨rfl, .inr rfl, .inl rfl⟩⟩

theorem witness_errorsAndFences_7 :
    ∃ (s : State) (t : Nat) (b : Nat) (io : BootIo), s.fatal = some t ∧ ((t + 2000000 ≤ s.now ∨ s.journal.backlog = [])) ∧ s.fatalBoot = some b ∧ t ≤ b + 10000000000 :=
  ⟨{ State.reset with fatal := some 0, fatalBoot := some 0 }, 0, 0, {}, by decide⟩

theorem witness_errorsAndFences_8 :
    ∃ (s : State) (t : State) (position : Nat) (k : Nat), position < 4 ∧ s.coreUp position = false ∧ s.spareCore = some k ∧ t = (if s.coresLost.contains position then s else s.each (s.functions.filter (fun f => f % 4 == position)) (fun f u => u.fwRestartFor f true true)) :=
  ⟨coreS, _, 0, 4, by decide, by decide, by decide, rfl⟩

theorem witness_errorsAndFences_9 :
    ∃ (s : State) (t : State) (position : Nat), position < 4 ∧ s.coreUp position = false ∧ s.spareCore = none ∧ t = (if s.coresLost.contains position then s else s.each (s.functions.filter (fun f => f % 4 == position)) (fun f u => u.fwRestartFor f true true)) :=
  ⟨coreN, _, 0, by decide, by decide, by decide, rfl⟩

theorem witness_errorsAndFences_10 :
    ∃ (s : State) (unit : Nat) (obj : Nat) (frames : List Nat), s.stateFails unit obj = true :=
  ⟨State.reset, unitBank 0, 0, [], by decide⟩

theorem witness_errorsAndFences_11 :
    ∃ (s : State) (t : State) (r : RateSource) (errors : Nat), rateExists r = true ∧ s.windowStart (rateKey r) + rateWindow r ≤ s.now ∧ t = (s.rateCount (rateKey r) errors).when (rateCorrected r) (fun t => t.add .GLB_ERR_COUNT 0 errors) :=
  ⟨{ State.reset with now := 1000000000 }, _, .copy, 0, by decide, by decide, rfl⟩

theorem witness_powerAndResets_1 :
    ∃ (s : State) (mv : Nat), mv < 4150 ∧ s.powered = true :=
  ⟨onS, 0, by decide⟩

theorem witness_powerAndResets_2 :
    ∃ (s : State) (mv : Nat), mv < 4150 ∧ s.supply.power = .shut :=
  ⟨shutS, 0, by decide⟩

theorem witness_powerAndResets_3 :
    ∃ (s : State) (x : PowerSample) (io : BootIo), 4350 < x.mv ∧ s.supply.power = .aon :=
  ⟨{ State.reset with supply := { power := .aon } }, { mv := 5000 }, {}, by decide⟩

theorem witness_powerAndResets_4 :
    ∃ (s : State) (x : PowerSample) (io : BootIo), 4350 < x.mv ∧ s.supply.power = .shut ∧ (s.sense x).diesAtMost 949 = true :=
  ⟨shutS, { mv := 5000 }, {}, by decide⟩

theorem witness_powerAndResets_5 :
    ∃ (s : State) (ca : Nat) (ns : Nat), 6000 < ca ∧ 100000 ≤ ns ∧ s.powered = true :=
  ⟨onS, 6001, 100000, by decide⟩

theorem witness_powerAndResets_6 :
    ∃ (s : State) (n : Nat), s.powered = true ∧ n < 198 ∧ n ∉ s.supply.phasesOut :=
  ⟨onS, 0, by decide⟩

theorem witness_powerAndResets_7 :
    ∃ (s : State) (d : Nat), s.powered = true ∧ d < 64 ∧ ((s.rd F.PWR_DOMAIN_STATE d = 1 ∨ s.rd F.PWR_DOMAIN_STATE d = 2)) :=
  ⟨onS.wr F.PWR_DOMAIN_STATE 0 1, 0, by decide⟩

theorem witness_powerAndResets_8 :
    ∃ (s : State) (c : Nat), s.powered = true ∧ c < 16 ∧ s.on F.PWR_CFG_CLUSTER_GATE 0 = true ∧ s.clusterServes c = true ∧ s.clusterIdle c = true ∧ s.idleSince c + 10000000 ≤ s.now ∧ s.siblings c ≠ [] ∧ 63 < s.freeIn (s.siblings c) :=
  ⟨gateS, 0, by decide⟩

theorem witness_powerAndResets_9 :
    ∃ (s : State) (c : Nat), s.powered = true ∧ c < 16 ∧ (s.clusters.get c).gated = true ∧ s.rd F.PWR_STATUS_STATE 0 = 1 ∧ ((128 < s.dispatchDepth (c / 4) ∨ s.freeIn ((List.range 4).map (fun k => c / 4 * 4 + k) |>.filter s.clusterServes) = 0)) :=
  ⟨ungateS, 0, by decide⟩

theorem witness_powerAndResets_10 :
    ∃ (s : State), s.powered = true ∧ s.rd F.PWR_STATUS_STATE 0 = 1 ∧ s.mayDeepIdle = true :=
  ⟨idleS, by exact ⟨by decide, by decide, idleMay⟩⟩

theorem witness_powerAndResets_11 :
    ∃ (s : State), s.powered = true ∧ s.rd F.PWR_STATUS_STATE 0 = 2 ∧ s.mayDeepIdle = false :=
  ⟨{ onS.wr F.PWR_STATUS_STATE 0 2 with pkts := [(1, {})] }, by decide⟩

theorem witness_powerAndResets_12 :
    ∃ (s : State) (u : State) (x : PowerSample) (n : Nat), s.powered = true ∧ n = s.rd F.PWR_STATUS_LEVEL 0 ∧ n < 4 ∧ s.supply.levelAt + 10000000 ≤ s.now ∧ u = s.sense x ∧ (u.dieReaches (10 * s.rd F.PWR_THERM_CFG_THROTTLE_C 0 : Nat) || decide (s.capDw < x.dw) || u.stackAbove 95) = true :=
  ⟨{ onS with now := 10000000 }, _, { dw := 100000 }, _, by decide, rfl, by decide, by decide, rfl, by decide⟩

theorem witness_powerAndResets_13 :
    ∃ (s : State) (u : State) (x : PowerSample) (n : Nat), s.powered = true ∧ n = s.rd F.PWR_STATUS_LEVEL 0 ∧ 0 < n ∧ s.supply.levelAt + 100000000 ≤ s.now ∧ u = s.sense x ∧ (u.diesAtMost (10 * s.rd F.PWR_THERM_CFG_THROTTLE_C 0 - 50 : Nat) && decide (x.dw + 50 ≤ s.capDw) && !u.stackAbove 90) = true :=
  ⟨{ (onS.wr F.PWR_STATUS_LEVEL 0 1).wr F.PWR_CFG_CAP_W 0 100 with now := 100000000 }, _, {}, _, by decide, rfl, by decide, by decide, rfl, by decide⟩

theorem witness_powerAndResets_14 :
    ∃ (s : State) (x : PowerSample), s.powered = true ∧ (s.sense x).dieReaches (10 * s.rd F.PWR_THERM_CFG_ALERT_C 0 : Nat) = true :=
  ⟨onS, { temps := [(0, 1120)] }, by decide⟩

theorem witness_powerAndResets_15 :
    ∃ (s : State) (x : PowerSample), s.powered = true ∧ (s.sense x).dieReaches 1100 = true :=
  ⟨onS, { temps := [(0, 1120)] }, by decide⟩

theorem witness_powerAndResets_16 :
    ∃ (s : State) (x : PowerSample), s.powered = true ∧ x.temps.any (fun e => decide (e.1 < 28 ∧ 1150 ≤ e.2)) :=
  ⟨onS, { temps := [(0, 1160)] }, by decide⟩

theorem witness_powerAndResets_17 :
    ∃ (s : State) (sensor : Nat) (t : Int), s.powered = true ∧ sensor < 32 ∧ s.on F.PWR_TEMP_FAULT sensor = false ∧ s.implausible sensor t = true :=
  ⟨onS, 0, 1600, by decide⟩

theorem witness_powerAndResets_18 :
    ∃ (s : State), s.powered = true ∧ s.supply.pllAt = none :=
  ⟨onS, by decide⟩

theorem witness_powerAndResets_19 :
    ∃ (s : State) (t : _), s.supply.pllAt = some t ∧ s.now ≤ t + 10000000 ∧ s.fatal = none :=
  ⟨{ onS with supply := { onS.supply with pllAt := some 0 } }, default, by decide⟩

theorem witness_powerAndResets_20 :
    ∃ (s : State) (t : _), s.supply.pllAt = some t ∧ t + 10000000 ≤ s.now :=
  ⟨{ onS with supply := { onS.supply with pllAt := some 0 }, now := 10000000 }, default, by decide⟩

theorem witness_powerAndResets_21 :
    ∃ (s : State) (mv : Nat), s.powered = true ∧ 4150 ≤ mv ∧ mv < 4500 :=
  ⟨onS, 4200, by decide⟩

theorem witness_powerAndResets_22 :
    ∃ (s : State) (mv : Nat), s.powered = true ∧ 18000 < mv :=
  ⟨onS, 18001, by decide⟩

theorem witness_powerAndResets_23 :
    ∃ (s : State) (mv : Nat), s.supply.power ≠ .off ∧ 4150 ≤ mv ∧ mv < 4500 :=
  ⟨onS, 4200, by decide⟩

theorem witness_powerAndResets_24 :
    ∃ (s : State) (io : BootIo), ((s.supply.power = .off ∨ (s.powered ∧ s.supply.bootAt = none))) :=
  ⟨{ State.reset with supply := { power := .off } }, {}, by exact .inl rfl⟩

theorem witness_powerAndResets_25 :
    ∃ (s : State) (mv : Nat), mv < 4150 ∧ s.supply.power ≠ .off :=
  ⟨onS, 0, by decide⟩

theorem witness_powerAndResets_26 :
    ∃ (s : State) (ns : Nat) (x : PowerSample) (io : BootIo), 1000 ≤ ns ∧ s.powered = true :=
  ⟨onS, 1000, {}, {}, by decide⟩

theorem witness_powerAndResets_27 :
    ∃ (s : State) (ns : Nat) (x : PowerSample) (io : BootIo), 1000 ≤ ns ∧ s.supply.power = .shut ∧ (s.sense x).diesAtMost 949 = true :=
  ⟨shutS, 1000, {}, {}, by decide⟩

theorem witness_powerAndResets_28 :
    ∃ (s : State) (ns : Nat) (x : PowerSample) (io : BootIo), ns < 1000 :=
  ⟨State.reset, 0, {}, {}, by decide⟩

theorem witness_powerAndResets_29 :
    ∃ (s : State) (t : _) (io : BootIo), s.supply.bootAt = some t ∧ s.powered = true ∧ s.fwUp = false ∧ t + 3000000000 ≤ s.now :=
  ⟨{ onS with supply := { onS.supply with bootAt := some 0 }, now := 3000000000, fwUp := false }, default, {}, by decide⟩

theorem witness_registerAccess_1 :
    ∃ (s : State) (fn : Nat) (off : Nat) (size : Nat) (v : Nat), s.managedBy fn :=
  ⟨onS, 0, 0, 0, 0, by decide⟩

theorem witness_registerAccess_2 :
    ∃ (s : State) (fn : Nat) (off : Nat) (size : Nat) (v : Nat), s.fnOpen fn = true :=
  ⟨onS, 0, 0, 0, 0, by decide⟩

theorem witness_registerAccess_3 :
    ∃ (s : State) (fn : Nat) (size : Nat) (v : Nat), s.fnOpen fn = true ∧ bit v 0 = true :=
  ⟨onS, 0, 0, 1, by decide⟩

theorem witness_registerAccess_4 :
    ∃ (s : State) (fn : Nat) (size : Nat) (v : Nat), s.fnOpen fn = true ∧ bit v 0 = false :=
  ⟨onS, 0, 0, 0, by decide⟩

theorem witness_registerAccess_5 :
    ∃ (s : State) (fn : Nat) (size : Nat) (v : Nat), s.fnOpen fn = true ∧ bit v 0 = true :=
  ⟨onS, 0, 0, 1, by decide⟩

theorem witness_registerAccess_6 :
    ∃ (s : State) (fn : Nat) (size : Nat) (v : Nat), s.fnOpen fn = true ∧ bit v 0 = false :=
  ⟨onS, 0, 0, 0, by decide⟩

theorem witness_registerAccess_7 :
    ∃ (s : State) (fn : Nat) (alloc : Nat) (size : Nat) (v : Nat), s.fnOpen fn = true :=
  ⟨onS, 0, 0, 0, 0, by decide⟩

theorem witness_registerAccess_8 :
    ∃ (s : State) (fn : Nat) (off : Nat) (size : Nat) (v : Nat) (lo : Nat), s.cfgOpen fn = true ∧ cfgSize off size = true ∧ s.fwUp = true ∧ lo = 8 * (off % 4) :=
  ⟨{ onS with fwUp := true }, 0, 4, 2, 0, 0, ⟨by decide, by decide, by decide, rfl⟩⟩

theorem witness_registerAccess_9 :
    ∃ (s : State) (fn : Nat) (off : Nat) (size : Nat), s.cfgOpen fn = true ∧ cfgSize off size = true ∧ s.fwUp = true :=
  ⟨{ onS with fwUp := true }, 0, 4, 2, by decide⟩

theorem witness_registerAccess_10 :
    ∃ (s : State) (fn : Nat) (off : Nat) (size : Nat) (v : Nat), s.cfgOpen fn = true ∧ cfgSize off size = true ∧ s.fwUp = false :=
  ⟨{ onS with fwUp := false }, 0, 4, 2, 0, by decide⟩

theorem witness_registerAccess_11 :
    ∃ (s : State) (off : Nat) (size : Nat), s.supply.power = .on ∧ s.recovery = false ∧ mayManage s.manager = true :=
  ⟨onS, 0, 0, by decide⟩

theorem witness_registerAccess_12 :
    ∃ (s : State) (fn : Nat) (off : Nat) (size : Nat), s.supply.power = .on :=
  ⟨onS, 0, 0, 0, by decide⟩

theorem witness_registerAccess_13 :
    ∃ (s : State) (off : Nat), s.supply.power = .on ∧ s.recovery = false ∧ mayManage s.manager = true :=
  ⟨onS, 0, by decide⟩

theorem witness_registerAccess_14 :
    ∃ (s : State) (port : Nat) (x : RxFrame), port < 16 ∧ s.on F.PRT_STATUS_LINK_UP port = true ∧ s.isFenced (unitPort port) 0 = false ∧ s.fatal = none :=
  ⟨State.reset.wr F.PRT_STATUS_LINK_UP 0 1, 0, default, by decide⟩

theorem witness_registerAccess_15 :
    ∃ (s : State) (port : Nat) (h : Nat) (x : TxIo) (l : List Nat), port < 16 ∧ s.onWire port = none ∧ ((s.on F.PRT_STATUS_LINK_UP port = false ∨ s.isFenced (unitPort port) 0 = true)) ∧ s.atStage (.txCell port) = h :: l :=
  ⟨{ State.reset with pkts := [(1, txPkt)] }, 0, 1, {}, [], by decide⟩

theorem witness_registerAccess_16 :
    ∃ (s : State) (port : Nat) (k : Nat) (x : TxIo), port < 16 ∧ s.onWire port = some k :=
  ⟨{ txReady with txNow := [(0, some { h := 1 })] }, 0, 0, {}, by decide⟩

theorem witness_registerAccess_17 :
    ∃ (s : State) (d : State) (port : Nat) (x : TxIo) (y : TxNow), port < 16 ∧ s.onWire port = none ∧ s.on F.PRT_STATUS_LINK_UP port = true ∧ s.isFenced (unitPort port) 0 = false ∧ d = s.dropStuck port ∧ d.nextTx port = none ∧ d.txNow.getD (2 * port + 1) none = some y ∧ d.classHeld port (d.node 3 ((d.pkt y.h).getD {}).queue).tc = false ∧ d.holdMac port = false :=
  ⟨txCut, _, 0, {}, { h := 1, cut := true }, by decide, by decide, by decide, by decide, rfl, by decide, by decide, by decide, by decide⟩

theorem witness_registerAccess_18 :
    ∃ (s : State) (d : State) (u : State) (t : State) (port : Nat) (h : Nat) (stamp : Nat) (x : TxIo) (p : Packet) (n : Node) (l : Bool) (f : Bytes) (g : Bytes) (a : State × Bytes), port < 16 ∧ s.onWire port = none ∧ s.on F.PRT_STATUS_LINK_UP port = true ∧ s.isFenced (unitPort port) 0 = false ∧ d = s.dropStuck port ∧ d.nextTx port = some (h, p) ∧ n = d.node 3 p.queue ∧ stamp = d.txStamp port x.phase ∧ l = p.isLate n (shortOf stamp) ∧ (l && !n.lateSend) = false ∧ u = d.when l (fun t => t.sentLate (p.queue / 32768) h p) ∧ f = p.rtag.elim p.data (fun n => insertRTag p.data n) ∧ a = u.ptpTx port p f stamp ∧ (x.badCell || p.badCell) = false ∧ a.1.macsecTx port a.2 = (t, some g) ∧ max 64 (g.length + 4) ≤ u.rd F.PRT_MAC_CFG_MAX_FRAME port :=
  ⟨txReady, txReady, txReady, txReady, 0, 1, _, {}, txPkt, _, _, List.replicate 60 1, List.replicate 60 1, (txReady, List.replicate 60 1), by decide, by decide, by decide, by decide, txStuck, by decide, rfl, rfl, rfl, by decide, rfl, rfl, txPtp, by decide, txMac, by decide⟩

theorem witness_registerAccess_19 :
    ∃ (s : State) (d : State) (u : State) (t : State) (port : Nat) (h : Nat) (stamp : Nat) (x : TxIo) (p : Packet) (n : Node) (l : Bool) (f : Bytes) (g : Bytes) (a : State × Bytes), port < 16 ∧ s.onWire port = none ∧ s.on F.PRT_STATUS_LINK_UP port = true ∧ s.isFenced (unitPort port) 0 = false ∧ d = s.dropStuck port ∧ d.nextTx port = some (h, p) ∧ n = d.node 3 p.queue ∧ stamp = d.txStamp port x.phase ∧ l = p.isLate n (shortOf stamp) ∧ (l && !n.lateSend) = false ∧ u = d.when l (fun t => t.sentLate (p.queue / 32768) h p) ∧ f = p.rtag.elim p.data (fun n => insertRTag p.data n) ∧ a = u.ptpTx port p f stamp ∧ (x.badCell || p.badCell) = false ∧ a.1.macsecTx port a.2 = (t, some g) ∧ u.rd F.PRT_MAC_CFG_MAX_FRAME port < max 64 (g.length + 4) :=
  ⟨txShort, txShort, txShort, txShort, 0, 1, _, {}, txPkt, _, _, List.replicate 60 1, List.replicate 60 1, (txShort, List.replicate 60 1), by decide, by decide, by decide, by decide, txStuck', by decide, rfl, rfl, rfl, by decide, rfl, rfl, txPtp', by decide, txMac', by decide⟩

theorem witness_registerAccess_20 :
    ∃ (s : State) (d : State) (u : State) (t : State) (port : Nat) (h : Nat) (stamp : Nat) (x : TxIo) (p : Packet) (n : Node) (l : Bool) (f : Bytes) (a : State × Bytes), port < 16 ∧ s.onWire port = none ∧ s.on F.PRT_STATUS_LINK_UP port = true ∧ s.isFenced (unitPort port) 0 = false ∧ d = s.dropStuck port ∧ d.nextTx port = some (h, p) ∧ n = d.node 3 p.queue ∧ stamp = d.txStamp port x.phase ∧ l = p.isLate n (shortOf stamp) ∧ (l && !n.lateSend) = false ∧ u = d.when l (fun t => t.sentLate (p.queue / 32768) h p) ∧ f = p.rtag.elim p.data (fun n => insertRTag p.data n) ∧ a = u.ptpTx port p f stamp ∧ (x.badCell || p.badCell) = false ∧ a.1.macsecTx port a.2 = (t, none) :=
  ⟨txSec, txSec, txSec, _, 0, 1, _, {}, txPkt, _, _, List.replicate 60 1, (txSec, List.replicate 60 1), by decide, by decide, by decide, by decide, txStuck'', by decide, rfl, rfl, rfl, by decide, rfl, rfl, txPtp'', by decide, txMac''⟩

theorem witness_registerAccess_21 :
    ∃ (s : State) (d : State) (port : Nat) (h : Nat) (stamp : Nat) (x : TxIo) (p : Packet) (n : Node), port < 16 ∧ s.onWire port = none ∧ s.on F.PRT_STATUS_LINK_UP port = true ∧ s.isFenced (unitPort port) 0 = false ∧ d = s.dropStuck port ∧ d.nextTx port = some (h, p) ∧ n = d.node 3 p.queue ∧ stamp = d.txStamp port x.phase ∧ p.isLate n (shortOf stamp) = true ∧ n.lateSend = false :=
  ⟨txLate, _, 0, 1, _, {}, txLatePkt, _, by decide, by decide, by decide, by decide, rfl, by decide, rfl, rfl, by decide, by decide⟩

theorem witness_stepOrder_1 :
    ∃ (c : Instr) (s : State) (rest : List Instr), s.pending = c :: rest :=
  ⟨.timeClockTick, { State.reset with pending := [.timeClockTick] }, [], by exact rfl⟩

theorem witness_stepOrder_2 :
    ∃ (s : State), s.pending = [] :=
  ⟨State.reset, by decide⟩

theorem witness_stepKeepsInvariant :
    ∃ (s : State) (t : State), s.Inv ∧ step s = .next t :=
  ⟨State.reset, State.reset, ⟨⟨by decide, by decide, by decide⟩, .inl rfl, by decide, by decide, by decide, List.Pairwise.nil, ⟨List.Pairwise.nil, by simp [State.reset]⟩, ⟨List.Pairwise.nil, by simp [State.reset]⟩, ⟨List.Pairwise.nil, by simp [State.reset]⟩, ⟨List.Pairwise.nil, by simp [State.reset]⟩⟩, rfl⟩

theorem witness_refusals_1 :
    ∃ (s : State) (fn : Nat) (c : Instr), s.supply.power = .on ∧ s.recovery = false ∧ fn ≠ s.manager ∧ c.bar2Writer = some fn ∧ c.wf = true :=
  ⟨onS, 2, .ovnEfcWrite 2 0, by decide⟩

theorem witness_refusals_2 :
    ∃ (s : State) (fn : Nat) (off : Nat) (size : Nat), s.supply.power = .on ∧ s.recovery = false ∧ fn ≠ s.manager ∧ ((fn = 0 ∨ fn = 2)) :=
  ⟨onS, 2, 0, 0, by decide⟩

theorem witness_refusals_3 :
    ∃ (i : Instr) (s : State) (e : Eci) (code : Nat) (c : EciCmd), i.eciRow = some (e, code) ∧ s.eciCmd e = some c ∧ c.code = code ∧ code / 256 ≠ 0 ∧ s.on F.MBX_STATUS_FENCED e.fn = true :=
  ⟨.fnQuery (eciOf 0), (withCmd (eciCmd 0x0202 [0]) (State.reset.wr F.MBX_STATUS_FENCED 0 1)), eciOf 0, 0x0202, eciCmd 0x0202 [0], rfl, by decide, by decide, by decide, by decide⟩

theorem witness_refusals_4 :
    ∃ (s : State) (e : Eci) (c : EciCmd) (code : Nat) (masks : List Nat) (pick : List Nat → Bool) (denied : List Nat → Bool) (bad : List Nat → Bool) (run : List Nat → EciOut), s.eciCmd e = some c ∧ c.code = code ∧ s.eciFenced e.fn code = false ∧ pick c.words = true ∧ s.eciDenied e.fn c denied masks.length = true :=
  ⟨(withCmd (eciCmd 0x0202 [0]) State.reset), eciOf 0, eciCmd 0x0202 [0], 0x0202, [0], anyCmd, anyCmd, anyCmd, fun _ => .wait, by decide, by decide, by decide, by decide, by decide⟩

theorem witness_refusals_5 :
    ∃ (s : State) (e : Eci) (c : EciCmd) (code : Nat) (masks : List Nat) (pick : List Nat → Bool) (denied : List Nat → Bool) (bad : List Nat → Bool) (run : List Nat → EciOut), s.eciCmd e = some c ∧ c.code = code ∧ s.eciFenced e.fn code = false ∧ pick c.words = true ∧ s.eciDenied e.fn c denied masks.length = false ∧ c.rc ≠ 0 :=
  ⟨(withCmd { eciCmd 0x0202 [0] with rc := RC_BAD_ARG } State.reset), eciOf 0, { eciCmd 0x0202 [0] with rc := RC_BAD_ARG }, 0x0202, [0], anyCmd, noCheck, noCheck, fun _ => .wait, by decide, by decide, by decide, by decide, by decide, by decide⟩

theorem witness_refusals_6 :
    ∃ (s : State) (e : Eci) (c : EciCmd) (code : Nat) (masks : List Nat) (pick : List Nat → Bool) (denied : List Nat → Bool) (bad : List Nat → Bool) (run : List Nat → EciOut), s.eciCmd e = some c ∧ c.code = code ∧ s.eciFenced e.fn code = false ∧ pick c.words = true ∧ s.eciDenied e.fn c denied masks.length = false ∧ c.rc = 0 ∧ (!shapeOk masks c || bad c.words) = true :=
  ⟨(withCmd (eciCmd 0x0202 [0]) State.reset), eciOf 0, eciCmd 0x0202 [0], 0x0202, [], anyCmd, noCheck, anyCmd, fun _ => .wait, by decide, by decide, by decide, by decide, by decide, by decide, by decide⟩

theorem witness_refusals_7 :
    ∃ (s : State) (e : Eci) (c : EciCmd) (code : Nat) (masks : List Nat) (pick : List Nat → Bool) (denied : List Nat → Bool) (bad : List Nat → Bool) (run : List Nat → EciOut), s.eciCmd e = some c ∧ c.code = code ∧ s.eciFenced e.fn code = false ∧ pick c.words = true ∧ s.eciDenied e.fn c denied masks.length = false ∧ c.rc = 0 ∧ shapeOk masks c = true ∧ bad c.words = false ∧ e.path = .admin ∧ c.resp ≠ 0 ∧ e.respFault = true :=
  ⟨{ State.reset with adminCmd := [(0, some { eciCmd 0x0202 [0] with resp := 1 })] }, { eciOf 0 with path := .admin, respFault := true }, { eciCmd 0x0202 [0] with resp := 1 }, 0x0202, [0], anyCmd, noCheck, noCheck, fun _ => .wait, by decide, by decide, by decide, by decide, by decide, by decide, by decide, by decide, by decide, by decide, by decide⟩

theorem witness_registerReadWrite_1 :
    ∃ (s : State) (f : Fld) (i : Nat) (v : Nat), f.lo ≤ f.hi ∧ f.hi < 64 :=
  ⟨State.reset, F.OVN_EFC_CODE, 0, 0, by decide⟩

theorem witness_registerReadWrite_2 :
    ∃ (s : State) (f : Fld) (g : Fld) (i : Nat) (j : Nat) (v : Nat), f.lo ≤ f.hi ∧ f.hi < 64 ∧ g.lo ≤ g.hi ∧ g.hi < 64 ∧ ((f.reg ≠ g.reg ∨ i ≠ j ∨ f.hi < g.lo ∨ g.hi < f.lo)) :=
  ⟨State.reset, F.OVN_EFC_CODE, F.OVN_STATUS_DUTY, 0, 0, 0, by decide⟩

theorem witness_overTemperatureLatch :
    ∃ (s : State) (fn : Nat), s.managedBy fn ∧ s.rd F.OVN_STATUS_OT_NOW 0 = 1 ∧ s.rd F.OVN_STATUS_OT_LATCH 0 = 1 ∧ s.ovenIs .overtemp = true :=
  ⟨(((onS.wr F.OVN_STATUS_OT_NOW 0 1).wr F.OVN_STATUS_OT_LATCH 0 1).wr F.OVN_STATUS_STATE 0 6), 0, by decide⟩

theorem witness_repeatedOffset :
    ∃ (s : State) (fn : Nat) (w : Width) (v : Nat), s.managedBy fn ∧ merge w (s.val .TSU_FREQ_OFFSET 0) v = s.val .TSU_FREQ_OFFSET 0 :=
  ⟨State.reset, 0, .full, 0, by decide⟩

theorem witness_fenceLog_1 :
    ∃ (s : State) (unit : Nat) (cause : Nat) (obj : Nat) (c : ErrClass), s.insideFenced unit obj = true :=
  ⟨State.reset.fence 0x4000 1 .contained 0, 0x4000, 0, 0, .contained, by decide⟩

theorem witness_fenceLog_2 :
    ∃ (s : State) (unit : Nat) (cause : Nat) (obj : Nat) (c : ErrClass), s.insideFenced unit obj = false :=
  ⟨State.reset, 0x4000, 0, 0, .contained, by decide⟩

theorem witness_timeCounting_1 :
    ∃ (off : Int), -32768000000 ≤ off ∧ off ≤ 32768000000 :=
  ⟨1, by decide⟩

theorem witness_timeCounting_2 :
    ∃ (s : State) (t : State), s.tsu.counting = true ∧ s.tsu.slewLeft = 0 ∧ s.stepApplies = false ∧ exec .timeClockTick s = .next t :=
  ⟨{ State.reset with tsu := { counting := true } }, _, rfl, rfl, by decide, rfl⟩

theorem witness_timeCounting_3 :
    ∃ (s : State) (t : State), s.tsu.counting = false ∧ exec .timeClockTick s = .next t :=
  ⟨State.reset, _, rfl, rfl⟩

theorem witness_rowsFrame_1 :
    ∃ (c : Instr) (s : State) (u : State), c.timeRow = true ∧ exec c s = .next u :=
  ⟨.timeClockTick, State.reset, _, rfl, rfl⟩

theorem witness_rowsFrame_2 :
    ∃ (c : Instr) (s : State) (u : State) (t : Nat) (op : Nat) (f : AluArgs), c.aluPart = some (t, op, f) ∧ s.aluRuns t op f ∧ f.dst ≠ 202 ∧ f.dst ≠ 203 ∧ exec c s = .next u :=
  ⟨.aluAdd 0 { sf := false, dst := 1, a := 2, b := 3, shift := 0 } 0 false, ready0, _, 0, 0x02, { sf := false, dst := 1, a := 2, b := 3, shift := 0 }, rfl, by decide, by decide, by decide, rfl⟩

theorem witness_timeAndPortRowsComplete_macRxFrame :
    ∃ (s : State) (n : Nat) (x : RxFrame), n < 16 ∧ s.on F.PRT_STATUS_LINK_UP n ∧ ¬s.isFenced (unitPort n) 0 ∧ s.fatal = none ∧ ¬x.assyErr :=
  ⟨State.reset.wr F.PRT_STATUS_LINK_UP 0 1, 0, { data := [] }, ⟨by decide, by decide, by decide, by decide, by decide⟩⟩

theorem witness_timeAndPortRowsComplete_grinderParse :
    ∃ (s : State) (h : Nat) (p : Packet), s.pkt h = some p ∧ p.stage = .received ∧ s.hasParse h p ∧ ¬p.fromWire ∧ s.dispatchCredit p.pipe ∧ ((s.parseTaken p.pipe).parse (grdCopy p.epoch p.pipe) p.data false).err = 0 :=
  ⟨{ State.reset with pkts := [(1, { fromWire := false, data := List.replicate 12 1 ++ [0x88, 0xB5] ++ List.replicate 46 0 })] }, 1, { fromWire := false, data := List.replicate 12 1 ++ [0x88, 0xB5] ++ List.replicate 46 0 }, ⟨by decide, by decide, by decide, by decide, by decide, by decide⟩⟩

theorem witness_timeAndPortRowsComplete_l2SourceCheck :
    ∃ (s : State) (p : _) (h : Nat), s.pkt h = some p ∧ p.stage = .parsed ∧ s.dispatchCredit p.pipe ∧ (s.l2Source p.pipe p.port (srcMac p.data) (outerVid p.data) false).2.1 ≠ 4 :=
  ⟨{ State.reset with pkts := [(1, { stage := .parsed })] }, { stage := .parsed }, 1, ⟨by decide, by decide, by decide, by decide⟩⟩

theorem witness_timeAndPortRowsComplete_macTxFrame :
    ∃ (s : State) (n : Nat) (k : Nat) (x : TxIo), n < 16 ∧ s.onWire n = some k :=
  ⟨{ txReady with txNow := [(0, some { h := 1 })] }, 0, 0, {}, ⟨by decide, by decide⟩⟩

theorem witness_timeAndPortRowsComplete_tsuFreqOffsetWrite :
    ∃ (s : State) (f : Nat) (v : Nat), s.managedBy f ∧ (Legal.signed 32768000000).ok 64 (v % 2 ^ 64) ∧ v % 2 ^ 64 ≠ s.steering.val .TSU_FREQ_OFFSET 0 ∧ s.steering.val .TSU_FREQ_OFFSET 0 = s.val .TSU_FREQ_OFFSET 0 :=
  ⟨State.reset, 0, 5, ⟨by decide, by decide, by decide, by decide⟩⟩

theorem witness_timeAndPortRowsComplete_tsuStepArm :
    ∃ (s : State) (f : Nat) (abs : Bool) (c : Bool), s.managedBy f ∧ ¬s.on F.TSU_STEP_CTRL_ARM 0 ∧ c = false :=
  ⟨State.reset, 0, false, _, ⟨by decide, by decide, rfl⟩⟩

theorem witness_timeAndPortRowsComplete_tsuStepCancel :
    ∃ (s : State) (f : Nat) (abs : Bool), s.managedBy f ∧ s.on F.TSU_STEP_CTRL_ARM 0 ∧ s.on F.TSU_STEP_CTRL_ABS 0 = abs :=
  ⟨State.reset.wr F.TSU_STEP_CTRL_ARM 0 1, 0, false, ⟨by decide, by decide, by decide⟩⟩

theorem witness_timeAndPortRowsComplete_timeStepApplied :
    ∃ (s : State), s.stepApplies :=
  ⟨({ State.reset with time := { ns := 999999999 }, tsu := { counting := true } }.wr F.TSU_STEP_CTRL_ARM 0 1).wr F.TSU_STEP_CTRL_ABS 0 1, by decide⟩

theorem witness_timeAndPortRowsComplete_tsuSlewSetWrite :
    ∃ (s : State) (f : Nat) (v : Nat), s.managedBy f :=
  ⟨State.reset, 0, 0, by decide⟩

theorem witness_timeAndPortRowsComplete_tsuSlewRateWrite :
    ∃ (s : State) (f : Nat) (v : Nat), s.managedBy f :=
  ⟨State.reset, 0, 0, by decide⟩

theorem witness_timeAndPortRowsComplete_timeSlewDone :
    ∃ (s : State), s.tsu.counting ∧ s.slewEnds :=
  ⟨{ State.reset with tsu := { counting := true, slewLeft := 1 } }.wr F.TSU_SLEW_RATE_RATE_NS 0 1000000, ⟨by decide, by decide⟩⟩

theorem witness_timeAndPortRowsComplete_timeSecondBoundary :
    ∃ (s : State), s.crosses :=
  ⟨{ State.reset with time := { ns := 999999999 }, tsu := { counting := true } }, by decide⟩

theorem witness_timeAndPortRowsComplete_tsuTimeNsfRead :
    ∃ (s : State) (f : Nat), s.managedBy f :=
  ⟨State.reset, 0, by decide⟩

theorem witness_timeAndPortRowsComplete_timeHoldoverEnter :
    ∃ (s : State), s.rd F.TSU_STATUS_HOLD_STATE 0 = 1 ∧ s.tsu.steerAt + 2000000000 ≤ s.now :=
  ⟨{ State.reset with now := 2000000000 }.wr F.TSU_STATUS_HOLD_STATE 0 1, ⟨by decide, by decide⟩⟩

theorem witness_timeAndPortRowsComplete_tsuBoardDlyWrite :
    ∃ (s : State) (f : Nat) (n : Nat) (v : Nat), s.managedBy f ∧ n < 16 :=
  ⟨State.reset, 0, 15, 0, ⟨by decide, by decide⟩⟩

theorem witness_timeAndPortRowsComplete_tsuRefWrite :
    ∃ (s : State) (f : Nat) (v : Nat), s.managedBy f ∧ v % 4 ≤ 2 ∧ v % 4 ≠ s.rd F.TSU_REF_SEL 0 :=
  ⟨State.reset, 0, 2, ⟨by decide, by decide, by decide⟩⟩

theorem witness_timeAndPortRowsComplete_timeRefLost :
    ∃ (s : State), s.on F.TSU_STATUS_REF_PRESENT 0 :=
  ⟨State.reset.wr F.TSU_STATUS_REF_PRESENT 0 1, by decide⟩

theorem witness_timeAndPortRowsComplete_timeRefRestored :
    ∃ (s : State), ¬s.on F.TSU_STATUS_PLL_LOCKED 0 :=
  ⟨State.reset, by decide⟩

theorem witness_timeAndPortRowsComplete_timePllUnlock :
    ∃ (s : State), s.on F.TSU_STATUS_PLL_LOCKED 0 :=
  ⟨State.reset.wr F.TSU_STATUS_PLL_LOCKED 0 1, by decide⟩

theorem witness_timeAndPortRowsComplete_ppsInMissing :
    ∃ (s : State) (t : Nat), s.tsu.ppsAt = some t ∧ t + 1100000000 ≤ s.now :=
  ⟨{ State.reset with now := 1100000000, tsu := { ppsAt := some 0 } }, 0, ⟨by decide, by decide⟩⟩

theorem witness_timeAndPortRowsComplete_ovnEnWrite :
    ∃ (s : State) (f : Nat) (v : Nat), s.managedBy f ∧ bit v 31 ∧ ¬(s.put .OVN_CTRL 0 (bits v 31 29 * 2 ^ 29)).ovenIs .overtemp ∧ (s.put .OVN_CTRL 0 (bits v 31 29 * 2 ^ 29)).ovenIs .cold :=
  ⟨State.reset, 0, 2 ^ 31, ⟨by decide, by decide, by decide, by decide⟩⟩

theorem witness_timeAndPortRowsComplete_ovnHoldWrite :
    ∃ (s : State) (f : Nat) (v : Nat), s.managedBy f ∧ bit v 31 ∧ bit v 30 ∧ (s.put .OVN_CTRL 0 (bits v 31 29 * 2 ^ 29)).rd F.OVN_STATUS_STATE 0 = 3 :=
  ⟨State.reset.wr F.OVN_STATUS_STATE 0 3, 0, 3 * 2 ^ 30, ⟨by decide, by decide, by decide, by decide⟩⟩

theorem witness_timeAndPortRowsComplete_ovnSettling :
    ∃ (s : State), s.ovenIs .warming ∧ s.ovenErr.natAbs ≤ s.rd F.OVN_BANDS_WARM_BAND 0 :=
  ⟨(State.reset.wr F.OVN_STATUS_STATE 0 1).wr F.OVN_SENSE_CODE 0 (State.reset.rd F.OVN_SETPOINT_CODE 0), ⟨by decide, by decide⟩⟩

theorem witness_timeAndPortRowsComplete_ovnLocked :
    ∃ (s : State) (t : Nat), s.oven.inBand = some t ∧ s.ovenIs .settling ∧ t + s.rd F.OVN_LIMITS_SETTLE_S 0 * 1000000000 ≤ s.now :=
  ⟨{ State.reset with oven := { inBand := some 0 }, now := 10 ^ 15 }.wr F.OVN_STATUS_STATE 0 2, 0, ⟨by decide, by decide, by decide⟩⟩

theorem witness_timeAndPortRowsComplete_ovnUnlocked :
    ∃ (s : State) (t : Nat), s.oven.outBand = some t ∧ s.ovenIs .locked ∧ t + 1000000000 ≤ s.now :=
  ⟨{ State.reset with oven := { outBand := some 0 }, now := 1000000000 }.wr F.OVN_STATUS_STATE 0 3, 0, ⟨by decide, by decide, by decide⟩⟩

theorem witness_timeAndPortRowsComplete_ovnFaultSense :
    ∃ (s : State), 10 ≤ s.oven.implausible ∧ s.ovenIs .warming :=
  ⟨{ State.reset with oven := { implausible := 10 } }.wr F.OVN_STATUS_STATE 0 1, ⟨by decide, by decide⟩⟩

theorem witness_timeAndPortRowsComplete_ovnFaultWarmup :
    ∃ (s : State), s.ovenIs .warming ∧ s.oven.since + s.rd F.OVN_LIMITS_WARM_TIMEOUT_MIN 0 * 60000000000 ≤ s.now :=
  ⟨{ State.reset with now := 10 ^ 15 }.wr F.OVN_STATUS_STATE 0 1, ⟨by decide, by decide⟩⟩

theorem witness_timeAndPortRowsComplete_ovnOtLatchClear :
    ∃ (s : State) (f : Nat), s.managedBy f ∧ ((s.wr F.OVN_STATUS_OT_NOW 0 0).wr F.OVN_STATUS_OT_LATCH 0 0).ovenIs .overtemp :=
  ⟨State.reset.wr F.OVN_STATUS_STATE 0 6, 0, ⟨by decide, by decide⟩⟩

theorem witness_timeAndPortRowsComplete_ovnDutyLimit :
    ∃ (s : State) (t : Nat), s.oven.dutyMax = some t ∧ s.ovenIs .locked ∧ t + 60000000000 ≤ s.now ∧ ¬s.oven.dutyRaised :=
  ⟨{ State.reset with oven := { dutyMax := some 0 }, now := 60000000000 }.wr F.OVN_STATUS_STATE 0 3, 0, ⟨by decide, by decide, by decide, by decide⟩⟩

theorem witness_timeAndPortRowsComplete_ovnEfcWrite :
    ∃ (s : State) (f : Nat) (v : Nat), s.managedBy f :=
  ⟨State.reset, 0, 0, by decide⟩

theorem witness_timeAndPortRowsComplete_prtGroupApply :
    ∃ (s : State) (f : Nat) (n : Nat), s.managedBy f ∧ n < 2 ∧ s.failLane n = none :=
  ⟨State.reset, 0, 0, ⟨by decide, by decide, by decide⟩⟩

theorem witness_timeAndPortRowsComplete_prtLinkUp :
    ∃ (s : State) (n : Nat) (a : Nat) (b : Nat), n < 16 ∧ s.on F.PRT_STATUS_ACTIVE_EN n ∧ ¬s.on F.PRT_STATUS_LINK_UP n ∧ ¬s.isFenced (unitPort n) 0 :=
  ⟨State.reset.wr F.PRT_STATUS_ACTIVE_EN 15 1, 15, 0, 0, ⟨by decide, by decide, by decide, by decide⟩⟩

theorem witness_timeAndPortRowsComplete_prtLocalFault :
    ∃ (s : State) (n : Nat), n < 16 ∧ s.on F.PRT_STATUS_ACTIVE_EN n ∧ ¬s.on F.PRT_STATUS_LOCAL_FAULT n :=
  ⟨State.reset.wr F.PRT_STATUS_ACTIVE_EN 15 1, 15, ⟨by decide, by decide, by decide⟩⟩

theorem witness_timeAndPortRowsComplete_prtRemoteFault :
    ∃ (s : State) (n : Nat), n < 16 ∧ s.on F.PRT_STATUS_ACTIVE_EN n ∧ ¬s.on F.PRT_STATUS_REMOTE_FAULT n :=
  ⟨State.reset.wr F.PRT_STATUS_ACTIVE_EN 15 1, 15, ⟨by decide, by decide, by decide⟩⟩

theorem witness_timeAndPortRowsComplete_prtLinkDown :
    ∃ (s : State) (n : Nat), s.on F.PRT_STATUS_LINK_UP n ∧ s.on F.PRT_STATUS_LOCAL_FAULT n ∧ s.localFault.get n + 10000 ≤ s.now :=
  ⟨{ (State.reset.wr F.PRT_STATUS_LINK_UP 3 1).wr F.PRT_STATUS_LOCAL_FAULT 3 1 with now := 10000 }, 3, ⟨by decide, by decide, by decide⟩⟩

theorem witness_timeAndPortRowsComplete_portReset :
    ∃ (s : State) (f : Nat) (n : Nat) (v : Nat), s.managedBy f ∧ n < 16 ∧ bit (putBits v 31 31 1) 31 ∧ ¬bit (putBits v 31 31 1) 27 :=
  ⟨State.reset, 0, 15, 0, ⟨by decide, by decide, by decide, by decide⟩⟩

theorem witness_timeAndPortRowsComplete_stormClear :
    ∃ (s : State) (f : Nat) (n : Nat) (v : Nat), s.managedBy f ∧ n < 16 ∧ ¬bit (putBits v 27 27 1) 31 ∧ bit (putBits v 27 27 1) 27 :=
  ⟨State.reset, 0, 15, 0, ⟨by decide, by decide, by decide, by decide⟩⟩

theorem witness_timeAndPortRowsComplete_rxPauseFrame :
    ∃ (s : State) (n : Nat) (x : Nat) (u : State), n < 16 ∧ s.on F.PRT_STATUS_LINK_UP n ∧ u = s.rxControl n ∧ u.honours n 1 :=
  ⟨((State.reset.wr F.PRT_STATUS_LINK_UP 15 1).wr F.PRT_FC_CFG_MODE 15 1).wr F.PRT_FC_CFG_RX_EN 15 1, 15, 65535, _, ⟨by decide, by decide, rfl, by decide⟩⟩

theorem witness_timeAndPortRowsComplete_rxPfcFrame :
    ∃ (s : State) (n : Nat) (enable : Nat) (times : List Nat), n < 16 ∧ s.on F.PRT_STATUS_LINK_UP n :=
  ⟨State.reset.wr F.PRT_STATUS_LINK_UP 15 1, 15, 0, [], ⟨by decide, by decide⟩⟩

theorem witness_timeAndPortRowsComplete_fcHoldExpire :
    ∃ (s : State) (h : _) (n : Nat) (c : Nat), s.holds.getD (holdKey n c) none = some h ∧ c < 9 ∧ h.until_ ≤ s.now * 100 :=
  ⟨{ State.reset with now := 1, holds := [(holdKey 15 8, some { until_ := 5 })] }, { until_ := 5 }, 15, 8, ⟨by decide, by decide, by decide⟩⟩

theorem witness_timeAndPortRowsComplete_xoffRefresh :
    ∃ (s : State) (t : _) (n : Nat) (c : Nat), s.xoff.getD (holdKey n c) none = some t ∧ c < 9 ∧ (s.fcClasses n).contains c ∧ 100 * t + s.rd F.PRT_FC_QUANTA_REFRESH n * modeQuantum (s.rd F.PRT_STATUS_ACTIVE_MODE n) ≤ 100 * s.now ∧ s.rd F.PRT_FC_THRESH_XON_KIB n * 1024 < s.occupancy n (if c = 8 then none else some c) :=
  ⟨((({ State.reset with now := 10 ^ 9, xoff := [(holdKey 1 8, some 0)], pkts := [(1, { port := 1, fromWire := true, stage := .received, data := List.replicate 2000 0 })] }.wr F.PRT_FC_THRESH_XON_KIB 1 1).wr F.PRT_FC_CFG_TX_EN 1 1).wr F.PRT_FC_CFG_MODE 1 1), 0, 1, 8, ⟨by decide, by decide, by decide, by decide, by decide⟩⟩

theorem witness_timeAndPortRowsComplete_prtPauseStorm :
    ∃ (s : State) (h : _) (n : Nat) (c : Nat), s.holds.getD (holdKey n c) none = some h ∧ c < 9 ∧ s.rd F.PRT_FC_CFG_STORM_MS n ≠ 0 ∧ ¬h.storm ∧ h.since + s.rd F.PRT_FC_CFG_STORM_MS n * 1000000 ≤ s.now :=
  ⟨{ State.reset.wr F.PRT_FC_CFG_STORM_MS 2 1 with now := 1000000, holds := [(holdKey 2 3, some {})] }, {}, 2, 3, ⟨by decide, by decide, by decide, by decide, by decide⟩⟩

theorem witness_timeAndPortRowsComplete_preemptEnableWrite :
    ∃ (s : State) (f : Nat) (n : Nat) (v : Nat), s.managedBy f ∧ n < 16 ∧ ¬bit v 31 :=
  ⟨State.reset, 0, 15, 0, ⟨by decide, by decide, by decide⟩⟩

theorem witness_timeAndPortRowsComplete_preemptVerifyFrame :
    ∃ (s : State) (n : Nat), s.rd F.PRT_PREEMPT_VERIFY_STATUS n = 1 ∧ (s.verify.get n).2 + s.rd F.PRT_PREEMPT_VERIFY_MS n * 1000000 ≤ s.now ∧ (s.verify.get n).1 < 3 :=
  ⟨{ State.reset.wr F.PRT_PREEMPT_VERIFY_STATUS 15 1 with now := 10 ^ 9 }, 15, ⟨by decide, by decide, by decide⟩⟩

theorem witness_timeAndPortRowsComplete_prtFecDegraded :
    ∃ (s : State) (n : Nat), n < 16 ∧ s.windowStart (Ev.PRT_FEC_DEGRADED n) + 1000000000 ≤ s.now :=
  ⟨{ State.reset with now := 10 ^ 10 }, 15, ⟨by decide, by decide⟩⟩

theorem witness_timeAndPortRowsComplete_counterOwnerCommit :
    ∃ (s : State) (fn : Nat) (v : Nat), s.managedBy fn ∧ ¬s.on F.GLB_COUNTER_OWNER_OWNER 0 ∧ v % 2 = 1 :=
  ⟨State.reset, 0, 1, ⟨by decide, by decide, by decide⟩⟩

theorem witness_timeAndPortRowsComplete_mgmtFrameRx :
    ∃ (s : State) (d : Bytes) (b : Bool), s.on F.PRT_MGMT_CFG_EN 0 ∧ s.on F.PRT_MGMT_CFG_LINK_UP 0 ∧ d.length + 4 < 64 :=
  ⟨(State.reset.wr F.PRT_MGMT_CFG_EN 0 1).wr F.PRT_MGMT_CFG_LINK_UP 0 1, [], false, ⟨by decide, by decide, by decide⟩⟩

theorem witness_timeAndPortRowsComplete_ncsiCommand :
    ∃ (s : State) (c : NcSiCmd) (n : NcSi), ((s.ncsi.ready = true ∨ ncsiFirst c)) ∧ s.ncsi.set c = some n :=
  ⟨State.reset, .clearInitialState, _, ⟨by first | decide | rfl | exact .inl (by decide) | exact .inr (by decide), by first | decide | rfl | exact .inl (by decide) | exact .inr (by decide)⟩⟩

theorem witness_timeAndPortRowsComplete_l2AgeVisit :
    ∃ (s : State) (k : Nat) (n : Nat), k < 4 ∧ s.visitDue k n (s.l2.any (fun e => e.1 / 524288 == k && e.2.valid && !e.2.static && decide ((s.sweeps.get k).next ≤ e.1 % 524288 ∧ e.1 % 524288 < n))) :=
  ⟨{ State.reset with now := 10 ^ 15, sweeps := [(3, { running := true, ageS := 1 })] }, 3, 0, ⟨by decide, by decide⟩⟩

theorem witness_timeAndPortRowsComplete_l2AgePassStart :
    ∃ (s : State) (k : Nat) (w : Sweep), w = s.sweeps.get k ∧ k < 4 ∧ w.running ∧ w.start + w.ageS * 1000000000 ≤ s.now :=
  ⟨{ State.reset with now := 10 ^ 9, sweeps := [(3, { running := true, ageS := 1 })] }, 3, _, ⟨rfl, by decide, by decide, by decide⟩⟩

theorem witness_timeAndPortRowsComplete_tblL2AgeEnWrite :
    ∃ (s : State) (f : Nat) (k : Nat) (v : Nat), s.managedBy f ∧ k < 4 :=
  ⟨State.reset, 0, 3, 0, ⟨by decide, by decide⟩⟩

theorem witness_timeAndPortRowsComplete_l2ReadCmd :
    ∃ (s : State) (f : Nat) (v : Nat), s.managedBy f :=
  ⟨State.reset, 0, 0, by decide⟩

theorem witness_timeAndPortRowsComplete_flowAgeVisit :
    ∃ (s : State) (k : Nat) (n : Nat), k < 2 ∧ s.visitDue (4 + k) n (s.flow.any (fun e => e.1 / 33554432 == k && e.2.valid && !e.2.static && decide ((s.sweeps.get (4 + k)).next ≤ e.1 % 33554432 ∧ e.1 % 33554432 < n))) :=
  ⟨{ State.reset with now := 10 ^ 15, sweeps := [(5, { running := true, ageS := 1 })] }, 1, 0, ⟨by decide, by decide⟩⟩

theorem witness_timeAndPortRowsComplete_launchTimeStart :
    ∃ (s : State) (q : Nat) (h : Nat) (l : Nat) (n : Nat) (p : Packet) (x : TxIo), n = s.queuePort q ∧ n < 16 ∧ s.pkts.filter (fun e => e.2.stage == .txCell n && e.2.queue == q) = [(h, p)] ∧ p.launch = some l ∧ (s.node 3 q).ltEn ∧ s.mayLeave n p ∧ s.onWire n = none ∧ s.on F.PRT_STATUS_LINK_UP n ∧ ¬s.isFenced (unitPort n) 0 ∧ s.txNow.getD (2 * n + 1) none = none :=
  ⟨ltState, 0, 1, 0, _, ltPkt, {}, ⟨rfl, by decide, by decide, by decide, by decide, by decide, by decide, by decide, by decide, by decide⟩⟩

theorem witness_timeAndPortRowsComplete_ovnAdcSample :
    ∃ (s : State) (c : Nat), (s.wr F.OVN_SENSE_CODE 0 (c % 65536)).ovenIs .settling :=
  ⟨State.reset.wr F.OVN_STATUS_STATE 0 2, 65535, by decide⟩

theorem witness_timeAndPortRowsComplete_preemptResponseRx :
    ∃ (s : State) (n : Nat), s.rd F.PRT_PREEMPT_VERIFY_STATUS n = 1 :=
  ⟨State.reset.wr F.PRT_PREEMPT_VERIFY_STATUS 15 1, 15, by decide⟩

theorem witness_timeAndPortRowsComplete_mgmtLinkUp :
    ∃ (s : State) (v : Nat), s.on F.PRT_MGMT_CFG_EN 0 ∧ ¬s.on F.PRT_MGMT_CFG_LINK_UP 0 :=
  ⟨State.reset.wr F.PRT_MGMT_CFG_EN 0 1, 0, ⟨by decide, by decide⟩⟩

theorem witness_timeAndPortRowsComplete_mgmtLinkDown :
    ∃ (s : State), s.on F.PRT_MGMT_CFG_LINK_UP 0 :=
  ⟨State.reset.wr F.PRT_MGMT_CFG_LINK_UP 0 1, by decide⟩

theorem witness_timeAndPortRowsComplete_ncsiPassthroughFrame :
    ∃ (s : State) (d : Bytes), s.on F.PRT_MGMT_CFG_EN 0 ∧ s.on F.PRT_MGMT_CFG_NCSI_EN 0 ∧ s.on F.PRT_MGMT_CFG_LINK_UP 0 ∧ s.ncsi.enabled ∧ s.ncsi.txEnabled :=
  ⟨{ ((State.reset.wr F.PRT_MGMT_CFG_EN 0 1).wr F.PRT_MGMT_CFG_NCSI_EN 0 1).wr F.PRT_MGMT_CFG_LINK_UP 0 1 with ncsi := { enabled := true, txEnabled := true } }, [], ⟨by decide, by decide, by decide, by decide, by decide⟩⟩

theorem witness_timeAndPortRowsComplete_flowAgePassStart :
    ∃ (s : State) (k : Nat) (w : Sweep), w = s.sweeps.get (4 + k) ∧ k < 2 ∧ w.running ∧ w.start + w.ageS * 1000000000 ≤ s.now :=
  ⟨{ State.reset with now := 10 ^ 9, sweeps := [(5, { running := true, ageS := 1 })] }, 1, _, ⟨rfl, by decide, by decide, by decide⟩⟩

theorem witness_frameRowsComplete_dispatch :
    ∃ (s : State) (k : Nat) (h : Nat) (t : Nat) (p : Packet), s.dispatchHead k = some h ∧ ¬s.noCluster k ∧ s.pkt h = some p ∧ s.nextThread k p.epoch = some t ∧ ¬s.isFenced (unitPipe k) 0 ∧ p.fromWire :=
  ⟨{ State.reset.wr F.BRW_CTRL_EN 0 1 with dispatchQ := [1], pkts := [(1, {})] }, 0, 1, 0, {}, ⟨by decide, by decide, by decide, by decide, by decide, by decide⟩⟩

theorem witness_frameRowsComplete_reorderRelease :
    ∃ (s : State) (h : Nat) (p : Packet), s.pkt h = some p ∧ p.stage = .verdict ∧ s.inOrder p ∧ s.enqueueCredit p.pipe 1 ∧ ¬s.isFenced (unitPipe p.pipe) 0 ∧ ¬bit p.verdict.word 59 ∧ ¬p.doomed ∧ 1 ≤ p.verdict.action ∧ p.verdict.action ≤ 5 ∧ ¬p.taken :=
  ⟨{ State.reset with pkts := [(1, { stage := .verdict, verdict := { action := 5 } })] }, 1, { stage := .verdict, verdict := { action := 5 } }, ⟨by decide, by decide, by decide, by decide, by decide, by decide, by decide, by decide, by decide, by decide⟩⟩

theorem witness_frameRowsComplete_deferredStage :
    ∃ (s : State) (h : Nat) (p : Packet) (b : Bool), s.pkt h = some p ∧ p.stage = .deferred ∧ s.enqueueCredit p.pipe (1 + b2n (bit p.verdict.word 59)) ∧ ¬p.deferred.any (fun d => d.unit != 0 && s.oflGated (s.servingGroup d.group)) ∧ ¬(b || p.badCell) :=
  ⟨{ State.reset with pkts := [(1, { stage := .deferred })] }, 1, { stage := .deferred }, false, ⟨by decide, by decide, by decide, by decide, by decide⟩⟩

theorem witness_frameRowsComplete_tmEnqueue :
    ∃ (s : State) (u : State) (h : Nat) (p : Packet), s.pkt h = some p ∧ p.stage = .toTm ∧ ¬s.coreStopped ∧ u = s.retire (.enqueue p.pipe) ∧ p.verdict.action = 4 :=
  ⟨toTm 4, _, 1, toTmPkt 4, ⟨by decide, by decide, by decide, rfl, by decide⟩⟩

theorem witness_frameRowsComplete_tmSchedule :
    ∃ (s : State) (k : Nat) (n : Nat), k < 4 ∧ n < 20 ∧ nodeHalf 0 n = k / 2 ∧ ¬s.isFenced (unitSlice k) 0 ∧ ¬s.coreStopped :=
  ⟨State.reset, 0, 3, ⟨by decide, by decide, by decide, by decide, by decide⟩⟩

theorem witness_frameRowsComplete_rxDma :
    ∃ (s : State) (h : Nat) (k : Nat) (p : Packet) (e : CacheEntry) (b : Bool), s.pkt h = some p ∧ p.stage = .rxDma k ∧ ¬p.badFcs ∧ (s.ring k).state = 1 ∧ (s.ring k).kind = 2 ∧ (s.fn (s.ring k).fn).bme ∧ s.mayStart (s.ring k).fn ∧ p.data.length ≤ (s.ring k).maxFrame ∧ (s.ring k).hold = [] ∧ s.buffer k = some e ∧ s.rxMiss k p e = none :=
  ⟨rxState, 1, rxKey 0, { stage := .rxDma (rxKey 0) }, { index := 0, bytes := [], epoch := 0, stamp := 0 }, false, ⟨by decide, by decide, by decide, by decide, by decide, by decide, by decide, by decide, by decide, by decide, by decide⟩⟩

theorem witness_frameRowsComplete_holdListDeliver :
    ∃ (s : State) (r : Nat) (h : Nat) (l : List Nat) (p : Packet) (e : CacheEntry) (b : Bool), (s.ring r).hold = h :: l ∧ s.pkt h = some p ∧ s.buffer r = some e ∧ ¬s.preqs.any (fun q => q.2.waiter == .rx r) ∧ s.rxMiss r p e = none :=
  ⟨{ rxState with rings := [(rxKey 0, { rxRun with hold := [1] }), (262144, cqRing)] }, rxKey 0, 1, [], { stage := .rxDma (rxKey 0) }, { index := 0, bytes := [], epoch := 0, stamp := 0 }, false, ⟨by decide, by decide, by decide, by decide, by decide⟩⟩

theorem witness_frameRowsComplete_rxHoldTimeout :
    ∃ (s : State) (h : Nat) (k : Nat) (p : Packet), s.pkt h = some p ∧ p.stage = .onHold k ∧ p.heldAt + (s.ring k).holdUs * 1000 ≤ s.now :=
  ⟨{ State.reset with pkts := [(1, { stage := .onHold 5 })] }, 1, 5, { stage := .onHold 5 }, ⟨by decide, by decide, by decide⟩⟩

theorem witness_frameRowsComplete_txBufferData :
    ∃ (s : State) (j : Nat) (b : Job) (buf : Bytes), s.job j = some b ∧ ¬b.produced ∧ (s.ring b.ring).kind = 1 ∧ s.oldestRead j b ∧ s.dataCredit b ∧ (s.takeRead (.buffer j)).2 ∧ b.gen = (s.takeRead (.buffer j)).1.rd F.HIF_FN_STATE_GEN b.func :=
  ⟨{ State.reset with rings := [(1, txRing)], jobs := [(6, { ring := 1 })] }, 6, { ring := 1 }, [], ⟨by decide, by decide, by decide, by decide, by decide, by decide, by decide⟩⟩

theorem witness_frameRowsComplete_hostAccessRequest :
    ∃ (s : State) (c : Nat) (m : ChanMsg) (y : HostReply), s.chan.find? (fun m => m.dest == 0x500 + c) = some m ∧ m.type = 1 ∧ ((s.accepted m).posted m).mayDma (bits (m.word 0) 27 16) ∧ 0 < bits (m.word 0) 15 0 ∧ bits (m.word 0) 15 0 ≤ 48 ∧ bit (m.word 0) 28 ∧ ¬bit (m.word 0) 29 ∧ y ≠ .xlateFault :=
  ⟨hostMsgState, 0, hostMsg, .poisoned, ⟨by decide, by decide, by decide, by decide, by decide, by decide, by decide, by decide⟩⟩

theorem witness_frameRowsComplete_supTimeout :
    ∃ (s : State) (t : Nat), t < 2048 ∧ (s.thread t).st = .parked ∧ ¬(s.thread t).escalated ∧ (s.thread t).faultAt + s.rd F.BRW_SUP_TIMEOUT_US (clusterOf t) * 1000 ≤ s.now :=
  ⟨{ State.reset with now := 10 ^ 12, threads := [(1023, { st := .parked })] }, 1023, ⟨by decide, by decide, by decide, by decide⟩⟩

theorem witness_frameRowsComplete_runLimitExpire :
    ∃ (s : State) (t : Nat), t < 2048 ∧ (s.thread t).pkt.isSome ∧ ((s.thread t).st = .ready ∨ (s.thread t).st = .stalled ∨ (s.thread t).st = .waiting) ∧ s.heldLong t :=
  ⟨{ State.reset with now := 10 ^ 12, threads := [(1023, { st := .ready, pkt := some 1 })] }, 1023, ⟨by decide, by decide, by decide, by decide⟩⟩

theorem witness_frameRowsComplete_allWait :
    ∃ (s : State) (c : Nat) (e : Nat), c < 16 ∧ 0 < e ∧ e < 8 ∧ ((s.allWaiting c e false ∨ s.allWaiting c e true)) :=
  ⟨{ State.reset with threads := (List.range 8).map (fun k => (64 * 15 + 56 + k, { st := .waiting, pkt := some 1 })), now := 10 ^ 12 }, 15, 7, ⟨by decide, by decide, by decide, by decide⟩⟩

theorem witness_frameRowsComplete_debugWindowWrite :
    ∃ (s : State) (f : Nat) (t : Nat) (o : Nat) (w : Width) (v : Nat), s.managedBy f :=
  ⟨State.reset, 0, 0, 0, .full, 0, by decide⟩

theorem witness_frameRowsComplete_csEccRepair :
    ∃ (s : State) (c : Nat) (b : Nat) (a : Nat) (p0 : Nat) (p1 : Nat) (i : Nat) (j : Nat), s.csBad.get (csKey c b a) ∧ a < 0x6000 ∧ s.repairEntry c 0 = some i ∧ s.repairEntry c 1 = some j ∧ s.patchFree c 0 p0 ∧ s.patchFree c 1 p1 :=
  ⟨{ State.reset with csBad := [(csKey 0 0 0x5FFF, true)] }, 0, 0, 0x5FFF, 0x6000, 0x7FFF, 28, 28, ⟨by decide, by decide, by decide, by decide, by decide, by decide⟩⟩

theorem witness_frameRowsComplete_oflDeferRequest :
    ∃ (s : State) (t : Nat) (h : Nat) (m : ChanMsg) (p : Packet), s.asksOffload t 0 m h p ∧ s.deferredCtx m.unit m.ctx m.func false = ST_OK ∧ p.deferred.length < 4 :=
  ⟨oflState (oflMsg 0x400 1 true), 5, 1, oflMsg 0x400 1 true, {}, ⟨by decide, by decide, by decide⟩⟩

theorem witness_frameRowsComplete_oflCheck :
    ∃ (s : State) (t : Nat) (h : Nat) (m : ChanMsg) (p : Packet), s.asksOffload t 1 m h p :=
  ⟨oflState (oflMsg 0x400 3 false), 5, 1, oflMsg 0x400 3 false, {}, by decide⟩

theorem witness_frameRowsComplete_espDecrypt :
    ∃ (s : State) (t : Nat) (h : Nat) (m : ChanMsg) (p : Packet) (b : Bool), s.asksOffload t 2 m h p ∧ ¬s.oflGated (s.groupOf m) ∧ ¬(b || p.badCell) :=
  ⟨oflState (oflMsg 0x401 2 false), 5, 1, oflMsg 0x401 2 false, {}, false, ⟨by decide, by decide, by decide⟩⟩

theorem witness_frameRowsComplete_oflGroupWake :
    ∃ (s : State) (g : Nat), g < 4 ∧ s.oflGated g ∧ s.groupWanted g :=
  ⟨{ (State.reset.wr F.OFL_GROUP_CTRL_GATED 0 1) with chan := [oflMsg 0x401 2 false] }, 0, ⟨by decide, by decide, by decide⟩⟩

theorem witness_frameRowsComplete_jobKeyCheck :
    ∃ (s : State) (j : Nat) (b : Job), s.jobWaiting j 1 = some b ∧ ¬s.oflGated (s.ring b.ring).pipe ∧ (s.jobKey b.entry b.func b.noCtx).1 = ST_OK :=
  ⟨{ jobState 1 with espSas := [(0, { state := 1 })] }, 6, jobOf 1, ⟨by decide, by decide, by decide⟩⟩

theorem witness_frameRowsComplete_jobBulkGcm :
    ∃ (s : State) (j : Nat) (b : Job) (y : HostReply), s.jobWaiting j 2 = some b ∧ ¬s.oflGated (s.ring b.ring).pipe ∧ (s.jobKey b.entry b.func b.noCtx).1 = ST_OK ∧ ¬bulkOverlap b.entry ∧ leAt b.entry 0x1C 2 ≤ leAt b.entry 8 4 % 2 ^ 25 :=
  ⟨{ jobState 2 with espSas := [(0, { state := 1 })] }, 6, jobOf 2, .timeout, ⟨by decide, by decide, by decide, by decide, by decide⟩⟩

theorem witness_frameRowsComplete_jobDigest :
    ∃ (s : State) (j : Nat) (b : Job) (y : HostReply), s.jobWaiting j 3 = some b :=
  ⟨jobState 3, 6, jobOf 3, .timeout, by decide⟩

theorem witness_frameRowsComplete_tmNodeAccess :
    ∃ (s : State) (u : State) (f : Nat) (v : Nat), s.managedBy f ∧ bit v 31 ∧ u = ((s.wr F.TM_NODE_CMD_WRITE 0 (bits v 30 30)).wr F.TM_NODE_CMD_LEVEL 0 (bits v 29 28)).wr F.TM_NODE_CMD_INDEX 0 (bits v 16 0) ∧ bits v 16 0 < nodeCount (bits v 29 28) ∧ bit v 30 ∧ ¬u.nodeRefused (bits v 29 28) (bits v 16 0) u.windowBytes :=
  ⟨winState, _, 0, 2 ^ 31 + 2 ^ 30 + 2 ^ 28 * 3 + 5, ⟨by decide, by decide, rfl, by decide, by decide, by decide⟩⟩

theorem witness_frameRowsComplete_tmObsCfgWrite :
    ∃ (s : State) (f : Nat) (v : Nat), s.managedBy f ∧ ((bit v 31 = true ∨ s.rd F.TM_OBS_QUEUES_ENABLED 0 ≤ 8192)) :=
  ⟨State.reset, 0, 2 ^ 31, ⟨by decide, by decide⟩⟩

theorem witness_frameRowsComplete_tmObsSample :
    ∃ (s : State), ¬s.on F.TM_OBS_CFG_MODE 0 ∧ s.obs.at_ ≠ some (s.time.ticks / 8000) :=
  ⟨State.reset, ⟨by decide, by decide⟩⟩

theorem witness_frameRowsComplete_tmQueueReload :
    ∃ (s : State) (q : Nat), isDefaultQueue q ∧ s.isFenced (unitObject 5) q ∧ (s.node 3 q).frames = [] :=
  ⟨{ State.reset with fenced := [(fenceKey (unitObject 5) 3, true)] }, 3, ⟨by decide, by decide, by decide⟩⟩

theorem witness_frameRowsComplete_gclChangeTime :
    ∃ (s : State) (n : Nat) (g : GateList), s.gclPending.getD n none = some g ∧ stampLe (s.val .GCL_CHANGE_TIME n) s.stamp :=
  ⟨{ State.reset with gclPending := [(2, some {})] }, 2, {}, ⟨by decide, by decide⟩⟩

theorem witness_frameRowsComplete_gateChange :
    ∃ (s : State) (n : Nat), n < 16 :=
  ⟨State.reset, 0, by decide⟩

theorem witness_frameRowsComplete_relDeviceWrite :
    ∃ (s : State) (f : Nat) (v : Nat), s.managedBy f ∧ ¬s.groupEnabled :=
  ⟨State.reset, 0, 0, ⟨by decide, by decide⟩⟩

theorem witness_frameRowsComplete_relCfgWrite :
    ∃ (s : State) (f : Nat) (v : Nat) (mib : Nat) (spill : Bool), s.managedBy f ∧ spill = (bit v 31 && s.on F.HBM_REGION_EN 5) ∧ mib = (if 4 ≤ bits v 6 0 ∧ bits v 6 0 ≤ 64 then bits v 6 0 else s.rd F.REL_CFG_CARAFE_MIB 0) ∧ s.val .REL_ADMITTED 0 ≤ s.capacityOf spill mib :=
  ⟨State.reset, 0, 8, _, _, ⟨by decide, rfl, rfl, by decide⟩⟩

theorem witness_frameRowsComplete_relEnqueue :
    ∃ (s : State) (u : State) (h : Nat) (g : Nat) (k : Nat) (e : Nat) (p : Packet), s.pkt h = some p ∧ p.stage = .toRelease ∧ s.sourceGroup p = some (g, k) ∧ s.destEntry ((s.groupsFor p.epoch).get g) p = some e ∧ s.police g k (((s.groupsFor p.epoch).get g).src.getD k 0) p.data.length = some u :=
  ⟨{ State.reset with pkts := [(1, { stage := .toRelease })], groupsOper := [(3, { en := true, src := [1], dst := [1] })] }, { State.reset with pkts := [(1, { stage := .toRelease })], groupsOper := [(3, { en := true, src := [1], dst := [1] })] }, 1, 3, 0, 1, { stage := .toRelease }, ⟨by decide, by decide, by decide, by decide, by decide⟩⟩

theorem witness_frameRowsComplete_relRelease :
    ∃ (s : State) (u : State) (h : Nat) (g : Nat) (p : Packet), u = s.returnDue.spill s.returnDue.pkts.length ∧ u.dueHead = some (h, p, g) ∧ (u.releaseNow h g).dueHead = none :=
  ⟨{ State.reset with pkts := [(1, { stage := .held 3 })] }, _, 1, 3, { stage := .held 3 }, ⟨rfl, by decide, by decide⟩⟩

theorem witness_frameRowsComplete_relSpillReturn :
    ∃ (s : State) (u : State) (h : Nat) (g : Nat) (p : Packet), s.pkt h = some p ∧ p.stage = .held g ∧ p.spilled ∧ u = s.setPkt h { p with spilled := false } :=
  ⟨{ State.reset with pkts := [(1, { stage := .held 3, spilled := true })] }, _, 1, 3, { stage := .held 3, spilled := true }, ⟨by decide, by decide, by decide, rfl⟩⟩

theorem witness_frameRowsComplete_stampFifoDrain :
    ∃ (s : State) (n : Nat) (e : StampEntry) (l : List StampEntry), s.stampFifo.get n = e :: l ∧ e.ring = none ∧ e.job = none ∧ ¬e.owned :=
  ⟨{ State.reset with stampFifo := [(0, [{ stampE with job := none }])] }, 0, { stampE with job := none }, [], ⟨by decide, by decide, by decide, by decide⟩⟩

theorem witness_frameRowsComplete_stampGapRecord :
    ∃ (s : State) (n : Nat), 0 < (s.stampLoss.get n).count ∧ stampLe (((s.stampLoss.get n).told + 8000000) % W64) s.stamp :=
  ⟨{ State.reset with time := { sec := 1 }, stampLoss := [(2, { count := 3 })] }, 2, ⟨by decide, by decide⟩⟩

theorem witness_frameRowsComplete_jnlCtrlWrite :
    ∃ (s : State) (f : Nat) (v : Nat), s.managedBy f ∧ ¬s.on F.JNL_CTRL_EN 0 :=
  ⟨State.reset, 0, 0, ⟨by decide, by decide⟩⟩

theorem witness_frameRowsComplete_jnlConsWrite :
    ∃ (s : State) (f : Nat) (v : Nat), s.managedBy f ∧ ixSub (s.val .JNL_PROD 0) (v % 2 ^ 32) ≤ s.jnlSize :=
  ⟨State.reset, 0, 0, ⟨by decide, by decide⟩⟩

theorem witness_frameRowsComplete_jnlRecordCommit :
    ∃ (s : State) (r : JRec) (l : List JRec), s.journal.backlog = r :: l ∧ s.jnlWriting ∧ ¬s.journal.faulted ∧ s.jnlHeld < s.jnlSize :=
  ⟨jnlState, { kind := 4, body := [] }, [], ⟨by decide, by decide, by decide, by decide⟩⟩

theorem witness_frameRowsComplete_jnlCheckpoint :
    ∃ (s : State) (h : Bytes), s.journal.head = some h ∧ ((65536 ≤ s.journal.sinceCkpt ∨ stampLe ((s.journal.ckptAt + 8000000000) % W64) s.stamp)) ∧ s.on F.JNL_STATUS_SIGNER_OK 0 :=
  ⟨{ (State.reset.wr F.JNL_STATUS_SIGNER_OK 0 1) with time := { sec := 2 }, journal := { head := some [1] } }, [1], ⟨by decide, by decide, by decide⟩⟩

theorem witness_frameRowsComplete_jnlSignatureDone :
    ∃ (s : State) (q : Nat) (w : Nat) (sig : Bytes) (l : List (Nat × Nat × Bytes)), s.journal.signing = (q, w, sig) :: l :=
  ⟨{ State.reset with journal := { signing := [(1, 0, [])] } }, 1, 0, [], [], by decide⟩

theorem witness_frameRowsComplete_jnlDigestClose :
    ∃ (s : State) (j : _) (r : Nat) (rx : Bool), s.jrings.getD (jringKey r rx) none = some j ∧ ¬j.entries.isEmpty ∧ ((4096 ≤ j.entries.length ∨ stampLe ((j.since + 8000000) % W64) s.stamp)) :=
  ⟨{ State.reset with time := { sec := 1 }, jrings := [(5, some { entries := [[1]] })] }, { entries := [[1]] }, 5, false, ⟨by decide, by decide, by decide⟩⟩

theorem witness_frameRowsComplete_jnlClockRecord :
    ∃ (s : State) (c : Nat), s.tsu.clockDue.contains c :=
  ⟨{ State.reset with tsu := { clockDue := [2] } }, 2, by decide⟩

theorem witness_frameRowsComplete_frerRxDecision :
    ∃ (s : State) (u : State) (h : Nat) (c : Nat) (n : Nat) (p : Packet), c = p.memberCtx ∧ u = s.memberSeen ((p.member.map (·.1)).getD 0) (shortOf p.stamp) ∧ s.pkt h = some p ∧ p.stage = .frer ∧ s.frerBefore p = [] ∧ (s.ctx c).kind = 2 ∧ ¬u.isFenced (unitObject 6) c ∧ (rTag p.data).map (·.2) = some n :=
  ⟨{ State.reset with pkts := [(1, frerTagged)], members := [(5, frerMember)], frer := [(7, { cfg := [2] })] }, _, 1, _, 9, frerTagged, ⟨rfl, rfl, by decide, by decide, by decide, by decide, by decide, by decide⟩⟩

theorem witness_frameRowsComplete_frerRecoveryTimeout :
    ∃ (s : State) (c : Nat) (t : Nat), (s.ctx c).passedAt = some t ∧ ((s.ctx c).kind = 2 ∨ (s.ctx c).kind = 3) ∧ t + (s.ctx c).resetMs * 1000000 ≤ s.now :=
  ⟨{ State.reset with now := 10 ^ 9, frer := [(7, { cfg := [2], passedAt := some 0 })] }, 7, 0, ⟨by decide, by decide, by decide⟩⟩

theorem witness_frameRowsComplete_frerMmPop :
    ∃ (s : State) (f : Nat) (v : Nat), s.managedBy f ∧ bit v 31 :=
  ⟨State.reset, 0, 2 ^ 31, ⟨by decide, by decide⟩⟩

theorem witness_frameRowsComplete_mirFloorLapse :
    ∃ (s : State) (g : Nat) (f : Nat), s.mir.floors.getD g none = some f ∧ ¬stampLe s.stamp ((f + 8 * (s.groupsOper.get g).delay) % W64) :=
  ⟨{ State.reset with time := { sec := 1 }, mir := { floors := [(2, some 5)] } }, 2, 5, ⟨by decide, by decide⟩⟩

theorem witness_frameRowsComplete_qmSqDb :
    ∃ (s : State) (k : Nat) (f : Nat) (g : Nat) (v : Nat) (w : Width), s.onPage f g = some k ∧ w ≠ .high ∧ (s.ring k).submits ∧ s.bar0Open f :=
  ⟨{ State.reset with rings := [(1, txRing)] }, 1, 0, 0, 0, .full, ⟨by decide, by decide, by decide, by decide⟩⟩

theorem witness_frameRowsComplete_pushSlotWrite :
    ∃ (s : State) (k : Nat) (fn : Nat) (g : Nat) (slot : Nat) (o : Nat) (d : Bytes), s.onPage fn g = some k ∧ ((s.ring k).kind = 1 ∨ (s.ring k).kind = 4) ∧ s.bar0Open fn ∧ slot < 4 ∧ o < 8 ∧ d.length = 8 :=
  ⟨{ State.reset with rings := [(1, txRing)] }, 1, 0, 0, 1, 2, List.replicate 8 7, ⟨by decide, by decide, by decide, by decide, by decide, by decide⟩⟩

theorem witness_frameRowsComplete_qmCqDb :
    ∃ (s : State) (k : Nat) (f : Nat) (g : Nat) (v : Nat) (w : Width), s.onPage f g = some k ∧ w ≠ .high ∧ s.bar0Open f ∧ (s.ring k).kind = 3 :=
  ⟨{ State.reset with rings := [(262144, cqRing)] }, 262144, 0, 0, 0, .full, ⟨by decide, by decide, by decide, by decide⟩⟩

theorem witness_frameRowsComplete_descFetchComplete :
    ∃ (s : State) (r : Nat) (i : Nat) (n : Nat) (b : Bytes), (s.ring r).fetching = some (i, n) ∧ (s.ring r).state = 1 ∧ (s.takeRead (.fetch r)).2 :=
  ⟨fetchState, 1, 0, 1, [], ⟨by decide, by decide, by decide⟩⟩

theorem witness_frameRowsComplete_txJobStart :
    ∃ (s : State) (e : CacheEntry) (r : Nat), s.startable r = some e :=
  ⟨startState, { index := 0, bytes := [], epoch := 0, stamp := 0 }, 1, by decide⟩

theorem witness_frameRowsComplete_completionWrite :
    ∃ (s : State) (r : Nat) (c : Cpl), s.ready.find? (fun c => c.target == r) = some c ∧ (s.ring r).state = 1 :=
  ⟨{ State.reset with ready := [{ target := 262144 }], rings := [(262144, cqRing)] }, 262144, { target := 262144 }, ⟨by decide, by decide⟩⟩

theorem witness_frameRowsComplete_cqCoalesceExpire :
    ∃ (s : State) (r : Nat) (t : Nat), (s.ring r).firstCoal = some t ∧ (s.ring r).armed ∧ t + (s.ring r).coalUs * 1000 ≤ s.now :=
  ⟨{ State.reset with rings := [(262144, { cqRing with armed := true, firstCoal := some 0 })] }, 262144, 0, ⟨by decide, by decide, by decide⟩⟩

theorem witness_frameRowsComplete_headStatusWrite :
    ∃ (s : State) (r : Nat), (s.ring r).state ≠ 0 ∧ (s.ring r).isHead ∧ (s.ring r).kind = 1 ∧ (s.ring r).oldest ≠ (s.ring r).headShown ∧ (s.ring r).headDue s.now :=
  ⟨{ State.reset with rings := [(1, { txRing with ctx := leBytes 8 0 ++ leBytes 4 (2 ^ 9 + 1), oldest := 1 })] }, 1, ⟨by decide, by decide, by decide, by decide, by decide⟩⟩

theorem witness_frameRowsComplete_tmDelayAlarm :
    ∃ (s : State) (q : Nat), q < 65536 ∧ (s.node 3 q).alarmUs ≠ 0 ∧ (s.node 3 q).alarmUs * 1000 ≤ s.headDelay q ∧ (s.node 3 q).frames ≠ [] :=
  ⟨alarmState, 5, ⟨by decide, by decide, by decide, by decide⟩⟩

theorem witness_microcodeRowsComplete_memResultArrive :
    ∃ (s : State) (p : Pending) (t : Nat), (s.thread t).pend.find? (fun p => !p.table) = some p ∧ ¬p.bad :=
  ⟨pend0 false, { dests := [5], values := [7] }, 0, ⟨by decide, by decide⟩⟩

theorem witness_microcodeRowsComplete_tblResultArrive :
    ∃ (s : State) (p : Pending) (t : Nat), (s.thread t).pend.find? (fun p => p.table) = some p :=
  ⟨pend0 true, { dests := [5], values := [7], table := true }, 0, by decide⟩

theorem witness_microcodeRowsComplete_channelPost :
    ∃ (s : State) (t : Nat), s.canIssue t ∧ ¬s.stale (s.thread t) ∧ ¬(s.thread t).postBad t ∧ s.chanCredit t (bits (s.thread t).stageHdr 63 48) :=
  ⟨ready0, 0, ⟨by decide, by decide, by decide, by decide⟩⟩

theorem witness_microcodeRowsComplete_inboxMessageArrive :
    ∃ (s : State) (m : _) (t : Nat), s.chan.find? (fun m => decide (m.dest ≤ 0x3FF) && s.receiver m == t && (m.type == 3 || decide ((s.thread t).load < 4))) = some m :=
  ⟨{ State.reset with chan := [{}] }, {}, 0, by decide⟩

theorem witness_microcodeRowsComplete_inboxPop :
    ∃ (s : State) (t : Nat), s.canIssue t :=
  ⟨ready0, 0, by decide⟩

theorem witness_microcodeRowsComplete_signal :
    ∃ (s : State) (t : Nat) (v : Nat), s.canIssue t :=
  ⟨ready0, 0, 0, by decide⟩

theorem witness_microcodeRowsComplete_eventClr :
    ∃ (s : State) (t : Nat) (v : Nat), s.canIssue t :=
  ⟨ready0, 0, 0, by decide⟩

theorem witness_microcodeRowsComplete_fenceMessage :
    ∃ (s : State) (m : _) (c : Nat), s.chan.find? (fun m => m.dest == 0xC00 && clusterOf m.src == c) = some m :=
  ⟨{ State.reset with chan := [{ header := 2 ^ 48 * 0xC00 + 2 ^ 32 * 70 }] }, { header := 2 ^ 48 * 0xC00 + 2 ^ 32 * 70 }, 1, by decide⟩

theorem witness_microcodeRowsComplete_threadTimerFire :
    ∃ (s : State) (t : Nat), t < 2048 ∧ (s.thread t).ops.get 93 ≠ 0 ∧ ¬(s.thread t).timerDone ∧ (s.stamp + W64 - (s.thread t).ops.get 93) % W64 < 2 ^ 63 :=
  ⟨{ State.reset with time := { sec := 10 }, threads := [(0, { ops := [(93, 5)] })] }, 0, ⟨by decide, by decide, by decide, by decide⟩⟩

theorem witness_hostAndPlatformRowsComplete_registerWrite :
    ∃ (s : State) (f : Nat) (o : Nat) (z : Nat) (v : Nat), s.managedBy f :=
  ⟨onS, 0, 0, 0, 0, by decide⟩

theorem witness_hostAndPlatformRowsComplete_lowWordRead :
    ∃ (s : State) (o : Nat), s.supply.power = .on ∧ ¬s.recovery ∧ mayManage s.manager :=
  ⟨onS, 0, ⟨by decide, by decide, by decide⟩⟩

theorem witness_hostAndPlatformRowsComplete_creditStall :
    ∃ (s : State) (kind : QueueKind) (i : Nat) (q : WatchedQueue), q = watchedQueue kind i ∧ s.on F.GLB_CREDIT_WDOG_EN 0 ∧ queueListed q ∧ ¬s.isFenced (queueUnit q) 0 ∧ s.stalls q :=
  ⟨{ State.reset.wr F.GLB_CREDIT_WDOG_EN 0 1 with now := 10 ^ 9 }, .dieLink, 0, _, rfl, by decide, by decide, by decide, by decide⟩

theorem witness_hostAndPlatformRowsComplete_fenceNotice :
    ∃ (s : State) (t : State) (u : Nat) (o : Nat), s.isFenced u o ∧ t = s.each (s.queuedTo u o) (fun h t => t.discardQueued u h) :=
  ⟨{ State.reset with fenced := [(fenceKey (unitPort 0) 0, true)] }, _, unitPort 0, 0, by decide, rfl⟩

theorem witness_hostAndPlatformRowsComplete_epochCommitted :
    ∃ (s : State) (sh : Shadow), s.shadow = some sh ∧ s.on F.GLB_EPOCH_STATUS_ARMED 0 ∧ stampLe (s.val .GLB_EPOCH_COMMIT_TIME 0) s.stamp :=
  ⟨{ State.reset.wr F.GLB_EPOCH_STATUS_ARMED 0 1 with shadow := some {} }, {}, ⟨by decide, by decide, by decide⟩⟩

theorem witness_hostAndPlatformRowsComplete_epochDrained :
    ∃ (s : State), s.on F.GLB_EPOCH_STATUS_DRAINING 0 ∧ ¬s.oldHeld :=
  ⟨State.reset.wr F.GLB_EPOCH_STATUS_DRAINING 0 1, ⟨by decide, by decide⟩⟩

theorem witness_hostAndPlatformRowsComplete_mirPeriodicSend :
    ∃ (s : State), s.mirRole = 1 ∧ s.mir.periodAt + 1000000 ≤ s.now :=
  ⟨mirS 1, ⟨by decide, by decide⟩⟩

theorem witness_hostAndPlatformRowsComplete_mirMessageRx :
    ∃ (s : State) (m : Bytes), 2 ≤ s.mirRole ∧ leAt m 0 1 = 1 ∧ beAt m 2 2 = s.rd F.MIR_CTRL_PEER 0 ∧ beAt m 4 4 = s.mir.pair ∧ 16 ≤ m.length :=
  ⟨mirS 2, [1, 1] ++ List.replicate 14 0, ⟨by decide, by decide, by decide, by decide, by decide⟩⟩

theorem witness_hostAndPlatformRowsComplete_mirPeerSilent :
    ∃ (s : State), 2 ≤ s.mirRole ∧ ¬s.mir.silent ∧ s.mir.rxAt + 10000000 ≤ s.now :=
  ⟨mirS 2, ⟨by decide, by decide, by decide⟩⟩

theorem witness_hostAndPlatformRowsComplete_hifLinkUp :
    ∃ (s : State) (n : Nat) (l : Nat) (x : Nat) (y : Bool), s.linkExists n l ∧ ¬(s.hlinks.get (2 * n + l)).up ∧ ¬s.perst.get n ∧ ¬(decide (x < 2) || (y && !s.bifurcated.get n)) :=
  ⟨{ State.reset with perst := [] }, 1, 0, 3, false, ⟨by decide, by decide, by decide, by decide⟩⟩

theorem witness_hostAndPlatformRowsComplete_hifLinkDown :
    ∃ (s : State) (n : Nat) (l : Nat), s.linkExists n l ∧ (s.hlinks.get (2 * n + l)).up :=
  ⟨{ State.reset with hlinks := [(0, { up := true })] }, 0, 0, ⟨by decide, by decide⟩⟩

theorem witness_hostAndPlatformRowsComplete_perstAssert :
    ∃ (s : State) (n : Nat), n < 2 ∧ ¬s.perst.get n :=
  ⟨State.reset, 0, ⟨by decide, by decide⟩⟩

theorem witness_hostAndPlatformRowsComplete_hifHotReset :
    ∃ (s : State) (n : Nat) (l : Nat), s.linkExists n l :=
  ⟨State.reset, 0, 0, by decide⟩

theorem witness_hostAndPlatformRowsComplete_perstDeassert :
    ∃ (s : State) (n : Nat), n < 2 ∧ s.perst.get n :=
  ⟨{ State.reset with perst := State.reset.perst.set 0 true }, 0, ⟨by decide, by decide⟩⟩

theorem witness_hostAndPlatformRowsComplete_bmeClear :
    ∃ (s : State) (f : Nat), (s.fn f).bme :=
  ⟨{ State.reset with fns := [(0, { bme := true })] }, 0, by decide⟩

theorem witness_hostAndPlatformRowsComplete_bmeSet :
    ∃ (s : State) (f : Nat), f < 2052 :=
  ⟨State.reset, 0, by decide⟩

theorem witness_hostAndPlatformRowsComplete_vfEnableWrite :
    ∃ (s : State) (pf : Nat) (on : Bool) (num : Nat), pf < 4 ∧ (s.fn pf).vfEnable ≠ on :=
  ⟨State.reset, 0, true, 0, ⟨by decide, by decide⟩⟩

theorem witness_hostAndPlatformRowsComplete_atsEnableClear :
    ∃ (s : State) (f : Nat), (s.fn f).ats :=
  ⟨{ State.reset with fns := [(0, { ats := true })] }, 0, by decide⟩

theorem witness_hostAndPlatformRowsComplete_pasidEnableClear :
    ∃ (s : State) (f : Nat), (s.fn f).pasidEn :=
  ⟨{ State.reset with fns := [(0, { pasidEn := true })] }, 0, by decide⟩

theorem witness_hostAndPlatformRowsComplete_dStateChange :
    ∃ (s : State) (f : Nat) (d3 : Bool), f < 2052 ∧ (s.fn f).d3 ≠ d3 :=
  ⟨State.reset, 0, true, ⟨by decide, by decide⟩⟩

theorem witness_hostAndPlatformRowsComplete_msixUnmask :
    ∃ (s : State) (f : Nat) (on : Bool), f < 2052 :=
  ⟨State.reset, 0, false, by decide⟩

theorem witness_hostAndPlatformRowsComplete_flrStart :
    ∃ (s : State) (f : Nat), s.fnExists f :=
  ⟨State.reset, 0, by decide⟩

theorem witness_hostAndPlatformRowsComplete_flrEngineAck :
    ∃ (s : State) (t : State) (r : Flr) (f : Nat) (n : Nat), s.flr.getD f none = some r ∧ n < flrEngines ∧ s.flrDiscard f n = some t :=
  ⟨{ State.reset with flr := [(0, some {})] }, { State.reset with flr := [(0, some {})] }, {}, 0, 0, ⟨by decide, by decide, by decide⟩⟩

theorem witness_hostAndPlatformRowsComplete_fnFlrSlow :
    ∃ (s : State) (f : Nat) (r : Flr), s.flr.getD f none = some r ∧ r.since + 100000000 ≤ s.now :=
  ⟨{ State.reset with flr := [(0, some {})], now := 100000000 }, 0, {}, by decide, by decide⟩

theorem witness_hostAndPlatformRowsComplete_evtPendW1c :
    ∃ (s : State) (f : Nat) (w : Nat) (v : Nat), f < 4 ∧ w < 18 ∧ s.bar0Open f :=
  ⟨State.reset, 0, 0, 0, ⟨by decide, by decide, by decide⟩⟩

theorem witness_hostAndPlatformRowsComplete_evtFnW1c :
    ∃ (s : State) (f : Nat) (v : Nat), f < 2052 ∧ s.bar0Open f ∧ v % 64 ≠ 0 :=
  ⟨State.reset, 0, 1, ⟨by decide, by decide, by decide⟩⟩

theorem witness_hostAndPlatformRowsComplete_translationCompletion :
    ∃ (s : State) (req : Nat) (n : Nat) (b : Nat) (z : Nat) (size : Nat) (q : XReq) (rd : Bool) (wr : Bool), s.xreqs.find? (fun e => e.1 == req && decide (e.1 < 16384)) = some (n, q) ∧ s.now < q.since + q.us * 1000 ∧ ¬q.tainted ∧ (if q.write then wr else rd) = true :=
  ⟨{ State.reset with xreqs := [(4, xq0)] }, 4, 4, 0, 0, 0, xq0, false, true, ⟨by decide, by decide, by decide, by decide⟩⟩

theorem witness_hostAndPlatformRowsComplete_invalidateRequest :
    ∃ (s : State) (n : Nat) (g : Nat) (f : Nat) (b : Nat) (z : Nat) (i : Option Nat), n < 2 ∧ (s.invals.filter (fun v => v.port == n)).length < 32 :=
  ⟨State.reset, 0, 0, 0, 0, 0, none, ⟨by decide, by decide⟩⟩

theorem witness_hostAndPlatformRowsComplete_invalidateComplete :
    ∃ (s : State) (n : Nat) (v : Inval), s.invals.find? (fun v => v.port == n) = some v ∧ ¬v.reads.any (fun k => s.reads.any (fun e => e.1 == k)) ∧ s.now ≤ v.since + 1000000 :=
  ⟨{ State.reset with invals := [inv0] }, 0, inv0, ⟨by decide, by decide, by decide⟩⟩

theorem witness_hostAndPlatformRowsComplete_pageResponse :
    ∃ (s : State) (f : Nat) (i : Nat) (n : Nat) (q : PReq), f < 2052 ∧ s.preqs.find? (fun e => e.1 == i && e.2.fn == f && e.2.sent) = some (n, q) :=
  ⟨{ State.reset with preqs := [(3, pq0)] }, 0, 3, 3, pq0, ⟨by decide, by decide⟩⟩

theorem witness_hostAndPlatformRowsComplete_priResponseTimeout :
    ∃ (s : State) (i : Nat) (n : Nat) (q : PReq), s.preqs.find? (fun e => e.1 == i && e.2.sent) = some (n, q) ∧ q.since + s.rd F.HIF_PRI_TIMEOUT_MS (s.hostPort q.fn) * 1000000 ≤ s.now :=
  ⟨{ State.reset with now := 10 ^ 12, preqs := [(3, pq0)] }, 3, 3, pq0, ⟨by decide, by decide⟩⟩

theorem witness_hostAndPlatformRowsComplete_hostReadCompletion :
    ∃ (s : State) (port : Nat) (g : Nat) (n : Nat) (q : HostRead) (y : HostReply), s.readOf port g = some (n, q) ∧ ¬s.partLate q g :=
  ⟨{ State.reset with reads := [(9, hr0)] }, 0, 9, 9, hr0, .timeout, ⟨by decide, by decide⟩⟩

theorem witness_hostAndPlatformRowsComplete_cplTimeoutExpire :
    ∃ (s : State) (g : Nat) (n : Nat) (q : HostRead), (s.readOf 0 g).orElse (fun _ => s.readOf 1 g) = some (n, q) ∧ s.partLate q g :=
  ⟨{ State.reset with now := 10 ^ 12, reads := [(9, hr0)] }, 9, 9, hr0, ⟨by decide, by decide⟩⟩

theorem witness_hostAndPlatformRowsComplete_adminEntryTake :
    ∃ (s : State) (f : Nat) (b : Bytes) (x : HostReply), s.nextTurn (s.coreOf f) = some (2 * f + 1) ∧ b.length = 128 ∧ ¬s.eciFenced f (leAt b 0 2) ∧ eciListed (leAt b 0 2) s.recovery ∧ ¬mailboxOnly (leAt b 0 2) ∧ leAt b 3 1 = 0 ∧ leAt b 6 2 = 0 ∧ leAt b 0x18 8 = 0 ∧ leAt b 8 8 = 0 ∧ leAt b 2 1 ≤ 24 :=
  ⟨admS, 0, admB, .data [], by decide, by decide, by decide, by decide, by decide, by decide, by decide, by decide, by decide, by decide⟩

theorem witness_hostAndPlatformRowsComplete_mbxCmdWrite :
    ∃ (s : State) (f : Nat) (v : Nat), f < 2052 ∧ s.bar0Open f :=
  ⟨State.reset, 0, 0, ⟨by decide, by decide⟩⟩

theorem witness_hostAndPlatformRowsComplete_cmdAccept :
    ∃ (s : State) (f : Nat), s.nextTurn (s.coreOf f) = some (2 * f) ∧ ¬s.eciFenced f (s.rd F.MBX_CMD_CODE f) ∧ eciListed (s.rd F.MBX_CMD_CODE f) s.recovery :=
  ⟨{ State.reset.wr F.DB_TO_FW_CMD 0 1 with mbox := [(0, { us := 1 })], fwUp := true }, 0, by decide, by decide, by decide⟩

theorem witness_hostAndPlatformRowsComplete_mbxAckTimeout :
    ∃ (s : State) (f : Nat), s.on F.MBX_STATUS_BUSY f ∧ (s.mb f).at_ + (s.mb f).us * 1000 ≤ s.now :=
  ⟨State.reset.wr F.MBX_STATUS_BUSY 0 1, 0, ⟨by decide, by decide⟩⟩

theorem witness_hostAndPlatformRowsComplete_dbFromFwW1c :
    ∃ (s : State) (f : Nat) (v : Nat), f < 2052 ∧ s.bar0Open f :=
  ⟨State.reset, 0, 0, ⟨by decide, by decide⟩⟩

theorem witness_hostAndPlatformRowsComplete_dbFromFwMaskWrite :
    ∃ (s : State) (f : Nat) (v : Nat), f < 2052 ∧ s.bar0Open f :=
  ⟨State.reset, 0, 0, ⟨by decide, by decide⟩⟩

theorem witness_hostAndPlatformRowsComplete_dbToFwReady :
    ∃ (s : State) (f : Nat) (v : Nat), f < 2052 ∧ s.bar0Open f :=
  ⟨State.reset, 0, 0, ⟨by decide, by decide⟩⟩

theorem witness_hostAndPlatformRowsComplete_dbToFwUnload :
    ∃ (s : State) (f : Nat) (v : Nat), f < 2052 ∧ s.bar0Open f :=
  ⟨State.reset, 0, 0, ⟨by decide, by decide⟩⟩

theorem witness_hostAndPlatformRowsComplete_driverAbsent :
    ∃ (s : State) (f : Nat) (k : Nat) (t : Nat), (k, some t) ∈ (s.mb f).setAt ∧ t + s.rd F.MBX_TIMEOUT_US f * 1000 ≤ s.now ∧ ¬(s.mb f).absent :=
  ⟨{ State.reset.wr F.MBX_TIMEOUT_US 0 0 with mbox := [(0, { setAt := [(1, some 0)] })] }, 0, 1, 0, ⟨by decide, by decide, by decide⟩⟩

theorem witness_hostAndPlatformRowsComplete_fwRestart :
    ∃ (s : State), s.fwUp :=
  ⟨upS, by decide⟩

theorem witness_hostAndPlatformRowsComplete_fwWatchdog :
    ∃ (s : State) (core : Nat), core < 4 ∧ s.fwUp :=
  ⟨upS, 0, ⟨by decide, by decide⟩⟩

theorem witness_hostAndPlatformRowsComplete_longCommandComplete :
    ∃ (s : State) (t : State) (l : LongCmd) (f : Nat) (n : Nat) (io : LongIo) (w : List Nat), s.longs.getD f none = some l ∧ l.final = none ∧ s.longBody f l.cmd io = .done t n w :=
  ⟨longS, longS, { cmd := { code := 0x0203, words := [2 ^ 31] } }, 0, RC_OK, {}, [], ⟨by first | decide | rfl | exact .inl (by decide) | exact .inr (by decide), by first | decide | rfl | exact .inl (by decide) | exact .inr (by decide), by first | decide | rfl | exact .inl (by decide) | exact .inr (by decide)⟩⟩

theorem witness_hostAndPlatformRowsComplete_quiescePendingTimeout :
    ∃ (s : State) (l : LongCmd) (g : Nat) (f : Nat), (g, some l) ∈ s.longs ∧ l.final = none ∧ l.cmd.code = 0x0203 ∧ l.cmd.words.getD 0 0 = f ∧ l.since + 100000000 ≤ s.now ∧ s.rd F.HIF_FN_STATE_STATE f = 2 :=
  ⟨{ State.reset.wr F.HIF_FN_STATE_STATE 0 2 with longs := [(0, some { path := .mailbox, cmd := eciCmd 0x0203 [0] })], now := 100000000 }, { path := .mailbox, cmd := eciCmd 0x0203 [0] }, 0, 0, ⟨by decide, by decide, by decide, by decide, by decide, by decide⟩⟩

theorem witness_hostAndPlatformRowsComplete_hifMigConsWrite :
    ∃ (s : State) (f : Nat) (o : Nat) (v : Nat), s.managedBy f ∧ o < 64 :=
  ⟨State.reset, 0, 0, 0, ⟨by decide, by decide⟩⟩

theorem witness_hostAndPlatformRowsComplete_recoveryFlashRelease :
    ∃ (s : State), s.flashHolder.isSome ∧ s.flashAt + 60000000000 ≤ s.now :=
  ⟨{ State.reset with flashHolder := some 0, now := 60000000000 }, ⟨by decide, by decide⟩⟩

theorem witness_hostAndPlatformRowsComplete_dbgHalt :
    ∃ (s : State) (p : List Nat), s.jtagTakes (threadCluster p) 0x0B00 [low 10 + 2 ^ 31] p :=
  ⟨(migGrant : State).wr F.BRW_DBG_CTL_JTAG_OWNS 0 1, [5], by decide⟩

theorem witness_hostAndPlatformRowsComplete_dbgResume :
    ∃ (s : State) (p : List Nat), s.jtagTakes (threadCluster p) 0x0B01 [low 10 + 2 ^ 31] p :=
  ⟨(migGrant : State).wr F.BRW_DBG_CTL_JTAG_OWNS 0 1, [5], by decide⟩

theorem witness_hostAndPlatformRowsComplete_dbgStep :
    ∃ (s : State) (p : List Nat) (t : Nat), s.jtagTakes (threadCluster p) 0x0B02 [low 10] p ∧ (s.threadsNamed p).find? (fun k => (s.thread k).st == .halted) = some t :=
  ⟨({ migGrant with threads := [(5, { st := .halted })] } : State).wr F.BRW_DBG_CTL_JTAG_OWNS 0 1, [5], 5, ⟨by decide, by decide⟩⟩

theorem witness_hostAndPlatformRowsComplete_dbgAbort :
    ∃ (s : State) (p : List Nat), s.jtagTakes (threadCluster p) 0x0B03 [low 10] p :=
  ⟨({ migGrant with threads := [(5, { st := .halted })] } : State).wr F.BRW_DBG_CTL_JTAG_OWNS 0 1, [5], by decide⟩

theorem witness_hostAndPlatformRowsComplete_dbgBpSet :
    ∃ (s : State) (p : List Nat) (ix : Nat), s.jtagTakes (clusterNamed p) 0x0B04 [low 6 + 2 ^ 31, low 16, W32, W32] p ∧ ix = 4 * bits (p.getD 0 0) 3 0 + bits (p.getD 0 0) 5 4 :=
  ⟨(migGrant : State).wr F.BRW_DBG_CTL_JTAG_OWNS 0 1, [0, 5, 1, 0], _, ⟨by decide, rfl⟩⟩

theorem witness_hostAndPlatformRowsComplete_dbgSoftBp :
    ∃ (s : State) (p : List Nat), s.jtagTakes (clusterNamed p) 0x0B05 [low 4 + 2 ^ 31] p :=
  ⟨(migGrant : State).wr F.BRW_DBG_CTL_JTAG_OWNS 0 1, [2 ^ 31], by decide⟩

theorem witness_hostAndPlatformRowsComplete_cpyGo :
    ∃ (s : State) (u : State) (f : Nat) (ch : Nat) (v : Nat), u = s.wr F.CPY_CH_CTRL_FROM_HEAD ch (bits (putBits v 31 31 1) 29 29) ∧ s.managedBy f ∧ ch < 1024 ∧ ¬bit (putBits v 31 31 1) 30 ∧ u.cpyState ch = 0 ∧ ¬u.cpyRefused ch ∧ ¬u.on F.CPY_CH_CTRL_FROM_HEAD ch :=
  ⟨cpyReady, _, 0, 0, 0, ⟨rfl, by decide, by decide, by decide, by decide, by decide, by decide⟩⟩

theorem witness_hostAndPlatformRowsComplete_cpyStop :
    ∃ (s : State) (u : State) (f : Nat) (ch : Nat) (v : Nat), u = s.wr F.CPY_CH_CTRL_FROM_HEAD ch (bits (putBits (putBits v 31 31 0) 30 30 1) 29 29) ∧ s.managedBy f ∧ ch < 1024 ∧ u.cpyActive ch ∧ u.cpyState ch ≠ 2 ∧ ¬u.cpyAtBoundary ch :=
  ⟨(State.reset.wr F.CPY_CH_STATUS_STATE 0 1).wr F.CPY_CH_PROGRESS_PROGRESS 0 1, _, 0, 0, 0, ⟨rfl, by decide, by decide, by decide, by decide, by decide⟩⟩

theorem witness_hostAndPlatformRowsComplete_cpyChCfgWrite :
    ∃ (s : State) (f : Nat) (ch : Nat) (v : Nat) (w : Width), s.managedBy f ∧ ch < 1024 ∧ ((s.cpyState ch = 0 ∨ s.cpyState ch = 4)) :=
  ⟨State.reset, 0, 0, 0, .full, ⟨by decide, by decide, by decide⟩⟩

theorem witness_hostAndPlatformRowsComplete_cpyTurn :
    ∃ (s : State) (t : State) (u : Nat) (ch : Nat) (io : CopyIo), s.nextCopy u = some ch ∧ (s.copy ch).desc ≠ [] ∧ t = { s with copyLast := s.copyLast.set u ((ch + 1) % 64) } :=
  ⟨{ (State.reset.wr F.CPY_UNIT_CTRL_EN 0 1).wr F.CPY_CH_STATUS_STATE 0 1 with copies := [(0, { desc := [1] })] }, _, 0, 0, { desc := .timeout, src := [], dst := [], steps := 0, stop := .nothing, lost := false }, ⟨by decide, by decide, rfl⟩⟩

theorem witness_hostAndPlatformRowsComplete_cpyFlushDone :
    ∃ (s : State) (ch : Nat) (status : Nat) (x : Nat) (lost : Bool), (s.copy ch).flush = some (status, x) :=
  ⟨{ State.reset with copies := [(0, { flush := some (0, 0) })] }, 0, 0, 0, false, by decide⟩

theorem witness_hostAndPlatformRowsComplete_cpyPaceMessage :
    ∃ (s : State) (ch : Nat) (m : ChanMsg), s.chan.find? (fun m => m.dest == 0x800 + ch) = some m ∧ ch < 1024 ∧ m.src ≤ 0x4FF ∧ bits (m.word 0) 63 1 = 0 ∧ m.type = 0 :=
  ⟨{ State.reset with chan := [{ header := 2 ^ 48 * 0x800, words := [1] }] }, 0, { header := 2 ^ 48 * 0x800, words := [1] }, ⟨by decide, by decide, by decide, by decide, by decide⟩⟩

theorem witness_hostAndPlatformRowsComplete_hbmAccess :
    ∃ (s : State) (p : HbmPlace) (region : Nat) (o : Nat) (w : Bool) (r : HbmResult) (l : Bool), p = s.hbmPlace region o ∧ region < 8 ∧ s.on F.HBM_REGION_EN region ∧ o < s.regionBytes region ∧ ¬s.isFenced (unitHbm p.pc) 0 :=
  ⟨hbmS, hbmS.hbmPlace 0 0, 0, 0, false, .ok, false, rfl, by decide, by decide, by decide, by decide⟩

theorem witness_hostAndPlatformRowsComplete_hbmRowClose :
    ∃ (s : State) (pc : Nat) (b : Nat) (w : Nat) (x : Nat), s.hbm.rows.getD (bankKey pc b) none = some (w, x) ∧ x * 6 + s.rd F.HBM_PAGE_CFG_IDLE_CYCLES pc * 5 ≤ s.now * 6 :=
  ⟨{ State.reset with hbm := { State.reset.hbm with rows := [(0, some (0, 0))] }, now := 1000000 }, 0, 0, 0, 0, ⟨by decide, by decide⟩⟩

theorem witness_hostAndPlatformRowsComplete_hbmRefreshDue :
    ∃ (s : State) (pc : Nat) (b : Nat), pc < 64 ∧ b < 16 ∧ s.rd F.HBM_PC_STATUS_STATE pc = 1 ∧ s.hbm.due.get (bankKey pc b) + s.refreshNs (pc / 32) ≤ s.now :=
  ⟨{ State.reset.wr F.HBM_PC_STATUS_STATE 0 1 with now := 3900 }, 0, 0, by decide, by decide, by decide, by decide⟩

theorem witness_hostAndPlatformRowsComplete_hbmSrEnter :
    ∃ (s : State) (k : Nat), k < 2 ∧ s.rd F.PWR_STATUS_STATE 0 = 2 ∧ s.hbm.reqAt.get k + 100000 ≤ s.now ∧ (stackPcs k).any (fun p => s.rd F.HBM_PC_STATUS_STATE p == 1) :=
  ⟨srS, 0, ⟨by decide, by decide, by decide, by decide⟩⟩

theorem witness_hostAndPlatformRowsComplete_hbmSrExit :
    ∃ (s : State) (k : Nat), k < 2 :=
  ⟨State.reset, 0, by decide⟩

theorem witness_hostAndPlatformRowsComplete_hbmTempHigh :
    ∃ (s : State) (k : Nat) (t : Nat), k < 2 ∧ 85 < t ∧ t < 256 ∧ ¬s.on F.HBM_STACK_STATUS_HOT k :=
  ⟨State.reset, 0, 86, ⟨by decide, by decide, by decide, by decide⟩⟩

theorem witness_hostAndPlatformRowsComplete_hbmDrift :
    ∃ (s : State) (k : Nat) (t : Nat), k < 2 ∧ t < 256 ∧ ((s.rd F.HBM_STACK_STATUS_TRAIN_TEMP_C k + 10 < t ∨ t + 10 < s.rd F.HBM_STACK_STATUS_TRAIN_TEMP_C k)) :=
  ⟨State.reset, 0, 60, ⟨by decide, by decide, by decide⟩⟩

theorem witness_hostAndPlatformRowsComplete_hbmSoftRepair :
    ∃ (s : State) (pc : Nat) (bank : Nat) (w : Nat), pc < 64 ∧ bank < 16 ∧ w < 49152 ∧ 16 ≤ (s.rates.get (rateKey (.hbmRow pc bank w))).count ∧ s.bankRepairs pc bank < 2 :=
  ⟨{ State.reset with rates := [(rateKey (.hbmRow 0 0 0), { count := 16 })] }, 0, 0, 0, by decide, by decide, by decide, by decide, by decide⟩

theorem witness_hostAndPlatformRowsComplete_glbFencePop :
    ∃ (s : State) (f : Nat) (v : Nat), s.managedBy f :=
  ⟨onS, 0, 0, by decide⟩

theorem witness_hostAndPlatformRowsComplete_glbFatal :
    ∃ (s : State) (u : Nat), fatalUnit u :=
  ⟨State.reset, 0xF000, by decide⟩

theorem witness_hostAndPlatformRowsComplete_fatalResetTimeout :
    ∃ (s : State) (t : Nat) (b : Nat) (io : BootIo), s.fatal = some t ∧ ((t + 2000000 ≤ s.now ∨ s.journal.backlog = [])) ∧ s.fatalBoot = some b ∧ t ≤ b + 10000000000 :=
  ⟨{ State.reset with fatal := some 0, fatalBoot := some 0 }, 0, 0, {}, ⟨by decide, by decide, by decide, by decide⟩⟩

theorem witness_hostAndPlatformRowsComplete_fwCoreSpared :
    ∃ (s : State) (n : Nat) (k : Nat), n < 4 ∧ ¬s.coreUp n ∧ s.spareCore = some k :=
  ⟨coreS, 0, 4, by decide, by decide, by decide⟩

theorem witness_hostAndPlatformRowsComplete_wearSample :
    ∃ (s : State) (d : Nat) (k : Nat), d < 64 ∧ (s.domainWear d).sampled = none :=
  ⟨State.reset, 0, 0, ⟨by decide, by decide⟩⟩

theorem witness_hostAndPlatformRowsComplete_wearRecordSave :
    ∃ (s : State) (n : Nat), s.wearSaved + 21600000000000 ≤ s.now :=
  ⟨{ State.reset with now := 21600000000000 }, 5, by decide⟩

theorem witness_hostAndPlatformRowsComplete_powerOn :
    ∃ (s : State) (io : BootIo), s.supply.power = .off :=
  ⟨{ State.reset with supply := { power := .off } }, {}, by decide⟩

theorem witness_hostAndPlatformRowsComplete_bootWatchdog :
    ∃ (s : State) (t : _) (io : BootIo), s.supply.bootAt = some t ∧ s.powered ∧ ¬s.fwUp ∧ t + 3000000000 ≤ s.now :=
  ⟨{ onS with supply := { onS.supply with bootAt := some 0 }, now := 3000000000, fwUp := false }, 0, {}, ⟨by decide, by decide, by decide, by decide⟩⟩

theorem witness_hostAndPlatformRowsComplete_vinLoss :
    ∃ (s : State) (mv : Nat), mv < 4150 ∧ s.powered :=
  ⟨onS, 0, ⟨by decide, by decide⟩⟩

theorem witness_hostAndPlatformRowsComplete_vinRestored :
    ∃ (s : State) (x : PowerSample) (io : BootIo), 4350 < x.mv ∧ s.supply.power = .aon :=
  ⟨{ State.reset with supply := { power := .aon } }, { mv := 5000 }, {}, ⟨by decide, by decide⟩⟩

theorem witness_hostAndPlatformRowsComplete_vinOvercurrent :
    ∃ (s : State) (ca : Nat) (ns : Nat), 6000 < ca ∧ 100000 ≤ ns ∧ s.powered :=
  ⟨onS, 6001, 100000, ⟨by decide, by decide, by decide⟩⟩

theorem witness_hostAndPlatformRowsComplete_phaseFault :
    ∃ (s : State) (n : Nat), s.powered ∧ n < 198 ∧ n ∉ s.supply.phasesOut :=
  ⟨onS, 0, ⟨by decide, by decide, by decide⟩⟩

theorem witness_hostAndPlatformRowsComplete_railFault :
    ∃ (s : State) (d : Nat), s.powered ∧ d < 64 ∧ ((s.rd F.PWR_DOMAIN_STATE d = 1 ∨ s.rd F.PWR_DOMAIN_STATE d = 2)) ∧ gateable d :=
  ⟨onS.wr F.PWR_DOMAIN_STATE 0 1, 0, ⟨by decide, by decide, by decide, by decide⟩⟩

theorem witness_hostAndPlatformRowsComplete_clusterGate :
    ∃ (s : State) (c : Nat), s.powered ∧ c < 16 ∧ s.on F.PWR_CFG_CLUSTER_GATE 0 ∧ s.clusterServes c ∧ s.clusterIdle c ∧ s.idleSince c + 10000000 ≤ s.now ∧ s.siblings c ≠ [] ∧ 63 < s.freeIn (s.siblings c) :=
  ⟨gateS, 0, ⟨by decide, by decide, by decide, by decide, by decide, by decide, by decide, by decide⟩⟩

theorem witness_hostAndPlatformRowsComplete_clusterUngate :
    ∃ (s : State) (c : Nat), s.powered ∧ c < 16 ∧ (s.clusters.get c).gated ∧ s.rd F.PWR_STATUS_STATE 0 = 1 ∧ ((128 < s.dispatchDepth (c / 4) ∨ s.freeIn ((List.range 4).map (fun k => c / 4 * 4 + k) |>.filter s.clusterServes) = 0)) :=
  ⟨ungateS, 0, ⟨by decide, by decide, by decide, by decide, by decide⟩⟩

theorem witness_hostAndPlatformRowsComplete_deepIdleEnter :
    ∃ (s : State), s.powered ∧ s.rd F.PWR_STATUS_STATE 0 = 1 ∧ s.mayDeepIdle :=
  ⟨idleS, ⟨by decide, by decide, by decide⟩⟩

theorem witness_hostAndPlatformRowsComplete_deepIdleExit :
    ∃ (s : State), s.powered ∧ s.rd F.PWR_STATUS_STATE 0 = 2 ∧ ¬s.mayDeepIdle :=
  ⟨{ onS.wr F.PWR_STATUS_STATE 0 2 with pkts := [(1, {})] }, ⟨by decide, by decide, by decide⟩⟩

theorem witness_hostAndPlatformRowsComplete_tjCrit :
    ∃ (s : State) (x : PowerSample), s.powered ∧ (s.sense x).dieReaches 1100 :=
  ⟨onS, { temps := [(0, 1120)] }, ⟨by decide, by decide⟩⟩

theorem witness_hostAndPlatformRowsComplete_thermalTrip :
    ∃ (s : State) (x : PowerSample), s.powered ∧ x.temps.any (fun e => decide (e.1 < 28 ∧ 1150 ≤ e.2)) :=
  ⟨onS, { temps := [(0, 1160)] }, ⟨by decide, by decide⟩⟩

theorem witness_hostAndPlatformRowsComplete_corePllUnlock :
    ∃ (s : State), s.powered ∧ s.supply.pllAt = none :=
  ⟨onS, ⟨by decide, by decide⟩⟩

theorem witness_hostAndPlatformRowsComplete_corePllTimeout :
    ∃ (s : State) (t : _), s.supply.pllAt = some t ∧ t + 10000000 ≤ s.now :=
  ⟨{ onS with supply := { onS.supply with pllAt := some 0 }, now := 10000000 }, _, ⟨by first | decide | rfl | exact .inl (by decide) | exact .inr (by decide), by first | decide | rfl | exact .inl (by decide) | exact .inr (by decide)⟩⟩

theorem witness_hostAndPlatformRowsComplete_coldRstN :
    ∃ (s : State) (ns : Nat) (x : PowerSample) (io : BootIo), 1000 ≤ ns ∧ s.powered :=
  ⟨onS, 1000, {}, {}, ⟨by decide, by decide⟩⟩

theorem witness_hostAndPlatformRowsComplete_uncorrectableStateError :
    ∃ (s : State) (u : Nat) (o : Nat) (l : List Nat), s.stateFails u o :=
  ⟨State.reset, unitBank 0, 0, [], by decide⟩

theorem witness_hostAndPlatformRowsComplete_rateWindowEnd :
    ∃ (s : State) (r : RateSource) (n : Nat), rateExists r ∧ s.windowStart (rateKey r) + rateWindow r ≤ s.now :=
  ⟨{ State.reset with now := 1000000000 }, .copy, 0, by decide, by decide⟩

theorem witness_hostAndPlatformRowsComplete_vinAonLoss :
    ∃ (s : State) (mv : Nat), mv < 4150 ∧ s.supply.power ≠ .off :=
  ⟨onS, 0, ⟨by decide, by decide⟩⟩

theorem witness_hostAndPlatformRowsComplete_pwrVinLow :
    ∃ (s : State) (mv : Nat), s.powered ∧ 4150 ≤ mv ∧ mv < 4500 :=
  ⟨onS, 4200, ⟨by decide, by decide, by decide⟩⟩

theorem witness_hostAndPlatformRowsComplete_pwrVinHigh :
    ∃ (s : State) (mv : Nat), s.powered ∧ 18000 < mv :=
  ⟨onS, 18001, ⟨by decide, by decide⟩⟩

theorem witness_hostAndPlatformRowsComplete_pwrVinAonLow :
    ∃ (s : State) (mv : Nat), s.supply.power ≠ .off ∧ 4150 ≤ mv ∧ mv < 4500 :=
  ⟨onS, 4200, ⟨by decide, by decide, by decide⟩⟩

theorem witness_hostAndPlatformRowsComplete_corePllRelock :
    ∃ (s : State) (t : _), s.supply.pllAt = some t ∧ s.now ≤ t + 10000000 ∧ s.fatal = none :=
  ⟨{ onS with supply := { onS.supply with pllAt := some 0 } }, _, ⟨by first | decide | rfl | exact .inl (by decide) | exact .inr (by decide), by first | decide | rfl | exact .inl (by decide) | exact .inr (by decide), by first | decide | rfl | exact .inl (by decide) | exact .inr (by decide)⟩⟩

theorem witness_hostAndPlatformRowsComplete_pwrTjHigh :
    ∃ (s : State) (x : PowerSample), s.powered ∧ (s.sense x).dieReaches (10 * s.rd F.PWR_THERM_CFG_ALERT_C 0 : Nat) :=
  ⟨onS, { temps := [(0, 1120)] }, ⟨by decide, by decide⟩⟩

theorem witness_hostAndPlatformRowsComplete_pwrSensorFault :
    ∃ (s : State) (n : Nat) (t : Int), s.powered ∧ n < 32 ∧ ¬s.on F.PWR_TEMP_FAULT n ∧ s.implausible n t :=
  ⟨onS, 0, 1600, ⟨by decide, by decide, by decide, by decide⟩⟩

theorem witness_hostAndPlatformRowsComplete_hbmTempCrit :
    ∃ (s : State) (k : Nat) (t : Nat), k < 2 ∧ 95 < t ∧ t < 256 :=
  ⟨State.reset, 0, 96, ⟨by decide, by decide, by decide⟩⟩

theorem witness_hostAndPlatformRowsComplete_hbmTempNormal :
    ∃ (s : State) (k : Nat) (t : Nat), k < 2 ∧ t ≤ 85 ∧ s.on F.HBM_STACK_STATUS_HOT k :=
  ⟨State.reset.wr F.HBM_STACK_STATUS_HOT 0 1, 0, 0, ⟨by decide, by decide, by decide⟩⟩

theorem witness_hostAndPlatformRowsComplete_priReset :
    ∃ (s : State) (f : Nat) (l : Nat), f < 2052 :=
  ⟨State.reset, 0, 0, by decide⟩

theorem witness_hostAndPlatformRowsComplete_mirResyncDone :
    ∃ (s : State) (t : State), t = s.resyncDue ∧ t.mir.resync.isSome ∧ t.mir.left = [] :=
  ⟨{ mirS 1 with mir := { (mirS 1).mir with resync := some 0 } }, _, ⟨rfl, by decide, by decide⟩⟩

theorem witness_configurationCommandsComplete_eciVersion :
    ∃ (s : State) (e : Eci) (p : List Nat) (q : Nat), q = p.getD 0 0 ∧ s.takes e 0x0000 [] p :=
  ⟨withCmd (eciCmd 0x0000 (([] : List Nat).map (fun _ => 0))) (State.reset), (eciOf 0), ([] : List Nat).map (fun _ => 0), _, ⟨rfl, by decide⟩⟩

theorem witness_configurationCommandsComplete_eciIdentity :
    ∃ (s : State) (e : Eci) (p : List Nat) (q : Nat), q = p.getD 0 0 ∧ s.takes e 0x0001 [] p :=
  ⟨withCmd (eciCmd 0x0001 (([] : List Nat).map (fun _ => 0))) (State.reset), (eciOf 0), ([] : List Nat).map (fun _ => 0), _, ⟨rfl, by decide⟩⟩

theorem witness_configurationCommandsComplete_eciFuncInfo :
    ∃ (s : State) (e : Eci) (p : List Nat) (q : Nat), q = p.getD 0 0 ∧ s.takes e 0x0002 [] p :=
  ⟨withCmd (eciCmd 0x0002 (([] : List Nat).map (fun _ => 0))) (State.reset), (eciOf 0), ([] : List Nat).map (fun _ => 0), _, ⟨rfl, by decide⟩⟩

theorem witness_configurationCommandsComplete_eciPoll :
    ∃ (s : State) (e : Eci) (p : List Nat) (q : Nat) (l : LongCmd) (n : Nat) (w : List Nat), q = p.getD 0 0 ∧ s.takes e 0x0003 [low 16] p ∧ s.longs.getD e.fn none = some l ∧ l.path = .mailbox ∧ l.ticket = q ∧ l.final = some (n, w) :=
  ⟨withCmd (eciCmd 0x0003 ([7])) ({ State.reset with longs := [(0, some { path := .mailbox, ticket := 7, final := some (0, []) })] }), (eciOf 0), [7], _, { path := .mailbox, ticket := 7, final := some (0, []) }, 0, [], ⟨rfl, by decide, by decide, by decide, by decide, by decide⟩⟩

theorem witness_configurationCommandsComplete_adminCreate :
    ∃ (s : State) (e : Eci) (p : List Nat) (q : Nat), q = p.getD 0 0 ∧ s.takes e 0x0100 [W32, W32, W32, W32, 0x07FF000F] p ∧ ¬s.adminBad e.fn p ∧ (s.ring (adminSqKey e.fn)).state = 0 :=
  ⟨withCmd (eciCmd 0x0100 ([0, 0, 4096, 0, 0])) (ringGrant), (eciOf 0), [0, 0, 4096, 0, 0], _, ⟨rfl, by decide, by decide, by decide⟩⟩

theorem witness_configurationCommandsComplete_adminDestroy :
    ∃ (s : State) (e : Eci) (p : List Nat) (q : Nat), q = p.getD 0 0 ∧ s.takes e 0x0101 [] p ∧ s.adminCmd.getD e.fn none = none ∧ (s.ring (adminSqKey e.fn)).state ≠ 0 :=
  ⟨withCmd (eciCmd 0x0101 ([])) ({ ringGrant with rings := [(adminSqKey 0, { fn := 0, ctx := adminCtx 0 5 6 0 0, state := 1 })] }), (eciOf 0), [], _, ⟨rfl, by decide, by decide, by decide⟩⟩

theorem witness_configurationCommandsComplete_queueCreate :
    ∃ (s : State) (e : Eci) (p : List Nat) (q : Nat) (r : Ring) (n : Nat), q = p.getD 0 0 ∧ r = s.newRing e.fn p ∧ s.takes e 0x0102 (List.replicate 16 W32) p ∧ ¬s.ringDenied r ∧ ¬s.ringBad r ∧ ¬r.mgmt ∧ s.ringsHeld r.kind (some e.fn) < (s.fn e.fn).grants.rings r.kind ∧ firstFree 131072 s.used.fresh (fun k => (s.ring (ringKey r.kind k)).state != 0) = some n :=
  ⟨withCmd (eciCmd 0x0102 (cqWords)) (ringGrant), (eciOf 0), cqWords, _, _, (withCmd (eciCmd 0x0102 cqWords) ringGrant).used.fresh % 131072, ⟨rfl, rfl, by first | decide | rfl | exact .inl (by decide) | exact .inr (by decide), by first | decide | rfl | exact .inl (by decide) | exact .inr (by decide), by first | decide | rfl | exact .inl (by decide) | exact .inr (by decide), by first | decide | rfl | exact .inl (by decide) | exact .inr (by decide), by first | decide | rfl | exact .inl (by decide) | exact .inr (by decide), by first | decide | rfl | exact .inl (by decide) | exact .inr (by decide)⟩⟩

theorem witness_configurationCommandsComplete_queueDestroy :
    ∃ (s : State) (e : Eci) (p : List Nat) (q : Nat) (k : Nat), q = p.getD 0 0 ∧ s.takes e 0x0103 [low 21] p ∧ ¬s.notMine e.fn p ∧ ¬s.noSuchRing p ∧ k = namedRing p ∧ (s.ring k).stopped ∧ ¬s.boundTo k ∧ ¬s.jobs.any (fun j => j.2.ring == k && (s.ring k).kind != 2 && (s.ring k).kind != 3) :=
  ⟨withCmd (eciCmd 0x0103 ([3 * 2 ^ 17])) ({ State.reset with rings := [(262144, { cqRing with state := 3 })] }), (eciOf 0), [3 * 2 ^ 17], _, _, ⟨rfl, by decide, by decide, by decide, rfl, by decide, by decide, by decide⟩⟩

theorem witness_configurationCommandsComplete_queueStart :
    ∃ (s : State) (e : Eci) (p : List Nat) (q : Nat), q = p.getD 0 0 ∧ s.takes e 0x0104 [low 21] p ∧ ¬s.notMine e.fn p ∧ ¬s.noSuchRing p ∧ (s.fn (s.ring (namedRing p)).fn).bme :=
  ⟨withCmd (eciCmd 0x0104 ([3 * 2 ^ 17])) ({ dmaState with rings := [(262144, { cqRing with state := 3 })] }), (eciOf 0), [3 * 2 ^ 17], _, ⟨rfl, by decide, by decide, by decide, by decide⟩⟩

theorem witness_configurationCommandsComplete_queueStop :
    ∃ (s : State) (e : Eci) (p : List Nat) (q : Nat), q = p.getD 0 0 ∧ s.takes e 0x0105 [low 21] p ∧ ¬s.notMine e.fn p ∧ ¬s.noSuchRing p ∧ ¬(s.ring (namedRing p)).stopped :=
  ⟨withCmd (eciCmd 0x0105 ([3 * 2 ^ 17])) ({ State.reset with rings := [(262144, cqRing)] }), (eciOf 0), [3 * 2 ^ 17], _, ⟨rfl, by decide, by decide, by decide, by decide⟩⟩

theorem witness_configurationCommandsComplete_queueInvalidate :
    ∃ (s : State) (e : Eci) (p : List Nat) (q : Nat), q = p.getD 0 0 ∧ s.takes e 0x0106 [low 21, W32, W32] p ∧ ¬s.notMine e.fn p ∧ (¬(s.noSuchRing p || decide (p.getD 2 0 = 0 ∨ (s.ring (namedRing p)).size < p.getD 2 0))) :=
  ⟨withCmd (eciCmd 0x0106 ([3 * 2 ^ 17, 0, 1])) ({ State.reset with rings := [(262144, cqRing)] }), (eciOf 0), [3 * 2 ^ 17, 0, 1], _, ⟨rfl, by decide, by decide, by decide⟩⟩

theorem witness_configurationCommandsComplete_queueQuery :
    ∃ (s : State) (e : Eci) (p : List Nat) (q : Nat), q = p.getD 0 0 ∧ s.takes e 0x0107 [low 21] p ∧ ¬s.notMine e.fn p ∧ ¬s.noSuchRing p :=
  ⟨withCmd (eciCmd 0x0107 ([3 * 2 ^ 17])) ({ State.reset with rings := [(262144, cqRing)] }), (eciOf 0), [3 * 2 ^ 17], _, ⟨rfl, by decide, by decide, by decide⟩⟩

theorem witness_configurationCommandsComplete_fnAssignVfs :
    ∃ (s : State) (e : Eci) (p : List Nat) (q : Nat), q = p.getD 0 0 ∧ s.orders e 0x0200 [W32, W32] p ∧ ¬(List.range 4).any (fun k => (s.fn k).vfEnable && s.share k != (sharesOf p).getD k 0) ∧ (sharesOf p).foldl (· + ·) 0 ≤ 2048 :=
  ⟨withCmd (eciCmd 0x0200 ([16, 16])) (State.reset), (eciOf 0), [16, 16], _, ⟨rfl, by decide, by decide, by decide⟩⟩

theorem witness_configurationCommandsComplete_fnGrant :
    ∃ (s : State) (e : Eci) (p : List Nat) (q : Nat) (g : Grants), q = p.getD 0 0 ∧ s.orders e 0x0201 [low 12, low 13, low 17, low 17, low 17, low 12, W32, W32, low 20, low 27] p ∧ g = s.grantOf q p ∧ ¬(noFunc p || grantBad q g) ∧ ¬s.grantBelow q g ∧ ¬[1, 2, 3].any (fun k => decide (131072 < g.rings k + s.reserved k q)) :=
  ⟨withCmd (eciCmd 0x0201 (List.replicate 10 0)) (State.reset), (eciOf 0), List.replicate 10 0, _, _, ⟨rfl, by decide, rfl, by decide, by decide, by decide⟩⟩

theorem witness_configurationCommandsComplete_fnQuery :
    ∃ (s : State) (e : Eci) (p : List Nat) (q : Nat), q = p.getD 0 0 ∧ s.takes e 0x0202 [low 12] p ∧ ¬s.ownOnly e.fn (fun w => bits (w.getD 0 0) 11 0) p ∧ ¬noFunc p :=
  ⟨withCmd (eciCmd 0x0202 (([low 12] : List Nat).map (fun _ => 0))) (State.reset), (eciOf 0), ([low 12] : List Nat).map (fun _ => 0), _, ⟨rfl, by decide, by decide, by decide⟩⟩

theorem witness_configurationCommandsComplete_fnQuiesce :
    ∃ (s : State) (e : Eci) (p : List Nat) (q : Nat) (c : EciCmd), q = p.getD 0 0 ∧ s.serves e c 0x0203 [low 12] ∧ p = c.words ∧ ¬bit q 31 ∧ e.fn = s.manager ∧ ¬noFunc p ∧ ¬s.longBusy e.fn ∧ s.rd F.HIF_FN_STATE_STATE q = 3 :=
  ⟨withCmd (eciCmd 0x0203 ([0])) (State.reset.wr F.HIF_FN_STATE_STATE 0 3), (eciOf 0), [0], _, eciCmd 0x0203 ([0]), ⟨rfl, by decide, rfl, by decide, by decide, by decide, by decide, by decide⟩⟩

theorem witness_configurationCommandsComplete_fnRelease :
    ∃ (s : State) (e : Eci) (p : List Nat) (q : Nat) (c : EciCmd), q = p.getD 0 0 ∧ s.serves e c 0x0203 [low 12 + 2 ^ 31] ∧ p = c.words ∧ bit q 31 ∧ e.fn = s.manager ∧ ¬noFunc p ∧ ¬s.longBusy e.fn ∧ s.rd F.HIF_FN_STATE_STATE (bits q 11 0) = 3 :=
  ⟨withCmd (eciCmd 0x0203 ([2 ^ 31])) (State.reset.wr F.HIF_FN_STATE_STATE 0 3), (eciOf 0), [2 ^ 31], _, eciCmd 0x0203 ([2 ^ 31]), ⟨rfl, by decide, rfl, by decide, by decide, by decide, by decide, by decide⟩⟩

theorem witness_configurationCommandsComplete_fnSave :
    ∃ (s : State) (e : Eci) (p : List Nat) (q : Nat) (c : EciCmd), q = p.getD 0 0 ∧ s.serves e c 0x0204 [low 12, W32, W32, W32] ∧ p = c.words ∧ e.fn = s.manager ∧ ¬noFunc p ∧ ¬s.longBusy e.fn ∧ s.rd F.HIF_FN_STATE_STATE q = 3 :=
  ⟨withCmd (eciCmd 0x0204 ([0, 0, 0, 0])) (State.reset.wr F.HIF_FN_STATE_STATE 0 3), (eciOf 0), [0, 0, 0, 0], _, eciCmd 0x0204 ([0, 0, 0, 0]), ⟨rfl, by decide, rfl, by decide, by decide, by decide, by decide⟩⟩

theorem witness_configurationCommandsComplete_fnRestore :
    ∃ (s : State) (e : Eci) (p : List Nat) (q : Nat) (c : EciCmd), q = p.getD 0 0 ∧ s.serves e c 0x0205 [low 12, W32, W32, W32] ∧ p = c.words ∧ e.fn = s.manager ∧ ¬noFunc p ∧ ¬s.longBusy e.fn ∧ s.mayRestore q :=
  ⟨withCmd (eciCmd 0x0205 ([0, 0, 0, 0])) (State.reset.wr F.HIF_FN_STATE_STATE 0 3), (eciOf 0), [0, 0, 0, 0], _, eciCmd 0x0205 ([0, 0, 0, 0]), ⟨rfl, by decide, rfl, by decide, by decide, by decide, by decide⟩⟩

theorem witness_configurationCommandsComplete_fnMigrateLog :
    ∃ (s : State) (e : Eci) (p : List Nat) (q : Nat), q = p.getD 0 0 ∧ s.takes e 0x0206 [low 12 + 2 ^ 31, W32, W32, low 5] p ∧ ¬(e.fn != s.manager || !s.feature e.fn 13) ∧ ¬noFunc p ∧ ¬bit q 31 :=
  ⟨withCmd (eciCmd 0x0206 ([0, 0, 0, 0])) (migGrant), (eciOf 0), [0, 0, 0, 0], _, ⟨rfl, by decide, by decide, by decide, by decide⟩⟩

theorem witness_configurationCommandsComplete_fnRemove :
    ∃ (s : State) (e : Eci) (p : List Nat) (q : Nat), q = p.getD 0 0 ∧ s.orders e 0x0207 [low 12] p ∧ ¬noFunc p ∧ s.rd F.HIF_FN_STATE_STATE q = 3 :=
  ⟨withCmd (eciCmd 0x0207 ([0])) (State.reset.wr F.HIF_FN_STATE_STATE 0 3), (eciOf 0), [0], _, ⟨rfl, by decide, by decide, by decide⟩⟩

theorem witness_configurationCommandsComplete_mgrRole :
    ∃ (s : State) (e : Eci) (p : List Nat) (q : Nat), q = p.getD 0 0 ∧ s.takes e 0x0208 [low 2] p ∧ ¬s.roleDenied e.fn p ∧ ¬(!mayManage q || q == s.manager) ∧ ¬s.roleWaits q :=
  ⟨withCmd (eciCmd 0x0208 ([2])) (State.reset), (eciOf 0), [2], _, ⟨rfl, by decide, by decide, by decide, by decide⟩⟩

theorem witness_configurationCommandsComplete_tblL2Write :
    ∃ (s : State) (e : Eci) (p : List Nat) (q : Nat), q = p.getD 0 0 ∧ s.takes e 0x0300 [0x10F, W32, low 31, low 30, W32] p ∧ ¬bit q 8 ∧ ¬s.l2Denied e.fn p ∧ ¬l2Bad p ∧ ¬(maskPipes p).any (fun k => s.l2Over k (l2Payload p 1) || (s.l2Slot k (l2Payload p 1)).isNone) :=
  ⟨withCmd (eciCmd 0x0300 ([0, 1, 2 ^ 28, 0, 0])) (State.reset), (eciOf 0), [0, 1, 2 ^ 28, 0, 0], _, ⟨rfl, by decide, by decide, by decide, by decide, by decide⟩⟩

theorem witness_configurationCommandsComplete_tblL2Delete :
    ∃ (s : State) (e : Eci) (p : List Nat) (q : Nat), q = p.getD 0 0 ∧ s.takes e 0x0300 [0x10F, W32, low 31, low 30, W32] p ∧ bit q 8 ∧ ¬s.l2Denied e.fn p ∧ ¬l2Bad p :=
  ⟨withCmd (eciCmd 0x0300 ([0x100, 1, 2 ^ 28, 0, 0])) (State.reset), (eciOf 0), [0x100, 1, 2 ^ 28, 0, 0], _, ⟨rfl, by decide, by decide, by decide, by decide⟩⟩

theorem witness_configurationCommandsComplete_tblL2Read :
    ∃ (s : State) (e : Eci) (p : List Nat) (q : Nat), q = p.getD 0 0 ∧ s.takes e 0x0301 [low 2, low 19] p ∧ ¬(e.fn != s.manager && !((s.l2Named p).valid && (s.l2Named p).static && (s.l2Named p).owner == e.fn)) :=
  ⟨withCmd (eciCmd 0x0301 (([low 2, low 19] : List Nat).map (fun _ => 0))) (State.reset), (eciOf 0), ([low 2, low 19] : List Nat).map (fun _ => 0), _, ⟨rfl, by decide, by decide⟩⟩

theorem witness_configurationCommandsComplete_tblL2Flush :
    ∃ (s : State) (e : Eci) (p : List Nat) (q : Nat), q = p.getD 0 0 ∧ s.orders e 0x0302 [low 9] p :=
  ⟨withCmd (eciCmd 0x0302 (([low 9] : List Nat).map (fun _ => 0))) (State.reset), (eciOf 0), ([low 9] : List Nat).map (fun _ => 0), _, ⟨rfl, by decide⟩⟩

theorem witness_configurationCommandsComplete_tblFlowInsert :
    ∃ (s : State) (e : Eci) (p : List Nat) (q : Nat) (k : Bytes), q = p.getD 0 0 ∧ s.takes e 0x0303 ([1] ++ List.replicate 28 W32 ++ [low 5, 0, 0, 0]) p ∧ k = wBytes p 1 16 ∧ ¬(s.flowDenied e.fn k || (e.fn != s.manager && bit (p.getD 29 0) 4)) ∧ ¬flowKeyBad k ∧ (((s.flowFind k).isNone = false ∨ (s.flowsOf (flowFunc k)).length < (s.fn (flowFunc k)).grants.flows)) ∧ (s.flowInsert k (wBytes p 17 12) (bit (p.getD 29 0) 1) (bit (p.getD 29 0) 4) (bit q 0)).2.1 = 3 :=
  ⟨withCmd (eciCmd 0x0303 (flowWords)) (flowGrant), (eciOf 0), flowWords, _, _, ⟨rfl, by decide, rfl, by decide, by decide, by decide, by decide⟩⟩

theorem witness_configurationCommandsComplete_tblFlowDelete :
    ∃ (s : State) (e : Eci) (p : List Nat) (q : Nat) (l : Nat), q = p.getD 0 0 ∧ s.takes e 0x0304 (List.replicate 16 W32) p ∧ ¬s.flowDenied e.fn (wBytes p 0 16) ∧ ¬flowKeyBad (wBytes p 0 16) ∧ s.flowFind (wBytes p 0 16) = some l :=
  ⟨withCmd (eciCmd 0x0304 (flowKeyWords)) (flowState), (eciOf 0), flowKeyWords, _, (flowState.flowFind (wBytes flowKeyWords 0 16)).getD 0, ⟨rfl, by decide, by decide, by decide, by decide⟩⟩

theorem witness_configurationCommandsComplete_tblFlowLookup :
    ∃ (s : State) (e : Eci) (p : List Nat) (q : Nat) (l : Nat), q = p.getD 0 0 ∧ s.takes e 0x0305 (List.replicate 16 W32) p ∧ ¬s.flowDenied e.fn (wBytes p 0 16) ∧ ¬flowKeyBad (wBytes p 0 16) ∧ s.flowFind (wBytes p 0 16) = some l :=
  ⟨withCmd (eciCmd 0x0305 (flowKeyWords)) (flowState), (eciOf 0), flowKeyWords, _, (flowState.flowFind (wBytes flowKeyWords 0 16)).getD 0, ⟨rfl, by decide, by decide, by decide, by decide⟩⟩

theorem witness_configurationCommandsComplete_tblRouteBatch :
    ∃ (s : State) (e : Eci) (p : List Nat) (q : Nat) (t : State) (u : State) (b : Bytes) (n : Nat) (cs : List RouteChange), q = p.getD 0 0 ∧ s.orders e 0x0306 [low 5, W32, W32] p ∧ (¬(q = 0 ∨ 16 < q)) ∧ s.dmaIn e.fn (w64 p 1) (32 * q) e.io.head? = (t, some b, n) ∧ cs = (List.range q).map (fun k => routeChange (slice b (32 * k) 32)) ∧ ¬cs.any (fun c => c.bad) ∧ t.applyRoutes cs = some u :=
  ⟨withCmd (eciCmd 0x0306 [1, 0, 0]) dmaState, eciOf 0, [1, 0, 0], 1, routeT, (routeT.applyRoutes [routeChange (List.replicate 32 0)]).getD State.reset, List.replicate 32 0, 0, [routeChange (List.replicate 32 0)], rfl, by decide, by decide, by decide, rfl, by decide, rfl⟩

theorem witness_configurationCommandsComplete_tblRouteLookup :
    ∃ (s : State) (e : Eci) (p : List Nat) (q : Nat), q = p.getD 0 0 ∧ s.orders e 0x0307 [1, W32, W32, W32, W32] p :=
  ⟨withCmd (eciCmd 0x0307 (([1, W32, W32, W32, W32] : List Nat).map (fun _ => 0))) (State.reset), (eciOf 0), ([1, W32, W32, W32, W32] : List Nat).map (fun _ => 0), _, ⟨rfl, by decide⟩⟩

theorem witness_configurationCommandsComplete_tmCaps :
    ∃ (s : State) (e : Eci) (p : List Nat) (q : Nat), q = p.getD 0 0 ∧ s.takes e 0x0400 [] p :=
  ⟨withCmd (eciCmd 0x0400 (([] : List Nat).map (fun _ => 0))) (State.reset), (eciOf 0), ([] : List Nat).map (fun _ => 0), _, ⟨rfl, by decide⟩⟩

theorem witness_configurationCommandsComplete_tmNodeCreate :
    ∃ (s : State) (e : Eci) (p : List Nat) (q : Nat) (c : Bytes) (t : State) (n : Nat) (w : List Nat), q = p.getD 0 0 ∧ c = withEn (cfgOf p 1) ∧ s.takes e 0x0401 (3 :: List.replicate 8 W32) p ∧ ¬(e.fn != s.manager && (q != 3 || s.newDenied e.fn c)) ∧ ¬s.cfgBad q c ∧ ¬s.aboveTenant e.fn q c ∧ s.createNode q c = .done t n w :=
  (createNode_done ((withCmd (eciCmd 0x0401 (nodeWords 2 65536 0)) upState)) 2 (withEn (cfgOf (nodeWords 2 65536 0) 1))).elim fun x h => ⟨(withCmd (eciCmd 0x0401 (nodeWords 2 65536 0)) upState), eciOf 0, nodeWords 2 65536 0, 2, _, x.1, x.2.1, x.2.2, ⟨rfl, rfl, by decide, by decide, by decide, by decide, h⟩⟩

theorem witness_configurationCommandsComplete_tmNodeDestroy :
    ∃ (s : State) (e : Eci) (p : List Nat) (q : Nat) (n : Nat × Nat), q = p.getD 0 0 ∧ n = nodeOf p ∧ s.takes e 0x0402 [3 + 2 ^ 31, low 17] p ∧ ¬s.nodeDenied e.fn p ∧ ¬(noNode p || n.1 == 0 || !(s.node n.1 n.2).en || (n.1 == 3 && isDefaultQueue n.2)) ∧ s.children n.1 n.2 = [] ∧ n.1 ≠ 3 :=
  ⟨withCmd (eciCmd 0x0402 ([2, 7])) (upState), (eciOf 0), [2, 7], _, _, ⟨rfl, rfl, by decide, by decide, by decide, by decide, by decide⟩⟩

theorem witness_configurationCommandsComplete_tmNodeSet :
    ∃ (s : State) (e : Eci) (p : List Nat) (q : Nat) (n : Nat × Nat), q = p.getD 0 0 ∧ n = nodeOf p ∧ s.takes e 0x0403 (3 :: low 17 :: List.replicate 8 W32) p ∧ ¬(s.nodeDenied e.fn p || s.cfgDenied e.fn n.1 n.2 (cfgOf p 2)) ∧ ¬(noNode p || s.nodeCode n.1 n.2 (cfgOf p 2) == RC_BAD_ARG) ∧ ¬s.aboveTenant e.fn n.1 (cfgOf p 2) ∧ s.nodeCode n.1 n.2 (cfgOf p 2) = RC_OK :=
  ⟨withCmd (eciCmd 0x0403 (2 :: 0 :: (nodeWords 2 65536 0).drop 1)) (upState), (eciOf 0), 2 :: 0 :: (nodeWords 2 65536 0).drop 1, _, _, ⟨rfl, rfl, by decide, by decide, by decide, by decide, by decide⟩⟩

theorem witness_configurationCommandsComplete_tmNodeQuery :
    ∃ (s : State) (e : Eci) (p : List Nat) (q : Nat), q = p.getD 0 0 ∧ s.takes e 0x0404 [3, low 17] p ∧ ¬s.nodeDenied e.fn p ∧ ¬noNode p :=
  ⟨withCmd (eciCmd 0x0404 (([3, low 17] : List Nat).map (fun _ => 0))) (State.reset), (eciOf 0), ([3, low 17] : List Nat).map (fun _ => 0), _, ⟨rfl, by decide, by decide, by decide⟩⟩

theorem witness_configurationCommandsComplete_tmQueueFlush :
    ∃ (s : State) (e : Eci) (p : List Nat) (q : Nat), q = p.getD 0 0 ∧ s.takes e 0x0405 [low 16] p ∧ s.reaches e.fn 3 q :=
  ⟨withCmd (eciCmd 0x0405 (([low 16] : List Nat).map (fun _ => 0))) (State.reset), (eciOf 0), ([low 16] : List Nat).map (fun _ => 0), _, ⟨rfl, by decide, by decide⟩⟩

theorem witness_configurationCommandsComplete_tmMcastSet :
    ∃ (s : State) (e : Eci) (p : List Nat) (q : Nat), q = p.getD 0 0 ∧ s.orders e 0x0406 [low 27, W32, W32] p ∧ ¬(1024 < memberCount p) ∧ memberCount p = 0 ∧ s.membersUsed ≤ 1048576 :=
  ⟨withCmd (eciCmd 0x0406 (([low 27, W32, W32] : List Nat).map (fun _ => 0))) (State.reset), (eciOf 0), ([low 27, W32, W32] : List Nat).map (fun _ => 0), _, ⟨rfl, by decide, by decide, by decide, by decide⟩⟩

theorem witness_configurationCommandsComplete_tmMcastQuery :
    ∃ (s : State) (e : Eci) (p : List Nat) (q : Nat) (t : State) (n : Nat) (w : List Nat), q = p.getD 0 0 ∧ s.orders e 0x0407 [low 16, W32, W32] p ∧ s.bufferOut e.fn (w64 p 1) 8192 ((s.mcast.get q).flatMap (fun (m : Nat) => leBytes 8 m)) e.io.head? [(s.mcast.get q).length] = .done t n w :=
  ⟨withCmd (eciCmd 0x0407 ([0, 0, 0])) (dmaState), (eciOf 0), [0, 0, 0], _, (withCmd (eciCmd 0x0407 [0, 0, 0]) dmaState).hostWrite 0 0 none [], RC_OK, [0], ⟨rfl, by first | decide | rfl | exact .inl (by decide) | exact .inr (by decide), by first | decide | rfl | exact .inl (by decide) | exact .inr (by decide)⟩⟩

theorem witness_configurationCommandsComplete_tmObsDump :
    ∃ (s : State) (e : Eci) (p : List Nat) (q : Nat) (c : EciCmd), q = p.getD 0 0 ∧ s.serves e c 0x0408 [low 17, low 17 + 2 ^ 30 + 2 ^ 31, W32, W32, W32] ∧ p = c.words ∧ ¬(e.fn != s.manager && (dumpQueues p).any (fun q => !s.reaches e.fn 3 q)) ∧ ¬(65536 < q + bits (p.getD 1 0) 16 0) ∧ ¬s.longBusy e.fn ∧ ((bit (p.getD 1 0) 30 = true ∨ s.on F.TM_OBS_CFG_MODE 0 = false)) :=
  ⟨withCmd (eciCmd 0x0408 (([low 17, low 17 + 2 ^ 30 + 2 ^ 31, W32, W32, W32] : List Nat).map (fun _ => 0))) (State.reset), (eciOf 0), ([low 17, low 17 + 2 ^ 30 + 2 ^ 31, W32, W32, W32] : List Nat).map (fun _ => 0), _, eciCmd 0x0408 (([low 17, low 17 + 2 ^ 30 + 2 ^ 31, W32, W32, W32] : List Nat).map (fun _ => 0)), ⟨rfl, by decide, rfl, by decide, by decide, by decide, by decide⟩⟩

theorem witness_configurationCommandsComplete_tmTenantGrant :
    ∃ (s : State) (e : Eci) (p : List Nat) (q : Nat) (t : State) (n : Nat) (w : List Nat), q = p.getD 0 0 ∧ s.orders e 0x0409 (low 12 :: low 10 :: List.replicate 8 W32) p ∧ ¬(noFunc p || s.cfgBad 2 (grantCfg p)) ∧ s.createNode 2 (grantCfg p) = .done t n w :=
  (createNode_done ((withCmd (eciCmd 0x0409 ([0, 0] ++ (nodeWords 2 65536 0).drop 1)) upState)) 2 (grantCfg ([0, 0] ++ (nodeWords 2 65536 0).drop 1))).elim fun x h => ⟨(withCmd (eciCmd 0x0409 ([0, 0] ++ (nodeWords 2 65536 0).drop 1)) upState), eciOf 0, [0, 0] ++ (nodeWords 2 65536 0).drop 1, 0, x.1, x.2.1, x.2.2, ⟨rfl, by decide, by decide, h⟩⟩

theorem witness_configurationCommandsComplete_epochStage :
    ∃ (s : State) (e : Eci) (p : List Nat) (q : Nat) (c : EciCmd), q = p.getD 0 0 ∧ s.serves e c 0x0900 (low 5 :: List.replicate 11 W32) ∧ p = c.words ∧ e.fn = s.manager ∧ q = 0 ∧ ¬s.longBusy e.fn ∧ ¬s.on F.GLB_EPOCH_STATUS_STAGING 0 ∧ ¬s.on F.GLB_EPOCH_STATUS_STAGED 0 ∧ ¬s.on F.GLB_EPOCH_STATUS_ARMED 0 :=
  ⟨withCmd (eciCmd 0x0900 ((List.replicate 12 0))) (State.reset), (eciOf 0), (List.replicate 12 0), _, eciCmd 0x0900 ((List.replicate 12 0)), ⟨rfl, by decide, rfl, by decide, rfl, by decide, by decide, by decide, by decide⟩⟩

theorem witness_configurationCommandsComplete_epochCommit :
    ∃ (s : State) (e : Eci) (p : List Nat) (q : Nat), q = p.getD 0 0 ∧ s.orders e 0x0901 [W32, W32] p ∧ ((let lead := (w64 p 0 + W64 - s.stamp) % W64; decide (lead < 800000 ∨ 80000000000 < lead)) = false) ∧ s.on F.GLB_EPOCH_STATUS_STAGED 0 ∧ ¬s.on F.GLB_EPOCH_STATUS_DRAINING 0 :=
  ⟨withCmd (eciCmd 0x0901 ([800000, 0])) (State.reset.wr F.GLB_EPOCH_STATUS_STAGED 0 1), (eciOf 0), [800000, 0], _, ⟨rfl, by decide, by decide, by decide, by decide⟩⟩

theorem witness_configurationCommandsComplete_epochAbandon :
    ∃ (s : State) (e : Eci) (p : List Nat) (q : Nat), q = p.getD 0 0 ∧ s.orders e 0x0902 [] p ∧ s.on F.GLB_EPOCH_STATUS_STAGED 0 :=
  ⟨withCmd (eciCmd 0x0902 ([])) (State.reset.wr F.GLB_EPOCH_STATUS_STAGED 0 1), (eciOf 0), [], _, ⟨rfl, by decide, by decide⟩⟩

theorem witness_configurationCommandsComplete_epochStatus :
    ∃ (s : State) (e : Eci) (p : List Nat) (q : Nat), q = p.getD 0 0 ∧ s.orders e 0x0903 [] p :=
  ⟨withCmd (eciCmd 0x0903 (([] : List Nat).map (fun _ => 0))) (State.reset), (eciOf 0), ([] : List Nat).map (fun _ => 0), _, ⟨rfl, by decide⟩⟩

theorem witness_managementCommandsComplete_timeGet :
    ∃ (s : State) (e : Eci) (p : List Nat) (q : Nat), q = p.getD 0 0 ∧ s.takes e 0x0500 [] p :=
  ⟨withCmd (eciCmd 0x0500 (([] : List Nat).map (fun _ => 0))) (State.reset), (eciOf 0), ([] : List Nat).map (fun _ => 0), _, ⟨rfl, by decide⟩⟩

theorem witness_managementCommandsComplete_timeFreq :
    ∃ (s : State) (e : Eci) (p : List Nat) (q : Nat), q = p.getD 0 0 ∧ s.orders e 0x0501 [W32, W32] p ∧ Reg.takes .TSU_FREQ_OFFSET (w64 p 0) :=
  ⟨withCmd (eciCmd 0x0501 (([W32, W32] : List Nat).map (fun _ => 0))) (State.reset), (eciOf 0), ([W32, W32] : List Nat).map (fun _ => 0), _, ⟨rfl, by decide, by decide⟩⟩

theorem witness_managementCommandsComplete_timeStep :
    ∃ (s : State) (e : Eci) (p : List Nat) (q : Nat) (t : State), q = p.getD 0 0 ∧ s.orders e 0x0502 stepMasks p ∧ ¬bit (p.getD 4 0) 31 ∧ ¬s.on F.TSU_STEP_CTRL_ARM 0 ∧ t = (((s.put .TSU_STEP 0 (w64 p 0)).put .TSU_STEP_AT 0 (w64 p 2)).wr F.TSU_STEP_CTRL_ABS 0 (bits (p.getD 4 0) 0 0)).steering.arm ∧ t.rd F.TSU_STEP_CTRL_RESULT 0 ≠ 2 ∧ t.rd F.TSU_STEP_CTRL_RESULT 0 ≠ 3 :=
  ⟨withCmd (eciCmd 0x0502 ([0, 0, 0, 0, 1])) (State.reset), (eciOf 0), [0, 0, 0, 0, 1], _, _, ⟨rfl, by decide, by decide, by decide, rfl, by decide, by decide⟩⟩

theorem witness_managementCommandsComplete_timeStepCancel :
    ∃ (s : State) (e : Eci) (p : List Nat) (q : Nat), q = p.getD 0 0 ∧ s.orders e 0x0502 stepMasks p ∧ bit (p.getD 4 0) 31 :=
  ⟨withCmd (eciCmd 0x0502 ([0, 0, 0, 0, 2 ^ 31])) (State.reset), (eciOf 0), [0, 0, 0, 0, 2 ^ 31], _, ⟨rfl, by decide, by decide⟩⟩

theorem witness_managementCommandsComplete_timeSlew :
    ∃ (s : State) (e : Eci) (p : List Nat) (q : Nat), q = p.getD 0 0 ∧ s.orders e 0x0503 [W32, W32, low 17] p ∧ ¬(50000 < p.getD 2 0) :=
  ⟨withCmd (eciCmd 0x0503 (([W32, W32, low 17] : List Nat).map (fun _ => 0))) (State.reset), (eciOf 0), ([W32, W32, low 17] : List Nat).map (fun _ => 0), _, ⟨rfl, by decide, by decide⟩⟩

theorem witness_managementCommandsComplete_timeStatus :
    ∃ (s : State) (e : Eci) (p : List Nat) (q : Nat), q = p.getD 0 0 ∧ s.orders e 0x0504 [] p :=
  ⟨withCmd (eciCmd 0x0504 (([] : List Nat).map (fun _ => 0))) (State.reset), (eciOf 0), ([] : List Nat).map (fun _ => 0), _, ⟨rfl, by decide⟩⟩

theorem witness_managementCommandsComplete_timeIo :
    ∃ (s : State) (e : Eci) (p : List Nat) (q : Nat), q = p.getD 0 0 ∧ s.orders e 0x0505 [W32, W32, W32, 7] p ∧ ¬(badValue p 3 0 .TSU_PPS_OUT || badValue p 3 1 .TSU_PPS_OUT_OFS || badValue p 3 2 .TSU_REF) :=
  ⟨withCmd (eciCmd 0x0505 ([0, 0, 0, 0])) (State.reset), (eciOf 0), [0, 0, 0, 0], _, ⟨rfl, by decide, by decide⟩⟩

theorem witness_managementCommandsComplete_ovenSet :
    ∃ (s : State) (e : Eci) (p : List Nat) (q : Nat), q = p.getD 0 0 ∧ s.orders e 0x0506 (List.replicate 7 W32 ++ [low 7 + 2 ^ 31]) p ∧ ¬ovenRegs.zipIdx.any (fun r => badValue p 7 r.2 r.1) ∧ ¬bit (p.getD 7 0) 31 :=
  ⟨withCmd (eciCmd 0x0506 ([0, 0, 0, 0, 0, 0, 0, 0])) (State.reset), (eciOf 0), [0, 0, 0, 0, 0, 0, 0, 0], _, ⟨rfl, by decide, by decide, by decide⟩⟩

theorem witness_managementCommandsComplete_ovenStatus :
    ∃ (s : State) (e : Eci) (p : List Nat) (q : Nat), q = p.getD 0 0 ∧ s.orders e 0x0507 [] p :=
  ⟨withCmd (eciCmd 0x0507 (([] : List Nat).map (fun _ => 0))) (State.reset), (eciOf 0), ([] : List Nat).map (fun _ => 0), _, ⟨rfl, by decide⟩⟩

theorem witness_managementCommandsComplete_relCaps :
    ∃ (s : State) (e : Eci) (p : List Nat) (q : Nat), q = p.getD 0 0 ∧ s.orders e 0x0600 [] p :=
  ⟨withCmd (eciCmd 0x0600 (([] : List Nat).map (fun _ => 0))) (State.reset), (eciOf 0), ([] : List Nat).map (fun _ => 0), _, ⟨rfl, by decide⟩⟩

theorem witness_managementCommandsComplete_relGroupSet :
    ∃ (s : State) (e : Eci) (p : List Nat) (q : Nat) (t : State) (v : State) (b : Bytes) (n : Nat) (w : List Nat), q = p.getD 0 0 ∧ s.orders e 0x0601 [low 6, W32, W32] p ∧ s.dmaIn e.fn (w64 p 1) 32 e.io.head? = (t, some b, n) ∧ leAt b 0 4 / 2 = 0 ∧ leAt b 4 4 / 2 ^ 20 = 0 ∧ leAt b 12 20 = 0 ∧ leAt b 8 2 = 0 ∧ leAt b 10 2 = 0 ∧ t.setGroup q { en := leAt b 0 4 = 1, delay := leAt b 4 4 } = .done v n w :=
  ⟨withCmd (eciCmd 0x0601 ([0, 0, 0])) (dmaState), (eciOf 0), [0, 0, 0], _, groupT, { groupT with groupsAdmin := groupT.groupsAdmin.set 0 { en := false, delay := 0, src := [], dst := [] } }, List.replicate 32 0, RC_OK, two (groupT.holdBytes { en := false, delay := 0, src := [], dst := [] } 0), ⟨rfl, by first | decide | rfl | exact .inl (by decide) | exact .inr (by decide), by first | decide | rfl | exact .inl (by decide) | exact .inr (by decide), by first | decide | rfl | exact .inl (by decide) | exact .inr (by decide), by first | decide | rfl | exact .inl (by decide) | exact .inr (by decide), by first | decide | rfl | exact .inl (by decide) | exact .inr (by decide), by first | decide | rfl | exact .inl (by decide) | exact .inr (by decide), by first | decide | rfl | exact .inl (by decide) | exact .inr (by decide), by first | decide | rfl | exact .inl (by decide) | exact .inr (by decide)⟩⟩

theorem witness_managementCommandsComplete_relGroupQuery :
    ∃ (s : State) (e : Eci) (p : List Nat) (q : Nat) (b : Bytes) (t : State) (n : Nat) (w : List Nat), q = p.getD 0 0 ∧ s.orders e 0x0602 [low 6 + 2 ^ 31, W32, W32, W32] p ∧ b = s.groupBytes ((if bit q 31 then s.groupsOper else s.groupsAdmin).get (bits q 5 0)) ∧ s.bufferOut e.fn (w64 p 1) (p.getD 3 0) b e.io.head? [b.length] = .done t n w :=
  ⟨withCmd (eciCmd 0x0602 (([low 6 + 2 ^ 31, W32, W32, W32] : List Nat).map (fun _ => 0))) (State.reset), (eciOf 0), ([low 6 + 2 ^ 31, W32, W32, W32] : List Nat).map (fun _ => 0), _, _, withCmd (eciCmd 0x0602 [0, 0, 0, 0]) State.reset, 0x80, [32], ⟨rfl, by first | decide | rfl | exact .inl (by decide) | exact .inr (by decide), rfl, by first | decide | rfl | exact .inl (by decide) | exact .inr (by decide)⟩⟩

theorem witness_managementCommandsComplete_relStampRing :
    ∃ (s : State) (e : Eci) (p : List Nat) (q : Nat), q = p.getD 0 0 ∧ s.orders e 0x0603 stampMasks p ∧ ¬bit q 31 ∧ ¬s.noStampRing e.fn (p.getD 1 0) :=
  ⟨withCmd (eciCmd 0x0603 ([0, 0])) ({ State.reset with rings := [(262144, cqRing)] }), (eciOf 0), [0, 0], _, ⟨rfl, by decide, by decide, by decide⟩⟩

theorem witness_managementCommandsComplete_relStampRingClear :
    ∃ (s : State) (e : Eci) (p : List Nat) (q : Nat), q = p.getD 0 0 ∧ s.orders e 0x0603 stampMasks p ∧ bit q 31 :=
  ⟨withCmd (eciCmd 0x0603 ([2 ^ 31, 0])) (State.reset), (eciOf 0), [2 ^ 31, 0], _, ⟨rfl, by decide, by decide⟩⟩

theorem witness_managementCommandsComplete_jnlQueueSet :
    ∃ (s : State) (e : Eci) (p : List Nat) (q : Nat), q = p.getD 0 0 ∧ s.orders e 0x0604 [low 18 + 2 ^ 31] p ∧ bit q 31 ∧ (s.jrings.getD (bits q 17 0) none).isSome :=
  ⟨withCmd (eciCmd 0x0604 ([2 ^ 31])) ({ State.reset with jrings := [(0, some {})] }), (eciOf 0), [2 ^ 31], _, ⟨rfl, by decide, by decide, by decide⟩⟩

theorem witness_managementCommandsComplete_jnlQueueRemove :
    ∃ (s : State) (e : Eci) (p : List Nat) (q : Nat) (t : State), q = p.getD 0 0 ∧ s.orders e 0x0604 [low 18 + 2 ^ 31] p ∧ ¬bit q 31 ∧ t = s.closeDigest q :=
  ⟨withCmd (eciCmd 0x0604 ([0])) (State.reset), (eciOf 0), [0], _, _, ⟨rfl, by decide, by decide, rfl⟩⟩

theorem witness_managementCommandsComplete_jnlIdentity :
    ∃ (s : State) (e : Eci) (p : List Nat) (q : Nat) (t : State) (n : Nat) (w : List Nat), q = p.getD 0 0 ∧ s.orders e 0x0605 [W32, W32, W32] p ∧ s.bufferOut e.fn (w64 p 0) (p.getD 2 0) Config.certificate e.io.head? [Config.certificate.length] = .done t n w :=
  (bufferOut_done (withCmd (eciCmd 0x0605 [0, 0, 0]) State.reset) 0 0 0 Config.certificate none [Config.certificate.length]).elim fun x h => ⟨withCmd (eciCmd 0x0605 [0, 0, 0]) State.reset, eciOf 0, [0, 0, 0], 0, x.1, x.2.1, x.2.2, ⟨rfl, by decide, h⟩⟩

theorem witness_managementCommandsComplete_jnlStatus :
    ∃ (s : State) (e : Eci) (p : List Nat) (q : Nat), q = p.getD 0 0 ∧ s.orders e 0x0606 [] p :=
  ⟨withCmd (eciCmd 0x0606 (([] : List Nat).map (fun _ => 0))) (State.reset), (eciOf 0), ([] : List Nat).map (fun _ => 0), _, ⟨rfl, by decide⟩⟩

theorem witness_managementCommandsComplete_jnlRestart :
    ∃ (s : State) (e : Eci) (p : List Nat) (q : Nat), q = p.getD 0 0 ∧ s.orders e 0x0607 [] p ∧ s.val .JNL_PROD 0 = s.val .JNL_CONS 0 :=
  ⟨withCmd (eciCmd 0x0607 (([] : List Nat).map (fun _ => 0))) (State.reset), (eciOf 0), ([] : List Nat).map (fun _ => 0), _, ⟨rfl, by decide, by decide⟩⟩

theorem witness_managementCommandsComplete_oflCaps :
    ∃ (s : State) (e : Eci) (p : List Nat) (q : Nat), q = p.getD 0 0 ∧ s.takes e 0x0700 [] p :=
  ⟨withCmd (eciCmd 0x0700 (([] : List Nat).map (fun _ => 0))) (State.reset), (eciOf 0), ([] : List Nat).map (fun _ => 0), _, ⟨rfl, by decide⟩⟩

theorem witness_managementCommandsComplete_oflCtxCreate :
    ∃ (s : State) (e : Eci) (p : List Nat) (q : Nat) (i : Nat) (a : EspSa), q = p.getD 0 0 ∧ s.takes e 0x0701 (if (s.eciWords e).getD 0 0 % 4 = 1 then sessMasks else espMasks) p ∧ ¬s.createDenied e.fn p ∧ ¬createBad p ∧ q % 4 = 0 ∧ a = espOfPayload p ∧ s.espOf a.owner < (s.fn a.owner).grants.esp ∧ s.espSas.length < ESP_COUNT ∧ firstFree ESP_COUNT s.fresh (fun k => (s.espSas.get k).state != 0) = some i :=
  ⟨withCmd (eciCmd 0x0701 (List.replicate 40 0)) (ofGrant), (eciOf 0), List.replicate 40 0, _, ofGrant.fresh % 1048576, _, ⟨rfl, by first | decide | rfl | exact .inl (by decide) | exact .inr (by decide), by first | decide | rfl | exact .inl (by decide) | exact .inr (by decide), by first | decide | rfl | exact .inl (by decide) | exact .inr (by decide), by first | decide | rfl | exact .inl (by decide) | exact .inr (by decide), rfl, by first | decide | rfl | exact .inl (by decide) | exact .inr (by decide), by first | decide | rfl | exact .inl (by decide) | exact .inr (by decide), by first | decide | rfl | exact .inl (by decide) | exact .inr (by decide)⟩⟩

theorem witness_managementCommandsComplete_oflCtxDestroy :
    ∃ (s : State) (e : Eci) (p : List Nat) (q : Nat), q = p.getD 0 0 ∧ s.takes e 0x0702 [3 + 2 ^ 16 * low 12, low 20] p ∧ ¬s.ctxDenied e.fn p ∧ ¬s.noCtx (ctxKind p) (ctxOwner p) (ctxNo p) ∧ ctxKind p ≠ 2 ∧ s.ctxBusy (ctxKind p) (ctxNo p) :=
  ⟨withCmd (eciCmd 0x0702 ([0, 5])) ({ ofState with pkts := [(1, { deferred := [{ ctx := 5, params := [1] }] })] }), (eciOf 0), [0, 5], _, ⟨rfl, by decide, by decide, by decide, by decide, by decide⟩⟩

theorem witness_managementCommandsComplete_oflCtxQuery :
    ∃ (s : State) (e : Eci) (p : List Nat) (q : Nat), q = p.getD 0 0 ∧ s.takes e 0x0703 [3 + 2 ^ 16 * low 12, low 20] p ∧ ¬s.ctxDenied e.fn p ∧ ¬s.noCtx (ctxKind p) (ctxOwner p) (ctxNo p) :=
  ⟨withCmd (eciCmd 0x0703 ([1, 6])) (ofState), (eciOf 0), [1, 6], _, ⟨rfl, by decide, by decide, by decide⟩⟩

theorem witness_managementCommandsComplete_oflCtxModify :
    ∃ (s : State) (e : Eci) (p : List Nat) (q : Nat), q = p.getD 0 0 ∧ s.takes e 0x0704 ([3 + 2 ^ 16 * low 12, low 20, 7] ++ List.replicate 8 W32 ++ [low 13, low 17]) p ∧ ¬s.ctxDenied e.fn p ∧ ¬(s.noCtx (ctxKind p) (ctxOwner p) (ctxNo p) || modifyBad p) ∧ s.ctxState (ctxKind p) (ctxNo p) ≠ 3 :=
  ⟨withCmd (eciCmd 0x0704 ([0, 5, 3] ++ List.replicate 10 0)) (ofState), (eciOf 0), [0, 5, 3] ++ List.replicate 10 0, _, ⟨rfl, by decide, by decide, by decide, by decide⟩⟩

theorem witness_managementCommandsComplete_oflTlsResync :
    ∃ (s : State) (e : Eci) (p : List Nat) (q : Nat) (a : Session), q = p.getD 0 0 ∧ s.takes e 0x0705 [2 ^ 16 * low 12, low 20, W32, W32, W32] p ∧ ¬s.sessDenied e.fn p ∧ ¬s.noSession p (fun a => a.tlsRx) ∧ a = s.sessions.get (ctxNo p) ∧ a.state ≠ 3 ∧ a.rxState ≠ 0 :=
  ⟨withCmd (eciCmd 0x0705 ([0, 6, 0, 0, 0])) (ofState), (eciOf 0), [0, 6, 0, 0, 0], _, _, ⟨rfl, by decide, by decide, by decide, rfl, by decide, by decide⟩⟩

theorem witness_managementCommandsComplete_oflTlsRxRekey :
    ∃ (s : State) (e : Eci) (p : List Nat) (q : Nat) (a : Session), q = p.getD 0 0 ∧ s.takes e 0x0706 ([2 ^ 16 * low 12, low 20] ++ List.replicate 12 W32) p ∧ a = s.sessions.get (ctxNo p) ∧ ¬s.sessDenied e.fn p ∧ ¬(s.noSession p (fun a => a.tlsRx) || (!a.key256 && anyWord p 7 4)) ∧ a.state ≠ 3 ∧ a.rxState ≠ 0 :=
  ⟨withCmd (eciCmd 0x0706 ([0, 6] ++ List.replicate 12 0)) (ofState), (eciOf 0), [0, 6] ++ List.replicate 12 0, _, _, ⟨rfl, by decide, rfl, by decide, by decide, by decide, by decide⟩⟩

theorem witness_managementCommandsComplete_oflNvmeResync :
    ∃ (s : State) (e : Eci) (p : List Nat) (q : Nat) (a : Session), q = p.getD 0 0 ∧ s.takes e 0x0707 [2 ^ 16 * low 12, low 20, W32] p ∧ ¬s.sessDenied e.fn p ∧ ¬s.noSession p (fun a => a.nvme) ∧ a = s.sessions.get (ctxNo p) ∧ a.state ≠ 3 ∧ ((a.nvState = 1 ∨ a.nvState = 3)) :=
  ⟨withCmd (eciCmd 0x0707 ([0, 6, 0])) (ofState), (eciOf 0), [0, 6, 0], _, _, ⟨rfl, by decide, by decide, by decide, rfl, by decide, by decide⟩⟩

theorem witness_managementCommandsComplete_oflPlaceDrop :
    ∃ (s : State) (e : Eci) (p : List Nat) (q : Nat), q = p.getD 0 0 ∧ s.takes e 0x0708 [2 ^ 16 * low 12, low 20, low 16] p ∧ ¬s.sessDenied e.fn p ∧ ¬(s.noCtx 1 (ctxOwner p) (ctxNo p) || !(s.places.any (fun x => x.1 == placeKey (ctxNo p) (p.getD 2 0)))) :=
  ⟨withCmd (eciCmd 0x0708 ([0, 6, 9])) ({ ofState with places := [(placeKey 6 9, default)] }), (eciOf 0), [0, 6, 9], _, ⟨rfl, by decide, by decide, by decide⟩⟩

theorem witness_managementCommandsComplete_oflMacsecSa :
    ∃ (s : State) (e : Eci) (p : List Nat) (q : Nat) (i : Nat) (a : MacsecSa), q = p.getD 0 0 ∧ s.orders e 0x0709 macsecMasks p ∧ ¬bit q 0 ∧ ¬(!s.xpn (bits q 7 4) && p.getD 5 0 != 0) ∧ a = s.saOfPayload p ∧ s.saPlace a = some i ∧ (s.macsec.get i).state ≠ 3 :=
  ⟨withCmd (eciCmd 0x0709 (List.replicate 17 0)) (ofState), (eciOf 0), List.replicate 17 0, _, 3, _, ⟨rfl, by decide, by decide, by decide, rfl, by decide, by decide⟩⟩

theorem witness_managementCommandsComplete_oflMacsecSaRemove :
    ∃ (s : State) (e : Eci) (p : List Nat) (q : Nat) (i : Nat), q = p.getD 0 0 ∧ s.orders e 0x0709 macsecMasks p ∧ bit q 0 ∧ ¬(s.saPlace (s.saOfPayload p)).isNone ∧ s.saPlace (s.saOfPayload p) = some i :=
  ⟨withCmd (eciCmd 0x0709 (1 :: List.replicate 16 0)) (ofState), (eciOf 0), 1 :: List.replicate 16 0, _, 3, ⟨rfl, by decide, by decide, by decide, by decide⟩⟩

theorem witness_managementCommandsComplete_oflMacsecTxAn :
    ∃ (s : State) (e : Eci) (p : List Nat) (q : Nat), q = p.getD 0 0 ∧ s.orders e 0x070A [low 6] p :=
  ⟨withCmd (eciCmd 0x070A ([0])) (State.reset), (eciOf 0), [0], _, ⟨rfl, by decide⟩⟩

theorem witness_managementCommandsComplete_oflNotify :
    ∃ (s : State) (e : Eci) (p : List Nat) (q : Nat), q = p.getD 0 0 ∧ s.takes e 0x070B [] p :=
  ⟨withCmd (eciCmd 0x070B (([] : List Nat).map (fun _ => 0))) (State.reset), (eciOf 0), ([] : List Nat).map (fun _ => 0), _, ⟨rfl, by decide⟩⟩

theorem witness_managementCommandsComplete_oflQuota :
    ∃ (s : State) (e : Eci) (p : List Nat) (q : Nat), q = p.getD 0 0 ∧ s.orders e 0x070C [low 12, W32, W32, W32] p ∧ (¬(noFunc p || decide (ESP_COUNT < p.getD 1 0 ∨ SESSION_COUNT < p.getD 2 0 ∨ PLACE_COUNT < p.getD 3 0))) ∧ s.espOf q ≤ p.getD 1 0 ∧ s.sessOf q ≤ p.getD 2 0 ∧ s.placesOf q ≤ p.getD 3 0 :=
  ⟨withCmd (eciCmd 0x070C ([0, 0, 0, 0])) (State.reset), (eciOf 0), [0, 0, 0, 0], _, ⟨rfl, by decide, by decide, by decide, by decide, by decide⟩⟩

theorem witness_managementCommandsComplete_frerCaps :
    ∃ (s : State) (e : Eci) (p : List Nat) (q : Nat), q = p.getD 0 0 ∧ s.orders e 0x0800 [] p :=
  ⟨withCmd (eciCmd 0x0800 (([] : List Nat).map (fun _ => 0))) (State.reset), (eciOf 0), ([] : List Nat).map (fun _ => 0), _, ⟨rfl, by decide⟩⟩

theorem witness_managementCommandsComplete_frerMemberSet :
    ∃ (s : State) (e : Eci) (p : List Nat) (q : Nat), q = p.getD 0 0 ∧ s.orders e 0x0801 memberMasks p ∧ ¬bit q 31 ∧ ¬s.memberRefused q (wBytes p 1 4) :=
  ⟨withCmd (eciCmd 0x0801 ([5, 0, 2 ^ 28, 0, 0])) (State.reset), (eciOf 0), [5, 0, 2 ^ 28, 0, 0], _, ⟨rfl, by decide, by decide, by decide⟩⟩

theorem witness_managementCommandsComplete_frerMemberClear :
    ∃ (s : State) (e : Eci) (p : List Nat) (q : Nat), q = p.getD 0 0 ∧ s.orders e 0x0801 memberMasks p ∧ bit q 31 :=
  ⟨withCmd (eciCmd 0x0801 ([2 ^ 31, 0, 0, 0, 0])) (State.reset), (eciOf 0), [2 ^ 31, 0, 0, 0, 0], _, ⟨rfl, by decide, by decide⟩⟩

theorem witness_managementCommandsComplete_frerCtxSet :
    ∃ (s : State) (e : Eci) (p : List Nat) (q : Nat), q = p.getD 0 0 ∧ s.orders e 0x0802 ctxMasks p ∧ ¬bit q 31 ∧ ¬s.ctxRefused q { cfg := wBytes p 1 4 } :=
  ⟨withCmd (eciCmd 0x0802 ([7, 0, 0, 0, 0])) (State.reset), (eciOf 0), [7, 0, 0, 0, 0], _, ⟨rfl, by decide, by decide, by decide⟩⟩

theorem witness_managementCommandsComplete_frerCtxClear :
    ∃ (s : State) (e : Eci) (p : List Nat) (q : Nat), q = p.getD 0 0 ∧ s.orders e 0x0802 ctxMasks p ∧ bit q 31 ∧ ¬s.validMembers.any (fun m => mbCtx m.2 == bits q 10 0) :=
  ⟨withCmd (eciCmd 0x0802 ([2 ^ 31 + 7, 0, 0, 0, 0])) (State.reset), (eciOf 0), [2 ^ 31 + 7, 0, 0, 0, 0], _, ⟨rfl, by decide, by decide, by decide⟩⟩

theorem witness_managementCommandsComplete_frerCtxQuery :
    ∃ (s : State) (e : Eci) (p : List Nat) (q : Nat), q = p.getD 0 0 ∧ s.orders e 0x0803 [low 11, W32, W32] p ∧ w64 p 1 = 0 :=
  ⟨withCmd (eciCmd 0x0803 (([low 11, W32, W32] : List Nat).map (fun _ => 0))) (State.reset), (eciOf 0), ([low 11, W32, W32] : List Nat).map (fun _ => 0), _, ⟨rfl, by decide, by decide⟩⟩

theorem witness_managementCommandsComplete_frerCtxReset :
    ∃ (s : State) (e : Eci) (p : List Nat) (q : Nat), q = p.getD 0 0 ∧ s.orders e 0x0804 [low 11] p ∧ ¬((s.ctx q).kind < 2) ∧ ¬s.isFenced (unitObject 6) q :=
  ⟨withCmd (eciCmd 0x0804 ([7])) ({ State.reset with frer := [(7, { cfg := [2] })] }), (eciOf 0), [7], _, ⟨rfl, by decide, by decide, by decide⟩⟩

theorem witness_managementCommandsComplete_mirCfg :
    ∃ (s : State) (e : Eci) (p : List Nat) (q : Nat), q = p.getD 0 0 ∧ s.orders e 0x0805 [3 + 2 ^ 4 * low 16, W32, low 12, W32, low 16] p ∧ ¬(q % 4 == 3) :=
  ⟨withCmd (eciCmd 0x0805 ([1, 0, 0, 0, 0])) (State.reset), (eciOf 0), [1, 0, 0, 0, 0], _, ⟨rfl, by decide, by decide⟩⟩

theorem witness_managementCommandsComplete_mirStatus :
    ∃ (s : State) (e : Eci) (p : List Nat) (q : Nat), q = p.getD 0 0 ∧ s.orders e 0x0806 [] p :=
  ⟨withCmd (eciCmd 0x0806 (([] : List Nat).map (fun _ => 0))) (State.reset), (eciOf 0), ([] : List Nat).map (fun _ => 0), _, ⟨rfl, by decide⟩⟩

theorem witness_managementCommandsComplete_mirTakeover :
    ∃ (s : State) (e : Eci) (p : List Nat) (q : Nat) (t : State) (n : Nat) (w : List Nat), q = p.getD 0 0 ∧ s.orders e 0x0807 (1 :: List.replicate 8 W32) p ∧ s.mirRole = 2 ∧ ¬s.mir.heads.isEmpty ∧ q = 0 ∧ s.takeover false = .done t n w :=
  (takeover_done (withCmd (eciCmd 0x0807 (List.replicate 9 0)) mirH) false).elim fun x h => ⟨withCmd (eciCmd 0x0807 (List.replicate 9 0)) mirH, eciOf 0, List.replicate 9 0, 0, x.1, x.2.1, x.2.2, ⟨rfl, by decide, by decide, by decide, by decide, h⟩⟩

theorem witness_managementCommandsComplete_mirResolve :
    ∃ (s : State) (e : Eci) (p : List Nat) (q : Nat) (t : State) (n : Nat) (w : List Nat), q = p.getD 0 0 ∧ s.orders e 0x0808 [1] p ∧ s.mirRole = 3 ∧ s.takeover (q == 1) = .done t n w :=
  (takeover_done (withCmd (eciCmd 0x0808 [1]) (mirS 3)) true).elim fun x h => ⟨withCmd (eciCmd 0x0808 [1]) (mirS 3), eciOf 0, [1], 1, x.1, x.2.1, x.2.2, ⟨rfl, by decide, by decide, h⟩⟩

theorem witness_managementCommandsComplete_mirResync :
    ∃ (s : State) (e : Eci) (p : List Nat) (q : Nat), q = p.getD 0 0 ∧ s.orders e 0x0809 [] p ∧ s.mirRole = 1 ∧ s.mir.resync = none :=
  ⟨withCmd (eciCmd 0x0809 ([])) (mirS 1), (eciOf 0), [], _, ⟨rfl, by decide, by decide, by decide⟩⟩

theorem witness_managementCommandsComplete_svcPortCounters :
    ∃ (s : State) (e : Eci) (p : List Nat) (q : Nat) (t : State) (n : Nat) (w : List Nat), q = p.getD 0 0 ∧ s.takes e 0x0A00 [low 5, W32, W32] p ∧ ¬(e.fn != s.manager || s.on F.GLB_COUNTER_OWNER_OWNER 0) ∧ ¬(bit q 4 && bits q 3 0 != 0) ∧ (s.foldCounters q).bufferOut e.fn (w64 p 1) 448 ((s.foldCounters q).totals q) e.io.head? [0] = .done t n w :=
  ⟨withCmd (eciCmd 0x0A00 [0, 0, 0]) State.reset, eciOf 0, [0, 0, 0], 0, (withCmd (eciCmd 0x0A00 [0, 0, 0]) State.reset).foldCounters 0, RC_NOT_READY, _, rfl, by decide, by decide, by decide, svcOut⟩

theorem witness_managementCommandsComplete_svcEvtRoute :
    ∃ (s : State) (e : Eci) (p : List Nat) (q : Nat), q = p.getD 0 0 ∧ s.orders e 0x0A01 [low 10, 2 ^ 31 + 3 * 2 ^ 12 + low 11] p ∧ ¬(decide (576 ≤ q) || decide ((s.fn (bits (p.getD 1 0) 13 12)).grants.vectors ≤ bits (p.getD 1 0) 10 0)) :=
  ⟨withCmd (eciCmd 0x0A01 ([0, 0])) (cpyReady), (eciOf 0), [0, 0], _, ⟨rfl, by decide, by decide⟩⟩

theorem witness_managementCommandsComplete_svcFlashWrite :
    ∃ (s : State) (e : Eci) (p : List Nat) (q : Nat) (c : EciCmd), q = p.getD 0 0 ∧ s.serves e c 0x0A02 [low 8, W32, W32, W32] ∧ p = c.words ∧ ¬(s.flashDenied e.fn || [0, 7, 8, 9, 10].contains q) ∧ ¬(decide (10 < q) || decide (flashSize q < p.getD 3 0)) ∧ ¬s.flashTaken e.fn ∧ ¬(!s.recovery && q == 1 + s.fwSlot) ∧ ¬s.longBusy e.fn :=
  ⟨withCmd (eciCmd 0x0A02 ([6, 0, 0, 0])) (State.reset), (eciOf 0), [6, 0, 0, 0], _, eciCmd 0x0A02 ([6, 0, 0, 0]), ⟨rfl, by decide, rfl, by decide, by decide, by decide, by decide, by decide⟩⟩

theorem witness_managementCommandsComplete_svcFwActivate :
    ∃ (s : State) (e : Eci) (p : List Nat) (q : Nat), q = p.getD 0 0 ∧ s.takes e 0x0A03 [1] p ∧ ¬s.flashDenied e.fn ∧ ¬s.flashTaken e.fn :=
  ⟨withCmd (eciCmd 0x0A03 [1]) State.reset, eciOf 0, [1], _, ⟨rfl, by decide, by decide, by decide⟩⟩

theorem witness_managementCommandsComplete_svcLogRead :
    ∃ (s : State) (e : Eci) (p : List Nat) (q : Nat), q = p.getD 0 0 ∧ s.orders e 0x0A04 [] p :=
  ⟨withCmd (eciCmd 0x0A04 (([] : List Nat).map (fun _ => 0))) (State.reset), (eciOf 0), ([] : List Nat).map (fun _ => 0), _, ⟨rfl, by decide⟩⟩

theorem witness_managementCommandsComplete_svcHbmRetrain :
    ∃ (s : State) (e : Eci) (p : List Nat) (q : Nat) (c : EciCmd), q = p.getD 0 0 ∧ s.serves e c 0x0A05 [3] ∧ p = c.words ∧ e.fn = s.manager ∧ ¬s.longBusy e.fn :=
  ⟨withCmd (eciCmd 0x0A05 (([3] : List Nat).map (fun _ => 0))) (State.reset), (eciOf 0), ([3] : List Nat).map (fun _ => 0), _, eciCmd 0x0A05 (([3] : List Nat).map (fun _ => 0)), ⟨rfl, by decide, rfl, by decide, by decide⟩⟩

theorem witness_managementCommandsComplete_svcWearQuery :
    ∃ (s : State) (e : Eci) (p : List Nat) (q : Nat), q = p.getD 0 0 ∧ s.orders e 0x0A06 [low 16] p ∧ ¬(q != 0xDFFF && !unitListed q) :=
  ⟨withCmd (eciCmd 0x0A06 ([0xDFFF])) (State.reset), (eciOf 0), [0xDFFF], _, ⟨rfl, by decide, by decide⟩⟩
end

section
/-! The invariant: every command keeps it, and it holds at reset. -/

namespace Sys2Proof.Machine

/-- Every command keeps the queue and the invariant: the lemma of its meaning, arm by arm as exec dispatches. -/
theorem good_exec {q : List Instr} (c : Instr) (s : State) (hs : Good q s) : GoodT q (exec c s) :=
  match c with
  | .registerWrite fn place size v => good_execRegisterWrite fn place size v s hs
  | .rcRegisterRead fn place size => good_execRcRegisterRead fn place size s hs
  | .lowWordRead fn off => good_execLowWordRead fn off s hs
  | .creditStall kind ix => good_execCreditStall kind ix s hs
  | .fenceNotice unit obj => good_execFenceNotice unit obj s hs
  | .macRxFrame port x => good_execMacRxFrame port x s hs
  | .grinderParse h => good_execGrinderParse h s hs
  | .l2SourceCheck h => good_execL2SourceCheck h s hs
  | .dispatch pipe => good_execDispatch pipe s hs
  | .reorderRelease h => good_execReorderRelease h s hs
  | .deferredStage h bad => good_execDeferredStage h bad s hs
  | .tmEnqueue h => good_execTmEnqueue h s hs
  | .tmSchedule slice port => good_execTmSchedule slice port s hs
  | .macTxFrame port cells phase stop => good_execMacTxFrame port cells phase stop s hs
  | .rxDma h fault badCell => good_execRxDma h fault badCell s hs
  | .holdListDeliver ring fault badCell => good_execHoldListDeliver ring fault badCell s hs
  | .rxHoldTimeout h => good_execRxHoldTimeout h s hs
  | .txBufferData job reply => good_execTxBufferData job reply s hs
  | .epochCommitted => good_execEpochCommitted s hs
  | .epochDrained => good_execEpochDrained s hs
  | .tsuFreqOffsetWrite fn w v => good_execTsuFreqOffsetWrite fn w v s hs
  | .tsuStepArm fn abs cancel => good_execTsuStepArm fn abs cancel s hs
  | .tsuStepCancel fn abs => good_execTsuStepCancel fn abs s hs
  | .timeStepApplied => good_execTimeStepApplied s hs
  | .tsuSlewSetWrite fn w v => good_execTsuSlewSetWrite fn w v s hs
  | .tsuSlewRateWrite fn v => good_execTsuSlewRateWrite fn v s hs
  | .timeSlewDone => good_execTimeSlewDone s hs
  | .timeSecondBoundary => good_execTimeSecondBoundary s hs
  | .tsuTimeNsfRead fn => good_execTsuTimeNsfRead fn s hs
  | .timeHoldoverEnter => good_execTimeHoldoverEnter s hs
  | .tsuBoardDlyWrite fn port v => good_execTsuBoardDlyWrite fn port v s hs
  | .tsuRefWrite fn v => good_execTsuRefWrite fn v s hs
  | .timeRefLost => good_execTimeRefLost s hs
  | .timeRefRestored => good_execTimeRefRestored s hs
  | .timePllUnlock => good_execTimePllUnlock s hs
  | .ppsInCaptured phase => good_execPpsInCaptured phase s hs
  | .ppsInMissing => good_execPpsInMissing s hs
  | .ovnEnWrite fn v => good_execOvnEnWrite fn v s hs
  | .ovnHoldWrite fn v => good_execOvnHoldWrite fn v s hs
  | .ovnSettling => good_execOvnSettling s hs
  | .ovnLocked => good_execOvnLocked s hs
  | .ovnUnlocked => good_execOvnUnlocked s hs
  | .ovnFaultSense => good_execOvnFaultSense s hs
  | .ovnFaultWarmup => good_execOvnFaultWarmup s hs
  | .ovnOvertemp => good_execOvnOvertemp s hs
  | .ovnOtLatchClear fn tripped => good_execOvnOtLatchClear fn tripped s hs
  | .ovnDutyLimit => good_execOvnDutyLimit s hs
  | .ovnEfcWrite fn v => good_execOvnEfcWrite fn v s hs
  | .prtGroupApply fn group => good_execPrtGroupApply fn group s hs
  | .prtLinkUp port maxSkew refWait => good_execPrtLinkUp port maxSkew refWait s hs
  | .prtLocalFault port => good_execPrtLocalFault port s hs
  | .prtRemoteFault port => good_execPrtRemoteFault port s hs
  | .prtLinkDown port => good_execPrtLinkDown port s hs
  | .portReset fn port v => good_execPortReset fn port v s hs
  | .stormClear fn port v => good_execStormClear fn port v s hs
  | .rxPauseFrame port time => good_execRxPauseFrame port time s hs
  | .rxPfcFrame port enable times => good_execRxPfcFrame port enable times s hs
  | .fcHoldExpire port c => good_execFcHoldExpire port c s hs
  | .xoffRefresh port c => good_execXoffRefresh port c s hs
  | .prtPauseStorm port c => good_execPrtPauseStorm port c s hs
  | .preemptEnableWrite fn port v => good_execPreemptEnableWrite fn port v s hs
  | .preemptVerifyFrame port => good_execPreemptVerifyFrame port s hs
  | .prtFecDegraded port => good_execPrtFecDegraded port s hs
  | .counterOwnerCommit fn v => good_execCounterOwnerCommit fn v s hs
  | .mgmtFrameRx data good => good_execMgmtFrameRx data good s hs
  | .ncsiCommand cmd => good_execNcsiCommand cmd s hs
  | .l2AgeVisit pipe entry => good_execL2AgeVisit pipe entry s hs
  | .l2AgePassStart pipe => good_execL2AgePassStart pipe s hs
  | .tblL2AgeEnWrite fn pipe v => good_execTblL2AgeEnWrite fn pipe v s hs
  | .l2ReadCmd fn v => good_execL2ReadCmd fn v s hs
  | .flowAgeVisit half loc => good_execFlowAgeVisit half loc s hs
  | .seqInc w => good_execSeqInc w s hs
  | .seqJump w => good_execSeqJump w s hs
  | .seqBr w => good_execSeqBr w s hs
  | .seqBrn w => good_execSeqBrn w s hs
  | .seqCall w => good_execSeqCall w s hs
  | .seqRet w => good_execSeqRet w s hs
  | .seqDisp16 w => good_execSeqDisp16 w s hs
  | .seqWait w => good_execSeqWait w s hs
  | .seqDone w => good_execSeqDone w s hs
  | .seqFault w => good_execSeqFault w s hs
  | .aluMov t f imm strict => good_execAluMov t f imm strict s hs
  | .aluAdd t f imm strict => good_execAluAdd t f imm strict s hs
  | .aluSub t f imm strict => good_execAluSub t f imm strict s hs
  | .aluAnd t f imm strict => good_execAluAnd t f imm strict s hs
  | .aluOr t f imm strict => good_execAluOr t f imm strict s hs
  | .aluXor t f imm strict => good_execAluXor t f imm strict s hs
  | .aluAndn t f imm strict => good_execAluAndn t f imm strict s hs
  | .aluShlv t f imm strict => good_execAluShlv t f imm strict s hs
  | .aluShrv t f imm strict => good_execAluShrv t f imm strict s hs
  | .aluSarv t f imm strict => good_execAluSarv t f imm strict s hs
  | .aluMinu t f imm strict => good_execAluMinu t f imm strict s hs
  | .aluMaxu t f imm strict => good_execAluMaxu t f imm strict s hs
  | .aluCmp t f imm strict => good_execAluCmp t f imm strict s hs
  | .aluTst t f imm strict => good_execAluTst t f imm strict s hs
  | .aluIns t f imm strict => good_execAluIns t f imm strict s hs
  | .aluPopc t f imm strict => good_execAluPopc t f imm strict s hs
  | .aluClz t f imm strict => good_execAluClz t f imm strict s hs
  | .aluBswap t f imm strict => good_execAluBswap t f imm strict s hs
  | .aluCrc t f imm strict => good_execAluCrc t f imm strict s hs
  | .aluAddc t f imm strict => good_execAluAddc t f imm strict s hs
  | .aluSubb t f imm strict => good_execAluSubb t f imm strict s hs
  | .aluSel t f imm strict => good_execAluSel t f imm strict s hs
  | .aluMul32 t f imm strict => good_execAluMul32 t f imm strict s hs
  | .memLd t f strict => good_execMemLd t f strict s hs
  | .memSt t f strict => good_execMemSt t f strict s hs
  | .memFadd t f strict => good_execMemFadd t f strict s hs
  | .memSwap t f strict => good_execMemSwap t f strict s hs
  | .memCas t f strict => good_execMemCas t f strict s hs
  | .memAdd t f strict => good_execMemAdd t f strict s hs
  | .memResultArrive t bad => good_execMemResultArrive t bad s hs
  | .tblLookup t f strict => good_execTblLookup t f strict s hs
  | .tblInsert t f strict => good_execTblInsert t f strict s hs
  | .tblDelete t f strict => good_execTblDelete t f strict s hs
  | .tblLearn t f strict => good_execTblLearn t f strict s hs
  | .tblResultArrive t damaged => good_execTblResultArrive t damaged s hs
  | .channelPost t => good_execChannelPost t s hs
  | .inboxMessageArrive t => good_execInboxMessageArrive t s hs
  | .inboxPop t => good_execInboxPop t s hs
  | .signal t v => good_execSignal t v s hs
  | .eventClr t v => good_execEventClr t v s hs
  | .fenceMessage c => good_execFenceMessage c s hs
  | .hostAccessRequest c reply => good_execHostAccessRequest c reply s hs
  | .threadTimerFire t => good_execThreadTimerFire t s hs
  | .supResume c barista => good_execSupResume c barista s hs
  | .supAbort c barista => good_execSupAbort c barista s hs
  | .supFenceThread c barista => good_execSupFenceThread c barista s hs
  | .supFenceEngine c barista => good_execSupFenceEngine c barista s hs
  | .supEscalate c => good_execSupEscalate c s hs
  | .supTimeout t => good_execSupTimeout t s hs
  | .runLimitExpire t => good_execRunLimitExpire t s hs
  | .allWait c e => good_execAllWait c e s hs
  | .debugWindowWrite fn t o w v => good_execDebugWindowWrite fn t o w v s hs
  | .jtagClaim => good_execJtagClaim s hs
  | .jtagRelease => good_execJtagRelease s hs
  | .csEccRepair c bank a patch => good_execCsEccRepair c bank a patch s hs
  | .oflDeferRequest t => good_execOflDeferRequest t s hs
  | .oflCheck t => good_execOflCheck t s hs
  | .espDecrypt x => good_execEspDecrypt x s hs
  | .tlsRx x => good_execTlsRx x s hs
  | .nvmeRxPlace x fault => good_execNvmeRxPlace x fault s hs
  | .oflGroupWake g => good_execOflGroupWake g s hs
  | .jobKeyCheck job => good_execJobKeyCheck job s hs
  | .jobBulkGcm x reply => good_execJobBulkGcm x reply s hs
  | .jobDigest job reply => good_execJobDigest job reply s hs
  | .tmNodeAccess fn v => good_execTmNodeAccess fn v s hs
  | .tmObsCfgWrite fn v => good_execTmObsCfgWrite fn v s hs
  | .tmObsSample => good_execTmObsSample s hs
  | .tmQueueReload q => good_execTmQueueReload q s hs
  | .gclChangeTime port => good_execGclChangeTime port s hs
  | .gateChange port => good_execGateChange port s hs
  | .launchTimeStart x => good_execLaunchTimeStart x s hs
  | .relDeviceWrite fn v => good_execRelDeviceWrite fn v s hs
  | .relCfgWrite fn v => good_execRelCfgWrite fn v s hs
  | .relEnqueue h => good_execRelEnqueue h s hs
  | .relRelease => good_execRelRelease s hs
  | .relSpillReturn h bad => good_execRelSpillReturn h bad s hs
  | .stampFifoDrain port => good_execStampFifoDrain port s hs
  | .stampGapRecord port => good_execStampGapRecord port s hs
  | .jnlCtrlWrite fn v => good_execJnlCtrlWrite fn v s hs
  | .jnlConsWrite fn v => good_execJnlConsWrite fn v s hs
  | .jnlRecordCommit fault => good_execJnlRecordCommit fault s hs
  | .jnlCheckpoint => good_execJnlCheckpoint s hs
  | .jnlSignatureDone => good_execJnlSignatureDone s hs
  | .jnlDigestClose ring rx => good_execJnlDigestClose ring rx s hs
  | .jnlClockRecord cause => good_execJnlClockRecord cause s hs
  | .frerRxDecision h => good_execFrerRxDecision h s hs
  | .frerRecoveryTimeout c => good_execFrerRecoveryTimeout c s hs
  | .frerMmPop fn v => good_execFrerMmPop fn v s hs
  | .mirPeriodicSend => good_execMirPeriodicSend s hs
  | .mirMessageRx msg => good_execMirMessageRx msg s hs
  | .mirPeerSilent => good_execMirPeerSilent s hs
  | .mirFloorLapse g => good_execMirFloorLapse g s hs
  | .hifLinkUp port link rate narrow => good_execHifLinkUp port link rate narrow s hs
  | .hifLinkDown port link => good_execHifLinkDown port link s hs
  | .perstAssert port => good_execPerstAssert port s hs
  | .hifHotReset port link => good_execHifHotReset port link s hs
  | .perstDeassert port => good_execPerstDeassert port s hs
  | .bmeClear f => good_execBmeClear f s hs
  | .bmeSet f => good_execBmeSet f s hs
  | .vfEnableWrite pf on num => good_execVfEnableWrite pf on num s hs
  | .atsEnableClear f => good_execAtsEnableClear f s hs
  | .pasidEnableClear f => good_execPasidEnableClear f s hs
  | .dStateChange f d3 => good_execDStateChange f d3 s hs
  | .msixUnmask f what => good_execMsixUnmask f what s hs
  | .flrStart f => good_execFlrStart f s hs
  | .flrEngineAck f engine => good_execFlrEngineAck f engine s hs
  | .fnFlrSlow f => good_execFnFlrSlow f s hs
  | .evtPendW1c f w v => good_execEvtPendW1c f w v s hs
  | .evtFnW1c f v => good_execEvtFnW1c f v s hs
  | .translationCompletion req r => good_execTranslationCompletion req r s hs
  | .invalidateRequest port tag f pasid base size => good_execInvalidateRequest port tag f pasid base size s hs
  | .invalidateComplete port => good_execInvalidateComplete port s hs
  | .pageResponse f index r => good_execPageResponse f index r s hs
  | .priResponseTimeout index => good_execPriResponseTimeout index s hs
  | .hostReadCompletion port tag reply => good_execHostReadCompletion port tag reply s hs
  | .cplTimeoutExpire tag => good_execCplTimeoutExpire tag s hs
  | .qmSqDb fn page w v => good_execQmSqDb fn page w v s hs
  | .pushSlotWrite fn page off data => good_execPushSlotWrite fn page off data s hs
  | .qmCqDb fn page w v => good_execQmCqDb fn page w v s hs
  | .descFetchComplete ring reply => good_execDescFetchComplete ring reply s hs
  | .txJobStart ring => good_execTxJobStart ring s hs
  | .completionWrite ring bad => good_execCompletionWrite ring bad s hs
  | .cqCoalesceExpire ring => good_execCqCoalesceExpire ring s hs
  | .headStatusWrite ring bad => good_execHeadStatusWrite ring bad s hs
  | .adminEntryTake f entry payload => good_execAdminEntryTake f entry payload s hs
  | .mbxCmdWrite f v => good_execMbxCmdWrite f v s hs
  | .cmdAccept f bad => good_execCmdAccept f bad s hs
  | .mbxAckTimeout f => good_execMbxAckTimeout f s hs
  | .dbFromFwW1c f v => good_execDbFromFwW1c f v s hs
  | .dbFromFwMaskWrite f v => good_execDbFromFwMaskWrite f v s hs
  | .dbToFwReady f v => good_execDbToFwReady f v s hs
  | .dbToFwUnload f v => good_execDbToFwUnload f v s hs
  | .driverAbsent f => good_execDriverAbsent f s hs
  | .fwRestart => good_execFwRestart s hs
  | .fwWatchdog core thread => good_execFwWatchdog core thread s hs
  | .longCommandComplete f io => good_execLongCommandComplete f io s hs
  | .eciVersion e => good_execEciVersion e s hs
  | .eciIdentity e => good_execEciIdentity e s hs
  | .eciFuncInfo e => good_execEciFuncInfo e s hs
  | .eciPoll e => good_execEciPoll e s hs
  | .adminCreate e => good_execAdminCreate e s hs
  | .adminDestroy e => good_execAdminDestroy e s hs
  | .queueCreate e => good_execQueueCreate e s hs
  | .queueDestroy e => good_execQueueDestroy e s hs
  | .queueStart e => good_execQueueStart e s hs
  | .queueStop e => good_execQueueStop e s hs
  | .queueInvalidate e => good_execQueueInvalidate e s hs
  | .queueQuery e => good_execQueueQuery e s hs
  | .fnAssignVfs e => good_execFnAssignVfs e s hs
  | .fnGrant e => good_execFnGrant e s hs
  | .fnQuery e => good_execFnQuery e s hs
  | .fnQuiesce e => good_execFnQuiesce e s hs
  | .fnRelease e => good_execFnRelease e s hs
  | .quiescePendingTimeout f => good_execQuiescePendingTimeout f s hs
  | .fnSave e => good_execFnSave e s hs
  | .fnRestore e => good_execFnRestore e s hs
  | .fnMigrateLog e => good_execFnMigrateLog e s hs
  | .hifMigConsWrite fn slot v => good_execHifMigConsWrite fn slot v s hs
  | .fnRemove e => good_execFnRemove e s hs
  | .mgrRole e => good_execMgrRole e s hs
  | .tblL2Write e => good_execTblL2Write e s hs
  | .tblL2Delete e => good_execTblL2Delete e s hs
  | .tblL2Read e => good_execTblL2Read e s hs
  | .tblL2Flush e => good_execTblL2Flush e s hs
  | .tblFlowInsert e => good_execTblFlowInsert e s hs
  | .tblFlowDelete e => good_execTblFlowDelete e s hs
  | .tblFlowLookup e => good_execTblFlowLookup e s hs
  | .tblRouteBatch e => good_execTblRouteBatch e s hs
  | .tblRouteLookup e => good_execTblRouteLookup e s hs
  | .tmCaps e => good_execTmCaps e s hs
  | .tmNodeCreate e => good_execTmNodeCreate e s hs
  | .tmNodeDestroy e => good_execTmNodeDestroy e s hs
  | .tmNodeSet e => good_execTmNodeSet e s hs
  | .tmNodeQuery e => good_execTmNodeQuery e s hs
  | .tmQueueFlush e => good_execTmQueueFlush e s hs
  | .tmMcastSet e => good_execTmMcastSet e s hs
  | .tmMcastQuery e => good_execTmMcastQuery e s hs
  | .tmObsDump e => good_execTmObsDump e s hs
  | .tmTenantGrant e => good_execTmTenantGrant e s hs
  | .timeGet e => good_execTimeGet e s hs
  | .timeFreq e => good_execTimeFreq e s hs
  | .timeStep e => good_execTimeStep e s hs
  | .timeStepCancel e => good_execTimeStepCancel e s hs
  | .timeSlew e => good_execTimeSlew e s hs
  | .timeStatus e => good_execTimeStatus e s hs
  | .timeIo e => good_execTimeIo e s hs
  | .ovenSet e => good_execOvenSet e s hs
  | .ovenStatus e => good_execOvenStatus e s hs
  | .relCaps e => good_execRelCaps e s hs
  | .relGroupSet e => good_execRelGroupSet e s hs
  | .relGroupQuery e => good_execRelGroupQuery e s hs
  | .relStampRing e => good_execRelStampRing e s hs
  | .relStampRingClear e => good_execRelStampRingClear e s hs
  | .jnlQueueSet e => good_execJnlQueueSet e s hs
  | .jnlQueueRemove e => good_execJnlQueueRemove e s hs
  | .jnlIdentity e => good_execJnlIdentity e s hs
  | .jnlStatus e => good_execJnlStatus e s hs
  | .jnlRestart e => good_execJnlRestart e s hs
  | .oflCaps e => good_execOflCaps e s hs
  | .oflCtxCreate e => good_execOflCtxCreate e s hs
  | .oflCtxDestroy e => good_execOflCtxDestroy e s hs
  | .oflCtxQuery e => good_execOflCtxQuery e s hs
  | .oflCtxModify e => good_execOflCtxModify e s hs
  | .oflTlsResync e => good_execOflTlsResync e s hs
  | .oflTlsRxRekey e => good_execOflTlsRxRekey e s hs
  | .oflNvmeResync e => good_execOflNvmeResync e s hs
  | .oflPlaceDrop e => good_execOflPlaceDrop e s hs
  | .oflMacsecSa e => good_execOflMacsecSa e s hs
  | .oflMacsecSaRemove e => good_execOflMacsecSaRemove e s hs
  | .oflMacsecTxAn e => good_execOflMacsecTxAn e s hs
  | .oflNotify e => good_execOflNotify e s hs
  | .oflQuota e => good_execOflQuota e s hs
  | .frerCaps e => good_execFrerCaps e s hs
  | .frerMemberSet e => good_execFrerMemberSet e s hs
  | .frerMemberClear e => good_execFrerMemberClear e s hs
  | .frerCtxSet e => good_execFrerCtxSet e s hs
  | .frerCtxClear e => good_execFrerCtxClear e s hs
  | .frerCtxQuery e => good_execFrerCtxQuery e s hs
  | .frerCtxReset e => good_execFrerCtxReset e s hs
  | .mirCfg e => good_execMirCfg e s hs
  | .mirStatus e => good_execMirStatus e s hs
  | .mirTakeover e => good_execMirTakeover e s hs
  | .mirResolve e => good_execMirResolve e s hs
  | .mirResync e => good_execMirResync e s hs
  | .epochStage e => good_execEpochStage e s hs
  | .epochCommit e => good_execEpochCommit e s hs
  | .epochAbandon e => good_execEpochAbandon e s hs
  | .epochStatus e => good_execEpochStatus e s hs
  | .svcPortCounters e => good_execSvcPortCounters e s hs
  | .svcEvtRoute e => good_execSvcEvtRoute e s hs
  | .svcFlashWrite e => good_execSvcFlashWrite e s hs
  | .svcFwActivate e => good_execSvcFwActivate e s hs
  | .recoveryFlashRelease => good_execRecoveryFlashRelease s hs
  | .svcLogRead e => good_execSvcLogRead e s hs
  | .svcHbmRetrain e => good_execSvcHbmRetrain e s hs
  | .svcWearQuery e => good_execSvcWearQuery e s hs
  | .dbgHalt v => good_execDbgHalt v s hs
  | .dbgResume v => good_execDbgResume v s hs
  | .dbgStep v => good_execDbgStep v s hs
  | .dbgAbort v => good_execDbgAbort v s hs
  | .dbgBpSet v => good_execDbgBpSet v s hs
  | .dbgSoftBp v => good_execDbgSoftBp v s hs
  | .cpyGo fn ch v => good_execCpyGo fn ch v s hs
  | .cpyStop fn ch v => good_execCpyStop fn ch v s hs
  | .cpyChCfgWrite fn ch w v => good_execCpyChCfgWrite fn ch w v s hs
  | .cpyTurn unit io => good_execCpyTurn unit io s hs
  | .cpyFlushDone ch failed lost => good_execCpyFlushDone ch failed lost s hs
  | .cpyPaceMessage ch => good_execCpyPaceMessage ch s hs
  | .hbmAccess region off write r late => good_execHbmAccess region off write r late s hs
  | .hbmRowClose pc bank => good_execHbmRowClose pc bank s hs
  | .hbmRefreshDue pc bank busy => good_execHbmRefreshDue pc bank busy s hs
  | .hbmSrEnter k => good_execHbmSrEnter k s hs
  | .hbmSrExit k => good_execHbmSrExit k s hs
  | .hbmTempHigh k t => good_execHbmTempHigh k t s hs
  | .hbmDrift k t => good_execHbmDrift k t s hs
  | .hbmSoftRepair pc bank row => good_execHbmSoftRepair pc bank row s hs
  | .glbFencePop fn v => good_execGlbFencePop fn v s hs
  | .glbFatal unit => good_execGlbFatal unit s hs
  | .fatalResetTimeout io => good_execFatalResetTimeout io s hs
  | .fwCoreSpared position => good_execFwCoreSpared position s hs
  | .wearSample d khz => good_execWearSample d khz s hs
  | .wearRecordSave stress => good_execWearRecordSave stress s hs
  | .powerOn io => good_execPowerOn io s hs
  | .bootWatchdog io => good_execBootWatchdog io s hs
  | .vinLoss mv => good_execVinLoss mv s hs
  | .vinRestored x io => good_execVinRestored x io s hs
  | .vinOvercurrent ca ns => good_execVinOvercurrent ca ns s hs
  | .phaseFault n => good_execPhaseFault n s hs
  | .railFault d => good_execRailFault d s hs
  | .clusterGate c => good_execClusterGate c s hs
  | .clusterUngate c => good_execClusterUngate c s hs
  | .deepIdleEnter => good_execDeepIdleEnter s hs
  | .deepIdleExit => good_execDeepIdleExit s hs
  | .throttleRise x => good_execThrottleRise x s hs
  | .throttleFall x => good_execThrottleFall x s hs
  | .tjCrit x => good_execTjCrit x s hs
  | .thermalTrip x => good_execThermalTrip x s hs
  | .corePllUnlock => good_execCorePllUnlock s hs
  | .corePllTimeout => good_execCorePllTimeout s hs
  | .coldRstN ns x io => good_execColdRstN ns x io s hs
  | .glbResetCold fn v io => good_execGlbResetCold fn v io s hs
  | .glbResetWarm fn v io => good_execGlbResetWarm fn v io s hs
  | .glbResetCluster fn v failed => good_execGlbResetCluster fn v failed s hs
  | .timeClockTick => good_execTimeClockTick s hs
  | .ovnAdcSample code tripped => good_execOvnAdcSample code tripped s hs
  | .uncorrectableStateError unit obj frames => good_execUncorrectableStateError unit obj frames s hs
  | .rateWindowEnd r errors => good_execRateWindowEnd r errors s hs
  | .vinAonLoss mv => good_execVinAonLoss mv s hs
  | .pwrVinLow mv => good_execPwrVinLow mv s hs
  | .pwrVinHigh mv => good_execPwrVinHigh mv s hs
  | .pwrVinAonLow mv => good_execPwrVinAonLow mv s hs
  | .corePllRelock => good_execCorePllRelock s hs
  | .pwrTjHigh x => good_execPwrTjHigh x s hs
  | .pwrSensorFault sensor t => good_execPwrSensorFault sensor t s hs
  | .hbmTempCrit k t => good_execHbmTempCrit k t s hs
  | .hbmTempNormal k t => good_execHbmTempNormal k t s hs
  | .prtRemoteFaultEnd port => good_execPrtRemoteFaultEnd port s hs
  | .prtLocalFaultEnd port => good_execPrtLocalFaultEnd port s hs
  | .preemptResponseRx port => good_execPreemptResponseRx port s hs
  | .mgmtLinkUp speed => good_execMgmtLinkUp speed s hs
  | .mgmtLinkDown => good_execMgmtLinkDown s hs
  | .ncsiPassthroughFrame data => good_execNcsiPassthroughFrame data s hs
  | .priReset f alloc => good_execPriReset f alloc s hs
  | .tmDelayAlarm q => good_execTmDelayAlarm q s hs
  | .flowAgePassStart half => good_execFlowAgePassStart half s hs
  | .mirResyncDone => good_execMirResyncDone s hs

/-- The invariant does not read the queue. -/
theorem inv_setPending {s : State} (h : s.Inv) (q : List Instr) : ({ s with pending := q } : State).Inv :=
  ⟨h.time, h.manager, h.fwLog, h.fenceLog, h.mmLog, h.regs, h.localMem, h.tsram, h.hbmMem, h.copyWin⟩

/-- Every command keeps the invariant. -/
theorem exec_keeps_inv {c : Instr} {s t : State} (h : s.Inv) (e : exec c s = .next t) : t.Inv :=
  (good_iff.mp (good_exec c s (good_iff.mpr ⟨rfl, h⟩) t e)).2

/-- Settles O53: an idle step leaves the state, and any other is the command at the front of the queue. -/
theorem stepKeepsInvariant : Obligations.StepKeepsInvariant := by
  intro s t h e
  cases hq : s.pending with
  | nil =>
    simp only [step, hq] at e
    cases e
    exact h
  | cons c rest =>
    simp only [step, hq] at e
    exact exec_keeps_inv (inv_setPending h rest) e

/-- Settles O52: device time starts at 0, the role lies with PF0, and the logs, the registers off their reset values and
the memories are empty. -/
theorem resetInvariant : Obligations.ResetInvariant where
  time := ⟨by decide, by decide, by decide⟩
  manager := .inl rfl
  fwLog := Nat.zero_le _
  fenceLog := Nat.zero_le _
  mmLog := Nat.zero_le _
  regs := List.Pairwise.nil
  localMem := memCanon_nil
  tsram := memCanon_nil
  hbmMem := memCanon_nil
  copyWin := memCanon_nil

end Sys2Proof.Machine
end

section
/-! Registers and their fields: read after write, and what a write leaves. -/

namespace Sys2Proof.Machine

/-- A register reads what was last written to it, and no write of another element changes it. -/
theorem reg_setReg (s : State) (r q : Reg) (i j : Nat) (v : Word) :
    (s.setReg r i v).reg q j = if q = r ∧ j = i then v else s.reg q j := by
  unfold State.reg State.setReg
  by_cases h : q = r ∧ j = i
  · obtain ⟨rfl, rfl⟩ := h
    simp [SMap.getD_setD]
  · rw [if_neg h, SMap.getD_setD_ne]
    intro e
    obtain ⟨rfl, rfl⟩ := regKey_inj.mp e
    exact h ⟨rfl, rfl⟩

/-- The register of a field after a write of the field. -/
theorem reg_wr_same (s : State) (f : Fld) (i v : Nat) (h : f.lo ≤ f.hi) (g : f.hi < 64) :
    ((s.wr f i v).reg f.reg i).toNat = putBits (s.reg f.reg i).toNat f.hi f.lo v := by
  unfold State.wr
  rw [reg_setReg, if_pos ⟨rfl, rfl⟩, BitVec.toNat_ofNat, Nat.mod_eq_of_lt (putBits_lt h g (BitVec.isLt _))]

/-- A field reads the low bits of what was written to it. -/
theorem bits_putBits_same (x v : Nat) {hi lo : Nat} (h : lo ≤ hi) : bits (putBits x hi lo v) hi lo = v % 2 ^ (hi + 1 - lo) := by
  refine Nat.eq_of_testBit_eq fun k => ?_
  rw [testBit_bits, testBit_putBits _ _ _ _ _ h, Nat.testBit_mod_two_pow]
  by_cases a : k < hi + 1 - lo
  · rw [if_pos (by omega), Nat.add_sub_cancel]
  · simp [a]

/-- A field that shares no bit with the one written reads as before. -/
theorem bits_putBits_disjoint (x v : Nat) {hi lo hi' lo' : Nat} (h : lo ≤ hi) (d : hi < lo' ∨ hi' < lo) :
    bits (putBits x hi lo v) hi' lo' = bits x hi' lo' := by
  refine Nat.eq_of_testBit_eq fun k => ?_
  rw [testBit_bits, testBit_bits, testBit_putBits _ _ _ _ _ h]
  by_cases a : k < hi' + 1 - lo'
  · rw [if_neg (by omega)]
  · simp [a]

/-- A field holds the low bits of what was last written to it. -/
theorem rd_wr_same (s : State) (f : Fld) (i v : Nat) (h : f.lo ≤ f.hi) (g : f.hi < 64) :
    (s.wr f i v).rd f i = v % 2 ^ (f.hi + 1 - f.lo) := by
  unfold State.rd
  rw [reg_wr_same s f i v h g, bits_putBits_same _ _ h]

/-- A write of a field leaves every field that shares no bit with it. -/
theorem rd_wr_disjoint (s : State) (f g : Fld) (i j v : Nat) (hf : f.lo ≤ f.hi) (hf' : f.hi < 64)
    (d : f.reg ≠ g.reg ∨ i ≠ j ∨ f.hi < g.lo ∨ g.hi < f.lo) : (s.wr f i v).rd g j = s.rd g j := by
  unfold State.rd
  by_cases e : g.reg = f.reg ∧ j = i
  · obtain ⟨e, rfl⟩ := e
    rw [e, reg_wr_same s f j v hf hf']
    exact bits_putBits_disjoint _ _ hf (by simpa [e] using d)
  · unfold State.wr
    rw [reg_setReg, if_neg e]

/-- Settles O55, from the registers' keys and the bits of a field. -/
theorem registerReadWrite : Obligations.RegisterReadWrite :=
  ⟨reg_setReg, fun _ _ _ _ => rfl, rd_wr_same, fun s f g i j v hf hf' _ _ => rd_wr_disjoint s f g i j v hf hf'⟩

end Sys2Proof.Machine
end

section
/-! Host accesses of registers, place by place, and the MACs' frames, case by case. -/

namespace Sys2Proof.Machine

/-- What does not come about leaves the state. -/
@[simp] theorem when_false (s : State) (f : State → State) : s.when false f = s := rfl

/-! ### Register accesses -/

/-- A write of ATS Enable of an open function acts. -/
theorem execRegisterWrite_ats {s : State} {fn : Nat} (size v : Nat) (h : s.fnOpen fn = true) :
    execRegisterWrite fn .ats size v s = .next (s.atsWrite fn (bit v 0)) := congrArg _ (if_pos h)

/-- A write of PASID Enable of an open function acts. -/
theorem execRegisterWrite_pasid {s : State} {fn : Nat} (size v : Nat) (h : s.fnOpen fn = true) :
    execRegisterWrite fn .pasid size v s = .next (s.pasidWrite fn (bit v 0)) := congrArg _ (if_pos h)

/-- A write of configuration space, once firmware serves, changes its bytes of the word. -/
theorem cfgWrite_served {s : State} {fn off size : Nat} (v : Nat) (ho : s.cfgOpen fn = true) (hz : cfgSize off size = true) (hu : s.fwUp = true) :
    s.cfgWrite fn off size v = s.cfgWordWrite fn (off / 4 * 4)
      (putBits (s.cfgWord fn (off / 4 * 4) % 2 ^ 32) (8 * (off % 4) + 8 * size - 1) (8 * (off % 4)) v) := by
  simp [State.cfgWrite, ho, hz, hu]

/-- A read of configuration space, once firmware serves, is answered with its bytes of the word. -/
theorem cfgRead_served {s : State} {fn off size : Nat} (ho : s.cfgOpen fn = true) (hz : cfgSize off size = true) (hu : s.fwUp = true) :
    s.cfgRead fn off size =
      s.send (.readValue fn (2 ^ 32 + off) (s.cfgWord fn (off / 4 * 4) / 2 ^ (8 * (off % 4)) % 2 ^ (8 * size))) := by
  simp [State.cfgRead, ho, hz, hu]

/-- Before firmware serves, a write of configuration space is completed with Request Retry Status. -/
theorem cfgWrite_retry {s : State} {fn off size : Nat} (v : Nat) (ho : s.cfgOpen fn = true) (hz : cfgSize off size = true) (hu : s.fwUp = false) :
    s.cfgWrite fn off size v = s.send (.retryStatus fn off) := by
  simp [State.cfgWrite, ho, hz, hu]

/-- Before firmware serves, a read of configuration space is completed with Request Retry Status. -/
theorem cfgRead_retry {s : State} {fn off size : Nat} (ho : s.cfgOpen fn = true) (hz : cfgSize off size = true) (hu : s.fwUp = false) :
    s.cfgRead fn off size = s.send (.retryStatus fn off) := by
  simp [State.cfgRead, ho, hz, hu]

/-- The manager's read of BAR2 is answered, and its side effects come about. -/
theorem busRead_bar2 {s : State} (off size : Nat) (hp : s.supply.power = .on) (hr : s.recovery = false) (hm : mayManage s.manager = true) :
    s.busRead s.manager (.bar2 off) size =
      (s.bar2Read s.manager off size).2.send (.readValue s.manager off (s.bar2Read s.manager off size).1) := by
  simp [State.busRead, hp, hr, hm]

/-- A read of BAR0 is answered while the rails are up. -/
theorem busRead_bar0 {s : State} (fn off size : Nat) (hp : s.supply.power = .on) :
    s.busRead fn (.bar0 off) size = s.send (.readValue fn off (if s.fnOpen fn then s.bar0Read fn off size else 0)) := by
  simp [State.busRead, hp]

/-! ### Reception -/

/-- The MAC of a port that is up, not fenced, takes a frame while no fatal condition stands (R70, R78). -/
theorem execMacRxFrame_up {s : State} {port : Nat} (x : RxFrame) (hp : port < 16) (hl : s.on F.PRT_STATUS_LINK_UP port = true)
    (hf : s.isFenced (unitPort port) 0 = false) (hx : s.fatal = none) :
    execMacRxFrame port x s = .next (
      let k := (s.countPcs port x).rxKey port
      let s := k.1.countBy .PRT_CTR port C.PRT_MM_FRAG_RX x.frags
      if x.assyErr then s.count .PRT_CTR port C.PRT_MM_ASSY_ERR
      else (s.when (x.frags != 0) (fun t => t.count .PRT_CTR port C.PRT_MM_ASSY_OK)).macRx port x k.2) := by
  unfold execMacRxFrame
  rw [if_pos ⟨hp, hl, by simp [hf], hx⟩]

/-! ### Transmission -/

section transmit
variable {s : State} {port : Nat} (x : TxIo)

/-- The frame on a port's wire goes on. -/
theorem macTx_onWire {k : Nat} (hp : port < 16) (hw : s.onWire port = some k) : s.macTx port x = s.goOn port k x := by
  simp [State.macTx, Nat.not_le.mpr hp, hw]

/-- A port that is down or fenced discards the first frame handed to its MAC (R69). -/
theorem macTx_down {h : Nat} {l : List Nat} (hp : port < 16) (hw : s.onWire port = none)
    (hd : s.on F.PRT_STATUS_LINK_UP port = false ∨ s.isFenced (unitPort port) 0 = true) (hl : s.atStage (.txCell port) = h :: l) :
    s.macTx port x = (s.count .PRT_CTR port C.PRT_TX_DROP_LINK_DOWN).dropPkt h 0x0C := by
  simp [State.macTx, Nat.not_le.mpr hp, hw, hd, hl]

section up
variable (hp : port < 16) (hw : s.onWire port = none) (hl : s.on F.PRT_STATUS_LINK_UP port = true) (hf : s.isFenced (unitPort port) 0 = false)
include hp hw hl hf

/-- An idle port that is up starts the frame that is next, after those that can never start are dropped. -/
theorem macTx_starts {h : Nat} {p : Packet} (hn : (s.dropStuck port).nextTx port = some (h, p)) :
    s.macTx port x = (s.dropStuck port).startTx port h p x := by
  simp [State.macTx, Nat.not_le.mpr hp, hw, hl, hf, hn]

/-- With no frame to start, a preempted frame that nothing holds resumes (R78). -/
theorem macTx_resumes {y : TxNow} (hn : (s.dropStuck port).nextTx port = none)
    (hy : (s.dropStuck port).txNow.getD (2 * port + 1) none = some y)
    (hc : (s.dropStuck port).classHeld port ((s.dropStuck port).node 3 (((s.dropStuck port).pkt y.h).getD {}).queue).tc = false)
    (hm : (s.dropStuck port).holdMac port = false) :
    s.macTx port x = (s.dropStuck port).goOn port (2 * port + 1) x := by
  simp [State.macTx, Nat.not_le.mpr hp, hw, hl, hf, hn, hy, hc, hm]

end up

/-- A launch-time frame that is late on a queue that does not send late is dropped (R221). -/
theorem startTx_dropsLate {h : Nat} {p : Packet} (hl : p.isLate (s.node 3 p.queue) (shortOf (s.txStamp port x.phase)) = true)
    (hs : (s.node 3 p.queue).lateSend = false) : s.startTx port h p x = s.dropLate (p.queue / 32768) h := by
  simp [State.startTx, hl, hs]

/-- A frame whose cells are whole starts as MACsec leaves it: refused, too long for the port, or on the wire (R70, R202). -/
theorem startTx_sealed {u t : State} {h stamp : Nat} {p : Packet} {n : Node} {l : Bool} {f : Bytes} {a : State × Bytes} {m : Option Bytes}
    (hn : n = s.node 3 p.queue) (hs : stamp = s.txStamp port x.phase) (hl : l = p.isLate n (shortOf stamp)) (hd : (l && !n.lateSend) = false)
    (hu : u = s.when l (fun t => t.sentLate (p.queue / 32768) h p)) (hf : f = p.rtag.elim p.data (fun n => insertRTag p.data n))
    (ha : a = u.ptpTx port p f stamp) (hb : (x.badCell || p.badCell) = false) (hm : a.1.macsecTx port a.2 = (t, m)) :
    s.startTx port h p x = m.elim (t.used.dropPkt h (t.fresh % 256)) (fun g =>
      if u.rd F.PRT_MAC_CFG_MAX_FRAME port < max 64 (g.length + 4) then t.dropPkt h 2
      else ((t.stampTx port p stamp).moveTo h (.sending port)).carry port (2 * port + b2n (t.preemptable port n.tc))
        { h := h, data := g, stomp := x.starved || p.badFcs } x.stop) := by
  subst hn hs hl hu hf ha
  -- with an R-TAG to insert or none, and with MACsec's frame or none
  cases hr : p.rtag <;> simp only [hr, Option.elim] at hm <;>
    cases m <;> simp [State.startTx, hd, hr, hb, hm]

end transmit

/-- Settles O49, place by place and frame by frame. -/
theorem registerAccess : Obligations.RegisterAccess := by
  refine ⟨?bar2Write, ?bar0Write, ?atsOn, ?atsOff, ?pasidOn, ?pasidOff, ?pri, ?cfgWrite, ?cfgRead, ?cfgRetry, ?bar2Read, ?bar0Read,
    ?atsRead, ?pasidRead, ?priRead, ?lowWordRead, ?receives, ?down, ?goesOn, ?resumes, ?leaves, ?tooLong, ?refused, ?late⟩
  case bar2Write => exact fun s fn off size v h => congrArg _ (asManager_of h _)
  case bar0Write => exact fun s fn off size v h => congrArg _ (if_pos h)
  case atsOn | atsOff => exact fun s fn size v h hv => (execRegisterWrite_ats size v h).trans (by rw [hv]; rfl)
  case pasidOn | pasidOff => exact fun s fn size v h hv => (execRegisterWrite_pasid size v h).trans (by rw [hv]; rfl)
  case pri => exact fun s fn alloc size v h => congrArg _ (if_neg (by simp [h]))
  case cfgWrite =>
    rintro s fn off size v _ ho hz hu rfl
    exact congrArg _ (cfgWrite_served v ho hz hu)
  case cfgRead => exact fun s fn off size ho hz hu => congrArg _ (cfgRead_served ho hz hu)
  case cfgRetry => exact fun s fn off size v ho hz hu => ⟨congrArg _ (cfgWrite_retry v ho hz hu), congrArg _ (cfgRead_retry ho hz hu)⟩
  case bar2Read => exact fun s off size hp hr hm => congrArg _ (busRead_bar2 off size hp hr hm)
  case bar0Read => exact fun s fn off size hp => congrArg _ (busRead_bar0 fn off size hp)
  case atsRead | pasidRead => exact fun s fn size => rfl
  case priRead => exact fun s fn alloc size => rfl
  case lowWordRead => exact fun s off hp hr hm => congrArg _ (busRead_bar2 off 4 hp hr hm)
  case receives => exact fun _ _ x hp hl hf hx => execMacRxFrame_up x hp hl hf hx
  case down => exact fun s port h x l hp hw hd hl => congrArg _ (macTx_down x hp hw hd hl)
  case goesOn => exact fun s port k x hp hw => congrArg _ (macTx_onWire x hp hw)
  case resumes =>
    rintro s _ port x y hp hw hl hf rfl hn hy hc hm
    exact congrArg _ (macTx_resumes x hp hw hl hf hn hy hc hm)
  case leaves =>
    rintro s _ u t port h stamp x p n l f g a hp hw hl hf rfl hn hnode hstamp hlate hd hu hframe ha hb hm hlen
    exact congrArg _ ((macTx_starts x hp hw hl hf hn).trans
      ((startTx_sealed x hnode hstamp hlate hd hu hframe ha hb hm).trans (if_neg (Nat.not_lt.mpr hlen))))
  case tooLong =>
    rintro s _ u t port h stamp x p n l f g a hp hw hl hf rfl hn hnode hstamp hlate hd hu hframe ha hb hm hlen
    exact congrArg _ ((macTx_starts x hp hw hl hf hn).trans
      ((startTx_sealed x hnode hstamp hlate hd hu hframe ha hb hm).trans (if_pos hlen)))
  case refused =>
    rintro s _ u t port h stamp x p n l f a hp hw hl hf rfl hn hnode hstamp hlate hd hu hframe ha hb hm
    exact congrArg _ ((macTx_starts x hp hw hl hf hn).trans (startTx_sealed x hnode hstamp hlate hd hu hframe ha hb hm))
  case late =>
    rintro s _ port h stamp x p _ hp hw hl hf rfl hn rfl rfl hlate hs
    exact congrArg _ ((macTx_starts x hp hw hl hf hn).trans (startTx_dropsLate x hlate hs))

end Sys2Proof.Machine
end

section
/-! What the gates of commands say of commands that take their payload, of the manager's own, and of JTAG's. -/

namespace Sys2Proof.Machine

/-- The manager is not denied the commands that are its own. -/
theorem managerOnly_manager {s : State} {f : Nat} (h : f = s.manager) (p : List Nat) : s.managerOnly f p = false := by
  simp [State.managerOnly, h]

/-- A command that takes its payload, is neither denied nor malformed, and ends at once, is answered as its run says. -/
theorem eci_takes {s t : State} {e : Eci} {code rc : Nat} {masks p w : List Nat} {pick denied bad : List Nat → Bool} {run : List Nat → EciOut}
    (h : s.takes e code masks p) (hp : pick p = true) (hd : ¬denied p = true) (hb : ¬bad p = true) (hr : run p = .done t rc w) :
    s.eci e code pick denied masks bad run = .next (t.answers e rc w) := by
  obtain ⟨c, -, hc, rfl⟩ := h
  exact eci_of hc hp (Bool.eq_false_iff.mpr hd) (Bool.eq_false_iff.mpr hb) hr

/-- A command of the manager alone, neither malformed nor long, is answered as its run says. -/
theorem eci_orders {s t : State} {e : Eci} {code rc : Nat} {masks p w : List Nat} {pick bad : List Nat → Bool} {run : List Nat → EciOut}
    (h : s.orders e code masks p) (hp : pick p = true) (hb : ¬bad p = true) (hr : run p = .done t rc w) :
    s.eci e code pick (s.managerOnly e.fn) masks bad run = .next (t.answers e rc w) :=
  eci_takes h.1 hp (Bool.eq_false_iff.mp (managerOnly_manager h.2 p)) hb hr

/-- A long command of the manager alone, not malformed, starts as its run says. -/
theorem eci_ordersLong {s t : State} {e : Eci} {c : EciCmd} {code : Nat} {masks p : List Nat} {pick bad : List Nat → Bool}
    {run : List Nat → EciOut} (h : s.serves e c code masks) (hc : p = c.words) (hm : e.fn = s.manager) (hp : pick p = true)
    (hb : ¬bad p = true) (hr : run p = .started t) :
    s.eci e code pick (s.managerOnly e.fn) masks bad run = .next (t.ticketed e c) := by
  subst hc
  exact eci_started h hp (managerOnly_manager hm _) (Bool.eq_false_iff.mpr hb) hr

/-- A debug command that JTAG owns acts (R143). -/
theorem debugCmd_jtag {s : State} {code : Nat} {cluster : List Nat → Nat} {masks p : List Nat} (h : s.jtagTakes (cluster p) code masks p)
    (run : List Nat → State × Nat) : s.debugCmd (.jtag p) code cluster masks run = .next (run p).1 :=
  congrArg _ (if_pos (Bool.and_eq_true_iff.mpr h))

/-- A field of another register than the mailbox's status does not say whether a function's commands are fenced. -/
theorem eciFenced_wr (s : State) {x : Fld} (h : x.reg ≠ F.MBX_STATUS_FENCED.reg ∧ x.lo ≤ x.hi ∧ x.hi < 64) (i v f code : Nat) :
    (s.wr x i v).eciFenced f code = s.eciFenced f code := by
  simp only [State.eciFenced, State.on, rd_wr_disjoint s x F.MBX_STATUS_FENCED i f v h.2.1 h.2.2 (.inl h.1)]

end Sys2Proof.Machine
end

section
/-! Single bits of a register, and what a list of updates keeps. -/

namespace Sys2Proof.Machine

/-- What holds of no member as one of two is not held by any as the first, nor as the second. -/
theorem not_any_or {α : Type} {l : List α} {f g : α → Bool} (h : ¬l.any (fun k => f k || g k) = true) :
    ¬l.any f = true ∧ ¬l.any g = true := by
  simp only [List.any_eq_true, Bool.or_eq_true, not_exists, not_and, not_or] at h ⊢
  exact ⟨fun k hk => (h k hk).1, fun k hk => (h k hk).2⟩

/-- A bit is the number's test bit. -/
theorem bit_eq_testBit (x k : Nat) : bit x k = x.testBit k := (Nat.testBit_eq_decide_div_mod_eq).symm

/-- A bit reads what was written to it. -/
theorem bit_putBits_same (x v k : Nat) : bit (putBits x k k v) k = bit v 0 := by
  rw [bit_eq_testBit, testBit_putBits x k k v k le_rfl, if_pos ⟨le_rfl, le_rfl⟩, Nat.sub_self, bit_eq_testBit]

/-- A write of one bit leaves every other. -/
theorem bit_putBits_other (x v : Nat) {k j : Nat} (h : j ≠ k) : bit (putBits x k k v) j = bit x j := by
  rw [bit_eq_testBit, testBit_putBits x k k v j le_rfl, if_neg (by omega), bit_eq_testBit]

/-- What each element leaves of a state, the whole list leaves. -/
theorem each_keeps {α β : Type} {g : State → β} {f : α → State → State} (hf : ∀ a t, g (f a t) = g t) (l : List α) (s : State) :
    g (s.each l f) = g s := by
  induction l generalizing s with
  | nil => rfl
  | cons a l ih => exact (ih (f a s)).trans (hf a s)

/-- A read on the host link leaves the registers. -/
theorem sendRead_regs (s : State) (f addr : Nat) (pasid : Option Nat) (n : Nat) : (s.sendRead f addr pasid n).regs = s.regs := by
  unfold State.sendRead
  exact each_keeps (g := State.regs) (by intros; rfl) _ _

/-- A read on the host link leaves the personality. -/
theorem sendRead_recovery (s : State) (f addr : Nat) (pasid : Option Nat) (n : Nat) : (s.sendRead f addr pasid n).recovery = s.recovery := by
  unfold State.sendRead
  exact each_keeps (g := State.recovery) (by intros; rfl) _ _

end Sys2Proof.Machine
end

section
/-! Errors, fences and rate windows, row by row. -/

namespace Sys2Proof.Machine

/-- The watchdog fences the consumer of a queue that stalls (R22). -/
theorem execCreditStall_stalls {s : State} {kind : QueueKind} {ix : Nat} (he : s.on F.GLB_CREDIT_WDOG_EN 0 = true)
    (hl : queueListed (watchedQueue kind ix) = true) (hf : s.isFenced (queueUnit (watchedQueue kind ix)) 0 = false)
    (hs : s.stalls (watchedQueue kind ix) = true) :
    execCreditStall kind ix s = .next (
      (({ s with watch := { s.watch with stalled := s.watch.stalled ++ [watchedQueue kind ix] } }).raise Ev.CREDIT_STALL).fenceUnit
        (queueUnit (watchedQueue kind ix)) 0 2 []) :=
  congrArg _ (if_pos ⟨he, hl, by simp [hf], hs⟩)

/-- The notice of a fenced unit discards the frames and then the messages that wait for it (R23). -/
theorem execFenceNotice_fenced {s t : State} {unit obj : Nat} (hf : s.isFenced unit obj = true)
    (ht : t = s.each (s.queuedTo unit obj) (fun h t => t.discardQueued unit h)) :
    execFenceNotice unit obj s = .next (({ t with chan := t.chan.filter (fun m => !t.messageTo unit obj m) } : State).discard unit
      (t.chan.filter (fun m => t.messageTo unit obj m)).length) := by
  subst ht
  exact congrArg _ (if_neg (by simp [hf]))

/-- A FATAL error's reset waits for 2 ms or for the journal to be written (R392). -/
theorem execFatalResetTimeout_due {s : State} {t : Nat} (io : BootIo) (hf : s.fatal = some t)
    (hd : t + 2000000 ≤ s.now ∨ s.journal.backlog = []) :
    execFatalResetTimeout io s = .next (
      if s.fatalBoot.any (fun b => decide (t ≤ b + 10000000000)) then s.coldReset 5 io
      else s.resetBoot 2 (if s.rd F.GLB_FATAL_CAUSE_UNIT 0 = 0xE000 then 8 else 4) s.flash.active io) := by
  have hw : ¬(s.now < t + 2000000 ∧ s.journal.backlog ≠ []) := fun ⟨hn, hb⟩ => hd.elim (fun h => absurd h (Nat.not_le.mpr hn)) hb
  cases hb : s.fatalBoot <;> simp [execFatalResetTimeout, hf, hb, hw]

/-- Firmware meets a position's loss once its core is out of service: the spare serves, or the loss is kept (R390). -/
theorem execFwCoreSpared_lost {s t : State} {position : Nat} (hp : position < 4) (hc : s.coreUp position = false)
    (ht : t = if s.coresLost.contains position then s
      else s.each (s.functions.filter (fun f => f % 4 == position)) (fun f u => u.fwRestartFor f true true)) :
    execFwCoreSpared position s = .next (match s.spareCore with
      | some k => ({ t with cores := s.cores.set position k, coresLost := s.coresLost.erase position } : State).sparePowered.raise Ev.FW_CORE_SPARED
      | none => { t with coresLost := (position :: s.coresLost).eraseDups }) := by
  subst ht
  exact congrArg _ (if_neg (by simp [hc, hp]))

/-- A rate window that has passed ends with its threshold. -/
theorem execRateWindowEnd_passed {s : State} {r : RateSource} (errors : Nat) (hr : rateExists r = true)
    (hp : s.windowStart (rateKey r) + rateWindow r ≤ s.now) :
    execRateWindowEnd r errors s = .next (
      (((s.rateCount (rateKey r) errors).when (rateCorrected r) (fun t => t.add .GLB_ERR_COUNT 0 errors)).sramHour r).windowEnd
        (rateKey r) (rateWindow r) (rateLimit r) (fun u => u.rateOver r)) :=
  congrArg _ (if_neg (by simp [hr, Nat.not_lt.mpr hp]))

/-- Settles O47, row by row. -/
theorem errorsAndFences : Obligations.ErrorsAndFences := by
  refine ⟨?stalls, ?notice, ?unfenced, ?pop, ?fatal, ?warm, ?cold, ?spared, ?lost, ?stateFails, ?windowEnds⟩
  case stalls =>
    rintro s kind i _ rfl he hl hf hs
    exact execCreditStall_stalls he hl hf hs
  case notice => exact fun s t unit obj hf ht => execFenceNotice_fenced hf ht
  case unfenced => exact fun s unit obj hf => congrArg _ (if_pos (by simp [hf]))
  case pop => exact fun s fn v hm => congrArg _ (asManager_of hm _)
  case fatal => exact fun s unit hu => congrArg _ (if_pos hu)
  case warm =>
    intro s t io hf hd hb
    refine (execFatalResetTimeout_due io hf hd).trans (congrArg _ (if_neg ?_))
    obtain hb | ⟨b, hb, hlt⟩ := hb <;> simp [hb]
    exact hlt
  case cold =>
    intro s t b io hf hd hb hle
    exact (execFatalResetTimeout_due io hf hd).trans (congrArg _ (if_pos (by simp [hb, hle])))
  case spared =>
    intro s t position k hp hc hk ht
    exact (execFwCoreSpared_lost hp hc ht).trans (by rw [hk])
  case lost =>
    intro s t position hp hc hk ht
    exact (execFwCoreSpared_lost hp hc ht).trans (by rw [hk])
  case stateFails => exact fun s unit obj frames h => congrArg _ (if_pos h)
  case windowEnds =>
    rintro s _ r errors hr hp rfl
    exact execRateWindowEnd_passed errors hr hp

end Sys2Proof.Machine
end

section
/-! The commands of an epoch change, the commit instant and the drain. -/

namespace Sys2Proof.Machine

/-- The commit instant switches every unit to the armed change (R33). -/
theorem execEpochCommitted_due {s : State} {sh : Shadow} (hs : s.shadow = some sh) (ha : s.on F.GLB_EPOCH_STATUS_ARMED 0 = true)
    (ht : stampLe (s.val .GLB_EPOCH_COMMIT_TIME 0) s.stamp = true) : execEpochCommitted s = .next (s.commitEpoch sh) := by
  simp [execEpochCommitted, hs, ha, ht]

/-- Without an armed change, or before its instant, no unit switches. -/
theorem execEpochCommitted_idle {s : State}
    (h : s.on F.GLB_EPOCH_STATUS_ARMED 0 = false ∨ stampLe (s.val .GLB_EPOCH_COMMIT_TIME 0) s.stamp = false) :
    execEpochCommitted s = .next s := by
  have hn : ¬(s.on F.GLB_EPOCH_STATUS_ARMED 0 = true ∧ stampLe (s.val .GLB_EPOCH_COMMIT_TIME 0) s.stamp = true) := by
    obtain h | h := h <;> simp [h]
  cases hs : s.shadow <;> simp only [execEpochCommitted, hs, if_neg hn]

/-- Settles O41, command by command, then the commit instant and the drain. -/
theorem epochCommands : Obligations.EpochCommands := by
  unfold Obligations.EpochCommands
  -- each command's meaning stands for exec's arm
  dsimp only [exec]
  refine ⟨?stage, ?commit, ?commitUnstaged, ?commitDraining, ?abandonStaged, ?abandonLate, ?abandonStaging, ?abandonIdle, ?status,
    ?committed, ?notCommitted, ?drained, ?notDrained⟩
  case stage =>
    rintro s e c _ s1 s2 s3 s4 s5 grd head plan cb pb r1 r2 r3 r4 r5 _ _ _ _ h rfl hm rfl rfl rfl rfl hlen hgrd hgrdOk hhead hcount
      hplan hplanOk hlong hstaging hstaged harmed hdrain hcb hpb
    refine eci_started h rfl (managerOnly_manager hm _) rfl ?_
    simp only [hlen, hgrd, hgrdOk, hhead, hcount, hplan, hplanOk, hlong, hstaging, hstaged, harmed, hdrain, hcb, hpb, Bool.false_eq_true,
      or_self, if_false]
  case commit =>
    rintro s e c _ h rfl hm hlead hstaged hdrain
    exact eci_of h rfl (managerOnly_manager hm _) hlead (by simp [hstaged, hdrain])
  case commitUnstaged =>
    rintro s e c _ h rfl hm hlead hstaged
    exact eci_of h rfl (managerOnly_manager hm _) hlead (by simp [hstaged])
  case commitDraining =>
    rintro s e c _ h rfl hm hlead hstaged hdrain
    exact eci_of h rfl (managerOnly_manager hm _) hlead (by simp [hstaged, hdrain])
  case abandonStaged =>
    rintro s e c _ h rfl hm hstaged
    exact eci_of h rfl (managerOnly_manager hm _) rfl (by simp [hstaged])
  case abandonLate =>
    rintro s e c _ h rfl hm hstaged hstaging hlate
    exact eci_of h rfl (managerOnly_manager hm _) rfl (by simp [hstaged, hstaging, hlate])
  case abandonStaging =>
    rintro s e c _ _ _ h rfl hm hstaged hstaging rfl rfl
    exact eci_of h rfl (managerOnly_manager hm _) rfl (by simp [hstaged, hstaging])
  case abandonIdle =>
    rintro s e c _ h rfl hm hstaged hstaging harmed hdrain
    exact eci_of h rfl (managerOnly_manager hm _) rfl (by simp [hstaged, hstaging, harmed, hdrain])
  case status =>
    rintro s e c _ h rfl hm
    exact eci_of h rfl (managerOnly_manager hm _) rfl rfl
  case committed => exact fun s sh hs ha ht => execEpochCommitted_due hs ha ht
  case notCommitted => exact fun s h => execEpochCommitted_idle h
  case drained =>
    rintro s _ _ _ _ _ _ hd hold rfl rfl rfl rfl rfl rfl
    exact congrArg _ (if_neg (by simp [hd, hold]))
  case notDrained => exact fun s h => congrArg _ (if_pos (by simpa using h))

end Sys2Proof.Machine
end

section
/-! The commands for functions, queues, tables, epochs and the scheduler. -/

namespace Sys2Proof.Machine

/-- A ring is created while its function's grant has room and a number is free (R297). -/
theorem createRing_free {s : State} {f n : Nat} {p : List Nat} (hm : ¬(s.newRing f p).mgmt = true)
    (hheld : s.ringsHeld (s.newRing f p).kind (some f) < (s.fn f).grants.rings (s.newRing f p).kind)
    (hfree : firstFree 131072 s.used.fresh (fun k => (s.ring (ringKey (s.newRing f p).kind k)).state != 0) = some n) :
    s.createRing f p = .done { s.used.used with rings := s.rings.set (ringKey (s.newRing f p).kind n) (s.newRing f p) } RC_OK
      [n + 2 ^ 17 * (s.newRing f p).pipe] := by
  refine (if_neg (fun h => hm h.1)).trans ((if_neg (Nat.not_le.mpr hheld)).trans ?_)
  show (match firstFree 131072 s.used.fresh (fun k => (s.ring (ringKey (s.newRing f p).kind k)).state != 0) with
    | none => _
    | some n => _) = _
  rw [hfree]
  rfl

/-- Settles O5, command by command. -/
theorem configurationCommandsComplete : Obligations.ConfigurationCommandsComplete := by
  rintro s e p _ rfl
  -- each command's meaning stands for exec's arm
  dsimp only [exec]
  refine ⟨?version, ?identity, ?funcInfo, ?poll, ?adminCreate, ?adminDestroy, ?create, ?destroy, ?start, ?stop, ?invalidate, ?query,
    ?assignVfs, ?grant, ?fnQuery, ?quiesce, ?release, ?save, ?restore, ?migrateLog, ?remove, ?role, ?l2Write, ?l2Delete, ?l2Read, ?l2Flush,
    ?flowInsert, ?flowDelete, ?flowLookup, ?routeBatch, ?routeLookup, ?tmCaps, ?nodeCreate, ?nodeDestroy, ?nodeSet, ?nodeQuery, ?queueFlush,
    ?mcastSet, ?mcastQuery, ?obsDump, ?tenantGrant, ?stage, ?commit, ?abandon, ?status⟩
  case version | identity | funcInfo => exact fun h => eci_takes h rfl Bool.false_ne_true Bool.false_ne_true rfl
  case poll =>
    intro l n w h hl hpath hticket hfinal
    exact eci_takes h rfl Bool.false_ne_true Bool.false_ne_true (by simp [State.pollLong, hl, hpath, hticket, hfinal])
  case adminCreate => exact fun h hb h0 => eci_takes h rfl Bool.false_ne_true hb (if_neg (not_not.mpr h0))
  case adminDestroy =>
    intro h hn h0
    exact eci_takes h rfl Bool.false_ne_true Bool.false_ne_true (by simp [hn, h0])
  case create =>
    rintro _ n rfl h hd hb hm hheld hfree
    exact ⟨_, _, eci_takes h rfl hd hb (createRing_free hm hheld hfree)⟩
  case destroy =>
    rintro _ h hd hb rfl hs hu hj
    exact ⟨_, _, eci_takes h rfl hd hb ((if_neg (by simp [hs, hu])).trans (if_neg hj))⟩
  case start => exact fun h hd hb hm => ⟨_, _, eci_takes h rfl hd hb (if_neg (by simp [hm]))⟩
  case stop => exact fun h hd hb _ => ⟨_, _, eci_takes h rfl hd hb rfl⟩
  case invalidate | query => exact fun h hd hb => ⟨_, _, eci_takes h rfl hd hb rfl⟩
  case assignVfs =>
    exact fun h hv hn => ⟨_, _, eci_orders h rfl Bool.false_ne_true ((if_neg hv).trans (if_neg (Nat.not_lt.mpr hn)))⟩
  case grant =>
    rintro _ h rfl hb hg hn
    exact eci_orders h rfl hb ((if_neg hg).trans (if_neg hn))
  case fnQuery => exact fun h hd hb => eci_takes h rfl hd hb rfl
  case quiesce =>
    intro c h hc h31 hm hb hl hst
    exact eci_ordersLong h hc hm (by simpa using h31) hb
      ((if_neg (not_or.mpr ⟨hl, by omega⟩)).trans ((if_neg (by omega)).trans (if_pos hst)))
  case release =>
    intro c h hc h31 hm hb hl hst
    exact ⟨_, eci_ordersLong h hc hm h31 hb (if_neg (not_or.mpr ⟨hl, not_not.mpr hst⟩))⟩
  case save =>
    intro c h hc hm hb hl hst
    exact eci_ordersLong h hc hm rfl hb ((if_neg hl).trans (if_neg (not_not.mpr hst)))
  case restore =>
    intro c h hc hm hb hl hr
    exact eci_ordersLong h hc hm rfl hb (if_neg (not_or.mpr ⟨hl, by simpa using hr⟩))
  case migrateLog =>
    intro h hd hb h31
    exact ⟨_, _, eci_takes h rfl hd (by simp only [hb, h31, Bool.or_self, Bool.false_and]; decide) (if_pos (by simpa using h31))⟩
  case remove => exact fun h hb hst => eci_orders h rfl hb (if_neg (not_not.mpr hst))
  case role => exact fun h hd hb hw => eci_takes h rfl hd hb (if_neg hw)
  case l2Write =>
    intro h h8 hd hb hroom
    obtain ⟨hover, hslot⟩ := not_any_or hroom
    exact ⟨_, _, eci_takes h (by simpa using h8) hd hb ((if_neg hover).trans (if_neg hslot))⟩
  case l2Delete => exact fun h h8 hd hb => ⟨_, _, eci_takes h h8 hd hb rfl⟩
  case l2Read => exact fun h hd => ⟨_, _, eci_takes h rfl hd Bool.false_ne_true rfl⟩
  case l2Flush | routeLookup => exact fun h => ⟨_, _, eci_orders h rfl Bool.false_ne_true rfl⟩
  case flowInsert =>
    rintro _ h rfl hd hb hroom hr
    refine ⟨_, _, eci_takes h rfl hd hb ((if_neg ?room).trans (by dsimp only; rw [hr]; rfl))⟩
    case room =>
      rintro ⟨hn, hle⟩
      exact hroom.elim (fun h => absurd hn (Bool.eq_false_iff.mp h)) (fun h => absurd hle (Nat.not_le.mpr h))
  case flowDelete => exact fun l h hd hb hl => ⟨_, _, eci_takes h rfl hd hb (by rw [hl])⟩
  case flowLookup => exact fun l h hd hb hl => ⟨_, _, eci_takes h rfl hd hb (by dsimp only; rw [hl])⟩
  case routeBatch =>
    rintro t u b n _ h hb hio rfl hcs hu
    exact eci_orders h rfl (by simpa using hb) (by simp only [hio, hu, if_neg hcs])
  case tmCaps => exact fun h => ⟨_, _, eci_takes h rfl Bool.false_ne_true Bool.false_ne_true rfl⟩
  case nodeCreate =>
    rintro _ t n w rfl h hd hb ha hc
    exact eci_takes h rfl hd hb ((if_neg ha).trans hc)
  case nodeDestroy =>
    rintro _ rfl h hd hb hc hl
    exact ⟨_, _, eci_takes h rfl hd hb (if_neg (by simp [hc, hl]))⟩
  case nodeSet =>
    rintro _ rfl h hd hb ha hc
    exact ⟨_, _, eci_takes h rfl hd hb ((if_neg ha).trans (if_neg (not_not.mpr hc)))⟩
  case nodeQuery => exact fun h hd hb => ⟨_, _, eci_takes h rfl hd hb rfl⟩
  case queueFlush => exact fun h hr => ⟨_, _, eci_takes h rfl (by simpa using hr) Bool.false_ne_true rfl⟩
  case mcastSet =>
    intro h hn h0 hu
    exact ⟨_, _, eci_orders h rfl (by simpa using hn) (by
      dsimp only
      rw [if_pos h0, h0]
      exact (if_neg Bool.false_ne_true).trans (if_neg (by omega)))⟩
  case mcastQuery => exact fun t n w h hb => eci_orders h rfl Bool.false_ne_true hb
  case obsDump =>
    rintro c h rfl hd hb hl hm
    exact eci_started h rfl (Bool.eq_false_iff.mpr hd) (by simpa using hb) ((if_neg hl).trans (if_neg (by simpa [imp_iff_not_or] using hm)))
  case tenantGrant => exact fun t n w h hb hc => eci_orders h rfl hb hc
  case stage =>
    rintro c h rfl hm hkind hl hstaging hstaged harmed
    obtain ⟨hstage, -⟩ := epochCommands
    exact ⟨_, hstage s e c c.words s s s s s [] [] [] [] [] 0 0 0 0 0 0 0 false false h rfl hm hkind.symm rfl rfl rfl rfl rfl rfl rfl rfl rfl
      rfl (Bool.eq_false_iff.mpr hl) (Bool.eq_false_iff.mpr hstaging) (Bool.eq_false_iff.mpr hstaged) (Bool.eq_false_iff.mpr harmed)
      (Bool.and_false _) rfl rfl⟩
  case commit =>
    intro h hlead hst hdr
    exact ⟨_, _, eci_orders h rfl (Bool.eq_false_iff.mp hlead) ((if_neg (by simp [hst])).trans (if_neg (by simp [hdr])))⟩
  case abandon => exact fun h hst => eci_orders h rfl Bool.false_ne_true (if_pos hst)
  case status => exact fun h => ⟨_, _, eci_orders h rfl Bool.false_ne_true rfl⟩

end Sys2Proof.Machine
end

section
/-! The rows that move frames, verdicts, jobs, ring entries and journal records. -/

namespace Sys2Proof.Machine

/-- A decision on a thread that may be decided on acts and is answered (R137). -/
theorem supRow_decides {s : State} {c a : Nat} {m : ChanMsg} {d : Decision}
    (hm : s.chan.find? (fun m => m.dest == 0x0C01 && clusterOf m.src == c) = some m) (ht : m.type = 4) (hd : d = s.about m.decision)
    (ha : bits (m.word 0) 63 60 = a) (h5 : a < 5) (hok : s.targetOk c a d.target = true) :
    s.supRow c a none = ((s.accepted m).decide_ a d).reply m [0] := by
  subst hd ha
  simp only [State.supRow, hm]
  rw [if_neg (by omega), if_neg (not_not.mpr rfl), if_pos hok]

/-- An individual or sequence recovery decides on a frame by the number in its R-TAG (R261). -/
theorem frerDecide_numbered {s : State} {h n : Nat} {p : Packet} (hk : (s.ctx p.memberCtx).kind = 2)
    (hf : ¬(s.memberSeen ((p.member.map (·.1)).getD 0) (shortOf p.stamp)).isFenced (unitObject 6) p.memberCtx = true)
    (hn : (rTag p.data).map (·.2) = some n) :
    s.frerDecide h p = (s.memberSeen ((p.member.map (·.1)).getD 0) (shortOf p.stamp)).frerSeq h p.memberCtx n p := by
  simp [State.frerDecide, hk, hf, FrerCtx.numberOf, hn]

/-- Settles O2, row by row. -/
theorem frameRowsComplete : Obligations.FrameRowsComplete := by
  intro s
  -- each row's meaning stands for exec's arm
  dsimp only [exec]
  refine ⟨?dispatch, ?reorder, ?deferred, ?enqueue, ?schedule, ?rxDma, ?holdList, ?rxHold, ?txBuffer, ?hostAccess, ?decisions, ?supTimeout,
    ?runLimit, ?allWait, ?debugWindow, ?jtagClaim, ?jtagRelease, ?csRepair, ?deferRequest, ?oflCheck, ?espDecrypt, ?streams, ?groupWake,
    ?keyCheck, ?bulkGcm, ?jobDigest, ?nodeAccess, ?obsCfg, ?obsSample, ?queueReload, ?gclChange, ?gateChange, ?relDevice, ?relCfg,
    ?relEnqueue, ?relRelease, ?spillReturn, ?stampDrain, ?stampGap, ?jnlCtrl, ?jnlCons, ?recordCommit, ?checkpoint, ?signatureDone,
    ?digestClose, ?clockRecord, ?frerDecision, ?frerTimeout, ?mmPop, ?floorLapse, ?sqDoorbell, ?pushSlot, ?cqDoorbell, ?fetchComplete,
    ?jobStart, ?completion, ?coalesce, ?headStatus, ?delayAlarm⟩
  case dispatch =>
    intro k h t p hh hn hp ht hf hw
    simp only [execDispatch, hh, if_neg hn, hp, Option.bind_some, ht, if_neg hf, hw, Bool.not_true, Bool.false_and, Bool.false_eq_true, if_false]
    exact ⟨_, rfl⟩
  case reorder =>
    intro h p hp hst hord hcr hf h59 _ _ _ _
    simp only [execReorderRelease, hp]
    exact ⟨_, (if_pos ⟨hst, hord, by simpa [h59, b2n] using hcr⟩).trans (if_neg hf)⟩
  case deferred =>
    intro h p b hp hst hcr hg hb
    simp only [execDeferredStage, hp]
    rw [if_neg (by simp [hst, hcr, hg]), if_neg hb]
  case enqueue =>
    rintro _ h p hp hst hc rfl ha
    simp [execTmEnqueue, hp, hst, hc, ha]
  case schedule => exact fun k n hk hn hh hf hc => congrArg _ (if_pos ⟨hk, hn, hh, by simpa using hf, by simpa using hc⟩)
  case rxDma =>
    intro h k p e b hp hst hfcs hr hkind hbme hms hlen hhold hb hmiss
    simp [execRxDma, hp, hst, hfcs, hr, hkind, hbme, hms, hhold, hb, hmiss, Ring.stopped, hlen]
  case holdList =>
    intro r h l p e b hh hp hb hq hmiss
    simp only [execHoldListDeliver, hh, hp, hb, if_neg hq, hmiss]
    exact ⟨_, rfl⟩
  case rxHold =>
    intro h k p hp hst ht
    simp only [execRxHoldTimeout, hp, hst, if_pos ht]
    exact ⟨_, rfl⟩
  case txBuffer =>
    intro j b buf hj hpr hk hold hcr ht hg
    simp [execTxBufferData, hj, hpr, hk, hold, hcr, ht, ← hg]
  case hostAccess =>
    intro c m y hm ht hd h0 h48 hw hp hy
    have hx : (y == HostReply.xlateFault) = false := beq_eq_false_iff_ne.mpr hy
    simp only [execHostAccessRequest, hm, hx, Bool.and_false, Bool.false_eq_true, or_false, if_false, hd, Bool.not_true, hw, if_true]
    exact ⟨_, congrArg _ ((if_neg (not_not.mpr ht)).trans (if_neg (by omega)))⟩
  case decisions =>
    intro c m d hm ht hd
    have decided {a : Nat} (h5 : a < 5) (ha : bits (m.word 0) 63 60 = a) (hok : s.targetOk c a d.target = true) :=
      supRow_decides hm ht hd ha h5 hok
    exact ⟨fun ha hok => congrArg _ (decided (by decide) ha hok), fun ha hok => congrArg _ (decided (by decide) ha hok),
      fun ha hok => congrArg _ (decided (by decide) ha hok), fun ha _ hok => ⟨_, congrArg _ (decided (by decide) ha hok)⟩,
      fun ha hok => congrArg _ (decided (by decide) ha hok)⟩
  case supTimeout =>
    exact fun t ht hst he hu => ⟨_, congrArg _ (if_pos ⟨ht, hst, by simpa using he, hu⟩)⟩
  case runLimit => exact fun t ht hp hst hl => congrArg _ (if_pos ⟨ht, hp, hst, hl⟩)
  case allWait =>
    intro c e hc h0 h8 hw
    exact ⟨_, _, congrArg _ ((if_pos ⟨hc, h8, hw⟩).trans (if_neg (Nat.pos_iff_ne_zero.mp h0)))⟩
  case debugWindow => exact fun f t o w v hm => congrArg _ (asManager_of hm _)
  case jtagClaim | jtagRelease => rfl
  case csRepair =>
    intro c b a p0 p1 i j hbad ha hi hj h0 h1
    simp only [execCsEccRepair, hbad, hi, hj, h0, h1]
    rw [if_neg (by decide), if_neg (by omega), if_pos (by decide)]
    exact ⟨_, rfl⟩
  case deferRequest =>
    intro t h m p ha hst hlen
    simp only [execOflDeferRequest, request_of ha, hst]
    rw [if_neg (not_not.mpr rfl), if_neg (by omega)]
    exact ⟨_, rfl⟩
  case oflCheck => exact fun t h m p ha => congrArg _ (request_of ha _)
  case espDecrypt => exact fun t h m p b ha hg hb => congrArg _ ((request_of ha _).trans ((if_neg hg).trans (if_neg hb)))
  case streams =>
    rintro t h m p q o x b _ hg hw rfl hq hbad ho
    refine ⟨?tls, ?nvme⟩
    case tls =>
      rintro ha rfl hst hdw
      exact congrArg _ ((request_of ha _).trans (by simp [hg, hw, hst, hq, hdw, hbad, ho]))
    case nvme =>
      intro ha hb hst
      subst hb
      exact congrArg _ ((request_of ha _).trans (by simp [hg, hw, hst, hq, hbad, ho]))
  case groupWake =>
    intro g hg hgt hw
    refine congrArg _ ((if_pos ⟨hg, hgt, hw⟩).trans (if_pos hgt))
  case keyCheck =>
    intro j b hj hg hk
    simp only [execJobKeyCheck, hj, if_neg hg, hk]
    exact ⟨_, _, rfl⟩
  case bulkGcm =>
    intro j b y hj hg hk ho hl
    simp only [execJobBulkGcm, hj, if_neg hg, hk]
    exact ⟨_, congrArg _ ((if_neg (not_not.mpr rfl)).trans (if_neg (not_or.mpr ⟨ho, Nat.not_lt.mpr hl⟩)))⟩
  case jobDigest =>
    intro j b y hj
    simp only [execJobDigest, hj]
    exact ⟨_, rfl⟩
  case nodeAccess =>
    rintro _ f v hm h31 rfl hi h30 hr
    simp only [execTmNodeAccess, asManager_of hm]
    exact ⟨_, congrArg _ ((if_pos h31).trans ((if_neg (Nat.not_le.mpr hi)).trans ((if_pos h30).trans (if_neg hr))))⟩
  case obsCfg =>
    intro f v hm h
    simp only [execTmObsCfgWrite, asManager_of hm]
    exact ⟨_, congrArg _ (if_neg (fun ⟨h31, hlt⟩ => h.elim (fun hb => by simp [hb] at h31) (fun hle => absurd hlt (Nat.not_lt.mpr hle))))⟩
  case obsSample => exact fun hm ho => ⟨_, _, congrArg _ (if_neg (not_or.mpr ⟨hm, ho⟩))⟩
  case queueReload => exact fun q hq hf hn => congrArg _ (if_pos ⟨hq, hf, by simp [hn]⟩)
  case gclChange =>
    intro n g hg ht
    simp only [execGclChangeTime, hg, if_pos ht]
    exact ⟨_, rfl⟩
  case gateChange => exact fun n hn => ⟨_, congrArg _ (if_pos hn)⟩
  case relDevice =>
    intro f v hm hg
    simp only [execRelDeviceWrite, asManager_of hm, State.relDevice, if_neg hg]
    exact ⟨_, rfl⟩
  case relCfg =>
    rintro f v _ _ hm rfl rfl hle
    simp only [execRelCfgWrite, asManager_of hm, State.relCfg, if_neg (Nat.not_lt.mpr hle)]
    exact ⟨_, rfl⟩
  case relEnqueue =>
    intro u h g k e p hp hst hs hd hpol
    simp only [execRelEnqueue, hp, hs, hd, hpol]
    exact if_neg (not_not.mpr hst)
  case relRelease =>
    rintro _ h g p rfl hh hn
    simp only [execRelRelease, State.releaseDue, hh, hn]
  case spillReturn =>
    rintro _ h g p hp hst hsp rfl
    simp [execRelSpillReturn, hp, hst, hsp, State.unspill]
  case stampDrain =>
    intro n e l hf hr hj ho
    simp only [execStampFifoDrain, hf, hr, hj, if_neg ho]
    exact ⟨_, rfl⟩
  case stampGap => exact fun n h0 ht => congrArg _ (if_pos ⟨h0, ht⟩)
  case jnlCtrl => exact fun f v hm _ => ⟨_, congrArg _ (asManager_of hm _)⟩
  case jnlCons =>
    intro f v hm hle
    simp only [execJnlConsWrite, asManager_of hm, State.jnlCons, if_neg (Nat.not_lt.mpr hle)]
  case recordCommit =>
    intro r l hb hw hf hlt
    simp [execJnlRecordCommit, hb, hw, hf, hlt]
  case checkpoint =>
    intro h hh hd hs
    simp only [execJnlCheckpoint, hh]
    exact ⟨_, congrArg _ (if_pos ⟨by simpa using hd, hs⟩)⟩
  case signatureDone =>
    intro q w sig l hl
    simp only [execJnlSignatureDone, hl]
    exact ⟨_, rfl⟩
  case digestClose =>
    intro j r rx hj hn hd
    simp only [execJnlDigestClose, hj]
    exact congrArg _ (if_pos ⟨by simpa using hn, hd⟩)
  case clockRecord => exact fun c hc => ⟨_, congrArg _ (if_pos hc)⟩
  case frerDecision =>
    rintro _ h _ n p rfl rfl hp hst hb hk hf hn
    simp only [execFrerRxDecision, hp, hb]
    exact congrArg _ ((if_neg (not_not.mpr hst)).trans (frerDecide_numbered hk hf hn))
  case frerTimeout =>
    intro c t hp hk ht
    simp only [execFrerRecoveryTimeout, hp]
    exact congrArg _ (if_pos ⟨hk, ht⟩)
  case mmPop => exact fun f v hm h31 => congrArg _ ((asManager_of hm _).trans (if_pos h31))
  case floorLapse =>
    intro g f hf hs
    simp only [execMirFloorLapse, hf, if_neg hs]
  case sqDoorbell =>
    intro k f g v w hk hw hs ho
    simp [execQmSqDb, hk, hw, hs, ho]
  case pushSlot =>
    intro k fn g slot o d hk hkind ho hs h8 hd
    simp only [execPushSlotWrite, hk]
    exact ⟨_, congrArg _ (if_neg (by simp [ho, hkind, hd]; omega))⟩
  case cqDoorbell =>
    intro k f g v w hk hw ho hkind
    simp [execQmCqDb, hk, hw, ho, hkind]
  case fetchComplete =>
    intro r i n b hf hst ht
    simp only [execDescFetchComplete, hf]
    exact ⟨_, _, _, rfl⟩
  case jobStart =>
    intro e r he
    simp only [execTxJobStart, he]
  case completion =>
    intro r c hc hst
    simp only [execCompletionWrite, hc]
    exact congrArg _ (if_neg (not_not.mpr hst))
  case coalesce =>
    intro r t hf ha ht
    simp only [execCqCoalesceExpire, hf]
    exact congrArg _ (if_pos ⟨ha, ht⟩)
  case headStatus =>
    intro r h0 hh hk hne hd
    exact congrArg _ ((if_neg (by simp [h0, hh, hk, hne, hd])).trans (if_neg Bool.false_ne_true))
  case delayAlarm =>
    exact fun q hq h0 hd hn => congrArg _ (if_pos ⟨hq, h0, hd, by simpa using hn⟩)

end Sys2Proof.Machine
end

section
/-! The rows of the host interface, the mailbox, the copy engine, the HBM, the power, the faults and the mirror. -/

namespace Sys2Proof.Machine

/-- An admin entry that is listed, served and well formed, with its payload in the entry, is taken (R320). -/
theorem execAdminEntryTake_inline {s : State} {f : Nat} {b : Bytes} (x : HostReply) (ht : s.nextTurn (s.coreOf f) = some (2 * f + 1))
    (hb : b.length = 128) (hf : ¬s.eciFenced f (leAt b 0 2) = true) (hl : eciListed (leAt b 0 2) s.recovery = true)
    (hm : ¬mailboxOnly (leAt b 0 2) = true) (h3 : leAt b 3 1 = 0) (h6 : leAt b 6 2 = 0) (h18 : leAt b 0x18 8 = 0) (h8 : leAt b 8 8 = 0)
    (h2 : leAt b 2 1 ≤ 24) :
    ∃ t : State, ∃ c, execAdminEntryTake f (.data b) x s = .next { t with adminCmd := t.adminCmd.setD f (some c) none } := by
  have hfit : fit 128 b = b := by simp [fit, ← hb]
  unfold execAdminEntryTake
  simp only [ht, ne_eq, not_true_eq_false, if_false, hfit]
  rw [if_neg ?fenced, if_neg ?listed, if_neg (by omega), if_pos h2]
  case fenced => simpa only [State.eciFenced, State.on, State.rd, State.reg, State.modRing, sendRead_regs, State.tookTurn] using hf
  case listed =>
    simp only [State.modRing, sendRead_recovery]
    simp [State.tookTurn, hl, hm]
  exact ⟨((s.tookTurn (s.coreOf f) (2 * f + 1)).sendRead f
    ((s.ring (adminSqKey f)).base + (s.ring (adminSqKey f)).next % (s.ring (adminSqKey f)).size * 128) none 128).modRing (adminSqKey f)
      (fun x => { x with next := ixNext x.next }), _, rfl⟩

/-- Firmware accepts a mailbox command that is listed and not fenced (R322). -/
theorem execCmdAccept_listed {s : State} {f : Nat} (ht : s.nextTurn (s.coreOf f) = some (2 * f))
    (hf : ¬s.eciFenced f (s.rd F.MBX_CMD_CODE f) = true) (hl : eciListed (s.rd F.MBX_CMD_CODE f) s.recovery = true) :
    ∃ t : State, ∃ c, execCmdAccept f false s = .next (t.modMb f (fun b => { b with cmd := some c })) := by
  unfold execCmdAccept
  simp only [ht, ne_eq, not_true_eq_false, if_false]
  rw [if_neg ?fenced, if_neg ?listed]
  case fenced => exact fun h => hf ((eciFenced_wr (s.tookTurn (s.coreOf f) (2 * f)) (by decide) f 0 f _).symm.trans h)
  case listed => exact fun h => by simp [State.modMb, State.wr, State.setReg, State.tookTurn, hl] at h
  exact ⟨(s.tookTurn (s.coreOf f) (2 * f)).wr F.DB_TO_FW_CMD f 0, _, rfl⟩

/-- The channel whose turn it is runs (R358). -/
theorem nextCopy_runs {s : State} {u ch : Nat} (h : s.nextCopy u = some ch) : s.cpyState ch = 1 := by
  unfold State.nextCopy at h
  split at h
  · cases h
  · simpa using List.find?_some h

/-- GO starts an idle channel that is not refused and goes on from where it stands (R367). -/
theorem cpyGo_starts {s : State} {ch : Nat} (h0 : s.cpyState ch = 0) (hr : ¬s.cpyRefused ch = true)
    (hh : ¬s.on F.CPY_CH_CTRL_FROM_HEAD ch = true) : ∃ t : State, s.cpyGo ch = t.cpyRun ch := by
  simp only [State.cpyGo, h0, if_neg hr, if_neg hh]
  exact ⟨_, rfl⟩

/-- STOP of an active channel between boundaries waits for the next one (R367). -/
theorem cpyStop_waits {s : State} {ch : Nat} (ha : s.cpyActive ch = true) (h2 : s.cpyState ch ≠ 2) (hb : ¬s.cpyAtBoundary ch = true) :
    s.cpyStop ch = s.wr F.CPY_CH_CTRL_STOP ch 1 := by
  simp [State.cpyStop, ha, h2, hb]

/-- Settles O4, row by row. -/
theorem hostAndPlatformRowsComplete : Obligations.HostAndPlatformRowsComplete := by
  intro s
  -- each row's meaning stands for exec's arm
  dsimp only [exec]
  refine ⟨?regWrite, ?regRead, ?lowWord, ?creditStall, ?fenceNotice, ?committed, ?drained, ?mirPeriodic, ?mirMessage, ?mirSilent, ?linkUp,
    ?linkDown, ?perst, ?hotReset, ?perstEnd, ?bmeClear, ?bmeSet, ?vfEnable, ?atsClear, ?pasidClear, ?dState, ?msix, ?flrStart, ?flrAck,
    ?flrSlow, ?evtPend, ?evtFn, ?translation, ?invalidate, ?invalidated, ?pageResponse, ?priTimeout, ?readCompletion, ?readTimeout,
    ?adminTake, ?mbxCmd, ?cmdAccept, ?ackTimeout, ?dbW1c, ?dbMask, ?dbReady, ?dbUnload, ?driverAbsent, ?fwRestart, ?fwWatchdog,
    ?longComplete, ?quiesceTimeout, ?migCons, ?flashRelease, ?halt, ?resume, ?step, ?abort, ?bpSet, ?softBp, ?cpyGo, ?cpyStop, ?cpyCfg,
    ?cpyTurn, ?cpyFlush, ?cpyPace, ?hbmAccess, ?rowClose, ?refresh, ?srEnter, ?srExit, ?tempHigh, ?drift, ?softRepair, ?fencePop, ?fatal,
    ?fatalReset, ?coreSpared, ?wearSample, ?wearSave, ?powerOn, ?bootWatchdog, ?vinLoss, ?vinRestored, ?overcurrent, ?phaseFault,
    ?railFault, ?gate, ?ungate, ?idleEnter, ?idleExit, ?throttle, ?tjCrit, ?thermalTrip, ?pllUnlock, ?pllTimeout, ?coldRst, ?resetCold,
    ?resetWarm, ?resetCluster, ?stateError, ?windowEnd, ?aonLoss, ?vinLow, ?vinHigh, ?aonLow, ?pllRelock, ?tjHigh, ?sensorFault,
    ?tempCrit, ?tempNormal, ?priReset, ?resyncDone⟩
  case regWrite => exact fun f o z v hm => congrArg _ (asManager_of hm _)
  case regRead => exact fun f z => rfl
  case lowWord => exact fun o hp hr hm => ⟨_, _, congrArg _ (busRead_bar2 o 4 hp (Bool.eq_false_iff.mpr hr) hm)⟩
  case creditStall =>
    rintro kind i _ rfl he hl hf hs
    exact ⟨_, execCreditStall_stalls he hl (Bool.eq_false_iff.mpr hf) hs⟩
  case fenceNotice => exact fun t u o hf ht => ⟨_, execFenceNotice_fenced hf ht⟩
  case committed => exact fun sh hs ha ht => execEpochCommitted_due hs ha ht
  case drained => exact fun hd hold => ⟨_, _, congrArg _ (if_neg (by simp [hd, hold]))⟩
  case mirPeriodic => exact fun h1 hp => ⟨_, congrArg _ (if_pos ⟨h1, hp⟩)⟩
  case mirMessage =>
    intro m h2 h0 hpeer hpair hlen
    exact ⟨_, congrArg _ ((if_neg (by simp [h0, hpeer, hpair, hlen])).trans ((if_neg (by omega)).trans (if_neg (by omega))))⟩
  case mirSilent => exact fun h2 hs ht => ⟨_, congrArg _ (if_pos ⟨h2, by simpa using hs, ht⟩)⟩
  case linkUp => exact fun n l x y he hu hp _ => ⟨_, congrArg _ (if_pos ⟨he, by simpa using hu, by simpa using hp⟩)⟩
  case linkDown => exact fun n l he hu => ⟨_, congrArg _ (if_pos ⟨he, hu⟩)⟩
  case perst => exact fun n hn hp => ⟨_, _, congrArg _ (if_pos ⟨hn, by simpa using hp⟩)⟩
  case hotReset => exact fun n l he => congrArg _ (if_pos he)
  case perstEnd => exact fun n hn hp => congrArg _ (if_pos ⟨hn, hp⟩)
  case bmeClear => exact fun f hb => ⟨_, congrArg _ (if_pos hb)⟩
  case bmeSet => exact fun f hf => congrArg _ (if_pos hf)
  case msix => exact fun f on hf => congrArg _ (if_pos hf)
  case vfEnable => exact fun pf on num hpf hv => congrArg _ (if_pos ⟨hpf, hv⟩)
  case atsClear => exact fun f h => congrArg _ (if_pos h)
  case pasidClear =>
    intro f h
    simp only [execPasidEnableClear, if_pos h]
  case flrStart => exact fun f h => congrArg _ (if_pos h)
  case dState => exact fun f d3 hf hd => ⟨_, congrArg _ (if_pos ⟨hf, hd⟩)⟩
  case flrAck =>
    intro t r f n hr hn ht
    simp only [execFlrEngineAck, hr, if_pos hn, ht]
  case flrSlow =>
    intro f r hr ht
    simp only [execFnFlrSlow, hr, if_neg (Nat.not_lt.mpr ht)]
    exact ⟨_, rfl⟩
  case evtPend => exact fun f w v hf hw ho => ⟨_, _, congrArg _ (if_pos ⟨hf, hw, ho⟩)⟩
  case evtFn => exact fun f v hf ho hv => ⟨_, _, congrArg _ ((if_pos ⟨hf, ho⟩).trans (if_neg hv))⟩
  case translation =>
    intro req n b z size q rd wr hq ht _ _
    simp only [execTranslationCompletion, hq, if_neg (Nat.not_le.mpr ht)]
    exact ⟨_, rfl⟩
  case invalidate => exact fun n g f b z i hn hl => ⟨_, congrArg _ (if_neg (by omega))⟩
  case invalidated =>
    intro n v hv hr _
    simp only [execInvalidateComplete, hv, if_neg hr]
    exact ⟨_, rfl⟩
  case pageResponse =>
    intro f i n q hf hq
    simp only [execPageResponse, if_pos hf, State.pageResponse, hq]
    exact ⟨_, rfl⟩
  case priTimeout =>
    intro i n q hq ht
    simp only [execPriResponseTimeout, hq, if_pos ht]
    exact ⟨_, rfl⟩
  case readCompletion =>
    intro port g n q y hr hl
    simp only [execHostReadCompletion, hr, if_neg hl]
  case readTimeout =>
    intro g n q hr hl
    simp only [execCplTimeoutExpire, hr, if_pos hl]
  case adminTake => exact fun f b x ht hb hf hl hm h3 h6 h18 h8 h2 => execAdminEntryTake_inline x ht hb hf hl hm h3 h6 h18 h8 h2
  case mbxCmd | dbW1c | dbMask | dbReady | dbUnload => exact fun f v hf ho => congrArg _ (if_pos ⟨hf, ho⟩)
  case cmdAccept => exact fun f ht hf hl => execCmdAccept_listed ht hf hl
  case ackTimeout => exact fun f hb ht => ⟨_, _, congrArg _ (if_pos ⟨hb, ht⟩)⟩
  case driverAbsent =>
    intro f k t hk ht ha
    exact ⟨_, congrArg _ (if_pos ⟨List.any_eq_true.mpr ⟨_, hk, by simpa using ht⟩, by simpa using ha⟩)⟩
  case fwRestart => exact fun hu => congrArg _ (if_pos hu)
  case fwWatchdog => exact fun core hc hu => congrArg _ (if_pos ⟨hc, .inr (.inl rfl), hu⟩)
  case longComplete =>
    intro t l f n io w hl hf hb
    simp only [execLongCommandComplete, hl, hf, Option.isSome_none, Bool.false_eq_true, if_false, hb]
  case quiesceTimeout =>
    intro l g f hl hf hc hw ht hs
    exact congrArg _ (if_pos ⟨List.any_eq_true.mpr ⟨_, hl, by simp only [hf, hc, hw, ht, Option.isNone_none, beq_self_eq_true, decide_true, Bool.and_true]⟩, hs⟩)
  case migCons => exact fun f o v hm ho => congrArg _ ((if_pos ho).trans (asManager_of hm _))
  case flashRelease => exact fun hh ht => congrArg _ (if_pos ⟨hh, ht⟩)
  case halt | resume | abort | softBp => exact fun p h => debugCmd_jtag h _
  case step => exact fun p t h ht => (debugCmd_jtag h _).trans (by simp only [ht])
  case bpSet =>
    rintro p _ h rfl
    exact ⟨_, debugCmd_jtag h _⟩
  case cpyGo =>
    rintro _ f ch v rfl hm hch h30 h0 hr hh
    have h31 : bit (putBits v 31 31 1) 31 = true := (bit_putBits_same v 1 31).trans (by decide)
    obtain ⟨t, ht⟩ := cpyGo_starts h0 hr hh
    refine ⟨t, congrArg _ ((if_pos hch).trans ((asManager_of hm _).trans ?_))⟩
    simp only [State.cpyCtrl, h31, Bool.eq_false_iff.mpr h30, ht, State.when, if_true, Bool.false_eq_true, if_false]
  case cpyStop =>
    rintro _ f ch v rfl hm hch ha h2 hb
    have h31 : bit (putBits (putBits v 31 31 0) 30 30 1) 31 = false :=
      (bit_putBits_other _ 1 (by decide)).trans ((bit_putBits_same v 0 31).trans (by decide))
    have h30 : bit (putBits (putBits v 31 31 0) 30 30 1) 30 = true := (bit_putBits_same _ 1 30).trans (by decide)
    refine congrArg _ ((if_pos hch).trans ((asManager_of hm _).trans ?_))
    simp only [State.cpyCtrl, h31, h30, State.when, if_true, Bool.false_eq_true, if_false]
    exact cpyStop_waits ha h2 hb
  case cpyCfg =>
    intro f ch v w hm hch h
    have h5 : (s.cpyState ch == 5) = false := by simpa using (by omega : s.cpyState ch ≠ 5)
    refine congrArg _ ((if_pos hch).trans ((asManager_of hm _).trans ?_))
    simp only [State.cpyCfg, h5, when_false]
    exact if_pos h
  case cpyTurn =>
    intro t u ch io hn hd ht
    have hdesc : (t.copy ch).desc.isEmpty = false := by
      subst ht
      exact List.isEmpty_eq_false_iff.mpr hd
    have hrun : t.cpyState ch = 1 := by
      subst ht
      exact (nextCopy_runs hn : s.cpyState ch = 1)
    simp only [execCpyTurn, hn, ← ht]
    simp [hdesc, hrun]
  case cpyFlush =>
    intro ch status x lost hf
    simp only [execCpyFlushDone, hf]
  case cpyPace =>
    intro ch m hm hch hsrc hw ht
    simp only [execCpyPaceMessage, hm]
    exact ⟨_, congrArg _ ((if_neg (by omega)).trans ((if_neg (by omega)).trans (if_neg (not_not.mpr ht))))⟩
  case hbmAccess =>
    rintro _ region o w r l rfl hr hen ho hf
    exact ⟨_, congrArg _ ((if_neg (by simp [hen]; omega)).trans (if_neg hf))⟩
  case rowClose =>
    intro pc b w x hx ht
    simp only [execHbmRowClose, hx, if_pos ht]
    exact ⟨_, rfl⟩
  case refresh =>
    intro pc b hpc hb hst ht
    exact ⟨_, congrArg _ ((if_neg (by omega)).trans ((if_neg (Nat.not_lt.mpr ht)).trans (if_pos rfl)))⟩
  case srEnter => exact fun k hk hp ht ha => ⟨_, congrArg _ (if_pos ⟨hk, hp, ht, ha⟩)⟩
  case srExit => exact fun k hk => congrArg _ (if_pos hk)
  case tempHigh => exact fun k t hk h85 ht hh => ⟨_, congrArg _ (if_pos ⟨hk, h85, ht, by simpa using hh⟩)⟩
  case drift => exact fun k t hk ht hd => congrArg _ (if_pos ⟨hk, ht, hd⟩)
  case softRepair =>
    intro pc bank w hpc hb hw hc hr
    exact ⟨_, _, _, congrArg _ (if_neg (by omega))⟩
  case fencePop => exact fun f v hm => congrArg _ (asManager_of hm _)
  case fatal => exact fun u hu => congrArg _ (if_pos hu)
  case fatalReset =>
    intro t b io hf hd hb hle
    exact (execFatalResetTimeout_due io hf hd).trans (congrArg _ (if_pos (by simp [hb, hle])))
  case coreSpared =>
    intro n k hn hc hk
    exact ⟨_, (execFwCoreSpared_lost hn (Bool.eq_false_iff.mpr hc) rfl).trans (by rw [hk])⟩
  case wearSample =>
    intro d k hd hn
    refine ⟨_, _, congrArg _ (if_neg ?_)⟩
    simp [hd, hn]
  case wearSave => exact fun n ht => ⟨_, _, congrArg _ (if_neg (Nat.not_lt.mpr ht))⟩
  case powerOn => exact fun io h => ⟨_, congrArg _ (if_pos (.inl h))⟩
  case bootWatchdog =>
    intro t io hb hp hu ht
    simp only [execBootWatchdog, hb]
    exact ⟨_, congrArg _ (if_pos ⟨hp, by simpa using hu, ht⟩)⟩
  case vinLoss => exact fun mv hv hp => congrArg _ (if_pos ⟨hv, hp⟩)
  case vinRestored => exact fun x io hv hp => congrArg _ ((if_neg (Nat.not_le.mpr hv)).trans (if_pos hp))
  case overcurrent => exact fun ca ns hc hn hp => congrArg _ (if_pos ⟨hc, hn, hp⟩)
  case phaseFault => exact fun n hp hn ho => ⟨_, congrArg _ (if_pos ⟨hp, hn, ho⟩)⟩
  case railFault => exact fun d hp hd hst hg => ⟨_, _, congrArg _ ((if_pos ⟨hp, hd, hst⟩).trans (if_pos hg))⟩
  case gate => exact fun c hp hc he hs hi ht hn hf => congrArg _ (if_pos ⟨hp, hc, he, hs, hi, hn, .inr ⟨ht, hf⟩⟩)
  case ungate => exact fun c hp hc hg hst hd => congrArg _ (if_pos ⟨hp, hc, hg, hst, hd⟩)
  case idleEnter => exact fun hp hst hm => ⟨_, congrArg _ (if_pos ⟨hp, hst, hm⟩)⟩
  case idleExit => exact fun hp hst hm => ⟨_, congrArg _ (if_pos ⟨hp, hst, by simpa using hm⟩)⟩
  case throttle =>
    rintro _ x _ rfl rfl hp
    exact ⟨fun hn ht hw => ⟨_, congrArg _ (if_pos ⟨hp, hn, ht, hw⟩)⟩, fun hn ht hw => congrArg _ (if_pos ⟨hp, hn, ht, hw⟩)⟩
  case tjCrit | thermalTrip | tjHigh => exact fun x hp h => congrArg _ (if_pos ⟨hp, h⟩)
  case pllUnlock => exact fun hp hn => ⟨_, congrArg _ (if_pos ⟨hp, hn⟩)⟩
  case pllTimeout =>
    intro t ht hd
    simp only [execCorePllTimeout, ht, if_pos hd]
  case coldRst => exact fun ns x io hn hp => congrArg _ ((if_neg (Nat.not_lt.mpr hn)).trans (if_pos hp))
  case resetCold | resetWarm | resetCluster => exact fun _ _ _ => rfl
  case stateError => exact fun u o l h => congrArg _ (if_pos h)
  case windowEnd => exact fun r n hr hp => ⟨_, execRateWindowEnd_passed n hr hp⟩
  case aonLoss => exact fun mv hv hp => ⟨_, congrArg _ (if_pos ⟨hv, hp⟩)⟩
  case vinLow | aonLow => exact fun mv hp hlo hhi => congrArg _ (if_pos ⟨hp, hlo, hhi⟩)
  case vinHigh => exact fun mv hp hv => ⟨_, congrArg _ (if_pos ⟨hp, hv⟩)⟩
  case pllRelock =>
    intro t ht hn hf
    simp only [execCorePllRelock, ht]
    exact congrArg _ (if_pos ⟨hn, hf⟩)
  case sensorFault => exact fun n t hp hn hf hi => ⟨_, congrArg _ (if_pos ⟨hp, hn, by simpa using hf, hi⟩)⟩
  case tempCrit | tempNormal => exact fun k t hk hlo hhi => congrArg _ (if_pos ⟨hk, hlo, hhi⟩)
  case priReset => exact fun f l hf => congrArg _ (if_pos hf)
  case resyncDone =>
    rintro _ rfl hr hl
    exact ⟨_, congrArg _ (if_pos ⟨hr, by simp [hl]⟩)⟩

end Sys2Proof.Machine
end

section
/-! What an operation leaves: every register but those it may write, and the memories and tables. -/

namespace Sys2Proof.Machine

/-- The memories and tables that no row of the time base or the oven writes. -/
def State.untimed (s : State) :=
  (s.localMem, s.tsram, s.hbmMem, s.copyWin, s.pkts, s.threads, s.cs, s.rings, s.nodes, s.fns, s.l2, s.flow, s.frer, s.espSas, s.manager)

/-- State u has every register of s but those of a list, and its memories and tables. -/
def LeavesBut (l : List Reg) (s u : State) : Prop := (∀ q j, q ∉ l → u.reg q j = s.reg q j) ∧ u.untimed = s.untimed

section leaves
variable {l l' : List Reg} {s u v : State}

/-! ### How the relation composes -/

theorem LeavesBut.refl (l : List Reg) (s : State) : LeavesBut l s s := ⟨fun _ _ _ => rfl, rfl⟩

/-- What writes registers of the list alone may follow. -/
theorem LeavesBut.andThen (h : LeavesBut l s u) (k : LeavesBut l' u v) (hl : l'.all l.contains = true) : LeavesBut l s v :=
  ⟨fun q j hq => (k.1 q j fun hr => hq (List.contains_iff_mem.mp (List.all_eq_true.mp hl q hr))).trans (h.1 q j hq), k.2.trans h.2⟩

theorem LeavesBut.trans (h : LeavesBut l s u) (k : LeavesBut l u v) : LeavesBut l s v :=
  ⟨fun q j hq => (k.1 q j hq).trans (h.1 q j hq), k.2.trans h.2⟩

/-- A list that names more registers says less. -/
theorem LeavesBut.mono (h : LeavesBut l' s u) (hl : l'.all l.contains = true) : LeavesBut l s u := (refl l s).andThen h hl

/-- An update of anything else. -/
theorem leaves_same (hr : u.regs = s.regs) (hu : u.untimed = s.untimed) : LeavesBut l s u :=
  ⟨fun q j _ => by unfold State.reg; rw [hr], hu⟩

theorem LeavesBut.ite {c : Prop} [Decidable c] (hu : LeavesBut l s u) (hv : LeavesBut l s v) : LeavesBut l s (if c then u else v) := by
  split
  · exact hu
  · exact hv

theorem LeavesBut.when (h : LeavesBut l s u) {f : State → State} (hf : ∀ t, LeavesBut l' t (f t)) (c : Bool)
    (hl : l'.all l.contains = true) : LeavesBut l s (u.when c f) :=
  ite (h.andThen (hf u) hl) h

/-- A field of a register that is left reads as before. -/
theorem LeavesBut.rd (h : LeavesBut l s u) {f : Fld} (i : Nat) (hf : f.reg ∉ l) : u.rd f i = s.rd f i :=
  congrArg (fun x : Word => bits x.toNat f.hi f.lo) (h.1 f.reg i hf)

/-- A register that is left has its value. -/
theorem LeavesBut.val (h : LeavesBut l s u) {r : Reg} (i : Nat) (hr : r ∉ l) : u.val r i = s.val r i :=
  congrArg BitVec.toNat (h.1 r i hr)

/-! ### Registers, messages and events -/

variable (s)

theorem leaves_setReg (r : Reg) (i : Nat) (x : Word) : LeavesBut [r] s (s.setReg r i x) :=
  ⟨fun q j hq => (reg_setReg s r q i j x).trans (if_neg fun e => hq (List.mem_singleton.mpr e.1)), rfl⟩

theorem leaves_wr (f : Fld) (i x : Nat) : LeavesBut [f.reg] s (s.wr f i x) := leaves_setReg s _ _ _

theorem leaves_put (r : Reg) (i x : Nat) : LeavesBut [r] s (s.put r i x) := leaves_setReg s _ _ _

theorem leaves_countBy (r : Reg) (n k m : Nat) : LeavesBut [r] s (s.countBy r n k m) := leaves_setReg s _ _ _

theorem leaves_wrLegal (f : Fld) (i x : Nat) : LeavesBut [f.reg] s (s.wrLegal f i x) := .ite (leaves_wr s f i x) (.refl _ s)

theorem leaves_send (o : Out) : LeavesBut l s (s.send o) := leaves_same rfl rfl

theorem leaves_message (f vec : Nat) : LeavesBut [] s (s.message f vec) :=
  .ite (.refl [] s) (.ite (leaves_send s _) (leaves_same (by rfl) (by rfl)))

theorem leaves_raise (src : Nat) : LeavesBut [.EVT_PEND] s (s.raise src) :=
  .ite (.ite (.refl _ s) ((leaves_put s _ _ _).andThen (leaves_message _ _ _) rfl)) (.refl _ s)

theorem leaves_raiseLimited (src key interval : Nat) : LeavesBut [.EVT_PEND] s (s.raiseLimited src key interval) := by
  have raised (x : SMap (Option Nat)) : LeavesBut [.EVT_PEND] s (({ s with lastRaise := x } : State).raise src) :=
    (leaves_same rfl rfl : LeavesBut _ s { s with lastRaise := x }).andThen (leaves_raise _ src) rfl
  unfold State.raiseLimited
  split
  · exact .ite (.refl _ s) (raised _)
  · exact raised _

theorem leaves_logFwWrite (offset data : Nat) : LeavesBut [.EVT_PEND] s (s.logFwWrite offset data) :=
  (LeavesBut.ite (leaves_same (by rfl) (by rfl)) (leaves_same (by rfl) (by rfl))).andThen (leaves_raiseLimited _ _ _ _) rfl

/-- What a BAR2 access leaves: the manager's what it does, another's all but the count of the denial (R279). -/
theorem leaves_asManager {f : State → State} (hf : ∀ t, LeavesBut l t (f t)) (fn : Nat) (hl : [Reg.HIF_CTR, .EVT_PEND].all l.contains = true) :
    LeavesBut l s (s.asManager fn f) :=
  .ite (.refl _ s) (.ite (hf s) (.ite (LeavesBut.mono (((leaves_countBy s .HIF_CTR _ _ _).mono rfl).andThen (leaves_raiseLimited _ _ _ _) rfl) hl) (.refl _ s)))

/-! ### Plain updates: of the time unit's state, the oven's and the journal's -/

theorem leaves_setTsu (x : Tsu) : LeavesBut l s { s with tsu := x } := leaves_same rfl rfl

theorem leaves_setOven (x : Oven) : LeavesBut l s { s with oven := x } := leaves_same rfl rfl

theorem leaves_setJournal (x : Journal) : LeavesBut l s { s with journal := x } := leaves_same rfl rfl

/-! ### The journal -/

theorem leaves_backlogSync : LeavesBut [.JNL_STATUS] s s.backlogSync := leaves_wr s F.JNL_STATUS_BACKLOG _ _

theorem leaves_journalGap : LeavesBut [.JNL_STATUS] s s.journalGap :=
  .ite (.refl _ s) (.ite ((leaves_setJournal s _).andThen (leaves_backlogSync _) rfl) (.refl _ s))

/-- The registers that a record's way into the backlog may write. -/
def journalRegs : List Reg := [.JNL_STATUS, .JNL_CTR, .EVT_PEND]

theorem leaves_journalPush (rs : List JRec) : LeavesBut journalRegs s (s.journalPush rs) := by
  have gap (x : Journal) : LeavesBut journalRegs s { s.journalGap with journal := x } :=
    ((leaves_journalGap s).mono rfl).trans (leaves_setJournal _ x)
  unfold State.journalPush
  dsimp only
  split
  · exact ((gap _).andThen (leaves_backlogSync _) rfl).when (fun t => leaves_raise t _) _ rfl
  · exact ((gap _).andThen (leaves_countBy _ _ _ _ _) rfl).andThen (leaves_raise _ _) rfl

theorem leaves_journalCfg (sub parts : Nat) (data : Bytes) : LeavesBut journalRegs s (s.journalCfg sub parts data) := leaves_journalPush s _

theorem leaves_journalClock (cause : Nat) : LeavesBut journalRegs s (s.journalClock cause) := leaves_journalPush s _

theorem leaves_journalSteer (what new old : Nat) : LeavesBut journalRegs s (s.journalSteer what new old) := leaves_journalPush s _

theorem leaves_journalHoldover (enter : Bool) (last : Nat) : LeavesBut journalRegs s (s.journalHoldover enter last) :=
  leaves_journalPush s _

/-! ### The time unit -/

theorem leaves_clockDue (cause : Nat) : LeavesBut l s (s.clockDue cause) := leaves_setTsu s _

theorem leaves_tsuStatus (f : Fld) (x : Nat) : LeavesBut [f.reg] s (s.tsuStatus f x) :=
  .ite (.refl _ s) ((leaves_wr s f 0 x).trans (leaves_clockDue _ _))

theorem leaves_tsuSync : LeavesBut [.TSU_STATUS] s s.tsuSync :=
  (leaves_tsuStatus s F.TSU_STATUS_SLEWING _).andThen (leaves_tsuStatus _ F.TSU_STATUS_STEP_ARMED _) rfl

theorem leaves_countTick : LeavesBut [.TSU_INCR] s s.countTick :=
  LeavesBut.trans (leaves_same (by rfl) (by rfl)) (leaves_put _ _ _ _)

theorem leaves_secondBoundary : LeavesBut [.EVT_PEND] s s.secondBoundary :=
  (((LeavesBut.refl _ s).when (fun t => leaves_send (l := [.EVT_PEND]) t _) _ rfl).andThen (leaves_raise _ _) rfl).trans (leaves_clockDue _ _)

theorem leaves_stepDone (abs : Bool) : LeavesBut timeRegs s (s.stepDone abs) :=
  (((((leaves_wr s F.TSU_STEP_CTRL_ARM _ _).mono rfl).andThen (leaves_wr _ F.TSU_STEP_CTRL_RESULT _ _) rfl).andThen (leaves_raise _ _) rfl).when
    (fun t => leaves_raise t _) _ rfl).andThen (leaves_journalSteer _ _ _ _) rfl

theorem leaves_tick : LeavesBut timeRegs s s.tick :=
  .ite
    ((((((LeavesBut.trans (leaves_same (by rfl) (by rfl)) ((leaves_countTick _).mono rfl)).when leaves_secondBoundary _ rfl).when
      (fun t => leaves_stepDone t _) _ rfl).when (fun t => leaves_raise t _) _ rfl).when
      (fun t => leaves_send (l := timeRegs) t _) _ rfl).andThen (leaves_tsuSync _) rfl)
    (leaves_same (by rfl) (by rfl))

/-- The registers that steering may write. -/
def steerRegs : List Reg := .TSU_STATUS :: journalRegs

/-- The end of a holdover writes its event and its record (R47). -/
theorem leaves_holdoverExit : LeavesBut journalRegs s ((s.raise Ev.TIME_HOLDOVER_EXIT).journalHoldover false s.tsu.steerStamp) :=
  ((leaves_raise s _).mono rfl).andThen (leaves_journalHoldover _ _ _) rfl

theorem leaves_steering : LeavesBut steerRegs s s.steering := by
  unfold State.steering
  exact ((leaves_setTsu s _).andThen (leaves_tsuStatus _ F.TSU_STATUS_HOLD_STATE _) rfl).when leaves_holdoverExit _ rfl

theorem leaves_setOffset (x : Nat) : LeavesBut timeRegs s (s.setOffset x) :=
  .ite
    (((((leaves_steering s).mono rfl).andThen (leaves_put _ _ _ _) rfl).trans (leaves_setTsu _ _)).andThen (leaves_journalSteer _ _ _ _) rfl)
    ((leaves_steering s).mono rfl)

theorem leaves_arm : LeavesBut timeRegs s s.arm := by
  unfold State.arm
  split
  · exact ((leaves_wr s F.TSU_STEP_CTRL_RESULT _ _).mono rfl).andThen (leaves_raise _ _) rfl
  · exact (((leaves_wr s F.TSU_STEP_CTRL_ARM _ _).mono rfl).andThen (leaves_wr _ F.TSU_STEP_CTRL_RESULT _ _) rfl).andThen (leaves_tsuSync _) rfl

theorem leaves_cancelStep : LeavesBut timeRegs s s.cancelStep :=
  .ite ((((leaves_wr s F.TSU_STEP_CTRL_ARM _ _).mono rfl).andThen (leaves_wr _ F.TSU_STEP_CTRL_RESULT _ _) rfl).andThen (leaves_tsuSync _) rfl) (.refl _ s)

theorem leaves_stepCtrlWrite (arm abs cancel : Bool) : LeavesBut timeRegs s (s.stepCtrlWrite arm abs cancel) :=
  (((LeavesBut.ite ((LeavesBut.refl _ s).when (fun t => leaves_logFwWrite t _ _) _ rfl) ((leaves_wr s F.TSU_STEP_CTRL_ABS _ _).mono rfl)).when
    leaves_steering _ rfl).when leaves_arm _ rfl).when leaves_cancelStep _ rfl

theorem leaves_setSlew (x : Nat) : LeavesBut timeRegs s (s.setSlew x) :=
  ((((leaves_steering s).mono rfl).trans (leaves_setTsu _ _)).andThen (leaves_journalSteer _ _ _ _) rfl).andThen (leaves_tsuSync _) rfl

theorem leaves_slewWrite (w : Width) (x : Nat) : LeavesBut timeRegs s (s.slewWrite w x) := by
  cases w with
  | full => exact leaves_setSlew s x
  | low => exact leaves_setTsu s _
  | high => exact (leaves_setTsu s _).andThen (leaves_setSlew _ _) rfl

theorem leaves_setSlewRate (x : Nat) : LeavesBut timeRegs s (s.setSlewRate x) :=
  ((leaves_wrLegal s F.TSU_SLEW_RATE_RATE_NS _ _).mono rfl).trans (leaves_setTsu _ _)

theorem leaves_setBoardDly (port x : Nat) : LeavesBut timeRegs s (s.setBoardDly port x) :=
  ((leaves_setTsu s _).andThen (leaves_put _ _ _ _) rfl).andThen (leaves_journalCfg _ _ _ _) rfl

theorem leaves_setRef (sel : Nat) : LeavesBut timeRegs s (s.setRef sel) :=
  .ite (.refl _ s)
    ((((((leaves_wr s F.TSU_REF_SEL _ _).mono rfl).andThen (leaves_wr _ F.TSU_STATUS_REF_ACTIVE _ _) rfl).andThen
      (leaves_wr _ F.TSU_STATUS_PLL_LOCKED _ _) rfl).trans (leaves_clockDue _ _)).andThen (leaves_raise _ _) rfl)

theorem leaves_pllLock : LeavesBut [.TSU_STATUS] s s.pllLock :=
  ((leaves_tsuStatus s F.TSU_STATUS_PLL_LOCKED _).andThen (leaves_tsuStatus _ F.TSU_STATUS_REF_PRESENT _) rfl).trans (leaves_setTsu _ _)

/-! ### The oven -/

theorem leaves_ovenEnter (st : OvenState) (cause : Nat) : LeavesBut timeRegs s (s.ovenEnter st cause) := by
  have event (t : State) : LeavesBut timeRegs t (match st.event cause with
      | some e => t.raise e
      | none => t) := by
    split
    · exact (leaves_raise t _).mono rfl
    · exact .refl _ t
  have duty (t : State) (x : Nat) : LeavesBut timeRegs t (t.wr F.OVN_STATUS_DUTY 0 x) := (leaves_wr t F.OVN_STATUS_DUTY _ _).mono rfl
  unfold State.ovenEnter
  exact (((((((leaves_wr s F.OVN_STATUS_STATE _ _).mono rfl).andThen (leaves_wr _ F.OVN_STATUS_FAULT_CAUSE _ _) rfl).trans (leaves_setOven _ _)).andThen
    (.ite (duty _ _) (.ite (duty _ _) (.refl _ _))) rfl).trans (leaves_send _ _)).andThen (event _) rfl).trans (leaves_clockDue _ _)

theorem leaves_ovenCtrl (x : Nat) : LeavesBut timeRegs s (s.ovenCtrl x) := by
  have set : LeavesBut timeRegs s (s.put .OVN_CTRL 0 (bits x 31 29 * 2 ^ 29)) := (leaves_put s _ _ _).mono rfl
  have enter (st : OvenState) := set.andThen (leaves_ovenEnter _ st 0) rfl
  exact .ite set (.ite (.ite set (enter _)) (.ite (enter _) (.ite (enter _) (.ite (enter _) set))))

theorem leaves_ovenRuns (code : Nat) : LeavesBut [] s (s.ovenRuns code) := leaves_setOven s _

theorem leaves_ovenLoop (code : Nat) : LeavesBut [.OVN_STATUS] s (s.ovenLoop code) :=
  (leaves_setOven s _).andThen (leaves_wr _ F.OVN_STATUS_DUTY _ _) rfl

theorem leaves_clearOtLatch (tripped : Bool) : LeavesBut timeRegs s (s.clearOtLatch tripped) := by
  have now (x : Nat) : LeavesBut timeRegs s (s.wr F.OVN_STATUS_OT_NOW 0 x) := (leaves_wr s F.OVN_STATUS_OT_NOW _ _).mono rfl
  have latch (x : Nat) := (now x).andThen (leaves_wr _ F.OVN_STATUS_OT_LATCH 0 0) rfl
  exact .ite (now _) (.ite (((latch _).andThen (leaves_raise _ _) rfl).andThen (leaves_ovenEnter _ _ _) rfl) (latch _))

theorem leaves_setEfc (x : Nat) : LeavesBut timeRegs s (s.setEfc x) :=
  ((leaves_wr s F.OVN_EFC_CODE _ _).mono rfl).andThen (leaves_journalSteer _ _ _ _) rfl

/-! ### The rows -/

/-- What a row leaves, when it ends in a next state. -/
def RowLeaves (l : List Reg) (s : State) (o : Step) : Prop := ∀ u, o = .next u → LeavesBut l s u

theorem rowLeaves_next {u : State} (h : LeavesBut l s u) : RowLeaves l s (.next u) := by
  rintro _ ⟨⟩
  exact h

theorem rowLeaves_asManager {f : State → State} (hf : ∀ t, LeavesBut timeRegs t (f t)) (fn : Nat) :
    RowLeaves timeRegs s (.next (s.asManager fn f)) := rowLeaves_next s (leaves_asManager s hf fn rfl)

theorem rowLeaves_execTsuTimeNsfRead (fn : Nat) : RowLeaves timeRegs s (execTsuTimeNsfRead fn s) := by
  unfold execTsuTimeNsfRead
  split
  · exact rowLeaves_next s (.refl _ s)
  split
  · exact rowLeaves_next s (LeavesBut.trans (leaves_same (by rfl) (by rfl)) (leaves_send _ _))
  · exact rowLeaves_next s (.ite ((leaves_asManager s (fun t => .refl _ t) fn rfl).trans (leaves_send _ _)) (.refl _ s))

theorem rowLeaves_execTimeHoldoverEnter : RowLeaves timeRegs s (execTimeHoldoverEnter s) :=
  rowLeaves_next s (.ite ((((leaves_tsuStatus s F.TSU_STATUS_HOLD_STATE _).mono rfl).andThen (leaves_raise _ _) rfl).andThen
    (leaves_journalHoldover _ _ _) rfl) (.refl _ s))

theorem rowLeaves_execTsuBoardDlyWrite (fn port x : Nat) : RowLeaves timeRegs s (execTsuBoardDlyWrite fn port x s) :=
  rowLeaves_next s (.ite (leaves_asManager s (fun t => leaves_setBoardDly t port x) fn rfl) (.refl _ s))

theorem rowLeaves_execTimeRefLost : RowLeaves timeRegs s (execTimeRefLost s) :=
  rowLeaves_next s (.ite (((((leaves_wr s F.TSU_STATUS_REF_PRESENT _ _).mono rfl).andThen (leaves_wr _ F.TSU_STATUS_PLL_LOCKED _ _) rfl).andThen
    (leaves_raise _ _) rfl).andThen (leaves_journalClock _ _) rfl) (.refl _ s))

theorem rowLeaves_execTimeRefRestored : RowLeaves timeRegs s (execTimeRefRestored s) :=
  rowLeaves_next s (.ite (.refl _ s) (((leaves_pllLock s).mono rfl).andThen (leaves_raise _ _) rfl))

theorem rowLeaves_execTimePllUnlock : RowLeaves timeRegs s (execTimePllUnlock s) :=
  rowLeaves_next s (.ite (((leaves_tsuStatus s F.TSU_STATUS_PLL_LOCKED _).mono rfl).andThen (leaves_raise _ _) rfl) (.refl _ s))

theorem rowLeaves_execPpsInCaptured (phase : Nat) : RowLeaves timeRegs s (execPpsInCaptured phase s) :=
  rowLeaves_next s ((((leaves_put s _ _ _).mono rfl).trans (leaves_setTsu _ _)).andThen (leaves_raise _ _) rfl)

theorem rowLeaves_execPpsInMissing : RowLeaves timeRegs s (execPpsInMissing s) := by
  unfold execPpsInMissing
  split
  · exact rowLeaves_next s (.ite ((leaves_setTsu s _).andThen (leaves_raise _ _) rfl) (.refl _ s))
  · exact rowLeaves_next s (.refl _ s)

theorem rowLeaves_execOvnAdcSample (code : Nat) (tripped : Bool) : RowLeaves timeRegs s (execOvnAdcSample code tripped s) := by
  have sensed : LeavesBut timeRegs s ((s.wr F.OVN_SENSE_CODE 0 (code % 65536)).when (!tripped) (fun t => t.wr F.OVN_STATUS_OT_NOW 0 0)) :=
    ((leaves_wr s F.OVN_SENSE_CODE _ _).mono rfl).when (fun t => leaves_wr t F.OVN_STATUS_OT_NOW 0 0) _ rfl
  exact rowLeaves_next s (LeavesBut.andThen (.ite (sensed.andThen (leaves_ovenLoop _ _) rfl)
    (.ite (sensed.andThen (leaves_wr _ F.OVN_STATUS_DUTY _ _) rfl) sensed)) (leaves_ovenRuns _ _) rfl)

theorem rowLeaves_execOvnSettling : RowLeaves timeRegs s (execOvnSettling s) :=
  rowLeaves_next s (.ite (((leaves_setOven s _).andThen (leaves_ovenEnter _ _ _) rfl).when (fun t => leaves_ovenEnter t _ _) _ rfl) (.refl _ s))

theorem rowLeaves_execOvnLocked : RowLeaves timeRegs s (execOvnLocked s) := by
  unfold execOvnLocked
  split
  · exact rowLeaves_next s (.ite (leaves_ovenEnter s _ _) (.refl _ s))
  · exact rowLeaves_next s (.refl _ s)

theorem rowLeaves_execOvnUnlocked : RowLeaves timeRegs s (execOvnUnlocked s) := by
  unfold execOvnUnlocked
  split
  · exact rowLeaves_next s (.ite (((leaves_raise s _).mono rfl).andThen (leaves_ovenEnter _ _ _) rfl) (.refl _ s))
  · exact rowLeaves_next s (.refl _ s)

theorem rowLeaves_execOvnOvertemp : RowLeaves timeRegs s (execOvnOvertemp s) :=
  rowLeaves_next s ((((leaves_wr s F.OVN_STATUS_OT_NOW _ _).mono rfl).andThen (leaves_wr _ F.OVN_STATUS_OT_LATCH _ _) rfl).andThen
    (leaves_ovenEnter _ _ _) rfl)

theorem rowLeaves_execOvnDutyLimit : RowLeaves timeRegs s (execOvnDutyLimit s) := by
  unfold execOvnDutyLimit
  split
  · exact rowLeaves_next s (.ite ((leaves_setOven s _).andThen (leaves_raise _ _) rfl) (.refl _ s))
  · exact rowLeaves_next s (.refl _ s)

/-- Row by row, with a row's meaning for exec's arm. -/
theorem rowLeaves_exec {c : Instr} (h : c.timeRow = true) : RowLeaves timeRegs s (exec c s) := by
  cases c with
  | tsuFreqOffsetWrite fn w x => exact rowLeaves_asManager s (fun t => leaves_setOffset t _) fn
  | tsuStepArm fn abs cancel => exact rowLeaves_asManager s (fun t => leaves_stepCtrlWrite t true abs cancel) fn
  | tsuStepCancel fn abs => exact rowLeaves_asManager s (fun t => leaves_stepCtrlWrite t false abs true) fn
  | tsuSlewSetWrite fn w x => exact rowLeaves_asManager s (fun t => leaves_slewWrite t w x) fn
  | tsuSlewRateWrite fn x => exact rowLeaves_asManager s (fun t => leaves_setSlewRate t x) fn
  | tsuRefWrite fn x => exact rowLeaves_asManager s (fun t => leaves_setRef t (x % 4)) fn
  | ovnEnWrite fn x | ovnHoldWrite fn x => exact rowLeaves_asManager s (fun t => leaves_ovenCtrl t x) fn
  | ovnOtLatchClear fn tripped => exact rowLeaves_asManager s (fun t => leaves_clearOtLatch t tripped) fn
  | ovnEfcWrite fn x => exact rowLeaves_asManager s (fun t => leaves_setEfc t x) fn
  | timeStepApplied | timeSlewDone | timeSecondBoundary => exact rowLeaves_next s (.ite (leaves_tick s) (.refl _ s))
  | timeClockTick => exact rowLeaves_next s (leaves_tick s)
  | tsuTimeNsfRead fn => exact rowLeaves_execTsuTimeNsfRead s fn
  | timeHoldoverEnter => exact rowLeaves_execTimeHoldoverEnter s
  | tsuBoardDlyWrite fn port x => exact rowLeaves_execTsuBoardDlyWrite s fn port x
  | timeRefLost => exact rowLeaves_execTimeRefLost s
  | timeRefRestored => exact rowLeaves_execTimeRefRestored s
  | timePllUnlock => exact rowLeaves_execTimePllUnlock s
  | ppsInCaptured phase => exact rowLeaves_execPpsInCaptured s phase
  | ppsInMissing => exact rowLeaves_execPpsInMissing s
  | ovnAdcSample code tripped => exact rowLeaves_execOvnAdcSample s code tripped
  | ovnSettling => exact rowLeaves_execOvnSettling s
  | ovnLocked => exact rowLeaves_execOvnLocked s
  | ovnUnlocked => exact rowLeaves_execOvnUnlocked s
  | ovnFaultSense | ovnFaultWarmup => exact rowLeaves_next s (.ite (leaves_ovenEnter s _ _) (.refl _ s))
  | ovnOvertemp => exact rowLeaves_execOvnOvertemp s
  | ovnDutyLimit => exact rowLeaves_execOvnDutyLimit s
  | _ => cases h

end leaves

end Sys2Proof.Machine
end

section
/-! What an ALU part leaves: all but its thread's flags, status, events and destination. -/

namespace Sys2Proof.Machine

/-- State u differs from s in thread t alone, and in free values, and t has its operands but d and its PC. -/
structure ActsOn (t d : Nat) (s u : State) : Prop where
  threads : ∀ k, k ≠ t → u.thread k = s.thread k
  ops : ∀ n, n ≠ d → (u.thread t).ops.get n = (s.thread t).ops.get n
  pc : (u.thread t).pc = (s.thread t).pc
  regs : u.regs = s.regs
  pkts : u.pkts = s.pkts
  localMem : u.localMem = s.localMem
  tsram : u.tsram = s.tsram
  hbmMem : u.hbmMem = s.hbmMem
  out : u.out = s.out

section acts
variable {t d : Nat} {s u v : State}

theorem ActsOn.refl (t d : Nat) (s : State) : ActsOn t d s s :=
  ⟨fun _ _ => rfl, fun _ _ => rfl, rfl, rfl, rfl, rfl, rfl, rfl, rfl⟩

theorem ActsOn.trans (h : ActsOn t d s u) (k : ActsOn t d u v) : ActsOn t d s v where
  threads j hj := (k.threads j hj).trans (h.threads j hj)
  ops n hn := (k.ops n hn).trans (h.ops n hn)
  pc := k.pc.trans h.pc
  regs := k.regs.trans h.regs
  pkts := k.pkts.trans h.pkts
  localMem := k.localMem.trans h.localMem
  tsram := k.tsram.trans h.tsram
  hbmMem := k.hbmMem.trans h.hbmMem
  out := k.out.trans h.out

/-- A change of thread t that keeps its operands but d and its PC. -/
theorem actsOn_modThread (s : State) {g : Thread → Thread} (ho : ∀ th n, n ≠ d → (g th).ops.get n = th.ops.get n)
    (hp : ∀ th, (g th).pc = th.pc) : ActsOn t d s (s.modThread t g) where
  threads k hk := by rw [thread_modThread, if_neg (Ne.symm hk)]
  ops n hn := by rw [thread_modThread, if_pos rfl, ho _ n hn]
  pc := by rw [thread_modThread, if_pos rfl, hp]
  regs := rfl
  pkts := rfl
  localMem := rfl
  tsram := rfl
  hbmMem := rfl
  out := rfl

/-- A change of thread t that touches neither its operands nor its PC. -/
theorem actsOn_status (s : State) {g : Thread → Thread} (h : ∀ th, ((g th).ops, (g th).pc) = (th.ops, th.pc)) :
    ActsOn t d s (s.modThread t g) :=
  actsOn_modThread s (fun th n _ => by rw [(Prod.mk.inj (h th)).1]) (fun th => (Prod.mk.inj (h th)).2)

/-- A write of an operand changes that operand alone, or flags or staging. -/
theorem actsOn_writeOp (s : State) (x : Nat) : ActsOn t d s (s.writeOp t d x) := by
  have set (m : SMap Nat) (n : Nat) (hn : n ≠ d) : (m.set d (x % W64)).get n = m.get n := by
    rw [SMap.get_set, if_neg (Ne.symm hn)]
  refine actsOn_modThread s (fun th n hn => ?ops) (fun th => ?pc)
  case ops => split_ifs <;> simp only [set _ n hn]
  case pc => split_ifs <;> rfl

/-- A destination that is neither SIGNAL nor INBOX_POP has no side effect but that of EVENT_CLR. -/
theorem actsOn_specials (s : State) (x : Nat) (h2 : d ≠ 202) (h3 : d ≠ 203) :
    ActsOn t d s (s.specials t (if 201 ≤ d ∧ d ≤ 203 then [(d, x)] else [])) := by
  by_cases h : d = 201
  · subst h
    exact actsOn_status s fun _ => by rfl
  · rw [if_neg (by omega)]
    exact .refl t d s

theorem actsOn_randUsed (s : State) (l : List Nat) : ActsOn t d s (s.randUsed l) := by
  unfold State.randUsed
  split
  · exact ⟨fun _ _ => rfl, fun _ _ => rfl, rfl, rfl, rfl, rfl, rfl, rfl, rfl⟩
  · exact .refl t d s

variable {op : Nat} {f : AluArgs}

/-- The end of an ALU operation (R155). -/
theorem actsOn_aluEnds (s : State) (v : Nat) (c o : Bool) (h2 : f.dst ≠ 202) (h3 : f.dst ≠ 203) :
    ActsOn t f.dst s (s.aluEnds t op f v c o) := by
  have flags (u : State) : ActsOn t f.dst u
      (u.when f.sf (fun u => u.modThread t (fun th => { th with flags := th.flags / 16 * 16 + nzcv v c o }))) := by
    unfold State.when
    split
    · exact actsOn_status u fun _ => by rfl
    · exact .refl t _ u
  unfold State.aluEnds
  rw [beq_eq_false_iff_ne.mpr h3, when_false]
  exact ((((actsOn_status s fun _ => by rfl).trans (flags _)).trans (actsOn_writeOp _ v)).trans (actsOn_specials _ v h2 h3)).trans
    (actsOn_randUsed _ _)

/-- The end of a compare or a test (R155). -/
theorem actsOn_aluTests (s : State) (v : Nat) (c o : Bool) (h3 : f.dst ≠ 203) : ActsOn t f.dst s (s.aluTests t op f v c o) := by
  unfold State.aluTests
  rw [beq_eq_false_iff_ne.mpr h3, when_false]
  exact ((actsOn_status s fun _ => by rfl).trans (actsOn_status _ fun _ => by rfl)).trans (actsOn_randUsed _ _)

end acts

/-- A row that stands for an ALU part is that part as a command of its own. -/
theorem exec_aluPart {c : Instr} {t op : Nat} {f : AluArgs} (h : c.aluPart = some (t, op, f)) (s : State) :
    (1 ≤ op ∧ op ≤ 0x17) ∧ ∃ imm strict, exec c s = .next (s.aluCmd t op f imm strict) := by
  cases c with
  | aluMov _ _ imm strict | aluAdd _ _ imm strict | aluSub _ _ imm strict | aluAnd _ _ imm strict | aluOr _ _ imm strict
  | aluXor _ _ imm strict | aluAndn _ _ imm strict | aluShlv _ _ imm strict | aluShrv _ _ imm strict | aluSarv _ _ imm strict
  | aluMinu _ _ imm strict | aluMaxu _ _ imm strict | aluCmp _ _ imm strict | aluTst _ _ imm strict | aluIns _ _ imm strict
  | aluPopc _ _ imm strict | aluClz _ _ imm strict | aluBswap _ _ imm strict | aluCrc _ _ imm strict | aluAddc _ _ imm strict
  | aluSubb _ _ imm strict | aluSel _ _ imm strict | aluMul32 _ _ imm strict =>
    cases h
    exact ⟨by decide, imm, strict, rfl⟩
  | _ => cases h

/-- An ALU part that acts, and whose destination is neither SIGNAL nor INBOX_POP, acts on its thread alone. -/
theorem actsOn_aluCmd {s : State} {t op : Nat} {f : AluArgs} (h : s.aluRuns t op f) (h1 : 1 ≤ op) (h2 : op ≤ 0x17)
    (hs : f.dst ≠ 202) (hi : f.dst ≠ 203) (imm : Nat) (strict : Bool) : ActsOn t f.dst s (s.aluCmd t op f imm strict) := by
  cases hw : writesNothing op with
  | false =>
    rw [aluCmd_ends h h1 h2 hw]
    exact actsOn_aluEnds s _ _ _ hs hi
  | true =>
    rw [aluCmd_tests h h1 h2 hw]
    exact actsOn_aluTests s _ _ _ hi

/-- Settles O60, from what each row leaves and what an ALU part acts on. -/
theorem rowsFrame : Obligations.RowsFrame := by
  refine ⟨?rows, ?alu⟩
  case rows =>
    intro c s u hc hu
    obtain ⟨hregs, hrest⟩ := rowLeaves_exec s hc u hu
    simp only [State.untimed, Prod.mk.injEq] at hrest
    obtain ⟨hlocal, htsram, hhbm, hwin, hpkts, hthreads, hcs, hrings, hnodes, hfns, hl2, hflow, hfrer, hesp, hmanager⟩ := hrest
    exact ⟨hregs, fun a => ⟨by rw [hlocal], by rw [htsram], by rw [hhbm], by rw [hwin]⟩, hpkts, hthreads, hcs, hrings, hnodes, hfns, hl2,
      hflow, hfrer, hesp, hmanager⟩
  case alu =>
    intro c s u t op f hc hr hs hi hu
    obtain ⟨⟨h1, h2⟩, imm, strict, he⟩ := exec_aluPart hc s
    obtain rfl : s.aluCmd t op f imm strict = u := Host.Outcome.next.inj (he.symm.trans hu)
    have acts := actsOn_aluCmd hr h1 h2 hs hi imm strict
    exact ⟨acts.threads, acts.ops, acts.pc, acts.regs, acts.pkts, acts.localMem, acts.tsram, acts.hbmMem, acts.out⟩

end Sys2Proof.Machine
end

section
/-! The time unit, function by function: ticks, steering, steps, references. -/

namespace Sys2Proof.Machine

/-! ### Ticks -/

/-- A tick of a counter that stands still counts elapsed time alone (spec/00_scope.md R423). -/
theorem tick_stopped {s : State} (h : s.tsu.counting = false) :
    s.tick = { s with now := s.now + 1, tsu := { s.tsu with dlyOld := [] } } := by
  simp [State.tick, h]

/-- A tick of a counter that counts: the count, then what comes about on it (R38, R41, R44, R45, R57). -/
theorem tick_counting {s u : State} (h : s.tsu.counting = true)
    (hu : u = ({ s with now := s.now + 1, tsu := { s.tsu with dlyOld := [] } } : State).countTick) :
    s.tick = (((((u.when s.crosses State.secondBoundary).when s.stepApplies (fun t => t.stepDone (s.on F.TSU_STEP_CTRL_ABS 0))).when s.slewEnds
      (fun t => t.raise Ev.TIME_SLEW_DONE)).when (s.clkEdge u.time) (fun t => t.send .clk10m)).tsuSync) := by
  subst hu
  simp only [State.tick, h, if_true]

/-- Settles O7: a row that names what a tick brings about is that tick. -/
theorem timeTicks : Obligations.TimeTicks :=
  ⟨fun _ h => congrArg _ (tick_stopped h), fun _ _ h hu => congrArg _ (tick_counting h hu), fun _ h => congrArg _ (if_pos h),
    fun _ h => congrArg _ (if_pos h), fun _ hc he => congrArg _ (if_pos (Bool.and_eq_true_iff.mpr ⟨hc, he⟩))⟩

/-! ### Steering -/

/-- A legal OFFSET that is new is set, with its STEER record, and the increment becomes due (R38, R48). -/
theorem setOffset_changes {s : State} {v : Nat} (hl : (Legal.signed 32768000000).ok 64 v = true)
    (hv : v % 2 ^ 64 ≠ s.val .TSU_FREQ_OFFSET 0) :
    s.setOffset v = ({ s.steering.put .TSU_FREQ_OFFSET 0 v with tsu := { s.steering.tsu with incrDue := true } } : State).journalSteer 1
      (v % 2 ^ 64) (s.val .TSU_FREQ_OFFSET 0) :=
  if_pos (by simpa [hl] using hv)

/-- An OFFSET that is a reserved encoding, or the value held already, steers and is not set (R48; spec/00_scope.md R13). -/
theorem setOffset_keeps {s : State} {v : Nat}
    (h : (Legal.signed 32768000000).ok 64 v = false ∨ v % 2 ^ 64 = s.val .TSU_FREQ_OFFSET 0) : s.setOffset v = s.steering :=
  if_neg (by obtain h | h := h <;> simp only [h] <;> simp)

/-- The manager's full write of TSU_FREQ_OFFSET with a legal value that is new sets it. -/
theorem execTsuFreqOffsetWrite_changes {s : State} {fn v : Nat} (h : s.managedBy fn) (hl : (Legal.signed 32768000000).ok 64 (v % 2 ^ 64) = true)
    (hv : v % 2 ^ 64 ≠ s.val .TSU_FREQ_OFFSET 0) :
    execTsuFreqOffsetWrite fn .full v s = .next (({ s.steering.put .TSU_FREQ_OFFSET 0 (v % 2 ^ 64) with
      tsu := { s.steering.tsu with incrDue := true } } : State).journalSteer 1 (v % 2 ^ 64) (s.val .TSU_FREQ_OFFSET 0)) := by
  have hset := setOffset_changes (s := s) hl (by rwa [Nat.mod_mod])
  rw [Nat.mod_mod] at hset
  exact congrArg _ ((asManager_of h _).trans hset)

/-- ARM with nothing armed sets ABS, steers and arms (R41, R47). -/
theorem stepCtrlWrite_arms {s : State} (abs : Bool) (h : s.on F.TSU_STEP_CTRL_ARM 0 = false) :
    s.stepCtrlWrite true abs false = (s.wr F.TSU_STEP_CTRL_ABS 0 (b2n abs)).steering.arm := by
  simp [State.stepCtrlWrite, State.when, h]

/-- CANCEL disarms an armed step ("Phase steps and slew"). -/
theorem cancelStep_armed {s : State} (h : s.on F.TSU_STEP_CTRL_ARM 0 = true) :
    s.cancelStep = ((s.wr F.TSU_STEP_CTRL_ARM 0 0).wr F.TSU_STEP_CTRL_RESULT 0 0).tsuSync := if_pos h

/-- A write with CANCEL alone and the ABS in force disarms ("Phase steps and slew"). -/
theorem stepCtrlWrite_cancels {s : State} {abs : Bool} (h : s.on F.TSU_STEP_CTRL_ARM 0 = true) (ha : s.on F.TSU_STEP_CTRL_ABS 0 = abs) :
    s.stepCtrlWrite false abs true = ((s.wr F.TSU_STEP_CTRL_ARM 0 0).wr F.TSU_STEP_CTRL_RESULT 0 0).tsuSync := by
  rw [← cancelStep_armed h]
  simp [State.stepCtrlWrite, State.when, h, ha]

/-- No step is armed while a fairness group is enabled (R43). -/
theorem arm_groupEnabled {s : State} (h : s.groupEnabled = true) :
    s.arm = (s.wr F.TSU_STEP_CTRL_RESULT 0 2).raise Ev.TIME_STEP_DENIED := by
  simp [State.arm, State.armRefusal, h]

/-- An absolute step is armed while no fairness group is enabled (R41). -/
theorem arm_absolute {s : State} (h : s.groupEnabled = false) (ha : s.on F.TSU_STEP_CTRL_ABS 0 = true) :
    s.arm = ((s.wr F.TSU_STEP_CTRL_ARM 0 1).wr F.TSU_STEP_CTRL_RESULT 0 0).tsuSync := by
  simp [State.arm, State.armRefusal, h, ha]

/-- A new SEL selects its reference, and the PLL relocks (R56). -/
theorem setRef_changes {s : State} {sel : Nat} (h : sel ≤ 2) (hn : sel ≠ s.rd F.TSU_REF_SEL 0) :
    s.setRef sel = ((((s.wr F.TSU_REF_SEL 0 sel).wr F.TSU_STATUS_REF_ACTIVE 0 sel).wr F.TSU_STATUS_PLL_LOCKED 0 0).clockDue 3).raise
      Ev.TIME_REF_SWITCHED := if_neg (by omega)

/-- A manager's write of TSU_BOARD_DLY of a port that exists acts. -/
theorem execTsuBoardDlyWrite_port {s : State} {fn port : Nat} (v : Nat) (h : s.managedBy fn) (hp : port < 16) :
    execTsuBoardDlyWrite fn port v s = .next (s.setBoardDly port v) := congrArg _ ((if_pos hp).trans (asManager_of h _))

/-- Settles O8, write by write. -/
theorem timeSteering : Obligations.TimeSteering := by
  refine ⟨?offset, ?reserved, ?arm, ?denied, ?armed, ?cancel, ?slewFull, ?slewLow, ?slewHigh, ?rate, ?board, ?ref, ?sameRef⟩
  case offset =>
    intro s fn v h hl hv hs
    exact execTsuFreqOffsetWrite_changes h hl (hs ▸ hv)
  case reserved => exact fun s fn v h hl => congrArg _ ((asManager_of h _).trans (setOffset_keeps (.inl hl)))
  case arm =>
    rintro s fn abs _ h ha rfl
    exact congrArg _ ((asManager_of h _).trans (stepCtrlWrite_arms abs ha))
  case denied => exact fun s h => arm_groupEnabled h
  case armed => exact fun s h ha => arm_absolute h ha
  case cancel => exact fun s fn abs h ha hb => congrArg _ ((asManager_of h _).trans (stepCtrlWrite_cancels ha hb))
  case slewFull | slewLow | rate => exact fun s fn v h => congrArg _ (asManager_of h _)
  case slewHigh => exact fun s fn v lo h hlo => congrArg _ ((asManager_of h _).trans (by simp only [State.slewWrite, hlo, Option.getD_some]))
  case board =>
    rintro s _ fn port v h hp rfl
    exact execTsuBoardDlyWrite_port v h hp
  case ref => exact fun s fn v h hv hn => congrArg _ ((asManager_of h _).trans (setRef_changes hv hn))
  case sameRef => exact fun s fn v h hv => congrArg _ ((asManager_of h (fun s => s.setRef (v % 4))).trans (if_pos (by omega)))

/-! ### Holdover, references and 1PPS -/

/-- 2 s in TRACKING without steering end in HOLDOVER (R47). -/
theorem execTimeHoldoverEnter_due {s : State} (h : s.rd F.TSU_STATUS_HOLD_STATE 0 = 1) (ht : s.tsu.steerAt + 2000000000 ≤ s.now) :
    execTimeHoldoverEnter s = .next
      (((s.tsuStatus F.TSU_STATUS_HOLD_STATE 2).raise Ev.TIME_HOLDOVER_ENTER).journalHoldover true s.tsu.steerStamp) :=
  congrArg _ (if_pos ⟨h, ht⟩)

/-- The manager's low-word read of TSU_TIME_NSF latches the other words of the time (R46). -/
theorem execTsuTimeNsfRead_manager {s : State} {fn : Nat} (h : s.managedBy fn) :
    execTsuTimeNsfRead fn s = .next
      (({ s with latches := ((s.latches.setD (latchKey fn 0x01000004) (some (s.time.nsf / 2 ^ 32)) none).setD
         (latchKey fn 0x01000008) (some (s.time.sec % 2 ^ 32)) none).setD (latchKey fn 0x0100000C) (some (s.time.sec / 2 ^ 32)) none }
       : State).send (.readValue fn 0x01000000 (s.time.nsf % 2 ^ 32))) := by
  obtain ⟨hp, hr, hm⟩ := h
  unfold execTsuTimeNsfRead
  rw [if_neg (by simp [hp, hr]), if_pos hm]

/-- The 1PPS input is missing 1.1 s after its last edge ("Time and oven events"). -/
theorem execPpsInMissing_due {s : State} {t : Nat} (h : s.tsu.ppsAt = some t) (ht : t + 1100000000 ≤ s.now) :
    execPpsInMissing s = .next (({ s with tsu := { s.tsu with ppsAt := none } } : State).raise Ev.PPS_IN_MISSING) := by
  simp only [execPpsInMissing, h, if_pos ht]

/-- The loss of the reference in use leaves the PLL on its own, with a CLOCK record (R56). -/
theorem execTimeRefLost_present {s : State} (h : s.on F.TSU_STATUS_REF_PRESENT 0 = true) :
    execTimeRefLost s = .next
      ((((s.wr F.TSU_STATUS_REF_PRESENT 0 0).wr F.TSU_STATUS_PLL_LOCKED 0 0).raise Ev.TIME_REF_LOST).journalClock 1) := by
  unfold execTimeRefLost
  rw [if_pos h]

/-- The PLL that has lost its reference locks to it again (R56). -/
theorem execTimeRefRestored_unlocked {s : State} (h : s.on F.TSU_STATUS_PLL_LOCKED 0 = false) :
    execTimeRefRestored s = .next (s.pllLock.raise Ev.TIME_REF_RESTORED) := by
  unfold execTimeRefRestored
  rw [if_neg (by simp [h])]

/-- The time PLL loses its lock ("Time and oven events"). -/
theorem execTimePllUnlock_locked {s : State} (h : s.on F.TSU_STATUS_PLL_LOCKED 0 = true) :
    execTimePllUnlock s = .next ((s.tsuStatus F.TSU_STATUS_PLL_LOCKED 0).raise Ev.TIME_PLL_UNLOCK) := by
  unfold execTimePllUnlock
  rw [if_pos h]

/-- Settles O9, row by row. -/
theorem timeReferences : Obligations.TimeReferences := by
  unfold Obligations.TimeReferences
  -- each row's meaning stands for exec's arm
  dsimp only [exec]
  refine ⟨?read, ?holdover, ?noHoldover, ?lost, ?restored, ?unlock, ?captured, ?missing⟩
  case read => exact fun s fn h => execTsuTimeNsfRead_manager h
  case holdover => exact fun s h ht => execTimeHoldoverEnter_due h ht
  case noHoldover => exact fun s h => congrArg _ (if_neg (by omega))
  case lost => exact fun s h => execTimeRefLost_present h
  case unlock => exact fun s h => execTimePllUnlock_locked h
  case restored => exact fun s h => execTimeRefRestored_unlocked h
  case captured => exact fun s phase => by simp only [execPpsInCaptured, put_now]
  case missing => exact fun s t h ht => execPpsInMissing_due h ht

end Sys2Proof.Machine
end

section
/-! How device time counts, and what a steering write leaves. -/

namespace Sys2Proof.Machine

/-! ### Fields that the journal, events and TSU_STATUS leave -/

/-- What every update of a condition leaves, the condition leaves. -/
theorem when_keeps {β : Type} {g : State → β} {f : State → State} (hf : ∀ t, g (f t) = g t) (s : State) (c : Bool) :
    g (s.when c f) = g s := by
  unfold State.when
  split
  · exact hf s
  · rfl

section journal
variable {β : Type} {g : State → β} (hw : ∀ t f i x, g (t.wr f i x) = g t) (hc : ∀ t r n k m, g (t.countBy r n k m) = g t)
  (hr : ∀ t src, g (t.raise src) = g t) (hj : ∀ (t : State) x, g { t with journal := x } = g t) (s : State)
include hw hj

/-- A GAP record's way into the backlog writes the journal, and a register. -/
theorem journalGap_keeps : g s.journalGap = g s := by
  unfold State.journalGap State.backlogSync
  split_ifs
  · rfl
  · rw [hw, hj]
  · rfl

include hc hr

/-- Records' way into the backlog writes the journal, registers and events. -/
theorem journalPush_keeps (rs : List JRec) : g (s.journalPush rs) = g s := by
  rw [← journalGap_keeps hw hj s]
  unfold State.journalPush
  dsimp only
  split
  · rw [when_keeps (fun t => hr t _), State.backlogSync, hw, hj]
  · rw [hr, hc, hj]

end journal

section fields
variable (s : State)

@[simp] theorem journalPush_time (rs : List JRec) : (s.journalPush rs).time = s.time :=
  journalPush_keeps (fun _ _ _ _ => rfl) (fun _ _ _ _ _ => rfl) (fun t _ => raise_time t _) (fun _ _ => rfl) s rs

@[simp] theorem journalPush_tsu (rs : List JRec) : (s.journalPush rs).tsu = s.tsu :=
  journalPush_keeps (fun _ _ _ _ => rfl) (fun _ _ _ _ _ => rfl) (fun t _ => raise_tsu t _) (fun _ _ => rfl) s rs

@[simp] theorem tsuStatus_time (f : Fld) (v : Nat) : (s.tsuStatus f v).time = s.time := by
  unfold State.tsuStatus State.clockDue
  split <;> simp

@[simp] theorem tsuStatus_journal (f : Fld) (v : Nat) : (s.tsuStatus f v).journal = s.journal := by
  unfold State.tsuStatus State.clockDue
  split <;> simp

@[simp] theorem tsuStatus_steerAt (f : Fld) (v : Nat) : (s.tsuStatus f v).tsu.steerAt = s.tsu.steerAt := by
  unfold State.tsuStatus State.clockDue
  split <;> simp

@[simp] theorem tsuStatus_incrDue (f : Fld) (v : Nat) : (s.tsuStatus f v).tsu.incrDue = s.tsu.incrDue := by
  unfold State.tsuStatus State.clockDue
  split <;> simp

theorem secondBoundary_time : s.secondBoundary.time = s.time := by
  simp [State.secondBoundary, State.clockDue, when_keeps (g := State.time)]

theorem stepDone_time (abs : Bool) : (s.stepDone abs).time = s.time := by
  simp [State.stepDone, State.journalSteer, when_keeps (g := State.time)]

end fields

/-! ### The increment -/

/-- The quotient that is rounded lies within a half of the exact one. -/
theorem roundDiv_near (n : Int) : 2 * (roundDiv n 1000000000 * 1000000000 - n).natAbs ≤ 1000000000 := by
  unfold roundDiv
  split <;> omega

/-- Rounding away from zero at a half is symmetric. -/
theorem roundDiv_neg (n : Int) : roundDiv (-n) 1000000000 = -roundDiv n 1000000000 := by
  unfold roundDiv
  split <;> split <;> omega

/-- An OFFSET within its range leaves the increment positive: nothing is cut off at 0. -/
theorem increment_cast {off : Int} (h1 : -32768000000 ≤ off) (h2 : off ≤ 32768000000) :
    (increment off : Int) = 2 ^ 48 + roundDiv (off * 2 ^ 32) 1000000000 := by
  have := roundDiv_near (off * 2 ^ 32)
  unfold increment
  omega

/-! ### The count -/

/-- Device time wraps at 2^48 s. -/
theorem units_ofUnits (u : Nat) : (DevTime.ofUnits u).units = u % (2 ^ 96 * 1000000000) := by
  simp only [DevTime.ofUnits, DevTime.units]
  omega

/-- Device time after a tick of a counter that counts (R39, R41). -/
theorem tick_time {s : State} (h : s.tsu.counting = true) : s.tick.time = if s.stepApplies then s.stepped else s.counted := by
  rw [tick_counting h rfl]
  rw [State.tsuSync, tsuStatus_time, tsuStatus_time, when_keeps (g := State.time) (fun t => send_time t _),
    when_keeps (g := State.time) (fun t => raise_time t _), when_keeps (g := State.time) (fun t => stepDone_time t _),
    when_keeps (g := State.time) secondBoundary_time]
  rfl

/-- Device time without a slew goes on by the increment. -/
theorem counted_unslewed {s : State} (h : s.tsu.slewLeft = 0) : s.counted = DevTime.ofUnits (s.time.units + s.tickIncr) := by
  unfold State.counted State.slewAdd
  rw [if_pos h, add_zero, ← Nat.cast_add, Int.toNat_natCast]

/-- Settles O59, from the rounding of the increment and the time after a tick. -/
theorem timeCounting : Obligations.TimeCounting := by
  refine ⟨?increment, ?counts, ?stands⟩
  case increment =>
    intro off h1 h2
    have hn := increment_cast (off := -off) (by omega) (by omega)
    rw [neg_mul, roundDiv_neg] at hn
    have hp := increment_cast h1 h2
    have near := roundDiv_near (off * 2 ^ 32)
    omega
  case counts =>
    intro s t hc hl hs ht
    obtain rfl : s.tick = t := Host.Outcome.next.inj ht
    rw [tick_time hc, hs, if_neg Bool.false_ne_true, counted_unslewed hl]
    exact ⟨units_ofUnits _, legal_ofUnits _⟩
  case stands =>
    intro s t hc ht
    obtain rfl : s.tick = t := Host.Outcome.next.inj ht
    rw [tick_stopped hc]

/-! ### Steering -/

/-- The backlog gains at most a GAP record (kind 5) when it has room again (spec/09_release_and_evidence.md R249). -/
theorem mem_journalGap_backlog {s : State} {r : JRec} (h : r ∈ s.journalGap.journal.backlog) : r ∈ s.journal.backlog ∨ r.kind = 5 := by
  unfold State.journalGap State.backlogSync at h
  split_ifs at h
  · exact .inl h
  · simp only [wr_journal, List.mem_append, List.mem_singleton] at h
    exact h.imp_right fun e => by rw [e]; rfl
  · exact .inl h

/-- Beside a GAP record, the backlog gains at most the records given. -/
theorem mem_journalPush_backlog {s : State} {rs : List JRec} {r : JRec} (h : r ∈ (s.journalPush rs).journal.backlog) :
    r ∈ s.journal.backlog ∨ r ∈ rs ∨ r.kind = 5 := by
  have h' : r ∈ s.journalGap.journal.backlog ∨ r ∈ rs := by
    unfold State.journalPush at h
    dsimp only at h
    split at h
    · rw [when_keeps (g := State.journal) (fun t => raise_journal t _)] at h
      exact List.mem_append.mp h
    · rw [raise_journal] at h
      exact .inl h
  obtain h | h := h'
  · exact (mem_journalGap_backlog h).imp_right .inr
  · exact .inr (.inl h)

/-- A field of TSU_STATUS holds what was written to it. -/
theorem rd_tsuStatus (s : State) {f : Fld} {v : Nat} (hl : f.lo ≤ f.hi) (hh : f.hi < 64) (hv : v < 2 ^ (f.hi + 1 - f.lo)) :
    (s.tsuStatus f v).rd f 0 = v := by
  unfold State.tsuStatus
  split
  · assumption
  · exact (rd_wr_same s f 0 v hl hh).trans (Nat.mod_eq_of_lt hv)

section steering
variable (s : State)

theorem steering_steerAt : s.steering.tsu.steerAt = s.now := by
  simp [State.steering, State.journalHoldover, when_keeps (g := State.tsu)]

theorem steering_incrDue : s.steering.tsu.incrDue = s.tsu.incrDue := by
  simp [State.steering, State.journalHoldover, when_keeps (g := State.tsu)]

/-- Steering brings TRACKING (R47). -/
theorem steering_tracks : s.steering.rd F.TSU_STATUS_HOLD_STATE 0 = 1 := by
  unfold State.steering
  exact (((LeavesBut.refl journalRegs _).when leaves_holdoverExit _ rfl).rd 0 (by decide)).trans (rd_tsuStatus _ (by decide) (by decide) (by decide))

/-- Steering writes no STEER record (kind 2): at most HOLDOVER (kind 6), and a GAP record (kind 5) on its way. -/
theorem mem_steering_backlog {r : JRec} (h : r ∈ s.steering.journal.backlog) : r ∈ s.journal.backlog ∨ r.kind = 5 ∨ r.kind = 6 := by
  unfold State.steering State.when State.journalHoldover at h
  dsimp only at h
  split at h
  · obtain h | h | h := mem_journalPush_backlog h
    · simp at h
      exact .inl h
    · rw [List.mem_singleton.mp h]
      exact .inr (.inr rfl)
    · exact .inr (.inl h)
  · simp at h
    exact .inl h

end steering

/-- Settles O57: OFFSET keeps its value, so the write is steering alone. -/
theorem repeatedOffset : Obligations.RepeatedOffset := by
  intro s fn w v hm he
  have same : merge w (s.val .TSU_FREQ_OFFSET 0) v % 2 ^ 64 = s.val .TSU_FREQ_OFFSET 0 := by
    rw [he]
    exact Nat.mod_eq_of_lt (BitVec.isLt _)
  refine ⟨s.steering, congrArg _ ((asManager_of hm _).trans (setOffset_keeps (.inr same))), steering_steerAt s, steering_tracks s,
    (leaves_steering s).val 0 (by decide), (leaves_steering s).val 0 (by decide), steering_incrDue s, fun r hr => ?_⟩
  obtain h | h | h := mem_steering_backlog s hr
  · exact .inl h
  · exact .inr (by omega)
  · exact .inr (by omega)

end Sys2Proof.Machine
end

section
/-! The commands for time, the oven, fairness groups and the journal, and those for offloads, redundancy and service. -/

namespace Sys2Proof.Machine

/-! ### What runs do -/

/-- A step that nothing refuses is armed, and the command answered OK (R41, R42). -/
theorem eciStep_arms {s t : State} {p : List Nat} (ha : ¬s.on F.TSU_STEP_CTRL_ARM 0 = true)
    (ht : t = (((s.put .TSU_STEP 0 (w64 p 0)).put .TSU_STEP_AT 0 (w64 p 2)).wr F.TSU_STEP_CTRL_ABS 0 (bits (p.getD 4 0) 0 0)).steering.arm)
    (h2 : t.rd F.TSU_STEP_CTRL_RESULT 0 ≠ 2) (h3 : t.rd F.TSU_STEP_CTRL_RESULT 0 ≠ 3) : s.eciStep p = .done t RC_OK [] := by
  unfold State.eciStep
  rw [if_neg ha]
  dsimp only
  rw [← ht]
  split
  · next e => exact absurd e h2
  · next e => exact absurd e h3
  · rfl

/-- An ESP SA is created while its owner's quota and the device have room (R174). -/
theorem createEsp_free {s : State} {a : EspSa} {i : Nat} (hq : s.espOf a.owner < (s.fn a.owner).grants.esp)
    (hl : s.espSas.length < ESP_COUNT) (hi : firstFree ESP_COUNT s.fresh (fun k => (s.espSas.get k).state != 0) = some i) :
    ∃ t w, s.createEsp a = .done t RC_OK w := by
  unfold State.createEsp
  rw [if_neg (by omega), hi]
  exact ⟨_, _, rfl⟩

/-- A command on a session that is neither fenced nor unready acts on it. -/
theorem onSession_ready {s : State} {p : List Nat} {ready : Session → Bool} (f : Session → Session) (resp : List Nat)
    (h3 : (s.sessions.get (ctxNo p)).state ≠ 3) (hr : ready (s.sessions.get (ctxNo p)) = true) :
    s.onSession p ready f resp = .done (s.setSession (ctxNo p) (f (s.sessions.get (ctxNo p)))) RC_OK resp := by
  unfold State.onSession
  rw [if_neg h3, if_neg (by simp [hr])]

/-! ### Gates -/

/-- A command that takes its payload and begins, without an answer yet. -/
theorem eci_takesHeld {s t : State} {e : Eci} {code : Nat} {masks p : List Nat} {pick denied bad : List Nat → Bool} {run : List Nat → EciOut}
    (h : s.takes e code masks p) (hp : pick p = true) (hd : ¬denied p = true) (hb : ¬bad p = true) (hr : run p = .held t) :
    s.eci e code pick denied masks bad run = .next t := by
  obtain ⟨c, -, hc, rfl⟩ := h
  exact eci_held hc hp (Bool.eq_false_iff.mpr hd) (Bool.eq_false_iff.mpr hb) hr

/-- A command that takes a malformed payload is refused. -/
theorem eci_takesBad {s : State} {e : Eci} {code : Nat} {masks p : List Nat} {pick denied bad : List Nat → Bool} {run : List Nat → EciOut}
    (h : s.takes e code masks p) (hp : pick p = true) (hd : ¬denied p = true) (hb : bad p = true) :
    s.eci e code pick denied masks bad run = .next (s.answers e RC_BAD_ARG []) := by
  obtain ⟨c, -, hc, rfl⟩ := h
  exact eci_bad hc hp (Bool.eq_false_iff.mpr hd) hb

/-- A command of the manager's own that is served, neither malformed nor long, is answered as its run says. -/
theorem eci_managed {s t : State} {e : Eci} {c : EciCmd} {code rc : Nat} {masks p w : List Nat} {pick bad : List Nat → Bool}
    {run : List Nat → EciOut} (h : s.serves e c code masks) (hc : p = c.words) (hm : e.fn = s.manager) (hp : pick p = true)
    (hb : bad p = false) (hr : run p = .done t rc w) :
    s.eci e code pick (s.managerOnly e.fn) masks bad run = .next (t.answers e rc w) := by
  subst hc
  exact eci_of h hp (managerOnly_manager hm _) hb hr

/-! ### REL_GROUP_SET -/

/-- The group entry and its entries are read, and set the group's administrative copy (R229, R230). -/
theorem relGroupSet_sets {s t u v : State} {e : Eci} {p w : List Nat} {b q : Bytes} {rc rc' n : Nat}
    (hb : s.dmaIn e.fn (w64 p 1) 32 e.io.head? = (t, some b, rc)) (h0 : leAt b 0 4 / 2 = 0) (h4 : leAt b 4 4 / 2 ^ 20 = 0)
    (h12 : leAt b 12 20 = 0) (hs : leAt b 8 2 ≤ 1024) (hd : leAt b 10 2 ≤ 256)
    (hq : (if leAt b 8 2 + leAt b 10 2 = 0 then (t, some [], 0)
      else t.dmaIn e.fn (w64 p 1 + 32) (8 * (leAt b 8 2 + leAt b 10 2)) (e.io.drop 1).head?) = (u, some q, rc'))
    (hg : u.setGroup (p.getD 0 0) { en := leAt b 0 4 = 1, delay := leAt b 4 4, src := entries64 q 0 (leAt b 8 2), dst := entries64 q (8 * leAt b 8 2) (leAt b 10 2) } = .done v n w)
    (h : s.orders e 0x0601 [low 6, W32, W32] p) : execRelGroupSet e s = .next (v.answers e n w) := by
  refine eci_orders h rfl Bool.false_ne_true ?_
  simp only [hb]
  rw [if_neg (by omega), if_neg (by omega)]
  simp only [hq]
  exact hg

/-- Settles O38, command by command. -/
theorem timeAndJournalCommands : Obligations.TimeAndJournalCommands := by
  unfold Obligations.TimeAndJournalCommands
  -- each command's meaning stands for exec's arm
  dsimp only [exec]
  refine ⟨?timeGet, ?timeFreq, ?timeStep, ?stepBusy, ?stepCancel, ?timeSlew, ?timeStatus, ?timeIo, ?ovenSet, ?ovenSave, ?ovenStatus, ?relCaps,
    ?groupSet, ?groupQuery, ?stampRing, ?stampClear, ?queueKept, ?queueSet, ?queueRemove, ?identity, ?status, ?restart, ?restartBusy⟩
  case timeGet =>
    rintro s e c _ h rfl
    exact eci_of h rfl rfl rfl rfl
  case timeFreq | timeSlew => exact fun s e c p h hc hm hb => eci_managed h hc hm rfl hb rfl
  case timeStep =>
    intro s e c p t h hc h31 hm ha ht h2 h3
    exact eci_managed h hc hm h31 rfl (eciStep_arms (Bool.eq_false_iff.mp ha) ht h2 h3)
  case stepBusy => exact fun s e c p h hc h31 hm ha => eci_managed h hc hm h31 rfl (if_pos ha)
  case stepCancel | stampClear => exact fun s e c p h hc h31 hm => eci_managed h hc hm h31 rfl rfl
  case timeStatus | ovenStatus | relCaps | status => exact fun s e c p h hc hm => eci_managed h hc hm rfl rfl rfl
  case timeIo =>
    rintro s e c p _ h hc hm hb rfl
    exact eci_managed h hc hm rfl hb rfl
  case ovenSet =>
    intro s e c p h hc hm hb h31
    exact eci_managed h hc hm rfl hb (by simp only [h31, Bool.false_and, Bool.false_eq_true, if_false])
  case ovenSave =>
    rintro s e c _ h rfl hm hb h31 hl
    exact eci_started h rfl (managerOnly_manager hm _) hb (by simp only [h31, hl, Bool.and_false, Bool.false_eq_true, if_false, if_true])
  case groupSet =>
    rintro s e c _ t u v b q rc rc' n w h rfl hm hb h0 h4 h12 hs hd hq hg
    exact relGroupSet_sets hb h0 h4 h12 hs hd hq hg ⟨⟨c, h.1, h, rfl⟩, hm⟩
  case groupQuery =>
    rintro s e c p _ t rc w h hc hm rfl hb
    exact eci_managed h hc hm rfl rfl hb
  case stampRing => exact fun s e c p h hc h31 hm hb => eci_managed h hc hm h31 hb rfl
  case queueKept => exact fun s e c p h hc h31 hm hj => eci_managed h hc hm h31 rfl (if_pos hj)
  case queueSet =>
    intro s e c p h hc h31 hm hj hl
    exact eci_managed h hc hm h31 rfl ((if_neg (Bool.eq_false_iff.mp hj)).trans (if_neg (Nat.not_le.mpr hl)))
  case queueRemove =>
    rintro s e c p _ h hc h31 hm rfl
    exact eci_managed h hc hm h31 rfl rfl
  case identity => exact fun s e c p t rc w h hc hm hb => eci_managed h hc hm rfl rfl hb
  case restart => exact fun s e c p h hc hm he => eci_managed h hc hm rfl rfl (if_neg (not_not.mpr he))
  case restartBusy => exact fun s e c p h hc hm hn => eci_managed h hc hm rfl rfl (if_pos hn)

/-- Settles O6, command by command. -/
theorem managementCommandsComplete : Obligations.ManagementCommandsComplete := by
  rintro s e p _ rfl
  -- each command's meaning stands for exec's arm
  dsimp only [exec]
  refine ⟨?timeGet, ?timeFreq, ?timeStep, ?stepCancel, ?timeSlew, ?timeStatus, ?timeIo, ?ovenSet, ?ovenStatus, ?relCaps, ?groupSet, ?groupQuery,
    ?stampRing, ?stampClear, ?queueSet, ?queueRemove, ?identity, ?jnlStatus, ?restart, ?oflCaps, ?create, ?destroy, ?query, ?modify, ?tlsResync,
    ?rekey, ?nvmeResync, ?placeDrop, ?macsecSa, ?macsecRemove, ?txAn, ?notify, ?quota, ?frerCaps, ?memberSet, ?memberClear, ?ctxSet, ?ctxClear,
    ?ctxQuery, ?ctxReset, ?mirCfg, ?mirStatus, ?takeover, ?resolve, ?mirResync, ?counters, ?evtRoute, ?flashWrite, ?activate, ?logRead, ?retrain,
    ?wear⟩
  case timeGet | oflCaps | notify => exact fun h => ⟨_, _, eci_takes h rfl Bool.false_ne_true Bool.false_ne_true rfl⟩
  case timeFreq => exact fun h hb => eci_orders h rfl (by simp [hb]) rfl
  case timeStep =>
    intro t h h31 ha ht h2 h3
    exact eci_orders h (by simpa using h31) Bool.false_ne_true (eciStep_arms ha ht h2 h3)
  case stepCancel => exact fun h h31 => eci_orders h h31 Bool.false_ne_true rfl
  case timeSlew => exact fun h hb => ⟨_, _, eci_orders h rfl (by simpa using hb) rfl⟩
  case timeStatus | ovenStatus | relCaps | jnlStatus | txAn | frerCaps | mirStatus | logRead =>
    exact fun h => ⟨_, _, eci_orders h rfl Bool.false_ne_true rfl⟩
  case timeIo => exact fun h hb => ⟨_, _, eci_orders h rfl hb rfl⟩
  case ovenSet =>
    intro h hb h31
    exact ⟨_, _, eci_orders h rfl hb (by simp only [Bool.eq_false_iff.mpr h31, Bool.false_and, Bool.false_eq_true, if_false]; rfl)⟩
  case groupSet =>
    intro t v b n w h hb h0 h4 h12 hs hd hg
    refine relGroupSet_sets (u := t) (q := []) (rc' := 0) hb h0 h4 h12 (by omega) (by omega) (if_pos (by omega)) ?_ h
    simpa [hs, hd, entries64] using hg
  case groupQuery =>
    rintro _ t n w h rfl hb
    exact eci_orders h rfl Bool.false_ne_true hb
  case stampRing => exact fun h h31 hb => ⟨_, _, eci_orders h (by simpa using h31) hb rfl⟩
  case stampClear | memberClear => exact fun h h31 => ⟨_, _, eci_orders h h31 Bool.false_ne_true rfl⟩
  case queueSet => exact fun h h31 hj => ⟨_, _, eci_orders h h31 Bool.false_ne_true (if_pos hj)⟩
  case queueRemove =>
    rintro _ h h31 rfl
    exact ⟨_, eci_orders h (by simpa using h31) Bool.false_ne_true rfl⟩
  case identity => exact fun t n w h hb => eci_orders h rfl Bool.false_ne_true hb
  case restart => exact fun h he => ⟨_, _, eci_orders h rfl Bool.false_ne_true (if_neg (not_not.mpr he))⟩
  case create =>
    rintro i _ h hd hb h0 rfl hq hl hi
    obtain ⟨t, w, ht⟩ := createEsp_free hq hl hi
    exact ⟨t, w, eci_takes h rfl hd hb ((if_pos h0).trans ht)⟩
  case destroy => exact fun h hd hb hk hbusy => eci_takesHeld h rfl hd hb (if_pos ⟨hk, hbusy⟩)
  case query => exact fun h hd hb => ⟨_, _, eci_takes h rfl hd hb rfl⟩
  case modify => exact fun h hd hb h3 => eci_takes h rfl hd hb (if_neg h3)
  case tlsResync =>
    rintro _ h hd hb rfl h3 hr
    exact ⟨_, _, eci_takes h rfl hd hb (onSession_ready _ _ h3 (by simpa using hr))⟩
  case rekey =>
    rintro _ h rfl hd hb h3 hr
    exact ⟨_, _, eci_takes h rfl hd hb (onSession_ready _ _ h3 (by simpa using hr))⟩
  case nvmeResync =>
    rintro _ h hd hb rfl h3 hr
    exact ⟨_, _, eci_takes h rfl hd hb (onSession_ready _ _ h3 (by simpa using hr))⟩
  case placeDrop => exact fun h hd hb => ⟨_, _, eci_takes h rfl hd hb rfl⟩
  case macsecSa =>
    rintro i _ h h0 hb rfl hi h3
    exact ⟨_, _, eci_orders h (by simpa using h0) hb (by simp only [hi, if_neg h3]; rfl)⟩
  case macsecRemove => exact fun i h h0 hb hi => ⟨_, _, eci_orders h h0 hb rfl⟩
  case quota => exact fun h hb he hs hp => ⟨_, _, eci_orders h rfl hb (if_neg (by omega))⟩
  case memberSet | ctxSet => exact fun h h31 hb => ⟨_, _, eci_orders h (by simpa using h31) hb rfl⟩
  case ctxClear => exact fun h h31 hu => ⟨_, _, eci_orders h h31 Bool.false_ne_true (if_neg hu)⟩
  case ctxQuery => exact fun h h0 => ⟨_, _, eci_orders h rfl Bool.false_ne_true (if_pos h0)⟩
  case ctxReset => exact fun h hk hf => ⟨_, _, eci_orders h rfl (by simpa using hk) (if_neg hf)⟩
  case mirCfg => exact fun h hb => ⟨_, _, eci_orders h rfl hb rfl⟩
  case takeover =>
    intro t n w h hr hh h0 ht
    exact eci_orders h rfl Bool.false_ne_true ((if_neg (by omega)).trans ((if_neg (by simpa [hr] using hh)).trans ((if_pos h0).trans ht)))
  case resolve => exact fun t n w h hr ht => eci_orders h rfl Bool.false_ne_true ((if_neg (not_not.mpr hr)).trans ht)
  case mirResync =>
    exact fun h hr hn => ⟨_, _, eci_orders h rfl Bool.false_ne_true ((if_neg (not_not.mpr hr)).trans (if_neg (by simp [hn])))⟩
  case counters =>
    intro t n w h hd hb ht
    refine eci_takes h rfl hd hb ?_
    simp only [ht]
    split <;> rfl
  case evtRoute => exact fun h hb => ⟨_, _, eci_orders h rfl hb rfl⟩
  case flashWrite =>
    rintro c h rfl hd hb ht hr hl
    exact ⟨_, eci_started h rfl (Bool.eq_false_iff.mpr hd) (Bool.eq_false_iff.mpr hb) ((if_neg (not_or.mpr ⟨ht, hr⟩)).trans (if_neg hl))⟩
  case activate =>
    intro h hd ht
    split
    · next hv => exact eci_takesHeld h rfl hd (by rw [hv]; decide) (if_neg ht)
    · next hv => exact eci_takesBad h rfl hd (by rw [Bool.eq_false_iff.mpr hv]; rfl)
  case retrain => exact fun c h hc hm hl => eci_ordersLong h hc hm rfl Bool.false_ne_true (if_neg hl)
  case wear => exact fun h hb => eci_orders h rfl hb rfl

end Sys2Proof.Machine
end

section
/-! The oven, function by function: writes of OVN_CTRL and OT_LATCH, samples, and the transitions of "Oven states"
(spec/02_time_base.md). -/

namespace Sys2Proof.Machine

/-! ### Writes of OVN_CTRL -/

/-- The state of a code that is read. -/
theorem ovenIs_of_rd {s : State} {n : Nat} (h : s.rd F.OVN_STATUS_STATE 0 = n) (st : OvenState) : s.ovenIs st = (n == st.code) := by
  rw [State.ovenIs, h]

section ctrl
variable {s u : State} {v : Nat} (hu : u = s.put .OVN_CTRL 0 (bits v 31 29 * 2 ^ 29))
include hu

/-- In OVERTEMP a write of OVN_CTRL sets the register alone. -/
theorem ovenCtrl_overtemp (ho : u.ovenIs .overtemp = true) : s.ovenCtrl v = u := by
  simp only [State.ovenCtrl, ← hu, ho, if_true]

/-- EN = 1 leads from COLD to WARMING. -/
theorem ovenCtrl_warms (hen : bit v 31 = true) (ho : u.ovenIs .overtemp = false) (hc : u.ovenIs .cold = true) :
    s.ovenCtrl v = u.ovenEnter .warming 0 := by
  simp only [State.ovenCtrl, ← hu, hen, ho, hc, Bool.not_true, Bool.false_eq_true, if_false, if_true]

/-- EN = 0 leads to COLD from any state but OVERTEMP. -/
theorem ovenCtrl_cools (hen : bit v 31 = false) (ho : u.ovenIs .overtemp = false) (hc : u.ovenIs .cold = false) :
    s.ovenCtrl v = u.ovenEnter .cold 0 := by
  simp only [State.ovenCtrl, ← hu, hen, ho, hc, Bool.not_false, Bool.false_eq_true, if_false, if_true]

/-- HOLD = 1 leads from LOCKED to HELD. -/
theorem ovenCtrl_holds (hen : bit v 31 = true) (hh : bit v 30 = true) (hl : u.rd F.OVN_STATUS_STATE 0 = 3) :
    s.ovenCtrl v = u.ovenEnter .held 0 := by
  simp only [State.ovenCtrl, ← hu]
  simp [hen, hh, ovenIs_of_rd hl, OvenState.code]

/-- HOLD = 0 leads from HELD to SETTLING. -/
theorem ovenCtrl_resumes (hen : bit v 31 = true) (hh : bit v 30 = false) (hl : u.rd F.OVN_STATUS_STATE 0 = 4) :
    s.ovenCtrl v = u.ovenEnter .settling 0 := by
  simp only [State.ovenCtrl, ← hu]
  simp [hen, hh, ovenIs_of_rd hl, OvenState.code]

end ctrl

section oven
variable {s : State}

/-! ### OT_LATCH -/

/-- While the comparator is tripped the set wins (R61; spec/00_scope.md R10). -/
theorem clearOtLatch_tripped (h : s.on F.OVN_STATUS_OT_NOW 0 = true) : s.clearOtLatch true = s.wr F.OVN_STATUS_OT_NOW 0 1 := by
  simp only [State.clearOtLatch, h, Bool.and_self, if_true, b2n]

/-- Once the comparator has fallen, a clear of OT_LATCH leaves OVERTEMP. -/
theorem clearOtLatch_released {u : State} (hu : u = (s.wr F.OVN_STATUS_OT_NOW 0 0).wr F.OVN_STATUS_OT_LATCH 0 0) (h : u.ovenIs .overtemp = true) :
    s.clearOtLatch false = (u.raise Ev.OVN_OT_CLEARED).ovenEnter (if u.on F.OVN_CTRL_EN 0 then .warming else .cold) 0 := by
  subst hu
  simp only [State.clearOtLatch, Bool.and_false, Bool.false_eq_true, if_false, b2n, h, if_true]

/-! ### Samples -/

/-- A sample in SETTLING runs the loop. -/
theorem execOvnAdcSample_settling {u : State} {code : Nat} (hu : u = s.wr F.OVN_SENSE_CODE 0 (code % 65536)) (h : u.ovenIs .settling = true) :
    execOvnAdcSample code true s = .next ((u.ovenLoop (code % 65536)).ovenRuns (code % 65536)) := by
  subst hu
  simp only [execOvnAdcSample, Bool.not_true, when_false, h, Bool.true_or, if_true]

/-- A sample in WARMING gives full duty. -/
theorem execOvnAdcSample_warming {u : State} {code : Nat} (hu : u = s.wr F.OVN_SENSE_CODE 0 (code % 65536))
    (h : u.rd F.OVN_STATUS_STATE 0 = 1) :
    execOvnAdcSample code true s = .next ((u.wr F.OVN_STATUS_DUTY 0 (u.rd F.OVN_LIMITS_DUTY_MAX 0)).ovenRuns (code % 65536)) := by
  have is := ovenIs_of_rd h
  subst hu
  simp [execOvnAdcSample, is, OvenState.code]

/-! ### The ends of its states -/

/-- The error reaches WARM_BAND in WARMING: the integrator is preset, and a HOLD that was set takes effect (R59). -/
theorem execOvnSettling_due {u : State} (h : s.ovenIs .warming = true) (hb : s.ovenErr.natAbs ≤ s.rd F.OVN_BANDS_WARM_BAND 0)
    (hu : u = ({ s with oven := { s.oven with
      integ := clampTo (((s.rd F.OVN_LIMITS_DUTY_MAX 0 * 256 : Nat) : Int) - s.rd F.OVN_GAIN_KP 0 * s.ovenErr) (s.rd F.OVN_LIMITS_DUTY_MAX 0 * 256) } }
        : State).ovenEnter .settling 0) :
    execOvnSettling s = .next (if u.on F.OVN_CTRL_HOLD 0 then u.ovenEnter .held 0 else u) := by
  subst hu
  exact congrArg _ (if_pos (Bool.and_eq_true_iff.mpr ⟨h, decide_eq_true hb⟩))

/-- SETTLE_S seconds in LOCK_BAND lock the oven. -/
theorem execOvnLocked_due {t : Nat} (ht : s.oven.inBand = some t) (h : s.ovenIs .settling = true)
    (hd : t + s.rd F.OVN_LIMITS_SETTLE_S 0 * 1000000000 ≤ s.now) : execOvnLocked s = .next (s.ovenEnter .locked 0) := by
  simp only [execOvnLocked, ht, h, decide_eq_true hd, Bool.and_self, if_true]

/-- 1 s outside LOCK_BAND unlocks it. -/
theorem execOvnUnlocked_due {t : Nat} (ht : s.oven.outBand = some t) (h : s.ovenIs .locked = true) (hd : t + 1000000000 ≤ s.now) :
    execOvnUnlocked s = .next ((s.raise Ev.OVN_UNLOCKED).ovenEnter .settling 0) := by
  simp only [execOvnUnlocked, ht, h, decide_eq_true hd, Bool.and_self, if_true]

/-- Ten implausible codes in WARMING are a fault of the sensor. -/
theorem execOvnFaultSense_warming (hi : 10 ≤ s.oven.implausible) (h : s.ovenIs .warming = true) :
    execOvnFaultSense s = .next (s.ovenEnter .fault 1) := by
  simp only [execOvnFaultSense, decide_eq_true hi, h, Bool.true_or, Bool.and_self, if_true]

/-- WARM_TIMEOUT_MIN minutes in WARMING are a fault. -/
theorem execOvnFaultWarmup_due (h : s.ovenIs .warming = true)
    (hd : s.oven.since + s.rd F.OVN_LIMITS_WARM_TIMEOUT_MIN 0 * 60000000000 ≤ s.now) : execOvnFaultWarmup s = .next (s.ovenEnter .fault 2) := by
  simp only [execOvnFaultWarmup, decide_eq_true hd, h, Bool.and_self, if_true]

/-- 60 s of full duty in LOCKED are announced once. -/
theorem execOvnDutyLimit_due {t : Nat} (ht : s.oven.dutyMax = some t) (h : s.ovenIs .locked = true) (hd : t + 60000000000 ≤ s.now)
    (hr : s.oven.dutyRaised = false) :
    execOvnDutyLimit s = .next (({ s with oven := { s.oven with dutyRaised := true } } : State).raise Ev.OVN_DUTY_LIMIT) := by
  simp only [execOvnDutyLimit, ht, h, decide_eq_true hd, hr, Bool.not_false, Bool.and_self, if_true]

end oven

/-- Settles O10, write by write and end by end. -/
theorem ovenCommands : Obligations.OvenCommands := by
  unfold Obligations.OvenCommands
  -- each row's meaning stands for exec's arm
  dsimp only [exec]
  refine ⟨?warms, ?cools, ?overtemp, ?holds, ?resumes, ?settlingSample, ?warmingSample, ?settles, ?locks, ?unlocks, ?senseFault, ?warmupFault,
    ?trips, ?cleared, ?dutyLimit, ?efc⟩
  case warms => exact fun s fn v h hen ho hc => congrArg _ ((asManager_of h _).trans (ovenCtrl_warms rfl hen ho hc))
  case cools => exact fun s fn v h hen ho hc => congrArg _ ((asManager_of h _).trans (ovenCtrl_cools rfl hen ho hc))
  case overtemp => exact fun s fn v h ho => congrArg _ ((asManager_of h _).trans (ovenCtrl_overtemp rfl ho))
  case holds => exact fun s fn v h hen hh hl => congrArg _ ((asManager_of h _).trans (ovenCtrl_holds rfl hen hh hl))
  case resumes => exact fun s fn v h hen hh hl => congrArg _ ((asManager_of h _).trans (ovenCtrl_resumes rfl hen hh hl))
  case settlingSample => exact fun s code h => execOvnAdcSample_settling rfl h
  case warmingSample => exact fun s code h => execOvnAdcSample_warming rfl h
  case settles => exact fun s h hb => ⟨_, rfl, execOvnSettling_due h hb rfl⟩
  case locks => exact fun s t ht h hd => execOvnLocked_due ht h hd
  case unlocks => exact fun s t ht h hd => execOvnUnlocked_due ht h hd
  case senseFault => exact fun s hi h => execOvnFaultSense_warming hi h
  case warmupFault => exact fun s h hd => execOvnFaultWarmup_due h hd
  case trips => exact fun s => rfl
  case cleared => exact fun s fn h ho => congrArg _ ((asManager_of h _).trans (clearOtLatch_released rfl ho))
  case dutyLimit => exact fun s t ht h hd hr => execOvnDutyLimit_due ht h hd hr
  case efc => exact fun s fn v h => congrArg _ (asManager_of h _)

/-- Settles O56: the write leaves OT_LATCH and STATE, which share no bit with OT_NOW. -/
theorem overTemperatureLatch : Obligations.OverTemperatureLatch := by
  intro s fn h hnow hlatch ho
  have left (g : Fld) := rd_wr_disjoint s F.OVN_STATUS_OT_NOW g 0 0 1 (by decide) (by decide)
  refine ⟨_, congrArg Host.Outcome.next ((asManager_of h _).trans (clearOtLatch_tripped (bne_iff_ne.mpr (by omega)))), ?latch, ?state⟩
  case latch => exact (left F.OVN_STATUS_OT_LATCH (by decide)).trans hlatch
  case state => exact (ovenIs_of_rd (left F.OVN_STATUS_STATE (by decide)) .overtemp).trans ho

end Sys2Proof.Machine
end

section
/-! The rows of the time base, the oven, the ports, the grinders and the tables complete. -/

namespace Sys2Proof.Machine

/-- The L2 sweeper visits an entry that is due (spec/04_parsing_and_tables.md R101). -/
theorem execL2AgeVisit_due {s : State} {k n : Nat} (hk : k < 4)
    (h : s.visitDue k n (s.l2.any (fun e => e.1 / 524288 == k && e.2.valid && !e.2.static &&
      decide ((s.sweeps.get k).next ≤ e.1 % 524288 ∧ e.1 % 524288 < n))) = true) :
    execL2AgeVisit k n s = .next ((s.l2Visit k n).visited k n) := congrArg _ (if_pos ⟨hk, h⟩)

/-- The flow sweeper visits an entry that is due. -/
theorem execFlowAgeVisit_due {s : State} {k n : Nat} (hk : k < 2)
    (h : s.visitDue (4 + k) n (s.flow.any (fun e => e.1 / 33554432 == k && e.2.valid && !e.2.static &&
      decide ((s.sweeps.get (4 + k)).next ≤ e.1 % 33554432 ∧ e.1 % 33554432 < n))) = true) :
    execFlowAgeVisit k n s = .next ((s.flowVisit k n).visited (4 + k) n) := congrArg _ (if_pos ⟨hk, h⟩)

/-- A sweep whose pass has lasted its time begins the next (spec/04_parsing_and_tables.md R102). -/
theorem nextPass_due {s : State} {k : Nat} {w : Sweep} (hw : w = s.sweeps.get k) (hr : w.running = true)
    (ht : w.start + w.ageS * 1000000000 ≤ s.now) (ageS : Nat) : s.nextPass k ageS = s.newPass k (w.start + w.ageS * 1000000000) ageS := by
  subst hw
  exact if_pos ⟨hr, ht⟩

/-- The one frame at a queue's head leaves at its launch time (spec/08_traffic_manager.md R220). -/
theorem execLaunchTimeStart_due {s : State} {q n h l : Nat} {p : Packet} (x : TxIo) (hq : n = s.queuePort q) (hn : n < 16)
    (hm : s.pkts.filter (fun e => e.2.stage == .txCell n && e.2.queue == q) = [(h, p)]) (hp : p.launch = some l)
    (hlt : (s.node 3 q).ltEn = true) (hleave : s.mayLeave n p = true) (hw : s.onWire n = none) (hl : s.on F.PRT_STATUS_LINK_UP n = true)
    (hf : s.isFenced (unitPort n) 0 = false) (hx : s.txNow.getD (2 * n + 1) none = none) :
    execLaunchTimeStart ⟨q, x⟩ s = .next (s.startTx n h p x) := by
  subst hq
  simp only [execLaunchTimeStart]
  rw [hm]
  simp [hn, hp, hlt, hleave, hw, hl, hf, hx]

/-- Settles O1, row by row. -/
theorem timeAndPortRowsComplete : Obligations.TimeAndPortRowsComplete := by
  intro s
  -- each row's meaning stands for exec's arm
  dsimp only [exec]
  refine ⟨?macRx, ?parse, ?source, ?macTx, ?offset, ?arm, ?cancel, ?applied, ?slew, ?rate, ?slewDone, ?second, ?timeRead, ?holdover, ?board,
    ?ref, ?refLost, ?refRestored, ?pllUnlock, ?ppsIn, ?ppsMissing, ?ovenEn, ?ovenHold, ?settles, ?locks, ?unlocks, ?senseFault,
    ?warmupFault, ?trips, ?otClear, ?dutyLimit, ?efc, ?group, ?linkUp, ?localFault, ?remoteFault, ?linkDown, ?portReset, ?stormClear,
    ?pause, ?pfc, ?holdExpire, ?xoff, ?storm, ?preempt, ?verify, ?fec, ?owner, ?mgmtRx, ?ncsi, ?l2Visit, ?l2Pass, ?l2AgeEn, ?l2Read,
    ?flowVisit, ?launch, ?tick, ?sample, ?remoteEnd, ?localEnd, ?response, ?mgmtUp, ?mgmtDown, ?passthrough, ?flowPass⟩
  case macRx =>
    intro n x hn hl hf hx ha
    rw [execMacRxFrame_up x hn hl (by simpa using hf) hx]
    exact ⟨_, _, congrArg _ (if_neg ha)⟩
  case parse =>
    intro h p hp hst hpar hw hcr he
    simp only [execGrinderParse, hp]
    exact ⟨_, (if_pos ⟨hst, hpar, .inr hcr⟩).trans (congrArg _ (if_neg hw))⟩
  case source =>
    intro p h hp hst hcr h4
    simp only [execL2SourceCheck, hp, if_neg h4]
    exact ⟨_, if_pos ⟨hst, hcr⟩⟩
  case macTx => exact fun n k x hn hw => congrArg _ (macTx_onWire x hn hw)
  case offset =>
    intro f v h hl hv hs
    exact ⟨_, execTsuFreqOffsetWrite_changes h hl (hs ▸ hv)⟩
  case arm =>
    rintro f abs _ h ha rfl
    exact congrArg _ ((asManager_of h _).trans (stepCtrlWrite_arms abs (Bool.eq_false_iff.mpr ha)))
  case cancel => exact fun f abs h ha hb => ⟨_, congrArg _ ((asManager_of h _).trans (stepCtrlWrite_cancels ha hb))⟩
  case applied | second => exact fun h => congrArg _ (if_pos h)
  case slew | rate => exact fun f v h => ⟨_, congrArg _ (asManager_of h _)⟩
  case slewDone => exact fun hc he => congrArg _ (if_pos (Bool.and_eq_true_iff.mpr ⟨hc, he⟩))
  case timeRead => exact fun f h => ⟨_, _, execTsuTimeNsfRead_manager h⟩
  case holdover => exact fun h ht => ⟨_, execTimeHoldoverEnter_due h ht⟩
  case board => exact fun f n v h hn => ⟨_, _, execTsuBoardDlyWrite_port v h hn⟩
  case ref => exact fun f v h hv hn => ⟨_, congrArg _ ((asManager_of h _).trans (setRef_changes hv hn))⟩
  case refLost => exact fun h => ⟨_, execTimeRefLost_present h⟩
  case refRestored => exact fun h => ⟨_, execTimeRefRestored_unlocked (Bool.eq_false_iff.mpr h)⟩
  case pllUnlock => exact fun h => execTimePllUnlock_locked h
  case ppsIn => exact fun x => ⟨_, rfl⟩
  case ppsMissing => exact fun t h ht => ⟨_, execPpsInMissing_due h ht⟩
  case ovenEn =>
    exact fun f v h hen ho hc => ⟨_, congrArg _ ((asManager_of h _).trans (ovenCtrl_warms rfl hen (Bool.eq_false_iff.mpr ho) hc))⟩
  case ovenHold => exact fun f v h hen hh hl => ⟨_, congrArg _ ((asManager_of h _).trans (ovenCtrl_holds rfl hen hh hl))⟩
  case settles => exact fun h hb => ⟨_, execOvnSettling_due h hb rfl⟩
  case locks => exact fun t ht h hd => execOvnLocked_due ht h hd
  case unlocks => exact fun t ht h hd => execOvnUnlocked_due ht h hd
  case senseFault => exact fun hi h => execOvnFaultSense_warming hi h
  case warmupFault => exact fun h hd => execOvnFaultWarmup_due h hd
  case trips | tick => rfl
  case otClear => exact fun f h ho => ⟨_, _, congrArg _ ((asManager_of h _).trans (clearOtLatch_released rfl ho))⟩
  case dutyLimit => exact fun t ht h hd hr => ⟨_, execOvnDutyLimit_due ht h hd (Bool.eq_false_iff.mpr hr)⟩
  case efc => exact fun f v h => congrArg _ (asManager_of h _)
  case group =>
    intro f n h hn hl
    simp only [execPrtGroupApply, if_pos hn, asManager_of h, State.groupApply, hl]
    exact ⟨_, rfl⟩
  case linkUp => exact fun n a b hn he hu hf => ⟨_, congrArg _ (if_pos ⟨hn, he, by simpa using hu, by simpa using hf⟩)⟩
  case localFault | remoteFault => exact fun n hn he hf => ⟨_, congrArg _ (if_pos ⟨hn, he, by simpa using hf⟩)⟩
  case linkDown => exact fun n hu hf ht => congrArg _ (if_pos ⟨hu, hf, ht⟩)
  case portReset =>
    intro f n v h hn h31 h27
    simp only [execPortReset, if_pos hn, asManager_of h, State.prtCtrlWrite, State.when, h31, if_true, if_neg h27]
    exact ⟨_, rfl⟩
  case stormClear =>
    intro f n v h hn h31 h27
    simp only [execStormClear, if_pos hn, asManager_of h, State.prtCtrlWrite, State.when, h27, if_true, if_neg h31]
    exact ⟨_, rfl⟩
  case pause => exact fun n x u hn hl hu ho => ⟨_, congrArg _ (if_pos ⟨hn, hl⟩)⟩
  case pfc => exact fun n enable times hn hl => ⟨_, congrArg _ (if_pos ⟨hn, hl⟩)⟩
  case holdExpire =>
    intro h n c hh hc ht
    simp only [execFcHoldExpire, hh, if_pos (And.intro hc ht)]
  case xoff =>
    intro t n c hx hc hcl ht ho
    simp only [execXoffRefresh, hx]
    exact ⟨_, congrArg _ (if_pos ⟨hc, hcl, ht, ho⟩)⟩
  case storm =>
    intro h n c hh hc h0 hs ht
    simp only [execPrtPauseStorm, hh]
    exact ⟨_, congrArg _ (if_pos ⟨hc, h0, by simpa using hs, ht⟩)⟩
  case preempt => exact fun f n v h hn h31 => congrArg _ ((if_pos hn).trans (asManager_of h _))
  case verify => exact fun n h1 ht h3 => congrArg _ ((if_pos ⟨h1, ht⟩).trans (if_pos h3))
  case fec => exact fun n hn ht => ⟨_, _, congrArg _ ((if_pos hn).trans (if_pos ht))⟩
  case owner => exact fun fn v h ho hv => ⟨_, _, congrArg _ ((asManager_of h (fun s => s.ownerWrite v)).trans ((if_neg ho).trans (if_pos hv)))⟩
  case mgmtRx => exact fun d b he hl hd => ⟨_, congrArg _ ((if_pos ⟨he, hl⟩).trans (if_pos hd))⟩
  case ncsi =>
    intro c n hr hs
    simp only [execNcsiCommand, hs]
    exact if_neg (by obtain hr | hr := hr <;> simp [hr])
  case l2Visit => exact fun k n hk h => ⟨_, execL2AgeVisit_due hk h⟩
  case l2Pass => exact fun k w hw hk hr ht => congrArg _ ((if_pos hk).trans (nextPass_due hw hr ht _))
  case l2AgeEn => exact fun f k v h hk => ⟨_, _, congrArg _ ((if_pos hk).trans (asManager_of h _))⟩
  case l2Read => exact fun f v h => ⟨_, _, congrArg _ ((asManager_of h (fun s => s.l2ReadCmd (putBits v 31 31 1))).trans (if_pos (bit_putBits_same v 1 31)))⟩
  case flowVisit => exact fun k n hk h => ⟨_, execFlowAgeVisit_due hk h⟩
  case launch =>
    exact fun q h l n p x hq hn hm hp hlt hleave hw hl hf hx =>
      execLaunchTimeStart_due x hq hn hm hp hlt hleave hw hl (Bool.eq_false_iff.mpr hf) hx
  case sample => exact fun c h => ⟨_, execOvnAdcSample_settling rfl h⟩
  case remoteEnd | localEnd => exact fun n => rfl
  case response => exact fun n h1 => ⟨_, congrArg _ (if_pos h1)⟩
  case mgmtUp => exact fun v he hl => ⟨_, congrArg _ (if_pos ⟨he, by simpa using hl⟩)⟩
  case mgmtDown => exact fun hl => by rw [execMgmtLinkDown, if_pos hl]
  case passthrough => exact fun d he hn hl hc ht => ⟨_, congrArg _ (if_pos ⟨he, hn, hl, hc, ht⟩)⟩
  case flowPass => exact fun k w hw hk hr ht => congrArg _ ((if_pos hk).trans (nextPass_due hw hr ht _))

end Sys2Proof.Machine
end

section
/-! Lane groups, links, flow control and preemption of the ports (spec/03_ports.md R67 to R78, R83, R86). -/

namespace Sys2Proof.Machine

/-- What comes about takes effect. -/
@[simp] theorem when_true (s : State) (f : State → State) : s.when true f = f s := rfl

/-! ### Lane groups and PRT_CTRL -/

section
variable {s : State} {group port v : Nat}

/-- An illegal lane group reports its first violation and changes no port. -/
theorem groupApply_illegal {l : Nat} (h : s.failLane group = some l) :
    s.groupApply group = (s.wr F.PRT_GROUP_APPLY_RESULT group 2).wr F.PRT_GROUP_APPLY_FAIL_LANE group l := by
  simp only [State.groupApply, h]

/-- A legal lane group reconfigures its eight ports, then powers and gates its lanes. -/
theorem groupApply_legal (h : s.failLane group = none) :
    s.groupApply group = (((s.wr F.PRT_GROUP_APPLY_RESULT group 1).wr F.PRT_GROUP_APPLY_FAIL_LANE group 0).each (List.range 8)
      (fun k t => t.applyPort (8 * group + k))).lanePower group := by
  simp only [State.groupApply, h]

/-- RESET alone in a write of PRT_CTRL takes the port down (R83). -/
theorem prtCtrlWrite_reset (hr : bit v 31 = true) (hc : bit v 27 = false) :
    s.prtCtrlWrite port v =
      ((s.wrLegal F.PRT_CTRL_LOOPBACK port (bits v 30 29)).wr F.PRT_CTRL_TX_DISABLE port (bits v 28 28)).portDown port := by
  simp only [State.prtCtrlWrite, hr, hc, when_false, when_true]

/-- STORM_CLEAR alone in a write of PRT_CTRL ends the storm action (R77). -/
theorem prtCtrlWrite_stormClear (hr : bit v 31 = false) (hc : bit v 27 = true) :
    s.prtCtrlWrite port v =
      ((s.wrLegal F.PRT_CTRL_LOOPBACK port (bits v 30 29)).wr F.PRT_CTRL_TX_DISABLE port (bits v 28 28)).wr F.PRT_STATUS_STORM port 0 := by
  simp only [State.prtCtrlWrite, hr, hc, when_false, when_true]

end

/-- Settles O11, row by row. -/
theorem portLinks : Obligations.PortLinks := by
  unfold Obligations.PortLinks
  -- each row's meaning stands for exec's arm
  dsimp only [exec]
  refine ⟨?illegal, ?legal, ?linkUp, ?localFault, ?localEnd, ?remoteFault, ?remoteEnd, ?linkDown, ?reset, ?stormClear, ?fec⟩
  case illegal => exact fun s fn g l h hg hl => congrArg _ ((if_pos hg).trans ((asManager_of h _).trans (groupApply_illegal hl)))
  case legal => exact fun s fn g h hg hl => congrArg _ ((if_pos hg).trans ((asManager_of h _).trans (groupApply_legal hl)))
  case linkUp => exact fun s n skew wait hn he hu hf => congrArg _ (if_pos ⟨hn, he, by simpa using hu, by simpa using hf⟩)
  case localFault | remoteFault => exact fun s n hn he hf => congrArg _ (if_pos ⟨hn, he, by simpa using hf⟩)
  case localEnd | remoteEnd => exact fun s n => rfl
  case linkDown => exact fun s n hu hf ht => congrArg _ (if_pos ⟨hu, hf, ht⟩)
  case reset => exact fun s fn n v h hn hr hc => congrArg _ ((if_pos hn).trans ((asManager_of h _).trans (prtCtrlWrite_reset hr hc)))
  case stormClear => exact fun s fn n v h hn hr hc => congrArg _ ((if_pos hn).trans ((asManager_of h _).trans (prtCtrlWrite_stormClear hr hc)))
  case fec => exact fun s n hn ht => congrArg _ ((if_pos hn).trans (if_pos ht))

/-! ### PAUSE -/

section
variable {s : State} {port : Nat} (time : Nat)

/-- A PAUSE that the port honours is counted and holds its transmitter (R74). -/
theorem rxPause_honoured (h : s.honours port 1 = true) :
    s.rxPause port time = (s.count .PRT_CTR port C.PRT_RX_PAUSE).setHold port 8 (time % 65536) := by
  simp only [State.rxPause, h, when_true]

/-- A PAUSE that the port does not honour is counted only. -/
theorem rxPause_ignored (h : s.honours port 1 = false) : s.rxPause port time = s.count .PRT_CTR port C.PRT_RX_PAUSE := by
  simp only [State.rxPause, h, when_false]

/-- A PAUSE frame at a port that is up is received; nodes left without a candidate lose their deficits (spec/08_traffic_manager.md R210). -/
theorem execRxPauseFrame_up (hn : port < 16) (hl : s.on F.PRT_STATUS_LINK_UP port = true) :
    execRxPauseFrame port time s = .next (((s.rxControl port).rxPause port time).loseDeficits port) :=
  congrArg _ (if_pos ⟨hn, hl⟩)

end

/-- Settles O12, row by row. -/
theorem portFlowControl : Obligations.PortFlowControl := by
  unfold Obligations.PortFlowControl
  -- each row's meaning stands for exec's arm
  dsimp only [exec]
  refine ⟨?honoured, ?ignored, ?pfc, ?holdExpire, ?xoff, ?storm, ?disable, ?verifyAgain, ?verifyFails, ?response⟩
  case honoured =>
    rintro s n time _ hn hl rfl hh
    rw [execRxPauseFrame_up time hn hl, rxPause_honoured time hh]
  case ignored =>
    rintro s n time _ hn hl rfl hh
    rw [execRxPauseFrame_up time hn hl, rxPause_ignored time hh]
  case pfc => exact fun s n enable times hn hl => congrArg _ (if_pos ⟨hn, hl⟩)
  case holdExpire =>
    intro s h n c hh hc ht
    simp only [execFcHoldExpire, hh]
    exact congrArg _ (if_pos ⟨hc, ht⟩)
  case xoff =>
    intro s t n c hx hc hcl ht ho
    simp only [execXoffRefresh, hx]
    exact congrArg _ (if_pos ⟨hc, hcl, ht, ho⟩)
  case storm =>
    intro s h n c hh hc h0 hs ht
    simp only [execPrtPauseStorm, hh]
    exact congrArg _ (if_pos ⟨hc, h0, by simpa using hs, ht⟩)
  case disable => exact fun s fn n v h hn _ => congrArg _ ((if_pos hn).trans (asManager_of h _))
  case verifyAgain => exact fun s n h1 ht h3 => congrArg _ ((if_pos ⟨h1, ht⟩).trans (if_pos h3))
  case verifyFails => exact fun s n h1 ht h3 => congrArg _ ((if_pos ⟨h1, ht⟩).trans (if_neg h3))
  case response => exact fun s n h1 => congrArg _ (if_pos h1)

end Sys2Proof.Machine
end

section
/-! The counter owner, the management port and NC-SI (spec/03_ports.md R80 to R85). -/

namespace Sys2Proof.Machine

/-! ### The counter owner -/

/-- The first commit passes the counters to firmware and journals every network port's totals. -/
theorem ownerWrite_commits {s : State} {v : Nat} (h : s.on F.GLB_COUNTER_OWNER_OWNER 0 = false) (hv : v % 2 = 1) :
    s.ownerWrite v = (s.wr F.GLB_COUNTER_OWNER_OWNER 0 1).each (List.range 16) (fun n t => t.journalCfg 0x08 13 (leBytes 8 n ++ t.totals n)) :=
  (if_neg (Bool.eq_false_iff.mp h)).trans (if_pos hv)

/-- A write after the commit is logged and changes nothing else (spec/00_scope.md R12). -/
theorem ownerWrite_committed {s : State} (v : Nat) (h : s.on F.GLB_COUNTER_OWNER_OWNER 0 = true) : s.ownerWrite v = s.logFwWrite 0x230 v :=
  if_pos h

/-! ### Frames at the management port -/

/-- Where a good frame of the management port goes: the end of `State.mgmtRx` (`mgmtRx_good`). -/
def State.mgmtDeliver (s : State) (data : Bytes) : State :=
  if beAt data 12 2 = 0x8808 then s.macControl 16 data
  else if s.on F.PRT_MGMT_CFG_NCSI_EN 0 && s.ncsi.takes data then s.send (.ncsi data)
  else match s.mgmtRing 2 with
    | some k => s.addPkt
        { stage := .rxDma k, data := data, fromWire := false, dstRing := k, func := s.manager, stamp := s.stamp * 2 ^ 13 }
    | none => s.count .PRT_CTR 16 C.PRT_RX_DROP

section
variable {s u v : State} {data : Bytes} {good : Bool}

/-- An enabled management port whose link is up receives. -/
theorem execMgmtFrameRx_up (he : s.on F.PRT_MGMT_CFG_EN 0 = true) (hl : s.on F.PRT_MGMT_CFG_LINK_UP 0 = true) :
    execMgmtFrameRx data good s = .next (s.mgmtRx data good) := congrArg _ (if_pos ⟨he, hl⟩)

/-- A frame shorter than 64 bytes is counted and goes nowhere. -/
theorem mgmtRx_short (h : data.length + 4 < 64) :
    s.mgmtRx data good = (s.countRxAll 16 (data.length + 4)).count .PRT_CTR 16 (if good then C.PRT_RX_UNDERSIZE else C.PRT_RX_FRAGMENT) :=
  if_pos h

section
variable (hu : u = s.countRxAll 16 (data.length + 4)) (h60 : 60 ≤ data.length)
include hu h60

/-- A frame longer than MAX_FRAME is counted and goes nowhere. -/
theorem mgmtRx_long (h : u.rd F.PRT_MAC_CFG_MAX_FRAME 16 < data.length + 4) :
    s.mgmtRx data good = u.count .PRT_CTR 16 (if good then C.PRT_RX_OVERSIZE else C.PRT_RX_JABBER) := by
  subst hu
  exact (if_neg (by omega)).trans (if_pos h)

variable (hmax : data.length + 4 ≤ u.rd F.PRT_MAC_CFG_MAX_FRAME 16)
include hmax

/-- A frame with a bad FCS is counted and goes nowhere. -/
theorem mgmtRx_badFcs : s.mgmtRx data false = u.count .PRT_CTR 16 C.PRT_RX_FCS_ERR := by
  subst hu
  exact (if_neg (by omega)).trans ((if_neg (by omega)).trans (if_pos rfl))

/-- A good frame is counted as one and delivered. -/
theorem mgmtRx_good (hv : v = u.countRxGood 16 data) : s.mgmtRx data true = v.mgmtDeliver data := by
  subst hu hv
  exact (if_neg (by omega)).trans ((if_neg (by omega)).trans (if_neg (by decide)))

end

/-- The MAC consumes a MAC control frame. -/
theorem mgmtDeliver_control (h : beAt data 12 2 = 0x8808) : s.mgmtDeliver data = s.macControl 16 data := if_pos h

section
variable (hc : beAt data 12 2 ≠ 0x8808)
include hc

/-- NC-SI takes what its channel's filters name (R85). -/
theorem mgmtDeliver_ncsi (h : (s.on F.PRT_MGMT_CFG_NCSI_EN 0 && s.ncsi.takes data) = true) : s.mgmtDeliver data = s.send (.ncsi data) :=
  (if_neg hc).trans (if_pos h)

variable (hn : (s.on F.PRT_MGMT_CFG_NCSI_EN 0 && s.ncsi.takes data) = false)
include hn

/-- A frame that NC-SI leaves goes to the manager's management receive ring (R84). -/
theorem mgmtDeliver_ring {k : Nat} (h : s.mgmtRing 2 = some k) :
    s.mgmtDeliver data = s.addPkt
      { stage := .rxDma k, data := data, fromWire := false, dstRing := k, func := s.manager, stamp := s.stamp * 2 ^ 13 } := by
  simp only [State.mgmtDeliver, if_neg hc, hn, Bool.false_eq_true, if_false, h]

/-- Without a ring the frame counts in RX_DROP (log 200). -/
theorem mgmtDeliver_dropped (h : s.mgmtRing 2 = none) : s.mgmtDeliver data = s.count .PRT_CTR 16 C.PRT_RX_DROP := by
  simp only [State.mgmtDeliver, if_neg hc, hn, Bool.false_eq_true, if_false, h]

end

end

/-! ### NC-SI commands and the management link -/

section
variable {s : State} {cmd : NcSiCmd}

/-- In its Initial State the channel refuses all but the first commands (log 15). -/
theorem execNcsiCommand_refused (hr : s.ncsi.ready = false) (hf : ncsiFirst cmd = false) :
    execNcsiCommand cmd s = .next (s.send (.ncsiResponse 1 [1])) := if_pos (by simp [hr, hf])

/-- A command that sets the channel is answered without data. -/
theorem execNcsiCommand_sets {n : NcSi} (hr : s.ncsi.ready = true ∨ ncsiFirst cmd = true) (hs : s.ncsi.set cmd = some n) :
    execNcsiCommand cmd s = .next (({ s with ncsi := n } : State).send (.ncsiResponse 0 [])) := by
  simp only [execNcsiCommand, hs]
  exact if_neg (by obtain hr | hr := hr <;> simp [hr])

/-- A command that reports is answered with its data. -/
theorem execNcsiCommand_reports (hr : s.ncsi.ready = true) (hs : s.ncsi.set cmd = none) :
    execNcsiCommand cmd s = .next ((s.ncsiReport cmd).1.send (.ncsiResponse 0 (s.ncsiReport cmd).2)) := by
  simp only [execNcsiCommand, hs]
  exact if_neg (by simp [hr])

/-- Once firmware owns the counters, a report of a port's totals leaves the state. -/
theorem ncsiReport_portTotals_owned {n : Nat} (h : s.on F.GLB_COUNTER_OWNER_OWNER 0 = true) :
    s.ncsiReport (.portTotals n) =
      (s, s.rd F.GLB_COUNTER_OWNER_OWNER 0 :: (List.range 56).map (fun k => s.val .PRT_TOTAL (64 * n + k))) := by
  simp only [State.ncsiReport, if_pos h]

/-- An enabled channel announces a change of the management link that the board management controller asked for. -/
theorem mgmtLink_announced {up : Nat} (hn : s.on F.PRT_MGMT_CFG_NCSI_EN 0 = true) (he : s.ncsi.enabled = true) (ha : bit s.ncsi.aen 0 = true) :
    s.mgmtLink up = (s.wr F.PRT_MGMT_CFG_LINK_UP 0 up).send (.ncsiAen 0 [up]) := by
  simp only [State.mgmtLink, hn, he, ha, Bool.and_self, when_true]

end

/-- Settles O13, write by write, frame by frame and command by command. -/
theorem managementPort : Obligations.ManagementPort := by
  unfold Obligations.ManagementPort
  -- each row's meaning stands for exec's arm
  dsimp only [exec]
  refine ⟨?commits, ?committed, ?short, ?long, ?badFcs, ?good, ?passthrough, ?refused, ?sets, ?clearInitial, ?select, ?deselect, ?enable,
    ?disable, ?reset, ?enableTx, ?disableTx, ?addFilter, ?removeFilter, ?clearFilters, ?linkStatus, ?portLinks, ?portTotals, ?announced,
    ?linkUp, ?linkDown⟩
  case commits =>
    intro s fn v h ho hv
    rw [execCounterOwnerCommit, asManager_of h, ownerWrite_commits ho hv]
  case committed => exact fun s fn v h ho => congrArg _ ((asManager_of h (fun s => s.ownerWrite v)).trans (ownerWrite_committed v ho))
  case short => exact fun s data good he hl h => (execMgmtFrameRx_up he hl).trans (congrArg _ (mgmtRx_short h))
  case long => exact fun s data good u he hl hu h60 h => (execMgmtFrameRx_up he hl).trans (congrArg _ (mgmtRx_long hu h60 h))
  case badFcs =>
    rintro s data _ u he hl hu h60 hmax rfl
    exact (execMgmtFrameRx_up he hl).trans (congrArg _ (mgmtRx_badFcs hu h60 hmax))
  case good =>
    intro s data u v he hl hu h60 hmax hv
    rw [execMgmtFrameRx_up he hl, mgmtRx_good hu h60 hmax hv]
    refine ⟨fun h => ?control, fun hc hn ht => ?ncsi, fun hc hn => ⟨fun k hk => ?ring, fun hk => ?dropped⟩⟩
    case control => exact congrArg _ (mgmtDeliver_control h)
    case ncsi => exact congrArg _ (mgmtDeliver_ncsi hc (Bool.and_eq_true_iff.mpr ⟨hn, ht⟩))
    case ring => exact congrArg _ (mgmtDeliver_ring hc hn hk)
    case dropped => exact congrArg _ (mgmtDeliver_dropped hc hn hk)
  case passthrough => exact fun s data he hn hl hc ht => congrArg _ (if_pos ⟨he, hn, hl, hc, ht⟩)
  case refused => exact fun s cmd hr hf => execNcsiCommand_refused hr hf
  case sets => exact fun s cmd n hr hs => execNcsiCommand_sets hr hs
  case clearInitial | select | deselect => exact fun s => execNcsiCommand_sets (.inr rfl) rfl
  case enable | disable | reset | enableTx | disableTx | clearFilters => exact fun s hr => execNcsiCommand_sets (.inl hr) rfl
  case addFilter | removeFilter => exact fun s mac hr => execNcsiCommand_sets (.inl hr) rfl
  case linkStatus | portLinks => exact fun s hr => execNcsiCommand_reports hr rfl
  case portTotals =>
    intro s n hr ho
    rw [execNcsiCommand_reports hr rfl, ncsiReport_portTotals_owned ho]
  case announced => exact fun s up hn he ha => mgmtLink_announced hn he ha
  case linkUp => exact fun s speed he hl => congrArg _ (if_pos ⟨he, by simpa using hl⟩)
  case linkDown => exact fun s hl => congrArg _ (if_pos hl)

end Sys2Proof.Machine
end

section
/-! Parsing, the source check, ageing and table reads (spec/04_parsing_and_tables.md R88 to R102, R108). -/

namespace Sys2Proof.Machine

/-! ### Frames -/

section
variable {s : State} {h : Nat} {p : Packet}

/-- A received frame that has a parse engine is parsed, and goes on: from the wire to the lookup front end, from a host to dispatch when
its queue has credit; an error never discards it (R90, R93). -/
theorem execGrinderParse_parses {u : State} {r : Parse} (hp : s.pkt h = some p) (hst : p.stage = .received) (hpar : s.hasParse h p = true)
    (hgo : p.fromWire = true ∨ s.dispatchCredit p.pipe = true) (hu : u = s.parseTaken p.pipe)
    (hr : u.parse (grdCopy p.epoch p.pipe) p.data p.fromWire = r) :
    execGrinderParse h s = .next (
      let t := ((u.count .GRD_CTR p.pipe C.GRD_PARSED).when (r.err != 0)
        (fun t => (t.count .GRD_CTR p.pipe (grdCounter r.err)).raiseLimited Ev.GRD_PARSE_LIMIT p.pipe 1000000)).setPkt h
          { p with fields := p.metadata h r }
      if p.fromWire then t.moveTo h .parsed else t.toDispatch h) := by
  subst hu hr
  simp only [execGrinderParse, hp]
  exact if_pos ⟨hst, hpar, hgo⟩

/-- The source check of a parsed frame is recorded in its metadata (R96), or its frame is discarded as excess (R98). -/
theorem execL2SourceCheck_checks (hp : s.pkt h = some p) (hst : p.stage = .parsed) (hc : s.dispatchCredit p.pipe = true) :
    execL2SourceCheck h s = (
      let r := s.l2Source p.pipe p.port (srcMac p.data) (outerVid p.data) false
      if r.2.1 = 4 then .next (r.1.dropPkt h 6)
      else .next ((r.1.setPkt h { p with fields := p.fields.set 14 (2 ^ 61 * r.2.1 + r.2.2) }).toDispatch h)) := by
  simp only [execL2SourceCheck, hp]
  exact if_pos ⟨hst, hc⟩

end

/-! ### TBL_L2_RD_CMD -/

/-- A read command with GO set shows the entry that it names (spec/04_parsing_and_tables.md, "TBL_L2_RD_CMD"). -/
theorem l2ReadCmd_shows {s : State} {v : Nat} (hv : bit v 31 = true) :
    s.l2ReadCmd v = ((s.wr F.TBL_L2_RD_CMD_PIPE 0 (bits v 29 28)).wr F.TBL_L2_RD_CMD_INDEX 0 (bits v 18 0)).each (List.range 4)
      (fun k t => t.put .TBL_L2_RD_DATA k (leAt (s.l2.get (l2Key (bits v 29 28) (bits v 18 0))).encode (4 * k) 4)) := by
  simp only [State.l2ReadCmd, if_pos hv, wr_l2]

/-- Settles O14, row by row. -/
theorem parsingAndTables : Obligations.ParsingAndTables := by
  unfold Obligations.ParsingAndTables
  -- each row's meaning stands for exec's arm
  dsimp only [exec]
  refine ⟨?wire, ?host, ?checked, ?excess, ?l2Visit, ?l2Pass, ?flowPass, ?flowVisit, ?ageEn, ?read⟩
  case wire =>
    intro s h p u r hp hst hpar hu hr hw
    rw [execGrinderParse_parses hp hst hpar (.inl hw) hu hr, if_pos hw]
  case host =>
    intro s h p u r hp hst hpar hw hc hu hr he
    rw [execGrinderParse_parses hp hst hpar (.inr hc) hu (hw ▸ hr), if_neg (Bool.eq_false_iff.mp hw), he]
    rfl
  case checked => exact fun s p h hp hst hc h4 => (execL2SourceCheck_checks hp hst hc).trans (if_neg h4)
  case excess => exact fun s p h hp hst hc h4 => (execL2SourceCheck_checks hp hst hc).trans (if_pos h4)
  case l2Visit => exact fun s pipe entry hk hd => execL2AgeVisit_due hk hd
  case l2Pass => exact fun s pipe hk hr ht => congrArg _ ((if_pos hk).trans (nextPass_due rfl hr ht _))
  case flowPass => exact fun s half hk hr ht => congrArg _ ((if_pos hk).trans (nextPass_due rfl hr ht _))
  case flowVisit => exact fun s half loc hk hd => execFlowAgeVisit_due hk hd
  case ageEn => exact fun s fn pipe v hm hk => congrArg _ ((if_pos hk).trans (asManager_of hm _))
  case read => exact fun s fn v hm hv => congrArg _ ((asManager_of hm _).trans (l2ReadCmd_shows hv))

end Sys2Proof.Machine
end

section
/-! The commands for tables and routes (spec/04_parsing_and_tables.md R97, R104, R105, R110, R111). -/

namespace Sys2Proof.Machine

/-- Settles O36, command by command. -/
theorem tableCommands : Obligations.TableCommands := by
  unfold Obligations.TableCommands
  -- each command's meaning stands for exec's arm
  dsimp only [exec]
  refine ⟨?write, ?overCap, ?delete, ?read, ?flush, ?insert, ?flowDelete, ?flowAbsent, ?lookup, ?batch, ?route⟩
  case write =>
    rintro s e c _ h rfl h8 hd hb hover hslot
    exact eci_of h h8 hd hb ((if_neg (Bool.eq_false_iff.mp hover)).trans (if_neg (Bool.eq_false_iff.mp hslot)))
  case overCap =>
    rintro s e c _ h rfl h8 hd hb hover
    exact eci_of h h8 hd hb (if_pos hover)
  case delete =>
    rintro s e c _ h rfl h8 hd hb
    refine eci_of h h8 hd hb (congrArg (EciOut.done · RC_OK _) (congrArg _ (funext₂ fun k t => ?_)))
    cases s.l2Place k (l2Payload c.words 1) <;> rfl
  case read =>
    rintro s e c _ h rfl hd
    exact eci_of h rfl hd rfl rfl
  case flush =>
    rintro s e c p _ h hc hm rfl
    exact eci_managed h hc hm rfl rfl rfl
  case insert =>
    rintro s e c _ _ h rfl hd hb hroom rfl hr
    exact eci_of h rfl hd hb ((if_neg fun ⟨hn, hle⟩ => hroom.elim (by simp [hn]) (Nat.not_lt.mpr hle)).trans (by dsimp only; rw [hr]; rfl))
  case flowDelete =>
    rintro s e c _ l h rfl hd hb hl
    exact eci_of h rfl hd hb (by rw [hl])
  case flowAbsent =>
    rintro s e c _ h rfl hd hb hl
    exact eci_of h rfl hd hb (by rw [hl])
  case lookup =>
    rintro s e c _ l h rfl hd hb hl
    exact eci_of h rfl hd hb (by dsimp only; rw [hl])
  case batch =>
    rintro s e c p t u b rc _ h hc hm hn hio rfl hb hu
    exact eci_managed h hc hm rfl hn (by simp only [hio, hu, if_neg (Bool.eq_false_iff.mp hb)])
  case route => exact fun s e c p h hc hm => eci_managed h hc hm rfl rfl rfl

end Sys2Proof.Machine
end

section
/-! Channel posts, inboxes and timers (spec/05_brew_engines.md R129 to R133). -/

namespace Sys2Proof.Machine

section
variable {s : State} {t : Nat}

/-- A thread that may issue posts the message it has staged, once its endpoint has a credit (R129, R130). -/
theorem execChannelPost_posts (hi : s.canIssue t = true) (hs : s.stale (s.thread t) = false) (hb : (s.thread t).postBad t = false)
    (hc : s.chanCredit t (bits (s.thread t).stageHdr 63 48) = true) :
    execChannelPost t s = .next ((s.made t).postMsg t ((s.thread t).before_ 0 [])) := by
  simp only [execChannelPost, hi, hs, hb, hc, Bool.not_true, Bool.false_eq_true, if_false, State.made]

/-- A message for an endpoint that may not be named faults its thread (R130). -/
theorem execChannelPost_bad (hi : s.canIssue t = true) (hs : s.stale (s.thread t) = false) (hb : (s.thread t).postBad t = true) :
    execChannelPost t s = .next (s.fault t 0x07 0 0) := by
  simp only [execChannelPost, hi, hs, hb, Bool.not_true, Bool.false_eq_true, if_false, if_true]

/-- A message in flight enters its thread's inbox while there is room (R132). -/
theorem execInboxMessageArrive_enters {m : ChanMsg}
    (h : s.chan.find? (fun m => decide (m.dest ≤ 0x3FF) && s.receiver m == t && (m.type == 3 || decide ((s.thread t).load < 4))) = some m) :
    execInboxMessageArrive t s = .next ((s.accepted m).modThread t (fun th => { th with inbox := th.inbox ++ [m] })) := by
  simp only [execInboxMessageArrive, h]

/-- The fence endpoint answers a FENCE (R131). -/
theorem execFenceMessage_answers {m : ChanMsg} {c : Nat} (h : s.chan.find? (fun m => m.dest == 0xC00 && clusterOf m.src == c) = some m) :
    execFenceMessage c s = .next ((s.accepted m).reply m [0]) := by
  simp only [execFenceMessage, h]

/-- Device time that has reached a thread's TIMER sets its event, once (R133). -/
theorem execThreadTimerFire_due (ht : t < 2048) (h0 : (s.thread t).ops.get 93 ≠ 0) (hd : (s.thread t).timerDone = false)
    (hr : (s.stamp + W64 - (s.thread t).ops.get 93) % W64 < 2 ^ 63) :
    execThreadTimerFire t s = .next ((s.modThread t (fun x => { x with timerDone := true })).latch t 2) :=
  congrArg _ (if_pos ⟨ht, h0, by simp [hd], hr⟩)

end

/-- Settles O21, row by row. -/
theorem channels : Obligations.Channels := by
  unfold Obligations.Channels
  -- each row's meaning stands for exec's arm
  dsimp only [exec]
  refine ⟨?posts, ?bad, ?enters, ?pops, ?signals, ?clears, ?fence, ?timer⟩
  case posts => exact fun s t hi hs hb hc => execChannelPost_posts hi hs hb hc
  case bad => exact fun s t hi hs hb => execChannelPost_bad hi hs hb
  case enters => exact fun s m t h => execInboxMessageArrive_enters h
  case pops => exact fun s t hi => congrArg _ (if_pos hi)
  case signals | clears => exact fun s t v hi => congrArg _ (if_pos hi)
  case fence => exact fun s m c h => execFenceMessage_answers h
  case timer => exact fun s t ht h0 hd hr => execThreadTimerFire_due ht h0 hd hr

end Sys2Proof.Machine
end

section
/-! The ALU, memory and table parts of a word, and its SEQ operation (spec/06_microcode.md R152 to R161). -/

namespace Sys2Proof.Machine

/-! ### Memory -/

/-- What an access within its region leaves in the memories: the end of `State.memAct` before its result is on the way
(`memAct_inRange`). -/
def State.memWritten (s : State) (t op : Nat) (f : MemArgs) : State :=
  let a := s.memAddr t f
  let reg (k : Nat) : Nat := s.operand t f.imm 5 (f.reg + k)
  let old := fromLE (s.memBytes t f.space a 8)
  match op with
  | 2 => s.memStore t f.space a (((List.range (memWords f.size)).flatMap (fun k => leBytes 8 (reg k))).take f.size)
  | 3 | 6 => s.memStore t f.space a (leBytes 8 ((old + reg 0) % W64))
  | 4 => s.memStore t f.space a (leBytes 8 (reg 0))
  | 5 => if old = reg 0 then s.memStore t f.space a (leBytes 8 (reg 1)) else s
  | _ => s

section
variable {s : State} {t op : Nat} {f : MemArgs}

/-- The operations of the MEM part. -/
theorem memOk_op (h : memOk op f = true) : 1 ≤ op ∧ op ≤ 6 := by
  simp only [memOk, Bool.and_eq_true, decide_eq_true_eq] at h
  obtain ⟨⟨⟨⟨hop, -⟩, -⟩, -⟩, -⟩ := h
  exact hop

/-- A load takes one operand or more. -/
theorem memWords_pos_of_memOk (h : memOk 1 f = true) : 0 < memWords f.size := by
  have hn : 0 < f.size := by
    refine Nat.pos_of_ne_zero fun h0 => ?_
    simp [memOk, h0] at h
  unfold memWords cdiv
  omega

/-- The destinations of each operation of the MEM part. -/
theorem memDests_eq (h : memOk op f = true) :
    memDests op f = if op = 1 then block f.reg (memWords f.size) else if op = 2 ∨ op = 6 then [] else [f.reg] := by
  have h0 : op ≠ 0 := by have := memOk_op h; omega
  simp [memDests, h, h0]

/-- An access within its region changes the memories as its operation says, and its result, if it has one, is on its way (R156, R157). -/
theorem memAct_inRange (hok : memOk op f = true) (hr : s.memInRange t f = true) :
    s.memAct t op f false = if (memDests op f).isEmpty then s.memWritten t op f
      else (s.memWritten t op f).awaits t (memDests op f)
        (if op = 1 then s.memLoad t f else [fromLE (s.memBytes t f.space (s.memAddr t f) 8)]) (s.memBad t f) := by
  have h0 : op ≠ 0 := by have := memOk_op hok; omega
  simp only [State.memAct, decide_eq_false h0, hok, hr, Bool.not_true, Bool.or_self, Bool.false_eq_true,
    if_false, if_true, when_false, Bool.false_or, Bool.false_and, Bool.or_false, Bool.true_and]
  rfl

end

section
variable {s : State} {t op : Nat} {f : MemArgs}

/-- The MEM part of a word, within its region. -/
theorem memCmd_inRange (h : s.memRuns t op f) (strict : Bool) :
    s.memCmd t op f strict =
      let u := s.made t
      let d := if op = 1 then block f.reg (memWords f.size) else if op = 2 ∨ op = 6 then [] else [f.reg]
      if d.isEmpty then u.memWritten t op f
      else (u.memWritten t op f).awaits t d (if op = 1 then u.memLoad t f else [fromLE (u.memBytes t f.space (u.memAddr t f) 8)])
        (u.memBad t f) := by
  have ⟨_, _, hok, _, hr⟩ := h
  rw [memCmd_runs h, memAct_inRange hok (memInRange_made hr), memDests_eq hok]

/-- A load's value is on its way to its operands. -/
theorem memCmd_load (h : s.memRuns t 1 f) (strict : Bool) :
    s.memCmd t 1 f strict =
      (s.made t).awaits t (block f.reg (memWords f.size)) ((s.made t).memLoad t f) ((s.made t).memBad t f) := by
  have ⟨_, _, hok, _, _⟩ := h
  have hd : ¬(block f.reg (memWords f.size)).isEmpty = true := by
    have := memWords_pos_of_memOk hok
    simp [block]; omega
  exact (memCmd_inRange h strict).trans (if_neg hd)

/-- A store, or an addition without a result, changes memory alone. -/
theorem memCmd_stores (h : s.memRuns t op f) (hop : op = 2 ∨ op = 6) (strict : Bool) :
    s.memCmd t op f strict = (s.made t).memWritten t op f := by
  have h1 : op ≠ 1 := by omega
  rw [memCmd_inRange h]
  simp only [if_neg h1, if_pos hop, List.isEmpty_nil, if_true]

/-- An atomic changes memory, and the value it found is on its way. -/
theorem memCmd_atomic (h : s.memRuns t op f) (hop : 3 ≤ op ∧ op ≤ 5) (strict : Bool) :
    s.memCmd t op f strict = ((s.made t).memWritten t op f).awaits t [f.reg]
      [fromLE ((s.made t).memBytes t f.space ((s.made t).memAddr t f) 8)] ((s.made t).memBad t f) := by
  have h1 : op ≠ 1 := by omega
  have h26 : ¬(op = 2 ∨ op = 6) := by omega
  rw [memCmd_inRange h]
  simp only [if_neg h1, if_neg h26, List.isEmpty_cons, Bool.false_eq_true, if_false]

/-- A sound result of the MEM part reaches its operands (R157). -/
theorem execMemResultArrive_delivers {p : Pending} (h : (s.thread t).pend.find? (fun p => !p.table) = some p) (hb : p.bad = false) :
    execMemResultArrive t false s = .next ((s.modThread t (fun th => th.deliver p p.values)).wake) := by
  simp only [execMemResultArrive, h, hb, Bool.or_self, Bool.false_eq_true, if_false]

end

/-! ### Tables -/

section
variable {s : State} {t op : Nat} {f : TblArgs}

/-- A served TBL part does its operation, and its result is on its way (R158). -/
theorem tblCmd_awaits (h : s.tblRuns t op f) (h0 : op ≠ 0) (strict : Bool) {u : State} {key : List Nat} {r : State × List Nat}
    (hu : u = s.made t) (hk : key = (tblReads op f).map (fun o => (u.thread t).ops.get o)) (hr : r = u.tblDo t op f key) :
    s.tblCmd t op f strict = r.1.awaitsTable t op f key r.2 u.now := by
  subst hu hk hr
  rw [tblCmd_runs h]
  obtain ⟨-, -, hok, h4, -⟩ := h
  exact (if_neg (by simp [h0, hok])).trans (if_neg (Nat.not_le.mpr h4))

/-- A table result reaches its operands. -/
theorem execTblResultArrive_delivers {p : Pending} (h : (s.thread t).pend.find? (fun p => p.table) = some p) :
    execTblResultArrive t false s = .next (((s.retire (.lookup (clusterOf t))).modThread t (fun th => th.deliver p p.values)).wake) := by
  simp only [execTblResultArrive, h, Bool.false_eq_true, if_false]

end

/-! ### Words -/

section
variable {s u : State} {t op w pc : Nat} {x : WordIo}

/-- A word that issues completes, unless its SEQ operation faults or waits. -/
theorem seqRow_completes (h : s.wordIssues t op w pc) (hop : op < 10) (hc : x.csBad = false) (hr : x.regBad = false)
    (hu : u = s.atWord t w pc x) (h4 : op = 4 → (s.thread t).stack.length < 8) (h5 : op = 5 → (s.thread t).stack ≠ [])
    (h7 : op = 7 → (s.thread t).eventBits &&& wTarget w ≠ 0 ∧ u.supMoves t = false)
    (h8 : op = 8 → u.doneWaits t = false ∧ u.stale (u.thread t) = false) :
    s.seqRow t op x = u.completeWord t w pc := by
  rw [seqRow_issues h hop hc hr, ← hu]
  exact issueWord_completes h hu h4 h5 h7 h8

/-- A word whose SEQ operation neither calls, returns, waits nor ends its packet always completes. -/
theorem seqRow_completes_always (h : s.wordIssues t op w pc) (hop : op < 4 ∨ op = 6 ∨ op = 9) (hc : x.csBad = false) (hr : x.regBad = false)
    (hu : u = s.atWord t w pc x) : s.seqRow t op x = u.completeWord t w pc :=
  seqRow_completes h (by omega) hc hr hu (fun e => by omega) (fun e => by omega) (fun e => by omega) (fun e => by omega)

end

/-- Settles O3, part by part. -/
theorem microcodeRowsComplete : Obligations.MicrocodeRowsComplete := by
  intro s
  -- each part's meaning stands for exec's arm
  dsimp only [exec]
  refine ⟨?words, ?alu, ?mem, ?memResult, ?tbl, ?tblResult, ?posts, ?enters, ?pops, ?signals, ?clears, ?fence, ?timer⟩
  case words =>
    intro t w pc x u hc hr hu
    replace hc := Bool.eq_false_iff.mpr hc
    replace hr := Bool.eq_false_iff.mpr hr
    have always {op : Nat} (hop : op < 4 ∨ op = 6 ∨ op = 9) (h : s.wordIssues t op w pc) :
        (.next (s.seqRow t op x) : Step) = .next (u.completeWord t w pc) := congrArg _ (seqRow_completes_always h hop hc hr hu)
    refine ⟨always (by decide), always (by decide), always (by decide), always (by decide), ?call, ?ret, always (by decide), ?wait, ?done,
      always (by decide)⟩
    case call => exact fun h h4 => congrArg _ (seqRow_completes h (by decide) hc hr hu (fun _ => h4) nofun nofun nofun)
    case ret => exact fun h h5 => congrArg _ (seqRow_completes h (by decide) hc hr hu nofun (fun _ => h5) nofun nofun)
    case wait =>
      exact fun h h7 hm => congrArg _ (seqRow_completes h (by decide) hc hr hu nofun nofun (fun _ => ⟨h7, Bool.eq_false_iff.mpr hm⟩) nofun)
    case done =>
      intro h hb hw hst
      simp only [execSeqDone, Bool.eq_false_iff.mpr hb, when_false]
      exact congrArg _ (seqRow_completes h (by decide) hc hr hu nofun nofun nofun
        (fun _ => ⟨Bool.eq_false_iff.mpr hw, Bool.eq_false_iff.mpr hst⟩))
  case alu =>
    rintro t f m x _ _ _ rfl rfl rfl
    have ends {op : Nat} (hop : 1 ≤ op ∧ op ≤ 0x17) (hw : writesNothing op = false) (h : s.aluRuns t op f) :=
      aluCmd_ends h hop.1 hop.2 hw m x
    have tests {op : Nat} (hop : 1 ≤ op ∧ op ≤ 0x17) (hw : writesNothing op = true) (h : s.aluRuns t op f) :=
      aluCmd_tests h hop.1 hop.2 hw m x
    refine ⟨?mov, ?aluAdd, ?sub, ?and, ?or, ?xor, ?andn, ?shlv, ?shrv, ?sarv, ?minu, ?maxu, ?cmp, ?tst, ?ins, ?popc, ?clz, ?bswap, ?crc,
      ?addc, ?subb, ?sel, ?mul32⟩
    case sub => exact fun h => congrArg _ ((ends (by decide) rfl h).trans (by rw [aluResult_sub, aluCarry_sub, aluOverflow_sub]))
    case cmp => exact fun h => congrArg _ ((tests (by decide) rfl h).trans (by rw [aluResult_cmp, aluCarry_cmp, aluOverflow_cmp]))
    case subb => exact fun h => congrArg _ ((ends (by decide) rfl h).trans (by rw [aluResult_subb, aluCarry_subb, aluOverflow_subb]))
    case tst => exact fun h => congrArg _ (tests (by decide) rfl h)
    case mov | aluAdd | and | or | xor | andn | shlv | shrv | sarv | minu | maxu | ins | popc | clz | bswap | crc | addc | sel | mul32 =>
      exact fun h => congrArg _ (ends (by decide) rfl h)
  case mem =>
    rintro t f x _ _ rfl rfl
    refine ⟨?ld, ?st, ?fadd, ?swap, ?cas, ?add⟩
    case ld => exact fun h => congrArg _ (memCmd_load h x)
    case st | add => exact fun h => congrArg _ (memCmd_stores h (by decide) x)
    case fadd | swap | cas => exact fun h => ⟨_, congrArg _ (memCmd_atomic h (by decide) x)⟩
  case memResult => exact fun p t h hb => execMemResultArrive_delivers h (Bool.eq_false_iff.mpr hb)
  case tbl =>
    intro t f x
    have awaits {op : Nat} (h0 : op ≠ 0) (h : s.tblRuns t op f) :
        ∃ u : State, ∃ k v w, (.next (s.tblCmd t op f x) : Step) = .next (u.awaitsTable t op f k v w) :=
      ⟨_, _, _, _, congrArg _ (tblCmd_awaits h h0 x rfl rfl rfl)⟩
    exact ⟨awaits (by decide), awaits (by decide), awaits (by decide), awaits (by decide)⟩
  case tblResult => exact fun p t h => ⟨_, execTblResultArrive_delivers h⟩
  case posts =>
    exact fun t hi hs hb hc => execChannelPost_posts hi (Bool.eq_false_iff.mpr hs) (Bool.eq_false_iff.mpr hb) hc
  case enters => exact fun m t h => ⟨_, execInboxMessageArrive_enters h⟩
  case pops => exact fun t hi => congrArg _ (if_pos hi)
  case signals | clears => exact fun t v hi => congrArg _ (if_pos hi)
  case fence => exact fun m c h => execFenceMessage_answers h
  case timer => exact fun t ht h0 hd hr => ⟨_, execThreadTimerFire_due ht h0 (Bool.eq_false_iff.mpr hd) hr⟩

end Sys2Proof.Machine
end

section
/-! Dispatch and the reorder unit (spec/05_brew_engines.md R121 to R128, R141). -/

namespace Sys2Proof.Machine

/-! ### Dispatch -/

section
variable {s : State} {pipe h t : Nat} {p : Packet}

/-- With every cluster of its pipeline fenced, the packet at the head is discarded and counted (spec/01_architecture.md R23). -/
theorem execDispatch_noCluster (hh : s.dispatchHead pipe = some h) (hn : s.noCluster pipe = true) :
    execDispatch pipe s =
      .next (((({ s with dispatchQ := s.dispatchQ.erase h } : State).retire (.dispatch pipe)).discard (unitPipe pipe) 1).dropPkt h 6) := by
  simp only [execDispatch, hh, hn, if_true]

/-- The packet at the head leaves its queue for the thread that is next, and is numbered; one of a generation that an FLR ended is
dropped there (R141). -/
theorem execDispatch_numbers {u : State} (hh : s.dispatchHead pipe = some h) (hn : s.noCluster pipe = false) (hp : s.pkt h = some p)
    (ht : s.nextThread pipe p.epoch = some t) (hf : s.isFenced (unitPipe pipe) 0 = false)
    (hu : u = (((({ s with dispatchQ := s.dispatchQ.erase h, lastCluster := s.lastCluster.set pipe ((clusterOf t + 1) % 4) } : State).noteLoad
      pipe).retire (.dispatch pipe)).number h p)) :
    execDispatch pipe s = .next (if !p.fromWire && p.gen != s.rd F.HIF_FN_STATE_GEN p.func then
        (u.count .PIPE_CTR pipe C.PIPE_FLR_DROPS).toVerdict h (dropVerdict 0xFC)
      else ((u.moveTo h (.thread t)).bind t h p).count .BRW_CTR (clusterOf t) C.BRW_DISPATCHED) := by
  subst hu
  simp only [execDispatch, hh, hn, hp, Option.bind_some, ht, hf, Bool.false_eq_true, if_false]

end

/-! ### The reorder unit -/

section
variable {s u : State} {h : Nat} {p : Packet} (hp : s.pkt h = some p) (hst : p.stage = .verdict) (hord : s.inOrder p = true)
  (hcr : s.enqueueCredit p.pipe 1 = true)
  (hu : u = { s.retire (.verdict p.pipe) with
    order := (s.retire (.verdict p.pipe)).order.filter (fun o => !(o.1 == p.pipe && o.2.1 == p.seq)) })
  (hf : u.isFenced (unitPipe p.pipe) 0 = false) (h59 : bit p.verdict.word 59 = false) (hd : p.doomed = false)
include hp hst hord hcr hu hf h59 hd

/-- A verdict whose turn has come, without a copy for the manager, leaves the reorder unit as its action says (R124, R127). -/
theorem execReorderRelease_leaves :
    execReorderRelease h s = .next (
      let v := u.count .PIPE_CTR p.pipe C.PIPE_VERDICTS
      if 7 ≤ p.verdict.action then ((v.count .PIPE_CTR p.pipe C.PIPE_BAD_VERDICT).countDrop p.pipe 0xFF).dropPkt h 6
      else if p.verdict.action = 0 then (v.countDrop p.pipe (bits p.verdict.word 58 51)).dropPkt h 6
      else if p.verdict.action = 6 || p.taken then v.endPkt h true 0 p.ofl
      else v.moveTo h (if p.deferred.isEmpty && p.offload.isEmpty then .toTm else .deferred)).wake := by
  subst hu
  simp only [execReorderRelease, hp]
  refine (if_pos ⟨hst, hord, by simpa [h59, b2n] using hcr⟩).trans ((if_neg (Bool.eq_false_iff.mp hf)).trans ?_)
  rw [h59, hd]
  rfl

/-- A DROP verdict drops its packet under its REASON (R124). -/
theorem execReorderRelease_drops (ha : p.verdict.action = 0) :
    execReorderRelease h s = .next
      (((u.count .PIPE_CTR p.pipe C.PIPE_VERDICTS).countDrop p.pipe (bits p.verdict.word 58 51)).dropPkt h 6).wake := by
  rw [execReorderRelease_leaves hp hst hord hcr hu hf h59 hd]
  simp only [ha, Nat.reduceLeDiff, if_false, if_true]

/-- A forwarding verdict sends its packet on: to the traffic manager, or to its deferred work first. -/
theorem execReorderRelease_forwards (h1 : 1 ≤ p.verdict.action) (h5 : p.verdict.action ≤ 5) (ht : p.taken = false) :
    execReorderRelease h s = .next ((u.count .PIPE_CTR p.pipe C.PIPE_VERDICTS).moveTo h
      (if p.deferred.isEmpty && p.offload.isEmpty then .toTm else .deferred)).wake := by
  have h6 : p.verdict.action ≠ 6 := by omega
  rw [execReorderRelease_leaves hp hst hord hcr hu hf h59 hd]
  dsimp only
  rw [if_neg (by omega), if_neg (by omega), if_neg (by simp [h6, ht])]

end

/-- Settles O15, from what dispatch does with the head and the reorder unit with a verdict. -/
theorem dispatching : Obligations.Dispatching := by
  unfold Obligations.Dispatching
  -- each row's meaning stands for exec's arm
  dsimp only [exec]
  refine ⟨?binds, ?stale, ?noCluster, ?drops, ?forwards⟩
  case binds =>
    intro s pipe h t p hh hn hp ht hf hw
    rw [execDispatch_numbers hh hn hp ht hf rfl, if_neg (by simp [hw])]
  case stale =>
    intro s pipe h t p hh hn hp ht hf hw hg
    rw [execDispatch_numbers hh hn hp ht hf rfl, if_pos (by simp [hw, hg])]
  case noCluster => exact fun s pipe h hh hn => execDispatch_noCluster hh hn
  case drops => exact fun s h p u hp hst hord hcr hu hf h59 hd ha => execReorderRelease_drops hp hst hord hcr hu hf h59 hd ha
  case forwards =>
    exact fun s h p u hp hst hord hcr hu hf h59 hd h1 h5 ht => execReorderRelease_forwards hp hst hord hcr hu hf h59 hd h1 h5 ht

end Sys2Proof.Machine
end

section
/-! Host access of microcode, and the repair of the control store (spec/05_brew_engines.md R131, R136; spec/06_microcode.md R168). -/

namespace Sys2Proof.Machine

/-! ### The host-access channel -/

section
variable {s : State} {c : Nat} {m : ChanMsg} (hm : s.chan.find? (fun m => m.dest == 0x500 + c) = some m) (ht : m.type = 1)
include hm ht

/-- A request of a function that may not use DMA is answered with status 4, whatever the host would say. -/
theorem execHostAccessRequest_denied {u : State} (reply : HostReply) (ha : (s.accepted m).mayDma (bits (m.word 0) 27 16) = false)
    (hu : u = (s.accepted m).posted m) (hd : u.mayDma (bits (m.word 0) 27 16) = false) :
    execHostAccessRequest c reply s = .next (u.reply m [4]) := by
  subst hu
  simp [execHostAccessRequest, hm, ht, ha, hd]

/-- A request whose address has no translation faults the word that posted it (R136). -/
theorem execHostAccessRequest_faults (hd : (s.accepted m).mayDma (bits (m.word 0) 27 16) = true) (h0 : 0 < bits (m.word 0) 15 0)
    (h48 : bits (m.word 0) 15 0 ≤ 48) :
    execHostAccessRequest c .xlateFault s = .next ((s.accepted m).hostFault m (bits (m.word 0) 27 16)
      (if bit (m.word 0) 29 then some (bits (m.word 0) 49 30) else none) (m.word 1) (bit (m.word 0) 28)) := by
  have h1 : 1 ≤ bits (m.word 0) 15 0 := h0
  simp [execHostAccessRequest, hm, ht, hd, h1, h48]

/-- A write without a PASID, of a function that may use DMA, is made and answered. -/
theorem execHostAccessRequest_writes {u : State} {reply : HostReply} (hu : u = (s.accepted m).posted m)
    (hd : u.mayDma (bits (m.word 0) 27 16) = true) (h0 : 0 < bits (m.word 0) 15 0) (h48 : bits (m.word 0) 15 0 ≤ 48)
    (hw : bit (m.word 0) 28 = true) (hp : bit (m.word 0) 29 = false) (hr : reply ≠ .xlateFault) :
    execHostAccessRequest c reply s = .next ((u.hostWrite (bits (m.word 0) 27 16) (m.word 1) none
      (((List.range 6).flatMap (fun k => leBytes 8 (m.word (2 + k)))).take (bits (m.word 0) 15 0))).reply m [0]) := by
  subst hu
  have hx : (reply == HostReply.xlateFault) = false := beq_eq_false_iff_ne.mpr hr
  have hlen : ¬(bits (m.word 0) 15 0 = 0 ∨ 48 < bits (m.word 0) 15 0) := by omega
  simp [execHostAccessRequest, hm, ht, hx, hd, hlen, hw, hp]

end

/-! ### Control-store repair -/

section
variable {s : State} {c bank a p0 p1 : Nat} (hbad : s.csBad.get (csKey c bank a) = true)
include hbad

/-- A damaged word of an image is written again. -/
theorem execCsEccRepair_image (ha : 0x6000 ≤ a) :
    execCsEccRepair c bank a (p0, p1) s =
      .next ((({ s with csBad := s.csBad.set (csKey c bank a) false } : State).countError .corrected).answerSup c) := by
  simp only [execCsEccRepair, hbad, Bool.not_true, Bool.false_eq_true, if_false, if_pos ha]

variable (ha : a < 0x6000)
include ha

/-- A damaged ROM word is led to patch RAM in both banks. -/
theorem execCsEccRepair_rom {i j : Nat} (hi : s.repairEntry c 0 = some i) (hj : s.repairEntry c 1 = some j)
    (h0 : s.patchFree c 0 p0 = true) (h1 : s.patchFree c 1 p1 = true) :
    execCsEccRepair c bank a (p0, p1) s =
      .next ((((s.repairRom c 0 i a p0).repairRom c 1 j a p1).countError .corrected).answerSup c) := by
  simp only [execCsEccRepair, hbad, Bool.not_true, Bool.false_eq_true, if_false, if_neg (Nat.not_le.mpr ha), hi, hj, h0, h1, and_self, if_true]

/-- Without a free repair entry the cluster is fenced. -/
theorem execCsEccRepair_fences (hi : s.repairEntry c 0 = none) :
    execCsEccRepair c bank a (p0, p1) s = .next (s.fenceCluster c 4 .degraded) := by
  simp only [execCsEccRepair, hbad, Bool.not_true, Bool.false_eq_true, if_false, if_neg (Nat.not_le.mpr ha), hi]

end

/-- Settles O16, row by row. -/
theorem supervision : Obligations.Supervision := by
  unfold Obligations.Supervision
  -- each row's meaning stands for exec's arm
  dsimp only [exec]
  refine ⟨?resume, ?abort, ?fenceThread, ?fenceEngine, ?escalate, ?timeout, ?runLimit, ?allWait, ?window, ?claim, ?release, ?image, ?rom,
    ?noEntry, ?writes, ?denied, ?faults⟩
  case resume | abort | fenceThread | escalate => exact fun s c m d hm ht ha hd hok => congrArg _ (supRow_decides hm ht hd ha (by decide) hok)
  case fenceEngine =>
    intro s c m d hm ht ha hd hlt hok
    exact congrArg _ ((supRow_decides hm ht hd ha (by decide) hok).trans (congrArg (State.reply · m [0]) (if_neg (Nat.not_le.mpr hlt))))
  case timeout => exact fun s t ht hst he hd => congrArg _ (if_pos ⟨ht, hst, by simp [he], hd⟩)
  case runLimit => exact fun s t ht hp hst hl => congrArg _ (if_pos ⟨ht, hp, hst, hl⟩)
  case allWait => exact fun s c e hc he hw => congrArg _ (if_pos ⟨hc, he, hw⟩)
  case window => exact fun s fn t o w v hm => congrArg _ (asManager_of hm _)
  case claim | release => exact fun s => rfl
  case image => exact fun s c bank a p0 p1 hbad ha => execCsEccRepair_image hbad ha
  case rom => exact fun s c bank a p0 p1 i j hbad ha hi hj h0 h1 => execCsEccRepair_rom hbad ha hi hj h0 h1
  case noEntry => exact fun s c bank a p0 p1 hbad ha hi => execCsEccRepair_fences hbad ha hi
  case writes => exact fun s c m reply u hm ht hu hd h0 h48 hw hp hr => execHostAccessRequest_writes hm ht hu hd h0 h48 hw hp hr
  case denied => exact fun s c m u hm ht ha hu hd => execHostAccessRequest_denied hm ht _ ha hu hd
  case faults =>
    rintro s c m _ hm ht hd h0 h48 rfl
    exact execHostAccessRequest_faults hm ht hd h0 h48

end Sys2Proof.Machine
end

section
/-! Service commands, wear and debug commands (spec/13_control_interface.md R326 to R338; spec/17_errors_and_service.md R396, R397;
spec/05_brew_engines.md R142 to R144). -/

namespace Sys2Proof.Machine

section
variable {s : State}

/-! ### Counters and firmware -/

/-- SVC_PORT_COUNTERS folds the counters it has handed out, and none when they could not be written. -/
theorem execSvcPortCounters_writes {t : State} {e : Eci} {c : EciCmd} {p w : List Nat} {rc : Nat}
    (h : s.serves e c 0x0A00 [low 5, W32, W32]) (hc : p = c.words)
    (hd : (e.fn != s.manager || s.on F.GLB_COUNTER_OWNER_OWNER 0) = false) (hb : (bit (p.getD 0 0) 4 && bits (p.getD 0 0) 3 0 != 0) = false)
    (hw : (s.foldCounters (p.getD 0 0)).bufferOut e.fn (w64 p 1) 448 ((s.foldCounters (p.getD 0 0)).totals (p.getD 0 0)) e.io.head? [0]
      = .done t rc w) :
    execSvcPortCounters e s = .next ((if rc = RC_OK then t else s).answers e rc w) := by
  subst hc
  refine eci_of h rfl hd hb ?_
  simp only [hw]
  split <;> rfl

/-- SVC_FW_ACTIVATE of a slot whose image boots is answered before firmware starts from it (R326). -/
theorem execSvcFwActivate_starts {e : Eci} {c : EciCmd} {p : List Nat} (h : s.serves e c 0x0A03 [1]) (hc : p = c.words)
    (hd : s.flashDenied e.fn = false) (ht : s.flashTaken e.fn = false) (hv : s.slotValid (p.getD 0 0) = true) :
    execSvcFwActivate e s = .next ((s.answers e RC_OK []).fwActivate (p.getD 0 0)) := by
  subst hc
  exact eci_held h rfl hd (by rw [hv]; rfl) (if_neg (Bool.eq_false_iff.mp ht))

/-- While another function holds the flash, SVC_FW_ACTIVATE answers BUSY. -/
theorem execSvcFwActivate_taken {e : Eci} {c : EciCmd} {p : List Nat} (h : s.serves e c 0x0A03 [1]) (hc : p = c.words)
    (hd : s.flashDenied e.fn = false) (ht : s.flashTaken e.fn = true) (hv : s.slotValid (p.getD 0 0) = true) :
    execSvcFwActivate e s = .next (s.answers e RC_BUSY []) := by
  subst hc
  exact eci_of h rfl hd (by rw [hv]; rfl) (if_pos ht)

/-- A slot whose image does not boot is refused. -/
theorem execSvcFwActivate_invalid {e : Eci} {c : EciCmd} {p : List Nat} (h : s.serves e c 0x0A03 [1]) (hc : p = c.words)
    (hd : s.flashDenied e.fn = false) (hv : s.slotValid (p.getD 0 0) = false) :
    execSvcFwActivate e s = .next (s.answers e RC_BAD_ARG []) := by
  subst hc
  exact eci_bad h rfl hd (by rw [hv]; rfl)

/-! ### Wear -/

/-- A domain whose ring oscillator was not sampled within the last minute is sampled (R396). -/
theorem execWearSample_due {t u : State} {d khz : Nat} {aged : Bool} (hd : d < 64)
    (hs : ∀ at_, (s.domainWear d).sampled = some at_ → at_ + 60000000000 ≤ s.now)
    (ht : t = { s with wear := s.wear.set (0xE100 + d) { s.domainWear d with khz := khz % 2 ^ 32, sampled := some s.now, stamp := s.stamp } })
    (ha : aged = decide (250 ≤ t.slowdown d))
    (hu : u = { t with wear := t.wear.set (0xE100 + d) { t.domainWear d with aged := aged } }) :
    execWearSample d khz s = .next (u.when (aged && !(s.domainWear d).aged) (fun x => x.raise Ev.PWR_AGEING_ALERT)) := by
  subst ht ha hu
  refine congrArg _ (if_neg ?_)
  rw [not_or]
  refine ⟨Nat.not_le.mpr hd, ?_⟩
  cases hw : (s.domainWear d).sampled with
  | none => simp
  | some at_ => simp [hs at_ hw]

/-! ### Debug commands -/

/-- A debug command of the manager's that is served and permitted acts and is answered (R142). -/
theorem debugCmd_eci {t : State} {e : Eci} {c : EciCmd} {code rc : Nat} {cluster : List Nat → Nat} {masks p : List Nat}
    {run : List Nat → State × Nat} (h : s.serves e c code masks) (hc : p = c.words) (hd : s.dbgDenied e.fn cluster p = false)
    (hr : run p = (t, rc)) : s.debugCmd (.eci e) code cluster masks run = .next (t.answers e rc []) := by
  subst hc
  unfold State.debugCmd
  exact eci_of h rfl hd rfl (by rw [hr])

/-- Before JTAG owns the cluster's debug controller its commands do nothing (R142). -/
theorem debugCmd_unowned {cluster : List Nat → Nat} {p : List Nat} (h : s.on F.BRW_DBG_CTL_JTAG_OWNS (cluster p) = false)
    (code : Nat) (masks : List Nat) (run : List Nat → State × Nat) : s.debugCmd (.jtag p) code cluster masks run = .next s :=
  congrArg _ (if_neg (by simp [h]))

end

/-- Settles O44, command by command, then the clocks of service and the commands from JTAG. -/
theorem serviceAndDebug : Obligations.ServiceAndDebug := by
  unfold Obligations.ServiceAndDebug
  -- each command's meaning stands for exec's arm
  dsimp only [exec]
  refine ⟨?counters, ?evtRoute, ?flashWrite, ?flashBusy, ?longBusy, ?activate, ?activateBusy, ?logRead, ?retrain, ?wear, ?flashRelease,
    ?firstSample, ?nextSample, ?saveEarly, ?saveNone, ?saveOne, ?halt, ?resume, ?abort, ?bpSet, ?softBp, ?step, ?stepNone, ?jtagHalt,
    ?jtagResume, ?jtagAbort, ?jtagBpSet, ?jtagSoftBp, ?jtagStep, ?jtagUnowned⟩
  case counters => exact fun s e c p t rc w h hc hd hb hw => execSvcPortCounters_writes h hc hd hb hw
  case evtRoute => exact fun s e c p h hc hm hb => eci_managed h hc hm rfl hb rfl
  case flashWrite =>
    rintro s e c _ h rfl hd hb ht hr hl
    exact eci_started h rfl hd hb ((if_neg (not_or.mpr ⟨Bool.eq_false_iff.mp ht, Bool.eq_false_iff.mp hr⟩)).trans (if_neg (Bool.eq_false_iff.mp hl)))
  case flashBusy =>
    rintro s e c _ h rfl hd hb ht
    exact eci_of h rfl hd hb (if_pos ht)
  case longBusy =>
    rintro s e c _ h rfl hd hb ht hr hl
    exact eci_of h rfl hd hb ((if_neg (not_or.mpr ⟨Bool.eq_false_iff.mp ht, Bool.eq_false_iff.mp hr⟩)).trans (if_pos hl))
  case activate =>
    intro s e c p h hc hd ht
    split
    · next hv => exact execSvcFwActivate_starts h hc hd ht hv
    · next hv => exact execSvcFwActivate_invalid h hc hd (Bool.eq_false_iff.mpr hv)
  case activateBusy =>
    intro s e c p h hc hd ht
    split
    · next hv => exact execSvcFwActivate_taken h hc hd ht hv
    · next hv => exact execSvcFwActivate_invalid h hc hd (Bool.eq_false_iff.mpr hv)
  case logRead => exact fun s e c p h hc hm => eci_managed h hc hm rfl rfl rfl
  case retrain =>
    rintro s e c _ h rfl hm hl
    exact eci_started h rfl (managerOnly_manager hm _) rfl (if_neg (Bool.eq_false_iff.mp hl))
  case wear => exact fun s e c p h hc hm hb => eci_managed h hc hm rfl hb rfl
  case flashRelease => exact fun s hh ht => congrArg _ (if_pos ⟨hh, ht⟩)
  case firstSample =>
    rintro s t u _ d khz aged hd hs ht ha hu rfl
    exact execWearSample_due hd (by simp [hs]) ht ha hu
  case nextSample =>
    rintro s t u _ d khz at_ aged hd hs hat ht ha hu rfl
    exact execWearSample_due hd (by simpa [hs] using hat) ht ha hu
  case saveEarly => exact fun s stress h => congrArg _ (if_pos h)
  case saveNone => exact fun s h => congrArg _ (if_neg (Nat.not_lt.mpr h))
  case saveOne =>
    rintro s _ n _ h rfl rfl
    exact congrArg _ (if_neg (Nat.not_lt.mpr h))
  case halt | resume | abort | softBp => exact fun s e c p h hc hd => debugCmd_eci h hc hd rfl
  case bpSet =>
    rintro s e c p _ h hc hd rfl
    exact debugCmd_eci h hc hd rfl
  case step => exact fun s e c p t h hc hd ht => debugCmd_eci h hc hd (by rw [ht])
  case stepNone => exact fun s e c p h hc hd ht => debugCmd_eci h hc hd (by rw [ht])
  case jtagHalt | jtagResume | jtagAbort | jtagSoftBp => exact fun s p ho hs => debugCmd_jtag ⟨ho, hs⟩ _
  case jtagBpSet =>
    rintro s p _ ho hs rfl
    exact debugCmd_jtag ⟨ho, hs⟩ _
  case jtagStep => exact fun s p t ho hs ht => (debugCmd_jtag ⟨ho, hs⟩ _).trans (by rw [ht])
  case jtagUnowned => exact fun s p h => ⟨debugCmd_unowned h _ _ _, debugCmd_unowned h _ _ _, debugCmd_unowned h _ _ _, debugCmd_unowned h _ _ _⟩

end Sys2Proof.Machine
end

section
/-! The next address and the call stack after a completed word (spec/06_microcode.md R153, R159, R161). -/

namespace Sys2Proof.Machine

section
variable (u : State) (t : Nat) {w : Nat} (pc : Nat)

/-- INC and WAIT go on at the next address. -/
theorem nextPc_next (h : wSeq w = 0 ∨ wSeq w = 7) : u.nextPc t w pc = (pc + 1) % 65536 := by
  rcases h with h | h <;> simp only [State.nextPc, h]

/-- JUMP and CALL go on at TARGET. -/
theorem nextPc_target (h : wSeq w = 1 ∨ wSeq w = 4) : u.nextPc t w pc = wTarget w := by
  rcases h with h | h <;> simp only [State.nextPc, h]

/-- BR goes on at TARGET where its condition holds. -/
theorem nextPc_br (h : wSeq w = 2) (hc : condReserved (wCond w) = false) :
    u.nextPc t w pc = if u.condTrue t (wCond w) then wTarget w else (pc + 1) % 65536 := by
  simp only [State.nextPc, h, hc, Bool.false_eq_true, if_false]

/-- BRN goes on at TARGET where its condition does not hold. -/
theorem nextPc_brn (h : wSeq w = 3) (hc : condReserved (wCond w) = false) :
    u.nextPc t w pc = if u.condTrue t (wCond w) then (pc + 1) % 65536 else wTarget w := by
  simp only [State.nextPc, h, hc, Bool.false_eq_true, if_false]

/-- RET goes on at the top of the call stack. -/
theorem nextPc_ret (h : wSeq w = 5) : u.nextPc t w pc = (u.thread t).stack.headD 0 := by
  simp only [State.nextPc, h]

/-- DISP16 goes on at TARGET plus the four bits of its operand from its position. -/
theorem nextPc_disp16 (h : wSeq w = 6) (hp : wDispPos w ≤ 60) :
    u.nextPc t w pc = (wTarget w + bits (u.operand t (wImm w) 4 (wDispOp w)) (wDispPos w + 3) (wDispPos w)) % 65536 := by
  simp only [State.nextPc, h, if_neg (Nat.not_lt.mpr hp)]

end

/-- CALL pushes the next address. -/
theorem nextStack_call {w : Nat} (h : wSeq w = 4) (pc : Nat) (stack : List Nat) :
    nextStack w pc stack = (pc + 1) % 65536 :: stack := by
  simp only [nextStack, h]

/-- The SEQ operation of a word that issues. -/
theorem wSeq_of_wordIssues {s : State} {t op w pc : Nat} (h : s.wordIssues t op w pc) : wSeq w = op := by
  obtain ⟨-, -, -, hw, -⟩ := h
  exact hw

section
variable {s u : State} {t op w pc : Nat} {x : WordIo}

/-- After a word that completes, its thread is READY at the word's next address, with the word's call stack. -/
theorem seqRow_goesOn (h : s.wordIssues t op w pc) (hop : op < 8) (hs : (s.thread t).stepping = false)
    (hu : u = s.atWord t w pc x) (hdone : s.seqRow t op x = u.completeWord t w pc) :
    ((s.seqRow t op x).thread t).st = .ready ∧ ((s.seqRow t op x).thread t).pc = u.nextPc t w pc ∧
      ∃ l, ((s.seqRow t op x).thread t).stack = nextStack w pc l := by
  obtain ⟨-, -, -, hw, -, -, -, -, -, hpost⟩ := h
  have hstep : (u.thread t).stepping = false := by rw [hu, atWord_thread]; exact hs
  rw [hdone]
  exact completeWord_thread (hw ▸ hop) hpost hstep

/-- A word whose next address is a has its thread READY there. -/
theorem seqRow_goesOn_at {a : Nat} (h : s.wordIssues t op w pc) (hop : op < 8) (hs : (s.thread t).stepping = false)
    (hu : u = s.atWord t w pc x) (hdone : s.seqRow t op x = u.completeWord t w pc) (ha : u.nextPc t w pc = a) :
    ∃ v, (.next (s.seqRow t op x) : Step) = .next v ∧ (v.thread t).st = .ready ∧ (v.thread t).pc = a := by
  obtain ⟨hst, hpc, -⟩ := seqRow_goesOn h hop hs hu hdone
  exact ⟨_, rfl, hst, hpc.trans ha⟩

end

/-- Settles O23, from the address and the call stack each SEQ operation names. -/
theorem sequencerAddresses : Obligations.SequencerAddresses := by
  unfold Obligations.SequencerAddresses
  -- each SEQ operation's meaning stands for exec's arm
  dsimp only [exec]
  refine ⟨?inc, ?jump, ?br, ?brn, ?call, ?ret, ?disp16, ?wait⟩
  case inc =>
    intro s u t w pc x h hc hr hu hs
    have hdone := seqRow_completes_always h (by decide) hc hr hu
    exact seqRow_goesOn_at h (by decide) hs hu hdone (nextPc_next u t pc (.inl (wSeq_of_wordIssues h)))
  case jump =>
    intro s u t w pc x h hc hr hu hs
    have hdone := seqRow_completes_always h (by decide) hc hr hu
    exact seqRow_goesOn_at h (by decide) hs hu hdone (nextPc_target u t pc (.inl (wSeq_of_wordIssues h)))
  case br =>
    intro s u t w pc x h hc hr hu hs hcond
    have hdone := seqRow_completes_always h (by decide) hc hr hu
    exact seqRow_goesOn_at h (by decide) hs hu hdone (nextPc_br u t pc (wSeq_of_wordIssues h) hcond)
  case brn =>
    intro s u t w pc x h hc hr hu hs hcond
    have hdone := seqRow_completes_always h (by decide) hc hr hu
    exact seqRow_goesOn_at h (by decide) hs hu hdone (nextPc_brn u t pc (wSeq_of_wordIssues h) hcond)
  case call =>
    intro s u t w pc x h hc hr hu hs hdepth
    have hdone := seqRow_completes h (by decide) hc hr hu (fun _ => hdepth) nofun nofun nofun
    obtain ⟨hst, hpc, l, hstack⟩ := seqRow_goesOn h (by decide) hs hu hdone
    have hw := wSeq_of_wordIssues h
    exact ⟨_, rfl, hst, hpc.trans (nextPc_target u t pc (.inr hw)), by rw [hstack, nextStack_call hw]; rfl⟩
  case ret =>
    intro s u t w pc x h hc hr hu hs hne
    have hdone := seqRow_completes h (by decide) hc hr hu nofun (fun _ => hne) nofun nofun
    have htop : u.nextPc t w pc = (s.thread t).stack.headD 0 := by
      rw [nextPc_ret u t pc (wSeq_of_wordIssues h), hu, atWord_thread]
    exact seqRow_goesOn_at h (by decide) hs hu hdone htop
  case disp16 =>
    intro s u t w pc x h hc hr hu hs hpos
    have hdone := seqRow_completes_always h (by decide) hc hr hu
    exact seqRow_goesOn_at h (by decide) hs hu hdone (nextPc_disp16 u t pc (wSeq_of_wordIssues h) hpos)
  case wait =>
    intro s u t w pc x h hc hr hu hs hev hmove
    have hdone := seqRow_completes h (by decide) hc hr hu nofun nofun (fun _ => ⟨hev, hmove⟩) nofun
    exact seqRow_goesOn_at h (by decide) hs hu hdone (nextPc_next u t pc (.inr (wSeq_of_wordIssues h)))

/-- Settles O22: nothing of its SEQ operation keeps the word from completing. -/
theorem sequencerSteps : Obligations.SequencerSteps := by
  unfold Obligations.SequencerSteps
  -- each SEQ operation's meaning stands for exec's arm
  dsimp only [exec]
  refine ⟨?inc, ?jump, ?br, ?brn, ?call, ?ret, ?disp16, ?wait, ?done, ?fault⟩
  case inc | jump | br | brn | disp16 | fault =>
    exact fun s u t w pc x h hc hr hu => congrArg _ (seqRow_completes_always h (by decide) hc hr hu)
  case call =>
    exact fun s u t w pc x h hc hr hu hdepth => congrArg _ (seqRow_completes h (by decide) hc hr hu (fun _ => hdepth) nofun nofun nofun)
  case ret =>
    exact fun s u t w pc x h hc hr hu hne => congrArg _ (seqRow_completes h (by decide) hc hr hu nofun (fun _ => hne) nofun nofun)
  case wait =>
    exact fun s u t w pc x h hc hr hu hev hmove =>
      congrArg _ (seqRow_completes h (by decide) hc hr hu nofun nofun (fun _ => ⟨hev, hmove⟩) nofun)
  case done =>
    rintro s _ u t w pc x rfl h hc hr hu hwait hstale
    exact congrArg _ (seqRow_completes h (by decide) hc hr hu nofun nofun nofun (fun _ => ⟨hwait, hstale⟩))

end Sys2Proof.Machine
end

section
/-! The values of the ALU table (spec/06_microcode.md R155). -/

namespace Sys2Proof.Machine

/-- Settles O17, operation by operation from the rows of the ALU part. -/
theorem aluArithmetic : Obligations.AluArithmetic := by
  refine ⟨?add, ?sub, ?minu, ?maxu, ?cmp, ?tst, ?addc, ?subb, ?sel, ?mul32⟩
  all_goals
    intro s t f imm strict
    obtain ⟨-, alu, -⟩ := microcodeRowsComplete s
    obtain ⟨-, add, sub, -, -, -, -, -, -, -, minu, maxu, cmp, tst, -, -, -, -, -, addc, subb, sel, mul32⟩ :=
      alu t f imm strict _ _ _ rfl rfl rfl
  case add => rintro _ _ h rfl rfl; exact add h
  case sub => rintro _ _ h rfl rfl; exact sub h
  case minu => rintro _ _ h rfl rfl; exact minu h
  case maxu => rintro _ _ h rfl rfl; exact maxu h
  case cmp => rintro _ _ h rfl rfl; exact cmp h
  case tst => rintro _ _ h rfl rfl; exact tst h
  case addc => rintro _ _ _ h rfl rfl rfl; exact addc h
  case subb => rintro _ _ _ h rfl rfl rfl; exact subb h
  case sel => rintro _ _ h rfl rfl; exact sel h
  case mul32 => rintro _ _ h rfl rfl; exact mul32 h

/-- Settles O18, operation by operation from the rows of the ALU part. -/
theorem aluBits : Obligations.AluBits := by
  refine ⟨?mov, ?and, ?or, ?xor, ?andn, ?shlv, ?shrv, ?sarv, ?ins, ?popc, ?clz, ?bswap, ?crc⟩
  all_goals
    intro s t f imm strict
    obtain ⟨-, alu, -⟩ := microcodeRowsComplete s
    obtain ⟨mov, -, -, and, or, xor, andn, shlv, shrv, sarv, -, -, -, -, ins, popc, clz, bswap, crc, -⟩ :=
      alu t f imm strict _ _ _ rfl rfl rfl
  case mov => rintro _ h rfl; exact mov h
  case and => rintro _ _ h rfl rfl; exact and h
  case or => rintro _ _ h rfl rfl; exact or h
  case xor => rintro _ _ h rfl rfl; exact xor h
  case andn => rintro _ _ h rfl rfl; exact andn h
  case shlv => rintro _ _ h rfl rfl; exact shlv h
  case shrv => rintro _ _ h rfl rfl; exact shrv h
  case sarv => rintro _ _ h rfl rfl; exact sarv h
  case ins => rintro _ h rfl; exact ins h
  case popc => rintro _ h rfl; exact popc h
  case clz => rintro _ h rfl; exact clz h
  case bswap => rintro _ h rfl; exact bswap h
  case crc => rintro _ _ h rfl rfl; exact crc h

end Sys2Proof.Machine
end

section
/-! The results of the MEM and TBL parts (spec/06_microcode.md R156 to R158). -/

namespace Sys2Proof.Machine

section
variable {s : State} {t : Nat}

/-- CAS stores its second operand where memory holds the first. -/
theorem memWritten_cas (f : MemArgs) : s.memWritten t 5 f =
    s.when (decide (fromLE (s.memBytes t f.space (s.memAddr t f) 8) = s.operand t f.imm 5 f.reg))
      (fun v => v.memStore t f.space (s.memAddr t f) (leBytes 8 (s.operand t f.imm 5 (f.reg + 1)))) := by
  simp only [State.memWritten, State.when, decide_eq_true_eq, Nat.add_zero]

/-- An uncorrectable result of the MEM part reaches its operands as 0, with a fault (R157; spec/05_brew_engines.md R135). -/
theorem execMemResultArrive_faults {p : Pending} {bad : Bool} (h : (s.thread t).pend.find? (fun p => !p.table) = some p)
    (hb : (bad || p.bad) = true) :
    execMemResultArrive t bad s =
      .next ((s.modThread t (fun th => th.deliver p (p.dests.map (fun _ => 0)))).wake.faultLater t 0x0C 0) := by
  simp only [execMemResultArrive, h, hb, if_true]

/-- The key registers of a TBL part that is no reserved encoding. -/
theorem tblReads_eq_block {op : Nat} {f : TblArgs} (h0 : op ≠ 0) (hok : tblOk op f = true) :
    tblReads op f = block f.key (tblKeyLen op f.table) :=
  if_neg (by simp [h0, hok])

/-- A served TBL part looks its key registers up, and its result is on its way (R158). -/
theorem tblCmd_awaits_block {u : State} {op : Nat} {f : TblArgs} {key : List Nat} (h : s.tblRuns t op f) (h0 : op ≠ 0) (strict : Bool)
    (hu : u = s.made t) (hk : key = (block f.key (tblKeyLen op f.table)).map (fun o => (u.thread t).ops.get o)) :
    s.tblCmd t op f strict = (u.tblDo t op f key).1.awaitsTable t op f key (u.tblDo t op f key).2 u.now := by
  have ⟨_, _, hok, _, _⟩ := h
  exact tblCmd_awaits h h0 strict hu (by rw [hk, tblReads_eq_block h0 hok]) rfl

/-- A damaged table result reaches its operands as what a table error gives (spec/04_parsing_and_tables.md R94, R113). -/
theorem execTblResultArrive_damaged {p : Pending} (h : (s.thread t).pend.find? (fun p => p.table) = some p) :
    execTblResultArrive t true s = .next (((s.tableError p.tableNo (clusterOf t / 4) p.key).1.retire (.lookup (clusterOf t))).modThread t
      (fun th => th.deliver p (s.tableError p.tableNo (clusterOf t / 4) p.key).2)).wake := by
  simp only [execTblResultArrive, h, if_true]

end

/-- Settles O19, operation by operation, then the results. -/
theorem memoryParts : Obligations.MemoryParts := by
  unfold Obligations.MemoryParts
  -- each operation's meaning stands for exec's arm
  dsimp only [exec]
  refine ⟨?ld, ?st, ?fadd, ?swap, ?cas, ?add, ?arrives, ?arrivesBad⟩
  case ld =>
    rintro s _ t f strict h rfl
    exact congrArg _ (memCmd_load h strict)
  case st | add =>
    rintro s _ t f strict h rfl
    exact congrArg _ (memCmd_stores h (by decide) strict)
  case fadd | swap =>
    rintro s _ t f strict h rfl
    exact congrArg _ (memCmd_atomic h (by decide) strict)
  case cas =>
    rintro s _ t f strict h rfl
    rw [execMemCas, memCmd_atomic h (by decide), memWritten_cas]
  case arrives => exact fun s p t h hb => execMemResultArrive_delivers h hb
  case arrivesBad => exact fun s p t bad h hb => execMemResultArrive_faults h hb

/-- Settles O20, operation by operation, then the results. -/
theorem tableParts : Obligations.TableParts := by
  unfold Obligations.TableParts
  -- each operation's meaning stands for exec's arm
  dsimp only [exec]
  refine ⟨?lookup, ?insert, ?delete, ?learn, ?arrives, ?arrivesDamaged⟩
  case lookup | insert | delete | learn =>
    exact fun s u t f strict key h hu hk => congrArg _ (tblCmd_awaits_block h (by decide) strict hu hk)
  case arrives => exact fun s p t h => execTblResultArrive_delivers h
  case arrivesDamaged => exact fun s p t h => execTblResultArrive_damaged h

end Sys2Proof.Machine
end

section
/-! The offload groups at work: requests of threads, the deferred stage, jobs without a frame and the groups' power
(spec/07_offloads.md R170 to R202, spec/12_queues_and_rings.md R308, spec/18_power_reset_package.md R407). -/

namespace Sys2Proof.Machine

/-- Nothing holds a stream request whose group is powered and whose packet has its turn (R173, R200). -/
theorem stream_notHeld {s : State} {m : ChanMsg} {p : Packet} {k : Nat} (hg : s.oflGated (s.groupOf m) = false)
    (hw : s.waitsTurn p k = false) : ¬(s.oflGated (s.groupOf m) || s.waitsTurn p k) = true := by
  simp [hg, hw]

/-- Settles O33, operation by operation. -/
theorem offloadRequests : Obligations.OffloadRequests := by
  unfold Obligations.OffloadRequests
  -- each operation's meaning stands for exec's arm
  dsimp only [exec]
  refine ⟨?registers, ?listFull, ?deferRefused, ?check, ?decrypt, ?decryptBadInput, ?tlsRx, ?tlsRefused, ?place⟩
  case registers =>
    intro s t h m p ha hst hl
    exact congrArg _ ((request_of ha _).trans ((if_neg (not_not.mpr hst)).trans (if_neg (Nat.not_le.mpr hl))))
  case listFull =>
    intro s t h m p ha hst hl
    exact congrArg _ ((request_of ha _).trans ((if_neg (not_not.mpr hst)).trans (if_pos hl)))
  case deferRefused => exact fun s t h m p ha hst => congrArg _ ((request_of ha _).trans (if_pos hst))
  case check => exact fun s t h m p ha => congrArg _ (request_of ha _)
  case decrypt =>
    intro s t h m p bad ha hg hb
    exact congrArg _ ((request_of ha _).trans ((if_neg (Bool.eq_false_iff.mp hg)).trans (if_neg (Bool.eq_false_iff.mp hb))))
  case decryptBadInput =>
    exact fun s t h m p bad ha hg hb => congrArg _ ((request_of ha _).trans ((if_neg (Bool.eq_false_iff.mp hg)).trans (if_pos hb)))
  case tlsRx =>
    rintro s _ t h o m p q bad ha hg hw rfl hst hq hd hb ho
    refine congrArg _ ((request_of ha _).trans ((if_neg (stream_notHeld hg hw)).trans ((if_neg (not_not.mpr hst)).trans ?_)))
    simp only [hq, hd, Option.getD_some, hb, ho, Bool.false_eq_true, if_false]
  case tlsRefused =>
    exact fun s t h m p bad ha hg hw hst => congrArg _ ((request_of ha _).trans ((if_neg (stream_notHeld hg hw)).trans (if_pos hst)))
  case place =>
    rintro s _ t h o m p q fault bad ha hg hw rfl hst hq hb ho
    refine congrArg _ ((request_of ha _).trans ((if_neg (stream_notHeld hg hw)).trans ((if_neg (not_not.mpr hst)).trans ?_)))
    simp only [hq, Option.getD_some, hb, ho, Bool.false_eq_true, if_false]

/-! ### The deferred stage and jobs without a frame -/

section
variable {s : State}

/-- A deferred packet with room on its way and its groups powered runs its list, or ends on a bad cell (R172, R202). -/
theorem execDeferredStage_ready {h : Nat} {p : Packet} (hp : s.pkt h = some p) (hst : p.stage = .deferred)
    (hc : s.enqueueCredit p.pipe (1 + b2n (bit p.verdict.word 59)) = true)
    (hg : p.deferred.any (fun d => d.unit != 0 && s.oflGated (s.servingGroup d.group)) = false) (bad : Bool) :
    execDeferredStage h bad s = .next (if (bad || p.badCell) = true
      then ((s.count .OFL_CTR (s.servingGroup (p.deferred.headD {}).group) C.OFL_CELL_CHECK).cellCheck (unitPipe p.pipe)).endPkt h false 0x0B p.ofl
      else s.runDeferred h p p.deferred) := by
  simp only [execDeferredStage, hp]
  exact congrArg _ (if_neg (by simp [hst, hc, hg]))

/-- A KEY_CHECK job of a powered group ends with its context's key check value, or with its context's status (R199). -/
theorem execJobKeyCheck_ends {job : Nat} {b : Job} (hj : s.jobWaiting job 1 = some b) (hg : s.oflGated (s.ring b.ring).pipe = false) :
    execJobKeyCheck job s = .next (
      let k := s.jobKey b.entry b.func b.noCtx
      if k.1 ≠ ST_OK then s.jobDone job 0x0B (oflWord k.1 k.2.2) 0 else s.jobDone job 0 (oflWord 0 k.2.2) (keyCheck k.2.1)) := by
  simp only [execJobKeyCheck, hj]
  exact congrArg _ (if_neg (Bool.eq_false_iff.mp hg))

/-- A well-formed BULK_GCM job of a powered group, whose context serves it, reads its source and works on it, or fails by a bad input
(R199, R202). -/
theorem execJobBulkGcm_reads {x : OflInput} {b : Job} (hj : s.jobWaiting x.src 2 = some b)
    (hg : s.oflGated (s.ring b.ring).pipe = false) (hk : (s.jobKey b.entry b.func b.noCtx).1 = ST_OK) (ho : bulkOverlap b.entry = false)
    (hl : leAt b.entry 0x1C 2 ≤ leAt b.entry 8 4 % 2 ^ 25) (reply : HostReply) :
    execJobBulkGcm x reply s = .next (s.jobRead x.src b reply (fun u buf => if x.bad then u.bulkFails x.src b
      else match u.bulkMiss b with
        | some a => u.atsMiss (u.ring b.ring).fn (u.ring b.ring).pasid a true (.buffer x.src)
        | none => u.bulk x.src b (s.jobKey b.entry b.func b.noCtx).2.1 (s.jobKey b.entry b.func b.noCtx).2.2 buf)) := by
  simp only [execJobBulkGcm, hj]
  exact congrArg _ ((if_neg (Bool.eq_false_iff.mp hg)).trans ((if_neg (not_not.mpr hk)).trans
    (if_neg (not_or.mpr ⟨Bool.eq_false_iff.mp ho, Nat.not_lt.mpr hl⟩))))

end

/-- Settles O34, row by row. -/
theorem offloadStages : Obligations.OffloadStages := by
  unfold Obligations.OffloadStages
  -- each row's meaning stands for exec's arm
  dsimp only [exec]
  refine ⟨?runs, ?badCell, ?keyCheck, ?keyRefused, ?bulk, ?bulkBadInput, ?digest, ?wakes⟩
  case runs =>
    exact fun s h p bad hp hst hc hg hb => (execDeferredStage_ready hp hst hc hg bad).trans (congrArg _ (if_neg (Bool.eq_false_iff.mp hb)))
  case badCell => exact fun s h p bad hp hst hc hg hb => (execDeferredStage_ready hp hst hc hg bad).trans (congrArg _ (if_pos hb))
  case keyCheck =>
    rintro s job b _ hj hg rfl hk
    exact (execJobKeyCheck_ends hj hg).trans (congrArg _ (if_neg (not_not.mpr hk)))
  case keyRefused =>
    rintro s job b _ hj hg rfl hk
    exact (execJobKeyCheck_ends hj hg).trans (congrArg _ (if_pos hk))
  case bulk | bulkBadInput =>
    rintro s job b _ reply hj hg rfl hk ho hl
    exact execJobBulkGcm_reads hj hg hk ho hl reply
  case digest =>
    intro s job b reply hj
    simp only [execJobDigest, hj]
  case wakes => exact fun s g hg hgt hw => congrArg _ ((if_pos ⟨hg, hgt, hw⟩).trans (if_pos hgt))

end Sys2Proof.Machine
end

section
/-! The commands for offload contexts, sessions, placements and MACsec SAs (spec/07_offloads.md R174 to R198). -/

namespace Sys2Proof.Machine

section
variable {s : State} {i : Nat}

/-- An ESP SA takes a free index while its owner's quota and the device have room; an outbound one at the end of its sequence space
is EXPIRED at once (R174, R185). -/
theorem createEsp_done {a : EspSa} (hq : s.espOf a.owner < (s.fn a.owner).grants.esp) (hl : s.espSas.length < ESP_COUNT)
    (hi : firstFree ESP_COUNT s.fresh (fun k => (s.espSas.get k).state != 0) = some i) :
    s.createEsp a = .done ((s.used.wakeGroups.setEsp i a).when (!a.inbound && decide (a.lastSeq ≤ a.seq)) (fun u => u.espExpire i)).oflUsed
      RC_OK [i, keyCheck a.key] := by
  unfold State.createEsp
  rw [if_neg (not_or.mpr ⟨Nat.not_le.mpr hq, Nat.not_le.mpr hl⟩), hi]

/-- A session takes a free index while its owner's quota and the device have room; a half not in use has a free check value
(R174; log 111). -/
theorem createSession_done {a : Session} (hq : s.sessOf a.owner < (s.fn a.owner).grants.sessions) (hl : s.sessions.length < SESSION_COUNT)
    (hi : firstFree SESSION_COUNT s.fresh (fun k => (s.sessions.get k).state != 0) = some i) :
    s.createSession a = .done (s.used.used.wakeGroups.setSession i a).oflUsed RC_OK
      [i, if a.tlsTx then keyCheck a.txKey else s.used.fresh % 2 ^ 32, if a.tlsRx then keyCheck a.rxKey else s.used.fresh % 2 ^ 32] := by
  unfold State.createSession
  rw [if_neg (not_or.mpr ⟨Nat.not_le.mpr hq, Nat.not_le.mpr hl⟩), hi]

/-- A command on a fenced session gives FENCED (R177). -/
theorem onSession_fenced {p : List Nat} (h3 : (s.sessions.get (ctxNo p)).state = 3) (ready : Session → Bool) (f : Session → Session)
    (resp : List Nat) : s.onSession p ready f resp = .done s RC_FENCED [] :=
  if_pos h3

/-- A port has room for an SA that does not receive, or whose secure channel it has already, or while it receives fewer than 64 (R187). -/
theorem macsecPort_hasRoom {a : MacsecSa}
    (h : a.rx = false ∨ (s.rxChannels a.port).contains a.sci = true ∨ (s.rxChannels a.port).length < 64) :
    ¬(a.rx = true ∧ (!(s.rxChannels a.port).contains a.sci) = true ∧ 64 ≤ (s.rxChannels a.port).length) := by
  rintro ⟨hrx, hnew, hfull⟩
  obtain hr | hc | hl := h
  · exact Bool.eq_false_iff.mp hr hrx
  · rw [hc] at hnew
    exact Bool.false_ne_true hnew
  · exact Nat.not_lt.mpr hfull hl

end

/-- Settles O39, command by command. -/
theorem offloadObjects : Obligations.OffloadObjects := by
  unfold Obligations.OffloadObjects
  -- each command's meaning stands for exec's arm
  dsimp only [exec]
  refine ⟨?caps, ?createEsp, ?createSession, ?destroy, ?destroyBusy, ?query, ?modify, ?modifyFenced, ?notify, ?quota, ?quotaBusy,
    ?tlsResync, ?tlsResyncFenced, ?rekey, ?nvmeResync, ?placeDrop, ?saReplace, ?saFenced, ?saAdd, ?saRemove, ?txAn⟩
  case caps =>
    rintro s e c _ h rfl
    exact eci_of h rfl rfl rfl rfl
  case createEsp =>
    rintro s e c _ i _ h rfl hd hb h0 rfl hq hl hi
    exact eci_of h rfl hd hb ((if_pos h0).trans (createEsp_done hq hl hi))
  case createSession =>
    rintro s e c _ i _ _ h rfl hd hb h1 rfl rfl hq hl hi
    exact eci_of h rfl hd hb ((if_neg (by omega)).trans (createSession_done hq hl hi))
  case destroy =>
    rintro s e c _ h rfl hd hb hfree
    exact eci_of h rfl hd hb (if_neg fun ⟨hk, hbusy⟩ => hfree.elim hk (fun hn => Bool.eq_false_iff.mp hn hbusy))
  case destroyBusy =>
    rintro s e c _ h rfl hd hb hk hbusy
    exact eci_held h rfl hd hb (if_pos ⟨hk, hbusy⟩)
  case query | placeDrop =>
    rintro s e c _ h rfl hd hb
    exact eci_of h rfl hd hb rfl
  case modify =>
    rintro s e c _ h rfl hd hb h3
    exact eci_of h rfl hd hb (if_neg h3)
  case modifyFenced =>
    rintro s e c _ h rfl hd hb h3
    exact eci_of h rfl hd hb (if_pos h3)
  case notify =>
    rintro s e c _ _ h rfl rfl
    exact eci_of h rfl rfl rfl rfl
  case quota =>
    rintro s e c p _ h hc hm hb hesp hsess hplaces rfl
    exact eci_managed h hc hm rfl hb (if_neg (by omega))
  case quotaBusy => exact fun s e c p h hc hm hb hover => eci_managed h hc hm rfl hb (if_pos hover)
  case tlsResync =>
    rintro s e c _ _ h rfl hd hb rfl h3 hr
    exact eci_of h rfl hd hb (onSession_ready _ _ h3 (bne_iff_ne.mpr hr))
  case tlsResyncFenced =>
    rintro s e c _ h rfl hd hb h3
    exact eci_of h rfl hd hb (onSession_fenced h3 _ _ _)
  case rekey =>
    rintro s e c _ _ _ h rfl hd hb rfl h3 hr rfl
    exact eci_of h rfl hd hb (onSession_ready _ _ h3 (bne_iff_ne.mpr hr))
  case nvmeResync =>
    rintro s e c _ _ h rfl hd hb rfl h3 hr
    exact eci_of h rfl hd hb (onSession_ready _ _ h3 (by simpa using hr))
  case saReplace =>
    rintro s e c p i _ h hc h0 hm hb rfl hi h3
    exact eci_managed h hc hm h0 hb (by dsimp only; rw [hi]; exact if_neg h3)
  case saFenced =>
    intro s e c p i h hc h0 hm hb hi h3
    exact eci_managed h hc hm h0 hb (by dsimp only; rw [hi]; exact if_pos h3)
  case saAdd =>
    rintro s e c p i _ h hc h0 hm hb rfl hn hr hi
    exact eci_managed h hc hm h0 hb (by dsimp only; rw [hn]; exact (if_neg (macsecPort_hasRoom hr)).trans (by rw [hi]))
  case saRemove =>
    intro s e c p i h hc h0 hm hb hi
    exact eci_managed h hc hm h0 hb (by dsimp only; rw [hi]; rfl)
  case txAn => exact fun s e c p h hc hm => eci_managed h hc hm rfl rfl rfl

end Sys2Proof.Machine
end

section
/-! The traffic manager: enqueue by verdict, scheduling, gates, launch times, the node window, observation and its commands
(spec/08_traffic_manager.md R204 to R226). -/

namespace Sys2Proof.Machine

/-! ### Enqueue by verdict (R206, R208) -/

/-- A frame at the traffic manager is enqueued while the core is not stopped. -/
theorem enqueue_ready {s : State} {p : Packet} (hst : p.stage = .toTm) (hc : s.coreStopped = false) :
    ¬(p.stage ≠ .toTm ∨ s.coreStopped = true) := not_or.mpr ⟨not_not.mpr hst, Bool.eq_false_iff.mp hc⟩

/-- Settles O26, verdict by verdict. -/
theorem enqueueing : Obligations.Enqueueing := by
  unfold Obligations.Enqueueing
  -- the row's meaning stands for exec's arm
  dsimp only [exec]
  refine ⟨?port, ?host, ?hostClosed, ?queue, ?mcast, ?manager⟩
  case port =>
    -- a frame from the wire has no job, whose ring could lie under another port
    rintro s _ h _ p hp hst hc rfl ha hw rfl
    simp only [execTmEnqueue, hp, if_neg (enqueue_ready hst hc), ha, hw, Bool.not_true, Bool.false_and, State.when, Bool.false_eq_true,
      if_false]
  case host | manager =>
    rintro s _ h k p hp hst hc rfl ha hk
    simp only [execTmEnqueue, hp, if_neg (enqueue_ready hst hc), ha, hk]
  case hostClosed =>
    rintro s _ h p hp hst hc rfl ha hk
    simp only [execTmEnqueue, hp, if_neg (enqueue_ready hst hc), ha, hk, State.noRing]
  case queue =>
    rintro s _ h _ p hp hst hc rfl ha rfl
    simp only [execTmEnqueue, hp, if_neg (enqueue_ready hst hc), ha]
  case mcast =>
    rintro s _ h p hp hst hc rfl ha
    simp only [execTmEnqueue, hp, if_neg (enqueue_ready hst hc), ha]

/-! ### Launch times and the node window (R205, R220) -/

/-- The one frame of a queue that its MAC holds starts at its launch time whatever it interrupts, when its class is express
(R220; spec/03_ports.md R78). -/
theorem execLaunchTimeStart_express {s : State} {q n h l : Nat} {p : Packet} (x : TxIo) (hq : n = s.queuePort q) (hn : n < 16)
    (hm : s.pkts.filter (fun e => e.2.stage == .txCell n && e.2.queue == q) = [(h, p)]) (hp : p.launch = some l)
    (hlt : (s.node 3 q).ltEn = true) (hleave : s.mayLeave n p = true) (hw : s.onWire n = none) (hl : s.on F.PRT_STATUS_LINK_UP n = true)
    (hf : s.isFenced (unitPort n) 0 = false) (hx : s.preemptable n (s.node 3 q).tc = false) :
    execLaunchTimeStart ⟨q, x⟩ s = .next (s.startTx n h p x) := by
  subst hq
  simp only [execLaunchTimeStart]
  rw [hm]
  simp [hn, hp, hlt, hleave, hw, hl, hf, hx]

/-- A write with GO and WRITE whose node may take the window's data writes that node (R205). -/
theorem nodeCmd_writes {s u : State} {v : Nat} (hgo : bit v 31 = true)
    (hu : u = ((s.wr F.TM_NODE_CMD_WRITE 0 (bits v 30 30)).wr F.TM_NODE_CMD_LEVEL 0 (bits v 29 28)).wr F.TM_NODE_CMD_INDEX 0 (bits v 16 0))
    (hi : bits v 16 0 < nodeCount (bits v 29 28)) (hw : bit v 30 = true)
    (hr : u.nodeRefused (bits v 29 28) (bits v 16 0) u.windowBytes = false) :
    s.nodeCmd v = (u.writeNode (bits v 29 28) (bits v 16 0) u.windowBytes).wr F.TM_NODE_CMD_RESULT 0 0 := by
  subst hu
  exact (if_pos hgo).trans ((if_neg (Nat.not_le.mpr hi)).trans ((if_pos hw).trans (if_neg (Bool.eq_false_iff.mp hr))))

/-- TM_OBS_CFG takes a write for high-water mode, or for histogram mode while at most 8192 queues are enabled (R222). -/
theorem obsCfg_takes {s t : State} {v : Nat} (h : bit v 31 = true ∨ s.rd F.TM_OBS_QUEUES_ENABLED 0 ≤ 8192)
    (ht : t = ((s.wr F.TM_OBS_CFG_MODE 0 (bits v 31 31)).wrLegal F.TM_OBS_CFG_DEPTH_SHIFT 0 (bits v 12 8)).wrLegal
      F.TM_OBS_CFG_DELAY_SHIFT 0 (bits v 4 0)) :
    s.obsCfg v = if t.val .TM_OBS_CFG 0 = s.val .TM_OBS_CFG 0 then t else t.clearObs := by
  subst ht
  refine if_neg fun ⟨hmode, hmany⟩ => ?_
  obtain hb | hle := h
  · simp [hb] at hmode
  · exact Nat.not_lt.mpr hle hmany

/-- Settles O27, row by row. -/
theorem scheduling : Obligations.Scheduling := by
  unfold Obligations.Scheduling
  -- each row's meaning stands for exec's arm
  dsimp only [exec]
  refine ⟨?schedule, ?launch, ?gate, ?gateList, ?nodeWrite, ?reload, ?obsCfg, ?sample, ?alarm⟩
  case schedule =>
    exact fun s slice port hsl hp hh hf hc => congrArg _ (if_pos ⟨hsl, hp, hh, by simpa using hf, by simpa using hc⟩)
  case launch =>
    intro s q h l port p x hq hn hm hp hlt hleave hw hl hf hx
    obtain hx | hx := hx
    · exact execLaunchTimeStart_express x hq hn hm hp hlt hleave hw hl hf hx
    · exact execLaunchTimeStart_due x hq hn hm hp hlt hleave hw hl hf hx
  case gate => exact fun s port hn => congrArg _ (if_pos hn)
  case gateList =>
    intro s port g hg ht
    simp only [execGclChangeTime, hg, if_pos ht]
  case nodeWrite =>
    exact fun s u fn v hm hgo hu hi hw hr => congrArg _ ((asManager_of hm _).trans (nodeCmd_writes hgo hu hi hw hr))
  case reload => exact fun s q hq hf hn => congrArg _ (if_pos ⟨hq, hf, List.isEmpty_iff.mpr hn⟩)
  case obsCfg => exact fun s t fn v hm h ht => congrArg _ ((asManager_of hm _).trans (obsCfg_takes h ht))
  case sample => exact fun s hm ho => congrArg _ (if_neg (not_or.mpr ⟨Bool.eq_false_iff.mp hm, ho⟩))
  case alarm => exact fun s q hq h0 hd hn => congrArg _ (if_pos ⟨hq, h0, hd, by simpa using hn⟩)

/-! ### Commands (R205, R208, R225, R226) -/

section
variable {s : State} {p : List Nat}

/-- Nothing keeps a node from going that has no children and that, at the queue level, no ring is bound to and holds no frame (R205). -/
theorem node_unused (hch : s.children (nodeOf p).1 (nodeOf p).2 = [])
    (hq : (nodeOf p).1 = 3 → s.queueBound (nodeOf p).2 = false ∧ (s.node 3 (nodeOf p).2).frames = []) :
    ¬((!(s.children (nodeOf p).1 (nodeOf p).2).isEmpty) = true ∨ ((nodeOf p).1 = 3 ∧
      (s.queueBound (nodeOf p).2 = true ∨ ((!bit (p.getD 0 0) 31) = true ∧ (!(s.node 3 (nodeOf p).2).frames.isEmpty) = true)))) := by
  rintro (hc | ⟨h3, hb | ⟨-, hf⟩⟩)
  · simp [hch] at hc
  · simp [(hq h3).1] at hb
  · simp [(hq h3).2] at hf

/-- TM_NODE_DESTROY removes a node that nothing uses (R205). -/
theorem tmNodeDestroy_removes {e : Eci} {c : EciCmd} (h : s.serves e c 0x0402 [3 + 2 ^ 31, low 17]) (hc : p = c.words)
    (hd : s.nodeDenied e.fn p = false)
    (hb : (noNode p || (nodeOf p).1 == 0 || !(s.node (nodeOf p).1 (nodeOf p).2).en || ((nodeOf p).1 == 3 && isDefaultQueue (nodeOf p).2)) = false)
    (hch : s.children (nodeOf p).1 (nodeOf p).2 = [])
    (hq : (nodeOf p).1 = 3 → s.queueBound (nodeOf p).2 = false ∧ (s.node 3 (nodeOf p).2).frames = []) :
    execTmNodeDestroy e s = .next ((s.removeNode (nodeOf p).1 (nodeOf p).2).answers e RC_OK []) := by
  subst hc
  exact eci_of h rfl hd hb (if_neg (node_unused hch hq))

end

/-- Settles O37, command by command. -/
theorem schedulerCommands : Obligations.SchedulerCommands := by
  unfold Obligations.SchedulerCommands
  -- each command's meaning stands for exec's arm
  dsimp only [exec]
  refine ⟨?caps, ?create, ?destroy, ?destroyQueue, ?set, ?query, ?flush, ?mcastClear, ?mcastSet, ?mcastQuery, ?obsDump, ?grant⟩
  case caps =>
    rintro s e c _ h rfl
    exact eci_of h rfl rfl rfl rfl
  case create =>
    rintro s e c _ t rc w h rfl hd hb ha hn
    exact eci_of h rfl hd hb ((if_neg (Bool.eq_false_iff.mp ha)).trans hn)
  case destroy => exact fun s e c p h hc hd hb hch h3 => tmNodeDestroy_removes h hc hd hb hch (absurd · h3)
  case destroyQueue =>
    intro s e c p h hc hd hb hch h3 hbound hframes
    rw [tmNodeDestroy_removes h hc hd hb (h3 ▸ hch) fun _ => ⟨hbound, hframes⟩, h3]
  case set =>
    rintro s e c _ h rfl hd hb ha hn
    exact eci_of h rfl hd hb ((if_neg (Bool.eq_false_iff.mp ha)).trans (if_neg (not_not.mpr hn)))
  case query =>
    rintro s e c _ h rfl hd hb
    exact eci_of h rfl hd hb rfl
  case flush =>
    rintro s e c _ h rfl hd
    exact eci_of h rfl hd rfl rfl
  case mcastClear =>
    intro s e c p h hc hm hb h0 hroom
    refine eci_managed h hc hm rfl hb ?_
    simp only [h0, if_true]
    exact (if_neg Bool.false_ne_true).trans (if_neg (by omega))
  case mcastSet =>
    rintro s e c p t b rc _ h hc hm hb h0 hio rfl hbad hroom
    refine eci_managed h hc hm rfl hb ?_
    simp only [if_neg h0, hio]
    exact (if_neg (Bool.eq_false_iff.mp hbad)).trans (if_neg (Nat.not_lt.mpr hroom))
  case mcastQuery => exact fun s e c p t rc w h hc hm hout => eci_managed h hc hm rfl rfl hout
  case obsDump =>
    rintro s e c _ h rfl hd hb hl hmode
    exact eci_started h rfl hd hb ((if_neg (Bool.eq_false_iff.mp hl)).trans (if_neg (by simpa [imp_iff_not_or] using hmode)))
  case grant => exact fun s e c p t rc w h hc hm hb hn => eci_managed h hc hm rfl hb hn

end Sys2Proof.Machine
end

section
/-! The release unit, the stamps and the evidence journal (spec/09_release_and_evidence.md R228 to R253), and the floors of a
mirror pair's release (spec/10_redundancy.md R269). -/

namespace Sys2Proof.Machine

/-! ### The release unit (R228, R229, R232, R234, R235, R239, R240, R269) -/

/-- A frame of a group's source passes on when no destination entry matches it; one that matches is dropped when it exceeds its
source's bucket and held otherwise (R229, R232, R234). -/
theorem execRelEnqueue_sourced {s : State} {h g k : Nat} {p : Packet} (hp : s.pkt h = some p) (hst : p.stage = .toRelease)
    (hs : s.sourceGroup p = some (g, k)) :
    execRelEnqueue h s = .next ((s.destEntry ((s.groupsFor p.epoch).get g) p).elim ((s.count .REL_CTR 0 C.REL_PASSED).enterQueue h p.queue)
      fun _ => (s.police g k (((s.groupsFor p.epoch).get g).src.getD k 0) p.data.length).elim
        (((s.count .REL_CTR 0 C.REL_OVER_RATE_DROP).raiseMs Ev.REL_OVER_RATE).dropPkt h 7) (·.holdFrame h g p)) := by
  simp only [execRelEnqueue, hp, hs, if_neg (not_not.mpr hst)]
  cases s.destEntry ((s.groupsFor p.epoch).get g) p with
  | none => rfl
  | some e => cases s.police g k (((s.groupsFor p.epoch).get g).src.getD k 0) p.data.length <;> rfl

/-- Nothing is released while no head is due (R235). -/
theorem releaseDue_none {s : State} (h : s.dueHead = none) (n : Nat) : s.releaseDue n = s := by
  cases n with
  | zero => rfl
  | succ n => rw [State.releaseDue, h]

/-- The due head is released, and the cycle goes on with one release fewer (R235). -/
theorem releaseDue_succ {s : State} {h g : Nat} {p : Packet} (hd : s.dueHead = some (h, p, g)) (n : Nat) :
    s.releaseDue (n + 1) = (s.releaseNow h g).releaseDue n := by
  rw [State.releaseDue, hd]

/-- A write of REL_DEVICE is logged, and stores nothing, while a group is enabled (R228). -/
theorem relDevice_logged {s : State} (h : s.groupEnabled = true) (v : Nat) : s.relDevice v = s.logFwWrite 0x07000000 v := if_pos h

/-- A write of REL_DEVICE is stored and journalled with the old and the new value while no group is enabled (R228). -/
theorem relDevice_written {s : State} {v old new : Nat} (h : s.groupEnabled = false) (hold : old = s.val .REL_DEVICE 0)
    (hnew : new = putBits (putBits 0 11 0 v) 31 31 (v / 2 ^ 31)) :
    s.relDevice v = (s.put .REL_DEVICE 0 new).journalCfg 0x06 1
      (leBytes 2 (bits old 11 0 + 2 ^ 15 * bits old 31 31) ++ leBytes 2 (bits new 11 0 + 2 ^ 15 * bits new 31 31)) := by
  subst hold hnew
  exact if_neg (Bool.eq_false_iff.mp h)

/-- A write of REL_CFG whose capacity the admitted groups exceed is logged, and stores nothing (R239). -/
theorem relCfg_logged {s : State} {v : Nat} (h : s.capacityOf (bit v 31 && s.on F.HBM_REGION_EN 5)
      (if 4 ≤ bits v 6 0 ∧ bits v 6 0 ≤ 64 then bits v 6 0 else s.rd F.REL_CFG_CARAFE_MIB 0) < s.val .REL_ADMITTED 0) :
    s.relCfg v = s.logFwWrite 0x07000004 v := if_pos h

/-- A write of REL_CFG whose capacity holds the admitted groups stores SPILL_EN, CARAFE_MIB and the capacity (R239). -/
theorem relCfg_written {s : State} {v mib : Nat} {spill : Bool} (hspill : spill = (bit v 31 && s.on F.HBM_REGION_EN 5))
    (hmib : mib = (if 4 ≤ bits v 6 0 ∧ bits v 6 0 ≤ 64 then bits v 6 0 else s.rd F.REL_CFG_CARAFE_MIB 0))
    (h : s.val .REL_ADMITTED 0 ≤ s.capacityOf spill mib) :
    s.relCfg v = ((s.wr F.REL_CFG_SPILL_EN 0 (b2n spill)).wr F.REL_CFG_CARAFE_MIB 0 mib).put .REL_CAPACITY 0 (s.capacityOf spill mib) := by
  subst hspill hmib
  exact if_neg (Nat.not_lt.mpr h)

/-- Settles O25, row by row. -/
theorem releaseUnit : Obligations.ReleaseUnit := by
  unfold Obligations.ReleaseUnit
  -- each row's meaning stands for exec's arm
  dsimp only [exec]
  refine ⟨?passes, ?overRate, ?held, ?noneDue, ?oneDue, ?spillBad, ?spillBack, ?floor, ?device, ?deviceLogged, ?cfg, ?cfgLogged⟩
  case passes =>
    intro s h g k p hp hst hs hd
    rw [execRelEnqueue_sourced hp hst hs, hd, Option.elim_none]
  case overRate =>
    intro s h g k e p hp hst hs hd hpol
    rw [execRelEnqueue_sourced hp hst hs, hd, hpol, Option.elim_some, Option.elim_none]
  case held =>
    intro s u h g k e p hp hst hs hd hpol
    rw [execRelEnqueue_sourced hp hst hs, hd, hpol, Option.elim_some, Option.elim_some]
  case noneDue =>
    rintro s _ rfl hn
    exact congrArg _ (releaseDue_none hn 4)
  case oneDue =>
    rintro s _ h g p rfl hd hn
    exact congrArg _ ((releaseDue_succ hd 3).trans (releaseDue_none hn 3))
  case spillBad =>
    intro s h g p hp hst hsp
    simp [execRelSpillReturn, hp, hst, hsp]
  case spillBack =>
    rintro s _ h g p hp hst hsp rfl
    simp [execRelSpillReturn, hp, hst, hsp, State.unspill]
  case floor =>
    intro s g f hf hle
    simp only [execMirFloorLapse, hf]
    exact congrArg _ (if_neg (Bool.eq_false_iff.mp hle))
  case device => exact fun s fn v old new hm hg hold hnew => congrArg _ ((asManager_of hm _).trans (relDevice_written hg hold hnew))
  case deviceLogged => exact fun s fn v hm hg => congrArg _ ((asManager_of hm _).trans (relDevice_logged hg v))
  case cfg => exact fun s fn v mib spill hm hs hmib hle => congrArg _ ((asManager_of hm _).trans (relCfg_written hs hmib hle))
  case cfgLogged => exact fun s fn v hm hlt => congrArg _ ((asManager_of hm _).trans (relCfg_logged hlt))

/-! ### Stamps and the evidence journal (R243 to R253) -/

/-- The oldest record may be taken while the journal is written, no page is awaited and the ring has room (R246). -/
theorem record_ready {s : State} (hw : s.jnlWriting = true) (hf : s.journal.faulted = false) (hlt : s.jnlHeld < s.jnlSize) :
    ¬(!s.jnlWriting || s.journal.faulted || decide (s.jnlSize ≤ s.jnlHeld)) = true := by
  simp [hw, hf, hlt]

/-- A consumer index beyond PROD, or more than one ring behind it, is logged and keeps its old value (R246). -/
theorem jnlCons_logged {s : State} {v : Nat} (h : s.jnlSize < ixSub (s.val .JNL_PROD 0) (v % 2 ^ 32)) :
    s.jnlCons v = s.logFwWrite 0x07008010 v := if_pos h

/-- A consumer index within the ring is stored (R246). -/
theorem jnlCons_written {s : State} {v : Nat} (h : ixSub (s.val .JNL_PROD 0) (v % 2 ^ 32) ≤ s.jnlSize) :
    s.jnlCons v = (s.put .JNL_CONS 0 (v % 2 ^ 32)).jnlFull := if_neg (Nat.not_lt.mpr h)

/-- Settles O30, row by row. -/
theorem journalChain : Obligations.JournalChain := by
  unfold Obligations.JournalChain
  -- each row's meaning stands for exec's arm
  dsimp only [exec]
  refine ⟨?jobStamp, ?ringStamp, ?gap, ?digest, ?commit, ?page, ?checkpoint, ?signed, ?clock, ?consLogged, ?cons, ?ctrl⟩
  case jobStamp =>
    rintro s _ port j b e rest hf hr hj rfl hb
    simp only [execStampFifoDrain, hf, hr, hj, hb]
  case ringStamp =>
    intro s port e rest hf hr hj ho
    simp only [execStampFifoDrain, hf, hr, hj, if_neg (Bool.eq_false_iff.mp ho)]
  case gap => exact fun s port h0 ht => congrArg _ (if_pos ⟨h0, ht⟩)
  case digest =>
    intro s j ring rx hj hn hd
    simp only [execJnlDigestClose, hj]
    exact congrArg _ (if_pos ⟨by simpa using hn, hd⟩)
  case commit =>
    intro s r rest hb hw hf hlt
    simp only [execJnlRecordCommit, hb]
    exact (if_neg (record_ready hw hf hlt)).trans (if_neg Bool.false_ne_true)
  case page =>
    intro s t r rest hb hw hf hlt hp
    simp only [execJnlRecordCommit, hb, hp]
    exact (if_neg (record_ready hw hf hlt)).trans (if_pos trivial)
  case checkpoint =>
    intro s h hh hd hs
    simp only [execJnlCheckpoint, hh]
    exact congrArg _ (if_pos ⟨by simpa using hd, hs⟩)
  case signed =>
    intro s q w sig rest hl
    simp only [execJnlSignatureDone, hl]
  case clock => exact fun s cause hc => congrArg _ (if_pos hc)
  case consLogged => exact fun s fn v hm hlt => congrArg _ ((asManager_of hm _).trans (jnlCons_logged hlt))
  case cons => exact fun s fn v hm hle => congrArg _ ((asManager_of hm _).trans (jnlCons_written hle))
  case ctrl =>
    -- LOG2_RECORDS is held, and its write logged, only while EN = 1
    exact fun s fn v hm hen => congrArg _ ((asManager_of hm _).trans (by simp [State.jnlCtrl, hen]))

end Sys2Proof.Machine
end

section
/-! Frame replication and elimination, the mirror pair, and the commands of both (spec/10_redundancy.md R256 to R269). -/

namespace Sys2Proof.Machine

/-! ### Elimination on receive (R260 to R264) -/

/-- Before a member frame, those are decided that came with it from lower-numbered ports (R261). -/
theorem execFrerRxDecision_ordered {s : State} {h : Nat} {p : Packet} (hp : s.pkt h = some p) (hst : p.stage = .frer) :
    execFrerRxDecision h s = .next ((s.each (s.frerBefore p) (fun e t => t.frerDecide e.1 e.2)).frerDecide h p) := by
  simp only [execFrerRxDecision, hp, if_neg (not_not.mpr hst)]

/-- A member frame that no other came with is decided at once (R261). -/
theorem execFrerRxDecision_alone {s : State} {h : Nat} {p : Packet} (hp : s.pkt h = some p) (hst : p.stage = .frer)
    (hb : s.frerBefore p = []) : execFrerRxDecision h s = .next (s.frerDecide h p) := by
  rw [execFrerRxDecision_ordered hp hst, hb]
  rfl

/-- A frame whose context is unused marks its member seen and passes as it is (log 116). -/
theorem frerDecide_unused {s : State} {h : Nat} {p : Packet} (hk : (s.ctx p.memberCtx).kind = 0) :
    s.frerDecide h p =
      (s.memberSeen ((p.member.map (·.1)).getD 0) (shortOf p.stamp)).setPkt h { p with stage := .received, since := s.now } :=
  if_pos (.inl hk)

/-- A recovery context decides on a frame without an R-TAG as on one that carries no number (R260). -/
theorem frerDecide_tagless {s : State} {h : Nat} {p : Packet} (hk : (s.ctx p.memberCtx).kind = 2)
    (hf : (s.memberSeen ((p.member.map (·.1)).getD 0) (shortOf p.stamp)).isFenced (unitObject 6) p.memberCtx = false)
    (hn : rTag p.data = none) :
    s.frerDecide h p = (s.memberSeen ((p.member.map (·.1)).getD 0) (shortOf p.stamp)).frerTagless h p.memberCtx p := by
  simp [State.frerDecide, hk, hf, FrerCtx.numberOf, hn]

/-- Settles O24, row by row. -/
theorem redundancy : Obligations.Redundancy := by
  unfold Obligations.Redundancy
  -- each row's meaning stands for exec's arm
  dsimp only [exec]
  refine ⟨?unnamed, ?named, ?unused, ?numbered, ?tagless, ?ordered, ?timeout, ?mmPop⟩
  case unnamed =>
    intro s port f hm hprp
    rw [State.frerIdentify, hm, hprp, when_false]
  case named =>
    intro s port m f hm
    rw [State.frerIdentify, hm]
  case unused =>
    intro s h p hp hst hb hk
    rw [execFrerRxDecision_alone hp hst hb, frerDecide_unused hk]
  case numbered =>
    rintro s _ h _ seq p hp hst hb rfl rfl hk hf hn
    rw [execFrerRxDecision_alone hp hst hb, frerDecide_numbered hk (Bool.eq_false_iff.mp hf) hn]
  case tagless =>
    rintro s _ h _ p hp hst hb rfl rfl hk hf hn
    rw [execFrerRxDecision_alone hp hst hb, frerDecide_tagless hk hf hn]
  case ordered =>
    intro s h k p q hp hst hb
    rw [execFrerRxDecision_ordered hp hst, hb]
    rfl
  case timeout =>
    intro s c t hp hk ht
    simp only [execFrerRecoveryTimeout, hp, if_pos (And.intro hk ht)]
  case mmPop => exact fun s fn v hm h31 => congrArg _ ((asManager_of hm _).trans (if_pos h31))

/-! ### The mirror pair (R266 to R269) -/

/-- A message is the peer's when its version, sender and pair are those of the pair and it holds a whole header. -/
theorem mirMessage_mine {s : State} {msg : Bytes} (hv : leAt msg 0 1 = 1) (hpeer : beAt msg 2 2 = s.rd F.MIR_CTRL_PEER 0)
    (hpair : beAt msg 4 4 = s.mir.pair) (hlen : 16 ≤ msg.length) :
    ¬(!(leAt msg 0 1 == 1 && beAt msg 2 2 == s.rd F.MIR_CTRL_PEER 0 && beAt msg 4 4 == s.mir.pair && decide (16 ≤ msg.length))) = true := by
  simp [hv, hpeer, hpair, hlen]

/-- A takeover goes on at a standby that has kept a HEAD (R268). -/
theorem mirTakeover_standby {α : Type} {s : State} (h2 : s.mirRole = 2) (hh : s.mir.heads.isEmpty = false) (diverged notReady go : α) :
    (if s.mirRole = 3 then diverged else if s.mirRole ≠ 2 ∨ s.mir.heads.isEmpty then notReady else go) = go := by
  rw [if_neg (by omega), if_neg (not_or.mpr ⟨not_not.mpr h2, Bool.eq_false_iff.mp hh⟩)]

/-- Settles O40, command by command, then what the pair sends, keeps and reports. -/
theorem redundancyAndMirror : Obligations.RedundancyAndMirror := by
  unfold Obligations.RedundancyAndMirror
  -- each row's meaning stands for exec's arm
  dsimp only [exec]
  refine ⟨?caps, ?memberSet, ?memberClear, ?ctxSet, ?ctxClear, ?ctxBusy, ?ctxQuery, ?ctxQueryHist, ?ctxReset, ?ctxFenced, ?periodic,
    ?dualPrimary, ?message, ?silent, ?resyncDone, ?resyncDue, ?mirCfg, ?mirStatus, ?takeover, ?takeoverNamed, ?diverges, ?resolve, ?resync,
    ?resyncNotReady⟩
  case caps => exact fun s e c p h hc hm => eci_managed h hc hm rfl rfl rfl
  case memberSet | ctxSet => exact fun s e c p h hc h31 hm hb => eci_managed h hc hm h31 hb rfl
  case memberClear => exact fun s e c p h hc h31 hm => eci_managed h hc hm h31 rfl rfl
  case ctxClear => exact fun s e c p h hc h31 hm hu => eci_managed h hc hm h31 rfl (if_neg (Bool.eq_false_iff.mp hu))
  case ctxBusy => exact fun s e c p h hc h31 hm hu => eci_managed h hc hm h31 rfl (if_pos hu)
  case ctxQuery => exact fun s e c p h hc hm h0 => eci_managed h hc hm rfl rfl (if_pos h0)
  case ctxQueryHist => exact fun s e c p t rc w h hc hm h0 hout => eci_managed h hc hm rfl rfl ((if_neg h0).trans hout)
  case ctxReset => exact fun s e c p h hc hm hb hf => eci_managed h hc hm rfl hb (if_neg (Bool.eq_false_iff.mp hf))
  case ctxFenced => exact fun s e c p h hc hm hb hf => eci_managed h hc hm rfl hb (if_pos hf)
  case periodic =>
    rintro s _ h1 hdue rfl
    exact congrArg _ (if_pos ⟨h1, hdue⟩)
  case dualPrimary =>
    intro s msg h1 hv hkind hpeer hpair hlen
    exact congrArg _ ((if_neg (mirMessage_mine hv hpeer hpair hlen)).trans ((if_pos h1).trans (if_pos (beq_iff_eq.mpr hkind))))
  case message =>
    intro s msg h2 hv hpeer hpair hlen
    exact congrArg _ ((if_neg (mirMessage_mine hv hpeer hpair hlen)).trans ((if_neg (by omega)).trans (if_neg (by omega))))
  case silent => exact fun s h2 hs ht => congrArg _ (if_pos ⟨h2, by simpa using hs, ht⟩)
  case resyncDone =>
    rintro s _ rfl hr hl
    exact congrArg _ (if_pos ⟨hr, List.isEmpty_iff.mpr hl⟩)
  case resyncDue =>
    rintro s _ rfl hl
    exact congrArg _ (if_neg fun ⟨_, he⟩ => hl (List.isEmpty_iff.mp he))
  case mirCfg =>
    rintro s e c p _ h hc hm hb rfl
    exact eci_managed h hc hm rfl hb rfl
  case mirStatus =>
    rintro s e c p _ h hc hm rfl
    exact eci_managed h hc hm rfl rfl rfl
  case takeover =>
    intro s e c p t rc w h hc hm h2 hh h0 ht
    exact eci_managed h hc hm rfl rfl ((mirTakeover_standby h2 hh _ _ _).trans ((if_pos h0).trans ht))
  case takeoverNamed =>
    -- the named HEAD is neither newer than every kept one nor of another chain or tag
    intro s e c p t rc w h hc hm h2 hh h0 hnew hother ht
    exact eci_managed h hc hm rfl rfl ((mirTakeover_standby h2 hh _ _ _).trans ((if_neg h0).trans
      ((if_neg (Bool.eq_false_iff.mp hnew)).trans ((if_neg (Bool.eq_false_iff.mp hother)).trans ht))))
  case diverges =>
    intro s e c p h hc hm h2 hh h0 hnew hother
    exact eci_managed h hc hm rfl rfl ((mirTakeover_standby h2 hh _ _ _).trans ((if_neg h0).trans
      ((if_neg (Bool.eq_false_iff.mp hnew)).trans (if_pos hother))))
  case resolve => exact fun s e c p t rc w h hc hm h3 ht => eci_managed h hc hm rfl rfl ((if_neg (not_not.mpr h3)).trans ht)
  case resync =>
    intro s e c p h hc hm h1 hn
    exact eci_managed h hc hm rfl rfl ((if_neg (not_not.mpr h1)).trans (if_neg (by simp [hn])))
  case resyncNotReady => exact fun s e c p h hc hm h1 => eci_managed h hc hm rfl rfl (if_pos h1)

end Sys2Proof.Machine
end

section
/-! Refusals of the manager's register space and of commands (spec/11_host_interface.md R277, R279; spec/13_control_interface.md R327,
R328), what a fence leaves (spec/17_errors_and_service.md R387 to R391), and the order of commands
(spec/95_what_each_step_holds.md). -/

namespace Sys2Proof.Machine

/-! ### The manager's register space (R277, R279) -/

/-- A function that does not hold the manager role has no BAR2, or its access is counted. -/
theorem asManager_refused {s : State} {fn : Nat} (hp : s.supply.power = .on) (hr : s.recovery = false) (hm : fn ≠ s.manager)
    (f : State → State) : s.asManager fn f =
      if fn = 0 ∨ fn = 2 then (s.count .HIF_CTR (fn / 2) C.HIF_BAR2_DENIED).raiseMs (Ev.HIF_BAR2_DENIED (fn / 2)) else s := by
  split
  · next hf => exact asManager_other hp hr hm hf f
  · next hf => simp [State.asManager, hm, hf]

/-- A row that stands for a write of the manager's register space, when it is well formed, is that write and nothing else. -/
theorem exec_bar2Writer {c : Instr} {fn : Nat} (h : c.bar2Writer = some fn) (hw : c.wf = true) (s : State) :
    ∃ f, exec c s = .next (s.asManager fn f) := by
  cases c with
  | debugWindowWrite | glbFencePop | frerMmPop | jnlCtrlWrite | jnlConsWrite | ovnEnWrite | ovnHoldWrite | ovnOtLatchClear | ovnEfcWrite
  | counterOwnerCommit | glbResetCold | glbResetWarm | glbResetCluster | relDeviceWrite | relCfgWrite | l2ReadCmd | tsuFreqOffsetWrite
  | tsuStepArm | tsuStepCancel | tsuSlewSetWrite | tsuSlewRateWrite | tsuRefWrite | tmNodeAccess | tmObsCfgWrite =>
    cases h
    exact ⟨_, rfl⟩
  | cpyGo | cpyStop | cpyChCfgWrite | hifMigConsWrite | prtGroupApply | portReset | stormClear | preemptEnableWrite | tblL2AgeEnWrite
  | tsuBoardDlyWrite =>
    -- the register the row names exists
    cases h
    simp only [Instr.wf, Bool.and_eq_true] at hw
    exact ⟨_, congrArg _ (if_pos (by simp_all [below, okChannel, okSlot, okHalf, okPort, okPipe]))⟩
  | registerWrite fn place size v =>
    cases place with
    | bar2 off =>
      cases h
      exact ⟨_, rfl⟩
    | _ => cases h
  | _ => cases h

/-! ### Commands that are refused (R327, R328) -/

section
variable {s : State} {e : Eci} {c : EciCmd} {code : Nat} {masks : List Nat} {pick denied bad : List Nat → Bool} {run : List Nat → EciOut}

/-- A command of a fenced function is answered FENCED by the row that serves it (R327). -/
theorem eci_fenced (h : s.eciCmd e = some c) (hf : s.eciFenced e.fn code = true) :
    s.eci e code pick denied masks bad run = .next s ∨ s.eci e code pick denied masks bad run = .next (s.answers e RC_FENCED []) := by
  simp only [State.eci, h, hf, if_true]
  split
  · exact .inl rfl
  · exact .inr rfl

/-- A debug command from a fenced function is answered FENCED (R327). -/
theorem debugCmd_fenced {cluster : List Nat → Nat} {act : List Nat → State × Nat} (h : s.eciCmd e = some c) (hf : s.eciFenced e.fn code = true) :
    s.debugCmd (.eci e) code cluster masks act = .next s ∨ s.debugCmd (.eci e) code cluster masks act = .next (s.answers e RC_FENCED []) := by
  unfold State.debugCmd
  exact eci_fenced h hf

/-- Each row that serves a command answers FENCED for a fenced function, or leaves the command to another row of its code (R327). -/
theorem exec_eciRow_fenced {i : Instr} (h : i.eciRow = some (e, code)) (hc : s.eciCmd e = some c) (hf : s.eciFenced e.fn code = true) :
    exec i s = .next s ∨ exec i s = .next (s.answers e RC_FENCED []) := by
  cases i with
  | dbgHalt via | dbgResume via | dbgStep via | dbgAbort via | dbgBpSet via | dbgSoftBp via =>
    cases via with
    | eci e =>
      cases h
      dsimp only [exec]
      exact debugCmd_fenced hc hf
    | jtag p => cases h
  | fnAssignVfs | fnGrant | fnQuery | fnQuiesce | fnRelease | fnRemove | fnMigrateLog | mgrRole | epochStage | epochCommit | epochAbandon
  | epochStatus | oflCaps | oflQuota | oflCtxCreate | oflCtxDestroy | oflCtxQuery | oflCtxModify | oflTlsResync | oflTlsRxRekey
  | oflNvmeResync | oflPlaceDrop | oflMacsecSa | oflMacsecSaRemove | oflMacsecTxAn | oflNotify | tmCaps | tmNodeCreate | tmTenantGrant
  | tmNodeDestroy | tmNodeSet | tmNodeQuery | tmQueueFlush | tmMcastSet | tmMcastQuery | tmObsDump | frerCaps | frerMemberSet
  | frerMemberClear | frerCtxSet | frerCtxClear | frerCtxQuery | frerCtxReset | mirResync | mirCfg | mirStatus | mirTakeover | mirResolve
  | timeGet | timeFreq | timeStep | timeStepCancel | timeSlew | timeStatus | timeIo | ovenSet | ovenStatus | relCaps | relGroupSet
  | relGroupQuery | relStampRing | relStampRingClear | jnlQueueSet | jnlQueueRemove | jnlIdentity | jnlStatus | jnlRestart | tblL2Write
  | tblL2Delete | tblL2Read | tblL2Flush | tblFlowInsert | tblFlowDelete | tblFlowLookup | tblRouteBatch | tblRouteLookup | eciVersion
  | eciIdentity | eciFuncInfo | eciPoll | adminCreate | adminDestroy | queueCreate | queueDestroy | queueStart | queueStop
  | queueInvalidate | queueQuery | fnSave | fnRestore | svcPortCounters | svcEvtRoute | svcLogRead | svcFlashWrite | svcFwActivate
  | svcHbmRetrain | svcWearQuery =>
    cases h
    dsimp only [exec]
    exact eci_fenced hc hf
  | _ => cases h

variable (h : s.eciCmd e = some c) (hc : c.code = code) (hf : s.eciFenced e.fn code = false) (hp : pick c.words = true)
  (hd : s.eciDenied e.fn c denied masks.length = false)
include h hc hf hp hd

/-- A payload that could not be taken gives its own code. -/
theorem eci_untaken (hrc : c.rc ≠ 0) : s.eci e code pick denied masks bad run = .next (s.answers e c.rc []) := by
  simp [State.eci, h, hc, hf, hp, hd, hrc]

/-- A payload of another length, with a reserved bit or out of range gives BAD_ARG (R328). -/
theorem eci_malformed (hrc : c.rc = 0) (hb : (!shapeOk masks c || bad c.words) = true) :
    s.eci e code pick denied masks bad run = .next (s.answers e RC_BAD_ARG []) := by
  simp [State.eci, h, hc, hf, hp, hd, hrc]
  intro hs hok
  simp [hs, hok] at hb

/-- An admin entry whose response has no translation ends before it acts (R328). -/
theorem eci_untranslated (hrc : c.rc = 0) (hs : shapeOk masks c = true) (hb : bad c.words = false) (ha : e.path = .admin)
    (hr : c.resp ≠ 0) (hx : e.respFault = true) : s.eci e code pick denied masks bad run = .next (s.answers e RC_XLATE_FAULT []) := by
  simp [State.eci, h, hc, hf, hp, hd, hrc, hs, hb, hr, hx, ha, State.answers]

end

/-- Settles O54: the rows that write the manager's registers are asManager's, and those of commands eci's, whose refusals come in order. -/
theorem refusals : Obligations.Refusals := by
  unfold Obligations.Refusals
  refine ⟨?write, ?read, ?fenced, ?denied, ?untaken, ?malformed, ?untranslated⟩
  case write =>
    intro s fn c hp hr hm hc hw
    obtain ⟨f, hf⟩ := exec_bar2Writer hc hw s
    rw [hf, asManager_refused hp hr hm]
  case read =>
    intro s fn off size hp hr hm hf
    have hmay : mayManage fn = true := by simpa [mayManage] using hf
    simp [exec, execRcRegisterRead, State.busRead, hp, hr, hmay, hm, asManager_other hp hr hm hf]
  case fenced =>
    intro i s e code c hi he hc hg hfn
    exact exec_eciRow_fenced hi he (by simp [State.eciFenced, hfn, hg])
  case denied => exact fun s e c code masks pick denied bad run h hc hf hp hd => eci_denied h hc hf hp hd
  case untaken => exact fun s e c code masks pick denied bad run h hc hf hp hd hrc => eci_untaken h hc hf hp hd hrc
  case malformed => exact fun s e c code masks pick denied bad run h hc hf hp hd hrc hb => eci_malformed h hc hf hp hd hrc hb
  case untranslated =>
    exact fun s e c code masks pick denied bad run h hc hf hp hd hrc hs hb ha hr hx => eci_untranslated h hc hf hp hd hrc hs hb ha hr hx

/-! ### What a fence leaves (R387, R389, R391) -/

section
variable (s : State)

/-- The registers that show the fence log's head are no part of the fences. -/
theorem fenceHeadSync_fences : s.fenceHeadSync.fenced = s.fenced ∧ s.fenceHeadSync.fenceLog = s.fenceLog := by
  unfold State.fenceHeadSync
  split <;> simp

theorem leaves_fenceHeadSync : LeavesBut [.GLB_FENCE_HEAD] s s.fenceHeadSync := by
  unfold State.fenceHeadSync
  split <;> exact (((leaves_put s _ _ _).trans (leaves_put _ _ _ _)).trans (leaves_put _ _ _ _)).trans (leaves_put _ _ _ _)

/-- A register counts modulo its 64 bits. -/
theorem val_add_same (r : Reg) (i n : Nat) : (s.add r i n).val r i = (s.val r i + n) % 2 ^ 64 := by
  rw [State.val, State.add, reg_setReg, if_pos ⟨rfl, rfl⟩, BitVec.toNat_add, BitVec.toNat_ofNat, Nat.add_mod_mod]
  rfl

end

/-- The unit is marked as fenced and its class counted: what a fence does before its log entry and its events. -/
def State.marksFence (s : State) (unit obj : Nat) (c : ErrClass) : State :=
  ({ s with fenced := s.fenced.set (fenceKey unit obj) true } : State).countError c

/-- A fence's entry in its log, or the count of the entry that a full log loses. -/
def State.logsFence (s : State) (e : FenceEntry) : State :=
  if s.fenceLog.length < 64 then ({ s with fenceLog := s.fenceLog ++ [e] } : State).fenceHeadSync
  else (s.wr F.GLB_FENCE_POP_FENCE_LOST 0 (s.rd F.GLB_FENCE_POP_FENCE_LOST 0 + 1)).raise Ev.GLB_FENCE_LOG_FULL

section
variable {s : State} {unit obj : Nat}

/-- A unit that lies inside no fenced one is fenced, logged and reported. -/
theorem fence_outside (h : s.insideFenced unit obj = false) (cause : Nat) (c : ErrClass) : s.fence unit cause c obj =
    (((s.marksFence unit obj c).logsFence { unit := unit, cause := cause, cls := c.ix, object := obj, when_ := s.stamp }).raise
      Ev.GLB_FENCED).when (c == .degraded) (fun t => t.raise Ev.GLB_DEGRADED) :=
  if_neg (Bool.eq_false_iff.mp h)

theorem logsFence_fenced (e : FenceEntry) : (s.logsFence e).fenced = s.fenced := by
  unfold State.logsFence
  split
  · exact (fenceHeadSync_fences _).1
  · exact raise_fenced _ _

/-- The log takes the entry behind the others while it has room. -/
theorem logsFence_fenceLog (e : FenceEntry) :
    (s.logsFence e).fenceLog = if s.fenceLog.length < 64 then s.fenceLog ++ [e] else s.fenceLog := by
  unfold State.logsFence
  split
  · exact (fenceHeadSync_fences _).2
  · exact raise_fenceLog _ _

theorem leaves_logsFence (s : State) (e : FenceEntry) : LeavesBut [.GLB_FENCE_HEAD, .GLB_FENCE_POP, .EVT_PEND] s (s.logsFence e) :=
  .ite ((leaves_same rfl rfl : LeavesBut _ s { s with fenceLog := s.fenceLog ++ [e] }).andThen (leaves_fenceHeadSync _) rfl)
    (LeavesBut.andThen ((leaves_wr s F.GLB_FENCE_POP_FENCE_LOST _ _).mono rfl) (leaves_raise _ _) rfl)

/-- The events of a fence leave the fences and their log. -/
theorem fence_reports (s : State) (d : Bool) :
    ((s.raise Ev.GLB_FENCED).when d (fun t => t.raise Ev.GLB_DEGRADED)).fenced = s.fenced ∧
      ((s.raise Ev.GLB_FENCED).when d (fun t => t.raise Ev.GLB_DEGRADED)).fenceLog = s.fenceLog := by
  cases d <;> simp [State.when]

end

/-- Settles O58: a fence marks its unit and counts its class, and what follows writes the log and no other fence. -/
theorem fenceLog : Obligations.FenceLog := by
  unfold Obligations.FenceLog
  refine ⟨?inside, ?outside⟩
  case inside => exact fun s unit cause obj c h => if_pos h
  case outside =>
    intro s unit cause obj c h
    have hmark : (s.fence unit cause c obj).fenced = s.fenced.set (fenceKey unit obj) true := by
      rw [fence_outside h, (fence_reports _ _).1, logsFence_fenced]
      rfl
    have hcount : LeavesBut [.GLB_FENCE_HEAD, .GLB_FENCE_POP, .EVT_PEND] (s.marksFence unit obj c) (s.fence unit cause c obj) := by
      rw [fence_outside h]
      exact ((leaves_logsFence _ _).andThen (leaves_raise _ _) rfl).when (fun t => leaves_raise t _) _ rfl
    refine ⟨?fenced, ?log, ?counted, ?others⟩
    case fenced => rw [State.isFenced, hmark, SMap.get_set, if_pos rfl]
    case log =>
      rw [fence_outside h, (fence_reports _ _).2, logsFence_fenceLog]
      rfl
    case counted =>
      rw [hcount.val _ (by decide)]
      exact val_add_same _ .GLB_ERR_COUNT c.ix 1
    case others =>
      intro u o hne
      rw [State.isFenced, hmark, SMap.get_set, if_neg hne.symm]
      rfl

/-! ### The order of commands -/

/-- Settles O50: a step takes the command at the front, and idles when there is none. -/
theorem stepOrder : Obligations.StepOrder := by
  unfold Obligations.StepOrder
  refine ⟨?front, ?idle⟩
  case front =>
    intro c s rest h
    simp only [step, h]
  case idle =>
    intro s h
    simp only [step, h]

end Sys2Proof.Machine
end

section
/-! The host links, Bus Master Enable, messages and event pages, and the translations and reads of the host interface
(spec/11_host_interface.md R271 to R294). -/

namespace Sys2Proof.Machine

/-! ### Links, enables and event pages (R271, R272, R282 to R284, R294) -/

/-- A link that exists and is down comes up while its port is out of reset (R271). -/
theorem execHifLinkUp_comesUp {s : State} {port link : Nat} (he : s.linkExists port link = true)
    (hu : (s.hlinks.get (2 * port + link)).up = false) (hp : s.perst.get port = false) (rate : Nat) (narrow : Bool) :
    execHifLinkUp port link rate narrow s =
      .next (((({ s with hlinks := s.hlinks.set (2 * port + link) { up := true, rate := rate, narrow := narrow } } : State).raise
        (Ev.HIF_LINK_UP port)).when (decide (rate < 2) || (narrow && !s.bifurcated.get port))
          (fun t => t.raise (Ev.HIF_LINK_DEGRADED port))).sendReady (2 * port + link)) := by
  refine congrArg _ ((if_pos ⟨he, by simpa using hu, by simpa using hp⟩).trans ?_)
  dsimp only
  rw [raise_bifurcated]

/-- Settles O28, row by row. -/
theorem hostLinks : Obligations.HostLinks := by
  unfold Obligations.HostLinks
  -- each row's meaning stands for exec's arm
  dsimp only [exec]
  refine ⟨?up, ?degraded, ?down, ?vector, ?fnMask, ?enable, ?bmeClear, ?bmeSet, ?dState, ?evtPend, ?evtFn⟩
  case up =>
    intro s port link rate narrow he hu hp hd
    rw [execHifLinkUp_comesUp he hu hp, hd, when_false]
  case degraded =>
    intro s port link rate narrow he hu hp hd
    rw [execHifLinkUp_comesUp he hu hp, hd, when_true]
  case down => exact fun s port link he hu => congrArg _ (if_pos ⟨he, hu⟩)
  case vector => exact fun s f v masked hf => congrArg _ (if_pos hf)
  case fnMask | enable => exact fun s f on hf => congrArg _ (if_pos hf)
  case bmeClear =>
    rintro s _ f hb rfl
    exact congrArg _ (if_pos hb)
  case bmeSet => exact fun s f hf => congrArg _ (if_pos hf)
  case dState => exact fun s f d3 hf hd => congrArg _ (if_pos ⟨hf, hd⟩)
  case evtPend =>
    rintro s _ f w v hf hw ho rfl
    exact congrArg _ (if_pos ⟨hf, hw, ho⟩)
  case evtFn =>
    rintro s _ f v hf ho rfl
    exact congrArg _ (if_pos ⟨hf, ho⟩)

/-! ### Translations and reads (R285 to R293) -/

section
variable {s u : State}

/-- A Translation Completion in time settles its request (R285, R286). -/
theorem execTranslationCompletion_inTime {req n : Nat} {q : XReq}
    (hq : s.xreqs.find? (fun e => e.1 == req && decide (e.1 < 16384)) = some (n, q)) (hu : u = { s with xreqs := s.xreqs.erase req })
    (ht : s.now < q.since + q.us * 1000) (r : XlateReply) :
    execTranslationCompletion req r s = .next ((u.xlate q r).issueWaiting) := by
  subst hu
  simp only [execTranslationCompletion, hq, if_neg (Nat.not_le.mpr ht)]

variable {q : XReq}

/-- A translation that allows the access enters the cache and serves what waits (R286). -/
theorem xlate_granted {base tbase size : Nat} {rd wr : Bool} (ht : q.tainted = false) (ha : (if q.write then wr else rd) = true) :
    s.xlate q (.granted base tbase size rd wr) = (s.atsFill
      { port := s.hostPort q.fn, fn := q.fn, pasid := q.pasid, base := base, tbase := tbase, size := size, rd := rd, wr := wr }).resumeWaiter
        q.waiter := by
  have hno : ¬(if q.write = true then !wr else !rd) = true := by split at ha <;> simp [*]
  simp only [State.xlate, ht, Bool.false_eq_true, if_false, if_neg hno]

/-- An invalidation that waits for no read completes; within its millisecond it is not slow (R288). -/
theorem execInvalidateComplete_inTime {port : Nat} {v : Inval} (hv : s.invals.find? (fun v => v.port == port) = some v)
    (hr : v.reads.any (fun k => s.reads.any (fun e => e.1 == k)) = false) (ht : s.now ≤ v.since + 1000000) :
    execInvalidateComplete port s = .next (({ s with invals := s.invals.erase v } : State).send (.invalidateDone port v.tag)) := by
  have hslow : (decide (v.since + 1000000 < s.now) && !v.slow) = false := by simp [Nat.not_lt.mpr ht]
  simp only [execInvalidateComplete, hv, hr, Bool.false_eq_true, if_false, hslow, when_false]

/-- A page response acts on the request that waits for it. -/
theorem pageResponse_of {f index n : Nat} {q : PReq}
    (hq : s.preqs.find? (fun e => e.1 == index && e.2.fn == f && e.2.sent) = some (n, q)) :
    s.pageResponse f index .success = (({ s with preqs := s.preqs.erase index } : State).resumeWaiter q.waiter).nextPageRequest f ∧
      s.pageResponse f index .invalid = s.failPage index q := by
  simp only [State.pageResponse, hq, and_self]

end

/-- Settles O29, row by row. -/
theorem translations : Obligations.Translations := by
  unfold Obligations.Translations
  -- each row's meaning stands for exec's arm
  dsimp only [exec]
  refine ⟨?granted, ?failed, ?noAccess, ?invalidate, ?invalidated, ?atsClear, ?pasidClear, ?pageServed, ?pageInvalid, ?pageUnexpected,
    ?priTimeout, ?priReset, ?unexpected, ?completion, ?lateCompletion, ?readTimeout, ?xlateTimeout⟩
  case granted =>
    intro s u req n base tbase size q rd wr hq hu ht htaint ha
    rw [execTranslationCompletion_inTime hq hu ht, xlate_granted htaint ha]
  case failed | noAccess =>
    intro s u req n q hq hu ht htaint
    rw [execTranslationCompletion_inTime hq hu ht]
    simp only [State.xlate, htaint, Bool.false_eq_true, if_false]
  case invalidate => exact fun s port tag f base size pasid hp hl => congrArg _ (if_neg (by omega))
  case invalidated => exact fun s port v hv hr ht => execInvalidateComplete_inTime hv hr ht
  case atsClear => exact fun s f h => congrArg _ (if_pos h)
  case pasidClear =>
    intro s f h
    simp only [execPasidEnableClear, if_pos h]
  case pageServed => exact fun s f index n q hf hq => congrArg _ ((if_pos hf).trans (pageResponse_of hq).1)
  case pageInvalid => exact fun s f index n q hf hq => congrArg _ ((if_pos hf).trans (pageResponse_of hq).2)
  case pageUnexpected =>
    intro s f index r hf hn
    refine congrArg _ ((if_pos hf).trans ?_)
    simp only [State.pageResponse, hn]
  case priTimeout =>
    intro s index n q hq ht
    simp only [execPriResponseTimeout, hq, if_pos ht]
  case priReset => exact fun s f alloc hf => congrArg _ (if_pos hf)
  case unexpected =>
    intro s port tag reply hn
    simp only [execHostReadCompletion, hn, State.lateCpl]
  case completion =>
    intro s port tag n q reply hr hl
    simp only [execHostReadCompletion, hr, hl, Bool.false_eq_true, if_false]
  case lateCompletion =>
    intro s port tag n q reply hr hl
    simp only [execHostReadCompletion, hr, hl, if_true]
  case readTimeout =>
    intro s tag n q hr hl
    simp only [execCplTimeoutExpire, hr, hl, if_true]
  case xlateTimeout =>
    intro s tag n q hr hq ht
    simp only [execCplTimeoutExpire, hr, hq, if_pos ht]

end Sys2Proof.Machine
end

section
/-! Submission and reception on the rings (spec/12_queues_and_rings.md R298 to R317; spec/01_architecture.md R25 to R36). -/

namespace Sys2Proof.Machine

/-! ### Submission (R298 to R305, R314, R316) -/

section
variable {s : State}

/-- A submission doorbell on the page of a ring that takes submissions posts entries (R298). -/
theorem execQmSqDb_posts {key fn page : Nat} {w : Width} (hk : s.onPage fn page = some key) (hw : w ≠ .high)
    (hs : (s.ring key).submits = true) (ho : s.bar0Open fn = true) (v : Nat) :
    execQmSqDb fn page w v s = .next (s.sqDoorbell key (v % 2 ^ 32) (w == .full && bit v 63)) := by
  simp only [execQmSqDb, hk]
  exact congrArg _ (if_neg (by simp [hw, hs, ho]))

/-- The second doorbell of a page moves a completion ring's consumer index, or arms a HEAD ring (R314, R316). -/
theorem execQmCqDb_open {key fn page : Nat} {w : Width} (hk : s.onPage fn page = some key) (hw : w ≠ .high) (ho : s.bar0Open fn = true)
    (v : Nat) : execQmCqDb fn page w v s =
      .next (if (s.ring key).kind = 3 then s.cqDoorbell key (v % 2 ^ 32) (w == .full && bit v 63)
        else if (s.ring key).kind = 1 ∧ (s.ring key).isHead ∧ (w == .full && bit v 63) then s.modRing key (fun x => { x with armed := true })
        else s) := by
  simp only [execQmCqDb, hk]
  exact congrArg _ (if_neg (by simp [hw, ho]))

/-- Eight bytes at the o-th 8-byte word of a push slot cover that word alone (R303). -/
theorem pushMask_word {o : Nat} (h : o < 8) :
    ((List.range 8).filter (fun k => decide (8 * o / 8 ≤ k ∧ 8 * k < 8 * o + 8))).foldl (fun a k => a + 2 ^ k) 0 = 2 ^ o := by
  interval_cases o <;> rfl

/-- A write of one aligned 8-byte word of the push window enters its slot and marks the word (R303). -/
theorem execPushSlotWrite_word {key fn page slot o : Nat} {data : Bytes} (hk : s.onPage fn page = some key)
    (hkind : (s.ring key).kind = 1 ∨ (s.ring key).kind = 4) (ho : s.bar0Open fn = true) (hs : slot < 4) (h8 : o < 8) (hd : data.length = 8) :
    execPushSlotWrite fn page (64 * slot + 8 * o) data s = .next (s.modRing key (fun x =>
      { x with push := x.push.mod slot (fun p => { bytes := patch (fit 64 p.bytes) (8 * o) data, mask := p.mask ||| 2 ^ o }) })) := by
  have hslot : (64 * slot + 8 * o) / 64 = slot := by omega
  have hofs : (64 * slot + 8 * o) % 64 = 8 * o := by omega
  have hn : min data.length (64 - 8 * o) = 8 := by omega
  have hopen : ¬(4 ≤ slot ∨ 8 = 0 ∨ ¬((s.ring key).kind = 1 ∨ (s.ring key).kind = 4) ∨ (!s.bar0Open fn) = true) := by simp [hs, hkind, ho]
  simp only [execPushSlotWrite, hk, hslot, hofs, hn, if_neg hopen, pushMask_word h8, Nat.mul_mod_right]
  rfl

/-- A descriptor fetch ends: its answer acts on a ring that runs, and other rings' fetches go on (R302, R304). -/
theorem execDescFetchComplete_runs {u : State} {ring i n : Nat} (hf : (s.ring ring).fetching = some (i, n)) (hst : (s.ring ring).state = 1)
    (ht : (s.takeRead (.fetch ring)).2 = true) (hu : u = (s.takeRead (.fetch ring)).1.modRing ring (fun x => { x with fetching := none }))
    {others : State → State}
    (ho : others = fun t => t.fetchOthers (u.hostPort (s.ring ring).fn) (!s.fetchCredit (s.hostPort (s.ring ring).fn))) :
    (∀ b, execDescFetchComplete ring (.data b) s = .next (others (((u.ringCount ring C.QM_DESC_FETCHED n).cacheAll ring ((List.range n).map
        (fun k => ((i + k) % 2 ^ 32, fit (s.ring ring).entrySize (b.drop (k * (s.ring ring).entrySize)))))).fetchNext ring))) ∧
      execDescFetchComplete ring .timeout s = .next (others ((u.readFailed (s.ring ring).fn .timeout).stopRing ring 5 1)) := by
  subst hu ho
  have hruns : ¬((!(s.takeRead (.fetch ring)).2) = true ∨ (s.ring ring).state ≠ 1) := by simp [ht, hst]
  exact ⟨fun b => by simp only [execDescFetchComplete, hf, if_neg hruns], by simp only [execDescFetchComplete, hf, if_neg hruns]⟩

/-- The oldest read of a transmit job is answered (R305). -/
theorem execTxBufferData_oldest {job : Nat} {b : Job} (hj : s.job job = some b) (hp : b.produced = false) (hk : (s.ring b.ring).kind = 1)
    (ho : s.oldestRead job b = true) (hc : s.dataCredit b = true) (ht : (s.takeRead (.buffer job)).2 = true)
    (hg : b.gen = (s.takeRead (.buffer job)).1.rd F.HIF_FN_STATE_GEN b.func) :
    (∀ buf, execTxBufferData job (.data buf) s = .next ((s.takeRead (.buffer job)).1.produce job b (fit (txLen b.entry) buf))) ∧
      execTxBufferData job .timeout s = .next (((s.takeRead (.buffer job)).1.readFailed (s.ring b.ring).fn .timeout).failJob job 3 0) := by
  have hready : ¬(b.produced = true ∨ (s.ring b.ring).kind ≠ 1 ∨ (!s.oldestRead job b) = true ∨ (!s.dataCredit b) = true) := by
    simp [hp, hk, ho, hc]
  have htaken : ¬((!(s.takeRead (.buffer job)).2) = true ∨ b.gen ≠ (s.takeRead (.buffer job)).1.rd F.HIF_FN_STATE_GEN b.func) := by
    simp [ht, ← hg]
  exact ⟨fun buf => by simp only [execTxBufferData, hj, if_neg hready, if_neg htaken],
    by simp only [execTxBufferData, hj, if_neg hready, if_neg htaken]⟩

end

/-- Settles O31, row by row. -/
theorem submission : Obligations.Submission := by
  unfold Obligations.Submission
  -- each row's meaning stands for exec's arm
  dsimp only [exec]
  refine ⟨?posts, ?consumer, ?arms, ?push, ?fetched, ?fetchTimeout, ?starts, ?buffer, ?bufferTimeout⟩
  case posts => exact fun s key fn page v w hk hw hs ho => execQmSqDb_posts hk hw hs ho v
  case consumer => exact fun s key fn page v w hk hw ho h3 => (execQmCqDb_open hk hw ho v).trans (congrArg _ (if_pos h3))
  case arms =>
    intro s key fn page v hk ho h1 hh hb
    refine (execQmCqDb_open hk (by decide) ho v).trans (congrArg _ ((if_neg (by omega)).trans (if_pos ⟨h1, hh, by simp [hb]⟩)))
  case push => exact fun s key fn page slot o data hk hkind ho hs h8 hd => execPushSlotWrite_word hk hkind ho hs h8 hd
  case fetched => exact fun s u ring i n b hf hst ht hu => (execDescFetchComplete_runs hf hst ht hu rfl).1 b
  case fetchTimeout => exact fun s u ring i n hf hst ht hu => (execDescFetchComplete_runs hf hst ht hu rfl).2
  case starts =>
    intro s e ring he
    simp only [execTxJobStart, he]
  case buffer => exact fun s job b buf hj hp hk ho hc ht hg => (execTxBufferData_oldest hj hp hk ho hc ht hg).1 buf
  case bufferTimeout => exact fun s job b hj hp hk ho hc ht hg => (execTxBufferData_oldest hj hp hk ho hc ht hg).2

/-! ### Reception and completions (R309 to R317) -/

section
variable {s : State}

/-- A frame at the receive DMA of a running receive ring of a function that may start (R309). -/
theorem execRxDma_running {h key : Nat} {p : Packet} (hp : s.pkt h = some p) (hst : p.stage = .rxDma key) (hb : p.badFcs = false)
    (hr : (s.ring key).state = 1) (hk : (s.ring key).kind = 2) (hbme : (s.fn (s.ring key).fn).bme = true)
    (hm : s.mayStart (s.ring key).fn = true) (fault badCell : Bool) :
    execRxDma h fault badCell s =
      .next (if (s.ring key).maxFrame < p.data.length then s.rxDrop h key C.QM_RX_TOO_LONG
        else (s.buffer key).elim (s.holdRx h key p) fun e =>
          if !(s.ring key).hold.isEmpty then s.holdRx h key p
          else if fault then (s.holdRx h key p).rxFault h key e
          else (s.rxMiss key p e).elim (s.place h key p e false badCell) ((s.holdRx h key p).rxTranslate key ·)) := by
  simp only [execRxDma, hp, hst, hb]
  rw [if_neg Bool.false_ne_true, if_neg (by omega), if_neg (by simp [hr, hbme]), if_neg (by simp [Ring.stopped, hr, hm])]
  cases s.buffer key with
  | none => rfl
  | some e =>
    dsimp only [Option.elim_some]
    cases s.rxMiss key p e <;> rfl

/-- A frame that fits, behind no held one, with a buffer, is placed once every page it reaches is translated (R309). -/
theorem execRxDma_fits {h key : Nat} {p : Packet} {e : CacheEntry} (hp : s.pkt h = some p) (hst : p.stage = .rxDma key)
    (hb : p.badFcs = false) (hr : (s.ring key).state = 1) (hk : (s.ring key).kind = 2) (hbme : (s.fn (s.ring key).fn).bme = true)
    (hm : s.mayStart (s.ring key).fn = true) (hl : p.data.length ≤ (s.ring key).maxFrame) (hh : (s.ring key).hold = [])
    (he : s.buffer key = some e) (badCell : Bool) :
    execRxDma h false badCell s =
      .next ((s.rxMiss key p e).elim (s.place h key p e false badCell) ((s.holdRx h key p).rxTranslate key ·)) := by
  rw [execRxDma_running hp hst hb hr hk hbme hm, if_neg (Nat.not_lt.mpr hl), he, hh]
  rfl

end

/-- Settles O32, row by row. -/
theorem reception : Obligations.Reception := by
  unfold Obligations.Reception
  -- each row's meaning stands for exec's arm
  dsimp only [exec]
  refine ⟨?placed, ?translates, ?tooLong, ?badFcs, ?delivered, ?holdTimeout, ?written, ?badWrite, ?coalesced, ?head⟩
  case placed =>
    intro s h key p e badCell hp hst hb hr hk hbme hm hl hh he hx
    rw [execRxDma_fits hp hst hb hr hk hbme hm hl hh he, hx, Option.elim_none]
  case translates =>
    intro s h key a p e badCell hp hst hb hr hk hbme hm hl hh he hx
    rw [execRxDma_fits hp hst hb hr hk hbme hm hl hh he, hx, Option.elim_some]
  case tooLong =>
    exact fun s h key p fault badCell hp hst hb hr hk hbme hm hl =>
      (execRxDma_running hp hst hb hr hk hbme hm fault badCell).trans (congrArg _ (if_pos hl))
  case badFcs =>
    intro s h key p fault badCell hp hst hb
    simp only [execRxDma, hp, hst, hb, if_true]
  case delivered =>
    intro s ring h rest p e badCell hh hp he hq hx
    simp only [execHoldListDeliver, hh, hp, he, hq, hx, Bool.false_eq_true, if_false]
  case holdTimeout =>
    intro s h key p hp hst ht
    simp only [execRxHoldTimeout, hp, hst, if_pos ht]
  case written | badWrite =>
    intro s ring c hc hr
    simp only [execCompletionWrite, hc]
    exact congrArg _ (if_neg (not_not.mpr hr))
  case coalesced =>
    intro s ring t hf ha ht
    simp only [execCqCoalesceExpire, hf, if_pos (And.intro ha ht)]
  case head =>
    intro s ring h0 hh h1 hne hd
    exact congrArg _ ((if_neg (by simp [h0, hh, h1, hne, hd])).trans (if_neg Bool.false_ne_true))

end Sys2Proof.Machine
end

section
/-! The identity, admin queue and ring commands (spec/13_control_interface.md R324, R336; spec/12_queues_and_rings.md R297 to R320). -/

namespace Sys2Proof.Machine

section
variable {s : State}

/-! ### Long command results (R324) -/

/-- A ticket of a mailbox command that still runs is in progress. -/
theorem pollLong_running {f ticket : Nat} {l : LongCmd} (hl : s.longs.getD f none = some l) (hp : l.path = .mailbox)
    (ht : l.ticket = ticket) (hf : l.final = none) : s.pollLong f ticket = .done s RC_IN_PROGRESS [] := by
  simp [State.pollLong, hl, hp, ht, hf]

/-- A final result is handed out once. -/
theorem pollLong_final {f ticket rc : Nat} {l : LongCmd} {w : List Nat} (hl : s.longs.getD f none = some l) (hp : l.path = .mailbox)
    (ht : l.ticket = ticket) (hf : l.final = some (rc, w)) :
    s.pollLong f ticket = .done { s with longs := s.longs.setD f none none } rc w := by
  simp [State.pollLong, hl, hp, ht, hf]

/-! ### QUEUE_CREATE (R297, R300) -/

section
variable {t : State} {r : Ring} {f : Nat} {p : List Nat} (hr : r = s.newRing f p) (ht : t = s.used)
include hr ht

/-- A function with no room in its grant creates no ring. -/
theorem createRing_limit (hn : (t.fn f).grants.rings r.kind ≤ t.ringsHeld r.kind (some f)) : s.createRing f p = .done t RC_LIMIT [] := by
  subst hr ht
  exact (congrArg _ (if_pos hn)).trans (ite_self _)

/-- A ring takes a free number of its kind while its function's grant has room, and no second management ring of a kind is open. -/
theorem createRing_numbered {n : Nat}
    (hm : r.mgmt = false ∨ t.rings.any (fun x => x.2.state != 0 && x.2.mgmt && x.2.kind == r.kind) = false)
    (hn : t.ringsHeld r.kind (some f) < (t.fn f).grants.rings r.kind)
    (hk : firstFree 131072 t.fresh (fun k => (t.ring (ringKey r.kind k)).state != 0) = some n) :
    s.createRing f p = .done { t.used with rings := t.rings.set (ringKey r.kind n) r } RC_OK [n + 2 ^ 17 * r.pipe] := by
  subst hr ht
  unfold State.createRing
  rw [if_neg (by simpa [or_iff_not_imp_left] using hm), if_neg (Nat.not_le.mpr hn), hk]

end

end

/-- Settles O42, command by command. -/
theorem queueCommands : Obligations.QueueCommands := by
  unfold Obligations.QueueCommands
  -- each command's meaning stands for exec's arm
  dsimp only [exec]
  refine ⟨?version, ?identity, ?funcInfo, ?pollRunning, ?pollFinal, ?adminCreate, ?adminBusy, ?adminDestroy, ?adminNone, ?create, ?createLimit,
    ?destroy, ?destroyBusy, ?destroyWaits, ?start, ?startNotReady, ?stop, ?invalidate, ?query⟩
  case version | identity | funcInfo =>
    rintro s e c _ h rfl
    exact eci_of h rfl rfl rfl rfl
  case pollRunning =>
    rintro s e c _ l h rfl hl hp ht hf
    exact eci_of h rfl rfl rfl (pollLong_running hl hp ht hf)
  case pollFinal =>
    rintro s e c _ l rc w h rfl hl hp ht hf
    exact eci_of h rfl rfl rfl (pollLong_final hl hp ht hf)
  case adminCreate =>
    rintro s e c _ h rfl hb h0
    exact eci_of h rfl rfl hb (if_neg (not_not.mpr h0))
  case adminBusy =>
    rintro s e c _ h rfl hb h0
    exact eci_of h rfl rfl hb (if_pos h0)
  case adminDestroy =>
    rintro s e c _ h rfl hn h0
    exact eci_of h rfl rfl rfl ((if_neg (by simp [hn])).trans (if_neg h0))
  case adminNone =>
    rintro s e c _ h rfl hn h0
    exact eci_of h rfl rfl rfl ((if_neg (by simp [hn])).trans (if_pos h0))
  case create =>
    rintro s e c _ r t n h rfl hd hb hr ht hm hn hk
    exact eci_of h rfl hd hb (createRing_numbered hr ht hm hn hk)
  case createLimit =>
    rintro s e c _ r t h rfl hd hb hr ht hn
    exact eci_of h rfl hd hb (createRing_limit hr ht hn)
  case destroy =>
    rintro s e c _ _ h rfl hd hb rfl hs hu hj
    exact eci_of h rfl hd hb ((if_neg (by simp [hs, hu])).trans (if_neg (Bool.eq_false_iff.mp hj)))
  case destroyBusy =>
    rintro s e c _ _ h rfl hd hb rfl hbusy
    exact eci_of h rfl hd hb (if_pos (by simpa using hbusy))
  case destroyWaits =>
    rintro s e c _ _ h rfl hd hb rfl hs hu hj
    exact eci_wait h rfl hd hb ((if_neg (by simp [hs, hu])).trans (if_pos hj))
  case start =>
    rintro s e c _ h rfl hd hb hm
    exact eci_of h rfl hd hb (if_neg (by simp [hm]))
  case startNotReady =>
    rintro s e c _ h rfl hd hb hm
    exact eci_of h rfl hd hb (if_pos (by simp [hm]))
  case stop =>
    rintro s e c _ h rfl hd hb hs
    exact eci_of h rfl hd hb (by rw [if_neg (Bool.eq_false_iff.mp hs)])
  case invalidate | query =>
    rintro s e c _ h rfl hd hb
    exact eci_of h rfl hd hb rfl

end Sys2Proof.Machine
end

section
/-! The mailbox, the doorbells, the admin queue and firmware (spec/13_control_interface.md R321 to R334). -/

namespace Sys2Proof.Machine

section
variable {s : State}

/-! ### Acceptance of a mailbox command (R322) -/

/-- Firmware accepts the mailbox command whose turn it is, and answers one that is fenced or not listed at once. -/
theorem execCmdAccept_turn {a t : State} {f n : Nat} {bad : Bool} {c : EciCmd} (ht : s.nextTurn (s.coreOf f) = some (2 * f))
    (ha : a = (s.tookTurn (s.coreOf f) (2 * f)).wr F.DB_TO_FW_CMD f 0) (hn : n = s.rd F.MBX_CMD_LEN f)
    (hc : c = { code := s.rd F.MBX_CMD_CODE f, len := n, words := if 64 < n || bad then [] else (List.range n).map (fun k => s.val .MBX_DATA (64 * f + k)),
                rc := if bad then RC_BAD_ARG else 0, at_ := a.now })
    (hu : t = a.modMb f (fun b => { b with cmd := some c })) :
    execCmdAccept f bad s = .next (if t.eciFenced f c.code then t.mbxReply f RC_FENCED [] false
      else if eciListed c.code t.recovery = false then t.mbxReply f RC_BAD_OPCODE [] false else t) := by
  subst hu hc hn ha
  refine congrArg _ ((if_neg (not_not.mpr ht)).trans ?_)
  simp only [Bool.not_eq_true']
  rfl

/-! ### Acceptance of an admin entry (R320) -/

/-- An admin entry's payload outside the entry is read: its words, or the code that ends the entry. -/
def State.adminPayload (s : State) (f : Nat) (c : EciCmd) (addr : Nat) (payload : HostReply) : State :=
  let w := s.sendRead f addr none (4 * c.len)
  match payload with
  | .data d => { w with adminCmd := w.adminCmd.setD f (some { c with words := (List.range c.len).map (fun k => leAt (fit (4 * c.len) d) (4 * k) 4),
                                                                     at_ := w.now }) none }
  | .xlateFault => { w with adminCmd := w.adminCmd.setD f (some { c with rc := RC_XLATE_FAULT, at_ := w.now }) none }
  | e => { w.readFailed f e with
      adminCmd := (w.readFailed f e).adminCmd.setD f (some { c with rc := RC_NOT_READY, at_ := (w.readFailed f e).now }) none }

/-- An admin entry whose turn it is and that is served: a malformed one keeps BAD_ARG for its row, and one with a payload of its own
reads it. -/
theorem execAdminEntryTake_served {u v : State} {r : Ring} {c : EciCmd} {f n : Nat} {b0 b : Bytes}
    (ht : s.nextTurn (s.coreOf f) = some (2 * f + 1)) (hr : r = s.ring (adminSqKey f))
    (hu : u = ((s.tookTurn (s.coreOf f) (2 * f + 1)).sendRead f (r.base + r.next % r.size * 128) none 128).modRing (adminSqKey f)
      (fun x => { x with next := ixNext x.next }))
    (hb : b = fit 128 b0) (hn : n = leAt b 2 1)
    (hc : c = { code := leAt b 0 2, len := n, words := if 24 < n then [] else (List.range n).map (fun k => leAt (b.drop 0x20) (4 * k) 4),
                tag := leAt b 4 2, resp := leAt b 0x10 8, index := r.next, at_ := u.now })
    (hv : v = { u with adminCmd := u.adminCmd.setD f (some c) none }) (hf : v.eciFenced f c.code = false)
    (hl : eciListed c.code v.recovery = true) (hm : mailboxOnly c.code = false) (payload : HostReply) :
    execAdminEntryTake f (.data b0) payload s =
      .next (if leAt b 3 1 ≠ 0 ∨ leAt b 6 2 ≠ 0 ∨ leAt b 0x18 8 ≠ 0 ∨ 64 < n ∨ (n ≤ 24 ∧ leAt b 8 8 ≠ 0) then
          { v with adminCmd := v.adminCmd.setD f (some { c with rc := RC_BAD_ARG }) none }
        else if n ≤ 24 then v else v.adminPayload f c (leAt b 8 8) payload) := by
  subst hv hc hn hb hu hr
  refine congrArg _ ((if_neg (not_not.mpr ht)).trans ((if_neg (Bool.eq_false_iff.mp hf)).trans ((if_neg ?listed).trans ?_)))
  case listed =>
    rw [Bool.or_eq_true, not_or]
    exact ⟨by simpa using hl, Bool.eq_false_iff.mp hm⟩
  cases payload <;> rfl

end

/-- What the end of a long command's body does to a state. -/
def EciOut.longEnd (o : EciOut) (s : State) (f : Nat) : State :=
  match o with
  | .done t rc resp => t.longDone f rc resp
  | .held t | .started t => t
  | .wait => s

/-- A long command that runs ends as its body does (R324, R334). -/
theorem execLongCommandComplete_running {s : State} {f : Nat} {l : LongCmd} {io : LongIo} (hl : s.longs.getD f none = some l)
    (hf : l.final = none) : execLongCommandComplete f io s = .next ((s.longBody f l.cmd io).longEnd s f) := by
  simp only [execLongCommandComplete, hl, hf, Option.isSome_none, Bool.false_eq_true, if_false]
  cases s.longBody f l.cmd io <;> rfl

/-- Settles O45, row by row. -/
theorem mailboxAndDoorbells : Obligations.MailboxAndDoorbells := by
  unfold Obligations.MailboxAndDoorbells
  -- each row's meaning stands for exec's arm
  dsimp only [exec]
  refine ⟨?command, ?ackTimeout, ?dbW1c, ?dbMask, ?ready, ?unload, ?restart, ?accept, ?acceptLater, ?absent, ?watchdog, ?watchdogT2,
    ?longDone, ?longHeld, ?longWaits, ?entry, ?entryBad, ?entryLong, ?entryLater⟩
  case command | dbW1c | dbMask | ready | unload => exact fun s f v hf ho => congrArg _ (if_pos ⟨hf, ho⟩)
  case ackTimeout => exact fun s f hb ht => congrArg _ (if_pos ⟨hb, ht⟩)
  case restart => exact fun s hu => congrArg _ (if_pos hu)
  case accept => exact fun s a t f n bad c ht ha hn hc hu => execCmdAccept_turn ht ha hn hc hu
  case acceptLater => exact fun s f bad ht => congrArg _ (if_pos ht)
  case absent =>
    intro s f k t hk ht ha
    exact congrArg _ (if_pos ⟨List.any_eq_true.mpr ⟨_, hk, by simpa using ht⟩, by simpa using ha⟩)
  case watchdog =>
    intro s core thread hc ht hu
    have h2 : thread ≠ 2 := by omega
    refine congrArg _ ((if_pos ⟨hc, by omega, hu⟩).trans ?_)
    rw [if_neg h2]
  case watchdogT2 => exact fun s core hc hu => congrArg _ (if_pos ⟨hc, .inr (.inl rfl), hu⟩)
  case longDone => exact fun s t l f rc io w hl hf hb => by rw [execLongCommandComplete_running hl hf, hb]; rfl
  case longHeld => exact fun s t l f io hl hf hb => by rw [execLongCommandComplete_running hl hf, hb]; rfl
  case longWaits => exact fun s l f io hl hf hb => by rw [execLongCommandComplete_running hl hf, hb]; rfl
  case entry =>
    intro s u v r c f n b0 b payload ht hr hu hb hn hc hv hf hl hm h3 h6 h18 h8 h24
    rw [execAdminEntryTake_served ht hr hu hb hn hc hv hf hl hm, if_neg (by omega), if_pos h24]
  case entryBad =>
    intro s u v r c f n b0 b payload ht hr hu hb hn hc hv hf hl hm hbad
    rw [execAdminEntryTake_served ht hr hu hb hn hc hv hf hl hm, if_pos hbad]
  case entryLong =>
    intro s u v w r c f n b0 b d ht hr hu hb hn hc hv hf hl hm h3 h6 h18 h24 h64 hw
    have hlen : c.len = n := by rw [hc]
    have hread (payload : HostReply) : execAdminEntryTake f (.data b0) payload s = .next (v.adminPayload f c (leAt b 8 8) payload) := by
      rw [execAdminEntryTake_served ht hr hu hb hn hc hv hf hl hm, if_neg (by omega), if_neg (by omega)]
    rw [hread, hread, hw]
    simp only [State.adminPayload, hlen, and_self]
  case entryLater => exact fun s f entry payload ht => congrArg _ (if_pos ht)

end Sys2Proof.Machine
end

section
/-! The function commands, function level resets and the resets of links (spec/14_tenants.md R341 to R354;
spec/18_power_reset_package.md R413). -/

namespace Sys2Proof.Machine

section
variable {s : State}

/-- A long command of the manager's own that is served and not malformed starts as its run says. -/
theorem eci_managedLong {t : State} {e : Eci} {c : EciCmd} {code : Nat} {masks p : List Nat} {pick bad : List Nat → Bool}
    {run : List Nat → EciOut} (h : s.serves e c code masks) (hc : p = c.words) (hm : e.fn = s.manager) (hp : pick p = true)
    (hb : bad p = false) (hr : run p = .started t) :
    s.eci e code pick (s.managerOnly e.fn) masks bad run = .next (t.ticketed e c) :=
  eci_ordersLong h hc hm hp (Bool.eq_false_iff.mp hb) hr

/-- The engines that have not acknowledged 100 ms into a function level reset are fenced, and the reset completes (R348). -/
theorem execFnFlrSlow_late {t u : State} {r : Flr} {f : Nat} {late : List Nat} (hr : s.flr.getD f none = some r)
    (ht : r.since + 100000000 ≤ s.now) (hl : late = (List.range flrEngines).filter (fun e => !r.acks.contains e))
    (hf : t = s.each late (fun e t => t.each (t.slowUnits f e) (fun u v => v.fenceUnit u.1 u.2 8 [])))
    (hd : u = t.each late (fun e t => (t.flrDiscard f e).getD t)) :
    execFnFlrSlow f s = .next ((u.flrComplete f).raise Ev.FN_FLR_SLOW) := by
  subst hd hf hl
  simp only [execFnFlrSlow, hr, if_neg (Nat.not_lt.mpr ht)]

/-- An engine's acknowledgement waits for the work of the old generation that it still holds (R346). -/
theorem execFlrEngineAck_discards {r : Flr} {f engine : Nat} (hr : s.flr.getD f none = some r) (he : engine < flrEngines) :
    execFlrEngineAck f engine s = .next ((s.flrDiscard f engine).elim s (·.flrAck f engine)) := by
  simp only [execFlrEngineAck, hr, if_pos he]
  cases s.flrDiscard f engine <;> rfl

end

/-- Settles O43, command by command, then the resets row by row. -/
theorem functionsAndResets : Obligations.FunctionsAndResets := by
  unfold Obligations.FunctionsAndResets
  -- each row's meaning stands for exec's arm
  dsimp only [exec]
  refine ⟨?assign, ?grant, ?grantBusy, ?query, ?quiesce, ?quiesced, ?quiesceBusy, ?release, ?save, ?saveActive, ?restore, ?restoreBusy,
    ?logStop, ?logStart, ?logRestart, ?remove, ?removeActive, ?role, ?roleWaits, ?perst, ?hotReset, ?perstEnd, ?vfEnable, ?flrStart,
    ?flrAck, ?flrHeld, ?flrSlow, ?flrInTime, ?quiesceLate, ?migCons⟩
  case assign =>
    intro s e c p h hc hm hv hn
    exact eci_managed h hc hm rfl rfl ((if_neg (Bool.eq_false_iff.mp hv)).trans (if_neg (Nat.not_lt.mpr hn)))
  case grant =>
    rintro s e c p _ h hc hm hb rfl hu hn
    exact eci_managed h hc hm rfl hb ((if_neg (Bool.eq_false_iff.mp hu)).trans (if_neg (Bool.eq_false_iff.mp hn)))
  case grantBusy => exact fun s e c p h hc hm hb hu => eci_managed h hc hm rfl hb (if_pos hu)
  case query =>
    rintro s e c _ h rfl hd hb
    exact eci_of h rfl hd hb rfl
  case quiesce =>
    intro s e c p h hc h31 hm hb hl hst
    exact eci_managedLong h hc hm h31 hb ((if_neg (not_or.mpr ⟨Bool.eq_false_iff.mp hl, by omega⟩)).trans
      ((if_neg (by omega)).trans ((if_neg (by omega)).trans (if_pos hst))))
  case quiesced =>
    intro s e c p h hc h31 hm hb hl hst
    exact eci_managedLong h hc hm h31 hb ((if_neg (not_or.mpr ⟨Bool.eq_false_iff.mp hl, by omega⟩)).trans ((if_neg (by omega)).trans (if_pos hst)))
  case quiesceBusy => exact fun s e c p h hc h31 hm hb hbusy => eci_managed h hc hm h31 hb (if_pos hbusy)
  case release => exact fun s e c p h hc h31 hm hb hl hst =>
    eci_managedLong h hc hm h31 hb (if_neg (not_or.mpr ⟨Bool.eq_false_iff.mp hl, not_not.mpr hst⟩))
  case save =>
    intro s e c p h hc hm hb hl hst
    exact eci_managedLong h hc hm rfl hb ((if_neg (Bool.eq_false_iff.mp hl)).trans (if_neg (not_not.mpr hst)))
  case saveActive =>
    intro s e c p h hc hm hb hl hst
    exact eci_managed h hc hm rfl hb ((if_neg (Bool.eq_false_iff.mp hl)).trans (if_pos hst))
  case restore => exact fun s e c p h hc hm hb hl hr =>
    eci_managedLong h hc hm rfl hb (if_neg (not_or.mpr ⟨Bool.eq_false_iff.mp hl, by simpa using hr⟩))
  case restoreBusy => exact fun s e c p h hc hm hb hr => eci_managed h hc hm rfl hb (if_pos (.inr (by simpa using hr)))
  case logStop =>
    rintro s e c _ _ h rfl hd hb rfl h31
    exact eci_of h rfl hd hb (if_pos (by simpa using h31))
  case logStart =>
    rintro s e c _ _ k _ h rfl hd hb rfl h31 hpasid hmig hk rfl
    exact eci_of h rfl hd hb ((if_neg (by simpa using h31)).trans ((if_neg (Bool.eq_false_iff.mp hpasid)).trans
      ((if_neg (Bool.eq_false_iff.mp hmig)).trans (by rw [hk]))))
  case logRestart =>
    rintro s e c _ _ _ h rfl hd hb rfl h31 hpasid hmig rfl
    exact eci_of h rfl hd hb ((if_neg (by simpa using h31)).trans ((if_neg (Bool.eq_false_iff.mp hpasid)).trans (if_pos hmig)))
  case remove => exact fun s e c p h hc hm hb hst => eci_managed h hc hm rfl hb (if_neg (not_not.mpr hst))
  case removeActive => exact fun s e c p h hc hm hb hst => eci_managed h hc hm rfl hb (if_pos hst)
  case role =>
    rintro s e c _ h rfl hd hb hw
    exact eci_of h rfl hd hb (if_neg (Bool.eq_false_iff.mp hw))
  case roleWaits =>
    rintro s e c _ h rfl hd hb hw
    exact eci_wait h rfl hd hb (if_pos hw)
  case perst => exact fun s port hn hp => congrArg _ (if_pos ⟨hn, by simpa using hp⟩)
  case hotReset => exact fun s port link he => congrArg _ (if_pos he)
  case perstEnd => exact fun s port hn hp => congrArg _ (if_pos ⟨hn, hp⟩)
  case vfEnable => exact fun s pf on num hpf hv => congrArg _ (if_pos ⟨hpf, hv⟩)
  case flrStart => exact fun s f h => congrArg _ (if_pos h)
  case flrAck =>
    intro s t r f engine hr he hd
    rw [execFlrEngineAck_discards hr he, hd, Option.elim_some]
  case flrHeld =>
    intro s r f engine hr he hd
    rw [execFlrEngineAck_discards hr he, hd, Option.elim_none]
  case flrSlow => exact fun s t u r f late hr ht hl hf hd => execFnFlrSlow_late hr ht hl hf hd
  case flrInTime =>
    intro s r f hr ht
    simp only [execFnFlrSlow, hr, if_pos ht]
  case quiesceLate =>
    intro s l g f hl hf hc hw ht hst
    refine congrArg _ (if_pos ⟨List.any_eq_true.mpr ⟨_, hl, ?_⟩, hst⟩)
    simp only [hf, hc, hw, ht, Option.isNone_none, beq_self_eq_true, decide_true, Bool.and_true]
  case migCons => exact fun s fn slot v hm hs => congrArg _ ((if_pos hs).trans (asManager_of hm _))

end Sys2Proof.Machine
end

section
/-! The copy engine (spec/15_copy_engine.md R358 to R370). -/

namespace Sys2Proof.Machine

section
variable {s u : State} {fn ch v : Nat}

/-- A write of CPY_CH_CTRL with GO and without STOP carries GO out. -/
theorem execCpyGo_managed (hm : s.managedBy fn) (hch : ch < 1024) (h31 : bit (putBits v 31 31 1) 31 = true)
    (h30 : bit (putBits v 31 31 1) 30 = false) (hu : u = s.wr F.CPY_CH_CTRL_FROM_HEAD ch (bits (putBits v 31 31 1) 29 29)) :
    execCpyGo fn ch v s = .next (u.cpyGo ch) := by
  refine congrArg _ ((if_pos hch).trans ((asManager_of hm _).trans ?_))
  simp only [State.cpyCtrl, h31, h30, ← hu, when_true, when_false]

/-- GO on an idle channel that may not start gives BAD_CFG (R367). -/
theorem cpyGo_refused (h0 : u.cpyState ch = 0) (hr : u.cpyRefused ch = true) :
    u.cpyGo ch = (u.wr F.CPY_CH_STATUS_CODE ch CPY_BAD_CFG).raise Ev.CPY_BAD_CFG := by
  simp [State.cpyGo, h0, hr, State.cpyEvent, CPY_BAD_CFG]

/-- GO on an idle channel that may start goes on from the descriptor at CUR, without FROM_HEAD (R367). -/
theorem cpyGo_runs {x : State} (h0 : u.cpyState ch = 0) (hr : u.cpyRefused ch = false) (hh : u.on F.CPY_CH_CTRL_FROM_HEAD ch = false)
    (hx : x = u.modCopy ch (fun c => { c with desc := [], started := 0, flush := none, yielded := false })) :
    u.cpyGo ch = ((x.when (x.rd F.PWR_DOMAIN_STATE 56 == 0) (fun t => t.domainOn 56)).wr F.CPY_CH_STATUS_COUNT ch 0).cpyRun ch := by
  subst hx
  simp [State.cpyGo, h0, hr, hh]

/-- A write of CPY_CH_CFG of a channel that is not fenced is the configuration's, by its place and the channel's state (R370). -/
theorem execCpyChCfgWrite_unfenced (w : Width) (hm : s.managedBy fn) (hch : ch < 1024) (h5 : s.cpyState ch ≠ 5) :
    execCpyChCfgWrite fn ch w v s = .next (s.cpyIdleWrite ch (if w = .high then 4 else 0) v (fun s =>
      s.put .CPY_CH_CFG ch (putBits (merge w (s.val .CPY_CH_CFG ch) v) 60 43 0))) := by
  have h5 : (s.cpyState ch == 5) = false := by simpa using h5
  refine congrArg _ ((if_pos hch).trans ((asManager_of hm _).trans ?_))
  simp only [State.cpyCfg, h5, when_false]

end

/-- A turn of a unit with a next channel: the descriptor is fetched where the channel has none, and its bytes move once it has
one and runs (R359, R362). -/
theorem execCpyTurn_next {s t : State} {unit ch : Nat} {io : CopyIo} (hn : s.nextCopy unit = some ch)
    (ht : t = { s with copyLast := s.copyLast.set unit ((ch + 1) % 64) }) :
    execCpyTurn unit io s = .next (let x := if (t.copy ch).desc = [] then t.cpyFetch ch io else t
      if (x.copy ch).desc = [] ∨ x.cpyState ch ≠ 1 then x else x.cpyTurn ch io) := by
  simp only [execCpyTurn, hn, ← ht, List.isEmpty_iff]

/-- Settles O35, clause by clause over the commands of a channel, its turns, its flush and its pacing. -/
theorem copyEngine : Obligations.CopyEngine := by
  unfold Obligations.CopyEngine
  -- each row's meaning stands for exec's arm
  dsimp only [exec]
  refine ⟨?goRefused, ?go, ?stop, ?cfgWrite, ?cfgLogged, ?flushed, ?flushFailed, ?turn, ?turnFetch, ?pace⟩
  case goRefused =>
    intro s u fn ch v hm hch h31 h30 hu h0 hr
    rw [execCpyGo_managed hm hch h31 h30 hu, cpyGo_refused h0 hr]
  case go =>
    intro s u x fn ch v hm hch h31 h30 hu h0 hr hh hx
    rw [execCpyGo_managed hm hch h31 h30 hu, cpyGo_runs h0 hr hh hx]
  case stop =>
    intro s u fn ch v hm hch h31 h30 hu ha h2 hb
    refine congrArg _ ((if_pos hch).trans ((asManager_of hm _).trans ?_))
    simp only [State.cpyCtrl, h31, h30, ← hu, when_true, when_false]
    exact cpyStop_waits ha h2 (Bool.eq_false_iff.mp hb)
  case cfgWrite =>
    intro s fn ch v w hm hch h
    rw [execCpyChCfgWrite_unfenced w hm hch (by omega), State.cpyIdleWrite, if_pos h]
  case cfgLogged =>
    intro s fn ch v hm hch h1 h3
    rw [execCpyChCfgWrite_unfenced .full hm hch (by omega), State.cpyIdleWrite, if_neg (by omega)]
    rfl
  case flushed | flushFailed =>
    intros
    rename _ = some _ => hf
    simp only [execCpyFlushDone, hf]
  case turn =>
    intro s t unit ch io hn hd ht
    have hdesc : (t.copy ch).desc ≠ [] := by rw [ht]; exact hd
    have hrun : t.cpyState ch = 1 := by rw [ht]; exact (nextCopy_runs hn : s.cpyState ch = 1)
    rw [execCpyTurn_next hn ht]
    simp only [if_neg hdesc]
    exact congrArg _ (if_neg (not_or.mpr ⟨hdesc, not_not.mpr hrun⟩))
  case turnFetch =>
    intro s t unit ch io hn hd ht
    rw [execCpyTurn_next hn rfl]
    simp only [if_pos (show (({ s with copyLast := s.copyLast.set unit ((ch + 1) % 64) } : State).copy ch).desc = [] from hd), ← ht]
  case pace =>
    intro s u ch m hm hch hsrc hw ht hu
    simp only [execCpyPaceMessage, hm, ← hu]
    exact congrArg _ ((if_neg (by omega)).trans ((if_neg (by omega)).trans (if_neg (not_not.mpr ht))))

end Sys2Proof.Machine
end

section
/-! The HBM controllers (spec/16_memory.md R374 to R386). -/

namespace Sys2Proof.Machine

/-- A refresh that has fallen due on a bank of a pseudo-channel in service (R378). -/
theorem execHbmRefreshDue_due {s t : State} {pc bank key : Nat} (busy : Bool) (hp : pc < 64) (hb : bank < 16)
    (hk : key = bankKey pc bank) (hst : s.rd F.HBM_PC_STATUS_STATE pc = 1)
    (hd : s.hbm.due.get key + s.refreshNs (pc / 32) ≤ s.now)
    (ht : t = s.modHbm (fun h => { h with due := h.due.set key s.now })) :
    execHbmRefreshDue pc bank busy s = .next (
      let n := s.hbm.post.get key + 1
      let put (s : State) (n : Nat) : State := (s.modHbm (fun h => { h with post := h.post.set key n })).postponedSync pc
      if !busy then put t 0
      else if n ≤ 8 then put t n
      else ((put t 0).count .HBM_CTR (pc / 32) C.HBM_REFRESH_FORCED).raiseLimited (Ev.HBM_REFRESH_FORCED (pc / 32)) 0 1000000) := by
  subst hk ht
  exact congrArg _ ((if_neg (by omega)).trans (if_neg (Nat.not_lt.mpr hd)))

/-- Settles O46, row by row over the HBM controllers' commands; a refresh by whether its bank is busy and how many are postponed. -/
theorem hbmControllers : Obligations.HbmControllers := by
  unfold Obligations.HbmControllers
  -- each row's meaning stands for exec's arm
  dsimp only [exec]
  refine ⟨?access, ?fenced, ?rowClose, ?refresh, ?early, ?srEnter, ?srExit, ?tempHigh, ?tempCrit, ?tempNormal, ?drift, ?repair⟩
  case access =>
    rintro s t u _ region off write late r hr hen ho rfl hf rfl rfl
    exact congrArg _ ((if_neg (by simp [hen]; omega)).trans (if_neg (Bool.eq_false_iff.mp hf)))
  case fenced =>
    rintro s _ region off write late r hr hen ho rfl hf
    exact congrArg _ ((if_neg (by simp [hen]; omega)).trans (if_pos hf))
  case rowClose =>
    intro s pc bank row x hx ht
    simp only [execHbmRowClose, hx, if_pos ht]
  case refresh =>
    rintro s t u pc bank n key busy hp hb hk hst hd rfl ht rfl
    rw [execHbmRefreshDue_due busy hp hb hk hst hd ht]
    subst ht
    cases busy with
    | false => rfl
    | true =>
      by_cases hn : s.hbm.post.get key + 1 ≤ 8
      · simp [hn, Nat.not_lt.mpr hn]
      · simp [hn, Nat.not_le.mp hn]
  case early =>
    rintro s pc bank _ hp hb rfl hst hd
    exact ⟨congrArg _ ((if_neg (by omega)).trans (if_pos hd)), congrArg _ ((if_neg (by omega)).trans (if_pos hd))⟩
  case srEnter => exact fun s k hk hp ht ha => congrArg _ (if_pos ⟨hk, hp, ht, ha⟩)
  case srExit => exact fun s k hk => congrArg _ (if_pos hk)
  case tempHigh => exact fun s k t hk h85 ht hh => congrArg _ (if_pos ⟨hk, h85, ht, by simpa using hh⟩)
  case tempCrit | tempNormal => exact fun s k t hk hlo hhi => congrArg _ (if_pos ⟨hk, hlo, hhi⟩)
  case drift => exact fun s k t hk ht hd => congrArg _ (if_pos ⟨hk, ht, hd⟩)
  case repair =>
    rintro s t u v pc bank row _ hp hb hr rfl hc hl rfl rfl rfl
    exact congrArg _ (if_neg (by omega))

end Sys2Proof.Machine
end

section
/-! Supplies, temperature, power states, resets and boot (spec/18_power_reset_package.md R402 to R422). -/

namespace Sys2Proof.Machine

section
variable {s : State}

/-- In SHUTDOWN no rail is up (R402, R409). -/
theorem not_powered_of_shut (h : s.supply.power = .shut) : ¬s.powered = true := by
  simp [State.powered, h]

/-- SHUTDOWN is not the state in which only the always-on domain is supplied. -/
theorem not_aon_of_shut (h : s.supply.power = .shut) : s.supply.power ≠ .aon := by
  simp [h]

end

/-- Settles O48, row by row over supplies, temperatures, power states, resets and boot: each row's condition selects its branch. -/
theorem powerAndResets : Obligations.PowerAndResets := by
  unfold Obligations.PowerAndResets
  -- each row's meaning stands for exec's arm
  dsimp only [exec]
  refine ⟨?vinLoss, ?vinLossShut, ?vinRestored, ?vinRestoredShut, ?overcurrent, ?phaseFault, ?railFault, ?gate, ?ungate, ?idleEnter,
    ?idleExit, ?rise, ?fall, ?tjHigh, ?tjCrit, ?thermalTrip, ?sensorFault, ?pllUnlock, ?pllRelock, ?pllTimeout, ?vinLow, ?vinHigh,
    ?aonLow, ?powerOn, ?aonLoss, ?coldRst, ?coldRstShut, ?coldRstShort, ?bootWatchdog, ?resetCold, ?resetWarm, ?resetCluster⟩
  case vinLoss => exact fun s mv hv hp => congrArg _ (if_pos ⟨hv, hp⟩)
  case vinLossShut =>
    exact fun s mv hv hp => congrArg _ ((if_neg fun h => not_powered_of_shut hp h.2).trans (if_pos ⟨hv, hp⟩))
  case vinRestored => exact fun s x io hv hp => congrArg _ ((if_neg (Nat.not_le.mpr hv)).trans (if_pos hp))
  case vinRestoredShut =>
    exact fun s x io hv hp hd =>
      congrArg _ ((if_neg (Nat.not_le.mpr hv)).trans ((if_neg (not_aon_of_shut hp)).trans (if_pos ⟨hp, hd⟩)))
  case overcurrent => exact fun s ca ns hc hn hp => congrArg _ (if_pos ⟨hc, hn, hp⟩)
  case phaseFault => exact fun s n hp hn ho => congrArg _ (if_pos ⟨hp, hn, ho⟩)
  case railFault => exact fun s d hp hd hst => congrArg _ (if_pos ⟨hp, hd, hst⟩)
  case gate => exact fun s c hp hc he hs hi ht hn hf => congrArg _ (if_pos ⟨hp, hc, he, hs, hi, hn, .inr ⟨ht, hf⟩⟩)
  case ungate => exact fun s c hp hc hg hst hd => congrArg _ (if_pos ⟨hp, hc, hg, hst, hd⟩)
  case idleEnter => exact fun s hp hst hm => congrArg _ (if_pos ⟨hp, hst, hm⟩)
  case idleExit => exact fun s hp hst hm => congrArg _ (if_pos ⟨hp, hst, by simpa using hm⟩)
  case rise =>
    rintro s _ x _ hp rfl hn ht rfl hw
    exact congrArg _ (if_pos ⟨hp, hn, ht, hw⟩)
  case fall =>
    rintro s _ x _ hp rfl hn ht rfl hw
    exact congrArg _ (if_pos ⟨hp, hn, ht, hw⟩)
  case tjHigh | tjCrit | thermalTrip => exact fun s x hp h => congrArg _ (if_pos ⟨hp, h⟩)
  case sensorFault => exact fun s n t hp hn hf hi => congrArg _ (if_pos ⟨hp, hn, by simpa using hf, hi⟩)
  case pllUnlock => exact fun s hp hn => congrArg _ (if_pos ⟨hp, hn⟩)
  case pllRelock =>
    intro s t ht hn hf
    simp only [execCorePllRelock, ht]
    exact congrArg _ (if_pos ⟨hn, hf⟩)
  case pllTimeout =>
    intro s t ht hd
    simp only [execCorePllTimeout, ht, if_pos hd]
  case vinLow | aonLow => exact fun s mv hp hlo hhi => congrArg _ (if_pos ⟨hp, hlo, hhi⟩)
  case vinHigh => exact fun s mv hp hv => congrArg _ (if_pos ⟨hp, hv⟩)
  case powerOn => exact fun s io h => congrArg _ (if_pos h)
  case aonLoss => exact fun s mv hv hp => congrArg _ (if_pos ⟨hv, hp⟩)
  case coldRst => exact fun s ns x io hn hp => congrArg _ ((if_neg (Nat.not_lt.mpr hn)).trans (if_pos hp))
  case coldRstShut =>
    exact fun s ns x io hn hp hd =>
      congrArg _ ((if_neg (Nat.not_lt.mpr hn)).trans ((if_neg (not_powered_of_shut hp)).trans (if_pos ⟨hp, hd⟩)))
  case coldRstShort => exact fun s ns x io hn => congrArg _ (if_pos hn)
  case bootWatchdog =>
    intro s t io hb hp hu ht
    simp only [execBootWatchdog, hb]
    exact congrArg _ (if_pos ⟨hp, by simpa using hu, ht⟩)
  case resetCold | resetWarm | resetCluster => exact fun _ _ _ _ => rfl

end Sys2Proof.Machine
end
